-- ==== Sys2Proof/Word.lean ====
section
/-!
DEFINITION. The word types of the block: 32-bit register words (02_boundary_and_access.md, the register slave
port) and bytes.
-/
namespace Sys2Proof

/-- One 32-bit word of a register, of an engine register or of shared memory. -/
abbrev Word := BitVec 32

/-- One byte of a frame, of a memory or of a value. -/
abbrev Byte := BitVec 8

end Sys2Proof
end

