-- ==== Sys2Proof/Syntax.lean ====
section
/-!
DEFINITION. The commands of the block: one constructor per row of spec/opcode_table.json, in its order. The operands are
what the row's rule takes from outside: a slave-port write carries the requesting function and the word, an event its
unit and the data that arrive with it (notes/assumptions/8.md). Units: `h` half, `p` port (8 and 9 the trunks), `t` trunk, `e`
engine, `q` queue pair, `d` domain, `k` interrupt target, `n` the unit of the row's own kind, or thread `n` of engine `e`.
Function: `fn` of a slave access, `f` of an admin command. Data: `data` the word written, of which the row's command bit acts
whatever the word holds there; `bytes`, `image`, `desc`, `descs`, `cmd`, `entry`, `word` what arrives or is fetched; `len` LEN
of a DIC_CMD write. Errors: `err`, `derr` an error response of the master port (of a descriptor and of its data), `full` no
free way, `fail` a read-back that differed, `fails` draws that fail the health test, `bad` the granules or words that fail,
`unc` uncorrectable; `ecc` of an instruction: 0 none, 1 corrected in the fetch, 2 uncorrectable in the fetch, 3 in the data.
An issue: `slot` the wheel's slot, `busy` the threads that are not ready. Instants: `ph` the eighth of a tick, `ofs` the bit
offset in the cell time, `sent` the bytes of the frame under way that have left, `j` the index of the byte that leaves now
(negative before the first), `step` how far a store commit has come (17_parameter_dictionary.md R410). A mode request: `clr`
writes 1 to REQ_ERR, `meets` tells that a hardware transition arises in the same cycle. What meets the command in its cycle
(notes/assumptions/9.md; an operand with a default is one that most uses leave there): `clr` of a capture a clear of VALID, `set`,
`rate` and `snap` a set, a rate write and a snapshot, `late` a follower that still sees removed entries or the objects that a
commit stores late, `missed` a follower that misses the switch message, `met` a halt from another source, a withdrawn offer or a
wake event of the same cycle, `restarts` a run's end, `written` a write of the word. Levels and kinds: `rises` the input goes
high, `spine` the link to the spine, `tx` the transmit clock, `crs` carrier sense, `own` an error an instruction has met,
`spill` addresses of placement traffic that met an error response.
-/
namespace Sys2Proof

/-- The commands (spec/opcode_table.json). -/
inductive Instr where
  /-- BLK_RST_N_ASSERT (R26): Assertion of BLK_RST_N puts the whole block into RESET and resets the Block and Half
      domains. -/
  | blkRstNAssert (step : Nat := 0)
  /-- BLK_RST_N_RELEASE (R26): Release of BLK_RST_N with SPINE ON takes the block from RESET to BRINGUP and starts
      the memory test. -/
  | blkRstNRelease
  /-- HALF_RESET_ASSERT (R428): Assertion of HALF_A_RST_N or HALF_B_RST_N resets one half; in Gweip-S the block
      enters SAFEHOLD with cause 6. -/
  | halfResetAssert (h : Nat)
  /-- HALF_RESET_RELEASE (R30): A half released from its own reset runs from time 0 and copies epoch, state and
      tables from the other half once the link is up. -/
  | halfResetRelease (h : Nat)
  /-- SAFE_RST_N_ASSERT (R358): SAFE_RST_N resets the safety island, unsealing it and returning its registers to
      reset values. -/
  | safeRstNAssert (rises : Bool := false)
  /-- AON_POWER_ON (R8): Power-on of the always-on island resets the AON domain and draws the block's own key. -/
  | aonPowerOn
  /-- MODE_REQ_CONFIG (R25): A BLK_MODE write with REQ_GO requesting CONFIG is checked against the transition table
      and taken or refused. -/
  | modeReqConfig (fn : Nat) (clr : Bool) (meets : Bool)
  /-- MODE_REQ_INTEGRATE (R26): A request for INTEGRATE is accepted only with a live course, the time set and the
      current gear valid on trunks and ports. -/
  | modeReqIntegrate (fn : Nat) (clr : Bool) (meets : Bool)
  /-- MODE_REQ_SAFEHOLD (R26): A software request for SAFEHOLD freezes queues, halts engines, pauses DMA and parks
      triggers. -/
  | modeReqSafehold (fn : Nat) (clr : Bool) (meets : Bool)
  /-- MODE_REQ_DORMANT (R394): A request for DORMANT is accepted when every domain other than AON, SPINE and the
      halves targets non-ON, and then powers the block down. -/
  | modeReqDormant (fn : Nat) (clr : Bool) (meets : Bool)
  /-- MODE_REQ_PENDING_CHECK (R27): A request that met a hardware transition is checked against the new mode in the
      next cycle. -/
  | modeReqPendingCheck
  /-- BIST_DONE (R28): The BRINGUP memory test ends, sets BIST_DONE, and sets BIST_FAIL if granules were retired. -/
  | bistDone (bad : List Nat)
  /-- ENTER_OPERATE (R26): The block moves from INTEGRATE to OPERATE when every enabled trunk has joined, or with no
      trunk enabled at the next 10 µs boundary. -/
  | enterOperate
  /-- HEARTBEAT_SEND (R21): Each half sends a heartbeat word every 64 cycles on its fixed schedule. -/
  | heartbeatSend (h : Nat)
  /-- HEARTBEAT_RECEIVE (R21): A received heartbeat restarts the gap count and counts towards link-up. -/
  | heartbeatReceive (spine : Bool) (h : Nat)
  /-- LINK_GLITCH (R21): The 65th cycle without a heartbeat sets BLK_HALF.LINK_GLITCH. -/
  | linkGlitch (h : Nat) (spine : Bool := false)
  /-- HALF_LINK_LOSS (R33): The 3,201st cycle without a heartbeat loses the link, and each half acts by its role and
      STANDBY_LEAD. -/
  | halfLinkLoss (h : Nat)
  /-- LEADER_SETTLEMENT (R32): Within 5 cycles of link-up the leader logic settles the claims, and the loser drops
      its claim and logs the event. -/
  | leaderSettlement
  /-- STATE_COPY_DONE (R32): The losing or released half finishes copying mode, gear and time from the winner. -/
  | stateCopyDone (h : Nat)
  /-- TABLE_COPY_DONE (R32): The half finishes copying the rule tables and graph slots, resumes admission and stops
      counting DROPS. -/
  | tableCopyDone (h : Nat)
  /-- SPINE_LINK_LOSS (R420): Loss of a half-to-spine link treats that half as lost, with a lead grant, SAFEHOLD, or
      granule containment. -/
  | spineLinkLoss (h : Nat)
  /-- REGISTER_WRITE (R7): A slave-port write to a register with no row of its own is applied field by field under
      its access codes. -/
  | registerWrite (fn : Nat) (off : Nat) (size : Nat) (data : BitVec 64)
  /-- READ_TIMEOUT (R16): A read that gets no answer within 256 cycles completes with an error response and zero. -/
  | readTimeout (off : Nat)
  /-- COUNTER_LATCH_READ (R54): A read of a 64-bit counter's low word copies the high word into its holding
      register. -/
  | counterLatchRead (fn : Nat) (off : Nat) (size : Nat)
  /-- PWR_FAIL_WARN (R395): An accepted power-fail warning starts the last gasp: commit, gasp frames, trunk Signal
      Fail and a stop on power-ups. -/
  | pwrFailWarn
  /-- CAPTURE_EDGE (R94): A filtered edge on a capture input writes its stamp to CTU_CAP_TS_n and sets VALID or
      OVERRUN. -/
  | captureEdge (n : Nat) (rising : Bool) (clr : Bool := false)
  /-- SYNC_IN_EDGE (R96): A SYNC_IN edge is matched to an expected point and may shift a free generator by a bounded
      step. -/
  | syncInEdge (rising : Bool)
  /-- SYNC_MISS_LIMIT (R96): No matched edge for SYNC_MISS expected points sets SYNC_LOST. -/
  | syncMissLimit (n : Nat)
  /-- CLOCK_LOSS (R41): A port or trunk clock absent for 8 nominal periods sets CLK_LOSS and logs a clock-loss
      fault. -/
  | clockLoss (trunk : Bool) (n : Nat) (tx : Bool := false)
  /-- CLOCK_RETURN (R418): The effects of clock loss end once the clock has run for 8 of its own periods. -/
  | clockReturn (trunk : Bool) (n : Nat) (tx : Bool := false)
  /-- TB_SET_WRITE (R72): A write of TB_SET's highest word in CONFIG loads the time and sets SET_DONE. -/
  | tbSetWrite (fn : Nat) (h : Nat) (data : Word)
  /-- TB_STEP_WRITE (R73): A write of TB_STEP's high word applies the single signed step or refuses it by mode. -/
  | tbStepWrite (fn : Nat) (h : Nat) (data : Word) (set : Bool := false) (rate : Bool := false) (snap : Bool := false)
  /-- TB_RATE_WRITE (R68): A write of TB_RATE sets the rate offset, clamped to ±500 ppm, from the next tick. -/
  | tbRateWrite (fn : Nat) (h : Nat) (data : Word)
  /-- FOLLOWER_TIME_APPLY (R70): The follower applies a set, step or rate change of the leader in its first tick
      after the change arrives. -/
  | followerTimeApply
  /-- SNAPSHOT_LATCH (R78): A write of 1 to TB_SNAP_CMD.LATCH latches a time snapshot. -/
  | snapshotLatch (fn : Nat) (h : Nat) (data : Word)
  /-- TB_SNAP_NS_READ (R78): A read of TB_SNAP_NS latches a snapshot and returns its nanoseconds. -/
  | tbSnapNsRead (fn : Nat) (h : Nat)
  /-- PPS_PULSE_START (R83): A tick in which the leader's seconds increase raises PPS_OUT. -/
  | ppsPulseStart
  /-- PPS_PULSE_END (R83): PPS_OUT falls when its WIDTH has elapsed. -/
  | ppsPulseEnd
  /-- GENERATOR_ENABLE (R87): An enabling write of CTU_GEN_CFG_n starts a generator, clears ACC, or sets CFG_ERR. -/
  | generatorEnable (fn : Nat) (n : Nat) (data : Word)
  /-- GENERATOR_DISABLE (R88): A CTU_GEN_CFG_n write with EN = 0 stops the generator. -/
  | generatorDisable (fn : Nat) (n : Nat) (data : Word)
  /-- CYCLE_BOUNDARY (R86): A generator reaches a cycle boundary, raises its source and CYCLE events, and schedules
      trigger pulses. -/
  | cycleBoundary (n : Nat)
  /-- TRIGGER_CONFIG_WRITE (R91): A write of a trigger's CFG, OFS or WIDTH is checked, takes effect at the next
      boundary, or parks the output with BIND_ERR. -/
  | triggerConfigWrite (fn : Nat) (n : Nat) (which : Nat) (data : Word)
  /-- TRIGGER_RISE (R90): A trigger output becomes active at boundary plus OFS. -/
  | triggerRise (n : Nat)
  /-- TRIGGER_FALL (R90): A trigger output becomes inactive when WIDTH has elapsed. -/
  | triggerFall (n : Nat)
  /-- CAPTURE_TS_READ (R95): A read of CTU_CAP_TS_n bytes 0–3 latches the SEC and NS words into a holding register. -/
  | captureTsRead (fn : Nat) (n : Nat)
  /-- TB_CLOCK_LOSS (R417): No tick word for 64 cycles is a time-base clock loss: SET_DONE and JOINED clear and a
      class C fault is logged. -/
  | tbClockLoss (h : Nat)
  /-- TB_TICKS_RESUME (R417): When ticks resume the time continues from its held value and pending enabling writes
      take effect. -/
  | tbTicksResume (h : Nat)
  /-- FRAME_RECEIVE (R101): A frame received on a field port is judged by length and FCS, filtered and passed
      towards parsing. -/
  | frameReceive (p : Nat) (bytes : List Byte) (eof : Bool) (rxErr : Bool) (asm : Nat) (ph : Nat)
  /-- BYTE_TRIGGER (R122): A byte trigger event rises when byte k of the bound frame is in the window, or at frame
      end with SHORT. -/
  | byteTrigger (e : Nat) (n : Nat) (k : Nat)
  /-- CUT_THROUGH_START (R113): A frame starts in cut-through on an egress once its first 40 bytes, or r + 1 bytes,
      have arrived and the conditions hold. -/
  | cutThroughStart (p : Nat) (ph : Nat) (sent : Nat := 0)
  /-- MAC_CTL_WRITE (R99): A MAC_CTL write changes speed and duplex only while the port is disabled, otherwise sets
      CFG_ERR. -/
  | macCtlWrite (fn : Nat) (p : Nat) (data : Word)
  /-- PAUSE_FRAME_RECEIVE (R106): A received PAUSE or PFC frame is consumed and may start a pause timer. -/
  | pauseFrameReceive (p : Nat) (pfc : Bool) (enable : Nat) (quanta : List Nat)
  /-- PAUSE_TIMER_EXPIRY (R106): A running PAUSE or PFC timer expires and transmission of the paused classes
      resumes. -/
  | pauseTimerExpiry (p : Nat) (cls : Nat)
  /-- PAUSE_REPEAT (R107): While occupancy stays above XON the PAUSE frame is resent every TX_QUANTA/2 quanta. -/
  | pauseRepeat (p : Nat) (cls : Nat)
  /-- COLLISION (R102): A collision in half duplex triggers back-off, or abandons the frame on a late or 16th
      collision. -/
  | collision (p : Nat) (late : Bool)
  /-- BACKOFF_EXPIRY (R102): The back-off delay ends and the frame is attempted again. -/
  | backoffExpiry (p : Nat)
  /-- VERIFY_RESPONSE (R108): An SMD-R response completes the preemption verify procedure successfully. -/
  | verifyResponse (p : Nat)
  /-- VERIFY_TIMEOUT (R108): VERIFY_TIME passes without SMD-R, and verify retries or fails after 3 tries. -/
  | verifyTimeout (p : Nat)
  /-- FRAME_TRANSMIT_START (R109): At a frame start the port chooses the next frame by PAUSE, class, gate and
      preemption. -/
  | frameTransmitStart (p : Nat) (ph : Nat) (sent : Nat := 0) (crs : Bool := false)
  /-- FRAME_TRANSMIT_END (R100): A frame finishes leaving a port, and the port counts it and raises TX_DONE where it
      was the last copy. -/
  | frameTransmitEnd (p : Nat)
  /-- GATE_ENTRY_EXPIRY (R110): A gate list entry's INTERVAL ends and the next entry takes effect. -/
  | gateEntryExpiry (p : Nat)
  /-- GATE_LIST_WRITE (R112): A write to a gate list entry or to MAC_GCL_CTL VALID is refused for valid or in-use
      gears. -/
  | gateListWrite (fn : Nat) (p : Nat) (ctl : Bool) (g : Nat) (idx : Nat) (hi : Bool) (data : Word)
  /-- EDIT_QUEUED (R123): An armed edit reaches the port's edit queue, or is dropped as FULL. -/
  | editQueued (p : Nat) (j : Int := 0)
  /-- EDIT_LATE (R125): An edit not in the queue at the start of L(w − 16) is dropped whole and reported late. -/
  | editLate (p : Nat) (j : Int := 0)
  /-- COUNTER_CLEAR (R128): A write of 1 to a unit's CNT_CLR register sets all its counters to 0 in one cycle. -/
  | counterClear (fn : Nat) (off : Nat)
  /-- TRK_CFG_WRITE (R132): A TRK_CFG write sets mode, enable and correction, starting or stopping the cell grid. -/
  | trkCfgWrite (fn : Nat) (t : Nat) (data : Word)
  /-- PMA_LOCK_CHANGE (R141): A change of TRn_PMA_LOCK holds delineation in HUNT or loses SYNC. -/
  | pmaLockChange (t : Nat) (level : Bool)
  /-- CELL_RECEIVE (R142): A received cell header is checked by delineation, and the cell is judged and counted. -/
  | cellReceive (t : Nat) (ofs : Nat) (bytes : List Byte) (ph : Nat)
  /-- LINK_FAULT_RECEIVE (R133): A received Local or Remote Fault in BASE-R mode changes what the MAC sends. -/
  | linkFaultReceive (t : Nat) (fault : Nat)
  /-- CELL_SLOT (R148): At each cell boundary of the grid the transmitter sends an overhead, frame, urgent or idle
      cell. -/
  | cellSlot (t : Nat) (ph : Nat)
  /-- SUPERFRAME_INSTANT (R146): A 10 µs instant of the time base starts a superframe at the next cell boundary. -/
  | superframeInstant (h : Nat)
  /-- SUPERFRAME_TIMEOUT (R150): No overhead cell by the 501st or 201st cell time counts RX_SF_ERR and restarts the
      numbering. -/
  | superframeTimeout (t : Nat)
  /-- OVERHEAD_CELL_RECEIVE (R164): A received overhead cell gives delay and offset, gear and switching information. -/
  | overheadCellReceive (t : Nat)
  /-- URGENT_CELL_RECEIVE (R170): A received urgent management cell is acted on and relayed. -/
  | urgentCellReceive (t : Nat)
  /-- LISTEN_TIMER_EXPIRY (R171): The cold-start listen timer ends, and a capable node starts sending cold-start
      cells. -/
  | listenTimerExpiry
  /-- COLDSEND_COMPLETE (R171): After 8 own cold-start superframes with no contest the node becomes MASTER and
      JOINED. -/
  | coldsendComplete
  /-- SOURCE_LOSS_TIMEOUT (R171): The source cell is missing for 3 superframe times during integration, so the node
      returns to LISTEN. -/
  | sourceLossTimeout
  /-- TRK_SLOT_DATA_WRITE (R174): A write of a slot table entry is refused for a valid gear, or is stored with auto-
      increment. -/
  | trkSlotDataWrite (fn : Nat) (t : Nat) (data : Word)
  /-- TRK_SLOT_DATA_READ (R174): A read of TRK_SLOT_DATA returns the entry and advances SLOT under AUTOINC. -/
  | trkSlotDataRead (fn : Nat) (t : Nat)
  /-- GEAR_VALID_WRITE (R175): A write that sets VALID bits checks each gear's entries and relief, setting GEAR_ERR
      on failure. -/
  | gearValidWrite (fn : Nat) (t : Nat) (data : Word)
  /-- SHIFT_REQUEST (R177): A TRK_SHIFT write with GO at the schedule master announces a gear shift or sets a
      refusal RESULT. -/
  | shiftRequest (fn : Nat) (data : Word)
  /-- FORCED_SWITCH (R180): TRK_PROT_CMD CMD 1 raises a Forced Switch request on this port. -/
  | forcedSwitch (fn : Nat) (t : Nat)
  /-- MANUAL_SWITCH (R180): CMD 2 raises a Manual Switch request, refused with MS_REFUSED under a higher request. -/
  | manualSwitch (fn : Nat) (t : Nat)
  /-- LOCKOUT (R180): CMD 3 raises a Lockout request at the node. -/
  | lockout (fn : Nat) (t : Nat)
  /-- CLEAR_COMMAND (R180): CMD 4 clears the node's own Lockout and its Forced or Manual Switch. -/
  | clearCommand (fn : Nat) (t : Nat)
  /-- SIGNAL_FAIL_LOCAL (R181): A port takes local Signal Fail when its hold-off or overhead silence expires. -/
  | signalFailLocal (t : Nat)
  /-- SD_WINDOW_END (R181): At the end of a 1,000-superframe window Signal Degrade is set or cleared by the bad-
      header count. -/
  | sdWindowEnd (t : Nat)
  /-- WTR_EXPIRY (R185): The owner's Wait-to-Restore timer ends, the owner blocks OWNER_PORT and the ring returns to
      IDLE. -/
  | wtrExpiry
  /-- PARSE_ENTRY (R191): A frame offered to the pipeline enters in round-robin order and takes the current course. -/
  | parseEntry (h : Nat)
  /-- PARSE_STEP (R199): A parse step visits one node once its bytes are present: marks, flags, key copies, next
      node and advance. -/
  | parseStep (h : Nat) (idx : Nat)
  /-- GRAPH_LOAD (R206): A PRS_LOAD_CTL write with GO starts a graph image load into a slot or refuses it. -/
  | graphLoad (fn : Nat) (data : Word)
  /-- GRAPH_LOAD_DONE (R207): A graph load ends with its RESULT and marks the slot valid or not. -/
  | graphLoadDone (image : List Byte) (err : Bool)
  /-- TRACE_ARM (R209): A write of ARM traces the next frame from SRC through the parse graph. -/
  | traceArm (fn : Nat) (h : Nat) (data : Word)
  /-- PRS_NODE_DATA_READ (R208): A read of PRS_NODE_DATA returns a node word and advances the address under AUTOINC. -/
  | prsNodeDataRead (fn : Nat) (h : Nat)
  /-- CLASSIFY (R211): The classifier runs the lookups on a parse result and sends the frame to its destinations. -/
  | classify (h : Nat) (late : Bool := false)
  /-- STAGE_OPEN (R218): CLS_STAGE_CTL OP 1 opens a stage copied from the current course. -/
  | stageOpen (fn : Nat)
  /-- STAGE_OPEN_EMPTY (R218): OP 2 opens an empty stage with reset profile values. -/
  | stageOpenEmpty (fn : Nat)
  /-- STAGE_ABANDON (R218): OP 3 clears STAGE and closes the stage. -/
  | stageAbandon (fn : Nat)
  /-- STAGE_OPEN_DONE (R218): An OPEN or OPEN_EMPTY takes effect, and waiting commands proceed. -/
  | stageOpenDone
  /-- TCAM_WRITE (R218): CLS_TCAM_CMD WRITE stores value, mask and action at an entry and stages it. -/
  | tcamWrite (fn : Nat)
  /-- TCAM_ADD (R218): ADD sets STAGE on an existing entry. -/
  | tcamAdd (fn : Nat)
  /-- TCAM_DEL (R218): DEL clears STAGE on an entry. -/
  | tcamDel (fn : Nat)
  /-- TCAM_READ (R218): READ loads an entry into the CLS_TCAM_ registers. -/
  | tcamRead (fn : Nat)
  /-- COMMIT_REQUEST (R219): A CLS_COMMIT write with GO is checked in order and accepted or refused. -/
  | commitRequest (fn : Nat) (data : Word)
  /-- COMMIT_COMPLETE (R220): Once both halves have prepared, the new course becomes current and RESULT 1 is set. -/
  | commitComplete (missed : Bool := false)
  /-- COURSE_RETIRE (R221): A draining course with no frames in flight in any half retires and frees its position. -/
  | courseRetire (n : Nat)
  /-- EM_INSERT_FLOW (R225): CLS_EM_CMD OP 1 inserts a flow entry. -/
  | emInsertFlow (fn : Nat) (data : Word)
  /-- EM_INSERT_FWD (R225): OP 2 inserts a static forwarding entry. -/
  | emInsertFwd (fn : Nat) (data : Word)
  /-- EM_DELETE (R225): OP 3 removes an entry of the given type. -/
  | emDelete (fn : Nat) (data : Word)
  /-- EM_READ (R225): OP 4 loads an entry's action into CLS_EM_ACT. -/
  | emRead (fn : Nat) (data : Word)
  /-- EM_COMMAND_DONE (R225): An exact-match command ends with its RESULT within 4 µs. -/
  | emCommandDone (full : Bool)
  /-- EM_CFG_WRITE (R223): A write of CLS_EM_CFG.LOG2 in CONFIG sizes and empties the exact-match table. -/
  | emCfgWrite (fn : Nat) (data : Word)
  /-- LEARN_UPDATE (R226): A learning change lands in the forwarding table within 16 cycles of classification. -/
  | learnUpdate (full : Bool)
  /-- AGER_VISIT (R227): The ager visits a learned entry and clears HIT or marks it for removal. -/
  | agerVisit (h : Nat) (idx : Nat)
  /-- AGE_REMOVAL (R228): Eight cycles after its visit an unhit entry is removed from both copies, unless a hit
      saves it. -/
  | ageRemoval (h : Nat) (idx : Nat)
  /-- FLUSH_REQUEST (R229): A CLS_FLUSH write with GO increments GEN_T or GEN_A. -/
  | flushRequest (fn : Nat) (data : Word)
  /-- FLUSH_SWEEP_DONE (R229): The sweep completes a pass removing flushed entries, counted in SWEPT. -/
  | flushSweepDone
  /-- RECOVERY_RESET_TIMEOUT (R234): No acceptance for RESET_MS ms resets a stream's recovery history. -/
  | recoveryResetTimeout (e : Nat) (n : Nat)
  /-- THREAD_RELEASE (R244): A host write of CE_THR_CTL RELEASE releases a thread. -/
  | threadRelease (fn : Nat) (e : Nat) (n : Nat) (data : Word) (met : Bool := false)
  /-- THREAD_HALT (R244): A host write of CE_THR_CTL HALT halts a thread. -/
  | threadHalt (fn : Nat) (e : Nat) (n : Nat) (data : Word)
  /-- RUN_SET (R248): A change of CE_CTL.RUN from 0 to 1 sends the release of R247. -/
  | runSet (fn : Nat) (e : Nat) (data : Word) (met : Nat := 0)
  /-- RUN_CLEAR (R248): A change of RUN from 1 to 0 halts every thread of the engine. -/
  | runClear (fn : Nat) (e : Nat) (data : Word)
  /-- EVENT_WAIT_COMPLETE (R250): A selected event becomes pending and a WAITING thread's wait completes. -/
  | eventWaitComplete (e : Nat) (n : Nat)
  /-- THREAD_TIMER_EXPIRY (R251): A thread's timer reaches 0 and sets TIMER. -/
  | threadTimerExpiry (e : Nat) (n : Nat)
  /-- HOST_EVENT (R250): A host write of 1 to CE_THR_EVT.HOST raises the HOST event. -/
  | hostEvent (fn : Nat) (e : Nat) (n : Nat)
  /-- SPLICE_FETCH_DONE (R258): The splice source fetch ends and the entry's word 3 shows the edit queued or FULL. -/
  | spliceFetchDone
  /-- ALU_ADD (R269): ALU ADD: gd := ga + gb. -/
  | aluAdd (e : Nat) (n : Nat) (slot : Nat) (busy : Nat) (ecc : Nat)
  /-- ALU_SUB (R269): ALU SUB: gd := ga − gb. -/
  | aluSub (e : Nat) (n : Nat) (slot : Nat) (busy : Nat) (ecc : Nat)
  /-- ALU_AND (R269): ALU AND of ga and gb. -/
  | aluAnd (e : Nat) (n : Nat) (slot : Nat) (busy : Nat) (ecc : Nat)
  /-- ALU_OR (R269): ALU OR of ga and gb. -/
  | aluOr (e : Nat) (n : Nat) (slot : Nat) (busy : Nat) (ecc : Nat)
  /-- ALU_XOR (R269): ALU XOR of ga and gb. -/
  | aluXor (e : Nat) (n : Nat) (slot : Nat) (busy : Nat) (ecc : Nat)
  /-- ALU_ANDN (R269): ALU ANDN: ga AND NOT gb. -/
  | aluAndn (e : Nat) (n : Nat) (slot : Nat) (busy : Nat) (ecc : Nat)
  /-- ALU_SHL (R269): ALU shift left by gb[4:0]. -/
  | aluShl (e : Nat) (n : Nat) (slot : Nat) (busy : Nat) (ecc : Nat)
  /-- ALU_SHR (R269): ALU logical shift right by gb[4:0]. -/
  | aluShr (e : Nat) (n : Nat) (slot : Nat) (busy : Nat) (ecc : Nat)
  /-- ALU_SAR (R269): ALU arithmetic shift right by gb[4:0]. -/
  | aluSar (e : Nat) (n : Nat) (slot : Nat) (busy : Nat) (ecc : Nat)
  /-- ALU_MUL (R269): ALU MUL: low 32 bits of ga × gb in 2 cycles. -/
  | aluMul (e : Nat) (n : Nat) (slot : Nat) (busy : Nat) (ecc : Nat)
  /-- ALU_MIN (R269): ALU signed minimum. -/
  | aluMin (e : Nat) (n : Nat) (slot : Nat) (busy : Nat) (ecc : Nat)
  /-- ALU_MAX (R269): ALU signed maximum. -/
  | aluMax (e : Nat) (n : Nat) (slot : Nat) (busy : Nat) (ecc : Nat)
  /-- ALU_MINU (R269): ALU unsigned minimum. -/
  | aluMinu (e : Nat) (n : Nat) (slot : Nat) (busy : Nat) (ecc : Nat)
  /-- ALU_MAXU (R269): ALU unsigned maximum. -/
  | aluMaxu (e : Nat) (n : Nat) (slot : Nat) (busy : Nat) (ecc : Nat)
  /-- ADDI (R269): gd := ga + sext(IMM). -/
  | addi (e : Nat) (n : Nat) (slot : Nat) (busy : Nat) (ecc : Nat)
  /-- ANDI (R269): gd := ga AND zext(IMM). -/
  | andi (e : Nat) (n : Nat) (slot : Nat) (busy : Nat) (ecc : Nat)
  /-- ORI (R269): gd := ga OR zext(IMM). -/
  | ori (e : Nat) (n : Nat) (slot : Nat) (busy : Nat) (ecc : Nat)
  /-- XORI (R269): gd := ga XOR zext(IMM). -/
  | xori (e : Nat) (n : Nat) (slot : Nat) (busy : Nat) (ecc : Nat)
  /-- SHI_SHL (R269): Shift left by an immediate. -/
  | shiShl (e : Nat) (n : Nat) (slot : Nat) (busy : Nat) (ecc : Nat)
  /-- SHI_SHR (R269): Logical shift right by an immediate. -/
  | shiShr (e : Nat) (n : Nat) (slot : Nat) (busy : Nat) (ecc : Nat)
  /-- SHI_SAR (R269): Arithmetic shift right by an immediate. -/
  | shiSar (e : Nat) (n : Nat) (slot : Nat) (busy : Nat) (ecc : Nat)
  /-- SHI_ROR (R269): Rotate right by an immediate. -/
  | shiRor (e : Nat) (n : Nat) (slot : Nat) (busy : Nat) (ecc : Nat)
  /-- LUI (R269): gd := IMM[15:0] × 2^16. -/
  | lui (e : Nat) (n : Nat) (slot : Nat) (busy : Nat) (ecc : Nat)
  /-- EXT (R270): Extracts a bit field of ga into gd, zero- or sign-extended. -/
  | ext (e : Nat) (n : Nat) (slot : Nat) (busy : Nat) (ecc : Nat)
  /-- INS (R270): Inserts ga's low bits into a field of gd. -/
  | ins (e : Nat) (n : Nat) (slot : Nat) (busy : Nat) (ecc : Nat)
  /-- CMP (R271): Sets cc from ga − gb. -/
  | cmp (e : Nat) (n : Nat) (slot : Nat) (busy : Nat) (ecc : Nat)
  /-- CMPI (R271): Sets cc from ga − sext(IMM). -/
  | cmpi (e : Nat) (n : Nat) (slot : Nat) (busy : Nat) (ecc : Nat)
  /-- B (R271): Branches relative to its own pc when COND holds. -/
  | b (e : Nat) (n : Nat) (slot : Nat) (busy : Nat) (ecc : Nat)
  /-- JAL (R271): Jumps relative and links pc + 4 into gd. -/
  | jal (e : Nat) (n : Nat) (slot : Nat) (busy : Nat) (ecc : Nat)
  /-- JALR (R271): Jumps to ga + sext(IMM) and links pc + 4 into gd. -/
  | jalr (e : Nat) (n : Nat) (slot : Nat) (busy : Nat) (ecc : Nat)
  /-- LD (R272): Loads from the slice or shared space into gd. -/
  | ld (e : Nat) (n : Nat) (slot : Nat) (busy : Nat) (ecc : Nat)
  /-- ST (R272): Stores gd to the slice or shared space. -/
  | st (e : Nat) (n : Nat) (slot : Nat) (busy : Nat) (ecc : Nat)
  /-- FLD (R273): Loads bound-frame bytes in network order, waiting for bytes not yet present. -/
  | fld (e : Nat) (n : Nat) (slot : Nat) (busy : Nat) (ecc : Nat)
  /-- FST (R273): Stores bytes into the bound frame. -/
  | fst (e : Nat) (n : Nat) (slot : Nat) (busy : Nat) (ecc : Nat)
  /-- FRM_TAKE (R274): Binds the head of the receive queue or reports it empty. -/
  | frmTake (e : Nat) (n : Nat) (slot : Nat) (busy : Nat) (ecc : Nat)
  /-- FRM_DISP (R275): Disposes of the bound frame to a destination, optionally holding it. -/
  | frmDisp (e : Nat) (n : Nat) (slot : Nat) (busy : Nat) (ecc : Nat)
  /-- FRM_FREE (R274): Ends the binding, dropping the frame if it was never disposed. -/
  | frmFree (e : Nat) (n : Nat) (slot : Nat) (busy : Nat) (ecc : Nat)
  /-- FRM_TRIG_ARM (R274): Arms byte trigger k on offset fwp + ga. -/
  | frmTrigArm (e : Nat) (n : Nat) (slot : Nat) (busy : Nat) (ecc : Nat)
  /-- FRM_TRIG_DISARM (R274): Disarms byte trigger k. -/
  | frmTrigDisarm (e : Nat) (n : Nat) (slot : Nat) (busy : Nat) (ecc : Nat)
  /-- FRM_FINFO (R276): Returns a frame information word of the selector. -/
  | frmFinfo (e : Nat) (n : Nat) (slot : Nat) (busy : Nat) (ecc : Nat)
  /-- SPL (R277): Arms one of the thread's splice entries on the bound frame. -/
  | spl (e : Nat) (n : Nat) (slot : Nat) (busy : Nat) (ecc : Nat)
  /-- MFS (R263): Reads a special register into gd. -/
  | mfs (e : Nat) (n : Nat) (slot : Nat) (busy : Nat) (ecc : Nat)
  /-- MTS (R263): Writes a special register from ga. -/
  | mts (e : Nat) (n : Nat) (slot : Nat) (busy : Nat) (ecc : Nat)
  /-- WAIT (R278): Waits for an event of the mask and returns the pending bits. -/
  | wait (e : Nat) (n : Nat) (slot : Nat) (busy : Nat) (ecc : Nat)
  /-- SIG (R278): Raises SIGNAL in a thread of the same cluster. -/
  | sig (e : Nat) (n : Nat) (slot : Nat) (busy : Nat) (ecc : Nat)
  /-- TIME (R279): Reads the half's time of day into three registers. -/
  | time (e : Nat) (n : Nat) (slot : Nat) (busy : Nat) (ecc : Nat)
  /-- AMO_SWAP (R280): Atomic swap on a shared-memory word. -/
  | amoSwap (e : Nat) (n : Nat) (slot : Nat) (busy : Nat) (ecc : Nat)
  /-- AMO_ADD (R280): Atomic add on a shared-memory word. -/
  | amoAdd (e : Nat) (n : Nat) (slot : Nat) (busy : Nat) (ecc : Nat)
  /-- AMO_AND (R280): Atomic AND on a shared-memory word. -/
  | amoAnd (e : Nat) (n : Nat) (slot : Nat) (busy : Nat) (ecc : Nat)
  /-- AMO_OR (R280): Atomic OR on a shared-memory word. -/
  | amoOr (e : Nat) (n : Nat) (slot : Nat) (busy : Nat) (ecc : Nat)
  /-- AMO_XOR (R280): Atomic XOR on a shared-memory word. -/
  | amoXor (e : Nat) (n : Nat) (slot : Nat) (busy : Nat) (ecc : Nat)
  /-- AMO_CAS (R280): Atomic compare-and-swap on a shared-memory word. -/
  | amoCas (e : Nat) (n : Nat) (slot : Nat) (busy : Nat) (ecc : Nat)
  /-- CRC (R281): Advances a CRC register over 1, 2 or 4 bytes of ga. -/
  | crc (e : Nat) (n : Nat) (slot : Nat) (busy : Nat) (ecc : Nat)
  /-- CHKF (R282): Feeds bytes of ga to a check unit of the half. -/
  | chkf (e : Nat) (n : Nat) (slot : Nat) (busy : Nat) (ecc : Nat)
  /-- THC_TPC (R283): The master sets a thread's pc. -/
  | thcTpc (e : Nat) (n : Nat) (slot : Nat) (busy : Nat) (ecc : Nat)
  /-- THC_TSLC (R283): The master sets a thread's slice. -/
  | thcTslc (e : Nat) (n : Nat) (slot : Nat) (busy : Nat) (ecc : Nat)
  /-- THC_TGW (R283): The master writes a thread's general register. -/
  | thcTgw (e : Nat) (n : Nat) (slot : Nat) (busy : Nat) (ecc : Nat)
  /-- THC_TGR (R283): The master reads a thread's general register. -/
  | thcTgr (e : Nat) (n : Nat) (slot : Nat) (busy : Nat) (ecc : Nat)
  /-- THC_TREL (R283): The master releases the threads in a mask. -/
  | thcTrel (e : Nat) (n : Nat) (slot : Nat) (busy : Nat) (ecc : Nat) (met : Nat := 0)
  /-- THC_THLT (R283): The master halts the threads in a mask. -/
  | thcThlt (e : Nat) (n : Nat) (slot : Nat) (busy : Nat) (ecc : Nat)
  /-- THC_TST (R283): The master reads a thread's status. -/
  | thcTst (e : Nat) (n : Nat) (slot : Nat) (busy : Nat) (ecc : Nat)
  /-- DOORBELL_TX (R304): A doorbell on the transmit or command ring sets the new tail, with optional pushed
      descriptors. -/
  | doorbellTx (fn : Nat) (q : Nat) (data : Word)
  /-- DOORBELL_RX (R304): A doorbell on the receive ring sets the new tail. -/
  | doorbellRx (fn : Nat) (q : Nat) (data : Word)
  /-- DOORBELL_CQ (R304): A doorbell on the completion ring moves the CQ head. -/
  | doorbellCq (fn : Nat) (q : Nat) (data : Word)
  /-- PUSH_SLOT_WRITE (R305): A write to a push slot stores a descriptor for the next doorbell. -/
  | pushSlotWrite (fn : Nat) (q : Nat) (k : Nat) (w : Nat) (data : Word)
  /-- DESCRIPTOR_FETCH (R294): The queue manager fetches a transmit descriptor, checks it and takes its frame into
      buffer memory. -/
  | descriptorFetch (q : Nat) (desc : List Byte) (err : Bool) (data : List Byte) (derr : Bool)
  /-- RX_DELIVERY (R296): A whole frame is written into posted receive buffers, or discarded for lack of room. -/
  | rxDelivery (q : Nat) (descs : List Byte) (err : Nat) (derr : Nat := 0)
  /-- COMPLETION_WRITE (R300): A due completion is written with its PHASE once the ring has room. -/
  | completionWrite (q : Nat) (err : Bool := false)
  /-- ADMIN0_ENABLE (R289): A write of Q_ADMIN0_CFG.EN = 1 starts function 0's admin queue. -/
  | admin0Enable (fn : Nat) (data : Word)
  /-- CREATE_FUNCTION (R310): Admin command creating a function, its key and its admin queue. -/
  | createFunction (f : Nat) (cmd : List Byte) (err : Bool) (fails : Nat)
  /-- DESTROY_FUNCTION (R317): Admin command destroying a function's queues and key and freeing it. -/
  | destroyFunction (f : Nat) (cmd : List Byte) (err : Bool)
  /-- SET_QUOTA (R318): Admin command replacing a function's limits. -/
  | setQuota (f : Nat) (cmd : List Byte) (err : Bool)
  /-- CREATE_QUEUE (R311): Admin command creating and placing a queue pair. -/
  | createQueue (f : Nat) (cmd : List Byte) (err : Bool)
  /-- DESTROY_QUEUE (R316): Admin command destroying a queue pair. -/
  | destroyQueue (f : Nat) (cmd : List Byte) (err : Bool)
  /-- QUEUE_DESTROY_COMPLETE (R316): After the last frames have finished, the destroy's admin completion is written
      and GEN increments. -/
  | queueDestroyComplete
  /-- BIND_PORT (R314): Admin command replacing a queue pair's bound ports. -/
  | bindPort (f : Nat) (cmd : List Byte) (err : Bool)
  /-- BIND_CLASS (R314): Admin command binding or unbinding a parse class to a queue pair. -/
  | bindClass (f : Nat) (cmd : List Byte) (err : Bool)
  /-- QUERY (R315): Admin command returning function or queue information. -/
  | query (f : Nat) (cmd : List Byte) (err : Bool)
  /-- DMA_START (R324): A DMA_CH_CTL write with START checks the setup and starts a run. -/
  | dmaStart (fn : Nat) (n : Nat) (data : Word)
  /-- DMA_PAUSE (R329): PAUSE drains a running channel towards PAUSED. -/
  | dmaPause (fn : Nat) (n : Nat) (data : Word)
  /-- DMA_RESUME (R334): RESUME continues a paused channel or refetches an END entry. -/
  | dmaResume (fn : Nat) (n : Nat) (data : Word)
  /-- DMA_ABORT (R329): ABORT drains a channel towards IDLE with ABORTED. -/
  | dmaAbort (fn : Nat) (n : Nat) (data : Word)
  /-- DMA_LAST_WRITE_ISSUED (R329): The run's last write is issued, and the run ends or enters FENCING. -/
  | dmaLastWriteIssued (n : Nat) (data : List Byte)
  /-- DMA_FENCE_DONE (R329): Every write response of a fenced run has arrived, and the run ends with OK. -/
  | dmaFenceDone (n : Nat)
  /-- DMA_DRAIN_DONE (R329): All read data is written and the channel reaches PAUSED or IDLE. -/
  | dmaDrainDone (n : Nat) (k : Nat) (data : List Byte)
  /-- DMA_ACCESS_ERROR (R329): An error response, PERM or MEM_ERR at an access starts a drain towards IDLE with that
      status. -/
  | dmaAccessError (n : Nat) (cause : Nat) (addr : Nat)
  /-- DMA_LIST_FETCH_RETURN (R333): A list entry returns, and the channel moves its data or follows a link. -/
  | dmaListFetchReturn (n : Nat) (entry : List Byte) (err : Bool) (data : List Byte)
  /-- DMA_END_FETCH_RETURN (R333): The END refetch returns, and the walk continues or sets AT_END. -/
  | dmaEndFetchReturn (n : Nat) (word : Word) (err : Bool) (data : List Byte)
  /-- DMA_LATE_WRITE_ERROR (R330): A write error after an OK end sets LATE_ERR and logs a fault. -/
  | dmaLateWriteError (n : Nat) (addr : Nat)
  /-- DMA_RECORD_WRITE (R339): A privileged channel's completion record is written once the queue has room. -/
  | dmaRecordWrite (n : Nat) (err : Bool := false)
  /-- DMA_CQ_HEAD_WRITE (R339): Software returns DMA completion records by writing HEAD. -/
  | dmaCqHeadWrite (fn : Nat) (data : Word)
  /-- BANK_EVACUATE (R343): MEM_BANK_CMD EVACUATE sets NOALLOC and moves every live granule off the bank. -/
  | bankEvacuate (fn : Nat) (data : Word)
  /-- BANK_RELEASE (R343): MEM_BANK_CMD RELEASE clears NOALLOC. -/
  | bankRelease (fn : Nat) (data : Word)
  /-- EVACUATE_DONE (R343): An evacuation ends when LIVE reaches 0. -/
  | evacuateDone
  /-- MEM_DBG_WRITE (R345): A write of MEM_DBG_DATA's high word writes an 8-byte buffer word. -/
  | memDbgWrite (fn : Nat) (data : Word)
  /-- MEM_DBG_READ (R345): A read of MEM_DBG_DATA's low word reads the buffer word and latches the high word. -/
  | memDbgRead (fn : Nat)
  /-- MIGRATION_START (R347): The placement engine starts moving a granule to a FREE granule and stalls its queue
      pair. -/
  | migrationStart (spill : List Nat := [])
  /-- MIGRATION_DONE (R347): A move completes, and the old granule becomes FREE or RETIRED. -/
  | migrationDone (bad : List Nat)
  /-- POINTING_PASS_TIMER (R351): Every 80 µs (10 µs with FAST) the pointing pass starts the test of the next
      region. -/
  | pointingPassTimer
  /-- RETEST_START (R353): A detected ECC error starts a re-test of its region. -/
  | retestStart (kind : Nat) (m : Nat) (addr : Nat) (unc : Bool) (key : List Byte) (own : Bool := false) (written : Bool := false)
  /-- REGION_TEST_DONE (R352): A region test ends, restores the region and gives a transient or lasting verdict. -/
  | regionTestDone (kind : Nat) (fail : Bool)
  /-- CHK_GO (R359): A write of CHK_n_CTL with GO starts a check run or refuses it. -/
  | chkGo (fn : Nat) (n : Nat) (data : Word)
  /-- CHK_ABORT (R367): ABORT ends a running check run with ABORTED. -/
  | chkAbort (fn : Nat) (n : Nat) (data : Word)
  /-- CHK_SEAL_WRITE (R368): A write of CHK_SEAL with the key seals the safety island. -/
  | chkSealWrite (fn : Nat) (data : Word)
  /-- CHK_SCAN_DATA (R360): Scan read data returns from the master port and enters the unit's CRC. -/
  | chkScanData (n : Nat) (bytes : List Byte) (err : Bool)
  /-- CHK_RUN_END (R363): A run ends with MATCH, MISMATCH or DONE, writes its result and may rearm. -/
  | chkRunEnd (n : Nat)
  /-- CHK_STALE_EXPIRY (R366): The stale timer expires and sets STALE. -/
  | chkStaleExpiry (n : Nat) (restarts : Bool := false)
  /-- CHK_RESULT_READ (R364): A read of CHK_n_RESULT bytes 0–3 latches words 1–3 into a holding register. -/
  | chkResultRead (fn : Nat) (n : Nat)
  /-- IRQ_OFFER (R376): The winning source for a target is offered on VEC_k. -/
  | irqOffer (k : Nat)
  /-- VEC_ACK (R376): VEC_k_ACK takes the offered source: it becomes active and no longer pending. -/
  | vecAck (k : Nat) (met : Bool := false)
  /-- IRQ_EOI (R377): A write of IRQ_EOI_k ends the handling of a source, or sets EOI_ERR. -/
  | irqEoi (fn : Nat) (k : Nat) (data : Word)
  /-- IRQ_SETPEND_WRITE (R372): A write of 1 to IRQ_SETPEND makes a source pending. -/
  | irqSetpendWrite (fn : Nat) (w : Nat) (data : Word)
  /-- AON_LATCH_TRANSFER (R373): A latched always-on edge passes into its pending bit once the spine runs. -/
  | aonLatchTransfer
  /-- POWER_TARGET_WRITE (R384): A write of PWR_DOM_n.TARGET is judged and carried out, held or refused. -/
  | powerTargetWrite (fn : Nat) (d : Nat) (data : Word)
  /-- SEQUENCER_STEP (R385): On each always-on cycle the sequencer advances transitions and grants power-ups under
      the budget. -/
  | sequencerStep
  /-- PSW_ACK_RISE (R388): PSW_ACK sampled 1 lets a power-up restore, settle and come ON. -/
  | pswAckRise (d : Nat)
  /-- PSW_ACK_TIMEOUT (R388): PSW_ACK not sampled within ACK_LIM aborts the power-up with RESULT 8. -/
  | pswAckTimeout (d : Nat)
  /-- LISTEN_SAMPLE (R390): Every PERIOD the listener samples FPp_SIGDET and may wake or start a listen power-up. -/
  | listenSample (p : Nat) (energy : Bool)
  /-- LISTEN_WINDOW_END (R390): A listen window ends without a match and the port returns to RET. -/
  | listenWindowEnd (p : Nat)
  /-- WAKE_EVENT (R393): A wake event is recorded and, in DORMANT, powers up the wake set. -/
  | wakeEvent (src : Nat) (index : Nat) (filter : Nat) (met : Bool := false)
  /-- WAKE_REQUEST (R392): A write of 1 to PWR_WAKE_REQ is a host wake request. -/
  | wakeRequest (fn : Nat) (data : Word)
  /-- DIC_READ (R403): Dictionary READ command. -/
  | dicRead (fn : Nat) (len : Nat)
  /-- DIC_WRITE (R403): Dictionary WRITE command. -/
  | dicWrite (fn : Nat) (len : Nat)
  /-- DIC_INFO (R403): Dictionary INFO command filling DIC_INFO. -/
  | dicInfo (fn : Nat) (len : Nat)
  /-- DIC_COMMIT (R412): Dictionary COMMIT command starting a store write. -/
  | dicCommit (fn : Nat) (len : Nat)
  /-- DIC_RESTORE_DEFAULTS (R403): RESTORE_DEFAULTS sets every persistent object to its default and commits. -/
  | dicRestoreDefaults (fn : Nat) (len : Nat)
  /-- DIC_DEFINE (R402): DEFINE creates a host-defined object. -/
  | dicDefine (fn : Nat) (len : Nat)
  /-- DIC_UNDEFINE (R402): UNDEFINE removes a host-defined object. -/
  | dicUndefine (fn : Nat) (len : Nat)
  /-- DIC_TAKE (R408): TAKE makes the host the write owner. -/
  | dicTake (fn : Nat) (len : Nat)
  /-- MAILBOX_REQUEST (R405): A thread's store of REQ with GO issues a network dictionary request. -/
  | mailboxRequest
  /-- MAILBOX_FWD_RESPONSE (R406): A thread's store of FWD_RSP answers a forwarded host request. -/
  | mailboxFwdResponse
  /-- FWD_TIMEOUT (R406): No answer within FWD_LIM ends the forwarded command with 0x0304. -/
  | fwdTimeout
  /-- AUTO_COMMIT_TIMER (R412): A dirty object unchanged for HOLD_MS starts an automatic commit. -/
  | autoCommitTimer
  /-- STORE_COMMIT_DONE (R413): A commit completes its final step, updating DIC_SEQ and raising source 25. -/
  | storeCommitDone (err : Bool) (late : List Nat)
  /-- STORE_RESTORE_DONE (R414): The restore from the newest valid slot ends after SPINE comes ON, and READY is set. -/
  | storeRestoreDone
  /-- WATCHDOG_EXPIRY (R417): The host watchdog count reaches 0 and logs class C fault 0x83. -/
  | watchdogExpiry
  /-- WATCHDOG_KICK (R417): A write of KICK restarts the watchdog from the full limit. -/
  | watchdogKick (fn : Nat) (data : Word)
  /-- FAULT_CLEAR (R423): A FLT_CLEAR write releases an ACTIVE entry if its condition has ended. -/
  | faultClear (fn : Nat) (data : Word)
  /-- FLT_LOG_READ (R421): A read of a log entry's bytes 0–3 latches words 1–3. -/
  | fltLogRead (fn : Nat) (n : Nat)
  /-- ILLEGAL_INSTRUCTION (R265): A thread issues an encoding outside the opcode and class tables (including the
      all-zero word) and faults with FCAUSE 1. -/
  | illegalInstruction (e : Nat) (n : Nat) (slot : Nat) (busy : Nat) (ecc : Nat)
  /-- SUPPLY_COLLAPSE (R413): The supply collapses, possibly during a store commit, leaving torn store words and the
      old or new image for the next power-on. -/
  | supplyCollapse (step : Nat) (torn : Word) (written : Nat)
  /-- MODE_REQ_OTHER_TARGET (R25): A BLK_MODE write with REQ_GO naming a target other than CONFIG, INTEGRATE,
      SAFEHOLD or DORMANT is refused and sets REQ_ERR. -/
  | modeReqOtherTarget (fn : Nat) (target : Nat) (clr : Bool) (meets : Bool)
  /-- ADMIN_BAD_OPCODE (R310): An admin command with an opcode not in the table ends with BAD_OPCODE. -/
  | adminBadOpcode (f : Nat) (cmd : List Byte) (err : Bool)
  /-- DIC_UNKNOWN_OP (R403): A DIC_CMD write with GO and an unknown OP ends with RESULT 3 and ABORT 0x0302. -/
  | dicUnknownOp (fn : Nat) (op : Nat) (len : Nat)
  /-- BANK_CMD_UNKNOWN_OP (R343): A MEM_BANK_CMD write with GO and an OP other than EVACUATE or RELEASE gives RESULT
      3. -/
  | bankCmdUnknownOp (fn : Nat) (data : Word)
deriving DecidableEq, Repr

end Sys2Proof
end

