-- ==== Sys2Proof/Decode.lean ====
section
/-!
DEFINITION. The commands that a word spells by the opcode table's bits: spec/opcode_table.json gives no row bits, so
there is no such word.
-/
namespace Sys2Proof

/-- The command that `nbits` bits of value `w` spell: none, since no row of the table gives bits.
DESIGN CHOICE, notes/assumptions/6.md. -/
def decodeTableWord (_nbits _w : Nat) : Option Instr := none

end Sys2Proof
end

