-- ==== Sys2Proof/Machine/Bits.lean ====
section
/-!
DEFINITION. Bit fields of a word, sign extension, and the byte orders of 00_scope.md R10 (registers and structures
little-endian) and R11 (wire bytes in network order).
-/
namespace Sys2Proof.Machine

/-- Bits [lo + wd - 1 : lo] of a number. -/
def natBits (n lo wd : Nat) : Nat := (n >>> lo) % 2 ^ wd

/-- Bits [lo + wd - 1 : lo] of a word, as a number. -/
def getBits (w : Word) (lo wd : Nat) : Nat := (w.toNat >>> lo) % 2 ^ wd

/-- The word with ones in bits [lo + wd - 1 : lo]. -/
def maskBits (lo wd : Nat) : Word := BitVec.ofNat 32 ((2 ^ wd - 1) <<< lo)

/-- The word `w` with bits [lo + wd - 1 : lo] replaced by the low `wd` bits of `v`. -/
def setBits (w : Word) (lo wd v : Nat) : Word :=
  (w &&& ~~~ maskBits lo wd) ||| BitVec.ofNat 32 ((v % 2 ^ wd) <<< lo)

/-- Bit `i` of a word. -/
def bitOf (w : Word) (i : Nat) : Bool := w.getLsbD i

/-- A Boolean as a one-bit field value. -/
def b2n (b : Bool) : Nat := if b then 1 else 0

/-- The low `k` bits of `n`, sign extended to a word. -/
def sextN (k n : Nat) : Word := (BitVec.ofNat k n).signExtend 32

/-- The low `k` bits of `n` read as a two's complement number. -/
def sint (k n : Nat) : Int := (BitVec.ofNat k n).toInt

/-- An integer held in `k` bits of two's complement. -/
def ofInt (k : Nat) (i : Int) : Nat := (BitVec.ofInt k i).toNat

/-- An integer limited to `lo`..`hi`. -/
def clampInt (lo hi i : Int) : Int := if i < lo then lo else if hi < i then hi else i

/-- The number whose little-endian bytes are `bs` (R10). -/
def leNat : List Byte → Nat
  | [] => 0
  | b :: bs => b.toNat + 256 * leNat bs

/-- The `k` little-endian bytes of `n` (R10). -/
def natLe : Nat → Nat → List Byte
  | 0, _ => []
  | k + 1, n => BitVec.ofNat 8 n :: natLe k (n / 256)

/-- The number whose network-order bytes are `bs`, most significant byte first (R11). -/
def beNat (bs : List Byte) : Nat := bs.foldl (fun a b => a * 256 + b.toNat) 0

/-- The `k` network-order bytes of `n` (R11). -/
def natBe (k n : Nat) : List Byte := (natLe k n).reverse

/-- Byte `i` of a list, zero beyond its end. -/
def byteAt (bs : List Byte) (i : Nat) : Byte := bs.getD i 0

/-- `k` bytes of a list from position `i` on. -/
def slice (bs : List Byte) (i k : Nat) : List Byte := (bs.drop i).take k

/-- The list with the bytes from position `i` on replaced by `new`, as far as the list reaches. -/
def patch (bs : List Byte) (i : Nat) (new : List Byte) : List Byte :=
  bs.take i ++ (new.take (bs.length - i)) ++ bs.drop (i + new.length)

/-- Ceiling division. -/
def cdiv (a b : Nat) : Nat := (a + b - 1) / b

/-- The numbers lo, lo + 1, …, of which there are `k`. -/
def rangeFrom (lo k : Nat) : List Nat := (List.range k).map (lo + ·)

end Sys2Proof.Machine
end

