-- ==== Sys2Proof/Machine/Fields.lean ====
section
/-!
DEFINITION. The registers by name: `O.REG` is a register's offset in the window, `F.REG.FIELD` a field of one word
of it, from the register tables of spec/ (offset, bits). A field that spans two words has no `Fld`.
-/
namespace Sys2Proof.Machine

/-- A field of one register word: the word's offset, the field's lowest bit and its width. -/
structure Fld where
  off : Nat
  lo : Nat
  wd : Nat
deriving DecidableEq, Repr


/-! Registers of 01_block_and_halves.md -/

/-- Offset of BLK_ID (01_block_and_halves.md). -/
def O.BLK_ID : Nat := 0x000000
def F.BLK_ID.BLOCK_CODE : Fld := ⟨O.BLK_ID, 16, 16⟩
def F.BLK_ID.MAJOR : Fld := ⟨O.BLK_ID, 8, 8⟩
def F.BLK_ID.MINOR : Fld := ⟨O.BLK_ID, 4, 4⟩
def F.BLK_ID.CFG : Fld := ⟨O.BLK_ID, 0, 4⟩
/-- Offset of BLK_CAP (01_block_and_halves.md). -/
def O.BLK_CAP : Nat := 0x000008
def F.BLK_CAP.CHK_UNITS : Fld := ⟨(O.BLK_CAP + 4), 24, 4⟩
def F.BLK_CAP.DMA_CH : Fld := ⟨(O.BLK_CAP + 4), 16, 8⟩
def F.BLK_CAP.QP_LOG2 : Fld := ⟨(O.BLK_CAP + 4), 12, 4⟩
def F.BLK_CAP.EM_LOG2 : Fld := ⟨(O.BLK_CAP + 4), 8, 4⟩
def F.BLK_CAP.TCAM_LOG2 : Fld := ⟨(O.BLK_CAP + 4), 4, 4⟩
def F.BLK_CAP.PRS_NODES_LOG2 : Fld := ⟨(O.BLK_CAP + 4), 0, 4⟩
def F.BLK_CAP.BANKS : Fld := ⟨O.BLK_CAP, 24, 6⟩
def F.BLK_CAP.ENGINES : Fld := ⟨O.BLK_CAP, 20, 4⟩
def F.BLK_CAP.CLUSTERS : Fld := ⟨O.BLK_CAP, 16, 4⟩
def F.BLK_CAP.FIELD_PORTS : Fld := ⟨O.BLK_CAP, 12, 4⟩
def F.BLK_CAP.TRUNKS : Fld := ⟨O.BLK_CAP, 10, 2⟩
def F.BLK_CAP.TRK_25G : Fld := ⟨O.BLK_CAP, 9, 1⟩
def F.BLK_CAP.RING_PROT : Fld := ⟨O.BLK_CAP, 8, 1⟩
def F.BLK_CAP.DELIN_CONFIRM : Fld := ⟨O.BLK_CAP, 7, 1⟩
def F.BLK_CAP.HALF_B : Fld := ⟨O.BLK_CAP, 6, 1⟩
def F.BLK_CAP.IRQ_LOG2 : Fld := ⟨O.BLK_CAP, 2, 4⟩
/-- Offset of BLK_MODE (01_block_and_halves.md). -/
def O.BLK_MODE : Nat := 0x000010
def F.BLK_MODE.MODE_SYNC : Fld := ⟨O.BLK_MODE, 27, 1⟩
def F.BLK_MODE.REQ_PEND : Fld := ⟨O.BLK_MODE, 26, 1⟩
def F.BLK_MODE.REQ_ERR : Fld := ⟨O.BLK_MODE, 25, 1⟩
def F.BLK_MODE.BIST_FAIL : Fld := ⟨O.BLK_MODE, 24, 1⟩
def F.BLK_MODE.BIST_DONE : Fld := ⟨O.BLK_MODE, 23, 1⟩
def F.BLK_MODE.SH_CAUSE : Fld := ⟨O.BLK_MODE, 16, 4⟩
def F.BLK_MODE.HALF_LOST : Fld := ⟨O.BLK_MODE, 13, 1⟩
def F.BLK_MODE.PROT : Fld := ⟨O.BLK_MODE, 12, 1⟩
def F.BLK_MODE.REQ_GO : Fld := ⟨O.BLK_MODE, 11, 1⟩
def F.BLK_MODE.REQ : Fld := ⟨O.BLK_MODE, 8, 3⟩
def F.BLK_MODE.MODE : Fld := ⟨O.BLK_MODE, 0, 3⟩
/-- Offset of BLK_HALF (01_block_and_halves.md). -/
def O.BLK_HALF : Nat := 0x000014
def F.BLK_HALF.EPOCH : Fld := ⟨O.BLK_HALF, 16, 16⟩
def F.BLK_HALF.MODE_B : Fld := ⟨O.BLK_HALF, 12, 3⟩
def F.BLK_HALF.MODE_A : Fld := ⟨O.BLK_HALF, 8, 3⟩
def F.BLK_HALF.LINK_GLITCH : Fld := ⟨O.BLK_HALF, 7, 1⟩
def F.BLK_HALF.LINK_UP : Fld := ⟨O.BLK_HALF, 6, 1⟩
def F.BLK_HALF.STANDBY_LEAD : Fld := ⟨O.BLK_HALF, 5, 1⟩
def F.BLK_HALF.CLAIM_B : Fld := ⟨O.BLK_HALF, 4, 1⟩
def F.BLK_HALF.CLAIM_A : Fld := ⟨O.BLK_HALF, 3, 1⟩
def F.BLK_HALF.LEADER : Fld := ⟨O.BLK_HALF, 0, 1⟩
/-- Offset of BLK_LEAD_LOG (01_block_and_halves.md). -/
def O.BLK_LEAD_LOG : Nat := 0x000018
def F.BLK_LEAD_LOG.WIN_EPOCH : Fld := ⟨O.BLK_LEAD_LOG, 16, 16⟩
def F.BLK_LEAD_LOG.WIN_HALF : Fld := ⟨O.BLK_LEAD_LOG, 15, 1⟩
def F.BLK_LEAD_LOG.CAUSE : Fld := ⟨O.BLK_LEAD_LOG, 12, 3⟩
def F.BLK_LEAD_LOG.DROPS : Fld := ⟨O.BLK_LEAD_LOG, 0, 12⟩

/-! Registers of 03_time_and_cycles.md -/

/-- Offset of TB_CTL (03_time_and_cycles.md). -/
def O.TB_CTL : Nat := 0x0C0000
def F.TB_CTL.SERVO : Fld := ⟨O.TB_CTL, 0, 1⟩
/-- Offset of TB_STAT (03_time_and_cycles.md). -/
def O.TB_STAT : Nat := 0x0C0004
def F.TB_STAT.SET_ERR : Fld := ⟨O.TB_STAT, 8, 1⟩
def F.TB_STAT.FOLLOWER : Fld := ⟨O.TB_STAT, 7, 1⟩
def F.TB_STAT.WR_IGN : Fld := ⟨O.TB_STAT, 6, 1⟩
def F.TB_STAT.RATE_CLAMP : Fld := ⟨O.TB_STAT, 5, 1⟩
def F.TB_STAT.STEP_REFUSED : Fld := ⟨O.TB_STAT, 4, 1⟩
def F.TB_STAT.STEP_HW : Fld := ⟨O.TB_STAT, 3, 1⟩
def F.TB_STAT.JOINED : Fld := ⟨O.TB_STAT, 2, 1⟩
def F.TB_STAT.STEP_USED : Fld := ⟨O.TB_STAT, 1, 1⟩
def F.TB_STAT.SET_DONE : Fld := ⟨O.TB_STAT, 0, 1⟩
/-- Offset of TB_PPS (03_time_and_cycles.md). -/
def O.TB_PPS : Nat := 0x0C0008
def F.TB_PPS.EN : Fld := ⟨O.TB_PPS, 31, 1⟩
def F.TB_PPS.WIDTH : Fld := ⟨O.TB_PPS, 0, 20⟩
/-- Offset of TB_SET (03_time_and_cycles.md). -/
def O.TB_SET : Nat := 0x0C0010
def F.TB_SET.NS : Fld := ⟨(O.TB_SET + 4), 0, 32⟩
def F.TB_SET.FRAC : Fld := ⟨O.TB_SET, 0, 16⟩
/-- Offset of TB_RATE (03_time_and_cycles.md). -/
def O.TB_RATE : Nat := 0x0C0020
def F.TB_RATE.RATE : Fld := ⟨O.TB_RATE, 0, 32⟩
/-- Offset of TB_STEP (03_time_and_cycles.md). -/
def O.TB_STEP : Nat := 0x0C0028
/-- Offset of TB_SNAP_CMD (03_time_and_cycles.md). -/
def O.TB_SNAP_CMD : Nat := 0x0C0030
def F.TB_SNAP_CMD.LATCH : Fld := ⟨O.TB_SNAP_CMD, 0, 1⟩
/-- Offset of TB_SNAP_NS (03_time_and_cycles.md). -/
def O.TB_SNAP_NS : Nat := 0x0C0034
def F.TB_SNAP_NS.NS : Fld := ⟨O.TB_SNAP_NS, 0, 32⟩
/-- Offset of TB_SNAP_FRAC (03_time_and_cycles.md). -/
def O.TB_SNAP_FRAC : Nat := 0x0C0038
def F.TB_SNAP_FRAC.FRAC : Fld := ⟨O.TB_SNAP_FRAC, 0, 16⟩
/-- Offset of TB_SNAP_SEC_LO (03_time_and_cycles.md). -/
def O.TB_SNAP_SEC_LO : Nat := 0x0C003C
def F.TB_SNAP_SEC_LO.SEC_LO : Fld := ⟨O.TB_SNAP_SEC_LO, 0, 32⟩
/-- Offset of TB_SNAP_SEC_HI (03_time_and_cycles.md). -/
def O.TB_SNAP_SEC_HI : Nat := 0x0C0040
def F.TB_SNAP_SEC_HI.SEC_HI : Fld := ⟨O.TB_SNAP_SEC_HI, 0, 16⟩
/-- Offset of TB_SNAP_NS_HELD (03_time_and_cycles.md). -/
def O.TB_SNAP_NS_HELD : Nat := 0x0C0044
def F.TB_SNAP_NS_HELD.NS : Fld := ⟨O.TB_SNAP_NS_HELD, 0, 32⟩
/-- Offset of TB_LAT_n (03_time_and_cycles.md). -/
def O.TB_LAT (n : Nat) : Nat := 0x0C0100 + 0x8 * n
def F.TB_LAT.TX (n : Nat) : Fld := ⟨((O.TB_LAT n) + 4), 0, 32⟩
def F.TB_LAT.RX (n : Nat) : Fld := ⟨(O.TB_LAT n), 0, 32⟩
/-- Offset of CTU_GEN_CFG_n (03_time_and_cycles.md). -/
def O.CTU_GEN_CFG (n : Nat) : Nat := 0x0C1000 + 0x40 * n
def F.CTU_GEN_CFG.MAXSTEP (n : Nat) : Fld := ⟨(O.CTU_GEN_CFG n), 16, 11⟩
def F.CTU_GEN_CFG.SYNC_MISS (n : Nat) : Fld := ⟨(O.CTU_GEN_CFG n), 12, 4⟩
def F.CTU_GEN_CFG.SYNC_EDGE (n : Nat) : Fld := ⟨(O.CTU_GEN_CFG n), 3, 1⟩
def F.CTU_GEN_CFG.SYNC_EN (n : Nat) : Fld := ⟨(O.CTU_GEN_CFG n), 2, 1⟩
def F.CTU_GEN_CFG.BIND (n : Nat) : Fld := ⟨(O.CTU_GEN_CFG n), 1, 1⟩
def F.CTU_GEN_CFG.EN (n : Nat) : Fld := ⟨(O.CTU_GEN_CFG n), 0, 1⟩
/-- Offset of CTU_GEN_PERIOD_n (03_time_and_cycles.md). -/
def O.CTU_GEN_PERIOD (n : Nat) : Nat := 0x0C1004 + 0x40 * n
def F.CTU_GEN_PERIOD.PERIOD (n : Nat) : Fld := ⟨(O.CTU_GEN_PERIOD n), 0, 30⟩
/-- Offset of CTU_GEN_PHASE_n (03_time_and_cycles.md). -/
def O.CTU_GEN_PHASE (n : Nat) : Nat := 0x0C1008 + 0x40 * n
def F.CTU_GEN_PHASE.PHASE (n : Nat) : Fld := ⟨(O.CTU_GEN_PHASE n), 0, 30⟩
/-- Offset of CTU_GEN_START_SEC_n (03_time_and_cycles.md). -/
def O.CTU_GEN_START_SEC (n : Nat) : Nat := 0x0C100C + 0x40 * n
def F.CTU_GEN_START_SEC.START_SEC (n : Nat) : Fld := ⟨(O.CTU_GEN_START_SEC n), 0, 32⟩
/-- Offset of CTU_GEN_SYNC_OFS_n (03_time_and_cycles.md). -/
def O.CTU_GEN_SYNC_OFS (n : Nat) : Nat := 0x0C1010 + 0x40 * n
def F.CTU_GEN_SYNC_OFS.OFS (n : Nat) : Fld := ⟨(O.CTU_GEN_SYNC_OFS n), 0, 30⟩
/-- Offset of CTU_GEN_STAT_n (03_time_and_cycles.md). -/
def O.CTU_GEN_STAT (n : Nat) : Nat := 0x0C1014 + 0x40 * n
def F.CTU_GEN_STAT.RUN (n : Nat) : Fld := ⟨(O.CTU_GEN_STAT n), 3, 1⟩
def F.CTU_GEN_STAT.SYNC_LOST (n : Nat) : Fld := ⟨(O.CTU_GEN_STAT n), 2, 1⟩
def F.CTU_GEN_STAT.STEPPED (n : Nat) : Fld := ⟨(O.CTU_GEN_STAT n), 1, 1⟩
def F.CTU_GEN_STAT.CFG_ERR (n : Nat) : Fld := ⟨(O.CTU_GEN_STAT n), 0, 1⟩
/-- Offset of CTU_GEN_ACC_n (03_time_and_cycles.md). -/
def O.CTU_GEN_ACC (n : Nat) : Nat := 0x0C1018 + 0x40 * n
def F.CTU_GEN_ACC.ACC (n : Nat) : Fld := ⟨(O.CTU_GEN_ACC n), 0, 32⟩
/-- Offset of CTU_TRIG_CFG_n (03_time_and_cycles.md). -/
def O.CTU_TRIG_CFG (n : Nat) : Nat := 0x0C2000 + 0x10 * n
def F.CTU_TRIG_CFG.GEN (n : Nat) : Fld := ⟨(O.CTU_TRIG_CFG n), 4, 3⟩
def F.CTU_TRIG_CFG.PARK (n : Nat) : Fld := ⟨(O.CTU_TRIG_CFG n), 2, 1⟩
def F.CTU_TRIG_CFG.POL (n : Nat) : Fld := ⟨(O.CTU_TRIG_CFG n), 1, 1⟩
def F.CTU_TRIG_CFG.EN (n : Nat) : Fld := ⟨(O.CTU_TRIG_CFG n), 0, 1⟩
/-- Offset of CTU_TRIG_OFS_n (03_time_and_cycles.md). -/
def O.CTU_TRIG_OFS (n : Nat) : Nat := 0x0C2004 + 0x10 * n
def F.CTU_TRIG_OFS.OFS (n : Nat) : Fld := ⟨(O.CTU_TRIG_OFS n), 0, 30⟩
/-- Offset of CTU_TRIG_WIDTH_n (03_time_and_cycles.md). -/
def O.CTU_TRIG_WIDTH (n : Nat) : Nat := 0x0C2008 + 0x10 * n
def F.CTU_TRIG_WIDTH.WIDTH (n : Nat) : Fld := ⟨(O.CTU_TRIG_WIDTH n), 0, 20⟩
/-- Offset of CTU_TRIG_STAT_n (03_time_and_cycles.md). -/
def O.CTU_TRIG_STAT (n : Nat) : Nat := 0x0C200C + 0x10 * n
def F.CTU_TRIG_STAT.BIND_ERR (n : Nat) : Fld := ⟨(O.CTU_TRIG_STAT n), 2, 1⟩
def F.CTU_TRIG_STAT.CUT (n : Nat) : Fld := ⟨(O.CTU_TRIG_STAT n), 1, 1⟩
def F.CTU_TRIG_STAT.OVERLAP (n : Nat) : Fld := ⟨(O.CTU_TRIG_STAT n), 0, 1⟩
/-- Offset of CTU_CAP_CFG_n (03_time_and_cycles.md). -/
def O.CTU_CAP_CFG (n : Nat) : Nat := 0x0C3000 + 0x20 * n
def F.CTU_CAP_CFG.EDGE (n : Nat) : Fld := ⟨(O.CTU_CAP_CFG n), 0, 2⟩
/-- Offset of CTU_CAP_TS_n (03_time_and_cycles.md). -/
def O.CTU_CAP_TS (n : Nat) : Nat := 0x0C3010 + 0x20 * n
def F.CTU_CAP_TS.NS (n : Nat) : Fld := ⟨((O.CTU_CAP_TS n) + 4), 0, 32⟩
def F.CTU_CAP_TS.VALID (n : Nat) : Fld := ⟨(O.CTU_CAP_TS n), 31, 1⟩
def F.CTU_CAP_TS.OVERRUN (n : Nat) : Fld := ⟨(O.CTU_CAP_TS n), 30, 1⟩
def F.CTU_CAP_TS.LEVEL (n : Nat) : Fld := ⟨(O.CTU_CAP_TS n), 29, 1⟩
def F.CTU_CAP_TS.FRAC (n : Nat) : Fld := ⟨(O.CTU_CAP_TS n), 0, 16⟩

/-! Registers of 04_field_ports.md -/

/-- Offset of MAC_CTL_p (04_field_ports.md). -/
def O.MAC_CTL (p : Nat) : Nat := 0x010000 + 0x1000 * p
def F.MAC_CTL.ONESTEP_EN (p : Nat) : Fld := ⟨(O.MAC_CTL p), 15, 1⟩
def F.MAC_CTL.TX_CSUM_EN (p : Nat) : Fld := ⟨(O.MAC_CTL p), 14, 1⟩
def F.MAC_CTL.RX_CSUM_EN (p : Nat) : Fld := ⟨(O.MAC_CTL p), 13, 1⟩
def F.MAC_CTL.CUT_EN (p : Nat) : Fld := ⟨(O.MAC_CTL p), 12, 1⟩
def F.MAC_CTL.FCS_STRIP (p : Nat) : Fld := ⟨(O.MAC_CTL p), 11, 1⟩
def F.MAC_CTL.DUPLEX (p : Nat) : Fld := ⟨(O.MAC_CTL p), 8, 1⟩
def F.MAC_CTL.SPEED (p : Nat) : Fld := ⟨(O.MAC_CTL p), 4, 2⟩
def F.MAC_CTL.EN_TX (p : Nat) : Fld := ⟨(O.MAC_CTL p), 1, 1⟩
def F.MAC_CTL.EN_RX (p : Nat) : Fld := ⟨(O.MAC_CTL p), 0, 1⟩
/-- Offset of MAC_STAT_p (04_field_ports.md). -/
def O.MAC_STAT (p : Nat) : Nat := 0x010004 + 0x1000 * p
def F.MAC_STAT.CFG_ERR (p : Nat) : Fld := ⟨(O.MAC_STAT p), 7, 1⟩
def F.MAC_STAT.CLK_LOSS (p : Nat) : Fld := ⟨(O.MAC_STAT p), 6, 1⟩
def F.MAC_STAT.VERIFY (p : Nat) : Fld := ⟨(O.MAC_STAT p), 4, 2⟩
def F.MAC_STAT.PREEMPT_ACTIVE (p : Nat) : Fld := ⟨(O.MAC_STAT p), 3, 1⟩
def F.MAC_STAT.TX_BUSY (p : Nat) : Fld := ⟨(O.MAC_STAT p), 2, 1⟩
def F.MAC_STAT.RX_BUSY (p : Nat) : Fld := ⟨(O.MAC_STAT p), 1, 1⟩
/-- Offset of MAC_FRAME_p (04_field_ports.md). -/
def O.MAC_FRAME (p : Nat) : Nat := 0x010008 + 0x1000 * p
def F.MAC_FRAME.MAX_LEN (p : Nat) : Fld := ⟨(O.MAC_FRAME p), 0, 14⟩
/-- Offset of MAC_FILT_p (04_field_ports.md). -/
def O.MAC_FILT (p : Nat) : Nat := 0x01000C + 0x1000 * p
def F.MAC_FILT.HASH_EN (p : Nat) : Fld := ⟨(O.MAC_FILT p), 3, 1⟩
def F.MAC_FILT.FWD_ALL (p : Nat) : Fld := ⟨(O.MAC_FILT p), 2, 1⟩
def F.MAC_FILT.PROMISC (p : Nat) : Fld := ⟨(O.MAC_FILT p), 1, 1⟩
def F.MAC_FILT.ACCEPT_BC (p : Nat) : Fld := ⟨(O.MAC_FILT p), 0, 1⟩
/-- Offset of MAC_VLAN_CTL_p (04_field_ports.md). -/
def O.MAC_VLAN_CTL (p : Nat) : Nat := 0x010010 + 0x1000 * p
def F.MAC_VLAN_CTL.TPID (p : Nat) : Fld := ⟨(O.MAC_VLAN_CTL p), 16, 16⟩
def F.MAC_VLAN_CTL.FILT_EN (p : Nat) : Fld := ⟨(O.MAC_VLAN_CTL p), 15, 1⟩
def F.MAC_VLAN_CTL.DEF_PCP (p : Nat) : Fld := ⟨(O.MAC_VLAN_CTL p), 12, 3⟩
def F.MAC_VLAN_CTL.PVID (p : Nat) : Fld := ⟨(O.MAC_VLAN_CTL p), 0, 12⟩
/-- Offset of MAC_FC_p (04_field_ports.md). -/
def O.MAC_FC (p : Nat) : Nat := 0x010014 + 0x1000 * p
def F.MAC_FC.PAUSE_EN (p : Nat) : Fld := ⟨(O.MAC_FC p), 31, 1⟩
def F.MAC_FC.PFC_EN (p : Nat) : Fld := ⟨(O.MAC_FC p), 30, 1⟩
def F.MAC_FC.PFC_PRI (p : Nat) : Fld := ⟨(O.MAC_FC p), 16, 8⟩
def F.MAC_FC.TX_QUANTA (p : Nat) : Fld := ⟨(O.MAC_FC p), 0, 16⟩
/-- Offset of MAC_FC_STAT_p (04_field_ports.md). -/
def O.MAC_FC_STAT (p : Nat) : Nat := 0x010018 + 0x1000 * p
def F.MAC_FC_STAT.PAUSED (p : Nat) : Fld := ⟨(O.MAC_FC_STAT p), 8, 1⟩
def F.MAC_FC_STAT.PFC_PAUSED (p : Nat) : Fld := ⟨(O.MAC_FC_STAT p), 0, 8⟩
/-- Offset of MAC_PREEMPT_p (04_field_ports.md). -/
def O.MAC_PREEMPT (p : Nat) : Nat := 0x01001C + 0x1000 * p
def F.MAC_PREEMPT.EN (p : Nat) : Fld := ⟨(O.MAC_PREEMPT p), 31, 1⟩
def F.MAC_PREEMPT.VERIFY_DIS (p : Nat) : Fld := ⟨(O.MAC_PREEMPT p), 30, 1⟩
def F.MAC_PREEMPT.ADD_FRAG (p : Nat) : Fld := ⟨(O.MAC_PREEMPT p), 28, 2⟩
def F.MAC_PREEMPT.VERIFY_TIME (p : Nat) : Fld := ⟨(O.MAC_PREEMPT p), 20, 8⟩
def F.MAC_PREEMPT.EXPRESS (p : Nat) : Fld := ⟨(O.MAC_PREEMPT p), 0, 8⟩
/-- Offset of MAC_GCL_CTL_p (04_field_ports.md). -/
def O.MAC_GCL_CTL (p : Nat) : Nat := 0x010020 + 0x1000 * p
def F.MAC_GCL_CTL.EN (p : Nat) : Fld := ⟨(O.MAC_GCL_CTL p), 31, 1⟩
def F.MAC_GCL_CTL.TRUNK (p : Nat) : Fld := ⟨(O.MAC_GCL_CTL p), 30, 1⟩
def F.MAC_GCL_CTL.VALID (p : Nat) : Fld := ⟨(O.MAC_GCL_CTL p), 16, 8⟩
def F.MAC_GCL_CTL.GUARD_LEN (p : Nat) : Fld := ⟨(O.MAC_GCL_CTL p), 0, 14⟩
/-- Offset of MAC_GCL_STAT_p (04_field_ports.md). -/
def O.MAC_GCL_STAT (p : Nat) : Nat := 0x010024 + 0x1000 * p
def F.MAC_GCL_STAT.OVERRUN (p : Nat) : Fld := ⟨(O.MAC_GCL_STAT p), 15, 1⟩
def F.MAC_GCL_STAT.ENTRY (p : Nat) : Fld := ⟨(O.MAC_GCL_STAT p), 8, 5⟩
def F.MAC_GCL_STAT.GEAR (p : Nat) : Fld := ⟨(O.MAC_GCL_STAT p), 0, 3⟩
/-- Offset of MAC_WAKE_CTL_p (04_field_ports.md). -/
def O.MAC_WAKE_CTL (p : Nat) : Nat := 0x010028 + 0x1000 * p
def F.MAC_WAKE_CTL.FRAME_EN (p : Nat) : Fld := ⟨(O.MAC_WAKE_CTL p), 8, 1⟩
def F.MAC_WAKE_CTL.FILT_EN (p : Nat) : Fld := ⟨(O.MAC_WAKE_CTL p), 0, 8⟩
/-- Offset of MAC_WAKE_STAT_p (04_field_ports.md). -/
def O.MAC_WAKE_STAT (p : Nat) : Nat := 0x01002C + 0x1000 * p
def F.MAC_WAKE_STAT.FRAME (p : Nat) : Fld := ⟨(O.MAC_WAKE_STAT p), 8, 1⟩
def F.MAC_WAKE_STAT.HIT (p : Nat) : Fld := ⟨(O.MAC_WAKE_STAT p), 0, 8⟩
/-- Offset of MAC_EDIT_STAT_p (04_field_ports.md). -/
def O.MAC_EDIT_STAT (p : Nat) : Nat := 0x010030 + 0x1000 * p
def F.MAC_EDIT_STAT.LEVEL (p : Nat) : Fld := ⟨(O.MAC_EDIT_STAT p), 16, 6⟩
def F.MAC_EDIT_STAT.FULL (p : Nat) : Fld := ⟨(O.MAC_EDIT_STAT p), 2, 1⟩
def F.MAC_EDIT_STAT.CLIP (p : Nat) : Fld := ⟨(O.MAC_EDIT_STAT p), 1, 1⟩
def F.MAC_EDIT_STAT.LATE (p : Nat) : Fld := ⟨(O.MAC_EDIT_STAT p), 0, 1⟩
/-- Offset of MAC_FC_THR_p (04_field_ports.md). -/
def O.MAC_FC_THR (p : Nat) : Nat := 0x010034 + 0x1000 * p
def F.MAC_FC_THR.XOFF (p : Nat) : Fld := ⟨(O.MAC_FC_THR p), 16, 16⟩
def F.MAC_FC_THR.XON (p : Nat) : Fld := ⟨(O.MAC_FC_THR p), 0, 16⟩
/-- Offset of MAC_CNT_CLR_p (04_field_ports.md). -/
def O.MAC_CNT_CLR (p : Nat) : Nat := 0x010038 + 0x1000 * p
def F.MAC_CNT_CLR.CLR (p : Nat) : Fld := ⟨(O.MAC_CNT_CLR p), 0, 1⟩
/-- Offset of MAC_ADDR_p_n (04_field_ports.md). -/
def O.MAC_ADDR (p n : Nat) : Nat := 0x010100 + 0x1000 * p + 0x8 * n
def F.MAC_ADDR.VALID (p n : Nat) : Fld := ⟨((O.MAC_ADDR p n) + 4), 31, 1⟩
/-- Offset of MAC_HASH_p_n (04_field_ports.md). -/
def O.MAC_HASH (p n : Nat) : Nat := 0x010200 + 0x1000 * p + 0x4 * n
def F.MAC_HASH.BITS (p n : Nat) : Fld := ⟨(O.MAC_HASH p n), 0, 32⟩
/-- Offset of MAC_CNT_p_k (04_field_ports.md). -/
def O.MAC_CNT (p k : Nat) : Nat := 0x010300 + 0x1000 * p + 0x8 * k
/-- Offset of MAC_VLAN_MAP_p_n (04_field_ports.md). -/
def O.MAC_VLAN_MAP (p n : Nat) : Nat := 0x010400 + 0x1000 * p + 0x4 * n
def F.MAC_VLAN_MAP.ALLOW (p n : Nat) : Fld := ⟨(O.MAC_VLAN_MAP p n), 0, 32⟩
/-- Offset of MAC_WAKE_MASK_p_n (04_field_ports.md). -/
def O.MAC_WAKE_MASK (p n : Nat) : Nat := 0x010600 + 0x1000 * p + 0x20 * n
/-- Offset of MAC_WAKE_CRC_p_n (04_field_ports.md). -/
def O.MAC_WAKE_CRC (p n : Nat) : Nat := 0x010610 + 0x1000 * p + 0x20 * n
def F.MAC_WAKE_CRC.CRC (p n : Nat) : Fld := ⟨(O.MAC_WAKE_CRC p n), 0, 16⟩
/-- Offset of MAC_GCL_p_g_i (04_field_ports.md). -/
def O.MAC_GCL (p g i : Nat) : Nat := 0x010800 + 0x1000 * p + 0x100 * g + 0x8 * i
def F.MAC_GCL.LAST (p g i : Nat) : Fld := ⟨((O.MAC_GCL p g i) + 4), 11, 1⟩
def F.MAC_GCL.OP (p g i : Nat) : Fld := ⟨((O.MAC_GCL p g i) + 4), 8, 3⟩
def F.MAC_GCL.GATES (p g i : Nat) : Fld := ⟨((O.MAC_GCL p g i) + 4), 0, 8⟩
def F.MAC_GCL.INTERVAL (p g i : Nat) : Fld := ⟨(O.MAC_GCL p g i), 0, 14⟩

/-! Registers of 05_trunk_cells.md -/

/-- Offset of TRK_CFG_t (05_trunk_cells.md). -/
def O.TRK_CFG (t : Nat) : Nat := 0x020000 + 0x4000 * t
def F.TRK_CFG.KEEP_ERR (t : Nat) : Fld := ⟨(O.TRK_CFG t), 7, 1⟩
def F.TRK_CFG.HCORR (t : Nat) : Fld := ⟨(O.TRK_CFG t), 6, 1⟩
def F.TRK_CFG.MODE (t : Nat) : Fld := ⟨(O.TRK_CFG t), 2, 2⟩
def F.TRK_CFG.EN (t : Nat) : Fld := ⟨(O.TRK_CFG t), 0, 1⟩
/-- Offset of TRK_STAT_t (05_trunk_cells.md). -/
def O.TRK_STAT (t : Nat) : Nat := 0x020004 + 0x4000 * t
def F.TRK_STAT.BAD_RUN (t : Nat) : Fld := ⟨(O.TRK_STAT t), 12, 4⟩
def F.TRK_STAT.PMA_LOCK (t : Nat) : Fld := ⟨(O.TRK_STAT t), 8, 1⟩
def F.TRK_STAT.DELIN (t : Nat) : Fld := ⟨(O.TRK_STAT t), 4, 2⟩
def F.TRK_STAT.CFG_ERR (t : Nat) : Fld := ⟨(O.TRK_STAT t), 3, 1⟩
def F.TRK_STAT.CLK_LOSS (t : Nat) : Fld := ⟨(O.TRK_STAT t), 2, 1⟩
def F.TRK_STAT.LOS (t : Nat) : Fld := ⟨(O.TRK_STAT t), 1, 1⟩
def F.TRK_STAT.LOCK (t : Nat) : Fld := ⟨(O.TRK_STAT t), 0, 1⟩
/-- Offset of TRK_DELIN_CFG_t (05_trunk_cells.md). -/
def O.TRK_DELIN_CFG (t : Nat) : Nat := 0x020008 + 0x4000 * t
def F.TRK_DELIN_CFG.DELTA (t : Nat) : Fld := ⟨(O.TRK_DELIN_CFG t), 8, 2⟩
def F.TRK_DELIN_CFG.LOSS (t : Nat) : Fld := ⟨(O.TRK_DELIN_CFG t), 0, 4⟩
/-- Offset of TRK_SF_STAT_t (05_trunk_cells.md). -/
def O.TRK_SF_STAT (t : Nat) : Nat := 0x02000C + 0x4000 * t
def F.TRK_SF_STAT.NUMBERED (t : Nat) : Fld := ⟨(O.TRK_SF_STAT t), 31, 1⟩
def F.TRK_SF_STAT.RX_SLACK (t : Nat) : Fld := ⟨(O.TRK_SF_STAT t), 16, 3⟩
def F.TRK_SF_STAT.RX_CELLS_SF (t : Nat) : Fld := ⟨(O.TRK_SF_STAT t), 0, 9⟩
/-- Offset of TRK_CNT_CLR_t (05_trunk_cells.md). -/
def O.TRK_CNT_CLR (t : Nat) : Nat := 0x020010 + 0x4000 * t
def F.TRK_CNT_CLR.CLR (t : Nat) : Fld := ⟨(O.TRK_CNT_CLR t), 0, 1⟩
/-- Offset of TRK_CNT_t_k (05_trunk_cells.md). -/
def O.TRK_CNT (t k : Nat) : Nat := 0x020100 + 0x4000 * t + 0x8 * k
/-- Offset of TRK_CHMAP_t_c (05_trunk_cells.md). -/
def O.TRK_CHMAP (t c : Nat) : Nat := 0x021000 + 0x4000 * t + 0x4 * c
def F.TRK_CHMAP.EN (t c : Nat) : Fld := ⟨(O.TRK_CHMAP t c), 31, 1⟩
def F.TRK_CHMAP.TAG (t c : Nat) : Fld := ⟨(O.TRK_CHMAP t c), 0, 16⟩

/-! Registers of 06_trunk_overhead_gears_protection.md -/

/-- Offset of TRK_NODE (06_trunk_overhead_gears_protection.md). -/
def O.TRK_NODE : Nat := 0x023000
def F.TRK_NODE.SCHED_MASTER : Fld := ⟨O.TRK_NODE, 9, 1⟩
def F.TRK_NODE.CS_CAP : Fld := ⟨O.TRK_NODE, 8, 1⟩
def F.TRK_NODE.NODE_ID : Fld := ⟨O.TRK_NODE, 0, 8⟩
/-- Offset of TRK_CS_STAT (06_trunk_overhead_gears_protection.md). -/
def O.TRK_CS_STAT : Nat := 0x023004
def F.TRK_CS_STAT.ID_ERR : Fld := ⟨O.TRK_CS_STAT, 30, 1⟩
def F.TRK_CS_STAT.INT_ERR : Fld := ⟨O.TRK_CS_STAT, 29, 1⟩
def F.TRK_CS_STAT.DUP_ID : Fld := ⟨O.TRK_CS_STAT, 28, 1⟩
def F.TRK_CS_STAT.SLEWING : Fld := ⟨O.TRK_CS_STAT, 26, 1⟩
def F.TRK_CS_STAT.HOLDOVER : Fld := ⟨O.TRK_CS_STAT, 25, 1⟩
def F.TRK_CS_STAT.SRC : Fld := ⟨O.TRK_CS_STAT, 24, 1⟩
def F.TRK_CS_STAT.HOPS : Fld := ⟨O.TRK_CS_STAT, 16, 8⟩
def F.TRK_CS_STAT.MASTER_ID : Fld := ⟨O.TRK_CS_STAT, 8, 8⟩
def F.TRK_CS_STAT.STATE : Fld := ⟨O.TRK_CS_STAT, 0, 3⟩
/-- Offset of TRK_CS_CFG (06_trunk_overhead_gears_protection.md). -/
def O.TRK_CS_CFG : Nat := 0x023008
def F.TRK_CS_CFG.NOSTEP_LIM : Fld := ⟨O.TRK_CS_CFG, 0, 10⟩
/-- Offset of TRK_SERVO (06_trunk_overhead_gears_protection.md). -/
def O.TRK_SERVO : Nat := 0x02300C
def F.TRK_SERVO.DLY_AVG : Fld := ⟨O.TRK_SERVO, 16, 4⟩
def F.TRK_SERVO.KI : Fld := ⟨O.TRK_SERVO, 8, 4⟩
def F.TRK_SERVO.KP : Fld := ⟨O.TRK_SERVO, 0, 4⟩
/-- Offset of TRK_OFFSET (06_trunk_overhead_gears_protection.md). -/
def O.TRK_OFFSET : Nat := 0x023010
def F.TRK_OFFSET.OFFSET : Fld := ⟨O.TRK_OFFSET, 0, 32⟩
/-- Offset of TRK_LINK_DLY_t (06_trunk_overhead_gears_protection.md). -/
def O.TRK_LINK_DLY (t : Nat) : Nat := 0x023018 + 0x4000 * t
def F.TRK_LINK_DLY.DLY (t : Nat) : Fld := ⟨(O.TRK_LINK_DLY t), 0, 32⟩
/-- Offset of TRK_OH_ERR_t (06_trunk_overhead_gears_protection.md). -/
def O.TRK_OH_ERR (t : Nat) : Nat := 0x02301C + 0x4000 * t
def F.TRK_OH_ERR.UM_BAD (t : Nat) : Fld := ⟨(O.TRK_OH_ERR t), 24, 8⟩
def F.TRK_OH_ERR.DLY_BAD (t : Nat) : Fld := ⟨(O.TRK_OH_ERR t), 16, 8⟩
def F.TRK_OH_ERR.CRC_BAD (t : Nat) : Fld := ⟨(O.TRK_OH_ERR t), 0, 16⟩
/-- Offset of TRK_GEAR_t (06_trunk_overhead_gears_protection.md). -/
def O.TRK_GEAR (t : Nat) : Nat := 0x023020 + 0x4000 * t
def F.TRK_GEAR.GEAR_ERR (t : Nat) : Fld := ⟨(O.TRK_GEAR t), 31, 1⟩
def F.TRK_GEAR.ERR_SLOT (t : Nat) : Fld := ⟨(O.TRK_GEAR t), 20, 9⟩
def F.TRK_GEAR.RELIEF (t : Nat) : Fld := ⟨(O.TRK_GEAR t), 16, 2⟩
def F.TRK_GEAR.VALID (t : Nat) : Fld := ⟨(O.TRK_GEAR t), 8, 8⟩
/-- Offset of TRK_SLOT_ADDR_t (06_trunk_overhead_gears_protection.md). -/
def O.TRK_SLOT_ADDR (t : Nat) : Nat := 0x023024 + 0x4000 * t
def F.TRK_SLOT_ADDR.AUTOINC (t : Nat) : Fld := ⟨(O.TRK_SLOT_ADDR t), 31, 1⟩
def F.TRK_SLOT_ADDR.GEAR (t : Nat) : Fld := ⟨(O.TRK_SLOT_ADDR t), 16, 3⟩
def F.TRK_SLOT_ADDR.SLOT (t : Nat) : Fld := ⟨(O.TRK_SLOT_ADDR t), 0, 9⟩
/-- Offset of TRK_SLOT_DATA_t (06_trunk_overhead_gears_protection.md). -/
def O.TRK_SLOT_DATA (t : Nat) : Nat := 0x023028 + 0x4000 * t
def F.TRK_SLOT_DATA.CHAN (t : Nat) : Fld := ⟨(O.TRK_SLOT_DATA t), 0, 10⟩
/-- Offset of TRK_SHIFT (06_trunk_overhead_gears_protection.md). -/
def O.TRK_SHIFT : Nat := 0x023030
def F.TRK_SHIFT.GO : Fld := ⟨O.TRK_SHIFT, 31, 1⟩
def F.TRK_SHIFT.TARGET : Fld := ⟨O.TRK_SHIFT, 24, 3⟩
def F.TRK_SHIFT.LEAD : Fld := ⟨O.TRK_SHIFT, 16, 8⟩
def F.TRK_SHIFT.PHASE : Fld := ⟨O.TRK_SHIFT, 12, 2⟩
def F.TRK_SHIFT.RESULT : Fld := ⟨O.TRK_SHIFT, 8, 3⟩
def F.TRK_SHIFT.SHIFT_LATE : Fld := ⟨O.TRK_SHIFT, 7, 1⟩
def F.TRK_SHIFT.SHIFT_FAULT : Fld := ⟨O.TRK_SHIFT, 6, 1⟩
/-- Offset of TRK_SHIFT_SFN (06_trunk_overhead_gears_protection.md). -/
def O.TRK_SHIFT_SFN : Nat := 0x023034
def F.TRK_SHIFT_SFN.N : Fld := ⟨O.TRK_SHIFT_SFN, 0, 32⟩
/-- Offset of TRK_SFN (06_trunk_overhead_gears_protection.md). -/
def O.TRK_SFN : Nat := 0x023038
def F.TRK_SFN.SFN : Fld := ⟨O.TRK_SFN, 0, 32⟩
/-- Offset of TRK_GEAR_CUR (06_trunk_overhead_gears_protection.md). -/
def O.TRK_GEAR_CUR : Nat := 0x02303C
def F.TRK_GEAR_CUR.CUR : Fld := ⟨O.TRK_GEAR_CUR, 0, 3⟩
/-- Offset of TRK_MEMBER_n (06_trunk_overhead_gears_protection.md). -/
def O.TRK_MEMBER (n : Nat) : Nat := 0x023040 + 0x4 * n
def F.TRK_MEMBER.IDS (n : Nat) : Fld := ⟨(O.TRK_MEMBER n), 0, 32⟩
/-- Offset of TRK_CONFIRMED_n (06_trunk_overhead_gears_protection.md). -/
def O.TRK_CONFIRMED (n : Nat) : Nat := 0x023060 + 0x4 * n
def F.TRK_CONFIRMED.IDS (n : Nat) : Fld := ⟨(O.TRK_CONFIRMED n), 0, 32⟩
/-- Offset of TRK_PROT_CFG_t (06_trunk_overhead_gears_protection.md). -/
def O.TRK_PROT_CFG (t : Nat) : Nat := 0x023100 + 0x4000 * t
def F.TRK_PROT_CFG.SD_THR (t : Nat) : Fld := ⟨(O.TRK_PROT_CFG t), 16, 16⟩
def F.TRK_PROT_CFG.HOLDOFF (t : Nat) : Fld := ⟨(O.TRK_PROT_CFG t), 4, 10⟩
def F.TRK_PROT_CFG.PERSIST (t : Nat) : Fld := ⟨(O.TRK_PROT_CFG t), 0, 3⟩
/-- Offset of TRK_PROT_CMD_t (06_trunk_overhead_gears_protection.md). -/
def O.TRK_PROT_CMD (t : Nat) : Nat := 0x023104 + 0x4000 * t
def F.TRK_PROT_CMD.CMD (t : Nat) : Fld := ⟨(O.TRK_PROT_CMD t), 0, 3⟩
/-- Offset of TRK_PROT_STAT_t (06_trunk_overhead_gears_protection.md). -/
def O.TRK_PROT_STAT (t : Nat) : Nat := 0x023108 + 0x4000 * t
def F.TRK_PROT_STAT.EFF_CODE (t : Nat) : Fld := ⟨(O.TRK_PROT_STAT t), 28, 4⟩
def F.TRK_PROT_STAT.EFF_ORIG (t : Nat) : Fld := ⟨(O.TRK_PROT_STAT t), 20, 8⟩
def F.TRK_PROT_STAT.LOCAL_CODE (t : Nat) : Fld := ⟨(O.TRK_PROT_STAT t), 16, 4⟩
def F.TRK_PROT_STAT.TX_CODE (t : Nat) : Fld := ⟨(O.TRK_PROT_STAT t), 12, 4⟩
def F.TRK_PROT_STAT.TX_ORIG (t : Nat) : Fld := ⟨(O.TRK_PROT_STAT t), 4, 8⟩
def F.TRK_PROT_STAT.BLOCKED (t : Nat) : Fld := ⟨(O.TRK_PROT_STAT t), 3, 1⟩
def F.TRK_PROT_STAT.MS_REFUSED (t : Nat) : Fld := ⟨(O.TRK_PROT_STAT t), 2, 1⟩
def F.TRK_PROT_STAT.SD (t : Nat) : Fld := ⟨(O.TRK_PROT_STAT t), 1, 1⟩
def F.TRK_PROT_STAT.SF (t : Nat) : Fld := ⟨(O.TRK_PROT_STAT t), 0, 1⟩
/-- Offset of TRK_BLOCK_DROP_t (06_trunk_overhead_gears_protection.md). -/
def O.TRK_BLOCK_DROP (t : Nat) : Nat := 0x02310C + 0x4000 * t
def F.TRK_BLOCK_DROP.COUNT (t : Nat) : Fld := ⟨(O.TRK_BLOCK_DROP t), 0, 32⟩
/-- Offset of TRK_RING_CFG (06_trunk_overhead_gears_protection.md). -/
def O.TRK_RING_CFG : Nat := 0x023110
def F.TRK_RING_CFG.WTR : Fld := ⟨O.TRK_RING_CFG, 16, 12⟩
def F.TRK_RING_CFG.OWNER_PORT : Fld := ⟨O.TRK_RING_CFG, 4, 1⟩
def F.TRK_RING_CFG.ROLE : Fld := ⟨O.TRK_RING_CFG, 0, 2⟩
/-- Offset of TRK_RING_STAT (06_trunk_overhead_gears_protection.md). -/
def O.TRK_RING_STAT : Nat := 0x023114
def F.TRK_RING_STAT.WTR_LEFT : Fld := ⟨O.TRK_RING_STAT, 16, 12⟩
def F.TRK_RING_STAT.FLUSHES : Fld := ⟨O.TRK_RING_STAT, 8, 8⟩
def F.TRK_RING_STAT.LOCKED : Fld := ⟨O.TRK_RING_STAT, 2, 1⟩
def F.TRK_RING_STAT.STATE : Fld := ⟨O.TRK_RING_STAT, 0, 2⟩

/-! Registers of 07_parse_graph.md -/

/-- Offset of PRS_CTL (07_parse_graph.md). -/
def O.PRS_CTL : Nat := 0x030000
def F.PRS_CTL.NEXT_SLOT : Fld := ⟨O.PRS_CTL, 0, 1⟩
/-- Offset of PRS_STAT_h (07_parse_graph.md). -/
def O.PRS_STAT (h : Nat) : Nat := 0x030004 + 0x8000 * h
def F.PRS_STAT.CUR_SLOT (h : Nat) : Fld := ⟨(O.PRS_STAT h), 8, 1⟩
def F.PRS_STAT.IN_FLIGHT (h : Nat) : Fld := ⟨(O.PRS_STAT h), 0, 5⟩
/-- Offset of PRS_LOAD_ADDR (07_parse_graph.md). -/
def O.PRS_LOAD_ADDR : Nat := 0x030008
/-- Offset of PRS_LOAD_CTL (07_parse_graph.md). -/
def O.PRS_LOAD_CTL : Nat := 0x030010
def F.PRS_LOAD_CTL.GO : Fld := ⟨O.PRS_LOAD_CTL, 31, 1⟩
def F.PRS_LOAD_CTL.SLOT : Fld := ⟨O.PRS_LOAD_CTL, 16, 1⟩
def F.PRS_LOAD_CTL.RESULT : Fld := ⟨O.PRS_LOAD_CTL, 8, 4⟩
def F.PRS_LOAD_CTL.BUSY : Fld := ⟨O.PRS_LOAD_CTL, 0, 1⟩
/-- Offset of PRS_SLOT_STAT_h_s (07_parse_graph.md). -/
def O.PRS_SLOT_STAT (h s : Nat) : Nat := 0x030018 + 0x8000 * h + 0x4 * s
def F.PRS_SLOT_STAT.VALID (h s : Nat) : Fld := ⟨(O.PRS_SLOT_STAT h s), 31, 1⟩
def F.PRS_SLOT_STAT.IN_USE (h s : Nat) : Fld := ⟨(O.PRS_SLOT_STAT h s), 30, 1⟩
def F.PRS_SLOT_STAT.NODES (h s : Nat) : Fld := ⟨(O.PRS_SLOT_STAT h s), 0, 8⟩
/-- Offset of PRS_SLOT_ID_h_s (07_parse_graph.md). -/
def O.PRS_SLOT_ID (h s : Nat) : Nat := 0x030020 + 0x8000 * h + 0x4 * s
def F.PRS_SLOT_ID.LAYOUT_ID (h s : Nat) : Fld := ⟨(O.PRS_SLOT_ID h s), 0, 32⟩
/-- Offset of PRS_NODE_ADDR_h (07_parse_graph.md). -/
def O.PRS_NODE_ADDR (h : Nat) : Nat := 0x030030 + 0x8000 * h
def F.PRS_NODE_ADDR.AUTOINC (h : Nat) : Fld := ⟨(O.PRS_NODE_ADDR h), 31, 1⟩
def F.PRS_NODE_ADDR.SLOT (h : Nat) : Fld := ⟨(O.PRS_NODE_ADDR h), 16, 1⟩
def F.PRS_NODE_ADDR.NODE (h : Nat) : Fld := ⟨(O.PRS_NODE_ADDR h), 8, 7⟩
def F.PRS_NODE_ADDR.WORD (h : Nat) : Fld := ⟨(O.PRS_NODE_ADDR h), 0, 6⟩
/-- Offset of PRS_NODE_DATA_h (07_parse_graph.md). -/
def O.PRS_NODE_DATA (h : Nat) : Nat := 0x030034 + 0x8000 * h
def F.PRS_NODE_DATA.DATA (h : Nat) : Fld := ⟨(O.PRS_NODE_DATA h), 0, 32⟩
/-- Offset of PRS_TRACE_CTL_h (07_parse_graph.md). -/
def O.PRS_TRACE_CTL (h : Nat) : Nat := 0x030040 + 0x8000 * h
def F.PRS_TRACE_CTL.ARM (h : Nat) : Fld := ⟨(O.PRS_TRACE_CTL h), 31, 1⟩
def F.PRS_TRACE_CTL.SRC (h : Nat) : Fld := ⟨(O.PRS_TRACE_CTL h), 0, 4⟩
/-- Offset of PRS_TRACE_RES_h (07_parse_graph.md). -/
def O.PRS_TRACE_RES (h : Nat) : Nat := 0x030044 + 0x8000 * h
def F.PRS_TRACE_RES.DONE (h : Nat) : Fld := ⟨(O.PRS_TRACE_RES h), 31, 1⟩
def F.PRS_TRACE_RES.STEPS (h : Nat) : Fld := ⟨(O.PRS_TRACE_RES h), 24, 5⟩
def F.PRS_TRACE_RES.HWFLAGS (h : Nat) : Fld := ⟨(O.PRS_TRACE_RES h), 16, 8⟩
def F.PRS_TRACE_RES.FLAGS (h : Nat) : Fld := ⟨(O.PRS_TRACE_RES h), 8, 8⟩
def F.PRS_TRACE_RES.CLASS (h : Nat) : Fld := ⟨(O.PRS_TRACE_RES h), 0, 8⟩
/-- Offset of PRS_TRACE_n_h (07_parse_graph.md). -/
def O.PRS_TRACE (h n : Nat) : Nat := 0x030048 + 0x8000 * h + 0x4 * n
def F.PRS_TRACE.NODES (h n : Nat) : Fld := ⟨(O.PRS_TRACE h n), 0, 32⟩
/-- Offset of PRS_CNT_CLR_h (07_parse_graph.md). -/
def O.PRS_CNT_CLR (h : Nat) : Nat := 0x030080 + 0x8000 * h
def F.PRS_CNT_CLR.CLR (h : Nat) : Fld := ⟨(O.PRS_CNT_CLR h), 0, 1⟩
/-- Offset of PRS_CNT_h_k (07_parse_graph.md). -/
def O.PRS_CNT (h k : Nat) : Nat := 0x030100 + 0x8000 * h + 0x8 * k

/-! Registers of 08_rules_courses_forwarding.md -/

/-- Offset of CLS_CTL (08_rules_courses_forwarding.md). -/
def O.CLS_CTL : Nat := 0x040000
def F.CLS_CTL.LEARN_EN : Fld := ⟨O.CLS_CTL, 31, 1⟩
def F.CLS_CTL.MIRROR_EN : Fld := ⟨O.CLS_CTL, 30, 1⟩
def F.CLS_CTL.MIRROR_Q : Fld := ⟨O.CLS_CTL, 0, 12⟩
/-- Offset of CLS_COMMIT (08_rules_courses_forwarding.md). -/
def O.CLS_COMMIT : Nat := 0x040004
def F.CLS_COMMIT.GO : Fld := ⟨O.CLS_COMMIT, 31, 1⟩
def F.CLS_COMMIT.PENDING : Fld := ⟨O.CLS_COMMIT, 16, 1⟩
def F.CLS_COMMIT.BUSY : Fld := ⟨O.CLS_COMMIT, 15, 1⟩
def F.CLS_COMMIT.RESULT : Fld := ⟨O.CLS_COMMIT, 8, 4⟩
def F.CLS_COMMIT.ACK_B : Fld := ⟨O.CLS_COMMIT, 4, 1⟩
def F.CLS_COMMIT.ACK_A : Fld := ⟨O.CLS_COMMIT, 3, 1⟩
/-- Offset of CLS_COURSE_STAT (08_rules_courses_forwarding.md). -/
def O.CLS_COURSE_STAT : Nat := 0x040008
def F.CLS_COURSE_STAT.LIVE_MAP : Fld := ⟨O.CLS_COURSE_STAT, 16, 16⟩
def F.CLS_COURSE_STAT.STAGE_OPEN : Fld := ⟨O.CLS_COURSE_STAT, 15, 1⟩
def F.CLS_COURSE_STAT.LIVE : Fld := ⟨O.CLS_COURSE_STAT, 8, 3⟩
def F.CLS_COURSE_STAT.CUR : Fld := ⟨O.CLS_COURSE_STAT, 0, 4⟩
/-- Offset of CLS_STAGE_CTL (08_rules_courses_forwarding.md). -/
def O.CLS_STAGE_CTL : Nat := 0x04000C
def F.CLS_STAGE_CTL.OP : Fld := ⟨O.CLS_STAGE_CTL, 0, 2⟩
/-- Offset of CLS_STAGE_LAYOUT (08_rules_courses_forwarding.md). -/
def O.CLS_STAGE_LAYOUT : Nat := 0x040010
def F.CLS_STAGE_LAYOUT.LAYOUT_ID : Fld := ⟨O.CLS_STAGE_LAYOUT, 0, 32⟩
/-- Offset of CLS_STG_FLOW (08_rules_courses_forwarding.md). -/
def O.CLS_STG_FLOW : Nat := 0x040014
def F.CLS_STG_FLOW.FLOW_LEN : Fld := ⟨O.CLS_STG_FLOW, 8, 5⟩
def F.CLS_STG_FLOW.FLOW_OFS : Fld := ⟨O.CLS_STG_FLOW, 0, 6⟩
/-- Offset of CLS_STG_DEF_ACT (08_rules_courses_forwarding.md). -/
def O.CLS_STG_DEF_ACT : Nat := 0x040018
/-- Offset of CLS_STG_HASH (08_rules_courses_forwarding.md). -/
def O.CLS_STG_HASH : Nat := 0x040020
def F.CLS_STG_HASH.A_OFS : Fld := ⟨(O.CLS_STG_HASH + 4), 16, 6⟩
def F.CLS_STG_HASH.B_OFS : Fld := ⟨(O.CLS_STG_HASH + 4), 8, 6⟩
def F.CLS_STG_HASH.ALEN : Fld := ⟨(O.CLS_STG_HASH + 4), 0, 5⟩
def F.CLS_STG_HASH.C_OFS : Fld := ⟨O.CLS_STG_HASH, 24, 6⟩
def F.CLS_STG_HASH.D_OFS : Fld := ⟨O.CLS_STG_HASH, 16, 6⟩
def F.CLS_STG_HASH.PORTS : Fld := ⟨O.CLS_STG_HASH, 15, 1⟩
def F.CLS_STG_HASH.E_OFS : Fld := ⟨O.CLS_STG_HASH, 8, 6⟩
def F.CLS_STG_HASH.ELEN : Fld := ⟨O.CLS_STG_HASH, 0, 3⟩
/-- Offset of CLS_TCAM_IDX (08_rules_courses_forwarding.md). -/
def O.CLS_TCAM_IDX : Nat := 0x040028
def F.CLS_TCAM_IDX.IDX : Fld := ⟨O.CLS_TCAM_IDX, 0, 12⟩
/-- Offset of CLS_TCAM_CMD (08_rules_courses_forwarding.md). -/
def O.CLS_TCAM_CMD : Nat := 0x04002C
def F.CLS_TCAM_CMD.STAGED : Fld := ⟨O.CLS_TCAM_CMD, 17, 1⟩
def F.CLS_TCAM_CMD.IN_LIVE : Fld := ⟨O.CLS_TCAM_CMD, 16, 1⟩
def F.CLS_TCAM_CMD.RESULT : Fld := ⟨O.CLS_TCAM_CMD, 8, 4⟩
def F.CLS_TCAM_CMD.OP : Fld := ⟨O.CLS_TCAM_CMD, 0, 3⟩
/-- Offset of CLS_TCAM_ACT (08_rules_courses_forwarding.md). -/
def O.CLS_TCAM_ACT : Nat := 0x040030
/-- Offset of CLS_TCAM_VAL_n (08_rules_courses_forwarding.md). -/
def O.CLS_TCAM_VAL (n : Nat) : Nat := 0x040040 + 0x4 * n
def F.CLS_TCAM_VAL.VALUE (n : Nat) : Fld := ⟨(O.CLS_TCAM_VAL n), 0, 32⟩
/-- Offset of CLS_TCAM_MASK_n (08_rules_courses_forwarding.md). -/
def O.CLS_TCAM_MASK (n : Nat) : Nat := 0x040080 + 0x4 * n
def F.CLS_TCAM_MASK.MASK (n : Nat) : Fld := ⟨(O.CLS_TCAM_MASK n), 0, 32⟩
/-- Offset of CLS_EM_KEY_n (08_rules_courses_forwarding.md). -/
def O.CLS_EM_KEY (n : Nat) : Nat := 0x040100 + 0x4 * n
def F.CLS_EM_KEY.KEY (n : Nat) : Fld := ⟨(O.CLS_EM_KEY n), 0, 32⟩
/-- Offset of CLS_EM_ACT (08_rules_courses_forwarding.md). -/
def O.CLS_EM_ACT : Nat := 0x040118
/-- Offset of CLS_EM_CMD (08_rules_courses_forwarding.md). -/
def O.CLS_EM_CMD : Nat := 0x040120
def F.CLS_EM_CMD.BUSY : Fld := ⟨O.CLS_EM_CMD, 31, 1⟩
def F.CLS_EM_CMD.RESULT : Fld := ⟨O.CLS_EM_CMD, 8, 4⟩
def F.CLS_EM_CMD.TYPE : Fld := ⟨O.CLS_EM_CMD, 4, 1⟩
def F.CLS_EM_CMD.OP : Fld := ⟨O.CLS_EM_CMD, 0, 3⟩
/-- Offset of CLS_EM_CFG (08_rules_courses_forwarding.md). -/
def O.CLS_EM_CFG : Nat := 0x040124
def F.CLS_EM_CFG.LOG2 : Fld := ⟨O.CLS_EM_CFG, 0, 5⟩
/-- Offset of CLS_AGE (08_rules_courses_forwarding.md). -/
def O.CLS_AGE : Nat := 0x040128
def F.CLS_AGE.EN : Fld := ⟨O.CLS_AGE, 31, 1⟩
def F.CLS_AGE.PERIOD : Fld := ⟨O.CLS_AGE, 0, 12⟩
/-- Offset of CLS_FLUSH (08_rules_courses_forwarding.md). -/
def O.CLS_FLUSH : Nat := 0x04012C
def F.CLS_FLUSH.GO : Fld := ⟨O.CLS_FLUSH, 31, 1⟩
def F.CLS_FLUSH.SCOPE : Fld := ⟨O.CLS_FLUSH, 30, 1⟩
def F.CLS_FLUSH.SWEEP : Fld := ⟨O.CLS_FLUSH, 29, 1⟩
def F.CLS_FLUSH.GEN_A : Fld := ⟨O.CLS_FLUSH, 16, 12⟩
def F.CLS_FLUSH.GEN_T : Fld := ⟨O.CLS_FLUSH, 0, 12⟩
/-- Offset of CLS_SR_n (08_rules_courses_forwarding.md). -/
def O.CLS_SR (n : Nat) : Nat := 0x040200 + 0x8 * n
def F.CLS_SR.EN (n : Nat) : Fld := ⟨((O.CLS_SR n) + 4), 31, 1⟩
def F.CLS_SR.HIST_M1 (n : Nat) : Fld := ⟨((O.CLS_SR n) + 4), 16, 5⟩
def F.CLS_SR.RESET_MS (n : Nat) : Fld := ⟨((O.CLS_SR n) + 4), 0, 16⟩
def F.CLS_SR.GEN_SEQ (n : Nat) : Fld := ⟨(O.CLS_SR n), 0, 16⟩
/-- Offset of CLS_SPREAD_TGT_n (08_rules_courses_forwarding.md). -/
def O.CLS_SPREAD_TGT (n : Nat) : Nat := 0x040400 + 0x4 * n
def F.CLS_SPREAD_TGT.THREAD (n : Nat) : Fld := ⟨(O.CLS_SPREAD_TGT n), 31, 1⟩
def F.CLS_SPREAD_TGT.VALID (n : Nat) : Fld := ⟨(O.CLS_SPREAD_TGT n), 30, 1⟩
def F.CLS_SPREAD_TGT.ID (n : Nat) : Fld := ⟨(O.CLS_SPREAD_TGT n), 0, 12⟩
/-- Offset of CLS_IND_n (08_rules_courses_forwarding.md). -/
def O.CLS_IND (n : Nat) : Nat := 0x040500 + 0x4 * n
def F.CLS_IND.TGT3 (n : Nat) : Fld := ⟨(O.CLS_IND n), 24, 6⟩
def F.CLS_IND.TGT2 (n : Nat) : Fld := ⟨(O.CLS_IND n), 16, 6⟩
def F.CLS_IND.TGT1 (n : Nat) : Fld := ⟨(O.CLS_IND n), 8, 6⟩
def F.CLS_IND.TGT0 (n : Nat) : Fld := ⟨(O.CLS_IND n), 0, 6⟩
/-- Offset of CLS_EGR_LIM_p (08_rules_courses_forwarding.md). -/
def O.CLS_EGR_LIM (p : Nat) : Nat := 0x040700 + 0x4 * p
def F.CLS_EGR_LIM.LIM (p : Nat) : Fld := ⟨(O.CLS_EGR_LIM p), 0, 16⟩
/-- Offset of CLS_CNT_h_k (08_rules_courses_forwarding.md). -/
def O.CLS_CNT (h k : Nat) : Nat := 0x040800 + 0x100 * h + 0x8 * k
/-- Offset of CLS_CNT_CLR_h (08_rules_courses_forwarding.md). -/
def O.CLS_CNT_CLR (h : Nat) : Nat := 0x040B00 + 0x4 * h
def F.CLS_CNT_CLR.CLR (h : Nat) : Fld := ⟨(O.CLS_CNT_CLR h), 0, 1⟩
/-- Offset of CLS_MC_PARTIAL_p (08_rules_courses_forwarding.md). -/
def O.CLS_MC_PARTIAL (p : Nat) : Nat := 0x040A00 + 0x8 * p
/-- Offset of CLS_UC_DROP_p (08_rules_courses_forwarding.md). -/
def O.CLS_UC_DROP (p : Nat) : Nat := 0x040A80 + 0x8 * p

/-! Registers of 09_engine_threads.md -/

/-- Offset of CE_CTL_e (09_engine_threads.md). -/
def O.CE_CTL (e : Nat) : Nat := 0x080000 + 0x4000 * e
def F.CE_CTL.CFG_ERR (e : Nat) : Fld := ⟨(O.CE_CTL e), 31, 1⟩
def F.CE_CTL.CYC_GEN (e : Nat) : Fld := ⟨(O.CE_CTL e), 16, 3⟩
def F.CE_CTL.COMPAT (e : Nat) : Fld := ⟨(O.CE_CTL e), 2, 1⟩
def F.CE_CTL.RUN (e : Nat) : Fld := ⟨(O.CE_CTL e), 0, 1⟩
/-- Offset of CE_STAT_e (09_engine_threads.md). -/
def O.CE_STAT (e : Nat) : Nat := 0x080004 + 0x4000 * e
def F.CE_STAT.FAULTED (e : Nat) : Fld := ⟨(O.CE_STAT e), 24, 8⟩
def F.CE_STAT.HALTED (e : Nat) : Fld := ⟨(O.CE_STAT e), 16, 8⟩
def F.CE_STAT.WAITING (e : Nat) : Fld := ⟨(O.CE_STAT e), 8, 8⟩
def F.CE_STAT.RELEASED (e : Nat) : Fld := ⟨(O.CE_STAT e), 0, 8⟩
/-- Offset of CE_IMG_ID_e (09_engine_threads.md). -/
def O.CE_IMG_ID (e : Nat) : Nat := 0x080008 + 0x4000 * e
def F.CE_IMG_ID.IMAGE_ID (e : Nat) : Fld := ⟨(O.CE_IMG_ID e), 0, 32⟩
/-- Offset of CE_CNT_CLR_e (09_engine_threads.md). -/
def O.CE_CNT_CLR (e : Nat) : Nat := 0x08000C + 0x4000 * e
def F.CE_CNT_CLR.CLR (e : Nat) : Fld := ⟨(O.CE_CNT_CLR e), 0, 1⟩
/-- Offset of CE_CNT_e_k (09_engine_threads.md). -/
def O.CE_CNT (e k : Nat) : Nat := 0x080100 + 0x4000 * e + 0x8 * k
/-- Offset of CE_THR_CTL_e_n (09_engine_threads.md). -/
def O.CE_THR_CTL (e n : Nat) : Nat := 0x080400 + 0x4000 * e + 0x40 * n
def F.CE_THR_CTL.HALT (e n : Nat) : Fld := ⟨(O.CE_THR_CTL e n), 1, 1⟩
def F.CE_THR_CTL.RELEASE (e n : Nat) : Fld := ⟨(O.CE_THR_CTL e n), 0, 1⟩
/-- Offset of CE_THR_STAT_e_n (09_engine_threads.md). -/
def O.CE_THR_STAT (e n : Nat) : Nat := 0x080404 + 0x4000 * e + 0x40 * n
def F.CE_THR_STAT.FCAUSE (e n : Nat) : Fld := ⟨(O.CE_THR_STAT e n), 28, 4⟩
def F.CE_THR_STAT.SLICE_ERR (e n : Nat) : Fld := ⟨(O.CE_THR_STAT e n), 25, 1⟩
def F.CE_THR_STAT.COLLIDE (e n : Nat) : Fld := ⟨(O.CE_THR_STAT e n), 24, 1⟩
def F.CE_THR_STAT.RXQ (e n : Nat) : Fld := ⟨(O.CE_THR_STAT e n), 16, 5⟩
def F.CE_THR_STAT.BOUND (e n : Nat) : Fld := ⟨(O.CE_THR_STAT e n), 15, 1⟩
def F.CE_THR_STAT.STATE (e n : Nat) : Fld := ⟨(O.CE_THR_STAT e n), 0, 3⟩
/-- Offset of CE_THR_PC_e_n (09_engine_threads.md). -/
def O.CE_THR_PC (e n : Nat) : Nat := 0x080408 + 0x4000 * e + 0x40 * n
def F.CE_THR_PC.PC (e n : Nat) : Fld := ⟨(O.CE_THR_PC e n), 2, 13⟩
/-- Offset of CE_THR_SLICE_e_n (09_engine_threads.md). -/
def O.CE_THR_SLICE (e n : Nat) : Nat := 0x08040C + 0x4000 * e + 0x40 * n
def F.CE_THR_SLICE.BASE (e n : Nat) : Fld := ⟨(O.CE_THR_SLICE e n), 8, 8⟩
def F.CE_THR_SLICE.SIZE_M1 (e n : Nat) : Fld := ⟨(O.CE_THR_SLICE e n), 0, 8⟩
/-- Offset of CE_THR_FPC_e_n (09_engine_threads.md). -/
def O.CE_THR_FPC (e n : Nat) : Nat := 0x080410 + 0x4000 * e + 0x40 * n
def F.CE_THR_FPC.FPC (e n : Nat) : Fld := ⟨(O.CE_THR_FPC e n), 2, 13⟩
/-- Offset of CE_THR_EVT_e_n (09_engine_threads.md). -/
def O.CE_THR_EVT (e n : Nat) : Nat := 0x080414 + 0x4000 * e + 0x40 * n
def F.CE_THR_EVT.HOST (e n : Nat) : Fld := ⟨(O.CE_THR_EVT e n), 15, 1⟩
def F.CE_THR_EVT.PENDING (e n : Nat) : Fld := ⟨(O.CE_THR_EVT e n), 0, 15⟩
/-- Offset of CE_THR_TIMER_e_n (09_engine_threads.md). -/
def O.CE_THR_TIMER (e n : Nat) : Nat := 0x080418 + 0x4000 * e + 0x40 * n
def F.CE_THR_TIMER.LEFT (e n : Nat) : Fld := ⟨(O.CE_THR_TIMER e n), 0, 32⟩
/-- Offset of CE_THR_G_e_n_r (09_engine_threads.md). -/
def O.CE_THR_G (e n r : Nat) : Nat := 0x080800 + 0x4000 * e + 0x40 * n + 0x4 * r
def F.CE_THR_G.VALUE (e n r : Nat) : Fld := ⟨(O.CE_THR_G e n r), 0, 32⟩

/-! Registers of 11_functions_and_queues.md -/

/-- Offset of Q_STAT (11_functions_and_queues.md). -/
def O.Q_STAT : Nat := 0x0D0000
def F.Q_STAT.FROZEN : Fld := ⟨O.Q_STAT, 31, 1⟩
def F.Q_STAT.ADMIN_BUSY : Fld := ⟨O.Q_STAT, 30, 1⟩
def F.Q_STAT.ADMIN_FN : Fld := ⟨O.Q_STAT, 16, 8⟩
/-- Offset of Q_ADMIN0_CFG (11_functions_and_queues.md). -/
def O.Q_ADMIN0_CFG : Nat := 0x0D0004
def F.Q_ADMIN0_CFG.EN : Fld := ⟨O.Q_ADMIN0_CFG, 31, 1⟩
def F.Q_ADMIN0_CFG.CQ_L : Fld := ⟨O.Q_ADMIN0_CFG, 8, 4⟩
def F.Q_ADMIN0_CFG.SQ_L : Fld := ⟨O.Q_ADMIN0_CFG, 0, 4⟩
/-- Offset of Q_ADMIN0_SQ (11_functions_and_queues.md). -/
def O.Q_ADMIN0_SQ : Nat := 0x0D0008
/-- Offset of Q_ADMIN0_CQ (11_functions_and_queues.md). -/
def O.Q_ADMIN0_CQ : Nat := 0x0D0010
/-- Offset of Q_SVC_MAP_n (11_functions_and_queues.md). -/
def O.Q_SVC_MAP (n : Nat) : Nat := 0x0D0020 + 0x4 * n
def F.Q_SVC_MAP.THREADS (n : Nat) : Fld := ⟨(O.Q_SVC_MAP n), 0, 32⟩
/-- Offset of Q_FN_SEL (11_functions_and_queues.md). -/
def O.Q_FN_SEL : Nat := 0x0D0040
def F.Q_FN_SEL.FN : Fld := ⟨O.Q_FN_SEL, 0, 8⟩
/-- Offset of Q_FN_INFO (11_functions_and_queues.md). -/
def O.Q_FN_INFO : Nat := 0x0D0044
def F.Q_FN_INFO.STATE : Fld := ⟨O.Q_FN_INFO, 30, 2⟩
def F.Q_FN_INFO.PORTS : Fld := ⟨O.Q_FN_INFO, 20, 10⟩
def F.Q_FN_INFO.EVT_LOST : Fld := ⟨O.Q_FN_INFO, 16, 4⟩
def F.Q_FN_INFO.CLASS_HI : Fld := ⟨O.Q_FN_INFO, 8, 8⟩
def F.Q_FN_INFO.CLASS_LO : Fld := ⟨O.Q_FN_INFO, 0, 8⟩
/-- Offset of Q_FN_USE (11_functions_and_queues.md). -/
def O.Q_FN_USE : Nat := 0x0D0048
def F.Q_FN_USE.QP_USE : Fld := ⟨O.Q_FN_USE, 16, 13⟩
def F.Q_FN_USE.GRAN_USE : Fld := ⟨O.Q_FN_USE, 0, 16⟩
/-- Offset of Q_FN_QUOTA (11_functions_and_queues.md). -/
def O.Q_FN_QUOTA : Nat := 0x0D004C
def F.Q_FN_QUOTA.MAX_QP : Fld := ⟨O.Q_FN_QUOTA, 16, 13⟩
def F.Q_FN_QUOTA.MAX_GRAN : Fld := ⟨O.Q_FN_QUOTA, 0, 16⟩
/-- Offset of Q_QP_SEL (11_functions_and_queues.md). -/
def O.Q_QP_SEL : Nat := 0x0D0060
def F.Q_QP_SEL.QP : Fld := ⟨O.Q_QP_SEL, 0, 12⟩
/-- Offset of Q_QP_INFO (11_functions_and_queues.md). -/
def O.Q_QP_INFO : Nat := 0x0D0064
def F.Q_QP_INFO.GEN : Fld := ⟨O.Q_QP_INFO, 24, 8⟩
def F.Q_QP_INFO.OWNER : Fld := ⟨O.Q_QP_INFO, 16, 8⟩
def F.Q_QP_INFO.EN : Fld := ⟨O.Q_QP_INFO, 15, 1⟩
def F.Q_QP_INFO.SERVICE : Fld := ⟨O.Q_QP_INFO, 14, 1⟩
def F.Q_QP_INFO.LC : Fld := ⟨O.Q_QP_INFO, 12, 2⟩
def F.Q_QP_INFO.ADMIN : Fld := ⟨O.Q_QP_INFO, 11, 1⟩
def F.Q_QP_INFO.DB_ERR : Fld := ⟨O.Q_QP_INFO, 10, 1⟩
def F.Q_QP_INFO.THREAD : Fld := ⟨O.Q_QP_INFO, 0, 7⟩
/-- Offset of Q_QP_IDX (11_functions_and_queues.md). -/
def O.Q_QP_IDX : Nat := 0x0D0068
def F.Q_QP_IDX.RX_HEAD : Fld := ⟨O.Q_QP_IDX, 16, 16⟩
def F.Q_QP_IDX.TX_HEAD : Fld := ⟨O.Q_QP_IDX, 0, 16⟩
/-- Offset of Q_QP_CQ (11_functions_and_queues.md). -/
def O.Q_QP_CQ : Nat := 0x0D006C
def F.Q_QP_CQ.CQ_HEAD : Fld := ⟨O.Q_QP_CQ, 16, 16⟩
def F.Q_QP_CQ.CQ_TAIL : Fld := ⟨O.Q_QP_CQ, 0, 16⟩
/-- Offset of Q_ERR_LOG (11_functions_and_queues.md). -/
def O.Q_ERR_LOG : Nat := 0x0D0080
def F.Q_ERR_LOG.CAUSE : Fld := ⟨O.Q_ERR_LOG, 28, 4⟩
def F.Q_ERR_LOG.FN : Fld := ⟨O.Q_ERR_LOG, 16, 8⟩
def F.Q_ERR_LOG.QP : Fld := ⟨O.Q_ERR_LOG, 0, 12⟩
/-- Offset of Q_CNT_CLR (11_functions_and_queues.md). -/
def O.Q_CNT_CLR : Nat := 0x0D00F8
def F.Q_CNT_CLR.CLR : Fld := ⟨O.Q_CNT_CLR, 0, 1⟩
/-- Offset of Q_CNT_k (11_functions_and_queues.md). -/
def O.Q_CNT (k : Nat) : Nat := 0x0D0100 + 0x8 * k

/-! Registers of 12_dma_and_planes.md -/

/-- Offset of DMA_CTL (12_dma_and_planes.md). -/
def O.DMA_CTL : Nat := 0x0E0000
def F.DMA_CTL.TWO_D_EN : Fld := ⟨O.DMA_CTL, 31, 1⟩
/-- Offset of DMA_STAT (12_dma_and_planes.md). -/
def O.DMA_STAT : Nat := 0x0E0004
def F.DMA_STAT.BUSY : Fld := ⟨O.DMA_STAT, 0, 32⟩
/-- Offset of DMA_WIN (12_dma_and_planes.md). -/
def O.DMA_WIN : Nat := 0x0E0008
def F.DMA_WIN.EN : Fld := ⟨O.DMA_WIN, 0, 1⟩
/-- Offset of DMA_CQ_CFG (12_dma_and_planes.md). -/
def O.DMA_CQ_CFG : Nat := 0x0E0010
def F.DMA_CQ_CFG.EN : Fld := ⟨O.DMA_CQ_CFG, 31, 1⟩
def F.DMA_CQ_CFG.HEAD_ERR : Fld := ⟨O.DMA_CQ_CFG, 30, 1⟩
def F.DMA_CQ_CFG.L : Fld := ⟨O.DMA_CQ_CFG, 0, 4⟩
/-- Offset of DMA_CQ_IDX (12_dma_and_planes.md). -/
def O.DMA_CQ_IDX : Nat := 0x0E0014
def F.DMA_CQ_IDX.TAIL : Fld := ⟨O.DMA_CQ_IDX, 16, 16⟩
def F.DMA_CQ_IDX.HEAD : Fld := ⟨O.DMA_CQ_IDX, 0, 16⟩
/-- Offset of DMA_CQ_BASE (12_dma_and_planes.md). -/
def O.DMA_CQ_BASE : Nat := 0x0E0018
/-- Offset of DMA_CH_CTL_n (12_dma_and_planes.md). -/
def O.DMA_CH_CTL (n : Nat) : Nat := 0x0E1000 + 0x80 * n
def F.DMA_CH_CTL.START (n : Nat) : Fld := ⟨(O.DMA_CH_CTL n), 31, 1⟩
def F.DMA_CH_CTL.PAUSE (n : Nat) : Fld := ⟨(O.DMA_CH_CTL n), 30, 1⟩
def F.DMA_CH_CTL.RESUME (n : Nat) : Fld := ⟨(O.DMA_CH_CTL n), 29, 1⟩
def F.DMA_CH_CTL.ABORT (n : Nat) : Fld := ⟨(O.DMA_CH_CTL n), 28, 1⟩
def F.DMA_CH_CTL.PRI (n : Nat) : Fld := ⟨(O.DMA_CH_CTL n), 24, 2⟩
def F.DMA_CH_CTL.FENCE (n : Nat) : Fld := ⟨(O.DMA_CH_CTL n), 23, 1⟩
def F.DMA_CH_CTL.IRQ_EN (n : Nat) : Fld := ⟨(O.DMA_CH_CTL n), 22, 1⟩
def F.DMA_CH_CTL.LIST_SIDE (n : Nat) : Fld := ⟨(O.DMA_CH_CTL n), 21, 1⟩
def F.DMA_CH_CTL.ADDR_MODE (n : Nat) : Fld := ⟨(O.DMA_CH_CTL n), 16, 2⟩
def F.DMA_CH_CTL.PLANE_OP (n : Nat) : Fld := ⟨(O.DMA_CH_CTL n), 12, 2⟩
/-- Offset of DMA_CH_STAT_n (12_dma_and_planes.md). -/
def O.DMA_CH_STAT (n : Nat) : Nat := 0x0E1004 + 0x80 * n
def F.DMA_CH_STAT.ERR (n : Nat) : Fld := ⟨(O.DMA_CH_STAT n), 28, 4⟩
def F.DMA_CH_STAT.LATE_ERR (n : Nat) : Fld := ⟨(O.DMA_CH_STAT n), 24, 1⟩
def F.DMA_CH_STAT.CPL_WAIT (n : Nat) : Fld := ⟨(O.DMA_CH_STAT n), 23, 1⟩
def F.DMA_CH_STAT.SH_PAUSED (n : Nat) : Fld := ⟨(O.DMA_CH_STAT n), 22, 1⟩
def F.DMA_CH_STAT.CFG_ERR (n : Nat) : Fld := ⟨(O.DMA_CH_STAT n), 21, 1⟩
def F.DMA_CH_STAT.DONE (n : Nat) : Fld := ⟨(O.DMA_CH_STAT n), 20, 1⟩
def F.DMA_CH_STAT.END_PEND (n : Nat) : Fld := ⟨(O.DMA_CH_STAT n), 17, 1⟩
def F.DMA_CH_STAT.AT_END (n : Nat) : Fld := ⟨(O.DMA_CH_STAT n), 16, 1⟩
def F.DMA_CH_STAT.STATE (n : Nat) : Fld := ⟨(O.DMA_CH_STAT n), 0, 3⟩
/-- Offset of DMA_CH_SRC_n (12_dma_and_planes.md). -/
def O.DMA_CH_SRC (n : Nat) : Nat := 0x0E1008 + 0x80 * n
/-- Offset of DMA_CH_DST_n (12_dma_and_planes.md). -/
def O.DMA_CH_DST (n : Nat) : Nat := 0x0E1010 + 0x80 * n
/-- Offset of DMA_CH_COUNT_n (12_dma_and_planes.md). -/
def O.DMA_CH_COUNT (n : Nat) : Nat := 0x0E1018 + 0x80 * n
def F.DMA_CH_COUNT.COUNT (n : Nat) : Fld := ⟨(O.DMA_CH_COUNT n), 0, 32⟩
/-- Offset of DMA_CH_LIST_n (12_dma_and_planes.md). -/
def O.DMA_CH_LIST (n : Nat) : Nat := 0x0E1020 + 0x80 * n
/-- Offset of DMA_CH_ERRADDR_n (12_dma_and_planes.md). -/
def O.DMA_CH_ERRADDR (n : Nat) : Nat := 0x0E1028 + 0x80 * n
/-- Offset of DMA_CH_SGEOM_n (12_dma_and_planes.md). -/
def O.DMA_CH_SGEOM (n : Nat) : Nat := 0x0E1030 + 0x80 * n
def F.DMA_CH_SGEOM.STRIDE (n : Nat) : Fld := ⟨((O.DMA_CH_SGEOM n) + 4), 0, 32⟩
def F.DMA_CH_SGEOM.LINES (n : Nat) : Fld := ⟨(O.DMA_CH_SGEOM n), 16, 16⟩
def F.DMA_CH_SGEOM.LEN (n : Nat) : Fld := ⟨(O.DMA_CH_SGEOM n), 0, 16⟩
/-- Offset of DMA_CH_DGEOM_n (12_dma_and_planes.md). -/
def O.DMA_CH_DGEOM (n : Nat) : Nat := 0x0E1038 + 0x80 * n
def F.DMA_CH_DGEOM.STRIDE (n : Nat) : Fld := ⟨((O.DMA_CH_DGEOM n) + 4), 0, 32⟩
def F.DMA_CH_DGEOM.LINES (n : Nat) : Fld := ⟨(O.DMA_CH_DGEOM n), 16, 16⟩
def F.DMA_CH_DGEOM.LEN (n : Nat) : Fld := ⟨(O.DMA_CH_DGEOM n), 0, 16⟩
/-- Offset of DMA_CH_POS_n (12_dma_and_planes.md). -/
def O.DMA_CH_POS (n : Nat) : Nat := 0x0E1040 + 0x80 * n
def F.DMA_CH_POS.DLINE (n : Nat) : Fld := ⟨((O.DMA_CH_POS n) + 4), 16, 16⟩
def F.DMA_CH_POS.DOFS (n : Nat) : Fld := ⟨((O.DMA_CH_POS n) + 4), 0, 16⟩
def F.DMA_CH_POS.SLINE (n : Nat) : Fld := ⟨(O.DMA_CH_POS n), 16, 16⟩
def F.DMA_CH_POS.SOFS (n : Nat) : Fld := ⟨(O.DMA_CH_POS n), 0, 16⟩
/-- Offset of DMA_CH_PLANE_n (12_dma_and_planes.md). -/
def O.DMA_CH_PLANE (n : Nat) : Nat := 0x0E1048 + 0x80 * n
def F.DMA_CH_PLANE.STRIDE (n : Nat) : Fld := ⟨((O.DMA_CH_PLANE n) + 4), 0, 32⟩
def F.DMA_CH_PLANE.PLANES_M1 (n : Nat) : Fld := ⟨(O.DMA_CH_PLANE n), 24, 4⟩
def F.DMA_CH_PLANE.MSB_FIRST (n : Nat) : Fld := ⟨(O.DMA_CH_PLANE n), 23, 1⟩
def F.DMA_CH_PLANE.WIDTH (n : Nat) : Fld := ⟨(O.DMA_CH_PLANE n), 16, 3⟩

/-! Registers of 13_buffer_memory_and_placement.md -/

/-- Offset of MEM_STAT (13_buffer_memory_and_placement.md). -/
def O.MEM_STAT : Nat := 0x0F0000
def F.MEM_STAT.MIGRATING : Fld := ⟨O.MEM_STAT, 31, 1⟩
def F.MEM_STAT.NO_SPARE : Fld := ⟨O.MEM_STAT, 30, 1⟩
def F.MEM_STAT.RNG_FAIL : Fld := ⟨O.MEM_STAT, 29, 1⟩
def F.MEM_STAT.RETIRED : Fld := ⟨O.MEM_STAT, 16, 11⟩
def F.MEM_STAT.FREE : Fld := ⟨O.MEM_STAT, 0, 11⟩
/-- Offset of MEM_PP_CFG (13_buffer_memory_and_placement.md). -/
def O.MEM_PP_CFG : Nat := 0x0F0004
def F.MEM_PP_CFG.EN : Fld := ⟨O.MEM_PP_CFG, 31, 1⟩
def F.MEM_PP_CFG.FAST : Fld := ⟨O.MEM_PP_CFG, 30, 1⟩
/-- Offset of MEM_PP_STAT (13_buffer_memory_and_placement.md). -/
def O.MEM_PP_STAT : Nat := 0x0F0008
def F.MEM_PP_STAT.PASSES : Fld := ⟨O.MEM_PP_STAT, 16, 16⟩
def F.MEM_PP_STAT.REGION : Fld := ⟨O.MEM_PP_STAT, 0, 15⟩
/-- Offset of MEM_BANK_CMD (13_buffer_memory_and_placement.md). -/
def O.MEM_BANK_CMD : Nat := 0x0F000C
def F.MEM_BANK_CMD.GO : Fld := ⟨O.MEM_BANK_CMD, 31, 1⟩
def F.MEM_BANK_CMD.BUSY : Fld := ⟨O.MEM_BANK_CMD, 30, 1⟩
def F.MEM_BANK_CMD.BANK : Fld := ⟨O.MEM_BANK_CMD, 24, 5⟩
def F.MEM_BANK_CMD.RESULT : Fld := ⟨O.MEM_BANK_CMD, 8, 4⟩
def F.MEM_BANK_CMD.OP : Fld := ⟨O.MEM_BANK_CMD, 4, 2⟩
/-- Offset of MEM_GRAN_SEL (13_buffer_memory_and_placement.md). -/
def O.MEM_GRAN_SEL : Nat := 0x0F0010
def F.MEM_GRAN_SEL.GRAN : Fld := ⟨O.MEM_GRAN_SEL, 0, 11⟩
/-- Offset of MEM_GRAN_INFO (13_buffer_memory_and_placement.md). -/
def O.MEM_GRAN_INFO : Nat := 0x0F0014
def F.MEM_GRAN_INFO.STATE : Fld := ⟨O.MEM_GRAN_INFO, 29, 3⟩
def F.MEM_GRAN_INFO.OWNER : Fld := ⟨O.MEM_GRAN_INFO, 20, 9⟩
def F.MEM_GRAN_INFO.POISONED : Fld := ⟨O.MEM_GRAN_INFO, 12, 8⟩
def F.MEM_GRAN_INFO.QP : Fld := ⟨O.MEM_GRAN_INFO, 0, 12⟩
/-- Offset of MEM_DBG_ADDR (13_buffer_memory_and_placement.md). -/
def O.MEM_DBG_ADDR : Nat := 0x0F0018
def F.MEM_DBG_ADDR.ADDR : Fld := ⟨O.MEM_DBG_ADDR, 3, 20⟩
/-- Offset of MEM_DBG_DATA (13_buffer_memory_and_placement.md). -/
def O.MEM_DBG_DATA : Nat := 0x0F0020
/-- Offset of MEM_ERR_LOG (13_buffer_memory_and_placement.md). -/
def O.MEM_ERR_LOG : Nat := 0x0F0028
def F.MEM_ERR_LOG.VALID : Fld := ⟨(O.MEM_ERR_LOG + 4), 31, 1⟩
def F.MEM_ERR_LOG.KIND : Fld := ⟨(O.MEM_ERR_LOG + 4), 29, 2⟩
def F.MEM_ERR_LOG.VERDICT : Fld := ⟨(O.MEM_ERR_LOG + 4), 27, 2⟩
def F.MEM_ERR_LOG.MASTER : Fld := ⟨(O.MEM_ERR_LOG + 4), 23, 4⟩
def F.MEM_ERR_LOG.ADDR : Fld := ⟨O.MEM_ERR_LOG, 0, 23⟩
/-- Offset of MEM_RGN_LOG (13_buffer_memory_and_placement.md). -/
def O.MEM_RGN_LOG : Nat := 0x0F0030
def F.MEM_RGN_LOG.VALID : Fld := ⟨(O.MEM_RGN_LOG + 4), 31, 1⟩
def F.MEM_RGN_LOG.WRITE : Fld := ⟨(O.MEM_RGN_LOG + 4), 30, 1⟩
def F.MEM_RGN_LOG.MASTER : Fld := ⟨(O.MEM_RGN_LOG + 4), 23, 4⟩
def F.MEM_RGN_LOG.ADDR : Fld := ⟨O.MEM_RGN_LOG, 0, 23⟩
/-- Offset of MEM_BANK_STAT_n (13_buffer_memory_and_placement.md). -/
def O.MEM_BANK_STAT (n : Nat) : Nat := 0x0F0040 + 0x4 * n
def F.MEM_BANK_STAT.PWR (n : Nat) : Fld := ⟨(O.MEM_BANK_STAT n), 30, 2⟩
def F.MEM_BANK_STAT.NOALLOC (n : Nat) : Fld := ⟨(O.MEM_BANK_STAT n), 29, 1⟩
def F.MEM_BANK_STAT.RETIRED (n : Nat) : Fld := ⟨(O.MEM_BANK_STAT n), 16, 7⟩
def F.MEM_BANK_STAT.LIVE (n : Nat) : Fld := ⟨(O.MEM_BANK_STAT n), 0, 7⟩
/-- Offset of MEM_POISON_LOG_n (13_buffer_memory_and_placement.md). -/
def O.MEM_POISON_LOG (n : Nat) : Nat := 0x0F0200 + 0x8 * n
def F.MEM_POISON_LOG.VALID (n : Nat) : Fld := ⟨((O.MEM_POISON_LOG n) + 4), 31, 1⟩
def F.MEM_POISON_LOG.OWNER (n : Nat) : Fld := ⟨((O.MEM_POISON_LOG n) + 4), 16, 9⟩
def F.MEM_POISON_LOG.QP (n : Nat) : Fld := ⟨((O.MEM_POISON_LOG n) + 4), 0, 12⟩
def F.MEM_POISON_LOG.ADDR (n : Nat) : Fld := ⟨(O.MEM_POISON_LOG n), 0, 23⟩
/-- Offset of MEM_POISON_IDX (13_buffer_memory_and_placement.md). -/
def O.MEM_POISON_IDX : Nat := 0x0F0280
def F.MEM_POISON_IDX.NEXT : Fld := ⟨O.MEM_POISON_IDX, 0, 4⟩
/-- Offset of MEM_CNT_CLR (13_buffer_memory_and_placement.md). -/
def O.MEM_CNT_CLR : Nat := 0x0F02F8
def F.MEM_CNT_CLR.CLR : Fld := ⟨O.MEM_CNT_CLR, 0, 1⟩
/-- Offset of MEM_CNT_k (13_buffer_memory_and_placement.md). -/
def O.MEM_CNT (k : Nat) : Nat := 0x0F0300 + 0x8 * k
/-- Offset of MEM_RGN_RD_m_w (13_buffer_memory_and_placement.md). -/
def O.MEM_RGN_RD (m w : Nat) : Nat := 0x0F1000 + 0x100 * m + 0x4 * w
def F.MEM_RGN_RD.READ (m w : Nat) : Fld := ⟨(O.MEM_RGN_RD m w), 0, 32⟩
/-- Offset of MEM_RGN_WR_m_w (13_buffer_memory_and_placement.md). -/
def O.MEM_RGN_WR (m w : Nat) : Nat := 0x0F2000 + 0x100 * m + 0x4 * w
def F.MEM_RGN_WR.WRITE (m w : Nat) : Fld := ⟨(O.MEM_RGN_WR m w), 0, 32⟩
/-- Offset of MEM_RETIRED_w (13_buffer_memory_and_placement.md). -/
def O.MEM_RETIRED (w : Nat) : Nat := 0x0F3000 + 0x4 * w
def F.MEM_RETIRED.RETIRED (w : Nat) : Fld := ⟨(O.MEM_RETIRED w), 0, 32⟩

/-! Registers of 14_check_units_safety_island.md -/

/-- Offset of CHK_SEAL (14_check_units_safety_island.md). -/
def O.CHK_SEAL : Nat := 0x0E8000
def F.CHK_SEAL.KEY : Fld := ⟨O.CHK_SEAL, 16, 16⟩
def F.CHK_SEAL.SEALED : Fld := ⟨O.CHK_SEAL, 0, 1⟩
/-- Offset of CHK_DIGEST (14_check_units_safety_island.md). -/
def O.CHK_DIGEST : Nat := 0x0E8004
def F.CHK_DIGEST.DIGEST : Fld := ⟨O.CHK_DIGEST, 0, 32⟩
/-- Offset of CHK_n_CTL (14_check_units_safety_island.md). -/
def O.CHK_CTL (n : Nat) : Nat := 0x0E9000 + 0x1000 * n
def F.CHK_CTL.GO (n : Nat) : Fld := ⟨(O.CHK_CTL n), 31, 1⟩
def F.CHK_CTL.ABORT (n : Nat) : Fld := ⟨(O.CHK_CTL n), 30, 1⟩
def F.CHK_CTL.REARM (n : Nat) : Fld := ⟨(O.CHK_CTL n), 0, 1⟩
/-- Offset of CHK_n_STAT (14_check_units_safety_island.md). -/
def O.CHK_STAT (n : Nat) : Nat := 0x0E9004 + 0x1000 * n
def F.CHK_STAT.END (n : Nat) : Fld := ⟨(O.CHK_STAT n), 29, 3⟩
def F.CHK_STAT.ALIVE (n : Nat) : Fld := ⟨(O.CHK_STAT n), 26, 3⟩
def F.CHK_STAT.STALE (n : Nat) : Fld := ⟨(O.CHK_STAT n), 25, 1⟩
def F.CHK_STAT.ALIVE_ERR (n : Nat) : Fld := ⟨(O.CHK_STAT n), 24, 1⟩
def F.CHK_STAT.MISMATCH (n : Nat) : Fld := ⟨(O.CHK_STAT n), 23, 1⟩
def F.CHK_STAT.DONE (n : Nat) : Fld := ⟨(O.CHK_STAT n), 22, 1⟩
def F.CHK_STAT.OVERFEED (n : Nat) : Fld := ⟨(O.CHK_STAT n), 21, 1⟩
def F.CHK_STAT.CFG_ERR (n : Nat) : Fld := ⟨(O.CHK_STAT n), 20, 1⟩
def F.CHK_STAT.STATE (n : Nat) : Fld := ⟨(O.CHK_STAT n), 16, 1⟩
def F.CHK_STAT.LAST (n : Nat) : Fld := ⟨(O.CHK_STAT n), 0, 16⟩
/-- Offset of CHK_n_CFG (14_check_units_safety_island.md). -/
def O.CHK_CFG (n : Nat) : Nat := 0x0E9008 + 0x1000 * n
def F.CHK_CFG.SRC (n : Nat) : Fld := ⟨(O.CHK_CFG n), 31, 1⟩
def F.CHK_CFG.COMPARE (n : Nat) : Fld := ⟨(O.CHK_CFG n), 30, 1⟩
def F.CHK_CFG.EXP_SRC (n : Nat) : Fld := ⟨(O.CHK_CFG n), 29, 1⟩
def F.CHK_CFG.EXP_LE (n : Nat) : Fld := ⟨(O.CHK_CFG n), 28, 1⟩
def F.CHK_CFG.REFIN (n : Nat) : Fld := ⟨(O.CHK_CFG n), 27, 1⟩
def F.CHK_CFG.REFOUT (n : Nat) : Fld := ⟨(O.CHK_CFG n), 26, 1⟩
def F.CHK_CFG.ALIVE_EN (n : Nat) : Fld := ⟨(O.CHK_CFG n), 25, 1⟩
def F.CHK_CFG.WIDTH_M1 (n : Nat) : Fld := ⟨(O.CHK_CFG n), 18, 6⟩
def F.CHK_CFG.RES_OFS (n : Nat) : Fld := ⟨(O.CHK_CFG n), 4, 11⟩
/-- Offset of CHK_n_POLY (14_check_units_safety_island.md). -/
def O.CHK_POLY (n : Nat) : Nat := 0x0E9010 + 0x1000 * n
/-- Offset of CHK_n_INIT (14_check_units_safety_island.md). -/
def O.CHK_INIT (n : Nat) : Nat := 0x0E9018 + 0x1000 * n
/-- Offset of CHK_n_XOROUT (14_check_units_safety_island.md). -/
def O.CHK_XOROUT (n : Nat) : Nat := 0x0E9020 + 0x1000 * n
/-- Offset of CHK_n_SCAN_ADDR (14_check_units_safety_island.md). -/
def O.CHK_SCAN_ADDR (n : Nat) : Nat := 0x0E9028 + 0x1000 * n
/-- Offset of CHK_n_LEN (14_check_units_safety_island.md). -/
def O.CHK_LEN (n : Nat) : Nat := 0x0E9030 + 0x1000 * n
def F.CHK_LEN.LEN (n : Nat) : Fld := ⟨(O.CHK_LEN n), 0, 25⟩
/-- Offset of CHK_n_ALIVE (14_check_units_safety_island.md). -/
def O.CHK_ALIVE (n : Nat) : Nat := 0x0E9034 + 0x1000 * n
def F.CHK_ALIVE.STALE_US (n : Nat) : Fld := ⟨(O.CHK_ALIVE n), 16, 16⟩
def F.CHK_ALIVE.AW (n : Nat) : Fld := ⟨(O.CHK_ALIVE n), 10, 5⟩
def F.CHK_ALIVE.AOFS (n : Nat) : Fld := ⟨(O.CHK_ALIVE n), 0, 10⟩
/-- Offset of CHK_n_EXPECT (14_check_units_safety_island.md). -/
def O.CHK_EXPECT (n : Nat) : Nat := 0x0E9040 + 0x1000 * n
/-- Offset of CHK_n_RESULT (14_check_units_safety_island.md). -/
def O.CHK_RESULT (n : Nat) : Nat := 0x0E9050 + 0x1000 * n
def F.CHK_RESULT.ALIVE_VAL (n : Nat) : Fld := ⟨((O.CHK_RESULT n) + 12), 0, 16⟩
def F.CHK_RESULT.VALID (n : Nat) : Fld := ⟨(O.CHK_RESULT n), 31, 1⟩
def F.CHK_RESULT.ALIVE (n : Nat) : Fld := ⟨(O.CHK_RESULT n), 28, 3⟩
def F.CHK_RESULT.END (n : Nat) : Fld := ⟨(O.CHK_RESULT n), 25, 3⟩
def F.CHK_RESULT.COUNT (n : Nat) : Fld := ⟨(O.CHK_RESULT n), 0, 25⟩

/-! Registers of 15_interrupts.md -/

/-- Offset of IRQ_CTL (15_interrupts.md). -/
def O.IRQ_CTL : Nat := 0x0F8000
def F.IRQ_CTL.GDIS : Fld := ⟨O.IRQ_CTL, 31, 1⟩
def F.IRQ_CTL.GROUPBITS : Fld := ⟨O.IRQ_CTL, 0, 4⟩
/-- Offset of IRQ_STAT (15_interrupts.md). -/
def O.IRQ_STAT : Nat := 0x0F8004
def F.IRQ_STAT.EOI_ERR : Fld := ⟨O.IRQ_STAT, 31, 1⟩
def F.IRQ_STAT.EOI_SRC : Fld := ⟨O.IRQ_STAT, 0, 10⟩
/-- Offset of IRQ_VBASE_k (15_interrupts.md). -/
def O.IRQ_VBASE (k : Nat) : Nat := 0x0F8100 + 0x20 * k
def F.IRQ_VBASE.BASE (k : Nat) : Fld := ⟨(O.IRQ_VBASE k), 5, 27⟩
def F.IRQ_VBASE.VSHIFT (k : Nat) : Fld := ⟨(O.IRQ_VBASE k), 0, 2⟩
/-- Offset of IRQ_THRESH_k (15_interrupts.md). -/
def O.IRQ_THRESH (k : Nat) : Nat := 0x0F8104 + 0x20 * k
def F.IRQ_THRESH.TEN (k : Nat) : Fld := ⟨(O.IRQ_THRESH k), 31, 1⟩
def F.IRQ_THRESH.THRESH (k : Nat) : Fld := ⟨(O.IRQ_THRESH k), 0, 8⟩
/-- Offset of IRQ_RUN_k (15_interrupts.md). -/
def O.IRQ_RUN (k : Nat) : Nat := 0x0F8108 + 0x20 * k
def F.IRQ_RUN.ANY (k : Nat) : Fld := ⟨(O.IRQ_RUN k), 31, 1⟩
def F.IRQ_RUN.TOP (k : Nat) : Fld := ⟨(O.IRQ_RUN k), 16, 10⟩
def F.IRQ_RUN.PRI (k : Nat) : Fld := ⟨(O.IRQ_RUN k), 0, 8⟩
/-- Offset of IRQ_EOI_k (15_interrupts.md). -/
def O.IRQ_EOI (k : Nat) : Nat := 0x0F810C + 0x20 * k
def F.IRQ_EOI.SRC (k : Nat) : Fld := ⟨(O.IRQ_EOI k), 0, 10⟩
/-- Offset of IRQ_OFFER_k (15_interrupts.md). -/
def O.IRQ_OFFER (k : Nat) : Nat := 0x0F8110 + 0x20 * k
def F.IRQ_OFFER.VALID (k : Nat) : Fld := ⟨(O.IRQ_OFFER k), 31, 1⟩
def F.IRQ_OFFER.PRI (k : Nat) : Fld := ⟨(O.IRQ_OFFER k), 16, 8⟩
def F.IRQ_OFFER.SRC (k : Nat) : Fld := ⟨(O.IRQ_OFFER k), 0, 10⟩
/-- Offset of IRQ_CFG_n (15_interrupts.md). -/
def O.IRQ_CFG (n : Nat) : Nat := 0x0F9000 + 0x4 * n
def F.IRQ_CFG.EN (n : Nat) : Fld := ⟨(O.IRQ_CFG n), 31, 1⟩
def F.IRQ_CFG.TARGET (n : Nat) : Fld := ⟨(O.IRQ_CFG n), 24, 3⟩
def F.IRQ_CFG.PRI (n : Nat) : Fld := ⟨(O.IRQ_CFG n), 0, 8⟩
/-- Offset of IRQ_PEND_w (15_interrupts.md). -/
def O.IRQ_PEND (w : Nat) : Nat := 0x0FA000 + 0x4 * w
def F.IRQ_PEND.PEND (w : Nat) : Fld := ⟨(O.IRQ_PEND w), 0, 32⟩
/-- Offset of IRQ_SETPEND_w (15_interrupts.md). -/
def O.IRQ_SETPEND (w : Nat) : Nat := 0x0FA080 + 0x4 * w
def F.IRQ_SETPEND.SET (w : Nat) : Fld := ⟨(O.IRQ_SETPEND w), 0, 32⟩
/-- Offset of IRQ_ACT_w (15_interrupts.md). -/
def O.IRQ_ACT (w : Nat) : Nat := 0x0FA100 + 0x4 * w
def F.IRQ_ACT.ACT (w : Nat) : Fld := ⟨(O.IRQ_ACT w), 0, 32⟩

/-! Registers of 16_power_and_wake.md -/

/-- Offset of PWR_STAT (16_power_and_wake.md). -/
def O.PWR_STAT : Nat := 0x0FC000
def F.PWR_STAT.SEQ_BUSY : Fld := ⟨O.PWR_STAT, 31, 1⟩
def F.PWR_STAT.GASP : Fld := ⟨O.PWR_STAT, 30, 1⟩
def F.PWR_STAT.GASP_DONE : Fld := ⟨O.PWR_STAT, 29, 1⟩
def F.PWR_STAT.ABORTED : Fld := ⟨O.PWR_STAT, 28, 1⟩
def F.PWR_STAT.INRUSH_WAIT : Fld := ⟨O.PWR_STAT, 27, 1⟩
def F.PWR_STAT.ACK_TO : Fld := ⟨O.PWR_STAT, 26, 1⟩
def F.PWR_STAT.USED : Fld := ⟨O.PWR_STAT, 0, 8⟩
/-- Offset of PWR_INRUSH (16_power_and_wake.md). -/
def O.PWR_INRUSH : Nat := 0x0FC004
def F.PWR_INRUSH.BUDGET : Fld := ⟨O.PWR_INRUSH, 0, 8⟩
/-- Offset of PWR_INRUSH_COST (16_power_and_wake.md). -/
def O.PWR_INRUSH_COST : Nat := 0x0FC008
def F.PWR_INRUSH_COST.SAFE : Fld := ⟨O.PWR_INRUSH_COST, 24, 4⟩
def F.PWR_INRUSH_COST.BANK : Fld := ⟨O.PWR_INRUSH_COST, 20, 4⟩
def F.PWR_INRUSH_COST.TR : Fld := ⟨O.PWR_INRUSH_COST, 16, 4⟩
def F.PWR_INRUSH_COST.FP : Fld := ⟨O.PWR_INRUSH_COST, 12, 4⟩
def F.PWR_INRUSH_COST.CL : Fld := ⟨O.PWR_INRUSH_COST, 8, 4⟩
def F.PWR_INRUSH_COST.HALF : Fld := ⟨O.PWR_INRUSH_COST, 4, 4⟩
def F.PWR_INRUSH_COST.SPINE : Fld := ⟨O.PWR_INRUSH_COST, 0, 4⟩
/-- Offset of PWR_WDLY (16_power_and_wake.md). -/
def O.PWR_WDLY : Nat := 0x0FC00C
def F.PWR_WDLY.ACK_LIM : Fld := ⟨O.PWR_WDLY, 28, 4⟩
def F.PWR_WDLY.SAFE : Fld := ⟨O.PWR_WDLY, 24, 4⟩
def F.PWR_WDLY.BANK : Fld := ⟨O.PWR_WDLY, 20, 4⟩
def F.PWR_WDLY.TR : Fld := ⟨O.PWR_WDLY, 16, 4⟩
def F.PWR_WDLY.FP : Fld := ⟨O.PWR_WDLY, 12, 4⟩
def F.PWR_WDLY.CL : Fld := ⟨O.PWR_WDLY, 8, 4⟩
def F.PWR_WDLY.HALF : Fld := ⟨O.PWR_WDLY, 4, 4⟩
def F.PWR_WDLY.SPINE : Fld := ⟨O.PWR_WDLY, 0, 4⟩
/-- Offset of PWR_LISTEN (16_power_and_wake.md). -/
def O.PWR_LISTEN : Nat := 0x0FC010
def F.PWR_LISTEN.WINDOW : Fld := ⟨O.PWR_LISTEN, 24, 8⟩
def F.PWR_LISTEN.EN : Fld := ⟨O.PWR_LISTEN, 16, 8⟩
def F.PWR_LISTEN.PERIOD : Fld := ⟨O.PWR_LISTEN, 0, 16⟩
/-- Offset of PWR_WAKE_EN (16_power_and_wake.md). -/
def O.PWR_WAKE_EN : Nat := 0x0FC014
def F.PWR_WAKE_EN.CAP : Fld := ⟨O.PWR_WAKE_EN, 16, 16⟩
def F.PWR_WAKE_EN.FRAME : Fld := ⟨O.PWR_WAKE_EN, 10, 1⟩
def F.PWR_WAKE_EN.PATTERN : Fld := ⟨O.PWR_WAKE_EN, 9, 1⟩
def F.PWR_WAKE_EN.LINK : Fld := ⟨O.PWR_WAKE_EN, 8, 1⟩
/-- Offset of PWR_WAKE_REQ (16_power_and_wake.md). -/
def O.PWR_WAKE_REQ : Nat := 0x0FC018
def F.PWR_WAKE_REQ.REQ : Fld := ⟨O.PWR_WAKE_REQ, 0, 1⟩
/-- Offset of PWR_LASTWAKE (16_power_and_wake.md). -/
def O.PWR_LASTWAKE : Nat := 0x0FC01C
def F.PWR_LASTWAKE.VALID : Fld := ⟨O.PWR_LASTWAKE, 31, 1⟩
def F.PWR_LASTWAKE.MULTI : Fld := ⟨O.PWR_LASTWAKE, 30, 1⟩
def F.PWR_LASTWAKE.SRC : Fld := ⟨O.PWR_LASTWAKE, 20, 4⟩
def F.PWR_LASTWAKE.INDEX : Fld := ⟨O.PWR_LASTWAKE, 16, 4⟩
def F.PWR_LASTWAKE.FILTER : Fld := ⟨O.PWR_LASTWAKE, 8, 4⟩
/-- Offset of PWR_GASP (16_power_and_wake.md). -/
def O.PWR_GASP : Nat := 0x0FC020
def F.PWR_GASP.LEN : Fld := ⟨O.PWR_GASP, 16, 7⟩
def F.PWR_GASP.PORTS : Fld := ⟨O.PWR_GASP, 0, 8⟩
/-- Offset of PWR_WAKE_SET_w (16_power_and_wake.md). -/
def O.PWR_WAKE_SET (w : Nat) : Nat := 0x0FC080 + 0x4 * w
def F.PWR_WAKE_SET.DOMAINS (w : Nat) : Fld := ⟨(O.PWR_WAKE_SET w), 0, 32⟩
/-- Offset of PWR_GASP_FRAME_n (16_power_and_wake.md). -/
def O.PWR_GASP_FRAME (n : Nat) : Nat := 0x0FC100 + 0x4 * n
def F.PWR_GASP_FRAME.BYTES (n : Nat) : Fld := ⟨(O.PWR_GASP_FRAME n), 0, 32⟩
/-- Offset of PWR_DOM_n (16_power_and_wake.md). -/
def O.PWR_DOM (n : Nat) : Nat := 0x0FC400 + 0x4 * n
def F.PWR_DOM.STATE (n : Nat) : Fld := ⟨(O.PWR_DOM n), 30, 2⟩
def F.PWR_DOM.PEND (n : Nat) : Fld := ⟨(O.PWR_DOM n), 29, 1⟩
def F.PWR_DOM.LISTEN (n : Nat) : Fld := ⟨(O.PWR_DOM n), 28, 1⟩
def F.PWR_DOM.RESULT (n : Nat) : Fld := ⟨(O.PWR_DOM n), 24, 4⟩
def F.PWR_DOM.TARGET (n : Nat) : Fld := ⟨(O.PWR_DOM n), 0, 2⟩

/-! Registers of 17_parameter_dictionary.md -/

/-- Offset of DIC_IDX (17_parameter_dictionary.md). -/
def O.DIC_IDX : Nat := 0x0FE000
def F.DIC_IDX.INDEX : Fld := ⟨O.DIC_IDX, 16, 16⟩
def F.DIC_IDX.SUB : Fld := ⟨O.DIC_IDX, 8, 8⟩
/-- Offset of DIC_OFS (17_parameter_dictionary.md). -/
def O.DIC_OFS : Nat := 0x0FE004
def F.DIC_OFS.OFS : Fld := ⟨O.DIC_OFS, 0, 16⟩
/-- Offset of DIC_CMD (17_parameter_dictionary.md). -/
def O.DIC_CMD : Nat := 0x0FE008
def F.DIC_CMD.GO : Fld := ⟨O.DIC_CMD, 31, 1⟩
def F.DIC_CMD.OP : Fld := ⟨O.DIC_CMD, 24, 4⟩
def F.DIC_CMD.LEN : Fld := ⟨O.DIC_CMD, 0, 9⟩
/-- Offset of DIC_STAT (17_parameter_dictionary.md). -/
def O.DIC_STAT : Nat := 0x0FE00C
def F.DIC_STAT.BUSY : Fld := ⟨O.DIC_STAT, 31, 1⟩
def F.DIC_STAT.READY : Fld := ⟨O.DIC_STAT, 30, 1⟩
def F.DIC_STAT.DIRTY : Fld := ⟨O.DIC_STAT, 29, 1⟩
def F.DIC_STAT.COMMITTING : Fld := ⟨O.DIC_STAT, 28, 1⟩
def F.DIC_STAT.STORE_INVALID : Fld := ⟨O.DIC_STAT, 27, 1⟩
def F.DIC_STAT.STORE_FAIL : Fld := ⟨O.DIC_STAT, 26, 1⟩
def F.DIC_STAT.SLOT : Fld := ⟨O.DIC_STAT, 25, 1⟩
def F.DIC_STAT.RESULT : Fld := ⟨O.DIC_STAT, 16, 4⟩
def F.DIC_STAT.ABORT : Fld := ⟨O.DIC_STAT, 0, 16⟩
/-- Offset of DIC_INFO (17_parameter_dictionary.md). -/
def O.DIC_INFO : Nat := 0x0FE010
def F.DIC_INFO.TYPE : Fld := ⟨O.DIC_INFO, 28, 4⟩
def F.DIC_INFO.ACCESS : Fld := ⟨O.DIC_INFO, 25, 3⟩
def F.DIC_INFO.REACH_H : Fld := ⟨O.DIC_INFO, 24, 1⟩
def F.DIC_INFO.REACH_N : Fld := ⟨O.DIC_INFO, 23, 1⟩
def F.DIC_INFO.PERSIST : Fld := ⟨O.DIC_INFO, 22, 1⟩
def F.DIC_INFO.SERVED : Fld := ⟨O.DIC_INFO, 21, 1⟩
def F.DIC_INFO.DIRTY : Fld := ⟨O.DIC_INFO, 20, 1⟩
def F.DIC_INFO.SIZE : Fld := ⟨O.DIC_INFO, 0, 16⟩
/-- Offset of DIC_CFG (17_parameter_dictionary.md). -/
def O.DIC_CFG : Nat := 0x0FE014
def F.DIC_CFG.AUTO : Fld := ⟨O.DIC_CFG, 31, 1⟩
def F.DIC_CFG.HOLD_MS : Fld := ⟨O.DIC_CFG, 0, 16⟩
/-- Offset of DIC_MBX (17_parameter_dictionary.md). -/
def O.DIC_MBX : Nat := 0x0FE018
def F.DIC_MBX.EN : Fld := ⟨O.DIC_MBX, 31, 1⟩
def F.DIC_MBX.ENGINE : Fld := ⟨O.DIC_MBX, 24, 4⟩
def F.DIC_MBX.FWD_LIM : Fld := ⟨O.DIC_MBX, 15, 9⟩
def F.DIC_MBX.OFS : Fld := ⟨O.DIC_MBX, 4, 11⟩
/-- Offset of DIC_SEQ (17_parameter_dictionary.md). -/
def O.DIC_SEQ : Nat := 0x0FE01C
def F.DIC_SEQ.SEQ : Fld := ⟨O.DIC_SEQ, 0, 32⟩
/-- Offset of DIC_STORE (17_parameter_dictionary.md). -/
def O.DIC_STORE : Nat := 0x0FE020
def F.DIC_STORE.USED : Fld := ⟨O.DIC_STORE, 16, 16⟩
def F.DIC_STORE.SKIPPED : Fld := ⟨O.DIC_STORE, 0, 16⟩
/-- Offset of DIC_DATA_n (17_parameter_dictionary.md). -/
def O.DIC_DATA (n : Nat) : Nat := 0x0FE100 + 0x4 * n
def F.DIC_DATA.BYTES (n : Nat) : Fld := ⟨(O.DIC_DATA n), 0, 32⟩

/-! Registers of 18_faults_and_selftest.md -/

/-- Offset of FLT_STAT (18_faults_and_selftest.md). -/
def O.FLT_STAT : Nat := 0x0FF000
def F.FLT_STAT.CONTAIN : Fld := ⟨O.FLT_STAT, 31, 1⟩
def F.FLT_STAT.CONTAIN_LOST : Fld := ⟨O.FLT_STAT, 30, 1⟩
def F.FLT_STAT.LOST : Fld := ⟨O.FLT_STAT, 16, 8⟩
def F.FLT_STAT.ACTIVE : Fld := ⟨O.FLT_STAT, 8, 6⟩
def F.FLT_STAT.NEXT : Fld := ⟨O.FLT_STAT, 0, 5⟩
/-- Offset of FLT_ESC (18_faults_and_selftest.md). -/
def O.FLT_ESC : Nat := 0x0FF004
def F.FLT_ESC.PSW_ACK : Fld := ⟨O.FLT_ESC, 4, 1⟩
def F.FLT_ESC.MEM_LASTING : Fld := ⟨O.FLT_ESC, 3, 1⟩
def F.FLT_ESC.TR_CLK : Fld := ⟨O.FLT_ESC, 2, 1⟩
def F.FLT_ESC.FP_CLK : Fld := ⟨O.FLT_ESC, 1, 1⟩
def F.FLT_ESC.THREAD : Fld := ⟨O.FLT_ESC, 0, 1⟩
/-- Offset of FLT_WDOG (18_faults_and_selftest.md). -/
def O.FLT_WDOG : Nat := 0x0FF008
def F.FLT_WDOG.EN : Fld := ⟨O.FLT_WDOG, 31, 1⟩
def F.FLT_WDOG.KICK : Fld := ⟨O.FLT_WDOG, 30, 1⟩
def F.FLT_WDOG.LIMIT_US : Fld := ⟨O.FLT_WDOG, 0, 20⟩
/-- Offset of FLT_CLEAR (18_faults_and_selftest.md). -/
def O.FLT_CLEAR : Nat := 0x0FF00C
def F.FLT_CLEAR.GO : Fld := ⟨O.FLT_CLEAR, 31, 1⟩
def F.FLT_CLEAR.RESULT : Fld := ⟨O.FLT_CLEAR, 8, 4⟩
def F.FLT_CLEAR.ENTRY : Fld := ⟨O.FLT_CLEAR, 0, 5⟩
/-- Offset of FLT_CNT (18_faults_and_selftest.md). -/
def O.FLT_CNT : Nat := 0x0FF010
/-- Offset of FLT_LOG_n (18_faults_and_selftest.md). -/
def O.FLT_LOG (n : Nat) : Nat := 0x0FF100 + 0x10 * n
def F.FLT_LOG.WORD3 (n : Nat) : Fld := ⟨((O.FLT_LOG n) + 12), 0, 32⟩
def F.FLT_LOG.TIME_NS (n : Nat) : Fld := ⟨((O.FLT_LOG n) + 8), 0, 32⟩
def F.FLT_LOG.DETAIL (n : Nat) : Fld := ⟨((O.FLT_LOG n) + 4), 0, 32⟩
def F.FLT_LOG.VALID (n : Nat) : Fld := ⟨(O.FLT_LOG n), 31, 1⟩
def F.FLT_LOG.WORD0 (n : Nat) : Fld := ⟨(O.FLT_LOG n), 0, 31⟩

end Sys2Proof.Machine
end

