-- ==== Sys2Proof/Machine/KMap.lean ====
section
/-!
DEFINITION. Sparse data by key: a list of (key, value) pairs in one canonical form, keys strictly rising and no
entry equal to what an unlisted key reads as, so that equal contents are equal lists.
-/
namespace Sys2Proof.Machine

/-- A finite map from numbers, held as a list of pairs. -/
abbrev KMap (α : Type) := List (Nat × α)

/-- The value listed for key `n`, if any. -/
def KMap.find? {α : Type} (m : KMap α) (n : Nat) : Option α :=
  match m with
  | [] => none
  | (k, v) :: r => if k = n then some v else KMap.find? r n

/-- The value at key `n`; an unlisted key reads as `d`. -/
def KMap.get {α : Type} (d : α) (m : KMap α) (n : Nat) : α := (KMap.find? m n).getD d

/-- Lists `v` for key `n`, keeping the keys in rising order. -/
def KMap.insert {α : Type} (m : KMap α) (n : Nat) (v : α) : KMap α :=
  match m with
  | [] => [(n, v)]
  | (k, x) :: r =>
    if n < k then (n, v) :: (k, x) :: r
    else if k = n then (n, v) :: r
    else (k, x) :: KMap.insert r n v

/-- Removes key `n`. -/
def KMap.erase {α : Type} (m : KMap α) (n : Nat) : KMap α := List.filter (fun e => e.1 != n) m

/-- Writes `v` at key `n` of a map whose unlisted keys read as `d`: writing `d` removes the entry. -/
def KMap.put {α : Type} [DecidableEq α] (d : α) (m : KMap α) (n : Nat) (v : α) : KMap α :=
  if v = d then KMap.erase m n else KMap.insert m n v

/-- Removes every key for which `p` answers true. -/
def KMap.clear {α : Type} (p : Nat → Bool) (m : KMap α) : KMap α := List.filter (fun e => !p e.1) m

/-- Keys strictly rising. -/
def KMap.rising {α : Type} (m : KMap α) : Bool :=
  match m with
  | [] => true
  | (k, _) :: r => List.all r (fun e => decide (k < e.1)) && KMap.rising r

/-- The canonical form: keys strictly rising and no entry equal to what its key reads as when unlisted. -/
def KMap.wf {α : Type} [DecidableEq α] (d : Nat → α) (m : KMap α) : Bool :=
  match m with
  | [] => true
  | (k, v) :: r => decide (v ≠ d k) && List.all r (fun e => decide (k < e.1)) && KMap.wf d r

end Sys2Proof.Machine
end

