-- ==== Sys2Proof/Config.lean ====
section
/-!
DEFINITION. What an implementation fixes: the two configurations of 00_scope.md R3 and R4, and the values the spec
leaves open, as constants without a body.
-/
namespace Sys2Proof

/-- The two configurations (00_scope.md R1, R3). -/
inductive Cfg where
  | s  -- Gweip-S
  | x  -- Gweip-X
deriving DecidableEq, Repr

/-- Picks the Gweip-S or the Gweip-X value. -/
def Cfg.pick {α : Type} (c : Cfg) (vs vx : α) : α :=
  match c with
  | .s => vs
  | .x => vx

/-- Halves present (R3): half 0 is half A, half 1 half B. -/
def Cfg.halves (c : Cfg) : Nat := c.pick 1 2
/-- Field ports 0 up to this number (R3). -/
def Cfg.fieldPorts (c : Cfg) : Nat := c.pick 4 8
/-- Trunk ports (R3). -/
def Cfg.trunks (c : Cfg) : Nat := c.pick 1 2
/-- Engine clusters (R3). -/
def Cfg.clusters (c : Cfg) : Nat := c.pick 2 4
/-- Engines of a cluster (R3). -/
def Cfg.clusterSize (c : Cfg) : Nat := c.pick 2 3
/-- Communication engines (R3). -/
def Cfg.engines (c : Cfg) : Nat := c.pick 4 12
/-- Buffer banks of 256 KiB (R3). -/
def Cfg.banks (c : Cfg) : Nat := c.pick 8 24
/-- Granules of 4 KiB, 64 in each bank (R3, 13_buffer_memory_and_placement.md R341). -/
def Cfg.granules (c : Cfg) : Nat := 64 * c.banks
/-- Parse nodes per pipeline (R3). -/
def Cfg.nodes (c : Cfg) : Nat := c.pick 64 128
/-- Ternary rule entries (R3). -/
def Cfg.tcam (c : Cfg) : Nat := c.pick 1024 4096
/-- log2 of the exact-match entries (R3). DESIGN CHOICE, notes/assumptions/62.md. -/
def Cfg.emLog2 (c : Cfg) : Nat := c.pick 14 16
/-- Queue pairs (R3). -/
def Cfg.queuePairs (c : Cfg) : Nat := c.pick 1024 4096
/-- DMA channels (R3). -/
def Cfg.dmaChannels (c : Cfg) : Nat := c.pick 16 32
/-- Check units (R3). -/
def Cfg.checkUnits (c : Cfg) : Nat := c.pick 2 4
/-- Interrupt sources (R3). -/
def Cfg.irqSources (c : Cfg) : Nat := c.pick 512 1024

/-- The half that holds field port `p` (R4). -/
def Cfg.halfOfPort (c : Cfg) (p : Nat) : Nat := c.pick 0 (p / 4)
/-- The half that holds trunk `t` (R4). -/
def Cfg.halfOfTrunk (c : Cfg) (t : Nat) : Nat := c.pick 0 t
/-- The cluster that holds engine `e` (R3, R4). -/
def Cfg.clusterOf (c : Cfg) (e : Nat) : Nat := e / c.clusterSize
/-- The half that holds cluster `k` (R4). -/
def Cfg.halfOfCluster (c : Cfg) (k : Nat) : Nat := c.pick 0 (k / 2)
/-- The half that holds engine `e` (R4). -/
def Cfg.halfOfEngine (c : Cfg) (e : Nat) : Nat := c.halfOfCluster (c.clusterOf e)
/-- The half that holds bank `b` (R4). -/
def Cfg.halfOfBank (c : Cfg) (b : Nat) : Nat := c.pick 0 (b / 12)

/-- The half of generator `n` (03_time_and_cycles.md R85). -/
def Cfg.halfOfGen (c : Cfg) (n : Nat) : Nat := c.pick 0 (n / 4)
/-- The half of trigger `n` (03_time_and_cycles.md R85). -/
def Cfg.halfOfTrig (c : Cfg) (n : Nat) : Nat := c.pick 0 (n / 16)
/-- The half of capture `n` (03_time_and_cycles.md R85). -/
def Cfg.halfOfCap (c : Cfg) (n : Nat) : Nat := c.pick 0 (n / 8)

/-- A port number of the forwarding masks: 0 to 7 field ports, 8 and 9 trunks. Whether the configuration has it. -/
def Cfg.hasPort (c : Cfg) (p : Nat) : Bool :=
  if p < 8 then decide (p < c.fieldPorts) else decide (p - 8 < c.trunks)

/-- The half that holds port `p` of the forwarding masks. -/
def Cfg.halfOfAnyPort (c : Cfg) (p : Nat) : Nat :=
  if p < 8 then c.halfOfPort p else c.halfOfTrunk (p - 8)

/-- Power domains the configuration has (16_power_and_wake.md R380). -/
def Cfg.hasDomain (c : Cfg) (d : Nat) : Bool :=
  c.pick
    (decide (d ≤ 2) || decide (4 ≤ d ∧ d ≤ 5) || decide (8 ≤ d ∧ d ≤ 11) || decide (d = 16) ||
      decide (18 ≤ d ∧ d ≤ 25) || decide (d = 42))
    (decide (d ≤ 42))

/-- A 64-bit value the spec leaves open: the n-th one of a run. It stands for a random draw (R287, R350) and for
any other value the spec does not state; nothing constrains it. DESIGN CHOICE, notes/assumptions/5.md. -/
opaque Config.freeValue : Nat → BitVec 64

/-- The 8 stored bytes of a buffer word, as the debug window shows them, for a key draw, a word address and the word's
plain value (13_buffer_memory_and_placement.md R350, R351): the cipher is not given. DESIGN CHOICE, notes/assumptions/5.md. -/
opaque Config.cipher : Nat → Nat → BitVec 64 → BitVec 64

/-- The place of the exact-match entry of a key in the granules reserved for a half's table, which the spec does not give
(08_rules_courses_forwarding.md R223). DESIGN CHOICE, notes/assumptions/30.md. -/
opaque Config.emSlot : Nat → List Byte → Nat

/-- The serial number written at manufacture (17_parameter_dictionary.md R401, R410). DESIGN CHOICE, notes/assumptions/5.md. -/
opaque Config.serial : BitVec 64

end Sys2Proof
end

