-- ==== Sys2Proof/Machine/RegTable.lean ====
section
/-!
DEFINITION. The register tables of spec/ as data: for each register its offset, its index ranges, its reset domain,
and for each field its bits, its access code (00_scope.md R7) and its reset value. Reserved bits (RsvdZ) have no row.
-/
namespace Sys2Proof.Machine

/-- The access codes of R7. -/
inductive Access where
  | rw | ro | wo | w1c | w1s | rwc | rwl
deriving DecidableEq, Repr

/-- The reset domains of R8. -/
inductive Dom where
  | block | half | safe | aon
deriving DecidableEq, Repr

/-- What an index of a register counts; it says which indices a configuration has (R3, R5). `lim` gives the numbers of
Gweip-S and Gweip-X. -/
inductive IdxKind where
  | port | anyPort | trunk | half | engine | domain | master
  | lim (s x : Nat)
deriving DecidableEq, Repr

/-- An index of a register: its stride, its first value and what it counts. -/
structure Dim where
  stride : Nat
  first : Nat
  kind : IdxKind
deriving DecidableEq, Repr

/-- A field of a register: lowest bit within the whole register, width, access code, reset values of S and X. -/
structure FieldRow where
  lo : Nat
  wd : Nat
  acc : Access
  rstS : Nat
  rstX : Nat
deriving DecidableEq, Repr

/-- A register: base offset, indices, reset domain, number of 32-bit words, byte-writable (R48), fields. -/
structure RegRow where
  base : Nat
  dims : List Dim
  dom : Dom
  words : Nat
  byteWr : Bool
  fields : List FieldRow
deriving DecidableEq, Repr

/-- Registers of 01_block_and_halves.md. -/
def regRows01a : List RegRow := [
  -- BLK_ID
  ⟨0x000000, [], .block, 1, false,
    [⟨16, 16, .ro, 0x6a17, 0x6a17⟩,
     ⟨8, 8, .ro, 3, 3⟩,
     ⟨4, 4, .ro, 1, 1⟩,
     ⟨0, 4, .ro, 1, 2⟩]⟩,
  -- BLK_CAP
  ⟨0x000008, [], .block, 2, false,
    [⟨56, 4, .ro, 2, 4⟩,
     ⟨48, 8, .ro, 0x10, 0x20⟩,
     ⟨44, 4, .ro, 0xa, 0xc⟩,
     ⟨40, 4, .ro, 0xe, 0⟩,
     ⟨36, 4, .ro, 0xa, 0xc⟩,
     ⟨32, 4, .ro, 6, 7⟩,
     ⟨24, 6, .ro, 8, 0x18⟩,
     ⟨20, 4, .ro, 4, 0xc⟩,
     ⟨16, 4, .ro, 2, 4⟩,
     ⟨12, 4, .ro, 4, 8⟩,
     ⟨10, 2, .ro, 1, 2⟩,
     ⟨9, 1, .ro, 0, 1⟩,
     ⟨8, 1, .ro, 0, 1⟩,
     ⟨7, 1, .ro, 0, 1⟩,
     ⟨6, 1, .ro, 0, 1⟩,
     ⟨2, 4, .ro, 9, 0xa⟩]⟩,
  -- BLK_MODE
  ⟨0x000010, [], .block, 1, false,
    [⟨27, 1, .ro, 1, 1⟩,
     ⟨26, 1, .ro, 0, 0⟩,
     ⟨25, 1, .w1c, 0, 0⟩,
     ⟨24, 1, .ro, 0, 0⟩,
     ⟨23, 1, .ro, 0, 0⟩,
     ⟨16, 4, .ro, 0, 0⟩,
     ⟨13, 1, .ro, 0, 0⟩,
     ⟨12, 1, .ro, 0, 0⟩,
     ⟨11, 1, .wo, 0, 0⟩,
     ⟨8, 3, .wo, 0, 0⟩,
     ⟨0, 3, .ro, 0, 0⟩]⟩,
  -- BLK_HALF
  ⟨0x000014, [], .block, 1, false,
    [⟨16, 16, .ro, 0, 0⟩,
     ⟨12, 3, .ro, 0, 0⟩,
     ⟨8, 3, .ro, 0, 0⟩,
     ⟨7, 1, .w1c, 0, 0⟩,
     ⟨6, 1, .ro, 1, 1⟩,
     ⟨5, 1, .rw, 0, 0⟩,
     ⟨4, 1, .ro, 0, 0⟩,
     ⟨3, 1, .ro, 1, 1⟩,
     ⟨0, 1, .ro, 0, 0⟩]⟩,
  -- BLK_LEAD_LOG
  ⟨0x000018, [], .block, 1, false,
    [⟨16, 16, .ro, 0, 0⟩,
     ⟨15, 1, .ro, 0, 0⟩,
     ⟨12, 3, .ro, 0, 0⟩,
     ⟨0, 12, .ro, 0, 0⟩]⟩]

/-- Registers of 03_time_and_cycles.md. -/
def regRows03a : List RegRow := [
  -- TB_CTL
  ⟨0x0C0000, [], .half, 1, false,
    [⟨0, 1, .rw, 0, 0⟩]⟩,
  -- TB_STAT
  ⟨0x0C0004, [], .half, 1, false,
    [⟨8, 1, .w1c, 0, 0⟩,
     ⟨7, 1, .ro, 0, 0⟩,
     ⟨6, 1, .w1c, 0, 0⟩,
     ⟨5, 1, .w1c, 0, 0⟩,
     ⟨4, 1, .w1c, 0, 0⟩,
     ⟨3, 1, .ro, 0, 0⟩,
     ⟨2, 1, .ro, 0, 0⟩,
     ⟨1, 1, .ro, 0, 0⟩,
     ⟨0, 1, .ro, 0, 0⟩]⟩,
  -- TB_PPS
  ⟨0x0C0008, [], .half, 1, false,
    [⟨31, 1, .rw, 0, 0⟩,
     ⟨0, 20, .rw, 0x64, 0x64⟩]⟩,
  -- TB_SET
  ⟨0x0C0010, [], .half, 4, false,
    [⟨64, 48, .rwc, 0, 0⟩,
     ⟨32, 32, .rwc, 0, 0⟩,
     ⟨0, 16, .rwc, 0, 0⟩]⟩,
  -- TB_RATE
  ⟨0x0C0020, [], .half, 1, false,
    [⟨0, 32, .rw, 0, 0⟩]⟩,
  -- TB_STEP
  ⟨0x0C0028, [], .half, 2, false,
    [⟨0, 64, .wo, 0, 0⟩]⟩,
  -- TB_SNAP_CMD
  ⟨0x0C0030, [], .half, 1, false,
    [⟨0, 1, .wo, 0, 0⟩]⟩,
  -- TB_SNAP_NS
  ⟨0x0C0034, [], .half, 1, false,
    [⟨0, 32, .ro, 0, 0⟩]⟩,
  -- TB_SNAP_FRAC
  ⟨0x0C0038, [], .half, 1, false,
    [⟨0, 16, .ro, 0, 0⟩]⟩,
  -- TB_SNAP_SEC_LO
  ⟨0x0C003C, [], .half, 1, false,
    [⟨0, 32, .ro, 0, 0⟩]⟩,
  -- TB_SNAP_SEC_HI
  ⟨0x0C0040, [], .half, 1, false,
    [⟨0, 16, .ro, 0, 0⟩]⟩,
  -- TB_SNAP_NS_HELD
  ⟨0x0C0044, [], .half, 1, false,
    [⟨0, 32, .ro, 0, 0⟩]⟩]

/-- Registers of 03_time_and_cycles.md. -/
def regRows03b : List RegRow := [
  -- TB_LAT
  ⟨0x0C0100, [⟨0x8, 0, .anyPort⟩], .half, 2, false,
    [⟨32, 32, .rw, 0, 0⟩,
     ⟨0, 32, .rw, 0, 0⟩]⟩,
  -- CTU_GEN_CFG
  ⟨0x0C1000, [⟨0x40, 0, .lim 8 8⟩], .half, 1, false,
    [⟨16, 11, .rw, 0, 0⟩,
     ⟨12, 4, .rw, 3, 3⟩,
     ⟨3, 1, .rw, 0, 0⟩,
     ⟨2, 1, .rw, 0, 0⟩,
     ⟨1, 1, .rw, 0, 0⟩,
     ⟨0, 1, .rw, 0, 0⟩]⟩,
  -- CTU_GEN_PERIOD
  ⟨0x0C1004, [⟨0x40, 0, .lim 8 8⟩], .half, 1, false,
    [⟨0, 30, .rw, 0x2710, 0x2710⟩]⟩,
  -- CTU_GEN_PHASE
  ⟨0x0C1008, [⟨0x40, 0, .lim 8 8⟩], .half, 1, false,
    [⟨0, 30, .rw, 0, 0⟩]⟩,
  -- CTU_GEN_START_SEC
  ⟨0x0C100C, [⟨0x40, 0, .lim 8 8⟩], .half, 1, false,
    [⟨0, 32, .rw, 0, 0⟩]⟩,
  -- CTU_GEN_SYNC_OFS
  ⟨0x0C1010, [⟨0x40, 0, .lim 8 8⟩], .half, 1, false,
    [⟨0, 30, .rw, 0, 0⟩]⟩,
  -- CTU_GEN_STAT
  ⟨0x0C1014, [⟨0x40, 0, .lim 8 8⟩], .half, 1, false,
    [⟨3, 1, .ro, 0, 0⟩,
     ⟨2, 1, .w1c, 0, 0⟩,
     ⟨1, 1, .w1c, 0, 0⟩,
     ⟨0, 1, .w1c, 0, 0⟩]⟩,
  -- CTU_GEN_ACC
  ⟨0x0C1018, [⟨0x40, 0, .lim 8 8⟩], .half, 1, false,
    [⟨0, 32, .ro, 0, 0⟩]⟩,
  -- CTU_TRIG_CFG
  ⟨0x0C2000, [⟨0x10, 0, .lim 32 32⟩], .half, 1, false,
    [⟨4, 3, .rw, 0, 0⟩,
     ⟨2, 1, .rw, 0, 0⟩,
     ⟨1, 1, .rw, 0, 0⟩,
     ⟨0, 1, .rw, 0, 0⟩]⟩,
  -- CTU_TRIG_OFS
  ⟨0x0C2004, [⟨0x10, 0, .lim 32 32⟩], .half, 1, false,
    [⟨0, 30, .rw, 0, 0⟩]⟩,
  -- CTU_TRIG_WIDTH
  ⟨0x0C2008, [⟨0x10, 0, .lim 32 32⟩], .half, 1, false,
    [⟨0, 20, .rw, 0x64, 0x64⟩]⟩,
  -- CTU_TRIG_STAT
  ⟨0x0C200C, [⟨0x10, 0, .lim 32 32⟩], .half, 1, false,
    [⟨2, 1, .w1c, 0, 0⟩,
     ⟨1, 1, .w1c, 0, 0⟩,
     ⟨0, 1, .w1c, 0, 0⟩]⟩]

/-- Registers of 03_time_and_cycles.md. -/
def regRows03c : List RegRow := [
  -- CTU_CAP_CFG
  ⟨0x0C3000, [⟨0x20, 0, .lim 16 16⟩], .half, 1, false,
    [⟨0, 2, .rw, 0, 0⟩]⟩,
  -- CTU_CAP_TS
  ⟨0x0C3010, [⟨0x20, 0, .lim 16 16⟩], .half, 4, false,
    [⟨64, 48, .ro, 0, 0⟩,
     ⟨32, 32, .ro, 0, 0⟩,
     ⟨31, 1, .w1c, 0, 0⟩,
     ⟨30, 1, .w1c, 0, 0⟩,
     ⟨29, 1, .ro, 0, 0⟩,
     ⟨0, 16, .ro, 0, 0⟩]⟩]

/-- Registers of 04_field_ports.md. -/
def regRows04a : List RegRow := [
  -- MAC_CTL
  ⟨0x010000, [⟨0x1000, 0, .port⟩], .half, 1, false,
    [⟨15, 1, .rw, 0, 0⟩,
     ⟨14, 1, .rw, 0, 0⟩,
     ⟨13, 1, .rw, 0, 0⟩,
     ⟨12, 1, .rw, 1, 1⟩,
     ⟨11, 1, .rw, 0, 0⟩,
     ⟨8, 1, .rw, 1, 1⟩,
     ⟨4, 2, .rw, 2, 2⟩,
     ⟨1, 1, .rw, 0, 0⟩,
     ⟨0, 1, .rw, 0, 0⟩]⟩,
  -- MAC_STAT
  ⟨0x010004, [⟨0x1000, 0, .port⟩], .half, 1, false,
    [⟨7, 1, .w1c, 0, 0⟩,
     ⟨6, 1, .w1c, 0, 0⟩,
     ⟨4, 2, .ro, 0, 0⟩,
     ⟨3, 1, .ro, 0, 0⟩,
     ⟨2, 1, .ro, 0, 0⟩,
     ⟨1, 1, .ro, 0, 0⟩]⟩,
  -- MAC_FRAME
  ⟨0x010008, [⟨0x1000, 0, .port⟩], .half, 1, false,
    [⟨0, 14, .rw, 0x5f2, 0x5f2⟩]⟩,
  -- MAC_FILT
  ⟨0x01000C, [⟨0x1000, 0, .port⟩], .half, 1, false,
    [⟨3, 1, .rw, 0, 0⟩,
     ⟨2, 1, .rw, 1, 1⟩,
     ⟨1, 1, .rw, 0, 0⟩,
     ⟨0, 1, .rw, 1, 1⟩]⟩,
  -- MAC_VLAN_CTL
  ⟨0x010010, [⟨0x1000, 0, .port⟩], .half, 1, false,
    [⟨16, 16, .rw, 0x8100, 0x8100⟩,
     ⟨15, 1, .rw, 0, 0⟩,
     ⟨12, 3, .rw, 0, 0⟩,
     ⟨0, 12, .rw, 1, 1⟩]⟩,
  -- MAC_FC
  ⟨0x010014, [⟨0x1000, 0, .port⟩], .half, 1, false,
    [⟨31, 1, .rw, 0, 0⟩,
     ⟨30, 1, .rw, 0, 0⟩,
     ⟨16, 8, .rw, 0xff, 0xff⟩,
     ⟨0, 16, .rw, 0xffff, 0xffff⟩]⟩,
  -- MAC_FC_STAT
  ⟨0x010018, [⟨0x1000, 0, .port⟩], .half, 1, false,
    [⟨8, 1, .ro, 0, 0⟩,
     ⟨0, 8, .ro, 0, 0⟩]⟩,
  -- MAC_PREEMPT
  ⟨0x01001C, [⟨0x1000, 0, .port⟩], .half, 1, false,
    [⟨31, 1, .rw, 0, 0⟩,
     ⟨30, 1, .rw, 0, 0⟩,
     ⟨28, 2, .rw, 0, 0⟩,
     ⟨20, 8, .rw, 0xa, 0xa⟩,
     ⟨0, 8, .rw, 0xff, 0xff⟩]⟩,
  -- MAC_GCL_CTL
  ⟨0x010020, [⟨0x1000, 0, .port⟩], .half, 1, false,
    [⟨31, 1, .rw, 0, 0⟩,
     ⟨30, 1, .rw, 0, 0⟩,
     ⟨16, 8, .rw, 0, 0⟩,
     ⟨0, 14, .rw, 0x5f2, 0x5f2⟩]⟩,
  -- MAC_GCL_STAT
  ⟨0x010024, [⟨0x1000, 0, .port⟩], .half, 1, false,
    [⟨15, 1, .w1c, 0, 0⟩,
     ⟨8, 5, .ro, 0, 0⟩,
     ⟨0, 3, .ro, 0, 0⟩]⟩,
  -- MAC_WAKE_CTL
  ⟨0x010028, [⟨0x1000, 0, .port⟩], .half, 1, false,
    [⟨8, 1, .rw, 0, 0⟩,
     ⟨0, 8, .rw, 0, 0⟩]⟩,
  -- MAC_WAKE_STAT
  ⟨0x01002C, [⟨0x1000, 0, .port⟩], .half, 1, false,
    [⟨8, 1, .w1c, 0, 0⟩,
     ⟨0, 8, .w1c, 0, 0⟩]⟩]

/-- Registers of 04_field_ports.md. -/
def regRows04b : List RegRow := [
  -- MAC_EDIT_STAT
  ⟨0x010030, [⟨0x1000, 0, .port⟩], .half, 1, false,
    [⟨16, 6, .ro, 0, 0⟩,
     ⟨2, 1, .w1c, 0, 0⟩,
     ⟨1, 1, .w1c, 0, 0⟩,
     ⟨0, 1, .w1c, 0, 0⟩]⟩,
  -- MAC_FC_THR
  ⟨0x010034, [⟨0x1000, 0, .port⟩], .half, 1, false,
    [⟨16, 16, .rw, 0x40, 0x40⟩,
     ⟨0, 16, .rw, 0x20, 0x20⟩]⟩,
  -- MAC_CNT_CLR
  ⟨0x010038, [⟨0x1000, 0, .port⟩], .half, 1, false,
    [⟨0, 1, .wo, 0, 0⟩]⟩,
  -- MAC_ADDR
  ⟨0x010100, [⟨0x1000, 0, .port⟩, ⟨0x8, 0, .lim 32 32⟩], .half, 2, false,
    [⟨63, 1, .rw, 0, 0⟩,
     ⟨0, 48, .rw, 0, 0⟩]⟩,
  -- MAC_HASH
  ⟨0x010200, [⟨0x1000, 0, .port⟩, ⟨0x4, 0, .lim 16 16⟩], .half, 1, false,
    [⟨0, 32, .rw, 0, 0⟩]⟩,
  -- MAC_CNT
  ⟨0x010300, [⟨0x1000, 0, .port⟩, ⟨0x8, 0, .lim 32 32⟩], .half, 2, false,
    [⟨0, 64, .ro, 0, 0⟩]⟩,
  -- MAC_VLAN_MAP
  ⟨0x010400, [⟨0x1000, 0, .port⟩, ⟨0x4, 0, .lim 128 128⟩], .half, 1, false,
    [⟨0, 32, .rw, 0, 0⟩]⟩,
  -- MAC_WAKE_MASK
  ⟨0x010600, [⟨0x1000, 0, .port⟩, ⟨0x20, 0, .lim 8 8⟩], .half, 4, false,
    [⟨0, 128, .rw, 0, 0⟩]⟩,
  -- MAC_WAKE_CRC
  ⟨0x010610, [⟨0x1000, 0, .port⟩, ⟨0x20, 0, .lim 8 8⟩], .half, 1, false,
    [⟨0, 16, .rw, 0, 0⟩]⟩,
  -- MAC_GCL
  ⟨0x010800, [⟨0x1000, 0, .port⟩, ⟨0x100, 0, .lim 8 8⟩, ⟨0x8, 0, .lim 32 32⟩], .half, 2, false,
    [⟨43, 1, .rw, 0, 0⟩,
     ⟨40, 3, .rw, 0, 0⟩,
     ⟨32, 8, .rw, 0xff, 0xff⟩,
     ⟨0, 14, .rw, 0, 0⟩]⟩]

/-- Registers of 05_trunk_cells.md. -/
def regRows05a : List RegRow := [
  -- TRK_CFG
  ⟨0x020000, [⟨0x4000, 0, .trunk⟩], .half, 1, false,
    [⟨7, 1, .rw, 0, 0⟩,
     ⟨6, 1, .rw, 1, 1⟩,
     ⟨2, 2, .rwc, 0, 0⟩,
     ⟨0, 1, .rw, 0, 0⟩]⟩,
  -- TRK_STAT
  ⟨0x020004, [⟨0x4000, 0, .trunk⟩], .half, 1, false,
    [⟨12, 4, .ro, 0, 0⟩,
     ⟨8, 1, .ro, 0, 0⟩,
     ⟨4, 2, .ro, 0, 0⟩,
     ⟨3, 1, .w1c, 0, 0⟩,
     ⟨2, 1, .w1c, 0, 0⟩,
     ⟨1, 1, .w1c, 0, 0⟩,
     ⟨0, 1, .w1c, 0, 0⟩]⟩,
  -- TRK_DELIN_CFG
  ⟨0x020008, [⟨0x4000, 0, .trunk⟩], .half, 1, false,
    [⟨8, 2, .rw, 1, 1⟩,
     ⟨0, 4, .rw, 7, 7⟩]⟩,
  -- TRK_SF_STAT
  ⟨0x02000C, [⟨0x4000, 0, .trunk⟩], .half, 1, false,
    [⟨31, 1, .ro, 0, 0⟩,
     ⟨16, 3, .ro, 0, 0⟩,
     ⟨0, 9, .ro, 0, 0⟩]⟩,
  -- TRK_CNT_CLR
  ⟨0x020010, [⟨0x4000, 0, .trunk⟩], .half, 1, false,
    [⟨0, 1, .wo, 0, 0⟩]⟩,
  -- TRK_CNT
  ⟨0x020100, [⟨0x4000, 0, .trunk⟩, ⟨0x8, 0, .lim 30 30⟩], .half, 2, false,
    [⟨0, 64, .ro, 0, 0⟩]⟩,
  -- TRK_CHMAP
  ⟨0x021000, [⟨0x4000, 0, .trunk⟩, ⟨0x4, 1, .lim 1022 1022⟩], .half, 1, false,
    [⟨31, 1, .rw, 0, 0⟩,
     ⟨0, 16, .rw, 0, 0⟩]⟩]

/-- Registers of 06_trunk_overhead_gears_protection.md. -/
def regRows06a : List RegRow := [
  -- TRK_NODE
  ⟨0x023000, [], .half, 1, false,
    [⟨9, 1, .rwc, 0, 0⟩,
     ⟨8, 1, .rwc, 0, 0⟩,
     ⟨0, 8, .rwc, 0, 0⟩]⟩,
  -- TRK_CS_STAT
  ⟨0x023004, [], .half, 1, false,
    [⟨30, 1, .w1c, 0, 0⟩,
     ⟨29, 1, .w1c, 0, 0⟩,
     ⟨28, 1, .w1c, 0, 0⟩,
     ⟨26, 1, .ro, 0, 0⟩,
     ⟨25, 1, .ro, 0, 0⟩,
     ⟨24, 1, .ro, 0, 0⟩,
     ⟨16, 8, .ro, 0xff, 0xff⟩,
     ⟨8, 8, .ro, 0, 0⟩,
     ⟨0, 3, .ro, 0, 0⟩]⟩,
  -- TRK_CS_CFG
  ⟨0x023008, [], .half, 1, false,
    [⟨0, 10, .rw, 0x3e8, 0x3e8⟩]⟩,
  -- TRK_SERVO
  ⟨0x02300C, [], .half, 1, false,
    [⟨16, 4, .rw, 3, 3⟩,
     ⟨8, 4, .rw, 8, 8⟩,
     ⟨0, 4, .rw, 4, 4⟩]⟩,
  -- TRK_OFFSET
  ⟨0x023010, [], .half, 1, false,
    [⟨0, 32, .ro, 0, 0⟩]⟩,
  -- TRK_LINK_DLY
  ⟨0x023018, [⟨0x4000, 0, .trunk⟩], .half, 1, false,
    [⟨0, 32, .ro, 0xffffffff, 0xffffffff⟩]⟩,
  -- TRK_OH_ERR
  ⟨0x02301C, [⟨0x4000, 0, .trunk⟩], .half, 1, false,
    [⟨24, 8, .ro, 0, 0⟩,
     ⟨16, 8, .ro, 0, 0⟩,
     ⟨0, 16, .ro, 0, 0⟩]⟩,
  -- TRK_GEAR
  ⟨0x023020, [⟨0x4000, 0, .trunk⟩], .half, 1, false,
    [⟨31, 1, .w1c, 0, 0⟩,
     ⟨20, 9, .ro, 0, 0⟩,
     ⟨16, 2, .rw, 1, 1⟩,
     ⟨8, 8, .rw, 0, 0⟩]⟩,
  -- TRK_SLOT_ADDR
  ⟨0x023024, [⟨0x4000, 0, .trunk⟩], .half, 1, false,
    [⟨31, 1, .rw, 1, 1⟩,
     ⟨16, 3, .rw, 0, 0⟩,
     ⟨0, 9, .rw, 0, 0⟩]⟩,
  -- TRK_SLOT_DATA
  ⟨0x023028, [⟨0x4000, 0, .trunk⟩], .half, 1, false,
    [⟨0, 10, .rw, 0, 0⟩]⟩,
  -- TRK_SHIFT
  ⟨0x023030, [], .half, 1, false,
    [⟨31, 1, .wo, 0, 0⟩,
     ⟨24, 3, .rw, 0, 0⟩,
     ⟨16, 8, .rw, 8, 8⟩,
     ⟨12, 2, .ro, 0, 0⟩,
     ⟨8, 3, .ro, 0, 0⟩,
     ⟨7, 1, .w1c, 0, 0⟩,
     ⟨6, 1, .w1c, 0, 0⟩]⟩,
  -- TRK_SHIFT_SFN
  ⟨0x023034, [], .half, 1, false,
    [⟨0, 32, .ro, 0, 0⟩]⟩]

/-- Registers of 06_trunk_overhead_gears_protection.md. -/
def regRows06b : List RegRow := [
  -- TRK_SFN
  ⟨0x023038, [], .half, 1, false,
    [⟨0, 32, .ro, 0, 0⟩]⟩,
  -- TRK_GEAR_CUR
  ⟨0x02303C, [], .half, 1, false,
    [⟨0, 3, .rwc, 0, 0⟩]⟩,
  -- TRK_MEMBER
  ⟨0x023040, [⟨0x4, 0, .lim 8 8⟩], .half, 1, false,
    [⟨0, 32, .rw, 0, 0⟩]⟩,
  -- TRK_CONFIRMED
  ⟨0x023060, [⟨0x4, 0, .lim 8 8⟩], .half, 1, false,
    [⟨0, 32, .ro, 0, 0⟩]⟩,
  -- TRK_PROT_CFG
  ⟨0x023100, [⟨0x4000, 0, .trunk⟩], .half, 1, false,
    [⟨16, 16, .rw, 0x64, 0x64⟩,
     ⟨4, 10, .rw, 0, 0⟩,
     ⟨0, 3, .rw, 3, 3⟩]⟩,
  -- TRK_PROT_CMD
  ⟨0x023104, [⟨0x4000, 0, .trunk⟩], .half, 1, false,
    [⟨0, 3, .wo, 0, 0⟩]⟩,
  -- TRK_PROT_STAT
  ⟨0x023108, [⟨0x4000, 0, .trunk⟩], .half, 1, false,
    [⟨28, 4, .ro, 0, 0⟩,
     ⟨20, 8, .ro, 0, 0⟩,
     ⟨16, 4, .ro, 0, 0⟩,
     ⟨12, 4, .ro, 0, 0⟩,
     ⟨4, 8, .ro, 0, 0⟩,
     ⟨3, 1, .ro, 0, 0⟩,
     ⟨2, 1, .w1c, 0, 0⟩,
     ⟨1, 1, .ro, 0, 0⟩,
     ⟨0, 1, .ro, 0, 0⟩]⟩,
  -- TRK_BLOCK_DROP
  ⟨0x02310C, [⟨0x4000, 0, .trunk⟩], .half, 1, false,
    [⟨0, 32, .ro, 0, 0⟩]⟩,
  -- TRK_RING_CFG
  ⟨0x023110, [], .half, 1, false,
    [⟨16, 12, .rwc, 0, 0x32⟩,
     ⟨4, 1, .rwc, 0, 0⟩,
     ⟨0, 2, .rwc, 0, 0⟩]⟩,
  -- TRK_RING_STAT
  ⟨0x023114, [], .half, 1, false,
    [⟨16, 12, .ro, 0, 0⟩,
     ⟨8, 8, .ro, 0, 0⟩,
     ⟨2, 1, .ro, 0, 0⟩,
     ⟨0, 2, .ro, 0, 0⟩]⟩]

/-- Registers of 07_parse_graph.md. -/
def regRows07a : List RegRow := [
  -- PRS_CTL
  ⟨0x030000, [], .half, 1, false,
    [⟨0, 1, .rw, 0, 0⟩]⟩,
  -- PRS_STAT
  ⟨0x030004, [⟨0x8000, 0, .half⟩], .half, 1, false,
    [⟨8, 1, .ro, 0, 0⟩,
     ⟨0, 5, .ro, 0, 0⟩]⟩,
  -- PRS_LOAD_ADDR
  ⟨0x030008, [], .half, 2, false,
    [⟨5, 39, .rw, 0, 0⟩]⟩,
  -- PRS_LOAD_CTL
  ⟨0x030010, [], .half, 1, false,
    [⟨31, 1, .wo, 0, 0⟩,
     ⟨16, 1, .rw, 0, 0⟩,
     ⟨8, 4, .ro, 0, 0⟩,
     ⟨0, 1, .ro, 0, 0⟩]⟩,
  -- PRS_SLOT_STAT
  ⟨0x030018, [⟨0x8000, 0, .half⟩, ⟨0x4, 0, .lim 2 2⟩], .half, 1, false,
    [⟨31, 1, .ro, 0, 0⟩,
     ⟨30, 1, .ro, 0, 0⟩,
     ⟨0, 8, .ro, 0, 0⟩]⟩,
  -- PRS_SLOT_ID
  ⟨0x030020, [⟨0x8000, 0, .half⟩, ⟨0x4, 0, .lim 2 2⟩], .half, 1, false,
    [⟨0, 32, .ro, 0, 0⟩]⟩,
  -- PRS_NODE_ADDR
  ⟨0x030030, [⟨0x8000, 0, .half⟩], .half, 1, false,
    [⟨31, 1, .rw, 1, 1⟩,
     ⟨16, 1, .rw, 0, 0⟩,
     ⟨8, 7, .rw, 0, 0⟩,
     ⟨0, 6, .rw, 0, 0⟩]⟩,
  -- PRS_NODE_DATA
  ⟨0x030034, [⟨0x8000, 0, .half⟩], .half, 1, false,
    [⟨0, 32, .ro, 0, 0⟩]⟩,
  -- PRS_TRACE_CTL
  ⟨0x030040, [⟨0x8000, 0, .half⟩], .half, 1, false,
    [⟨31, 1, .w1s, 0, 0⟩,
     ⟨0, 4, .rw, 0, 0⟩]⟩,
  -- PRS_TRACE_RES
  ⟨0x030044, [⟨0x8000, 0, .half⟩], .half, 1, false,
    [⟨31, 1, .w1c, 0, 0⟩,
     ⟨24, 5, .ro, 0, 0⟩,
     ⟨16, 8, .ro, 0, 0⟩,
     ⟨8, 8, .ro, 0, 0⟩,
     ⟨0, 8, .ro, 0, 0⟩]⟩,
  -- PRS_TRACE
  ⟨0x030048, [⟨0x8000, 0, .half⟩, ⟨0x4, 0, .lim 6 6⟩], .half, 1, false,
    [⟨0, 32, .ro, 0xffffffff, 0xffffffff⟩]⟩,
  -- PRS_CNT_CLR
  ⟨0x030080, [⟨0x8000, 0, .half⟩], .half, 1, false,
    [⟨0, 1, .wo, 0, 0⟩]⟩]

/-- Registers of 07_parse_graph.md. -/
def regRows07b : List RegRow := [
  -- PRS_CNT
  ⟨0x030100, [⟨0x8000, 0, .half⟩, ⟨0x8, 0, .lim 7 7⟩], .half, 2, false,
    [⟨0, 64, .ro, 0, 0⟩]⟩]

/-- Registers of 08_rules_courses_forwarding.md. -/
def regRows08a : List RegRow := [
  -- CLS_CTL
  ⟨0x040000, [], .block, 1, false,
    [⟨31, 1, .rw, 1, 1⟩,
     ⟨30, 1, .rw, 0, 0⟩,
     ⟨0, 12, .rw, 0, 0⟩]⟩,
  -- CLS_COMMIT
  ⟨0x040004, [], .block, 1, false,
    [⟨31, 1, .wo, 0, 0⟩,
     ⟨16, 1, .ro, 0, 0⟩,
     ⟨15, 1, .w1c, 0, 0⟩,
     ⟨8, 4, .ro, 0, 0⟩,
     ⟨4, 1, .ro, 0, 0⟩,
     ⟨3, 1, .ro, 0, 0⟩]⟩,
  -- CLS_COURSE_STAT
  ⟨0x040008, [], .block, 1, false,
    [⟨16, 16, .ro, 0, 0⟩,
     ⟨15, 1, .ro, 0, 0⟩,
     ⟨8, 3, .ro, 0, 0⟩,
     ⟨0, 4, .ro, 0xf, 0xf⟩]⟩,
  -- CLS_STAGE_CTL
  ⟨0x04000C, [], .block, 1, false,
    [⟨0, 2, .wo, 0, 0⟩]⟩,
  -- CLS_STAGE_LAYOUT
  ⟨0x040010, [], .block, 1, false,
    [⟨0, 32, .rw, 0, 0⟩]⟩,
  -- CLS_STG_FLOW
  ⟨0x040014, [], .block, 1, false,
    [⟨8, 5, .rw, 0x14, 0x14⟩,
     ⟨0, 6, .rw, 3, 3⟩]⟩,
  -- CLS_STG_DEF_ACT
  ⟨0x040018, [], .block, 2, false,
    [⟨0, 64, .rw, 0, 0⟩]⟩,
  -- CLS_STG_HASH
  ⟨0x040020, [], .block, 2, false,
    [⟨48, 6, .rw, 0, 0⟩,
     ⟨40, 6, .rw, 0, 0⟩,
     ⟨32, 5, .rw, 0, 0⟩,
     ⟨24, 6, .rw, 0, 0⟩,
     ⟨16, 6, .rw, 0, 0⟩,
     ⟨15, 1, .rw, 0, 0⟩,
     ⟨8, 6, .rw, 0, 0⟩,
     ⟨0, 3, .rw, 0, 0⟩]⟩,
  -- CLS_TCAM_IDX
  ⟨0x040028, [], .block, 1, false,
    [⟨0, 12, .rw, 0, 0⟩]⟩,
  -- CLS_TCAM_CMD
  ⟨0x04002C, [], .block, 1, false,
    [⟨17, 1, .ro, 0, 0⟩,
     ⟨16, 1, .ro, 0, 0⟩,
     ⟨8, 4, .ro, 0, 0⟩,
     ⟨0, 3, .wo, 0, 0⟩]⟩,
  -- CLS_TCAM_ACT
  ⟨0x040030, [], .block, 2, false,
    [⟨0, 64, .rw, 0, 0⟩]⟩,
  -- CLS_TCAM_VAL
  ⟨0x040040, [⟨0x4, 0, .lim 16 16⟩], .block, 1, false,
    [⟨0, 32, .rw, 0, 0⟩]⟩]

/-- Registers of 08_rules_courses_forwarding.md. -/
def regRows08b : List RegRow := [
  -- CLS_TCAM_MASK
  ⟨0x040080, [⟨0x4, 0, .lim 16 16⟩], .block, 1, false,
    [⟨0, 32, .rw, 0, 0⟩]⟩,
  -- CLS_EM_KEY
  ⟨0x040100, [⟨0x4, 0, .lim 5 5⟩], .block, 1, false,
    [⟨0, 32, .rw, 0, 0⟩]⟩,
  -- CLS_EM_ACT
  ⟨0x040118, [], .block, 2, false,
    [⟨0, 64, .rw, 0, 0⟩]⟩,
  -- CLS_EM_CMD
  ⟨0x040120, [], .block, 1, false,
    [⟨31, 1, .ro, 0, 0⟩,
     ⟨8, 4, .ro, 0, 0⟩,
     ⟨4, 1, .rw, 0, 0⟩,
     ⟨0, 3, .wo, 0, 0⟩]⟩,
  -- CLS_EM_CFG
  ⟨0x040124, [], .block, 1, false,
    [⟨0, 5, .rwc, 0, 0⟩]⟩,
  -- CLS_AGE
  ⟨0x040128, [], .block, 1, false,
    [⟨31, 1, .rw, 1, 1⟩,
     ⟨0, 12, .rw, 0x12c, 0x12c⟩]⟩,
  -- CLS_FLUSH
  ⟨0x04012C, [], .block, 1, false,
    [⟨31, 1, .wo, 0, 0⟩,
     ⟨30, 1, .rw, 0, 0⟩,
     ⟨29, 1, .ro, 0, 0⟩,
     ⟨16, 12, .ro, 0, 0⟩,
     ⟨0, 12, .ro, 0, 0⟩]⟩,
  -- CLS_SR
  ⟨0x040200, [⟨0x8, 0, .lim 64 64⟩], .block, 2, false,
    [⟨63, 1, .rw, 0, 0⟩,
     ⟨48, 5, .rw, 0xf, 0xf⟩,
     ⟨32, 16, .rw, 0x64, 0x64⟩,
     ⟨0, 16, .rw, 0, 0⟩]⟩,
  -- CLS_SPREAD_TGT
  ⟨0x040400, [⟨0x4, 0, .lim 64 64⟩], .block, 1, false,
    [⟨31, 1, .rw, 0, 0⟩,
     ⟨30, 1, .rw, 0, 0⟩,
     ⟨0, 12, .rw, 0, 0⟩]⟩,
  -- CLS_IND
  ⟨0x040500, [⟨0x4, 0, .lim 128 128⟩], .block, 1, true,
    [⟨24, 6, .rw, 0, 0⟩,
     ⟨16, 6, .rw, 0, 0⟩,
     ⟨8, 6, .rw, 0, 0⟩,
     ⟨0, 6, .rw, 0, 0⟩]⟩,
  -- CLS_EGR_LIM
  ⟨0x040700, [⟨0x4, 0, .anyPort⟩], .block, 1, false,
    [⟨0, 16, .rw, 0x100, 0x100⟩]⟩,
  -- CLS_CNT
  ⟨0x040800, [⟨0x100, 0, .half⟩, ⟨0x8, 0, .lim 17 17⟩], .half, 2, false,
    [⟨0, 64, .ro, 0, 0⟩]⟩]

/-- Registers of 08_rules_courses_forwarding.md. -/
def regRows08c : List RegRow := [
  -- CLS_CNT_CLR
  ⟨0x040B00, [⟨0x4, 0, .half⟩], .half, 1, false,
    [⟨0, 1, .wo, 0, 0⟩]⟩,
  -- CLS_MC_PARTIAL
  ⟨0x040A00, [⟨0x8, 0, .anyPort⟩], .block, 2, false,
    [⟨0, 64, .ro, 0, 0⟩]⟩,
  -- CLS_UC_DROP
  ⟨0x040A80, [⟨0x8, 0, .anyPort⟩], .block, 2, false,
    [⟨0, 64, .ro, 0, 0⟩]⟩]

/-- Registers of 09_engine_threads.md. -/
def regRows09a : List RegRow := [
  -- CE_CTL
  ⟨0x080000, [⟨0x4000, 0, .engine⟩], .half, 1, false,
    [⟨31, 1, .w1c, 0, 0⟩,
     ⟨16, 3, .rw, 0, 0⟩,
     ⟨2, 1, .rw, 0, 0⟩,
     ⟨0, 1, .rw, 0, 0⟩]⟩,
  -- CE_STAT
  ⟨0x080004, [⟨0x4000, 0, .engine⟩], .half, 1, false,
    [⟨24, 8, .ro, 0, 0⟩,
     ⟨16, 8, .ro, 0, 0⟩,
     ⟨8, 8, .ro, 0, 0⟩,
     ⟨0, 8, .ro, 0, 0⟩]⟩,
  -- CE_IMG_ID
  ⟨0x080008, [⟨0x4000, 0, .engine⟩], .half, 1, false,
    [⟨0, 32, .rw, 0, 0⟩]⟩,
  -- CE_CNT_CLR
  ⟨0x08000C, [⟨0x4000, 0, .engine⟩], .half, 1, false,
    [⟨0, 1, .wo, 0, 0⟩]⟩,
  -- CE_CNT
  ⟨0x080100, [⟨0x4000, 0, .engine⟩, ⟨0x8, 0, .lim 8 8⟩], .half, 2, false,
    [⟨0, 64, .ro, 0, 0⟩]⟩,
  -- CE_THR_CTL
  ⟨0x080400, [⟨0x4000, 0, .engine⟩, ⟨0x40, 0, .lim 8 8⟩], .half, 1, false,
    [⟨1, 1, .wo, 0, 0⟩,
     ⟨0, 1, .wo, 0, 0⟩]⟩,
  -- CE_THR_STAT
  ⟨0x080404, [⟨0x4000, 0, .engine⟩, ⟨0x40, 0, .lim 8 8⟩], .half, 1, false,
    [⟨28, 4, .ro, 0, 0⟩,
     ⟨25, 1, .w1c, 0, 0⟩,
     ⟨24, 1, .w1c, 0, 0⟩,
     ⟨16, 5, .ro, 0, 0⟩,
     ⟨15, 1, .ro, 0, 0⟩,
     ⟨0, 3, .ro, 0, 0⟩]⟩,
  -- CE_THR_PC
  ⟨0x080408, [⟨0x4000, 0, .engine⟩, ⟨0x40, 0, .lim 8 8⟩], .half, 1, false,
    [⟨2, 13, .rw, 0, 0⟩]⟩,
  -- CE_THR_SLICE
  ⟨0x08040C, [⟨0x4000, 0, .engine⟩, ⟨0x40, 0, .lim 8 8⟩], .half, 1, false,
    [⟨8, 8, .rw, 0, 0⟩,
     ⟨0, 8, .rw, 0x1f, 0x1f⟩]⟩,
  -- CE_THR_FPC
  ⟨0x080410, [⟨0x4000, 0, .engine⟩, ⟨0x40, 0, .lim 8 8⟩], .half, 1, false,
    [⟨2, 13, .ro, 0, 0⟩]⟩,
  -- CE_THR_EVT
  ⟨0x080414, [⟨0x4000, 0, .engine⟩, ⟨0x40, 0, .lim 8 8⟩], .half, 1, false,
    [⟨15, 1, .w1s, 0, 0⟩,
     ⟨0, 15, .ro, 0, 0⟩]⟩,
  -- CE_THR_TIMER
  ⟨0x080418, [⟨0x4000, 0, .engine⟩, ⟨0x40, 0, .lim 8 8⟩], .half, 1, false,
    [⟨0, 32, .ro, 0, 0⟩]⟩]

/-- Registers of 09_engine_threads.md. -/
def regRows09b : List RegRow := [
  -- CE_THR_G
  ⟨0x080800, [⟨0x4000, 0, .engine⟩, ⟨0x40, 0, .lim 8 8⟩, ⟨0x4, 0, .lim 16 16⟩], .half, 1, false,
    [⟨0, 32, .rw, 0, 0⟩]⟩]

/-- Registers of 11_functions_and_queues.md. -/
def regRows11a : List RegRow := [
  -- Q_STAT
  ⟨0x0D0000, [], .block, 1, false,
    [⟨31, 1, .ro, 0, 0⟩,
     ⟨30, 1, .ro, 0, 0⟩,
     ⟨16, 8, .ro, 0, 0⟩]⟩,
  -- Q_ADMIN0_CFG
  ⟨0x0D0004, [], .block, 1, false,
    [⟨31, 1, .rw, 0, 0⟩,
     ⟨8, 4, .rw, 4, 4⟩,
     ⟨0, 4, .rw, 4, 4⟩]⟩,
  -- Q_ADMIN0_SQ
  ⟨0x0D0008, [], .block, 2, false,
    [⟨8, 36, .rw, 0, 0⟩]⟩,
  -- Q_ADMIN0_CQ
  ⟨0x0D0010, [], .block, 2, false,
    [⟨8, 36, .rw, 0, 0⟩]⟩,
  -- Q_SVC_MAP
  ⟨0x0D0020, [⟨0x4, 0, .lim 3 3⟩], .block, 1, false,
    [⟨0, 32, .rw, 0, 0⟩]⟩,
  -- Q_FN_SEL
  ⟨0x0D0040, [], .block, 1, false,
    [⟨0, 8, .rw, 0, 0⟩]⟩,
  -- Q_FN_INFO
  ⟨0x0D0044, [], .block, 1, false,
    [⟨30, 2, .ro, 0, 0⟩,
     ⟨20, 10, .ro, 0, 0⟩,
     ⟨16, 4, .ro, 0, 0⟩,
     ⟨8, 8, .ro, 0, 0⟩,
     ⟨0, 8, .ro, 0, 0⟩]⟩,
  -- Q_FN_USE
  ⟨0x0D0048, [], .block, 1, false,
    [⟨16, 13, .ro, 0, 0⟩,
     ⟨0, 16, .ro, 0, 0⟩]⟩,
  -- Q_FN_QUOTA
  ⟨0x0D004C, [], .block, 1, false,
    [⟨16, 13, .ro, 0, 0⟩,
     ⟨0, 16, .ro, 0, 0⟩]⟩,
  -- Q_QP_SEL
  ⟨0x0D0060, [], .block, 1, false,
    [⟨0, 12, .rw, 0, 0⟩]⟩,
  -- Q_QP_INFO
  ⟨0x0D0064, [], .block, 1, false,
    [⟨24, 8, .ro, 0, 0⟩,
     ⟨16, 8, .ro, 0, 0⟩,
     ⟨15, 1, .ro, 0, 0⟩,
     ⟨14, 1, .ro, 0, 0⟩,
     ⟨12, 2, .ro, 0, 0⟩,
     ⟨11, 1, .ro, 0, 0⟩,
     ⟨10, 1, .w1c, 0, 0⟩,
     ⟨0, 7, .ro, 0x7f, 0x7f⟩]⟩,
  -- Q_QP_IDX
  ⟨0x0D0068, [], .block, 1, false,
    [⟨16, 16, .ro, 0, 0⟩,
     ⟨0, 16, .ro, 0, 0⟩]⟩]

/-- Registers of 11_functions_and_queues.md. -/
def regRows11b : List RegRow := [
  -- Q_QP_CQ
  ⟨0x0D006C, [], .block, 1, false,
    [⟨16, 16, .ro, 0, 0⟩,
     ⟨0, 16, .ro, 0, 0⟩]⟩,
  -- Q_ERR_LOG
  ⟨0x0D0080, [], .block, 1, false,
    [⟨28, 4, .ro, 0, 0⟩,
     ⟨16, 8, .ro, 0, 0⟩,
     ⟨0, 12, .ro, 0, 0⟩]⟩,
  -- Q_CNT_CLR
  ⟨0x0D00F8, [], .block, 1, false,
    [⟨0, 1, .wo, 0, 0⟩]⟩,
  -- Q_CNT
  ⟨0x0D0100, [⟨0x8, 0, .lim 8 8⟩], .block, 2, false,
    [⟨0, 64, .ro, 0, 0⟩]⟩]

/-- Registers of 12_dma_and_planes.md. -/
def regRows12a : List RegRow := [
  -- DMA_CTL
  ⟨0x0E0000, [], .block, 1, false,
    [⟨31, 1, .rw, 0, 0⟩]⟩,
  -- DMA_STAT
  ⟨0x0E0004, [], .block, 1, false,
    [⟨0, 32, .ro, 0, 0⟩]⟩,
  -- DMA_WIN
  ⟨0x0E0008, [], .block, 2, false,
    [⟨24, 20, .rw, 0, 0⟩,
     ⟨0, 1, .rw, 0, 0⟩]⟩,
  -- DMA_CQ_CFG
  ⟨0x0E0010, [], .block, 1, false,
    [⟨31, 1, .rw, 0, 0⟩,
     ⟨30, 1, .w1c, 0, 0⟩,
     ⟨0, 4, .rw, 4, 4⟩]⟩,
  -- DMA_CQ_IDX
  ⟨0x0E0014, [], .block, 1, false,
    [⟨16, 16, .ro, 0, 0⟩,
     ⟨0, 16, .rw, 0, 0⟩]⟩,
  -- DMA_CQ_BASE
  ⟨0x0E0018, [], .block, 2, false,
    [⟨8, 36, .rw, 0, 0⟩]⟩,
  -- DMA_CH_CTL
  ⟨0x0E1000, [⟨0x80, 0, .lim 16 32⟩], .block, 1, false,
    [⟨31, 1, .wo, 0, 0⟩,
     ⟨30, 1, .wo, 0, 0⟩,
     ⟨29, 1, .wo, 0, 0⟩,
     ⟨28, 1, .wo, 0, 0⟩,
     ⟨24, 2, .rw, 0, 0⟩,
     ⟨23, 1, .rw, 0, 0⟩,
     ⟨22, 1, .rw, 0, 0⟩,
     ⟨21, 1, .rw, 0, 0⟩,
     ⟨16, 2, .rw, 0, 0⟩,
     ⟨12, 2, .rw, 0, 0⟩]⟩,
  -- DMA_CH_STAT
  ⟨0x0E1004, [⟨0x80, 0, .lim 16 32⟩], .block, 1, false,
    [⟨28, 4, .ro, 0, 0⟩,
     ⟨24, 1, .w1c, 0, 0⟩,
     ⟨23, 1, .ro, 0, 0⟩,
     ⟨22, 1, .ro, 0, 0⟩,
     ⟨21, 1, .w1c, 0, 0⟩,
     ⟨20, 1, .w1c, 0, 0⟩,
     ⟨17, 1, .ro, 0, 0⟩,
     ⟨16, 1, .ro, 0, 0⟩,
     ⟨0, 3, .ro, 0, 0⟩]⟩,
  -- DMA_CH_SRC
  ⟨0x0E1008, [⟨0x80, 0, .lim 16 32⟩], .block, 2, false,
    [⟨0, 64, .rw, 0, 0⟩]⟩,
  -- DMA_CH_DST
  ⟨0x0E1010, [⟨0x80, 0, .lim 16 32⟩], .block, 2, false,
    [⟨0, 64, .rw, 0, 0⟩]⟩,
  -- DMA_CH_COUNT
  ⟨0x0E1018, [⟨0x80, 0, .lim 16 32⟩], .block, 1, false,
    [⟨0, 32, .rw, 0, 0⟩]⟩,
  -- DMA_CH_LIST
  ⟨0x0E1020, [⟨0x80, 0, .lim 16 32⟩], .block, 2, false,
    [⟨4, 40, .rw, 0, 0⟩]⟩]

/-- Registers of 12_dma_and_planes.md. -/
def regRows12b : List RegRow := [
  -- DMA_CH_ERRADDR
  ⟨0x0E1028, [⟨0x80, 0, .lim 16 32⟩], .block, 2, false,
    [⟨0, 44, .ro, 0, 0⟩]⟩,
  -- DMA_CH_SGEOM
  ⟨0x0E1030, [⟨0x80, 0, .lim 16 32⟩], .block, 2, false,
    [⟨32, 32, .rw, 0, 0⟩,
     ⟨16, 16, .rw, 1, 1⟩,
     ⟨0, 16, .rw, 0, 0⟩]⟩,
  -- DMA_CH_DGEOM
  ⟨0x0E1038, [⟨0x80, 0, .lim 16 32⟩], .block, 2, false,
    [⟨32, 32, .rw, 0, 0⟩,
     ⟨16, 16, .rw, 1, 1⟩,
     ⟨0, 16, .rw, 0, 0⟩]⟩,
  -- DMA_CH_POS
  ⟨0x0E1040, [⟨0x80, 0, .lim 16 32⟩], .block, 2, false,
    [⟨48, 16, .ro, 0, 0⟩,
     ⟨32, 16, .ro, 0, 0⟩,
     ⟨16, 16, .ro, 0, 0⟩,
     ⟨0, 16, .ro, 0, 0⟩]⟩,
  -- DMA_CH_PLANE
  ⟨0x0E1048, [⟨0x80, 0, .lim 16 32⟩], .block, 2, false,
    [⟨32, 32, .rw, 0, 0⟩,
     ⟨24, 4, .rw, 0, 0⟩,
     ⟨23, 1, .rw, 1, 1⟩,
     ⟨16, 3, .rw, 3, 3⟩]⟩]

/-- Registers of 13_buffer_memory_and_placement.md. -/
def regRows13a : List RegRow := [
  -- MEM_STAT
  ⟨0x0F0000, [], .block, 1, false,
    [⟨31, 1, .ro, 0, 0⟩,
     ⟨30, 1, .w1c, 0, 0⟩,
     ⟨29, 1, .w1c, 0, 0⟩,
     ⟨16, 11, .ro, 0, 0⟩,
     ⟨0, 11, .ro, 0, 0⟩]⟩,
  -- MEM_PP_CFG
  ⟨0x0F0004, [], .block, 1, false,
    [⟨31, 1, .rw, 1, 1⟩,
     ⟨30, 1, .rw, 0, 0⟩]⟩,
  -- MEM_PP_STAT
  ⟨0x0F0008, [], .block, 1, false,
    [⟨16, 16, .ro, 0, 0⟩,
     ⟨0, 15, .ro, 0, 0⟩]⟩,
  -- MEM_BANK_CMD
  ⟨0x0F000C, [], .block, 1, false,
    [⟨31, 1, .wo, 0, 0⟩,
     ⟨30, 1, .ro, 0, 0⟩,
     ⟨24, 5, .rw, 0, 0⟩,
     ⟨8, 4, .ro, 0, 0⟩,
     ⟨4, 2, .rw, 0, 0⟩]⟩,
  -- MEM_GRAN_SEL
  ⟨0x0F0010, [], .block, 1, false,
    [⟨0, 11, .rw, 0, 0⟩]⟩,
  -- MEM_GRAN_INFO
  ⟨0x0F0014, [], .block, 1, false,
    [⟨29, 3, .ro, 0, 0⟩,
     ⟨20, 9, .ro, 0, 0⟩,
     ⟨12, 8, .ro, 0, 0⟩,
     ⟨0, 12, .ro, 0xfff, 0xfff⟩]⟩,
  -- MEM_DBG_ADDR
  ⟨0x0F0018, [], .block, 1, false,
    [⟨3, 20, .rw, 0, 0⟩]⟩,
  -- MEM_DBG_DATA
  ⟨0x0F0020, [], .block, 2, false,
    [⟨0, 64, .rw, 0, 0⟩]⟩,
  -- MEM_ERR_LOG
  ⟨0x0F0028, [], .block, 2, false,
    [⟨63, 1, .w1c, 0, 0⟩,
     ⟨61, 2, .ro, 0, 0⟩,
     ⟨59, 2, .ro, 0, 0⟩,
     ⟨55, 4, .ro, 0, 0⟩,
     ⟨0, 23, .ro, 0, 0⟩]⟩,
  -- MEM_RGN_LOG
  ⟨0x0F0030, [], .block, 2, false,
    [⟨63, 1, .w1c, 0, 0⟩,
     ⟨62, 1, .ro, 0, 0⟩,
     ⟨55, 4, .ro, 0, 0⟩,
     ⟨0, 23, .ro, 0, 0⟩]⟩,
  -- MEM_BANK_STAT
  ⟨0x0F0040, [⟨0x4, 0, .lim 8 24⟩], .block, 1, false,
    [⟨30, 2, .ro, 0, 0⟩,
     ⟨29, 1, .ro, 0, 0⟩,
     ⟨16, 7, .ro, 0, 0⟩,
     ⟨0, 7, .ro, 0, 0⟩]⟩,
  -- MEM_POISON_LOG
  ⟨0x0F0200, [⟨0x8, 0, .lim 16 16⟩], .block, 2, false,
    [⟨63, 1, .w1c, 0, 0⟩,
     ⟨48, 9, .ro, 0, 0⟩,
     ⟨32, 12, .ro, 0, 0⟩,
     ⟨0, 23, .ro, 0, 0⟩]⟩]

/-- Registers of 13_buffer_memory_and_placement.md. -/
def regRows13b : List RegRow := [
  -- MEM_POISON_IDX
  ⟨0x0F0280, [], .block, 1, false,
    [⟨0, 4, .ro, 0, 0⟩]⟩,
  -- MEM_CNT_CLR
  ⟨0x0F02F8, [], .block, 1, false,
    [⟨0, 1, .wo, 0, 0⟩]⟩,
  -- MEM_CNT
  ⟨0x0F0300, [⟨0x8, 0, .lim 10 10⟩], .block, 2, false,
    [⟨0, 64, .ro, 0, 0⟩]⟩,
  -- MEM_RGN_RD
  ⟨0x0F1000, [⟨0x100, 0, .master⟩, ⟨0x4, 0, .lim 16 48⟩], .block, 1, false,
    [⟨0, 32, .rw, 0xffffffff, 0xffffffff⟩]⟩,
  -- MEM_RGN_WR
  ⟨0x0F2000, [⟨0x100, 0, .master⟩, ⟨0x4, 0, .lim 16 48⟩], .block, 1, false,
    [⟨0, 32, .rw, 0xffffffff, 0xffffffff⟩]⟩,
  -- MEM_RETIRED
  ⟨0x0F3000, [⟨0x4, 0, .lim 16 48⟩], .block, 1, false,
    [⟨0, 32, .ro, 0, 0⟩]⟩]

/-- Registers of 14_check_units_safety_island.md. -/
def regRows14a : List RegRow := [
  -- CHK_SEAL
  ⟨0x0E8000, [], .safe, 1, false,
    [⟨16, 16, .wo, 0, 0⟩,
     ⟨0, 1, .ro, 0, 0⟩]⟩,
  -- CHK_DIGEST
  ⟨0x0E8004, [], .safe, 1, false,
    [⟨0, 32, .ro, 0, 0⟩]⟩,
  -- CHK_CTL
  ⟨0x0E9000, [⟨0x1000, 0, .lim 2 4⟩], .safe, 1, false,
    [⟨31, 1, .wo, 0, 0⟩,
     ⟨30, 1, .wo, 0, 0⟩,
     ⟨0, 1, .rw, 0, 0⟩]⟩,
  -- CHK_STAT
  ⟨0x0E9004, [⟨0x1000, 0, .lim 2 4⟩], .safe, 1, false,
    [⟨29, 3, .ro, 0, 0⟩,
     ⟨26, 3, .ro, 0, 0⟩,
     ⟨25, 1, .w1c, 0, 0⟩,
     ⟨24, 1, .w1c, 0, 0⟩,
     ⟨23, 1, .w1c, 0, 0⟩,
     ⟨22, 1, .w1c, 0, 0⟩,
     ⟨21, 1, .w1c, 0, 0⟩,
     ⟨20, 1, .w1c, 0, 0⟩,
     ⟨16, 1, .ro, 0, 0⟩,
     ⟨0, 16, .ro, 0, 0⟩]⟩,
  -- CHK_CFG
  ⟨0x0E9008, [⟨0x1000, 0, .lim 2 4⟩], .safe, 1, false,
    [⟨31, 1, .rwl, 0, 0⟩,
     ⟨30, 1, .rwl, 0, 0⟩,
     ⟨29, 1, .rwl, 0, 0⟩,
     ⟨28, 1, .rwl, 0, 0⟩,
     ⟨27, 1, .rwl, 0, 0⟩,
     ⟨26, 1, .rwl, 0, 0⟩,
     ⟨25, 1, .rwl, 0, 0⟩,
     ⟨18, 6, .rwl, 0x1f, 0x1f⟩,
     ⟨4, 11, .rwl, 0, 0⟩]⟩,
  -- CHK_POLY
  ⟨0x0E9010, [⟨0x1000, 0, .lim 2 4⟩], .safe, 2, false,
    [⟨0, 64, .rwl, 0x4c11db7, 0x4c11db7⟩]⟩,
  -- CHK_INIT
  ⟨0x0E9018, [⟨0x1000, 0, .lim 2 4⟩], .safe, 2, false,
    [⟨0, 64, .rwl, 0, 0⟩]⟩,
  -- CHK_XOROUT
  ⟨0x0E9020, [⟨0x1000, 0, .lim 2 4⟩], .safe, 2, false,
    [⟨0, 64, .rwl, 0, 0⟩]⟩,
  -- CHK_SCAN_ADDR
  ⟨0x0E9028, [⟨0x1000, 0, .lim 2 4⟩], .safe, 2, false,
    [⟨0, 64, .rwl, 0, 0⟩]⟩,
  -- CHK_LEN
  ⟨0x0E9030, [⟨0x1000, 0, .lim 2 4⟩], .safe, 1, false,
    [⟨0, 25, .rwl, 0, 0⟩]⟩,
  -- CHK_ALIVE
  ⟨0x0E9034, [⟨0x1000, 0, .lim 2 4⟩], .safe, 1, false,
    [⟨16, 16, .rwl, 0, 0⟩,
     ⟨10, 5, .rwl, 4, 4⟩,
     ⟨0, 10, .rwl, 0, 0⟩]⟩,
  -- CHK_EXPECT
  ⟨0x0E9040, [⟨0x1000, 0, .lim 2 4⟩], .safe, 2, false,
    [⟨0, 64, .rw, 0, 0⟩]⟩]

/-- Registers of 14_check_units_safety_island.md. -/
def regRows14b : List RegRow := [
  -- CHK_RESULT
  ⟨0x0E9050, [⟨0x1000, 0, .lim 2 4⟩], .safe, 4, false,
    [⟨96, 16, .ro, 0, 0⟩,
     ⟨32, 64, .ro, 0, 0⟩,
     ⟨31, 1, .ro, 0, 0⟩,
     ⟨28, 3, .ro, 0, 0⟩,
     ⟨25, 3, .ro, 0, 0⟩,
     ⟨0, 25, .ro, 0, 0⟩]⟩]

/-- Registers of 15_interrupts.md. -/
def regRows15a : List RegRow := [
  -- IRQ_CTL
  ⟨0x0F8000, [], .block, 1, false,
    [⟨31, 1, .rw, 0, 0⟩,
     ⟨0, 4, .rw, 3, 3⟩]⟩,
  -- IRQ_STAT
  ⟨0x0F8004, [], .block, 1, false,
    [⟨31, 1, .w1c, 0, 0⟩,
     ⟨0, 10, .ro, 0, 0⟩]⟩,
  -- IRQ_VBASE
  ⟨0x0F8100, [⟨0x20, 0, .lim 8 8⟩], .block, 1, false,
    [⟨5, 27, .rw, 0, 0⟩,
     ⟨0, 2, .rw, 0, 0⟩]⟩,
  -- IRQ_THRESH
  ⟨0x0F8104, [⟨0x20, 0, .lim 8 8⟩], .block, 1, false,
    [⟨31, 1, .rw, 0, 0⟩,
     ⟨0, 8, .rw, 0xff, 0xff⟩]⟩,
  -- IRQ_RUN
  ⟨0x0F8108, [⟨0x20, 0, .lim 8 8⟩], .block, 1, false,
    [⟨31, 1, .ro, 0, 0⟩,
     ⟨16, 10, .ro, 0, 0⟩,
     ⟨0, 8, .ro, 0xff, 0xff⟩]⟩,
  -- IRQ_EOI
  ⟨0x0F810C, [⟨0x20, 0, .lim 8 8⟩], .block, 1, false,
    [⟨0, 10, .wo, 0, 0⟩]⟩,
  -- IRQ_OFFER
  ⟨0x0F8110, [⟨0x20, 0, .lim 8 8⟩], .block, 1, false,
    [⟨31, 1, .ro, 0, 0⟩,
     ⟨16, 8, .ro, 0, 0⟩,
     ⟨0, 10, .ro, 0, 0⟩]⟩,
  -- IRQ_CFG
  ⟨0x0F9000, [⟨0x4, 0, .lim 512 1024⟩], .block, 1, false,
    [⟨31, 1, .rw, 0, 0⟩,
     ⟨24, 3, .rw, 0, 0⟩,
     ⟨0, 8, .rw, 0x80, 0x80⟩]⟩,
  -- IRQ_PEND
  ⟨0x0FA000, [⟨0x4, 0, .lim 16 32⟩], .block, 1, false,
    [⟨0, 32, .w1c, 0, 0⟩]⟩,
  -- IRQ_SETPEND
  ⟨0x0FA080, [⟨0x4, 0, .lim 16 32⟩], .block, 1, false,
    [⟨0, 32, .w1s, 0, 0⟩]⟩,
  -- IRQ_ACT
  ⟨0x0FA100, [⟨0x4, 0, .lim 16 32⟩], .block, 1, false,
    [⟨0, 32, .ro, 0, 0⟩]⟩]

/-- Registers of 16_power_and_wake.md. -/
def regRows16a : List RegRow := [
  -- PWR_STAT
  ⟨0x0FC000, [], .aon, 1, false,
    [⟨31, 1, .ro, 0, 0⟩,
     ⟨30, 1, .ro, 0, 0⟩,
     ⟨29, 1, .w1c, 0, 0⟩,
     ⟨28, 1, .w1c, 0, 0⟩,
     ⟨27, 1, .w1c, 0, 0⟩,
     ⟨26, 1, .w1c, 0, 0⟩,
     ⟨0, 8, .ro, 0, 0⟩]⟩,
  -- PWR_INRUSH
  ⟨0x0FC004, [], .aon, 1, false,
    [⟨0, 8, .rw, 0x10, 0x10⟩]⟩,
  -- PWR_INRUSH_COST
  ⟨0x0FC008, [], .aon, 1, false,
    [⟨24, 4, .rw, 1, 1⟩,
     ⟨20, 4, .rw, 2, 2⟩,
     ⟨16, 4, .rw, 2, 2⟩,
     ⟨12, 4, .rw, 1, 1⟩,
     ⟨8, 4, .rw, 4, 4⟩,
     ⟨4, 4, .rw, 8, 8⟩,
     ⟨0, 4, .rw, 8, 8⟩]⟩,
  -- PWR_WDLY
  ⟨0x0FC00C, [], .aon, 1, false,
    [⟨28, 4, .rw, 4, 4⟩,
     ⟨24, 4, .rw, 1, 1⟩,
     ⟨20, 4, .rw, 1, 1⟩,
     ⟨16, 4, .rw, 1, 1⟩,
     ⟨12, 4, .rw, 1, 1⟩,
     ⟨8, 4, .rw, 1, 1⟩,
     ⟨4, 4, .rw, 2, 2⟩,
     ⟨0, 4, .rw, 2, 2⟩]⟩,
  -- PWR_LISTEN
  ⟨0x0FC010, [], .aon, 1, false,
    [⟨24, 8, .rw, 0x21, 0x21⟩,
     ⟨16, 8, .rw, 0, 0⟩,
     ⟨0, 16, .rw, 0xccd, 0xccd⟩]⟩,
  -- PWR_WAKE_EN
  ⟨0x0FC014, [], .aon, 1, false,
    [⟨16, 16, .rw, 0, 0⟩,
     ⟨10, 1, .rw, 0, 0⟩,
     ⟨9, 1, .rw, 0, 0⟩,
     ⟨8, 1, .rw, 0, 0⟩]⟩,
  -- PWR_WAKE_REQ
  ⟨0x0FC018, [], .aon, 1, false,
    [⟨0, 1, .wo, 0, 0⟩]⟩,
  -- PWR_LASTWAKE
  ⟨0x0FC01C, [], .aon, 1, false,
    [⟨31, 1, .w1c, 0, 0⟩,
     ⟨30, 1, .w1c, 0, 0⟩,
     ⟨20, 4, .ro, 0, 0⟩,
     ⟨16, 4, .ro, 0, 0⟩,
     ⟨8, 4, .ro, 0, 0⟩]⟩,
  -- PWR_GASP
  ⟨0x0FC020, [], .aon, 1, false,
    [⟨16, 7, .rw, 0x3c, 0x3c⟩,
     ⟨0, 8, .rw, 0, 0⟩]⟩,
  -- PWR_WAKE_SET
  ⟨0x0FC080, [⟨0x4, 0, .lim 2 2⟩], .aon, 1, false,
    [⟨0, 32, .rw, 0, 0⟩]⟩,
  -- PWR_GASP_FRAME
  ⟨0x0FC100, [⟨0x4, 0, .lim 31 31⟩], .aon, 1, false,
    [⟨0, 32, .rw, 0, 0⟩]⟩,
  -- PWR_DOM
  ⟨0x0FC400, [⟨0x4, 0, .domain⟩], .aon, 1, false,
    [⟨30, 2, .ro, 0, 0⟩,
     ⟨29, 1, .ro, 0, 0⟩,
     ⟨28, 1, .ro, 0, 0⟩,
     ⟨24, 4, .ro, 0, 0⟩,
     ⟨0, 2, .rw, 0, 0⟩]⟩]

/-- Registers of 17_parameter_dictionary.md. -/
def regRows17a : List RegRow := [
  -- DIC_IDX
  ⟨0x0FE000, [], .block, 1, false,
    [⟨16, 16, .rw, 0, 0⟩,
     ⟨8, 8, .rw, 0, 0⟩]⟩,
  -- DIC_OFS
  ⟨0x0FE004, [], .block, 1, false,
    [⟨0, 16, .rw, 0, 0⟩]⟩,
  -- DIC_CMD
  ⟨0x0FE008, [], .block, 1, false,
    [⟨31, 1, .wo, 0, 0⟩,
     ⟨24, 4, .rw, 0, 0⟩,
     ⟨0, 9, .rw, 0, 0⟩]⟩,
  -- DIC_STAT
  ⟨0x0FE00C, [], .block, 1, false,
    [⟨31, 1, .ro, 0, 0⟩,
     ⟨30, 1, .ro, 0, 0⟩,
     ⟨29, 1, .ro, 0, 0⟩,
     ⟨28, 1, .ro, 0, 0⟩,
     ⟨27, 1, .w1c, 0, 0⟩,
     ⟨26, 1, .w1c, 0, 0⟩,
     ⟨25, 1, .ro, 0, 0⟩,
     ⟨16, 4, .ro, 0, 0⟩,
     ⟨0, 16, .ro, 0, 0⟩]⟩,
  -- DIC_INFO
  ⟨0x0FE010, [], .block, 1, false,
    [⟨28, 4, .ro, 0, 0⟩,
     ⟨25, 3, .ro, 0, 0⟩,
     ⟨24, 1, .ro, 0, 0⟩,
     ⟨23, 1, .ro, 0, 0⟩,
     ⟨22, 1, .ro, 0, 0⟩,
     ⟨21, 1, .ro, 0, 0⟩,
     ⟨20, 1, .ro, 0, 0⟩,
     ⟨0, 16, .ro, 0, 0⟩]⟩,
  -- DIC_CFG
  ⟨0x0FE014, [], .block, 1, false,
    [⟨31, 1, .rw, 1, 1⟩,
     ⟨0, 16, .rw, 0x64, 0x64⟩]⟩,
  -- DIC_MBX
  ⟨0x0FE018, [], .block, 1, false,
    [⟨31, 1, .rw, 0, 0⟩,
     ⟨24, 4, .rw, 0, 0⟩,
     ⟨15, 9, .rw, 0x64, 0x64⟩,
     ⟨4, 11, .rw, 0, 0⟩]⟩,
  -- DIC_SEQ
  ⟨0x0FE01C, [], .block, 1, false,
    [⟨0, 32, .ro, 0, 0⟩]⟩,
  -- DIC_STORE
  ⟨0x0FE020, [], .block, 1, false,
    [⟨16, 16, .ro, 0, 0⟩,
     ⟨0, 16, .ro, 0, 0⟩]⟩,
  -- DIC_DATA
  ⟨0x0FE100, [⟨0x4, 0, .lim 64 64⟩], .block, 1, true,
    [⟨0, 32, .rw, 0, 0⟩]⟩]

/-- Registers of 18_faults_and_selftest.md. -/
def regRows18a : List RegRow := [
  -- FLT_STAT
  ⟨0x0FF000, [], .block, 1, false,
    [⟨31, 1, .ro, 0, 0⟩,
     ⟨30, 1, .w1c, 0, 0⟩,
     ⟨16, 8, .ro, 0, 0⟩,
     ⟨8, 6, .ro, 0, 0⟩,
     ⟨0, 5, .ro, 0, 0⟩]⟩,
  -- FLT_ESC
  ⟨0x0FF004, [], .block, 1, false,
    [⟨4, 1, .rw, 0, 0⟩,
     ⟨3, 1, .rw, 0, 0⟩,
     ⟨2, 1, .rw, 0, 0⟩,
     ⟨1, 1, .rw, 0, 0⟩,
     ⟨0, 1, .rw, 0, 0⟩]⟩,
  -- FLT_WDOG
  ⟨0x0FF008, [], .block, 1, false,
    [⟨31, 1, .rw, 0, 0⟩,
     ⟨30, 1, .wo, 0, 0⟩,
     ⟨0, 20, .rw, 0x3e8, 0x3e8⟩]⟩,
  -- FLT_CLEAR
  ⟨0x0FF00C, [], .block, 1, false,
    [⟨31, 1, .wo, 0, 0⟩,
     ⟨8, 4, .ro, 0, 0⟩,
     ⟨0, 5, .rw, 0, 0⟩]⟩,
  -- FLT_CNT
  ⟨0x0FF010, [], .block, 2, false,
    [⟨0, 64, .ro, 0, 0⟩]⟩,
  -- FLT_LOG
  ⟨0x0FF100, [⟨0x10, 0, .lim 32 32⟩], .block, 4, false,
    [⟨96, 32, .ro, 0, 0⟩,
     ⟨64, 32, .ro, 0, 0⟩,
     ⟨32, 32, .ro, 0, 0⟩,
     ⟨31, 1, .w1c, 0, 0⟩,
     ⟨0, 31, .ro, 0, 0⟩]⟩]

/-- The registers of the window in whose row of R43 offset `off` lies (02_boundary_and_access.md).
DEDUCED, notes/assumptions/11.md. -/
def windowRows (off : Nat) : List RegRow :=
  if off < 0x010000 then regRows01a
  else if off < 0x020000 then regRows04a ++ regRows04b
  else if off < 0x030000 then regRows05a ++ regRows06a ++ regRows06b
  else if off < 0x040000 then regRows07a ++ regRows07b
  else if off < 0x080000 then regRows08a ++ regRows08b ++ regRows08c
  else if off < 0x0C0000 then regRows09a ++ regRows09b
  else if off < 0x0D0000 then regRows03a ++ regRows03b ++ regRows03c
  else if off < 0x0E0000 then regRows11a ++ regRows11b
  else if off < 0x0E8000 then regRows12a ++ regRows12b
  else if off < 0x0F0000 then regRows14a ++ regRows14b
  else if off < 0x0F8000 then regRows13a ++ regRows13b
  else if off < 0x0FC000 then regRows15a
  else if off < 0x0FE000 then regRows16a
  else if off < 0x0FF000 then regRows17a
  else regRows18a

end Sys2Proof.Machine
end

