-- ==== Sys2Proof/Machine/StateA.lean ====
section
/-!
DEFINITION. The parts of the state, first file: the block and its halves, the slave port, the time base and the cycle
unit, frames and field ports, the interrupt controller, the power sequencer, the dictionary and its store, the faults.
-/
namespace Sys2Proof.Machine

/-- The last answer of the register slave port: the error response and the read data
(02_boundary_and_access.md, the register slave port). -/
structure Slv where
  err : Bool := false
  data : BitVec 64 := 0
deriving DecidableEq, Repr

/-- A mode request that waits for the next cycle (01_block_and_halves.md R27). -/
structure ModeReq where
  target : Nat := 0
deriving DecidableEq, Repr

/-- A link's receiver: whether the link is up and how many heartbeats in a row it has received since the last gap
(R21). -/
structure LinkRx where
  up : Bool := true
  run : Nat := 0
deriving DecidableEq, Repr

/-- One half as the leader logic and the links see it (01_block_and_halves.md R19 to R36). DEDUCED, notes/assumptions/18.md. -/
structure HalfSt where
  /-- Epoch this half holds (R30, R34). -/
  epoch : Nat := 0
  /-- Receiver of the half-to-half link at this half. -/
  half : LinkRx := {}
  /-- Receiver of this half's link to the spine. -/
  spine : LinkRx := {}
  /-- Heartbeats this half has sent (its own fixed schedule, R21). -/
  sent : Nat := 0
  /-- The half still has to copy mode, gear and time from the other half (R30, R32 step 2). -/
  copyState : Bool := false
  /-- The half still has to copy the tables (R32 step 3, 07_parse_graph.md R195). -/
  copyTables : Bool := false
  /-- Admission to the parse pipeline is stopped (R32 step 3, R195). -/
  admStop : Bool := false
  /-- BLK_LEAD_LOG.DROPS counts the frames this half discards (R32). -/
  dropsOn : Bool := false
  /-- The copy follows this half's own reset (R30), so its time copy is no step. -/
  fromReset : Bool := false
  /-- This half's copy of the gear where it is apart from TRK_GEAR_CUR, which is half A's: with the halves not connected (R19). -/
  gear : Option Nat := none
  /-- Integral of this half's own servo while both halves claim (R35). -/
  integral : Int := 0
  /-- Number of the course that this half still uses as current where it has missed the switch to another, 16 for none (R19;
  08_rules_courses_forwarding.md R220). -/
  cur : Option Nat := none
deriving DecidableEq, Repr

/-- The reset inputs held asserted (02_boundary_and_access.md R38): BLK_RST_N, HALF_A_RST_N, HALF_B_RST_N, SAFE_RST_N.
DESIGN CHOICE, notes/assumptions/19.md. -/
structure Resets where
  blk : Bool := false
  a : Bool := false
  b : Bool := false
  safe : Bool := false
deriving DecidableEq, Repr

/-- A change of the leader's time base on its way to the follower (03_time_and_cycles.md R70): a new rate, or a time
value with the leader's elapsed count when it took effect; `isSet` tells a set from a step. -/
structure Follow where
  rate : Option Word := none
  time : Option (Nat × Nat) := none
  isSet : Bool := false
  setDone : Nat := 0
  stepUsed : Nat := 0
  stepHw : Nat := 0
deriving DecidableEq, Repr

/-- The time base of one half (R66 to R79). Times count units of 2^-40 ns (R67). -/
structure TimeBase where
  /-- The time value: (seconds × 10^9 + nanoseconds) × 2^40 with the fraction and its hidden bits below. -/
  t : Nat := 0
  /-- Time elapsed since the time base started: every tick's increment, no set and no step. -/
  el : Nat := 0
  /-- No tick word arrives (18_faults_and_selftest.md R417). -/
  lost : Bool := false
  /-- Writes to the island that wait in the crossing while the ticks are lost (R87): offset and word. -/
  waiting : List (Nat × Word) := []
  /-- Changes of the leader on their way to this half (R70). -/
  follow : List Follow := []
  /-- The rate before the last write of TB_RATE, for a step in the tick of that write (R76). -/
  rateWas : Int := 0
deriving DecidableEq, Repr

/-- The PPS output (R83, R84): its level, the half whose pulse it is and the elapsed count at which its width ends; the half
whose second boundaries it follows, whether a pulse is due, and the second that the last pulse marked. -/
structure Pps where
  high : Bool := false
  half : Nat := 0
  stop : Nat := 0
  drv : Nat := 0
  due : Bool := false
  sec : Nat := 0
deriving DecidableEq, Repr

/-- A running cycle generator (R86 to R89, R96). Instants count nanoseconds of T (R86). -/
structure Gen where
  /-- START of a free generator in ns (R86). -/
  start : Nat := 0
  /-- The next boundary. -/
  next : Nat := 0
  /-- Boundaries before this instant have been produced or jumped over and are not produced again (R89). -/
  floor : Nat := 0
  /-- Number of the next boundary, counted from the first. -/
  idx : Nat := 0
  /-- Number of the boundary whose expected point was matched last, plus 1 (R96). -/
  matched : Nat := 0
  /-- A step that moves the boundary after the next one (R96). -/
  shift : Int := 0
  /-- MAXSTEP, SYNC_MISS, SYNC_EDGE and SYNC_OFS in effect since the last boundary (R88). -/
  maxStep : Nat := 0
  miss : Nat := 3
  edge : Nat := 0
  ofs : Nat := 0
deriving DecidableEq, Repr

/-- A rise of a trigger that is due: instant in ns, pulse width in ns, active level (R90). -/
structure Rise where
  at_ : Nat
  width : Nat
  act : Bool
deriving DecidableEq, Repr

/-- A trigger output (R90 to R93). -/
structure Trig where
  /-- Level of CTU_TRIG[n]. -/
  level : Bool := false
  /-- The output runs (R93). -/
  running : Bool := false
  /-- Elapsed count at which the pulse in progress ends, if one is in progress. -/
  pulse : Option Nat := none
  /-- Setting in effect since the last boundary (R91). -/
  gen : Nat := 0
  ofs : Nat := 0
  width : Nat := 0
  pol : Bool := false
  /-- Boundaries up to this instant give no pulse (R91). -/
  after : Nat := 0
  /-- Rises due. -/
  rises : List Rise := []
deriving DecidableEq, Repr

/-- Where a frame came from. -/
inductive Src where
  | port (p : Nat)                -- a field port, or 8 and 9 for a trunk in BASE-R mode
  | chan (t c : Nat)              -- channel c of trunk t
  | host (q : Nat)                -- queue pair q
  | thread (k : Nat)              -- engine thread 8 e + n
  | unit (k : Nat)                -- the block itself (PAUSE, gasp)
deriving DecidableEq, Repr

/-- What the parse graph reports of a frame (07_parse_graph.md R197 to R204). -/
structure Parse where
  /-- 0 not entered, 1 in the pipeline, 2 result delivered, 3 classified. -/
  stage : Nat := 0
  slot : Nat := 0
  node : Nat := 0
  pos : Nat := 0
  steps : Nat := 0
  cls : Nat := 0
  flags : Nat := 0
  /-- Key byte 2 bits (R202): 128 INC_STEPS, 64 INC_DEPTH, 32 TRUNC. -/
  incomplete : Nat := 0
  key : List Byte := []
  l3 : Nat := 0xFFFF
  l4 : Nat := 0xFFFF
  app : Nat := 0xFFFF
  /-- Highest frame byte read, plus 1 (R193). -/
  high : Nat := 0
  /-- MISS_NEXT was taken (R210). -/
  miss : Bool := false
  traced : Bool := false
  trace : List Nat := []
deriving DecidableEq, Repr

/-- A frame held by the block, wholly or in part. -/
structure Frame where
  /-- The bytes received, FCS included; of a host frame its data, without padding and FCS (11 R294). -/
  bytes : List Byte := []
  /-- The bytes received so far where those held differ from them: a thread has stored into the frame, or a tag action has changed
  it, while it arrives (09_engine_threads.md R255). -/
  raw : Option (List Byte) := none
  /-- Bytes received beyond the cut of R101, held only until the FCS is judged. -/
  excess : List Byte := []
  /-- The last byte has been received. -/
  done : Bool := false
  /-- A host frame whose data ends with an FCS (11 R293 FCS_INCL). -/
  fcsIncl : Bool := false
  src : Src := .unit 0
  /-- Half whose pipeline parses it (01_block_and_halves.md R23). -/
  half : Nat := 0
  /-- Port frame status (04_field_ports.md R130). -/
  status : Nat := 0
  /-- Received frame found bad (R114): copies in transmission are stomped. -/
  bad : Bool := false
  /-- A filter discards it (R103, R105), or the port consumes it (R106). -/
  drop : Bool := false
  /-- Its thread has dropped it while it arrives: the rest is discarded as it comes (09_engine_threads.md R256). -/
  void : Bool := false
  /-- The TAG of its channel (05_trunk_cells.md R155). -/
  tag : Nat := 0
  /-- Status bits of the copy of a port that does not exist yet (R127). -/
  portStat : KMap Nat := []
  /-- Ingress stamp, in units of 2^-16 ns (03_time_and_cycles.md R80). -/
  stamp : Int := 0
  tagged : Bool := false
  vid : Nat := 0
  pri : Nat := 0
  /-- The priority that the classifier gave a frame that went to a thread (08_rules_courses_forwarding.md R216). -/
  usePri : Option Nat := none
  /-- Course current when its parse began (08_rules_courses_forwarding.md R217). -/
  course : Nat := 15
  parse : Parse := {}
  /-- Rule entry that matched, 4096 for none, and the hash (R211, R214). -/
  rule : Nat := 4096
  hash : Nat := 0
  /-- Action word that decided, after classification (R215). -/
  act : Nat := 0
  /-- 1588 event message marked by the classifier (R117). -/
  is1588 : Bool := false
  /-- Where it lies in buffer memory: granule, offset in it, first frame byte, bytes (13_buffer_memory_and_placement.md
  R346). -/
  parts : List (Nat × Nat × Nat × Nat) := []
  /-- Wait for placement: owner (256 the block) and queue pair, from the classification to the last byte. -/
  owners : List (Nat × Nat) := []
deriving DecidableEq, Repr

/-- One copy of a frame on its way to a port (01_block_and_halves.md R18). -/
structure Copy where
  fid : Nat := 0
  cls : Nat := 0
  /-- Sent in cut-through (04_field_ports.md R113). -/
  cut : Bool := false
  /-- Status bits of this copy (R130). -/
  status : Nat := 0
  /-- Queue pair and descriptor number of a host frame (11_functions_and_queues.md R299). -/
  host : Option (Nat × Nat) := none
  /-- Egress tag action and R-TAG action (08_rules_courses_forwarding.md R216, R233). -/
  vtag : Nat := 0
  rtag : Nat := 0
  seq : Nat := 0
  vid : Nat := 0
  onestep : Bool := false
  csum : Bool := false
  /-- Channel of a cell-mode trunk. -/
  chan : Nat := 0
  /-- Thread (8 e + n) that disposed of the frame (10_engine_instructions.md R275). -/
  thread : Option Nat := none
  /-- Original bytes of a copy in transmission, so far as received (09_engine_threads.md R255). -/
  bytes : List Byte := []
  /-- Egress stamp of a copy in transmission, in 2^-16 ns (03_time_and_cycles.md R80). -/
  stamp : Int := 0
  /-- 0 a frame's copy, 1 a PAUSE or PFC frame (R107), 2 a gasp frame (16_power_and_wake.md R395). -/
  kind : Nat := 0
  /-- The port sends it as a preemptable frame (R108). -/
  pre : Bool := false
  /-- The frame has more than one port destination (08_rules_courses_forwarding.md R232). -/
  multi : Bool := false
  /-- Collisions that this frame has met (R102). -/
  coll : Nat := 0
  /-- Bytes of the frame sent when it was last interrupted (R108). -/
  sent : Nat := 0
deriving DecidableEq, Repr

/-- An edit on its way to a port or in its edit queue (04_field_ports.md R121 to R127). -/
structure Edit where
  fid : Nat
  w : Nat
  ins : Bool
  bytes : List Byte
  thread : Nat
  entry : Nat
deriving DecidableEq, Repr

/-- A field port, and the frame side of a trunk at 8 and 9 (R98 to R127). -/
structure Port where
  arriving : Option Nat := none
  egress : List Copy := []
  tx : Option Copy := none
  held : Option Copy := none
  /-- Edits fetched and crossing to the port. -/
  coming : List Edit := []
  edits : List Edit := []
  /-- Priorities (8 for PAUSE) for which the port has asked its neighbour to stop (R107). -/
  asked : List Nat := []
  /-- PAUSE and PFC frames due to leave: priority (8 for PAUSE) and quanta. -/
  fcDue : List (Nat × Nat) := []
  tries : Nat := 0
  /-- Collisions that the gasp frame has met (R102). -/
  coll : Nat := 0
  backoff : Bool := false
  /-- The receive clock, and the transmit clock, has stopped while enabled (02_boundary_and_access.md R41). -/
  rxLost : Bool := false
  txLost : Bool := false
  /-- Level of FPn_CRS (02_boundary_and_access.md R37). -/
  crs : Bool := false
  /-- Bytes of a frame heard in a listen window so far, and whether FPn_RX_ER came with them (R120). -/
  heard : List Byte := []
  heardErr : Bool := false
  /-- The gate list entry in effect has SetAndHoldMAC asserted (R110, R111). -/
  hold : Bool := false
  /-- The gasp frame has still to leave (16_power_and_wake.md R395). -/
  gasp : Bool := false
deriving DecidableEq, Repr

/-- The always-on latches of the interrupt controller (15_interrupts.md R373): source numbers. -/
abbrev AonLatch := List Nat

/-- The sequencer's place in a domain's transition (16_power_and_wake.md R385, R388). -/
inductive Phase where
  | idle
  | enter (off : Bool) (step : Nat)            -- next step 1 to 6 of R385
  | unwind (off : Bool) (step : Nat)           -- undoing the steps before `step`
  | wait (listen : Bool)                       -- waits for the inrush budget (R389)
  | ack (left : Nat) (listen : Bool)           -- PSW_EN is 1, PSW_ACK not yet sampled 1
  | settle (left : Nat) (listen : Bool)        -- PSW_ACK sampled 1
  | release (listen : Bool)                    -- ISO_EN falls next
  | listening (left : Nat)                     -- listen window of R390
deriving DecidableEq, Repr

/-- A power domain (R380 to R390). -/
structure DomSt where
  phase : Phase := .idle
  psw : Bool := true
  iso : Bool := false
  ret : Bool := false
  /-- The state it came from lost its contents (OFF). -/
  wasOff : Bool := false
  /-- Inrush units taken. -/
  cost : Nat := 0
  /-- This wait has already raised source 20 (R389). -/
  waited : Bool := false
  /-- A TARGET written while a transition runs (R384). -/
  next : Option Nat := none
  /-- A wake event since the block went DORMANT asks for this domain (R393). -/
  woken : Bool := false
deriving DecidableEq, Repr

/-- The last gasp (R395): ports whose frame has not left, and whether the commit still runs. -/
structure Gasp where
  ports : List Nat := []
  commit : Bool := false
deriving DecidableEq, Repr

/-- Definition of a dictionary object (17_parameter_dictionary.md R397): type and access codes of R398 and DIC_INFO. -/
structure ObjDef where
  typ : Nat
  acc : Nat
  reachH : Bool := true
  reachN : Bool := true
  persist : Bool := false
  served : Bool := false
  size : Nat := 0
  dflt : List Byte := []
deriving DecidableEq, Repr

/-- One slot of the store (R410). -/
structure Slot where
  magic : Word := 0
  seq : Word := 0
  len : Nat := 0
  crc : Word := 0
  commit : Word := 0
  payload : List Byte := []
deriving DecidableEq, Repr

/-- A commit under way (R412, R413): target slot, new SEQ, the values at its start and the objects it had cleared. -/
structure Commit where
  slot : Nat
  seq : Word
  vals : KMap (List Byte)
  cleared : List Nat
deriving DecidableEq, Repr

/-- A host command forwarded to the protocol image (R406). -/
structure Fwd where
  op : Nat
  key : Nat
deriving DecidableEq, Repr

/-- The dictionary (R397 to R415). Keys are index × 256 + sub-index. -/
structure Dic where
  /-- Values that differ from the object's default. -/
  vals : KMap (List Byte) := []
  defs : KMap ObjDef := []
  dirty : List Nat := []
  slotA : Slot := {}
  slotB : Slot := {}
  commit : Option Commit := none
  /-- Commits asked for while one runs (R412). -/
  queued : Bool := false
  fwd : Option Fwd := none
  /-- A network request waits for the end of a forwarded host command (R407). -/
  mbxWait : Bool := false
  /-- SPINE has come ON and the restore of R414 has not ended. -/
  restore : Bool := true
deriving DecidableEq, Repr

/-- The fault logic (18_faults_and_selftest.md R416 to R421): entries logged since BLK_RST_N, the watchdog, and the last
refused slave access logged: function, offset, tick. -/
structure Flt where
  seq : Nat := 0
  wdog : Bool := false
  refusal : Option (Nat × Nat × Nat) := none
deriving DecidableEq, Repr

end Sys2Proof.Machine
end

