-- ==== Sys2Proof/Machine/StateB.lean ====
section
/-!
DEFINITION. The parts of the state, second file: the trunks and the node (05_trunk_cells.md,
06_trunk_overhead_gears_protection.md).
-/
namespace Sys2Proof.Machine

/-- The receive state of a channel (05_trunk_cells.md R151 to R154). -/
structure Chan where
  asm : Bool := false
  /-- SEQ reference, if valid. -/
  ref : Option Nat := none
  bytes : List Byte := []
  pri : Nat := 0
  stamp : Int := 0
  /-- Discarding an over-long frame's cells: 1 up to its end cell, 2 the first cell after it (R154). -/
  skip : Nat := 0
  /-- The frame in progress has found no buffer memory: it is discarded at its end (R154). -/
  lost : Bool := false
deriving DecidableEq, Repr

/-- A frame of which a channel has sent some cells (R152). -/
structure TxFrame where
  copy : Copy := {}
  bytes : List Byte := []
  sent : Nat := 0
  n : Nat := 0
deriving DecidableEq, Repr

/-- A candidate alignment of delineation (R142): bit offset, confirmations, and the payload bits before. -/
structure Cand where
  ofs : Nat
  conf : Nat
  hist : Nat
deriving DecidableEq, Repr

/-- A received overhead cell's fields (06_trunk_overhead_gears_protection.md R159). -/
structure Oh where
  sfn : Nat := 0
  stamp : Int := 0            -- transmit stamp, in 2^-16 ns
  node : Nat := 0
  cold : Bool := false
  joined : Bool := false
  echoValid : Bool := false
  gearOk : Bool := false
  cur : Nat := 0
  target : Nat := 0
  phase : Nat := 0
  master : Nat := 0
  targetSfn : Nat := 0
  code : Nat := 0
  orig : Nat := 0
  hops : Nat := 255
  echoSfn : Nat := 0
  echoNs : Nat := 0
  echoFrac : Nat := 0
  /-- Receive stamp, in 2^-16 ns (R162). -/
  rx : Int := 0
deriving DecidableEq, Repr

/-- An urgent management cell waiting to be sent (R168, R169). -/
structure Urgent where
  typ : Nat
  copy : Nat
  orig : Nat
  arg : Nat
  sfn : Nat
deriving DecidableEq, Repr

/-- One trunk (R131 to R156, R159 to R183). -/
structure Trunk where
  pmaLock : Bool := false
  /-- The receive clock, and the transmit clock, of the lane has stopped while enabled (02_boundary_and_access.md R41). -/
  rxLost : Bool := false
  txLost : Bool := false
  cands : List Cand := []
  /-- Bit offset of the alignment in SYNC. -/
  align : Nat := 0
  rxHist : Nat := 0
  txHist : Nat := 0
  chans : KMap Chan := []
  /-- Cell times since the last overhead cell or restart of the numbering, once numbered (R150). -/
  pos : Option Nat := none
  slack : Nat := 0
  /-- The numbering was restarted by R150's timeout, so the superframe in progress is not complete. -/
  broken : Bool := false
  /-- Position of the next cell in the superframe sent; none before the first superframe. -/
  txPos : Option Nat := none
  /-- SFN of a superframe that starts at the next cell boundary (R146). -/
  sfDue : Option Nat := none
  txSeq : KMap Nat := []
  txFrames : KMap TxFrame := []
  urgent : List Urgent := []
  /-- Receive: the latest good overhead cell since SYNC, and the one before it (R161, R163). -/
  last : Option Oh := none
  prev : Option Oh := none
  /-- Own superframe times since the latest good overhead cell (R165, R181). -/
  age : Nat := 0
  /-- Transmit stamps of the last overhead cells sent: SFN and stamp, newest first, at most 4 (R163). -/
  kept : List (Nat × Int) := []
  /-- The port was blocked for a Signal Fail or a Signal Degrade, which may have cleared (R185). -/
  blockSig : Bool := false
  /-- Accepted delay values, newest first, at most 256 (R164). -/
  delays : List Nat := []
  /-- Pair being counted by the filter, and its count (R182). -/
  filt : Nat × Nat := (0, 0)
  filtCnt : Nat := 0
  /-- Latest pair received, without filtering (R183). -/
  got : Nat × Nat := (0, 0)
  /-- Headers bad or corrected in the running Signal Degrade window (R181). -/
  sdBad : Nat := 0
  /-- Delineation has been out of SYNC for the hold-off, or overhead silent (R181). -/
  sfHeld : Bool := false
  /-- Received overhead and urgent payloads not looked at yet, oldest first, with the receive stamp. -/
  ohIn : List (List Byte × Int) := []
  umIn : List (List Byte × Int) := []
  /-- 10 µs instants still to pass before the next overhead cell after a step (R173). -/
  quiet : Nat := 0
  /-- Link fault received in BASE-R mode: 0 none, 1 Local, 2 Remote (R133). -/
  fault : Nat := 0
deriving DecidableEq, Repr

/-- The node's part of the trunk network (R165 to R188). -/
structure Node where
  /-- Own cold-start superframes sent (R171). -/
  cold : Nat := 0
  /-- Step of R172 that waits: 0 none, 2 waits for an echo. -/
  integ : Nat := 0
  /-- R172 runs again on a joined node. -/
  again : Bool := false
  /-- Integral of the servo (R166) and the rate before a slew (R172). -/
  integral : Int := 0
  savedRate : Int := 0
  /-- 10 µs instants of the running Wait-to-Restore unit of 100 ms (R185). -/
  wtrTicks : Nat := 0
  /-- Pending shift: target gear (R178). -/
  shTarget : Nat := 0
  /-- This node announced the pending shift. -/
  shOwn : Bool := false
  /-- The type 2 triplicate of the announcement goes out with superframe a (R178). -/
  shAnn : Bool := false
  /-- Decision taken at the instant of n - 2: 2 CONFIRM, 3 CANCEL, 0 none yet (R178). -/
  shDecide : Nat := 0
  /-- CONFIRM was seen without being gear-valid: the node keeps its gear (R179). -/
  shFault : Bool := false
  /-- GEAR_OK is carried and the type 3 triplicate sent (R178). -/
  okSent : Bool := false
  /-- The instant of n has passed without CONFIRM or CANCEL: target gear to take late (R179). -/
  late : Option Nat := none
  lateGo : Bool := false
  /-- Type 2 and 3 triplicates relayed: type, origin, phase, target SFN (R170). -/
  relayed : List (Nat × Nat × Nat × Nat) := []
  /-- Own Lockout, Forced and Manual Switches, by trunk (R180). -/
  lockout : Bool := false
  forced : List Nat := []
  manual : List Nat := []
  /-- Own request is Wait-to-Restore (R185). -/
  wtr : Bool := false
  /-- The node's top request when the ring table last ran (R185). -/
  top : Nat × Nat := (0, 0)
deriving DecidableEq, Repr

end Sys2Proof.Machine
end

