-- ==== Sys2Proof/Machine/StateC.lean ====
section
/-!
DEFINITION. The parts of the state, third file: the parse pipelines and graph slots (07_parse_graph.md), courses, rules,
the exact-match table and recovery (08_rules_courses_forwarding.md), the engines and their threads
(09_engine_threads.md, 10_engine_instructions.md).
-/
namespace Sys2Proof.Machine

/-- The parse pipeline of one half (07_parse_graph.md R190 to R193, R209). -/
structure Pipe where
  /-- Frames offered and not entered yet, in the order offered (R191). -/
  offered : List Nat := []
  /-- The half's source, 0 to 4, that has the next turn (R191). -/
  turn : Nat := 0
  /-- Frames in the pipeline, oldest entry first (R192). -/
  flight : List Nat := []
  /-- Parse results that wait for the classifier, oldest first (08_rules_courses_forwarding.md R212). -/
  results : List Nat := []
deriving DecidableEq, Repr

/-- A graph load under way (R206, R207). -/
structure GLoad where
  slot : Nat
  addr : Nat
deriving DecidableEq, Repr

/-- A live course (08_rules_courses_forwarding.md R217, R221): its number, position, graph slot, default action, flow and
hash profile, and whether it is draining. -/
structure Course where
  num : Nat
  pos : Nat
  slot : Nat
  defAct : Nat
  flow : Nat
  hash : Nat
  draining : Bool := false
deriving DecidableEq, Repr

/-- A ternary entry (R213, R217): value and mask with key byte 0 in bits [7:0], action, visibility by position, STAGE. -/
structure Tcam where
  val : Nat := 0
  mask : Nat := 0
  act : Nat := 0
  vis : Nat := 0
  stage : Bool := false
deriving DecidableEq, Repr

/-- A commit under way (R220): the course as it is prepared. -/
structure Prep where
  course : Course
  acks : List Nat := []
deriving DecidableEq, Repr

/-- An entry of the exact-match table (R224): type 0 flow, 1 static forwarding, 2 learned forwarding. -/
structure EmEnt where
  typ : Nat
  key : List Byte
  act : Nat := 0
  port : Nat := 0
  chan : Nat := 0
  genT : Nat := 0
  genA : Nat := 0
  hit : Bool := false
  /-- Awaits removal (R227). -/
  dying : Bool := false
deriving DecidableEq, Repr

/-- A learning change on its way to the table (R226). -/
structure Learn where
  half : Nat
  key : List Byte
  port : Nat
  chan : Nat
deriving DecidableEq, Repr

/-- An exact-match command that runs (R225): its OP and type. -/
structure EmCmd where
  op : Nat
  typ : Nat
  key : List Byte
  act : Nat
deriving DecidableEq, Repr

/-- A recovery history (R234): last accepted number, and the numbers of the window seen, as distances behind it. -/
structure Hist where
  any : Bool := true
  last : Nat := 0
  seen : List Nat := []
deriving DecidableEq, Repr

/-- The classifier's own state. -/
structure Cls where
  courses : List Course := []
  tcam : KMap Tcam := []
  prep : Option Prep := none
  /-- OPEN or OPEN_EMPTY accepted and not in effect yet (R218): 1 or 2. -/
  opening : Option Nat := none
  /-- TCAM commands and a commit that wait for it: the words written, with 0 for CLS_TCAM_CMD and 1 for CLS_COMMIT. -/
  waiting : List (Nat × Word) := []
  cmd : Option EmCmd := none
  /-- Learned entries that the ager has removed and the follower's copy may still hold, with the tick of the removal (R226). -/
  removed : List (EmEnt × Nat) := []
  learns : List Learn := []
  /-- Recovery histories, by 64 × egress + stream; egress 10 is all host and thread deliveries. -/
  hist : KMap Hist := []
  /-- The tick at which the last flush of each SCOPE was counted (R229). -/
  flushed : KMap Nat := []
deriving DecidableEq, Repr

/-- An engine thread, beyond its registers (09_engine_threads.md R243 to R258; 10_engine_instructions.md R262, R263). -/
structure Thread where
  cc : Nat := 0
  fwp : Nat := 0
  /-- Receive queue, at most 16 frames (R253). -/
  rxq : List Nat := []
  /-- The bound frame (R254). -/
  bound : Option Nat := none
  /-- A dispose with HOLD has been made (10 R275). -/
  disposed : Bool := false
  /-- Byte triggers armed: trigger and offset (R122). -/
  trigs : KMap Nat := []
  /-- Mask and destination register of the wait (R250). -/
  mask : Nat := 0
  dest : Nat := 0
deriving DecidableEq, Repr

/-- A splice whose source is being fetched (R258): egress port, and the edit with the bytes copied at arming (R123). -/
structure Splice where
  port : Nat
  edit : Edit
deriving DecidableEq, Repr

end Sys2Proof.Machine
end

