-- ==== Sys2Proof/Machine/StateD.lean ====
section
/-!
DEFINITION. The parts of the state, fourth file: functions and queue pairs (11_functions_and_queues.md), and buffer memory
(13_buffer_memory_and_placement.md).
-/
namespace Sys2Proof.Machine

/-- A function (11_functions_and_queues.md R286 to R289, R318, R319). -/
structure Func where
  /-- 0 FREE, 1 ACTIVE, 2 DESTROYING. -/
  state : Nat := 0
  /-- The draw that gave its key (R287): the number of a free value. -/
  key : Option Nat := none
  admin : Nat := 0
  maxQp : Nat := 0
  maxGran : Nat := 0
  ports : Nat := 0
  classLo : Nat := 0
  classHi : Nat := 0
  evtLost : Nat := 0
  /-- Use was above a quota at the last OVER_QUOTA event (R319). -/
  above : Bool := false
deriving DecidableEq, Repr

/-- A transmit descriptor taken and not completed yet (R293, R299, R301). -/
structure HostTx where
  desc : Nat
  batch : Bool := false
  ts : Bool := false
  /-- Destinations still to finish, and how many took and did not take the frame. -/
  left : Nat := 0
  took : Nat := 0
  missed : Nat := 0
  /-- Status of a check that failed, POISON, or 0 (R298). -/
  code : Nat := 0
  /-- Port destinations of the frame. -/
  nPorts : Nat := 0
  /-- Other destinations of the frame. -/
  nOther : Nat := 0
  portStat : Nat := 0
  stamp : Int := 0
deriving DecidableEq, Repr

/-- A completion that is due: words 0 to 3, PHASE still 0 (R297). -/
structure Cqe where
  w0 : Nat
  w1 : Nat
  w2 : Nat
  w3 : Nat
deriving DecidableEq, Repr

/-- A frame that waits at a queue pair for delivery, with the classifier's report (R296, R297). -/
structure RxWait where
  fid : Nat
  src : Nat
  word3 : Nat
  hash : Nat
  /-- Thread that disposed of the frame here. -/
  thread : Option Nat := none
  /-- Queue pair and descriptor of the host frame delivered here (R299). -/
  host : Option (Nat × Nat) := none
  /-- Tag actions on this copy (08_rules_courses_forwarding.md R216, R233, R234). -/
  vtag : Nat := 0
  rtag : Nat := 0
  seq : Nat := 0
  vid : Nat := 0
  pri : Nat := 0
deriving DecidableEq, Repr

/-- A delivery that goes on over several buffers (R296, R302): its status, the bytes not written yet, and the data buffers filled. -/
structure RxRun where
  w : RxWait
  code : Nat := 0
  rest : List Byte := []
  nth : Nat := 0
deriving DecidableEq, Repr

/-- A queue pair (R288 to R316). -/
structure Qp where
  en : Bool := false
  gen : Nat := 0
  owner : Nat := 0
  admin : Bool := false
  service : Bool := false
  lc : Nat := 0
  thread : Nat := 0x7F
  dbErr : Bool := false
  irqEn : Bool := false
  each : Bool := false
  /-- Half of its affinity, if any (R312). -/
  half : Option Nat := none
  txBase : Nat := 0
  rxBase : Nat := 0
  cqBase : Nat := 0
  txL : Nat := 0
  rxL : Nat := 0
  cqL : Nat := 0
  txTail : Nat := 0
  txHead : Nat := 0
  rxTail : Nat := 0
  rxHead : Nat := 0
  cqHead : Nat := 0
  cqTail : Nat := 0
  ports : Nat := 0
  /-- Push slots as written (R303). -/
  slots : KMap Word := []
  /-- Pushed descriptors, by ring index (R305). -/
  pushed : KMap (List Byte) := []
  txs : List HostTx := []
  rxs : List RxWait := []
  /-- The delivery under way. -/
  cur : Option RxRun := none
  /-- Service frames that wait for room in the thread's receive queue, each with its descriptor (R313). -/
  room : List (Nat × Nat) := []
  /-- The descriptor at the head has been put off: in CONFIG, or for want of memory (R292, R318). -/
  waits : Bool := false
  due : List Cqe := []
  /-- Silent descriptors since the previous transmit completion (R301). -/
  silent : Nat := 0
  sent : Nat := 0
  drops : Nat := 0
  /-- DESTROY_QUEUE has taken effect (R316). -/
  dying : Bool := false
  /-- Held by a migration (13_buffer_memory_and_placement.md R347). -/
  stalled : Bool := false
deriving DecidableEq, Repr

/-- A destroy that waits for its last completion (R316, R317): requesting function, TAG, queue pairs left, and the
function to destroy, if any. -/
structure Destroy where
  fn : Nat
  tag : Nat
  qps : List Nat
  func : Option Nat := none
deriving DecidableEq, Repr

/-- The admin executor (R308). -/
structure Admin where
  /-- The function served last. -/
  turn : Nat := 255
  destroy : Option Destroy := none
deriving DecidableEq, Repr

/-- A granule (13_buffer_memory_and_placement.md R346): state 0 FREE, 1 ALLOCATED, 2 MOVING, 3 RETIRED. -/
structure Gran where
  state : Nat := 0
  /-- 0 to 255 a function, 256 the block. -/
  owner : Nat := 0
  qp : Nat := 0xFFF
  /-- Bytes of it used, from its start. -/
  fill : Nat := 0
  /-- Holds entries of the exact-match table. -/
  em : Bool := false
  /-- Poisoned words, by word of the granule. -/
  poison : List Nat := []
  /-- To be retired when it is free or has moved (R356). -/
  retire : Bool := false
deriving DecidableEq, Repr

/-- A word of buffer memory written through the debug window or cleaned: its plain value (R345, R354). -/
abbrev BufWord := BitVec 64

/-- Buffer memory. -/
structure Mem where
  grans : KMap Gran := []
  words : KMap BufWord := []
  /-- The block's own key: the number of a free value (R350). -/
  key : Option Nat := none
  /-- Regions that wait for a re-test: region, uncorrectable, word address, error is in the log (R353). -/
  retests : List (Nat × Bool × Nat × Bool) := []
  /-- The region that the pointing pass tests (R351, R352). -/
  test : Option Nat := none
  /-- Engine and spine memories that wait for a re-test (18_faults_and_selftest.md R419): 1 engine or 2 spine, the engine or
  the memory, the address, uncorrectable. -/
  others : List (Nat × Nat × Nat × Bool) := []
  /-- Granules that wait to move, oldest request first (R343, R347, R356). -/
  moves : List Nat := []
  /-- The move under way: old and new granule. -/
  move : Option (Nat × Nat) := none
  /-- The bank being evacuated (R343). -/
  evac : Option Nat := none
deriving DecidableEq, Repr

end Sys2Proof.Machine
end

