-- ==== Sys2Proof/Machine/StateE.lean ====
section
/-!
DEFINITION. The parts of the state, fifth file: the check units (14_check_units_safety_island.md) and the DMA channels
(12_dma_and_planes.md), beyond their registers.
-/
namespace Sys2Proof.Machine

/-- A check unit (14_check_units_safety_island.md R359 to R367). -/
structure Chk where
  /-- Bytes taken in the run. -/
  taken : Nat := 0
  /-- CRC register. -/
  acc : Nat := 0
  /-- Trailing bytes taken that give the expected value (R362). -/
  tail : List Byte := []
  /-- Bytes of the alive field taken (R365). -/
  alive : List Byte := []
  /-- The alive reference is valid. -/
  ref : Bool := false
  /-- Thread (8 e + n) that fed last. -/
  feeder : Option Nat := none
  /-- The stale timer counts (R366). -/
  stale : Bool := false
deriving DecidableEq, Repr

/-- A completion record that waits (12_dma_and_planes.md R339): status, bytes, list word, nanoseconds. -/
structure DmaRec where
  status : Nat
  bytes : Nat
  list : Nat
  ns : Nat
deriving DecidableEq, Repr

/-- A DMA channel (12_dma_and_planes.md R321 to R340). -/
structure Dma where
  /-- Status with which a drain ends the run; 0 for a drain towards PAUSED (R329). -/
  target : Nat := 0
  /-- The current list entry has been fetched (R333). -/
  have_ : Bool := false
  /-- It showed END. -/
  last : Bool := false
  /-- Next byte on the list side. -/
  addr : Nat := 0
  /-- Bases of a two-dimensional or plane run, and the bytes moved of it. -/
  src : Nat := 0
  dst : Nat := 0
  pos : Nat := 0
  /-- Bytes written by the run, or since the resume of R334. -/
  moved : Nat := 0
  seq : Nat := 0
  rec_ : Option DmaRec := none
deriving DecidableEq, Repr

end Sys2Proof.Machine
end

