-- ==== Sys2Proof/Machine/State.lean ====
section
/-!
DEFINITION. The state of the block: plain data, every piece of state the spec gives it, and the queue of the commands
that wait. Registers live in `regs` (one home each); the other fields hold what no register shows.
-/
namespace Sys2Proof.Machine

/-- Whose access of the memory master port it is: each queue and each DMA channel has its own transaction identifier
(02_boundary_and_access.md R58). -/
inductive Mst where
  | queue (q : Nat)          -- queue pair q
  | admin                    -- function 0's admin queue
  | chan (n : Nat)           -- DMA channel n
  | graph                    -- graph loads, as function 0 (07_parse_graph.md R207)
  | scan (n : Nat)           -- check unit n
  | place                    -- the placement engine
deriving DecidableEq, Repr

/-- What the block drives at its boundary, or writes through the memory master port
(02_boundary_and_access.md R37, R56 to R58). The list is the model's record of it. -/
inductive Out where
  | trig (n : Nat) (level : Bool)                      -- CTU_TRIG[n]
  | pps (level : Bool)                                 -- PPS_OUT
  | vec (k : Nat) (valid : Bool) (addr pri : Nat)      -- VEC_k_VALID, VEC_k_ADDR, VEC_k_PRI
  | power (d : Nat) (psw iso ret : Bool)               -- PSW_EN[d], ISO_EN[d], RET_EN[d]
  | speed (p code : Nat)                               -- FPn_SPEED
  | rate (t code : Nat)                                -- TRn_RATE
  | trunkEn (t : Nat) (level : Bool)                   -- TRn_TX_EN
  | frame (p : Nat) (bytes : List Byte)                -- a frame sent by a field port, FCS included
  | fragment (p : Nat) (fid : Nat)                     -- a preempted frame's fragment ends (R108)
  | jam (p : Nat)                                      -- a collision ends a transmission (R102)
  | verify (p : Nat)                                   -- SMD-V (R108)
  | mii (t : Nat) (code : Nat)                         -- BASE-R: 0 normal, 1 Remote Fault, 2 Idle (05 R133)
  | cell (t : Nat) (bytes : List Byte)                 -- a cell sent on a trunk
  | write (id : Mst) (addr : Nat) (bytes : List Byte)  -- a write to host memory
  | read (id : Mst) (addr : Nat) (len : Nat)           -- a read of host memory asked for
deriving DecidableEq, Repr


/-- The state of the block. -/
structure State where
  /-- The configuration (00_scope.md R1, R3). -/
  cfg : Cfg
  /-- The commands that wait, first in, first out. -/
  pending : List Instr
  /-- Register words, by offset; an unlisted word holds its reset value (R7, R8). -/
  regs : KMap Word
  /-- Staging copies of multi-word RW registers (02_boundary_and_access.md R55). -/
  stage : KMap Word
  /-- Holding registers of latched reads (R54, R95, R364, R421). -/
  hold : KMap Word
  /-- The slave port's last answer (R43 to R49). -/
  slv : Option Slv
  /-- What the block has driven at its boundary, oldest first. -/
  out : List Out
  /-- Ticks of 2 ns that steps on an empty queue have counted. -/
  ticks : Nat
  /-- Free values used so far (Config.freeValue). -/
  free : Nat
  /-- Reset inputs held asserted (R38). -/
  rst : Resets
  /-- The pending mode request (R27). -/
  req : Option ModeReq
  /-- The halves (R19 to R36), by half. -/
  halves : KMap HalfSt
  /-- The half-to-half link has come up and R31 has not settled it yet. -/
  settle : Bool
  /-- The time bases (03_time_and_cycles.md R66 to R79), by half. -/
  tbs : KMap TimeBase
  /-- The PPS output (R83). -/
  pps : Pps
  /-- The cycle generators (R85 to R89), by number. -/
  gens : KMap Gen
  /-- The trigger outputs (R90 to R93), by number. -/
  trigs : KMap Trig
  /-- The frames held by the block, by frame number. -/
  frames : KMap Frame
  /-- The next frame number. -/
  nextFrame : Nat
  /-- Field ports 0 to 7 and the frame side of the trunks at 8 and 9 (04_field_ports.md). -/
  ports : KMap Port
  /-- Target that took each active source, plus 1 (15_interrupts.md R376, R377). -/
  taken : KMap Nat
  /-- Latched always-on edges, by source (R373). -/
  latches : AonLatch
  /-- The power domains (16_power_and_wake.md R380 to R390). -/
  doms : KMap DomSt
  /-- The last gasp under way (R395). -/
  gasp : Option Gasp
  /-- The dictionary and its store (17_parameter_dictionary.md). -/
  dic : Dic
  /-- The fault logic (18_faults_and_selftest.md). -/
  flt : Flt
  /-- The trunks (05_trunk_cells.md), by number. -/
  trunks : KMap Trunk
  /-- Slot tables (06 R174): channel at 4096 × trunk + 512 × gear + slot. -/
  slots : KMap Nat
  /-- The node's part of the trunk network (06_trunk_overhead_gears_protection.md). -/
  node : Node
  /-- The parse pipelines (07_parse_graph.md), by half. -/
  pipes : KMap Pipe
  /-- Graph slot words (07 R194, R196), at ((2 × half + slot) × 128 + node) × 40 + word. -/
  graph : KMap Word
  /-- The graph load under way (07 R206). -/
  gload : Option GLoad
  /-- The classifier: courses, rules, streams (08_rules_courses_forwarding.md). -/
  cls : Cls
  /-- The exact-match tables (08 R223), by half. -/
  ems : KMap (List EmEnt)
  /-- The engine threads (09_engine_threads.md), by 8 × engine + thread. -/
  threads : KMap Thread
  /-- RR of each engine's issue wheel (09 R249), by engine. -/
  wheel : KMap Nat
  /-- Engine memories (09 R237, R240), by 0x40000 × engine + offset of the debug window. -/
  emem : KMap Byte
  /-- Splices whose source is being fetched (09 R258). -/
  splices : List Splice
  /-- The functions (11_functions_and_queues.md R286), by number. -/
  funcs : KMap Func
  /-- The queue pairs (11 R288), by number. -/
  qps : KMap Qp
  /-- Class bindings (11 R314): queue pair of each bound parse class. -/
  binds : KMap Nat
  /-- The admin executor (11 R308). -/
  admin : Admin
  /-- Buffer memory (13_buffer_memory_and_placement.md). -/
  mem : Mem
  /-- The check units (14_check_units_safety_island.md), by number. -/
  chks : KMap Chk
  /-- The DMA channels (12_dma_and_planes.md), by number. -/
  dmas : KMap Dma
deriving DecidableEq, Repr

/-- The block of configuration `c` right after reset: the reset inputs of the block asserted, every register at its
reset value, nothing in flight (01_block_and_halves.md R26, R30; 02_boundary_and_access.md R37).
DESIGN CHOICE, notes/assumptions/1.md and notes/assumptions/2.md and notes/assumptions/6.md. -/
def State.resetOf (c : Cfg) : State where
  cfg := c
  pending := []
  regs := []
  stage := []
  hold := []
  slv := none
  out := []
  ticks := 0
  free := 0
  rst := { blk := true }
  req := none
  halves := []
  settle := false
  tbs := []
  pps := {}
  gens := []
  trigs := []
  frames := []
  nextFrame := 1
  ports := []
  taken := []
  latches := []
  doms := []
  gasp := none
  dic := {}
  flt := {}
  trunks := []
  slots := []
  node := {}
  pipes := []
  graph := []
  gload := none
  cls := {}
  ems := []
  threads := []
  wheel := []
  emem := []
  splices := []
  funcs := []
  qps := []
  binds := []
  admin := {}
  mem := {}
  chks := []
  dmas := []

/-- The machine right after reset: Gweip-X (the configuration is a model's choice, notes/assumptions/1.md). -/
def State.reset : State := State.resetOf .x

/-- Replaces `cfg`. -/
def State.setCfg (s : State) (v : Cfg) : State := { s with cfg := v }
/-- Replaces `pending`. -/
def State.setPending (s : State) (v : List Instr) : State := { s with pending := v }
/-- Replaces `regs`. -/
def State.setRegs (s : State) (v : KMap Word) : State := { s with regs := v }
/-- Replaces `stage`. -/
def State.setStage (s : State) (v : KMap Word) : State := { s with stage := v }
/-- Replaces `hold`. -/
def State.setHold (s : State) (v : KMap Word) : State := { s with hold := v }
/-- Replaces `slv`. -/
def State.setSlv (s : State) (v : Option Slv) : State := { s with slv := v }
/-- Replaces `out`. -/
def State.setOut (s : State) (v : List Out) : State := { s with out := v }
/-- Replaces `ticks`. -/
def State.setTicks (s : State) (v : Nat) : State := { s with ticks := v }
/-- Replaces `free`. -/
def State.setFree (s : State) (v : Nat) : State := { s with free := v }
/-- Replaces `rst`. -/
def State.setRst (s : State) (v : Resets) : State := { s with rst := v }
/-- Replaces `req`. -/
def State.setReq (s : State) (v : Option ModeReq) : State := { s with req := v }
/-- Replaces `halves`. -/
def State.setHalves (s : State) (v : KMap HalfSt) : State := { s with halves := v }
/-- Replaces `settle`. -/
def State.setSettle (s : State) (v : Bool) : State := { s with settle := v }
/-- Replaces `tbs`. -/
def State.setTbs (s : State) (v : KMap TimeBase) : State := { s with tbs := v }
/-- Replaces `pps`. -/
def State.setPps (s : State) (v : Pps) : State := { s with pps := v }
/-- Replaces `gens`. -/
def State.setGens (s : State) (v : KMap Gen) : State := { s with gens := v }
/-- Replaces `trigs`. -/
def State.setTrigs (s : State) (v : KMap Trig) : State := { s with trigs := v }
/-- Replaces `frames`. -/
def State.setFrames (s : State) (v : KMap Frame) : State := { s with frames := v }
/-- Replaces `nextFrame`. -/
def State.setNextFrame (s : State) (v : Nat) : State := { s with nextFrame := v }
/-- Replaces `ports`. -/
def State.setPorts (s : State) (v : KMap Port) : State := { s with ports := v }
/-- Replaces `taken`. -/
def State.setTaken (s : State) (v : KMap Nat) : State := { s with taken := v }
/-- Replaces `latches`. -/
def State.setLatches (s : State) (v : AonLatch) : State := { s with latches := v }
/-- Replaces `doms`. -/
def State.setDoms (s : State) (v : KMap DomSt) : State := { s with doms := v }
/-- Replaces `gasp`. -/
def State.setGasp (s : State) (v : Option Gasp) : State := { s with gasp := v }
/-- Replaces `dic`. -/
def State.setDic (s : State) (v : Dic) : State := { s with dic := v }
/-- Replaces `flt`. -/
def State.setFlt (s : State) (v : Flt) : State := { s with flt := v }
/-- Replaces `trunks`. -/
def State.setTrunks (s : State) (v : KMap Trunk) : State := { s with trunks := v }
/-- Replaces `slots`. -/
def State.setSlots (s : State) (v : KMap Nat) : State := { s with slots := v }
/-- Replaces `node`. -/
def State.setNode (s : State) (v : Node) : State := { s with node := v }
/-- Replaces `pipes`. -/
def State.setPipes (s : State) (v : KMap Pipe) : State := { s with pipes := v }
/-- Replaces `graph`. -/
def State.setGraph (s : State) (v : KMap Word) : State := { s with graph := v }
/-- Replaces `gload`. -/
def State.setGload (s : State) (v : Option GLoad) : State := { s with gload := v }
/-- Replaces `cls`. -/
def State.setCls (s : State) (v : Cls) : State := { s with cls := v }
/-- Replaces `ems`. -/
def State.setEms (s : State) (v : KMap (List EmEnt)) : State := { s with ems := v }
/-- Replaces `threads`. -/
def State.setThreads (s : State) (v : KMap Thread) : State := { s with threads := v }
/-- Replaces `wheel`. -/
def State.setWheel (s : State) (v : KMap Nat) : State := { s with wheel := v }
/-- Replaces `emem`. -/
def State.setEmem (s : State) (v : KMap Byte) : State := { s with emem := v }
/-- Replaces `splices`. -/
def State.setSplices (s : State) (v : List Splice) : State := { s with splices := v }
/-- Replaces `funcs`. -/
def State.setFuncs (s : State) (v : KMap Func) : State := { s with funcs := v }
/-- Replaces `qps`. -/
def State.setQps (s : State) (v : KMap Qp) : State := { s with qps := v }
/-- Replaces `binds`. -/
def State.setBinds (s : State) (v : KMap Nat) : State := { s with binds := v }
/-- Replaces `admin`. -/
def State.setAdmin (s : State) (v : Admin) : State := { s with admin := v }
/-- Replaces `mem`. -/
def State.setMem (s : State) (v : Mem) : State := { s with mem := v }
/-- Replaces `chks`. -/
def State.setChks (s : State) (v : KMap Chk) : State := { s with chks := v }
/-- Replaces `dmas`. -/
def State.setDmas (s : State) (v : KMap Dma) : State := { s with dmas := v }

/-- Why a step of the model stops with a fault. No command of the block stops it: a fault of the block is a fault-log
entry, a status bit or an error response, all of them next states. The one constructor is raised by nobody (safe). -/
inductive Fault where
  /-- Raised by no command (safe). -/
  | none
deriving DecidableEq, Repr

/-- Why a command is refused by the model. -/
inductive Refusal where
  /-- The command has no meaning yet: raised by an arm of `exec` only (safe: nothing is claimed of it). -/
  | notModelled (mnemonic : String)
deriving DecidableEq, Repr


end Sys2Proof.Machine
end

