-- ==== Sys2Proof/Machine/Ops.lean ====
section
/-!
DEFINITION. The named operations over the registers and the maps of the state: where an offset lies, what a word reads as
after reset, reading and writing words, fields and counters, and recording what leaves the block.
-/
namespace Sys2Proof.Machine

/-! ### Where an offset lies -/

/-- How many values an index can take in the larger configuration. -/
def idxCount (k : IdxKind) : Nat :=
  match k with
  | .port => 8
  | .anyPort => 10
  | .trunk => 2
  | .half => 2
  | .engine => 12
  | .domain => 43
  | .master => 15
  | .lim a b => max a b

/-- Whether configuration `c` has the unit with this index (00_scope.md R3, R5; 16_power_and_wake.md R380). -/
def idxHas (c : Cfg) (k : IdxKind) (i : Nat) : Bool :=
  match k with
  | .port => decide (i < c.fieldPorts)
  | .anyPort => c.hasPort i
  | .trunk => decide (i < c.trunks)
  | .half => decide (i < c.halves)
  | .engine => decide (i < c.engines)
  | .domain => c.hasDomain i
  | .master => decide (i < c.engines ∨ 12 ≤ i ∧ i < 15)
  | .lim a b => decide (i < c.pick a b)

/-- The indices of a register at a distance from its base, and the distance left over; `none` outside its ranges or
where the configuration lacks the unit. -/
def matchDims (c : Cfg) (dims : List Dim) (rel : Nat) : Option (Nat × List Nat) :=
  match dims with
  | [] => some (rel, [])
  | d :: ds =>
    let i := rel / d.stride
    if d.first ≤ i ∧ i < idxCount d.kind ∧ idxHas c d.kind i = true then
      match matchDims c ds (rel % d.stride) with
      | some (r, is) => some (r, i :: is)
      | none => none
    else none

/-- A register found at an offset: its row, its indices and the word within it. -/
structure Hit where
  row : RegRow
  idx : List Nat
  word : Nat
deriving DecidableEq, Repr

/-- Whether one row of the register tables holds the word at `off`. -/
def rowHit (c : Cfg) (r : RegRow) (off : Nat) : Option Hit :=
  if off < r.base ∨ off % 4 ≠ 0 then none
  else
    match matchDims c r.dims (off - r.base) with
    | some (rest, is) => if rest < 4 * r.words then some ⟨r, is, rest / 4⟩ else none
    | none => none

/-- The register that holds the word at `off`, if any. DESIGN CHOICE, notes/assumptions/49.md and notes/assumptions/63.md. -/
def findHit (c : Cfg) (off : Nat) : Option Hit := List.findSome? (fun r => rowHit c r off) (windowRows off)

/-- The half that holds an indexed TB or CTU unit, by its half A offset within the window
(03_time_and_cycles.md R69, R85). DEDUCED, notes/assumptions/11.md. -/
def ctuHalf (c : Cfg) (rel : Nat) : Nat :=
  c.pick 0
    (if rel < 0x1000 then c.halfOfAnyPort ((rel - 0x100) / 8)
     else if rel < 0x2000 then (rel - 0x1000) / 0x40 / 4
     else if rel < 0x3000 then (rel - 0x2000) / 0x10 / 16
     else (rel - 0x3000) / 0x20 / 8)

/-- Whether `off` lies in the TB and CTU window of half B. DEDUCED, notes/assumptions/11.md. -/
def inTbB (off : Nat) : Bool := decide (0x0C8000 ≤ off ∧ off < 0x0D0000)

/-- Whether `off` lies in the TB and CTU window of half A. -/
def inTbA (off : Nat) : Bool := decide (0x0C0000 ≤ off ∧ off < 0x0C8000)

/-- The key under which the word at a window offset is held: an indexed unit of half B keeps its half A offset (R69).
`none` where the window has no register (02_boundary_and_access.md R43, R5). DEDUCED, notes/assumptions/11.md. -/
def keyOf (c : Cfg) (off : Nat) : Option Nat :=
  if inTbB off then
    if c.halves < 2 then none
    else if off - 0x0C8000 < 0x100 then (findHit c (off - 0x8000)).map (fun _ => off)
    else if ctuHalf c (off - 0x0C8000) = 1 then (findHit c (off - 0x8000)).map (fun _ => off - 0x8000)
    else none
  else if 0x022000 ≤ off ∧ off % 0x4000 / 0x1000 = 2 ∧ off < 0x028000 then
    let t := (off - 0x020000) / 0x4000
    if t < c.trunks then (findHit c (0x010000 + off % 0x1000)).map (fun _ => 0x018000 + 0x1000 * t + off % 0x1000) else none
  else if inTbA off ∧ 0x0C0100 ≤ off ∧ ctuHalf c (off - 0x0C0000) ≠ 0 then none
  else (findHit c off).map (fun _ => off)

/-- The register that a key stands for. DEDUCED, notes/assumptions/11.md. -/
def hitOf (c : Cfg) (key : Nat) : Option Hit := findHit c (if inTbB key ∨ (0x018000 ≤ key ∧ key < 0x01A000) then key - 0x8000 else key)

/-! ### Reset values -/

/-- The part of a field that lies in word `w` of its register: lowest bit in the word, width, and how far the field's
bits are shifted there. -/
def fieldSlice (f : FieldRow) (w : Nat) : Nat × Nat × Nat :=
  let lo := max f.lo (32 * w)
  let hi := min (f.lo + f.wd) (32 * (w + 1))
  (lo - 32 * w, hi - lo, lo - f.lo)

/-- Bits that read zero and ignore writes in Gweip-S, since they refer to an absent resource (00_scope.md R6).
DESIGN CHOICE, notes/assumptions/63.md; DEDUCED, notes/assumptions/69.md. -/
def absentS (key : Nat) : Word :=
  if key = O.BLK_HALF then 0x000070D1
  else if key = O.TRK_RING_CFG ∨ key = O.TRK_RING_STAT then 0xFFFFFFFF
  else if key = O.TRK_DELIN_CFG 0 then 0x00000300
  else if 0x010000 ≤ key ∧ key < 0x018000 ∧ key % 0x1000 = 0x20 then 0x40000000
  else if key = O.PRS_NODE_ADDR 0 then 0x00004000
  else if key = O.CLS_CTL ∨ key = O.CLS_TCAM_IDX then 0x00000C00
  else if O.CLS_SPREAD_TGT 0 ≤ key ∧ key < O.CLS_SPREAD_TGT 64 then 0x00000C00
  else if key = O.CLS_COMMIT then 0x00000010
  else if key = O.Q_SVC_MAP 1 ∨ key = O.Q_SVC_MAP 2 then 0xFFFFFFFF
  else if key = O.Q_QP_SEL then 0x00000C00
  else if key = O.MEM_BANK_CMD then 0x18000000
  else if key = O.MEM_GRAN_SEL then 0x00000600
  else if key = O.DIC_MBX then 0x0C000000
  else if key = O.PWR_LISTEN then 0x00F00000
  else if key = O.PWR_GASP then 0x000000F0
  else if key = O.PWR_WAKE_SET 0 then ~~~ (0x03FD0F37 : Word)
  else if key = O.PWR_WAKE_SET 1 then ~~~ (0x00000400 : Word)
  else 0

/-- Bits of a trunk's MAC file that read zero and ignore writes: preemption, gate lists, wake filters and counters 25 to 30
(05_trunk_cells.md R133). DESIGN CHOICE, notes/assumptions/49.md. -/
def absentMac (r : Nat) : Word :=
  if (0x1C ≤ r ∧ r < 0x30) ∨ (0x3C8 ≤ r ∧ r < 0x3F8) ∨ (0x600 ≤ r ∧ r < 0x700) ∨ 0x800 ≤ r then 0xFFFFFFFF else 0

/-- Bits that read zero and ignore writes (00_scope.md R6; 05_trunk_cells.md R133; 16_power_and_wake.md, PWR_WAKE_SET).
DEDUCED, notes/assumptions/69.md. -/
def absentBits (c : Cfg) (key : Nat) : Word :=
  (if 0x018000 ≤ key ∧ key < 0x01A000 then absentMac (key % 0x1000)
   else if key = O.PWR_WAKE_SET 1 then 0xFFFFF800 else 0) ||| c.pick (absentS key) 0

/-- Bits that read 1 whatever is written: the spine and the halves of PWR_WAKE_SET_0 (16_power_and_wake.md), SPEED and
DUPLEX of a trunk's MAC (05_trunk_cells.md R133). -/
def stuckOnes (c : Cfg) (key : Nat) : Word :=
  if key = O.PWR_WAKE_SET 0 then c.pick 0x6 0xE
  else if key = O.MAC_CTL 8 ∨ key = O.MAC_CTL 9 then 0x130
  else 0

/-- Reset values that depend on the unit's number. DESIGN CHOICE, notes/assumptions/62.md. -/
def resetOverride (c : Cfg) (key : Nat) (w : Word) : Word :=
  if key = O.TB_STAT + 0x8000 then 0x80
  else if inTbB key then w
  else if 0x080000 ≤ key ∧ key < 0x0B0000 then
    let e := (key - 0x080000) / 0x4000
    let r := (key - 0x080000) % 0x4000
    if r = 0 then setBits w 16 3 (4 * c.halfOfEngine e)
    else if 0x40C ≤ r ∧ r < 0x600 ∧ r % 0x40 = 0x0C then setBits w 8 8 (32 * ((r - 0x400) / 0x40))
    else w
  else if 0x0F2E00 ≤ key ∧ key < 0x0F2F00 then 0
  else w

/-- What a register word reads as when its reset domain resets. -/
def resetWord (c : Cfg) (key : Nat) : Word :=
  match hitOf c key with
  | none => 0
  | some h =>
    let w := h.row.fields.foldl (fun (acc : Word) f =>
      let sl := fieldSlice f h.word
      setBits acc sl.1 sl.2.1 (c.pick f.rstS f.rstX >>> sl.2.2)) 0
    (resetOverride c key w &&& ~~~ absentBits c key) ||| stuckOnes c key

/-! ### Words and fields -/

/-- The word held under a key. -/
def State.rd (s : State) (key : Nat) : Word := KMap.get (resetWord s.cfg key) s.regs key

/-- Holds a word under a key; memory of registers stays in canonical form. -/
def State.wr (s : State) (key : Nat) (v : Word) : State :=
  s.setRegs (KMap.put (resetWord s.cfg key) s.regs key v)

/-- A field's value. -/
def State.fget (s : State) (f : Fld) : Nat := getBits (s.rd f.off) f.lo f.wd

/-- Whether a one-bit field is 1. -/
def State.flag (s : State) (f : Fld) : Bool := decide (s.fget f ≠ 0)

/-- Sets a field. -/
def State.fset (s : State) (f : Fld) (v : Nat) : State := s.wr f.off (setBits (s.rd f.off) f.lo f.wd v)

/-- A 64-bit register, low word first (00_scope.md R10). -/
def State.rd64 (s : State) (key : Nat) : Nat := (s.rd key).toNat + 2 ^ 32 * (s.rd (key + 4)).toNat

/-- Sets a 64-bit register. -/
def State.wr64 (s : State) (key v : Nat) : State :=
  (s.wr key (BitVec.ofNat 32 v)).wr (key + 4) (BitVec.ofNat 32 (v / 2 ^ 32))

/-- Adds to a 64-bit counter, which wraps to 0 after 2^64 - 1 (04_field_ports.md R128). -/
def State.cntAdd (s : State) (key n : Nat) : State := s.wr64 key ((s.rd64 key + n) % 2 ^ 64)

/-- Counts one event in a 64-bit counter. -/
def State.cnt (s : State) (key : Nat) : State := s.cntAdd key 1

/-- Adds to a field that stays at its highest value (saturates). -/
def State.fsat (s : State) (f : Fld) (n : Nat) : State := s.fset f (min (s.fget f + n) (2 ^ f.wd - 1))

/-- A signed 32-bit register. -/
def State.rdInt (s : State) (key : Nat) : Int := (s.rd key).toInt

/-- Sets each field of a list. -/
def State.fsets (s : State) (l : List (Fld × Nat)) : State := l.foldl (fun s p => s.fset p.1 p.2) s

/-! ### Views of the maps -/

/-- Half `h`. -/
def State.half (s : State) (h : Nat) : HalfSt := KMap.get {} s.halves h
/-- Replaces half `h`. -/
def State.setHalf (s : State) (h : Nat) (v : HalfSt) : State := s.setHalves (KMap.put {} s.halves h v)
/-- The time base of half `h`. -/
def State.tb (s : State) (h : Nat) : TimeBase := KMap.get {} s.tbs h
/-- Replaces the time base of half `h`. -/
def State.setTb (s : State) (h : Nat) (v : TimeBase) : State := s.setTbs (KMap.put {} s.tbs h v)
/-- Generator `n`. -/
def State.gen (s : State) (n : Nat) : Gen := KMap.get {} s.gens n
/-- Replaces generator `n`. -/
def State.setGen (s : State) (n : Nat) (v : Gen) : State := s.setGens (KMap.put {} s.gens n v)
/-- Trigger `n`. -/
def State.trig (s : State) (n : Nat) : Trig := KMap.get {} s.trigs n
/-- Replaces trigger `n`. -/
def State.setTrig (s : State) (n : Nat) (v : Trig) : State := s.setTrigs (KMap.put {} s.trigs n v)
/-- Port `p`. -/
def State.port (s : State) (p : Nat) : Port := KMap.get {} s.ports p
/-- Replaces port `p`. -/
def State.setPort (s : State) (p : Nat) (v : Port) : State := s.setPorts (KMap.put {} s.ports p v)
/-- Frame `f`. -/
def State.frame (s : State) (f : Nat) : Frame := KMap.get {} s.frames f
/-- Replaces frame `f`. -/
def State.setFrame (s : State) (f : Nat) (v : Frame) : State := s.setFrames (KMap.put {} s.frames f v)
/-- Power domain `d`. -/
def State.dom (s : State) (d : Nat) : DomSt := KMap.get {} s.doms d
/-- Replaces power domain `d`. -/
def State.setDom (s : State) (d : Nat) (v : DomSt) : State := s.setDoms (KMap.put {} s.doms d v)

/-- Whether the port's receive clock, or transmit clock, has stopped (02_boundary_and_access.md R41). -/
def Port.lost (p : Port) (tx : Bool) : Bool := if tx then p.txLost else p.rxLost
/-- Records that one of the port's clocks has stopped or runs again. -/
def Port.setLost (p : Port) (tx v : Bool) : Port := if tx then { p with txLost := v } else { p with rxLost := v }
/-- Whether a byte clock of the port is lost (18_faults_and_selftest.md R418). -/
def Port.clkLost (p : Port) : Bool := p.rxLost || p.txLost
/-- Whether the trunk's receive clock, or transmit clock, has stopped (02_boundary_and_access.md R41). -/
def Trunk.lost (v : Trunk) (tx : Bool) : Bool := if tx then v.txLost else v.rxLost
/-- Records that one of the trunk's clocks has stopped or runs again. -/
def Trunk.setLost (v : Trunk) (tx b : Bool) : Trunk := if tx then { v with txLost := b } else { v with rxLost := b }
/-- Whether a lane clock of the trunk is lost (18_faults_and_selftest.md R418). -/
def Trunk.clkLost (v : Trunk) : Bool := v.rxLost || v.txLost

/-- Trunk `t`. -/
def State.trunk (s : State) (t : Nat) : Trunk := KMap.get {} s.trunks t
/-- Replaces trunk `t`. -/
def State.setTrunk (s : State) (t : Nat) (v : Trunk) : State := s.setTrunks (KMap.put {} s.trunks t v)

/-! ### Boundary and free values -/

/-- Records what the block drives at its boundary. DESIGN CHOICE, notes/assumptions/3.md. -/
def State.emit (s : State) (o : Out) : State := s.setOut (s.out ++ [o])

/-- Uses up the next free value (Config.freeValue at the counter `free`). DESIGN CHOICE, notes/assumptions/5.md. -/
def State.useFree (s : State) : State := s.setFree (s.free + 1)

/-- The next free value. DESIGN CHOICE, notes/assumptions/5.md. -/
def State.freeVal (s : State) : BitVec 64 := Config.freeValue s.free

/-- Applies a state change for each element of a list, from the first on. -/
def forEach {α : Type} (l : List α) (f : α → State → State) (s : State) : State := l.foldl (fun s a => f a s) s

/-! ### The block's own facts -/

/-- The operating mode (01_block_and_halves.md R24). -/
def State.mode (s : State) : Nat := s.fget F.BLK_MODE.MODE

/-- The field of BLK_HALF that shows half `h`'s mode copy (R19, R35). DESIGN CHOICE, notes/assumptions/19.md. -/
def modeCopy (h : Nat) : Fld := if h = 0 then F.BLK_HALF.MODE_A else F.BLK_HALF.MODE_B

/-- Half `h`'s copy of the mode. -/
def State.hmode (s : State) (h : Nat) : Nat := s.fget (modeCopy h)

/-- The field of BLK_HALF that shows half `h`'s claim (R30). -/
def claimFld (h : Nat) : Fld := if h = 0 then F.BLK_HALF.CLAIM_A else F.BLK_HALF.CLAIM_B

/-- The leader half: 0 half A, 1 half B (R30, R35). -/
def State.leader (s : State) : Nat := s.fget F.BLK_HALF.LEADER

/-- Whether a power domain is powered and not isolated (16_power_and_wake.md R381). -/
def State.domOn (s : State) (d : Nat) : Bool := (s.dom d).psw && !(s.dom d).iso

/-- A domain's TARGET: 0 ON, 1 RET, 2 OFF. -/
def State.target (s : State) (d : Nat) : Nat := s.fget (F.PWR_DOM.TARGET d)
/-- A domain's STATE: 0 ON, 1 RET, 2 OFF, 3 changing. -/
def State.domState (s : State) (d : Nat) : Nat := s.fget (F.PWR_DOM.STATE d)

/-- Whether domain `d` is leaving ON, or undoes its entry: it takes no new work (16_power_and_wake.md R386). -/
def State.quiesced (s : State) (d : Nat) : Bool :=
  match (s.dom d).phase with
  | .enter _ _ => true
  | .unwind _ _ => true
  | _ => false

/-- Whether the half's reset is held (02_boundary_and_access.md R38). -/
def State.halfInReset (s : State) (h : Nat) : Bool :=
  s.rst.blk || (if h = 0 then s.rst.a else s.rst.b)

/-- Whether half `h` is present. -/
def State.hasHalf (s : State) (h : Nat) : Bool := decide (h < s.cfg.halves)

/-- The halves present. -/
def State.halfList (s : State) : List Nat := List.range s.cfg.halves

/-- Nanoseconds per second in units of 2^-40 ns. -/
def secUnits : Nat := 1000000000 * 2 ^ 40

/-- Seconds of a time value (03_time_and_cycles.md R66). -/
def timeSec (t : Nat) : Nat := t / secUnits
/-- Nanoseconds of a time value. -/
def timeNs (t : Nat) : Nat := t / 2 ^ 40 % 1000000000
/-- Fraction of a time value, in 1/65,536 ns. -/
def timeFrac (t : Nat) : Nat := t / 2 ^ 24 % 65536
/-- T of R86: seconds × 10^9 + nanoseconds. -/
def timeT (t : Nat) : Nat := t / 2 ^ 40

end Sys2Proof.Machine
end

