-- ==== Sys2Proof/Machine/Flags.lean ====
section
/-!
DEFINITION. Status flags and interrupt sources: the numbers of 15_interrupts.md R370 and R371, and setting a status bit
together with its source.
-/
namespace Sys2Proof.Machine

/-! ### Source numbers (R370) -/

/-- Base of the sources of half `h`'s time base. -/
def srcTb (_c : Cfg) (h : Nat) : Nat := 32 + 4 * h
/-- Base of the sources of generator `g`. -/
def srcGen (c : Cfg) (g : Nat) : Nat := c.pick 36 40 + 4 * g
/-- The source of trigger `n`. -/
def srcTrig (c : Cfg) (n : Nat) : Nat := c.pick 68 72 + n
/-- Base of the sources of capture `n`. -/
def srcCap (c : Cfg) (n : Nat) : Nat := c.pick 100 104 + 2 * n
/-- Base of the spine's sources: +0 memory, +1 DMA completion queue. -/
def srcSpine (c : Cfg) : Nat := c.pick 132 136
/-- Base of the sources of field port `p`. -/
def srcPort (c : Cfg) (p : Nat) : Nat := c.pick 136 144 + 16 * p
/-- Base of the sources of trunk `t`. -/
def srcTrunk (c : Cfg) (t : Nat) : Nat := c.pick 200 272 + 16 * t
/-- Base of the sources of DMA channel `n`. -/
def srcDma (c : Cfg) (n : Nat) : Nat := c.pick 216 304 + 2 * n
/-- Base of the sources of check unit `n`. -/
def srcChk (c : Cfg) (n : Nat) : Nat := c.pick 248 368 + 8 * n
/-- Base of the sources of engine `e`. -/
def srcEng (c : Cfg) (e : Nat) : Nat := c.pick 264 400 + 16 * e
/-- The source of queue pair `q`. -/
def srcQp (c : Cfg) (q : Nat) : Nat := c.pick (384 + q % 128) (768 + q % 256)

/-! ### Pending bits -/

/-- The pending bit of source `n`. -/
def pendFld (n : Nat) : Fld := ⟨O.IRQ_PEND (n / 32), n % 32, 1⟩
/-- The active bit of source `n`. -/
def actFld (n : Nat) : Fld := ⟨O.IRQ_ACT (n / 32), n % 32, 1⟩

/-- An event of source `n`: its pending bit is set, enabled or not (R372). -/
def State.raise (s : State) (n : Nat) : State :=
  if n < s.cfg.irqSources then s.fset (pendFld n) 1 else s

/-- An event of an always-on source: its edge is latched until the spine takes it (R373). -/
def State.raiseAon (s : State) (n : Nat) : State :=
  if n ∈ s.latches then s else s.setLatches (s.latches ++ [n])

/-- Sets a status bit and raises its source. -/
def State.setFlag (s : State) (f : Fld) (src : Nat) : State := (s.fset f 1).raise src

/-- The engine's condition code cc: [3] N, [2] Z, [1] C, [0] V (10_engine_instructions.md R263). -/
def mkCc (n z c v : Bool) : Nat := 8 * b2n n + 4 * b2n z + 2 * b2n c + b2n v

end Sys2Proof.Machine
end

