-- ==== Sys2Proof/Machine/ThreadOps.lean ====
section
/-!
DEFINITION. Engine threads as the units see them: their state, their events, release and halt, and the engine memories
(09_engine_threads.md R236 to R253).
-/
namespace Sys2Proof.Machine

/-- Number of thread `n` of engine `e` among all threads. -/
def thrKey (e n : Nat) : Nat := 8 * e + n

/-- Thread `n` of engine `e`. -/
def State.thr (s : State) (e n : Nat) : Thread := KMap.get {} s.threads (thrKey e n)
/-- Replaces thread `n` of engine `e`. -/
def State.setThr (s : State) (e n : Nat) (v : Thread) : State := s.setThreads (KMap.put {} s.threads (thrKey e n) v)

/-- STATE of a thread (R243). -/
def State.thrState (s : State) (e n : Nat) : Nat := s.fget (F.CE_THR_STAT.STATE e n)
/-- Sets STATE. -/
def State.setThrState (s : State) (e n v : Nat) : State := s.fset (F.CE_THR_STAT.STATE e n) v

/-- The thread is UNRELEASED, HALTED or FAULTED (R245). -/
def State.thrStopped (s : State) (e n : Nat) : Bool := decide (s.thrState e n ≠ 1 ∧ s.thrState e n ≠ 2)

/-- Counter `k` of engine `e` (R261). -/
def State.ceCnt (s : State) (e k : Nat) : State := s.cnt (O.CE_CNT e k)

/-- pc of a thread: the resume address, and the next pc while it runs. -/
def State.pcOf (s : State) (e n : Nat) : Nat := 4 * s.fget (F.CE_THR_PC.PC e n)
/-- Sets the pc, which wraps modulo 32 KiB (R238). -/
def State.setPc (s : State) (e n pc : Nat) : State := s.fset (F.CE_THR_PC.PC e n) (pc / 4 % 8192)

/-! ### Events (R250) -/

/-- The pending bit of an event. -/
def evtFld (e n b : Nat) : Fld := ⟨O.CE_THR_EVT e n, b, 1⟩

/-- Latches an edge event. -/
def State.postEvt (s : State) (e n b : Nat) : State := s.fset (evtFld e n b) 1

/-- Latches an edge event of the thread of a thread number. -/
def State.postThr (s : State) (k b : Nat) : State := s.postEvt (k / 8) (k % 8) b

/-- Whether a host queue bound to thread `k` holds work (11_functions_and_queues.md R313). -/
def State.hostq (s : State) (k : Nat) : Bool :=
  s.qps.any fun q => q.2.en && q.2.service && q.2.thread == k && (q.2.txTail != q.2.txHead || !q.2.room.isEmpty)

/-- Whether the dictionary mailbox of engine `e` holds a forwarded request (17_parameter_dictionary.md R406). -/
def State.mailboxPend (s : State) (e : Nat) : Bool :=
  s.dic.fwd.isSome && s.flag F.DIC_MBX.EN && decide (s.fget F.DIC_MBX.ENGINE = e)

/-- The pending events of a thread: latched edges and present levels. -/
def State.pendEvents (s : State) (e n : Nat) : Nat :=
  let edges := getBits (s.rd (O.CE_THR_EVT e n)) 0 16
  let v := s.thr e n
  Nat.lor edges (b2n (!v.rxq.isEmpty) + 1024 * b2n (s.hostq (thrKey e n)) + 4096 * b2n (s.mailboxPend e))

/-- The level events: RX, HOSTQ, MAILBOX. -/
def levelMask : Nat := 1 + 1024 + 4096

/-- Whether the cluster of engine `e` is ON and its half out of reset. -/
def State.engineOn (s : State) (e : Nat) : Bool :=
  decide (e < s.cfg.engines) && s.domOn (4 + s.cfg.clusterOf e) && !s.halfInReset (s.cfg.halfOfEngine e)

/-- A boundary of generator `g` raises CYCLE in the threads of the engines that name it and are ON (R252). -/
def State.cycleEvents (s : State) (g : Nat) : State :=
  forEach ((List.range s.cfg.engines).filter fun e => s.engineOn e &&
      s.cfg.halfOfEngine e == s.cfg.halfOfGen g && s.fget (F.CE_CTL.CYC_GEN e) == g)
    (fun e s => forEach (List.range 8) (fun n s => s.postEvt e n 11) s) s

/-! ### Release and halt (R242 to R248) -/

/-- First unit and end of a thread's slice, in units of 256 bytes (R241). DEDUCED, notes/assumptions/38.md. -/
def State.sliceOf (s : State) (e n : Nat) : Nat × Nat :=
  let b := s.fget (F.CE_THR_SLICE.BASE e n)
  (b, b + s.fget (F.CE_THR_SLICE.SIZE_M1 e n) + 1)

/-- Whether a release accepts the thread's slice (R242). -/
def State.sliceOk (s : State) (e n : Nat) : Bool :=
  let a := s.sliceOf e n
  decide (a.2 ≤ 256) &&
    (List.range 8).all fun m =>
      m == n || s.thrState e m == 0 ||
        (let b := s.sliceOf e m
         decide (a.2 ≤ b.1 ∨ b.2 ≤ a.1))

/-- A release reaches a thread (R244). -/
def State.releaseThread (s : State) (e n : Nat) : State :=
  if s.thrStopped e n then
    if s.sliceOk e n then (s.fset (F.CE_THR_STAT.FCAUSE e n) 0).setThrState e n 1
    else s.setFlag (F.CE_THR_STAT.SLICE_ERR e n) (srcEng s.cfg e + 8)
  else s

/-- A halt reaches a thread (R244); a wait is abandoned and runs again on release. -/
def State.haltThread (s : State) (e n : Nat) : State := if s.thrStopped e n then s else s.setThrState e n 3

/-- A release and a halt in one cycle (R244): a collision, and halt wins. -/
def State.collideThread (s : State) (e n : Nat) : State :=
  ((s.setFlag (F.CE_THR_STAT.COLLIDE e n) (srcEng s.cfg e + 9)).ceCnt e 7).haltThread e n

/-- Releases and halts that reach a thread in one cycle. -/
def State.ctlThread (s : State) (e n : Nat) (rel halt : Bool) : State :=
  if rel = true ∧ halt = true then s.collideThread e n
  else if rel then s.releaseThread e n
  else if halt then s.haltThread e n
  else s

/-- Every thread of an engine is halted (R248). -/
def State.haltEngine (s : State) (e : Nat) : State := forEach (List.range 8) (fun n s => s.haltThread e n) s

/-- The block sets RUN := 0 on an engine, and every thread halts, also one that was released with RUN = 0 (R248). -/
def State.stopEngine (s : State) (e : Nat) : State := (s.fset (F.CE_CTL.RUN e) 0).haltEngine e

/-- The engines of half `h`. -/
def State.halfEngines (s : State) (h : Nat) : List Nat :=
  (List.range s.cfg.engines).filter fun e => s.cfg.halfOfEngine e == h

/-- Entry of half `h` to SAFEHOLD: RUN := 0 on every engine (R248). -/
def State.haltHalfEngines (s : State) (h : Nat) : State := forEach (s.halfEngines h) (fun e s => s.stopEngine e) s

/-- The release that a change of RUN from 0 to 1 sends (R247); a halt reaches the threads of `met` in the same cycle (R244). -/
def State.runRelease (s : State) (e met : Nat) : State :=
  let halt (n : Nat) : Bool := decide (met / 2 ^ n % 2 = 1)
  if s.flag (F.CE_CTL.COMPAT e) then
    forEach (List.range 8) (fun n s =>
      (if s.thrState e n = 0 ∧ halt n = false then s.setPc e n (0x100 * n) else s).ctlThread e n true (halt n)) s
  else s.ctlThread e 0 true (halt 0)

/-- Returns a thread to UNRELEASED with everything cleared (R244, last row). -/
def State.resetThread (s : State) (e n : Nat) : State :=
  let s := s.setThr e n {}
  let s := forEach (List.range 16) (fun r s => s.wr (O.CE_THR_G e n r) 0) s
  ((s.wr (O.CE_THR_EVT e n) 0).wr (O.CE_THR_TIMER e n) 0).wr (O.CE_THR_STAT e n) 0

/-- A cluster returns from RET: a thread that was not UNRELEASED is HALTED at its pc, with no frames and no events
(R246). -/
def State.returnThread (s : State) (e n : Nat) : State :=
  let v := s.thr e n
  let s := (s.setThr e n { v with rxq := [], bound := none, disposed := false, trigs := [] }).wr (O.CE_THR_EVT e n) 0
  let s := s.fsets [(F.CE_THR_STAT.RXQ e n, 0), (F.CE_THR_STAT.BOUND e n, 0)]
  if s.thrState e n = 0 then s else s.setThrState e n 3

/-! ### Engine memories (R237, R240) -/

/-- Key of a byte of an engine's memories by its debug-window offset. -/
def ememKey (e off : Nat) : Nat := 0x40000 * e + off

/-- A byte of an engine's memories; an unlisted byte reads 0 (notes/assumptions/12.md). -/
def State.ebyte (s : State) (e off : Nat) : Byte := KMap.get 0 s.emem (ememKey e off)

/-- `k` bytes of an engine's memories. -/
def State.ebytes (s : State) (e off k : Nat) : List Byte := (rangeFrom off k).map fun o => s.ebyte e o

/-- Writes bytes into an engine's memories. DESIGN CHOICE, notes/assumptions/12.md. -/
def State.eput (s : State) (e off : Nat) (bs : List Byte) : State :=
  s.setEmem ((bs.foldl (fun (a : Nat × KMap Byte) b => (a.1 + 1, KMap.put 0 a.2 (ememKey e a.1) b)) (off, s.emem)).2)

/-- Word 3 of splice entry `i` of engine `e` (R257). -/
def spliceWord3 (i : Nat) : Nat := 0x28000 + 0x10 * i + 12

/-- Sets or clears a bit of a splice entry's word 3. -/
def State.spliceBit (s : State) (e i b : Nat) (v : Bool) : State :=
  let w : Word := BitVec.ofNat 32 (leNat (s.ebytes e (spliceWord3 i) 4))
  s.eput e (spliceWord3 i) (natLe 4 (setBits w b 1 (b2n v)).toNat)

/-- Reports an edit's outcome in its entry's word 3: QUEUED as given, and the other bits set (R258). BUSY belongs to the entry's own
fetch: an earlier edit of an entry armed again leaves it alone. -/
def State.spliceNote (s : State) (ed : Edit) (queued : Bool) (bits : List Nat) : State :=
  let e := ed.thread / 8
  let s := s.spliceBit e ed.entry 30 queued
  forEach bits (fun b s => s.spliceBit e ed.entry b true) s

end Sys2Proof.Machine
end

