-- ==== Sys2Proof/Machine/ChkOps.lean ====
section
/-!
DEFINITION. The check units as the units see them: taking bytes, the running value, the start and the end of a run
(14_check_units_safety_island.md R357 to R367).
-/
namespace Sys2Proof.Machine

/-- Check unit `n`. -/
def State.chk (s : State) (n : Nat) : Chk := KMap.get {} s.chks n
/-- Replaces check unit `n`. -/
def State.setChk (s : State) (n : Nat) (v : Chk) : State := s.setChks (KMap.put {} s.chks n v)

/-- The half of unit `n` (R357). -/
def chkHalf (c : Cfg) (n : Nat) : Nat := c.pick 0 (n / 2)

/-- Whether unit `n` works: present, with SAFE and its half ON (R357). -/
def State.chkUp (s : State) (n : Nat) : Bool :=
  decide (n < s.cfg.checkUnits) && s.domOn 42 && !s.rst.safe && s.domOn (2 + chkHalf s.cfg n)

/-- W of R362. -/
def State.chkW (s : State) (n : Nat) : Nat := s.fget (F.CHK_CFG.WIDTH_M1 n) + 1

/-- Bytes of the expected value at the end of a run (R362). -/
def State.chkTail (s : State) (n : Nat) : Nat := if s.flag (F.CHK_CFG.EXP_SRC n) then cdiv (s.chkW n) 8 else 0

/-- Bytes that the CRC covers (R362). -/
def State.chkCover (s : State) (n : Nat) : Nat := s.fget (F.CHK_LEN.LEN n) - s.chkTail n

/-- Bytes of the alive field (R365). -/
def State.chkAliveLen (s : State) (n : Nat) : Nat := cdiv (s.fget (F.CHK_ALIVE.AW n)) 8

/-- One bit through a CRC register of `w` bits. -/
def crcBit (w poly acc b : Nat) : Nat :=
  let top := (acc / 2 ^ (w - 1) + b) % 2
  Nat.xor (acc * 2 % 2 ^ w) (if top = 1 then poly % 2 ^ w else 0)

/-- One byte through a CRC register (R362). -/
def crcAny (w poly : Nat) (refin : Bool) (acc : Nat) (x : Byte) : Nat :=
  (List.range 8).foldl (fun a i => crcBit w poly a (x.toNat / 2 ^ (if refin then i else 7 - i) % 2)) acc

/-- `w` bits in reverse order. -/
def revBits (w n : Nat) : Nat := (List.range w).foldl (fun a i => a + n / 2 ^ i % 2 * 2 ^ (w - 1 - i)) 0

/-- The value of the register after REFOUT and XOROUT (R362, R364). -/
def State.chkValue (s : State) (n : Nat) : Nat :=
  let w := s.chkW n
  let a := (s.chk n).acc
  Nat.xor (if s.flag (F.CHK_CFG.REFOUT n) then revBits w a else a) (s.rd64 (O.CHK_XOROUT n) % 2 ^ w)

/-- Writes a CRC value and a count into CHK_n_RESULT, with VALID as given (R364). -/
def State.chkShow (s : State) (n : Nat) (valid : Bool) : State :=
  (s.wr64 (O.CHK_RESULT n + 4) (s.chkValue n)).fsets [(F.CHK_RESULT.VALID n, b2n valid), (F.CHK_RESULT.COUNT n, (s.chk n).taken)]

/-- One byte is taken (R362, R365). -/
def State.chkByte (s : State) (n : Nat) (x : Byte) : State :=
  let v := s.chk n
  let i := v.taken
  let covered := decide (i < s.chkCover n)
  let ao := s.fget (F.CHK_ALIVE.AOFS n)
  s.setChk n
    { v with taken := i + 1
             acc := if covered then crcAny (s.chkW n) (s.rd64 (O.CHK_POLY n)) (s.flag (F.CHK_CFG.REFIN n)) v.acc x else v.acc
             tail := if covered then v.tail else v.tail ++ [x]
             alive := if ao ≤ i ∧ i < ao + s.chkAliveLen n then v.alive ++ [x] else v.alive }

/-- Bytes that the run still needs. -/
def State.chkNeeds (s : State) (n : Nat) : Nat := s.fget (F.CHK_LEN.LEN n) - (s.chk n).taken

/-- Takes bytes, as far as the run needs them; the result register shows the running value (R361, R364).
DESIGN CHOICE, notes/assumptions/42.md. -/
def State.chkTake (s : State) (n : Nat) (bs : List Byte) : State :=
  let l := bs.take (s.chkNeeds n)
  if l.isEmpty then s
  else
    let s := if s.flag (F.CHK_RESULT.VALID n) then s.fsets [(F.CHK_RESULT.ALIVE n, 0), (F.CHK_RESULT.END n, 0), (F.CHK_RESULT.ALIVE_VAL n, 0)] else s
    (forEach l (fun x s => s.chkByte n x) s).chkShow n false

/-- Raises interrupt source `k` of unit `n` (15_interrupts.md R371). -/
def State.raiseChk (s : State) (n k : Nat) : State := s.raise (srcChk s.cfg n + k)

/-- The result record goes to the shared memory of the engine that fed last, and CHK is raised in the thread (R363,
R366). DESIGN CHOICE, notes/assumptions/42.md. -/
def State.chkRecord (s : State) (n : Nat) : State :=
  match (s.chk n).feeder with
  | some k =>
    if s.flag (F.CHK_CFG.SRC n) then
      let bs := ((List.range 4).map fun i => natLe 4 (s.rd (O.CHK_RESULT n + 4 * i)).toNat).flatten
      (s.eput (k / 8) (0x20000 + getBits (s.rd (O.CHK_CFG n)) 4 11 * 16) bs).postThr k 13
    else s
  | none => s

/-- The run's registers return to the start of a run: INIT in the CRC register (R359, R363). -/
def State.chkLoad (s : State) (n : Nat) : State :=
  s.setChk n { s.chk n with taken := 0, acc := s.rd64 (O.CHK_INIT n) % 2 ^ s.chkW n, tail := [], alive := [] }

/-- A run ends with END `e` and ALIVE `al` of alive value `av` (R363): DONE, the result, its record and CHK; with REARM and
END at most 3 the next run starts, unless SAFE leaves ON (16_power_and_wake.md R386). -/
def State.chkEnd (s : State) (n e al av : Nat) : State :=
  let s := s.fsets [(F.CHK_STAT.END n, e), (F.CHK_STAT.ALIVE n, al), (F.CHK_STAT.DONE n, 1)]
  let s := s.raiseChk n 0
  let s := (s.chkShow n true).fsets [(F.CHK_RESULT.END n, e), (F.CHK_RESULT.ALIVE n, al), (F.CHK_RESULT.ALIVE_VAL n, av)]
  let s := if (s.chk n).taken = 0 then s else s.chkRecord n
  if s.flag (F.CHK_CTL.REARM n) = true ∧ e ≤ 3 ∧ s.quiesced 42 = false then s.chkLoad n else s.fset (F.CHK_STAT.STATE n) 0

/-- Whether the configuration of unit `n` passes R359 order 1. -/
def State.chkCfgOk (s : State) (n : Nat) : Bool :=
  let len := s.fget (F.CHK_LEN.LEN n)
  let aw := s.fget (F.CHK_ALIVE.AW n)
  decide (1 ≤ len ∧ len ≤ 16777216) && (!s.flag (F.CHK_CFG.EXP_SRC n) || decide (cdiv (s.chkW n) 8 < len)) &&
    (!s.flag (F.CHK_CFG.ALIVE_EN n) ||
      decide (4 ≤ aw ∧ aw ≤ 16 ∧ s.fget (F.CHK_ALIVE.AOFS n) + s.chkAliveLen n ≤ s.chkCover n))

/-- Whether the scan range of unit `n` passes R359 order 2. -/
def State.chkAddrOk (s : State) (n : Nat) : Bool :=
  s.flag (F.CHK_CFG.SRC n) || decide (s.rd64 (O.CHK_SCAN_ADDR n) + s.fget (F.CHK_LEN.LEN n) ≤ 2 ^ 44)

/-- An accepted GO (R359): the checks in order, then the run; the alive reference is not valid, the stale timer restarts.
DESIGN CHOICE, notes/assumptions/42.md. -/
def State.chkGo (s : State) (n : Nat) : State :=
  let v := s.chk n
  let s := (s.setChk n { v with ref := false, taken := 0, tail := [], alive := []
                                stale := s.flag (F.CHK_CFG.ALIVE_EN n) && decide (s.fget (F.CHK_ALIVE.STALE_US n) ≠ 0) }).chkLoad n
  let s := if s.flag (F.CHK_RESULT.VALID n) then s else s.chkShow n false
  if s.chkCfgOk n = false then s.chkEnd n 4 0 0
  else if s.chkAddrOk n = false then s.chkEnd n 5 0 0
  else s.fset (F.CHK_STAT.STATE n) 1

/-- The alive check at the end of a run (R365): ALIVE, the alive value, and the state after. -/
def State.chkAlive (s : State) (n e : Nat) : Nat × Nat × State :=
  let v := s.chk n
  let aw := s.fget (F.CHK_ALIVE.AW n)
  if s.flag (F.CHK_CFG.ALIVE_EN n) = false ∨ (e ≠ 1 ∧ e ≠ 3) then (0, 0, s)
  else
    let x := beNat v.alive % 2 ^ aw
    let last := s.fget (F.CHK_STAT.LAST n)
    let on := decide (s.fget (F.CHK_ALIVE.STALE_US n) ≠ 0)
    let take (s : State) : State := (s.setChk n { v with ref := true, stale := on }).fset (F.CHK_STAT.LAST n) x
    let err (s : State) : State := (s.fset (F.CHK_STAT.ALIVE_ERR n) 1).raiseChk n 2
    if v.ref = false then (1, x, take s)
    else if x = (last + 1) % 2 ^ aw then (2, x, take s)
    else if x = last then (3, x, err s)
    else (4, x, err (take s))

/-- The expected value of a run (R362). -/
def State.chkExpect (s : State) (n : Nat) : Nat :=
  (if s.flag (F.CHK_CFG.EXP_SRC n) then
    (if s.flag (F.CHK_CFG.EXP_LE n) then leNat (s.chk n).tail else beNat (s.chk n).tail)
   else s.rd64 (O.CHK_EXPECT n)) % 2 ^ s.chkW n

/-- A run whose last byte has been taken ends (R363, R365). -/
def State.chkFinish (s : State) (n : Nat) : State :=
  let e :=
    if s.flag (F.CHK_CFG.COMPARE n) then (if s.chkValue n = s.chkExpect n then 1 else 2) else 3
  let s := if e = 2 then (s.fset (F.CHK_STAT.MISMATCH n) 1).raiseChk n 1 else s
  let a := s.chkAlive n e
  a.2.2.chkEnd n e a.1 a.2.1

/-- The outcome of a feed of bytes by thread `k` (8 e + n) (R361, R367, 10_engine_instructions.md R282). -/
inductive Feed where
  | taken (s : State)
  | refused
  | wait

/-- Feeds bytes to unit `n`. DESIGN CHOICE, notes/assumptions/42.md. -/
def State.chkFeed (s : State) (n k : Nat) (bs : List Byte) : Feed :=
  if s.chkUp n = false ∨ chkHalf s.cfg n ≠ s.cfg.halfOfEngine (k / 8) ∨ s.flag (F.CHK_CFG.SRC n) = false
      ∨ s.flag (F.CHK_STAT.STATE n) = false then .refused
  else if s.chkNeeds n = 0 then (if s.flag (F.CHK_CTL.REARM n) then .wait else .refused)
  else
    let more := decide (s.chkNeeds n < bs.length)
    let s := (s.chkTake n bs)
    let s := s.setChk n { s.chk n with feeder := some k }
    .taken (if more then (s.fset (F.CHK_STAT.OVERFEED n) 1).raiseChk n 4 else s)

end Sys2Proof.Machine
end

