-- ==== Sys2Proof/Machine/TimeOps.lean ====
section
/-!
DEFINITION. The time base, the generators and the triggers as the units see them: a tick, a new time value, the
re-anchoring of generators, and whether a trigger output runs (03_time_and_cycles.md R66 to R93, R429).
-/
namespace Sys2Proof.Machine

/-- Distance between the windows of half A and half B (R69). -/
def tbOfs (h : Nat) : Nat := 0x8000 * h

/-- A field of the time-base registers of half `h` (R69). -/
def tbFld (f : Fld) (h : Nat) : Fld := ⟨f.off + tbOfs h, f.lo, f.wd⟩

/-- TB_RATE of half `h`, signed, in units of 2^-40 (R68). -/
def State.tbRate (s : State) (h : Nat) : Int := s.rdInt (O.TB_RATE + tbOfs h)

/-- What a tick adds, in units of 2^-40 ns (R67). DESIGN CHOICE, notes/assumptions/52.md. -/
def State.tickInc (s : State) (h : Nat) : Nat := (2 * 2 ^ 40 + 2 * s.tbRate h).toNat

/-- Time values wrap after 2^48 - 1 seconds. DESIGN CHOICE, notes/assumptions/52.md. -/
def timeWrap : Nat := 2 ^ 48 * secUnits

/-- Whether the time base of half `h` runs: in every mode except RESET and DORMANT (R77), out of reset and with its
clock (18_faults_and_selftest.md R417). -/
def State.tbRuns (s : State) (h : Nat) : Bool :=
  s.hasHalf h && !s.halfInReset h && decide (s.mode ≠ 0 ∧ s.mode ≠ 7) && !(s.tb h).lost

/-- The time of half `h` has gone from `t` to `t'`. An increase of the seconds makes PPS_OUT due where the half drives it and
enables it (R83). A new leader takes PPS_OUT over at its next second boundary, and gives no pulse for a second that the old
leader has marked already (R84). -/
def State.ppsMark (s : State) (h t t' : Nat) : State :=
  let p := s.pps
  let en := s.flag (tbFld F.TB_PPS.EN h)
  if timeSec t' ≤ timeSec t then s
  else if h = s.leader then
    if en = true ∧ (p.drv = h ∨ p.sec ≠ timeSec t') then s.setPps { p with drv := h, due := true, sec := timeSec t' }
    else s.setPps { p with drv := h }
  else if h = p.drv ∧ en = true then s.setPps { p with due := true, sec := timeSec t' }
  else s

/-- One tick of half `h`'s time base (R67). DESIGN CHOICE, notes/assumptions/4.md and notes/assumptions/52.md. -/
def State.tick (s : State) (h : Nat) : State :=
  if s.tbRuns h then
    let v := s.tb h
    let t' := (v.t + s.tickInc h) % timeWrap
    (s.setTb h { v with t := t', el := v.el + s.tickInc h }).ppsMark h v.t t'
  else s

/-- The time base of half `h` restarts at time 0 (R77), and every generator of the half stops (R429). -/
def State.tbRestart (s : State) (h : Nat) : State :=
  let s := (s.setTb h {}).fsets
    [(tbFld F.TB_STAT.SET_DONE h, 0), (tbFld F.TB_STAT.STEP_USED h, 0), (tbFld F.TB_STAT.STEP_HW h, 0)]
  forEach ((List.range 8).filter fun n => s.cfg.halfOfGen n == h) (fun n s =>
    (s.fsets [(F.CTU_GEN_CFG.EN n, 0), (F.CTU_GEN_STAT.RUN n, 0)]).setGen n {}) s

/-- What the crossing still carries from the half that led goes with the lead, or with the link (R70).
DESIGN CHOICE, notes/assumptions/53.md. -/
def State.dropFollow (s : State) : State :=
  forEach s.halfList (fun h s => s.setTb h { s.tb h with follow := [] }) s

/-! ### Generators -/

/-- The first boundary at or after instant `b` ns (R86). -/
def State.genFirst (s : State) (n b : Nat) : Nat :=
  let p := max 1 (s.fget (F.CTU_GEN_PERIOD.PERIOD n))
  let ph := s.fget (F.CTU_GEN_PHASE.PHASE n)
  if s.flag (F.CTU_GEN_CFG.BIND n) then b + (p + ph - b % p) % p
  else
    let st : Int := ((s.gen n).start : Int) + s.rdInt (O.CTU_GEN_ACC n)
    if (b : Int) ≤ st then st.toNat
    else (st + (p : Int) * (((b : Int) - st + (p : Int) - 1) / (p : Int))).toNat

/-- The settings of a generator that take effect at a boundary (R88). -/
def State.genLatch (s : State) (n : Nat) (g : Gen) : Gen :=
  { g with
    maxStep := s.fget (F.CTU_GEN_CFG.MAXSTEP n)
    miss := s.fget (F.CTU_GEN_CFG.SYNC_MISS n)
    edge := s.fget (F.CTU_GEN_CFG.SYNC_EDGE n)
    ofs := s.fget (F.CTU_GEN_SYNC_OFS.OFS n) }

/-- Generator `n` re-anchors on the time of its half: its next boundary is the first one at or after this tick, with the
whole accumulated shift. A step produces none again that was produced before, and none that it jumps over even after a later
step back; a set begins a fresh sequence. STEPPED is set (R89, R429). -/
def State.reanchor (s : State) (isSet : Bool) (n : Nat) : State :=
  if s.flag (F.CTU_GEN_CFG.EN n) then
    let now := cdiv (s.tb (s.cfg.halfOfGen n)).t (2 ^ 40)
    let g := s.gen n
    let floor := if isSet then 0 else if g.next < now then max now g.floor else g.floor
    let s := s.setGen n { g with next := s.genFirst n (max now floor), floor := floor, shift := 0 }
    s.setFlag (F.CTU_GEN_STAT.STEPPED n) (srcGen s.cfg n + 2)
  else s

/-- Every running generator of half `h` re-anchors (R89, R429). -/
def State.reanchorHalf (s : State) (h : Nat) (isSet : Bool) : State :=
  forEach ((List.range 8).filter (fun n => s.cfg.halfOfGen n == h)) (fun n s => s.reanchor isSet n) s

/-- Gives half `h` a new time value; running generators re-anchor. -/
def State.newTime (s : State) (h t : Nat) (isSet : Bool) : State :=
  let v := s.tb h
  ((s.setTb h { v with t := t }).ppsMark h v.t t).reanchorHalf h isSet

/-! ### Triggers -/

/-- Whether the setting of trigger `n` is correct (R91). DEDUCED, notes/assumptions/51.md. -/
def State.trigOk (s : State) (n : Nat) : Bool :=
  let g := s.fget (F.CTU_TRIG_CFG.GEN n)
  decide (s.cfg.halfOfGen g = s.cfg.halfOfTrig n ∧ s.fget (F.CTU_TRIG_OFS.OFS n) < s.fget (F.CTU_GEN_PERIOD.PERIOD g)
    ∧ 2 ≤ s.fget (F.CTU_TRIG_WIDTH.WIDTH n))

/-- Whether the mode lets the trigger outputs of half `h` run (R93). -/
def State.trigMode (s : State) (h : Nat) : Bool :=
  decide (s.hmode h = 4 ∨ s.hmode h = 5 ∨ (s.hmode h = 3 ∧ s.fget (tbFld F.TB_STAT.JOINED h) = 1))

/-- Whether trigger `n` runs (R90, R91, R93). -/
def State.trigRuns (s : State) (n : Nat) : Bool :=
  s.flag (F.CTU_TRIG_CFG.EN n) && s.trigOk n && s.trigMode (s.cfg.halfOfTrig n)

/-- The level of an output between pulses (R90). DEDUCED, notes/assumptions/51.md. -/
def idleLevel (pol : Bool) : Bool := pol

/-- Drives CTU_TRIG[n]. -/
def State.driveTrig (s : State) (n : Nat) (v : Trig) : State :=
  let old := (s.trig n).level
  let s := s.setTrig n v
  if v.level = old then s else s.emit (.trig n v.level)

/-- Brings trigger `n` to what its mode, enable and setting ask: running outputs start between pulses, others hold their
park level, and a pulse in progress is cut with CUT set (R90, R91, R93). In RESET the output is 0 (R37). -/
def State.syncTrig (s : State) (n : Nat) : State :=
  let v := s.trig n
  if s.hmode (s.cfg.halfOfTrig n) = 0 then s.driveTrig n { v with level := false, running := false, pulse := none, rises := [] }
  else if s.trigRuns n then
    if v.running then s
    else
      let pol := s.flag (F.CTU_TRIG_CFG.POL n)
      s.driveTrig n
        { level := idleLevel pol, running := true, pulse := none, pol := pol
          gen := s.fget (F.CTU_TRIG_CFG.GEN n), ofs := s.fget (F.CTU_TRIG_OFS.OFS n)
          width := s.fget (F.CTU_TRIG_WIDTH.WIDTH n), after := 0, rises := [] }
  else
    let s := s.driveTrig n { v with level := s.flag (F.CTU_TRIG_CFG.PARK n), running := false, pulse := none, rises := [] }
    if v.pulse.isSome then s.setFlag (F.CTU_TRIG_STAT.CUT n) (srcTrig s.cfg n) else s

/-- Brings every trigger output to what the mode asks. -/
def State.syncTrigs (s : State) : State := forEach (List.range 32) (fun n s => s.syncTrig n) s

/-- Checks the setting of trigger `n` and sets BIND_ERR where it is not correct (R91). DEDUCED, notes/assumptions/51.md. -/
def State.checkTrig (s : State) (n : Nat) : State :=
  if s.trigOk n then s else s.setFlag (F.CTU_TRIG_STAT.BIND_ERR n) (srcTrig s.cfg n)

/-- A boundary at instant `b` of generator `n` reaches trigger `k` (R90, R91). DEDUCED, notes/assumptions/51.md. -/
def State.trigBoundary (s : State) (n b k : Nat) : State :=
  let v := s.trig k
  if v.running = true ∧ v.gen = n ∧ v.after < b then
    let pol := s.flag (F.CTU_TRIG_CFG.POL k)
    let v' := { v with gen := s.fget (F.CTU_TRIG_CFG.GEN k), ofs := s.fget (F.CTU_TRIG_OFS.OFS k)
                       width := s.fget (F.CTU_TRIG_WIDTH.WIDTH k), pol := pol }
    let v' := if v.pulse.isSome then v' else { v' with level := idleLevel pol }
    if v'.gen = n then
      s.driveTrig k { v' with rises := v.rises ++ [⟨b + v'.ofs, v'.width, !pol⟩] }
    else s.driveTrig k { v' with after := b }
  else s

/-- Sets or clears TB_STAT.JOINED of every present half (R93). -/
def State.setJoined (s : State) (v : Nat) : State :=
  forEach s.halfList (fun h s => s.fset (tbFld F.TB_STAT.JOINED h) v) s

/-! ### Time values in registers and records -/

/-- The leader's time value (01_block_and_halves.md R35). -/
def State.leaderTime (s : State) : Nat := (s.tb s.leader).t

/-- A time value in units of 2^-16 ns. -/
def stampOf (t : Nat) : Int := (t / 2 ^ 24 : Nat)

/-- Latches a snapshot of half `h` (R78). -/
def State.snapshot (s : State) (h : Nat) : State :=
  let t := (s.tb h).t
  s.fsets
    [(tbFld F.TB_SNAP_NS.NS h, timeNs t), (tbFld F.TB_SNAP_NS_HELD.NS h, timeNs t),
     (tbFld F.TB_SNAP_FRAC.FRAC h, timeFrac t), (tbFld F.TB_SNAP_SEC_LO.SEC_LO h, timeSec t % 2 ^ 32),
     (tbFld F.TB_SNAP_SEC_HI.SEC_HI h, timeSec t / 2 ^ 32)]

end Sys2Proof.Machine
end

