-- ==== Sys2Proof/Machine/MemOps.lean ====
section
/-!
DEFINITION. Buffer memory as the units see it: granules, their allocation and placement, region rights
(13_buffer_memory_and_placement.md R341 to R346, R354, R355).
-/
namespace Sys2Proof.Machine

/-- The memory interrupt source (R353, R344). -/
def State.raiseMem (s : State) : State := s.raise (srcSpine s.cfg)

/-- Counter `k` of the memory. -/
def State.memCnt (s : State) (k : Nat) : State := s.cnt (O.MEM_CNT k)

/-- Granule `g`. -/
def State.gran (s : State) (g : Nat) : Gran := KMap.get {} s.mem.grans g

/-- Whether a granule is ALLOCATED or MOVING. -/
def Gran.live (v : Gran) : Bool := decide (v.state = 1 ∨ v.state = 2)

/-- Replaces granule `g`; MEM_BANK_STAT.LIVE of its bank follows. -/
def State.setGran (s : State) (g : Nat) (v : Gran) : State :=
  let was := (s.gran g).live
  let s := s.setMem { s.mem with grans := KMap.put {} s.mem.grans g v }
  let l := F.MEM_BANK_STAT.LIVE (g / 64)
  if was = v.live then s
  else if v.live then s.fset l (s.fget l + 1)
  else s.fset l (s.fget l - 1)

/-- Whether bank `b` can be accessed: present, its domain ON, and its half reachable (R343;
18_faults_and_selftest.md R420). -/
def State.bankOn (s : State) (b : Nat) : Bool :=
  let h := s.cfg.halfOfBank b
  decide (b < s.cfg.banks) && s.domOn (18 + b) && s.domOn (2 + h) && (s.half h).spine.up && !s.halfInReset h

/-- The granules of bank `b`. -/
def bankGrans (b : Nat) : List Nat := rangeFrom (64 * b) 64

/-- FREE granules of bank `b`. -/
def State.freeIn (s : State) (b : Nat) : Nat := ((bankGrans b).filter fun g => decide ((s.gran g).state = 0)).length

/-- Banks of half `h` in the configuration. -/
def State.halfBanks (s : State) (h : Nat) : List Nat := (List.range s.cfg.banks).filter fun b => s.cfg.halfOfBank b == h

/-- Whether the placement engine allocates in bank `b` (R343). -/
def State.bankOpen (s : State) (b : Nat) : Bool := s.bankOn b && !s.flag (F.MEM_BANK_STAT.NOALLOC b) && !s.quiesced (18 + b)

/-- The granule that an allocation among `banks` takes: the bank with the most FREE granules, the lowest on a tie, and
in it the lowest FREE granule (R346). -/
def State.pickGran (s : State) (banks : List Nat) : Option Nat :=
  let best := (banks.filter fun b => s.bankOpen b).foldl
    (fun (a : Option (Nat × Nat)) b =>
      let n := s.freeIn b
      match a with
      | none => if n = 0 then none else some (b, n)
      | some (_, m) => if m < n then some (b, n) else a) none
  match best with
  | none => none
  | some (b, _) => (bankGrans b).find? fun g => decide ((s.gran g).state = 0)

/-- Granules that an owner holds (R318): a move's new granule is counted with its old one. -/
def State.granUse (s : State) (owner : Nat) : Nat :=
  (s.mem.grans.filter fun e => e.2.live && e.2.owner == owner && !s.mem.move.any fun m => m.2 == e.1).length

/-- Whether an allocation of `n` granules fits the owner's quota (R318); function 0 and the block have none. -/
def State.granQuota (s : State) (owner n : Nat) : Bool :=
  if owner = 0 ∨ 256 ≤ owner then true
  else decide (s.granUse owner + n ≤ (KMap.get {} s.funcs owner : Func).maxGran)

/-- Whether master `m` may read (or write) granule `g` (R344). -/
def State.mayRead (s : State) (m g : Nat) : Bool := bitOf (s.rd (O.MEM_RGN_RD m (g / 32))) (g % 32)
/-- As `mayRead`, for a write. -/
def State.mayWrite (s : State) (m g : Nat) : Bool := bitOf (s.rd (O.MEM_RGN_WR m (g / 32))) (g % 32)

/-- A denied access (R344): the first one is logged, every one counts and raises the memory source. -/
def State.denyRegion (s : State) (m : Nat) (write : Bool) (addr : Nat) : State :=
  let s := (s.memCnt 6).raiseMem
  if s.flag F.MEM_RGN_LOG.VALID then s
  else s.fsets [(F.MEM_RGN_LOG.VALID, 1), (F.MEM_RGN_LOG.WRITE, b2n write), (F.MEM_RGN_LOG.MASTER, m), (F.MEM_RGN_LOG.ADDR, addr)]

/-- The state after `k` free bytes have been drawn, and the bytes. DESIGN CHOICE, notes/assumptions/34.md. -/
def State.freeBytes (s : State) : Nat → List Byte × State
  | 0 => ([], s)
  | k + 1 =>
    let b := s.freeVal.truncate 8
    let r := s.useFree.freeBytes k
    (b :: r.1, r.2)

/-- The poison of a granule after bytes [off, off + len) have been written: only words written whole are cleared
(R355). -/
def clearPoison (l : List Nat) (off len : Nat) : List Nat := l.filter fun w => !(decide (off ≤ 8 * w ∧ 8 * w + 8 ≤ off + len))

/-- Words written through the debug window are forgotten where a frame is placed over them. -/
def State.coverWords (s : State) (g off len : Nat) : State :=
  if s.mem.words.isEmpty then s
  else
    let a := 4096 * g + off
    s.setMem { s.mem with words := KMap.clear (fun w => decide (a < 8 * w + 8 ∧ 8 * w < a + len)) s.mem.words }

/-- A place of some bytes of a frame: granule, offset in it, first frame byte, number of bytes. -/
abbrev Part := Nat × Nat × Nat × Nat

/-- Packs the frame bytes from `lo` on, `left` of them, into granules of one owner and queue pair: first into the free
rest of the granule used last, then into new granules. `fuel` bounds the granules. DESIGN CHOICE, notes/assumptions/33.md. -/
def State.pack (s : State) (owner qp : Nat) (banks : List Nat) (lo left : Nat) (acc : List Part) :
    Nat → Option (List Part × State)
  | 0 => if left = 0 then some (acc, s) else none
  | fuel + 1 =>
    if left = 0 then some (acc, s)
    else
      let used := List.find? (fun e : Nat × Gran =>
        decide (e.2.state = 1 ∧ e.2.owner = owner ∧ e.2.qp = qp ∧ e.2.em = false ∧ e.2.fill < 4096 ∧ e.2.retire = false)
          && s.bankOpen (e.1 / 64)) s.mem.grans
      match used with
      | some (g, v) =>
        let n := min left (4096 - v.fill)
        let s := (s.coverWords g v.fill n).setGran g { v with fill := v.fill + n, poison := clearPoison v.poison v.fill n }
        s.pack owner qp banks (lo + n) (left - n) (acc ++ [(g, v.fill, lo, n)]) fuel
      | none =>
        match s.pickGran banks with
        | none => none
        | some g =>
          let n := min left 4096
          let v := s.gran g
          let s := (s.coverWords g 0 n).setGran g { state := 1, owner := owner, qp := qp, fill := n, poison := clearPoison v.poison 0 n }
          s.pack owner qp banks (lo + n) (left - n) (acc ++ [(g, 0, lo, n)]) fuel

/-- The outcome of placing a frame's bytes. -/
inductive Place where
  | placed (s : State) (parts : List Part)
  | quota          -- the owner's quota refuses it (R318)
  | full           -- no FREE granule in the allowed banks (R346)

/-- New granules that a packing has taken. -/
def newGrans (parts : List Part) : Nat := (parts.filter fun p => p.2.1 == 0).length

/-- Places `n` bytes for an owner and queue pair (R346, R318). DESIGN CHOICE, notes/assumptions/33.md. -/
def State.place (s : State) (owner qp : Nat) (banks : List Nat) (n : Nat) : Place :=
  match s.pack owner qp banks 0 n [] 8 with
  | none => .full
  | some (parts, s') => if s.granQuota owner (newGrans parts) then .placed s' parts else .quota

/-- The bytes that master `m` leaves in memory when it writes `bs` at its parts: a denied part is not written and holds
unrelated bytes (R344, R350). -/
def State.writeParts (s : State) (m : Nat) (parts : List Part) (bs : List Byte) : List Byte × State :=
  parts.foldl (fun (a : List Byte × State) p =>
    if a.2.mayWrite m p.1 then a
    else
      let r := (a.2.denyRegion m true (4096 * p.1 + p.2.1)).freeBytes p.2.2.2
      (patch a.1 p.2.2.1 r.1, r.2)) (bs, s)

/-- The bytes that master `m` reads: a denied part reads zeros (R344). DESIGN CHOICE, notes/assumptions/34.md. -/
def State.readParts (s : State) (m : Nat) (parts : List Part) (bs : List Byte) : List Byte × State :=
  parts.foldl (fun (a : List Byte × State) p =>
    if a.2.mayRead m p.1 then a
    else (patch a.1 p.2.2.1 (List.replicate p.2.2.2 0), a.2.denyRegion m false (4096 * p.1 + p.2.1))) (bs, s)

/-- Whether a part touches a poisoned word (R354). -/
def State.poisoned (s : State) (parts : List Part) : Bool :=
  parts.any fun p => (s.gran p.1).poison.any fun w => decide (8 * w < p.2.1 + p.2.2.2 ∧ p.2.1 < 8 * w + 8)

/-- Buffer address of the first poisoned word that a part touches, with its granule. -/
def State.firstPoison (s : State) (parts : List Part) : Option (Nat × Nat) :=
  parts.findSome? fun p => ((s.gran p.1).poison.find? fun w => decide (8 * w < p.2.1 + p.2.2.2 ∧ p.2.1 < 8 * w + 8)).map
    fun w => (p.1, 4096 * p.1 + 8 * w)

/-- Whether a part lies in a granule that is MOVING: accesses to it wait (R347). -/
def State.inMove (s : State) (parts : List Part) : Bool := parts.any fun p => decide ((s.gran p.1).state = 2)

/-- Marks a granule retired (R356). -/
def State.markRetired (s : State) (g : Nat) : State :=
  let s := s.setGran g { s.gran g with state := 3, retire := false, em := false, fill := 0, owner := 0, qp := 0xFFF, poison := [] }
  let s := s.fset ⟨O.MEM_RETIRED (g / 32), g % 32, 1⟩ 1
  let s := s.fset (F.MEM_BANK_STAT.RETIRED (g / 64)) (s.fget (F.MEM_BANK_STAT.RETIRED (g / 64)) + 1)
  (s.fset F.MEM_STAT.RETIRED (s.fget F.MEM_STAT.RETIRED + 1)).memCnt 4

/-- A granule's last frame or entry has gone: it becomes FREE, or RETIRED (R346, R348, R356). -/
def State.freeGran (s : State) (g : Nat) : State :=
  let v := s.gran g
  let s := s.setMem { s.mem with moves := s.mem.moves.filter (· != g) }
  if v.retire then s.markRetired g else s.setGran g { poison := v.poison }

/-- A reader meets poisoned words among the bytes [off, off + len) of granule `g`: in a FREE granule they are written with zeros and
good ECC (R354, R355). -/
def State.cleanFree (s : State) (g off len : Nat) : State :=
  let v := s.gran g
  if v.state = 0 ∧ v.poison ≠ [] then
    s.setGran g { v with poison := v.poison.filter fun w => !(decide (off < 8 * w + 8 ∧ 8 * w < off + len)) }
  else s

/-- Whether a frame lies in granule `g`. -/
def State.granUsed (s : State) (g : Nat) : Bool := s.frames.any fun f => f.2.parts.any fun p => p.1 == g

/-- Frees every ALLOCATED granule that holds no frame and no entry any more. -/
def State.sweepGrans (s : State) : State :=
  forEach s.mem.grans (fun e s =>
    if (s.gran e.1).state = 1 ∧ (s.gran e.1).em = false ∧ s.granUsed e.1 = false then s.freeGran e.1 else s) s

end Sys2Proof.Machine
end

