-- ==== Sys2Proof/Machine/QueueOps.lean ====
section
/-!
DEFINITION. Functions and queue pairs as the units see them: views, events to a function, and the completions of host
frames (11_functions_and_queues.md R286 to R320).
-/
namespace Sys2Proof.Machine

/-- Queue pair `q`. -/
def State.qp (s : State) (q : Nat) : Qp := KMap.get {} s.qps q
/-- Replaces queue pair `q`. -/
def State.setQp (s : State) (q : Nat) (v : Qp) : State := s.setQps (KMap.put {} s.qps q v)

/-- Function `f`; function 0 is always ACTIVE with all ports that the configuration has and all classes (R286, R314). -/
def State.func (s : State) (f : Nat) : Func :=
  let v : Func := KMap.get {} s.funcs f
  if f = 0 then { v with state := 1, admin := 0, ports := s.cfg.pick 0x10F 0x3FF, classLo := 0, classHi := 255 } else v

/-- Replaces function `f`. -/
def State.setFunc (s : State) (f : Nat) (v : Func) : State := s.setFuncs (KMap.put {} s.funcs f v)

/-- Counter `k` of the queue manager. -/
def State.qCnt (s : State) (k : Nat) : State := s.cnt (O.Q_CNT k)

/-- The handle of queue pair `q` (R288). -/
def State.handleOf (s : State) (q : Nat) : Nat := 2 ^ 24 * (s.qp q).gen + q

/-- Queue pairs that a function holds, its admin queue excluded (R318). -/
def State.qpUse (s : State) (f : Nat) : Nat := (s.qps.filter fun e => e.2.en && !e.2.admin && e.2.owner == f).length

/-! ### Events (R319) -/

/-- Whether an entry that is due is an event. -/
def Cqe.isEvent (c : Cqe) : Bool := decide (c.w0 / 2 ^ 28 = 4)

/-- An event entry reaches the admin completion ring of function `f`; beyond 8 held events it is lost and counted. -/
def State.postFnEvent (s : State) (f ev arg w1 w2 w3 : Nat) : State :=
  let v := s.func f
  if v.state = 0 then s
  else
    let q := v.admin
    let p := s.qp q
    if (p.due.filter Cqe.isEvent).length < 8 then
      s.setQp q { p with due := p.due ++ [⟨4 * 2 ^ 28 + ev * 2 ^ 16 + arg, w1, w2, w3⟩] }
    else s.setFunc f { (KMap.get {} s.funcs f : Func) with evtLost := min 15 (v.evtLost + 1) }

/-- A queue fault (R304, R319): Q_ERR_LOG and a QUEUE_FAULT event to the owner. -/
def State.queueFault (s : State) (q cause : Nat) : State :=
  let s := s.fsets [(F.Q_ERR_LOG.CAUSE, cause), (F.Q_ERR_LOG.FN, (s.qp q).owner), (F.Q_ERR_LOG.QP, q)]
  s.postFnEvent (s.qp q).owner 3 0 (s.handleOf q) cause 0

/-- A POISON event for a word of granule `g` at buffer address `a` (R319; 13_buffer_memory_and_placement.md R354): to the
owning function, for block-owned data to function 0. -/
def State.poisonEvent (s : State) (g a : Nat) : State :=
  let v := s.gran g
  if v.owner < 256 then s.postFnEvent v.owner 2 0 v.qp a 0 else s.postFnEvent 0 2 0 0xFFFFFFFF a 0

/-- Queue traffic meets the first poisoned word of some parts (13 R354). DESIGN CHOICE, notes/assumptions/35.md. -/
def State.meetPoison (s : State) (parts : List Part) : State :=
  match s.firstPoison parts with
  | some (g, a) => s.poisonEvent g a
  | none => s

/-- Brings the OVER_QUOTA event of a function up to date (R319): raised when use is above a quota, and again when it has
fallen back within all of them. -/
def State.quotaCheck (s : State) (f : Nat) (raise : Bool) : State :=
  if f = 0 ∨ 256 ≤ f then s
  else
    let v := s.func f
    let q := decide (v.maxQp < s.qpUse f)
    let g := decide (v.maxGran < s.granUse f)
    if (q || g) = true ∧ raise = true then
      (s.setFunc f { v with above := true }).postFnEvent f 1 0 (b2n q + 2 * b2n g) 0 0
    else if (q || g) = false ∧ v.above = true then
      (s.setFunc f { v with above := false }).postFnEvent f 1 0 (2 ^ 31) 0 0
    else s

/-! ### Transmit completions (R299 to R301) -/

/-- Status of a finished transmit descriptor (R298). -/
def HostTx.status (t : HostTx) : Nat :=
  if t.code ≠ 0 then t.code else if t.took = 0 then 7 else if t.missed ≠ 0 then 8 else 0

/-- Whether the frame had exactly one port destination (R297). -/
def HostTx.single (t : HostTx) : Bool := decide (t.nPorts = 1 ∧ t.nOther = 0)

/-- The completion of a finished transmit descriptor with `cnt` descriptors covered (R297). -/
def HostTx.cqe (t : HostTx) (cnt : Nat) : Cqe :=
  let st := if t.ts = true ∧ t.single = true ∧ t.took = 1 then t.stamp.toNat else 0
  { w0 := 2 ^ 28 + 2 ^ 24 * t.status + t.desc
    w1 := 2 ^ 16 * (if t.single then t.portStat else 0) + cnt
    w2 := st / 65536 % 1000000000
    w3 := st / 65536 / 1000000000 % 2 ^ 32 }

/-- Takes finished transmit descriptors of queue pair `q` in order: each produces a completion or stays silent; the
queue pair holds up to 4 due completions (R299, R301, R302). `fuel` bounds the descriptors. -/
def State.settleTx (s : State) (q : Nat) : Nat → State
  | 0 => s
  | fuel + 1 =>
    let p := s.qp q
    match p.txs with
    | [] => s
    | t :: rest =>
      if t.left ≠ 0 ∨ 4 ≤ p.due.length then s
      else
        let s := if t.took = 0 then s else s.qCnt 3
        let p := { p with txs := rest, sent := if t.took = 0 then p.sent else p.sent + 1 }
        let s :=
          if t.batch = true ∨ t.status ≠ 0 ∨ p.each = true then
            s.setQp q { p with due := p.due ++ [t.cqe (p.silent + 1)], silent := 0 }
          else s.setQp q { p with silent := p.silent + 1 }
        s.settleTx q fuel

/-- Settles every finished descriptor of a queue pair. -/
def State.settleQp (s : State) (q : Nat) : State := s.settleTx q (s.qp q).txs.length

/-- One destination of a host frame has finished: whether it took the frame, the transmit bits of its port status and
its egress stamp (R299, R297). -/
def State.hostDone (s : State) (host : Option (Nat × Nat)) (took : Bool) (stat : Nat) (stamp : Int) : State :=
  match host with
  | none => s
  | some (q, d) =>
    let p := s.qp q
    let upd (t : HostTx) : HostTx :=
      if t.desc = d ∧ t.left ≠ 0 then
        { t with left := t.left - 1, took := t.took + b2n took, missed := t.missed + b2n (!took)
                 portStat := stat, stamp := stamp }
      else t
    (s.setQp q { p with txs := p.txs.map upd }).settleQp q

/-- A host frame ends with a status code at every destination not finished yet (R298 POISON, NOT_TAKEN). -/
def State.hostCode (s : State) (host : Option (Nat × Nat)) (code : Nat) : State :=
  match host with
  | none => s
  | some (q, d) =>
    let p := s.qp q
    s.setQp q { p with txs := p.txs.map fun t => if t.desc = d ∧ t.left ≠ 0 then { t with code := code } else t }

end Sys2Proof.Machine
end

