-- ==== Sys2Proof/Machine/Crc.lean ====
section
/-!
DEFINITION. The checks over bytes that the spec names: the CRC-16 of cell headers and wake filters, the CRC-32 of frames,
the CRC-32C of overhead cells and of the store, and the payload scrambler.
-/
namespace Sys2Proof.Machine

/-- One byte through a CRC-16 with polynomial x^16 + x^12 + x^5 + 1, most significant bit first. -/
def crc16Byte (acc : Nat) (b : Byte) : Nat :=
  (List.range 8).foldl (fun a i =>
    let top := (a / 2 ^ 15 + b.toNat / 2 ^ (7 - i)) % 2
    Nat.xor (a * 2 % 65536) (if top = 1 then 0x1021 else 0)) acc

/-- The CRC-16 of 04_field_ports.md R118 and 05_trunk_cells.md R138: initial value 0xFFFF, no reflection. -/
def crc16 (bs : List Byte) : Nat := bs.foldl crc16Byte 0xFFFF

/-- One byte through a reflected 32-bit CRC with polynomial `poly`. -/
def crcRefByte (poly : Nat) (acc : Nat) (b : Byte) : Nat :=
  (List.range 8).foldl (fun a _ => Nat.xor (a / 2) (if a % 2 = 1 then poly else 0)) (Nat.xor acc b.toNat)

/-- A reflected CRC-32 with initial value and final XOR of all ones. -/
def crcRef (poly : Nat) (bs : List Byte) : Nat := Nat.xor (bs.foldl (crcRefByte poly) 0xFFFFFFFF) 0xFFFFFFFF

/-- The CRC-32 of 04_field_ports.md R104. -/
def crc32 (bs : List Byte) : Nat := crcRef 0xEDB88320 bs

/-- The CRC-32C of 06_trunk_overhead_gears_protection.md R160. -/
def crc32c (bs : List Byte) : Nat := crcRef 0x82F63B78 bs

/-- The four FCS bytes of a frame's bytes, as sent (IEEE 802.3: the CRC-32 least significant byte first). -/
def fcsOf (bs : List Byte) : List Byte := natLe 4 (crc32 bs)

/-- Whether a frame ends with a good FCS. -/
def fcsGood (bs : List Byte) : Bool :=
  decide (4 ≤ bs.length) && decide (bs.drop (bs.length - 4) = fcsOf (bs.take (bs.length - 4)))

/-- The HCS of an information word (05_trunk_cells.md R138). -/
def hcsOf (info : Nat) : Nat := Nat.xor (crc16 (natBe 4 info)) 0x5A5A

/-- Number of payload bits of a cell. -/
def payloadBits : Nat := 464

/-- Descrambles a cell's payload bits with the 43 bits before them (R140): the payload and the new history. -/
def descramble (hist p : Nat) : Nat × Nat :=
  (Nat.xor p ((hist * 2 ^ payloadBits + p) / 2 ^ 43) % 2 ^ payloadBits, p % 2 ^ 43)

/-- Scrambles `k` groups of 43 payload bits, most significant first, from the history on (R140). -/
def scrambleLoop (d : Nat) : Nat → Nat → Nat → Nat
  | 0, _, acc => acc
  | k + 1, hist, acc =>
    let w := Nat.xor (d / 2 ^ (43 * k) % 2 ^ 43) hist
    scrambleLoop d k w (acc * 2 ^ 43 + w)

/-- Scrambles a cell's 464 payload bits: ten groups of 43 bits and one of 34 (R140): the sent bits and the new
history. -/
def scramble (hist d : Nat) : Nat × Nat :=
  let a := scrambleLoop (d / 2 ^ 34) 10 hist 0
  let h := a % 2 ^ 43
  let w := Nat.xor (d % 2 ^ 34) (h / 2 ^ 9)
  let p := a * 2 ^ 34 + w
  (p, p % 2 ^ 43)

/-- The alternating history that the sender loads on a rise of EN: 43 bits, starting with a one (R140). -/
def scrambleInit : Nat := 0x55555555555

end Sys2Proof.Machine
end

