-- ==== Sys2Proof/Machine/TrunkOps.lean ====
section
/-!
DEFINITION. The trunk network as the units see it: switching requests and ring protection
(06_trunk_overhead_gears_protection.md R180 to R188), urgent cells waiting to be sent (R168, R169), and the overhead cell
a node sends (R158, R159).
-/
namespace Sys2Proof.Machine

/-- Whether trunk `t` is present, enabled and in cell mode (05_trunk_cells.md R131). -/
def State.cellTrunk (s : State) (t : Nat) : Bool :=
  decide (t < s.cfg.trunks) && s.flag (F.TRK_CFG.EN t) && decide (s.fget (F.TRK_CFG.MODE t) < 2)

/-- The enabled cell-mode trunks. -/
def State.cellTrunks (s : State) : List Nat := (List.range s.cfg.trunks).filter (fun t => s.cellTrunk t)

/-- This node's id. -/
def State.nodeId (s : State) : Nat := s.fget F.TRK_NODE.NODE_ID

/-! ### Urgent cells -/

/-- Copies of one urgent message: a triplicate (R169). -/
def triplicate (u : Urgent) : List Urgent := [{ u with copy := 0 }, { u with copy := 1 }, { u with copy := 2 }]

/-- Queues a triplicate on trunk `t`: type 1 ahead of types 2 and 3; the queue holds 16 cells (R169). Where it has no room for
three more, a type 1 triplicate takes the place of the last whole one of types 2 and 3, and any other is dropped whole:
DESIGN CHOICE, notes/assumptions/78.md. -/
def State.queueUrgent (s : State) (t : Nat) (u : Urgent) : State :=
  let v := s.trunk t
  let ones := v.urgent.filter (fun x => x.typ == 1)
  let rest := v.urgent.filter (fun x => x.typ != 1)
  let room := decide (v.urgent.length ≤ 13)
  if u.typ = 1 then
    if room then s.setTrunk t { v with urgent := ones ++ triplicate u ++ rest }
    else if 3 ≤ rest.length then s.setTrunk t { v with urgent := ones ++ triplicate u ++ rest.take (rest.length - 3) }
    else s
  else if room then s.setTrunk t { v with urgent := ones ++ rest ++ triplicate u }
  else s

/-! ### Requests (R180) -/

/-- The node's role: 0 line node, 1 ring member, 2 ring owner; 3 acts as 0; Gweip-S is a line node (R184, R188). -/
def State.ringRole (s : State) : Nat :=
  let r := s.fget F.TRK_RING_CFG.ROLE
  if s.cfg = .s ∨ r = 3 then 0 else r

/-- A request code as it counts: a code outside R180's table is No Request. -/
def normCode (c : Nat) : Nat := if c ∈ [0xF, 0xD, 0xB, 0x9, 0x7, 0x5] then c else 0

/-- Whether a code is one of the switch codes of R185. -/
def isSwitch (c : Nat) : Bool := decide (c = 0xD ∨ c = 0xB ∨ c = 0x9 ∨ c = 0x7)

/-- The local request on port `t`: its Forced Switch, Signal Fail, Signal Degrade or Manual Switch (R180); in Gweip-S
Signal Fail only (R188). -/
def State.portRequest (s : State) (t : Nat) : Nat :=
  if s.cfg = .s then 0xB * s.fget (F.TRK_PROT_STAT.SF t)
  else if t ∈ s.node.forced then 0xD
  else if s.flag (F.TRK_PROT_STAT.SF t) then 0xB
  else if s.flag (F.TRK_PROT_STAT.SD t) then 0x9
  else if t ∈ s.node.manual then 0x7
  else 0

/-- The node's own request: Lockout, the highest of its ports' requests, Wait-to-Restore of a ring owner, No Request.
DEDUCED, notes/assumptions/46.md. -/
def State.ownRequest (s : State) : Nat :=
  if s.node.lockout = true ∧ s.cfg ≠ .s then 0xF
  else
    let m := s.cellTrunks.foldl (fun a t => max a (s.portRequest t)) 0
    if m = 0 ∧ s.node.wtr = true ∧ s.ringRole = 2 then 0x5 else m

/-- The higher-ranked of two pairs, the first one winning a tie of codes when it is the node's own (R180). -/
def betterPair (own : Nat) (a b : Nat × Nat) : Nat × Nat :=
  let ca := normCode a.1
  let cb := normCode b.1
  if cb < ca then (ca, a.2)
  else if ca < cb then (cb, b.2)
  else if a.2 = own then (ca, a.2)
  else if b.2 = own then (cb, b.2)
  else if a.2 ≤ b.2 then (ca, a.2) else (cb, b.2)

/-- The pair that the node sends on port `t`: its own request or the latest pair received on its other port (R183), unless that
pair is its own come back (R170). -/
def State.sendPair (s : State) (t : Nat) : Nat × Nat :=
  let own := (s.ownRequest, s.nodeId)
  if s.cellTrunk (1 - t) = true ∧ (s.trunk (1 - t)).got.2 ≠ s.nodeId then betterPair s.nodeId own (s.trunk (1 - t)).got else own

/-- The pair shown as sent on port `t`. -/
def State.sentPair (s : State) (t : Nat) : Nat × Nat := (s.fget (F.TRK_PROT_STAT.TX_CODE t), s.fget (F.TRK_PROT_STAT.TX_ORIG t))

/-- Brings the pair sent on port `t` up to date; a change sends a type 1 triplicate (R183). The step from the registers' reset value
to No Request is no change: DESIGN CHOICE, notes/assumptions/79.md. -/
def State.updatePair (s : State) (t : Nat) : State :=
  let p := s.sendPair t
  let o := s.sentPair t
  if p = o then s
  else
    let s := s.fsets [(F.TRK_PROT_STAT.TX_CODE t, p.1), (F.TRK_PROT_STAT.TX_ORIG t, p.2)]
    if o = (0, 0) ∧ p.1 = 0 then s
    else s.queueUrgent t { typ := 1, copy := 0, orig := p.2, arg := 16 * p.1, sfn := s.fget F.TRK_SFN.SFN }

/-- Brings LOCAL_CODE and the pairs sent on every enabled cell-mode trunk up to date. -/
def State.updatePairs (s : State) : State :=
  forEach s.cellTrunks (fun t s => (s.fset (F.TRK_PROT_STAT.LOCAL_CODE t) (s.portRequest t)).updatePair t) s

/-! ### Ring protection (R184 to R188) -/

/-- A flush of SCOPE `k` (08_rules_courses_forwarding.md R229): its generation moves on, unless the last flush of that scope was
counted less than 64 cycles (40 ticks) ago; a sweep starts. -/
def State.flushGen (s : State) (k : Nat) : State :=
  let f := if k = 0 then F.CLS_FLUSH.GEN_T else F.CLS_FLUSH.GEN_A
  let near := match KMap.find? s.cls.flushed k with
    | some t => decide (s.ticks < t + 40)
    | none => false
  let s := s.fset F.CLS_FLUSH.SWEEP 1
  if near then s
  else (s.setCls { s.cls with flushed := KMap.insert s.cls.flushed k s.ticks }).fset f ((s.fget f + 1) % 4096)

/-- A flush (R186, R188): learned entries that point to a trunk fail every lookup; counted in FLUSHES, which Gweip-S does not have,
and GEN_T moves on (08_rules_courses_forwarding.md R229). DEDUCED, notes/assumptions/46.md. -/
def State.flushRing (s : State) : State :=
  (if s.cfg = .s then s else s.fsat F.TRK_RING_STAT.FLUSHES 1).flushGen 0

/-- Blocks or unblocks port `t` (R184); a block for Signal Fail or Signal Degrade is remembered as one until it ends (R185). -/
def State.block (s : State) (t v : Nat) : State :=
  let sig := decide (v ≠ 0) && ((s.trunk t).blockSig || s.flag (F.TRK_PROT_STAT.SF t) || s.flag (F.TRK_PROT_STAT.SD t))
  (s.setTrunk t { s.trunk t with blockSig := sig }).fset (F.TRK_PROT_STAT.BLOCKED t) v

/-- The request in effect on port `t` (R182). -/
def State.effPair (s : State) (t : Nat) : Nat × Nat := (s.fget (F.TRK_PROT_STAT.EFF_CODE t), s.fget (F.TRK_PROT_STAT.EFF_ORIG t))

/-- The node's top request (R185). -/
def State.topRequest (s : State) : Nat × Nat :=
  s.cellTrunks.foldl (fun a t => betterPair s.nodeId a (s.effPair t)) (s.ownRequest, s.nodeId)

/-- Blocks the ports that have a local switch request (R185). -/
def State.blockLocals (s : State) : State :=
  forEach (s.cellTrunks.filter (fun t => isSwitch (s.portRequest t))) (fun t s => s.block t 1) s

/-- The ring's protection state: 0 IDLE, 1 PROTECTING, 2 PENDING. -/
def State.ringState (s : State) : Nat := s.fget F.TRK_RING_STAT.STATE

/-- The owner unblocks OWNER_PORT unless its own request names that port (R185). -/
def State.ownerUnblock (s : State) : State :=
  let p := s.fget F.TRK_RING_CFG.OWNER_PORT
  if s.ringRole = 2 ∧ isSwitch (s.portRequest p) = false then s.block p 0 else s

/-- Sets the Wait-to-Restore request of the owner. DEDUCED, notes/assumptions/46.md. -/
def State.setWtr (s : State) (v : Bool) (left : Nat) : State :=
  (s.setNode { s.node with wtr := v }).fset F.TRK_RING_STAT.WTR_LEFT left

/-- Lockout comes into effect (R185): the owner blocks OWNER_PORT and stops WTR; Forced and Manual Switches and their
blocks are dropped, Signal Fail and Signal Degrade blocks stay. DEDUCED, notes/assumptions/46.md. -/
def State.ringLockout (s : State) : State :=
  let s := s.setNode { s.node with forced := [], manual := [], wtr := false }
  let s := forEach s.cellTrunks (fun t s =>
    if (s.trunk t).blockSig then s else s.block t 0) s
  let s := if s.ringRole = 2 then s.block (s.fget F.TRK_RING_CFG.OWNER_PORT) 1 else s
  s.fsets [(F.TRK_RING_STAT.WTR_LEFT, 0), (F.TRK_RING_STAT.LOCKED, 1), (F.TRK_RING_STAT.STATE, 0)]

/-- Enters PROTECTING from IDLE or PENDING (R185). -/
def State.ringProtect (s : State) (fromIdle : Bool) : State :=
  let s := s.blockLocals
  let s := if fromIdle then s.ownerUnblock else s.setWtr false 0
  s.flushRing.fset F.TRK_RING_STAT.STATE 1

/-- The owner starts Wait-to-Restore (R185). -/
def State.ringPending (s : State) : State :=
  (s.setWtr true (s.fget F.TRK_RING_CFG.WTR)).fset F.TRK_RING_STAT.STATE 2

/-- A member's ring returns to IDLE: every port still blocked for a cleared request is unblocked (R185). -/
def State.ringIdle (s : State) : State :=
  let s := forEach s.cellTrunks (fun t s => if isSwitch (s.portRequest t) then s else s.block t 0) s
  s.flushRing.fset F.TRK_RING_STAT.STATE 0

/-- One look of the ring table at the node's top request `r`, the one before being `old` (R185).
DEDUCED, notes/assumptions/46.md. -/
def State.ringTable (s : State) (r old : Nat × Nat) : State :=
  if r.1 = 0xF then (if s.flag F.TRK_RING_STAT.LOCKED then s else s.ringLockout)
  else
    let s := s.fset F.TRK_RING_STAT.LOCKED 0
    let st := s.ringState
    if st = 0 then (if isSwitch r.1 then s.ringProtect true else s)
    else if st = 1 then
      if isSwitch r.1 then (if r = old then s else s.blockLocals.flushRing)
      else if s.ringRole = 2 then (if r.1 = 0 then s.ringPending else s)
      else if r.1 = 5 then s.fset F.TRK_RING_STAT.STATE 2
      else s
    else
      if isSwitch r.1 then s.ringProtect false
      else if s.ringRole = 1 ∧ r.1 = 0 then s.ringIdle
      else s

/-- Runs the ring table on the node's top request; BLK_MODE.PROT follows the ring's state (R185, R187). A line node never
blocks a port (R188). An owner whose ring is IDLE blocks OWNER_PORT (R184). DEDUCED, notes/assumptions/46.md. -/
def State.ringRun (s : State) : State :=
  if s.ringRole = 0 then s
  else
    let r := s.topRequest
    let s := (s.ringTable r s.node.top)
    let s := s.setNode { s.node with top := r }
    let s := if s.ringRole = 2 ∧ s.ringState = 0 then s.block (s.fget F.TRK_RING_CFG.OWNER_PORT) 1 else s
    s.fset F.BLK_MODE.PROT (b2n (decide (s.ringState ≠ 0)))

/-- After a change of requests: pairs sent, ring table, and the pairs again for what the table changed. -/
def State.protUpdate (s : State) : State := s.updatePairs.ringRun.updatePairs

/-- Whether port `t` has local Signal Fail now (R181; 18_faults_and_selftest.md R418; 16_power_and_wake.md R395).
DEDUCED, notes/assumptions/46.md. -/
def State.sfNow (s : State) (t : Nat) : Bool :=
  let v := s.trunk t
  let h := s.cfg.halfOfTrunk t
  v.sfHeld || !v.pmaLock || v.clkLost || decide (s.hmode h = 6) || s.gasp.isSome || s.halfInReset h || !(s.half h).spine.up

/-- Brings the local Signal Fail of every enabled cell-mode trunk up to date, with all that follows. -/
def State.sfUpdate (s : State) : State :=
  (forEach s.cellTrunks (fun t s => s.fset (F.TRK_PROT_STAT.SF t) (b2n (s.sfNow t))) s).protUpdate

/-! ### Superframe numbers and the overhead cell -/

/-- The SFN of a time value (R158). -/
def sfnOf (t : Nat) : Nat := timeT t / 10000 % 2 ^ 32

/-- Whether SFN `m` is later than SFN `k` (R158). -/
def sfnLater (m k : Nat) : Bool :=
  let d := (m + 2 ^ 32 - k % 2 ^ 32) % 2 ^ 32
  decide (1 ≤ d ∧ d < 2 ^ 31)

/-- Seconds, nanoseconds and fraction of a stamp in 2^-16 ns. -/
def stampParts (x : Int) : Nat × Nat × Nat :=
  let n := x.toNat
  (n / 65536 / 1000000000, n / 65536 % 1000000000, n % 65536)

/-- TRK_CS_STAT.STATE: 0 OFF, 1 LISTEN, 2 COLDSEND, 3 INTEGRATING, 4 JOINED, 5 MASTER (R171). -/
def State.csState (s : State) : Nat := s.fget F.TRK_CS_STAT.STATE

/-- Whether the node is joined or master. DESIGN CHOICE, notes/assumptions/22.md. -/
def State.csJoined (s : State) : Bool := decide (s.csState = 4 ∨ s.csState = 5)

/-- The MASTER_ID and HOPS that the node sends (R159, R165, R171, R172). -/
def State.sendMaster (s : State) : Nat × Nat :=
  let st := s.csState
  if st = 5 ∨ st = 2 then (s.nodeId, 0)
  else if st = 4 then (s.fget F.TRK_CS_STAT.MASTER_ID, s.fget F.TRK_CS_STAT.HOPS)
  else if st = 3 then (s.fget F.TRK_CS_STAT.MASTER_ID, 255)
  else (s.nodeId, 255)

/-! ### Gears -/

/-- Half `h`'s copy of the current gear (01_block_and_halves.md R19): TRK_GEAR_CUR, but for a half B that is not connected.
DEDUCED, notes/assumptions/18.md and notes/assumptions/45.md. -/
def State.gearOfHalf (s : State) (h : Nat) : Nat :=
  match (s.half h).gear with
  | some g => g
  | none => s.fget F.TRK_GEAR_CUR.CUR

/-- The halves part: half B's copy of the gear is its own from now on (01 R35). -/
def State.splitGear (s : State) : State := s.setHalf 1 { s.half 1 with gear := some (s.gearOfHalf 1) }

/-- Half `h` takes gear `g`; connected halves take it together (01 R19, R35). -/
def State.putGear (s : State) (h g : Nat) : State :=
  match (s.half h).gear with
  | some _ => s.setHalf h { s.half h with gear := some g }
  | none => s.fset F.TRK_GEAR_CUR.CUR g

/-- Half `h` takes the other half's gear (01 R30, R32 step 2): their copies are equal again. -/
def State.copyGear (s : State) (h : Nat) : State :=
  let g := s.gearOfHalf (1 - h)
  (s.setHalf 1 { s.half 1 with gear := none }).fset F.TRK_GEAR_CUR.CUR g

/-- The trunk that governs the gate lists of port `p` (04_field_ports.md R110). -/
def State.gclTrunk (s : State) (p : Nat) : Nat := if s.cfg = .s then 0 else s.fget (F.MAC_GCL_CTL.TRUNK p)

/-- Whether gear `g` is valid: on every enabled cell-mode trunk (R176), and on every enabled port bound to one of them (04 R112).
DEDUCED, notes/assumptions/45.md. -/
def State.gearValid (s : State) (g : Nat) : Bool :=
  s.cellTrunks.all (fun t => bitOf (BitVec.ofNat 32 (s.fget (F.TRK_GEAR.VALID t))) g) &&
    ((List.range 8).filter (fun p => s.cfg.hasPort p && (s.flag (F.MAC_CTL.EN_RX p) || s.flag (F.MAC_CTL.EN_TX p)))).all (fun p =>
      !s.cellTrunk (s.gclTrunk p) || bitOf (BitVec.ofNat 32 (s.fget (F.MAC_GCL_CTL.VALID p))) g)

/-- Whether a shift is pending (R178). -/
def State.shiftPending (s : State) : Bool := decide (s.fget F.TRK_SHIFT.PHASE ≠ 0)

/-- Sends GEAR_OK and one type 3 triplicate once the node is gear-valid for the announced shift (R178).
DEDUCED, notes/assumptions/45.md. -/
def State.gearOkCheck (s : State) : State :=
  if s.csJoined = true ∧ s.fget F.TRK_SHIFT.PHASE = 1 ∧ s.node.shOwn = false ∧ s.node.okSent = false ∧
      s.gearValid s.node.shTarget = true then
    let s := s.setNode { s.node with okSent := true }
    forEach s.cellTrunks (fun t s =>
      s.queueUrgent t { typ := 3, copy := 0, orig := s.nodeId, arg := 0, sfn := s.fget F.TRK_SHIFT_SFN.N }) s
  else s

/-- The GEAR byte of R159, as half `h` sends it. -/
def State.gearByte (s : State) (h : Nat) : Nat :=
  let cur := s.gearOfHalf h
  let ph := if s.csJoined then s.fget F.TRK_SHIFT.PHASE else 0
  32 * cur + 4 * (if ph = 0 then cur else s.node.shTarget) + ph

/-- The 58 payload bytes of the overhead cell of superframe `sfn`, sent on trunk `t` with transmit stamp `tx`
(R159, R163). -/
def State.overheadPayload (s : State) (t sfn : Nat) (tx : Int) : List Byte :=
  let st := s.csState
  let p := stampParts tx
  let ec := (s.trunk t).last
  let m := s.sendMaster
  let ph := if s.csJoined then s.fget F.TRK_SHIFT.PHASE else 0
  let pair := s.sendPair t
  let flags := 128 * b2n (decide (st = 2)) + 64 * b2n (decide (st = 2 ∨ st = 4 ∨ st = 5)) + 32 * b2n ec.isSome +
    16 * b2n (s.node.okSent && s.gearValid s.node.shTarget)
  let ring := 128 * b2n (decide (s.ringRole = 2)) + 64 * s.fget (F.TRK_PROT_STAT.BLOCKED t) + 16 * s.ringState
  let e := ec.getD {}
  let er := stampParts e.rx
  let body :=
    natBe 4 sfn ++ natBe 6 p.1 ++ natBe 4 p.2.1 ++ natBe 2 p.2.2 ++ natBe 1 s.nodeId ++ natBe 1 flags ++
    natBe 1 (s.gearByte (s.cfg.halfOfTrunk t)) ++ natBe 1 m.1 ++ natBe 4 (if ph = 0 then 0 else s.fget F.TRK_SHIFT_SFN.N) ++
    natBe 1 (16 * pair.1) ++ natBe 1 pair.2 ++ natBe 1 m.2 ++ natBe 1 ring ++
    (if ec.isSome then natBe 1 (e.sfn % 256) ++ natBe 1 0 ++ natBe 4 er.2.1 ++ natBe 2 er.2.2 else List.replicate 8 0) ++
    List.replicate 18 0
  body ++ natBe 4 (crc32c body)

/-- The 58 payload bytes of an urgent cell (R168); type 1 carries the SFN at sending. -/
def State.urgentPayload (s : State) (u : Urgent) : List Byte :=
  let body := natBe 1 u.typ ++ natBe 1 u.copy ++ natBe 1 s.nodeId ++ natBe 1 u.orig ++ natBe 1 u.arg ++ natBe 1 0 ++
    natBe 4 (if u.typ = 1 then s.fget F.TRK_SFN.SFN else u.sfn) ++ List.replicate 44 0
  body ++ natBe 4 (crc32c body)

/-- Reads a received overhead cell's payload (R159). -/
def readOverhead (p : List Byte) (rx : Int) : Oh :=
  let f (i k : Nat) : Nat := beNat (slice p i k)
  let fl := f 17 1
  let g := f 18 1
  { sfn := f 0 4, stamp := ((f 4 6 * 1000000000 + f 10 4) * 65536 + f 14 2 : Nat), node := f 16 1
    cold := decide (128 ≤ fl), joined := decide (fl / 64 % 2 = 1), echoValid := decide (fl / 32 % 2 = 1)
    gearOk := decide (fl / 16 % 2 = 1), cur := g / 32, target := g / 4 % 8, phase := g % 4, master := f 19 1
    targetSfn := f 20 4, code := f 24 1 / 16, orig := f 25 1, hops := f 26 1
    echoSfn := f 28 1, echoNs := f 30 4, echoFrac := f 34 2, rx := rx }

/-- Whether the last four payload bytes are the CRC of the first 54 (R160). -/
def payloadCrcGood (p : List Byte) : Bool := decide (p.length = 58) && decide (beNat (p.drop 54) = crc32c (p.take 54))

/-- Sends a type 2 triplicate of the pending shift on every enabled cell-mode trunk (R178). -/
def State.sendPhase (s : State) : State :=
  forEach s.cellTrunks (fun t s =>
    s.queueUrgent t { typ := 2, copy := 0, orig := s.nodeId, arg := s.gearByte s.leader, sfn := s.fget F.TRK_SHIFT_SFN.N }) s

/-! ### Cold start (R171) -/

/-- Sets TRK_CS_STAT.STATE. -/
def State.csSet (s : State) (v : Nat) : State := s.fset F.TRK_CS_STAT.STATE v

/-- No superframe is in progress on any trunk: the transmitters fill with idle cells until the next one. -/
def State.stopFrames (s : State) : State :=
  forEach (List.range s.cfg.trunks) (fun t s => s.setTrunk t { s.trunk t with sfDue := none, txPos := none }) s

/-- The node returns to LISTEN and sends no overhead cells (R171). -/
def State.csListen (s : State) : State :=
  let s := s.setNode { s.node with cold := 0, integ := 0, again := false }
  ((s.fset F.TRK_CS_STAT.HOPS 255).csSet 1).stopFrames

/-- The table of R171 starts on entry to INTEGRATE with a cell-mode trunk enabled: LISTEN, or OFF with ID_ERR where
NODE_ID is 0 or 255. -/
def State.csStart (s : State) : State :=
  if s.cellTrunks.isEmpty then s
  else if s.nodeId = 0 ∨ s.nodeId = 255 then s.setFlag F.TRK_CS_STAT.ID_ERR (srcTrunk s.cfg 0 + 6)
  else s.csListen

/-- A cell-mode trunk has been enabled: in INTEGRATE with STATE OFF the table starts (R171). -/
def State.csEnable (s : State) : State := if s.mode = 3 ∧ s.csState = 0 then s.csStart else s

/-- Exit to CONFIG, SAFEHOLD or DORMANT (R171): STATE OFF, no pending shift, no slew. -/
def State.csStop (s : State) : State :=
  if s.csState = 0 then s
  else
    let s := s.setNode { s.node with
      cold := 0, integ := 0, again := false, shOwn := false, shAnn := false, shDecide := 0, shFault := false, okSent := false
      late := none, lateGo := false }
    let s := s.fsets [(F.TRK_CS_STAT.SLEWING, 0), (F.TRK_CS_STAT.HOLDOVER, 0), (F.TRK_CS_STAT.HOPS, 255), (F.TRK_SHIFT.PHASE, 0)]
    (s.csSet 0).stopFrames

/-- The trunk whose latest good overhead cell is the best network cell (R165): in SYNC, JOINED and not COLD, the lowest
MASTER_ID, then the lowest HOPS, then trunk 0. -/
def State.bestSource (s : State) : Option Nat :=
  let cand := s.cellTrunks.filterMap fun t =>
    match (s.trunk t).last with
    | some o => if s.fget (F.TRK_STAT.DELIN t) = 2 ∧ o.joined = true ∧ o.cold = false then some (t, o.master, o.hops) else none
    | none => none
  match cand with
  | [] => none
  | a :: l =>
    some (l.foldl (fun (a : Nat × Nat × Nat) b =>
      if b.2.1 < a.2.1 ∨ (b.2.1 = a.2.1 ∧ b.2.2 < a.2.2) then b else a) a).1

/-- Shows the time source `t` with what its latest cell says (R165). -/
def State.showSource (s : State) (t : Nat) : State :=
  let o := (s.trunk t).last.getD {}
  s.fsets [(F.TRK_CS_STAT.SRC, t), (F.TRK_CS_STAT.MASTER_ID, o.master), (F.TRK_CS_STAT.HOPS, min 254 (o.hops + 1)),
    (F.TRK_CS_STAT.HOLDOVER, 0)]

/-- A joined node brings its time source up to date; with none qualifying it is in holdover (R165). -/
def State.sourceUpdate (s : State) : State :=
  if s.csState = 4 then
    match s.bestSource with
    | some t => s.showSource t
    | none => s.fset F.TRK_CS_STAT.HOLDOVER 1
  else s

/-- After a step no overhead cell is sent until the second 10 µs instant (R173). -/
def State.quietTrunks (s : State) : State :=
  forEach (List.range s.cfg.trunks) (fun t s => s.setTrunk t { s.trunk t with quiet := 2, sfDue := none, txPos := none }) s

end Sys2Proof.Machine
end

