-- ==== Sys2Proof/Machine/FrameOps.lean ====
section
/-!
DEFINITION. Frames as the units see them: entering the block, the copies at the ports, the bytes that leave a port with
every edit and tag action, and a frame's end (04_field_ports.md R98 to R130; 08_rules_courses_forwarding.md R216, R232,
R233; 07_parse_graph.md R190).
-/
namespace Sys2Proof.Machine

/-- Counter `k` of the MAC of port `p`. -/
def State.macCnt (s : State) (p k : Nat) : State := s.cnt (O.MAC_CNT p k)

/-- Whether port `p` is a MAC: a field port, or a trunk in BASE-R mode (04 R98, 05_trunk_cells.md R133). -/
def State.isMac (s : State) (p : Nat) : Bool :=
  s.cfg.hasPort p &&
    (if p < 8 then true else s.flag (F.TRK_CFG.EN (p - 8)) && decide (2 ≤ s.fget (F.TRK_CFG.MODE (p - 8))))

/-- The power domain of port `p` (16_power_and_wake.md R380). -/
def portDom (p : Nat) : Nat := 8 + p

/-- Whether port `p`'s unit runs: powered, out of reset and not DORMANT. -/
def State.portUp (s : State) (p : Nat) : Bool :=
  let h := s.cfg.halfOfAnyPort p
  s.cfg.hasPort p && s.domOn (portDom p) && !s.halfInReset h && decide (s.hmode h ≠ 0 ∧ s.hmode h ≠ 7)

/-- Whether the receive clock, or with `tx` the transmit clock, of port `p` has stopped: its island then takes and launches
nothing (02_boundary_and_access.md R41). -/
def State.stopped (s : State) (p : Nat) (tx : Bool) : Bool :=
  if p < 8 then (s.port p).lost tx else (s.trunk (p - 8)).lost tx

/-- Interrupt source `k` of port `p`: a trunk in BASE-R mode has none of a field port's (15_interrupts.md R371). -/
def State.raisePort (s : State) (p k : Nat) : State := if p < 8 then s.raise (srcPort s.cfg p + k) else s

/-- Largest frame of port `p` (R101). -/
def State.maxLen (s : State) (p : Nat) : Nat :=
  if p < 8 ∨ s.isMac p = true then max 64 (s.fget (F.MAC_FRAME.MAX_LEN p)) else 16383

/-- Whether half `h` forwards frames in its mode (01_block_and_halves.md R24). DESIGN CHOICE, notes/assumptions/24.md. -/
def State.forwards (s : State) (h : Nat) : Bool := decide (3 ≤ s.hmode h ∧ s.hmode h ≤ 5)

/-! ### Stamps (03_time_and_cycles.md R80, R82) -/

/-- The receive stamp of a cell: the time of its first bit, resolved to 1/8 tick, less TB_LAT.RX (R82, R162). -/
def State.rxStamp (s : State) (p ph : Nat) : Int :=
  let h := s.cfg.halfOfAnyPort p
  stampOf (s.tb h).t + (ph % 8 * 16384 : Nat) - s.rdInt (O.TB_LAT p)

/-- The transmit stamp of a frame or cell launched now (R80, R162). -/
def State.txStamp (s : State) (p ph : Nat) : Int :=
  let h := s.cfg.halfOfAnyPort p
  stampOf (s.tb h).t + (ph % 8 * 16384 : Nat) + s.rdInt (O.TB_LAT p + 4)

/-! ### Where frames are referenced -/

/-- The parse pipeline of half `h`. -/
def State.pipe (s : State) (h : Nat) : Pipe := KMap.get {} s.pipes h
/-- Replaces the parse pipeline of half `h`; PRS_STAT.IN_FLIGHT follows. -/
def State.setPipe (s : State) (h : Nat) (v : Pipe) : State :=
  (s.setPipes (KMap.put {} s.pipes h v)).fset (F.PRS_STAT.IN_FLIGHT h) (v.flight.length)

/-- Copies that a port holds. -/
def Port.copies (v : Port) : List Copy := v.egress ++ v.tx.toList ++ v.held.toList

/-- Whether some copy of frame `f` waits at a port or is leaving, with a property. -/
def State.anyCopy (s : State) (f : Nat) (q : Copy → Bool) : Bool :=
  s.ports.any (fun p => p.2.copies.any fun c => c.kind == 0 && c.fid == f && q c) ||
    s.trunks.any (fun t => t.2.txFrames.any fun x => x.2.copy.fid == f && q x.2.copy)

/-- Whether anything still refers to frame `f`. -/
def State.frameUsed (s : State) (f : Nat) : Bool :=
  s.ports.any (fun p => p.2.arriving == some f) || s.anyCopy f (fun _ => true) ||
    s.pipes.any (fun p => p.2.offered.contains f || p.2.flight.contains f || p.2.results.contains f) ||
    s.threads.any (fun t => t.2.rxq.contains f || t.2.bound == some f) ||
    s.qps.any (fun q => q.2.room.any (fun r => r.1 == f) || q.2.cur.any (fun r => r.w.fid == f) || q.2.rxs.any fun r => r.fid == f)

/-- Removes the frames that nothing refers to and frees their granules (13_buffer_memory_and_placement.md R346). -/
def State.gc (s : State) : State :=
  (s.setFrames (s.frames.filter fun f => s.frameUsed f.1)).sweepGrans

/-! ### Flow control by ingress occupancy (R107) -/

/-- Bytes that frames from port `p` hold, with priority `k`, or all priorities with 8. -/
def State.occupancy (s : State) (p k : Nat) : Nat :=
  s.frames.foldl (fun a f =>
    if f.2.src = .port p ∧ f.2.drop = false ∧ f.2.void = false ∧ (k = 8 ∨ f.2.pri = k) then a + f.2.bytes.length else a) 0

/-- The priorities for which port `p` may send flow control: 8 for PAUSE. -/
def State.fcKinds (s : State) (p : Nat) : List Nat :=
  if s.flag (F.MAC_CTL.DUPLEX p) = false then []
  else if s.flag (F.MAC_FC.PFC_EN p) then (List.range 8).filter fun k => bitOf (s.rd (O.MAC_FC p)) (16 + k)
  else if s.flag (F.MAC_FC.PAUSE_EN p) then [8]
  else []

/-- Brings the flow control that port `p` sends up to date with its occupancy. -/
def State.fcCheck (s : State) (p : Nat) : State :=
  let q := s.fget (F.MAC_FC.TX_QUANTA p)
  forEach (s.fcKinds p) (fun k s =>
    let v := s.port p
    let n := s.occupancy p k
    if k ∉ v.asked ∧ 256 * s.fget (F.MAC_FC_THR.XOFF p) < n then
      s.setPort p { v with asked := v.asked ++ [k], fcDue := v.fcDue ++ [(k, q)] }
    else if k ∈ v.asked ∧ n ≤ 256 * s.fget (F.MAC_FC_THR.XON p) then
      s.setPort p { v with asked := v.asked.filter (· != k), fcDue := v.fcDue ++ [(k, 0)] }
    else s) s

/-- After frames have gone: their memory is freed and the ports' flow control follows. -/
def State.tidy (s : State) : State :=
  forEach ((List.range 10).filter fun p => s.isMac p) (fun p s => s.fcCheck p) s.gc

/-! ### Edits (R121 to R127) -/

/-- The edits of frame `f` at port `p`, waiting or crossing, are dropped without being counted (R125, R258). -/
def State.dropEdits (s : State) (p f : Nat) : State :=
  let v := s.port p
  let mine := (v.edits ++ v.coming).filter fun e => e.fid == f
  let rest := v.edits.filter fun e => e.fid != f
  let s := s.setPort p { v with edits := rest, coming := v.coming.filter fun e => e.fid != f }
  let s := s.fset (F.MAC_EDIT_STAT.LEVEL p) rest.length
  forEach mine (fun e s => s.spliceNote e false []) s

/-! ### The bytes of a leaving copy -/

/-- One original byte with what stands before it: inserted bytes, and the byte unless it is removed. -/
abbrev Slot1 := List Byte × Option Byte

/-- Bytes of a frame in slots. -/
def toSlots (bs : List Byte) : List Slot1 := bs.map fun b => ([], some b)

/-- The bytes that slots stand for. -/
def fromSlots (l : List Slot1) : List Byte := (l.map fun x => x.1 ++ x.2.toList).flatten

/-- Inserts bytes before original byte `i`, after what stands there already. -/
def insertAt (l : List Slot1) (i : Nat) (bs : List Byte) : List Slot1 := l.modify i fun x => (x.1 ++ bs, x.2)

/-- Replaces original bytes from `i` on, as far as the frame's data reaches. -/
def overAt (l : List Slot1) (i : Nat) (bs : List Byte) : List Slot1 :=
  (bs.foldl (fun (a : Nat × List Slot1) b => (a.1 + 1, a.2.modify a.1 fun x => (x.1, x.2.map fun _ => b))) (i, l)).2

/-- Removes original bytes [i, i + k). -/
def removeAt (l : List Slot1) (i k : Nat) : List Slot1 :=
  (rangeFrom i k).foldl (fun a j => a.modify j fun x => (x.1, none)) l

/-- Where original byte `i` stands in the bytes as sent. -/
def posOf (l : List Slot1) (i : Nat) : Nat :=
  (fromSlots (l.take i)).length + ((l[i]?).map fun x => x.1.length).getD 0

/-- The tag protocol identifier that port `p` sends and recognises (R105, R216). -/
def State.tpidOf (s : State) (p : Nat) : Nat := if s.isMac p then s.fget (F.MAC_VLAN_CTL.TPID p) else 0x8100

/-- Whether a frame carries a tag at byte 12: the one that R105 identified, or an 0x8100 tag of a trunk frame (R216).
DESIGN CHOICE, notes/assumptions/28.md. -/
def Frame.hasTag (f : Frame) : Bool :=
  match f.src with
  | .port _ => f.tagged
  | _ => decide (beNat (slice f.bytes 12 2) = 0x8100)

/-- The bytes of a frame as received so far. -/
def Frame.received (f : Frame) : List Byte := f.raw.getD f.bytes

/-- Where an R-TAG stands in a frame, if it has one (R233). -/
def Frame.rtagAt (f : Frame) : Option Nat :=
  if beNat (slice f.bytes 12 2) = 0xF1C1 then some 12
  else if f.hasTag = true ∧ beNat (slice f.bytes 16 2) = 0xF1C1 then some 16
  else none

/-- The tag actions on a copy (R216, R233, R234). -/
def State.tagSlots (s : State) (p : Nat) (c : Copy) (f : Frame) (l : List Slot1) : List Slot1 :=
  let tagged := f.hasTag
  let tci := natBe 2 (c.cls % 8 * 2 ^ 13 + c.vid)
  let l :=
    if c.vtag = 1 then insertAt l 12 (natBe 2 (s.tpidOf p) ++ tci)
    else if c.vtag = 2 ∧ tagged = true then removeAt l 12 4
    else if c.vtag = 3 ∧ tagged = true then
      overAt l 14 (natBe 2 (beNat (slice f.bytes 14 2) / 4096 * 4096 + c.vid))
    else l
  if c.rtag = 1 then
    insertAt l (if c.vtag = 1 ∨ tagged = false then 12 else 16) (natBe 2 0xF1C1 ++ natBe 2 0 ++ natBe 2 c.seq)
  else if c.rtag = 2 ∨ c.rtag = 3 then
    match f.rtagAt with
    | some i => removeAt l i 6
    | none => l
  else l

/-- Applies one edit: the slots, and whether it was cut (R126). `max` is the port's MAX_LEN. DEDUCED, notes/assumptions/32.md. -/
def applyEdit (max : Nat) (l : List Slot1) (e : Edit) : List Slot1 × Bool × Bool :=
  if e.ins then
    if max < (fromSlots l).length + 4 + e.bytes.length ∨ l.length ≤ e.w then (l, true, false)
    else (insertAt l e.w e.bytes, false, true)
  else (overAt l e.w e.bytes, decide (l.length < e.w + e.bytes.length), true)

/-- Where the 1588 header of an unparsed frame lies: EtherType 0x88F7, or UDP over IPv4 to port 319 or 320 (R98, R117;
notes/assumptions/20.md), with the offset of its UDP header. -/
def ptpOffset (bs : List Byte) : Option (Nat × Option Nat) :=
  let b := if beNat (slice bs 12 2) = 0x8100 then 16 else 12
  let t := beNat (slice bs b 2)
  if t = 0x88F7 then some (b + 2, none)
  else if t = 0x0800 ∧ (byteAt bs (b + 11)).toNat = 17 then
    let u := b + 2 + 4 * ((byteAt bs (b + 2)).toNat % 16)
    if beNat (slice bs (u + 2) 2) = 319 ∨ beNat (slice bs (u + 2) 2) = 320 then some (u + 8, some u) else none
  else none

/-- The 1588 header of a frame: the APP mark of a parsed frame with PTP, its L4 mark for UDP over IPv4 (R117, R201,
07_parse_graph.md R204). Over UDP/IPv6 there is no one-step update (R98). DEDUCED, notes/assumptions/20.md. -/
def Frame.ptp (f : Frame) : Option (Nat × Option Nat) :=
  match f.src with
  | .host _ => ptpOffset f.bytes
  | .thread _ => ptpOffset f.bytes
  | _ =>
    let q := f.parse
    let udp := decide (q.flags / 8 % 2 = 1)
    let v4 := decide (q.flags % 2 = 1)
    if q.cls ≠ 0xFF ∧ q.flags / 32 % 2 = 1 ∧ q.app ≠ 0xFFFF ∧ (udp = false ∨ v4 = true) then
      some (q.app, if udp = true ∧ q.l4 ≠ 0xFFFF then some q.l4 else none)
    else none

/-- Writes a field over original bytes from `i` on, each where it stands in the bytes as sent. -/
def putField (bs : List Byte) (l : List Slot1) (i : Nat) (v : List Byte) : List Byte :=
  (v.foldl (fun (a : Nat × List Byte) b => (a.1 + 1, patch a.2 (posOf l a.1) [b])) (i, bs)).2

/-- Reads a field of `n` original bytes from `i` on where they stand in the bytes as sent. -/
def getField (bs : List Byte) (l : List Slot1) (i n : Nat) : Nat :=
  beNat ((rangeFrom i n).map fun j => byteAt bs (posOf l j))

/-- The one-step update on the bytes as sent (R117): residence time into correctionField of a forwarded frame, or the
egress stamp into originTimestamp and its fraction into correctionField. -/
def oneStep (bs : List Byte) (l : List Slot1) (hdr : Nat) (udp : Option Nat) (own : Bool) (egress ingress : Int) : List Byte :=
  let bs := match udp with
    | some u => putField bs l (u + 6) (natBe 2 0)
    | none => bs
  let e := egress.toNat
  if own then
    let bs := putField bs l (hdr + 34) (natBe 6 (e / 65536 / 1000000000) ++ natBe 4 (e / 65536 % 1000000000))
    putField bs l (hdr + 8) (natBe 8 (e % 65536))
  else
    let c := getField bs l (hdr + 8) 8
    putField bs l (hdr + 8) (natBe 8 (ofInt 64 ((c : Int) + (egress - ingress))))

/-- One's complement sum of 16-bit words (RFC 1071). -/
def onesSum (bs : List Byte) : Nat :=
  let rec go : List Byte → Nat → Nat
    | [], a => a
    | [x], a => a + 256 * x.toNat
    | x :: y :: r, a => go r (a + 256 * x.toNat + y.toNat)
  let n := go bs 0
  let n := n / 65536 + n % 65536
  n / 65536 + n % 65536

/-- The checksum of bytes: the complement of their sum. -/
def inetSum (bs : List Byte) : Nat := 65535 - onesSum bs

/-- The checksum of TCP or UDP with its pseudo header, over IPv4 (`l3` with 4) or IPv6. -/
def l4Sum (bs : List Byte) (v6 : Bool) (l3 l4 stop proto : Nat) : Nat :=
  let seg := slice bs l4 (stop - l4)
  let addrs := if v6 then slice bs (l3 + 8) 32 else slice bs (l3 + 12) 8
  onesSum (addrs ++ natBe 4 proto ++ natBe 4 seg.length ++ seg)

/-- End of an IP packet in the frame by its own length field. -/
def ipEnd (bs : List Byte) (v6 : Bool) (l3 : Nat) : Nat :=
  if v6 then l3 + 40 + beNat (slice bs (l3 + 4) 2) else l3 + beNat (slice bs (l3 + 2) 2)

/-- Past the extension headers of an IPv6 packet from the header of type `nh` at `i` on: the upper protocol and where it
starts, none for a fragment. Hop-by-hop, routing and destination options are passed. DESIGN CHOICE,
notes/assumptions/73.md. -/
def v6Upper (bs : List Byte) (nh i : Nat) : Nat → Option (Nat × Nat)
  | 0 => none
  | k + 1 =>
    if nh = 44 then none
    else if nh = 0 ∨ nh = 43 ∨ nh = 60 then
      v6Upper bs (byteAt bs i).toNat (i + 8 * ((byteAt bs (i + 1)).toNat + 1)) k
    else some (nh, i)

/-- Inserts the IPv4 header checksum and the TCP or UDP checksum into a host frame (R116; RFC 1071): its headers lie after
one tag with the TPID `tpid` at byte 12, or after none. DESIGN CHOICE, notes/assumptions/73.md. -/
def insertSums (tpid : Nat) (bs : List Byte) : List Byte :=
  let b := if beNat (slice bs 12 2) = tpid then 16 else 12
  let t := beNat (slice bs b 2)
  let l3 := b + 2
  let v6 := decide (t = 0x86DD)
  if t ≠ 0x0800 ∧ t ≠ 0x86DD then bs
  else
    let hl := if v6 then 40 else 4 * ((byteAt bs l3).toNat % 16)
    let bs :=
      if v6 then bs
      else
        let z := patch bs (l3 + 10) (natBe 2 0)
        patch z (l3 + 10) (natBe 2 (inetSum (slice z l3 hl)))
    let upper :=
      if v6 then v6Upper bs (byteAt bs (l3 + 6)).toNat (l3 + hl) 16
      else if beNat (slice bs (l3 + 6) 2) % 0x4000 ≠ 0 then none
      else some ((byteAt bs (l3 + 9)).toNat, l3 + hl)
    let proto := (upper.getD (0, 0)).1
    let l4 := (upper.getD (0, 0)).2
    let at_ := if proto = 6 then l4 + 16 else l4 + 6
    if proto ≠ 6 ∧ proto ≠ 17 then bs
    else
      let z := patch bs at_ (natBe 2 0)
      let c := 65535 - l4Sum z v6 l3 l4 (ipEnd z v6 l3) proto
      patch z at_ (natBe 2 (if c = 0 ∧ proto = 17 then 0xFFFF else c))

/-- Whether a frame was taken from a host queue: it is held without padding and FCS (11_functions_and_queues.md R294). -/
def Frame.fromHost (f : Frame) : Bool :=
  match f.src with
  | .host _ => true
  | _ => false

/-- Pads data of fewer than 60 bytes with zeros to 60 bytes (11_functions_and_queues.md R294). -/
def padTo60 (bs : List Byte) : List Byte := bs ++ List.replicate (60 - bs.length) 0

/-- Bytes of a frame on a port, FCS included. -/
def Frame.wireLen (f : Frame) : Nat :=
  if f.fromHost then max 60 (f.bytes.length - 4 * b2n f.fcsIncl) + 4 else f.bytes.length

/-- What a port sends of a copy: the bytes with the FCS, the transmit status bits, and the edits that were applied or
dropped (R114, R116, R117, R126). Everything is decided by the bytes that the copy took when it began, `base`
(09_engine_threads.md R255). `stomp` ends the frame with the inverted FCS. DEDUCED, notes/assumptions/32.md. -/
def State.buildEgress (s : State) (p : Nat) (c : Copy) (f : Frame) (base : List Byte) (stomp : Bool) :
    List Byte × Nat × List (Edit × Bool × Bool) :=
  let data := if stomp then base else if f.fromHost then padTo60 (base.take (base.length - 4 * b2n f.fcsIncl)) else base.take (base.length - 4)
  let data := if c.csum = true ∧ s.flag (F.MAC_CTL.TX_CSUM_EN p) = true then insertSums (s.tpidOf p) data else data
  let f := { f with bytes := base }
  let l := s.tagSlots p c f (toSlots data)
  let mine := (s.port p).edits.filter fun e => e.fid == c.fid
  let r := mine.foldl (fun (a : List Slot1 × List (Edit × Bool × Bool)) e =>
    let x := applyEdit (s.maxLen p) a.1 e
    (x.1, a.2 ++ [(e, x.2)])) (l, [])
  let bs := fromSlots r.1
  let clip := if r.2.any (fun x => x.2.1) then 1024 else 0
  let own := match f.src with
    | .host _ => true
    | _ => c.onestep
  let upd := s.flag (F.MAC_CTL.ONESTEP_EN p) && s.isMac p && (c.onestep || (match f.src with | .host _ => false | _ => true))
  let o := match f.ptp with
    | some (h, u) =>
      if upd = true ∧ (byteAt bs (posOf r.1 h)).toNat % 16 < 4 ∧ stomp = false then
        (oneStep bs r.1 h u own c.stamp f.stamp, 256)
      else (bs, 0)
    | none => (bs, 0)
  let fcs := fcsOf o.1
  (o.1 ++ (if stomp then fcs.map (fun b => ~~~b) else fcs), Nat.lor (Nat.lor clip o.2) (if stomp then 4096 else 0), r.2)

/-- Takes the edits of a leaving copy off the port's queue and reports each (R258). -/
def State.noteEdits (s : State) (p f : Nat) (notes : List (Edit × Bool × Bool)) : State :=
  let v := s.port p
  let rest := v.edits.filter fun e => e.fid != f
  let s := (s.setPort p { v with edits := rest }).fset (F.MAC_EDIT_STAT.LEVEL p) rest.length
  let s := if notes.any (fun x => x.2.1) then (s.fset (F.MAC_EDIT_STAT.CLIP p) 1).raisePort p 3 else s
  forEach notes (fun x s =>
    s.spliceNote x.1 false ((if x.2.1 then [27] else []) ++ (if x.2.2 then [26] else []))) s

/-! ### Copies -/

/-- Bytes queued at port `p` for class `c` (R232). -/
def State.queued (s : State) (p c : Nat) : Nat :=
  (s.port p).egress.foldl (fun a x => if x.cls = c then a + (s.frame x.fid).bytes.length else a) 0

/-- A copy joins the egress queue of its port, in arrival order of its class (R109). -/
def State.enqueue (s : State) (p : Nat) (c : Copy) : State :=
  let v := s.port p
  s.setPort p { v with egress := v.egress ++ [{ c with status := Nat.lor c.status (KMap.get 0 (s.frame c.fid).portStat p) }] }

/-- A thread's frame has left its last destination: TX_DONE (10_engine_instructions.md R275). -/
def State.txDone (s : State) (f : Nat) (k : Option Nat) : State :=
  match k with
  | none => s
  | some t =>
    if s.anyCopy f (fun c => c.thread == some t) || s.qps.any (fun q => (q.2.rxs ++ (q.2.cur.map (·.w)).toList).any fun r => r.fid == f && r.thread == some t)
    then s
    else s.postThr t 14

/-- A copy has gone from its port: sent (`took`), or discarded. Its edits end, its host descriptor and its thread learn of
it, and the frame's memory is freed when it was the last. -/
def State.copyGone (s : State) (p : Nat) (c : Copy) (took : Bool) (status : Nat) : State :=
  let s := s.dropEdits p c.fid
  let s := s.hostDone c.host took (Nat.land (Nat.lor c.status status) 0x1F00) c.stamp
  (s.txDone c.fid c.thread).tidy

/-- A copy has left a cell-mode trunk. -/
def State.copyLeft (s : State) (p : Nat) (c : Copy) : State := s.copyGone p c true 0

/-- The frame bytes that a copy's transmission takes: as held, read from buffer memory under the rights of master 13
(13 R344). -/
def State.takeBytes (s : State) (f : Frame) : List Byte × State := s.readParts 13 f.parts f.bytes

/-- What a cell-mode trunk sends of a copy (05_trunk_cells.md R152). -/
def State.trunkBytes (s : State) (p : Nat) (c : Copy) : List Byte × State :=
  let f := s.frame c.fid
  let r := s.takeBytes f
  let b := r.2.buildEgress p { c with csum := false } f r.1 false
  (b.1, r.2.dropEdits p c.fid)

/-- Whether the copy may start as a whole frame: received whole, its FCS checked good (R113; 05_trunk_cells.md R148), no part of it in a granule that
moves (13_buffer_memory_and_placement.md R347). -/
def State.wholeOk (s : State) (c : Copy) : Bool := (s.frame c.fid).done && !(s.frame c.fid).bad && !s.inMove (s.frame c.fid).parts

/-- Sets a status bit of the frame's copy at port `p`: of the copies that exist, and of those still to come (R127). -/
def State.copyStatus (s : State) (p f b : Nat) : State :=
  let upd (c : Copy) : Copy := if c.kind = 0 ∧ c.fid = f then { c with status := Nat.lor c.status b } else c
  let v := s.port p
  let x := s.frame f
  let s := if s.frameUsed f then s.setFrame f { x with portStat := KMap.put 0 x.portStat p (Nat.lor (KMap.get 0 x.portStat p) b) } else s
  s.setPort p { v with egress := v.egress.map upd, tx := v.tx.map upd, held := v.held.map upd }

/-! ### Removing a frame -/

/-- Takes a frame out of the parse pipeline: it produces no result and is not counted (R190). -/
def State.unparse (s : State) (f : Nat) : State :=
  forEach s.pipes (fun p s =>
    if p.2.offered.contains f || p.2.flight.contains f || p.2.results.contains f then
      s.setPipe p.1 { p.2 with offered := p.2.offered.filter (· != f), flight := p.2.flight.filter (· != f)
                               results := p.2.results.filter (· != f) }
    else s) s

/-- Discards the copies of a frame that have not begun, at the ports for which `at_` holds. -/
def State.dropCopies (s : State) (f : Nat) (at_ : Nat → Bool) : State :=
  forEach ((List.range 10).filter at_) (fun p s =>
    forEach ((s.port p).egress.filter fun c => c.kind == 0 && c.fid == f) (fun c s =>
      let v := s.port p
      (s.setPort p { v with egress := v.egress.erase c }).copyGone p c false 0) s) s

/-- Removes a frame from the receive queues of threads. -/
def State.dropFromThreads (s : State) (f : Nat) : State :=
  forEach (s.threads.filter fun t => t.2.rxq.contains f) (fun t s =>
    let q := t.2.rxq.filter (· != f)
    (s.setThreads (KMap.put {} s.threads t.1 { t.2 with rxq := q })).fset (F.CE_THR_STAT.RXQ (t.1 / 8) (t.1 % 8)) q.length) s

/-- A delivery that waited at a queue pair has gone: the host descriptor and the thread behind it learn of it (11 R299; 10 R275). -/
def State.rxGone (s : State) (w : RxWait) (took : Bool) : State := (s.hostDone w.host took 0 0).txDone w.fid w.thread

/-- Removes a frame from the queue pairs that wait to deliver it or to hand it to their thread; host frames end with NOT_TAKEN
(11 R299). -/
def State.dropFromQueues (s : State) (f : Nat) : State :=
  forEach (s.qps.filter fun q => q.2.rxs.any (fun r => r.fid == f) || q.2.room.any fun r => r.1 == f) (fun q s =>
    let p := s.qp q.1
    let s := s.setQp q.1 { p with rxs := p.rxs.filter (fun r => r.fid != f), room := p.room.filter fun r => r.1 != f }
    let s := forEach (p.rxs.filter fun r => r.fid == f) (fun w s => s.rxGone w false) s
    forEach (p.room.filter fun r => r.1 == f) (fun r s => s.hostDone (some (q.1, r.2)) false 0 0) s) s

/-- A received frame is discarded: it leaves the pipeline, and no copy that has not begun is ever sent (R114, R190). -/
def State.discard (s : State) (f : Nat) : State :=
  ((((s.unparse f).dropCopies f (fun _ => true)).dropFromThreads f).dropFromQueues f).tidy

/-! ### Placement of received frames (13 R346) -/

/-- The banks that R346 and R312 allow for a frame's owner and queue pair. DESIGN CHOICE, notes/assumptions/33.md. -/
def State.ownerBanks (s : State) (owner q half : Nat) : List Nat :=
  let all := List.range s.cfg.banks
  if 256 ≤ owner then s.halfBanks half
  else
    let v := s.qp q
    let low := List.find? (fun p => bitOf (BitVec.ofNat 32 v.ports) p) (List.range 10)
    match v.half, v.lc with
    | some h, 0 => s.halfBanks h
    | some h, 1 => s.halfBanks h
    | some h, 2 => if (s.halfBanks h).any (fun b => s.bankOpen b && decide (0 < s.freeIn b)) then s.halfBanks h else all
    | none, 0 => match low with
      | some p => s.halfBanks (s.cfg.halfOfAnyPort p)
      | none => all
    | none, 1 => match low with
      | some p => s.halfBanks (s.cfg.halfOfAnyPort p)
      | none => all
    | _, _ => all

/-- Counts a received frame that finds no buffer memory: at its port or trunk (R129 RX_OVERRUN, 05_trunk_cells.md R154), and
at the queue pair it was meant for (11 R318, R296). -/
def State.countOverrun (s : State) (f : Frame) (owner q : Nat) : State :=
  let s := if owner < 256 then (s.setQp q { s.qp q with drops := (s.qp q).drops + 1 }).qCnt 5 else s
  match f.src with
  | .port p => s.macCnt p 13
  | .chan t _ => s.cnt (O.TRK_CNT t 17)
  | _ => s

/-- Whether a frame has to be held in buffer memory: something other than a cut-through copy refers to it. -/
def State.mustHold (s : State) (f : Nat) : Bool :=
  s.ports.any (fun p => p.2.egress.any fun c => c.fid == f) || s.threads.any (fun t => t.2.rxq.contains f || t.2.bound == some f) ||
    s.qps.any (fun q => q.2.rxs.any fun r => r.fid == f)

/-- A whole, classified frame takes its place in buffer memory, written by master `m`; with no room it is discarded and
counted (R346). DESIGN CHOICE, notes/assumptions/33.md. -/
def State.placeFrame (s : State) (fid m : Nat) : State :=
  let f := s.frame fid
  match f.owners with
  | [] => s
  | (owner, q) :: _ =>
    let s := s.setFrame fid { f with owners := [] }
    if s.mustHold fid then
      match s.place owner q (s.ownerBanks owner q f.half) f.bytes.length with
      | .placed s parts =>
        let r := s.writeParts m parts f.bytes
        r.2.setFrame fid { f with owners := [], parts := parts, bytes := r.1 }
      | .quota => (s.countOverrun f owner q).discard fid
      | .full => ((s.memCnt 9).countOverrun f owner q).discard fid
    else s

/-! ### Receive checksums (R115) -/

/-- Status bits of R115 for a frame with the flags and marks of its parse. -/
def rxSums (bs : List Byte) (flags l3 l4 : Nat) (cut : Bool) : Nat :=
  let v4 := decide (flags % 2 = 1)
  let v6 := decide (flags / 2 % 2 = 1)
  let tcp := decide (flags / 4 % 2 = 1)
  let udp := decide (flags / 8 % 2 = 1)
  let frag := decide (flags / 16 % 2 = 1)
  if (v4 || v6) && (tcp || udp || frag) && decide (l3 ≠ 0xFFFF) then
    let data := bs.take (bs.length - 4)
    let hl := 4 * ((byteAt data l3).toNat % 16)
    let ip := if v4 then (if onesSum (slice data l3 hl) = 0xFFFF then 16 else 32) else 0
    let l4v :=
      if frag = true ∨ cut = true ∨ l4 = 0xFFFF ∨ (tcp || udp) = false then 0
      else if udp = true ∧ v4 = true ∧ beNat (slice data (l4 + 6) 2) = 0 then 64
      else if l4Sum data (!v4) l3 l4 (ipEnd data (!v4) l3) (if tcp then 6 else 17) = 0xFFFF then 64
      else 128
    ip + l4v
  else 0

/-- Reports the receive checksums in the status of a frame that is whole and parsed. -/
def State.checkSums (s : State) (fid : Nat) : State :=
  let f := s.frame fid
  match f.src with
  | .port p =>
    if s.flag (F.MAC_CTL.RX_CSUM_EN p) = true ∧ f.done = true ∧ 2 ≤ f.parse.stage ∧ f.parse.cls ≠ 0xFF then
      let r := rxSums f.received f.parse.flags f.parse.l3 f.parse.l4 (decide (f.status / 2 % 2 = 1))
      s.setFrame fid { f with status := Nat.lor f.status r }
    else s
  | _ => s

/-! ### Entering the block -/

/-- The source index of R198, 0 to 9, and the half's round-robin index of it, 0 to 4 (07_parse_graph.md R191). -/
def Src.index (x : Src) : Nat :=
  match x with
  | .port p => p
  | .chan t _ => 8 + t
  | .host _ => 0x10
  | _ => 0x10

/-- Place of a source in its half's round-robin order. -/
def Src.turn (x : Src) : Nat := if x.index < 8 then x.index % 4 else 4

/-- Whether half `h` has a current course (R221). -/
def State.anyCourse (s : State) (h : Nat) : Bool :=
  match (s.half h).cur with
  | none => !s.cls.courses.isEmpty
  | some n => s.cls.courses.any fun c => c.num == n

/-- A frame is offered to the pipeline of its half (07 R190, R191; 01_block_and_halves.md R24, R32): while the half copies
tables it is discarded and counted in DROPS; with no live course it is discarded and counted in NO_COURSE, whatever the mode;
outside the forwarding modes it is discarded. DESIGN CHOICE, notes/assumptions/24.md. -/
def State.offer (s : State) (fid : Nat) : State :=
  let h := (s.frame fid).half
  if s.forwards h = true ∧ (s.half h).admStop = true then
    if (s.half h).dropsOn then s.fsat F.BLK_LEAD_LOG.DROPS 1 else s
  else if s.anyCourse h = false then s.cnt (O.PRS_CNT h 6)
  else if s.forwards h = false then s
  else s.setPipe h { s.pipe h with offered := (s.pipe h).offered ++ [fid] }

/-- Holds a frame under a new number. DESIGN CHOICE, notes/assumptions/3.md. -/
def State.newFrame (s : State) (f : Frame) : Nat × State :=
  (s.nextFrame, (s.setFrame s.nextFrame f).setNextFrame (s.nextFrame + 1))

/-- A whole frame of a cell-mode trunk goes to parsing (05_trunk_cells.md R155). -/
def State.addWhole (s : State) (f : Frame) : State :=
  let r := s.newFrame f
  (r.2.offer r.1).tidy

/-- A frame enters the receive queue of a thread (R253): it is counted in RX_DROP when the queue is full. -/
def State.enterThread (s : State) (k f : Nat) : State :=
  let e := k / 8
  let n := k % 8
  let v := s.thr e n
  if 16 ≤ v.rxq.length then s.ceCnt e 3
  else
    let s := s.setThr e n { v with rxq := v.rxq ++ [f] }
    (s.fset (F.CE_THR_STAT.RXQ e n) (v.rxq.length + 1)).ceCnt e 2

/-- The last gasp ends when its commit has ended and every gasp frame has left (16_power_and_wake.md R395). -/
def State.gaspCheck (s : State) : State :=
  match s.gasp with
  | some g =>
    if g.ports.isEmpty ∧ g.commit = false then
      ((s.setGasp none).fsets [(F.PWR_STAT.GASP, 0), (F.PWR_STAT.GASP_DONE, 1)]).sfUpdate
    else s
  | none => s

end Sys2Proof.Machine
end

