-- ==== Sys2Proof/Machine/HostOps.lean ====
section
/-!
DEFINITION. Accesses of the memory master port (02_boundary_and_access.md R56, R57; 12_dma_and_planes.md R328).
-/
namespace Sys2Proof.Machine

/-- The accesses of a transfer of `len` bytes at `addr`: a single beat up to the next 32-byte boundary, bursts of whole
beats that cross no 256-byte boundary, a single beat for the rest (R57, R328). `fuel` bounds their number. -/
def cutAccess (addr len : Nat) : Nat → List (Nat × Nat)
  | 0 => []
  | fuel + 1 =>
    if len = 0 then []
    else
      let n :=
        if addr % 32 ≠ 0 then min len (32 - addr % 32)
        else if len < 32 then len
        else min (256 - addr % 256) (len / 32 * 32)
      (addr, n) :: cutAccess (addr + n) (len - n) fuel

/-- Whether `len` bytes at `addr` lie wholly below 2^44 (R56). -/
def addrOk (addr len : Nat) : Bool := decide (addr < 2 ^ 44 ∧ addr + len ≤ 2 ^ 44)

/-- The block reads `len` bytes of host memory under a transaction identifier (R58). -/
def State.hostRead (s : State) (id : Mst) (addr len : Nat) : State :=
  s.setOut (s.out ++ (cutAccess addr len len).map fun a => .read id a.1 a.2)

/-- The block writes bytes to host memory under a transaction identifier, in the order of their generation (R58). -/
def State.hostWrite (s : State) (id : Mst) (addr : Nat) (bs : List Byte) : State :=
  s.setOut (s.out ++ (cutAccess addr bs.length bs.length).map fun a => .write id a.1 (slice bs (a.1 - addr) a.2))

/-- Word `k` of a structure in host memory (00_scope.md R10). -/
def hostWord (bs : List Byte) (k : Nat) : Nat := leNat (slice bs (4 * k) 4)

/-- The 64-bit value at word `k` of a structure in host memory. -/
def hostWord2 (bs : List Byte) (k : Nat) : Nat := leNat (slice bs (4 * k) 8)

/-- The bytes of four words. -/
def words4 (a b c d : Nat) : List Byte := natLe 4 a ++ natLe 4 b ++ natLe 4 c ++ natLe 4 d

end Sys2Proof.Machine
end

