-- ==== Sys2Proof/Machine/DmaOps.lean ====
section
/-!
DEFINITION. DMA channels as the units see them: their state, the sides of a transfer, the rights to the block's own window,
moving bytes, and the end of a run (12_dma_and_planes.md R321 to R340).
-/
namespace Sys2Proof.Machine

/-- Channel `n`. -/
def State.dma (s : State) (n : Nat) : Dma := KMap.get {} s.dmas n
/-- Replaces channel `n`. -/
def State.setDma (s : State) (n : Nat) (v : Dma) : State := s.setDmas (KMap.put {} s.dmas n v)

/-- STATE of a channel (R329): 0 IDLE, 1 RUNNING, 2 DRAINING, 3 PAUSED, 4 FENCING. -/
def State.dmaState (s : State) (n : Nat) : Nat := s.fget (F.DMA_CH_STAT.STATE n)

/-- Sets STATE; DMA_STAT.BUSY follows. -/
def State.setDmaState (s : State) (n v : Nat) : State :=
  (s.fset (F.DMA_CH_STAT.STATE n) v).fset ⟨O.DMA_STAT, n, 1⟩ (b2n (decide (v ≠ 0)))

/-- ADDR_MODE of a channel (R323). -/
def State.dmaMode (s : State) (n : Nat) : Nat := s.fget (F.DMA_CH_CTL.ADDR_MODE n)

/-- A channel drains towards PAUSED (target 0), or towards IDLE with a status (R329). -/
def State.dmaDrain (s : State) (n target : Nat) : State :=
  ((s.setDma n { s.dma n with target := target }).setDmaState n 2).fset (F.DMA_CH_STAT.END_PEND n) 0

/-- PAUSE (R329). -/
def State.dmaPause (s : State) (n : Nat) : State := if s.dmaState n = 1 then s.dmaDrain n 0 else s

/-- Entry to SAFEHOLD (R322, R330): every running channel is paused, and SH_PAUSED set in it and in one that drains towards
PAUSED. -/
def State.dmaFreeze (s : State) : State :=
  forEach (List.range s.cfg.dmaChannels) (fun n s =>
    if s.dmaState n = 1 ∨ (s.dmaState n = 2 ∧ (s.dma n).target = 0) then
      (s.dmaPause n).fset (F.DMA_CH_STAT.SH_PAUSED n) 1
    else s) s

/-! ### The block's own window (R326) -/

/-- Base of the block's window in host addresses, if it is enabled. -/
def State.dmaWin (s : State) : Option Nat :=
  if s.flag F.DMA_WIN.EN then some (s.rd64 O.DMA_WIN / 2 ^ 24 % 2 ^ 20 * 2 ^ 24) else none

/-- Whether an address lies in the window. -/
def State.inWin (s : State) (a : Nat) : Bool :=
  match s.dmaWin with
  | some b => decide (b ≤ a ∧ a < b + 2 ^ 24)
  | none => false

/-- The end of the memories that contain offset `o` of an engine's debug window (09_engine_threads.md R240), the frame windows
for reads only. -/
def ememEnd (o : Nat) (dst : Bool) : Option Nat :=
  if o < 0x8000 then some 0x8000
  else if 0x10000 ≤ o ∧ o < 0x28400 then some 0x28400
  else if 0x30000 ≤ o ∧ o < 0x34000 ∧ dst = false then some 0x34000
  else none

/-- Whether the debug window of engine `e` takes writes (02_boundary_and_access.md R45): BRINGUP, or every thread halted or
unreleased. -/
def State.ememOpen (s : State) (e : Nat) : Bool :=
  decide (s.mode = 1) || (List.range 8).all fun n => decide (s.thrState e n = 0 ∨ s.thrState e n = 3)

/-- The end, as a window offset, of what channel `n` may access from window offset `o` on; the engines of a half that is lost to the
spine are as absent (18_faults_and_selftest.md R420). -/
def State.winEnd (s : State) (n o : Nat) (dst : Bool) : Option Nat :=
  if 4 ≤ n ∨ o < 0x400000 ∨ 0x700000 ≤ o then none
  else
    let e := (o - 0x400000) / 0x40000
    if e < s.cfg.engines ∧ s.domOn (4 + s.cfg.clusterOf e) = true ∧ (s.half (s.cfg.halfOfEngine e)).spine.up = true ∧ (dst = false ∨ s.ememOpen e = true) then
      (ememEnd (o % 0x40000) dst).map fun x => o - o % 0x40000 + x
    else none

/-- The first byte of [a, stop) inside the window at `b` that channel `n` may not access, if one is. `fuel` bounds the
memories passed. -/
def State.winBad (s : State) (n b a stop : Nat) (dst : Bool) : Nat → Option Nat
  | 0 => some a
  | fuel + 1 =>
    if stop ≤ a then none
    else
      match s.winEnd n (a - b) dst with
      | none => some a
      | some x => s.winBad n b (b + x) stop dst fuel

/-- The first byte of `len` bytes at `a` for which R326 gives PERM, if one is. DESIGN CHOICE, notes/assumptions/41.md. -/
def State.permBad (s : State) (n a len : Nat) (dst : Bool) : Option Nat :=
  match s.dmaWin with
  | none => none
  | some b =>
    let lo := max a b
    let hi := min (a + len) (b + 2 ^ 24)
    if lo < hi then s.winBad n b lo hi dst 64 else none

/-! ### The sides of a transfer (R323, R336, R340) -/

/-- A contiguous piece of one side: its address and length, and the range that is judged with it (a whole line of a
two-dimensional side, R336). -/
structure Seg where
  addr : Nat
  len : Nat
  line : Nat
  lineLen : Nat

/-- A piece judged by itself. -/
def Seg.plain (a n : Nat) : Seg := ⟨a, n, a, n⟩

/-- The pieces of `k` bytes of a two-dimensional side from position `pos` on (R336). -/
def segs2d (base stride len : Nat) (pos k : Nat) : Nat → List Seg
  | 0 => []
  | fuel + 1 =>
    if k = 0 ∨ len = 0 then []
    else
      let l := (base + pos / len * stride) % 2 ^ 44
      let n := min k (len - pos % len)
      ⟨l + pos % len, n, l, len⟩ :: segs2d base stride len (pos + n) (k - n) fuel

/-- Planes of a channel (R340). -/
def State.dmaP (s : State) (n : Nat) : Nat := s.rd64 (O.DMA_CH_PLANE n) / 2 ^ 24 % 16 + 1
/-- Element width in bits. -/
def State.dmaW (s : State) (n : Nat) : Nat := 2 ^ (s.rd64 (O.DMA_CH_PLANE n) / 2 ^ 16 % 8)
/-- MSB_FIRST. -/
def State.dmaMsb (s : State) (n : Nat) : Bool := decide (s.rd64 (O.DMA_CH_PLANE n) / 2 ^ 23 % 2 = 1)
/-- Distance between plane bases. -/
def State.dmaPStride (s : State) (n : Nat) : Nat := s.rd64 (O.DMA_CH_PLANE n) / 2 ^ 32
/-- PLANE_OP. -/
def State.dmaOp (s : State) (n : Nat) : Nat := s.fget (F.DMA_CH_CTL.PLANE_OP n)

/-- Stream bytes that hold a whole number of bytes of every plane. -/
def State.dmaGroup (s : State) (n : Nat) : Nat :=
  if s.dmaOp n = 0 then 1 else if s.dmaW n = 16 then 2 * s.dmaP n else s.dmaP n

/-- The pieces of the planes for `k` stream bytes from a base on. -/
def State.planeSegs (s : State) (n base k : Nat) : List Seg :=
  (List.range (s.dmaP n)).map fun p => Seg.plain (base + p * s.dmaPStride n) (k / s.dmaP n)

/-- COUNT of a channel. -/
def State.dmaCount (s : State) (n : Nat) : Nat := s.fget (F.DMA_CH_COUNT.COUNT n)

/-- The pieces of the next `k` bytes of one side of channel `n`. -/
def State.dmaSegs (s : State) (n k : Nat) (dst : Bool) : List Seg :=
  let d := s.dma n
  let reg := s.rd64 (if dst then O.DMA_CH_DST n else O.DMA_CH_SRC n)
  let g := if dst then O.DMA_CH_DGEOM n else O.DMA_CH_SGEOM n
  if s.dmaOp n = 1 ∧ dst = true ∨ s.dmaOp n = 2 ∧ dst = false then s.planeSegs n reg k
  else if s.dmaMode n = 1 ∧ s.flag (F.DMA_CH_CTL.LIST_SIDE n) = dst then [Seg.plain d.addr k]
  else if s.dmaMode n = 2 then
    segs2d (if dst then d.dst else d.src) (s.rd64 g / 2 ^ 32) (s.rd64 g % 2 ^ 16) d.pos k k
  else [Seg.plain reg k]

/-- What is wrong with a piece, with its address: beyond 2^44 ADDR_ERR (2), not permitted PERM (4).
DESIGN CHOICE, notes/assumptions/41.md. -/
def State.segBad (s : State) (n : Nat) (dst : Bool) (x : Seg) : Option (Nat × Nat) :=
  if x.len = 0 then none
  else if addrOk x.line x.lineLen = false then some (2, x.line)
  else (s.permBad n x.line x.lineLen dst).map fun a => (4, a)

/-- The first obstacle among the next `k` bytes. -/
def State.dmaBad (s : State) (n k : Nat) : Option (Nat × Nat) :=
  match (s.dmaSegs n k false).findSome? (s.segBad n false) with
  | some e => some e
  | none => (s.dmaSegs n k true).findSome? (s.segBad n true)

/-! ### Elements (R340) -/

/-- Element `i` of `w` bits of packed bytes. -/
def elemAt (bs : List Byte) (w : Nat) (msb : Bool) (i : Nat) : Nat :=
  if w = 16 then leNat (slice bs (2 * i) 2)
  else
    let b := (byteAt bs (i * w / 8)).toNat
    let pos := i * w % 8
    b / 2 ^ (if msb then 8 - w - pos else pos) % 2 ^ w

/-- Packs elements of `w` bits, given by number, into `k` bytes. -/
def packElems (w : Nat) (msb : Bool) (k : Nat) (e : Nat → Nat) : List Byte :=
  if w = 16 then ((List.range (k / 2)).map fun i => natLe 2 (e i)).flatten
  else
    (List.range k).map fun j =>
      BitVec.ofNat 8 ((List.range (8 / w)).foldl (fun a i =>
        a + e (j * (8 / w) + i) * 2 ^ (if msb then 8 - w - i * w else i * w)) 0)

/-- The planes of an interleaved stream, one after the other (R340). -/
def splitPlanes (p w : Nat) (msb : Bool) (bs : List Byte) : List Byte :=
  ((List.range p).map fun j => packElems w msb (bs.length / p) fun i => elemAt bs w msb (i * p + j)).flatten

/-- The interleaved stream of planes given one after the other (R340). -/
def mergePlanes (p w : Nat) (msb : Bool) (bs : List Byte) : List Byte :=
  let n := bs.length / p
  packElems w msb bs.length fun k => elemAt (slice bs (k % p * n) n) w msb (k / p)

/-! ### Moving bytes -/

/-- Engine and debug-window offset of an address in the window. -/
def State.winPlace (s : State) (a : Nat) : Nat × Nat :=
  let o := a - s.dmaWin.getD 0
  ((o - 0x400000) / 0x40000, o % 0x40000)

/-- Reads the pieces of the source side: inside the window from the engine memories, otherwise from host memory, whose bytes
are `data` in order. -/
def State.readSegs (s : State) (n : Nat) (l : List Seg) (data : List Byte) : List Byte × State :=
  match l with
  | [] => ([], s)
  | x :: r =>
    if s.inWin x.addr then
      let w := s.winPlace x.addr
      let t := s.readSegs n r data
      (s.ebytes w.1 w.2 x.len ++ t.1, t.2)
    else
      let t := (s.hostRead (.chan n) x.addr x.len).readSegs n r (data.drop x.len)
      ((data ++ List.replicate x.len 0).take x.len ++ t.1, t.2)

/-- Writes bytes into an engine's memories through the debug window: word 3 of a splice entry is never written (R240). -/
def State.winWrite (s : State) (e o : Nat) (bs : List Byte) : State :=
  (bs.foldl (fun (a : Nat × State) b =>
    (a.1 + 1, if 0x28000 ≤ a.1 ∧ a.1 < 0x28400 ∧ a.1 % 16 / 4 = 3 then a.2 else a.2.eput e a.1 [b])) (o, s)).2

/-- Writes bytes to the pieces of the destination side. -/
def State.writeSegs (s : State) (n : Nat) (l : List Seg) (bs : List Byte) : State :=
  match l with
  | [] => s
  | x :: r =>
    let b := bs.take x.len
    let s :=
      if s.inWin x.addr then
        let w := s.winPlace x.addr
        s.winWrite w.1 w.2 b
      else s.hostWrite (.chan n) x.addr b
    s.writeSegs n r (bs.drop x.len)

/-- Moves the progress registers on by `k` bytes (R331, R336, R340). -/
def State.dmaAdvance (s : State) (n k : Nat) : State :=
  let d := s.dma n
  let s := s.fset (F.DMA_CH_COUNT.COUNT n) (s.dmaCount n - k)
  let d' := { d with moved := d.moved + k }
  if s.dmaMode n = 2 then
    let pos := d.pos + k
    let next (base g : Nat) := (base + pos / (s.rd64 g % 2 ^ 16) * (s.rd64 g / 2 ^ 32)) % 2 ^ 44 + pos % (s.rd64 g % 2 ^ 16)
    let sl := s.rd64 (O.DMA_CH_SGEOM n) % 2 ^ 16
    let dl := s.rd64 (O.DMA_CH_DGEOM n) % 2 ^ 16
    let s := (s.wr64 (O.DMA_CH_SRC n) (next d.src (O.DMA_CH_SGEOM n))).wr64 (O.DMA_CH_DST n) (next d.dst (O.DMA_CH_DGEOM n))
    (s.setDma n { d' with pos := pos }).fsets
      [(F.DMA_CH_POS.SLINE n, pos / sl), (F.DMA_CH_POS.SOFS n, pos % sl), (F.DMA_CH_POS.DLINE n, pos / dl), (F.DMA_CH_POS.DOFS n, pos % dl)]
  else
    let step (dst : Bool) : Nat :=
      if s.dmaOp n = 1 ∧ dst = true ∨ s.dmaOp n = 2 ∧ dst = false then k / s.dmaP n
      else if s.dmaMode n = 1 ∧ s.flag (F.DMA_CH_CTL.LIST_SIDE n) = dst then 0
      else k
    let s := s.wr64 (O.DMA_CH_SRC n) (s.rd64 (O.DMA_CH_SRC n) + step false)
    let s := s.wr64 (O.DMA_CH_DST n) (s.rd64 (O.DMA_CH_DST n) + step true)
    s.setDma n (if s.dmaMode n = 1 then { d' with addr := d.addr + k } else d')

/-- Whether two ranges (address, length) share a byte. -/
def rangesMeet (x y : Nat × Nat) : Bool := decide (x.1 < y.1 + y.2 ∧ y.1 < x.1 + x.2)

/-- Whether some two of a list of ranges share a byte. -/
def anyMeet : List (Nat × Nat) → Bool
  | [] => false
  | x :: r => r.any (rangesMeet x) || anyMeet r

/-- Whether the planes of the plane run of channel `n` overlap each other or the stream (R340): over the whole run, from the
addresses it was started with. -/
def State.planesMeet (s : State) (n : Nat) : Bool :=
  let d := s.dma n
  let c := d.moved + s.dmaCount n
  let split := decide (s.dmaOp n = 1)
  anyMeet ((if split then d.src else d.dst, c) ::
    (List.range (s.dmaP n)).map fun p => ((if split then d.dst else d.src) + p * s.dmaPStride n, c / s.dmaP n))

/-- Moves the next `k` bytes of a run: read on the source side, put in the order of the destination side, written there. The
bytes that a plane run writes are free values where its planes overlap (R340: undefined data).
DESIGN CHOICE, notes/assumptions/41.md. -/
def State.dmaMove (s : State) (n k : Nat) (data : List Byte) : State :=
  if k = 0 then s
  else
    let r := s.readSegs n (s.dmaSegs n k false) data
    let r := if s.dmaOp n ≠ 0 ∧ s.planesMeet n = true then r.2.freeBytes r.1.length else r
    let bs :=
      if s.dmaOp n = 1 then splitPlanes (s.dmaP n) (s.dmaW n) (s.dmaMsb n) r.1
      else if s.dmaOp n = 2 then mergePlanes (s.dmaP n) (s.dmaW n) (s.dmaMsb n) r.1
      else r.1
    (r.2.writeSegs n (s.dmaSegs n k true) bs).dmaAdvance n k

/-- Fetches `len` bytes of a list entry at `a` for channel `n`: inside the window from the engine memories (R326), otherwise
from host memory, where `data` comes back. The status is 0, or PERM, BUS_ERR or MEM_ERR, `err` being the error of the
access. -/
def State.listFetch (s : State) (n a len : Nat) (data : List Byte) (err : Bool) : Nat × List Byte × State :=
  if (s.permBad n a len false).isSome then (4, [], s)
  else if s.inWin a then
    let w := s.winPlace a
    (if err then 5 else 0, s.ebytes w.1 w.2 len, s)
  else (if err then 3 else 0, data, s.hostRead (.chan n) a len)

/-- A run ends with a status (R337, R339): DONE, ERR, the interrupt source of an unprivileged channel, the record of a
privileged one, which waits in the channel. DESIGN CHOICE, notes/assumptions/41.md. -/
def State.dmaEnd (s : State) (n status : Nat) : State :=
  let s := (s.fsets [(F.DMA_CH_STAT.ERR n, status), (F.DMA_CH_STAT.DONE n, 1), (F.DMA_CH_STAT.END_PEND n, 0),
    (F.DMA_CH_STAT.SH_PAUSED n, 0)]).setDmaState n 0
  if n < 4 then
    let r : DmaRec :=
      { status := status, bytes := (s.dma n).moved % 2 ^ 32
        list := if s.dmaMode n = 1 then s.rd64 (O.DMA_CH_LIST n) % 2 ^ 32 else 0, ns := timeNs s.leaderTime }
    (s.setDma n { s.dma n with rec_ := some r }).fset (F.DMA_CH_STAT.CPL_WAIT n) 1
  else if s.flag (F.DMA_CH_CTL.IRQ_EN n) then s.raise (srcDma s.cfg n)
  else s

end Sys2Proof.Machine
end

