-- ==== Sys2Proof/Machine/UnitOps.lean ====
section
/-!
DEFINITION. What the units do when the block stops: trunks announce Signal Fail, graph loads end, draining courses retire,
frames in flight are discarded, queue service freezes, DMA channels pause.
-/
namespace Sys2Proof.Machine

/-- Entry of a half to SAFEHOLD: its trunks take local Signal Fail and send a type 1 triplicate
(06_trunk_overhead_gears_protection.md R181, R183). -/
def State.announceHalfSf (s : State) (_h : Nat) : State := s.sfUpdate

/-- A graph load under way ends with a RESULT and no valid slot (07_parse_graph.md R207). -/
def State.endLoad (s : State) (result : Nat) : State :=
  match s.gload with
  | none => s
  | some _ => ((s.setGload none).fsets [(F.PRS_LOAD_CTL.RESULT, result), (F.PRS_LOAD_CTL.BUSY, 0)]).raise 7

/-! ### Courses (08_rules_courses_forwarding.md R217, R221) -/

/-- The current course, if one is (08_rules_courses_forwarding.md R221). -/
def State.curCourse (s : State) : Option Course := List.find? (fun c : Course => !c.draining) s.cls.courses

/-- The course that half `h` uses as current: another than the leader's where it has missed the switch (R220). -/
def State.curCourseOf (s : State) (h : Nat) : Option Course :=
  match (s.half h).cur with
  | none => s.curCourse
  | some n => List.find? (fun c : Course => c.num == n) s.cls.courses

/-- The course number that half `h` uses as current, 16 for none. -/
def State.curNum (s : State) (h : Nat) : Nat := ((s.curCourseOf h).map (·.num)).getD 16

/-- Shows the live courses in CLS_COURSE_STAT and IN_USE and CUR_SLOT of the graph slots (R194, R221). -/
def State.showCourses (s : State) : State :=
  let l := s.cls.courses
  let s := s.fsets [(F.CLS_COURSE_STAT.LIVE_MAP, l.foldl (fun a c => a + 2 ^ c.num) 0), (F.CLS_COURSE_STAT.LIVE, l.length)]
  forEach s.halfList (fun h s =>
    let cur := s.curCourseOf h
    let s := forEach [0, 1] (fun k s => s.fset (F.PRS_SLOT_STAT.IN_USE h k) (b2n (l.any (fun c => c.slot == k) ||
      s.cls.prep.any fun c => c.course.slot == k))) s
    match cur with
    | some c => s.fset (F.PRS_STAT.CUR_SLOT h) c.slot
    | none => s) s

/-- Frames in flight under course number `n`, or a half that still uses it as current (R212, R221). -/
def State.inFlight (s : State) (n : Nat) : Bool :=
  (s.halfList.any fun h => (s.half h).cur == some n) ||
  s.pipes.any fun p => (p.2.flight ++ p.2.results).any fun f => (s.frame f).course == n

/-- A course retires: its position and number become free (R221). -/
def State.retire (s : State) (n : Nat) : State :=
  match List.find? (fun c : Course => c.num == n && c.draining) s.cls.courses with
  | none => s
  | some c =>
    let clear (t : Tcam) : Tcam := { t with vis := Nat.land t.vis (15 - 2 ^ c.pos) }
    (s.setCls { s.cls with courses := s.cls.courses.filter fun x => x.num != n
                           tcam := s.cls.tcam.map fun t => (t.1, clear t.2) }).showCourses

/-- Every draining course without frames in flight retires. -/
def State.retireAll (s : State) : State :=
  forEach (s.cls.courses.filter fun c => c.draining && !s.inFlight c.num) (fun c s => s.retire c.num) s

/-! ### Freezing -/

/-- Every frame in the parse pipelines is discarded (01_block_and_halves.md R24). -/
def State.dropPipes (s : State) : State :=
  forEach s.pipes (fun p s => s.setPipe p.1 { p.2 with offered := [], flight := [], results := [] }) s

/-- Every copy that has not begun to leave is discarded; host frames end with NOT_TAKEN (11_functions_and_queues.md
R292). -/
def State.dropEgress (s : State) : State :=
  forEach (List.range 10) (fun p s =>
    forEach (s.port p).egress (fun c s =>
      let v := s.port p
      (s.setPort p { v with egress := v.egress.erase c }).copyGone p c false 0) s) s

/-- A half alone stops (01_block_and_halves.md R24): its frames in the pipeline, and the copies that have not begun to leave by
its ports, are discarded. -/
def State.dropHalf (s : State) (h : Nat) : State :=
  let p := s.pipe h
  let s := s.setPipe h { p with offered := [], flight := [], results := [] }
  let s := forEach ((List.range 10).filter fun p => s.cfg.halfOfAnyPort p == h) (fun p s =>
    forEach (s.port p).egress (fun c s =>
      let v := s.port p
      (s.setPort p { v with egress := v.egress.erase c }).copyGone p c false 0) s) s
  s.tidy

/-- Frames that wait at queue pairs for delivery, or for room at a thread, are discarded; host frames end with NOT_TAKEN
(11_functions_and_queues.md R292, R299). A delivery that has begun is kept. -/
def State.dropRx (s : State) : State :=
  forEach s.qps (fun q s =>
    let p := s.qp q.1
    if p.rxs.isEmpty = true ∧ p.room.isEmpty = true then s
    else
      let s := s.setQp q.1 { p with rxs := [], room := [] }
      let s := forEach p.rxs (fun w s => s.rxGone w false) s
      forEach p.room (fun r s => s.hostDone (some (q.1, r.2)) false 0 0) s) s

/-- Entry to SAFEHOLD in the spine (01 R24; 07 R207; 08 R222; 11 R292; 12_dma_and_planes.md R322): frames are discarded,
draining courses retire, a graph load ends, queue service freezes, DMA channels pause. -/
def State.freezeSpine (s : State) : State :=
  let s := s.dropPipes.dropEgress.dropRx.tidy.retireAll
  let s := (s.endLoad 4).fset F.Q_STAT.FROZEN 1
  s.dmaFreeze

end Sys2Proof.Machine
end

