-- ==== Sys2Proof/Machine/Contain.lean ====
section
/-!
DEFINITION. A change of the operating mode with all that it does in the units (01_block_and_halves.md R19, R24, R29),
entry to SAFEHOLD (18_faults_and_selftest.md R423), and the fault log (R416, R421).
-/
namespace Sys2Proof.Machine

/-- Whether half `h` takes a mode change of the leader (R19, R29): the spine reaches it, directly or through the other half,
it is out of reset and has no copy to take first (R30); a follower needs the half-to-half link. -/
def State.followsMode (s : State) (h : Nat) : Bool :=
  let linked := decide (s.cfg = .x) && (s.half 0).half.up && (s.half 1).half.up && !s.settle
  !s.halfInReset h && !(s.half h).copyState && (linked || (decide (h = s.leader) && (s.half h).spine.up))

/-- Function 0's key is drawn (11_functions_and_queues.md R287). -/
def State.drawKey0 (s : State) : State :=
  s.useFree.setFunc 0 { (KMap.get {} s.funcs 0 : Func) with key := some s.free }

/-- Gives half `h` the mode copy `m`: its trigger outputs follow (R93), and its trunks' Signal Fail (06 R181). -/
def State.setHalfMode (s : State) (h m : Nat) : State :=
  let held := s.hmode h
  let s := forEach ((List.range 32).filter (fun n => s.cfg.halfOfTrig n == h)) (fun n s => s.syncTrig n)
    (s.fset (modeCopy h) m)
  if (held = 6 ∧ m ≠ 6) ∨ (held ≠ 6 ∧ m = 6) then s.sfUpdate else s

/-- The host watchdog stops in SAFEHOLD, RESET and DORMANT and restarts on entry to any other mode (R417). -/
def State.wdogMode (s : State) (m : Nat) : State :=
  s.setFlt { s.flt with wdog := if m = 0 ∨ m = 6 ∨ m = 7 then false else s.flag F.FLT_WDOG.EN }

/-- The block's mode becomes `m`: BLK_MODE.MODE and the mode copies of the halves that follow; a change raises source 0;
JOINED clears on an exit to CONFIG, SAFEHOLD or DORMANT; function 0's key is drawn on leaving BRINGUP (R19, R29, R93, R287,
R371, R417). -/
def State.setMode (s : State) (m : Nat) : State :=
  if s.mode = m then
    forEach (s.halfList.filter (fun h => s.followsMode h)) (fun h s => s.setHalfMode h m) s
  else
    let s := if m = 2 ∨ m = 6 ∨ m = 7 then s.csStop.setJoined 0 else s
    let s := if s.mode = 6 then s.fset F.Q_STAT.FROZEN 0 else s
    let s := if s.mode = 1 ∧ m ≠ 0 then s.drawKey0 else s
    let s := if m = 6 ∨ m = 7 ∨ m = 0 then s.endLoad 4 else s
    let s := (s.fset F.BLK_MODE.MODE m).raise 0
    let s := forEach (s.halfList.filter (fun h => s.followsMode h)) (fun h s => s.setHalfMode h m) s
    s.wdogMode m

/-- What entry to SAFEHOLD does in half `h` (R24, R423): its frames in the pipeline and those that have not begun to leave are
discarded, engines halt, trunks announce Signal Fail. -/
def State.safeholdHalf (s : State) (h : Nat) : State := ((s.dropHalf h).haltHalfEngines h).announceHalfSf h

/-- The whole block enters SAFEHOLD with a cause (R24, R26, R423). -/
def State.enterSafehold (s : State) (cause : Nat) : State :=
  let s := (s.fset F.BLK_MODE.SH_CAUSE cause).setMode 6
  let s := forEach (s.halfList.filter fun h => s.hmode h == 6) (fun h s => s.safeholdHalf h) s
  s.freezeSpine

/-- The modes from which SAFEHOLD is entered (01_block_and_halves.md R26; R423). -/
def liveMode (m : Nat) : Bool := decide (1 ≤ m ∧ m ≤ 5)

/-- One half alone enters SAFEHOLD (01_block_and_halves.md R26, R33): its own mode copy, engines and trunks. -/
def State.halfSafehold (s : State) (h cause : Nat) : State :=
  if liveMode (s.hmode h) then
    let s := (s.fset F.BLK_MODE.SH_CAUSE cause).fset (tbFld F.TB_STAT.JOINED h) 0
    (s.setHalfMode h 6).safeholdHalf h
  else s

/-- OPERATE and DEGRADED follow BLK_MODE.PROT and BLK_MODE.HALF_LOST (R26). -/
def State.fixDegraded (s : State) : State :=
  if s.mode = 4 ∧ (s.flag F.BLK_MODE.PROT = true ∨ s.flag F.BLK_MODE.HALF_LOST = true) then s.setMode 5
  else if s.mode = 5 ∧ s.flag F.BLK_MODE.PROT = false ∧ s.flag F.BLK_MODE.HALF_LOST = false then s.setMode 4
  else s

/-! ### The fault log -/

/-- The class of a fault (R416). -/
inductive FltClass where
  | l                    -- logged only
  | e (bit : Nat)        -- escalated by this bit of FLT_ESC
  | c                    -- containment fault
deriving DecidableEq, Repr

/-- Whether a fault of this class is treated as class C. -/
def State.contains (s : State) (k : FltClass) : Bool :=
  match k with
  | .l => false
  | .e b => bitOf (s.rd O.FLT_ESC) b
  | .c => true

/-- Offset of word `w` of log entry `n`. -/
def logWord (n w : Nat) : Nat := O.FLT_LOG n + 4 * w

/-- Whether log entry `n` is ACTIVE (R421). -/
def State.logActive (s : State) (n : Nat) : Bool := bitOf (s.rd (logWord n 0)) 29

/-- The entry a new fault takes: the first one at or after FLT_STAT.NEXT that is not ACTIVE (R421). -/
def State.logSlot (s : State) : Option Nat :=
  ((List.range 32).map (fun i => (s.fget F.FLT_STAT.NEXT + i) % 32)).find? (fun n => !s.logActive n)

/-- Number of ACTIVE entries. -/
def State.activeCount (s : State) : Nat := ((List.range 32).filter (fun n => s.logActive n)).length

/-- Writes the four words of a log entry (R421). -/
def State.writeLog (s : State) (n code index detail verdict : Nat) (contain : Bool) : State :=
  let t := s.leaderTime
  let w0 := 2 ^ 31 + 2 ^ 30 * b2n contain + 2 ^ 29 * b2n contain + 2 ^ 27 * verdict + 2 ^ 16 * code + index % 4096
  let w3 := 2 ^ 16 * (timeSec t % 65536) + 2 ^ 8 * s.mode + s.flt.seq % 256
  let s := s.wr (logWord n 0) (BitVec.ofNat 32 w0)
  let s := s.wr (logWord n 1) (BitVec.ofNat 32 detail)
  let s := s.wr (logWord n 2) (BitVec.ofNat 32 (timeNs t))
  let s := s.wr (logWord n 3) (BitVec.ofNat 32 w3)
  let s := s.fset F.FLT_STAT.NEXT ((n + 1) % 32)
  let s := s.fset F.FLT_STAT.ACTIVE s.activeCount
  s.setFlt { s.flt with seq := s.flt.seq + 1 }

/-- Logs a fault (R416, R421): an entry, or LOST; FLT_CNT, source 6, and SAFEHOLD with SH_CAUSE 3 for a containment
fault (R423). DESIGN CHOICE, notes/assumptions/54.md. -/
def State.logFault (s : State) (code index detail : Nat) (k : FltClass) (verdict : Nat := 0) : State :=
  let contain := s.contains k
  let s := (s.cnt O.FLT_CNT).raise 6
  let live := liveMode s.mode
  let s :=
    match s.logSlot with
    | some n => s.writeLog n code index detail verdict contain
    | none =>
      let s := s.fsat F.FLT_STAT.LOST 1
      if contain then s.fset F.FLT_STAT.CONTAIN_LOST 1 else s
  if contain = true ∧ live = true then s.enterSafehold 3 else s

/-- Logs a refused slave access (code 0x01): the same function and offset less than 1 ms after the last such entry is
counted only (R421). DEDUCED, notes/assumptions/15.md. -/
def State.logRefusal (s : State) (fn off : Nat) : State :=
  match s.flt.refusal with
  | some (f, o, t) =>
    if f = fn ∧ o = off ∧ s.ticks < t + 500000 then s.cnt O.FLT_CNT
    else (s.setFlt { s.flt with refusal := some (fn, off, s.ticks) }).logFault 0x01 fn off .l
  | none => (s.setFlt { s.flt with refusal := some (fn, off, s.ticks) }).logFault 0x01 fn off .l

/-- An access that its function may not make (02_boundary_and_access.md R44): the spine counts it in the fault log while it
works. -/
def State.logDenied (s : State) (fn off : Nat) : State :=
  if s.domOn 1 = true ∧ s.rst.blk = false then s.logRefusal fn off else s

end Sys2Proof.Machine
end

