-- ==== Sys2Proof/Machine/Access.lean ====
section
/-!
DEFINITION. The register slave port (02_boundary_and_access.md R43 to R55; 01_block_and_halves.md R15): who may reach a
word, and a write applied field by field under the access codes of 00_scope.md R7.
-/
namespace Sys2Proof.Machine

/-- The power domain of a register's home island (01_block_and_halves.md R15; 16_power_and_wake.md R380). -/
def State.homeDom (s : State) (key : Nat) : Nat :=
  if key < 0x010000 then 1
  else if key < 0x01A000 then 8 + (key - 0x010000) / 0x1000
  else if 0x020000 ≤ key ∧ key < 0x028000 then 16 + (key - 0x020000) / 0x4000
  else if 0x030000 ≤ key ∧ key < 0x040000 then 2 + (key - 0x030000) / 0x8000
  else if 0x040000 ≤ key ∧ key < 0x080000 then 2 + s.leader
  else if 0x080000 ≤ key ∧ key < 0x0B0000 then 4 + s.cfg.clusterOf ((key - 0x080000) / 0x4000)
  else if inTbB key then 3
  else if inTbA key then 2 + (if key < 0x0C0100 then 0 else ctuHalf s.cfg (key - 0x0C0000))
  else if 0x0E8000 ≤ key ∧ key < 0x0F0000 then 42
  else if 0x0FC000 ≤ key ∧ key < 0x0FE000 then 0
  else if 0x400000 ≤ key ∧ key < 0x700000 then 4 + s.cfg.clusterOf ((key - 0x400000) / 0x40000)
  else 1

/-- The half whose reset reaches a power domain's island, if it is a half's (R8, R12). -/
def halfOfDom (c : Cfg) (d : Nat) : Option Nat :=
  if d = 2 ∨ d = 3 then some (d - 2)
  else if 4 ≤ d ∧ d < 8 then some (c.halfOfCluster (d - 4))
  else if 8 ≤ d ∧ d < 16 then some (c.halfOfPort (d - 8))
  else if d = 16 ∨ d = 17 then some (c.halfOfTrunk (d - 16))
  else none

/-- Whether the island that holds a register answers: its domain is ON and out of reset (R15, R38). -/
def State.islandUp (s : State) (key : Nat) : Bool :=
  let d := s.homeDom key
  if d = 0 then true
  else
    s.domOn d && !(decide (d = 42) && s.rst.safe) && s.domOn 1 && !s.rst.blk &&
      (match halfOfDom s.cfg d with
       | some h => s.domOn (2 + h) && !s.halfInReset h
       | none => true)

/-- Records the slave port's answer. -/
def State.answer (s : State) (err : Bool) (data : Nat) : State :=
  s.setSlv (some ⟨err, BitVec.ofNat 64 data⟩)

/-- The error response, data zero (R43 to R48). -/
def State.deny (s : State) : State := s.answer true 0

/-- Whether a key lies in the MAC file of a trunk in cell mode, which reads zero and ignores writes (05_trunk_cells.md
R133). DESIGN CHOICE, notes/assumptions/49.md. -/
def State.noMacFile (s : State) (key : Nat) : Bool :=
  decide (0x018000 ≤ key ∧ key < 0x01A000) && decide (s.fget (F.TRK_CFG.MODE ((key - 0x018000) / 0x1000)) < 2)

/-- An access by function `fn` to the register word at `off`: refused for another function than 0 (R44, logged),
answered with an error where no register lies or its island does not answer (R43, R5, R15), and otherwise carried out by
`f` on the word's key. -/
def State.access (s : State) (fn off : Nat) (f : Nat → State → State) : State :=
  if fn ≠ 0 then (s.logDenied fn off).deny
  else match keyOf s.cfg off with
  | none => s.deny
  | some key =>
    if s.islandUp key = false then s.deny
    else if s.noMacFile key then s.answer false 0
    else f key (s.answer false 0)

/-- The half of the time-base island that a key lies in, if it lies in one. -/
def tbIsland (c : Cfg) (key : Nat) : Option Nat :=
  if inTbB key then some 1
  else if inTbA key then some (if key < 0x0C0100 then 0 else ctuHalf c (key - 0x0C0000))
  else none

/-- A write access: a write to a time-base island whose ticks are lost waits in the crossing (03_time_and_cycles.md
R87). -/
def State.writeAcc (s : State) (fn off : Nat) (data : Word) (f : Nat → State → State) : State :=
  s.access fn off fun key s =>
    match tbIsland s.cfg key with
    | some h =>
      if (s.tb h).lost then
        s.setTb h { s.tb h with waiting := (s.tb h).waiting ++ [(key, data)] }
      else f key s
    | none => f key s

/-! ### Access codes -/

/-- One field of a written word under its access code (R7): the word with the field's new value, and whether the write
of that field is refused with the error response. -/
def applyField (config sealed : Bool) (f : FieldRow) (w : Nat) (old data acc : Word) : Word × Bool :=
  let sl := fieldSlice f w
  let lo := sl.1
  let wd := sl.2.1
  if wd = 0 then (acc, false)
  else
    let o := getBits old lo wd
    let d := getBits data lo wd
    match f.acc with
    | .rw => (setBits acc lo wd d, false)
    | .ro => (acc, false)
    | .wo => (acc, false)
    | .w1c => (acc &&& ~~~ (data &&& maskBits lo wd), false)
    | .w1s => (acc ||| (data &&& maskBits lo wd), false)
    | .rwc => if config then (setBits acc lo wd d, false) else (acc, o != d)
    | .rwl => if sealed then (acc, o != d) else (setBits acc lo wd d, false)

/-- The word at `key` after a write of `data`, and whether any field's write is refused; bits of absent resources are
RsvdZ (00_scope.md R6). DEDUCED, notes/assumptions/69.md. -/
def State.writtenWord (s : State) (key : Nat) (data : Word) : Word × Bool :=
  match hitOf s.cfg key with
  | none => (s.rd key, false)
  | some h =>
    let old := s.rd key
    let data := (data &&& ~~~ absentBits s.cfg key) ||| (old &&& absentBits s.cfg key)
    let config := decide (s.mode = 2)
    let sealed := s.flag F.CHK_SEAL.SEALED
    let r := h.row.fields.foldl (fun (a : Word × Bool) f =>
      let n := applyField config sealed f h.word old data a.1
      (n.1, a.2 || n.2)) (old, false)
    ((r.1 &&& ~~~ absentBits s.cfg key) ||| stuckOnes s.cfg key, r.2)

/-- Whether a field can be written and takes effect with the register's highest word (R55). -/
def stagedAccess (a : Access) : Bool :=
  match a with
  | .rw => true
  | .rwc => true
  | .rwl => true
  | _ => false

/-- Whether the register at `key` is a multi-word RW register (R55). DEDUCED, notes/assumptions/68.md. -/
def isStaged (h : Hit) : Bool := decide (1 < h.row.words) && h.row.fields.any (fun f => stagedAccess f.acc)

/-- The action word that CLS_STG_DEF_ACT, CLS_TCAM_ACT and CLS_EM_ACT hold (08_rules_courses_forwarding.md R214): in Gweip-S the
bits of TARGET that refer to absent ports and queue pairs are RsvdZ (00_scope.md R6). DEDUCED, notes/assumptions/69.md. -/
def absentTarget (c : Cfg) (kind : Nat) : Word :=
  c.pick (if kind = 1 ∨ kind = 5 then 0x2F0 else if kind = 2 then 0xC00 else 0) 0

/-- Whether the register word at `key` is the low word of an action. -/
def isActLow (key : Nat) : Bool := key == O.CLS_STG_DEF_ACT || key == O.CLS_TCAM_ACT || key == O.CLS_EM_ACT

/-- The low word of an action loses what refers to an absent resource under the KIND that its high word holds. -/
def State.cutTarget (s : State) (key : Nat) : State :=
  if isActLow key then s.wr key (s.rd key &&& ~~~ absentTarget s.cfg (getBits (s.rd (key + 4)) 29 3)) else s

/-- Applies the staged lower words of a register whose highest word, word `w` at `key`, has been written; a lower word
that has not been staged keeps its value (R55). DEDUCED, notes/assumptions/68.md. -/
def State.applyStaged (s : State) (key w : Nat) : State :=
  forEach (List.range w) (fun i s =>
    match KMap.find? s.stage (key - 4 * (w - i)) with
    | some v => (s.wr (key - 4 * (w - i)) v).setStage (KMap.erase s.stage (key - 4 * (w - i)))
    | none => s) s

/-- Drops the staged lower words of the register whose highest word, word `w`, lies at `key`. -/
def State.dropStaged (s : State) (key w : Nat) : State :=
  s.setStage ((List.range w).foldl (fun m i => KMap.erase m (key - 4 * (w - i))) s.stage)

/-- Whether a staged lower word would now be refused (R7): the register is one value, so it then keeps all of it. -/
def State.stagedBad (s : State) (key w : Nat) : Bool :=
  (List.range w).any fun i =>
    match KMap.find? s.stage (key - 4 * (w - i)) with
    | some v => (s.writtenWord (key - 4 * (w - i)) v).2
    | none => false

/-- A 32-bit write to the register word at `key`, field by field (R7, R53), a multi-word RW register taking effect with
its highest word (R55); one that is sealed or outside its mode keeps its value as a whole (R7). -/
def State.writeFields (s : State) (key : Nat) (data : Word) : State :=
  match hitOf s.cfg key with
  | none => s.deny
  | some h =>
    let r := s.writtenWord key data
    let s := if r.2 then s.deny else s
    if isStaged h then
      if h.word + 1 < h.row.words then (if r.2 then s else s.setStage (KMap.insert s.stage key r.1))
      else if r.2 || s.stagedBad key h.word then s.deny.dropStaged key h.word
      else ((s.wr key r.1).applyStaged key h.word).cutTarget (key - 4 * h.word)
    else s.wr key r.1

/-- The value in effect of a multi-word register as it will be when `data` is written to its highest word at `key`,
word `w`: the staged words below it. -/
def State.stagedWord (s : State) (key : Nat) : Word := (KMap.find? s.stage key).getD (s.rd key)

/-! ### Holding registers -/

/-- A read of a counter's low word latches its high word (R54). DEDUCED, notes/assumptions/68.md. -/
def State.latchHigh (s : State) (key : Nat) : State := s.setHold (KMap.insert s.hold (key + 4) (s.rd (key + 4)))

/-- Latches `k` words that follow `key` (R95, R364, R421). -/
def State.latchNext (s : State) (key k : Nat) : State :=
  s.setHold ((List.range k).foldl (fun m i => KMap.insert m (key + 4 + 4 * i) (s.rd (key + 4 + 4 * i))) s.hold)

/-- A held word, zero before the first latching read (R54). DEDUCED, notes/assumptions/68.md. -/
def State.held (s : State) (key : Nat) : Word := (KMap.find? s.hold key).getD 0

end Sys2Proof.Machine
end

