-- ==== Sys2Proof/Machine/Parse.lean ====
section
/-!
DEFINITION. The parse graph: entry into the pipeline, a step, graph loads, the trace, and the debug read of a node
(07_parse_graph.md R190 to R210).
-/
namespace Sys2Proof.Machine

/-- Counter `k` of the pipeline of half `h` (R210). -/
def State.prsCnt (s : State) (h k : Nat) : State := s.cnt (O.PRS_CNT h k)

/-- Whether a frame comes from a trunk (key byte 2 bit 2, R202). -/
def Src.isTrunk (x : Src) : Bool := decide (8 ≤ x.index ∧ x.index < 10)

/-- FCS_ERR as parsing sees it: of a trunk frame that was kept (R198, 05_trunk_cells.md R154). -/
def Frame.fcsErr (f : Frame) : Bool :=
  match f.src with
  | .chan _ _ => decide (f.status % 2 = 1)
  | _ => false

/-- The 8 metadata bytes of a frame (R198; 11_functions_and_queues.md R313 for a service frame). A frame of a BASE-R trunk counts
as a trunk frame: STATION and VID are 0, the priority is that of R105, and it has no TAG. DEDUCED, notes/assumptions/80.md. -/
def metaBytes (f : Frame) : List Byte :=
  match f.src with
  | .chan t _ => natBe 2 f.tag ++ natBe 1 (8 + t) ++ natBe 1 (32 * f.pri + 8 * b2n f.fcsErr) ++ natBe 4 0
  | .port p =>
    let st := if p < 8 then f.status / 4 % 2 else 0
    natBe 2 0 ++ natBe 1 p ++ natBe 1 (32 * f.pri + 16 * st + 8 * b2n f.fcsErr) ++ natBe 2 (if p < 8 then f.vid else 0) ++ natBe 2 0
  | .host q => natBe 2 q ++ natBe 1 0x10 ++ natBe 1 (32 * f.pri) ++ natBe 4 0
  | _ => natBe 8 0

/-! ### Entry (R191) -/

/-- The offered frame that enters next: round-robin over the half's five sources. -/
def State.nextEntry (s : State) (h : Nat) : Option Nat :=
  let v := s.pipe h
  (List.range 5).findSome? fun i =>
    v.offered.find? fun f => (s.frame f).src.turn == (v.turn + i) % 5

/-- Whether the trace of half `h` takes a frame from source `src` (R209). -/
def State.traces (s : State) (h : Nat) (x : Src) : Bool :=
  s.flag (F.PRS_TRACE_CTL.ARM h) && decide (s.fget (F.PRS_TRACE_CTL.SRC h) = x.index) &&
    !((s.pipe h).flight.any fun f => (s.frame f).parse.traced)

/-- PARSE_ENTRY (R191, R198): the next offered frame enters the pipeline under the half's current course. -/
def execParseEntry (h : Nat) (s : State) : Host.Outcome State Fault Refusal :=
  match s.nextEntry h, s.curCourseOf h with
  | some fid, some c =>
    let v := s.pipe h
    if v.flight.length < 16 then
      let f := s.frame fid
      let tr := s.traces h f.src
      let q : Parse := { stage := 1, slot := c.slot, key := List.replicate 64 0, traced := tr }
      let s := s.setFrame fid { f with course := c.num, parse := q }
      .next (s.setPipe h { v with offered := v.offered.erase fid, flight := v.flight ++ [fid], turn := (f.src.turn + 1) % 5 })
    else .next s
  | _, _ => .next s

/-! ### A node (R196) -/

/-- Word `w` of node `n` of slot `k` in half `h`, zero at or beyond the slot's NODES (R208).
DESIGN CHOICE, notes/assumptions/13.md. -/
def State.nodeWord (s : State) (h k n w : Nat) : Word :=
  if n < s.fget (F.PRS_SLOT_STAT.NODES h k) then KMap.get 0 s.graph (((2 * h + k) * 128 + n) * 40 + w) else 0

/-- A key copy of a node. -/
structure KeyCopy where
  en : Bool
  srcMeta : Bool
  dst : Nat
  len : Nat
  ofs : Nat
deriving DecidableEq, Repr

/-- Reads a key copy word. -/
def keyCopy (w : Word) : KeyCopy :=
  { en := bitOf w 31, srcMeta := bitOf w 30, dst := getBits w 24 6, len := getBits w 16 4 + 1, ofs := getBits w 0 8 }

/-- A node's header (R196). -/
structure PNode where
  term : Bool
  selMeta : Bool
  width : Nat
  selOfs : Nat
  miss : Nat
  mask : Nat
  advConst : Nat
  advScale : Nat
  advMask : Nat
  advOfs : Nat
  cls : Nat
  flags : Nat
  mark : Nat
  copies : List KeyCopy
deriving DecidableEq, Repr

/-- Reads a node's header from its words. -/
def readNode (w : Nat → Word) : PNode :=
  { term := bitOf (w 0) 31, selMeta := bitOf (w 0) 30, width := getBits (w 0) 25 5 + 1, selOfs := getBits (w 0) 8 8
    miss := getBits (w 0) 0 8, mask := (w 1).toNat, advConst := getBits (w 2) 24 8, advScale := getBits (w 2) 20 4
    advMask := getBits (w 2) 8 8, advOfs := getBits (w 2) 0 8, cls := getBits (w 3) 24 8, flags := getBits (w 3) 16 8
    mark := getBits (w 3) 14 2, copies := [4, 5, 6, 7].map fun i => keyCopy (w i) }

/-- Bytes that the select field spans. -/
def PNode.selBytes (n : PNode) : Nat := cdiv n.width 8

/-- The frame bytes that a step at position `p` reads (R203). -/
def PNode.reads (n : PNode) (p : Nat) : List Nat :=
  (if n.term = true ∨ n.selMeta = true then [] else rangeFrom (p + n.selOfs) n.selBytes) ++
  (if n.term = true ∨ n.advMask = 0 then [] else [p + n.advOfs]) ++
  ((n.copies.filter fun c => c.en && !c.srcMeta).map fun c => rangeFrom (p + c.ofs) c.len).flatten

/-- The select field, right-aligned (R197), from the bytes it spans. -/
def selectField (width : Nat) (bs : List Byte) : Nat := beNat bs / 2 ^ (8 * bs.length - width)

/-- Trailing zero bits of a byte mask. -/
def trailing (m : Nat) : Nat := ((List.range 8).find? fun i => m / 2 ^ i % 2 == 1).getD 0

/-- The next node: the first transition entry that matches, or MISS_NEXT, and whether it was a miss (R199). -/
def nextNode (w : Nat → Word) (n : PNode) (f : Nat) : Nat × Bool :=
  match (List.range 16).find? (fun i => bitOf (w (9 + 2 * i)) 31 && (w (8 + 2 * i)).toNat == f) with
  | some i => (getBits (w (9 + 2 * i)) 0 8, false)
  | none => (n.miss, true)

/-! ### A step (R199 to R203) -/

/-- Whether byte `j` is known to be present: the last four bytes of a frame still arriving may be its FCS (R200).
DEDUCED, notes/assumptions/26.md. -/
def Frame.known (f : Frame) (j : Nat) : Bool := f.done || decide (j + 4 < f.bytes.length)

/-- Byte `j` as a parse reads it: past the data it reads 0 (R200). DEDUCED, notes/assumptions/26.md. -/
def Frame.parseByte (f : Frame) (j : Nat) : Byte :=
  if f.done = true ∧ f.bytes.length ≤ j + 4 then 0 else byteAt f.bytes j

/-- Whether the destination, and with it STATION, is known (R198, 04_field_ports.md R103). DEDUCED, notes/assumptions/27.md. -/
def Frame.dstKnown (f : Frame) : Bool := f.done || decide (6 ≤ f.bytes.length)

/-- Whether the priority and the VID of the metadata are known (R198, 04_field_ports.md R105).
DEDUCED, notes/assumptions/27.md. -/
def Frame.headKnown (f : Frame) : Bool := f.done || decide (16 ≤ f.bytes.length)

/-- Whether a node's step reads the metadata (R196). DEDUCED, notes/assumptions/27.md. -/
def PNode.readsMeta (n : PNode) : Bool := (!n.term && n.selMeta) || n.copies.any fun c => c.en && c.srcMeta

/-- Whether byte `j` is past the end (R200). -/
def Frame.pastEnd (f : Frame) (j : Nat) : Bool := f.done && decide (f.bytes.length ≤ j + 4)

/-- Writes key bytes from `i` on. -/
def putKey (key : List Byte) (i : Nat) (bs : List Byte) : List Byte := patch key i bs

/-- Marks, flags and key copies of a step (R199 orders 2 to 4). -/
def stepCopies (f : Frame) (md : List Byte) (n : PNode) (q : Parse) : Parse :=
  let key := n.copies.foldl (fun k c =>
    if c.en then
      putKey k c.dst (if c.srcMeta then (rangeFrom c.ofs c.len).map fun i => byteAt md i
        else (rangeFrom (q.pos + c.ofs) c.len).map f.parseByte)
    else k) q.key
  { q with
    l3 := if n.mark = 1 then q.pos else q.l3
    l4 := if n.mark = 2 then q.pos else q.l4
    app := if n.mark = 3 then q.pos else q.app
    flags := Nat.lor q.flags n.flags
    key := key }

/-- The outcome of one step: the parse after it, and whether it has ended (R199, R203). -/
def parseStep (f : Frame) (md : List Byte) (w : Nat → Word) : Parse × Bool :=
  let q := f.parse
  let n := readNode w
  let rs := n.reads q.pos
  let q := { q with steps := q.steps + 1, trace := q.trace ++ [q.node] }
  if 256 ≤ q.pos ∨ rs.any (fun j => decide (256 ≤ j)) = true then
    ({ q with cls := 0xFF, incomplete := Nat.lor q.incomplete 64 }, true)
  else
    let q := { q with
      high := rs.foldl (fun a j => max a (j + 1)) q.high
      incomplete := if rs.any f.pastEnd then Nat.lor q.incomplete 32 else q.incomplete }
    let q := stepCopies f md n q
    if n.term then ({ q with cls := n.cls }, true)
    else
      let bs := (rangeFrom n.selOfs n.selBytes).map fun i => if n.selMeta then byteAt md i else f.parseByte (q.pos + i)
      let nx := nextNode w n (Nat.land (selectField n.width bs) n.mask)
      let adv := if n.advMask = 0 then 0
        else Nat.land (f.parseByte (q.pos + n.advOfs)).toNat n.advMask / 2 ^ trailing n.advMask * n.advScale
      let q := { q with node := nx.1, miss := q.miss || nx.2, pos := q.pos + n.advConst + adv }
      if 24 ≤ q.steps then ({ q with cls := 0xFF, incomplete := Nat.lor q.incomplete 128 }, true) else (q, false)

/-- Key byte 2 at the end of a parse (R202). -/
def hwFlags (f : Frame) (q : Parse) : Nat :=
  let st := match f.src with
    | .chan _ _ => 0
    | _ => 16 * (f.status / 4 % 2)
  q.incomplete + st + 8 * b2n f.fcsErr + 4 * b2n f.src.isTrunk

/-- Writes the trace of a finished parse (R209). -/
def State.writeTrace (s : State) (h : Nat) (q : Parse) : State :=
  let at_ (k : Nat) : Nat := q.trace.getD k 0xFF
  let s := forEach (List.range 6) (fun n s =>
    s.wr (O.PRS_TRACE h n) (BitVec.ofNat 32
      (at_ (4 * n) + 2 ^ 8 * at_ (4 * n + 1) + 2 ^ 16 * at_ (4 * n + 2) + 2 ^ 24 * at_ (4 * n + 3)))) s
  (s.fsets [(F.PRS_TRACE_RES.DONE h, 1), (F.PRS_TRACE_RES.STEPS h, q.steps), (F.PRS_TRACE_RES.HWFLAGS h, (byteAt q.key 2).toNat),
    (F.PRS_TRACE_RES.FLAGS h, (byteAt q.key 1).toNat), (F.PRS_TRACE_RES.CLASS h, (byteAt q.key 0).toNat),
    (F.PRS_TRACE_CTL.ARM h, 0)]).raise 11

/-- The parse of a frame ends: its result is delivered and counted (R202, R203, R210). -/
def State.parseEnd (s : State) (h fid : Nat) (q : Parse) : State :=
  let f := s.frame fid
  let key := patch q.key 0 [BitVec.ofNat 8 q.cls, BitVec.ofNat 8 q.flags, BitVec.ofNat 8 (hwFlags f q)]
  let q := { q with stage := 2, key := key }
  let v := s.pipe h
  let s := s.setPipe h { v with flight := v.flight.erase fid, results := v.results ++ [fid] }
  let s := s.setFrame fid { f with parse := q }
  let inc := q.incomplete
  let s := (s.prsCnt h 0).prsCnt h (if inc / 64 = 0 then 1 else if inc / 128 = 1 then 2 else 3)
  let s := if inc / 32 % 2 = 1 then s.prsCnt h 4 else s
  let s := if q.miss then s.prsCnt h 5 else s
  let s := if q.traced then s.writeTrace h q else s
  s.checkSums fid

/-- PARSE_STEP (R192, R197, R199 to R203, R209, R210): one step of the `i`-th frame in flight, once the bytes that the
step reads are present: a step that reads the metadata waits for the header, one that ends the parse for the destination.
DEDUCED, notes/assumptions/26.md and notes/assumptions/27.md. -/
def execParseStep (h i : Nat) (s : State) : Host.Outcome State Fault Refusal :=
  match (s.pipe h).flight[i]? with
  | none => .next s
  | some fid =>
    let f := s.frame fid
    let w := fun k => s.nodeWord h f.parse.slot f.parse.node k
    let n := readNode w
    let need := (n.reads f.parse.pos).filter fun j => decide (j < 256)
    if need.all f.known = true ∨ 256 ≤ f.parse.pos ∨ (n.reads f.parse.pos).any (fun j => decide (256 ≤ j)) = true then
      let r := parseStep f (metaBytes f) w
      if f.headKnown = false ∧ (n.readsMeta = true ∨ (r.2 = true ∧ f.dstKnown = false)) then .next s
      else if r.2 then .next (s.parseEnd h fid r.1)
      else .next (s.setFrame fid { f with parse := r.1 })
    else .next s

/-! ### Graph loads (R205 to R207) -/

/-- Whether the block is in one of the four modes in which tables may change. -/
def State.tablesOpen (s : State) : Bool := decide (2 ≤ s.mode ∧ s.mode ≤ 5)

/-- Whether Gweip-X has lost half B or the half-to-half link (R206, 08 R219). -/
def State.halvesApart (s : State) : Bool :=
  decide (s.cfg = .x) && (!s.flag F.BLK_HALF.LINK_UP || s.flag F.BLK_MODE.HALF_LOST)

/-- A write of PRS_LOAD_CTL (R206, R207): an accepted load reads the image's header, as far as it lies below 2^44. RESULT reads 0
while it runs: DESIGN CHOICE, notes/assumptions/81.md. -/
def State.loadCtlWrite (data : Word) (s : State) : State :=
  let s := s.writeFields O.PRS_LOAD_CTL data
  let k := getBits data 16 1
  if bitOf data 31 = false then s
  else if s.flag F.PRS_LOAD_CTL.BUSY then s.fset F.PRS_LOAD_CTL.RESULT 2
  else if s.flag (F.PRS_SLOT_STAT.IN_USE s.leader k) then s.fset F.PRS_LOAD_CTL.RESULT 3
  else if s.tablesOpen = false then s.fset F.PRS_LOAD_CTL.RESULT 4
  else if s.halvesApart then s.fset F.PRS_LOAD_CTL.RESULT 5
  else
    let a := s.rd64 O.PRS_LOAD_ADDR
    let s := forEach s.halfList (fun h s => s.fset (F.PRS_SLOT_STAT.VALID h k) 0) s
    let s := (s.setGload (some ⟨k, a⟩)).fsets [(F.PRS_LOAD_CTL.BUSY, 1), (F.PRS_LOAD_CTL.RESULT, 0)]
    if addrOk a 32 then s.hostRead .graph a 32 else s

/-- GRAPH_LOAD (R206): a PRS_LOAD_CTL write. -/
def execGraphLoad (fn : Nat) (data : Word) (s : State) : Host.Outcome State Fault Refusal :=
  .next (s.access fn O.PRS_LOAD_CTL fun _ s => s.loadCtlWrite data)

/-- Word `w` of node `n` of an image. -/
def imageWord (img : List Byte) (n w : Nat) : Word := BitVec.ofNat 32 (leNat (slice img (32 + 160 * n + 4 * w) 4))

/-- Whether a node's references are in range (R207). -/
def nodeOk (nodes : Nat) (w : Nat → Word) : Bool :=
  let n := readNode w
  let copies := n.copies.all fun c => !c.en || decide (3 ≤ c.dst ∧ c.dst + c.len ≤ 64)
  let nexts := n.term || (decide (n.miss < nodes) &&
    (List.range 16).all fun i => !bitOf (w (9 + 2 * i)) 31 || decide (getBits (w (9 + 2 * i)) 0 8 < nodes))
  copies && nexts && !(n.term && decide (n.cls = 0xFF))

/-- The RESULT of a load from its image (R205, R207). -/
def loadResult (c : Cfg) (addr : Nat) (img : List Byte) (err : Bool) : Nat :=
  let w (i : Nat) : Nat := leNat (slice img (4 * i) 4)
  let nodes := w 1 / 2 ^ 16 % 256
  let size := 32 + 160 * nodes
  if 2 ^ 44 < addr + 32 then 10
  else if err = true ∧ img.length < 32 then 9
  else if w 0 ≠ 0x47505247 ∨ w 1 % 65536 ≠ 1 ∨ w 1 / 2 ^ (c.pick 24 25) % 2 = 0 ∨ nodes = 0 ∨ c.nodes < nodes then 6
  else if 2 ^ 44 < addr + size then 10
  else if err then 9
  else if w 3 ≠ crc32c (slice img 32 (160 * nodes)) then 7
  else if (List.range nodes).all (fun n => nodeOk nodes (imageWord img n)) then 1
  else 8

/-- The words of an image in slot `k` of half `h`. -/
def imageMap (img : List Byte) (nodes h k : Nat) : KMap Word :=
  ((List.range nodes).map fun n => ((List.range 40).map fun w => (((2 * h + k) * 128 + n) * 40 + w, imageWord img n w))).flatten.filter
    fun e => e.2 != 0

/-- The words of slot `k` of half `h` replaced. -/
def replaceSlot (g : KMap Word) (h k : Nat) (new : KMap Word) : KMap Word :=
  let lo := (2 * h + k) * 128 * 40
  (g.filter fun e => decide (e.1 < lo)) ++ new ++ (g.filter fun e => decide (lo + 128 * 40 ≤ e.1))

/-- Whether the header of an image lets its nodes be read: read without error, right for the configuration, with the image's range
below 2^44 (R205, R207). -/
def headerOk (c : Cfg) (addr : Nat) (img : List Byte) : Bool :=
  let r := loadResult c addr img false
  decide (32 ≤ img.length ∧ r ≠ 6 ∧ r ≠ 10)

/-- GRAPH_LOAD_DONE (R205, R207): the nodes are read as function 0, and the load ends with the image that was read, or with an
error response. A load that fails leaves NODES, LAYOUT_ID and the words of the slot as they were: DESIGN CHOICE,
notes/assumptions/81.md. -/
def execGraphLoadDone (image : List Byte) (err : Bool) (s : State) : Host.Outcome State Fault Refusal :=
  match s.gload with
  | none => .next s
  | some g =>
    let r := loadResult s.cfg g.addr image err
    let nodes := leNat (slice image 6 1)
    let s := if headerOk s.cfg g.addr image then s.hostRead .graph (g.addr + 32) (160 * nodes) else s
    let s :=
      if r = 1 then
        forEach s.halfList (fun h s =>
          (s.setGraph (replaceSlot s.graph h g.slot (imageMap image nodes h g.slot))).fsets
            [(F.PRS_SLOT_STAT.VALID h g.slot, 1), (F.PRS_SLOT_STAT.NODES h g.slot, nodes),
             (F.PRS_SLOT_ID.LAYOUT_ID h g.slot, leNat (slice image 8 4))]) s
      else s
    .next (s.endLoad r)

/-! ### Trace and debug read -/

/-- TRACE_ARM (R209): a write of PRS_TRACE_CTL. -/
def execTraceArm (fn h : Nat) (data : Word) (s : State) : Host.Outcome State Fault Refusal :=
  .next (s.access fn (O.PRS_TRACE_CTL h) fun key s => s.writeFields key data)

/-- A read of PRS_NODE_DATA_h (R208). -/
def State.nodeDataRead (h : Nat) (s : State) : State :=
  if s.mode = 0 ∨ s.mode = 7 then s.deny
  else
    let k := s.fget (F.PRS_NODE_ADDR.SLOT h)
    let n := s.fget (F.PRS_NODE_ADDR.NODE h)
    let w := min 39 (s.fget (F.PRS_NODE_ADDR.WORD h))
    let r := s.nodeWord h k n w
    let s :=
      if s.flag (F.PRS_NODE_ADDR.AUTOINC h) = false then s
      else if w < 39 then s.fset (F.PRS_NODE_ADDR.WORD h) (w + 1)
      else s.fsets [(F.PRS_NODE_ADDR.WORD h, 0), (F.PRS_NODE_ADDR.NODE h, (n + 1) % s.cfg.nodes)]
    s.answer false r.toNat

/-- PRS_NODE_DATA_READ (R208). -/
def execPrsNodeDataRead (fn h : Nat) (s : State) : Host.Outcome State Fault Refusal :=
  .next (s.access fn (O.PRS_NODE_DATA h) fun _ s => s.nodeDataRead h)

end Sys2Proof.Machine
end

