-- ==== Sys2Proof/Machine/ForwardOps.lean ====
section
/-!
DEFINITION. Where a frame goes: actions, the exact-match lookups, recovery, and the copies at ports, queue pairs and threads
(08_rules_courses_forwarding.md R211 to R234), shared by the classifier, a thread's dispose and a host frame.
-/
namespace Sys2Proof.Machine

/-- Counter `k` of the classifier of half `h` (R235). -/
def State.clsCnt (s : State) (h k : Nat) : State := s.cnt (O.CLS_CNT h k)

/-- An action (R214). -/
structure Act where
  kind : Nat
  em : Bool
  learn : Bool
  mirror : Bool
  vtag : Nat
  rtag : Nat
  stream : Nat
  priEn : Bool
  pri : Nat
  vid : Nat
  chan : Nat
  target : Nat

/-- Reads the 64 bits of an action (R214). -/
def readAct (n : Nat) : Act :=
  { kind := natBits n 61 3, em := decide (natBits n 60 1 = 1), learn := decide (natBits n 59 1 = 1)
    mirror := decide (natBits n 58 1 = 1), vtag := natBits n 56 2, rtag := natBits n 54 2, stream := natBits n 48 6
    priEn := decide (natBits n 47 1 = 1), pri := natBits n 44 3, vid := natBits n 32 12, chan := natBits n 16 10
    target := natBits n 0 12 }

/-! ### Halves -/

/-- Whether the half-to-half link is up at both ends (01_block_and_halves.md R21). -/
def State.linked (s : State) : Bool := (s.half 0).half.up && (s.half 1).half.up

/-- Whether a frame of half `h` can cross to half `k` (01 R23; 18_faults_and_selftest.md, half loss). -/
def State.reaches (s : State) (h k : Nat) : Bool := decide (h = k) || (s.linked && !s.halfInReset k)

/-- The half that keeps the exact-match table for half `h`: the leader, or each half its own while both claim
(01 R35; R223). -/
def State.emKeeper (s : State) (h : Nat) : Nat := if s.linked then s.leader else h

/-- The halves whose table copy a change made by half `h` reaches (R223). -/
def State.emReach (s : State) (h : Nat) : List Nat := if s.linked then s.halfList else [h]

/-- The exact-match table of half `h`. -/
def State.em (s : State) (h : Nat) : List EmEnt := KMap.get [] s.ems h

/-- Replaces the exact-match table of half `h`. -/
def State.setEm (s : State) (h : Nat) (l : List EmEnt) : State := s.setEms (KMap.put [] s.ems h l)

/-- Buffer address of the entry of a key in the table of half `h`, if granules are reserved for it (R223).
DESIGN CHOICE, notes/assumptions/30.md. -/
def State.emAddr (s : State) (h : Nat) (key : List Byte) : Option Nat :=
  let l := (s.mem.grans.filter fun e => e.2.em && s.cfg.halfOfBank (e.1 / 64) == h).map (·.1)
  let i := Config.emSlot h key % (128 * l.length)
  (l[i / 128]?).map fun g => 4096 * g + 32 * (i % 128)

/-- Whether a write of a key's entry in the table of half `h` has its region right, and the state after the access: a denied write
changes nothing (13_buffer_memory_and_placement.md R344, master 13). -/
def State.emMayWrite (s : State) (h : Nat) (key : List Byte) : Bool × State :=
  match s.emAddr h key with
  | some a => if s.mayWrite 13 (a / 4096) then (true, s) else (false, s.denyRegion 13 true a)
  | none => (true, s)

/-- Changes the entry of a key in the copies that half `h`'s changes reach, where the write is allowed. -/
def State.emChange (s : State) (h : Nat) (key : List Byte) (f : List EmEnt → List EmEnt) : State :=
  forEach (s.emReach h) (fun k s =>
    let r := s.emMayWrite k key
    if r.1 then r.2.setEm k (f (r.2.em k)) else r.2) s

/-! ### Exact-match lookups (R224, R228, R229) -/

/-- Whether a learned entry has been flushed: its generation differs (R229). -/
def State.flushed (s : State) (e : EmEnt) : Bool :=
  decide (e.typ = 2) &&
    (decide (e.genA ≠ s.fget F.CLS_FLUSH.GEN_A) || (decide (8 ≤ e.port) && decide (e.genT ≠ s.fget F.CLS_FLUSH.GEN_T)))

/-- The entry of half `h`'s table that a lookup of a flow key (`fwd` false) or a forwarding key finds.
DESIGN CHOICE, notes/assumptions/30.md. -/
def State.emFind (s : State) (h : Nat) (fwd : Bool) (key : List Byte) : Option EmEnt :=
  (s.em h).find? fun e => decide (e.key = key) && (if fwd then e.typ != 0 else e.typ == 0) && !s.flushed e

/-- A lookup in the table of half `h`: a denied read returns zeros, which hold no entry (13_buffer_memory_and_placement.md R344,
master 13). -/
def State.emLookup (s : State) (h : Nat) (fwd : Bool) (key : List Byte) : Option EmEnt × State :=
  match s.emAddr h key with
  | some a => if s.mayRead 13 (a / 4096) then (s.emFind h fwd key, s) else (none, s.denyRegion 13 false a)
  | none => (s.emFind h fwd key, s)

/-- A hit on a learned entry sets HIT; an entry that awaits removal is kept, which is counted in AGE_SAVED (R226,
R228). DESIGN CHOICE, notes/assumptions/28.md. -/
def State.emHit (s : State) (h : Nat) (e : EmEnt) : State :=
  if e.typ = 2 then
    let s := if e.dying then s.clsCnt (s.emKeeper h) 13 else s
    s.emChange h e.key fun l => l.map fun x => if x.typ = 2 ∧ x.key = e.key then { x with hit := true, dying := false } else x
  else s

/-- Key of a forwarding entry: an address and a VID (R224). -/
def fwdKey (addr : List Byte) (vid : Nat) : List Byte := addr ++ natBe 2 (vid % 4096)

/-- The VID in use for bridging (R224). -/
def Frame.vidUsed (f : Frame) : Nat :=
  match f.src with
  | .port _ => f.vid
  | _ => if beNat (slice f.bytes 12 2) = 0x8100 then beNat (slice f.bytes 14 2) % 4096 else 0

/-- The flow key under flow profile `flow` (R224): FLOW_LEN bytes from FLOW_OFS, padded to 20 bytes. -/
def flowKey (key : List Byte) (flow : Nat) : List Byte :=
  let n := min 20 (max 1 (natBits flow 8 5))
  ((rangeFrom (natBits flow 0 6) n).map fun i => byteAt key i) ++ List.replicate (20 - n) 0

/-- `k` key bytes from `i` on; bytes beyond the key read 0. -/
def keyBytes (key : List Byte) (i k : Nat) : List Byte := (rangeFrom i k).map fun j => byteAt key j

/-- The lesser, then the greater, of two fields (R230). -/
def orderFields (a b : List Byte) : List Byte := if beNat a ≤ beNat b then a ++ b else b ++ a

/-- The symmetric hash under hash profile `hash` (R230). -/
def hashOf (key : List Byte) (hash : Nat) : Nat :=
  let al := min 16 (natBits hash 32 5)
  let ab := orderFields (keyBytes key (natBits hash 48 6) al) (keyBytes key (natBits hash 40 6) al)
  let cd :=
    if natBits hash 15 1 = 1 then orderFields (keyBytes key (natBits hash 24 6) 2) (keyBytes key (natBits hash 16 6) 2)
    else []
  crc32c (ab ++ cd ++ keyBytes key (natBits hash 8 6) (min 4 (natBits hash 0 3)))

/-- A key as a number, key byte 0 in bits [7:0] (R213). -/
def keyNat (key : List Byte) : Nat := leNat key

/-- Whether a key matches an entry (R213). -/
def Tcam.hits (t : Tcam) (key : Nat) : Bool := decide (Nat.land (Nat.xor key t.val) t.mask = 0)

/-- The lowest-indexed entry visible at position `pos` that matches (R211 step 1, R213). -/
def State.tcamFind (s : State) (pos : Nat) (key : Nat) : Option (Nat × Tcam) :=
  List.find? (fun t : Nat × Tcam => decide (t.2.vis / 2 ^ pos % 2 = 1) && t.2.hits key) s.cls.tcam

/-! ### A frame on its way to its destinations -/

/-- What decides a frame's destinations: the action, the half that decides, the port it came from, the priority in use, the
host descriptor or the thread it comes from, and whether it is a received frame (R211, R275, R294). -/
structure Route where
  fid : Nat
  act : Act
  half : Nat
  ingress : Option Nat := none
  pri : Nat := 0
  host : Option (Nat × Nat) := none
  thread : Option Nat := none
  csum : Bool := false
  onestep : Bool := false
  /-- Queue pair for KIND QUEUE with TARGET 0 (11_functions_and_queues.md R314). -/
  bound : Option Nat := none
  src : Nat := 0
  word3 : Nat := 0
  hash : Nat := 0
  seq : Nat := 0

/-- A destination. -/
inductive Dest where
  | port (p chan : Nat)
  | queue (q : Nat)
  | thread (k : Nat)

/-- Whether a queue pair can be the target of a frame (R215; 11 R286, R289, R316). DESIGN CHOICE, notes/assumptions/40.md. -/
def State.qpTakes (s : State) (q : Nat) : Bool :=
  let v := s.qp q
  v.en && !v.admin && !v.dying && decide (v.rxL ≠ 0) && decide ((s.func v.owner).state = 1)

/-- Whether a thread can be the target of a frame (R215; 09_engine_threads.md R253). -/
def State.thrTakes (s : State) (k : Nat) : Bool :=
  decide (k / 8 < s.cfg.engines) && s.domOn (4 + s.cfg.clusterOf (k / 8)) && decide (s.thrState (k / 8) (k % 8) ≠ 0)

/-- The ports of a mask that the configuration has, without the ingress port (R215). -/
def State.maskPorts (s : State) (mask : Nat) (ingress : Option Nat) : List Nat :=
  (List.range 10).filter fun p => decide (mask / 2 ^ p % 2 = 1) && s.cfg.hasPort p && !(ingress == some p)

/-- Whether an address is broadcast. -/
def isBroadcast (a : List Byte) : Bool := a.all fun b => b == 0xFF

/-- The bridge lookup (R211 step 4, R215, R224): port mask and channel, with its hit or flood counted. -/
def State.bridge (s : State) (h : Nat) (f : Frame) (a : Act) : Nat × Nat × State :=
  let dst := slice f.bytes 0 6
  let miss := (a.target % 1024, a.chan, s.clsCnt h 6)
  if isBroadcast dst then miss
  else
    let r := s.emLookup h true (fwdKey dst f.vidUsed)
    match r.1 with
    | none => (a.target % 1024, a.chan, r.2.clsCnt h 6)
    | some e =>
      let s := (r.2.emHit h e).clsCnt h 5
      if e.typ = 2 then (2 ^ e.port, e.chan, s)
      else
        let x := readAct e.act
        (x.target % 1024, x.chan, s)

/-- The destination set by KIND (R215), with the frame counted in DROPPED or NO_TARGET when it is left with none.
DESIGN CHOICE, notes/assumptions/28.md. -/
def State.resolve (s : State) (r : Route) : List Dest × State :=
  let none_ (k : Nat) := (([] : List Dest), s.clsCnt r.half k)
  let ports (mask chan : Nat) (s : State) : List Dest × State :=
    let l := s.maskPorts mask r.ingress
    if l.isEmpty then ([], s.clsCnt r.half 7) else (l.map fun p => .port p chan, s)
  let queue (q : Nat) := if s.qpTakes q then ([Dest.queue q], s) else none_ 8
  let thread (k : Nat) := if s.thrTakes k then ([Dest.thread k], s) else none_ 8
  let a := r.act
  if a.kind = 1 then ports (a.target % 1024) a.chan s
  else if a.kind = 2 then
    if a.target = 0 then
      match r.bound with
      | some q => queue q
      | none => none_ 8
    else queue a.target
  else if a.kind = 3 then thread (a.target % 128)
  else if a.kind = 4 then
    let i := r.hash % 512
    let t := getBits (s.rd (O.CLS_IND (i / 4))) (8 * (i % 4)) 6
    if s.flag (F.CLS_SPREAD_TGT.VALID t) = false then none_ 8
    else if s.flag (F.CLS_SPREAD_TGT.THREAD t) then thread (s.fget (F.CLS_SPREAD_TGT.ID t))
    else queue (s.fget (F.CLS_SPREAD_TGT.ID t))
  else if a.kind = 5 then
    let b := s.bridge r.half (s.frame r.fid) a
    ports b.1 b.2.1 b.2.2
  else none_ 7

/-! ### R-TAGs (R233, R234) -/

/-- Whether a stream is enabled; a stream not enabled leaves R-TAGs untouched. -/
def State.streamOn (s : State) (n : Nat) : Bool := s.flag (F.CLS_SR.EN n)

/-- The R-TAG action in effect: none for a stream that is not enabled. DESIGN CHOICE, notes/assumptions/31.md. -/
def State.rtagOf (s : State) (a : Act) : Nat := if s.streamOn a.stream then a.rtag else 0

/-- Whether the bytes that the R-TAG actions read have arrived (R233, R234): the first 22. DEDUCED, notes/assumptions/27.md. -/
def State.rtagKnown (s : State) (a : Act) (f : Frame) : Bool := f.done || decide (s.rtagOf a < 2 ∨ 22 ≤ f.bytes.length)

/-- What vector recovery says of a sequence number: the history after it, and none for accepted or the counter that
counts the discard (R234). DESIGN CHOICE, notes/assumptions/31.md. -/
def recoverSeq (h : Hist) (len q : Nat) : Hist × Option Nat :=
  let d := sint 16 ((q + 65536 - h.last % 65536) % 65536)
  if h.any then ({ any := false, last := q, seen := [0] }, none)
  else if (len : Int) ≤ d.natAbs then (h, some 16)
  else if 0 < d then
    ({ h with last := q, seen := 0 :: (h.seen.map (· + d.toNat)).filter fun x => decide (x < len) }, none)
  else if d.natAbs ∈ h.seen then (h, some 15)
  else ({ h with seen := d.natAbs :: h.seen }, none)

/-- Runs vector recovery of stream `n` at egress `e` (10 for host and thread deliveries) on a frame: whether it is
accepted. A frame without an R-TAG passes. DESIGN CHOICE, notes/assumptions/31.md. -/
def State.recover (s : State) (h e n : Nat) (f : Frame) : Bool × State :=
  match f.rtagAt with
  | none => (true, s)
  | some i =>
    let k := 64 * e + n
    let r := recoverSeq (KMap.get {} s.cls.hist k) (s.fget (F.CLS_SR.HIST_M1 n) + 1) (beNat (slice f.bytes (i + 4) 2))
    let s := s.setCls { s.cls with hist := KMap.put {} s.cls.hist k r.1 }
    match r.2 with
    | none => (true, s)
    | some c => (false, s.clsCnt h c)

/-! ### Copies -/

/-- Bytes that the tag actions add to a frame, at most those of an R-TAG and a tag inserted, less those taken away.
DEDUCED, notes/assumptions/25.md. -/
def State.tagGrowth (s : State) (r : Route) (f : Frame) : Int :=
  let v : Int := if r.act.vtag = 1 then 4 else if r.act.vtag = 2 ∧ f.hasTag = true then -4 else 0
  let t : Int :=
    if s.rtagOf r.act = 1 then 6 else if 2 ≤ s.rtagOf r.act ∧ f.rtagAt.isSome = true then -6 else 0
  v + t

/-- Whether the length of a whole frame lets port `p` take a copy that the tags make `g` bytes longer (R232): at most MAX_LEN
as sent, and for a MAC at least 64 bytes, to which a host's frame is padded (11_functions_and_queues.md R295).
DEDUCED, notes/assumptions/25.md. -/
def State.lenTaken (s : State) (p : Nat) (f : Frame) (g : Int) : Bool :=
  decide ((f.wireLen : Int) + g ≤ s.maxLen p) && (!s.isMac p || f.fromHost || decide (64 ≤ (f.wireLen : Int) + g))

/-- Whether the length of a frame lets port `p` take a copy; one still arriving is judged when it is whole (R232).
DEDUCED, notes/assumptions/25.md. -/
def State.lenOk (s : State) (p : Nat) (r : Route) : Bool :=
  let f := s.frame r.fid
  !f.done || s.lenTaken p f (s.tagGrowth r f)

/-- Whether port `p` can take a copy on channel `chan` (R232, R215; 18_faults_and_selftest.md R418). -/
def State.canTake (s : State) (p chan : Nat) (r : Route) : Bool :=
  (if s.isMac p then s.flag (F.MAC_CTL.EN_TX p) && !(decide (p < 8) && (s.port p).clkLost)
   else s.flag (F.TRK_CFG.EN (p - 8)) && decide (1 ≤ chan ∧ chan ≤ 0x3FD)) &&
    decide (s.queued p r.pri ≤ 256 * s.fget (F.CLS_EGR_LIM.LIM p)) && s.lenOk p r

/-- One copy for port `p` (R232): discarded and counted where the port cannot take it, blocked at a trunk (R184), lost where
the other half cannot be reached, discarded when the frame has ended bad (04_field_ports.md R113, R114), judged by recovery,
and queued otherwise. DEDUCED, notes/assumptions/32.md. -/
def State.toPort (s : State) (r : Route) (p chan : Nat) (multi : Bool) : State :=
  let gone (s : State) := s.hostDone r.host false 0 0
  if 8 ≤ p ∧ s.isMac p = false ∧ s.flag (F.TRK_PROT_STAT.BLOCKED (p - 8)) = true then
    gone (s.fsat (F.TRK_BLOCK_DROP.COUNT (p - 8)) 1)
  else if s.reaches r.half (s.cfg.halfOfAnyPort p) = false then gone s
  else if (s.frame r.fid).done = true ∧ (s.frame r.fid).bad = true then gone s
  else if s.canTake p chan r = false then gone (s.cnt (if multi then O.CLS_MC_PARTIAL p else O.CLS_UC_DROP p))
  else
    let tag := s.rtagOf r.act
    let c := if tag = 3 then s.recover r.half p r.act.stream (s.frame r.fid) else (true, s)
    if c.1 then
      c.2.enqueue p { fid := r.fid, cls := r.pri, host := r.host, vtag := r.act.vtag, rtag := tag, seq := r.seq, vid := r.act.vid
                      onestep := r.onestep, csum := r.csum, chan := chan, thread := r.thread, multi := multi }
    else gone c.2

/-- A frame is entered for the receive side of queue pair `q`; its owner and queue pair name its place in buffer memory
(R215; 11_functions_and_queues.md R296, R297). -/
def State.toQueue (s : State) (r : Route) (q : Nat) : State :=
  let w : RxWait := { fid := r.fid, src := r.src, word3 := r.word3, hash := r.hash, thread := r.thread, host := r.host
                      vtag := r.act.vtag, rtag := s.rtagOf r.act, seq := r.seq, vid := r.act.vid, pri := r.pri }
  let v := s.qp q
  let s := s.setQp q { v with rxs := v.rxs ++ [w] }
  let f := s.frame r.fid
  if f.parts.isEmpty then s.setFrame r.fid { f with owners := f.owners ++ [(v.owner, q)] } else s

/-- The tag actions and the priority apply to the frame that goes to a thread (R211 step 6, R216, R233, R234): the block changes the
frame that it holds; the FCS that came with it stands until a copy leaves. DEDUCED, notes/assumptions/38.md. -/
def State.tagThread (s : State) (r : Route) : State :=
  let f := s.frame r.fid
  let tag := s.rtagOf r.act
  let c : Copy := { fid := r.fid, cls := r.pri, vtag := r.act.vtag, rtag := tag, seq := r.seq, vid := r.act.vid }
  let new := fromSlots (s.tagSlots 10 c f (toSlots f.bytes))
  if new = f.bytes then s.setFrame r.fid { f with usePri := some r.pri }
  else
    let grow : Int := (new.length : Int) - (f.bytes.length : Int)
    let mark (m : Nat) : Nat := if m = 0xFFFF ∨ m ≤ 12 then m else ((m : Int) + grow).toNat
    let q := f.parse
    let tagged := r.act.vtag = 1 ∨ (f.tagged = true ∧ r.act.vtag ≠ 2)
    let s := s.setFrame r.fid
      { f with bytes := new, raw := if f.done then none else some f.received, parts := [], tagged := decide tagged, usePri := some r.pri
               parse := { q with l3 := mark q.l3, l4 := mark q.l4, app := mark q.app } }
    forEach (s.threads.filter fun t => t.2.bound == some r.fid) (fun t s =>
      s.eput (t.1 / 8) (0x30000 + 0x800 * (t.1 % 8)) (new.take 2048)) s

/-- A frame enters the receive queue of thread `k` (R215; 09 R253). DEDUCED, notes/assumptions/38.md. -/
def State.toThread (s : State) (r : Route) (k : Nat) : State :=
  if s.reaches r.half (s.cfg.halfOfEngine (k / 8)) then
    let n := (s.thr (k / 8) (k % 8)).rxq.length
    (s.enterThread k r.fid).hostDone r.host (decide (n < 16)) 0 0
  else s.hostDone r.host false 0 0

/-- Whether a destination is a port. -/
def Dest.isPort (d : Dest) : Bool :=
  match d with
  | .port _ _ => true
  | _ => false

/-- Whether a destination is a thread. -/
def Dest.isThread (d : Dest) : Bool :=
  match d with
  | .thread _ => true
  | _ => false

/-- Sends a frame to its destinations (R211 steps 4 to 6, R232 to R234): recovery at host and thread deliveries is run
once for a frame; the frame that goes to a thread has its tag actions applied as it goes, so that they act on no copy again. -/
def State.send (s : State) (r : Route) (l : List Dest) : State :=
  let np := (l.filter Dest.isPort).length
  let hostSide := l.any fun d => !d.isPort
  let c :=
    if s.rtagOf r.act = 3 ∧ hostSide = true then s.recover r.half 10 r.act.stream (s.frame r.fid) else (true, s)
  let toThr := l.any Dest.isThread && c.1
  let c := (c.1, if toThr then c.2.tagThread r else c.2)
  let r := if toThr then { r with act := { r.act with vtag := 0, rtag := 0 } } else r
  forEach l (fun d s =>
    match d with
    | .port p chan => s.toPort r p chan (decide (1 < np))
    | .queue q => if c.1 then s.toQueue r q else s.hostDone r.host false 0 0
    | .thread k => if c.1 then s.toThread r k else s.hostDone r.host false 0 0) c.2

/-- The sequence number that RTAG 1 inserts, and the stream's GEN_SEQ moved on, once per frame (R233).
DESIGN CHOICE, notes/assumptions/31.md. -/
def State.takeSeq (s : State) (a : Act) : Nat × State :=
  if s.rtagOf a = 1 then
    let n := s.fget (F.CLS_SR.GEN_SEQ a.stream)
    (n, s.fset (F.CLS_SR.GEN_SEQ a.stream) (n + 1))
  else (0, s)

/-- A frame held whole with no queue pair to own it belongs to the block (13_buffer_memory_and_placement.md R346). -/
def State.ownBlock (s : State) (fid : Nat) : State :=
  let f := s.frame fid
  if f.owners.isEmpty ∧ f.parts.isEmpty then s.setFrame fid { f with owners := [(256, 0xFFF)] } else s

/-- The copies of a frame that has become whole are judged by its length (R232): one that a port cannot take is discarded and
counted. DEDUCED, notes/assumptions/25.md. -/
def State.judgeLens (s : State) (fid : Nat) : State :=
  let f := s.frame fid
  forEach ((List.range 10).filter fun p => s.cfg.hasPort p) (fun p s =>
    forEach ((s.port p).egress.filter fun c => c.kind == 0 && c.fid == fid) (fun c s =>
      let g : Int := (if c.vtag = 1 then 4 else if c.vtag = 2 ∧ f.hasTag = true then -4 else 0) +
        (if c.rtag = 1 then 6 else if 2 ≤ c.rtag ∧ f.rtagAt.isSome = true then -6 else 0)
      if s.lenTaken p f g then s
      else
        let v := s.port p
        let s := s.cnt (if c.multi then O.CLS_MC_PARTIAL p else O.CLS_UC_DROP p)
        (s.setPort p { v with egress := v.egress.erase c }).copyGone p c false 0) s) s

/-- A commit under way ends with RESULT 7 (R220): the prepared position is released, the stage is open again as it was.
DESIGN CHOICE, notes/assumptions/29.md. -/
def State.commitFail (s : State) : State :=
  match s.cls.prep with
  | none => s
  | some p =>
    let open_ := s.flag F.CLS_COURSE_STAT.STAGE_OPEN
    let back (t : Tcam) : Tcam :=
      { t with stage := if open_ then t.stage else decide (t.vis / 2 ^ p.course.pos % 2 = 1)
               vis := Nat.land t.vis (15 - 2 ^ p.course.pos) }
    (s.setCls { s.cls with prep := none, tcam := s.cls.tcam.map fun t => (t.1, back t.2) }).fsets
      [(F.CLS_COMMIT.PENDING, 0), (F.CLS_COMMIT.RESULT, 7), (F.CLS_COURSE_STAT.STAGE_OPEN, 1)] |>.showCourses.raise 8

/-- The queue pair bound to parse class `c`, if any (11 R314). -/
def State.boundTo (s : State) (c : Nat) : Option Nat := KMap.find? s.binds c

end Sys2Proof.Machine
end

