-- ==== Sys2Proof/Machine/EngineOps.lean ====
section
/-!
DEFINITION. The engines' instructions, shared parts: the opcode table and formats, the issue wheel, a thread's registers,
faults, the memories an instruction reaches, and the bound frame (09_engine_threads.md R237 to R258;
10_engine_instructions.md R262 to R285).
-/
namespace Sys2Proof.Machine

/-- The instructions, one for each function of R265 and the class tables. -/
inductive Opc where
  | add | sub | and | or | xor | shl | shr | sar | mul | andn | min | max | minu | maxu
  | addi | andi | ori | xori | shiShl | shiShr | shiSar | shiRor | lui | ext | ins | cmp | cmpi
  | b | jal | jalr | ld | st | fld | fst | take | disp | free | arm | disarm | finfo | spl | mfs | mts | wait | sig | time
  | amoSwap | amoAdd | amoAnd | amoOr | amoXor | amoCas | crc | chkf
  | tpc | tslc | tgw | tgr | trel | thlt | tst
deriving DecidableEq, Repr

/-! ### Formats (R264) -/

/-- OP. -/
def opOf (w : Word) : Nat := getBits w 26 6
/-- D. -/
def dOf (w : Word) : Nat := getBits w 22 4
/-- A. -/
def aOf (w : Word) : Nat := getBits w 18 4
/-- B. -/
def bOf (w : Word) : Nat := getBits w 14 4
/-- X. -/
def xOf (w : Word) : Nat := getBits w 0 14
/-- Bits of X, or of the immediate. -/
def xBits (w : Word) (lo wd : Nat) : Nat := getBits w lo wd
/-- IMM, zero-extended. -/
def immOf (w : Word) : Word := BitVec.ofNat 32 (getBits w 0 18)
/-- IMM, sign-extended. -/
def simmOf (w : Word) : Word := sextN 18 (getBits w 0 18)
/-- OFFSET of a branch, sign-extended. -/
def offsetOf (w : Word) : Word := sextN 22 (getBits w 0 22)

/-- An entry of a function table, none beyond it. -/
def nth (l : List Opc) (i : Nat) : Option Opc := l[i]?

/-- The instruction that a word encodes; none for an illegal one (R263, R265 and the class tables).
DEDUCED, notes/assumptions/36.md. -/
def decodeOp (w : Word) : Option Opc :=
  let x4 := xBits w 0 4
  match opOf w with
  | 0x01 => nth [.add, .sub, .and, .or, .xor, .shl, .shr, .sar, .mul, .andn, .min, .max, .minu, .maxu] x4
  | 0x02 => some .addi
  | 0x03 => some .andi
  | 0x04 => some .ori
  | 0x05 => some .xori
  | 0x06 => nth [.shiShl, .shiShr, .shiSar, .shiRor] (xBits w 16 2)
  | 0x07 => some .lui
  | 0x08 => if 32 < xBits w 10 5 + xBits w 5 5 + 1 then none else some .ext
  | 0x09 => if 32 < xBits w 10 5 + xBits w 5 5 + 1 then none else some .ins
  | 0x0A => some .cmp
  | 0x0B => some .cmpi
  | 0x0C => some .b
  | 0x0D => some .jal
  | 0x0E => some .jalr
  | 0x10 => if xBits w 16 2 = 3 then none else some .ld
  | 0x11 => if xBits w 16 2 = 3 then none else some .st
  | 0x12 => if xBits w 16 2 = 3 then none else some .fld
  | 0x13 => if xBits w 16 2 = 3 then none else some .fst
  | 0x14 =>
    if x4 = 3 then (if xBits w 6 1 = 0 then some .arm else some .disarm)
    else if x4 = 4 then (if xBits w 4 3 = 7 then none else some .finfo)
    else nth [.take, .disp, .free] x4
  | 0x15 => some .spl
  | 0x16 => if 5 ≤ xBits w 0 3 then none else some .mfs
  | 0x17 => if 5 ≤ xBits w 0 3 ∨ xBits w 0 3 = 2 ∨ xBits w 0 3 = 3 then none else some .mts
  | 0x18 => some .wait
  | 0x19 => some .sig
  | 0x1A => if dOf w = 0 ∨ 13 < dOf w then none else some .time
  | 0x1B => nth [.amoSwap, .amoAdd, .amoAnd, .amoOr, .amoXor, .amoCas] (xBits w 0 3)
  | 0x1C => if xBits w 0 2 = 3 then none else some .crc
  | 0x1D => if xBits w 0 2 = 3 then none else some .chkf
  | 0x1E => nth [.tpc, .tslc, .tgw, .tgr, .trel, .thlt, .tst] x4
  | _ => none

/-! ### A thread's registers (R262, R263) -/

/-- General register `r` of thread `n` of engine `e`; g0 reads 0. -/
def State.greg (s : State) (e n r : Nat) : Word := if r = 0 then 0 else s.rd (O.CE_THR_G e n r)

/-- Writes a general register; a write to g0 is ignored. -/
def State.setGreg (s : State) (e n r : Nat) (v : Word) : State := if r = 0 then s else s.wr (O.CE_THR_G e n r) v

/-- Sets cc. -/
def State.setCc (s : State) (e n cc : Nat) : State := s.setThr e n { s.thr e n with cc := cc }

/-- Sets V of cc. -/
def State.setV (s : State) (e n : Nat) (v : Bool) : State := s.setCc e n ((s.thr e n).cc / 2 * 2 + b2n v)

/-- Sets Z of cc. -/
def State.setZ (s : State) (e n : Nat) (z : Bool) : State :=
  let c := (s.thr e n).cc
  s.setCc e n (c - 4 * (c / 4 % 2) + 4 * b2n z)

/-- Writes the timer (R251). -/
def State.setTimer (s : State) (e n : Nat) (v : Word) : State := s.wr (O.CE_THR_TIMER e n) v

/-! ### Faults (R284) -/

/-- A fault of a thread: nothing of the instruction applies (R244, R284); it is counted, raises its source and is logged
(18_faults_and_selftest.md R416, code 0x30). -/
def State.thrFault (s : State) (e n cause : Nat) : State :=
  let pc := s.pcOf e n
  let s := s.fsets [(F.CE_THR_STAT.FCAUSE e n, cause), (F.CE_THR_FPC.FPC e n, pc / 4)]
  let s := ((s.setThrState e n 4).ceCnt e 5).raise (srcEng s.cfg e + n)
  s.logFault 0x30 (thrKey e n) (cause * 2 ^ 28 + pc) (.e 0)

/-! ### Issue (R249) -/

/-- An instruction being carried out: engine, thread, word, and the ECC finding of its accesses: 0 none, 1 a corrected
error, 2 an uncorrectable one in the fetch, 3 an uncorrectable one in a data access (R237). -/
structure Ins where
  e : Nat
  n : Nat
  w : Word
  ecc : Nat

/-- Whether the engine's threads issue: its cluster is ON, its half out of reset and in a mode other than RESET, SAFEHOLD
and DORMANT (01_block_and_halves.md R24). DEDUCED, notes/assumptions/37.md. -/
def State.engineRuns (s : State) (e : Nat) : Bool :=
  let h := s.cfg.halfOfEngine e
  decide (e < s.cfg.engines) && s.domOn (4 + s.cfg.clusterOf e) && s.domOn (2 + h) && !s.halfInReset h &&
    decide (1 ≤ s.hmode h ∧ s.hmode h ≤ 5)

/-- Whether thread `m` is ready: RUNNING, and neither an access nor the interlock holds it (`busy`, bit `m`).
DEDUCED, notes/assumptions/37.md. -/
def State.ready (s : State) (e busy m : Nat) : Bool := decide (s.thrState e m = 1) && !decide (busy / 2 ^ m % 2 = 1)

/-- The thread that issues in slot `slot`, and whether it does so in a freewheel slot (R249). DEDUCED, notes/assumptions/37.md. -/
def State.wheelPick (s : State) (e slot busy : Nat) : Option (Nat × Bool) :=
  let rr := KMap.get 0 s.wheel e
  if s.ready e busy (slot % 8) then some (slot % 8, false)
  else (((List.range 8).map fun i => (rr + i) % 8).find? fun m => s.ready e busy m).map fun m => (m, true)

/-- The word that thread `n` fetches. -/
def State.fetchWord (s : State) (e n : Nat) : Word := BitVec.ofNat 32 (leNat (s.ebytes e (s.pcOf e n) 4))

/-- The wheel's move and the counters of an issue (R249, R261). -/
def State.countIssue (s : State) (e n : Nat) (fw : Bool) : State :=
  let s := s.ceCnt e 0
  if fw then (s.setWheel (KMap.put 0 s.wheel e ((n + 1) % 8))).ceCnt e 1 else s

/-- Issues an instruction of thread `n` in slot `slot`: when the wheel picks the thread and the word at its pc encodes `c`,
`f` carries it out; `f` answers none where the instruction waits (R249, R268, R284 order 1).
DESIGN CHOICE, notes/assumptions/7.md; DEDUCED, notes/assumptions/37.md. -/
def State.issue (s : State) (e n slot busy ecc : Nat) (c : Option Opc) (f : Ins → State → Option State) : State :=
  if s.engineRuns e then
    match s.wheelPick e slot busy with
    | some (m, fw) =>
      if m ≠ n then s
      else
        let t := s.countIssue e n fw
        if ecc = 2 then t.thrFault e n 5
        else if decodeOp (s.fetchWord e n) = c then
          let t := if ecc = 1 then t.ceCnt e 6 else t
          (f ⟨e, n, s.fetchWord e n, ecc⟩ t).getD s
        else s
    | none => s
  else s

/-- ga. -/
def Ins.ga (i : Ins) (s : State) : Word := s.greg i.e i.n (aOf i.w)
/-- gb. -/
def Ins.gb (i : Ins) (s : State) : Word := s.greg i.e i.n (bOf i.w)
/-- gd. -/
def Ins.gd (i : Ins) (s : State) : Word := s.greg i.e i.n (dOf i.w)
/-- Writes gd. -/
def Ins.put (i : Ins) (v : Word) (s : State) : State := s.setGreg i.e i.n (dOf i.w) v
/-- The instruction faults. -/
def Ins.fault (i : Ins) (cause : Nat) (s : State) : Option State := some (s.thrFault i.e i.n cause)
/-- The instruction completes: the pc goes on. -/
def Ins.done (i : Ins) (s : State) : Option State := some (s.setPc i.e i.n (s.pcOf i.e i.n + 4))
/-- The thread. -/
def Ins.thr (i : Ins) (s : State) : Thread := s.thr i.e i.n

/-! ### ALU (R266, R269) -/

/-- A result with its C and V. -/
abbrev AluRes := Word × Bool × Bool

/-- ADD: carry out, signed overflow. -/
def aluAdd (a b : Word) : AluRes :=
  (a + b, decide (2 ^ 32 ≤ a.toNat + b.toNat), decide (a.toInt + b.toInt ≠ (a + b).toInt))
/-- SUB: C is 1 when ga < gb unsigned; signed overflow. -/
def aluSub (a b : Word) : AluRes := (a - b, decide (a.toNat < b.toNat), decide (a.toInt - b.toInt ≠ (a - b).toInt))
/-- A result without carry and overflow. -/
def aluPlain (r : Word) : AluRes := (r, false, false)

/-- The flags of a result. -/
def ccOf (r : AluRes) : Nat := mkCc (bitOf r.1 31) (decide (r.1 = 0)) r.2.1 r.2.2

/-- An ALU instruction with register operands: gd, and the flags when S is set. -/
def aluReg (f : Word → Word → AluRes) (i : Ins) (s : State) : Option State :=
  let r := f (i.ga s) (i.gb s)
  let s := i.put r.1 s
  i.done (if xBits i.w 4 1 = 1 then s.setCc i.e i.n (ccOf r) else s)

/-- An ALU instruction with an immediate: gd. -/
def aluImm (f : Word → Word) (i : Ins) (s : State) : Option State := i.done (i.put (f (i.ga s)) s)

/-- Rotates right. -/
def rotR (a : Word) (k : Nat) : Word := (a >>> k) ||| (a <<< ((32 - k) % 32))

/-! ### Branches (R267) -/

/-- Whether a condition holds under cc. -/
def condHolds (c cc : Nat) : Bool :=
  let n := cc / 8 % 2
  let z := cc / 4 % 2
  let cy := cc / 2 % 2
  let v := cc % 2
  match c with
  | 0 => true
  | 1 => z == 1
  | 2 => z == 0
  | 3 => n != v
  | 4 => n == v
  | 5 => cy == 1
  | 6 => cy == 0
  | 7 => n == 1
  | 8 => n == 0
  | 9 => v == 1
  | 10 => v == 0
  | 11 => z == 0 && n == v
  | 12 => z == 1 || n != v
  | 13 => cy == 0 && z == 0
  | 14 => cy == 1 || z == 1
  | _ => false

/-- Jumps: the target wraps modulo 32 KiB (R238, R271). -/
def Ins.jump (i : Ins) (pc : Word) (s : State) : Option State := some (s.setPc i.e i.n pc.toNat)

/-! ### Slice and shared memory (R238, R272) -/

/-- Where an access of `k` bytes at address `a` lies in the debug window (R240), or the FCAUSE it meets. -/
def State.dataPlace (s : State) (e n : Nat) (shared : Bool) (a k : Nat) : Nat ⊕ Nat :=
  if a % k ≠ 0 then .inr 8
  else if shared then (if 0x83FF < a then .inr 3 else .inl (0x20000 + a))
  else
    let b := s.sliceOf e n
    if 256 * (b.2 - b.1) < a + k then .inr 2 else .inl (0x10000 + 256 * b.1 + a)

/-- Whether a shared address lies in a splice entry of another thread. -/
def foreignSplice (n a : Nat) : Bool := decide (0x8000 ≤ a) && decide ((a - 0x8000) / 128 ≠ n)

/-- Whether a shared address lies in word 3 of a splice entry, which stores leave alone (R257). -/
def spliceBlockWord (a : Nat) : Bool := decide (0x8000 ≤ a) && decide (12 ≤ a % 16)

/-- Bytes as a number in network order or little-endian. -/
def orderNat (net : Bool) (bs : List Byte) : Nat := if net then beNat bs else leNat bs
/-- A number's bytes in network order or little-endian. -/
def natOrder (net : Bool) (k n : Nat) : List Byte := if net then natBe k n else natLe k n

/-- The address of LD and ST. -/
def Ins.dataAddr (i : Ins) (s : State) : Nat := (i.ga s + sextN 13 (xBits i.w 0 13)).toNat

/-- The address of an AMO, or the FCAUSE it meets (R280). -/
def amoPlace (a : Nat) : Nat ⊕ Nat := if a % 4 ≠ 0 then .inr 8 else if 0x7FFF < a then .inr 3 else .inl (0x20000 + a)

/-- An atomic operation on shared memory: `f` gives the new word from the old one and gb (R280). -/
def amoExec (f : Word → Word → Word → Word) (i : Ins) (s : State) : Option State :=
  match amoPlace (i.ga s).toNat with
  | .inr c => i.fault c s
  | .inl o =>
    if i.ecc = 3 then i.fault 5 s
    else
      let old : Word := BitVec.ofNat 32 (leNat (s.ebytes i.e o 4))
      let new := f old (i.gb s) (i.gd s)
      i.done (i.put old (s.eput i.e o (natLe 4 new.toNat)))

/-! ### The bound frame (R254, R255, R273) -/

/-- Whether byte `j` is past the end of the frame (R273). -/
def Frame.past (f : Frame) (j : Nat) : Bool := decide (16382 < j) || (f.done && decide (f.bytes.length ≤ j))

/-- Whether an access to bytes `l` has to wait: for a byte not yet present, or for a granule that moves (R254, R255;
13_buffer_memory_and_placement.md R347). -/
def State.frameWaits (s : State) (f : Frame) (l : List Nat) : Bool :=
  (!f.done && l.any fun j => decide (f.bytes.length ≤ j)) ||
    (l.any (fun j => decide (2048 ≤ j)) && f.parts.any fun p => decide ((s.gran p.1).state = 2))

/-- The parts of a frame's place that hold bytes `l` beyond byte 2,047: granule, offset, frame byte, length 1. -/
def memParts (f : Frame) (l : List Nat) : List Part :=
  (l.filter fun j => decide (2048 ≤ j)).filterMap fun j =>
    (f.parts.find? fun p => decide (p.2.2.1 ≤ j ∧ j < p.2.2.1 + p.2.2.2)).map fun p => (p.1, p.2.1 + (j - p.2.2.1), j, 1)

/-- Bytes that a frame access reaches; addresses are 32-bit sums (R238, R264, R273). -/
def Ins.frameBytes (i : Ins) (s : State) : List Nat :=
  (rangeFrom ((i.thr s).fwp + (i.ga s).toNat + xBits i.w 0 14) (2 ^ xBits i.w 16 2)).map (· % 2 ^ 32)

/-- Changes bytes of a frame in the block, and in the windows of the threads that hold it (R255). -/
def State.storeFrame (s : State) (fid j : Nat) (b : Byte) : State :=
  let f := s.frame fid
  let s := s.setFrame fid { f with bytes := f.bytes.set j b, raw := if f.done then none else some (f.raw.getD f.bytes) }
  if 2048 ≤ j then s
  else
    forEach (s.threads.filter fun t => t.2.bound == some fid) (fun t s =>
      s.eput (t.1 / 8) (0x30000 + 0x800 * (t.1 % 8) + j) [b]) s

/-- The FINFO word of a selector (R276; 11_functions_and_queues.md R313 for a service frame). -/
def Frame.finfo (f : Frame) (sel : Nat) : Nat :=
  let k (i : Nat) : Nat := (byteAt f.parse.key i).toNat
  let md := metaBytes f
  match sel with
  | 0 => 2 ^ 31 * b2n f.done + f.bytes.length % 2 ^ 14
  | 1 => k 0 * 2 ^ 24 + k 1 * 2 ^ 16 + k 2 * 2 ^ 8 + (byteAt md 2).toNat
  | 2 => f.parse.l3 * 2 ^ 16 + f.parse.l4
  | 3 => f.parse.app * 2 ^ 16 + Nat.land f.status 0xFF
  | 4 => f.hash
  | 5 => beNat (slice md 0 4)
  | _ =>
    if f.fromHost then 0
    else f.course % 16 * 2 ^ 28 + 2 ^ 16 * b2n (decide (f.rule < 4096)) + f.rule % 4096

/-- A frame still arriving whose thread has ended its hold and that has no destination left: the rest of its bytes is discarded as it
comes (R256). -/
def State.voidFrame (s : State) (fid : Nat) : State :=
  let f := s.frame fid
  if f.done = true ∨ s.anyCopy fid (fun _ => true) = true ∨ s.mustHold fid = true then s
  else s.setFrame fid { f with void := true }

/-- The binding ends. -/
def State.unbind (s : State) (e n : Nat) : State :=
  (s.setThr e n { s.thr e n with bound := none, disposed := false, trigs := [] }).fset (F.CE_THR_STAT.BOUND e n) 0

/-- Host frames that wait for room in a thread's receive queue enter it (11 R313). -/
def State.fillRoom (s : State) (k : Nat) : State :=
  match List.find? (fun q : Nat × Qp => q.2.service && q.2.thread == k && !q.2.room.isEmpty) s.qps with
  | some (q, v) =>
    if 16 ≤ (s.thr (k / 8) (k % 8)).rxq.length then s
    else
      match v.room with
      | (fid, d) :: rest => ((s.setQp q { v with room := rest }).enterThread k fid).hostDone (some (q, d)) true 0 0
      | [] => s
  | none => s

/-- The frame is disposed of with an action (R256, R275): the fields that a dispose uses, the destinations of R215 and
R232, TX_DONE for a frame with no copy left. DEDUCED, notes/assumptions/38.md. -/
def State.dispose (s : State) (e n fid act : Nat) (onestep : Bool) : State :=
  let f := s.frame fid
  let a := readAct act
  let a := { a with kind := if 4 ≤ a.kind then 0 else a.kind, em := false, learn := false, mirror := false }
  let k := thrKey e n
  let pri := if a.priEn then a.pri else f.usePri.getD f.pri
  let q := s.takeSeq a
  let r : Route :=
    { fid := fid, act := a, half := s.cfg.halfOfEngine e, pri := pri, thread := some k, onestep := onestep
      ingress := match f.src with
        | .port p => some p
        | .chan t _ => some (8 + t)
        | _ => none
      bound := if f.fromHost then none else s.boundTo (byteAt f.parse.key 0).toNat
      src := f.src.index, hash := f.hash, seq := q.1
      word3 := (f.finfo 6) / 2 ^ 28 * 2 ^ 28 + b2n (decide (f.rule < 4096)) * 2 ^ 27 + pri * 2 ^ 24 + f.rule % 4096 }
  let l := q.2.resolve r
  let s := (l.2.send r l.1).ownBlock fid
  let s := if f.done then (s.judgeLens fid).placeFrame fid 13 else s
  s.txDone fid (some k)

end Sys2Proof.Machine
end

