-- ==== Sys2Proof/Machine/Queue.lean ====
section
/-!
DEFINITION. Queue pairs at work: doorbells and push slots, descriptors, deliveries, completions
(11_functions_and_queues.md R290 to R306, R313, R320).
-/
namespace Sys2Proof.Machine

/-! ### Doorbells (R303 to R305; 02_boundary_and_access.md R44) -/

/-- An access to offset `ofs` of the window of queue pair `q` by function `fn`: accepted from the owner of a queue pair that
exists and is not being destroyed; any other is refused and counted in the fault log (R44, R316).
DEDUCED, notes/assumptions/14.md. -/
def State.qAccess (s : State) (fn q ofs : Nat) (f : State → State) : State :=
  let p := s.qp q
  if s.domOn 1 = false ∨ s.rst.blk = true then s.deny
  else if q < s.cfg.queuePairs ∧ p.en = true ∧ p.dying = false ∧ p.owner = fn ∧ (s.func fn).state = 1 then f (s.answer false 0)
  else if q < s.cfg.queuePairs ∨ fn ≠ 0 then (s.logDenied fn (0x100000 + 0x100 * q + ofs)).deny
  else s.deny

/-- Entries from index `a` to index `b`, modulo 65,536 (R291). -/
def idxDiff (b a : Nat) : Nat := (b + 65536 - a % 65536) % 65536

/-- A doorbell that is ignored (R304). -/
def State.dbIgnored (s : State) (q : Nat) : State :=
  ((s.setQp q { s.qp q with dbErr := true }).qCnt 6).queueFault q 1

/-- The descriptor in push slot `k` (R303). -/
def Qp.slotBytes (p : Qp) (k : Nat) : List Byte :=
  ((List.range 8).map fun w => natLe 4 (KMap.get (0 : Word) p.slots (8 * k + w)).toNat).flatten

/-- Key of a pushed descriptor: ring (0 transmit, 1 receive) and index. -/
def pushKey (ring i : Nat) : Nat := 65536 * ring + i % 65536

/-- The pushed descriptors of a doorbell: slots 0 to `push - 1` for the last `push` indices (R305). -/
def Qp.take (p : Qp) (ring index push : Nat) : KMap (List Byte) :=
  (List.range push).foldl (fun m k => KMap.insert m (pushKey ring (index + 65536 - push + k)) (p.slotBytes k)) p.pushed

/-- A doorbell word for a descriptor ring (R304, R305). DESIGN CHOICE, notes/assumptions/40.md. -/
def State.dbRing (s : State) (q ring : Nat) (data : Word) : State :=
  let p := s.qp q
  let l := if ring = 0 then p.txL else p.rxL
  let tail := if ring = 0 then p.txTail else p.rxTail
  let head := if ring = 0 then p.txHead else p.rxHead
  let index := getBits data 0 16
  let push := getBits data 27 3
  let n := idxDiff index tail
  if l = 0 ∨ 4 < push ∨ 2 ^ l < idxDiff index head ∨ n < push then s.dbIgnored q
  else
    let p := { p with pushed := p.take ring index push }
    (s.setQp q (if ring = 0 then { p with txTail := index } else { p with rxTail := index })).cntAdd (O.Q_CNT 1) push

/-- A doorbell word for the completion ring (R304). -/
def State.dbCq (s : State) (q : Nat) (data : Word) : State :=
  let p := s.qp q
  let index := getBits data 0 16
  if getBits data 27 3 ≠ 0 ∨ idxDiff p.cqTail p.cqHead < idxDiff index p.cqHead then s.dbIgnored q
  else s.setQp q { p with cqHead := index }

/-- DOORBELL_TX (R304): the word's RING is 0. -/
def execDoorbellTx (fn q : Nat) (data : Word) (s : State) : Host.Outcome State Fault Refusal :=
  .next (s.qAccess fn q 0 fun s => s.dbRing q 0 data)

/-- DOORBELL_RX (R304): the word's RING is 1. -/
def execDoorbellRx (fn q : Nat) (data : Word) (s : State) : Host.Outcome State Fault Refusal :=
  .next (s.qAccess fn q 0 fun s => s.dbRing q 1 data)

/-- DOORBELL_CQ (R304): the word's RING is 2. -/
def execDoorbellCq (fn q : Nat) (data : Word) (s : State) : Host.Outcome State Fault Refusal :=
  .next (s.qAccess fn q 0 fun s => s.dbCq q data)

/-- PUSH_SLOT_WRITE (R303, R305): word `w` of slot `k`. -/
def execPushSlotWrite (fn q k w : Nat) (data : Word) (s : State) : Host.Outcome State Fault Refusal :=
  .next (s.qAccess fn q (0x20 + 0x20 * (k % 4) + 4 * (w % 8)) fun s =>
    s.setQp q { s.qp q with slots := KMap.put 0 (s.qp q).slots (8 * (k % 4) + w % 8) data })

/-! ### Service by mode (R292) -/

/-- Whether descriptors are fetched and completions written for queue pair `q`: in BRINGUP queue pair 0 only. -/
def State.qServed (s : State) (q : Nat) : Bool :=
  !s.flag F.Q_STAT.FROZEN && (decide (2 ≤ s.mode ∧ s.mode ≤ 5) || decide (s.mode = 1 ∧ q = 0))

/-- Removes a descriptor's pushed copy. -/
def State.unpush (s : State) (q ring i : Nat) : State :=
  s.setQp q { s.qp q with pushed := KMap.erase (s.qp q).pushed (pushKey ring i) }

/-! ### Transmit descriptors (R293, R294) -/

/-- A transmit descriptor. -/
structure TxDesc where
  addr : Nat
  word : Nat
  len : Nat
  act : Nat

/-- Reads a transmit descriptor (R293). -/
def readTxDesc (bs : List Byte) : TxDesc :=
  { addr := hostWord2 bs 0, word := hostWord bs 2, len := hostWord bs 2 % 65536, act := hostWord2 bs 4 }

/-- Whether an action can reach a port (R292, R294). -/
def Act.toPorts (a : Act) : Bool := decide (a.kind = 1 ∨ a.kind = 5)

/-- The check of R294 that a descriptor of queue pair `q` fails, if one does; `err` is an error response on the data. A queue pair
that does not exist is no queue pair of another function: it counts in NO_TARGET (R215).
DESIGN CHOICE, notes/assumptions/39.md. -/
def State.txCheck (s : State) (q : Nat) (d : TxDesc) (err : Bool) : Nat :=
  let p := s.qp q
  let a := readAct d.act
  let mask := a.target % 1024
  let other := a.target = 0 ∨ ((s.qp a.target).en = true ∧ (s.qp a.target).owner ≠ p.owner)
  if d.len = 0 ∨ a.kind = 4 ∨ 6 ≤ a.kind ∨ (p.service = true ∧ (natBits d.word 30 1 = 1 ∨ natBits d.word 29 1 = 1)) then 1
  else if 16383 < d.len then 2
  else if addrOk d.addr d.len = false then 3
  else if (a.toPorts = true ∧ Nat.land mask p.ports ≠ mask) ∨ (a.kind = 2 ∧ other) ∨ (a.kind = 3 ∧ p.owner ≠ 0) then 5
  else if err then 4
  else 0

/-- The frame of a host descriptor. DESIGN CHOICE, notes/assumptions/39.md. -/
def State.hostFrame (s : State) (q : Nat) (d : TxDesc) (data : List Byte) : Frame :=
  let p := s.qp q
  let a := readAct d.act
  { bytes := data, done := true, fcsIncl := decide (natBits d.word 27 1 = 1), src := .host q
    half := p.half.getD s.leader, act := d.act, pri := if p.service = true ∨ a.priEn = true then a.pri else 0
    parse := { stage := 3 } }

/-- A frame of queue pair `q` on its way to its thread (R313): it enters the receive queue, or waits for room.
DEDUCED, notes/assumptions/38.md. -/
def State.toService (s : State) (q desc fid : Nat) : State :=
  let p := s.qp q
  let k := p.thread
  if p.room.isEmpty = true ∧ s.domOn (4 + s.cfg.clusterOf (k / 8)) = true ∧ (s.thr (k / 8) (k % 8)).rxq.length < 16 then
    (s.enterThread k fid).hostDone (some (q, desc)) true 0 0
  else s.setQp q { p with room := p.room ++ [(fid, desc)] }

/-- A host frame held whole goes to its destinations (R294, R215). -/
def State.sendHost (s : State) (q desc fid : Nat) (d : TxDesc) : State :=
  let f := s.frame fid
  let a := { readAct d.act with em := false, learn := false, mirror := false }
  let seq := s.takeSeq a
  let r : Route :=
    { fid := fid, act := a, half := f.half, pri := f.pri, host := some (q, desc), csum := decide (natBits d.word 30 1 = 1)
      onestep := decide (natBits d.word 29 1 = 1), src := 0x10, word3 := f.pri * 2 ^ 24, seq := seq.1 }
  let l := seq.2.resolve r
  let np := (l.1.filter Dest.isPort).length
  let upd (t : HostTx) : HostTx :=
    if t.desc = desc ∧ t.left ≠ 0 then { t with left := l.1.length, nPorts := np, nOther := l.1.length - np } else t
  let s := l.2.setQp q { l.2.qp q with txs := (l.2.qp q).txs.map upd }
  s.send r l.1

/-- A descriptor of queue pair `q` ends with a status and no frame (R294, R298). -/
def State.txRefused (s : State) (q : Nat) (t : HostTx) : State :=
  (s.setQp q { s.qp q with txs := (s.qp q).txs ++ [t] }).settleQp q

/-- The descriptor at the head of the transmit ring of `q` is consumed (R291, R294). -/
def State.takeDesc (s : State) (q : Nat) (bs : List Byte) (err derr : Bool) (data : List Byte) : State :=
  let p := s.qp q
  let i := p.txHead
  let own := (KMap.find? p.pushed (pushKey 0 i)).isSome
  let adv (s : State) : State :=
    let s := (if own then s else (s.hostRead (.queue q) (p.txBase + 32 * (i % 2 ^ p.txL)) 32).qCnt 0).unpush q 0 i
    s.setQp q { s.qp q with txHead := (i + 1) % 65536, waits := false }
  let t : HostTx := { desc := i }
  if err = true ∧ own = false then ((adv s).queueFault q 2).txRefused q { t with code := 4 }
  else
    let d := readTxDesc bs
    let t := { t with batch := decide (natBits d.word 31 1 = 1), ts := decide (natBits d.word 28 1 = 1) }
    let code := s.txCheck q d derr
    let putOff := s.setQp q { p with waits := true }
    if (readAct d.act).toPorts = true ∧ p.service = false ∧ s.mode = 2 then putOff
    else if code = 4 then ((adv s).hostRead (.queue q) d.addr d.len).txRefused q { t with code := code }
    else if code ≠ 0 then (adv s).txRefused q { t with code := code }
    else
      let raw := (data ++ List.replicate d.len 0).take d.len
      let f := s.hostFrame q d raw
      match s.place p.owner q (s.ownerBanks p.owner q f.half) d.len with
      | .quota => putOff
      | .full => putOff.memCnt 9
      | .placed s' parts =>
        let s := (adv s').hostRead (.queue q) d.addr d.len
        let w := s.writeParts 12 parts raw
        let n := w.2.newFrame { f with bytes := w.1, parts := parts }
        let s := n.2.setQp q { n.2.qp q with txs := (n.2.qp q).txs ++ [{ t with left := 1, nOther := 1 }] }
        let s := if p.service then s.toService q i n.1 else s.sendHost q i n.1 d
        (s.settleQp q).tidy

/-- Whether queue pair `q` fetches its next transmit descriptor (R292, R302). -/
def State.fetchReady (s : State) (q : Nat) : Bool :=
  let p := s.qp q
  p.en && !p.admin && !p.dying && !p.stalled && decide (p.txTail ≠ p.txHead) && decide (p.due.length < 4) && s.qServed q

/-- Whether a queue pair of a higher latency class than `q`'s is ready for the same service (R312). -/
def State.outranked (s : State) (q : Nat) (ready : Nat → Bool) : Bool :=
  s.qps.any fun e => decide (e.2.lc < (s.qp q).lc) && ready e.1

/-- DESCRIPTOR_FETCH (R292 to R294, R302): one transmit descriptor of queue pair `q`; the operands are the descriptor's
bytes in host memory, an error response on its fetch, its data and an error response on the data. A descriptor with a port
destination waits in CONFIG, and one whose granules are refused waits (R318); while neither holds it back, a queue pair of a higher
latency class goes first (R312). DESIGN CHOICE, notes/assumptions/39.md. -/
def execDescriptorFetch (q : Nat) (desc : List Byte) (err : Bool) (data : List Byte) (derr : Bool) (s : State) :
    Host.Outcome State Fault Refusal :=
  let p := s.qp q
  if s.fetchReady q = true ∧ s.outranked q (fun k => s.fetchReady k && !(s.qp k).waits) = false then
    .next (s.takeDesc q ((KMap.find? p.pushed (pushKey 0 p.txHead)).getD desc) err derr data)
  else .next s

/-! ### Deliveries (R295, R296) -/

/-- A receive descriptor (R295). -/
structure RxDesc where
  addr : Nat
  ts : Bool
  len : Nat
  /-- Its fetch met an error response. -/
  err : Bool := false

/-- Reads a receive descriptor. -/
def readRxDesc (bs : List Byte) : RxDesc :=
  { addr := hostWord2 bs 0, ts := decide (hostWord bs 2 / 2 ^ 31 % 2 = 1), len := hostWord bs 2 % 65536 }

/-- Status with which a receive descriptor is consumed without data, 0 for one that receives data (R296, R298); `first`
tells whether no data of the frame has been placed yet. DESIGN CHOICE, notes/assumptions/39.md. -/
def RxDesc.bad (d : RxDesc) (first : Bool) : Nat :=
  if d.err then 4 else if d.len = 0 ∨ (first = true ∧ d.ts = true ∧ d.len ≤ 16) then 1 else if addrOk d.addr d.len = false then 3 else 0

/-- The posted receive descriptors of a queue pair: pushed ones, and those of the ring in host memory from the head on, of which
number `derr`, counted from 1, meets an error response on its fetch. -/
def Qp.rxDescs (p : Qp) (descs : List Byte) (derr : Nat) : List RxDesc :=
  (List.range (idxDiff p.rxTail p.rxHead)).map fun i =>
    match KMap.find? p.pushed (pushKey 1 (p.rxHead + i)) with
    | some b => readRxDesc b
    | none => { readRxDesc (slice descs (32 * i) 32) with err := decide (derr = i + 1) }

/-- Room of one descriptor for frame bytes. -/
def RxDesc.room (d : RxDesc) (first : Bool) : Nat := d.len - (if first = true ∧ d.ts = true then 16 else 0)

/-- Whether the descriptors hold room for `n` bytes (R296): the check of room skips those consumed without data. -/
def rxRoom (l : List RxDesc) (first : Bool) (n : Nat) : Bool :=
  match l with
  | [] => false
  | d :: r =>
    if d.bad first ≠ 0 then rxRoom r first n
    else if n ≤ d.room first then true
    else rxRoom r false (n - d.room first)

/-- The frame as a host ring receives it: with the tag actions, and without the FCS where the ingress port strips it
(R296; 08_rules_courses_forwarding.md R216, R233). -/
def State.rxBytes (s : State) (f : Frame) (w : RxWait) (bs : List Byte) : List Byte :=
  let c : Copy := { fid := w.fid, cls := w.pri, vtag := w.vtag, rtag := w.rtag, seq := w.seq, vid := w.vid }
  if f.fromHost then fromSlots (s.tagSlots 10 c f (toSlots bs))
  else
    let data := bs.take (bs.length - 4)
    let new := fromSlots (s.tagSlots 10 c f (toSlots data))
    let fcs := if f.fcsErr = true ∧ new = data then bs.drop (bs.length - 4) else fcsOf new
    let strip := match f.src with
      | .port p => s.flag (F.MAC_CTL.FCS_STRIP p)
      | _ => false
    if strip then new else new ++ fcs

/-- The 16 bytes of a time-stamp prefix (R296): the receive stamp; a frame that came from no port has none, and its 14 bytes
are free values. DESIGN CHOICE, notes/assumptions/39.md. -/
def State.rxPrefix (s : State) (f : Frame) : List Byte × State :=
  let st := f.stamp.toNat
  let stamp := natLe 8 (st / 65536 / 1000000000) ++ natLe 4 (st / 65536 % 1000000000) ++ natLe 2 (st % 65536) ++ natLe 2 0
  match f.src with
  | .port _ => (stamp, s)
  | .chan _ _ => (stamp, s)
  | _ => let r := s.freeBytes 14; (r.1 ++ natLe 2 0, r.2)

/-- A waiting delivery of queue pair `q` has ended. -/
def State.rxEnded (s : State) (w : RxWait) (took : Bool) : State := (s.rxGone w took).tidy

/-- Fills receive buffers with the bytes of a frame (R296): each descriptor consumed has its completion, MORE on every one
but the last; with 4 completions due the delivery waits and goes on later (R302). Data buffer number `err` of the frame, counted
from 1, gets an error response, which loses the frame (R298); a descriptor whose fetch met one is a queue fault (R319).
DESIGN CHOICE, notes/assumptions/39.md. -/
def State.fillRx (s : State) (q : Nat) (r : RxRun) (f : Frame) (err : Nat) : List RxDesc → State
  | [] => s.setQp q { s.qp q with cur := some r }
  | d :: rest =>
    let p := s.qp q
    if 4 ≤ p.due.length then s.setQp q { p with cur := some r }
    else
      let i := p.rxHead
      let first := decide (r.nth = 0)
      let pushed := (KMap.find? p.pushed (pushKey 1 i)).isSome
      let s := (if pushed then s else s.hostRead (.queue q) (p.rxBase + 32 * (i % 2 ^ p.rxL)) 32).unpush q 1 i
      let done (s : State) (st len : Nat) (more : Bool) : State :=
        let p := s.qp q
        let c : Cqe :=
          { w0 := 2 * 2 ^ 28 + st * 2 ^ 24 + r.w.src % 256 * 2 ^ 16 + i, w1 := Nat.land f.status 0xFF * 2 ^ 16 + len % 65536
            w2 := r.w.hash, w3 := r.w.word3 + b2n more * 2 ^ 23 }
        s.setQp q { p with rxHead := (i + 1) % 65536, due := p.due ++ [c], cur := none }
      if d.bad first ≠ 0 then
        let s := if d.err then s.queueFault q 2 else s
        (done s (d.bad first) 0 true).fillRx q r f err rest
      else
        let pre := decide (first = true ∧ d.ts = true)
        let x := if pre then s.rxPrefix f else ([], s)
        let n := min r.rest.length (d.room first)
        let s := x.2.hostWrite (.queue q) d.addr (x.1 ++ r.rest.take n)
        if err = r.nth + 1 then (done s 4 n false).rxEnded r.w false
        else if n < r.rest.length then
          (done s r.code n true).fillRx q { r with rest := r.rest.drop n, nth := r.nth + 1 } f err rest
        else ((done s r.code n false).qCnt 4).rxEnded r.w true

/-- Whether queue pair `q` serves its receive ring (R292; 13_buffer_memory_and_placement.md R347). -/
def State.rxServes (s : State) (q : Nat) : Bool := s.qServed q && !(s.qp q).stalled && (s.qp q).en

/-- Whether queue pair `q` has a frame to deliver. -/
def State.rxReady (s : State) (q : Nat) : Bool :=
  let p := s.qp q
  s.rxServes q && (p.cur.isSome || p.rxs.any fun w => (s.frame w.fid).done && !s.inMove (s.frame w.fid).parts)

/-- The first whole frame that waits at queue pair `q` is delivered, or discarded and counted: without room in the posted
descriptors, or with 4 completions due (R296, R302). -/
def State.rxNext (s : State) (q err : Nat) (l : List RxDesc) : State :=
  let p := s.qp q
  match p.rxs.find? fun w => (s.frame w.fid).done with
  | none => s
  | some w =>
    let f := s.frame w.fid
    if s.inMove f.parts then s
    else
      let s := s.setQp q { p with rxs := p.rxs.erase w }
      let bs := s.rxBytes f w f.bytes
      if 4 ≤ p.due.length ∨ rxRoom l true bs.length = false then
        ((s.setQp q { s.qp q with drops := (s.qp q).drops + 1 }).qCnt 5).rxEnded w false
      else
        let r := s.readParts 12 f.parts f.bytes
        let bs := r.2.rxBytes f w r.1
        if r.2.poisoned f.parts then
          let x := (r.2.meetPoison f.parts).freeBytes bs.length
          x.2.fillRx q { w := w, code := 6, rest := x.1 } f err l
        else r.2.fillRx q { w := w, rest := bs } f err l

/-- RX_DELIVERY (R292, R296, R302, R312): the delivery under way at queue pair `q` goes on, or the first whole frame that waits there
is delivered. The operands are the descriptors in host memory from the head on, the data buffer of the frame, counted from 1, and
the descriptor, counted from the head, on which the master port gives an error response (0 none).
DESIGN CHOICE, notes/assumptions/39.md. -/
def execRxDelivery (q : Nat) (descs : List Byte) (err : Nat) (s : State) (derr : Nat := 0) : Host.Outcome State Fault Refusal :=
  let p := s.qp q
  let l := p.rxDescs descs derr
  if s.rxReady q = false ∨ s.outranked q (fun k => s.rxReady k) = true then .next s
  else
    match p.cur with
    | some r => .next (if p.due.length < 4 then s.fillRx q r (s.frame r.w.fid) err l else s.rxNext q err l)
    | none => .next (s.rxNext q err l)

/-! ### Completions (R299, R300, R302, R320) -/

/-- The 16 bytes of completion W: PHASE is 1 while bit L of W is 0 (R300). -/
def cqeBytes (c : Cqe) (w l : Nat) : List Byte :=
  words4 (c.w0 + (if w / 2 ^ l % 2 = 0 then 2 ^ 31 else 0)) c.w1 c.w2 c.w3

/-- The error completion that reports the failed write of an entry (02_boundary_and_access.md R59): the entry once more with STATUS
or ASTATUS BUS_ERR; an event has none. DESIGN CHOICE, notes/assumptions/82.md. -/
def Cqe.failed (c : Cqe) : List Cqe :=
  let t := c.w0 / 2 ^ 28 % 8
  if t = 1 ∨ t = 2 then [{ c with w0 := c.w0 / 2 ^ 28 * 2 ^ 28 + 4 * 2 ^ 24 + c.w0 % 2 ^ 24 }]
  else if t = 3 then [{ c with w0 := c.w0 / 2 ^ 24 * 2 ^ 24 + 0x0A * 2 ^ 16 + c.w0 % 2 ^ 16 }]
  else []

/-- Whether queue pair `q` can write its first due completion: its ring has room (R292, R302). -/
def State.cqReady (s : State) (q : Nat) : Bool :=
  let p := s.qp q
  !p.due.isEmpty && p.en && s.qServed q && decide (idxDiff p.cqTail p.cqHead < 2 ^ p.cqL)

/-- COMPLETION_WRITE (R300, R302, R312, R320): the first due completion of queue pair `q` is written while its ring has room and no
queue pair of a higher latency class has one to write. `err` is an error response on the write: an error completion follows.
DESIGN CHOICE, notes/assumptions/82.md. -/
def execCompletionWrite (q : Nat) (s : State) (err : Bool := false) : Host.Outcome State Fault Refusal :=
  let p := s.qp q
  match p.due with
  | [] => .next s
  | c :: rest =>
    if s.cqReady q = true ∧ s.outranked q (fun k => s.cqReady k) = false then
      let rest := if err then c.failed ++ rest else rest
      let s := s.emit (.write (.queue q) (p.cqBase + 16 * (p.cqTail % 2 ^ p.cqL)) (cqeBytes c p.cqTail p.cqL))
      let s := (s.setQp q { p with due := rest, cqTail := (p.cqTail + 1) % 65536 }).qCnt 2
      let s := if p.irqEn = true ∨ p.admin = true then s.raise (srcQp s.cfg q) else s
      .next (s.settleQp q)
    else .next s

/-- A write of Q_ADMIN0_CFG (R289): the ring lengths take writes only while EN was 0; EN rising starts queue pair 0 with empty
rings, EN falling stops it. With a ring that would reach beyond 2^44 (02_boundary_and_access.md R56) EN stays 0, with an error
response. DESIGN CHOICE, notes/assumptions/40.md. -/
def State.admin0Write (s : State) (data : Word) : State :=
  let old := s.rd O.Q_ADMIN0_CFG
  let was := s.flag F.Q_ADMIN0_CFG.EN
  let on := bitOf data 31
  let same := decide (getBits data 0 4 = getBits old 0 4 ∧ getBits data 8 4 = getBits old 8 4)
  if was = true then
    let s := if same then s else s.deny
    if on then s
    else (s.fset F.Q_ADMIN0_CFG.EN 0).setQp 0 { s.qp 0 with en := false }
  else
    let s := s.fsets [(F.Q_ADMIN0_CFG.EN, b2n on), (F.Q_ADMIN0_CFG.CQ_L, getBits data 8 4), (F.Q_ADMIN0_CFG.SQ_L, getBits data 0 4)]
    let bad := !addrOk (s.rd64 O.Q_ADMIN0_SQ) (32 * 2 ^ getBits data 0 4) || !addrOk (s.rd64 O.Q_ADMIN0_CQ) (16 * 2 ^ getBits data 8 4)
    if on = true ∧ bad = true then (s.fset F.Q_ADMIN0_CFG.EN 0).deny
    else if on then
      s.setQp 0 { en := true, gen := (s.qp 0).gen, admin := true, txBase := s.rd64 O.Q_ADMIN0_SQ, txL := getBits data 0 4
                  cqBase := s.rd64 O.Q_ADMIN0_CQ, cqL := getBits data 8 4 }
    else s

/-- ADMIN0_ENABLE (R289): a write of Q_ADMIN0_CFG with EN = 1. -/
def execAdmin0Enable (fn : Nat) (data : Word) (s : State) : Host.Outcome State Fault Refusal :=
  .next (s.access fn O.Q_ADMIN0_CFG fun _ s => s.admin0Write (data ||| 0x80000000))

end Sys2Proof.Machine
end

