-- ==== Sys2Proof/Machine/Admin.lean ====
section
/-!
DEFINITION. The admin executor and its commands (11_functions_and_queues.md R286 to R289, R307 to R319).
-/
namespace Sys2Proof.Machine

/-! ### Taking a command (R307, R308) -/

/-- Whether the command ring of function `f` holds a command that the executor can take. -/
def State.admPending (s : State) (f : Nat) : Bool :=
  let v := s.func f
  let p := s.qp v.admin
  decide (v.state = 1) && p.en && p.admin && decide (p.owner = f) && !p.dying && decide (p.txTail ≠ p.txHead) &&
    s.qServed v.admin && decide ((p.due.filter fun c => !c.isEvent).length < 4)

/-- The function whose command is next: round-robin after the function served last (R308). -/
def State.admNext (s : State) : Option Nat :=
  ((List.range 256).map fun i => (s.admin.turn + 1 + i) % 256).find? fun f => s.admPending f

/-- Why a command ends: its ASTATUS (R309) and result words 1 to 3. -/
structure AdmRes where
  status : Nat := 0
  w1 : Nat := 0
  w2 : Nat := 0
  w3 : Nat := 0

/-- A refusal. -/
def admErr (code : Nat) (s : State) : AdmRes × State := ({ status := code }, s)

/-- The admin completion of a command of function `f` is due (R307). -/
def State.admDone (s : State) (f tag : Nat) (r : AdmRes) : State :=
  let q := (s.func f).admin
  let p := s.qp q
  (s.setQp q { p with due := p.due ++ [⟨3 * 2 ^ 28 + r.status % 256 * 2 ^ 16 + tag % 65536, r.w1, r.w2, r.w3⟩] }).qCnt 7

/-- The command at the head of the command ring of `f` is consumed. DESIGN CHOICE, notes/assumptions/40.md. -/
def State.admTake (s : State) (f : Nat) : State :=
  let q := (s.func f).admin
  let p := s.qp q
  let own := (KMap.find? p.pushed (pushKey 0 p.txHead)).isSome
  let s := (if own then s else s.hostRead (.queue q) (p.txBase + 32 * (p.txHead % 2 ^ p.txL)) 32).unpush q 0 p.txHead
  (s.setQp q { s.qp q with txHead := (p.txHead + 1) % 65536 }).setAdmin { s.admin with turn := f }

/-- The bytes of the next command of `f`: pushed, or those of the ring (R305). DESIGN CHOICE, notes/assumptions/40.md. -/
def State.admCmd (s : State) (f : Nat) (cmd : List Byte) : List Byte :=
  let p := s.qp (s.func f).admin
  (KMap.find? p.pushed (pushKey 0 p.txHead)).getD cmd

/-- Whether the next command of `f` was pushed. -/
def State.admPushed (s : State) (f : Nat) : Bool :=
  let p := s.qp (s.func f).admin
  (KMap.find? p.pushed (pushKey 0 p.txHead)).isSome

/-- Carries out the next command of function `f` if its opcode satisfies `op` (R308): a fetch error ends it with BUS_ERR and
TAG 0; in BRINGUP only QUERY and SET_QUOTA (`any`) are carried out; `fn0` marks the commands of function 0 alone; `body` carries
it out, and answers none for one that a destroy completes later. -/
def State.admin1 (s : State) (f : Nat) (cmd : List Byte) (err : Bool) (op : Nat → Bool) (any fn0 : Bool)
    (body : State → Option AdmRes × State) : State :=
  if s.admin.destroy.isSome = true ∨ s.admNext ≠ some f then s
  else if err = true ∧ s.admPushed f = false then (s.admTake f).admDone f 0 { status := 0x0A }
  else
    let c := s.admCmd f cmd
    let tag := hostWord c 0 % 65536
    if op (hostWord c 0 / 2 ^ 24) = false then s
    else
      let s := s.admTake f
      if s.mode = 1 ∧ any = false then s.admDone f tag { status := 8 }
      else if fn0 = true ∧ f ≠ 0 then s.admDone f tag { status := 2 }
      else
        match body s with
        | (some r, s') => s'.admDone f tag r
        | (none, s') => s'

/-! ### Addresses and handles -/

/-- The refusal of a ring of 2^l entries of `size` bytes at `base`, if any (R290, R310). -/
def ringErr (base l size : Nat) : Option Nat :=
  if addrOk base (size * 2 ^ l) = false then some 9 else if base % 256 ≠ 0 then some 3 else none

/-- The first refusal of a list. -/
def firstErr (l : List (Option Nat)) : Option Nat := l.findSome? id

/-- The queue pair that a handle names for function `f`, if it is good (R288). -/
def State.byHandle (s : State) (f h : Nat) : Option Nat :=
  let q := h % 4096
  let p := s.qp q
  if q < s.cfg.queuePairs ∧ p.en = true ∧ p.dying = false ∧ p.gen = h / 2 ^ 24 % 256 ∧ p.owner = f then some q else none

/-- The lowest free queue pair; queue pair 0 is function 0's admin queue (R289). -/
def State.freeQp (s : State) : Option Nat := (List.range s.cfg.queuePairs).find? fun q => q != 0 && !(s.qp q).en

/-! ### Functions (R310, R287, R318) -/

/-- CREATE_FUNCTION's work: `fails` draws fail the health test (13_buffer_memory_and_placement.md R350). -/
def State.createFunction (s : State) (c : List Byte) (fails : Nat) : AdmRes × State :=
  let fn := hostWord c 1 % 256
  let cb := hostWord2 c 2
  let rb := hostWord2 c 4
  let cl := natBits (hostWord c 6) 0 4
  let rl := natBits (hostWord c 6) 8 4
  let e := firstErr [if fn = 0 then some 3 else none, if (s.func fn).state ≠ 0 then some 7 else none,
    if cl < 4 ∨ rl < 4 then some 3 else none, ringErr cb cl 32, ringErr rb rl 16]
  match e, s.freeQp with
  | some x, _ => admErr x s
  | none, none => admErr 4 s
  | none, some q =>
    let s := if fails = 0 then s else (s.fset F.MEM_STAT.RNG_FAIL 1).raiseMem
    if 3 ≤ fails then admErr 4 (s.logFault 0x05 fn 0 .l)
    else
      let n := s.free
      let s := s.useFree.setFunc fn { state := 1, key := some n, admin := q, classLo := 1, classHi := 0 }
      let s := s.setQp q { en := true, gen := (s.qp q).gen, owner := fn, admin := true, txBase := cb, txL := cl, cqBase := rb, cqL := rl }
      ({ w1 := s.handleOf q }, s)

/-- CREATE_FUNCTION (R287, R289, R310): `fails` is the number of draws of its key that fail the health test. -/
def execCreateFunction (f : Nat) (cmd : List Byte) (err : Bool) (fails : Nat) (s : State) : Host.Outcome State Fault Refusal :=
  .next (s.admin1 f cmd err (· == 1) false true fun t =>
    let r := t.createFunction (s.admCmd f cmd) fails
    (some r.1, r.2))

/-- SET_QUOTA's work (R318, R319). -/
def State.setQuota (s : State) (c : List Byte) : AdmRes × State :=
  let fn := hostWord c 1 % 256
  if fn = 0 ∨ (s.func fn).state = 0 then admErr 3 s
  else
    let ports := Nat.land (hostWord c 4 % 1024) (s.cfg.pick 0x10F 0x3FF)
    let s := s.setFunc fn { s.func fn with maxQp := hostWord c 2 % 8192, maxGran := hostWord c 3 % 65536, ports := ports
                                           classLo := natBits (hostWord c 5) 0 8, classHi := natBits (hostWord c 5) 8 8 }
    let s := forEach (s.qps.filter fun e => e.2.owner == fn && e.2.en) (fun e s =>
      s.setQp e.1 { s.qp e.1 with ports := Nat.land e.2.ports ports }) s
    ({}, s.quotaCheck fn true)

/-- SET_QUOTA (R318). -/
def execSetQuota (f : Nat) (cmd : List Byte) (err : Bool) (s : State) : Host.Outcome State Fault Refusal :=
  .next (s.admin1 f cmd err (· == 3) true true fun t =>
    let r := t.setQuota (s.admCmd f cmd)
    (some r.1, r.2))

/-! ### Creating and placing a queue pair (R311, R312) -/

/-- The half, and the engines and threads that an affinity allows (R311): none for no affinity. -/
def affOf (c : Cfg) (aff id : Nat) : Option (Nat × (Nat → Bool)) :=
  if aff = 1 then some (id % 2, fun k => c.halfOfEngine (k / 8) == id % 2)
  else if aff = 2 then some (c.halfOfEngine (id / 8), fun k => k / 8 == id / 8)
  else if aff = 3 then some (c.halfOfEngine (id / 8), fun k => k == id)
  else none

/-- Queue pairs that thread `k` serves. -/
def State.serves (s : State) (k : Nat) : Nat := (s.qps.filter fun e => e.2.en && e.2.service && e.2.thread == k).length

/-- The thread that serves the fewest queue pairs, the lowest number on a tie (R312). -/
def State.leastThread (s : State) (l : List Nat) : Option Nat :=
  l.foldl (fun b k =>
    match b with
    | none => some k
    | some x => if s.serves k < s.serves x then some k else some x) none

/-- Threads that may serve queue pairs (R312). -/
def State.svcThreads (s : State) : List Nat :=
  (List.range (8 * s.cfg.engines)).filter fun k => bitOf (s.rd (O.Q_SVC_MAP (k / 32))) (k % 32)

/-- Whether a half has a bank in which the placement engine allocates. -/
def State.halfOpen (s : State) (h : Nat) : Bool := (s.halfBanks h).any fun b => s.bankOpen b

/-- CREATE_QUEUE's work for function `f` (R311, R312). DESIGN CHOICE, notes/assumptions/40.md. -/
def State.createQueue (s : State) (f : Nat) (c : List Byte) : AdmRes × State :=
  let w := hostWord c 7
  let tl := natBits w 0 4
  let rl := natBits w 4 4
  let cl := natBits w 8 4
  let lc := natBits w 12 2
  let service := decide (natBits w 14 1 = 1)
  let aff := natBits w 16 2
  let strict := decide (natBits w 18 1 = 1)
  let id := natBits w 19 7
  let tb := hostWord2 c 1
  let rb := hostWord2 c 3
  let cb := hostWord2 c 5
  let depth (l : Nat) := l = 0 ∨ 4 ≤ l
  let affBad := (aff = 1 ∧ s.cfg.halves ≤ id % 2) ∨ (2 ≤ aff ∧ s.cfg.engines ≤ id / 8)
  let e := firstErr [if ¬ depth tl ∨ ¬ depth rl ∨ cl < 4 ∨ (tl = 0 ∧ rl = 0) ∨ affBad then some 3 else none,
    if tl = 0 then none else ringErr tb tl 32, if rl = 0 then none else ringErr rb rl 32, ringErr cb cl 16,
    if f ≠ 0 ∧ (s.func f).maxQp ≤ s.qpUse f then some 5 else none]
  match e, s.freeQp with
  | some x, _ => admErr x s
  | none, none => admErr 4 s
  | none, some q =>
    let a := affOf s.cfg aff id
    let fits := match a with
      | none => true
      | some (h, ok) => if service then s.svcThreads.any ok else decide (lc = 3) || s.halfOpen h
    if (fits = false ∧ strict = true) ∨ (service = true ∧ s.svcThreads = []) then admErr 4 s
    else
      let a := if fits then a else none
      let k := match a with
        | none => s.leastThread s.svcThreads
        | some (_, ok) => s.leastThread (s.svcThreads.filter ok)
      let k := if service then k.getD 0x7F else 0x7F
      let half := a.map (·.1)
      let s := s.setQp q
        { en := true, gen := (s.qp q).gen, owner := f, service := service, lc := lc, thread := k, irqEn := decide (natBits w 15 1 = 1)
          each := decide (natBits w 26 1 = 1), half := half, txBase := tb, rxBase := rb, cqBase := cb, txL := tl, rxL := rl, cqL := cl }
      let h := if service then s.cfg.halfOfEngine (k / 8) else half.getD 0
      let banks := if lc ≤ 1 then (match half with | some h => s.halfBanks h | none => List.range s.cfg.banks) else List.range s.cfg.banks
      ({ w1 := s.handleOf q, w2 := k + 256 * h, w3 := banks.foldl (fun a b => a + 2 ^ b) 0 }, s)

/-- CREATE_QUEUE (R311, R312). -/
def execCreateQueue (f : Nat) (cmd : List Byte) (err : Bool) (s : State) : Host.Outcome State Fault Refusal :=
  .next (s.admin1 f cmd err (· == 4) false false fun t =>
    let r := t.createQueue f (s.admCmd f cmd)
    (some r.1, r.2))

/-! ### Bindings (R314) -/

/-- BIND_PORT's work. -/
def State.bindPort (s : State) (f : Nat) (c : List Byte) : AdmRes × State :=
  let mask := hostWord c 2 % 1024
  match s.byHandle f (hostWord c 1) with
  | none => admErr 6 s
  | some q =>
    if Nat.land mask (s.cfg.pick 0x10F 0x3FF) ≠ mask then admErr 3 s
    else if Nat.land mask (s.func f).ports ≠ mask then admErr 2 s
    else ({}, s.setQp q { s.qp q with ports := mask })

/-- BIND_PORT (R314). -/
def execBindPort (f : Nat) (cmd : List Byte) (err : Bool) (s : State) : Host.Outcome State Fault Refusal :=
  .next (s.admin1 f cmd err (· == 6) false false fun t =>
    let r := t.bindPort f (s.admCmd f cmd)
    (some r.1, r.2))

/-- BIND_CLASS's work. -/
def State.bindClass (s : State) (f : Nat) (c : List Byte) : AdmRes × State :=
  let w := hostWord c 2
  let k := w % 256
  let v := s.func f
  match s.byHandle f (hostWord c 1) with
  | none => admErr 6 s
  | some q =>
    if f ≠ 0 ∧ (k < v.classLo ∨ v.classHi < k) then admErr 2 s
    else if natBits w 8 1 = 1 then
      ({}, if s.boundTo k = some q then s.setBinds (KMap.erase s.binds k) else s)
    else
      match s.boundTo k with
      | some x =>
        if x ≠ q ∧ ¬ (f = 0 ∧ natBits w 9 1 = 1) then admErr 7 s
        else ({}, s.setBinds (KMap.insert s.binds k q))
      | none => ({}, s.setBinds (KMap.insert s.binds k q))

/-- BIND_CLASS (R314). -/
def execBindClass (f : Nat) (cmd : List Byte) (err : Bool) (s : State) : Host.Outcome State Fault Refusal :=
  .next (s.admin1 f cmd err (· == 7) false false fun t =>
    let r := t.bindClass f (s.admCmd f cmd)
    (some r.1, r.2))

/-! ### QUERY (R315) -/

/-- QUERY's work. -/
def State.query (s : State) (f : Nat) (c : List Byte) : AdmRes × State :=
  let sel := hostWord c 1 % 256
  if sel = 0 then
    let fn := hostWord c 2 % 256
    if f ≠ 0 ∧ fn ≠ f then admErr 2 s
    else
      let v := s.func fn
      ({ w1 := v.state * 2 ^ 30 + s.qpUse fn % 8192 * 2 ^ 16 + v.maxQp, w2 := s.granUse fn * 2 ^ 16 + v.maxGran
         w3 := v.ports * 2 ^ 16 + v.classHi * 2 ^ 8 + v.classLo }, s)
  else if sel = 1 then
    match s.byHandle f (hostWord c 2) with
    | none => admErr 6 s
    | some q =>
      let p := s.qp q
      ({ w1 := p.rxHead * 2 ^ 16 + p.txHead, w2 := p.sent % 2 ^ 32, w3 := p.drops % 2 ^ 32 }, s)
  else admErr 3 s

/-- QUERY (R315). -/
def execQuery (f : Nat) (cmd : List Byte) (err : Bool) (s : State) : Host.Outcome State Fault Refusal :=
  .next (s.admin1 f cmd err (· == 8) true false fun t =>
    let r := t.query f (s.admCmd f cmd)
    (some r.1, r.2))

/-- ADMIN_BAD_OPCODE (R310): an opcode that no row lists. -/
def execAdminBadOpcode (f : Nat) (cmd : List Byte) (err : Bool) (s : State) : Host.Outcome State Fault Refusal :=
  .next (s.admin1 f cmd err (fun o => decide (o = 0 ∨ 8 < o)) true false fun t => (some { status := 1 }, t))

/-! ### Destroying (R316, R317) -/

/-- Whether a copy belongs to descriptor `d` of queue pair `q`. -/
def Copy.ofHost (c : Copy) (q d : Nat) : Bool := c.host == some (q, d)

/-- Whether a descriptor's frame has begun at some destination. -/
def State.txBegun (s : State) (q : Nat) (t : HostTx) : Bool :=
  decide (t.took ≠ 0) || s.ports.any (fun p => (p.2.tx.toList ++ p.2.held.toList).any fun c => c.ofHost q t.desc) ||
    s.trunks.any (fun k => k.2.txFrames.any fun x => x.2.copy.ofHost q t.desc)

/-- Discards the copies and deliveries of a descriptor that has not begun. -/
def State.dropHostTx (s : State) (q d : Nat) : State :=
  let s := forEach (List.range 10) (fun p s =>
    forEach ((s.port p).egress.filter fun c => c.ofHost q d) (fun c s =>
      let v := s.port p
      (s.setPort p { v with egress := v.egress.erase c }).copyGone p c false 0) s) s
  forEach s.qps (fun e s =>
    forEach (e.2.rxs.filter fun w => w.host == some (q, d)) (fun w s =>
      (s.setQp e.1 { s.qp e.1 with rxs := (s.qp e.1).rxs.erase w }).hostDone w.host false 0 0) s) s

/-- DESTROY_QUEUE takes effect on queue pair `q` (R316): frames not begun and frames not delivered are discarded. -/
def State.startDestroy (s : State) (q : Nat) : State :=
  let p := s.qp q
  let s := s.setQp q { p with dying := true, rxs := [], cur := none, room := [], pushed := [] }
  let s := forEach (p.rxs ++ (p.cur.map (·.w)).toList) (fun w s => s.rxGone w false) s
  let s := forEach (p.txs.filter fun t => t.left != 0 && !s.txBegun q t) (fun t s => s.dropHostTx q t.desc) s
  (forEach p.room (fun r s => s.hostDone (some (q, r.2)) false 0 0) s).tidy

/-- The executor is busy with a destroy for function `f`. -/
def State.admBusy (s : State) (f : Nat) (d : Destroy) : State :=
  (s.setAdmin { s.admin with destroy := some d }).fsets [(F.Q_STAT.ADMIN_BUSY, 1), (F.Q_STAT.ADMIN_FN, f)]

/-- DESTROY_QUEUE's work. -/
def State.destroyQueue (s : State) (f : Nat) (c : List Byte) : Option AdmRes × State :=
  match s.byHandle f (hostWord c 1) with
  | none => (some { status := 6 }, s)
  | some q =>
    if (s.qp q).admin then (some { status := 6 }, s)
    else (none, (s.startDestroy q).admBusy f { fn := f, tag := hostWord c 0 % 65536, qps := [q] })

/-- DESTROY_QUEUE (R316). -/
def execDestroyQueue (f : Nat) (cmd : List Byte) (err : Bool) (s : State) : Host.Outcome State Fault Refusal :=
  .next (s.admin1 f cmd err (· == 5) false false fun t => t.destroyQueue f (s.admCmd f cmd))

/-- DESTROY_FUNCTION's work: its queue pairs, the admin queue last (R317). -/
def State.destroyFunction (s : State) (c : List Byte) : Option AdmRes × State :=
  let fn := hostWord c 1 % 256
  let v := s.func fn
  if fn = 0 ∨ v.state = 0 then (some { status := 3 }, s)
  else
    let l := ((s.qps.filter fun e => e.2.en && e.2.owner == fn && e.1 != v.admin).map (·.1)) ++ [v.admin]
    let s := forEach l (fun q s => s.startDestroy q) (s.setFunc fn { v with state := 2 })
    (none, s.admBusy 0 { fn := 0, tag := hostWord c 0 % 65536, qps := l, func := some fn })

/-- DESTROY_FUNCTION (R317). -/
def execDestroyFunction (f : Nat) (cmd : List Byte) (err : Bool) (s : State) : Host.Outcome State Fault Refusal :=
  .next (s.admin1 f cmd err (· == 2) false true fun t => t.destroyFunction (s.admCmd f cmd))

/-- A queue pair is gone: GEN increments and its class bindings are removed (R316). -/
def State.freeQpNow (s : State) (q : Nat) : State :=
  let s := s.setBinds (s.binds.filter fun e => e.2 != q)
  s.setQp q { gen := ((s.qp q).gen + 1) % 256 }

/-- The granules of function `fn` go back to the free pool, and frames that a thread still holds have no place in them any more
(R317). -/
def State.freeFnGrans (s : State) (fn : Nat) : State :=
  let mine (g : Nat) : Bool := let v := s.gran g; v.live && decide (v.owner = fn)
  let s := s.setFrames (s.frames.map fun f => if f.2.parts.any fun p => mine p.1 then (f.1, { f.2 with parts := [] }) else f)
  forEach ((s.mem.grans.map (·.1)).filter mine) (fun g s => s.freeGran g) s

/-- QUEUE_DESTROY_COMPLETE (R316, R317): the last completions of the queue pairs under destruction have been written.
DESIGN CHOICE, notes/assumptions/40.md. -/
def execQueueDestroyComplete (s : State) : Host.Outcome State Fault Refusal :=
  match s.admin.destroy with
  | none => .next s
  | some d =>
    if d.qps.all (fun q => (s.qp q).txs.isEmpty && (s.qp q).due.isEmpty) = true ∧ s.flag F.Q_STAT.FROZEN = false ∧
        s.qServed (s.func d.fn).admin = true then
      let w1 := match d.func, d.qps with
        | none, [q] => (s.qp q).rxHead * 2 ^ 16 + (s.qp q).txHead
        | _, _ => 0
      let s := forEach d.qps (fun q s => s.freeQpNow q) s
      let s := match d.func with
        | some fn => (s.freeFnGrans fn).setFunc fn { evtLost := (s.func fn).evtLost }
        | none => s.quotaCheck d.fn false
      let s := (s.setAdmin { s.admin with destroy := none }).fsets [(F.Q_STAT.ADMIN_BUSY, 0), (F.Q_STAT.ADMIN_FN, 0)]
      .next (s.admDone d.fn d.tag { w1 := w1 }).tidy
    else .next s

end Sys2Proof.Machine
end

