-- ==== Sys2Proof/Machine/Alu.lean ====
section
/-!
DEFINITION. The engines' instructions: arithmetic, bit-field, compare, branch and jump (10_engine_instructions.md R262 to R271,
R281). Each command issues the instruction that stands at its thread's pc.
-/
namespace Sys2Proof.Machine

/-- ALU_ADD (R269, R266): gd := ga + gb; with S the flags. -/
def execAluAdd (e n slot busy ecc : Nat) (s : State) : Host.Outcome State Fault Refusal :=
  .next (s.issue e n slot busy ecc (some .add) (aluReg aluAdd))

/-- ALU_SUB (R269, R266): gd := ga - gb; with S the flags. -/
def execAluSub (e n slot busy ecc : Nat) (s : State) : Host.Outcome State Fault Refusal :=
  .next (s.issue e n slot busy ecc (some .sub) (aluReg aluSub))

/-- ALU_AND (R269, R266): gd := ga AND gb; with S the flags. -/
def execAluAnd (e n slot busy ecc : Nat) (s : State) : Host.Outcome State Fault Refusal :=
  .next (s.issue e n slot busy ecc (some .and) (aluReg (fun a b => aluPlain (a &&& b))))

/-- ALU_OR (R269, R266): gd := ga OR gb; with S the flags. -/
def execAluOr (e n slot busy ecc : Nat) (s : State) : Host.Outcome State Fault Refusal :=
  .next (s.issue e n slot busy ecc (some .or) (aluReg (fun a b => aluPlain (a ||| b))))

/-- ALU_XOR (R269, R266): gd := ga XOR gb; with S the flags. -/
def execAluXor (e n slot busy ecc : Nat) (s : State) : Host.Outcome State Fault Refusal :=
  .next (s.issue e n slot busy ecc (some .xor) (aluReg (fun a b => aluPlain (a ^^^ b))))

/-- ALU_ANDN (R269, R266): gd := ga AND NOT gb; with S the flags. -/
def execAluAndn (e n slot busy ecc : Nat) (s : State) : Host.Outcome State Fault Refusal :=
  .next (s.issue e n slot busy ecc (some .andn) (aluReg (fun a b => aluPlain (a &&& ~~~b))))

/-- ALU_SHL (R269, R266): gd := ga shifted left by gb[4:0]; with S the flags. -/
def execAluShl (e n slot busy ecc : Nat) (s : State) : Host.Outcome State Fault Refusal :=
  .next (s.issue e n slot busy ecc (some .shl) (aluReg (fun a b => aluPlain (a <<< getBits b 0 5))))

/-- ALU_SHR (R269, R266): gd := ga shifted right logically by gb[4:0]; with S the flags. -/
def execAluShr (e n slot busy ecc : Nat) (s : State) : Host.Outcome State Fault Refusal :=
  .next (s.issue e n slot busy ecc (some .shr) (aluReg (fun a b => aluPlain (a >>> getBits b 0 5))))

/-- ALU_SAR (R269, R266): gd := ga shifted right arithmetically by gb[4:0]; with S the flags. -/
def execAluSar (e n slot busy ecc : Nat) (s : State) : Host.Outcome State Fault Refusal :=
  .next (s.issue e n slot busy ecc (some .sar) (aluReg (fun a b => aluPlain (a.sshiftRight (getBits b 0 5)))))

/-- ALU_MUL (R269, R266): gd := low 32 bits of ga × gb; with S the flags. -/
def execAluMul (e n slot busy ecc : Nat) (s : State) : Host.Outcome State Fault Refusal :=
  .next (s.issue e n slot busy ecc (some .mul) (aluReg (fun a b => aluPlain (a * b))))

/-- ALU_MIN (R269, R266): gd := signed minimum; with S the flags. -/
def execAluMin (e n slot busy ecc : Nat) (s : State) : Host.Outcome State Fault Refusal :=
  .next (s.issue e n slot busy ecc (some .min) (aluReg (fun a b => aluPlain (if a.toInt ≤ b.toInt then a else b))))

/-- ALU_MAX (R269, R266): gd := signed maximum; with S the flags. -/
def execAluMax (e n slot busy ecc : Nat) (s : State) : Host.Outcome State Fault Refusal :=
  .next (s.issue e n slot busy ecc (some .max) (aluReg (fun a b => aluPlain (if a.toInt ≤ b.toInt then b else a))))

/-- ALU_MINU (R269, R266): gd := unsigned minimum; with S the flags. -/
def execAluMinu (e n slot busy ecc : Nat) (s : State) : Host.Outcome State Fault Refusal :=
  .next (s.issue e n slot busy ecc (some .minu) (aluReg (fun a b => aluPlain (if a.toNat ≤ b.toNat then a else b))))

/-- ALU_MAXU (R269, R266): gd := unsigned maximum; with S the flags. -/
def execAluMaxu (e n slot busy ecc : Nat) (s : State) : Host.Outcome State Fault Refusal :=
  .next (s.issue e n slot busy ecc (some .maxu) (aluReg (fun a b => aluPlain (if a.toNat ≤ b.toNat then b else a))))

/-- ADDI (R269): gd := ga + sext(IMM). -/
def execAddi (e n slot busy ecc : Nat) (s : State) : Host.Outcome State Fault Refusal :=
  .next (s.issue e n slot busy ecc (some .addi) fun i s => aluImm (· + simmOf i.w) i s)

/-- ANDI (R269): gd := ga AND zext(IMM). -/
def execAndi (e n slot busy ecc : Nat) (s : State) : Host.Outcome State Fault Refusal :=
  .next (s.issue e n slot busy ecc (some .andi) fun i s => aluImm (· &&& immOf i.w) i s)

/-- ORI (R269): gd := ga OR zext(IMM). -/
def execOri (e n slot busy ecc : Nat) (s : State) : Host.Outcome State Fault Refusal :=
  .next (s.issue e n slot busy ecc (some .ori) fun i s => aluImm (· ||| immOf i.w) i s)

/-- XORI (R269): gd := ga XOR zext(IMM). -/
def execXori (e n slot busy ecc : Nat) (s : State) : Host.Outcome State Fault Refusal :=
  .next (s.issue e n slot busy ecc (some .xori) fun i s => aluImm (· ^^^ immOf i.w) i s)

/-- SHI_SHL (R269): gd := ga shifted left by IMM[4:0]. -/
def execShiShl (e n slot busy ecc : Nat) (s : State) : Host.Outcome State Fault Refusal :=
  .next (s.issue e n slot busy ecc (some .shiShl) fun i s => aluImm (· <<< xBits i.w 0 5) i s)

/-- SHI_SHR (R269): gd := ga shifted right logically by IMM[4:0]. -/
def execShiShr (e n slot busy ecc : Nat) (s : State) : Host.Outcome State Fault Refusal :=
  .next (s.issue e n slot busy ecc (some .shiShr) fun i s => aluImm (· >>> xBits i.w 0 5) i s)

/-- SHI_SAR (R269): gd := ga shifted right arithmetically by IMM[4:0]. -/
def execShiSar (e n slot busy ecc : Nat) (s : State) : Host.Outcome State Fault Refusal :=
  .next (s.issue e n slot busy ecc (some .shiSar) fun i s => aluImm (fun a => a.sshiftRight (xBits i.w 0 5)) i s)

/-- SHI_ROR (R269): gd := ga rotated right by IMM[4:0]. -/
def execShiRor (e n slot busy ecc : Nat) (s : State) : Host.Outcome State Fault Refusal :=
  .next (s.issue e n slot busy ecc (some .shiRor) fun i s => aluImm (fun a => rotR a (xBits i.w 0 5)) i s)

/-- LUI (R269): gd := IMM[15:0] × 2^16. -/
def execLui (e n slot busy ecc : Nat) (s : State) : Host.Outcome State Fault Refusal :=
  .next (s.issue e n slot busy ecc (some .lui) fun i s => i.done (i.put (BitVec.ofNat 32 (xBits i.w 0 16 * 2 ^ 16)) s))

/-- POS and width of a bit-field instruction (R270). -/
def fieldOf (w : Word) : Nat × Nat := (xBits w 10 5, xBits w 5 5 + 1)

/-- EXT on a value (R270). -/
def extOf (w a : Word) : Word :=
  let p := fieldOf w
  let v := getBits a p.1 p.2
  if xBits w 17 1 = 1 then sextN p.2 v else BitVec.ofNat 32 v

/-- EXT (R270): gd := a field of ga, zero- or sign-extended. -/
def execExt (e n slot busy ecc : Nat) (s : State) : Host.Outcome State Fault Refusal :=
  .next (s.issue e n slot busy ecc (some .ext) fun i s => aluImm (extOf i.w) i s)

/-- INS (R270): a field of gd := the low bits of ga. -/
def execIns (e n slot busy ecc : Nat) (s : State) : Host.Outcome State Fault Refusal :=
  .next (s.issue e n slot busy ecc (some .ins) fun i s =>
    i.done (i.put (setBits (i.gd s) (fieldOf i.w).1 (fieldOf i.w).2 (i.ga s).toNat) s))

/-- CMP (R271, R266): sets cc from ga - gb. -/
def execCmp (e n slot busy ecc : Nat) (s : State) : Host.Outcome State Fault Refusal :=
  .next (s.issue e n slot busy ecc (some .cmp) fun i s =>
    i.done (s.setCc i.e i.n (ccOf (aluSub (i.ga s) (i.gb s)))))

/-- CMPI (R271, R266): sets cc from ga - sext(IMM). -/
def execCmpi (e n slot busy ecc : Nat) (s : State) : Host.Outcome State Fault Refusal :=
  .next (s.issue e n slot busy ecc (some .cmpi) fun i s =>
    i.done (s.setCc i.e i.n (ccOf (aluSub (i.ga s) (simmOf i.w)))))

/-- The pc of the instruction as a word. -/
def Ins.pcw (i : Ins) (s : State) : Word := BitVec.ofNat 32 (s.pcOf i.e i.n)

/-- B (R271, R267): branches relative to its own pc when COND holds. -/
def execB (e n slot busy ecc : Nat) (s : State) : Host.Outcome State Fault Refusal :=
  .next (s.issue e n slot busy ecc (some .b) fun i s =>
    if condHolds (dOf i.w) (i.thr s).cc then i.jump (i.pcw s + offsetOf i.w * 4) s else i.done s)

/-- JAL (R271): gd := pc + 4, and a jump relative to pc. -/
def execJal (e n slot busy ecc : Nat) (s : State) : Host.Outcome State Fault Refusal :=
  .next (s.issue e n slot busy ecc (some .jal) fun i s =>
    i.jump (i.pcw s + simmOf i.w * 4) (i.put (i.pcw s + 4) s))

/-- JALR (R271): gd := pc + 4, and a jump to (ga + sext(IMM)) AND 0x7FFC, with ga as read before the link is written. -/
def execJalr (e n slot busy ecc : Nat) (s : State) : Host.Outcome State Fault Refusal :=
  .next (s.issue e n slot busy ecc (some .jalr) fun i s =>
    i.jump ((i.ga s + simmOf i.w) &&& 0x7FFC) (i.put (i.pcw s + 4) s))

/-- One byte through a 16-bit CRC register with polynomial x^16 + x^15 + x^2 + 1, reflected (R281). -/
def crcA001 (acc : Nat) (x : Byte) : Nat := crcRefByte 0xA001 acc x

/-- The CRC register `g` advanced over bytes `bs` with polynomial code `p` (R281). -/
def crcStep (p g : Nat) (bs : List Byte) : Nat :=
  match p with
  | 0 => bs.foldl (crcRefByte 0xEDB88320) g
  | 1 => bs.foldl (crcRefByte 0x82F63B78) g
  | 2 => bs.foldl crc16Byte (g % 65536)
  | _ => bs.foldl crcA001 (g % 65536)

/-- The low 1, 2 or 4 bytes of a word, most significant first (R281). -/
def lowBytes (sel : Nat) (a : Word) : List Byte := natBe (2 ^ sel) a.toNat

/-- CRC (R281): the CRC register gd advanced over bytes of ga. -/
def execCrc (e n slot busy ecc : Nat) (s : State) : Host.Outcome State Fault Refusal :=
  .next (s.issue e n slot busy ecc (some .crc) fun i s =>
    i.done (i.put (BitVec.ofNat 32 (crcStep (xBits i.w 2 2) (i.gd s).toNat (lowBytes (xBits i.w 0 2) (i.ga s)))) s))

/-- ILLEGAL_INSTRUCTION (R265, R284): an illegal encoding faults with FCAUSE 1. -/
def execIllegalInstruction (e n slot busy ecc : Nat) (s : State) : Host.Outcome State Fault Refusal :=
  .next (s.issue e n slot busy ecc none fun i s => i.fault 1 s)

end Sys2Proof.Machine
end

