-- ==== Sys2Proof/Machine/Check.lean ====
section
/-!
DEFINITION. The commands of the check units and the seal (14_check_units_safety_island.md R359 to R369).
-/
namespace Sys2Proof.Machine

/-- A write of CHK_n_CTL (R359, R367). -/
def State.chkCtlWrite (s : State) (n : Nat) (data : Word) : State :=
  let go := bitOf data 31
  let abort := bitOf data 30
  let running := s.flag (F.CHK_STAT.STATE n)
  if go then
    if running = false ∧ abort = false ∧ s.quiesced 42 = false then (s.writeFields (O.CHK_CTL n) data).chkGo n
    else (s.fset (F.CHK_STAT.CFG_ERR n) 1).raiseChk n 5
  else
    let s := s.writeFields (O.CHK_CTL n) data
    if abort = true ∧ running = true ∧ s.chkNeeds n ≠ 0 then s.chkEnd n 7 0 0 else s

/-- CHK_GO (R359): a write of CHK_n_CTL with GO. -/
def execChkGo (fn n : Nat) (data : Word) (s : State) : Host.Outcome State Fault Refusal :=
  .next (s.access fn (O.CHK_CTL n) fun _ s => s.chkCtlWrite n (data ||| 0x80000000))

/-- CHK_ABORT (R367): a write with ABORT and no GO. -/
def execChkAbort (fn n : Nat) (data : Word) (s : State) : Host.Outcome State Fault Refusal :=
  .next (s.access fn (O.CHK_CTL n) fun _ s => s.chkCtlWrite n (data &&& 0x7FFFFFFF ||| 0x40000000))

/-- A write of CHK_SEAL (R368): the key seals; once sealed every write is refused. -/
def State.sealWrite (s : State) (data : Word) : State :=
  if s.flag F.CHK_SEAL.SEALED then s.deny
  else if getBits data 16 16 = 0x5EA1 then s.fset F.CHK_SEAL.SEALED 1
  else s

/-- CHK_SEAL_WRITE (R368). -/
def execChkSealWrite (fn : Nat) (data : Word) (s : State) : Host.Outcome State Fault Refusal :=
  .next (s.access fn O.CHK_SEAL fun _ s => s.sealWrite data)

/-- CHK_SCAN_DATA (R360): bytes of a scan return from the master port, or an error response. -/
def execChkScanData (n : Nat) (bytes : List Byte) (err : Bool) (s : State) : Host.Outcome State Fault Refusal :=
  if s.chkUp n = true ∧ s.domOn 1 = true ∧ s.rst.blk = false ∧ s.flag (F.CHK_CFG.SRC n) = false ∧
      s.flag (F.CHK_STAT.STATE n) = true ∧ s.chkNeeds n ≠ 0 then
    let a := s.rd64 (O.CHK_SCAN_ADDR n) + (s.chk n).taken
    if err then .next ((s.hostRead (.scan n) a (s.chkNeeds n)).chkEnd n 6 0 0)
    else .next ((s.hostRead (.scan n) a (min bytes.length (s.chkNeeds n))).chkTake n bytes)
  else .next s

/-- CHK_RUN_END (R363): the run whose last byte has been taken ends. -/
def execChkRunEnd (n : Nat) (s : State) : Host.Outcome State Fault Refusal :=
  if s.chkUp n = true ∧ s.flag (F.CHK_STAT.STATE n) = true ∧ s.chkNeeds n = 0 then .next (s.chkFinish n) else .next s

/-- CHK_STALE_EXPIRY (R366): STALE, and a record with ALIVE 5. A result that has ended shows it too; a run in progress keeps its
own ALIVE. With `restarts` a run's end restarts the timer in the same cycle, and the restart wins (R367). -/
def execChkStaleExpiry (n : Nat) (s : State) (restarts : Bool := false) : Host.Outcome State Fault Refusal :=
  if s.chkUp n = true ∧ (s.chk n).stale = true ∧ restarts = false ∧ s.flag (F.CHK_CFG.ALIVE_EN n) = true ∧
      s.fget (F.CHK_ALIVE.STALE_US n) ≠ 0 then
    let s := (s.setChk n { s.chk n with stale := false }).fsets [(F.CHK_STAT.STALE n, 1), (F.CHK_STAT.ALIVE n, 5)]
    let was := s.fget (F.CHK_RESULT.ALIVE n)
    let s := ((s.raiseChk n 3).fset (F.CHK_RESULT.ALIVE n) 5).chkRecord n
    .next (if s.flag (F.CHK_RESULT.VALID n) then s else s.fset (F.CHK_RESULT.ALIVE n) was)
  else .next s

/-- CHK_RESULT_READ (R364): a read of bytes 0–3 latches words 1–3. -/
def execChkResultRead (fn n : Nat) (s : State) : Host.Outcome State Fault Refusal :=
  .next (s.access fn (O.CHK_RESULT n) fun key s => (s.latchNext key 3).answer false (s.rd key).toNat)

/-- The words that CHK_DIGEST covers for unit `n` (R369). -/
def digestWords (n : Nat) : List Nat :=
  [O.CHK_CFG n, O.CHK_POLY n, O.CHK_POLY n + 4, O.CHK_INIT n, O.CHK_INIT n + 4, O.CHK_XOROUT n, O.CHK_XOROUT n + 4,
    O.CHK_SCAN_ADDR n, O.CHK_SCAN_ADDR n + 4, O.CHK_LEN n, O.CHK_ALIVE n]

/-- CHK_DIGEST as it reads (R369). -/
def State.digest (s : State) : Nat :=
  crc32 ((List.range s.cfg.checkUnits).map fun n => ((digestWords n).map fun k => natLe 4 (s.rd k).toNat).flatten).flatten

end Sys2Proof.Machine
end

