-- ==== Sys2Proof/Machine/DicOps.lean ====
section
/-!
DEFINITION. The dictionary's objects (17_parameter_dictionary.md R397 to R402; 18_faults_and_selftest.md R423): their
definitions, where they mirror a register, their values, and the spine copies' agreement with the registers (R400).
Keys are index × 256 + sub-index.
-/
namespace Sys2Proof.Machine

/-- The register bits that an object mirrors: offset of the register, lowest bit, width (R400). -/
structure Mir where
  key : Nat
  lo : Nat := 0
  wd : Nat := 32
deriving DecidableEq, Repr

/-- An object of the block: its definition and what it mirrors. -/
structure Obj where
  d : ObjDef
  mir : Option Mir := none
deriving DecidableEq, Repr

/-- Size of a value of a type: `none` for VSTRING, DOMAIN and the reserved code 6 (R398). -/
def typeSize (t : Nat) : Option Nat :=
  if t = 0 ∨ t = 1 ∨ t = 5 then some 1
  else if t = 2 ∨ t = 7 then some 2
  else if t = 3 ∨ t = 8 ∨ t = 10 then some 4
  else if t = 4 ∨ t = 9 then some 8
  else if t = 11 then some 12
  else none

/-- A constant or read-only object of the block. -/
def roObj (t acc n : Nat) (net : Bool) : Obj := { d := { typ := t, acc := acc, reachN := net, size := n, dflt := List.replicate n 0 } }

/-- A persistent object of the block that mirrors register bits. -/
def nvObj (t acc n : Nat) (net : Bool) (dflt : Nat) (m : Mir) : Obj :=
  { d := { typ := t, acc := acc, reachN := net, persist := true, size := n, dflt := natLe n dflt }, mir := some m }

/-- The sub-indices in use of an index of the block, in ascending order (R401); empty where the index does not exist. -/
def blockSubs (c : Cfg) (i : Nat) : List Nat :=
  if i ∈ [0x1000, 0x1001, 0x1002, 0x1008, 0x1010, 0x1018, 0x1100, 0x1102, 0x1103, 0x1104, 0x1105, 0x1110, 0x3000, 0x5000,
      0x5800, 0x5801] then [0]
  else if i = 0x1111 then [1, 2, 3, 4]
  else if 0x2000 ≤ i ∧ i < 0x2800 ∧ i % 256 = 0 then (if c.hasPort (i / 256 % 16) then [1] else [])
  else if 0x2000 ≤ i ∧ i < 0x2800 ∧ i % 256 = 1 then (if c.hasPort (i / 256 % 16) then rangeFrom 1 17 else [])
  else if i = 0x2800 then rangeFrom 1 (c.pick 3 6)
  else if i = 0x3010 then (rangeFrom 1 10).filter fun n => c.hasPort (n - 1)
  else if i = 0x3020 then rangeFrom 1 32
  else if 0x4000 ≤ i ∧ i < 0x4100 then [1, 2, 3, 4]
  else if 0x5810 ≤ i ∧ i < 0x5810 + c.checkUnits then rangeFrom 1 7
  else []

/-- The highest sub-index of an index with more than one (R397). -/
def subTop (l : List Nat) : Option Nat := if 1 < l.length then l.getLast? else none

/-- Sub-index 0 of an index that has more than one (R397). DESIGN CHOICE, notes/assumptions/56.md. -/
def subZero (n : Nat) : Obj := { d := { typ := 1, acc := 4, size := 1, dflt := natLe 1 n } }

/-- A value of a check unit's settings (R401): sub-index 1 to 7 of unit `n`. Its default is the register's reset value.
DESIGN CHOICE, notes/assumptions/61.md. -/
def chkObj (c : Cfg) (n sub : Nat) : Obj :=
  let k := if sub = 1 then O.CHK_CFG n else if sub = 2 then O.CHK_POLY n else if sub = 3 then O.CHK_INIT n
    else if sub = 4 then O.CHK_XOROUT n else if sub = 5 then O.CHK_SCAN_ADDR n else if sub = 6 then O.CHK_LEN n else O.CHK_ALIVE n
  let wide := decide (2 ≤ sub ∧ sub ≤ 5)
  let v := (resetWord c k).toNat + (if wide then 2 ^ 32 * (resetWord c (k + 4)).toNat else 0)
  let sz := if wide then 8 else 4
  { d := { typ := if wide then 4 else 3, acc := 1, reachN := false, size := sz, dflt := natLe sz v }
    mir := some { key := k, wd := 8 * sz } }

/-- An object of 0x2800 (R401). -/
def trkObj (sub : Nat) : Obj :=
  if sub = 1 then nvObj 1 3 1 true 0 ⟨O.TRK_NODE, 0, 8⟩
  else if sub = 2 then nvObj 0 3 1 true 0 ⟨O.TRK_NODE, 8, 1⟩
  else if sub = 3 then nvObj 0 3 1 true 0 ⟨O.TRK_NODE, 9, 1⟩
  else if sub = 4 then nvObj 1 3 1 true 0 ⟨O.TRK_RING_CFG, 0, 2⟩
  else if sub = 5 then nvObj 1 3 1 true 0 ⟨O.TRK_RING_CFG, 4, 1⟩
  else nvObj 2 3 2 true 50 ⟨O.TRK_RING_CFG, 16, 12⟩

/-- An object of 0x2p01 (R401). -/
def wakeObj (p sub : Nat) : Obj :=
  if sub = 1 then nvObj 2 1 2 false 0 ⟨O.MAC_WAKE_CTL p, 0, 9⟩
  else if sub < 10 then nvObj 13 1 16 false 0 ⟨O.MAC_WAKE_MASK p (sub - 2), 0, 128⟩
  else nvObj 2 1 2 false 0 ⟨O.MAC_WAKE_CRC p (sub - 10), 0, 16⟩

/-- An object of the block by its sub-index, which is in use (R401). -/
def blockObj (c : Cfg) (i sub : Nat) : Obj :=
  if i = 0x1000 then { d := { typ := 3, acc := 4, size := 4, dflt := natLe 4 0xC2E7 } }
  else if i = 0x1001 then roObj 3 4 4 true
  else if i = 0x1002 then roObj 4 4 8 true
  else if i = 0x1008 then { d := { typ := 12, acc := 1, persist := true } }
  else if i = 0x1010 then roObj 4 4 8 true
  else if i = 0x1018 then roObj 3 0 4 true
  else if i = 0x1100 then roObj 1 0 1 true
  else if i = 0x1102 then nvObj 0 3 1 false 0 ⟨O.BLK_HALF, 5, 1⟩
  else if i = 0x1103 then roObj 1 0 1 true
  else if i = 0x1104 then roObj 2 0 2 true
  else if i = 0x1105 then { d := { typ := 1, acc := 1, persist := true, size := 1, dflt := [1] } }
  else if i = 0x1110 then roObj 3 0 4 true
  else if i = 0x1111 then roObj 3 0 4 true
  else if i = 0x3000 then roObj 11 0 12 true
  else if i = 0x5000 then roObj 3 0 4 false
  else if i = 0x5800 then roObj 0 0 1 true
  else if i = 0x5801 then roObj 3 0 4 true
  else if i = 0x2800 then trkObj sub
  else if 0x2000 ≤ i ∧ i < 0x2800 then
    if i % 256 = 0 then nvObj 4 3 8 true 0 ⟨O.MAC_ADDR (i / 256 % 16) 0, 0, 64⟩ else wakeObj (i / 256 % 16) sub
  else if i = 0x3010 then nvObj 9 1 8 false 0 ⟨O.TB_LAT (sub - 1), 0, 64⟩
  else if i = 0x3020 then nvObj 0 1 1 false 0 ⟨O.CTU_TRIG_CFG (sub - 1), 2, 1⟩
  else if 0x4000 ≤ i ∧ i < 0x4100 then
    (if sub = 1 then roObj 1 0 1 false else if sub = 4 then roObj 3 0 4 false else roObj 2 0 2 false)
  else chkObj c (i - 0x5810) sub

/-- Whether an index lies in the ranges that the host defines (R401, R402). -/
def hostRange (i : Nat) : Bool := decide ((0x6000 ≤ i ∧ i < 0x8000) ∨ (0xA000 ≤ i ∧ i < 0xC000))

/-- The sub-indices other than 0 that the host has defined of an index. -/
def State.hostSubs (s : State) (i : Nat) : List Nat :=
  (s.dic.defs.filter fun x => decide (x.1 / 256 = i ∧ x.1 % 256 ≠ 0)).map fun x => x.1 % 256

/-- The object of a key, or the abort code of R409 for one that does not exist. -/
def State.object (s : State) (k : Nat) : Nat ⊕ Obj :=
  let i := k / 256
  let sub := k % 256
  if hostRange i then
    match KMap.find? s.dic.defs k with
    | some d => .inr { d := d }
    | none =>
      match if sub = 0 then subTop (s.hostSubs i) else none with
      | some n => .inr (subZero n)
      | none => .inl 0x0101
  else
    let l := blockSubs s.cfg i
    if l.isEmpty then .inl 0x0101
    else if l.contains sub then .inr (blockObj s.cfg i sub)
    else
      match if sub = 0 then subTop l else none with
      | some n => .inr (subZero n)
      | none => .inl 0x0102

/-- The keys of the block's persistent objects. -/
def blockKeys (c : Cfg) : List Nat :=
  let subs (i : Nat) : List Nat := (blockSubs c i).map fun n => 256 * i + n
  subs 0x1008 ++ subs 0x1102 ++ subs 0x1105 ++
    (((List.range 8).map fun p => subs (0x2000 + 256 * p) ++ subs (0x2001 + 256 * p)).flatten) ++
    subs 0x2800 ++ subs 0x3010 ++ subs 0x3020

/-- The keys of the check units' objects. -/
def chkKeys (c : Cfg) : List Nat :=
  ((List.range c.checkUnits).map fun n => (blockSubs c (0x5810 + n)).map fun j => 256 * (0x5810 + n) + j).flatten

/-- The keys of every persistent object, ascending within the block's and the host's. -/
def State.persistKeys (s : State) : List Nat :=
  blockKeys s.cfg ++ (s.dic.defs.filter fun x => x.2.persist).map fun x => x.1

/-! ### Values -/

/-- The spine's value of an object (R400). -/
def State.dicVal (s : State) (k : Nat) (d : ObjDef) : List Byte := (KMap.find? s.dic.vals k).getD d.dflt

/-- DIC_STAT.DIRTY shows whether a persistent object is dirty (R412). -/
def State.showDirty (s : State) : State :=
  let l := s.persistKeys
  s.fset F.DIC_STAT.DIRTY (b2n (s.dic.dirty.any fun k => l.contains k))

/-- Gives an object a value in the spine; a change makes it dirty (R412). -/
def State.setVal (s : State) (k : Nat) (d : ObjDef) (v : List Byte) : State :=
  if s.dicVal k d = v then s
  else
    let dirty := if k ∈ s.dic.dirty then s.dic.dirty else s.dic.dirty ++ [k]
    (s.setDic { s.dic with
      vals := if v = d.dflt then KMap.erase s.dic.vals k else KMap.insert s.dic.vals k v, dirty := dirty }).showDirty

/-! ### Mirrored registers -/

/-- Words of the register that `m` lies in. -/
def Mir.words (m : Mir) : Nat := (m.lo + m.wd + 31) / 32

/-- The value of mirrored register bits. DESIGN CHOICE, notes/assumptions/61.md. -/
def State.mirGet (s : State) (m : Mir) : Nat :=
  (List.range m.words).foldl (fun a i => a + 2 ^ (32 * i) * (s.rd (m.key + 4 * i)).toNat) 0 / 2 ^ m.lo % 2 ^ m.wd

/-- The bits of a register word that its fields have: reserved bits stay 0 (00_scope.md R7). -/
def fieldMask (c : Cfg) (key : Nat) : Word :=
  match hitOf c key with
  | none => 0
  | some h =>
    h.row.fields.foldl (fun (a : Word) f =>
      let sl := fieldSlice f h.word
      if sl.2.1 = 0 then a else setBits a sl.1 sl.2.1 (2 ^ sl.2.1 - 1)) 0

/-- Word `i` of the register with the mirrored bits holding `v`. -/
def State.mirWord (s : State) (m : Mir) (v i : Nat) : Word :=
  let old := (s.rd (m.key + 4 * i)).toNat
  let lo := max m.lo (32 * i)
  let hi := min (m.lo + m.wd) (32 * (i + 1))
  setBits (BitVec.ofNat 32 old) (lo - 32 * i) (hi - lo) (v / 2 ^ (lo - m.lo))

/-- A register takes its value from the spine copy without an access (R400). -/
def State.mirLoad (s : State) (m : Mir) (v : Nat) : State :=
  forEach (List.range m.words) (fun i s =>
    let k := m.key + 4 * i
    s.wr k (s.mirWord m v i &&& fieldMask s.cfg k &&& ~~~ absentBits s.cfg k)) s

/-- The objects that mirror a word of the register at `key`, and are written through it (R400).
DESIGN CHOICE, notes/assumptions/61.md. -/
def mirrorsAt (c : Cfg) (key : Nat) : List (Nat × Obj × Mir) :=
  (blockKeys c ++ (if 0x0E9000 ≤ key ∧ key < 0x0ED000 then chkKeys c else [])).filterMap fun k =>
    let o := blockObj c (k / 256) (k % 256)
    match o.mir with
    | some m => if m.key ≤ key ∧ key < m.key + 4 * m.words then some (k, o, m) else none
    | none => none

/-- A slave-port write to the register word at `key` has changed it: the spine copies follow (R400). -/
def State.dicSync (s : State) (key : Nat) : State :=
  forEach (mirrorsAt s.cfg key) (fun x s => s.setVal x.1 x.2.1.d (natLe x.2.1.d.size (s.mirGet x.2.2))) s

/-- Every persistent mirrored register whose home lies where `p` says takes its spine copy (R400, R415).
DESIGN CHOICE, notes/assumptions/58.md. -/
def State.loadNv (s : State) (p : Nat → Bool) : State :=
  forEach (blockKeys s.cfg) (fun k s =>
    let o := blockObj s.cfg (k / 256) (k % 256)
    match o.mir with
    | some m => if p m.key then s.mirLoad m (leNat (s.dicVal k o.d)) else s
    | none => s) s

end Sys2Proof.Machine
end

