-- ==== Sys2Proof/Machine/Irq.lean ====
section
/-!
DEFINITION. The interrupt controller (15_interrupts.md R370 to R379).
-/
namespace Sys2Proof.Machine

/-- G of R374. -/
def State.irqG (s : State) : Nat := min (s.fget F.IRQ_CTL.GROUPBITS) 8
/-- The group of a priority (R374). -/
def State.irqGroup (s : State) (pri : Nat) : Nat := pri / 2 ^ (8 - s.irqG)
/-- The priority of source `n`. -/
def State.irqPri (s : State) (n : Nat) : Nat := s.fget (F.IRQ_CFG.PRI n)

/-- The active sources that target `k` has taken (R376, R377). -/
def State.irqActive (s : State) (k : Nat) : List Nat :=
  (s.taken.filter (fun e => e.2 == k + 1)).map (·.1)

/-- Whether source `n` qualifies for target `k` (R375). -/
def State.irqQualifies (s : State) (k n : Nat) : Bool :=
  s.flag (pendFld n) && s.flag (F.IRQ_CFG.EN n) && decide (s.fget (F.IRQ_CFG.TARGET n) = k) && !s.flag (actFld n) &&
    decide (s.irqPri n < s.fget (F.IRQ_THRESH.THRESH k)) && s.flag (F.IRQ_THRESH.TEN k) && !s.flag F.IRQ_CTL.GDIS &&
    (s.irqActive k).all (fun a => decide (s.irqGroup (s.irqPri n) < s.irqGroup (s.irqPri a)))

/-- The winner among the qualifying sources of target `k`: the lowest group, then the lowest sub-priority, then the lowest
number; a lower priority value decides the first two (R374, R375). DEDUCED, notes/assumptions/64.md. -/
def State.irqWinner (s : State) (k : Nat) : Option Nat :=
  (List.range s.cfg.irqSources).foldl (fun best n =>
    if s.irqQualifies k n then
      match best with
      | some b => if s.irqPri n < s.irqPri b then some n else best
      | none => some n
    else best) none

/-- The controller runs in every mode except RESET and DORMANT (R378). -/
def State.irqRuns (s : State) : Bool := decide (s.mode ≠ 0 ∧ s.mode ≠ 7)

/-- The vector address of source `n` at target `k` (R376). DEDUCED, notes/assumptions/64.md. -/
def State.irqAddr (s : State) (k n : Nat) : Nat :=
  (32 * s.fget (F.IRQ_VBASE.BASE k) + n * 2 ^ (2 + s.fget (F.IRQ_VBASE.VSHIFT k))) % 2 ^ 32

/-- Ends the offer of target `k` without an ack (R376). -/
def State.irqDrop (s : State) (k : Nat) : State :=
  ((s.fset (F.IRQ_OFFER.VALID k) 0)).emit (.vec k false 0 0)

/-- Ends the offer of target `k` when its source has stopped qualifying (R376). DEDUCED, notes/assumptions/64.md. -/
def State.irqWithdraw (s : State) (k : Nat) : State :=
  if s.flag (F.IRQ_OFFER.VALID k) = true ∧ s.irqQualifies k (s.fget (F.IRQ_OFFER.SRC k)) = false then s.irqDrop k else s

/-- Offers the winner of target `k` (R376). DEDUCED, notes/assumptions/64.md. -/
def State.irqOffer (s : State) (k : Nat) : State :=
  match s.irqWinner k with
  | none => s
  | some n =>
    (s.fsets [(F.IRQ_OFFER.VALID k, 1), (F.IRQ_OFFER.PRI k, s.irqPri n), (F.IRQ_OFFER.SRC k, n)]).emit
      (.vec k true (s.irqAddr k n) (s.irqPri n))

/-- IRQ_OFFER (R375, R376, R378): a running offer stands or is withdrawn; without one the winner is offered. -/
def execIrqOffer (k : Nat) (s : State) : Host.Outcome State Fault Refusal :=
  if s.irqRuns then
    if s.flag (F.IRQ_OFFER.VALID k) then .next (s.irqWithdraw k) else .next (s.irqOffer k)
  else .next s

/-- VEC_ACK (R376): the offered source becomes active, taken by `k`, and is no longer pending; an ack without an offer is
ignored, one in a later cycle than that in which the source stopped qualifying too. With `met` the ack meets that change in
one cycle, and stands (R379). DEDUCED, notes/assumptions/64.md. -/
def execVecAck (k : Nat) (s : State) (met : Bool := false) : Host.Outcome State Fault Refusal :=
  if s.flag (F.IRQ_OFFER.VALID k) then
    let n := s.fget (F.IRQ_OFFER.SRC k)
    if met = false ∧ s.irqQualifies k n = false then .next (s.irqDrop k)
    else
      let s := (s.fset (pendFld n) 0).fset (actFld n) 1
      let s := s.setTaken (KMap.put 0 s.taken n (k + 1))
      .next (s.irqDrop k)
  else .next s

/-- A write of a source number to IRQ_EOI_k (R377). -/
def State.irqEoi (k : Nat) (data : Word) (s : State) : State :=
  let n := getBits data 0 10
  if KMap.get 0 s.taken n = k + 1 then
    (s.fset (actFld n) 0).setTaken (KMap.put 0 s.taken n 0)
  else (s.fset F.IRQ_STAT.EOI_ERR 1).fset F.IRQ_STAT.EOI_SRC n

/-- IRQ_EOI (R377). -/
def execIrqEoi (fn k : Nat) (data : Word) (s : State) : Host.Outcome State Fault Refusal :=
  .next (s.access fn (O.IRQ_EOI k) fun _ s => s.irqEoi k data)

/-- A write of IRQ_SETPEND_w (R372). -/
def State.irqSetPend (w : Nat) (data : Word) (s : State) : State :=
  s.wr (O.IRQ_PEND w) (s.rd (O.IRQ_PEND w) ||| data)

/-- IRQ_SETPEND_WRITE (R372). -/
def execIrqSetpendWrite (fn w : Nat) (data : Word) (s : State) : Host.Outcome State Fault Refusal :=
  .next (s.access fn (O.IRQ_SETPEND w) fun _ s => s.irqSetPend w data)

/-- AON_LATCH_TRANSFER (R373): once the spine runs, each latched edge passes into its pending bit and the latch
clears. -/
def execAonLatchTransfer (s : State) : Host.Outcome State Fault Refusal :=
  if s.domOn 1 = true ∧ s.rst.blk = false then
    .next (forEach s.latches (fun n s => s.raise n) (s.setLatches []))
  else .next s

/-- IRQ_RUN_k as it reads (15_interrupts.md, IRQ_ registers): the active source of `k` with the lowest priority value. -/
def State.irqRunWord (s : State) (k : Nat) : Word :=
  match (s.irqActive k).foldl (fun best n =>
      match best with
      | some b => if s.irqPri n < s.irqPri b then some n else best
      | none => some n) (none : Option Nat) with
  | none => 0xFF
  | some n => BitVec.ofNat 32 (2 ^ 31 + 2 ^ 16 * n + s.irqPri n)

end Sys2Proof.Machine
end

