-- ==== Sys2Proof/Machine/Trunk.lean ====
section
/-!
DEFINITION. The cell-mode trunk: configuration, delineation, reassembly, the cells sent, and the superframe's numbering
(05_trunk_cells.md R131 to R156).
-/
namespace Sys2Proof.Machine

/-- Counter `k` of trunk `t` (R156). -/
def State.trkCnt (s : State) (t k : Nat) : State := s.cnt (O.TRK_CNT t k)

/-- Scheduled slots of a superframe: 496 at 25.6 Gb/s, 196 at 10.24 Gb/s (R147). -/
def State.slotsOf (s : State) (t : Nat) : Nat := if s.fget (F.TRK_CFG.MODE t) = 1 then 496 else 196

/-- Nominal cell times of a superframe (R147). -/
def State.cellsOf (s : State) (t : Nat) : Nat := if s.fget (F.TRK_CFG.MODE t) = 1 then 500 else 200

/-- LOSS of R141. -/
def State.lossOf (s : State) (t : Nat) : Nat := max 2 (s.fget (F.TRK_DELIN_CFG.LOSS t))
/-- DELTA of R141. -/
def State.deltaOf (s : State) (t : Nat) : Nat := max 1 (s.fget (F.TRK_DELIN_CFG.DELTA t))

/-! ### Leaving and entering SYNC -/

/-- A channel's state after SYNC ends: its frame is discarded (R151). -/
def chanAbort (c : Chan) : Chan := { c with asm := false, bytes := [], skip := 0, lost := false }

/-- A pair comes into effect on port `t`; a line node flushes when it is another pair (R182, R188).
DEDUCED, notes/assumptions/46.md. -/
def State.setEff (s : State) (t : Nat) (p : Nat × Nat) : State :=
  if s.effPair t = p then s
  else
    let s := s.fsets [(F.TRK_PROT_STAT.EFF_CODE t, p.1), (F.TRK_PROT_STAT.EFF_ORIG t, p.2)]
    if s.ringRole = 0 then s.flushRing else s

/-- The receiver leaves SYNC, or drops its candidates (R141, R151, R182): every assembling channel counts RX_LOS_ABORT; the
request in effect becomes No Request. -/
def State.leaveSync (s : State) (t : Nat) : State :=
  let v := s.trunk t
  let n := (v.chans.filter (fun c => c.2.asm)).length
  let s := s.cntAdd (O.TRK_CNT t 13) n
  let s := s.setTrunk t { v with cands := [], chans := v.chans.map (fun c => (c.1, chanAbort c.2)), pos := none, broken := false }
  let held := if s.fget (F.TRK_STAT.DELIN t) = 2 then decide (s.fget (F.TRK_PROT_CFG.HOLDOFF t) = 0) else v.sfHeld
  let s := s.setTrunk t { s.trunk t with sfHeld := held, filt := (0, 0), filtCnt := 0 }
  let s := s.fsets [(F.TRK_STAT.DELIN t, 0), (F.TRK_STAT.BAD_RUN t, 0), (F.TRK_SF_STAT.NUMBERED t, 0)]
  (s.setEff t (0, 0)).sourceUpdate.sfUpdate.fixDegraded

/-- A loss of delineation, by the last bad header or by the fall of TRn_PMA_LOCK: RX_HCS_BAD, LOS, DELIN_LOSS, HUNT (R141,
R142). -/
def State.delinLoss (s : State) (t : Nat) : State :=
  let s := s.trkCnt t 4
  ((s.setFlag (F.TRK_STAT.LOS t) (srcTrunk s.cfg t + 2)).trkCnt t 20).leaveSync t

/-- Entry to SYNC at an offset: LOCK, DELIN_LOCK, no channel has a valid reference, no numbering (R142, R151, R150). -/
def State.enterSync (s : State) (t ofs hist : Nat) : State :=
  let v := s.trunk t
  let s := s.setTrunk t { v with cands := [], align := ofs, rxHist := hist
                                 chans := v.chans.map (fun c => (c.1, { c.2 with ref := none })), pos := none, broken := false
                                 last := none, prev := none, age := 0, sfHeld := false, filt := (0, 0), filtCnt := 0 }
  let s := s.fsets [(F.TRK_STAT.DELIN t, 2), (F.TRK_STAT.BAD_RUN t, 0), (F.TRK_SF_STAT.NUMBERED t, 0)]
  let s := (s.setFlag (F.TRK_STAT.LOCK t) (srcTrunk s.cfg t + 3)).trkCnt t 21
  s.sfUpdate.fixDegraded

/-! ### Configuration -/

/-- EN of trunk `t` rises: the scrambler's history is loaded, SEQ starts at 0, the lane is driven outside DORMANT (R140, R146, R149,
R152). Urgent cells that still wait are dropped: DESIGN CHOICE, notes/assumptions/77.md. -/
def State.trunkStart (s : State) (t : Nat) : State :=
  let v := s.trunk t
  let s := s.setTrunk t { v with txHist := scrambleInit, txSeq := [], txPos := none, sfDue := none, urgent := [], cands := [] }
  let s := if s.mode = 7 then s else s.emit (.trunkEn t true)
  s.sfUpdate.csEnable.gearOkCheck

/-- EN of trunk `t` falls: it leaves SYNC without a loss; a frame partly sent is sent again whole later (R141, R146),
and the pairs sent follow (R183). Urgent cells that still wait are dropped: DESIGN CHOICE, notes/assumptions/77.md. -/
def State.trunkStop (s : State) (t : Nat) : State :=
  let s := if s.fget (F.TRK_STAT.DELIN t) = 0 then s else s.leaveSync t
  let v := s.trunk t
  let s := s.setTrunk t { v with txPos := none, sfDue := none, urgent := [], cands := []
                                 txFrames := v.txFrames.map (fun c => (c.1, { c.2 with sent := 0, n := 0 })) }
  (s.emit (.trunkEn t false)).sfUpdate.fixDegraded.gearOkCheck

/-- A write of TRK_CFG_t (R131, R132): in Gweip-S one that names MODE 1 or 3 applies nothing and sets CFG_ERR, and outside
CONFIG it gets the error response of 00_scope.md R7 as well. DEDUCED, notes/assumptions/50.md. -/
def State.trkCfgWrite (t : Nat) (data : Word) (s : State) : State :=
  let m := getBits data 2 2
  let old := s.fget (F.TRK_CFG.MODE t)
  let was := s.flag (F.TRK_CFG.EN t)
  if s.cfg = .s ∧ (m = 1 ∨ m = 3) then
    let s := if s.mode = 2 then s else s.deny
    s.setFlag (F.TRK_STAT.CFG_ERR t) (srcTrunk s.cfg t)
  else
    let s :=
      if m ≠ old ∧ was = true ∧ s.mode = 2 then
        (s.writeFields (O.TRK_CFG t) (setBits data 2 2 old)).setFlag (F.TRK_STAT.CFG_ERR t) (srcTrunk s.cfg t)
      else s.writeFields (O.TRK_CFG t) data
    let s := if s.fget (F.TRK_CFG.MODE t) = old then s else s.emit (.rate t (s.fget (F.TRK_CFG.MODE t)))
    let now := s.flag (F.TRK_CFG.EN t)
    if now = was then s else if now then s.trunkStart t else s.trunkStop t

/-- TRK_CFG_WRITE (R131, R132, R141, R146, R171). -/
def execTrkCfgWrite (fn t : Nat) (data : Word) (s : State) : Host.Outcome State Fault Refusal :=
  .next (s.access fn (O.TRK_CFG t) fun _ s => s.trkCfgWrite t data)

/-- PMA_LOCK_CHANGE (R141, R181): a fall in SYNC with EN = 1 is a loss of delineation. DEDUCED, notes/assumptions/48.md. -/
def execPmaLockChange (t : Nat) (level : Bool) (s : State) : Host.Outcome State Fault Refusal :=
  if t < s.cfg.trunks then
    let s := (s.setTrunk t { s.trunk t with pmaLock := level }).fset (F.TRK_STAT.PMA_LOCK t) (b2n level)
    let s :=
      if level then s
      else if s.fget (F.TRK_STAT.DELIN t) = 2 then s.delinLoss t
      else if s.fget (F.TRK_STAT.DELIN t) = 1 then s.leaveSync t
      else s
    .next s.sfUpdate.fixDegraded
  else .next s

/-! ### Receiving cells -/

/-- The information word with its HCS, as one 48-bit number. -/
def headerOf (bs : List Byte) : Nat := beNat (bs.take 6)

/-- Whether a 48-bit header fits (R138). -/
def headerFits (h : Nat) : Bool := decide (h % 65536 = hcsOf (h / 65536))

/-- The header after correcting a single-bit error, where it has one (R139). -/
def headerCorrect (h : Nat) : Option Nat :=
  ((List.range 48).map (fun i => Nat.xor h (2 ^ i))).find? headerFits

/-- A cell of trunk `t` is judged by the table of R136: `none` where it may stand, otherwise the counter.
DEDUCED, notes/assumptions/47.md. -/
def judgeCell (chan ctype len : Nat) : Option Nat :=
  if len = 0 ∨ 58 < len then some 6
  else if ctype = 7 then some 7
  else if ctype ≠ 4 ∧ ctype ≠ 5 ∧ len ≠ 58 then some 6
  else
    let ok := if ctype = 0 then decide (chan = 0) else if ctype = 1 then decide (chan = 0x3FF)
      else if ctype = 6 then decide (chan = 0x3FE) else decide (1 ≤ chan ∧ chan ≤ 0x3FD)
    if ok then none else some 7

/-- A whole frame of a channel is judged and passed on (R154, R155). -/
def State.deliverChan (s : State) (t c : Nat) (bs : List Byte) (pri : Nat) (stamp : Int) (cut : Bool) : State :=
  let good := fcsGood bs && !cut
  let s := if cut then s.trkCnt t 16 else if good then (s.trkCnt t 14).cntAdd (O.TRK_CNT t 28) bs.length else s.trkCnt t 15
  if good = true ∨ s.flag (F.TRK_CFG.KEEP_ERR t) = true then
    s.addWhole { bytes := bs, done := true, src := .chan t c, half := s.cfg.halfOfTrunk t
                 tag := s.fget (F.TRK_CHMAP.TAG t c), status := if good then 0 else if cut then 3 else 1, stamp := stamp, pri := pri
                 bad := !good }
  else s

/-- The longest frame of a channel (R152, R154). -/
def maxTrunkFrame : Nat := 16383

/-- Puts a channel's receive state back. -/
def State.putChan (s : State) (t c : Nat) (v : Chan) : State :=
  let tr := s.trunk t
  s.setTrunk t { tr with chans := KMap.put {} tr.chans c v }

/-- Whether buffer memory has room for a frame of `n` bytes that a channel of trunk `t` assembles (R154).
DESIGN CHOICE, notes/assumptions/33.md. -/
def State.growRoom (s : State) (t n : Nat) : Bool :=
  match s.place 256 0xFFF (s.halfBanks (s.cfg.halfOfTrunk t)) n with
  | .placed _ _ => true
  | _ => false

/-- A channel's frame in progress has grown to `bs`: with no buffer memory for it the frame is lost, which RX_OVERRUN counts
once; the channel goes on to the frame's end (R154). -/
def State.chanGrow (s : State) (t c : Nat) (v : Chan) (bs : List Byte) : State :=
  if v.lost then s.putChan t c { v with asm := true, bytes := bs }
  else if s.growRoom t bs.length then s.putChan t c { v with asm := true, bytes := bs }
  else (s.trkCnt t 17).putChan t c { v with asm := true, bytes := bs, lost := true }

/-- A channel's frame has ended: it is delivered unless it was lost (R154). -/
def State.chanEnd (s : State) (t c : Nat) (v : Chan) (bs : List Byte) (cut : Bool) : State :=
  let s := s.putChan t c { v with asm := false, bytes := [], lost := false }
  if v.lost then s
  else if s.growRoom t bs.length then s.deliverChan t c bs v.pri v.stamp cut
  else s.trkCnt t 17

/-- A start or single cell as in IDLE (R153). -/
def State.chanBegin (s : State) (t c : Nat) (v : Chan) (single : Bool) (data : List Byte) (pri : Nat) (stamp : Int) : State :=
  let v := { v with pri := pri, stamp := stamp, skip := 0, lost := false }
  if single then s.chanEnd t c v data false else s.chanGrow t c v data

/-- A frame cell that passes R136 and R151, by its channel's state (R153, R154). `ctype` 2 start, 3 continue, 4 end,
5 single; `data` its valid payload. -/
def State.frameCell (s : State) (t c ctype seq pri : Nat) (data : List Byte) (stamp : Int) : State :=
  let v := KMap.get {} (s.trunk t).chans c
  let expected := match v.ref with
    | some r => decide (seq = (r + 1) % 16)
    | none => false
  let noRef := v.ref.isNone
  let begins := decide (ctype = 2 ∨ ctype = 5)
  let single := decide (ctype = 5)
  let v' := { v with ref := some seq }
  let gap := !expected && !noRef
  if v.skip ≠ 0 then
    if begins then (if gap then s.trkCnt t 9 else s).chanBegin t c v' single data pri stamp
    else s.putChan t c { v' with skip := if v.skip = 1 ∧ ctype = 4 then 2 else if v.skip = 2 then 0 else 1 }
  else if v.asm then
    if expected then
      if begins then (s.trkCnt t 12).chanBegin t c { v' with asm := false, bytes := [] } single data pri stamp
      else
        let bs := v.bytes ++ data
        if maxTrunkFrame < bs.length then
          s.chanEnd t c { v' with skip := if ctype = 4 then 2 else 1 } (bs.take maxTrunkFrame) true
        else if ctype = 4 then s.chanEnd t c v' bs false
        else s.chanGrow t c v' bs
    else
      let s := s.trkCnt t 10
      if begins then s.chanBegin t c { v' with asm := false, bytes := [] } single data pri stamp
      else s.putChan t c { v' with asm := false, bytes := [], lost := false }
  else if begins then (if gap then s.trkCnt t 9 else s).chanBegin t c v' single data pri stamp
  else (s.trkCnt t 11).putChan t c v'

/-- No overhead cell has come by the 501st or 201st cell time: RX_SF_ERR, and the numbering restarts as if one had come at cell
time 500 or 200 (R150). -/
def State.sfTimeout (s : State) (t : Nat) : State :=
  match (s.trunk t).pos with
  | some k =>
    if s.cellsOf t + 1 ≤ k then
      (s.setTrunk t { s.trunk t with pos := some (k - s.cellsOf t), broken := true }).trkCnt t 19
    else s
  | none => s

/-- A received overhead cell numbers the cells after it (R150). -/
def State.numberOverhead (s : State) (t : Nat) : State :=
  let v := s.trunk t
  let n := s.cellsOf t
  let s := match v.pos with
    | none => s
    | some k =>
      if k + 1 < n then s.trkCnt t 19
      else if k ≤ n + 1 ∧ v.broken = false then
        s.fsets [(F.TRK_SF_STAT.RX_CELLS_SF t, k), (F.TRK_SF_STAT.RX_SLACK t, k - 1 - s.slotsOf t)]
      else s
  (s.setTrunk t { s.trunk t with pos := some 0, broken := false }).fset (F.TRK_SF_STAT.NUMBERED t) 1

/-- A cell that reaches R136 (R144, R150, R151, R153). DEDUCED, notes/assumptions/48.md. -/
def State.takeCell (s : State) (t info : Nat) (payload : List Byte) (stamp : Int) : State :=
  let chan := info / 2 ^ 22
  let ctype := info / 2 ^ 19 % 8
  let len := info / 2 ^ 13 % 64
  let seq := info / 2 ^ 9 % 16
  let pri := info / 2 ^ 6 % 8
  let s := s.trkCnt t 0
  match judgeCell chan ctype len with
  | some k => s.trkCnt t k
  | none =>
    if ctype = 0 then s.trkCnt t 1
    else if ctype = 1 then
      let s := (s.trkCnt t 2).numberOverhead t
      s.setTrunk t { s.trunk t with ohIn := (s.trunk t).ohIn ++ [(payload, stamp)] }
    else if ctype = 6 then
      let s := s.trkCnt t 3
      s.setTrunk t { s.trunk t with umIn := (s.trunk t).umIn ++ [(payload, stamp)] }
    else
      let s := s.sfTimeout t
      let slack := match (s.trunk t).pos with
        | some k => decide (s.slotsOf t < k)
        | none => false
      let s := if slack then s.trkCnt t 18 else s
      if s.flag (F.TRK_CHMAP.EN t chan) = false then s.trkCnt t 8
      else if slack then s
      else if s.flag (F.TRK_PROT_STAT.BLOCKED t) then
        if ctype = 2 ∨ ctype = 5 then s.fsat (F.TRK_BLOCK_DROP.COUNT t) 1 else s
      else s.frameCell t chan ctype seq pri (payload.take len) stamp

/-- One more cell time since the last overhead cell (R150). -/
def State.cellTime (s : State) (t : Nat) : State :=
  let v := s.trunk t
  s.setTrunk t { v with pos := v.pos.map (· + 1) }

/-- A bad or corrected header in SYNC counts towards Signal Degrade, which begins as soon as the running window has more than
SD_THR of them (R181). DEDUCED, notes/assumptions/46.md. -/
def State.sdCount (s : State) (t : Nat) : State :=
  let n := (s.trunk t).sdBad + 1
  let s := s.setTrunk t { s.trunk t with sdBad := n }
  if s.fget (F.TRK_PROT_CFG.SD_THR t) < n ∧ s.flag (F.TRK_PROT_STAT.SD t) = false then
    (s.fset (F.TRK_PROT_STAT.SD t) 1).protUpdate.fixDegraded
  else s

/-- A cell at the alignment in SYNC (R139, R142, R144). DEDUCED, notes/assumptions/48.md. -/
def State.syncCell (s : State) (t : Nat) (bs : List Byte) (ph : Nat) : State :=
  let v := s.trunk t
  let d := descramble v.rxHist (beNat (bs.drop 6))
  let s := (s.setTrunk t { v with rxHist := d.2 }).cellTime t
  let h := headerOf bs
  let fixed := if headerFits h then some h else if s.flag (F.TRK_CFG.HCORR t) then headerCorrect h else none
  let s := if headerFits h then s else s.sdCount t
  match fixed with
  | some w =>
    let s := if headerFits h then s else s.trkCnt t 5
    (s.fset (F.TRK_STAT.BAD_RUN t) 0).takeCell t (w / 65536) (natBe 58 d.1) (s.rxStamp (8 + t) ph)
  | none =>
    if s.fget (F.TRK_STAT.BAD_RUN t) + 1 < s.lossOf t then
      (s.trkCnt t 4).fset (F.TRK_STAT.BAD_RUN t) (s.fget (F.TRK_STAT.BAD_RUN t) + 1)
    else s.delinLoss t

/-- A header seen at an offset in HUNT or PRESYNC (R142, R143). DEDUCED, notes/assumptions/48.md. -/
def State.huntCell (s : State) (t ofs : Nat) (bs : List Byte) (ph : Nat) : State :=
  let v := s.trunk t
  let p := beNat (bs.drop 6)
  let fits := headerFits (headerOf bs)
  if s.cfg = .s then (if fits then s.enterSync t ofs (p % 2 ^ 43) else s)
  else
    match v.cands.find? (fun c => c.ofs == ofs) with
    | none =>
      if fits then
        (s.setTrunk t { v with cands := v.cands ++ [⟨ofs, 0, p % 2 ^ 43⟩] }).fset (F.TRK_STAT.DELIN t) 1
      else s
    | some c =>
      let rest := v.cands.filter (fun x => x.ofs != ofs)
      if fits then
        if c.conf + 1 < s.deltaOf t then
          s.setTrunk t { v with cands := rest ++ [⟨ofs, c.conf + 1, p % 2 ^ 43⟩] }
        else
          let d := descramble c.hist p
          (s.enterSync t ofs d.2).takeCell t (headerOf bs / 65536) (natBe 58 d.1) (s.rxStamp (8 + t) ph)
      else
        let s := (s.setTrunk t { v with cands := rest }).trkCnt t 29
        if rest.isEmpty then s.fset (F.TRK_STAT.DELIN t) 0 else s

/-- CELL_RECEIVE (R136 to R154): the 512 bits from bit offset `ofs` of the cell time on. In SYNC only the alignment's cells
are looked at. -/
def execCellReceive (t ofs : Nat) (bytes : List Byte) (ph : Nat) (s : State) : Host.Outcome State Fault Refusal :=
  let v := s.trunk t
  if s.cellTrunk t = true ∧ v.pmaLock = true ∧ v.rxLost = false ∧ bytes.length = 64 ∧ ofs < 512 then
    if s.fget (F.TRK_STAT.DELIN t) = 2 then
      if ofs = v.align then .next (s.syncCell t bytes ph) else .next s
    else .next (s.huntCell t ofs bytes ph)
  else .next s

/-- SUPERFRAME_TIMEOUT (R150): no overhead cell by the 501st or 201st cell time. -/
def execSuperframeTimeout (t : Nat) (s : State) : Host.Outcome State Fault Refusal :=
  if s.cellTrunk t then .next (s.sfTimeout t) else .next s

/-- The frame that leaves trunk MAC `p` is cut off by a link fault and lost (R133). DESIGN CHOICE, notes/assumptions/76.md. -/
def State.breakTx (s : State) (p : Nat) : State :=
  let v := s.port p
  match v.tx with
  | none => s
  | some c =>
    let s := (s.setPort p { v with tx := none }).fset (F.MAC_STAT.TX_BUSY p) 0
    if c.kind = 0 then s.copyGone p c false 0 else s

/-- LINK_FAULT_RECEIVE (R133): a Local Fault makes the MAC send Remote Fault, a Remote Fault makes it send Idle, and no frame is
sent while either holds. -/
def execLinkFaultReceive (t fault : Nat) (s : State) : Host.Outcome State Fault Refusal :=
  if t < s.cfg.trunks ∧ s.flag (F.TRK_CFG.EN t) = true ∧ 2 ≤ s.fget (F.TRK_CFG.MODE t) ∧ s.stopped (8 + t) false = false then
    let f := if fault < 3 then fault else 0
    if (s.trunk t).fault = f then .next s
    else
      let s := s.setTrunk t { s.trunk t with fault := f }
      let s := if s.stopped (8 + t) true then s else s.emit (.mii t f)
      if f = 0 then .next s else .next (s.breakTx (8 + t))
  else .next s

/-! ### Sending cells -/

/-- A cell of 64 bytes: header and scrambled payload (R134, R138, R140). -/
def State.sendCell (s : State) (t info : Nat) (payload : List Byte) : State :=
  let d := scramble (s.trunk t).txHist (beNat (payload ++ List.replicate (58 - payload.length) 0))
  let s := (s.setTrunk t { s.trunk t with txHist := d.2 }).trkCnt t 22
  s.emit (.cell t (natBe 4 info ++ natBe 2 (hcsOf info) ++ natBe 58 d.1))

/-- An idle position: the next urgent cell, or an idle cell (R136, R148). -/
def State.sendIdle (s : State) (t : Nat) (urgent : Bool) : State :=
  match (s.trunk t).urgent with
  | u :: rest =>
    if urgent then
      let s := s.setTrunk t { s.trunk t with urgent := rest }
      (s.trkCnt t 25).sendCell t (0xFFB74000 + 0x200 * u.copy) (s.urgentPayload u)
    else (s.trkCnt t 23).sendCell t 0x00074000 []
  | [] => (s.trkCnt t 23).sendCell t 0x00074000 []

/-- The first queued copy of channel `c`, once its frame is held whole (R148). -/
def State.nextCopy (s : State) (p c : Nat) : Option Copy :=
  match (s.port p).egress.find? (fun x => x.chan == c) with
  | some x => if s.wholeOk x then some x else none
  | none => none

/-- The frame that channel `c` is sending, or begins now (R148, R152). -/
def State.chanFrame (s : State) (t c : Nat) : Option TxFrame × State :=
  match KMap.find? (s.trunk t).txFrames c with
  | some f => (some f, s)
  | none =>
    let p := s.port (8 + t)
    match if s.quiesced (16 + t) then none else s.nextCopy (8 + t) c with
    | none => (none, s)
    | some x =>
      let s := s.setPort (8 + t) { p with egress := p.egress.erase x }
      let e := s.trunkBytes (8 + t) x
      (some { copy := x, bytes := e.1 }, e.2)

/-- Sends the next cell of a channel's frame (R135, R152); at its end the frame has left. -/
def State.sendFrameCell (s : State) (t c : Nat) (f : TxFrame) : State :=
  let n := f.bytes.length
  let left := n - f.sent
  let len := min 58 left
  let last := decide (left ≤ 58)
  let ctype := if f.sent = 0 then (if last then 5 else 2) else if last then 4 else 3
  let seq := KMap.get 0 (s.trunk t).txSeq c
  let info := c * 2 ^ 22 + ctype * 2 ^ 19 + len * 2 ^ 13 + seq * 2 ^ 9 + f.copy.cls % 8 * 2 ^ 6
  let s := s.sendCell t info (slice f.bytes f.sent len)
  let v := s.trunk t
  let v := { v with txSeq := KMap.put 0 v.txSeq c ((seq + 1) % 16) }
  if last then
    let s := s.setTrunk t { v with txFrames := KMap.erase v.txFrames c }
    ((s.trkCnt t 26).cntAdd (O.TRK_CNT t 27) n).copyLeft (8 + t) f.copy
  else s.setTrunk t { v with txFrames := KMap.insert v.txFrames c { f with sent := f.sent + len, n := f.n + 1 } }

/-- Whether trunk `t` sends superframes now (R149). -/
def State.sendsFrames (s : State) (t : Nat) : Bool :=
  let m := s.hmode (s.cfg.halfOfTrunk t)
  let st := s.csState
  decide (4 ≤ m ∧ m ≤ 6) ||
    (decide (m = 3) && decide (st = 2 ∨ st = 4 ∨ st = 5 ∨ (st = 3 ∧ 2 ≤ s.node.integ)))

/-- The overhead cell of superframe `sfn` (R146, R159, R163). -/
def State.sendOverhead (s : State) (t sfn ph : Nat) : State :=
  let tx := s.txStamp (8 + t) ph
  let v := s.trunk t
  let body := s.overheadPayload t sfn tx
  let s := s.setTrunk t { v with sfDue := none, txPos := some 1, kept := ((sfn, tx) :: v.kept).take 4 }
  (s.trkCnt t 24).sendCell t (0xFFCF4000 + 0x200 * (sfn % 16)) body

/-- A position after the overhead cell: a scheduled slot or slack (R147, R148, R149). -/
def State.sendSlot (s : State) (t k : Nat) : State :=
  let s := s.setTrunk t { s.trunk t with txPos := some (k + 1) }
  let m := s.hmode (s.cfg.halfOfTrunk t)
  let c := KMap.get 0 s.slots (4096 * t + 512 * s.gearOfHalf (s.cfg.halfOfTrunk t) + (k - 1))
  if k ≤ s.slotsOf t ∧ c ≠ 0 ∧ s.csJoined = true ∧ 3 ≤ m ∧ m ≤ 5 ∧ s.flag (F.TRK_PROT_STAT.BLOCKED t) = false then
    match s.chanFrame t c with
    | (some f, s) => s.sendFrameCell t c f
    | (none, s) => s.sendIdle t true
  else s.sendIdle t true

/-- CELL_SLOT (R146 to R149): the cell at the next boundary of the grid. -/
def execCellSlot (t ph : Nat) (s : State) : Host.Outcome State Fault Refusal :=
  let m := s.hmode (s.cfg.halfOfTrunk t)
  if s.cellTrunk t = true ∧ (s.trunk t).txLost = false ∧ m ≠ 0 ∧ m ≠ 7 ∧ s.domOn (16 + t) = true then
    if s.sendsFrames t then
      match (s.trunk t).sfDue, (s.trunk t).txPos with
      | some sfn, _ => .next (s.sendOverhead t sfn ph)
      | none, some k => .next (s.sendSlot t k)
      | none, none => .next (s.sendIdle t true)
    else .next (s.sendIdle t false)
  else .next s

end Sys2Proof.Machine
end

