-- ==== Sys2Proof/Machine/DomOps.lean ====
section
/-!
DEFINITION. What power domains and resets do to the units they reach: draining, isolating, losing and returning
(16_power_and_wake.md R386; 00_scope.md R8; 13_buffer_memory_and_placement.md R343; 18_faults_and_selftest.md R420).
-/
namespace Sys2Proof.Machine

/-- MEM_BANK_STAT.LIVE of a bank. -/
def State.bankLive (s : State) (b : Nat) : Nat := s.fget (F.MEM_BANK_STAT.LIVE b)

/-- The engines of cluster `k`. -/
def State.clusterEngines (s : State) (k : Nat) : List Nat :=
  (List.range s.cfg.engines).filter fun e => s.cfg.clusterOf e == k

/-- Whether an engine of cluster `k` has RUN set. -/
def State.clusterRun (s : State) (k : Nat) : Bool := (s.clusterEngines k).any fun e => s.flag (F.CE_CTL.RUN e)

/-! ### Registers by what holds them -/

/-- Removes register words, staged words and held words. -/
def State.clearKeys (s : State) (p : Nat → Bool) : State :=
  ((s.setRegs (KMap.clear p s.regs)).setStage (KMap.clear p s.stage)).setHold (KMap.clear p s.hold)

/-- The half whose counters of the classifier lie at a key, if any. -/
def clsCntHalf (key : Nat) : Option Nat :=
  if 0x040800 ≤ key ∧ key < 0x040A00 then some ((key - 0x040800) / 0x100) else none

/-- The power domain with which a register's content is lost. -/
def State.lossDom (s : State) (key : Nat) : Nat :=
  match clsCntHalf key with
  | some h => 2 + h
  | none => s.homeDom key

/-- The half whose reset resets a register (00_scope.md R8): the CLS registers but their counters are the Block's. -/
def State.resetHalfOf (s : State) (key : Nat) : Option Nat :=
  if 0x040000 ≤ key ∧ key < 0x080000 then clsCntHalf key else halfOfDom s.cfg (s.homeDom key)

/-! ### Units -/

/-- A last gasp waits no longer for port `p`. DESIGN CHOICE, notes/assumptions/21.md. -/
def State.gaspDrop (s : State) (p : Nat) : State :=
  match s.gasp with
  | some g => (s.setGasp (some { g with ports := g.ports.filter (· != p) })).gaspCheck
  | none => s

/-- Port `p` loses what it receives, holds and sends: its host frames end with NOT_TAKEN.
DESIGN CHOICE, notes/assumptions/23.md. -/
def State.dropPort (s : State) (p : Nat) : State :=
  let s := match (s.port p).arriving with
    | some f => (s.setFrame f { s.frame f with done := true, bad := true }).discard f
    | none => s
  let v := s.port p
  let cells := if 8 ≤ p then (s.trunk (p - 8)).txFrames.map fun c => c.2.copy else []
  let s := s.setPort p { v with arriving := none, egress := [], tx := none, held := none }
  let s := if 8 ≤ p then s.setTrunk (p - 8) { s.trunk (p - 8) with txFrames := [] } else s
  let s := forEach (v.copies ++ cells) (fun c s => s.copyGone p c false 0) s
  ((s.setPort p {}).gaspDrop p).tidy

/-- FPn_SPEED returns to its level in reset (02_boundary_and_access.md R37). -/
def State.speedReset (s : State) (p : Nat) : State :=
  if p < s.cfg.fieldPorts ∧ s.fget (F.MAC_CTL.SPEED p) ≠ 2 then s.emit (.speed p 2) else s

/-- TRn_TX_EN and TRn_RATE return to their levels in reset (02 R37). DESIGN CHOICE, notes/assumptions/23.md. -/
def State.laneReset (s : State) (t : Nat) : State :=
  if t < s.cfg.trunks then
    let s := if s.flag (F.TRK_CFG.EN t) then s.emit (.trunkEn t false) else s
    if s.fget (F.TRK_CFG.MODE t) = 0 then s else s.emit (.rate t 0)
  else s

/-- Trunk `t` after its reset: only the level on TRn_PMA_LOCK stays; with trunk 0 the ring's state is IDLE again, so no protection
switch is active (06_trunk_overhead_gears_protection.md R187). -/
def State.clearTrunk (s : State) (t : Nat) : State :=
  let s := (s.dropPort (8 + t)).setTrunk t { pmaLock := (s.trunk t).pmaLock }
  let s := s.setSlots (KMap.clear (fun k => k / 4096 == t) s.slots)
  if t = 0 then (s.setNode {}).fset F.BLK_MODE.PROT 0 else s

/-- The receive queues and bound frames of an engine's threads are emptied (09_engine_threads.md R246). -/
def State.emptyThreads (s : State) (e : Nat) : State :=
  (forEach (List.range 8) (fun n s =>
    (s.setThr e n { s.thr e n with rxq := [], bound := none, disposed := false, trigs := [] }).fsets
      [(F.CE_THR_STAT.RXQ e n, 0), (F.CE_THR_STAT.BOUND e n, 0)]) s).tidy

/-- The threads of an engine as after reset. -/
def State.clearThreads (s : State) (e : Nat) : State :=
  let s := (s.emptyThreads e).setThreads (KMap.clear (fun k => k / 8 == e) s.threads)
  (s.setWheel (KMap.clear (fun k => k == e) s.wheel)).setSplices (s.splices.filter fun x => x.edit.thread / 8 != e)

/-- The generators and triggers of half `h` as after reset: each output keeps the level that `level` gives. -/
def State.clearCtu (s : State) (h : Nat) (level : Bool → Bool) : State :=
  let s := s.setGens (KMap.clear (fun n => s.cfg.halfOfGen n == h) s.gens)
  forEach ((List.range 32).filter fun n => s.cfg.halfOfTrig n == h) (fun n s =>
    s.driveTrig n { level := level (s.trig n).level }) s

/-- PPS_OUT falls where its pulse is half `h`'s, and no pulse of that half is due. -/
def State.ppsReset (s : State) (h : Nat) : State :=
  let s := if s.pps.drv = h then s.setPps { s.pps with due := false } else s
  if s.pps.high = true ∧ s.pps.half = h then (s.setPps { s.pps with high := false }).emit (.pps false) else s

/-- The parse pipeline of half `h` is empty. -/
def State.emptyPipe (s : State) (h : Nat) : State := (s.setPipe h {}).tidy

/-! ### Banks -/

/-- Frames that lie in the banks that `bad` names are lost: host frames end with NOT_TAKEN, deliveries are counted
(18_faults_and_selftest.md R420; 11_functions_and_queues.md R296). -/
def State.loseFrames (s : State) (bad : Nat → Bool) : State :=
  forEach (s.frames.filter fun f => f.2.parts.any fun p => bad (p.1 / 64)) (fun f s =>
    let s := forEach s.qps (fun q s =>
      let k := (q.2.rxs.filter fun r => r.fid == f.1).length
      if k = 0 then s else (s.setQp q.1 { s.qp q.1 with drops := (s.qp q.1).drops + k }).cntAdd (O.Q_CNT 5) k) s
    s.discard f.1) s

/-- Bank `b` loses its contents (13 R343): its frames, its words, the state of its granules but RETIRED, and with a part of it the
exact-match table of its half (08_rules_courses_forwarding.md R222, R223). -/
def State.loseBank (s : State) (b : Nat) : State :=
  let s := s.loseFrames (fun k => k == b)
  let s := if (bankGrans b).any fun g => (s.gran g).em then s.setEms (KMap.erase s.ems (s.cfg.halfOfBank b)) else s
  let s := forEach (bankGrans b) (fun g s => if (s.gran g).state = 3 then s else s.setGran g {}) s
  s.setMem { s.mem with
    words := KMap.clear (fun k => k / 32768 == b) s.mem.words
    moves := s.mem.moves.filter fun g => g / 64 != b
    move := if s.mem.move.any fun m => m.1 / 64 == b || m.2 / 64 == b then none else s.mem.move
    retests := s.mem.retests.filter fun r => r.1 / 1024 != b
    test := if s.mem.test.any fun r => r / 1024 == b then none else s.mem.test
    evac := if s.mem.evac == some b then none else s.mem.evac }

/-- TRn_TX_EN of every enabled trunk that is ON takes a level: DORMANT begins or ends (05_trunk_cells.md R149). -/
def State.driveTrunks (s : State) (level : Bool) : State :=
  forEach ((List.range s.cfg.trunks).filter fun t => s.flag (F.TRK_CFG.EN t) && s.domOn (16 + t)) (fun t s => s.emit (.trunkEn t level)) s

/-! ### A domain leaves ON and returns -/

/-- The class of a domain (R380). -/
inductive DomClass where
  | aon
  | spine
  | half (h : Nat)
  | cluster (k : Nat)
  | fp (p : Nat)
  | tr (t : Nat)
  | bank (b : Nat)
  | safe
deriving DecidableEq, Repr

/-- The class of domain `d`. -/
def domClass (d : Nat) : DomClass :=
  if d = 0 then .aon else if d = 1 then .spine else if d < 4 then .half (d - 2) else if d < 8 then .cluster (d - 4)
  else if d < 16 then .fp (d - 8) else if d < 18 then .tr (d - 16) else if d < 42 then .bank (d - 18) else .safe

/-- Whether the work under way in domain `d` has ended (R386, Drain). -/
def State.drained (s : State) (d : Nat) : Bool :=
  match domClass d with
  | .fp p => (s.port p).arriving.isNone && (s.port p).tx.isNone && (s.port p).held.isNone
  | .tr t => (s.port (8 + t)).arriving.isNone && (s.port (8 + t)).tx.isNone && (s.trunk t).txFrames.isEmpty
  | .safe => (List.range s.cfg.checkUnits).all fun n => !s.flag (F.CHK_STAT.STATE n) || s.flag (F.CHK_CFG.SRC n)
  | _ => true

/-- What the isolation of domain `d` discards (R386, At isolation). DESIGN CHOICE, notes/assumptions/21.md. -/
def State.isolate (s : State) (d : Nat) : State :=
  match domClass d with
  | .cluster k => forEach (s.clusterEngines k) (fun e s => s.emptyThreads e) s
  | .fp p =>
    let l := (s.port p).egress
    let s := s.setPort p { s.port p with egress := [] }
    (forEach l (fun c s => (s.cnt (O.CLS_UC_DROP p)).copyGone p c false 0) s).gaspDrop p
  | .tr t =>
    let s := if s.fget (F.TRK_STAT.DELIN t) = 0 then s else s.leaveSync t
    let s := if s.flag (F.TRK_CFG.EN t) = true ∧ s.mode ≠ 7 then s.emit (.trunkEn t false) else s
    s.gaspDrop (8 + t)
  | _ => s

/-- The spine's contents are lost: the block stays in its mode; the store and the block's own key are kept elsewhere
(R394; 13 R350; 17_parameter_dictionary.md R414). -/
def State.loseSpine (s : State) : State :=
  let m := s.mode
  let s := forEach (List.range 8) (fun k s => if s.flag (F.IRQ_OFFER.VALID k) then s.irqDrop k else s) s
  let s := s.clearKeys (fun k => s.lossDom k == 1)
  let s := ((s.setFuncs []).setQps []).setBinds []
  let s := ((s.setAdmin {}).setTaken []).setDmas []
  let s := ((s.setFlt {}).setReq none).setGload none
  let s := (s.setMem { key := s.mem.key, words := s.mem.words }).setDic { slotA := s.dic.slotA, slotB := s.dic.slotB }
  let s := ((s.setHalves []).setSettle false).setEms []
  let s := forEach s.halfList (fun h s => s.fset (modeCopy h) m) (s.fset F.BLK_MODE.MODE m)
  s.tidy

/-- The contents of half `h` are lost; its trigger outputs keep their levels (R24: parked, held by the always-on
island). -/
def State.loseHalf (s : State) (h : Nat) : State :=
  let lead := s.leader
  let s := ((s.clearCtu h id).ppsReset h).emptyPipe h
  let s := s.clearKeys (fun k => s.lossDom k == 2 + h)
  let s := (s.setTbs (KMap.erase s.tbs h)).setEms (KMap.erase s.ems h)
  let s := s.setGraph (KMap.clear (fun k => k / 10240 == h) s.graph)
  if h = lead then s.setCls {} else s

/-- The contents of domain `d` are lost (R381, OFF). DESIGN CHOICE, notes/assumptions/21.md. -/
def State.loseDomain (s : State) (d : Nat) : State :=
  match domClass d with
  | .aon => s
  | .spine => s.loseSpine
  | .half h => s.loseHalf h
  | .cluster k =>
    let s := forEach (s.clusterEngines k) (fun e s => s.clearThreads e) s
    let s := s.setMem { s.mem with others := s.mem.others.filter fun o => !(decide (o.1 = 1) && decide (s.cfg.clusterOf o.2.1 = k)) }
    let s := s.clearKeys (fun key => s.lossDom key == d)
    s.setEmem (KMap.clear (fun a => s.cfg.clusterOf (a / 0x40000) == k) s.emem)
  | .fp p => ((s.dropPort p).speedReset p).clearKeys (fun key => s.lossDom key == d)
  | .tr t => ((s.laneReset t).clearTrunk t).clearKeys (fun key => s.lossDom key == d)
  | .bank b => s.loseBank b
  | .safe => (s.setChks []).clearKeys (fun key => s.lossDom key == d)

/-- Domain `d` is ON again, from OFF when `off` holds (R388): NV fields take the spine copies (17 R400), the threads of a
cluster that held its contents are HALTED (09 R246), an enabled trunk drives its lane again. -/
def State.returnDomain (s : State) (d : Nat) (off : Bool) : State :=
  let s := if off = true ∧ s.dic.restore = false then s.loadNv (fun k => s.homeDom k == d) else s
  match domClass d with
  | .cluster k =>
    if off then s
    else forEach (s.clusterEngines k) (fun e s => forEach (List.range 8) (fun n s => s.returnThread e n) s) s
  | .tr t =>
    let s := s.fset (F.TRK_STAT.PMA_LOCK t) (b2n (s.trunk t).pmaLock)
    if s.flag (F.TRK_CFG.EN t) then s.trunkStart t else s
  | .half h => forEach ((List.range 32).filter fun n => s.cfg.halfOfTrig n == h) (fun n s => s.syncTrig n) s
  | _ => s

end Sys2Proof.Machine
end

