-- ==== Sys2Proof/Machine/Power.lean ====
section
/-!
DEFINITION. The power sequencer, the listener and the wake sources (16_power_and_wake.md R380 to R394).
-/
namespace Sys2Proof.Machine

/-- The parent of a domain (R380). -/
def parentDom (c : Cfg) (d : Nat) : Nat :=
  if d ≤ 1 then 0
  else if d ≤ 3 then 1
  else if d < 8 then 2 + c.halfOfCluster (d - 4)
  else if d < 16 then 2 + c.halfOfPort (d - 8)
  else if d < 18 then 2 + c.halfOfTrunk (d - 16)
  else if d < 42 then 2 + c.halfOfBank (d - 18)
  else 2

/-- The domains the configuration has, in ascending order. -/
def domList (c : Cfg) : List Nat := (List.range 43).filter (fun d => c.hasDomain d)

/-- The children of a domain (R380). -/
def childDoms (c : Cfg) (d : Nat) : List Nat :=
  (domList c).filter (fun k => decide (k ≠ 0) && decide (k ≠ d) && decide (parentDom c k = d))

/-- The class field of a domain in PWR_INRUSH_COST and PWR_WDLY: its lowest bit. -/
def classBit (d : Nat) : Nat :=
  if d = 1 then 0 else if d ≤ 3 then 4 else if d < 8 then 8 else if d < 16 then 12
  else if d < 18 then 16 else if d < 42 then 20 else 24

/-- Inrush units of a power-up of domain `d` (R389). -/
def State.domCost (s : State) (d : Nat) : Nat :=
  min (max 1 (getBits (s.rd O.PWR_INRUSH_COST) (classBit d) 4)) (s.fget F.PWR_INRUSH.BUDGET)

/-- The settle delay of domain `d`'s class (R388). -/
def State.domDelay (s : State) (d : Nat) : Nat := getBits (s.rd O.PWR_WDLY) (classBit d) 4

/-- Drives the switch signals of a domain (R381). -/
def State.drive (s : State) (d : Nat) (v : DomSt) : State :=
  let o := s.dom d
  let s := s.setDom d v
  if o.psw = v.psw ∧ o.iso = v.iso ∧ o.ret = v.ret then s else s.emit (.power d v.psw v.iso v.ret)

/-- A request of domain `d` has ended with a result. -/
def State.domDone (s : State) (d result : Nat) : State :=
  s.fsets [(F.PWR_DOM.PEND d, 0), (F.PWR_DOM.RESULT d, result)]

/-! ### Wake events -/

/-- Starts the power-up of a domain that is not ON; it then waits for its grant (R383). -/
def State.wantOn (s : State) (d : Nat) : State :=
  let s := s.fsets [(F.PWR_DOM.TARGET d, 0), (F.PWR_DOM.PEND d, 1)]
  match (s.dom d).phase with
  | .idle =>
    if s.domState d = 0 then s.domDone d 1
    else s.setDom d { s.dom d with phase := .wait false, waited := false }
  | .enter off step =>
    if step ≤ 5 ∧ s.flag (F.PWR_DOM.LISTEN d) = false then s.setDom d { s.dom d with phase := .unwind off step } else s
  | .listening _ => s.setDom d { s.dom d with phase := .listening 0 }
  | _ => s

/-- Every entry before its isolation unwinds; one past it completes, and a power-up follows (R387). The end of a listen power-up
has no abort points (R390). DESIGN CHOICE, notes/assumptions/21.md. -/
def State.unwindEntries (s : State) : State :=
  forEach (domList s.cfg) (fun d s =>
    match (s.dom d).phase with
    | .enter _ _ => if s.flag (F.PWR_DOM.LISTEN d) then s else s.wantOn d
    | _ => s) s

/-- The domains of PWR_WAKE_SET (R393). -/
def State.wakeSet (s : State) : List Nat :=
  (domList s.cfg).filter (fun d => decide (d ≠ 0) && bitOf (s.rd (O.PWR_WAKE_SET (d / 32))) (d % 32))

/-- PWR_LASTWAKE takes a wake event (R393), MULTI when VALID was 1. With `met` it comes in the same always-on cycle as the event
recorded last: the lower SRC, then the lower INDEX, of the two is recorded. -/
def State.noteWake (s : State) (src index filter : Nat) (met : Bool) : State :=
  let was := s.flag F.PWR_LASTWAKE.VALID
  let o := s.fget F.PWR_LASTWAKE.SRC
  let keep := met && was && decide (o < src ∨ (o = src ∧ s.fget F.PWR_LASTWAKE.INDEX ≤ index))
  let s := if was then s.fset F.PWR_LASTWAKE.MULTI 1 else s
  if keep then s
  else s.fsets [(F.PWR_LASTWAKE.VALID, 1), (F.PWR_LASTWAKE.SRC, src), (F.PWR_LASTWAKE.INDEX, index), (F.PWR_LASTWAKE.FILTER, filter)]

/-- A wake event (R393): recorded in PWR_LASTWAKE, source 16 latched; entries unwind; in DORMANT the wake set is powered up. -/
def State.wake (s : State) (src index filter : Nat) (met : Bool) : State :=
  let s := s.noteWake src index filter met
  let s := (s.raiseAon 16).unwindEntries
  if s.mode = 7 then
    let s := s.setDom 1 { s.dom 1 with woken := true }
    forEach s.wakeSet (fun d s => s.wantOn d) s
  else s

/-- Whether a wake source is enabled (R392). -/
def State.wakeEnabled (s : State) (src index filter : Nat) : Bool :=
  if src = 1 then s.flag F.PWR_WAKE_EN.LINK && bitOf (s.rd O.PWR_LISTEN) (16 + index)
  else if src = 2 then s.flag F.PWR_WAKE_EN.PATTERN && bitOf (s.rd (O.MAC_WAKE_CTL index)) filter
  else if src = 3 then s.flag F.PWR_WAKE_EN.FRAME && s.flag (F.MAC_WAKE_CTL.FRAME_EN index)
  else if src = 4 then bitOf (s.rd O.PWR_WAKE_EN) (16 + index)
  else decide (src = 5)

/-- WAKE_EVENT (R392, R393): a wake event of an enabled source; `met` tells that it coincides with the event before it. -/
def execWakeEvent (src index filter : Nat) (s : State) (met : Bool := false) : Host.Outcome State Fault Refusal :=
  if s.wakeEnabled src index filter then .next (s.wake src index filter met) else .next s

/-- The effect of a write to PWR_WAKE_REQ. -/
def State.wakeReq (data : Word) (s : State) : State := if bitOf data 0 then s.wake 5 0 0 false else s

/-- WAKE_REQUEST (R392): a write of 1 is a host wake request. -/
def execWakeRequest (fn : Nat) (data : Word) (s : State) : Host.Outcome State Fault Refusal :=
  .next (s.access fn O.PWR_WAKE_REQ fun _ s => s.wakeReq data)

/-! ### Requests (R384) -/

/-- Refuses a request: TARGET keeps its value. -/
def State.refuseTarget (s : State) (d result : Nat) : State := s.fset (F.PWR_DOM.RESULT d) result

/-- Carries out or holds a request for a domain that is ON and idle, or replaces one that has not started. -/
def State.takeTarget (s : State) (d t result : Nat) : State :=
  let s := s.fsets [(F.PWR_DOM.TARGET d, t), (F.PWR_DOM.PEND d, 1), (F.PWR_DOM.RESULT d, result)]
  match (s.dom d).phase with
  | .idle =>
    if t = 0 then s.wantOn d
    else if s.domState d = t then s.domDone d 1
    else if s.domState d = 0 then s
    else
      let s := if t = 2 then s.loseDomain d else s
      let v := s.dom d
      let s := s.drive d { v with ret := t == 1, wasOff := v.wasOff || t == 2 }
      (s.fset (F.PWR_DOM.STATE d) t).domDone d 1
  | .wait _ => if t = 0 then s else (s.setDom d { s.dom d with phase := .idle }).domDone d 1
  | .enter _ step => if t = 0 ∧ step ≤ 5 then s.wantOn d else s.setDom d { s.dom d with next := some t }
  | _ => if t = 0 ∧ s.flag (F.PWR_DOM.LISTEN d) = true then s.wantOn d else s.setDom d { s.dom d with next := some t }

/-- A request that was written while a transition of domain `d` ran applies when it has ended (R384). -/
def State.takeNext (s : State) (d : Nat) (next : Option Nat) : State :=
  match next with
  | some t => s.takeTarget d t 0
  | none => s

/-- A write of PWR_DOM_n.TARGET, judged row by row (R384). DESIGN CHOICE, notes/assumptions/21.md. -/
def State.targetWrite (d : Nat) (data : Word) (s : State) : State :=
  let t := getBits data 0 2
  if d = 0 then s
  else if t = 3 then s.deny
  else if t = 0 ∧ s.target (parentDom s.cfg d) ≠ 0 then s.refuseTarget d 3
  else if t ≠ 0 ∧ (childDoms s.cfg d).any (fun k => s.target k == 0) = true then s.refuseTarget d 4
  else if t ≠ 0 ∧ 18 ≤ d ∧ d < 42 ∧ s.bankLive (d - 18) ≠ 0 then s.takeTarget d t 5
  else if t ≠ 0 ∧ 4 ≤ d ∧ d < 8 ∧ s.clusterRun (d - 4) = true then s.refuseTarget d 6
  else if t ≠ 0 ∧ d ≤ 3 then s.takeTarget d t 7
  else if d = 42 ∧ t = 2 ∧ s.flag F.CHK_SEAL.SEALED = true then s.takeTarget d 1 0
  else s.takeTarget d t 0

/-- POWER_TARGET_WRITE (R383, R384). -/
def execPowerTargetWrite (fn d : Nat) (data : Word) (s : State) : Host.Outcome State Fault Refusal :=
  .next (s.access fn (O.PWR_DOM d) fun _ s => s.targetWrite d data)

/-! ### The sequencer -/

/-- Whether an entry of domain `d` may start (R382, R384): it is ON with another TARGET, none of its children is ON, live
banks, the spine and the halves wait for DORMANT. -/
def State.entryReady (s : State) (d : Nat) : Bool :=
  decide (d ≠ 0) && decide (s.target d ≠ 0) && decide (s.domState d = 0) &&
    (childDoms s.cfg d).all (fun k => decide (s.domState k = 1 ∨ s.domState k = 2)) &&
    (if 18 ≤ d ∧ d < 42 then decide (s.bankLive (d - 18) = 0 ∨ s.mode = 7) else true) &&
    (if d ≤ 3 then decide (s.mode = 7) else true)

/-- The state reached at the end of an entry: PSW_ACK is sampled 0 (R385 step 6). -/
def State.entryDone (s : State) (d : Nat) (off : Bool) : State :=
  let s := if off then s.loseDomain d else s
  let v := s.dom d
  let s := s.setDom d { v with phase := .idle, wasOff := off || (v.wasOff && s.flag (F.PWR_DOM.LISTEN d)) }
  let s := s.fsets [(F.PWR_DOM.STATE d, if off then 2 else 1), (F.PWR_DOM.LISTEN d, 0)]
  let s := (s.domDone d 1).raiseAon 19
  match v.next with
  | some t => (s.setDom d { s.dom d with next := none }).takeTarget d t 0
  | none => if s.target d = 0 then s.wantOn d else s

/-- One always-on cycle of an entry (R385, R386); a sealed SAFE goes to RET only (14_check_units_safety_island.md R358). DESIGN CHOICE, notes/assumptions/21.md. -/
def State.entryStep (s : State) (d : Nat) (off : Bool) (step : Nat) : State :=
  let v := s.dom d
  if step = 2 ∧ s.drained d = false then s
  else if step = 3 then
    let off := off && !(decide (d = 42) && s.flag F.CHK_SEAL.SEALED)
    s.drive d { v with ret := !off, phase := .enter off 4 }
  else if step = 5 then (s.isolate d).drive d { (s.isolate d).dom d with iso := true, phase := .enter off 6 }
  else if step = 6 then s.drive d { v with psw := false, phase := .enter off 7 }
  else if step = 7 then s.entryDone d off
  else s.setDom d { v with phase := .enter off (step + 1) }

/-- One always-on cycle of an unwinding entry: the steps done are undone in reverse (R387). -/
def State.unwindStep (s : State) (d : Nat) (off : Bool) (step : Nat) : State :=
  let v := s.dom d
  if step ≤ 1 then
    let s := s.drive d { v with ret := false, phase := .idle, next := none }
    let s := (s.fset (F.PWR_DOM.STATE d) 0).domDone d 2
    s.takeNext d v.next |>.fset F.PWR_STAT.ABORTED 1 |>.raiseAon 18
  else s.drive d { v with ret := if step ≤ 4 then false else v.ret, phase := .unwind off (step - 1) }

/-- A powered-up domain is ON: it leaves reset where it came from OFF (R388). DESIGN CHOICE, notes/assumptions/21.md. -/
def State.powerDone (s : State) (d : Nat) (listen : Bool) : State :=
  let v := s.dom d
  let s := s.drive d { v with iso := false, phase := if listen then .listening (max 1 (s.fget F.PWR_LISTEN.WINDOW)) else .idle }
  let s := s.returnDomain d v.wasOff
  if listen then (s.setPort (d - 8) { s.port (d - 8) with heard := [], heardErr := false }).fset (F.PWR_DOM.LISTEN d) 1
  else
    let s := (s.fset (F.PWR_DOM.STATE d) 0).domDone d 1
    (s.setDom d { s.dom d with next := none, wasOff := false }).takeNext d v.next

/-- Contents are restored and clocks start; the cost goes back to the budget (R388). -/
def State.powerRestore (s : State) (d : Nat) (listen : Bool) : State :=
  let v := s.dom d
  let s := s.drive d { v with ret := false, phase := .release listen, cost := 0 }
  s.fset F.PWR_STAT.USED (s.fget F.PWR_STAT.USED - v.cost)

/-- One always-on cycle of domain `d`. DESIGN CHOICE, notes/assumptions/21.md. -/
def State.domStep (s : State) (d : Nat) : State :=
  match (s.dom d).phase with
  | .idle =>
    if s.entryReady d then
      (s.setDom d { s.dom d with phase := .enter (s.target d == 2) 1 }).fsets
        [(F.PWR_DOM.STATE d, 3), (F.PWR_DOM.PEND d, 1)]
    else s
  | .enter off step => s.entryStep d off step
  | .unwind off step => s.unwindStep d off step
  | .wait _ => s
  | .ack left l => s.setDom d { s.dom d with phase := .ack (left - 1) l }
  | .settle left l => if left ≤ 1 then s.powerRestore d l else s.setDom d { s.dom d with phase := .settle (left - 1) l }
  | .release l => s.powerDone d l
  | .listening left =>
    if s.target d = 0 ∧ s.domState (parentDom s.cfg d) = 0 then
      ((s.setDom d { s.dom d with phase := .idle }).fsets [(F.PWR_DOM.STATE d, 0), (F.PWR_DOM.LISTEN d, 0)]).domDone d 1
    else s.setDom d { s.dom d with phase := .listening (left - 1) }

/-- Grants a power-up in this cycle: PSW_EN rises and the cost is taken (R388). -/
def State.grant (s : State) (d : Nat) (listen : Bool) : State :=
  let c := s.domCost d
  let v := s.dom d
  let s := s.drive d { v with psw := true, phase := .ack (s.fget F.PWR_WDLY.ACK_LIM) listen, cost := c }
  s.fsets [(F.PWR_STAT.USED, s.fget F.PWR_STAT.USED + c), (F.PWR_DOM.STATE d, 3)]

/-- A power-up waits for the budget: INRUSH_WAIT and source 20, once (R389). -/
def State.inrushWait (s : State) (d : Nat) : State :=
  if (s.dom d).waited then s
  else ((s.setDom d { s.dom d with waited := true }).fset F.PWR_STAT.INRUSH_WAIT 1).raiseAon 20

/-- Grants waiting power-ups in ascending domain number while USED at the start of the cycle and the costs granted in it stay
within the budget; a waiting request is never overtaken (R383, R389). No grant during a gasp (R395). -/
def grantLoop (s0 : State) : List Nat → Nat → Bool → State → State
  | [], _, _, s => s
  | d :: ds, used, blocked, s =>
    match (s0.dom d).phase, (s.dom d).phase with
    | .wait l0, .wait l =>
      if s0.domState (parentDom s.cfg d) = 0 ∨ l0 = true then
        if blocked = false ∧ used + s.domCost d ≤ s.fget F.PWR_INRUSH.BUDGET then
          grantLoop s0 ds (used + s.domCost d) false (s.grant d l)
        else grantLoop s0 ds used true (s.inrushWait d)
      else grantLoop s0 ds used blocked s
    | _, _ => grantLoop s0 ds used blocked s

/-- The block leaves DORMANT for BRINGUP when, after a wake event, every domain of the wake set is ON, and RESET once SPINE is ON (R26, R393). -/
def State.wakeUp (s : State) : State :=
  if s.mode = 0 ∧ s.rst.blk = false ∧ s.domOn 1 = true then s.setMode 1 else
  if s.mode = 7 ∧ (s.dom 1).woken = true ∧ s.wakeSet.all (fun d => decide (s.domState d = 0)) = true then
    let s := forEach s.halfList (fun h s => s.tbRestart h) s
    let s := s.fsets [(F.BLK_MODE.BIST_DONE, 0), (F.BLK_MODE.BIST_FAIL, 0)]
    (s.setMode 1).driveTrunks true
  else s

/-- SEQUENCER_STEP (R383 to R389): transitions advance and entries start in descending domain number, then power-ups are
granted in ascending number. -/
def execSequencerStep (s : State) : Host.Outcome State Fault Refusal :=
  let s1 := forEach (domList s.cfg).reverse (fun d s => s.domStep d) s
  let s2 := if s.gasp.isSome then s1 else grantLoop s (domList s.cfg) (s.fget F.PWR_STAT.USED) false s1
  .next s2.wakeUp

/-- PSW_ACK_RISE (R388): PSW_ACK is sampled 1 during a power-up. -/
def execPswAckRise (d : Nat) (s : State) : Host.Outcome State Fault Refusal :=
  match (s.dom d).phase with
  | .ack _ l =>
    if s.domDelay d = 0 then .next (s.powerRestore d l)
    else .next (s.setDom d { s.dom d with phase := .settle (s.domDelay d) l })
  | _ => .next s

/-- PSW_ACK_TIMEOUT (R388): PSW_ACK has not been sampled 1 within ACK_LIM: the power-up is aborted and, while the spine with the
log is ON, logged. DESIGN CHOICE, notes/assumptions/21.md. -/
def execPswAckTimeout (d : Nat) (s : State) : Host.Outcome State Fault Refusal :=
  match (s.dom d).phase with
  | .ack left _ =>
    if left = 0 then
      let v := s.dom d
      let s := s.fset F.PWR_STAT.USED (s.fget F.PWR_STAT.USED - v.cost)
      let s := s.drive d { v with psw := false, phase := .idle, cost := 0, next := none }
      let s := s.fset (F.PWR_DOM.STATE d) (if v.ret then 1 else 2)
      let s := ((s.domDone d 8).fset F.PWR_STAT.ACK_TO 1).takeNext d v.next
      .next (if s.domOn 1 then s.logFault 0x04 d 0 (.e 4) else s)
    else .next s
  | _ => .next s

/-! ### Listening (R390) -/

/-- Whether a wake filter or the wake frame of port `p` is enabled. -/
def State.wakeFilters (s : State) (p : Nat) : Bool :=
  decide (s.fget (F.MAC_WAKE_CTL.FILT_EN p) ≠ 0) || s.flag (F.MAC_WAKE_CTL.FRAME_EN p)

/-- LISTEN_SAMPLE (R390): the listener samples FPp_SIGDET of a port that is RET or OFF. -/
def execListenSample (p : Nat) (energy : Bool) (s : State) : Host.Outcome State Fault Refusal :=
  let d := 8 + p
  let st := s.domState d
  if energy = true ∧ bitOf (s.rd O.PWR_LISTEN) (16 + p) = true ∧ s.cfg.hasDomain d = true ∧ (st = 1 ∨ st = 2) then
    if s.flag F.PWR_WAKE_EN.LINK then .next (s.wake 1 p 0 false)
    else if st = 1 ∧ s.wakeFilters p = true ∧ (s.dom d).phase = .idle then
      .next (s.setDom d { s.dom d with phase := .wait true, waited := false })
    else .next s
  else .next s

/-- LISTEN_WINDOW_END (R390): without a match the port returns to RET; a port that a wake has turned ON stays ON. -/
def execListenWindowEnd (p : Nat) (s : State) : Host.Outcome State Fault Refusal :=
  let d := 8 + p
  match (s.dom d).phase with
  | .listening left =>
    if left = 0 ∧ s.target d ≠ 0 then .next (s.setDom d { s.dom d with phase := .enter false 1 })
    else .next s
  | _ => .next s

end Sys2Proof.Machine
end

