-- ==== Sys2Proof/Machine/Mac.lean ====
section
/-!
DEFINITION. The field port MACs, and the MAC of a trunk in BASE-R mode: receiving, flow control, preemption, gate lists,
cut-through, sending, and edits in flight (04_field_ports.md R98 to R130).
-/
namespace Sys2Proof.Machine

/-- Offset in the window of a MAC register of port `p` (05_trunk_cells.md R133 for a trunk's). -/
def macOff (p r : Nat) : Nat := if p < 8 then 0x010000 + 0x1000 * p + r else 0x022000 + 0x4000 * (p - 8) + r

/-! ### Speed and duplex (R99) -/

/-- SMD-V is sent, where the port's transmit clock runs (R108, R41). -/
def State.sendVerify (s : State) (p : Nat) : State := if s.stopped p true then s else s.emit (.verify p)

/-- Bringing preemption up to date after a change of MAC_PREEMPT, SPEED or DUPLEX (R108): verify starts, or preemption is
active at once with VERIFY_DIS, or it is off. -/
def State.preemptUpdate (s : State) (p : Nat) : State :=
  let on := decide (p < 8) && s.flag (F.MAC_PREEMPT.EN p) && s.flag (F.MAC_CTL.DUPLEX p) && decide (s.fget (F.MAC_CTL.SPEED p) ≠ 0)
  if on = false then s.fsets [(F.MAC_STAT.VERIFY p, 0), (F.MAC_STAT.PREEMPT_ACTIVE p, 0)]
  else if s.flag (F.MAC_PREEMPT.VERIFY_DIS p) then s.fsets [(F.MAC_STAT.VERIFY p, 0), (F.MAC_STAT.PREEMPT_ACTIVE p, 1)]
  else if s.fget (F.MAC_STAT.VERIFY p) = 0 then
    let s := s.fsets [(F.MAC_STAT.VERIFY p, 1), (F.MAC_STAT.PREEMPT_ACTIVE p, 0)]
    (s.setPort p { s.port p with tries := 1 }).sendVerify p
  else s

/-- A write of MAC_CTL_p (R99; 05_trunk_cells.md R133 for a trunk's MAC). -/
def State.macCtlWrite (p : Nat) (data : Word) (s : State) : State :=
  let sp := s.fget (F.MAC_CTL.SPEED p)
  let du := s.fget (F.MAC_CTL.DUPLEX p)
  let keep := setBits (setBits data 4 2 sp) 8 1 du
  if 8 ≤ p then s.writeFields (O.MAC_CTL p) keep
  else
    let sp' := getBits data 4 2
    let du' := getBits data 8 1
    let on := s.flag (F.MAC_CTL.EN_RX p) || s.flag (F.MAC_CTL.EN_TX p)
    if du' = 0 ∧ 2 ≤ sp' ∧ (on = false ∨ (sp' = sp ∧ du' = du)) then (s.fset (F.MAC_STAT.CFG_ERR p) 1).raisePort p 0
    else if on = true ∧ (sp' ≠ sp ∨ du' ≠ du) then
      (s.writeFields (O.MAC_CTL p) keep).setFlag (F.MAC_STAT.CFG_ERR p) (srcPort s.cfg p)
    else
      let s := s.writeFields (O.MAC_CTL p) data
      let s := if sp' = sp then s else s.emit (.speed p sp')
      let s := if du' = 0 then s.setPort p { s.port p with asked := [], fcDue := [] } else s
      (s.preemptUpdate p).gearOkCheck

/-- MAC_CTL_WRITE (R99). -/
def execMacCtlWrite (fn p : Nat) (data : Word) (s : State) : Host.Outcome State Fault Refusal :=
  .next (s.access fn (macOff p 0) fun _ s => s.macCtlWrite p data)

/-! ### Flow control received (R106) -/

/-- A PAUSE or PFC frame with its class enables and quanta (R106): counted, and acted on in full duplex. -/
def State.pauseReceive (s : State) (p : Nat) (pfc : Bool) (enable : Nat) (quanta : List Nat) : State :=
  let s := s.macCnt p (if pfc then 10 else 9)
  let pfcEn := s.flag (F.MAC_FC.PFC_EN p)
  if s.flag (F.MAC_CTL.DUPLEX p) = false then s
  else if pfc = true ∧ pfcEn = true then
    let e := Nat.land enable (s.fget (F.MAC_FC.PFC_PRI p))
    forEach ((List.range 8).filter fun c => e / 2 ^ c % 2 == 1) (fun c s =>
      s.fset ⟨O.MAC_FC_STAT p, c, 1⟩ (b2n (decide (quanta.getD c 0 ≠ 0)))) s
  else if pfc = false ∧ pfcEn = false ∧ s.flag (F.MAC_FC.PAUSE_EN p) = true then
    s.fset (F.MAC_FC_STAT.PAUSED p) (b2n (decide (quanta.getD 0 0 ≠ 0)))
  else s

/-- The size bucket of a frame of 64 bytes to MAX_LEN (R129). -/
def bucket (n : Nat) : Nat :=
  if n ≤ 64 then 14 else if n ≤ 127 then 15 else if n ≤ 255 then 16 else if n ≤ 511 then 17
  else if n ≤ 1023 then 18 else if n ≤ 1518 then 19 else 20

/-- Counts a good frame of R101. -/
def State.countGood (s : State) (p n : Nat) (dst : List Byte) : State :=
  let s := ((s.macCnt p 1).cntAdd (O.MAC_CNT p 0) n).macCnt p (bucket n)
  s.macCnt p (if dst = List.replicate 6 0xFF then 4 else if (byteAt dst 0).toNat % 2 = 1 then 3 else 2)

/-- Whether a port receives frames now: enabled, its clock running (R100, R41). -/
def State.receives (s : State) (p : Nat) : Bool := s.isMac p && s.portUp p && !s.stopped p false && s.flag (F.MAC_CTL.EN_RX p)

/-- PAUSE_FRAME_RECEIVE (R106): a good PAUSE or PFC frame of 64 bytes is consumed. -/
def execPauseFrameReceive (p : Nat) (pfc : Bool) (enable : Nat) (quanta : List Nat) (s : State) :
    Host.Outcome State Fault Refusal :=
  if s.receives p = true ∧ (s.port p).arriving = none then
    .next ((s.countGood p 64 [0x01, 0x80, 0xC2, 0x00, 0x00, 0x01]).pauseReceive p pfc enable quanta)
  else .next s

/-- PAUSE_TIMER_EXPIRY (R106): the PFC timer of class `cls`, or with 8 the PAUSE timer. -/
def execPauseTimerExpiry (p cls : Nat) (s : State) : Host.Outcome State Fault Refusal :=
  if cls < 8 then .next (s.fset ⟨O.MAC_FC_STAT p, cls, 1⟩ 0)
  else .next (s.fset (F.MAC_FC_STAT.PAUSED p) 0)

/-- PAUSE_REPEAT (R107): while the port sends flow control of this kind (R98) and the occupancy stays above XON, the frame is
due again. -/
def execPauseRepeat (p cls : Nat) (s : State) : Host.Outcome State Fault Refusal :=
  let v := s.port p
  if cls ∈ v.asked ∧ cls ∈ s.fcKinds p ∧ 256 * s.fget (F.MAC_FC_THR.XON p) < s.occupancy p cls then
    .next (s.setPort p { v with fcDue := v.fcDue ++ [(cls, s.fget (F.MAC_FC.TX_QUANTA p))] })
  else .next s

/-! ### Receive acceptance (R101 to R105) -/

/-- The station address of port `p` (MAC_ADDR_p_0). -/
def State.stationAddr (s : State) (p : Nat) : List Byte := natBe 6 (s.rd64 (O.MAC_ADDR p 0) % 2 ^ 48)

/-- Whether a destination address has a station match (R103, R104). -/
def State.stationMatch (s : State) (p : Nat) (dst : List Byte) : Bool :=
  let idx := crc32 dst % 512
  s.flag (F.MAC_FILT.PROMISC p) ||
    (decide (dst = List.replicate 6 0xFF) && s.flag (F.MAC_FILT.ACCEPT_BC p)) ||
    ((List.range 32).any fun n =>
      let a := s.rd64 (O.MAC_ADDR p n)
      decide (2 ^ 63 ≤ a) && decide (natBe 6 (a % 2 ^ 48) = dst)) ||
    (decide ((byteAt dst 0).toNat % 2 = 1) && s.flag (F.MAC_FILT.HASH_EN p) && bitOf (s.rd (O.MAC_HASH p (idx / 32))) (idx % 32))

/-- What R105 finds in a frame: tagged, VID used, priority used, and whether the filter discards it. -/
def State.vlanJudge (s : State) (p : Nat) (bs : List Byte) : Bool × Nat × Nat × Bool :=
  let tagged := decide (beNat (slice bs 12 2) = s.fget (F.MAC_VLAN_CTL.TPID p))
  let tci := beNat (slice bs 14 2)
  let vid0 := tci % 4096
  let pvid := s.fget (F.MAC_VLAN_CTL.PVID p)
  let vid := if tagged = true ∧ vid0 ≠ 0 then vid0 else pvid
  let pri := if tagged then tci / 2 ^ 13 else s.fget (F.MAC_VLAN_CTL.DEF_PCP p)
  let allowed := bitOf (s.rd (O.MAC_VLAN_MAP p (vid / 32))) (vid % 32)
  (tagged, vid, pri, (tagged && decide (vid0 = 4095)) || (s.flag (F.MAC_VLAN_CTL.FILT_EN p) && !allowed))

/-! ### Wake matches (R118 to R120) -/

/-- The bytes selected by wake filter `n`, if the frame reaches them all (R118). -/
def State.wakeBytes (s : State) (p n : Nat) (bs : List Byte) : Option (List Byte) :=
  let sel := (List.range 128).filter fun b => bitOf (s.rd (O.MAC_WAKE_MASK p n + 4 * (b / 32))) (b % 32)
  if sel.all (fun b => decide (b < bs.length)) then some (sel.map fun b => byteAt bs b) else none

/-- Whether wake-pattern filter `n` matches a good frame (R118). -/
def State.wakeHit (s : State) (p n : Nat) (bs : List Byte) : Bool :=
  bitOf (s.rd (O.MAC_WAKE_CTL p)) n &&
    (match s.wakeBytes p n bs with
     | some l => decide (crc16 l = s.fget (F.MAC_WAKE_CRC.CRC p n))
     | none => false)

/-- Whether a good frame with a station match is a wake frame (R119). PRESUMED, notes/assumptions/55.md. -/
def State.wakeFrame (s : State) (p : Nat) (bs : List Byte) : Bool :=
  let a := s.stationAddr p
  let pat := List.replicate 6 0xFF ++ (List.replicate 16 a).flatten
  let data := (bs.take (bs.length - 4)).drop 14
  s.flag (F.MAC_WAKE_CTL.FRAME_EN p) && s.stationMatch p (bs.take 6) &&
    (List.range data.length).any fun i => slice data i 102 == pat

/-- The matches of a frame: those of the wake patterns as (2, filter), with a good FCS (R118), and with `pass` that of the wake frame
as (3, 0), of a frame that passes R101 (R119, R103). -/
def State.wakeHits (s : State) (p : Nat) (bs : List Byte) (pass : Bool) : List (Nat × Nat) :=
  ((List.range 8).filter fun n => s.wakeHit p n bs).map (fun n => (2, n)) ++ (if pass = true ∧ s.wakeFrame p bs = true then [(3, 0)] else [])

/-- A match: MAC_WAKE_STAT and the port's wake source (R120). -/
def State.wakeNote (s : State) (p : Nat) (m : Nat × Nat) : State :=
  if m.1 = 2 then (s.fset ⟨O.MAC_WAKE_STAT p, m.2, 1⟩ 1).raiseAon (srcPort s.cfg p + 7 + m.2)
  else (s.fset (F.MAC_WAKE_STAT.FRAME p) 1).raiseAon (srcPort s.cfg p + 6)

/-- The matches of a frame at port `p`, and the wake events of those that are enabled, in one always-on cycle (R120, 16 R392,
R393). -/
def State.wakeMatch (s : State) (p : Nat) (bs : List Byte) (pass : Bool) : State :=
  if 8 ≤ p then s
  else
    let l := s.wakeHits p bs pass
    let s := forEach l (fun m s => s.wakeNote p m) s
    let on := l.filter fun m => s.wakeEnabled m.1 p m.2
    forEach on (fun m s => s.wake m.1 p m.2 (decide (on.head? ≠ some m))) s

/-! ### Receiving -/

/-- Reads a PAUSE or PFC frame: whether it is PFC, the enables and the quanta (R106; IEEE 802.3 Annex 31B, 802.1Qbb).
PRESUMED, notes/assumptions/55.md. -/
def readPause (bs : List Byte) : Option (Bool × Nat × List Nat) :=
  let op := beNat (slice bs 14 2)
  if bs.take 6 = [0x01, 0x80, 0xC2, 0x00, 0x00, 0x01] ∧ beNat (slice bs 12 2) = 0x8808 then
    if op = 0x0001 then some (false, 0, [beNat (slice bs 16 2)])
    else if op = 0x0101 then some (true, beNat (slice bs 16 2), (List.range 8).map fun i => beNat (slice bs (18 + 2 * i) 2))
    else none
  else none

/-- Brings a frame's tag, priority and station match up to date with the bytes received, and marks it when a filter
rejects it (R103, R105, R190) or when its head shows a PAUSE or PFC frame, which the port consumes and never forwards
(R106). -/
def State.judgeHead (s : State) (p fid : Nat) (last : Bool) : State :=
  let f := s.frame fid
  let bs := f.received
  let dst := bs.take 6
  let st := decide (6 ≤ bs.length) && s.stationMatch p dst
  let v := s.vlanJudge p bs
  let seenV := last || decide (16 ≤ bs.length)
  let ctl := decide (16 ≤ bs.length) && (readPause bs).isSome
  let drop := (decide (6 ≤ bs.length) && !st && !s.flag (F.MAC_FILT.FWD_ALL p)) || (seenV && v.2.2.2) || ctl
  let status := if st then Nat.lor f.status 4 else f.status
  let s := s.setFrame fid { f with tagged := v.1, vid := v.2.1, pri := v.2.2.1, status := status, drop := drop }
  if drop then s.unparse fid else s

/-- Adds received bytes to what every transmission in cut-through and every frame window holds of frame `fid`
(R113; 09_engine_threads.md R254, R255). -/
def State.spreadBytes (s : State) (fid had : Nat) (new : List Byte) : State :=
  let ext (c : Copy) : Copy := if c.kind = 0 ∧ c.fid = fid ∧ c.cut = true then { c with bytes := c.bytes ++ new } else c
  let s := forEach s.ports (fun p s => s.setPort p.1 { s.port p.1 with tx := p.2.tx.map ext, held := p.2.held.map ext }) s
  forEach (s.threads.filter fun t => t.2.bound == some fid) (fun t s =>
    s.eput (t.1 / 8) (0x30000 + 0x800 * (t.1 % 8) + had) (new.take (2048 - had))) s

/-- The end of a received frame is judged by R101, then filtered (R103, R105), with the reassembly (R108), the wake matches
(R118) and the status bits of R130. `ovr` tells that it was cut at MAX_LEN, `fcs` that the received FCS is good, `err` that
FPn_RX_ER came with it; `asm` 1 reassembled from fragments, 2 with a reassembly error. -/
def State.judgeEnd (s : State) (p fid : Nat) (ovr fcs err : Bool) (asm : Nat) : State :=
  let f := s.frame fid
  let bs := f.received
  let n := bs.length
  let s := if asm = 1 then s.macCnt p 29 else if asm = 2 then s.macCnt p 30 else s
  let good := fcs && !err
  let status := Nat.lor f.status ((if fcs = true ∨ asm = 2 then 0 else 1) + (if asm = 0 then 0 else 8))
  let bad (s : State) : State :=
    let s := s.setFrame fid { f with done := true, bad := true, status := Nat.lor (s.frame fid).status status, excess := [] }
    (s.checkSums fid).discard fid
  let pass := !ovr && decide (asm ≠ 2) && decide (64 ≤ n) && good
  let s := if fcs = true ∧ asm ≠ 2 then s.wakeMatch p bs pass else s
  if ovr then bad (s.macCnt p 8)
  else if asm = 2 then bad s
  else if n < 64 then bad (s.macCnt p (if fcs then 6 else 7))
  else if good = false then bad ((s.macCnt p 5).macCnt p (bucket n))
  else
    let s := s.countGood p n (bs.take 6)
    match readPause bs with
    | some (pfc, en, q) => ((s.setFrame fid { f with done := true, drop := true }).pauseReceive p pfc en q).discard fid
    | none =>
      let s := s.setFrame fid { f with done := true, status := status }
      if f.drop then
        let fwd := f.status / 4 % 2 = 1 ∨ s.flag (F.MAC_FILT.FWD_ALL p) = true
        (s.macCnt p (if fwd then 12 else 11)).discard fid
      else
        let s := s.checkSums fid
        let s := s.setFrame fid { s.frame fid with raw := none }
        if f.parse.stage = 3 then ((s.judgeLens fid).placeFrame fid 13).tidy else s.tidy

/-- Some bytes of a frame arrive at MAC `p`; at its end it is judged. -/
def State.frameIn (s : State) (p : Nat) (bytes : List Byte) (eof rxErr : Bool) (asm ph : Nat) : State :=
  let fresh := (s.port p).arriving.isNone
  let h := s.cfg.halfOfAnyPort p
  let r :=
    match (s.port p).arriving with
    | some fid => (fid, s)
    | none =>
      let x := s.newFrame { src := .port p, half := h, stamp := s.rxStamp p ph, course := 16 }
      (x.1, (x.2.setPort p { x.2.port p with arriving := some x.1 }).fset (F.MAC_STAT.RX_BUSY p) 1)
  let fid := r.1
  let s := r.2
  let f := s.frame fid
  let had := f.received.length
  let new := bytes.take (s.maxLen p - had)
  let excess := f.excess ++ bytes.drop (s.maxLen p - had)
  let ovr := !excess.isEmpty
  let err := f.bad || rxErr
  let s := s.setFrame fid { f with bytes := if f.void then f.bytes else f.bytes ++ new
                                   raw := if f.void then some (f.received ++ new) else f.raw.map (· ++ new)
                                   excess := excess, bad := err
                                   status := if ovr then Nat.lor f.status 2 else f.status }
  let s := if f.void then s else s.spreadBytes fid f.bytes.length new
  let s := if 16 ≤ had then s else s.judgeHead p fid eof
  let s := if fresh = true ∧ (s.frame fid).drop = false then s.offer fid else s
  if eof then
    let s := (s.setPort p { s.port p with arriving := none }).fset (F.MAC_STAT.RX_BUSY p) 0
    s.judgeEnd p fid ovr (fcsGood ((s.frame fid).received ++ excess)) err asm
  else s

/-- A listening port hears some bytes of a frame; the whole frame is judged for a wake match and nothing is kept (R118 to R120;
16_power_and_wake.md R390). -/
def State.listenFrame (s : State) (p : Nat) (bytes : List Byte) (eof rxErr : Bool) : State :=
  let v := s.port p
  let bs := v.heard ++ bytes
  let err := v.heardErr || rxErr
  if eof then
    let s := s.setPort p { v with heard := [], heardErr := false }
    let pass := !err && decide (64 ≤ bs.length ∧ bs.length ≤ s.maxLen p)
    if fcsGood bs then
      let woke := (s.wakeHits p bs pass).any fun m => s.wakeEnabled m.1 p m.2
      let s := s.wakeMatch p bs pass
      if woke then s.wantOn (portDom p) else s
    else s
  else s.setPort p { v with heard := bs, heardErr := err }

/-- Whether port `p` is in a listen window. -/
def State.listening (s : State) (p : Nat) : Bool :=
  decide (p < 8) && (match (s.dom (portDom p)).phase with
    | .listening _ => true
    | _ => false)

/-- FRAME_RECEIVE (R100, R101, R103, R105, R114, R118): `bytes` of a frame arrive; `eof` with its end; `rxErr` FPn_RX_ER;
`asm` 1 reassembled from fragments, 2 with a reassembly error; `ph` the eighth of a tick of the SFD. -/
def execFrameReceive (p : Nat) (bytes : List Byte) (eof rxErr : Bool) (asm ph : Nat) (s : State) :
    Host.Outcome State Fault Refusal :=
  if s.listening p = true ∧ s.stopped p false = false then .next (s.listenFrame p bytes eof rxErr)
  else if s.isMac p = true ∧ s.portUp p = true ∧ s.stopped p false = false ∧ ((s.port p).arriving.isSome = true ∨
      (s.flag (F.MAC_CTL.EN_RX p) = true ∧ s.quiesced (portDom p) = false)) then
    .next (s.frameIn p bytes eof rxErr (if p < 8 then asm else 0) ph)
  else .next s

/-! ### Gate lists (R110 to R112) -/

/-- The gear whose list governs port `p` (R110). -/
def State.gearOf (s : State) (p : Nat) : Nat :=
  let t := s.gclTrunk p
  if s.cellTrunk t then s.gearOfHalf (s.cfg.halfOfTrunk t) else 0

/-- The list from entry `i` on: end in ns from the superframe instant, gates. -/
def State.gateList (s : State) (p g start i : Nat) : Nat → List (Nat × Nat)
  | 0 => []
  | fuel + 1 =>
    let gates := s.fget (F.MAC_GCL.GATES p g i)
    if s.flag (F.MAC_GCL.LAST p g i) = true ∨ i = 31 then [(10000, gates)]
    else
      let e := start + max 16 (s.fget (F.MAC_GCL.INTERVAL p g i))
      if 10000 ≤ e then [(10000, gates)] else (e, gates) :: s.gateList p g e (i + 1) fuel

/-- The instant at which the first entry of a list closes class `c`, if one does. -/
def gateCloses (l : List (Nat × Nat)) (start c : Nat) : Option Nat :=
  match l with
  | [] => none
  | (e, g) :: r => if g / 2 ^ c % 2 = 0 then some start else gateCloses r e c

/-- Nanoseconds for which the gate of class `c` stays open, from now on; `none` for ever. -/
def State.openLeft (s : State) (p c : Nat) : Option Nat :=
  let now := timeT (s.tb (s.cfg.halfOfAnyPort p)).t % 10000
  let l := s.gateList p (s.fget (F.MAC_GCL_STAT.GEAR p)) 0 0 32
  match gateCloses (l.drop (s.fget (F.MAC_GCL_STAT.ENTRY p))) now c with
  | some x => some (x - now)
  | none => (gateCloses l 0 c).map fun x => 10000 - now + x

/-- Tenths of a nanosecond per byte at port `p` (R98; 05_trunk_cells.md R131). DEDUCED, notes/assumptions/32.md. -/
def State.byteTime (s : State) (p : Nat) : Nat :=
  if 8 ≤ p then (if s.fget (F.TRK_CFG.MODE (p - 8)) = 2 then 8 else 4)
  else match s.fget (F.MAC_CTL.SPEED p) with
    | 0 => 8000
    | 1 => 800
    | 2 => 80
    | _ => 32

/-- Whether gate lists are in use at port `p` (R110; none at a trunk, 05 R133). -/
def State.gated (s : State) (p : Nat) : Bool := decide (p < 8) && s.flag (F.MAC_GCL_CTL.EN p)

/-- Whether the gates let a frame of class `c` and `n` bytes start now (R111): its gate stays open until its last byte,
preamble and SFD included, has been sent. DEDUCED, notes/assumptions/32.md. -/
def State.gateOk (s : State) (p c n : Nat) : Bool :=
  !s.gated p ||
    (match s.openLeft p c with
     | some x => decide (s.byteTime p * (n + 8) ≤ 10 * x)
     | none => true)

/-- Entry `i` of the list in effect takes effect: hold, and OVERRUN when it closes the gate of a frame being sent
(R110, R111). -/
def State.gateEnter (s : State) (p i : Nat) : State :=
  let g := s.fget (F.MAC_GCL_STAT.GEAR p)
  let s := s.fset (F.MAC_GCL_STAT.ENTRY p) i
  let op := s.fget (F.MAC_GCL.OP p g i)
  let v := s.port p
  let s := s.setPort p { v with hold := if op = 1 then true else if op = 2 then false else v.hold }
  match v.tx with
  | some c =>
    if c.kind = 0 ∧ s.fget (F.MAC_GCL.GATES p g i) / 2 ^ c.cls % 2 = 0 then
      (s.fset (F.MAC_GCL_STAT.OVERRUN p) 1).raisePort p 5
    else s
  | none => s

/-- The list restarts at entry 0 on a superframe instant, with the list of the current gear (R110, R112). -/
def State.gateRestart (s : State) (p : Nat) : State :=
  if s.gated p then (s.fset (F.MAC_GCL_STAT.GEAR p) (s.gearOf p)).gateEnter p 0 else s

/-- GATE_ENTRY_EXPIRY (R110): the next entry takes effect; the one that holds its state gives way to entry 0 at the next
superframe instant. -/
def execGateEntryExpiry (p : Nat) (s : State) : Host.Outcome State Fault Refusal :=
  if s.gated p = true ∧ s.portUp p = true then
    let i := s.fget (F.MAC_GCL_STAT.ENTRY p)
    if s.flag (F.MAC_GCL.LAST p (s.fget (F.MAC_GCL_STAT.GEAR p)) i) = true ∨ i = 31 then .next (s.gateRestart p)
    else .next (s.gateEnter p (i + 1))
  else .next s

/-- A write of MAC_GCL_CTL_p (R112): clearing VALID of the gear in effect or of the target of an announced shift is
ignored. EN set between two superframe instants shows entry 0 at once and applies its OP from the next instant on:
DESIGN CHOICE, notes/assumptions/74.md. -/
def State.gclCtlWrite (p : Nat) (data : Word) (s : State) : State :=
  let old := s.fget (F.MAC_GCL_CTL.VALID p)
  let held (g : Nat) : Bool := decide (g = s.gearOf p) || (decide (s.fget F.TRK_SHIFT.PHASE ≠ 0) && decide (g = s.node.shTarget))
  let keep := (List.range 8).foldl (fun a g => if held g = true ∧ old / 2 ^ g % 2 = 1 then a + 2 ^ g else a) 0
  let was := s.gated p
  let s := s.writeFields (O.MAC_GCL_CTL p) (setBits data 16 8 (Nat.lor (getBits data 16 8) keep))
  let s := s.gearOkCheck
  if s.gated p then (if was then s else s.fsets [(F.MAC_GCL_STAT.GEAR p, s.gearOf p), (F.MAC_GCL_STAT.ENTRY p, 0)])
  else s.setPort p { s.port p with hold := false }

/-- A write of a gate list entry word (R112): an error for a gear whose list is VALID. -/
def State.gclEntryWrite (p g key : Nat) (data : Word) (s : State) : State :=
  if s.fget (F.MAC_GCL_CTL.VALID p) / 2 ^ g % 2 = 1 then s.deny else s.writeFields key data

/-- GATE_LIST_WRITE (R112): of MAC_GCL_CTL_p (`ctl`), or of the low or high word of entry `i` of gear `g`. -/
def execGateListWrite (fn p : Nat) (ctl : Bool) (g i : Nat) (hi : Bool) (data : Word) (s : State) :
    Host.Outcome State Fault Refusal :=
  if ctl then .next (s.access fn (O.MAC_GCL_CTL p) fun _ s => s.gclCtlWrite p data)
  else
    .next (s.access fn (O.MAC_GCL p (g % 8) (i % 32) + 4 * b2n hi) fun key s => s.gclEntryWrite p (g % 8) key data)

/-! ### Preemption (R108) -/

/-- VERIFY_RESPONSE (R108): SMD-R answers a verify in progress. -/
def execVerifyResponse (p : Nat) (s : State) : Host.Outcome State Fault Refusal :=
  if s.fget (F.MAC_STAT.VERIFY p) = 1 ∧ s.stopped p false = false then
    .next (s.fsets [(F.MAC_STAT.VERIFY p, 2), (F.MAC_STAT.PREEMPT_ACTIVE p, 1)])
  else .next s

/-- VERIFY_TIMEOUT (R108): the next of 3 tries, or failure. -/
def execVerifyTimeout (p : Nat) (s : State) : Host.Outcome State Fault Refusal :=
  if s.fget (F.MAC_STAT.VERIFY p) = 1 then
    let v := s.port p
    if v.tries < 3 then .next ((s.setPort p { v with tries := v.tries + 1 }).sendVerify p)
    else .next (s.fset (F.MAC_STAT.VERIFY p) 3)
  else .next s

/-! ### Choosing the next frame (R109) -/

/-- Whether class `c` is express (R108). -/
def State.isExpress (s : State) (p c : Nat) : Bool :=
  !s.flag (F.MAC_STAT.PREEMPT_ACTIVE p) || bitOf (s.rd (O.MAC_PREEMPT p)) c

/-- The copy that leads class `c`: frames leave in arrival order (R109). -/
def leadCopy (l : List Copy) (c : Nat) : Option Copy := l.find? fun x => x.cls == c

/-- Length of a copy's frame in bytes. -/
def State.copyLen (s : State) (c : Copy) : Nat := (s.frame c.fid).wireLen

/-- Whether received flow control stops class `c` (R106); never in half duplex. -/
def State.pfcStops (s : State) (p c : Nat) : Bool :=
  s.flag (F.MAC_CTL.DUPLEX p) && (s.flag (F.MAC_FC_STAT.PAUSED p) || bitOf (s.rd (O.MAC_FC_STAT p)) c)

/-- The copy that R109 chooses among the express or the preemptable classes, with the length that the gate is judged by. -/
def State.chooseAmong (s : State) (p : Nat) (express : Bool) (ok : Copy → Bool) (len : Copy → Nat) : Option Copy :=
  [7, 6, 5, 4, 3, 2, 1, 0].findSome? fun c =>
    if s.isExpress p c = express ∧ s.pfcStops p c = false then
      match leadCopy (s.port p).egress c with
      | some x => if ok x = true ∧ s.gateOk p c (len x) = true then some x else none
      | none => none
    else none

/-- Whether port `p` may launch bytes: a MAC whose unit and clock run, with no link fault (R41; 05_trunk_cells.md R133). -/
def State.launches (s : State) (p : Nat) : Bool :=
  s.isMac p && s.portUp p && !s.stopped p true && (decide (p < 8) || decide ((s.trunk (p - 8)).fault = 0))

/-- Whether port `p` may start a frame: it may launch bytes, is enabled and not in back-off (R100, R102). -/
def State.sends (s : State) (p : Nat) : Bool :=
  s.launches p && s.flag (F.MAC_CTL.EN_TX p) && !(s.port p).backoff

/-- Whether carrier or a frame being received makes port `p` defer, in half duplex (R102; 02_boundary_and_access.md R37). -/
def State.defers (s : State) (p : Nat) : Bool :=
  !s.flag (F.MAC_CTL.DUPLEX p) && ((s.port p).crs || (s.port p).arriving.isSome)

/-- A copy begins to leave with its bytes and its transmit stamp (R80). -/
def State.beginCopy (s : State) (p ph : Nat) (c : Copy) (bytes : List Byte) : State :=
  let v := s.port p
  (s.setPort p { v with tx := some { c with bytes := bytes, stamp := s.txStamp p ph } }).fset (F.MAC_STAT.TX_BUSY p) 1

/-- A queued copy of a whole frame begins to leave. A copy that meets a poisoned word is discarded (13 R354). -/
def State.startWhole (s : State) (p ph : Nat) (c : Copy) : State :=
  let v := s.port p
  let s := s.setPort p { v with egress := v.egress.erase c }
  let f := s.frame c.fid
  if s.poisoned f.parts then
    let s := if c.host.isSome then s.meetPoison f.parts else s
    (s.hostCode c.host 6).copyGone p c false 0
  else
    let r := s.takeBytes f
    r.2.beginCopy p ph { c with pre := !s.isExpress p c.cls } r.1

/-! ### Cut-through (R113) -/

/-- Whether the ingress of a frame is at least as fast as port `p`. -/
def State.fastEnough (s : State) (f : Frame) (p : Nat) : Bool :=
  match f.src with
  | .port i => decide (s.byteTime i ≤ s.byteTime p)
  | _ => false

/-- Whether a copy may start in cut-through (R113, R193): a field port in full duplex with CUT_EN, and a frame still arriving,
neither bad nor cut at MAX_LEN (R101, R114), with its first 40 bytes, or the bytes its parse reads, received. -/
def State.cutOk (s : State) (p : Nat) (c : Copy) : Bool :=
  let f := s.frame c.fid
  decide (p < 8) && s.flag (F.MAC_CTL.CUT_EN p) && s.flag (F.MAC_CTL.DUPLEX p) &&
    !f.done && !f.bad && f.excess.isEmpty && decide (max 40 f.parse.high ≤ f.bytes.length) && s.fastEnough f p && !c.csum

/-- Whether a copy may start now, whole or in cut-through. -/
def State.copyReady (s : State) (p : Nat) (c : Copy) : Bool := s.wholeOk c || s.cutOk p c

/-- The length that a copy's gate is judged by: its own when it is held whole, GUARD_LEN in cut-through (R111). -/
def State.gateLen (s : State) (p : Nat) (c : Copy) : Nat :=
  if (s.frame c.fid).done then s.copyLen c else s.fget (F.MAC_GCL_CTL.GUARD_LEN p)

/-- The copy that R109 chooses at port `p` among the express or the preemptable classes. -/
def State.choose (s : State) (p : Nat) (express : Bool) : Option Copy :=
  s.chooseAmong p express (fun c => s.copyReady p c) (fun c => s.gateLen p c)

/-- A chosen copy begins to leave: whole, or in cut-through (R113). -/
def State.startCopy (s : State) (p ph : Nat) (c : Copy) : State :=
  if s.wholeOk c then s.startWhole p ph c
  else
    let v := s.port p
    let s := s.setPort p { v with egress := v.egress.erase c }
    s.beginCopy p ph { c with cut := true, pre := !s.isExpress p c.cls } (s.frame c.fid).bytes

/-- Pads a control frame's bytes to 60 (IEEE 802.3). PRESUMED, notes/assumptions/55.md. -/
def pad60 (bs : List Byte) : List Byte := bs ++ List.replicate (60 - bs.length) 0

/-- A PAUSE frame, or a PFC frame for priority `k` (R107; IEEE 802.3 Annex 31B, 802.1Qbb). PRESUMED, notes/assumptions/55.md. -/
def State.fcFrame (s : State) (p k q : Nat) : List Byte :=
  let head := [0x01, 0x80, 0xC2, 0x00, 0x00, 0x01] ++ s.stationAddr p ++ natBe 2 0x8808
  if k = 8 then pad60 (head ++ natBe 2 0x0001 ++ natBe 2 q)
  else pad60 (head ++ natBe 2 0x0101 ++ natBe 2 (2 ^ k) ++ ((List.range 8).map fun i => natBe 2 (if i = k then q else 0)).flatten)

/-- The gasp frame before its FCS (16_power_and_wake.md R395). -/
def State.gaspBytes (s : State) : List Byte :=
  let n := min 124 (max 60 (s.fget F.PWR_GASP.LEN))
  ((List.range 31).map fun i => natLe 4 (s.rd (O.PWR_GASP_FRAME i)).toNat).flatten.take n

/-- A preempted frame goes on (R108). -/
def State.resumeHeld (s : State) (p : Nat) : State :=
  let v := s.port p
  match v.held with
  | some c => ((s.macCnt p 28).setPort p { v with tx := some c, held := none }).fset (F.MAC_STAT.TX_BUSY p) 1
  | none => s

/-- The port's next frame among gasp, flow control, express and preemptable frames (16 R395; R107; R109); a port that
leaves ON only ends what it has begun (16 R386), and the MAC of a BASE-R trunk sends no frame in SAFEHOLD (05_trunk_cells.md
R133). -/
def State.startNext (s : State) (p ph : Nat) : State :=
  let v := s.port p
  let off := !s.forwards (s.cfg.halfOfAnyPort p)
  if s.quiesced (portDom p) then s.resumeHeld p
  else if v.gasp then (s.setPort p { v with gasp := false }).beginCopy p ph { kind := 2, coll := v.coll } s.gaspBytes
  else if off = true ∧ 8 ≤ p then s
  else
    match v.fcDue with
    | (k, q) :: rest => (s.setPort p { v with fcDue := rest }).beginCopy p ph { kind := 1 } (s.fcFrame p k q)
    | [] =>
      if off then s
      else
        match s.choose p true with
        | some c => s.startCopy p ph c
        | none =>
          if v.hold then s
          else
            match v.held with
            | some _ => s.resumeHeld p
            | none =>
              match s.choose p false with
              | some c => s.startCopy p ph c
              | none => s

/-- Whether both fragments of a preemptable frame of which `sent` bytes have left meet the minimum of 802.3br (R108): the one
that ends now with its mCRC at least 64 × (1 + ADD_FRAG) bytes, the rest at least 64 bytes. DEDUCED, notes/assumptions/75.md. -/
def State.fragOk (s : State) (p sent : Nat) (c : Copy) : Bool :=
  decide (64 * (1 + s.fget (F.MAC_PREEMPT.ADD_FRAG p)) ≤ sent - c.sent + 4) && decide (64 ≤ s.copyLen c - sent)

/-- Whether a frame of a preemptable class that leaves may be interrupted after `sent` bytes (R108). -/
def State.canPreempt (s : State) (p sent : Nat) : Bool :=
  let v := s.port p
  s.flag (F.MAC_STAT.PREEMPT_ACTIVE p) && v.held.isNone && !s.quiesced (portDom p) && (match v.tx with
    | some c => c.kind == 0 && c.pre && s.fragOk p sent c
    | none => false)

/-- Whether an express frame, flow control, the gasp frame or a hold waits while a preemptable frame leaves (R108, R111). -/
def State.preempts (s : State) (p sent : Nat) : Bool :=
  let v := s.port p
  s.canPreempt p sent && (v.gasp || !v.fcDue.isEmpty || v.hold || (s.choose p true).isSome)

/-- The frame that leaves is interrupted after `sent` bytes: its fragment ends (R108). -/
def State.interrupt (s : State) (p sent : Nat) : State :=
  let v := s.port p
  match v.tx with
  | some c => ((s.setPort p { v with tx := none, held := some { c with sent := sent } }).emit (.fragment p c.fid)).fset (F.MAC_STAT.TX_BUSY p) 0
  | none => s

/-- FRAME_TRANSMIT_START (R100, R107 to R111, R113, R116, R126): the port chooses its next frame; an express frame interrupts a
preemptable one of which `sent` bytes have left; a frame already begun is sent to its end although EN_TX is 0. `crs` is the
level of FPn_CRS, for which half duplex defers (R102). -/
def execFrameTransmitStart (p ph : Nat) (s : State) (sent : Nat := 0) (crs : Bool := false) : Host.Outcome State Fault Refusal :=
  let s := s.setPort p { s.port p with crs := crs }
  let v := s.port p
  if s.defers p then .next s
  else if s.sends p then
    if v.tx.isNone then .next (s.startNext p ph)
    else if s.preempts p sent then .next ((s.interrupt p sent).startNext p ph)
    else .next s
  else if s.launches p = true ∧ v.tx.isNone = true ∧ v.hold = false then .next (s.resumeHeld p)
  else .next s

/-- CUT_THROUGH_START (R113): the frame that R109 would choose now starts in cut-through; an express one interrupts a
preemptable frame of which `sent` bytes have left (R108). -/
def execCutThroughStart (p ph : Nat) (s : State) (sent : Nat := 0) : Host.Outcome State Fault Refusal :=
  let v := s.port p
  if s.sends p = true ∧ s.quiesced (portDom p) = false ∧ v.gasp = false ∧ v.fcDue.isEmpty = true
      ∧ s.forwards (s.cfg.halfOfAnyPort p) = true then
    match s.choose p true with
    | some c =>
      if s.cutOk p c = false then .next s
      else if v.tx.isNone then .next (s.startCopy p ph c)
      else if s.canPreempt p sent then .next ((s.interrupt p sent).startCopy p ph c)
      else .next s
    | none =>
      if v.hold = true ∨ v.held.isSome = true ∨ v.tx.isSome = true then .next s
      else
        match s.choose p false with
        | some c => if s.cutOk p c then .next (s.startCopy p ph c) else .next s
        | none => .next s
  else .next s

/-! ### The end of a transmission -/

/-- A frame's copy has been sent: what left, its counters, its edits, its completion (R100, R114, R126, R129).
DEDUCED, notes/assumptions/32.md. -/
def State.endCopy (s : State) (p : Nat) (c : Copy) : State :=
  let f := s.frame c.fid
  let pois := !c.cut && s.poisoned f.parts
  let stomp := (c.cut && f.bad) || pois
  let b := s.buildEgress p c f c.bytes stomp
  let s := s.emit (.frame p b.1)
  let s := if stomp then s.macCnt p 24 else (s.macCnt p 22).cntAdd (O.MAC_CNT p 21) b.1.length
  let s := s.noteEdits p c.fid b.2.2
  let s := if pois then s.hostCode c.host 6 else s
  s.copyGone p c (!stomp) b.2.1

/-- The gasp frame of port `p` has left or is given up (16_power_and_wake.md R395). -/
def State.gaspGone (s : State) (p : Nat) : State :=
  match s.gasp with
  | some g => (s.setGasp (some { g with ports := g.ports.filter (· != p) })).gaspCheck
  | none => s

/-- Whether the frame that leaves trunk MAC `p` can no longer be sent whole: a link fault holds, or its half is in SAFEHOLD
(05_trunk_cells.md R133). DESIGN CHOICE, notes/assumptions/76.md. -/
def State.txBroken (s : State) (p : Nat) : Bool :=
  decide (8 ≤ p) && (decide ((s.trunk (p - 8)).fault ≠ 0) || decide (s.hmode (s.cfg.halfOfAnyPort p) = 6))

/-- FRAME_TRANSMIT_END (R100, R114): the frame that leaves port `p` has been sent to its end. One that a BASE-R trunk could not
send to its end is lost (05_trunk_cells.md R133). -/
def execFrameTransmitEnd (p : Nat) (s : State) : Host.Outcome State Fault Refusal :=
  match (s.port p).tx with
  | none => .next s
  | some c =>
    if s.portUp p = false ∨ s.stopped p true = true ∨ (c.kind = 0 ∧ c.cut = true ∧ (s.frame c.fid).done = false) then .next s
    else
      let s := (s.setPort p { s.port p with tx := none }).fset (F.MAC_STAT.TX_BUSY p) 0
      if s.txBroken p then (if c.kind = 0 then .next (s.copyGone p c false 0) else .next s)
      else if c.kind = 0 then .next (s.endCopy p c)
      else
        let bs := c.bytes ++ fcsOf c.bytes
        let s := ((s.emit (.frame p bs)).macCnt p 22).cntAdd (O.MAC_CNT p 21) bs.length
        if c.kind = 1 then .next (s.macCnt p 23) else .next (s.gaspGone p)

/-! ### Half duplex (R102) -/

/-- COLLISION (R102): counted; a late one, or the 16th of the frame, abandons the frame, any other starts the back-off. A port
whose transmit clock has stopped launches nothing that could collide (R41). DESIGN CHOICE, notes/assumptions/65.md. -/
def execCollision (p : Nat) (late : Bool) (s : State) : Host.Outcome State Fault Refusal :=
  match (s.port p).tx with
  | none => .next s
  | some c =>
    if s.flag (F.MAC_CTL.DUPLEX p) = true ∨ s.stopped p true = true then .next s
    else
      let v := s.port p
      let s := ((s.macCnt p 25).emit (.jam p)).fset (F.MAC_STAT.TX_BUSY p) 0
      if late = true ∨ 16 ≤ c.coll + 1 then
        let s := (s.setPort p { v with tx := none }).macCnt p (if late then 26 else 27)
        if c.kind = 0 then .next (s.copyGone p c false 0)
        else if c.kind = 2 then .next (s.gaspGone p)
        else .next s
      else
        let back := { c with bytes := [], stamp := 0, coll := c.coll + 1 }
        let v := { v with tx := none, backoff := true }
        if c.kind = 2 then .next (s.setPort p { v with gasp := true, coll := c.coll + 1 })
        else .next (s.setPort p { v with egress := back :: v.egress })

/-- BACKOFF_EXPIRY (R102): the frame is attempted again at the next frame start. DESIGN CHOICE, notes/assumptions/65.md. -/
def execBackoffExpiry (p : Nat) (s : State) : Host.Outcome State Fault Refusal :=
  .next (s.setPort p { s.port p with backoff := false })

/-! ### Editing in flight (R121 to R127) -/

/-- Whether an edit still has a copy to act on: one waits at or leaves the port, or the arming thread has not disposed of
the frame yet (R125). -/
def State.editLive (s : State) (p : Nat) (e : Edit) : Bool :=
  ((s.port p).copies.any fun c => c.kind == 0 && c.fid == e.fid) ||
    (let t := s.thr (e.thread / 8) (e.thread % 8)
     t.bound == some e.fid && !t.disposed)

/-- Whether the edit queue has no room for an edit (R127). -/
def Port.editFull (v : Port) (e : Edit) : Bool :=
  decide (32 ≤ v.edits.length) || decide (2048 < (v.edits.foldl (fun a x => a + x.bytes.length) 0) + e.bytes.length)

/-- Whether an edit comes too late for the copy that leaves port `p` (R124): `j` is the index of the byte of the edit's frame
that leaves in this transmit byte clock, -1 to -8 the SFD and preamble and lower ones the idle clocks before; the edit is late
when the clock of byte w - 16 has started. A frame that waits has launched nothing from -8 on, one that is interrupted its first
`sent` bytes. DEDUCED, notes/assumptions/32.md. -/
def State.editLate (s : State) (p : Nat) (j : Int) (e : Edit) : Bool :=
  let v := s.port p
  let mine (c : Copy) : Bool := c.kind == 0 && c.fid == e.fid
  let launched : Int :=
    match v.tx.toList.find? mine, v.held.toList.find? mine with
    | some _, _ => max j (-8)
    | none, some c => (c.sent : Int) - 1
    | none, none => min j (-9)
  v.copies.any mine && decide ((e.w : Int) - 16 ≤ launched)

/-- An edit reaches the edit queue in time: queued, dropped as FULL, or dropped for want of a copy (R123, R125, R127, R258).
DEDUCED, notes/assumptions/32.md. -/
def State.editArrives (s : State) (p : Nat) (e : Edit) : State :=
  if s.editLive p e = false then s.spliceNote e false []
  else if (s.port p).editFull e then
    let s := ((s.fset (F.MAC_EDIT_STAT.FULL p) 1).raisePort p 4).copyStatus p e.fid 2048
    (s.spliceNote e false [28]).postThr e.thread 7
  else
    let v := s.port p
    let s := (s.setPort p { v with edits := v.edits ++ [e] }).fset (F.MAC_EDIT_STAT.LEVEL p) (v.edits.length + 1)
    s.spliceNote e true []

/-- EDIT_QUEUED (R123, R124): the oldest edit on its way reaches the port's edit queue while byte `j` of its frame leaves; one
that comes too late is not queued but left to EDIT_LATE. -/
def execEditQueued (p : Nat) (s : State) (j : Int := 0) : Host.Outcome State Fault Refusal :=
  match (s.port p).coming with
  | [] => .next s
  | e :: rest =>
    if s.editLate p j e then .next s
    else .next ((s.setPort p { s.port p with coming := rest }).editArrives p e)

/-- EDIT_LATE (R124, R125): the oldest edit on its way that is not in the queue at the start of the clock of byte w - 16, judged
while byte `j` of its frame leaves, is dropped whole. -/
def execEditLate (p : Nat) (s : State) (j : Int := 0) : Host.Outcome State Fault Refusal :=
  let v := s.port p
  match v.coming.find? (fun e => s.editLate p j e) with
  | none => .next s
  | some e =>
    let s := s.setPort p { v with coming := v.coming.erase e }
    let s := (((s.fset (F.MAC_EDIT_STAT.LATE p) 1).raisePort p 2).macCnt p 31).copyStatus p e.fid 512
    .next ((s.spliceNote e false [29]).postThr e.thread 6)

/-- BYTE_TRIGGER (R122): byte trigger `k` of a thread is reached, or the frame has ended before its byte. -/
def execByteTrigger (e n k : Nat) (s : State) : Host.Outcome State Fault Refusal :=
  let v := s.thr e n
  match v.bound, KMap.find? v.trigs k with
  | some f, some o =>
    let fr := s.frame f
    if o < fr.bytes.length then
      .next ((s.setThr e n { v with trigs := KMap.erase v.trigs k }).postEvt e n (1 + k % 4))
    else if fr.done then
      .next (((s.setThr e n { v with trigs := KMap.erase v.trigs k }).postEvt e n (1 + k % 4)).postEvt e n 5)
    else .next s
  | _, _ => .next s

end Sys2Proof.Machine
end

