-- ==== Sys2Proof/Machine/Time.lean ====
section
/-!
DEFINITION. The commands of the time base, PPS, the cycle generators, the triggers and the captures
(03_time_and_cycles.md R66 to R97, R429; 18_faults_and_selftest.md R417).
-/
namespace Sys2Proof.Machine

/-! ### Setting, stepping and the rate -/

/-- Whether software owns the time of half `h`: it leads (R70). -/
def State.tbOwned (s : State) (h : Nat) : Bool := decide (s.leader = h)

/-- A time-base write that is ignored (R70, R71). -/
def State.tbIgnored (s : State) (h : Nat) : State :=
  s.setFlag (tbFld F.TB_STAT.WR_IGN h) (srcTb s.cfg h + 1)

/-- Sends a change of the leader's time base to the other half (R70). DESIGN CHOICE, notes/assumptions/53.md. -/
def State.sendFollow (s : State) (h : Nat) (c : Follow) : State :=
  if s.cfg.halves = 2 ∧ (s.half 0).half.up = true ∧ (s.half 1).half.up = true then
    let o := 1 - h
    let v := s.tb o
    s.setTb o { v with follow := v.follow ++ [c] }
  else s

/-- The change of time value that half `h` passes on. -/
def State.followTime (s : State) (h : Nat) (isSet : Bool) : Follow :=
  { time := some ((s.tb h).t, (s.tb h).el), isSet := isSet
    setDone := s.fget (tbFld F.TB_STAT.SET_DONE h), stepUsed := s.fget (tbFld F.TB_STAT.STEP_USED h)
    stepHw := s.fget (tbFld F.TB_STAT.STEP_HW h) }

/-- The word of TB_SET at place `i`: staged, or in effect. -/
def State.tbSetWord (s : State) (h i : Nat) : Nat := (s.stagedWord (O.TB_SET + tbOfs h + 4 * i)).toNat

/-- A write of TB_SET's highest word (R72): loads the time in CONFIG, sets SET_ERR where NS is too large; in any other mode
it never loads and gives the error response where it would change a field. -/
def State.tbSetHigh (h : Nat) (data : Word) (s : State) : State :=
  let key := O.TB_SET + tbOfs h + 12
  if s.tbOwned h = false then s.tbIgnored h
  else if s.mode ≠ 2 then
    if getBits data 0 16 ≠ getBits (s.rd key) 0 16 then s.deny else s
  else
    let ns := s.tbSetWord h 1
    if 999999999 < ns then
      let s := s.setStage (KMap.clear (fun k => decide (key ≤ k + 12 ∧ k ≤ key)) s.stage)
      s.setFlag (tbFld F.TB_STAT.SET_ERR h) (srcTb s.cfg h)
    else
      let sec := s.tbSetWord h 2 + 2 ^ 32 * getBits data 0 16
      let frac := s.tbSetWord h 0 % 65536
      let s := s.writeFields key data
      let s := s.newTime h ((sec * 1000000000 + ns) * 2 ^ 40 + frac * 2 ^ 24) true
      let s := s.fset (tbFld F.TB_STAT.SET_DONE h) 1
      s.sendFollow h (s.followTime h true)

/-- A write of a lower word of TB_SET is staged (R55); a follower ignores it (R70). -/
def State.tbSetLow (h i : Nat) (data : Word) (s : State) : State :=
  if s.tbOwned h = false then s.tbIgnored h else s.writeFields (O.TB_SET + tbOfs h + 4 * i) data

/-- Whether a trunk is enabled (R73). -/
def State.trunkEnabled (s : State) : Bool :=
  (List.range s.cfg.trunks).any (fun t => s.flag (F.TRK_CFG.EN t))

/-- The modes in which a software step is accepted (R73). -/
def State.stepAllowed (s : State) (h : Nat) : Bool :=
  let used := s.flag (tbFld F.TB_STAT.STEP_USED h)
  if s.mode = 2 then s.flag (tbFld F.TB_STAT.SET_DONE h) && !used
  else if s.mode = 3 then !used && !s.trunkEnabled
  else if s.mode = 4 ∨ s.mode = 5 then !used
  else false

/-- The time after a signed step of `ofs` × 2^-16 ns together with the tick's increment, if it stays within 0 to
2^48 - 1 seconds (R75). -/
def State.stepTarget (s : State) (h : Nat) (ofs : Int) : Option Nat :=
  let t : Int := ((s.tb h).t : Int) + (s.tickInc h : Int) + ofs * 2 ^ 24
  if t < 0 ∨ (timeWrap : Int) ≤ t then none else some t.toNat

/-- Applies a step in one tick: the time moves by the step and the tick's increment, generators re-anchor, STEP_USED is
set, the follower is told (R70, R73, R75, R89). -/
def State.applyStep (s : State) (h t : Nat) (hw : Bool) : State :=
  let v := s.tb h
  let s := s.setTb h { v with el := v.el + s.tickInc h }
  let s := s.newTime h t false
  let s := s.fset (tbFld F.TB_STAT.STEP_USED h) 1
  let s := if hw then s.fset (tbFld F.TB_STAT.STEP_HW h) 1 else s
  (s.sendFollow h (s.followTime h false)).quietTrunks

/-- A write of TB_STEP's high word (R73, R75); without a low word written before it, the low word counts as 0. DESIGN CHOICE,
notes/assumptions/70.md. -/
def State.tbStepHigh (h : Nat) (data : Word) (s : State) : State :=
  let key := O.TB_STEP + tbOfs h
  if s.tbOwned h = false then s.tbIgnored h
  else
    let lowWord := ((KMap.find? s.stage key).getD 0).toNat
    let ofs := sint 64 (lowWord + 2 ^ 32 * data.toNat)
    let s := s.setStage (KMap.erase s.stage key)
    match s.stepTarget h ofs with
    | some t =>
      if s.stepAllowed h then s.applyStep h t false
      else s.setFlag (tbFld F.TB_STAT.STEP_REFUSED h) (srcTb s.cfg h + 3)
    | none => s.setFlag (tbFld F.TB_STAT.STEP_REFUSED h) (srcTb s.cfg h + 3)

/-- A step that meets other events in its tick (R76), which the commands before it carried out: after a set it is refused, a new
rate waits for the next tick, and a snapshot holds the value after the step. -/
def State.tbStepMeets (h : Nat) (data : Word) (set rate snap : Bool) (s : State) : State :=
  if set = true ∧ s.tbOwned h = true then
    (s.setStage (KMap.erase s.stage (O.TB_STEP + tbOfs h))).setFlag (tbFld F.TB_STAT.STEP_REFUSED h) (srcTb s.cfg h + 3)
  else
    let key := O.TB_RATE + tbOfs h
    let new := s.rd key
    let s := if rate then (s.wr key (BitVec.ofInt 32 (s.tb h).rateWas)) else s
    let s := s.tbStepHigh h data
    let s := if rate then s.wr key new else s
    if snap then s.snapshot h else s

/-- A write of TB_STEP's low word is kept until the high word is written (R73). -/
def State.tbStepLow (h : Nat) (data : Word) (s : State) : State :=
  if s.tbOwned h = false then s.tbIgnored h else s.setStage (KMap.insert s.stage (O.TB_STEP + tbOfs h) data)

/-- The limits of TB_RATE (R68). -/
def rateLimit : Int := 549755814

/-- Sets the rate of half `h`, clamped with RATE_CLAMP set where it lies outside the limits (R68), and passes it on to a
follower (R70). -/
def State.putRate (s : State) (h : Nat) (r : Int) : State :=
  let s := if r < -rateLimit ∨ rateLimit < r then s.setFlag (tbFld F.TB_STAT.RATE_CLAMP h) (srcTb s.cfg h + 2) else s
  let v : Word := BitVec.ofInt 32 (clampInt (-rateLimit) rateLimit r)
  let s := s.wr (O.TB_RATE + tbOfs h) v
  s.sendFollow h { rate := some v }

/-- A write of TB_RATE (R68, R70, R71). -/
def State.tbRateWrite (h : Nat) (data : Word) (s : State) : State :=
  if s.tbOwned h = false ∨ s.flag (tbFld F.TB_CTL.SERVO h) = true ∨ s.flag F.TRK_CS_STAT.SLEWING = true then s.tbIgnored h
  else
    let r := data.toInt
    (s.setTb h { s.tb h with rateWas := s.tbRate h }).putRate h r

/-- The follower applies the oldest change of the leader (R70): a time value with the time elapsed since the leader's tick,
and the leader's status bits, of which STEP_USED and STEP_HW are never cleared (R74); or a rate. -/
def State.applyFollow (s : State) (h : Nat) : State :=
  match (s.tb h).follow with
  | [] => s
  | c :: rest =>
    let s := s.setTb h { s.tb h with follow := rest }
    let s := match c.rate with
      | some v => s.wr (O.TB_RATE + tbOfs h) v
      | none => s
    match c.time with
    | some (t, el) =>
      let s := s.newTime h (t + ((s.tb (1 - h)).el - el)) c.isSet
      s.fsets
        [(tbFld F.TB_STAT.SET_DONE h, c.setDone), (tbFld F.TB_STAT.STEP_USED h, max c.stepUsed (s.fget (tbFld F.TB_STAT.STEP_USED h))),
         (tbFld F.TB_STAT.STEP_HW h, max c.stepHw (s.fget (tbFld F.TB_STAT.STEP_HW h)))]
    | none => s

/-- TB_SET_WRITE (R72). -/
def execTbSetWrite (fn h : Nat) (data : Word) (s : State) : Host.Outcome State Fault Refusal :=
  .next (s.writeAcc fn (O.TB_SET + tbOfs h + 12) data fun _ s => s.tbSetHigh h data)

/-- TB_STEP_WRITE (R73, R76): `set`, `rate` and `snap` tell that the set, the rate change or the snapshot just before falls in
the same tick. -/
def execTbStepWrite (fn h : Nat) (data : Word) (s : State) (set : Bool := false) (rate : Bool := false) (snap : Bool := false) :
    Host.Outcome State Fault Refusal :=
  .next (s.writeAcc fn (O.TB_STEP + tbOfs h + 4) data fun _ s => s.tbStepMeets h data set rate snap)

/-- TB_RATE_WRITE (R68). -/
def execTbRateWrite (fn h : Nat) (data : Word) (s : State) : Host.Outcome State Fault Refusal :=
  .next (s.writeAcc fn (O.TB_RATE + tbOfs h) data fun _ s => s.tbRateWrite h data)

/-- FOLLOWER_TIME_APPLY (R70): in a tick of the follower's time base. DESIGN CHOICE, notes/assumptions/53.md. -/
def execFollowerTimeApply (s : State) : Host.Outcome State Fault Refusal :=
  if s.tbRuns (1 - s.leader) then .next (s.applyFollow (1 - s.leader)) else .next s

/-- The effect of a write to TB_SNAP_CMD (R78). -/
def State.snapCmd (h : Nat) (data : Word) (s : State) : State := if bitOf data 0 then s.snapshot h else s

/-- SNAPSHOT_LATCH (R78). -/
def execSnapshotLatch (fn h : Nat) (data : Word) (s : State) : Host.Outcome State Fault Refusal :=
  .next (s.writeAcc fn (O.TB_SNAP_CMD + tbOfs h) data fun _ s => s.snapCmd h data)

/-- A read of TB_SNAP_NS latches and returns the nanoseconds (R78). -/
def State.snapRead (h : Nat) (s : State) : State :=
  let s := s.snapshot h
  s.answer false (s.fget (tbFld F.TB_SNAP_NS.NS h))

/-- Whether the time-base island of a key is stopped, so that a read of it gets no answer (01_block_and_halves.md R16). -/
def State.tbStopped (s : State) (key : Nat) : Bool :=
  match tbIsland s.cfg key with
  | some h => (s.tb h).lost
  | none => false

/-- TB_SNAP_NS_READ (R78). -/
def execTbSnapNsRead (fn h : Nat) (s : State) : Host.Outcome State Fault Refusal :=
  .next (s.access fn (O.TB_SNAP_NS + tbOfs h) fun key s => if s.tbStopped key then s.deny else s.snapRead h)

/-! ### PPS -/

/-- PPS_PULSE_START (R83, R84): the seconds of the half that drives PPS_OUT have increased in a tick. -/
def execPpsPulseStart (s : State) : Host.Outcome State Fault Refusal :=
  let h := s.pps.drv
  if s.pps.due then
    let w := min (max 1 (s.fget (tbFld F.TB_PPS.WIDTH h))) 999999
    let high := s.pps.high
    let s := s.setPps { s.pps with high := true, half := h, stop := (s.tb h).el + w * 1000 * 2 ^ 40, due := false }
    .next (if high then s else s.emit (.pps true))
  else .next s

/-- PPS_PULSE_END (R83): WIDTH has elapsed. -/
def execPpsPulseEnd (s : State) : Host.Outcome State Fault Refusal :=
  if s.pps.high = true ∧ s.pps.stop ≤ (s.tb s.pps.half).el then
    .next ((s.setPps { s.pps with high := false }).emit (.pps false))
  else .next s

/-! ### Generators -/

/-- Whether PERIOD and PHASE meet R86 and BIND and SYNC_EN are not both 1 (R87), for a CFG word. -/
def State.genSetupOk (s : State) (n : Nat) (data : Word) : Bool :=
  let p := s.fget (F.CTU_GEN_PERIOD.PERIOD n)
  let ph := s.fget (F.CTU_GEN_PHASE.PHASE n)
  let bind := bitOf data 1
  decide (1000 ≤ p ∧ p ≤ 1000000000 ∧ ph < p) && !(bind && bitOf data 2) &&
    (!bind || decide (10000 % p = 0 ∨ p % 10000 = 0))

/-- A write was not applied (R87, R88). -/
def State.genCfgErr (s : State) (n : Nat) : State :=
  s.setFlag (F.CTU_GEN_STAT.CFG_ERR n) (srcGen s.cfg n + 3)

/-- An enabling write of a stopped generator (R87, R91). -/
def State.genEnable (n : Nat) (data : Word) (s : State) : State :=
  if s.genSetupOk n data then
    let h := s.cfg.halfOfGen n
    let t := (s.tb h).t
    let start := (timeSec t / 2 ^ 32 * 2 ^ 32 + s.fget (F.CTU_GEN_START_SEC.START_SEC n)) * 1000000000 +
      s.fget (F.CTU_GEN_PHASE.PHASE n)
    let s := (s.writeFields (O.CTU_GEN_CFG n) data).wr (O.CTU_GEN_ACC n) 0
    let s := s.fset (F.CTU_GEN_STAT.RUN n) 1
    let s := s.setGen n { start := start }
    let s := s.setGen n (s.genLatch n { s.gen n with next := s.genFirst n (timeT t + 1) })
    forEach ((List.range 32).filter (fun k => s.fget (F.CTU_TRIG_CFG.GEN k) == n))
      (fun k s => (s.checkTrig k).syncTrig k) s
  else s.genCfgErr n

/-- A CFG write with EN = 0: the generator produces no further boundary (R88). -/
def State.genDisable (n : Nat) (data : Word) (s : State) : State :=
  ((s.writeFields (O.CTU_GEN_CFG n) data).fset (F.CTU_GEN_STAT.RUN n) 0).setGen n {}

/-- A write of CTU_GEN_CFG_n (R87, R88). -/
def State.genCfgWrite (n : Nat) (data : Word) (s : State) : State :=
  if bitOf data 0 then
    if s.flag (F.CTU_GEN_CFG.EN n) then
      if getBits data 1 2 ≠ getBits (s.rd (O.CTU_GEN_CFG n)) 1 2 then s.genCfgErr n
      else s.writeFields (O.CTU_GEN_CFG n) data
    else s.genEnable n data
  else s.genDisable n data

/-- A write of PERIOD, PHASE or START_SEC while the generator runs is not applied (R88). -/
def State.genSetupWrite (n key : Nat) (data : Word) (s : State) : State :=
  if s.flag (F.CTU_GEN_CFG.EN n) then s.genCfgErr n else s.writeFields key data

/-- The offset in the window at which a CTU register of a unit of half `h` is reached (R69). -/
def ctuOff (h key : Nat) : Nat := key + tbOfs h

/-- GENERATOR_ENABLE (R87): a write of CTU_GEN_CFG_n with EN = 1. -/
def execGeneratorEnable (fn n : Nat) (data : Word) (s : State) : Host.Outcome State Fault Refusal :=
  let d := data ||| 1
  .next (s.writeAcc fn (ctuOff (s.cfg.halfOfGen n) (O.CTU_GEN_CFG n)) d fun _ s => s.genCfgWrite n d)

/-- GENERATOR_DISABLE (R88): a write of CTU_GEN_CFG_n with EN = 0. -/
def execGeneratorDisable (fn n : Nat) (data : Word) (s : State) : Host.Outcome State Fault Refusal :=
  let d := data &&& ~~~ (1 : Word)
  .next (s.writeAcc fn (ctuOff (s.cfg.halfOfGen n) (O.CTU_GEN_CFG n)) d fun _ s => s.genCfgWrite n d)

/-- Whether generator `n` runs now: enabled, with its time base running (R88). -/
def State.genRuns (s : State) (n : Nat) : Bool :=
  s.flag (F.CTU_GEN_CFG.EN n) && s.tbRuns (s.cfg.halfOfGen n)

/-- A boundary of generator `n` (R86, R88, R90): its source, the CYCLE events of the engines that follow it, the rises of
the triggers it drives, and its next boundary. -/
def State.genBoundary (s : State) (n : Nat) : State :=
  let g := s.gen n
  let b := g.next
  let nx := ((b : Int) + (s.fget (F.CTU_GEN_PERIOD.PERIOD n) : Int) + g.shift).toNat
  let s := s.setGen n (s.genLatch n { g with next := nx, floor := b + 1, idx := g.idx + 1, shift := 0 })
  let s := s.raise (srcGen s.cfg n)
  let s := s.cycleEvents n
  forEach ((List.range 32).filter (fun k => s.cfg.halfOfTrig k == s.cfg.halfOfGen n))
    (fun k s => s.trigBoundary n b k) s

/-- CYCLE_BOUNDARY (R86): a generator whose next boundary the time has reached. -/
def execCycleBoundary (n : Nat) (s : State) : Host.Outcome State Fault Refusal :=
  if s.genRuns n = true ∧ (s.gen n).next * 2 ^ 40 ≤ (s.tb (s.cfg.halfOfGen n)).t then .next (s.genBoundary n)
  else .next s

/-! ### SYNC_IN -/

/-- The step limit M of R96. -/
def State.syncLimit (s : State) (n : Nat) : Nat :=
  min (min (s.gen n).maxStep (s.fget (F.CTU_GEN_PERIOD.PERIOD n) / 16)) 2000

/-- Whether a generator follows SYNC_IN now (R96, R97). -/
def State.genFollows (s : State) (n : Nat) : Bool :=
  s.genRuns n && s.flag (F.CTU_GEN_CFG.SYNC_EN n) && !s.flag (F.CTU_GEN_STAT.SYNC_LOST n)

/-- SYNC following stops (R96, R97). -/
def State.syncLost (s : State) (n : Nat) : State :=
  s.setFlag (F.CTU_GEN_STAT.SYNC_LOST n) (srcGen s.cfg n + 1)

/-- The time of generator `n`'s half in whole nanoseconds: a SYNC_IN edge's stamp without its fraction. DESIGN CHOICE,
notes/assumptions/72.md. -/
def State.syncNow (s : State) (n : Nat) : Int := timeT (s.tb (s.cfg.halfOfGen n)).t

/-- The expected point nearest to the time now, as a distance in boundaries from the next one; half way between two points it
is the later one (R96). DESIGN CHOICE, notes/assumptions/72.md. -/
def State.syncPoint (s : State) (n : Nat) : Int :=
  let g := s.gen n
  let p : Int := max 1 (s.fget (F.CTU_GEN_PERIOD.PERIOD n))
  (s.syncNow n - ((g.next : Int) + g.ofs) + p / 2) / p

/-- A SYNC_IN edge at generator `n`: matched to the nearest expected point, the first edge of a point only, it may move
the first boundary more than M + 8 ns after the stamp (R96). -/
def State.syncEdge (s : State) (n : Nat) : State :=
  let g := s.gen n
  let p : Int := max 1 (s.fget (F.CTU_GEN_PERIOD.PERIOD n))
  let stamp := s.syncNow n
  let k := s.syncPoint n
  let point : Int := (g.idx : Int) + k
  if point < (g.matched : Int) then s
  else
    let e := stamp - ((g.next : Int) + g.ofs + k * p)
    let m := s.syncLimit n
    let a := clampInt (-m) m e
    let acc := s.rdInt (O.CTU_GEN_ACC n) + a
    if p < 4 * (acc.natAbs : Int) then (s.setGen n { g with matched := (point + 1).toNat }).syncLost n
    else
      let g := { g with matched := (point + 1).toNat }
      let g := if stamp + m + 8 < (g.next : Int) then { g with next := ((g.next : Int) + a).toNat }
               else { g with shift := g.shift + a }
      (s.setGen n g).wr (O.CTU_GEN_ACC n) (BitVec.ofInt 32 acc)

/-- SYNC_IN_EDGE (R96): the edge reaches every generator that follows it and selects its direction. -/
def execSyncInEdge (rising : Bool) (s : State) : Host.Outcome State Fault Refusal :=
  .next (forEach (List.range 8) (fun n s =>
    if s.genFollows n = true ∧ (s.gen n).edge = b2n (!rising) then s.syncEdge n else s) s)

/-- Expected points of generator `n` since the last matched one that no edge can be matched to any more, since a later point is
nearer (R96). -/
def State.syncMissed (s : State) (n : Nat) : Int := ((s.gen n).idx : Int) + s.syncPoint n - (s.gen n).matched

/-- A write of CTU_GEN_STAT_n: clearing SYNC_LOST makes the generator follow again, and missed points count from now on
(R97). -/
def State.genStatWrite (n key : Nat) (data : Word) (s : State) : State :=
  let was := s.flag (F.CTU_GEN_STAT.SYNC_LOST n)
  let s := s.writeFields key data
  if was = true ∧ s.flag (F.CTU_GEN_STAT.SYNC_LOST n) = false then
    s.setGen n { s.gen n with matched := max (s.gen n).matched (((s.gen n).idx : Int) + s.syncPoint n).toNat }
  else s

/-- SYNC_MISS_LIMIT (R96): no edge matched to SYNC_MISS expected points in a row (0 acts as 1). -/
def execSyncMissLimit (n : Nat) (s : State) : Host.Outcome State Fault Refusal :=
  if s.genFollows n = true ∧ (max 1 (s.gen n).miss : Nat) ≤ s.syncMissed n then .next (s.syncLost n) else .next s

/-! ### Triggers -/

/-- The offsets of the three setting words of a trigger. -/
def trigWord (n which : Nat) : Nat :=
  if which = 0 then O.CTU_TRIG_CFG n else if which = 1 then O.CTU_TRIG_OFS n else O.CTU_TRIG_WIDTH n

/-- A write of a trigger's CFG, OFS or WIDTH: stored, checked, and the output parks where it may not run (R90, R91). -/
def State.trigWrite (n key : Nat) (data : Word) (s : State) : State :=
  (((s.writeFields key data).checkTrig n).syncTrig n).dicSync key

/-- TRIGGER_CONFIG_WRITE (R91): `which` 0 CFG, 1 OFS, 2 WIDTH. -/
def execTriggerConfigWrite (fn n which : Nat) (data : Word) (s : State) : Host.Outcome State Fault Refusal :=
  .next (s.writeAcc fn (ctuOff (s.cfg.halfOfTrig n) (trigWord n which)) data fun key s => s.trigWrite n key data)

/-- The first rise whose instant the time `t` has reached. -/
def dueRise (t : Nat) (l : List Rise) : Option Rise := l.find? (fun r => decide (r.at_ * 2 ^ 40 ≤ t))

/-- TRIGGER_RISE (R90, R92): a due rise makes the output active for its width of elapsed time. -/
def execTriggerRise (n : Nat) (s : State) : Host.Outcome State Fault Refusal :=
  let h := s.cfg.halfOfTrig n
  let v := s.trig n
  let b := s.tb h
  match dueRise b.t v.rises with
  | none => .next s
  | some r =>
    let lag := b.t - r.at_ * 2 ^ 40
    let base := if lag ≤ s.tickInc h then b.el - lag else b.el
    let s' := s.driveTrig n
      { v with level := r.act, pulse := some (base + r.width * 2 ^ 40), rises := v.rises.erase r, pol := !r.act }
    .next (if v.pulse.isSome then s'.setFlag (F.CTU_TRIG_STAT.OVERLAP n) (srcTrig s.cfg n) else s')

/-- TRIGGER_FALL (R90): WIDTH has elapsed since the rise. -/
def execTriggerFall (n : Nat) (s : State) : Host.Outcome State Fault Refusal :=
  let v := s.trig n
  match v.pulse with
  | none => .next s
  | some stop =>
    if stop ≤ (s.tb (s.cfg.halfOfTrig n)).el then
      .next (s.driveTrig n { v with level := idleLevel v.pol, pulse := none })
    else .next s

/-! ### Captures -/

/-- Whether capture `n` takes an edge (R94). -/
def State.capTakes (s : State) (n : Nat) (rising : Bool) : Bool :=
  bitOf (BitVec.ofNat 32 (s.fget (F.CTU_CAP_CFG.EDGE n))) (if rising then 0 else 1)

/-- CAPTURE_EDGE (R94, R95): the stamp of a taken edge, VALID, and OVERRUN where VALID was still 1, a software clear of VALID in
the same cycle (`clr`) notwithstanding. The command comes in the tick that samples the new level; the filter's fixed delay has
no figure and none is subtracted. DESIGN CHOICE, notes/assumptions/71.md. -/
def execCaptureEdge (n : Nat) (rising : Bool) (s : State) (clr : Bool := false) : Host.Outcome State Fault Refusal :=
  let h := s.cfg.halfOfCap n
  if s.capTakes n rising = true ∧ s.tbRuns h = true then
    let t := (s.tb h).t
    let was := s.flag (F.CTU_CAP_TS.VALID n)
    let s := if clr then s.fset (F.CTU_CAP_TS.VALID n) 0 else s
    let s := s.fsets
      [(F.CTU_CAP_TS.LEVEL n, b2n rising), (F.CTU_CAP_TS.FRAC n, timeFrac t), (F.CTU_CAP_TS.NS n, timeNs t)]
    let s := s.wr64 (O.CTU_CAP_TS n + 8) (timeSec t)
    let s := s.setFlag (F.CTU_CAP_TS.VALID n) (srcCap s.cfg n)
    .next (if was then s.setFlag (F.CTU_CAP_TS.OVERRUN n) (srcCap s.cfg n + 1) else s)
  else if clr then .next (s.fset (F.CTU_CAP_TS.VALID n) 0)
  else .next s

/-- A read of bytes 0–3 of CTU_CAP_TS_n latches NS and SEC (R95). -/
def State.capRead (n : Nat) (s : State) : State :=
  let s := s.latchNext (O.CTU_CAP_TS n) 3
  s.answer false (s.rd (O.CTU_CAP_TS n)).toNat

/-- CAPTURE_TS_READ (R95). -/
def execCaptureTsRead (fn n : Nat) (s : State) : Host.Outcome State Fault Refusal :=
  .next (s.access fn (ctuOff (s.cfg.halfOfCap n) (O.CTU_CAP_TS n)) fun key s =>
    if s.tbStopped key then s.deny else s.capRead n)

/-! ### Loss of the tick words -/

/-- TB_CLOCK_LOSS (18_faults_and_selftest.md R417): SET_DONE and JOINED clear, a class C fault is logged. -/
def execTbClockLoss (h : Nat) (s : State) : Host.Outcome State Fault Refusal :=
  if s.tbRuns h then
    let s := s.setTb h { s.tb h with lost := true }
    let s := s.fsets [(tbFld F.TB_STAT.SET_DONE h, 0), (tbFld F.TB_STAT.JOINED h, 0)]
    let s := forEach ((List.range 32).filter (fun n => s.cfg.halfOfTrig n == h)) (fun n s => s.syncTrig n) s
    .next (s.logFault 0x82 h 0 .c)
  else .next s

/-- Applies the time-base writes that have waited for a tick (R87). DESIGN CHOICE, notes/assumptions/53.md. -/
def State.tbWaiting (s : State) (h : Nat) : State :=
  forEach (s.tb h).waiting (fun w s =>
    let key := w.1
    if O.CTU_GEN_CFG 0 ≤ key ∧ key < O.CTU_GEN_CFG 8 then
      let n := (key - O.CTU_GEN_CFG 0) / 0x40
      let r := (key - O.CTU_GEN_CFG 0) % 0x40
      if r = 0 then s.genCfgWrite n w.2
      else if r ≤ 0xC then s.genSetupWrite n key w.2
      else if r = 0x14 then s.genStatWrite n key w.2
      else s.writeFields key w.2
    else if O.CTU_TRIG_CFG 0 ≤ key ∧ key < O.CTU_TRIG_CFG 32 then
      s.trigWrite ((key - O.CTU_TRIG_CFG 0) / 0x10) key w.2
    else if key = O.TB_SET + tbOfs h + 12 then s.tbSetHigh h w.2
    else if key = O.TB_STEP + tbOfs h + 4 then s.tbStepHigh h w.2
    else if key = O.TB_STEP + tbOfs h then s.tbStepLow h w.2
    else if key = O.TB_RATE + tbOfs h then s.tbRateWrite h w.2
    else if key = O.TB_SNAP_CMD + tbOfs h then s.snapCmd h w.2
    else if O.TB_SET + tbOfs h ≤ key ∧ key < O.TB_SET + tbOfs h + 12 then
      s.tbSetLow h ((key - (O.TB_SET + tbOfs h)) / 4) w.2
    else (s.writeFields key w.2).dicSync key) s

/-- TB_TICKS_RESUME (R417): the time continues from the value it held; waiting writes take effect in the first tick.
DESIGN CHOICE, notes/assumptions/53.md. -/
def execTbTicksResume (h : Nat) (s : State) : Host.Outcome State Fault Refusal :=
  if (s.tb h).lost then
    let s := (s.setTb h { s.tb h with lost := false }).tick h
    let s := s.tbWaiting h
    .next (s.setTb h { s.tb h with waiting := [] })
  else .next s

end Sys2Proof.Machine
end

