-- ==== Sys2Proof/Machine/Overhead.lean ====
section
/-!
DEFINITION. Trunk overhead: the superframe instant, received overhead and urgent cells, delay and offset, cold start and
integration, the time servo, gears and gear shifts, switching requests and ring protection
(06_trunk_overhead_gears_protection.md R158 to R188).
-/
namespace Sys2Proof.Machine

/-! ### Gears (R174 to R176) -/

/-- The channel in a slot of a gear's table (R174). -/
def State.slot (s : State) (t g i : Nat) : Nat := KMap.get 0 s.slots (4096 * t + 512 * g + i)

/-- W of R175. DEDUCED, notes/assumptions/45.md. -/
def reliefOf (r : Nat) : Nat := if r = 0 then 8 else if r = 1 then 16 else 32

/-- The failing slot of a slot list (R175): the lowest slot with a bad entry, or the last one of the first run of `w`
slots without a 0; `run` slots without a 0 precede slot `i`. -/
def failSlot (w run i : Nat) : List Nat → Option Nat
  | [] => none
  | c :: r =>
    if 0x3FD < c then some i
    else if c = 0 then failSlot w 0 (i + 1) r
    else if w ≤ run + 1 then some i
    else failSlot w (run + 1) (i + 1) r

/-- The failing slot of gear `g` (R175). -/
def State.gearFail (s : State) (t g w : Nat) : Option Nat :=
  failSlot w 0 0 ((List.range (s.slotsOf t)).map fun i => s.slot t g i)

/-- A write of TRK_GEAR_t (R175): each gear whose bit is set anew is checked; bits of the gear in use and of a pending
shift's target stay. DEDUCED, notes/assumptions/45.md. -/
def State.gearWrite (t : Nat) (data : Word) (s : State) : State :=
  let old := s.fget (F.TRK_GEAR.VALID t)
  let want := getBits data 8 8
  let w := reliefOf (getBits data 16 2)
  let has (v g : Nat) : Bool := decide (v / 2 ^ g % 2 = 1)
  let kept (g : Nat) : Bool :=
    decide (g = s.gearOfHalf (s.cfg.halfOfTrunk t)) || (s.shiftPending && decide (g = s.node.shTarget))
  let ok (g : Nat) : Bool := if has old g then has want g || kept g else has want g && (s.gearFail t g w).isNone
  let bits := (List.range 8).foldl (fun a g => if ok g then a + 2 ^ g else a) 0
  let bad := List.find? (fun g => has want g && !has old g && (s.gearFail t g w).isSome) (List.range 8)
  let s := s.writeFields (O.TRK_GEAR t) (setBits data 8 8 bits)
  let s := match bad with
    | some g => (s.fset (F.TRK_GEAR.ERR_SLOT t) ((s.gearFail t g w).getD 0)).setFlag (F.TRK_GEAR.GEAR_ERR t) (srcTrunk s.cfg t + 4)
    | none => s
  s.gearOkCheck

/-- GEAR_VALID_WRITE (R175). -/
def execGearValidWrite (fn t : Nat) (data : Word) (s : State) : Host.Outcome State Fault Refusal :=
  .next (s.access fn (O.TRK_GEAR t) fun _ s => s.gearWrite t data)

/-- The slot that TRK_SLOT_ADDR_t addresses; above 495 acts as 495 (R174). -/
def State.slotNow (s : State) (t : Nat) : Nat := min 495 (s.fget (F.TRK_SLOT_ADDR.SLOT t))

/-- The address after an access of TRK_SLOT_DATA_t (R174). -/
def State.slotNext (s : State) (t : Nat) : State :=
  if s.flag (F.TRK_SLOT_ADDR.AUTOINC t) then s.fset (F.TRK_SLOT_ADDR.SLOT t) ((s.slotNow t + 1) % 496) else s

/-- The slot table entry addressed by TRK_SLOT_ADDR_t. -/
def State.slotRead (s : State) (t : Nat) : Nat := s.slot t (s.fget (F.TRK_SLOT_ADDR.GEAR t)) (s.slotNow t)

/-- A write of TRK_SLOT_DATA_t (R174): refused for a gear whose VALID bit is 1, and in RESET and DORMANT. -/
def State.slotWrite (t : Nat) (data : Word) (s : State) : State :=
  let g := s.fget (F.TRK_SLOT_ADDR.GEAR t)
  if s.fget (F.TRK_GEAR.VALID t) / 2 ^ g % 2 = 1 ∨ s.mode = 0 ∨ s.mode = 7 then s.deny
  else (s.setSlots (KMap.put 0 s.slots (4096 * t + 512 * g + s.slotNow t) (getBits data 0 10))).slotNext t

/-- TRK_SLOT_DATA_WRITE (R174). -/
def execTrkSlotDataWrite (fn t : Nat) (data : Word) (s : State) : Host.Outcome State Fault Refusal :=
  .next (s.access fn (O.TRK_SLOT_DATA t) fun _ s => s.slotWrite t data)

/-- A read of TRK_SLOT_DATA_t returns the entry and advances SLOT under AUTOINC (R174). -/
def State.slotDataRead (t : Nat) (s : State) : State :=
  if s.mode = 0 ∨ s.mode = 7 then s.deny else (s.answer false (s.slotRead t)).slotNext t

/-- TRK_SLOT_DATA_READ (R174). -/
def execTrkSlotDataRead (fn t : Nat) (s : State) : Host.Outcome State Fault Refusal :=
  .next (s.access fn (O.TRK_SLOT_DATA t) fun _ s => s.slotDataRead t)

/-! ### Shifts (R177 to R179) -/

/-- The bit of a node id in TRK_CONFIRMED or TRK_MEMBER. -/
def idWord (base id : Nat) : Nat := base + 4 * (id / 32)

/-- Node `id` has confirmed (R178). -/
def State.confirm (s : State) (id : Nat) : State :=
  let k := idWord (O.TRK_CONFIRMED 0) (id % 256)
  s.wr k (setBits (s.rd k) (id % 32) 1 1)

/-- A confirmation for target SFN `n` reaches the schedule master; after its decision it is ignored (R178).
DEDUCED, notes/assumptions/45.md. -/
def State.confirmSeen (s : State) (id n : Nat) : State :=
  if s.node.shOwn = true ∧ s.fget F.TRK_SHIFT.PHASE = 1 ∧ s.node.shDecide = 0 ∧ n = s.fget F.TRK_SHIFT_SFN.N then s.confirm id
  else s

/-- The SFN of the next overhead cell to be sent (R177). -/
def State.nextSfn (s : State) : Nat :=
  match List.findSome? (fun t => (s.trunk t).sfDue) s.cellTrunks with
  | some k => k
  | none => (s.fget F.TRK_SFN.SFN + 1) % 2 ^ 32

/-- A write of TRK_SHIFT with GO (R177): a RESULT that refuses it, or the announcement of R178. -/
def State.shiftGo (s : State) : State :=
  let g := s.fget F.TRK_SHIFT.TARGET
  if s.flag F.TRK_NODE.SCHED_MASTER = false ∨ s.csJoined = false then s.fset F.TRK_SHIFT.RESULT 3
  else if s.shiftPending then s.fset F.TRK_SHIFT.RESULT 4
  else if g = s.gearOfHalf s.leader ∨ s.gearValid g = false then s.fset F.TRK_SHIFT.RESULT 5
  else
    let a := s.nextSfn
    let s := s.setNode { s.node with
      shTarget := g, shOwn := true, shAnn := true, shDecide := 0, shFault := false, okSent := false, late := none, lateGo := false }
    let s := s.fsets [(F.TRK_SHIFT.PHASE, 1), (F.TRK_SHIFT_SFN.N, (a + max (s.fget F.TRK_SHIFT.LEAD) 8) % 2 ^ 32)]
    let s := forEach (List.range 8) (fun i s => s.wr (O.TRK_CONFIRMED i) 0) s
    let s := s.confirm s.nodeId
    if a = s.fget F.TRK_SFN.SFN then (s.setNode { s.node with shAnn := false }).sendPhase else s

/-- A write of TRK_SHIFT. DEDUCED, notes/assumptions/45.md. -/
def State.shiftWrite (data : Word) (s : State) : State :=
  let s := s.writeFields O.TRK_SHIFT data
  if bitOf data 31 then s.shiftGo else s

/-- SHIFT_REQUEST (R177): a write of TRK_SHIFT with GO = 1. -/
def execShiftRequest (fn : Nat) (data : Word) (s : State) : Host.Outcome State Fault Refusal :=
  .next (s.access fn O.TRK_SHIFT fun _ s => s.shiftWrite (setBits data 31 1 1))

/-- A phase of a shift to gear `g` at SFN `n` is seen by a joined node that is not its announcer (R178, R179). A phase
whose SFN has passed is stale. DEDUCED, notes/assumptions/45.md. -/
def State.phaseSeen (s : State) (ph g n : Nat) : State :=
  if s.csJoined = false ∨ ph = 0 ∨ s.node.shOwn = true ∨ sfnLater n (s.fget F.TRK_SFN.SFN) = false then s
  else
    let same := s.shiftPending && decide (s.node.shTarget = g ∧ s.fget F.TRK_SHIFT_SFN.N = n)
    let s :=
      if same then s
      else
        (s.setNode { s.node with shTarget := g, shFault := false, okSent := false, late := none, lateGo := false }).fsets
          [(F.TRK_SHIFT.PHASE, 1), (F.TRK_SHIFT_SFN.N, n)]
    let s := s.gearOkCheck
    if ph = 1 ∨ s.fget F.TRK_SHIFT.PHASE ≠ 1 then s
    else
      let s := s.fset F.TRK_SHIFT.PHASE ph
      if ph = 2 ∧ s.gearValid g = false then
        ((s.setNode { s.node with shFault := true }).fset F.TRK_SHIFT.RESULT 7).setFlag F.TRK_SHIFT.SHIFT_FAULT (srcTrunk s.cfg 0 + 10)
      else s

/-- A network cell of the time source with PHASE 0 settles a shift that was late (R179). -/
def State.lateSeen (s : State) (cur : Nat) : State :=
  match s.node.late with
  | some g => s.setNode { s.node with late := if cur = g then some g else none, lateGo := decide (cur = g) }
  | none => s

/-- The decision at the instant of n - 2 (R178). DEDUCED, notes/assumptions/45.md. -/
def State.shiftDecide (s : State) : State :=
  let all := (List.range 8).all fun i => decide (s.rd (O.TRK_MEMBER i) &&& ~~~ s.rd (O.TRK_CONFIRMED i) = 0)
  s.setNode { s.node with shDecide := if all then 2 else 3 }

/-- The end of a shift at the instant of n (R178, R179). -/
def State.shiftEnd (s : State) : State :=
  let ph := s.fget F.TRK_SHIFT.PHASE
  let g := s.node.shTarget
  let s :=
    if ph = 2 then
      if s.node.shFault then s else (s.putGear s.leader g).fset F.TRK_SHIFT.RESULT 1
    else if ph = 3 then s.fset F.TRK_SHIFT.RESULT 2
    else (s.setNode { s.node with late := some g, lateGo := false }).fset F.TRK_SHIFT.RESULT 6
  let s := s.fset F.TRK_SHIFT.PHASE 0
  s.setNode { s.node with shOwn := false, shAnn := false, shDecide := 0, shFault := false, okSent := false }

/-- What a superframe instant with SFN `x` does to a pending shift (R178). -/
def State.shiftInstant (s : State) (x : Nat) : State :=
  if s.shiftPending then
    let n := s.fget F.TRK_SHIFT_SFN.N
    let s := if s.node.shAnn then (s.setNode { s.node with shAnn := false }).sendPhase else s
    let s :=
      if s.node.shOwn = true ∧ s.node.shDecide = 0 ∧ sfnLater n ((x + 1) % 2 ^ 32) && !sfnLater n ((x + 2) % 2 ^ 32) then s.shiftDecide
      else s
    let s :=
      if s.node.shOwn = true ∧ s.fget F.TRK_SHIFT.PHASE = 1 ∧ sfnLater n ((x + 1) % 2 ^ 32) = false then
        let s := if s.node.shDecide = 0 then s.shiftDecide else s
        (s.fset F.TRK_SHIFT.PHASE s.node.shDecide).sendPhase
      else s
    if sfnLater n x then s else s.shiftEnd
  else if s.node.lateGo then
    match s.node.late with
    | some g =>
      ((s.setNode { s.node with late := none, lateGo := false }).putGear s.leader g).setFlag F.TRK_SHIFT.SHIFT_LATE
        (srcTrunk s.cfg 0 + 9)
    | none => s
  else s

/-! ### The superframe instant -/

/-- A 10 µs instant on trunk `t` (R146, R149, R158, R165, R173): the superframe starts at the next cell boundary. -/
def State.trunkInstant (s : State) (t sfn : Nat) : State :=
  let v := s.trunk t
  let q := v.quiet - 1
  s.setTrunk t { v with quiet := q, age := v.age + 1
                        sfDue := if s.cellTrunk t = true ∧ s.sendsFrames t = true ∧ q = 0 then some sfn else v.sfDue }

/-- A 10 µs instant of the Wait-to-Restore timer, in units of 100 ms (R185). -/
def State.wtrInstant (s : State) : State :=
  if s.node.wtr then
    if 10000 ≤ s.node.wtrTicks + 1 then
      (s.setNode { s.node with wtrTicks := 0 }).fset F.TRK_RING_STAT.WTR_LEFT (s.fget F.TRK_RING_STAT.WTR_LEFT - 1)
    else s.setNode { s.node with wtrTicks := s.node.wtrTicks + 1 }
  else s.setNode { s.node with wtrTicks := 0 }

/-- What an instant does for the node as a whole, at the leader half. -/
def State.nodeInstant (s : State) (sfn : Nat) : State :=
  let s := s.fset F.TRK_SFN.SFN sfn
  let s := s.shiftInstant sfn
  let s := s.wtrInstant
  if s.csState = 2 then s.setNode { s.node with cold := s.node.cold + 1 } else s

/-- SUPERFRAME_INSTANT (R110, R146, R158, R178): a 10 µs instant of half `h`'s time base. -/
def execSuperframeInstant (h : Nat) (s : State) : Host.Outcome State Fault Refusal :=
  if s.tbRuns h then
    let sfn := sfnOf (s.tb h).t
    let s := if h = s.leader then s.nodeInstant sfn else s
    let s := forEach ((List.range s.cfg.trunks).filter fun t => s.cfg.halfOfTrunk t == h) (fun t s => s.trunkInstant t sfn) s
    .next (forEach ((List.range 8).filter fun p => s.portUp p && s.cfg.halfOfAnyPort p == h) (fun p s => s.gateRestart p) s)
  else .next s

/-! ### Delay, offset and the servo (R161 to R166) -/

/-- Whether an overhead cell is a network cell (R171). -/
def Oh.network (o : Oh) : Bool := o.joined && !o.cold

/-- The cell time of trunk `t` in 2^-16 ns (R147). -/
def State.cellNs (s : State) (t : Nat) : Int := if s.fget (F.TRK_CFG.MODE t) = 1 then 20 * 65536 else 50 * 65536

/-- Whether two overhead cells of trunk `t` are consistent (R161). -/
def State.consistent (s : State) (t : Nat) (a b : Oh) : Bool :=
  let d := b.stamp - a.stamp - 10000 * 65536
  decide (a.node = b.node ∧ b.sfn = (a.sfn + 1) % 2 ^ 32 ∧ -(s.cellNs t) ≤ d ∧ d ≤ s.cellNs t)

/-- Twice the delay of the exchange that a received cell completes, in 2^-16 ns, if it echoes a kept cell (R164).
DEDUCED, notes/assumptions/43.md. -/
def State.exchange (s : State) (t : Nat) (o : Oh) : Option Int :=
  if o.echoValid then
    match List.find? (fun k : Nat × Int => k.1 % 256 == o.echoSfn) (s.trunk t).kept with
    | some k =>
      let ns := stampParts o.stamp
      let sec : Int := (ns.1 : Int) - (b2n (decide (ns.2.1 < o.echoNs)) : Int)
      let t2 := (sec * 1000000000 + (o.echoNs : Int)) * 65536 + (o.echoFrac : Int)
      some ((o.rx - k.2) - (o.stamp - t2))
    | none => none
  else none

/-- Takes a delay value: discarded and counted outside 0 to 100 µs, otherwise averaged into TRK_LINK_DLY_t (R164). The
value itself comes back where it is accepted. -/
def State.takeDelay (s : State) (t : Nat) (d2 : Int) : Option Nat × State :=
  if d2 < 0 ∨ 100000 * 65536 < d2 then (none, s.fsat (F.TRK_OH_ERR.DLY_BAD t) 1)
  else
    let d := d2.toNat / 2
    let v := s.trunk t
    let all := (d :: v.delays).take 256
    let l := all.take (2 ^ min 8 (s.fget F.TRK_SERVO.DLY_AVG))
    let s := s.setTrunk t { v with delays := all }
    (some d, s.fset (F.TRK_LINK_DLY.DLY t) (l.foldl (· + ·) 0 / l.length))

/-- The offset with delay `d`; TRK_OFFSET takes it, saturating (R164). DEDUCED, notes/assumptions/43.md. -/
def State.takeOffset (s : State) (o : Oh) (d : Nat) : Int × State :=
  let v := o.rx - (o.stamp + (d : Int))
  (v, s.wr O.TRK_OFFSET (BitVec.ofInt 32 (clampInt (-(2 ^ 31)) (2 ^ 31 - 1) v)))

/-- Whether both halves claim the lead, so that each runs its own trunk (01_block_and_halves.md R35). -/
def State.split (s : State) : Bool := s.flag F.BLK_HALF.CLAIM_A && s.flag F.BLK_HALF.CLAIM_B

/-- The half whose rate the servo writes: the leader, or while both halves claim the half of the trunk (R35, R166).
DEDUCED, notes/assumptions/44.md. -/
def State.servoHalf (s : State) (t : Nat) : Nat := if s.split then s.cfg.halfOfTrunk t else s.leader

/-- The integral of the servo that writes half `h`'s rate: while both halves claim each has its own (R35, R166). -/
def State.integralOf (s : State) (h : Nat) : Int := if s.split = true ∧ h ≠ s.leader then (s.half h).integral else s.node.integral

/-- Replaces that integral. -/
def State.setIntegral (s : State) (h : Nat) (i : Int) : State :=
  if s.split = true ∧ h ≠ s.leader then s.setHalf h { s.half h with integral := i } else s.setNode { s.node with integral := i }

/-- One run of the servo with offset `x` (R166): TRK_OFFSET holds it saturated. -/
def State.servoRun (s : State) (h : Nat) (x : Int) : State :=
  let o := clampInt (-(2 ^ 31)) (2 ^ 31 - 1) x
  let u := Int.tdiv (-o * 2 ^ 24) 10000
  let i := clampInt (-rateLimit) rateLimit (s.integralOf h + u / 2 ^ s.fget F.TRK_SERVO.KI)
  (s.setIntegral h i).putRate h (i + u / 2 ^ s.fget F.TRK_SERVO.KP)

/-- The slew of R172: the limit rate that reduces `o`, until it is below 100 ns. DEDUCED, notes/assumptions/44.md. -/
def State.slewRun (s : State) (h : Nat) (o : Int) : State :=
  if (o.natAbs : Int) < 100 * 65536 then
    let s := s.fset F.TRK_CS_STAT.SLEWING 0
    if s.flag (tbFld F.TB_CTL.SERVO h) then s else s.putRate h s.node.savedRate
  else s.putRate h (if 0 < o then -rateLimit else rateLimit)

/-- The rate follows a new offset of trunk `t` (R166, R172): the time source's, or while both halves claim that of the half's own
trunk, with which only the servo works (R35). DEDUCED, notes/assumptions/44.md. -/
def State.steer (s : State) (t : Nat) (o : Int) : State :=
  let h := s.servoHalf t
  if s.flag F.TRK_CS_STAT.SLEWING = true ∧ t = s.fget F.TRK_CS_STAT.SRC then s.slewRun h o
  else if s.flag (tbFld F.TB_CTL.SERVO h) then s.servoRun h o
  else s

/-! ### Cold start and integration (R171, R172) -/

/-- DUP_ID (R171). -/
def State.dupId (s : State) : State := s.setFlag F.TRK_CS_STAT.DUP_ID (srcTrunk s.cfg 0 + 8)

/-- INT_ERR (R172): during integration the node returns to LISTEN; a joined node stays as it is. -/
def State.intErr (s : State) : State :=
  let s := s.setFlag F.TRK_CS_STAT.INT_ERR (srcTrunk s.cfg 0 + 7)
  if s.csState = 3 then s.csListen else s.setNode { s.node with again := false }

/-- Enters INTEGRATING on a network cell of trunk `t` (R171): the servo's integral is cleared (R166). -/
def State.csIntegrate (s : State) (t : Nat) (o : Oh) : State :=
  let s := s.setNode { s.node with cold := 0, integ := 1, again := false, integral := 0 }
  (s.fsets [(F.TRK_CS_STAT.SRC, t), (F.TRK_CS_STAT.MASTER_ID, o.master), (F.TRK_CS_STAT.HOPS, 255)]).stopFrames.csSet 3

/-- The node takes the gear and a pending shift from its source's cell and is joined (R172 step 5). -/
def State.csJoin (s : State) (t : Nat) (o : Oh) : State :=
  let s := s.setNode { s.node with integ := 0, again := false }
  let s := (s.putGear (s.cfg.halfOfTrunk t) o.cur).csSet 4
  let s := (s.showSource t).setJoined 1
  (s.phaseSeen o.phase o.target o.targetSfn).syncTrigs

/-- Corrects the time by offset `x` on the source trunk `t` and joins, or sets INT_ERR (R172 steps 4 and 5).
DEDUCED, notes/assumptions/44.md. -/
def State.csCorrect (s : State) (t : Nat) (o : Oh) (x : Int) : State :=
  let h := s.servoHalf t
  if s.flag (tbFld F.TB_STAT.STEP_USED h) = false then
    match s.stepTarget h (-x) with
    | some v => (s.applyStep h v true).csJoin t o
    | none => s.intErr
  else if x.natAbs ≤ s.fget F.TRK_CS_CFG.NOSTEP_LIM * 65536 then s.csJoin t o
  else if s.node.again then
    let s := (s.csJoin t o).setNode { (s.csJoin t o).node with savedRate := s.tbRate h }
    (s.fset F.TRK_CS_STAT.SLEWING 1).slewRun h x
  else s.intErr

/-- A good overhead cell `o` of trunk `t` in the cold-start table (R171). DEDUCED, notes/assumptions/44.md. -/
def State.csTable (s : State) (t : Nat) (o : Oh) : State :=
  let st := s.csState
  if o.cold then
    let dup := decide (o.node = s.nodeId)
    let s := if dup = true ∧ st ≠ 0 then s.dupId else s
    if st = 2 ∧ o.node ≤ s.nodeId then s.csListen else s
  else if o.joined then
    if st = 1 ∨ st = 2 then s.csIntegrate t o
    else if (st = 4 ∨ st = 5) ∧ o.master < s.fget F.TRK_CS_STAT.MASTER_ID then
      (s.setNode { s.node with again := true }).csSet 4
    else s
  else s

/-- Step 1 of R172: two consistent network cells on the trunk chosen under R165. -/
def State.csFirst (s : State) (t : Nat) (o : Oh) (before : Option Oh) : State :=
  match before with
  | some p =>
    if s.csState = 3 ∧ s.node.integ = 1 ∧ s.bestSource = some t ∧ p.network = true ∧ o.network = true ∧ s.consistent t p o = true then
      (s.setNode { s.node with integ := 2 }).fsets [(F.TRK_CS_STAT.SRC, t), (F.TRK_CS_STAT.MASTER_ID, o.master)]
    else s
  | none => s

/-- The exchange of a received cell (R164): delay, offset, and what an integrating or joined node does with them. -/
def State.ohTime (s : State) (t : Nat) (o : Oh) : State :=
  match s.exchange t o with
  | none => s
  | some d2 =>
    match s.takeDelay t d2 with
    | (none, s) => s
    | (some d, s) =>
      let mine := decide (t = s.fget F.TRK_CS_STAT.SRC)
      if mine = true ∧ ((s.csState = 3 ∧ s.node.integ = 2) ∨ (s.csState = 4 ∧ s.node.again = true)) then
        let r := s.takeOffset o d
        r.2.csCorrect t o r.1
      else
        let r := s.takeOffset o (s.fget (F.TRK_LINK_DLY.DLY t))
        if s.csState = 4 ∧ ((mine = true ∧ s.flag F.TRK_CS_STAT.HOLDOVER = false) ∨ (s.split = true ∧ o.network = true)) then
          r.2.steer t r.1
        else r.2

/-! ### Requests received (R182, R183) -/

/-- A request-carrying cell with pair `p` on trunk `t`: the latest pair, and the filter (R182, R183). -/
def State.takePair (s : State) (t : Nat) (code orig : Nat) : State :=
  let p := (normCode code, orig)
  let v := s.trunk t
  let n := if v.filt = p then v.filtCnt + 1 else 1
  let s := s.setTrunk t { v with got := p, filt := p, filtCnt := n }
  let s := if max 2 (s.fget (F.TRK_PROT_CFG.PERSIST t)) ≤ n then s.setEff t p else s
  s.protUpdate.fixDegraded

/-! ### Received cells -/

/-- A good overhead cell of trunk `t`. -/
def State.overheadIn (s : State) (t : Nat) (o : Oh) : State :=
  let v := s.trunk t
  let s := (s.setTrunk t { v with last := some o, prev := v.last, age := 0, sfHeld := false }).sfUpdate
  let s := s.csTable t o
  let s := s.sourceUpdate
  let s := s.csFirst t o v.last
  let s := s.ohTime t o
  let s := s.phaseSeen o.phase o.target o.targetSfn
  let s :=
    if s.csState = 4 ∧ o.network = true ∧ o.phase = 0 ∧ t = s.fget F.TRK_CS_STAT.SRC then s.lateSeen o.cur else s
  let s := if o.gearOk = true ∧ o.phase ≠ 0 then s.confirmSeen o.node o.targetSfn else s
  s.takePair t o.code o.orig

/-- OVERHEAD_CELL_RECEIVE (R160, R164): the oldest received overhead cell of trunk `t`. -/
def execOverheadCellReceive (t : Nat) (s : State) : Host.Outcome State Fault Refusal :=
  match (s.trunk t).ohIn with
  | [] => .next s
  | (p, rx) :: rest =>
    let s := s.setTrunk t { s.trunk t with ohIn := rest }
    if payloadCrcGood p then .next (s.overheadIn t (readOverhead p rx)) else .next (s.fsat (F.TRK_OH_ERR.CRC_BAD t) 1)

/-- Relays an urgent message of type 2 or 3 on the other trunk, once for each (TYPE, ORIGIN, PHASE, TARGET_SFN), never one
of its own (R170). DEDUCED, notes/assumptions/43.md. -/
def State.relay (s : State) (t typ orig arg sfn : Nat) : State :=
  let k := (typ, orig, if typ = 2 then arg % 4 else 0, sfn)
  if orig = s.nodeId ∨ k ∈ s.node.relayed then s
  else
    let s := s.setNode { s.node with relayed := k :: s.node.relayed }
    if s.cellTrunk (1 - t) then s.queueUrgent (1 - t) { typ := typ, copy := 0, orig := orig, arg := arg, sfn := sfn } else s

/-- A good urgent cell of trunk `t`, by its type (R168, R170, R178, R182). -/
def State.urgentIn (s : State) (t : Nat) (p : List Byte) : State :=
  let f (i k : Nat) : Nat := beNat (slice p i k)
  let typ := f 0 1
  let orig := f 3 1
  let arg := f 4 1
  let sfn := f 6 4
  if typ = 1 then s.takePair t (arg / 16) orig
  else if typ = 2 then
    let s := if orig = s.nodeId then s else s.phaseSeen (arg % 4) (arg / 4 % 8) sfn
    s.relay t 2 orig arg sfn
  else if typ = 3 then (s.confirmSeen orig sfn).relay t 3 orig arg sfn
  else s.fsat (F.TRK_OH_ERR.UM_BAD t) 1

/-- URGENT_CELL_RECEIVE (R160, R168, R170): the oldest received urgent cell of trunk `t`. -/
def execUrgentCellReceive (t : Nat) (s : State) : Host.Outcome State Fault Refusal :=
  match (s.trunk t).umIn with
  | [] => .next s
  | (p, _) :: rest =>
    let s := s.setTrunk t { s.trunk t with umIn := rest }
    if payloadCrcGood p then .next (s.urgentIn t p) else .next (s.fsat (F.TRK_OH_ERR.CRC_BAD t) 1)

/-! ### Timers of cold start -/

/-- LISTEN_TIMER_EXPIRY (R171): a capable node starts sending cold-start cells. -/
def execListenTimerExpiry (s : State) : Host.Outcome State Fault Refusal :=
  if s.csState = 1 ∧ s.flag F.TRK_NODE.CS_CAP = true then
    .next (((s.setNode { s.node with cold := 0 }).fsets
      [(F.TRK_CS_STAT.MASTER_ID, s.nodeId), (F.TRK_CS_STAT.HOPS, 0), (F.TRK_SHIFT.PHASE, 0)]).csSet 2)
  else .next s

/-- COLDSEND_COMPLETE (R171): the 8th own cold-start superframe has been sent; the node is master and joined. -/
def execColdsendComplete (s : State) : Host.Outcome State Fault Refusal :=
  if s.csState = 2 ∧ 8 ≤ s.node.cold then .next (((s.csSet 5).setJoined 1).syncTrigs) else .next s

/-- SOURCE_LOSS_TIMEOUT (R171): the source's cell has been missing for 3 superframe times during integration. -/
def execSourceLossTimeout (s : State) : Host.Outcome State Fault Refusal :=
  if s.csState = 3 ∧ 3 ≤ (s.trunk (s.fget F.TRK_CS_STAT.SRC)).age then .next s.csListen else .next s

/-! ### Switching commands (R180) -/

/-- Forced Switch on port `t`; none in Gweip-S (R188). -/
def State.forcedSwitch (t : Nat) (s : State) : State :=
  if s.cfg = .s ∨ t ∈ s.node.forced then s
  else (s.setNode { s.node with forced := t :: s.node.forced }).protUpdate.fixDegraded

/-- Manual Switch on port `t`, refused while a higher request is in effect at the node. -/
def State.manualSwitch (t : Nat) (s : State) : State :=
  if s.cfg = .s then s
  else if 7 < s.topRequest.1 then s.setFlag (F.TRK_PROT_STAT.MS_REFUSED t) (srcTrunk s.cfg t + 5)
  else if t ∈ s.node.manual then s
  else (s.setNode { s.node with manual := t :: s.node.manual }).protUpdate.fixDegraded

/-- Lockout at the node. -/
def State.lockoutCmd (s : State) : State :=
  if s.cfg = .s then s else (s.setNode { s.node with lockout := true }).protUpdate.fixDegraded

/-- The node's own Lockout, Forced and Manual Switches end. -/
def State.clearCmd (s : State) : State :=
  (s.setNode { s.node with lockout := false, forced := [], manual := [] }).protUpdate.fixDegraded

/-- A write of TRK_PROT_CMD_t: other values have no effect (R180). DEDUCED, notes/assumptions/46.md. -/
def State.protCmd (t : Nat) (data : Word) (s : State) : State :=
  let c := getBits data 0 3
  if c = 1 then s.forcedSwitch t
  else if c = 2 then s.manualSwitch t
  else if c = 3 then s.lockoutCmd
  else if c = 4 then s.clearCmd
  else s

/-- FORCED_SWITCH (R180). -/
def execForcedSwitch (fn t : Nat) (s : State) : Host.Outcome State Fault Refusal :=
  .next (s.access fn (O.TRK_PROT_CMD t) fun _ s => s.protCmd t 1)

/-- MANUAL_SWITCH (R180). -/
def execManualSwitch (fn t : Nat) (s : State) : Host.Outcome State Fault Refusal :=
  .next (s.access fn (O.TRK_PROT_CMD t) fun _ s => s.protCmd t 2)

/-- LOCKOUT (R180). -/
def execLockout (fn t : Nat) (s : State) : Host.Outcome State Fault Refusal :=
  .next (s.access fn (O.TRK_PROT_CMD t) fun _ s => s.protCmd t 3)

/-- CLEAR_COMMAND (R180). -/
def execClearCommand (fn t : Nat) (s : State) : Host.Outcome State Fault Refusal :=
  .next (s.access fn (O.TRK_PROT_CMD t) fun _ s => s.protCmd t 4)

/-- SIGNAL_FAIL_LOCAL (R181): the hold-off outside SYNC, or 3 superframe times of overhead silence, have passed.
DEDUCED, notes/assumptions/46.md. -/
def execSignalFailLocal (t : Nat) (s : State) : Host.Outcome State Fault Refusal :=
  let v := s.trunk t
  if s.cellTrunk t = true ∧ (s.fget (F.TRK_STAT.DELIN t) ≠ 2 ∨ (v.last.isSome = true ∧ 3 ≤ v.age)) then
    .next (s.setTrunk t { v with sfHeld := true }).sfUpdate.fixDegraded
  else .next s

/-- SD_WINDOW_END (R181): the end of a window of 1,000 superframes. -/
def execSdWindowEnd (t : Nat) (s : State) : Host.Outcome State Fault Refusal :=
  if s.cellTrunk t then
    let n := (s.trunk t).sdBad
    let thr := s.fget (F.TRK_PROT_CFG.SD_THR t)
    let s := s.setTrunk t { s.trunk t with sdBad := 0 }
    let s := if thr < n then s.fset (F.TRK_PROT_STAT.SD t) 1 else if n ≤ thr / 2 then s.fset (F.TRK_PROT_STAT.SD t) 0 else s
    .next s.protUpdate.fixDegraded
  else .next s

/-- WTR_EXPIRY (R185): the owner blocks OWNER_PORT, its own request becomes No Request, and the ring returns to IDLE. -/
def execWtrExpiry (s : State) : Host.Outcome State Fault Refusal :=
  if s.ringRole = 2 ∧ s.ringState = 2 ∧ s.node.wtr = true then
    let s := (s.block (s.fget F.TRK_RING_CFG.OWNER_PORT) 1).setWtr false 0
    .next (s.flushRing.fset F.TRK_RING_STAT.STATE 0).protUpdate.fixDegraded
  else .next s

/-- A write of TRK_RING_CFG (R184): in IDLE the blocks follow the new role and OWNER_PORT; only an owner waits to restore (R180). -/
def State.ringCfgWrite (data : Word) (s : State) : State :=
  let s := s.writeFields O.TRK_RING_CFG data
  let s := if s.ringRole = 2 then s else s.setWtr false 0
  if s.ringRole = 0 ∨ s.ringState = 0 then
    let s := forEach (List.range s.cfg.trunks) (fun t s =>
      if s.ringRole ≠ 0 ∧ isSwitch (s.portRequest t) = true then s else s.block t 0) s
    let s := if s.ringRole = 0 then (s.fset F.TRK_RING_STAT.STATE 0).fset F.BLK_MODE.PROT 0 else s
    s.protUpdate.fixDegraded
  else s

end Sys2Proof.Machine
end

