-- ==== Sys2Proof/Machine/Dict.lean ====
section
/-!
DEFINITION. The parameter dictionary: host commands, the network mailbox, ownership, commits, the two-slot store and the
restore (17_parameter_dictionary.md R397 to R415).
-/
namespace Sys2Proof.Machine

/-! ### Reading values -/

/-- The objects whose reads take the register itself or the identity area (R400, R410), by index.
DESIGN CHOICE, notes/assumptions/61.md. -/
def liveIndex (i : Nat) : Bool :=
  [0x1001, 0x1002, 0x1010, 0x1018, 0x1100, 0x1103, 0x1104, 0x1110, 0x1111, 0x3000, 0x5000, 0x5800, 0x5801].contains i ||
    decide (0x4000 ≤ i ∧ i < 0x4100)

/-- The bytes of a time value: seconds, nanoseconds, fraction (R398). -/
def timeBytes (t : Nat) : List Byte := natLe 6 (timeSec t) ++ natLe 4 (timeNs t) ++ natLe 2 (timeFrac t)

/-- The value of a live object; `none` where its island is not ON (R400). DESIGN CHOICE, notes/assumptions/61.md. -/
def State.liveVal (s : State) (i sub : Nat) : Option (List Byte) :=
  if i = 0x1001 then some (natLe 4 (s.rd O.BLK_ID).toNat)
  else if i = 0x1002 then some (natLe 8 (s.rd64 O.BLK_CAP))
  else if i = 0x1010 then some (natLe 8 Config.serial.toNat)
  else if i = 0x1018 then some (natLe 4 (s.rd O.DIC_SEQ).toNat)
  else if i = 0x1100 then some (natLe 1 s.mode)
  else if i = 0x1103 then some (natLe 1 s.leader)
  else if i = 0x1104 then some (natLe 2 (s.fget F.BLK_HALF.EPOCH))
  else if i = 0x1110 then some (natLe 4 (s.rd O.FLT_CNT).toNat)
  else if i = 0x1111 then some (natLe 4 (s.rd (logWord ((s.fget F.FLT_STAT.NEXT + 31) % 32) (sub - 1))).toNat)
  else if i = 0x3000 then if s.islandUp (O.TB_SNAP_NS + tbOfs s.leader) then some (timeBytes s.leaderTime) else none
  else if i = 0x5000 then some (natLe 4 (s.rd O.PWR_LASTWAKE).toNat)
  else if i = 0x5800 then if s.islandUp O.CHK_SEAL then some (natLe 1 (s.fget F.CHK_SEAL.SEALED)) else none
  else if i = 0x5801 then if s.islandUp O.CHK_SEAL then some (natLe 4 s.digest) else none
  else
    let f := i % 256
    let v := s.func f
    some (if sub = 1 then natLe 1 v.state else if sub = 2 then natLe 2 (s.qpUse f) else if sub = 3 then natLe 2 (s.granUse f)
      else natLe 4 (v.maxQp % 8192 * 2 ^ 16 + v.maxGran))

/-- The value that a read of an existing object returns, or its abort code. -/
def State.readVal (s : State) (k : Nat) (o : Obj) : Nat ⊕ List Byte :=
  if liveIndex (k / 256) = true ∧ o.d.acc ≠ 1 ∧ (k % 256 ≠ 0 ∨ (blockSubs s.cfg (k / 256)).contains 0 = true) then
    match s.liveVal (k / 256) (k % 256) with
    | some v => .inr v
    | none => .inl 0x0303
  else .inr (s.dicVal k o.d)

/-- The size of an object; of a VSTRING its current length (R403). -/
def State.objSize (s : State) (k : Nat) (o : Obj) : Nat := if o.d.typ = 12 then (s.dicVal k o.d).length else o.d.size

/-- The word of DIC_INFO. -/
def State.infoWord (s : State) (k : Nat) (o : Obj) : Nat :=
  o.d.typ * 2 ^ 28 + o.d.acc * 2 ^ 25 + b2n o.d.reachH * 2 ^ 24 + b2n o.d.reachN * 2 ^ 23 + b2n o.d.persist * 2 ^ 22 +
    b2n o.d.served * 2 ^ 21 + b2n (s.dic.dirty.contains k) * 2 ^ 20 + s.objSize k o % 2 ^ 16

/-! ### Requests (R399, R403, R408) -/

/-- The write owner: 1 host, 2 network (R408). -/
def State.dicOwner (s : State) : Nat := leNat (s.dicVal 0x110500 (blockObj s.cfg 0x1105 0).d)

/-- The abort code of a request on an existing object, 0 where it may go on: `op` 1 READ, 2 WRITE, 3 INFO, from the network
or the host; the value is judged apart. DESIGN CHOICE, notes/assumptions/56.md. -/
def State.dicCheck (s : State) (net : Bool) (op k : Nat) (o : Obj) (ofs len : Nat) : Nat :=
  let d := o.d
  let n := s.objSize k o
  if (if net then d.reachN else d.reachH) = false then 0x0205
  else if op = 3 then 0
  else if op = 2 ∧ (d.acc = 0 ∨ d.acc = 4) then 0x0201
  else if op = 1 ∧ d.acc = 2 then 0x0202
  else if op = 2 ∧ d.acc = 3 ∧ s.mode ≠ 2 then 0x0203
  else if op = 2 ∧ 0x5810 ≤ k / 256 ∧ k / 256 < 0x5814 ∧ s.flag F.CHK_SEAL.SEALED = true then 0x0204
  else if op = 2 ∧ d.reachH = true ∧ d.reachN = true ∧ s.dicOwner ≠ (if net then 2 else 1) then 0x0206
  else if len = 0 ∨ 256 < len then 0x0103
  else if d.typ = 12 then
    if op = 2 then (if ofs ≠ 0 then 0x0103 else if 255 < len then 0x0105 else 0)
    else if d.served = false ∧ n ≤ ofs then 0x0104
    else 0
  else if n ≤ ofs then 0x0104
  else if op = 2 then
    if d.typ = 13 then (if n < ofs + len then 0x0103 else 0)
    else if ofs ≠ 0 ∨ len ≠ n then 0x0103
    else 0
  else 0

/-- Whether a value is outside its type, or outside what object 0x1105 takes (R401, R408).
DESIGN CHOICE, notes/assumptions/56.md. -/
def badValue (k : Nat) (d : ObjDef) (v : List Byte) : Bool :=
  (d.typ == 0 && decide (1 < leNat v)) || (k == 0x110500 && !(decide (leNat v = 1 ∨ leNat v = 2)))

/-- A write to a mirrored register under its own rules (R400); while its half's ticks are lost it waits in the crossing. -/
def State.mirPut (s : State) (key : Nat) (data : Word) : State :=
  let keep := s.slv
  let late := match tbIsland s.cfg key with
    | some h => if (s.tb h).lost then some h else none
    | none => none
  let s := match late with
    | some h => s.setTb h { s.tb h with waiting := (s.tb h).waiting ++ [(key, data)] }
    | none =>
      if key = O.TRK_RING_CFG then s.ringCfgWrite data
      else if key = O.TRK_NODE then (s.writeFields key data).protUpdate.fixDegraded
      else if O.CTU_TRIG_CFG 0 ≤ key ∧ key < O.CTU_TRIG_CFG 32 then s.trigWrite ((key - O.CTU_TRIG_CFG 0) / 16) key data
      else s.writeFields key data
  s.setSlv keep

/-- The register that an object mirrors follows its new value while its island is ON (R400). -/
def State.mirStore (s : State) (o : Obj) (v : List Byte) : State :=
  match o.mir with
  | some m =>
    if s.islandUp m.key then forEach (List.range m.words) (fun i s => s.mirPut (m.key + 4 * i) (s.mirWord m (leNat v) i)) s else s
  | none => s

/-- Gives an object a value by a dictionary path: the spine copy and the register (R400). -/
def State.putVal (s : State) (k : Nat) (o : Obj) (v : List Byte) : State := (s.setVal k o.d v).mirStore o v

/-- The new value that a WRITE gives. -/
def State.writeVal (s : State) (k : Nat) (o : Obj) (ofs : Nat) (data : List Byte) : List Byte :=
  if o.d.typ = 13 then patch (s.dicVal k o.d) ofs data else data

/-- What a request ends with: abort code, bytes returned. -/
structure DicAns where
  code : Nat := 0
  bytes : List Byte := []
deriving DecidableEq, Repr

/-- Carries out a READ, WRITE or INFO of an object that is not SERVED (R403, R405). DESIGN CHOICE, notes/assumptions/56.md. -/
def State.dicRequest (s : State) (net : Bool) (op k ofs : Nat) (len : Nat) (data : List Byte) : DicAns × State :=
  match s.object k with
  | .inl a => ({ code := a }, s)
  | .inr o =>
    let a := s.dicCheck net op k o ofs len
    if a ≠ 0 then ({ code := a }, s)
    else if o.d.served = true ∧ net = true then ({ code := 0x0305 }, s)
    else if op = 3 then ({ bytes := natLe 4 (s.infoWord k o) }, s)
    else if op = 1 then
      match s.readVal k o with
      | .inl a => ({ code := a }, s)
      | .inr v => ({ bytes := slice v ofs len }, s)
    else
      let v := s.writeVal k o ofs (data.take len)
      if badValue k o.d v then ({ code := 0x0105 }, s) else ({}, s.putVal k o v)

/-! ### The host's side (R403) -/

/-- DIC_DATA's first bytes. -/
def State.dicData (s : State) (n : Nat) : List Byte :=
  (((List.range 64).map fun i => natLe 4 (s.rd (O.DIC_DATA i)).toNat).flatten).take n

/-- Puts bytes into DIC_DATA from byte 0 on; the bytes after them keep their value. -/
def State.putDicData (s : State) (bs : List Byte) : State :=
  forEach (List.range ((bs.length + 3) / 4)) (fun i s =>
    s.wr (O.DIC_DATA i) (BitVec.ofNat 32 (leNat (slice (bs ++ (s.dicData 256).drop bs.length) (4 * i) 4)))) s

/-- The key that DIC_IDX names. -/
def State.dicKey (s : State) : Nat := s.fget F.DIC_IDX.INDEX * 256 + s.fget F.DIC_IDX.SUB

/-- A host command ends: RESULT, ABORT, source 24. -/
def State.dicEnd (s : State) (result code : Nat) : State :=
  (s.fsets [(F.DIC_STAT.RESULT, result), (F.DIC_STAT.ABORT, code), (F.DIC_STAT.BUSY, 0)]).raise 24

/-- A host command ends with an abort code, or done. -/
def State.dicDone (s : State) (code : Nat) : State := s.dicEnd (if code = 0 then 1 else 2) code

/-- The end of a host READ, WRITE or INFO. -/
def State.dicAnswer (s : State) (op : Nat) (a : DicAns) : State :=
  let s :=
    if a.code ≠ 0 then s
    else if op = 1 then (s.putDicData a.bytes).fset F.DIC_CMD.LEN a.bytes.length
    else if op = 3 then s.wr O.DIC_INFO (BitVec.ofNat 32 (leNat a.bytes))
    else s
  s.dicDone a.code

/-! ### The mailbox (R404 to R406) -/

/-- The engine of the mailbox, while it is in use and the engine is powered. DESIGN CHOICE, notes/assumptions/56.md. -/
def State.mbxEngine (s : State) : Option Nat :=
  let e := s.fget F.DIC_MBX.ENGINE
  if s.flag F.DIC_MBX.EN = true ∧ e < s.cfg.engines ∧ s.domOn (4 + s.cfg.clusterOf e) = true then some e else none

/-- Place of mailbox byte `o` in the engine's memories. -/
def State.mbxAt (s : State) (o : Nat) : Nat := 0x20000 + 16 * s.fget F.DIC_MBX.OFS + o

/-- A mailbox word. -/
def State.mbxWord (s : State) (e o : Nat) : Nat := leNat (s.ebytes e (s.mbxAt o) 4)

/-- Writes mailbox bytes. -/
def State.mbxPut (s : State) (e o : Nat) (bs : List Byte) : State := s.eput e (s.mbxAt o) bs

/-- Carries out the network request in the mailbox (R405): DATA and RSP with DONE = 1 are written, GO clears.
DESIGN CHOICE, notes/assumptions/57.md. -/
def State.mbxRun (s : State) (e : Nat) : State :=
  let w := s.mbxWord e 0
  let op := w / 2 ^ 24 % 16
  let len := w % 512
  let r : DicAns × State :=
    if s.flag F.DIC_STAT.READY = false ∨ op = 0 ∨ 3 < op then ({ code := 0x0302 }, s)
    else if s.mode = 1 then ({ code := 0x0301 }, s)
    else
      let n := s.mbxWord e 4
      s.dicRequest true op (n / 2 ^ 16 * 256 + n / 2 ^ 8 % 256) (s.mbxWord e 8 % 2 ^ 16) len (s.ebytes e (s.mbxAt 0x10) 256)
  let s := if r.1.code = 0 ∧ op ≠ 2 then r.2.mbxPut e 0x10 r.1.bytes else r.2
  let s := s.mbxPut e 0xC (natLe 4 (2 ^ 31 + r.1.bytes.length * 2 ^ 16 + r.1.code))
  s.mbxPut e 0 (natLe 4 (w % 2 ^ 31))

/-- Forwards a host request for a SERVED object (R406). DESIGN CHOICE, notes/assumptions/57.md. -/
def State.forward (s : State) (op k ofs len : Nat) (data : List Byte) : State :=
  match s.mbxEngine with
  | none => s.dicDone 0x0304
  | some e =>
    if s.flag (F.CE_CTL.RUN e) then
      let s := (s.mbxPut e 0x114 (natLe 4 (k * 256))).mbxPut e 0x118 (natLe 4 ofs)
      let s := if op = 2 then s.mbxPut e 0x120 (data.take len) else s
      let s := s.mbxPut e 0x110 (natLe 4 (2 ^ 31 + op * 2 ^ 24 + len % 512))
      (s.setDic { s.dic with fwd := some ⟨op, k⟩ }).fset F.DIC_STAT.BUSY 1
    else s.dicDone 0x0304

/-- Ends a forwarded command: PEND clears, and a network request that waited is carried out (R406, R407).
DESIGN CHOICE, notes/assumptions/57.md. -/
def State.forwardEnd (s : State) (op : Nat) (a : DicAns) : State :=
  let waits := s.dic.mbxWait
  let s := s.setDic { s.dic with fwd := none, mbxWait := false }
  match s.mbxEngine with
  | some e =>
    let s := (s.mbxPut e 0x110 (natLe 4 (s.mbxWord e 0x110 % 2 ^ 31))).dicAnswer op a
    if waits then s.mbxRun e else s
  | none => s.dicAnswer op a

/-- A host READ, WRITE or INFO (R402, R403, R406): a request for a SERVED object is forwarded. -/
def State.hostRequest (s : State) (op len : Nat) : State :=
  let k := s.dicKey
  let ofs := s.fget F.DIC_OFS.OFS
  let data := s.dicData 256
  let served := match s.object k with
    | .inr o => o.d.served && decide (s.dicCheck false op k o ofs len = 0)
    | .inl _ => false
  if served then s.forward op k ofs len data
  else
    let r := s.dicRequest false op k ofs len data
    r.2.dicAnswer op r.1

/-! ### Commits and the store (R410 to R413) -/

/-- Bytes padded to a multiple of 4. -/
def pad4 (bs : List Byte) : List Byte := bs ++ List.replicate ((4 - bs.length % 4) % 4) 0

/-- The definition word of a host-defined object, with the size of its default. DESIGN CHOICE, notes/assumptions/60.md. -/
def defWord (d : ObjDef) : Nat :=
  d.typ * 2 ^ 28 + d.acc * 2 ^ 25 + b2n d.reachH * 2 ^ 24 + b2n d.reachN * 2 ^ 23 + b2n d.persist * 2 ^ 22 +
    b2n d.served * 2 ^ 21 + d.size % 2 ^ 16

/-- A record of the payload (R410): index, sub-index, type, size, value; of a host-defined object also its definition word
and default (the layout of these is the model's, notes/assumptions/60.md). -/
def storeRec (k : Nat) (d : ObjDef) (v : List Byte) : List Byte :=
  natLe 2 (k / 256) ++ natLe 1 (k % 256) ++ natLe 1 d.typ ++ natLe 2 v.length ++ pad4 v ++
    (if hostRange (k / 256) then natLe 4 (defWord d) ++ pad4 d.dflt else [])

/-- The definition of a persistent object. -/
def State.persistDef (s : State) (k : Nat) : ObjDef :=
  match KMap.find? s.dic.defs k with
  | some d => d
  | none => (blockObj s.cfg (k / 256) (k % 256)).d

/-- The payload with the values of `vals`. -/
def State.storeBytes (s : State) (vals : KMap (List Byte)) : List Byte :=
  (s.persistKeys.map fun k => storeRec k (s.persistDef k) ((KMap.find? vals k).getD (s.persistDef k).dflt)).flatten

/-- The slot's two words that make it valid, and its CRC (R410). DESIGN CHOICE, notes/assumptions/59.md. -/
def Slot.valid (x : Slot) : Bool :=
  decide (x.magic = 0x44575331) && decide (x.commit = 0xA5C30001) && decide (x.len = x.payload.length) &&
    decide (x.crc = BitVec.ofNat 32 (crc32c x.payload))

/-- SEQ `a` is later than `b` (R414). -/
def seqLater (a b : Word) : Bool := decide (1 ≤ (a - b).toNat ∧ (a - b).toNat < 2 ^ 31)

/-- The newest valid slot: 0 A, 1 B (R413, R414). DESIGN CHOICE, notes/assumptions/59.md. -/
def State.newest (s : State) : Option Nat :=
  match s.dic.slotA.valid, s.dic.slotB.valid with
  | false, false => none
  | true, false => some 0
  | false, true => some 1
  | true, true => some (if seqLater s.dic.slotB.seq s.dic.slotA.seq then 1 else 0)

/-- Slot `n`. -/
def State.slotOf (s : State) (n : Nat) : Slot := if n = 0 then s.dic.slotA else s.dic.slotB

/-- Replaces slot `n`. -/
def State.setSlot (s : State) (n : Nat) (v : Slot) : State :=
  if n = 0 then s.setDic { s.dic with slotA := v } else s.setDic { s.dic with slotB := v }

/-- A commit ends with a failure: STORE_FAIL and source 26 (R412, R413). DESIGN CHOICE, notes/assumptions/58.md. -/
def State.storeFail (s : State) : State := (s.fset F.DIC_STAT.STORE_FAIL 1).raise 26

/-- A store write has failed (R413): fault 0x06 too (18_faults_and_selftest.md R416). -/
def State.storeError (s : State) : State :=
  let s := s.storeFail
  s.logFault 0x06 0 (s.rd O.DIC_STAT).toNat .l

/-- Starts a commit (R412, R413): the abort code, 0 where it runs. One asked for while another runs waits for its end.
DESIGN CHOICE, notes/assumptions/58.md. -/
def State.startCommit (s : State) : Nat × State :=
  if s.dic.commit.isSome then (0, s.setDic { s.dic with queued := true })
  else if 65472 < (s.storeBytes s.dic.vals).length then (0x0306, s.storeFail)
  else
    let l := s.persistKeys
    let slot := match s.newest with
      | some n => 1 - n
      | none => 0
    let seq : Word := match s.newest with
      | some n => (s.slotOf n).seq + 1
      | none => 1
    let c : Commit := { slot := slot, seq := seq, vals := s.dic.vals, cleared := s.dic.dirty.filter fun k => l.contains k }
    let s := s.setDic { s.dic with commit := some c, dirty := s.dic.dirty.filter fun k => !l.contains k }
    (0, (s.fset F.DIC_STAT.COMMITTING 1).showDirty)

/-- The slot that a commit writes, with the objects of `late` captured with their present values (R412). -/
def State.commitSlot (s : State) (c : Commit) (late : List Nat) : Slot :=
  let vals := late.foldl (fun (m : KMap (List Byte)) k =>
    match KMap.find? s.dic.vals k with
    | some v => KMap.insert m k v
    | none => KMap.erase m k) c.vals
  let p := s.storeBytes vals
  { magic := 0x44575331, seq := c.seq, len := p.length, crc := BitVec.ofNat 32 (crc32c p), commit := 0xA5C30001, payload := p }

/-- The commit under way is abandoned in step `step` (R413, R415): from step 2 on its slot is not valid, and with step 5 completed
(6) it is; before that what it had cleared is dirty again. DESIGN CHOICE, notes/assumptions/58.md. -/
def State.dropCommit (s : State) (step : Nat) : State :=
  match s.dic.commit with
  | none => s
  | some c =>
    let old := s.slotOf c.slot
    let s := s.setSlot c.slot (if step ≤ 1 then old else if step ≤ 5 then { old with commit := 0 } else s.commitSlot c [])
    let again := if step ≤ 5 then c.cleared.filter fun k => !s.dic.dirty.contains k else []
    ((s.setDic { s.dic with commit := none, dirty := s.dic.dirty ++ again }).fset F.DIC_STAT.COMMITTING 0).showDirty

/-- After a commit: one that waits starts, and a last gasp may end (R412; 16_power_and_wake.md R395). -/
def State.commitNext (s : State) : State :=
  let s :=
    if s.dic.queued then (s.setDic { s.dic with queued := false }).startCommit.2
    else match s.gasp with
      | some g => s.setGasp (some { g with commit := false })
      | none => s
  s.gaspCheck

/-- STORE_COMMIT_DONE (R413): the commit's last step, or a store error. `late` names the objects whose record was written
after they had changed; none once a last gasp has started. -/
def execStoreCommitDone (err : Bool) (late : List Nat) (s : State) : Host.Outcome State Fault Refusal :=
  match s.dic.commit with
  | none => .next s
  | some c =>
    if err then .next (s.dropCommit 5).storeError.commitNext
    else
      let s := s.setSlot c.slot (s.commitSlot c (if s.gasp.isSome then [] else late))
      let s := s.setDic { s.dic with commit := none }
      let s := s.fsets [(F.DIC_STAT.COMMITTING, 0), (F.DIC_STAT.SLOT, c.slot), (F.DIC_SEQ.SEQ, c.seq.toNat)]
      .next (s.raise 25).commitNext

/-- AUTO_COMMIT_TIMER (R412): a dirty object has stayed unchanged for HOLD_MS. -/
def execAutoCommitTimer (s : State) : Host.Outcome State Fault Refusal :=
  if s.flag F.DIC_CFG.AUTO = true ∧ s.flag F.DIC_STAT.READY = true ∧ s.flag F.DIC_STAT.DIRTY = true then .next s.startCommit.2
  else .next s

/-- The commit of a last gasp (R395, R413): one under way restarts with every dirty object.
DESIGN CHOICE, notes/assumptions/58.md. -/
def State.gaspCommit (s : State) : State :=
  let r := (s.dropCommit 5).startCommit
  (r.2.setGasp (r.2.gasp.map fun g => { g with commit := r.2.dic.commit.isSome })).gaspCheck

/-! ### Defining objects (R402) -/

/-- The definition that DIC_DATA spells, with its default padded with zeros to the size. -/
def defOf (data : List Byte) (len : Nat) : ObjDef :=
  let w := leNat (data.take 4)
  let served := decide (w / 2 ^ 21 % 2 = 1)
  let size := w % 2 ^ 16
  let dflt := (data.take len).drop 4
  { typ := w / 2 ^ 28 % 16, acc := w / 2 ^ 25 % 8, reachH := decide (w / 2 ^ 24 % 2 = 1), reachN := decide (w / 2 ^ 23 % 2 = 1)
    persist := decide (w / 2 ^ 22 % 2 = 1) && !served, served := served, size := size
    dflt := if served then [] else (dflt ++ List.replicate (size - dflt.length) 0).take size }

/-- Whether a type and a size agree with R398. -/
def sizeOk (d : ObjDef) : Bool :=
  match typeSize d.typ with
  | some n => d.size == n
  | none => if d.typ = 12 then decide (d.size ≤ 255) else if d.typ = 13 then decide (1 ≤ d.size) else false

/-- Bytes of the values of host-defined objects. -/
def State.definedBytes (s : State) : Nat :=
  s.dic.defs.foldl (fun a x => if x.2.served then a else a + (s.dicVal x.1 x.2).length) 0

/-- The abort code of a DEFINE, in the order of R402, then R403's checks of OFS and LEN.
DESIGN CHOICE, notes/assumptions/57.md. -/
def State.defineCheck (s : State) (k : Nat) (d : ObjDef) (ofs len : Nat) : Nat :=
  let exists_ := match s.object k with
    | .inr _ => true
    | .inl _ => false
  if s.mode ≠ 2 then 0x0301
  else if exists_ then 0x0107
  else if hostRange (k / 256) = false ∨ (d.served = true ∧ 0x8000 ≤ k / 256) then 0x0101
  else if sizeOk d = false ∨ len < 4 ∨ 256 < len then 0x0103
  else if d.typ ≠ 12 ∧ d.size ≤ ofs then 0x0104
  else if 4 < d.acc ∨ (d.typ = 0 ∧ d.served = false ∧ 1 < leNat d.dflt) then 0x0105
  else if 2048 ≤ s.dic.defs.length ∨ 65536 < s.definedBytes + d.dflt.length then 0x0306
  else 0

/-- DEFINE (R402). DESIGN CHOICE, notes/assumptions/57.md. -/
def State.define (s : State) (len : Nat) : Nat × State :=
  let k := s.dicKey
  let d := defOf (s.dicData 256) len
  let a := s.defineCheck k d (s.fget F.DIC_OFS.OFS) len
  if a ≠ 0 then (a, s) else (0, s.setDic { s.dic with defs := KMap.insert s.dic.defs k d })

/-- UNDEFINE (R402). -/
def State.undefine (s : State) : Nat × State :=
  let k := s.dicKey
  if s.mode ≠ 2 then (0x0301, s)
  else
    match KMap.find? s.dic.defs k with
    | none => (0x0101, s)
    | some _ =>
      (0, (s.setDic { s.dic with defs := KMap.erase s.dic.defs k, vals := KMap.erase s.dic.vals k
                                 dirty := s.dic.dirty.filter (· != k) }).showDirty)

/-- Every persistent object takes its default (R403). -/
def State.restoreDefaults (s : State) : State :=
  forEach s.persistKeys (fun k s =>
    let d := s.persistDef k
    if hostRange (k / 256) then s.setVal k d d.dflt else s.putVal k (blockObj s.cfg (k / 256) (k % 256)) d.dflt) s

/-! ### Commands -/

/-- A host command that is neither READ, WRITE nor INFO. -/
def State.dicOther (s : State) (op len : Nat) : Nat × State :=
  if op = 4 then s.startCommit
  else if op = 5 then (if s.mode ≠ 2 then (0x0301, s) else s.restoreDefaults.startCommit)
  else if op = 6 then s.define len
  else if op = 7 then s.undefine
  else if s.mode ≠ 2 ∧ s.mode ≠ 6 then (0x0301, s)
  else (0, s.putVal 0x110500 (blockObj s.cfg 0x1105 0) [1])

/-- A write of DIC_CMD with GO = 1 (R403): refused while a command runs, before READY, and for an unknown OP. -/
def State.dicCmd (s : State) (op len : Nat) : State :=
  if s.dic.fwd.isSome = true then (s.fsets [(F.DIC_STAT.RESULT, 3), (F.DIC_STAT.ABORT, 0x0302)]).raise 24
  else
    let s := s.fsets [(F.DIC_CMD.OP, op), (F.DIC_CMD.LEN, len)]
    if s.flag F.DIC_STAT.READY = false ∨ op = 0 ∨ 8 < op then s.dicEnd 3 0x0302
    else if op ≤ 3 then s.hostRequest op len
    else
      let r := s.dicOther op len
      r.2.dicDone r.1

/-- A write of DIC_CMD. -/
def State.dicCmdWrite (data : Word) (s : State) : State :=
  if bitOf data 31 then s.dicCmd (getBits data 24 4) (getBits data 0 9) else s.writeFields O.DIC_CMD data

/-- The word of DIC_CMD that issues `op` with `len`. -/
def dicWord (op len : Nat) : Word := BitVec.ofNat 32 (2 ^ 31 + op % 16 * 2 ^ 24 + len % 512)

/-- A host command by its OP. -/
def State.dicExec (s : State) (fn op len : Nat) : State := s.access fn O.DIC_CMD fun _ s => s.dicCmdWrite (dicWord op len)

/-- DIC_READ (R403). -/
def execDicRead (fn len : Nat) (s : State) : Host.Outcome State Fault Refusal := .next (s.dicExec fn 1 len)
/-- DIC_WRITE (R403). -/
def execDicWrite (fn len : Nat) (s : State) : Host.Outcome State Fault Refusal := .next (s.dicExec fn 2 len)
/-- DIC_INFO (R403). -/
def execDicInfo (fn len : Nat) (s : State) : Host.Outcome State Fault Refusal := .next (s.dicExec fn 3 len)
/-- DIC_COMMIT (R403, R412). -/
def execDicCommit (fn len : Nat) (s : State) : Host.Outcome State Fault Refusal := .next (s.dicExec fn 4 len)
/-- DIC_RESTORE_DEFAULTS (R403). -/
def execDicRestoreDefaults (fn len : Nat) (s : State) : Host.Outcome State Fault Refusal := .next (s.dicExec fn 5 len)
/-- DIC_DEFINE (R402). -/
def execDicDefine (fn len : Nat) (s : State) : Host.Outcome State Fault Refusal := .next (s.dicExec fn 6 len)
/-- DIC_UNDEFINE (R402). -/
def execDicUndefine (fn len : Nat) (s : State) : Host.Outcome State Fault Refusal := .next (s.dicExec fn 7 len)
/-- DIC_TAKE (R408). -/
def execDicTake (fn len : Nat) (s : State) : Host.Outcome State Fault Refusal := .next (s.dicExec fn 8 len)
/-- DIC_UNKNOWN_OP (R403): OP 0 or above 8. -/
def execDicUnknownOp (fn op len : Nat) (s : State) : Host.Outcome State Fault Refusal :=
  .next (s.dicExec fn (if 1 ≤ op % 16 ∧ op % 16 ≤ 8 then 0 else op) len)

/-- MAILBOX_REQUEST (R405): a thread has stored REQ. With GO = 1 the request is carried out, or waits while a host command is
forwarded (R407); a new GO before the end of one that waits is refused in RSP. DESIGN CHOICE, notes/assumptions/57.md. -/
def execMailboxRequest (s : State) : Host.Outcome State Fault Refusal :=
  match s.mbxEngine with
  | none => .next s
  | some e =>
    if s.mbxWord e 0 < 2 ^ 31 then .next s
    else if s.dic.fwd.isSome then
      if s.dic.mbxWait then .next (s.mbxPut e 0xC (natLe 4 (2 ^ 31 + 0x0302)))
      else .next (s.setDic { s.dic with mbxWait := true })
    else .next (s.mbxRun e)

/-- MAILBOX_FWD_RESPONSE (R406): a thread has stored FWD_RSP; one with DONE = 1 ends the forwarded host command. -/
def execMailboxFwdResponse (s : State) : Host.Outcome State Fault Refusal :=
  match s.dic.fwd, s.mbxEngine with
  | some f, some e =>
    let w := s.mbxWord e 0x11C
    if w < 2 ^ 31 then .next s
    else .next (s.forwardEnd f.op { code := w % 2 ^ 16, bytes := s.ebytes e (s.mbxAt 0x120) (min 256 (w / 2 ^ 16 % 512)) })
  | _, _ => .next s

/-- FWD_TIMEOUT (R406): no answer within FWD_LIM. -/
def execFwdTimeout (s : State) : Host.Outcome State Fault Refusal :=
  match s.dic.fwd with
  | some f => .next (s.forwardEnd f.op { code := 0x0304 })
  | none => .next s

/-! ### Restore (R414, R415) -/

/-- One record at the front of a payload: key, type, value, definition of a host-defined object, and the rest.
DESIGN CHOICE, notes/assumptions/60.md. -/
def readRec (p : List Byte) : Option (Nat × Nat × List Byte × Option ObjDef × List Byte) :=
  if p.length < 6 then none
  else
    let i := leNat (p.take 2)
    let k := i * 256 + leNat (slice p 2 1)
    let n := leNat (slice p 4 2)
    let v := slice p 6 n
    let rest := p.drop (6 + (n + 3) / 4 * 4)
    if hostRange i then
      let w := leNat (rest.take 4)
      let d := defOf (rest.take 4 ++ slice rest 4 (w % 2 ^ 16)) (4 + w % 2 ^ 16)
      some (k, leNat (slice p 3 1), v, some d, rest.drop (4 + (w % 2 ^ 16 + 3) / 4 * 4))
    else some (k, leNat (slice p 3 1), v, none, rest)

/-- Loads one record (R414): its object exists with the same type and size, or is recreated; otherwise it is skipped. -/
def State.loadRec (s : State) (k typ : Nat) (v : List Byte) (d : Option ObjDef) : State :=
  match d with
  | some d =>
    s.setDic { s.dic with
      defs := KMap.insert s.dic.defs k d, vals := if v = d.dflt then KMap.erase s.dic.vals k else KMap.insert s.dic.vals k v }
  | none =>
    let o := blockObj s.cfg (k / 256) (k % 256)
    if (blockKeys s.cfg).contains k = true ∧ o.d.typ = typ ∧ (typ = 12 ∨ v.length = o.d.size) then
      s.setDic { s.dic with vals := if v = o.d.dflt then KMap.erase s.dic.vals k else KMap.insert s.dic.vals k v }
    else s.fsat F.DIC_STORE.SKIPPED 1

/-- Loads the records of a payload. -/
def State.loadAll (s : State) (p : List Byte) : Nat → State
  | 0 => s
  | fuel + 1 =>
    match readRec p with
    | some (k, typ, v, d, rest) => (s.loadRec k typ v d).loadAll rest fuel
    | none => s

/-- What the headers of both slots show (R414, R415). -/
def State.readHeaders (s : State) : State :=
  match s.newest with
  | some n => s.fsets [(F.DIC_SEQ.SEQ, (s.slotOf n).seq.toNat), (F.DIC_STAT.SLOT, n)]
  | none => s.fset F.DIC_STAT.STORE_INVALID 1

/-- The restore after SPINE has come ON (R414): the newest valid slot's records, or defaults with source 26.
DESIGN CHOICE, notes/assumptions/59.md. -/
def State.restoreStore (s : State) : State :=
  let s := s.setDic { slotA := s.dic.slotA, slotB := s.dic.slotB, restore := false }
  let s := match s.newest with
    | some n => s.loadAll (s.slotOf n).payload (s.slotOf n).payload.length
    | none => s.raise 26
  (s.readHeaders.loadNv (fun k => s.islandUp k)).fset F.DIC_STAT.READY 1

/-- STORE_RESTORE_DONE (R414). DESIGN CHOICE, notes/assumptions/58.md. -/
def execStoreRestoreDone (s : State) : Host.Outcome State Fault Refusal :=
  if s.dic.restore = true ∧ s.rst.blk = false ∧ s.domOn 1 = true then .next s.restoreStore else .next s

/-- After BLK_RST_N with SPINE ON (R415): the headers are read, the dirty flags show, and the dictionary is ready. -/
def State.dicWake (s : State) : State :=
  if s.dic.restore then s else s.readHeaders.showDirty.fset F.DIC_STAT.READY 1

/-- BLK_RST_N cuts the dictionary's work short, a commit in its step `step` (R415). -/
def State.dicReset (s : State) (step : Nat) : State :=
  let s := s.dropCommit step
  s.setDic { s.dic with queued := false, fwd := none, mbxWait := false }

/-- The store as a supply collapse leaves it (R411, R413): at step `step` of a commit, with `written` bytes of the payload
written and the bits of the COMMIT word that `torn` marks. DESIGN CHOICE, notes/assumptions/58.md. -/
def State.collapseStore (s : State) (step : Nat) (torn : Word) (written : Nat) : State :=
  match s.dic.commit with
  | none => s
  | some c =>
    let old := s.slotOf c.slot
    let new := s.commitSlot c []
    let part := new.payload.take written ++ old.payload.drop written
    if step ≤ 1 then s
    else if step = 2 then s.setSlot c.slot { old with commit := old.commit &&& ~~~ torn }
    else if step = 3 then s.setSlot c.slot { old with commit := 0, payload := part }
    else if step = 4 then s.setSlot c.slot { new with commit := 0 }
    else if step = 5 then s.setSlot c.slot { new with commit := new.commit &&& torn }
    else s.setSlot c.slot new

/-- The state of a block that has just been powered: only the store keeps its content (R414). Commands that wait, the record
of what was driven, and the count of free values go on. -/
def State.powerOn (s : State) : State :=
  let o := State.resetOf s.cfg
  { o with pending := s.pending, out := s.out, ticks := s.ticks, free := s.free
           dic := { slotA := s.dic.slotA, slotB := s.dic.slotB } }

/-- SUPPLY_COLLAPSE (R411, R413): everything but the store is lost. -/
def execSupplyCollapse (step : Nat) (torn : Word) (written : Nat) (s : State) : Host.Outcome State Fault Refusal :=
  .next (s.collapseStore step torn written).powerOn

end Sys2Proof.Machine
end

