-- ==== Sys2Proof/Machine/Block.lean ====
section
/-!
DEFINITION. Resets, operating modes, the two halves and their links, clock supervision and the start of the last gasp
(01_block_and_halves.md R19 to R36, R428; 02_boundary_and_access.md R38, R41; 16_power_and_wake.md R394, R395;
18_faults_and_selftest.md R418, R420).
-/
namespace Sys2Proof.Machine

/-! ### Resets (00_scope.md R8) -/

/-- TRK_STAT.PMA_LOCK shows the level of its input. -/
def State.showPma (s : State) (h : Nat) : State :=
  forEach ((List.range s.cfg.trunks).filter fun t => s.cfg.halfOfTrunk t == h)
    (fun t s => s.fset (F.TRK_STAT.PMA_LOCK t) (b2n (s.trunk t).pmaLock)) s

/-- Every output of the Block and Half domains takes its level in reset (02 R37). DESIGN CHOICE, notes/assumptions/19.md. -/
def State.outputsReset (s : State) : State :=
  let s := forEach (List.range 8) (fun k s => if s.flag (F.IRQ_OFFER.VALID k) then s.irqDrop k else s) s
  let s := forEach (List.range 8) (fun p s => s.speedReset p) s
  let s := forEach [0, 1] (fun t s => s.laneReset t) s
  forEach s.halfList (fun h s => (s.clearCtu h (fun _ => false)).ppsReset h) s

/-- Assertion of BLK_RST_N (R8, R26): the Block and Half domains reset; the always-on island, the safety island, the store
and the dictionary's values, and the contents of memories are kept. A scan run ends with ABORTED; a last gasp ends.
`step` is the step of a commit of the dictionary under way. DESIGN CHOICE, notes/assumptions/19.md. -/
def State.blkReset (s : State) (step : Nat) : State :=
  let s := s.outputsReset.dicReset step
  let s := forEach (List.range s.cfg.checkUnits) (fun n s =>
    if s.flag (F.CHK_STAT.STATE n) = true ∧ s.flag (F.CHK_CFG.SRC n) = false then s.chkEnd n 7 0 0 else s) s
  let s := (s.setGasp (s.gasp.map fun _ => {})).gaspCheck
  let s := s.clearKeys (fun k => s.homeDom k != 0 && s.homeDom k != 42)
  { State.resetOf s.cfg with
    pending := s.pending, out := s.out, ticks := s.ticks, free := s.free
    regs := s.regs, stage := s.stage, hold := s.hold
    latches := s.latches, doms := s.doms, dic := s.dic, chks := s.chks, emem := s.emem
    mem := { key := s.mem.key, words := s.mem.words }
    trunks := s.trunks.filterMap fun t => if t.2.pmaLock then some (t.1, { pmaLock := true }) else none
    rst := { s.rst with blk := true } }

/-- BLK_RST_N_ASSERT (R26; 17_parameter_dictionary.md R415). -/
def execBlkRstNAssert (s : State) (step : Nat := 0) : Host.Outcome State Fault Refusal := .next (s.blkReset step)

/-- The level of a half's own reset input (02 R38). -/
def State.halfLow (s : State) (h : Nat) : Bool := if h = 0 then s.rst.a else s.rst.b

/-- Records the level of a half's own reset input. -/
def State.setHalfLow (s : State) (h : Nat) (low : Bool) : State :=
  s.setRst (if h = 0 then { s.rst with a := low } else { s.rst with b := low })

/-- A half in its own reset keeps its epoch (R34), drops its claim (R30) and sends no heartbeat to the other half. -/
def State.halfGone (s : State) (h : Nat) : State :=
  (s.setHalf h { epoch := (s.half h).epoch, spine := (s.half h).spine, half := { up := false } }).fsets
    [(claimFld h, 0), (F.BLK_HALF.LINK_UP, 0)]

/-- BLK_RST_N_RELEASE (R26; 17_parameter_dictionary.md R415): NV fields take the spine copies; with SPINE ON the block enters
BRINGUP. DESIGN CHOICE, notes/assumptions/6.md. -/
def execBlkRstNRelease (s : State) : Host.Outcome State Fault Refusal :=
  if s.rst.blk then
    let s := s.setRst { s.rst with blk := false }
    let s := forEach s.halfList (fun h s => s.showPma h) s
    let s := if s.dic.restore then s else s.loadNv (fun k => s.islandUp k)
    let s := s.dicWake
    let s := if s.cfg = .x then forEach (s.halfList.filter fun h => s.halfLow h) (fun h s => s.halfGone h) s else s
    .next (if s.domOn 1 then s.setMode 1 else s)
  else .next s

/-- The Half domain of half `h` resets (R8); its trigger outputs go to 0. DESIGN CHOICE, notes/assumptions/19.md. -/
def State.halfReset (s : State) (h : Nat) : State :=
  let s := (s.clearCtu h (fun _ => false)).ppsReset h
  let s := forEach ((List.range s.cfg.fieldPorts).filter fun p => s.cfg.halfOfPort p == h)
    (fun p s => (s.dropPort p).speedReset p) s
  let s := forEach ((List.range s.cfg.trunks).filter fun t => s.cfg.halfOfTrunk t == h)
    (fun t s => (s.laneReset t).clearTrunk t) s
  let s := (forEach (s.halfEngines h) (fun e s => s.clearThreads e) s).emptyPipe h
  let s := s.clearKeys (fun k => s.resetHalfOf k == some h)
  (s.setTbs (KMap.erase s.tbs h)).setHalfMode h 0

/-- HALF_RESET_ASSERT (R8, R30, R428): half `h` resets and drops its claim; its links carry no heartbeats. In Gweip-S the block
enters SAFEHOLD with SH_CAUSE 6. Gweip-S ignores HALF_B_RST_N (02 R37). -/
def execHalfResetAssert (h : Nat) (s : State) : Host.Outcome State Fault Refusal :=
  if s.cfg.halves ≤ h ∨ s.halfLow h = true then .next s
  else if s.rst.blk then .next (s.setHalfLow h true)
  else
    let s := s.setHalfLow h true
    match s.cfg with
    | .s =>
      let s := s.halfReset h
      .next (if liveMode s.mode then s.enterSafehold 6 else s)
    | .x => .next (((if h = 0 ∧ s.halfInReset 1 = false then s.splitGear else s).halfReset h).halfGone h).fixDegraded

/-- HALF_RESET_RELEASE (R30, R428; 07_parse_graph.md R195): the half's time base starts at 0. In Gweip-S it takes its mode from
BLK_MODE.MODE; in Gweip-X it stops admission until it has copied state and tables from the other half. -/
def execHalfResetRelease (h : Nat) (s : State) : Host.Outcome State Fault Refusal :=
  if s.cfg.halves ≤ h ∨ s.halfLow h = false then .next s
  else if s.rst.blk then .next (s.setHalfLow h false)
  else
    let s := (s.setHalfLow h false).showPma h
    let s := if s.dic.restore then s else s.loadNv (fun k => s.resetHalfOf k == some h && s.islandUp k)
    let s := s.tbRestart h
    match s.cfg with
    | .s => .next (s.setHalfMode h s.mode)
    | .x => .next (s.setHalf h { s.half h with
        copyState := true, copyTables := true, admStop := true, dropsOn := true, fromReset := true })

/-- SAFE_RST_N_ASSERT (R38; 14_check_units_safety_island.md R358): SAFE_RST_N goes low and the Safe domain resets; with `rises`
the input, held low, goes high again and the domain leaves its reset. DESIGN CHOICE, notes/assumptions/19.md. -/
def execSafeRstNAssert (s : State) (rises : Bool := false) : Host.Outcome State Fault Refusal :=
  if rises then .next (s.setRst { s.rst with safe := false })
  else .next (((s.setRst { s.rst with safe := true }).setChks []).clearKeys (fun k => s.homeDom k == 42))

/-- AON_POWER_ON (R8; 13 R350): the block has just been powered; its own key is drawn. DESIGN CHOICE, notes/assumptions/21.md. -/
def execAonPowerOn (s : State) : Host.Outcome State Fault Refusal :=
  let s := s.powerOn
  .next (s.useFree.setMem { key := some s.free })

/-! ### Mode requests (R25 to R27) -/

/-- A request is refused (R25). -/
def State.refuseMode (s : State) : State := s.setFlag F.BLK_MODE.REQ_ERR 1

/-- Whether no containment fault is active (R26; 18 R423). -/
def State.containFree (s : State) : Bool := decide (s.activeCount = 0) && !s.flag F.FLT_STAT.CONTAIN_LOST

/-- Whether every domain but the always-on island, SPINE and the halves has a TARGET other than ON (16 R394). -/
def State.dormantReady (s : State) : Bool := (domList s.cfg).all fun d => decide (d ≤ 3) || decide (s.target d ≠ 0)

/-- Whether CONFIG may become INTEGRATE (R26; 06 R176): a course is live, the time is set, and the current gear is VALID on every
enabled cell-mode trunk and on every port with gate lists enabled that is bound to one. -/
def State.integrateReady (s : State) : Bool :=
  let g := s.gearOfHalf s.leader
  s.anyCourse s.leader && s.flag (tbFld F.TB_STAT.SET_DONE s.leader) &&
    s.cellTrunks.all (fun t => bitOf (BitVec.ofNat 32 (s.fget (F.TRK_GEAR.VALID t))) g) &&
    ((List.range 8).filter (fun p => s.cfg.hasPort p && s.gated p)).all (fun p =>
      !s.cellTrunk (s.gclTrunk p) || bitOf (BitVec.ofNat 32 (s.fget (F.MAC_GCL_CTL.VALID p))) g)

/-- DORMANT loses the functions, queues and keys (11_functions_and_queues.md R292) and the channels, their completion queue and
transfers (12_dma_and_planes.md R322); the interrupt controller stops (15_interrupts.md R378).
DESIGN CHOICE, notes/assumptions/40.md. -/
def State.loseService (s : State) : State :=
  let s := s.clearKeys (fun k => decide (0x0D0000 ≤ k ∧ k < 0x0E8000))
  let s := forEach (List.range 8) (fun k s => if s.flag (F.IRQ_OFFER.VALID k) then s.irqDrop k else s) s
  (((((s.setFuncs []).setQps []).setBinds []).setAdmin {}).setDmas []).tidy

/-- The block goes DORMANT: the services of the spine stop, the spine and the halves are to go OFF (16 R394), and TRn_TX_EN is 0
(05_trunk_cells.md R149). -/
def State.goDormant (s : State) : State :=
  let s := s.loseService
  let s := s.setDom 1 { s.dom 1 with woken := false }
  let s := s.driveTrunks false
  forEach ((domList s.cfg).filter fun d => decide (1 ≤ d) && decide (d ≤ 3) && decide (s.target d = 0))
    (fun d s => s.fsets [(F.PWR_DOM.TARGET d, 2), (F.PWR_DOM.PEND d, 1)]) (s.setMode 7)

/-- The block goes to INTEGRATE: STEP_USED is re-armed, the table of cold start begins (R26; 06 R171); with no trunk to join the
time is joined at once (03 R93). -/
def State.goIntegrate (s : State) : State :=
  let s := forEach s.halfList (fun h s =>
    s.fsets [(tbFld F.TB_STAT.STEP_USED h, 0), (tbFld F.TB_STAT.STEP_HW h, 0)]) s
  let s := (s.setMode 3).csStart
  if s.cellTrunks.isEmpty then (s.setJoined 1).syncTrigs else s

/-- Checks a request against the table of R26: taken or refused. -/
def State.modeCheck (s : State) (target : Nat) : State :=
  let m := s.mode
  match target with
  | 2 =>
    if m = 3 ∨ m = 4 ∨ m = 5 ∨ (m = 1 ∧ s.flag F.BLK_MODE.BIST_DONE = true) ∨ (m = 6 ∧ s.containFree = true) then s.setMode 2
    else s.refuseMode
  | 3 => if m = 2 ∧ s.integrateReady = true then s.goIntegrate else s.refuseMode
  | 6 => if liveMode m then s.enterSafehold 1 else s.refuseMode
  | 7 => if (m = 2 ∨ m = 6) ∧ s.dormantReady = true then s.goDormant else s.refuseMode
  | _ => s.refuseMode

/-- A write of BLK_MODE: `clr` writes 1 to REQ_ERR; with `go`, REQ is submitted. `meets` tells that a hardware transition
arises in the same cycle: the request then waits for the next cycle (R25, R27). -/
def State.modeWrite (clr go : Bool) (target : Nat) (meets : Bool) (s : State) : State :=
  let s := if clr then s.fset F.BLK_MODE.REQ_ERR 0 else s
  if go = false then s
  else if s.req.isSome then s.refuseMode
  else if meets then (s.setReq (some ⟨target⟩)).fset F.BLK_MODE.REQ_PEND 1
  else s.modeCheck target

/-- MODE_REQ_CONFIG (R25, R26). -/
def execModeReqConfig (fn : Nat) (clr meets : Bool) (s : State) : Host.Outcome State Fault Refusal :=
  .next (s.access fn O.BLK_MODE fun _ s => s.modeWrite clr true 2 meets)
/-- MODE_REQ_INTEGRATE (R25, R26). -/
def execModeReqIntegrate (fn : Nat) (clr meets : Bool) (s : State) : Host.Outcome State Fault Refusal :=
  .next (s.access fn O.BLK_MODE fun _ s => s.modeWrite clr true 3 meets)
/-- MODE_REQ_SAFEHOLD (R25, R26). -/
def execModeReqSafehold (fn : Nat) (clr meets : Bool) (s : State) : Host.Outcome State Fault Refusal :=
  .next (s.access fn O.BLK_MODE fun _ s => s.modeWrite clr true 6 meets)
/-- MODE_REQ_DORMANT (R25, R26; 16 R394). -/
def execModeReqDormant (fn : Nat) (clr meets : Bool) (s : State) : Host.Outcome State Fault Refusal :=
  .next (s.access fn O.BLK_MODE fun _ s => s.modeWrite clr true 7 meets)
/-- MODE_REQ_OTHER_TARGET (R25): a request that names another target is refused. -/
def execModeReqOtherTarget (fn target : Nat) (clr meets : Bool) (s : State) : Host.Outcome State Fault Refusal :=
  .next (s.access fn O.BLK_MODE fun _ s => s.modeWrite clr true (target % 8) meets)

/-- MODE_REQ_PENDING_CHECK (R27): the request that waited is checked against the mode as it is now. -/
def execModeReqPendingCheck (s : State) : Host.Outcome State Fault Refusal :=
  match s.req with
  | some r => .next (((s.setReq none).fset F.BLK_MODE.REQ_PEND 0).modeCheck r.target)
  | none => .next s

/-- BIST_DONE (R28): `bad` names the granules that failed; those of banks that are ON are retired.
DESIGN CHOICE, notes/assumptions/22.md. -/
def execBistDone (bad : List Nat) (s : State) : Host.Outcome State Fault Refusal :=
  if s.mode = 1 ∧ s.flag F.BLK_MODE.BIST_DONE = false then
    let l := bad.filter fun g => s.bankOn (g / 64)
    let s := forEach l (fun g s => if (s.gran g).state = 3 then s else s.markRetired g) s
    .next ((s.fsets [(F.BLK_MODE.BIST_DONE, 1), (F.BLK_MODE.BIST_FAIL, b2n (!l.isEmpty))]).raise 2)
  else .next s

/-- ENTER_OPERATE (R26): INTEGRATE ends when the enabled cell-mode trunks have joined, or none is enabled.
DESIGN CHOICE, notes/assumptions/22.md. -/
def execEnterOperate (s : State) : Host.Outcome State Fault Refusal :=
  if s.mode = 3 ∧ (s.cellTrunks.isEmpty = true ∨ s.csJoined = true) then .next (s.setMode 4).fixDegraded else .next s

/-! ### Heartbeats and links (R21, R22, R30 to R36, R420) -/

/-- HEARTBEAT_SEND (R21): one more heartbeat of half `h`. -/
def execHeartbeatSend (h : Nat) (s : State) : Host.Outcome State Fault Refusal :=
  if h < s.cfg.halves ∧ s.halfInReset h = false ∧ s.domOn (2 + h) = true then
    .next (s.setHalf h { s.half h with sent := (s.half h).sent + 1 })
  else .next s

/-- Whether HALF_LOST may clear (R36). -/
def State.whole (s : State) : Bool :=
  s.linked && !s.settle && [0, 1].all fun h =>
    (s.half h).spine.up && !(s.half h).copyState && !(s.half h).copyTables && !s.halfInReset h

/-- HALF_LOST clears when both links and both halves are whole again (R26, R36). DEDUCED, notes/assumptions/18.md. -/
def State.lostCheck (s : State) : State :=
  if s.cfg = .x ∧ s.flag F.BLK_MODE.HALF_LOST = true ∧ s.whole = true then (s.fset F.BLK_MODE.HALF_LOST 0).fixDegraded else s

/-- One heartbeat at a receiver: the third in a row, with no gap between, brings the link up (R21). DEDUCED, notes/assumptions/18.md. -/
def LinkRx.beat (l : LinkRx) : LinkRx := { up := l.up || decide (2 ≤ l.run), run := min 3 (l.run + 1) }

/-- The link of half `h` to the spine is up again: Gweip-S R428; a lost half takes SAFEHOLD (18 R420). -/
def State.spineUp (s : State) (h : Nat) : State :=
  match s.cfg with
  | .s =>
    let held := s.hmode h
    let s := (s.setHalfMode h s.mode).tbRestart h
    if s.mode = 6 ∧ held ≠ 6 then s.safeholdHalf h else s
  | .x => if s.mode = 6 ∧ s.hmode h ≠ 6 then (s.setHalfMode h 6).safeholdHalf h else s

/-- HEARTBEAT_RECEIVE (R21, R22): a heartbeat on the link of half `h` to the spine, or one that half `h` receives from the other
half. -/
def execHeartbeatReceive (spine : Bool) (h : Nat) (s : State) : Host.Outcome State Fault Refusal :=
  if s.cfg.halves ≤ h ∨ s.halfInReset h = true then .next s
  else
    let v := s.half h
    if spine then
      let s' := s.setHalf h { v with spine := v.spine.beat }
      if v.spine.up = false ∧ v.spine.beat.up = true then .next (s'.spineUp h).lostCheck else .next s'
    else if s.cfg = .s then .next s
    else
      let s' := s.setHalf h { v with half := v.half.beat }
      if v.half.up = false ∧ s'.linked = true then .next ((s'.fset F.BLK_HALF.LINK_UP 1).setSettle true)
      else .next s'

/-- A gap at a receiver: the heartbeats before it no longer count as in a row (R21). -/
def LinkRx.gap (l : LinkRx) : LinkRx := { l with run := 0 }

/-- LINK_GLITCH (R21, R22): the 65th cycle without a heartbeat, on the link of half `h` to the spine or at half `h` from the
other half; a link that is down counts a gap only after a heartbeat. The half-to-half link alone sets LINK_GLITCH. -/
def execLinkGlitch (h : Nat) (s : State) (spine : Bool := false) : Host.Outcome State Fault Refusal :=
  let v := s.half h
  if s.cfg.halves ≤ h ∨ s.halfInReset h = true then .next s
  else if spine then .next (s.setHalf h { v with spine := v.spine.gap })
  else if s.cfg = .x ∧ (v.half.up = true ∨ 0 < v.half.run) then
    .next ((s.setHalf h { v with half := v.half.gap }).setFlag F.BLK_HALF.LINK_GLITCH 4)
  else .next s

/-- Whether half `h` claims the lead. -/
def State.claims (s : State) (h : Nat) : Bool := s.flag (claimFld h)

/-- HALF_LOST is set, with source 5 when it was clear (15_interrupts.md R371). -/
def State.setLost (s : State) : State := if s.flag F.BLK_MODE.HALF_LOST then s else s.setFlag F.BLK_MODE.HALF_LOST 5

/-- Half `w` is the one shown as the leader: the course that it uses as current is the current one, and the other half uses its own
(R19, R35). DEDUCED, notes/assumptions/18.md. -/
def State.leadCourses (s : State) (w : Nat) : State :=
  match (s.half w).cur with
  | none => s
  | some n =>
    let o := 1 - w
    let m := s.curNum o
    let s := (s.setHalf w { s.half w with cur := none }).setHalf o { s.half o with cur := some m }
    let l := s.cls.courses.map fun c => { c with draining := c.num != n }
    ((s.setCls { s.cls with courses := l }).fset F.CLS_COURSE_STAT.CUR (min n 15)).showCourses

/-- A leader event (R31 to R33): the winner leads with `epoch`, which the other half holds as well where the halves are
connected, the entry is written, source 3 is raised. DEDUCED, notes/assumptions/18.md. -/
def State.leadEvent (s : State) (winner epoch cause : Nat) : State :=
  let s := forEach ([0, 1].filter fun h => h == winner || s.linked) (fun h s => s.setHalf h { s.half h with epoch := epoch }) s
  let s := s.leadCourses winner
  let s := s.fsets
    [(F.BLK_HALF.LEADER, winner), (F.BLK_HALF.EPOCH, epoch), (claimFld winner, 1), (F.BLK_LEAD_LOG.WIN_EPOCH, epoch),
     (F.BLK_LEAD_LOG.WIN_HALF, winner), (F.BLK_LEAD_LOG.CAUSE, cause), (F.BLK_LEAD_LOG.DROPS, 0)]
  s.dropFollow.raise 3

/-- A half that runs on alone goes from OPERATE to DEGRADED (R33). -/
def State.degradeHalf (s : State) (h : Nat) : State := if s.hmode h = 4 then s.setHalfMode h 5 else s

/-- Half `h` takes the lead on a loss (R33; 18 R420), or the epoch is exhausted: what `full` does. -/
def State.takeLead (s : State) (h : Nat) (full : State → State) : State :=
  if 0xFFFF ≤ (s.half h).epoch then full s
  else
    let s := (s.leadEvent h ((s.half h).epoch + 1) 3).setLost.degradeHalf h
    (s.setMode (s.hmode h)).fixDegraded

/-- HALF_LINK_LOSS (R33; 18 R416 code 0x40): half `h` has received no heartbeat for more than 3,200 cycles. A graph load and a
commit under way end. DEDUCED, notes/assumptions/18.md. -/
def execHalfLinkLoss (h : Nat) (s : State) : Host.Outcome State Fault Refusal :=
  if s.cfg = .x ∧ h < 2 ∧ (s.half h).half.up = true ∧ s.halfInReset h = false then
    let e := (s.half h).epoch
    let s := (s.setHalf h { s.half h with half := { up := false }, integral := s.node.integral }).fset F.BLK_HALF.LINK_UP 0
    let s := s.splitGear
    let s := ((s.setSettle false).logFault 0x40 h e .l).endLoad 5
    let s := s.dropFollow.commitFail
    if s.claims h then .next ((s.setLost.fixDegraded).degradeHalf h)
    else if s.flag F.BLK_HALF.STANDBY_LEAD then .next (s.takeLead h fun s => s.halfSafehold h 4)
    else .next (s.halfSafehold h 2)
  else .next s

/-- The half that copies after a settlement with winner `w`: a half released from its own reset, else the other half (R30,
R32). DEDUCED, notes/assumptions/18.md. -/
def State.copier (s : State) (w : Nat) : Nat := if (s.half w).fromReset then w else 1 - w

/-- LEADER_SETTLEMENT (R31, R32): the link has come up. After a split the loser also copies the exact-match table (R35). A loser with
another current course stops admission until it has copied the tables, and with an entry in the log counts what it discards.
DEDUCED, notes/assumptions/18.md. -/
def execLeaderSettlement (s : State) : Host.Outcome State Fault Refusal :=
  if s.settle = true ∧ s.linked = true then
    let s := s.setSettle false
    let a := s.claims 0
    let b := s.claims 1
    let ea := (s.half 0).epoch
    let eb := (s.half 1).epoch
    let copies (w : Nat) (tables entry : Bool) (s : State) : State :=
      let k := s.copier w
      let v := s.half k
      let stop := v.cur.isSome
      s.setHalf k { v with copyState := true, copyTables := v.copyTables || tables || stop, admStop := v.admStop || stop
                           dropsOn := v.dropsOn || (stop && entry) }
    if a = true ∧ b = true then
      let w := if ea < eb then 1 else 0
      let s := (s.leadEvent w (if w = 0 then ea else eb) 1).fset (claimFld (1 - w)) 0
      .next ((copies w true true s).setMode (s.hmode w))
    else if a = false ∧ b = false then
      let top := max ea eb
      if top < 0xFFFF then .next (copies 0 false true (s.leadEvent 0 (top + 1) 4))
      else
        let s := copies 0 false true (s.leadEvent 0 0xFFFF 4)
        .next (if liveMode s.mode then s.enterSafehold 4 else s)
    else
      let w := if a then 0 else 1
      let s := (s.fsets [(F.BLK_HALF.LEADER, w), (F.BLK_HALF.EPOCH, (s.half w).epoch)]).leadCourses w
      .next (copies w false false s)
  else .next s

/-- STATE_COPY_DONE (R30, R32): half `h` has copied mode, gear and time from the other half. The copy of the time is no set and
no step; after a split running generators re-anchor as at a step (03_time_and_cycles.md R429).
DEDUCED, notes/assumptions/18.md. -/
def execStateCopyDone (h : Nat) (s : State) : Host.Outcome State Fault Refusal :=
  if s.cfg = .x ∧ h < 2 ∧ (s.half h).copyState = true ∧ s.linked = true ∧ s.settle = false ∧ s.halfInReset h = false then
    let o := 1 - h
    let fresh := (s.half h).fromReset
    let s := s.copyGear h
    let s := s.wr (O.TB_RATE + tbOfs h) (s.rd (O.TB_RATE + tbOfs o))
    let s := s.newTime h (s.tb o).t fresh
    let s := s.fsets
      [(tbFld F.TB_STAT.SET_DONE h, s.fget (tbFld F.TB_STAT.SET_DONE o)),
       (tbFld F.TB_STAT.STEP_USED h, s.fget (tbFld F.TB_STAT.STEP_USED o)),
       (tbFld F.TB_STAT.STEP_HW h, s.fget (tbFld F.TB_STAT.STEP_HW o))]
    let s := s.setHalf h { s.half h with copyState := false, fromReset := false, epoch := s.fget F.BLK_HALF.EPOCH }
    .next (s.setHalfMode h (s.hmode o)).lostCheck
  else .next s

/-- TABLE_COPY_DONE (R32, R35; 07 R195): half `h` has copied the exact-match table and the graph slots; admission resumes.
DEDUCED, notes/assumptions/18.md. -/
def execTableCopyDone (h : Nat) (s : State) : Host.Outcome State Fault Refusal :=
  if s.cfg = .x ∧ h < 2 ∧ (s.half h).copyTables = true ∧ s.linked = true ∧ s.settle = false ∧ s.halfInReset h = false then
    let o := 1 - h
    let s := s.setEm h (s.em o)
    let mine := s.graph.filter fun w => w.1 / 10240 == o
    let s := s.setGraph (mine.foldl (fun m w => KMap.insert m (10240 * h + w.1 % 10240) w.2)
      (KMap.clear (fun k => k / 10240 == h) s.graph))
    let s := forEach [0, 1] (fun k s =>
      (s.wr (O.PRS_SLOT_STAT h k) (s.rd (O.PRS_SLOT_STAT o k))).wr (O.PRS_SLOT_ID h k) (s.rd (O.PRS_SLOT_ID o k))) s
    let s := s.fset (F.PRS_STAT.CUR_SLOT h) (s.fget (F.PRS_STAT.CUR_SLOT o))
    let s := (s.setHalf h { s.half h with copyTables := false, admStop := false, dropsOn := false, cur := none }).showCourses
    .next s.lostCheck
  else .next s

/-- The banks of half `h` are lost to the spine (18 R420): frames there are discarded, and queue pairs with granules there go on
without affinity. -/
def State.loseHalfBanks (s : State) (h : Nat) : State :=
  let l := (s.mem.grans.filter fun g => g.2.live && decide (g.2.owner < 256) && decide (s.cfg.halfOfBank (g.1 / 64) = h)).map
    fun g => g.2.qp
  let s := s.loseFrames (fun b => s.cfg.halfOfBank b == h)
  forEach (l.filter fun q => decide (q < 0xFFF)) (fun q s => s.setQp q { s.qp q with half := none }) s

/-- SPINE_LINK_LOSS (R22, R428; 18 R420, R416 code 0x41). -/
def execSpineLinkLoss (h : Nat) (s : State) : Host.Outcome State Fault Refusal :=
  if h < s.cfg.halves ∧ (s.half h).spine.up = true then
    let s := (s.setHalf h { s.half h with spine := { up := false } }).sfUpdate
    let s := s.logFault 0x41 h 0 .l
    match s.cfg with
    | .s => .next (if liveMode s.mode then s.enterSafehold 6 else s)
    | .x =>
      let o := 1 - h
      let s := s.setLost
      let s :=
        if s.leader ≠ h then s
        else if s.flag F.BLK_HALF.STANDBY_LEAD then
          let s := s.takeLead o fun s => if liveMode s.mode then s.enterSafehold 4 else s
          if s.leader = o ∧ s.linked = true then s.fset (claimFld h) 0 else s
        else if liveMode s.mode then
          let s := s.enterSafehold 5
          if s.hmode o = 6 ∨ s.halfInReset o = true then s else (s.setHalfMode o 6).safeholdHalf o
        else s
      .next (s.loseHalfBanks h).fixDegraded
  else .next s

/-! ### Clock supervision (02 R41; 18 R418) -/

/-- CLOCK_LOSS (R41; 18 R416 codes 0x10 and 0x11): a byte clock of a port or a lane clock of a trunk, the transmit clock with
`tx`, has stopped while enabled. DESIGN CHOICE, notes/assumptions/23.md. -/
def execClockLoss (trunk : Bool) (n : Nat) (s : State) (tx : Bool := false) : Host.Outcome State Fault Refusal :=
  if trunk then
    if n < s.cfg.trunks ∧ s.domOn (16 + n) = true ∧ s.halfInReset (s.cfg.halfOfTrunk n) = false ∧
        (s.trunk n).lost tx = false ∧ s.flag (F.TRK_CFG.EN n) = true then
      let s := s.setTrunk n ((s.trunk n).setLost tx true)
      let s := s.setFlag (F.TRK_STAT.CLK_LOSS n) (srcTrunk s.cfg n + 1)
      .next ((s.logFault 0x11 n 0 (.e 2)).sfUpdate).fixDegraded
    else .next s
  else
    if n < s.cfg.fieldPorts ∧ s.domOn (8 + n) = true ∧ s.halfInReset (s.cfg.halfOfPort n) = false ∧
        (s.port n).lost tx = false ∧ (s.flag (F.MAC_CTL.EN_RX n) = true ∨ s.flag (F.MAC_CTL.EN_TX n) = true) then
      let s := s.setPort n ((s.port n).setLost tx true)
      let s := (s.fset (F.MAC_STAT.CLK_LOSS n) 1).raisePort n 1
      .next (s.logFault 0x10 n 0 (.e 1))
    else .next s

/-- CLOCK_RETURN (18 R418): the clock has run for 8 of its periods. DESIGN CHOICE, notes/assumptions/23.md. -/
def execClockReturn (trunk : Bool) (n : Nat) (s : State) (tx : Bool := false) : Host.Outcome State Fault Refusal :=
  if trunk then
    if n < s.cfg.trunks ∧ (s.trunk n).lost tx = true then
      .next ((s.setTrunk n ((s.trunk n).setLost tx false)).sfUpdate).fixDegraded
    else .next s
  else if n < s.cfg.fieldPorts ∧ (s.port n).lost tx = true then .next (s.setPort n ((s.port n).setLost tx false))
  else .next s

/-! ### The last gasp (16 R395) -/

/-- The ports that send the gasp frame. -/
def State.gaspPorts (s : State) : List Nat :=
  (List.range 8).filter fun p =>
    bitOf (s.rd O.PWR_GASP) p && s.cfg.hasPort p && s.domOn (8 + p) && s.flag (F.MAC_CTL.EN_TX p)

/-- PWR_FAIL_WARN (16 R395; 17 R413): the commit, the gasp frames and Signal Fail start at once.
DESIGN CHOICE, notes/assumptions/21.md. -/
def execPwrFailWarn (s : State) : Host.Outcome State Fault Refusal :=
  if s.domOn 1 = false ∨ s.rst.blk = true then .next (s.fset F.PWR_STAT.GASP_DONE 1)
  else if s.gasp.isSome then .next s
  else
    let s := (s.fset F.PWR_STAT.GASP 1).raiseAon 17
    let l := s.gaspPorts
    let s := forEach l (fun p s => s.setPort p { s.port p with gasp := true }) s
    let s := (s.setGasp (some { ports := l, commit := true })).sfUpdate.fixDegraded
    if s.flag F.DIC_STAT.READY then .next s.gaspCommit
    else .next (s.setGasp (s.gasp.map fun g => { g with commit := false })).gaspCheck

end Sys2Proof.Machine
end

