-- ==== Sys2Proof/Machine/Dma.lean ====
section
/-!
DEFINITION. The commands of the DMA engine (12_dma_and_planes.md R321 to R340).
-/
namespace Sys2Proof.Machine

/-! ### Starting (R324) -/

/-- Whether a two-dimensional side is set up wrong for COUNT bytes (R324 order 2). -/
def State.geomBad (s : State) (g count : Nat) : Bool :=
  let len := s.rd64 g % 2 ^ 16
  let lines := s.rd64 g / 2 ^ 16 % 2 ^ 16
  decide (len = 0 ∨ lines = 0 ∨ len * lines < count)

/-- The status of the first check of R324 that fails for a start of channel `n`, 0 for none. -/
def State.dmaCheck (s : State) (n : Nat) : Nat :=
  let c := s.dmaCount n
  let m := s.dmaMode n
  let op := s.dmaOp n
  let w := s.rd64 (O.DMA_CH_PLANE n) / 2 ^ 16 % 8
  let src := s.rd64 (O.DMA_CH_SRC n)
  let dst := s.rd64 (O.DMA_CH_DST n)
  let ends := decide (m = 0)
  let segs := (s.dmaSegs n c false ++ s.dmaSegs n c true).filter fun x => decide (x.len ≠ 0)
  if m = 3 ∨ op = 3 ∨ (op ≠ 0 ∧ m ≠ 0) ∨ 5 ≤ w then 1
  else if m = 2 ∧ ((s.mode ≠ 1 ∧ s.flag F.DMA_CTL.TWO_D_EN = false) ∨ s.geomBad (O.DMA_CH_SGEOM n) c = true ∨
      s.geomBad (O.DMA_CH_DGEOM n) c = true) then 1
  else if op ≠ 0 ∧ (c % s.dmaP n ≠ 0 ∨ c * 8 % (s.dmaP n * s.dmaW n) ≠ 0) then 1
  else if 2 ^ 44 ≤ src ∨ 2 ^ 44 ≤ dst ∨ (ends = true ∧ segs.any (fun x => decide (2 ^ 44 < x.addr + x.len)) = true) then 2
  else if ends = true ∧ (s.dmaBad n c).isSome = true then 4
  else if m = 1 ∧ (s.permBad n (s.rd64 (O.DMA_CH_LIST n)) 16 false).isSome = true then 4
  else 0

/-- A start that the channel accepts (R324, R329). -/
def State.dmaGo (s : State) (n : Nat) : State :=
  let d := s.dma n
  let s := s.setDma n { d with target := 0, have_ := false, last := false, addr := 0, pos := 0, moved := 0
                               src := s.rd64 (O.DMA_CH_SRC n), dst := s.rd64 (O.DMA_CH_DST n) }
  let s := (s.fset (F.DMA_CH_STAT.AT_END n) 0).wr64 (O.DMA_CH_POS n) 0
  let e := s.dmaCheck n
  if e ≠ 0 then s.dmaEnd n e
  else if s.dmaCount n = 0 ∧ s.dmaMode n ≠ 1 then s.dmaEnd n 0
  else s.setDmaState n 1

/-- RESUME (R329, R334). -/
def State.dmaResume (s : State) (n : Nat) : State :=
  if s.dmaState n = 3 then
    let s := (s.fset (F.DMA_CH_STAT.SH_PAUSED n) 0).setDmaState n 1
    if (s.dma n).have_ = true ∧ (s.dma n).last = true ∧ s.flag (F.DMA_CH_STAT.AT_END n) = false then
      s.fset (F.DMA_CH_STAT.END_PEND n) 1
    else s
  else if s.dmaState n = 0 ∧ s.flag (F.DMA_CH_STAT.AT_END n) = true then s.fset (F.DMA_CH_STAT.END_PEND n) 1
  else s

/-- ABORT (R329). -/
def State.dmaAbort (s : State) (n : Nat) : State :=
  if s.dmaState n = 1 ∨ s.dmaState n = 3 then s.dmaDrain n 6
  else if s.dmaState n = 0 ∧ s.flag (F.DMA_CH_STAT.AT_END n) = true then
    s.fsets [(F.DMA_CH_STAT.AT_END n, 0), (F.DMA_CH_STAT.END_PEND n, 0)]
  else s

/-- A write of DMA_CH_CTL_n (R322, R324, R325, R329, R330); in DORMANT, where the channels are stopped, START and RESUME are
denied as in SAFEHOLD. DESIGN CHOICE, notes/assumptions/41.md. -/
def State.dmaCtlWrite (s : State) (n : Nat) (data : Word) : State :=
  let start := bitOf data 31
  let pause := bitOf data 30
  let resume := bitOf data 29
  let abort := bitOf data 28
  if (s.mode = 6 ∨ s.mode = 7) ∧ (start || resume) = true then s.deny
  else if start then
    if s.dmaState n = 0 ∧ s.flag (F.DMA_CH_STAT.CPL_WAIT n) = false ∧ (pause || resume || abort) = false then
      (s.writeFields (O.DMA_CH_CTL n) data).dmaGo n
    else s.fset (F.DMA_CH_STAT.CFG_ERR n) 1
  else if abort then s.dmaAbort n
  else if pause = true ∧ resume = true then s.fset (F.DMA_CH_STAT.CFG_ERR n) 1
  else if pause then s.dmaPause n
  else if resume then s.dmaResume n
  else s.writeFields (O.DMA_CH_CTL n) data

/-- DMA_START (R324): a write of DMA_CH_CTL_n with START. -/
def execDmaStart (fn n : Nat) (data : Word) (s : State) : Host.Outcome State Fault Refusal :=
  .next (s.access fn (O.DMA_CH_CTL n) fun _ s => s.dmaCtlWrite n (data ||| 0x80000000))

/-- DMA_PAUSE (R329): a write with PAUSE and no START. -/
def execDmaPause (fn n : Nat) (data : Word) (s : State) : Host.Outcome State Fault Refusal :=
  .next (s.access fn (O.DMA_CH_CTL n) fun _ s => s.dmaCtlWrite n (data &&& 0x7FFFFFFF ||| 0x40000000))

/-- DMA_RESUME (R334): a write with RESUME and no START. -/
def execDmaResume (fn n : Nat) (data : Word) (s : State) : Host.Outcome State Fault Refusal :=
  .next (s.access fn (O.DMA_CH_CTL n) fun _ s => s.dmaCtlWrite n (data &&& 0x7FFFFFFF ||| 0x20000000))

/-- DMA_ABORT (R329): a write with ABORT and no START. -/
def execDmaAbort (fn n : Nat) (data : Word) (s : State) : Host.Outcome State Fault Refusal :=
  .next (s.access fn (O.DMA_CH_CTL n) fun _ s => s.dmaCtlWrite n (data &&& 0x7FFFFFFF ||| 0x10000000))

/-! ### The run's own events -/

/-- The run is complete (R329, R337): it ends with OK, or waits for its write responses. -/
def State.dmaComplete (s : State) (n : Nat) : State :=
  if s.flag (F.DMA_CH_CTL.FENCE n) then s.setDmaState n 4 else s.dmaEnd n 0

/-- DMA_LAST_WRITE_ISSUED (R329): the rest of the run is moved; `data` is what its reads of host memory return. A list run's
last write is that of its END entry, after the refetch. DESIGN CHOICE, notes/assumptions/41.md. -/
def execDmaLastWriteIssued (n : Nat) (data : List Byte) (s : State) : Host.Outcome State Fault Refusal :=
  if s.dmaState n ≠ 1 ∨ (s.dmaBad n (s.dmaCount n)).isSome = true then .next s
  else if s.dmaMode n = 1 then
    if s.flag (F.DMA_CH_STAT.AT_END n) = true ∧ s.dmaCount n = 0 then .next (s.dmaComplete n) else .next s
  else .next ((s.dmaMove n (s.dmaCount n) data).dmaComplete n)

/-- DMA_FENCE_DONE (R329). -/
def execDmaFenceDone (n : Nat) (s : State) : Host.Outcome State Fault Refusal :=
  if s.dmaState n = 4 then .next (s.dmaEnd n 0) else .next s

/-- DMA_DRAIN_DONE (R329, R331): the `k` bytes already read have been written, and the channel reaches its target. -/
def execDmaDrainDone (n k : Nat) (data : List Byte) (s : State) : Host.Outcome State Fault Refusal :=
  if s.dmaState n ≠ 2 ∨ s.dmaCount n < k ∨ k % s.dmaGroup n ≠ 0 ∨ (s.dmaBad n k).isSome = true ∨
      (s.dmaMode n = 1 ∧ (s.dma n).have_ = false ∧ k ≠ 0) then .next s
  else
    let s := s.dmaMove n k data
    let t := (s.dma n).target
    .next (if t = 0 then s.setDmaState n 3 else s.dmaEnd n t)

/-- A channel fails at an access or an entry (R329, R338). DESIGN CHOICE, notes/assumptions/41.md. -/
def State.dmaFail (s : State) (n status addr : Nat) : State := (s.wr64 (O.DMA_CH_ERRADDR n) (addr % 2 ^ 44)).dmaDrain n status

/-- DMA_ACCESS_ERROR (R329, R336): `cause` is the status, BUS_ERR (3) or MEM_ERR (5) at address `addr`, or ADDR_ERR (2) or PERM
(4) at the first obstacle of the run. -/
def execDmaAccessError (n cause addr : Nat) (s : State) : Host.Outcome State Fault Refusal :=
  if s.dmaState n = 1 ∨ s.dmaState n = 2 ∨ (s.dmaState n = 4 ∧ cause = 3) then
    if cause = 3 ∨ cause = 5 then .next (s.dmaFail n cause addr)
    else
      match s.dmaBad n (s.dmaCount n) with
      | some (c, a) => if c = cause then .next (s.dmaFail n c a) else .next s
      | none => .next s
  else .next s

/-! ### Lists (R332 to R334) -/

/-- The list register. -/
def State.dmaList (s : State) (n : Nat) : Nat := s.rd64 (O.DMA_CH_LIST n)

/-- DMA_CH_LIST moves on to the entry behind the current one (R333); an entry that would lie beyond 2^44 ends the run
(02_boundary_and_access.md R56). -/
def State.dmaNextEntry (s : State) (n : Nat) : State :=
  if s.dmaList n + 16 < 2 ^ 44 then s.wr64 (O.DMA_CH_LIST n) (s.dmaList n + 16) else s.dmaFail n 2 (s.dmaList n + 16)

/-- A list entry has returned (R332, R333); inside the window it is read there (R326). -/
def State.dmaEntry (s : State) (n : Nat) (e : List Byte) (err : Bool) : State :=
  let at_ := s.dmaList n
  let r := s.listFetch n at_ 16 e err
  let e := r.2.1
  let addr := hostWord2 e 0
  let len := hostWord e 2
  let fin := decide (hostWord e 3 / 2 ^ 31 % 2 = 1)
  let link := decide (hostWord e 3 / 2 ^ 30 % 2 = 1)
  let other := s.rd64 (if s.flag (F.DMA_CH_CTL.LIST_SIDE n) then O.DMA_CH_SRC n else O.DMA_CH_DST n)
  let s := r.2.2
  if r.1 ≠ 0 then s.dmaFail n r.1 at_
  else if fin = false ∧ link = true then
    if 2 ^ 44 ≤ addr ∨ addr % 16 ≠ 0 then s.dmaFail n 2 at_ else s.wr64 (O.DMA_CH_LIST n) addr
  else if addrOk addr len = false ∨ 2 ^ 44 < other + len then s.dmaFail n 2 at_
  else
    (s.setDma n { s.dma n with have_ := true, last := fin, addr := addr }).fsets
      [(F.DMA_CH_COUNT.COUNT n, len), (F.DMA_CH_STAT.END_PEND n, b2n fin)]

/-- DMA_LIST_FETCH_RETURN (R333): the rest of the entry before, whose host data is `data`, has been moved; the next entry
returns. -/
def execDmaListFetchReturn (n : Nat) (entry : List Byte) (err : Bool) (data : List Byte) (s : State) :
    Host.Outcome State Fault Refusal :=
  let d := s.dma n
  if s.dmaState n ≠ 1 ∨ s.dmaMode n ≠ 1 ∨ (d.have_ = true ∧ d.last = true) ∨
      (d.have_ = true ∧ (s.dmaBad n (s.dmaCount n)).isSome = true) then .next s
  else
    let s :=
      if d.have_ then
        let s := s.dmaMove n (s.dmaCount n) data
        (s.setDma n { s.dma n with have_ := false }).dmaNextEntry n
      else s
    .next (if s.dmaState n = 1 then s.dmaEntry n entry err else s)

/-- The walk goes on after an END entry that has lost its END: a LINK entry is fetched again, which follows it (R333, R334).
DESIGN CHOICE, notes/assumptions/41.md. -/
def State.dmaWalkOn (s : State) (n : Nat) (word : Word) : State :=
  let s := s.setDma n { s.dma n with have_ := false, last := false }
  if bitOf word 30 then s else s.dmaNextEntry n

/-- DMA_END_FETCH_RETURN (R333, R334): word 0x0C of the entry with END returns once more; the entry's data, of which `data` is
the part from host memory, has been moved. -/
def execDmaEndFetchReturn (n : Nat) (word : Word) (err : Bool) (data : List Byte) (s : State) : Host.Outcome State Fault Refusal :=
  if s.flag (F.DMA_CH_STAT.END_PEND n) = false then .next s
  else
    let at_ := s.dmaList n
    if s.dmaState n = 0 then
      let r := s.listFetch n (at_ + 12) 4 (natLe 4 word.toNat) err
      let word := BitVec.ofNat 32 (leNat r.2.1)
      let s := r.2.2.fset (F.DMA_CH_STAT.END_PEND n) 0
      if r.1 ≠ 0 then
        let s := s.setDma n { s.dma n with moved := 0 }
        .next (((s.wr64 (O.DMA_CH_ERRADDR n) at_).fset (F.DMA_CH_STAT.AT_END n) 0).dmaEnd n r.1)
      else if bitOf word 31 then .next s
      else
        let s := (s.fset (F.DMA_CH_STAT.AT_END n) 0).setDma n { s.dma n with moved := 0 }
        .next ((s.setDmaState n 1).dmaWalkOn n word)
    else if s.dmaState n ≠ 1 ∨ (s.dmaBad n (s.dmaCount n)).isSome = true then .next s
    else
      let r := (s.dmaMove n (s.dmaCount n) data).listFetch n (at_ + 12) 4 (natLe 4 word.toNat) err
      let word := BitVec.ofNat 32 (leNat r.2.1)
      let s := r.2.2.fset (F.DMA_CH_STAT.END_PEND n) 0
      if r.1 ≠ 0 then .next (s.dmaFail n r.1 at_)
      else if bitOf word 31 then .next (s.fset (F.DMA_CH_STAT.AT_END n) 1)
      else .next (s.dmaWalkOn n word)

/-! ### Ends (R330, R339) -/

/-- A write of channel `n` has failed after its end was signalled (R330; 18_faults_and_selftest.md R416). -/
def State.dmaLate (s : State) (n addr : Nat) : State :=
  let s := s.setFlag (F.DMA_CH_STAT.LATE_ERR n) (srcDma s.cfg n + 1)
  (s.wr64 (O.DMA_CH_ERRADDR n) (addr % 2 ^ 44)).logFault 0x03 n (addr % 2 ^ 32) .l

/-- DMA_LATE_WRITE_ERROR (R330; 18_faults_and_selftest.md R416). -/
def execDmaLateWriteError (n addr : Nat) (s : State) : Host.Outcome State Fault Refusal :=
  if n < s.cfg.dmaChannels then .next (s.dmaLate n addr) else .next s

/-- DMA_RECORD_WRITE (R339, R322): the record that waits in channel `n` is written while the completion queue runs and has
room. `err` is an error response on the write, reported as a late write error (02_boundary_and_access.md R59).
DESIGN CHOICE, notes/assumptions/41.md. -/
def execDmaRecordWrite (n : Nat) (s : State) (err : Bool := false) : Host.Outcome State Fault Refusal :=
  match (s.dma n).rec_ with
  | none => .next s
  | some r =>
    let w := s.fget F.DMA_CQ_IDX.TAIL
    let l := s.fget F.DMA_CQ_CFG.L
    if s.flag F.DMA_CQ_CFG.EN = true ∧ (w + 65536 - s.fget F.DMA_CQ_IDX.HEAD) % 65536 < 2 ^ l ∧ 1 ≤ s.mode ∧ s.mode ≤ 5 then
      let w0 := (if w / 2 ^ l % 2 = 0 then 2 ^ 31 else 0) + r.status * 2 ^ 24 + (s.dma n).seq % 256 * 2 ^ 16 + n
      let at_ := s.rd64 O.DMA_CQ_BASE + 16 * (w % 2 ^ l)
      let s := s.emit (.write (.chan n) at_ (words4 w0 r.bytes r.list r.ns))
      let s := (s.fset F.DMA_CQ_IDX.TAIL (w + 1)).setDma n { s.dma n with rec_ := none, seq := (s.dma n).seq + 1 }
      let s := (s.fset (F.DMA_CH_STAT.CPL_WAIT n) 0).raise (srcSpine s.cfg + 1)
      .next (if err then s.dmaLate n at_ else s)
    else .next s

/-- A write of DMA_CQ_IDX (R339): a HEAD beyond the tail is ignored. -/
def State.dmaHeadWrite (s : State) (data : Word) : State :=
  let h := s.fget F.DMA_CQ_IDX.HEAD
  let d (x : Nat) : Nat := (x + 65536 - h) % 65536
  if d (s.fget F.DMA_CQ_IDX.TAIL) < d (getBits data 0 16) then s.fset F.DMA_CQ_CFG.HEAD_ERR 1
  else s.fset F.DMA_CQ_IDX.HEAD (getBits data 0 16)

/-- DMA_CQ_HEAD_WRITE (R339). -/
def execDmaCqHeadWrite (fn : Nat) (data : Word) (s : State) : Host.Outcome State Fault Refusal :=
  .next (s.access fn O.DMA_CQ_IDX fun _ s => s.dmaHeadWrite data)

end Sys2Proof.Machine
end

