-- ==== Sys2Proof/Machine/Faults.lean ====
section
/-!
DEFINITION. The host watchdog, releasing fault-log entries and reading the log (18_faults_and_selftest.md R417, R421, R423).
-/
namespace Sys2Proof.Machine

/-- The watchdog runs while FLT_WDOG.EN = 1, outside SAFEHOLD, RESET and DORMANT (R417).
DESIGN CHOICE, notes/assumptions/54.md. -/
def State.wdogRuns (s : State) : Bool := s.flag F.FLT_WDOG.EN && decide (s.mode ≠ 0 ∧ s.mode ≠ 6 ∧ s.mode ≠ 7)

/-- A write of FLT_WDOG: EN starts or stops the watchdog, KICK restarts it from the full limit (R417). -/
def State.wdogWrite (data : Word) (s : State) : State :=
  let s := s.writeFields O.FLT_WDOG data
  s.setFlt { s.flt with wdog := s.wdogRuns }

/-- WATCHDOG_KICK (R417): a write of FLT_WDOG with KICK = 1. -/
def execWatchdogKick (fn : Nat) (data : Word) (s : State) : Host.Outcome State Fault Refusal :=
  .next (s.access fn O.FLT_WDOG fun _ s => s.wdogWrite (setBits data 30 1 1))

/-- WATCHDOG_EXPIRY (R417): the count has reached 0: fault 0x83, class C, DETAIL LIMIT_US.
DESIGN CHOICE, notes/assumptions/54.md. -/
def execWatchdogExpiry (s : State) : Host.Outcome State Fault Refusal :=
  if s.flt.wdog then
    .next ((s.setFlt { s.flt with wdog := false }).logFault 0x83 0 (s.fget F.FLT_WDOG.LIMIT_US) .c)
  else .next s

/-- Whether the condition of log entry `n` has ended (R423). DESIGN CHOICE, notes/assumptions/54.md. -/
def State.faultEnded (s : State) (n : Nat) : Bool :=
  let w := s.rd (logWord n 0)
  let code := getBits w 16 8
  let i := getBits w 0 12
  if code = 0x10 then !(s.port i).clkLost
  else if code = 0x11 then !(s.trunk i).clkLost
  else if code = 0x82 then !(s.tb i).lost
  else decide (code ≠ 0x80)

/-- A write of FLT_CLEAR (R423): with GO, the entry named is released, or RESULT says why not. -/
def State.fltClearWrite (data : Word) (s : State) : State :=
  let s := s.writeFields O.FLT_CLEAR data
  if bitOf data 31 then
    let n := s.fget F.FLT_CLEAR.ENTRY
    if s.logActive n = false then s.fset F.FLT_CLEAR.RESULT 3
    else if s.faultEnded n = false then s.fset F.FLT_CLEAR.RESULT 2
    else
      let s := s.wr (logWord n 0) (setBits (s.rd (logWord n 0)) 29 1 0)
      s.fsets [(F.FLT_STAT.ACTIVE, s.activeCount), (F.FLT_CLEAR.RESULT, 1)]
  else s

/-- FAULT_CLEAR (R423): a write of FLT_CLEAR with GO = 1. -/
def execFaultClear (fn : Nat) (data : Word) (s : State) : Host.Outcome State Fault Refusal :=
  .next (s.access fn O.FLT_CLEAR fun _ s => s.fltClearWrite (setBits data 31 1 1))

/-- FLT_LOG_READ (R421): a read of word 0 of entry `n` latches words 1 to 3. -/
def execFltLogRead (fn n : Nat) (s : State) : Host.Outcome State Fault Refusal :=
  .next (s.access fn (O.FLT_LOG (n % 32)) fun key s => (s.latchNext key 3).answer false (s.rd key).toNat)

/-- A write of FLT_STAT: CONTAIN_LOST is released by W1C when no entry is ACTIVE (R423). -/
def State.fltStatWrite (data : Word) (s : State) : State :=
  if s.activeCount = 0 then s.writeFields O.FLT_STAT data else s

/-- A write of word 0 of a log entry: clearing VALID of an ACTIVE entry has no effect (R421). -/
def State.fltLogWrite (n key : Nat) (data : Word) (s : State) : State :=
  if s.logActive n then s else s.writeFields key data

end Sys2Proof.Machine
end

