-- ==== Sys2Proof/Machine/Memory.lean ====
section
/-!
DEFINITION. Buffer memory at work: bank commands, the debug word, migration, the pointing pass, errors and their verdict
(13_buffer_memory_and_placement.md R343, R345, R347, R348, R351 to R356; 18_faults_and_selftest.md R419).
-/
namespace Sys2Proof.Machine

/-! ### Bank commands (R343) -/

/-- A command of MEM_BANK_CMD ends with a RESULT; source 10 rises (15_interrupts.md R371). DEDUCED, notes/assumptions/64.md. -/
def State.bankResult (s : State) (r : Nat) : State := (s.fset F.MEM_BANK_CMD.RESULT r).raise 10

/-- EVACUATE of bank `b` (R343). DESIGN CHOICE, notes/assumptions/35.md. -/
def State.evacuate (s : State) (b : Nat) : State :=
  if s.flag F.MEM_BANK_CMD.BUSY then s.bankResult 2
  else if ¬ (2 ≤ s.mode ∧ s.mode ≤ 5) then s.bankResult 5
  else if s.bankOn b = false then s.bankResult 3
  else
    let rest := (s.halfBanks (s.cfg.halfOfBank b)).filter fun x => x != b && s.bankOn x
    if (rest.foldl (fun a x => a + s.freeIn x) 0) < s.fget (F.MEM_BANK_STAT.LIVE b) then s.bankResult 4
    else
      let l := (bankGrans b).filter fun g => (s.gran g).live
      let s := s.setMem { s.mem with evac := some b, moves := l ++ s.mem.moves.filter fun g => !l.contains g }
      s.fsets [(F.MEM_BANK_STAT.NOALLOC b, 1), (F.MEM_BANK_CMD.BUSY, 1), (F.MEM_BANK_CMD.RESULT, 0)]

/-- RELEASE of bank `b` (R343). DESIGN CHOICE, notes/assumptions/35.md. -/
def State.releaseBank (s : State) (b : Nat) : State :=
  if s.bankOn b then (s.fset (F.MEM_BANK_STAT.NOALLOC b) 0).bankResult 1 else s.bankResult 3

/-- A write of MEM_BANK_CMD (R343). -/
def State.bankCmdWrite (s : State) (data : Word) : State :=
  let s := s.writeFields O.MEM_BANK_CMD data
  let b := getBits data 24 5
  if bitOf data 31 = false then s
  else if getBits data 4 2 = 1 then s.evacuate b
  else if getBits data 4 2 = 2 then s.releaseBank b
  else s.bankResult 3

/-- BANK_EVACUATE (R343): GO with OP 1. -/
def execBankEvacuate (fn : Nat) (data : Word) (s : State) : Host.Outcome State Fault Refusal :=
  .next (s.access fn O.MEM_BANK_CMD fun _ s => s.bankCmdWrite (setBits (data ||| 0x80000000) 4 2 1))

/-- BANK_RELEASE (R343): GO with OP 2. -/
def execBankRelease (fn : Nat) (data : Word) (s : State) : Host.Outcome State Fault Refusal :=
  .next (s.access fn O.MEM_BANK_CMD fun _ s => s.bankCmdWrite (setBits (data ||| 0x80000000) 4 2 2))

/-- BANK_CMD_UNKNOWN_OP (R343): GO with OP 0 or 3. -/
def execBankCmdUnknownOp (fn : Nat) (data : Word) (s : State) : Host.Outcome State Fault Refusal :=
  .next (s.access fn O.MEM_BANK_CMD fun _ s =>
    s.bankCmdWrite (setBits (data ||| 0x80000000) 4 2 (if bitOf data 4 then 3 else 0)))

/-- EVACUATE_DONE (R343): LIVE of the bank has reached 0. -/
def execEvacuateDone (s : State) : Host.Outcome State Fault Refusal :=
  match s.mem.evac with
  | none => .next s
  | some b =>
    if s.fget (F.MEM_BANK_STAT.LIVE b) = 0 then
      .next (((s.setMem { s.mem with evac := none }).fset F.MEM_BANK_CMD.BUSY 0).bankResult 1)
    else .next s

/-! ### The debug word (R345) -/

/-- The frame byte that lies at a buffer address, if one does: frame number, frame and position. -/
def State.frameAt (s : State) (a : Nat) : Option (Nat × Frame × Nat) :=
  s.frames.findSome? fun f =>
    (f.2.parts.find? fun p => decide (4096 * p.1 + p.2.1 ≤ a ∧ a < 4096 * p.1 + p.2.1 + p.2.2.2)).map
      fun p => (f.1, f.2, a - (4096 * p.1 + p.2.1) + p.2.2.1)

/-- The plain bytes of `k` bytes from buffer address `a` on: of frames, of words written through the debug window, and free
values for bytes that nothing defines (R350). DESIGN CHOICE, notes/assumptions/34.md. -/
def State.plainBytes (s : State) (a : Nat) : Nat → List Byte × State
  | 0 => ([], s)
  | k + 1 =>
    let x : Byte × State :=
      match s.frameAt a with
      | some (_, f, i) => (byteAt f.bytes i, s)
      | none =>
        match KMap.find? s.mem.words (a / 8) with
        | some w => (BitVec.ofNat 8 (w.toNat >>> (8 * (a % 8))), s)
        | none => (s.freeVal.truncate 8, s.useFree)
    let r := x.2.plainBytes (a + 1) k
    (x.1 :: r.1, r.2)

/-- The draw of a granule owner's key, if it has one (R287, R350). -/
def State.ownerKey (s : State) (owner : Nat) : Option Nat :=
  if 256 ≤ owner then s.mem.key else (KMap.get {} s.funcs owner : Func).key

/-- Whether the debug window shows a granule in plaintext: owned by the block or by function 0 (R345). -/
def Gran.plain (v : Gran) : Bool := v.live && decide (v.owner = 0 ∨ 256 ≤ v.owner)

/-- The address at which an error is handled: that of the new granule while the old one moves (R348). -/
def State.movedAddr (s : State) (a : Nat) : Nat :=
  match s.mem.move with
  | some (x, y) => if a / 4096 = x then 4096 * y + a % 4096 else a
  | none => a

/-- The word that the debug window shows for the word at buffer address `a`. DESIGN CHOICE, notes/assumptions/34.md. -/
def State.dbgWord (s : State) (a : Nat) : BitVec 64 × State :=
  let v := s.gran (a / 4096)
  let r := s.plainBytes a 8
  let w := BitVec.ofNat 64 (leNat r.1)
  if v.plain then (w, r.2)
  else
    match v.live, s.ownerKey v.owner with
    | true, some k => (Config.cipher k (s.movedAddr a / 8) w, r.2)
    | _, _ => (s.freeVal, s.useFree)

/-- Buffer address that MEM_DBG_ADDR names. -/
def State.dbgAddr (s : State) : Nat := (s.rd O.MEM_DBG_ADDR).toNat / 8 * 8

/-- A word is poisoned. -/
def State.wordPoisoned (s : State) (a : Nat) : Bool := (s.gran (a / 4096)).poison.contains (a % 4096 / 8)

/-- A read of the low word of MEM_DBG_DATA (R345): the word is read and its high word latched. A poisoned word of a FREE granule is
written with zeros and read so (R354). -/
def State.dbgRead (s : State) : State :=
  let a := s.dbgAddr
  let none_ (s : State) := (s.setHold (KMap.insert s.hold (O.MEM_DBG_DATA + 4) 0)).deny
  if s.bankOn (a / 262144) = false then none_ s
  else if s.mayRead 14 (a / 4096) = false then none_ (s.denyRegion 14 false a)
  else if s.wordPoisoned a = true ∧ (s.gran (a / 4096)).state = 0 then
    let s := s.cleanFree (a / 4096) (a % 4096) 8
    (s.setHold (KMap.insert s.hold (O.MEM_DBG_DATA + 4) 0)).answer false 0
  else if s.wordPoisoned a then none_ s
  else
    let r := s.dbgWord a
    (r.2.setHold (KMap.insert r.2.hold (O.MEM_DBG_DATA + 4) (r.1.extractLsb' 32 32))).answer false (r.1.toNat % 2 ^ 32)

/-- Writes the 8 bytes of the word at buffer address `a`: into the frames that lie there, and as a debug word; its poison is
cleared (R355). -/
def State.putWord (s : State) (a : Nat) (w : BitVec 64) : State :=
  let s := s.setMem { s.mem with words := KMap.insert s.mem.words (a / 8) w }
  let s := forEach (List.range 8) (fun i s =>
    match s.frameAt (a + i) with
    | some (n, f, j) => s.setFrame n { f with bytes := patch f.bytes j [BitVec.ofNat 8 (w.toNat >>> (8 * i))] }
    | none => s) s
  let v := s.gran (a / 4096)
  s.setGran (a / 4096) { v with poison := v.poison.filter (· != a % 4096 / 8) }

/-- A write of the high word of MEM_DBG_DATA (R345, R55). -/
def State.dbgWrite (s : State) (hi : Word) : State :=
  let a := s.dbgAddr
  let lo := (KMap.find? s.stage O.MEM_DBG_DATA).getD (s.rd O.MEM_DBG_DATA)
  let s := s.setStage (KMap.erase s.stage O.MEM_DBG_DATA)
  if s.bankOn (a / 262144) = false ∨ (s.gran (a / 4096)).plain = false then s.deny
  else if s.mayWrite 14 (a / 4096) = false then (s.denyRegion 14 true a).deny
  else s.putWord a (hi ++ lo)

/-- MEM_DBG_WRITE (R345). -/
def execMemDbgWrite (fn : Nat) (data : Word) (s : State) : Host.Outcome State Fault Refusal :=
  .next (s.access fn (O.MEM_DBG_DATA + 4) fun _ s => s.dbgWrite data)

/-- MEM_DBG_READ (R345). -/
def execMemDbgRead (fn : Nat) (s : State) : Host.Outcome State Fault Refusal :=
  .next (s.access fn O.MEM_DBG_DATA fun _ s => s.dbgRead)

/-! ### Errors (R353, R354) -/

/-- A word is poisoned (R354): counted, and the next entry of the poison log, whose VALID raises the memory source. -/
def State.poisonWord (s : State) (a : Nat) : State :=
  let g := a / 4096
  let v := s.gran g
  let s := (s.setGran g { v with poison := v.poison ++ [a % 4096 / 8] }).memCnt 5
  let n := s.fget F.MEM_POISON_IDX.NEXT
  let s := s.wr64 (O.MEM_POISON_LOG n) (2 ^ 63 + v.owner % 512 * 2 ^ 48 + v.qp % 4096 * 2 ^ 32 + a)
  (s.fset F.MEM_POISON_IDX.NEXT (n + 1)).raiseMem

/-- A granule that failed is retired (R356): at once when FREE, after its move when ALLOCATED. -/
def State.retireGran (s : State) (g : Nat) : State :=
  let v := s.gran g
  if v.state = 0 then s.markRetired g
  else if v.state = 1 then
    let s := s.setGran g { v with retire := true }
    if s.mem.moves.contains g then s else s.setMem { s.mem with moves := s.mem.moves ++ [g] }
  else if v.state = 2 then s.setGran g { v with retire := true }
  else s

/-- The first error is kept in MEM_ERR_LOG (R353). -/
def State.logError (s : State) (unc : Bool) (master a : Nat) : State :=
  (s.wr64 O.MEM_ERR_LOG (2 ^ 63 + (if unc then 2 else 1) * 2 ^ 61 + master % 16 * 2 ^ 55 + a)).raiseMem

/-- An uncorrectable word in a granule in use is poisoned and reported by who met it (R354).
DESIGN CHOICE, notes/assumptions/35.md. -/
def State.poisonMet (s : State) (a master : Nat) (key : List Byte) : State :=
  let g := a / 4096
  let s := if s.wordPoisoned a then s else s.poisonWord a
  if master = 15 then s.poisonEvent g a
  else if master = 13 ∧ (s.gran g).em = true then
    (forEach s.halfList (fun h s => s.setEm h ((s.em h).filter fun e => e.key != key)) s).poisonEvent g a
  else s

/-- An ECC error of buffer memory is detected at address `addr` by master `m`, 15 for pass, re-test or migration
(R353, R354). With `written` a write lands on the word in the same cycle: it wins, and the word is not poisoned (R355).
DESIGN CHOICE, notes/assumptions/35.md. -/
def State.bufError (s : State) (addr : Nat) (unc : Bool) (m : Nat) (key : List Byte) (written : Bool) : State :=
  let a := s.movedAddr (addr / 8 * 8)
  let g := a / 4096
  let free := decide ((s.gran g).state = 0)
  let s := s.memCnt (if unc then 1 else 0)
  let quiet := free && unc
  let first := !quiet && !s.flag F.MEM_ERR_LOG.VALID
  let s := if first then s.logError unc m a else s
  let s := if unc = true ∧ free = false ∧ written = false then s.poisonMet a m key else s
  if s.mem.retests.any (fun r => r.1 == a / 256) then s
  else if 16 ≤ s.mem.retests.length then
    let s := if first then s.fset F.MEM_ERR_LOG.VERDICT 2 else s
    (s.logFault 0x21 g a .l).retireGran g
  else s.setMem { s.mem with retests := s.mem.retests ++ [(a / 256, unc, a, first)] }

/-! ### Migration (R347, R348) -/

/-- Moves the frames' references and the debug words of granule `a` to granule `b`. -/
def State.redirect (s : State) (a b : Nat) : State :=
  let part (p : Part) : Part := if p.1 = a then (b, p.2) else p
  let s := s.setFrames (s.frames.map fun f => (f.1, { f.2 with parts := f.2.parts.map part }))
  let mine := s.mem.words.filter fun w => w.1 / 512 == a
  s.setMem { s.mem with words := mine.foldl (fun m w => KMap.insert m (512 * b + w.1 % 512) w.2)
                                   (s.mem.words.filter fun w => w.1 / 512 != a) }

/-- Stalls or releases the queue pair that a granule belongs to. -/
def State.stallQp (s : State) (v : Gran) (on : Bool) : State :=
  if v.owner < 256 ∧ v.qp < 0xFFF then s.setQp v.qp { s.qp v.qp with stalled := on } else s

/-- MIGRATION_START (R347, R348): the first granule that waits and is still in use starts to move to a FREE granule of its half;
without one it stays in use, and NO_SPARE is set; the next for which there is one moves. `spill` gives the host addresses of
placement traffic that met an error response: those accesses are dropped and logged (02_boundary_and_access.md R59;
18_faults_and_selftest.md R416 code 0x02). DESIGN CHOICE, notes/assumptions/83.md. -/
def execMigrationStart (s : State) (spill : List Nat := []) : Host.Outcome State Fault Refusal :=
  let s := forEach spill (fun a s => s.logFault 0x02 0 (a % 2 ^ 32) .l) s
  if s.mem.move.isSome then .next s
  else
    let l := s.mem.moves.filter fun g => decide ((s.gran g).state = 1) && s.bankOn (g / 64)
    let s := s.setMem { s.mem with moves := l }
    let spare (g : Nat) : Option Nat :=
      s.pickGran ((s.halfBanks (s.cfg.halfOfBank (g / 64))).filter fun b => s.mem.evac != some b)
    match l with
    | [] => .next s
    | first :: _ =>
      let s := if (spare first).isSome then s else ((s.fset F.MEM_STAT.NO_SPARE 1).raiseMem).logFault 0x22 first 0 .l
      match l.findSome? fun g => (spare g).map fun n => (g, n) with
      | none => .next s
      | some (g, n) =>
        let v := s.gran g
        let s := s.setMem { s.mem with moves := l.filter (· != g), move := some (g, n) }
        let s := s.setGran n { v with state := 2, poison := [], retire := false, em := false }
        .next (((s.setGran g { v with state := 2 }).fset F.MEM_STAT.MIGRATING 1).stallQp v true)

/-- A granule that has finished moving with RETIRE set on its new place waits to move again. -/
def State.requeue (s : State) (g : Nat) : State :=
  if (s.gran g).retire = true ∧ s.mem.moves.contains g = false then s.setMem { s.mem with moves := s.mem.moves ++ [g] } else s

/-- MIGRATION_DONE (R347): the references follow; words of the granule that read uncorrectable, by word number, are written
poisoned at the new place, and counted, logged, reported and re-tested there (R353); the old granule becomes FREE or RETIRED.
DESIGN CHOICE, notes/assumptions/35.md. -/
def execMigrationDone (bad : List Nat) (s : State) : Host.Outcome State Fault Refusal :=
  match s.mem.move with
  | none => .next s
  | some (a, b) =>
    let v := s.gran a
    let n := s.gran b
    let s := (s.setMem { s.mem with move := none }).redirect a b
    let s := s.setGran b { v with state := 1, retire := n.retire, poison := v.poison ++ n.poison.filter fun w => !v.poison.contains w }
    let s := s.setGran a { poison := v.poison }
    let s := if v.retire then s.markRetired a else s
    let s := forEach (bad.filter fun w => decide (w < 512) && !(v.poison ++ n.poison).contains w) (fun w s =>
      s.bufError (4096 * b + 8 * w) true 15 [] false) s
    let s := ((s.memCnt 7).fset F.MEM_STAT.MIGRATING 0).stallQp v false
    .next ((s.requeue b).sweepGrans)

/-! ### The pointing pass (R351, R352) -/

/-- Regions of the configuration's memory. -/
def State.regions (s : State) : Nat := 16 * s.cfg.granules

/-- Whether the pass tests region `r`: its bank ON, its granule neither RETIRED nor MOVING (R351, R348). -/
def State.testable (s : State) (r : Nat) : Bool := s.bankOn (r / 1024) && decide ((s.gran (r / 16)).state < 2)

/-- The next region to test from `r` on, with how often the pass wraps. `fuel` bounds the search. -/
def State.nextRegion (s : State) (r wraps : Nat) : Nat → Option (Nat × Nat)
  | 0 => none
  | fuel + 1 =>
    if s.testable r then some (r, wraps)
    else if r + 1 = s.regions then s.nextRegion 0 (wraps + 1) fuel
    else s.nextRegion (r + 1) wraps fuel

/-- POINTING_PASS_TIMER (R351): the test of the next region starts. -/
def execPointingPassTimer (s : State) : Host.Outcome State Fault Refusal :=
  if s.flag F.MEM_PP_CFG.EN = true ∧ s.mode ≠ 0 ∧ s.mode ≠ 7 ∧ s.mem.test = none then
    match s.nextRegion (s.fget F.MEM_PP_STAT.REGION) 0 s.regions with
    | none => .next s
    | some (r, w) =>
      let last := decide (r + 1 = s.regions)
      let s := (s.setMem { s.mem with test := some r }).cleanFree (r / 16) (256 * (r % 16)) 256
      .next (s.fsets [(F.MEM_PP_STAT.REGION, if last then 0 else r + 1),
        (F.MEM_PP_STAT.PASSES, s.fget F.MEM_PP_STAT.PASSES + w + b2n last)])
  else .next s

/-! ### Re-tests and verdicts (R353; 18 R419) -/

/-- RETEST_START (R353; 18 R419): an ECC error is detected and its region waits for its re-test. `kind` 0 is buffer memory, with
the buffer address and the master that met it, the key of an exact-match entry that lies there, and whether a write of the word
meets the error (R355); 1 an engine memory, `m` the engine and `addr` its debug-window offset; 2 a spine state memory, `m`
its number and `addr` its word offset. A corrected error of an engine memory counts in CE_CNT 6, unless an instruction met it
and has counted it (`own`; 09_engine_threads.md R237).
DESIGN CHOICE, notes/assumptions/35.md. -/
def execRetestStart (kind m addr : Nat) (unc : Bool) (key : List Byte) (s : State) (own : Bool := false) (written : Bool := false) :
    Host.Outcome State Fault Refusal :=
  if kind = 0 then
    if addr < 4096 * s.cfg.granules ∧ s.bankOn (addr / 262144) = true ∧ (s.gran (addr / 4096)).state ≠ 3 then
      .next (s.bufError addr unc m key written)
    else .next s
  else if kind = 1 ∧ m < s.cfg.engines ∧ s.domOn (4 + s.cfg.clusterOf m) = true then
    let s := if unc = false ∧ own = false then s.ceCnt m 6 else s
    .next (s.setMem { s.mem with others := s.mem.others ++ [(1, m, addr % 0x40000, unc)] })
  else if kind = 2 ∧ m < 4 ∧ s.domOn 1 = true then .next (s.setMem { s.mem with others := s.mem.others ++ [(2, m, addr, unc)] })
  else .next s

/-- The verdict on a region of buffer memory (R353): counted, reported, and the granule retired when it is lasting.
DESIGN CHOICE, notes/assumptions/35.md. -/
def State.verdict (s : State) (a : Nat) (first fail : Bool) : State :=
  let s := (s.memCnt (if fail then 3 else 2)).raiseMem
  let s :=
    if first = true ∧ s.flag F.MEM_ERR_LOG.VALID = true ∧ s.fget F.MEM_ERR_LOG.ADDR = a then
      s.fset F.MEM_ERR_LOG.VERDICT (if fail then 2 else 1)
    else s
  if fail then (s.logFault 0x20 (a / 4096) a (.e 3) 2).retireGran (a / 4096) else s

/-- The verdict on an engine memory or a spine state memory (18 R419). -/
def State.otherVerdict (s : State) (kind m addr : Nat) (unc fail : Bool) : State :=
  if kind = 1 then
    let s :=
      if unc then
        let r := s.freeBytes 4
        r.2.winWrite m (addr / 4 * 4) r.1
      else s
    if fail then (s.logFault 0x31 m addr (.e 3) 2).stopEngine m else s
  else s.logFault 0x80 m addr (if unc = false ∧ fail = false then .l else .c) (if fail then 2 else 1)

/-- REGION_TEST_DONE (R352, R353; 18 R419): the test of the first waiting region of memory kind `kind` ends, `fail` telling that
a read-back differed; of buffer memory the re-tests come before the pass. -/
def execRegionTestDone (kind : Nat) (fail : Bool) (s : State) : Host.Outcome State Fault Refusal :=
  if kind = 0 then
    match s.mem.retests, s.mem.test with
    | (_, _, a, first) :: rest, _ => .next (((s.setMem { s.mem with retests := rest }).memCnt 8).verdict a first fail)
    | [], some r =>
      let s := (s.setMem { s.mem with test := none }).memCnt 8
      if fail then .next (s.verdict (256 * r) false true) else .next s
    | [], none => .next s
  else
    match s.mem.others.find? fun o => o.1 == kind with
    | none => .next s
    | some o =>
      let s := s.setMem { s.mem with others := s.mem.others.erase o }
      .next (s.otherVerdict o.1 o.2.1 o.2.2.1 o.2.2.2 fail)

end Sys2Proof.Machine
end

