-- ==== Sys2Proof/Machine/Rules.lean ====
section
/-!
DEFINITION. The classifier's commands: classification, the stage and the ternary entries, commits, the exact-match table,
learning, aging and flushes, recovery timeouts (08_rules_courses_forwarding.md R211 to R235).
-/
namespace Sys2Proof.Machine

/-! ### Classification (R211) -/

/-- Whether an address is unicast and not all zeros (R226). -/
def unicast (a : List Byte) : Bool := decide ((byteAt a 0).toNat % 2 = 0) && a.any fun b => b != 0

/-- The port and channel that a frame came from. -/
def Frame.ingress (f : Frame) : Option (Nat × Nat) :=
  match f.src with
  | .port p => some (p, 0)
  | .chan t c => some (8 + t, c)
  | _ => none

/-- Learning (R226): the change is on its way to the table. -/
def State.learn (s : State) (h : Nat) (f : Frame) (a : Act) : State :=
  let src := slice f.bytes 6 6
  match f.ingress with
  | some (p, c) =>
    if a.learn = true ∧ s.flag F.CLS_CTL.LEARN_EN = true ∧ unicast src = true ∧ f.fcsErr = false ∧ s.fget F.CLS_EM_CFG.LOG2 ≠ 0 then
      s.setCls { s.cls with learns := s.cls.learns ++ [{ half := h, key := fwdKey src f.vidUsed, port := p, chan := c }] }
    else s
  | none => s

/-- The course that a frame entered under. -/
def State.courseOf (s : State) (f : Frame) : Course :=
  (List.find? (fun c : Course => c.num == f.course) s.cls.courses).getD ⟨f.course, 0, 0, 0, 0, 0, false⟩

/-- The action of a frame after steps 1 and 2 of R211, and the entry that matched, 4096 for none.
DESIGN CHOICE, notes/assumptions/28.md. -/
def State.decideAct (s : State) (h : Nat) (f : Frame) : Nat × Nat × State :=
  let c := s.courseOf f
  let r : Nat × Nat × State :=
    match s.tcamFind c.pos (keyNat f.parse.key) with
    | some (i, t) => (t.act, i, s.clsCnt h 1)
    | none => (c.defAct, 4096, s.clsCnt h 2)
  if natBits r.1 60 1 = 1 then
    let x := r.2.2.emLookup h false (flowKey f.parse.key c.flow)
    match x.1 with
    | some e => (e.act, r.2.1, x.2.clsCnt h 3)
    | none => (r.1, r.2.1, x.2.clsCnt h 4)
  else r

/-- The mirror copy, one more destination (R211 steps 5 and 6). DESIGN CHOICE, notes/assumptions/28.md. -/
def State.mirror (s : State) (a : Act) : List Dest :=
  let q := s.fget F.CLS_CTL.MIRROR_Q
  if a.mirror = true ∧ s.flag F.CLS_CTL.MIRROR_EN = true ∧ s.qpTakes q = true then [.queue q] else []

/-- The classifier of half `h` decides frame `fid`, which has left the pipeline (R211). -/
def State.classify (s : State) (h fid : Nat) : State :=
  let f := s.frame fid
  let s := s.clsCnt h 0
  let d := s.decideAct h f
  let s := d.2.2
  let a := readAct d.1
  let hash := hashOf f.parse.key (s.courseOf f).hash
  let s := s.learn h f a
  let pri := if a.priEn then a.pri else f.pri
  let s := s.setFrame fid { f with act := d.1, rule := d.2.1, hash := hash, parse := { f.parse with stage := 3 } }
  let n := s.takeSeq a
  let r : Route :=
    { fid := fid, act := a, half := h, ingress := f.ingress.map (·.1), pri := pri, bound := s.boundTo (byteAt f.parse.key 0).toNat
      src := f.src.index, hash := hash, seq := n.1
      word3 := f.course % 16 * 2 ^ 28 + b2n (decide (d.2.1 < 4096)) * 2 ^ 27 + pri * 2 ^ 24 + d.2.1 % 4096 }
  let l := n.2.resolve r
  let s := (l.2.send r (l.1 ++ l.2.mirror a)).ownBlock fid
  if f.done then ((s.judgeLens fid).placeFrame fid 13).tidy else s.tidy

/-- The follower's copy as it is within 5 cycles (4 ticks) of a removal, with the entries that the leader has just removed (R226). -/
def State.lateCopy (s : State) (h : Nat) : List EmEnt :=
  s.em h ++ ((s.cls.removed.filter fun x => decide (s.ticks ≤ x.2 + 4)).map (·.1))

/-- CLASSIFY (R211, R212): the oldest parse result of half `h`, once the frame's source address, VID and priority have
arrived, and an R-TAG that the action looks at. With `late` a follower still sees in its copy the entries that the leader has just
removed: its frame is forwarded by them, and the leader ignores the hits (R226). DEDUCED, notes/assumptions/27.md. -/
def execClassify (h : Nat) (s : State) (late : Bool := false) : Host.Outcome State Fault Refusal :=
  match (s.pipe h).results with
  | [] => .next s
  | fid :: rest =>
    let old := s.em h
    let behind := late && decide (s.cfg = .x) && s.linked && decide (h ≠ s.leader)
    let t := if behind then s.setEm h (s.lateCopy h) else s
    let f := s.frame fid
    if f.headKnown = true ∧ t.rtagKnown (readAct (t.decideAct h f).1) f = true then
      let r := (t.setPipe h { s.pipe h with results := rest }).classify h fid
      .next (if behind then r.setEm h ((r.em h).take old.length) else r)
    else .next s

/-! ### The stage and the ternary entries (R218) -/

/-- Whether the mode is one of the four in which the tables take operations (R218). -/
def State.tablesMode (s : State) : Bool := decide (2 ≤ s.mode ∧ s.mode ≤ 5)

/-- Changes every ternary entry that is listed. -/
def State.mapTcam (s : State) (f : Tcam → Tcam) : State :=
  s.setCls { s.cls with tcam := (s.cls.tcam.map fun t => (t.1, f t.2)).filter fun t => decide (t.2 ≠ {}) }

/-- Ternary entry `i`. -/
def State.tcamAt (s : State) (i : Nat) : Tcam := KMap.get {} s.cls.tcam i

/-- Replaces ternary entry `i`. -/
def State.setTcam (s : State) (i : Nat) (t : Tcam) : State := s.setCls { s.cls with tcam := KMap.put {} s.cls.tcam i t }

/-- Whether a stage is open. -/
def State.stageOpen (s : State) : Bool := s.flag F.CLS_COURSE_STAT.STAGE_OPEN


/-- An OPEN or OPEN_EMPTY takes effect (R218). DESIGN CHOICE, notes/assumptions/29.md. -/
def State.openStage (s : State) (k : Nat) : State :=
  let s := (s.setCls { s.cls with opening := none }).fset F.CLS_COURSE_STAT.STAGE_OPEN 1
  let reset (s : State) : State :=
    forEach [O.CLS_STG_DEF_ACT, O.CLS_STG_DEF_ACT + 4, O.CLS_STG_FLOW, O.CLS_STG_HASH, O.CLS_STG_HASH + 4]
      (fun a s => s.wr a (resetWord s.cfg a)) s
  if k = 1 then
    match s.curCourse with
    | some c =>
      (((s.mapTcam fun t => { t with stage := decide (t.vis / 2 ^ c.pos % 2 = 1) }).wr64 O.CLS_STG_DEF_ACT c.defAct).wr64
        O.CLS_STG_HASH c.hash).wr O.CLS_STG_FLOW (BitVec.ofNat 32 c.flow)
    | none => reset (s.mapTcam fun t => { t with stage := false })
  else reset (s.mapTcam fun t => { t with stage := false })

/-- The entry that CLS_TCAM_IDX addresses, if the table has it. -/
def State.tcamIdx (s : State) : Option Nat :=
  let i := s.fget F.CLS_TCAM_IDX.IDX
  if i < s.cfg.tcam then some i else none

/-- Ends a ternary command with a RESULT. -/
def State.tcamEnd (s : State) (r : Nat) : State := s.fset F.CLS_TCAM_CMD.RESULT r

/-- The 512 bits of 16 registers from `a` on. -/
def State.rd512 (s : State) (a : Nat) : Nat :=
  (List.range 16).foldl (fun n i => n + (s.rd (a + 4 * i)).toNat * 2 ^ (32 * i)) 0

/-- Writes 512 bits to 16 registers from `a` on. -/
def State.wr512 (s : State) (a v : Nat) : State :=
  forEach (List.range 16) (fun i s => s.wr (a + 4 * i) (BitVec.ofNat 32 (v / 2 ^ (32 * i)))) s

/-- CMD.OP = 1, WRITE (R218): refused for a live entry, without a stage, or beyond the table. -/
def State.tcamWrite (s : State) : State :=
  match s.tcamIdx with
  | some i =>
    let t := s.tcamAt i
    if t.vis ≠ 0 then s.tcamEnd 2
    else if s.stageOpen = false then s.tcamEnd 3
    else
      (s.setTcam i { t with val := s.rd512 (O.CLS_TCAM_VAL 0), mask := s.rd512 (O.CLS_TCAM_MASK 0)
                            act := s.rd64 O.CLS_TCAM_ACT, stage := true }).tcamEnd 1
  | none => if s.stageOpen then s.tcamEnd 4 else s.tcamEnd 3

/-- CMD.OP = 2 and 3, ADD and DEL (R218). -/
def State.tcamStage (s : State) (v : Bool) : State :=
  if s.stageOpen = false then s.tcamEnd 3
  else
    match s.tcamIdx with
    | some i => (s.setTcam i { s.tcamAt i with stage := v }).tcamEnd 1
    | none => s.tcamEnd 4

/-- CMD.OP = 4, READ (R218). -/
def State.tcamRead (s : State) : State :=
  match s.tcamIdx with
  | some i =>
    let t := s.tcamAt i
    let s := ((s.wr512 (O.CLS_TCAM_VAL 0) t.val).wr512 (O.CLS_TCAM_MASK 0) t.mask).wr64 O.CLS_TCAM_ACT t.act
    (s.fsets [(F.CLS_TCAM_CMD.IN_LIVE, b2n (decide (t.vis ≠ 0))), (F.CLS_TCAM_CMD.STAGED, b2n t.stage)]).tcamEnd 1
  | none => s.tcamEnd 4

/-- Carries out a ternary command (R218): in another mode it ends with RESULT 5. -/
def State.tcamOp (s : State) (op : Nat) : State :=
  if s.tablesMode = false then s.tcamEnd 5
  else if op = 1 then s.tcamWrite
  else if op = 2 then s.tcamStage true
  else if op = 3 then s.tcamStage false
  else if op = 4 then s.tcamRead
  else s

/-! ### Commits (R219, R220) -/

/-- The lowest free course position, if any. -/
def State.freePos (s : State) : Option Nat :=
  (List.range 4).find? fun p => !(s.cls.courses.any fun c => c.pos == p)

/-- Why a commit is refused: the RESULT of the first condition of R219 that holds. -/
def State.commitRefusal (s : State) : Option Nat :=
  let next := (s.fget F.CLS_COURSE_STAT.CUR + 1) % 16
  let slot := s.fget F.PRS_CTL.NEXT_SLOT
  if s.flag F.CLS_COMMIT.PENDING then some 8
  else if s.tablesMode = false then some 6
  else if s.stageOpen = false then some 3
  else if s.cfg = .x ∧ (s.linked = false ∨ s.flag F.BLK_MODE.HALF_LOST = true) then some 7
  else if 4 ≤ s.cls.courses.length ∨ s.cls.courses.any (fun c => c.num == next) = true then some 2
  else if s.halfList.any (fun h => !s.flag (F.PRS_SLOT_STAT.VALID h slot)) then some 4
  else if s.halfList.any (fun h => s.fget (F.PRS_SLOT_ID.LAYOUT_ID h slot) != s.fget F.CLS_STAGE_LAYOUT.LAYOUT_ID) then some 5
  else none

/-- Runs a requested commit up to its preparation: refused with its RESULT, or PENDING with the stage copied into a free
position and the graph slot bound (R219, R220 step 1). -/
def State.commitGo (s : State) : State :=
  match s.commitRefusal, s.freePos with
  | some r, _ =>
    let s := s.fset F.CLS_COMMIT.RESULT r
    if r = 2 then s.fset F.CLS_COMMIT.BUSY 1 else s
  | none, none => s.fsets [(F.CLS_COMMIT.RESULT, 2), (F.CLS_COMMIT.BUSY, 1)]
  | none, some p =>
    let c : Course :=
      { num := (s.fget F.CLS_COURSE_STAT.CUR + 1) % 16, pos := p, slot := s.fget F.PRS_CTL.NEXT_SLOT
        defAct := s.rd64 O.CLS_STG_DEF_ACT, flow := (s.rd O.CLS_STG_FLOW).toNat, hash := s.rd64 O.CLS_STG_HASH }
    let s := s.mapTcam fun t =>
      { t with vis := Nat.lor (Nat.land t.vis (15 - 2 ^ p)) (if t.stage then 2 ^ p else 0), stage := false }
    let s := s.setCls { s.cls with prep := some { course := c, acks := [s.leader] } }
    (s.fsets [(F.CLS_COMMIT.PENDING, 1), (F.CLS_COURSE_STAT.STAGE_OPEN, 0), (F.CLS_COMMIT.ACK_A, b2n (decide (s.leader = 0))),
      (F.CLS_COMMIT.ACK_B, b2n (decide (s.leader = 1)))]).showCourses

/-- Carries out what waited for an OPEN, in order (R218). DESIGN CHOICE, notes/assumptions/29.md. -/
def State.runWaiting (s : State) : State :=
  let l := s.cls.waiting
  forEach l (fun w s => if w.1 = 0 then s.tcamOp w.2.toNat else s.commitGo) (s.setCls { s.cls with waiting := [] })

/-- STAGE_OPEN_DONE (R218): the OPEN takes effect, and waiting commands proceed. DESIGN CHOICE, notes/assumptions/29.md. -/
def execStageOpenDone (s : State) : Host.Outcome State Fault Refusal :=
  match s.cls.opening with
  | some k => .next (s.openStage k).runWaiting
  | none => .next s

/-- STAGE := 0 and the stage closes; an OPEN on its way is abandoned too (R218). -/
def State.abandonStage (s : State) : State :=
  (((s.setCls { s.cls with opening := none }).mapTcam fun t => { t with stage := false }).fset
    F.CLS_COURSE_STAT.STAGE_OPEN 0).runWaiting

/-- A write of CLS_STAGE_CTL (R218): OPEN and OPEN_EMPTY are accepted and take effect within 32 cycles, ABANDON at once, in
the four modes; an error response in the others. DESIGN CHOICE, notes/assumptions/29.md. -/
def State.stageCtlWrite (s : State) (op : Nat) : State :=
  if op = 0 then s
  else if s.tablesMode = false then s.deny
  else if op = 3 then s.abandonStage
  else s.setCls { s.cls with opening := some op }

/-- STAGE_OPEN (R218): a write of CLS_STAGE_CTL with OP 1. -/
def execStageOpen (fn : Nat) (s : State) : Host.Outcome State Fault Refusal :=
  .next (s.access fn O.CLS_STAGE_CTL fun _ s => s.stageCtlWrite 1)

/-- STAGE_OPEN_EMPTY (R218): OP 2. -/
def execStageOpenEmpty (fn : Nat) (s : State) : Host.Outcome State Fault Refusal :=
  .next (s.access fn O.CLS_STAGE_CTL fun _ s => s.stageCtlWrite 2)

/-- STAGE_ABANDON (R218): OP 3. -/
def execStageAbandon (fn : Nat) (s : State) : Host.Outcome State Fault Refusal :=
  .next (s.access fn O.CLS_STAGE_CTL fun _ s => s.stageCtlWrite 3)

/-- A write of CLS_TCAM_CMD with OP `op`: it waits for an OPEN on its way (R218). -/
def State.tcamCmdWrite (s : State) (op : Nat) : State :=
  if s.cls.opening.isSome then s.setCls { s.cls with waiting := s.cls.waiting ++ [(0, BitVec.ofNat 32 op)] }
  else s.tcamOp op

/-- A ternary command by function `fn`. -/
def State.tcamCmd (s : State) (fn op : Nat) : State := s.access fn O.CLS_TCAM_CMD fun _ s => s.tcamCmdWrite op

/-- TCAM_WRITE (R218). -/
def execTcamWrite (fn : Nat) (s : State) : Host.Outcome State Fault Refusal := .next (s.tcamCmd fn 1)
/-- TCAM_ADD (R218). -/
def execTcamAdd (fn : Nat) (s : State) : Host.Outcome State Fault Refusal := .next (s.tcamCmd fn 2)
/-- TCAM_DEL (R218). -/
def execTcamDel (fn : Nat) (s : State) : Host.Outcome State Fault Refusal := .next (s.tcamCmd fn 3)
/-- TCAM_READ (R218). -/
def execTcamRead (fn : Nat) (s : State) : Host.Outcome State Fault Refusal := .next (s.tcamCmd fn 4)

/-- A write of CLS_COMMIT (R219): GO requests a commit, which waits for an OPEN on its way; BUSY is W1C.
DESIGN CHOICE, notes/assumptions/29.md. -/
def State.commitWrite (s : State) (go : Bool) (data : Word) : State :=
  let s := s.writeFields O.CLS_COMMIT data
  if go = false then s
  else if s.cls.opening.isSome then s.setCls { s.cls with waiting := s.cls.waiting ++ [(1, data)] }
  else s.commitGo

/-- COMMIT_REQUEST (R219): a write of CLS_COMMIT with GO. -/
def execCommitRequest (fn : Nat) (data : Word) (s : State) : Host.Outcome State Fault Refusal :=
  .next (s.access fn O.CLS_COMMIT fun _ s => s.commitWrite true data)

/-- Whether both halves can prepare a commit: in Gweip-X the halves are connected and neither is in reset (R220;
01_block_and_halves.md R20). -/
def State.canPrepare (s : State) : Bool := decide (s.cfg = .s) || (s.linked && !s.halfInReset 0 && !s.halfInReset 1)

/-- COMMIT_COMPLETE (R220 steps 2 and 3): the new course becomes current, the one before it drains, source 8 rises. With
`missed` the follower misses the switch message and keeps the course it has, until R32 sets it right. -/
def execCommitComplete (s : State) (missed : Bool := false) : Host.Outcome State Fault Refusal :=
  match s.cls.prep with
  | none => .next s
  | some p =>
    if s.canPrepare = false then .next s
    else
      let o := 1 - s.leader
      let s := if s.cfg = .x ∧ missed = true then s.setHalf o { s.half o with cur := some (s.curNum o) } else s
      let old := s.cls.courses.map fun c => { c with draining := true }
      let s := s.setCls { s.cls with prep := none, courses := old ++ [p.course] }
      .next ((s.fsets
        [(F.CLS_COMMIT.PENDING, 0), (F.CLS_COMMIT.RESULT, 1), (F.CLS_COMMIT.ACK_A, 1), (F.CLS_COMMIT.ACK_B, s.cfg.pick 0 1),
         (F.CLS_COURSE_STAT.CUR, p.course.num)]).showCourses.raise 8)

/-- COURSE_RETIRE (R221): a draining course without frames in flight in any half retires. -/
def execCourseRetire (n : Nat) (s : State) : Host.Outcome State Fault Refusal :=
  if s.inFlight n then .next s else .next (s.retire n)

/-! ### The exact-match table (R223 to R225) -/

/-- Entries that the table has room for: none without a table. -/
def State.emSize (s : State) : Nat := if s.fget F.CLS_EM_CFG.LOG2 = 0 then 0 else 2 ^ s.fget F.CLS_EM_CFG.LOG2

/-- The 20 bytes of CLS_EM_KEY. -/
def State.emKey (s : State) : List Byte := ((List.range 5).map fun i => natLe 4 (s.rd (O.CLS_EM_KEY i)).toNat).flatten

/-- The key that a command of a type uses (R224). -/
def State.emKeyOf (s : State) (typ : Nat) : List Byte :=
  if typ = 0 then s.emKey else fwdKey (s.emKey.take 6) (beNat (slice s.emKey 6 2))

/-- A write of CLS_EM_CMD with an OP (R225): it ends with RESULT 5 in another mode, 6 without a table; a command runs to
EM_COMMAND_DONE, and one written while another runs is not taken. -/
def State.emCmdWrite (s : State) (op : Nat) (data : Word) : State :=
  if s.flag F.CLS_EM_CMD.BUSY then s
  else
    let s := s.writeFields O.CLS_EM_CMD data
    let typ := if op = 1 then 0 else if op = 2 then 1 else s.fget F.CLS_EM_CMD.TYPE
    if s.tablesMode = false then (s.fset F.CLS_EM_CMD.RESULT 5).raise 9
    else if s.fget F.CLS_EM_CFG.LOG2 = 0 then (s.fset F.CLS_EM_CMD.RESULT 6).raise 9
    else
      (s.setCls { s.cls with cmd := some { op := op, typ := typ, key := s.emKeyOf typ, act := s.rd64 O.CLS_EM_ACT } }).fset
        F.CLS_EM_CMD.BUSY 1

/-- An exact-match command by function `fn`. -/
def State.emCmd (s : State) (fn op : Nat) (data : Word) : State := s.access fn O.CLS_EM_CMD fun _ s => s.emCmdWrite op data

/-- EM_INSERT_FLOW (R225). -/
def execEmInsertFlow (fn : Nat) (data : Word) (s : State) : Host.Outcome State Fault Refusal := .next (s.emCmd fn 1 data)
/-- EM_INSERT_FWD (R225). -/
def execEmInsertFwd (fn : Nat) (data : Word) (s : State) : Host.Outcome State Fault Refusal := .next (s.emCmd fn 2 data)
/-- EM_DELETE (R225). -/
def execEmDelete (fn : Nat) (data : Word) (s : State) : Host.Outcome State Fault Refusal := .next (s.emCmd fn 3 data)
/-- EM_READ (R225). -/
def execEmRead (fn : Nat) (data : Word) (s : State) : Host.Outcome State Fault Refusal := .next (s.emCmd fn 4 data)

/-- Whether an entry answers a key of a type: 0 flow, 1 forwarding. -/
def EmEnt.answers (e : EmEnt) (typ : Nat) (key : List Byte) : Bool :=
  decide (e.key = key) && (if typ = 0 then e.typ == 0 else e.typ != 0)

/-- The action that READ loads (R225): of a learned entry its port, as a mask in TARGET, and its channel in CHAN.
DESIGN CHOICE, notes/assumptions/30.md. -/
def EmEnt.readAction (e : EmEnt) : Nat := if e.typ = 2 then e.chan * 2 ^ 16 + 2 ^ e.port else e.act

/-- The entry that answers a key of a type in half `h`'s table as a read of it shows it, and the state after the read
(13_buffer_memory_and_placement.md R344, master 13). -/
def State.emRead (s : State) (h typ : Nat) (key : List Byte) : Option EmEnt × State :=
  let e := (s.em h).find? fun e => e.answers typ key
  match s.emAddr h key with
  | some a => if s.mayRead 13 (a / 4096) then (e, s) else (none, s.denyRegion 13 false a)
  | none => (e, s)

/-- The state and RESULT of an exact-match command; `full` tells that an insert finds no free way (R225).
DESIGN CHOICE, notes/assumptions/30.md. -/
def State.emRun (s : State) (c : EmCmd) (full : Bool) : State × Nat :=
  let l := s.leader
  let r := s.emRead l c.typ c.key
  let mine := r.1
  let s := r.2
  if s.emSize = 0 then (s, 6)
  else if c.op = 1 ∨ c.op = 2 then
    let e : EmEnt := { typ := c.op - 1, key := c.key, act := c.act }
    match mine with
    | some x =>
      if x.typ = 2 then
        (s.emChange l c.key fun t => t.map fun y => if y.answers c.typ c.key then e else y, 1)
      else (s, 2)
    | none => if full = true ∨ s.emSize ≤ (s.em l).length then (s, 4) else (s.emChange l c.key fun t => t ++ [e], 1)
  else
    match mine with
    | none => (s, 3)
    | some x =>
      if s.flushed x then (s, 3)
      else if c.op = 3 then (s.emChange l c.key fun t => t.filter fun y => !y.answers c.typ c.key, 1)
      else (s.wr64 O.CLS_EM_ACT x.readAction, 1)

/-- EM_COMMAND_DONE (R225): the command ends, source 9 rises (15_interrupts.md R371). -/
def execEmCommandDone (full : Bool) (s : State) : Host.Outcome State Fault Refusal :=
  match s.cls.cmd with
  | none => .next s
  | some c =>
    let r := s.emRun c full
    .next (((r.1.setCls { r.1.cls with cmd := none }).fsets [(F.CLS_EM_CMD.BUSY, 0), (F.CLS_EM_CMD.RESULT, r.2)]).raise 9)

/-- Frees the granules that hold the table (R223, R346). -/
def State.freeEm (s : State) : State :=
  forEach (s.mem.grans.filter fun e => e.2.em) (fun e s => (s.setGran e.1 { e.2 with em := false }).freeGran e.1) s

/-- Reserves `n` granules in the banks of half `h` for the table (R223). DESIGN CHOICE, notes/assumptions/30.md. -/
def State.reserveEm (s : State) (h n : Nat) : State :=
  forEach (List.range n) (fun _ s =>
    match s.pickGran (s.halfBanks h) with
    | some g => s.setGran g { s.gran g with state := 1, owner := 256, qp := 0xFFF, fill := 4096, em := true }
    | none => s) s

/-- A write of CLS_EM_CFG (R223): a size outside the allowed ones applies nothing and receives an error response; a change
of size empties the table. -/
def State.emCfgWrite (s : State) (data : Word) : State :=
  let v := getBits data 0 5
  let old := s.fget F.CLS_EM_CFG.LOG2
  if v ≠ 0 ∧ (v < 10 ∨ s.cfg.emLog2 < v) then s.deny
  else
    let s := s.writeFields O.CLS_EM_CFG data
    if s.fget F.CLS_EM_CFG.LOG2 = old then s
    else
      let s := ((s.setEms []).setCls { s.cls with learns := [], removed := [] }).freeEm
      if v = 0 then s else forEach s.halfList (fun h s => s.reserveEm h (2 ^ (v - 7))) s

/-- EM_CFG_WRITE (R223). -/
def execEmCfgWrite (fn : Nat) (data : Word) (s : State) : Host.Outcome State Fault Refusal :=
  .next (s.access fn O.CLS_EM_CFG fun _ s => s.emCfgWrite data)

/-! ### Learning, aging and flush (R226 to R229) -/

/-- LEARN_UPDATE (R226): the oldest learning change lands; `full` tells that no way is free after 32 moves. -/
def execLearnUpdate (full : Bool) (s : State) : Host.Outcome State Fault Refusal :=
  match s.cls.learns with
  | [] => .next s
  | x :: rest =>
    let s := s.setCls { s.cls with learns := rest }
    let k := s.emKeeper x.half
    let new : EmEnt :=
      { typ := 2, key := x.key, port := x.port, chan := x.chan, genT := s.fget F.CLS_FLUSH.GEN_T, genA := s.fget F.CLS_FLUSH.GEN_A }
    let here (y : EmEnt) : Bool := y.answers 1 x.key
    let r := s.emRead k 1 x.key
    let s := r.2
    match r.1 with
    | some e =>
      if e.typ = 1 then .next s
      else if s.flushed e then
        .next ((s.emChange x.half x.key fun l => l.map fun y => if here y then new else y).clsCnt k 9)
      else if e.port = x.port ∧ e.chan = x.chan then .next (s.emHit x.half e)
      else
        let s := s.emHit x.half e
        .next ((s.emChange x.half x.key fun l =>
          l.map fun y => if here y then { y with port := x.port, chan := x.chan, hit := true } else y).clsCnt k 10)
    | none =>
      if full = true ∨ s.emSize ≤ (s.em k).length then .next (s.clsCnt k 11)
      else .next ((s.emChange x.half x.key fun l => l ++ [new]).clsCnt k 9)

/-- Whether half `h` runs an ager: the leader, or each claiming half while the link is down (R227; 01 R35). -/
def State.ages (s : State) (h : Nat) : Bool :=
  s.hasHalf h && (decide (h = s.leader) || (!s.linked && s.flag (claimFld h)))

/-- AGER_VISIT (R227): the ager of half `h` visits entry `i`. -/
def execAgerVisit (h i : Nat) (s : State) : Host.Outcome State Fault Refusal :=
  match (s.em h)[i]? with
  | none => .next s
  | some e =>
    if s.ages h = true ∧ s.flag F.CLS_AGE.EN = true ∧ e.typ = 2 then
      .next (s.emChange h e.key fun l => l.map fun x =>
        if x.typ = 2 ∧ x.key = e.key then (if e.hit then { x with hit := false } else { x with dying := true }) else x)
    else .next s

/-- AGE_REMOVAL (R227, R228): an entry that still awaits removal leaves both copies. -/
def execAgeRemoval (h i : Nat) (s : State) : Host.Outcome State Fault Refusal :=
  match (s.em h)[i]? with
  | none => .next s
  | some e =>
    if s.ages h = true ∧ e.dying = true then
      let s := s.setCls { s.cls with removed := (s.cls.removed.filter fun x => decide (s.ticks ≤ x.2 + 4)) ++ [({ e with dying := false }, s.ticks)] }
      .next ((s.emChange h e.key fun l => l.filter fun x => !(decide (x.typ = 2) && decide (x.key = e.key))).clsCnt h 12)
    else .next s

/-- A write of CLS_FLUSH (R229): GO flushes the SCOPE of the same write. DESIGN CHOICE, notes/assumptions/30.md. -/
def State.flushWrite (s : State) (go : Bool) (data : Word) : State :=
  let s := s.writeFields O.CLS_FLUSH data
  if go then s.flushGen (getBits data 30 1) else s

/-- FLUSH_REQUEST (R229): a write of CLS_FLUSH with GO. -/
def execFlushRequest (fn : Nat) (data : Word) (s : State) : Host.Outcome State Fault Refusal :=
  .next (s.access fn O.CLS_FLUSH fun _ s => s.flushWrite true data)

/-- FLUSH_SWEEP_DONE (R229): a pass has removed the flushed entries; they count in SWEPT. -/
def execFlushSweepDone (s : State) : Host.Outcome State Fault Refusal :=
  if s.flag F.CLS_FLUSH.SWEEP = false then .next s
  else
    let n := ((s.em s.leader).filter fun e => s.flushed e).length
    let s' := forEach s.halfList (fun h t =>
      forEach ((t.em h).filter fun e => s.flushed e) (fun e t =>
        let r := t.emMayWrite h e.key
        if r.1 then r.2.setEm h ((r.2.em h).filter fun x => !(decide (x.key = e.key) && s.flushed x)) else r.2) t) s
    .next ((s'.cntAdd (O.CLS_CNT s.leader 14) n).fset F.CLS_FLUSH.SWEEP 0)

/-- RECOVERY_RESET_TIMEOUT (R234): after RESET_MS without an acceptance, the next frame of stream `n` at egress `e` starts
the history. -/
def execRecoveryResetTimeout (e n : Nat) (s : State) : Host.Outcome State Fault Refusal :=
  if s.fget (F.CLS_SR.RESET_MS n) = 0 then .next s
  else .next (s.setCls { s.cls with hist := KMap.erase s.cls.hist (64 * e + n) })

end Sys2Proof.Machine
end

