-- ==== Sys2Proof/Machine/Engine.lean ====
section
/-!
DEFINITION. The engines' instructions: memories, frames, splices, special registers, events, time, atomics, check feeds and
thread control (10_engine_instructions.md R263, R272 to R283).
-/
namespace Sys2Proof.Machine

/-! ### Slice and shared memory (R272) -/

/-- What LD leaves in gd: extended as SIGN asks. -/
def extendLoad (sign : Bool) (k v : Nat) : Word := if sign then sextN (8 * k) v else BitVec.ofNat 32 v

/-- LD (R272, R238). -/
def execLd (e n slot busy ecc : Nat) (s : State) : Host.Outcome State Fault Refusal :=
  .next (s.issue e n slot busy ecc (some .ld) fun i s =>
    let k := 2 ^ xBits i.w 16 2
    match s.dataPlace e n (decide (xBits i.w 14 1 = 1)) (i.dataAddr s) k with
    | .inr c => i.fault c s
    | .inl o =>
      if i.ecc = 3 then i.fault 5 s
      else
        let v := orderNat (decide (xBits i.w 15 1 = 1)) (s.ebytes e o k)
        i.done (i.put (extendLoad (decide (xBits i.w 13 1 = 1)) k v) s))

/-- ST (R272, R238, R257): word 3 of the thread's own splice entries is left alone. -/
def execSt (e n slot busy ecc : Nat) (s : State) : Host.Outcome State Fault Refusal :=
  .next (s.issue e n slot busy ecc (some .st) fun i s =>
    let k := 2 ^ xBits i.w 16 2
    let shared := decide (xBits i.w 14 1 = 1)
    let a := i.dataAddr s
    match s.dataPlace e n shared a k with
    | .inr c => i.fault c s
    | .inl o =>
      if shared = true ∧ foreignSplice n a = true then i.fault 3 s
      else if i.ecc = 3 then i.fault 5 s
      else if shared = true ∧ spliceBlockWord a = true then i.done s
      else i.done (s.eput e o (natOrder (decide (xBits i.w 15 1 = 1)) k (i.gd s).toNat)))

/-! ### Frames (R273 to R276) -/

/-- The granules that an access to bytes `l` beyond byte 2,047 touches and that engine `e` is denied (13 R344). -/
def deniedGrans (f : Frame) (l : List Nat) (ok : Nat → Bool) : List Nat :=
  ((memParts f l).map (·.1)).eraseDups.filter fun g => !ok g

/-- Counts and logs a denied frame access (13 R344). -/
def State.denyFrame (s : State) (e : Nat) (write : Bool) (f : Frame) (l : List Nat) (gs : List Nat) : State :=
  match (memParts f l).find? fun p => gs.contains p.1 with
  | some p => s.denyRegion e write (4096 * p.1 + p.2.1)
  | none => s

/-- Whether byte `j` lies in one of the granules `gs`. -/
def inGrans (f : Frame) (gs : List Nat) (j : Nat) : Bool := (memParts f [j]).any fun p => gs.contains p.1

/-- FLD (R273, R254): bytes past the end read 0 and set V; it waits for bytes not yet present. -/
def execFld (e n slot busy ecc : Nat) (s : State) : Host.Outcome State Fault Refusal :=
  .next (s.issue e n slot busy ecc (some .fld) fun i s =>
    match (i.thr s).bound with
    | none => i.fault 4 s
    | some fid =>
      let f := s.frame fid
      let l := i.frameBytes s
      if s.frameWaits f l then none
      else if s.poisoned (memParts f l) then i.fault 6 s
      else if i.ecc = 3 then i.fault 5 s
      else
        let gs := deniedGrans f l (fun g => s.mayRead e g)
        let v := beNat (l.map fun j => if f.past j = true ∨ inGrans f gs j = true then 0 else byteAt f.bytes j)
        i.done ((i.put (BitVec.ofNat 32 v) (s.denyFrame e false f l gs)).setV e n (l.any f.past)))

/-- FST (R273, R255): bytes past the end are left and set V. -/
def execFst (e n slot busy ecc : Nat) (s : State) : Host.Outcome State Fault Refusal :=
  .next (s.issue e n slot busy ecc (some .fst) fun i s =>
    match (i.thr s).bound with
    | none => i.fault 4 s
    | some fid =>
      let f := s.frame fid
      let l := i.frameBytes s
      if s.frameWaits f l then none
      else if s.poisoned (memParts f l) then i.fault 6 s
      else if i.ecc = 3 then i.fault 5 s
      else
        let gs := deniedGrans f l (fun g => s.mayWrite e g)
        let s := s.denyFrame e true f l gs
        let new := l.zip (natBe l.length (i.gd s).toNat)
        let s := forEach (new.filter fun x => !f.past x.1 && !inGrans f gs x.1) (fun x s => s.storeFrame fid x.1 x.2) s
        i.done (s.setV e n (l.any f.past)))

/-- FRM_TAKE (R274, R254): binds the head of the receive queue, or reports it empty. -/
def execFrmTake (e n slot busy ecc : Nat) (s : State) : Host.Outcome State Fault Refusal :=
  .next (s.issue e n slot busy ecc (some .take) fun i s =>
    let v := i.thr s
    if v.bound.isSome then i.fault 4 s
    else
      match v.rxq with
      | [] => i.done ((i.put 0 s).setZ e n true)
      | fid :: rest =>
        let s := s.setThr e n { v with rxq := rest, bound := some fid, disposed := false, trigs := [], fwp := 0 }
        let s := s.fsets [(F.CE_THR_STAT.RXQ e n, rest.length), (F.CE_THR_STAT.BOUND e n, 1)]
        let s := forEach (rangeFrom 1 5) (fun b s => s.fset (evtFld e n b) 0) s
        let s := s.eput e (0x30000 + 0x800 * n) ((s.frame fid).bytes.take 2048)
        let s := (i.put (BitVec.ofNat 32 ((s.frame fid).finfo 1)) s).setZ e n false
        i.done (s.fillRoom (thrKey e n)))

/-- FRM_DISP (R275, R256): disposes of the bound frame; with HOLD it stays bound. One that looks at an R-TAG waits for its bytes. -/
def execFrmDisp (e n slot busy ecc : Nat) (s : State) : Host.Outcome State Fault Refusal :=
  .next (s.issue e n slot busy ecc (some .disp) fun i s =>
    let v := i.thr s
    match v.bound with
    | none => i.fault 4 s
    | some fid =>
      let act := (i.ga s).toNat * 2 ^ 32 + (i.gb s).toNat
      if v.disposed then i.fault 4 s
      else if s.rtagKnown (readAct act) (s.frame fid) = false then none
      else
        let s := if xBits i.w 4 1 = 1 then s.setThr e n { v with disposed := true } else s.unbind e n
        let s := s.dispose e n fid act (decide (xBits i.w 5 1 = 1))
        i.done (((s.voidFrame fid).setV e n (decide (4 ≤ act / 2 ^ 61))).tidy))

/-- FRM_FREE (R274): ends the binding; a frame never disposed of is dropped as by DISP with KIND DROP. -/
def execFrmFree (e n slot busy ecc : Nat) (s : State) : Host.Outcome State Fault Refusal :=
  .next (s.issue e n slot busy ecc (some .free) fun i s =>
    let v := i.thr s
    match v.bound with
    | none => i.fault 4 s
    | some fid =>
      let s := s.unbind e n
      i.done ((if v.disposed then s else s.dispose e n fid 0 false).voidFrame fid).tidy)

/-- FRM_TRIG_ARM (R274, R122): arms byte trigger k on offset fwp + ga and clears pending TRIGk. -/
def execFrmTrigArm (e n slot busy ecc : Nat) (s : State) : Host.Outcome State Fault Refusal :=
  .next (s.issue e n slot busy ecc (some .arm) fun i s =>
    let v := i.thr s
    if v.bound.isNone then i.fault 4 s
    else
      let k := xBits i.w 4 2
      let o := (v.fwp + (i.ga s).toNat) % 2 ^ 32
      i.done ((s.setThr e n { v with trigs := KMap.insert v.trigs k o }).fset (evtFld e n (1 + k)) 0))

/-- FRM_TRIG_DISARM (R274). -/
def execFrmTrigDisarm (e n slot busy ecc : Nat) (s : State) : Host.Outcome State Fault Refusal :=
  .next (s.issue e n slot busy ecc (some .disarm) fun i s =>
    let v := i.thr s
    if v.bound.isNone then i.fault 4 s
    else i.done (s.setThr e n { v with trigs := KMap.erase v.trigs (xBits i.w 4 2) }))

/-- FRM_FINFO (R276). -/
def execFrmFinfo (e n slot busy ecc : Nat) (s : State) : Host.Outcome State Fault Refusal :=
  .next (s.issue e n slot busy ecc (some .finfo) fun i s =>
    match (i.thr s).bound with
    | none => i.fault 4 s
    | some fid => i.done (i.put (BitVec.ofNat 32 ((s.frame fid).finfo (xBits i.w 4 3))) s))

/-! ### Splices (R277, R257, R258) -/

/-- Word `k` of splice entry `x` of engine `e` (R257). -/
def State.spliceWord (s : State) (e x k : Nat) : Word := BitVec.ofNat 32 (leNat (s.ebytes e (0x28000 + 0x10 * x + 4 * k) 4))

/-- Where the source of a splice entry lies, none when it runs past its space (R257, R258). DEDUCED, notes/assumptions/38.md. -/
def State.spliceSource (s : State) (e n : Nat) (w1 : Word) (len : Nat) : Option Nat :=
  let o := getBits w1 0 16
  if bitOf w1 31 then (if 0x8400 < o + len then none else some (0x20000 + o))
  else
    let b := s.sliceOf e n
    if 256 * (b.2 - b.1) < o + len then none else some (0x10000 + 256 * b.1 + o)

/-- Whether an egress port takes edits: a field port, or a trunk in BASE-R mode (R257). -/
def State.editPort (s : State) (p : Nat) : Bool := decide (p < 10) && s.cfg.hasPort p && (decide (p < 8) || s.isMac p)

/-- SPL (R277, R258): arms one of the thread's splice entries on the bound frame, with the source bytes as they are now (R123); a
BUSY entry makes it wait.
DEDUCED, notes/assumptions/38.md. -/
def execSpl (e n slot busy ecc : Nat) (s : State) : Host.Outcome State Fault Refusal :=
  .next (s.issue e n slot busy ecc (some .spl) fun i s =>
    match (i.thr s).bound with
    | none => i.fault 4 s
    | some fid =>
      let x := 8 * n + xBits i.w 0 3
      if bitOf (s.spliceWord e x 3) 31 then none
      else
        let w0 := s.spliceWord e x 0
        let w2 := s.spliceWord e x 2
        let typ := getBits w0 30 2
        let p := getBits w0 24 4
        let len := getBits w2 0 8 + 1
        let src := s.spliceSource e n (s.spliceWord e x 1) len
        if typ = 3 ∨ s.editPort p = false ∨ (typ ≠ 2 ∧ src.isNone = true) then i.fault 9 s
        else if i.ecc = 3 then i.fault 5 s
        else
          let ed : Edit := { fid := fid, w := getBits w0 0 14, ins := decide (typ = 1), thread := thrKey e n, entry := x
                             bytes := if typ = 2 then [BitVec.ofNat 8 (getBits w2 16 8)] else s.ebytes e (src.getD 0) len }
          let sp : Splice := { port := p, edit := ed }
          let s := (s.eput e (spliceWord3 x) (natLe 4 (2 ^ 31))).ceCnt e 4
          i.done (s.setSplices (s.splices ++ [sp])))

/-! ### Special registers (R263) -/

/-- MFS (R263). DEDUCED, notes/assumptions/36.md. -/
def execMfs (e n slot busy ecc : Nat) (s : State) : Host.Outcome State Fault Refusal :=
  .next (s.issue e n slot busy ecc (some .mfs) fun i s =>
    let v := i.thr s
    let r : Word :=
      match xBits i.w 0 3 with
      | 0 => BitVec.ofNat 32 v.cc
      | 1 => BitVec.ofNat 32 v.fwp
      | 2 => BitVec.ofNat 32 n
      | 3 => BitVec.ofNat 32 e
      | _ => s.rd (O.CE_THR_TIMER e n)
    i.done (i.put r s))

/-- MTS (R263, R251, R266): cc, fwp or the timer. DEDUCED, notes/assumptions/36.md. -/
def execMts (e n slot busy ecc : Nat) (s : State) : Host.Outcome State Fault Refusal :=
  .next (s.issue e n slot busy ecc (some .mts) fun i s =>
    let a := i.ga s
    i.done
      (match xBits i.w 0 3 with
       | 0 => s.setCc e n (getBits a 0 4)
       | 1 => s.setThr e n { i.thr s with fwp := getBits a 0 14 }
       | _ => s.setTimer e n a))

/-! ### Events and time (R278, R279) -/

/-- A wait completes: the selected pending bits go to the register, and the edge bits among them are cleared (R250). -/
def State.waitDone (s : State) (e n mask dest : Nat) : State :=
  let m := Nat.land (s.pendEvents e n) mask
  let edges := m - Nat.land m levelMask
  let w := s.rd (O.CE_THR_EVT e n)
  (s.wr (O.CE_THR_EVT e n) (w &&& ~~~ (BitVec.ofNat 32 edges))).setGreg e n dest (BitVec.ofNat 32 m)

/-- WAIT (R278, R250): completes at once on a pending selected event or an empty mask; otherwise the thread is WAITING. -/
def execWait (e n slot busy ecc : Nat) (s : State) : Host.Outcome State Fault Refusal :=
  .next (s.issue e n slot busy ecc (some .wait) fun i s =>
    let mask := Nat.lor (xBits i.w 0 16) (getBits (i.ga s) 0 16)
    if mask = 0 ∨ Nat.land (s.pendEvents e n) mask ≠ 0 then i.done (s.waitDone e n mask (dOf i.w))
    else some ((s.setThr e n { i.thr s with mask := mask, dest := dOf i.w }).setThrState e n 2))

/-- SIG (R278): raises SIGNAL in a released thread of the same cluster, or sets V. -/
def execSig (e n slot busy ecc : Nat) (s : State) : Host.Outcome State Fault Refusal :=
  .next (s.issue e n slot busy ecc (some .sig) fun i s =>
    let t := getBits (i.ga s) 0 3
    let u := getBits (i.ga s) 3 4
    if u < s.cfg.engines ∧ s.cfg.clusterOf u = s.cfg.clusterOf e ∧ s.thrState u t ≠ 0 then
      i.done ((s.postEvt u t 9).setV e n false)
    else i.done (s.setV e n true))

/-- TIME (R279, 03_time_and_cycles.md R79): the time of the engine's half in gd, g(d+1) and g(d+2). -/
def execTime (e n slot busy ecc : Nat) (s : State) : Host.Outcome State Fault Refusal :=
  .next (s.issue e n slot busy ecc (some .time) fun i s =>
    let t := (s.tb (s.cfg.halfOfEngine e)).t
    let d := dOf i.w
    let s := s.setGreg e n d (BitVec.ofNat 32 (timeNs t))
    let s := s.setGreg e n (d + 1) (BitVec.ofNat 32 (timeSec t))
    i.done (s.setGreg e n (d + 2) (BitVec.ofNat 32 (timeSec t / 2 ^ 32 % 65536 * 65536 + timeFrac t))))

/-! ### Atomics (R280) -/

/-- AMO_SWAP (R280). -/
def execAmoSwap (e n slot busy ecc : Nat) (s : State) : Host.Outcome State Fault Refusal :=
  .next (s.issue e n slot busy ecc (some .amoSwap) (amoExec fun _ b _ => b))
/-- AMO_ADD (R280). -/
def execAmoAdd (e n slot busy ecc : Nat) (s : State) : Host.Outcome State Fault Refusal :=
  .next (s.issue e n slot busy ecc (some .amoAdd) (amoExec fun o b _ => o + b))
/-- AMO_AND (R280). -/
def execAmoAnd (e n slot busy ecc : Nat) (s : State) : Host.Outcome State Fault Refusal :=
  .next (s.issue e n slot busy ecc (some .amoAnd) (amoExec fun o b _ => o &&& b))
/-- AMO_OR (R280). -/
def execAmoOr (e n slot busy ecc : Nat) (s : State) : Host.Outcome State Fault Refusal :=
  .next (s.issue e n slot busy ecc (some .amoOr) (amoExec fun o b _ => o ||| b))
/-- AMO_XOR (R280). -/
def execAmoXor (e n slot busy ecc : Nat) (s : State) : Host.Outcome State Fault Refusal :=
  .next (s.issue e n slot busy ecc (some .amoXor) (amoExec fun o b _ => o ^^^ b))
/-- AMO_CAS (R280): new := gb when old = gd. -/
def execAmoCas (e n slot busy ecc : Nat) (s : State) : Host.Outcome State Fault Refusal :=
  .next (s.issue e n slot busy ecc (some .amoCas) (amoExec fun o b d => if o = d then b else o))

/-! ### Check units (R282) -/

/-- CHKF (R282, 14_check_units_safety_island.md R361): feeds bytes of ga, or sets V. -/
def execChkf (e n slot busy ecc : Nat) (s : State) : Host.Outcome State Fault Refusal :=
  .next (s.issue e n slot busy ecc (some .chkf) fun i s =>
    match s.chkFeed (xBits i.w 2 2) (thrKey e n) (lowBytes (xBits i.w 0 2) (i.ga s)) with
    | .taken s => i.done (s.setV e n false)
    | .refused => i.done (s.setV e n true)
    | .wait => none)

/-! ### Thread control (R283) -/

/-- Whether thread `n` of engine `e` is a master: thread 0 in native mode (R247). -/
def State.isMaster (s : State) (e n : Nat) : Bool := decide (n = 0) && !s.flag (F.CE_CTL.COMPAT e)

/-- A thread-control instruction: it faults with FCAUSE 7 outside the master (R283). -/
def thcExec (f : Ins → Nat → State → Option State) (i : Ins) (s : State) : Option State :=
  if s.isMaster i.e i.n then f i (xBits i.w 4 3) s else i.fault 7 s

/-- A change of a stopped thread's register, refused with V = 1 otherwise (R245, R283). -/
def thcSet (f : Ins → Nat → State → State) : Ins → State → Option State :=
  thcExec fun i t s => i.done (if s.thrStopped i.e t then (f i t s).setV i.e i.n false else s.setV i.e i.n true)

/-- THC_TPC (R283). -/
def execThcTpc (e n slot busy ecc : Nat) (s : State) : Host.Outcome State Fault Refusal :=
  .next (s.issue e n slot busy ecc (some .tpc) (thcSet fun i t s => s.fset (F.CE_THR_PC.PC e t) (getBits (i.ga s) 2 13)))
/-- THC_TSLC (R283, R241). -/
def execThcTslc (e n slot busy ecc : Nat) (s : State) : Host.Outcome State Fault Refusal :=
  .next (s.issue e n slot busy ecc (some .tslc) (thcSet fun i t s =>
    s.fsets [(F.CE_THR_SLICE.BASE e t, getBits (i.ga s) 8 8), (F.CE_THR_SLICE.SIZE_M1 e t, getBits (i.ga s) 0 8)]))
/-- THC_TGW (R283). -/
def execThcTgw (e n slot busy ecc : Nat) (s : State) : Host.Outcome State Fault Refusal :=
  .next (s.issue e n slot busy ecc (some .tgw) (thcSet fun i t s => s.setGreg e t (xBits i.w 7 4) (i.ga s)))
/-- THC_TGR (R283). -/
def execThcTgr (e n slot busy ecc : Nat) (s : State) : Host.Outcome State Fault Refusal :=
  .next (s.issue e n slot busy ecc (some .tgr) (thcExec fun i t s =>
    i.done ((i.put (s.greg e t (xBits i.w 7 4)) s).setV e n false)))

/-- The threads whose bit in ga[7:0] is 1. -/
def maskThreads (a : Word) : List Nat := (List.range 8).filter fun t => bitOf a t

/-- THC_TREL (R283, R244): `met` names the threads that a halt from another source reaches in the same cycle. -/
def execThcTrel (e n slot busy ecc : Nat) (s : State) (met : Nat := 0) : Host.Outcome State Fault Refusal :=
  .next (s.issue e n slot busy ecc (some .trel) (thcExec fun i _ s =>
    i.done ((forEach (maskThreads (i.ga s)) (fun t s => s.ctlThread e t true (decide (met / 2 ^ t % 2 = 1))) s).setV e n false)))
/-- THC_THLT (R283, R244): with bit 0 set the master is halted after it, at the next pc. -/
def execThcThlt (e n slot busy ecc : Nat) (s : State) : Host.Outcome State Fault Refusal :=
  .next (s.issue e n slot busy ecc (some .thlt) (thcExec fun i _ s =>
    (i.done (s.setV e n false)).map fun t => forEach (maskThreads (i.ga s)) (fun k s => s.haltThread e k) t))
/-- THC_TST (R283). -/
def execThcTst (e n slot busy ecc : Nat) (s : State) : Host.Outcome State Fault Refusal :=
  .next (s.issue e n slot busy ecc (some .tst) (thcExec fun i t s =>
    i.done ((i.put (s.rd (O.CE_THR_STAT e t)) s).setV e n false)))

end Sys2Proof.Machine
end

