-- ==== Sys2Proof/Machine/Thread.lean ====
section
/-!
DEFINITION. The host's control of engine threads, waits that complete, timers and splice fetches (09_engine_threads.md R244 to
R258).
-/
namespace Sys2Proof.Machine

/-- A write of CE_THR_CTL (R244); with `met` a halt from another source reaches the thread in the same cycle. -/
def State.thrCtlWrite (s : State) (fn e n : Nat) (data : Word) (met : Bool) : State :=
  s.access fn (O.CE_THR_CTL e n) fun _ s => s.ctlThread e n (bitOf data 0) (bitOf data 1 || met)

/-- THREAD_RELEASE (R244): a write of CE_THR_CTL with RELEASE; with HALT as well, or with a halt of the master or of RUN in the
same cycle (`met`), it is a collision. -/
def execThreadRelease (fn e n : Nat) (data : Word) (s : State) (met : Bool := false) : Host.Outcome State Fault Refusal :=
  .next (s.thrCtlWrite fn e n (data ||| 1) met)

/-- THREAD_HALT (R244): a write of CE_THR_CTL with HALT. -/
def execThreadHalt (fn e n : Nat) (data : Word) (s : State) : Host.Outcome State Fault Refusal :=
  .next (s.thrCtlWrite fn e n (data ||| 2) false)

/-- A write of CE_CTL_e (R247, R248, R252); `met` names the threads that a halt of the master reaches in the same cycle. -/
def State.ceCtlWrite (e : Nat) (data : Word) (met : Nat) (s : State) : State :=
  let m := s.hmode (s.cfg.halfOfEngine e)
  let run := s.flag (F.CE_CTL.RUN e)
  if bitOf data 0 = true ∧ ¬ (1 ≤ m ∧ m ≤ 5) then s.deny
  else
    let compat := s.fget (F.CE_CTL.COMPAT e)
    let gen := s.fget (F.CE_CTL.CYC_GEN e)
    let free := (List.range 8).all fun n => decide (s.thrState e n = 0)
    let badC := decide (getBits data 2 1 ≠ compat) && !free
    let badG := decide (s.cfg.halfOfGen (getBits data 16 3) ≠ s.cfg.halfOfEngine e)
    let data := if badC then setBits data 2 1 compat else data
    let data := if badG then setBits data 16 3 gen else data
    let s := s.writeFields (O.CE_CTL e) data
    let s := if badC || badG then s.setFlag (F.CE_CTL.CFG_ERR e) (srcEng s.cfg e + 10) else s
    let s :=
      if s.flag (F.CE_CTL.COMPAT e) then
        forEach (List.range 8) (fun n s => s.wr (O.CE_THR_SLICE e n) (resetWord s.cfg (O.CE_THR_SLICE e n))) s
      else s
    if run = false ∧ bitOf data 0 = true then s.runRelease e met
    else if run = true ∧ bitOf data 0 = false then s.haltEngine e
    else s

/-- RUN_SET (R248, R247): a write of CE_CTL with RUN = 1. A bit of `met` tells that a halt from another source reaches that thread in
the same cycle (R244). -/
def execRunSet (fn e : Nat) (data : Word) (s : State) (met : Nat := 0) : Host.Outcome State Fault Refusal :=
  .next (s.access fn (O.CE_CTL e) fun _ s => s.ceCtlWrite e (data ||| 1) met)

/-- RUN_CLEAR (R248): a write of CE_CTL with RUN = 0. -/
def execRunClear (fn e : Nat) (data : Word) (s : State) : Host.Outcome State Fault Refusal :=
  .next (s.access fn (O.CE_CTL e) fun _ s => s.ceCtlWrite e (data &&& ~~~ 1) 0)

/-- EVENT_WAIT_COMPLETE (R250): a WAITING thread with a selected event pending goes on. -/
def execEventWaitComplete (e n : Nat) (s : State) : Host.Outcome State Fault Refusal :=
  let v := s.thr e n
  if s.engineRuns e = true ∧ s.thrState e n = 2 ∧ Nat.land (s.pendEvents e n) v.mask ≠ 0 then
    .next (((s.waitDone e n v.mask v.dest).setPc e n (s.pcOf e n + 4)).setThrState e n 1)
  else .next s

/-- THREAD_TIMER_EXPIRY (R251): the timer reaches 0, sets TIMER and stops. -/
def execThreadTimerExpiry (e n : Nat) (s : State) : Host.Outcome State Fault Refusal :=
  if s.engineOn e = false ∨ s.rd (O.CE_THR_TIMER e n) = 0 then .next s else .next ((s.setTimer e n 0).postEvt e n 8)

/-- HOST_EVENT (R250): a write of 1 to CE_THR_EVT.HOST. -/
def execHostEvent (fn e n : Nat) (s : State) : Host.Outcome State Fault Refusal :=
  .next (s.access fn (O.CE_THR_EVT e n) fun _ s => s.postEvt e n 15)

/-- SPLICE_FETCH_DONE (R258, R123): the source of the oldest splice being fetched has been fetched; its edit goes to the port:
QUEUED, or FULL when the edits there and on their way leave no room. -/
def execSpliceFetchDone (s : State) : Host.Outcome State Fault Refusal :=
  match s.splices with
  | [] => .next s
  | x :: rest =>
    let s := s.setSplices rest
    let ed := x.edit
    let s := s.spliceBit (ed.thread / 8) ed.entry 31 false
    let v := s.port x.port
    let load := (v.edits ++ v.coming).foldl (fun a y => a + y.bytes.length) 0
    if 32 ≤ v.edits.length + v.coming.length ∨ 2048 < load + ed.bytes.length then
      let s := ((s.fset (F.MAC_EDIT_STAT.FULL x.port) 1).raisePort x.port 4).copyStatus x.port ed.fid 2048
      .next ((s.spliceNote ed false [28]).postThr ed.thread 7)
    else .next ((s.setPort x.port { v with coming := v.coming ++ [ed] }).spliceNote ed true [])

end Sys2Proof.Machine
end

