-- ==== Sys2Proof/Machine/Bus.lean ====
section
/-!
DEFINITION. The register slave port as a whole: a write or a read of any offset, size and function
(02_boundary_and_access.md R43 to R55), with each register's own rule, and the counters' clear registers.
-/
namespace Sys2Proof.Machine

/-- A write that only stores its fields; the spine copies of dictionary objects follow (17_parameter_dictionary.md R400). -/
def State.plainWrite (s : State) (key : Nat) (data : Word) : State := (s.writeFields key data).dicSync key

/-! ### Counters (04_field_ports.md R128) -/

/-- Sets `n` words from `key` on to zero. -/
def State.zeroWords (s : State) (key n : Nat) : State := forEach (List.range n) (fun i s => s.wr (key + 4 * i) 0) s

/-- The counters that the clear register at `key` sets to 0, as first word and number of words; none where no clear register
lies (R128; 05 R156; 06 TRK_OH_ERR, TRK_BLOCK_DROP; 07 R210; 08 R235; 09 R261; 11; 13). DESIGN CHOICE, notes/assumptions/17.md. -/
def clearedBy (key : Nat) : Option (List (Nat × Nat)) :=
  if 0x010000 ≤ key ∧ key < 0x01A000 ∧ key % 0x1000 = 0x38 then some [(key - 0x38 + 0x300, 64)]
  else if key = O.TRK_CNT_CLR 0 ∨ key = O.TRK_CNT_CLR 1 then
    let b := key - 0x10
    some [(b + 0x100, 60), (b + 0x301C, 1), (b + 0x310C, 1)]
  else if key = O.PRS_CNT_CLR 0 ∨ key = O.PRS_CNT_CLR 1 then some [(key + 0x80, 14)]
  else if key = O.CLS_CNT_CLR 0 then some [(O.CLS_CNT 0 0, 34), (O.CLS_MC_PARTIAL 0, 20), (O.CLS_UC_DROP 0, 20)]
  else if key = O.CLS_CNT_CLR 1 then some [(O.CLS_CNT 1 0, 34)]
  else if 0x080000 ≤ key ∧ key < 0x0B0000 ∧ key % 0x4000 = 0xC then some [(key - 0xC + 0x100, 16)]
  else if key = O.Q_CNT_CLR then some [(O.Q_CNT 0, 16)]
  else if key = O.MEM_CNT_CLR then some [(O.MEM_CNT 0, 20)]
  else none

/-- A write of a clear register with CLR = 1: the counters it covers are set to 0. -/
def State.clearCounters (s : State) (key : Nat) : State :=
  forEach ((clearedBy key).getD []) (fun r s => s.zeroWords r.1 r.2) s

/-- COUNTER_CLEAR (R128): CLR := 1 in the clear register at `off`. DESIGN CHOICE, notes/assumptions/17.md. -/
def execCounterClear (fn off : Nat) (s : State) : Host.Outcome State Fault Refusal :=
  .next (s.access fn off fun key s => s.clearCounters key)

/-! ### Writes, window by window -/

/-- A write in the window of a port's MAC (04_field_ports.md), `p` 8 and 9 for the trunks'. -/
def State.writeMac (s : State) (key : Nat) (data : Word) : State :=
  let p := (key - 0x010000) / 0x1000
  let r := key % 0x1000
  if r = 0 then s.macCtlWrite p data
  else if r = 0x14 ∨ r = 0x34 then (s.plainWrite key data).fcCheck p
  else if r = 0x1C then (s.plainWrite key data).preemptUpdate p
  else if r = 0x20 then s.gclCtlWrite p data
  else if 0x800 ≤ r then s.gclEntryWrite p ((r - 0x800) / 0x100) key data
  else s.plainWrite key data

/-- A write in the window of a trunk (05_trunk_cells.md, 06_trunk_overhead_gears_protection.md). -/
def State.writeTrk (s : State) (key : Nat) (data : Word) : State :=
  let t := (key - 0x020000) / 0x4000
  let r := key % 0x4000
  if r = 0 then s.trkCfgWrite t data
  else if r = 0x3020 then s.gearWrite t data
  else if r = 0x3028 then s.slotWrite t data
  else if r = 0x3030 then s.shiftWrite data
  else if r = 0x3104 then s.protCmd t data
  else if r = 0x3110 then (s.ringCfgWrite data).dicSync key
  else if r = 0x3000 then (s.plainWrite key data).protUpdate.fixDegraded
  else s.plainWrite key data

/-- A write in the window of the classifier (08_rules_courses_forwarding.md). -/
def State.writeCls (s : State) (key : Nat) (data : Word) : State :=
  if key = O.CLS_COMMIT then s.commitWrite (bitOf data 31) data
  else if key = O.CLS_STAGE_CTL then s.stageCtlWrite (getBits data 0 2)
  else if key = O.CLS_TCAM_CMD then
    (if 1 ≤ getBits data 0 3 ∧ getBits data 0 3 ≤ 4 then s.tcamCmdWrite (getBits data 0 3) else s)
  else if key = O.CLS_EM_CMD then
    (if 1 ≤ getBits data 0 3 ∧ getBits data 0 3 ≤ 4 then s.emCmdWrite (getBits data 0 3) data else s.plainWrite key data)
  else if key = O.CLS_EM_CFG then s.emCfgWrite data
  else if key = O.CLS_FLUSH then s.flushWrite (bitOf data 31) data
  else if O.CLS_SR 0 ≤ key ∧ key < O.CLS_SR 64 then
    let n := (key - O.CLS_SR 0) / 8
    let was := s.flag (F.CLS_SR.EN n)
    let s := s.plainWrite key data
    if was = false ∧ s.flag (F.CLS_SR.EN n) = true then
      s.setCls { s.cls with hist := KMap.clear (fun k => k % 64 == n) s.cls.hist }
    else s
  else s.plainWrite key data

/-- A write in the window of an engine (09_engine_threads.md R244 to R250). -/
def State.writeCe (s : State) (key : Nat) (data : Word) : State :=
  let e := (key - 0x080000) / 0x4000
  let r := key % 0x4000
  if r = 0 then s.ceCtlWrite e data 0
  else if 0x400 ≤ r ∧ r < 0x600 then
    let n := (r - 0x400) / 0x40
    let w := r % 0x40
    if w = 0 then s.ctlThread e n (bitOf data 0) (bitOf data 1)
    else if w = 0x14 then (if bitOf data 15 then s.postEvt e n 15 else s)
    else if w = 8 ∨ w = 0xC then
      (if s.thrStopped e n = false then s.deny
       else if w = 0xC ∧ s.flag (F.CE_CTL.COMPAT e) = true then s
       else s.plainWrite key data)
    else s.plainWrite key data
  else if 0x800 ≤ r ∧ r < 0xA00 then
    (if s.thrStopped e ((r - 0x800) / 0x40) = false then s.deny
     else if r % 0x40 = 0 then s
     else s.plainWrite key data)
  else s.plainWrite key data

/-- A write in the window of a time base and its cycle unit (03_time_and_cycles.md). -/
def State.writeTime (s : State) (key : Nat) (data : Word) : State :=
  let h := b2n (inTbB key)
  let a := key - tbOfs h
  if O.TB_SET ≤ a ∧ a < O.TB_SET + 12 then s.tbSetLow h ((a - O.TB_SET) / 4) data
  else if a = O.TB_SET + 12 then s.tbSetHigh h data
  else if a = O.TB_STEP then s.tbStepLow h data
  else if a = O.TB_STEP + 4 then s.tbStepHigh h data
  else if a = O.TB_RATE then s.tbRateWrite h data
  else if a = O.TB_SNAP_CMD then s.snapCmd h data
  else if O.CTU_GEN_CFG 0 ≤ key ∧ key < O.CTU_GEN_CFG 8 then
    let n := (key - O.CTU_GEN_CFG 0) / 0x40
    let r := (key - O.CTU_GEN_CFG 0) % 0x40
    if r = 0 then s.genCfgWrite n data
    else if r ≤ 0xC then s.genSetupWrite n key data
    else if r = 0x14 then s.genStatWrite n key data
    else s.plainWrite key data
  else if O.CTU_TRIG_CFG 0 ≤ key ∧ key < O.CTU_TRIG_CFG 32 then
    (if (key - O.CTU_TRIG_CFG 0) % 0x10 = 0xC then s.plainWrite key data
     else s.trigWrite ((key - O.CTU_TRIG_CFG 0) / 0x10) key data)
  else s.plainWrite key data

/-- A write in the window of the queues (11_functions_and_queues.md). -/
def State.writeQ (s : State) (key : Nat) (data : Word) : State :=
  if key = O.Q_ADMIN0_CFG then s.admin0Write data
  else if O.Q_ADMIN0_SQ ≤ key ∧ key < O.Q_ADMIN0_CQ + 8 then
    (if s.flag F.Q_ADMIN0_CFG.EN then s.deny else s.plainWrite key data)
  else if key = O.Q_QP_INFO then
    let q := s.fget F.Q_QP_SEL.QP
    if bitOf data 10 then s.setQp q { s.qp q with dbErr := false } else s
  else s.plainWrite key data

/-- A write in the window of the DMA engine (12_dma_and_planes.md R325, R339). With a ring that would reach beyond 2^44
(02_boundary_and_access.md R56) EN stays 0, with an error response. DESIGN CHOICE, notes/assumptions/41.md. -/
def State.writeDma (s : State) (key : Nat) (data : Word) : State :=
  if key = O.DMA_CQ_CFG then
    let busy := s.flag F.DMA_CQ_CFG.EN && decide (getBits data 0 4 ≠ s.fget F.DMA_CQ_CFG.L)
    let far := bitOf data 31 && !s.flag F.DMA_CQ_CFG.EN && !addrOk (s.rd64 O.DMA_CQ_BASE) (16 * 2 ^ getBits data 0 4)
    if busy then (s.plainWrite key (setBits data 0 4 (s.fget F.DMA_CQ_CFG.L))).deny
    else if far then (s.plainWrite key (setBits data 31 1 0)).deny
    else s.plainWrite key data
  else if key = O.DMA_CQ_IDX then s.dmaHeadWrite data
  else if O.DMA_CQ_BASE ≤ key ∧ key < O.DMA_CQ_BASE + 8 then
    (if s.flag F.DMA_CQ_CFG.EN then s.deny else s.plainWrite key data)
  else if O.DMA_CH_CTL 0 ≤ key ∧ key < O.DMA_CH_CTL 32 then
    let n := (key - O.DMA_CH_CTL 0) / 0x80
    let r := (key - O.DMA_CH_CTL 0) % 0x80
    if r = 0 then s.dmaCtlWrite n data
    else if r = 4 ∨ s.dmaState n = 0 then s.plainWrite key data
    else s.deny
  else s.plainWrite key data

/-- A write in the window of the check units (14_check_units_safety_island.md). -/
def State.writeChk (s : State) (key : Nat) (data : Word) : State :=
  if key = O.CHK_SEAL then s.sealWrite data
  else if 0x0E9000 ≤ key ∧ key % 0x1000 = 0 then s.chkCtlWrite ((key - 0x0E9000) / 0x1000) data
  else s.plainWrite key data

/-- A write in the window of buffer memory (13_buffer_memory_and_placement.md). -/
def State.writeMem (s : State) (key : Nat) (data : Word) : State :=
  if key = O.MEM_BANK_CMD then s.bankCmdWrite data
  else if key = O.MEM_DBG_DATA then s.setStage (KMap.insert s.stage key data)
  else if key = O.MEM_DBG_DATA + 4 then s.dbgWrite data
  else s.plainWrite key data

/-- A write in the windows of the interrupt controller, power, the dictionary and the faults (15 to 18). -/
def State.writeSys (s : State) (key : Nat) (data : Word) : State :=
  if O.IRQ_VBASE 0 ≤ key ∧ key < O.IRQ_VBASE 8 ∧ key % 0x20 = 0xC then s.irqEoi ((key - O.IRQ_VBASE 0) / 0x20) data
  else if O.IRQ_SETPEND 0 ≤ key ∧ key < O.IRQ_SETPEND 32 then s.irqSetPend ((key - O.IRQ_SETPEND 0) / 4) data
  else if O.PWR_DOM 0 ≤ key ∧ key < O.PWR_DOM 43 then s.targetWrite ((key - O.PWR_DOM 0) / 4) data
  else if key = O.PWR_WAKE_REQ then s.wakeReq data
  else if key = O.DIC_CMD then s.dicCmdWrite data
  else if key = O.DIC_MBX then
    let s := s.plainWrite key data
    if 0x8000 < s.fget F.DIC_MBX.OFS * 16 + 544 then s.fset F.DIC_MBX.EN 0 else s
  else if key = O.FLT_WDOG then s.wdogWrite data
  else if key = O.FLT_CLEAR then s.fltClearWrite data
  else if key = O.FLT_STAT then s.fltStatWrite data
  else if O.FLT_LOG 0 ≤ key ∧ key < O.FLT_LOG 32 ∧ key % 0x10 = 0 then s.fltLogWrite ((key - O.FLT_LOG 0) / 0x10) key data
  else s.plainWrite key data

/-- A 32-bit write of the register word at `key`, by the rule of the register. -/
def State.routeWrite (s : State) (key : Nat) (data : Word) : State :=
  if (clearedBy key).isSome then (if bitOf data 0 then s.clearCounters key else s)
  else if key = O.BLK_MODE then s.modeWrite (bitOf data 25) (bitOf data 11) (getBits data 8 3) false
  else if key < 0x010000 then s.plainWrite key data
  else if key < 0x01A000 then s.writeMac key data
  else if key < 0x030000 then s.writeTrk key data
  else if key = O.PRS_LOAD_CTL then s.loadCtlWrite data
  else if key < 0x040000 then s.plainWrite key data
  else if key < 0x080000 then s.writeCls key data
  else if key < 0x0B0000 then s.writeCe key data
  else if key < 0x0D0000 then s.writeTime key data
  else if key < 0x0E0000 then s.writeQ key data
  else if key < 0x0E8000 then s.writeDma key data
  else if key < 0x0F0000 then s.writeChk key data
  else if key < 0x0F8000 then s.writeMem key data
  else s.writeSys key data

/-! ### Windows without registers -/

/-- An access at offset `off` in the doorbell and push windows (11_functions_and_queues.md R303; R44).
DEDUCED, notes/assumptions/14.md. -/
def State.winDoorbell (s : State) (fn off : Nat) (write : Option Word) : State :=
  let q := (off - 0x100000) / 0x100
  let o := off % 0x100
  if o = 0 then
    match write with
    | some w =>
      s.qAccess fn q 0 fun s =>
        if getBits w 30 2 = 0 then s.dbRing q 0 w
        else if getBits w 30 2 = 1 then s.dbRing q 1 w
        else if getBits w 30 2 = 2 then s.dbCq q w
        else s.dbIgnored q
    | none => s.qAccess fn q 0 fun s => s
  else if 0x20 ≤ o ∧ o < 0xA0 then
    s.qAccess fn q o fun s =>
      match write with
      | some w => s.setQp q { s.qp q with slots := KMap.put 0 (s.qp q).slots ((o - 0x20) / 4) w }
      | none => s
  else s.qAccess fn q o fun s => s.deny

/-- An access at offset `off` in an engine's debug window (09_engine_threads.md R240; R44, R45), a write of 1, 2 or 4 bytes
(R46). DEDUCED, notes/assumptions/14.md. -/
def State.winEngine (s : State) (fn off : Nat) (write : Option (List Byte)) : State :=
  let e := (off - 0x400000) / 0x40000
  let o := (off - 0x400000) % 0x40000
  if fn ≠ 0 then (s.logDenied fn off).deny
  else if s.cfg.engines ≤ e ∨ s.islandUp off = false ∨ (ememEnd o write.isSome).isNone = true then s.deny
  else
    match write with
    | some bs => if s.ememOpen e then (s.answer false 0).winWrite e o bs else s.deny
    | none => s.answer false (leNat (s.ebytes e o 4))

/-- An access that the port refuses whoever makes it (R46, R48): a function that may not use the offset is counted as well
(R44). DEDUCED, notes/assumptions/14.md. -/
def State.denyFor (s : State) (fn off : Nat) : State :=
  if 0x100000 ≤ off ∧ off < 0x200000 then s.qAccess fn ((off - 0x100000) / 0x100) (off % 0x100) fun s => s.deny
  else if fn ≠ 0 then (s.logDenied fn off).deny
  else s.deny

/-! ### The port -/

/-- A 32-bit write at offset `off` (R46, R49). -/
def State.write32 (s : State) (fn off : Nat) (data : Word) : State :=
  if 0x100000 ≤ off ∧ off < 0x200000 then s.winDoorbell fn off (some data)
  else if 0x400000 ≤ off ∧ off < 0x700000 then s.winEngine fn off (some (natLe 4 data.toNat))
  else s.writeAcc fn off data fun key s => s.routeWrite key data

/-- Whether a register takes narrow writes (R48). -/
def State.byteWritable (s : State) (off : Nat) : Bool :=
  match hitOf s.cfg off with
  | some h => h.row.byteWr
  | none => false

/-- Whether an access of `size` bytes at `off` is one of the patterns the port accepts (R46). DEDUCED, notes/assumptions/14.md. -/
def goodAccess (off size : Nat) : Bool := (size == 1 || size == 2 || size == 4 || size == 8) && off % size == 0

/-- Whether the last answer was an error response. -/
def State.erred (s : State) : Bool :=
  match s.slv with
  | some a => a.err
  | none => false

/-- The last answer's data. -/
def State.ansData (s : State) : Nat :=
  match s.slv with
  | some a => a.data.toNat
  | none => 0

/-- A write of `size` bytes at `off` by function `fn` (R43 to R49): 64 bits are two writes, the lower address first, and
narrow writes reach byte-writable registers and engine memories only (R48, R45). DEDUCED, notes/assumptions/14.md. -/
def State.busWrite (s : State) (fn off size : Nat) (data : BitVec 64) : State :=
  if goodAccess off size = false then s.denyFor fn off
  else if size = 8 then
    let s := s.write32 fn off (data.extractLsb' 0 32)
    let e := s.erred
    let s := s.write32 fn (off + 4) (data.extractLsb' 32 32)
    if e then s.deny else s
  else if size = 4 then s.write32 fn off (data.extractLsb' 0 32)
  else if 0x400000 ≤ off ∧ off < 0x700000 then s.winEngine fn off (some (natLe size data.toNat))
  else
    let w := off / 4 * 4
    if s.byteWritable w then
      s.write32 fn w (setBits (s.rd w) (8 * (off - w)) (8 * size) data.toNat)
    else s.denyFor fn off

/-- REGISTER_WRITE (R43 to R55). -/
def execRegisterWrite (fn off size : Nat) (data : BitVec 64) (s : State) : Host.Outcome State Fault Refusal :=
  .next (s.busWrite fn off size data)

/-! ### Reads -/

/-- The threads of engine `e` in a state. -/
def State.threadsIn (s : State) (e : Nat) (p : Nat → Bool) : Nat :=
  (List.range 8).foldl (fun a n => if p (s.thrState e n) then a + 2 ^ n else a) 0

/-- CE_STAT_e as it reads. -/
def State.ceStat (s : State) (e : Nat) : Nat :=
  s.threadsIn e (· != 0) + 2 ^ 8 * s.threadsIn e (· == 2) + 2 ^ 16 * s.threadsIn e (· == 3) + 2 ^ 24 * s.threadsIn e (· == 4)

/-- MEM_GRAN_INFO as it reads, for granule `g` (13 R346). DESIGN CHOICE, notes/assumptions/16.md. -/
def State.granInfo (s : State) (g : Nat) : Nat :=
  let v := s.gran g
  2 ^ 29 * (if s.bankOn (g / 64) then v.state else 4) + 2 ^ 20 * v.owner + 2 ^ 12 * min 255 v.poison.length + v.qp

/-- PWR of MEM_BANK_STAT_n: 0 ON, 1 RET, 2 OFF (13 R343). DESIGN CHOICE, notes/assumptions/16.md. -/
def State.bankPwr (s : State) (b : Nat) : Nat :=
  if s.domOn (18 + b) then 0 else if (s.dom (18 + b)).ret then 1 else 2

/-- Whether a power transition is under way (16_power_and_wake.md, PWR_STAT). DESIGN CHOICE, notes/assumptions/16.md. -/
def State.seqBusy (s : State) : Bool :=
  s.doms.any fun d =>
    match d.2.phase with
    | .idle => false
    | .listening _ => false
    | _ => true

/-- Q_FN_INFO, Q_FN_USE and Q_FN_QUOTA as they read for function `f`. DESIGN CHOICE, notes/assumptions/16.md. -/
def State.fnWord (s : State) (f w : Nat) : Nat :=
  let v := s.func f
  if w = 0 then 2 ^ 30 * v.state + 2 ^ 20 * (v.ports % 1024) + 2 ^ 16 * min 15 v.evtLost + 2 ^ 8 * v.classHi + v.classLo
  else if w = 1 then 2 ^ 16 * s.qpUse f + s.granUse f
  else 2 ^ 16 * v.maxQp + v.maxGran

/-- Q_QP_INFO, Q_QP_IDX and Q_QP_CQ as they read for queue pair `q`. DESIGN CHOICE, notes/assumptions/16.md. -/
def State.qpWord (s : State) (q w : Nat) : Nat :=
  let p := s.qp q
  if w = 0 then
    2 ^ 24 * (p.gen % 256) + 2 ^ 16 * (p.owner % 256) + 2 ^ 15 * b2n p.en + 2 ^ 14 * b2n p.service + 2 ^ 12 * p.lc +
      2 ^ 11 * b2n p.admin + 2 ^ 10 * b2n p.dbErr + p.thread
  else if w = 1 then 2 ^ 16 * p.rxHead + p.txHead
  else 2 ^ 16 * p.cqHead + p.cqTail

/-- Whether counter `k` of classifier half `h` reads 0: learning and aging count in the leader only (08 R235).
DESIGN CHOICE, notes/assumptions/30.md. -/
def State.followCnt (s : State) (key : Nat) : Bool :=
  decide (0x040800 ≤ key ∧ key < 0x040A00) && decide (9 ≤ key % 0x100 / 8 ∧ key % 0x100 / 8 ≤ 14) &&
    decide ((key - 0x040800) / 0x100 ≠ s.leader)

/-- The word of a register that shows a computed value, else the word held. DESIGN CHOICE, notes/assumptions/16.md. -/
def State.viewRaw (s : State) (key : Nat) : Word :=
  if key = O.BLK_MODE then
    setBits (s.rd key) 27 1 (b2n (s.halfList.all fun h => s.hmode h == s.mode))
  else if key = O.TB_STAT ∨ key = O.TB_STAT + 0x8000 then
    setBits (s.rd key) 7 1 (b2n (decide (s.cfg = .x ∧ s.leader ≠ b2n (inTbB key))))
  else if 0x080000 ≤ key ∧ key < 0x0B0000 ∧ key % 0x4000 = 4 then
    BitVec.ofNat 32 (s.ceStat ((key - 0x080000) / 0x4000))
  else if 0x080000 ≤ key ∧ key < 0x0B0000 ∧ 0x400 ≤ key % 0x4000 ∧ key % 0x4000 < 0x600 ∧ key % 0x40 = 0x14 then
    BitVec.ofNat 32 (s.pendEvents ((key - 0x080000) / 0x4000) ((key % 0x4000 - 0x400) / 0x40))
  else if O.Q_FN_INFO ≤ key ∧ key ≤ O.Q_FN_QUOTA then
    BitVec.ofNat 32 (s.fnWord (s.fget F.Q_FN_SEL.FN) ((key - O.Q_FN_INFO) / 4))
  else if O.Q_QP_INFO ≤ key ∧ key ≤ O.Q_QP_CQ then
    BitVec.ofNat 32 (s.qpWord (s.fget F.Q_QP_SEL.QP) ((key - O.Q_QP_INFO) / 4))
  else if key = O.MEM_STAT then
    setBits (s.rd key) 0 11 (((List.range s.cfg.banks).filter fun b => s.bankOn b).foldl (fun a b => a + s.freeIn b) 0)
  else if key = O.MEM_GRAN_INFO then BitVec.ofNat 32 (s.granInfo (s.fget F.MEM_GRAN_SEL.GRAN))
  else if O.MEM_BANK_STAT 0 ≤ key ∧ key < O.MEM_BANK_STAT 24 then
    let b := (key - O.MEM_BANK_STAT 0) / 4
    setBits (if s.quiesced (18 + b) then setBits (s.rd key) 29 1 1 else s.rd key) 30 2 (s.bankPwr b)
  else if key = O.CHK_DIGEST then BitVec.ofNat 32 s.digest
  else if O.IRQ_VBASE 0 ≤ key ∧ key < O.IRQ_VBASE 8 ∧ key % 0x20 = 8 then s.irqRunWord ((key - O.IRQ_VBASE 0) / 0x20)
  else if O.IRQ_SETPEND 0 ≤ key ∧ key < O.IRQ_SETPEND 32 then s.rd (key - O.IRQ_SETPEND 0 + O.IRQ_PEND 0)
  else if key = O.PWR_STAT then setBits (s.rd key) 31 1 (b2n s.seqBusy)
  else if key = O.DIC_STORE then
    setBits (s.rd key) 16 16 (if s.flag F.DIC_STAT.READY then min 65535 (s.storeBytes s.dic.vals).length else 0)
  else if key = O.FLT_STAT then setBits (s.rd key) 31 1 (b2n !s.containFree)
  else if s.followCnt key then 0
  else s.rd key

/-- The word that a read of `key` returns, where the read has no effect: RsvdZ bits read zero (00_scope.md R6).
DESIGN CHOICE, notes/assumptions/16.md. -/
def State.view (s : State) (key : Nat) : Word := s.viewRaw key &&& ~~~ absentBits s.cfg key

/-- Whether the word at `key` belongs to a 64-bit counter (R54). -/
def isCounter (key : Nat) : Bool :=
  decide (0x010000 ≤ key ∧ key < 0x01A000 ∧ 0x300 ≤ key % 0x1000 ∧ key % 0x1000 < 0x400) ||
  decide (0x020000 ≤ key ∧ key < 0x028000 ∧ 0x100 ≤ key % 0x4000 ∧ key % 0x4000 < 0x1F0) ||
  decide (0x030000 ≤ key ∧ key < 0x040000 ∧ 0x100 ≤ key % 0x8000 ∧ key % 0x8000 < 0x138) ||
  decide (0x040800 ≤ key ∧ key < 0x040B00) ||
  decide (0x080000 ≤ key ∧ key < 0x0B0000 ∧ 0x100 ≤ key % 0x4000 ∧ key % 0x4000 < 0x140) ||
  decide (O.Q_CNT 0 ≤ key ∧ key < O.Q_CNT 8) || decide (O.MEM_CNT 0 ≤ key ∧ key < O.MEM_CNT 10) ||
  decide (O.FLT_CNT ≤ key ∧ key < O.FLT_CNT + 8)

/-- Word of a 128-bit register whose words 1 to 3 read their holding registers (R95, R364, R421).
DEDUCED, notes/assumptions/68.md. -/
def latchedWord (key : Nat) : Option Nat :=
  if O.CTU_CAP_CFG 0 ≤ key ∧ key < O.CTU_CAP_CFG 16 ∧ 0x10 ≤ key % 0x20 then some (key % 0x10 / 4)
  else if O.FLT_LOG 0 ≤ key ∧ key < O.FLT_LOG 32 then some (key % 0x10 / 4)
  else if 0x0E9000 ≤ key ∧ key < 0x0ED000 ∧ 0x50 ≤ key % 0x1000 ∧ key % 0x1000 < 0x60 then some (key % 0x10 / 4)
  else none

/-- A read of the register word at `key`, with its side effects. -/
def State.readKey (s : State) (key : Nat) : State :=
  if s.tbStopped key then s.deny
  else if key = O.TB_SNAP_NS then s.snapRead 0
  else if key = O.TB_SNAP_NS + 0x8000 then s.snapRead 1
  else if key = O.TRK_SLOT_DATA 0 then s.slotDataRead 0
  else if key = O.TRK_SLOT_DATA 1 then s.slotDataRead 1
  else if key = O.PRS_NODE_DATA 0 then s.nodeDataRead 0
  else if key = O.PRS_NODE_DATA 1 then s.nodeDataRead 1
  else if key = O.MEM_DBG_DATA then s.dbgRead
  else if key = O.MEM_DBG_DATA + 4 then s.answer false (s.held key).toNat
  else if isCounter key then
    (if s.followCnt key then s.answer false 0
     else if key % 8 = 0 then (s.latchHigh key).answer false (s.rd key).toNat
     else s.answer false (s.held key).toNat)
  else
    match latchedWord key with
    | some 0 => (s.latchNext key 3).answer false (s.rd key).toNat
    | some _ => s.answer false (s.held key).toNat
    | none => s.answer false (s.view key).toNat

/-- A 32-bit read at offset `off`. -/
def State.read32 (s : State) (fn off : Nat) : State :=
  if 0x100000 ≤ off ∧ off < 0x200000 then s.winDoorbell fn off none
  else if 0x400000 ≤ off ∧ off < 0x700000 then s.winEngine fn off none
  else s.access fn off fun key s => s.readKey key

/-- A read of `size` bytes at `off` by function `fn` (R43 to R49): 64 bits are two reads, the lower address first; a narrow
read has the effects of the 32-bit read and returns the addressed bytes (R47). DEDUCED, notes/assumptions/14.md. -/
def State.busRead (s : State) (fn off size : Nat) : State :=
  if goodAccess off size = false then s.denyFor fn off
  else if size = 8 then
    let s := s.read32 fn off
    let e := s.erred
    let lo := s.ansData
    let s := s.read32 fn (off + 4)
    if e || s.erred then s.deny else s.answer false (lo + 2 ^ 32 * s.ansData)
  else
    let s := s.read32 fn (off / 4 * 4)
    if s.erred then s else s.answer false (s.ansData / 2 ^ (8 * (off % 4)) % 2 ^ (8 * size))

/-- COUNTER_LATCH_READ (R54; R43 to R49): a read of any offset; that of a counter's low word latches its high word. -/
def execCounterLatchRead (fn off size : Nat) (s : State) : Host.Outcome State Fault Refusal :=
  .next (s.busRead fn off size)

/-- READ_TIMEOUT (01_block_and_halves.md R16): a read of an island whose clock is stopped ends with the error response; the
always-on island always answers. DESIGN CHOICE, notes/assumptions/17.md. -/
def execReadTimeout (off : Nat) (s : State) : Host.Outcome State Fault Refusal :=
  match keyOf s.cfg off with
  | some key => if s.homeDom key = 0 then .next s else .next s.deny
  | none => .next s

end Sys2Proof.Machine
end

