-- ==== Sys2Proof/Machine/Dispatch.lean ====
section
/-!
DEFINITION. One arm per command: the meaning it calls, or its rejection by name.
-/
namespace Sys2Proof.Machine


def exec (i : Instr) (s : State) : Host.Outcome State Fault Refusal :=
  match i with
  | .blkRstNAssert step => Sys2Proof.Machine.execBlkRstNAssert s step
  | .blkRstNRelease => Sys2Proof.Machine.execBlkRstNRelease s
  | .halfResetAssert h => Sys2Proof.Machine.execHalfResetAssert h s
  | .halfResetRelease h => Sys2Proof.Machine.execHalfResetRelease h s
  | .safeRstNAssert rises => Sys2Proof.Machine.execSafeRstNAssert s rises
  | .aonPowerOn => Sys2Proof.Machine.execAonPowerOn s
  | .modeReqConfig fn clr meets => Sys2Proof.Machine.execModeReqConfig fn clr meets s
  | .modeReqIntegrate fn clr meets => Sys2Proof.Machine.execModeReqIntegrate fn clr meets s
  | .modeReqSafehold fn clr meets => Sys2Proof.Machine.execModeReqSafehold fn clr meets s
  | .modeReqDormant fn clr meets => Sys2Proof.Machine.execModeReqDormant fn clr meets s
  | .modeReqPendingCheck => Sys2Proof.Machine.execModeReqPendingCheck s
  | .bistDone bad => Sys2Proof.Machine.execBistDone bad s
  | .enterOperate => Sys2Proof.Machine.execEnterOperate s
  | .heartbeatSend h => Sys2Proof.Machine.execHeartbeatSend h s
  | .heartbeatReceive spine h => Sys2Proof.Machine.execHeartbeatReceive spine h s
  | .linkGlitch h spine => Sys2Proof.Machine.execLinkGlitch h s spine
  | .halfLinkLoss h => Sys2Proof.Machine.execHalfLinkLoss h s
  | .leaderSettlement => Sys2Proof.Machine.execLeaderSettlement s
  | .stateCopyDone h => Sys2Proof.Machine.execStateCopyDone h s
  | .tableCopyDone h => Sys2Proof.Machine.execTableCopyDone h s
  | .spineLinkLoss h => Sys2Proof.Machine.execSpineLinkLoss h s
  | .registerWrite fn off size data => Sys2Proof.Machine.execRegisterWrite fn off size data s
  | .readTimeout off => Sys2Proof.Machine.execReadTimeout off s
  | .counterLatchRead fn off size => Sys2Proof.Machine.execCounterLatchRead fn off size s
  | .pwrFailWarn => Sys2Proof.Machine.execPwrFailWarn s
  | .captureEdge n rising clr => Sys2Proof.Machine.execCaptureEdge n rising s clr
  | .syncInEdge rising => Sys2Proof.Machine.execSyncInEdge rising s
  | .syncMissLimit n => Sys2Proof.Machine.execSyncMissLimit n s
  | .clockLoss trunk n tx => Sys2Proof.Machine.execClockLoss trunk n s tx
  | .clockReturn trunk n tx => Sys2Proof.Machine.execClockReturn trunk n s tx
  | .tbSetWrite fn h data => Sys2Proof.Machine.execTbSetWrite fn h data s
  | .tbStepWrite fn h data set rate snap => Sys2Proof.Machine.execTbStepWrite fn h data s set rate snap
  | .tbRateWrite fn h data => Sys2Proof.Machine.execTbRateWrite fn h data s
  | .followerTimeApply => Sys2Proof.Machine.execFollowerTimeApply s
  | .snapshotLatch fn h data => Sys2Proof.Machine.execSnapshotLatch fn h data s
  | .tbSnapNsRead fn h => Sys2Proof.Machine.execTbSnapNsRead fn h s
  | .ppsPulseStart => Sys2Proof.Machine.execPpsPulseStart s
  | .ppsPulseEnd => Sys2Proof.Machine.execPpsPulseEnd s
  | .generatorEnable fn n data => Sys2Proof.Machine.execGeneratorEnable fn n data s
  | .generatorDisable fn n data => Sys2Proof.Machine.execGeneratorDisable fn n data s
  | .cycleBoundary n => Sys2Proof.Machine.execCycleBoundary n s
  | .triggerConfigWrite fn n which data => Sys2Proof.Machine.execTriggerConfigWrite fn n which data s
  | .triggerRise n => Sys2Proof.Machine.execTriggerRise n s
  | .triggerFall n => Sys2Proof.Machine.execTriggerFall n s
  | .captureTsRead fn n => Sys2Proof.Machine.execCaptureTsRead fn n s
  | .tbClockLoss h => Sys2Proof.Machine.execTbClockLoss h s
  | .tbTicksResume h => Sys2Proof.Machine.execTbTicksResume h s
  | .frameReceive p bytes eof rxErr asm ph => Sys2Proof.Machine.execFrameReceive p bytes eof rxErr asm ph s
  | .byteTrigger e n k => Sys2Proof.Machine.execByteTrigger e n k s
  | .cutThroughStart p ph sent => Sys2Proof.Machine.execCutThroughStart p ph s sent
  | .macCtlWrite fn p data => Sys2Proof.Machine.execMacCtlWrite fn p data s
  | .pauseFrameReceive p pfc enable quanta => Sys2Proof.Machine.execPauseFrameReceive p pfc enable quanta s
  | .pauseTimerExpiry p cls => Sys2Proof.Machine.execPauseTimerExpiry p cls s
  | .pauseRepeat p cls => Sys2Proof.Machine.execPauseRepeat p cls s
  | .collision p late => Sys2Proof.Machine.execCollision p late s
  | .backoffExpiry p => Sys2Proof.Machine.execBackoffExpiry p s
  | .verifyResponse p => Sys2Proof.Machine.execVerifyResponse p s
  | .verifyTimeout p => Sys2Proof.Machine.execVerifyTimeout p s
  | .frameTransmitStart p ph sent crs => Sys2Proof.Machine.execFrameTransmitStart p ph s sent crs
  | .frameTransmitEnd p => Sys2Proof.Machine.execFrameTransmitEnd p s
  | .gateEntryExpiry p => Sys2Proof.Machine.execGateEntryExpiry p s
  | .gateListWrite fn p ctl g idx hi data => Sys2Proof.Machine.execGateListWrite fn p ctl g idx hi data s
  | .editQueued p j => Sys2Proof.Machine.execEditQueued p s j
  | .editLate p j => Sys2Proof.Machine.execEditLate p s j
  | .counterClear fn off => Sys2Proof.Machine.execCounterClear fn off s
  | .trkCfgWrite fn t data => Sys2Proof.Machine.execTrkCfgWrite fn t data s
  | .pmaLockChange t level => Sys2Proof.Machine.execPmaLockChange t level s
  | .cellReceive t ofs bytes ph => Sys2Proof.Machine.execCellReceive t ofs bytes ph s
  | .linkFaultReceive t fault => Sys2Proof.Machine.execLinkFaultReceive t fault s
  | .cellSlot t ph => Sys2Proof.Machine.execCellSlot t ph s
  | .superframeInstant h => Sys2Proof.Machine.execSuperframeInstant h s
  | .superframeTimeout t => Sys2Proof.Machine.execSuperframeTimeout t s
  | .overheadCellReceive t => Sys2Proof.Machine.execOverheadCellReceive t s
  | .urgentCellReceive t => Sys2Proof.Machine.execUrgentCellReceive t s
  | .listenTimerExpiry => Sys2Proof.Machine.execListenTimerExpiry s
  | .coldsendComplete => Sys2Proof.Machine.execColdsendComplete s
  | .sourceLossTimeout => Sys2Proof.Machine.execSourceLossTimeout s
  | .trkSlotDataWrite fn t data => Sys2Proof.Machine.execTrkSlotDataWrite fn t data s
  | .trkSlotDataRead fn t => Sys2Proof.Machine.execTrkSlotDataRead fn t s
  | .gearValidWrite fn t data => Sys2Proof.Machine.execGearValidWrite fn t data s
  | .shiftRequest fn data => Sys2Proof.Machine.execShiftRequest fn data s
  | .forcedSwitch fn t => Sys2Proof.Machine.execForcedSwitch fn t s
  | .manualSwitch fn t => Sys2Proof.Machine.execManualSwitch fn t s
  | .lockout fn t => Sys2Proof.Machine.execLockout fn t s
  | .clearCommand fn t => Sys2Proof.Machine.execClearCommand fn t s
  | .signalFailLocal t => Sys2Proof.Machine.execSignalFailLocal t s
  | .sdWindowEnd t => Sys2Proof.Machine.execSdWindowEnd t s
  | .wtrExpiry => Sys2Proof.Machine.execWtrExpiry s
  | .parseEntry h => Sys2Proof.Machine.execParseEntry h s
  | .parseStep h idx => Sys2Proof.Machine.execParseStep h idx s
  | .graphLoad fn data => Sys2Proof.Machine.execGraphLoad fn data s
  | .graphLoadDone image err => Sys2Proof.Machine.execGraphLoadDone image err s
  | .traceArm fn h data => Sys2Proof.Machine.execTraceArm fn h data s
  | .prsNodeDataRead fn h => Sys2Proof.Machine.execPrsNodeDataRead fn h s
  | .classify h late => Sys2Proof.Machine.execClassify h s late
  | .stageOpen fn => Sys2Proof.Machine.execStageOpen fn s
  | .stageOpenEmpty fn => Sys2Proof.Machine.execStageOpenEmpty fn s
  | .stageAbandon fn => Sys2Proof.Machine.execStageAbandon fn s
  | .stageOpenDone => Sys2Proof.Machine.execStageOpenDone s
  | .tcamWrite fn => Sys2Proof.Machine.execTcamWrite fn s
  | .tcamAdd fn => Sys2Proof.Machine.execTcamAdd fn s
  | .tcamDel fn => Sys2Proof.Machine.execTcamDel fn s
  | .tcamRead fn => Sys2Proof.Machine.execTcamRead fn s
  | .commitRequest fn data => Sys2Proof.Machine.execCommitRequest fn data s
  | .commitComplete missed => Sys2Proof.Machine.execCommitComplete s missed
  | .courseRetire n => Sys2Proof.Machine.execCourseRetire n s
  | .emInsertFlow fn data => Sys2Proof.Machine.execEmInsertFlow fn data s
  | .emInsertFwd fn data => Sys2Proof.Machine.execEmInsertFwd fn data s
  | .emDelete fn data => Sys2Proof.Machine.execEmDelete fn data s
  | .emRead fn data => Sys2Proof.Machine.execEmRead fn data s
  | .emCommandDone full => Sys2Proof.Machine.execEmCommandDone full s
  | .emCfgWrite fn data => Sys2Proof.Machine.execEmCfgWrite fn data s
  | .learnUpdate full => Sys2Proof.Machine.execLearnUpdate full s
  | .agerVisit h idx => Sys2Proof.Machine.execAgerVisit h idx s
  | .ageRemoval h idx => Sys2Proof.Machine.execAgeRemoval h idx s
  | .flushRequest fn data => Sys2Proof.Machine.execFlushRequest fn data s
  | .flushSweepDone => Sys2Proof.Machine.execFlushSweepDone s
  | .recoveryResetTimeout e n => Sys2Proof.Machine.execRecoveryResetTimeout e n s
  | .threadRelease fn e n data met => Sys2Proof.Machine.execThreadRelease fn e n data s met
  | .threadHalt fn e n data => Sys2Proof.Machine.execThreadHalt fn e n data s
  | .runSet fn e data met => Sys2Proof.Machine.execRunSet fn e data s met
  | .runClear fn e data => Sys2Proof.Machine.execRunClear fn e data s
  | .eventWaitComplete e n => Sys2Proof.Machine.execEventWaitComplete e n s
  | .threadTimerExpiry e n => Sys2Proof.Machine.execThreadTimerExpiry e n s
  | .hostEvent fn e n => Sys2Proof.Machine.execHostEvent fn e n s
  | .spliceFetchDone => Sys2Proof.Machine.execSpliceFetchDone s
  | .aluAdd e n slot busy ecc => Sys2Proof.Machine.execAluAdd e n slot busy ecc s
  | .aluSub e n slot busy ecc => Sys2Proof.Machine.execAluSub e n slot busy ecc s
  | .aluAnd e n slot busy ecc => Sys2Proof.Machine.execAluAnd e n slot busy ecc s
  | .aluOr e n slot busy ecc => Sys2Proof.Machine.execAluOr e n slot busy ecc s
  | .aluXor e n slot busy ecc => Sys2Proof.Machine.execAluXor e n slot busy ecc s
  | .aluAndn e n slot busy ecc => Sys2Proof.Machine.execAluAndn e n slot busy ecc s
  | .aluShl e n slot busy ecc => Sys2Proof.Machine.execAluShl e n slot busy ecc s
  | .aluShr e n slot busy ecc => Sys2Proof.Machine.execAluShr e n slot busy ecc s
  | .aluSar e n slot busy ecc => Sys2Proof.Machine.execAluSar e n slot busy ecc s
  | .aluMul e n slot busy ecc => Sys2Proof.Machine.execAluMul e n slot busy ecc s
  | .aluMin e n slot busy ecc => Sys2Proof.Machine.execAluMin e n slot busy ecc s
  | .aluMax e n slot busy ecc => Sys2Proof.Machine.execAluMax e n slot busy ecc s
  | .aluMinu e n slot busy ecc => Sys2Proof.Machine.execAluMinu e n slot busy ecc s
  | .aluMaxu e n slot busy ecc => Sys2Proof.Machine.execAluMaxu e n slot busy ecc s
  | .addi e n slot busy ecc => Sys2Proof.Machine.execAddi e n slot busy ecc s
  | .andi e n slot busy ecc => Sys2Proof.Machine.execAndi e n slot busy ecc s
  | .ori e n slot busy ecc => Sys2Proof.Machine.execOri e n slot busy ecc s
  | .xori e n slot busy ecc => Sys2Proof.Machine.execXori e n slot busy ecc s
  | .shiShl e n slot busy ecc => Sys2Proof.Machine.execShiShl e n slot busy ecc s
  | .shiShr e n slot busy ecc => Sys2Proof.Machine.execShiShr e n slot busy ecc s
  | .shiSar e n slot busy ecc => Sys2Proof.Machine.execShiSar e n slot busy ecc s
  | .shiRor e n slot busy ecc => Sys2Proof.Machine.execShiRor e n slot busy ecc s
  | .lui e n slot busy ecc => Sys2Proof.Machine.execLui e n slot busy ecc s
  | .ext e n slot busy ecc => Sys2Proof.Machine.execExt e n slot busy ecc s
  | .ins e n slot busy ecc => Sys2Proof.Machine.execIns e n slot busy ecc s
  | .cmp e n slot busy ecc => Sys2Proof.Machine.execCmp e n slot busy ecc s
  | .cmpi e n slot busy ecc => Sys2Proof.Machine.execCmpi e n slot busy ecc s
  | .b e n slot busy ecc => Sys2Proof.Machine.execB e n slot busy ecc s
  | .jal e n slot busy ecc => Sys2Proof.Machine.execJal e n slot busy ecc s
  | .jalr e n slot busy ecc => Sys2Proof.Machine.execJalr e n slot busy ecc s
  | .ld e n slot busy ecc => Sys2Proof.Machine.execLd e n slot busy ecc s
  | .st e n slot busy ecc => Sys2Proof.Machine.execSt e n slot busy ecc s
  | .fld e n slot busy ecc => Sys2Proof.Machine.execFld e n slot busy ecc s
  | .fst e n slot busy ecc => Sys2Proof.Machine.execFst e n slot busy ecc s
  | .frmTake e n slot busy ecc => Sys2Proof.Machine.execFrmTake e n slot busy ecc s
  | .frmDisp e n slot busy ecc => Sys2Proof.Machine.execFrmDisp e n slot busy ecc s
  | .frmFree e n slot busy ecc => Sys2Proof.Machine.execFrmFree e n slot busy ecc s
  | .frmTrigArm e n slot busy ecc => Sys2Proof.Machine.execFrmTrigArm e n slot busy ecc s
  | .frmTrigDisarm e n slot busy ecc => Sys2Proof.Machine.execFrmTrigDisarm e n slot busy ecc s
  | .frmFinfo e n slot busy ecc => Sys2Proof.Machine.execFrmFinfo e n slot busy ecc s
  | .spl e n slot busy ecc => Sys2Proof.Machine.execSpl e n slot busy ecc s
  | .mfs e n slot busy ecc => Sys2Proof.Machine.execMfs e n slot busy ecc s
  | .mts e n slot busy ecc => Sys2Proof.Machine.execMts e n slot busy ecc s
  | .wait e n slot busy ecc => Sys2Proof.Machine.execWait e n slot busy ecc s
  | .sig e n slot busy ecc => Sys2Proof.Machine.execSig e n slot busy ecc s
  | .time e n slot busy ecc => Sys2Proof.Machine.execTime e n slot busy ecc s
  | .amoSwap e n slot busy ecc => Sys2Proof.Machine.execAmoSwap e n slot busy ecc s
  | .amoAdd e n slot busy ecc => Sys2Proof.Machine.execAmoAdd e n slot busy ecc s
  | .amoAnd e n slot busy ecc => Sys2Proof.Machine.execAmoAnd e n slot busy ecc s
  | .amoOr e n slot busy ecc => Sys2Proof.Machine.execAmoOr e n slot busy ecc s
  | .amoXor e n slot busy ecc => Sys2Proof.Machine.execAmoXor e n slot busy ecc s
  | .amoCas e n slot busy ecc => Sys2Proof.Machine.execAmoCas e n slot busy ecc s
  | .crc e n slot busy ecc => Sys2Proof.Machine.execCrc e n slot busy ecc s
  | .chkf e n slot busy ecc => Sys2Proof.Machine.execChkf e n slot busy ecc s
  | .thcTpc e n slot busy ecc => Sys2Proof.Machine.execThcTpc e n slot busy ecc s
  | .thcTslc e n slot busy ecc => Sys2Proof.Machine.execThcTslc e n slot busy ecc s
  | .thcTgw e n slot busy ecc => Sys2Proof.Machine.execThcTgw e n slot busy ecc s
  | .thcTgr e n slot busy ecc => Sys2Proof.Machine.execThcTgr e n slot busy ecc s
  | .thcTrel e n slot busy ecc met => Sys2Proof.Machine.execThcTrel e n slot busy ecc s met
  | .thcThlt e n slot busy ecc => Sys2Proof.Machine.execThcThlt e n slot busy ecc s
  | .thcTst e n slot busy ecc => Sys2Proof.Machine.execThcTst e n slot busy ecc s
  | .doorbellTx fn q data => Sys2Proof.Machine.execDoorbellTx fn q data s
  | .doorbellRx fn q data => Sys2Proof.Machine.execDoorbellRx fn q data s
  | .doorbellCq fn q data => Sys2Proof.Machine.execDoorbellCq fn q data s
  | .pushSlotWrite fn q k w data => Sys2Proof.Machine.execPushSlotWrite fn q k w data s
  | .descriptorFetch q desc err data derr => Sys2Proof.Machine.execDescriptorFetch q desc err data derr s
  | .rxDelivery q descs err derr => Sys2Proof.Machine.execRxDelivery q descs err s derr
  | .completionWrite q err => Sys2Proof.Machine.execCompletionWrite q s err
  | .admin0Enable fn data => Sys2Proof.Machine.execAdmin0Enable fn data s
  | .createFunction f cmd err fails => Sys2Proof.Machine.execCreateFunction f cmd err fails s
  | .destroyFunction f cmd err => Sys2Proof.Machine.execDestroyFunction f cmd err s
  | .setQuota f cmd err => Sys2Proof.Machine.execSetQuota f cmd err s
  | .createQueue f cmd err => Sys2Proof.Machine.execCreateQueue f cmd err s
  | .destroyQueue f cmd err => Sys2Proof.Machine.execDestroyQueue f cmd err s
  | .queueDestroyComplete => Sys2Proof.Machine.execQueueDestroyComplete s
  | .bindPort f cmd err => Sys2Proof.Machine.execBindPort f cmd err s
  | .bindClass f cmd err => Sys2Proof.Machine.execBindClass f cmd err s
  | .query f cmd err => Sys2Proof.Machine.execQuery f cmd err s
  | .dmaStart fn n data => Sys2Proof.Machine.execDmaStart fn n data s
  | .dmaPause fn n data => Sys2Proof.Machine.execDmaPause fn n data s
  | .dmaResume fn n data => Sys2Proof.Machine.execDmaResume fn n data s
  | .dmaAbort fn n data => Sys2Proof.Machine.execDmaAbort fn n data s
  | .dmaLastWriteIssued n data => Sys2Proof.Machine.execDmaLastWriteIssued n data s
  | .dmaFenceDone n => Sys2Proof.Machine.execDmaFenceDone n s
  | .dmaDrainDone n k data => Sys2Proof.Machine.execDmaDrainDone n k data s
  | .dmaAccessError n cause addr => Sys2Proof.Machine.execDmaAccessError n cause addr s
  | .dmaListFetchReturn n entry err data => Sys2Proof.Machine.execDmaListFetchReturn n entry err data s
  | .dmaEndFetchReturn n word err data => Sys2Proof.Machine.execDmaEndFetchReturn n word err data s
  | .dmaLateWriteError n addr => Sys2Proof.Machine.execDmaLateWriteError n addr s
  | .dmaRecordWrite n err => Sys2Proof.Machine.execDmaRecordWrite n s err
  | .dmaCqHeadWrite fn data => Sys2Proof.Machine.execDmaCqHeadWrite fn data s
  | .bankEvacuate fn data => Sys2Proof.Machine.execBankEvacuate fn data s
  | .bankRelease fn data => Sys2Proof.Machine.execBankRelease fn data s
  | .evacuateDone => Sys2Proof.Machine.execEvacuateDone s
  | .memDbgWrite fn data => Sys2Proof.Machine.execMemDbgWrite fn data s
  | .memDbgRead fn => Sys2Proof.Machine.execMemDbgRead fn s
  | .migrationStart spill => Sys2Proof.Machine.execMigrationStart s spill
  | .migrationDone bad => Sys2Proof.Machine.execMigrationDone bad s
  | .pointingPassTimer => Sys2Proof.Machine.execPointingPassTimer s
  | .retestStart kind m addr unc key own written => Sys2Proof.Machine.execRetestStart kind m addr unc key s own written
  | .regionTestDone kind fail => Sys2Proof.Machine.execRegionTestDone kind fail s
  | .chkGo fn n data => Sys2Proof.Machine.execChkGo fn n data s
  | .chkAbort fn n data => Sys2Proof.Machine.execChkAbort fn n data s
  | .chkSealWrite fn data => Sys2Proof.Machine.execChkSealWrite fn data s
  | .chkScanData n bytes err => Sys2Proof.Machine.execChkScanData n bytes err s
  | .chkRunEnd n => Sys2Proof.Machine.execChkRunEnd n s
  | .chkStaleExpiry n restarts => Sys2Proof.Machine.execChkStaleExpiry n s restarts
  | .chkResultRead fn n => Sys2Proof.Machine.execChkResultRead fn n s
  | .irqOffer k => Sys2Proof.Machine.execIrqOffer k s
  | .vecAck k met => Sys2Proof.Machine.execVecAck k s met
  | .irqEoi fn k data => Sys2Proof.Machine.execIrqEoi fn k data s
  | .irqSetpendWrite fn w data => Sys2Proof.Machine.execIrqSetpendWrite fn w data s
  | .aonLatchTransfer => Sys2Proof.Machine.execAonLatchTransfer s
  | .powerTargetWrite fn d data => Sys2Proof.Machine.execPowerTargetWrite fn d data s
  | .sequencerStep => Sys2Proof.Machine.execSequencerStep s
  | .pswAckRise d => Sys2Proof.Machine.execPswAckRise d s
  | .pswAckTimeout d => Sys2Proof.Machine.execPswAckTimeout d s
  | .listenSample p energy => Sys2Proof.Machine.execListenSample p energy s
  | .listenWindowEnd p => Sys2Proof.Machine.execListenWindowEnd p s
  | .wakeEvent src index filter met => Sys2Proof.Machine.execWakeEvent src index filter s met
  | .wakeRequest fn data => Sys2Proof.Machine.execWakeRequest fn data s
  | .dicRead fn len => Sys2Proof.Machine.execDicRead fn len s
  | .dicWrite fn len => Sys2Proof.Machine.execDicWrite fn len s
  | .dicInfo fn len => Sys2Proof.Machine.execDicInfo fn len s
  | .dicCommit fn len => Sys2Proof.Machine.execDicCommit fn len s
  | .dicRestoreDefaults fn len => Sys2Proof.Machine.execDicRestoreDefaults fn len s
  | .dicDefine fn len => Sys2Proof.Machine.execDicDefine fn len s
  | .dicUndefine fn len => Sys2Proof.Machine.execDicUndefine fn len s
  | .dicTake fn len => Sys2Proof.Machine.execDicTake fn len s
  | .mailboxRequest => Sys2Proof.Machine.execMailboxRequest s
  | .mailboxFwdResponse => Sys2Proof.Machine.execMailboxFwdResponse s
  | .fwdTimeout => Sys2Proof.Machine.execFwdTimeout s
  | .autoCommitTimer => Sys2Proof.Machine.execAutoCommitTimer s
  | .storeCommitDone err late => Sys2Proof.Machine.execStoreCommitDone err late s
  | .storeRestoreDone => Sys2Proof.Machine.execStoreRestoreDone s
  | .watchdogExpiry => Sys2Proof.Machine.execWatchdogExpiry s
  | .watchdogKick fn data => Sys2Proof.Machine.execWatchdogKick fn data s
  | .faultClear fn data => Sys2Proof.Machine.execFaultClear fn data s
  | .fltLogRead fn n => Sys2Proof.Machine.execFltLogRead fn n s
  | .illegalInstruction e n slot busy ecc => Sys2Proof.Machine.execIllegalInstruction e n slot busy ecc s
  | .supplyCollapse step torn written => Sys2Proof.Machine.execSupplyCollapse step torn written s
  | .modeReqOtherTarget fn target clr meets => Sys2Proof.Machine.execModeReqOtherTarget fn target clr meets s
  | .adminBadOpcode f cmd err => Sys2Proof.Machine.execAdminBadOpcode f cmd err s
  | .dicUnknownOp fn op len => Sys2Proof.Machine.execDicUnknownOp fn op len s
  | .bankCmdUnknownOp fn data => Sys2Proof.Machine.execBankCmdUnknownOp fn data s

end Sys2Proof.Machine
end

