-- ==== Sys2Proof/Machine/Idle.lean ====
section
/-!
DEFINITION. One tick of 2 ns, which passes when no command waits: the time bases advance (03_time_and_cycles.md R67), the
threads' timers count (09_engine_threads.md R251), and what the queues do on their own account takes place. Every other event
in time is a command (notes/assumptions/4.md).
-/
namespace Sys2Proof.Machine

/-- Core cycles that end within tick `n`: 8 in every 5 ticks (800 MHz and 500 MHz, 01_block_and_halves.md R12).
DESIGN CHOICE, notes/assumptions/4.md. -/
def coreCycles (n : Nat) : Nat := 8 * (n + 1) / 5 - 8 * n / 5

/-- A thread's timer counts down; its expiry is the command THREAD_TIMER_EXPIRY (R251). DESIGN CHOICE, notes/assumptions/4.md. -/
def State.timerTick (s : State) (e n : Nat) : State :=
  let v := (s.rd (O.CE_THR_TIMER e n)).toNat
  if v ≤ 1 then s else s.wr (O.CE_THR_TIMER e n) (BitVec.ofNat 32 (max 1 (v - coreCycles s.ticks)))

/-- The timers of every engine whose cluster is ON: a cluster in RET holds its registers (R246). -/
def State.timersTick (s : State) : State :=
  forEach ((List.range s.cfg.engines).filter fun e => s.engineOn e) (fun e s => forEach (List.range 8) (fun n s => s.timerTick e n) s) s

/-- Functions whose use has fallen back within their quotas (11 R319), and host frames for which a thread's queue has room
again (11 R313). DESIGN CHOICE, notes/assumptions/4.md. -/
def State.queueTick (s : State) : State :=
  let s := forEach (s.funcs.filter fun f => f.2.above) (fun f s => s.quotaCheck f.1 false) s
  forEach (s.qps.filter fun q => !q.2.room.isEmpty) (fun q s => s.fillRoom q.2.thread) s

/-- One tick. DESIGN CHOICE, notes/assumptions/4.md. -/
def idleTick (s : State) : State :=
  let s := forEach s.halfList (fun h s => s.tick h) s
  let s := s.timersTick.queueTick
  s.setTicks (s.ticks + 1)

end Sys2Proof.Machine
end

