-- ==== Sys2Proof/Machine/Step.lean ====
section
/-!
DEFINITION. One step of the block: it takes the command at the front of the queue; on an empty queue one tick of 2 ns
passes (03_time_and_cycles.md R67; a model's choice, notes/assumptions/4.md).
-/
namespace Sys2Proof.Machine

/-- One step. -/
def step (s : State) : Host.Outcome State Fault Refusal :=
  match s.pending with
  | [] => .next (idleTick s)
  | c :: rest => exec c (s.setPending rest)

/-- `s` with the command that the word `w` spells put at the front of its queue; the opcode table gives no bits, so no
word spells one. DESIGN CHOICE, notes/assumptions/6.md. -/
def State.withFetchWord (s : State) (nbits w : Nat) : State :=
  match decodeTableWord nbits w with
  | some c => s.setPending (c :: s.pending)
  | none => s

end Sys2Proof.Machine
end

