-- ==== Sys2Proof/Safety.lean ====
section
/-!
DEFINITION. The terms in which claims are made: the invariant of every step, when a register is reachable through the
slave port, and what a command leaves unchanged.
-/
namespace Sys2Proof.Machine

/-- The register words are in canonical form: offsets rise, and no word is listed that holds its reset value. -/
def State.RegsOk (s : State) : Prop := KMap.wf (resetWord s.cfg) s.regs = true

/-- The memories with addresses are in canonical form: engine memories list no byte 0, and buffer words are listed by
rising address. -/
def Memory.wf (s : State) : Bool := KMap.wf (fun _ => (0 : Byte)) s.emem && KMap.rising s.mem.words

/-- What every step keeps: register words and memories in canonical form. -/
def State.Inv (s : State) : Prop := s.RegsOk ∧ Memory.wf s = true

/-- The pieces of State: one for each of its fields. -/
inductive Area where
  | cfg | pending | regs | stage | hold | slv | out | ticks | free | rst | req | halves | settle | tbs | pps |
  gens | trigs | frames | nextFrame | ports | taken | latches | doms | gasp | dic | flt | trunks | slots | node
  | pipes | graph | gload | cls | ems | threads | wheel | emem | splices | funcs | qps | binds | admin | mem |
  chks | dmas
deriving DecidableEq, Repr

/-- Whether the piece is the same in both states. -/
def Area.same (a : Area) (s t : State) : Prop :=
  match a with
  | .cfg => t.cfg = s.cfg
  | .pending => t.pending = s.pending
  | .regs => t.regs = s.regs
  | .stage => t.stage = s.stage
  | .hold => t.hold = s.hold
  | .slv => t.slv = s.slv
  | .out => t.out = s.out
  | .ticks => t.ticks = s.ticks
  | .free => t.free = s.free
  | .rst => t.rst = s.rst
  | .req => t.req = s.req
  | .halves => t.halves = s.halves
  | .settle => t.settle = s.settle
  | .tbs => t.tbs = s.tbs
  | .pps => t.pps = s.pps
  | .gens => t.gens = s.gens
  | .trigs => t.trigs = s.trigs
  | .frames => t.frames = s.frames
  | .nextFrame => t.nextFrame = s.nextFrame
  | .ports => t.ports = s.ports
  | .taken => t.taken = s.taken
  | .latches => t.latches = s.latches
  | .doms => t.doms = s.doms
  | .gasp => t.gasp = s.gasp
  | .dic => t.dic = s.dic
  | .flt => t.flt = s.flt
  | .trunks => t.trunks = s.trunks
  | .slots => t.slots = s.slots
  | .node => t.node = s.node
  | .pipes => t.pipes = s.pipes
  | .graph => t.graph = s.graph
  | .gload => t.gload = s.gload
  | .cls => t.cls = s.cls
  | .ems => t.ems = s.ems
  | .threads => t.threads = s.threads
  | .wheel => t.wheel = s.wheel
  | .emem => t.emem = s.emem
  | .splices => t.splices = s.splices
  | .funcs => t.funcs = s.funcs
  | .qps => t.qps = s.qps
  | .binds => t.binds = s.binds
  | .admin => t.admin = s.admin
  | .mem => t.mem = s.mem
  | .chks => t.chks = s.chks
  | .dmas => t.dmas = s.dmas

/-- `t` is `s` but for the pieces of the list. -/
def SameBut (l : List Area) (s t : State) : Prop := ∀ a, a ∉ l → a.same s t

/-- What a refused access may change: register words, the slave port's answer and the fault log (02_boundary_and_access.md
R44; 18_faults_and_selftest.md R416, R421). -/
def refusedAreas : List Area :=
  [.regs, .slv, .flt]

/-- The pieces of a slave-port command: `l` for function 0; another function is refused (R44). -/
def byFn (fn : Nat) (l : List Area) : List Area := if fn = 0 then l else refusedAreas

/-- The pieces of State that a command may change; it leaves every other piece as it is. -/
def touches (i : Instr) : List Area :=
  match i with
  | .blkRstNAssert _ => [.regs, .stage, .hold, .slv, .out, .rst, .req, .halves, .settle, .tbs, .pps, .gens, .trigs,
    .frames, .nextFrame, .ports, .taken, .gasp, .dic, .flt, .trunks, .slots, .node, .pipes, .graph, .gload, .cls,
    .ems, .threads, .wheel, .emem, .splices, .funcs, .qps, .binds, .admin, .mem, .chks, .dmas]
  | .blkRstNRelease => [.regs, .out, .free, .rst, .halves, .trigs, .flt, .trunks, .node, .gload, .cls, .funcs]
  | .halfResetAssert _ => [.regs, .stage, .hold, .out, .free, .rst, .halves, .tbs, .pps, .gens, .trigs, .frames,
    .ports, .gasp, .flt, .trunks, .slots, .node, .pipes, .gload, .cls, .threads, .wheel, .emem, .splices, .funcs,
    .qps, .mem, .dmas]
  | .halfResetRelease _ => [.regs, .out, .rst, .halves, .tbs, .gens, .trigs, .trunks, .node, .cls]
  | .safeRstNAssert _ => [.regs, .stage, .hold, .rst, .chks]
  | .aonPowerOn => [.regs, .stage, .hold, .slv, .free, .rst, .req, .halves, .settle, .tbs, .pps, .gens, .trigs,
    .frames, .nextFrame, .ports, .taken, .latches, .doms, .gasp, .dic, .flt, .trunks, .slots, .node, .pipes, .graph,
    .gload, .cls, .ems, .threads, .wheel, .emem, .splices, .funcs, .qps, .binds, .admin, .mem, .chks, .dmas]
  | .modeReqConfig fn _ _ => byFn fn [.regs, .stage, .hold, .slv, .out, .free, .req, .trigs, .frames, .ports, .doms,
    .flt, .trunks, .node, .pipes, .gload, .cls, .emem, .funcs, .qps, .binds, .admin, .mem, .dmas]
  | .modeReqIntegrate fn _ _ => byFn fn [.regs, .stage, .hold, .slv, .out, .free, .req, .trigs, .frames, .ports,
    .doms, .flt, .trunks, .node, .pipes, .gload, .cls, .emem, .funcs, .qps, .binds, .admin, .mem, .dmas]
  | .modeReqSafehold fn _ _ => byFn fn [.regs, .stage, .hold, .slv, .out, .free, .req, .trigs, .frames, .ports,
    .doms, .flt, .trunks, .node, .pipes, .gload, .cls, .emem, .funcs, .qps, .binds, .admin, .mem, .dmas]
  | .modeReqDormant fn _ _ => byFn fn [.regs, .stage, .hold, .slv, .out, .free, .req, .trigs, .frames, .ports,
    .doms, .flt, .trunks, .node, .pipes, .gload, .cls, .emem, .funcs, .qps, .binds, .admin, .mem, .dmas]
  | .modeReqPendingCheck => [.regs, .stage, .hold, .out, .free, .req, .trigs, .frames, .ports, .doms, .flt, .trunks,
    .node, .pipes, .gload, .cls, .emem, .funcs, .qps, .binds, .admin, .mem, .dmas]
  | .bistDone _ => [.regs, .mem]
  | .enterOperate => [.regs, .out, .free, .trigs, .flt, .trunks, .node, .gload, .cls, .funcs]
  | .heartbeatSend _ => [.halves]
  | .heartbeatReceive _ _ => [.regs, .out, .free, .halves, .settle, .tbs, .gens, .trigs, .frames, .ports, .flt,
    .trunks, .node, .pipes, .gload, .cls, .emem, .funcs, .qps, .mem]
  | .linkGlitch _ _ => [.regs, .halves]
  | .halfLinkLoss _ => [.regs, .out, .free, .halves, .settle, .tbs, .trigs, .frames, .ports, .flt, .trunks, .node,
    .pipes, .gload, .cls, .emem, .funcs, .qps, .mem, .dmas]
  | .leaderSettlement => [.regs, .out, .free, .halves, .settle, .tbs, .trigs, .frames, .ports, .flt, .trunks, .node,
    .pipes, .gload, .cls, .emem, .funcs, .qps, .mem, .dmas]
  | .stateCopyDone _ => [.regs, .out, .free, .halves, .tbs, .pps, .gens, .trigs, .flt, .trunks, .node, .gload, .cls,
    .funcs]
  | .tableCopyDone _ => [.regs, .out, .free, .halves, .trigs, .flt, .trunks, .node, .graph, .gload, .cls, .ems,
    .funcs]
  | .spineLinkLoss _ => [.regs, .out, .free, .halves, .tbs, .trigs, .frames, .ports, .flt, .trunks, .node, .pipes,
    .gload, .cls, .threads, .emem, .funcs, .qps, .mem, .dmas]
  | .registerWrite _ _ _ _ => [.regs, .stage, .hold, .slv, .out, .free, .req, .halves, .settle, .tbs, .pps, .gens,
    .trigs, .frames, .ports, .taken, .latches, .doms, .gasp, .dic, .flt, .trunks, .slots, .node, .pipes, .graph,
    .gload, .cls, .ems, .threads, .wheel, .emem, .splices, .funcs, .qps, .binds, .admin, .mem, .chks, .dmas]
  | .readTimeout _ => [.slv]
  | .counterLatchRead _ _ _ => [.regs, .hold, .slv, .out, .free, .trigs, .frames, .ports, .flt, .trunks, .node,
    .pipes, .gload, .cls, .emem, .funcs, .qps, .mem, .dmas]
  | .pwrFailWarn => [.regs, .out, .free, .trigs, .ports, .latches, .gasp, .dic, .flt, .trunks, .node, .gload, .cls,
    .funcs]
  | .captureEdge _ _ _ => [.regs]
  | .syncInEdge _ => [.regs, .gens]
  | .syncMissLimit _ => [.regs]
  | .clockLoss _ _ _ => [.regs, .out, .free, .trigs, .frames, .ports, .flt, .trunks, .node, .pipes, .gload, .cls,
    .emem, .funcs, .qps, .mem, .dmas]
  | .clockReturn _ _ _ => [.regs, .out, .free, .trigs, .ports, .flt, .trunks, .node, .gload, .cls, .funcs]
  | .tbSetWrite fn _ _ => byFn fn [.regs, .stage, .slv, .tbs, .pps, .gens]
  | .tbStepWrite fn _ _ _ _ _ => byFn fn [.regs, .stage, .slv, .tbs, .pps, .gens, .trunks]
  | .tbRateWrite fn _ _ => byFn fn [.regs, .slv, .tbs]
  | .followerTimeApply => [.regs, .tbs, .pps, .gens]
  | .snapshotLatch fn _ _ => byFn fn [.regs, .slv, .tbs]
  | .tbSnapNsRead fn _ => byFn fn [.regs, .slv]
  | .ppsPulseStart => [.out, .pps]
  | .ppsPulseEnd => [.out, .pps]
  | .generatorEnable fn _ _ => byFn fn [.regs, .stage, .slv, .out, .tbs, .gens, .trigs]
  | .generatorDisable fn _ _ => byFn fn [.regs, .stage, .slv, .out, .tbs, .gens, .trigs]
  | .cycleBoundary _ => [.regs, .out, .gens, .trigs]
  | .triggerConfigWrite fn _ _ _ => byFn fn [.regs, .stage, .slv, .out, .tbs, .trigs, .dic]
  | .triggerRise _ => [.regs, .out, .trigs]
  | .triggerFall _ => [.out, .trigs]
  | .captureTsRead fn _ => byFn fn [.hold, .slv]
  | .tbClockLoss _ => [.regs, .out, .free, .tbs, .trigs, .frames, .ports, .flt, .trunks, .node, .pipes, .gload,
    .cls, .emem, .funcs, .qps, .mem, .dmas]
  | .tbTicksResume _ => [.regs, .stage, .slv, .out, .tbs, .pps, .gens, .trigs, .dic, .trunks]
  | .frameReceive _ _ _ _ _ _ => [.regs, .free, .frames, .nextFrame, .ports, .latches, .doms, .pipes, .threads,
    .emem, .qps, .mem]
  | .byteTrigger _ _ _ => [.regs, .threads]
  | .cutThroughStart _ _ _ => [.regs, .out, .frames, .ports, .emem, .funcs, .qps, .mem]
  | .macCtlWrite fn _ _ => byFn fn [.regs, .stage, .slv, .out, .ports, .trunks, .node]
  | .pauseFrameReceive _ _ _ _ => [.regs]
  | .pauseTimerExpiry _ _ => [.regs]
  | .pauseRepeat _ _ => [.ports]
  | .collision _ _ => [.regs, .out, .frames, .ports, .gasp, .trunks, .node, .cls, .emem, .qps, .mem]
  | .backoffExpiry _ => [.ports]
  | .verifyResponse _ => [.regs]
  | .verifyTimeout _ => [.regs, .out, .ports]
  | .frameTransmitStart _ _ _ _ => [.regs, .out, .frames, .ports, .emem, .funcs, .qps, .mem]
  | .frameTransmitEnd _ => [.regs, .out, .frames, .ports, .gasp, .trunks, .node, .cls, .emem, .qps, .mem]
  | .gateEntryExpiry _ => [.regs, .ports]
  | .gateListWrite fn _ _ _ _ _ _ => byFn fn [.regs, .stage, .slv, .ports, .trunks, .node]
  | .editQueued _ _ => [.regs, .frames, .ports, .emem]
  | .editLate _ _ => [.regs, .frames, .ports, .emem]
  | .counterClear fn _ => byFn fn [.regs, .slv]
  | .trkCfgWrite fn _ _ => byFn fn [.regs, .stage, .slv, .out, .free, .trigs, .flt, .trunks, .node, .gload, .cls,
    .funcs]
  | .pmaLockChange _ _ => [.regs, .out, .free, .trigs, .flt, .trunks, .node, .gload, .cls, .funcs]
  | .cellReceive _ _ _ _ => [.regs, .out, .free, .trigs, .frames, .nextFrame, .ports, .flt, .trunks, .node, .pipes,
    .gload, .cls, .funcs, .mem]
  | .linkFaultReceive _ _ => [.regs, .out, .free, .trigs, .frames, .ports, .flt, .trunks, .node, .pipes, .gload,
    .cls, .emem, .funcs, .qps, .mem, .dmas]
  | .cellSlot _ _ => [.regs, .out, .frames, .ports, .trunks, .emem, .qps, .mem]
  | .superframeInstant _ => [.regs, .halves, .ports, .trunks, .node]
  | .superframeTimeout _ => [.regs, .trunks]
  | .overheadCellReceive _ => [.regs, .out, .free, .halves, .tbs, .pps, .gens, .trigs, .flt, .trunks, .node, .gload,
    .cls, .funcs]
  | .urgentCellReceive _ => [.regs, .out, .free, .trigs, .flt, .trunks, .node, .gload, .cls, .funcs]
  | .listenTimerExpiry => [.regs, .node]
  | .coldsendComplete => [.regs, .out, .trigs]
  | .sourceLossTimeout => [.regs, .trunks, .node]
  | .trkSlotDataWrite fn _ _ => byFn fn [.regs, .slv, .slots]
  | .trkSlotDataRead fn _ => byFn fn [.regs, .slv]
  | .gearValidWrite fn _ _ => byFn fn [.regs, .stage, .slv, .trunks, .node]
  | .shiftRequest fn _ => byFn fn [.regs, .stage, .slv, .trunks, .node]
  | .forcedSwitch fn _ => byFn fn [.regs, .slv, .out, .free, .trigs, .flt, .trunks, .node, .gload, .cls, .funcs]
  | .manualSwitch fn _ => byFn fn [.regs, .slv, .out, .free, .trigs, .flt, .trunks, .node, .gload, .cls, .funcs]
  | .lockout fn _ => byFn fn [.regs, .slv, .out, .free, .trigs, .flt, .trunks, .node, .gload, .cls, .funcs]
  | .clearCommand fn _ => byFn fn [.regs, .slv, .out, .free, .trigs, .flt, .trunks, .node, .gload, .cls, .funcs]
  | .signalFailLocal _ => [.regs, .out, .free, .trigs, .flt, .trunks, .node, .gload, .cls, .funcs]
  | .sdWindowEnd _ => [.regs, .out, .free, .trigs, .flt, .trunks, .node, .gload, .cls, .funcs]
  | .wtrExpiry => [.regs, .out, .free, .trigs, .flt, .trunks, .node, .gload, .cls, .funcs]
  | .parseEntry _ => [.regs, .frames, .pipes]
  | .parseStep _ _ => [.regs, .frames, .pipes]
  | .graphLoad fn _ => byFn fn [.regs, .stage, .slv, .out, .gload]
  | .graphLoadDone _ _ => [.regs, .out, .graph, .gload]
  | .traceArm fn _ _ => byFn fn [.regs, .stage, .slv]
  | .prsNodeDataRead fn _ => byFn fn [.regs, .slv]
  | .classify _ _ => [.regs, .free, .frames, .ports, .pipes, .cls, .ems, .threads, .emem, .qps, .mem]
  | .stageOpen fn => byFn fn [.regs, .slv, .cls]
  | .stageOpenEmpty fn => byFn fn [.regs, .slv, .cls]
  | .stageAbandon fn => byFn fn [.regs, .slv, .cls]
  | .stageOpenDone => [.regs, .cls]
  | .tcamWrite fn => byFn fn [.regs, .slv, .cls]
  | .tcamAdd fn => byFn fn [.regs, .slv, .cls]
  | .tcamDel fn => byFn fn [.regs, .slv, .cls]
  | .tcamRead fn => byFn fn [.regs, .slv, .cls]
  | .commitRequest fn _ => byFn fn [.regs, .stage, .slv, .cls]
  | .commitComplete _ => [.regs, .halves, .cls]
  | .courseRetire _ => [.regs, .cls]
  | .emInsertFlow fn _ => byFn fn [.regs, .stage, .slv, .cls]
  | .emInsertFwd fn _ => byFn fn [.regs, .stage, .slv, .cls]
  | .emDelete fn _ => byFn fn [.regs, .stage, .slv, .cls]
  | .emRead fn _ => byFn fn [.regs, .stage, .slv, .cls]
  | .emCommandDone _ => [.regs, .cls, .ems]
  | .emCfgWrite fn _ => byFn fn [.regs, .stage, .slv, .cls, .ems, .mem]
  | .learnUpdate _ => [.regs, .cls, .ems]
  | .agerVisit _ _ => [.regs, .ems]
  | .ageRemoval _ _ => [.regs, .cls, .ems]
  | .flushRequest fn _ => byFn fn [.regs, .stage, .slv, .cls]
  | .flushSweepDone => [.regs, .ems]
  | .recoveryResetTimeout _ _ => [.cls]
  | .threadRelease fn _ _ _ _ => byFn fn [.regs, .slv]
  | .threadHalt fn _ _ _ => byFn fn [.regs, .slv]
  | .runSet fn _ _ _ => byFn fn [.regs, .stage, .slv]
  | .runClear fn _ _ => byFn fn [.regs, .stage, .slv]
  | .eventWaitComplete _ _ => [.regs]
  | .threadTimerExpiry _ _ => [.regs]
  | .hostEvent fn _ _ => byFn fn [.regs, .slv]
  | .spliceFetchDone => [.regs, .frames, .ports, .emem, .splices]
  | .aluAdd _ _ _ _ _ => [.regs, .out, .free, .trigs, .frames, .ports, .flt, .trunks, .node, .pipes, .gload, .cls,
    .threads, .wheel, .emem, .funcs, .qps, .mem, .dmas]
  | .aluSub _ _ _ _ _ => [.regs, .out, .free, .trigs, .frames, .ports, .flt, .trunks, .node, .pipes, .gload, .cls,
    .threads, .wheel, .emem, .funcs, .qps, .mem, .dmas]
  | .aluAnd _ _ _ _ _ => [.regs, .out, .free, .trigs, .frames, .ports, .flt, .trunks, .node, .pipes, .gload, .cls,
    .threads, .wheel, .emem, .funcs, .qps, .mem, .dmas]
  | .aluOr _ _ _ _ _ => [.regs, .out, .free, .trigs, .frames, .ports, .flt, .trunks, .node, .pipes, .gload, .cls,
    .threads, .wheel, .emem, .funcs, .qps, .mem, .dmas]
  | .aluXor _ _ _ _ _ => [.regs, .out, .free, .trigs, .frames, .ports, .flt, .trunks, .node, .pipes, .gload, .cls,
    .threads, .wheel, .emem, .funcs, .qps, .mem, .dmas]
  | .aluAndn _ _ _ _ _ => [.regs, .out, .free, .trigs, .frames, .ports, .flt, .trunks, .node, .pipes, .gload, .cls,
    .threads, .wheel, .emem, .funcs, .qps, .mem, .dmas]
  | .aluShl _ _ _ _ _ => [.regs, .out, .free, .trigs, .frames, .ports, .flt, .trunks, .node, .pipes, .gload, .cls,
    .threads, .wheel, .emem, .funcs, .qps, .mem, .dmas]
  | .aluShr _ _ _ _ _ => [.regs, .out, .free, .trigs, .frames, .ports, .flt, .trunks, .node, .pipes, .gload, .cls,
    .threads, .wheel, .emem, .funcs, .qps, .mem, .dmas]
  | .aluSar _ _ _ _ _ => [.regs, .out, .free, .trigs, .frames, .ports, .flt, .trunks, .node, .pipes, .gload, .cls,
    .threads, .wheel, .emem, .funcs, .qps, .mem, .dmas]
  | .aluMul _ _ _ _ _ => [.regs, .out, .free, .trigs, .frames, .ports, .flt, .trunks, .node, .pipes, .gload, .cls,
    .threads, .wheel, .emem, .funcs, .qps, .mem, .dmas]
  | .aluMin _ _ _ _ _ => [.regs, .out, .free, .trigs, .frames, .ports, .flt, .trunks, .node, .pipes, .gload, .cls,
    .threads, .wheel, .emem, .funcs, .qps, .mem, .dmas]
  | .aluMax _ _ _ _ _ => [.regs, .out, .free, .trigs, .frames, .ports, .flt, .trunks, .node, .pipes, .gload, .cls,
    .threads, .wheel, .emem, .funcs, .qps, .mem, .dmas]
  | .aluMinu _ _ _ _ _ => [.regs, .out, .free, .trigs, .frames, .ports, .flt, .trunks, .node, .pipes, .gload, .cls,
    .threads, .wheel, .emem, .funcs, .qps, .mem, .dmas]
  | .aluMaxu _ _ _ _ _ => [.regs, .out, .free, .trigs, .frames, .ports, .flt, .trunks, .node, .pipes, .gload, .cls,
    .threads, .wheel, .emem, .funcs, .qps, .mem, .dmas]
  | .addi _ _ _ _ _ => [.regs, .out, .free, .trigs, .frames, .ports, .flt, .trunks, .node, .pipes, .gload, .cls,
    .wheel, .emem, .funcs, .qps, .mem, .dmas]
  | .andi _ _ _ _ _ => [.regs, .out, .free, .trigs, .frames, .ports, .flt, .trunks, .node, .pipes, .gload, .cls,
    .wheel, .emem, .funcs, .qps, .mem, .dmas]
  | .ori _ _ _ _ _ => [.regs, .out, .free, .trigs, .frames, .ports, .flt, .trunks, .node, .pipes, .gload, .cls,
    .wheel, .emem, .funcs, .qps, .mem, .dmas]
  | .xori _ _ _ _ _ => [.regs, .out, .free, .trigs, .frames, .ports, .flt, .trunks, .node, .pipes, .gload, .cls,
    .wheel, .emem, .funcs, .qps, .mem, .dmas]
  | .shiShl _ _ _ _ _ => [.regs, .out, .free, .trigs, .frames, .ports, .flt, .trunks, .node, .pipes, .gload, .cls,
    .wheel, .emem, .funcs, .qps, .mem, .dmas]
  | .shiShr _ _ _ _ _ => [.regs, .out, .free, .trigs, .frames, .ports, .flt, .trunks, .node, .pipes, .gload, .cls,
    .wheel, .emem, .funcs, .qps, .mem, .dmas]
  | .shiSar _ _ _ _ _ => [.regs, .out, .free, .trigs, .frames, .ports, .flt, .trunks, .node, .pipes, .gload, .cls,
    .wheel, .emem, .funcs, .qps, .mem, .dmas]
  | .shiRor _ _ _ _ _ => [.regs, .out, .free, .trigs, .frames, .ports, .flt, .trunks, .node, .pipes, .gload, .cls,
    .wheel, .emem, .funcs, .qps, .mem, .dmas]
  | .lui _ _ _ _ _ => [.regs, .out, .free, .trigs, .frames, .ports, .flt, .trunks, .node, .pipes, .gload, .cls,
    .wheel, .emem, .funcs, .qps, .mem, .dmas]
  | .ext _ _ _ _ _ => [.regs, .out, .free, .trigs, .frames, .ports, .flt, .trunks, .node, .pipes, .gload, .cls,
    .wheel, .emem, .funcs, .qps, .mem, .dmas]
  | .ins _ _ _ _ _ => [.regs, .out, .free, .trigs, .frames, .ports, .flt, .trunks, .node, .pipes, .gload, .cls,
    .wheel, .emem, .funcs, .qps, .mem, .dmas]
  | .cmp _ _ _ _ _ => [.regs, .out, .free, .trigs, .frames, .ports, .flt, .trunks, .node, .pipes, .gload, .cls,
    .threads, .wheel, .emem, .funcs, .qps, .mem, .dmas]
  | .cmpi _ _ _ _ _ => [.regs, .out, .free, .trigs, .frames, .ports, .flt, .trunks, .node, .pipes, .gload, .cls,
    .threads, .wheel, .emem, .funcs, .qps, .mem, .dmas]
  | .b _ _ _ _ _ => [.regs, .out, .free, .trigs, .frames, .ports, .flt, .trunks, .node, .pipes, .gload, .cls,
    .wheel, .emem, .funcs, .qps, .mem, .dmas]
  | .jal _ _ _ _ _ => [.regs, .out, .free, .trigs, .frames, .ports, .flt, .trunks, .node, .pipes, .gload, .cls,
    .wheel, .emem, .funcs, .qps, .mem, .dmas]
  | .jalr _ _ _ _ _ => [.regs, .out, .free, .trigs, .frames, .ports, .flt, .trunks, .node, .pipes, .gload, .cls,
    .wheel, .emem, .funcs, .qps, .mem, .dmas]
  | .ld _ _ _ _ _ => [.regs, .out, .free, .trigs, .frames, .ports, .flt, .trunks, .node, .pipes, .gload, .cls,
    .wheel, .emem, .funcs, .qps, .mem, .dmas]
  | .st _ _ _ _ _ => [.regs, .out, .free, .trigs, .frames, .ports, .flt, .trunks, .node, .pipes, .gload, .cls,
    .wheel, .emem, .funcs, .qps, .mem, .dmas]
  | .fld _ _ _ _ _ => [.regs, .out, .free, .trigs, .frames, .ports, .flt, .trunks, .node, .pipes, .gload, .cls,
    .threads, .wheel, .emem, .funcs, .qps, .mem, .dmas]
  | .fst _ _ _ _ _ => [.regs, .out, .free, .trigs, .frames, .ports, .flt, .trunks, .node, .pipes, .gload, .cls,
    .threads, .wheel, .emem, .funcs, .qps, .mem, .dmas]
  | .frmTake _ _ _ _ _ => [.regs, .out, .free, .trigs, .frames, .ports, .flt, .trunks, .node, .pipes, .gload, .cls,
    .threads, .wheel, .emem, .funcs, .qps, .mem, .dmas]
  | .frmDisp _ _ _ _ _ => [.regs, .out, .free, .trigs, .frames, .ports, .flt, .trunks, .node, .pipes, .gload, .cls,
    .ems, .threads, .wheel, .emem, .funcs, .qps, .mem, .dmas]
  | .frmFree _ _ _ _ _ => [.regs, .out, .free, .trigs, .frames, .ports, .flt, .trunks, .node, .pipes, .gload, .cls,
    .ems, .threads, .wheel, .emem, .funcs, .qps, .mem, .dmas]
  | .frmTrigArm _ _ _ _ _ => [.regs, .out, .free, .trigs, .frames, .ports, .flt, .trunks, .node, .pipes, .gload,
    .cls, .threads, .wheel, .emem, .funcs, .qps, .mem, .dmas]
  | .frmTrigDisarm _ _ _ _ _ => [.regs, .out, .free, .trigs, .frames, .ports, .flt, .trunks, .node, .pipes, .gload,
    .cls, .threads, .wheel, .emem, .funcs, .qps, .mem, .dmas]
  | .frmFinfo _ _ _ _ _ => [.regs, .out, .free, .trigs, .frames, .ports, .flt, .trunks, .node, .pipes, .gload, .cls,
    .wheel, .emem, .funcs, .qps, .mem, .dmas]
  | .spl _ _ _ _ _ => [.regs, .out, .free, .trigs, .frames, .ports, .flt, .trunks, .node, .pipes, .gload, .cls,
    .wheel, .emem, .splices, .funcs, .qps, .mem, .dmas]
  | .mfs _ _ _ _ _ => [.regs, .out, .free, .trigs, .frames, .ports, .flt, .trunks, .node, .pipes, .gload, .cls,
    .wheel, .emem, .funcs, .qps, .mem, .dmas]
  | .mts _ _ _ _ _ => [.regs, .out, .free, .trigs, .frames, .ports, .flt, .trunks, .node, .pipes, .gload, .cls,
    .threads, .wheel, .emem, .funcs, .qps, .mem, .dmas]
  | .wait _ _ _ _ _ => [.regs, .out, .free, .trigs, .frames, .ports, .flt, .trunks, .node, .pipes, .gload, .cls,
    .threads, .wheel, .emem, .funcs, .qps, .mem, .dmas]
  | .sig _ _ _ _ _ => [.regs, .out, .free, .trigs, .frames, .ports, .flt, .trunks, .node, .pipes, .gload, .cls,
    .threads, .wheel, .emem, .funcs, .qps, .mem, .dmas]
  | .time _ _ _ _ _ => [.regs, .out, .free, .trigs, .frames, .ports, .flt, .trunks, .node, .pipes, .gload, .cls,
    .wheel, .emem, .funcs, .qps, .mem, .dmas]
  | .amoSwap _ _ _ _ _ => [.regs, .out, .free, .trigs, .frames, .ports, .flt, .trunks, .node, .pipes, .gload, .cls,
    .wheel, .emem, .funcs, .qps, .mem, .dmas]
  | .amoAdd _ _ _ _ _ => [.regs, .out, .free, .trigs, .frames, .ports, .flt, .trunks, .node, .pipes, .gload, .cls,
    .wheel, .emem, .funcs, .qps, .mem, .dmas]
  | .amoAnd _ _ _ _ _ => [.regs, .out, .free, .trigs, .frames, .ports, .flt, .trunks, .node, .pipes, .gload, .cls,
    .wheel, .emem, .funcs, .qps, .mem, .dmas]
  | .amoOr _ _ _ _ _ => [.regs, .out, .free, .trigs, .frames, .ports, .flt, .trunks, .node, .pipes, .gload, .cls,
    .wheel, .emem, .funcs, .qps, .mem, .dmas]
  | .amoXor _ _ _ _ _ => [.regs, .out, .free, .trigs, .frames, .ports, .flt, .trunks, .node, .pipes, .gload, .cls,
    .wheel, .emem, .funcs, .qps, .mem, .dmas]
  | .amoCas _ _ _ _ _ => [.regs, .out, .free, .trigs, .frames, .ports, .flt, .trunks, .node, .pipes, .gload, .cls,
    .wheel, .emem, .funcs, .qps, .mem, .dmas]
  | .crc _ _ _ _ _ => [.regs, .out, .free, .trigs, .frames, .ports, .flt, .trunks, .node, .pipes, .gload, .cls,
    .wheel, .emem, .funcs, .qps, .mem, .dmas]
  | .chkf _ _ _ _ _ => [.regs, .out, .free, .trigs, .frames, .ports, .flt, .trunks, .node, .pipes, .gload, .cls,
    .threads, .wheel, .emem, .funcs, .qps, .mem, .chks, .dmas]
  | .thcTpc _ _ _ _ _ => [.regs, .out, .free, .trigs, .frames, .ports, .flt, .trunks, .node, .pipes, .gload, .cls,
    .threads, .wheel, .emem, .funcs, .qps, .mem, .dmas]
  | .thcTslc _ _ _ _ _ => [.regs, .out, .free, .trigs, .frames, .ports, .flt, .trunks, .node, .pipes, .gload, .cls,
    .threads, .wheel, .emem, .funcs, .qps, .mem, .dmas]
  | .thcTgw _ _ _ _ _ => [.regs, .out, .free, .trigs, .frames, .ports, .flt, .trunks, .node, .pipes, .gload, .cls,
    .threads, .wheel, .emem, .funcs, .qps, .mem, .dmas]
  | .thcTgr _ _ _ _ _ => [.regs, .out, .free, .trigs, .frames, .ports, .flt, .trunks, .node, .pipes, .gload, .cls,
    .threads, .wheel, .emem, .funcs, .qps, .mem, .dmas]
  | .thcTrel _ _ _ _ _ _ => [.regs, .out, .free, .trigs, .frames, .ports, .flt, .trunks, .node, .pipes, .gload,
    .cls, .threads, .wheel, .emem, .funcs, .qps, .mem, .dmas]
  | .thcThlt _ _ _ _ _ => [.regs, .out, .free, .trigs, .frames, .ports, .flt, .trunks, .node, .pipes, .gload, .cls,
    .threads, .wheel, .emem, .funcs, .qps, .mem, .dmas]
  | .thcTst _ _ _ _ _ => [.regs, .out, .free, .trigs, .frames, .ports, .flt, .trunks, .node, .pipes, .gload, .cls,
    .threads, .wheel, .emem, .funcs, .qps, .mem, .dmas]
  | .doorbellTx _ _ _ => [.regs, .slv, .out, .free, .trigs, .frames, .ports, .flt, .trunks, .node, .pipes, .gload,
    .cls, .emem, .funcs, .qps, .mem, .dmas]
  | .doorbellRx _ _ _ => [.regs, .slv, .out, .free, .trigs, .frames, .ports, .flt, .trunks, .node, .pipes, .gload,
    .cls, .emem, .funcs, .qps, .mem, .dmas]
  | .doorbellCq _ _ _ => [.regs, .slv, .out, .free, .trigs, .frames, .ports, .flt, .trunks, .node, .pipes, .gload,
    .cls, .emem, .funcs, .qps, .mem, .dmas]
  | .pushSlotWrite _ _ _ _ _ => [.regs, .slv, .out, .free, .trigs, .frames, .ports, .flt, .trunks, .node, .pipes,
    .gload, .cls, .emem, .funcs, .qps, .mem, .dmas]
  | .descriptorFetch _ _ _ _ _ => [.regs, .out, .free, .frames, .nextFrame, .ports, .cls, .ems, .threads, .emem,
    .funcs, .qps, .mem]
  | .rxDelivery _ _ _ _ => [.regs, .out, .free, .frames, .ports, .funcs, .qps, .mem]
  | .completionWrite _ _ => [.regs, .out, .qps]
  | .admin0Enable fn _ => byFn fn [.regs, .slv, .qps]
  | .createFunction _ _ _ _ => [.regs, .out, .free, .trigs, .frames, .ports, .flt, .trunks, .node, .pipes, .gload,
    .cls, .emem, .funcs, .qps, .admin, .mem, .dmas]
  | .destroyFunction _ _ _ => [.regs, .out, .frames, .ports, .emem, .funcs, .qps, .admin, .mem]
  | .setQuota _ _ _ => [.regs, .out, .funcs, .qps, .admin]
  | .createQueue _ _ _ => [.regs, .out, .qps, .admin]
  | .destroyQueue _ _ _ => [.regs, .out, .frames, .ports, .emem, .qps, .admin, .mem]
  | .queueDestroyComplete => [.regs, .frames, .ports, .funcs, .qps, .binds, .admin, .mem]
  | .bindPort _ _ _ => [.regs, .out, .qps, .admin]
  | .bindClass _ _ _ => [.regs, .out, .qps, .binds, .admin]
  | .query _ _ _ => [.regs, .out, .qps, .admin]
  | .dmaStart fn _ _ => byFn fn [.regs, .stage, .slv, .dmas]
  | .dmaPause fn _ _ => byFn fn [.regs, .stage, .slv, .dmas]
  | .dmaResume fn _ _ => byFn fn [.regs, .stage, .slv, .dmas]
  | .dmaAbort fn _ _ => byFn fn [.regs, .stage, .slv, .dmas]
  | .dmaLastWriteIssued _ _ => [.regs, .out, .free, .emem, .dmas]
  | .dmaFenceDone _ => [.regs, .dmas]
  | .dmaDrainDone _ _ _ => [.regs, .out, .free, .emem, .dmas]
  | .dmaAccessError _ _ _ => [.regs, .dmas]
  | .dmaListFetchReturn _ _ _ _ => [.regs, .out, .free, .emem, .dmas]
  | .dmaEndFetchReturn _ _ _ _ => [.regs, .out, .free, .emem, .dmas]
  | .dmaLateWriteError _ _ => [.regs, .out, .free, .trigs, .frames, .ports, .flt, .trunks, .node, .pipes, .gload,
    .cls, .emem, .funcs, .qps, .mem, .dmas]
  | .dmaRecordWrite _ _ => [.regs, .out, .free, .trigs, .frames, .ports, .flt, .trunks, .node, .pipes, .gload, .cls,
    .emem, .funcs, .qps, .mem, .dmas]
  | .dmaCqHeadWrite fn _ => byFn fn [.regs, .slv]
  | .bankEvacuate fn _ => byFn fn [.regs, .stage, .slv, .mem]
  | .bankRelease fn _ => byFn fn [.regs, .stage, .slv, .mem]
  | .evacuateDone => [.regs, .mem]
  | .memDbgWrite fn _ => byFn fn [.regs, .stage, .slv, .frames, .mem]
  | .memDbgRead fn => byFn fn [.regs, .hold, .slv, .free, .mem]
  | .migrationStart _ => [.regs, .out, .free, .trigs, .frames, .ports, .flt, .trunks, .node, .pipes, .gload, .cls,
    .emem, .funcs, .qps, .mem, .dmas]
  | .migrationDone _ => [.regs, .out, .free, .trigs, .frames, .ports, .flt, .trunks, .node, .pipes, .gload, .cls,
    .ems, .emem, .funcs, .qps, .mem, .dmas]
  | .pointingPassTimer => [.regs, .mem]
  | .retestStart _ _ _ _ _ _ _ => [.regs, .out, .free, .trigs, .frames, .ports, .flt, .trunks, .node, .pipes,
    .gload, .cls, .ems, .emem, .funcs, .qps, .mem, .dmas]
  | .regionTestDone _ _ => [.regs, .out, .free, .trigs, .frames, .ports, .flt, .trunks, .node, .pipes, .gload, .cls,
    .emem, .funcs, .qps, .mem, .dmas]
  | .chkGo fn _ _ => byFn fn [.regs, .stage, .slv, .emem, .chks]
  | .chkAbort fn _ _ => byFn fn [.regs, .stage, .slv, .emem, .chks]
  | .chkSealWrite fn _ => byFn fn [.regs, .slv]
  | .chkScanData _ _ _ => [.regs, .out, .emem, .chks]
  | .chkRunEnd _ => [.regs, .emem, .chks]
  | .chkStaleExpiry _ _ => [.regs, .emem, .chks]
  | .chkResultRead fn _ => byFn fn [.hold, .slv]
  | .irqOffer _ => [.regs, .out]
  | .vecAck _ _ => [.regs, .out, .taken]
  | .irqEoi fn _ _ => byFn fn [.regs, .slv, .taken]
  | .irqSetpendWrite fn _ _ => byFn fn [.regs, .slv]
  | .aonLatchTransfer => [.regs, .latches]
  | .powerTargetWrite fn _ _ => byFn fn [.regs, .stage, .hold, .slv, .out, .req, .halves, .settle, .tbs, .pps,
    .gens, .trigs, .frames, .ports, .taken, .doms, .gasp, .dic, .flt, .trunks, .slots, .node, .pipes, .graph,
    .gload, .cls, .ems, .threads, .wheel, .emem, .splices, .funcs, .qps, .binds, .admin, .mem, .chks, .dmas]
  | .sequencerStep => [.regs, .stage, .hold, .out, .free, .req, .halves, .settle, .tbs, .pps, .gens, .trigs,
    .frames, .ports, .taken, .latches, .doms, .gasp, .dic, .flt, .trunks, .slots, .node, .pipes, .graph, .gload,
    .cls, .ems, .threads, .wheel, .emem, .splices, .funcs, .qps, .binds, .admin, .mem, .chks, .dmas]
  | .pswAckRise _ => [.regs, .out, .doms]
  | .pswAckTimeout _ => [.regs, .stage, .hold, .out, .free, .req, .halves, .settle, .tbs, .pps, .gens, .trigs,
    .frames, .ports, .taken, .doms, .gasp, .dic, .flt, .trunks, .slots, .node, .pipes, .graph, .gload, .cls, .ems,
    .threads, .wheel, .emem, .splices, .funcs, .qps, .binds, .admin, .mem, .chks, .dmas]
  | .listenSample _ _ => [.regs, .latches, .doms]
  | .listenWindowEnd _ => [.doms]
  | .wakeEvent _ _ _ _ => [.regs, .latches, .doms]
  | .wakeRequest fn _ => byFn fn [.regs, .slv, .latches, .doms]
  | .dicRead fn _ => byFn fn [.regs, .stage, .slv, .out, .free, .tbs, .trigs, .dic, .flt, .trunks, .node, .gload,
    .cls, .emem, .funcs]
  | .dicWrite fn _ => byFn fn [.regs, .stage, .slv, .out, .free, .tbs, .trigs, .dic, .flt, .trunks, .node, .gload,
    .cls, .emem, .funcs]
  | .dicInfo fn _ => byFn fn [.regs, .stage, .slv, .out, .free, .tbs, .trigs, .dic, .flt, .trunks, .node, .gload,
    .cls, .emem, .funcs]
  | .dicCommit fn _ => byFn fn [.regs, .stage, .slv, .out, .free, .tbs, .trigs, .dic, .flt, .trunks, .node, .gload,
    .cls, .emem, .funcs]
  | .dicRestoreDefaults fn _ => byFn fn [.regs, .stage, .slv, .out, .free, .tbs, .trigs, .dic, .flt, .trunks, .node,
    .gload, .cls, .emem, .funcs]
  | .dicDefine fn _ => byFn fn [.regs, .stage, .slv, .out, .free, .tbs, .trigs, .dic, .flt, .trunks, .node, .gload,
    .cls, .emem, .funcs]
  | .dicUndefine fn _ => byFn fn [.regs, .stage, .slv, .out, .free, .tbs, .trigs, .dic, .flt, .trunks, .node,
    .gload, .cls, .emem, .funcs]
  | .dicTake fn _ => byFn fn [.regs, .stage, .slv, .out, .free, .tbs, .trigs, .dic, .flt, .trunks, .node, .gload,
    .cls, .emem, .funcs]
  | .mailboxRequest => [.regs, .stage, .slv, .out, .free, .tbs, .trigs, .dic, .flt, .trunks, .node, .gload, .cls,
    .emem, .funcs]
  | .mailboxFwdResponse => [.regs, .stage, .slv, .out, .free, .tbs, .trigs, .dic, .flt, .trunks, .node, .gload,
    .cls, .emem, .funcs]
  | .fwdTimeout => [.regs, .stage, .slv, .out, .free, .tbs, .trigs, .dic, .flt, .trunks, .node, .gload, .cls, .emem,
    .funcs]
  | .autoCommitTimer => [.regs, .dic]
  | .storeCommitDone _ _ => [.regs, .out, .free, .trigs, .frames, .ports, .gasp, .dic, .flt, .trunks, .node, .pipes,
    .gload, .cls, .emem, .funcs, .qps, .mem, .dmas]
  | .storeRestoreDone => [.regs, .dic]
  | .watchdogExpiry => [.regs, .out, .free, .trigs, .frames, .ports, .flt, .trunks, .node, .pipes, .gload, .cls,
    .emem, .funcs, .qps, .mem, .dmas]
  | .watchdogKick fn _ => byFn fn [.regs, .stage, .slv, .flt]
  | .faultClear fn _ => byFn fn [.regs, .stage, .slv]
  | .fltLogRead fn _ => byFn fn [.hold, .slv]
  | .illegalInstruction _ _ _ _ _ => [.regs, .out, .free, .trigs, .frames, .ports, .flt, .trunks, .node, .pipes,
    .gload, .cls, .wheel, .emem, .funcs, .qps, .mem, .dmas]
  | .supplyCollapse _ _ _ => [.regs, .stage, .hold, .slv, .rst, .req, .halves, .settle, .tbs, .pps, .gens, .trigs,
    .frames, .nextFrame, .ports, .taken, .latches, .doms, .gasp, .dic, .flt, .trunks, .slots, .node, .pipes, .graph,
    .gload, .cls, .ems, .threads, .wheel, .emem, .splices, .funcs, .qps, .binds, .admin, .mem, .chks, .dmas]
  | .modeReqOtherTarget fn _ _ _ => byFn fn [.regs, .stage, .hold, .slv, .out, .free, .req, .trigs, .frames, .ports,
    .doms, .flt, .trunks, .node, .pipes, .gload, .cls, .emem, .funcs, .qps, .binds, .admin, .mem, .dmas]
  | .adminBadOpcode _ _ _ => [.regs, .out, .qps, .admin]
  | .dicUnknownOp fn _ _ => byFn fn [.regs, .stage, .slv, .out, .free, .tbs, .trigs, .dic, .flt, .trunks, .node,
    .gload, .cls, .emem, .funcs]
  | .bankCmdUnknownOp fn _ => byFn fn [.regs, .stage, .slv, .mem]

/-- The function and the offset of a command that is one access of a register through the slave port; none for the other
commands (02_boundary_and_access.md R43). -/
def portAccess (c : Cfg) (i : Instr) : Option (Nat × Nat) :=
  match i with
  | .modeReqConfig fn _ _ => some (fn, O.BLK_MODE)
  | .modeReqIntegrate fn _ _ => some (fn, O.BLK_MODE)
  | .modeReqSafehold fn _ _ => some (fn, O.BLK_MODE)
  | .modeReqDormant fn _ _ => some (fn, O.BLK_MODE)
  | .tbSetWrite fn h _ => some (fn, O.TB_SET + tbOfs h + 12)
  | .tbStepWrite fn h _ _ _ _ => some (fn, O.TB_STEP + tbOfs h + 4)
  | .tbRateWrite fn h _ => some (fn, O.TB_RATE + tbOfs h)
  | .snapshotLatch fn h _ => some (fn, O.TB_SNAP_CMD + tbOfs h)
  | .tbSnapNsRead fn h => some (fn, O.TB_SNAP_NS + tbOfs h)
  | .generatorEnable fn n _ => some (fn, ctuOff (c.halfOfGen n) (O.CTU_GEN_CFG n))
  | .generatorDisable fn n _ => some (fn, ctuOff (c.halfOfGen n) (O.CTU_GEN_CFG n))
  | .triggerConfigWrite fn n which _ => some (fn, ctuOff (c.halfOfTrig n) (trigWord n which))
  | .captureTsRead fn n => some (fn, ctuOff (c.halfOfCap n) (O.CTU_CAP_TS n))
  | .macCtlWrite fn p _ => some (fn, macOff p 0)
  | .gateListWrite fn p ctl g idx hi _
    => some (fn, if ctl then O.MAC_GCL_CTL p else O.MAC_GCL p (g % 8) (idx % 32) + 4 * b2n hi)
  | .counterClear fn off => some (fn, off)
  | .trkCfgWrite fn t _ => some (fn, O.TRK_CFG t)
  | .trkSlotDataWrite fn t _ => some (fn, O.TRK_SLOT_DATA t)
  | .trkSlotDataRead fn t => some (fn, O.TRK_SLOT_DATA t)
  | .gearValidWrite fn t _ => some (fn, O.TRK_GEAR t)
  | .shiftRequest fn _ => some (fn, O.TRK_SHIFT)
  | .forcedSwitch fn t => some (fn, O.TRK_PROT_CMD t)
  | .manualSwitch fn t => some (fn, O.TRK_PROT_CMD t)
  | .lockout fn t => some (fn, O.TRK_PROT_CMD t)
  | .clearCommand fn t => some (fn, O.TRK_PROT_CMD t)
  | .graphLoad fn _ => some (fn, O.PRS_LOAD_CTL)
  | .traceArm fn h _ => some (fn, O.PRS_TRACE_CTL h)
  | .prsNodeDataRead fn h => some (fn, O.PRS_NODE_DATA h)
  | .stageOpen fn => some (fn, O.CLS_STAGE_CTL)
  | .stageOpenEmpty fn => some (fn, O.CLS_STAGE_CTL)
  | .stageAbandon fn => some (fn, O.CLS_STAGE_CTL)
  | .tcamWrite fn => some (fn, O.CLS_TCAM_CMD)
  | .tcamAdd fn => some (fn, O.CLS_TCAM_CMD)
  | .tcamDel fn => some (fn, O.CLS_TCAM_CMD)
  | .tcamRead fn => some (fn, O.CLS_TCAM_CMD)
  | .commitRequest fn _ => some (fn, O.CLS_COMMIT)
  | .emInsertFlow fn _ => some (fn, O.CLS_EM_CMD)
  | .emInsertFwd fn _ => some (fn, O.CLS_EM_CMD)
  | .emDelete fn _ => some (fn, O.CLS_EM_CMD)
  | .emRead fn _ => some (fn, O.CLS_EM_CMD)
  | .emCfgWrite fn _ => some (fn, O.CLS_EM_CFG)
  | .flushRequest fn _ => some (fn, O.CLS_FLUSH)
  | .threadRelease fn e n _ _ => some (fn, O.CE_THR_CTL e n)
  | .threadHalt fn e n _ => some (fn, O.CE_THR_CTL e n)
  | .runSet fn e _ _ => some (fn, O.CE_CTL e)
  | .runClear fn e _ => some (fn, O.CE_CTL e)
  | .hostEvent fn e n => some (fn, O.CE_THR_EVT e n)
  | .admin0Enable fn _ => some (fn, O.Q_ADMIN0_CFG)
  | .dmaStart fn n _ => some (fn, O.DMA_CH_CTL n)
  | .dmaPause fn n _ => some (fn, O.DMA_CH_CTL n)
  | .dmaResume fn n _ => some (fn, O.DMA_CH_CTL n)
  | .dmaAbort fn n _ => some (fn, O.DMA_CH_CTL n)
  | .dmaCqHeadWrite fn _ => some (fn, O.DMA_CQ_IDX)
  | .bankEvacuate fn _ => some (fn, O.MEM_BANK_CMD)
  | .bankRelease fn _ => some (fn, O.MEM_BANK_CMD)
  | .memDbgWrite fn _ => some (fn, O.MEM_DBG_DATA + 4)
  | .memDbgRead fn => some (fn, O.MEM_DBG_DATA)
  | .chkGo fn n _ => some (fn, O.CHK_CTL n)
  | .chkAbort fn n _ => some (fn, O.CHK_CTL n)
  | .chkSealWrite fn _ => some (fn, O.CHK_SEAL)
  | .chkResultRead fn n => some (fn, O.CHK_RESULT n)
  | .irqEoi fn k _ => some (fn, O.IRQ_EOI k)
  | .irqSetpendWrite fn w _ => some (fn, O.IRQ_SETPEND w)
  | .powerTargetWrite fn d _ => some (fn, O.PWR_DOM d)
  | .wakeRequest fn _ => some (fn, O.PWR_WAKE_REQ)
  | .dicRead fn _ => some (fn, O.DIC_CMD)
  | .dicWrite fn _ => some (fn, O.DIC_CMD)
  | .dicInfo fn _ => some (fn, O.DIC_CMD)
  | .dicCommit fn _ => some (fn, O.DIC_CMD)
  | .dicRestoreDefaults fn _ => some (fn, O.DIC_CMD)
  | .dicDefine fn _ => some (fn, O.DIC_CMD)
  | .dicUndefine fn _ => some (fn, O.DIC_CMD)
  | .dicTake fn _ => some (fn, O.DIC_CMD)
  | .watchdogKick fn _ => some (fn, O.FLT_WDOG)
  | .faultClear fn _ => some (fn, O.FLT_CLEAR)
  | .fltLogRead fn n => some (fn, O.FLT_LOG (n % 32))
  | .modeReqOtherTarget fn _ _ _ => some (fn, O.BLK_MODE)
  | .dicUnknownOp fn _ _ => some (fn, O.DIC_CMD)
  | .bankCmdUnknownOp fn _ => some (fn, O.MEM_BANK_CMD)
  | _ => none

/-- The register word at offset `off` answers a slave access of function 0, and is held under `key`
(02_boundary_and_access.md R43, R44; 01_block_and_halves.md R15). -/
abbrev State.Reaches (s : State) (off key : Nat) : Prop :=
  keyOf s.cfg off = some key ∧ s.islandUp key = true ∧ s.noMacFile key = false

/-- The register word at offset `off` answers a slave access of function 0, and the time-base island it may lie in has its
ticks (03_time_and_cycles.md R87; 01_block_and_halves.md R16). -/
abbrev State.Opens (s : State) (off key : Nat) : Prop :=
  s.Reaches off key ∧ (tbIsland s.cfg key).all (fun h => !(s.tb h).lost) = true

/-- No register word but those at `ks` differs. -/
def OnlyWords (s t : State) (ks : List Nat) : Prop := ∀ k, k ∉ ks → t.rd k = s.rd k

/-- The header of a cell on the lane: the information word and its check sequence, most significant byte first
(05_trunk_cells.md R134, R138). -/
def headerBytes (info : Nat) : List Byte := natBe 4 info ++ natBe 2 (hcsOf info)

/-- Thread `n` of engine `e` issues an instruction of kind `c` in slot `slot` (09_engine_threads.md R249): the engine's threads
issue, the wheel picks the thread, and the word at its pc encodes `c`. -/
abbrev State.Issues (s : State) (e n slot busy : Nat) (c : Opc) : Prop :=
  n < 8 ∧ s.engineRuns e = true ∧ (s.wheelPick e slot busy).map Prod.fst = some n ∧ decodeOp (s.fetchWord e n) = some c

/-- The thread's pc after an instruction that does not jump (10_engine_instructions.md R263, 09_engine_threads.md R238). -/
def State.pcNext (s : State) (e n : Nat) : Nat := (s.pcOf e n + 4) % 32768

/-- Register `d` of the thread takes `v`, g0 stays 0, and every other general register keeps its value
(10_engine_instructions.md R262). -/
abbrev TakesReg (s t : State) (e n d : Nat) (v : Word) : Prop :=
  ∀ r, r < 16 → t.greg e n r = if r = d ∧ d ≠ 0 then v else s.greg e n r

/-- What an instruction of thread `n` of engine `e` leaves as it is, besides the pieces of `ar`: every other thread, and every register
word but the thread's pc, its register `d` and the engine's counters (09_engine_threads.md R244, R261). -/
def IssueFrame (ar : List Area) (s t : State) (e n d : Nat) : Prop :=
  SameBut (.regs :: .threads :: .wheel :: ar) s t ∧
    (∀ k, k ≠ O.CE_THR_PC e n → k ≠ O.CE_THR_G e n d → (k < O.CE_CNT e 0 ∨ O.CE_CNT e 8 ≤ k) → t.rd k = s.rd k) ∧
    ∀ j, j ≠ thrKey e n → KMap.find? t.threads j = KMap.find? s.threads j

/-- The flags of a result in cc: N, Z, C, V from bit 3 down (10_engine_instructions.md R266). -/
def flagsOf (r : Word) (c v : Bool) : Nat := 8 * b2n (r.getLsbD 31) + 4 * b2n (decide (r = 0)) + 2 * b2n c + b2n v

/-- Thread `n` of engine `e` has faulted in `t` with FCAUSE `cause` (09_engine_threads.md R244; 10_engine_instructions.md R284): nothing of
its instruction is done, and where FLT_ESC asks for it the block goes to SAFEHOLD (18_faults_and_selftest.md R417). -/
def Faulted (s t : State) (e n cause : Nat) : Prop :=
  t.thrState e n = 4 ∧ t.fget (F.CE_THR_STAT.FCAUSE e n) = cause ∧ 4 * t.fget (F.CE_THR_FPC.FPC e n) = s.pcOf e n ∧
    t.pcOf e n = s.pcOf e n ∧ (∀ r, r < 16 → t.greg e n r = s.greg e n r) ∧
    t.rd64 (O.CE_CNT e 5) = (s.rd64 (O.CE_CNT e 5) + 1) % 2 ^ 64 ∧
    (bitOf (s.rd O.FLT_ESC) 0 = false → SameBut [.regs, .wheel, .flt] s t) ∧
    (bitOf (s.rd O.FLT_ESC) 0 = true → 1 ≤ s.mode → s.mode ≤ 5 → t.mode = 6 ∧ t.fget F.BLK_MODE.SH_CAUSE = 3)

/-- Function `fn` owns queue pair `q`, which exists and is not being destroyed: its window takes the function's accesses
(02_boundary_and_access.md R44; 11_functions_and_queues.md R316). -/
abbrev State.Owns (s : State) (fn q : Nat) : Prop :=
  s.domOn 1 = true ∧ s.rst.blk = false ∧ q < s.cfg.queuePairs ∧ (s.qp q).en = true ∧ (s.qp q).dying = false ∧
    (s.qp q).owner = fn ∧ (s.func fn).state = 1

/-- The admin executor takes the command of function `f` next, and its opcode is `op` (11_functions_and_queues.md R307,
R308). -/
abbrev State.Takes (s : State) (f : Nat) (cmd : List Byte) (err : Bool) (op : Nat) : Prop :=
  s.admin.destroy = none ∧ s.admNext = some f ∧ (err = false ∨ s.admPushed f = true) ∧ hostWord (s.admCmd f cmd) 0 / 2 ^ 24 = op

/-- The command of function `f` has ended in `t` with ASTATUS `st`: its admin completion is due, with the command's TAG
(11_functions_and_queues.md R307, R309). -/
abbrev Answered (s t : State) (f : Nat) (cmd : List Byte) (st : Nat) : Prop :=
  (t.qp (s.func f).admin).due.getLast?.map Cqe.w0 = some (3 * 2 ^ 28 + st * 2 ^ 16 + hostWord (s.admCmd f cmd) 0 % 65536)

end Sys2Proof.Machine
end

