-- ==== Sys2Proof/Certificates/Slice0/Obligations.lean ====
section
/-!
DEFINITION. The statements about the model for the provers.
-/
open Sys2Proof Sys2Proof.Machine

/-- One step of the block: the command at the front of the queue is carried out on the state with the queue's rest. With no command
waiting one tick passes, which is the model's own choice (notes/assumptions/4.md). -/
def Obligations.StepTakesFront : Prop :=
  (∀ (c : Instr) (s : State), step (s.setPending (c :: s.pending)) = exec c s) ∧
  (∀ (c : Instr) (rest : List Instr) (s : State), s.pending = c :: rest → step s = exec c (s.setPending rest)) ∧
  (∀ (s : State), s.pending = [] → ∃ t, step s = .next t ∧ t.pending = [] ∧ t.ticks = s.ticks + 1 ∧ t.cfg = s.cfg)

/-- The state after reset: every register word holds its reset value, the mode is RESET, nothing waits, no frame, queue pair,
function or course exists, and the state has its invariant. Where the spec is open it follows the model's choices
(notes/assumptions/1.md, notes/assumptions/2.md, notes/assumptions/6.md). -/
def Obligations.ResetState : Prop :=
  State.reset.Inv ∧ State.reset.pending = [] ∧ State.reset.mode = 0 ∧ State.reset.rst.blk = true ∧
  (∀ k, State.reset.rd k = resetWord .x k) ∧
  State.reset.fget F.BLK_ID.BLOCK_CODE = 0x6A17 ∧
  State.reset.frames = [] ∧ State.reset.qps = [] ∧ State.reset.funcs = [] ∧ State.reset.cls.courses = [] ∧ State.reset.emem = []

/-- Every step keeps the state's canonical form: register words and memories list by rising key, and no register word or byte of
an engine's memory that holds what an unlisted one reads as. -/
def Obligations.StepKeepsInvariant : Prop :=
  ∀ s t : State, s.Inv → step s = .next t → t.Inv

/-- Every command completes in every state, leaves the queue and the configuration as they are, and changes only the pieces
of the state listed for it. Where the spec is open it follows the model's choices (notes/assumptions/7.md). -/
def Obligations.EveryCommandCompletes : Prop :=
  ∀ (i : Instr) (s : State), ∃ t, exec i s = .next t ∧ t.pending = s.pending ∧ t.cfg = s.cfg ∧ SameBut (touches i) s t

/-- Resets and power (00_scope.md R8; 01_block_and_halves.md R26, R30, R428; 14_check_units_safety_island.md R358;
13_buffer_memory_and_placement.md R350; 16_power_and_wake.md R395; 17_parameter_dictionary.md R413, R415): BLK_RST_N resets
every register but those of the always-on and the safety island, and its release brings BRINGUP; the reset of a half takes
its mode copy to RESET, and in Gweip-S the block to SAFEHOLD; a released half of Gweip-X stops admission until it has copied;
a new supply leaves the store alone. Where the spec is open it follows the model's choices (notes/assumptions/18.md,
notes/assumptions/19.md, notes/assumptions/21.md). -/
def Obligations.ResetsAndSupply : Prop :=
  (∀ (s : State) (step : Nat),
    ∃ t, exec (.blkRstNAssert step) s = .next t ∧ t.rst.blk = true ∧ t.mode = 0 ∧ t.doms = s.doms ∧ t.latches = s.latches ∧
      t.emem = s.emem ∧ t.mem.words = s.mem.words ∧ t.mem.grans = [] ∧ t.frames = [] ∧ t.qps = [] ∧ t.funcs = [] ∧ t.dmas = [] ∧
      (∀ k, s.homeDom k ≠ 0 → s.homeDom k ≠ 42 → t.rd k = resetWord s.cfg k)) ∧
  (∀ (s : State), s.rst.blk = true →
    ∃ t, exec .blkRstNRelease s = .next t ∧ t.rst.blk = false ∧ (s.domOn 1 = true → t.mode = 1)) ∧
  (∀ (s : State) (h : Nat), h < s.cfg.halves → s.halfInReset h = false →
    ∃ t, exec (.halfResetAssert h) s = .next t ∧ t.halfInReset h = true ∧ t.hmode h = 0 ∧
      (s.cfg = .s → 1 ≤ s.mode → s.mode ≤ 5 → t.mode = 6 ∧ t.fget F.BLK_MODE.SH_CAUSE = 6) ∧
      (s.cfg = .x → t.flag (claimFld h) = false ∧ t.flag F.BLK_HALF.LINK_UP = false ∧ (t.half h).half.up = false)) ∧
  (∀ (s : State) (h : Nat), h < s.cfg.halves → s.rst.blk = false → s.halfInReset h = true →
    ∃ t, exec (.halfResetRelease h) s = .next t ∧ t.halfInReset h = false ∧ (t.tb h).t = 0 ∧
      (s.cfg = .s → t.hmode h = s.mode) ∧
      (s.cfg = .x → (t.half h).copyState = true ∧ (t.half h).copyTables = true ∧ (t.half h).admStop = true)) ∧
  (∀ (s : State),
    (∃ t, exec (.safeRstNAssert false) s = .next t ∧ t.rst.safe = true ∧ t.chks = [] ∧
      (∀ k, s.homeDom k = 42 → t.rd k = resetWord s.cfg k) ∧ ∀ k, s.homeDom k ≠ 42 → t.rd k = s.rd k) ∧
    ∃ t, exec (.safeRstNAssert true) s = .next t ∧ t.rst.safe = false ∧ t.regs = s.regs ∧ t.chks = s.chks) ∧
  (∀ (s : State),
    (∃ t, exec .aonPowerOn s = .next t ∧ t.regs = (State.resetOf s.cfg).regs ∧ t.doms = (State.resetOf s.cfg).doms ∧
      t.rst = (State.resetOf s.cfg).rst ∧ t.mem.key = some s.free ∧ t.free = s.free + 1 ∧ t.dic.slotA = s.dic.slotA ∧
      t.dic.slotB = s.dic.slotB ∧ t.dic.restore = true) ∧
    ∀ step torn written,
      ∃ t, exec (.supplyCollapse step torn written) s = .next t ∧ t.regs = (State.resetOf s.cfg).regs ∧ t.frames = [] ∧
        (step ≤ 1 ∨ s.dic.commit = none → t.dic.slotA = s.dic.slotA ∧ t.dic.slotB = s.dic.slotB) ∧
        ∀ c, s.dic.commit = some c → c.slot < 2 →
          t.slotOf (1 - c.slot) = s.slotOf (1 - c.slot) ∧
          (step = 2 → t.slotOf c.slot = { s.slotOf c.slot with commit := (s.slotOf c.slot).commit &&& ~~~ torn }) ∧
          (step = 4 → (t.slotOf c.slot).commit = 0) ∧
          (6 ≤ step → t.slotOf c.slot = s.commitSlot c [])) ∧
  (∀ (s : State),
    ((s.domOn 1 = false ∨ s.rst.blk = true) →
      ∃ t, exec .pwrFailWarn s = .next t ∧ t.flag F.PWR_STAT.GASP_DONE = true ∧ t.gasp = s.gasp) ∧
    (s.domOn 1 = true → s.rst.blk = false →
      (s.gasp.isSome = true → exec .pwrFailWarn s = .next s) ∧
      (s.gasp = none →
        ∃ t, exec .pwrFailWarn s = .next t ∧ 17 ∈ t.latches ∧ (t.gasp.isSome = true ∨ t.flag F.PWR_STAT.GASP_DONE = true))))

/-- Operating modes (01_block_and_halves.md R24 to R28): a request is carried out where the table of transitions has it, and
otherwise refused with REQ_ERR, with the mode as it was; one that meets a hardware transition waits for its check; the
self-test ends with the granules that failed retired; INTEGRATE becomes OPERATE, or DEGRADED. Where the spec is open it
follows the model's choices (notes/assumptions/22.md). -/
def Obligations.OperatingModes : Prop :=
  (∀ (s : State) (key : Nat) (clr : Bool), s.Reaches O.BLK_MODE key →
    let m := s.mode
    let config := m = 3 ∨ m = 4 ∨ m = 5 ∨ (m = 1 ∧ s.flag F.BLK_MODE.BIST_DONE = true) ∨ (m = 6 ∧ s.containFree = true)
    let g := s.gearOfHalf s.leader
    let integrate := m = 2 ∧ s.anyCourse s.leader = true ∧ s.flag (tbFld F.TB_STAT.SET_DONE s.leader) = true ∧
      (∀ n ∈ s.cellTrunks, s.fget (F.TRK_GEAR.VALID n) / 2 ^ g % 2 = 1) ∧
      ∀ p, p < 8 → s.cfg.hasPort p = true → s.gated p = true → s.cellTrunk (s.gclTrunk p) = true →
        s.fget (F.MAC_GCL_CTL.VALID p) / 2 ^ g % 2 = 1
    let dormant := (m = 2 ∨ m = 6) ∧ ∀ d ∈ domList s.cfg, 3 < d → s.target d ≠ 0
    (s.req = none →
      (config → ∃ t, exec (.modeReqConfig 0 clr false) s = .next t ∧ t.mode = 2) ∧
      (integrate → ∃ t, exec (.modeReqIntegrate 0 clr false) s = .next t ∧ t.mode = 3) ∧
      (1 ≤ m → m ≤ 5 →
        ∃ t, exec (.modeReqSafehold 0 clr false) s = .next t ∧ t.mode = 6 ∧ t.fget F.BLK_MODE.SH_CAUSE = 1) ∧
      (dormant → ∃ t, exec (.modeReqDormant 0 clr false) s = .next t ∧ t.mode = 7 ∧ t.target 1 ≠ 0 ∧ t.target 2 ≠ 0) ∧
      (∀ i, (i = .modeReqConfig 0 clr false ∧ ¬ config) ∨ (i = .modeReqIntegrate 0 clr false ∧ ¬ integrate) ∨
          (i = .modeReqSafehold 0 clr false ∧ ¬ (1 ≤ m ∧ m ≤ 5)) ∨ (i = .modeReqDormant 0 clr false ∧ ¬ dormant) ∨
          (∃ x, (x = 0 ∨ x = 1 ∨ x = 4 ∨ x = 5) ∧ i = .modeReqOtherTarget 0 x clr false) →
        ∃ t, exec i s = .next t ∧ t.flag F.BLK_MODE.REQ_ERR = true ∧ t.mode = m)) ∧
    (∀ x ∈ ([(.modeReqConfig 0 clr, 2), (.modeReqIntegrate 0 clr, 3), (.modeReqSafehold 0 clr, 6), (.modeReqDormant 0 clr, 7)] :
        List ((Bool → Instr) × Nat)),
      (s.req.isSome = true → ∀ meets, ∃ t, exec (x.1 meets) s = .next t ∧ t.flag F.BLK_MODE.REQ_ERR = true ∧ t.mode = m ∧ t.req = s.req) ∧
      (s.req = none →
        ∃ t, exec (x.1 true) s = .next t ∧ t.req.map ModeReq.target = some x.2 ∧ t.flag F.BLK_MODE.REQ_PEND = true ∧ t.mode = m))) ∧
  (∀ (s : State) (r : ModeReq), s.req = some r →
    ∃ t, exec .modeReqPendingCheck s = .next t ∧ t.req = none ∧ t.flag F.BLK_MODE.REQ_PEND = false ∧
      (r.target = 6 → 1 ≤ s.mode → s.mode ≤ 5 → t.mode = 6) ∧
      (r.target = 6 → (s.mode < 1 ∨ 5 < s.mode) → t.flag F.BLK_MODE.REQ_ERR = true ∧ t.mode = s.mode)) ∧
  (∀ (s : State) (bad : List Nat), s.mode = 1 → s.flag F.BLK_MODE.BIST_DONE = false →
    ∃ t, exec (.bistDone bad) s = .next t ∧ t.flag F.BLK_MODE.BIST_DONE = true ∧
      t.flag F.BLK_MODE.BIST_FAIL = bad.any (fun g => s.bankOn (g / 64)) ∧
      ∀ g ∈ bad, s.bankOn (g / 64) = true → (t.gran g).state = 3) ∧
  (∀ (s : State), s.mode = 3 → (s.cellTrunks = [] ∨ s.csJoined = true) →
    ∃ t, exec .enterOperate s = .next t ∧
      t.mode = (if t.flag F.BLK_MODE.PROT = true ∨ t.flag F.BLK_MODE.HALF_LOST = true then 5 else 4) ∧
      t.flag F.BLK_MODE.HALF_LOST = s.flag F.BLK_MODE.HALF_LOST ∧
      (s.hmode 0 ≠ 6 → s.hmode 1 ≠ 6 → t.flag F.BLK_MODE.PROT = s.flag F.BLK_MODE.PROT))

/-- The halves of Gweip-X, their links and the clocks (01_block_and_halves.md R21, R22, R30 to R36; 02_boundary_and_access.md
R41; 18_faults_and_selftest.md R418, R420): three heartbeats bring a link up, a glitch restarts the count; a half that loses
the other runs on, takes the lead, or goes to SAFEHOLD; the settlement picks the leader by claim and epoch; a half that has
copied holds the other's mode, time and tables; a lost spine link and a lost clock are held until they return. Where the spec
is open it follows the model's choices (notes/assumptions/18.md, notes/assumptions/23.md). -/
def Obligations.HalvesLinksAndClocks : Prop :=
  (∀ (s : State) (h : Nat), h < s.cfg.halves → s.halfInReset h = false →
    (s.domOn (2 + h) = true → ∃ t, exec (.heartbeatSend h) s = .next t ∧ (t.half h).sent = (s.half h).sent + 1) ∧
    (∃ t, exec (.heartbeatReceive true h) s = .next t ∧ (t.half h).spine.run = min 3 ((s.half h).spine.run + 1) ∧
      (t.half h).spine.up = ((s.half h).spine.up || decide (2 ≤ (s.half h).spine.run))) ∧
    (∃ t, exec (.linkGlitch h true) s = .next t ∧ (t.half h).spine.run = 0 ∧ (t.half h).spine.up = (s.half h).spine.up ∧
      t.regs = s.regs) ∧
    (s.cfg = .x →
      (∃ t, exec (.heartbeatReceive false h) s = .next t ∧
        (t.half h).half.up = ((s.half h).half.up || decide (2 ≤ (s.half h).half.run)) ∧
        (t.half h).half.run = min 3 ((s.half h).half.run + 1) ∧
        ((s.half h).half.up = false → 2 ≤ (s.half h).half.run → (s.half (1 - h)).half.up = true →
          t.flag F.BLK_HALF.LINK_UP = true ∧ t.settle = true)) ∧
      ((s.half h).half.up = true →
        (∃ t, exec (.linkGlitch h false) s = .next t ∧ t.flag F.BLK_HALF.LINK_GLITCH = true ∧ (t.half h).half.up = true ∧
          (t.half h).half.run = 0) ∧
        ∃ t, exec (.halfLinkLoss h) s = .next t ∧ (t.half h).half.up = false ∧ t.flag F.BLK_HALF.LINK_UP = false ∧
          (s.claims h = true → t.claims h = true ∧ t.flag F.BLK_MODE.HALF_LOST = true ∧ (s.hmode h = 4 → t.hmode h = 5)) ∧
          (s.claims h = false → s.flag F.BLK_HALF.STANDBY_LEAD = true → (s.half h).epoch < 0xFFFF →
            t.leader = h ∧ t.claims h = true ∧ t.fget F.BLK_HALF.EPOCH = (s.half h).epoch + 1 ∧ t.flag F.BLK_MODE.HALF_LOST = true) ∧
          (s.claims h = false → s.flag F.BLK_HALF.STANDBY_LEAD = false → 1 ≤ s.hmode h → s.hmode h ≤ 5 →
            t.hmode h = 6 ∧ t.fget F.BLK_MODE.SH_CAUSE = 2)))) ∧
  (∀ (s : State), s.settle = true → s.linked = true →
    (s.claims 0 = true → s.claims 1 = true → (s.half 0).epoch < 65536 → (s.half 1).epoch < 65536 →
      let w := if (s.half 0).epoch < (s.half 1).epoch then 1 else 0
      ∃ t, exec .leaderSettlement s = .next t ∧ t.settle = false ∧ t.leader = w ∧ t.claims w = true ∧ t.claims (1 - w) = false ∧
        t.fget F.BLK_HALF.EPOCH = (s.half w).epoch) ∧
    (s.claims 0 = false → s.claims 1 = false → max (s.half 0).epoch (s.half 1).epoch < 0xFFFF →
      ∃ t, exec .leaderSettlement s = .next t ∧ t.settle = false ∧ t.leader = 0 ∧ t.claims 0 = true ∧
        t.fget F.BLK_HALF.EPOCH = max (s.half 0).epoch (s.half 1).epoch + 1) ∧
    (∀ w, w < 2 → s.claims w = true → s.claims (1 - w) = false →
      ∃ t, exec .leaderSettlement s = .next t ∧ t.settle = false ∧ t.leader = w ∧ t.claims w = true ∧ t.claims (1 - w) = false ∧
        t.fget F.BLK_HALF.EPOCH = (s.half w).epoch % 65536 ∧ (t.half (s.copier w)).copyState = true)) ∧
  (∀ (s : State) (h : Nat), s.cfg = .x → h < 2 → s.linked = true → s.settle = false → s.halfInReset h = false →
    ((s.half h).copyState = true →
      ∃ t, exec (.stateCopyDone h) s = .next t ∧ (t.half h).copyState = false ∧ (t.tb h).t = (s.tb (1 - h)).t ∧
        (s.flag F.BLK_MODE.HALF_LOST = false → t.hmode h = s.hmode (1 - h))) ∧
    ((s.half h).copyTables = true →
      ∃ t, exec (.tableCopyDone h) s = .next t ∧ (t.half h).copyTables = false ∧ (t.half h).admStop = false ∧
        t.em h = s.em (1 - h))) ∧
  (∀ (s : State) (h : Nat), h < s.cfg.halves → (s.half h).spine.up = true →
    ∃ t, exec (.spineLinkLoss h) s = .next t ∧ (t.half h).spine.up = false ∧
      (s.cfg = .s → 1 ≤ s.mode → s.mode ≤ 5 → t.mode = 6 ∧ t.fget F.BLK_MODE.SH_CAUSE = 6) ∧
      (s.cfg = .x → t.flag F.BLK_MODE.HALF_LOST = true ∧
        (s.leader = h → s.flag F.BLK_HALF.STANDBY_LEAD = true → (s.half (1 - h)).epoch < 0xFFFF →
          t.leader = 1 - h ∧ t.fget F.BLK_HALF.EPOCH = (s.half (1 - h)).epoch + 1))) ∧
  (∀ (s : State) (n : Nat) (tx : Bool),
    (n < s.cfg.trunks →
      (s.domOn (16 + n) = true → s.halfInReset (s.cfg.halfOfTrunk n) = false → (s.trunk n).lost tx = false → s.flag (F.TRK_CFG.EN n) = true →
        ∃ t, exec (.clockLoss true n tx) s = .next t ∧ (t.trunk n).lost tx = true ∧ t.flag (F.TRK_STAT.CLK_LOSS n) = true ∧
          (s.flag F.FLT_ESC.TR_CLK = true → 1 ≤ s.mode → s.mode ≤ 5 → t.mode = 6 ∧ t.fget F.BLK_MODE.SH_CAUSE = 3)) ∧
      ((s.trunk n).lost tx = true →
        ∃ t, exec (.clockReturn true n tx) s = .next t ∧ (t.trunk n).lost tx = false ∧ (t.trunk n).lost (!tx) = (s.trunk n).lost (!tx))) ∧
    (n < s.cfg.fieldPorts →
      (s.domOn (8 + n) = true → s.halfInReset (s.cfg.halfOfPort n) = false → (s.port n).lost tx = false →
        (s.flag (F.MAC_CTL.EN_RX n) = true ∨ s.flag (F.MAC_CTL.EN_TX n) = true) →
        ∃ t, exec (.clockLoss false n tx) s = .next t ∧ (t.port n).lost tx = true ∧ t.flag (F.MAC_STAT.CLK_LOSS n) = true ∧
          (s.flag F.FLT_ESC.FP_CLK = true → 1 ≤ s.mode → s.mode ≤ 5 → t.mode = 6 ∧ t.fget F.BLK_MODE.SH_CAUSE = 3)) ∧
      ((s.port n).lost tx = true →
        ∃ t, exec (.clockReturn false n tx) s = .next t ∧ (t.port n).lost tx = false ∧
          (t.port n).lost (!tx) = (s.port n).lost (!tx) ∧ t.regs = s.regs)))

/-- The slave port (02_boundary_and_access.md R43 to R48, R53 to R55; 00_scope.md R7; 01_block_and_halves.md R16;
04_field_ports.md R128; 09_engine_threads.md R240): an access of another function is refused, and counted while the spine
works; one that reaches no register, or whose island does not answer, gets the error response. A write (REGISTER_WRITE) of a
register takes each field by its code, 64 bits are two words, narrow writes reach byte-writable registers and engine memories
only, and a write of a doorbell is that doorbell's command; a read (COUNTER_LATCH_READ) answers the register's word, the bytes
of an engine memory, or a counter whose high word it latches; COUNTER_CLEAR zeroes the counters of its clear register;
READ_TIMEOUT ends with the error response. Where the spec is open it follows the model's choices (notes/assumptions/14.md,
notes/assumptions/15.md, notes/assumptions/17.md, notes/assumptions/68.md). -/
def Obligations.SlavePort : Prop :=
  (∀ (s : State) (i : Instr) (fn off : Nat), portAccess s.cfg i = some (fn, off) →
    (fn ≠ 0 → exec i s = .next (if s.domOn 1 = true ∧ s.rst.blk = false then s.logRefusal fn off else s).deny) ∧
    (fn = 0 → keyOf s.cfg off = none → exec i s = .next s.deny) ∧
    (∀ key, fn = 0 → keyOf s.cfg off = some key → s.islandUp key = false → exec i s = .next s.deny)) ∧
  (∀ (s : State) (fn off : Nat),
    let t := (s.logRefusal fn off).deny
    t.slv = some ⟨true, 0⟩ ∧ SameBut refusedAreas s t ∧ t.rd64 O.FLT_CNT = (s.rd64 O.FLT_CNT + 1) % 2 ^ 64 ∧
    ((∀ tk, s.flt.refusal = some (fn, off, tk) → tk + 500000 ≤ s.ticks) →
      t.flt.refusal = some (fn, off, s.ticks) ∧
      ∀ n, s.logSlot = some n → getBits (t.rd (logWord n 0)) 16 8 = 1 ∧ getBits (t.rd (logWord n 0)) 0 12 = fn % 4096 ∧
        t.rd (logWord n 1) = BitVec.ofNat 32 off ∧ bitOf (t.rd (logWord n 0)) 31 = true)) ∧
  (∀ (s : State) (fn off size : Nat) (data : BitVec 64),
    ∀ i ∈ [Instr.registerWrite fn off size data, .counterLatchRead fn off size],
      (fn = 0 → (off < 0x100000 ∨ 0x200000 ≤ off) → (size ≠ 1 ∧ size ≠ 2 ∧ size ≠ 4 ∧ size ≠ 8) ∨ off % size ≠ 0 →
        exec i s = .next s.deny) ∧
      (size = 4 → off % 4 = 0 → (off < 0x100000 ∨ 0x700000 ≤ off) →
        (fn ≠ 0 → exec i s = .next (if s.domOn 1 = true ∧ s.rst.blk = false then s.logRefusal fn off else s).deny) ∧
        (fn = 0 → keyOf s.cfg off = none → exec i s = .next s.deny))) ∧
  (∀ (s : State) (off key : Nat) (data : BitVec 64) (h : Hit), off % 4 = 0 → off < 0x100000 → s.Reaches off key →
    hitOf s.cfg key = some h →
    let d : Word := data.extractLsb' 0 32
    (clearedBy key = none →
      ((key < 0x010000 ∧ key ≠ O.BLK_MODE) ∨ (0x030000 ≤ key ∧ key < 0x040000 ∧ key ≠ O.PRS_LOAD_CTL) ∨ key = O.FLT_ESC) →
      isStaged h = false →
      (∃ t, exec (.registerWrite 0 off 4 data) s = .next t ∧ t.rd key = (s.writtenWord key d).1 ∧
        t.slv = some ⟨(s.writtenWord key d).2, 0⟩ ∧ OnlyWords s t [key, O.DIC_STAT]) ∧
      (h.row.byteWr = false → ∀ w ∈ [1, 2],
        ∃ t, exec (.registerWrite 0 off w data) s = .next t ∧ t.slv = some ⟨true, 0⟩ ∧ t.regs = s.regs)) ∧
    (s.tbStopped key = false → isCounter key = false → latchedWord key = none →
      key ∉ [O.TB_SNAP_NS, O.TB_SNAP_NS + 0x8000, O.TRK_SLOT_DATA 0, O.TRK_SLOT_DATA 1, O.PRS_NODE_DATA 0, O.PRS_NODE_DATA 1,
        O.MEM_DBG_DATA, O.MEM_DBG_DATA + 4] →
      (∃ t, exec (.counterLatchRead 0 off 4) s = .next t ∧ t.slv = some ⟨false, BitVec.ofNat 64 (s.view key).toNat⟩ ∧ t.regs = s.regs) ∧
      ∀ b, b < 4 → ∃ t, exec (.counterLatchRead 0 (off + b) 1) s = .next t ∧
        t.slv = some ⟨false, BitVec.ofNat 64 (getBits (s.view key) (8 * b) 8)⟩ ∧ t.regs = s.regs) ∧
    (isCounter key = true → s.followCnt key = false → s.tbStopped key = false → key % 8 = 0 →
      ∃ t, exec (.counterLatchRead 0 off 4) s = .next t ∧ t.slv = some ⟨false, BitVec.ofNat 64 (s.rd key).toNat⟩ ∧
        KMap.find? t.hold (key + 4) = some (s.rd (key + 4)) ∧ t.regs = s.regs)) ∧
  (∀ (s : State) (key : Nat) (data : BitVec 64),
    let d : Word := data.extractLsb' 0 32
    (s.Reaches O.BLK_ID key →
      ∃ t, exec (.registerWrite 0 O.BLK_ID 4 data) s = .next t ∧ t.rd O.BLK_ID = s.rd O.BLK_ID ∧ t.slv = some ⟨false, 0⟩) ∧
    (s.Reaches O.FLT_ESC key →
      (∃ t, exec (.registerWrite 0 O.FLT_ESC 4 data) s = .next t ∧ getBits (t.rd O.FLT_ESC) 0 5 = getBits d 0 5 ∧
        t.slv = some ⟨false, 0⟩ ∧ OnlyWords s t [O.FLT_ESC]) ∧
      (∃ t, exec (.counterLatchRead 0 O.FLT_ESC 4) s = .next t ∧ t.slv = some ⟨false, BitVec.ofNat 64 (s.rd O.FLT_ESC).toNat⟩ ∧
        t.regs = s.regs)) ∧
    (s.Reaches O.PWR_STAT key →
      ∃ t, exec (.registerWrite 0 O.PWR_STAT 4 data) s = .next t ∧
        t.flag F.PWR_STAT.ABORTED = (s.flag F.PWR_STAT.ABORTED && !bitOf d 28) ∧
        t.fget F.PWR_STAT.USED = s.fget F.PWR_STAT.USED) ∧
    (s.Reaches O.TRK_GEAR_CUR key →
      (s.mode = 2 →
        ∃ t, exec (.registerWrite 0 O.TRK_GEAR_CUR 4 data) s = .next t ∧ t.fget F.TRK_GEAR_CUR.CUR = getBits d 0 3 ∧
          t.slv = some ⟨false, 0⟩) ∧
      (s.mode ≠ 2 → getBits d 0 3 ≠ s.fget F.TRK_GEAR_CUR.CUR →
        ∃ t, exec (.registerWrite 0 O.TRK_GEAR_CUR 4 data) s = .next t ∧ t.fget F.TRK_GEAR_CUR.CUR = s.fget F.TRK_GEAR_CUR.CUR ∧
          t.slv = some ⟨true, 0⟩)) ∧
    (s.Reaches O.PRS_LOAD_ADDR O.PRS_LOAD_ADDR → s.Reaches (O.PRS_LOAD_ADDR + 4) (O.PRS_LOAD_ADDR + 4) →
      ∃ t, exec (.registerWrite 0 O.PRS_LOAD_ADDR 8 data) s = .next t ∧ t.slv = some ⟨false, 0⟩ ∧
        getBits (t.rd O.PRS_LOAD_ADDR) 5 27 = natBits data.toNat 5 27 ∧
        getBits (t.rd (O.PRS_LOAD_ADDR + 4)) 0 12 = natBits data.toNat 32 12)) ∧
  (∀ (s : State) (e o size : Nat) (data : BitVec 64), size = 1 ∨ size = 2 ∨ size = 4 → o % size = 0 → o < 0x40000 →
    e < s.cfg.engines → s.islandUp (0x400000 + 0x40000 * e + o) = true →
    ((∃ x, ememEnd o true = some x) → s.ememOpen e = true → (o < 0x28000 ∨ 0x28400 ≤ o) →
      ∃ t, exec (.registerWrite 0 (0x400000 + 0x40000 * e + o) size data) s = .next t ∧ t.slv = some ⟨false, 0⟩ ∧
        t.ebytes e o size = natLe size data.toNat ∧ t.regs = s.regs) ∧
    (s.ememOpen e = false →
      ∃ t, exec (.registerWrite 0 (0x400000 + 0x40000 * e + o) size data) s = .next t ∧ t.slv = some ⟨true, 0⟩ ∧ t.emem = s.emem) ∧
    ((∃ x, ememEnd o false = some x) → size = 4 →
      ∃ t, exec (.counterLatchRead 0 (0x400000 + 0x40000 * e + o) 4) s = .next t ∧
        t.slv = some ⟨false, BitVec.ofNat 64 (leNat (s.ebytes e o 4))⟩ ∧ t.emem = s.emem ∧ t.regs = s.regs)) ∧
  (∀ (s : State) (fn q k w : Nat) (data : BitVec 64), q < 0x1000 → k < 4 → w < 8 →
    let d : Word := data.extractLsb' 0 32
    (getBits d 30 2 = 0 → exec (.registerWrite fn (0x100000 + 0x100 * q) 4 data) s = exec (.doorbellTx fn q d) s) ∧
    (getBits d 30 2 = 1 → exec (.registerWrite fn (0x100000 + 0x100 * q) 4 data) s = exec (.doorbellRx fn q d) s) ∧
    (getBits d 30 2 = 2 → exec (.registerWrite fn (0x100000 + 0x100 * q) 4 data) s = exec (.doorbellCq fn q d) s) ∧
    exec (.registerWrite fn (0x100000 + 0x100 * q + 0x20 + 0x20 * k + 4 * w) 4 data) s = exec (.pushSlotWrite fn q k w d) s) ∧
  (∀ (s : State) (key : Nat), s.Reaches O.FLT_CNT key → s.Reaches (O.FLT_CNT + 4) (key + 4) →
    (∃ t, exec (.counterLatchRead 0 O.FLT_CNT 4) s = .next t ∧ t.slv = some ⟨false, BitVec.ofNat 64 (s.rd O.FLT_CNT).toNat⟩ ∧
      KMap.find? t.hold (O.FLT_CNT + 4) = some (s.rd (O.FLT_CNT + 4)) ∧ t.regs = s.regs) ∧
    (∀ w, KMap.find? s.hold (O.FLT_CNT + 4) = some w →
      ∃ t, exec (.counterLatchRead 0 (O.FLT_CNT + 4) 4) s = .next t ∧ t.slv = some ⟨false, BitVec.ofNat 64 w.toNat⟩) ∧
    (∃ t, exec (.counterLatchRead 0 O.FLT_CNT 8) s = .next t ∧ t.slv = some ⟨false, BitVec.ofNat 64 (s.rd64 O.FLT_CNT)⟩)) ∧
  (∀ (s : State) (off : Nat) (key : Nat), keyOf s.cfg off = some key →
    (s.homeDom key ≠ 0 → ∃ t, exec (.readTimeout off) s = .next t ∧ t.slv = some ⟨true, 0⟩ ∧ SameBut [.slv] s t) ∧
    (s.homeDom key = 0 → exec (.readTimeout off) s = .next s)) ∧
  (∀ (s : State) (off key : Nat) (l : List (Nat × Nat)),
    (∃ n, (n < 10 ∧ key = 0x010038 + 0x1000 * n ∧ l = [(0x010300 + 0x1000 * n, 64)]) ∨
      (n < 2 ∧ key = O.TRK_CNT_CLR n ∧ l = [(O.TRK_CNT n 0, 60), (O.TRK_OH_ERR n, 1), (O.TRK_BLOCK_DROP n, 1)]) ∨
      (n < 2 ∧ key = O.PRS_CNT_CLR n ∧ l = [(O.PRS_CNT n 0, 14)]) ∨
      (n < 12 ∧ key = O.CE_CNT_CLR n ∧ l = [(O.CE_CNT n 0, 16)])) ∨
    (key, l) ∈ [(O.CLS_CNT_CLR 0, [(O.CLS_CNT 0 0, 34), (O.CLS_MC_PARTIAL 0, 20), (O.CLS_UC_DROP 0, 20)]),
      (O.CLS_CNT_CLR 1, [(O.CLS_CNT 1 0, 34)]), (O.Q_CNT_CLR, [(O.Q_CNT 0, 16)]), (O.MEM_CNT_CLR, [(O.MEM_CNT 0, 20)])] →
    s.Reaches off key →
    ∃ t, exec (.counterClear 0 off) s = .next t ∧ t.slv = some ⟨false, 0⟩ ∧
      (∀ r ∈ l, ∀ i, i < r.2 → t.rd (r.1 + 4 * i) = 0) ∧
      ∀ k, (∀ r ∈ l, ∀ i, i < r.2 → k ≠ r.1 + 4 * i) → t.rd k = s.rd k)

/-- The watchdog and the fault log (18_faults_and_selftest.md R416, R417, R421, R423): a kick starts the watchdog where EN
and the mode let it run; its expiry is a containment fault, which brings SAFEHOLD with SH_CAUSE 3 in a live mode; FLT_CLEAR
releases an active entry whose condition has ended, and says why not otherwise; reading an entry latches it. Where the spec
is open it follows the model's choices (notes/assumptions/54.md). -/
def Obligations.WatchdogAndFaultLog : Prop :=
  (∀ (s : State) (key : Nat) (data : Word), s.Reaches O.FLT_WDOG key →
    ∃ t, exec (.watchdogKick 0 data) s = .next t ∧
      t.flt.wdog = (bitOf data 31 && decide (s.mode ≠ 0 ∧ s.mode ≠ 6 ∧ s.mode ≠ 7)) ∧
      t.fget F.FLT_WDOG.LIMIT_US = getBits data 0 20 ∧ t.flag F.FLT_WDOG.EN = bitOf data 31) ∧
  (∀ (s : State),
    (s.flt.wdog = false → exec .watchdogExpiry s = .next s) ∧
    (s.flt.wdog = true →
      ∃ t, exec .watchdogExpiry s = .next t ∧ t.flt.wdog = false ∧
        (∀ n, s.logSlot = some n → t.flt.seq = s.flt.seq + 1) ∧
        (1 ≤ s.mode → s.mode ≤ 5 → t.mode = 6 ∧ t.fget F.BLK_MODE.SH_CAUSE = 3))) ∧
  (∀ (s : State) (key : Nat) (data : Word), s.Reaches O.FLT_CLEAR key →
    let n := getBits data 0 5
    let code := getBits (s.rd (logWord n 0)) 16 8
    let i := getBits (s.rd (logWord n 0)) 0 12
    let lasts := (code = 0x10 ∧ (s.port i).clkLost = true) ∨ (code = 0x11 ∧ (s.trunk i).clkLost = true) ∨
      (code = 0x82 ∧ (s.tb i).lost = true) ∨ code = 0x80
    (s.logActive n = false → ∃ t, exec (.faultClear 0 data) s = .next t ∧ t.fget F.FLT_CLEAR.RESULT = 3) ∧
    (s.logActive n = true → lasts →
      ∃ t, exec (.faultClear 0 data) s = .next t ∧ t.fget F.FLT_CLEAR.RESULT = 2 ∧ t.logActive n = true) ∧
    (s.logActive n = true → ¬ lasts →
      ∃ t, exec (.faultClear 0 data) s = .next t ∧ t.fget F.FLT_CLEAR.RESULT = 1 ∧ t.logActive n = false ∧
        t.fget F.FLT_STAT.ACTIVE = t.activeCount ∧ OnlyWords s t [O.FLT_CLEAR, O.FLT_STAT, logWord n 0])) ∧
  (∀ (s : State) (n key : Nat), n < 32 → s.Reaches (O.FLT_LOG n) key →
    ∃ t, exec (.fltLogRead 0 n) s = .next t ∧ t.slv = some ⟨false, BitVec.ofNat 64 (s.rd key).toNat⟩ ∧ t.regs = s.regs ∧
      ∀ j, j < 3 → KMap.find? t.hold (key + 4 + 4 * j) = some (s.rd (key + 4 + 4 * j)))

/-- Setting pending bits and the offer (15_interrupts.md R372 to R376, R378): IRQ_SETPEND sets every pending bit written 1
and changes no other register; the transfer of the always-on edges sets the pending bit of each latched source and empties
the latches; without a running offer, target `k` is offered the qualifying source of the lowest priority value, the lowest
number among equals, with the vector address of R376; an offer whose source no longer qualifies ends, another one stands. Where the spec is open it follows the model's choices
(notes/assumptions/64.md). -/
def Obligations.PendingAndOffer : Prop :=
  (∀ (s : State) (w key : Nat) (data : Word), s.Reaches (O.IRQ_SETPEND w) key →
    ∃ t, exec (.irqSetpendWrite 0 w data) s = .next t ∧ t.rd (O.IRQ_PEND w) = s.rd (O.IRQ_PEND w) ||| data ∧
      OnlyWords s t [O.IRQ_PEND w]) ∧
  (∀ (s : State), s.domOn 1 = true → s.rst.blk = false →
    ∃ t, exec .aonLatchTransfer s = .next t ∧ t.latches = [] ∧
      (∀ n ∈ s.latches, n < s.cfg.irqSources → t.flag (pendFld n) = true) ∧
      ∀ n, s.flag (pendFld n) = true → t.flag (pendFld n) = true) ∧
  (∀ (s : State) (k n : Nat), k < 8 → s.irqRuns = true → s.flag (F.IRQ_OFFER.VALID k) = false → n < s.cfg.irqSources →
      s.irqQualifies k n = true →
      (∀ m, m < s.cfg.irqSources → s.irqQualifies k m = true →
        s.irqPri n < s.irqPri m ∨ (s.irqPri n = s.irqPri m ∧ n ≤ m)) →
      ∃ t, exec (.irqOffer k) s = .next t ∧ t.flag (F.IRQ_OFFER.VALID k) = true ∧ t.fget (F.IRQ_OFFER.SRC k) = n ∧
        t.fget (F.IRQ_OFFER.PRI k) = s.irqPri n ∧
        t.out = s.out ++ [.vec k true
          ((32 * s.fget (F.IRQ_VBASE.BASE k) + n * 2 ^ (2 + s.fget (F.IRQ_VBASE.VSHIFT k))) % 2 ^ 32) (s.irqPri n)] ∧
        OnlyWords s t [O.IRQ_OFFER k]) ∧
  (∀ (s : State) (k : Nat), k < 8 → s.irqRuns = true → s.flag (F.IRQ_OFFER.VALID k) = true →
    (s.irqQualifies k (s.fget (F.IRQ_OFFER.SRC k)) = true → exec (.irqOffer k) s = .next s) ∧
    (s.irqQualifies k (s.fget (F.IRQ_OFFER.SRC k)) = false →
      ∃ t, exec (.irqOffer k) s = .next t ∧ t.flag (F.IRQ_OFFER.VALID k) = false ∧ t.out = s.out ++ [.vec k false 0 0] ∧
        OnlyWords s t [O.IRQ_OFFER k]))

/-- The acknowledge and the end of an interrupt (15_interrupts.md R376, R377): an ack makes the offered source active and no
longer pending and ends the offer, if the source still qualifies or stops to in the same cycle, and only ends the offer otherwise;
an ack without an offer changes nothing; the end by the target that took the source
clears its active bit; any other number written sets EOI_ERR and EOI_SRC. Where the spec is open it follows the model's choice
(notes/assumptions/64.md). -/
def Obligations.AckAndEnd : Prop :=
  (∀ (s : State) (k : Nat) (met : Bool), k < 8 → s.flag (F.IRQ_OFFER.VALID k) = true →
    (met = true ∨ s.irqQualifies k (s.fget (F.IRQ_OFFER.SRC k)) = true) →
    ∃ t, exec (.vecAck k met) s = .next t ∧ t.flag (pendFld (s.fget (F.IRQ_OFFER.SRC k))) = false ∧
      t.flag (actFld (s.fget (F.IRQ_OFFER.SRC k))) = true ∧ t.flag (F.IRQ_OFFER.VALID k) = false ∧
      KMap.get 0 t.taken (s.fget (F.IRQ_OFFER.SRC k)) = k + 1 ∧ t.out = s.out ++ [.vec k false 0 0]) ∧
  (∀ (s : State) (k : Nat), k < 8 → s.flag (F.IRQ_OFFER.VALID k) = true →
    s.irqQualifies k (s.fget (F.IRQ_OFFER.SRC k)) = false →
    ∃ t, exec (.vecAck k false) s = .next t ∧ t.flag (F.IRQ_OFFER.VALID k) = false ∧ t.taken = s.taken ∧
      t.out = s.out ++ [.vec k false 0 0] ∧ OnlyWords s t [O.IRQ_OFFER k]) ∧
  (∀ (s : State) (k : Nat) (met : Bool), s.flag (F.IRQ_OFFER.VALID k) = false → exec (.vecAck k met) s = .next s) ∧
  (∀ (s : State) (k key : Nat) (data : Word), k < 8 → s.Reaches (O.IRQ_EOI k) key →
    KMap.get 0 s.taken (getBits data 0 10) = k + 1 →
    ∃ t, exec (.irqEoi 0 k data) s = .next t ∧ t.flag (actFld (getBits data 0 10)) = false ∧
      KMap.get 0 t.taken (getBits data 0 10) = 0 ∧ OnlyWords s t [O.IRQ_ACT (getBits data 0 10 / 32)]) ∧
  (∀ (s : State) (k key : Nat) (data : Word), k < 8 → s.Reaches (O.IRQ_EOI k) key →
    KMap.get 0 s.taken (getBits data 0 10) ≠ k + 1 →
    ∃ t, exec (.irqEoi 0 k data) s = .next t ∧ t.flag F.IRQ_STAT.EOI_ERR = true ∧
      t.fget F.IRQ_STAT.EOI_SRC = getBits data 0 10 ∧ t.taken = s.taken ∧ OnlyWords s t [O.IRQ_STAT])

/-- Setting, stepping and the rate of the leader's time base (03_time_and_cycles.md R68, R70, R71, R72, R73, R75, R76). A write
of TB_SET's highest word in CONFIG loads seconds, nanoseconds and fraction and sets SET_DONE; with too many nanoseconds the
time stays and SET_ERR is set. A step in a mode that allows it adds the signed offset to the tick's increment and sets
STEP_USED; one that was used before, is out of range or meets a set in its tick is refused; where it meets a rate change the
tick's increment is the old rate's, and a snapshot in its tick holds the time after it. TB_RATE takes the value clamped to its
limits. A half that does not lead ignores all three. The follower applies the leader's time and rate in its own tick. A step's
high word without a low word counts the low word as 0, and the rest that the spec leaves open, are the model's choices
(notes/assumptions/9.md, notes/assumptions/53.md, notes/assumptions/70.md). -/
def Obligations.TimeBaseWrites : Prop :=
  (∀ (s : State) (h key : Nat) (data : Word), h < 2 → s.Opens (O.TB_SET + tbOfs h + 12) key → s.leader = h → s.mode = 2 →
    let ns := (s.stagedWord (O.TB_SET + tbOfs h + 4)).toNat
    (ns ≤ 999999999 →
      ∃ t, exec (.tbSetWrite 0 h data) s = .next t ∧ t.flag (tbFld F.TB_STAT.SET_DONE h) = true ∧
        (t.tb h).t = (((s.stagedWord (O.TB_SET + tbOfs h + 8)).toNat + 2 ^ 32 * getBits data 0 16) * 1000000000 + ns) * 2 ^ 40 +
          (s.stagedWord (O.TB_SET + tbOfs h)).toNat % 65536 * 2 ^ 24) ∧
    (999999999 < ns →
      ∃ t, exec (.tbSetWrite 0 h data) s = .next t ∧ t.flag (tbFld F.TB_STAT.SET_ERR h) = true ∧ t.tbs = s.tbs)) ∧
  (∀ (s : State) (h key : Nat) (data : Word), h < 2 → s.Opens (O.TB_STEP + tbOfs h + 4) key → s.leader = h →
    let ofs := sint 64 (((KMap.find? s.stage (O.TB_STEP + tbOfs h)).getD 0).toNat + 2 ^ 32 * data.toNat)
    let new (rate : Int) : Int := ((s.tb h).t : Int) + 2 * 2 ^ 40 + 2 * rate + ofs * 2 ^ 24
    let allowed := s.flag (tbFld F.TB_STAT.STEP_USED h) = false ∧
      ((s.mode = 2 ∧ s.flag (tbFld F.TB_STAT.SET_DONE h) = true) ∨
        (s.mode = 3 ∧ ∀ n, n < s.cfg.trunks → s.flag (F.TRK_CFG.EN n) = false) ∨ s.mode = 4 ∨ s.mode = 5)
    let was := (s.tb h).rateWas
    (∀ rate snap, allowed → (rate = true → -(2 ^ 31 : Int) ≤ was ∧ was < (2 ^ 31 : Int)) →
      0 ≤ new (if rate then was else s.tbRate h) → new (if rate then was else s.tbRate h) < (timeWrap : Int) →
      ∃ t, exec (.tbStepWrite 0 h data false rate snap) s = .next t ∧
        ((t.tb h).t : Int) = new (if rate then was else s.tbRate h) ∧
        t.flag (tbFld F.TB_STAT.STEP_USED h) = true ∧ t.tbRate h = s.tbRate h ∧
        (snap = true → t.fget (tbFld F.TB_SNAP_NS.NS h) = timeNs (t.tb h).t)) ∧
    (¬ allowed ∨ new (s.tbRate h) < 0 ∨ (timeWrap : Int) ≤ new (s.tbRate h) →
      ∃ t, exec (.tbStepWrite 0 h data false false false) s = .next t ∧ t.tbs = s.tbs ∧
        t.flag (tbFld F.TB_STAT.STEP_REFUSED h) = true) ∧
    (∀ rate snap, ∃ t, exec (.tbStepWrite 0 h data true rate snap) s = .next t ∧ t.tbs = s.tbs ∧
      t.flag (tbFld F.TB_STAT.STEP_REFUSED h) = true)) ∧
  (∀ (s : State) (h key : Nat) (data : Word), h < 2 → s.Opens (O.TB_RATE + tbOfs h) key → s.leader = h →
    s.flag (tbFld F.TB_CTL.SERVO h) = false → s.flag F.TRK_CS_STAT.SLEWING = false →
    ∃ t, exec (.tbRateWrite 0 h data) s = .next t ∧
      t.tbRate h = min 549755814 (max (-549755814) data.toInt) ∧
      ((data.toInt < -549755814 ∨ 549755814 < data.toInt) → t.flag (tbFld F.TB_STAT.RATE_CLAMP h) = true)) ∧
  (∀ (s : State) (h key : Nat) (data : Word), h < 2 → s.leader ≠ h →
    (s.Opens (O.TB_SET + tbOfs h + 12) key →
      ∃ t, exec (.tbSetWrite 0 h data) s = .next t ∧ t.tbs = s.tbs ∧ t.flag (tbFld F.TB_STAT.WR_IGN h) = true) ∧
    (s.Opens (O.TB_STEP + tbOfs h + 4) key →
      ∃ t, exec (.tbStepWrite 0 h data false false false) s = .next t ∧ t.tbs = s.tbs ∧ t.flag (tbFld F.TB_STAT.WR_IGN h) = true) ∧
    (s.Opens (O.TB_RATE + tbOfs h) key →
      ∃ t, exec (.tbRateWrite 0 h data) s = .next t ∧ t.tbs = s.tbs ∧ t.tbRate h = s.tbRate h ∧
        t.flag (tbFld F.TB_STAT.WR_IGN h) = true)) ∧
  (∀ (s : State) (c : Follow) (rest : List Follow), (s.tb (1 - s.leader)).follow = c :: rest →
    s.tbRuns (1 - s.leader) = true →
    ∃ t, exec .followerTimeApply s = .next t ∧ (t.tb (1 - s.leader)).follow = rest ∧
      (∀ τ el, c.time = some (τ, el) → (t.tb (1 - s.leader)).t = τ + ((s.tb s.leader).el - el)) ∧
      (∀ v, c.rate = some v → t.rd (O.TB_RATE + tbOfs (1 - s.leader)) = v))

/-- Snapshots and captures (03_time_and_cycles.md R78, R94, R95): a snapshot latches nanoseconds, fraction and seconds of the
half's time; a read of TB_SNAP_NS does so and answers the nanoseconds; a capture stamps a taken edge, and sets OVERRUN where
the stamp before was still valid; a read of the stamp's first word latches the three words above it. A capture's instant is its command's (notes/assumptions/71.md). -/
def Obligations.SnapshotsAndCaptures : Prop :=
  (∀ (s : State) (h key : Nat) (data : Word), h < 2 → s.Opens (O.TB_SNAP_CMD + tbOfs h) key → bitOf data 0 = true →
    ∃ t, exec (.snapshotLatch 0 h data) s = .next t ∧ t.fget (tbFld F.TB_SNAP_NS.NS h) = timeNs (s.tb h).t ∧
      t.fget (tbFld F.TB_SNAP_FRAC.FRAC h) = timeFrac (s.tb h).t ∧
      t.fget (tbFld F.TB_SNAP_SEC_LO.SEC_LO h) = timeSec (s.tb h).t % 2 ^ 32 ∧
      t.fget (tbFld F.TB_SNAP_SEC_HI.SEC_HI h) = timeSec (s.tb h).t / 2 ^ 32 % 2 ^ 16) ∧
  (∀ (s : State) (h key : Nat), h < 2 → s.Opens (O.TB_SNAP_NS + tbOfs h) key →
    ∃ t, exec (.tbSnapNsRead 0 h) s = .next t ∧ t.slv = some ⟨false, BitVec.ofNat 64 (timeNs (s.tb h).t)⟩ ∧
      t.fget (tbFld F.TB_SNAP_SEC_LO.SEC_LO h) = timeSec (s.tb h).t % 2 ^ 32) ∧
  (∀ (s : State) (n : Nat) (rising clr : Bool), n < 16 → s.capTakes n rising = true → s.tbRuns (s.cfg.halfOfCap n) = true →
    ∃ t, exec (.captureEdge n rising clr) s = .next t ∧ t.flag (F.CTU_CAP_TS.VALID n) = true ∧
      t.fget (F.CTU_CAP_TS.NS n) = timeNs (s.tb (s.cfg.halfOfCap n)).t ∧
      t.fget (F.CTU_CAP_TS.FRAC n) = timeFrac (s.tb (s.cfg.halfOfCap n)).t ∧
      t.flag (F.CTU_CAP_TS.LEVEL n) = rising ∧
      t.rd64 (O.CTU_CAP_TS n + 8) % 2 ^ 32 = timeSec (s.tb (s.cfg.halfOfCap n)).t % 2 ^ 32 ∧
      (s.flag (F.CTU_CAP_TS.VALID n) = true → t.flag (F.CTU_CAP_TS.OVERRUN n) = true)) ∧
  (∀ (s : State) (n : Nat) (rising : Bool), s.capTakes n rising = false → exec (.captureEdge n rising false) s = .next s) ∧
  (∀ (s : State) (n key : Nat), n < 16 → s.Opens (ctuOff (s.cfg.halfOfCap n) (O.CTU_CAP_TS n)) key →
    ∃ t, exec (.captureTsRead 0 n) s = .next t ∧ t.slv = some ⟨false, BitVec.ofNat 64 (s.rd (O.CTU_CAP_TS n)).toNat⟩ ∧
      ∀ i, i < 3 → t.held (O.CTU_CAP_TS n + 4 + 4 * i) = s.rd (O.CTU_CAP_TS n + 4 + 4 * i))

/-- The cycle generators (03_time_and_cycles.md R86 to R88, R96): an enabling write of a correct setting starts the generator,
its next boundary lies after now, and where it is bound to the time it lies at the phase, at most one period away; that of
another setting sets CFG_ERR and changes nothing; a disabling write leaves it without a boundary; a boundary moves the next
one by one period and the shift that waits; a SYNC_IN edge in a following generator's direction within half a period of a
point not yet matched is matched to it, adds the limited error to ACC and moves the next boundary, or the one after, by
it, or with too large a sum ends the following; it leaves every other generator alone; too many missed points end the
following. The stamp's whole nanoseconds and the later of two points equally near are the model's choices
(notes/assumptions/72.md). -/
def Obligations.Generators : Prop :=
  (∀ (s : State) (n key : Nat) (data : Word), n < 8 → s.Opens (ctuOff (s.cfg.halfOfGen n) (O.CTU_GEN_CFG n)) key →
    s.flag (F.CTU_GEN_CFG.EN n) = false → s.genSetupOk n (data ||| 1) = true →
    ∃ t, exec (.generatorEnable 0 n data) s = .next t ∧ t.flag (F.CTU_GEN_STAT.RUN n) = true ∧
      timeT (s.tb (s.cfg.halfOfGen n)).t < (t.gen n).next ∧
      (t.flag (F.CTU_GEN_CFG.BIND n) = true →
        (t.gen n).next % s.fget (F.CTU_GEN_PERIOD.PERIOD n) = s.fget (F.CTU_GEN_PHASE.PHASE n) ∧
        (t.gen n).next ≤ timeT (s.tb (s.cfg.halfOfGen n)).t + s.fget (F.CTU_GEN_PERIOD.PERIOD n))) ∧
  (∀ (s : State) (n key : Nat) (data : Word), n < 8 → s.Opens (ctuOff (s.cfg.halfOfGen n) (O.CTU_GEN_CFG n)) key →
    s.flag (F.CTU_GEN_CFG.EN n) = false → s.genSetupOk n (data ||| 1) = false →
    ∃ t, exec (.generatorEnable 0 n data) s = .next t ∧ t.flag (F.CTU_GEN_STAT.CFG_ERR n) = true ∧ t.gens = s.gens ∧
      t.flag (F.CTU_GEN_CFG.EN n) = false) ∧
  (∀ (s : State) (n key : Nat) (data : Word), n < 8 → s.Opens (ctuOff (s.cfg.halfOfGen n) (O.CTU_GEN_CFG n)) key →
    ∃ t, exec (.generatorDisable 0 n data) s = .next t ∧ t.flag (F.CTU_GEN_STAT.RUN n) = false ∧ t.gen n = {}) ∧
  (∀ (s : State) (n : Nat), n < 8 → s.genRuns n = true → (s.gen n).next * 2 ^ 40 ≤ (s.tb (s.cfg.halfOfGen n)).t →
    ∃ t, exec (.cycleBoundary n) s = .next t ∧ (t.gen n).idx = (s.gen n).idx + 1 ∧
      (t.gen n).next = (((s.gen n).next : Int) + (s.fget (F.CTU_GEN_PERIOD.PERIOD n) : Int) + (s.gen n).shift).toNat ∧
      (t.gen n).shift = 0) ∧
  (∀ (s : State) (rising : Bool), ∃ t, exec (.syncInEdge rising) s = .next t ∧ t.tbs = s.tbs ∧
    (∀ n, n < 8 → (s.genFollows n = false ∨ (s.gen n).edge ≠ (if rising then 0 else 1)) →
      t.gen n = s.gen n ∧ t.rd (O.CTU_GEN_ACC n) = s.rd (O.CTU_GEN_ACC n)) ∧
    (∀ (n : Nat) (k e : Int), n < 8 → s.genFollows n = true → (s.gen n).edge = (if rising then 0 else 1) →
      let p : Int := s.fget (F.CTU_GEN_PERIOD.PERIOD n)
      let now : Int := timeT (s.tb (s.cfg.halfOfGen n)).t
      let m : Int := min (min (s.gen n).maxStep (s.fget (F.CTU_GEN_PERIOD.PERIOD n) / 16)) 2000
      let a := max (-m) (min m e)
      let acc := s.rdInt (O.CTU_GEN_ACC n) + a
      0 < p → ((s.gen n).matched : Int) ≤ ((s.gen n).idx : Int) + k → e = now - ((s.gen n).next + (s.gen n).ofs + k * p) →
      -p < 2 * e → 2 * e < p →
      ((t.gen n).matched : Int) = ((s.gen n).idx : Int) + k + 1 ∧
      (p < 4 * (acc.natAbs : Int) → t.flag (F.CTU_GEN_STAT.SYNC_LOST n) = true ∧ (t.gen n).next = (s.gen n).next) ∧
      (4 * (acc.natAbs : Int) ≤ p → t.rdInt (O.CTU_GEN_ACC n) = acc ∧
        (now + m + 8 < ((s.gen n).next : Int) → (t.gen n).next = (((s.gen n).next : Int) + a).toNat ∧ (t.gen n).shift = (s.gen n).shift) ∧
        (((s.gen n).next : Int) ≤ now + m + 8 → (t.gen n).next = (s.gen n).next ∧ (t.gen n).shift = (s.gen n).shift + a)))) ∧
  (∀ (s : State) (n : Nat), n < 8 → s.genFollows n = true → ((max 1 (s.gen n).miss : Nat) : Int) ≤ s.syncMissed n →
    ∃ t, exec (.syncMissLimit n) s = .next t ∧ t.flag (F.CTU_GEN_STAT.SYNC_LOST n) = true)

/-- Trigger outputs and PPS (03_time_and_cycles.md R83, R84, R90 to R92): a write of a trigger's setting is checked, and a
setting that may run runs; a due rise makes the output active for its width; its end brings back the level between pulses;
a new second of the half that drives it makes PPS_OUT high for WIDTH microseconds, limited to 1 to 999,999; its end makes it low. Where the
spec is open it follows the model's choices (notes/assumptions/51.md). -/
def Obligations.TriggersAndPps : Prop :=
  (∀ (s : State) (n which key : Nat) (data : Word), n < 32 → s.Opens (ctuOff (s.cfg.halfOfTrig n) (trigWord n which)) key →
    ∃ t, exec (.triggerConfigWrite 0 n which data) s = .next t ∧
      (t.trigOk n = false → t.flag (F.CTU_TRIG_STAT.BIND_ERR n) = true) ∧
      (t.trigRuns n = true → (t.trig n).running = true)) ∧
  (∀ (s : State) (n : Nat) (r : Rise), n < 32 → dueRise (s.tb (s.cfg.halfOfTrig n)).t (s.trig n).rises = some r →
    ∃ t, exec (.triggerRise n) s = .next t ∧ (t.trig n).level = r.act ∧ (t.trig n).pulse.isSome = true ∧
      (t.trig n).rises = (s.trig n).rises.erase r ∧
      ((s.trig n).level ≠ r.act → t.out = s.out ++ [.trig n r.act]) ∧
      ((s.trig n).pulse.isSome = true → t.flag (F.CTU_TRIG_STAT.OVERLAP n) = true)) ∧
  (∀ (s : State) (n stop : Nat), (s.trig n).pulse = some stop → stop ≤ (s.tb (s.cfg.halfOfTrig n)).el →
    ∃ t, exec (.triggerFall n) s = .next t ∧ (t.trig n).level = (s.trig n).pol ∧ (t.trig n).pulse = none) ∧
  (∀ (s : State), s.pps.due = true →
    ∃ t, exec .ppsPulseStart s = .next t ∧ t.pps.high = true ∧
      t.pps.stop = (s.tb s.pps.drv).el + min (max 1 (s.fget (tbFld F.TB_PPS.WIDTH s.pps.drv))) 999999 * 1000 * 2 ^ 40 ∧
      t.pps.due = false ∧
      (s.pps.high = false → t.out = s.out ++ [.pps true])) ∧
  (∀ (s : State), s.pps.high = true → s.pps.stop ≤ (s.tb s.pps.half).el →
    ∃ t, exec .ppsPulseEnd s = .next t ∧ t.pps.high = false ∧ t.out = s.out ++ [.pps false])

/-- Loss and return of a half's ticks (18_faults_and_selftest.md R417, R423): the time stops, SET_DONE clears and the block goes to
SAFEHOLD from any mode of 1 to 5; it goes on from the value it held;
the writes that waited are done. Where the spec is open it follows the model's choices (notes/assumptions/53.md). -/
def Obligations.TicksLostAndBack : Prop :=
  (∀ (s : State) (h : Nat), s.tbRuns h = true →
    ∃ t, exec (.tbClockLoss h) s = .next t ∧ (t.tb h).lost = true ∧ (t.tb h).t = (s.tb h).t ∧ t.tbRuns h = false ∧
      t.flag (tbFld F.TB_STAT.SET_DONE h) = false ∧
      (1 ≤ s.mode → s.mode ≤ 5 → t.mode = 6 ∧ t.fget F.BLK_MODE.SH_CAUSE = 3)) ∧
  (∀ (s : State) (h : Nat), (s.tb h).lost = true →
    ∃ t, exec (.tbTicksResume h) s = .next t ∧ (t.tb h).waiting = [] ∧
      ((s.tb h).waiting = [] → (t.tb h).lost = false ∧
        (t.tbRuns h = true → (t.tb h).t = ((s.tb h).t + s.tickInc h) % timeWrap)))

/-- Speed, duplex and flow control of a port (04_field_ports.md R99, R106, R107; 05_trunk_cells.md R133): half duplex above
100 Mb/s, and a change of SPEED or DUPLEX while the port is enabled, set CFG_ERR and leave both; otherwise a change shows at
FPn_SPEED; a trunk's MAC keeps both. A PAUSE frame received is counted, and in full duplex it pauses the port or ends its
pause; a PFC frame does so by class; a timer's end resumes; PAUSE is sent again while the occupancy stays above XON and the port
still sends it. Where
the spec is open it follows the model's choices (notes/assumptions/55.md). -/
def Obligations.SpeedAndFlowControl : Prop :=
  (∀ (s : State) (p key : Nat) (data : Word), p < 8 → s.Reaches (macOff p 0) key →
    let sp := getBits data 4 2
    let du := getBits data 8 1
    let on := s.flag (F.MAC_CTL.EN_RX p) || s.flag (F.MAC_CTL.EN_TX p)
    (on = false → du = 0 → 2 ≤ sp →
      ∃ t, exec (.macCtlWrite 0 p data) s = .next t ∧ t.flag (F.MAC_STAT.CFG_ERR p) = true ∧
        t.rd (O.MAC_CTL p) = s.rd (O.MAC_CTL p)) ∧
    (on = true → (sp ≠ s.fget (F.MAC_CTL.SPEED p) ∨ du ≠ s.fget (F.MAC_CTL.DUPLEX p)) →
      ∃ t, exec (.macCtlWrite 0 p data) s = .next t ∧ t.flag (F.MAC_STAT.CFG_ERR p) = true ∧
        t.fget (F.MAC_CTL.SPEED p) = s.fget (F.MAC_CTL.SPEED p) ∧ t.fget (F.MAC_CTL.DUPLEX p) = s.fget (F.MAC_CTL.DUPLEX p)) ∧
    (on = false → (du = 1 ∨ sp < 2) → sp ≠ s.fget (F.MAC_CTL.SPEED p) →
      ∃ t, exec (.macCtlWrite 0 p data) s = .next t ∧ t.fget (F.MAC_CTL.SPEED p) = sp ∧ t.fget (F.MAC_CTL.DUPLEX p) = du ∧
        ∃ l, t.out = s.out ++ .speed p sp :: l)) ∧
  (∀ (s : State) (p key : Nat) (data : Word), 8 ≤ p → p < 10 → s.Reaches (macOff p 0) key →
    ∃ t, exec (.macCtlWrite 0 p data) s = .next t ∧ t.fget (F.MAC_CTL.SPEED p) = 3 ∧
      t.fget (F.MAC_CTL.DUPLEX p) = 1 ∧ t.flag (F.MAC_CTL.EN_TX p) = bitOf data (F.MAC_CTL.EN_TX p).lo) ∧
  (∀ (s : State) (p enable : Nat) (q : List Nat), p < 10 → s.receives p = true → (s.port p).arriving = none →
    (∃ t, exec (.pauseFrameReceive p false enable q) s = .next t ∧
      t.rd64 (O.MAC_CNT p 9) = (s.rd64 (O.MAC_CNT p 9) + 1) % 2 ^ 64 ∧
      t.rd64 (O.MAC_CNT p 1) = (s.rd64 (O.MAC_CNT p 1) + 1) % 2 ^ 64 ∧
      (s.flag (F.MAC_CTL.DUPLEX p) = true → s.flag (F.MAC_FC.PFC_EN p) = false → s.flag (F.MAC_FC.PAUSE_EN p) = true →
        t.flag (F.MAC_FC_STAT.PAUSED p) = decide (q.getD 0 0 ≠ 0)) ∧
      (s.flag (F.MAC_CTL.DUPLEX p) = false → t.rd (O.MAC_FC_STAT p) = s.rd (O.MAC_FC_STAT p))) ∧
    (∃ t, exec (.pauseFrameReceive p true enable q) s = .next t ∧
      t.rd64 (O.MAC_CNT p 10) = (s.rd64 (O.MAC_CNT p 10) + 1) % 2 ^ 64 ∧
      (s.flag (F.MAC_CTL.DUPLEX p) = true → s.flag (F.MAC_FC.PFC_EN p) = true →
        ∀ c, c < 8 → bitOf (t.rd (O.MAC_FC_STAT p)) c =
          (if enable.testBit c && (s.fget (F.MAC_FC.PFC_PRI p)).testBit c then decide (q.getD c 0 ≠ 0)
           else bitOf (s.rd (O.MAC_FC_STAT p)) c)))) ∧
  (∀ (s : State) (p c : Nat), p < 10 →
    ∃ t, exec (.pauseTimerExpiry p c) s = .next t ∧ OnlyWords s t [O.MAC_FC_STAT p] ∧
      (c < 8 → bitOf (t.rd (O.MAC_FC_STAT p)) c = false) ∧ (8 ≤ c → t.flag (F.MAC_FC_STAT.PAUSED p) = false)) ∧
  (∀ (s : State) (p c : Nat),
    let full := s.flag (F.MAC_CTL.DUPLEX p) = true
    let sent := full ∧ ((s.flag (F.MAC_FC.PFC_EN p) = true ∧ c < 8 ∧ bitOf (s.rd (O.MAC_FC p)) (16 + c) = true) ∨
      (s.flag (F.MAC_FC.PFC_EN p) = false ∧ s.flag (F.MAC_FC.PAUSE_EN p) = true ∧ c = 8))
    (c ∈ (s.port p).asked → sent → 256 * s.fget (F.MAC_FC_THR.XON p) < s.occupancy p c →
      ∃ t, exec (.pauseRepeat p c) s = .next t ∧
        (t.port p).fcDue = (s.port p).fcDue ++ [(c, s.fget (F.MAC_FC.TX_QUANTA p))] ∧ t.regs = s.regs) ∧
    (¬ sent → exec (.pauseRepeat p c) s = .next s))

/-- Receiving at a port (04_field_ports.md R100, R101, R114): the first bytes of a frame at an idle receiver begin a new
frame with its receive stamp; later bytes join it, up to MAX_LEN; its end frees the receiver, and a frame with FPn_RX_ER
leaves no copy waiting at any port; a port that listens for a wake match keeps the bytes it hears to the frame's end. Where the spec is open it follows the model's choices (notes/assumptions/24.md). -/
def Obligations.FramesReceived : Prop :=
  (∀ (s : State) (p asm ph : Nat) (bs : List Byte) (err : Bool), s.listening p = true → s.stopped p false = false →
    ∃ t, exec (.frameReceive p bs false err asm ph) s = .next t ∧ (t.port p).heard = (s.port p).heard ++ bs ∧
      t.frames = s.frames ∧ t.regs = s.regs) ∧
  ∀ (s : State) (p asm ph : Nat) (bs : List Byte) (err : Bool), p < 10 → s.isMac p = true → s.portUp p = true →
    s.listening p = false → s.stopped p false = false →
    (s.flag (F.MAC_CTL.EN_RX p) = true → s.quiesced (portDom p) = false → (s.port p).arriving = none →
      ∃ t, exec (.frameReceive p bs false err asm ph) s = .next t ∧ (t.port p).arriving = some s.nextFrame ∧
        t.nextFrame = s.nextFrame + 1 ∧ (t.frame s.nextFrame).bytes = bs.take (s.maxLen p) ∧
        (t.frame s.nextFrame).stamp = s.rxStamp p ph ∧ (t.frame s.nextFrame).src = .port p) ∧
    (∀ f, (s.port p).arriving = some f →
      ∃ t, exec (.frameReceive p bs false err asm ph) s = .next t ∧ (t.port p).arriving = some f ∧
        (t.frame f).received = (s.frame f).received ++ bs.take (s.maxLen p - (s.frame f).received.length) ∧
        ((s.frame f).void = false →
          (t.frame f).bytes = (s.frame f).bytes ++ bs.take (s.maxLen p - (s.frame f).received.length))) ∧
    (∀ f, (s.port p).arriving = some f →
      ∃ t, exec (.frameReceive p bs true err asm ph) s = .next t ∧ (t.port p).arriving = none ∧
        (err = true → ∀ o, o < 10 → ∀ c ∈ (t.port o).egress, c.kind = 0 → c.fid ≠ f))

/-- Sending at a port (04_field_ports.md R100, R102, R107, R108, R109, R111, R113, R114; 05_trunk_cells.md R133): flow control
goes first, then the copy that R109 chooses, whole or in cut-through; a port in half duplex defers to carrier and to a frame
that arrives; a preempted frame goes on though EN_TX was cleared; a waiting frame interrupts a preemptable one; a control
frame leaves with its FCS and is counted; a frame's copy leaves the port when it has been sent, and one that a BASE-R trunk
cannot send to its end is lost. Where the spec is open it follows the model's choices (notes/assumptions/32.md,
notes/assumptions/75.md, notes/assumptions/76.md). -/
def Obligations.FramesSent : Prop :=
  (∀ (s : State) (p ph sent : Nat) (crs : Bool), p < 10 → (s.port p).tx = none →
    (s.flag (F.MAC_CTL.DUPLEX p) = true ∨ (crs = false ∧ (s.port p).arriving = none)) →
    (s.sends p = true → s.quiesced (portDom p) = false → (s.port p).gasp = false →
      (∀ k q rest, (s.port p).fcDue = (k, q) :: rest → (p < 8 ∨ s.forwards (s.cfg.halfOfAnyPort p) = true) →
        ∃ t, exec (.frameTransmitStart p ph sent crs) s = .next t ∧ (t.port p).fcDue = rest ∧ t.flag (F.MAC_STAT.TX_BUSY p) = true ∧
          (t.port p).tx.map (fun c => (c.kind, c.bytes)) = some (1, s.fcFrame p k q)) ∧
      ((s.port p).fcDue = [] → s.forwards (s.cfg.halfOfAnyPort p) = true →
        ∀ c, (s.choose p true = some c ∨
            (s.choose p true = none ∧ (s.port p).hold = false ∧ (s.port p).held = none ∧ s.choose p false = some c)) →
          s.poisoned (s.frame c.fid).parts = false →
          ∃ t, exec (.frameTransmitStart p ph sent crs) s = .next t ∧ (t.port p).egress = (s.port p).egress.erase c ∧
            (t.port p).tx.map (fun c => (c.fid, c.kind)) = some (c.fid, c.kind) ∧ t.flag (F.MAC_STAT.TX_BUSY p) = true)) ∧
    (∀ c, s.launches p = true → s.sends p = false → (s.port p).hold = false → (s.port p).held = some c →
      ∃ t, exec (.frameTransmitStart p ph sent crs) s = .next t ∧ (t.port p).tx = some c ∧ (t.port p).held = none)) ∧
  (∀ (s : State) (p ph sent : Nat), s.flag (F.MAC_CTL.DUPLEX p) = false →
    ∃ t, exec (.frameTransmitStart p ph sent true) s = .next t ∧ t.port p = { s.port p with crs := true } ∧ t.out = s.out) ∧
  (∀ (s : State) (p ph sent : Nat) (c : Copy), p < 8 → s.sends p = true → s.quiesced (portDom p) = false → (s.port p).tx = none →
    (s.port p).gasp = false → (s.port p).fcDue = [] → s.forwards (s.cfg.halfOfAnyPort p) = true →
    (s.choose p true = some c ∨
      (s.choose p true = none ∧ (s.port p).hold = false ∧ (s.port p).held = none ∧ s.choose p false = some c)) →
    s.cutOk p c = true →
    ∃ t, exec (.cutThroughStart p ph sent) s = .next t ∧ (t.port p).egress = (s.port p).egress.erase c ∧
      (t.port p).tx.map (fun c => (c.fid, c.cut, c.bytes)) = some (c.fid, true, (s.frame c.fid).bytes)) ∧
  (∀ (s : State) (p : Nat) (c : Copy), p < 10 → s.portUp p = true → s.stopped p true = false → (s.port p).tx = some c →
    (s.txBroken p = false →
      (c.kind = 1 →
        ∃ t, exec (.frameTransmitEnd p) s = .next t ∧ (t.port p).tx = none ∧ t.out = s.out ++ [.frame p (c.bytes ++ fcsOf c.bytes)] ∧
          t.rd64 (O.MAC_CNT p 22) = (s.rd64 (O.MAC_CNT p 22) + 1) % 2 ^ 64 ∧
          t.rd64 (O.MAC_CNT p 23) = (s.rd64 (O.MAC_CNT p 23) + 1) % 2 ^ 64 ∧
          t.rd64 (O.MAC_CNT p 21) = (s.rd64 (O.MAC_CNT p 21) + c.bytes.length + (fcsOf c.bytes).length) % 2 ^ 64) ∧
      (c.kind = 0 → (c.cut = false ∨ (s.frame c.fid).done = true) →
        ∃ t, exec (.frameTransmitEnd p) s = .next t ∧ (t.port p).tx = none ∧ ∃ b, t.out = s.out ++ [.frame p b])) ∧
    (s.txBroken p = true → (c.kind ≠ 0 ∨ c.cut = false ∨ (s.frame c.fid).done = true) →
      ∃ t, exec (.frameTransmitEnd p) s = .next t ∧ (t.port p).tx = none ∧ t.out = s.out)) ∧
  (∀ (s : State) (p ph sent k q : Nat) (crs : Bool) (c : Copy) (rest : List (Nat × Nat)), p < 8 → s.sends p = true →
    s.flag (F.MAC_CTL.DUPLEX p) = true → (s.port p).tx = some c → c.kind = 0 → c.pre = true →
    s.flag (F.MAC_STAT.PREEMPT_ACTIVE p) = true → (s.port p).held = none →
    64 * (1 + s.fget (F.MAC_PREEMPT.ADD_FRAG p)) ≤ sent - c.sent + 4 → 64 ≤ s.copyLen c - sent →
    s.quiesced (portDom p) = false → (s.port p).gasp = false → (s.port p).fcDue = (k, q) :: rest →
    ∃ t, exec (.frameTransmitStart p ph sent crs) s = .next t ∧ t.out = s.out ++ [.fragment p c.fid] ∧
      (t.port p).held = some { c with sent := sent })

/-- Collisions and preemption's verify (04_field_ports.md R102, R108): a collision in half duplex jams and is counted; the
frame waits for its back-off at the head of the queue with its own count, and after a late collision, or its 16th, it is
given up; SMD-R makes preemption active; without it verify is tried 3 times in all, then fails. Where the spec is open it follows the model's
choices (notes/assumptions/65.md). -/
def Obligations.CollisionsAndVerify : Prop :=
  (∀ (s : State) (p : Nat) (late : Bool) (c : Copy), p < 8 → (s.port p).tx = some c → s.flag (F.MAC_CTL.DUPLEX p) = false →
    s.stopped p true = false →
    (late = false → c.coll + 1 < 16 → c.kind ≠ 2 →
      ∃ t, exec (.collision p late) s = .next t ∧ t.out = s.out ++ [.jam p] ∧ (t.port p).backoff = true ∧
        (t.port p).tx = none ∧ (t.port p).egress = { c with bytes := [], stamp := 0, coll := c.coll + 1 } :: (s.port p).egress ∧
        t.rd64 (O.MAC_CNT p 25) = (s.rd64 (O.MAC_CNT p 25) + 1) % 2 ^ 64) ∧
    (late = false → c.coll + 1 < 16 → c.kind = 2 →
      ∃ t, exec (.collision p late) s = .next t ∧ t.out = s.out ++ [.jam p] ∧ (t.port p).backoff = true ∧
        (t.port p).tx = none ∧ (t.port p).gasp = true ∧ (t.port p).coll = c.coll + 1) ∧
    ((late = true ∨ 16 ≤ c.coll + 1) →
      ∃ t, exec (.collision p late) s = .next t ∧ t.out = s.out ++ [.jam p] ∧ (t.port p).tx = none ∧
        (t.port p).egress = (s.port p).egress)) ∧
  (∀ (s : State) (p : Nat), ∃ t, exec (.backoffExpiry p) s = .next t ∧ (t.port p).backoff = false ∧ t.regs = s.regs) ∧
  (∀ (s : State) (p : Nat), p < 8 → s.fget (F.MAC_STAT.VERIFY p) = 1 →
    (s.stopped p false = false → ∃ t, exec (.verifyResponse p) s = .next t ∧ t.fget (F.MAC_STAT.VERIFY p) = 2 ∧
      t.flag (F.MAC_STAT.PREEMPT_ACTIVE p) = true ∧ OnlyWords s t [O.MAC_STAT p]) ∧
    ((s.port p).tries < 3 →
      ∃ t, exec (.verifyTimeout p) s = .next t ∧ (t.port p).tries = (s.port p).tries + 1 ∧
        t.out = (if s.stopped p true then s.out else s.out ++ [.verify p]) ∧ t.regs = s.regs) ∧
    (3 ≤ (s.port p).tries →
      ∃ t, exec (.verifyTimeout p) s = .next t ∧ t.fget (F.MAC_STAT.VERIFY p) = 3 ∧ OnlyWords s t [O.MAC_STAT p]))

/-- Gate lists (04_field_ports.md R110, R112): the next entry takes effect when an entry's time ends; the last one gives way to
entry 0 of the current gear's list; an entry of a valid gear is not written; the gear in use stays VALID, and a list that is
enabled shows entry 0 of the current gear (notes/assumptions/74.md). -/
def Obligations.GateLists : Prop :=
  (∀ (s : State) (p : Nat), s.gated p = true → s.portUp p = true →
    let g := s.fget (F.MAC_GCL_STAT.GEAR p)
    let i := s.fget (F.MAC_GCL_STAT.ENTRY p)
    (s.flag (F.MAC_GCL.LAST p g i) = false → i < 31 →
      ∃ t, exec (.gateEntryExpiry p) s = .next t ∧ t.fget (F.MAC_GCL_STAT.ENTRY p) = i + 1 ∧ t.fget (F.MAC_GCL_STAT.GEAR p) = g) ∧
    ((s.flag (F.MAC_GCL.LAST p g i) = true ∨ i = 31) →
      ∃ t, exec (.gateEntryExpiry p) s = .next t ∧ t.fget (F.MAC_GCL_STAT.ENTRY p) = 0 ∧
        t.fget (F.MAC_GCL_STAT.GEAR p) = s.gearOf p % 8)) ∧
  (∀ (s : State) (p g i key : Nat) (hi : Bool) (data : Word), p < 8 → g < 8 → i < 32 →
    s.Reaches (O.MAC_GCL p g i + 4 * b2n hi) key →
    (s.fget (F.MAC_GCL_CTL.VALID p) / 2 ^ g % 2 = 1 →
      ∃ t, exec (.gateListWrite 0 p false g i hi data) s = .next t ∧ t.slv = some ⟨true, 0⟩ ∧ t.regs = s.regs ∧ t.stage = s.stage) ∧
    (s.fget (F.MAC_GCL_CTL.VALID p) / 2 ^ g % 2 = 0 → hi = true →
      ∃ t, exec (.gateListWrite 0 p false g i hi data) s = .next t ∧ t.fget (F.MAC_GCL.GATES p g i) = getBits data 0 8 ∧
        t.flag (F.MAC_GCL.LAST p g i) = bitOf data 11)) ∧
  (∀ (s : State) (p key : Nat) (data : Word), p < 8 → s.Reaches (O.MAC_GCL_CTL p) key →
    ∃ t, exec (.gateListWrite 0 p true 0 0 false data) s = .next t ∧
      (s.fget (F.MAC_GCL_CTL.VALID p) / 2 ^ s.gearOf p % 2 = 1 → s.gearOf p < 8 →
        t.fget (F.MAC_GCL_CTL.VALID p) / 2 ^ s.gearOf p % 2 = 1) ∧
      (s.flag (F.MAC_GCL_CTL.EN p) = false → bitOf data 31 = true → t.fget (F.MAC_GCL_STAT.ENTRY p) = 0 ∧
        t.flag (F.MAC_GCL_CTL.EN p) = true))

/-- Edits in flight (04_field_ports.md R122, R123, R124, R125, R127): a byte trigger reached by the frame is disarmed and its
event latched; an edit that arrives for a live copy joins the port's queue, if it has room; one that is not in the queue at the
clock of byte w - 16 is dropped as late. Where the spec is open it follows the model's choices (notes/assumptions/32.md). -/
def Obligations.EditsInFlight : Prop :=
  (∀ (s : State) (e n k o f : Nat), e < 12 → n < 8 → k < 4 → (s.thr e n).bound = some f → KMap.find? (s.thr e n).trigs k = some o →
    (o < (s.frame f).bytes.length →
      ∃ t, exec (.byteTrigger e n k) s = .next t ∧ KMap.find? (t.thr e n).trigs k = none ∧
        t.flag (evtFld e n (1 + k)) = true ∧ OnlyWords s t [O.CE_THR_EVT e n]) ∧
    ((s.frame f).bytes.length ≤ o → (s.frame f).done = true →
      ∃ t, exec (.byteTrigger e n k) s = .next t ∧ KMap.find? (t.thr e n).trigs k = none ∧
        t.flag (evtFld e n (1 + k)) = true ∧ t.flag (evtFld e n 5) = true ∧ OnlyWords s t [O.CE_THR_EVT e n])) ∧
  (∀ (s : State) (p : Nat) (j : Int) (e : Edit) (rest : List Edit), p < 10 → (s.port p).coming = e :: rest →
    s.editLate p j e = false →
    (s.editLive p e = true → (s.port p).editFull e = false →
      ∃ t, exec (.editQueued p j) s = .next t ∧ (t.port p).coming = rest ∧ (t.port p).edits = (s.port p).edits ++ [e]) ∧
    ((s.editLive p e = false ∨ (s.port p).editFull e = true) →
      ∃ t, exec (.editQueued p j) s = .next t ∧ (t.port p).coming = rest ∧ (t.port p).edits = (s.port p).edits)) ∧
  (∀ (s : State) (p : Nat) (j : Int) (e : Edit), p < 10 → (s.port p).coming.find? (fun e => s.editLate p j e) = some e →
    ∃ t, exec (.editLate p j) s = .next t ∧ (t.port p).coming = (s.port p).coming.erase e ∧ (t.port p).edits = (s.port p).edits) ∧
  (∀ (s : State) (p : Nat) (j : Int) (e : Edit) (c : Copy), (s.port p).tx = some c → c.kind = 0 → c.fid = e.fid →
    (s.editLate p j e = true ↔ (e.w : Int) - 16 ≤ max j (-8)))

/-- The setting of a trunk, its lane and its far end (05_trunk_cells.md R131 to R133, R141, R146): a mode that the
configuration lacks, or a change of MODE in CONFIG with EN = 1, sets CFG_ERR and leaves MODE; EN falling stops the
transmitter and TX_EN; EN rising in CONFIG drives TX_EN with SEQ numbers from 0; a fall of PMA_LOCK in SYNC is a loss of
delineation; a link fault received in BASE-R mode changes what the MAC sends and cuts a frame off. Where the spec is open it follows the model's
choices (notes/assumptions/50.md, notes/assumptions/76.md, notes/assumptions/77.md). -/
def Obligations.TrunkSettingAndLane : Prop :=
  (∀ (s : State) (n key : Nat) (data : Word), s.cfg = .s → n < 1 → s.Reaches (O.TRK_CFG n) key →
    (getBits data 2 2 = 1 ∨ getBits data 2 2 = 3) →
    ∃ t, exec (.trkCfgWrite 0 n data) s = .next t ∧ t.flag (F.TRK_STAT.CFG_ERR n) = true ∧
      t.rd (O.TRK_CFG n) = s.rd (O.TRK_CFG n)) ∧
  (∀ (s : State) (n key : Nat) (data : Word), s.cfg = .x → n < 2 → s.Reaches (O.TRK_CFG n) key → s.mode = 2 →
    s.flag (F.TRK_CFG.EN n) = true → bitOf data 0 = true → getBits data 2 2 ≠ s.fget (F.TRK_CFG.MODE n) →
    ∃ t, exec (.trkCfgWrite 0 n data) s = .next t ∧ t.flag (F.TRK_STAT.CFG_ERR n) = true ∧
      t.fget (F.TRK_CFG.MODE n) = s.fget (F.TRK_CFG.MODE n) ∧ t.out = s.out) ∧
  (∀ (s : State) (n key : Nat) (data : Word), s.cfg = .x → n < 2 → s.Reaches (O.TRK_CFG n) key → s.mode = 2 →
    s.flag (F.TRK_CFG.EN n) = true → bitOf data 0 = false →
    ∃ t, exec (.trkCfgWrite 0 n data) s = .next t ∧ t.out.getLast? = some (.trunkEn n false) ∧
      (t.trunk n).txPos = none ∧ (t.trunk n).urgent = []) ∧
  (∀ (s : State) (n key : Nat) (data : Word), s.cfg = .x → n < 2 → s.Reaches (O.TRK_CFG n) key → s.mode = 2 →
    s.flag (F.TRK_CFG.EN n) = false → bitOf data 0 = true →
    ∃ t, exec (.trkCfgWrite 0 n data) s = .next t ∧ t.flag (F.TRK_CFG.EN n) = true ∧
      t.fget (F.TRK_CFG.MODE n) = getBits data 2 2 ∧ t.out.getLast? = some (.trunkEn n true) ∧ (t.trunk n).txSeq = [] ∧
      (t.trunk n).txHist = scrambleInit) ∧
  (∀ (s : State) (n : Nat) (level : Bool), n < s.cfg.trunks →
    ∃ t, exec (.pmaLockChange n level) s = .next t ∧ (t.trunk n).pmaLock = level ∧
      t.flag (F.TRK_STAT.PMA_LOCK n) = level ∧
      (level = false → s.fget (F.TRK_STAT.DELIN n) = 2 →
        t.fget (F.TRK_STAT.DELIN n) = 0 ∧ t.flag (F.TRK_STAT.LOS n) = true)) ∧
  (∀ (s : State) (n f : Nat), n < s.cfg.trunks → s.flag (F.TRK_CFG.EN n) = true → 2 ≤ s.fget (F.TRK_CFG.MODE n) → f < 3 →
    s.stopped (8 + n) false = false → (s.trunk n).fault ≠ f →
    ∃ t, exec (.linkFaultReceive n f) s = .next t ∧ (t.trunk n).fault = f ∧
      t.out = (if s.stopped (8 + n) true then s.out else s.out ++ [.mii n f]) ∧
      (f ≠ 0 → (t.port (8 + n)).tx = none) ∧ ((f = 0 ∨ (s.port (8 + n)).tx = none) → t.regs = s.regs))

/-- Cells received (05_trunk_cells.md R138, R139, R141 to R144, R150, R153): the first header that fits takes Gweip-S from
HUNT to SYNC and makes a candidate in Gweip-X; in SYNC an idle cell whose header fits, or is corrected, is counted and ends
the run of bad headers; a bad header lengthens the run, and one that makes it LOSS long loses the delineation; a start cell
of an enabled channel begins a frame. Without an overhead cell by the 501st or 201st cell time the numbering starts anew.
Where the spec is open it follows the model's choices (notes/assumptions/48.md). -/
def Obligations.CellsReceived : Prop :=
  (∀ (s : State) (n ofs ph : Nat) (bs : List Byte), s.cellTrunk n = true → (s.trunk n).pmaLock = true →
    (s.trunk n).rxLost = false → bs.length = 64 → ofs < 512 → headerFits (headerOf bs) = true →
    (s.cfg = .s → s.fget (F.TRK_STAT.DELIN n) ≠ 2 →
      ∃ t, exec (.cellReceive n ofs bs ph) s = .next t ∧ t.fget (F.TRK_STAT.DELIN n) = 2 ∧ (t.trunk n).align = ofs ∧
        t.flag (F.TRK_STAT.LOCK n) = true) ∧
    (s.cfg = .x → s.fget (F.TRK_STAT.DELIN n) ≠ 2 → (∀ c ∈ (s.trunk n).cands, c.ofs ≠ ofs) →
      ∃ t, exec (.cellReceive n ofs bs ph) s = .next t ∧ t.fget (F.TRK_STAT.DELIN n) = 1 ∧
        (t.trunk n).cands.map (·.ofs) = (s.trunk n).cands.map (·.ofs) ++ [ofs] ∧ OnlyWords s t [O.TRK_STAT n])) ∧
  (∀ (s : State) (n w ph : Nat) (bs : List Byte), s.cellTrunk n = true → (s.trunk n).pmaLock = true →
    (s.trunk n).rxLost = false → bs.length = 64 → s.fget (F.TRK_STAT.DELIN n) = 2 → (s.trunk n).align < 512 →
    let h := headerOf bs
    ((headerFits h = true ∧ w = h) ∨
      (headerFits h = false ∧ s.flag (F.TRK_CFG.HCORR n) = true ∧ headerCorrect h = some w)) →
    judgeCell (w / 65536 / 2 ^ 22) (w / 65536 / 2 ^ 19 % 8) (w / 65536 / 2 ^ 13 % 64) = none →
    (w / 65536 / 2 ^ 19 % 8 = 0 →
      ∃ t, exec (.cellReceive n (s.trunk n).align bs ph) s = .next t ∧ t.fget (F.TRK_STAT.BAD_RUN n) = 0 ∧
        t.rd64 (O.TRK_CNT n 0) = (s.rd64 (O.TRK_CNT n 0) + 1) % 2 ^ 64 ∧
        t.rd64 (O.TRK_CNT n 1) = (s.rd64 (O.TRK_CNT n 1) + 1) % 2 ^ 64 ∧
        (headerFits h = false → t.rd64 (O.TRK_CNT n 5) = (s.rd64 (O.TRK_CNT n 5) + 1) % 2 ^ 64)) ∧
    (w / 65536 / 2 ^ 19 % 8 = 2 → s.flag (F.TRK_CHMAP.EN n (w / 65536 / 2 ^ 22)) = true →
      (headerFits h = true ∨ s.flag (F.TRK_PROT_STAT.SD n) = true ∨ (s.trunk n).sdBad + 1 ≤ s.fget (F.TRK_PROT_CFG.SD_THR n)) →
      s.flag (F.TRK_PROT_STAT.BLOCKED n) = false → (∀ k, (s.trunk n).pos = some k → k < s.slotsOf n) →
      ∃ t, exec (.cellReceive n (s.trunk n).align bs ph) s = .next t ∧
        (KMap.get {} (t.trunk n).chans (w / 65536 / 2 ^ 22)).asm = true ∧
        (KMap.get {} (t.trunk n).chans (w / 65536 / 2 ^ 22)).bytes =
          (natBe 58 (descramble (s.trunk n).rxHist (beNat (bs.drop 6))).1).take (w / 65536 / 2 ^ 13 % 64) ∧
        (KMap.get {} (t.trunk n).chans (w / 65536 / 2 ^ 22)).ref = some (w / 65536 / 2 ^ 9 % 16))) ∧
  (∀ (s : State) (n ph : Nat) (bs : List Byte), s.cellTrunk n = true → (s.trunk n).pmaLock = true →
    (s.trunk n).rxLost = false → bs.length = 64 → s.fget (F.TRK_STAT.DELIN n) = 2 → (s.trunk n).align < 512 →
    headerFits (headerOf bs) = false → (s.flag (F.TRK_CFG.HCORR n) = false ∨ headerCorrect (headerOf bs) = none) →
    ∃ t, exec (.cellReceive n (s.trunk n).align bs ph) s = .next t ∧
      t.rd64 (O.TRK_CNT n 4) = (s.rd64 (O.TRK_CNT n 4) + 1) % 2 ^ 64 ∧
      (s.fget (F.TRK_STAT.BAD_RUN n) + 1 < max 2 (s.fget (F.TRK_DELIN_CFG.LOSS n)) →
        t.fget (F.TRK_STAT.BAD_RUN n) = s.fget (F.TRK_STAT.BAD_RUN n) + 1 ∧ t.fget (F.TRK_STAT.DELIN n) = 2) ∧
      (max 2 (s.fget (F.TRK_DELIN_CFG.LOSS n)) ≤ s.fget (F.TRK_STAT.BAD_RUN n) + 1 →
        t.fget (F.TRK_STAT.DELIN n) = 0 ∧ t.flag (F.TRK_STAT.LOS n) = true)) ∧
  (∀ (s : State) (n k : Nat), s.cellTrunk n = true → (s.trunk n).pos = some k → s.cellsOf n + 1 ≤ k →
    ∃ t, exec (.superframeTimeout n) s = .next t ∧ (t.trunk n).pos = some (k - s.cellsOf n) ∧ (t.trunk n).broken = true ∧
      t.rd64 (O.TRK_CNT n 19) = (s.rd64 (O.TRK_CNT n 19) + 1) % 2 ^ 64)

/-- Cells sent (05_trunk_cells.md R134 to R136, R140, R146 to R149, R152): a trunk that sends no superframes sends idle
cells; the cell after a superframe instant is the overhead cell; a slack position carries an urgent cell, if one waits, or an
idle cell; a scheduled slot of a channel carries the next 58 bytes of the frame that the channel is sending. -/
def Obligations.CellsSent : Prop :=
  ∀ (s : State) (n ph : Nat), s.cellTrunk n = true → (s.trunk n).txLost = false → s.domOn (16 + n) = true →
    s.hmode (s.cfg.halfOfTrunk n) ≠ 0 → s.hmode (s.cfg.halfOfTrunk n) ≠ 7 →
    let lane (p : List Byte) : List Byte :=
      natBe 58 (scramble (s.trunk n).txHist (beNat (p ++ List.replicate (58 - p.length) 0))).1
    (s.sendsFrames n = false →
      ∃ t, exec (.cellSlot n ph) s = .next t ∧ t.out = s.out ++ [.cell n (headerBytes 0x00074000 ++ lane [])] ∧
        t.rd64 (O.TRK_CNT n 22) = (s.rd64 (O.TRK_CNT n 22) + 1) % 2 ^ 64 ∧
        t.rd64 (O.TRK_CNT n 23) = (s.rd64 (O.TRK_CNT n 23) + 1) % 2 ^ 64) ∧
    (∀ sfn, s.sendsFrames n = true → (s.trunk n).sfDue = some sfn →
      ∃ t, exec (.cellSlot n ph) s = .next t ∧
        t.out = s.out ++ [.cell n (headerBytes (0xFFCF4000 + 0x200 * (sfn % 16)) ++
          lane (s.overheadPayload n sfn (s.txStamp (8 + n) ph)))] ∧
        (t.trunk n).txPos = some 1 ∧ (t.trunk n).sfDue = none) ∧
    (∀ k, s.sendsFrames n = true → (s.trunk n).sfDue = none → (s.trunk n).txPos = some k → s.slotsOf n < k →
      ∃ t, exec (.cellSlot n ph) s = .next t ∧ (t.trunk n).txPos = some (k + 1) ∧
        t.out = s.out ++ [match (s.trunk n).urgent with
          | u :: _ => .cell n (headerBytes (0xFFB74000 + 0x200 * u.copy) ++ lane (s.urgentPayload u))
          | [] => .cell n (headerBytes 0x00074000 ++ lane [])] ∧
        (t.trunk n).urgent = (s.trunk n).urgent.tail) ∧
    (∀ k c f, s.sendsFrames n = true → (s.trunk n).sfDue = none → (s.trunk n).txPos = some k → 1 ≤ k → k ≤ s.slotsOf n →
      c = s.slot n (s.gearOfHalf (s.cfg.halfOfTrunk n)) (k - 1) → c ≠ 0 → s.csJoined = true →
      3 ≤ s.hmode (s.cfg.halfOfTrunk n) → s.hmode (s.cfg.halfOfTrunk n) ≤ 5 → s.flag (F.TRK_PROT_STAT.BLOCKED n) = false →
      KMap.find? (s.trunk n).txFrames c = some f → f.sent + 58 < f.bytes.length →
      ∃ t, exec (.cellSlot n ph) s = .next t ∧
        t.out = s.out ++ [.cell n (headerBytes (c * 2 ^ 22 + (if f.sent = 0 then 2 else 3) * 2 ^ 19 + 58 * 2 ^ 13 +
          KMap.get 0 (s.trunk n).txSeq c * 2 ^ 9 + f.copy.cls % 8 * 2 ^ 6) ++ lane (slice f.bytes f.sent 58))] ∧
        KMap.get 0 (t.trunk n).txSeq c = (KMap.get 0 (s.trunk n).txSeq c + 1) % 16 ∧
        (KMap.find? (t.trunk n).txFrames c).map (·.sent) = some (f.sent + 58))

/-- Superframes and management cells (06_trunk_overhead_gears_protection.md R158, R160, R161, R164, R168, R170, R182): the 10
µs instant of a half's time starts a superframe on every sending trunk of the half, and the leader's sets TRK_SFN; a payload
with a bad CRC is counted and dropped; a good overhead cell becomes the latest one of the trunk; an urgent cell of type 1
gives the latest request; one of type 2 or 3 of another node is relayed once; an urgent cell of an unknown type is counted.
Where the spec is open it follows the model's choices (notes/assumptions/43.md, notes/assumptions/78.md,
notes/assumptions/79.md). -/
def Obligations.SuperframesAndManagementCells : Prop :=
  (∀ (s : State) (h : Nat), s.tbRuns h = true →
    ∃ t, exec (.superframeInstant h) s = .next t ∧ (h = s.leader → t.fget F.TRK_SFN.SFN = sfnOf (s.tb h).t) ∧
      ∀ n, n < s.cfg.trunks → s.cfg.halfOfTrunk n = h → s.cellTrunk n = true → s.sendsFrames n = true →
        (s.trunk n).quiet ≤ 1 →
        (t.trunk n).sfDue = some (sfnOf (s.tb h).t) ∧ (t.trunk n).age = (s.trunk n).age + 1) ∧
  (∀ (s : State) (n : Nat) (p : List Byte) (rx : Int) (rest : List (List Byte × Int)), n < 2 → (s.trunk n).ohIn = (p, rx) :: rest →
    (payloadCrcGood p = false →
      ∃ t, exec (.overheadCellReceive n) s = .next t ∧ (t.trunk n).ohIn = rest ∧
        t.fget (F.TRK_OH_ERR.CRC_BAD n) = min (s.fget (F.TRK_OH_ERR.CRC_BAD n) + 1) 65535 ∧ OnlyWords s t [O.TRK_OH_ERR n]) ∧
    (payloadCrcGood p = true →
      ∃ t, exec (.overheadCellReceive n) s = .next t ∧ (t.trunk n).ohIn = rest ∧
        (t.trunk n).last = some (readOverhead p rx) ∧ (t.trunk n).prev = (s.trunk n).last ∧ (t.trunk n).age = 0)) ∧
  (∀ (s : State) (n : Nat) (p : List Byte) (rx : Int) (rest : List (List Byte × Int)), n < 2 → (s.trunk n).umIn = (p, rx) :: rest →
    (payloadCrcGood p = false →
      ∃ t, exec (.urgentCellReceive n) s = .next t ∧ (t.trunk n).umIn = rest ∧
        t.fget (F.TRK_OH_ERR.CRC_BAD n) = min (s.fget (F.TRK_OH_ERR.CRC_BAD n) + 1) 65535 ∧ OnlyWords s t [O.TRK_OH_ERR n]) ∧
    (payloadCrcGood p = true → beNat (slice p 0 1) = 1 →
      ∃ t, exec (.urgentCellReceive n) s = .next t ∧ (t.trunk n).umIn = rest ∧
        (t.trunk n).got = (normCode (beNat (slice p 4 1) / 16), beNat (slice p 3 1))) ∧
    (payloadCrcGood p = true → (beNat (slice p 0 1) = 2 ∨ beNat (slice p 0 1) = 3) → beNat (slice p 3 1) ≠ s.nodeId →
      ∃ t, exec (.urgentCellReceive n) s = .next t ∧ (t.trunk n).umIn = rest ∧
        (beNat (slice p 0 1), beNat (slice p 3 1), (if beNat (slice p 0 1) = 2 then beNat (slice p 4 1) % 4 else 0),
          beNat (slice p 6 4)) ∈ t.node.relayed) ∧
    (payloadCrcGood p = true → (beNat (slice p 0 1) = 0 ∨ 3 < beNat (slice p 0 1)) →
      ∃ t, exec (.urgentCellReceive n) s = .next t ∧ (t.trunk n).umIn = rest ∧
        t.fget (F.TRK_OH_ERR.UM_BAD n) = min (s.fget (F.TRK_OH_ERR.UM_BAD n) + 1) 255 ∧ OnlyWords s t [O.TRK_OH_ERR n]))

/-- Cold start (06_trunk_overhead_gears_protection.md R171): after the listen time a capable node sends cold-start cells;
after 8 cold-start superframes it is MASTER; an integrating node whose source's cell has been missing for 3 superframe times
returns to LISTEN. Where the spec is open it follows the model's choices (notes/assumptions/44.md). -/
def Obligations.ColdStart : Prop :=
  (∀ (s : State), s.csState = 1 → s.flag F.TRK_NODE.CS_CAP = true →
    ∃ t, exec .listenTimerExpiry s = .next t ∧ t.csState = 2 ∧ t.node.cold = 0 ∧ t.fget F.TRK_CS_STAT.MASTER_ID = s.nodeId ∧
      t.fget F.TRK_CS_STAT.HOPS = 0) ∧
  (∀ (s : State), s.csState = 2 → 8 ≤ s.node.cold →
    ∃ t, exec .coldsendComplete s = .next t ∧ t.csState = 5) ∧
  (∀ (s : State), s.csState = 3 → 3 ≤ (s.trunk (s.fget F.TRK_CS_STAT.SRC)).age →
    ∃ t, exec .sourceLossTimeout s = .next t ∧ t.csState = 1 ∧ t.fget F.TRK_CS_STAT.HOPS = 255 ∧ t.node.integ = 0)

/-- Slot tables, gears and shifts (06_trunk_overhead_gears_protection.md R174, R175, R177, R178): an entry of a gear that is
not valid is written and read back through TRK_SLOT_DATA, the address going on under AUTOINC; a gear in use is refused; a
gear's VALID bit is set only where its slot table passes the check, and GEAR_ERR shows one that does not. A shift request
ends with RESULT 3 at a node that is not the schedule master or has not joined, 4 while a shift is pending, 5 for the gear in
use or one that is not valid; otherwise the shift is pending, at PHASE 1. Where the spec is open it follows the model's
choices (notes/assumptions/45.md). -/
def Obligations.SlotTablesGearsAndShifts : Prop :=
  (∀ (s : State) (n key : Nat) (data : Word), n < 2 → s.Reaches (O.TRK_SLOT_DATA n) key →
    let g := s.fget (F.TRK_SLOT_ADDR.GEAR n)
    (s.fget (F.TRK_GEAR.VALID n) / 2 ^ g % 2 = 0 → s.mode ≠ 0 → s.mode ≠ 7 →
      ∃ t, exec (.trkSlotDataWrite 0 n data) s = .next t ∧ t.slot n g (s.slotNow n) = getBits data 0 10 ∧
        (∀ m f i, (m, f, i) ≠ (n, g, s.slotNow n) → m < 2 → f < 8 → i < 512 → t.slot m f i = s.slot m f i) ∧
        t.fget (F.TRK_SLOT_ADDR.SLOT n) =
          (if s.flag (F.TRK_SLOT_ADDR.AUTOINC n) then (s.slotNow n + 1) % 496 else s.fget (F.TRK_SLOT_ADDR.SLOT n))) ∧
    (s.fget (F.TRK_GEAR.VALID n) / 2 ^ g % 2 = 1 →
      ∃ t, exec (.trkSlotDataWrite 0 n data) s = .next t ∧ t.slv = some ⟨true, 0⟩ ∧ t.slots = s.slots ∧ t.regs = s.regs) ∧
    (s.mode ≠ 0 → s.mode ≠ 7 →
      ∃ t, exec (.trkSlotDataRead 0 n) s = .next t ∧ t.slv = some ⟨false, BitVec.ofNat 64 (s.slot n g (s.slotNow n))⟩ ∧
        t.slots = s.slots)) ∧
  (∀ (s : State) (n key : Nat) (data : Word), n < s.cfg.trunks → s.Reaches (O.TRK_GEAR n) key →
    ∃ t, exec (.gearValidWrite 0 n data) s = .next t ∧
      (∀ g, g < 8 → s.fget (F.TRK_GEAR.VALID n) / 2 ^ g % 2 = 0 →
        t.fget (F.TRK_GEAR.VALID n) / 2 ^ g % 2 =
          (if getBits data 8 8 / 2 ^ g % 2 = 1 ∧ s.gearFail n g (reliefOf (getBits data 16 2)) = none then 1 else 0)) ∧
      (∀ g i, g < 8 → s.fget (F.TRK_GEAR.VALID n) / 2 ^ g % 2 = 0 → getBits data 8 8 / 2 ^ g % 2 = 1 →
        s.gearFail n g (reliefOf (getBits data 16 2)) = some i → t.flag (F.TRK_GEAR.GEAR_ERR n) = true)) ∧
  (∀ (s : State) (key : Nat) (data : Word), s.Reaches O.TRK_SHIFT key →
      let g := getBits data F.TRK_SHIFT.TARGET.lo F.TRK_SHIFT.TARGET.wd
      ((s.flag F.TRK_NODE.SCHED_MASTER = false ∨ s.csJoined = false) →
        ∃ t, exec (.shiftRequest 0 data) s = .next t ∧ t.fget F.TRK_SHIFT.RESULT = 3 ∧ t.node = s.node) ∧
      (s.flag F.TRK_NODE.SCHED_MASTER = true → s.csJoined = true → s.shiftPending = true →
        ∃ t, exec (.shiftRequest 0 data) s = .next t ∧ t.fget F.TRK_SHIFT.RESULT = 4 ∧ t.node = s.node) ∧
      (s.flag F.TRK_NODE.SCHED_MASTER = true → s.csJoined = true → s.shiftPending = false →
        (g = s.gearOfHalf s.leader ∨ s.gearValid g = false) →
        ∃ t, exec (.shiftRequest 0 data) s = .next t ∧ t.fget F.TRK_SHIFT.RESULT = 5 ∧ t.node = s.node) ∧
      (s.flag F.TRK_NODE.SCHED_MASTER = true → s.csJoined = true → s.shiftPending = false →
        g ≠ s.gearOfHalf s.leader → s.gearValid g = true →
        ∃ t, exec (.shiftRequest 0 data) s = .next t ∧ t.fget F.TRK_SHIFT.PHASE = 1 ∧ t.node.shTarget = g ∧
          t.node.shOwn = true ∧
          t.fget F.TRK_SHIFT_SFN.N = (s.nextSfn + max (getBits data F.TRK_SHIFT.LEAD.lo F.TRK_SHIFT.LEAD.wd) 8) % 2 ^ 32))

/-- Switching requests (06_trunk_overhead_gears_protection.md R180, R181, R185): Forced Switch, Manual Switch and Lockout
become the node's own; a Manual Switch under a higher request is refused; a Clear ends all three; Signal Fail and Signal
Degrade become local requests; the end of Wait-to-Restore ends the owner's own request and blocks OWNER_PORT in IDLE. Where
the spec is open it follows the model's choices (notes/assumptions/46.md). -/
def Obligations.SwitchingRequests : Prop :=
  (∀ (s : State) (n key : Nat), s.cfg = .x → n < 2 → s.Reaches (O.TRK_PROT_CMD n) key →
    (s.node.lockout = false → (∀ m, m < 2 → s.fget (F.TRK_PROT_STAT.EFF_CODE m) ≠ 15) →
      ∃ t, exec (.forcedSwitch 0 n) s = .next t ∧ n ∈ t.node.forced) ∧
    (7 < s.topRequest.1 →
      ∃ t, exec (.manualSwitch 0 n) s = .next t ∧ t.flag (F.TRK_PROT_STAT.MS_REFUSED n) = true ∧ t.node = s.node) ∧
    (s.topRequest.1 ≤ 7 →
      ∃ t, exec (.manualSwitch 0 n) s = .next t ∧ n ∈ t.node.manual) ∧
    (∃ t, exec (.lockout 0 n) s = .next t ∧ t.node.lockout = true) ∧
    (∃ t, exec (.clearCommand 0 n) s = .next t ∧ t.node.lockout = false ∧ t.node.forced = [] ∧ t.node.manual = [])) ∧
  (∀ (s : State) (key : Nat), s.cfg = .s → s.Reaches (O.TRK_PROT_CMD 0) key →
    ∀ i ∈ [Instr.forcedSwitch 0 0, .manualSwitch 0 0, .lockout 0 0],
      ∃ t, exec i s = .next t ∧ t.node = s.node ∧ t.regs = s.regs) ∧
  (∀ (s : State) (n : Nat), s.cellTrunk n = true →
    (s.fget (F.TRK_STAT.DELIN n) ≠ 2 ∨ ((s.trunk n).last.isSome = true ∧ 3 ≤ (s.trunk n).age)) →
    ∃ t, exec (.signalFailLocal n) s = .next t ∧ (t.trunk n).sfHeld = true ∧ t.flag (F.TRK_PROT_STAT.SF n) = true) ∧
  (∀ (s : State) (n : Nat), s.cellTrunk n = true →
    ∃ t, exec (.sdWindowEnd n) s = .next t ∧ (t.trunk n).sdBad = 0 ∧
      t.flag (F.TRK_PROT_STAT.SD n) =
        (if s.fget (F.TRK_PROT_CFG.SD_THR n) < (s.trunk n).sdBad then true
         else if (s.trunk n).sdBad ≤ s.fget (F.TRK_PROT_CFG.SD_THR n) / 2 then false
         else s.flag (F.TRK_PROT_STAT.SD n))) ∧
  (∀ (s : State), s.ringRole = 2 → s.ringState = 2 → s.node.wtr = true → s.topRequest.1 = 5 → s.fget F.TRK_RING_CFG.OWNER_PORT < 2 →
    (∀ h, h < 2 → s.hmode h ≠ 6) →
    ∃ t, exec .wtrExpiry s = .next t ∧ t.node.wtr = false ∧ t.ringState = 0 ∧
      t.flag (F.TRK_PROT_STAT.BLOCKED (s.fget F.TRK_RING_CFG.OWNER_PORT)) = true)

/-- The ALU on registers (10_engine_instructions.md R266, R269): gd takes the result, the pc goes on, and cc changes only with
S: N and Z by the result, C and V by ADD and SUB, and 0 by the others. -/
def Obligations.AluOnRegisters : Prop :=
  ∀ (s : State) (e n slot busy ecc : Nat), ecc ≠ 2 →
    let w := s.fetchWord e n
    let a := s.greg e n (getBits w 18 4)
    let b := s.greg e n (getBits w 14 4)
    let k := b.toNat % 32
    ∀ x ∈ ([
        (.aluAdd, .add, a + b, decide (2 ^ 32 ≤ a.toNat + b.toNat), BitVec.saddOverflow a b),
        (.aluSub, .sub, a - b, decide (a.toNat < b.toNat), BitVec.ssubOverflow a b),
        (.aluAnd, .and, a &&& b, false, false), (.aluOr, .or, a ||| b, false, false), (.aluXor, .xor, a ^^^ b, false, false),
        (.aluAndn, .andn, a &&& ~~~b, false, false), (.aluShl, .shl, a <<< k, false, false),
        (.aluShr, .shr, a >>> k, false, false), (.aluSar, .sar, a.sshiftRight k, false, false),
        (.aluMul, .mul, a * b, false, false), (.aluMin, .min, if a.toInt ≤ b.toInt then a else b, false, false),
        (.aluMax, .max, if a.toInt ≤ b.toInt then b else a, false, false),
        (.aluMinu, .minu, if a.toNat ≤ b.toNat then a else b, false, false),
        (.aluMaxu, .maxu, if a.toNat ≤ b.toNat then b else a, false, false)] :
        List ((Nat → Nat → Nat → Nat → Nat → Instr) × Opc × Word × Bool × Bool)),
      s.Issues e n slot busy x.2.1 →
      ∃ t, exec (x.1 e n slot busy ecc) s = .next t ∧ TakesReg s t e n (getBits w 22 4) x.2.2.1 ∧ t.pcOf e n = s.pcNext e n ∧
        IssueFrame [] s t e n (getBits w 22 4) ∧
        (t.thr e n).cc = (if getBits w 4 1 = 1 then flagsOf x.2.2.1 x.2.2.2.1 x.2.2.2.2 else (s.thr e n).cc)

/-- Immediates, shifts, bit fields and CRC (10_engine_instructions.md R269, R270, R281): gd takes the result, the pc goes on and
cc stays. -/
def Obligations.ImmediatesAndBitFields : Prop :=
  ∀ (s : State) (e n slot busy ecc : Nat), ecc ≠ 2 →
    let w := s.fetchWord e n
    let a := s.greg e n (getBits w 18 4)
    let d := s.greg e n (getBits w 22 4)
    let imm : Word := BitVec.ofNat 32 (getBits w 0 18)
    let simm : Word := (BitVec.ofNat 18 (getBits w 0 18)).signExtend 32
    let k := getBits w 0 5
    let pos := getBits w 10 5
    let wd := getBits w 5 5 + 1
    ∀ x ∈ ([
        (.addi, .addi, a + simm), (.andi, .andi, a &&& imm), (.ori, .ori, a ||| imm), (.xori, .xori, a ^^^ imm),
        (.shiShl, .shiShl, a <<< k), (.shiShr, .shiShr, a >>> k), (.shiSar, .shiSar, a.sshiftRight k),
        (.shiRor, .shiRor, a.rotateRight k), (.lui, .lui, BitVec.ofNat 32 (getBits w 0 16 * 65536)),
        (.ext, .ext, if getBits w 17 1 = 1 then ((a >>> pos) <<< (32 - wd)).sshiftRight (32 - wd)
          else BitVec.ofNat 32 (getBits a pos wd)),
        (.ins, .ins, setBits d pos wd a.toNat),
        (.crc, .crc, BitVec.ofNat 32 (crcStep (getBits w 2 2) d.toNat (natBe (2 ^ getBits w 0 2) a.toNat)))] :
        List ((Nat → Nat → Nat → Nat → Nat → Instr) × Opc × Word)),
      s.Issues e n slot busy x.2.1 →
      ∃ t, exec (x.1 e n slot busy ecc) s = .next t ∧ TakesReg s t e n (getBits w 22 4) x.2.2 ∧ t.pcOf e n = s.pcNext e n ∧
        (t.thr e n).cc = (s.thr e n).cc ∧ IssueFrame [] s t e n (getBits w 22 4)

/-- Compare, branch and jump (10_engine_instructions.md R266, R267, R271): CMP and CMPI set cc from the difference; B goes on or
to pc + 4 × OFFSET as its condition holds; JAL and JALR leave pc + 4 in gd, JALR with ga as it was before. -/
def Obligations.CompareBranchJump : Prop :=
  ∀ (s : State) (e n slot busy ecc : Nat), ecc ≠ 2 →
    let w := s.fetchWord e n
    let a := s.greg e n (getBits w 18 4)
    let simm : Word := (BitVec.ofNat 18 (getBits w 0 18)).signExtend 32
    let pc : Word := BitVec.ofNat 32 (s.pcOf e n)
    (∀ x ∈ ([(.cmp, .cmp, s.greg e n (getBits w 14 4)), (.cmpi, .cmpi, simm)] :
        List ((Nat → Nat → Nat → Nat → Nat → Instr) × Opc × Word)),
      s.Issues e n slot busy x.2.1 →
      ∃ t, exec (x.1 e n slot busy ecc) s = .next t ∧
        (t.thr e n).cc = flagsOf (a - x.2.2) (decide (a.toNat < x.2.2.toNat)) (BitVec.ssubOverflow a x.2.2) ∧
        t.pcOf e n = s.pcNext e n ∧ IssueFrame [] s t e n 0 ∧ ∀ r, r < 16 → t.greg e n r = s.greg e n r) ∧
    (s.Issues e n slot busy .b →
      ∃ t, exec (.b e n slot busy ecc) s = .next t ∧ (t.thr e n).cc = (s.thr e n).cc ∧ IssueFrame [] s t e n 0 ∧
        (∀ r, r < 16 → t.greg e n r = s.greg e n r) ∧
        let N := decide ((s.thr e n).cc / 8 % 2 = 1)
        let Z := decide ((s.thr e n).cc / 4 % 2 = 1)
        let C := decide ((s.thr e n).cc / 2 % 2 = 1)
        let V := decide ((s.thr e n).cc % 2 = 1)
        let taken := [true, Z, !Z, N != V, N == V, C, !C, N, !N, V, !V, !Z && N == V, Z || N != V, !C && !Z, C || Z, false]
        t.pcOf e n = (if taken.getD (getBits w 22 4) false then
            (pc + 4 * (BitVec.ofNat 22 (getBits w 0 22)).signExtend 32).toNat % 32768
          else s.pcNext e n)) ∧
    (s.Issues e n slot busy .jal →
      ∃ t, exec (.jal e n slot busy ecc) s = .next t ∧ TakesReg s t e n (getBits w 22 4) (pc + 4) ∧
        IssueFrame [] s t e n (getBits w 22 4) ∧
        t.pcOf e n = (pc + 4 * simm).toNat % 32768) ∧
    (s.Issues e n slot busy .jalr →
      ∃ t, exec (.jalr e n slot busy ecc) s = .next t ∧ TakesReg s t e n (getBits w 22 4) (pc + 4) ∧
        IssueFrame [] s t e n (getBits w 22 4) ∧
        t.pcOf e n = ((a + simm) &&& 0x7FFC).toNat)

/-- Slice and shared memory (10_engine_instructions.md R272, R280; 09_engine_threads.md R238, R257): LD leaves the bytes at its
address in gd; ST stores the low bytes of gd there; an atomic leaves the old word in gd and stores the new one; no other
byte of any engine's memory changes. -/
def Obligations.SliceAndSharedMemory : Prop :=
  ∀ (s : State) (e n slot busy ecc : Nat), ecc < 2 →
    let w := s.fetchWord e n
    let a := s.greg e n (getBits w 18 4)
    let b := s.greg e n (getBits w 14 4)
    let d := s.greg e n (getBits w 22 4)
    let k := 2 ^ getBits w 16 2
    let net := decide (getBits w 15 1 = 1)
    let shared := decide (getBits w 14 1 = 1)
    let addr := (a + (BitVec.ofNat 13 (getBits w 0 13)).signExtend 32).toNat
    (∀ o, s.Issues e n slot busy .ld → s.dataPlace e n shared addr k = .inl o →
      ∃ t, exec (.ld e n slot busy ecc) s = .next t ∧ t.pcOf e n = s.pcNext e n ∧ IssueFrame [] s t e n (getBits w 22 4) ∧
        let v := orderNat net (s.ebytes e o k)
        TakesReg s t e n (getBits w 22 4)
          (if getBits w 13 1 = 1 ∧ 2 ^ (8 * k - 1) ≤ v then BitVec.ofNat 32 (v + 2 ^ 32 - 2 ^ (8 * k)) else BitVec.ofNat 32 v)) ∧
    (∀ o, s.Issues e n slot busy .st → s.dataPlace e n shared addr k = .inl o →
      (shared = true → foreignSplice n addr = false) → (shared = true → spliceBlockWord addr = false) →
      ∃ t, exec (.st e n slot busy ecc) s = .next t ∧ t.pcOf e n = s.pcNext e n ∧ IssueFrame [.emem] s t e n 0 ∧ (∀ r, r < 16 → t.greg e n r = s.greg e n r) ∧
        t.ebytes e o k = natOrder net k d.toNat ∧
        ∀ j, (j < ememKey e o ∨ ememKey e o + k ≤ j) → KMap.get 0 t.emem j = KMap.get 0 s.emem j) ∧
    (let o := 0x20000 + a.toNat
      let old : Word := BitVec.ofNat 32 (leNat (s.ebytes e o 4))
      ∀ x ∈ ([(.amoSwap, .amoSwap, b), (.amoAdd, .amoAdd, old + b), (.amoAnd, .amoAnd, old &&& b), (.amoOr, .amoOr, old ||| b),
          (.amoXor, .amoXor, old ^^^ b), (.amoCas, .amoCas, if old = d then b else old)] :
          List ((Nat → Nat → Nat → Nat → Nat → Instr) × Opc × Word)),
        s.Issues e n slot busy x.2.1 →
        (a.toNat % 4 = 0 → a.toNat ≤ 0x7FFF →
          ∃ t, exec (x.1 e n slot busy ecc) s = .next t ∧ t.pcOf e n = s.pcNext e n ∧ TakesReg s t e n (getBits w 22 4) old ∧
            IssueFrame [.emem] s t e n (getBits w 22 4) ∧
            t.ebytes e o 4 = natLe 4 x.2.2.toNat ∧
            ∀ j, (j < ememKey e o ∨ ememKey e o + 4 ≤ j) → KMap.get 0 t.emem j = KMap.get 0 s.emem j) ∧
        ∀ c, (a.toNat % 4 ≠ 0 ∧ c = 8 ∨ a.toNat % 4 = 0 ∧ 0x7FFF < a.toNat ∧ c = 3) →
          ∃ t, exec (x.1 e n slot busy ecc) s = .next t ∧ Faulted s t e n c) ∧
    (getBits w 26 6 = 0x1B → 6 ≤ getBits w 0 3 → decodeOp w = none)

/-- The bound frame (10_engine_instructions.md R273 to R276; 09_engine_threads.md R254 to R256): TAKE binds the head of the
receive queue, shows its first bytes in the frame window and leaves FINFO word 1 in gd, or reports an empty queue; FLD reads the
frame's bytes and FST changes them, past the end with V, and both wait for bytes not yet there; DISP ends the binding, with HOLD it
stays until FREE, with V for a KIND beyond 3; a FREE of a frame not disposed of ends the binding too; TRIG arms and disarms; FINFO
reports. Addresses are 32-bit sums. Where the spec is open it follows the model's choices (notes/assumptions/27.md,
notes/assumptions/38.md). -/
def Obligations.BoundFrames : Prop :=
  ∀ (s : State) (e n slot busy ecc : Nat), ecc < 2 →
    let w := s.fetchWord e n
    let a := s.greg e n (getBits w 18 4)
    let d := getBits w 22 4
    (s.Issues e n slot busy .take → (s.thr e n).bound = none →
      ((s.thr e n).rxq = [] →
        ∃ t, exec (.frmTake e n slot busy ecc) s = .next t ∧ TakesReg s t e n d 0 ∧ IssueFrame [] s t e n d ∧
          (t.thr e n).cc / 4 % 2 = 1 ∧ t.pcOf e n = s.pcNext e n) ∧
      ∀ f rest, (s.thr e n).rxq = f :: rest →
        ∃ t, exec (.frmTake e n slot busy ecc) s = .next t ∧ (t.thr e n).bound = some f ∧ (t.thr e n).fwp = 0 ∧
          (t.thr e n).trigs = [] ∧ (t.thr e n).disposed = false ∧ (t.thr e n).cc / 4 % 2 = 0 ∧ t.pcOf e n = s.pcNext e n ∧
          TakesReg s t e n d (BitVec.ofNat 32 ((s.frame f).finfo 1)) ∧ t.fget (F.CE_THR_STAT.BOUND e n) = 1 ∧
          (∀ b, 1 ≤ b → b ≤ 5 → t.flag (evtFld e n b) = false) ∧ t.frames = s.frames ∧
          ∀ j, j < 2048 → j < (s.frame f).bytes.length →
            t.ebyte e (0x30000 + 0x800 * n + j) = byteAt (s.frame f).bytes j) ∧
    (∀ f, (s.thr e n).bound = some f →
      let l := (rangeFrom ((s.thr e n).fwp + a.toNat + getBits w 0 14) (2 ^ getBits w 16 2)).map (· % 2 ^ 32)
      let act := readAct (a.toNat * 2 ^ 32 + (s.greg e n (getBits w 14 4)).toNat)
      (s.Issues e n slot busy .fld → s.frameWaits (s.frame f) l = false → s.poisoned (memParts (s.frame f) l) = false →
        (∀ p ∈ memParts (s.frame f) l, s.mayRead e p.1 = true) →
        ∃ t, exec (.fld e n slot busy ecc) s = .next t ∧ t.pcOf e n = s.pcNext e n ∧ IssueFrame [] s t e n d ∧
          TakesReg s t e n d
            (BitVec.ofNat 32 (beNat (l.map fun j => if (s.frame f).past j then 0 else byteAt (s.frame f).bytes j))) ∧
          (t.thr e n).cc % 2 = b2n (l.any (s.frame f).past)) ∧
      (s.Issues e n slot busy .fst → s.frameWaits (s.frame f) l = false → s.poisoned (memParts (s.frame f) l) = false →
        (∀ p ∈ memParts (s.frame f) l, s.mayWrite e p.1 = true) →
        ∃ t, exec (.fst e n slot busy ecc) s = .next t ∧ t.pcOf e n = s.pcNext e n ∧
          IssueFrame [.frames, .emem] s t e n 0 ∧ (∀ r, r < 16 → t.greg e n r = s.greg e n r) ∧
          (t.frame f).bytes.length = (s.frame f).bytes.length ∧
          (∀ j, j ∉ l → byteAt (t.frame f).bytes j = byteAt (s.frame f).bytes j) ∧
          (∀ x ∈ l.zip (natBe l.length (s.greg e n d).toNat), (s.frame f).past x.1 = false →
            byteAt (t.frame f).bytes x.1 = x.2) ∧
          (∀ g, g ≠ f → t.frame g = s.frame g) ∧
          (t.thr e n).cc % 2 = b2n (l.any (s.frame f).past)) ∧
      (s.frameWaits (s.frame f) l = true → ∀ x ∈ ([(.fld, .fld), (.fst, .fst)] :
          List ((Nat → Nat → Nat → Nat → Nat → Instr) × Opc)),
        s.Issues e n slot busy x.2 → exec (x.1 e n slot busy ecc) s = .next s) ∧
      (s.Issues e n slot busy .disp → (s.thr e n).disposed = false →
        (s.rtagKnown act (s.frame f) = true →
          ∃ t, exec (.frmDisp e n slot busy ecc) s = .next t ∧ t.pcOf e n = s.pcNext e n ∧
            (t.thr e n).cc % 2 = b2n (decide (2 ^ 31 ≤ a.toNat)) ∧
            (getBits w 4 1 = 0 → (t.thr e n).bound = none ∧ (t.thr e n).trigs = []) ∧
            (getBits w 4 1 = 1 → (t.thr e n).bound = some f ∧ (t.thr e n).trigs = (s.thr e n).trigs) ∧
            (t.thr e n).disposed = decide (getBits w 4 1 = 1)) ∧
        (s.rtagKnown act (s.frame f) = false → exec (.frmDisp e n slot busy ecc) s = .next s)) ∧
      (s.Issues e n slot busy .free →
        ∃ t, exec (.frmFree e n slot busy ecc) s = .next t ∧ (t.thr e n).bound = none ∧ (t.thr e n).disposed = false ∧
          (t.thr e n).trigs = [] ∧ t.pcOf e n = s.pcNext e n ∧
          t.fget (F.CE_THR_STAT.BOUND e n) = 0) ∧
      (s.Issues e n slot busy .arm →
        ∃ t, exec (.frmTrigArm e n slot busy ecc) s = .next t ∧ t.pcOf e n = s.pcNext e n ∧
          KMap.find? (t.thr e n).trigs (getBits w 4 2) = some (((s.thr e n).fwp + a.toNat) % 2 ^ 32) ∧
          t.flag (evtFld e n (1 + getBits w 4 2)) = false) ∧
      (s.Issues e n slot busy .disarm →
        ∃ t, exec (.frmTrigDisarm e n slot busy ecc) s = .next t ∧ t.pcOf e n = s.pcNext e n ∧ IssueFrame [] s t e n 0 ∧
          KMap.find? (t.thr e n).trigs (getBits w 4 2) = none) ∧
      (s.Issues e n slot busy .finfo →
        ∃ t, exec (.frmFinfo e n slot busy ecc) s = .next t ∧ t.pcOf e n = s.pcNext e n ∧ IssueFrame [] s t e n d ∧
          TakesReg s t e n d (BitVec.ofNat 32 ((s.frame f).finfo (getBits w 4 3)))))

/-- Splices, special registers, time and check feeds (10_engine_instructions.md R263, R277, R279, R282; 09_engine_threads.md R251,
R257, R258): SPL makes the entry BUSY and its edit, with the bytes of its source at that moment, waits to be fetched, and one of an
entry still BUSY waits; MFS and MTS move cc, fwp and the timer; TIME leaves
the time of the engine's half in three registers; CHKF clears V when the unit takes the bytes, those beyond its length setting OVERFEED, sets V when it refuses, and waits for a unit
that is about to re-arm. -/
def Obligations.SplicesAndSpecialRegisters : Prop :=
  ∀ (s : State) (e n slot busy ecc : Nat), ecc < 2 →
    let w := s.fetchWord e n
    let a := s.greg e n (getBits w 18 4)
    let d := getBits w 22 4
    (∀ f, s.Issues e n slot busy .spl → (s.thr e n).bound = some f →
      let x := 8 * n + getBits w 0 3
      let w0 := s.spliceWord e x 0
      let w2 := s.spliceWord e x 2
      let p := getBits w0 24 4
      let len := getBits w2 0 8 + 1
      (bitOf (s.spliceWord e x 3) 31 = true → exec (.spl e n slot busy ecc) s = .next s) ∧
      (bitOf (s.spliceWord e x 3) 31 = false → getBits w0 30 2 ≠ 3 → s.editPort p = true →
        ∀ bs, (getBits w0 30 2 = 2 ∧ bs = [BitVec.ofNat 8 (getBits w2 16 8)] ∨
            getBits w0 30 2 ≠ 2 ∧ ∃ o, s.spliceSource e n (s.spliceWord e x 1) len = some o ∧ bs = s.ebytes e o len) →
        ∃ t, exec (.spl e n slot busy ecc) s = .next t ∧ t.pcOf e n = s.pcNext e n ∧ bitOf (t.spliceWord e x 3) 31 = true ∧
          IssueFrame [.emem, .splices] s t e n 0 ∧
          t.splices = s.splices ++ [{ port := p, edit :=
            { fid := f, w := getBits w0 0 14, ins := decide (getBits w0 30 2 = 1), bytes := bs, thread := 8 * e + n, entry := x } }])) ∧
    (s.Issues e n slot busy .mfs →
      ∃ t, exec (.mfs e n slot busy ecc) s = .next t ∧ t.pcOf e n = s.pcNext e n ∧
        TakesReg s t e n d
          (if getBits w 0 3 = 0 then BitVec.ofNat 32 (s.thr e n).cc else if getBits w 0 3 = 1 then BitVec.ofNat 32 (s.thr e n).fwp
           else if getBits w 0 3 = 2 then BitVec.ofNat 32 n else if getBits w 0 3 = 3 then BitVec.ofNat 32 e
           else s.rd (O.CE_THR_TIMER e n)) ∧ IssueFrame [] s t e n d) ∧
    (s.Issues e n slot busy .mts →
      ∃ t, exec (.mts e n slot busy ecc) s = .next t ∧ t.pcOf e n = s.pcNext e n ∧
        (getBits w 0 3 = 0 → (t.thr e n).cc = getBits a 0 4) ∧ (getBits w 0 3 = 1 → (t.thr e n).fwp = getBits a 0 14) ∧
        (getBits w 0 3 = 4 → t.rd (O.CE_THR_TIMER e n) = a) ∧ ∀ r, r < 16 → t.greg e n r = s.greg e n r) ∧
    (s.Issues e n slot busy .time →
      let τ := (s.tb (s.cfg.halfOfEngine e)).t
      ∃ t, exec (.time e n slot busy ecc) s = .next t ∧ t.pcOf e n = s.pcNext e n ∧
        t.greg e n d = BitVec.ofNat 32 (timeNs τ) ∧ t.greg e n (d + 1) = BitVec.ofNat 32 (timeSec τ) ∧
        t.greg e n (d + 2) = BitVec.ofNat 32 (timeSec τ / 2 ^ 32 % 65536 * 65536 + timeFrac τ) ∧
        ∀ r, r < 16 → (r < d ∨ d + 2 < r) → t.greg e n r = s.greg e n r) ∧
    (getBits w 26 6 = 0x1A → (d = 0 ∨ 13 < d) → decodeOp w = none) ∧
    (s.Issues e n slot busy .chkf →
      let u := getBits w 2 2
      ((s.chkUp u = false ∨ chkHalf s.cfg u ≠ s.cfg.halfOfEngine e ∨ s.flag (F.CHK_CFG.SRC u) = false ∨
          s.flag (F.CHK_STAT.STATE u) = false ∨ (s.chkNeeds u = 0 ∧ s.flag (F.CHK_CTL.REARM u) = false)) →
        ∃ t, exec (.chkf e n slot busy ecc) s = .next t ∧ (t.thr e n).cc % 2 = 1 ∧ t.chks = s.chks ∧ t.pcOf e n = s.pcNext e n) ∧
      (s.chkUp u = true → chkHalf s.cfg u = s.cfg.halfOfEngine e → s.flag (F.CHK_CFG.SRC u) = true →
        s.flag (F.CHK_STAT.STATE u) = true →
        (s.chkNeeds u ≠ 0 →
          ∃ t, exec (.chkf e n slot busy ecc) s = .next t ∧ (t.thr e n).cc % 2 = 0 ∧ t.pcOf e n = s.pcNext e n ∧
            (t.chk u).taken = (s.chk u).taken + min (2 ^ getBits w 0 2) (s.chkNeeds u) ∧ (t.chk u).feeder = some (8 * e + n) ∧
            (s.chkNeeds u < 2 ^ getBits w 0 2 → t.flag (F.CHK_STAT.OVERFEED u) = true) ∧
            ∀ v, v ≠ u → t.chk v = s.chk v) ∧
        (s.chkNeeds u = 0 → s.flag (F.CHK_CTL.REARM u) = true → exec (.chkf e n slot busy ecc) s = .next s)))

/-- Events, waits and timers (10_engine_instructions.md R278; 09_engine_threads.md R250, R251, R258): WAIT with a selected event
pending, or with an empty mask, leaves the selected pending bits in gd; otherwise the thread waits, and goes on when one is
pending; SIG reaches a released thread of the cluster; a timer that ends stops and sets TIMER; a host event sets HOST; a
fetched splice goes to its port, or is reported FULL where 32 edits or 2,048 bytes leave it no room. -/
def Obligations.EventsAndWaits : Prop :=
  (∀ (s : State) (e n slot busy ecc : Nat), ecc ≠ 2 →
    let w := s.fetchWord e n
    let a := s.greg e n (getBits w 18 4)
    let mask := Nat.lor (getBits w 0 16) (getBits a 0 16)
    (s.Issues e n slot busy .wait → (mask = 0 ∨ Nat.land (s.pendEvents e n) mask ≠ 0) →
      ∃ t, exec (.wait e n slot busy ecc) s = .next t ∧ t.pcOf e n = s.pcNext e n ∧ t.thrState e n = s.thrState e n ∧
        TakesReg s t e n (getBits w 22 4) (BitVec.ofNat 32 (Nat.land (s.pendEvents e n) mask)) ∧
        ∀ b, b < 16 → t.flag (evtFld e n b) =
          (s.flag (evtFld e n b) && !(mask.testBit b && decide (b ≠ 0 ∧ b ≠ 10 ∧ b ≠ 12)))) ∧
    (s.Issues e n slot busy .wait → mask ≠ 0 → Nat.land (s.pendEvents e n) mask = 0 →
      ∃ t, exec (.wait e n slot busy ecc) s = .next t ∧ t.thrState e n = 2 ∧ (t.thr e n).mask = mask ∧
        (t.thr e n).dest = getBits w 22 4 ∧ t.pcOf e n = s.pcOf e n) ∧
    (s.Issues e n slot busy .sig →
      let u := getBits a 3 4
      let m := getBits a 0 3
      (u < s.cfg.engines → s.cfg.clusterOf u = s.cfg.clusterOf e → s.thrState u m ≠ 0 →
        ∃ t, exec (.sig e n slot busy ecc) s = .next t ∧ t.flag (evtFld u m 9) = true ∧ (t.thr e n).cc % 2 = 0 ∧
          t.pcOf e n = s.pcNext e n) ∧
      ((s.cfg.engines ≤ u ∨ s.cfg.clusterOf u ≠ s.cfg.clusterOf e ∨ s.thrState u m = 0) →
        ∃ t, exec (.sig e n slot busy ecc) s = .next t ∧ (t.thr e n).cc % 2 = 1 ∧ t.pcOf e n = s.pcNext e n))) ∧
  (∀ (s : State) (e n : Nat), n < 8 → s.engineRuns e = true → s.thrState e n = 2 →
    Nat.land (s.pendEvents e n) (s.thr e n).mask ≠ 0 → (s.thr e n).dest < 16 →
    ∃ t, exec (.eventWaitComplete e n) s = .next t ∧ t.thrState e n = 1 ∧ t.pcOf e n = s.pcNext e n ∧
      TakesReg s t e n (s.thr e n).dest (BitVec.ofNat 32 (Nat.land (s.pendEvents e n) (s.thr e n).mask))) ∧
  (∀ (s : State) (e n : Nat), e < 12 → n < 8 → s.engineOn e = true → s.rd (O.CE_THR_TIMER e n) ≠ 0 →
    ∃ t, exec (.threadTimerExpiry e n) s = .next t ∧ t.rd (O.CE_THR_TIMER e n) = 0 ∧ t.flag (evtFld e n 8) = true ∧
      OnlyWords s t [O.CE_THR_TIMER e n, O.CE_THR_EVT e n]) ∧
  (∀ (s : State) (e n key : Nat), e < 12 → n < 8 → s.Reaches (O.CE_THR_EVT e n) key →
    ∃ t, exec (.hostEvent 0 e n) s = .next t ∧ t.flag (evtFld e n 15) = true ∧ OnlyWords s t [O.CE_THR_EVT e n]) ∧
  (∀ (s : State) (x : Splice) (rest : List Splice), s.splices = x :: rest → x.port < 10 → x.edit.thread < 96 →
    let waiting := (s.port x.port).edits ++ (s.port x.port).coming
    let full := decide (32 ≤ waiting.length ∨ 2048 < waiting.foldl (fun a y => a + y.bytes.length) 0 + x.edit.bytes.length)
    let word (t : State) := t.spliceWord (x.edit.thread / 8) x.edit.entry 3
    ∃ t, exec .spliceFetchDone s = .next t ∧ t.splices = rest ∧ bitOf (word t) 31 = false ∧ bitOf (word t) 30 = !full ∧
      (full = false → (t.port x.port).coming = (s.port x.port).coming ++ [x.edit]) ∧
      (full = true → (t.port x.port).coming = (s.port x.port).coming ∧ bitOf (word t) 28 = true ∧
        t.flag (F.MAC_EDIT_STAT.FULL x.port) = true ∧ t.flag (evtFld (x.edit.thread / 8) (x.edit.thread % 8) 7) = true))

/-- Thread control by the master (10_engine_instructions.md R283; 09_engine_threads.md R244, R245): a stopped thread's pc, slice
and registers can be set, those of another are refused with V; TREL releases or reports a bad slice, and one that a halt meets in its cycle is a
collision; THLT halts, the
master's pc going on; TST and TGR read; outside the master every one of them faults with FCAUSE 7. -/
def Obligations.ThreadControl : Prop :=
  (∀ (s : State) (e n slot busy ecc : Nat), ecc ≠ 2 → s.isMaster e n = true →
    let w := s.fetchWord e n
    let a := s.greg e n (getBits w 18 4)
    let m := getBits w 4 3
    let r := getBits w 7 4
    (s.thrStopped e m = true →
      (s.Issues e n slot busy .tpc →
        ∃ t, exec (.thcTpc e n slot busy ecc) s = .next t ∧ t.pcOf e m = getBits a 0 15 / 4 * 4 ∧ (t.thr e n).cc % 2 = 0 ∧
          t.pcOf e n = s.pcNext e n) ∧
      (s.Issues e n slot busy .tslc →
        ∃ t, exec (.thcTslc e n slot busy ecc) s = .next t ∧ t.fget (F.CE_THR_SLICE.BASE e m) = getBits a 8 8 ∧
          t.fget (F.CE_THR_SLICE.SIZE_M1 e m) = getBits a 0 8 ∧ (t.thr e n).cc % 2 = 0 ∧ t.pcOf e n = s.pcNext e n) ∧
      (s.Issues e n slot busy .tgw →
        ∃ t, exec (.thcTgw e n slot busy ecc) s = .next t ∧ TakesReg s t e m r a ∧ (t.thr e n).cc % 2 = 0 ∧
          t.pcOf e n = s.pcNext e n)) ∧
    (s.thrStopped e m = false →
      ∀ x ∈ ([(.thcTpc, .tpc), (.thcTslc, .tslc), (.thcTgw, .tgw)] : List ((Nat → Nat → Nat → Nat → Nat → Instr) × Opc)),
        s.Issues e n slot busy x.2 →
        ∃ t, exec (x.1 e n slot busy ecc) s = .next t ∧ (t.thr e n).cc % 2 = 1 ∧ t.pcOf e n = s.pcNext e n ∧
          t.rd (O.CE_THR_SLICE e m) = s.rd (O.CE_THR_SLICE e m) ∧ ∀ g, g < 16 → t.greg e m g = s.greg e m g) ∧
    (s.Issues e n slot busy .tgr →
      ∃ t, exec (.thcTgr e n slot busy ecc) s = .next t ∧ TakesReg s t e n (getBits w 22 4) (s.greg e m r) ∧
        t.pcOf e n = s.pcNext e n) ∧
    (s.Issues e n slot busy .tst →
      ∃ t, exec (.thcTst e n slot busy ecc) s = .next t ∧ TakesReg s t e n (getBits w 22 4) (s.rd (O.CE_THR_STAT e m)) ∧
        t.pcOf e n = s.pcNext e n) ∧
    (∀ met, s.Issues e n slot busy .trel →
      ∃ t, exec (.thcTrel e n slot busy ecc met) s = .next t ∧ t.pcOf e n = s.pcNext e n ∧
        ∀ k, k < 8 → (bitOf a k = false → t.thrState e k = s.thrState e k) ∧
          (bitOf a k = true → bitOf (BitVec.ofNat 32 met) k = true → t.flag (F.CE_THR_STAT.COLLIDE e k) = true ∧
            t.thrState e k = (if s.thrStopped e k = true then s.thrState e k else 3)) ∧
          (bitOf a k = true → bitOf (BitVec.ofNat 32 met) k = false →
            (s.thrStopped e k = false → t.thrState e k = s.thrState e k) ∧
            (s.thrStopped e k = true → t.thrState e k = 1 ∨ t.flag (F.CE_THR_STAT.SLICE_ERR e k) = true) ∧
            (s.thrStopped e k = true → (∀ j, j < 8 → j ≠ k → bitOf a j = false) →
              if s.sliceOk e k = true then t.thrState e k = 1 ∧ t.fget (F.CE_THR_STAT.FCAUSE e k) = 0
              else t.thrState e k = s.thrState e k ∧ t.flag (F.CE_THR_STAT.SLICE_ERR e k) = true))) ∧
    (s.Issues e n slot busy .thlt →
      ∃ t, exec (.thcThlt e n slot busy ecc) s = .next t ∧ t.pcOf e n = s.pcNext e n ∧
        ∀ k, k < 8 → t.thrState e k = (if bitOf a k = true ∧ s.thrStopped e k = false then 3 else s.thrState e k))) ∧
  (∀ (s : State) (e n slot busy ecc met : Nat), ecc ≠ 2 → s.isMaster e n = false →
    ∀ x ∈ ([(.thcTpc, .tpc), (.thcTslc, .tslc), (.thcTgw, .tgw), (.thcTgr, .tgr),
        (fun e n slot busy ecc => .thcTrel e n slot busy ecc met, .trel), (.thcThlt, .thlt), (.thcTst, .tst)] :
        List ((Nat → Nat → Nat → Nat → Nat → Instr) × Opc)),
      s.Issues e n slot busy x.2 → ∃ t, exec (x.1 e n slot busy ecc) s = .next t ∧ Faulted s t e n 7)

/-- Faults of a thread (10_engine_instructions.md R273, R277, R284; 09_engine_threads.md R237, R244): an illegal encoding, an uncorrectable
error in the fetch or in a data access, a bad address, a store to another thread's splice entry, a frame instruction without a bound
frame, a second TAKE or DISP, a bad splice and a poisoned byte leave the thread FAULTED with the cause and its pc, and nothing else of
the instruction is done. -/
def Obligations.ThreadFaults : Prop :=
  ∀ (s : State) (e n slot busy ecc : Nat), n < 8 → s.engineRuns e = true → (s.wheelPick e slot busy).map Prod.fst = some n →
    let w := s.fetchWord e n
    let a := s.greg e n (getBits w 18 4)
    let k := 2 ^ getBits w 16 2
    let shared := decide (getBits w 14 1 = 1)
    let addr := (a + (BitVec.ofNat 13 (getBits w 0 13)).signExtend 32).toNat
    let faults (i : Instr) (cause : Nat) : Prop := ∃ t, exec i s = .next t ∧ Faulted s t e n cause
    (ecc ≠ 2 → decodeOp w = none → faults (.illegalInstruction e n slot busy ecc) 1) ∧
    (ecc = 2 → faults (.illegalInstruction e n slot busy ecc) 5 ∧ faults (.aluAdd e n slot busy ecc) 5) ∧
    (ecc ≠ 2 →
      (decodeOp w = some .ld →
        (∀ c, s.dataPlace e n shared addr k = .inr c → faults (.ld e n slot busy ecc) c) ∧
        (∀ o, s.dataPlace e n shared addr k = .inl o → ecc = 3 → faults (.ld e n slot busy ecc) 5)) ∧
      (decodeOp w = some .st →
        (∀ c, s.dataPlace e n shared addr k = .inr c → faults (.st e n slot busy ecc) c) ∧
        (∀ o, s.dataPlace e n shared addr k = .inl o →
          (shared = true ∧ foreignSplice n addr = true → faults (.st e n slot busy ecc) 3) ∧
          (¬ (shared = true ∧ foreignSplice n addr = true) → ecc = 3 → faults (.st e n slot busy ecc) 5))) ∧
      (decodeOp w = some .amoAdd → a.toNat % 4 = 0 → a.toNat ≤ 0x7FFF → ecc = 3 → faults (.amoAdd e n slot busy ecc) 5) ∧
      (decodeOp w = some .take → (s.thr e n).bound.isSome = true → faults (.frmTake e n slot busy ecc) 4) ∧
      (decodeOp w = some .disp → (s.thr e n).bound.isSome = true → (s.thr e n).disposed = true →
        faults (.frmDisp e n slot busy ecc) 4) ∧
      ((s.thr e n).bound = none →
        ∀ x ∈ ([(.fld, .fld), (.fst, .fst), (.frmDisp, .disp), (.frmFree, .free), (.frmTrigArm, .arm), (.frmTrigDisarm, .disarm),
            (.frmFinfo, .finfo), (.spl, .spl)] : List ((Nat → Nat → Nat → Nat → Nat → Instr) × Opc)),
          decodeOp w = some x.2 → faults (x.1 e n slot busy ecc) 4) ∧
      (∀ f, (s.thr e n).bound = some f →
        let l := (rangeFrom ((s.thr e n).fwp + a.toNat + getBits w 0 14) k).map (· % 2 ^ 32)
        let x := 8 * n + getBits w 0 3
        let w0 := s.spliceWord e x 0
        let badSplice := getBits w0 30 2 = 3 ∨ s.editPort (getBits w0 24 4) = false ∨
          (getBits w0 30 2 ≠ 2 ∧ s.spliceSource e n (s.spliceWord e x 1) (getBits (s.spliceWord e x 2) 0 8 + 1) = none)
        (s.frameWaits (s.frame f) l = false →
          ∀ x ∈ ([(.fld, .fld), (.fst, .fst)] : List ((Nat → Nat → Nat → Nat → Nat → Instr) × Opc)), decodeOp w = some x.2 →
            (s.poisoned (memParts (s.frame f) l) = true → faults (x.1 e n slot busy ecc) 6) ∧
            (s.poisoned (memParts (s.frame f) l) = false → ecc = 3 → faults (x.1 e n slot busy ecc) 5)) ∧
        (decodeOp w = some .spl → bitOf (s.spliceWord e x 3) 31 = false →
          (badSplice → faults (.spl e n slot busy ecc) 9) ∧ (¬ badSplice → ecc = 3 → faults (.spl e n slot busy ecc) 5))))

/-- The host's control of threads (09_engine_threads.md R242, R244, R247, R248): a release makes a stopped thread RUNNING, or
sets SLICE_ERR where its slice is not accepted; a halt makes it HALTED; both in one cycle, from one write or from two sources, are a
collision and halt; RUN is set only in modes 1 to 5 and releases thread 0, or in the compatible mode every thread at its own start;
clearing it halts every thread. -/
def Obligations.HostControlOfThreads : Prop :=
  (∀ (s : State) (e n key : Nat) (data : Word) (met : Bool), e < 12 → n < 8 → s.Reaches (O.CE_THR_CTL e n) key →
    (bitOf data 1 = false → met = false → s.thrStopped e n = true → s.sliceOk e n = true →
      ∃ t, exec (.threadRelease 0 e n data met) s = .next t ∧ t.thrState e n = 1 ∧ t.fget (F.CE_THR_STAT.FCAUSE e n) = 0 ∧
        OnlyWords s t [O.CE_THR_STAT e n]) ∧
    (bitOf data 1 = false → met = false → s.thrStopped e n = true → s.sliceOk e n = false →
      ∃ t, exec (.threadRelease 0 e n data met) s = .next t ∧ t.thrState e n = s.thrState e n ∧
        t.flag (F.CE_THR_STAT.SLICE_ERR e n) = true) ∧
    (bitOf data 1 = false → met = false → s.thrStopped e n = false →
      ∃ t, exec (.threadRelease 0 e n data met) s = .next t ∧ t.slv = some ⟨false, 0⟩ ∧ t.regs = s.regs) ∧
    ((bitOf data 1 = true ∨ met = true) →
      ∃ t, exec (.threadRelease 0 e n data met) s = .next t ∧ t.flag (F.CE_THR_STAT.COLLIDE e n) = true ∧
        t.thrState e n = (if s.thrStopped e n = true then s.thrState e n else 3) ∧
        t.rd64 (O.CE_CNT e 7) = (s.rd64 (O.CE_CNT e 7) + 1) % 2 ^ 64) ∧
    (bitOf data 0 = false →
      ∃ t, exec (.threadHalt 0 e n data) s = .next t ∧ OnlyWords s t [O.CE_THR_STAT e n] ∧
        t.thrState e n = (if s.thrStopped e n = true then s.thrState e n else 3))) ∧
  (∀ (s : State) (e key met : Nat) (data : Word), e < 12 → s.Reaches (O.CE_CTL e) key →
    let m := s.hmode (s.cfg.halfOfEngine e)
    let halt (n : Nat) := decide (met / 2 ^ n % 2 = 1)
    ((m = 0 ∨ 5 < m) →
      ∃ t, exec (.runSet 0 e data met) s = .next t ∧ t.slv = some ⟨true, 0⟩ ∧ t.regs = s.regs) ∧
    (1 ≤ m → m ≤ 5 →
      ∃ t, exec (.runSet 0 e data met) s = .next t ∧ t.flag (F.CE_CTL.RUN e) = true ∧
        (s.flag (F.CE_CTL.RUN e) = false → s.flag (F.CE_CTL.COMPAT e) = false → bitOf data 2 = false →
          (halt 0 = false → s.thrStopped e 0 = true → s.sliceOk e 0 = true → t.thrState e 0 = 1) ∧
          (halt 0 = true → t.flag (F.CE_THR_STAT.COLLIDE e 0) = true ∧
            t.thrState e 0 = (if s.thrStopped e 0 = true then s.thrState e 0 else 3)) ∧
          ∀ n, 1 ≤ n → n < 8 → t.thrState e n = s.thrState e n) ∧
        (s.flag (F.CE_CTL.RUN e) = false → bitOf data 2 = true → (∀ n, n < 8 → s.thrState e n = 0) →
          ∀ n, n < 8 → (halt n = false → t.thrState e n = 1 ∧ t.pcOf e n = 0x100 * n) ∧
            (halt n = true → t.thrState e n = 0 ∧ t.flag (F.CE_THR_STAT.COLLIDE e n) = true))) ∧
    (s.flag (F.CE_CTL.RUN e) = true →
      ∃ t, exec (.runClear 0 e data) s = .next t ∧ t.flag (F.CE_CTL.RUN e) = false ∧
        ∀ n, n < 8 → t.thrState e n = (if s.thrStopped e n = true then s.thrState e n else 3)) ∧
    (s.flag (F.CE_CTL.RUN e) = false →
      ∃ t, exec (.runClear 0 e data) s = .next t ∧ t.flag (F.CE_CTL.RUN e) = false ∧
        ∀ n, n < 8 → t.thrState e n = s.thrState e n))

/-- The parse pipeline (07_parse_graph.md R191, R192, R197, R199, R202, R203, R210): the next offered frame enters under the
course that its half uses; a step of a node that is not terminal goes on to the node that its transitions give, its position moved by
the advance; a terminal node ends the parse with its class, which is counted, and the result waits for the classifier; a step that would
read byte 256 or beyond ends it as incomplete. The model's choice: a parse ends only with the destination known
(notes/assumptions/27.md). -/
def Obligations.ParsePipeline : Prop :=
  (∀ (s : State) (h f : Nat) (c : Course), h < 2 → s.nextEntry h = some f → s.curCourseOf h = some c → (s.pipe h).flight.length < 16 →
    ∃ t, exec (.parseEntry h) s = .next t ∧ (t.pipe h).flight = (s.pipe h).flight ++ [f] ∧
      (t.pipe h).offered = (s.pipe h).offered.erase f ∧ (t.frame f).course = c.num ∧ (t.frame f).parse.stage = 1 ∧
      (t.frame f).parse.slot = c.slot ∧ (t.frame f).parse.node = 0 ∧ (t.frame f).bytes = (s.frame f).bytes) ∧
  (∀ (s : State) (h i f : Nat), h < 2 → (s.pipe h).flight[i]? = some f →
    let q := (s.frame f).parse
    let w := fun k => s.nodeWord h q.slot q.node k
    let n := readNode w
    q.pos < 256 → (∀ j ∈ n.reads q.pos, j < 256 ∧ (s.frame f).known j = true) →
    (n.term = true → (s.frame f).dstKnown = false → exec (.parseStep h i) s = .next s) ∧
    ((s.frame f).headKnown = true → n.term = false → q.steps + 1 < 24 →
      ∃ t, exec (.parseStep h i) s = .next t ∧ (t.frame f).parse.steps = q.steps + 1 ∧
        (t.frame f).parse.node = (nextNode w n (Nat.land (selectField n.width ((rangeFrom n.selOfs n.selBytes).map fun k =>
          if n.selMeta then byteAt (metaBytes (s.frame f)) k else (s.frame f).parseByte (q.pos + k))) n.mask)).1 ∧
        (n.advMask = 0 → (t.frame f).parse.pos = q.pos + n.advConst) ∧ t.pipes = s.pipes ∧ t.regs = s.regs) ∧
    ((s.frame f).headKnown = true → n.term = true → q.key.length = 64 → q.incomplete < 64 →
      ∃ t, exec (.parseStep h i) s = .next t ∧ (t.frame f).parse.stage = 2 ∧
        byteAt (t.frame f).parse.key 0 = BitVec.ofNat 8 n.cls ∧ (t.pipe h).results = (s.pipe h).results ++ [f] ∧
        (t.pipe h).flight = (s.pipe h).flight.erase f ∧
        t.rd64 (O.PRS_CNT h 0) = (s.rd64 (O.PRS_CNT h 0) + 1) % 2 ^ 64 ∧
        t.rd64 (O.PRS_CNT h 1) = (s.rd64 (O.PRS_CNT h 1) + 1) % 2 ^ 64)) ∧
  (∀ (s : State) (h i f : Nat), h < 2 → (s.pipe h).flight[i]? = some f →
    let q := (s.frame f).parse
    let n := readNode fun k => s.nodeWord h q.slot q.node k
    (256 ≤ q.pos ∨ ∃ j ∈ n.reads q.pos, 256 ≤ j) → (s.frame f).headKnown = true → q.key.length = 64 → q.incomplete < 64 →
    ∃ t, exec (.parseStep h i) s = .next t ∧ (t.frame f).parse.stage = 2 ∧ (t.frame f).parse.cls = 0xFF ∧
      byteAt (t.frame f).parse.key 0 = 0xFF ∧ (t.pipe h).results = (s.pipe h).results ++ [f] ∧
      t.rd64 (O.PRS_CNT h 3) = (s.rd64 (O.PRS_CNT h 3) + 1) % 2 ^ 64)

/-- Graph loads, trace and debug read (07_parse_graph.md R205 to R209): GRAPH_LOAD, a write of PRS_LOAD_CTL, is refused with
RESULT 2 while a load runs, 3 for a slot in use, 4 outside CONFIG, INTEGRATE, OPERATE and DEGRADED, and 5 with the halves
apart, and starts nothing without GO; an accepted one takes the slot's validity and reads the image's header as function 0; a
good image fills the slot in every half, and another leaves the graphs alone; the debug read returns the word that
PRS_NODE_ADDR addresses. RESULT 0 while a load runs and the kept words of a slot whose load failed are the model's choices
(notes/assumptions/81.md). -/
def Obligations.GraphLoads : Prop :=
  (∀ (s : State) (key : Nat) (data : Word), s.Reaches O.PRS_LOAD_CTL key →
    let k := getBits data 16 1
    let a := s.rd64 O.PRS_LOAD_ADDR
    (bitOf data 31 = false →
      ∃ t, exec (.graphLoad 0 data) s = .next t ∧ t.gload = s.gload ∧ t.out = s.out ∧ t.graph = s.graph ∧
        t.fget F.PRS_LOAD_CTL.RESULT = s.fget F.PRS_LOAD_CTL.RESULT ∧ OnlyWords s t [O.PRS_LOAD_CTL]) ∧
    (bitOf data 31 = true →
      (∀ r, ((s.flag F.PRS_LOAD_CTL.BUSY = true ∧ r = 2) ∨
          (s.flag F.PRS_LOAD_CTL.BUSY = false ∧ s.flag (F.PRS_SLOT_STAT.IN_USE s.leader k) = true ∧ r = 3) ∨
          (s.flag F.PRS_LOAD_CTL.BUSY = false ∧ s.flag (F.PRS_SLOT_STAT.IN_USE s.leader k) = false ∧ ¬ (2 ≤ s.mode ∧ s.mode ≤ 5) ∧ r = 4) ∨
          (s.flag F.PRS_LOAD_CTL.BUSY = false ∧ s.flag (F.PRS_SLOT_STAT.IN_USE s.leader k) = false ∧ 2 ≤ s.mode ∧ s.mode ≤ 5 ∧
            s.halvesApart = true ∧ r = 5)) →
        ∃ t, exec (.graphLoad 0 data) s = .next t ∧ t.fget F.PRS_LOAD_CTL.RESULT = r ∧ t.gload = s.gload ∧ t.out = s.out ∧
          t.graph = s.graph ∧ OnlyWords s t [O.PRS_LOAD_CTL]) ∧
      (s.flag F.PRS_LOAD_CTL.BUSY = false → s.flag (F.PRS_SLOT_STAT.IN_USE s.leader k) = false → 2 ≤ s.mode → s.mode ≤ 5 →
        s.halvesApart = false →
        ∃ t, exec (.graphLoad 0 data) s = .next t ∧ t.flag F.PRS_LOAD_CTL.BUSY = true ∧ t.gload = some ⟨k, a⟩ ∧
          t.fget F.PRS_LOAD_CTL.RESULT = 0 ∧ t.graph = s.graph ∧
          t.out = s.out ++ (if addrOk a 32 then (cutAccess a 32 32).map fun x => .read .graph x.1 x.2 else []) ∧
          ∀ h, h < s.cfg.halves → t.flag (F.PRS_SLOT_STAT.VALID h k) = false))) ∧
  (∀ (s : State) (g : GLoad) (img : List Byte) (err : Bool), s.gload = some g → g.slot < 2 →
    let r := loadResult s.cfg g.addr img err
    ∃ t, exec (.graphLoadDone img err) s = .next t ∧ t.gload = none ∧ t.flag F.PRS_LOAD_CTL.BUSY = false ∧
      t.fget F.PRS_LOAD_CTL.RESULT = r ∧
      (r ≠ 1 → t.graph = s.graph ∧ ∀ h k, h < 2 → k < 2 → t.rd (O.PRS_SLOT_ID h k) = s.rd (O.PRS_SLOT_ID h k)) ∧
      (r = 1 → ∀ h n w, h < s.cfg.halves → n < leNat (slice img 6 1) → w < 40 →
        t.flag (F.PRS_SLOT_STAT.VALID h g.slot) = true ∧ t.nodeWord h g.slot n w = imageWord img n w)) ∧
  (∀ (s : State) (h key : Nat) (data : Word), h < 2 → s.Reaches (O.PRS_TRACE_CTL h) key →
    ∃ t, exec (.traceArm 0 h data) s = .next t ∧ t.flag (F.PRS_TRACE_CTL.ARM h) = bitOf data 31 ∧
      t.fget (F.PRS_TRACE_CTL.SRC h) = getBits data 0 4 ∧ OnlyWords s t [O.PRS_TRACE_CTL h]) ∧
  (∀ (s : State) (h key : Nat), h < 2 → s.Reaches (O.PRS_NODE_DATA h) key → s.mode ≠ 0 → s.mode ≠ 7 →
    let w := min 39 (s.fget (F.PRS_NODE_ADDR.WORD h))
    ∃ t, exec (.prsNodeDataRead 0 h) s = .next t ∧
      t.slv = some ⟨false, BitVec.ofNat 64
        (s.nodeWord h (s.fget (F.PRS_NODE_ADDR.SLOT h)) (s.fget (F.PRS_NODE_ADDR.NODE h)) w).toNat⟩ ∧
      (s.flag (F.PRS_NODE_ADDR.AUTOINC h) = true → w < 39 → t.fget (F.PRS_NODE_ADDR.WORD h) = w + 1))

/-- Classification (08_rules_courses_forwarding.md R211, R213 to R215, R226, R232): CLASSIFY takes the oldest parse result, and it
counts as classified; it is decided by the lowest ternary entry visible to its course, or by the course's default action; a
frame still arriving, with KIND PORTS and one port that can take it, waits at that port in its class; with LEARN set the source
address is on its way to the table; a follower's late copy makes no difference to the leader, or with the halves apart. The
model's choice: classification waits for the frame's header, and for its R-TAG where the action looks at it
(notes/assumptions/27.md). -/
def Obligations.Classification : Prop :=
  ∀ (s : State) (h f : Nat) (rest : List Nat), h < 2 → (s.pipe h).results = f :: rest →
    (∀ late, (s.frame f).headKnown = false → exec (.classify h late) s = .next s) ∧
    ((s.cfg = .s ∨ s.linked = false ∨ h = s.leader) → exec (.classify h true) s = exec (.classify h false) s) ∧
    (∀ late, (s.frame f).headKnown = true → ((s.frame f).done = true ∨ 22 ≤ (s.frame f).bytes.length) →
      ∃ t, exec (.classify h late) s = .next t ∧ (∀ x ∈ (t.pipe h).results, x ∈ rest) ∧
        t.rd64 (O.CLS_CNT h 0) = (s.rd64 (O.CLS_CNT h 0) + 1) % 2 ^ 64) ∧
    ((s.frame f).headKnown = true →
    let c := s.courseOf (s.frame f)
    let word := match s.tcamFind c.pos (keyNat (s.frame f).parse.key) with
      | some (_, e) => e.act
      | none => c.defAct
    let a := readAct word
    (∀ p, (s.frame f).done = false → natBits word 60 1 = 0 → a.kind = 1 → a.target % 1024 = 2 ^ p → p < 8 → s.isMac p = true →
      a.mirror = false → s.rtagOf a = 0 → (s.frame f).ingress.map Prod.fst ≠ some p → s.reaches h (s.cfg.halfOfAnyPort p) = true →
      s.flag (F.MAC_CTL.EN_TX p) = true → (s.port p).clkLost = false →
      let pri := if a.priEn then a.pri else (s.frame f).pri
      s.queued p pri ≤ 256 * s.fget (F.CLS_EGR_LIM.LIM p) →
      ∃ t, exec (.classify h false) s = .next t ∧ (t.pipe h).results = rest ∧
        (t.port p).egress.map (fun x => (x.fid, x.cls, x.vtag)) =
          (s.port p).egress.map (fun x => (x.fid, x.cls, x.vtag)) ++ [(f, pri, a.vtag)] ∧
        t.rd64 (O.CLS_CNT h 0) = (s.rd64 (O.CLS_CNT h 0) + 1) % 2 ^ 64) ∧
    (∀ p ch, natBits word 60 1 = 0 → a.learn = true → s.flag F.CLS_CTL.LEARN_EN = true → s.fget F.CLS_EM_CFG.LOG2 ≠ 0 →
      (s.rtagOf a < 2 ∨ (s.frame f).done = true ∨ 22 ≤ (s.frame f).bytes.length) →
      (s.frame f).fcsErr = false → (s.frame f).ingress = some (p, ch) → unicast (slice (s.frame f).bytes 6 6) = true →
      ∃ t, exec (.classify h false) s = .next t ∧
        t.cls.learns = s.cls.learns ++
          [{ half := h, key := fwdKey (slice (s.frame f).bytes 6 6) (s.frame f).vidUsed, port := p, chan := ch }]))

/-- The stage (08_rules_courses_forwarding.md R217, R218): OPEN and OPEN_EMPTY are on their way until they take effect, with
the current course's entries or none; ABANDON closes the stage; a ternary command reads and changes the addressed entry, is
refused with RESULT 3 without a stage, 4 beyond the table and 5 in another mode, and waits where it meets an OPEN on its way. Where the spec is open it follows the model's choices (notes/assumptions/29.md). -/
def Obligations.StageAndTernaryEntries : Prop :=
  (∀ (s : State) (key : Nat), s.Reaches O.CLS_STAGE_CTL key →
    (s.tablesMode = true →
      (∃ t, exec (.stageOpen 0) s = .next t ∧ t.cls.opening = some 1 ∧ t.regs = s.regs) ∧
      (∃ t, exec (.stageOpenEmpty 0) s = .next t ∧ t.cls.opening = some 2 ∧ t.regs = s.regs) ∧
      (∃ t, exec (.stageAbandon 0) s = .next t ∧ t.cls.opening = none ∧ t.flag F.CLS_COURSE_STAT.STAGE_OPEN = false ∧
        ∀ i, (t.tcamAt i).stage = false)) ∧
    (s.tablesMode = false →
      ∀ i ∈ [Instr.stageOpen 0, .stageOpenEmpty 0, .stageAbandon 0],
        ∃ t, exec i s = .next t ∧ t.slv = some ⟨true, 0⟩ ∧ t.cls = s.cls ∧ t.regs = s.regs)) ∧
  (∀ (s : State) (c : Course), s.cls.opening = some 1 → s.cls.waiting = [] → s.curCourse = some c →
    ∃ t, exec .stageOpenDone s = .next t ∧ t.cls.opening = none ∧ t.flag F.CLS_COURSE_STAT.STAGE_OPEN = true ∧
      t.rd64 O.CLS_STG_DEF_ACT = c.defAct % 2 ^ 64 ∧
      ∀ i, (t.tcamAt i).stage = decide ((t.tcamAt i).vis / 2 ^ c.pos % 2 = 1)) ∧
  (∀ (s : State) (key i : Nat), s.Reaches O.CLS_TCAM_CMD key → s.cls.opening = none → s.tablesMode = true →
    s.fget F.CLS_TCAM_IDX.IDX = i → i < s.cfg.tcam →
    (s.stageOpen = true → (s.tcamAt i).vis = 0 →
      ∃ t, exec (.tcamWrite 0) s = .next t ∧ t.fget F.CLS_TCAM_CMD.RESULT = 1 ∧ (t.tcamAt i).val = s.rd512 (O.CLS_TCAM_VAL 0) ∧
        (t.tcamAt i).mask = s.rd512 (O.CLS_TCAM_MASK 0) ∧ (t.tcamAt i).act = s.rd64 O.CLS_TCAM_ACT ∧ (t.tcamAt i).stage = true ∧
        ∀ j, j ≠ i → t.tcamAt j = s.tcamAt j) ∧
    ((s.tcamAt i).vis ≠ 0 →
      ∃ t, exec (.tcamWrite 0) s = .next t ∧ t.fget F.CLS_TCAM_CMD.RESULT = 2 ∧ t.cls = s.cls) ∧
    (s.stageOpen = true →
      (∃ t, exec (.tcamAdd 0) s = .next t ∧ t.fget F.CLS_TCAM_CMD.RESULT = 1 ∧ t.tcamAt i = { s.tcamAt i with stage := true } ∧
        ∀ j, j ≠ i → t.tcamAt j = s.tcamAt j) ∧
      (∃ t, exec (.tcamDel 0) s = .next t ∧ t.fget F.CLS_TCAM_CMD.RESULT = 1 ∧ t.tcamAt i = { s.tcamAt i with stage := false } ∧
        ∀ j, j ≠ i → t.tcamAt j = s.tcamAt j)) ∧
    (s.stageOpen = false →
      ∀ c ∈ [Instr.tcamAdd 0, .tcamDel 0], ∃ t, exec c s = .next t ∧ t.fget F.CLS_TCAM_CMD.RESULT = 3 ∧ t.cls = s.cls) ∧
    (∃ t, exec (.tcamRead 0) s = .next t ∧ t.fget F.CLS_TCAM_CMD.RESULT = 1 ∧ t.cls = s.cls ∧
      t.rd64 O.CLS_TCAM_ACT = (s.tcamAt i).act % 2 ^ 64 ∧ t.flag F.CLS_TCAM_CMD.STAGED = (s.tcamAt i).stage ∧
      t.flag F.CLS_TCAM_CMD.IN_LIVE = decide ((s.tcamAt i).vis ≠ 0))) ∧
  (∀ (s : State) (key : Nat), s.Reaches O.CLS_TCAM_CMD key →
    ∀ x ∈ ([(.tcamWrite 0, 1), (.tcamAdd 0, 2), (.tcamDel 0, 3), (.tcamRead 0, 4)] : List (Instr × Nat)),
      (s.cls.opening.isSome = true →
        ∃ t, exec x.1 s = .next t ∧ t.cls.waiting = s.cls.waiting ++ [(0, BitVec.ofNat 32 x.2)] ∧ t.regs = s.regs) ∧
      (s.cls.opening = none → s.tablesMode = false →
        ∃ t, exec x.1 s = .next t ∧ t.fget F.CLS_TCAM_CMD.RESULT = 5 ∧ t.cls = s.cls) ∧
      (s.cls.opening = none → s.tablesMode = true → s.stageOpen = true → s.cfg.tcam ≤ s.fget F.CLS_TCAM_IDX.IDX →
        ∃ t, exec x.1 s = .next t ∧ t.fget F.CLS_TCAM_CMD.RESULT = 4 ∧ t.cls = s.cls))

/-- Commits (08_rules_courses_forwarding.md R219 to R221): the first reason against a commit is its RESULT; an accepted one
is PENDING and closes the stage; one that meets an OPEN on its way waits; with the acknowledgements the new course is current
and the one before it drains, and without both halves it does not complete; a draining course without frames in flight
retires. Where the spec is open it follows the model's choices (notes/assumptions/29.md). -/
def Obligations.Commits : Prop :=
  (∀ (s : State) (key : Nat) (data : Word), s.Reaches O.CLS_COMMIT key → s.cls.opening = none →
    (∀ r, s.commitRefusal = some r →
      ∃ t, exec (.commitRequest 0 data) s = .next t ∧ t.fget F.CLS_COMMIT.RESULT = r ∧ t.cls = s.cls) ∧
    (∀ p, s.commitRefusal = none → s.freePos = some p →
      ∃ t, exec (.commitRequest 0 data) s = .next t ∧ t.flag F.CLS_COMMIT.PENDING = true ∧
        t.flag F.CLS_COURSE_STAT.STAGE_OPEN = false ∧
        t.cls.prep.map (fun x => (x.course.num, x.course.pos, x.course.slot)) =
          some ((s.fget F.CLS_COURSE_STAT.CUR + 1) % 16, p, s.fget F.PRS_CTL.NEXT_SLOT) ∧
        ∀ i, (t.tcamAt i).stage = false)) ∧
  (∀ (s : State) (key : Nat) (data : Word), s.Reaches O.CLS_COMMIT key → s.cls.opening.isSome = true →
    ∃ t, exec (.commitRequest 0 data) s = .next t ∧ t.cls.waiting = s.cls.waiting ++ [(1, data)] ∧ t.cls.prep = s.cls.prep) ∧
  (∀ (s : State) (missed : Bool), s.canPrepare = false → exec (.commitComplete missed) s = .next s) ∧
  (∀ (s : State) (p : Prep) (missed : Bool), s.cls.prep = some p → p.course.num < 16 → s.canPrepare = true →
    ∃ t, exec (.commitComplete missed) s = .next t ∧
      (missed = false → t.halves = s.halves) ∧
      (missed = true → s.cfg = .x → (t.half (1 - s.leader)).cur = some (s.curNum (1 - s.leader))) ∧ t.fget F.CLS_COURSE_STAT.CUR = p.course.num ∧ t.flag F.CLS_COMMIT.PENDING = false ∧
      t.fget F.CLS_COMMIT.RESULT = 1 ∧ t.cls.prep = none ∧
      t.cls.courses = (s.cls.courses.map fun c => { c with draining := true }) ++ [p.course]) ∧
  (∀ (s : State) (n : Nat) (c : Course), s.inFlight n = false → c ∈ s.cls.courses → c.num = n → c.draining = true →
    ∃ t, exec (.courseRetire n) s = .next t ∧ (∀ x ∈ t.cls.courses, x.num ≠ n) ∧
      ∀ x ∈ s.cls.courses, x.num ≠ n → x ∈ t.cls.courses) ∧
  (∀ (s : State) (n : Nat), s.inFlight n = true → exec (.courseRetire n) s = .next s)

/-- The exact-match table (08_rules_courses_forwarding.md R223 to R225; 13_buffer_memory_and_placement.md R344): a command is
refused outside modes 2 to 5 or without a table, and not taken while one runs; otherwise it is BUSY until it ends; an insert
adds or replaces a learned entry, a delete removes, a read loads the action; an insert without room and a command without its
entry change nothing; a read that its region denies finds no entry; a write of the size empties the table, and a size that is
not allowed is refused. Where the spec is open it follows the model's choices (notes/assumptions/30.md). -/
def Obligations.ExactMatchTable : Prop :=
  (∀ (s : State) (key : Nat) (data : Word), s.Reaches O.CLS_EM_CMD key →
    ∀ x ∈ ([(.emInsertFlow 0 data, 1), (.emInsertFwd 0 data, 2), (.emDelete 0 data, 3), (.emRead 0 data, 4)] : List (Instr × Nat)),
      (s.flag F.CLS_EM_CMD.BUSY = true → ∃ t, exec x.1 s = .next t ∧ t.cls = s.cls ∧ t.regs = s.regs) ∧
      (s.flag F.CLS_EM_CMD.BUSY = false →
        (s.tablesMode = false →
          ∃ t, exec x.1 s = .next t ∧ t.fget F.CLS_EM_CMD.RESULT = 5 ∧ t.cls = s.cls) ∧
        (s.tablesMode = true → s.fget F.CLS_EM_CFG.LOG2 = 0 →
          ∃ t, exec x.1 s = .next t ∧ t.fget F.CLS_EM_CMD.RESULT = 6 ∧ t.cls = s.cls) ∧
        (s.tablesMode = true → s.fget F.CLS_EM_CFG.LOG2 ≠ 0 →
          ∃ t, exec x.1 s = .next t ∧ t.flag F.CLS_EM_CMD.BUSY = true ∧
            t.cls.cmd.map (fun c => (c.op, c.typ, c.act)) =
              some (x.2, if x.2 = 1 then 0 else if x.2 = 2 then 1 else getBits data 4 1, s.rd64 O.CLS_EM_ACT)))) ∧
  (∀ (s : State) (c : EmCmd), s.cls.cmd = some c → s.leader < s.cfg.halves → s.cfg.halves ≤ 2 → s.fget F.CLS_EM_CFG.LOG2 ≠ 0 →
    let mine := (s.em s.leader).find? fun e => e.answers c.typ c.key
    let ends (t : State) (r : Nat) := t.flag F.CLS_EM_CMD.BUSY = false ∧ t.fget F.CLS_EM_CMD.RESULT = r ∧ t.cls.cmd = none
    ((∀ a, s.emAddr s.leader c.key = some a → s.mayRead 13 (a / 4096) = true ∧ s.mayWrite 13 (a / 4096) = true) →
      ((c.op = 1 ∨ c.op = 2) → mine = none → (s.em s.leader).length < s.emSize →
        ∃ t, exec (.emCommandDone false) s = .next t ∧ ends t 1 ∧
          t.em s.leader = s.em s.leader ++ [{ typ := c.op - 1, key := c.key, act := c.act }]) ∧
      (∀ full, (c.op = 1 ∨ c.op = 2) → mine = none → (full = true ∨ s.emSize ≤ (s.em s.leader).length) →
        ∃ t, exec (.emCommandDone full) s = .next t ∧ ends t 4 ∧ t.ems = s.ems) ∧
      (∀ full x, (c.op = 1 ∨ c.op = 2) → mine = some x → x.typ ≠ 2 →
        ∃ t, exec (.emCommandDone full) s = .next t ∧ ends t 2 ∧ t.ems = s.ems) ∧
      (∀ full x, (c.op = 1 ∨ c.op = 2) → mine = some x → x.typ = 2 →
        ∃ t, exec (.emCommandDone full) s = .next t ∧ ends t 1 ∧
          t.em s.leader = (s.em s.leader).map fun y =>
            if y.answers c.typ c.key then { typ := c.op - 1, key := c.key, act := c.act } else y) ∧
      (∀ full, 2 < c.op → (mine = none ∨ ∃ x, mine = some x ∧ s.flushed x = true) →
        ∃ t, exec (.emCommandDone full) s = .next t ∧ ends t 3 ∧ t.ems = s.ems) ∧
      (∀ full x, mine = some x → s.flushed x = false →
        (c.op = 3 →
          ∃ t, exec (.emCommandDone full) s = .next t ∧ ends t 1 ∧
            t.em s.leader = (s.em s.leader).filter fun y => !y.answers c.typ c.key) ∧
        (c.op = 4 →
          ∃ t, exec (.emCommandDone full) s = .next t ∧ ends t 1 ∧ t.ems = s.ems ∧
            t.rd64 O.CLS_EM_ACT = x.readAction % 2 ^ 64))) ∧
    (∀ a full, s.emAddr s.leader c.key = some a → s.mayRead 13 (a / 4096) = false → 2 < c.op →
      ∃ t, exec (.emCommandDone full) s = .next t ∧ ends t 3 ∧ t.ems = s.ems)) ∧
  (∀ (s : State) (key : Nat) (data : Word), s.Reaches O.CLS_EM_CFG key →
    let v := getBits data 0 5
    ((v ≠ 0 ∧ (v < 10 ∨ s.cfg.emLog2 < v)) →
      ∃ t, exec (.emCfgWrite 0 data) s = .next t ∧ t.slv = some ⟨true, 0⟩ ∧ t.regs = s.regs ∧ t.ems = s.ems) ∧
    ((v = 0 ∨ (10 ≤ v ∧ v ≤ s.cfg.emLog2)) → v ≠ s.fget F.CLS_EM_CFG.LOG2 → s.mode = 2 →
      ∃ t, exec (.emCfgWrite 0 data) s = .next t ∧ t.ems = [] ∧ t.fget F.CLS_EM_CFG.LOG2 = v))

/-- Learning, aging, flushes and recovery (08_rules_courses_forwarding.md R226 to R229, R234): the oldest learning change
adds a learned entry, or is counted as failed when no way is free; the ager clears HIT, or marks an entry for removal; an
entry that still awaits removal goes; a flush moves its generation on, or joins one of less than 40 ticks before, and its sweep
removes what was flushed; a recovery timeout forgets the history. The regions of the entries allow the accesses. Where the
spec is open it follows the model's choices (notes/assumptions/30.md, notes/assumptions/31.md). -/
def Obligations.LearningAndAging : Prop :=
  (∀ (s : State) (x : Learn) (rest : List Learn), s.cls.learns = x :: rest → x.half < s.cfg.halves → s.leader < s.cfg.halves →
    let k := s.emKeeper x.half
    (∀ a, s.emAddr k x.key = some a → s.mayRead 13 (a / 4096) = true ∧ s.mayWrite 13 (a / 4096) = true) →
    (s.em k).find? (fun y => y.answers 1 x.key) = none →
    ((s.em k).length < s.emSize →
      ∃ t, exec (.learnUpdate false) s = .next t ∧ t.cls.learns = rest ∧
        t.em k = s.em k ++
          [{ typ := 2, key := x.key, port := x.port, chan := x.chan, genT := s.fget F.CLS_FLUSH.GEN_T, genA := s.fget F.CLS_FLUSH.GEN_A }] ∧
        t.rd64 (O.CLS_CNT k 9) = (s.rd64 (O.CLS_CNT k 9) + 1) % 2 ^ 64) ∧
    (∃ t, exec (.learnUpdate true) s = .next t ∧ t.cls.learns = rest ∧ t.ems = s.ems ∧
      t.rd64 (O.CLS_CNT k 11) = (s.rd64 (O.CLS_CNT k 11) + 1) % 2 ^ 64)) ∧
  (∀ (s : State) (h i : Nat) (e : EmEnt), (s.em h)[i]? = some e → s.ages h = true →
    (∀ k ∈ s.emReach h, (s.emMayWrite k e.key).1 = true) →
    (s.flag F.CLS_AGE.EN = true → e.typ = 2 →
      ∃ t, exec (.agerVisit h i) s = .next t ∧
        (t.em h)[i]? = some (if e.hit then { e with hit := false } else { e with dying := true }) ∧ t.regs = s.regs) ∧
    (e.dying = true →
      ∃ t, exec (.ageRemoval h i) s = .next t ∧ ∀ x ∈ t.em h, x.typ = 2 → x.key ≠ e.key)) ∧
  (∀ (s : State) (key : Nat) (data : Word), s.Reaches O.CLS_FLUSH key →
    let near := ∃ τ, KMap.find? s.cls.flushed (getBits data 30 1) = some τ ∧ s.ticks < τ + 40
    (near → ∃ t, exec (.flushRequest 0 data) s = .next t ∧ t.flag F.CLS_FLUSH.SWEEP = true ∧
      t.fget F.CLS_FLUSH.GEN_T = s.fget F.CLS_FLUSH.GEN_T ∧ t.fget F.CLS_FLUSH.GEN_A = s.fget F.CLS_FLUSH.GEN_A) ∧
    (¬ near → ∃ t, exec (.flushRequest 0 data) s = .next t ∧ t.flag F.CLS_FLUSH.SWEEP = true ∧
      t.fget F.CLS_FLUSH.GEN_T = (if bitOf data 30 then s.fget F.CLS_FLUSH.GEN_T else (s.fget F.CLS_FLUSH.GEN_T + 1) % 4096) ∧
      t.fget F.CLS_FLUSH.GEN_A = (if bitOf data 30 then (s.fget F.CLS_FLUSH.GEN_A + 1) % 4096 else s.fget F.CLS_FLUSH.GEN_A))) ∧
  (∀ (s : State), s.flag F.CLS_FLUSH.SWEEP = true → (∀ h e, h < s.cfg.halves → e ∈ s.em h → (s.emMayWrite h e.key).1 = true) →
    ∃ t, exec .flushSweepDone s = .next t ∧ t.flag F.CLS_FLUSH.SWEEP = false ∧
      ∀ h, h < s.cfg.halves → t.em h = (s.em h).filter fun e => !s.flushed e) ∧
  (∀ (s : State) (e n : Nat), n < 64 → s.fget (F.CLS_SR.RESET_MS n) ≠ 0 →
    ∃ t, exec (.recoveryResetTimeout e n) s = .next t ∧ KMap.find? t.cls.hist (64 * e + n) = none ∧ t.regs = s.regs)

/-- Doorbells and push slots (11_functions_and_queues.md R303 to R305; 02_boundary_and_access.md R44): a doorbell of the
owner moves the ring's tail, or for the completion ring the head; one that asks for more than the ring holds is ignored, with
DB_ERR and Q_ERR_LOG; a push slot word is held; another function's access is refused and moves nothing. Where the spec is
open it follows the model's choices (notes/assumptions/40.md). -/
def Obligations.Doorbells : Prop :=
  (∀ (s : State) (fn q : Nat) (data : Word), s.Owns fn q →
    let p := s.qp q
    let i := getBits data 0 16
    let push := getBits data 27 3
    (p.txL ≠ 0 → push ≤ 4 → idxDiff i p.txHead ≤ 2 ^ p.txL → push ≤ idxDiff i p.txTail →
      ∃ t, exec (.doorbellTx fn q data) s = .next t ∧ (t.qp q).txTail = i ∧ (t.qp q).txHead = p.txHead ∧
        t.rd64 (O.Q_CNT 1) = (s.rd64 (O.Q_CNT 1) + push) % 2 ^ 64) ∧
    (p.rxL ≠ 0 → push ≤ 4 → idxDiff i p.rxHead ≤ 2 ^ p.rxL → push ≤ idxDiff i p.rxTail →
      ∃ t, exec (.doorbellRx fn q data) s = .next t ∧ (t.qp q).rxTail = i ∧ (t.qp q).rxHead = p.rxHead) ∧
    (push = 0 → idxDiff i p.cqHead ≤ idxDiff p.cqTail p.cqHead →
      ∃ t, exec (.doorbellCq fn q data) s = .next t ∧ (t.qp q).cqHead = i ∧ t.regs = s.regs) ∧
    ((p.txL = 0 ∨ 4 < push ∨ 2 ^ p.txL < idxDiff i p.txHead ∨ idxDiff i p.txTail < push) →
      ∃ t, exec (.doorbellTx fn q data) s = .next t ∧ (t.qp q).dbErr = true ∧ (t.qp q).txTail = p.txTail ∧
        t.fget F.Q_ERR_LOG.CAUSE = 1 ∧ t.fget F.Q_ERR_LOG.QP = q % 4096) ∧
    ((p.rxL = 0 ∨ 4 < push ∨ 2 ^ p.rxL < idxDiff i p.rxHead ∨ idxDiff i p.rxTail < push) →
      ∃ t, exec (.doorbellRx fn q data) s = .next t ∧ (t.qp q).dbErr = true ∧ (t.qp q).rxTail = p.rxTail ∧
        t.fget F.Q_ERR_LOG.CAUSE = 1 ∧ t.fget F.Q_ERR_LOG.QP = q % 4096) ∧
    ((push ≠ 0 ∨ idxDiff p.cqTail p.cqHead < idxDiff i p.cqHead) →
      ∃ t, exec (.doorbellCq fn q data) s = .next t ∧ (t.qp q).dbErr = true ∧ (t.qp q).cqHead = p.cqHead ∧
        t.fget F.Q_ERR_LOG.CAUSE = 1 ∧ t.fget F.Q_ERR_LOG.QP = q % 4096) ∧
    (∀ k w, k < 4 → w < 8 →
      ∃ t, exec (.pushSlotWrite fn q k w data) s = .next t ∧ KMap.get 0 (t.qp q).slots (8 * k + w) = data ∧
        (t.qp q).txTail = p.txTail ∧ t.regs = s.regs)) ∧
  (∀ (s : State) (fn q k w : Nat) (data : Word), s.domOn 1 = true → s.rst.blk = false → (s.qp q).owner ≠ fn → q < s.cfg.queuePairs →
    ∀ i ∈ [Instr.doorbellTx fn q data, .doorbellRx fn q data, .doorbellCq fn q data, .pushSlotWrite fn q k w data],
      ∃ t, exec i s = .next t ∧ t.slv = some ⟨true, 0⟩ ∧ t.qps = s.qps)

/-- Host descriptors, deliveries and completions (11_functions_and_queues.md R291, R294, R296 to R302, R312, R319;
02_boundary_and_access.md R59): a transmit descriptor that fails a check is consumed and completes with its status; a good one whose
frame is placed becomes a frame of the block; one with a port destination waits in CONFIG; a delivery without room is dropped and
counted, and one that fits the first descriptor consumes it, or, begun before, goes on; an error response on a descriptor's fetch is
a queue fault and one on a data buffer ends the delivery with BUS_ERR; a completion is written at the tail of its ring with its PHASE,
and once more with BUS_ERR where its write failed. Where the spec is open it follows the model's choices (notes/assumptions/39.md,
notes/assumptions/82.md). -/
def Obligations.DescriptorsAndCompletions : Prop :=
  (∀ (s : State) (q : Nat) (desc data : List Byte) (err derr : Bool), q < s.cfg.queuePairs → s.fetchReady q = true →
    s.outranked q (fun k => s.fetchReady k && !(s.qp k).waits) = false →
    let p := s.qp q
    let own := (KMap.find? p.pushed (pushKey 0 p.txHead)).isSome
    let d := readTxDesc ((KMap.find? p.pushed (pushKey 0 p.txHead)).getD desc)
    let later := (readAct d.act).toPorts = true ∧ p.service = false ∧ s.mode = 2
    (err = true → own = false →
      ∃ t, exec (.descriptorFetch q desc err data derr) s = .next t ∧ (t.qp q).txHead = (p.txHead + 1) % 65536 ∧
        t.nextFrame = s.nextFrame ∧ t.fget F.Q_ERR_LOG.CAUSE = 2 ∧ t.fget F.Q_ERR_LOG.QP = q % 4096) ∧
    ((err = false ∨ own = true) → later →
      ∃ t, exec (.descriptorFetch q desc err data derr) s = .next t ∧ (t.qp q).txHead = p.txHead ∧ t.nextFrame = s.nextFrame ∧
        (t.qp q).waits = true ∧ (t.qp q).due = p.due) ∧
    ((err = false ∨ own = true) → ¬ later → s.txCheck q d derr ≠ 0 → p.txs = [] →
      ∃ t, exec (.descriptorFetch q desc err data derr) s = .next t ∧ (t.qp q).txHead = (p.txHead + 1) % 65536 ∧
        t.nextFrame = s.nextFrame ∧
        (t.qp q).due.map Cqe.w0 = p.due.map Cqe.w0 ++ [2 ^ 28 + 2 ^ 24 * s.txCheck q d derr + p.txHead]) ∧
    (∀ s' parts, (err = false ∨ own = true) → ¬ later → s.txCheck q d derr = 0 →
      s.place p.owner q (s.ownerBanks p.owner q (p.half.getD s.leader)) d.len = .placed s' parts →
      ∃ t, exec (.descriptorFetch q desc err data derr) s = .next t ∧ (t.qp q).txHead = (p.txHead + 1) % 65536 ∧
        t.nextFrame = s.nextFrame + 1)) ∧
  (∀ (s : State) (q err derr : Nat) (descs : List Byte), q < s.cfg.queuePairs → s.rxReady q = true →
    s.outranked q (fun k => s.rxReady k) = false →
    let p := s.qp q
    (∀ w, (p.cur = none ∨ 4 ≤ p.due.length) → p.rxs.find? (fun x => (s.frame x.fid).done) = some w →
      s.inMove (s.frame w.fid).parts = false →
      let f := s.frame w.fid
      let n := (s.rxBytes f w f.bytes).length
      ((4 ≤ p.due.length ∨ rxRoom (p.rxDescs descs derr) true n = false) →
        ∃ t, exec (.rxDelivery q descs err derr) s = .next t ∧ (t.qp q).drops = p.drops + 1 ∧ (t.qp q).rxs = p.rxs.erase w ∧
          (t.qp q).rxHead = p.rxHead) ∧
      (∀ d rest, p.due.length < 4 → p.rxDescs descs derr = d :: rest → s.poisoned f.parts = false →
        (∀ x ∈ f.parts, s.mayRead 12 x.1 = true) →
        (d.bad true = 0 → n ≤ d.room true →
          ∃ t, exec (.rxDelivery q descs err derr) s = .next t ∧ (t.qp q).rxHead = (p.rxHead + 1) % 65536 ∧
            (t.qp q).drops = p.drops ∧ (t.qp q).rxs = p.rxs.erase w ∧ (t.qp q).cur = none ∧
            ∃ l, (t.qp q).due.map (fun c => (c.w0, c.w1)) = p.due.map (fun c => (c.w0, c.w1)) ++
              (2 * 2 ^ 28 + (if err = 1 then 4 else 0) * 2 ^ 24 + w.src % 256 * 2 ^ 16 + p.rxHead,
                Nat.land f.status 0xFF * 2 ^ 16 + n % 65536) :: l) ∧
        (d.err = true → rxRoom (d :: rest) true n = true →
          ∃ t, exec (.rxDelivery q descs err derr) s = .next t ∧ t.fget F.Q_ERR_LOG.CAUSE = 2 ∧
            t.fget F.Q_ERR_LOG.QP = q % 4096))) ∧
    (∀ r d rest, p.cur = some r → p.due.length < 4 → p.rxDescs descs derr = d :: rest → d.bad (decide (r.nth = 0)) = 0 →
      r.rest.length ≤ d.room (decide (r.nth = 0)) →
      ∃ t, exec (.rxDelivery q descs err derr) s = .next t ∧ (t.qp q).rxHead = (p.rxHead + 1) % 65536 ∧ (t.qp q).cur = none ∧
        (t.qp q).rxs = p.rxs)) ∧
  (∀ (s : State) (q : Nat) (c : Cqe) (rest : List Cqe) (err : Bool), q < s.cfg.queuePairs →
    let p := s.qp q
    p.due = c :: rest → s.cqReady q = true → s.outranked q (fun k => s.cqReady k) = false →
    ∃ t l, exec (.completionWrite q err) s = .next t ∧ (t.qp q).cqTail = (p.cqTail + 1) % 65536 ∧
      t.out = s.out ++ [.write (.queue q) (p.cqBase + 16 * (p.cqTail % 2 ^ p.cqL)) (cqeBytes c p.cqTail p.cqL)] ∧
      (t.qp q).due = (if err = true then c.failed else []) ++ rest ++ l ∧
      ((p.irqEn = true ∨ p.admin = true) → t.flag (pendFld (srcQp s.cfg q)) = true))

/-- Admin commands that are refused (11_functions_and_queues.md R308 to R310): an opcode that no row lists, a fetch error, a
command of function 0 alone by another function, and in BRINGUP all but QUERY and SET_QUOTA end with their ASTATUS. Where the
spec is open it follows the model's choices (notes/assumptions/40.md). -/
def Obligations.AdminRefusals : Prop :=
  ∀ (s : State) (f fails : Nat) (cmd : List Byte) (err : Bool),
    (∀ op, s.Takes f cmd err op → (op = 0 ∨ 8 < op) →
      ∃ t, exec (.adminBadOpcode f cmd err) s = .next t ∧ Answered s t f cmd 1) ∧
    (s.admin.destroy = none → s.admNext = some f → s.admPushed f = false →
      ∀ i ∈ [Instr.createFunction f cmd true fails, .destroyFunction f cmd true, .setQuota f cmd true, .createQueue f cmd true,
          .destroyQueue f cmd true, .bindPort f cmd true, .bindClass f cmd true, .query f cmd true, .adminBadOpcode f cmd true],
        ∃ t, exec i s = .next t ∧ t.funcs = s.funcs ∧ t.binds = s.binds ∧
          (t.qp (s.func f).admin).due.getLast?.map Cqe.w0 = some (3 * 2 ^ 28 + 10 * 2 ^ 16)) ∧
    (∀ x ∈ ([(.createFunction f cmd err fails, 1), (.destroyFunction f cmd err, 2), (.setQuota f cmd err, 3)] : List (Instr × Nat)),
      s.Takes f cmd err x.2 → f ≠ 0 → s.mode ≠ 1 → ∃ t, exec x.1 s = .next t ∧ Answered s t f cmd 2 ∧ t.funcs = s.funcs) ∧
    (∀ x ∈ ([(.createFunction f cmd err fails, 1), (.destroyFunction f cmd err, 2), (.createQueue f cmd err, 4),
        (.destroyQueue f cmd err, 5), (.bindPort f cmd err, 6), (.bindClass f cmd err, 7)] : List (Instr × Nat)),
      s.Takes f cmd err x.2 → s.mode = 1 → ∃ t, exec x.1 s = .next t ∧ Answered s t f cmd 8 ∧ t.funcs = s.funcs ∧ t.binds = s.binds)

/-- Functions (11_functions_and_queues.md R286, R287, R289, R310, R317, R318): CREATE_FUNCTION makes the function ACTIVE with
a key of its own, a fresh free value, and an admin queue; SET_QUOTA takes its quotas, ports and classes; DESTROY_FUNCTION
starts to destroy the function; ADMIN0_ENABLE starts queue pair 0. Where the spec is open it follows the model's choices
(notes/assumptions/40.md). -/
def Obligations.Functions : Prop :=
  (∀ (s : State) (cmd : List Byte) (err : Bool) (q fails : Nat), s.Takes 0 cmd err 1 → s.mode ≠ 1 →
    let c := s.admCmd 0 cmd
    let fn := hostWord c 1 % 256
    let cl := natBits (hostWord c 6) 0 4
    let rl := natBits (hostWord c 6) 8 4
    fn ≠ 0 → (s.func fn).state = 0 → 4 ≤ cl → 4 ≤ rl → ringErr (hostWord2 c 2) cl 32 = none → ringErr (hostWord2 c 4) rl 16 = none →
    s.freeQp = some q →
    (fails < 3 →
      ∃ t, exec (.createFunction 0 cmd err fails) s = .next t ∧ Answered s t 0 cmd 0 ∧ (t.func fn).state = 1 ∧
        (t.func fn).admin = q ∧ (t.func fn).key = some s.free ∧ t.free = s.free + 1 ∧ (t.qp q).en = true ∧ (t.qp q).owner = fn ∧
        (t.qp q).admin = true ∧ (t.qp q).txL = cl ∧ (t.qp q).cqL = rl ∧ (fails ≠ 0 → t.flag F.MEM_STAT.RNG_FAIL = true)) ∧
    (3 ≤ fails →
      ∃ t, exec (.createFunction 0 cmd err fails) s = .next t ∧ Answered s t 0 cmd 4 ∧ t.funcs = s.funcs ∧
        t.flag F.MEM_STAT.RNG_FAIL = true)) ∧
  (∀ (s : State) (cmd : List Byte) (err : Bool), s.Takes 0 cmd err 3 →
    let c := s.admCmd 0 cmd
    let fn := hostWord c 1 % 256
    fn ≠ 0 → (s.func fn).state ≠ 0 →
    ∃ t, exec (.setQuota 0 cmd err) s = .next t ∧ Answered s t 0 cmd 0 ∧ (t.func fn).maxQp = hostWord c 2 % 8192 ∧
      (t.func fn).maxGran = hostWord c 3 % 65536 ∧ (t.func fn).classLo = natBits (hostWord c 5) 0 8 ∧
      (t.func fn).classHi = natBits (hostWord c 5) 8 8 ∧
      (t.func fn).ports = Nat.land (hostWord c 4 % 1024) (s.cfg.pick 0x10F 0x3FF) ∧
      (t.func fn).state = (s.func fn).state) ∧
  (∀ (s : State) (cmd : List Byte) (err : Bool), s.Takes 0 cmd err 2 → s.mode ≠ 1 →
    let fn := hostWord (s.admCmd 0 cmd) 1 % 256
    fn ≠ 0 → (s.func fn).state ≠ 0 →
    ∃ t, exec (.destroyFunction 0 cmd err) s = .next t ∧ (t.func fn).state = 2 ∧ t.admin.destroy.map (·.func) = some (some fn) ∧
      t.flag F.Q_STAT.ADMIN_BUSY = true) ∧
  (∀ (s : State) (key : Nat) (data : Word), s.Reaches O.Q_ADMIN0_CFG key →
    (s.flag F.Q_ADMIN0_CFG.EN = false →
      let fits := addrOk (s.rd64 O.Q_ADMIN0_SQ) (32 * 2 ^ getBits data 0 4) = true ∧
        addrOk (s.rd64 O.Q_ADMIN0_CQ) (16 * 2 ^ getBits data 8 4) = true
      (fits →
        ∃ t, exec (.admin0Enable 0 data) s = .next t ∧ t.flag F.Q_ADMIN0_CFG.EN = true ∧ (t.qp 0).en = true ∧
          (t.qp 0).admin = true ∧ (t.qp 0).txBase = s.rd64 O.Q_ADMIN0_SQ ∧ (t.qp 0).txL = getBits data 0 4 ∧
          (t.qp 0).cqBase = s.rd64 O.Q_ADMIN0_CQ ∧ (t.qp 0).cqL = getBits data 8 4 ∧
          (t.qp 0).txTail = 0 ∧ (t.qp 0).txHead = 0 ∧ (t.qp 0).due = []) ∧
      (¬ fits → ∃ t, exec (.admin0Enable 0 data) s = .next t ∧ t.flag F.Q_ADMIN0_CFG.EN = false ∧ t.slv = some ⟨true, 0⟩ ∧
        t.qps = s.qps)) ∧
    (s.flag F.Q_ADMIN0_CFG.EN = true →
      ∃ t, exec (.admin0Enable 0 data) s = .next t ∧ t.regs = s.regs ∧ t.qps = s.qps))

/-- Queue pairs and bindings (11_functions_and_queues.md R288, R311, R314 to R316): CREATE_QUEUE takes the
lowest free queue pair, or refuses where a strict affinity cannot be met; BIND_PORT and BIND_CLASS bind what the function holds; QUERY reports the heads;
DESTROY_QUEUE takes effect at once and ends when its last completions are written: the queue pair is free and its generation
has moved on. Where the spec is open it follows the model's choices (notes/assumptions/40.md). -/
def Obligations.QueuePairsAndBindings : Prop :=
  (∀ (s : State) (f q : Nat) (cmd : List Byte) (err : Bool), s.Takes f cmd err 4 → s.mode ≠ 1 →
    let c := s.admCmd f cmd
    let w := hostWord c 7
    let tl := natBits w 0 4
    let rl := natBits w 4 4
    let cl := natBits w 8 4
    let id := natBits w 19 7
    (tl = 0 ∨ (4 ≤ tl ∧ ringErr (hostWord2 c 1) tl 32 = none)) → (rl = 0 ∨ (4 ≤ rl ∧ ringErr (hostWord2 c 3) rl 32 = none)) →
    4 ≤ cl → ringErr (hostWord2 c 5) cl 16 = none → (tl ≠ 0 ∨ rl ≠ 0) → (natBits w 16 2 = 1 → id % 2 < s.cfg.halves) →
    (2 ≤ natBits w 16 2 → id / 8 < s.cfg.engines) → (natBits w 14 1 = 1 → s.svcThreads ≠ []) →
    (f = 0 ∨ s.qpUse f < (s.func f).maxQp) → s.freeQp = some q →
    let fits := ∀ h ok, affOf s.cfg (natBits w 16 2) id = some (h, ok) →
      if natBits w 14 1 = 1 then s.svcThreads.any ok = true else natBits w 12 2 = 3 ∨ s.halfOpen h = true
    ((natBits w 18 1 = 0 ∨ fits) →
      ∃ t, exec (.createQueue f cmd err) s = .next t ∧ Answered s t f cmd 0 ∧ (t.qp q).en = true ∧ (t.qp q).owner = f ∧
        (t.qp q).txL = tl ∧ (t.qp q).rxL = rl ∧ (t.qp q).cqL = cl ∧ (t.qp q).txTail = 0 ∧ (t.qp q).gen = (s.qp q).gen ∧
        (t.qp q).lc = natBits w 12 2 ∧ (t.qp q).service = decide (natBits w 14 1 = 1) ∧
        (natBits w 14 1 = 1 → (t.qp q).thread ∈ s.svcThreads)) ∧
    (natBits w 18 1 = 1 → ¬ fits → ∃ t, exec (.createQueue f cmd err) s = .next t ∧ Answered s t f cmd 4 ∧ (t.qp q).en = false)) ∧
  (∀ (s : State) (f q : Nat) (cmd : List Byte) (err : Bool), s.mode ≠ 1 → s.byHandle f (hostWord (s.admCmd f cmd) 1) = some q →
    let c := s.admCmd f cmd
    (s.Takes f cmd err 6 → Nat.land (hostWord c 2 % 1024) (s.cfg.pick 0x10F 0x3FF) = hostWord c 2 % 1024 →
      Nat.land (hostWord c 2 % 1024) (s.func f).ports = hostWord c 2 % 1024 →
      ∃ t, exec (.bindPort f cmd err) s = .next t ∧ Answered s t f cmd 0 ∧ (t.qp q).ports = hostWord c 2 % 1024) ∧
    (s.Takes f cmd err 7 → (f = 0 ∨ ((s.func f).classLo ≤ hostWord c 2 % 256 ∧ hostWord c 2 % 256 ≤ (s.func f).classHi)) →
      let k := hostWord c 2 % 256
      let held := ∃ x, s.boundTo k = some x ∧ x ≠ q ∧ ¬ (f = 0 ∧ natBits (hostWord c 2) 9 1 = 1)
      (natBits (hostWord c 2) 8 1 = 1 →
        ∃ t, exec (.bindClass f cmd err) s = .next t ∧ Answered s t f cmd 0 ∧
          t.boundTo k = (if s.boundTo k = some q then none else s.boundTo k)) ∧
      (natBits (hostWord c 2) 8 1 = 0 → ¬ held →
        ∃ t, exec (.bindClass f cmd err) s = .next t ∧ Answered s t f cmd 0 ∧ t.boundTo k = some q) ∧
      (natBits (hostWord c 2) 8 1 = 0 → held →
        ∃ t, exec (.bindClass f cmd err) s = .next t ∧ Answered s t f cmd 7 ∧ t.binds = s.binds)) ∧
    (s.Takes f cmd err 5 → (s.qp q).admin = false →
      ∃ t, exec (.destroyQueue f cmd err) s = .next t ∧ (t.qp q).dying = true ∧ (t.qp q).rxs = [] ∧
        t.admin.destroy.map (·.qps) = some [q] ∧ t.flag F.Q_STAT.ADMIN_BUSY = true)) ∧
  (∀ (s : State) (f : Nat) (cmd : List Byte) (err : Bool), s.Takes f cmd err 8 →
    let c := s.admCmd f cmd
    (∀ q, hostWord c 1 % 256 = 1 → s.byHandle f (hostWord c 2) = some q →
      ∃ t, exec (.query f cmd err) s = .next t ∧ Answered s t f cmd 0 ∧
        (t.qp (s.func f).admin).due.getLast?.map Cqe.w1 = some ((t.qp q).rxHead * 2 ^ 16 + (t.qp q).txHead)) ∧
    (hostWord c 1 % 256 = 0 → (f = 0 ∨ hostWord c 2 % 256 = f) →
      let v := s.func (hostWord c 2 % 256)
      ∃ t, exec (.query f cmd err) s = .next t ∧ Answered s t f cmd 0 ∧
        (t.qp (s.func f).admin).due.getLast?.map Cqe.w3 = some (v.ports * 2 ^ 16 + v.classHi * 2 ^ 8 + v.classLo))) ∧
  (∀ (s : State) (d : Destroy), s.admin.destroy = some d → (∀ q ∈ d.qps, (s.qp q).txs = [] ∧ (s.qp q).due = []) →
    s.flag F.Q_STAT.FROZEN = false → s.qServed (s.func d.fn).admin = true → d.func ≠ some d.fn →
    ∃ t, exec .queueDestroyComplete s = .next t ∧ t.admin.destroy = none ∧ t.flag F.Q_STAT.ADMIN_BUSY = false ∧
      (t.qp (s.func d.fn).admin).due.getLast?.map Cqe.w0 = some (3 * 2 ^ 28 + d.tag % 65536) ∧
      (∀ q, d.qps = [q] → (t.qp q).en = false ∧ (t.qp q).gen = ((s.qp q).gen + 1) % 256) ∧
      (∀ fn, d.func = some fn → d.fn = 0 → fn ≠ 0 →
        (t.func fn).state = 0 ∧ (∀ q ∈ d.qps, (t.qp q).en = false) ∧ ∀ g, (t.gran g).live = true → (t.gran g).owner ≠ fn))

/-- Check units (14_check_units_safety_island.md R359 to R368): GO starts a run from INIT, or ends with END 4 or 5, or is
refused with CFG_ERR; ABORT ends a run with END 7; scan data is taken, and an error response ends the run with END 6; at the
end of a run the value is compared; no news in time sets STALE, unless a run's end restarts the
timer in that cycle; the seal takes its key once. Where the spec is open it
follows the model's choices (notes/assumptions/42.md). -/
def Obligations.CheckRuns : Prop :=
  (∀ (s : State) (n key : Nat) (data : Word), n < s.cfg.checkUnits → s.Reaches (O.CHK_CTL n) key →
    let len := s.fget (F.CHK_LEN.LEN n)
    let aw := s.fget (F.CHK_ALIVE.AW n)
    let bytes := (s.fget (F.CHK_CFG.WIDTH_M1 n) + 1 + 7) / 8
    let tail := if s.flag (F.CHK_CFG.EXP_SRC n) then bytes else 0
    let good := 1 ≤ len ∧ len ≤ 16777216 ∧ (s.flag (F.CHK_CFG.EXP_SRC n) = true → bytes < len) ∧
      (s.flag (F.CHK_CFG.ALIVE_EN n) = true → 4 ≤ aw ∧ aw ≤ 16 ∧ s.fget (F.CHK_ALIVE.AOFS n) + (aw + 7) / 8 ≤ len - tail)
    let inside := s.flag (F.CHK_CFG.SRC n) = true ∨ s.rd64 (O.CHK_SCAN_ADDR n) + len ≤ 2 ^ 44
    (s.flag (F.CHK_STAT.STATE n) = false → bitOf data 30 = false → s.quiesced 42 = false →
      (good → inside →
        ∃ t, exec (.chkGo 0 n data) s = .next t ∧ t.flag (F.CHK_STAT.STATE n) = true ∧ (t.chk n).taken = 0 ∧ (t.chk n).ref = false ∧
          (t.chk n).acc = s.rd64 (O.CHK_INIT n) % 2 ^ (s.fget (F.CHK_CFG.WIDTH_M1 n) + 1)) ∧
      (¬ good →
        ∃ t, exec (.chkGo 0 n data) s = .next t ∧ t.fget (F.CHK_STAT.END n) = 4 ∧ t.flag (F.CHK_STAT.DONE n) = true ∧
          t.flag (F.CHK_STAT.STATE n) = false) ∧
      (good → ¬ inside →
        ∃ t, exec (.chkGo 0 n data) s = .next t ∧ t.fget (F.CHK_STAT.END n) = 5 ∧ t.flag (F.CHK_STAT.DONE n) = true ∧
          t.flag (F.CHK_STAT.STATE n) = false)) ∧
    ((s.flag (F.CHK_STAT.STATE n) = true ∨ bitOf data 30 = true ∨ s.quiesced 42 = true) →
      ∃ t, exec (.chkGo 0 n data) s = .next t ∧ t.flag (F.CHK_STAT.CFG_ERR n) = true ∧ t.chks = s.chks ∧
        t.flag (F.CHK_STAT.STATE n) = s.flag (F.CHK_STAT.STATE n)) ∧
    (s.flag (F.CHK_STAT.STATE n) = true → s.chkNeeds n ≠ 0 →
      ∃ t, exec (.chkAbort 0 n data) s = .next t ∧ t.fget (F.CHK_STAT.END n) = 7 ∧ t.flag (F.CHK_STAT.DONE n) = true ∧
        t.flag (F.CHK_STAT.STATE n) = false) ∧
    ((s.flag (F.CHK_STAT.STATE n) = false ∨ s.chkNeeds n = 0) →
      ∃ t, exec (.chkAbort 0 n data) s = .next t ∧ t.chks = s.chks ∧
        t.flag (F.CHK_STAT.STATE n) = s.flag (F.CHK_STAT.STATE n))) ∧
  (∀ (s : State) (n : Nat), s.chkUp n = true →
    (s.flag (F.CHK_STAT.STATE n) = true →
      (∀ bytes, s.flag (F.CHK_CFG.SRC n) = false → s.domOn 1 = true → s.rst.blk = false → s.chkNeeds n ≠ 0 →
        (bytes.length ≤ s.chkNeeds n →
          ∃ t, exec (.chkScanData n bytes false) s = .next t ∧ (t.chk n).taken = (s.chk n).taken + bytes.length ∧
            t.out = (s.hostRead (.scan n) (s.rd64 (O.CHK_SCAN_ADDR n) + (s.chk n).taken) bytes.length).out ∧
            t.flag (F.CHK_STAT.STATE n) = true) ∧
        ∃ t, exec (.chkScanData n bytes true) s = .next t ∧ t.fget (F.CHK_STAT.END n) = 6 ∧ t.flag (F.CHK_STAT.DONE n) = true ∧
          t.flag (F.CHK_STAT.STATE n) = false) ∧
      (s.chkNeeds n = 0 →
        ∃ t, exec (.chkRunEnd n) s = .next t ∧ t.flag (F.CHK_STAT.DONE n) = true ∧
          t.fget (F.CHK_STAT.END n) =
            (if s.flag (F.CHK_CFG.COMPARE n) then (if s.chkValue n = s.chkExpect n then 1 else 2) else 3) ∧
          t.flag (F.CHK_STAT.STATE n) = (s.flag (F.CHK_CTL.REARM n) && !s.quiesced 42) ∧ t.flag (F.CHK_RESULT.VALID n) = true ∧
          t.rd64 (O.CHK_RESULT n + 4) = s.chkValue n % 2 ^ 64 ∧
          (t.fget (F.CHK_STAT.END n) = 2 → t.flag (F.CHK_STAT.MISMATCH n) = true))) ∧
    ((s.chk n).stale = true → s.flag (F.CHK_CFG.ALIVE_EN n) = true → s.fget (F.CHK_ALIVE.STALE_US n) ≠ 0 →
      (∃ t, exec (.chkStaleExpiry n false) s = .next t ∧ t.flag (F.CHK_STAT.STALE n) = true ∧ t.fget (F.CHK_STAT.ALIVE n) = 5 ∧
        (t.chk n).stale = false) ∧
      exec (.chkStaleExpiry n true) s = .next s)) ∧
  (∀ (s : State) (n key : Nat), s.Reaches (O.CHK_RESULT n) key →
    ∃ t, exec (.chkResultRead 0 n) s = .next t ∧ t.slv = some ⟨false, BitVec.ofNat 64 (s.rd key).toNat⟩ ∧ t.regs = s.regs ∧
      ∀ i, i < 3 → KMap.find? t.hold (key + 4 + 4 * i) = some (s.rd (key + 4 + 4 * i))) ∧
  (∀ (s : State) (key : Nat) (data : Word), s.Reaches O.CHK_SEAL key →
    (s.flag F.CHK_SEAL.SEALED = false → getBits data 16 16 = 0x5EA1 →
      ∃ t, exec (.chkSealWrite 0 data) s = .next t ∧ t.flag F.CHK_SEAL.SEALED = true ∧ OnlyWords s t [O.CHK_SEAL]) ∧
    (s.flag F.CHK_SEAL.SEALED = false → getBits data 16 16 ≠ 0x5EA1 →
      ∃ t, exec (.chkSealWrite 0 data) s = .next t ∧ t.regs = s.regs ∧ t.slv = some ⟨false, 0⟩) ∧
    (s.flag F.CHK_SEAL.SEALED = true →
      ∃ t, exec (.chkSealWrite 0 data) s = .next t ∧ t.regs = s.regs ∧ t.slv = some ⟨true, 0⟩))

/-- Commands of a DMA channel (12_dma_and_planes.md R322, R324, R326, R329, R330, R334, R336, R340): a start runs, or ends at once with
CFG, ADDR_ERR or PERM, or with OK where it has nothing to move, each kind of run by its own checks; a start of a channel at work is
refused with CFG_ERR; in SAFEHOLD and in DORMANT start and resume are answered with an error; PAUSE and ABORT drain; RESUME goes on.
Where the spec is open it follows the model's choices (notes/assumptions/41.md). -/
def Obligations.DmaCommands : Prop :=
  ∀ (s : State) (n key : Nat) (data : Word), n < s.cfg.dmaChannels → s.Reaches (O.DMA_CH_CTL n) key →
    let u := s.writeFields (O.DMA_CH_CTL n) (data ||| 0x80000000)
    let src := s.rd64 (O.DMA_CH_SRC n)
    let dst := s.rd64 (O.DMA_CH_DST n)
    let c := s.dmaCount n
    let live := s.mode ≠ 6 ∧ s.mode ≠ 7
    let ends (e : Nat) : Prop := ∃ t, exec (.dmaStart 0 n data) s = .next t ∧ t.fget (F.DMA_CH_STAT.ERR n) = e ∧
      t.flag (F.DMA_CH_STAT.DONE n) = true ∧ t.dmaState n = 0
    let runs : Prop := ∃ t, exec (.dmaStart 0 n data) s = .next t ∧ t.dmaState n = 1 ∧ (t.dma n).moved = 0 ∧ t.dmaCount n = c
    (live → s.dmaState n = 0 → s.flag (F.DMA_CH_STAT.CPL_WAIT n) = false → getBits data 28 3 = 0 →
      ((u.dmaMode n = 3 ∨ u.dmaOp n = 3 ∨ (u.dmaOp n ≠ 0 ∧ u.dmaMode n ≠ 0) ∨ 5 ≤ s.rd64 (O.DMA_CH_PLANE n) / 2 ^ 16 % 8) → ends 1) ∧
      (s.rd64 (O.DMA_CH_PLANE n) / 2 ^ 16 % 8 < 5 →
        (u.dmaMode n = 0 → u.dmaOp n = 0 →
          (2 ^ 44 ≤ src ∨ 2 ^ 44 ≤ dst ∨ 2 ^ 44 < src + c ∨ 2 ^ 44 < dst + c → ends 2) ∧
          (src < 2 ^ 44 → dst < 2 ^ 44 → src + c ≤ 2 ^ 44 → dst + c ≤ 2 ^ 44 →
            let barred := (s.permBad n src c false).isSome = true ∨ (s.permBad n dst c true).isSome = true
            (barred → ends 4) ∧ (¬ barred → c ≠ 0 → runs) ∧ (c = 0 → ends 0))) ∧
        (u.dmaMode n = 1 → u.dmaOp n = 0 →
          (2 ^ 44 ≤ src ∨ 2 ^ 44 ≤ dst → ends 2) ∧
          (src < 2 ^ 44 → dst < 2 ^ 44 →
            ((s.permBad n (s.dmaList n) 16 false).isSome = true → ends 4) ∧
            ((s.permBad n (s.dmaList n) 16 false).isSome = false → runs))) ∧
        (u.dmaMode n = 2 → u.dmaOp n = 0 →
          let fits (g : Nat) : Prop := s.rd64 g % 2 ^ 16 ≠ 0 ∧ s.rd64 g / 2 ^ 16 % 2 ^ 16 ≠ 0 ∧
            c ≤ s.rd64 g % 2 ^ 16 * (s.rd64 g / 2 ^ 16 % 2 ^ 16)
          let good := (s.mode = 1 ∨ s.flag F.DMA_CTL.TWO_D_EN = true) ∧ fits (O.DMA_CH_SGEOM n) ∧ fits (O.DMA_CH_DGEOM n)
          (¬ good → ends 1) ∧
          (good → src < 2 ^ 44 → dst < 2 ^ 44 → (c ≠ 0 → runs) ∧ (c = 0 → ends 0))) ∧
        (u.dmaMode n = 0 → (u.dmaOp n = 1 ∨ u.dmaOp n = 2) →
          let stream := if u.dmaOp n = 1 then src else dst
          let plane := if u.dmaOp n = 1 then dst else src
          ((c % s.dmaP n ≠ 0 ∨ c * 8 % (s.dmaP n * s.dmaW n) ≠ 0) → ends 1) ∧
          (c % s.dmaP n = 0 → c * 8 % (s.dmaP n * s.dmaW n) = 0 → s.flag F.DMA_WIN.EN = false → src < 2 ^ 44 → dst < 2 ^ 44 →
            stream + c ≤ 2 ^ 44 → (∀ p, p < s.dmaP n → plane + p * s.dmaPStride n + c / s.dmaP n ≤ 2 ^ 44) →
            (c ≠ 0 → runs) ∧ (c = 0 → ends 0))))) ∧
    (live → (s.dmaState n ≠ 0 ∨ s.flag (F.DMA_CH_STAT.CPL_WAIT n) = true ∨ getBits data 28 3 ≠ 0) →
      ∃ t, exec (.dmaStart 0 n data) s = .next t ∧ t.flag (F.DMA_CH_STAT.CFG_ERR n) = true ∧ t.dmas = s.dmas ∧
        t.dmaState n = s.dmaState n) ∧
    (¬ live → ∀ i ∈ [Instr.dmaStart 0 n data, .dmaResume 0 n data],
      ∃ t, exec i s = .next t ∧ t.slv = some ⟨true, 0⟩ ∧ t.regs = s.regs ∧ t.dmas = s.dmas) ∧
    (getBits data 28 2 = 0 →
      (s.dmaState n = 1 → ∃ t, exec (.dmaPause 0 n data) s = .next t ∧ t.dmaState n = 2 ∧ (t.dma n).target = 0 ∧
        OnlyWords s t [O.DMA_CH_STAT n, O.DMA_STAT]) ∧
      (s.dmaState n ≠ 1 → ∃ t, exec (.dmaPause 0 n data) s = .next t ∧ t.regs = s.regs ∧ t.dmas = s.dmas)) ∧
    (live → bitOf data 28 = false →
      (∀ i, (bitOf data 29 = true ∧ i = Instr.dmaPause 0 n data ∨ bitOf data 30 = true ∧ i = .dmaResume 0 n data) →
        ∃ t, exec i s = .next t ∧ t.flag (F.DMA_CH_STAT.CFG_ERR n) = true ∧ t.dmas = s.dmas ∧ t.dmaState n = s.dmaState n) ∧
      (bitOf data 30 = false →
        (s.dmaState n = 3 →
          ∃ t, exec (.dmaResume 0 n data) s = .next t ∧ t.dmaState n = 1 ∧ t.flag (F.DMA_CH_STAT.SH_PAUSED n) = false ∧
            ((s.dma n).have_ = true → (s.dma n).last = true → s.flag (F.DMA_CH_STAT.AT_END n) = false →
              t.flag (F.DMA_CH_STAT.END_PEND n) = true) ∧
            OnlyWords s t [O.DMA_CH_STAT n, O.DMA_STAT]) ∧
        (s.dmaState n = 0 → s.flag (F.DMA_CH_STAT.AT_END n) = true →
          ∃ t, exec (.dmaResume 0 n data) s = .next t ∧ t.dmaState n = 0 ∧ t.flag (F.DMA_CH_STAT.END_PEND n) = true ∧
            OnlyWords s t [O.DMA_CH_STAT n]))) ∧
    ((live ∨ bitOf data 29 = false) →
      ((s.dmaState n = 1 ∨ s.dmaState n = 3) →
        ∃ t, exec (.dmaAbort 0 n data) s = .next t ∧ t.dmaState n = 2 ∧ (t.dma n).target = 6 ∧
          OnlyWords s t [O.DMA_CH_STAT n, O.DMA_STAT]) ∧
      (s.dmaState n = 0 → s.flag (F.DMA_CH_STAT.AT_END n) = true →
        ∃ t, exec (.dmaAbort 0 n data) s = .next t ∧ t.dmaState n = 0 ∧ t.flag (F.DMA_CH_STAT.AT_END n) = false))

/-- What a DMA run does (02_boundary_and_access.md R59; 12_dma_and_planes.md R326, R329 to R334, R336 to R339): a run moves the rest of
its bytes and ends with OK, after its write responses where FENCE is set, a linear one reading its source and writing its destination
through the master port; a drained channel pauses or ends with its status; an access error names its address; list entries, from host
memory or from the window, load the channel or link on; the end entry is checked once more; the record of a privileged channel goes
to the completion queue, an error on its write being a late write error, and the queue's head never passes its tail. Where the spec is
open it follows the model's choices (notes/assumptions/41.md). -/
def Obligations.DmaTransfers : Prop :=
  (∀ (s : State) (n : Nat), n < s.cfg.dmaChannels →
    let src := s.rd64 (O.DMA_CH_SRC n)
    let dst := s.rd64 (O.DMA_CH_DST n)
    let at_ := s.dmaList n
    let done (t : State) (st : Nat) : Prop :=
      t.dmaState n = 0 ∧ t.fget (F.DMA_CH_STAT.ERR n) = st ∧ t.flag (F.DMA_CH_STAT.DONE n) = true
    (∀ data, s.dmaState n = 1 → s.dmaMode n ≠ 1 → s.dmaBad n (s.dmaCount n) = none →
      let m := s.dmaMove n (s.dmaCount n) data
      ∃ t, exec (.dmaLastWriteIssued n data) s = .next t ∧ t.out = m.out ∧ t.emem = m.emem ∧ t.dmaCount n = 0 ∧
        (s.flag (F.DMA_CH_CTL.FENCE n) = true → t.dmaState n = 4) ∧ (s.flag (F.DMA_CH_CTL.FENCE n) = false → done t 0)) ∧
    (∀ data, s.dmaState n = 1 → s.dmaMode n = 1 → s.flag (F.DMA_CH_STAT.AT_END n) = true → s.dmaCount n = 0 →
      s.dmaBad n 0 = none →
      ∃ t, exec (.dmaLastWriteIssued n data) s = .next t ∧ t.out = s.out ∧ t.emem = s.emem ∧
        (s.flag (F.DMA_CH_CTL.FENCE n) = true → t.dmaState n = 4) ∧ (s.flag (F.DMA_CH_CTL.FENCE n) = false → done t 0)) ∧
    (∀ k data, s.dmaMode n = 0 → s.dmaOp n = 0 → s.flag F.DMA_WIN.EN = false → src + k ≤ 2 ^ 44 → dst + k ≤ 2 ^ 44 →
      src < 2 ^ 44 → dst < 2 ^ 44 → data.length = k → k ≠ 0 →
      let out := ((s.hostRead (.chan n) src k).hostWrite (.chan n) dst data).out
      (s.dmaState n = 1 → k = s.dmaCount n → ∃ t, exec (.dmaLastWriteIssued n data) s = .next t ∧ t.out = out ∧ t.emem = s.emem) ∧
      (s.dmaState n = 2 → k ≤ s.dmaCount n → ∃ t, exec (.dmaDrainDone n k data) s = .next t ∧ t.out = out ∧ t.emem = s.emem)) ∧
    (∀ k data, s.dmaState n = 2 → k ≤ s.dmaCount n → k % s.dmaGroup n = 0 → s.dmaBad n k = none → (s.dma n).target ≤ 6 →
      (s.dmaMode n = 1 → (s.dma n).have_ = false → k = 0) →
      ∃ t, exec (.dmaDrainDone n k data) s = .next t ∧ t.dmaCount n = s.dmaCount n - k ∧ t.out = (s.dmaMove n k data).out ∧
        ((s.dma n).target = 0 → t.dmaState n = 3) ∧ ((s.dma n).target ≠ 0 → done t (s.dma n).target)) ∧
    (s.dmaState n = 4 → ∃ t, exec (.dmaFenceDone n) s = .next t ∧ done t 0) ∧
    (∀ cause addr,
      ((cause = 3 ∨ cause = 5) → (s.dmaState n = 1 ∨ s.dmaState n = 2 ∨ (s.dmaState n = 4 ∧ cause = 3)) →
        ∃ t, exec (.dmaAccessError n cause addr) s = .next t ∧ t.dmaState n = 2 ∧ (t.dma n).target = cause ∧
          t.rd64 (O.DMA_CH_ERRADDR n) = addr % 2 ^ 44) ∧
      (∀ a, (cause = 2 ∨ cause = 4) → s.dmaBad n (s.dmaCount n) = some (cause, a) → (s.dmaState n = 1 ∨ s.dmaState n = 2) →
        ∃ t, exec (.dmaAccessError n cause addr) s = .next t ∧ t.dmaState n = 2 ∧ (t.dma n).target = cause ∧
          t.rd64 (O.DMA_CH_ERRADDR n) = a % 2 ^ 44)) ∧
    (∀ entry err data, s.dmaState n = 1 → s.dmaMode n = 1 → (s.dma n).have_ = false →
      let r := s.listFetch n at_ 16 entry err
      let addr := hostWord2 r.2.1 0
      let len := hostWord r.2.1 2
      let fin := decide (hostWord r.2.1 3 / 2 ^ 31 % 2 = 1)
      let link := decide (hostWord r.2.1 3 / 2 ^ 30 % 2 = 1)
      let other := if s.flag (F.DMA_CH_CTL.LIST_SIDE n) then src else dst
      let badLink := 2 ^ 44 ≤ addr ∨ addr % 16 ≠ 0
      let badData := addrOk addr len = false ∨ 2 ^ 44 < other + len
      ((s.permBad n at_ 16 false).isSome = true → r.1 = 4) ∧
      ((s.permBad n at_ 16 false).isSome = false → s.inWin at_ = false →
        r.1 = (if err then 3 else 0) ∧ r.2.1 = entry ∧ r.2.2.out = (s.hostRead (.chan n) at_ 16).out) ∧
      ((s.permBad n at_ 16 false).isSome = false → s.inWin at_ = true →
        r.1 = (if err then 5 else 0) ∧ r.2.1 = s.ebytes (s.winPlace at_).1 (s.winPlace at_).2 16 ∧ r.2.2.out = s.out) ∧
      ∃ t, exec (.dmaListFetchReturn n entry err data) s = .next t ∧ t.out = r.2.2.out ∧
        (r.1 ≠ 0 → t.dmaState n = 2 ∧ (t.dma n).target = r.1 ∧ t.rd64 (O.DMA_CH_ERRADDR n) = at_ % 2 ^ 44) ∧
        (r.1 = 0 → fin = false → link = true → badLink → t.dmaState n = 2 ∧ (t.dma n).target = 2) ∧
        (r.1 = 0 → fin = false → link = true → ¬ badLink → t.rd64 (O.DMA_CH_LIST n) = addr ∧ t.dmaState n = 1) ∧
        (r.1 = 0 → (fin = true ∨ link = false) → badData → t.dmaState n = 2 ∧ (t.dma n).target = 2) ∧
        (r.1 = 0 → (fin = true ∨ link = false) → ¬ badData →
          t.dmaCount n = len ∧ (t.dma n).addr = addr ∧ (t.dma n).have_ = true ∧ (t.dma n).last = fin ∧
            t.flag (F.DMA_CH_STAT.END_PEND n) = fin ∧ t.dmaState n = 1)) ∧
    (∀ entry data, s.dmaState n = 1 → s.dmaMode n = 1 → (s.dma n).have_ = true → (s.dma n).last = false →
      s.dmaBad n (s.dmaCount n) = none → s.flag F.DMA_WIN.EN = false →
      let m := s.dmaMove n (s.dmaCount n) data
      (at_ + 16 < 2 ^ 44 →
        ∃ t, exec (.dmaListFetchReturn n entry true data) s = .next t ∧ t.out = (m.hostRead (.chan n) (at_ + 16) 16).out ∧
          t.dmaState n = 2 ∧ (t.dma n).target = 3 ∧ t.rd64 (O.DMA_CH_ERRADDR n) = at_ + 16) ∧
      (2 ^ 44 ≤ at_ + 16 →
        ∃ t, exec (.dmaListFetchReturn n entry false data) s = .next t ∧ t.out = m.out ∧ t.dmaState n = 2 ∧
          (t.dma n).target = 2)) ∧
    (∀ word err data, s.flag (F.DMA_CH_STAT.END_PEND n) = true →
      let next (w : Word) := if bitOf w 30 = true ∨ at_ + 16 < 2 ^ 44 then 1 else 2
      (s.dmaState n = 0 →
        let r := s.listFetch n (at_ + 12) 4 (natLe 4 word.toNat) err
        let w : Word := BitVec.ofNat 32 (leNat r.2.1)
        ∃ t, exec (.dmaEndFetchReturn n word err data) s = .next t ∧ t.flag (F.DMA_CH_STAT.END_PEND n) = false ∧
          (r.1 ≠ 0 → done t r.1 ∧ t.flag (F.DMA_CH_STAT.AT_END n) = false) ∧
          (r.1 = 0 → bitOf w 31 = true → t.dmaState n = 0 ∧
            t.flag (F.DMA_CH_STAT.AT_END n) = s.flag (F.DMA_CH_STAT.AT_END n)) ∧
          (r.1 = 0 → bitOf w 31 = false → t.dmaState n = next w ∧ t.flag (F.DMA_CH_STAT.AT_END n) = false)) ∧
      (s.dmaState n = 1 → s.dmaBad n (s.dmaCount n) = none →
        let r := (s.dmaMove n (s.dmaCount n) data).listFetch n (at_ + 12) 4 (natLe 4 word.toNat) err
        let w : Word := BitVec.ofNat 32 (leNat r.2.1)
        ∃ t, exec (.dmaEndFetchReturn n word err data) s = .next t ∧ t.flag (F.DMA_CH_STAT.END_PEND n) = false ∧
          t.out = r.2.2.out ∧
          (r.1 ≠ 0 → t.dmaState n = 2 ∧ (t.dma n).target = r.1) ∧
          (r.1 = 0 → bitOf w 31 = true → t.dmaState n = 1 ∧ t.flag (F.DMA_CH_STAT.AT_END n) = true) ∧
          (r.1 = 0 → bitOf w 31 = false → t.dmaState n = next w))) ∧
    (∀ addr, ∃ t, exec (.dmaLateWriteError n addr) s = .next t ∧ t.flag (F.DMA_CH_STAT.LATE_ERR n) = true ∧
      t.rd64 (O.DMA_CH_ERRADDR n) = addr % 2 ^ 44 ∧ t.dmas = s.dmas) ∧
    (∀ r err, (s.dma n).rec_ = some r → s.flag F.DMA_CQ_CFG.EN = true → 1 ≤ s.mode → s.mode ≤ 5 →
      let w := s.fget F.DMA_CQ_IDX.TAIL
      let l := s.fget F.DMA_CQ_CFG.L
      let a := s.rd64 O.DMA_CQ_BASE + 16 * (w % 2 ^ l)
      (w + 65536 - s.fget F.DMA_CQ_IDX.HEAD) % 65536 < 2 ^ l →
      ∃ t, exec (.dmaRecordWrite n err) s = .next t ∧ t.fget F.DMA_CQ_IDX.TAIL = (w + 1) % 65536 ∧ (t.dma n).rec_ = none ∧
        t.flag (F.DMA_CH_STAT.CPL_WAIT n) = false ∧
        t.out = s.out ++ [.write (.chan n) a
          (words4 ((if w / 2 ^ l % 2 = 0 then 2 ^ 31 else 0) + r.status * 2 ^ 24 + (s.dma n).seq % 256 * 2 ^ 16 + n) r.bytes r.list r.ns)] ∧
        (err = true → t.flag (F.DMA_CH_STAT.LATE_ERR n) = true ∧ t.rd64 (O.DMA_CH_ERRADDR n) = a % 2 ^ 44))) ∧
  (∀ (s : State) (key : Nat) (data : Word), s.Reaches O.DMA_CQ_IDX key →
    let h := s.fget F.DMA_CQ_IDX.HEAD
    let x := getBits data 0 16
    let past := decide ((s.fget F.DMA_CQ_IDX.TAIL + 65536 - h) % 65536 < (x + 65536 - h) % 65536)
    ∃ t, exec (.dmaCqHeadWrite 0 data) s = .next t ∧ t.fget F.DMA_CQ_IDX.HEAD = (if past then h else x) ∧
      t.fget F.DMA_CQ_IDX.TAIL = s.fget F.DMA_CQ_IDX.TAIL ∧ (past = true → t.flag F.DMA_CQ_CFG.HEAD_ERR = true))

/-- Bank commands and the debug word (13_buffer_memory_and_placement.md R343, R345, R354, R355; 15_interrupts.md R371): EVACUATE
refuses with its RESULT or closes the bank and has its granules moved until the last one has gone; RELEASE opens it; another OP is
refused; every RESULT raises source 10; a word written through the window stands there, loses its poison, and reads back, a poisoned
word of a FREE granule is read as zeros and cleaned. Where the spec is open it follows the model's choices
(notes/assumptions/34.md, notes/assumptions/35.md, notes/assumptions/64.md). -/
def Obligations.BanksAndDebugWord : Prop :=
  (∀ (s : State) (key : Nat) (data : Word), s.Reaches O.MEM_BANK_CMD key →
    let b := getBits data 24 5
    let rest := (s.halfBanks (s.cfg.halfOfBank b)).filter fun x => x != b && s.bankOn x
    let room := rest.foldl (fun a x => a + s.freeIn x) 0
    let live := s.fget (F.MEM_BANK_STAT.LIVE b)
    (s.flag F.MEM_BANK_CMD.BUSY = true →
      ∃ t, exec (.bankEvacuate 0 data) s = .next t ∧ t.fget F.MEM_BANK_CMD.RESULT = 2 ∧ t.mem = s.mem ∧
        t.flag F.MEM_BANK_CMD.BUSY = true ∧ t.flag (pendFld 10) = true) ∧
    (s.flag F.MEM_BANK_CMD.BUSY = false →
      ((s.mode < 2 ∨ 5 < s.mode) →
        ∃ t, exec (.bankEvacuate 0 data) s = .next t ∧ t.fget F.MEM_BANK_CMD.RESULT = 5 ∧ t.mem = s.mem ∧
            t.flag (pendFld 10) = true) ∧
      (2 ≤ s.mode → s.mode ≤ 5 →
        (s.bankOn b = false →
          ∃ t, exec (.bankEvacuate 0 data) s = .next t ∧ t.fget F.MEM_BANK_CMD.RESULT = 3 ∧ t.mem = s.mem ∧
            t.flag (pendFld 10) = true) ∧
        (s.bankOn b = true → room < live →
          ∃ t, exec (.bankEvacuate 0 data) s = .next t ∧ t.fget F.MEM_BANK_CMD.RESULT = 4 ∧ t.mem = s.mem ∧
            t.flag (pendFld 10) = true) ∧
        (s.bankOn b = true → live ≤ room →
          ∃ t, exec (.bankEvacuate 0 data) s = .next t ∧ t.flag F.MEM_BANK_CMD.BUSY = true ∧ t.mem.evac = some b ∧
            t.flag (F.MEM_BANK_STAT.NOALLOC b) = true ∧ t.bankOpen b = false ∧ t.mem.grans = s.mem.grans ∧
            (∀ g ∈ bankGrans b, (s.gran g).live = true → g ∈ t.mem.moves) ∧ OnlyWords s t [O.MEM_BANK_CMD, O.MEM_BANK_STAT b]))) ∧
    (∃ t, exec (.bankRelease 0 data) s = .next t ∧ t.fget F.MEM_BANK_CMD.RESULT = (if s.bankOn b then 1 else 3) ∧ t.mem = s.mem ∧
      (s.bankOn b = true → t.flag (F.MEM_BANK_STAT.NOALLOC b) = false) ∧ t.flag (pendFld 10) = true ∧
      OnlyWords s t [O.MEM_BANK_CMD, O.MEM_BANK_STAT b, (pendFld 10).off]) ∧
    (∃ t, exec (.bankCmdUnknownOp 0 data) s = .next t ∧ t.fget F.MEM_BANK_CMD.RESULT = 3 ∧ t.mem = s.mem ∧
      t.flag (pendFld 10) = true ∧ OnlyWords s t [O.MEM_BANK_CMD, (pendFld 10).off])) ∧
  (∀ (s : State) (b : Nat), s.mem.evac = some b → s.fget (F.MEM_BANK_STAT.LIVE b) = 0 →
    ∃ t, exec .evacuateDone s = .next t ∧ t.flag F.MEM_BANK_CMD.BUSY = false ∧ t.fget F.MEM_BANK_CMD.RESULT = 1 ∧
      t.mem = { s.mem with evac := none } ∧ t.flag (pendFld 10) = true) ∧
  (∀ (s : State) (key : Nat) (data : Word), s.Reaches (O.MEM_DBG_DATA + 4) key →
    let a := s.dbgAddr
    let lo := (KMap.find? s.stage O.MEM_DBG_DATA).getD (s.rd O.MEM_DBG_DATA)
    (s.bankOn (a / 262144) = true → (s.gran (a / 4096)).plain = true → s.mayWrite 14 (a / 4096) = true →
      ∃ t, exec (.memDbgWrite 0 data) s = .next t ∧ KMap.find? t.mem.words (a / 8) = some (data ++ lo) ∧
        t.wordPoisoned a = false ∧ t.slv = some ⟨false, 0⟩) ∧
    ((s.bankOn (a / 262144) = false ∨ (s.gran (a / 4096)).plain = false ∨ s.mayWrite 14 (a / 4096) = false) →
      ∃ t, exec (.memDbgWrite 0 data) s = .next t ∧ t.slv = some ⟨true, 0⟩ ∧ t.mem = s.mem ∧ t.frames = s.frames)) ∧
  (∀ (s : State) (key : Nat), s.Reaches O.MEM_DBG_DATA key →
    let a := s.dbgAddr
    (∀ w, s.bankOn (a / 262144) = true → (s.gran (a / 4096)).plain = true → s.mayRead 14 (a / 4096) = true → s.wordPoisoned a = false →
      (∀ i, i < 8 → s.frameAt (a + i) = none) → KMap.find? s.mem.words (a / 8) = some w →
      ∃ t, exec (.memDbgRead 0) s = .next t ∧ t.slv = some ⟨false, BitVec.ofNat 64 (w.toNat % 2 ^ 32)⟩ ∧
        KMap.find? t.hold (O.MEM_DBG_DATA + 4) = some (w.extractLsb' 32 32) ∧ t.mem = s.mem) ∧
    (s.bankOn (a / 262144) = true → s.mayRead 14 (a / 4096) = true → s.wordPoisoned a = false →
      ∃ t, exec (.memDbgRead 0) s = .next t ∧ t.slv = some ⟨false, BitVec.ofNat 64 ((s.dbgWord a).1.toNat % 2 ^ 32)⟩ ∧
        KMap.find? t.hold (O.MEM_DBG_DATA + 4) = some ((s.dbgWord a).1.extractLsb' 32 32) ∧ t.mem = s.mem ∧ t.regs = s.regs) ∧
    (s.bankOn (a / 262144) = true → s.mayRead 14 (a / 4096) = true → s.wordPoisoned a = true → (s.gran (a / 4096)).state = 0 →
      ∃ t, exec (.memDbgRead 0) s = .next t ∧ t.slv = some ⟨false, 0⟩ ∧ KMap.find? t.hold (O.MEM_DBG_DATA + 4) = some 0 ∧
        t.wordPoisoned a = false) ∧
    ((s.bankOn (a / 262144) = false ∨ s.mayRead 14 (a / 4096) = false ∨
        (s.wordPoisoned a = true ∧ (s.gran (a / 4096)).state ≠ 0)) →
      ∃ t, exec (.memDbgRead 0) s = .next t ∧ t.slv = some ⟨true, 0⟩ ∧ t.mem = s.mem ∧
        KMap.find? t.hold (O.MEM_DBG_DATA + 4) = some 0))

/-- Migration, the pointing pass and errors (13_buffer_memory_and_placement.md R347, R348, R351 to R356;
18_faults_and_selftest.md R416, R417, R419; 09_engine_threads.md R237): the first granule that waits and has a place moves, and
NO_SPARE tells of one that has none; at a move's end nothing lies in the old granule and a word that read bad is poisoned; the pass
tests the next region; an error is counted once per region for its re-test, the first one is logged, an uncorrectable word in use is
poisoned unless a write meets it; a transient verdict is logged, a lasting one retires the granule and may contain the fault. Where the
spec is open it follows the model's choices (notes/assumptions/33.md, notes/assumptions/35.md, notes/assumptions/83.md). -/
def Obligations.MigrationAndErrors : Prop :=
  (∀ (s : State) (spill : List Nat),
    let l := s.mem.moves.filter fun x => decide ((s.gran x).state = 1) && s.bankOn (x / 64)
    let spare (g : Nat) : Option Nat :=
      s.pickGran ((s.halfBanks (s.cfg.halfOfBank (g / 64))).filter fun b => s.mem.evac != some b)
    ∃ t, exec (.migrationStart spill) s = .next t ∧ (spill ≠ [] → t.flag (pendFld 6) = true) ∧ t.frames = s.frames ∧
      (s.mem.move.isSome = true → t.mem = s.mem) ∧
      (s.mem.move = none →
        (l = [] → t.mem = { s.mem with moves := [] }) ∧
        (∀ first rest, l = first :: rest → spare first = none →
          t.flag F.MEM_STAT.NO_SPARE = true ∧ t.flag (pendFld (srcSpine s.cfg)) = true) ∧
        ((∀ g ∈ l, spare g = none) → t.mem = { s.mem with moves := l }) ∧
        (∀ g n, (l.findSome? fun g => (spare g).map fun n => (g, n)) = some (g, n) →
          t.mem.move = some (g, n) ∧ t.mem.moves = l.filter (· != g) ∧ (t.gran g).state = 2 ∧ (t.gran n).state = 2 ∧
            (t.gran n).owner = (s.gran g).owner ∧ t.flag F.MEM_STAT.MIGRATING = true))) ∧
  (∀ (s : State) (a b : Nat) (bad : List Nat), s.mem.move = some (a, b) → a ≠ b →
    ∃ t, exec (.migrationDone bad) s = .next t ∧ t.mem.move = none ∧ t.flag F.MEM_STAT.MIGRATING = false ∧
      (t.gran a).state = (if (s.gran a).retire then 3 else 0) ∧
      (∀ f, ∀ p ∈ (t.frame f).parts, p.1 ≠ a) ∧ (∀ f, (t.frame f).bytes = (s.frame f).bytes) ∧
      ∀ w ∈ bad, w < 512 → (t.gran b).state = 3 ∨ t.wordPoisoned (4096 * b + 8 * w) = true) ∧
  (∀ (s : State), s.flag F.MEM_PP_CFG.EN = true → s.mode ≠ 0 → s.mode ≠ 7 → s.mem.test = none →
    let r := s.fget F.MEM_PP_STAT.REGION
    (s.testable r = true →
      ∃ t, exec .pointingPassTimer s = .next t ∧ t.mem.test = some r ∧
        t.fget F.MEM_PP_STAT.REGION = (if r + 1 = 16 * s.cfg.granules then 0 else r + 1)) ∧
    ((∀ r, s.testable r = false) → exec .pointingPassTimer s = .next s)) ∧
  (∀ (s : State) (m addr : Nat) (unc : Bool) (ekey : List Byte) (own written : Bool),
    (addr < 4096 * s.cfg.granules → s.bankOn (addr / 262144) = true → (s.gran (addr / 4096)).state ≠ 3 →
      let a := s.movedAddr (addr / 8 * 8)
      let free := decide ((s.gran (a / 4096)).state = 0)
      let first := !(free && unc) && !s.flag F.MEM_ERR_LOG.VALID
      let again := s.mem.retests.any fun r => r.1 == a / 256
      ∃ t, exec (.retestStart 0 m addr unc ekey own written) s = .next t ∧
        t.rd64 (O.MEM_CNT (b2n unc)) = (s.rd64 (O.MEM_CNT (b2n unc)) + 1) % 2 ^ 64 ∧
        (again = true → t.mem.retests = s.mem.retests) ∧
        (again = false → s.mem.retests.length < 16 → t.mem.retests = s.mem.retests ++ [(a / 256, unc, a, first)]) ∧
        (again = true ∨ s.mem.retests.length < 16 →
          t.rd64 O.MEM_ERR_LOG =
            (if first then 2 ^ 63 + (if unc then 2 else 1) * 2 ^ 61 + m % 16 * 2 ^ 55 + a else s.rd64 O.MEM_ERR_LOG) % 2 ^ 64 ∧
          (unc = true → free = false → written = false → t.wordPoisoned a = true) ∧
          ((unc = false ∨ free = true ∨ written = true) → t.mem.grans = s.mem.grans)) ∧
        (again = false → 16 ≤ s.mem.retests.length → t.mem.retests = s.mem.retests ∧ t.flag (pendFld 6) = true ∧
          (first = true → t.fget F.MEM_ERR_LOG.VERDICT = 2) ∧
          ((s.gran (a / 4096)).state = 0 → (t.gran (a / 4096)).state = 3) ∧
          ((s.gran (a / 4096)).state = 1 → (t.gran (a / 4096)).retire = true ∧ (a / 4096) ∈ t.mem.moves))) ∧
    (m < s.cfg.engines → s.domOn (4 + s.cfg.clusterOf m) = true →
      ∃ t, exec (.retestStart 1 m addr unc ekey own written) s = .next t ∧
        t.mem.others = s.mem.others ++ [(1, m, addr % 262144, unc)] ∧
        t.rd64 (O.CE_CNT m 6) = (s.rd64 (O.CE_CNT m 6) + b2n (!unc && !own)) % 2 ^ 64) ∧
    (m < 4 → s.domOn 1 = true →
      ∃ t, exec (.retestStart 2 m addr unc ekey own written) s = .next t ∧ t.mem.others = s.mem.others ++ [(2, m, addr, unc)] ∧
        t.regs = s.regs)) ∧
  (∀ (s : State),
    let contained := s.flag F.FLT_ESC.MEM_LASTING = true ∧ 1 ≤ s.mode ∧ s.mode ≤ 5
    let lasting (t : State) (g : Nat) : Prop :=
      t.flag (pendFld 6) = true ∧ (contained → t.mode = 6 ∧ t.fget F.BLK_MODE.SH_CAUSE = 3) ∧
      ((s.gran g).state = 0 → (t.gran g).state = 3 ∧ bitOf (t.rd (O.MEM_RETIRED (g / 32))) (g % 32) = true) ∧
      ((s.gran g).state = 1 → (t.gran g).state = 3 ∨ ((t.gran g).retire = true ∧ g ∈ t.mem.moves)) ∧
      ((s.gran g).state = 1 → ¬ contained → (t.gran g).retire = true) ∧
      ((s.gran g).state = 2 → (t.gran g).retire = true)
    (∀ (x : Nat × Bool × Nat × Bool) (rest : List (Nat × Bool × Nat × Bool)), s.mem.retests = x :: rest →
      let a := x.2.2.1
      (∃ t, exec (.regionTestDone 0 false) s = .next t ∧ t.mem.retests = rest ∧ t.mem.grans = s.mem.grans ∧
        t.flag (pendFld (srcSpine s.cfg)) = true ∧
        (x.2.2.2 = true → s.flag F.MEM_ERR_LOG.VALID = true → s.fget F.MEM_ERR_LOG.ADDR = a → t.fget F.MEM_ERR_LOG.VERDICT = 1)) ∧
      (a / 4096 < s.cfg.granules →
        ∃ t, exec (.regionTestDone 0 true) s = .next t ∧ t.mem.retests = rest ∧ lasting t (a / 4096))) ∧
    (∀ r, s.mem.retests = [] → s.mem.test = some r →
      (∃ t, exec (.regionTestDone 0 false) s = .next t ∧ t.mem.test = none ∧ t.mem.grans = s.mem.grans ∧
        OnlyWords s t [O.MEM_CNT 8, O.MEM_CNT 8 + 4]) ∧
      (r < 16 * s.cfg.granules →
        ∃ t, exec (.regionTestDone 0 true) s = .next t ∧ t.mem.test = none ∧ lasting t (r / 16))) ∧
    (∀ kind o fail, kind ≠ 0 → s.mem.others.find? (fun o => o.1 == kind) = some o → o.2.1 < s.cfg.engines →
      ∃ t, exec (.regionTestDone kind fail) s = .next t ∧ t.mem.others = s.mem.others.erase o ∧
        (kind = 1 → fail = true → t.flag (F.CE_CTL.RUN o.2.1) = false ∧ t.flag (pendFld 6) = true ∧
          (contained → t.mode = 6 ∧ t.fget F.BLK_MODE.SH_CAUSE = 3)) ∧
        (kind ≠ 1 → t.flag (pendFld 6) = true ∧
          ((fail = true ∨ o.2.2.2 = true) → 1 ≤ s.mode → s.mode ≤ 5 → t.mode = 6 ∧ t.fget F.BLK_MODE.SH_CAUSE = 3))))

/-- Requests of power domains and wake sources (16_power_and_wake.md R383, R384, R387, R390, R392, R393): a TARGET that breaks an
order of the domains is refused with its RESULT and changes nothing else; one that stands is held with PEND, one that changes
nothing ends at once, and one between RET and OFF is carried out at once; while a transition runs it waits for its end or unwinds it;
a sealed safety island goes no lower than RET; a wake event is recorded and latched, unwinds entries, and in DORMANT powers the wake
set up; the listener wakes a port or opens its window. Where the spec is open it follows the model's choices
(notes/assumptions/9.md, notes/assumptions/21.md). -/
def Obligations.PowerRequests : Prop :=
  (∀ (s : State) (d key : Nat) (data : Word), s.Reaches (O.PWR_DOM d) key → 0 < d → d < 43 →
    let x := getBits data 0 2
    let parentOff := decide (s.target (parentDom s.cfg d) ≠ 0)
    let childOn := (childDoms s.cfg d).any fun k => s.target k == 0
    let held := (decide (4 ≤ d ∧ d < 8) && s.clusterRun (d - 4)) || (decide (d = 42 ∧ x = 2) && s.flag F.CHK_SEAL.SEALED)
    (x = 3 → ∃ t, exec (.powerTargetWrite 0 d data) s = .next t ∧ t.slv = some ⟨true, 0⟩ ∧ t.regs = s.regs ∧ t.doms = s.doms) ∧
    (∀ r ∈ ([(3, decide (x = 0) && parentOff), (4, decide (x = 1 ∨ x = 2) && childOn),
        (6, decide (x = 1 ∨ x = 2) && !childOn && decide (4 ≤ d ∧ d < 8) && s.clusterRun (d - 4))] : List (Nat × Bool)), r.2 = true →
      ∃ t, exec (.powerTargetWrite 0 d data) s = .next t ∧ t.fget (F.PWR_DOM.RESULT d) = r.1 ∧ t.target d = s.target d ∧
        t.doms = s.doms) ∧
    ((s.dom d).phase = .idle → s.domState d = 0 → (x = 1 ∨ x = 2) → childOn = false →
      (4 ≤ d → d < 8 → s.clusterRun (d - 4) = false) →
      ∃ t, exec (.powerTargetWrite 0 d data) s = .next t ∧ t.flag (F.PWR_DOM.PEND d) = true ∧ t.doms = s.doms ∧
        t.target d = (if d = 42 ∧ x = 2 ∧ s.flag F.CHK_SEAL.SEALED = true then 1 else x) ∧
        t.fget (F.PWR_DOM.RESULT d) =
          (if 18 ≤ d ∧ d < 42 ∧ s.bankLive (d - 18) ≠ 0 then 5 else if d ≤ 3 then 7 else 0) ∧ OnlyWords s t [O.PWR_DOM d]) ∧
    ((s.dom d).phase = .idle → s.domState d ≠ 0 → x = 0 → parentOff = false →
      ∃ t, exec (.powerTargetWrite 0 d data) s = .next t ∧ t.target d = 0 ∧ t.flag (F.PWR_DOM.PEND d) = true ∧
        (t.dom d).phase = .wait false) ∧
    -- nothing to do, or between RET and OFF
    ((s.dom d).phase = .idle → x = s.domState d → (x = 0 → parentOff = false) → (x ≠ 0 → x ≠ 3 ∧ childOn = false ∧ held = false) →
      ∃ t, exec (.powerTargetWrite 0 d data) s = .next t ∧ t.target d = x ∧ t.domState d = x ∧ t.flag (F.PWR_DOM.PEND d) = false ∧
        t.fget (F.PWR_DOM.RESULT d) = 1 ∧ t.doms = s.doms) ∧
    ((s.dom d).phase = .idle → (x = 1 ∨ x = 2) → s.domState d ≠ 0 → s.domState d ≠ x → childOn = false → held = false →
      ∃ t, exec (.powerTargetWrite 0 d data) s = .next t ∧ t.domState d = x ∧ t.flag (F.PWR_DOM.PEND d) = false ∧
        t.fget (F.PWR_DOM.RESULT d) = 1 ∧ (t.dom d).ret = decide (x = 1) ∧ (t.dom d).phase = .idle) ∧
    -- while a transition runs
    (∀ off step, (s.dom d).phase = .enter off step → x = 0 → parentOff = false →
      ∃ t, exec (.powerTargetWrite 0 d data) s = .next t ∧ t.target d = 0 ∧ t.flag (F.PWR_DOM.PEND d) = true ∧
        (step ≤ 5 → s.flag (F.PWR_DOM.LISTEN d) = false → (t.dom d).phase = .unwind off step) ∧
        (5 < step → (t.dom d).phase = .enter off step ∧ (t.dom d).next = some 0)) ∧
    ((s.dom d).phase ≠ .idle → (∀ l, (s.dom d).phase ≠ .wait l) → (x = 1 ∨ x = 2) → childOn = false → held = false →
      ∃ t, exec (.powerTargetWrite 0 d data) s = .next t ∧ t.target d = x ∧ t.flag (F.PWR_DOM.PEND d) = true ∧
        (t.dom d).phase = (s.dom d).phase ∧ (t.dom d).next = some x) ∧
    (∀ l, (s.dom d).phase = .wait l → (x = 1 ∨ x = 2) → childOn = false → held = false →
      ∃ t, exec (.powerTargetWrite 0 d data) s = .next t ∧ t.target d = x ∧ t.flag (F.PWR_DOM.PEND d) = false ∧
        t.fget (F.PWR_DOM.RESULT d) = 1 ∧ (t.dom d).phase = .idle)) ∧
  (∀ (s : State) (key : Nat) (data : Word), s.Reaches O.PWR_WAKE_REQ key →
    (bitOf data 0 = true →
      ∃ t, exec (.wakeRequest 0 data) s = .next t ∧ t.flag F.PWR_LASTWAKE.VALID = true ∧ t.fget F.PWR_LASTWAKE.SRC = 5 ∧ 16 ∈ t.latches ∧
        t.flag F.PWR_LASTWAKE.MULTI = (s.flag F.PWR_LASTWAKE.MULTI || s.flag F.PWR_LASTWAKE.VALID)) ∧
    (bitOf data 0 = false → ∃ t, exec (.wakeRequest 0 data) s = .next t ∧ t.regs = s.regs ∧ t.doms = s.doms)) ∧
  (∀ (s : State) (src i filt : Nat) (met : Bool), src < 6 → i < 16 → filt < 16 →
    let was := s.flag F.PWR_LASTWAKE.VALID
    let o := s.fget F.PWR_LASTWAKE.SRC
    let keep := met = true ∧ was = true ∧ (o < src ∨ (o = src ∧ s.fget F.PWR_LASTWAKE.INDEX ≤ i))
    (s.wakeEnabled src i filt = false → exec (.wakeEvent src i filt met) s = .next s) ∧
    (s.wakeEnabled src i filt = true →
      ∃ t, exec (.wakeEvent src i filt met) s = .next t ∧ t.flag F.PWR_LASTWAKE.VALID = true ∧ 16 ∈ t.latches ∧
        t.flag F.PWR_LASTWAKE.MULTI = (s.flag F.PWR_LASTWAKE.MULTI || was) ∧
        (¬ keep → t.fget F.PWR_LASTWAKE.SRC = src ∧ t.fget F.PWR_LASTWAKE.INDEX = i ∧ t.fget F.PWR_LASTWAKE.FILTER = filt) ∧
        (keep → t.fget F.PWR_LASTWAKE.SRC = o ∧ t.fget F.PWR_LASTWAKE.INDEX = s.fget F.PWR_LASTWAKE.INDEX) ∧
        (∀ d off step, d ∈ domList s.cfg → (s.dom d).phase = .enter off step → step ≤ 5 → s.flag (F.PWR_DOM.LISTEN d) = false →
          (t.dom d).phase = .unwind off step) ∧
        (s.mode = 7 → ∀ d ∈ s.wakeSet, (s.dom d).phase = .idle → s.domState d ≠ 0 →
          (t.dom d).phase = .wait false ∧ t.target d = 0))) ∧
  (∀ (s : State) (p : Nat), p < 8 → s.cfg.hasDomain (8 + p) = true → bitOf (s.rd O.PWR_LISTEN) (16 + p) = true →
    exec (.listenSample p false) s = .next s ∧
    ((s.domState (8 + p) = 1 ∨ s.domState (8 + p) = 2) → s.flag F.PWR_WAKE_EN.LINK = true →
      ∃ t, exec (.listenSample p true) s = .next t ∧ t.fget F.PWR_LASTWAKE.SRC = 1 ∧ t.fget F.PWR_LASTWAKE.INDEX = p ∧
        16 ∈ t.latches) ∧
    (s.domState (8 + p) = 1 → s.flag F.PWR_WAKE_EN.LINK = false → s.wakeFilters p = true → (s.dom (8 + p)).phase = .idle →
      ∃ t, exec (.listenSample p true) s = .next t ∧ (t.dom (8 + p)).phase = .wait true ∧ t.regs = s.regs)) ∧
  (∀ (s : State) (p : Nat), (s.dom (8 + p)).phase = .listening 0 → s.target (8 + p) ≠ 0 →
    ∃ t, exec (.listenWindowEnd p) s = .next t ∧ (t.dom (8 + p)).phase = .enter false 1 ∧ t.regs = s.regs)

/-- The power sequencer (16_power_and_wake.md R382, R385 to R390, R393, R395; 14_check_units_safety_island.md R358): with nothing to do
a step does nothing; an entry starts, waits for its drain, isolates, opens the switch, and ends in its state, RET keeping the contents;
an unwound entry ends ON with ABORTED; a power-up is granted within the inrush budget, waits for it otherwise, and its acknowledge,
delay, restore and release end ON or listening; without an acknowledge it is given up; the block leaves DORMANT when the wake set is
ON. Where the spec is open it follows the model's choices (notes/assumptions/21.md). -/
def Obligations.PowerSequences : Prop :=
  (∀ (s : State) (d : Nat), s.mode ≠ 0 → s.mode ≠ 7 → d ∈ domList s.cfg →
    (∀ x ∈ domList s.cfg, x ≠ d → (s.dom x).phase = .idle) →
    ((s.dom d).phase = .idle → (∀ x ∈ domList s.cfg, s.entryReady x = false) → exec .sequencerStep s = .next s) ∧
    ((s.dom d).phase = .idle → s.entryReady d = true →
      ∃ t, exec .sequencerStep s = .next t ∧ (t.dom d).phase = .enter (decide (s.target d = 2)) 1 ∧ t.domState d = 3 ∧
        t.flag (F.PWR_DOM.PEND d) = true) ∧
    -- an entry, step by step
    (∀ off step, (s.dom d).phase = .enter off step → (step = 1 ∨ step = 4 ∨ (step = 2 ∧ s.drained d = true)) →
      ∃ t, exec .sequencerStep s = .next t ∧ t.dom d = { s.dom d with phase := .enter off (step + 1) }) ∧
    (∀ off, (s.dom d).phase = .enter off 2 → s.drained d = false →
      ∃ t, exec .sequencerStep s = .next t ∧ t.dom d = s.dom d) ∧
    (∀ off, (s.dom d).phase = .enter off 3 →
      let off' := off && !(decide (d = 42) && s.flag F.CHK_SEAL.SEALED)
      ∃ t, exec .sequencerStep s = .next t ∧ (t.dom d).phase = .enter off' 4 ∧ (t.dom d).ret = !off') ∧
    (∀ off, (s.dom d).phase = .enter off 5 →
      ∃ t, exec .sequencerStep s = .next t ∧ (t.dom d).phase = .enter off 6 ∧ (t.dom d).iso = true ∧ t.domOn d = false) ∧
    (∀ off, (s.dom d).phase = .enter off 6 →
      ∃ t, exec .sequencerStep s = .next t ∧ (t.dom d).phase = .enter off 7 ∧ (t.dom d).psw = false) ∧
    (∀ off, (s.dom d).phase = .enter off 7 → (s.dom d).next = none → s.target d ≠ 0 →
      ∃ t, exec .sequencerStep s = .next t ∧ (t.dom d).phase = .idle ∧ t.domState d = (if off then 2 else 1) ∧
        t.flag (F.PWR_DOM.PEND d) = false ∧ t.fget (F.PWR_DOM.RESULT d) = 1 ∧ 19 ∈ t.latches ∧
        (off = false → t.emem = s.emem ∧ t.mem = s.mem ∧ t.chks = s.chks)) ∧
    (∀ off, (s.dom d).phase = .enter off 7 → (s.dom d).next = some 0 →
      ∃ t, exec .sequencerStep s = .next t ∧ (t.dom d).phase = .wait false ∧ t.target d = 0 ∧ t.flag (F.PWR_DOM.PEND d) = true) ∧
    -- an entry that unwinds
    (∀ off step, (s.dom d).phase = .unwind off step → 1 < step →
      ∃ t, exec .sequencerStep s = .next t ∧
        t.dom d = { s.dom d with ret := if step ≤ 4 then false else (s.dom d).ret, phase := .unwind off (step - 1) }) ∧
    (∀ off, (s.dom d).phase = .unwind off 1 → (s.dom d).next = none →
      ∃ t, exec .sequencerStep s = .next t ∧ (t.dom d).phase = .idle ∧ t.domState d = 0 ∧ t.fget (F.PWR_DOM.RESULT d) = 2 ∧
        t.flag (F.PWR_DOM.PEND d) = false ∧ t.flag F.PWR_STAT.ABORTED = true ∧ 18 ∈ t.latches) ∧
    -- a power-up
    (∀ l, (s.dom d).phase = .wait l →
      ((s.gasp.isSome = true ∨ (s.domState (parentDom s.cfg d) ≠ 0 ∧ l = false)) →
        ∃ t, exec .sequencerStep s = .next t ∧ t.dom d = s.dom d) ∧
      ((s.domState (parentDom s.cfg d) = 0 ∨ l = true) → s.gasp = none →
        (s.fget F.PWR_STAT.USED + s.domCost d ≤ s.fget F.PWR_INRUSH.BUDGET →
          ∃ t, exec .sequencerStep s = .next t ∧ (t.dom d).phase = .ack (s.fget F.PWR_WDLY.ACK_LIM) l ∧ (t.dom d).psw = true ∧
            t.domState d = 3 ∧ t.fget F.PWR_STAT.USED = s.fget F.PWR_STAT.USED + s.domCost d) ∧
        (s.fget F.PWR_INRUSH.BUDGET < s.fget F.PWR_STAT.USED + s.domCost d →
          ∃ t, exec .sequencerStep s = .next t ∧ (t.dom d).phase = .wait l ∧ (t.dom d).psw = (s.dom d).psw ∧
            ((s.dom d).waited = false → t.flag F.PWR_STAT.INRUSH_WAIT = true ∧ 20 ∈ t.latches)))) ∧
    (∀ left l, (s.dom d).phase = .ack left l →
      ∃ t, exec .sequencerStep s = .next t ∧ t.dom d = { s.dom d with phase := .ack (left - 1) l }) ∧
    (∀ left l, (s.dom d).phase = .settle left l →
      (1 < left → ∃ t, exec .sequencerStep s = .next t ∧ t.dom d = { s.dom d with phase := .settle (left - 1) l }) ∧
      (left ≤ 1 →
        ∃ t, exec .sequencerStep s = .next t ∧ (t.dom d).phase = .release l ∧ (t.dom d).ret = false ∧ (t.dom d).cost = 0)) ∧
    ((s.dom d).phase = .release false → (s.dom d).next = none →
      ∃ t, exec .sequencerStep s = .next t ∧ (t.dom d).phase = .idle ∧ (t.dom d).iso = false ∧ t.domState d = 0 ∧
        t.flag (F.PWR_DOM.PEND d) = false ∧ t.fget (F.PWR_DOM.RESULT d) = 1) ∧
    ((s.dom d).phase = .release true →
      ∃ t, exec .sequencerStep s = .next t ∧ (t.dom d).phase = .listening (max 1 (s.fget F.PWR_LISTEN.WINDOW)) ∧
        (t.dom d).iso = false ∧ t.flag (F.PWR_DOM.LISTEN d) = true) ∧
    (∀ left, (s.dom d).phase = .listening left →
      (s.target d ≠ 0 → ∃ t, exec .sequencerStep s = .next t ∧ t.dom d = { s.dom d with phase := .listening (left - 1) }) ∧
      (s.target d = 0 → s.domState (parentDom s.cfg d) = 0 →
        ∃ t, exec .sequencerStep s = .next t ∧ (t.dom d).phase = .idle ∧ t.domState d = 0 ∧ t.fget (F.PWR_DOM.RESULT d) = 1 ∧
          t.flag (F.PWR_DOM.LISTEN d) = false))) ∧
  (∀ (s : State), s.mode = 7 → (∀ x ∈ domList s.cfg, (s.dom x).phase = .idle ∧ s.entryReady x = false) →
    ((s.dom 1).woken = true → (∀ d ∈ s.wakeSet, s.domState d = 0) →
      ∃ t, exec .sequencerStep s = .next t ∧ t.mode = 1 ∧ t.flag F.BLK_MODE.BIST_DONE = false) ∧
    ((s.dom 1).woken = false → exec .sequencerStep s = .next s)) ∧
  (∀ (s : State) (d left : Nat) (l : Bool), d < 43 → (s.dom d).phase = .ack left l →
    (∃ t, exec (.pswAckRise d) s = .next t ∧
      (t.dom d).phase = (if s.domDelay d = 0 then .release l else .settle (s.domDelay d) l)) ∧
    (left = 0 → (s.dom d).next = none →
      ∃ t, exec (.pswAckTimeout d) s = .next t ∧ (t.dom d).phase = .idle ∧ (t.dom d).psw = false ∧
        t.domState d = (if (s.dom d).ret then 1 else 2) ∧ t.fget (F.PWR_DOM.RESULT d) = 8 ∧ t.flag F.PWR_STAT.ACK_TO = true ∧
        (d ≠ 1 → s.domOn 1 = true → t.flag (pendFld 6) = true ∧
          (s.flag F.FLT_ESC.PSW_ACK = true → 1 ≤ s.mode → s.mode ≤ 5 → t.mode = 6 ∧ t.fget F.BLK_MODE.SH_CAUSE = 3))))

/-- Host commands of the dictionary (17_parameter_dictionary.md R399, R402, R403, R406, R408, R412): a command in BUSY,
before READY or with an unknown OP ends with RESULT 3; a request that fails a check ends with RESULT 2 and its ABORT code;
READ leaves the bytes in DIC_DATA, WRITE changes the value and makes it dirty, INFO shows the object; a SERVED object's request is
forwarded; DEFINE, UNDEFINE, RESTORE_DEFAULTS and TAKE need their mode; COMMIT starts a commit, or waits for the one that runs; every
end raises source 24. Where the spec is open it follows the model's choices (notes/assumptions/56.md, notes/assumptions/57.md,
notes/assumptions/58.md). -/
def Obligations.DictionaryCommands : Prop :=
  ∀ (s : State) (key len : Nat), s.Reaches O.DIC_CMD key → len < 512 →
    let k := s.dicKey
    let ofs := s.fget F.DIC_OFS.OFS
    let reqs : List (Instr × Nat) := [(.dicRead 0 len, 1), (.dicWrite 0 len, 2), (.dicInfo 0 len, 3)]
    let others : List Instr := [.dicCommit 0 len, .dicRestoreDefaults 0 len, .dicDefine 0 len, .dicUndefine 0 len, .dicTake 0 len]
    (∀ i ∈ reqs.map Prod.fst ++ others, s.dic.fwd.isSome = true ∨ s.flag F.DIC_STAT.READY = false →
      ∃ t, exec i s = .next t ∧ t.fget F.DIC_STAT.RESULT = 3 ∧ t.fget F.DIC_STAT.ABORT = 0x0302 ∧ t.dic = s.dic ∧
        t.flag (pendFld 24) = true) ∧
    (∀ op, (op = 0 ∨ 8 < op) → op < 16 →
      ∃ t, exec (.dicUnknownOp 0 op len) s = .next t ∧ t.fget F.DIC_STAT.RESULT = 3 ∧ t.fget F.DIC_STAT.ABORT = 0x0302 ∧
        t.dic = s.dic) ∧
    (s.dic.fwd = none → s.flag F.DIC_STAT.READY = true →
      (∀ x ∈ reqs,
        (∀ a, s.object k = .inl a → a ≠ 0 → a < 2 ^ 16 →
          ∃ t, exec x.1 s = .next t ∧ t.fget F.DIC_STAT.RESULT = 2 ∧ t.fget F.DIC_STAT.ABORT = a ∧ t.dic = s.dic ∧
            t.flag F.DIC_STAT.BUSY = false) ∧
        (∀ o, s.object k = .inr o → s.dicCheck false x.2 k o ofs len ≠ 0 →
          ∃ t, exec x.1 s = .next t ∧ t.fget F.DIC_STAT.RESULT = 2 ∧
            t.fget F.DIC_STAT.ABORT = s.dicCheck false x.2 k o ofs len ∧ t.dic = s.dic) ∧
        (∀ o, s.object k = .inr o → o.d.served = true → s.dicCheck false x.2 k o ofs len = 0 →
          (∀ e, s.mbxEngine = some e → s.flag (F.CE_CTL.RUN e) = true →
            ∃ t, exec x.1 s = .next t ∧ t.dic.fwd = some ⟨x.2, k⟩ ∧ t.flag F.DIC_STAT.BUSY = true ∧
              t.mbxWord e 0x110 = 2 ^ 31 + x.2 * 2 ^ 24 + len ∧ t.mbxWord e 0x114 = k * 256 ∧ t.mbxWord e 0x118 = ofs) ∧
          ((s.mbxEngine = none ∨ ∃ e, s.mbxEngine = some e ∧ s.flag (F.CE_CTL.RUN e) = false) →
            ∃ t, exec x.1 s = .next t ∧ t.fget F.DIC_STAT.RESULT = 2 ∧ t.fget F.DIC_STAT.ABORT = 0x0304 ∧ t.dic = s.dic))) ∧
      (∀ o, s.object k = .inr o → o.d.served = false →
        (∀ v, s.dicCheck false 1 k o ofs len = 0 → s.readVal k o = .inr v →
          ∃ t, exec (.dicRead 0 len) s = .next t ∧ t.fget F.DIC_STAT.RESULT = 1 ∧ t.fget F.DIC_STAT.ABORT = 0 ∧ t.dic = s.dic ∧
            t.fget F.DIC_CMD.LEN = (slice v ofs len).length ∧ t.dicData (slice v ofs len).length = slice v ofs len ∧
            t.flag (pendFld 24) = true) ∧
        (∀ a, s.dicCheck false 1 k o ofs len = 0 → s.readVal k o = .inl a →
          ∃ t, exec (.dicRead 0 len) s = .next t ∧ t.fget F.DIC_STAT.RESULT = 2 ∧ t.fget F.DIC_STAT.ABORT = 0x0303 ∧ t.dic = s.dic) ∧
        (let v := s.writeVal k o ofs ((s.dicData 256).take len)
         s.dicCheck false 2 k o ofs len = 0 →
          (badValue k o.d v = false →
            ∃ t, exec (.dicWrite 0 len) s = .next t ∧ t.fget F.DIC_STAT.RESULT = 1 ∧ t.fget F.DIC_STAT.ABORT = 0 ∧
              (k / 256 ≠ 0x3020 → t.dicVal k o.d = v ∧ (v ≠ s.dicVal k o.d → k ∈ t.dic.dirty))) ∧
          (badValue k o.d v = true →
            ∃ t, exec (.dicWrite 0 len) s = .next t ∧ t.fget F.DIC_STAT.RESULT = 2 ∧ t.fget F.DIC_STAT.ABORT = 0x0105 ∧
              t.dic = s.dic)) ∧
        (s.dicCheck false 3 k o ofs len = 0 →
          ∃ t, exec (.dicInfo 0 len) s = .next t ∧ t.fget F.DIC_STAT.RESULT = 1 ∧ t.dic = s.dic ∧
            t.rd O.DIC_INFO = BitVec.ofNat 32 (s.infoWord k o))) ∧
      (s.dic.commit = none →
        ((s.storeBytes s.dic.vals).length ≤ 65472 →
          ∃ t, exec (.dicCommit 0 len) s = .next t ∧ t.fget F.DIC_STAT.RESULT = 1 ∧ t.flag F.DIC_STAT.COMMITTING = true ∧
            t.dic.commit.map Commit.vals = some s.dic.vals) ∧
        (65472 < (s.storeBytes s.dic.vals).length →
          ∃ t, exec (.dicCommit 0 len) s = .next t ∧ t.fget F.DIC_STAT.RESULT = 2 ∧ t.fget F.DIC_STAT.ABORT = 0x0306 ∧
            t.flag F.DIC_STAT.STORE_FAIL = true ∧ t.dic = s.dic)) ∧
      (s.dic.commit.isSome = true →
        ∃ t, exec (.dicCommit 0 len) s = .next t ∧ t.fget F.DIC_STAT.RESULT = 1 ∧ t.dic.queued = true ∧ t.dic.commit = s.dic.commit) ∧
      (s.mode = 2 →
        ∃ t, exec (.dicRestoreDefaults 0 len) s = .next t ∧
          (∀ j ∈ s.persistKeys, hostRange (j / 256) = true → t.dicVal j (s.persistDef j) = (s.persistDef j).dflt) ∧
          (s.dic.commit.isSome = true → t.fget F.DIC_STAT.RESULT = 1 ∧ t.dic.queued = true) ∧
          (s.dic.commit = none → (t.fget F.DIC_STAT.RESULT = 1 ∧ t.flag F.DIC_STAT.COMMITTING = true) ∨
            (t.fget F.DIC_STAT.RESULT = 2 ∧ t.fget F.DIC_STAT.ABORT = 0x0306))) ∧
      (s.mode ≠ 2 → ∀ i ∈ [Instr.dicRestoreDefaults 0 len, .dicDefine 0 len, .dicUndefine 0 len],
        ∃ t, exec i s = .next t ∧ t.fget F.DIC_STAT.RESULT = 2 ∧ t.fget F.DIC_STAT.ABORT = 0x0301 ∧ t.dic = s.dic) ∧
      (let d := defOf (s.dicData 256) len
       (s.defineCheck k d ofs len = 0 →
          ∃ t, exec (.dicDefine 0 len) s = .next t ∧ t.fget F.DIC_STAT.RESULT = 1 ∧ KMap.find? t.dic.defs k = some d) ∧
        (s.defineCheck k d ofs len ≠ 0 →
          ∃ t, exec (.dicDefine 0 len) s = .next t ∧ t.fget F.DIC_STAT.RESULT = 2 ∧
            t.fget F.DIC_STAT.ABORT = s.defineCheck k d ofs len ∧ t.dic = s.dic)) ∧
      (s.mode = 2 →
        (∀ d, KMap.find? s.dic.defs k = some d →
          ∃ t, exec (.dicUndefine 0 len) s = .next t ∧ t.fget F.DIC_STAT.RESULT = 1 ∧ KMap.find? t.dic.defs k = none ∧
            KMap.find? t.dic.vals k = none) ∧
        (KMap.find? s.dic.defs k = none →
          ∃ t, exec (.dicUndefine 0 len) s = .next t ∧ t.fget F.DIC_STAT.RESULT = 2 ∧ t.fget F.DIC_STAT.ABORT = 0x0101 ∧
            t.dic = s.dic)) ∧
      ((s.mode = 2 ∨ s.mode = 6) →
        ∃ t, exec (.dicTake 0 len) s = .next t ∧ t.fget F.DIC_STAT.RESULT = 1 ∧ t.dicOwner = 1 ∧ t.flag (pendFld 24) = true) ∧
      (s.mode ≠ 2 → s.mode ≠ 6 →
        ∃ t, exec (.dicTake 0 len) s = .next t ∧ t.fget F.DIC_STAT.RESULT = 2 ∧ t.fget F.DIC_STAT.ABORT = 0x0301 ∧ t.dic = s.dic))

/-- The mailbox, forwarded commands, commits and the restore (17_parameter_dictionary.md R404 to R407, R410, R412 to R414): a
request from the network is answered in RSP and its GO cleared, or waits for a forwarded host command; an answer or its absence ends
that command; a commit writes the slot that is not the newest, whose record is then valid, and a failed one leaves its slot invalid and
its objects dirty; a restore takes the newest valid slot. Where the spec is open it follows the model's choices
(notes/assumptions/57.md, notes/assumptions/58.md, notes/assumptions/59.md, notes/assumptions/60.md). -/
def Obligations.MailboxAndStore : Prop :=
  (∀ (s : State), s.mbxEngine = none → exec .mailboxRequest s = .next s ∧ exec .mailboxFwdResponse s = .next s) ∧
  (∀ (s : State) (e : Nat), s.mbxEngine = some e →
    let w := s.mbxWord e 0
    let op := w / 2 ^ 24 % 16
    let n := s.mbxWord e 4
    let r := s.dicRequest true op (n / 2 ^ 16 * 256 + n / 2 ^ 8 % 256) (s.mbxWord e 8 % 2 ^ 16) (w % 512)
      (s.ebytes e (s.mbxAt 0x10) 256)
    (w < 2 ^ 31 → exec .mailboxRequest s = .next s) ∧
    (2 ^ 31 ≤ w → s.dic.fwd.isSome = true →
      (s.dic.mbxWait = false → exec .mailboxRequest s = .next (s.setDic { s.dic with mbxWait := true })) ∧
      (s.dic.mbxWait = true →
        ∃ t, exec .mailboxRequest s = .next t ∧ t.mbxWord e 0xC = 2 ^ 31 + 0x0302 ∧ t.mbxWord e 0 = w ∧ t.dic = s.dic)) ∧
    (2 ^ 31 ≤ w → s.dic.fwd = none →
      ((s.flag F.DIC_STAT.READY = false ∨ op = 0 ∨ 3 < op) →
        ∃ t, exec .mailboxRequest s = .next t ∧ t.mbxWord e 0xC = 2 ^ 31 + 0x0302 ∧ t.mbxWord e 0 = w % 2 ^ 31 ∧ t.dic = s.dic) ∧
      (s.flag F.DIC_STAT.READY = true → 1 ≤ op → op ≤ 3 →
        (s.mode = 1 →
          ∃ t, exec .mailboxRequest s = .next t ∧ t.mbxWord e 0xC = 2 ^ 31 + 0x0301 ∧ t.mbxWord e 0 = w % 2 ^ 31 ∧ t.dic = s.dic) ∧
        (s.mode ≠ 1 →
          ∃ t, exec .mailboxRequest s = .next t ∧ t.mbxWord e 0xC = 2 ^ 31 + r.1.bytes.length * 2 ^ 16 + r.1.code ∧
            t.mbxWord e 0 = w % 2 ^ 31 ∧ t.dic = r.2.dic ∧
            (r.1.code = 0 → op ≠ 2 → t.ebytes e (s.mbxAt 0x10) r.1.bytes.length = r.1.bytes))))) ∧
  (∀ (s : State), s.dic.fwd = none → exec .fwdTimeout s = .next s ∧ exec .mailboxFwdResponse s = .next s) ∧
  (∀ (s : State) (f : Fwd), s.dic.fwd = some f →
    (s.dic.mbxWait = false →
      ∃ t, exec .fwdTimeout s = .next t ∧ t.dic.fwd = none ∧ t.fget F.DIC_STAT.RESULT = 2 ∧ t.fget F.DIC_STAT.ABORT = 0x0304 ∧
        t.flag F.DIC_STAT.BUSY = false) ∧
    ∀ e, s.mbxEngine = some e →
      let w := s.mbxWord e 0x11C
      let n := min 256 (w / 2 ^ 16 % 512)
      -- the network's request that waited is carried out after the end
      (s.dic.mbxWait = true → 2 ^ 31 ≤ w → ∀ i ∈ [Instr.fwdTimeout, .mailboxFwdResponse],
        ∃ u, exec i (s.setDic { s.dic with mbxWait := false }) = .next u ∧ exec i s = .next (u.mbxRun e)) ∧
      (w < 2 ^ 31 → exec .mailboxFwdResponse s = .next s) ∧
      (2 ^ 31 ≤ w → s.dic.mbxWait = false →
        ∃ t, exec .mailboxFwdResponse s = .next t ∧ t.dic.fwd = none ∧ t.fget F.DIC_STAT.ABORT = w % 2 ^ 16 ∧
          t.fget F.DIC_STAT.RESULT = (if w % 2 ^ 16 = 0 then 1 else 2) ∧ t.flag F.DIC_STAT.BUSY = false ∧
          t.mbxWord e 0x110 = s.mbxWord e 0x110 % 2 ^ 31 ∧ t.flag (pendFld 24) = true ∧
          (f.op = 1 → w % 2 ^ 16 = 0 → t.fget F.DIC_CMD.LEN = n ∧ t.dicData n = s.ebytes e (s.mbxAt 0x120) n))) ∧
  (∀ (s : State),
    let due := s.flag F.DIC_CFG.AUTO = true ∧ s.flag F.DIC_STAT.READY = true ∧ s.flag F.DIC_STAT.DIRTY = true
    (¬ due → exec .autoCommitTimer s = .next s) ∧
    (due → s.dic.commit.isSome = true → ∃ t, exec .autoCommitTimer s = .next t ∧ t.dic.queued = true ∧ t.dic.commit = s.dic.commit) ∧
    (due → s.dic.commit = none →
      ((s.storeBytes s.dic.vals).length ≤ 65472 →
        ∃ t, exec .autoCommitTimer s = .next t ∧ t.flag F.DIC_STAT.COMMITTING = true ∧
          t.dic.commit.map Commit.slot = some (match s.newest with | some n => 1 - n | none => 0) ∧
          t.dic.commit.map Commit.seq = some (match s.newest with | some n => (s.slotOf n).seq + 1 | none => 1)) ∧
      (65472 < (s.storeBytes s.dic.vals).length →
        ∃ t, exec .autoCommitTimer s = .next t ∧ t.flag F.DIC_STAT.STORE_FAIL = true ∧ t.flag (pendFld 26) = true ∧ t.dic = s.dic))) ∧
  (∀ (s : State) (err : Bool) (late : List Nat), s.dic.commit = none → exec (.storeCommitDone err late) s = .next s) ∧
  (∀ (s : State) (c : Commit) (late : List Nat), s.dic.commit = some c → c.slot < 2 →
    (∃ t, exec (.storeCommitDone false late) s = .next t ∧ t.fget F.DIC_STAT.SLOT = c.slot ∧ t.fget F.DIC_SEQ.SEQ = c.seq.toNat ∧
      t.flag (pendFld 25) = true ∧ t.slotOf (1 - c.slot) = s.slotOf (1 - c.slot) ∧
      (let x := t.slotOf c.slot
       x.seq = c.seq ∧ x.magic = 0x44575331 ∧ x.commit = 0xA5C30001 ∧ x.len = x.payload.length ∧
         x.crc = BitVec.ofNat 32 (crc32c x.payload) ∧ x = s.commitSlot c (if s.gasp.isSome then [] else late) ∧
         (late = [] → x.payload = s.storeBytes c.vals)) ∧
      (s.dic.queued = false → t.dic.commit = none ∧ t.flag F.DIC_STAT.COMMITTING = false) ∧
      (s.dic.queued = true → t.dic.queued = false ∧ (t.dic.commit.isSome = true ∨ t.flag F.DIC_STAT.STORE_FAIL = true))) ∧
    ∃ t, exec (.storeCommitDone true late) s = .next t ∧ t.flag F.DIC_STAT.STORE_FAIL = true ∧ t.flag (pendFld 26) = true ∧
      t.flag (pendFld 6) = true ∧ (t.slotOf c.slot).commit = 0 ∧ t.slotOf (1 - c.slot) = s.slotOf (1 - c.slot) ∧
      (s.dic.queued = false → t.dic.commit = none ∧ ∀ k ∈ c.cleared, k ∈ t.dic.dirty)) ∧
  (∀ (s : State),
    ((s.dic.restore = false ∨ s.rst.blk = true ∨ s.domOn 1 = false) → exec .storeRestoreDone s = .next s) ∧
    (s.dic.restore = true → s.rst.blk = false → s.domOn 1 = true →
      ∃ t, exec .storeRestoreDone s = .next t ∧ t.flag F.DIC_STAT.READY = true ∧ t.dic.restore = false ∧
        t.dic.slotA = s.dic.slotA ∧ t.dic.slotB = s.dic.slotB ∧
        (s.newest = none → t.dic.vals = [] ∧ t.dic.defs = [] ∧ t.flag F.DIC_STAT.STORE_INVALID = true ∧
          t.flag (pendFld 26) = true) ∧
        (∀ n, s.newest = some n → t.fget F.DIC_SEQ.SEQ = (s.slotOf n).seq.toNat ∧ t.fget F.DIC_STAT.SLOT = n)))
end

