-- ==== Sys2Proof/Laws/KMap.lean ====
section
/-!
SUPPORT. Reading after writing in a map, and that every operation keeps the canonical form.
-/
set_option Elab.async false
namespace Sys2Proof.Machine

variable {α : Type}

/-- A key below every listed key is not listed. -/
theorem KMap.find?_below {m : KMap α} {n : Nat} (h : ∀ e ∈ m, n < e.1) : KMap.find? m n = none := by
  induction m with
  | nil => rfl
  | cons e r ih =>
    have h1 := h e (by simp)
    simp only [KMap.find?]
    rw [if_neg (by omega)]
    exact ih fun x hx => h x (by simp [hx])

/-- Reading the key just listed. -/
@[simp] theorem KMap.find?_insert_self (m : KMap α) (n : Nat) (v : α) : KMap.find? (KMap.insert m n v) n = some v := by
  induction m with
  | nil => simp [KMap.insert, KMap.find?]
  | cons e r ih =>
    simp only [KMap.insert]
    split
    · simp [KMap.find?]
    · split
      · simp [KMap.find?]
      · rename_i h; simp [KMap.find?, h, ih]

/-- Listing a key leaves every other key. -/
theorem KMap.find?_insert_ne (m : KMap α) {n k : Nat} (v : α) (h : k ≠ n) :
    KMap.find? (KMap.insert m n v) k = KMap.find? m k := by
  induction m with
  | nil => simp [KMap.insert, KMap.find?, Ne.symm h]
  | cons e r ih =>
    simp only [KMap.insert]
    split
    · simp [KMap.find?, Ne.symm h]
    · split
      · rename_i h2; simp only [KMap.find?]; rw [if_neg (Ne.symm h), if_neg (by omega)]
      · simp [KMap.find?, ih]

/-- A removed key is not listed. -/
@[simp] theorem KMap.find?_erase_self (m : KMap α) (n : Nat) : KMap.find? (KMap.erase m n) n = none := by
  induction m with
  | nil => rfl
  | cons e r ih =>
    simp only [KMap.erase, List.filter_cons] at ih ⊢
    split
    · rename_i h; simp only [KMap.find?]; rw [if_neg (by simpa using h)]; exact ih
    · exact ih

/-- Removing a key leaves every other key. -/
theorem KMap.find?_erase_ne (m : KMap α) {n k : Nat} (h : k ≠ n) : KMap.find? (KMap.erase m n) k = KMap.find? m k := by
  induction m with
  | nil => rfl
  | cons e r ih =>
    simp only [KMap.erase, List.filter_cons] at ih ⊢
    split
    · simp only [KMap.find?]; split <;> simp [ih]
    · rename_i h2
      have h3 : e.1 = n := by simpa using h2
      simp only [KMap.find?]; rw [if_neg (by omega)]; exact ih

/-- Reading the key just written. -/
@[simp] theorem KMap.get_put_self [DecidableEq α] (d : α) (m : KMap α) (n : Nat) (v : α) :
    KMap.get d (KMap.put d m n v) n = v := by
  unfold KMap.get KMap.put
  split
  · rename_i h; simp [h]
  · simp

/-- Writing a key leaves every other key. -/
theorem KMap.get_put_ne [DecidableEq α] (d e : α) (m : KMap α) {n k : Nat} (v : α) (h : k ≠ n) :
    KMap.get d (KMap.put e m n v) k = KMap.get d m k := by
  unfold KMap.get KMap.put
  split
  · rw [KMap.find?_erase_ne m h]
  · rw [KMap.find?_insert_ne m v h]

/-- The keys of a map after a key is listed. -/
theorem KMap.mem_insert {m : KMap α} {n : Nat} {v : α} {e : Nat × α} (h : e ∈ KMap.insert m n v) :
    e = (n, v) ∨ e ∈ m := by
  induction m with
  | nil => simpa [KMap.insert] using h
  | cons x r ih =>
    simp only [KMap.insert] at h
    split at h
    · simpa using h
    · split at h
      · rcases List.mem_cons.1 h with h | h
        · exact .inl h
        · exact .inr (by simp [h])
      · rcases List.mem_cons.1 h with h | h
        · exact .inr (by simp [h])
        · rcases ih h with h | h
          · exact .inl h
          · exact .inr (by simp [h])

/-- The canonical form in words: keys rise, and no entry holds what its key reads as when unlisted. -/
theorem KMap.wf_iff [DecidableEq α] (d : Nat → α) (m : KMap α) :
    KMap.wf d m = true ↔ KMap.rising m = true ∧ ∀ e ∈ m, e.2 ≠ d e.1 := by
  induction m with
  | nil => simp [KMap.wf, KMap.rising]
  | cons x r ih => simp [KMap.wf, KMap.rising, ih]; tauto

/-- Rising keys, in words. -/
theorem KMap.rising_iff (m : KMap α) : KMap.rising m = true ↔ m.Pairwise fun a b => a.1 < b.1 := by
  induction m with
  | nil => simp [KMap.rising]
  | cons x r ih => simp [KMap.rising, ih]

/-- Listing a key keeps the keys rising. -/
theorem KMap.rising_insert {m : KMap α} (h : KMap.rising m = true) (n : Nat) (v : α) :
    KMap.rising (KMap.insert m n v) = true := by
  induction m with
  | nil => simp [KMap.insert, KMap.rising]
  | cons x r ih =>
    simp only [KMap.rising, Bool.and_eq_true, List.all_eq_true, decide_eq_true_eq] at h
    simp only [KMap.insert]
    split
    · rename_i h2
      simp only [KMap.rising, Bool.and_eq_true, List.all_eq_true, decide_eq_true_eq, List.mem_cons]
      refine ⟨?_, h⟩
      rintro e (rfl | he)
      · exact h2
      · have := h.1 e he; omega
    · split
      · rename_i h2
        simp only [KMap.rising, Bool.and_eq_true, List.all_eq_true, decide_eq_true_eq]
        exact ⟨fun e he => h2 ▸ h.1 e he, h.2⟩
      · rename_i h1 h2
        simp only [KMap.rising, Bool.and_eq_true, List.all_eq_true, decide_eq_true_eq]
        refine ⟨fun e he => ?_, ih h.2⟩
        rcases KMap.mem_insert he with rfl | he
        · dsimp only; omega
        · exact h.1 e he

/-- Dropping entries keeps the keys rising. -/
theorem KMap.rising_filter {m : KMap α} (h : KMap.rising m = true) (p : Nat × α → Bool) :
    KMap.rising (List.filter p m) = true := by
  rw [KMap.rising_iff] at *
  exact h.filter p

/-- Dropping entries keeps the canonical form. -/
theorem KMap.wf_filter [DecidableEq α] {d : Nat → α} {m : KMap α} (h : KMap.wf d m = true) (p : Nat × α → Bool) :
    KMap.wf d (List.filter p m) = true := by
  rw [KMap.wf_iff] at *
  exact ⟨KMap.rising_filter h.1 p, fun e he => h.2 e (List.mem_of_mem_filter he)⟩

/-- Removing the keys that answer `p` keeps the canonical form. -/
theorem KMap.wf_clear [DecidableEq α] {d : Nat → α} {m : KMap α} (h : KMap.wf d m = true) (p : Nat → Bool) :
    KMap.wf d (KMap.clear p m) = true := KMap.wf_filter h _

/-- Removing keys keeps the keys rising. -/
theorem KMap.rising_clear {m : KMap α} (h : KMap.rising m = true) (p : Nat → Bool) :
    KMap.rising (KMap.clear p m) = true := KMap.rising_filter h _

/-- A write keeps the canonical form. -/
theorem KMap.wf_put [DecidableEq α] {d : Nat → α} {m : KMap α} (h : KMap.wf d m = true) (n : Nat) (v : α) :
    KMap.wf d (KMap.put (d n) m n v) = true := by
  unfold KMap.put
  split
  · exact KMap.wf_filter h _
  · rename_i hv
    rw [KMap.wf_iff] at *
    refine ⟨KMap.rising_insert h.1 n v, fun e he => ?_⟩
    rcases KMap.mem_insert he with rfl | he
    · exact hv
    · exact h.2 e he

end Sys2Proof.Machine
end

