-- ==== Sys2Proof/Laws/State.lean ====
section
/-!
SUPPORT. One lemma per field and setter of the state: what a setter changes and what it leaves.
-/
set_option Elab.async false
namespace Sys2Proof.Machine

@[simp] theorem State.setCfg_cfg (s : State) (v : Cfg) : (s.setCfg v).cfg = v := rfl
@[simp] theorem State.setCfg_pending (s : State) (v : Cfg) : (s.setCfg v).pending = s.pending := rfl
@[simp] theorem State.setCfg_regs (s : State) (v : Cfg) : (s.setCfg v).regs = s.regs := rfl
@[simp] theorem State.setCfg_stage (s : State) (v : Cfg) : (s.setCfg v).stage = s.stage := rfl
@[simp] theorem State.setCfg_hold (s : State) (v : Cfg) : (s.setCfg v).hold = s.hold := rfl
@[simp] theorem State.setCfg_slv (s : State) (v : Cfg) : (s.setCfg v).slv = s.slv := rfl
@[simp] theorem State.setCfg_out (s : State) (v : Cfg) : (s.setCfg v).out = s.out := rfl
@[simp] theorem State.setCfg_ticks (s : State) (v : Cfg) : (s.setCfg v).ticks = s.ticks := rfl
@[simp] theorem State.setCfg_free (s : State) (v : Cfg) : (s.setCfg v).free = s.free := rfl
@[simp] theorem State.setCfg_rst (s : State) (v : Cfg) : (s.setCfg v).rst = s.rst := rfl
@[simp] theorem State.setCfg_req (s : State) (v : Cfg) : (s.setCfg v).req = s.req := rfl
@[simp] theorem State.setCfg_halves (s : State) (v : Cfg) : (s.setCfg v).halves = s.halves := rfl
@[simp] theorem State.setCfg_settle (s : State) (v : Cfg) : (s.setCfg v).settle = s.settle := rfl
@[simp] theorem State.setCfg_tbs (s : State) (v : Cfg) : (s.setCfg v).tbs = s.tbs := rfl
@[simp] theorem State.setCfg_pps (s : State) (v : Cfg) : (s.setCfg v).pps = s.pps := rfl
@[simp] theorem State.setCfg_gens (s : State) (v : Cfg) : (s.setCfg v).gens = s.gens := rfl
@[simp] theorem State.setCfg_trigs (s : State) (v : Cfg) : (s.setCfg v).trigs = s.trigs := rfl
@[simp] theorem State.setCfg_frames (s : State) (v : Cfg) : (s.setCfg v).frames = s.frames := rfl
@[simp] theorem State.setCfg_nextFrame (s : State) (v : Cfg) : (s.setCfg v).nextFrame = s.nextFrame := rfl
@[simp] theorem State.setCfg_ports (s : State) (v : Cfg) : (s.setCfg v).ports = s.ports := rfl
@[simp] theorem State.setCfg_taken (s : State) (v : Cfg) : (s.setCfg v).taken = s.taken := rfl
@[simp] theorem State.setCfg_latches (s : State) (v : Cfg) : (s.setCfg v).latches = s.latches := rfl
@[simp] theorem State.setCfg_doms (s : State) (v : Cfg) : (s.setCfg v).doms = s.doms := rfl
@[simp] theorem State.setCfg_gasp (s : State) (v : Cfg) : (s.setCfg v).gasp = s.gasp := rfl
@[simp] theorem State.setCfg_dic (s : State) (v : Cfg) : (s.setCfg v).dic = s.dic := rfl
@[simp] theorem State.setCfg_flt (s : State) (v : Cfg) : (s.setCfg v).flt = s.flt := rfl
@[simp] theorem State.setCfg_trunks (s : State) (v : Cfg) : (s.setCfg v).trunks = s.trunks := rfl
@[simp] theorem State.setCfg_slots (s : State) (v : Cfg) : (s.setCfg v).slots = s.slots := rfl
@[simp] theorem State.setCfg_node (s : State) (v : Cfg) : (s.setCfg v).node = s.node := rfl
@[simp] theorem State.setCfg_pipes (s : State) (v : Cfg) : (s.setCfg v).pipes = s.pipes := rfl
@[simp] theorem State.setCfg_graph (s : State) (v : Cfg) : (s.setCfg v).graph = s.graph := rfl
@[simp] theorem State.setCfg_gload (s : State) (v : Cfg) : (s.setCfg v).gload = s.gload := rfl
@[simp] theorem State.setCfg_cls (s : State) (v : Cfg) : (s.setCfg v).cls = s.cls := rfl
@[simp] theorem State.setCfg_ems (s : State) (v : Cfg) : (s.setCfg v).ems = s.ems := rfl
@[simp] theorem State.setCfg_threads (s : State) (v : Cfg) : (s.setCfg v).threads = s.threads := rfl
@[simp] theorem State.setCfg_wheel (s : State) (v : Cfg) : (s.setCfg v).wheel = s.wheel := rfl
@[simp] theorem State.setCfg_emem (s : State) (v : Cfg) : (s.setCfg v).emem = s.emem := rfl
@[simp] theorem State.setCfg_splices (s : State) (v : Cfg) : (s.setCfg v).splices = s.splices := rfl
@[simp] theorem State.setCfg_funcs (s : State) (v : Cfg) : (s.setCfg v).funcs = s.funcs := rfl
@[simp] theorem State.setCfg_qps (s : State) (v : Cfg) : (s.setCfg v).qps = s.qps := rfl
@[simp] theorem State.setCfg_binds (s : State) (v : Cfg) : (s.setCfg v).binds = s.binds := rfl
@[simp] theorem State.setCfg_admin (s : State) (v : Cfg) : (s.setCfg v).admin = s.admin := rfl
@[simp] theorem State.setCfg_mem (s : State) (v : Cfg) : (s.setCfg v).mem = s.mem := rfl
@[simp] theorem State.setCfg_chks (s : State) (v : Cfg) : (s.setCfg v).chks = s.chks := rfl
@[simp] theorem State.setCfg_dmas (s : State) (v : Cfg) : (s.setCfg v).dmas = s.dmas := rfl
@[simp] theorem State.setPending_cfg (s : State) (v : List Instr) : (s.setPending v).cfg = s.cfg := rfl
@[simp] theorem State.setPending_pending (s : State) (v : List Instr) : (s.setPending v).pending = v := rfl
@[simp] theorem State.setPending_regs (s : State) (v : List Instr) : (s.setPending v).regs = s.regs := rfl
@[simp] theorem State.setPending_stage (s : State) (v : List Instr) : (s.setPending v).stage = s.stage := rfl
@[simp] theorem State.setPending_hold (s : State) (v : List Instr) : (s.setPending v).hold = s.hold := rfl
@[simp] theorem State.setPending_slv (s : State) (v : List Instr) : (s.setPending v).slv = s.slv := rfl
@[simp] theorem State.setPending_out (s : State) (v : List Instr) : (s.setPending v).out = s.out := rfl
@[simp] theorem State.setPending_ticks (s : State) (v : List Instr) : (s.setPending v).ticks = s.ticks := rfl
@[simp] theorem State.setPending_free (s : State) (v : List Instr) : (s.setPending v).free = s.free := rfl
@[simp] theorem State.setPending_rst (s : State) (v : List Instr) : (s.setPending v).rst = s.rst := rfl
@[simp] theorem State.setPending_req (s : State) (v : List Instr) : (s.setPending v).req = s.req := rfl
@[simp] theorem State.setPending_halves (s : State) (v : List Instr) : (s.setPending v).halves = s.halves := rfl
@[simp] theorem State.setPending_settle (s : State) (v : List Instr) : (s.setPending v).settle = s.settle := rfl
@[simp] theorem State.setPending_tbs (s : State) (v : List Instr) : (s.setPending v).tbs = s.tbs := rfl
@[simp] theorem State.setPending_pps (s : State) (v : List Instr) : (s.setPending v).pps = s.pps := rfl
@[simp] theorem State.setPending_gens (s : State) (v : List Instr) : (s.setPending v).gens = s.gens := rfl
@[simp] theorem State.setPending_trigs (s : State) (v : List Instr) : (s.setPending v).trigs = s.trigs := rfl
@[simp] theorem State.setPending_frames (s : State) (v : List Instr) : (s.setPending v).frames = s.frames := rfl
@[simp] theorem State.setPending_nextFrame (s : State) (v : List Instr) : (s.setPending v).nextFrame = s.nextFrame := rfl
@[simp] theorem State.setPending_ports (s : State) (v : List Instr) : (s.setPending v).ports = s.ports := rfl
@[simp] theorem State.setPending_taken (s : State) (v : List Instr) : (s.setPending v).taken = s.taken := rfl
@[simp] theorem State.setPending_latches (s : State) (v : List Instr) : (s.setPending v).latches = s.latches := rfl
@[simp] theorem State.setPending_doms (s : State) (v : List Instr) : (s.setPending v).doms = s.doms := rfl
@[simp] theorem State.setPending_gasp (s : State) (v : List Instr) : (s.setPending v).gasp = s.gasp := rfl
@[simp] theorem State.setPending_dic (s : State) (v : List Instr) : (s.setPending v).dic = s.dic := rfl
@[simp] theorem State.setPending_flt (s : State) (v : List Instr) : (s.setPending v).flt = s.flt := rfl
@[simp] theorem State.setPending_trunks (s : State) (v : List Instr) : (s.setPending v).trunks = s.trunks := rfl
@[simp] theorem State.setPending_slots (s : State) (v : List Instr) : (s.setPending v).slots = s.slots := rfl
@[simp] theorem State.setPending_node (s : State) (v : List Instr) : (s.setPending v).node = s.node := rfl
@[simp] theorem State.setPending_pipes (s : State) (v : List Instr) : (s.setPending v).pipes = s.pipes := rfl
@[simp] theorem State.setPending_graph (s : State) (v : List Instr) : (s.setPending v).graph = s.graph := rfl
@[simp] theorem State.setPending_gload (s : State) (v : List Instr) : (s.setPending v).gload = s.gload := rfl
@[simp] theorem State.setPending_cls (s : State) (v : List Instr) : (s.setPending v).cls = s.cls := rfl
@[simp] theorem State.setPending_ems (s : State) (v : List Instr) : (s.setPending v).ems = s.ems := rfl
@[simp] theorem State.setPending_threads (s : State) (v : List Instr) : (s.setPending v).threads = s.threads := rfl
@[simp] theorem State.setPending_wheel (s : State) (v : List Instr) : (s.setPending v).wheel = s.wheel := rfl
@[simp] theorem State.setPending_emem (s : State) (v : List Instr) : (s.setPending v).emem = s.emem := rfl
@[simp] theorem State.setPending_splices (s : State) (v : List Instr) : (s.setPending v).splices = s.splices := rfl
@[simp] theorem State.setPending_funcs (s : State) (v : List Instr) : (s.setPending v).funcs = s.funcs := rfl
@[simp] theorem State.setPending_qps (s : State) (v : List Instr) : (s.setPending v).qps = s.qps := rfl
@[simp] theorem State.setPending_binds (s : State) (v : List Instr) : (s.setPending v).binds = s.binds := rfl
@[simp] theorem State.setPending_admin (s : State) (v : List Instr) : (s.setPending v).admin = s.admin := rfl
@[simp] theorem State.setPending_mem (s : State) (v : List Instr) : (s.setPending v).mem = s.mem := rfl
@[simp] theorem State.setPending_chks (s : State) (v : List Instr) : (s.setPending v).chks = s.chks := rfl
@[simp] theorem State.setPending_dmas (s : State) (v : List Instr) : (s.setPending v).dmas = s.dmas := rfl
@[simp] theorem State.setRegs_cfg (s : State) (v : KMap Word) : (s.setRegs v).cfg = s.cfg := rfl
@[simp] theorem State.setRegs_pending (s : State) (v : KMap Word) : (s.setRegs v).pending = s.pending := rfl
@[simp] theorem State.setRegs_regs (s : State) (v : KMap Word) : (s.setRegs v).regs = v := rfl
@[simp] theorem State.setRegs_stage (s : State) (v : KMap Word) : (s.setRegs v).stage = s.stage := rfl
@[simp] theorem State.setRegs_hold (s : State) (v : KMap Word) : (s.setRegs v).hold = s.hold := rfl
@[simp] theorem State.setRegs_slv (s : State) (v : KMap Word) : (s.setRegs v).slv = s.slv := rfl
@[simp] theorem State.setRegs_out (s : State) (v : KMap Word) : (s.setRegs v).out = s.out := rfl
@[simp] theorem State.setRegs_ticks (s : State) (v : KMap Word) : (s.setRegs v).ticks = s.ticks := rfl
@[simp] theorem State.setRegs_free (s : State) (v : KMap Word) : (s.setRegs v).free = s.free := rfl
@[simp] theorem State.setRegs_rst (s : State) (v : KMap Word) : (s.setRegs v).rst = s.rst := rfl
@[simp] theorem State.setRegs_req (s : State) (v : KMap Word) : (s.setRegs v).req = s.req := rfl
@[simp] theorem State.setRegs_halves (s : State) (v : KMap Word) : (s.setRegs v).halves = s.halves := rfl
@[simp] theorem State.setRegs_settle (s : State) (v : KMap Word) : (s.setRegs v).settle = s.settle := rfl
@[simp] theorem State.setRegs_tbs (s : State) (v : KMap Word) : (s.setRegs v).tbs = s.tbs := rfl
@[simp] theorem State.setRegs_pps (s : State) (v : KMap Word) : (s.setRegs v).pps = s.pps := rfl
@[simp] theorem State.setRegs_gens (s : State) (v : KMap Word) : (s.setRegs v).gens = s.gens := rfl
@[simp] theorem State.setRegs_trigs (s : State) (v : KMap Word) : (s.setRegs v).trigs = s.trigs := rfl
@[simp] theorem State.setRegs_frames (s : State) (v : KMap Word) : (s.setRegs v).frames = s.frames := rfl
@[simp] theorem State.setRegs_nextFrame (s : State) (v : KMap Word) : (s.setRegs v).nextFrame = s.nextFrame := rfl
@[simp] theorem State.setRegs_ports (s : State) (v : KMap Word) : (s.setRegs v).ports = s.ports := rfl
@[simp] theorem State.setRegs_taken (s : State) (v : KMap Word) : (s.setRegs v).taken = s.taken := rfl
@[simp] theorem State.setRegs_latches (s : State) (v : KMap Word) : (s.setRegs v).latches = s.latches := rfl
@[simp] theorem State.setRegs_doms (s : State) (v : KMap Word) : (s.setRegs v).doms = s.doms := rfl
@[simp] theorem State.setRegs_gasp (s : State) (v : KMap Word) : (s.setRegs v).gasp = s.gasp := rfl
@[simp] theorem State.setRegs_dic (s : State) (v : KMap Word) : (s.setRegs v).dic = s.dic := rfl
@[simp] theorem State.setRegs_flt (s : State) (v : KMap Word) : (s.setRegs v).flt = s.flt := rfl
@[simp] theorem State.setRegs_trunks (s : State) (v : KMap Word) : (s.setRegs v).trunks = s.trunks := rfl
@[simp] theorem State.setRegs_slots (s : State) (v : KMap Word) : (s.setRegs v).slots = s.slots := rfl
@[simp] theorem State.setRegs_node (s : State) (v : KMap Word) : (s.setRegs v).node = s.node := rfl
@[simp] theorem State.setRegs_pipes (s : State) (v : KMap Word) : (s.setRegs v).pipes = s.pipes := rfl
@[simp] theorem State.setRegs_graph (s : State) (v : KMap Word) : (s.setRegs v).graph = s.graph := rfl
@[simp] theorem State.setRegs_gload (s : State) (v : KMap Word) : (s.setRegs v).gload = s.gload := rfl
@[simp] theorem State.setRegs_cls (s : State) (v : KMap Word) : (s.setRegs v).cls = s.cls := rfl
@[simp] theorem State.setRegs_ems (s : State) (v : KMap Word) : (s.setRegs v).ems = s.ems := rfl
@[simp] theorem State.setRegs_threads (s : State) (v : KMap Word) : (s.setRegs v).threads = s.threads := rfl
@[simp] theorem State.setRegs_wheel (s : State) (v : KMap Word) : (s.setRegs v).wheel = s.wheel := rfl
@[simp] theorem State.setRegs_emem (s : State) (v : KMap Word) : (s.setRegs v).emem = s.emem := rfl
@[simp] theorem State.setRegs_splices (s : State) (v : KMap Word) : (s.setRegs v).splices = s.splices := rfl
@[simp] theorem State.setRegs_funcs (s : State) (v : KMap Word) : (s.setRegs v).funcs = s.funcs := rfl
@[simp] theorem State.setRegs_qps (s : State) (v : KMap Word) : (s.setRegs v).qps = s.qps := rfl
@[simp] theorem State.setRegs_binds (s : State) (v : KMap Word) : (s.setRegs v).binds = s.binds := rfl
@[simp] theorem State.setRegs_admin (s : State) (v : KMap Word) : (s.setRegs v).admin = s.admin := rfl
@[simp] theorem State.setRegs_mem (s : State) (v : KMap Word) : (s.setRegs v).mem = s.mem := rfl
@[simp] theorem State.setRegs_chks (s : State) (v : KMap Word) : (s.setRegs v).chks = s.chks := rfl
@[simp] theorem State.setRegs_dmas (s : State) (v : KMap Word) : (s.setRegs v).dmas = s.dmas := rfl
@[simp] theorem State.setStage_cfg (s : State) (v : KMap Word) : (s.setStage v).cfg = s.cfg := rfl
@[simp] theorem State.setStage_pending (s : State) (v : KMap Word) : (s.setStage v).pending = s.pending := rfl
@[simp] theorem State.setStage_regs (s : State) (v : KMap Word) : (s.setStage v).regs = s.regs := rfl
@[simp] theorem State.setStage_stage (s : State) (v : KMap Word) : (s.setStage v).stage = v := rfl
@[simp] theorem State.setStage_hold (s : State) (v : KMap Word) : (s.setStage v).hold = s.hold := rfl
@[simp] theorem State.setStage_slv (s : State) (v : KMap Word) : (s.setStage v).slv = s.slv := rfl
@[simp] theorem State.setStage_out (s : State) (v : KMap Word) : (s.setStage v).out = s.out := rfl
@[simp] theorem State.setStage_ticks (s : State) (v : KMap Word) : (s.setStage v).ticks = s.ticks := rfl
@[simp] theorem State.setStage_free (s : State) (v : KMap Word) : (s.setStage v).free = s.free := rfl
@[simp] theorem State.setStage_rst (s : State) (v : KMap Word) : (s.setStage v).rst = s.rst := rfl
@[simp] theorem State.setStage_req (s : State) (v : KMap Word) : (s.setStage v).req = s.req := rfl
@[simp] theorem State.setStage_halves (s : State) (v : KMap Word) : (s.setStage v).halves = s.halves := rfl
@[simp] theorem State.setStage_settle (s : State) (v : KMap Word) : (s.setStage v).settle = s.settle := rfl
@[simp] theorem State.setStage_tbs (s : State) (v : KMap Word) : (s.setStage v).tbs = s.tbs := rfl
@[simp] theorem State.setStage_pps (s : State) (v : KMap Word) : (s.setStage v).pps = s.pps := rfl
@[simp] theorem State.setStage_gens (s : State) (v : KMap Word) : (s.setStage v).gens = s.gens := rfl
@[simp] theorem State.setStage_trigs (s : State) (v : KMap Word) : (s.setStage v).trigs = s.trigs := rfl
@[simp] theorem State.setStage_frames (s : State) (v : KMap Word) : (s.setStage v).frames = s.frames := rfl
@[simp] theorem State.setStage_nextFrame (s : State) (v : KMap Word) : (s.setStage v).nextFrame = s.nextFrame := rfl
@[simp] theorem State.setStage_ports (s : State) (v : KMap Word) : (s.setStage v).ports = s.ports := rfl
@[simp] theorem State.setStage_taken (s : State) (v : KMap Word) : (s.setStage v).taken = s.taken := rfl
@[simp] theorem State.setStage_latches (s : State) (v : KMap Word) : (s.setStage v).latches = s.latches := rfl
@[simp] theorem State.setStage_doms (s : State) (v : KMap Word) : (s.setStage v).doms = s.doms := rfl
@[simp] theorem State.setStage_gasp (s : State) (v : KMap Word) : (s.setStage v).gasp = s.gasp := rfl
@[simp] theorem State.setStage_dic (s : State) (v : KMap Word) : (s.setStage v).dic = s.dic := rfl
@[simp] theorem State.setStage_flt (s : State) (v : KMap Word) : (s.setStage v).flt = s.flt := rfl
@[simp] theorem State.setStage_trunks (s : State) (v : KMap Word) : (s.setStage v).trunks = s.trunks := rfl
@[simp] theorem State.setStage_slots (s : State) (v : KMap Word) : (s.setStage v).slots = s.slots := rfl
@[simp] theorem State.setStage_node (s : State) (v : KMap Word) : (s.setStage v).node = s.node := rfl
@[simp] theorem State.setStage_pipes (s : State) (v : KMap Word) : (s.setStage v).pipes = s.pipes := rfl
@[simp] theorem State.setStage_graph (s : State) (v : KMap Word) : (s.setStage v).graph = s.graph := rfl
@[simp] theorem State.setStage_gload (s : State) (v : KMap Word) : (s.setStage v).gload = s.gload := rfl
@[simp] theorem State.setStage_cls (s : State) (v : KMap Word) : (s.setStage v).cls = s.cls := rfl
@[simp] theorem State.setStage_ems (s : State) (v : KMap Word) : (s.setStage v).ems = s.ems := rfl
@[simp] theorem State.setStage_threads (s : State) (v : KMap Word) : (s.setStage v).threads = s.threads := rfl
@[simp] theorem State.setStage_wheel (s : State) (v : KMap Word) : (s.setStage v).wheel = s.wheel := rfl
@[simp] theorem State.setStage_emem (s : State) (v : KMap Word) : (s.setStage v).emem = s.emem := rfl
@[simp] theorem State.setStage_splices (s : State) (v : KMap Word) : (s.setStage v).splices = s.splices := rfl
@[simp] theorem State.setStage_funcs (s : State) (v : KMap Word) : (s.setStage v).funcs = s.funcs := rfl
@[simp] theorem State.setStage_qps (s : State) (v : KMap Word) : (s.setStage v).qps = s.qps := rfl
@[simp] theorem State.setStage_binds (s : State) (v : KMap Word) : (s.setStage v).binds = s.binds := rfl
@[simp] theorem State.setStage_admin (s : State) (v : KMap Word) : (s.setStage v).admin = s.admin := rfl
@[simp] theorem State.setStage_mem (s : State) (v : KMap Word) : (s.setStage v).mem = s.mem := rfl
@[simp] theorem State.setStage_chks (s : State) (v : KMap Word) : (s.setStage v).chks = s.chks := rfl
@[simp] theorem State.setStage_dmas (s : State) (v : KMap Word) : (s.setStage v).dmas = s.dmas := rfl
@[simp] theorem State.setHold_cfg (s : State) (v : KMap Word) : (s.setHold v).cfg = s.cfg := rfl
@[simp] theorem State.setHold_pending (s : State) (v : KMap Word) : (s.setHold v).pending = s.pending := rfl
@[simp] theorem State.setHold_regs (s : State) (v : KMap Word) : (s.setHold v).regs = s.regs := rfl
@[simp] theorem State.setHold_stage (s : State) (v : KMap Word) : (s.setHold v).stage = s.stage := rfl
@[simp] theorem State.setHold_hold (s : State) (v : KMap Word) : (s.setHold v).hold = v := rfl
@[simp] theorem State.setHold_slv (s : State) (v : KMap Word) : (s.setHold v).slv = s.slv := rfl
@[simp] theorem State.setHold_out (s : State) (v : KMap Word) : (s.setHold v).out = s.out := rfl
@[simp] theorem State.setHold_ticks (s : State) (v : KMap Word) : (s.setHold v).ticks = s.ticks := rfl
@[simp] theorem State.setHold_free (s : State) (v : KMap Word) : (s.setHold v).free = s.free := rfl
@[simp] theorem State.setHold_rst (s : State) (v : KMap Word) : (s.setHold v).rst = s.rst := rfl
@[simp] theorem State.setHold_req (s : State) (v : KMap Word) : (s.setHold v).req = s.req := rfl
@[simp] theorem State.setHold_halves (s : State) (v : KMap Word) : (s.setHold v).halves = s.halves := rfl
@[simp] theorem State.setHold_settle (s : State) (v : KMap Word) : (s.setHold v).settle = s.settle := rfl
@[simp] theorem State.setHold_tbs (s : State) (v : KMap Word) : (s.setHold v).tbs = s.tbs := rfl
@[simp] theorem State.setHold_pps (s : State) (v : KMap Word) : (s.setHold v).pps = s.pps := rfl
@[simp] theorem State.setHold_gens (s : State) (v : KMap Word) : (s.setHold v).gens = s.gens := rfl
@[simp] theorem State.setHold_trigs (s : State) (v : KMap Word) : (s.setHold v).trigs = s.trigs := rfl
@[simp] theorem State.setHold_frames (s : State) (v : KMap Word) : (s.setHold v).frames = s.frames := rfl
@[simp] theorem State.setHold_nextFrame (s : State) (v : KMap Word) : (s.setHold v).nextFrame = s.nextFrame := rfl
@[simp] theorem State.setHold_ports (s : State) (v : KMap Word) : (s.setHold v).ports = s.ports := rfl
@[simp] theorem State.setHold_taken (s : State) (v : KMap Word) : (s.setHold v).taken = s.taken := rfl
@[simp] theorem State.setHold_latches (s : State) (v : KMap Word) : (s.setHold v).latches = s.latches := rfl
@[simp] theorem State.setHold_doms (s : State) (v : KMap Word) : (s.setHold v).doms = s.doms := rfl
@[simp] theorem State.setHold_gasp (s : State) (v : KMap Word) : (s.setHold v).gasp = s.gasp := rfl
@[simp] theorem State.setHold_dic (s : State) (v : KMap Word) : (s.setHold v).dic = s.dic := rfl
@[simp] theorem State.setHold_flt (s : State) (v : KMap Word) : (s.setHold v).flt = s.flt := rfl
@[simp] theorem State.setHold_trunks (s : State) (v : KMap Word) : (s.setHold v).trunks = s.trunks := rfl
@[simp] theorem State.setHold_slots (s : State) (v : KMap Word) : (s.setHold v).slots = s.slots := rfl
@[simp] theorem State.setHold_node (s : State) (v : KMap Word) : (s.setHold v).node = s.node := rfl
@[simp] theorem State.setHold_pipes (s : State) (v : KMap Word) : (s.setHold v).pipes = s.pipes := rfl
@[simp] theorem State.setHold_graph (s : State) (v : KMap Word) : (s.setHold v).graph = s.graph := rfl
@[simp] theorem State.setHold_gload (s : State) (v : KMap Word) : (s.setHold v).gload = s.gload := rfl
@[simp] theorem State.setHold_cls (s : State) (v : KMap Word) : (s.setHold v).cls = s.cls := rfl
@[simp] theorem State.setHold_ems (s : State) (v : KMap Word) : (s.setHold v).ems = s.ems := rfl
@[simp] theorem State.setHold_threads (s : State) (v : KMap Word) : (s.setHold v).threads = s.threads := rfl
@[simp] theorem State.setHold_wheel (s : State) (v : KMap Word) : (s.setHold v).wheel = s.wheel := rfl
@[simp] theorem State.setHold_emem (s : State) (v : KMap Word) : (s.setHold v).emem = s.emem := rfl
@[simp] theorem State.setHold_splices (s : State) (v : KMap Word) : (s.setHold v).splices = s.splices := rfl
@[simp] theorem State.setHold_funcs (s : State) (v : KMap Word) : (s.setHold v).funcs = s.funcs := rfl
@[simp] theorem State.setHold_qps (s : State) (v : KMap Word) : (s.setHold v).qps = s.qps := rfl
@[simp] theorem State.setHold_binds (s : State) (v : KMap Word) : (s.setHold v).binds = s.binds := rfl
@[simp] theorem State.setHold_admin (s : State) (v : KMap Word) : (s.setHold v).admin = s.admin := rfl
@[simp] theorem State.setHold_mem (s : State) (v : KMap Word) : (s.setHold v).mem = s.mem := rfl
@[simp] theorem State.setHold_chks (s : State) (v : KMap Word) : (s.setHold v).chks = s.chks := rfl
@[simp] theorem State.setHold_dmas (s : State) (v : KMap Word) : (s.setHold v).dmas = s.dmas := rfl
@[simp] theorem State.setSlv_cfg (s : State) (v : Option Slv) : (s.setSlv v).cfg = s.cfg := rfl
@[simp] theorem State.setSlv_pending (s : State) (v : Option Slv) : (s.setSlv v).pending = s.pending := rfl
@[simp] theorem State.setSlv_regs (s : State) (v : Option Slv) : (s.setSlv v).regs = s.regs := rfl
@[simp] theorem State.setSlv_stage (s : State) (v : Option Slv) : (s.setSlv v).stage = s.stage := rfl
@[simp] theorem State.setSlv_hold (s : State) (v : Option Slv) : (s.setSlv v).hold = s.hold := rfl
@[simp] theorem State.setSlv_slv (s : State) (v : Option Slv) : (s.setSlv v).slv = v := rfl
@[simp] theorem State.setSlv_out (s : State) (v : Option Slv) : (s.setSlv v).out = s.out := rfl
@[simp] theorem State.setSlv_ticks (s : State) (v : Option Slv) : (s.setSlv v).ticks = s.ticks := rfl
@[simp] theorem State.setSlv_free (s : State) (v : Option Slv) : (s.setSlv v).free = s.free := rfl
@[simp] theorem State.setSlv_rst (s : State) (v : Option Slv) : (s.setSlv v).rst = s.rst := rfl
@[simp] theorem State.setSlv_req (s : State) (v : Option Slv) : (s.setSlv v).req = s.req := rfl
@[simp] theorem State.setSlv_halves (s : State) (v : Option Slv) : (s.setSlv v).halves = s.halves := rfl
@[simp] theorem State.setSlv_settle (s : State) (v : Option Slv) : (s.setSlv v).settle = s.settle := rfl
@[simp] theorem State.setSlv_tbs (s : State) (v : Option Slv) : (s.setSlv v).tbs = s.tbs := rfl
@[simp] theorem State.setSlv_pps (s : State) (v : Option Slv) : (s.setSlv v).pps = s.pps := rfl
@[simp] theorem State.setSlv_gens (s : State) (v : Option Slv) : (s.setSlv v).gens = s.gens := rfl
@[simp] theorem State.setSlv_trigs (s : State) (v : Option Slv) : (s.setSlv v).trigs = s.trigs := rfl
@[simp] theorem State.setSlv_frames (s : State) (v : Option Slv) : (s.setSlv v).frames = s.frames := rfl
@[simp] theorem State.setSlv_nextFrame (s : State) (v : Option Slv) : (s.setSlv v).nextFrame = s.nextFrame := rfl
@[simp] theorem State.setSlv_ports (s : State) (v : Option Slv) : (s.setSlv v).ports = s.ports := rfl
@[simp] theorem State.setSlv_taken (s : State) (v : Option Slv) : (s.setSlv v).taken = s.taken := rfl
@[simp] theorem State.setSlv_latches (s : State) (v : Option Slv) : (s.setSlv v).latches = s.latches := rfl
@[simp] theorem State.setSlv_doms (s : State) (v : Option Slv) : (s.setSlv v).doms = s.doms := rfl
@[simp] theorem State.setSlv_gasp (s : State) (v : Option Slv) : (s.setSlv v).gasp = s.gasp := rfl
@[simp] theorem State.setSlv_dic (s : State) (v : Option Slv) : (s.setSlv v).dic = s.dic := rfl
@[simp] theorem State.setSlv_flt (s : State) (v : Option Slv) : (s.setSlv v).flt = s.flt := rfl
@[simp] theorem State.setSlv_trunks (s : State) (v : Option Slv) : (s.setSlv v).trunks = s.trunks := rfl
@[simp] theorem State.setSlv_slots (s : State) (v : Option Slv) : (s.setSlv v).slots = s.slots := rfl
@[simp] theorem State.setSlv_node (s : State) (v : Option Slv) : (s.setSlv v).node = s.node := rfl
@[simp] theorem State.setSlv_pipes (s : State) (v : Option Slv) : (s.setSlv v).pipes = s.pipes := rfl
@[simp] theorem State.setSlv_graph (s : State) (v : Option Slv) : (s.setSlv v).graph = s.graph := rfl
@[simp] theorem State.setSlv_gload (s : State) (v : Option Slv) : (s.setSlv v).gload = s.gload := rfl
@[simp] theorem State.setSlv_cls (s : State) (v : Option Slv) : (s.setSlv v).cls = s.cls := rfl
@[simp] theorem State.setSlv_ems (s : State) (v : Option Slv) : (s.setSlv v).ems = s.ems := rfl
@[simp] theorem State.setSlv_threads (s : State) (v : Option Slv) : (s.setSlv v).threads = s.threads := rfl
@[simp] theorem State.setSlv_wheel (s : State) (v : Option Slv) : (s.setSlv v).wheel = s.wheel := rfl
@[simp] theorem State.setSlv_emem (s : State) (v : Option Slv) : (s.setSlv v).emem = s.emem := rfl
@[simp] theorem State.setSlv_splices (s : State) (v : Option Slv) : (s.setSlv v).splices = s.splices := rfl
@[simp] theorem State.setSlv_funcs (s : State) (v : Option Slv) : (s.setSlv v).funcs = s.funcs := rfl
@[simp] theorem State.setSlv_qps (s : State) (v : Option Slv) : (s.setSlv v).qps = s.qps := rfl
@[simp] theorem State.setSlv_binds (s : State) (v : Option Slv) : (s.setSlv v).binds = s.binds := rfl
@[simp] theorem State.setSlv_admin (s : State) (v : Option Slv) : (s.setSlv v).admin = s.admin := rfl
@[simp] theorem State.setSlv_mem (s : State) (v : Option Slv) : (s.setSlv v).mem = s.mem := rfl
@[simp] theorem State.setSlv_chks (s : State) (v : Option Slv) : (s.setSlv v).chks = s.chks := rfl
@[simp] theorem State.setSlv_dmas (s : State) (v : Option Slv) : (s.setSlv v).dmas = s.dmas := rfl
@[simp] theorem State.setOut_cfg (s : State) (v : List Out) : (s.setOut v).cfg = s.cfg := rfl
@[simp] theorem State.setOut_pending (s : State) (v : List Out) : (s.setOut v).pending = s.pending := rfl
@[simp] theorem State.setOut_regs (s : State) (v : List Out) : (s.setOut v).regs = s.regs := rfl
@[simp] theorem State.setOut_stage (s : State) (v : List Out) : (s.setOut v).stage = s.stage := rfl
@[simp] theorem State.setOut_hold (s : State) (v : List Out) : (s.setOut v).hold = s.hold := rfl
@[simp] theorem State.setOut_slv (s : State) (v : List Out) : (s.setOut v).slv = s.slv := rfl
@[simp] theorem State.setOut_out (s : State) (v : List Out) : (s.setOut v).out = v := rfl
@[simp] theorem State.setOut_ticks (s : State) (v : List Out) : (s.setOut v).ticks = s.ticks := rfl
@[simp] theorem State.setOut_free (s : State) (v : List Out) : (s.setOut v).free = s.free := rfl
@[simp] theorem State.setOut_rst (s : State) (v : List Out) : (s.setOut v).rst = s.rst := rfl
@[simp] theorem State.setOut_req (s : State) (v : List Out) : (s.setOut v).req = s.req := rfl
@[simp] theorem State.setOut_halves (s : State) (v : List Out) : (s.setOut v).halves = s.halves := rfl
@[simp] theorem State.setOut_settle (s : State) (v : List Out) : (s.setOut v).settle = s.settle := rfl
@[simp] theorem State.setOut_tbs (s : State) (v : List Out) : (s.setOut v).tbs = s.tbs := rfl
@[simp] theorem State.setOut_pps (s : State) (v : List Out) : (s.setOut v).pps = s.pps := rfl
@[simp] theorem State.setOut_gens (s : State) (v : List Out) : (s.setOut v).gens = s.gens := rfl
@[simp] theorem State.setOut_trigs (s : State) (v : List Out) : (s.setOut v).trigs = s.trigs := rfl
@[simp] theorem State.setOut_frames (s : State) (v : List Out) : (s.setOut v).frames = s.frames := rfl
@[simp] theorem State.setOut_nextFrame (s : State) (v : List Out) : (s.setOut v).nextFrame = s.nextFrame := rfl
@[simp] theorem State.setOut_ports (s : State) (v : List Out) : (s.setOut v).ports = s.ports := rfl
@[simp] theorem State.setOut_taken (s : State) (v : List Out) : (s.setOut v).taken = s.taken := rfl
@[simp] theorem State.setOut_latches (s : State) (v : List Out) : (s.setOut v).latches = s.latches := rfl
@[simp] theorem State.setOut_doms (s : State) (v : List Out) : (s.setOut v).doms = s.doms := rfl
@[simp] theorem State.setOut_gasp (s : State) (v : List Out) : (s.setOut v).gasp = s.gasp := rfl
@[simp] theorem State.setOut_dic (s : State) (v : List Out) : (s.setOut v).dic = s.dic := rfl
@[simp] theorem State.setOut_flt (s : State) (v : List Out) : (s.setOut v).flt = s.flt := rfl
@[simp] theorem State.setOut_trunks (s : State) (v : List Out) : (s.setOut v).trunks = s.trunks := rfl
@[simp] theorem State.setOut_slots (s : State) (v : List Out) : (s.setOut v).slots = s.slots := rfl
@[simp] theorem State.setOut_node (s : State) (v : List Out) : (s.setOut v).node = s.node := rfl
@[simp] theorem State.setOut_pipes (s : State) (v : List Out) : (s.setOut v).pipes = s.pipes := rfl
@[simp] theorem State.setOut_graph (s : State) (v : List Out) : (s.setOut v).graph = s.graph := rfl
@[simp] theorem State.setOut_gload (s : State) (v : List Out) : (s.setOut v).gload = s.gload := rfl
@[simp] theorem State.setOut_cls (s : State) (v : List Out) : (s.setOut v).cls = s.cls := rfl
@[simp] theorem State.setOut_ems (s : State) (v : List Out) : (s.setOut v).ems = s.ems := rfl
@[simp] theorem State.setOut_threads (s : State) (v : List Out) : (s.setOut v).threads = s.threads := rfl
@[simp] theorem State.setOut_wheel (s : State) (v : List Out) : (s.setOut v).wheel = s.wheel := rfl
@[simp] theorem State.setOut_emem (s : State) (v : List Out) : (s.setOut v).emem = s.emem := rfl
@[simp] theorem State.setOut_splices (s : State) (v : List Out) : (s.setOut v).splices = s.splices := rfl
@[simp] theorem State.setOut_funcs (s : State) (v : List Out) : (s.setOut v).funcs = s.funcs := rfl
@[simp] theorem State.setOut_qps (s : State) (v : List Out) : (s.setOut v).qps = s.qps := rfl
@[simp] theorem State.setOut_binds (s : State) (v : List Out) : (s.setOut v).binds = s.binds := rfl
@[simp] theorem State.setOut_admin (s : State) (v : List Out) : (s.setOut v).admin = s.admin := rfl
@[simp] theorem State.setOut_mem (s : State) (v : List Out) : (s.setOut v).mem = s.mem := rfl
@[simp] theorem State.setOut_chks (s : State) (v : List Out) : (s.setOut v).chks = s.chks := rfl
@[simp] theorem State.setOut_dmas (s : State) (v : List Out) : (s.setOut v).dmas = s.dmas := rfl
@[simp] theorem State.setTicks_cfg (s : State) (v : Nat) : (s.setTicks v).cfg = s.cfg := rfl
@[simp] theorem State.setTicks_pending (s : State) (v : Nat) : (s.setTicks v).pending = s.pending := rfl
@[simp] theorem State.setTicks_regs (s : State) (v : Nat) : (s.setTicks v).regs = s.regs := rfl
@[simp] theorem State.setTicks_stage (s : State) (v : Nat) : (s.setTicks v).stage = s.stage := rfl
@[simp] theorem State.setTicks_hold (s : State) (v : Nat) : (s.setTicks v).hold = s.hold := rfl
@[simp] theorem State.setTicks_slv (s : State) (v : Nat) : (s.setTicks v).slv = s.slv := rfl
@[simp] theorem State.setTicks_out (s : State) (v : Nat) : (s.setTicks v).out = s.out := rfl
@[simp] theorem State.setTicks_ticks (s : State) (v : Nat) : (s.setTicks v).ticks = v := rfl
@[simp] theorem State.setTicks_free (s : State) (v : Nat) : (s.setTicks v).free = s.free := rfl
@[simp] theorem State.setTicks_rst (s : State) (v : Nat) : (s.setTicks v).rst = s.rst := rfl
@[simp] theorem State.setTicks_req (s : State) (v : Nat) : (s.setTicks v).req = s.req := rfl
@[simp] theorem State.setTicks_halves (s : State) (v : Nat) : (s.setTicks v).halves = s.halves := rfl
@[simp] theorem State.setTicks_settle (s : State) (v : Nat) : (s.setTicks v).settle = s.settle := rfl
@[simp] theorem State.setTicks_tbs (s : State) (v : Nat) : (s.setTicks v).tbs = s.tbs := rfl
@[simp] theorem State.setTicks_pps (s : State) (v : Nat) : (s.setTicks v).pps = s.pps := rfl
@[simp] theorem State.setTicks_gens (s : State) (v : Nat) : (s.setTicks v).gens = s.gens := rfl
@[simp] theorem State.setTicks_trigs (s : State) (v : Nat) : (s.setTicks v).trigs = s.trigs := rfl
@[simp] theorem State.setTicks_frames (s : State) (v : Nat) : (s.setTicks v).frames = s.frames := rfl
@[simp] theorem State.setTicks_nextFrame (s : State) (v : Nat) : (s.setTicks v).nextFrame = s.nextFrame := rfl
@[simp] theorem State.setTicks_ports (s : State) (v : Nat) : (s.setTicks v).ports = s.ports := rfl
@[simp] theorem State.setTicks_taken (s : State) (v : Nat) : (s.setTicks v).taken = s.taken := rfl
@[simp] theorem State.setTicks_latches (s : State) (v : Nat) : (s.setTicks v).latches = s.latches := rfl
@[simp] theorem State.setTicks_doms (s : State) (v : Nat) : (s.setTicks v).doms = s.doms := rfl
@[simp] theorem State.setTicks_gasp (s : State) (v : Nat) : (s.setTicks v).gasp = s.gasp := rfl
@[simp] theorem State.setTicks_dic (s : State) (v : Nat) : (s.setTicks v).dic = s.dic := rfl
@[simp] theorem State.setTicks_flt (s : State) (v : Nat) : (s.setTicks v).flt = s.flt := rfl
@[simp] theorem State.setTicks_trunks (s : State) (v : Nat) : (s.setTicks v).trunks = s.trunks := rfl
@[simp] theorem State.setTicks_slots (s : State) (v : Nat) : (s.setTicks v).slots = s.slots := rfl
@[simp] theorem State.setTicks_node (s : State) (v : Nat) : (s.setTicks v).node = s.node := rfl
@[simp] theorem State.setTicks_pipes (s : State) (v : Nat) : (s.setTicks v).pipes = s.pipes := rfl
@[simp] theorem State.setTicks_graph (s : State) (v : Nat) : (s.setTicks v).graph = s.graph := rfl
@[simp] theorem State.setTicks_gload (s : State) (v : Nat) : (s.setTicks v).gload = s.gload := rfl
@[simp] theorem State.setTicks_cls (s : State) (v : Nat) : (s.setTicks v).cls = s.cls := rfl
@[simp] theorem State.setTicks_ems (s : State) (v : Nat) : (s.setTicks v).ems = s.ems := rfl
@[simp] theorem State.setTicks_threads (s : State) (v : Nat) : (s.setTicks v).threads = s.threads := rfl
@[simp] theorem State.setTicks_wheel (s : State) (v : Nat) : (s.setTicks v).wheel = s.wheel := rfl
@[simp] theorem State.setTicks_emem (s : State) (v : Nat) : (s.setTicks v).emem = s.emem := rfl
@[simp] theorem State.setTicks_splices (s : State) (v : Nat) : (s.setTicks v).splices = s.splices := rfl
@[simp] theorem State.setTicks_funcs (s : State) (v : Nat) : (s.setTicks v).funcs = s.funcs := rfl
@[simp] theorem State.setTicks_qps (s : State) (v : Nat) : (s.setTicks v).qps = s.qps := rfl
@[simp] theorem State.setTicks_binds (s : State) (v : Nat) : (s.setTicks v).binds = s.binds := rfl
@[simp] theorem State.setTicks_admin (s : State) (v : Nat) : (s.setTicks v).admin = s.admin := rfl
@[simp] theorem State.setTicks_mem (s : State) (v : Nat) : (s.setTicks v).mem = s.mem := rfl
@[simp] theorem State.setTicks_chks (s : State) (v : Nat) : (s.setTicks v).chks = s.chks := rfl
@[simp] theorem State.setTicks_dmas (s : State) (v : Nat) : (s.setTicks v).dmas = s.dmas := rfl
@[simp] theorem State.setFree_cfg (s : State) (v : Nat) : (s.setFree v).cfg = s.cfg := rfl
@[simp] theorem State.setFree_pending (s : State) (v : Nat) : (s.setFree v).pending = s.pending := rfl
@[simp] theorem State.setFree_regs (s : State) (v : Nat) : (s.setFree v).regs = s.regs := rfl
@[simp] theorem State.setFree_stage (s : State) (v : Nat) : (s.setFree v).stage = s.stage := rfl
@[simp] theorem State.setFree_hold (s : State) (v : Nat) : (s.setFree v).hold = s.hold := rfl
@[simp] theorem State.setFree_slv (s : State) (v : Nat) : (s.setFree v).slv = s.slv := rfl
@[simp] theorem State.setFree_out (s : State) (v : Nat) : (s.setFree v).out = s.out := rfl
@[simp] theorem State.setFree_ticks (s : State) (v : Nat) : (s.setFree v).ticks = s.ticks := rfl
@[simp] theorem State.setFree_free (s : State) (v : Nat) : (s.setFree v).free = v := rfl
@[simp] theorem State.setFree_rst (s : State) (v : Nat) : (s.setFree v).rst = s.rst := rfl
@[simp] theorem State.setFree_req (s : State) (v : Nat) : (s.setFree v).req = s.req := rfl
@[simp] theorem State.setFree_halves (s : State) (v : Nat) : (s.setFree v).halves = s.halves := rfl
@[simp] theorem State.setFree_settle (s : State) (v : Nat) : (s.setFree v).settle = s.settle := rfl
@[simp] theorem State.setFree_tbs (s : State) (v : Nat) : (s.setFree v).tbs = s.tbs := rfl
@[simp] theorem State.setFree_pps (s : State) (v : Nat) : (s.setFree v).pps = s.pps := rfl
@[simp] theorem State.setFree_gens (s : State) (v : Nat) : (s.setFree v).gens = s.gens := rfl
@[simp] theorem State.setFree_trigs (s : State) (v : Nat) : (s.setFree v).trigs = s.trigs := rfl
@[simp] theorem State.setFree_frames (s : State) (v : Nat) : (s.setFree v).frames = s.frames := rfl
@[simp] theorem State.setFree_nextFrame (s : State) (v : Nat) : (s.setFree v).nextFrame = s.nextFrame := rfl
@[simp] theorem State.setFree_ports (s : State) (v : Nat) : (s.setFree v).ports = s.ports := rfl
@[simp] theorem State.setFree_taken (s : State) (v : Nat) : (s.setFree v).taken = s.taken := rfl
@[simp] theorem State.setFree_latches (s : State) (v : Nat) : (s.setFree v).latches = s.latches := rfl
@[simp] theorem State.setFree_doms (s : State) (v : Nat) : (s.setFree v).doms = s.doms := rfl
@[simp] theorem State.setFree_gasp (s : State) (v : Nat) : (s.setFree v).gasp = s.gasp := rfl
@[simp] theorem State.setFree_dic (s : State) (v : Nat) : (s.setFree v).dic = s.dic := rfl
@[simp] theorem State.setFree_flt (s : State) (v : Nat) : (s.setFree v).flt = s.flt := rfl
@[simp] theorem State.setFree_trunks (s : State) (v : Nat) : (s.setFree v).trunks = s.trunks := rfl
@[simp] theorem State.setFree_slots (s : State) (v : Nat) : (s.setFree v).slots = s.slots := rfl
@[simp] theorem State.setFree_node (s : State) (v : Nat) : (s.setFree v).node = s.node := rfl
@[simp] theorem State.setFree_pipes (s : State) (v : Nat) : (s.setFree v).pipes = s.pipes := rfl
@[simp] theorem State.setFree_graph (s : State) (v : Nat) : (s.setFree v).graph = s.graph := rfl
@[simp] theorem State.setFree_gload (s : State) (v : Nat) : (s.setFree v).gload = s.gload := rfl
@[simp] theorem State.setFree_cls (s : State) (v : Nat) : (s.setFree v).cls = s.cls := rfl
@[simp] theorem State.setFree_ems (s : State) (v : Nat) : (s.setFree v).ems = s.ems := rfl
@[simp] theorem State.setFree_threads (s : State) (v : Nat) : (s.setFree v).threads = s.threads := rfl
@[simp] theorem State.setFree_wheel (s : State) (v : Nat) : (s.setFree v).wheel = s.wheel := rfl
@[simp] theorem State.setFree_emem (s : State) (v : Nat) : (s.setFree v).emem = s.emem := rfl
@[simp] theorem State.setFree_splices (s : State) (v : Nat) : (s.setFree v).splices = s.splices := rfl
@[simp] theorem State.setFree_funcs (s : State) (v : Nat) : (s.setFree v).funcs = s.funcs := rfl
@[simp] theorem State.setFree_qps (s : State) (v : Nat) : (s.setFree v).qps = s.qps := rfl
@[simp] theorem State.setFree_binds (s : State) (v : Nat) : (s.setFree v).binds = s.binds := rfl
@[simp] theorem State.setFree_admin (s : State) (v : Nat) : (s.setFree v).admin = s.admin := rfl
@[simp] theorem State.setFree_mem (s : State) (v : Nat) : (s.setFree v).mem = s.mem := rfl
@[simp] theorem State.setFree_chks (s : State) (v : Nat) : (s.setFree v).chks = s.chks := rfl
@[simp] theorem State.setFree_dmas (s : State) (v : Nat) : (s.setFree v).dmas = s.dmas := rfl
@[simp] theorem State.setRst_cfg (s : State) (v : Resets) : (s.setRst v).cfg = s.cfg := rfl
@[simp] theorem State.setRst_pending (s : State) (v : Resets) : (s.setRst v).pending = s.pending := rfl
@[simp] theorem State.setRst_regs (s : State) (v : Resets) : (s.setRst v).regs = s.regs := rfl
@[simp] theorem State.setRst_stage (s : State) (v : Resets) : (s.setRst v).stage = s.stage := rfl
@[simp] theorem State.setRst_hold (s : State) (v : Resets) : (s.setRst v).hold = s.hold := rfl
@[simp] theorem State.setRst_slv (s : State) (v : Resets) : (s.setRst v).slv = s.slv := rfl
@[simp] theorem State.setRst_out (s : State) (v : Resets) : (s.setRst v).out = s.out := rfl
@[simp] theorem State.setRst_ticks (s : State) (v : Resets) : (s.setRst v).ticks = s.ticks := rfl
@[simp] theorem State.setRst_free (s : State) (v : Resets) : (s.setRst v).free = s.free := rfl
@[simp] theorem State.setRst_rst (s : State) (v : Resets) : (s.setRst v).rst = v := rfl
@[simp] theorem State.setRst_req (s : State) (v : Resets) : (s.setRst v).req = s.req := rfl
@[simp] theorem State.setRst_halves (s : State) (v : Resets) : (s.setRst v).halves = s.halves := rfl
@[simp] theorem State.setRst_settle (s : State) (v : Resets) : (s.setRst v).settle = s.settle := rfl
@[simp] theorem State.setRst_tbs (s : State) (v : Resets) : (s.setRst v).tbs = s.tbs := rfl
@[simp] theorem State.setRst_pps (s : State) (v : Resets) : (s.setRst v).pps = s.pps := rfl
@[simp] theorem State.setRst_gens (s : State) (v : Resets) : (s.setRst v).gens = s.gens := rfl
@[simp] theorem State.setRst_trigs (s : State) (v : Resets) : (s.setRst v).trigs = s.trigs := rfl
@[simp] theorem State.setRst_frames (s : State) (v : Resets) : (s.setRst v).frames = s.frames := rfl
@[simp] theorem State.setRst_nextFrame (s : State) (v : Resets) : (s.setRst v).nextFrame = s.nextFrame := rfl
@[simp] theorem State.setRst_ports (s : State) (v : Resets) : (s.setRst v).ports = s.ports := rfl
@[simp] theorem State.setRst_taken (s : State) (v : Resets) : (s.setRst v).taken = s.taken := rfl
@[simp] theorem State.setRst_latches (s : State) (v : Resets) : (s.setRst v).latches = s.latches := rfl
@[simp] theorem State.setRst_doms (s : State) (v : Resets) : (s.setRst v).doms = s.doms := rfl
@[simp] theorem State.setRst_gasp (s : State) (v : Resets) : (s.setRst v).gasp = s.gasp := rfl
@[simp] theorem State.setRst_dic (s : State) (v : Resets) : (s.setRst v).dic = s.dic := rfl
@[simp] theorem State.setRst_flt (s : State) (v : Resets) : (s.setRst v).flt = s.flt := rfl
@[simp] theorem State.setRst_trunks (s : State) (v : Resets) : (s.setRst v).trunks = s.trunks := rfl
@[simp] theorem State.setRst_slots (s : State) (v : Resets) : (s.setRst v).slots = s.slots := rfl
@[simp] theorem State.setRst_node (s : State) (v : Resets) : (s.setRst v).node = s.node := rfl
@[simp] theorem State.setRst_pipes (s : State) (v : Resets) : (s.setRst v).pipes = s.pipes := rfl
@[simp] theorem State.setRst_graph (s : State) (v : Resets) : (s.setRst v).graph = s.graph := rfl
@[simp] theorem State.setRst_gload (s : State) (v : Resets) : (s.setRst v).gload = s.gload := rfl
@[simp] theorem State.setRst_cls (s : State) (v : Resets) : (s.setRst v).cls = s.cls := rfl
@[simp] theorem State.setRst_ems (s : State) (v : Resets) : (s.setRst v).ems = s.ems := rfl
@[simp] theorem State.setRst_threads (s : State) (v : Resets) : (s.setRst v).threads = s.threads := rfl
@[simp] theorem State.setRst_wheel (s : State) (v : Resets) : (s.setRst v).wheel = s.wheel := rfl
@[simp] theorem State.setRst_emem (s : State) (v : Resets) : (s.setRst v).emem = s.emem := rfl
@[simp] theorem State.setRst_splices (s : State) (v : Resets) : (s.setRst v).splices = s.splices := rfl
@[simp] theorem State.setRst_funcs (s : State) (v : Resets) : (s.setRst v).funcs = s.funcs := rfl
@[simp] theorem State.setRst_qps (s : State) (v : Resets) : (s.setRst v).qps = s.qps := rfl
@[simp] theorem State.setRst_binds (s : State) (v : Resets) : (s.setRst v).binds = s.binds := rfl
@[simp] theorem State.setRst_admin (s : State) (v : Resets) : (s.setRst v).admin = s.admin := rfl
@[simp] theorem State.setRst_mem (s : State) (v : Resets) : (s.setRst v).mem = s.mem := rfl
@[simp] theorem State.setRst_chks (s : State) (v : Resets) : (s.setRst v).chks = s.chks := rfl
@[simp] theorem State.setRst_dmas (s : State) (v : Resets) : (s.setRst v).dmas = s.dmas := rfl
@[simp] theorem State.setReq_cfg (s : State) (v : Option ModeReq) : (s.setReq v).cfg = s.cfg := rfl
@[simp] theorem State.setReq_pending (s : State) (v : Option ModeReq) : (s.setReq v).pending = s.pending := rfl
@[simp] theorem State.setReq_regs (s : State) (v : Option ModeReq) : (s.setReq v).regs = s.regs := rfl
@[simp] theorem State.setReq_stage (s : State) (v : Option ModeReq) : (s.setReq v).stage = s.stage := rfl
@[simp] theorem State.setReq_hold (s : State) (v : Option ModeReq) : (s.setReq v).hold = s.hold := rfl
@[simp] theorem State.setReq_slv (s : State) (v : Option ModeReq) : (s.setReq v).slv = s.slv := rfl
@[simp] theorem State.setReq_out (s : State) (v : Option ModeReq) : (s.setReq v).out = s.out := rfl
@[simp] theorem State.setReq_ticks (s : State) (v : Option ModeReq) : (s.setReq v).ticks = s.ticks := rfl
@[simp] theorem State.setReq_free (s : State) (v : Option ModeReq) : (s.setReq v).free = s.free := rfl
@[simp] theorem State.setReq_rst (s : State) (v : Option ModeReq) : (s.setReq v).rst = s.rst := rfl
@[simp] theorem State.setReq_req (s : State) (v : Option ModeReq) : (s.setReq v).req = v := rfl
@[simp] theorem State.setReq_halves (s : State) (v : Option ModeReq) : (s.setReq v).halves = s.halves := rfl
@[simp] theorem State.setReq_settle (s : State) (v : Option ModeReq) : (s.setReq v).settle = s.settle := rfl
@[simp] theorem State.setReq_tbs (s : State) (v : Option ModeReq) : (s.setReq v).tbs = s.tbs := rfl
@[simp] theorem State.setReq_pps (s : State) (v : Option ModeReq) : (s.setReq v).pps = s.pps := rfl
@[simp] theorem State.setReq_gens (s : State) (v : Option ModeReq) : (s.setReq v).gens = s.gens := rfl
@[simp] theorem State.setReq_trigs (s : State) (v : Option ModeReq) : (s.setReq v).trigs = s.trigs := rfl
@[simp] theorem State.setReq_frames (s : State) (v : Option ModeReq) : (s.setReq v).frames = s.frames := rfl
@[simp] theorem State.setReq_nextFrame (s : State) (v : Option ModeReq) : (s.setReq v).nextFrame = s.nextFrame := rfl
@[simp] theorem State.setReq_ports (s : State) (v : Option ModeReq) : (s.setReq v).ports = s.ports := rfl
@[simp] theorem State.setReq_taken (s : State) (v : Option ModeReq) : (s.setReq v).taken = s.taken := rfl
@[simp] theorem State.setReq_latches (s : State) (v : Option ModeReq) : (s.setReq v).latches = s.latches := rfl
@[simp] theorem State.setReq_doms (s : State) (v : Option ModeReq) : (s.setReq v).doms = s.doms := rfl
@[simp] theorem State.setReq_gasp (s : State) (v : Option ModeReq) : (s.setReq v).gasp = s.gasp := rfl
@[simp] theorem State.setReq_dic (s : State) (v : Option ModeReq) : (s.setReq v).dic = s.dic := rfl
@[simp] theorem State.setReq_flt (s : State) (v : Option ModeReq) : (s.setReq v).flt = s.flt := rfl
@[simp] theorem State.setReq_trunks (s : State) (v : Option ModeReq) : (s.setReq v).trunks = s.trunks := rfl
@[simp] theorem State.setReq_slots (s : State) (v : Option ModeReq) : (s.setReq v).slots = s.slots := rfl
@[simp] theorem State.setReq_node (s : State) (v : Option ModeReq) : (s.setReq v).node = s.node := rfl
@[simp] theorem State.setReq_pipes (s : State) (v : Option ModeReq) : (s.setReq v).pipes = s.pipes := rfl
@[simp] theorem State.setReq_graph (s : State) (v : Option ModeReq) : (s.setReq v).graph = s.graph := rfl
@[simp] theorem State.setReq_gload (s : State) (v : Option ModeReq) : (s.setReq v).gload = s.gload := rfl
@[simp] theorem State.setReq_cls (s : State) (v : Option ModeReq) : (s.setReq v).cls = s.cls := rfl
@[simp] theorem State.setReq_ems (s : State) (v : Option ModeReq) : (s.setReq v).ems = s.ems := rfl
@[simp] theorem State.setReq_threads (s : State) (v : Option ModeReq) : (s.setReq v).threads = s.threads := rfl
@[simp] theorem State.setReq_wheel (s : State) (v : Option ModeReq) : (s.setReq v).wheel = s.wheel := rfl
@[simp] theorem State.setReq_emem (s : State) (v : Option ModeReq) : (s.setReq v).emem = s.emem := rfl
@[simp] theorem State.setReq_splices (s : State) (v : Option ModeReq) : (s.setReq v).splices = s.splices := rfl
@[simp] theorem State.setReq_funcs (s : State) (v : Option ModeReq) : (s.setReq v).funcs = s.funcs := rfl
@[simp] theorem State.setReq_qps (s : State) (v : Option ModeReq) : (s.setReq v).qps = s.qps := rfl
@[simp] theorem State.setReq_binds (s : State) (v : Option ModeReq) : (s.setReq v).binds = s.binds := rfl
@[simp] theorem State.setReq_admin (s : State) (v : Option ModeReq) : (s.setReq v).admin = s.admin := rfl
@[simp] theorem State.setReq_mem (s : State) (v : Option ModeReq) : (s.setReq v).mem = s.mem := rfl
@[simp] theorem State.setReq_chks (s : State) (v : Option ModeReq) : (s.setReq v).chks = s.chks := rfl
@[simp] theorem State.setReq_dmas (s : State) (v : Option ModeReq) : (s.setReq v).dmas = s.dmas := rfl
@[simp] theorem State.setHalves_cfg (s : State) (v : KMap HalfSt) : (s.setHalves v).cfg = s.cfg := rfl
@[simp] theorem State.setHalves_pending (s : State) (v : KMap HalfSt) : (s.setHalves v).pending = s.pending := rfl
@[simp] theorem State.setHalves_regs (s : State) (v : KMap HalfSt) : (s.setHalves v).regs = s.regs := rfl
@[simp] theorem State.setHalves_stage (s : State) (v : KMap HalfSt) : (s.setHalves v).stage = s.stage := rfl
@[simp] theorem State.setHalves_hold (s : State) (v : KMap HalfSt) : (s.setHalves v).hold = s.hold := rfl
@[simp] theorem State.setHalves_slv (s : State) (v : KMap HalfSt) : (s.setHalves v).slv = s.slv := rfl
@[simp] theorem State.setHalves_out (s : State) (v : KMap HalfSt) : (s.setHalves v).out = s.out := rfl
@[simp] theorem State.setHalves_ticks (s : State) (v : KMap HalfSt) : (s.setHalves v).ticks = s.ticks := rfl
@[simp] theorem State.setHalves_free (s : State) (v : KMap HalfSt) : (s.setHalves v).free = s.free := rfl
@[simp] theorem State.setHalves_rst (s : State) (v : KMap HalfSt) : (s.setHalves v).rst = s.rst := rfl
@[simp] theorem State.setHalves_req (s : State) (v : KMap HalfSt) : (s.setHalves v).req = s.req := rfl
@[simp] theorem State.setHalves_halves (s : State) (v : KMap HalfSt) : (s.setHalves v).halves = v := rfl
@[simp] theorem State.setHalves_settle (s : State) (v : KMap HalfSt) : (s.setHalves v).settle = s.settle := rfl
@[simp] theorem State.setHalves_tbs (s : State) (v : KMap HalfSt) : (s.setHalves v).tbs = s.tbs := rfl
@[simp] theorem State.setHalves_pps (s : State) (v : KMap HalfSt) : (s.setHalves v).pps = s.pps := rfl
@[simp] theorem State.setHalves_gens (s : State) (v : KMap HalfSt) : (s.setHalves v).gens = s.gens := rfl
@[simp] theorem State.setHalves_trigs (s : State) (v : KMap HalfSt) : (s.setHalves v).trigs = s.trigs := rfl
@[simp] theorem State.setHalves_frames (s : State) (v : KMap HalfSt) : (s.setHalves v).frames = s.frames := rfl
@[simp] theorem State.setHalves_nextFrame (s : State) (v : KMap HalfSt) : (s.setHalves v).nextFrame = s.nextFrame := rfl
@[simp] theorem State.setHalves_ports (s : State) (v : KMap HalfSt) : (s.setHalves v).ports = s.ports := rfl
@[simp] theorem State.setHalves_taken (s : State) (v : KMap HalfSt) : (s.setHalves v).taken = s.taken := rfl
@[simp] theorem State.setHalves_latches (s : State) (v : KMap HalfSt) : (s.setHalves v).latches = s.latches := rfl
@[simp] theorem State.setHalves_doms (s : State) (v : KMap HalfSt) : (s.setHalves v).doms = s.doms := rfl
@[simp] theorem State.setHalves_gasp (s : State) (v : KMap HalfSt) : (s.setHalves v).gasp = s.gasp := rfl
@[simp] theorem State.setHalves_dic (s : State) (v : KMap HalfSt) : (s.setHalves v).dic = s.dic := rfl
@[simp] theorem State.setHalves_flt (s : State) (v : KMap HalfSt) : (s.setHalves v).flt = s.flt := rfl
@[simp] theorem State.setHalves_trunks (s : State) (v : KMap HalfSt) : (s.setHalves v).trunks = s.trunks := rfl
@[simp] theorem State.setHalves_slots (s : State) (v : KMap HalfSt) : (s.setHalves v).slots = s.slots := rfl
@[simp] theorem State.setHalves_node (s : State) (v : KMap HalfSt) : (s.setHalves v).node = s.node := rfl
@[simp] theorem State.setHalves_pipes (s : State) (v : KMap HalfSt) : (s.setHalves v).pipes = s.pipes := rfl
@[simp] theorem State.setHalves_graph (s : State) (v : KMap HalfSt) : (s.setHalves v).graph = s.graph := rfl
@[simp] theorem State.setHalves_gload (s : State) (v : KMap HalfSt) : (s.setHalves v).gload = s.gload := rfl
@[simp] theorem State.setHalves_cls (s : State) (v : KMap HalfSt) : (s.setHalves v).cls = s.cls := rfl
@[simp] theorem State.setHalves_ems (s : State) (v : KMap HalfSt) : (s.setHalves v).ems = s.ems := rfl
@[simp] theorem State.setHalves_threads (s : State) (v : KMap HalfSt) : (s.setHalves v).threads = s.threads := rfl
@[simp] theorem State.setHalves_wheel (s : State) (v : KMap HalfSt) : (s.setHalves v).wheel = s.wheel := rfl
@[simp] theorem State.setHalves_emem (s : State) (v : KMap HalfSt) : (s.setHalves v).emem = s.emem := rfl
@[simp] theorem State.setHalves_splices (s : State) (v : KMap HalfSt) : (s.setHalves v).splices = s.splices := rfl
@[simp] theorem State.setHalves_funcs (s : State) (v : KMap HalfSt) : (s.setHalves v).funcs = s.funcs := rfl
@[simp] theorem State.setHalves_qps (s : State) (v : KMap HalfSt) : (s.setHalves v).qps = s.qps := rfl
@[simp] theorem State.setHalves_binds (s : State) (v : KMap HalfSt) : (s.setHalves v).binds = s.binds := rfl
@[simp] theorem State.setHalves_admin (s : State) (v : KMap HalfSt) : (s.setHalves v).admin = s.admin := rfl
@[simp] theorem State.setHalves_mem (s : State) (v : KMap HalfSt) : (s.setHalves v).mem = s.mem := rfl
@[simp] theorem State.setHalves_chks (s : State) (v : KMap HalfSt) : (s.setHalves v).chks = s.chks := rfl
@[simp] theorem State.setHalves_dmas (s : State) (v : KMap HalfSt) : (s.setHalves v).dmas = s.dmas := rfl
@[simp] theorem State.setSettle_cfg (s : State) (v : Bool) : (s.setSettle v).cfg = s.cfg := rfl
@[simp] theorem State.setSettle_pending (s : State) (v : Bool) : (s.setSettle v).pending = s.pending := rfl
@[simp] theorem State.setSettle_regs (s : State) (v : Bool) : (s.setSettle v).regs = s.regs := rfl
@[simp] theorem State.setSettle_stage (s : State) (v : Bool) : (s.setSettle v).stage = s.stage := rfl
@[simp] theorem State.setSettle_hold (s : State) (v : Bool) : (s.setSettle v).hold = s.hold := rfl
@[simp] theorem State.setSettle_slv (s : State) (v : Bool) : (s.setSettle v).slv = s.slv := rfl
@[simp] theorem State.setSettle_out (s : State) (v : Bool) : (s.setSettle v).out = s.out := rfl
@[simp] theorem State.setSettle_ticks (s : State) (v : Bool) : (s.setSettle v).ticks = s.ticks := rfl
@[simp] theorem State.setSettle_free (s : State) (v : Bool) : (s.setSettle v).free = s.free := rfl
@[simp] theorem State.setSettle_rst (s : State) (v : Bool) : (s.setSettle v).rst = s.rst := rfl
@[simp] theorem State.setSettle_req (s : State) (v : Bool) : (s.setSettle v).req = s.req := rfl
@[simp] theorem State.setSettle_halves (s : State) (v : Bool) : (s.setSettle v).halves = s.halves := rfl
@[simp] theorem State.setSettle_settle (s : State) (v : Bool) : (s.setSettle v).settle = v := rfl
@[simp] theorem State.setSettle_tbs (s : State) (v : Bool) : (s.setSettle v).tbs = s.tbs := rfl
@[simp] theorem State.setSettle_pps (s : State) (v : Bool) : (s.setSettle v).pps = s.pps := rfl
@[simp] theorem State.setSettle_gens (s : State) (v : Bool) : (s.setSettle v).gens = s.gens := rfl
@[simp] theorem State.setSettle_trigs (s : State) (v : Bool) : (s.setSettle v).trigs = s.trigs := rfl
@[simp] theorem State.setSettle_frames (s : State) (v : Bool) : (s.setSettle v).frames = s.frames := rfl
@[simp] theorem State.setSettle_nextFrame (s : State) (v : Bool) : (s.setSettle v).nextFrame = s.nextFrame := rfl
@[simp] theorem State.setSettle_ports (s : State) (v : Bool) : (s.setSettle v).ports = s.ports := rfl
@[simp] theorem State.setSettle_taken (s : State) (v : Bool) : (s.setSettle v).taken = s.taken := rfl
@[simp] theorem State.setSettle_latches (s : State) (v : Bool) : (s.setSettle v).latches = s.latches := rfl
@[simp] theorem State.setSettle_doms (s : State) (v : Bool) : (s.setSettle v).doms = s.doms := rfl
@[simp] theorem State.setSettle_gasp (s : State) (v : Bool) : (s.setSettle v).gasp = s.gasp := rfl
@[simp] theorem State.setSettle_dic (s : State) (v : Bool) : (s.setSettle v).dic = s.dic := rfl
@[simp] theorem State.setSettle_flt (s : State) (v : Bool) : (s.setSettle v).flt = s.flt := rfl
@[simp] theorem State.setSettle_trunks (s : State) (v : Bool) : (s.setSettle v).trunks = s.trunks := rfl
@[simp] theorem State.setSettle_slots (s : State) (v : Bool) : (s.setSettle v).slots = s.slots := rfl
@[simp] theorem State.setSettle_node (s : State) (v : Bool) : (s.setSettle v).node = s.node := rfl
@[simp] theorem State.setSettle_pipes (s : State) (v : Bool) : (s.setSettle v).pipes = s.pipes := rfl
@[simp] theorem State.setSettle_graph (s : State) (v : Bool) : (s.setSettle v).graph = s.graph := rfl
@[simp] theorem State.setSettle_gload (s : State) (v : Bool) : (s.setSettle v).gload = s.gload := rfl
@[simp] theorem State.setSettle_cls (s : State) (v : Bool) : (s.setSettle v).cls = s.cls := rfl
@[simp] theorem State.setSettle_ems (s : State) (v : Bool) : (s.setSettle v).ems = s.ems := rfl
@[simp] theorem State.setSettle_threads (s : State) (v : Bool) : (s.setSettle v).threads = s.threads := rfl
@[simp] theorem State.setSettle_wheel (s : State) (v : Bool) : (s.setSettle v).wheel = s.wheel := rfl
@[simp] theorem State.setSettle_emem (s : State) (v : Bool) : (s.setSettle v).emem = s.emem := rfl
@[simp] theorem State.setSettle_splices (s : State) (v : Bool) : (s.setSettle v).splices = s.splices := rfl
@[simp] theorem State.setSettle_funcs (s : State) (v : Bool) : (s.setSettle v).funcs = s.funcs := rfl
@[simp] theorem State.setSettle_qps (s : State) (v : Bool) : (s.setSettle v).qps = s.qps := rfl
@[simp] theorem State.setSettle_binds (s : State) (v : Bool) : (s.setSettle v).binds = s.binds := rfl
@[simp] theorem State.setSettle_admin (s : State) (v : Bool) : (s.setSettle v).admin = s.admin := rfl
@[simp] theorem State.setSettle_mem (s : State) (v : Bool) : (s.setSettle v).mem = s.mem := rfl
@[simp] theorem State.setSettle_chks (s : State) (v : Bool) : (s.setSettle v).chks = s.chks := rfl
@[simp] theorem State.setSettle_dmas (s : State) (v : Bool) : (s.setSettle v).dmas = s.dmas := rfl
@[simp] theorem State.setTbs_cfg (s : State) (v : KMap TimeBase) : (s.setTbs v).cfg = s.cfg := rfl
@[simp] theorem State.setTbs_pending (s : State) (v : KMap TimeBase) : (s.setTbs v).pending = s.pending := rfl
@[simp] theorem State.setTbs_regs (s : State) (v : KMap TimeBase) : (s.setTbs v).regs = s.regs := rfl
@[simp] theorem State.setTbs_stage (s : State) (v : KMap TimeBase) : (s.setTbs v).stage = s.stage := rfl
@[simp] theorem State.setTbs_hold (s : State) (v : KMap TimeBase) : (s.setTbs v).hold = s.hold := rfl
@[simp] theorem State.setTbs_slv (s : State) (v : KMap TimeBase) : (s.setTbs v).slv = s.slv := rfl
@[simp] theorem State.setTbs_out (s : State) (v : KMap TimeBase) : (s.setTbs v).out = s.out := rfl
@[simp] theorem State.setTbs_ticks (s : State) (v : KMap TimeBase) : (s.setTbs v).ticks = s.ticks := rfl
@[simp] theorem State.setTbs_free (s : State) (v : KMap TimeBase) : (s.setTbs v).free = s.free := rfl
@[simp] theorem State.setTbs_rst (s : State) (v : KMap TimeBase) : (s.setTbs v).rst = s.rst := rfl
@[simp] theorem State.setTbs_req (s : State) (v : KMap TimeBase) : (s.setTbs v).req = s.req := rfl
@[simp] theorem State.setTbs_halves (s : State) (v : KMap TimeBase) : (s.setTbs v).halves = s.halves := rfl
@[simp] theorem State.setTbs_settle (s : State) (v : KMap TimeBase) : (s.setTbs v).settle = s.settle := rfl
@[simp] theorem State.setTbs_tbs (s : State) (v : KMap TimeBase) : (s.setTbs v).tbs = v := rfl
@[simp] theorem State.setTbs_pps (s : State) (v : KMap TimeBase) : (s.setTbs v).pps = s.pps := rfl
@[simp] theorem State.setTbs_gens (s : State) (v : KMap TimeBase) : (s.setTbs v).gens = s.gens := rfl
@[simp] theorem State.setTbs_trigs (s : State) (v : KMap TimeBase) : (s.setTbs v).trigs = s.trigs := rfl
@[simp] theorem State.setTbs_frames (s : State) (v : KMap TimeBase) : (s.setTbs v).frames = s.frames := rfl
@[simp] theorem State.setTbs_nextFrame (s : State) (v : KMap TimeBase) : (s.setTbs v).nextFrame = s.nextFrame := rfl
@[simp] theorem State.setTbs_ports (s : State) (v : KMap TimeBase) : (s.setTbs v).ports = s.ports := rfl
@[simp] theorem State.setTbs_taken (s : State) (v : KMap TimeBase) : (s.setTbs v).taken = s.taken := rfl
@[simp] theorem State.setTbs_latches (s : State) (v : KMap TimeBase) : (s.setTbs v).latches = s.latches := rfl
@[simp] theorem State.setTbs_doms (s : State) (v : KMap TimeBase) : (s.setTbs v).doms = s.doms := rfl
@[simp] theorem State.setTbs_gasp (s : State) (v : KMap TimeBase) : (s.setTbs v).gasp = s.gasp := rfl
@[simp] theorem State.setTbs_dic (s : State) (v : KMap TimeBase) : (s.setTbs v).dic = s.dic := rfl
@[simp] theorem State.setTbs_flt (s : State) (v : KMap TimeBase) : (s.setTbs v).flt = s.flt := rfl
@[simp] theorem State.setTbs_trunks (s : State) (v : KMap TimeBase) : (s.setTbs v).trunks = s.trunks := rfl
@[simp] theorem State.setTbs_slots (s : State) (v : KMap TimeBase) : (s.setTbs v).slots = s.slots := rfl
@[simp] theorem State.setTbs_node (s : State) (v : KMap TimeBase) : (s.setTbs v).node = s.node := rfl
@[simp] theorem State.setTbs_pipes (s : State) (v : KMap TimeBase) : (s.setTbs v).pipes = s.pipes := rfl
@[simp] theorem State.setTbs_graph (s : State) (v : KMap TimeBase) : (s.setTbs v).graph = s.graph := rfl
@[simp] theorem State.setTbs_gload (s : State) (v : KMap TimeBase) : (s.setTbs v).gload = s.gload := rfl
@[simp] theorem State.setTbs_cls (s : State) (v : KMap TimeBase) : (s.setTbs v).cls = s.cls := rfl
@[simp] theorem State.setTbs_ems (s : State) (v : KMap TimeBase) : (s.setTbs v).ems = s.ems := rfl
@[simp] theorem State.setTbs_threads (s : State) (v : KMap TimeBase) : (s.setTbs v).threads = s.threads := rfl
@[simp] theorem State.setTbs_wheel (s : State) (v : KMap TimeBase) : (s.setTbs v).wheel = s.wheel := rfl
@[simp] theorem State.setTbs_emem (s : State) (v : KMap TimeBase) : (s.setTbs v).emem = s.emem := rfl
@[simp] theorem State.setTbs_splices (s : State) (v : KMap TimeBase) : (s.setTbs v).splices = s.splices := rfl
@[simp] theorem State.setTbs_funcs (s : State) (v : KMap TimeBase) : (s.setTbs v).funcs = s.funcs := rfl
@[simp] theorem State.setTbs_qps (s : State) (v : KMap TimeBase) : (s.setTbs v).qps = s.qps := rfl
@[simp] theorem State.setTbs_binds (s : State) (v : KMap TimeBase) : (s.setTbs v).binds = s.binds := rfl
@[simp] theorem State.setTbs_admin (s : State) (v : KMap TimeBase) : (s.setTbs v).admin = s.admin := rfl
@[simp] theorem State.setTbs_mem (s : State) (v : KMap TimeBase) : (s.setTbs v).mem = s.mem := rfl
@[simp] theorem State.setTbs_chks (s : State) (v : KMap TimeBase) : (s.setTbs v).chks = s.chks := rfl
@[simp] theorem State.setTbs_dmas (s : State) (v : KMap TimeBase) : (s.setTbs v).dmas = s.dmas := rfl
@[simp] theorem State.setPps_cfg (s : State) (v : Pps) : (s.setPps v).cfg = s.cfg := rfl
@[simp] theorem State.setPps_pending (s : State) (v : Pps) : (s.setPps v).pending = s.pending := rfl
@[simp] theorem State.setPps_regs (s : State) (v : Pps) : (s.setPps v).regs = s.regs := rfl
@[simp] theorem State.setPps_stage (s : State) (v : Pps) : (s.setPps v).stage = s.stage := rfl
@[simp] theorem State.setPps_hold (s : State) (v : Pps) : (s.setPps v).hold = s.hold := rfl
@[simp] theorem State.setPps_slv (s : State) (v : Pps) : (s.setPps v).slv = s.slv := rfl
@[simp] theorem State.setPps_out (s : State) (v : Pps) : (s.setPps v).out = s.out := rfl
@[simp] theorem State.setPps_ticks (s : State) (v : Pps) : (s.setPps v).ticks = s.ticks := rfl
@[simp] theorem State.setPps_free (s : State) (v : Pps) : (s.setPps v).free = s.free := rfl
@[simp] theorem State.setPps_rst (s : State) (v : Pps) : (s.setPps v).rst = s.rst := rfl
@[simp] theorem State.setPps_req (s : State) (v : Pps) : (s.setPps v).req = s.req := rfl
@[simp] theorem State.setPps_halves (s : State) (v : Pps) : (s.setPps v).halves = s.halves := rfl
@[simp] theorem State.setPps_settle (s : State) (v : Pps) : (s.setPps v).settle = s.settle := rfl
@[simp] theorem State.setPps_tbs (s : State) (v : Pps) : (s.setPps v).tbs = s.tbs := rfl
@[simp] theorem State.setPps_pps (s : State) (v : Pps) : (s.setPps v).pps = v := rfl
@[simp] theorem State.setPps_gens (s : State) (v : Pps) : (s.setPps v).gens = s.gens := rfl
@[simp] theorem State.setPps_trigs (s : State) (v : Pps) : (s.setPps v).trigs = s.trigs := rfl
@[simp] theorem State.setPps_frames (s : State) (v : Pps) : (s.setPps v).frames = s.frames := rfl
@[simp] theorem State.setPps_nextFrame (s : State) (v : Pps) : (s.setPps v).nextFrame = s.nextFrame := rfl
@[simp] theorem State.setPps_ports (s : State) (v : Pps) : (s.setPps v).ports = s.ports := rfl
@[simp] theorem State.setPps_taken (s : State) (v : Pps) : (s.setPps v).taken = s.taken := rfl
@[simp] theorem State.setPps_latches (s : State) (v : Pps) : (s.setPps v).latches = s.latches := rfl
@[simp] theorem State.setPps_doms (s : State) (v : Pps) : (s.setPps v).doms = s.doms := rfl
@[simp] theorem State.setPps_gasp (s : State) (v : Pps) : (s.setPps v).gasp = s.gasp := rfl
@[simp] theorem State.setPps_dic (s : State) (v : Pps) : (s.setPps v).dic = s.dic := rfl
@[simp] theorem State.setPps_flt (s : State) (v : Pps) : (s.setPps v).flt = s.flt := rfl
@[simp] theorem State.setPps_trunks (s : State) (v : Pps) : (s.setPps v).trunks = s.trunks := rfl
@[simp] theorem State.setPps_slots (s : State) (v : Pps) : (s.setPps v).slots = s.slots := rfl
@[simp] theorem State.setPps_node (s : State) (v : Pps) : (s.setPps v).node = s.node := rfl
@[simp] theorem State.setPps_pipes (s : State) (v : Pps) : (s.setPps v).pipes = s.pipes := rfl
@[simp] theorem State.setPps_graph (s : State) (v : Pps) : (s.setPps v).graph = s.graph := rfl
@[simp] theorem State.setPps_gload (s : State) (v : Pps) : (s.setPps v).gload = s.gload := rfl
@[simp] theorem State.setPps_cls (s : State) (v : Pps) : (s.setPps v).cls = s.cls := rfl
@[simp] theorem State.setPps_ems (s : State) (v : Pps) : (s.setPps v).ems = s.ems := rfl
@[simp] theorem State.setPps_threads (s : State) (v : Pps) : (s.setPps v).threads = s.threads := rfl
@[simp] theorem State.setPps_wheel (s : State) (v : Pps) : (s.setPps v).wheel = s.wheel := rfl
@[simp] theorem State.setPps_emem (s : State) (v : Pps) : (s.setPps v).emem = s.emem := rfl
@[simp] theorem State.setPps_splices (s : State) (v : Pps) : (s.setPps v).splices = s.splices := rfl
@[simp] theorem State.setPps_funcs (s : State) (v : Pps) : (s.setPps v).funcs = s.funcs := rfl
@[simp] theorem State.setPps_qps (s : State) (v : Pps) : (s.setPps v).qps = s.qps := rfl
@[simp] theorem State.setPps_binds (s : State) (v : Pps) : (s.setPps v).binds = s.binds := rfl
@[simp] theorem State.setPps_admin (s : State) (v : Pps) : (s.setPps v).admin = s.admin := rfl
@[simp] theorem State.setPps_mem (s : State) (v : Pps) : (s.setPps v).mem = s.mem := rfl
@[simp] theorem State.setPps_chks (s : State) (v : Pps) : (s.setPps v).chks = s.chks := rfl
@[simp] theorem State.setPps_dmas (s : State) (v : Pps) : (s.setPps v).dmas = s.dmas := rfl
@[simp] theorem State.setGens_cfg (s : State) (v : KMap Gen) : (s.setGens v).cfg = s.cfg := rfl
@[simp] theorem State.setGens_pending (s : State) (v : KMap Gen) : (s.setGens v).pending = s.pending := rfl
@[simp] theorem State.setGens_regs (s : State) (v : KMap Gen) : (s.setGens v).regs = s.regs := rfl
@[simp] theorem State.setGens_stage (s : State) (v : KMap Gen) : (s.setGens v).stage = s.stage := rfl
@[simp] theorem State.setGens_hold (s : State) (v : KMap Gen) : (s.setGens v).hold = s.hold := rfl
@[simp] theorem State.setGens_slv (s : State) (v : KMap Gen) : (s.setGens v).slv = s.slv := rfl
@[simp] theorem State.setGens_out (s : State) (v : KMap Gen) : (s.setGens v).out = s.out := rfl
@[simp] theorem State.setGens_ticks (s : State) (v : KMap Gen) : (s.setGens v).ticks = s.ticks := rfl
@[simp] theorem State.setGens_free (s : State) (v : KMap Gen) : (s.setGens v).free = s.free := rfl
@[simp] theorem State.setGens_rst (s : State) (v : KMap Gen) : (s.setGens v).rst = s.rst := rfl
@[simp] theorem State.setGens_req (s : State) (v : KMap Gen) : (s.setGens v).req = s.req := rfl
@[simp] theorem State.setGens_halves (s : State) (v : KMap Gen) : (s.setGens v).halves = s.halves := rfl
@[simp] theorem State.setGens_settle (s : State) (v : KMap Gen) : (s.setGens v).settle = s.settle := rfl
@[simp] theorem State.setGens_tbs (s : State) (v : KMap Gen) : (s.setGens v).tbs = s.tbs := rfl
@[simp] theorem State.setGens_pps (s : State) (v : KMap Gen) : (s.setGens v).pps = s.pps := rfl
@[simp] theorem State.setGens_gens (s : State) (v : KMap Gen) : (s.setGens v).gens = v := rfl
@[simp] theorem State.setGens_trigs (s : State) (v : KMap Gen) : (s.setGens v).trigs = s.trigs := rfl
@[simp] theorem State.setGens_frames (s : State) (v : KMap Gen) : (s.setGens v).frames = s.frames := rfl
@[simp] theorem State.setGens_nextFrame (s : State) (v : KMap Gen) : (s.setGens v).nextFrame = s.nextFrame := rfl
@[simp] theorem State.setGens_ports (s : State) (v : KMap Gen) : (s.setGens v).ports = s.ports := rfl
@[simp] theorem State.setGens_taken (s : State) (v : KMap Gen) : (s.setGens v).taken = s.taken := rfl
@[simp] theorem State.setGens_latches (s : State) (v : KMap Gen) : (s.setGens v).latches = s.latches := rfl
@[simp] theorem State.setGens_doms (s : State) (v : KMap Gen) : (s.setGens v).doms = s.doms := rfl
@[simp] theorem State.setGens_gasp (s : State) (v : KMap Gen) : (s.setGens v).gasp = s.gasp := rfl
@[simp] theorem State.setGens_dic (s : State) (v : KMap Gen) : (s.setGens v).dic = s.dic := rfl
@[simp] theorem State.setGens_flt (s : State) (v : KMap Gen) : (s.setGens v).flt = s.flt := rfl
@[simp] theorem State.setGens_trunks (s : State) (v : KMap Gen) : (s.setGens v).trunks = s.trunks := rfl
@[simp] theorem State.setGens_slots (s : State) (v : KMap Gen) : (s.setGens v).slots = s.slots := rfl
@[simp] theorem State.setGens_node (s : State) (v : KMap Gen) : (s.setGens v).node = s.node := rfl
@[simp] theorem State.setGens_pipes (s : State) (v : KMap Gen) : (s.setGens v).pipes = s.pipes := rfl
@[simp] theorem State.setGens_graph (s : State) (v : KMap Gen) : (s.setGens v).graph = s.graph := rfl
@[simp] theorem State.setGens_gload (s : State) (v : KMap Gen) : (s.setGens v).gload = s.gload := rfl
@[simp] theorem State.setGens_cls (s : State) (v : KMap Gen) : (s.setGens v).cls = s.cls := rfl
@[simp] theorem State.setGens_ems (s : State) (v : KMap Gen) : (s.setGens v).ems = s.ems := rfl
@[simp] theorem State.setGens_threads (s : State) (v : KMap Gen) : (s.setGens v).threads = s.threads := rfl
@[simp] theorem State.setGens_wheel (s : State) (v : KMap Gen) : (s.setGens v).wheel = s.wheel := rfl
@[simp] theorem State.setGens_emem (s : State) (v : KMap Gen) : (s.setGens v).emem = s.emem := rfl
@[simp] theorem State.setGens_splices (s : State) (v : KMap Gen) : (s.setGens v).splices = s.splices := rfl
@[simp] theorem State.setGens_funcs (s : State) (v : KMap Gen) : (s.setGens v).funcs = s.funcs := rfl
@[simp] theorem State.setGens_qps (s : State) (v : KMap Gen) : (s.setGens v).qps = s.qps := rfl
@[simp] theorem State.setGens_binds (s : State) (v : KMap Gen) : (s.setGens v).binds = s.binds := rfl
@[simp] theorem State.setGens_admin (s : State) (v : KMap Gen) : (s.setGens v).admin = s.admin := rfl
@[simp] theorem State.setGens_mem (s : State) (v : KMap Gen) : (s.setGens v).mem = s.mem := rfl
@[simp] theorem State.setGens_chks (s : State) (v : KMap Gen) : (s.setGens v).chks = s.chks := rfl
@[simp] theorem State.setGens_dmas (s : State) (v : KMap Gen) : (s.setGens v).dmas = s.dmas := rfl
@[simp] theorem State.setTrigs_cfg (s : State) (v : KMap Trig) : (s.setTrigs v).cfg = s.cfg := rfl
@[simp] theorem State.setTrigs_pending (s : State) (v : KMap Trig) : (s.setTrigs v).pending = s.pending := rfl
@[simp] theorem State.setTrigs_regs (s : State) (v : KMap Trig) : (s.setTrigs v).regs = s.regs := rfl
@[simp] theorem State.setTrigs_stage (s : State) (v : KMap Trig) : (s.setTrigs v).stage = s.stage := rfl
@[simp] theorem State.setTrigs_hold (s : State) (v : KMap Trig) : (s.setTrigs v).hold = s.hold := rfl
@[simp] theorem State.setTrigs_slv (s : State) (v : KMap Trig) : (s.setTrigs v).slv = s.slv := rfl
@[simp] theorem State.setTrigs_out (s : State) (v : KMap Trig) : (s.setTrigs v).out = s.out := rfl
@[simp] theorem State.setTrigs_ticks (s : State) (v : KMap Trig) : (s.setTrigs v).ticks = s.ticks := rfl
@[simp] theorem State.setTrigs_free (s : State) (v : KMap Trig) : (s.setTrigs v).free = s.free := rfl
@[simp] theorem State.setTrigs_rst (s : State) (v : KMap Trig) : (s.setTrigs v).rst = s.rst := rfl
@[simp] theorem State.setTrigs_req (s : State) (v : KMap Trig) : (s.setTrigs v).req = s.req := rfl
@[simp] theorem State.setTrigs_halves (s : State) (v : KMap Trig) : (s.setTrigs v).halves = s.halves := rfl
@[simp] theorem State.setTrigs_settle (s : State) (v : KMap Trig) : (s.setTrigs v).settle = s.settle := rfl
@[simp] theorem State.setTrigs_tbs (s : State) (v : KMap Trig) : (s.setTrigs v).tbs = s.tbs := rfl
@[simp] theorem State.setTrigs_pps (s : State) (v : KMap Trig) : (s.setTrigs v).pps = s.pps := rfl
@[simp] theorem State.setTrigs_gens (s : State) (v : KMap Trig) : (s.setTrigs v).gens = s.gens := rfl
@[simp] theorem State.setTrigs_trigs (s : State) (v : KMap Trig) : (s.setTrigs v).trigs = v := rfl
@[simp] theorem State.setTrigs_frames (s : State) (v : KMap Trig) : (s.setTrigs v).frames = s.frames := rfl
@[simp] theorem State.setTrigs_nextFrame (s : State) (v : KMap Trig) : (s.setTrigs v).nextFrame = s.nextFrame := rfl
@[simp] theorem State.setTrigs_ports (s : State) (v : KMap Trig) : (s.setTrigs v).ports = s.ports := rfl
@[simp] theorem State.setTrigs_taken (s : State) (v : KMap Trig) : (s.setTrigs v).taken = s.taken := rfl
@[simp] theorem State.setTrigs_latches (s : State) (v : KMap Trig) : (s.setTrigs v).latches = s.latches := rfl
@[simp] theorem State.setTrigs_doms (s : State) (v : KMap Trig) : (s.setTrigs v).doms = s.doms := rfl
@[simp] theorem State.setTrigs_gasp (s : State) (v : KMap Trig) : (s.setTrigs v).gasp = s.gasp := rfl
@[simp] theorem State.setTrigs_dic (s : State) (v : KMap Trig) : (s.setTrigs v).dic = s.dic := rfl
@[simp] theorem State.setTrigs_flt (s : State) (v : KMap Trig) : (s.setTrigs v).flt = s.flt := rfl
@[simp] theorem State.setTrigs_trunks (s : State) (v : KMap Trig) : (s.setTrigs v).trunks = s.trunks := rfl
@[simp] theorem State.setTrigs_slots (s : State) (v : KMap Trig) : (s.setTrigs v).slots = s.slots := rfl
@[simp] theorem State.setTrigs_node (s : State) (v : KMap Trig) : (s.setTrigs v).node = s.node := rfl
@[simp] theorem State.setTrigs_pipes (s : State) (v : KMap Trig) : (s.setTrigs v).pipes = s.pipes := rfl
@[simp] theorem State.setTrigs_graph (s : State) (v : KMap Trig) : (s.setTrigs v).graph = s.graph := rfl
@[simp] theorem State.setTrigs_gload (s : State) (v : KMap Trig) : (s.setTrigs v).gload = s.gload := rfl
@[simp] theorem State.setTrigs_cls (s : State) (v : KMap Trig) : (s.setTrigs v).cls = s.cls := rfl
@[simp] theorem State.setTrigs_ems (s : State) (v : KMap Trig) : (s.setTrigs v).ems = s.ems := rfl
@[simp] theorem State.setTrigs_threads (s : State) (v : KMap Trig) : (s.setTrigs v).threads = s.threads := rfl
@[simp] theorem State.setTrigs_wheel (s : State) (v : KMap Trig) : (s.setTrigs v).wheel = s.wheel := rfl
@[simp] theorem State.setTrigs_emem (s : State) (v : KMap Trig) : (s.setTrigs v).emem = s.emem := rfl
@[simp] theorem State.setTrigs_splices (s : State) (v : KMap Trig) : (s.setTrigs v).splices = s.splices := rfl
@[simp] theorem State.setTrigs_funcs (s : State) (v : KMap Trig) : (s.setTrigs v).funcs = s.funcs := rfl
@[simp] theorem State.setTrigs_qps (s : State) (v : KMap Trig) : (s.setTrigs v).qps = s.qps := rfl
@[simp] theorem State.setTrigs_binds (s : State) (v : KMap Trig) : (s.setTrigs v).binds = s.binds := rfl
@[simp] theorem State.setTrigs_admin (s : State) (v : KMap Trig) : (s.setTrigs v).admin = s.admin := rfl
@[simp] theorem State.setTrigs_mem (s : State) (v : KMap Trig) : (s.setTrigs v).mem = s.mem := rfl
@[simp] theorem State.setTrigs_chks (s : State) (v : KMap Trig) : (s.setTrigs v).chks = s.chks := rfl
@[simp] theorem State.setTrigs_dmas (s : State) (v : KMap Trig) : (s.setTrigs v).dmas = s.dmas := rfl
@[simp] theorem State.setFrames_cfg (s : State) (v : KMap Frame) : (s.setFrames v).cfg = s.cfg := rfl
@[simp] theorem State.setFrames_pending (s : State) (v : KMap Frame) : (s.setFrames v).pending = s.pending := rfl
@[simp] theorem State.setFrames_regs (s : State) (v : KMap Frame) : (s.setFrames v).regs = s.regs := rfl
@[simp] theorem State.setFrames_stage (s : State) (v : KMap Frame) : (s.setFrames v).stage = s.stage := rfl
@[simp] theorem State.setFrames_hold (s : State) (v : KMap Frame) : (s.setFrames v).hold = s.hold := rfl
@[simp] theorem State.setFrames_slv (s : State) (v : KMap Frame) : (s.setFrames v).slv = s.slv := rfl
@[simp] theorem State.setFrames_out (s : State) (v : KMap Frame) : (s.setFrames v).out = s.out := rfl
@[simp] theorem State.setFrames_ticks (s : State) (v : KMap Frame) : (s.setFrames v).ticks = s.ticks := rfl
@[simp] theorem State.setFrames_free (s : State) (v : KMap Frame) : (s.setFrames v).free = s.free := rfl
@[simp] theorem State.setFrames_rst (s : State) (v : KMap Frame) : (s.setFrames v).rst = s.rst := rfl
@[simp] theorem State.setFrames_req (s : State) (v : KMap Frame) : (s.setFrames v).req = s.req := rfl
@[simp] theorem State.setFrames_halves (s : State) (v : KMap Frame) : (s.setFrames v).halves = s.halves := rfl
@[simp] theorem State.setFrames_settle (s : State) (v : KMap Frame) : (s.setFrames v).settle = s.settle := rfl
@[simp] theorem State.setFrames_tbs (s : State) (v : KMap Frame) : (s.setFrames v).tbs = s.tbs := rfl
@[simp] theorem State.setFrames_pps (s : State) (v : KMap Frame) : (s.setFrames v).pps = s.pps := rfl
@[simp] theorem State.setFrames_gens (s : State) (v : KMap Frame) : (s.setFrames v).gens = s.gens := rfl
@[simp] theorem State.setFrames_trigs (s : State) (v : KMap Frame) : (s.setFrames v).trigs = s.trigs := rfl
@[simp] theorem State.setFrames_frames (s : State) (v : KMap Frame) : (s.setFrames v).frames = v := rfl
@[simp] theorem State.setFrames_nextFrame (s : State) (v : KMap Frame) : (s.setFrames v).nextFrame = s.nextFrame := rfl
@[simp] theorem State.setFrames_ports (s : State) (v : KMap Frame) : (s.setFrames v).ports = s.ports := rfl
@[simp] theorem State.setFrames_taken (s : State) (v : KMap Frame) : (s.setFrames v).taken = s.taken := rfl
@[simp] theorem State.setFrames_latches (s : State) (v : KMap Frame) : (s.setFrames v).latches = s.latches := rfl
@[simp] theorem State.setFrames_doms (s : State) (v : KMap Frame) : (s.setFrames v).doms = s.doms := rfl
@[simp] theorem State.setFrames_gasp (s : State) (v : KMap Frame) : (s.setFrames v).gasp = s.gasp := rfl
@[simp] theorem State.setFrames_dic (s : State) (v : KMap Frame) : (s.setFrames v).dic = s.dic := rfl
@[simp] theorem State.setFrames_flt (s : State) (v : KMap Frame) : (s.setFrames v).flt = s.flt := rfl
@[simp] theorem State.setFrames_trunks (s : State) (v : KMap Frame) : (s.setFrames v).trunks = s.trunks := rfl
@[simp] theorem State.setFrames_slots (s : State) (v : KMap Frame) : (s.setFrames v).slots = s.slots := rfl
@[simp] theorem State.setFrames_node (s : State) (v : KMap Frame) : (s.setFrames v).node = s.node := rfl
@[simp] theorem State.setFrames_pipes (s : State) (v : KMap Frame) : (s.setFrames v).pipes = s.pipes := rfl
@[simp] theorem State.setFrames_graph (s : State) (v : KMap Frame) : (s.setFrames v).graph = s.graph := rfl
@[simp] theorem State.setFrames_gload (s : State) (v : KMap Frame) : (s.setFrames v).gload = s.gload := rfl
@[simp] theorem State.setFrames_cls (s : State) (v : KMap Frame) : (s.setFrames v).cls = s.cls := rfl
@[simp] theorem State.setFrames_ems (s : State) (v : KMap Frame) : (s.setFrames v).ems = s.ems := rfl
@[simp] theorem State.setFrames_threads (s : State) (v : KMap Frame) : (s.setFrames v).threads = s.threads := rfl
@[simp] theorem State.setFrames_wheel (s : State) (v : KMap Frame) : (s.setFrames v).wheel = s.wheel := rfl
@[simp] theorem State.setFrames_emem (s : State) (v : KMap Frame) : (s.setFrames v).emem = s.emem := rfl
@[simp] theorem State.setFrames_splices (s : State) (v : KMap Frame) : (s.setFrames v).splices = s.splices := rfl
@[simp] theorem State.setFrames_funcs (s : State) (v : KMap Frame) : (s.setFrames v).funcs = s.funcs := rfl
@[simp] theorem State.setFrames_qps (s : State) (v : KMap Frame) : (s.setFrames v).qps = s.qps := rfl
@[simp] theorem State.setFrames_binds (s : State) (v : KMap Frame) : (s.setFrames v).binds = s.binds := rfl
@[simp] theorem State.setFrames_admin (s : State) (v : KMap Frame) : (s.setFrames v).admin = s.admin := rfl
@[simp] theorem State.setFrames_mem (s : State) (v : KMap Frame) : (s.setFrames v).mem = s.mem := rfl
@[simp] theorem State.setFrames_chks (s : State) (v : KMap Frame) : (s.setFrames v).chks = s.chks := rfl
@[simp] theorem State.setFrames_dmas (s : State) (v : KMap Frame) : (s.setFrames v).dmas = s.dmas := rfl
@[simp] theorem State.setNextFrame_cfg (s : State) (v : Nat) : (s.setNextFrame v).cfg = s.cfg := rfl
@[simp] theorem State.setNextFrame_pending (s : State) (v : Nat) : (s.setNextFrame v).pending = s.pending := rfl
@[simp] theorem State.setNextFrame_regs (s : State) (v : Nat) : (s.setNextFrame v).regs = s.regs := rfl
@[simp] theorem State.setNextFrame_stage (s : State) (v : Nat) : (s.setNextFrame v).stage = s.stage := rfl
@[simp] theorem State.setNextFrame_hold (s : State) (v : Nat) : (s.setNextFrame v).hold = s.hold := rfl
@[simp] theorem State.setNextFrame_slv (s : State) (v : Nat) : (s.setNextFrame v).slv = s.slv := rfl
@[simp] theorem State.setNextFrame_out (s : State) (v : Nat) : (s.setNextFrame v).out = s.out := rfl
@[simp] theorem State.setNextFrame_ticks (s : State) (v : Nat) : (s.setNextFrame v).ticks = s.ticks := rfl
@[simp] theorem State.setNextFrame_free (s : State) (v : Nat) : (s.setNextFrame v).free = s.free := rfl
@[simp] theorem State.setNextFrame_rst (s : State) (v : Nat) : (s.setNextFrame v).rst = s.rst := rfl
@[simp] theorem State.setNextFrame_req (s : State) (v : Nat) : (s.setNextFrame v).req = s.req := rfl
@[simp] theorem State.setNextFrame_halves (s : State) (v : Nat) : (s.setNextFrame v).halves = s.halves := rfl
@[simp] theorem State.setNextFrame_settle (s : State) (v : Nat) : (s.setNextFrame v).settle = s.settle := rfl
@[simp] theorem State.setNextFrame_tbs (s : State) (v : Nat) : (s.setNextFrame v).tbs = s.tbs := rfl
@[simp] theorem State.setNextFrame_pps (s : State) (v : Nat) : (s.setNextFrame v).pps = s.pps := rfl
@[simp] theorem State.setNextFrame_gens (s : State) (v : Nat) : (s.setNextFrame v).gens = s.gens := rfl
@[simp] theorem State.setNextFrame_trigs (s : State) (v : Nat) : (s.setNextFrame v).trigs = s.trigs := rfl
@[simp] theorem State.setNextFrame_frames (s : State) (v : Nat) : (s.setNextFrame v).frames = s.frames := rfl
@[simp] theorem State.setNextFrame_nextFrame (s : State) (v : Nat) : (s.setNextFrame v).nextFrame = v := rfl
@[simp] theorem State.setNextFrame_ports (s : State) (v : Nat) : (s.setNextFrame v).ports = s.ports := rfl
@[simp] theorem State.setNextFrame_taken (s : State) (v : Nat) : (s.setNextFrame v).taken = s.taken := rfl
@[simp] theorem State.setNextFrame_latches (s : State) (v : Nat) : (s.setNextFrame v).latches = s.latches := rfl
@[simp] theorem State.setNextFrame_doms (s : State) (v : Nat) : (s.setNextFrame v).doms = s.doms := rfl
@[simp] theorem State.setNextFrame_gasp (s : State) (v : Nat) : (s.setNextFrame v).gasp = s.gasp := rfl
@[simp] theorem State.setNextFrame_dic (s : State) (v : Nat) : (s.setNextFrame v).dic = s.dic := rfl
@[simp] theorem State.setNextFrame_flt (s : State) (v : Nat) : (s.setNextFrame v).flt = s.flt := rfl
@[simp] theorem State.setNextFrame_trunks (s : State) (v : Nat) : (s.setNextFrame v).trunks = s.trunks := rfl
@[simp] theorem State.setNextFrame_slots (s : State) (v : Nat) : (s.setNextFrame v).slots = s.slots := rfl
@[simp] theorem State.setNextFrame_node (s : State) (v : Nat) : (s.setNextFrame v).node = s.node := rfl
@[simp] theorem State.setNextFrame_pipes (s : State) (v : Nat) : (s.setNextFrame v).pipes = s.pipes := rfl
@[simp] theorem State.setNextFrame_graph (s : State) (v : Nat) : (s.setNextFrame v).graph = s.graph := rfl
@[simp] theorem State.setNextFrame_gload (s : State) (v : Nat) : (s.setNextFrame v).gload = s.gload := rfl
@[simp] theorem State.setNextFrame_cls (s : State) (v : Nat) : (s.setNextFrame v).cls = s.cls := rfl
@[simp] theorem State.setNextFrame_ems (s : State) (v : Nat) : (s.setNextFrame v).ems = s.ems := rfl
@[simp] theorem State.setNextFrame_threads (s : State) (v : Nat) : (s.setNextFrame v).threads = s.threads := rfl
@[simp] theorem State.setNextFrame_wheel (s : State) (v : Nat) : (s.setNextFrame v).wheel = s.wheel := rfl
@[simp] theorem State.setNextFrame_emem (s : State) (v : Nat) : (s.setNextFrame v).emem = s.emem := rfl
@[simp] theorem State.setNextFrame_splices (s : State) (v : Nat) : (s.setNextFrame v).splices = s.splices := rfl
@[simp] theorem State.setNextFrame_funcs (s : State) (v : Nat) : (s.setNextFrame v).funcs = s.funcs := rfl
@[simp] theorem State.setNextFrame_qps (s : State) (v : Nat) : (s.setNextFrame v).qps = s.qps := rfl
@[simp] theorem State.setNextFrame_binds (s : State) (v : Nat) : (s.setNextFrame v).binds = s.binds := rfl
@[simp] theorem State.setNextFrame_admin (s : State) (v : Nat) : (s.setNextFrame v).admin = s.admin := rfl
@[simp] theorem State.setNextFrame_mem (s : State) (v : Nat) : (s.setNextFrame v).mem = s.mem := rfl
@[simp] theorem State.setNextFrame_chks (s : State) (v : Nat) : (s.setNextFrame v).chks = s.chks := rfl
@[simp] theorem State.setNextFrame_dmas (s : State) (v : Nat) : (s.setNextFrame v).dmas = s.dmas := rfl
@[simp] theorem State.setPorts_cfg (s : State) (v : KMap Port) : (s.setPorts v).cfg = s.cfg := rfl
@[simp] theorem State.setPorts_pending (s : State) (v : KMap Port) : (s.setPorts v).pending = s.pending := rfl
@[simp] theorem State.setPorts_regs (s : State) (v : KMap Port) : (s.setPorts v).regs = s.regs := rfl
@[simp] theorem State.setPorts_stage (s : State) (v : KMap Port) : (s.setPorts v).stage = s.stage := rfl
@[simp] theorem State.setPorts_hold (s : State) (v : KMap Port) : (s.setPorts v).hold = s.hold := rfl
@[simp] theorem State.setPorts_slv (s : State) (v : KMap Port) : (s.setPorts v).slv = s.slv := rfl
@[simp] theorem State.setPorts_out (s : State) (v : KMap Port) : (s.setPorts v).out = s.out := rfl
@[simp] theorem State.setPorts_ticks (s : State) (v : KMap Port) : (s.setPorts v).ticks = s.ticks := rfl
@[simp] theorem State.setPorts_free (s : State) (v : KMap Port) : (s.setPorts v).free = s.free := rfl
@[simp] theorem State.setPorts_rst (s : State) (v : KMap Port) : (s.setPorts v).rst = s.rst := rfl
@[simp] theorem State.setPorts_req (s : State) (v : KMap Port) : (s.setPorts v).req = s.req := rfl
@[simp] theorem State.setPorts_halves (s : State) (v : KMap Port) : (s.setPorts v).halves = s.halves := rfl
@[simp] theorem State.setPorts_settle (s : State) (v : KMap Port) : (s.setPorts v).settle = s.settle := rfl
@[simp] theorem State.setPorts_tbs (s : State) (v : KMap Port) : (s.setPorts v).tbs = s.tbs := rfl
@[simp] theorem State.setPorts_pps (s : State) (v : KMap Port) : (s.setPorts v).pps = s.pps := rfl
@[simp] theorem State.setPorts_gens (s : State) (v : KMap Port) : (s.setPorts v).gens = s.gens := rfl
@[simp] theorem State.setPorts_trigs (s : State) (v : KMap Port) : (s.setPorts v).trigs = s.trigs := rfl
@[simp] theorem State.setPorts_frames (s : State) (v : KMap Port) : (s.setPorts v).frames = s.frames := rfl
@[simp] theorem State.setPorts_nextFrame (s : State) (v : KMap Port) : (s.setPorts v).nextFrame = s.nextFrame := rfl
@[simp] theorem State.setPorts_ports (s : State) (v : KMap Port) : (s.setPorts v).ports = v := rfl
@[simp] theorem State.setPorts_taken (s : State) (v : KMap Port) : (s.setPorts v).taken = s.taken := rfl
@[simp] theorem State.setPorts_latches (s : State) (v : KMap Port) : (s.setPorts v).latches = s.latches := rfl
@[simp] theorem State.setPorts_doms (s : State) (v : KMap Port) : (s.setPorts v).doms = s.doms := rfl
@[simp] theorem State.setPorts_gasp (s : State) (v : KMap Port) : (s.setPorts v).gasp = s.gasp := rfl
@[simp] theorem State.setPorts_dic (s : State) (v : KMap Port) : (s.setPorts v).dic = s.dic := rfl
@[simp] theorem State.setPorts_flt (s : State) (v : KMap Port) : (s.setPorts v).flt = s.flt := rfl
@[simp] theorem State.setPorts_trunks (s : State) (v : KMap Port) : (s.setPorts v).trunks = s.trunks := rfl
@[simp] theorem State.setPorts_slots (s : State) (v : KMap Port) : (s.setPorts v).slots = s.slots := rfl
@[simp] theorem State.setPorts_node (s : State) (v : KMap Port) : (s.setPorts v).node = s.node := rfl
@[simp] theorem State.setPorts_pipes (s : State) (v : KMap Port) : (s.setPorts v).pipes = s.pipes := rfl
@[simp] theorem State.setPorts_graph (s : State) (v : KMap Port) : (s.setPorts v).graph = s.graph := rfl
@[simp] theorem State.setPorts_gload (s : State) (v : KMap Port) : (s.setPorts v).gload = s.gload := rfl
@[simp] theorem State.setPorts_cls (s : State) (v : KMap Port) : (s.setPorts v).cls = s.cls := rfl
@[simp] theorem State.setPorts_ems (s : State) (v : KMap Port) : (s.setPorts v).ems = s.ems := rfl
@[simp] theorem State.setPorts_threads (s : State) (v : KMap Port) : (s.setPorts v).threads = s.threads := rfl
@[simp] theorem State.setPorts_wheel (s : State) (v : KMap Port) : (s.setPorts v).wheel = s.wheel := rfl
@[simp] theorem State.setPorts_emem (s : State) (v : KMap Port) : (s.setPorts v).emem = s.emem := rfl
@[simp] theorem State.setPorts_splices (s : State) (v : KMap Port) : (s.setPorts v).splices = s.splices := rfl
@[simp] theorem State.setPorts_funcs (s : State) (v : KMap Port) : (s.setPorts v).funcs = s.funcs := rfl
@[simp] theorem State.setPorts_qps (s : State) (v : KMap Port) : (s.setPorts v).qps = s.qps := rfl
@[simp] theorem State.setPorts_binds (s : State) (v : KMap Port) : (s.setPorts v).binds = s.binds := rfl
@[simp] theorem State.setPorts_admin (s : State) (v : KMap Port) : (s.setPorts v).admin = s.admin := rfl
@[simp] theorem State.setPorts_mem (s : State) (v : KMap Port) : (s.setPorts v).mem = s.mem := rfl
@[simp] theorem State.setPorts_chks (s : State) (v : KMap Port) : (s.setPorts v).chks = s.chks := rfl
@[simp] theorem State.setPorts_dmas (s : State) (v : KMap Port) : (s.setPorts v).dmas = s.dmas := rfl
@[simp] theorem State.setTaken_cfg (s : State) (v : KMap Nat) : (s.setTaken v).cfg = s.cfg := rfl
@[simp] theorem State.setTaken_pending (s : State) (v : KMap Nat) : (s.setTaken v).pending = s.pending := rfl
@[simp] theorem State.setTaken_regs (s : State) (v : KMap Nat) : (s.setTaken v).regs = s.regs := rfl
@[simp] theorem State.setTaken_stage (s : State) (v : KMap Nat) : (s.setTaken v).stage = s.stage := rfl
@[simp] theorem State.setTaken_hold (s : State) (v : KMap Nat) : (s.setTaken v).hold = s.hold := rfl
@[simp] theorem State.setTaken_slv (s : State) (v : KMap Nat) : (s.setTaken v).slv = s.slv := rfl
@[simp] theorem State.setTaken_out (s : State) (v : KMap Nat) : (s.setTaken v).out = s.out := rfl
@[simp] theorem State.setTaken_ticks (s : State) (v : KMap Nat) : (s.setTaken v).ticks = s.ticks := rfl
@[simp] theorem State.setTaken_free (s : State) (v : KMap Nat) : (s.setTaken v).free = s.free := rfl
@[simp] theorem State.setTaken_rst (s : State) (v : KMap Nat) : (s.setTaken v).rst = s.rst := rfl
@[simp] theorem State.setTaken_req (s : State) (v : KMap Nat) : (s.setTaken v).req = s.req := rfl
@[simp] theorem State.setTaken_halves (s : State) (v : KMap Nat) : (s.setTaken v).halves = s.halves := rfl
@[simp] theorem State.setTaken_settle (s : State) (v : KMap Nat) : (s.setTaken v).settle = s.settle := rfl
@[simp] theorem State.setTaken_tbs (s : State) (v : KMap Nat) : (s.setTaken v).tbs = s.tbs := rfl
@[simp] theorem State.setTaken_pps (s : State) (v : KMap Nat) : (s.setTaken v).pps = s.pps := rfl
@[simp] theorem State.setTaken_gens (s : State) (v : KMap Nat) : (s.setTaken v).gens = s.gens := rfl
@[simp] theorem State.setTaken_trigs (s : State) (v : KMap Nat) : (s.setTaken v).trigs = s.trigs := rfl
@[simp] theorem State.setTaken_frames (s : State) (v : KMap Nat) : (s.setTaken v).frames = s.frames := rfl
@[simp] theorem State.setTaken_nextFrame (s : State) (v : KMap Nat) : (s.setTaken v).nextFrame = s.nextFrame := rfl
@[simp] theorem State.setTaken_ports (s : State) (v : KMap Nat) : (s.setTaken v).ports = s.ports := rfl
@[simp] theorem State.setTaken_taken (s : State) (v : KMap Nat) : (s.setTaken v).taken = v := rfl
@[simp] theorem State.setTaken_latches (s : State) (v : KMap Nat) : (s.setTaken v).latches = s.latches := rfl
@[simp] theorem State.setTaken_doms (s : State) (v : KMap Nat) : (s.setTaken v).doms = s.doms := rfl
@[simp] theorem State.setTaken_gasp (s : State) (v : KMap Nat) : (s.setTaken v).gasp = s.gasp := rfl
@[simp] theorem State.setTaken_dic (s : State) (v : KMap Nat) : (s.setTaken v).dic = s.dic := rfl
@[simp] theorem State.setTaken_flt (s : State) (v : KMap Nat) : (s.setTaken v).flt = s.flt := rfl
@[simp] theorem State.setTaken_trunks (s : State) (v : KMap Nat) : (s.setTaken v).trunks = s.trunks := rfl
@[simp] theorem State.setTaken_slots (s : State) (v : KMap Nat) : (s.setTaken v).slots = s.slots := rfl
@[simp] theorem State.setTaken_node (s : State) (v : KMap Nat) : (s.setTaken v).node = s.node := rfl
@[simp] theorem State.setTaken_pipes (s : State) (v : KMap Nat) : (s.setTaken v).pipes = s.pipes := rfl
@[simp] theorem State.setTaken_graph (s : State) (v : KMap Nat) : (s.setTaken v).graph = s.graph := rfl
@[simp] theorem State.setTaken_gload (s : State) (v : KMap Nat) : (s.setTaken v).gload = s.gload := rfl
@[simp] theorem State.setTaken_cls (s : State) (v : KMap Nat) : (s.setTaken v).cls = s.cls := rfl
@[simp] theorem State.setTaken_ems (s : State) (v : KMap Nat) : (s.setTaken v).ems = s.ems := rfl
@[simp] theorem State.setTaken_threads (s : State) (v : KMap Nat) : (s.setTaken v).threads = s.threads := rfl
@[simp] theorem State.setTaken_wheel (s : State) (v : KMap Nat) : (s.setTaken v).wheel = s.wheel := rfl
@[simp] theorem State.setTaken_emem (s : State) (v : KMap Nat) : (s.setTaken v).emem = s.emem := rfl
@[simp] theorem State.setTaken_splices (s : State) (v : KMap Nat) : (s.setTaken v).splices = s.splices := rfl
@[simp] theorem State.setTaken_funcs (s : State) (v : KMap Nat) : (s.setTaken v).funcs = s.funcs := rfl
@[simp] theorem State.setTaken_qps (s : State) (v : KMap Nat) : (s.setTaken v).qps = s.qps := rfl
@[simp] theorem State.setTaken_binds (s : State) (v : KMap Nat) : (s.setTaken v).binds = s.binds := rfl
@[simp] theorem State.setTaken_admin (s : State) (v : KMap Nat) : (s.setTaken v).admin = s.admin := rfl
@[simp] theorem State.setTaken_mem (s : State) (v : KMap Nat) : (s.setTaken v).mem = s.mem := rfl
@[simp] theorem State.setTaken_chks (s : State) (v : KMap Nat) : (s.setTaken v).chks = s.chks := rfl
@[simp] theorem State.setTaken_dmas (s : State) (v : KMap Nat) : (s.setTaken v).dmas = s.dmas := rfl
@[simp] theorem State.setLatches_cfg (s : State) (v : AonLatch) : (s.setLatches v).cfg = s.cfg := rfl
@[simp] theorem State.setLatches_pending (s : State) (v : AonLatch) : (s.setLatches v).pending = s.pending := rfl
@[simp] theorem State.setLatches_regs (s : State) (v : AonLatch) : (s.setLatches v).regs = s.regs := rfl
@[simp] theorem State.setLatches_stage (s : State) (v : AonLatch) : (s.setLatches v).stage = s.stage := rfl
@[simp] theorem State.setLatches_hold (s : State) (v : AonLatch) : (s.setLatches v).hold = s.hold := rfl
@[simp] theorem State.setLatches_slv (s : State) (v : AonLatch) : (s.setLatches v).slv = s.slv := rfl
@[simp] theorem State.setLatches_out (s : State) (v : AonLatch) : (s.setLatches v).out = s.out := rfl
@[simp] theorem State.setLatches_ticks (s : State) (v : AonLatch) : (s.setLatches v).ticks = s.ticks := rfl
@[simp] theorem State.setLatches_free (s : State) (v : AonLatch) : (s.setLatches v).free = s.free := rfl
@[simp] theorem State.setLatches_rst (s : State) (v : AonLatch) : (s.setLatches v).rst = s.rst := rfl
@[simp] theorem State.setLatches_req (s : State) (v : AonLatch) : (s.setLatches v).req = s.req := rfl
@[simp] theorem State.setLatches_halves (s : State) (v : AonLatch) : (s.setLatches v).halves = s.halves := rfl
@[simp] theorem State.setLatches_settle (s : State) (v : AonLatch) : (s.setLatches v).settle = s.settle := rfl
@[simp] theorem State.setLatches_tbs (s : State) (v : AonLatch) : (s.setLatches v).tbs = s.tbs := rfl
@[simp] theorem State.setLatches_pps (s : State) (v : AonLatch) : (s.setLatches v).pps = s.pps := rfl
@[simp] theorem State.setLatches_gens (s : State) (v : AonLatch) : (s.setLatches v).gens = s.gens := rfl
@[simp] theorem State.setLatches_trigs (s : State) (v : AonLatch) : (s.setLatches v).trigs = s.trigs := rfl
@[simp] theorem State.setLatches_frames (s : State) (v : AonLatch) : (s.setLatches v).frames = s.frames := rfl
@[simp] theorem State.setLatches_nextFrame (s : State) (v : AonLatch) : (s.setLatches v).nextFrame = s.nextFrame := rfl
@[simp] theorem State.setLatches_ports (s : State) (v : AonLatch) : (s.setLatches v).ports = s.ports := rfl
@[simp] theorem State.setLatches_taken (s : State) (v : AonLatch) : (s.setLatches v).taken = s.taken := rfl
@[simp] theorem State.setLatches_latches (s : State) (v : AonLatch) : (s.setLatches v).latches = v := rfl
@[simp] theorem State.setLatches_doms (s : State) (v : AonLatch) : (s.setLatches v).doms = s.doms := rfl
@[simp] theorem State.setLatches_gasp (s : State) (v : AonLatch) : (s.setLatches v).gasp = s.gasp := rfl
@[simp] theorem State.setLatches_dic (s : State) (v : AonLatch) : (s.setLatches v).dic = s.dic := rfl
@[simp] theorem State.setLatches_flt (s : State) (v : AonLatch) : (s.setLatches v).flt = s.flt := rfl
@[simp] theorem State.setLatches_trunks (s : State) (v : AonLatch) : (s.setLatches v).trunks = s.trunks := rfl
@[simp] theorem State.setLatches_slots (s : State) (v : AonLatch) : (s.setLatches v).slots = s.slots := rfl
@[simp] theorem State.setLatches_node (s : State) (v : AonLatch) : (s.setLatches v).node = s.node := rfl
@[simp] theorem State.setLatches_pipes (s : State) (v : AonLatch) : (s.setLatches v).pipes = s.pipes := rfl
@[simp] theorem State.setLatches_graph (s : State) (v : AonLatch) : (s.setLatches v).graph = s.graph := rfl
@[simp] theorem State.setLatches_gload (s : State) (v : AonLatch) : (s.setLatches v).gload = s.gload := rfl
@[simp] theorem State.setLatches_cls (s : State) (v : AonLatch) : (s.setLatches v).cls = s.cls := rfl
@[simp] theorem State.setLatches_ems (s : State) (v : AonLatch) : (s.setLatches v).ems = s.ems := rfl
@[simp] theorem State.setLatches_threads (s : State) (v : AonLatch) : (s.setLatches v).threads = s.threads := rfl
@[simp] theorem State.setLatches_wheel (s : State) (v : AonLatch) : (s.setLatches v).wheel = s.wheel := rfl
@[simp] theorem State.setLatches_emem (s : State) (v : AonLatch) : (s.setLatches v).emem = s.emem := rfl
@[simp] theorem State.setLatches_splices (s : State) (v : AonLatch) : (s.setLatches v).splices = s.splices := rfl
@[simp] theorem State.setLatches_funcs (s : State) (v : AonLatch) : (s.setLatches v).funcs = s.funcs := rfl
@[simp] theorem State.setLatches_qps (s : State) (v : AonLatch) : (s.setLatches v).qps = s.qps := rfl
@[simp] theorem State.setLatches_binds (s : State) (v : AonLatch) : (s.setLatches v).binds = s.binds := rfl
@[simp] theorem State.setLatches_admin (s : State) (v : AonLatch) : (s.setLatches v).admin = s.admin := rfl
@[simp] theorem State.setLatches_mem (s : State) (v : AonLatch) : (s.setLatches v).mem = s.mem := rfl
@[simp] theorem State.setLatches_chks (s : State) (v : AonLatch) : (s.setLatches v).chks = s.chks := rfl
@[simp] theorem State.setLatches_dmas (s : State) (v : AonLatch) : (s.setLatches v).dmas = s.dmas := rfl
@[simp] theorem State.setDoms_cfg (s : State) (v : KMap DomSt) : (s.setDoms v).cfg = s.cfg := rfl
@[simp] theorem State.setDoms_pending (s : State) (v : KMap DomSt) : (s.setDoms v).pending = s.pending := rfl
@[simp] theorem State.setDoms_regs (s : State) (v : KMap DomSt) : (s.setDoms v).regs = s.regs := rfl
@[simp] theorem State.setDoms_stage (s : State) (v : KMap DomSt) : (s.setDoms v).stage = s.stage := rfl
@[simp] theorem State.setDoms_hold (s : State) (v : KMap DomSt) : (s.setDoms v).hold = s.hold := rfl
@[simp] theorem State.setDoms_slv (s : State) (v : KMap DomSt) : (s.setDoms v).slv = s.slv := rfl
@[simp] theorem State.setDoms_out (s : State) (v : KMap DomSt) : (s.setDoms v).out = s.out := rfl
@[simp] theorem State.setDoms_ticks (s : State) (v : KMap DomSt) : (s.setDoms v).ticks = s.ticks := rfl
@[simp] theorem State.setDoms_free (s : State) (v : KMap DomSt) : (s.setDoms v).free = s.free := rfl
@[simp] theorem State.setDoms_rst (s : State) (v : KMap DomSt) : (s.setDoms v).rst = s.rst := rfl
@[simp] theorem State.setDoms_req (s : State) (v : KMap DomSt) : (s.setDoms v).req = s.req := rfl
@[simp] theorem State.setDoms_halves (s : State) (v : KMap DomSt) : (s.setDoms v).halves = s.halves := rfl
@[simp] theorem State.setDoms_settle (s : State) (v : KMap DomSt) : (s.setDoms v).settle = s.settle := rfl
@[simp] theorem State.setDoms_tbs (s : State) (v : KMap DomSt) : (s.setDoms v).tbs = s.tbs := rfl
@[simp] theorem State.setDoms_pps (s : State) (v : KMap DomSt) : (s.setDoms v).pps = s.pps := rfl
@[simp] theorem State.setDoms_gens (s : State) (v : KMap DomSt) : (s.setDoms v).gens = s.gens := rfl
@[simp] theorem State.setDoms_trigs (s : State) (v : KMap DomSt) : (s.setDoms v).trigs = s.trigs := rfl
@[simp] theorem State.setDoms_frames (s : State) (v : KMap DomSt) : (s.setDoms v).frames = s.frames := rfl
@[simp] theorem State.setDoms_nextFrame (s : State) (v : KMap DomSt) : (s.setDoms v).nextFrame = s.nextFrame := rfl
@[simp] theorem State.setDoms_ports (s : State) (v : KMap DomSt) : (s.setDoms v).ports = s.ports := rfl
@[simp] theorem State.setDoms_taken (s : State) (v : KMap DomSt) : (s.setDoms v).taken = s.taken := rfl
@[simp] theorem State.setDoms_latches (s : State) (v : KMap DomSt) : (s.setDoms v).latches = s.latches := rfl
@[simp] theorem State.setDoms_doms (s : State) (v : KMap DomSt) : (s.setDoms v).doms = v := rfl
@[simp] theorem State.setDoms_gasp (s : State) (v : KMap DomSt) : (s.setDoms v).gasp = s.gasp := rfl
@[simp] theorem State.setDoms_dic (s : State) (v : KMap DomSt) : (s.setDoms v).dic = s.dic := rfl
@[simp] theorem State.setDoms_flt (s : State) (v : KMap DomSt) : (s.setDoms v).flt = s.flt := rfl
@[simp] theorem State.setDoms_trunks (s : State) (v : KMap DomSt) : (s.setDoms v).trunks = s.trunks := rfl
@[simp] theorem State.setDoms_slots (s : State) (v : KMap DomSt) : (s.setDoms v).slots = s.slots := rfl
@[simp] theorem State.setDoms_node (s : State) (v : KMap DomSt) : (s.setDoms v).node = s.node := rfl
@[simp] theorem State.setDoms_pipes (s : State) (v : KMap DomSt) : (s.setDoms v).pipes = s.pipes := rfl
@[simp] theorem State.setDoms_graph (s : State) (v : KMap DomSt) : (s.setDoms v).graph = s.graph := rfl
@[simp] theorem State.setDoms_gload (s : State) (v : KMap DomSt) : (s.setDoms v).gload = s.gload := rfl
@[simp] theorem State.setDoms_cls (s : State) (v : KMap DomSt) : (s.setDoms v).cls = s.cls := rfl
@[simp] theorem State.setDoms_ems (s : State) (v : KMap DomSt) : (s.setDoms v).ems = s.ems := rfl
@[simp] theorem State.setDoms_threads (s : State) (v : KMap DomSt) : (s.setDoms v).threads = s.threads := rfl
@[simp] theorem State.setDoms_wheel (s : State) (v : KMap DomSt) : (s.setDoms v).wheel = s.wheel := rfl
@[simp] theorem State.setDoms_emem (s : State) (v : KMap DomSt) : (s.setDoms v).emem = s.emem := rfl
@[simp] theorem State.setDoms_splices (s : State) (v : KMap DomSt) : (s.setDoms v).splices = s.splices := rfl
@[simp] theorem State.setDoms_funcs (s : State) (v : KMap DomSt) : (s.setDoms v).funcs = s.funcs := rfl
@[simp] theorem State.setDoms_qps (s : State) (v : KMap DomSt) : (s.setDoms v).qps = s.qps := rfl
@[simp] theorem State.setDoms_binds (s : State) (v : KMap DomSt) : (s.setDoms v).binds = s.binds := rfl
@[simp] theorem State.setDoms_admin (s : State) (v : KMap DomSt) : (s.setDoms v).admin = s.admin := rfl
@[simp] theorem State.setDoms_mem (s : State) (v : KMap DomSt) : (s.setDoms v).mem = s.mem := rfl
@[simp] theorem State.setDoms_chks (s : State) (v : KMap DomSt) : (s.setDoms v).chks = s.chks := rfl
@[simp] theorem State.setDoms_dmas (s : State) (v : KMap DomSt) : (s.setDoms v).dmas = s.dmas := rfl
@[simp] theorem State.setGasp_cfg (s : State) (v : Option Gasp) : (s.setGasp v).cfg = s.cfg := rfl
@[simp] theorem State.setGasp_pending (s : State) (v : Option Gasp) : (s.setGasp v).pending = s.pending := rfl
@[simp] theorem State.setGasp_regs (s : State) (v : Option Gasp) : (s.setGasp v).regs = s.regs := rfl
@[simp] theorem State.setGasp_stage (s : State) (v : Option Gasp) : (s.setGasp v).stage = s.stage := rfl
@[simp] theorem State.setGasp_hold (s : State) (v : Option Gasp) : (s.setGasp v).hold = s.hold := rfl
@[simp] theorem State.setGasp_slv (s : State) (v : Option Gasp) : (s.setGasp v).slv = s.slv := rfl
@[simp] theorem State.setGasp_out (s : State) (v : Option Gasp) : (s.setGasp v).out = s.out := rfl
@[simp] theorem State.setGasp_ticks (s : State) (v : Option Gasp) : (s.setGasp v).ticks = s.ticks := rfl
@[simp] theorem State.setGasp_free (s : State) (v : Option Gasp) : (s.setGasp v).free = s.free := rfl
@[simp] theorem State.setGasp_rst (s : State) (v : Option Gasp) : (s.setGasp v).rst = s.rst := rfl
@[simp] theorem State.setGasp_req (s : State) (v : Option Gasp) : (s.setGasp v).req = s.req := rfl
@[simp] theorem State.setGasp_halves (s : State) (v : Option Gasp) : (s.setGasp v).halves = s.halves := rfl
@[simp] theorem State.setGasp_settle (s : State) (v : Option Gasp) : (s.setGasp v).settle = s.settle := rfl
@[simp] theorem State.setGasp_tbs (s : State) (v : Option Gasp) : (s.setGasp v).tbs = s.tbs := rfl
@[simp] theorem State.setGasp_pps (s : State) (v : Option Gasp) : (s.setGasp v).pps = s.pps := rfl
@[simp] theorem State.setGasp_gens (s : State) (v : Option Gasp) : (s.setGasp v).gens = s.gens := rfl
@[simp] theorem State.setGasp_trigs (s : State) (v : Option Gasp) : (s.setGasp v).trigs = s.trigs := rfl
@[simp] theorem State.setGasp_frames (s : State) (v : Option Gasp) : (s.setGasp v).frames = s.frames := rfl
@[simp] theorem State.setGasp_nextFrame (s : State) (v : Option Gasp) : (s.setGasp v).nextFrame = s.nextFrame := rfl
@[simp] theorem State.setGasp_ports (s : State) (v : Option Gasp) : (s.setGasp v).ports = s.ports := rfl
@[simp] theorem State.setGasp_taken (s : State) (v : Option Gasp) : (s.setGasp v).taken = s.taken := rfl
@[simp] theorem State.setGasp_latches (s : State) (v : Option Gasp) : (s.setGasp v).latches = s.latches := rfl
@[simp] theorem State.setGasp_doms (s : State) (v : Option Gasp) : (s.setGasp v).doms = s.doms := rfl
@[simp] theorem State.setGasp_gasp (s : State) (v : Option Gasp) : (s.setGasp v).gasp = v := rfl
@[simp] theorem State.setGasp_dic (s : State) (v : Option Gasp) : (s.setGasp v).dic = s.dic := rfl
@[simp] theorem State.setGasp_flt (s : State) (v : Option Gasp) : (s.setGasp v).flt = s.flt := rfl
@[simp] theorem State.setGasp_trunks (s : State) (v : Option Gasp) : (s.setGasp v).trunks = s.trunks := rfl
@[simp] theorem State.setGasp_slots (s : State) (v : Option Gasp) : (s.setGasp v).slots = s.slots := rfl
@[simp] theorem State.setGasp_node (s : State) (v : Option Gasp) : (s.setGasp v).node = s.node := rfl
@[simp] theorem State.setGasp_pipes (s : State) (v : Option Gasp) : (s.setGasp v).pipes = s.pipes := rfl
@[simp] theorem State.setGasp_graph (s : State) (v : Option Gasp) : (s.setGasp v).graph = s.graph := rfl
@[simp] theorem State.setGasp_gload (s : State) (v : Option Gasp) : (s.setGasp v).gload = s.gload := rfl
@[simp] theorem State.setGasp_cls (s : State) (v : Option Gasp) : (s.setGasp v).cls = s.cls := rfl
@[simp] theorem State.setGasp_ems (s : State) (v : Option Gasp) : (s.setGasp v).ems = s.ems := rfl
@[simp] theorem State.setGasp_threads (s : State) (v : Option Gasp) : (s.setGasp v).threads = s.threads := rfl
@[simp] theorem State.setGasp_wheel (s : State) (v : Option Gasp) : (s.setGasp v).wheel = s.wheel := rfl
@[simp] theorem State.setGasp_emem (s : State) (v : Option Gasp) : (s.setGasp v).emem = s.emem := rfl
@[simp] theorem State.setGasp_splices (s : State) (v : Option Gasp) : (s.setGasp v).splices = s.splices := rfl
@[simp] theorem State.setGasp_funcs (s : State) (v : Option Gasp) : (s.setGasp v).funcs = s.funcs := rfl
@[simp] theorem State.setGasp_qps (s : State) (v : Option Gasp) : (s.setGasp v).qps = s.qps := rfl
@[simp] theorem State.setGasp_binds (s : State) (v : Option Gasp) : (s.setGasp v).binds = s.binds := rfl
@[simp] theorem State.setGasp_admin (s : State) (v : Option Gasp) : (s.setGasp v).admin = s.admin := rfl
@[simp] theorem State.setGasp_mem (s : State) (v : Option Gasp) : (s.setGasp v).mem = s.mem := rfl
@[simp] theorem State.setGasp_chks (s : State) (v : Option Gasp) : (s.setGasp v).chks = s.chks := rfl
@[simp] theorem State.setGasp_dmas (s : State) (v : Option Gasp) : (s.setGasp v).dmas = s.dmas := rfl
@[simp] theorem State.setDic_cfg (s : State) (v : Dic) : (s.setDic v).cfg = s.cfg := rfl
@[simp] theorem State.setDic_pending (s : State) (v : Dic) : (s.setDic v).pending = s.pending := rfl
@[simp] theorem State.setDic_regs (s : State) (v : Dic) : (s.setDic v).regs = s.regs := rfl
@[simp] theorem State.setDic_stage (s : State) (v : Dic) : (s.setDic v).stage = s.stage := rfl
@[simp] theorem State.setDic_hold (s : State) (v : Dic) : (s.setDic v).hold = s.hold := rfl
@[simp] theorem State.setDic_slv (s : State) (v : Dic) : (s.setDic v).slv = s.slv := rfl
@[simp] theorem State.setDic_out (s : State) (v : Dic) : (s.setDic v).out = s.out := rfl
@[simp] theorem State.setDic_ticks (s : State) (v : Dic) : (s.setDic v).ticks = s.ticks := rfl
@[simp] theorem State.setDic_free (s : State) (v : Dic) : (s.setDic v).free = s.free := rfl
@[simp] theorem State.setDic_rst (s : State) (v : Dic) : (s.setDic v).rst = s.rst := rfl
@[simp] theorem State.setDic_req (s : State) (v : Dic) : (s.setDic v).req = s.req := rfl
@[simp] theorem State.setDic_halves (s : State) (v : Dic) : (s.setDic v).halves = s.halves := rfl
@[simp] theorem State.setDic_settle (s : State) (v : Dic) : (s.setDic v).settle = s.settle := rfl
@[simp] theorem State.setDic_tbs (s : State) (v : Dic) : (s.setDic v).tbs = s.tbs := rfl
@[simp] theorem State.setDic_pps (s : State) (v : Dic) : (s.setDic v).pps = s.pps := rfl
@[simp] theorem State.setDic_gens (s : State) (v : Dic) : (s.setDic v).gens = s.gens := rfl
@[simp] theorem State.setDic_trigs (s : State) (v : Dic) : (s.setDic v).trigs = s.trigs := rfl
@[simp] theorem State.setDic_frames (s : State) (v : Dic) : (s.setDic v).frames = s.frames := rfl
@[simp] theorem State.setDic_nextFrame (s : State) (v : Dic) : (s.setDic v).nextFrame = s.nextFrame := rfl
@[simp] theorem State.setDic_ports (s : State) (v : Dic) : (s.setDic v).ports = s.ports := rfl
@[simp] theorem State.setDic_taken (s : State) (v : Dic) : (s.setDic v).taken = s.taken := rfl
@[simp] theorem State.setDic_latches (s : State) (v : Dic) : (s.setDic v).latches = s.latches := rfl
@[simp] theorem State.setDic_doms (s : State) (v : Dic) : (s.setDic v).doms = s.doms := rfl
@[simp] theorem State.setDic_gasp (s : State) (v : Dic) : (s.setDic v).gasp = s.gasp := rfl
@[simp] theorem State.setDic_dic (s : State) (v : Dic) : (s.setDic v).dic = v := rfl
@[simp] theorem State.setDic_flt (s : State) (v : Dic) : (s.setDic v).flt = s.flt := rfl
@[simp] theorem State.setDic_trunks (s : State) (v : Dic) : (s.setDic v).trunks = s.trunks := rfl
@[simp] theorem State.setDic_slots (s : State) (v : Dic) : (s.setDic v).slots = s.slots := rfl
@[simp] theorem State.setDic_node (s : State) (v : Dic) : (s.setDic v).node = s.node := rfl
@[simp] theorem State.setDic_pipes (s : State) (v : Dic) : (s.setDic v).pipes = s.pipes := rfl
@[simp] theorem State.setDic_graph (s : State) (v : Dic) : (s.setDic v).graph = s.graph := rfl
@[simp] theorem State.setDic_gload (s : State) (v : Dic) : (s.setDic v).gload = s.gload := rfl
@[simp] theorem State.setDic_cls (s : State) (v : Dic) : (s.setDic v).cls = s.cls := rfl
@[simp] theorem State.setDic_ems (s : State) (v : Dic) : (s.setDic v).ems = s.ems := rfl
@[simp] theorem State.setDic_threads (s : State) (v : Dic) : (s.setDic v).threads = s.threads := rfl
@[simp] theorem State.setDic_wheel (s : State) (v : Dic) : (s.setDic v).wheel = s.wheel := rfl
@[simp] theorem State.setDic_emem (s : State) (v : Dic) : (s.setDic v).emem = s.emem := rfl
@[simp] theorem State.setDic_splices (s : State) (v : Dic) : (s.setDic v).splices = s.splices := rfl
@[simp] theorem State.setDic_funcs (s : State) (v : Dic) : (s.setDic v).funcs = s.funcs := rfl
@[simp] theorem State.setDic_qps (s : State) (v : Dic) : (s.setDic v).qps = s.qps := rfl
@[simp] theorem State.setDic_binds (s : State) (v : Dic) : (s.setDic v).binds = s.binds := rfl
@[simp] theorem State.setDic_admin (s : State) (v : Dic) : (s.setDic v).admin = s.admin := rfl
@[simp] theorem State.setDic_mem (s : State) (v : Dic) : (s.setDic v).mem = s.mem := rfl
@[simp] theorem State.setDic_chks (s : State) (v : Dic) : (s.setDic v).chks = s.chks := rfl
@[simp] theorem State.setDic_dmas (s : State) (v : Dic) : (s.setDic v).dmas = s.dmas := rfl
@[simp] theorem State.setFlt_cfg (s : State) (v : Flt) : (s.setFlt v).cfg = s.cfg := rfl
@[simp] theorem State.setFlt_pending (s : State) (v : Flt) : (s.setFlt v).pending = s.pending := rfl
@[simp] theorem State.setFlt_regs (s : State) (v : Flt) : (s.setFlt v).regs = s.regs := rfl
@[simp] theorem State.setFlt_stage (s : State) (v : Flt) : (s.setFlt v).stage = s.stage := rfl
@[simp] theorem State.setFlt_hold (s : State) (v : Flt) : (s.setFlt v).hold = s.hold := rfl
@[simp] theorem State.setFlt_slv (s : State) (v : Flt) : (s.setFlt v).slv = s.slv := rfl
@[simp] theorem State.setFlt_out (s : State) (v : Flt) : (s.setFlt v).out = s.out := rfl
@[simp] theorem State.setFlt_ticks (s : State) (v : Flt) : (s.setFlt v).ticks = s.ticks := rfl
@[simp] theorem State.setFlt_free (s : State) (v : Flt) : (s.setFlt v).free = s.free := rfl
@[simp] theorem State.setFlt_rst (s : State) (v : Flt) : (s.setFlt v).rst = s.rst := rfl
@[simp] theorem State.setFlt_req (s : State) (v : Flt) : (s.setFlt v).req = s.req := rfl
@[simp] theorem State.setFlt_halves (s : State) (v : Flt) : (s.setFlt v).halves = s.halves := rfl
@[simp] theorem State.setFlt_settle (s : State) (v : Flt) : (s.setFlt v).settle = s.settle := rfl
@[simp] theorem State.setFlt_tbs (s : State) (v : Flt) : (s.setFlt v).tbs = s.tbs := rfl
@[simp] theorem State.setFlt_pps (s : State) (v : Flt) : (s.setFlt v).pps = s.pps := rfl
@[simp] theorem State.setFlt_gens (s : State) (v : Flt) : (s.setFlt v).gens = s.gens := rfl
@[simp] theorem State.setFlt_trigs (s : State) (v : Flt) : (s.setFlt v).trigs = s.trigs := rfl
@[simp] theorem State.setFlt_frames (s : State) (v : Flt) : (s.setFlt v).frames = s.frames := rfl
@[simp] theorem State.setFlt_nextFrame (s : State) (v : Flt) : (s.setFlt v).nextFrame = s.nextFrame := rfl
@[simp] theorem State.setFlt_ports (s : State) (v : Flt) : (s.setFlt v).ports = s.ports := rfl
@[simp] theorem State.setFlt_taken (s : State) (v : Flt) : (s.setFlt v).taken = s.taken := rfl
@[simp] theorem State.setFlt_latches (s : State) (v : Flt) : (s.setFlt v).latches = s.latches := rfl
@[simp] theorem State.setFlt_doms (s : State) (v : Flt) : (s.setFlt v).doms = s.doms := rfl
@[simp] theorem State.setFlt_gasp (s : State) (v : Flt) : (s.setFlt v).gasp = s.gasp := rfl
@[simp] theorem State.setFlt_dic (s : State) (v : Flt) : (s.setFlt v).dic = s.dic := rfl
@[simp] theorem State.setFlt_flt (s : State) (v : Flt) : (s.setFlt v).flt = v := rfl
@[simp] theorem State.setFlt_trunks (s : State) (v : Flt) : (s.setFlt v).trunks = s.trunks := rfl
@[simp] theorem State.setFlt_slots (s : State) (v : Flt) : (s.setFlt v).slots = s.slots := rfl
@[simp] theorem State.setFlt_node (s : State) (v : Flt) : (s.setFlt v).node = s.node := rfl
@[simp] theorem State.setFlt_pipes (s : State) (v : Flt) : (s.setFlt v).pipes = s.pipes := rfl
@[simp] theorem State.setFlt_graph (s : State) (v : Flt) : (s.setFlt v).graph = s.graph := rfl
@[simp] theorem State.setFlt_gload (s : State) (v : Flt) : (s.setFlt v).gload = s.gload := rfl
@[simp] theorem State.setFlt_cls (s : State) (v : Flt) : (s.setFlt v).cls = s.cls := rfl
@[simp] theorem State.setFlt_ems (s : State) (v : Flt) : (s.setFlt v).ems = s.ems := rfl
@[simp] theorem State.setFlt_threads (s : State) (v : Flt) : (s.setFlt v).threads = s.threads := rfl
@[simp] theorem State.setFlt_wheel (s : State) (v : Flt) : (s.setFlt v).wheel = s.wheel := rfl
@[simp] theorem State.setFlt_emem (s : State) (v : Flt) : (s.setFlt v).emem = s.emem := rfl
@[simp] theorem State.setFlt_splices (s : State) (v : Flt) : (s.setFlt v).splices = s.splices := rfl
@[simp] theorem State.setFlt_funcs (s : State) (v : Flt) : (s.setFlt v).funcs = s.funcs := rfl
@[simp] theorem State.setFlt_qps (s : State) (v : Flt) : (s.setFlt v).qps = s.qps := rfl
@[simp] theorem State.setFlt_binds (s : State) (v : Flt) : (s.setFlt v).binds = s.binds := rfl
@[simp] theorem State.setFlt_admin (s : State) (v : Flt) : (s.setFlt v).admin = s.admin := rfl
@[simp] theorem State.setFlt_mem (s : State) (v : Flt) : (s.setFlt v).mem = s.mem := rfl
@[simp] theorem State.setFlt_chks (s : State) (v : Flt) : (s.setFlt v).chks = s.chks := rfl
@[simp] theorem State.setFlt_dmas (s : State) (v : Flt) : (s.setFlt v).dmas = s.dmas := rfl
@[simp] theorem State.setTrunks_cfg (s : State) (v : KMap Trunk) : (s.setTrunks v).cfg = s.cfg := rfl
@[simp] theorem State.setTrunks_pending (s : State) (v : KMap Trunk) : (s.setTrunks v).pending = s.pending := rfl
@[simp] theorem State.setTrunks_regs (s : State) (v : KMap Trunk) : (s.setTrunks v).regs = s.regs := rfl
@[simp] theorem State.setTrunks_stage (s : State) (v : KMap Trunk) : (s.setTrunks v).stage = s.stage := rfl
@[simp] theorem State.setTrunks_hold (s : State) (v : KMap Trunk) : (s.setTrunks v).hold = s.hold := rfl
@[simp] theorem State.setTrunks_slv (s : State) (v : KMap Trunk) : (s.setTrunks v).slv = s.slv := rfl
@[simp] theorem State.setTrunks_out (s : State) (v : KMap Trunk) : (s.setTrunks v).out = s.out := rfl
@[simp] theorem State.setTrunks_ticks (s : State) (v : KMap Trunk) : (s.setTrunks v).ticks = s.ticks := rfl
@[simp] theorem State.setTrunks_free (s : State) (v : KMap Trunk) : (s.setTrunks v).free = s.free := rfl
@[simp] theorem State.setTrunks_rst (s : State) (v : KMap Trunk) : (s.setTrunks v).rst = s.rst := rfl
@[simp] theorem State.setTrunks_req (s : State) (v : KMap Trunk) : (s.setTrunks v).req = s.req := rfl
@[simp] theorem State.setTrunks_halves (s : State) (v : KMap Trunk) : (s.setTrunks v).halves = s.halves := rfl
@[simp] theorem State.setTrunks_settle (s : State) (v : KMap Trunk) : (s.setTrunks v).settle = s.settle := rfl
@[simp] theorem State.setTrunks_tbs (s : State) (v : KMap Trunk) : (s.setTrunks v).tbs = s.tbs := rfl
@[simp] theorem State.setTrunks_pps (s : State) (v : KMap Trunk) : (s.setTrunks v).pps = s.pps := rfl
@[simp] theorem State.setTrunks_gens (s : State) (v : KMap Trunk) : (s.setTrunks v).gens = s.gens := rfl
@[simp] theorem State.setTrunks_trigs (s : State) (v : KMap Trunk) : (s.setTrunks v).trigs = s.trigs := rfl
@[simp] theorem State.setTrunks_frames (s : State) (v : KMap Trunk) : (s.setTrunks v).frames = s.frames := rfl
@[simp] theorem State.setTrunks_nextFrame (s : State) (v : KMap Trunk) : (s.setTrunks v).nextFrame = s.nextFrame := rfl
@[simp] theorem State.setTrunks_ports (s : State) (v : KMap Trunk) : (s.setTrunks v).ports = s.ports := rfl
@[simp] theorem State.setTrunks_taken (s : State) (v : KMap Trunk) : (s.setTrunks v).taken = s.taken := rfl
@[simp] theorem State.setTrunks_latches (s : State) (v : KMap Trunk) : (s.setTrunks v).latches = s.latches := rfl
@[simp] theorem State.setTrunks_doms (s : State) (v : KMap Trunk) : (s.setTrunks v).doms = s.doms := rfl
@[simp] theorem State.setTrunks_gasp (s : State) (v : KMap Trunk) : (s.setTrunks v).gasp = s.gasp := rfl
@[simp] theorem State.setTrunks_dic (s : State) (v : KMap Trunk) : (s.setTrunks v).dic = s.dic := rfl
@[simp] theorem State.setTrunks_flt (s : State) (v : KMap Trunk) : (s.setTrunks v).flt = s.flt := rfl
@[simp] theorem State.setTrunks_trunks (s : State) (v : KMap Trunk) : (s.setTrunks v).trunks = v := rfl
@[simp] theorem State.setTrunks_slots (s : State) (v : KMap Trunk) : (s.setTrunks v).slots = s.slots := rfl
@[simp] theorem State.setTrunks_node (s : State) (v : KMap Trunk) : (s.setTrunks v).node = s.node := rfl
@[simp] theorem State.setTrunks_pipes (s : State) (v : KMap Trunk) : (s.setTrunks v).pipes = s.pipes := rfl
@[simp] theorem State.setTrunks_graph (s : State) (v : KMap Trunk) : (s.setTrunks v).graph = s.graph := rfl
@[simp] theorem State.setTrunks_gload (s : State) (v : KMap Trunk) : (s.setTrunks v).gload = s.gload := rfl
@[simp] theorem State.setTrunks_cls (s : State) (v : KMap Trunk) : (s.setTrunks v).cls = s.cls := rfl
@[simp] theorem State.setTrunks_ems (s : State) (v : KMap Trunk) : (s.setTrunks v).ems = s.ems := rfl
@[simp] theorem State.setTrunks_threads (s : State) (v : KMap Trunk) : (s.setTrunks v).threads = s.threads := rfl
@[simp] theorem State.setTrunks_wheel (s : State) (v : KMap Trunk) : (s.setTrunks v).wheel = s.wheel := rfl
@[simp] theorem State.setTrunks_emem (s : State) (v : KMap Trunk) : (s.setTrunks v).emem = s.emem := rfl
@[simp] theorem State.setTrunks_splices (s : State) (v : KMap Trunk) : (s.setTrunks v).splices = s.splices := rfl
@[simp] theorem State.setTrunks_funcs (s : State) (v : KMap Trunk) : (s.setTrunks v).funcs = s.funcs := rfl
@[simp] theorem State.setTrunks_qps (s : State) (v : KMap Trunk) : (s.setTrunks v).qps = s.qps := rfl
@[simp] theorem State.setTrunks_binds (s : State) (v : KMap Trunk) : (s.setTrunks v).binds = s.binds := rfl
@[simp] theorem State.setTrunks_admin (s : State) (v : KMap Trunk) : (s.setTrunks v).admin = s.admin := rfl
@[simp] theorem State.setTrunks_mem (s : State) (v : KMap Trunk) : (s.setTrunks v).mem = s.mem := rfl
@[simp] theorem State.setTrunks_chks (s : State) (v : KMap Trunk) : (s.setTrunks v).chks = s.chks := rfl
@[simp] theorem State.setTrunks_dmas (s : State) (v : KMap Trunk) : (s.setTrunks v).dmas = s.dmas := rfl
@[simp] theorem State.setSlots_cfg (s : State) (v : KMap Nat) : (s.setSlots v).cfg = s.cfg := rfl
@[simp] theorem State.setSlots_pending (s : State) (v : KMap Nat) : (s.setSlots v).pending = s.pending := rfl
@[simp] theorem State.setSlots_regs (s : State) (v : KMap Nat) : (s.setSlots v).regs = s.regs := rfl
@[simp] theorem State.setSlots_stage (s : State) (v : KMap Nat) : (s.setSlots v).stage = s.stage := rfl
@[simp] theorem State.setSlots_hold (s : State) (v : KMap Nat) : (s.setSlots v).hold = s.hold := rfl
@[simp] theorem State.setSlots_slv (s : State) (v : KMap Nat) : (s.setSlots v).slv = s.slv := rfl
@[simp] theorem State.setSlots_out (s : State) (v : KMap Nat) : (s.setSlots v).out = s.out := rfl
@[simp] theorem State.setSlots_ticks (s : State) (v : KMap Nat) : (s.setSlots v).ticks = s.ticks := rfl
@[simp] theorem State.setSlots_free (s : State) (v : KMap Nat) : (s.setSlots v).free = s.free := rfl
@[simp] theorem State.setSlots_rst (s : State) (v : KMap Nat) : (s.setSlots v).rst = s.rst := rfl
@[simp] theorem State.setSlots_req (s : State) (v : KMap Nat) : (s.setSlots v).req = s.req := rfl
@[simp] theorem State.setSlots_halves (s : State) (v : KMap Nat) : (s.setSlots v).halves = s.halves := rfl
@[simp] theorem State.setSlots_settle (s : State) (v : KMap Nat) : (s.setSlots v).settle = s.settle := rfl
@[simp] theorem State.setSlots_tbs (s : State) (v : KMap Nat) : (s.setSlots v).tbs = s.tbs := rfl
@[simp] theorem State.setSlots_pps (s : State) (v : KMap Nat) : (s.setSlots v).pps = s.pps := rfl
@[simp] theorem State.setSlots_gens (s : State) (v : KMap Nat) : (s.setSlots v).gens = s.gens := rfl
@[simp] theorem State.setSlots_trigs (s : State) (v : KMap Nat) : (s.setSlots v).trigs = s.trigs := rfl
@[simp] theorem State.setSlots_frames (s : State) (v : KMap Nat) : (s.setSlots v).frames = s.frames := rfl
@[simp] theorem State.setSlots_nextFrame (s : State) (v : KMap Nat) : (s.setSlots v).nextFrame = s.nextFrame := rfl
@[simp] theorem State.setSlots_ports (s : State) (v : KMap Nat) : (s.setSlots v).ports = s.ports := rfl
@[simp] theorem State.setSlots_taken (s : State) (v : KMap Nat) : (s.setSlots v).taken = s.taken := rfl
@[simp] theorem State.setSlots_latches (s : State) (v : KMap Nat) : (s.setSlots v).latches = s.latches := rfl
@[simp] theorem State.setSlots_doms (s : State) (v : KMap Nat) : (s.setSlots v).doms = s.doms := rfl
@[simp] theorem State.setSlots_gasp (s : State) (v : KMap Nat) : (s.setSlots v).gasp = s.gasp := rfl
@[simp] theorem State.setSlots_dic (s : State) (v : KMap Nat) : (s.setSlots v).dic = s.dic := rfl
@[simp] theorem State.setSlots_flt (s : State) (v : KMap Nat) : (s.setSlots v).flt = s.flt := rfl
@[simp] theorem State.setSlots_trunks (s : State) (v : KMap Nat) : (s.setSlots v).trunks = s.trunks := rfl
@[simp] theorem State.setSlots_slots (s : State) (v : KMap Nat) : (s.setSlots v).slots = v := rfl
@[simp] theorem State.setSlots_node (s : State) (v : KMap Nat) : (s.setSlots v).node = s.node := rfl
@[simp] theorem State.setSlots_pipes (s : State) (v : KMap Nat) : (s.setSlots v).pipes = s.pipes := rfl
@[simp] theorem State.setSlots_graph (s : State) (v : KMap Nat) : (s.setSlots v).graph = s.graph := rfl
@[simp] theorem State.setSlots_gload (s : State) (v : KMap Nat) : (s.setSlots v).gload = s.gload := rfl
@[simp] theorem State.setSlots_cls (s : State) (v : KMap Nat) : (s.setSlots v).cls = s.cls := rfl
@[simp] theorem State.setSlots_ems (s : State) (v : KMap Nat) : (s.setSlots v).ems = s.ems := rfl
@[simp] theorem State.setSlots_threads (s : State) (v : KMap Nat) : (s.setSlots v).threads = s.threads := rfl
@[simp] theorem State.setSlots_wheel (s : State) (v : KMap Nat) : (s.setSlots v).wheel = s.wheel := rfl
@[simp] theorem State.setSlots_emem (s : State) (v : KMap Nat) : (s.setSlots v).emem = s.emem := rfl
@[simp] theorem State.setSlots_splices (s : State) (v : KMap Nat) : (s.setSlots v).splices = s.splices := rfl
@[simp] theorem State.setSlots_funcs (s : State) (v : KMap Nat) : (s.setSlots v).funcs = s.funcs := rfl
@[simp] theorem State.setSlots_qps (s : State) (v : KMap Nat) : (s.setSlots v).qps = s.qps := rfl
@[simp] theorem State.setSlots_binds (s : State) (v : KMap Nat) : (s.setSlots v).binds = s.binds := rfl
@[simp] theorem State.setSlots_admin (s : State) (v : KMap Nat) : (s.setSlots v).admin = s.admin := rfl
@[simp] theorem State.setSlots_mem (s : State) (v : KMap Nat) : (s.setSlots v).mem = s.mem := rfl
@[simp] theorem State.setSlots_chks (s : State) (v : KMap Nat) : (s.setSlots v).chks = s.chks := rfl
@[simp] theorem State.setSlots_dmas (s : State) (v : KMap Nat) : (s.setSlots v).dmas = s.dmas := rfl
@[simp] theorem State.setNode_cfg (s : State) (v : Node) : (s.setNode v).cfg = s.cfg := rfl
@[simp] theorem State.setNode_pending (s : State) (v : Node) : (s.setNode v).pending = s.pending := rfl
@[simp] theorem State.setNode_regs (s : State) (v : Node) : (s.setNode v).regs = s.regs := rfl
@[simp] theorem State.setNode_stage (s : State) (v : Node) : (s.setNode v).stage = s.stage := rfl
@[simp] theorem State.setNode_hold (s : State) (v : Node) : (s.setNode v).hold = s.hold := rfl
@[simp] theorem State.setNode_slv (s : State) (v : Node) : (s.setNode v).slv = s.slv := rfl
@[simp] theorem State.setNode_out (s : State) (v : Node) : (s.setNode v).out = s.out := rfl
@[simp] theorem State.setNode_ticks (s : State) (v : Node) : (s.setNode v).ticks = s.ticks := rfl
@[simp] theorem State.setNode_free (s : State) (v : Node) : (s.setNode v).free = s.free := rfl
@[simp] theorem State.setNode_rst (s : State) (v : Node) : (s.setNode v).rst = s.rst := rfl
@[simp] theorem State.setNode_req (s : State) (v : Node) : (s.setNode v).req = s.req := rfl
@[simp] theorem State.setNode_halves (s : State) (v : Node) : (s.setNode v).halves = s.halves := rfl
@[simp] theorem State.setNode_settle (s : State) (v : Node) : (s.setNode v).settle = s.settle := rfl
@[simp] theorem State.setNode_tbs (s : State) (v : Node) : (s.setNode v).tbs = s.tbs := rfl
@[simp] theorem State.setNode_pps (s : State) (v : Node) : (s.setNode v).pps = s.pps := rfl
@[simp] theorem State.setNode_gens (s : State) (v : Node) : (s.setNode v).gens = s.gens := rfl
@[simp] theorem State.setNode_trigs (s : State) (v : Node) : (s.setNode v).trigs = s.trigs := rfl
@[simp] theorem State.setNode_frames (s : State) (v : Node) : (s.setNode v).frames = s.frames := rfl
@[simp] theorem State.setNode_nextFrame (s : State) (v : Node) : (s.setNode v).nextFrame = s.nextFrame := rfl
@[simp] theorem State.setNode_ports (s : State) (v : Node) : (s.setNode v).ports = s.ports := rfl
@[simp] theorem State.setNode_taken (s : State) (v : Node) : (s.setNode v).taken = s.taken := rfl
@[simp] theorem State.setNode_latches (s : State) (v : Node) : (s.setNode v).latches = s.latches := rfl
@[simp] theorem State.setNode_doms (s : State) (v : Node) : (s.setNode v).doms = s.doms := rfl
@[simp] theorem State.setNode_gasp (s : State) (v : Node) : (s.setNode v).gasp = s.gasp := rfl
@[simp] theorem State.setNode_dic (s : State) (v : Node) : (s.setNode v).dic = s.dic := rfl
@[simp] theorem State.setNode_flt (s : State) (v : Node) : (s.setNode v).flt = s.flt := rfl
@[simp] theorem State.setNode_trunks (s : State) (v : Node) : (s.setNode v).trunks = s.trunks := rfl
@[simp] theorem State.setNode_slots (s : State) (v : Node) : (s.setNode v).slots = s.slots := rfl
@[simp] theorem State.setNode_node (s : State) (v : Node) : (s.setNode v).node = v := rfl
@[simp] theorem State.setNode_pipes (s : State) (v : Node) : (s.setNode v).pipes = s.pipes := rfl
@[simp] theorem State.setNode_graph (s : State) (v : Node) : (s.setNode v).graph = s.graph := rfl
@[simp] theorem State.setNode_gload (s : State) (v : Node) : (s.setNode v).gload = s.gload := rfl
@[simp] theorem State.setNode_cls (s : State) (v : Node) : (s.setNode v).cls = s.cls := rfl
@[simp] theorem State.setNode_ems (s : State) (v : Node) : (s.setNode v).ems = s.ems := rfl
@[simp] theorem State.setNode_threads (s : State) (v : Node) : (s.setNode v).threads = s.threads := rfl
@[simp] theorem State.setNode_wheel (s : State) (v : Node) : (s.setNode v).wheel = s.wheel := rfl
@[simp] theorem State.setNode_emem (s : State) (v : Node) : (s.setNode v).emem = s.emem := rfl
@[simp] theorem State.setNode_splices (s : State) (v : Node) : (s.setNode v).splices = s.splices := rfl
@[simp] theorem State.setNode_funcs (s : State) (v : Node) : (s.setNode v).funcs = s.funcs := rfl
@[simp] theorem State.setNode_qps (s : State) (v : Node) : (s.setNode v).qps = s.qps := rfl
@[simp] theorem State.setNode_binds (s : State) (v : Node) : (s.setNode v).binds = s.binds := rfl
@[simp] theorem State.setNode_admin (s : State) (v : Node) : (s.setNode v).admin = s.admin := rfl
@[simp] theorem State.setNode_mem (s : State) (v : Node) : (s.setNode v).mem = s.mem := rfl
@[simp] theorem State.setNode_chks (s : State) (v : Node) : (s.setNode v).chks = s.chks := rfl
@[simp] theorem State.setNode_dmas (s : State) (v : Node) : (s.setNode v).dmas = s.dmas := rfl
@[simp] theorem State.setPipes_cfg (s : State) (v : KMap Pipe) : (s.setPipes v).cfg = s.cfg := rfl
@[simp] theorem State.setPipes_pending (s : State) (v : KMap Pipe) : (s.setPipes v).pending = s.pending := rfl
@[simp] theorem State.setPipes_regs (s : State) (v : KMap Pipe) : (s.setPipes v).regs = s.regs := rfl
@[simp] theorem State.setPipes_stage (s : State) (v : KMap Pipe) : (s.setPipes v).stage = s.stage := rfl
@[simp] theorem State.setPipes_hold (s : State) (v : KMap Pipe) : (s.setPipes v).hold = s.hold := rfl
@[simp] theorem State.setPipes_slv (s : State) (v : KMap Pipe) : (s.setPipes v).slv = s.slv := rfl
@[simp] theorem State.setPipes_out (s : State) (v : KMap Pipe) : (s.setPipes v).out = s.out := rfl
@[simp] theorem State.setPipes_ticks (s : State) (v : KMap Pipe) : (s.setPipes v).ticks = s.ticks := rfl
@[simp] theorem State.setPipes_free (s : State) (v : KMap Pipe) : (s.setPipes v).free = s.free := rfl
@[simp] theorem State.setPipes_rst (s : State) (v : KMap Pipe) : (s.setPipes v).rst = s.rst := rfl
@[simp] theorem State.setPipes_req (s : State) (v : KMap Pipe) : (s.setPipes v).req = s.req := rfl
@[simp] theorem State.setPipes_halves (s : State) (v : KMap Pipe) : (s.setPipes v).halves = s.halves := rfl
@[simp] theorem State.setPipes_settle (s : State) (v : KMap Pipe) : (s.setPipes v).settle = s.settle := rfl
@[simp] theorem State.setPipes_tbs (s : State) (v : KMap Pipe) : (s.setPipes v).tbs = s.tbs := rfl
@[simp] theorem State.setPipes_pps (s : State) (v : KMap Pipe) : (s.setPipes v).pps = s.pps := rfl
@[simp] theorem State.setPipes_gens (s : State) (v : KMap Pipe) : (s.setPipes v).gens = s.gens := rfl
@[simp] theorem State.setPipes_trigs (s : State) (v : KMap Pipe) : (s.setPipes v).trigs = s.trigs := rfl
@[simp] theorem State.setPipes_frames (s : State) (v : KMap Pipe) : (s.setPipes v).frames = s.frames := rfl
@[simp] theorem State.setPipes_nextFrame (s : State) (v : KMap Pipe) : (s.setPipes v).nextFrame = s.nextFrame := rfl
@[simp] theorem State.setPipes_ports (s : State) (v : KMap Pipe) : (s.setPipes v).ports = s.ports := rfl
@[simp] theorem State.setPipes_taken (s : State) (v : KMap Pipe) : (s.setPipes v).taken = s.taken := rfl
@[simp] theorem State.setPipes_latches (s : State) (v : KMap Pipe) : (s.setPipes v).latches = s.latches := rfl
@[simp] theorem State.setPipes_doms (s : State) (v : KMap Pipe) : (s.setPipes v).doms = s.doms := rfl
@[simp] theorem State.setPipes_gasp (s : State) (v : KMap Pipe) : (s.setPipes v).gasp = s.gasp := rfl
@[simp] theorem State.setPipes_dic (s : State) (v : KMap Pipe) : (s.setPipes v).dic = s.dic := rfl
@[simp] theorem State.setPipes_flt (s : State) (v : KMap Pipe) : (s.setPipes v).flt = s.flt := rfl
@[simp] theorem State.setPipes_trunks (s : State) (v : KMap Pipe) : (s.setPipes v).trunks = s.trunks := rfl
@[simp] theorem State.setPipes_slots (s : State) (v : KMap Pipe) : (s.setPipes v).slots = s.slots := rfl
@[simp] theorem State.setPipes_node (s : State) (v : KMap Pipe) : (s.setPipes v).node = s.node := rfl
@[simp] theorem State.setPipes_pipes (s : State) (v : KMap Pipe) : (s.setPipes v).pipes = v := rfl
@[simp] theorem State.setPipes_graph (s : State) (v : KMap Pipe) : (s.setPipes v).graph = s.graph := rfl
@[simp] theorem State.setPipes_gload (s : State) (v : KMap Pipe) : (s.setPipes v).gload = s.gload := rfl
@[simp] theorem State.setPipes_cls (s : State) (v : KMap Pipe) : (s.setPipes v).cls = s.cls := rfl
@[simp] theorem State.setPipes_ems (s : State) (v : KMap Pipe) : (s.setPipes v).ems = s.ems := rfl
@[simp] theorem State.setPipes_threads (s : State) (v : KMap Pipe) : (s.setPipes v).threads = s.threads := rfl
@[simp] theorem State.setPipes_wheel (s : State) (v : KMap Pipe) : (s.setPipes v).wheel = s.wheel := rfl
@[simp] theorem State.setPipes_emem (s : State) (v : KMap Pipe) : (s.setPipes v).emem = s.emem := rfl
@[simp] theorem State.setPipes_splices (s : State) (v : KMap Pipe) : (s.setPipes v).splices = s.splices := rfl
@[simp] theorem State.setPipes_funcs (s : State) (v : KMap Pipe) : (s.setPipes v).funcs = s.funcs := rfl
@[simp] theorem State.setPipes_qps (s : State) (v : KMap Pipe) : (s.setPipes v).qps = s.qps := rfl
@[simp] theorem State.setPipes_binds (s : State) (v : KMap Pipe) : (s.setPipes v).binds = s.binds := rfl
@[simp] theorem State.setPipes_admin (s : State) (v : KMap Pipe) : (s.setPipes v).admin = s.admin := rfl
@[simp] theorem State.setPipes_mem (s : State) (v : KMap Pipe) : (s.setPipes v).mem = s.mem := rfl
@[simp] theorem State.setPipes_chks (s : State) (v : KMap Pipe) : (s.setPipes v).chks = s.chks := rfl
@[simp] theorem State.setPipes_dmas (s : State) (v : KMap Pipe) : (s.setPipes v).dmas = s.dmas := rfl
@[simp] theorem State.setGraph_cfg (s : State) (v : KMap Word) : (s.setGraph v).cfg = s.cfg := rfl
@[simp] theorem State.setGraph_pending (s : State) (v : KMap Word) : (s.setGraph v).pending = s.pending := rfl
@[simp] theorem State.setGraph_regs (s : State) (v : KMap Word) : (s.setGraph v).regs = s.regs := rfl
@[simp] theorem State.setGraph_stage (s : State) (v : KMap Word) : (s.setGraph v).stage = s.stage := rfl
@[simp] theorem State.setGraph_hold (s : State) (v : KMap Word) : (s.setGraph v).hold = s.hold := rfl
@[simp] theorem State.setGraph_slv (s : State) (v : KMap Word) : (s.setGraph v).slv = s.slv := rfl
@[simp] theorem State.setGraph_out (s : State) (v : KMap Word) : (s.setGraph v).out = s.out := rfl
@[simp] theorem State.setGraph_ticks (s : State) (v : KMap Word) : (s.setGraph v).ticks = s.ticks := rfl
@[simp] theorem State.setGraph_free (s : State) (v : KMap Word) : (s.setGraph v).free = s.free := rfl
@[simp] theorem State.setGraph_rst (s : State) (v : KMap Word) : (s.setGraph v).rst = s.rst := rfl
@[simp] theorem State.setGraph_req (s : State) (v : KMap Word) : (s.setGraph v).req = s.req := rfl
@[simp] theorem State.setGraph_halves (s : State) (v : KMap Word) : (s.setGraph v).halves = s.halves := rfl
@[simp] theorem State.setGraph_settle (s : State) (v : KMap Word) : (s.setGraph v).settle = s.settle := rfl
@[simp] theorem State.setGraph_tbs (s : State) (v : KMap Word) : (s.setGraph v).tbs = s.tbs := rfl
@[simp] theorem State.setGraph_pps (s : State) (v : KMap Word) : (s.setGraph v).pps = s.pps := rfl
@[simp] theorem State.setGraph_gens (s : State) (v : KMap Word) : (s.setGraph v).gens = s.gens := rfl
@[simp] theorem State.setGraph_trigs (s : State) (v : KMap Word) : (s.setGraph v).trigs = s.trigs := rfl
@[simp] theorem State.setGraph_frames (s : State) (v : KMap Word) : (s.setGraph v).frames = s.frames := rfl
@[simp] theorem State.setGraph_nextFrame (s : State) (v : KMap Word) : (s.setGraph v).nextFrame = s.nextFrame := rfl
@[simp] theorem State.setGraph_ports (s : State) (v : KMap Word) : (s.setGraph v).ports = s.ports := rfl
@[simp] theorem State.setGraph_taken (s : State) (v : KMap Word) : (s.setGraph v).taken = s.taken := rfl
@[simp] theorem State.setGraph_latches (s : State) (v : KMap Word) : (s.setGraph v).latches = s.latches := rfl
@[simp] theorem State.setGraph_doms (s : State) (v : KMap Word) : (s.setGraph v).doms = s.doms := rfl
@[simp] theorem State.setGraph_gasp (s : State) (v : KMap Word) : (s.setGraph v).gasp = s.gasp := rfl
@[simp] theorem State.setGraph_dic (s : State) (v : KMap Word) : (s.setGraph v).dic = s.dic := rfl
@[simp] theorem State.setGraph_flt (s : State) (v : KMap Word) : (s.setGraph v).flt = s.flt := rfl
@[simp] theorem State.setGraph_trunks (s : State) (v : KMap Word) : (s.setGraph v).trunks = s.trunks := rfl
@[simp] theorem State.setGraph_slots (s : State) (v : KMap Word) : (s.setGraph v).slots = s.slots := rfl
@[simp] theorem State.setGraph_node (s : State) (v : KMap Word) : (s.setGraph v).node = s.node := rfl
@[simp] theorem State.setGraph_pipes (s : State) (v : KMap Word) : (s.setGraph v).pipes = s.pipes := rfl
@[simp] theorem State.setGraph_graph (s : State) (v : KMap Word) : (s.setGraph v).graph = v := rfl
@[simp] theorem State.setGraph_gload (s : State) (v : KMap Word) : (s.setGraph v).gload = s.gload := rfl
@[simp] theorem State.setGraph_cls (s : State) (v : KMap Word) : (s.setGraph v).cls = s.cls := rfl
@[simp] theorem State.setGraph_ems (s : State) (v : KMap Word) : (s.setGraph v).ems = s.ems := rfl
@[simp] theorem State.setGraph_threads (s : State) (v : KMap Word) : (s.setGraph v).threads = s.threads := rfl
@[simp] theorem State.setGraph_wheel (s : State) (v : KMap Word) : (s.setGraph v).wheel = s.wheel := rfl
@[simp] theorem State.setGraph_emem (s : State) (v : KMap Word) : (s.setGraph v).emem = s.emem := rfl
@[simp] theorem State.setGraph_splices (s : State) (v : KMap Word) : (s.setGraph v).splices = s.splices := rfl
@[simp] theorem State.setGraph_funcs (s : State) (v : KMap Word) : (s.setGraph v).funcs = s.funcs := rfl
@[simp] theorem State.setGraph_qps (s : State) (v : KMap Word) : (s.setGraph v).qps = s.qps := rfl
@[simp] theorem State.setGraph_binds (s : State) (v : KMap Word) : (s.setGraph v).binds = s.binds := rfl
@[simp] theorem State.setGraph_admin (s : State) (v : KMap Word) : (s.setGraph v).admin = s.admin := rfl
@[simp] theorem State.setGraph_mem (s : State) (v : KMap Word) : (s.setGraph v).mem = s.mem := rfl
@[simp] theorem State.setGraph_chks (s : State) (v : KMap Word) : (s.setGraph v).chks = s.chks := rfl
@[simp] theorem State.setGraph_dmas (s : State) (v : KMap Word) : (s.setGraph v).dmas = s.dmas := rfl
@[simp] theorem State.setGload_cfg (s : State) (v : Option GLoad) : (s.setGload v).cfg = s.cfg := rfl
@[simp] theorem State.setGload_pending (s : State) (v : Option GLoad) : (s.setGload v).pending = s.pending := rfl
@[simp] theorem State.setGload_regs (s : State) (v : Option GLoad) : (s.setGload v).regs = s.regs := rfl
@[simp] theorem State.setGload_stage (s : State) (v : Option GLoad) : (s.setGload v).stage = s.stage := rfl
@[simp] theorem State.setGload_hold (s : State) (v : Option GLoad) : (s.setGload v).hold = s.hold := rfl
@[simp] theorem State.setGload_slv (s : State) (v : Option GLoad) : (s.setGload v).slv = s.slv := rfl
@[simp] theorem State.setGload_out (s : State) (v : Option GLoad) : (s.setGload v).out = s.out := rfl
@[simp] theorem State.setGload_ticks (s : State) (v : Option GLoad) : (s.setGload v).ticks = s.ticks := rfl
@[simp] theorem State.setGload_free (s : State) (v : Option GLoad) : (s.setGload v).free = s.free := rfl
@[simp] theorem State.setGload_rst (s : State) (v : Option GLoad) : (s.setGload v).rst = s.rst := rfl
@[simp] theorem State.setGload_req (s : State) (v : Option GLoad) : (s.setGload v).req = s.req := rfl
@[simp] theorem State.setGload_halves (s : State) (v : Option GLoad) : (s.setGload v).halves = s.halves := rfl
@[simp] theorem State.setGload_settle (s : State) (v : Option GLoad) : (s.setGload v).settle = s.settle := rfl
@[simp] theorem State.setGload_tbs (s : State) (v : Option GLoad) : (s.setGload v).tbs = s.tbs := rfl
@[simp] theorem State.setGload_pps (s : State) (v : Option GLoad) : (s.setGload v).pps = s.pps := rfl
@[simp] theorem State.setGload_gens (s : State) (v : Option GLoad) : (s.setGload v).gens = s.gens := rfl
@[simp] theorem State.setGload_trigs (s : State) (v : Option GLoad) : (s.setGload v).trigs = s.trigs := rfl
@[simp] theorem State.setGload_frames (s : State) (v : Option GLoad) : (s.setGload v).frames = s.frames := rfl
@[simp] theorem State.setGload_nextFrame (s : State) (v : Option GLoad) : (s.setGload v).nextFrame = s.nextFrame := rfl
@[simp] theorem State.setGload_ports (s : State) (v : Option GLoad) : (s.setGload v).ports = s.ports := rfl
@[simp] theorem State.setGload_taken (s : State) (v : Option GLoad) : (s.setGload v).taken = s.taken := rfl
@[simp] theorem State.setGload_latches (s : State) (v : Option GLoad) : (s.setGload v).latches = s.latches := rfl
@[simp] theorem State.setGload_doms (s : State) (v : Option GLoad) : (s.setGload v).doms = s.doms := rfl
@[simp] theorem State.setGload_gasp (s : State) (v : Option GLoad) : (s.setGload v).gasp = s.gasp := rfl
@[simp] theorem State.setGload_dic (s : State) (v : Option GLoad) : (s.setGload v).dic = s.dic := rfl
@[simp] theorem State.setGload_flt (s : State) (v : Option GLoad) : (s.setGload v).flt = s.flt := rfl
@[simp] theorem State.setGload_trunks (s : State) (v : Option GLoad) : (s.setGload v).trunks = s.trunks := rfl
@[simp] theorem State.setGload_slots (s : State) (v : Option GLoad) : (s.setGload v).slots = s.slots := rfl
@[simp] theorem State.setGload_node (s : State) (v : Option GLoad) : (s.setGload v).node = s.node := rfl
@[simp] theorem State.setGload_pipes (s : State) (v : Option GLoad) : (s.setGload v).pipes = s.pipes := rfl
@[simp] theorem State.setGload_graph (s : State) (v : Option GLoad) : (s.setGload v).graph = s.graph := rfl
@[simp] theorem State.setGload_gload (s : State) (v : Option GLoad) : (s.setGload v).gload = v := rfl
@[simp] theorem State.setGload_cls (s : State) (v : Option GLoad) : (s.setGload v).cls = s.cls := rfl
@[simp] theorem State.setGload_ems (s : State) (v : Option GLoad) : (s.setGload v).ems = s.ems := rfl
@[simp] theorem State.setGload_threads (s : State) (v : Option GLoad) : (s.setGload v).threads = s.threads := rfl
@[simp] theorem State.setGload_wheel (s : State) (v : Option GLoad) : (s.setGload v).wheel = s.wheel := rfl
@[simp] theorem State.setGload_emem (s : State) (v : Option GLoad) : (s.setGload v).emem = s.emem := rfl
@[simp] theorem State.setGload_splices (s : State) (v : Option GLoad) : (s.setGload v).splices = s.splices := rfl
@[simp] theorem State.setGload_funcs (s : State) (v : Option GLoad) : (s.setGload v).funcs = s.funcs := rfl
@[simp] theorem State.setGload_qps (s : State) (v : Option GLoad) : (s.setGload v).qps = s.qps := rfl
@[simp] theorem State.setGload_binds (s : State) (v : Option GLoad) : (s.setGload v).binds = s.binds := rfl
@[simp] theorem State.setGload_admin (s : State) (v : Option GLoad) : (s.setGload v).admin = s.admin := rfl
@[simp] theorem State.setGload_mem (s : State) (v : Option GLoad) : (s.setGload v).mem = s.mem := rfl
@[simp] theorem State.setGload_chks (s : State) (v : Option GLoad) : (s.setGload v).chks = s.chks := rfl
@[simp] theorem State.setGload_dmas (s : State) (v : Option GLoad) : (s.setGload v).dmas = s.dmas := rfl
@[simp] theorem State.setCls_cfg (s : State) (v : Cls) : (s.setCls v).cfg = s.cfg := rfl
@[simp] theorem State.setCls_pending (s : State) (v : Cls) : (s.setCls v).pending = s.pending := rfl
@[simp] theorem State.setCls_regs (s : State) (v : Cls) : (s.setCls v).regs = s.regs := rfl
@[simp] theorem State.setCls_stage (s : State) (v : Cls) : (s.setCls v).stage = s.stage := rfl
@[simp] theorem State.setCls_hold (s : State) (v : Cls) : (s.setCls v).hold = s.hold := rfl
@[simp] theorem State.setCls_slv (s : State) (v : Cls) : (s.setCls v).slv = s.slv := rfl
@[simp] theorem State.setCls_out (s : State) (v : Cls) : (s.setCls v).out = s.out := rfl
@[simp] theorem State.setCls_ticks (s : State) (v : Cls) : (s.setCls v).ticks = s.ticks := rfl
@[simp] theorem State.setCls_free (s : State) (v : Cls) : (s.setCls v).free = s.free := rfl
@[simp] theorem State.setCls_rst (s : State) (v : Cls) : (s.setCls v).rst = s.rst := rfl
@[simp] theorem State.setCls_req (s : State) (v : Cls) : (s.setCls v).req = s.req := rfl
@[simp] theorem State.setCls_halves (s : State) (v : Cls) : (s.setCls v).halves = s.halves := rfl
@[simp] theorem State.setCls_settle (s : State) (v : Cls) : (s.setCls v).settle = s.settle := rfl
@[simp] theorem State.setCls_tbs (s : State) (v : Cls) : (s.setCls v).tbs = s.tbs := rfl
@[simp] theorem State.setCls_pps (s : State) (v : Cls) : (s.setCls v).pps = s.pps := rfl
@[simp] theorem State.setCls_gens (s : State) (v : Cls) : (s.setCls v).gens = s.gens := rfl
@[simp] theorem State.setCls_trigs (s : State) (v : Cls) : (s.setCls v).trigs = s.trigs := rfl
@[simp] theorem State.setCls_frames (s : State) (v : Cls) : (s.setCls v).frames = s.frames := rfl
@[simp] theorem State.setCls_nextFrame (s : State) (v : Cls) : (s.setCls v).nextFrame = s.nextFrame := rfl
@[simp] theorem State.setCls_ports (s : State) (v : Cls) : (s.setCls v).ports = s.ports := rfl
@[simp] theorem State.setCls_taken (s : State) (v : Cls) : (s.setCls v).taken = s.taken := rfl
@[simp] theorem State.setCls_latches (s : State) (v : Cls) : (s.setCls v).latches = s.latches := rfl
@[simp] theorem State.setCls_doms (s : State) (v : Cls) : (s.setCls v).doms = s.doms := rfl
@[simp] theorem State.setCls_gasp (s : State) (v : Cls) : (s.setCls v).gasp = s.gasp := rfl
@[simp] theorem State.setCls_dic (s : State) (v : Cls) : (s.setCls v).dic = s.dic := rfl
@[simp] theorem State.setCls_flt (s : State) (v : Cls) : (s.setCls v).flt = s.flt := rfl
@[simp] theorem State.setCls_trunks (s : State) (v : Cls) : (s.setCls v).trunks = s.trunks := rfl
@[simp] theorem State.setCls_slots (s : State) (v : Cls) : (s.setCls v).slots = s.slots := rfl
@[simp] theorem State.setCls_node (s : State) (v : Cls) : (s.setCls v).node = s.node := rfl
@[simp] theorem State.setCls_pipes (s : State) (v : Cls) : (s.setCls v).pipes = s.pipes := rfl
@[simp] theorem State.setCls_graph (s : State) (v : Cls) : (s.setCls v).graph = s.graph := rfl
@[simp] theorem State.setCls_gload (s : State) (v : Cls) : (s.setCls v).gload = s.gload := rfl
@[simp] theorem State.setCls_cls (s : State) (v : Cls) : (s.setCls v).cls = v := rfl
@[simp] theorem State.setCls_ems (s : State) (v : Cls) : (s.setCls v).ems = s.ems := rfl
@[simp] theorem State.setCls_threads (s : State) (v : Cls) : (s.setCls v).threads = s.threads := rfl
@[simp] theorem State.setCls_wheel (s : State) (v : Cls) : (s.setCls v).wheel = s.wheel := rfl
@[simp] theorem State.setCls_emem (s : State) (v : Cls) : (s.setCls v).emem = s.emem := rfl
@[simp] theorem State.setCls_splices (s : State) (v : Cls) : (s.setCls v).splices = s.splices := rfl
@[simp] theorem State.setCls_funcs (s : State) (v : Cls) : (s.setCls v).funcs = s.funcs := rfl
@[simp] theorem State.setCls_qps (s : State) (v : Cls) : (s.setCls v).qps = s.qps := rfl
@[simp] theorem State.setCls_binds (s : State) (v : Cls) : (s.setCls v).binds = s.binds := rfl
@[simp] theorem State.setCls_admin (s : State) (v : Cls) : (s.setCls v).admin = s.admin := rfl
@[simp] theorem State.setCls_mem (s : State) (v : Cls) : (s.setCls v).mem = s.mem := rfl
@[simp] theorem State.setCls_chks (s : State) (v : Cls) : (s.setCls v).chks = s.chks := rfl
@[simp] theorem State.setCls_dmas (s : State) (v : Cls) : (s.setCls v).dmas = s.dmas := rfl
@[simp] theorem State.setEms_cfg (s : State) (v : KMap (List EmEnt)) : (s.setEms v).cfg = s.cfg := rfl
@[simp] theorem State.setEms_pending (s : State) (v : KMap (List EmEnt)) : (s.setEms v).pending = s.pending := rfl
@[simp] theorem State.setEms_regs (s : State) (v : KMap (List EmEnt)) : (s.setEms v).regs = s.regs := rfl
@[simp] theorem State.setEms_stage (s : State) (v : KMap (List EmEnt)) : (s.setEms v).stage = s.stage := rfl
@[simp] theorem State.setEms_hold (s : State) (v : KMap (List EmEnt)) : (s.setEms v).hold = s.hold := rfl
@[simp] theorem State.setEms_slv (s : State) (v : KMap (List EmEnt)) : (s.setEms v).slv = s.slv := rfl
@[simp] theorem State.setEms_out (s : State) (v : KMap (List EmEnt)) : (s.setEms v).out = s.out := rfl
@[simp] theorem State.setEms_ticks (s : State) (v : KMap (List EmEnt)) : (s.setEms v).ticks = s.ticks := rfl
@[simp] theorem State.setEms_free (s : State) (v : KMap (List EmEnt)) : (s.setEms v).free = s.free := rfl
@[simp] theorem State.setEms_rst (s : State) (v : KMap (List EmEnt)) : (s.setEms v).rst = s.rst := rfl
@[simp] theorem State.setEms_req (s : State) (v : KMap (List EmEnt)) : (s.setEms v).req = s.req := rfl
@[simp] theorem State.setEms_halves (s : State) (v : KMap (List EmEnt)) : (s.setEms v).halves = s.halves := rfl
@[simp] theorem State.setEms_settle (s : State) (v : KMap (List EmEnt)) : (s.setEms v).settle = s.settle := rfl
@[simp] theorem State.setEms_tbs (s : State) (v : KMap (List EmEnt)) : (s.setEms v).tbs = s.tbs := rfl
@[simp] theorem State.setEms_pps (s : State) (v : KMap (List EmEnt)) : (s.setEms v).pps = s.pps := rfl
@[simp] theorem State.setEms_gens (s : State) (v : KMap (List EmEnt)) : (s.setEms v).gens = s.gens := rfl
@[simp] theorem State.setEms_trigs (s : State) (v : KMap (List EmEnt)) : (s.setEms v).trigs = s.trigs := rfl
@[simp] theorem State.setEms_frames (s : State) (v : KMap (List EmEnt)) : (s.setEms v).frames = s.frames := rfl
@[simp] theorem State.setEms_nextFrame (s : State) (v : KMap (List EmEnt)) : (s.setEms v).nextFrame = s.nextFrame := rfl
@[simp] theorem State.setEms_ports (s : State) (v : KMap (List EmEnt)) : (s.setEms v).ports = s.ports := rfl
@[simp] theorem State.setEms_taken (s : State) (v : KMap (List EmEnt)) : (s.setEms v).taken = s.taken := rfl
@[simp] theorem State.setEms_latches (s : State) (v : KMap (List EmEnt)) : (s.setEms v).latches = s.latches := rfl
@[simp] theorem State.setEms_doms (s : State) (v : KMap (List EmEnt)) : (s.setEms v).doms = s.doms := rfl
@[simp] theorem State.setEms_gasp (s : State) (v : KMap (List EmEnt)) : (s.setEms v).gasp = s.gasp := rfl
@[simp] theorem State.setEms_dic (s : State) (v : KMap (List EmEnt)) : (s.setEms v).dic = s.dic := rfl
@[simp] theorem State.setEms_flt (s : State) (v : KMap (List EmEnt)) : (s.setEms v).flt = s.flt := rfl
@[simp] theorem State.setEms_trunks (s : State) (v : KMap (List EmEnt)) : (s.setEms v).trunks = s.trunks := rfl
@[simp] theorem State.setEms_slots (s : State) (v : KMap (List EmEnt)) : (s.setEms v).slots = s.slots := rfl
@[simp] theorem State.setEms_node (s : State) (v : KMap (List EmEnt)) : (s.setEms v).node = s.node := rfl
@[simp] theorem State.setEms_pipes (s : State) (v : KMap (List EmEnt)) : (s.setEms v).pipes = s.pipes := rfl
@[simp] theorem State.setEms_graph (s : State) (v : KMap (List EmEnt)) : (s.setEms v).graph = s.graph := rfl
@[simp] theorem State.setEms_gload (s : State) (v : KMap (List EmEnt)) : (s.setEms v).gload = s.gload := rfl
@[simp] theorem State.setEms_cls (s : State) (v : KMap (List EmEnt)) : (s.setEms v).cls = s.cls := rfl
@[simp] theorem State.setEms_ems (s : State) (v : KMap (List EmEnt)) : (s.setEms v).ems = v := rfl
@[simp] theorem State.setEms_threads (s : State) (v : KMap (List EmEnt)) : (s.setEms v).threads = s.threads := rfl
@[simp] theorem State.setEms_wheel (s : State) (v : KMap (List EmEnt)) : (s.setEms v).wheel = s.wheel := rfl
@[simp] theorem State.setEms_emem (s : State) (v : KMap (List EmEnt)) : (s.setEms v).emem = s.emem := rfl
@[simp] theorem State.setEms_splices (s : State) (v : KMap (List EmEnt)) : (s.setEms v).splices = s.splices := rfl
@[simp] theorem State.setEms_funcs (s : State) (v : KMap (List EmEnt)) : (s.setEms v).funcs = s.funcs := rfl
@[simp] theorem State.setEms_qps (s : State) (v : KMap (List EmEnt)) : (s.setEms v).qps = s.qps := rfl
@[simp] theorem State.setEms_binds (s : State) (v : KMap (List EmEnt)) : (s.setEms v).binds = s.binds := rfl
@[simp] theorem State.setEms_admin (s : State) (v : KMap (List EmEnt)) : (s.setEms v).admin = s.admin := rfl
@[simp] theorem State.setEms_mem (s : State) (v : KMap (List EmEnt)) : (s.setEms v).mem = s.mem := rfl
@[simp] theorem State.setEms_chks (s : State) (v : KMap (List EmEnt)) : (s.setEms v).chks = s.chks := rfl
@[simp] theorem State.setEms_dmas (s : State) (v : KMap (List EmEnt)) : (s.setEms v).dmas = s.dmas := rfl
@[simp] theorem State.setThreads_cfg (s : State) (v : KMap Thread) : (s.setThreads v).cfg = s.cfg := rfl
@[simp] theorem State.setThreads_pending (s : State) (v : KMap Thread) : (s.setThreads v).pending = s.pending := rfl
@[simp] theorem State.setThreads_regs (s : State) (v : KMap Thread) : (s.setThreads v).regs = s.regs := rfl
@[simp] theorem State.setThreads_stage (s : State) (v : KMap Thread) : (s.setThreads v).stage = s.stage := rfl
@[simp] theorem State.setThreads_hold (s : State) (v : KMap Thread) : (s.setThreads v).hold = s.hold := rfl
@[simp] theorem State.setThreads_slv (s : State) (v : KMap Thread) : (s.setThreads v).slv = s.slv := rfl
@[simp] theorem State.setThreads_out (s : State) (v : KMap Thread) : (s.setThreads v).out = s.out := rfl
@[simp] theorem State.setThreads_ticks (s : State) (v : KMap Thread) : (s.setThreads v).ticks = s.ticks := rfl
@[simp] theorem State.setThreads_free (s : State) (v : KMap Thread) : (s.setThreads v).free = s.free := rfl
@[simp] theorem State.setThreads_rst (s : State) (v : KMap Thread) : (s.setThreads v).rst = s.rst := rfl
@[simp] theorem State.setThreads_req (s : State) (v : KMap Thread) : (s.setThreads v).req = s.req := rfl
@[simp] theorem State.setThreads_halves (s : State) (v : KMap Thread) : (s.setThreads v).halves = s.halves := rfl
@[simp] theorem State.setThreads_settle (s : State) (v : KMap Thread) : (s.setThreads v).settle = s.settle := rfl
@[simp] theorem State.setThreads_tbs (s : State) (v : KMap Thread) : (s.setThreads v).tbs = s.tbs := rfl
@[simp] theorem State.setThreads_pps (s : State) (v : KMap Thread) : (s.setThreads v).pps = s.pps := rfl
@[simp] theorem State.setThreads_gens (s : State) (v : KMap Thread) : (s.setThreads v).gens = s.gens := rfl
@[simp] theorem State.setThreads_trigs (s : State) (v : KMap Thread) : (s.setThreads v).trigs = s.trigs := rfl
@[simp] theorem State.setThreads_frames (s : State) (v : KMap Thread) : (s.setThreads v).frames = s.frames := rfl
@[simp] theorem State.setThreads_nextFrame (s : State) (v : KMap Thread) : (s.setThreads v).nextFrame = s.nextFrame := rfl
@[simp] theorem State.setThreads_ports (s : State) (v : KMap Thread) : (s.setThreads v).ports = s.ports := rfl
@[simp] theorem State.setThreads_taken (s : State) (v : KMap Thread) : (s.setThreads v).taken = s.taken := rfl
@[simp] theorem State.setThreads_latches (s : State) (v : KMap Thread) : (s.setThreads v).latches = s.latches := rfl
@[simp] theorem State.setThreads_doms (s : State) (v : KMap Thread) : (s.setThreads v).doms = s.doms := rfl
@[simp] theorem State.setThreads_gasp (s : State) (v : KMap Thread) : (s.setThreads v).gasp = s.gasp := rfl
@[simp] theorem State.setThreads_dic (s : State) (v : KMap Thread) : (s.setThreads v).dic = s.dic := rfl
@[simp] theorem State.setThreads_flt (s : State) (v : KMap Thread) : (s.setThreads v).flt = s.flt := rfl
@[simp] theorem State.setThreads_trunks (s : State) (v : KMap Thread) : (s.setThreads v).trunks = s.trunks := rfl
@[simp] theorem State.setThreads_slots (s : State) (v : KMap Thread) : (s.setThreads v).slots = s.slots := rfl
@[simp] theorem State.setThreads_node (s : State) (v : KMap Thread) : (s.setThreads v).node = s.node := rfl
@[simp] theorem State.setThreads_pipes (s : State) (v : KMap Thread) : (s.setThreads v).pipes = s.pipes := rfl
@[simp] theorem State.setThreads_graph (s : State) (v : KMap Thread) : (s.setThreads v).graph = s.graph := rfl
@[simp] theorem State.setThreads_gload (s : State) (v : KMap Thread) : (s.setThreads v).gload = s.gload := rfl
@[simp] theorem State.setThreads_cls (s : State) (v : KMap Thread) : (s.setThreads v).cls = s.cls := rfl
@[simp] theorem State.setThreads_ems (s : State) (v : KMap Thread) : (s.setThreads v).ems = s.ems := rfl
@[simp] theorem State.setThreads_threads (s : State) (v : KMap Thread) : (s.setThreads v).threads = v := rfl
@[simp] theorem State.setThreads_wheel (s : State) (v : KMap Thread) : (s.setThreads v).wheel = s.wheel := rfl
@[simp] theorem State.setThreads_emem (s : State) (v : KMap Thread) : (s.setThreads v).emem = s.emem := rfl
@[simp] theorem State.setThreads_splices (s : State) (v : KMap Thread) : (s.setThreads v).splices = s.splices := rfl
@[simp] theorem State.setThreads_funcs (s : State) (v : KMap Thread) : (s.setThreads v).funcs = s.funcs := rfl
@[simp] theorem State.setThreads_qps (s : State) (v : KMap Thread) : (s.setThreads v).qps = s.qps := rfl
@[simp] theorem State.setThreads_binds (s : State) (v : KMap Thread) : (s.setThreads v).binds = s.binds := rfl
@[simp] theorem State.setThreads_admin (s : State) (v : KMap Thread) : (s.setThreads v).admin = s.admin := rfl
@[simp] theorem State.setThreads_mem (s : State) (v : KMap Thread) : (s.setThreads v).mem = s.mem := rfl
@[simp] theorem State.setThreads_chks (s : State) (v : KMap Thread) : (s.setThreads v).chks = s.chks := rfl
@[simp] theorem State.setThreads_dmas (s : State) (v : KMap Thread) : (s.setThreads v).dmas = s.dmas := rfl
@[simp] theorem State.setWheel_cfg (s : State) (v : KMap Nat) : (s.setWheel v).cfg = s.cfg := rfl
@[simp] theorem State.setWheel_pending (s : State) (v : KMap Nat) : (s.setWheel v).pending = s.pending := rfl
@[simp] theorem State.setWheel_regs (s : State) (v : KMap Nat) : (s.setWheel v).regs = s.regs := rfl
@[simp] theorem State.setWheel_stage (s : State) (v : KMap Nat) : (s.setWheel v).stage = s.stage := rfl
@[simp] theorem State.setWheel_hold (s : State) (v : KMap Nat) : (s.setWheel v).hold = s.hold := rfl
@[simp] theorem State.setWheel_slv (s : State) (v : KMap Nat) : (s.setWheel v).slv = s.slv := rfl
@[simp] theorem State.setWheel_out (s : State) (v : KMap Nat) : (s.setWheel v).out = s.out := rfl
@[simp] theorem State.setWheel_ticks (s : State) (v : KMap Nat) : (s.setWheel v).ticks = s.ticks := rfl
@[simp] theorem State.setWheel_free (s : State) (v : KMap Nat) : (s.setWheel v).free = s.free := rfl
@[simp] theorem State.setWheel_rst (s : State) (v : KMap Nat) : (s.setWheel v).rst = s.rst := rfl
@[simp] theorem State.setWheel_req (s : State) (v : KMap Nat) : (s.setWheel v).req = s.req := rfl
@[simp] theorem State.setWheel_halves (s : State) (v : KMap Nat) : (s.setWheel v).halves = s.halves := rfl
@[simp] theorem State.setWheel_settle (s : State) (v : KMap Nat) : (s.setWheel v).settle = s.settle := rfl
@[simp] theorem State.setWheel_tbs (s : State) (v : KMap Nat) : (s.setWheel v).tbs = s.tbs := rfl
@[simp] theorem State.setWheel_pps (s : State) (v : KMap Nat) : (s.setWheel v).pps = s.pps := rfl
@[simp] theorem State.setWheel_gens (s : State) (v : KMap Nat) : (s.setWheel v).gens = s.gens := rfl
@[simp] theorem State.setWheel_trigs (s : State) (v : KMap Nat) : (s.setWheel v).trigs = s.trigs := rfl
@[simp] theorem State.setWheel_frames (s : State) (v : KMap Nat) : (s.setWheel v).frames = s.frames := rfl
@[simp] theorem State.setWheel_nextFrame (s : State) (v : KMap Nat) : (s.setWheel v).nextFrame = s.nextFrame := rfl
@[simp] theorem State.setWheel_ports (s : State) (v : KMap Nat) : (s.setWheel v).ports = s.ports := rfl
@[simp] theorem State.setWheel_taken (s : State) (v : KMap Nat) : (s.setWheel v).taken = s.taken := rfl
@[simp] theorem State.setWheel_latches (s : State) (v : KMap Nat) : (s.setWheel v).latches = s.latches := rfl
@[simp] theorem State.setWheel_doms (s : State) (v : KMap Nat) : (s.setWheel v).doms = s.doms := rfl
@[simp] theorem State.setWheel_gasp (s : State) (v : KMap Nat) : (s.setWheel v).gasp = s.gasp := rfl
@[simp] theorem State.setWheel_dic (s : State) (v : KMap Nat) : (s.setWheel v).dic = s.dic := rfl
@[simp] theorem State.setWheel_flt (s : State) (v : KMap Nat) : (s.setWheel v).flt = s.flt := rfl
@[simp] theorem State.setWheel_trunks (s : State) (v : KMap Nat) : (s.setWheel v).trunks = s.trunks := rfl
@[simp] theorem State.setWheel_slots (s : State) (v : KMap Nat) : (s.setWheel v).slots = s.slots := rfl
@[simp] theorem State.setWheel_node (s : State) (v : KMap Nat) : (s.setWheel v).node = s.node := rfl
@[simp] theorem State.setWheel_pipes (s : State) (v : KMap Nat) : (s.setWheel v).pipes = s.pipes := rfl
@[simp] theorem State.setWheel_graph (s : State) (v : KMap Nat) : (s.setWheel v).graph = s.graph := rfl
@[simp] theorem State.setWheel_gload (s : State) (v : KMap Nat) : (s.setWheel v).gload = s.gload := rfl
@[simp] theorem State.setWheel_cls (s : State) (v : KMap Nat) : (s.setWheel v).cls = s.cls := rfl
@[simp] theorem State.setWheel_ems (s : State) (v : KMap Nat) : (s.setWheel v).ems = s.ems := rfl
@[simp] theorem State.setWheel_threads (s : State) (v : KMap Nat) : (s.setWheel v).threads = s.threads := rfl
@[simp] theorem State.setWheel_wheel (s : State) (v : KMap Nat) : (s.setWheel v).wheel = v := rfl
@[simp] theorem State.setWheel_emem (s : State) (v : KMap Nat) : (s.setWheel v).emem = s.emem := rfl
@[simp] theorem State.setWheel_splices (s : State) (v : KMap Nat) : (s.setWheel v).splices = s.splices := rfl
@[simp] theorem State.setWheel_funcs (s : State) (v : KMap Nat) : (s.setWheel v).funcs = s.funcs := rfl
@[simp] theorem State.setWheel_qps (s : State) (v : KMap Nat) : (s.setWheel v).qps = s.qps := rfl
@[simp] theorem State.setWheel_binds (s : State) (v : KMap Nat) : (s.setWheel v).binds = s.binds := rfl
@[simp] theorem State.setWheel_admin (s : State) (v : KMap Nat) : (s.setWheel v).admin = s.admin := rfl
@[simp] theorem State.setWheel_mem (s : State) (v : KMap Nat) : (s.setWheel v).mem = s.mem := rfl
@[simp] theorem State.setWheel_chks (s : State) (v : KMap Nat) : (s.setWheel v).chks = s.chks := rfl
@[simp] theorem State.setWheel_dmas (s : State) (v : KMap Nat) : (s.setWheel v).dmas = s.dmas := rfl
@[simp] theorem State.setEmem_cfg (s : State) (v : KMap Byte) : (s.setEmem v).cfg = s.cfg := rfl
@[simp] theorem State.setEmem_pending (s : State) (v : KMap Byte) : (s.setEmem v).pending = s.pending := rfl
@[simp] theorem State.setEmem_regs (s : State) (v : KMap Byte) : (s.setEmem v).regs = s.regs := rfl
@[simp] theorem State.setEmem_stage (s : State) (v : KMap Byte) : (s.setEmem v).stage = s.stage := rfl
@[simp] theorem State.setEmem_hold (s : State) (v : KMap Byte) : (s.setEmem v).hold = s.hold := rfl
@[simp] theorem State.setEmem_slv (s : State) (v : KMap Byte) : (s.setEmem v).slv = s.slv := rfl
@[simp] theorem State.setEmem_out (s : State) (v : KMap Byte) : (s.setEmem v).out = s.out := rfl
@[simp] theorem State.setEmem_ticks (s : State) (v : KMap Byte) : (s.setEmem v).ticks = s.ticks := rfl
@[simp] theorem State.setEmem_free (s : State) (v : KMap Byte) : (s.setEmem v).free = s.free := rfl
@[simp] theorem State.setEmem_rst (s : State) (v : KMap Byte) : (s.setEmem v).rst = s.rst := rfl
@[simp] theorem State.setEmem_req (s : State) (v : KMap Byte) : (s.setEmem v).req = s.req := rfl
@[simp] theorem State.setEmem_halves (s : State) (v : KMap Byte) : (s.setEmem v).halves = s.halves := rfl
@[simp] theorem State.setEmem_settle (s : State) (v : KMap Byte) : (s.setEmem v).settle = s.settle := rfl
@[simp] theorem State.setEmem_tbs (s : State) (v : KMap Byte) : (s.setEmem v).tbs = s.tbs := rfl
@[simp] theorem State.setEmem_pps (s : State) (v : KMap Byte) : (s.setEmem v).pps = s.pps := rfl
@[simp] theorem State.setEmem_gens (s : State) (v : KMap Byte) : (s.setEmem v).gens = s.gens := rfl
@[simp] theorem State.setEmem_trigs (s : State) (v : KMap Byte) : (s.setEmem v).trigs = s.trigs := rfl
@[simp] theorem State.setEmem_frames (s : State) (v : KMap Byte) : (s.setEmem v).frames = s.frames := rfl
@[simp] theorem State.setEmem_nextFrame (s : State) (v : KMap Byte) : (s.setEmem v).nextFrame = s.nextFrame := rfl
@[simp] theorem State.setEmem_ports (s : State) (v : KMap Byte) : (s.setEmem v).ports = s.ports := rfl
@[simp] theorem State.setEmem_taken (s : State) (v : KMap Byte) : (s.setEmem v).taken = s.taken := rfl
@[simp] theorem State.setEmem_latches (s : State) (v : KMap Byte) : (s.setEmem v).latches = s.latches := rfl
@[simp] theorem State.setEmem_doms (s : State) (v : KMap Byte) : (s.setEmem v).doms = s.doms := rfl
@[simp] theorem State.setEmem_gasp (s : State) (v : KMap Byte) : (s.setEmem v).gasp = s.gasp := rfl
@[simp] theorem State.setEmem_dic (s : State) (v : KMap Byte) : (s.setEmem v).dic = s.dic := rfl
@[simp] theorem State.setEmem_flt (s : State) (v : KMap Byte) : (s.setEmem v).flt = s.flt := rfl
@[simp] theorem State.setEmem_trunks (s : State) (v : KMap Byte) : (s.setEmem v).trunks = s.trunks := rfl
@[simp] theorem State.setEmem_slots (s : State) (v : KMap Byte) : (s.setEmem v).slots = s.slots := rfl
@[simp] theorem State.setEmem_node (s : State) (v : KMap Byte) : (s.setEmem v).node = s.node := rfl
@[simp] theorem State.setEmem_pipes (s : State) (v : KMap Byte) : (s.setEmem v).pipes = s.pipes := rfl
@[simp] theorem State.setEmem_graph (s : State) (v : KMap Byte) : (s.setEmem v).graph = s.graph := rfl
@[simp] theorem State.setEmem_gload (s : State) (v : KMap Byte) : (s.setEmem v).gload = s.gload := rfl
@[simp] theorem State.setEmem_cls (s : State) (v : KMap Byte) : (s.setEmem v).cls = s.cls := rfl
@[simp] theorem State.setEmem_ems (s : State) (v : KMap Byte) : (s.setEmem v).ems = s.ems := rfl
@[simp] theorem State.setEmem_threads (s : State) (v : KMap Byte) : (s.setEmem v).threads = s.threads := rfl
@[simp] theorem State.setEmem_wheel (s : State) (v : KMap Byte) : (s.setEmem v).wheel = s.wheel := rfl
@[simp] theorem State.setEmem_emem (s : State) (v : KMap Byte) : (s.setEmem v).emem = v := rfl
@[simp] theorem State.setEmem_splices (s : State) (v : KMap Byte) : (s.setEmem v).splices = s.splices := rfl
@[simp] theorem State.setEmem_funcs (s : State) (v : KMap Byte) : (s.setEmem v).funcs = s.funcs := rfl
@[simp] theorem State.setEmem_qps (s : State) (v : KMap Byte) : (s.setEmem v).qps = s.qps := rfl
@[simp] theorem State.setEmem_binds (s : State) (v : KMap Byte) : (s.setEmem v).binds = s.binds := rfl
@[simp] theorem State.setEmem_admin (s : State) (v : KMap Byte) : (s.setEmem v).admin = s.admin := rfl
@[simp] theorem State.setEmem_mem (s : State) (v : KMap Byte) : (s.setEmem v).mem = s.mem := rfl
@[simp] theorem State.setEmem_chks (s : State) (v : KMap Byte) : (s.setEmem v).chks = s.chks := rfl
@[simp] theorem State.setEmem_dmas (s : State) (v : KMap Byte) : (s.setEmem v).dmas = s.dmas := rfl
@[simp] theorem State.setSplices_cfg (s : State) (v : List Splice) : (s.setSplices v).cfg = s.cfg := rfl
@[simp] theorem State.setSplices_pending (s : State) (v : List Splice) : (s.setSplices v).pending = s.pending := rfl
@[simp] theorem State.setSplices_regs (s : State) (v : List Splice) : (s.setSplices v).regs = s.regs := rfl
@[simp] theorem State.setSplices_stage (s : State) (v : List Splice) : (s.setSplices v).stage = s.stage := rfl
@[simp] theorem State.setSplices_hold (s : State) (v : List Splice) : (s.setSplices v).hold = s.hold := rfl
@[simp] theorem State.setSplices_slv (s : State) (v : List Splice) : (s.setSplices v).slv = s.slv := rfl
@[simp] theorem State.setSplices_out (s : State) (v : List Splice) : (s.setSplices v).out = s.out := rfl
@[simp] theorem State.setSplices_ticks (s : State) (v : List Splice) : (s.setSplices v).ticks = s.ticks := rfl
@[simp] theorem State.setSplices_free (s : State) (v : List Splice) : (s.setSplices v).free = s.free := rfl
@[simp] theorem State.setSplices_rst (s : State) (v : List Splice) : (s.setSplices v).rst = s.rst := rfl
@[simp] theorem State.setSplices_req (s : State) (v : List Splice) : (s.setSplices v).req = s.req := rfl
@[simp] theorem State.setSplices_halves (s : State) (v : List Splice) : (s.setSplices v).halves = s.halves := rfl
@[simp] theorem State.setSplices_settle (s : State) (v : List Splice) : (s.setSplices v).settle = s.settle := rfl
@[simp] theorem State.setSplices_tbs (s : State) (v : List Splice) : (s.setSplices v).tbs = s.tbs := rfl
@[simp] theorem State.setSplices_pps (s : State) (v : List Splice) : (s.setSplices v).pps = s.pps := rfl
@[simp] theorem State.setSplices_gens (s : State) (v : List Splice) : (s.setSplices v).gens = s.gens := rfl
@[simp] theorem State.setSplices_trigs (s : State) (v : List Splice) : (s.setSplices v).trigs = s.trigs := rfl
@[simp] theorem State.setSplices_frames (s : State) (v : List Splice) : (s.setSplices v).frames = s.frames := rfl
@[simp] theorem State.setSplices_nextFrame (s : State) (v : List Splice) : (s.setSplices v).nextFrame = s.nextFrame := rfl
@[simp] theorem State.setSplices_ports (s : State) (v : List Splice) : (s.setSplices v).ports = s.ports := rfl
@[simp] theorem State.setSplices_taken (s : State) (v : List Splice) : (s.setSplices v).taken = s.taken := rfl
@[simp] theorem State.setSplices_latches (s : State) (v : List Splice) : (s.setSplices v).latches = s.latches := rfl
@[simp] theorem State.setSplices_doms (s : State) (v : List Splice) : (s.setSplices v).doms = s.doms := rfl
@[simp] theorem State.setSplices_gasp (s : State) (v : List Splice) : (s.setSplices v).gasp = s.gasp := rfl
@[simp] theorem State.setSplices_dic (s : State) (v : List Splice) : (s.setSplices v).dic = s.dic := rfl
@[simp] theorem State.setSplices_flt (s : State) (v : List Splice) : (s.setSplices v).flt = s.flt := rfl
@[simp] theorem State.setSplices_trunks (s : State) (v : List Splice) : (s.setSplices v).trunks = s.trunks := rfl
@[simp] theorem State.setSplices_slots (s : State) (v : List Splice) : (s.setSplices v).slots = s.slots := rfl
@[simp] theorem State.setSplices_node (s : State) (v : List Splice) : (s.setSplices v).node = s.node := rfl
@[simp] theorem State.setSplices_pipes (s : State) (v : List Splice) : (s.setSplices v).pipes = s.pipes := rfl
@[simp] theorem State.setSplices_graph (s : State) (v : List Splice) : (s.setSplices v).graph = s.graph := rfl
@[simp] theorem State.setSplices_gload (s : State) (v : List Splice) : (s.setSplices v).gload = s.gload := rfl
@[simp] theorem State.setSplices_cls (s : State) (v : List Splice) : (s.setSplices v).cls = s.cls := rfl
@[simp] theorem State.setSplices_ems (s : State) (v : List Splice) : (s.setSplices v).ems = s.ems := rfl
@[simp] theorem State.setSplices_threads (s : State) (v : List Splice) : (s.setSplices v).threads = s.threads := rfl
@[simp] theorem State.setSplices_wheel (s : State) (v : List Splice) : (s.setSplices v).wheel = s.wheel := rfl
@[simp] theorem State.setSplices_emem (s : State) (v : List Splice) : (s.setSplices v).emem = s.emem := rfl
@[simp] theorem State.setSplices_splices (s : State) (v : List Splice) : (s.setSplices v).splices = v := rfl
@[simp] theorem State.setSplices_funcs (s : State) (v : List Splice) : (s.setSplices v).funcs = s.funcs := rfl
@[simp] theorem State.setSplices_qps (s : State) (v : List Splice) : (s.setSplices v).qps = s.qps := rfl
@[simp] theorem State.setSplices_binds (s : State) (v : List Splice) : (s.setSplices v).binds = s.binds := rfl
@[simp] theorem State.setSplices_admin (s : State) (v : List Splice) : (s.setSplices v).admin = s.admin := rfl
@[simp] theorem State.setSplices_mem (s : State) (v : List Splice) : (s.setSplices v).mem = s.mem := rfl
@[simp] theorem State.setSplices_chks (s : State) (v : List Splice) : (s.setSplices v).chks = s.chks := rfl
@[simp] theorem State.setSplices_dmas (s : State) (v : List Splice) : (s.setSplices v).dmas = s.dmas := rfl
@[simp] theorem State.setFuncs_cfg (s : State) (v : KMap Func) : (s.setFuncs v).cfg = s.cfg := rfl
@[simp] theorem State.setFuncs_pending (s : State) (v : KMap Func) : (s.setFuncs v).pending = s.pending := rfl
@[simp] theorem State.setFuncs_regs (s : State) (v : KMap Func) : (s.setFuncs v).regs = s.regs := rfl
@[simp] theorem State.setFuncs_stage (s : State) (v : KMap Func) : (s.setFuncs v).stage = s.stage := rfl
@[simp] theorem State.setFuncs_hold (s : State) (v : KMap Func) : (s.setFuncs v).hold = s.hold := rfl
@[simp] theorem State.setFuncs_slv (s : State) (v : KMap Func) : (s.setFuncs v).slv = s.slv := rfl
@[simp] theorem State.setFuncs_out (s : State) (v : KMap Func) : (s.setFuncs v).out = s.out := rfl
@[simp] theorem State.setFuncs_ticks (s : State) (v : KMap Func) : (s.setFuncs v).ticks = s.ticks := rfl
@[simp] theorem State.setFuncs_free (s : State) (v : KMap Func) : (s.setFuncs v).free = s.free := rfl
@[simp] theorem State.setFuncs_rst (s : State) (v : KMap Func) : (s.setFuncs v).rst = s.rst := rfl
@[simp] theorem State.setFuncs_req (s : State) (v : KMap Func) : (s.setFuncs v).req = s.req := rfl
@[simp] theorem State.setFuncs_halves (s : State) (v : KMap Func) : (s.setFuncs v).halves = s.halves := rfl
@[simp] theorem State.setFuncs_settle (s : State) (v : KMap Func) : (s.setFuncs v).settle = s.settle := rfl
@[simp] theorem State.setFuncs_tbs (s : State) (v : KMap Func) : (s.setFuncs v).tbs = s.tbs := rfl
@[simp] theorem State.setFuncs_pps (s : State) (v : KMap Func) : (s.setFuncs v).pps = s.pps := rfl
@[simp] theorem State.setFuncs_gens (s : State) (v : KMap Func) : (s.setFuncs v).gens = s.gens := rfl
@[simp] theorem State.setFuncs_trigs (s : State) (v : KMap Func) : (s.setFuncs v).trigs = s.trigs := rfl
@[simp] theorem State.setFuncs_frames (s : State) (v : KMap Func) : (s.setFuncs v).frames = s.frames := rfl
@[simp] theorem State.setFuncs_nextFrame (s : State) (v : KMap Func) : (s.setFuncs v).nextFrame = s.nextFrame := rfl
@[simp] theorem State.setFuncs_ports (s : State) (v : KMap Func) : (s.setFuncs v).ports = s.ports := rfl
@[simp] theorem State.setFuncs_taken (s : State) (v : KMap Func) : (s.setFuncs v).taken = s.taken := rfl
@[simp] theorem State.setFuncs_latches (s : State) (v : KMap Func) : (s.setFuncs v).latches = s.latches := rfl
@[simp] theorem State.setFuncs_doms (s : State) (v : KMap Func) : (s.setFuncs v).doms = s.doms := rfl
@[simp] theorem State.setFuncs_gasp (s : State) (v : KMap Func) : (s.setFuncs v).gasp = s.gasp := rfl
@[simp] theorem State.setFuncs_dic (s : State) (v : KMap Func) : (s.setFuncs v).dic = s.dic := rfl
@[simp] theorem State.setFuncs_flt (s : State) (v : KMap Func) : (s.setFuncs v).flt = s.flt := rfl
@[simp] theorem State.setFuncs_trunks (s : State) (v : KMap Func) : (s.setFuncs v).trunks = s.trunks := rfl
@[simp] theorem State.setFuncs_slots (s : State) (v : KMap Func) : (s.setFuncs v).slots = s.slots := rfl
@[simp] theorem State.setFuncs_node (s : State) (v : KMap Func) : (s.setFuncs v).node = s.node := rfl
@[simp] theorem State.setFuncs_pipes (s : State) (v : KMap Func) : (s.setFuncs v).pipes = s.pipes := rfl
@[simp] theorem State.setFuncs_graph (s : State) (v : KMap Func) : (s.setFuncs v).graph = s.graph := rfl
@[simp] theorem State.setFuncs_gload (s : State) (v : KMap Func) : (s.setFuncs v).gload = s.gload := rfl
@[simp] theorem State.setFuncs_cls (s : State) (v : KMap Func) : (s.setFuncs v).cls = s.cls := rfl
@[simp] theorem State.setFuncs_ems (s : State) (v : KMap Func) : (s.setFuncs v).ems = s.ems := rfl
@[simp] theorem State.setFuncs_threads (s : State) (v : KMap Func) : (s.setFuncs v).threads = s.threads := rfl
@[simp] theorem State.setFuncs_wheel (s : State) (v : KMap Func) : (s.setFuncs v).wheel = s.wheel := rfl
@[simp] theorem State.setFuncs_emem (s : State) (v : KMap Func) : (s.setFuncs v).emem = s.emem := rfl
@[simp] theorem State.setFuncs_splices (s : State) (v : KMap Func) : (s.setFuncs v).splices = s.splices := rfl
@[simp] theorem State.setFuncs_funcs (s : State) (v : KMap Func) : (s.setFuncs v).funcs = v := rfl
@[simp] theorem State.setFuncs_qps (s : State) (v : KMap Func) : (s.setFuncs v).qps = s.qps := rfl
@[simp] theorem State.setFuncs_binds (s : State) (v : KMap Func) : (s.setFuncs v).binds = s.binds := rfl
@[simp] theorem State.setFuncs_admin (s : State) (v : KMap Func) : (s.setFuncs v).admin = s.admin := rfl
@[simp] theorem State.setFuncs_mem (s : State) (v : KMap Func) : (s.setFuncs v).mem = s.mem := rfl
@[simp] theorem State.setFuncs_chks (s : State) (v : KMap Func) : (s.setFuncs v).chks = s.chks := rfl
@[simp] theorem State.setFuncs_dmas (s : State) (v : KMap Func) : (s.setFuncs v).dmas = s.dmas := rfl
@[simp] theorem State.setQps_cfg (s : State) (v : KMap Qp) : (s.setQps v).cfg = s.cfg := rfl
@[simp] theorem State.setQps_pending (s : State) (v : KMap Qp) : (s.setQps v).pending = s.pending := rfl
@[simp] theorem State.setQps_regs (s : State) (v : KMap Qp) : (s.setQps v).regs = s.regs := rfl
@[simp] theorem State.setQps_stage (s : State) (v : KMap Qp) : (s.setQps v).stage = s.stage := rfl
@[simp] theorem State.setQps_hold (s : State) (v : KMap Qp) : (s.setQps v).hold = s.hold := rfl
@[simp] theorem State.setQps_slv (s : State) (v : KMap Qp) : (s.setQps v).slv = s.slv := rfl
@[simp] theorem State.setQps_out (s : State) (v : KMap Qp) : (s.setQps v).out = s.out := rfl
@[simp] theorem State.setQps_ticks (s : State) (v : KMap Qp) : (s.setQps v).ticks = s.ticks := rfl
@[simp] theorem State.setQps_free (s : State) (v : KMap Qp) : (s.setQps v).free = s.free := rfl
@[simp] theorem State.setQps_rst (s : State) (v : KMap Qp) : (s.setQps v).rst = s.rst := rfl
@[simp] theorem State.setQps_req (s : State) (v : KMap Qp) : (s.setQps v).req = s.req := rfl
@[simp] theorem State.setQps_halves (s : State) (v : KMap Qp) : (s.setQps v).halves = s.halves := rfl
@[simp] theorem State.setQps_settle (s : State) (v : KMap Qp) : (s.setQps v).settle = s.settle := rfl
@[simp] theorem State.setQps_tbs (s : State) (v : KMap Qp) : (s.setQps v).tbs = s.tbs := rfl
@[simp] theorem State.setQps_pps (s : State) (v : KMap Qp) : (s.setQps v).pps = s.pps := rfl
@[simp] theorem State.setQps_gens (s : State) (v : KMap Qp) : (s.setQps v).gens = s.gens := rfl
@[simp] theorem State.setQps_trigs (s : State) (v : KMap Qp) : (s.setQps v).trigs = s.trigs := rfl
@[simp] theorem State.setQps_frames (s : State) (v : KMap Qp) : (s.setQps v).frames = s.frames := rfl
@[simp] theorem State.setQps_nextFrame (s : State) (v : KMap Qp) : (s.setQps v).nextFrame = s.nextFrame := rfl
@[simp] theorem State.setQps_ports (s : State) (v : KMap Qp) : (s.setQps v).ports = s.ports := rfl
@[simp] theorem State.setQps_taken (s : State) (v : KMap Qp) : (s.setQps v).taken = s.taken := rfl
@[simp] theorem State.setQps_latches (s : State) (v : KMap Qp) : (s.setQps v).latches = s.latches := rfl
@[simp] theorem State.setQps_doms (s : State) (v : KMap Qp) : (s.setQps v).doms = s.doms := rfl
@[simp] theorem State.setQps_gasp (s : State) (v : KMap Qp) : (s.setQps v).gasp = s.gasp := rfl
@[simp] theorem State.setQps_dic (s : State) (v : KMap Qp) : (s.setQps v).dic = s.dic := rfl
@[simp] theorem State.setQps_flt (s : State) (v : KMap Qp) : (s.setQps v).flt = s.flt := rfl
@[simp] theorem State.setQps_trunks (s : State) (v : KMap Qp) : (s.setQps v).trunks = s.trunks := rfl
@[simp] theorem State.setQps_slots (s : State) (v : KMap Qp) : (s.setQps v).slots = s.slots := rfl
@[simp] theorem State.setQps_node (s : State) (v : KMap Qp) : (s.setQps v).node = s.node := rfl
@[simp] theorem State.setQps_pipes (s : State) (v : KMap Qp) : (s.setQps v).pipes = s.pipes := rfl
@[simp] theorem State.setQps_graph (s : State) (v : KMap Qp) : (s.setQps v).graph = s.graph := rfl
@[simp] theorem State.setQps_gload (s : State) (v : KMap Qp) : (s.setQps v).gload = s.gload := rfl
@[simp] theorem State.setQps_cls (s : State) (v : KMap Qp) : (s.setQps v).cls = s.cls := rfl
@[simp] theorem State.setQps_ems (s : State) (v : KMap Qp) : (s.setQps v).ems = s.ems := rfl
@[simp] theorem State.setQps_threads (s : State) (v : KMap Qp) : (s.setQps v).threads = s.threads := rfl
@[simp] theorem State.setQps_wheel (s : State) (v : KMap Qp) : (s.setQps v).wheel = s.wheel := rfl
@[simp] theorem State.setQps_emem (s : State) (v : KMap Qp) : (s.setQps v).emem = s.emem := rfl
@[simp] theorem State.setQps_splices (s : State) (v : KMap Qp) : (s.setQps v).splices = s.splices := rfl
@[simp] theorem State.setQps_funcs (s : State) (v : KMap Qp) : (s.setQps v).funcs = s.funcs := rfl
@[simp] theorem State.setQps_qps (s : State) (v : KMap Qp) : (s.setQps v).qps = v := rfl
@[simp] theorem State.setQps_binds (s : State) (v : KMap Qp) : (s.setQps v).binds = s.binds := rfl
@[simp] theorem State.setQps_admin (s : State) (v : KMap Qp) : (s.setQps v).admin = s.admin := rfl
@[simp] theorem State.setQps_mem (s : State) (v : KMap Qp) : (s.setQps v).mem = s.mem := rfl
@[simp] theorem State.setQps_chks (s : State) (v : KMap Qp) : (s.setQps v).chks = s.chks := rfl
@[simp] theorem State.setQps_dmas (s : State) (v : KMap Qp) : (s.setQps v).dmas = s.dmas := rfl
@[simp] theorem State.setBinds_cfg (s : State) (v : KMap Nat) : (s.setBinds v).cfg = s.cfg := rfl
@[simp] theorem State.setBinds_pending (s : State) (v : KMap Nat) : (s.setBinds v).pending = s.pending := rfl
@[simp] theorem State.setBinds_regs (s : State) (v : KMap Nat) : (s.setBinds v).regs = s.regs := rfl
@[simp] theorem State.setBinds_stage (s : State) (v : KMap Nat) : (s.setBinds v).stage = s.stage := rfl
@[simp] theorem State.setBinds_hold (s : State) (v : KMap Nat) : (s.setBinds v).hold = s.hold := rfl
@[simp] theorem State.setBinds_slv (s : State) (v : KMap Nat) : (s.setBinds v).slv = s.slv := rfl
@[simp] theorem State.setBinds_out (s : State) (v : KMap Nat) : (s.setBinds v).out = s.out := rfl
@[simp] theorem State.setBinds_ticks (s : State) (v : KMap Nat) : (s.setBinds v).ticks = s.ticks := rfl
@[simp] theorem State.setBinds_free (s : State) (v : KMap Nat) : (s.setBinds v).free = s.free := rfl
@[simp] theorem State.setBinds_rst (s : State) (v : KMap Nat) : (s.setBinds v).rst = s.rst := rfl
@[simp] theorem State.setBinds_req (s : State) (v : KMap Nat) : (s.setBinds v).req = s.req := rfl
@[simp] theorem State.setBinds_halves (s : State) (v : KMap Nat) : (s.setBinds v).halves = s.halves := rfl
@[simp] theorem State.setBinds_settle (s : State) (v : KMap Nat) : (s.setBinds v).settle = s.settle := rfl
@[simp] theorem State.setBinds_tbs (s : State) (v : KMap Nat) : (s.setBinds v).tbs = s.tbs := rfl
@[simp] theorem State.setBinds_pps (s : State) (v : KMap Nat) : (s.setBinds v).pps = s.pps := rfl
@[simp] theorem State.setBinds_gens (s : State) (v : KMap Nat) : (s.setBinds v).gens = s.gens := rfl
@[simp] theorem State.setBinds_trigs (s : State) (v : KMap Nat) : (s.setBinds v).trigs = s.trigs := rfl
@[simp] theorem State.setBinds_frames (s : State) (v : KMap Nat) : (s.setBinds v).frames = s.frames := rfl
@[simp] theorem State.setBinds_nextFrame (s : State) (v : KMap Nat) : (s.setBinds v).nextFrame = s.nextFrame := rfl
@[simp] theorem State.setBinds_ports (s : State) (v : KMap Nat) : (s.setBinds v).ports = s.ports := rfl
@[simp] theorem State.setBinds_taken (s : State) (v : KMap Nat) : (s.setBinds v).taken = s.taken := rfl
@[simp] theorem State.setBinds_latches (s : State) (v : KMap Nat) : (s.setBinds v).latches = s.latches := rfl
@[simp] theorem State.setBinds_doms (s : State) (v : KMap Nat) : (s.setBinds v).doms = s.doms := rfl
@[simp] theorem State.setBinds_gasp (s : State) (v : KMap Nat) : (s.setBinds v).gasp = s.gasp := rfl
@[simp] theorem State.setBinds_dic (s : State) (v : KMap Nat) : (s.setBinds v).dic = s.dic := rfl
@[simp] theorem State.setBinds_flt (s : State) (v : KMap Nat) : (s.setBinds v).flt = s.flt := rfl
@[simp] theorem State.setBinds_trunks (s : State) (v : KMap Nat) : (s.setBinds v).trunks = s.trunks := rfl
@[simp] theorem State.setBinds_slots (s : State) (v : KMap Nat) : (s.setBinds v).slots = s.slots := rfl
@[simp] theorem State.setBinds_node (s : State) (v : KMap Nat) : (s.setBinds v).node = s.node := rfl
@[simp] theorem State.setBinds_pipes (s : State) (v : KMap Nat) : (s.setBinds v).pipes = s.pipes := rfl
@[simp] theorem State.setBinds_graph (s : State) (v : KMap Nat) : (s.setBinds v).graph = s.graph := rfl
@[simp] theorem State.setBinds_gload (s : State) (v : KMap Nat) : (s.setBinds v).gload = s.gload := rfl
@[simp] theorem State.setBinds_cls (s : State) (v : KMap Nat) : (s.setBinds v).cls = s.cls := rfl
@[simp] theorem State.setBinds_ems (s : State) (v : KMap Nat) : (s.setBinds v).ems = s.ems := rfl
@[simp] theorem State.setBinds_threads (s : State) (v : KMap Nat) : (s.setBinds v).threads = s.threads := rfl
@[simp] theorem State.setBinds_wheel (s : State) (v : KMap Nat) : (s.setBinds v).wheel = s.wheel := rfl
@[simp] theorem State.setBinds_emem (s : State) (v : KMap Nat) : (s.setBinds v).emem = s.emem := rfl
@[simp] theorem State.setBinds_splices (s : State) (v : KMap Nat) : (s.setBinds v).splices = s.splices := rfl
@[simp] theorem State.setBinds_funcs (s : State) (v : KMap Nat) : (s.setBinds v).funcs = s.funcs := rfl
@[simp] theorem State.setBinds_qps (s : State) (v : KMap Nat) : (s.setBinds v).qps = s.qps := rfl
@[simp] theorem State.setBinds_binds (s : State) (v : KMap Nat) : (s.setBinds v).binds = v := rfl
@[simp] theorem State.setBinds_admin (s : State) (v : KMap Nat) : (s.setBinds v).admin = s.admin := rfl
@[simp] theorem State.setBinds_mem (s : State) (v : KMap Nat) : (s.setBinds v).mem = s.mem := rfl
@[simp] theorem State.setBinds_chks (s : State) (v : KMap Nat) : (s.setBinds v).chks = s.chks := rfl
@[simp] theorem State.setBinds_dmas (s : State) (v : KMap Nat) : (s.setBinds v).dmas = s.dmas := rfl
@[simp] theorem State.setAdmin_cfg (s : State) (v : Admin) : (s.setAdmin v).cfg = s.cfg := rfl
@[simp] theorem State.setAdmin_pending (s : State) (v : Admin) : (s.setAdmin v).pending = s.pending := rfl
@[simp] theorem State.setAdmin_regs (s : State) (v : Admin) : (s.setAdmin v).regs = s.regs := rfl
@[simp] theorem State.setAdmin_stage (s : State) (v : Admin) : (s.setAdmin v).stage = s.stage := rfl
@[simp] theorem State.setAdmin_hold (s : State) (v : Admin) : (s.setAdmin v).hold = s.hold := rfl
@[simp] theorem State.setAdmin_slv (s : State) (v : Admin) : (s.setAdmin v).slv = s.slv := rfl
@[simp] theorem State.setAdmin_out (s : State) (v : Admin) : (s.setAdmin v).out = s.out := rfl
@[simp] theorem State.setAdmin_ticks (s : State) (v : Admin) : (s.setAdmin v).ticks = s.ticks := rfl
@[simp] theorem State.setAdmin_free (s : State) (v : Admin) : (s.setAdmin v).free = s.free := rfl
@[simp] theorem State.setAdmin_rst (s : State) (v : Admin) : (s.setAdmin v).rst = s.rst := rfl
@[simp] theorem State.setAdmin_req (s : State) (v : Admin) : (s.setAdmin v).req = s.req := rfl
@[simp] theorem State.setAdmin_halves (s : State) (v : Admin) : (s.setAdmin v).halves = s.halves := rfl
@[simp] theorem State.setAdmin_settle (s : State) (v : Admin) : (s.setAdmin v).settle = s.settle := rfl
@[simp] theorem State.setAdmin_tbs (s : State) (v : Admin) : (s.setAdmin v).tbs = s.tbs := rfl
@[simp] theorem State.setAdmin_pps (s : State) (v : Admin) : (s.setAdmin v).pps = s.pps := rfl
@[simp] theorem State.setAdmin_gens (s : State) (v : Admin) : (s.setAdmin v).gens = s.gens := rfl
@[simp] theorem State.setAdmin_trigs (s : State) (v : Admin) : (s.setAdmin v).trigs = s.trigs := rfl
@[simp] theorem State.setAdmin_frames (s : State) (v : Admin) : (s.setAdmin v).frames = s.frames := rfl
@[simp] theorem State.setAdmin_nextFrame (s : State) (v : Admin) : (s.setAdmin v).nextFrame = s.nextFrame := rfl
@[simp] theorem State.setAdmin_ports (s : State) (v : Admin) : (s.setAdmin v).ports = s.ports := rfl
@[simp] theorem State.setAdmin_taken (s : State) (v : Admin) : (s.setAdmin v).taken = s.taken := rfl
@[simp] theorem State.setAdmin_latches (s : State) (v : Admin) : (s.setAdmin v).latches = s.latches := rfl
@[simp] theorem State.setAdmin_doms (s : State) (v : Admin) : (s.setAdmin v).doms = s.doms := rfl
@[simp] theorem State.setAdmin_gasp (s : State) (v : Admin) : (s.setAdmin v).gasp = s.gasp := rfl
@[simp] theorem State.setAdmin_dic (s : State) (v : Admin) : (s.setAdmin v).dic = s.dic := rfl
@[simp] theorem State.setAdmin_flt (s : State) (v : Admin) : (s.setAdmin v).flt = s.flt := rfl
@[simp] theorem State.setAdmin_trunks (s : State) (v : Admin) : (s.setAdmin v).trunks = s.trunks := rfl
@[simp] theorem State.setAdmin_slots (s : State) (v : Admin) : (s.setAdmin v).slots = s.slots := rfl
@[simp] theorem State.setAdmin_node (s : State) (v : Admin) : (s.setAdmin v).node = s.node := rfl
@[simp] theorem State.setAdmin_pipes (s : State) (v : Admin) : (s.setAdmin v).pipes = s.pipes := rfl
@[simp] theorem State.setAdmin_graph (s : State) (v : Admin) : (s.setAdmin v).graph = s.graph := rfl
@[simp] theorem State.setAdmin_gload (s : State) (v : Admin) : (s.setAdmin v).gload = s.gload := rfl
@[simp] theorem State.setAdmin_cls (s : State) (v : Admin) : (s.setAdmin v).cls = s.cls := rfl
@[simp] theorem State.setAdmin_ems (s : State) (v : Admin) : (s.setAdmin v).ems = s.ems := rfl
@[simp] theorem State.setAdmin_threads (s : State) (v : Admin) : (s.setAdmin v).threads = s.threads := rfl
@[simp] theorem State.setAdmin_wheel (s : State) (v : Admin) : (s.setAdmin v).wheel = s.wheel := rfl
@[simp] theorem State.setAdmin_emem (s : State) (v : Admin) : (s.setAdmin v).emem = s.emem := rfl
@[simp] theorem State.setAdmin_splices (s : State) (v : Admin) : (s.setAdmin v).splices = s.splices := rfl
@[simp] theorem State.setAdmin_funcs (s : State) (v : Admin) : (s.setAdmin v).funcs = s.funcs := rfl
@[simp] theorem State.setAdmin_qps (s : State) (v : Admin) : (s.setAdmin v).qps = s.qps := rfl
@[simp] theorem State.setAdmin_binds (s : State) (v : Admin) : (s.setAdmin v).binds = s.binds := rfl
@[simp] theorem State.setAdmin_admin (s : State) (v : Admin) : (s.setAdmin v).admin = v := rfl
@[simp] theorem State.setAdmin_mem (s : State) (v : Admin) : (s.setAdmin v).mem = s.mem := rfl
@[simp] theorem State.setAdmin_chks (s : State) (v : Admin) : (s.setAdmin v).chks = s.chks := rfl
@[simp] theorem State.setAdmin_dmas (s : State) (v : Admin) : (s.setAdmin v).dmas = s.dmas := rfl
@[simp] theorem State.setMem_cfg (s : State) (v : Mem) : (s.setMem v).cfg = s.cfg := rfl
@[simp] theorem State.setMem_pending (s : State) (v : Mem) : (s.setMem v).pending = s.pending := rfl
@[simp] theorem State.setMem_regs (s : State) (v : Mem) : (s.setMem v).regs = s.regs := rfl
@[simp] theorem State.setMem_stage (s : State) (v : Mem) : (s.setMem v).stage = s.stage := rfl
@[simp] theorem State.setMem_hold (s : State) (v : Mem) : (s.setMem v).hold = s.hold := rfl
@[simp] theorem State.setMem_slv (s : State) (v : Mem) : (s.setMem v).slv = s.slv := rfl
@[simp] theorem State.setMem_out (s : State) (v : Mem) : (s.setMem v).out = s.out := rfl
@[simp] theorem State.setMem_ticks (s : State) (v : Mem) : (s.setMem v).ticks = s.ticks := rfl
@[simp] theorem State.setMem_free (s : State) (v : Mem) : (s.setMem v).free = s.free := rfl
@[simp] theorem State.setMem_rst (s : State) (v : Mem) : (s.setMem v).rst = s.rst := rfl
@[simp] theorem State.setMem_req (s : State) (v : Mem) : (s.setMem v).req = s.req := rfl
@[simp] theorem State.setMem_halves (s : State) (v : Mem) : (s.setMem v).halves = s.halves := rfl
@[simp] theorem State.setMem_settle (s : State) (v : Mem) : (s.setMem v).settle = s.settle := rfl
@[simp] theorem State.setMem_tbs (s : State) (v : Mem) : (s.setMem v).tbs = s.tbs := rfl
@[simp] theorem State.setMem_pps (s : State) (v : Mem) : (s.setMem v).pps = s.pps := rfl
@[simp] theorem State.setMem_gens (s : State) (v : Mem) : (s.setMem v).gens = s.gens := rfl
@[simp] theorem State.setMem_trigs (s : State) (v : Mem) : (s.setMem v).trigs = s.trigs := rfl
@[simp] theorem State.setMem_frames (s : State) (v : Mem) : (s.setMem v).frames = s.frames := rfl
@[simp] theorem State.setMem_nextFrame (s : State) (v : Mem) : (s.setMem v).nextFrame = s.nextFrame := rfl
@[simp] theorem State.setMem_ports (s : State) (v : Mem) : (s.setMem v).ports = s.ports := rfl
@[simp] theorem State.setMem_taken (s : State) (v : Mem) : (s.setMem v).taken = s.taken := rfl
@[simp] theorem State.setMem_latches (s : State) (v : Mem) : (s.setMem v).latches = s.latches := rfl
@[simp] theorem State.setMem_doms (s : State) (v : Mem) : (s.setMem v).doms = s.doms := rfl
@[simp] theorem State.setMem_gasp (s : State) (v : Mem) : (s.setMem v).gasp = s.gasp := rfl
@[simp] theorem State.setMem_dic (s : State) (v : Mem) : (s.setMem v).dic = s.dic := rfl
@[simp] theorem State.setMem_flt (s : State) (v : Mem) : (s.setMem v).flt = s.flt := rfl
@[simp] theorem State.setMem_trunks (s : State) (v : Mem) : (s.setMem v).trunks = s.trunks := rfl
@[simp] theorem State.setMem_slots (s : State) (v : Mem) : (s.setMem v).slots = s.slots := rfl
@[simp] theorem State.setMem_node (s : State) (v : Mem) : (s.setMem v).node = s.node := rfl
@[simp] theorem State.setMem_pipes (s : State) (v : Mem) : (s.setMem v).pipes = s.pipes := rfl
@[simp] theorem State.setMem_graph (s : State) (v : Mem) : (s.setMem v).graph = s.graph := rfl
@[simp] theorem State.setMem_gload (s : State) (v : Mem) : (s.setMem v).gload = s.gload := rfl
@[simp] theorem State.setMem_cls (s : State) (v : Mem) : (s.setMem v).cls = s.cls := rfl
@[simp] theorem State.setMem_ems (s : State) (v : Mem) : (s.setMem v).ems = s.ems := rfl
@[simp] theorem State.setMem_threads (s : State) (v : Mem) : (s.setMem v).threads = s.threads := rfl
@[simp] theorem State.setMem_wheel (s : State) (v : Mem) : (s.setMem v).wheel = s.wheel := rfl
@[simp] theorem State.setMem_emem (s : State) (v : Mem) : (s.setMem v).emem = s.emem := rfl
@[simp] theorem State.setMem_splices (s : State) (v : Mem) : (s.setMem v).splices = s.splices := rfl
@[simp] theorem State.setMem_funcs (s : State) (v : Mem) : (s.setMem v).funcs = s.funcs := rfl
@[simp] theorem State.setMem_qps (s : State) (v : Mem) : (s.setMem v).qps = s.qps := rfl
@[simp] theorem State.setMem_binds (s : State) (v : Mem) : (s.setMem v).binds = s.binds := rfl
@[simp] theorem State.setMem_admin (s : State) (v : Mem) : (s.setMem v).admin = s.admin := rfl
@[simp] theorem State.setMem_mem (s : State) (v : Mem) : (s.setMem v).mem = v := rfl
@[simp] theorem State.setMem_chks (s : State) (v : Mem) : (s.setMem v).chks = s.chks := rfl
@[simp] theorem State.setMem_dmas (s : State) (v : Mem) : (s.setMem v).dmas = s.dmas := rfl
@[simp] theorem State.setChks_cfg (s : State) (v : KMap Chk) : (s.setChks v).cfg = s.cfg := rfl
@[simp] theorem State.setChks_pending (s : State) (v : KMap Chk) : (s.setChks v).pending = s.pending := rfl
@[simp] theorem State.setChks_regs (s : State) (v : KMap Chk) : (s.setChks v).regs = s.regs := rfl
@[simp] theorem State.setChks_stage (s : State) (v : KMap Chk) : (s.setChks v).stage = s.stage := rfl
@[simp] theorem State.setChks_hold (s : State) (v : KMap Chk) : (s.setChks v).hold = s.hold := rfl
@[simp] theorem State.setChks_slv (s : State) (v : KMap Chk) : (s.setChks v).slv = s.slv := rfl
@[simp] theorem State.setChks_out (s : State) (v : KMap Chk) : (s.setChks v).out = s.out := rfl
@[simp] theorem State.setChks_ticks (s : State) (v : KMap Chk) : (s.setChks v).ticks = s.ticks := rfl
@[simp] theorem State.setChks_free (s : State) (v : KMap Chk) : (s.setChks v).free = s.free := rfl
@[simp] theorem State.setChks_rst (s : State) (v : KMap Chk) : (s.setChks v).rst = s.rst := rfl
@[simp] theorem State.setChks_req (s : State) (v : KMap Chk) : (s.setChks v).req = s.req := rfl
@[simp] theorem State.setChks_halves (s : State) (v : KMap Chk) : (s.setChks v).halves = s.halves := rfl
@[simp] theorem State.setChks_settle (s : State) (v : KMap Chk) : (s.setChks v).settle = s.settle := rfl
@[simp] theorem State.setChks_tbs (s : State) (v : KMap Chk) : (s.setChks v).tbs = s.tbs := rfl
@[simp] theorem State.setChks_pps (s : State) (v : KMap Chk) : (s.setChks v).pps = s.pps := rfl
@[simp] theorem State.setChks_gens (s : State) (v : KMap Chk) : (s.setChks v).gens = s.gens := rfl
@[simp] theorem State.setChks_trigs (s : State) (v : KMap Chk) : (s.setChks v).trigs = s.trigs := rfl
@[simp] theorem State.setChks_frames (s : State) (v : KMap Chk) : (s.setChks v).frames = s.frames := rfl
@[simp] theorem State.setChks_nextFrame (s : State) (v : KMap Chk) : (s.setChks v).nextFrame = s.nextFrame := rfl
@[simp] theorem State.setChks_ports (s : State) (v : KMap Chk) : (s.setChks v).ports = s.ports := rfl
@[simp] theorem State.setChks_taken (s : State) (v : KMap Chk) : (s.setChks v).taken = s.taken := rfl
@[simp] theorem State.setChks_latches (s : State) (v : KMap Chk) : (s.setChks v).latches = s.latches := rfl
@[simp] theorem State.setChks_doms (s : State) (v : KMap Chk) : (s.setChks v).doms = s.doms := rfl
@[simp] theorem State.setChks_gasp (s : State) (v : KMap Chk) : (s.setChks v).gasp = s.gasp := rfl
@[simp] theorem State.setChks_dic (s : State) (v : KMap Chk) : (s.setChks v).dic = s.dic := rfl
@[simp] theorem State.setChks_flt (s : State) (v : KMap Chk) : (s.setChks v).flt = s.flt := rfl
@[simp] theorem State.setChks_trunks (s : State) (v : KMap Chk) : (s.setChks v).trunks = s.trunks := rfl
@[simp] theorem State.setChks_slots (s : State) (v : KMap Chk) : (s.setChks v).slots = s.slots := rfl
@[simp] theorem State.setChks_node (s : State) (v : KMap Chk) : (s.setChks v).node = s.node := rfl
@[simp] theorem State.setChks_pipes (s : State) (v : KMap Chk) : (s.setChks v).pipes = s.pipes := rfl
@[simp] theorem State.setChks_graph (s : State) (v : KMap Chk) : (s.setChks v).graph = s.graph := rfl
@[simp] theorem State.setChks_gload (s : State) (v : KMap Chk) : (s.setChks v).gload = s.gload := rfl
@[simp] theorem State.setChks_cls (s : State) (v : KMap Chk) : (s.setChks v).cls = s.cls := rfl
@[simp] theorem State.setChks_ems (s : State) (v : KMap Chk) : (s.setChks v).ems = s.ems := rfl
@[simp] theorem State.setChks_threads (s : State) (v : KMap Chk) : (s.setChks v).threads = s.threads := rfl
@[simp] theorem State.setChks_wheel (s : State) (v : KMap Chk) : (s.setChks v).wheel = s.wheel := rfl
@[simp] theorem State.setChks_emem (s : State) (v : KMap Chk) : (s.setChks v).emem = s.emem := rfl
@[simp] theorem State.setChks_splices (s : State) (v : KMap Chk) : (s.setChks v).splices = s.splices := rfl
@[simp] theorem State.setChks_funcs (s : State) (v : KMap Chk) : (s.setChks v).funcs = s.funcs := rfl
@[simp] theorem State.setChks_qps (s : State) (v : KMap Chk) : (s.setChks v).qps = s.qps := rfl
@[simp] theorem State.setChks_binds (s : State) (v : KMap Chk) : (s.setChks v).binds = s.binds := rfl
@[simp] theorem State.setChks_admin (s : State) (v : KMap Chk) : (s.setChks v).admin = s.admin := rfl
@[simp] theorem State.setChks_mem (s : State) (v : KMap Chk) : (s.setChks v).mem = s.mem := rfl
@[simp] theorem State.setChks_chks (s : State) (v : KMap Chk) : (s.setChks v).chks = v := rfl
@[simp] theorem State.setChks_dmas (s : State) (v : KMap Chk) : (s.setChks v).dmas = s.dmas := rfl
@[simp] theorem State.setDmas_cfg (s : State) (v : KMap Dma) : (s.setDmas v).cfg = s.cfg := rfl
@[simp] theorem State.setDmas_pending (s : State) (v : KMap Dma) : (s.setDmas v).pending = s.pending := rfl
@[simp] theorem State.setDmas_regs (s : State) (v : KMap Dma) : (s.setDmas v).regs = s.regs := rfl
@[simp] theorem State.setDmas_stage (s : State) (v : KMap Dma) : (s.setDmas v).stage = s.stage := rfl
@[simp] theorem State.setDmas_hold (s : State) (v : KMap Dma) : (s.setDmas v).hold = s.hold := rfl
@[simp] theorem State.setDmas_slv (s : State) (v : KMap Dma) : (s.setDmas v).slv = s.slv := rfl
@[simp] theorem State.setDmas_out (s : State) (v : KMap Dma) : (s.setDmas v).out = s.out := rfl
@[simp] theorem State.setDmas_ticks (s : State) (v : KMap Dma) : (s.setDmas v).ticks = s.ticks := rfl
@[simp] theorem State.setDmas_free (s : State) (v : KMap Dma) : (s.setDmas v).free = s.free := rfl
@[simp] theorem State.setDmas_rst (s : State) (v : KMap Dma) : (s.setDmas v).rst = s.rst := rfl
@[simp] theorem State.setDmas_req (s : State) (v : KMap Dma) : (s.setDmas v).req = s.req := rfl
@[simp] theorem State.setDmas_halves (s : State) (v : KMap Dma) : (s.setDmas v).halves = s.halves := rfl
@[simp] theorem State.setDmas_settle (s : State) (v : KMap Dma) : (s.setDmas v).settle = s.settle := rfl
@[simp] theorem State.setDmas_tbs (s : State) (v : KMap Dma) : (s.setDmas v).tbs = s.tbs := rfl
@[simp] theorem State.setDmas_pps (s : State) (v : KMap Dma) : (s.setDmas v).pps = s.pps := rfl
@[simp] theorem State.setDmas_gens (s : State) (v : KMap Dma) : (s.setDmas v).gens = s.gens := rfl
@[simp] theorem State.setDmas_trigs (s : State) (v : KMap Dma) : (s.setDmas v).trigs = s.trigs := rfl
@[simp] theorem State.setDmas_frames (s : State) (v : KMap Dma) : (s.setDmas v).frames = s.frames := rfl
@[simp] theorem State.setDmas_nextFrame (s : State) (v : KMap Dma) : (s.setDmas v).nextFrame = s.nextFrame := rfl
@[simp] theorem State.setDmas_ports (s : State) (v : KMap Dma) : (s.setDmas v).ports = s.ports := rfl
@[simp] theorem State.setDmas_taken (s : State) (v : KMap Dma) : (s.setDmas v).taken = s.taken := rfl
@[simp] theorem State.setDmas_latches (s : State) (v : KMap Dma) : (s.setDmas v).latches = s.latches := rfl
@[simp] theorem State.setDmas_doms (s : State) (v : KMap Dma) : (s.setDmas v).doms = s.doms := rfl
@[simp] theorem State.setDmas_gasp (s : State) (v : KMap Dma) : (s.setDmas v).gasp = s.gasp := rfl
@[simp] theorem State.setDmas_dic (s : State) (v : KMap Dma) : (s.setDmas v).dic = s.dic := rfl
@[simp] theorem State.setDmas_flt (s : State) (v : KMap Dma) : (s.setDmas v).flt = s.flt := rfl
@[simp] theorem State.setDmas_trunks (s : State) (v : KMap Dma) : (s.setDmas v).trunks = s.trunks := rfl
@[simp] theorem State.setDmas_slots (s : State) (v : KMap Dma) : (s.setDmas v).slots = s.slots := rfl
@[simp] theorem State.setDmas_node (s : State) (v : KMap Dma) : (s.setDmas v).node = s.node := rfl
@[simp] theorem State.setDmas_pipes (s : State) (v : KMap Dma) : (s.setDmas v).pipes = s.pipes := rfl
@[simp] theorem State.setDmas_graph (s : State) (v : KMap Dma) : (s.setDmas v).graph = s.graph := rfl
@[simp] theorem State.setDmas_gload (s : State) (v : KMap Dma) : (s.setDmas v).gload = s.gload := rfl
@[simp] theorem State.setDmas_cls (s : State) (v : KMap Dma) : (s.setDmas v).cls = s.cls := rfl
@[simp] theorem State.setDmas_ems (s : State) (v : KMap Dma) : (s.setDmas v).ems = s.ems := rfl
@[simp] theorem State.setDmas_threads (s : State) (v : KMap Dma) : (s.setDmas v).threads = s.threads := rfl
@[simp] theorem State.setDmas_wheel (s : State) (v : KMap Dma) : (s.setDmas v).wheel = s.wheel := rfl
@[simp] theorem State.setDmas_emem (s : State) (v : KMap Dma) : (s.setDmas v).emem = s.emem := rfl
@[simp] theorem State.setDmas_splices (s : State) (v : KMap Dma) : (s.setDmas v).splices = s.splices := rfl
@[simp] theorem State.setDmas_funcs (s : State) (v : KMap Dma) : (s.setDmas v).funcs = s.funcs := rfl
@[simp] theorem State.setDmas_qps (s : State) (v : KMap Dma) : (s.setDmas v).qps = s.qps := rfl
@[simp] theorem State.setDmas_binds (s : State) (v : KMap Dma) : (s.setDmas v).binds = s.binds := rfl
@[simp] theorem State.setDmas_admin (s : State) (v : KMap Dma) : (s.setDmas v).admin = s.admin := rfl
@[simp] theorem State.setDmas_mem (s : State) (v : KMap Dma) : (s.setDmas v).mem = s.mem := rfl
@[simp] theorem State.setDmas_chks (s : State) (v : KMap Dma) : (s.setDmas v).chks = s.chks := rfl
@[simp] theorem State.setDmas_dmas (s : State) (v : KMap Dma) : (s.setDmas v).dmas = v := rfl

end Sys2Proof.Machine
end

