-- ==== Sys2Proof/Laws/Ops.lean ====
section
/-!
SUPPORT. Register words and fields: reading after writing, and the shape of a slave-port access.
-/
set_option Elab.async false
namespace Sys2Proof.Machine

/-- A register word depends on the listed words alone. -/
theorem State.rd_congr {s t : State} (h1 : t.cfg = s.cfg) (h2 : t.regs = s.regs) (k : Nat) : t.rd k = s.rd k := by
  unfold State.rd
  rw [h1, h2]

/-- A word just written reads as written. -/
@[simp] theorem State.rd_wr_self (s : State) (k : Nat) (v : Word) : (s.wr k v).rd k = v := by
  simp [State.rd, State.wr]

/-- Writing a word leaves every other word. -/
theorem State.rd_wr_ne (s : State) {k j : Nat} (v : Word) (h : j ≠ k) : (s.wr k v).rd j = s.rd j := by
  simp [State.rd, State.wr, KMap.get_put_ne _ _ _ v h]

/-- Writing a field leaves every word but the field's own. -/
theorem State.rd_fset_ne (s : State) (f : Fld) (v : Nat) {j : Nat} (h : j ≠ f.off) : (s.fset f v).rd j = s.rd j :=
  s.rd_wr_ne _ h

/-- The word that holds a field just written. -/
@[simp] theorem State.rd_fset_self (s : State) (f : Fld) (v : Nat) :
    (s.fset f v).rd f.off = setBits (s.rd f.off) f.lo f.wd v := s.rd_wr_self _ _

/-- A write of a word changes no other word. -/
theorem State.wr_onlyWords (s : State) (k : Nat) (v : Word) : OnlyWords s (s.wr k v) [k] :=
  fun _ h => s.rd_wr_ne v (by simpa using h)

/-- One change of words after another. -/
theorem OnlyWords.trans {s t u : State} {ks : List Nat} (h : OnlyWords s t ks) (k : OnlyWords t u ks) : OnlyWords s u ks :=
  fun j hj => (k j hj).trans (h j hj)

/-- More words. -/
theorem OnlyWords.mono {s t : State} {ks js : List Nat} (h : OnlyWords s t ks) (hs : ∀ k ∈ ks, k ∈ js) : OnlyWords s t js :=
  fun j hj => h j fun hk => hj (hs j hk)

/-- Nothing changes. -/
theorem OnlyWords.refl (s : State) (ks : List Nat) : OnlyWords s s ks := fun _ _ => rfl

@[simp] theorem State.rd_answer (s : State) (e : Bool) (d k : Nat) : (s.answer e d).rd k = s.rd k :=
  State.rd_congr rfl rfl k
@[simp] theorem State.rd_deny (s : State) (k : Nat) : s.deny.rd k = s.rd k := State.rd_congr rfl rfl k

/-- A slave access of function 0 to a register that answers is carried out. -/
theorem State.Reaches.access {s : State} {off key : Nat} (h : s.Reaches off key) (f : Nat → State → State) :
    s.access 0 off f = f key (s.answer false 0) := by
  obtain ⟨h1, h2, h3⟩ := h
  simp [State.access, h1, h2, h3]

/-- A slave write of function 0 to a register that answers and whose ticks run is carried out. -/
theorem State.Opens.writeAcc {s : State} {off key : Nat} (h : s.Opens off key) (data : Word) (f : Nat → State → State) :
    s.writeAcc 0 off data f = f key (s.answer false 0) := by
  unfold State.writeAcc
  rw [h.1.access]
  dsimp only
  have hc : (s.answer false 0).cfg = s.cfg := rfl
  have ht : ∀ n, (s.answer false 0).tb n = s.tb n := fun _ => rfl
  rw [hc]
  split
  · next n hn =>
    have h2 := h.2
    simp only [hn, Option.all_some, Bool.not_eq_true'] at h2
    rw [ht, h2]; rfl
  · rfl

/-- An access of another function than 0 is refused (02_boundary_and_access.md R44). -/
theorem State.access_denied {s : State} {off fn : Nat} (hf : fn ≠ 0) (f : Nat → State → State) :
    s.access fn off f = (s.logDenied fn off).deny := by
  simp [State.access, hf]

end Sys2Proof.Machine
end

