-- ==== Sys2Proof/Laws/Keeps.lean ====
section
/-!
SUPPORT. What every operation on the state keeps (Keeps): the pieces of State outside a list, and the canonical form of
register words and memories. Here are the rules and the setters. Proofs over a definition apply the rules along its text.
-/
set_option Elab.async false
namespace Sys2Proof.Machine

/-- The pieces of the second list are among those of the first. -/
structure Allows (l m : List Area) : Prop where
  mem : ∀ a, a ∈ m → a ∈ l

/-- Fewer pieces. -/
theorem Allows.mono {l m k : List Area} (h : (k.all fun a => m.contains a) = true) (hp : Allows l m) : Allows l k :=
  ⟨fun a ha => hp.mem a (by
    have h1 := List.all_eq_true.1 h a ha
    simpa using h1)⟩

/-- The same pieces. -/
theorem Allows.refl (l : List Area) : Allows l l := ⟨fun _ h => h⟩

/-- `t` comes after `s`: pieces outside the list are the same, and register words and memories are still in canonical
form. -/
def Keeps (ar : List Area) (s t : State) : Prop := SameBut ar s t ∧ (s.Inv → t.Inv)

/-- The same piece, and the same again. -/
theorem Area.same_trans {a : Area} {s t u : State} (h : a.same s t) (k : a.same t u) : a.same s u := by
  cases a <;> exact Eq.trans k h

/-- Nothing changes. -/
theorem Keeps.refl {ar : List Area} (s : State) : Keeps ar s s := ⟨fun a _ => by cases a <;> rfl, id⟩

/-- One after the other. -/
theorem Keeps.trans {ar : List Area} {s t u : State} (h : Keeps ar s t) (k : Keeps ar t u) : Keeps ar s u :=
  ⟨fun a ha => Area.same_trans (h.1 a ha) (k.1 a ha), fun x => k.2 (h.2 x)⟩

/-- Either way. -/
theorem Keeps.ite {ar : List Area} {s a b : State} {c : Prop} [Decidable c] (ha : Keeps ar s a) (hb : Keeps ar s b) :
    Keeps ar s (if c then a else b) := by split <;> assumption

/-- Along a list. -/
theorem Keeps.forEach {p : List Area} {α : Type} {s t : State} {l : List α} {f : α → State → State} (h : Keeps p s t)
    (hf : ∀ a u, Keeps p s u → Keeps p s (f a u)) : Keeps p s (forEach l f t) := by
  unfold Machine.forEach
  induction l generalizing t with
  | nil => exact h
  | cons a r ih => exact ih (hf a t h)

/-- Along a fold. -/
theorem Keeps.foldl {p : List Area} {α : Type} {s t : State} {l : List α} {f : State → α → State} (h : Keeps p s t)
    (hf : ∀ a u, Keeps p s u → Keeps p s (f u a)) : Keeps p s (l.foldl f t) := by
  induction l generalizing t with
  | nil => exact h
  | cons a r ih => exact ih (hf a t h)

/-- Along a fold that carries the state beside something else. -/
theorem Keeps.foldl2 {p : List Area} {α β : Type} {s : State} {t : β × State} {l : List α} {f : β × State → α → β × State}
    (h : Keeps p s t.2) (hf : ∀ a u, Keeps p s u.2 → Keeps p s (f u a).2) : Keeps p s (l.foldl f t).2 := by
  induction l generalizing t with
  | nil => exact h
  | cons a r ih => exact ih (hf a t h)

/-- The state of a pair that has been taken apart. -/
theorem Keeps.snd {ar : List Area} {α : Type} {s u : State} {a : α} {p : α × State} (h : Keeps ar s p.2) (e : p = (a, u)) :
    Keeps ar s u := by
  rw [e] at h; exact h

/-- The state of a triple that has been taken apart. -/
theorem Keeps.snd2 {ar : List Area} {α β : Type} {s u : State} {a : α} {b : β} {p : α × β × State} (h : Keeps ar s p.2.2)
    (e : p = (a, b, u)) : Keeps ar s u := by
  rw [e] at h; exact h

/-- What an instruction answers, if it completes, keeps them (None: it waits). -/
def KeepsOpt (ar : List Area) (s : State) (o : Option State) : Prop := ∀ v, o = some v → Keeps ar s v

/-- An instruction that completes. -/
theorem KeepsOpt.some {ar : List Area} {s t : State} (h : Keeps ar s t) : KeepsOpt ar s (some t) := fun v hv => by
  obtain rfl : t = v := by simpa using hv
  exact h

/-- An instruction that waits. -/
theorem KeepsOpt.none {ar : List Area} {s : State} : KeepsOpt ar s none := fun v hv => by simp at hv

/-- Either way. -/
theorem KeepsOpt.ite {ar : List Area} {s : State} {a b : Option State} {c : Prop} [Decidable c] (ha : KeepsOpt ar s a)
    (hb : KeepsOpt ar s b) : KeepsOpt ar s (if c then a else b) := by split <;> assumption

/-- Something more after an instruction. -/
theorem KeepsOpt.map {ar : List Area} {s : State} {o : Option State} {f : State → State} (h : KeepsOpt ar s o)
    (hf : ∀ u, Keeps ar s u → Keeps ar s (f u)) : KeepsOpt ar s (o.map f) := fun v hv => by
  obtain ⟨w, hw, rfl⟩ := by simpa using hv
  exact hf w (h w hw)

/-- A change of one piece that is neither register words nor memories. -/
theorem Keeps.piece {ar : List Area} {s t u : State} (h : Keeps ar s t) (b : Area) (hb : b ∈ ar)
    (hs : ∀ a, a ≠ b → a.same t u) (h1 : u.cfg = t.cfg) (h3 : u.regs = t.regs) (h4 : u.emem = t.emem)
    (h5 : u.mem.words = t.mem.words) : Keeps ar s u :=
  h.trans ⟨fun a ha => hs a fun e => ha (e ▸ hb), fun ⟨a, b⟩ =>
    ⟨by unfold State.RegsOk at *; rwa [h1, h3], by unfold Memory.wf at *; rwa [h4, h5]⟩⟩

/-- Register words are replaced. -/
theorem Keeps.regs {ar : List Area} {s t : State} (h : Keeps ar s t) (v : KMap Word) (hp : Area.regs ∈ ar)
    (hv : t.RegsOk → (t.setRegs v).RegsOk) : Keeps ar s (t.setRegs v) :=
  h.trans ⟨fun a ha => by cases a <;> first | rfl | exact absurd hp ha, fun x => ⟨hv x.1, x.2⟩⟩

/-- A word is written. -/
theorem State.wr_keeps {ar : List Area} {s t : State} (h : Keeps ar s t) (k : Nat) (v : Word)
    (hp : Allows ar [.regs] := by first | assumption | (refine Allows.mono ?_ (by assumption); decide)) : Keeps ar s (t.wr k v) :=
  h.regs _ (hp.mem _ (by simp)) fun x => KMap.wf_put (d := resetWord t.cfg) x k v

/-- Register words are dropped. -/
theorem State.setRegs_clear_keeps {ar : List Area} {s t : State} (h : Keeps ar s t) (p : Nat → Bool)
    (hp : Allows ar [.regs] := by first | assumption | (refine Allows.mono ?_ (by assumption); decide)) : Keeps ar s (t.setRegs (KMap.clear p t.regs)) :=
  h.regs _ (hp.mem _ (by simp)) fun x => KMap.wf_clear x p

/-- Engine memories are replaced. -/
theorem Keeps.emem {ar : List Area} {s t : State} (h : Keeps ar s t) (v : KMap Byte) (hp : Area.emem ∈ ar)
    (hv : KMap.wf (fun _ => (0 : Byte)) t.emem = true → KMap.wf (fun _ => (0 : Byte)) v = true) : Keeps ar s (t.setEmem v) :=
  h.trans ⟨fun a ha => by cases a <;> first | rfl | exact absurd hp ha, fun x => ⟨x.1, by
    have h2 := x.2
    simp only [Memory.wf, Bool.and_eq_true] at h2 ⊢
    exact ⟨hv h2.1, h2.2⟩⟩⟩

/-- Bytes of engine memories are dropped. -/
theorem State.setEmem_clear_keeps {ar : List Area} {s t : State} (h : Keeps ar s t) (p : Nat → Bool)
    (hp : Allows ar [.emem] := by first | assumption | (refine Allows.mono ?_ (by assumption); decide)) : Keeps ar s (t.setEmem (KMap.clear p t.emem)) :=
  h.emem _ (hp.mem _ (by simp)) fun x => KMap.wf_clear x p

/-- Buffer memory is replaced, its words still rising. -/
theorem State.setMem_rising_keeps {ar : List Area} {s t : State} (h : Keeps ar s t) (v : Mem)
    (hv : KMap.rising t.mem.words = true → KMap.rising v.words = true)
    (hp : Allows ar [.mem] := by first | assumption | (refine Allows.mono ?_ (by assumption); decide)) : Keeps ar s (t.setMem v) :=
  h.trans ⟨fun a ha => by cases a <;> first | rfl | exact absurd (hp.mem _ (by simp)) ha, fun x => ⟨x.1, by
    have h2 := x.2
    simp only [Memory.wf, Bool.and_eq_true] at h2 ⊢
    exact ⟨h2.1, hv h2.2⟩⟩⟩

/-- Buffer memory is replaced, its words the same. -/
theorem State.setMem_keeps {ar : List Area} {s t : State} (h : Keeps ar s t) (v : Mem) (hv : v.words = t.mem.words)
    (hp : Allows ar [.mem] := by first | assumption | (refine Allows.mono ?_ (by assumption); decide)) : Keeps ar s (t.setMem v) :=
  State.setMem_rising_keeps h v (fun x => by rw [hv]; exact x) hp

theorem State.setStage_keeps {ar : List Area} {s t : State} (h : Keeps ar s t) (v : KMap Word)
    (hp : Allows ar [.stage] := by first | assumption | (refine Allows.mono ?_ (by assumption); decide)) : Keeps ar s (t.setStage v) :=
  h.piece .stage (hp.mem _ (by simp)) (fun a ha => by cases a <;> first | rfl | exact absurd rfl ha) rfl rfl rfl rfl
theorem State.setHold_keeps {ar : List Area} {s t : State} (h : Keeps ar s t) (v : KMap Word)
    (hp : Allows ar [.hold] := by first | assumption | (refine Allows.mono ?_ (by assumption); decide)) : Keeps ar s (t.setHold v) :=
  h.piece .hold (hp.mem _ (by simp)) (fun a ha => by cases a <;> first | rfl | exact absurd rfl ha) rfl rfl rfl rfl
theorem State.setSlv_keeps {ar : List Area} {s t : State} (h : Keeps ar s t) (v : Option Slv)
    (hp : Allows ar [.slv] := by first | assumption | (refine Allows.mono ?_ (by assumption); decide)) : Keeps ar s (t.setSlv v) :=
  h.piece .slv (hp.mem _ (by simp)) (fun a ha => by cases a <;> first | rfl | exact absurd rfl ha) rfl rfl rfl rfl
theorem State.setOut_keeps {ar : List Area} {s t : State} (h : Keeps ar s t) (v : List Out)
    (hp : Allows ar [.out] := by first | assumption | (refine Allows.mono ?_ (by assumption); decide)) : Keeps ar s (t.setOut v) :=
  h.piece .out (hp.mem _ (by simp)) (fun a ha => by cases a <;> first | rfl | exact absurd rfl ha) rfl rfl rfl rfl
theorem State.setTicks_keeps {ar : List Area} {s t : State} (h : Keeps ar s t) (v : Nat)
    (hp : Allows ar [.ticks] := by first | assumption | (refine Allows.mono ?_ (by assumption); decide)) : Keeps ar s (t.setTicks v) :=
  h.piece .ticks (hp.mem _ (by simp)) (fun a ha => by cases a <;> first | rfl | exact absurd rfl ha) rfl rfl rfl rfl
theorem State.setFree_keeps {ar : List Area} {s t : State} (h : Keeps ar s t) (v : Nat)
    (hp : Allows ar [.free] := by first | assumption | (refine Allows.mono ?_ (by assumption); decide)) : Keeps ar s (t.setFree v) :=
  h.piece .free (hp.mem _ (by simp)) (fun a ha => by cases a <;> first | rfl | exact absurd rfl ha) rfl rfl rfl rfl
theorem State.setRst_keeps {ar : List Area} {s t : State} (h : Keeps ar s t) (v : Resets)
    (hp : Allows ar [.rst] := by first | assumption | (refine Allows.mono ?_ (by assumption); decide)) : Keeps ar s (t.setRst v) :=
  h.piece .rst (hp.mem _ (by simp)) (fun a ha => by cases a <;> first | rfl | exact absurd rfl ha) rfl rfl rfl rfl
theorem State.setReq_keeps {ar : List Area} {s t : State} (h : Keeps ar s t) (v : Option ModeReq)
    (hp : Allows ar [.req] := by first | assumption | (refine Allows.mono ?_ (by assumption); decide)) : Keeps ar s (t.setReq v) :=
  h.piece .req (hp.mem _ (by simp)) (fun a ha => by cases a <;> first | rfl | exact absurd rfl ha) rfl rfl rfl rfl
theorem State.setHalves_keeps {ar : List Area} {s t : State} (h : Keeps ar s t) (v : KMap HalfSt)
    (hp : Allows ar [.halves] := by first | assumption | (refine Allows.mono ?_ (by assumption); decide)) : Keeps ar s (t.setHalves v) :=
  h.piece .halves (hp.mem _ (by simp)) (fun a ha => by cases a <;> first | rfl | exact absurd rfl ha) rfl rfl rfl rfl
theorem State.setSettle_keeps {ar : List Area} {s t : State} (h : Keeps ar s t) (v : Bool)
    (hp : Allows ar [.settle] := by first | assumption | (refine Allows.mono ?_ (by assumption); decide)) : Keeps ar s (t.setSettle v) :=
  h.piece .settle (hp.mem _ (by simp)) (fun a ha => by cases a <;> first | rfl | exact absurd rfl ha) rfl rfl rfl rfl
theorem State.setTbs_keeps {ar : List Area} {s t : State} (h : Keeps ar s t) (v : KMap TimeBase)
    (hp : Allows ar [.tbs] := by first | assumption | (refine Allows.mono ?_ (by assumption); decide)) : Keeps ar s (t.setTbs v) :=
  h.piece .tbs (hp.mem _ (by simp)) (fun a ha => by cases a <;> first | rfl | exact absurd rfl ha) rfl rfl rfl rfl
theorem State.setPps_keeps {ar : List Area} {s t : State} (h : Keeps ar s t) (v : Pps)
    (hp : Allows ar [.pps] := by first | assumption | (refine Allows.mono ?_ (by assumption); decide)) : Keeps ar s (t.setPps v) :=
  h.piece .pps (hp.mem _ (by simp)) (fun a ha => by cases a <;> first | rfl | exact absurd rfl ha) rfl rfl rfl rfl
theorem State.setGens_keeps {ar : List Area} {s t : State} (h : Keeps ar s t) (v : KMap Gen)
    (hp : Allows ar [.gens] := by first | assumption | (refine Allows.mono ?_ (by assumption); decide)) : Keeps ar s (t.setGens v) :=
  h.piece .gens (hp.mem _ (by simp)) (fun a ha => by cases a <;> first | rfl | exact absurd rfl ha) rfl rfl rfl rfl
theorem State.setTrigs_keeps {ar : List Area} {s t : State} (h : Keeps ar s t) (v : KMap Trig)
    (hp : Allows ar [.trigs] := by first | assumption | (refine Allows.mono ?_ (by assumption); decide)) : Keeps ar s (t.setTrigs v) :=
  h.piece .trigs (hp.mem _ (by simp)) (fun a ha => by cases a <;> first | rfl | exact absurd rfl ha) rfl rfl rfl rfl
theorem State.setFrames_keeps {ar : List Area} {s t : State} (h : Keeps ar s t) (v : KMap Frame)
    (hp : Allows ar [.frames] := by first | assumption | (refine Allows.mono ?_ (by assumption); decide)) : Keeps ar s (t.setFrames v) :=
  h.piece .frames (hp.mem _ (by simp)) (fun a ha => by cases a <;> first | rfl | exact absurd rfl ha) rfl rfl rfl rfl
theorem State.setNextFrame_keeps {ar : List Area} {s t : State} (h : Keeps ar s t) (v : Nat)
    (hp : Allows ar [.nextFrame] := by first | assumption | (refine Allows.mono ?_ (by assumption); decide)) : Keeps ar s (t.setNextFrame v) :=
  h.piece .nextFrame (hp.mem _ (by simp)) (fun a ha => by cases a <;> first | rfl | exact absurd rfl ha) rfl rfl rfl rfl
theorem State.setPorts_keeps {ar : List Area} {s t : State} (h : Keeps ar s t) (v : KMap Port)
    (hp : Allows ar [.ports] := by first | assumption | (refine Allows.mono ?_ (by assumption); decide)) : Keeps ar s (t.setPorts v) :=
  h.piece .ports (hp.mem _ (by simp)) (fun a ha => by cases a <;> first | rfl | exact absurd rfl ha) rfl rfl rfl rfl
theorem State.setTaken_keeps {ar : List Area} {s t : State} (h : Keeps ar s t) (v : KMap Nat)
    (hp : Allows ar [.taken] := by first | assumption | (refine Allows.mono ?_ (by assumption); decide)) : Keeps ar s (t.setTaken v) :=
  h.piece .taken (hp.mem _ (by simp)) (fun a ha => by cases a <;> first | rfl | exact absurd rfl ha) rfl rfl rfl rfl
theorem State.setLatches_keeps {ar : List Area} {s t : State} (h : Keeps ar s t) (v : AonLatch)
    (hp : Allows ar [.latches] := by first | assumption | (refine Allows.mono ?_ (by assumption); decide)) : Keeps ar s (t.setLatches v) :=
  h.piece .latches (hp.mem _ (by simp)) (fun a ha => by cases a <;> first | rfl | exact absurd rfl ha) rfl rfl rfl rfl
theorem State.setDoms_keeps {ar : List Area} {s t : State} (h : Keeps ar s t) (v : KMap DomSt)
    (hp : Allows ar [.doms] := by first | assumption | (refine Allows.mono ?_ (by assumption); decide)) : Keeps ar s (t.setDoms v) :=
  h.piece .doms (hp.mem _ (by simp)) (fun a ha => by cases a <;> first | rfl | exact absurd rfl ha) rfl rfl rfl rfl
theorem State.setGasp_keeps {ar : List Area} {s t : State} (h : Keeps ar s t) (v : Option Gasp)
    (hp : Allows ar [.gasp] := by first | assumption | (refine Allows.mono ?_ (by assumption); decide)) : Keeps ar s (t.setGasp v) :=
  h.piece .gasp (hp.mem _ (by simp)) (fun a ha => by cases a <;> first | rfl | exact absurd rfl ha) rfl rfl rfl rfl
theorem State.setDic_keeps {ar : List Area} {s t : State} (h : Keeps ar s t) (v : Dic)
    (hp : Allows ar [.dic] := by first | assumption | (refine Allows.mono ?_ (by assumption); decide)) : Keeps ar s (t.setDic v) :=
  h.piece .dic (hp.mem _ (by simp)) (fun a ha => by cases a <;> first | rfl | exact absurd rfl ha) rfl rfl rfl rfl
theorem State.setFlt_keeps {ar : List Area} {s t : State} (h : Keeps ar s t) (v : Flt)
    (hp : Allows ar [.flt] := by first | assumption | (refine Allows.mono ?_ (by assumption); decide)) : Keeps ar s (t.setFlt v) :=
  h.piece .flt (hp.mem _ (by simp)) (fun a ha => by cases a <;> first | rfl | exact absurd rfl ha) rfl rfl rfl rfl
theorem State.setTrunks_keeps {ar : List Area} {s t : State} (h : Keeps ar s t) (v : KMap Trunk)
    (hp : Allows ar [.trunks] := by first | assumption | (refine Allows.mono ?_ (by assumption); decide)) : Keeps ar s (t.setTrunks v) :=
  h.piece .trunks (hp.mem _ (by simp)) (fun a ha => by cases a <;> first | rfl | exact absurd rfl ha) rfl rfl rfl rfl
theorem State.setSlots_keeps {ar : List Area} {s t : State} (h : Keeps ar s t) (v : KMap Nat)
    (hp : Allows ar [.slots] := by first | assumption | (refine Allows.mono ?_ (by assumption); decide)) : Keeps ar s (t.setSlots v) :=
  h.piece .slots (hp.mem _ (by simp)) (fun a ha => by cases a <;> first | rfl | exact absurd rfl ha) rfl rfl rfl rfl
theorem State.setNode_keeps {ar : List Area} {s t : State} (h : Keeps ar s t) (v : Node)
    (hp : Allows ar [.node] := by first | assumption | (refine Allows.mono ?_ (by assumption); decide)) : Keeps ar s (t.setNode v) :=
  h.piece .node (hp.mem _ (by simp)) (fun a ha => by cases a <;> first | rfl | exact absurd rfl ha) rfl rfl rfl rfl
theorem State.setPipes_keeps {ar : List Area} {s t : State} (h : Keeps ar s t) (v : KMap Pipe)
    (hp : Allows ar [.pipes] := by first | assumption | (refine Allows.mono ?_ (by assumption); decide)) : Keeps ar s (t.setPipes v) :=
  h.piece .pipes (hp.mem _ (by simp)) (fun a ha => by cases a <;> first | rfl | exact absurd rfl ha) rfl rfl rfl rfl
theorem State.setGraph_keeps {ar : List Area} {s t : State} (h : Keeps ar s t) (v : KMap Word)
    (hp : Allows ar [.graph] := by first | assumption | (refine Allows.mono ?_ (by assumption); decide)) : Keeps ar s (t.setGraph v) :=
  h.piece .graph (hp.mem _ (by simp)) (fun a ha => by cases a <;> first | rfl | exact absurd rfl ha) rfl rfl rfl rfl
theorem State.setGload_keeps {ar : List Area} {s t : State} (h : Keeps ar s t) (v : Option GLoad)
    (hp : Allows ar [.gload] := by first | assumption | (refine Allows.mono ?_ (by assumption); decide)) : Keeps ar s (t.setGload v) :=
  h.piece .gload (hp.mem _ (by simp)) (fun a ha => by cases a <;> first | rfl | exact absurd rfl ha) rfl rfl rfl rfl
theorem State.setCls_keeps {ar : List Area} {s t : State} (h : Keeps ar s t) (v : Cls)
    (hp : Allows ar [.cls] := by first | assumption | (refine Allows.mono ?_ (by assumption); decide)) : Keeps ar s (t.setCls v) :=
  h.piece .cls (hp.mem _ (by simp)) (fun a ha => by cases a <;> first | rfl | exact absurd rfl ha) rfl rfl rfl rfl
theorem State.setEms_keeps {ar : List Area} {s t : State} (h : Keeps ar s t) (v : KMap (List EmEnt))
    (hp : Allows ar [.ems] := by first | assumption | (refine Allows.mono ?_ (by assumption); decide)) : Keeps ar s (t.setEms v) :=
  h.piece .ems (hp.mem _ (by simp)) (fun a ha => by cases a <;> first | rfl | exact absurd rfl ha) rfl rfl rfl rfl
theorem State.setThreads_keeps {ar : List Area} {s t : State} (h : Keeps ar s t) (v : KMap Thread)
    (hp : Allows ar [.threads] := by first | assumption | (refine Allows.mono ?_ (by assumption); decide)) : Keeps ar s (t.setThreads v) :=
  h.piece .threads (hp.mem _ (by simp)) (fun a ha => by cases a <;> first | rfl | exact absurd rfl ha) rfl rfl rfl rfl
theorem State.setWheel_keeps {ar : List Area} {s t : State} (h : Keeps ar s t) (v : KMap Nat)
    (hp : Allows ar [.wheel] := by first | assumption | (refine Allows.mono ?_ (by assumption); decide)) : Keeps ar s (t.setWheel v) :=
  h.piece .wheel (hp.mem _ (by simp)) (fun a ha => by cases a <;> first | rfl | exact absurd rfl ha) rfl rfl rfl rfl
theorem State.setSplices_keeps {ar : List Area} {s t : State} (h : Keeps ar s t) (v : List Splice)
    (hp : Allows ar [.splices] := by first | assumption | (refine Allows.mono ?_ (by assumption); decide)) : Keeps ar s (t.setSplices v) :=
  h.piece .splices (hp.mem _ (by simp)) (fun a ha => by cases a <;> first | rfl | exact absurd rfl ha) rfl rfl rfl rfl
theorem State.setFuncs_keeps {ar : List Area} {s t : State} (h : Keeps ar s t) (v : KMap Func)
    (hp : Allows ar [.funcs] := by first | assumption | (refine Allows.mono ?_ (by assumption); decide)) : Keeps ar s (t.setFuncs v) :=
  h.piece .funcs (hp.mem _ (by simp)) (fun a ha => by cases a <;> first | rfl | exact absurd rfl ha) rfl rfl rfl rfl
theorem State.setQps_keeps {ar : List Area} {s t : State} (h : Keeps ar s t) (v : KMap Qp)
    (hp : Allows ar [.qps] := by first | assumption | (refine Allows.mono ?_ (by assumption); decide)) : Keeps ar s (t.setQps v) :=
  h.piece .qps (hp.mem _ (by simp)) (fun a ha => by cases a <;> first | rfl | exact absurd rfl ha) rfl rfl rfl rfl
theorem State.setBinds_keeps {ar : List Area} {s t : State} (h : Keeps ar s t) (v : KMap Nat)
    (hp : Allows ar [.binds] := by first | assumption | (refine Allows.mono ?_ (by assumption); decide)) : Keeps ar s (t.setBinds v) :=
  h.piece .binds (hp.mem _ (by simp)) (fun a ha => by cases a <;> first | rfl | exact absurd rfl ha) rfl rfl rfl rfl
theorem State.setAdmin_keeps {ar : List Area} {s t : State} (h : Keeps ar s t) (v : Admin)
    (hp : Allows ar [.admin] := by first | assumption | (refine Allows.mono ?_ (by assumption); decide)) : Keeps ar s (t.setAdmin v) :=
  h.piece .admin (hp.mem _ (by simp)) (fun a ha => by cases a <;> first | rfl | exact absurd rfl ha) rfl rfl rfl rfl
theorem State.setChks_keeps {ar : List Area} {s t : State} (h : Keeps ar s t) (v : KMap Chk)
    (hp : Allows ar [.chks] := by first | assumption | (refine Allows.mono ?_ (by assumption); decide)) : Keeps ar s (t.setChks v) :=
  h.piece .chks (hp.mem _ (by simp)) (fun a ha => by cases a <;> first | rfl | exact absurd rfl ha) rfl rfl rfl rfl
theorem State.setDmas_keeps {ar : List Area} {s t : State} (h : Keeps ar s t) (v : KMap Dma)
    (hp : Allows ar [.dmas] := by first | assumption | (refine Allows.mono ?_ (by assumption); decide)) : Keeps ar s (t.setDmas v) :=
  h.piece .dmas (hp.mem _ (by simp)) (fun a ha => by cases a <;> first | rfl | exact absurd rfl ha) rfl rfl rfl rfl

end Sys2Proof.Machine
end

