-- ==== Sys2Proof/Laws/KeepsOps.lean ====
section
/-!
SUPPORT. Every operation keeps the pieces of State it does not name, and the canonical form (Keeps): the shared operations.
Each lemma follows its definition, rule by rule.
-/
set_option Elab.async false
namespace Sys2Proof.Machine

/-! ### Machine/Ops.lean -/

theorem State.fset_keeps {ar : List Area} {s t : State} (h : Keeps ar s t) (f : Fld) (v : Nat)
    (hp : Allows ar [.regs] := by first | assumption | (refine Allows.mono ?_ (by assumption); decide)) :
    Keeps ar s (State.fset t f v) := by
  unfold State.fset
  repeat' first
    | with_reducible assumption
    | exact Allows.mono (by decide) hp
    | with_reducible apply State.wr_keeps

theorem State.wr64_keeps {ar : List Area} {s t : State} (h : Keeps ar s t) (key : Nat) (v : Nat)
    (hp : Allows ar [.regs] := by first | assumption | (refine Allows.mono ?_ (by assumption); decide)) :
    Keeps ar s (State.wr64 t key v) := by
  unfold State.wr64
  repeat' first
    | with_reducible assumption
    | exact Allows.mono (by decide) hp
    | with_reducible apply State.wr_keeps

theorem State.cntAdd_keeps {ar : List Area} {s t : State} (h : Keeps ar s t) (key : Nat) (n : Nat)
    (hp : Allows ar [.regs] := by first | assumption | (refine Allows.mono ?_ (by assumption); decide)) :
    Keeps ar s (State.cntAdd t key n) := by
  unfold State.cntAdd
  repeat' first
    | with_reducible assumption
    | exact Allows.mono (by decide) hp
    | with_reducible apply State.wr64_keeps

theorem State.cnt_keeps {ar : List Area} {s t : State} (h : Keeps ar s t) (key : Nat)
    (hp : Allows ar [.regs] := by first | assumption | (refine Allows.mono ?_ (by assumption); decide)) :
    Keeps ar s (State.cnt t key) := by
  unfold State.cnt
  repeat' first
    | with_reducible assumption
    | exact Allows.mono (by decide) hp
    | with_reducible apply State.cntAdd_keeps

theorem State.fsat_keeps {ar : List Area} {s t : State} (h : Keeps ar s t) (f : Fld) (n : Nat)
    (hp : Allows ar [.regs] := by first | assumption | (refine Allows.mono ?_ (by assumption); decide)) :
    Keeps ar s (State.fsat t f n) := by
  unfold State.fsat
  repeat' first
    | with_reducible assumption
    | exact Allows.mono (by decide) hp
    | with_reducible apply State.fset_keeps

theorem State.fsets_keeps {ar : List Area} {s t : State} (h : Keeps ar s t) (l : List (Fld × Nat))
    (hp : Allows ar [.regs] := by first | assumption | (refine Allows.mono ?_ (by assumption); decide)) :
    Keeps ar s (State.fsets t l) := by
  unfold State.fsets
  repeat' first
    | with_reducible assumption
    | exact Allows.mono (by decide) hp
    | with_reducible intro _
    | with_reducible apply State.fset_keeps
    | with_reducible apply Keeps.foldl

theorem State.setHalf_keeps {ar : List Area} {s t : State} (h : Keeps ar s t) (hh : Nat) (v : HalfSt)
    (hp : Allows ar [.halves] := by first | assumption | (refine Allows.mono ?_ (by assumption); decide)) :
    Keeps ar s (State.setHalf t hh v) := by
  unfold State.setHalf
  repeat' first
    | with_reducible assumption
    | exact Allows.mono (by decide) hp
    | with_reducible apply State.setHalves_keeps

theorem State.setTb_keeps {ar : List Area} {s t : State} (h : Keeps ar s t) (hh : Nat) (v : TimeBase)
    (hp : Allows ar [.tbs] := by first | assumption | (refine Allows.mono ?_ (by assumption); decide)) :
    Keeps ar s (State.setTb t hh v) := by
  unfold State.setTb
  repeat' first
    | with_reducible assumption
    | exact Allows.mono (by decide) hp
    | with_reducible apply State.setTbs_keeps

theorem State.setGen_keeps {ar : List Area} {s t : State} (h : Keeps ar s t) (n : Nat) (v : Gen)
    (hp : Allows ar [.gens] := by first | assumption | (refine Allows.mono ?_ (by assumption); decide)) :
    Keeps ar s (State.setGen t n v) := by
  unfold State.setGen
  repeat' first
    | with_reducible assumption
    | exact Allows.mono (by decide) hp
    | with_reducible apply State.setGens_keeps

theorem State.setTrig_keeps {ar : List Area} {s t : State} (h : Keeps ar s t) (n : Nat) (v : Trig)
    (hp : Allows ar [.trigs] := by first | assumption | (refine Allows.mono ?_ (by assumption); decide)) :
    Keeps ar s (State.setTrig t n v) := by
  unfold State.setTrig
  repeat' first
    | with_reducible assumption
    | exact Allows.mono (by decide) hp
    | with_reducible apply State.setTrigs_keeps

theorem State.setPort_keeps {ar : List Area} {s t : State} (h : Keeps ar s t) (p : Nat) (v : Port)
    (hp : Allows ar [.ports] := by first | assumption | (refine Allows.mono ?_ (by assumption); decide)) :
    Keeps ar s (State.setPort t p v) := by
  unfold State.setPort
  repeat' first
    | with_reducible assumption
    | exact Allows.mono (by decide) hp
    | with_reducible apply State.setPorts_keeps

theorem State.setFrame_keeps {ar : List Area} {s t : State} (h : Keeps ar s t) (f : Nat) (v : Frame)
    (hp : Allows ar [.frames] := by first | assumption | (refine Allows.mono ?_ (by assumption); decide)) :
    Keeps ar s (State.setFrame t f v) := by
  unfold State.setFrame
  repeat' first
    | with_reducible assumption
    | exact Allows.mono (by decide) hp
    | with_reducible apply State.setFrames_keeps

theorem State.setDom_keeps {ar : List Area} {s t : State} (h : Keeps ar s t) (d : Nat) (v : DomSt)
    (hp : Allows ar [.doms] := by first | assumption | (refine Allows.mono ?_ (by assumption); decide)) :
    Keeps ar s (State.setDom t d v) := by
  unfold State.setDom
  repeat' first
    | with_reducible assumption
    | exact Allows.mono (by decide) hp
    | with_reducible apply State.setDoms_keeps

theorem State.setTrunk_keeps {ar : List Area} {s t : State} (h : Keeps ar s t) (u0 : Nat) (v : Trunk)
    (hp : Allows ar [.trunks] := by first | assumption | (refine Allows.mono ?_ (by assumption); decide)) :
    Keeps ar s (State.setTrunk t u0 v) := by
  unfold State.setTrunk
  repeat' first
    | with_reducible assumption
    | exact Allows.mono (by decide) hp
    | with_reducible apply State.setTrunks_keeps

theorem State.emit_keeps {ar : List Area} {s t : State} (h : Keeps ar s t) (o : Out)
    (hp : Allows ar [.out] := by first | assumption | (refine Allows.mono ?_ (by assumption); decide)) :
    Keeps ar s (State.emit t o) := by
  unfold State.emit
  repeat' first
    | with_reducible assumption
    | exact Allows.mono (by decide) hp
    | with_reducible apply State.setOut_keeps

theorem State.useFree_keeps {ar : List Area} {s t : State} (h : Keeps ar s t)
    (hp : Allows ar [.free] := by first | assumption | (refine Allows.mono ?_ (by assumption); decide)) :
    Keeps ar s (State.useFree t) := by
  unfold State.useFree
  repeat' first
    | with_reducible assumption
    | exact Allows.mono (by decide) hp
    | with_reducible apply State.setFree_keeps

/-! ### Machine/Flags.lean -/

theorem State.raise_keeps {ar : List Area} {s t : State} (h : Keeps ar s t) (n : Nat)
    (hp : Allows ar [.regs] := by first | assumption | (refine Allows.mono ?_ (by assumption); decide)) :
    Keeps ar s (State.raise t n) := by
  unfold State.raise
  repeat' first
    | with_reducible assumption
    | exact Allows.mono (by decide) hp
    | with_reducible apply State.fset_keeps
    | with_reducible apply Keeps.ite

theorem State.raiseAon_keeps {ar : List Area} {s t : State} (h : Keeps ar s t) (n : Nat)
    (hp : Allows ar [.latches] := by first | assumption | (refine Allows.mono ?_ (by assumption); decide)) :
    Keeps ar s (State.raiseAon t n) := by
  unfold State.raiseAon
  repeat' first
    | with_reducible assumption
    | exact Allows.mono (by decide) hp
    | with_reducible apply State.setLatches_keeps
    | with_reducible apply Keeps.ite

theorem State.setFlag_keeps {ar : List Area} {s t : State} (h : Keeps ar s t) (f : Fld) (src : Nat)
    (hp : Allows ar [.regs] := by first | assumption | (refine Allows.mono ?_ (by assumption); decide)) :
    Keeps ar s (State.setFlag t f src) := by
  unfold State.setFlag
  repeat' first
    | with_reducible assumption
    | exact Allows.mono (by decide) hp
    | with_reducible apply State.fset_keeps
    | with_reducible apply State.raise_keeps

/-! ### Machine/TimeOps.lean -/

theorem State.ppsMark_keeps {ar : List Area} {s t : State} (h : Keeps ar s t) (hh : Nat) (u0 : Nat) (t' : Nat)
    (hp : Allows ar [.pps] := by first | assumption | (refine Allows.mono ?_ (by assumption); decide)) :
    Keeps ar s (State.ppsMark t hh u0 t') := by
  unfold State.ppsMark
  repeat' first
    | with_reducible assumption
    | exact Allows.mono (by decide) hp
    | with_reducible apply State.setPps_keeps
    | with_reducible apply Keeps.ite

theorem State.tick_keeps {ar : List Area} {s t : State} (h : Keeps ar s t) (hh : Nat)
    (hp : Allows ar [.tbs, .pps] := by first | assumption | (refine Allows.mono ?_ (by assumption); decide)) :
    Keeps ar s (State.tick t hh) := by
  unfold State.tick
  repeat' first
    | with_reducible assumption
    | exact Allows.mono (by decide) hp
    | with_reducible apply State.ppsMark_keeps
    | with_reducible apply State.setTb_keeps
    | with_reducible apply Keeps.ite

theorem State.tbRestart_keeps {ar : List Area} {s t : State} (h : Keeps ar s t) (hh : Nat)
    (hp : Allows ar [.regs, .tbs, .gens] := by first | assumption | (refine Allows.mono ?_ (by assumption); decide)) :
    Keeps ar s (State.tbRestart t hh) := by
  unfold State.tbRestart
  repeat' first
    | with_reducible assumption
    | exact Allows.mono (by decide) hp
    | with_reducible intro _
    | with_reducible apply State.fsets_keeps
    | with_reducible apply State.setGen_keeps
    | with_reducible apply State.setTb_keeps
    | with_reducible apply Keeps.forEach

theorem State.dropFollow_keeps {ar : List Area} {s t : State} (h : Keeps ar s t)
    (hp : Allows ar [.tbs] := by first | assumption | (refine Allows.mono ?_ (by assumption); decide)) :
    Keeps ar s (State.dropFollow t) := by
  unfold State.dropFollow
  repeat' first
    | with_reducible assumption
    | exact Allows.mono (by decide) hp
    | with_reducible intro _
    | with_reducible apply State.setTb_keeps
    | with_reducible apply Keeps.forEach

theorem State.reanchor_keeps {ar : List Area} {s t : State} (h : Keeps ar s t) (isSet : Bool) (n : Nat)
    (hp : Allows ar [.regs, .gens] := by first | assumption | (refine Allows.mono ?_ (by assumption); decide)) :
    Keeps ar s (State.reanchor t isSet n) := by
  unfold State.reanchor
  repeat' first
    | with_reducible assumption
    | exact Allows.mono (by decide) hp
    | with_reducible apply State.setFlag_keeps
    | with_reducible apply State.setGen_keeps
    | with_reducible apply Keeps.ite

theorem State.reanchorHalf_keeps {ar : List Area} {s t : State} (h : Keeps ar s t) (hh : Nat) (isSet : Bool)
    (hp : Allows ar [.regs, .gens] := by first | assumption | (refine Allows.mono ?_ (by assumption); decide)) :
    Keeps ar s (State.reanchorHalf t hh isSet) := by
  unfold State.reanchorHalf
  repeat' first
    | with_reducible assumption
    | exact Allows.mono (by decide) hp
    | with_reducible intro _
    | with_reducible apply State.reanchor_keeps
    | with_reducible apply Keeps.forEach

theorem State.newTime_keeps {ar : List Area} {s t : State} (h : Keeps ar s t) (hh : Nat) (u0 : Nat) (isSet : Bool)
    (hp : Allows ar [.regs, .tbs, .pps, .gens] := by first | assumption | (refine Allows.mono ?_ (by assumption); decide)) :
    Keeps ar s (State.newTime t hh u0 isSet) := by
  unfold State.newTime
  repeat' first
    | with_reducible assumption
    | exact Allows.mono (by decide) hp
    | with_reducible apply State.ppsMark_keeps
    | with_reducible apply State.reanchorHalf_keeps
    | with_reducible apply State.setTb_keeps

theorem State.driveTrig_keeps {ar : List Area} {s t : State} (h : Keeps ar s t) (n : Nat) (v : Trig)
    (hp : Allows ar [.out, .trigs] := by first | assumption | (refine Allows.mono ?_ (by assumption); decide)) :
    Keeps ar s (State.driveTrig t n v) := by
  unfold State.driveTrig
  repeat' first
    | with_reducible assumption
    | exact Allows.mono (by decide) hp
    | with_reducible apply State.emit_keeps
    | with_reducible apply State.setTrig_keeps
    | with_reducible apply Keeps.ite

theorem State.syncTrig_keeps {ar : List Area} {s t : State} (h : Keeps ar s t) (n : Nat)
    (hp : Allows ar [.regs, .out, .trigs] := by first | assumption | (refine Allows.mono ?_ (by assumption); decide)) :
    Keeps ar s (State.syncTrig t n) := by
  unfold State.syncTrig
  repeat' first
    | with_reducible assumption
    | exact Allows.mono (by decide) hp
    | with_reducible apply State.driveTrig_keeps
    | with_reducible apply State.setFlag_keeps
    | with_reducible apply Keeps.ite

theorem State.syncTrigs_keeps {ar : List Area} {s t : State} (h : Keeps ar s t)
    (hp : Allows ar [.regs, .out, .trigs] := by first | assumption | (refine Allows.mono ?_ (by assumption); decide)) :
    Keeps ar s (State.syncTrigs t) := by
  unfold State.syncTrigs
  repeat' first
    | with_reducible assumption
    | exact Allows.mono (by decide) hp
    | with_reducible intro _
    | with_reducible apply State.syncTrig_keeps
    | with_reducible apply Keeps.forEach

theorem State.checkTrig_keeps {ar : List Area} {s t : State} (h : Keeps ar s t) (n : Nat)
    (hp : Allows ar [.regs] := by first | assumption | (refine Allows.mono ?_ (by assumption); decide)) :
    Keeps ar s (State.checkTrig t n) := by
  unfold State.checkTrig
  repeat' first
    | with_reducible assumption
    | exact Allows.mono (by decide) hp
    | with_reducible apply State.setFlag_keeps
    | with_reducible apply Keeps.ite

theorem State.trigBoundary_keeps {ar : List Area} {s t : State} (h : Keeps ar s t) (n : Nat) (b : Nat) (k : Nat)
    (hp : Allows ar [.out, .trigs] := by first | assumption | (refine Allows.mono ?_ (by assumption); decide)) :
    Keeps ar s (State.trigBoundary t n b k) := by
  unfold State.trigBoundary
  repeat' first
    | with_reducible assumption
    | exact Allows.mono (by decide) hp
    | with_reducible apply State.driveTrig_keeps
    | with_reducible apply Keeps.ite

theorem State.setJoined_keeps {ar : List Area} {s t : State} (h : Keeps ar s t) (v : Nat)
    (hp : Allows ar [.regs] := by first | assumption | (refine Allows.mono ?_ (by assumption); decide)) :
    Keeps ar s (State.setJoined t v) := by
  unfold State.setJoined
  repeat' first
    | with_reducible assumption
    | exact Allows.mono (by decide) hp
    | with_reducible intro _
    | with_reducible apply State.fset_keeps
    | with_reducible apply Keeps.forEach

theorem State.snapshot_keeps {ar : List Area} {s t : State} (h : Keeps ar s t) (hh : Nat)
    (hp : Allows ar [.regs] := by first | assumption | (refine Allows.mono ?_ (by assumption); decide)) :
    Keeps ar s (State.snapshot t hh) := by
  unfold State.snapshot
  repeat' first
    | with_reducible assumption
    | exact Allows.mono (by decide) hp
    | with_reducible apply State.fsets_keeps

/-! ### Machine/MemOps.lean -/

theorem State.raiseMem_keeps {ar : List Area} {s t : State} (h : Keeps ar s t)
    (hp : Allows ar [.regs] := by first | assumption | (refine Allows.mono ?_ (by assumption); decide)) :
    Keeps ar s (State.raiseMem t) := by
  unfold State.raiseMem
  repeat' first
    | with_reducible assumption
    | exact Allows.mono (by decide) hp
    | with_reducible apply State.raise_keeps

theorem State.memCnt_keeps {ar : List Area} {s t : State} (h : Keeps ar s t) (k : Nat)
    (hp : Allows ar [.regs] := by first | assumption | (refine Allows.mono ?_ (by assumption); decide)) :
    Keeps ar s (State.memCnt t k) := by
  unfold State.memCnt
  repeat' first
    | with_reducible assumption
    | exact Allows.mono (by decide) hp
    | with_reducible apply State.cnt_keeps

theorem State.setGran_keeps {ar : List Area} {s t : State} (h : Keeps ar s t) (g : Nat) (v : Gran)
    (hp : Allows ar [.regs, .mem] := by first | assumption | (refine Allows.mono ?_ (by assumption); decide)) :
    Keeps ar s (State.setGran t g v) := by
  unfold State.setGran
  repeat' first
    | with_reducible assumption
    | exact Allows.mono (by decide) hp
    | with_reducible apply State.fset_keeps
    | with_reducible apply State.setMem_keeps
    | with_reducible apply Keeps.ite
    | rfl

theorem State.denyRegion_keeps {ar : List Area} {s t : State} (h : Keeps ar s t) (m : Nat) (write : Bool) (addr : Nat)
    (hp : Allows ar [.regs] := by first | assumption | (refine Allows.mono ?_ (by assumption); decide)) :
    Keeps ar s (State.denyRegion t m write addr) := by
  unfold State.denyRegion
  repeat' first
    | with_reducible assumption
    | exact Allows.mono (by decide) hp
    | with_reducible apply State.fsets_keeps
    | with_reducible apply State.memCnt_keeps
    | with_reducible apply State.raiseMem_keeps
    | with_reducible apply Keeps.ite

theorem State.freeBytes_keeps {ar : List Area} {s t : State} (h : Keeps ar s t) (k : Nat)
    (hp : Allows ar [.free] := by first | assumption | (refine Allows.mono ?_ (by assumption); decide)) : Keeps ar s (t.freeBytes k).2 := by
  induction k generalizing t with
  | zero => exact h
  | succ k ih => exact ih (State.useFree_keeps h)

theorem State.coverWords_keeps {ar : List Area} {s t : State} (h : Keeps ar s t) (g : Nat) (off : Nat) (len : Nat)
    (hp : Allows ar [.mem] := by first | assumption | (refine Allows.mono ?_ (by assumption); decide)) :
    Keeps ar s (State.coverWords t g off len) := by
  unfold State.coverWords
  split
  · exact h
  · exact State.setMem_rising_keeps h _ fun hw => by dsimp only; exact KMap.rising_clear hw _

theorem State.pack_keeps {ar : List Area} {s t u : State} (h : Keeps ar s t) (owner qp : Nat) (banks : List Nat) (fuel : Nat)
    (hp : Allows ar [.regs, .mem] := by first | assumption | (refine Allows.mono ?_ (by assumption); decide)) :
    ∀ (lo left : Nat) (acc ps : List Part), t.pack owner qp banks lo left acc fuel = some (ps, u) → Keeps ar s u := by
  induction fuel generalizing t with
  | zero =>
    intro lo left acc ps hq
    simp only [State.pack] at hq
    split at hq <;> simp at hq
    obtain ⟨_, rfl⟩ := hq; exact h
  | succ n ih =>
    intro lo left acc ps hq
    simp only [State.pack] at hq
    split at hq
    · simp at hq; obtain ⟨_, rfl⟩ := hq; exact h
    · split at hq
      · exact ih (State.setGran_keeps (State.coverWords_keeps h _ _ _) _ _) _ _ _ _ hq
      · split at hq
        · simp at hq
        · exact ih (State.setGran_keeps (State.coverWords_keeps h _ _ _) _ _) _ _ _ _ hq

theorem State.place_keeps {ar : List Area} {s t u : State} (h : Keeps ar s t) (owner qp : Nat) (banks : List Nat) (n : Nat) (ps : List Part)
    (hq : t.place owner qp banks n = .placed u ps)
    (hp : Allows ar [.regs, .mem] := by first | assumption | (refine Allows.mono ?_ (by assumption); decide)) : Keeps ar s u := by
  unfold State.place at hq
  repeat' split at hq
  all_goals simp at hq
  all_goals obtain ⟨rfl, rfl⟩ := hq
  all_goals exact State.pack_keeps h _ _ _ _ (Allows.mono (by decide) hp) _ _ _ _ (by assumption)

theorem State.writeParts_keeps {ar : List Area} {s t : State} (h : Keeps ar s t) (m : Nat) (parts : List Part) (bs : List Byte)
    (hp : Allows ar [.regs, .free] := by first | assumption | (refine Allows.mono ?_ (by assumption); decide)) :
    Keeps ar s (State.writeParts t m parts bs).2 := by
  unfold State.writeParts
  repeat' first
    | with_reducible assumption
    | exact Allows.mono (by decide) hp
    | with_reducible intro _
    | with_reducible apply State.denyRegion_keeps
    | with_reducible apply State.freeBytes_keeps
    | with_reducible apply Keeps.foldl
    | with_reducible apply Keeps.foldl2
    | with_reducible apply Keeps.ite
    | (lift_lets; intro x; refine (?_ : Keeps ar s x.2 → _) ?_ <;> [(intro _; clear_value x); skip])
    | with_reducible apply hx
    | split

theorem State.readParts_keeps {ar : List Area} {s t : State} (h : Keeps ar s t) (m : Nat) (parts : List Part) (bs : List Byte)
    (hp : Allows ar [.regs] := by first | assumption | (refine Allows.mono ?_ (by assumption); decide)) :
    Keeps ar s (State.readParts t m parts bs).2 := by
  unfold State.readParts
  repeat' first
    | with_reducible assumption
    | exact Allows.mono (by decide) hp
    | with_reducible intro _
    | with_reducible apply State.denyRegion_keeps
    | with_reducible apply Keeps.foldl
    | with_reducible apply Keeps.foldl2
    | with_reducible apply Keeps.ite
    | split

theorem State.markRetired_keeps {ar : List Area} {s t : State} (h : Keeps ar s t) (g : Nat)
    (hp : Allows ar [.regs, .mem] := by first | assumption | (refine Allows.mono ?_ (by assumption); decide)) :
    Keeps ar s (State.markRetired t g) := by
  unfold State.markRetired
  repeat' first
    | with_reducible assumption
    | exact Allows.mono (by decide) hp
    | with_reducible apply State.fset_keeps
    | with_reducible apply State.memCnt_keeps
    | with_reducible apply State.setGran_keeps

theorem State.freeGran_keeps {ar : List Area} {s t : State} (h : Keeps ar s t) (g : Nat)
    (hp : Allows ar [.regs, .mem] := by first | assumption | (refine Allows.mono ?_ (by assumption); decide)) :
    Keeps ar s (State.freeGran t g) := by
  unfold State.freeGran
  repeat' first
    | with_reducible assumption
    | exact Allows.mono (by decide) hp
    | with_reducible apply State.markRetired_keeps
    | with_reducible apply State.setGran_keeps
    | with_reducible apply State.setMem_keeps
    | with_reducible apply Keeps.ite
    | rfl

theorem State.cleanFree_keeps {ar : List Area} {s t : State} (h : Keeps ar s t) (g : Nat) (off : Nat) (len : Nat)
    (hp : Allows ar [.regs, .mem] := by first | assumption | (refine Allows.mono ?_ (by assumption); decide)) :
    Keeps ar s (State.cleanFree t g off len) := by
  unfold State.cleanFree
  repeat' first
    | with_reducible assumption
    | exact Allows.mono (by decide) hp
    | with_reducible intro _
    | with_reducible apply State.setGran_keeps
    | with_reducible apply Keeps.ite

theorem State.sweepGrans_keeps {ar : List Area} {s t : State} (h : Keeps ar s t)
    (hp : Allows ar [.regs, .mem] := by first | assumption | (refine Allows.mono ?_ (by assumption); decide)) :
    Keeps ar s (State.sweepGrans t) := by
  unfold State.sweepGrans
  repeat' first
    | with_reducible assumption
    | exact Allows.mono (by decide) hp
    | with_reducible intro _
    | with_reducible apply State.freeGran_keeps
    | with_reducible apply Keeps.ite
    | with_reducible apply Keeps.forEach

/-! ### Machine/QueueOps.lean -/

theorem State.setQp_keeps {ar : List Area} {s t : State} (h : Keeps ar s t) (q : Nat) (v : Qp)
    (hp : Allows ar [.qps] := by first | assumption | (refine Allows.mono ?_ (by assumption); decide)) :
    Keeps ar s (State.setQp t q v) := by
  unfold State.setQp
  repeat' first
    | with_reducible assumption
    | exact Allows.mono (by decide) hp
    | with_reducible apply State.setQps_keeps

theorem State.setFunc_keeps {ar : List Area} {s t : State} (h : Keeps ar s t) (f : Nat) (v : Func)
    (hp : Allows ar [.funcs] := by first | assumption | (refine Allows.mono ?_ (by assumption); decide)) :
    Keeps ar s (State.setFunc t f v) := by
  unfold State.setFunc
  repeat' first
    | with_reducible assumption
    | exact Allows.mono (by decide) hp
    | with_reducible intro _
    | with_reducible apply State.setFuncs_keeps

theorem State.qCnt_keeps {ar : List Area} {s t : State} (h : Keeps ar s t) (k : Nat)
    (hp : Allows ar [.regs] := by first | assumption | (refine Allows.mono ?_ (by assumption); decide)) :
    Keeps ar s (State.qCnt t k) := by
  unfold State.qCnt
  repeat' first
    | with_reducible assumption
    | exact Allows.mono (by decide) hp
    | with_reducible apply State.cnt_keeps

theorem State.postFnEvent_keeps {ar : List Area} {s t : State} (h : Keeps ar s t) (f : Nat) (ev : Nat) (arg : Nat) (w1 : Nat) (w2 : Nat) (w3 : Nat)
    (hp : Allows ar [.funcs, .qps] := by first | assumption | (refine Allows.mono ?_ (by assumption); decide)) :
    Keeps ar s (State.postFnEvent t f ev arg w1 w2 w3) := by
  unfold State.postFnEvent
  repeat' first
    | with_reducible assumption
    | exact Allows.mono (by decide) hp
    | with_reducible intro _
    | with_reducible apply State.setFunc_keeps
    | with_reducible apply State.setQp_keeps
    | with_reducible apply Keeps.ite

theorem State.queueFault_keeps {ar : List Area} {s t : State} (h : Keeps ar s t) (q : Nat) (cause : Nat)
    (hp : Allows ar [.regs, .funcs, .qps] := by first | assumption | (refine Allows.mono ?_ (by assumption); decide)) :
    Keeps ar s (State.queueFault t q cause) := by
  unfold State.queueFault
  repeat' first
    | with_reducible assumption
    | exact Allows.mono (by decide) hp
    | with_reducible apply State.fsets_keeps
    | with_reducible apply State.postFnEvent_keeps

theorem State.poisonEvent_keeps {ar : List Area} {s t : State} (h : Keeps ar s t) (g : Nat) (a : Nat)
    (hp : Allows ar [.funcs, .qps] := by first | assumption | (refine Allows.mono ?_ (by assumption); decide)) :
    Keeps ar s (State.poisonEvent t g a) := by
  unfold State.poisonEvent
  repeat' first
    | with_reducible assumption
    | exact Allows.mono (by decide) hp
    | with_reducible apply State.postFnEvent_keeps
    | with_reducible apply Keeps.ite

theorem State.meetPoison_keeps {ar : List Area} {s t : State} (h : Keeps ar s t) (parts : List Part)
    (hp : Allows ar [.funcs, .qps] := by first | assumption | (refine Allows.mono ?_ (by assumption); decide)) :
    Keeps ar s (State.meetPoison t parts) := by
  unfold State.meetPoison
  repeat' first
    | with_reducible assumption
    | exact Allows.mono (by decide) hp
    | with_reducible apply State.poisonEvent_keeps
    | refine Keeps.snd ?_ (by assumption)
    | refine Keeps.snd2 ?_ (by assumption)
    | split

theorem State.quotaCheck_keeps {ar : List Area} {s t : State} (h : Keeps ar s t) (f : Nat) (raise : Bool)
    (hp : Allows ar [.regs, .funcs, .qps] := by first | assumption | (refine Allows.mono ?_ (by assumption); decide)) :
    Keeps ar s (State.quotaCheck t f raise) := by
  unfold State.quotaCheck
  repeat' first
    | with_reducible assumption
    | exact Allows.mono (by decide) hp
    | with_reducible intro _
    | with_reducible apply State.postFnEvent_keeps
    | with_reducible apply State.raise_keeps
    | with_reducible apply State.setFunc_keeps
    | with_reducible apply Keeps.ite

theorem State.settleTx_keeps {ar : List Area} {s t : State} (h : Keeps ar s t) (q n : Nat)
    (hp : Allows ar [.regs, .qps] := by first | assumption | (refine Allows.mono ?_ (by assumption); decide)) : Keeps ar s (t.settleTx q n) := by
  induction n generalizing t with
  | zero => exact h
  | succ n ih =>
    unfold State.settleTx
    repeat' first
    | with_reducible assumption
    | exact Allows.mono (by decide) hp
    | with_reducible apply ih
    | with_reducible apply State.setQp_keeps
    | with_reducible apply State.qCnt_keeps
    | with_reducible apply Keeps.ite
    | split
    | dsimp only

theorem State.settleQp_keeps {ar : List Area} {s t : State} (h : Keeps ar s t) (q : Nat)
    (hp : Allows ar [.regs, .qps] := by first | assumption | (refine Allows.mono ?_ (by assumption); decide)) :
    Keeps ar s (State.settleQp t q) := by
  unfold State.settleQp
  repeat' first
    | with_reducible assumption
    | exact Allows.mono (by decide) hp
    | with_reducible apply State.settleTx_keeps

theorem State.hostDone_keeps {ar : List Area} {s t : State} (h : Keeps ar s t) (host : Option (Nat × Nat)) (took : Bool) (stat : Nat) (stamp : Int)
    (hp : Allows ar [.regs, .qps] := by first | assumption | (refine Allows.mono ?_ (by assumption); decide)) :
    Keeps ar s (State.hostDone t host took stat stamp) := by
  unfold State.hostDone
  repeat' first
    | with_reducible assumption
    | exact Allows.mono (by decide) hp
    | with_reducible apply State.setQp_keeps
    | with_reducible apply State.settleQp_keeps
    | with_reducible apply Keeps.ite
    | refine Keeps.snd ?_ (by assumption)
    | refine Keeps.snd2 ?_ (by assumption)
    | with_reducible apply hx
    | split

theorem State.hostCode_keeps {ar : List Area} {s t : State} (h : Keeps ar s t) (host : Option (Nat × Nat)) (code : Nat)
    (hp : Allows ar [.qps] := by first | assumption | (refine Allows.mono ?_ (by assumption); decide)) :
    Keeps ar s (State.hostCode t host code) := by
  unfold State.hostCode
  repeat' first
    | with_reducible assumption
    | exact Allows.mono (by decide) hp
    | with_reducible intro _
    | with_reducible apply State.setQp_keeps
    | with_reducible apply Keeps.ite
    | refine Keeps.snd ?_ (by assumption)
    | refine Keeps.snd2 ?_ (by assumption)
    | with_reducible apply hx
    | split

/-! ### Machine/ThreadOps.lean -/

theorem State.setThr_keeps {ar : List Area} {s t : State} (h : Keeps ar s t) (e : Nat) (n : Nat) (v : Thread)
    (hp : Allows ar [.threads] := by first | assumption | (refine Allows.mono ?_ (by assumption); decide)) :
    Keeps ar s (State.setThr t e n v) := by
  unfold State.setThr
  repeat' first
    | with_reducible assumption
    | exact Allows.mono (by decide) hp
    | with_reducible apply State.setThreads_keeps

theorem State.setThrState_keeps {ar : List Area} {s t : State} (h : Keeps ar s t) (e : Nat) (n : Nat) (v : Nat)
    (hp : Allows ar [.regs] := by first | assumption | (refine Allows.mono ?_ (by assumption); decide)) :
    Keeps ar s (State.setThrState t e n v) := by
  unfold State.setThrState
  repeat' first
    | with_reducible assumption
    | exact Allows.mono (by decide) hp
    | with_reducible apply State.fset_keeps

theorem State.ceCnt_keeps {ar : List Area} {s t : State} (h : Keeps ar s t) (e : Nat) (k : Nat)
    (hp : Allows ar [.regs] := by first | assumption | (refine Allows.mono ?_ (by assumption); decide)) :
    Keeps ar s (State.ceCnt t e k) := by
  unfold State.ceCnt
  repeat' first
    | with_reducible assumption
    | exact Allows.mono (by decide) hp
    | with_reducible apply State.cnt_keeps

theorem State.setPc_keeps {ar : List Area} {s t : State} (h : Keeps ar s t) (e : Nat) (n : Nat) (pc : Nat)
    (hp : Allows ar [.regs] := by first | assumption | (refine Allows.mono ?_ (by assumption); decide)) :
    Keeps ar s (State.setPc t e n pc) := by
  unfold State.setPc
  repeat' first
    | with_reducible assumption
    | exact Allows.mono (by decide) hp
    | with_reducible apply State.fset_keeps

theorem State.postEvt_keeps {ar : List Area} {s t : State} (h : Keeps ar s t) (e : Nat) (n : Nat) (b : Nat)
    (hp : Allows ar [.regs] := by first | assumption | (refine Allows.mono ?_ (by assumption); decide)) :
    Keeps ar s (State.postEvt t e n b) := by
  unfold State.postEvt
  repeat' first
    | with_reducible assumption
    | exact Allows.mono (by decide) hp
    | with_reducible apply State.fset_keeps

theorem State.postThr_keeps {ar : List Area} {s t : State} (h : Keeps ar s t) (k : Nat) (b : Nat)
    (hp : Allows ar [.regs] := by first | assumption | (refine Allows.mono ?_ (by assumption); decide)) :
    Keeps ar s (State.postThr t k b) := by
  unfold State.postThr
  repeat' first
    | with_reducible assumption
    | exact Allows.mono (by decide) hp
    | with_reducible apply State.postEvt_keeps

theorem State.cycleEvents_keeps {ar : List Area} {s t : State} (h : Keeps ar s t) (g : Nat)
    (hp : Allows ar [.regs] := by first | assumption | (refine Allows.mono ?_ (by assumption); decide)) :
    Keeps ar s (State.cycleEvents t g) := by
  unfold State.cycleEvents
  repeat' first
    | with_reducible assumption
    | exact Allows.mono (by decide) hp
    | with_reducible intro _
    | with_reducible apply State.postEvt_keeps
    | with_reducible apply Keeps.forEach

theorem State.releaseThread_keeps {ar : List Area} {s t : State} (h : Keeps ar s t) (e : Nat) (n : Nat)
    (hp : Allows ar [.regs] := by first | assumption | (refine Allows.mono ?_ (by assumption); decide)) :
    Keeps ar s (State.releaseThread t e n) := by
  unfold State.releaseThread
  repeat' first
    | with_reducible assumption
    | exact Allows.mono (by decide) hp
    | with_reducible apply State.fset_keeps
    | with_reducible apply State.setFlag_keeps
    | with_reducible apply State.setThrState_keeps
    | with_reducible apply Keeps.ite

theorem State.haltThread_keeps {ar : List Area} {s t : State} (h : Keeps ar s t) (e : Nat) (n : Nat)
    (hp : Allows ar [.regs] := by first | assumption | (refine Allows.mono ?_ (by assumption); decide)) :
    Keeps ar s (State.haltThread t e n) := by
  unfold State.haltThread
  repeat' first
    | with_reducible assumption
    | exact Allows.mono (by decide) hp
    | with_reducible apply State.setThrState_keeps
    | with_reducible apply Keeps.ite

theorem State.collideThread_keeps {ar : List Area} {s t : State} (h : Keeps ar s t) (e : Nat) (n : Nat)
    (hp : Allows ar [.regs] := by first | assumption | (refine Allows.mono ?_ (by assumption); decide)) :
    Keeps ar s (State.collideThread t e n) := by
  unfold State.collideThread
  repeat' first
    | with_reducible assumption
    | exact Allows.mono (by decide) hp
    | with_reducible apply State.ceCnt_keeps
    | with_reducible apply State.haltThread_keeps
    | with_reducible apply State.setFlag_keeps

theorem State.ctlThread_keeps {ar : List Area} {s t : State} (h : Keeps ar s t) (e : Nat) (n : Nat) (rel : Bool) (halt : Bool)
    (hp : Allows ar [.regs] := by first | assumption | (refine Allows.mono ?_ (by assumption); decide)) :
    Keeps ar s (State.ctlThread t e n rel halt) := by
  unfold State.ctlThread
  repeat' first
    | with_reducible assumption
    | exact Allows.mono (by decide) hp
    | with_reducible apply State.collideThread_keeps
    | with_reducible apply State.haltThread_keeps
    | with_reducible apply State.releaseThread_keeps
    | with_reducible apply Keeps.ite

theorem State.haltEngine_keeps {ar : List Area} {s t : State} (h : Keeps ar s t) (e : Nat)
    (hp : Allows ar [.regs] := by first | assumption | (refine Allows.mono ?_ (by assumption); decide)) :
    Keeps ar s (State.haltEngine t e) := by
  unfold State.haltEngine
  repeat' first
    | with_reducible assumption
    | exact Allows.mono (by decide) hp
    | with_reducible intro _
    | with_reducible apply State.haltThread_keeps
    | with_reducible apply Keeps.forEach

theorem State.stopEngine_keeps {ar : List Area} {s t : State} (h : Keeps ar s t) (e : Nat)
    (hp : Allows ar [.regs] := by first | assumption | (refine Allows.mono ?_ (by assumption); decide)) :
    Keeps ar s (State.stopEngine t e) := by
  unfold State.stopEngine
  repeat' first
    | with_reducible assumption
    | exact Allows.mono (by decide) hp
    | with_reducible apply State.fset_keeps
    | with_reducible apply State.haltEngine_keeps

theorem State.haltHalfEngines_keeps {ar : List Area} {s t : State} (h : Keeps ar s t) (hh : Nat)
    (hp : Allows ar [.regs] := by first | assumption | (refine Allows.mono ?_ (by assumption); decide)) :
    Keeps ar s (State.haltHalfEngines t hh) := by
  unfold State.haltHalfEngines
  repeat' first
    | with_reducible assumption
    | exact Allows.mono (by decide) hp
    | with_reducible intro _
    | with_reducible apply State.stopEngine_keeps
    | with_reducible apply Keeps.forEach

theorem State.runRelease_keeps {ar : List Area} {s t : State} (h : Keeps ar s t) (e : Nat) (met : Nat)
    (hp : Allows ar [.regs] := by first | assumption | (refine Allows.mono ?_ (by assumption); decide)) :
    Keeps ar s (State.runRelease t e met) := by
  unfold State.runRelease
  repeat' first
    | with_reducible assumption
    | exact Allows.mono (by decide) hp
    | with_reducible intro _
    | with_reducible apply State.ctlThread_keeps
    | with_reducible apply State.setPc_keeps
    | with_reducible apply Keeps.forEach
    | with_reducible apply Keeps.ite

theorem State.resetThread_keeps {ar : List Area} {s t : State} (h : Keeps ar s t) (e : Nat) (n : Nat)
    (hp : Allows ar [.regs, .threads] := by first | assumption | (refine Allows.mono ?_ (by assumption); decide)) :
    Keeps ar s (State.resetThread t e n) := by
  unfold State.resetThread
  repeat' first
    | with_reducible assumption
    | exact Allows.mono (by decide) hp
    | with_reducible intro _
    | with_reducible apply State.setThr_keeps
    | with_reducible apply State.wr_keeps
    | with_reducible apply Keeps.forEach

theorem State.returnThread_keeps {ar : List Area} {s t : State} (h : Keeps ar s t) (e : Nat) (n : Nat)
    (hp : Allows ar [.regs, .threads] := by first | assumption | (refine Allows.mono ?_ (by assumption); decide)) :
    Keeps ar s (State.returnThread t e n) := by
  unfold State.returnThread
  repeat' first
    | with_reducible assumption
    | exact Allows.mono (by decide) hp
    | with_reducible apply State.fsets_keeps
    | with_reducible apply State.setThr_keeps
    | with_reducible apply State.setThrState_keeps
    | with_reducible apply State.wr_keeps
    | with_reducible apply Keeps.ite

theorem State.eput_keeps {ar : List Area} {s t : State} (h : Keeps ar s t) (e off : Nat) (bs : List Byte)
    (hp : Allows ar [.emem] := by first | assumption | (refine Allows.mono ?_ (by assumption); decide)) : Keeps ar s (t.eput e off bs) := by
  have key : ∀ (l : List Byte) (o : Nat) (m : KMap Byte), KMap.wf (fun _ => (0 : Byte)) m = true →
      KMap.wf (fun _ => (0 : Byte))
        (l.foldl (fun (a : Nat × KMap Byte) b => (a.1 + 1, KMap.put 0 a.2 (ememKey e a.1) b)) (o, m)).2 = true := by
    intro bs
    induction bs with
    | nil => exact fun _ _ hm => hm
    | cons b r ih => exact fun o m hm => ih _ _ (KMap.wf_put (d := fun _ => (0 : Byte)) hm _ b)
  exact h.emem _ (hp.mem _ (by simp)) fun x => key _ _ _ x

theorem State.spliceBit_keeps {ar : List Area} {s t : State} (h : Keeps ar s t) (e : Nat) (i : Nat) (b : Nat) (v : Bool)
    (hp : Allows ar [.emem] := by first | assumption | (refine Allows.mono ?_ (by assumption); decide)) :
    Keeps ar s (State.spliceBit t e i b v) := by
  unfold State.spliceBit
  repeat' first
    | with_reducible assumption
    | exact Allows.mono (by decide) hp
    | with_reducible apply State.eput_keeps

theorem State.spliceNote_keeps {ar : List Area} {s t : State} (h : Keeps ar s t) (ed : Edit) (queued : Bool) (bits : List Nat)
    (hp : Allows ar [.emem] := by first | assumption | (refine Allows.mono ?_ (by assumption); decide)) :
    Keeps ar s (State.spliceNote t ed queued bits) := by
  unfold State.spliceNote
  repeat' first
    | with_reducible assumption
    | exact Allows.mono (by decide) hp
    | with_reducible intro _
    | with_reducible apply State.spliceBit_keeps
    | with_reducible apply Keeps.forEach

/-! ### Machine/TrunkOps.lean -/

theorem State.queueUrgent_keeps {ar : List Area} {s t : State} (h : Keeps ar s t) (u0 : Nat) (u : Urgent)
    (hp : Allows ar [.trunks] := by first | assumption | (refine Allows.mono ?_ (by assumption); decide)) :
    Keeps ar s (State.queueUrgent t u0 u) := by
  unfold State.queueUrgent
  repeat' first
    | with_reducible assumption
    | exact Allows.mono (by decide) hp
    | with_reducible intro _
    | with_reducible apply State.setTrunk_keeps
    | with_reducible apply Keeps.ite

theorem State.updatePair_keeps {ar : List Area} {s t : State} (h : Keeps ar s t) (u0 : Nat)
    (hp : Allows ar [.regs, .trunks] := by first | assumption | (refine Allows.mono ?_ (by assumption); decide)) :
    Keeps ar s (State.updatePair t u0) := by
  unfold State.updatePair
  repeat' first
    | with_reducible assumption
    | exact Allows.mono (by decide) hp
    | with_reducible apply State.fsets_keeps
    | with_reducible apply State.queueUrgent_keeps
    | with_reducible apply Keeps.ite

theorem State.updatePairs_keeps {ar : List Area} {s t : State} (h : Keeps ar s t)
    (hp : Allows ar [.regs, .trunks] := by first | assumption | (refine Allows.mono ?_ (by assumption); decide)) :
    Keeps ar s (State.updatePairs t) := by
  unfold State.updatePairs
  repeat' first
    | with_reducible assumption
    | exact Allows.mono (by decide) hp
    | with_reducible intro _
    | with_reducible apply State.fset_keeps
    | with_reducible apply State.updatePair_keeps
    | with_reducible apply Keeps.forEach

theorem State.flushGen_keeps {ar : List Area} {s t : State} (h : Keeps ar s t) (k : Nat)
    (hp : Allows ar [.regs, .cls] := by first | assumption | (refine Allows.mono ?_ (by assumption); decide)) :
    Keeps ar s (State.flushGen t k) := by
  unfold State.flushGen
  repeat' first
    | with_reducible assumption
    | exact Allows.mono (by decide) hp
    | with_reducible apply State.fset_keeps
    | with_reducible apply State.setCls_keeps
    | with_reducible apply Keeps.ite

theorem State.flushRing_keeps {ar : List Area} {s t : State} (h : Keeps ar s t)
    (hp : Allows ar [.regs, .cls] := by first | assumption | (refine Allows.mono ?_ (by assumption); decide)) :
    Keeps ar s (State.flushRing t) := by
  unfold State.flushRing
  repeat' first
    | with_reducible assumption
    | exact Allows.mono (by decide) hp
    | with_reducible apply State.flushGen_keeps
    | with_reducible apply State.fsat_keeps
    | with_reducible apply Keeps.ite

theorem State.block_keeps {ar : List Area} {s t : State} (h : Keeps ar s t) (u0 : Nat) (v : Nat)
    (hp : Allows ar [.regs, .trunks] := by first | assumption | (refine Allows.mono ?_ (by assumption); decide)) :
    Keeps ar s (State.block t u0 v) := by
  unfold State.block
  repeat' first
    | with_reducible assumption
    | exact Allows.mono (by decide) hp
    | with_reducible apply State.fset_keeps
    | with_reducible apply State.setTrunk_keeps

theorem State.blockLocals_keeps {ar : List Area} {s t : State} (h : Keeps ar s t)
    (hp : Allows ar [.regs, .trunks] := by first | assumption | (refine Allows.mono ?_ (by assumption); decide)) :
    Keeps ar s (State.blockLocals t) := by
  unfold State.blockLocals
  repeat' first
    | with_reducible assumption
    | exact Allows.mono (by decide) hp
    | with_reducible intro _
    | with_reducible apply State.block_keeps
    | with_reducible apply Keeps.forEach

theorem State.ownerUnblock_keeps {ar : List Area} {s t : State} (h : Keeps ar s t)
    (hp : Allows ar [.regs, .trunks] := by first | assumption | (refine Allows.mono ?_ (by assumption); decide)) :
    Keeps ar s (State.ownerUnblock t) := by
  unfold State.ownerUnblock
  repeat' first
    | with_reducible assumption
    | exact Allows.mono (by decide) hp
    | with_reducible apply State.block_keeps
    | with_reducible apply Keeps.ite

theorem State.setWtr_keeps {ar : List Area} {s t : State} (h : Keeps ar s t) (v : Bool) (left : Nat)
    (hp : Allows ar [.regs, .node] := by first | assumption | (refine Allows.mono ?_ (by assumption); decide)) :
    Keeps ar s (State.setWtr t v left) := by
  unfold State.setWtr
  repeat' first
    | with_reducible assumption
    | exact Allows.mono (by decide) hp
    | with_reducible apply State.fset_keeps
    | with_reducible apply State.setNode_keeps

theorem State.ringLockout_keeps {ar : List Area} {s t : State} (h : Keeps ar s t)
    (hp : Allows ar [.regs, .trunks, .node] := by first | assumption | (refine Allows.mono ?_ (by assumption); decide)) :
    Keeps ar s (State.ringLockout t) := by
  unfold State.ringLockout
  repeat' first
    | with_reducible assumption
    | exact Allows.mono (by decide) hp
    | with_reducible intro _
    | with_reducible apply State.block_keeps
    | with_reducible apply State.fsets_keeps
    | with_reducible apply State.setNode_keeps
    | with_reducible apply Keeps.forEach
    | with_reducible apply Keeps.ite

theorem State.ringProtect_keeps {ar : List Area} {s t : State} (h : Keeps ar s t) (fromIdle : Bool)
    (hp : Allows ar [.regs, .trunks, .node, .cls] := by first | assumption | (refine Allows.mono ?_ (by assumption); decide)) :
    Keeps ar s (State.ringProtect t fromIdle) := by
  unfold State.ringProtect
  repeat' first
    | with_reducible assumption
    | exact Allows.mono (by decide) hp
    | with_reducible apply State.blockLocals_keeps
    | with_reducible apply State.flushRing_keeps
    | with_reducible apply State.fset_keeps
    | with_reducible apply State.ownerUnblock_keeps
    | with_reducible apply State.setWtr_keeps
    | with_reducible apply Keeps.ite

theorem State.ringPending_keeps {ar : List Area} {s t : State} (h : Keeps ar s t)
    (hp : Allows ar [.regs, .node] := by first | assumption | (refine Allows.mono ?_ (by assumption); decide)) :
    Keeps ar s (State.ringPending t) := by
  unfold State.ringPending
  repeat' first
    | with_reducible assumption
    | exact Allows.mono (by decide) hp
    | with_reducible apply State.fset_keeps
    | with_reducible apply State.setWtr_keeps

theorem State.ringIdle_keeps {ar : List Area} {s t : State} (h : Keeps ar s t)
    (hp : Allows ar [.regs, .trunks, .cls] := by first | assumption | (refine Allows.mono ?_ (by assumption); decide)) :
    Keeps ar s (State.ringIdle t) := by
  unfold State.ringIdle
  repeat' first
    | with_reducible assumption
    | exact Allows.mono (by decide) hp
    | with_reducible intro _
    | with_reducible apply State.block_keeps
    | with_reducible apply State.flushRing_keeps
    | with_reducible apply State.fset_keeps
    | with_reducible apply Keeps.forEach
    | with_reducible apply Keeps.ite

theorem State.ringTable_keeps {ar : List Area} {s t : State} (h : Keeps ar s t) (r : Nat × Nat) (old : Nat × Nat)
    (hp : Allows ar [.regs, .trunks, .node, .cls] := by first | assumption | (refine Allows.mono ?_ (by assumption); decide)) :
    Keeps ar s (State.ringTable t r old) := by
  unfold State.ringTable
  repeat' first
    | with_reducible assumption
    | exact Allows.mono (by decide) hp
    | with_reducible apply State.blockLocals_keeps
    | with_reducible apply State.flushRing_keeps
    | with_reducible apply State.fset_keeps
    | with_reducible apply State.ringIdle_keeps
    | with_reducible apply State.ringLockout_keeps
    | with_reducible apply State.ringPending_keeps
    | with_reducible apply State.ringProtect_keeps
    | with_reducible apply Keeps.ite

theorem State.ringRun_keeps {ar : List Area} {s t : State} (h : Keeps ar s t)
    (hp : Allows ar [.regs, .trunks, .node, .cls] := by first | assumption | (refine Allows.mono ?_ (by assumption); decide)) :
    Keeps ar s (State.ringRun t) := by
  unfold State.ringRun
  repeat' first
    | with_reducible assumption
    | exact Allows.mono (by decide) hp
    | with_reducible apply State.block_keeps
    | with_reducible apply State.fset_keeps
    | with_reducible apply State.ringTable_keeps
    | with_reducible apply State.setNode_keeps
    | with_reducible apply Keeps.ite

theorem State.protUpdate_keeps {ar : List Area} {s t : State} (h : Keeps ar s t)
    (hp : Allows ar [.regs, .trunks, .node, .cls] := by first | assumption | (refine Allows.mono ?_ (by assumption); decide)) :
    Keeps ar s (State.protUpdate t) := by
  unfold State.protUpdate
  repeat' first
    | with_reducible assumption
    | exact Allows.mono (by decide) hp
    | with_reducible apply State.ringRun_keeps
    | with_reducible apply State.updatePairs_keeps

theorem State.sfUpdate_keeps {ar : List Area} {s t : State} (h : Keeps ar s t)
    (hp : Allows ar [.regs, .trunks, .node, .cls] := by first | assumption | (refine Allows.mono ?_ (by assumption); decide)) :
    Keeps ar s (State.sfUpdate t) := by
  unfold State.sfUpdate
  repeat' first
    | with_reducible assumption
    | exact Allows.mono (by decide) hp
    | with_reducible intro _
    | with_reducible apply State.fset_keeps
    | with_reducible apply State.protUpdate_keeps
    | with_reducible apply Keeps.forEach

theorem State.splitGear_keeps {ar : List Area} {s t : State} (h : Keeps ar s t)
    (hp : Allows ar [.halves] := by first | assumption | (refine Allows.mono ?_ (by assumption); decide)) :
    Keeps ar s (State.splitGear t) := by
  unfold State.splitGear
  repeat' first
    | with_reducible assumption
    | exact Allows.mono (by decide) hp
    | with_reducible apply State.setHalf_keeps

theorem State.putGear_keeps {ar : List Area} {s t : State} (h : Keeps ar s t) (hh : Nat) (g : Nat)
    (hp : Allows ar [.regs, .halves] := by first | assumption | (refine Allows.mono ?_ (by assumption); decide)) :
    Keeps ar s (State.putGear t hh g) := by
  unfold State.putGear
  repeat' first
    | with_reducible assumption
    | exact Allows.mono (by decide) hp
    | with_reducible apply State.fset_keeps
    | with_reducible apply State.setHalf_keeps
    | refine Keeps.snd ?_ (by assumption)
    | refine Keeps.snd2 ?_ (by assumption)
    | split

theorem State.copyGear_keeps {ar : List Area} {s t : State} (h : Keeps ar s t) (hh : Nat)
    (hp : Allows ar [.regs, .halves] := by first | assumption | (refine Allows.mono ?_ (by assumption); decide)) :
    Keeps ar s (State.copyGear t hh) := by
  unfold State.copyGear
  repeat' first
    | with_reducible assumption
    | exact Allows.mono (by decide) hp
    | with_reducible apply State.fset_keeps
    | with_reducible apply State.setHalf_keeps

theorem State.gearOkCheck_keeps {ar : List Area} {s t : State} (h : Keeps ar s t)
    (hp : Allows ar [.trunks, .node] := by first | assumption | (refine Allows.mono ?_ (by assumption); decide)) :
    Keeps ar s (State.gearOkCheck t) := by
  unfold State.gearOkCheck
  repeat' first
    | with_reducible assumption
    | exact Allows.mono (by decide) hp
    | with_reducible intro _
    | with_reducible apply State.queueUrgent_keeps
    | with_reducible apply State.setNode_keeps
    | with_reducible apply Keeps.forEach
    | with_reducible apply Keeps.ite

theorem State.sendPhase_keeps {ar : List Area} {s t : State} (h : Keeps ar s t)
    (hp : Allows ar [.trunks] := by first | assumption | (refine Allows.mono ?_ (by assumption); decide)) :
    Keeps ar s (State.sendPhase t) := by
  unfold State.sendPhase
  repeat' first
    | with_reducible assumption
    | exact Allows.mono (by decide) hp
    | with_reducible intro _
    | with_reducible apply State.queueUrgent_keeps
    | with_reducible apply Keeps.forEach

theorem State.csSet_keeps {ar : List Area} {s t : State} (h : Keeps ar s t) (v : Nat)
    (hp : Allows ar [.regs] := by first | assumption | (refine Allows.mono ?_ (by assumption); decide)) :
    Keeps ar s (State.csSet t v) := by
  unfold State.csSet
  repeat' first
    | with_reducible assumption
    | exact Allows.mono (by decide) hp
    | with_reducible apply State.fset_keeps

theorem State.stopFrames_keeps {ar : List Area} {s t : State} (h : Keeps ar s t)
    (hp : Allows ar [.trunks] := by first | assumption | (refine Allows.mono ?_ (by assumption); decide)) :
    Keeps ar s (State.stopFrames t) := by
  unfold State.stopFrames
  repeat' first
    | with_reducible assumption
    | exact Allows.mono (by decide) hp
    | with_reducible intro _
    | with_reducible apply State.setTrunk_keeps
    | with_reducible apply Keeps.forEach

theorem State.csListen_keeps {ar : List Area} {s t : State} (h : Keeps ar s t)
    (hp : Allows ar [.regs, .trunks, .node] := by first | assumption | (refine Allows.mono ?_ (by assumption); decide)) :
    Keeps ar s (State.csListen t) := by
  unfold State.csListen
  repeat' first
    | with_reducible assumption
    | exact Allows.mono (by decide) hp
    | with_reducible apply State.csSet_keeps
    | with_reducible apply State.fset_keeps
    | with_reducible apply State.setNode_keeps
    | with_reducible apply State.stopFrames_keeps

theorem State.csStart_keeps {ar : List Area} {s t : State} (h : Keeps ar s t)
    (hp : Allows ar [.regs, .trunks, .node] := by first | assumption | (refine Allows.mono ?_ (by assumption); decide)) :
    Keeps ar s (State.csStart t) := by
  unfold State.csStart
  repeat' first
    | with_reducible assumption
    | exact Allows.mono (by decide) hp
    | with_reducible apply State.csListen_keeps
    | with_reducible apply State.setFlag_keeps
    | with_reducible apply Keeps.ite

theorem State.csEnable_keeps {ar : List Area} {s t : State} (h : Keeps ar s t)
    (hp : Allows ar [.regs, .trunks, .node] := by first | assumption | (refine Allows.mono ?_ (by assumption); decide)) :
    Keeps ar s (State.csEnable t) := by
  unfold State.csEnable
  repeat' first
    | with_reducible assumption
    | exact Allows.mono (by decide) hp
    | with_reducible apply State.csStart_keeps
    | with_reducible apply Keeps.ite

theorem State.csStop_keeps {ar : List Area} {s t : State} (h : Keeps ar s t)
    (hp : Allows ar [.regs, .trunks, .node] := by first | assumption | (refine Allows.mono ?_ (by assumption); decide)) :
    Keeps ar s (State.csStop t) := by
  unfold State.csStop
  repeat' first
    | with_reducible assumption
    | exact Allows.mono (by decide) hp
    | with_reducible apply State.csSet_keeps
    | with_reducible apply State.fsets_keeps
    | with_reducible apply State.setNode_keeps
    | with_reducible apply State.stopFrames_keeps
    | with_reducible apply Keeps.ite

theorem State.showSource_keeps {ar : List Area} {s t : State} (h : Keeps ar s t) (u0 : Nat)
    (hp : Allows ar [.regs] := by first | assumption | (refine Allows.mono ?_ (by assumption); decide)) :
    Keeps ar s (State.showSource t u0) := by
  unfold State.showSource
  repeat' first
    | with_reducible assumption
    | exact Allows.mono (by decide) hp
    | with_reducible apply State.fsets_keeps

theorem State.sourceUpdate_keeps {ar : List Area} {s t : State} (h : Keeps ar s t)
    (hp : Allows ar [.regs] := by first | assumption | (refine Allows.mono ?_ (by assumption); decide)) :
    Keeps ar s (State.sourceUpdate t) := by
  unfold State.sourceUpdate
  repeat' first
    | with_reducible assumption
    | exact Allows.mono (by decide) hp
    | with_reducible apply State.fset_keeps
    | with_reducible apply State.showSource_keeps
    | with_reducible apply Keeps.ite
    | refine Keeps.snd ?_ (by assumption)
    | refine Keeps.snd2 ?_ (by assumption)
    | split

theorem State.quietTrunks_keeps {ar : List Area} {s t : State} (h : Keeps ar s t)
    (hp : Allows ar [.trunks] := by first | assumption | (refine Allows.mono ?_ (by assumption); decide)) :
    Keeps ar s (State.quietTrunks t) := by
  unfold State.quietTrunks
  repeat' first
    | with_reducible assumption
    | exact Allows.mono (by decide) hp
    | with_reducible intro _
    | with_reducible apply State.setTrunk_keeps
    | with_reducible apply Keeps.forEach

/-! ### Machine/FrameOps.lean -/

theorem State.macCnt_keeps {ar : List Area} {s t : State} (h : Keeps ar s t) (p : Nat) (k : Nat)
    (hp : Allows ar [.regs] := by first | assumption | (refine Allows.mono ?_ (by assumption); decide)) :
    Keeps ar s (State.macCnt t p k) := by
  unfold State.macCnt
  repeat' first
    | with_reducible assumption
    | exact Allows.mono (by decide) hp
    | with_reducible apply State.cnt_keeps

theorem State.raisePort_keeps {ar : List Area} {s t : State} (h : Keeps ar s t) (p : Nat) (k : Nat)
    (hp : Allows ar [.regs] := by first | assumption | (refine Allows.mono ?_ (by assumption); decide)) :
    Keeps ar s (State.raisePort t p k) := by
  unfold State.raisePort
  repeat' first
    | with_reducible assumption
    | exact Allows.mono (by decide) hp
    | with_reducible apply State.raise_keeps
    | with_reducible apply Keeps.ite

theorem State.setPipe_keeps {ar : List Area} {s t : State} (h : Keeps ar s t) (hh : Nat) (v : Pipe)
    (hp : Allows ar [.regs, .pipes] := by first | assumption | (refine Allows.mono ?_ (by assumption); decide)) :
    Keeps ar s (State.setPipe t hh v) := by
  unfold State.setPipe
  repeat' first
    | with_reducible assumption
    | exact Allows.mono (by decide) hp
    | with_reducible apply State.fset_keeps
    | with_reducible apply State.setPipes_keeps

theorem State.gc_keeps {ar : List Area} {s t : State} (h : Keeps ar s t)
    (hp : Allows ar [.regs, .frames, .mem] := by first | assumption | (refine Allows.mono ?_ (by assumption); decide)) :
    Keeps ar s (State.gc t) := by
  unfold State.gc
  repeat' first
    | with_reducible assumption
    | exact Allows.mono (by decide) hp
    | with_reducible intro _
    | with_reducible apply State.setFrames_keeps
    | with_reducible apply State.sweepGrans_keeps

theorem State.fcCheck_keeps {ar : List Area} {s t : State} (h : Keeps ar s t) (p : Nat)
    (hp : Allows ar [.ports] := by first | assumption | (refine Allows.mono ?_ (by assumption); decide)) :
    Keeps ar s (State.fcCheck t p) := by
  unfold State.fcCheck
  repeat' first
    | with_reducible assumption
    | exact Allows.mono (by decide) hp
    | with_reducible intro _
    | with_reducible apply State.setPort_keeps
    | with_reducible apply Keeps.forEach
    | with_reducible apply Keeps.ite

theorem State.tidy_keeps {ar : List Area} {s t : State} (h : Keeps ar s t)
    (hp : Allows ar [.regs, .frames, .ports, .mem] := by first | assumption | (refine Allows.mono ?_ (by assumption); decide)) :
    Keeps ar s (State.tidy t) := by
  unfold State.tidy
  repeat' first
    | with_reducible assumption
    | exact Allows.mono (by decide) hp
    | with_reducible intro _
    | with_reducible apply State.fcCheck_keeps
    | with_reducible apply State.gc_keeps
    | with_reducible apply Keeps.forEach

theorem State.dropEdits_keeps {ar : List Area} {s t : State} (h : Keeps ar s t) (p : Nat) (f : Nat)
    (hp : Allows ar [.regs, .ports, .emem] := by first | assumption | (refine Allows.mono ?_ (by assumption); decide)) :
    Keeps ar s (State.dropEdits t p f) := by
  unfold State.dropEdits
  repeat' first
    | with_reducible assumption
    | exact Allows.mono (by decide) hp
    | with_reducible intro _
    | with_reducible apply State.fset_keeps
    | with_reducible apply State.setPort_keeps
    | with_reducible apply State.spliceNote_keeps
    | with_reducible apply Keeps.forEach

theorem State.noteEdits_keeps {ar : List Area} {s t : State} (h : Keeps ar s t) (p : Nat) (f : Nat) (notes : List (Edit × Bool × Bool))
    (hp : Allows ar [.regs, .ports, .emem] := by first | assumption | (refine Allows.mono ?_ (by assumption); decide)) :
    Keeps ar s (State.noteEdits t p f notes) := by
  unfold State.noteEdits
  repeat' first
    | with_reducible assumption
    | exact Allows.mono (by decide) hp
    | with_reducible intro _
    | with_reducible apply State.fset_keeps
    | with_reducible apply State.raisePort_keeps
    | with_reducible apply State.setPort_keeps
    | with_reducible apply State.spliceNote_keeps
    | with_reducible apply Keeps.forEach
    | with_reducible apply Keeps.ite

theorem State.enqueue_keeps {ar : List Area} {s t : State} (h : Keeps ar s t) (p : Nat) (c : Copy)
    (hp : Allows ar [.ports] := by first | assumption | (refine Allows.mono ?_ (by assumption); decide)) :
    Keeps ar s (State.enqueue t p c) := by
  unfold State.enqueue
  repeat' first
    | with_reducible assumption
    | exact Allows.mono (by decide) hp
    | with_reducible apply State.setPort_keeps

theorem State.txDone_keeps {ar : List Area} {s t : State} (h : Keeps ar s t) (f : Nat) (k : Option Nat)
    (hp : Allows ar [.regs] := by first | assumption | (refine Allows.mono ?_ (by assumption); decide)) :
    Keeps ar s (State.txDone t f k) := by
  unfold State.txDone
  repeat' first
    | with_reducible assumption
    | exact Allows.mono (by decide) hp
    | with_reducible intro _
    | with_reducible apply State.postThr_keeps
    | with_reducible apply Keeps.ite
    | refine Keeps.snd ?_ (by assumption)
    | refine Keeps.snd2 ?_ (by assumption)
    | split

theorem State.copyGone_keeps {ar : List Area} {s t : State} (h : Keeps ar s t) (p : Nat) (c : Copy) (took : Bool) (status : Nat)
    (hp : Allows ar [.regs, .frames, .ports, .emem, .qps, .mem] := by first | assumption | (refine Allows.mono ?_ (by assumption); decide)) :
    Keeps ar s (State.copyGone t p c took status) := by
  unfold State.copyGone
  repeat' first
    | with_reducible assumption
    | exact Allows.mono (by decide) hp
    | with_reducible apply State.dropEdits_keeps
    | with_reducible apply State.hostDone_keeps
    | with_reducible apply State.tidy_keeps
    | with_reducible apply State.txDone_keeps

theorem State.copyLeft_keeps {ar : List Area} {s t : State} (h : Keeps ar s t) (p : Nat) (c : Copy)
    (hp : Allows ar [.regs, .frames, .ports, .emem, .qps, .mem] := by first | assumption | (refine Allows.mono ?_ (by assumption); decide)) :
    Keeps ar s (State.copyLeft t p c) := by
  unfold State.copyLeft
  repeat' first
    | with_reducible assumption
    | exact Allows.mono (by decide) hp
    | with_reducible apply State.copyGone_keeps

theorem State.takeBytes_keeps {ar : List Area} {s t : State} (h : Keeps ar s t) (f : Frame)
    (hp : Allows ar [.regs] := by first | assumption | (refine Allows.mono ?_ (by assumption); decide)) :
    Keeps ar s (State.takeBytes t f).2 := by
  unfold State.takeBytes
  repeat' first
    | with_reducible assumption
    | exact Allows.mono (by decide) hp
    | with_reducible apply State.readParts_keeps

theorem State.trunkBytes_keeps {ar : List Area} {s t : State} (h : Keeps ar s t) (p : Nat) (c : Copy)
    (hp : Allows ar [.regs, .ports, .emem] := by first | assumption | (refine Allows.mono ?_ (by assumption); decide)) :
    Keeps ar s (State.trunkBytes t p c).2 := by
  unfold State.trunkBytes
  repeat' first
    | with_reducible assumption
    | exact Allows.mono (by decide) hp
    | with_reducible apply State.dropEdits_keeps
    | with_reducible apply State.takeBytes_keeps

theorem State.copyStatus_keeps {ar : List Area} {s t : State} (h : Keeps ar s t) (p : Nat) (f : Nat) (b : Nat)
    (hp : Allows ar [.frames, .ports] := by first | assumption | (refine Allows.mono ?_ (by assumption); decide)) :
    Keeps ar s (State.copyStatus t p f b) := by
  unfold State.copyStatus
  repeat' first
    | with_reducible assumption
    | exact Allows.mono (by decide) hp
    | with_reducible apply State.setFrame_keeps
    | with_reducible apply State.setPort_keeps
    | with_reducible apply Keeps.ite

theorem State.unparse_keeps {ar : List Area} {s t : State} (h : Keeps ar s t) (f : Nat)
    (hp : Allows ar [.regs, .pipes] := by first | assumption | (refine Allows.mono ?_ (by assumption); decide)) :
    Keeps ar s (State.unparse t f) := by
  unfold State.unparse
  repeat' first
    | with_reducible assumption
    | exact Allows.mono (by decide) hp
    | with_reducible intro _
    | with_reducible apply State.setPipe_keeps
    | with_reducible apply Keeps.forEach
    | with_reducible apply Keeps.ite

theorem State.dropCopies_keeps {ar : List Area} {s t : State} (h : Keeps ar s t) (f : Nat) (at_ : Nat → Bool)
    (hp : Allows ar [.regs, .frames, .ports, .emem, .qps, .mem] := by first | assumption | (refine Allows.mono ?_ (by assumption); decide)) :
    Keeps ar s (State.dropCopies t f at_) := by
  unfold State.dropCopies
  repeat' first
    | with_reducible assumption
    | exact Allows.mono (by decide) hp
    | with_reducible intro _
    | with_reducible apply State.copyGone_keeps
    | with_reducible apply State.setPort_keeps
    | with_reducible apply Keeps.forEach

theorem State.dropFromThreads_keeps {ar : List Area} {s t : State} (h : Keeps ar s t) (f : Nat)
    (hp : Allows ar [.regs, .threads] := by first | assumption | (refine Allows.mono ?_ (by assumption); decide)) :
    Keeps ar s (State.dropFromThreads t f) := by
  unfold State.dropFromThreads
  repeat' first
    | with_reducible assumption
    | exact Allows.mono (by decide) hp
    | with_reducible intro _
    | with_reducible apply State.fset_keeps
    | with_reducible apply State.setThreads_keeps
    | with_reducible apply Keeps.forEach

theorem State.rxGone_keeps {ar : List Area} {s t : State} (h : Keeps ar s t) (w : RxWait) (took : Bool)
    (hp : Allows ar [.regs, .qps] := by first | assumption | (refine Allows.mono ?_ (by assumption); decide)) :
    Keeps ar s (State.rxGone t w took) := by
  unfold State.rxGone
  repeat' first
    | with_reducible assumption
    | exact Allows.mono (by decide) hp
    | with_reducible apply State.hostDone_keeps
    | with_reducible apply State.txDone_keeps

theorem State.dropFromQueues_keeps {ar : List Area} {s t : State} (h : Keeps ar s t) (f : Nat)
    (hp : Allows ar [.regs, .qps] := by first | assumption | (refine Allows.mono ?_ (by assumption); decide)) :
    Keeps ar s (State.dropFromQueues t f) := by
  unfold State.dropFromQueues
  repeat' first
    | with_reducible assumption
    | exact Allows.mono (by decide) hp
    | with_reducible intro _
    | with_reducible apply State.hostDone_keeps
    | with_reducible apply State.rxGone_keeps
    | with_reducible apply State.setQp_keeps
    | with_reducible apply Keeps.forEach

theorem State.discard_keeps {ar : List Area} {s t : State} (h : Keeps ar s t) (f : Nat)
    (hp : Allows ar [.regs, .frames, .ports, .pipes, .threads, .emem, .qps, .mem] := by first | assumption | (refine Allows.mono ?_ (by assumption); decide)) :
    Keeps ar s (State.discard t f) := by
  unfold State.discard
  repeat' first
    | with_reducible assumption
    | exact Allows.mono (by decide) hp
    | with_reducible intro _
    | with_reducible apply State.dropCopies_keeps
    | with_reducible apply State.dropFromQueues_keeps
    | with_reducible apply State.dropFromThreads_keeps
    | with_reducible apply State.tidy_keeps
    | with_reducible apply State.unparse_keeps

theorem State.countOverrun_keeps {ar : List Area} {s t : State} (h : Keeps ar s t) (f : Frame) (owner : Nat) (q : Nat)
    (hp : Allows ar [.regs, .qps] := by first | assumption | (refine Allows.mono ?_ (by assumption); decide)) :
    Keeps ar s (State.countOverrun t f owner q) := by
  unfold State.countOverrun
  repeat' first
    | with_reducible assumption
    | exact Allows.mono (by decide) hp
    | with_reducible apply State.cnt_keeps
    | with_reducible apply State.macCnt_keeps
    | with_reducible apply State.qCnt_keeps
    | with_reducible apply State.setQp_keeps
    | with_reducible apply Keeps.ite
    | refine Keeps.snd ?_ (by assumption)
    | refine Keeps.snd2 ?_ (by assumption)
    | (lift_lets; intro x; clear_value x)
    | with_reducible apply hx
    | split

theorem State.placeFrame_keeps {ar : List Area} {s t : State} (h : Keeps ar s t) (fid : Nat) (m : Nat)
    (hp : Allows ar [.regs, .free, .frames, .ports, .pipes, .threads, .emem, .qps, .mem] := by first | assumption | (refine Allows.mono ?_ (by assumption); decide)) :
    Keeps ar s (State.placeFrame t fid m) := by
  unfold State.placeFrame
  repeat' first
    | with_reducible assumption
    | exact Allows.mono (by decide) hp
    | with_reducible apply State.countOverrun_keeps
    | with_reducible apply State.discard_keeps
    | with_reducible apply State.memCnt_keeps
    | with_reducible apply State.setFrame_keeps
    | with_reducible apply State.writeParts_keeps
    | with_reducible apply Keeps.ite
    | refine State.place_keeps ?_ _ _ _ _ _ (by assumption) (Allows.mono (by decide) hp)
    | refine Keeps.snd ?_ (by assumption)
    | refine Keeps.snd2 ?_ (by assumption)
    | (lift_lets; intro x; clear_value x)
    | with_reducible apply hx
    | split

theorem State.checkSums_keeps {ar : List Area} {s t : State} (h : Keeps ar s t) (fid : Nat)
    (hp : Allows ar [.frames] := by first | assumption | (refine Allows.mono ?_ (by assumption); decide)) :
    Keeps ar s (State.checkSums t fid) := by
  unfold State.checkSums
  repeat' first
    | with_reducible assumption
    | exact Allows.mono (by decide) hp
    | with_reducible apply State.setFrame_keeps
    | with_reducible apply Keeps.ite
    | refine Keeps.snd ?_ (by assumption)
    | refine Keeps.snd2 ?_ (by assumption)
    | (lift_lets; intro x; clear_value x)
    | with_reducible apply hx
    | split

theorem State.offer_keeps {ar : List Area} {s t : State} (h : Keeps ar s t) (fid : Nat)
    (hp : Allows ar [.regs, .pipes] := by first | assumption | (refine Allows.mono ?_ (by assumption); decide)) :
    Keeps ar s (State.offer t fid) := by
  unfold State.offer
  repeat' first
    | with_reducible assumption
    | exact Allows.mono (by decide) hp
    | with_reducible apply State.cnt_keeps
    | with_reducible apply State.fsat_keeps
    | with_reducible apply State.setPipe_keeps
    | with_reducible apply Keeps.ite

theorem State.newFrame_keeps {ar : List Area} {s t : State} (h : Keeps ar s t) (f : Frame)
    (hp : Allows ar [.frames, .nextFrame] := by first | assumption | (refine Allows.mono ?_ (by assumption); decide)) :
    Keeps ar s (State.newFrame t f).2 := by
  unfold State.newFrame
  repeat' first
    | with_reducible assumption
    | exact Allows.mono (by decide) hp
    | with_reducible apply State.setFrame_keeps
    | with_reducible apply State.setNextFrame_keeps

theorem State.addWhole_keeps {ar : List Area} {s t : State} (h : Keeps ar s t) (f : Frame)
    (hp : Allows ar [.regs, .frames, .nextFrame, .ports, .pipes, .mem] := by first | assumption | (refine Allows.mono ?_ (by assumption); decide)) :
    Keeps ar s (State.addWhole t f) := by
  unfold State.addWhole
  repeat' first
    | with_reducible assumption
    | exact Allows.mono (by decide) hp
    | with_reducible apply State.newFrame_keeps
    | with_reducible apply State.offer_keeps
    | with_reducible apply State.tidy_keeps

theorem State.enterThread_keeps {ar : List Area} {s t : State} (h : Keeps ar s t) (k : Nat) (f : Nat)
    (hp : Allows ar [.regs, .threads] := by first | assumption | (refine Allows.mono ?_ (by assumption); decide)) :
    Keeps ar s (State.enterThread t k f) := by
  unfold State.enterThread
  repeat' first
    | with_reducible assumption
    | exact Allows.mono (by decide) hp
    | with_reducible apply State.ceCnt_keeps
    | with_reducible apply State.fset_keeps
    | with_reducible apply State.setThr_keeps
    | with_reducible apply Keeps.ite

theorem State.gaspCheck_keeps {ar : List Area} {s t : State} (h : Keeps ar s t)
    (hp : Allows ar [.regs, .gasp, .trunks, .node, .cls] := by first | assumption | (refine Allows.mono ?_ (by assumption); decide)) :
    Keeps ar s (State.gaspCheck t) := by
  unfold State.gaspCheck
  repeat' first
    | with_reducible assumption
    | exact Allows.mono (by decide) hp
    | with_reducible apply State.fsets_keeps
    | with_reducible apply State.setGasp_keeps
    | with_reducible apply State.sfUpdate_keeps
    | with_reducible apply Keeps.ite
    | refine Keeps.snd ?_ (by assumption)
    | refine Keeps.snd2 ?_ (by assumption)
    | split

/-! ### Machine/HostOps.lean -/

theorem State.hostRead_keeps {ar : List Area} {s t : State} (h : Keeps ar s t) (id : Mst) (addr : Nat) (len : Nat)
    (hp : Allows ar [.out] := by first | assumption | (refine Allows.mono ?_ (by assumption); decide)) :
    Keeps ar s (State.hostRead t id addr len) := by
  unfold State.hostRead
  repeat' first
    | with_reducible assumption
    | exact Allows.mono (by decide) hp
    | with_reducible intro _
    | with_reducible apply State.setOut_keeps

theorem State.hostWrite_keeps {ar : List Area} {s t : State} (h : Keeps ar s t) (id : Mst) (addr : Nat) (bs : List Byte)
    (hp : Allows ar [.out] := by first | assumption | (refine Allows.mono ?_ (by assumption); decide)) :
    Keeps ar s (State.hostWrite t id addr bs) := by
  unfold State.hostWrite
  repeat' first
    | with_reducible assumption
    | exact Allows.mono (by decide) hp
    | with_reducible intro _
    | with_reducible apply State.setOut_keeps

/-! ### Machine/DmaOps.lean -/

theorem State.setDma_keeps {ar : List Area} {s t : State} (h : Keeps ar s t) (n : Nat) (v : Dma)
    (hp : Allows ar [.dmas] := by first | assumption | (refine Allows.mono ?_ (by assumption); decide)) :
    Keeps ar s (State.setDma t n v) := by
  unfold State.setDma
  repeat' first
    | with_reducible assumption
    | exact Allows.mono (by decide) hp
    | with_reducible apply State.setDmas_keeps

theorem State.setDmaState_keeps {ar : List Area} {s t : State} (h : Keeps ar s t) (n : Nat) (v : Nat)
    (hp : Allows ar [.regs] := by first | assumption | (refine Allows.mono ?_ (by assumption); decide)) :
    Keeps ar s (State.setDmaState t n v) := by
  unfold State.setDmaState
  repeat' first
    | with_reducible assumption
    | exact Allows.mono (by decide) hp
    | with_reducible apply State.fset_keeps

theorem State.dmaDrain_keeps {ar : List Area} {s t : State} (h : Keeps ar s t) (n : Nat) (target : Nat)
    (hp : Allows ar [.regs, .dmas] := by first | assumption | (refine Allows.mono ?_ (by assumption); decide)) :
    Keeps ar s (State.dmaDrain t n target) := by
  unfold State.dmaDrain
  repeat' first
    | with_reducible assumption
    | exact Allows.mono (by decide) hp
    | with_reducible apply State.fset_keeps
    | with_reducible apply State.setDma_keeps
    | with_reducible apply State.setDmaState_keeps

theorem State.dmaPause_keeps {ar : List Area} {s t : State} (h : Keeps ar s t) (n : Nat)
    (hp : Allows ar [.regs, .dmas] := by first | assumption | (refine Allows.mono ?_ (by assumption); decide)) :
    Keeps ar s (State.dmaPause t n) := by
  unfold State.dmaPause
  repeat' first
    | with_reducible assumption
    | exact Allows.mono (by decide) hp
    | with_reducible apply State.dmaDrain_keeps
    | with_reducible apply Keeps.ite

theorem State.dmaFreeze_keeps {ar : List Area} {s t : State} (h : Keeps ar s t)
    (hp : Allows ar [.regs, .dmas] := by first | assumption | (refine Allows.mono ?_ (by assumption); decide)) :
    Keeps ar s (State.dmaFreeze t) := by
  unfold State.dmaFreeze
  repeat' first
    | with_reducible assumption
    | exact Allows.mono (by decide) hp
    | with_reducible intro _
    | with_reducible apply State.dmaPause_keeps
    | with_reducible apply State.fset_keeps
    | with_reducible apply Keeps.forEach
    | with_reducible apply Keeps.ite

theorem State.readSegs_keeps {ar : List Area} {s t : State} (h : Keeps ar s t) (m : Nat) (ss : List Seg) (data : List Byte)
    (hp : Allows ar [.out] := by first | assumption | (refine Allows.mono ?_ (by assumption); decide)) :
    Keeps ar s (t.readSegs m ss data).2 := by
  induction ss generalizing t data with
  | nil => exact h
  | cons x r ih =>
    unfold State.readSegs
    split
    · exact ih h data
    · exact ih (State.hostRead_keeps h _ _ _) _

theorem State.winWrite_keeps {ar : List Area} {s t : State} (h : Keeps ar s t) (e : Nat) (o : Nat) (bs : List Byte)
    (hp : Allows ar [.emem] := by first | assumption | (refine Allows.mono ?_ (by assumption); decide)) :
    Keeps ar s (State.winWrite t e o bs) := by
  unfold State.winWrite
  repeat' first
    | with_reducible assumption
    | exact Allows.mono (by decide) hp
    | with_reducible intro _
    | with_reducible apply State.eput_keeps
    | with_reducible apply State.eput_keeps
    | with_reducible apply Keeps.foldl
    | with_reducible apply Keeps.foldl2
    | with_reducible apply Keeps.ite

theorem State.writeSegs_keeps {ar : List Area} {s t : State} (h : Keeps ar s t) (m : Nat) (ss : List Seg) (bs : List Byte)
    (hp : Allows ar [.out, .emem] := by first | assumption | (refine Allows.mono ?_ (by assumption); decide)) :
    Keeps ar s (t.writeSegs m ss bs) := by
  induction ss generalizing t bs with
  | nil => exact h
  | cons x r ih =>
    unfold State.writeSegs
    apply ih
    split
    · exact State.winWrite_keeps h _ _ _
    · exact State.hostWrite_keeps h _ _ _

theorem State.dmaAdvance_keeps {ar : List Area} {s t : State} (h : Keeps ar s t) (n : Nat) (k : Nat)
    (hp : Allows ar [.regs, .dmas] := by first | assumption | (refine Allows.mono ?_ (by assumption); decide)) :
    Keeps ar s (State.dmaAdvance t n k) := by
  unfold State.dmaAdvance
  repeat' first
    | with_reducible assumption
    | exact Allows.mono (by decide) hp
    | with_reducible apply State.fset_keeps
    | with_reducible apply State.fsets_keeps
    | with_reducible apply State.setDma_keeps
    | with_reducible apply State.wr64_keeps
    | with_reducible apply Keeps.ite

theorem State.dmaMove_keeps {ar : List Area} {s t : State} (h : Keeps ar s t) (n : Nat) (k : Nat) (data : List Byte)
    (hp : Allows ar [.regs, .out, .free, .emem, .dmas] := by first | assumption | (refine Allows.mono ?_ (by assumption); decide)) :
    Keeps ar s (State.dmaMove t n k data) := by
  unfold State.dmaMove
  repeat' first
    | with_reducible assumption
    | exact Allows.mono (by decide) hp
    | with_reducible apply State.dmaAdvance_keeps
    | with_reducible apply State.freeBytes_keeps
    | with_reducible apply State.readSegs_keeps
    | with_reducible apply State.readSegs_keeps
    | with_reducible apply State.writeSegs_keeps
    | with_reducible apply State.writeSegs_keeps
    | with_reducible apply Keeps.ite
    | with_reducible apply hx
    | split

theorem State.listFetch_keeps {ar : List Area} {s t : State} (h : Keeps ar s t) (n : Nat) (a : Nat) (len : Nat) (data : List Byte) (err : Bool)
    (hp : Allows ar [.out] := by first | assumption | (refine Allows.mono ?_ (by assumption); decide)) :
    Keeps ar s (State.listFetch t n a len data err).2.2 := by
  unfold State.listFetch
  repeat' first
    | with_reducible assumption
    | exact Allows.mono (by decide) hp
    | with_reducible apply State.hostRead_keeps
    | with_reducible apply Keeps.ite
    | (lift_lets; intro x; clear_value x)
    | with_reducible apply hx
    | split

theorem State.dmaEnd_keeps {ar : List Area} {s t : State} (h : Keeps ar s t) (n : Nat) (status : Nat)
    (hp : Allows ar [.regs, .dmas] := by first | assumption | (refine Allows.mono ?_ (by assumption); decide)) :
    Keeps ar s (State.dmaEnd t n status) := by
  unfold State.dmaEnd
  repeat' first
    | with_reducible assumption
    | exact Allows.mono (by decide) hp
    | with_reducible apply State.fset_keeps
    | with_reducible apply State.fsets_keeps
    | with_reducible apply State.raise_keeps
    | with_reducible apply State.setDma_keeps
    | with_reducible apply State.setDmaState_keeps
    | with_reducible apply Keeps.ite

/-! ### Machine/UnitOps.lean -/

theorem State.announceHalfSf_keeps {ar : List Area} {s t : State} (h : Keeps ar s t) (xh0 : Nat)
    (hp : Allows ar [.regs, .trunks, .node, .cls] := by first | assumption | (refine Allows.mono ?_ (by assumption); decide)) :
    Keeps ar s (State.announceHalfSf t xh0) := by
  unfold State.announceHalfSf
  repeat' first
    | with_reducible assumption
    | exact Allows.mono (by decide) hp
    | with_reducible apply State.sfUpdate_keeps

theorem State.endLoad_keeps {ar : List Area} {s t : State} (h : Keeps ar s t) (result : Nat)
    (hp : Allows ar [.regs, .gload] := by first | assumption | (refine Allows.mono ?_ (by assumption); decide)) :
    Keeps ar s (State.endLoad t result) := by
  unfold State.endLoad
  repeat' first
    | with_reducible assumption
    | exact Allows.mono (by decide) hp
    | with_reducible apply State.fsets_keeps
    | with_reducible apply State.raise_keeps
    | with_reducible apply State.setGload_keeps
    | refine Keeps.snd ?_ (by assumption)
    | refine Keeps.snd2 ?_ (by assumption)
    | split

theorem State.showCourses_keeps {ar : List Area} {s t : State} (h : Keeps ar s t)
    (hp : Allows ar [.regs] := by first | assumption | (refine Allows.mono ?_ (by assumption); decide)) :
    Keeps ar s (State.showCourses t) := by
  unfold State.showCourses
  repeat' first
    | with_reducible assumption
    | exact Allows.mono (by decide) hp
    | with_reducible intro _
    | with_reducible apply State.fset_keeps
    | with_reducible apply State.fsets_keeps
    | with_reducible apply Keeps.forEach
    | with_reducible apply Keeps.foldl
    | with_reducible apply Keeps.foldl2
    | refine Keeps.snd ?_ (by assumption)
    | refine Keeps.snd2 ?_ (by assumption)
    | (lift_lets; intro x; clear_value x)
    | with_reducible apply hx
    | split

theorem State.retire_keeps {ar : List Area} {s t : State} (h : Keeps ar s t) (n : Nat)
    (hp : Allows ar [.regs, .cls] := by first | assumption | (refine Allows.mono ?_ (by assumption); decide)) :
    Keeps ar s (State.retire t n) := by
  unfold State.retire
  repeat' first
    | with_reducible assumption
    | exact Allows.mono (by decide) hp
    | with_reducible intro _
    | with_reducible apply State.setCls_keeps
    | with_reducible apply State.showCourses_keeps
    | refine Keeps.snd ?_ (by assumption)
    | refine Keeps.snd2 ?_ (by assumption)
    | (lift_lets; intro x; clear_value x)
    | with_reducible apply hx
    | split

theorem State.retireAll_keeps {ar : List Area} {s t : State} (h : Keeps ar s t)
    (hp : Allows ar [.regs, .cls] := by first | assumption | (refine Allows.mono ?_ (by assumption); decide)) :
    Keeps ar s (State.retireAll t) := by
  unfold State.retireAll
  repeat' first
    | with_reducible assumption
    | exact Allows.mono (by decide) hp
    | with_reducible intro _
    | with_reducible apply State.retire_keeps
    | with_reducible apply Keeps.forEach

theorem State.dropPipes_keeps {ar : List Area} {s t : State} (h : Keeps ar s t)
    (hp : Allows ar [.regs, .pipes] := by first | assumption | (refine Allows.mono ?_ (by assumption); decide)) :
    Keeps ar s (State.dropPipes t) := by
  unfold State.dropPipes
  repeat' first
    | with_reducible assumption
    | exact Allows.mono (by decide) hp
    | with_reducible intro _
    | with_reducible apply State.setPipe_keeps
    | with_reducible apply Keeps.forEach

theorem State.dropEgress_keeps {ar : List Area} {s t : State} (h : Keeps ar s t)
    (hp : Allows ar [.regs, .frames, .ports, .emem, .qps, .mem] := by first | assumption | (refine Allows.mono ?_ (by assumption); decide)) :
    Keeps ar s (State.dropEgress t) := by
  unfold State.dropEgress
  repeat' first
    | with_reducible assumption
    | exact Allows.mono (by decide) hp
    | with_reducible intro _
    | with_reducible apply State.copyGone_keeps
    | with_reducible apply State.setPort_keeps
    | with_reducible apply Keeps.forEach

theorem State.dropHalf_keeps {ar : List Area} {s t : State} (h : Keeps ar s t) (hh : Nat)
    (hp : Allows ar [.regs, .frames, .ports, .pipes, .emem, .qps, .mem] := by first | assumption | (refine Allows.mono ?_ (by assumption); decide)) :
    Keeps ar s (State.dropHalf t hh) := by
  unfold State.dropHalf
  repeat' first
    | with_reducible assumption
    | exact Allows.mono (by decide) hp
    | with_reducible intro _
    | with_reducible apply State.copyGone_keeps
    | with_reducible apply State.setPipe_keeps
    | with_reducible apply State.setPort_keeps
    | with_reducible apply State.tidy_keeps
    | with_reducible apply Keeps.forEach

theorem State.dropRx_keeps {ar : List Area} {s t : State} (h : Keeps ar s t)
    (hp : Allows ar [.regs, .qps] := by first | assumption | (refine Allows.mono ?_ (by assumption); decide)) :
    Keeps ar s (State.dropRx t) := by
  unfold State.dropRx
  repeat' first
    | with_reducible assumption
    | exact Allows.mono (by decide) hp
    | with_reducible intro _
    | with_reducible apply State.hostDone_keeps
    | with_reducible apply State.rxGone_keeps
    | with_reducible apply State.setQp_keeps
    | with_reducible apply Keeps.forEach
    | with_reducible apply Keeps.ite

theorem State.freezeSpine_keeps {ar : List Area} {s t : State} (h : Keeps ar s t)
    (hp : Allows ar [.regs, .frames, .ports, .pipes, .gload, .cls, .emem, .qps, .mem, .dmas] := by first | assumption | (refine Allows.mono ?_ (by assumption); decide)) :
    Keeps ar s (State.freezeSpine t) := by
  unfold State.freezeSpine
  repeat' first
    | with_reducible assumption
    | exact Allows.mono (by decide) hp
    | with_reducible apply State.dmaFreeze_keeps
    | with_reducible apply State.dropEgress_keeps
    | with_reducible apply State.dropPipes_keeps
    | with_reducible apply State.dropRx_keeps
    | with_reducible apply State.endLoad_keeps
    | with_reducible apply State.fset_keeps
    | with_reducible apply State.retireAll_keeps
    | with_reducible apply State.tidy_keeps

/-! ### Machine/Contain.lean -/

theorem State.drawKey0_keeps {ar : List Area} {s t : State} (h : Keeps ar s t)
    (hp : Allows ar [.free, .funcs] := by first | assumption | (refine Allows.mono ?_ (by assumption); decide)) :
    Keeps ar s (State.drawKey0 t) := by
  unfold State.drawKey0
  repeat' first
    | with_reducible assumption
    | exact Allows.mono (by decide) hp
    | with_reducible intro _
    | with_reducible apply State.setFunc_keeps
    | with_reducible apply State.useFree_keeps

theorem State.setHalfMode_keeps {ar : List Area} {s t : State} (h : Keeps ar s t) (hh : Nat) (m : Nat)
    (hp : Allows ar [.regs, .out, .trigs, .trunks, .node, .cls] := by first | assumption | (refine Allows.mono ?_ (by assumption); decide)) :
    Keeps ar s (State.setHalfMode t hh m) := by
  unfold State.setHalfMode
  repeat' first
    | with_reducible assumption
    | exact Allows.mono (by decide) hp
    | with_reducible intro _
    | with_reducible apply State.fset_keeps
    | with_reducible apply State.sfUpdate_keeps
    | with_reducible apply State.syncTrig_keeps
    | with_reducible apply Keeps.forEach
    | with_reducible apply Keeps.ite

theorem State.wdogMode_keeps {ar : List Area} {s t : State} (h : Keeps ar s t) (m : Nat)
    (hp : Allows ar [.flt] := by first | assumption | (refine Allows.mono ?_ (by assumption); decide)) :
    Keeps ar s (State.wdogMode t m) := by
  unfold State.wdogMode
  repeat' first
    | with_reducible assumption
    | exact Allows.mono (by decide) hp
    | with_reducible apply State.setFlt_keeps

theorem State.setMode_keeps {ar : List Area} {s t : State} (h : Keeps ar s t) (m : Nat)
    (hp : Allows ar [.regs, .out, .free, .trigs, .flt, .trunks, .node, .gload, .cls, .funcs] := by first | assumption | (refine Allows.mono ?_ (by assumption); decide)) :
    Keeps ar s (State.setMode t m) := by
  unfold State.setMode
  repeat' first
    | with_reducible assumption
    | exact Allows.mono (by decide) hp
    | with_reducible intro _
    | with_reducible apply State.csStop_keeps
    | with_reducible apply State.drawKey0_keeps
    | with_reducible apply State.endLoad_keeps
    | with_reducible apply State.fset_keeps
    | with_reducible apply State.raise_keeps
    | with_reducible apply State.setHalfMode_keeps
    | with_reducible apply State.setJoined_keeps
    | with_reducible apply State.wdogMode_keeps
    | with_reducible apply Keeps.forEach
    | with_reducible apply Keeps.ite

theorem State.safeholdHalf_keeps {ar : List Area} {s t : State} (h : Keeps ar s t) (hh : Nat)
    (hp : Allows ar [.regs, .frames, .ports, .trunks, .node, .pipes, .cls, .emem, .qps, .mem] := by first | assumption | (refine Allows.mono ?_ (by assumption); decide)) :
    Keeps ar s (State.safeholdHalf t hh) := by
  unfold State.safeholdHalf
  repeat' first
    | with_reducible assumption
    | exact Allows.mono (by decide) hp
    | with_reducible apply State.announceHalfSf_keeps
    | with_reducible apply State.dropHalf_keeps
    | with_reducible apply State.haltHalfEngines_keeps

theorem State.enterSafehold_keeps {ar : List Area} {s t : State} (h : Keeps ar s t) (cause : Nat)
    (hp : Allows ar [.regs, .out, .free, .trigs, .frames, .ports, .flt, .trunks, .node, .pipes, .gload, .cls, .emem, .funcs, .qps, .mem, .dmas] := by first | assumption | (refine Allows.mono ?_ (by assumption); decide)) :
    Keeps ar s (State.enterSafehold t cause) := by
  unfold State.enterSafehold
  repeat' first
    | with_reducible assumption
    | exact Allows.mono (by decide) hp
    | with_reducible intro _
    | with_reducible apply State.freezeSpine_keeps
    | with_reducible apply State.fset_keeps
    | with_reducible apply State.safeholdHalf_keeps
    | with_reducible apply State.setMode_keeps
    | with_reducible apply Keeps.forEach

theorem State.halfSafehold_keeps {ar : List Area} {s t : State} (h : Keeps ar s t) (hh : Nat) (cause : Nat)
    (hp : Allows ar [.regs, .out, .trigs, .frames, .ports, .trunks, .node, .pipes, .cls, .emem, .qps, .mem] := by first | assumption | (refine Allows.mono ?_ (by assumption); decide)) :
    Keeps ar s (State.halfSafehold t hh cause) := by
  unfold State.halfSafehold
  repeat' first
    | with_reducible assumption
    | exact Allows.mono (by decide) hp
    | with_reducible apply State.fset_keeps
    | with_reducible apply State.safeholdHalf_keeps
    | with_reducible apply State.setHalfMode_keeps
    | with_reducible apply Keeps.ite

theorem State.fixDegraded_keeps {ar : List Area} {s t : State} (h : Keeps ar s t)
    (hp : Allows ar [.regs, .out, .free, .trigs, .flt, .trunks, .node, .gload, .cls, .funcs] := by first | assumption | (refine Allows.mono ?_ (by assumption); decide)) :
    Keeps ar s (State.fixDegraded t) := by
  unfold State.fixDegraded
  repeat' first
    | with_reducible assumption
    | exact Allows.mono (by decide) hp
    | with_reducible apply State.setMode_keeps
    | with_reducible apply Keeps.ite

theorem State.writeLog_keeps {ar : List Area} {s t : State} (h : Keeps ar s t) (n : Nat) (code : Nat) (index : Nat) (detail : Nat) (verdict : Nat) (contain : Bool)
    (hp : Allows ar [.regs, .flt] := by first | assumption | (refine Allows.mono ?_ (by assumption); decide)) :
    Keeps ar s (State.writeLog t n code index detail verdict contain) := by
  unfold State.writeLog
  repeat' first
    | with_reducible assumption
    | exact Allows.mono (by decide) hp
    | with_reducible apply State.fset_keeps
    | with_reducible apply State.setFlt_keeps
    | with_reducible apply State.wr_keeps

theorem State.logFault_keeps {ar : List Area} {s t : State} (h : Keeps ar s t) (code : Nat) (index : Nat) (detail : Nat) (k : FltClass) (verdict : Nat)
    (hp : Allows ar [.regs, .out, .free, .trigs, .frames, .ports, .flt, .trunks, .node, .pipes, .gload, .cls, .emem, .funcs, .qps, .mem, .dmas] := by first | assumption | (refine Allows.mono ?_ (by assumption); decide)) :
    Keeps ar s (State.logFault t code index detail k verdict) := by
  unfold State.logFault
  repeat' first
    | with_reducible assumption
    | exact Allows.mono (by decide) hp
    | with_reducible apply State.cnt_keeps
    | with_reducible apply State.enterSafehold_keeps
    | with_reducible apply State.fsat_keeps
    | with_reducible apply State.fset_keeps
    | with_reducible apply State.raise_keeps
    | with_reducible apply State.writeLog_keeps
    | with_reducible apply Keeps.ite
    | refine Keeps.snd ?_ (by assumption)
    | refine Keeps.snd2 ?_ (by assumption)
    | (lift_lets; intro x; refine (?_ : Keeps ar s x → _) ?_ <;> [(intro _; clear_value x); skip])
    | with_reducible apply hx
    | split

theorem State.logRefusal_keeps {ar : List Area} {s t : State} (h : Keeps ar s t) (fn : Nat) (off : Nat)
    (hp : Allows ar [.regs, .out, .free, .trigs, .frames, .ports, .flt, .trunks, .node, .pipes, .gload, .cls, .emem, .funcs, .qps, .mem, .dmas] := by first | assumption | (refine Allows.mono ?_ (by assumption); decide)) :
    Keeps ar s (State.logRefusal t fn off) := by
  unfold State.logRefusal
  repeat' first
    | with_reducible assumption
    | exact Allows.mono (by decide) hp
    | with_reducible apply State.cnt_keeps
    | with_reducible apply State.logFault_keeps
    | with_reducible apply State.setFlt_keeps
    | with_reducible apply Keeps.ite
    | refine Keeps.snd ?_ (by assumption)
    | refine Keeps.snd2 ?_ (by assumption)
    | split

theorem State.logDenied_keeps {ar : List Area} {s t : State} (h : Keeps ar s t) (fn : Nat) (off : Nat)
    (hp : Allows ar [.regs, .out, .free, .trigs, .frames, .ports, .flt, .trunks, .node, .pipes, .gload, .cls, .emem, .funcs, .qps, .mem, .dmas] := by first | assumption | (refine Allows.mono ?_ (by assumption); decide)) :
    Keeps ar s (State.logDenied t fn off) := by
  unfold State.logDenied
  repeat' first
    | with_reducible assumption
    | exact Allows.mono (by decide) hp
    | with_reducible apply State.logRefusal_keeps
    | with_reducible apply Keeps.ite

/-! ### Machine/Access.lean -/

theorem State.answer_keeps {ar : List Area} {s t : State} (h : Keeps ar s t) (err : Bool) (data : Nat)
    (hp : Allows ar [.slv] := by first | assumption | (refine Allows.mono ?_ (by assumption); decide)) :
    Keeps ar s (State.answer t err data) := by
  unfold State.answer
  repeat' first
    | with_reducible assumption
    | exact Allows.mono (by decide) hp
    | with_reducible apply State.setSlv_keeps

theorem State.deny_keeps {ar : List Area} {s t : State} (h : Keeps ar s t)
    (hp : Allows ar [.slv] := by first | assumption | (refine Allows.mono ?_ (by assumption); decide)) :
    Keeps ar s (State.deny t) := by
  unfold State.deny
  repeat' first
    | with_reducible assumption
    | exact Allows.mono (by decide) hp
    | with_reducible apply State.answer_keeps

theorem State.access_keeps {ar : List Area} {s t : State} (h : Keeps ar s t) (fn : Nat) (off : Nat) (f : Nat → State → State) (hf : ∀ x0 u, Keeps ar s u → Keeps ar s (f x0 u))
    (hp : Allows ar [.regs, .slv, .out, .free, .trigs, .frames, .ports, .flt, .trunks, .node, .pipes, .gload, .cls, .emem, .funcs, .qps, .mem, .dmas] := by first | assumption | (refine Allows.mono ?_ (by assumption); decide)) :
    Keeps ar s (State.access t fn off f) := by
  unfold State.access
  repeat' first
    | with_reducible assumption
    | exact Allows.mono (by decide) hp
    | with_reducible intro _
    | with_reducible apply hf
    | with_reducible apply State.answer_keeps
    | with_reducible apply State.deny_keeps
    | with_reducible apply State.logDenied_keeps
    | with_reducible apply Keeps.ite
    | refine Keeps.snd ?_ (by assumption)
    | refine Keeps.snd2 ?_ (by assumption)
    | split

theorem State.writeAcc_keeps {ar : List Area} {s t : State} (h : Keeps ar s t) (fn : Nat) (off : Nat) (data : Word) (f : Nat → State → State) (hf : ∀ x0 u, Keeps ar s u → Keeps ar s (f x0 u))
    (hp : Allows ar [.regs, .slv, .out, .free, .tbs, .trigs, .frames, .ports, .flt, .trunks, .node, .pipes, .gload, .cls, .emem, .funcs, .qps, .mem, .dmas] := by first | assumption | (refine Allows.mono ?_ (by assumption); decide)) :
    Keeps ar s (State.writeAcc t fn off data f) := by
  unfold State.writeAcc
  repeat' first
    | with_reducible assumption
    | exact Allows.mono (by decide) hp
    | with_reducible intro _
    | with_reducible apply hf
    | with_reducible apply State.access_keeps
    | with_reducible apply State.setTb_keeps
    | with_reducible apply Keeps.ite
    | refine Keeps.snd ?_ (by assumption)
    | refine Keeps.snd2 ?_ (by assumption)
    | split

theorem State.cutTarget_keeps {ar : List Area} {s t : State} (h : Keeps ar s t) (key : Nat)
    (hp : Allows ar [.regs] := by first | assumption | (refine Allows.mono ?_ (by assumption); decide)) :
    Keeps ar s (State.cutTarget t key) := by
  unfold State.cutTarget
  repeat' first
    | with_reducible assumption
    | exact Allows.mono (by decide) hp
    | with_reducible apply State.wr_keeps
    | with_reducible apply Keeps.ite

theorem State.applyStaged_keeps {ar : List Area} {s t : State} (h : Keeps ar s t) (key : Nat) (w : Nat)
    (hp : Allows ar [.regs, .stage] := by first | assumption | (refine Allows.mono ?_ (by assumption); decide)) :
    Keeps ar s (State.applyStaged t key w) := by
  unfold State.applyStaged
  repeat' first
    | with_reducible assumption
    | exact Allows.mono (by decide) hp
    | with_reducible intro _
    | with_reducible apply State.setStage_keeps
    | with_reducible apply State.wr_keeps
    | with_reducible apply Keeps.forEach
    | refine Keeps.snd ?_ (by assumption)
    | refine Keeps.snd2 ?_ (by assumption)
    | split

theorem State.dropStaged_keeps {ar : List Area} {s t : State} (h : Keeps ar s t) (key : Nat) (w : Nat)
    (hp : Allows ar [.stage] := by first | assumption | (refine Allows.mono ?_ (by assumption); decide)) :
    Keeps ar s (State.dropStaged t key w) := by
  unfold State.dropStaged
  repeat' first
    | with_reducible assumption
    | exact Allows.mono (by decide) hp
    | with_reducible intro _
    | with_reducible apply State.setStage_keeps

theorem State.writeFields_keeps {ar : List Area} {s t : State} (h : Keeps ar s t) (key : Nat) (data : Word)
    (hp : Allows ar [.regs, .stage, .slv] := by first | assumption | (refine Allows.mono ?_ (by assumption); decide)) :
    Keeps ar s (State.writeFields t key data) := by
  unfold State.writeFields
  repeat' first
    | with_reducible assumption
    | exact Allows.mono (by decide) hp
    | with_reducible apply State.applyStaged_keeps
    | with_reducible apply State.cutTarget_keeps
    | with_reducible apply State.deny_keeps
    | with_reducible apply State.dropStaged_keeps
    | with_reducible apply State.setStage_keeps
    | with_reducible apply State.wr_keeps
    | with_reducible apply Keeps.ite
    | refine Keeps.snd ?_ (by assumption)
    | refine Keeps.snd2 ?_ (by assumption)
    | (lift_lets; intro x; clear_value x)
    | with_reducible apply hx
    | split

theorem State.latchHigh_keeps {ar : List Area} {s t : State} (h : Keeps ar s t) (key : Nat)
    (hp : Allows ar [.hold] := by first | assumption | (refine Allows.mono ?_ (by assumption); decide)) :
    Keeps ar s (State.latchHigh t key) := by
  unfold State.latchHigh
  repeat' first
    | with_reducible assumption
    | exact Allows.mono (by decide) hp
    | with_reducible apply State.setHold_keeps

theorem State.latchNext_keeps {ar : List Area} {s t : State} (h : Keeps ar s t) (key : Nat) (k : Nat)
    (hp : Allows ar [.hold] := by first | assumption | (refine Allows.mono ?_ (by assumption); decide)) :
    Keeps ar s (State.latchNext t key k) := by
  unfold State.latchNext
  repeat' first
    | with_reducible assumption
    | exact Allows.mono (by decide) hp
    | with_reducible intro _
    | with_reducible apply State.setHold_keeps

end Sys2Proof.Machine
end

