-- ==== Sys2Proof/Laws/KeepsFrames.lean ====
section
/-!
SUPPORT. Every operation keeps the pieces of State it does not name, and the canonical form (Keeps): parsing, forwarding, interrupts, times, trunks, domains, port rules.
Each lemma follows its definition, rule by rule.
-/
set_option Elab.async false
namespace Sys2Proof.Machine

/-! ### Machine/Parse.lean -/

theorem State.prsCnt_keeps {ar : List Area} {s t : State} (h : Keeps ar s t) (hh : Nat) (k : Nat)
    (hp : Allows ar [.regs] := by first | assumption | (refine Allows.mono ?_ (by assumption); decide)) :
    Keeps ar s (State.prsCnt t hh k) := by
  unfold State.prsCnt
  repeat' first
    | with_reducible assumption
    | exact Allows.mono (by decide) hp
    | with_reducible apply State.cnt_keeps

theorem State.writeTrace_keeps {ar : List Area} {s t : State} (h : Keeps ar s t) (hh : Nat) (q : Parse)
    (hp : Allows ar [.regs] := by first | assumption | (refine Allows.mono ?_ (by assumption); decide)) :
    Keeps ar s (State.writeTrace t hh q) := by
  unfold State.writeTrace
  repeat' first
    | with_reducible assumption
    | exact Allows.mono (by decide) hp
    | with_reducible intro _
    | with_reducible apply State.fsets_keeps
    | with_reducible apply State.raise_keeps
    | with_reducible apply State.wr_keeps
    | with_reducible apply Keeps.forEach

theorem State.parseEnd_keeps {ar : List Area} {s t : State} (h : Keeps ar s t) (hh : Nat) (fid : Nat) (q : Parse)
    (hp : Allows ar [.regs, .frames, .pipes] := by first | assumption | (refine Allows.mono ?_ (by assumption); decide)) :
    Keeps ar s (State.parseEnd t hh fid q) := by
  unfold State.parseEnd
  repeat' first
    | with_reducible assumption
    | exact Allows.mono (by decide) hp
    | with_reducible apply State.checkSums_keeps
    | with_reducible apply State.prsCnt_keeps
    | with_reducible apply State.setFrame_keeps
    | with_reducible apply State.setPipe_keeps
    | with_reducible apply State.writeTrace_keeps
    | with_reducible apply Keeps.ite

theorem State.loadCtlWrite_keeps {ar : List Area} {s t : State} (h : Keeps ar s t) (data : Word)
    (hp : Allows ar [.regs, .stage, .slv, .out, .gload] := by first | assumption | (refine Allows.mono ?_ (by assumption); decide)) :
    Keeps ar s (State.loadCtlWrite data t) := by
  unfold State.loadCtlWrite
  repeat' first
    | with_reducible assumption
    | exact Allows.mono (by decide) hp
    | with_reducible intro _
    | with_reducible apply State.fset_keeps
    | with_reducible apply State.fsets_keeps
    | with_reducible apply State.hostRead_keeps
    | with_reducible apply State.setGload_keeps
    | with_reducible apply State.writeFields_keeps
    | with_reducible apply Keeps.forEach
    | with_reducible apply Keeps.ite

theorem State.nodeDataRead_keeps {ar : List Area} {s t : State} (h : Keeps ar s t) (hh : Nat)
    (hp : Allows ar [.regs, .slv] := by first | assumption | (refine Allows.mono ?_ (by assumption); decide)) :
    Keeps ar s (State.nodeDataRead hh t) := by
  unfold State.nodeDataRead
  repeat' first
    | with_reducible assumption
    | exact Allows.mono (by decide) hp
    | with_reducible apply State.answer_keeps
    | with_reducible apply State.deny_keeps
    | with_reducible apply State.fset_keeps
    | with_reducible apply State.fsets_keeps
    | with_reducible apply Keeps.ite

/-! ### Machine/ForwardOps.lean -/

theorem State.clsCnt_keeps {ar : List Area} {s t : State} (h : Keeps ar s t) (hh : Nat) (k : Nat)
    (hp : Allows ar [.regs] := by first | assumption | (refine Allows.mono ?_ (by assumption); decide)) :
    Keeps ar s (State.clsCnt t hh k) := by
  unfold State.clsCnt
  repeat' first
    | with_reducible assumption
    | exact Allows.mono (by decide) hp
    | with_reducible apply State.cnt_keeps

theorem State.setEm_keeps {ar : List Area} {s t : State} (h : Keeps ar s t) (hh : Nat) (l : List EmEnt)
    (hp : Allows ar [.ems] := by first | assumption | (refine Allows.mono ?_ (by assumption); decide)) :
    Keeps ar s (State.setEm t hh l) := by
  unfold State.setEm
  repeat' first
    | with_reducible assumption
    | exact Allows.mono (by decide) hp
    | with_reducible apply State.setEms_keeps

theorem State.emMayWrite_keeps {ar : List Area} {s t : State} (h : Keeps ar s t) (hh : Nat) (key : List Byte)
    (hp : Allows ar [.regs] := by first | assumption | (refine Allows.mono ?_ (by assumption); decide)) :
    Keeps ar s (State.emMayWrite t hh key).2 := by
  unfold State.emMayWrite
  repeat' first
    | with_reducible assumption
    | exact Allows.mono (by decide) hp
    | with_reducible apply State.denyRegion_keeps
    | with_reducible apply Keeps.ite
    | refine Keeps.snd ?_ (by assumption)
    | refine Keeps.snd2 ?_ (by assumption)
    | split

theorem State.emChange_keeps {ar : List Area} {s t : State} (h : Keeps ar s t) (hh : Nat) (key : List Byte) (f : List EmEnt → List EmEnt)
    (hp : Allows ar [.regs, .ems] := by first | assumption | (refine Allows.mono ?_ (by assumption); decide)) :
    Keeps ar s (State.emChange t hh key f) := by
  unfold State.emChange
  repeat' first
    | with_reducible assumption
    | exact Allows.mono (by decide) hp
    | with_reducible intro _
    | with_reducible apply State.emMayWrite_keeps
    | with_reducible apply State.setEm_keeps
    | with_reducible apply Keeps.forEach
    | with_reducible apply Keeps.ite

theorem State.emLookup_keeps {ar : List Area} {s t : State} (h : Keeps ar s t) (hh : Nat) (fwd : Bool) (key : List Byte)
    (hp : Allows ar [.regs] := by first | assumption | (refine Allows.mono ?_ (by assumption); decide)) :
    Keeps ar s (State.emLookup t hh fwd key).2 := by
  unfold State.emLookup
  repeat' first
    | with_reducible assumption
    | exact Allows.mono (by decide) hp
    | with_reducible apply State.denyRegion_keeps
    | with_reducible apply Keeps.ite
    | refine Keeps.snd ?_ (by assumption)
    | refine Keeps.snd2 ?_ (by assumption)
    | split

theorem State.emHit_keeps {ar : List Area} {s t : State} (h : Keeps ar s t) (hh : Nat) (e : EmEnt)
    (hp : Allows ar [.regs, .ems] := by first | assumption | (refine Allows.mono ?_ (by assumption); decide)) :
    Keeps ar s (State.emHit t hh e) := by
  unfold State.emHit
  repeat' first
    | with_reducible assumption
    | exact Allows.mono (by decide) hp
    | with_reducible intro _
    | with_reducible apply State.clsCnt_keeps
    | with_reducible apply State.emChange_keeps
    | with_reducible apply Keeps.ite

theorem State.bridge_keeps {ar : List Area} {s t : State} (h : Keeps ar s t) (hh : Nat) (f : Frame) (a : Act)
    (hp : Allows ar [.regs, .ems] := by first | assumption | (refine Allows.mono ?_ (by assumption); decide)) :
    Keeps ar s (State.bridge t hh f a).2.2 := by
  unfold State.bridge
  repeat' first
    | with_reducible assumption
    | exact Allows.mono (by decide) hp
    | with_reducible apply State.clsCnt_keeps
    | with_reducible apply State.emHit_keeps
    | with_reducible apply State.emLookup_keeps
    | with_reducible apply Keeps.ite
    | refine Keeps.snd ?_ (by assumption)
    | refine Keeps.snd2 ?_ (by assumption)
    | (lift_lets; intro x; clear_value x)
    | with_reducible apply hx
    | split
    | dsimp only

theorem State.resolve_keeps {ar : List Area} {s t : State} (h : Keeps ar s t) (r : Route)
    (hp : Allows ar [.regs, .ems] := by first | assumption | (refine Allows.mono ?_ (by assumption); decide)) :
    Keeps ar s (State.resolve t r).2 := by
  unfold State.resolve
  dsimp only
  repeat' first
    | with_reducible assumption
    | exact Allows.mono (by decide) hp
    | with_reducible apply State.clsCnt_keeps
    | with_reducible apply State.bridge_keeps
    | split

theorem State.recover_keeps {ar : List Area} {s t : State} (h : Keeps ar s t) (hh : Nat) (e : Nat) (n : Nat) (f : Frame)
    (hp : Allows ar [.regs, .cls] := by first | assumption | (refine Allows.mono ?_ (by assumption); decide)) :
    Keeps ar s (State.recover t hh e n f).2 := by
  unfold State.recover
  repeat' first
    | with_reducible assumption
    | exact Allows.mono (by decide) hp
    | with_reducible apply State.clsCnt_keeps
    | with_reducible apply State.setCls_keeps
    | refine Keeps.snd ?_ (by assumption)
    | refine Keeps.snd2 ?_ (by assumption)
    | (lift_lets; intro x; clear_value x)
    | with_reducible apply hx
    | split
    | dsimp only

theorem State.toPort_keeps {ar : List Area} {s t : State} (h : Keeps ar s t) (r : Route) (p : Nat) (chan : Nat) (multi : Bool)
    (hp : Allows ar [.regs, .ports, .cls, .qps] := by first | assumption | (refine Allows.mono ?_ (by assumption); decide)) :
    Keeps ar s (State.toPort t r p chan multi) := by
  unfold State.toPort
  repeat' first
    | with_reducible assumption
    | exact Allows.mono (by decide) hp
    | with_reducible apply State.cnt_keeps
    | with_reducible apply State.enqueue_keeps
    | with_reducible apply State.fsat_keeps
    | with_reducible apply State.hostDone_keeps
    | with_reducible apply State.recover_keeps
    | with_reducible apply Keeps.ite
    | with_reducible apply hx
    | split

theorem State.toQueue_keeps {ar : List Area} {s t : State} (h : Keeps ar s t) (r : Route) (q : Nat)
    (hp : Allows ar [.frames, .qps] := by first | assumption | (refine Allows.mono ?_ (by assumption); decide)) :
    Keeps ar s (State.toQueue t r q) := by
  unfold State.toQueue
  repeat' first
    | with_reducible assumption
    | exact Allows.mono (by decide) hp
    | with_reducible apply State.setFrame_keeps
    | with_reducible apply State.setQp_keeps
    | with_reducible apply Keeps.ite

theorem State.tagThread_keeps {ar : List Area} {s t : State} (h : Keeps ar s t) (r : Route)
    (hp : Allows ar [.frames, .emem] := by first | assumption | (refine Allows.mono ?_ (by assumption); decide)) :
    Keeps ar s (State.tagThread t r) := by
  unfold State.tagThread
  repeat' first
    | with_reducible assumption
    | exact Allows.mono (by decide) hp
    | with_reducible intro _
    | with_reducible apply State.eput_keeps
    | with_reducible apply State.eput_keeps
    | with_reducible apply State.setFrame_keeps
    | with_reducible apply Keeps.forEach
    | with_reducible apply Keeps.ite

theorem State.toThread_keeps {ar : List Area} {s t : State} (h : Keeps ar s t) (r : Route) (k : Nat)
    (hp : Allows ar [.regs, .threads, .qps] := by first | assumption | (refine Allows.mono ?_ (by assumption); decide)) :
    Keeps ar s (State.toThread t r k) := by
  unfold State.toThread
  repeat' first
    | with_reducible assumption
    | exact Allows.mono (by decide) hp
    | with_reducible apply State.enterThread_keeps
    | with_reducible apply State.hostDone_keeps
    | with_reducible apply Keeps.ite

theorem State.send_keeps {ar : List Area} {s t : State} (h : Keeps ar s t) (r : Route) (l : List Dest)
    (hp : Allows ar [.regs, .frames, .ports, .cls, .threads, .emem, .qps] := by first | assumption | (refine Allows.mono ?_ (by assumption); decide)) :
    Keeps ar s (State.send t r l) := by
  unfold State.send
  repeat' first
    | with_reducible assumption
    | exact Allows.mono (by decide) hp
    | with_reducible intro _
    | with_reducible apply State.hostDone_keeps
    | with_reducible apply State.recover_keeps
    | with_reducible apply State.tagThread_keeps
    | with_reducible apply State.toPort_keeps
    | with_reducible apply State.toQueue_keeps
    | with_reducible apply State.toThread_keeps
    | with_reducible apply Keeps.forEach
    | with_reducible apply Keeps.ite
    | refine Keeps.snd ?_ (by assumption)
    | refine Keeps.snd2 ?_ (by assumption)
    | (lift_lets; intro x; clear_value x)
    | with_reducible apply hx
    | split

theorem State.takeSeq_keeps {ar : List Area} {s t : State} (h : Keeps ar s t) (a : Act)
    (hp : Allows ar [.regs] := by first | assumption | (refine Allows.mono ?_ (by assumption); decide)) :
    Keeps ar s (State.takeSeq t a).2 := by
  unfold State.takeSeq
  repeat' first
    | with_reducible assumption
    | exact Allows.mono (by decide) hp
    | with_reducible apply State.fset_keeps
    | with_reducible apply Keeps.ite
    | (lift_lets; intro x; clear_value x)
    | with_reducible apply hx
    | split

theorem State.ownBlock_keeps {ar : List Area} {s t : State} (h : Keeps ar s t) (fid : Nat)
    (hp : Allows ar [.frames] := by first | assumption | (refine Allows.mono ?_ (by assumption); decide)) :
    Keeps ar s (State.ownBlock t fid) := by
  unfold State.ownBlock
  repeat' first
    | with_reducible assumption
    | exact Allows.mono (by decide) hp
    | with_reducible apply State.setFrame_keeps
    | with_reducible apply Keeps.ite

theorem State.judgeLens_keeps {ar : List Area} {s t : State} (h : Keeps ar s t) (fid : Nat)
    (hp : Allows ar [.regs, .frames, .ports, .emem, .qps, .mem] := by first | assumption | (refine Allows.mono ?_ (by assumption); decide)) :
    Keeps ar s (State.judgeLens t fid) := by
  unfold State.judgeLens
  repeat' first
    | with_reducible assumption
    | exact Allows.mono (by decide) hp
    | with_reducible intro _
    | with_reducible apply State.cnt_keeps
    | with_reducible apply State.copyGone_keeps
    | with_reducible apply State.setPort_keeps
    | with_reducible apply Keeps.forEach
    | with_reducible apply Keeps.ite

theorem State.commitFail_keeps {ar : List Area} {s t : State} (h : Keeps ar s t)
    (hp : Allows ar [.regs, .cls] := by first | assumption | (refine Allows.mono ?_ (by assumption); decide)) :
    Keeps ar s (State.commitFail t) := by
  unfold State.commitFail
  repeat' first
    | with_reducible assumption
    | exact Allows.mono (by decide) hp
    | with_reducible intro _
    | with_reducible apply State.fsets_keeps
    | with_reducible apply State.raise_keeps
    | with_reducible apply State.setCls_keeps
    | with_reducible apply State.showCourses_keeps
    | with_reducible apply Keeps.ite
    | refine Keeps.snd ?_ (by assumption)
    | refine Keeps.snd2 ?_ (by assumption)
    | (lift_lets; intro x; clear_value x)
    | with_reducible apply hx
    | split

/-! ### Machine/ChkOps.lean -/

theorem State.setChk_keeps {ar : List Area} {s t : State} (h : Keeps ar s t) (n : Nat) (v : Chk)
    (hp : Allows ar [.chks] := by first | assumption | (refine Allows.mono ?_ (by assumption); decide)) :
    Keeps ar s (State.setChk t n v) := by
  unfold State.setChk
  repeat' first
    | with_reducible assumption
    | exact Allows.mono (by decide) hp
    | with_reducible apply State.setChks_keeps

theorem State.chkShow_keeps {ar : List Area} {s t : State} (h : Keeps ar s t) (n : Nat) (valid : Bool)
    (hp : Allows ar [.regs] := by first | assumption | (refine Allows.mono ?_ (by assumption); decide)) :
    Keeps ar s (State.chkShow t n valid) := by
  unfold State.chkShow
  repeat' first
    | with_reducible assumption
    | exact Allows.mono (by decide) hp
    | with_reducible apply State.fsets_keeps
    | with_reducible apply State.wr64_keeps

theorem State.chkByte_keeps {ar : List Area} {s t : State} (h : Keeps ar s t) (n : Nat) (x : Byte)
    (hp : Allows ar [.chks] := by first | assumption | (refine Allows.mono ?_ (by assumption); decide)) :
    Keeps ar s (State.chkByte t n x) := by
  unfold State.chkByte
  repeat' first
    | with_reducible assumption
    | exact Allows.mono (by decide) hp
    | with_reducible apply State.setChk_keeps

theorem State.chkTake_keeps {ar : List Area} {s t : State} (h : Keeps ar s t) (n : Nat) (bs : List Byte)
    (hp : Allows ar [.regs, .chks] := by first | assumption | (refine Allows.mono ?_ (by assumption); decide)) :
    Keeps ar s (State.chkTake t n bs) := by
  unfold State.chkTake
  repeat' first
    | with_reducible assumption
    | exact Allows.mono (by decide) hp
    | with_reducible intro _
    | with_reducible apply State.chkByte_keeps
    | with_reducible apply State.chkShow_keeps
    | with_reducible apply State.fsets_keeps
    | with_reducible apply Keeps.forEach
    | with_reducible apply Keeps.ite

theorem State.raiseChk_keeps {ar : List Area} {s t : State} (h : Keeps ar s t) (n : Nat) (k : Nat)
    (hp : Allows ar [.regs] := by first | assumption | (refine Allows.mono ?_ (by assumption); decide)) :
    Keeps ar s (State.raiseChk t n k) := by
  unfold State.raiseChk
  repeat' first
    | with_reducible assumption
    | exact Allows.mono (by decide) hp
    | with_reducible apply State.raise_keeps

theorem State.chkRecord_keeps {ar : List Area} {s t : State} (h : Keeps ar s t) (n : Nat)
    (hp : Allows ar [.regs, .emem] := by first | assumption | (refine Allows.mono ?_ (by assumption); decide)) :
    Keeps ar s (State.chkRecord t n) := by
  unfold State.chkRecord
  repeat' first
    | with_reducible assumption
    | exact Allows.mono (by decide) hp
    | with_reducible intro _
    | with_reducible apply State.eput_keeps
    | with_reducible apply State.eput_keeps
    | with_reducible apply State.postThr_keeps
    | with_reducible apply Keeps.ite
    | refine Keeps.snd ?_ (by assumption)
    | refine Keeps.snd2 ?_ (by assumption)
    | (lift_lets; intro x; clear_value x)
    | with_reducible apply hx
    | split

theorem State.chkLoad_keeps {ar : List Area} {s t : State} (h : Keeps ar s t) (n : Nat)
    (hp : Allows ar [.chks] := by first | assumption | (refine Allows.mono ?_ (by assumption); decide)) :
    Keeps ar s (State.chkLoad t n) := by
  unfold State.chkLoad
  repeat' first
    | with_reducible assumption
    | exact Allows.mono (by decide) hp
    | with_reducible apply State.setChk_keeps

theorem State.chkEnd_keeps {ar : List Area} {s t : State} (h : Keeps ar s t) (n : Nat) (e : Nat) (al : Nat) (av : Nat)
    (hp : Allows ar [.regs, .emem, .chks] := by first | assumption | (refine Allows.mono ?_ (by assumption); decide)) :
    Keeps ar s (State.chkEnd t n e al av) := by
  unfold State.chkEnd
  repeat' first
    | with_reducible assumption
    | exact Allows.mono (by decide) hp
    | with_reducible apply State.chkLoad_keeps
    | with_reducible apply State.chkRecord_keeps
    | with_reducible apply State.chkShow_keeps
    | with_reducible apply State.fset_keeps
    | with_reducible apply State.fsets_keeps
    | with_reducible apply State.raiseChk_keeps
    | with_reducible apply Keeps.ite

theorem State.chkGo_keeps {ar : List Area} {s t : State} (h : Keeps ar s t) (n : Nat)
    (hp : Allows ar [.regs, .emem, .chks] := by first | assumption | (refine Allows.mono ?_ (by assumption); decide)) :
    Keeps ar s (State.chkGo t n) := by
  unfold State.chkGo
  repeat' first
    | with_reducible assumption
    | exact Allows.mono (by decide) hp
    | with_reducible apply State.chkEnd_keeps
    | with_reducible apply State.chkLoad_keeps
    | with_reducible apply State.chkShow_keeps
    | with_reducible apply State.fset_keeps
    | with_reducible apply State.setChk_keeps
    | with_reducible apply Keeps.ite

theorem State.chkAlive_keeps {ar : List Area} {s t : State} (h : Keeps ar s t) (n : Nat) (e : Nat)
    (hp : Allows ar [.regs, .chks] := by first | assumption | (refine Allows.mono ?_ (by assumption); decide)) :
    Keeps ar s (State.chkAlive t n e).2.2 := by
  unfold State.chkAlive
  repeat' first
    | with_reducible assumption
    | exact Allows.mono (by decide) hp
    | with_reducible apply State.fset_keeps
    | with_reducible apply State.raiseChk_keeps
    | with_reducible apply State.setChk_keeps
    | with_reducible apply Keeps.ite
    | (lift_lets; intro x; clear_value x)
    | with_reducible apply hx
    | split
    | dsimp only

theorem State.chkFinish_keeps {ar : List Area} {s t : State} (h : Keeps ar s t) (n : Nat)
    (hp : Allows ar [.regs, .emem, .chks] := by first | assumption | (refine Allows.mono ?_ (by assumption); decide)) :
    Keeps ar s (State.chkFinish t n) := by
  unfold State.chkFinish
  repeat' first
    | with_reducible assumption
    | exact Allows.mono (by decide) hp
    | with_reducible apply State.chkAlive_keeps
    | with_reducible apply State.chkEnd_keeps
    | with_reducible apply State.fset_keeps
    | with_reducible apply State.raiseChk_keeps
    | with_reducible apply Keeps.ite

/-! ### Machine/EngineOps.lean -/

theorem State.setGreg_keeps {ar : List Area} {s t : State} (h : Keeps ar s t) (e : Nat) (n : Nat) (r : Nat) (v : Word)
    (hp : Allows ar [.regs] := by first | assumption | (refine Allows.mono ?_ (by assumption); decide)) :
    Keeps ar s (State.setGreg t e n r v) := by
  unfold State.setGreg
  repeat' first
    | with_reducible assumption
    | exact Allows.mono (by decide) hp
    | with_reducible apply State.wr_keeps
    | with_reducible apply Keeps.ite

theorem State.setCc_keeps {ar : List Area} {s t : State} (h : Keeps ar s t) (e : Nat) (n : Nat) (cc : Nat)
    (hp : Allows ar [.threads] := by first | assumption | (refine Allows.mono ?_ (by assumption); decide)) :
    Keeps ar s (State.setCc t e n cc) := by
  unfold State.setCc
  repeat' first
    | with_reducible assumption
    | exact Allows.mono (by decide) hp
    | with_reducible apply State.setThr_keeps

theorem State.setV_keeps {ar : List Area} {s t : State} (h : Keeps ar s t) (e : Nat) (n : Nat) (v : Bool)
    (hp : Allows ar [.threads] := by first | assumption | (refine Allows.mono ?_ (by assumption); decide)) :
    Keeps ar s (State.setV t e n v) := by
  unfold State.setV
  repeat' first
    | with_reducible assumption
    | exact Allows.mono (by decide) hp
    | with_reducible apply State.setCc_keeps

theorem State.setZ_keeps {ar : List Area} {s t : State} (h : Keeps ar s t) (e : Nat) (n : Nat) (z : Bool)
    (hp : Allows ar [.threads] := by first | assumption | (refine Allows.mono ?_ (by assumption); decide)) :
    Keeps ar s (State.setZ t e n z) := by
  unfold State.setZ
  repeat' first
    | with_reducible assumption
    | exact Allows.mono (by decide) hp
    | with_reducible apply State.setCc_keeps

theorem State.setTimer_keeps {ar : List Area} {s t : State} (h : Keeps ar s t) (e : Nat) (n : Nat) (v : Word)
    (hp : Allows ar [.regs] := by first | assumption | (refine Allows.mono ?_ (by assumption); decide)) :
    Keeps ar s (State.setTimer t e n v) := by
  unfold State.setTimer
  repeat' first
    | with_reducible assumption
    | exact Allows.mono (by decide) hp
    | with_reducible apply State.wr_keeps

theorem State.thrFault_keeps {ar : List Area} {s t : State} (h : Keeps ar s t) (e : Nat) (n : Nat) (cause : Nat)
    (hp : Allows ar [.regs, .out, .free, .trigs, .frames, .ports, .flt, .trunks, .node, .pipes, .gload, .cls, .emem, .funcs, .qps, .mem, .dmas] := by first | assumption | (refine Allows.mono ?_ (by assumption); decide)) :
    Keeps ar s (State.thrFault t e n cause) := by
  unfold State.thrFault
  repeat' first
    | with_reducible assumption
    | exact Allows.mono (by decide) hp
    | with_reducible apply State.ceCnt_keeps
    | with_reducible apply State.fsets_keeps
    | with_reducible apply State.logFault_keeps
    | with_reducible apply State.raise_keeps
    | with_reducible apply State.setThrState_keeps

theorem State.countIssue_keeps {ar : List Area} {s t : State} (h : Keeps ar s t) (e : Nat) (n : Nat) (fw : Bool)
    (hp : Allows ar [.regs, .wheel] := by first | assumption | (refine Allows.mono ?_ (by assumption); decide)) :
    Keeps ar s (State.countIssue t e n fw) := by
  unfold State.countIssue
  repeat' first
    | with_reducible assumption
    | exact Allows.mono (by decide) hp
    | with_reducible apply State.ceCnt_keeps
    | with_reducible apply Ins.put_keeps
    | with_reducible apply State.setWheel_keeps
    | with_reducible apply Keeps.ite

theorem State.issue_keeps {ar : List Area} {s t : State} (h : Keeps ar s t) (e n slot busy ecc : Nat) (c : Option Opc)
    (f : Ins → State → Option State) (hf : ∀ i u, Keeps ar s u → KeepsOpt ar s (f i u))
    (hp : Allows ar [.regs, .out, .free, .trigs, .frames, .ports, .flt, .trunks, .node, .pipes, .gload, .cls, .wheel, .emem, .funcs, .qps, .mem, .dmas] := by first | assumption | (refine Allows.mono ?_ (by assumption); decide)) :
    Keeps ar s (t.issue e n slot busy ecc c f) := by
  have hc : ∀ fw, Keeps ar s (t.countIssue e n fw) := fun fw => State.countIssue_keeps h e n fw
  have hget : ∀ i u, Keeps ar s u → Keeps ar s ((f i u).getD t) := fun i u hu => by
    cases hfu : f i u with
    | none => exact h
    | some v => exact hf i u hu v hfu
  unfold State.issue
  repeat' split
  all_goals first
    | exact h
    | exact State.thrFault_keeps (hc _) _ _ _
    | exact hget _ _ (State.ceCnt_keeps (hc _) _ _)
    | exact hget _ _ (hc _)

theorem Ins.put_keeps {ar : List Area} {s t : State} (h : Keeps ar s t) (i : Ins) (v : Word)
    (hp : Allows ar [.regs] := by first | assumption | (refine Allows.mono ?_ (by assumption); decide)) :
    Keeps ar s (Ins.put i v t) := by
  unfold Ins.put
  repeat' first
    | with_reducible assumption
    | exact Allows.mono (by decide) hp
    | with_reducible apply State.setGreg_keeps

theorem Ins.fault_keeps {ar : List Area} {s t : State} (h : Keeps ar s t) (i : Ins) (c : Nat)
    (hp : Allows ar [.regs, .out, .free, .trigs, .frames, .ports, .flt, .trunks, .node, .pipes, .gload, .cls, .emem, .funcs, .qps, .mem, .dmas] := by first | assumption | (refine Allows.mono ?_ (by assumption); decide)) : KeepsOpt ar s (i.fault c t) :=
  KeepsOpt.some (State.thrFault_keeps h _ _ _)

theorem Ins.done_keeps {ar : List Area} {s t : State} (h : Keeps ar s t) (i : Ins)
    (hp : Allows ar [.regs] := by first | assumption | (refine Allows.mono ?_ (by assumption); decide)) : KeepsOpt ar s (i.done t) :=
  KeepsOpt.some (State.setPc_keeps h _ _ _)

theorem aluReg_keeps {ar : List Area} {s t : State} (h : Keeps ar s t) (f : Word → Word → AluRes) (i : Ins)
    (hp : Allows ar [.regs, .threads] := by first | assumption | (refine Allows.mono ?_ (by assumption); decide)) : KeepsOpt ar s (aluReg f i t) :=
  Ins.done_keeps (Keeps.ite (State.setCc_keeps (Ins.put_keeps h _ _) _ _ _) (Ins.put_keeps h _ _)) _

theorem aluImm_keeps {ar : List Area} {s t : State} (h : Keeps ar s t) (f : Word → Word) (i : Ins)
    (hp : Allows ar [.regs] := by first | assumption | (refine Allows.mono ?_ (by assumption); decide)) : KeepsOpt ar s (aluImm f i t) :=
  Ins.done_keeps (Ins.put_keeps h _ _) _

theorem Ins.jump_keeps {ar : List Area} {s t : State} (h : Keeps ar s t) (i : Ins) (pc : Word)
    (hp : Allows ar [.regs] := by first | assumption | (refine Allows.mono ?_ (by assumption); decide)) : KeepsOpt ar s (i.jump pc t) :=
  KeepsOpt.some (State.setPc_keeps h _ _ _)

theorem amoExec_keeps {ar : List Area} {s t : State} (h : Keeps ar s t) (f : Word → Word → Word → Word) (i : Ins)
    (hp : Allows ar [.regs, .out, .free, .trigs, .frames, .ports, .flt, .trunks, .node, .pipes, .gload, .cls, .emem, .funcs, .qps, .mem, .dmas] := by first | assumption | (refine Allows.mono ?_ (by assumption); decide)) :
    KeepsOpt ar s (amoExec f i t) := by
  unfold amoExec
  split
  · exact Ins.fault_keeps h _ _
  · exact KeepsOpt.ite (Ins.fault_keeps h _ _) (Ins.done_keeps (Ins.put_keeps (State.eput_keeps h _ _ _) _ _) _)

theorem State.storeFrame_keeps {ar : List Area} {s t : State} (h : Keeps ar s t) (fid : Nat) (j : Nat) (b : Byte)
    (hp : Allows ar [.regs, .frames, .emem] := by first | assumption | (refine Allows.mono ?_ (by assumption); decide)) :
    Keeps ar s (State.storeFrame t fid j b) := by
  unfold State.storeFrame
  repeat' first
    | with_reducible assumption
    | exact Allows.mono (by decide) hp
    | with_reducible intro _
    | with_reducible apply Ins.done_keeps
    | with_reducible apply State.eput_keeps
    | with_reducible apply State.eput_keeps
    | with_reducible apply State.setFrame_keeps
    | with_reducible apply Keeps.forEach
    | with_reducible apply Keeps.ite

theorem State.voidFrame_keeps {ar : List Area} {s t : State} (h : Keeps ar s t) (fid : Nat)
    (hp : Allows ar [.regs, .frames] := by first | assumption | (refine Allows.mono ?_ (by assumption); decide)) :
    Keeps ar s (State.voidFrame t fid) := by
  unfold State.voidFrame
  repeat' first
    | with_reducible assumption
    | exact Allows.mono (by decide) hp
    | with_reducible intro _
    | with_reducible apply Ins.done_keeps
    | with_reducible apply State.setFrame_keeps
    | with_reducible apply Keeps.ite

theorem State.unbind_keeps {ar : List Area} {s t : State} (h : Keeps ar s t) (e : Nat) (n : Nat)
    (hp : Allows ar [.regs, .threads] := by first | assumption | (refine Allows.mono ?_ (by assumption); decide)) :
    Keeps ar s (State.unbind t e n) := by
  unfold State.unbind
  repeat' first
    | with_reducible assumption
    | exact Allows.mono (by decide) hp
    | with_reducible apply State.fset_keeps
    | with_reducible apply State.setThr_keeps

theorem State.fillRoom_keeps {ar : List Area} {s t : State} (h : Keeps ar s t) (k : Nat)
    (hp : Allows ar [.regs, .threads, .qps] := by first | assumption | (refine Allows.mono ?_ (by assumption); decide)) :
    Keeps ar s (State.fillRoom t k) := by
  unfold State.fillRoom
  repeat' first
    | with_reducible assumption
    | exact Allows.mono (by decide) hp
    | with_reducible intro _
    | with_reducible apply State.enterThread_keeps
    | with_reducible apply State.hostDone_keeps
    | with_reducible apply State.setQp_keeps
    | with_reducible apply Keeps.ite
    | refine Keeps.snd ?_ (by assumption)
    | refine Keeps.snd2 ?_ (by assumption)
    | split

theorem State.dispose_keeps {ar : List Area} {s t : State} (h : Keeps ar s t) (e : Nat) (n : Nat) (fid : Nat) (act : Nat) (onestep : Bool)
    (hp : Allows ar [.regs, .free, .frames, .ports, .pipes, .cls, .ems, .threads, .emem, .qps, .mem] := by first | assumption | (refine Allows.mono ?_ (by assumption); decide)) :
    Keeps ar s (State.dispose t e n fid act onestep) := by
  unfold State.dispose
  repeat' first
    | with_reducible assumption
    | exact Allows.mono (by decide) hp
    | with_reducible apply Ins.done_keeps
    | with_reducible apply State.judgeLens_keeps
    | with_reducible apply State.ownBlock_keeps
    | with_reducible apply State.placeFrame_keeps
    | with_reducible apply State.resolve_keeps
    | with_reducible apply State.send_keeps
    | with_reducible apply State.takeSeq_keeps
    | with_reducible apply State.txDone_keeps
    | with_reducible apply Keeps.ite

/-! ### Machine/Irq.lean -/

theorem State.irqDrop_keeps {ar : List Area} {s t : State} (h : Keeps ar s t) (k : Nat)
    (hp : Allows ar [.regs, .out] := by first | assumption | (refine Allows.mono ?_ (by assumption); decide)) :
    Keeps ar s (State.irqDrop t k) := by
  unfold State.irqDrop
  repeat' first
    | with_reducible assumption
    | exact Allows.mono (by decide) hp
    | with_reducible apply State.emit_keeps
    | with_reducible apply State.fset_keeps

theorem State.irqWithdraw_keeps {ar : List Area} {s t : State} (h : Keeps ar s t) (k : Nat)
    (hp : Allows ar [.regs, .out] := by first | assumption | (refine Allows.mono ?_ (by assumption); decide)) :
    Keeps ar s (State.irqWithdraw t k) := by
  unfold State.irqWithdraw
  repeat' first
    | with_reducible assumption
    | exact Allows.mono (by decide) hp
    | with_reducible apply State.irqDrop_keeps
    | with_reducible apply Keeps.ite

theorem State.irqOffer_keeps {ar : List Area} {s t : State} (h : Keeps ar s t) (k : Nat)
    (hp : Allows ar [.regs, .out] := by first | assumption | (refine Allows.mono ?_ (by assumption); decide)) :
    Keeps ar s (State.irqOffer t k) := by
  unfold State.irqOffer
  repeat' first
    | with_reducible assumption
    | exact Allows.mono (by decide) hp
    | with_reducible apply State.emit_keeps
    | with_reducible apply State.fsets_keeps
    | refine Keeps.snd ?_ (by assumption)
    | refine Keeps.snd2 ?_ (by assumption)
    | split

theorem State.irqEoi_keeps {ar : List Area} {s t : State} (h : Keeps ar s t) (k : Nat) (data : Word)
    (hp : Allows ar [.regs, .taken] := by first | assumption | (refine Allows.mono ?_ (by assumption); decide)) :
    Keeps ar s (State.irqEoi k data t) := by
  unfold State.irqEoi
  repeat' first
    | with_reducible assumption
    | exact Allows.mono (by decide) hp
    | with_reducible apply State.fset_keeps
    | with_reducible apply Ins.put_keeps
    | with_reducible apply State.setTaken_keeps
    | with_reducible apply Keeps.ite

theorem State.irqSetPend_keeps {ar : List Area} {s t : State} (h : Keeps ar s t) (w : Nat) (data : Word)
    (hp : Allows ar [.regs] := by first | assumption | (refine Allows.mono ?_ (by assumption); decide)) :
    Keeps ar s (State.irqSetPend w data t) := by
  unfold State.irqSetPend
  repeat' first
    | with_reducible assumption
    | exact Allows.mono (by decide) hp
    | with_reducible apply State.wr_keeps

/-! ### Machine/DicOps.lean -/

theorem State.showDirty_keeps {ar : List Area} {s t : State} (h : Keeps ar s t)
    (hp : Allows ar [.regs] := by first | assumption | (refine Allows.mono ?_ (by assumption); decide)) :
    Keeps ar s (State.showDirty t) := by
  unfold State.showDirty
  repeat' first
    | with_reducible assumption
    | exact Allows.mono (by decide) hp
    | with_reducible intro _
    | with_reducible apply State.fset_keeps

theorem State.setVal_keeps {ar : List Area} {s t : State} (h : Keeps ar s t) (k : Nat) (d : ObjDef) (v : List Byte)
    (hp : Allows ar [.regs, .dic] := by first | assumption | (refine Allows.mono ?_ (by assumption); decide)) :
    Keeps ar s (State.setVal t k d v) := by
  unfold State.setVal
  repeat' first
    | with_reducible assumption
    | exact Allows.mono (by decide) hp
    | with_reducible apply State.setDic_keeps
    | with_reducible apply State.showDirty_keeps
    | with_reducible apply Keeps.ite

theorem State.mirLoad_keeps {ar : List Area} {s t : State} (h : Keeps ar s t) (m : Mir) (v : Nat)
    (hp : Allows ar [.regs] := by first | assumption | (refine Allows.mono ?_ (by assumption); decide)) :
    Keeps ar s (State.mirLoad t m v) := by
  unfold State.mirLoad
  repeat' first
    | with_reducible assumption
    | exact Allows.mono (by decide) hp
    | with_reducible intro _
    | with_reducible apply State.wr_keeps
    | with_reducible apply Keeps.forEach

theorem State.dicSync_keeps {ar : List Area} {s t : State} (h : Keeps ar s t) (key : Nat)
    (hp : Allows ar [.regs, .dic] := by first | assumption | (refine Allows.mono ?_ (by assumption); decide)) :
    Keeps ar s (State.dicSync t key) := by
  unfold State.dicSync
  repeat' first
    | with_reducible assumption
    | exact Allows.mono (by decide) hp
    | with_reducible intro _
    | with_reducible apply State.setVal_keeps
    | with_reducible apply Keeps.forEach

theorem State.loadNv_keeps {ar : List Area} {s t : State} (h : Keeps ar s t) (p : Nat → Bool)
    (hp : Allows ar [.regs] := by first | assumption | (refine Allows.mono ?_ (by assumption); decide)) :
    Keeps ar s (State.loadNv t p) := by
  unfold State.loadNv
  repeat' first
    | with_reducible assumption
    | exact Allows.mono (by decide) hp
    | with_reducible intro _
    | with_reducible apply State.mirLoad_keeps
    | with_reducible apply Keeps.forEach
    | with_reducible apply Keeps.ite
    | refine Keeps.snd ?_ (by assumption)
    | refine Keeps.snd2 ?_ (by assumption)
    | (lift_lets; intro x; clear_value x)
    | with_reducible apply hx
    | split

/-! ### Machine/Time.lean -/

theorem State.tbIgnored_keeps {ar : List Area} {s t : State} (h : Keeps ar s t) (hh : Nat)
    (hp : Allows ar [.regs] := by first | assumption | (refine Allows.mono ?_ (by assumption); decide)) :
    Keeps ar s (State.tbIgnored t hh) := by
  unfold State.tbIgnored
  repeat' first
    | with_reducible assumption
    | exact Allows.mono (by decide) hp
    | with_reducible apply State.setFlag_keeps

theorem State.sendFollow_keeps {ar : List Area} {s t : State} (h : Keeps ar s t) (hh : Nat) (c : Follow)
    (hp : Allows ar [.tbs] := by first | assumption | (refine Allows.mono ?_ (by assumption); decide)) :
    Keeps ar s (State.sendFollow t hh c) := by
  unfold State.sendFollow
  repeat' first
    | with_reducible assumption
    | exact Allows.mono (by decide) hp
    | with_reducible apply State.setTb_keeps
    | with_reducible apply Keeps.ite

theorem State.tbSetHigh_keeps {ar : List Area} {s t : State} (h : Keeps ar s t) (hh : Nat) (data : Word)
    (hp : Allows ar [.regs, .stage, .slv, .tbs, .pps, .gens] := by first | assumption | (refine Allows.mono ?_ (by assumption); decide)) :
    Keeps ar s (State.tbSetHigh hh data t) := by
  unfold State.tbSetHigh
  repeat' first
    | with_reducible assumption
    | exact Allows.mono (by decide) hp
    | with_reducible intro _
    | with_reducible apply State.deny_keeps
    | with_reducible apply State.fset_keeps
    | with_reducible apply State.newTime_keeps
    | with_reducible apply State.sendFollow_keeps
    | with_reducible apply State.setFlag_keeps
    | with_reducible apply State.setStage_keeps
    | with_reducible apply State.tbIgnored_keeps
    | with_reducible apply State.writeFields_keeps
    | with_reducible apply Keeps.ite

theorem State.tbSetLow_keeps {ar : List Area} {s t : State} (h : Keeps ar s t) (hh : Nat) (i : Nat) (data : Word)
    (hp : Allows ar [.regs, .stage, .slv] := by first | assumption | (refine Allows.mono ?_ (by assumption); decide)) :
    Keeps ar s (State.tbSetLow hh i data t) := by
  unfold State.tbSetLow
  repeat' first
    | with_reducible assumption
    | exact Allows.mono (by decide) hp
    | with_reducible apply State.tbIgnored_keeps
    | with_reducible apply State.writeFields_keeps
    | with_reducible apply Keeps.ite

theorem State.applyStep_keeps {ar : List Area} {s t : State} (h : Keeps ar s t) (hh : Nat) (u0 : Nat) (hw : Bool)
    (hp : Allows ar [.regs, .tbs, .pps, .gens, .trunks] := by first | assumption | (refine Allows.mono ?_ (by assumption); decide)) :
    Keeps ar s (State.applyStep t hh u0 hw) := by
  unfold State.applyStep
  repeat' first
    | with_reducible assumption
    | exact Allows.mono (by decide) hp
    | with_reducible apply State.fset_keeps
    | with_reducible apply State.newTime_keeps
    | with_reducible apply State.quietTrunks_keeps
    | with_reducible apply State.sendFollow_keeps
    | with_reducible apply State.setTb_keeps
    | with_reducible apply Keeps.ite

theorem State.tbStepHigh_keeps {ar : List Area} {s t : State} (h : Keeps ar s t) (hh : Nat) (data : Word)
    (hp : Allows ar [.regs, .stage, .tbs, .pps, .gens, .trunks] := by first | assumption | (refine Allows.mono ?_ (by assumption); decide)) :
    Keeps ar s (State.tbStepHigh hh data t) := by
  unfold State.tbStepHigh
  repeat' first
    | with_reducible assumption
    | exact Allows.mono (by decide) hp
    | with_reducible apply State.applyStep_keeps
    | with_reducible apply State.setFlag_keeps
    | with_reducible apply State.setStage_keeps
    | with_reducible apply State.tbIgnored_keeps
    | with_reducible apply Keeps.ite
    | refine Keeps.snd ?_ (by assumption)
    | refine Keeps.snd2 ?_ (by assumption)
    | (lift_lets; intro x; clear_value x)
    | with_reducible apply hx
    | split
    | dsimp only

theorem State.tbStepMeets_keeps {ar : List Area} {s t : State} (h : Keeps ar s t) (hh : Nat) (data : Word) (set : Bool) (rate : Bool) (snap : Bool)
    (hp : Allows ar [.regs, .stage, .tbs, .pps, .gens, .trunks] := by first | assumption | (refine Allows.mono ?_ (by assumption); decide)) :
    Keeps ar s (State.tbStepMeets hh data set rate snap t) := by
  unfold State.tbStepMeets
  repeat' first
    | with_reducible assumption
    | exact Allows.mono (by decide) hp
    | with_reducible apply State.setFlag_keeps
    | with_reducible apply State.setStage_keeps
    | with_reducible apply State.snapshot_keeps
    | with_reducible apply State.tbStepHigh_keeps
    | with_reducible apply State.wr_keeps
    | with_reducible apply Keeps.ite

theorem State.tbStepLow_keeps {ar : List Area} {s t : State} (h : Keeps ar s t) (hh : Nat) (data : Word)
    (hp : Allows ar [.regs, .stage] := by first | assumption | (refine Allows.mono ?_ (by assumption); decide)) :
    Keeps ar s (State.tbStepLow hh data t) := by
  unfold State.tbStepLow
  repeat' first
    | with_reducible assumption
    | exact Allows.mono (by decide) hp
    | with_reducible apply State.setStage_keeps
    | with_reducible apply State.tbIgnored_keeps
    | with_reducible apply Keeps.ite

theorem State.putRate_keeps {ar : List Area} {s t : State} (h : Keeps ar s t) (hh : Nat) (r : Int)
    (hp : Allows ar [.regs, .tbs] := by first | assumption | (refine Allows.mono ?_ (by assumption); decide)) :
    Keeps ar s (State.putRate t hh r) := by
  unfold State.putRate
  repeat' first
    | with_reducible assumption
    | exact Allows.mono (by decide) hp
    | with_reducible apply State.sendFollow_keeps
    | with_reducible apply State.setFlag_keeps
    | with_reducible apply State.wr_keeps
    | with_reducible apply Keeps.ite

theorem State.tbRateWrite_keeps {ar : List Area} {s t : State} (h : Keeps ar s t) (hh : Nat) (data : Word)
    (hp : Allows ar [.regs, .tbs] := by first | assumption | (refine Allows.mono ?_ (by assumption); decide)) :
    Keeps ar s (State.tbRateWrite hh data t) := by
  unfold State.tbRateWrite
  repeat' first
    | with_reducible assumption
    | exact Allows.mono (by decide) hp
    | with_reducible apply State.putRate_keeps
    | with_reducible apply State.setTb_keeps
    | with_reducible apply State.tbIgnored_keeps
    | with_reducible apply Keeps.ite

theorem State.applyFollow_keeps {ar : List Area} {s t : State} (h : Keeps ar s t) (hh : Nat)
    (hp : Allows ar [.regs, .tbs, .pps, .gens] := by first | assumption | (refine Allows.mono ?_ (by assumption); decide)) :
    Keeps ar s (State.applyFollow t hh) := by
  unfold State.applyFollow
  repeat' first
    | with_reducible assumption
    | exact Allows.mono (by decide) hp
    | with_reducible apply State.fsets_keeps
    | with_reducible apply State.newTime_keeps
    | with_reducible apply State.setTb_keeps
    | with_reducible apply State.wr_keeps
    | refine Keeps.snd ?_ (by assumption)
    | refine Keeps.snd2 ?_ (by assumption)
    | (lift_lets; intro x; refine (?_ : Keeps ar s x → _) ?_ <;> [(intro _; clear_value x); skip])
    | (lift_lets; intro x; clear_value x)
    | with_reducible apply hx
    | split

theorem State.snapCmd_keeps {ar : List Area} {s t : State} (h : Keeps ar s t) (hh : Nat) (data : Word)
    (hp : Allows ar [.regs] := by first | assumption | (refine Allows.mono ?_ (by assumption); decide)) :
    Keeps ar s (State.snapCmd hh data t) := by
  unfold State.snapCmd
  repeat' first
    | with_reducible assumption
    | exact Allows.mono (by decide) hp
    | with_reducible apply State.snapshot_keeps
    | with_reducible apply Keeps.ite

theorem State.snapRead_keeps {ar : List Area} {s t : State} (h : Keeps ar s t) (hh : Nat)
    (hp : Allows ar [.regs, .slv] := by first | assumption | (refine Allows.mono ?_ (by assumption); decide)) :
    Keeps ar s (State.snapRead hh t) := by
  unfold State.snapRead
  repeat' first
    | with_reducible assumption
    | exact Allows.mono (by decide) hp
    | with_reducible apply State.answer_keeps
    | with_reducible apply State.snapshot_keeps

theorem State.genCfgErr_keeps {ar : List Area} {s t : State} (h : Keeps ar s t) (n : Nat)
    (hp : Allows ar [.regs] := by first | assumption | (refine Allows.mono ?_ (by assumption); decide)) :
    Keeps ar s (State.genCfgErr t n) := by
  unfold State.genCfgErr
  repeat' first
    | with_reducible assumption
    | exact Allows.mono (by decide) hp
    | with_reducible apply State.setFlag_keeps

theorem State.genEnable_keeps {ar : List Area} {s t : State} (h : Keeps ar s t) (n : Nat) (data : Word)
    (hp : Allows ar [.regs, .stage, .slv, .out, .gens, .trigs] := by first | assumption | (refine Allows.mono ?_ (by assumption); decide)) :
    Keeps ar s (State.genEnable n data t) := by
  unfold State.genEnable
  repeat' first
    | with_reducible assumption
    | exact Allows.mono (by decide) hp
    | with_reducible intro _
    | with_reducible apply State.checkTrig_keeps
    | with_reducible apply State.fset_keeps
    | with_reducible apply State.genCfgErr_keeps
    | with_reducible apply State.setGen_keeps
    | with_reducible apply State.syncTrig_keeps
    | with_reducible apply State.wr_keeps
    | with_reducible apply State.writeFields_keeps
    | with_reducible apply Keeps.forEach
    | with_reducible apply Keeps.ite

theorem State.genDisable_keeps {ar : List Area} {s t : State} (h : Keeps ar s t) (n : Nat) (data : Word)
    (hp : Allows ar [.regs, .stage, .slv, .gens] := by first | assumption | (refine Allows.mono ?_ (by assumption); decide)) :
    Keeps ar s (State.genDisable n data t) := by
  unfold State.genDisable
  repeat' first
    | with_reducible assumption
    | exact Allows.mono (by decide) hp
    | with_reducible apply State.fset_keeps
    | with_reducible apply State.setGen_keeps
    | with_reducible apply State.writeFields_keeps

theorem State.genCfgWrite_keeps {ar : List Area} {s t : State} (h : Keeps ar s t) (n : Nat) (data : Word)
    (hp : Allows ar [.regs, .stage, .slv, .out, .gens, .trigs] := by first | assumption | (refine Allows.mono ?_ (by assumption); decide)) :
    Keeps ar s (State.genCfgWrite n data t) := by
  unfold State.genCfgWrite
  repeat' first
    | with_reducible assumption
    | exact Allows.mono (by decide) hp
    | with_reducible apply State.genCfgErr_keeps
    | with_reducible apply State.genDisable_keeps
    | with_reducible apply State.genEnable_keeps
    | with_reducible apply State.writeFields_keeps
    | with_reducible apply Keeps.ite

theorem State.genSetupWrite_keeps {ar : List Area} {s t : State} (h : Keeps ar s t) (n : Nat) (key : Nat) (data : Word)
    (hp : Allows ar [.regs, .stage, .slv] := by first | assumption | (refine Allows.mono ?_ (by assumption); decide)) :
    Keeps ar s (State.genSetupWrite n key data t) := by
  unfold State.genSetupWrite
  repeat' first
    | with_reducible assumption
    | exact Allows.mono (by decide) hp
    | with_reducible apply State.genCfgErr_keeps
    | with_reducible apply State.writeFields_keeps
    | with_reducible apply Keeps.ite

theorem State.genBoundary_keeps {ar : List Area} {s t : State} (h : Keeps ar s t) (n : Nat)
    (hp : Allows ar [.regs, .out, .gens, .trigs] := by first | assumption | (refine Allows.mono ?_ (by assumption); decide)) :
    Keeps ar s (State.genBoundary t n) := by
  unfold State.genBoundary
  repeat' first
    | with_reducible assumption
    | exact Allows.mono (by decide) hp
    | with_reducible intro _
    | with_reducible apply State.cycleEvents_keeps
    | with_reducible apply State.raise_keeps
    | with_reducible apply State.setGen_keeps
    | with_reducible apply State.trigBoundary_keeps
    | with_reducible apply Keeps.forEach

theorem State.syncLost_keeps {ar : List Area} {s t : State} (h : Keeps ar s t) (n : Nat)
    (hp : Allows ar [.regs] := by first | assumption | (refine Allows.mono ?_ (by assumption); decide)) :
    Keeps ar s (State.syncLost t n) := by
  unfold State.syncLost
  repeat' first
    | with_reducible assumption
    | exact Allows.mono (by decide) hp
    | with_reducible apply State.setFlag_keeps

theorem State.syncEdge_keeps {ar : List Area} {s t : State} (h : Keeps ar s t) (n : Nat)
    (hp : Allows ar [.regs, .gens] := by first | assumption | (refine Allows.mono ?_ (by assumption); decide)) :
    Keeps ar s (State.syncEdge t n) := by
  unfold State.syncEdge
  repeat' first
    | with_reducible assumption
    | exact Allows.mono (by decide) hp
    | with_reducible apply State.setGen_keeps
    | with_reducible apply State.syncLost_keeps
    | with_reducible apply State.wr_keeps
    | with_reducible apply Keeps.ite

theorem State.genStatWrite_keeps {ar : List Area} {s t : State} (h : Keeps ar s t) (n : Nat) (key : Nat) (data : Word)
    (hp : Allows ar [.regs, .stage, .slv, .gens] := by first | assumption | (refine Allows.mono ?_ (by assumption); decide)) :
    Keeps ar s (State.genStatWrite n key data t) := by
  unfold State.genStatWrite
  repeat' first
    | with_reducible assumption
    | exact Allows.mono (by decide) hp
    | with_reducible apply State.setGen_keeps
    | with_reducible apply State.writeFields_keeps
    | with_reducible apply Keeps.ite

theorem State.trigWrite_keeps {ar : List Area} {s t : State} (h : Keeps ar s t) (n : Nat) (key : Nat) (data : Word)
    (hp : Allows ar [.regs, .stage, .slv, .out, .trigs, .dic] := by first | assumption | (refine Allows.mono ?_ (by assumption); decide)) :
    Keeps ar s (State.trigWrite n key data t) := by
  unfold State.trigWrite
  repeat' first
    | with_reducible assumption
    | exact Allows.mono (by decide) hp
    | with_reducible apply State.checkTrig_keeps
    | with_reducible apply State.dicSync_keeps
    | with_reducible apply State.syncTrig_keeps
    | with_reducible apply State.writeFields_keeps

theorem State.capRead_keeps {ar : List Area} {s t : State} (h : Keeps ar s t) (n : Nat)
    (hp : Allows ar [.hold, .slv] := by first | assumption | (refine Allows.mono ?_ (by assumption); decide)) :
    Keeps ar s (State.capRead n t) := by
  unfold State.capRead
  repeat' first
    | with_reducible assumption
    | exact Allows.mono (by decide) hp
    | with_reducible apply State.answer_keeps
    | with_reducible apply State.latchNext_keeps

theorem State.tbWaiting_keeps {ar : List Area} {s t : State} (h : Keeps ar s t) (hh : Nat)
    (hp : Allows ar [.regs, .stage, .slv, .out, .tbs, .pps, .gens, .trigs, .dic, .trunks] := by first | assumption | (refine Allows.mono ?_ (by assumption); decide)) :
    Keeps ar s (State.tbWaiting t hh) := by
  unfold State.tbWaiting
  repeat' first
    | with_reducible assumption
    | exact Allows.mono (by decide) hp
    | with_reducible intro _
    | with_reducible apply State.dicSync_keeps
    | with_reducible apply State.genCfgWrite_keeps
    | with_reducible apply State.genSetupWrite_keeps
    | with_reducible apply State.genStatWrite_keeps
    | with_reducible apply State.snapCmd_keeps
    | with_reducible apply State.tbRateWrite_keeps
    | with_reducible apply State.tbSetHigh_keeps
    | with_reducible apply State.tbSetLow_keeps
    | with_reducible apply State.tbStepHigh_keeps
    | with_reducible apply State.tbStepLow_keeps
    | with_reducible apply State.trigWrite_keeps
    | with_reducible apply State.writeFields_keeps
    | with_reducible apply Keeps.forEach
    | with_reducible apply Keeps.ite

/-! ### Machine/Trunk.lean -/

theorem State.trkCnt_keeps {ar : List Area} {s t : State} (h : Keeps ar s t) (u0 : Nat) (k : Nat)
    (hp : Allows ar [.regs] := by first | assumption | (refine Allows.mono ?_ (by assumption); decide)) :
    Keeps ar s (State.trkCnt t u0 k) := by
  unfold State.trkCnt
  repeat' first
    | with_reducible assumption
    | exact Allows.mono (by decide) hp
    | with_reducible apply State.cnt_keeps

theorem State.setEff_keeps {ar : List Area} {s t : State} (h : Keeps ar s t) (u0 : Nat) (p : Nat × Nat)
    (hp : Allows ar [.regs, .cls] := by first | assumption | (refine Allows.mono ?_ (by assumption); decide)) :
    Keeps ar s (State.setEff t u0 p) := by
  unfold State.setEff
  repeat' first
    | with_reducible assumption
    | exact Allows.mono (by decide) hp
    | with_reducible apply State.flushRing_keeps
    | with_reducible apply State.fsets_keeps
    | with_reducible apply Keeps.ite

theorem State.leaveSync_keeps {ar : List Area} {s t : State} (h : Keeps ar s t) (u0 : Nat)
    (hp : Allows ar [.regs, .out, .free, .trigs, .flt, .trunks, .node, .gload, .cls, .funcs] := by first | assumption | (refine Allows.mono ?_ (by assumption); decide)) :
    Keeps ar s (State.leaveSync t u0) := by
  unfold State.leaveSync
  repeat' first
    | with_reducible assumption
    | exact Allows.mono (by decide) hp
    | with_reducible intro _
    | with_reducible apply State.cntAdd_keeps
    | with_reducible apply State.fixDegraded_keeps
    | with_reducible apply State.fsets_keeps
    | with_reducible apply State.setEff_keeps
    | with_reducible apply State.setTrunk_keeps
    | with_reducible apply State.sfUpdate_keeps
    | with_reducible apply State.sourceUpdate_keeps

theorem State.delinLoss_keeps {ar : List Area} {s t : State} (h : Keeps ar s t) (u0 : Nat)
    (hp : Allows ar [.regs, .out, .free, .trigs, .flt, .trunks, .node, .gload, .cls, .funcs] := by first | assumption | (refine Allows.mono ?_ (by assumption); decide)) :
    Keeps ar s (State.delinLoss t u0) := by
  unfold State.delinLoss
  repeat' first
    | with_reducible assumption
    | exact Allows.mono (by decide) hp
    | with_reducible apply State.leaveSync_keeps
    | with_reducible apply State.setFlag_keeps
    | with_reducible apply State.trkCnt_keeps

theorem State.enterSync_keeps {ar : List Area} {s t : State} (h : Keeps ar s t) (u0 : Nat) (ofs : Nat) (hist : Nat)
    (hp : Allows ar [.regs, .out, .free, .trigs, .flt, .trunks, .node, .gload, .cls, .funcs] := by first | assumption | (refine Allows.mono ?_ (by assumption); decide)) :
    Keeps ar s (State.enterSync t u0 ofs hist) := by
  unfold State.enterSync
  repeat' first
    | with_reducible assumption
    | exact Allows.mono (by decide) hp
    | with_reducible intro _
    | with_reducible apply State.fixDegraded_keeps
    | with_reducible apply State.fsets_keeps
    | with_reducible apply State.setFlag_keeps
    | with_reducible apply State.setTrunk_keeps
    | with_reducible apply State.sfUpdate_keeps
    | with_reducible apply State.trkCnt_keeps

theorem State.trunkStart_keeps {ar : List Area} {s t : State} (h : Keeps ar s t) (u0 : Nat)
    (hp : Allows ar [.regs, .out, .trunks, .node, .cls] := by first | assumption | (refine Allows.mono ?_ (by assumption); decide)) :
    Keeps ar s (State.trunkStart t u0) := by
  unfold State.trunkStart
  repeat' first
    | with_reducible assumption
    | exact Allows.mono (by decide) hp
    | with_reducible apply State.csEnable_keeps
    | with_reducible apply State.emit_keeps
    | with_reducible apply State.gearOkCheck_keeps
    | with_reducible apply State.setTrunk_keeps
    | with_reducible apply State.sfUpdate_keeps
    | with_reducible apply Keeps.ite

theorem State.trunkStop_keeps {ar : List Area} {s t : State} (h : Keeps ar s t) (u0 : Nat)
    (hp : Allows ar [.regs, .out, .free, .trigs, .flt, .trunks, .node, .gload, .cls, .funcs] := by first | assumption | (refine Allows.mono ?_ (by assumption); decide)) :
    Keeps ar s (State.trunkStop t u0) := by
  unfold State.trunkStop
  repeat' first
    | with_reducible assumption
    | exact Allows.mono (by decide) hp
    | with_reducible intro _
    | with_reducible apply State.emit_keeps
    | with_reducible apply State.fixDegraded_keeps
    | with_reducible apply State.gearOkCheck_keeps
    | with_reducible apply State.leaveSync_keeps
    | with_reducible apply State.setTrunk_keeps
    | with_reducible apply State.sfUpdate_keeps
    | with_reducible apply Keeps.ite

theorem State.trkCfgWrite_keeps {ar : List Area} {s t : State} (h : Keeps ar s t) (u0 : Nat) (data : Word)
    (hp : Allows ar [.regs, .stage, .slv, .out, .free, .trigs, .flt, .trunks, .node, .gload, .cls, .funcs] := by first | assumption | (refine Allows.mono ?_ (by assumption); decide)) :
    Keeps ar s (State.trkCfgWrite u0 data t) := by
  unfold State.trkCfgWrite
  repeat' first
    | with_reducible assumption
    | exact Allows.mono (by decide) hp
    | with_reducible apply State.deny_keeps
    | with_reducible apply State.emit_keeps
    | with_reducible apply State.setFlag_keeps
    | with_reducible apply State.trunkStart_keeps
    | with_reducible apply State.trunkStop_keeps
    | with_reducible apply State.writeFields_keeps
    | with_reducible apply Keeps.ite

theorem State.deliverChan_keeps {ar : List Area} {s t : State} (h : Keeps ar s t) (u0 : Nat) (c : Nat) (bs : List Byte) (pri : Nat) (stamp : Int) (cut : Bool)
    (hp : Allows ar [.regs, .frames, .nextFrame, .ports, .pipes, .mem] := by first | assumption | (refine Allows.mono ?_ (by assumption); decide)) :
    Keeps ar s (State.deliverChan t u0 c bs pri stamp cut) := by
  unfold State.deliverChan
  repeat' first
    | with_reducible assumption
    | exact Allows.mono (by decide) hp
    | with_reducible apply State.addWhole_keeps
    | with_reducible apply State.cntAdd_keeps
    | with_reducible apply Ins.done_keeps
    | with_reducible apply State.trkCnt_keeps
    | with_reducible apply Keeps.ite

theorem State.putChan_keeps {ar : List Area} {s t : State} (h : Keeps ar s t) (u0 : Nat) (c : Nat) (v : Chan)
    (hp : Allows ar [.regs, .trunks] := by first | assumption | (refine Allows.mono ?_ (by assumption); decide)) :
    Keeps ar s (State.putChan t u0 c v) := by
  unfold State.putChan
  repeat' first
    | with_reducible assumption
    | exact Allows.mono (by decide) hp
    | with_reducible apply Ins.put_keeps
    | with_reducible apply State.setTrunk_keeps

theorem State.chanGrow_keeps {ar : List Area} {s t : State} (h : Keeps ar s t) (u0 : Nat) (c : Nat) (v : Chan) (bs : List Byte)
    (hp : Allows ar [.regs, .trunks] := by first | assumption | (refine Allows.mono ?_ (by assumption); decide)) :
    Keeps ar s (State.chanGrow t u0 c v bs) := by
  unfold State.chanGrow
  repeat' first
    | with_reducible assumption
    | exact Allows.mono (by decide) hp
    | with_reducible apply State.putChan_keeps
    | with_reducible apply State.trkCnt_keeps
    | with_reducible apply Keeps.ite

theorem State.chanEnd_keeps {ar : List Area} {s t : State} (h : Keeps ar s t) (u0 : Nat) (c : Nat) (v : Chan) (bs : List Byte) (cut : Bool)
    (hp : Allows ar [.regs, .frames, .nextFrame, .ports, .trunks, .pipes, .mem] := by first | assumption | (refine Allows.mono ?_ (by assumption); decide)) :
    Keeps ar s (State.chanEnd t u0 c v bs cut) := by
  unfold State.chanEnd
  repeat' first
    | with_reducible assumption
    | exact Allows.mono (by decide) hp
    | with_reducible apply State.deliverChan_keeps
    | with_reducible apply State.putChan_keeps
    | with_reducible apply State.trkCnt_keeps
    | with_reducible apply Keeps.ite

theorem State.chanBegin_keeps {ar : List Area} {s t : State} (h : Keeps ar s t) (u0 : Nat) (c : Nat) (v : Chan) (single : Bool) (data : List Byte) (pri : Nat) (stamp : Int)
    (hp : Allows ar [.regs, .frames, .nextFrame, .ports, .trunks, .pipes, .mem] := by first | assumption | (refine Allows.mono ?_ (by assumption); decide)) :
    Keeps ar s (State.chanBegin t u0 c v single data pri stamp) := by
  unfold State.chanBegin
  repeat' first
    | with_reducible assumption
    | exact Allows.mono (by decide) hp
    | with_reducible apply State.chanEnd_keeps
    | with_reducible apply State.chanGrow_keeps
    | with_reducible apply Keeps.ite

theorem State.frameCell_keeps {ar : List Area} {s t : State} (h : Keeps ar s t) (u0 : Nat) (c : Nat) (ctype : Nat) (seq : Nat) (pri : Nat) (data : List Byte) (stamp : Int)
    (hp : Allows ar [.regs, .frames, .nextFrame, .ports, .trunks, .pipes, .mem] := by first | assumption | (refine Allows.mono ?_ (by assumption); decide)) :
    Keeps ar s (State.frameCell t u0 c ctype seq pri data stamp) := by
  unfold State.frameCell
  repeat' first
    | with_reducible assumption
    | exact Allows.mono (by decide) hp
    | with_reducible apply State.chanBegin_keeps
    | with_reducible apply State.chanEnd_keeps
    | with_reducible apply State.chanGrow_keeps
    | with_reducible apply State.putChan_keeps
    | with_reducible apply State.trkCnt_keeps
    | with_reducible apply Keeps.ite

theorem State.sfTimeout_keeps {ar : List Area} {s t : State} (h : Keeps ar s t) (u0 : Nat)
    (hp : Allows ar [.regs, .trunks] := by first | assumption | (refine Allows.mono ?_ (by assumption); decide)) :
    Keeps ar s (State.sfTimeout t u0) := by
  unfold State.sfTimeout
  repeat' first
    | with_reducible assumption
    | exact Allows.mono (by decide) hp
    | with_reducible apply State.setTrunk_keeps
    | with_reducible apply State.trkCnt_keeps
    | with_reducible apply Keeps.ite
    | refine Keeps.snd ?_ (by assumption)
    | refine Keeps.snd2 ?_ (by assumption)
    | split

theorem State.numberOverhead_keeps {ar : List Area} {s t : State} (h : Keeps ar s t) (u0 : Nat)
    (hp : Allows ar [.regs, .trunks] := by first | assumption | (refine Allows.mono ?_ (by assumption); decide)) :
    Keeps ar s (State.numberOverhead t u0) := by
  unfold State.numberOverhead
  repeat' first
    | with_reducible assumption
    | exact Allows.mono (by decide) hp
    | with_reducible apply State.fset_keeps
    | with_reducible apply State.fsets_keeps
    | with_reducible apply State.setTrunk_keeps
    | with_reducible apply State.trkCnt_keeps
    | with_reducible apply Keeps.ite
    | refine Keeps.snd ?_ (by assumption)
    | refine Keeps.snd2 ?_ (by assumption)
    | with_reducible apply hx
    | split

theorem State.takeCell_keeps {ar : List Area} {s t : State} (h : Keeps ar s t) (u0 : Nat) (info : Nat) (payload : List Byte) (stamp : Int)
    (hp : Allows ar [.regs, .frames, .nextFrame, .ports, .trunks, .pipes, .mem] := by first | assumption | (refine Allows.mono ?_ (by assumption); decide)) :
    Keeps ar s (State.takeCell t u0 info payload stamp) := by
  unfold State.takeCell
  repeat' first
    | with_reducible assumption
    | exact Allows.mono (by decide) hp
    | with_reducible apply State.frameCell_keeps
    | with_reducible apply State.fsat_keeps
    | with_reducible apply State.numberOverhead_keeps
    | with_reducible apply State.setTrunk_keeps
    | with_reducible apply State.sfTimeout_keeps
    | with_reducible apply State.trkCnt_keeps
    | with_reducible apply Keeps.ite
    | refine Keeps.snd ?_ (by assumption)
    | refine Keeps.snd2 ?_ (by assumption)
    | (lift_lets; intro x; clear_value x)
    | with_reducible apply hx
    | split
    | dsimp only

theorem State.cellTime_keeps {ar : List Area} {s t : State} (h : Keeps ar s t) (u0 : Nat)
    (hp : Allows ar [.trunks] := by first | assumption | (refine Allows.mono ?_ (by assumption); decide)) :
    Keeps ar s (State.cellTime t u0) := by
  unfold State.cellTime
  repeat' first
    | with_reducible assumption
    | exact Allows.mono (by decide) hp
    | with_reducible apply State.setTrunk_keeps

theorem State.sdCount_keeps {ar : List Area} {s t : State} (h : Keeps ar s t) (u0 : Nat)
    (hp : Allows ar [.regs, .out, .free, .trigs, .flt, .trunks, .node, .gload, .cls, .funcs] := by first | assumption | (refine Allows.mono ?_ (by assumption); decide)) :
    Keeps ar s (State.sdCount t u0) := by
  unfold State.sdCount
  repeat' first
    | with_reducible assumption
    | exact Allows.mono (by decide) hp
    | with_reducible apply State.fixDegraded_keeps
    | with_reducible apply State.fset_keeps
    | with_reducible apply State.protUpdate_keeps
    | with_reducible apply State.setTrunk_keeps
    | with_reducible apply Keeps.ite

theorem State.syncCell_keeps {ar : List Area} {s t : State} (h : Keeps ar s t) (u0 : Nat) (bs : List Byte) (ph : Nat)
    (hp : Allows ar [.regs, .out, .free, .trigs, .frames, .nextFrame, .ports, .flt, .trunks, .node, .pipes, .gload, .cls, .funcs, .mem] := by first | assumption | (refine Allows.mono ?_ (by assumption); decide)) :
    Keeps ar s (State.syncCell t u0 bs ph) := by
  unfold State.syncCell
  repeat' first
    | with_reducible assumption
    | exact Allows.mono (by decide) hp
    | with_reducible apply State.cellTime_keeps
    | with_reducible apply State.delinLoss_keeps
    | with_reducible apply State.fset_keeps
    | with_reducible apply State.sdCount_keeps
    | with_reducible apply State.setTrunk_keeps
    | with_reducible apply State.takeCell_keeps
    | with_reducible apply State.trkCnt_keeps
    | with_reducible apply Keeps.ite
    | refine Keeps.snd ?_ (by assumption)
    | refine Keeps.snd2 ?_ (by assumption)
    | (lift_lets; intro x; clear_value x)
    | with_reducible apply hx
    | split
    | dsimp only

theorem State.huntCell_keeps {ar : List Area} {s t : State} (h : Keeps ar s t) (u0 : Nat) (ofs : Nat) (bs : List Byte) (ph : Nat)
    (hp : Allows ar [.regs, .out, .free, .trigs, .frames, .nextFrame, .ports, .flt, .trunks, .node, .pipes, .gload, .cls, .funcs, .mem] := by first | assumption | (refine Allows.mono ?_ (by assumption); decide)) :
    Keeps ar s (State.huntCell t u0 ofs bs ph) := by
  unfold State.huntCell
  repeat' first
    | with_reducible assumption
    | exact Allows.mono (by decide) hp
    | with_reducible intro _
    | with_reducible apply State.enterSync_keeps
    | with_reducible apply State.fset_keeps
    | with_reducible apply State.setTrunk_keeps
    | with_reducible apply State.takeCell_keeps
    | with_reducible apply State.trkCnt_keeps
    | with_reducible apply Keeps.ite
    | refine Keeps.snd ?_ (by assumption)
    | refine Keeps.snd2 ?_ (by assumption)
    | (lift_lets; intro x; clear_value x)
    | with_reducible apply hx
    | split

theorem State.breakTx_keeps {ar : List Area} {s t : State} (h : Keeps ar s t) (p : Nat)
    (hp : Allows ar [.regs, .frames, .ports, .emem, .qps, .mem] := by first | assumption | (refine Allows.mono ?_ (by assumption); decide)) :
    Keeps ar s (State.breakTx t p) := by
  unfold State.breakTx
  repeat' first
    | with_reducible assumption
    | exact Allows.mono (by decide) hp
    | with_reducible apply State.copyGone_keeps
    | with_reducible apply State.fset_keeps
    | with_reducible apply State.setPort_keeps
    | with_reducible apply Keeps.ite
    | refine Keeps.snd ?_ (by assumption)
    | refine Keeps.snd2 ?_ (by assumption)
    | (lift_lets; intro x; clear_value x)
    | with_reducible apply hx
    | split

theorem State.sendCell_keeps {ar : List Area} {s t : State} (h : Keeps ar s t) (u0 : Nat) (info : Nat) (payload : List Byte)
    (hp : Allows ar [.regs, .out, .trunks] := by first | assumption | (refine Allows.mono ?_ (by assumption); decide)) :
    Keeps ar s (State.sendCell t u0 info payload) := by
  unfold State.sendCell
  repeat' first
    | with_reducible assumption
    | exact Allows.mono (by decide) hp
    | with_reducible apply State.emit_keeps
    | with_reducible apply State.setTrunk_keeps
    | with_reducible apply State.trkCnt_keeps

theorem State.sendIdle_keeps {ar : List Area} {s t : State} (h : Keeps ar s t) (u0 : Nat) (urgent : Bool)
    (hp : Allows ar [.regs, .out, .trunks] := by first | assumption | (refine Allows.mono ?_ (by assumption); decide)) :
    Keeps ar s (State.sendIdle t u0 urgent) := by
  unfold State.sendIdle
  repeat' first
    | with_reducible assumption
    | exact Allows.mono (by decide) hp
    | with_reducible apply State.sendCell_keeps
    | with_reducible apply State.setTrunk_keeps
    | with_reducible apply State.trkCnt_keeps
    | with_reducible apply Keeps.ite
    | refine Keeps.snd ?_ (by assumption)
    | refine Keeps.snd2 ?_ (by assumption)
    | (lift_lets; intro x; clear_value x)
    | with_reducible apply hx
    | split

theorem State.chanFrame_keeps {ar : List Area} {s t : State} (h : Keeps ar s t) (u0 : Nat) (c : Nat)
    (hp : Allows ar [.regs, .ports, .emem] := by first | assumption | (refine Allows.mono ?_ (by assumption); decide)) :
    Keeps ar s (State.chanFrame t u0 c).2 := by
  unfold State.chanFrame
  repeat' first
    | with_reducible assumption
    | exact Allows.mono (by decide) hp
    | with_reducible apply State.setPort_keeps
    | with_reducible apply State.trunkBytes_keeps
    | with_reducible apply Keeps.ite
    | refine Keeps.snd ?_ (by assumption)
    | refine Keeps.snd2 ?_ (by assumption)
    | (lift_lets; intro x; clear_value x)
    | with_reducible apply hx
    | split

theorem State.sendFrameCell_keeps {ar : List Area} {s t : State} (h : Keeps ar s t) (u0 : Nat) (c : Nat) (f : TxFrame)
    (hp : Allows ar [.regs, .out, .frames, .ports, .trunks, .emem, .qps, .mem] := by first | assumption | (refine Allows.mono ?_ (by assumption); decide)) :
    Keeps ar s (State.sendFrameCell t u0 c f) := by
  unfold State.sendFrameCell
  repeat' first
    | with_reducible assumption
    | exact Allows.mono (by decide) hp
    | with_reducible apply State.cntAdd_keeps
    | with_reducible apply State.copyLeft_keeps
    | with_reducible apply Ins.put_keeps
    | with_reducible apply State.sendCell_keeps
    | with_reducible apply State.setTrunk_keeps
    | with_reducible apply State.trkCnt_keeps
    | with_reducible apply Keeps.ite

theorem State.sendOverhead_keeps {ar : List Area} {s t : State} (h : Keeps ar s t) (u0 : Nat) (sfn : Nat) (ph : Nat)
    (hp : Allows ar [.regs, .out, .trunks] := by first | assumption | (refine Allows.mono ?_ (by assumption); decide)) :
    Keeps ar s (State.sendOverhead t u0 sfn ph) := by
  unfold State.sendOverhead
  repeat' first
    | with_reducible assumption
    | exact Allows.mono (by decide) hp
    | with_reducible apply State.sendCell_keeps
    | with_reducible apply State.setTrunk_keeps
    | with_reducible apply State.trkCnt_keeps

theorem State.sendSlot_keeps {ar : List Area} {s t : State} (h : Keeps ar s t) (u0 : Nat) (k : Nat)
    (hp : Allows ar [.regs, .out, .frames, .ports, .trunks, .emem, .qps, .mem] := by first | assumption | (refine Allows.mono ?_ (by assumption); decide)) :
    Keeps ar s (State.sendSlot t u0 k) := by
  unfold State.sendSlot
  repeat' first
    | with_reducible assumption
    | exact Allows.mono (by decide) hp
    | with_reducible apply State.chanFrame_keeps
    | with_reducible apply State.sendFrameCell_keeps
    | with_reducible apply State.sendIdle_keeps
    | with_reducible apply State.setTrunk_keeps
    | with_reducible apply Keeps.ite
    | refine Keeps.snd ?_ (by assumption)
    | refine Keeps.snd2 ?_ (by assumption)
    | (lift_lets; intro x; clear_value x)
    | with_reducible apply hx
    | split

/-! ### Machine/DomOps.lean -/

theorem State.clearKeys_keeps {ar : List Area} {s t : State} (h : Keeps ar s t) (p : Nat → Bool)
    (hp : Allows ar [.regs, .stage, .hold] := by first | assumption | (refine Allows.mono ?_ (by assumption); decide)) :
    Keeps ar s (State.clearKeys t p) := by
  unfold State.clearKeys
  repeat' first
    | with_reducible assumption
    | exact Allows.mono (by decide) hp
    | with_reducible apply State.setHold_keeps
    | with_reducible apply State.setRegs_keeps
    | with_reducible apply State.setStage_keeps
    | with_reducible apply State.setRegs_clear_keeps

theorem State.gaspDrop_keeps {ar : List Area} {s t : State} (h : Keeps ar s t) (p : Nat)
    (hp : Allows ar [.regs, .gasp, .trunks, .node, .cls] := by first | assumption | (refine Allows.mono ?_ (by assumption); decide)) :
    Keeps ar s (State.gaspDrop t p) := by
  unfold State.gaspDrop
  repeat' first
    | with_reducible assumption
    | exact Allows.mono (by decide) hp
    | with_reducible apply State.gaspCheck_keeps
    | with_reducible apply State.setGasp_keeps
    | refine Keeps.snd ?_ (by assumption)
    | refine Keeps.snd2 ?_ (by assumption)
    | split

theorem State.dropPort_keeps {ar : List Area} {s t : State} (h : Keeps ar s t) (p : Nat)
    (hp : Allows ar [.regs, .frames, .ports, .gasp, .trunks, .node, .pipes, .cls, .threads, .emem, .qps, .mem] := by first | assumption | (refine Allows.mono ?_ (by assumption); decide)) :
    Keeps ar s (State.dropPort t p) := by
  unfold State.dropPort
  repeat' first
    | with_reducible assumption
    | exact Allows.mono (by decide) hp
    | with_reducible intro _
    | with_reducible apply State.copyGone_keeps
    | with_reducible apply State.discard_keeps
    | with_reducible apply Ins.done_keeps
    | with_reducible apply State.gaspDrop_keeps
    | with_reducible apply State.setFrame_keeps
    | with_reducible apply State.setPort_keeps
    | with_reducible apply State.setTrunk_keeps
    | with_reducible apply State.tidy_keeps
    | with_reducible apply Keeps.forEach
    | with_reducible apply Keeps.ite
    | refine Keeps.snd ?_ (by assumption)
    | refine Keeps.snd2 ?_ (by assumption)
    | with_reducible apply hx
    | split

theorem State.speedReset_keeps {ar : List Area} {s t : State} (h : Keeps ar s t) (p : Nat)
    (hp : Allows ar [.out] := by first | assumption | (refine Allows.mono ?_ (by assumption); decide)) :
    Keeps ar s (State.speedReset t p) := by
  unfold State.speedReset
  repeat' first
    | with_reducible assumption
    | exact Allows.mono (by decide) hp
    | with_reducible apply State.emit_keeps
    | with_reducible apply Keeps.ite

theorem State.laneReset_keeps {ar : List Area} {s t : State} (h : Keeps ar s t) (u0 : Nat)
    (hp : Allows ar [.out] := by first | assumption | (refine Allows.mono ?_ (by assumption); decide)) :
    Keeps ar s (State.laneReset t u0) := by
  unfold State.laneReset
  repeat' first
    | with_reducible assumption
    | exact Allows.mono (by decide) hp
    | with_reducible apply State.emit_keeps
    | with_reducible apply Keeps.ite

theorem State.clearTrunk_keeps {ar : List Area} {s t : State} (h : Keeps ar s t) (u0 : Nat)
    (hp : Allows ar [.regs, .frames, .ports, .gasp, .trunks, .slots, .node, .pipes, .cls, .threads, .emem, .qps, .mem] := by first | assumption | (refine Allows.mono ?_ (by assumption); decide)) :
    Keeps ar s (State.clearTrunk t u0) := by
  unfold State.clearTrunk
  repeat' first
    | with_reducible assumption
    | exact Allows.mono (by decide) hp
    | with_reducible intro _
    | with_reducible apply State.dropPort_keeps
    | with_reducible apply State.fset_keeps
    | with_reducible apply State.setNode_keeps
    | with_reducible apply State.setSlots_keeps
    | with_reducible apply State.setTrunk_keeps
    | with_reducible apply Keeps.ite

theorem State.emptyThreads_keeps {ar : List Area} {s t : State} (h : Keeps ar s t) (e : Nat)
    (hp : Allows ar [.regs, .frames, .ports, .threads, .mem] := by first | assumption | (refine Allows.mono ?_ (by assumption); decide)) :
    Keeps ar s (State.emptyThreads t e) := by
  unfold State.emptyThreads
  repeat' first
    | with_reducible assumption
    | exact Allows.mono (by decide) hp
    | with_reducible intro _
    | with_reducible apply State.fsets_keeps
    | with_reducible apply State.setThr_keeps
    | with_reducible apply State.tidy_keeps
    | with_reducible apply Keeps.forEach

theorem State.clearThreads_keeps {ar : List Area} {s t : State} (h : Keeps ar s t) (e : Nat)
    (hp : Allows ar [.regs, .frames, .ports, .threads, .wheel, .splices, .mem] := by first | assumption | (refine Allows.mono ?_ (by assumption); decide)) :
    Keeps ar s (State.clearThreads t e) := by
  unfold State.clearThreads
  repeat' first
    | with_reducible assumption
    | exact Allows.mono (by decide) hp
    | with_reducible intro _
    | with_reducible apply State.emptyThreads_keeps
    | with_reducible apply State.setSplices_keeps
    | with_reducible apply State.setThreads_keeps
    | with_reducible apply State.setWheel_keeps

theorem State.clearCtu_keeps {ar : List Area} {s t : State} (h : Keeps ar s t) (hh : Nat) (level : Bool → Bool)
    (hp : Allows ar [.out, .gens, .trigs] := by first | assumption | (refine Allows.mono ?_ (by assumption); decide)) :
    Keeps ar s (State.clearCtu t hh level) := by
  unfold State.clearCtu
  repeat' first
    | with_reducible assumption
    | exact Allows.mono (by decide) hp
    | with_reducible intro _
    | with_reducible apply State.driveTrig_keeps
    | with_reducible apply State.setGens_keeps
    | with_reducible apply Keeps.forEach

theorem State.ppsReset_keeps {ar : List Area} {s t : State} (h : Keeps ar s t) (hh : Nat)
    (hp : Allows ar [.out, .pps] := by first | assumption | (refine Allows.mono ?_ (by assumption); decide)) :
    Keeps ar s (State.ppsReset t hh) := by
  unfold State.ppsReset
  repeat' first
    | with_reducible assumption
    | exact Allows.mono (by decide) hp
    | with_reducible apply State.emit_keeps
    | with_reducible apply State.setPps_keeps
    | with_reducible apply Keeps.ite

theorem State.emptyPipe_keeps {ar : List Area} {s t : State} (h : Keeps ar s t) (hh : Nat)
    (hp : Allows ar [.regs, .frames, .ports, .pipes, .mem] := by first | assumption | (refine Allows.mono ?_ (by assumption); decide)) :
    Keeps ar s (State.emptyPipe t hh) := by
  unfold State.emptyPipe
  repeat' first
    | with_reducible assumption
    | exact Allows.mono (by decide) hp
    | with_reducible apply State.setPipe_keeps
    | with_reducible apply State.tidy_keeps

theorem State.loseFrames_keeps {ar : List Area} {s t : State} (h : Keeps ar s t) (bad : Nat → Bool)
    (hp : Allows ar [.regs, .frames, .ports, .pipes, .threads, .emem, .qps, .mem] := by first | assumption | (refine Allows.mono ?_ (by assumption); decide)) :
    Keeps ar s (State.loseFrames t bad) := by
  unfold State.loseFrames
  repeat' first
    | with_reducible assumption
    | exact Allows.mono (by decide) hp
    | with_reducible intro _
    | with_reducible apply State.cntAdd_keeps
    | with_reducible apply State.discard_keeps
    | with_reducible apply State.setQp_keeps
    | with_reducible apply Keeps.forEach
    | with_reducible apply Keeps.ite

theorem State.loseBank_keeps {ar : List Area} {s t : State} (h : Keeps ar s t) (b : Nat)
    (hp : Allows ar [.regs, .frames, .ports, .pipes, .ems, .threads, .emem, .qps, .mem] := by first | assumption | (refine Allows.mono ?_ (by assumption); decide)) :
    Keeps ar s (State.loseBank t b) := by
  unfold State.loseBank
  have h1 := State.loseFrames_keeps h (fun k => k == b)
  dsimp only
  generalize State.loseFrames t (fun k => k == b) = u at *
  replace h1 : Keeps ar s (if (bankGrans b).any fun g => (u.gran g).em then u.setEms (KMap.erase u.ems (u.cfg.halfOfBank b))
      else u) := Keeps.ite (State.setEms_keeps h1 _) h1
  generalize (if (bankGrans b).any fun g => (u.gran g).em then u.setEms (KMap.erase u.ems (u.cfg.halfOfBank b))
      else u) = u at *
  have h2 : Keeps ar s (forEach (bankGrans b) (fun g s => if (s.gran g).state = 3 then s else s.setGran g {}) u) :=
    Keeps.forEach h1 fun g v hv => Keeps.ite hv (State.setGran_keeps hv _ _)
  generalize forEach (bankGrans b) (fun g s => if (s.gran g).state = 3 then s else s.setGran g {}) u = w at *
  exact State.setMem_rising_keeps h2 _ fun hw => by dsimp only; exact KMap.rising_clear hw _

theorem State.driveTrunks_keeps {ar : List Area} {s t : State} (h : Keeps ar s t) (level : Bool)
    (hp : Allows ar [.out] := by first | assumption | (refine Allows.mono ?_ (by assumption); decide)) :
    Keeps ar s (State.driveTrunks t level) := by
  unfold State.driveTrunks
  repeat' first
    | with_reducible assumption
    | exact Allows.mono (by decide) hp
    | with_reducible intro _
    | with_reducible apply State.emit_keeps
    | with_reducible apply Keeps.forEach

theorem State.isolate_keeps {ar : List Area} {s t : State} (h : Keeps ar s t) (d : Nat)
    (hp : Allows ar [.regs, .out, .free, .trigs, .frames, .ports, .gasp, .flt, .trunks, .node, .gload, .cls, .threads, .emem, .funcs, .qps, .mem] := by first | assumption | (refine Allows.mono ?_ (by assumption); decide)) :
    Keeps ar s (State.isolate t d) := by
  unfold State.isolate
  repeat' first
    | with_reducible assumption
    | exact Allows.mono (by decide) hp
    | with_reducible intro _
    | with_reducible apply State.cnt_keeps
    | with_reducible apply State.copyGone_keeps
    | with_reducible apply State.emit_keeps
    | with_reducible apply State.emptyThreads_keeps
    | with_reducible apply State.gaspDrop_keeps
    | with_reducible apply State.leaveSync_keeps
    | with_reducible apply State.setPort_keeps
    | with_reducible apply Keeps.forEach
    | with_reducible apply Keeps.ite
    | refine Keeps.snd ?_ (by assumption)
    | refine Keeps.snd2 ?_ (by assumption)
    | with_reducible apply hx
    | split

theorem State.loseSpine_keeps {ar : List Area} {s t : State} (h : Keeps ar s t)
    (hp : Allows ar [.regs, .stage, .hold, .out, .req, .halves, .settle, .frames, .ports, .taken, .dic, .flt, .gload, .ems, .funcs, .qps, .binds, .admin, .mem, .dmas] := by first | assumption | (refine Allows.mono ?_ (by assumption); decide)) :
    Keeps ar s (State.loseSpine t) := by
  unfold State.loseSpine
  repeat' first
    | with_reducible assumption
    | exact Allows.mono (by decide) hp
    | with_reducible intro _
    | with_reducible apply State.clearKeys_keeps
    | with_reducible apply State.fset_keeps
    | with_reducible apply State.irqDrop_keeps
    | with_reducible apply State.setAdmin_keeps
    | with_reducible apply State.setBinds_keeps
    | with_reducible apply State.setDic_keeps
    | with_reducible apply State.setDmas_keeps
    | with_reducible apply State.setEms_keeps
    | with_reducible apply State.setFlt_keeps
    | with_reducible apply State.setFuncs_keeps
    | with_reducible apply State.setGload_keeps
    | with_reducible apply State.setHalves_keeps
    | with_reducible apply State.setMem_keeps
    | with_reducible apply State.setQps_keeps
    | with_reducible apply State.setReq_keeps
    | with_reducible apply State.setSettle_keeps
    | with_reducible apply State.setTaken_keeps
    | with_reducible apply State.tidy_keeps
    | with_reducible apply Keeps.forEach
    | with_reducible apply Keeps.ite
    | rfl

theorem State.loseHalf_keeps {ar : List Area} {s t : State} (h : Keeps ar s t) (hh : Nat)
    (hp : Allows ar [.regs, .stage, .hold, .out, .tbs, .pps, .gens, .trigs, .frames, .ports, .pipes, .graph, .cls, .ems, .mem] := by first | assumption | (refine Allows.mono ?_ (by assumption); decide)) :
    Keeps ar s (State.loseHalf t hh) := by
  unfold State.loseHalf
  repeat' first
    | with_reducible assumption
    | exact Allows.mono (by decide) hp
    | with_reducible intro _
    | with_reducible apply State.clearCtu_keeps
    | with_reducible apply State.clearKeys_keeps
    | with_reducible apply State.emptyPipe_keeps
    | with_reducible apply State.ppsReset_keeps
    | with_reducible apply State.setCls_keeps
    | with_reducible apply State.setEms_keeps
    | with_reducible apply State.setGraph_keeps
    | with_reducible apply State.setTbs_keeps
    | with_reducible apply Keeps.ite

theorem State.loseDomain_keeps {ar : List Area} {s t : State} (h : Keeps ar s t) (d : Nat)
    (hp : Allows ar [.regs, .stage, .hold, .out, .req, .halves, .settle, .tbs, .pps, .gens, .trigs, .frames, .ports, .taken, .gasp, .dic, .flt, .trunks, .slots, .node, .pipes, .graph, .gload, .cls, .ems, .threads, .wheel, .emem, .splices, .funcs, .qps, .binds, .admin, .mem, .chks, .dmas] := by first | assumption | (refine Allows.mono ?_ (by assumption); decide)) :
    Keeps ar s (State.loseDomain t d) := by
  unfold State.loseDomain
  repeat' first
    | with_reducible assumption
    | exact Allows.mono (by decide) hp
    | with_reducible intro _
    | with_reducible apply State.clearKeys_keeps
    | with_reducible apply State.clearThreads_keeps
    | with_reducible apply State.clearTrunk_keeps
    | with_reducible apply State.dropPort_keeps
    | with_reducible apply State.laneReset_keeps
    | with_reducible apply State.loseBank_keeps
    | with_reducible apply State.loseHalf_keeps
    | with_reducible apply State.loseSpine_keeps
    | with_reducible apply State.setChks_keeps
    | with_reducible apply State.setEmem_keeps
    | with_reducible apply State.setMem_keeps
    | with_reducible apply State.speedReset_keeps
    | with_reducible apply Keeps.forEach
    | refine Keeps.snd ?_ (by assumption)
    | refine Keeps.snd2 ?_ (by assumption)
    | with_reducible apply State.setEmem_clear_keeps
    | rfl
    | with_reducible apply hx
    | split

theorem State.returnDomain_keeps {ar : List Area} {s t : State} (h : Keeps ar s t) (d : Nat) (off : Bool)
    (hp : Allows ar [.regs, .out, .trigs, .trunks, .node, .cls, .threads] := by first | assumption | (refine Allows.mono ?_ (by assumption); decide)) :
    Keeps ar s (State.returnDomain t d off) := by
  unfold State.returnDomain
  repeat' first
    | with_reducible assumption
    | exact Allows.mono (by decide) hp
    | with_reducible intro _
    | with_reducible apply State.fset_keeps
    | with_reducible apply State.loadNv_keeps
    | with_reducible apply State.returnThread_keeps
    | with_reducible apply State.syncTrig_keeps
    | with_reducible apply State.trunkStart_keeps
    | with_reducible apply Keeps.forEach
    | with_reducible apply Keeps.ite
    | refine Keeps.snd ?_ (by assumption)
    | refine Keeps.snd2 ?_ (by assumption)
    | (lift_lets; intro x; refine (?_ : Keeps ar s x → _) ?_ <;> [(intro _; clear_value x); skip])
    | with_reducible apply hx
    | split

/-! ### Machine/Power.lean -/

theorem State.drive_keeps {ar : List Area} {s t : State} (h : Keeps ar s t) (d : Nat) (v : DomSt)
    (hp : Allows ar [.out, .doms] := by first | assumption | (refine Allows.mono ?_ (by assumption); decide)) :
    Keeps ar s (State.drive t d v) := by
  unfold State.drive
  repeat' first
    | with_reducible assumption
    | exact Allows.mono (by decide) hp
    | with_reducible apply State.emit_keeps
    | with_reducible apply State.setDom_keeps
    | with_reducible apply Keeps.ite

theorem State.domDone_keeps {ar : List Area} {s t : State} (h : Keeps ar s t) (d : Nat) (result : Nat)
    (hp : Allows ar [.regs] := by first | assumption | (refine Allows.mono ?_ (by assumption); decide)) :
    Keeps ar s (State.domDone t d result) := by
  unfold State.domDone
  repeat' first
    | with_reducible assumption
    | exact Allows.mono (by decide) hp
    | with_reducible apply State.fsets_keeps

theorem State.wantOn_keeps {ar : List Area} {s t : State} (h : Keeps ar s t) (d : Nat)
    (hp : Allows ar [.regs, .doms] := by first | assumption | (refine Allows.mono ?_ (by assumption); decide)) :
    Keeps ar s (State.wantOn t d) := by
  unfold State.wantOn
  repeat' first
    | with_reducible assumption
    | exact Allows.mono (by decide) hp
    | with_reducible apply State.domDone_keeps
    | with_reducible apply State.fsets_keeps
    | with_reducible apply State.setDom_keeps
    | with_reducible apply Keeps.ite
    | refine Keeps.snd ?_ (by assumption)
    | refine Keeps.snd2 ?_ (by assumption)
    | (lift_lets; intro x; refine (?_ : Keeps ar s x → _) ?_ <;> [(intro _; clear_value x); skip])
    | with_reducible apply hx
    | split

theorem State.unwindEntries_keeps {ar : List Area} {s t : State} (h : Keeps ar s t)
    (hp : Allows ar [.regs, .doms] := by first | assumption | (refine Allows.mono ?_ (by assumption); decide)) :
    Keeps ar s (State.unwindEntries t) := by
  unfold State.unwindEntries
  repeat' first
    | with_reducible assumption
    | exact Allows.mono (by decide) hp
    | with_reducible intro _
    | with_reducible apply State.wantOn_keeps
    | with_reducible apply Keeps.forEach
    | with_reducible apply Keeps.ite
    | refine Keeps.snd ?_ (by assumption)
    | refine Keeps.snd2 ?_ (by assumption)
    | split

theorem State.noteWake_keeps {ar : List Area} {s t : State} (h : Keeps ar s t) (src : Nat) (index : Nat) (filter : Nat) (met : Bool)
    (hp : Allows ar [.regs] := by first | assumption | (refine Allows.mono ?_ (by assumption); decide)) :
    Keeps ar s (State.noteWake t src index filter met) := by
  unfold State.noteWake
  repeat' first
    | with_reducible assumption
    | exact Allows.mono (by decide) hp
    | with_reducible apply State.fset_keeps
    | with_reducible apply State.fsets_keeps
    | with_reducible apply Keeps.ite

theorem State.wake_keeps {ar : List Area} {s t : State} (h : Keeps ar s t) (src : Nat) (index : Nat) (filter : Nat) (met : Bool)
    (hp : Allows ar [.regs, .latches, .doms] := by first | assumption | (refine Allows.mono ?_ (by assumption); decide)) :
    Keeps ar s (State.wake t src index filter met) := by
  unfold State.wake
  repeat' first
    | with_reducible assumption
    | exact Allows.mono (by decide) hp
    | with_reducible intro _
    | with_reducible apply State.noteWake_keeps
    | with_reducible apply State.raiseAon_keeps
    | with_reducible apply State.setDom_keeps
    | with_reducible apply State.unwindEntries_keeps
    | with_reducible apply State.wantOn_keeps
    | with_reducible apply Keeps.forEach
    | with_reducible apply Keeps.ite

theorem State.wakeReq_keeps {ar : List Area} {s t : State} (h : Keeps ar s t) (data : Word)
    (hp : Allows ar [.regs, .latches, .doms] := by first | assumption | (refine Allows.mono ?_ (by assumption); decide)) :
    Keeps ar s (State.wakeReq data t) := by
  unfold State.wakeReq
  repeat' first
    | with_reducible assumption
    | exact Allows.mono (by decide) hp
    | with_reducible apply State.wake_keeps
    | with_reducible apply Keeps.ite

theorem State.refuseTarget_keeps {ar : List Area} {s t : State} (h : Keeps ar s t) (d : Nat) (result : Nat)
    (hp : Allows ar [.regs] := by first | assumption | (refine Allows.mono ?_ (by assumption); decide)) :
    Keeps ar s (State.refuseTarget t d result) := by
  unfold State.refuseTarget
  repeat' first
    | with_reducible assumption
    | exact Allows.mono (by decide) hp
    | with_reducible apply State.fset_keeps

theorem State.takeTarget_keeps {ar : List Area} {s t : State} (h : Keeps ar s t) (d : Nat) (u0 : Nat) (result : Nat)
    (hp : Allows ar [.regs, .stage, .hold, .out, .req, .halves, .settle, .tbs, .pps, .gens, .trigs, .frames, .ports, .taken, .doms, .gasp, .dic, .flt, .trunks, .slots, .node, .pipes, .graph, .gload, .cls, .ems, .threads, .wheel, .emem, .splices, .funcs, .qps, .binds, .admin, .mem, .chks, .dmas] := by first | assumption | (refine Allows.mono ?_ (by assumption); decide)) :
    Keeps ar s (State.takeTarget t d u0 result) := by
  unfold State.takeTarget
  repeat' first
    | with_reducible assumption
    | exact Allows.mono (by decide) hp
    | with_reducible apply State.domDone_keeps
    | with_reducible apply State.drive_keeps
    | with_reducible apply State.fset_keeps
    | with_reducible apply State.fsets_keeps
    | with_reducible apply State.loseDomain_keeps
    | with_reducible apply State.setDom_keeps
    | with_reducible apply State.wantOn_keeps
    | with_reducible apply Keeps.ite
    | refine Keeps.snd ?_ (by assumption)
    | refine Keeps.snd2 ?_ (by assumption)
    | (lift_lets; intro x; refine (?_ : Keeps ar s x → _) ?_ <;> [(intro _; clear_value x); skip])
    | with_reducible apply hx
    | split

theorem State.takeNext_keeps {ar : List Area} {s t : State} (h : Keeps ar s t) (d : Nat) (next : Option Nat)
    (hp : Allows ar [.regs, .stage, .hold, .out, .req, .halves, .settle, .tbs, .pps, .gens, .trigs, .frames, .ports, .taken, .doms, .gasp, .dic, .flt, .trunks, .slots, .node, .pipes, .graph, .gload, .cls, .ems, .threads, .wheel, .emem, .splices, .funcs, .qps, .binds, .admin, .mem, .chks, .dmas] := by first | assumption | (refine Allows.mono ?_ (by assumption); decide)) :
    Keeps ar s (State.takeNext t d next) := by
  unfold State.takeNext
  repeat' first
    | with_reducible assumption
    | exact Allows.mono (by decide) hp
    | with_reducible apply State.takeTarget_keeps
    | refine Keeps.snd ?_ (by assumption)
    | refine Keeps.snd2 ?_ (by assumption)
    | split

theorem State.targetWrite_keeps {ar : List Area} {s t : State} (h : Keeps ar s t) (d : Nat) (data : Word)
    (hp : Allows ar [.regs, .stage, .hold, .slv, .out, .req, .halves, .settle, .tbs, .pps, .gens, .trigs, .frames, .ports, .taken, .doms, .gasp, .dic, .flt, .trunks, .slots, .node, .pipes, .graph, .gload, .cls, .ems, .threads, .wheel, .emem, .splices, .funcs, .qps, .binds, .admin, .mem, .chks, .dmas] := by first | assumption | (refine Allows.mono ?_ (by assumption); decide)) :
    Keeps ar s (State.targetWrite d data t) := by
  unfold State.targetWrite
  repeat' first
    | with_reducible assumption
    | exact Allows.mono (by decide) hp
    | with_reducible intro _
    | with_reducible apply State.deny_keeps
    | with_reducible apply State.refuseTarget_keeps
    | with_reducible apply State.takeTarget_keeps
    | with_reducible apply Keeps.ite

theorem State.entryDone_keeps {ar : List Area} {s t : State} (h : Keeps ar s t) (d : Nat) (off : Bool)
    (hp : Allows ar [.regs, .stage, .hold, .out, .req, .halves, .settle, .tbs, .pps, .gens, .trigs, .frames, .ports, .taken, .latches, .doms, .gasp, .dic, .flt, .trunks, .slots, .node, .pipes, .graph, .gload, .cls, .ems, .threads, .wheel, .emem, .splices, .funcs, .qps, .binds, .admin, .mem, .chks, .dmas] := by first | assumption | (refine Allows.mono ?_ (by assumption); decide)) :
    Keeps ar s (State.entryDone t d off) := by
  unfold State.entryDone
  repeat' first
    | with_reducible assumption
    | exact Allows.mono (by decide) hp
    | with_reducible apply State.domDone_keeps
    | with_reducible apply State.fsets_keeps
    | with_reducible apply State.loseDomain_keeps
    | with_reducible apply State.raiseAon_keeps
    | with_reducible apply State.setDom_keeps
    | with_reducible apply State.takeTarget_keeps
    | with_reducible apply State.wantOn_keeps
    | with_reducible apply Keeps.ite
    | refine Keeps.snd ?_ (by assumption)
    | refine Keeps.snd2 ?_ (by assumption)
    | (lift_lets; intro x; refine (?_ : Keeps ar s x → _) ?_ <;> [(intro _; clear_value x); skip])
    | with_reducible apply hx
    | split
    | dsimp only

theorem State.entryStep_keeps {ar : List Area} {s t : State} (h : Keeps ar s t) (d : Nat) (off : Bool) (step : Nat)
    (hp : Allows ar [.regs, .stage, .hold, .out, .free, .req, .halves, .settle, .tbs, .pps, .gens, .trigs, .frames, .ports, .taken, .latches, .doms, .gasp, .dic, .flt, .trunks, .slots, .node, .pipes, .graph, .gload, .cls, .ems, .threads, .wheel, .emem, .splices, .funcs, .qps, .binds, .admin, .mem, .chks, .dmas] := by first | assumption | (refine Allows.mono ?_ (by assumption); decide)) :
    Keeps ar s (State.entryStep t d off step) := by
  unfold State.entryStep
  repeat' first
    | with_reducible assumption
    | exact Allows.mono (by decide) hp
    | with_reducible apply State.drive_keeps
    | with_reducible apply State.entryDone_keeps
    | with_reducible apply State.isolate_keeps
    | with_reducible apply State.setDom_keeps
    | with_reducible apply Keeps.ite

theorem State.unwindStep_keeps {ar : List Area} {s t : State} (h : Keeps ar s t) (d : Nat) (off : Bool) (step : Nat)
    (hp : Allows ar [.regs, .stage, .hold, .out, .req, .halves, .settle, .tbs, .pps, .gens, .trigs, .frames, .ports, .taken, .latches, .doms, .gasp, .dic, .flt, .trunks, .slots, .node, .pipes, .graph, .gload, .cls, .ems, .threads, .wheel, .emem, .splices, .funcs, .qps, .binds, .admin, .mem, .chks, .dmas] := by first | assumption | (refine Allows.mono ?_ (by assumption); decide)) :
    Keeps ar s (State.unwindStep t d off step) := by
  unfold State.unwindStep
  repeat' first
    | with_reducible assumption
    | exact Allows.mono (by decide) hp
    | with_reducible apply State.domDone_keeps
    | with_reducible apply State.drive_keeps
    | with_reducible apply State.fset_keeps
    | with_reducible apply State.raiseAon_keeps
    | with_reducible apply State.takeNext_keeps
    | with_reducible apply Keeps.ite

theorem State.powerDone_keeps {ar : List Area} {s t : State} (h : Keeps ar s t) (d : Nat) (listen : Bool)
    (hp : Allows ar [.regs, .stage, .hold, .out, .req, .halves, .settle, .tbs, .pps, .gens, .trigs, .frames, .ports, .taken, .doms, .gasp, .dic, .flt, .trunks, .slots, .node, .pipes, .graph, .gload, .cls, .ems, .threads, .wheel, .emem, .splices, .funcs, .qps, .binds, .admin, .mem, .chks, .dmas] := by first | assumption | (refine Allows.mono ?_ (by assumption); decide)) :
    Keeps ar s (State.powerDone t d listen) := by
  unfold State.powerDone
  repeat' first
    | with_reducible assumption
    | exact Allows.mono (by decide) hp
    | with_reducible apply State.domDone_keeps
    | with_reducible apply State.drive_keeps
    | with_reducible apply State.fset_keeps
    | with_reducible apply State.returnDomain_keeps
    | with_reducible apply State.setDom_keeps
    | with_reducible apply State.setPort_keeps
    | with_reducible apply State.takeNext_keeps
    | with_reducible apply Keeps.ite

theorem State.powerRestore_keeps {ar : List Area} {s t : State} (h : Keeps ar s t) (d : Nat) (listen : Bool)
    (hp : Allows ar [.regs, .out, .doms] := by first | assumption | (refine Allows.mono ?_ (by assumption); decide)) :
    Keeps ar s (State.powerRestore t d listen) := by
  unfold State.powerRestore
  repeat' first
    | with_reducible assumption
    | exact Allows.mono (by decide) hp
    | with_reducible apply State.drive_keeps
    | with_reducible apply State.fset_keeps

theorem State.domStep_keeps {ar : List Area} {s t : State} (h : Keeps ar s t) (d : Nat)
    (hp : Allows ar [.regs, .stage, .hold, .out, .free, .req, .halves, .settle, .tbs, .pps, .gens, .trigs, .frames, .ports, .taken, .latches, .doms, .gasp, .dic, .flt, .trunks, .slots, .node, .pipes, .graph, .gload, .cls, .ems, .threads, .wheel, .emem, .splices, .funcs, .qps, .binds, .admin, .mem, .chks, .dmas] := by first | assumption | (refine Allows.mono ?_ (by assumption); decide)) :
    Keeps ar s (State.domStep t d) := by
  unfold State.domStep
  repeat' first
    | with_reducible assumption
    | exact Allows.mono (by decide) hp
    | with_reducible apply State.domDone_keeps
    | with_reducible apply State.entryStep_keeps
    | with_reducible apply State.fsets_keeps
    | with_reducible apply State.powerDone_keeps
    | with_reducible apply State.powerRestore_keeps
    | with_reducible apply State.setDom_keeps
    | with_reducible apply State.unwindStep_keeps
    | with_reducible apply Keeps.ite
    | refine Keeps.snd ?_ (by assumption)
    | refine Keeps.snd2 ?_ (by assumption)
    | split

theorem State.grant_keeps {ar : List Area} {s t : State} (h : Keeps ar s t) (d : Nat) (listen : Bool)
    (hp : Allows ar [.regs, .out, .doms] := by first | assumption | (refine Allows.mono ?_ (by assumption); decide)) :
    Keeps ar s (State.grant t d listen) := by
  unfold State.grant
  repeat' first
    | with_reducible assumption
    | exact Allows.mono (by decide) hp
    | with_reducible apply State.drive_keeps
    | with_reducible apply State.fsets_keeps

theorem State.inrushWait_keeps {ar : List Area} {s t : State} (h : Keeps ar s t) (d : Nat)
    (hp : Allows ar [.regs, .latches, .doms] := by first | assumption | (refine Allows.mono ?_ (by assumption); decide)) :
    Keeps ar s (State.inrushWait t d) := by
  unfold State.inrushWait
  repeat' first
    | with_reducible assumption
    | exact Allows.mono (by decide) hp
    | with_reducible apply State.fset_keeps
    | with_reducible apply State.raiseAon_keeps
    | with_reducible apply State.setDom_keeps
    | with_reducible apply Keeps.ite

theorem State.wakeUp_keeps {ar : List Area} {s t : State} (h : Keeps ar s t)
    (hp : Allows ar [.regs, .out, .free, .tbs, .gens, .trigs, .flt, .trunks, .node, .gload, .cls, .funcs] := by first | assumption | (refine Allows.mono ?_ (by assumption); decide)) :
    Keeps ar s (State.wakeUp t) := by
  unfold State.wakeUp
  repeat' first
    | with_reducible assumption
    | exact Allows.mono (by decide) hp
    | with_reducible intro _
    | with_reducible apply State.driveTrunks_keeps
    | with_reducible apply State.fsets_keeps
    | with_reducible apply State.setMode_keeps
    | with_reducible apply State.tbRestart_keeps
    | with_reducible apply Keeps.forEach
    | with_reducible apply Keeps.ite

/-! ### Machine/Mac.lean -/

theorem State.sendVerify_keeps {ar : List Area} {s t : State} (h : Keeps ar s t) (p : Nat)
    (hp : Allows ar [.out] := by first | assumption | (refine Allows.mono ?_ (by assumption); decide)) :
    Keeps ar s (State.sendVerify t p) := by
  unfold State.sendVerify
  repeat' first
    | with_reducible assumption
    | exact Allows.mono (by decide) hp
    | with_reducible apply State.emit_keeps
    | with_reducible apply Keeps.ite

theorem State.preemptUpdate_keeps {ar : List Area} {s t : State} (h : Keeps ar s t) (p : Nat)
    (hp : Allows ar [.regs, .out, .ports] := by first | assumption | (refine Allows.mono ?_ (by assumption); decide)) :
    Keeps ar s (State.preemptUpdate t p) := by
  unfold State.preemptUpdate
  repeat' first
    | with_reducible assumption
    | exact Allows.mono (by decide) hp
    | with_reducible apply State.fsets_keeps
    | with_reducible apply State.sendVerify_keeps
    | with_reducible apply State.setPort_keeps
    | with_reducible apply Keeps.ite

theorem State.macCtlWrite_keeps {ar : List Area} {s t : State} (h : Keeps ar s t) (p : Nat) (data : Word)
    (hp : Allows ar [.regs, .stage, .slv, .out, .ports, .trunks, .node] := by first | assumption | (refine Allows.mono ?_ (by assumption); decide)) :
    Keeps ar s (State.macCtlWrite p data t) := by
  unfold State.macCtlWrite
  repeat' first
    | with_reducible assumption
    | exact Allows.mono (by decide) hp
    | with_reducible apply State.emit_keeps
    | with_reducible apply State.fset_keeps
    | with_reducible apply State.gearOkCheck_keeps
    | with_reducible apply State.preemptUpdate_keeps
    | with_reducible apply State.raisePort_keeps
    | with_reducible apply State.setFlag_keeps
    | with_reducible apply State.setPort_keeps
    | with_reducible apply State.writeFields_keeps
    | with_reducible apply Keeps.ite

theorem State.pauseReceive_keeps {ar : List Area} {s t : State} (h : Keeps ar s t) (p : Nat) (pfc : Bool) (enable : Nat) (quanta : List Nat)
    (hp : Allows ar [.regs] := by first | assumption | (refine Allows.mono ?_ (by assumption); decide)) :
    Keeps ar s (State.pauseReceive t p pfc enable quanta) := by
  unfold State.pauseReceive
  repeat' first
    | with_reducible assumption
    | exact Allows.mono (by decide) hp
    | with_reducible intro _
    | with_reducible apply State.fset_keeps
    | with_reducible apply State.macCnt_keeps
    | with_reducible apply Keeps.forEach
    | with_reducible apply Keeps.ite

theorem State.countGood_keeps {ar : List Area} {s t : State} (h : Keeps ar s t) (p : Nat) (n : Nat) (dst : List Byte)
    (hp : Allows ar [.regs] := by first | assumption | (refine Allows.mono ?_ (by assumption); decide)) :
    Keeps ar s (State.countGood t p n dst) := by
  unfold State.countGood
  repeat' first
    | with_reducible assumption
    | exact Allows.mono (by decide) hp
    | with_reducible apply State.cntAdd_keeps
    | with_reducible apply State.macCnt_keeps

theorem State.wakeNote_keeps {ar : List Area} {s t : State} (h : Keeps ar s t) (p : Nat) (m : Nat × Nat)
    (hp : Allows ar [.regs, .latches] := by first | assumption | (refine Allows.mono ?_ (by assumption); decide)) :
    Keeps ar s (State.wakeNote t p m) := by
  unfold State.wakeNote
  repeat' first
    | with_reducible assumption
    | exact Allows.mono (by decide) hp
    | with_reducible apply State.fset_keeps
    | with_reducible apply State.raiseAon_keeps
    | with_reducible apply Keeps.ite

theorem State.wakeMatch_keeps {ar : List Area} {s t : State} (h : Keeps ar s t) (p : Nat) (bs : List Byte) (pass : Bool)
    (hp : Allows ar [.regs, .latches, .doms] := by first | assumption | (refine Allows.mono ?_ (by assumption); decide)) :
    Keeps ar s (State.wakeMatch t p bs pass) := by
  unfold State.wakeMatch
  repeat' first
    | with_reducible assumption
    | exact Allows.mono (by decide) hp
    | with_reducible intro _
    | with_reducible apply State.wake_keeps
    | with_reducible apply State.wakeNote_keeps
    | with_reducible apply Keeps.forEach
    | with_reducible apply Keeps.ite

theorem State.judgeHead_keeps {ar : List Area} {s t : State} (h : Keeps ar s t) (p : Nat) (fid : Nat) (last : Bool)
    (hp : Allows ar [.regs, .frames, .pipes] := by first | assumption | (refine Allows.mono ?_ (by assumption); decide)) :
    Keeps ar s (State.judgeHead t p fid last) := by
  unfold State.judgeHead
  repeat' first
    | with_reducible assumption
    | exact Allows.mono (by decide) hp
    | with_reducible apply State.setFrame_keeps
    | with_reducible apply State.unparse_keeps
    | with_reducible apply Keeps.ite

theorem State.spreadBytes_keeps {ar : List Area} {s t : State} (h : Keeps ar s t) (fid : Nat) (had : Nat) (new : List Byte)
    (hp : Allows ar [.ports, .emem] := by first | assumption | (refine Allows.mono ?_ (by assumption); decide)) :
    Keeps ar s (State.spreadBytes t fid had new) := by
  unfold State.spreadBytes
  repeat' first
    | with_reducible assumption
    | exact Allows.mono (by decide) hp
    | with_reducible intro _
    | with_reducible apply State.eput_keeps
    | with_reducible apply State.eput_keeps
    | with_reducible apply State.setPort_keeps
    | with_reducible apply Keeps.forEach

theorem State.judgeEnd_keeps {ar : List Area} {s t : State} (h : Keeps ar s t) (p : Nat) (fid : Nat) (ovr : Bool) (fcs : Bool) (err : Bool) (asm : Nat)
    (hp : Allows ar [.regs, .free, .frames, .ports, .latches, .doms, .pipes, .threads, .emem, .qps, .mem] := by first | assumption | (refine Allows.mono ?_ (by assumption); decide)) :
    Keeps ar s (State.judgeEnd t p fid ovr fcs err asm) := by
  unfold State.judgeEnd
  repeat' first
    | with_reducible assumption
    | exact Allows.mono (by decide) hp
    | with_reducible apply State.checkSums_keeps
    | with_reducible apply State.countGood_keeps
    | with_reducible apply State.discard_keeps
    | with_reducible apply Ins.done_keeps
    | with_reducible apply State.judgeLens_keeps
    | with_reducible apply State.macCnt_keeps
    | with_reducible apply State.pauseReceive_keeps
    | with_reducible apply State.placeFrame_keeps
    | with_reducible apply State.setFrame_keeps
    | with_reducible apply State.tidy_keeps
    | with_reducible apply State.wakeMatch_keeps
    | with_reducible apply Keeps.ite
    | refine Keeps.snd ?_ (by assumption)
    | refine Keeps.snd2 ?_ (by assumption)
    | (lift_lets; intro x; refine (?_ : Keeps ar s x → _) ?_ <;> [(intro _; clear_value x); skip])
    | with_reducible apply hx
    | split

theorem State.frameIn_keeps {ar : List Area} {s t : State} (h : Keeps ar s t) (p : Nat) (bytes : List Byte) (eof : Bool) (rxErr : Bool) (asm : Nat) (ph : Nat)
    (hp : Allows ar [.regs, .free, .frames, .nextFrame, .ports, .latches, .doms, .pipes, .threads, .emem, .qps, .mem] := by first | assumption | (refine Allows.mono ?_ (by assumption); decide)) :
    Keeps ar s (State.frameIn t p bytes eof rxErr asm ph) := by
  unfold State.frameIn
  repeat' first
    | with_reducible assumption
    | exact Allows.mono (by decide) hp
    | with_reducible apply State.fset_keeps
    | with_reducible apply State.judgeEnd_keeps
    | with_reducible apply State.judgeHead_keeps
    | with_reducible apply State.newFrame_keeps
    | with_reducible apply State.offer_keeps
    | with_reducible apply State.setFrame_keeps
    | with_reducible apply State.setPort_keeps
    | with_reducible apply State.spreadBytes_keeps
    | with_reducible apply Keeps.ite
    | refine Keeps.snd ?_ (by assumption)
    | refine Keeps.snd2 ?_ (by assumption)
    | (lift_lets; intro x; refine (?_ : Keeps ar s x.2 → _) ?_ <;> [(intro _; clear_value x); skip])
    | with_reducible apply hx
    | split

theorem State.listenFrame_keeps {ar : List Area} {s t : State} (h : Keeps ar s t) (p : Nat) (bytes : List Byte) (eof : Bool) (rxErr : Bool)
    (hp : Allows ar [.regs, .ports, .latches, .doms] := by first | assumption | (refine Allows.mono ?_ (by assumption); decide)) :
    Keeps ar s (State.listenFrame t p bytes eof rxErr) := by
  unfold State.listenFrame
  repeat' first
    | with_reducible assumption
    | exact Allows.mono (by decide) hp
    | with_reducible intro _
    | with_reducible apply State.setPort_keeps
    | with_reducible apply State.wakeMatch_keeps
    | with_reducible apply State.wantOn_keeps
    | with_reducible apply Keeps.ite

theorem State.gateEnter_keeps {ar : List Area} {s t : State} (h : Keeps ar s t) (p : Nat) (i : Nat)
    (hp : Allows ar [.regs, .ports] := by first | assumption | (refine Allows.mono ?_ (by assumption); decide)) :
    Keeps ar s (State.gateEnter t p i) := by
  unfold State.gateEnter
  repeat' first
    | with_reducible assumption
    | exact Allows.mono (by decide) hp
    | with_reducible apply State.fset_keeps
    | with_reducible apply State.raisePort_keeps
    | with_reducible apply State.setPort_keeps
    | with_reducible apply Keeps.ite
    | refine Keeps.snd ?_ (by assumption)
    | refine Keeps.snd2 ?_ (by assumption)
    | (lift_lets; intro x; clear_value x)
    | with_reducible apply hx
    | split
    | dsimp only

theorem State.gateRestart_keeps {ar : List Area} {s t : State} (h : Keeps ar s t) (p : Nat)
    (hp : Allows ar [.regs, .ports] := by first | assumption | (refine Allows.mono ?_ (by assumption); decide)) :
    Keeps ar s (State.gateRestart t p) := by
  unfold State.gateRestart
  repeat' first
    | with_reducible assumption
    | exact Allows.mono (by decide) hp
    | with_reducible apply State.fset_keeps
    | with_reducible apply State.gateEnter_keeps
    | with_reducible apply Keeps.ite

theorem State.gclCtlWrite_keeps {ar : List Area} {s t : State} (h : Keeps ar s t) (p : Nat) (data : Word)
    (hp : Allows ar [.regs, .stage, .slv, .ports, .trunks, .node] := by first | assumption | (refine Allows.mono ?_ (by assumption); decide)) :
    Keeps ar s (State.gclCtlWrite p data t) := by
  unfold State.gclCtlWrite
  repeat' first
    | with_reducible assumption
    | exact Allows.mono (by decide) hp
    | with_reducible intro _
    | with_reducible apply State.fsets_keeps
    | with_reducible apply State.gearOkCheck_keeps
    | with_reducible apply State.setPort_keeps
    | with_reducible apply State.writeFields_keeps
    | with_reducible apply Keeps.foldl
    | with_reducible apply Keeps.foldl2
    | with_reducible apply Keeps.ite

theorem State.gclEntryWrite_keeps {ar : List Area} {s t : State} (h : Keeps ar s t) (p : Nat) (g : Nat) (key : Nat) (data : Word)
    (hp : Allows ar [.regs, .stage, .slv] := by first | assumption | (refine Allows.mono ?_ (by assumption); decide)) :
    Keeps ar s (State.gclEntryWrite p g key data t) := by
  unfold State.gclEntryWrite
  repeat' first
    | with_reducible assumption
    | exact Allows.mono (by decide) hp
    | with_reducible apply State.deny_keeps
    | with_reducible apply State.writeFields_keeps
    | with_reducible apply Keeps.ite

theorem State.beginCopy_keeps {ar : List Area} {s t : State} (h : Keeps ar s t) (p : Nat) (ph : Nat) (c : Copy) (bytes : List Byte)
    (hp : Allows ar [.regs, .ports] := by first | assumption | (refine Allows.mono ?_ (by assumption); decide)) :
    Keeps ar s (State.beginCopy t p ph c bytes) := by
  unfold State.beginCopy
  repeat' first
    | with_reducible assumption
    | exact Allows.mono (by decide) hp
    | with_reducible apply State.fset_keeps
    | with_reducible apply State.setPort_keeps

theorem State.startWhole_keeps {ar : List Area} {s t : State} (h : Keeps ar s t) (p : Nat) (ph : Nat) (c : Copy)
    (hp : Allows ar [.regs, .frames, .ports, .emem, .funcs, .qps, .mem] := by first | assumption | (refine Allows.mono ?_ (by assumption); decide)) :
    Keeps ar s (State.startWhole t p ph c) := by
  unfold State.startWhole
  repeat' first
    | with_reducible assumption
    | exact Allows.mono (by decide) hp
    | with_reducible apply State.beginCopy_keeps
    | with_reducible apply State.copyGone_keeps
    | with_reducible apply State.hostCode_keeps
    | with_reducible apply State.meetPoison_keeps
    | with_reducible apply State.setPort_keeps
    | with_reducible apply State.takeBytes_keeps
    | with_reducible apply Keeps.ite

theorem State.startCopy_keeps {ar : List Area} {s t : State} (h : Keeps ar s t) (p : Nat) (ph : Nat) (c : Copy)
    (hp : Allows ar [.regs, .frames, .ports, .emem, .funcs, .qps, .mem] := by first | assumption | (refine Allows.mono ?_ (by assumption); decide)) :
    Keeps ar s (State.startCopy t p ph c) := by
  unfold State.startCopy
  repeat' first
    | with_reducible assumption
    | exact Allows.mono (by decide) hp
    | with_reducible apply State.beginCopy_keeps
    | with_reducible apply State.setPort_keeps
    | with_reducible apply State.startWhole_keeps
    | with_reducible apply Keeps.ite

theorem State.resumeHeld_keeps {ar : List Area} {s t : State} (h : Keeps ar s t) (p : Nat)
    (hp : Allows ar [.regs, .ports] := by first | assumption | (refine Allows.mono ?_ (by assumption); decide)) :
    Keeps ar s (State.resumeHeld t p) := by
  unfold State.resumeHeld
  repeat' first
    | with_reducible assumption
    | exact Allows.mono (by decide) hp
    | with_reducible apply State.fset_keeps
    | with_reducible apply State.macCnt_keeps
    | with_reducible apply State.setPort_keeps
    | refine Keeps.snd ?_ (by assumption)
    | refine Keeps.snd2 ?_ (by assumption)
    | (lift_lets; intro x; clear_value x)
    | with_reducible apply hx
    | split

theorem State.startNext_keeps {ar : List Area} {s t : State} (h : Keeps ar s t) (p : Nat) (ph : Nat)
    (hp : Allows ar [.regs, .frames, .ports, .emem, .funcs, .qps, .mem] := by first | assumption | (refine Allows.mono ?_ (by assumption); decide)) :
    Keeps ar s (State.startNext t p ph) := by
  unfold State.startNext
  repeat' first
    | with_reducible assumption
    | exact Allows.mono (by decide) hp
    | with_reducible apply State.beginCopy_keeps
    | with_reducible apply State.resumeHeld_keeps
    | with_reducible apply State.setPort_keeps
    | with_reducible apply State.startCopy_keeps
    | with_reducible apply Keeps.ite
    | refine Keeps.snd ?_ (by assumption)
    | refine Keeps.snd2 ?_ (by assumption)
    | with_reducible apply hx
    | split

theorem State.interrupt_keeps {ar : List Area} {s t : State} (h : Keeps ar s t) (p : Nat) (sent : Nat)
    (hp : Allows ar [.regs, .out, .ports] := by first | assumption | (refine Allows.mono ?_ (by assumption); decide)) :
    Keeps ar s (State.interrupt t p sent) := by
  unfold State.interrupt
  repeat' first
    | with_reducible assumption
    | exact Allows.mono (by decide) hp
    | with_reducible apply State.emit_keeps
    | with_reducible apply State.fset_keeps
    | with_reducible apply State.setPort_keeps
    | refine Keeps.snd ?_ (by assumption)
    | refine Keeps.snd2 ?_ (by assumption)
    | (lift_lets; intro x; clear_value x)
    | with_reducible apply hx
    | split

theorem State.endCopy_keeps {ar : List Area} {s t : State} (h : Keeps ar s t) (p : Nat) (c : Copy)
    (hp : Allows ar [.regs, .out, .frames, .ports, .emem, .qps, .mem] := by first | assumption | (refine Allows.mono ?_ (by assumption); decide)) :
    Keeps ar s (State.endCopy t p c) := by
  unfold State.endCopy
  repeat' first
    | with_reducible assumption
    | exact Allows.mono (by decide) hp
    | with_reducible apply State.cntAdd_keeps
    | with_reducible apply State.copyGone_keeps
    | with_reducible apply State.emit_keeps
    | with_reducible apply State.hostCode_keeps
    | with_reducible apply State.macCnt_keeps
    | with_reducible apply State.noteEdits_keeps
    | with_reducible apply Keeps.ite

theorem State.gaspGone_keeps {ar : List Area} {s t : State} (h : Keeps ar s t) (p : Nat)
    (hp : Allows ar [.regs, .gasp, .trunks, .node, .cls] := by first | assumption | (refine Allows.mono ?_ (by assumption); decide)) :
    Keeps ar s (State.gaspGone t p) := by
  unfold State.gaspGone
  repeat' first
    | with_reducible assumption
    | exact Allows.mono (by decide) hp
    | with_reducible apply State.gaspCheck_keeps
    | with_reducible apply State.setGasp_keeps
    | refine Keeps.snd ?_ (by assumption)
    | refine Keeps.snd2 ?_ (by assumption)
    | split

theorem State.editArrives_keeps {ar : List Area} {s t : State} (h : Keeps ar s t) (p : Nat) (e : Edit)
    (hp : Allows ar [.regs, .frames, .ports, .emem] := by first | assumption | (refine Allows.mono ?_ (by assumption); decide)) :
    Keeps ar s (State.editArrives t p e) := by
  unfold State.editArrives
  repeat' first
    | with_reducible assumption
    | exact Allows.mono (by decide) hp
    | with_reducible apply State.copyStatus_keeps
    | with_reducible apply State.fset_keeps
    | with_reducible apply State.postThr_keeps
    | with_reducible apply State.raisePort_keeps
    | with_reducible apply State.setPort_keeps
    | with_reducible apply State.spliceNote_keeps
    | with_reducible apply Keeps.ite

/-! ### Machine/Rules.lean -/

theorem State.learn_keeps {ar : List Area} {s t : State} (h : Keeps ar s t) (hh : Nat) (f : Frame) (a : Act)
    (hp : Allows ar [.cls] := by first | assumption | (refine Allows.mono ?_ (by assumption); decide)) :
    Keeps ar s (State.learn t hh f a) := by
  unfold State.learn
  repeat' first
    | with_reducible assumption
    | exact Allows.mono (by decide) hp
    | with_reducible apply State.setCls_keeps
    | with_reducible apply Keeps.ite
    | refine Keeps.snd ?_ (by assumption)
    | refine Keeps.snd2 ?_ (by assumption)
    | (lift_lets; intro x; clear_value x)
    | with_reducible apply hx
    | split

theorem State.decideAct_keeps {ar : List Area} {s t : State} (h : Keeps ar s t) (hh : Nat) (f : Frame)
    (hp : Allows ar [.regs] := by first | assumption | (refine Allows.mono ?_ (by assumption); decide)) :
    Keeps ar s (State.decideAct t hh f).2.2 := by
  unfold State.decideAct
  repeat' first
    | with_reducible assumption
    | exact Allows.mono (by decide) hp
    | with_reducible apply State.clsCnt_keeps
    | with_reducible apply State.emLookup_keeps
    | with_reducible apply Keeps.ite
    | refine Keeps.snd ?_ (by assumption)
    | refine Keeps.snd2 ?_ (by assumption)
    | (lift_lets; intro x; clear_value x)
    | with_reducible apply hx
    | split
    | dsimp only

theorem State.classify_keeps {ar : List Area} {s t : State} (h : Keeps ar s t) (hh : Nat) (fid : Nat)
    (hp : Allows ar [.regs, .free, .frames, .ports, .pipes, .cls, .ems, .threads, .emem, .qps, .mem] := by first | assumption | (refine Allows.mono ?_ (by assumption); decide)) :
    Keeps ar s (State.classify t hh fid) := by
  unfold State.classify
  repeat' first
    | with_reducible assumption
    | exact Allows.mono (by decide) hp
    | with_reducible apply State.clsCnt_keeps
    | with_reducible apply State.decideAct_keeps
    | with_reducible apply Ins.done_keeps
    | with_reducible apply State.judgeLens_keeps
    | with_reducible apply State.learn_keeps
    | with_reducible apply State.ownBlock_keeps
    | with_reducible apply State.placeFrame_keeps
    | with_reducible apply State.resolve_keeps
    | with_reducible apply State.send_keeps
    | with_reducible apply State.setFrame_keeps
    | with_reducible apply State.takeSeq_keeps
    | with_reducible apply State.tidy_keeps
    | with_reducible apply Keeps.ite

theorem State.mapTcam_keeps {ar : List Area} {s t : State} (h : Keeps ar s t) (f : Tcam → Tcam)
    (hp : Allows ar [.cls] := by first | assumption | (refine Allows.mono ?_ (by assumption); decide)) :
    Keeps ar s (State.mapTcam t f) := by
  unfold State.mapTcam
  repeat' first
    | with_reducible assumption
    | exact Allows.mono (by decide) hp
    | with_reducible intro _
    | with_reducible apply State.setCls_keeps

theorem State.setTcam_keeps {ar : List Area} {s t : State} (h : Keeps ar s t) (i : Nat) (u0 : Tcam)
    (hp : Allows ar [.regs, .cls] := by first | assumption | (refine Allows.mono ?_ (by assumption); decide)) :
    Keeps ar s (State.setTcam t i u0) := by
  unfold State.setTcam
  repeat' first
    | with_reducible assumption
    | exact Allows.mono (by decide) hp
    | with_reducible apply Ins.put_keeps
    | with_reducible apply State.setCls_keeps

theorem State.openStage_keeps {ar : List Area} {s t : State} (h : Keeps ar s t) (k : Nat)
    (hp : Allows ar [.regs, .cls] := by first | assumption | (refine Allows.mono ?_ (by assumption); decide)) :
    Keeps ar s (State.openStage t k) := by
  unfold State.openStage
  repeat' first
    | with_reducible assumption
    | exact Allows.mono (by decide) hp
    | with_reducible intro _
    | with_reducible apply State.fset_keeps
    | with_reducible apply State.mapTcam_keeps
    | with_reducible apply State.setCls_keeps
    | with_reducible apply State.wr_keeps
    | with_reducible apply State.wr64_keeps
    | with_reducible apply Keeps.forEach
    | with_reducible apply Keeps.ite
    | refine Keeps.snd ?_ (by assumption)
    | refine Keeps.snd2 ?_ (by assumption)
    | (lift_lets; intro x; clear_value x)
    | with_reducible apply hx
    | split

theorem State.tcamEnd_keeps {ar : List Area} {s t : State} (h : Keeps ar s t) (r : Nat)
    (hp : Allows ar [.regs] := by first | assumption | (refine Allows.mono ?_ (by assumption); decide)) :
    Keeps ar s (State.tcamEnd t r) := by
  unfold State.tcamEnd
  repeat' first
    | with_reducible assumption
    | exact Allows.mono (by decide) hp
    | with_reducible apply State.fset_keeps

theorem State.wr512_keeps {ar : List Area} {s t : State} (h : Keeps ar s t) (a : Nat) (v : Nat)
    (hp : Allows ar [.regs] := by first | assumption | (refine Allows.mono ?_ (by assumption); decide)) :
    Keeps ar s (State.wr512 t a v) := by
  unfold State.wr512
  repeat' first
    | with_reducible assumption
    | exact Allows.mono (by decide) hp
    | with_reducible intro _
    | with_reducible apply State.wr_keeps
    | with_reducible apply Keeps.forEach

theorem State.tcamWrite_keeps {ar : List Area} {s t : State} (h : Keeps ar s t)
    (hp : Allows ar [.regs, .cls] := by first | assumption | (refine Allows.mono ?_ (by assumption); decide)) :
    Keeps ar s (State.tcamWrite t) := by
  unfold State.tcamWrite
  repeat' first
    | with_reducible assumption
    | exact Allows.mono (by decide) hp
    | with_reducible apply State.setTcam_keeps
    | with_reducible apply State.tcamEnd_keeps
    | with_reducible apply Keeps.ite
    | refine Keeps.snd ?_ (by assumption)
    | refine Keeps.snd2 ?_ (by assumption)
    | with_reducible apply hx
    | split

theorem State.tcamStage_keeps {ar : List Area} {s t : State} (h : Keeps ar s t) (v : Bool)
    (hp : Allows ar [.regs, .cls] := by first | assumption | (refine Allows.mono ?_ (by assumption); decide)) :
    Keeps ar s (State.tcamStage t v) := by
  unfold State.tcamStage
  repeat' first
    | with_reducible assumption
    | exact Allows.mono (by decide) hp
    | with_reducible apply State.setTcam_keeps
    | with_reducible apply State.tcamEnd_keeps
    | with_reducible apply Keeps.ite
    | refine Keeps.snd ?_ (by assumption)
    | refine Keeps.snd2 ?_ (by assumption)
    | split

theorem State.tcamRead_keeps {ar : List Area} {s t : State} (h : Keeps ar s t)
    (hp : Allows ar [.regs] := by first | assumption | (refine Allows.mono ?_ (by assumption); decide)) :
    Keeps ar s (State.tcamRead t) := by
  unfold State.tcamRead
  repeat' first
    | with_reducible assumption
    | exact Allows.mono (by decide) hp
    | with_reducible apply State.fsets_keeps
    | with_reducible apply State.tcamEnd_keeps
    | with_reducible apply State.wr512_keeps
    | with_reducible apply State.wr64_keeps
    | refine Keeps.snd ?_ (by assumption)
    | refine Keeps.snd2 ?_ (by assumption)
    | with_reducible apply hx
    | split

theorem State.tcamOp_keeps {ar : List Area} {s t : State} (h : Keeps ar s t) (op : Nat)
    (hp : Allows ar [.regs, .cls] := by first | assumption | (refine Allows.mono ?_ (by assumption); decide)) :
    Keeps ar s (State.tcamOp t op) := by
  unfold State.tcamOp
  repeat' first
    | with_reducible assumption
    | exact Allows.mono (by decide) hp
    | with_reducible apply State.tcamEnd_keeps
    | with_reducible apply State.tcamRead_keeps
    | with_reducible apply State.tcamStage_keeps
    | with_reducible apply State.tcamWrite_keeps
    | with_reducible apply Keeps.ite

theorem State.commitGo_keeps {ar : List Area} {s t : State} (h : Keeps ar s t)
    (hp : Allows ar [.regs, .cls] := by first | assumption | (refine Allows.mono ?_ (by assumption); decide)) :
    Keeps ar s (State.commitGo t) := by
  unfold State.commitGo
  repeat' first
    | with_reducible assumption
    | exact Allows.mono (by decide) hp
    | with_reducible intro _
    | with_reducible apply State.fset_keeps
    | with_reducible apply State.fsets_keeps
    | with_reducible apply State.mapTcam_keeps
    | with_reducible apply State.setCls_keeps
    | with_reducible apply State.showCourses_keeps
    | with_reducible apply Keeps.ite
    | refine Keeps.snd ?_ (by assumption)
    | refine Keeps.snd2 ?_ (by assumption)
    | with_reducible apply hx
    | split

theorem State.runWaiting_keeps {ar : List Area} {s t : State} (h : Keeps ar s t)
    (hp : Allows ar [.regs, .cls] := by first | assumption | (refine Allows.mono ?_ (by assumption); decide)) :
    Keeps ar s (State.runWaiting t) := by
  unfold State.runWaiting
  repeat' first
    | with_reducible assumption
    | exact Allows.mono (by decide) hp
    | with_reducible intro _
    | with_reducible apply State.commitGo_keeps
    | with_reducible apply State.setCls_keeps
    | with_reducible apply State.tcamOp_keeps
    | with_reducible apply Keeps.forEach
    | with_reducible apply Keeps.ite

theorem State.abandonStage_keeps {ar : List Area} {s t : State} (h : Keeps ar s t)
    (hp : Allows ar [.regs, .cls] := by first | assumption | (refine Allows.mono ?_ (by assumption); decide)) :
    Keeps ar s (State.abandonStage t) := by
  unfold State.abandonStage
  repeat' first
    | with_reducible assumption
    | exact Allows.mono (by decide) hp
    | with_reducible intro _
    | with_reducible apply State.fset_keeps
    | with_reducible apply State.mapTcam_keeps
    | with_reducible apply State.runWaiting_keeps
    | with_reducible apply State.setCls_keeps

theorem State.stageCtlWrite_keeps {ar : List Area} {s t : State} (h : Keeps ar s t) (op : Nat)
    (hp : Allows ar [.regs, .slv, .cls] := by first | assumption | (refine Allows.mono ?_ (by assumption); decide)) :
    Keeps ar s (State.stageCtlWrite t op) := by
  unfold State.stageCtlWrite
  repeat' first
    | with_reducible assumption
    | exact Allows.mono (by decide) hp
    | with_reducible apply State.abandonStage_keeps
    | with_reducible apply State.deny_keeps
    | with_reducible apply State.setCls_keeps
    | with_reducible apply Keeps.ite

theorem State.tcamCmdWrite_keeps {ar : List Area} {s t : State} (h : Keeps ar s t) (op : Nat)
    (hp : Allows ar [.regs, .cls] := by first | assumption | (refine Allows.mono ?_ (by assumption); decide)) :
    Keeps ar s (State.tcamCmdWrite t op) := by
  unfold State.tcamCmdWrite
  repeat' first
    | with_reducible assumption
    | exact Allows.mono (by decide) hp
    | with_reducible apply State.setCls_keeps
    | with_reducible apply State.tcamOp_keeps
    | with_reducible apply Keeps.ite

theorem State.tcamCmd_keeps {ar : List Area} {s t : State} (h : Keeps ar s t) (fn : Nat) (op : Nat)
    (hp : Allows ar [.regs, .slv, .out, .free, .trigs, .frames, .ports, .flt, .trunks, .node, .pipes, .gload, .cls, .emem, .funcs, .qps, .mem, .dmas] := by first | assumption | (refine Allows.mono ?_ (by assumption); decide)) :
    Keeps ar s (State.tcamCmd t fn op) := by
  unfold State.tcamCmd
  repeat' first
    | with_reducible assumption
    | exact Allows.mono (by decide) hp
    | with_reducible intro _
    | with_reducible apply State.access_keeps
    | with_reducible apply State.tcamCmdWrite_keeps

theorem State.commitWrite_keeps {ar : List Area} {s t : State} (h : Keeps ar s t) (go : Bool) (data : Word)
    (hp : Allows ar [.regs, .stage, .slv, .cls] := by first | assumption | (refine Allows.mono ?_ (by assumption); decide)) :
    Keeps ar s (State.commitWrite t go data) := by
  unfold State.commitWrite
  repeat' first
    | with_reducible assumption
    | exact Allows.mono (by decide) hp
    | with_reducible apply State.commitGo_keeps
    | with_reducible apply State.setCls_keeps
    | with_reducible apply State.writeFields_keeps
    | with_reducible apply Keeps.ite

theorem State.emCmdWrite_keeps {ar : List Area} {s t : State} (h : Keeps ar s t) (op : Nat) (data : Word)
    (hp : Allows ar [.regs, .stage, .slv, .cls] := by first | assumption | (refine Allows.mono ?_ (by assumption); decide)) :
    Keeps ar s (State.emCmdWrite t op data) := by
  unfold State.emCmdWrite
  repeat' first
    | with_reducible assumption
    | exact Allows.mono (by decide) hp
    | with_reducible apply State.fset_keeps
    | with_reducible apply State.raise_keeps
    | with_reducible apply State.setCls_keeps
    | with_reducible apply State.writeFields_keeps
    | with_reducible apply Keeps.ite

theorem State.emCmd_keeps {ar : List Area} {s t : State} (h : Keeps ar s t) (fn : Nat) (op : Nat) (data : Word)
    (hp : Allows ar [.regs, .stage, .slv, .out, .free, .trigs, .frames, .ports, .flt, .trunks, .node, .pipes, .gload, .cls, .emem, .funcs, .qps, .mem, .dmas] := by first | assumption | (refine Allows.mono ?_ (by assumption); decide)) :
    Keeps ar s (State.emCmd t fn op data) := by
  unfold State.emCmd
  repeat' first
    | with_reducible assumption
    | exact Allows.mono (by decide) hp
    | with_reducible intro _
    | with_reducible apply State.access_keeps
    | with_reducible apply State.emCmdWrite_keeps

theorem State.emRead_keeps {ar : List Area} {s t : State} (h : Keeps ar s t) (hh : Nat) (typ : Nat) (key : List Byte)
    (hp : Allows ar [.regs] := by first | assumption | (refine Allows.mono ?_ (by assumption); decide)) :
    Keeps ar s (State.emRead t hh typ key).2 := by
  unfold State.emRead
  repeat' first
    | with_reducible assumption
    | exact Allows.mono (by decide) hp
    | with_reducible intro _
    | with_reducible apply State.denyRegion_keeps
    | with_reducible apply Keeps.ite
    | refine Keeps.snd ?_ (by assumption)
    | refine Keeps.snd2 ?_ (by assumption)
    | (lift_lets; intro x; clear_value x)
    | with_reducible apply hx
    | split

theorem State.freeEm_keeps {ar : List Area} {s t : State} (h : Keeps ar s t)
    (hp : Allows ar [.regs, .mem] := by first | assumption | (refine Allows.mono ?_ (by assumption); decide)) :
    Keeps ar s (State.freeEm t) := by
  unfold State.freeEm
  repeat' first
    | with_reducible assumption
    | exact Allows.mono (by decide) hp
    | with_reducible intro _
    | with_reducible apply State.freeGran_keeps
    | with_reducible apply State.setGran_keeps
    | with_reducible apply Keeps.forEach

theorem State.reserveEm_keeps {ar : List Area} {s t : State} (h : Keeps ar s t) (hh : Nat) (n : Nat)
    (hp : Allows ar [.regs, .mem] := by first | assumption | (refine Allows.mono ?_ (by assumption); decide)) :
    Keeps ar s (State.reserveEm t hh n) := by
  unfold State.reserveEm
  repeat' first
    | with_reducible assumption
    | exact Allows.mono (by decide) hp
    | with_reducible intro _
    | with_reducible apply State.setGran_keeps
    | with_reducible apply Keeps.forEach
    | refine Keeps.snd ?_ (by assumption)
    | refine Keeps.snd2 ?_ (by assumption)
    | split

theorem State.emCfgWrite_keeps {ar : List Area} {s t : State} (h : Keeps ar s t) (data : Word)
    (hp : Allows ar [.regs, .stage, .slv, .cls, .ems, .mem] := by first | assumption | (refine Allows.mono ?_ (by assumption); decide)) :
    Keeps ar s (State.emCfgWrite t data) := by
  unfold State.emCfgWrite
  repeat' first
    | with_reducible assumption
    | exact Allows.mono (by decide) hp
    | with_reducible intro _
    | with_reducible apply State.deny_keeps
    | with_reducible apply State.freeEm_keeps
    | with_reducible apply State.reserveEm_keeps
    | with_reducible apply State.setCls_keeps
    | with_reducible apply State.setEms_keeps
    | with_reducible apply State.writeFields_keeps
    | with_reducible apply Keeps.forEach
    | with_reducible apply Keeps.ite

theorem State.flushWrite_keeps {ar : List Area} {s t : State} (h : Keeps ar s t) (go : Bool) (data : Word)
    (hp : Allows ar [.regs, .stage, .slv, .cls] := by first | assumption | (refine Allows.mono ?_ (by assumption); decide)) :
    Keeps ar s (State.flushWrite t go data) := by
  unfold State.flushWrite
  repeat' first
    | with_reducible assumption
    | exact Allows.mono (by decide) hp
    | with_reducible apply State.flushGen_keeps
    | with_reducible apply State.writeFields_keeps
    | with_reducible apply Keeps.ite

end Sys2Proof.Machine
end

