-- ==== Sys2Proof/Laws/KeepsUnits.lean ====
section
/-!
SUPPORT. Every operation keeps the pieces of State it does not name, and the canonical form (Keeps): engines, threads, queues, DMA, memories, check units.
Each lemma follows its definition, rule by rule.
-/
set_option Elab.async false
namespace Sys2Proof.Machine

/-! ### Machine/Engine.lean -/

theorem State.denyFrame_keeps {ar : List Area} {s t : State} (h : Keeps ar s t) (e : Nat) (write : Bool) (f : Frame) (l : List Nat) (gs : List Nat)
    (hp : Allows ar [.regs] := by first | assumption | (refine Allows.mono ?_ (by assumption); decide)) :
    Keeps ar s (State.denyFrame t e write f l gs) := by
  unfold State.denyFrame
  repeat' first
    | with_reducible assumption
    | exact Allows.mono (by decide) hp
    | with_reducible intro _
    | with_reducible apply State.denyRegion_keeps
    | refine Keeps.snd ?_ (by assumption)
    | refine Keeps.snd2 ?_ (by assumption)
    | split

theorem State.waitDone_keeps {ar : List Area} {s t : State} (h : Keeps ar s t) (e : Nat) (n : Nat) (mask : Nat) (dest : Nat)
    (hp : Allows ar [.regs] := by first | assumption | (refine Allows.mono ?_ (by assumption); decide)) :
    Keeps ar s (State.waitDone t e n mask dest) := by
  unfold State.waitDone
  repeat' first
    | with_reducible assumption
    | exact Allows.mono (by decide) hp
    | with_reducible apply State.setGreg_keeps
    | with_reducible apply State.wr_keeps

theorem thcExec_keeps {ar : List Area} {s t : State} (h : Keeps ar s t) (f : Ins → Nat → State → Option State)
    (hf : ∀ i n u, Keeps ar s u → KeepsOpt ar s (f i n u)) (i : Ins)
    (hp : Allows ar [.regs, .out, .free, .trigs, .frames, .ports, .flt, .trunks, .node, .pipes, .gload, .cls, .emem, .funcs, .qps, .mem, .dmas] := by first | assumption | (refine Allows.mono ?_ (by assumption); decide)) : KeepsOpt ar s (thcExec f i t) :=
  KeepsOpt.ite (hf _ _ _ h) (Ins.fault_keeps h _ _)

theorem thcSet_keeps {ar : List Area} {s t : State} (h : Keeps ar s t) (f : Ins → Nat → State → State)
    (hf : ∀ i n u, Keeps ar s u → Keeps ar s (f i n u)) (i : Ins)
    (hp : Allows ar [.regs, .out, .free, .trigs, .frames, .ports, .flt, .trunks, .node, .pipes, .gload, .cls, .threads, .emem, .funcs, .qps, .mem, .dmas] := by first | assumption | (refine Allows.mono ?_ (by assumption); decide)) : KeepsOpt ar s (thcSet f i t) :=
  thcExec_keeps h _ (fun _ _ _ hu => Ins.done_keeps
    (Keeps.ite (State.setV_keeps (hf _ _ _ hu) _ _ _) (State.setV_keeps hu _ _ _)) _) i

/-! ### Machine/Thread.lean -/

theorem State.thrCtlWrite_keeps {ar : List Area} {s t : State} (h : Keeps ar s t) (fn : Nat) (e : Nat) (n : Nat) (data : Word) (met : Bool)
    (hp : Allows ar [.regs, .slv, .out, .free, .trigs, .frames, .ports, .flt, .trunks, .node, .pipes, .gload, .cls, .emem, .funcs, .qps, .mem, .dmas] := by first | assumption | (refine Allows.mono ?_ (by assumption); decide)) :
    Keeps ar s (State.thrCtlWrite t fn e n data met) := by
  unfold State.thrCtlWrite
  repeat' first
    | with_reducible assumption
    | exact Allows.mono (by decide) hp
    | with_reducible intro _
    | with_reducible apply State.access_keeps
    | with_reducible apply State.ctlThread_keeps

theorem State.ceCtlWrite_keeps {ar : List Area} {s t : State} (h : Keeps ar s t) (e : Nat) (data : Word) (met : Nat)
    (hp : Allows ar [.regs, .stage, .slv] := by first | assumption | (refine Allows.mono ?_ (by assumption); decide)) :
    Keeps ar s (State.ceCtlWrite e data met t) := by
  unfold State.ceCtlWrite
  repeat' first
    | with_reducible assumption
    | exact Allows.mono (by decide) hp
    | with_reducible intro _
    | with_reducible apply State.deny_keeps
    | with_reducible apply State.haltEngine_keeps
    | with_reducible apply State.runRelease_keeps
    | with_reducible apply State.setFlag_keeps
    | with_reducible apply State.wr_keeps
    | with_reducible apply State.writeFields_keeps
    | with_reducible apply Keeps.forEach
    | with_reducible apply Keeps.ite

/-! ### Machine/Queue.lean -/

theorem State.qAccess_keeps {ar : List Area} {s t : State} (h : Keeps ar s t) (fn : Nat) (q : Nat) (ofs : Nat) (f : State → State) (hf : ∀ u, Keeps ar s u → Keeps ar s (f u))
    (hp : Allows ar [.regs, .slv, .out, .free, .trigs, .frames, .ports, .flt, .trunks, .node, .pipes, .gload, .cls, .emem, .funcs, .qps, .mem, .dmas] := by first | assumption | (refine Allows.mono ?_ (by assumption); decide)) :
    Keeps ar s (State.qAccess t fn q ofs f) := by
  unfold State.qAccess
  repeat' first
    | with_reducible assumption
    | exact Allows.mono (by decide) hp
    | with_reducible intro _
    | with_reducible apply hf
    | with_reducible apply State.answer_keeps
    | with_reducible apply State.deny_keeps
    | with_reducible apply State.logDenied_keeps
    | with_reducible apply Keeps.ite

theorem State.dbIgnored_keeps {ar : List Area} {s t : State} (h : Keeps ar s t) (q : Nat)
    (hp : Allows ar [.regs, .funcs, .qps] := by first | assumption | (refine Allows.mono ?_ (by assumption); decide)) :
    Keeps ar s (State.dbIgnored t q) := by
  unfold State.dbIgnored
  repeat' first
    | with_reducible assumption
    | exact Allows.mono (by decide) hp
    | with_reducible apply State.qCnt_keeps
    | with_reducible apply State.queueFault_keeps
    | with_reducible apply State.setQp_keeps

theorem State.dbRing_keeps {ar : List Area} {s t : State} (h : Keeps ar s t) (q : Nat) (ring : Nat) (data : Word)
    (hp : Allows ar [.regs, .funcs, .qps] := by first | assumption | (refine Allows.mono ?_ (by assumption); decide)) :
    Keeps ar s (State.dbRing t q ring data) := by
  unfold State.dbRing
  repeat' first
    | with_reducible assumption
    | exact Allows.mono (by decide) hp
    | with_reducible apply State.cntAdd_keeps
    | with_reducible apply State.dbIgnored_keeps
    | with_reducible apply State.setQp_keeps
    | with_reducible apply Keeps.ite

theorem State.dbCq_keeps {ar : List Area} {s t : State} (h : Keeps ar s t) (q : Nat) (data : Word)
    (hp : Allows ar [.regs, .funcs, .qps] := by first | assumption | (refine Allows.mono ?_ (by assumption); decide)) :
    Keeps ar s (State.dbCq t q data) := by
  unfold State.dbCq
  repeat' first
    | with_reducible assumption
    | exact Allows.mono (by decide) hp
    | with_reducible apply State.dbIgnored_keeps
    | with_reducible apply State.setQp_keeps
    | with_reducible apply Keeps.ite

theorem State.unpush_keeps {ar : List Area} {s t : State} (h : Keeps ar s t) (q : Nat) (ring : Nat) (i : Nat)
    (hp : Allows ar [.qps] := by first | assumption | (refine Allows.mono ?_ (by assumption); decide)) :
    Keeps ar s (State.unpush t q ring i) := by
  unfold State.unpush
  repeat' first
    | with_reducible assumption
    | exact Allows.mono (by decide) hp
    | with_reducible apply State.setQp_keeps

theorem State.toService_keeps {ar : List Area} {s t : State} (h : Keeps ar s t) (q : Nat) (desc : Nat) (fid : Nat)
    (hp : Allows ar [.regs, .threads, .qps] := by first | assumption | (refine Allows.mono ?_ (by assumption); decide)) :
    Keeps ar s (State.toService t q desc fid) := by
  unfold State.toService
  repeat' first
    | with_reducible assumption
    | exact Allows.mono (by decide) hp
    | with_reducible apply State.enterThread_keeps
    | with_reducible apply State.hostDone_keeps
    | with_reducible apply State.setQp_keeps
    | with_reducible apply Keeps.ite

theorem State.sendHost_keeps {ar : List Area} {s t : State} (h : Keeps ar s t) (q : Nat) (desc : Nat) (fid : Nat) (d : TxDesc)
    (hp : Allows ar [.regs, .frames, .ports, .cls, .ems, .threads, .emem, .qps] := by first | assumption | (refine Allows.mono ?_ (by assumption); decide)) :
    Keeps ar s (State.sendHost t q desc fid d) := by
  unfold State.sendHost
  repeat' first
    | with_reducible assumption
    | exact Allows.mono (by decide) hp
    | with_reducible apply State.learn_keeps
    | with_reducible apply State.resolve_keeps
    | with_reducible apply State.send_keeps
    | with_reducible apply State.setQp_keeps
    | with_reducible apply State.takeSeq_keeps

theorem State.txRefused_keeps {ar : List Area} {s t : State} (h : Keeps ar s t) (q : Nat) (u0 : HostTx)
    (hp : Allows ar [.regs, .qps] := by first | assumption | (refine Allows.mono ?_ (by assumption); decide)) :
    Keeps ar s (State.txRefused t q u0) := by
  unfold State.txRefused
  repeat' first
    | with_reducible assumption
    | exact Allows.mono (by decide) hp
    | with_reducible apply State.setQp_keeps
    | with_reducible apply State.settleQp_keeps

theorem State.takeDesc_keeps {ar : List Area} {s t : State} (h : Keeps ar s t) (q : Nat) (bs : List Byte) (err : Bool) (derr : Bool) (data : List Byte)
    (hp : Allows ar [.regs, .out, .free, .frames, .nextFrame, .ports, .cls, .ems, .threads, .emem, .funcs, .qps, .mem] := by first | assumption | (refine Allows.mono ?_ (by assumption); decide)) :
    Keeps ar s (State.takeDesc t q bs err derr data) := by
  unfold State.takeDesc
  repeat' first
    | with_reducible assumption
    | exact Allows.mono (by decide) hp
    | with_reducible apply State.hostRead_keeps
    | with_reducible apply State.memCnt_keeps
    | with_reducible apply State.newFrame_keeps
    | with_reducible apply State.qCnt_keeps
    | with_reducible apply State.queueFault_keeps
    | with_reducible apply State.sendHost_keeps
    | with_reducible apply State.setQp_keeps
    | with_reducible apply State.settleQp_keeps
    | with_reducible apply State.tidy_keeps
    | with_reducible apply State.toService_keeps
    | with_reducible apply State.txRefused_keeps
    | with_reducible apply State.unpush_keeps
    | with_reducible apply State.writeParts_keeps
    | with_reducible apply Keeps.ite
    | refine State.place_keeps ?_ _ _ _ _ _ (by assumption) (Allows.mono (by decide) hp)
    | refine Keeps.snd ?_ (by assumption)
    | refine Keeps.snd2 ?_ (by assumption)
    | (lift_lets; intro x; clear_value x)
    | with_reducible apply hx
    | split
    | dsimp only

theorem State.rxPrefix_keeps {ar : List Area} {s t : State} (h : Keeps ar s t) (f : Frame)
    (hp : Allows ar [.free] := by first | assumption | (refine Allows.mono ?_ (by assumption); decide)) :
    Keeps ar s (State.rxPrefix t f).2 := by
  unfold State.rxPrefix
  repeat' first
    | with_reducible assumption
    | exact Allows.mono (by decide) hp
    | with_reducible apply State.freeBytes_keeps
    | refine Keeps.snd ?_ (by assumption)
    | refine Keeps.snd2 ?_ (by assumption)
    | (lift_lets; intro x; clear_value x)
    | with_reducible apply hx
    | split

theorem State.rxEnded_keeps {ar : List Area} {s t : State} (h : Keeps ar s t) (w : RxWait) (took : Bool)
    (hp : Allows ar [.regs, .frames, .ports, .qps, .mem] := by first | assumption | (refine Allows.mono ?_ (by assumption); decide)) :
    Keeps ar s (State.rxEnded t w took) := by
  unfold State.rxEnded
  repeat' first
    | with_reducible assumption
    | exact Allows.mono (by decide) hp
    | with_reducible apply State.rxGone_keeps
    | with_reducible apply State.tidy_keeps

theorem State.fillRx_keeps {ar : List Area} {s t : State} (h : Keeps ar s t) (q : Nat) (r : RxRun) (f : Frame) (err : Nat)
    (l : List RxDesc)
    (hp : Allows ar [.regs, .out, .free, .frames, .ports, .funcs, .qps, .mem] := by first | assumption | (refine Allows.mono ?_ (by assumption); decide)) : Keeps ar s (t.fillRx q r f err l) := by
  induction l generalizing t r with
  | nil => exact State.setQp_keeps h _ _
  | cons d l ih =>
    unfold State.fillRx
    lift_lets
    intro p i first pushed s1 done s2 pre x n s3
    have h1 : Keeps ar s s1 := State.unpush_keeps (Keeps.ite h (State.hostRead_keeps h _ _ _)) _ _ _
    have hd : ∀ u st len more, Keeps ar s u → Keeps ar s (done u st len more) :=
      fun u st len more hu => State.setQp_keeps hu _ _
    have h2 : Keeps ar s s2 := Keeps.ite (State.queueFault_keeps h1 _ _) h1
    have hx : Keeps ar s x.2 := by
      have hv : ∀ v, Keeps ar s v → Keeps ar s (v.rxPrefix f).2 := fun v hv => State.rxPrefix_keeps hv f
      show Keeps ar s (if pre = true then s1.rxPrefix f else ([], s1)).2
      split
      · exact hv _ h1
      · exact h1
    have h3 : Keeps ar s s3 := State.hostWrite_keeps hx _ _ _
    clear_value done s3 x
    clear_value s2
    clear_value s1
    split
    · exact State.setQp_keeps h _ _
    split
    · exact ih (hd _ _ _ _ h2) _
    split
    · exact State.rxEnded_keeps (hd _ _ _ _ h3) _ _
    split
    · exact ih (hd _ _ _ _ h3) _
    · exact State.rxEnded_keeps (State.qCnt_keeps (hd _ _ _ _ h3) _) _ _

theorem State.rxNext_keeps {ar : List Area} {s t : State} (h : Keeps ar s t) (q : Nat) (err : Nat) (l : List RxDesc)
    (hp : Allows ar [.regs, .out, .free, .frames, .ports, .funcs, .qps, .mem] := by first | assumption | (refine Allows.mono ?_ (by assumption); decide)) :
    Keeps ar s (State.rxNext t q err l) := by
  unfold State.rxNext
  repeat' first
    | with_reducible assumption
    | exact Allows.mono (by decide) hp
    | with_reducible intro _
    | with_reducible apply Ins.done_keeps
    | with_reducible apply State.fillRx_keeps
    | with_reducible apply State.freeBytes_keeps
    | with_reducible apply State.meetPoison_keeps
    | with_reducible apply State.qCnt_keeps
    | with_reducible apply State.readParts_keeps
    | with_reducible apply State.rxEnded_keeps
    | with_reducible apply State.setQp_keeps
    | with_reducible apply Keeps.ite
    | refine Keeps.snd ?_ (by assumption)
    | refine Keeps.snd2 ?_ (by assumption)
    | (lift_lets; intro x; clear_value x)
    | with_reducible apply hx
    | split

theorem State.admin0Write_keeps {ar : List Area} {s t : State} (h : Keeps ar s t) (data : Word)
    (hp : Allows ar [.regs, .slv, .qps] := by first | assumption | (refine Allows.mono ?_ (by assumption); decide)) :
    Keeps ar s (State.admin0Write t data) := by
  unfold State.admin0Write
  repeat' first
    | with_reducible assumption
    | exact Allows.mono (by decide) hp
    | with_reducible apply State.deny_keeps
    | with_reducible apply State.fset_keeps
    | with_reducible apply State.fsets_keeps
    | with_reducible apply State.setQp_keeps
    | with_reducible apply Keeps.ite

/-! ### Machine/Admin.lean -/

theorem admErr_keeps {ar : List Area} {s t : State} (h : Keeps ar s t) (code : Nat) :
    Keeps ar s (admErr code t).2 := by
  unfold admErr
  repeat' first
    | with_reducible assumption

theorem State.admDone_keeps {ar : List Area} {s t : State} (h : Keeps ar s t) (f : Nat) (tag : Nat) (r : AdmRes)
    (hp : Allows ar [.regs, .qps] := by first | assumption | (refine Allows.mono ?_ (by assumption); decide)) :
    Keeps ar s (State.admDone t f tag r) := by
  unfold State.admDone
  repeat' first
    | with_reducible assumption
    | exact Allows.mono (by decide) hp
    | with_reducible intro _
    | with_reducible apply State.qCnt_keeps
    | with_reducible apply State.setQp_keeps

theorem State.admTake_keeps {ar : List Area} {s t : State} (h : Keeps ar s t) (f : Nat)
    (hp : Allows ar [.out, .qps, .admin] := by first | assumption | (refine Allows.mono ?_ (by assumption); decide)) :
    Keeps ar s (State.admTake t f) := by
  unfold State.admTake
  repeat' first
    | with_reducible assumption
    | exact Allows.mono (by decide) hp
    | with_reducible intro _
    | with_reducible apply State.hostRead_keeps
    | with_reducible apply State.setAdmin_keeps
    | with_reducible apply State.setQp_keeps
    | with_reducible apply State.unpush_keeps
    | with_reducible apply Keeps.ite

theorem State.admin1_keeps {ar : List Area} {s t : State} (h : Keeps ar s t) (f : Nat) (cmd : List Byte) (err : Bool) (op : Nat → Bool) (any : Bool) (fn0 : Bool) (body : State → Option AdmRes × State) (hbody : ∀ u, Keeps ar s u → Keeps ar s (body u).2)
    (hp : Allows ar [.regs, .out, .qps, .admin] := by first | assumption | (refine Allows.mono ?_ (by assumption); decide)) :
    Keeps ar s (State.admin1 t f cmd err op any fn0 body) := by
  unfold State.admin1
  repeat' first
    | with_reducible assumption
    | exact Allows.mono (by decide) hp
    | with_reducible intro _
    | with_reducible apply hbody
    | with_reducible apply State.admDone_keeps
    | with_reducible apply State.admTake_keeps
    | with_reducible apply Keeps.ite
    | refine Keeps.snd ?_ (by assumption)
    | refine Keeps.snd2 ?_ (by assumption)
    | with_reducible apply hx
    | split

theorem State.createFunction_keeps {ar : List Area} {s t : State} (h : Keeps ar s t) (c : List Byte) (fails : Nat)
    (hp : Allows ar [.regs, .out, .free, .trigs, .frames, .ports, .flt, .trunks, .node, .pipes, .gload, .cls, .emem, .funcs, .qps, .mem, .dmas] := by first | assumption | (refine Allows.mono ?_ (by assumption); decide)) :
    Keeps ar s (State.createFunction t c fails).2 := by
  unfold State.createFunction
  repeat' first
    | with_reducible assumption
    | exact Allows.mono (by decide) hp
    | with_reducible intro _
    | with_reducible apply admErr_keeps
    | with_reducible apply State.fset_keeps
    | with_reducible apply State.logFault_keeps
    | with_reducible apply State.raiseMem_keeps
    | with_reducible apply State.setFunc_keeps
    | with_reducible apply State.setQp_keeps
    | with_reducible apply State.useFree_keeps
    | with_reducible apply Keeps.ite
    | refine Keeps.snd ?_ (by assumption)
    | refine Keeps.snd2 ?_ (by assumption)
    | (lift_lets; intro x; refine (?_ : Keeps ar s x → _) ?_ <;> [(intro _; clear_value x); skip])
    | (lift_lets; intro x; clear_value x)
    | with_reducible apply hx
    | split

theorem State.setQuota_keeps {ar : List Area} {s t : State} (h : Keeps ar s t) (c : List Byte)
    (hp : Allows ar [.regs, .funcs, .qps] := by first | assumption | (refine Allows.mono ?_ (by assumption); decide)) :
    Keeps ar s (State.setQuota t c).2 := by
  unfold State.setQuota
  repeat' first
    | with_reducible assumption
    | exact Allows.mono (by decide) hp
    | with_reducible intro _
    | with_reducible apply admErr_keeps
    | with_reducible apply State.quotaCheck_keeps
    | with_reducible apply State.setFunc_keeps
    | with_reducible apply State.setQp_keeps
    | with_reducible apply Keeps.forEach
    | with_reducible apply Keeps.ite
    | (lift_lets; intro x; clear_value x)
    | with_reducible apply hx
    | split

theorem State.createQueue_keeps {ar : List Area} {s t : State} (h : Keeps ar s t) (f : Nat) (c : List Byte)
    (hp : Allows ar [.qps] := by first | assumption | (refine Allows.mono ?_ (by assumption); decide)) :
    Keeps ar s (State.createQueue t f c).2 := by
  unfold State.createQueue
  repeat' first
    | with_reducible assumption
    | exact Allows.mono (by decide) hp
    | with_reducible intro _
    | with_reducible apply admErr_keeps
    | with_reducible apply State.setQp_keeps
    | with_reducible apply Keeps.foldl
    | with_reducible apply Keeps.foldl2
    | with_reducible apply Keeps.ite
    | refine Keeps.snd ?_ (by assumption)
    | refine Keeps.snd2 ?_ (by assumption)
    | (lift_lets; intro x; refine (?_ : Keeps ar s x → _) ?_ <;> [(intro _; clear_value x); skip])
    | (lift_lets; intro x; clear_value x)
    | with_reducible apply hx
    | split

theorem State.bindPort_keeps {ar : List Area} {s t : State} (h : Keeps ar s t) (f : Nat) (c : List Byte)
    (hp : Allows ar [.qps] := by first | assumption | (refine Allows.mono ?_ (by assumption); decide)) :
    Keeps ar s (State.bindPort t f c).2 := by
  unfold State.bindPort
  repeat' first
    | with_reducible assumption
    | exact Allows.mono (by decide) hp
    | with_reducible intro _
    | with_reducible apply admErr_keeps
    | with_reducible apply State.setQp_keeps
    | with_reducible apply Keeps.ite
    | refine Keeps.snd ?_ (by assumption)
    | refine Keeps.snd2 ?_ (by assumption)
    | (lift_lets; intro x; clear_value x)
    | with_reducible apply hx
    | split

theorem State.bindClass_keeps {ar : List Area} {s t : State} (h : Keeps ar s t) (f : Nat) (c : List Byte)
    (hp : Allows ar [.binds] := by first | assumption | (refine Allows.mono ?_ (by assumption); decide)) :
    Keeps ar s (State.bindClass t f c).2 := by
  unfold State.bindClass
  repeat' first
    | with_reducible assumption
    | exact Allows.mono (by decide) hp
    | with_reducible intro _
    | with_reducible apply admErr_keeps
    | with_reducible apply State.setBinds_keeps
    | with_reducible apply Keeps.ite
    | refine Keeps.snd ?_ (by assumption)
    | refine Keeps.snd2 ?_ (by assumption)
    | (lift_lets; intro x; clear_value x)
    | with_reducible apply hx
    | split

theorem State.query_keeps {ar : List Area} {s t : State} (h : Keeps ar s t) (f : Nat) (c : List Byte) :
    Keeps ar s (State.query t f c).2 := by
  unfold State.query
  repeat' first
    | with_reducible assumption
    | with_reducible intro _
    | with_reducible apply admErr_keeps
    | with_reducible apply Keeps.ite
    | refine Keeps.snd ?_ (by assumption)
    | refine Keeps.snd2 ?_ (by assumption)
    | (lift_lets; intro x; clear_value x)
    | with_reducible apply hx
    | split

theorem State.dropHostTx_keeps {ar : List Area} {s t : State} (h : Keeps ar s t) (q : Nat) (d : Nat)
    (hp : Allows ar [.regs, .frames, .ports, .emem, .qps, .mem] := by first | assumption | (refine Allows.mono ?_ (by assumption); decide)) :
    Keeps ar s (State.dropHostTx t q d) := by
  unfold State.dropHostTx
  repeat' first
    | with_reducible assumption
    | exact Allows.mono (by decide) hp
    | with_reducible intro _
    | with_reducible apply State.copyGone_keeps
    | with_reducible apply State.hostDone_keeps
    | with_reducible apply State.setPort_keeps
    | with_reducible apply State.setQp_keeps
    | with_reducible apply Keeps.forEach

theorem State.startDestroy_keeps {ar : List Area} {s t : State} (h : Keeps ar s t) (q : Nat)
    (hp : Allows ar [.regs, .frames, .ports, .emem, .qps, .mem] := by first | assumption | (refine Allows.mono ?_ (by assumption); decide)) :
    Keeps ar s (State.startDestroy t q) := by
  unfold State.startDestroy
  repeat' first
    | with_reducible assumption
    | exact Allows.mono (by decide) hp
    | with_reducible intro _
    | with_reducible apply State.dropHostTx_keeps
    | with_reducible apply State.hostDone_keeps
    | with_reducible apply State.rxGone_keeps
    | with_reducible apply State.setQp_keeps
    | with_reducible apply State.tidy_keeps
    | with_reducible apply Keeps.forEach

theorem State.admBusy_keeps {ar : List Area} {s t : State} (h : Keeps ar s t) (f : Nat) (d : Destroy)
    (hp : Allows ar [.regs, .admin] := by first | assumption | (refine Allows.mono ?_ (by assumption); decide)) :
    Keeps ar s (State.admBusy t f d) := by
  unfold State.admBusy
  repeat' first
    | with_reducible assumption
    | exact Allows.mono (by decide) hp
    | with_reducible apply State.fsets_keeps
    | with_reducible apply State.setAdmin_keeps

theorem State.destroyQueue_keeps {ar : List Area} {s t : State} (h : Keeps ar s t) (f : Nat) (c : List Byte)
    (hp : Allows ar [.regs, .frames, .ports, .emem, .qps, .admin, .mem] := by first | assumption | (refine Allows.mono ?_ (by assumption); decide)) :
    Keeps ar s (State.destroyQueue t f c).2 := by
  unfold State.destroyQueue
  repeat' first
    | with_reducible assumption
    | exact Allows.mono (by decide) hp
    | with_reducible apply State.admBusy_keeps
    | with_reducible apply State.startDestroy_keeps
    | with_reducible apply Keeps.ite
    | refine Keeps.snd ?_ (by assumption)
    | refine Keeps.snd2 ?_ (by assumption)
    | split

theorem State.destroyFunction_keeps {ar : List Area} {s t : State} (h : Keeps ar s t) (c : List Byte)
    (hp : Allows ar [.regs, .frames, .ports, .emem, .funcs, .qps, .admin, .mem] := by first | assumption | (refine Allows.mono ?_ (by assumption); decide)) :
    Keeps ar s (State.destroyFunction t c).2 := by
  unfold State.destroyFunction
  repeat' first
    | with_reducible assumption
    | exact Allows.mono (by decide) hp
    | with_reducible intro _
    | with_reducible apply State.admBusy_keeps
    | with_reducible apply State.setFunc_keeps
    | with_reducible apply State.startDestroy_keeps
    | with_reducible apply Keeps.forEach
    | with_reducible apply Keeps.ite
    | (lift_lets; intro x; clear_value x)
    | with_reducible apply hx
    | split

theorem State.freeQpNow_keeps {ar : List Area} {s t : State} (h : Keeps ar s t) (q : Nat)
    (hp : Allows ar [.qps, .binds] := by first | assumption | (refine Allows.mono ?_ (by assumption); decide)) :
    Keeps ar s (State.freeQpNow t q) := by
  unfold State.freeQpNow
  repeat' first
    | with_reducible assumption
    | exact Allows.mono (by decide) hp
    | with_reducible intro _
    | with_reducible apply State.setBinds_keeps
    | with_reducible apply State.setQp_keeps

theorem State.freeFnGrans_keeps {ar : List Area} {s t : State} (h : Keeps ar s t) (fn : Nat)
    (hp : Allows ar [.regs, .frames, .mem] := by first | assumption | (refine Allows.mono ?_ (by assumption); decide)) :
    Keeps ar s (State.freeFnGrans t fn) := by
  unfold State.freeFnGrans
  repeat' first
    | with_reducible assumption
    | exact Allows.mono (by decide) hp
    | with_reducible intro _
    | with_reducible apply State.freeGran_keeps
    | with_reducible apply State.setFrames_keeps
    | with_reducible apply Keeps.forEach

/-! ### Machine/Dma.lean -/

theorem State.dmaGo_keeps {ar : List Area} {s t : State} (h : Keeps ar s t) (n : Nat)
    (hp : Allows ar [.regs, .dmas] := by first | assumption | (refine Allows.mono ?_ (by assumption); decide)) :
    Keeps ar s (State.dmaGo t n) := by
  unfold State.dmaGo
  repeat' first
    | with_reducible assumption
    | exact Allows.mono (by decide) hp
    | with_reducible apply State.dmaEnd_keeps
    | with_reducible apply State.fset_keeps
    | with_reducible apply State.setDma_keeps
    | with_reducible apply State.setDmaState_keeps
    | with_reducible apply State.wr64_keeps
    | with_reducible apply Keeps.ite

theorem State.dmaResume_keeps {ar : List Area} {s t : State} (h : Keeps ar s t) (n : Nat)
    (hp : Allows ar [.regs] := by first | assumption | (refine Allows.mono ?_ (by assumption); decide)) :
    Keeps ar s (State.dmaResume t n) := by
  unfold State.dmaResume
  repeat' first
    | with_reducible assumption
    | exact Allows.mono (by decide) hp
    | with_reducible apply State.fset_keeps
    | with_reducible apply State.setDmaState_keeps
    | with_reducible apply Keeps.ite

theorem State.dmaAbort_keeps {ar : List Area} {s t : State} (h : Keeps ar s t) (n : Nat)
    (hp : Allows ar [.regs, .dmas] := by first | assumption | (refine Allows.mono ?_ (by assumption); decide)) :
    Keeps ar s (State.dmaAbort t n) := by
  unfold State.dmaAbort
  repeat' first
    | with_reducible assumption
    | exact Allows.mono (by decide) hp
    | with_reducible apply State.dmaDrain_keeps
    | with_reducible apply State.fsets_keeps
    | with_reducible apply Keeps.ite

theorem State.dmaCtlWrite_keeps {ar : List Area} {s t : State} (h : Keeps ar s t) (n : Nat) (data : Word)
    (hp : Allows ar [.regs, .stage, .slv, .dmas] := by first | assumption | (refine Allows.mono ?_ (by assumption); decide)) :
    Keeps ar s (State.dmaCtlWrite t n data) := by
  unfold State.dmaCtlWrite
  repeat' first
    | with_reducible assumption
    | exact Allows.mono (by decide) hp
    | with_reducible apply State.deny_keeps
    | with_reducible apply State.dmaAbort_keeps
    | with_reducible apply State.dmaGo_keeps
    | with_reducible apply State.dmaPause_keeps
    | with_reducible apply State.dmaResume_keeps
    | with_reducible apply State.fset_keeps
    | with_reducible apply State.writeFields_keeps
    | with_reducible apply Keeps.ite

theorem State.dmaComplete_keeps {ar : List Area} {s t : State} (h : Keeps ar s t) (n : Nat)
    (hp : Allows ar [.regs, .dmas] := by first | assumption | (refine Allows.mono ?_ (by assumption); decide)) :
    Keeps ar s (State.dmaComplete t n) := by
  unfold State.dmaComplete
  repeat' first
    | with_reducible assumption
    | exact Allows.mono (by decide) hp
    | with_reducible apply State.dmaEnd_keeps
    | with_reducible apply State.setDmaState_keeps
    | with_reducible apply Keeps.ite

theorem State.dmaFail_keeps {ar : List Area} {s t : State} (h : Keeps ar s t) (n : Nat) (status : Nat) (addr : Nat)
    (hp : Allows ar [.regs, .dmas] := by first | assumption | (refine Allows.mono ?_ (by assumption); decide)) :
    Keeps ar s (State.dmaFail t n status addr) := by
  unfold State.dmaFail
  repeat' first
    | with_reducible assumption
    | exact Allows.mono (by decide) hp
    | with_reducible apply State.dmaDrain_keeps
    | with_reducible apply State.wr64_keeps

theorem State.dmaNextEntry_keeps {ar : List Area} {s t : State} (h : Keeps ar s t) (n : Nat)
    (hp : Allows ar [.regs, .dmas] := by first | assumption | (refine Allows.mono ?_ (by assumption); decide)) :
    Keeps ar s (State.dmaNextEntry t n) := by
  unfold State.dmaNextEntry
  repeat' first
    | with_reducible assumption
    | exact Allows.mono (by decide) hp
    | with_reducible apply State.dmaFail_keeps
    | with_reducible apply State.wr64_keeps
    | with_reducible apply Keeps.ite

theorem State.dmaEntry_keeps {ar : List Area} {s t : State} (h : Keeps ar s t) (n : Nat) (e : List Byte) (err : Bool)
    (hp : Allows ar [.regs, .out, .dmas] := by first | assumption | (refine Allows.mono ?_ (by assumption); decide)) :
    Keeps ar s (State.dmaEntry t n e err) := by
  unfold State.dmaEntry
  repeat' first
    | with_reducible assumption
    | exact Allows.mono (by decide) hp
    | with_reducible apply State.dmaFail_keeps
    | with_reducible apply State.fsets_keeps
    | with_reducible apply State.listFetch_keeps
    | with_reducible apply State.setDma_keeps
    | with_reducible apply State.wr64_keeps
    | with_reducible apply Keeps.ite

theorem State.dmaWalkOn_keeps {ar : List Area} {s t : State} (h : Keeps ar s t) (n : Nat) (word : Word)
    (hp : Allows ar [.regs, .dmas] := by first | assumption | (refine Allows.mono ?_ (by assumption); decide)) :
    Keeps ar s (State.dmaWalkOn t n word) := by
  unfold State.dmaWalkOn
  repeat' first
    | with_reducible assumption
    | exact Allows.mono (by decide) hp
    | with_reducible apply State.dmaNextEntry_keeps
    | with_reducible apply State.setDma_keeps
    | with_reducible apply Keeps.ite

theorem State.dmaLate_keeps {ar : List Area} {s t : State} (h : Keeps ar s t) (n : Nat) (addr : Nat)
    (hp : Allows ar [.regs, .out, .free, .trigs, .frames, .ports, .flt, .trunks, .node, .pipes, .gload, .cls, .emem, .funcs, .qps, .mem, .dmas] := by first | assumption | (refine Allows.mono ?_ (by assumption); decide)) :
    Keeps ar s (State.dmaLate t n addr) := by
  unfold State.dmaLate
  repeat' first
    | with_reducible assumption
    | exact Allows.mono (by decide) hp
    | with_reducible apply State.logFault_keeps
    | with_reducible apply State.setFlag_keeps
    | with_reducible apply State.wr64_keeps

theorem State.dmaHeadWrite_keeps {ar : List Area} {s t : State} (h : Keeps ar s t) (data : Word)
    (hp : Allows ar [.regs] := by first | assumption | (refine Allows.mono ?_ (by assumption); decide)) :
    Keeps ar s (State.dmaHeadWrite t data) := by
  unfold State.dmaHeadWrite
  repeat' first
    | with_reducible assumption
    | exact Allows.mono (by decide) hp
    | with_reducible apply State.fset_keeps
    | with_reducible apply Keeps.ite

/-! ### Machine/Memory.lean -/

theorem State.bankResult_keeps {ar : List Area} {s t : State} (h : Keeps ar s t) (r : Nat)
    (hp : Allows ar [.regs] := by first | assumption | (refine Allows.mono ?_ (by assumption); decide)) :
    Keeps ar s (State.bankResult t r) := by
  unfold State.bankResult
  repeat' first
    | with_reducible assumption
    | exact Allows.mono (by decide) hp
    | with_reducible apply State.fset_keeps
    | with_reducible apply State.raise_keeps

theorem State.evacuate_keeps {ar : List Area} {s t : State} (h : Keeps ar s t) (b : Nat)
    (hp : Allows ar [.regs, .mem] := by first | assumption | (refine Allows.mono ?_ (by assumption); decide)) :
    Keeps ar s (State.evacuate t b) := by
  unfold State.evacuate
  repeat' first
    | with_reducible assumption
    | exact Allows.mono (by decide) hp
    | with_reducible intro _
    | with_reducible apply State.bankResult_keeps
    | with_reducible apply State.fsets_keeps
    | with_reducible apply State.setMem_keeps
    | with_reducible apply Keeps.foldl
    | with_reducible apply Keeps.foldl2
    | with_reducible apply Keeps.ite
    | rfl

theorem State.releaseBank_keeps {ar : List Area} {s t : State} (h : Keeps ar s t) (b : Nat)
    (hp : Allows ar [.regs] := by first | assumption | (refine Allows.mono ?_ (by assumption); decide)) :
    Keeps ar s (State.releaseBank t b) := by
  unfold State.releaseBank
  repeat' first
    | with_reducible assumption
    | exact Allows.mono (by decide) hp
    | with_reducible apply State.bankResult_keeps
    | with_reducible apply State.fset_keeps
    | with_reducible apply Keeps.ite

theorem State.bankCmdWrite_keeps {ar : List Area} {s t : State} (h : Keeps ar s t) (data : Word)
    (hp : Allows ar [.regs, .stage, .slv, .mem] := by first | assumption | (refine Allows.mono ?_ (by assumption); decide)) :
    Keeps ar s (State.bankCmdWrite t data) := by
  unfold State.bankCmdWrite
  repeat' first
    | with_reducible assumption
    | exact Allows.mono (by decide) hp
    | with_reducible apply State.bankResult_keeps
    | with_reducible apply State.evacuate_keeps
    | with_reducible apply State.releaseBank_keeps
    | with_reducible apply State.writeFields_keeps
    | with_reducible apply Keeps.ite

theorem State.plainBytes_keeps {ar : List Area} {s t : State} (h : Keeps ar s t) (a k : Nat)
    (hp : Allows ar [.free] := by first | assumption | (refine Allows.mono ?_ (by assumption); decide)) : Keeps ar s (t.plainBytes a k).2 := by
  induction k generalizing t a with
  | zero => exact h
  | succ k ih =>
    unfold State.plainBytes
    dsimp only
    repeat' first
    | with_reducible assumption
    | exact Allows.mono (by decide) hp
    | with_reducible apply ih
    | with_reducible apply State.useFree_keeps
    | split

theorem State.dbgWord_keeps {ar : List Area} {s t : State} (h : Keeps ar s t) (a : Nat)
    (hp : Allows ar [.free] := by first | assumption | (refine Allows.mono ?_ (by assumption); decide)) :
    Keeps ar s (State.dbgWord t a).2 := by
  unfold State.dbgWord
  repeat' first
    | with_reducible assumption
    | exact Allows.mono (by decide) hp
    | with_reducible apply State.plainBytes_keeps
    | with_reducible apply State.useFree_keeps
    | with_reducible apply Keeps.ite
    | refine Keeps.snd ?_ (by assumption)
    | refine Keeps.snd2 ?_ (by assumption)
    | (lift_lets; intro x; clear_value x)
    | with_reducible apply hx
    | split

theorem State.dbgRead_keeps {ar : List Area} {s t : State} (h : Keeps ar s t)
    (hp : Allows ar [.regs, .hold, .slv, .free, .mem] := by first | assumption | (refine Allows.mono ?_ (by assumption); decide)) :
    Keeps ar s (State.dbgRead t) := by
  unfold State.dbgRead
  repeat' first
    | with_reducible assumption
    | exact Allows.mono (by decide) hp
    | with_reducible apply State.answer_keeps
    | with_reducible apply State.cleanFree_keeps
    | with_reducible apply State.dbgWord_keeps
    | with_reducible apply State.deny_keeps
    | with_reducible apply State.denyRegion_keeps
    | with_reducible apply State.setHold_keeps
    | with_reducible apply Keeps.ite

theorem State.putWord_keeps {ar : List Area} {s t : State} (h : Keeps ar s t) (a : Nat) (w : BitVec 64)
    (hp : Allows ar [.regs, .frames, .mem] := by first | assumption | (refine Allows.mono ?_ (by assumption); decide)) :
    Keeps ar s (State.putWord t a w) := by
  unfold State.putWord
  have h1 : Keeps ar s (t.setMem { t.mem with words := KMap.insert t.mem.words (a / 8) w }) :=
    State.setMem_rising_keeps h _ fun hw => by dsimp only; exact KMap.rising_insert hw _ _
  dsimp only
  generalize t.setMem { t.mem with words := KMap.insert t.mem.words (a / 8) w } = u at *
  refine State.setGran_keeps (Keeps.forEach h1 fun i v hv => ?_) _ _
  split
  · exact State.setFrame_keeps hv _ _
  · exact hv

theorem State.dbgWrite_keeps {ar : List Area} {s t : State} (h : Keeps ar s t) (hi : Word)
    (hp : Allows ar [.regs, .stage, .slv, .frames, .mem] := by first | assumption | (refine Allows.mono ?_ (by assumption); decide)) :
    Keeps ar s (State.dbgWrite t hi) := by
  unfold State.dbgWrite
  repeat' first
    | with_reducible assumption
    | exact Allows.mono (by decide) hp
    | with_reducible apply State.deny_keeps
    | with_reducible apply State.denyRegion_keeps
    | with_reducible apply State.putWord_keeps
    | with_reducible apply State.setStage_keeps
    | with_reducible apply Keeps.ite

theorem State.poisonWord_keeps {ar : List Area} {s t : State} (h : Keeps ar s t) (a : Nat)
    (hp : Allows ar [.regs, .mem] := by first | assumption | (refine Allows.mono ?_ (by assumption); decide)) :
    Keeps ar s (State.poisonWord t a) := by
  unfold State.poisonWord
  repeat' first
    | with_reducible assumption
    | exact Allows.mono (by decide) hp
    | with_reducible apply State.fset_keeps
    | with_reducible apply State.memCnt_keeps
    | with_reducible apply State.raiseMem_keeps
    | with_reducible apply State.setGran_keeps
    | with_reducible apply State.wr64_keeps

theorem State.retireGran_keeps {ar : List Area} {s t : State} (h : Keeps ar s t) (g : Nat)
    (hp : Allows ar [.regs, .cls, .mem] := by first | assumption | (refine Allows.mono ?_ (by assumption); decide)) :
    Keeps ar s (State.retireGran t g) := by
  unfold State.retireGran
  repeat' first
    | with_reducible assumption
    | exact Allows.mono (by decide) hp
    | with_reducible apply State.markRetired_keeps
    | with_reducible apply State.retire_keeps
    | with_reducible apply State.setGran_keeps
    | with_reducible apply State.setMem_keeps
    | with_reducible apply Keeps.ite
    | rfl

theorem State.logError_keeps {ar : List Area} {s t : State} (h : Keeps ar s t) (unc : Bool) (master : Nat) (a : Nat)
    (hp : Allows ar [.regs] := by first | assumption | (refine Allows.mono ?_ (by assumption); decide)) :
    Keeps ar s (State.logError t unc master a) := by
  unfold State.logError
  repeat' first
    | with_reducible assumption
    | exact Allows.mono (by decide) hp
    | with_reducible apply State.raiseMem_keeps
    | with_reducible apply State.wr64_keeps

theorem State.poisonMet_keeps {ar : List Area} {s t : State} (h : Keeps ar s t) (a : Nat) (master : Nat) (key : List Byte)
    (hp : Allows ar [.regs, .ems, .funcs, .qps, .mem] := by first | assumption | (refine Allows.mono ?_ (by assumption); decide)) :
    Keeps ar s (State.poisonMet t a master key) := by
  unfold State.poisonMet
  repeat' first
    | with_reducible assumption
    | exact Allows.mono (by decide) hp
    | with_reducible intro _
    | with_reducible apply State.poisonEvent_keeps
    | with_reducible apply State.poisonWord_keeps
    | with_reducible apply State.setEm_keeps
    | with_reducible apply Keeps.forEach
    | with_reducible apply Keeps.ite

theorem State.bufError_keeps {ar : List Area} {s t : State} (h : Keeps ar s t) (addr : Nat) (unc : Bool) (m : Nat) (key : List Byte) (written : Bool)
    (hp : Allows ar [.regs, .out, .free, .trigs, .frames, .ports, .flt, .trunks, .node, .pipes, .gload, .cls, .ems, .emem, .funcs, .qps, .mem, .dmas] := by first | assumption | (refine Allows.mono ?_ (by assumption); decide)) :
    Keeps ar s (State.bufError t addr unc m key written) := by
  unfold State.bufError
  repeat' first
    | with_reducible assumption
    | exact Allows.mono (by decide) hp
    | with_reducible intro _
    | with_reducible apply State.fset_keeps
    | with_reducible apply State.logError_keeps
    | with_reducible apply State.logFault_keeps
    | with_reducible apply State.memCnt_keeps
    | with_reducible apply State.poisonMet_keeps
    | with_reducible apply State.retireGran_keeps
    | with_reducible apply State.setMem_keeps
    | with_reducible apply Keeps.ite
    | rfl

theorem State.redirect_keeps {ar : List Area} {s t : State} (h : Keeps ar s t) (a : Nat) (b : Nat)
    (hp : Allows ar [.frames, .mem] := by first | assumption | (refine Allows.mono ?_ (by assumption); decide)) :
    Keeps ar s (State.redirect t a b) := by
  unfold State.redirect
  have key : ∀ (l m : KMap BufWord), KMap.rising m = true →
      KMap.rising (l.foldl (fun m w => KMap.insert m (512 * b + w.1 % 512) w.2) m) = true := by
    intro ws
    induction ws with
    | nil => exact fun _ hm => hm
    | cons x r ih => exact fun m hm => ih _ (KMap.rising_insert hm _ _)
  refine State.setMem_rising_keeps (State.setFrames_keeps h _) _ fun hw => ?_
  dsimp only
  exact key _ _ (KMap.rising_filter hw _)

theorem State.stallQp_keeps {ar : List Area} {s t : State} (h : Keeps ar s t) (v : Gran) (on : Bool)
    (hp : Allows ar [.qps] := by first | assumption | (refine Allows.mono ?_ (by assumption); decide)) :
    Keeps ar s (State.stallQp t v on) := by
  unfold State.stallQp
  repeat' first
    | with_reducible assumption
    | exact Allows.mono (by decide) hp
    | with_reducible apply State.setQp_keeps
    | with_reducible apply Keeps.ite

theorem State.requeue_keeps {ar : List Area} {s t : State} (h : Keeps ar s t) (g : Nat)
    (hp : Allows ar [.regs, .cls, .mem] := by first | assumption | (refine Allows.mono ?_ (by assumption); decide)) :
    Keeps ar s (State.requeue t g) := by
  unfold State.requeue
  repeat' first
    | with_reducible assumption
    | exact Allows.mono (by decide) hp
    | with_reducible apply State.retire_keeps
    | with_reducible apply State.setMem_keeps
    | with_reducible apply Keeps.ite
    | rfl

theorem State.verdict_keeps {ar : List Area} {s t : State} (h : Keeps ar s t) (a : Nat) (first : Bool) (fail : Bool)
    (hp : Allows ar [.regs, .out, .free, .trigs, .frames, .ports, .flt, .trunks, .node, .pipes, .gload, .cls, .emem, .funcs, .qps, .mem, .dmas] := by first | assumption | (refine Allows.mono ?_ (by assumption); decide)) :
    Keeps ar s (State.verdict t a first fail) := by
  unfold State.verdict
  repeat' first
    | with_reducible assumption
    | exact Allows.mono (by decide) hp
    | with_reducible apply State.fset_keeps
    | with_reducible apply State.logFault_keeps
    | with_reducible apply State.memCnt_keeps
    | with_reducible apply State.raiseMem_keeps
    | with_reducible apply State.retireGran_keeps
    | with_reducible apply Keeps.ite

theorem State.otherVerdict_keeps {ar : List Area} {s t : State} (h : Keeps ar s t) (kind : Nat) (m : Nat) (addr : Nat) (unc : Bool) (fail : Bool)
    (hp : Allows ar [.regs, .out, .free, .trigs, .frames, .ports, .flt, .trunks, .node, .pipes, .gload, .cls, .emem, .funcs, .qps, .mem, .dmas] := by first | assumption | (refine Allows.mono ?_ (by assumption); decide)) :
    Keeps ar s (State.otherVerdict t kind m addr unc fail) := by
  unfold State.otherVerdict
  repeat' first
    | with_reducible assumption
    | exact Allows.mono (by decide) hp
    | with_reducible apply State.freeBytes_keeps
    | with_reducible apply State.logFault_keeps
    | with_reducible apply State.stopEngine_keeps
    | with_reducible apply State.winWrite_keeps
    | with_reducible apply Keeps.ite

/-! ### Machine/Check.lean -/

theorem State.chkCtlWrite_keeps {ar : List Area} {s t : State} (h : Keeps ar s t) (n : Nat) (data : Word)
    (hp : Allows ar [.regs, .stage, .slv, .emem, .chks] := by first | assumption | (refine Allows.mono ?_ (by assumption); decide)) :
    Keeps ar s (State.chkCtlWrite t n data) := by
  unfold State.chkCtlWrite
  repeat' first
    | with_reducible assumption
    | exact Allows.mono (by decide) hp
    | with_reducible apply State.chkEnd_keeps
    | with_reducible apply State.chkGo_keeps
    | with_reducible apply State.fset_keeps
    | with_reducible apply State.raiseChk_keeps
    | with_reducible apply State.writeFields_keeps
    | with_reducible apply Keeps.ite

theorem State.sealWrite_keeps {ar : List Area} {s t : State} (h : Keeps ar s t) (data : Word)
    (hp : Allows ar [.regs, .slv] := by first | assumption | (refine Allows.mono ?_ (by assumption); decide)) :
    Keeps ar s (State.sealWrite t data) := by
  unfold State.sealWrite
  repeat' first
    | with_reducible assumption
    | exact Allows.mono (by decide) hp
    | with_reducible apply State.deny_keeps
    | with_reducible apply State.fset_keeps
    | with_reducible apply Keeps.ite

end Sys2Proof.Machine
end

