-- ==== Sys2Proof/Laws/KeepsBlock.lean ====
section
/-!
SUPPORT. Every operation keeps the pieces of State it does not name, and the canonical form (Keeps): overhead, dictionary, faults, the block, the bus and the idle tick.
Each lemma follows its definition, rule by rule.
-/
set_option Elab.async false
namespace Sys2Proof.Machine

/-! ### Machine/Overhead.lean -/

theorem State.gearWrite_keeps {ar : List Area} {s t : State} (h : Keeps ar s t) (u0 : Nat) (data : Word)
    (hp : Allows ar [.regs, .stage, .slv, .trunks, .node] := by first | assumption | (refine Allows.mono ?_ (by assumption); decide)) :
    Keeps ar s (State.gearWrite u0 data t) := by
  unfold State.gearWrite
  repeat' first
    | with_reducible assumption
    | exact Allows.mono (by decide) hp
    | with_reducible intro _
    | with_reducible apply State.fset_keeps
    | with_reducible apply State.gearOkCheck_keeps
    | with_reducible apply State.setFlag_keeps
    | with_reducible apply State.writeFields_keeps
    | with_reducible apply Keeps.foldl
    | with_reducible apply Keeps.foldl2
    | with_reducible apply Keeps.ite
    | refine Keeps.snd ?_ (by assumption)
    | refine Keeps.snd2 ?_ (by assumption)
    | with_reducible apply hx
    | split

theorem State.slotNext_keeps {ar : List Area} {s t : State} (h : Keeps ar s t) (u0 : Nat)
    (hp : Allows ar [.regs] := by first | assumption | (refine Allows.mono ?_ (by assumption); decide)) :
    Keeps ar s (State.slotNext t u0) := by
  unfold State.slotNext
  repeat' first
    | with_reducible assumption
    | exact Allows.mono (by decide) hp
    | with_reducible apply State.fset_keeps
    | with_reducible apply Keeps.ite

theorem State.slotWrite_keeps {ar : List Area} {s t : State} (h : Keeps ar s t) (u0 : Nat) (data : Word)
    (hp : Allows ar [.regs, .slv, .slots] := by first | assumption | (refine Allows.mono ?_ (by assumption); decide)) :
    Keeps ar s (State.slotWrite u0 data t) := by
  unfold State.slotWrite
  repeat' first
    | with_reducible assumption
    | exact Allows.mono (by decide) hp
    | with_reducible apply State.deny_keeps
    | with_reducible apply Ins.put_keeps
    | with_reducible apply State.setSlots_keeps
    | with_reducible apply State.slotNext_keeps
    | with_reducible apply Keeps.ite

theorem State.slotDataRead_keeps {ar : List Area} {s t : State} (h : Keeps ar s t) (u0 : Nat)
    (hp : Allows ar [.regs, .slv] := by first | assumption | (refine Allows.mono ?_ (by assumption); decide)) :
    Keeps ar s (State.slotDataRead u0 t) := by
  unfold State.slotDataRead
  repeat' first
    | with_reducible assumption
    | exact Allows.mono (by decide) hp
    | with_reducible apply State.answer_keeps
    | with_reducible apply State.deny_keeps
    | with_reducible apply State.slotNext_keeps
    | with_reducible apply Keeps.ite

theorem State.confirm_keeps {ar : List Area} {s t : State} (h : Keeps ar s t) (id : Nat)
    (hp : Allows ar [.regs] := by first | assumption | (refine Allows.mono ?_ (by assumption); decide)) :
    Keeps ar s (State.confirm t id) := by
  unfold State.confirm
  repeat' first
    | with_reducible assumption
    | exact Allows.mono (by decide) hp
    | with_reducible apply State.wr_keeps

theorem State.confirmSeen_keeps {ar : List Area} {s t : State} (h : Keeps ar s t) (id : Nat) (n : Nat)
    (hp : Allows ar [.regs] := by first | assumption | (refine Allows.mono ?_ (by assumption); decide)) :
    Keeps ar s (State.confirmSeen t id n) := by
  unfold State.confirmSeen
  repeat' first
    | with_reducible assumption
    | exact Allows.mono (by decide) hp
    | with_reducible apply State.confirm_keeps
    | with_reducible apply Keeps.ite

theorem State.shiftGo_keeps {ar : List Area} {s t : State} (h : Keeps ar s t)
    (hp : Allows ar [.regs, .trunks, .node] := by first | assumption | (refine Allows.mono ?_ (by assumption); decide)) :
    Keeps ar s (State.shiftGo t) := by
  unfold State.shiftGo
  repeat' first
    | with_reducible assumption
    | exact Allows.mono (by decide) hp
    | with_reducible intro _
    | with_reducible apply State.confirm_keeps
    | with_reducible apply State.fset_keeps
    | with_reducible apply State.fsets_keeps
    | with_reducible apply State.sendPhase_keeps
    | with_reducible apply State.setNode_keeps
    | with_reducible apply State.wr_keeps
    | with_reducible apply Keeps.forEach
    | with_reducible apply Keeps.ite

theorem State.shiftWrite_keeps {ar : List Area} {s t : State} (h : Keeps ar s t) (data : Word)
    (hp : Allows ar [.regs, .stage, .slv, .trunks, .node] := by first | assumption | (refine Allows.mono ?_ (by assumption); decide)) :
    Keeps ar s (State.shiftWrite data t) := by
  unfold State.shiftWrite
  repeat' first
    | with_reducible assumption
    | exact Allows.mono (by decide) hp
    | with_reducible apply State.shiftGo_keeps
    | with_reducible apply State.writeFields_keeps
    | with_reducible apply Keeps.ite

theorem State.phaseSeen_keeps {ar : List Area} {s t : State} (h : Keeps ar s t) (ph : Nat) (g : Nat) (n : Nat)
    (hp : Allows ar [.regs, .trunks, .node] := by first | assumption | (refine Allows.mono ?_ (by assumption); decide)) :
    Keeps ar s (State.phaseSeen t ph g n) := by
  unfold State.phaseSeen
  repeat' first
    | with_reducible assumption
    | exact Allows.mono (by decide) hp
    | with_reducible apply State.fset_keeps
    | with_reducible apply State.fsets_keeps
    | with_reducible apply State.gearOkCheck_keeps
    | with_reducible apply State.setFlag_keeps
    | with_reducible apply State.setNode_keeps
    | with_reducible apply Keeps.ite

theorem State.lateSeen_keeps {ar : List Area} {s t : State} (h : Keeps ar s t) (cur : Nat)
    (hp : Allows ar [.node] := by first | assumption | (refine Allows.mono ?_ (by assumption); decide)) :
    Keeps ar s (State.lateSeen t cur) := by
  unfold State.lateSeen
  repeat' first
    | with_reducible assumption
    | exact Allows.mono (by decide) hp
    | with_reducible apply State.setNode_keeps
    | with_reducible apply Keeps.ite
    | refine Keeps.snd ?_ (by assumption)
    | refine Keeps.snd2 ?_ (by assumption)
    | split

theorem State.shiftDecide_keeps {ar : List Area} {s t : State} (h : Keeps ar s t)
    (hp : Allows ar [.node] := by first | assumption | (refine Allows.mono ?_ (by assumption); decide)) :
    Keeps ar s (State.shiftDecide t) := by
  unfold State.shiftDecide
  repeat' first
    | with_reducible assumption
    | exact Allows.mono (by decide) hp
    | with_reducible intro _
    | with_reducible apply State.setNode_keeps

theorem State.shiftEnd_keeps {ar : List Area} {s t : State} (h : Keeps ar s t)
    (hp : Allows ar [.regs, .halves, .node] := by first | assumption | (refine Allows.mono ?_ (by assumption); decide)) :
    Keeps ar s (State.shiftEnd t) := by
  unfold State.shiftEnd
  repeat' first
    | with_reducible assumption
    | exact Allows.mono (by decide) hp
    | with_reducible apply State.fset_keeps
    | with_reducible apply State.putGear_keeps
    | with_reducible apply State.setNode_keeps
    | with_reducible apply Keeps.ite

theorem State.shiftInstant_keeps {ar : List Area} {s t : State} (h : Keeps ar s t) (x : Nat)
    (hp : Allows ar [.regs, .halves, .trunks, .node] := by first | assumption | (refine Allows.mono ?_ (by assumption); decide)) :
    Keeps ar s (State.shiftInstant t x) := by
  unfold State.shiftInstant
  repeat' first
    | with_reducible assumption
    | exact Allows.mono (by decide) hp
    | with_reducible apply State.fset_keeps
    | with_reducible apply State.putGear_keeps
    | with_reducible apply State.sendPhase_keeps
    | with_reducible apply State.setFlag_keeps
    | with_reducible apply State.setNode_keeps
    | with_reducible apply State.shiftDecide_keeps
    | with_reducible apply State.shiftEnd_keeps
    | with_reducible apply Keeps.ite
    | refine Keeps.snd ?_ (by assumption)
    | refine Keeps.snd2 ?_ (by assumption)
    | (lift_lets; intro x; clear_value x)
    | with_reducible apply hx
    | split

theorem State.trunkInstant_keeps {ar : List Area} {s t : State} (h : Keeps ar s t) (u0 : Nat) (sfn : Nat)
    (hp : Allows ar [.trunks] := by first | assumption | (refine Allows.mono ?_ (by assumption); decide)) :
    Keeps ar s (State.trunkInstant t u0 sfn) := by
  unfold State.trunkInstant
  repeat' first
    | with_reducible assumption
    | exact Allows.mono (by decide) hp
    | with_reducible apply State.setTrunk_keeps

theorem State.wtrInstant_keeps {ar : List Area} {s t : State} (h : Keeps ar s t)
    (hp : Allows ar [.regs, .node] := by first | assumption | (refine Allows.mono ?_ (by assumption); decide)) :
    Keeps ar s (State.wtrInstant t) := by
  unfold State.wtrInstant
  repeat' first
    | with_reducible assumption
    | exact Allows.mono (by decide) hp
    | with_reducible apply State.fset_keeps
    | with_reducible apply State.setNode_keeps
    | with_reducible apply Keeps.ite

theorem State.nodeInstant_keeps {ar : List Area} {s t : State} (h : Keeps ar s t) (sfn : Nat)
    (hp : Allows ar [.regs, .halves, .trunks, .node] := by first | assumption | (refine Allows.mono ?_ (by assumption); decide)) :
    Keeps ar s (State.nodeInstant t sfn) := by
  unfold State.nodeInstant
  repeat' first
    | with_reducible assumption
    | exact Allows.mono (by decide) hp
    | with_reducible apply State.fset_keeps
    | with_reducible apply State.setNode_keeps
    | with_reducible apply State.shiftInstant_keeps
    | with_reducible apply State.wtrInstant_keeps
    | with_reducible apply Keeps.ite

theorem State.takeDelay_keeps {ar : List Area} {s t : State} (h : Keeps ar s t) (u0 : Nat) (d2 : Int)
    (hp : Allows ar [.regs, .trunks] := by first | assumption | (refine Allows.mono ?_ (by assumption); decide)) :
    Keeps ar s (State.takeDelay t u0 d2).2 := by
  unfold State.takeDelay
  repeat' first
    | with_reducible assumption
    | exact Allows.mono (by decide) hp
    | with_reducible intro _
    | with_reducible apply State.fsat_keeps
    | with_reducible apply State.fset_keeps
    | with_reducible apply State.setTrunk_keeps
    | with_reducible apply Keeps.foldl
    | with_reducible apply Keeps.foldl2
    | with_reducible apply Keeps.ite
    | (lift_lets; intro x; clear_value x)
    | with_reducible apply hx
    | split

theorem State.takeOffset_keeps {ar : List Area} {s t : State} (h : Keeps ar s t) (o : Oh) (d : Nat)
    (hp : Allows ar [.regs] := by first | assumption | (refine Allows.mono ?_ (by assumption); decide)) :
    Keeps ar s (State.takeOffset t o d).2 := by
  unfold State.takeOffset
  repeat' first
    | with_reducible assumption
    | exact Allows.mono (by decide) hp
    | with_reducible apply State.wr_keeps

theorem State.setIntegral_keeps {ar : List Area} {s t : State} (h : Keeps ar s t) (hh : Nat) (i : Int)
    (hp : Allows ar [.halves, .node] := by first | assumption | (refine Allows.mono ?_ (by assumption); decide)) :
    Keeps ar s (State.setIntegral t hh i) := by
  unfold State.setIntegral
  repeat' first
    | with_reducible assumption
    | exact Allows.mono (by decide) hp
    | with_reducible apply State.setHalf_keeps
    | with_reducible apply State.setNode_keeps
    | with_reducible apply Keeps.ite

theorem State.servoRun_keeps {ar : List Area} {s t : State} (h : Keeps ar s t) (hh : Nat) (x : Int)
    (hp : Allows ar [.regs, .halves, .tbs, .node] := by first | assumption | (refine Allows.mono ?_ (by assumption); decide)) :
    Keeps ar s (State.servoRun t hh x) := by
  unfold State.servoRun
  repeat' first
    | with_reducible assumption
    | exact Allows.mono (by decide) hp
    | with_reducible apply State.putRate_keeps
    | with_reducible apply State.setIntegral_keeps

theorem State.slewRun_keeps {ar : List Area} {s t : State} (h : Keeps ar s t) (hh : Nat) (o : Int)
    (hp : Allows ar [.regs, .tbs] := by first | assumption | (refine Allows.mono ?_ (by assumption); decide)) :
    Keeps ar s (State.slewRun t hh o) := by
  unfold State.slewRun
  repeat' first
    | with_reducible assumption
    | exact Allows.mono (by decide) hp
    | with_reducible apply State.fset_keeps
    | with_reducible apply State.putRate_keeps
    | with_reducible apply Keeps.ite

theorem State.steer_keeps {ar : List Area} {s t : State} (h : Keeps ar s t) (u0 : Nat) (o : Int)
    (hp : Allows ar [.regs, .halves, .tbs, .node] := by first | assumption | (refine Allows.mono ?_ (by assumption); decide)) :
    Keeps ar s (State.steer t u0 o) := by
  unfold State.steer
  repeat' first
    | with_reducible assumption
    | exact Allows.mono (by decide) hp
    | with_reducible apply State.servoRun_keeps
    | with_reducible apply State.slewRun_keeps
    | with_reducible apply Keeps.ite

theorem State.dupId_keeps {ar : List Area} {s t : State} (h : Keeps ar s t)
    (hp : Allows ar [.regs] := by first | assumption | (refine Allows.mono ?_ (by assumption); decide)) :
    Keeps ar s (State.dupId t) := by
  unfold State.dupId
  repeat' first
    | with_reducible assumption
    | exact Allows.mono (by decide) hp
    | with_reducible apply State.setFlag_keeps

theorem State.intErr_keeps {ar : List Area} {s t : State} (h : Keeps ar s t)
    (hp : Allows ar [.regs, .trunks, .node] := by first | assumption | (refine Allows.mono ?_ (by assumption); decide)) :
    Keeps ar s (State.intErr t) := by
  unfold State.intErr
  repeat' first
    | with_reducible assumption
    | exact Allows.mono (by decide) hp
    | with_reducible apply State.csListen_keeps
    | with_reducible apply State.setFlag_keeps
    | with_reducible apply State.setNode_keeps
    | with_reducible apply Keeps.ite

theorem State.csIntegrate_keeps {ar : List Area} {s t : State} (h : Keeps ar s t) (u0 : Nat) (o : Oh)
    (hp : Allows ar [.regs, .trunks, .node] := by first | assumption | (refine Allows.mono ?_ (by assumption); decide)) :
    Keeps ar s (State.csIntegrate t u0 o) := by
  unfold State.csIntegrate
  repeat' first
    | with_reducible assumption
    | exact Allows.mono (by decide) hp
    | with_reducible apply State.csSet_keeps
    | with_reducible apply State.fsets_keeps
    | with_reducible apply State.setNode_keeps
    | with_reducible apply State.stopFrames_keeps

theorem State.csJoin_keeps {ar : List Area} {s t : State} (h : Keeps ar s t) (u0 : Nat) (o : Oh)
    (hp : Allows ar [.regs, .out, .halves, .trigs, .trunks, .node] := by first | assumption | (refine Allows.mono ?_ (by assumption); decide)) :
    Keeps ar s (State.csJoin t u0 o) := by
  unfold State.csJoin
  repeat' first
    | with_reducible assumption
    | exact Allows.mono (by decide) hp
    | with_reducible apply State.csSet_keeps
    | with_reducible apply State.phaseSeen_keeps
    | with_reducible apply State.putGear_keeps
    | with_reducible apply State.setJoined_keeps
    | with_reducible apply State.setNode_keeps
    | with_reducible apply State.showSource_keeps
    | with_reducible apply State.syncTrigs_keeps

theorem State.csCorrect_keeps {ar : List Area} {s t : State} (h : Keeps ar s t) (u0 : Nat) (o : Oh) (x : Int)
    (hp : Allows ar [.regs, .out, .halves, .tbs, .pps, .gens, .trigs, .trunks, .node] := by first | assumption | (refine Allows.mono ?_ (by assumption); decide)) :
    Keeps ar s (State.csCorrect t u0 o x) := by
  unfold State.csCorrect
  repeat' first
    | with_reducible assumption
    | exact Allows.mono (by decide) hp
    | with_reducible apply State.applyStep_keeps
    | with_reducible apply State.csJoin_keeps
    | with_reducible apply State.fset_keeps
    | with_reducible apply State.intErr_keeps
    | with_reducible apply State.setNode_keeps
    | with_reducible apply State.slewRun_keeps
    | with_reducible apply Keeps.ite
    | refine Keeps.snd ?_ (by assumption)
    | refine Keeps.snd2 ?_ (by assumption)
    | with_reducible apply hx
    | split

theorem State.csTable_keeps {ar : List Area} {s t : State} (h : Keeps ar s t) (u0 : Nat) (o : Oh)
    (hp : Allows ar [.regs, .trunks, .node] := by first | assumption | (refine Allows.mono ?_ (by assumption); decide)) :
    Keeps ar s (State.csTable t u0 o) := by
  unfold State.csTable
  repeat' first
    | with_reducible assumption
    | exact Allows.mono (by decide) hp
    | with_reducible apply State.csIntegrate_keeps
    | with_reducible apply State.csListen_keeps
    | with_reducible apply State.csSet_keeps
    | with_reducible apply State.dupId_keeps
    | with_reducible apply State.setNode_keeps
    | with_reducible apply Keeps.ite

theorem State.csFirst_keeps {ar : List Area} {s t : State} (h : Keeps ar s t) (u0 : Nat) (o : Oh) (before : Option Oh)
    (hp : Allows ar [.regs, .node] := by first | assumption | (refine Allows.mono ?_ (by assumption); decide)) :
    Keeps ar s (State.csFirst t u0 o before) := by
  unfold State.csFirst
  repeat' first
    | with_reducible assumption
    | exact Allows.mono (by decide) hp
    | with_reducible apply State.fsets_keeps
    | with_reducible apply State.setNode_keeps
    | with_reducible apply Keeps.ite
    | refine Keeps.snd ?_ (by assumption)
    | refine Keeps.snd2 ?_ (by assumption)
    | split

theorem State.ohTime_keeps {ar : List Area} {s t : State} (h : Keeps ar s t) (u0 : Nat) (o : Oh)
    (hp : Allows ar [.regs, .out, .halves, .tbs, .pps, .gens, .trigs, .trunks, .node] := by first | assumption | (refine Allows.mono ?_ (by assumption); decide)) :
    Keeps ar s (State.ohTime t u0 o) := by
  unfold State.ohTime
  repeat' first
    | with_reducible assumption
    | exact Allows.mono (by decide) hp
    | with_reducible apply State.csCorrect_keeps
    | with_reducible apply State.steer_keeps
    | with_reducible apply State.takeDelay_keeps
    | with_reducible apply State.takeOffset_keeps
    | with_reducible apply Keeps.ite
    | refine Keeps.snd ?_ (by assumption)
    | refine Keeps.snd2 ?_ (by assumption)
    | with_reducible apply hx
    | split

theorem State.takePair_keeps {ar : List Area} {s t : State} (h : Keeps ar s t) (u0 : Nat) (code : Nat) (orig : Nat)
    (hp : Allows ar [.regs, .out, .free, .trigs, .flt, .trunks, .node, .gload, .cls, .funcs] := by first | assumption | (refine Allows.mono ?_ (by assumption); decide)) :
    Keeps ar s (State.takePair t u0 code orig) := by
  unfold State.takePair
  repeat' first
    | with_reducible assumption
    | exact Allows.mono (by decide) hp
    | with_reducible apply State.fixDegraded_keeps
    | with_reducible apply State.protUpdate_keeps
    | with_reducible apply State.setEff_keeps
    | with_reducible apply State.setTrunk_keeps
    | with_reducible apply Keeps.ite

theorem State.overheadIn_keeps {ar : List Area} {s t : State} (h : Keeps ar s t) (u0 : Nat) (o : Oh)
    (hp : Allows ar [.regs, .out, .free, .halves, .tbs, .pps, .gens, .trigs, .flt, .trunks, .node, .gload, .cls, .funcs] := by first | assumption | (refine Allows.mono ?_ (by assumption); decide)) :
    Keeps ar s (State.overheadIn t u0 o) := by
  unfold State.overheadIn
  repeat' first
    | with_reducible assumption
    | exact Allows.mono (by decide) hp
    | with_reducible apply State.confirmSeen_keeps
    | with_reducible apply State.csFirst_keeps
    | with_reducible apply State.csTable_keeps
    | with_reducible apply State.lateSeen_keeps
    | with_reducible apply State.ohTime_keeps
    | with_reducible apply State.phaseSeen_keeps
    | with_reducible apply State.setTrunk_keeps
    | with_reducible apply State.sfUpdate_keeps
    | with_reducible apply State.sourceUpdate_keeps
    | with_reducible apply State.takePair_keeps
    | with_reducible apply Keeps.ite

theorem State.relay_keeps {ar : List Area} {s t : State} (h : Keeps ar s t) (u0 : Nat) (typ : Nat) (orig : Nat) (arg : Nat) (sfn : Nat)
    (hp : Allows ar [.trunks, .node] := by first | assumption | (refine Allows.mono ?_ (by assumption); decide)) :
    Keeps ar s (State.relay t u0 typ orig arg sfn) := by
  unfold State.relay
  repeat' first
    | with_reducible assumption
    | exact Allows.mono (by decide) hp
    | with_reducible apply State.queueUrgent_keeps
    | with_reducible apply State.setNode_keeps
    | with_reducible apply Keeps.ite

theorem State.urgentIn_keeps {ar : List Area} {s t : State} (h : Keeps ar s t) (u0 : Nat) (p : List Byte)
    (hp : Allows ar [.regs, .out, .free, .trigs, .flt, .trunks, .node, .gload, .cls, .funcs] := by first | assumption | (refine Allows.mono ?_ (by assumption); decide)) :
    Keeps ar s (State.urgentIn t u0 p) := by
  unfold State.urgentIn
  repeat' first
    | with_reducible assumption
    | exact Allows.mono (by decide) hp
    | with_reducible apply State.confirmSeen_keeps
    | with_reducible apply State.fsat_keeps
    | with_reducible apply State.phaseSeen_keeps
    | with_reducible apply State.relay_keeps
    | with_reducible apply State.takePair_keeps
    | with_reducible apply Keeps.ite

theorem State.forcedSwitch_keeps {ar : List Area} {s t : State} (h : Keeps ar s t) (u0 : Nat)
    (hp : Allows ar [.regs, .out, .free, .trigs, .flt, .trunks, .node, .gload, .cls, .funcs] := by first | assumption | (refine Allows.mono ?_ (by assumption); decide)) :
    Keeps ar s (State.forcedSwitch u0 t) := by
  unfold State.forcedSwitch
  repeat' first
    | with_reducible assumption
    | exact Allows.mono (by decide) hp
    | with_reducible apply State.fixDegraded_keeps
    | with_reducible apply State.protUpdate_keeps
    | with_reducible apply State.setNode_keeps
    | with_reducible apply Keeps.ite

theorem State.manualSwitch_keeps {ar : List Area} {s t : State} (h : Keeps ar s t) (u0 : Nat)
    (hp : Allows ar [.regs, .out, .free, .trigs, .flt, .trunks, .node, .gload, .cls, .funcs] := by first | assumption | (refine Allows.mono ?_ (by assumption); decide)) :
    Keeps ar s (State.manualSwitch u0 t) := by
  unfold State.manualSwitch
  repeat' first
    | with_reducible assumption
    | exact Allows.mono (by decide) hp
    | with_reducible apply State.fixDegraded_keeps
    | with_reducible apply State.protUpdate_keeps
    | with_reducible apply State.setFlag_keeps
    | with_reducible apply State.setNode_keeps
    | with_reducible apply Keeps.ite

theorem State.lockoutCmd_keeps {ar : List Area} {s t : State} (h : Keeps ar s t)
    (hp : Allows ar [.regs, .out, .free, .trigs, .flt, .trunks, .node, .gload, .cls, .funcs] := by first | assumption | (refine Allows.mono ?_ (by assumption); decide)) :
    Keeps ar s (State.lockoutCmd t) := by
  unfold State.lockoutCmd
  repeat' first
    | with_reducible assumption
    | exact Allows.mono (by decide) hp
    | with_reducible apply State.fixDegraded_keeps
    | with_reducible apply State.protUpdate_keeps
    | with_reducible apply State.setNode_keeps
    | with_reducible apply Keeps.ite

theorem State.clearCmd_keeps {ar : List Area} {s t : State} (h : Keeps ar s t)
    (hp : Allows ar [.regs, .out, .free, .trigs, .flt, .trunks, .node, .gload, .cls, .funcs] := by first | assumption | (refine Allows.mono ?_ (by assumption); decide)) :
    Keeps ar s (State.clearCmd t) := by
  unfold State.clearCmd
  repeat' first
    | with_reducible assumption
    | exact Allows.mono (by decide) hp
    | with_reducible apply State.fixDegraded_keeps
    | with_reducible apply State.protUpdate_keeps
    | with_reducible apply State.setNode_keeps

theorem State.protCmd_keeps {ar : List Area} {s t : State} (h : Keeps ar s t) (u0 : Nat) (data : Word)
    (hp : Allows ar [.regs, .out, .free, .trigs, .flt, .trunks, .node, .gload, .cls, .funcs] := by first | assumption | (refine Allows.mono ?_ (by assumption); decide)) :
    Keeps ar s (State.protCmd u0 data t) := by
  unfold State.protCmd
  repeat' first
    | with_reducible assumption
    | exact Allows.mono (by decide) hp
    | with_reducible apply State.clearCmd_keeps
    | with_reducible apply State.forcedSwitch_keeps
    | with_reducible apply State.lockoutCmd_keeps
    | with_reducible apply State.manualSwitch_keeps
    | with_reducible apply Keeps.ite

theorem State.ringCfgWrite_keeps {ar : List Area} {s t : State} (h : Keeps ar s t) (data : Word)
    (hp : Allows ar [.regs, .stage, .slv, .out, .free, .trigs, .flt, .trunks, .node, .gload, .cls, .funcs] := by first | assumption | (refine Allows.mono ?_ (by assumption); decide)) :
    Keeps ar s (State.ringCfgWrite data t) := by
  unfold State.ringCfgWrite
  repeat' first
    | with_reducible assumption
    | exact Allows.mono (by decide) hp
    | with_reducible intro _
    | with_reducible apply State.block_keeps
    | with_reducible apply State.fixDegraded_keeps
    | with_reducible apply State.fset_keeps
    | with_reducible apply State.protUpdate_keeps
    | with_reducible apply State.setWtr_keeps
    | with_reducible apply State.writeFields_keeps
    | with_reducible apply Keeps.forEach
    | with_reducible apply Keeps.ite

/-! ### Machine/Dict.lean -/

theorem State.mirPut_keeps {ar : List Area} {s t : State} (h : Keeps ar s t) (key : Nat) (data : Word)
    (hp : Allows ar [.regs, .stage, .slv, .out, .free, .tbs, .trigs, .dic, .flt, .trunks, .node, .gload, .cls, .funcs] := by first | assumption | (refine Allows.mono ?_ (by assumption); decide)) :
    Keeps ar s (State.mirPut t key data) := by
  unfold State.mirPut
  repeat' first
    | with_reducible assumption
    | exact Allows.mono (by decide) hp
    | with_reducible apply State.fixDegraded_keeps
    | with_reducible apply State.protUpdate_keeps
    | with_reducible apply State.ringCfgWrite_keeps
    | with_reducible apply State.setSlv_keeps
    | with_reducible apply State.setTb_keeps
    | with_reducible apply State.trigWrite_keeps
    | with_reducible apply State.writeFields_keeps
    | with_reducible apply Keeps.ite
    | refine Keeps.snd ?_ (by assumption)
    | refine Keeps.snd2 ?_ (by assumption)
    | with_reducible apply hx
    | split

theorem State.mirStore_keeps {ar : List Area} {s t : State} (h : Keeps ar s t) (o : Obj) (v : List Byte)
    (hp : Allows ar [.regs, .stage, .slv, .out, .free, .tbs, .trigs, .dic, .flt, .trunks, .node, .gload, .cls, .funcs] := by first | assumption | (refine Allows.mono ?_ (by assumption); decide)) :
    Keeps ar s (State.mirStore t o v) := by
  unfold State.mirStore
  repeat' first
    | with_reducible assumption
    | exact Allows.mono (by decide) hp
    | with_reducible intro _
    | with_reducible apply State.mirPut_keeps
    | with_reducible apply Keeps.forEach
    | with_reducible apply Keeps.ite
    | refine Keeps.snd ?_ (by assumption)
    | refine Keeps.snd2 ?_ (by assumption)
    | split

theorem State.putVal_keeps {ar : List Area} {s t : State} (h : Keeps ar s t) (k : Nat) (o : Obj) (v : List Byte)
    (hp : Allows ar [.regs, .stage, .slv, .out, .free, .tbs, .trigs, .dic, .flt, .trunks, .node, .gload, .cls, .funcs] := by first | assumption | (refine Allows.mono ?_ (by assumption); decide)) :
    Keeps ar s (State.putVal t k o v) := by
  unfold State.putVal
  repeat' first
    | with_reducible assumption
    | exact Allows.mono (by decide) hp
    | with_reducible apply State.mirStore_keeps
    | with_reducible apply State.setVal_keeps

theorem State.dicRequest_keeps {ar : List Area} {s t : State} (h : Keeps ar s t) (net : Bool) (op : Nat) (k : Nat) (ofs : Nat) (len : Nat) (data : List Byte)
    (hp : Allows ar [.regs, .stage, .slv, .out, .free, .tbs, .trigs, .dic, .flt, .trunks, .node, .gload, .cls, .funcs] := by first | assumption | (refine Allows.mono ?_ (by assumption); decide)) :
    Keeps ar s (State.dicRequest t net op k ofs len data).2 := by
  unfold State.dicRequest
  repeat' first
    | with_reducible assumption
    | exact Allows.mono (by decide) hp
    | with_reducible apply State.putVal_keeps
    | with_reducible apply Keeps.ite
    | refine Keeps.snd ?_ (by assumption)
    | refine Keeps.snd2 ?_ (by assumption)
    | (lift_lets; intro x; clear_value x)
    | with_reducible apply hx
    | split
    | dsimp only

theorem State.putDicData_keeps {ar : List Area} {s t : State} (h : Keeps ar s t) (bs : List Byte)
    (hp : Allows ar [.regs] := by first | assumption | (refine Allows.mono ?_ (by assumption); decide)) :
    Keeps ar s (State.putDicData t bs) := by
  unfold State.putDicData
  repeat' first
    | with_reducible assumption
    | exact Allows.mono (by decide) hp
    | with_reducible intro _
    | with_reducible apply State.wr_keeps
    | with_reducible apply Keeps.forEach

theorem State.dicEnd_keeps {ar : List Area} {s t : State} (h : Keeps ar s t) (result : Nat) (code : Nat)
    (hp : Allows ar [.regs] := by first | assumption | (refine Allows.mono ?_ (by assumption); decide)) :
    Keeps ar s (State.dicEnd t result code) := by
  unfold State.dicEnd
  repeat' first
    | with_reducible assumption
    | exact Allows.mono (by decide) hp
    | with_reducible apply State.fsets_keeps
    | with_reducible apply State.raise_keeps

theorem State.dicDone_keeps {ar : List Area} {s t : State} (h : Keeps ar s t) (code : Nat)
    (hp : Allows ar [.regs] := by first | assumption | (refine Allows.mono ?_ (by assumption); decide)) :
    Keeps ar s (State.dicDone t code) := by
  unfold State.dicDone
  repeat' first
    | with_reducible assumption
    | exact Allows.mono (by decide) hp
    | with_reducible apply State.dicEnd_keeps

theorem State.dicAnswer_keeps {ar : List Area} {s t : State} (h : Keeps ar s t) (op : Nat) (a : DicAns)
    (hp : Allows ar [.regs] := by first | assumption | (refine Allows.mono ?_ (by assumption); decide)) :
    Keeps ar s (State.dicAnswer t op a) := by
  unfold State.dicAnswer
  repeat' first
    | with_reducible assumption
    | exact Allows.mono (by decide) hp
    | with_reducible apply State.dicDone_keeps
    | with_reducible apply State.fset_keeps
    | with_reducible apply State.putDicData_keeps
    | with_reducible apply State.wr_keeps
    | with_reducible apply Keeps.ite

theorem State.mbxPut_keeps {ar : List Area} {s t : State} (h : Keeps ar s t) (e : Nat) (o : Nat) (bs : List Byte)
    (hp : Allows ar [.emem] := by first | assumption | (refine Allows.mono ?_ (by assumption); decide)) :
    Keeps ar s (State.mbxPut t e o bs) := by
  unfold State.mbxPut
  repeat' first
    | with_reducible assumption
    | exact Allows.mono (by decide) hp
    | with_reducible apply State.eput_keeps

theorem State.mbxRun_keeps {ar : List Area} {s t : State} (h : Keeps ar s t) (e : Nat)
    (hp : Allows ar [.regs, .stage, .slv, .out, .free, .tbs, .trigs, .dic, .flt, .trunks, .node, .gload, .cls, .emem, .funcs] := by first | assumption | (refine Allows.mono ?_ (by assumption); decide)) :
    Keeps ar s (State.mbxRun t e) := by
  unfold State.mbxRun
  repeat' first
    | with_reducible assumption
    | exact Allows.mono (by decide) hp
    | with_reducible apply State.dicRequest_keeps
    | with_reducible apply State.mbxPut_keeps
    | with_reducible apply Keeps.ite
    | (lift_lets; intro x; clear_value x)
    | with_reducible apply hx
    | split

theorem State.forward_keeps {ar : List Area} {s t : State} (h : Keeps ar s t) (op : Nat) (k : Nat) (ofs : Nat) (len : Nat) (data : List Byte)
    (hp : Allows ar [.regs, .dic, .emem] := by first | assumption | (refine Allows.mono ?_ (by assumption); decide)) :
    Keeps ar s (State.forward t op k ofs len data) := by
  unfold State.forward
  repeat' first
    | with_reducible assumption
    | exact Allows.mono (by decide) hp
    | with_reducible apply State.dicDone_keeps
    | with_reducible apply State.fset_keeps
    | with_reducible apply State.mbxPut_keeps
    | with_reducible apply State.setDic_keeps
    | with_reducible apply Keeps.ite
    | refine Keeps.snd ?_ (by assumption)
    | refine Keeps.snd2 ?_ (by assumption)
    | with_reducible apply hx
    | split

theorem State.forwardEnd_keeps {ar : List Area} {s t : State} (h : Keeps ar s t) (op : Nat) (a : DicAns)
    (hp : Allows ar [.regs, .stage, .slv, .out, .free, .tbs, .trigs, .dic, .flt, .trunks, .node, .gload, .cls, .emem, .funcs] := by first | assumption | (refine Allows.mono ?_ (by assumption); decide)) :
    Keeps ar s (State.forwardEnd t op a) := by
  unfold State.forwardEnd
  repeat' first
    | with_reducible assumption
    | exact Allows.mono (by decide) hp
    | with_reducible apply State.dicAnswer_keeps
    | with_reducible apply State.mbxPut_keeps
    | with_reducible apply State.mbxRun_keeps
    | with_reducible apply State.setDic_keeps
    | with_reducible apply Keeps.ite
    | refine Keeps.snd ?_ (by assumption)
    | refine Keeps.snd2 ?_ (by assumption)
    | (lift_lets; intro x; clear_value x)
    | with_reducible apply hx
    | split
    | dsimp only

theorem State.hostRequest_keeps {ar : List Area} {s t : State} (h : Keeps ar s t) (op : Nat) (len : Nat)
    (hp : Allows ar [.regs, .stage, .slv, .out, .free, .tbs, .trigs, .dic, .flt, .trunks, .node, .gload, .cls, .emem, .funcs] := by first | assumption | (refine Allows.mono ?_ (by assumption); decide)) :
    Keeps ar s (State.hostRequest t op len) := by
  unfold State.hostRequest
  repeat' first
    | with_reducible assumption
    | exact Allows.mono (by decide) hp
    | with_reducible apply State.dicAnswer_keeps
    | with_reducible apply State.dicRequest_keeps
    | with_reducible apply State.forward_keeps
    | with_reducible apply Keeps.ite

theorem State.setSlot_keeps {ar : List Area} {s t : State} (h : Keeps ar s t) (n : Nat) (v : Slot)
    (hp : Allows ar [.dic] := by first | assumption | (refine Allows.mono ?_ (by assumption); decide)) :
    Keeps ar s (State.setSlot t n v) := by
  unfold State.setSlot
  repeat' first
    | with_reducible assumption
    | exact Allows.mono (by decide) hp
    | with_reducible apply State.setDic_keeps
    | with_reducible apply Keeps.ite

theorem State.storeFail_keeps {ar : List Area} {s t : State} (h : Keeps ar s t)
    (hp : Allows ar [.regs] := by first | assumption | (refine Allows.mono ?_ (by assumption); decide)) :
    Keeps ar s (State.storeFail t) := by
  unfold State.storeFail
  repeat' first
    | with_reducible assumption
    | exact Allows.mono (by decide) hp
    | with_reducible apply State.fset_keeps
    | with_reducible apply State.raise_keeps

theorem State.storeError_keeps {ar : List Area} {s t : State} (h : Keeps ar s t)
    (hp : Allows ar [.regs, .out, .free, .trigs, .frames, .ports, .flt, .trunks, .node, .pipes, .gload, .cls, .emem, .funcs, .qps, .mem, .dmas] := by first | assumption | (refine Allows.mono ?_ (by assumption); decide)) :
    Keeps ar s (State.storeError t) := by
  unfold State.storeError
  repeat' first
    | with_reducible assumption
    | exact Allows.mono (by decide) hp
    | with_reducible apply State.logFault_keeps
    | with_reducible apply State.storeFail_keeps

theorem State.startCommit_keeps {ar : List Area} {s t : State} (h : Keeps ar s t)
    (hp : Allows ar [.regs, .dic] := by first | assumption | (refine Allows.mono ?_ (by assumption); decide)) :
    Keeps ar s (State.startCommit t).2 := by
  unfold State.startCommit
  repeat' first
    | with_reducible assumption
    | exact Allows.mono (by decide) hp
    | with_reducible intro _
    | with_reducible apply State.fset_keeps
    | with_reducible apply State.setDic_keeps
    | with_reducible apply State.showDirty_keeps
    | with_reducible apply State.storeFail_keeps
    | with_reducible apply Keeps.ite
    | refine Keeps.snd ?_ (by assumption)
    | refine Keeps.snd2 ?_ (by assumption)
    | (lift_lets; intro x; clear_value x)
    | with_reducible apply hx
    | split

theorem State.dropCommit_keeps {ar : List Area} {s t : State} (h : Keeps ar s t) (step : Nat)
    (hp : Allows ar [.regs, .dic] := by first | assumption | (refine Allows.mono ?_ (by assumption); decide)) :
    Keeps ar s (State.dropCommit t step) := by
  unfold State.dropCommit
  repeat' first
    | with_reducible assumption
    | exact Allows.mono (by decide) hp
    | with_reducible intro _
    | with_reducible apply State.fset_keeps
    | with_reducible apply State.setDic_keeps
    | with_reducible apply State.setSlot_keeps
    | with_reducible apply State.showDirty_keeps
    | with_reducible apply Keeps.ite
    | refine Keeps.snd ?_ (by assumption)
    | refine Keeps.snd2 ?_ (by assumption)
    | with_reducible apply hx
    | split

theorem State.commitNext_keeps {ar : List Area} {s t : State} (h : Keeps ar s t)
    (hp : Allows ar [.regs, .gasp, .dic, .trunks, .node, .cls] := by first | assumption | (refine Allows.mono ?_ (by assumption); decide)) :
    Keeps ar s (State.commitNext t) := by
  unfold State.commitNext
  repeat' first
    | with_reducible assumption
    | exact Allows.mono (by decide) hp
    | with_reducible apply State.gaspCheck_keeps
    | with_reducible apply State.setDic_keeps
    | with_reducible apply State.setGasp_keeps
    | with_reducible apply State.startCommit_keeps
    | with_reducible apply Keeps.ite
    | refine Keeps.snd ?_ (by assumption)
    | refine Keeps.snd2 ?_ (by assumption)
    | with_reducible apply hx
    | split

theorem State.gaspCommit_keeps {ar : List Area} {s t : State} (h : Keeps ar s t)
    (hp : Allows ar [.regs, .gasp, .dic, .trunks, .node, .cls] := by first | assumption | (refine Allows.mono ?_ (by assumption); decide)) :
    Keeps ar s (State.gaspCommit t) := by
  unfold State.gaspCommit
  repeat' first
    | with_reducible assumption
    | exact Allows.mono (by decide) hp
    | with_reducible intro _
    | with_reducible apply State.dropCommit_keeps
    | with_reducible apply State.gaspCheck_keeps
    | with_reducible apply State.setGasp_keeps
    | with_reducible apply State.startCommit_keeps

theorem State.define_keeps {ar : List Area} {s t : State} (h : Keeps ar s t) (len : Nat)
    (hp : Allows ar [.dic] := by first | assumption | (refine Allows.mono ?_ (by assumption); decide)) :
    Keeps ar s (State.define t len).2 := by
  unfold State.define
  repeat' first
    | with_reducible assumption
    | exact Allows.mono (by decide) hp
    | with_reducible apply State.setDic_keeps
    | with_reducible apply Keeps.ite
    | (lift_lets; intro x; clear_value x)
    | with_reducible apply hx
    | split
    | dsimp only

theorem State.undefine_keeps {ar : List Area} {s t : State} (h : Keeps ar s t)
    (hp : Allows ar [.regs, .dic] := by first | assumption | (refine Allows.mono ?_ (by assumption); decide)) :
    Keeps ar s (State.undefine t).2 := by
  unfold State.undefine
  repeat' first
    | with_reducible assumption
    | exact Allows.mono (by decide) hp
    | with_reducible apply State.setDic_keeps
    | with_reducible apply State.showDirty_keeps
    | with_reducible apply Keeps.ite
    | refine Keeps.snd ?_ (by assumption)
    | refine Keeps.snd2 ?_ (by assumption)
    | (lift_lets; intro x; clear_value x)
    | with_reducible apply hx
    | split

theorem State.restoreDefaults_keeps {ar : List Area} {s t : State} (h : Keeps ar s t)
    (hp : Allows ar [.regs, .stage, .slv, .out, .free, .tbs, .trigs, .dic, .flt, .trunks, .node, .gload, .cls, .funcs] := by first | assumption | (refine Allows.mono ?_ (by assumption); decide)) :
    Keeps ar s (State.restoreDefaults t) := by
  unfold State.restoreDefaults
  repeat' first
    | with_reducible assumption
    | exact Allows.mono (by decide) hp
    | with_reducible intro _
    | with_reducible apply State.putVal_keeps
    | with_reducible apply State.setVal_keeps
    | with_reducible apply Keeps.forEach
    | with_reducible apply Keeps.ite

theorem State.dicOther_keeps {ar : List Area} {s t : State} (h : Keeps ar s t) (op : Nat) (len : Nat)
    (hp : Allows ar [.regs, .stage, .slv, .out, .free, .tbs, .trigs, .dic, .flt, .trunks, .node, .gload, .cls, .funcs] := by first | assumption | (refine Allows.mono ?_ (by assumption); decide)) :
    Keeps ar s (State.dicOther t op len).2 := by
  unfold State.dicOther
  repeat' first
    | with_reducible assumption
    | exact Allows.mono (by decide) hp
    | with_reducible apply State.define_keeps
    | with_reducible apply State.putVal_keeps
    | with_reducible apply State.restoreDefaults_keeps
    | with_reducible apply State.startCommit_keeps
    | with_reducible apply State.undefine_keeps
    | with_reducible apply Keeps.ite
    | split

theorem State.dicCmd_keeps {ar : List Area} {s t : State} (h : Keeps ar s t) (op : Nat) (len : Nat)
    (hp : Allows ar [.regs, .stage, .slv, .out, .free, .tbs, .trigs, .dic, .flt, .trunks, .node, .gload, .cls, .emem, .funcs] := by first | assumption | (refine Allows.mono ?_ (by assumption); decide)) :
    Keeps ar s (State.dicCmd t op len) := by
  unfold State.dicCmd
  repeat' first
    | with_reducible assumption
    | exact Allows.mono (by decide) hp
    | with_reducible apply State.dicDone_keeps
    | with_reducible apply State.dicEnd_keeps
    | with_reducible apply State.dicOther_keeps
    | with_reducible apply State.fsets_keeps
    | with_reducible apply State.hostRequest_keeps
    | with_reducible apply State.raise_keeps
    | with_reducible apply Keeps.ite

theorem State.dicCmdWrite_keeps {ar : List Area} {s t : State} (h : Keeps ar s t) (data : Word)
    (hp : Allows ar [.regs, .stage, .slv, .out, .free, .tbs, .trigs, .dic, .flt, .trunks, .node, .gload, .cls, .emem, .funcs] := by first | assumption | (refine Allows.mono ?_ (by assumption); decide)) :
    Keeps ar s (State.dicCmdWrite data t) := by
  unfold State.dicCmdWrite
  repeat' first
    | with_reducible assumption
    | exact Allows.mono (by decide) hp
    | with_reducible apply State.dicCmd_keeps
    | with_reducible apply State.writeFields_keeps
    | with_reducible apply Keeps.ite

theorem State.dicExec_keeps {ar : List Area} {s t : State} (h : Keeps ar s t) (fn : Nat) (op : Nat) (len : Nat)
    (hp : Allows ar [.regs, .stage, .slv, .out, .free, .tbs, .trigs, .frames, .ports, .dic, .flt, .trunks, .node, .pipes, .gload, .cls, .emem, .funcs, .qps, .mem, .dmas] := by first | assumption | (refine Allows.mono ?_ (by assumption); decide)) :
    Keeps ar s (State.dicExec t fn op len) := by
  unfold State.dicExec
  repeat' first
    | with_reducible assumption
    | exact Allows.mono (by decide) hp
    | with_reducible intro _
    | with_reducible apply State.access_keeps
    | with_reducible apply State.dicCmdWrite_keeps

theorem State.loadRec_keeps {ar : List Area} {s t : State} (h : Keeps ar s t) (k : Nat) (typ : Nat) (v : List Byte) (d : Option ObjDef)
    (hp : Allows ar [.regs, .dic] := by first | assumption | (refine Allows.mono ?_ (by assumption); decide)) :
    Keeps ar s (State.loadRec t k typ v d) := by
  unfold State.loadRec
  repeat' first
    | with_reducible assumption
    | exact Allows.mono (by decide) hp
    | with_reducible apply State.fsat_keeps
    | with_reducible apply State.setDic_keeps
    | with_reducible apply Keeps.ite
    | refine Keeps.snd ?_ (by assumption)
    | refine Keeps.snd2 ?_ (by assumption)
    | (lift_lets; intro x; clear_value x)
    | with_reducible apply hx
    | split

theorem State.loadAll_keeps {ar : List Area} {s t : State} (h : Keeps ar s t) (p : List Byte) (n : Nat)
    (hp : Allows ar [.regs, .dic] := by first | assumption | (refine Allows.mono ?_ (by assumption); decide)) : Keeps ar s (t.loadAll p n) := by
  induction n generalizing t p with
  | zero => exact h
  | succ n ih =>
    unfold State.loadAll
    split
    · exact ih (State.loadRec_keeps h _ _ _ _) _
    · exact h

theorem State.readHeaders_keeps {ar : List Area} {s t : State} (h : Keeps ar s t)
    (hp : Allows ar [.regs] := by first | assumption | (refine Allows.mono ?_ (by assumption); decide)) :
    Keeps ar s (State.readHeaders t) := by
  unfold State.readHeaders
  repeat' first
    | with_reducible assumption
    | exact Allows.mono (by decide) hp
    | with_reducible apply State.fset_keeps
    | with_reducible apply State.fsets_keeps
    | refine Keeps.snd ?_ (by assumption)
    | refine Keeps.snd2 ?_ (by assumption)
    | split

theorem State.restoreStore_keeps {ar : List Area} {s t : State} (h : Keeps ar s t)
    (hp : Allows ar [.regs, .dic] := by first | assumption | (refine Allows.mono ?_ (by assumption); decide)) :
    Keeps ar s (State.restoreStore t) := by
  unfold State.restoreStore
  repeat' first
    | with_reducible assumption
    | exact Allows.mono (by decide) hp
    | with_reducible intro _
    | with_reducible apply State.fset_keeps
    | with_reducible apply State.loadAll_keeps
    | with_reducible apply State.loadNv_keeps
    | with_reducible apply State.raise_keeps
    | with_reducible apply State.readHeaders_keeps
    | with_reducible apply State.setDic_keeps
    | refine Keeps.snd ?_ (by assumption)
    | refine Keeps.snd2 ?_ (by assumption)
    | with_reducible apply hx
    | split

theorem State.dicWake_keeps {ar : List Area} {s t : State} (h : Keeps ar s t)
    (hp : Allows ar [.regs] := by first | assumption | (refine Allows.mono ?_ (by assumption); decide)) :
    Keeps ar s (State.dicWake t) := by
  unfold State.dicWake
  repeat' first
    | with_reducible assumption
    | exact Allows.mono (by decide) hp
    | with_reducible apply State.fset_keeps
    | with_reducible apply State.readHeaders_keeps
    | with_reducible apply State.showDirty_keeps
    | with_reducible apply Keeps.ite

theorem State.dicReset_keeps {ar : List Area} {s t : State} (h : Keeps ar s t) (step : Nat)
    (hp : Allows ar [.regs, .dic] := by first | assumption | (refine Allows.mono ?_ (by assumption); decide)) :
    Keeps ar s (State.dicReset t step) := by
  unfold State.dicReset
  repeat' first
    | with_reducible assumption
    | exact Allows.mono (by decide) hp
    | with_reducible apply State.dropCommit_keeps
    | with_reducible apply State.setDic_keeps

theorem State.collapseStore_keeps {ar : List Area} {s t : State} (h : Keeps ar s t) (step : Nat) (torn : Word) (written : Nat)
    (hp : Allows ar [.dic] := by first | assumption | (refine Allows.mono ?_ (by assumption); decide)) :
    Keeps ar s (State.collapseStore t step torn written) := by
  unfold State.collapseStore
  repeat' first
    | with_reducible assumption
    | exact Allows.mono (by decide) hp
    | with_reducible apply State.setSlot_keeps
    | with_reducible apply Keeps.ite
    | refine Keeps.snd ?_ (by assumption)
    | refine Keeps.snd2 ?_ (by assumption)
    | with_reducible apply hx
    | split

theorem State.powerOn_keeps {ar : List Area} {s t : State} (h : Keeps ar s t)
    (hp : Allows ar [.regs, .stage, .hold, .slv, .rst, .req, .halves, .settle, .tbs, .pps, .gens, .trigs, .frames, .nextFrame, .ports, .taken, .latches, .doms, .gasp, .dic, .flt, .trunks, .slots, .node, .pipes, .graph, .gload, .cls, .ems, .threads, .wheel, .emem, .splices, .funcs, .qps, .binds, .admin, .mem, .chks, .dmas] := by first | assumption | (refine Allows.mono ?_ (by assumption); decide)) :
    Keeps ar s (State.powerOn t) := by
  exact h.trans ⟨fun a ha => by cases a <;> first | rfl | exact absurd (hp.mem _ (by simp)) ha, fun _ => ⟨rfl, rfl⟩⟩

/-! ### Machine/Faults.lean -/

theorem State.wdogWrite_keeps {ar : List Area} {s t : State} (h : Keeps ar s t) (data : Word)
    (hp : Allows ar [.regs, .stage, .slv, .flt] := by first | assumption | (refine Allows.mono ?_ (by assumption); decide)) :
    Keeps ar s (State.wdogWrite data t) := by
  unfold State.wdogWrite
  repeat' first
    | with_reducible assumption
    | exact Allows.mono (by decide) hp
    | with_reducible apply State.setFlt_keeps
    | with_reducible apply State.writeFields_keeps

theorem State.fltClearWrite_keeps {ar : List Area} {s t : State} (h : Keeps ar s t) (data : Word)
    (hp : Allows ar [.regs, .stage, .slv] := by first | assumption | (refine Allows.mono ?_ (by assumption); decide)) :
    Keeps ar s (State.fltClearWrite data t) := by
  unfold State.fltClearWrite
  repeat' first
    | with_reducible assumption
    | exact Allows.mono (by decide) hp
    | with_reducible apply State.fset_keeps
    | with_reducible apply State.fsets_keeps
    | with_reducible apply State.wr_keeps
    | with_reducible apply State.writeFields_keeps
    | with_reducible apply Keeps.ite

theorem State.fltStatWrite_keeps {ar : List Area} {s t : State} (h : Keeps ar s t) (data : Word)
    (hp : Allows ar [.regs, .stage, .slv] := by first | assumption | (refine Allows.mono ?_ (by assumption); decide)) :
    Keeps ar s (State.fltStatWrite data t) := by
  unfold State.fltStatWrite
  repeat' first
    | with_reducible assumption
    | exact Allows.mono (by decide) hp
    | with_reducible apply State.writeFields_keeps
    | with_reducible apply Keeps.ite

theorem State.fltLogWrite_keeps {ar : List Area} {s t : State} (h : Keeps ar s t) (n : Nat) (key : Nat) (data : Word)
    (hp : Allows ar [.regs, .stage, .slv] := by first | assumption | (refine Allows.mono ?_ (by assumption); decide)) :
    Keeps ar s (State.fltLogWrite n key data t) := by
  unfold State.fltLogWrite
  repeat' first
    | with_reducible assumption
    | exact Allows.mono (by decide) hp
    | with_reducible apply State.writeFields_keeps
    | with_reducible apply Keeps.ite

/-! ### Machine/Block.lean -/

theorem State.showPma_keeps {ar : List Area} {s t : State} (h : Keeps ar s t) (hh : Nat)
    (hp : Allows ar [.regs] := by first | assumption | (refine Allows.mono ?_ (by assumption); decide)) :
    Keeps ar s (State.showPma t hh) := by
  unfold State.showPma
  repeat' first
    | with_reducible assumption
    | exact Allows.mono (by decide) hp
    | with_reducible intro _
    | with_reducible apply State.fset_keeps
    | with_reducible apply Keeps.forEach

theorem State.outputsReset_keeps {ar : List Area} {s t : State} (h : Keeps ar s t)
    (hp : Allows ar [.regs, .out, .pps, .gens, .trigs] := by first | assumption | (refine Allows.mono ?_ (by assumption); decide)) :
    Keeps ar s (State.outputsReset t) := by
  unfold State.outputsReset
  repeat' first
    | with_reducible assumption
    | exact Allows.mono (by decide) hp
    | with_reducible intro _
    | with_reducible apply State.clearCtu_keeps
    | with_reducible apply State.irqDrop_keeps
    | with_reducible apply State.laneReset_keeps
    | with_reducible apply State.ppsReset_keeps
    | with_reducible apply State.speedReset_keeps
    | with_reducible apply Keeps.forEach
    | with_reducible apply Keeps.ite

theorem State.blkReset_keeps {ar : List Area} {s t : State} (h : Keeps ar s t) (step : Nat)
    (hp : Allows ar [.regs, .stage, .hold, .slv, .out, .rst, .req, .halves, .settle, .tbs, .pps, .gens, .trigs, .frames, .nextFrame, .ports, .taken, .gasp, .dic, .flt, .trunks, .slots, .node, .pipes, .graph, .gload, .cls, .ems, .threads, .wheel, .emem, .splices, .funcs, .qps, .binds, .admin, .mem, .chks, .dmas] := by first | assumption | (refine Allows.mono ?_ (by assumption); decide)) :
    Keeps ar s (State.blkReset t step) := by
  unfold State.blkReset
  lift_lets
  intro s1 s2 s3 s4
  have h1 : Keeps ar s s1 := State.dicReset_keeps (State.outputsReset_keeps h) _
  have h2 : Keeps ar s s2 := by
    apply Keeps.forEach h1
    intro a u hu
    exact Keeps.ite (State.chkEnd_keeps hu _ _ _ _) hu
  have h3 : Keeps ar s s3 := State.gaspCheck_keeps (State.setGasp_keeps h2 _)
  have h4 : Keeps ar s s4 := State.clearKeys_keeps h3 _
  clear_value s4 s3 s2 s1
  exact h4.trans ⟨fun a ha => by cases a <;> first | rfl | exact absurd (hp.mem _ (by simp)) ha, fun x => ⟨x.1, x.2⟩⟩

theorem State.setHalfLow_keeps {ar : List Area} {s t : State} (h : Keeps ar s t) (hh : Nat) (low : Bool)
    (hp : Allows ar [.rst] := by first | assumption | (refine Allows.mono ?_ (by assumption); decide)) :
    Keeps ar s (State.setHalfLow t hh low) := by
  unfold State.setHalfLow
  repeat' first
    | with_reducible assumption
    | exact Allows.mono (by decide) hp
    | with_reducible apply State.setRst_keeps

theorem State.halfGone_keeps {ar : List Area} {s t : State} (h : Keeps ar s t) (hh : Nat)
    (hp : Allows ar [.regs, .halves] := by first | assumption | (refine Allows.mono ?_ (by assumption); decide)) :
    Keeps ar s (State.halfGone t hh) := by
  unfold State.halfGone
  repeat' first
    | with_reducible assumption
    | exact Allows.mono (by decide) hp
    | with_reducible apply State.fsets_keeps
    | with_reducible apply State.setHalf_keeps

theorem State.halfReset_keeps {ar : List Area} {s t : State} (h : Keeps ar s t) (hh : Nat)
    (hp : Allows ar [.regs, .stage, .hold, .out, .tbs, .pps, .gens, .trigs, .frames, .ports, .gasp, .trunks, .slots, .node, .pipes, .cls, .threads, .wheel, .emem, .splices, .qps, .mem] := by first | assumption | (refine Allows.mono ?_ (by assumption); decide)) :
    Keeps ar s (State.halfReset t hh) := by
  unfold State.halfReset
  repeat' first
    | with_reducible assumption
    | exact Allows.mono (by decide) hp
    | with_reducible intro _
    | with_reducible apply State.clearCtu_keeps
    | with_reducible apply State.clearKeys_keeps
    | with_reducible apply State.clearThreads_keeps
    | with_reducible apply State.clearTrunk_keeps
    | with_reducible apply State.dropPort_keeps
    | with_reducible apply State.emptyPipe_keeps
    | with_reducible apply State.laneReset_keeps
    | with_reducible apply State.ppsReset_keeps
    | with_reducible apply State.setHalfMode_keeps
    | with_reducible apply State.setTbs_keeps
    | with_reducible apply State.speedReset_keeps
    | with_reducible apply Keeps.forEach

theorem State.refuseMode_keeps {ar : List Area} {s t : State} (h : Keeps ar s t)
    (hp : Allows ar [.regs] := by first | assumption | (refine Allows.mono ?_ (by assumption); decide)) :
    Keeps ar s (State.refuseMode t) := by
  unfold State.refuseMode
  repeat' first
    | with_reducible assumption
    | exact Allows.mono (by decide) hp
    | with_reducible apply State.setFlag_keeps

theorem State.loseService_keeps {ar : List Area} {s t : State} (h : Keeps ar s t)
    (hp : Allows ar [.regs, .stage, .hold, .out, .frames, .ports, .funcs, .qps, .binds, .admin, .mem, .dmas] := by first | assumption | (refine Allows.mono ?_ (by assumption); decide)) :
    Keeps ar s (State.loseService t) := by
  unfold State.loseService
  repeat' first
    | with_reducible assumption
    | exact Allows.mono (by decide) hp
    | with_reducible intro _
    | with_reducible apply State.clearKeys_keeps
    | with_reducible apply State.irqDrop_keeps
    | with_reducible apply State.setAdmin_keeps
    | with_reducible apply State.setBinds_keeps
    | with_reducible apply State.setDmas_keeps
    | with_reducible apply State.setFuncs_keeps
    | with_reducible apply State.setQps_keeps
    | with_reducible apply State.tidy_keeps
    | with_reducible apply Keeps.forEach
    | with_reducible apply Keeps.ite

theorem State.goDormant_keeps {ar : List Area} {s t : State} (h : Keeps ar s t)
    (hp : Allows ar [.regs, .stage, .hold, .out, .free, .trigs, .frames, .ports, .doms, .flt, .trunks, .node, .gload, .cls, .funcs, .qps, .binds, .admin, .mem, .dmas] := by first | assumption | (refine Allows.mono ?_ (by assumption); decide)) :
    Keeps ar s (State.goDormant t) := by
  unfold State.goDormant
  repeat' first
    | with_reducible assumption
    | exact Allows.mono (by decide) hp
    | with_reducible intro _
    | with_reducible apply State.driveTrunks_keeps
    | with_reducible apply State.fsets_keeps
    | with_reducible apply State.loseService_keeps
    | with_reducible apply State.setDom_keeps
    | with_reducible apply State.setMode_keeps
    | with_reducible apply Keeps.forEach

theorem State.goIntegrate_keeps {ar : List Area} {s t : State} (h : Keeps ar s t)
    (hp : Allows ar [.regs, .out, .free, .trigs, .flt, .trunks, .node, .gload, .cls, .funcs] := by first | assumption | (refine Allows.mono ?_ (by assumption); decide)) :
    Keeps ar s (State.goIntegrate t) := by
  unfold State.goIntegrate
  repeat' first
    | with_reducible assumption
    | exact Allows.mono (by decide) hp
    | with_reducible intro _
    | with_reducible apply State.csStart_keeps
    | with_reducible apply State.fsets_keeps
    | with_reducible apply State.setJoined_keeps
    | with_reducible apply State.setMode_keeps
    | with_reducible apply State.syncTrigs_keeps
    | with_reducible apply Keeps.forEach
    | with_reducible apply Keeps.ite

theorem State.modeCheck_keeps {ar : List Area} {s t : State} (h : Keeps ar s t) (target : Nat)
    (hp : Allows ar [.regs, .stage, .hold, .out, .free, .trigs, .frames, .ports, .doms, .flt, .trunks, .node, .pipes, .gload, .cls, .emem, .funcs, .qps, .binds, .admin, .mem, .dmas] := by first | assumption | (refine Allows.mono ?_ (by assumption); decide)) :
    Keeps ar s (State.modeCheck t target) := by
  unfold State.modeCheck
  repeat' first
    | with_reducible assumption
    | exact Allows.mono (by decide) hp
    | with_reducible apply State.enterSafehold_keeps
    | with_reducible apply State.goDormant_keeps
    | with_reducible apply State.goIntegrate_keeps
    | with_reducible apply State.refuseMode_keeps
    | with_reducible apply State.setMode_keeps
    | with_reducible apply Keeps.ite
    | refine Keeps.snd ?_ (by assumption)
    | refine Keeps.snd2 ?_ (by assumption)
    | (lift_lets; intro x; clear_value x)
    | with_reducible apply hx
    | split

theorem State.modeWrite_keeps {ar : List Area} {s t : State} (h : Keeps ar s t) (clr : Bool) (go : Bool) (target : Nat) (meets : Bool)
    (hp : Allows ar [.regs, .stage, .hold, .out, .free, .req, .trigs, .frames, .ports, .doms, .flt, .trunks, .node, .pipes, .gload, .cls, .emem, .funcs, .qps, .binds, .admin, .mem, .dmas] := by first | assumption | (refine Allows.mono ?_ (by assumption); decide)) :
    Keeps ar s (State.modeWrite clr go target meets t) := by
  unfold State.modeWrite
  repeat' first
    | with_reducible assumption
    | exact Allows.mono (by decide) hp
    | with_reducible apply State.fset_keeps
    | with_reducible apply State.modeCheck_keeps
    | with_reducible apply State.refuseMode_keeps
    | with_reducible apply State.setReq_keeps
    | with_reducible apply Keeps.ite

theorem State.lostCheck_keeps {ar : List Area} {s t : State} (h : Keeps ar s t)
    (hp : Allows ar [.regs, .out, .free, .trigs, .flt, .trunks, .node, .gload, .cls, .funcs] := by first | assumption | (refine Allows.mono ?_ (by assumption); decide)) :
    Keeps ar s (State.lostCheck t) := by
  unfold State.lostCheck
  repeat' first
    | with_reducible assumption
    | exact Allows.mono (by decide) hp
    | with_reducible apply State.fixDegraded_keeps
    | with_reducible apply State.fset_keeps
    | with_reducible apply Keeps.ite

theorem State.spineUp_keeps {ar : List Area} {s t : State} (h : Keeps ar s t) (hh : Nat)
    (hp : Allows ar [.regs, .out, .tbs, .gens, .trigs, .frames, .ports, .trunks, .node, .pipes, .cls, .emem, .qps, .mem] := by first | assumption | (refine Allows.mono ?_ (by assumption); decide)) :
    Keeps ar s (State.spineUp t hh) := by
  unfold State.spineUp
  repeat' first
    | with_reducible assumption
    | exact Allows.mono (by decide) hp
    | with_reducible apply State.safeholdHalf_keeps
    | with_reducible apply State.setHalfMode_keeps
    | with_reducible apply State.tbRestart_keeps
    | with_reducible apply Keeps.ite
    | refine Keeps.snd ?_ (by assumption)
    | refine Keeps.snd2 ?_ (by assumption)
    | (lift_lets; intro x; clear_value x)
    | with_reducible apply hx
    | split

theorem State.setLost_keeps {ar : List Area} {s t : State} (h : Keeps ar s t)
    (hp : Allows ar [.regs] := by first | assumption | (refine Allows.mono ?_ (by assumption); decide)) :
    Keeps ar s (State.setLost t) := by
  unfold State.setLost
  repeat' first
    | with_reducible assumption
    | exact Allows.mono (by decide) hp
    | with_reducible apply State.setFlag_keeps
    | with_reducible apply Keeps.ite

theorem State.leadCourses_keeps {ar : List Area} {s t : State} (h : Keeps ar s t) (w : Nat)
    (hp : Allows ar [.regs, .halves, .cls] := by first | assumption | (refine Allows.mono ?_ (by assumption); decide)) :
    Keeps ar s (State.leadCourses t w) := by
  unfold State.leadCourses
  repeat' first
    | with_reducible assumption
    | exact Allows.mono (by decide) hp
    | with_reducible intro _
    | with_reducible apply State.fset_keeps
    | with_reducible apply State.setCls_keeps
    | with_reducible apply State.setHalf_keeps
    | with_reducible apply State.showCourses_keeps
    | refine Keeps.snd ?_ (by assumption)
    | refine Keeps.snd2 ?_ (by assumption)
    | (lift_lets; intro x; clear_value x)
    | with_reducible apply hx
    | split

theorem State.leadEvent_keeps {ar : List Area} {s t : State} (h : Keeps ar s t) (winner : Nat) (epoch : Nat) (cause : Nat)
    (hp : Allows ar [.regs, .halves, .tbs, .cls] := by first | assumption | (refine Allows.mono ?_ (by assumption); decide)) :
    Keeps ar s (State.leadEvent t winner epoch cause) := by
  unfold State.leadEvent
  repeat' first
    | with_reducible assumption
    | exact Allows.mono (by decide) hp
    | with_reducible intro _
    | with_reducible apply State.dropFollow_keeps
    | with_reducible apply State.fsets_keeps
    | with_reducible apply State.leadCourses_keeps
    | with_reducible apply State.raise_keeps
    | with_reducible apply State.setHalf_keeps
    | with_reducible apply Keeps.forEach

theorem State.degradeHalf_keeps {ar : List Area} {s t : State} (h : Keeps ar s t) (hh : Nat)
    (hp : Allows ar [.regs, .out, .trigs, .trunks, .node, .cls] := by first | assumption | (refine Allows.mono ?_ (by assumption); decide)) :
    Keeps ar s (State.degradeHalf t hh) := by
  unfold State.degradeHalf
  repeat' first
    | with_reducible assumption
    | exact Allows.mono (by decide) hp
    | with_reducible apply State.setHalfMode_keeps
    | with_reducible apply Keeps.ite

theorem State.takeLead_keeps {ar : List Area} {s t : State} (h : Keeps ar s t) (hh : Nat) (full : State → State) (hfull : ∀ u, Keeps ar s u → Keeps ar s (full u))
    (hp : Allows ar [.regs, .out, .free, .halves, .tbs, .trigs, .flt, .trunks, .node, .gload, .cls, .funcs] := by first | assumption | (refine Allows.mono ?_ (by assumption); decide)) :
    Keeps ar s (State.takeLead t hh full) := by
  unfold State.takeLead
  repeat' first
    | with_reducible assumption
    | exact Allows.mono (by decide) hp
    | with_reducible intro _
    | with_reducible apply hfull
    | with_reducible apply State.degradeHalf_keeps
    | with_reducible apply State.fixDegraded_keeps
    | with_reducible apply State.leadEvent_keeps
    | with_reducible apply State.setLost_keeps
    | with_reducible apply State.setMode_keeps
    | with_reducible apply Keeps.ite

theorem State.loseHalfBanks_keeps {ar : List Area} {s t : State} (h : Keeps ar s t) (hh : Nat)
    (hp : Allows ar [.regs, .frames, .ports, .pipes, .threads, .emem, .qps, .mem] := by first | assumption | (refine Allows.mono ?_ (by assumption); decide)) :
    Keeps ar s (State.loseHalfBanks t hh) := by
  unfold State.loseHalfBanks
  repeat' first
    | with_reducible assumption
    | exact Allows.mono (by decide) hp
    | with_reducible intro _
    | with_reducible apply State.loseFrames_keeps
    | with_reducible apply State.setQp_keeps
    | with_reducible apply Keeps.forEach

/-! ### Machine/Bus.lean -/

theorem State.plainWrite_keeps {ar : List Area} {s t : State} (h : Keeps ar s t) (key : Nat) (data : Word)
    (hp : Allows ar [.regs, .stage, .slv, .dic] := by first | assumption | (refine Allows.mono ?_ (by assumption); decide)) :
    Keeps ar s (State.plainWrite t key data) := by
  unfold State.plainWrite
  repeat' first
    | with_reducible assumption
    | exact Allows.mono (by decide) hp
    | with_reducible apply State.dicSync_keeps
    | with_reducible apply State.writeFields_keeps

theorem State.zeroWords_keeps {ar : List Area} {s t : State} (h : Keeps ar s t) (key : Nat) (n : Nat)
    (hp : Allows ar [.regs] := by first | assumption | (refine Allows.mono ?_ (by assumption); decide)) :
    Keeps ar s (State.zeroWords t key n) := by
  unfold State.zeroWords
  repeat' first
    | with_reducible assumption
    | exact Allows.mono (by decide) hp
    | with_reducible intro _
    | with_reducible apply State.wr_keeps
    | with_reducible apply Keeps.forEach

theorem State.clearCounters_keeps {ar : List Area} {s t : State} (h : Keeps ar s t) (key : Nat)
    (hp : Allows ar [.regs] := by first | assumption | (refine Allows.mono ?_ (by assumption); decide)) :
    Keeps ar s (State.clearCounters t key) := by
  unfold State.clearCounters
  repeat' first
    | with_reducible assumption
    | exact Allows.mono (by decide) hp
    | with_reducible intro _
    | with_reducible apply State.zeroWords_keeps
    | with_reducible apply Keeps.forEach

theorem State.writeMac_keeps {ar : List Area} {s t : State} (h : Keeps ar s t) (key : Nat) (data : Word)
    (hp : Allows ar [.regs, .stage, .slv, .out, .ports, .dic, .trunks, .node] := by first | assumption | (refine Allows.mono ?_ (by assumption); decide)) :
    Keeps ar s (State.writeMac t key data) := by
  unfold State.writeMac
  repeat' first
    | with_reducible assumption
    | exact Allows.mono (by decide) hp
    | with_reducible apply State.fcCheck_keeps
    | with_reducible apply State.gclCtlWrite_keeps
    | with_reducible apply State.gclEntryWrite_keeps
    | with_reducible apply State.macCtlWrite_keeps
    | with_reducible apply State.plainWrite_keeps
    | with_reducible apply State.preemptUpdate_keeps
    | with_reducible apply Keeps.ite

theorem State.writeTrk_keeps {ar : List Area} {s t : State} (h : Keeps ar s t) (key : Nat) (data : Word)
    (hp : Allows ar [.regs, .stage, .slv, .out, .free, .trigs, .dic, .flt, .trunks, .slots, .node, .gload, .cls, .funcs] := by first | assumption | (refine Allows.mono ?_ (by assumption); decide)) :
    Keeps ar s (State.writeTrk t key data) := by
  unfold State.writeTrk
  repeat' first
    | with_reducible assumption
    | exact Allows.mono (by decide) hp
    | with_reducible apply State.dicSync_keeps
    | with_reducible apply State.fixDegraded_keeps
    | with_reducible apply State.gearWrite_keeps
    | with_reducible apply State.plainWrite_keeps
    | with_reducible apply State.protCmd_keeps
    | with_reducible apply State.protUpdate_keeps
    | with_reducible apply State.ringCfgWrite_keeps
    | with_reducible apply State.shiftWrite_keeps
    | with_reducible apply State.slotWrite_keeps
    | with_reducible apply State.trkCfgWrite_keeps
    | with_reducible apply Keeps.ite

theorem State.writeCls_keeps {ar : List Area} {s t : State} (h : Keeps ar s t) (key : Nat) (data : Word)
    (hp : Allows ar [.regs, .stage, .slv, .dic, .cls, .ems, .mem] := by first | assumption | (refine Allows.mono ?_ (by assumption); decide)) :
    Keeps ar s (State.writeCls t key data) := by
  unfold State.writeCls
  repeat' first
    | with_reducible assumption
    | exact Allows.mono (by decide) hp
    | with_reducible intro _
    | with_reducible apply State.commitWrite_keeps
    | with_reducible apply State.emCfgWrite_keeps
    | with_reducible apply State.emCmdWrite_keeps
    | with_reducible apply State.flushWrite_keeps
    | with_reducible apply State.plainWrite_keeps
    | with_reducible apply State.setCls_keeps
    | with_reducible apply State.stageCtlWrite_keeps
    | with_reducible apply State.tcamCmdWrite_keeps
    | with_reducible apply Keeps.ite

theorem State.writeCe_keeps {ar : List Area} {s t : State} (h : Keeps ar s t) (key : Nat) (data : Word)
    (hp : Allows ar [.regs, .stage, .slv, .dic] := by first | assumption | (refine Allows.mono ?_ (by assumption); decide)) :
    Keeps ar s (State.writeCe t key data) := by
  unfold State.writeCe
  repeat' first
    | with_reducible assumption
    | exact Allows.mono (by decide) hp
    | with_reducible apply State.ceCtlWrite_keeps
    | with_reducible apply State.ctlThread_keeps
    | with_reducible apply State.deny_keeps
    | with_reducible apply State.plainWrite_keeps
    | with_reducible apply State.postEvt_keeps
    | with_reducible apply Keeps.ite

theorem State.writeTime_keeps {ar : List Area} {s t : State} (h : Keeps ar s t) (key : Nat) (data : Word)
    (hp : Allows ar [.regs, .stage, .slv, .out, .tbs, .pps, .gens, .trigs, .dic, .trunks] := by first | assumption | (refine Allows.mono ?_ (by assumption); decide)) :
    Keeps ar s (State.writeTime t key data) := by
  unfold State.writeTime
  repeat' first
    | with_reducible assumption
    | exact Allows.mono (by decide) hp
    | with_reducible apply State.genCfgWrite_keeps
    | with_reducible apply State.genSetupWrite_keeps
    | with_reducible apply State.genStatWrite_keeps
    | with_reducible apply State.plainWrite_keeps
    | with_reducible apply State.snapCmd_keeps
    | with_reducible apply State.tbRateWrite_keeps
    | with_reducible apply State.tbSetHigh_keeps
    | with_reducible apply State.tbSetLow_keeps
    | with_reducible apply State.tbStepHigh_keeps
    | with_reducible apply State.tbStepLow_keeps
    | with_reducible apply State.trigWrite_keeps
    | with_reducible apply Keeps.ite

theorem State.writeQ_keeps {ar : List Area} {s t : State} (h : Keeps ar s t) (key : Nat) (data : Word)
    (hp : Allows ar [.regs, .stage, .slv, .dic, .qps] := by first | assumption | (refine Allows.mono ?_ (by assumption); decide)) :
    Keeps ar s (State.writeQ t key data) := by
  unfold State.writeQ
  repeat' first
    | with_reducible assumption
    | exact Allows.mono (by decide) hp
    | with_reducible apply State.admin0Write_keeps
    | with_reducible apply State.deny_keeps
    | with_reducible apply State.plainWrite_keeps
    | with_reducible apply State.setQp_keeps
    | with_reducible apply Keeps.ite

theorem State.writeDma_keeps {ar : List Area} {s t : State} (h : Keeps ar s t) (key : Nat) (data : Word)
    (hp : Allows ar [.regs, .stage, .slv, .dic, .dmas] := by first | assumption | (refine Allows.mono ?_ (by assumption); decide)) :
    Keeps ar s (State.writeDma t key data) := by
  unfold State.writeDma
  repeat' first
    | with_reducible assumption
    | exact Allows.mono (by decide) hp
    | with_reducible apply State.deny_keeps
    | with_reducible apply State.dmaCtlWrite_keeps
    | with_reducible apply State.dmaHeadWrite_keeps
    | with_reducible apply State.plainWrite_keeps
    | with_reducible apply Keeps.ite

theorem State.writeChk_keeps {ar : List Area} {s t : State} (h : Keeps ar s t) (key : Nat) (data : Word)
    (hp : Allows ar [.regs, .stage, .slv, .dic, .emem, .chks] := by first | assumption | (refine Allows.mono ?_ (by assumption); decide)) :
    Keeps ar s (State.writeChk t key data) := by
  unfold State.writeChk
  repeat' first
    | with_reducible assumption
    | exact Allows.mono (by decide) hp
    | with_reducible apply State.chkCtlWrite_keeps
    | with_reducible apply State.plainWrite_keeps
    | with_reducible apply State.sealWrite_keeps
    | with_reducible apply Keeps.ite

theorem State.writeMem_keeps {ar : List Area} {s t : State} (h : Keeps ar s t) (key : Nat) (data : Word)
    (hp : Allows ar [.regs, .stage, .slv, .frames, .dic, .mem] := by first | assumption | (refine Allows.mono ?_ (by assumption); decide)) :
    Keeps ar s (State.writeMem t key data) := by
  unfold State.writeMem
  repeat' first
    | with_reducible assumption
    | exact Allows.mono (by decide) hp
    | with_reducible apply State.bankCmdWrite_keeps
    | with_reducible apply State.dbgWrite_keeps
    | with_reducible apply State.plainWrite_keeps
    | with_reducible apply State.setStage_keeps
    | with_reducible apply Keeps.ite

theorem State.writeSys_keeps {ar : List Area} {s t : State} (h : Keeps ar s t) (key : Nat) (data : Word)
    (hp : Allows ar [.regs, .stage, .hold, .slv, .out, .free, .req, .halves, .settle, .tbs, .pps, .gens, .trigs, .frames, .ports, .taken, .latches, .doms, .gasp, .dic, .flt, .trunks, .slots, .node, .pipes, .graph, .gload, .cls, .ems, .threads, .wheel, .emem, .splices, .funcs, .qps, .binds, .admin, .mem, .chks, .dmas] := by first | assumption | (refine Allows.mono ?_ (by assumption); decide)) :
    Keeps ar s (State.writeSys t key data) := by
  unfold State.writeSys
  repeat' first
    | with_reducible assumption
    | exact Allows.mono (by decide) hp
    | with_reducible apply State.dicCmdWrite_keeps
    | with_reducible apply State.fltClearWrite_keeps
    | with_reducible apply State.fltLogWrite_keeps
    | with_reducible apply State.fltStatWrite_keeps
    | with_reducible apply State.fset_keeps
    | with_reducible apply State.irqEoi_keeps
    | with_reducible apply State.irqSetPend_keeps
    | with_reducible apply State.plainWrite_keeps
    | with_reducible apply State.targetWrite_keeps
    | with_reducible apply State.wakeReq_keeps
    | with_reducible apply State.wdogWrite_keeps
    | with_reducible apply Keeps.ite

theorem State.routeWrite_keeps {ar : List Area} {s t : State} (h : Keeps ar s t) (key : Nat) (data : Word)
    (hp : Allows ar [.regs, .stage, .hold, .slv, .out, .free, .req, .halves, .settle, .tbs, .pps, .gens, .trigs, .frames, .ports, .taken, .latches, .doms, .gasp, .dic, .flt, .trunks, .slots, .node, .pipes, .graph, .gload, .cls, .ems, .threads, .wheel, .emem, .splices, .funcs, .qps, .binds, .admin, .mem, .chks, .dmas] := by first | assumption | (refine Allows.mono ?_ (by assumption); decide)) :
    Keeps ar s (State.routeWrite t key data) := by
  unfold State.routeWrite
  repeat' first
    | with_reducible assumption
    | exact Allows.mono (by decide) hp
    | with_reducible apply State.clearCounters_keeps
    | with_reducible apply State.loadCtlWrite_keeps
    | with_reducible apply State.modeWrite_keeps
    | with_reducible apply State.plainWrite_keeps
    | with_reducible apply State.writeCe_keeps
    | with_reducible apply State.writeChk_keeps
    | with_reducible apply State.writeCls_keeps
    | with_reducible apply State.writeDma_keeps
    | with_reducible apply State.writeMac_keeps
    | with_reducible apply State.writeMem_keeps
    | with_reducible apply State.writeQ_keeps
    | with_reducible apply State.writeSys_keeps
    | with_reducible apply State.writeTime_keeps
    | with_reducible apply State.writeTrk_keeps
    | with_reducible apply Keeps.ite

theorem State.winDoorbell_keeps {ar : List Area} {s t : State} (h : Keeps ar s t) (fn : Nat) (off : Nat) (write : Option Word)
    (hp : Allows ar [.regs, .slv, .out, .free, .trigs, .frames, .ports, .flt, .trunks, .node, .pipes, .gload, .cls, .emem, .funcs, .qps, .mem, .dmas] := by first | assumption | (refine Allows.mono ?_ (by assumption); decide)) :
    Keeps ar s (State.winDoorbell t fn off write) := by
  unfold State.winDoorbell
  repeat' first
    | with_reducible assumption
    | exact Allows.mono (by decide) hp
    | with_reducible intro _
    | with_reducible apply State.dbCq_keeps
    | with_reducible apply State.dbIgnored_keeps
    | with_reducible apply State.dbRing_keeps
    | with_reducible apply State.deny_keeps
    | with_reducible apply Ins.put_keeps
    | with_reducible apply State.qAccess_keeps
    | with_reducible apply State.setQp_keeps
    | with_reducible apply Keeps.ite
    | refine Keeps.snd ?_ (by assumption)
    | refine Keeps.snd2 ?_ (by assumption)
    | (lift_lets; intro x; clear_value x)
    | with_reducible apply hx
    | split

theorem State.winEngine_keeps {ar : List Area} {s t : State} (h : Keeps ar s t) (fn : Nat) (off : Nat) (write : Option (List Byte))
    (hp : Allows ar [.regs, .slv, .out, .free, .trigs, .frames, .ports, .flt, .trunks, .node, .pipes, .gload, .cls, .emem, .funcs, .qps, .mem, .dmas] := by first | assumption | (refine Allows.mono ?_ (by assumption); decide)) :
    Keeps ar s (State.winEngine t fn off write) := by
  unfold State.winEngine
  repeat' first
    | with_reducible assumption
    | exact Allows.mono (by decide) hp
    | with_reducible apply State.answer_keeps
    | with_reducible apply State.deny_keeps
    | with_reducible apply State.logDenied_keeps
    | with_reducible apply State.winWrite_keeps
    | with_reducible apply Keeps.ite
    | refine Keeps.snd ?_ (by assumption)
    | refine Keeps.snd2 ?_ (by assumption)
    | with_reducible apply hx
    | split

theorem State.denyFor_keeps {ar : List Area} {s t : State} (h : Keeps ar s t) (fn : Nat) (off : Nat)
    (hp : Allows ar [.regs, .slv, .out, .free, .trigs, .frames, .ports, .flt, .trunks, .node, .pipes, .gload, .cls, .emem, .funcs, .qps, .mem, .dmas] := by first | assumption | (refine Allows.mono ?_ (by assumption); decide)) :
    Keeps ar s (State.denyFor t fn off) := by
  unfold State.denyFor
  repeat' first
    | with_reducible assumption
    | exact Allows.mono (by decide) hp
    | with_reducible intro _
    | with_reducible apply State.deny_keeps
    | with_reducible apply State.logDenied_keeps
    | with_reducible apply State.qAccess_keeps
    | with_reducible apply Keeps.ite

theorem State.write32_keeps {ar : List Area} {s t : State} (h : Keeps ar s t) (fn : Nat) (off : Nat) (data : Word)
    (hp : Allows ar [.regs, .stage, .hold, .slv, .out, .free, .req, .halves, .settle, .tbs, .pps, .gens, .trigs, .frames, .ports, .taken, .latches, .doms, .gasp, .dic, .flt, .trunks, .slots, .node, .pipes, .graph, .gload, .cls, .ems, .threads, .wheel, .emem, .splices, .funcs, .qps, .binds, .admin, .mem, .chks, .dmas] := by first | assumption | (refine Allows.mono ?_ (by assumption); decide)) :
    Keeps ar s (State.write32 t fn off data) := by
  unfold State.write32
  repeat' first
    | with_reducible assumption
    | exact Allows.mono (by decide) hp
    | with_reducible intro _
    | with_reducible apply State.routeWrite_keeps
    | with_reducible apply State.winDoorbell_keeps
    | with_reducible apply State.winEngine_keeps
    | with_reducible apply State.writeAcc_keeps
    | with_reducible apply Keeps.ite

theorem State.busWrite_keeps {ar : List Area} {s t : State} (h : Keeps ar s t) (fn : Nat) (off : Nat) (size : Nat) (data : BitVec 64)
    (hp : Allows ar [.regs, .stage, .hold, .slv, .out, .free, .req, .halves, .settle, .tbs, .pps, .gens, .trigs, .frames, .ports, .taken, .latches, .doms, .gasp, .dic, .flt, .trunks, .slots, .node, .pipes, .graph, .gload, .cls, .ems, .threads, .wheel, .emem, .splices, .funcs, .qps, .binds, .admin, .mem, .chks, .dmas] := by first | assumption | (refine Allows.mono ?_ (by assumption); decide)) :
    Keeps ar s (State.busWrite t fn off size data) := by
  unfold State.busWrite
  repeat' first
    | with_reducible assumption
    | exact Allows.mono (by decide) hp
    | with_reducible apply State.deny_keeps
    | with_reducible apply State.denyFor_keeps
    | with_reducible apply State.winEngine_keeps
    | with_reducible apply State.write32_keeps
    | with_reducible apply Keeps.ite

theorem State.readKey_keeps {ar : List Area} {s t : State} (h : Keeps ar s t) (key : Nat)
    (hp : Allows ar [.regs, .hold, .slv, .free, .mem] := by first | assumption | (refine Allows.mono ?_ (by assumption); decide)) :
    Keeps ar s (State.readKey t key) := by
  unfold State.readKey
  repeat' first
    | with_reducible assumption
    | exact Allows.mono (by decide) hp
    | with_reducible apply State.answer_keeps
    | with_reducible apply State.dbgRead_keeps
    | with_reducible apply State.deny_keeps
    | with_reducible apply State.latchHigh_keeps
    | with_reducible apply State.latchNext_keeps
    | with_reducible apply State.nodeDataRead_keeps
    | with_reducible apply State.slotDataRead_keeps
    | with_reducible apply State.snapRead_keeps
    | with_reducible apply Keeps.ite
    | refine Keeps.snd ?_ (by assumption)
    | refine Keeps.snd2 ?_ (by assumption)
    | split

theorem State.read32_keeps {ar : List Area} {s t : State} (h : Keeps ar s t) (fn : Nat) (off : Nat)
    (hp : Allows ar [.regs, .hold, .slv, .out, .free, .trigs, .frames, .ports, .flt, .trunks, .node, .pipes, .gload, .cls, .emem, .funcs, .qps, .mem, .dmas] := by first | assumption | (refine Allows.mono ?_ (by assumption); decide)) :
    Keeps ar s (State.read32 t fn off) := by
  unfold State.read32
  repeat' first
    | with_reducible assumption
    | exact Allows.mono (by decide) hp
    | with_reducible intro _
    | with_reducible apply State.access_keeps
    | with_reducible apply State.readKey_keeps
    | with_reducible apply State.winDoorbell_keeps
    | with_reducible apply State.winEngine_keeps
    | with_reducible apply Keeps.ite

theorem State.busRead_keeps {ar : List Area} {s t : State} (h : Keeps ar s t) (fn : Nat) (off : Nat) (size : Nat)
    (hp : Allows ar [.regs, .hold, .slv, .out, .free, .trigs, .frames, .ports, .flt, .trunks, .node, .pipes, .gload, .cls, .emem, .funcs, .qps, .mem, .dmas] := by first | assumption | (refine Allows.mono ?_ (by assumption); decide)) :
    Keeps ar s (State.busRead t fn off size) := by
  unfold State.busRead
  repeat' first
    | with_reducible assumption
    | exact Allows.mono (by decide) hp
    | with_reducible apply State.answer_keeps
    | with_reducible apply State.deny_keeps
    | with_reducible apply State.denyFor_keeps
    | with_reducible apply State.read32_keeps
    | with_reducible apply Keeps.ite

/-! ### Machine/Idle.lean -/

theorem State.timerTick_keeps {ar : List Area} {s t : State} (h : Keeps ar s t) (e : Nat) (n : Nat)
    (hp : Allows ar [.regs] := by first | assumption | (refine Allows.mono ?_ (by assumption); decide)) :
    Keeps ar s (State.timerTick t e n) := by
  unfold State.timerTick
  repeat' first
    | with_reducible assumption
    | exact Allows.mono (by decide) hp
    | with_reducible apply State.wr_keeps
    | with_reducible apply Keeps.ite

theorem State.timersTick_keeps {ar : List Area} {s t : State} (h : Keeps ar s t)
    (hp : Allows ar [.regs] := by first | assumption | (refine Allows.mono ?_ (by assumption); decide)) :
    Keeps ar s (State.timersTick t) := by
  unfold State.timersTick
  repeat' first
    | with_reducible assumption
    | exact Allows.mono (by decide) hp
    | with_reducible intro _
    | with_reducible apply State.timerTick_keeps
    | with_reducible apply Keeps.forEach

theorem State.queueTick_keeps {ar : List Area} {s t : State} (h : Keeps ar s t)
    (hp : Allows ar [.regs, .threads, .funcs, .qps] := by first | assumption | (refine Allows.mono ?_ (by assumption); decide)) :
    Keeps ar s (State.queueTick t) := by
  unfold State.queueTick
  repeat' first
    | with_reducible assumption
    | exact Allows.mono (by decide) hp
    | with_reducible intro _
    | with_reducible apply State.fillRoom_keeps
    | with_reducible apply State.quotaCheck_keeps
    | with_reducible apply Keeps.forEach

theorem idleTick_keeps {ar : List Area} {s t : State} (h : Keeps ar s t)
    (hp : Allows ar [.regs, .ticks, .tbs, .pps, .threads, .funcs, .qps] := by first | assumption | (refine Allows.mono ?_ (by assumption); decide)) :
    Keeps ar s (idleTick t) := by
  unfold idleTick
  repeat' first
    | with_reducible assumption
    | exact Allows.mono (by decide) hp
    | with_reducible intro _
    | with_reducible apply State.queueTick_keeps
    | with_reducible apply State.setTicks_keeps
    | with_reducible apply State.tick_keeps
    | with_reducible apply State.timersTick_keeps
    | with_reducible apply Keeps.forEach

end Sys2Proof.Machine
end

