-- ==== Sys2Proof/Laws/Completes.lean ====
section
/-!
SUPPORT. Every command completes: its meaning answers a next state, in which only the pieces named have changed, with
register words and memories still in canonical form.
-/
set_option Elab.async false
namespace Sys2Proof.Machine

/-- The outcome is a next state, which keeps what lies outside the list. -/
def Completes (ar : List Area) (s : State) (o : Host.Outcome State Fault Refusal) : Prop := ∃ t, o = .next t ∧ Keeps ar s t

/-- A next state. -/
theorem Completes.next {ar : List Area} {s t : State} (h : Keeps ar s t) : Completes ar s (.next t) := ⟨t, rfl, h⟩

/-- Either way. -/
theorem Completes.ite {ar : List Area} {s : State} {a b : Host.Outcome State Fault Refusal} {c : Prop} [Decidable c]
    (ha : Completes ar s a) (hb : Completes ar s b) : Completes ar s (if c then a else b) := by split <;> assumption

/-- A fault that is logged only changes register words and the fault log (18_faults_and_selftest.md R416). -/
theorem State.logFault_l_keeps {ar : List Area} {s t : State} (h : Keeps ar s t) (code index detail v : Nat)
    (hp : Allows ar [.regs, .flt] := by first | assumption | (refine Allows.mono ?_ (by assumption); decide)) : Keeps ar s (t.logFault code index detail .l v) := by
  unfold State.logFault State.contains
  simp only [Bool.false_eq_true, false_and, if_false]
  split
  · exact State.writeLog_keeps (State.raise_keeps (State.cnt_keeps h _) _) _ _ _ _ _ _
  · exact State.fsat_keeps (State.raise_keeps (State.cnt_keeps h _) _) _ _

/-- A refused access is logged only. -/
theorem State.logRefusal_l_keeps {ar : List Area} {s t : State} (h : Keeps ar s t) (fn off : Nat)
    (hp : Allows ar [.regs, .flt] := by first | assumption | (refine Allows.mono ?_ (by assumption); decide)) : Keeps ar s (t.logRefusal fn off) := by
  unfold State.logRefusal
  split
  · split
    · exact State.cnt_keeps h _
    · exact State.logFault_l_keeps (State.setFlt_keeps h _) _ _ _ _
  · exact State.logFault_l_keeps (State.setFlt_keeps h _) _ _ _ _

/-- A denied access is logged only. -/
theorem State.logDenied_l_keeps {ar : List Area} {s t : State} (h : Keeps ar s t) (fn off : Nat)
    (hp : Allows ar [.regs, .flt] := by first | assumption | (refine Allows.mono ?_ (by assumption); decide)) : Keeps ar s (t.logDenied fn off) := by
  unfold State.logDenied
  split
  · exact State.logRefusal_l_keeps h _ _
  · exact h

/-- A slave-port access: function 0 reaches the register, every other function is refused. -/
theorem Completes.access {ar : List Area} {s : State} {fn off : Nat} {f : Nat → State → State}
    (hf : ∀ k u, Keeps ar s u → Keeps ar s (f k u)) (hp : Allows ar [.slv]) :
    Completes (byFn fn ar) s (.next (s.access fn off f)) := by
  refine ⟨_, rfl, ?_⟩
  unfold byFn State.access State.deny
  split
  · next h0 =>
    repeat' split
    all_goals first
      | exact State.answer_keeps (Keeps.refl s) _ _
      | exact hf _ _ (State.answer_keeps (Keeps.refl s) _ _)
      | exact absurd ‹fn ≠ 0› (by simp [h0])
  · next h0 =>
    have hr : Allows refusedAreas refusedAreas := Allows.refl _
    have h2 : Keeps refusedAreas s ((s.logDenied fn off).answer true 0) :=
      State.answer_keeps (State.logDenied_l_keeps (Keeps.refl s) _ _ (Allows.mono (by decide) hr)) _ _
        (Allows.mono (by decide) hr)
    exact h2

/-- A slave-port write that may wait for a tick. -/
theorem Completes.writeAcc {ar : List Area} {s : State} {fn off : Nat} {data : Word} {f : Nat → State → State}
    (hf : ∀ k u, Keeps ar s u → Keeps ar s (f k u)) (hp : Allows ar [.slv, .tbs]) :
    Completes (byFn fn ar) s (.next (s.writeAcc fn off data f)) := by
  unfold State.writeAcc
  refine Completes.access (fun k u hu => ?_) (Allows.mono (by decide) hp)
  split
  · split
    · exact State.setTb_keeps hu _ _
    · exact hf _ _ hu
  · exact hf _ _ hu

theorem grantLoop_keeps {ar : List Area} {s t : State} (h : Keeps ar s t) (s0 : State) (ds : List Nat) (used : Nat) (b : Bool)
    (hp : Allows ar [.regs, .out, .latches, .doms] := by first | assumption | (refine Allows.mono ?_ (by assumption); decide)) : Keeps ar s (grantLoop s0 ds used b t) := by
  induction ds generalizing t used b with
  | nil => exact h
  | cons d ds ih =>
    unfold grantLoop
    repeat' split
    all_goals first
      | exact ih (State.grant_keeps h _ _) _ _
      | exact ih (State.inrushWait_keeps h _) _ _
      | exact ih h _ _

theorem State.chkFeed_keeps {ar : List Area} {s t u : State} {n k : Nat} {bs : List Byte} (h : Keeps ar s t)
    (e : t.chkFeed n k bs = .taken u) (hp : Allows ar [.regs, .chks] := by first | assumption | (refine Allows.mono ?_ (by assumption); decide)) : Keeps ar s u := by
  unfold State.chkFeed at e
  dsimp only at e
  repeat' split at e
  all_goals cases e
  all_goals repeat' first
    | exact h
    | exact Allows.mono (by decide) hp
    | with_reducible apply State.raiseChk_keeps
    | with_reducible apply State.fset_keeps
    | with_reducible apply State.setChk_keeps
    | with_reducible apply State.chkTake_keeps

theorem State.emRun_keeps {ar : List Area} {s t : State} (h : Keeps ar s t) (c : EmCmd) (full : Bool)
    (hp : Allows ar [.regs, .ems] := by first | assumption | (refine Allows.mono ?_ (by assumption); decide)) : Keeps ar s (t.emRun c full).1 := by
  unfold State.emRun
  dsimp only
  have hr := State.emRead_keeps h t.leader c.typ c.key
  generalize t.emRead t.leader c.typ c.key = r at *
  repeat' split
  all_goals first
    | exact hr
    | exact State.emChange_keeps hr _ _ _
    | exact State.wr64_keeps hr _ _

theorem execParseEntry_completes (h : Nat) (s : State) :
    Completes [.regs, .frames, .pipes] s (execParseEntry h s) := by
  unfold execParseEntry
  repeat' first
    | with_reducible assumption
    | exact Allows.mono (by decide) (Allows.refl _)
    | with_reducible exact Keeps.refl _
    | with_reducible apply Completes.next
    | with_reducible apply State.setFrame_keeps
    | with_reducible apply State.setPipe_keeps
    | with_reducible apply Keeps.ite
    | with_reducible apply Completes.ite
    | refine Keeps.snd ?_ (by assumption)
    | refine Keeps.snd2 ?_ (by assumption)
    | (lift_lets; intro x; clear_value x)
    | with_reducible apply hx
    | split
    | dsimp only

theorem execParseStep_completes (h : Nat) (i : Nat) (s : State) :
    Completes [.regs, .frames, .pipes] s (execParseStep h i s) := by
  unfold execParseStep
  repeat' first
    | with_reducible assumption
    | exact Allows.mono (by decide) (Allows.refl _)
    | with_reducible exact Keeps.refl _
    | with_reducible apply Completes.next
    | with_reducible intro _
    | with_reducible apply State.parseEnd_keeps
    | with_reducible apply State.setFrame_keeps
    | with_reducible apply Keeps.ite
    | with_reducible apply Completes.ite
    | refine Keeps.snd ?_ (by assumption)
    | refine Keeps.snd2 ?_ (by assumption)
    | with_reducible apply hx
    | split

theorem execGraphLoad_completes (fn : Nat) (data : Word) (s : State) :
    Completes (byFn fn [.regs, .stage, .slv, .out, .gload]) s (execGraphLoad fn data s) := by
  unfold execGraphLoad
  repeat' first
    | with_reducible assumption
    | exact Allows.mono (by decide) (Allows.refl _)
    | with_reducible exact Keeps.refl _
    | with_reducible apply Completes.access
    | with_reducible apply Completes.next
    | with_reducible intro _
    | with_reducible apply State.loadCtlWrite_keeps

theorem execGraphLoadDone_completes (image : List Byte) (err : Bool) (s : State) :
    Completes [.regs, .out, .graph, .gload] s (execGraphLoadDone image err s) := by
  unfold execGraphLoadDone
  repeat' first
    | with_reducible assumption
    | exact Allows.mono (by decide) (Allows.refl _)
    | with_reducible exact Keeps.refl _
    | with_reducible apply Completes.next
    | with_reducible intro _
    | with_reducible apply State.endLoad_keeps
    | with_reducible apply forEach_keeps
    | with_reducible apply State.fsets_keeps
    | with_reducible apply State.hostRead_keeps
    | with_reducible apply State.setGraph_keeps
    | with_reducible apply Keeps.forEach
    | with_reducible apply Keeps.ite
    | with_reducible apply Completes.ite
    | refine Keeps.snd ?_ (by assumption)
    | refine Keeps.snd2 ?_ (by assumption)
    | (lift_lets; intro x; clear_value x)
    | with_reducible apply hx
    | split

theorem execTraceArm_completes (fn : Nat) (h : Nat) (data : Word) (s : State) :
    Completes (byFn fn [.regs, .stage, .slv]) s (execTraceArm fn h data s) := by
  unfold execTraceArm
  repeat' first
    | with_reducible assumption
    | exact Allows.mono (by decide) (Allows.refl _)
    | with_reducible exact Keeps.refl _
    | with_reducible apply Completes.access
    | with_reducible apply Completes.next
    | with_reducible intro _
    | with_reducible apply State.writeFields_keeps

theorem execPrsNodeDataRead_completes (fn : Nat) (h : Nat) (s : State) :
    Completes (byFn fn [.regs, .slv]) s (execPrsNodeDataRead fn h s) := by
  unfold execPrsNodeDataRead
  repeat' first
    | with_reducible assumption
    | exact Allows.mono (by decide) (Allows.refl _)
    | with_reducible exact Keeps.refl _
    | with_reducible apply Completes.access
    | with_reducible apply Completes.next
    | with_reducible intro _
    | with_reducible apply State.nodeDataRead_keeps

theorem execAluAdd_completes (e : Nat) (n : Nat) (slot : Nat) (busy : Nat) (ecc : Nat) (s : State) :
    Completes [.regs, .out, .free, .trigs, .frames, .ports, .flt, .trunks, .node, .pipes, .gload, .cls, .threads, .wheel, .emem, .funcs, .qps, .mem, .dmas] s (execAluAdd e n slot busy ecc s) := by
  unfold execAluAdd
  repeat' first
    | with_reducible assumption
    | exact Allows.mono (by decide) (Allows.refl _)
    | with_reducible exact Keeps.refl _
    | with_reducible apply Completes.next
    | with_reducible intro _
    | with_reducible apply KeepsOpt.some
    | with_reducible apply KeepsOpt.none
    | with_reducible apply KeepsOpt.map
    | with_reducible apply KeepsOpt.ite
    | with_reducible apply aluReg_keeps
    | with_reducible apply State.issue_keeps

theorem execAluSub_completes (e : Nat) (n : Nat) (slot : Nat) (busy : Nat) (ecc : Nat) (s : State) :
    Completes [.regs, .out, .free, .trigs, .frames, .ports, .flt, .trunks, .node, .pipes, .gload, .cls, .threads, .wheel, .emem, .funcs, .qps, .mem, .dmas] s (execAluSub e n slot busy ecc s) := by
  unfold execAluSub
  repeat' first
    | with_reducible assumption
    | exact Allows.mono (by decide) (Allows.refl _)
    | with_reducible exact Keeps.refl _
    | with_reducible apply Completes.next
    | with_reducible intro _
    | with_reducible apply KeepsOpt.some
    | with_reducible apply KeepsOpt.none
    | with_reducible apply KeepsOpt.map
    | with_reducible apply KeepsOpt.ite
    | with_reducible apply aluReg_keeps
    | with_reducible apply State.issue_keeps

theorem execAluAnd_completes (e : Nat) (n : Nat) (slot : Nat) (busy : Nat) (ecc : Nat) (s : State) :
    Completes [.regs, .out, .free, .trigs, .frames, .ports, .flt, .trunks, .node, .pipes, .gload, .cls, .threads, .wheel, .emem, .funcs, .qps, .mem, .dmas] s (execAluAnd e n slot busy ecc s) := by
  unfold execAluAnd
  repeat' first
    | with_reducible assumption
    | exact Allows.mono (by decide) (Allows.refl _)
    | with_reducible exact Keeps.refl _
    | with_reducible apply Completes.next
    | with_reducible intro _
    | with_reducible apply KeepsOpt.some
    | with_reducible apply KeepsOpt.none
    | with_reducible apply KeepsOpt.map
    | with_reducible apply KeepsOpt.ite
    | with_reducible apply aluReg_keeps
    | with_reducible apply State.issue_keeps

theorem execAluOr_completes (e : Nat) (n : Nat) (slot : Nat) (busy : Nat) (ecc : Nat) (s : State) :
    Completes [.regs, .out, .free, .trigs, .frames, .ports, .flt, .trunks, .node, .pipes, .gload, .cls, .threads, .wheel, .emem, .funcs, .qps, .mem, .dmas] s (execAluOr e n slot busy ecc s) := by
  unfold execAluOr
  repeat' first
    | with_reducible assumption
    | exact Allows.mono (by decide) (Allows.refl _)
    | with_reducible exact Keeps.refl _
    | with_reducible apply Completes.next
    | with_reducible intro _
    | with_reducible apply KeepsOpt.some
    | with_reducible apply KeepsOpt.none
    | with_reducible apply KeepsOpt.map
    | with_reducible apply KeepsOpt.ite
    | with_reducible apply aluReg_keeps
    | with_reducible apply State.issue_keeps

theorem execAluXor_completes (e : Nat) (n : Nat) (slot : Nat) (busy : Nat) (ecc : Nat) (s : State) :
    Completes [.regs, .out, .free, .trigs, .frames, .ports, .flt, .trunks, .node, .pipes, .gload, .cls, .threads, .wheel, .emem, .funcs, .qps, .mem, .dmas] s (execAluXor e n slot busy ecc s) := by
  unfold execAluXor
  repeat' first
    | with_reducible assumption
    | exact Allows.mono (by decide) (Allows.refl _)
    | with_reducible exact Keeps.refl _
    | with_reducible apply Completes.next
    | with_reducible intro _
    | with_reducible apply KeepsOpt.some
    | with_reducible apply KeepsOpt.none
    | with_reducible apply KeepsOpt.map
    | with_reducible apply KeepsOpt.ite
    | with_reducible apply aluReg_keeps
    | with_reducible apply State.issue_keeps

theorem execAluAndn_completes (e : Nat) (n : Nat) (slot : Nat) (busy : Nat) (ecc : Nat) (s : State) :
    Completes [.regs, .out, .free, .trigs, .frames, .ports, .flt, .trunks, .node, .pipes, .gload, .cls, .threads, .wheel, .emem, .funcs, .qps, .mem, .dmas] s (execAluAndn e n slot busy ecc s) := by
  unfold execAluAndn
  repeat' first
    | with_reducible assumption
    | exact Allows.mono (by decide) (Allows.refl _)
    | with_reducible exact Keeps.refl _
    | with_reducible apply Completes.next
    | with_reducible intro _
    | with_reducible apply KeepsOpt.some
    | with_reducible apply KeepsOpt.none
    | with_reducible apply KeepsOpt.map
    | with_reducible apply KeepsOpt.ite
    | with_reducible apply aluReg_keeps
    | with_reducible apply State.issue_keeps

theorem execAluShl_completes (e : Nat) (n : Nat) (slot : Nat) (busy : Nat) (ecc : Nat) (s : State) :
    Completes [.regs, .out, .free, .trigs, .frames, .ports, .flt, .trunks, .node, .pipes, .gload, .cls, .threads, .wheel, .emem, .funcs, .qps, .mem, .dmas] s (execAluShl e n slot busy ecc s) := by
  unfold execAluShl
  repeat' first
    | with_reducible assumption
    | exact Allows.mono (by decide) (Allows.refl _)
    | with_reducible exact Keeps.refl _
    | with_reducible apply Completes.next
    | with_reducible intro _
    | with_reducible apply KeepsOpt.some
    | with_reducible apply KeepsOpt.none
    | with_reducible apply KeepsOpt.map
    | with_reducible apply KeepsOpt.ite
    | with_reducible apply aluReg_keeps
    | with_reducible apply State.issue_keeps

theorem execAluShr_completes (e : Nat) (n : Nat) (slot : Nat) (busy : Nat) (ecc : Nat) (s : State) :
    Completes [.regs, .out, .free, .trigs, .frames, .ports, .flt, .trunks, .node, .pipes, .gload, .cls, .threads, .wheel, .emem, .funcs, .qps, .mem, .dmas] s (execAluShr e n slot busy ecc s) := by
  unfold execAluShr
  repeat' first
    | with_reducible assumption
    | exact Allows.mono (by decide) (Allows.refl _)
    | with_reducible exact Keeps.refl _
    | with_reducible apply Completes.next
    | with_reducible intro _
    | with_reducible apply KeepsOpt.some
    | with_reducible apply KeepsOpt.none
    | with_reducible apply KeepsOpt.map
    | with_reducible apply KeepsOpt.ite
    | with_reducible apply aluReg_keeps
    | with_reducible apply State.issue_keeps

theorem execAluSar_completes (e : Nat) (n : Nat) (slot : Nat) (busy : Nat) (ecc : Nat) (s : State) :
    Completes [.regs, .out, .free, .trigs, .frames, .ports, .flt, .trunks, .node, .pipes, .gload, .cls, .threads, .wheel, .emem, .funcs, .qps, .mem, .dmas] s (execAluSar e n slot busy ecc s) := by
  unfold execAluSar
  repeat' first
    | with_reducible assumption
    | exact Allows.mono (by decide) (Allows.refl _)
    | with_reducible exact Keeps.refl _
    | with_reducible apply Completes.next
    | with_reducible intro _
    | with_reducible apply KeepsOpt.some
    | with_reducible apply KeepsOpt.none
    | with_reducible apply KeepsOpt.map
    | with_reducible apply KeepsOpt.ite
    | with_reducible apply aluReg_keeps
    | with_reducible apply State.issue_keeps

theorem execAluMul_completes (e : Nat) (n : Nat) (slot : Nat) (busy : Nat) (ecc : Nat) (s : State) :
    Completes [.regs, .out, .free, .trigs, .frames, .ports, .flt, .trunks, .node, .pipes, .gload, .cls, .threads, .wheel, .emem, .funcs, .qps, .mem, .dmas] s (execAluMul e n slot busy ecc s) := by
  unfold execAluMul
  repeat' first
    | with_reducible assumption
    | exact Allows.mono (by decide) (Allows.refl _)
    | with_reducible exact Keeps.refl _
    | with_reducible apply Completes.next
    | with_reducible intro _
    | with_reducible apply KeepsOpt.some
    | with_reducible apply KeepsOpt.none
    | with_reducible apply KeepsOpt.map
    | with_reducible apply KeepsOpt.ite
    | with_reducible apply aluReg_keeps
    | with_reducible apply State.issue_keeps

theorem execAluMin_completes (e : Nat) (n : Nat) (slot : Nat) (busy : Nat) (ecc : Nat) (s : State) :
    Completes [.regs, .out, .free, .trigs, .frames, .ports, .flt, .trunks, .node, .pipes, .gload, .cls, .threads, .wheel, .emem, .funcs, .qps, .mem, .dmas] s (execAluMin e n slot busy ecc s) := by
  unfold execAluMin
  repeat' first
    | with_reducible assumption
    | exact Allows.mono (by decide) (Allows.refl _)
    | with_reducible exact Keeps.refl _
    | with_reducible apply Completes.next
    | with_reducible intro _
    | with_reducible apply KeepsOpt.some
    | with_reducible apply KeepsOpt.none
    | with_reducible apply KeepsOpt.map
    | with_reducible apply KeepsOpt.ite
    | with_reducible apply aluReg_keeps
    | with_reducible apply State.issue_keeps

theorem execAluMax_completes (e : Nat) (n : Nat) (slot : Nat) (busy : Nat) (ecc : Nat) (s : State) :
    Completes [.regs, .out, .free, .trigs, .frames, .ports, .flt, .trunks, .node, .pipes, .gload, .cls, .threads, .wheel, .emem, .funcs, .qps, .mem, .dmas] s (execAluMax e n slot busy ecc s) := by
  unfold execAluMax
  repeat' first
    | with_reducible assumption
    | exact Allows.mono (by decide) (Allows.refl _)
    | with_reducible exact Keeps.refl _
    | with_reducible apply Completes.next
    | with_reducible intro _
    | with_reducible apply KeepsOpt.some
    | with_reducible apply KeepsOpt.none
    | with_reducible apply KeepsOpt.map
    | with_reducible apply KeepsOpt.ite
    | with_reducible apply aluReg_keeps
    | with_reducible apply State.issue_keeps

theorem execAluMinu_completes (e : Nat) (n : Nat) (slot : Nat) (busy : Nat) (ecc : Nat) (s : State) :
    Completes [.regs, .out, .free, .trigs, .frames, .ports, .flt, .trunks, .node, .pipes, .gload, .cls, .threads, .wheel, .emem, .funcs, .qps, .mem, .dmas] s (execAluMinu e n slot busy ecc s) := by
  unfold execAluMinu
  repeat' first
    | with_reducible assumption
    | exact Allows.mono (by decide) (Allows.refl _)
    | with_reducible exact Keeps.refl _
    | with_reducible apply Completes.next
    | with_reducible intro _
    | with_reducible apply KeepsOpt.some
    | with_reducible apply KeepsOpt.none
    | with_reducible apply KeepsOpt.map
    | with_reducible apply KeepsOpt.ite
    | with_reducible apply aluReg_keeps
    | with_reducible apply State.issue_keeps

theorem execAluMaxu_completes (e : Nat) (n : Nat) (slot : Nat) (busy : Nat) (ecc : Nat) (s : State) :
    Completes [.regs, .out, .free, .trigs, .frames, .ports, .flt, .trunks, .node, .pipes, .gload, .cls, .threads, .wheel, .emem, .funcs, .qps, .mem, .dmas] s (execAluMaxu e n slot busy ecc s) := by
  unfold execAluMaxu
  repeat' first
    | with_reducible assumption
    | exact Allows.mono (by decide) (Allows.refl _)
    | with_reducible exact Keeps.refl _
    | with_reducible apply Completes.next
    | with_reducible intro _
    | with_reducible apply KeepsOpt.some
    | with_reducible apply KeepsOpt.none
    | with_reducible apply KeepsOpt.map
    | with_reducible apply KeepsOpt.ite
    | with_reducible apply aluReg_keeps
    | with_reducible apply State.issue_keeps

theorem execAddi_completes (e : Nat) (n : Nat) (slot : Nat) (busy : Nat) (ecc : Nat) (s : State) :
    Completes [.regs, .out, .free, .trigs, .frames, .ports, .flt, .trunks, .node, .pipes, .gload, .cls, .wheel, .emem, .funcs, .qps, .mem, .dmas] s (execAddi e n slot busy ecc s) := by
  unfold execAddi
  repeat' first
    | with_reducible assumption
    | exact Allows.mono (by decide) (Allows.refl _)
    | with_reducible exact Keeps.refl _
    | with_reducible apply Completes.next
    | with_reducible intro _
    | with_reducible apply KeepsOpt.some
    | with_reducible apply KeepsOpt.none
    | with_reducible apply KeepsOpt.map
    | with_reducible apply KeepsOpt.ite
    | with_reducible apply aluImm_keeps
    | with_reducible apply State.issue_keeps

theorem execAndi_completes (e : Nat) (n : Nat) (slot : Nat) (busy : Nat) (ecc : Nat) (s : State) :
    Completes [.regs, .out, .free, .trigs, .frames, .ports, .flt, .trunks, .node, .pipes, .gload, .cls, .wheel, .emem, .funcs, .qps, .mem, .dmas] s (execAndi e n slot busy ecc s) := by
  unfold execAndi
  repeat' first
    | with_reducible assumption
    | exact Allows.mono (by decide) (Allows.refl _)
    | with_reducible exact Keeps.refl _
    | with_reducible apply Completes.next
    | with_reducible intro _
    | with_reducible apply KeepsOpt.some
    | with_reducible apply KeepsOpt.none
    | with_reducible apply KeepsOpt.map
    | with_reducible apply KeepsOpt.ite
    | with_reducible apply aluImm_keeps
    | with_reducible apply State.issue_keeps

theorem execOri_completes (e : Nat) (n : Nat) (slot : Nat) (busy : Nat) (ecc : Nat) (s : State) :
    Completes [.regs, .out, .free, .trigs, .frames, .ports, .flt, .trunks, .node, .pipes, .gload, .cls, .wheel, .emem, .funcs, .qps, .mem, .dmas] s (execOri e n slot busy ecc s) := by
  unfold execOri
  repeat' first
    | with_reducible assumption
    | exact Allows.mono (by decide) (Allows.refl _)
    | with_reducible exact Keeps.refl _
    | with_reducible apply Completes.next
    | with_reducible intro _
    | with_reducible apply KeepsOpt.some
    | with_reducible apply KeepsOpt.none
    | with_reducible apply KeepsOpt.map
    | with_reducible apply KeepsOpt.ite
    | with_reducible apply aluImm_keeps
    | with_reducible apply State.issue_keeps

theorem execXori_completes (e : Nat) (n : Nat) (slot : Nat) (busy : Nat) (ecc : Nat) (s : State) :
    Completes [.regs, .out, .free, .trigs, .frames, .ports, .flt, .trunks, .node, .pipes, .gload, .cls, .wheel, .emem, .funcs, .qps, .mem, .dmas] s (execXori e n slot busy ecc s) := by
  unfold execXori
  repeat' first
    | with_reducible assumption
    | exact Allows.mono (by decide) (Allows.refl _)
    | with_reducible exact Keeps.refl _
    | with_reducible apply Completes.next
    | with_reducible intro _
    | with_reducible apply KeepsOpt.some
    | with_reducible apply KeepsOpt.none
    | with_reducible apply KeepsOpt.map
    | with_reducible apply KeepsOpt.ite
    | with_reducible apply aluImm_keeps
    | with_reducible apply State.issue_keeps

theorem execShiShl_completes (e : Nat) (n : Nat) (slot : Nat) (busy : Nat) (ecc : Nat) (s : State) :
    Completes [.regs, .out, .free, .trigs, .frames, .ports, .flt, .trunks, .node, .pipes, .gload, .cls, .wheel, .emem, .funcs, .qps, .mem, .dmas] s (execShiShl e n slot busy ecc s) := by
  unfold execShiShl
  repeat' first
    | with_reducible assumption
    | exact Allows.mono (by decide) (Allows.refl _)
    | with_reducible exact Keeps.refl _
    | with_reducible apply Completes.next
    | with_reducible intro _
    | with_reducible apply KeepsOpt.some
    | with_reducible apply KeepsOpt.none
    | with_reducible apply KeepsOpt.map
    | with_reducible apply KeepsOpt.ite
    | with_reducible apply aluImm_keeps
    | with_reducible apply State.issue_keeps

theorem execShiShr_completes (e : Nat) (n : Nat) (slot : Nat) (busy : Nat) (ecc : Nat) (s : State) :
    Completes [.regs, .out, .free, .trigs, .frames, .ports, .flt, .trunks, .node, .pipes, .gload, .cls, .wheel, .emem, .funcs, .qps, .mem, .dmas] s (execShiShr e n slot busy ecc s) := by
  unfold execShiShr
  repeat' first
    | with_reducible assumption
    | exact Allows.mono (by decide) (Allows.refl _)
    | with_reducible exact Keeps.refl _
    | with_reducible apply Completes.next
    | with_reducible intro _
    | with_reducible apply KeepsOpt.some
    | with_reducible apply KeepsOpt.none
    | with_reducible apply KeepsOpt.map
    | with_reducible apply KeepsOpt.ite
    | with_reducible apply aluImm_keeps
    | with_reducible apply State.issue_keeps

theorem execShiSar_completes (e : Nat) (n : Nat) (slot : Nat) (busy : Nat) (ecc : Nat) (s : State) :
    Completes [.regs, .out, .free, .trigs, .frames, .ports, .flt, .trunks, .node, .pipes, .gload, .cls, .wheel, .emem, .funcs, .qps, .mem, .dmas] s (execShiSar e n slot busy ecc s) := by
  unfold execShiSar
  repeat' first
    | with_reducible assumption
    | exact Allows.mono (by decide) (Allows.refl _)
    | with_reducible exact Keeps.refl _
    | with_reducible apply Completes.next
    | with_reducible intro _
    | with_reducible apply KeepsOpt.some
    | with_reducible apply KeepsOpt.none
    | with_reducible apply KeepsOpt.map
    | with_reducible apply KeepsOpt.ite
    | with_reducible apply aluImm_keeps
    | with_reducible apply State.issue_keeps

theorem execShiRor_completes (e : Nat) (n : Nat) (slot : Nat) (busy : Nat) (ecc : Nat) (s : State) :
    Completes [.regs, .out, .free, .trigs, .frames, .ports, .flt, .trunks, .node, .pipes, .gload, .cls, .wheel, .emem, .funcs, .qps, .mem, .dmas] s (execShiRor e n slot busy ecc s) := by
  unfold execShiRor
  repeat' first
    | with_reducible assumption
    | exact Allows.mono (by decide) (Allows.refl _)
    | with_reducible exact Keeps.refl _
    | with_reducible apply Completes.next
    | with_reducible intro _
    | with_reducible apply KeepsOpt.some
    | with_reducible apply KeepsOpt.none
    | with_reducible apply KeepsOpt.map
    | with_reducible apply KeepsOpt.ite
    | with_reducible apply aluImm_keeps
    | with_reducible apply State.issue_keeps

theorem execLui_completes (e : Nat) (n : Nat) (slot : Nat) (busy : Nat) (ecc : Nat) (s : State) :
    Completes [.regs, .out, .free, .trigs, .frames, .ports, .flt, .trunks, .node, .pipes, .gload, .cls, .wheel, .emem, .funcs, .qps, .mem, .dmas] s (execLui e n slot busy ecc s) := by
  unfold execLui
  repeat' first
    | with_reducible assumption
    | exact Allows.mono (by decide) (Allows.refl _)
    | with_reducible exact Keeps.refl _
    | with_reducible apply Completes.next
    | with_reducible intro _
    | with_reducible apply KeepsOpt.some
    | with_reducible apply KeepsOpt.none
    | with_reducible apply KeepsOpt.map
    | with_reducible apply KeepsOpt.ite
    | with_reducible apply Ins.done_keeps
    | with_reducible apply State.issue_keeps
    | with_reducible apply Ins.put_keeps

theorem execExt_completes (e : Nat) (n : Nat) (slot : Nat) (busy : Nat) (ecc : Nat) (s : State) :
    Completes [.regs, .out, .free, .trigs, .frames, .ports, .flt, .trunks, .node, .pipes, .gload, .cls, .wheel, .emem, .funcs, .qps, .mem, .dmas] s (execExt e n slot busy ecc s) := by
  unfold execExt
  repeat' first
    | with_reducible assumption
    | exact Allows.mono (by decide) (Allows.refl _)
    | with_reducible exact Keeps.refl _
    | with_reducible apply Completes.next
    | with_reducible intro _
    | with_reducible apply KeepsOpt.some
    | with_reducible apply KeepsOpt.none
    | with_reducible apply KeepsOpt.map
    | with_reducible apply KeepsOpt.ite
    | with_reducible apply aluImm_keeps
    | with_reducible apply State.issue_keeps

theorem execIns_completes (e : Nat) (n : Nat) (slot : Nat) (busy : Nat) (ecc : Nat) (s : State) :
    Completes [.regs, .out, .free, .trigs, .frames, .ports, .flt, .trunks, .node, .pipes, .gload, .cls, .wheel, .emem, .funcs, .qps, .mem, .dmas] s (execIns e n slot busy ecc s) := by
  unfold execIns
  repeat' first
    | with_reducible assumption
    | exact Allows.mono (by decide) (Allows.refl _)
    | with_reducible exact Keeps.refl _
    | with_reducible apply Completes.next
    | with_reducible intro _
    | with_reducible apply KeepsOpt.some
    | with_reducible apply KeepsOpt.none
    | with_reducible apply KeepsOpt.map
    | with_reducible apply KeepsOpt.ite
    | with_reducible apply Ins.done_keeps
    | with_reducible apply State.issue_keeps
    | with_reducible apply Ins.put_keeps

theorem execCmp_completes (e : Nat) (n : Nat) (slot : Nat) (busy : Nat) (ecc : Nat) (s : State) :
    Completes [.regs, .out, .free, .trigs, .frames, .ports, .flt, .trunks, .node, .pipes, .gload, .cls, .threads, .wheel, .emem, .funcs, .qps, .mem, .dmas] s (execCmp e n slot busy ecc s) := by
  unfold execCmp
  repeat' first
    | with_reducible assumption
    | exact Allows.mono (by decide) (Allows.refl _)
    | with_reducible exact Keeps.refl _
    | with_reducible apply Completes.next
    | with_reducible intro _
    | with_reducible apply KeepsOpt.some
    | with_reducible apply KeepsOpt.none
    | with_reducible apply KeepsOpt.map
    | with_reducible apply KeepsOpt.ite
    | with_reducible apply Ins.done_keeps
    | with_reducible apply State.issue_keeps
    | with_reducible apply State.setCc_keeps

theorem execCmpi_completes (e : Nat) (n : Nat) (slot : Nat) (busy : Nat) (ecc : Nat) (s : State) :
    Completes [.regs, .out, .free, .trigs, .frames, .ports, .flt, .trunks, .node, .pipes, .gload, .cls, .threads, .wheel, .emem, .funcs, .qps, .mem, .dmas] s (execCmpi e n slot busy ecc s) := by
  unfold execCmpi
  repeat' first
    | with_reducible assumption
    | exact Allows.mono (by decide) (Allows.refl _)
    | with_reducible exact Keeps.refl _
    | with_reducible apply Completes.next
    | with_reducible intro _
    | with_reducible apply KeepsOpt.some
    | with_reducible apply KeepsOpt.none
    | with_reducible apply KeepsOpt.map
    | with_reducible apply KeepsOpt.ite
    | with_reducible apply Ins.done_keeps
    | with_reducible apply State.issue_keeps
    | with_reducible apply State.setCc_keeps

theorem execB_completes (e : Nat) (n : Nat) (slot : Nat) (busy : Nat) (ecc : Nat) (s : State) :
    Completes [.regs, .out, .free, .trigs, .frames, .ports, .flt, .trunks, .node, .pipes, .gload, .cls, .wheel, .emem, .funcs, .qps, .mem, .dmas] s (execB e n slot busy ecc s) := by
  unfold execB
  repeat' first
    | with_reducible assumption
    | exact Allows.mono (by decide) (Allows.refl _)
    | with_reducible exact Keeps.refl _
    | with_reducible apply Completes.next
    | with_reducible intro _
    | with_reducible apply KeepsOpt.some
    | with_reducible apply KeepsOpt.none
    | with_reducible apply KeepsOpt.map
    | with_reducible apply KeepsOpt.ite
    | with_reducible apply Ins.done_keeps
    | with_reducible apply State.issue_keeps
    | with_reducible apply Ins.jump_keeps

theorem execJal_completes (e : Nat) (n : Nat) (slot : Nat) (busy : Nat) (ecc : Nat) (s : State) :
    Completes [.regs, .out, .free, .trigs, .frames, .ports, .flt, .trunks, .node, .pipes, .gload, .cls, .wheel, .emem, .funcs, .qps, .mem, .dmas] s (execJal e n slot busy ecc s) := by
  unfold execJal
  repeat' first
    | with_reducible assumption
    | exact Allows.mono (by decide) (Allows.refl _)
    | with_reducible exact Keeps.refl _
    | with_reducible apply Completes.next
    | with_reducible intro _
    | with_reducible apply KeepsOpt.some
    | with_reducible apply KeepsOpt.none
    | with_reducible apply KeepsOpt.map
    | with_reducible apply KeepsOpt.ite
    | with_reducible apply State.issue_keeps
    | with_reducible apply Ins.jump_keeps
    | with_reducible apply Ins.put_keeps

theorem execJalr_completes (e : Nat) (n : Nat) (slot : Nat) (busy : Nat) (ecc : Nat) (s : State) :
    Completes [.regs, .out, .free, .trigs, .frames, .ports, .flt, .trunks, .node, .pipes, .gload, .cls, .wheel, .emem, .funcs, .qps, .mem, .dmas] s (execJalr e n slot busy ecc s) := by
  unfold execJalr
  repeat' first
    | with_reducible assumption
    | exact Allows.mono (by decide) (Allows.refl _)
    | with_reducible exact Keeps.refl _
    | with_reducible apply Completes.next
    | with_reducible intro _
    | with_reducible apply KeepsOpt.some
    | with_reducible apply KeepsOpt.none
    | with_reducible apply KeepsOpt.map
    | with_reducible apply KeepsOpt.ite
    | with_reducible apply State.issue_keeps
    | with_reducible apply Ins.jump_keeps
    | with_reducible apply Ins.put_keeps

theorem execCrc_completes (e : Nat) (n : Nat) (slot : Nat) (busy : Nat) (ecc : Nat) (s : State) :
    Completes [.regs, .out, .free, .trigs, .frames, .ports, .flt, .trunks, .node, .pipes, .gload, .cls, .wheel, .emem, .funcs, .qps, .mem, .dmas] s (execCrc e n slot busy ecc s) := by
  unfold execCrc
  repeat' first
    | with_reducible assumption
    | exact Allows.mono (by decide) (Allows.refl _)
    | with_reducible exact Keeps.refl _
    | with_reducible apply Completes.next
    | with_reducible intro _
    | with_reducible apply KeepsOpt.some
    | with_reducible apply KeepsOpt.none
    | with_reducible apply KeepsOpt.map
    | with_reducible apply KeepsOpt.ite
    | with_reducible apply Ins.done_keeps
    | with_reducible apply State.issue_keeps
    | with_reducible apply Ins.put_keeps

theorem execIllegalInstruction_completes (e : Nat) (n : Nat) (slot : Nat) (busy : Nat) (ecc : Nat) (s : State) :
    Completes [.regs, .out, .free, .trigs, .frames, .ports, .flt, .trunks, .node, .pipes, .gload, .cls, .wheel, .emem, .funcs, .qps, .mem, .dmas] s (execIllegalInstruction e n slot busy ecc s) := by
  unfold execIllegalInstruction
  repeat' first
    | with_reducible assumption
    | exact Allows.mono (by decide) (Allows.refl _)
    | with_reducible exact Keeps.refl _
    | with_reducible apply Completes.next
    | with_reducible intro _
    | with_reducible apply KeepsOpt.some
    | with_reducible apply KeepsOpt.none
    | with_reducible apply KeepsOpt.map
    | with_reducible apply KeepsOpt.ite
    | with_reducible apply Ins.fault_keeps
    | with_reducible apply State.issue_keeps

theorem execIrqOffer_completes (k : Nat) (s : State) :
    Completes [.regs, .out] s (execIrqOffer k s) := by
  unfold execIrqOffer
  repeat' first
    | with_reducible assumption
    | exact Allows.mono (by decide) (Allows.refl _)
    | with_reducible exact Keeps.refl _
    | with_reducible apply Completes.next
    | with_reducible apply State.irqOffer_keeps
    | with_reducible apply State.irqWithdraw_keeps
    | with_reducible apply Keeps.ite
    | with_reducible apply Completes.ite

theorem execVecAck_completes (k : Nat) (met : Bool) (s : State) :
    Completes [.regs, .out, .taken] s (execVecAck k s met) := by
  unfold execVecAck
  repeat' first
    | with_reducible assumption
    | exact Allows.mono (by decide) (Allows.refl _)
    | with_reducible exact Keeps.refl _
    | with_reducible apply Completes.next
    | with_reducible apply State.fset_keeps
    | with_reducible apply State.irqDrop_keeps
    | with_reducible apply Ins.put_keeps
    | with_reducible apply State.setTaken_keeps
    | with_reducible apply Keeps.ite
    | with_reducible apply Completes.ite

theorem execIrqEoi_completes (fn : Nat) (k : Nat) (data : Word) (s : State) :
    Completes (byFn fn [.regs, .slv, .taken]) s (execIrqEoi fn k data s) := by
  unfold execIrqEoi
  repeat' first
    | with_reducible assumption
    | exact Allows.mono (by decide) (Allows.refl _)
    | with_reducible exact Keeps.refl _
    | with_reducible apply Completes.access
    | with_reducible apply Completes.next
    | with_reducible intro _
    | with_reducible apply State.irqEoi_keeps

theorem execIrqSetpendWrite_completes (fn : Nat) (w : Nat) (data : Word) (s : State) :
    Completes (byFn fn [.regs, .slv]) s (execIrqSetpendWrite fn w data s) := by
  unfold execIrqSetpendWrite
  repeat' first
    | with_reducible assumption
    | exact Allows.mono (by decide) (Allows.refl _)
    | with_reducible exact Keeps.refl _
    | with_reducible apply Completes.access
    | with_reducible apply Completes.next
    | with_reducible intro _
    | with_reducible apply State.irqSetPend_keeps

theorem execAonLatchTransfer_completes (s : State) :
    Completes [.regs, .latches] s (execAonLatchTransfer s) := by
  unfold execAonLatchTransfer
  repeat' first
    | with_reducible assumption
    | exact Allows.mono (by decide) (Allows.refl _)
    | with_reducible exact Keeps.refl _
    | with_reducible apply Completes.next
    | with_reducible intro _
    | with_reducible apply forEach_keeps
    | with_reducible apply State.raise_keeps
    | with_reducible apply State.setLatches_keeps
    | with_reducible apply Keeps.forEach
    | with_reducible apply Keeps.ite
    | with_reducible apply Completes.ite

theorem execTbSetWrite_completes (fn : Nat) (h : Nat) (data : Word) (s : State) :
    Completes (byFn fn [.regs, .stage, .slv, .tbs, .pps, .gens]) s (execTbSetWrite fn h data s) := by
  unfold execTbSetWrite
  repeat' first
    | with_reducible assumption
    | exact Allows.mono (by decide) (Allows.refl _)
    | with_reducible exact Keeps.refl _
    | with_reducible apply Completes.writeAcc
    | with_reducible apply Completes.next
    | with_reducible intro _
    | with_reducible apply State.tbSetHigh_keeps

theorem execTbStepWrite_completes (fn : Nat) (h : Nat) (data : Word) (set : Bool) (rate : Bool) (snap : Bool) (s : State) :
    Completes (byFn fn [.regs, .stage, .slv, .tbs, .pps, .gens, .trunks]) s (execTbStepWrite fn h data s set rate snap) := by
  unfold execTbStepWrite
  repeat' first
    | with_reducible assumption
    | exact Allows.mono (by decide) (Allows.refl _)
    | with_reducible exact Keeps.refl _
    | with_reducible apply Completes.writeAcc
    | with_reducible apply Completes.next
    | with_reducible intro _
    | with_reducible apply State.tbStepMeets_keeps

theorem execTbRateWrite_completes (fn : Nat) (h : Nat) (data : Word) (s : State) :
    Completes (byFn fn [.regs, .slv, .tbs]) s (execTbRateWrite fn h data s) := by
  unfold execTbRateWrite
  repeat' first
    | with_reducible assumption
    | exact Allows.mono (by decide) (Allows.refl _)
    | with_reducible exact Keeps.refl _
    | with_reducible apply Completes.writeAcc
    | with_reducible apply Completes.next
    | with_reducible intro _
    | with_reducible apply State.tbRateWrite_keeps

theorem execFollowerTimeApply_completes (s : State) :
    Completes [.regs, .tbs, .pps, .gens] s (execFollowerTimeApply s) := by
  unfold execFollowerTimeApply
  repeat' first
    | with_reducible assumption
    | exact Allows.mono (by decide) (Allows.refl _)
    | with_reducible exact Keeps.refl _
    | with_reducible apply Completes.next
    | with_reducible apply State.applyFollow_keeps
    | with_reducible apply Keeps.ite
    | with_reducible apply Completes.ite

theorem execSnapshotLatch_completes (fn : Nat) (h : Nat) (data : Word) (s : State) :
    Completes (byFn fn [.regs, .slv, .tbs]) s (execSnapshotLatch fn h data s) := by
  unfold execSnapshotLatch
  repeat' first
    | with_reducible assumption
    | exact Allows.mono (by decide) (Allows.refl _)
    | with_reducible exact Keeps.refl _
    | with_reducible apply Completes.writeAcc
    | with_reducible apply Completes.next
    | with_reducible intro _
    | with_reducible apply State.snapCmd_keeps

theorem execTbSnapNsRead_completes (fn : Nat) (h : Nat) (s : State) :
    Completes (byFn fn [.regs, .slv]) s (execTbSnapNsRead fn h s) := by
  unfold execTbSnapNsRead
  repeat' first
    | with_reducible assumption
    | exact Allows.mono (by decide) (Allows.refl _)
    | with_reducible exact Keeps.refl _
    | with_reducible apply Completes.access
    | with_reducible apply Completes.next
    | with_reducible intro _
    | with_reducible apply State.deny_keeps
    | with_reducible apply State.snapRead_keeps
    | with_reducible apply Keeps.ite

theorem execPpsPulseStart_completes (s : State) :
    Completes [.out, .pps] s (execPpsPulseStart s) := by
  unfold execPpsPulseStart
  repeat' first
    | with_reducible assumption
    | exact Allows.mono (by decide) (Allows.refl _)
    | with_reducible exact Keeps.refl _
    | with_reducible apply Completes.next
    | with_reducible apply State.emit_keeps
    | with_reducible apply State.setPps_keeps
    | with_reducible apply Keeps.ite
    | with_reducible apply Completes.ite

theorem execPpsPulseEnd_completes (s : State) :
    Completes [.out, .pps] s (execPpsPulseEnd s) := by
  unfold execPpsPulseEnd
  repeat' first
    | with_reducible assumption
    | exact Allows.mono (by decide) (Allows.refl _)
    | with_reducible exact Keeps.refl _
    | with_reducible apply Completes.next
    | with_reducible apply State.emit_keeps
    | with_reducible apply State.setPps_keeps
    | with_reducible apply Keeps.ite
    | with_reducible apply Completes.ite

theorem execGeneratorEnable_completes (fn : Nat) (n : Nat) (data : Word) (s : State) :
    Completes (byFn fn [.regs, .stage, .slv, .out, .tbs, .gens, .trigs]) s (execGeneratorEnable fn n data s) := by
  unfold execGeneratorEnable
  repeat' first
    | with_reducible assumption
    | exact Allows.mono (by decide) (Allows.refl _)
    | with_reducible exact Keeps.refl _
    | with_reducible apply Completes.writeAcc
    | with_reducible apply Completes.next
    | with_reducible intro _
    | with_reducible apply State.genCfgWrite_keeps

theorem execGeneratorDisable_completes (fn : Nat) (n : Nat) (data : Word) (s : State) :
    Completes (byFn fn [.regs, .stage, .slv, .out, .tbs, .gens, .trigs]) s (execGeneratorDisable fn n data s) := by
  unfold execGeneratorDisable
  repeat' first
    | with_reducible assumption
    | exact Allows.mono (by decide) (Allows.refl _)
    | with_reducible exact Keeps.refl _
    | with_reducible apply Completes.writeAcc
    | with_reducible apply Completes.next
    | with_reducible intro _
    | with_reducible apply State.genCfgWrite_keeps

theorem execCycleBoundary_completes (n : Nat) (s : State) :
    Completes [.regs, .out, .gens, .trigs] s (execCycleBoundary n s) := by
  unfold execCycleBoundary
  repeat' first
    | with_reducible assumption
    | exact Allows.mono (by decide) (Allows.refl _)
    | with_reducible exact Keeps.refl _
    | with_reducible apply Completes.next
    | with_reducible apply State.genBoundary_keeps
    | with_reducible apply Keeps.ite
    | with_reducible apply Completes.ite

theorem execSyncInEdge_completes (rising : Bool) (s : State) :
    Completes [.regs, .gens] s (execSyncInEdge rising s) := by
  unfold execSyncInEdge
  repeat' first
    | with_reducible assumption
    | exact Allows.mono (by decide) (Allows.refl _)
    | with_reducible exact Keeps.refl _
    | with_reducible apply Completes.next
    | with_reducible intro _
    | with_reducible apply forEach_keeps
    | with_reducible apply State.syncEdge_keeps
    | with_reducible apply Keeps.forEach
    | with_reducible apply Keeps.ite

theorem execSyncMissLimit_completes (n : Nat) (s : State) :
    Completes [.regs] s (execSyncMissLimit n s) := by
  unfold execSyncMissLimit
  repeat' first
    | with_reducible assumption
    | exact Allows.mono (by decide) (Allows.refl _)
    | with_reducible exact Keeps.refl _
    | with_reducible apply Completes.next
    | with_reducible apply State.syncLost_keeps
    | with_reducible apply Keeps.ite
    | with_reducible apply Completes.ite

theorem execTriggerConfigWrite_completes (fn : Nat) (n : Nat) (which : Nat) (data : Word) (s : State) :
    Completes (byFn fn [.regs, .stage, .slv, .out, .tbs, .trigs, .dic]) s (execTriggerConfigWrite fn n which data s) := by
  unfold execTriggerConfigWrite
  repeat' first
    | with_reducible assumption
    | exact Allows.mono (by decide) (Allows.refl _)
    | with_reducible exact Keeps.refl _
    | with_reducible apply Completes.writeAcc
    | with_reducible apply Completes.next
    | with_reducible intro _
    | with_reducible apply State.trigWrite_keeps

theorem execTriggerRise_completes (n : Nat) (s : State) :
    Completes [.regs, .out, .trigs] s (execTriggerRise n s) := by
  unfold execTriggerRise
  repeat' first
    | with_reducible assumption
    | exact Allows.mono (by decide) (Allows.refl _)
    | with_reducible exact Keeps.refl _
    | with_reducible apply Completes.next
    | with_reducible apply State.driveTrig_keeps
    | with_reducible apply State.setFlag_keeps
    | with_reducible apply Keeps.ite
    | with_reducible apply Completes.ite
    | refine Keeps.snd ?_ (by assumption)
    | refine Keeps.snd2 ?_ (by assumption)
    | (lift_lets; intro x; clear_value x)
    | with_reducible apply hx
    | split
    | dsimp only

theorem execTriggerFall_completes (n : Nat) (s : State) :
    Completes [.out, .trigs] s (execTriggerFall n s) := by
  unfold execTriggerFall
  repeat' first
    | with_reducible assumption
    | exact Allows.mono (by decide) (Allows.refl _)
    | with_reducible exact Keeps.refl _
    | with_reducible apply Completes.next
    | with_reducible apply State.driveTrig_keeps
    | with_reducible apply Keeps.ite
    | with_reducible apply Completes.ite
    | refine Keeps.snd ?_ (by assumption)
    | refine Keeps.snd2 ?_ (by assumption)
    | (lift_lets; intro x; clear_value x)
    | with_reducible apply hx
    | split

theorem execCaptureEdge_completes (n : Nat) (rising : Bool) (clr : Bool) (s : State) :
    Completes [.regs] s (execCaptureEdge n rising s clr) := by
  unfold execCaptureEdge
  repeat' first
    | with_reducible assumption
    | exact Allows.mono (by decide) (Allows.refl _)
    | with_reducible exact Keeps.refl _
    | with_reducible apply Completes.next
    | with_reducible apply State.fset_keeps
    | with_reducible apply State.fsets_keeps
    | with_reducible apply State.setFlag_keeps
    | with_reducible apply State.wr64_keeps
    | with_reducible apply Keeps.ite
    | with_reducible apply Completes.ite

theorem execCaptureTsRead_completes (fn : Nat) (n : Nat) (s : State) :
    Completes (byFn fn [.hold, .slv]) s (execCaptureTsRead fn n s) := by
  unfold execCaptureTsRead
  repeat' first
    | with_reducible assumption
    | exact Allows.mono (by decide) (Allows.refl _)
    | with_reducible exact Keeps.refl _
    | with_reducible apply Completes.access
    | with_reducible apply Completes.next
    | with_reducible intro _
    | with_reducible apply State.capRead_keeps
    | with_reducible apply State.deny_keeps
    | with_reducible apply Keeps.ite

theorem execTbClockLoss_completes (h : Nat) (s : State) :
    Completes [.regs, .out, .free, .tbs, .trigs, .frames, .ports, .flt, .trunks, .node, .pipes, .gload, .cls, .emem, .funcs, .qps, .mem, .dmas] s (execTbClockLoss h s) := by
  unfold execTbClockLoss
  repeat' first
    | with_reducible assumption
    | exact Allows.mono (by decide) (Allows.refl _)
    | with_reducible exact Keeps.refl _
    | with_reducible apply Completes.next
    | with_reducible intro _
    | with_reducible apply forEach_keeps
    | with_reducible apply State.fsets_keeps
    | with_reducible apply State.logFault_keeps
    | with_reducible apply State.setTb_keeps
    | with_reducible apply State.syncTrig_keeps
    | with_reducible apply Keeps.forEach
    | with_reducible apply Keeps.ite
    | with_reducible apply Completes.ite

theorem execTbTicksResume_completes (h : Nat) (s : State) :
    Completes [.regs, .stage, .slv, .out, .tbs, .pps, .gens, .trigs, .dic, .trunks] s (execTbTicksResume h s) := by
  unfold execTbTicksResume
  repeat' first
    | with_reducible assumption
    | exact Allows.mono (by decide) (Allows.refl _)
    | with_reducible exact Keeps.refl _
    | with_reducible apply Completes.next
    | with_reducible apply State.setTb_keeps
    | with_reducible apply State.tbWaiting_keeps
    | with_reducible apply State.tick_keeps
    | with_reducible apply Keeps.ite
    | with_reducible apply Completes.ite

theorem execTrkCfgWrite_completes (fn : Nat) (t : Nat) (data : Word) (s : State) :
    Completes (byFn fn [.regs, .stage, .slv, .out, .free, .trigs, .flt, .trunks, .node, .gload, .cls, .funcs]) s (execTrkCfgWrite fn t data s) := by
  unfold execTrkCfgWrite
  repeat' first
    | with_reducible assumption
    | exact Allows.mono (by decide) (Allows.refl _)
    | with_reducible exact Keeps.refl _
    | with_reducible apply Completes.access
    | with_reducible apply Completes.next
    | with_reducible intro _
    | with_reducible apply State.trkCfgWrite_keeps

theorem execPmaLockChange_completes (t : Nat) (level : Bool) (s : State) :
    Completes [.regs, .out, .free, .trigs, .flt, .trunks, .node, .gload, .cls, .funcs] s (execPmaLockChange t level s) := by
  unfold execPmaLockChange
  repeat' first
    | with_reducible assumption
    | exact Allows.mono (by decide) (Allows.refl _)
    | with_reducible exact Keeps.refl _
    | with_reducible apply Completes.next
    | with_reducible apply State.delinLoss_keeps
    | with_reducible apply State.fixDegraded_keeps
    | with_reducible apply State.fset_keeps
    | with_reducible apply State.leaveSync_keeps
    | with_reducible apply State.setTrunk_keeps
    | with_reducible apply State.sfUpdate_keeps
    | with_reducible apply Keeps.ite
    | with_reducible apply Completes.ite

theorem execCellReceive_completes (t : Nat) (ofs : Nat) (bytes : List Byte) (ph : Nat) (s : State) :
    Completes [.regs, .out, .free, .trigs, .frames, .nextFrame, .ports, .flt, .trunks, .node, .pipes, .gload, .cls, .funcs, .mem] s (execCellReceive t ofs bytes ph s) := by
  unfold execCellReceive
  repeat' first
    | with_reducible assumption
    | exact Allows.mono (by decide) (Allows.refl _)
    | with_reducible exact Keeps.refl _
    | with_reducible apply Completes.next
    | with_reducible apply State.huntCell_keeps
    | with_reducible apply State.syncCell_keeps
    | with_reducible apply Keeps.ite
    | with_reducible apply Completes.ite

theorem execSuperframeTimeout_completes (t : Nat) (s : State) :
    Completes [.regs, .trunks] s (execSuperframeTimeout t s) := by
  unfold execSuperframeTimeout
  repeat' first
    | with_reducible assumption
    | exact Allows.mono (by decide) (Allows.refl _)
    | with_reducible exact Keeps.refl _
    | with_reducible apply Completes.next
    | with_reducible apply State.sfTimeout_keeps
    | with_reducible apply Keeps.ite
    | with_reducible apply Completes.ite

theorem execLinkFaultReceive_completes (t : Nat) (fault : Nat) (s : State) :
    Completes [.regs, .out, .free, .trigs, .frames, .ports, .flt, .trunks, .node, .pipes, .gload, .cls, .emem, .funcs, .qps, .mem, .dmas] s (execLinkFaultReceive t fault s) := by
  unfold execLinkFaultReceive
  repeat' first
    | with_reducible assumption
    | exact Allows.mono (by decide) (Allows.refl _)
    | with_reducible exact Keeps.refl _
    | with_reducible apply Completes.next
    | with_reducible apply State.breakTx_keeps
    | with_reducible apply State.emit_keeps
    | with_reducible apply Ins.fault_keeps
    | with_reducible apply State.setTrunk_keeps
    | with_reducible apply Keeps.ite
    | with_reducible apply Completes.ite

theorem execCellSlot_completes (t : Nat) (ph : Nat) (s : State) :
    Completes [.regs, .out, .frames, .ports, .trunks, .emem, .qps, .mem] s (execCellSlot t ph s) := by
  unfold execCellSlot
  repeat' first
    | with_reducible assumption
    | exact Allows.mono (by decide) (Allows.refl _)
    | with_reducible exact Keeps.refl _
    | with_reducible apply Completes.next
    | with_reducible apply State.sendIdle_keeps
    | with_reducible apply State.sendOverhead_keeps
    | with_reducible apply State.sendSlot_keeps
    | with_reducible apply Keeps.ite
    | with_reducible apply Completes.ite
    | refine Keeps.snd ?_ (by assumption)
    | refine Keeps.snd2 ?_ (by assumption)
    | with_reducible apply hx
    | split

theorem execWakeEvent_completes (src : Nat) (index : Nat) (filter : Nat) (met : Bool) (s : State) :
    Completes [.regs, .latches, .doms] s (execWakeEvent src index filter s met) := by
  unfold execWakeEvent
  repeat' first
    | with_reducible assumption
    | exact Allows.mono (by decide) (Allows.refl _)
    | with_reducible exact Keeps.refl _
    | with_reducible apply Completes.next
    | with_reducible apply State.wake_keeps
    | with_reducible apply Keeps.ite
    | with_reducible apply Completes.ite

theorem execWakeRequest_completes (fn : Nat) (data : Word) (s : State) :
    Completes (byFn fn [.regs, .slv, .latches, .doms]) s (execWakeRequest fn data s) := by
  unfold execWakeRequest
  repeat' first
    | with_reducible assumption
    | exact Allows.mono (by decide) (Allows.refl _)
    | with_reducible exact Keeps.refl _
    | with_reducible apply Completes.access
    | with_reducible apply Completes.next
    | with_reducible intro _
    | with_reducible apply State.wakeReq_keeps

theorem execPowerTargetWrite_completes (fn : Nat) (d : Nat) (data : Word) (s : State) :
    Completes (byFn fn [.regs, .stage, .hold, .slv, .out, .req, .halves, .settle, .tbs, .pps, .gens, .trigs, .frames, .ports, .taken, .doms, .gasp, .dic, .flt, .trunks, .slots, .node, .pipes, .graph, .gload, .cls, .ems, .threads, .wheel, .emem, .splices, .funcs, .qps, .binds, .admin, .mem, .chks, .dmas]) s (execPowerTargetWrite fn d data s) := by
  unfold execPowerTargetWrite
  repeat' first
    | with_reducible assumption
    | exact Allows.mono (by decide) (Allows.refl _)
    | with_reducible exact Keeps.refl _
    | with_reducible apply Completes.access
    | with_reducible apply Completes.next
    | with_reducible intro _
    | with_reducible apply State.targetWrite_keeps

theorem execSequencerStep_completes (s : State) :
    Completes [.regs, .stage, .hold, .out, .free, .req, .halves, .settle, .tbs, .pps, .gens, .trigs, .frames, .ports, .taken, .latches, .doms, .gasp, .dic, .flt, .trunks, .slots, .node, .pipes, .graph, .gload, .cls, .ems, .threads, .wheel, .emem, .splices, .funcs, .qps, .binds, .admin, .mem, .chks, .dmas] s (execSequencerStep s) := by
  unfold execSequencerStep
  repeat' first
    | with_reducible assumption
    | exact Allows.mono (by decide) (Allows.refl _)
    | with_reducible exact Keeps.refl _
    | with_reducible apply Completes.next
    | with_reducible intro _
    | with_reducible apply State.domStep_keeps
    | with_reducible apply forEach_keeps
    | with_reducible apply grantLoop_keeps
    | with_reducible apply State.wakeUp_keeps
    | with_reducible apply Keeps.forEach
    | with_reducible apply Keeps.ite

theorem execPswAckRise_completes (d : Nat) (s : State) :
    Completes [.regs, .out, .doms] s (execPswAckRise d s) := by
  unfold execPswAckRise
  repeat' first
    | with_reducible assumption
    | exact Allows.mono (by decide) (Allows.refl _)
    | with_reducible exact Keeps.refl _
    | with_reducible apply Completes.next
    | with_reducible apply State.powerRestore_keeps
    | with_reducible apply State.setDom_keeps
    | with_reducible apply Keeps.ite
    | with_reducible apply Completes.ite
    | refine Keeps.snd ?_ (by assumption)
    | refine Keeps.snd2 ?_ (by assumption)
    | split

theorem execPswAckTimeout_completes (d : Nat) (s : State) :
    Completes [.regs, .stage, .hold, .out, .free, .req, .halves, .settle, .tbs, .pps, .gens, .trigs, .frames, .ports, .taken, .doms, .gasp, .dic, .flt, .trunks, .slots, .node, .pipes, .graph, .gload, .cls, .ems, .threads, .wheel, .emem, .splices, .funcs, .qps, .binds, .admin, .mem, .chks, .dmas] s (execPswAckTimeout d s) := by
  unfold execPswAckTimeout
  repeat' first
    | with_reducible assumption
    | exact Allows.mono (by decide) (Allows.refl _)
    | with_reducible exact Keeps.refl _
    | with_reducible apply Completes.next
    | with_reducible apply State.domDone_keeps
    | with_reducible apply State.drive_keeps
    | with_reducible apply State.fset_keeps
    | with_reducible apply State.logFault_keeps
    | with_reducible apply State.takeNext_keeps
    | with_reducible apply Keeps.ite
    | with_reducible apply Completes.ite
    | split

theorem execListenSample_completes (p : Nat) (energy : Bool) (s : State) :
    Completes [.regs, .latches, .doms] s (execListenSample p energy s) := by
  unfold execListenSample
  repeat' first
    | with_reducible assumption
    | exact Allows.mono (by decide) (Allows.refl _)
    | with_reducible exact Keeps.refl _
    | with_reducible apply Completes.next
    | with_reducible apply State.setDom_keeps
    | with_reducible apply State.wake_keeps
    | with_reducible apply Keeps.ite
    | with_reducible apply Completes.ite

theorem execListenWindowEnd_completes (p : Nat) (s : State) :
    Completes [.doms] s (execListenWindowEnd p s) := by
  unfold execListenWindowEnd
  repeat' first
    | with_reducible assumption
    | exact Allows.mono (by decide) (Allows.refl _)
    | with_reducible exact Keeps.refl _
    | with_reducible apply Completes.next
    | with_reducible apply State.setDom_keeps
    | with_reducible apply Keeps.ite
    | with_reducible apply Completes.ite
    | refine Keeps.snd ?_ (by assumption)
    | refine Keeps.snd2 ?_ (by assumption)
    | (lift_lets; intro x; clear_value x)
    | with_reducible apply hx
    | split

theorem execMacCtlWrite_completes (fn : Nat) (p : Nat) (data : Word) (s : State) :
    Completes (byFn fn [.regs, .stage, .slv, .out, .ports, .trunks, .node]) s (execMacCtlWrite fn p data s) := by
  unfold execMacCtlWrite
  repeat' first
    | with_reducible assumption
    | exact Allows.mono (by decide) (Allows.refl _)
    | with_reducible exact Keeps.refl _
    | with_reducible apply Completes.access
    | with_reducible apply Completes.next
    | with_reducible intro _
    | with_reducible apply State.macCtlWrite_keeps

theorem execPauseFrameReceive_completes (p : Nat) (pfc : Bool) (enable : Nat) (quanta : List Nat) (s : State) :
    Completes [.regs] s (execPauseFrameReceive p pfc enable quanta s) := by
  unfold execPauseFrameReceive
  repeat' first
    | with_reducible assumption
    | exact Allows.mono (by decide) (Allows.refl _)
    | with_reducible exact Keeps.refl _
    | with_reducible apply Completes.next
    | with_reducible apply State.countGood_keeps
    | with_reducible apply State.pauseReceive_keeps
    | with_reducible apply Keeps.ite
    | with_reducible apply Completes.ite

theorem execPauseTimerExpiry_completes (p : Nat) (cls : Nat) (s : State) :
    Completes [.regs] s (execPauseTimerExpiry p cls s) := by
  unfold execPauseTimerExpiry
  repeat' first
    | with_reducible assumption
    | exact Allows.mono (by decide) (Allows.refl _)
    | with_reducible exact Keeps.refl _
    | with_reducible apply Completes.next
    | with_reducible apply State.fset_keeps
    | with_reducible apply Keeps.ite
    | with_reducible apply Completes.ite

theorem execPauseRepeat_completes (p : Nat) (cls : Nat) (s : State) :
    Completes [.ports] s (execPauseRepeat p cls s) := by
  unfold execPauseRepeat
  repeat' first
    | with_reducible assumption
    | exact Allows.mono (by decide) (Allows.refl _)
    | with_reducible exact Keeps.refl _
    | with_reducible apply Completes.next
    | with_reducible apply State.setPort_keeps
    | with_reducible apply Keeps.ite
    | with_reducible apply Completes.ite

theorem execFrameReceive_completes (p : Nat) (bytes : List Byte) (eof : Bool) (rxErr : Bool) (asm : Nat) (ph : Nat) (s : State) :
    Completes [.regs, .free, .frames, .nextFrame, .ports, .latches, .doms, .pipes, .threads, .emem, .qps, .mem] s (execFrameReceive p bytes eof rxErr asm ph s) := by
  unfold execFrameReceive
  repeat' first
    | with_reducible assumption
    | exact Allows.mono (by decide) (Allows.refl _)
    | with_reducible exact Keeps.refl _
    | with_reducible apply Completes.next
    | with_reducible apply State.frameIn_keeps
    | with_reducible apply State.listenFrame_keeps
    | with_reducible apply Keeps.ite
    | with_reducible apply Completes.ite

theorem execGateEntryExpiry_completes (p : Nat) (s : State) :
    Completes [.regs, .ports] s (execGateEntryExpiry p s) := by
  unfold execGateEntryExpiry
  repeat' first
    | with_reducible assumption
    | exact Allows.mono (by decide) (Allows.refl _)
    | with_reducible exact Keeps.refl _
    | with_reducible apply Completes.next
    | with_reducible apply State.gateEnter_keeps
    | with_reducible apply State.gateRestart_keeps
    | with_reducible apply Keeps.ite
    | with_reducible apply Completes.ite

theorem execGateListWrite_completes (fn : Nat) (p : Nat) (ctl : Bool) (g : Nat) (i : Nat) (hi : Bool) (data : Word) (s : State) :
    Completes (byFn fn [.regs, .stage, .slv, .ports, .trunks, .node]) s (execGateListWrite fn p ctl g i hi data s) := by
  unfold execGateListWrite
  repeat' first
    | with_reducible assumption
    | exact Allows.mono (by decide) (Allows.refl _)
    | with_reducible exact Keeps.refl _
    | with_reducible apply Completes.access
    | with_reducible apply Completes.next
    | with_reducible intro _
    | with_reducible apply State.gclCtlWrite_keeps
    | with_reducible apply State.gclEntryWrite_keeps
    | with_reducible apply Keeps.ite
    | with_reducible apply Completes.ite

theorem execVerifyResponse_completes (p : Nat) (s : State) :
    Completes [.regs] s (execVerifyResponse p s) := by
  unfold execVerifyResponse
  repeat' first
    | with_reducible assumption
    | exact Allows.mono (by decide) (Allows.refl _)
    | with_reducible exact Keeps.refl _
    | with_reducible apply Completes.next
    | with_reducible apply State.fsets_keeps
    | with_reducible apply Keeps.ite
    | with_reducible apply Completes.ite

theorem execVerifyTimeout_completes (p : Nat) (s : State) :
    Completes [.regs, .out, .ports] s (execVerifyTimeout p s) := by
  unfold execVerifyTimeout
  repeat' first
    | with_reducible assumption
    | exact Allows.mono (by decide) (Allows.refl _)
    | with_reducible exact Keeps.refl _
    | with_reducible apply Completes.next
    | with_reducible apply State.fset_keeps
    | with_reducible apply State.sendVerify_keeps
    | with_reducible apply State.setPort_keeps
    | with_reducible apply Keeps.ite
    | with_reducible apply Completes.ite

theorem execFrameTransmitStart_completes (p : Nat) (ph : Nat) (sent : Nat) (crs : Bool) (s : State) :
    Completes [.regs, .out, .frames, .ports, .emem, .funcs, .qps, .mem] s (execFrameTransmitStart p ph s sent crs) := by
  unfold execFrameTransmitStart
  repeat' first
    | with_reducible assumption
    | exact Allows.mono (by decide) (Allows.refl _)
    | with_reducible exact Keeps.refl _
    | with_reducible apply Completes.next
    | with_reducible apply State.interrupt_keeps
    | with_reducible apply State.resumeHeld_keeps
    | with_reducible apply State.setPort_keeps
    | with_reducible apply State.startNext_keeps
    | with_reducible apply Keeps.ite
    | with_reducible apply Completes.ite

theorem execCutThroughStart_completes (p : Nat) (ph : Nat) (sent : Nat) (s : State) :
    Completes [.regs, .out, .frames, .ports, .emem, .funcs, .qps, .mem] s (execCutThroughStart p ph s sent) := by
  unfold execCutThroughStart
  repeat' first
    | with_reducible assumption
    | exact Allows.mono (by decide) (Allows.refl _)
    | with_reducible exact Keeps.refl _
    | with_reducible apply Completes.next
    | with_reducible apply State.interrupt_keeps
    | with_reducible apply State.startCopy_keeps
    | with_reducible apply Keeps.ite
    | with_reducible apply Completes.ite
    | refine Keeps.snd ?_ (by assumption)
    | refine Keeps.snd2 ?_ (by assumption)
    | with_reducible apply hx
    | split

theorem execFrameTransmitEnd_completes (p : Nat) (s : State) :
    Completes [.regs, .out, .frames, .ports, .gasp, .trunks, .node, .cls, .emem, .qps, .mem] s (execFrameTransmitEnd p s) := by
  unfold execFrameTransmitEnd
  repeat' first
    | with_reducible assumption
    | exact Allows.mono (by decide) (Allows.refl _)
    | with_reducible exact Keeps.refl _
    | with_reducible apply Completes.next
    | with_reducible apply State.cntAdd_keeps
    | with_reducible apply State.copyGone_keeps
    | with_reducible apply Ins.done_keeps
    | with_reducible apply State.emit_keeps
    | with_reducible apply State.endCopy_keeps
    | with_reducible apply State.fset_keeps
    | with_reducible apply State.gaspGone_keeps
    | with_reducible apply State.macCnt_keeps
    | with_reducible apply State.setPort_keeps
    | with_reducible apply Keeps.ite
    | with_reducible apply Completes.ite
    | refine Keeps.snd ?_ (by assumption)
    | refine Keeps.snd2 ?_ (by assumption)
    | (lift_lets; intro x; clear_value x)
    | with_reducible apply hx
    | split

theorem execCollision_completes (p : Nat) (late : Bool) (s : State) :
    Completes [.regs, .out, .frames, .ports, .gasp, .trunks, .node, .cls, .emem, .qps, .mem] s (execCollision p late s) := by
  unfold execCollision
  repeat' first
    | with_reducible assumption
    | exact Allows.mono (by decide) (Allows.refl _)
    | with_reducible exact Keeps.refl _
    | with_reducible apply Completes.next
    | with_reducible apply State.copyGone_keeps
    | with_reducible apply State.emit_keeps
    | with_reducible apply State.fset_keeps
    | with_reducible apply State.gaspGone_keeps
    | with_reducible apply State.macCnt_keeps
    | with_reducible apply State.setPort_keeps
    | with_reducible apply Keeps.ite
    | with_reducible apply Completes.ite
    | refine Keeps.snd ?_ (by assumption)
    | refine Keeps.snd2 ?_ (by assumption)
    | (lift_lets; intro x; clear_value x)
    | with_reducible apply hx
    | split

theorem execBackoffExpiry_completes (p : Nat) (s : State) :
    Completes [.ports] s (execBackoffExpiry p s) := by
  unfold execBackoffExpiry
  repeat' first
    | with_reducible assumption
    | exact Allows.mono (by decide) (Allows.refl _)
    | with_reducible exact Keeps.refl _
    | with_reducible apply Completes.next
    | with_reducible apply State.setPort_keeps

theorem execEditQueued_completes (p : Nat) (j : Int) (s : State) :
    Completes [.regs, .frames, .ports, .emem] s (execEditQueued p s j) := by
  unfold execEditQueued
  repeat' first
    | with_reducible assumption
    | exact Allows.mono (by decide) (Allows.refl _)
    | with_reducible exact Keeps.refl _
    | with_reducible apply Completes.next
    | with_reducible apply State.editArrives_keeps
    | with_reducible apply State.setPort_keeps
    | with_reducible apply Keeps.ite
    | with_reducible apply Completes.ite
    | refine Keeps.snd ?_ (by assumption)
    | refine Keeps.snd2 ?_ (by assumption)
    | split

theorem execEditLate_completes (p : Nat) (j : Int) (s : State) :
    Completes [.regs, .frames, .ports, .emem] s (execEditLate p s j) := by
  unfold execEditLate
  repeat' first
    | with_reducible assumption
    | exact Allows.mono (by decide) (Allows.refl _)
    | with_reducible exact Keeps.refl _
    | with_reducible apply Completes.next
    | with_reducible intro _
    | with_reducible apply State.copyStatus_keeps
    | with_reducible apply State.fset_keeps
    | with_reducible apply State.macCnt_keeps
    | with_reducible apply State.postThr_keeps
    | with_reducible apply State.raisePort_keeps
    | with_reducible apply State.setPort_keeps
    | with_reducible apply State.spliceNote_keeps
    | refine Keeps.snd ?_ (by assumption)
    | refine Keeps.snd2 ?_ (by assumption)
    | (lift_lets; intro x; clear_value x)
    | with_reducible apply hx
    | split

theorem execByteTrigger_completes (e : Nat) (n : Nat) (k : Nat) (s : State) :
    Completes [.regs, .threads] s (execByteTrigger e n k s) := by
  unfold execByteTrigger
  repeat' first
    | with_reducible assumption
    | exact Allows.mono (by decide) (Allows.refl _)
    | with_reducible exact Keeps.refl _
    | with_reducible apply Completes.next
    | with_reducible apply Ins.done_keeps
    | with_reducible apply State.postEvt_keeps
    | with_reducible apply State.setThr_keeps
    | with_reducible apply Keeps.ite
    | with_reducible apply Completes.ite
    | refine Keeps.snd ?_ (by assumption)
    | refine Keeps.snd2 ?_ (by assumption)
    | (lift_lets; intro x; clear_value x)
    | with_reducible apply hx
    | split
    | dsimp only

theorem execClassify_completes (h : Nat) (late : Bool) (s : State) :
    Completes [.regs, .free, .frames, .ports, .pipes, .cls, .ems, .threads, .emem, .qps, .mem] s (execClassify h s late) := by
  unfold execClassify
  repeat' first
    | with_reducible assumption
    | exact Allows.mono (by decide) (Allows.refl _)
    | with_reducible exact Keeps.refl _
    | with_reducible apply Completes.next
    | with_reducible apply State.classify_keeps
    | with_reducible apply State.decideAct_keeps
    | with_reducible apply State.setEm_keeps
    | with_reducible apply State.setPipe_keeps
    | with_reducible apply Keeps.ite
    | with_reducible apply Completes.ite
    | refine Keeps.snd ?_ (by assumption)
    | refine Keeps.snd2 ?_ (by assumption)
    | (lift_lets; intro x; clear_value x)
    | with_reducible apply hx
    | split
    | dsimp only

theorem execStageOpenDone_completes (s : State) :
    Completes [.regs, .cls] s (execStageOpenDone s) := by
  unfold execStageOpenDone
  repeat' first
    | with_reducible assumption
    | exact Allows.mono (by decide) (Allows.refl _)
    | with_reducible exact Keeps.refl _
    | with_reducible apply Completes.next
    | with_reducible apply State.openStage_keeps
    | with_reducible apply State.runWaiting_keeps
    | refine Keeps.snd ?_ (by assumption)
    | refine Keeps.snd2 ?_ (by assumption)
    | split

theorem execStageOpen_completes (fn : Nat) (s : State) :
    Completes (byFn fn [.regs, .slv, .cls]) s (execStageOpen fn s) := by
  unfold execStageOpen
  repeat' first
    | with_reducible assumption
    | exact Allows.mono (by decide) (Allows.refl _)
    | with_reducible exact Keeps.refl _
    | with_reducible apply Completes.access
    | with_reducible apply Completes.next
    | with_reducible intro _
    | with_reducible apply State.stageCtlWrite_keeps

theorem execStageOpenEmpty_completes (fn : Nat) (s : State) :
    Completes (byFn fn [.regs, .slv, .cls]) s (execStageOpenEmpty fn s) := by
  unfold execStageOpenEmpty
  repeat' first
    | with_reducible assumption
    | exact Allows.mono (by decide) (Allows.refl _)
    | with_reducible exact Keeps.refl _
    | with_reducible apply Completes.access
    | with_reducible apply Completes.next
    | with_reducible intro _
    | with_reducible apply State.stageCtlWrite_keeps

theorem execStageAbandon_completes (fn : Nat) (s : State) :
    Completes (byFn fn [.regs, .slv, .cls]) s (execStageAbandon fn s) := by
  unfold execStageAbandon
  repeat' first
    | with_reducible assumption
    | exact Allows.mono (by decide) (Allows.refl _)
    | with_reducible exact Keeps.refl _
    | with_reducible apply Completes.access
    | with_reducible apply Completes.next
    | with_reducible intro _
    | with_reducible apply State.stageCtlWrite_keeps

theorem execTcamWrite_completes (fn : Nat) (s : State) :
    Completes (byFn fn [.regs, .slv, .cls]) s (execTcamWrite fn s) := by
  unfold execTcamWrite State.tcamCmd
  repeat' first
    | with_reducible assumption
    | exact Allows.mono (by decide) (Allows.refl _)
    | with_reducible exact Keeps.refl _
    | with_reducible apply Completes.access
    | with_reducible apply Completes.next
    | with_reducible intro _
    | with_reducible apply State.tcamCmdWrite_keeps

theorem execTcamAdd_completes (fn : Nat) (s : State) :
    Completes (byFn fn [.regs, .slv, .cls]) s (execTcamAdd fn s) := by
  unfold execTcamAdd State.tcamCmd
  repeat' first
    | with_reducible assumption
    | exact Allows.mono (by decide) (Allows.refl _)
    | with_reducible exact Keeps.refl _
    | with_reducible apply Completes.access
    | with_reducible apply Completes.next
    | with_reducible intro _
    | with_reducible apply State.tcamCmdWrite_keeps

theorem execTcamDel_completes (fn : Nat) (s : State) :
    Completes (byFn fn [.regs, .slv, .cls]) s (execTcamDel fn s) := by
  unfold execTcamDel State.tcamCmd
  repeat' first
    | with_reducible assumption
    | exact Allows.mono (by decide) (Allows.refl _)
    | with_reducible exact Keeps.refl _
    | with_reducible apply Completes.access
    | with_reducible apply Completes.next
    | with_reducible intro _
    | with_reducible apply State.tcamCmdWrite_keeps

theorem execTcamRead_completes (fn : Nat) (s : State) :
    Completes (byFn fn [.regs, .slv, .cls]) s (execTcamRead fn s) := by
  unfold execTcamRead State.tcamCmd
  repeat' first
    | with_reducible assumption
    | exact Allows.mono (by decide) (Allows.refl _)
    | with_reducible exact Keeps.refl _
    | with_reducible apply Completes.access
    | with_reducible apply Completes.next
    | with_reducible intro _
    | with_reducible apply State.tcamCmdWrite_keeps

theorem execCommitRequest_completes (fn : Nat) (data : Word) (s : State) :
    Completes (byFn fn [.regs, .stage, .slv, .cls]) s (execCommitRequest fn data s) := by
  unfold execCommitRequest
  repeat' first
    | with_reducible assumption
    | exact Allows.mono (by decide) (Allows.refl _)
    | with_reducible exact Keeps.refl _
    | with_reducible apply Completes.access
    | with_reducible apply Completes.next
    | with_reducible intro _
    | with_reducible apply State.commitWrite_keeps

theorem execCommitComplete_completes (missed : Bool) (s : State) :
    Completes [.regs, .halves, .cls] s (execCommitComplete s missed) := by
  unfold execCommitComplete
  repeat' first
    | with_reducible assumption
    | exact Allows.mono (by decide) (Allows.refl _)
    | with_reducible exact Keeps.refl _
    | with_reducible apply Completes.next
    | with_reducible intro _
    | with_reducible apply State.fsets_keeps
    | with_reducible apply State.raise_keeps
    | with_reducible apply State.setCls_keeps
    | with_reducible apply State.setHalf_keeps
    | with_reducible apply State.showCourses_keeps
    | with_reducible apply Keeps.ite
    | with_reducible apply Completes.ite
    | refine Keeps.snd ?_ (by assumption)
    | refine Keeps.snd2 ?_ (by assumption)
    | (lift_lets; intro x; clear_value x)
    | with_reducible apply hx
    | split

theorem execCourseRetire_completes (n : Nat) (s : State) :
    Completes [.regs, .cls] s (execCourseRetire n s) := by
  unfold execCourseRetire
  repeat' first
    | with_reducible assumption
    | exact Allows.mono (by decide) (Allows.refl _)
    | with_reducible exact Keeps.refl _
    | with_reducible apply Completes.next
    | with_reducible apply State.retire_keeps
    | with_reducible apply Keeps.ite
    | with_reducible apply Completes.ite

theorem execEmInsertFlow_completes (fn : Nat) (data : Word) (s : State) :
    Completes (byFn fn [.regs, .stage, .slv, .cls]) s (execEmInsertFlow fn data s) := by
  unfold execEmInsertFlow State.emCmd
  repeat' first
    | with_reducible assumption
    | exact Allows.mono (by decide) (Allows.refl _)
    | with_reducible exact Keeps.refl _
    | with_reducible apply Completes.access
    | with_reducible apply Completes.next
    | with_reducible intro _
    | with_reducible apply State.emCmdWrite_keeps

theorem execEmInsertFwd_completes (fn : Nat) (data : Word) (s : State) :
    Completes (byFn fn [.regs, .stage, .slv, .cls]) s (execEmInsertFwd fn data s) := by
  unfold execEmInsertFwd State.emCmd
  repeat' first
    | with_reducible assumption
    | exact Allows.mono (by decide) (Allows.refl _)
    | with_reducible exact Keeps.refl _
    | with_reducible apply Completes.access
    | with_reducible apply Completes.next
    | with_reducible intro _
    | with_reducible apply State.emCmdWrite_keeps

theorem execEmDelete_completes (fn : Nat) (data : Word) (s : State) :
    Completes (byFn fn [.regs, .stage, .slv, .cls]) s (execEmDelete fn data s) := by
  unfold execEmDelete State.emCmd
  repeat' first
    | with_reducible assumption
    | exact Allows.mono (by decide) (Allows.refl _)
    | with_reducible exact Keeps.refl _
    | with_reducible apply Completes.access
    | with_reducible apply Completes.next
    | with_reducible intro _
    | with_reducible apply State.emCmdWrite_keeps

theorem execEmRead_completes (fn : Nat) (data : Word) (s : State) :
    Completes (byFn fn [.regs, .stage, .slv, .cls]) s (execEmRead fn data s) := by
  unfold execEmRead State.emCmd
  repeat' first
    | with_reducible assumption
    | exact Allows.mono (by decide) (Allows.refl _)
    | with_reducible exact Keeps.refl _
    | with_reducible apply Completes.access
    | with_reducible apply Completes.next
    | with_reducible intro _
    | with_reducible apply State.emCmdWrite_keeps

theorem execEmCommandDone_completes (full : Bool) (s : State) :
    Completes [.regs, .cls, .ems] s (execEmCommandDone full s) := by
  unfold execEmCommandDone
  repeat' first
    | with_reducible assumption
    | exact Allows.mono (by decide) (Allows.refl _)
    | with_reducible exact Keeps.refl _
    | with_reducible apply Completes.next
    | with_reducible apply State.emRun_keeps
    | with_reducible apply State.fsets_keeps
    | with_reducible apply State.raise_keeps
    | with_reducible apply State.setCls_keeps
    | refine Keeps.snd ?_ (by assumption)
    | refine Keeps.snd2 ?_ (by assumption)
    | with_reducible apply hx
    | split

theorem execEmCfgWrite_completes (fn : Nat) (data : Word) (s : State) :
    Completes (byFn fn [.regs, .stage, .slv, .cls, .ems, .mem]) s (execEmCfgWrite fn data s) := by
  unfold execEmCfgWrite
  repeat' first
    | with_reducible assumption
    | exact Allows.mono (by decide) (Allows.refl _)
    | with_reducible exact Keeps.refl _
    | with_reducible apply Completes.access
    | with_reducible apply Completes.next
    | with_reducible intro _
    | with_reducible apply State.emCfgWrite_keeps

theorem execLearnUpdate_completes (full : Bool) (s : State) :
    Completes [.regs, .cls, .ems] s (execLearnUpdate full s) := by
  unfold execLearnUpdate
  repeat' first
    | with_reducible assumption
    | exact Allows.mono (by decide) (Allows.refl _)
    | with_reducible exact Keeps.refl _
    | with_reducible apply Completes.next
    | with_reducible intro _
    | with_reducible apply State.clsCnt_keeps
    | with_reducible apply State.emChange_keeps
    | with_reducible apply State.emHit_keeps
    | with_reducible apply State.emRead_keeps
    | with_reducible apply State.setCls_keeps
    | with_reducible apply Keeps.ite
    | with_reducible apply Completes.ite
    | refine Keeps.snd ?_ (by assumption)
    | refine Keeps.snd2 ?_ (by assumption)
    | (lift_lets; intro x; clear_value x)
    | with_reducible apply hx
    | split
    | dsimp only

theorem execAgerVisit_completes (h : Nat) (i : Nat) (s : State) :
    Completes [.regs, .ems] s (execAgerVisit h i s) := by
  unfold execAgerVisit
  repeat' first
    | with_reducible assumption
    | exact Allows.mono (by decide) (Allows.refl _)
    | with_reducible exact Keeps.refl _
    | with_reducible apply Completes.next
    | with_reducible intro _
    | with_reducible apply State.emChange_keeps
    | with_reducible apply Keeps.ite
    | with_reducible apply Completes.ite
    | refine Keeps.snd ?_ (by assumption)
    | refine Keeps.snd2 ?_ (by assumption)
    | split

theorem execAgeRemoval_completes (h : Nat) (i : Nat) (s : State) :
    Completes [.regs, .cls, .ems] s (execAgeRemoval h i s) := by
  unfold execAgeRemoval
  repeat' first
    | with_reducible assumption
    | exact Allows.mono (by decide) (Allows.refl _)
    | with_reducible exact Keeps.refl _
    | with_reducible apply Completes.next
    | with_reducible intro _
    | with_reducible apply State.clsCnt_keeps
    | with_reducible apply State.emChange_keeps
    | with_reducible apply State.setCls_keeps
    | with_reducible apply Keeps.ite
    | with_reducible apply Completes.ite
    | refine Keeps.snd ?_ (by assumption)
    | refine Keeps.snd2 ?_ (by assumption)
    | (lift_lets; intro x; clear_value x)
    | with_reducible apply hx
    | split

theorem execFlushRequest_completes (fn : Nat) (data : Word) (s : State) :
    Completes (byFn fn [.regs, .stage, .slv, .cls]) s (execFlushRequest fn data s) := by
  unfold execFlushRequest
  repeat' first
    | with_reducible assumption
    | exact Allows.mono (by decide) (Allows.refl _)
    | with_reducible exact Keeps.refl _
    | with_reducible apply Completes.access
    | with_reducible apply Completes.next
    | with_reducible intro _
    | with_reducible apply State.flushWrite_keeps

theorem execFlushSweepDone_completes (s : State) :
    Completes [.regs, .ems] s (execFlushSweepDone s) := by
  unfold execFlushSweepDone
  repeat' first
    | with_reducible assumption
    | exact Allows.mono (by decide) (Allows.refl _)
    | with_reducible exact Keeps.refl _
    | with_reducible apply Completes.next
    | with_reducible intro _
    | with_reducible apply State.cntAdd_keeps
    | with_reducible apply State.emMayWrite_keeps
    | with_reducible apply forEach_keeps
    | with_reducible apply State.fset_keeps
    | with_reducible apply State.setEm_keeps
    | with_reducible apply Keeps.forEach
    | with_reducible apply Keeps.ite
    | with_reducible apply Completes.ite

theorem execRecoveryResetTimeout_completes (e : Nat) (n : Nat) (s : State) :
    Completes [.cls] s (execRecoveryResetTimeout e n s) := by
  unfold execRecoveryResetTimeout
  repeat' first
    | with_reducible assumption
    | exact Allows.mono (by decide) (Allows.refl _)
    | with_reducible exact Keeps.refl _
    | with_reducible apply Completes.next
    | with_reducible apply State.setCls_keeps
    | with_reducible apply Keeps.ite
    | with_reducible apply Completes.ite

theorem execLd_completes (e : Nat) (n : Nat) (slot : Nat) (busy : Nat) (ecc : Nat) (s : State) :
    Completes [.regs, .out, .free, .trigs, .frames, .ports, .flt, .trunks, .node, .pipes, .gload, .cls, .wheel, .emem, .funcs, .qps, .mem, .dmas] s (execLd e n slot busy ecc s) := by
  unfold execLd
  repeat' first
    | with_reducible assumption
    | exact Allows.mono (by decide) (Allows.refl _)
    | with_reducible exact Keeps.refl _
    | with_reducible apply Completes.next
    | with_reducible intro _
    | with_reducible apply KeepsOpt.some
    | with_reducible apply KeepsOpt.none
    | with_reducible apply KeepsOpt.map
    | with_reducible apply KeepsOpt.ite
    | with_reducible apply Ins.done_keeps
    | with_reducible apply Ins.fault_keeps
    | with_reducible apply State.issue_keeps
    | with_reducible apply Ins.put_keeps
    | with_reducible apply Keeps.ite
    | with_reducible apply Completes.ite
    | refine Keeps.snd ?_ (by assumption)
    | refine Keeps.snd2 ?_ (by assumption)
    | (lift_lets; intro x; clear_value x)
    | with_reducible apply hx
    | split

theorem execSt_completes (e : Nat) (n : Nat) (slot : Nat) (busy : Nat) (ecc : Nat) (s : State) :
    Completes [.regs, .out, .free, .trigs, .frames, .ports, .flt, .trunks, .node, .pipes, .gload, .cls, .wheel, .emem, .funcs, .qps, .mem, .dmas] s (execSt e n slot busy ecc s) := by
  unfold execSt
  repeat' first
    | with_reducible assumption
    | exact Allows.mono (by decide) (Allows.refl _)
    | with_reducible exact Keeps.refl _
    | with_reducible apply Completes.next
    | with_reducible intro _
    | with_reducible apply KeepsOpt.some
    | with_reducible apply KeepsOpt.none
    | with_reducible apply KeepsOpt.map
    | with_reducible apply KeepsOpt.ite
    | with_reducible apply Ins.done_keeps
    | with_reducible apply State.eput_keeps
    | with_reducible apply Ins.fault_keeps
    | with_reducible apply State.issue_keeps
    | with_reducible apply Keeps.ite
    | with_reducible apply Completes.ite
    | refine Keeps.snd ?_ (by assumption)
    | refine Keeps.snd2 ?_ (by assumption)
    | (lift_lets; intro x; clear_value x)
    | with_reducible apply hx
    | split

theorem execFld_completes (e : Nat) (n : Nat) (slot : Nat) (busy : Nat) (ecc : Nat) (s : State) :
    Completes [.regs, .out, .free, .trigs, .frames, .ports, .flt, .trunks, .node, .pipes, .gload, .cls, .threads, .wheel, .emem, .funcs, .qps, .mem, .dmas] s (execFld e n slot busy ecc s) := by
  unfold execFld
  repeat' first
    | with_reducible assumption
    | exact Allows.mono (by decide) (Allows.refl _)
    | with_reducible exact Keeps.refl _
    | with_reducible apply Completes.next
    | with_reducible intro _
    | with_reducible apply KeepsOpt.some
    | with_reducible apply KeepsOpt.none
    | with_reducible apply KeepsOpt.map
    | with_reducible apply KeepsOpt.ite
    | with_reducible apply State.denyFrame_keeps
    | with_reducible apply Ins.done_keeps
    | with_reducible apply Ins.fault_keeps
    | with_reducible apply State.issue_keeps
    | with_reducible apply Ins.put_keeps
    | with_reducible apply State.setV_keeps
    | with_reducible apply Keeps.ite
    | with_reducible apply Completes.ite
    | refine Keeps.snd ?_ (by assumption)
    | refine Keeps.snd2 ?_ (by assumption)
    | (lift_lets; intro x; clear_value x)
    | with_reducible apply hx
    | split

theorem execFst_completes (e : Nat) (n : Nat) (slot : Nat) (busy : Nat) (ecc : Nat) (s : State) :
    Completes [.regs, .out, .free, .trigs, .frames, .ports, .flt, .trunks, .node, .pipes, .gload, .cls, .threads, .wheel, .emem, .funcs, .qps, .mem, .dmas] s (execFst e n slot busy ecc s) := by
  unfold execFst
  repeat' first
    | with_reducible assumption
    | exact Allows.mono (by decide) (Allows.refl _)
    | with_reducible exact Keeps.refl _
    | with_reducible apply Completes.next
    | with_reducible intro _
    | with_reducible apply KeepsOpt.some
    | with_reducible apply KeepsOpt.none
    | with_reducible apply KeepsOpt.map
    | with_reducible apply KeepsOpt.ite
    | with_reducible apply State.denyFrame_keeps
    | with_reducible apply Ins.done_keeps
    | with_reducible apply Ins.fault_keeps
    | with_reducible apply forEach_keeps
    | with_reducible apply State.issue_keeps
    | with_reducible apply State.setV_keeps
    | with_reducible apply State.storeFrame_keeps
    | with_reducible apply Keeps.forEach
    | with_reducible apply Keeps.ite
    | with_reducible apply Completes.ite
    | refine Keeps.snd ?_ (by assumption)
    | refine Keeps.snd2 ?_ (by assumption)
    | (lift_lets; intro x; clear_value x)
    | with_reducible apply hx
    | split

theorem execFrmTake_completes (e : Nat) (n : Nat) (slot : Nat) (busy : Nat) (ecc : Nat) (s : State) :
    Completes [.regs, .out, .free, .trigs, .frames, .ports, .flt, .trunks, .node, .pipes, .gload, .cls, .threads, .wheel, .emem, .funcs, .qps, .mem, .dmas] s (execFrmTake e n slot busy ecc s) := by
  unfold execFrmTake
  repeat' first
    | with_reducible assumption
    | exact Allows.mono (by decide) (Allows.refl _)
    | with_reducible exact Keeps.refl _
    | with_reducible apply Completes.next
    | with_reducible intro _
    | with_reducible apply KeepsOpt.some
    | with_reducible apply KeepsOpt.none
    | with_reducible apply KeepsOpt.map
    | with_reducible apply KeepsOpt.ite
    | with_reducible apply Ins.done_keeps
    | with_reducible apply State.eput_keeps
    | with_reducible apply Ins.fault_keeps
    | with_reducible apply State.fillRoom_keeps
    | with_reducible apply forEach_keeps
    | with_reducible apply State.fset_keeps
    | with_reducible apply State.fsets_keeps
    | with_reducible apply State.issue_keeps
    | with_reducible apply Ins.put_keeps
    | with_reducible apply State.setThr_keeps
    | with_reducible apply State.setZ_keeps
    | with_reducible apply Keeps.forEach
    | with_reducible apply Keeps.ite
    | with_reducible apply Completes.ite
    | refine Keeps.snd ?_ (by assumption)
    | refine Keeps.snd2 ?_ (by assumption)
    | with_reducible apply hx
    | split

theorem execFrmDisp_completes (e : Nat) (n : Nat) (slot : Nat) (busy : Nat) (ecc : Nat) (s : State) :
    Completes [.regs, .out, .free, .trigs, .frames, .ports, .flt, .trunks, .node, .pipes, .gload, .cls, .ems, .threads, .wheel, .emem, .funcs, .qps, .mem, .dmas] s (execFrmDisp e n slot busy ecc s) := by
  unfold execFrmDisp
  repeat' first
    | with_reducible assumption
    | exact Allows.mono (by decide) (Allows.refl _)
    | with_reducible exact Keeps.refl _
    | with_reducible apply Completes.next
    | with_reducible intro _
    | with_reducible apply KeepsOpt.some
    | with_reducible apply KeepsOpt.none
    | with_reducible apply KeepsOpt.map
    | with_reducible apply KeepsOpt.ite
    | with_reducible apply State.dispose_keeps
    | with_reducible apply Ins.done_keeps
    | with_reducible apply Ins.fault_keeps
    | with_reducible apply State.issue_keeps
    | with_reducible apply State.setThr_keeps
    | with_reducible apply State.setV_keeps
    | with_reducible apply State.tidy_keeps
    | with_reducible apply State.unbind_keeps
    | with_reducible apply State.voidFrame_keeps
    | with_reducible apply Keeps.ite
    | with_reducible apply Completes.ite
    | refine Keeps.snd ?_ (by assumption)
    | refine Keeps.snd2 ?_ (by assumption)
    | (lift_lets; intro x; clear_value x)
    | with_reducible apply hx
    | split

theorem execFrmFree_completes (e : Nat) (n : Nat) (slot : Nat) (busy : Nat) (ecc : Nat) (s : State) :
    Completes [.regs, .out, .free, .trigs, .frames, .ports, .flt, .trunks, .node, .pipes, .gload, .cls, .ems, .threads, .wheel, .emem, .funcs, .qps, .mem, .dmas] s (execFrmFree e n slot busy ecc s) := by
  unfold execFrmFree
  repeat' first
    | with_reducible assumption
    | exact Allows.mono (by decide) (Allows.refl _)
    | with_reducible exact Keeps.refl _
    | with_reducible apply Completes.next
    | with_reducible intro _
    | with_reducible apply KeepsOpt.some
    | with_reducible apply KeepsOpt.none
    | with_reducible apply KeepsOpt.map
    | with_reducible apply KeepsOpt.ite
    | with_reducible apply State.dispose_keeps
    | with_reducible apply Ins.done_keeps
    | with_reducible apply Ins.fault_keeps
    | with_reducible apply State.issue_keeps
    | with_reducible apply State.tidy_keeps
    | with_reducible apply State.unbind_keeps
    | with_reducible apply State.voidFrame_keeps
    | with_reducible apply Keeps.ite
    | with_reducible apply Completes.ite
    | refine Keeps.snd ?_ (by assumption)
    | refine Keeps.snd2 ?_ (by assumption)
    | (lift_lets; intro x; clear_value x)
    | with_reducible apply hx
    | split

theorem execFrmTrigArm_completes (e : Nat) (n : Nat) (slot : Nat) (busy : Nat) (ecc : Nat) (s : State) :
    Completes [.regs, .out, .free, .trigs, .frames, .ports, .flt, .trunks, .node, .pipes, .gload, .cls, .threads, .wheel, .emem, .funcs, .qps, .mem, .dmas] s (execFrmTrigArm e n slot busy ecc s) := by
  unfold execFrmTrigArm
  repeat' first
    | with_reducible assumption
    | exact Allows.mono (by decide) (Allows.refl _)
    | with_reducible exact Keeps.refl _
    | with_reducible apply Completes.next
    | with_reducible intro _
    | with_reducible apply KeepsOpt.some
    | with_reducible apply KeepsOpt.none
    | with_reducible apply KeepsOpt.map
    | with_reducible apply KeepsOpt.ite
    | with_reducible apply Ins.done_keeps
    | with_reducible apply Ins.fault_keeps
    | with_reducible apply State.fset_keeps
    | with_reducible apply State.issue_keeps
    | with_reducible apply State.setThr_keeps

theorem execFrmTrigDisarm_completes (e : Nat) (n : Nat) (slot : Nat) (busy : Nat) (ecc : Nat) (s : State) :
    Completes [.regs, .out, .free, .trigs, .frames, .ports, .flt, .trunks, .node, .pipes, .gload, .cls, .threads, .wheel, .emem, .funcs, .qps, .mem, .dmas] s (execFrmTrigDisarm e n slot busy ecc s) := by
  unfold execFrmTrigDisarm
  repeat' first
    | with_reducible assumption
    | exact Allows.mono (by decide) (Allows.refl _)
    | with_reducible exact Keeps.refl _
    | with_reducible apply Completes.next
    | with_reducible intro _
    | with_reducible apply KeepsOpt.some
    | with_reducible apply KeepsOpt.none
    | with_reducible apply KeepsOpt.map
    | with_reducible apply KeepsOpt.ite
    | with_reducible apply Ins.done_keeps
    | with_reducible apply Ins.fault_keeps
    | with_reducible apply State.issue_keeps
    | with_reducible apply State.setThr_keeps

theorem execFrmFinfo_completes (e : Nat) (n : Nat) (slot : Nat) (busy : Nat) (ecc : Nat) (s : State) :
    Completes [.regs, .out, .free, .trigs, .frames, .ports, .flt, .trunks, .node, .pipes, .gload, .cls, .wheel, .emem, .funcs, .qps, .mem, .dmas] s (execFrmFinfo e n slot busy ecc s) := by
  unfold execFrmFinfo
  repeat' first
    | with_reducible assumption
    | exact Allows.mono (by decide) (Allows.refl _)
    | with_reducible exact Keeps.refl _
    | with_reducible apply Completes.next
    | with_reducible intro _
    | with_reducible apply KeepsOpt.some
    | with_reducible apply KeepsOpt.none
    | with_reducible apply KeepsOpt.map
    | with_reducible apply KeepsOpt.ite
    | with_reducible apply Ins.done_keeps
    | with_reducible apply Ins.fault_keeps
    | with_reducible apply State.issue_keeps
    | with_reducible apply Ins.put_keeps
    | refine Keeps.snd ?_ (by assumption)
    | refine Keeps.snd2 ?_ (by assumption)
    | split

theorem execSpl_completes (e : Nat) (n : Nat) (slot : Nat) (busy : Nat) (ecc : Nat) (s : State) :
    Completes [.regs, .out, .free, .trigs, .frames, .ports, .flt, .trunks, .node, .pipes, .gload, .cls, .wheel, .emem, .splices, .funcs, .qps, .mem, .dmas] s (execSpl e n slot busy ecc s) := by
  unfold execSpl
  repeat' first
    | with_reducible assumption
    | exact Allows.mono (by decide) (Allows.refl _)
    | with_reducible exact Keeps.refl _
    | with_reducible apply Completes.next
    | with_reducible intro _
    | with_reducible apply KeepsOpt.some
    | with_reducible apply KeepsOpt.none
    | with_reducible apply KeepsOpt.map
    | with_reducible apply KeepsOpt.ite
    | with_reducible apply State.ceCnt_keeps
    | with_reducible apply Ins.done_keeps
    | with_reducible apply State.eput_keeps
    | with_reducible apply Ins.fault_keeps
    | with_reducible apply State.issue_keeps
    | with_reducible apply State.setSplices_keeps
    | with_reducible apply Keeps.ite
    | with_reducible apply Completes.ite
    | refine Keeps.snd ?_ (by assumption)
    | refine Keeps.snd2 ?_ (by assumption)
    | (lift_lets; intro x; clear_value x)
    | with_reducible apply hx
    | split

theorem execMfs_completes (e : Nat) (n : Nat) (slot : Nat) (busy : Nat) (ecc : Nat) (s : State) :
    Completes [.regs, .out, .free, .trigs, .frames, .ports, .flt, .trunks, .node, .pipes, .gload, .cls, .wheel, .emem, .funcs, .qps, .mem, .dmas] s (execMfs e n slot busy ecc s) := by
  unfold execMfs
  repeat' first
    | with_reducible assumption
    | exact Allows.mono (by decide) (Allows.refl _)
    | with_reducible exact Keeps.refl _
    | with_reducible apply Completes.next
    | with_reducible intro _
    | with_reducible apply KeepsOpt.some
    | with_reducible apply KeepsOpt.none
    | with_reducible apply KeepsOpt.map
    | with_reducible apply KeepsOpt.ite
    | with_reducible apply Ins.done_keeps
    | with_reducible apply State.issue_keeps
    | with_reducible apply Ins.put_keeps

theorem execMts_completes (e : Nat) (n : Nat) (slot : Nat) (busy : Nat) (ecc : Nat) (s : State) :
    Completes [.regs, .out, .free, .trigs, .frames, .ports, .flt, .trunks, .node, .pipes, .gload, .cls, .threads, .wheel, .emem, .funcs, .qps, .mem, .dmas] s (execMts e n slot busy ecc s) := by
  unfold execMts
  repeat' first
    | with_reducible assumption
    | exact Allows.mono (by decide) (Allows.refl _)
    | with_reducible exact Keeps.refl _
    | with_reducible apply Completes.next
    | with_reducible intro _
    | with_reducible apply KeepsOpt.some
    | with_reducible apply KeepsOpt.none
    | with_reducible apply KeepsOpt.map
    | with_reducible apply KeepsOpt.ite
    | with_reducible apply Ins.done_keeps
    | with_reducible apply State.issue_keeps
    | with_reducible apply State.setCc_keeps
    | with_reducible apply State.setThr_keeps
    | with_reducible apply State.setTimer_keeps
    | refine Keeps.snd ?_ (by assumption)
    | refine Keeps.snd2 ?_ (by assumption)
    | (lift_lets; intro x; clear_value x)
    | with_reducible apply hx
    | split

theorem execWait_completes (e : Nat) (n : Nat) (slot : Nat) (busy : Nat) (ecc : Nat) (s : State) :
    Completes [.regs, .out, .free, .trigs, .frames, .ports, .flt, .trunks, .node, .pipes, .gload, .cls, .threads, .wheel, .emem, .funcs, .qps, .mem, .dmas] s (execWait e n slot busy ecc s) := by
  unfold execWait
  repeat' first
    | with_reducible assumption
    | exact Allows.mono (by decide) (Allows.refl _)
    | with_reducible exact Keeps.refl _
    | with_reducible apply Completes.next
    | with_reducible intro _
    | with_reducible apply KeepsOpt.some
    | with_reducible apply KeepsOpt.none
    | with_reducible apply KeepsOpt.map
    | with_reducible apply KeepsOpt.ite
    | with_reducible apply Ins.done_keeps
    | with_reducible apply State.issue_keeps
    | with_reducible apply State.setThr_keeps
    | with_reducible apply State.setThrState_keeps
    | with_reducible apply State.waitDone_keeps

theorem execSig_completes (e : Nat) (n : Nat) (slot : Nat) (busy : Nat) (ecc : Nat) (s : State) :
    Completes [.regs, .out, .free, .trigs, .frames, .ports, .flt, .trunks, .node, .pipes, .gload, .cls, .threads, .wheel, .emem, .funcs, .qps, .mem, .dmas] s (execSig e n slot busy ecc s) := by
  unfold execSig
  repeat' first
    | with_reducible assumption
    | exact Allows.mono (by decide) (Allows.refl _)
    | with_reducible exact Keeps.refl _
    | with_reducible apply Completes.next
    | with_reducible intro _
    | with_reducible apply KeepsOpt.some
    | with_reducible apply KeepsOpt.none
    | with_reducible apply KeepsOpt.map
    | with_reducible apply KeepsOpt.ite
    | with_reducible apply Ins.done_keeps
    | with_reducible apply State.issue_keeps
    | with_reducible apply State.postEvt_keeps
    | with_reducible apply State.setV_keeps

theorem execTime_completes (e : Nat) (n : Nat) (slot : Nat) (busy : Nat) (ecc : Nat) (s : State) :
    Completes [.regs, .out, .free, .trigs, .frames, .ports, .flt, .trunks, .node, .pipes, .gload, .cls, .wheel, .emem, .funcs, .qps, .mem, .dmas] s (execTime e n slot busy ecc s) := by
  unfold execTime
  repeat' first
    | with_reducible assumption
    | exact Allows.mono (by decide) (Allows.refl _)
    | with_reducible exact Keeps.refl _
    | with_reducible apply Completes.next
    | with_reducible intro _
    | with_reducible apply KeepsOpt.some
    | with_reducible apply KeepsOpt.none
    | with_reducible apply KeepsOpt.map
    | with_reducible apply KeepsOpt.ite
    | with_reducible apply Ins.done_keeps
    | with_reducible apply State.issue_keeps
    | with_reducible apply State.setGreg_keeps

theorem execAmoSwap_completes (e : Nat) (n : Nat) (slot : Nat) (busy : Nat) (ecc : Nat) (s : State) :
    Completes [.regs, .out, .free, .trigs, .frames, .ports, .flt, .trunks, .node, .pipes, .gload, .cls, .wheel, .emem, .funcs, .qps, .mem, .dmas] s (execAmoSwap e n slot busy ecc s) := by
  unfold execAmoSwap
  repeat' first
    | with_reducible assumption
    | exact Allows.mono (by decide) (Allows.refl _)
    | with_reducible exact Keeps.refl _
    | with_reducible apply Completes.next
    | with_reducible intro _
    | with_reducible apply KeepsOpt.some
    | with_reducible apply KeepsOpt.none
    | with_reducible apply KeepsOpt.map
    | with_reducible apply KeepsOpt.ite
    | with_reducible apply amoExec_keeps
    | with_reducible apply State.issue_keeps

theorem execAmoAdd_completes (e : Nat) (n : Nat) (slot : Nat) (busy : Nat) (ecc : Nat) (s : State) :
    Completes [.regs, .out, .free, .trigs, .frames, .ports, .flt, .trunks, .node, .pipes, .gload, .cls, .wheel, .emem, .funcs, .qps, .mem, .dmas] s (execAmoAdd e n slot busy ecc s) := by
  unfold execAmoAdd
  repeat' first
    | with_reducible assumption
    | exact Allows.mono (by decide) (Allows.refl _)
    | with_reducible exact Keeps.refl _
    | with_reducible apply Completes.next
    | with_reducible intro _
    | with_reducible apply KeepsOpt.some
    | with_reducible apply KeepsOpt.none
    | with_reducible apply KeepsOpt.map
    | with_reducible apply KeepsOpt.ite
    | with_reducible apply amoExec_keeps
    | with_reducible apply State.issue_keeps

theorem execAmoAnd_completes (e : Nat) (n : Nat) (slot : Nat) (busy : Nat) (ecc : Nat) (s : State) :
    Completes [.regs, .out, .free, .trigs, .frames, .ports, .flt, .trunks, .node, .pipes, .gload, .cls, .wheel, .emem, .funcs, .qps, .mem, .dmas] s (execAmoAnd e n slot busy ecc s) := by
  unfold execAmoAnd
  repeat' first
    | with_reducible assumption
    | exact Allows.mono (by decide) (Allows.refl _)
    | with_reducible exact Keeps.refl _
    | with_reducible apply Completes.next
    | with_reducible intro _
    | with_reducible apply KeepsOpt.some
    | with_reducible apply KeepsOpt.none
    | with_reducible apply KeepsOpt.map
    | with_reducible apply KeepsOpt.ite
    | with_reducible apply amoExec_keeps
    | with_reducible apply State.issue_keeps

theorem execAmoOr_completes (e : Nat) (n : Nat) (slot : Nat) (busy : Nat) (ecc : Nat) (s : State) :
    Completes [.regs, .out, .free, .trigs, .frames, .ports, .flt, .trunks, .node, .pipes, .gload, .cls, .wheel, .emem, .funcs, .qps, .mem, .dmas] s (execAmoOr e n slot busy ecc s) := by
  unfold execAmoOr
  repeat' first
    | with_reducible assumption
    | exact Allows.mono (by decide) (Allows.refl _)
    | with_reducible exact Keeps.refl _
    | with_reducible apply Completes.next
    | with_reducible intro _
    | with_reducible apply KeepsOpt.some
    | with_reducible apply KeepsOpt.none
    | with_reducible apply KeepsOpt.map
    | with_reducible apply KeepsOpt.ite
    | with_reducible apply amoExec_keeps
    | with_reducible apply State.issue_keeps

theorem execAmoXor_completes (e : Nat) (n : Nat) (slot : Nat) (busy : Nat) (ecc : Nat) (s : State) :
    Completes [.regs, .out, .free, .trigs, .frames, .ports, .flt, .trunks, .node, .pipes, .gload, .cls, .wheel, .emem, .funcs, .qps, .mem, .dmas] s (execAmoXor e n slot busy ecc s) := by
  unfold execAmoXor
  repeat' first
    | with_reducible assumption
    | exact Allows.mono (by decide) (Allows.refl _)
    | with_reducible exact Keeps.refl _
    | with_reducible apply Completes.next
    | with_reducible intro _
    | with_reducible apply KeepsOpt.some
    | with_reducible apply KeepsOpt.none
    | with_reducible apply KeepsOpt.map
    | with_reducible apply KeepsOpt.ite
    | with_reducible apply amoExec_keeps
    | with_reducible apply State.issue_keeps

theorem execAmoCas_completes (e : Nat) (n : Nat) (slot : Nat) (busy : Nat) (ecc : Nat) (s : State) :
    Completes [.regs, .out, .free, .trigs, .frames, .ports, .flt, .trunks, .node, .pipes, .gload, .cls, .wheel, .emem, .funcs, .qps, .mem, .dmas] s (execAmoCas e n slot busy ecc s) := by
  unfold execAmoCas
  repeat' first
    | with_reducible assumption
    | exact Allows.mono (by decide) (Allows.refl _)
    | with_reducible exact Keeps.refl _
    | with_reducible apply Completes.next
    | with_reducible intro _
    | with_reducible apply KeepsOpt.some
    | with_reducible apply KeepsOpt.none
    | with_reducible apply KeepsOpt.map
    | with_reducible apply KeepsOpt.ite
    | with_reducible apply amoExec_keeps
    | with_reducible apply State.issue_keeps

theorem execChkf_completes (e : Nat) (n : Nat) (slot : Nat) (busy : Nat) (ecc : Nat) (s : State) :
    Completes [.regs, .out, .free, .trigs, .frames, .ports, .flt, .trunks, .node, .pipes, .gload, .cls, .threads, .wheel, .emem, .funcs, .qps, .mem, .chks, .dmas] s (execChkf e n slot busy ecc s) := by
  unfold execChkf
  repeat' first
    | with_reducible assumption
    | exact Allows.mono (by decide) (Allows.refl _)
    | with_reducible exact Keeps.refl _
    | with_reducible apply Completes.next
    | with_reducible intro _
    | with_reducible apply KeepsOpt.some
    | with_reducible apply KeepsOpt.none
    | with_reducible apply KeepsOpt.map
    | with_reducible apply KeepsOpt.ite
    | with_reducible apply Ins.done_keeps
    | with_reducible apply State.issue_keeps
    | with_reducible apply State.setV_keeps
    | refine Keeps.snd ?_ (by assumption)
    | refine Keeps.snd2 ?_ (by assumption)
    | exact State.chkFeed_keeps (by assumption) (by assumption) (Allows.mono (by decide) (Allows.refl _))
    | split

theorem execThcTpc_completes (e : Nat) (n : Nat) (slot : Nat) (busy : Nat) (ecc : Nat) (s : State) :
    Completes [.regs, .out, .free, .trigs, .frames, .ports, .flt, .trunks, .node, .pipes, .gload, .cls, .threads, .wheel, .emem, .funcs, .qps, .mem, .dmas] s (execThcTpc e n slot busy ecc s) := by
  unfold execThcTpc
  repeat' first
    | with_reducible assumption
    | exact Allows.mono (by decide) (Allows.refl _)
    | with_reducible exact Keeps.refl _
    | with_reducible apply Completes.next
    | with_reducible intro _
    | with_reducible apply KeepsOpt.some
    | with_reducible apply KeepsOpt.none
    | with_reducible apply KeepsOpt.map
    | with_reducible apply KeepsOpt.ite
    | with_reducible apply State.fset_keeps
    | with_reducible apply State.issue_keeps
    | with_reducible apply thcSet_keeps

theorem execThcTslc_completes (e : Nat) (n : Nat) (slot : Nat) (busy : Nat) (ecc : Nat) (s : State) :
    Completes [.regs, .out, .free, .trigs, .frames, .ports, .flt, .trunks, .node, .pipes, .gload, .cls, .threads, .wheel, .emem, .funcs, .qps, .mem, .dmas] s (execThcTslc e n slot busy ecc s) := by
  unfold execThcTslc
  repeat' first
    | with_reducible assumption
    | exact Allows.mono (by decide) (Allows.refl _)
    | with_reducible exact Keeps.refl _
    | with_reducible apply Completes.next
    | with_reducible intro _
    | with_reducible apply KeepsOpt.some
    | with_reducible apply KeepsOpt.none
    | with_reducible apply KeepsOpt.map
    | with_reducible apply KeepsOpt.ite
    | with_reducible apply State.fsets_keeps
    | with_reducible apply State.issue_keeps
    | with_reducible apply thcSet_keeps

theorem execThcTgw_completes (e : Nat) (n : Nat) (slot : Nat) (busy : Nat) (ecc : Nat) (s : State) :
    Completes [.regs, .out, .free, .trigs, .frames, .ports, .flt, .trunks, .node, .pipes, .gload, .cls, .threads, .wheel, .emem, .funcs, .qps, .mem, .dmas] s (execThcTgw e n slot busy ecc s) := by
  unfold execThcTgw
  repeat' first
    | with_reducible assumption
    | exact Allows.mono (by decide) (Allows.refl _)
    | with_reducible exact Keeps.refl _
    | with_reducible apply Completes.next
    | with_reducible intro _
    | with_reducible apply KeepsOpt.some
    | with_reducible apply KeepsOpt.none
    | with_reducible apply KeepsOpt.map
    | with_reducible apply KeepsOpt.ite
    | with_reducible apply State.issue_keeps
    | with_reducible apply State.setGreg_keeps
    | with_reducible apply thcSet_keeps

theorem execThcTgr_completes (e : Nat) (n : Nat) (slot : Nat) (busy : Nat) (ecc : Nat) (s : State) :
    Completes [.regs, .out, .free, .trigs, .frames, .ports, .flt, .trunks, .node, .pipes, .gload, .cls, .threads, .wheel, .emem, .funcs, .qps, .mem, .dmas] s (execThcTgr e n slot busy ecc s) := by
  unfold execThcTgr
  repeat' first
    | with_reducible assumption
    | exact Allows.mono (by decide) (Allows.refl _)
    | with_reducible exact Keeps.refl _
    | with_reducible apply Completes.next
    | with_reducible intro _
    | with_reducible apply KeepsOpt.some
    | with_reducible apply KeepsOpt.none
    | with_reducible apply KeepsOpt.map
    | with_reducible apply KeepsOpt.ite
    | with_reducible apply Ins.done_keeps
    | with_reducible apply State.issue_keeps
    | with_reducible apply Ins.put_keeps
    | with_reducible apply State.setV_keeps
    | with_reducible apply thcExec_keeps

theorem execThcTrel_completes (e : Nat) (n : Nat) (slot : Nat) (busy : Nat) (ecc : Nat) (met : Nat) (s : State) :
    Completes [.regs, .out, .free, .trigs, .frames, .ports, .flt, .trunks, .node, .pipes, .gload, .cls, .threads, .wheel, .emem, .funcs, .qps, .mem, .dmas] s (execThcTrel e n slot busy ecc s met) := by
  unfold execThcTrel
  repeat' first
    | with_reducible assumption
    | exact Allows.mono (by decide) (Allows.refl _)
    | with_reducible exact Keeps.refl _
    | with_reducible apply Completes.next
    | with_reducible intro _
    | with_reducible apply KeepsOpt.some
    | with_reducible apply KeepsOpt.none
    | with_reducible apply KeepsOpt.map
    | with_reducible apply KeepsOpt.ite
    | with_reducible apply State.ctlThread_keeps
    | with_reducible apply Ins.done_keeps
    | with_reducible apply forEach_keeps
    | with_reducible apply State.issue_keeps
    | with_reducible apply State.setV_keeps
    | with_reducible apply thcExec_keeps
    | with_reducible apply Keeps.forEach

theorem execThcThlt_completes (e : Nat) (n : Nat) (slot : Nat) (busy : Nat) (ecc : Nat) (s : State) :
    Completes [.regs, .out, .free, .trigs, .frames, .ports, .flt, .trunks, .node, .pipes, .gload, .cls, .threads, .wheel, .emem, .funcs, .qps, .mem, .dmas] s (execThcThlt e n slot busy ecc s) := by
  unfold execThcThlt
  repeat' first
    | with_reducible assumption
    | exact Allows.mono (by decide) (Allows.refl _)
    | with_reducible exact Keeps.refl _
    | with_reducible apply Completes.next
    | with_reducible intro _
    | with_reducible apply KeepsOpt.some
    | with_reducible apply KeepsOpt.none
    | with_reducible apply KeepsOpt.map
    | with_reducible apply KeepsOpt.ite
    | with_reducible apply Ins.done_keeps
    | with_reducible apply forEach_keeps
    | with_reducible apply State.haltThread_keeps
    | with_reducible apply State.issue_keeps
    | with_reducible apply State.setV_keeps
    | with_reducible apply thcExec_keeps
    | with_reducible apply Keeps.forEach

theorem execThcTst_completes (e : Nat) (n : Nat) (slot : Nat) (busy : Nat) (ecc : Nat) (s : State) :
    Completes [.regs, .out, .free, .trigs, .frames, .ports, .flt, .trunks, .node, .pipes, .gload, .cls, .threads, .wheel, .emem, .funcs, .qps, .mem, .dmas] s (execThcTst e n slot busy ecc s) := by
  unfold execThcTst
  repeat' first
    | with_reducible assumption
    | exact Allows.mono (by decide) (Allows.refl _)
    | with_reducible exact Keeps.refl _
    | with_reducible apply Completes.next
    | with_reducible intro _
    | with_reducible apply KeepsOpt.some
    | with_reducible apply KeepsOpt.none
    | with_reducible apply KeepsOpt.map
    | with_reducible apply KeepsOpt.ite
    | with_reducible apply Ins.done_keeps
    | with_reducible apply State.issue_keeps
    | with_reducible apply Ins.put_keeps
    | with_reducible apply State.setV_keeps
    | with_reducible apply thcExec_keeps

theorem execThreadRelease_completes (fn : Nat) (e : Nat) (n : Nat) (data : Word) (met : Bool) (s : State) :
    Completes (byFn fn [.regs, .slv]) s (execThreadRelease fn e n data s met) := by
  unfold execThreadRelease State.thrCtlWrite
  repeat' first
    | with_reducible assumption
    | exact Allows.mono (by decide) (Allows.refl _)
    | with_reducible exact Keeps.refl _
    | with_reducible apply Completes.access
    | with_reducible apply Completes.next
    | with_reducible intro _
    | with_reducible apply State.ctlThread_keeps

theorem execThreadHalt_completes (fn : Nat) (e : Nat) (n : Nat) (data : Word) (s : State) :
    Completes (byFn fn [.regs, .slv]) s (execThreadHalt fn e n data s) := by
  unfold execThreadHalt State.thrCtlWrite
  repeat' first
    | with_reducible assumption
    | exact Allows.mono (by decide) (Allows.refl _)
    | with_reducible exact Keeps.refl _
    | with_reducible apply Completes.access
    | with_reducible apply Completes.next
    | with_reducible intro _
    | with_reducible apply State.ctlThread_keeps

theorem execRunSet_completes (fn : Nat) (e : Nat) (data : Word) (met : Nat) (s : State) :
    Completes (byFn fn [.regs, .stage, .slv]) s (execRunSet fn e data s met) := by
  unfold execRunSet
  repeat' first
    | with_reducible assumption
    | exact Allows.mono (by decide) (Allows.refl _)
    | with_reducible exact Keeps.refl _
    | with_reducible apply Completes.access
    | with_reducible apply Completes.next
    | with_reducible intro _
    | with_reducible apply State.ceCtlWrite_keeps

theorem execRunClear_completes (fn : Nat) (e : Nat) (data : Word) (s : State) :
    Completes (byFn fn [.regs, .stage, .slv]) s (execRunClear fn e data s) := by
  unfold execRunClear
  repeat' first
    | with_reducible assumption
    | exact Allows.mono (by decide) (Allows.refl _)
    | with_reducible exact Keeps.refl _
    | with_reducible apply Completes.access
    | with_reducible apply Completes.next
    | with_reducible intro _
    | with_reducible apply State.ceCtlWrite_keeps

theorem execEventWaitComplete_completes (e : Nat) (n : Nat) (s : State) :
    Completes [.regs] s (execEventWaitComplete e n s) := by
  unfold execEventWaitComplete
  repeat' first
    | with_reducible assumption
    | exact Allows.mono (by decide) (Allows.refl _)
    | with_reducible exact Keeps.refl _
    | with_reducible apply Completes.next
    | with_reducible apply State.setPc_keeps
    | with_reducible apply State.setThrState_keeps
    | with_reducible apply State.waitDone_keeps
    | with_reducible apply Keeps.ite
    | with_reducible apply Completes.ite

theorem execThreadTimerExpiry_completes (e : Nat) (n : Nat) (s : State) :
    Completes [.regs] s (execThreadTimerExpiry e n s) := by
  unfold execThreadTimerExpiry
  repeat' first
    | with_reducible assumption
    | exact Allows.mono (by decide) (Allows.refl _)
    | with_reducible exact Keeps.refl _
    | with_reducible apply Completes.next
    | with_reducible apply State.postEvt_keeps
    | with_reducible apply State.setTimer_keeps
    | with_reducible apply Keeps.ite
    | with_reducible apply Completes.ite

theorem execHostEvent_completes (fn : Nat) (e : Nat) (n : Nat) (s : State) :
    Completes (byFn fn [.regs, .slv]) s (execHostEvent fn e n s) := by
  unfold execHostEvent
  repeat' first
    | with_reducible assumption
    | exact Allows.mono (by decide) (Allows.refl _)
    | with_reducible exact Keeps.refl _
    | with_reducible apply Completes.access
    | with_reducible apply Completes.next
    | with_reducible intro _
    | with_reducible apply State.postEvt_keeps

theorem execSpliceFetchDone_completes (s : State) :
    Completes [.regs, .frames, .ports, .emem, .splices] s (execSpliceFetchDone s) := by
  unfold execSpliceFetchDone
  repeat' first
    | with_reducible assumption
    | exact Allows.mono (by decide) (Allows.refl _)
    | with_reducible exact Keeps.refl _
    | with_reducible apply Completes.next
    | with_reducible intro _
    | with_reducible apply State.copyStatus_keeps
    | with_reducible apply State.fset_keeps
    | with_reducible apply State.postThr_keeps
    | with_reducible apply State.raisePort_keeps
    | with_reducible apply State.setPort_keeps
    | with_reducible apply State.setSplices_keeps
    | with_reducible apply State.spliceBit_keeps
    | with_reducible apply State.spliceNote_keeps
    | with_reducible apply Keeps.foldl
    | with_reducible apply Keeps.foldl2
    | with_reducible apply Keeps.ite
    | with_reducible apply Completes.ite
    | refine Keeps.snd ?_ (by assumption)
    | refine Keeps.snd2 ?_ (by assumption)
    | with_reducible apply hx
    | split

theorem execDoorbellTx_completes (fn : Nat) (q : Nat) (data : Word) (s : State) :
    Completes [.regs, .slv, .out, .free, .trigs, .frames, .ports, .flt, .trunks, .node, .pipes, .gload, .cls, .emem, .funcs, .qps, .mem, .dmas] s (execDoorbellTx fn q data s) := by
  unfold execDoorbellTx
  repeat' first
    | with_reducible assumption
    | exact Allows.mono (by decide) (Allows.refl _)
    | with_reducible exact Keeps.refl _
    | with_reducible apply Completes.next
    | with_reducible intro _
    | with_reducible apply State.dbRing_keeps
    | with_reducible apply State.qAccess_keeps

theorem execDoorbellRx_completes (fn : Nat) (q : Nat) (data : Word) (s : State) :
    Completes [.regs, .slv, .out, .free, .trigs, .frames, .ports, .flt, .trunks, .node, .pipes, .gload, .cls, .emem, .funcs, .qps, .mem, .dmas] s (execDoorbellRx fn q data s) := by
  unfold execDoorbellRx
  repeat' first
    | with_reducible assumption
    | exact Allows.mono (by decide) (Allows.refl _)
    | with_reducible exact Keeps.refl _
    | with_reducible apply Completes.next
    | with_reducible intro _
    | with_reducible apply State.dbRing_keeps
    | with_reducible apply State.qAccess_keeps

theorem execDoorbellCq_completes (fn : Nat) (q : Nat) (data : Word) (s : State) :
    Completes [.regs, .slv, .out, .free, .trigs, .frames, .ports, .flt, .trunks, .node, .pipes, .gload, .cls, .emem, .funcs, .qps, .mem, .dmas] s (execDoorbellCq fn q data s) := by
  unfold execDoorbellCq
  repeat' first
    | with_reducible assumption
    | exact Allows.mono (by decide) (Allows.refl _)
    | with_reducible exact Keeps.refl _
    | with_reducible apply Completes.next
    | with_reducible intro _
    | with_reducible apply State.dbCq_keeps
    | with_reducible apply State.qAccess_keeps

theorem execPushSlotWrite_completes (fn : Nat) (q : Nat) (k : Nat) (w : Nat) (data : Word) (s : State) :
    Completes [.regs, .slv, .out, .free, .trigs, .frames, .ports, .flt, .trunks, .node, .pipes, .gload, .cls, .emem, .funcs, .qps, .mem, .dmas] s (execPushSlotWrite fn q k w data s) := by
  unfold execPushSlotWrite
  repeat' first
    | with_reducible assumption
    | exact Allows.mono (by decide) (Allows.refl _)
    | with_reducible exact Keeps.refl _
    | with_reducible apply Completes.next
    | with_reducible intro _
    | with_reducible apply Ins.put_keeps
    | with_reducible apply State.qAccess_keeps
    | with_reducible apply State.setQp_keeps

theorem execDescriptorFetch_completes (q : Nat) (desc : List Byte) (err : Bool) (data : List Byte) (derr : Bool) (s : State) :
    Completes [.regs, .out, .free, .frames, .nextFrame, .ports, .cls, .ems, .threads, .emem, .funcs, .qps, .mem] s (execDescriptorFetch q desc err data derr s) := by
  unfold execDescriptorFetch
  repeat' first
    | with_reducible assumption
    | exact Allows.mono (by decide) (Allows.refl _)
    | with_reducible exact Keeps.refl _
    | with_reducible apply Completes.next
    | with_reducible intro _
    | with_reducible apply State.takeDesc_keeps
    | with_reducible apply Keeps.ite
    | with_reducible apply Completes.ite

theorem execRxDelivery_completes (q : Nat) (descs : List Byte) (err : Nat) (derr : Nat) (s : State) :
    Completes [.regs, .out, .free, .frames, .ports, .funcs, .qps, .mem] s (execRxDelivery q descs err s derr) := by
  unfold execRxDelivery
  repeat' first
    | with_reducible assumption
    | exact Allows.mono (by decide) (Allows.refl _)
    | with_reducible exact Keeps.refl _
    | with_reducible apply Completes.next
    | with_reducible intro _
    | with_reducible apply State.fillRx_keeps
    | with_reducible apply State.rxNext_keeps
    | with_reducible apply Keeps.ite
    | with_reducible apply Completes.ite
    | refine Keeps.snd ?_ (by assumption)
    | refine Keeps.snd2 ?_ (by assumption)
    | with_reducible apply hx
    | split

theorem execCompletionWrite_completes (q : Nat) (err : Bool) (s : State) :
    Completes [.regs, .out, .qps] s (execCompletionWrite q s err) := by
  unfold execCompletionWrite
  repeat' first
    | with_reducible assumption
    | exact Allows.mono (by decide) (Allows.refl _)
    | with_reducible exact Keeps.refl _
    | with_reducible apply Completes.next
    | with_reducible intro _
    | with_reducible apply State.emit_keeps
    | with_reducible apply State.qCnt_keeps
    | with_reducible apply State.raise_keeps
    | with_reducible apply State.setQp_keeps
    | with_reducible apply State.settleQp_keeps
    | with_reducible apply Keeps.ite
    | with_reducible apply Completes.ite
    | refine Keeps.snd ?_ (by assumption)
    | refine Keeps.snd2 ?_ (by assumption)
    | (lift_lets; intro x; clear_value x)
    | with_reducible apply hx
    | split
    | dsimp only

theorem execAdmin0Enable_completes (fn : Nat) (data : Word) (s : State) :
    Completes (byFn fn [.regs, .slv, .qps]) s (execAdmin0Enable fn data s) := by
  unfold execAdmin0Enable
  repeat' first
    | with_reducible assumption
    | exact Allows.mono (by decide) (Allows.refl _)
    | with_reducible exact Keeps.refl _
    | with_reducible apply Completes.access
    | with_reducible apply Completes.next
    | with_reducible intro _
    | with_reducible apply State.admin0Write_keeps

theorem execCreateFunction_completes (f : Nat) (cmd : List Byte) (err : Bool) (fails : Nat) (s : State) :
    Completes [.regs, .out, .free, .trigs, .frames, .ports, .flt, .trunks, .node, .pipes, .gload, .cls, .emem, .funcs, .qps, .admin, .mem, .dmas] s (execCreateFunction f cmd err fails s) := by
  unfold execCreateFunction
  repeat' first
    | with_reducible assumption
    | exact Allows.mono (by decide) (Allows.refl _)
    | with_reducible exact Keeps.refl _
    | with_reducible apply Completes.next
    | with_reducible intro _
    | with_reducible apply State.admin1_keeps
    | with_reducible apply State.createFunction_keeps

theorem execSetQuota_completes (f : Nat) (cmd : List Byte) (err : Bool) (s : State) :
    Completes [.regs, .out, .funcs, .qps, .admin] s (execSetQuota f cmd err s) := by
  unfold execSetQuota
  repeat' first
    | with_reducible assumption
    | exact Allows.mono (by decide) (Allows.refl _)
    | with_reducible exact Keeps.refl _
    | with_reducible apply Completes.next
    | with_reducible intro _
    | with_reducible apply State.admin1_keeps
    | with_reducible apply State.setQuota_keeps

theorem execCreateQueue_completes (f : Nat) (cmd : List Byte) (err : Bool) (s : State) :
    Completes [.regs, .out, .qps, .admin] s (execCreateQueue f cmd err s) := by
  unfold execCreateQueue
  repeat' first
    | with_reducible assumption
    | exact Allows.mono (by decide) (Allows.refl _)
    | with_reducible exact Keeps.refl _
    | with_reducible apply Completes.next
    | with_reducible intro _
    | with_reducible apply State.admin1_keeps
    | with_reducible apply State.createQueue_keeps

theorem execBindPort_completes (f : Nat) (cmd : List Byte) (err : Bool) (s : State) :
    Completes [.regs, .out, .qps, .admin] s (execBindPort f cmd err s) := by
  unfold execBindPort
  repeat' first
    | with_reducible assumption
    | exact Allows.mono (by decide) (Allows.refl _)
    | with_reducible exact Keeps.refl _
    | with_reducible apply Completes.next
    | with_reducible intro _
    | with_reducible apply State.admin1_keeps
    | with_reducible apply State.bindPort_keeps

theorem execBindClass_completes (f : Nat) (cmd : List Byte) (err : Bool) (s : State) :
    Completes [.regs, .out, .qps, .binds, .admin] s (execBindClass f cmd err s) := by
  unfold execBindClass
  repeat' first
    | with_reducible assumption
    | exact Allows.mono (by decide) (Allows.refl _)
    | with_reducible exact Keeps.refl _
    | with_reducible apply Completes.next
    | with_reducible intro _
    | with_reducible apply State.admin1_keeps
    | with_reducible apply State.bindClass_keeps

theorem execQuery_completes (f : Nat) (cmd : List Byte) (err : Bool) (s : State) :
    Completes [.regs, .out, .qps, .admin] s (execQuery f cmd err s) := by
  unfold execQuery
  repeat' first
    | with_reducible assumption
    | exact Allows.mono (by decide) (Allows.refl _)
    | with_reducible exact Keeps.refl _
    | with_reducible apply Completes.next
    | with_reducible intro _
    | with_reducible apply State.admin1_keeps
    | with_reducible apply State.query_keeps

theorem execAdminBadOpcode_completes (f : Nat) (cmd : List Byte) (err : Bool) (s : State) :
    Completes [.regs, .out, .qps, .admin] s (execAdminBadOpcode f cmd err s) := by
  unfold execAdminBadOpcode
  repeat' first
    | with_reducible assumption
    | exact Allows.mono (by decide) (Allows.refl _)
    | with_reducible exact Keeps.refl _
    | with_reducible apply Completes.next
    | with_reducible intro _
    | with_reducible apply State.admin1_keeps

theorem execDestroyQueue_completes (f : Nat) (cmd : List Byte) (err : Bool) (s : State) :
    Completes [.regs, .out, .frames, .ports, .emem, .qps, .admin, .mem] s (execDestroyQueue f cmd err s) := by
  unfold execDestroyQueue
  repeat' first
    | with_reducible assumption
    | exact Allows.mono (by decide) (Allows.refl _)
    | with_reducible exact Keeps.refl _
    | with_reducible apply Completes.next
    | with_reducible intro _
    | with_reducible apply State.admin1_keeps
    | with_reducible apply State.destroyQueue_keeps

theorem execDestroyFunction_completes (f : Nat) (cmd : List Byte) (err : Bool) (s : State) :
    Completes [.regs, .out, .frames, .ports, .emem, .funcs, .qps, .admin, .mem] s (execDestroyFunction f cmd err s) := by
  unfold execDestroyFunction
  repeat' first
    | with_reducible assumption
    | exact Allows.mono (by decide) (Allows.refl _)
    | with_reducible exact Keeps.refl _
    | with_reducible apply Completes.next
    | with_reducible intro _
    | with_reducible apply State.admin1_keeps
    | with_reducible apply State.destroyFunction_keeps

theorem execQueueDestroyComplete_completes (s : State) :
    Completes [.regs, .frames, .ports, .funcs, .qps, .binds, .admin, .mem] s (execQueueDestroyComplete s) := by
  unfold execQueueDestroyComplete
  repeat' first
    | with_reducible assumption
    | exact Allows.mono (by decide) (Allows.refl _)
    | with_reducible exact Keeps.refl _
    | with_reducible apply Completes.next
    | with_reducible intro _
    | with_reducible apply State.admDone_keeps
    | with_reducible apply forEach_keeps
    | with_reducible apply State.freeFnGrans_keeps
    | with_reducible apply State.freeQpNow_keeps
    | with_reducible apply State.fsets_keeps
    | with_reducible apply State.quotaCheck_keeps
    | with_reducible apply State.setAdmin_keeps
    | with_reducible apply State.setFunc_keeps
    | with_reducible apply State.tidy_keeps
    | with_reducible apply Keeps.forEach
    | with_reducible apply Keeps.ite
    | with_reducible apply Completes.ite
    | refine Keeps.snd ?_ (by assumption)
    | refine Keeps.snd2 ?_ (by assumption)
    | with_reducible apply hx
    | split

theorem execDmaStart_completes (fn : Nat) (n : Nat) (data : Word) (s : State) :
    Completes (byFn fn [.regs, .stage, .slv, .dmas]) s (execDmaStart fn n data s) := by
  unfold execDmaStart
  repeat' first
    | with_reducible assumption
    | exact Allows.mono (by decide) (Allows.refl _)
    | with_reducible exact Keeps.refl _
    | with_reducible apply Completes.access
    | with_reducible apply Completes.next
    | with_reducible intro _
    | with_reducible apply State.dmaCtlWrite_keeps

theorem execDmaPause_completes (fn : Nat) (n : Nat) (data : Word) (s : State) :
    Completes (byFn fn [.regs, .stage, .slv, .dmas]) s (execDmaPause fn n data s) := by
  unfold execDmaPause
  repeat' first
    | with_reducible assumption
    | exact Allows.mono (by decide) (Allows.refl _)
    | with_reducible exact Keeps.refl _
    | with_reducible apply Completes.access
    | with_reducible apply Completes.next
    | with_reducible intro _
    | with_reducible apply State.dmaCtlWrite_keeps

theorem execDmaResume_completes (fn : Nat) (n : Nat) (data : Word) (s : State) :
    Completes (byFn fn [.regs, .stage, .slv, .dmas]) s (execDmaResume fn n data s) := by
  unfold execDmaResume
  repeat' first
    | with_reducible assumption
    | exact Allows.mono (by decide) (Allows.refl _)
    | with_reducible exact Keeps.refl _
    | with_reducible apply Completes.access
    | with_reducible apply Completes.next
    | with_reducible intro _
    | with_reducible apply State.dmaCtlWrite_keeps

theorem execDmaAbort_completes (fn : Nat) (n : Nat) (data : Word) (s : State) :
    Completes (byFn fn [.regs, .stage, .slv, .dmas]) s (execDmaAbort fn n data s) := by
  unfold execDmaAbort
  repeat' first
    | with_reducible assumption
    | exact Allows.mono (by decide) (Allows.refl _)
    | with_reducible exact Keeps.refl _
    | with_reducible apply Completes.access
    | with_reducible apply Completes.next
    | with_reducible intro _
    | with_reducible apply State.dmaCtlWrite_keeps

theorem execDmaLastWriteIssued_completes (n : Nat) (data : List Byte) (s : State) :
    Completes [.regs, .out, .free, .emem, .dmas] s (execDmaLastWriteIssued n data s) := by
  unfold execDmaLastWriteIssued
  repeat' first
    | with_reducible assumption
    | exact Allows.mono (by decide) (Allows.refl _)
    | with_reducible exact Keeps.refl _
    | with_reducible apply Completes.next
    | with_reducible apply State.dmaComplete_keeps
    | with_reducible apply State.dmaMove_keeps
    | with_reducible apply Keeps.ite
    | with_reducible apply Completes.ite

theorem execDmaFenceDone_completes (n : Nat) (s : State) :
    Completes [.regs, .dmas] s (execDmaFenceDone n s) := by
  unfold execDmaFenceDone
  repeat' first
    | with_reducible assumption
    | exact Allows.mono (by decide) (Allows.refl _)
    | with_reducible exact Keeps.refl _
    | with_reducible apply Completes.next
    | with_reducible apply State.dmaEnd_keeps
    | with_reducible apply Keeps.ite
    | with_reducible apply Completes.ite

theorem execDmaDrainDone_completes (n : Nat) (k : Nat) (data : List Byte) (s : State) :
    Completes [.regs, .out, .free, .emem, .dmas] s (execDmaDrainDone n k data s) := by
  unfold execDmaDrainDone
  repeat' first
    | with_reducible assumption
    | exact Allows.mono (by decide) (Allows.refl _)
    | with_reducible exact Keeps.refl _
    | with_reducible apply Completes.next
    | with_reducible apply State.dmaEnd_keeps
    | with_reducible apply State.dmaMove_keeps
    | with_reducible apply State.setDmaState_keeps
    | with_reducible apply Keeps.ite
    | with_reducible apply Completes.ite

theorem execDmaAccessError_completes (n : Nat) (cause : Nat) (addr : Nat) (s : State) :
    Completes [.regs, .dmas] s (execDmaAccessError n cause addr s) := by
  unfold execDmaAccessError
  repeat' first
    | with_reducible assumption
    | exact Allows.mono (by decide) (Allows.refl _)
    | with_reducible exact Keeps.refl _
    | with_reducible apply Completes.next
    | with_reducible apply State.dmaFail_keeps
    | with_reducible apply Keeps.ite
    | with_reducible apply Completes.ite
    | refine Keeps.snd ?_ (by assumption)
    | refine Keeps.snd2 ?_ (by assumption)
    | split

theorem execDmaListFetchReturn_completes (n : Nat) (entry : List Byte) (err : Bool) (data : List Byte) (s : State) :
    Completes [.regs, .out, .free, .emem, .dmas] s (execDmaListFetchReturn n entry err data s) := by
  unfold execDmaListFetchReturn
  repeat' first
    | with_reducible assumption
    | exact Allows.mono (by decide) (Allows.refl _)
    | with_reducible exact Keeps.refl _
    | with_reducible apply Completes.next
    | with_reducible apply State.dmaEntry_keeps
    | with_reducible apply State.dmaMove_keeps
    | with_reducible apply State.dmaNextEntry_keeps
    | with_reducible apply State.setDma_keeps
    | with_reducible apply Keeps.ite
    | with_reducible apply Completes.ite

theorem execDmaEndFetchReturn_completes (n : Nat) (word : Word) (err : Bool) (data : List Byte) (s : State) :
    Completes [.regs, .out, .free, .emem, .dmas] s (execDmaEndFetchReturn n word err data s) := by
  unfold execDmaEndFetchReturn
  repeat' first
    | with_reducible assumption
    | exact Allows.mono (by decide) (Allows.refl _)
    | with_reducible exact Keeps.refl _
    | with_reducible apply Completes.next
    | with_reducible apply State.dmaEnd_keeps
    | with_reducible apply State.dmaFail_keeps
    | with_reducible apply State.dmaMove_keeps
    | with_reducible apply State.dmaWalkOn_keeps
    | with_reducible apply State.fset_keeps
    | with_reducible apply State.listFetch_keeps
    | with_reducible apply State.setDma_keeps
    | with_reducible apply State.setDmaState_keeps
    | with_reducible apply State.wr64_keeps
    | with_reducible apply Keeps.ite
    | with_reducible apply Completes.ite

theorem execDmaLateWriteError_completes (n : Nat) (addr : Nat) (s : State) :
    Completes [.regs, .out, .free, .trigs, .frames, .ports, .flt, .trunks, .node, .pipes, .gload, .cls, .emem, .funcs, .qps, .mem, .dmas] s (execDmaLateWriteError n addr s) := by
  unfold execDmaLateWriteError
  repeat' first
    | with_reducible assumption
    | exact Allows.mono (by decide) (Allows.refl _)
    | with_reducible exact Keeps.refl _
    | with_reducible apply Completes.next
    | with_reducible apply State.dmaLate_keeps
    | with_reducible apply Keeps.ite
    | with_reducible apply Completes.ite

theorem execDmaRecordWrite_completes (n : Nat) (err : Bool) (s : State) :
    Completes [.regs, .out, .free, .trigs, .frames, .ports, .flt, .trunks, .node, .pipes, .gload, .cls, .emem, .funcs, .qps, .mem, .dmas] s (execDmaRecordWrite n s err) := by
  unfold execDmaRecordWrite
  repeat' first
    | with_reducible assumption
    | exact Allows.mono (by decide) (Allows.refl _)
    | with_reducible exact Keeps.refl _
    | with_reducible apply Completes.next
    | with_reducible apply State.dmaLate_keeps
    | with_reducible apply State.emit_keeps
    | with_reducible apply State.fset_keeps
    | with_reducible apply State.raise_keeps
    | with_reducible apply State.setDma_keeps
    | with_reducible apply Keeps.ite
    | with_reducible apply Completes.ite
    | refine Keeps.snd ?_ (by assumption)
    | refine Keeps.snd2 ?_ (by assumption)
    | (lift_lets; intro x; clear_value x)
    | with_reducible apply hx
    | split

theorem execDmaCqHeadWrite_completes (fn : Nat) (data : Word) (s : State) :
    Completes (byFn fn [.regs, .slv]) s (execDmaCqHeadWrite fn data s) := by
  unfold execDmaCqHeadWrite
  repeat' first
    | with_reducible assumption
    | exact Allows.mono (by decide) (Allows.refl _)
    | with_reducible exact Keeps.refl _
    | with_reducible apply Completes.access
    | with_reducible apply Completes.next
    | with_reducible intro _
    | with_reducible apply State.dmaHeadWrite_keeps

theorem execBankEvacuate_completes (fn : Nat) (data : Word) (s : State) :
    Completes (byFn fn [.regs, .stage, .slv, .mem]) s (execBankEvacuate fn data s) := by
  unfold execBankEvacuate
  repeat' first
    | with_reducible assumption
    | exact Allows.mono (by decide) (Allows.refl _)
    | with_reducible exact Keeps.refl _
    | with_reducible apply Completes.access
    | with_reducible apply Completes.next
    | with_reducible intro _
    | with_reducible apply State.bankCmdWrite_keeps

theorem execBankRelease_completes (fn : Nat) (data : Word) (s : State) :
    Completes (byFn fn [.regs, .stage, .slv, .mem]) s (execBankRelease fn data s) := by
  unfold execBankRelease
  repeat' first
    | with_reducible assumption
    | exact Allows.mono (by decide) (Allows.refl _)
    | with_reducible exact Keeps.refl _
    | with_reducible apply Completes.access
    | with_reducible apply Completes.next
    | with_reducible intro _
    | with_reducible apply State.bankCmdWrite_keeps

theorem execBankCmdUnknownOp_completes (fn : Nat) (data : Word) (s : State) :
    Completes (byFn fn [.regs, .stage, .slv, .mem]) s (execBankCmdUnknownOp fn data s) := by
  unfold execBankCmdUnknownOp
  repeat' first
    | with_reducible assumption
    | exact Allows.mono (by decide) (Allows.refl _)
    | with_reducible exact Keeps.refl _
    | with_reducible apply Completes.access
    | with_reducible apply Completes.next
    | with_reducible intro _
    | with_reducible apply State.bankCmdWrite_keeps

theorem execEvacuateDone_completes (s : State) :
    Completes [.regs, .mem] s (execEvacuateDone s) := by
  unfold execEvacuateDone
  repeat' first
    | with_reducible assumption
    | exact Allows.mono (by decide) (Allows.refl _)
    | with_reducible exact Keeps.refl _
    | with_reducible apply Completes.next
    | with_reducible apply State.bankResult_keeps
    | with_reducible apply State.fset_keeps
    | with_reducible apply State.setMem_keeps
    | with_reducible apply Keeps.ite
    | with_reducible apply Completes.ite
    | refine Keeps.snd ?_ (by assumption)
    | refine Keeps.snd2 ?_ (by assumption)
    | rfl
    | split

theorem execMemDbgWrite_completes (fn : Nat) (data : Word) (s : State) :
    Completes (byFn fn [.regs, .stage, .slv, .frames, .mem]) s (execMemDbgWrite fn data s) := by
  unfold execMemDbgWrite
  repeat' first
    | with_reducible assumption
    | exact Allows.mono (by decide) (Allows.refl _)
    | with_reducible exact Keeps.refl _
    | with_reducible apply Completes.access
    | with_reducible apply Completes.next
    | with_reducible intro _
    | with_reducible apply State.dbgWrite_keeps

theorem execMemDbgRead_completes (fn : Nat) (s : State) :
    Completes (byFn fn [.regs, .hold, .slv, .free, .mem]) s (execMemDbgRead fn s) := by
  unfold execMemDbgRead
  repeat' first
    | with_reducible assumption
    | exact Allows.mono (by decide) (Allows.refl _)
    | with_reducible exact Keeps.refl _
    | with_reducible apply Completes.access
    | with_reducible apply Completes.next
    | with_reducible intro _
    | with_reducible apply State.dbgRead_keeps

theorem execMigrationStart_completes (spill : List Nat) (s : State) :
    Completes [.regs, .out, .free, .trigs, .frames, .ports, .flt, .trunks, .node, .pipes, .gload, .cls, .emem, .funcs, .qps, .mem, .dmas] s (execMigrationStart s spill) := by
  unfold execMigrationStart
  repeat' first
    | with_reducible assumption
    | exact Allows.mono (by decide) (Allows.refl _)
    | with_reducible exact Keeps.refl _
    | with_reducible apply Completes.next
    | with_reducible intro _
    | with_reducible apply forEach_keeps
    | with_reducible apply State.fset_keeps
    | with_reducible apply State.logFault_keeps
    | with_reducible apply State.raiseMem_keeps
    | with_reducible apply State.retire_keeps
    | with_reducible apply State.setGran_keeps
    | with_reducible apply State.setMem_keeps
    | with_reducible apply State.stallQp_keeps
    | with_reducible apply Keeps.forEach
    | with_reducible apply Keeps.ite
    | with_reducible apply Completes.ite
    | refine Keeps.snd ?_ (by assumption)
    | refine Keeps.snd2 ?_ (by assumption)
    | rfl
    | (lift_lets; intro x; refine (?_ : Keeps [.regs, .out, .free, .trigs, .frames, .ports, .flt, .trunks, .node, .pipes, .gload, .cls, .emem, .funcs, .qps, .mem, .dmas] s x → _) ?_ <;> [(intro _; clear_value x); skip])
    | (lift_lets; intro x; clear_value x)
    | with_reducible apply hx
    | split
    | dsimp only

theorem execMigrationDone_completes (bad : List Nat) (s : State) :
    Completes [.regs, .out, .free, .trigs, .frames, .ports, .flt, .trunks, .node, .pipes, .gload, .cls, .ems, .emem, .funcs, .qps, .mem, .dmas] s (execMigrationDone bad s) := by
  unfold execMigrationDone
  repeat' first
    | with_reducible assumption
    | exact Allows.mono (by decide) (Allows.refl _)
    | with_reducible exact Keeps.refl _
    | with_reducible apply Completes.next
    | with_reducible intro _
    | with_reducible apply State.bufError_keeps
    | with_reducible apply forEach_keeps
    | with_reducible apply State.fset_keeps
    | with_reducible apply State.markRetired_keeps
    | with_reducible apply State.memCnt_keeps
    | with_reducible apply State.redirect_keeps
    | with_reducible apply State.requeue_keeps
    | with_reducible apply State.retire_keeps
    | with_reducible apply State.setGran_keeps
    | with_reducible apply State.setMem_keeps
    | with_reducible apply State.stallQp_keeps
    | with_reducible apply State.sweepGrans_keeps
    | with_reducible apply Keeps.forEach
    | with_reducible apply Keeps.ite
    | with_reducible apply Completes.ite
    | refine Keeps.snd ?_ (by assumption)
    | refine Keeps.snd2 ?_ (by assumption)
    | rfl
    | (lift_lets; intro x; refine (?_ : x.words = s.mem.words → _) ?_ <;> [(intro _; clear_value x); rfl])
    | with_reducible apply hx
    | split
    | dsimp only

theorem execPointingPassTimer_completes (s : State) :
    Completes [.regs, .mem] s (execPointingPassTimer s) := by
  unfold execPointingPassTimer
  repeat' first
    | with_reducible assumption
    | exact Allows.mono (by decide) (Allows.refl _)
    | with_reducible exact Keeps.refl _
    | with_reducible apply Completes.next
    | with_reducible apply State.cleanFree_keeps
    | with_reducible apply State.fsets_keeps
    | with_reducible apply State.setMem_keeps
    | with_reducible apply Keeps.ite
    | with_reducible apply Completes.ite
    | refine Keeps.snd ?_ (by assumption)
    | refine Keeps.snd2 ?_ (by assumption)
    | rfl
    | (lift_lets; intro x; refine (?_ : x.words = s.mem.words → _) ?_ <;> [(intro _; clear_value x); rfl])
    | with_reducible apply hx
    | split
    | dsimp only

theorem execRetestStart_completes (kind : Nat) (m : Nat) (addr : Nat) (unc : Bool) (key : List Byte) (own : Bool) (written : Bool) (s : State) :
    Completes [.regs, .out, .free, .trigs, .frames, .ports, .flt, .trunks, .node, .pipes, .gload, .cls, .ems, .emem, .funcs, .qps, .mem, .dmas] s (execRetestStart kind m addr unc key s own written) := by
  unfold execRetestStart
  repeat' first
    | with_reducible assumption
    | exact Allows.mono (by decide) (Allows.refl _)
    | with_reducible exact Keeps.refl _
    | with_reducible apply Completes.next
    | with_reducible apply State.bufError_keeps
    | with_reducible apply State.ceCnt_keeps
    | with_reducible apply State.setMem_keeps
    | with_reducible apply Keeps.ite
    | with_reducible apply Completes.ite
    | rfl

theorem execRegionTestDone_completes (kind : Nat) (fail : Bool) (s : State) :
    Completes [.regs, .out, .free, .trigs, .frames, .ports, .flt, .trunks, .node, .pipes, .gload, .cls, .emem, .funcs, .qps, .mem, .dmas] s (execRegionTestDone kind fail s) := by
  unfold execRegionTestDone
  repeat' first
    | with_reducible assumption
    | exact Allows.mono (by decide) (Allows.refl _)
    | with_reducible exact Keeps.refl _
    | with_reducible apply Completes.next
    | with_reducible intro _
    | with_reducible apply State.memCnt_keeps
    | with_reducible apply State.otherVerdict_keeps
    | with_reducible apply State.setMem_keeps
    | with_reducible apply State.verdict_keeps
    | with_reducible apply Keeps.ite
    | with_reducible apply Completes.ite
    | refine Keeps.snd ?_ (by assumption)
    | refine Keeps.snd2 ?_ (by assumption)
    | rfl
    | (lift_lets; intro x; refine (?_ : x.words = s.mem.words → _) ?_ <;> [(intro _; clear_value x); rfl])
    | with_reducible apply hx
    | split

theorem execChkGo_completes (fn : Nat) (n : Nat) (data : Word) (s : State) :
    Completes (byFn fn [.regs, .stage, .slv, .emem, .chks]) s (execChkGo fn n data s) := by
  unfold execChkGo
  repeat' first
    | with_reducible assumption
    | exact Allows.mono (by decide) (Allows.refl _)
    | with_reducible exact Keeps.refl _
    | with_reducible apply Completes.access
    | with_reducible apply Completes.next
    | with_reducible intro _
    | with_reducible apply State.chkCtlWrite_keeps

theorem execChkAbort_completes (fn : Nat) (n : Nat) (data : Word) (s : State) :
    Completes (byFn fn [.regs, .stage, .slv, .emem, .chks]) s (execChkAbort fn n data s) := by
  unfold execChkAbort
  repeat' first
    | with_reducible assumption
    | exact Allows.mono (by decide) (Allows.refl _)
    | with_reducible exact Keeps.refl _
    | with_reducible apply Completes.access
    | with_reducible apply Completes.next
    | with_reducible intro _
    | with_reducible apply State.chkCtlWrite_keeps

theorem execChkSealWrite_completes (fn : Nat) (data : Word) (s : State) :
    Completes (byFn fn [.regs, .slv]) s (execChkSealWrite fn data s) := by
  unfold execChkSealWrite
  repeat' first
    | with_reducible assumption
    | exact Allows.mono (by decide) (Allows.refl _)
    | with_reducible exact Keeps.refl _
    | with_reducible apply Completes.access
    | with_reducible apply Completes.next
    | with_reducible intro _
    | with_reducible apply State.sealWrite_keeps

theorem execChkScanData_completes (n : Nat) (bytes : List Byte) (err : Bool) (s : State) :
    Completes [.regs, .out, .emem, .chks] s (execChkScanData n bytes err s) := by
  unfold execChkScanData
  repeat' first
    | with_reducible assumption
    | exact Allows.mono (by decide) (Allows.refl _)
    | with_reducible exact Keeps.refl _
    | with_reducible apply Completes.next
    | with_reducible apply State.chkEnd_keeps
    | with_reducible apply State.chkTake_keeps
    | with_reducible apply State.hostRead_keeps
    | with_reducible apply Keeps.ite
    | with_reducible apply Completes.ite

theorem execChkRunEnd_completes (n : Nat) (s : State) :
    Completes [.regs, .emem, .chks] s (execChkRunEnd n s) := by
  unfold execChkRunEnd
  repeat' first
    | with_reducible assumption
    | exact Allows.mono (by decide) (Allows.refl _)
    | with_reducible exact Keeps.refl _
    | with_reducible apply Completes.next
    | with_reducible apply State.chkFinish_keeps
    | with_reducible apply Keeps.ite
    | with_reducible apply Completes.ite

theorem execChkStaleExpiry_completes (n : Nat) (restarts : Bool) (s : State) :
    Completes [.regs, .emem, .chks] s (execChkStaleExpiry n s restarts) := by
  unfold execChkStaleExpiry
  repeat' first
    | with_reducible assumption
    | exact Allows.mono (by decide) (Allows.refl _)
    | with_reducible exact Keeps.refl _
    | with_reducible apply Completes.next
    | with_reducible apply State.chkRecord_keeps
    | with_reducible apply State.fset_keeps
    | with_reducible apply State.fsets_keeps
    | with_reducible apply State.raiseChk_keeps
    | with_reducible apply State.setChk_keeps
    | with_reducible apply Keeps.ite
    | with_reducible apply Completes.ite

theorem execChkResultRead_completes (fn : Nat) (n : Nat) (s : State) :
    Completes (byFn fn [.hold, .slv]) s (execChkResultRead fn n s) := by
  unfold execChkResultRead
  repeat' first
    | with_reducible assumption
    | exact Allows.mono (by decide) (Allows.refl _)
    | with_reducible exact Keeps.refl _
    | with_reducible apply Completes.access
    | with_reducible apply Completes.next
    | with_reducible intro _
    | with_reducible apply State.answer_keeps
    | with_reducible apply State.latchNext_keeps

theorem execGearValidWrite_completes (fn : Nat) (t : Nat) (data : Word) (s : State) :
    Completes (byFn fn [.regs, .stage, .slv, .trunks, .node]) s (execGearValidWrite fn t data s) := by
  unfold execGearValidWrite
  repeat' first
    | with_reducible assumption
    | exact Allows.mono (by decide) (Allows.refl _)
    | with_reducible exact Keeps.refl _
    | with_reducible apply Completes.access
    | with_reducible apply Completes.next
    | with_reducible intro _
    | with_reducible apply State.gearWrite_keeps

theorem execTrkSlotDataWrite_completes (fn : Nat) (t : Nat) (data : Word) (s : State) :
    Completes (byFn fn [.regs, .slv, .slots]) s (execTrkSlotDataWrite fn t data s) := by
  unfold execTrkSlotDataWrite
  repeat' first
    | with_reducible assumption
    | exact Allows.mono (by decide) (Allows.refl _)
    | with_reducible exact Keeps.refl _
    | with_reducible apply Completes.access
    | with_reducible apply Completes.next
    | with_reducible intro _
    | with_reducible apply State.slotWrite_keeps

theorem execTrkSlotDataRead_completes (fn : Nat) (t : Nat) (s : State) :
    Completes (byFn fn [.regs, .slv]) s (execTrkSlotDataRead fn t s) := by
  unfold execTrkSlotDataRead
  repeat' first
    | with_reducible assumption
    | exact Allows.mono (by decide) (Allows.refl _)
    | with_reducible exact Keeps.refl _
    | with_reducible apply Completes.access
    | with_reducible apply Completes.next
    | with_reducible intro _
    | with_reducible apply State.slotDataRead_keeps

theorem execShiftRequest_completes (fn : Nat) (data : Word) (s : State) :
    Completes (byFn fn [.regs, .stage, .slv, .trunks, .node]) s (execShiftRequest fn data s) := by
  unfold execShiftRequest
  repeat' first
    | with_reducible assumption
    | exact Allows.mono (by decide) (Allows.refl _)
    | with_reducible exact Keeps.refl _
    | with_reducible apply Completes.access
    | with_reducible apply Completes.next
    | with_reducible intro _
    | with_reducible apply State.shiftWrite_keeps

theorem execSuperframeInstant_completes (h : Nat) (s : State) :
    Completes [.regs, .halves, .ports, .trunks, .node] s (execSuperframeInstant h s) := by
  unfold execSuperframeInstant
  repeat' first
    | with_reducible assumption
    | exact Allows.mono (by decide) (Allows.refl _)
    | with_reducible exact Keeps.refl _
    | with_reducible apply Completes.next
    | with_reducible intro _
    | with_reducible apply forEach_keeps
    | with_reducible apply State.gateRestart_keeps
    | with_reducible apply State.nodeInstant_keeps
    | with_reducible apply State.trunkInstant_keeps
    | with_reducible apply Keeps.forEach
    | with_reducible apply Keeps.ite
    | with_reducible apply Completes.ite

theorem execOverheadCellReceive_completes (t : Nat) (s : State) :
    Completes [.regs, .out, .free, .halves, .tbs, .pps, .gens, .trigs, .flt, .trunks, .node, .gload, .cls, .funcs] s (execOverheadCellReceive t s) := by
  unfold execOverheadCellReceive
  repeat' first
    | with_reducible assumption
    | exact Allows.mono (by decide) (Allows.refl _)
    | with_reducible exact Keeps.refl _
    | with_reducible apply Completes.next
    | with_reducible apply State.fsat_keeps
    | with_reducible apply State.overheadIn_keeps
    | with_reducible apply State.setTrunk_keeps
    | with_reducible apply Keeps.ite
    | with_reducible apply Completes.ite
    | refine Keeps.snd ?_ (by assumption)
    | refine Keeps.snd2 ?_ (by assumption)
    | (lift_lets; intro x; clear_value x)
    | with_reducible apply hx
    | split

theorem execUrgentCellReceive_completes (t : Nat) (s : State) :
    Completes [.regs, .out, .free, .trigs, .flt, .trunks, .node, .gload, .cls, .funcs] s (execUrgentCellReceive t s) := by
  unfold execUrgentCellReceive
  repeat' first
    | with_reducible assumption
    | exact Allows.mono (by decide) (Allows.refl _)
    | with_reducible exact Keeps.refl _
    | with_reducible apply Completes.next
    | with_reducible apply State.fsat_keeps
    | with_reducible apply State.setTrunk_keeps
    | with_reducible apply State.urgentIn_keeps
    | with_reducible apply Keeps.ite
    | with_reducible apply Completes.ite
    | refine Keeps.snd ?_ (by assumption)
    | refine Keeps.snd2 ?_ (by assumption)
    | (lift_lets; intro x; clear_value x)
    | with_reducible apply hx
    | split

theorem execListenTimerExpiry_completes (s : State) :
    Completes [.regs, .node] s (execListenTimerExpiry s) := by
  unfold execListenTimerExpiry
  repeat' first
    | with_reducible assumption
    | exact Allows.mono (by decide) (Allows.refl _)
    | with_reducible exact Keeps.refl _
    | with_reducible apply Completes.next
    | with_reducible apply State.csSet_keeps
    | with_reducible apply State.fsets_keeps
    | with_reducible apply State.setNode_keeps
    | with_reducible apply Keeps.ite
    | with_reducible apply Completes.ite

theorem execColdsendComplete_completes (s : State) :
    Completes [.regs, .out, .trigs] s (execColdsendComplete s) := by
  unfold execColdsendComplete
  repeat' first
    | with_reducible assumption
    | exact Allows.mono (by decide) (Allows.refl _)
    | with_reducible exact Keeps.refl _
    | with_reducible apply Completes.next
    | with_reducible apply State.csSet_keeps
    | with_reducible apply State.setJoined_keeps
    | with_reducible apply State.syncTrigs_keeps
    | with_reducible apply Keeps.ite
    | with_reducible apply Completes.ite

theorem execSourceLossTimeout_completes (s : State) :
    Completes [.regs, .trunks, .node] s (execSourceLossTimeout s) := by
  unfold execSourceLossTimeout
  repeat' first
    | with_reducible assumption
    | exact Allows.mono (by decide) (Allows.refl _)
    | with_reducible exact Keeps.refl _
    | with_reducible apply Completes.next
    | with_reducible apply State.csListen_keeps
    | with_reducible apply Keeps.ite
    | with_reducible apply Completes.ite

theorem execForcedSwitch_completes (fn : Nat) (t : Nat) (s : State) :
    Completes (byFn fn [.regs, .slv, .out, .free, .trigs, .flt, .trunks, .node, .gload, .cls, .funcs]) s (execForcedSwitch fn t s) := by
  unfold execForcedSwitch
  repeat' first
    | with_reducible assumption
    | exact Allows.mono (by decide) (Allows.refl _)
    | with_reducible exact Keeps.refl _
    | with_reducible apply Completes.access
    | with_reducible apply Completes.next
    | with_reducible intro _
    | with_reducible apply State.protCmd_keeps

theorem execManualSwitch_completes (fn : Nat) (t : Nat) (s : State) :
    Completes (byFn fn [.regs, .slv, .out, .free, .trigs, .flt, .trunks, .node, .gload, .cls, .funcs]) s (execManualSwitch fn t s) := by
  unfold execManualSwitch
  repeat' first
    | with_reducible assumption
    | exact Allows.mono (by decide) (Allows.refl _)
    | with_reducible exact Keeps.refl _
    | with_reducible apply Completes.access
    | with_reducible apply Completes.next
    | with_reducible intro _
    | with_reducible apply State.protCmd_keeps

theorem execLockout_completes (fn : Nat) (t : Nat) (s : State) :
    Completes (byFn fn [.regs, .slv, .out, .free, .trigs, .flt, .trunks, .node, .gload, .cls, .funcs]) s (execLockout fn t s) := by
  unfold execLockout
  repeat' first
    | with_reducible assumption
    | exact Allows.mono (by decide) (Allows.refl _)
    | with_reducible exact Keeps.refl _
    | with_reducible apply Completes.access
    | with_reducible apply Completes.next
    | with_reducible intro _
    | with_reducible apply State.protCmd_keeps

theorem execClearCommand_completes (fn : Nat) (t : Nat) (s : State) :
    Completes (byFn fn [.regs, .slv, .out, .free, .trigs, .flt, .trunks, .node, .gload, .cls, .funcs]) s (execClearCommand fn t s) := by
  unfold execClearCommand
  repeat' first
    | with_reducible assumption
    | exact Allows.mono (by decide) (Allows.refl _)
    | with_reducible exact Keeps.refl _
    | with_reducible apply Completes.access
    | with_reducible apply Completes.next
    | with_reducible intro _
    | with_reducible apply State.protCmd_keeps

theorem execSignalFailLocal_completes (t : Nat) (s : State) :
    Completes [.regs, .out, .free, .trigs, .flt, .trunks, .node, .gload, .cls, .funcs] s (execSignalFailLocal t s) := by
  unfold execSignalFailLocal
  repeat' first
    | with_reducible assumption
    | exact Allows.mono (by decide) (Allows.refl _)
    | with_reducible exact Keeps.refl _
    | with_reducible apply Completes.next
    | with_reducible apply State.fixDegraded_keeps
    | with_reducible apply State.setTrunk_keeps
    | with_reducible apply State.sfUpdate_keeps
    | with_reducible apply Keeps.ite
    | with_reducible apply Completes.ite

theorem execSdWindowEnd_completes (t : Nat) (s : State) :
    Completes [.regs, .out, .free, .trigs, .flt, .trunks, .node, .gload, .cls, .funcs] s (execSdWindowEnd t s) := by
  unfold execSdWindowEnd
  repeat' first
    | with_reducible assumption
    | exact Allows.mono (by decide) (Allows.refl _)
    | with_reducible exact Keeps.refl _
    | with_reducible apply Completes.next
    | with_reducible apply State.fixDegraded_keeps
    | with_reducible apply State.fset_keeps
    | with_reducible apply State.protUpdate_keeps
    | with_reducible apply State.setTrunk_keeps
    | with_reducible apply Keeps.ite
    | with_reducible apply Completes.ite

theorem execWtrExpiry_completes (s : State) :
    Completes [.regs, .out, .free, .trigs, .flt, .trunks, .node, .gload, .cls, .funcs] s (execWtrExpiry s) := by
  unfold execWtrExpiry
  repeat' first
    | with_reducible assumption
    | exact Allows.mono (by decide) (Allows.refl _)
    | with_reducible exact Keeps.refl _
    | with_reducible apply Completes.next
    | with_reducible apply State.block_keeps
    | with_reducible apply State.fixDegraded_keeps
    | with_reducible apply State.flushRing_keeps
    | with_reducible apply State.fset_keeps
    | with_reducible apply State.protUpdate_keeps
    | with_reducible apply State.setWtr_keeps
    | with_reducible apply Keeps.ite
    | with_reducible apply Completes.ite

theorem execStoreCommitDone_completes (err : Bool) (late : List Nat) (s : State) :
    Completes [.regs, .out, .free, .trigs, .frames, .ports, .gasp, .dic, .flt, .trunks, .node, .pipes, .gload, .cls, .emem, .funcs, .qps, .mem, .dmas] s (execStoreCommitDone err late s) := by
  unfold execStoreCommitDone
  repeat' first
    | with_reducible assumption
    | exact Allows.mono (by decide) (Allows.refl _)
    | with_reducible exact Keeps.refl _
    | with_reducible apply Completes.next
    | with_reducible apply State.commitNext_keeps
    | with_reducible apply State.dropCommit_keeps
    | with_reducible apply State.fsets_keeps
    | with_reducible apply State.raise_keeps
    | with_reducible apply State.setDic_keeps
    | with_reducible apply State.setSlot_keeps
    | with_reducible apply State.storeError_keeps
    | with_reducible apply Keeps.ite
    | with_reducible apply Completes.ite
    | refine Keeps.snd ?_ (by assumption)
    | refine Keeps.snd2 ?_ (by assumption)
    | with_reducible apply hx
    | split

theorem execAutoCommitTimer_completes (s : State) :
    Completes [.regs, .dic] s (execAutoCommitTimer s) := by
  unfold execAutoCommitTimer
  repeat' first
    | with_reducible assumption
    | exact Allows.mono (by decide) (Allows.refl _)
    | with_reducible exact Keeps.refl _
    | with_reducible apply Completes.next
    | with_reducible apply State.startCommit_keeps
    | with_reducible apply Keeps.ite
    | with_reducible apply Completes.ite

theorem execDicRead_completes (fn : Nat) (len : Nat) (s : State) :
    Completes (byFn fn [.regs, .stage, .slv, .out, .free, .tbs, .trigs, .dic, .flt, .trunks, .node, .gload, .cls, .emem, .funcs]) s (execDicRead fn len s) := by
  unfold execDicRead State.dicExec
  repeat' first
    | with_reducible assumption
    | exact Allows.mono (by decide) (Allows.refl _)
    | with_reducible exact Keeps.refl _
    | with_reducible apply Completes.access
    | with_reducible apply Completes.next
    | with_reducible intro _
    | with_reducible apply State.dicCmdWrite_keeps

theorem execDicWrite_completes (fn : Nat) (len : Nat) (s : State) :
    Completes (byFn fn [.regs, .stage, .slv, .out, .free, .tbs, .trigs, .dic, .flt, .trunks, .node, .gload, .cls, .emem, .funcs]) s (execDicWrite fn len s) := by
  unfold execDicWrite State.dicExec
  repeat' first
    | with_reducible assumption
    | exact Allows.mono (by decide) (Allows.refl _)
    | with_reducible exact Keeps.refl _
    | with_reducible apply Completes.access
    | with_reducible apply Completes.next
    | with_reducible intro _
    | with_reducible apply State.dicCmdWrite_keeps

theorem execDicInfo_completes (fn : Nat) (len : Nat) (s : State) :
    Completes (byFn fn [.regs, .stage, .slv, .out, .free, .tbs, .trigs, .dic, .flt, .trunks, .node, .gload, .cls, .emem, .funcs]) s (execDicInfo fn len s) := by
  unfold execDicInfo State.dicExec
  repeat' first
    | with_reducible assumption
    | exact Allows.mono (by decide) (Allows.refl _)
    | with_reducible exact Keeps.refl _
    | with_reducible apply Completes.access
    | with_reducible apply Completes.next
    | with_reducible intro _
    | with_reducible apply State.dicCmdWrite_keeps

theorem execDicCommit_completes (fn : Nat) (len : Nat) (s : State) :
    Completes (byFn fn [.regs, .stage, .slv, .out, .free, .tbs, .trigs, .dic, .flt, .trunks, .node, .gload, .cls, .emem, .funcs]) s (execDicCommit fn len s) := by
  unfold execDicCommit State.dicExec
  repeat' first
    | with_reducible assumption
    | exact Allows.mono (by decide) (Allows.refl _)
    | with_reducible exact Keeps.refl _
    | with_reducible apply Completes.access
    | with_reducible apply Completes.next
    | with_reducible intro _
    | with_reducible apply State.dicCmdWrite_keeps

theorem execDicRestoreDefaults_completes (fn : Nat) (len : Nat) (s : State) :
    Completes (byFn fn [.regs, .stage, .slv, .out, .free, .tbs, .trigs, .dic, .flt, .trunks, .node, .gload, .cls, .emem, .funcs]) s (execDicRestoreDefaults fn len s) := by
  unfold execDicRestoreDefaults State.dicExec
  repeat' first
    | with_reducible assumption
    | exact Allows.mono (by decide) (Allows.refl _)
    | with_reducible exact Keeps.refl _
    | with_reducible apply Completes.access
    | with_reducible apply Completes.next
    | with_reducible intro _
    | with_reducible apply State.dicCmdWrite_keeps

theorem execDicDefine_completes (fn : Nat) (len : Nat) (s : State) :
    Completes (byFn fn [.regs, .stage, .slv, .out, .free, .tbs, .trigs, .dic, .flt, .trunks, .node, .gload, .cls, .emem, .funcs]) s (execDicDefine fn len s) := by
  unfold execDicDefine State.dicExec
  repeat' first
    | with_reducible assumption
    | exact Allows.mono (by decide) (Allows.refl _)
    | with_reducible exact Keeps.refl _
    | with_reducible apply Completes.access
    | with_reducible apply Completes.next
    | with_reducible intro _
    | with_reducible apply State.dicCmdWrite_keeps

theorem execDicUndefine_completes (fn : Nat) (len : Nat) (s : State) :
    Completes (byFn fn [.regs, .stage, .slv, .out, .free, .tbs, .trigs, .dic, .flt, .trunks, .node, .gload, .cls, .emem, .funcs]) s (execDicUndefine fn len s) := by
  unfold execDicUndefine State.dicExec
  repeat' first
    | with_reducible assumption
    | exact Allows.mono (by decide) (Allows.refl _)
    | with_reducible exact Keeps.refl _
    | with_reducible apply Completes.access
    | with_reducible apply Completes.next
    | with_reducible intro _
    | with_reducible apply State.dicCmdWrite_keeps

theorem execDicTake_completes (fn : Nat) (len : Nat) (s : State) :
    Completes (byFn fn [.regs, .stage, .slv, .out, .free, .tbs, .trigs, .dic, .flt, .trunks, .node, .gload, .cls, .emem, .funcs]) s (execDicTake fn len s) := by
  unfold execDicTake State.dicExec
  repeat' first
    | with_reducible assumption
    | exact Allows.mono (by decide) (Allows.refl _)
    | with_reducible exact Keeps.refl _
    | with_reducible apply Completes.access
    | with_reducible apply Completes.next
    | with_reducible intro _
    | with_reducible apply State.dicCmdWrite_keeps

theorem execDicUnknownOp_completes (fn : Nat) (op : Nat) (len : Nat) (s : State) :
    Completes (byFn fn [.regs, .stage, .slv, .out, .free, .tbs, .trigs, .dic, .flt, .trunks, .node, .gload, .cls, .emem, .funcs]) s (execDicUnknownOp fn op len s) := by
  unfold execDicUnknownOp State.dicExec
  repeat' first
    | with_reducible assumption
    | exact Allows.mono (by decide) (Allows.refl _)
    | with_reducible exact Keeps.refl _
    | with_reducible apply Completes.access
    | with_reducible apply Completes.next
    | with_reducible intro _
    | with_reducible apply State.dicCmdWrite_keeps

theorem execMailboxRequest_completes (s : State) :
    Completes [.regs, .stage, .slv, .out, .free, .tbs, .trigs, .dic, .flt, .trunks, .node, .gload, .cls, .emem, .funcs] s (execMailboxRequest s) := by
  unfold execMailboxRequest
  repeat' first
    | with_reducible assumption
    | exact Allows.mono (by decide) (Allows.refl _)
    | with_reducible exact Keeps.refl _
    | with_reducible apply Completes.next
    | with_reducible apply State.mbxPut_keeps
    | with_reducible apply State.mbxRun_keeps
    | with_reducible apply State.setDic_keeps
    | with_reducible apply Keeps.ite
    | with_reducible apply Completes.ite
    | refine Keeps.snd ?_ (by assumption)
    | refine Keeps.snd2 ?_ (by assumption)
    | split

theorem execMailboxFwdResponse_completes (s : State) :
    Completes [.regs, .stage, .slv, .out, .free, .tbs, .trigs, .dic, .flt, .trunks, .node, .gload, .cls, .emem, .funcs] s (execMailboxFwdResponse s) := by
  unfold execMailboxFwdResponse
  repeat' first
    | with_reducible assumption
    | exact Allows.mono (by decide) (Allows.refl _)
    | with_reducible exact Keeps.refl _
    | with_reducible apply Completes.next
    | with_reducible apply State.forwardEnd_keeps
    | with_reducible apply Keeps.ite
    | with_reducible apply Completes.ite
    | refine Keeps.snd ?_ (by assumption)
    | refine Keeps.snd2 ?_ (by assumption)
    | with_reducible apply hx
    | split

theorem execFwdTimeout_completes (s : State) :
    Completes [.regs, .stage, .slv, .out, .free, .tbs, .trigs, .dic, .flt, .trunks, .node, .gload, .cls, .emem, .funcs] s (execFwdTimeout s) := by
  unfold execFwdTimeout
  repeat' first
    | with_reducible assumption
    | exact Allows.mono (by decide) (Allows.refl _)
    | with_reducible exact Keeps.refl _
    | with_reducible apply Completes.next
    | with_reducible apply State.forwardEnd_keeps
    | refine Keeps.snd ?_ (by assumption)
    | refine Keeps.snd2 ?_ (by assumption)
    | split

theorem execStoreRestoreDone_completes (s : State) :
    Completes [.regs, .dic] s (execStoreRestoreDone s) := by
  unfold execStoreRestoreDone
  repeat' first
    | with_reducible assumption
    | exact Allows.mono (by decide) (Allows.refl _)
    | with_reducible exact Keeps.refl _
    | with_reducible apply Completes.next
    | with_reducible apply State.restoreStore_keeps
    | with_reducible apply Keeps.ite
    | with_reducible apply Completes.ite

theorem execSupplyCollapse_completes (step : Nat) (torn : Word) (written : Nat) (s : State) :
    Completes [.regs, .stage, .hold, .slv, .rst, .req, .halves, .settle, .tbs, .pps, .gens, .trigs, .frames, .nextFrame, .ports, .taken, .latches, .doms, .gasp, .dic, .flt, .trunks, .slots, .node, .pipes, .graph, .gload, .cls, .ems, .threads, .wheel, .emem, .splices, .funcs, .qps, .binds, .admin, .mem, .chks, .dmas] s (execSupplyCollapse step torn written s) := by
  unfold execSupplyCollapse
  repeat' first
    | with_reducible assumption
    | exact Allows.mono (by decide) (Allows.refl _)
    | with_reducible exact Keeps.refl _
    | with_reducible apply Completes.next
    | with_reducible apply State.collapseStore_keeps
    | with_reducible apply State.powerOn_keeps

theorem execWatchdogKick_completes (fn : Nat) (data : Word) (s : State) :
    Completes (byFn fn [.regs, .stage, .slv, .flt]) s (execWatchdogKick fn data s) := by
  unfold execWatchdogKick
  repeat' first
    | with_reducible assumption
    | exact Allows.mono (by decide) (Allows.refl _)
    | with_reducible exact Keeps.refl _
    | with_reducible apply Completes.access
    | with_reducible apply Completes.next
    | with_reducible intro _
    | with_reducible apply State.wdogWrite_keeps

theorem execWatchdogExpiry_completes (s : State) :
    Completes [.regs, .out, .free, .trigs, .frames, .ports, .flt, .trunks, .node, .pipes, .gload, .cls, .emem, .funcs, .qps, .mem, .dmas] s (execWatchdogExpiry s) := by
  unfold execWatchdogExpiry
  repeat' first
    | with_reducible assumption
    | exact Allows.mono (by decide) (Allows.refl _)
    | with_reducible exact Keeps.refl _
    | with_reducible apply Completes.next
    | with_reducible apply State.logFault_keeps
    | with_reducible apply State.setFlt_keeps
    | with_reducible apply Keeps.ite
    | with_reducible apply Completes.ite

theorem execFaultClear_completes (fn : Nat) (data : Word) (s : State) :
    Completes (byFn fn [.regs, .stage, .slv]) s (execFaultClear fn data s) := by
  unfold execFaultClear
  repeat' first
    | with_reducible assumption
    | exact Allows.mono (by decide) (Allows.refl _)
    | with_reducible exact Keeps.refl _
    | with_reducible apply Completes.access
    | with_reducible apply Completes.next
    | with_reducible intro _
    | with_reducible apply State.fltClearWrite_keeps

theorem execFltLogRead_completes (fn : Nat) (n : Nat) (s : State) :
    Completes (byFn fn [.hold, .slv]) s (execFltLogRead fn n s) := by
  unfold execFltLogRead
  repeat' first
    | with_reducible assumption
    | exact Allows.mono (by decide) (Allows.refl _)
    | with_reducible exact Keeps.refl _
    | with_reducible apply Completes.access
    | with_reducible apply Completes.next
    | with_reducible intro _
    | with_reducible apply State.answer_keeps
    | with_reducible apply State.latchNext_keeps

theorem execBlkRstNAssert_completes (step : Nat) (s : State) :
    Completes [.regs, .stage, .hold, .slv, .out, .rst, .req, .halves, .settle, .tbs, .pps, .gens, .trigs, .frames, .nextFrame, .ports, .taken, .gasp, .dic, .flt, .trunks, .slots, .node, .pipes, .graph, .gload, .cls, .ems, .threads, .wheel, .emem, .splices, .funcs, .qps, .binds, .admin, .mem, .chks, .dmas] s (execBlkRstNAssert s step) := by
  unfold execBlkRstNAssert
  repeat' first
    | with_reducible assumption
    | exact Allows.mono (by decide) (Allows.refl _)
    | with_reducible exact Keeps.refl _
    | with_reducible apply Completes.next
    | with_reducible apply State.blkReset_keeps

theorem execBlkRstNRelease_completes (s : State) :
    Completes [.regs, .out, .free, .rst, .halves, .trigs, .flt, .trunks, .node, .gload, .cls, .funcs] s (execBlkRstNRelease s) := by
  unfold execBlkRstNRelease
  repeat' first
    | with_reducible assumption
    | exact Allows.mono (by decide) (Allows.refl _)
    | with_reducible exact Keeps.refl _
    | with_reducible apply Completes.next
    | with_reducible intro _
    | with_reducible apply State.dicWake_keeps
    | with_reducible apply forEach_keeps
    | with_reducible apply State.halfGone_keeps
    | with_reducible apply State.loadNv_keeps
    | with_reducible apply State.setMode_keeps
    | with_reducible apply State.setRst_keeps
    | with_reducible apply State.showPma_keeps
    | with_reducible apply Keeps.forEach
    | with_reducible apply Keeps.ite
    | with_reducible apply Completes.ite

theorem execHalfResetAssert_completes (h : Nat) (s : State) :
    Completes [.regs, .stage, .hold, .out, .free, .rst, .halves, .tbs, .pps, .gens, .trigs, .frames, .ports, .gasp, .flt, .trunks, .slots, .node, .pipes, .gload, .cls, .threads, .wheel, .emem, .splices, .funcs, .qps, .mem, .dmas] s (execHalfResetAssert h s) := by
  unfold execHalfResetAssert
  repeat' first
    | with_reducible assumption
    | exact Allows.mono (by decide) (Allows.refl _)
    | with_reducible exact Keeps.refl _
    | with_reducible apply Completes.next
    | with_reducible apply State.enterSafehold_keeps
    | with_reducible apply State.fixDegraded_keeps
    | with_reducible apply State.halfGone_keeps
    | with_reducible apply State.halfReset_keeps
    | with_reducible apply State.setHalfLow_keeps
    | with_reducible apply State.splitGear_keeps
    | with_reducible apply Keeps.ite
    | with_reducible apply Completes.ite
    | refine Keeps.snd ?_ (by assumption)
    | refine Keeps.snd2 ?_ (by assumption)
    | (lift_lets; intro x; refine (?_ : Keeps [.regs, .stage, .hold, .out, .free, .rst, .halves, .tbs, .pps, .gens, .trigs, .frames, .ports, .gasp, .flt, .trunks, .slots, .node, .pipes, .gload, .cls, .threads, .wheel, .emem, .splices, .funcs, .qps, .mem, .dmas] s x → _) ?_ <;> [(intro _; clear_value x); skip])
    | with_reducible apply hx
    | split

theorem execHalfResetRelease_completes (h : Nat) (s : State) :
    Completes [.regs, .out, .rst, .halves, .tbs, .gens, .trigs, .trunks, .node, .cls] s (execHalfResetRelease h s) := by
  unfold execHalfResetRelease
  repeat' first
    | with_reducible assumption
    | exact Allows.mono (by decide) (Allows.refl _)
    | with_reducible exact Keeps.refl _
    | with_reducible apply Completes.next
    | with_reducible intro _
    | with_reducible apply State.loadNv_keeps
    | with_reducible apply State.setHalf_keeps
    | with_reducible apply State.setHalfLow_keeps
    | with_reducible apply State.setHalfMode_keeps
    | with_reducible apply State.showPma_keeps
    | with_reducible apply State.tbRestart_keeps
    | with_reducible apply Keeps.ite
    | with_reducible apply Completes.ite
    | refine Keeps.snd ?_ (by assumption)
    | refine Keeps.snd2 ?_ (by assumption)
    | (lift_lets; intro x; refine (?_ : Keeps [.regs, .out, .rst, .halves, .tbs, .gens, .trigs, .trunks, .node, .cls] s x → _) ?_ <;> [(intro _; clear_value x); skip])
    | with_reducible apply hx
    | split

theorem execSafeRstNAssert_completes (rises : Bool) (s : State) :
    Completes [.regs, .stage, .hold, .rst, .chks] s (execSafeRstNAssert s rises) := by
  unfold execSafeRstNAssert
  repeat' first
    | with_reducible assumption
    | exact Allows.mono (by decide) (Allows.refl _)
    | with_reducible exact Keeps.refl _
    | with_reducible apply Completes.next
    | with_reducible intro _
    | with_reducible apply State.clearKeys_keeps
    | with_reducible apply State.setChks_keeps
    | with_reducible apply State.setRst_keeps
    | with_reducible apply Keeps.ite
    | with_reducible apply Completes.ite

theorem execAonPowerOn_completes (s : State) :
    Completes [.regs, .stage, .hold, .slv, .free, .rst, .req, .halves, .settle, .tbs, .pps, .gens, .trigs, .frames, .nextFrame, .ports, .taken, .latches, .doms, .gasp, .dic, .flt, .trunks, .slots, .node, .pipes, .graph, .gload, .cls, .ems, .threads, .wheel, .emem, .splices, .funcs, .qps, .binds, .admin, .mem, .chks, .dmas] s (execAonPowerOn s) := by
  unfold execAonPowerOn
  repeat' first
    | with_reducible assumption
    | exact Allows.mono (by decide) (Allows.refl _)
    | with_reducible exact Keeps.refl _
    | with_reducible apply Completes.next
    | with_reducible apply State.powerOn_keeps
    | with_reducible apply State.setMem_keeps
    | with_reducible apply State.useFree_keeps
    | rfl

theorem execModeReqConfig_completes (fn : Nat) (clr : Bool) (meets : Bool) (s : State) :
    Completes (byFn fn [.regs, .stage, .hold, .slv, .out, .free, .req, .trigs, .frames, .ports, .doms, .flt, .trunks, .node, .pipes, .gload, .cls, .emem, .funcs, .qps, .binds, .admin, .mem, .dmas]) s (execModeReqConfig fn clr meets s) := by
  unfold execModeReqConfig
  repeat' first
    | with_reducible assumption
    | exact Allows.mono (by decide) (Allows.refl _)
    | with_reducible exact Keeps.refl _
    | with_reducible apply Completes.access
    | with_reducible apply Completes.next
    | with_reducible intro _
    | with_reducible apply State.modeWrite_keeps

theorem execModeReqIntegrate_completes (fn : Nat) (clr : Bool) (meets : Bool) (s : State) :
    Completes (byFn fn [.regs, .stage, .hold, .slv, .out, .free, .req, .trigs, .frames, .ports, .doms, .flt, .trunks, .node, .pipes, .gload, .cls, .emem, .funcs, .qps, .binds, .admin, .mem, .dmas]) s (execModeReqIntegrate fn clr meets s) := by
  unfold execModeReqIntegrate
  repeat' first
    | with_reducible assumption
    | exact Allows.mono (by decide) (Allows.refl _)
    | with_reducible exact Keeps.refl _
    | with_reducible apply Completes.access
    | with_reducible apply Completes.next
    | with_reducible intro _
    | with_reducible apply State.modeWrite_keeps

theorem execModeReqSafehold_completes (fn : Nat) (clr : Bool) (meets : Bool) (s : State) :
    Completes (byFn fn [.regs, .stage, .hold, .slv, .out, .free, .req, .trigs, .frames, .ports, .doms, .flt, .trunks, .node, .pipes, .gload, .cls, .emem, .funcs, .qps, .binds, .admin, .mem, .dmas]) s (execModeReqSafehold fn clr meets s) := by
  unfold execModeReqSafehold
  repeat' first
    | with_reducible assumption
    | exact Allows.mono (by decide) (Allows.refl _)
    | with_reducible exact Keeps.refl _
    | with_reducible apply Completes.access
    | with_reducible apply Completes.next
    | with_reducible intro _
    | with_reducible apply State.modeWrite_keeps

theorem execModeReqDormant_completes (fn : Nat) (clr : Bool) (meets : Bool) (s : State) :
    Completes (byFn fn [.regs, .stage, .hold, .slv, .out, .free, .req, .trigs, .frames, .ports, .doms, .flt, .trunks, .node, .pipes, .gload, .cls, .emem, .funcs, .qps, .binds, .admin, .mem, .dmas]) s (execModeReqDormant fn clr meets s) := by
  unfold execModeReqDormant
  repeat' first
    | with_reducible assumption
    | exact Allows.mono (by decide) (Allows.refl _)
    | with_reducible exact Keeps.refl _
    | with_reducible apply Completes.access
    | with_reducible apply Completes.next
    | with_reducible intro _
    | with_reducible apply State.modeWrite_keeps

theorem execModeReqOtherTarget_completes (fn : Nat) (target : Nat) (clr : Bool) (meets : Bool) (s : State) :
    Completes (byFn fn [.regs, .stage, .hold, .slv, .out, .free, .req, .trigs, .frames, .ports, .doms, .flt, .trunks, .node, .pipes, .gload, .cls, .emem, .funcs, .qps, .binds, .admin, .mem, .dmas]) s (execModeReqOtherTarget fn target clr meets s) := by
  unfold execModeReqOtherTarget
  repeat' first
    | with_reducible assumption
    | exact Allows.mono (by decide) (Allows.refl _)
    | with_reducible exact Keeps.refl _
    | with_reducible apply Completes.access
    | with_reducible apply Completes.next
    | with_reducible intro _
    | with_reducible apply State.modeWrite_keeps

theorem execModeReqPendingCheck_completes (s : State) :
    Completes [.regs, .stage, .hold, .out, .free, .req, .trigs, .frames, .ports, .doms, .flt, .trunks, .node, .pipes, .gload, .cls, .emem, .funcs, .qps, .binds, .admin, .mem, .dmas] s (execModeReqPendingCheck s) := by
  unfold execModeReqPendingCheck
  repeat' first
    | with_reducible assumption
    | exact Allows.mono (by decide) (Allows.refl _)
    | with_reducible exact Keeps.refl _
    | with_reducible apply Completes.next
    | with_reducible apply State.fset_keeps
    | with_reducible apply State.modeCheck_keeps
    | with_reducible apply State.setReq_keeps
    | refine Keeps.snd ?_ (by assumption)
    | refine Keeps.snd2 ?_ (by assumption)
    | split

theorem execBistDone_completes (bad : List Nat) (s : State) :
    Completes [.regs, .mem] s (execBistDone bad s) := by
  unfold execBistDone
  repeat' first
    | with_reducible assumption
    | exact Allows.mono (by decide) (Allows.refl _)
    | with_reducible exact Keeps.refl _
    | with_reducible apply Completes.next
    | with_reducible intro _
    | with_reducible apply forEach_keeps
    | with_reducible apply State.fsets_keeps
    | with_reducible apply State.markRetired_keeps
    | with_reducible apply State.raise_keeps
    | with_reducible apply Keeps.forEach
    | with_reducible apply Keeps.ite
    | with_reducible apply Completes.ite

theorem execEnterOperate_completes (s : State) :
    Completes [.regs, .out, .free, .trigs, .flt, .trunks, .node, .gload, .cls, .funcs] s (execEnterOperate s) := by
  unfold execEnterOperate
  repeat' first
    | with_reducible assumption
    | exact Allows.mono (by decide) (Allows.refl _)
    | with_reducible exact Keeps.refl _
    | with_reducible apply Completes.next
    | with_reducible apply State.fixDegraded_keeps
    | with_reducible apply State.setMode_keeps
    | with_reducible apply Keeps.ite
    | with_reducible apply Completes.ite

theorem execHeartbeatSend_completes (h : Nat) (s : State) :
    Completes [.halves] s (execHeartbeatSend h s) := by
  unfold execHeartbeatSend
  repeat' first
    | with_reducible assumption
    | exact Allows.mono (by decide) (Allows.refl _)
    | with_reducible exact Keeps.refl _
    | with_reducible apply Completes.next
    | with_reducible apply State.setHalf_keeps
    | with_reducible apply Keeps.ite
    | with_reducible apply Completes.ite

theorem execHeartbeatReceive_completes (spine : Bool) (h : Nat) (s : State) :
    Completes [.regs, .out, .free, .halves, .settle, .tbs, .gens, .trigs, .frames, .ports, .flt, .trunks, .node, .pipes, .gload, .cls, .emem, .funcs, .qps, .mem] s (execHeartbeatReceive spine h s) := by
  unfold execHeartbeatReceive
  repeat' first
    | with_reducible assumption
    | exact Allows.mono (by decide) (Allows.refl _)
    | with_reducible exact Keeps.refl _
    | with_reducible apply Completes.next
    | with_reducible apply State.fset_keeps
    | with_reducible apply State.lostCheck_keeps
    | with_reducible apply State.setHalf_keeps
    | with_reducible apply State.setSettle_keeps
    | with_reducible apply State.spineUp_keeps
    | with_reducible apply Keeps.ite
    | with_reducible apply Completes.ite

theorem execLinkGlitch_completes (spine : Bool) (h : Nat) (s : State) :
    Completes [.regs, .halves] s (execLinkGlitch h s spine) := by
  unfold execLinkGlitch
  repeat' first
    | with_reducible assumption
    | exact Allows.mono (by decide) (Allows.refl _)
    | with_reducible exact Keeps.refl _
    | with_reducible apply Completes.next
    | with_reducible apply State.setFlag_keeps
    | with_reducible apply State.setHalf_keeps
    | with_reducible apply Keeps.ite
    | with_reducible apply Completes.ite

theorem execHalfLinkLoss_completes (h : Nat) (s : State) :
    Completes [.regs, .out, .free, .halves, .settle, .tbs, .trigs, .frames, .ports, .flt, .trunks, .node, .pipes, .gload, .cls, .emem, .funcs, .qps, .mem, .dmas] s (execHalfLinkLoss h s) := by
  unfold execHalfLinkLoss
  repeat' first
    | with_reducible assumption
    | exact Allows.mono (by decide) (Allows.refl _)
    | with_reducible exact Keeps.refl _
    | with_reducible apply Completes.next
    | with_reducible intro _
    | with_reducible apply State.commitFail_keeps
    | with_reducible apply State.degradeHalf_keeps
    | with_reducible apply State.dropFollow_keeps
    | with_reducible apply State.endLoad_keeps
    | with_reducible apply State.fixDegraded_keeps
    | with_reducible apply State.fset_keeps
    | with_reducible apply State.halfSafehold_keeps
    | with_reducible apply State.logFault_keeps
    | with_reducible apply State.setHalf_keeps
    | with_reducible apply State.setLost_keeps
    | with_reducible apply State.setSettle_keeps
    | with_reducible apply State.splitGear_keeps
    | with_reducible apply State.takeLead_keeps
    | with_reducible apply Keeps.ite
    | with_reducible apply Completes.ite

theorem execLeaderSettlement_completes (s : State) :
    Completes [.regs, .out, .free, .halves, .settle, .tbs, .trigs, .frames, .ports, .flt, .trunks, .node, .pipes, .gload, .cls, .emem, .funcs, .qps, .mem, .dmas] s (execLeaderSettlement s) := by
  unfold execLeaderSettlement
  repeat' first
    | with_reducible assumption
    | exact Allows.mono (by decide) (Allows.refl _)
    | with_reducible exact Keeps.refl _
    | with_reducible apply Completes.next
    | with_reducible apply State.enterSafehold_keeps
    | with_reducible apply State.fset_keeps
    | with_reducible apply State.fsets_keeps
    | with_reducible apply State.leadCourses_keeps
    | with_reducible apply State.leadEvent_keeps
    | with_reducible apply State.setHalf_keeps
    | with_reducible apply State.setMode_keeps
    | with_reducible apply State.setSettle_keeps
    | with_reducible apply Keeps.ite
    | with_reducible apply Completes.ite

theorem execStateCopyDone_completes (h : Nat) (s : State) :
    Completes [.regs, .out, .free, .halves, .tbs, .pps, .gens, .trigs, .flt, .trunks, .node, .gload, .cls, .funcs] s (execStateCopyDone h s) := by
  unfold execStateCopyDone
  repeat' first
    | with_reducible assumption
    | exact Allows.mono (by decide) (Allows.refl _)
    | with_reducible exact Keeps.refl _
    | with_reducible apply Completes.next
    | with_reducible apply State.copyGear_keeps
    | with_reducible apply State.fsets_keeps
    | with_reducible apply State.lostCheck_keeps
    | with_reducible apply State.newTime_keeps
    | with_reducible apply State.setHalf_keeps
    | with_reducible apply State.setHalfMode_keeps
    | with_reducible apply State.wr_keeps
    | with_reducible apply Keeps.ite
    | with_reducible apply Completes.ite

theorem execTableCopyDone_completes (h : Nat) (s : State) :
    Completes [.regs, .out, .free, .halves, .trigs, .flt, .trunks, .node, .graph, .gload, .cls, .ems, .funcs] s (execTableCopyDone h s) := by
  unfold execTableCopyDone
  repeat' first
    | with_reducible assumption
    | exact Allows.mono (by decide) (Allows.refl _)
    | with_reducible exact Keeps.refl _
    | with_reducible apply Completes.next
    | with_reducible intro _
    | with_reducible apply forEach_keeps
    | with_reducible apply State.fset_keeps
    | with_reducible apply State.lostCheck_keeps
    | with_reducible apply State.setEm_keeps
    | with_reducible apply State.setGraph_keeps
    | with_reducible apply State.setHalf_keeps
    | with_reducible apply State.showCourses_keeps
    | with_reducible apply State.wr_keeps
    | with_reducible apply Keeps.forEach
    | with_reducible apply Keeps.foldl
    | with_reducible apply Keeps.foldl2
    | with_reducible apply Keeps.ite
    | with_reducible apply Completes.ite

theorem execSpineLinkLoss_completes (h : Nat) (s : State) :
    Completes [.regs, .out, .free, .halves, .tbs, .trigs, .frames, .ports, .flt, .trunks, .node, .pipes, .gload, .cls, .threads, .emem, .funcs, .qps, .mem, .dmas] s (execSpineLinkLoss h s) := by
  unfold execSpineLinkLoss
  repeat' first
    | with_reducible assumption
    | exact Allows.mono (by decide) (Allows.refl _)
    | with_reducible exact Keeps.refl _
    | with_reducible apply Completes.next
    | with_reducible intro _
    | with_reducible apply State.enterSafehold_keeps
    | with_reducible apply State.fixDegraded_keeps
    | with_reducible apply State.fset_keeps
    | with_reducible apply State.logFault_keeps
    | with_reducible apply State.loseHalfBanks_keeps
    | with_reducible apply State.safeholdHalf_keeps
    | with_reducible apply State.setHalf_keeps
    | with_reducible apply State.setHalfMode_keeps
    | with_reducible apply State.setLost_keeps
    | with_reducible apply State.sfUpdate_keeps
    | with_reducible apply State.takeLead_keeps
    | with_reducible apply Keeps.ite
    | with_reducible apply Completes.ite
    | refine Keeps.snd ?_ (by assumption)
    | refine Keeps.snd2 ?_ (by assumption)
    | (lift_lets; intro x; clear_value x)
    | with_reducible apply hx
    | split

theorem execClockLoss_completes (trunk : Bool) (n : Nat) (tx : Bool) (s : State) :
    Completes [.regs, .out, .free, .trigs, .frames, .ports, .flt, .trunks, .node, .pipes, .gload, .cls, .emem, .funcs, .qps, .mem, .dmas] s (execClockLoss trunk n s tx) := by
  unfold execClockLoss
  repeat' first
    | with_reducible assumption
    | exact Allows.mono (by decide) (Allows.refl _)
    | with_reducible exact Keeps.refl _
    | with_reducible apply Completes.next
    | with_reducible apply State.fixDegraded_keeps
    | with_reducible apply State.fset_keeps
    | with_reducible apply State.logFault_keeps
    | with_reducible apply State.raisePort_keeps
    | with_reducible apply State.setFlag_keeps
    | with_reducible apply State.setLost_keeps
    | with_reducible apply State.setPort_keeps
    | with_reducible apply State.setTrunk_keeps
    | with_reducible apply State.sfUpdate_keeps
    | with_reducible apply Keeps.ite
    | with_reducible apply Completes.ite

theorem execClockReturn_completes (trunk : Bool) (n : Nat) (tx : Bool) (s : State) :
    Completes [.regs, .out, .free, .trigs, .ports, .flt, .trunks, .node, .gload, .cls, .funcs] s (execClockReturn trunk n s tx) := by
  unfold execClockReturn
  repeat' first
    | with_reducible assumption
    | exact Allows.mono (by decide) (Allows.refl _)
    | with_reducible exact Keeps.refl _
    | with_reducible apply Completes.next
    | with_reducible apply State.fixDegraded_keeps
    | with_reducible apply State.setLost_keeps
    | with_reducible apply State.setPort_keeps
    | with_reducible apply State.setTrunk_keeps
    | with_reducible apply State.sfUpdate_keeps
    | with_reducible apply Keeps.ite
    | with_reducible apply Completes.ite

theorem execPwrFailWarn_completes (s : State) :
    Completes [.regs, .out, .free, .trigs, .ports, .latches, .gasp, .dic, .flt, .trunks, .node, .gload, .cls, .funcs] s (execPwrFailWarn s) := by
  unfold execPwrFailWarn
  repeat' first
    | with_reducible assumption
    | exact Allows.mono (by decide) (Allows.refl _)
    | with_reducible exact Keeps.refl _
    | with_reducible apply Completes.next
    | with_reducible intro _
    | with_reducible apply State.fixDegraded_keeps
    | with_reducible apply forEach_keeps
    | with_reducible apply State.fset_keeps
    | with_reducible apply State.gaspCheck_keeps
    | with_reducible apply State.gaspCommit_keeps
    | with_reducible apply State.raiseAon_keeps
    | with_reducible apply State.setGasp_keeps
    | with_reducible apply State.setPort_keeps
    | with_reducible apply State.sfUpdate_keeps
    | with_reducible apply Keeps.forEach
    | with_reducible apply Keeps.ite
    | with_reducible apply Completes.ite

theorem execCounterClear_completes (fn : Nat) (off : Nat) (s : State) :
    Completes (byFn fn [.regs, .slv]) s (execCounterClear fn off s) := by
  unfold execCounterClear
  repeat' first
    | with_reducible assumption
    | exact Allows.mono (by decide) (Allows.refl _)
    | with_reducible exact Keeps.refl _
    | with_reducible apply Completes.access
    | with_reducible apply Completes.next
    | with_reducible intro _
    | with_reducible apply State.clearCounters_keeps

theorem execRegisterWrite_completes (fn : Nat) (off : Nat) (size : Nat) (data : BitVec 64) (s : State) :
    Completes [.regs, .stage, .hold, .slv, .out, .free, .req, .halves, .settle, .tbs, .pps, .gens, .trigs, .frames, .ports, .taken, .latches, .doms, .gasp, .dic, .flt, .trunks, .slots, .node, .pipes, .graph, .gload, .cls, .ems, .threads, .wheel, .emem, .splices, .funcs, .qps, .binds, .admin, .mem, .chks, .dmas] s (execRegisterWrite fn off size data s) := by
  unfold execRegisterWrite
  repeat' first
    | with_reducible assumption
    | exact Allows.mono (by decide) (Allows.refl _)
    | with_reducible exact Keeps.refl _
    | with_reducible apply Completes.next
    | with_reducible apply State.busWrite_keeps

theorem execCounterLatchRead_completes (fn : Nat) (off : Nat) (size : Nat) (s : State) :
    Completes [.regs, .hold, .slv, .out, .free, .trigs, .frames, .ports, .flt, .trunks, .node, .pipes, .gload, .cls, .emem, .funcs, .qps, .mem, .dmas] s (execCounterLatchRead fn off size s) := by
  unfold execCounterLatchRead
  repeat' first
    | with_reducible assumption
    | exact Allows.mono (by decide) (Allows.refl _)
    | with_reducible exact Keeps.refl _
    | with_reducible apply Completes.next
    | with_reducible apply State.busRead_keeps

theorem execReadTimeout_completes (off : Nat) (s : State) :
    Completes [.slv] s (execReadTimeout off s) := by
  unfold execReadTimeout
  repeat' first
    | with_reducible assumption
    | exact Allows.mono (by decide) (Allows.refl _)
    | with_reducible exact Keeps.refl _
    | with_reducible apply Completes.next
    | with_reducible apply State.deny_keeps
    | with_reducible apply Keeps.ite
    | with_reducible apply Completes.ite
    | refine Keeps.snd ?_ (by assumption)
    | refine Keeps.snd2 ?_ (by assumption)
    | split

end Sys2Proof.Machine
end

