-- ==== Sys2Proof/Laws/Fields.lean ====
section
/-!
SUPPORT. Fields of register words: reading a field after writing one, and what raising an interrupt source leaves alone.
-/
set_option Elab.async false
namespace Sys2Proof.Machine

/-- Bit `i` of a field of a word. -/
theorem testBit_getBits (w : Word) (lo wd i : Nat) :
    (getBits w lo wd).testBit i = (decide (i < wd) && w.getLsbD (lo + i)) := by
  simp [getBits, Nat.testBit_mod_two_pow, Nat.testBit_shiftRight, BitVec.testBit_toNat]

/-- Bit `i` of a word in which a field has been replaced. -/
theorem getLsbD_setBits (w : Word) (lo wd v i : Nat) :
    (setBits w lo wd v).getLsbD i =
      if lo ≤ i ∧ i < lo + wd then decide (i < 32) && v.testBit (i - lo) else w.getLsbD i := by
  simp only [setBits, maskBits, BitVec.getLsbD_or, BitVec.getLsbD_and, BitVec.getLsbD_not, BitVec.getLsbD_ofNat,
    Nat.testBit_shiftLeft, Nat.testBit_two_pow_sub_one, Nat.testBit_mod_two_pow]
  by_cases h3 : i < 32
  · by_cases h1 : lo ≤ i
    · have h4 : (i - lo < wd) ↔ (i < lo + wd) := by omega
      by_cases h2 : i < lo + wd <;> simp [h1, h2, h3, h4]
    · simp [h1, h3]
  · have := BitVec.getLsbD_of_ge w i (by omega)
    simp [h3, this]

/-- A field just replaced. -/
theorem getBits_setBits_self (w : Word) {lo wd : Nat} (v : Nat) (h : lo + wd ≤ 32) :
    getBits (setBits w lo wd v) lo wd = v % 2 ^ wd := by
  apply Nat.eq_of_testBit_eq
  intro i
  rw [testBit_getBits, getLsbD_setBits, Nat.testBit_mod_two_pow]
  by_cases hi : i < wd
  · simp [hi, show lo + i < 32 by omega]
  · simp [hi]

/-- A field beside one that has been replaced. -/
theorem getBits_setBits_ne (w : Word) {lo wd lo' wd' : Nat} (v : Nat) (h : lo + wd ≤ lo' ∨ lo' + wd' ≤ lo) :
    getBits (setBits w lo wd v) lo' wd' = getBits w lo' wd' := by
  apply Nat.eq_of_testBit_eq
  intro i
  rw [testBit_getBits, testBit_getBits, getLsbD_setBits]
  by_cases hi : i < wd'
  · rw [if_neg (by omega)]
  · simp [hi]

/-- A field just set. -/
theorem State.fget_fset_self (s : State) (f : Fld) (v : Nat) (h : f.lo + f.wd ≤ 32) :
    (s.fset f v).fget f = v % 2 ^ f.wd := by
  unfold State.fget State.fset
  rw [State.rd_wr_self, getBits_setBits_self _ _ h]

/-- A field of another word, or beside the field set. -/
theorem State.fget_fset_ne (s : State) (f g : Fld) (v : Nat)
    (h : g.off ≠ f.off ∨ f.lo + f.wd ≤ g.lo ∨ g.lo + g.wd ≤ f.lo) : (s.fset f v).fget g = s.fget g := by
  unfold State.fget State.fset
  by_cases e : g.off = f.off
  · rw [e, State.rd_wr_self, getBits_setBits_ne _ _ (by tauto)]
  · rw [State.rd_wr_ne _ _ e]

/-- A field depends on the register words alone. -/
theorem State.fget_congr {s t : State} (h1 : t.cfg = s.cfg) (h2 : t.regs = s.regs) (f : Fld) : t.fget f = s.fget f := by
  unfold State.fget
  rw [State.rd_congr h1 h2]

/-- A flag depends on the register words alone. -/
theorem State.flag_congr {s t : State} (h1 : t.cfg = s.cfg) (h2 : t.regs = s.regs) (f : Fld) : t.flag f = s.flag f := by
  unfold State.flag
  rw [State.fget_congr h1 h2]

/-- A field's value fits its width. -/
theorem State.fget_lt (s : State) (f : Fld) : s.fget f < 2 ^ f.wd := Nat.mod_lt _ (Nat.two_pow_pos _)

/-- A flag just set. -/
theorem State.flag_fset_self (s : State) (f : Fld) (v : Nat) (h : f.lo + f.wd ≤ 32) :
    (s.fset f v).flag f = decide (v % 2 ^ f.wd ≠ 0) := by simp only [State.flag, s.fget_fset_self f v h]

/-- A flag of another word, or beside the field set. -/
theorem State.flag_fset_ne (s : State) (f g : Fld) (v : Nat)
    (h : g.off ≠ f.off ∨ f.lo + f.wd ≤ g.lo ∨ g.lo + g.wd ≤ f.lo) : (s.fset f v).flag g = s.flag g := by
  simp only [State.flag, s.fget_fset_ne f g v h]

/-- Several fields, one by one. -/
@[simp] theorem State.fsets_nil (s : State) : s.fsets [] = s := by simp only [State.fsets, List.foldl_nil]
@[simp] theorem State.fsets_cons (s : State) (p : Fld × Nat) (l : List (Fld × Nat)) :
    s.fsets (p :: l) = (s.fset p.1 p.2).fsets l := by simp only [State.fsets, List.foldl_cons]

/-- A slave access that is carried out answers the next state it computes. -/
theorem State.Reaches.next {s : State} {off key : Nat} (h : s.Reaches off key) {f : Nat → State → State}
    {p : State → Prop} (hp : p (f key (s.answer false 0))) :
    ∃ t, (.next (s.access 0 off f) : Host.Outcome State Fault Refusal) = .next t ∧ p t :=
  ⟨_, rfl, by rw [h.access]; exact hp⟩

/-- A slave write that is carried out answers the next state it computes. -/
theorem State.Opens.next {s : State} {off key : Nat} (h : s.Opens off key) {data : Word} {f : Nat → State → State}
    {p : State → Prop} (hp : p (f key (s.answer false 0))) :
    ∃ t, (.next (s.writeAcc 0 off data f) : Host.Outcome State Fault Refusal) = .next t ∧ p t :=
  ⟨_, rfl, by rw [h.writeAcc]; exact hp⟩

@[simp] theorem State.fget_answer (s : State) (e : Bool) (d : Nat) (f : Fld) : (s.answer e d).fget f = s.fget f :=
  State.fget_congr rfl rfl _
@[simp] theorem State.flag_answer (s : State) (e : Bool) (d : Nat) (f : Fld) : (s.answer e d).flag f = s.flag f :=
  State.flag_congr rfl rfl _

/-- Raising a source leaves every word but its pending word. -/
theorem State.rd_raise_ne (s : State) (n : Nat) {k : Nat} (h : k ≠ O.IRQ_PEND (n / 32)) : (s.raise n).rd k = s.rd k := by
  unfold State.raise
  split
  · exact s.rd_fset_ne _ _ h
  · rfl

/-- Raising a source leaves every word outside the pending words. -/
theorem State.rd_raise (s : State) (n : Nat) {k : Nat} (h : k < O.IRQ_PEND 0 ∨ O.IRQ_PEND 32 ≤ k) (hs : n < 1024) :
    (s.raise n).rd k = s.rd k := by
  apply s.rd_raise_ne
  simp only [O.IRQ_PEND] at *
  omega

/-- A field outside the pending words after a source has been raised. -/
theorem State.fget_raise (s : State) (n : Nat) (f : Fld) (h : f.off < O.IRQ_PEND 0 ∨ O.IRQ_PEND 32 ≤ f.off)
    (hs : n < 1024) : (s.raise n).fget f = s.fget f := by
  unfold State.fget
  rw [s.rd_raise n h hs]

/-- Raising a source the configuration has sets its pending bit. -/
theorem State.flag_raise_self (s : State) (n : Nat) (h : n < s.cfg.irqSources) : (s.raise n).flag (pendFld n) = true := by
  unfold State.flag State.raise
  rw [if_pos h, State.fget_fset_self _ _ _ (by simp [pendFld]; omega)]
  simp [pendFld]

end Sys2Proof.Machine
end

