-- ==== Sys2Proof/Laws/Views.lean ====
section
/-!
SUPPORT. Words and fields of registers through the other setters, the other pieces of State through register writes, and
the views of the maps: what a replaced unit reads as, and that the others stay.
-/
set_option Elab.async false
namespace Sys2Proof.Machine

/-! ### Register words through the setters of other pieces -/

@[simp] theorem State.rd_setPending (s : State) (v : List Instr) (k : Nat) : (s.setPending v).rd k = s.rd k := State.rd_congr rfl rfl _
@[simp] theorem State.fget_setPending (s : State) (v : List Instr) (f : Fld) : (s.setPending v).fget f = s.fget f := State.fget_congr rfl rfl _
@[simp] theorem State.flag_setPending (s : State) (v : List Instr) (f : Fld) : (s.setPending v).flag f = s.flag f := State.flag_congr rfl rfl _
@[simp] theorem State.rd_setStage (s : State) (v : KMap Word) (k : Nat) : (s.setStage v).rd k = s.rd k := State.rd_congr rfl rfl _
@[simp] theorem State.fget_setStage (s : State) (v : KMap Word) (f : Fld) : (s.setStage v).fget f = s.fget f := State.fget_congr rfl rfl _
@[simp] theorem State.flag_setStage (s : State) (v : KMap Word) (f : Fld) : (s.setStage v).flag f = s.flag f := State.flag_congr rfl rfl _
@[simp] theorem State.rd_setHold (s : State) (v : KMap Word) (k : Nat) : (s.setHold v).rd k = s.rd k := State.rd_congr rfl rfl _
@[simp] theorem State.fget_setHold (s : State) (v : KMap Word) (f : Fld) : (s.setHold v).fget f = s.fget f := State.fget_congr rfl rfl _
@[simp] theorem State.flag_setHold (s : State) (v : KMap Word) (f : Fld) : (s.setHold v).flag f = s.flag f := State.flag_congr rfl rfl _
@[simp] theorem State.rd_setSlv (s : State) (v : Option Slv) (k : Nat) : (s.setSlv v).rd k = s.rd k := State.rd_congr rfl rfl _
@[simp] theorem State.fget_setSlv (s : State) (v : Option Slv) (f : Fld) : (s.setSlv v).fget f = s.fget f := State.fget_congr rfl rfl _
@[simp] theorem State.flag_setSlv (s : State) (v : Option Slv) (f : Fld) : (s.setSlv v).flag f = s.flag f := State.flag_congr rfl rfl _
@[simp] theorem State.rd_setOut (s : State) (v : List Out) (k : Nat) : (s.setOut v).rd k = s.rd k := State.rd_congr rfl rfl _
@[simp] theorem State.fget_setOut (s : State) (v : List Out) (f : Fld) : (s.setOut v).fget f = s.fget f := State.fget_congr rfl rfl _
@[simp] theorem State.flag_setOut (s : State) (v : List Out) (f : Fld) : (s.setOut v).flag f = s.flag f := State.flag_congr rfl rfl _
@[simp] theorem State.rd_setTicks (s : State) (v : Nat) (k : Nat) : (s.setTicks v).rd k = s.rd k := State.rd_congr rfl rfl _
@[simp] theorem State.fget_setTicks (s : State) (v : Nat) (f : Fld) : (s.setTicks v).fget f = s.fget f := State.fget_congr rfl rfl _
@[simp] theorem State.flag_setTicks (s : State) (v : Nat) (f : Fld) : (s.setTicks v).flag f = s.flag f := State.flag_congr rfl rfl _
@[simp] theorem State.rd_setFree (s : State) (v : Nat) (k : Nat) : (s.setFree v).rd k = s.rd k := State.rd_congr rfl rfl _
@[simp] theorem State.fget_setFree (s : State) (v : Nat) (f : Fld) : (s.setFree v).fget f = s.fget f := State.fget_congr rfl rfl _
@[simp] theorem State.flag_setFree (s : State) (v : Nat) (f : Fld) : (s.setFree v).flag f = s.flag f := State.flag_congr rfl rfl _
@[simp] theorem State.rd_setRst (s : State) (v : Resets) (k : Nat) : (s.setRst v).rd k = s.rd k := State.rd_congr rfl rfl _
@[simp] theorem State.fget_setRst (s : State) (v : Resets) (f : Fld) : (s.setRst v).fget f = s.fget f := State.fget_congr rfl rfl _
@[simp] theorem State.flag_setRst (s : State) (v : Resets) (f : Fld) : (s.setRst v).flag f = s.flag f := State.flag_congr rfl rfl _
@[simp] theorem State.rd_setReq (s : State) (v : Option ModeReq) (k : Nat) : (s.setReq v).rd k = s.rd k := State.rd_congr rfl rfl _
@[simp] theorem State.fget_setReq (s : State) (v : Option ModeReq) (f : Fld) : (s.setReq v).fget f = s.fget f := State.fget_congr rfl rfl _
@[simp] theorem State.flag_setReq (s : State) (v : Option ModeReq) (f : Fld) : (s.setReq v).flag f = s.flag f := State.flag_congr rfl rfl _
@[simp] theorem State.rd_setHalves (s : State) (v : KMap HalfSt) (k : Nat) : (s.setHalves v).rd k = s.rd k := State.rd_congr rfl rfl _
@[simp] theorem State.fget_setHalves (s : State) (v : KMap HalfSt) (f : Fld) : (s.setHalves v).fget f = s.fget f := State.fget_congr rfl rfl _
@[simp] theorem State.flag_setHalves (s : State) (v : KMap HalfSt) (f : Fld) : (s.setHalves v).flag f = s.flag f := State.flag_congr rfl rfl _
@[simp] theorem State.rd_setSettle (s : State) (v : Bool) (k : Nat) : (s.setSettle v).rd k = s.rd k := State.rd_congr rfl rfl _
@[simp] theorem State.fget_setSettle (s : State) (v : Bool) (f : Fld) : (s.setSettle v).fget f = s.fget f := State.fget_congr rfl rfl _
@[simp] theorem State.flag_setSettle (s : State) (v : Bool) (f : Fld) : (s.setSettle v).flag f = s.flag f := State.flag_congr rfl rfl _
@[simp] theorem State.rd_setTbs (s : State) (v : KMap TimeBase) (k : Nat) : (s.setTbs v).rd k = s.rd k := State.rd_congr rfl rfl _
@[simp] theorem State.fget_setTbs (s : State) (v : KMap TimeBase) (f : Fld) : (s.setTbs v).fget f = s.fget f := State.fget_congr rfl rfl _
@[simp] theorem State.flag_setTbs (s : State) (v : KMap TimeBase) (f : Fld) : (s.setTbs v).flag f = s.flag f := State.flag_congr rfl rfl _
@[simp] theorem State.rd_setPps (s : State) (v : Pps) (k : Nat) : (s.setPps v).rd k = s.rd k := State.rd_congr rfl rfl _
@[simp] theorem State.fget_setPps (s : State) (v : Pps) (f : Fld) : (s.setPps v).fget f = s.fget f := State.fget_congr rfl rfl _
@[simp] theorem State.flag_setPps (s : State) (v : Pps) (f : Fld) : (s.setPps v).flag f = s.flag f := State.flag_congr rfl rfl _
@[simp] theorem State.rd_setGens (s : State) (v : KMap Gen) (k : Nat) : (s.setGens v).rd k = s.rd k := State.rd_congr rfl rfl _
@[simp] theorem State.fget_setGens (s : State) (v : KMap Gen) (f : Fld) : (s.setGens v).fget f = s.fget f := State.fget_congr rfl rfl _
@[simp] theorem State.flag_setGens (s : State) (v : KMap Gen) (f : Fld) : (s.setGens v).flag f = s.flag f := State.flag_congr rfl rfl _
@[simp] theorem State.rd_setTrigs (s : State) (v : KMap Trig) (k : Nat) : (s.setTrigs v).rd k = s.rd k := State.rd_congr rfl rfl _
@[simp] theorem State.fget_setTrigs (s : State) (v : KMap Trig) (f : Fld) : (s.setTrigs v).fget f = s.fget f := State.fget_congr rfl rfl _
@[simp] theorem State.flag_setTrigs (s : State) (v : KMap Trig) (f : Fld) : (s.setTrigs v).flag f = s.flag f := State.flag_congr rfl rfl _
@[simp] theorem State.rd_setFrames (s : State) (v : KMap Frame) (k : Nat) : (s.setFrames v).rd k = s.rd k := State.rd_congr rfl rfl _
@[simp] theorem State.fget_setFrames (s : State) (v : KMap Frame) (f : Fld) : (s.setFrames v).fget f = s.fget f := State.fget_congr rfl rfl _
@[simp] theorem State.flag_setFrames (s : State) (v : KMap Frame) (f : Fld) : (s.setFrames v).flag f = s.flag f := State.flag_congr rfl rfl _
@[simp] theorem State.rd_setNextFrame (s : State) (v : Nat) (k : Nat) : (s.setNextFrame v).rd k = s.rd k := State.rd_congr rfl rfl _
@[simp] theorem State.fget_setNextFrame (s : State) (v : Nat) (f : Fld) : (s.setNextFrame v).fget f = s.fget f := State.fget_congr rfl rfl _
@[simp] theorem State.flag_setNextFrame (s : State) (v : Nat) (f : Fld) : (s.setNextFrame v).flag f = s.flag f := State.flag_congr rfl rfl _
@[simp] theorem State.rd_setPorts (s : State) (v : KMap Port) (k : Nat) : (s.setPorts v).rd k = s.rd k := State.rd_congr rfl rfl _
@[simp] theorem State.fget_setPorts (s : State) (v : KMap Port) (f : Fld) : (s.setPorts v).fget f = s.fget f := State.fget_congr rfl rfl _
@[simp] theorem State.flag_setPorts (s : State) (v : KMap Port) (f : Fld) : (s.setPorts v).flag f = s.flag f := State.flag_congr rfl rfl _
@[simp] theorem State.rd_setTaken (s : State) (v : KMap Nat) (k : Nat) : (s.setTaken v).rd k = s.rd k := State.rd_congr rfl rfl _
@[simp] theorem State.fget_setTaken (s : State) (v : KMap Nat) (f : Fld) : (s.setTaken v).fget f = s.fget f := State.fget_congr rfl rfl _
@[simp] theorem State.flag_setTaken (s : State) (v : KMap Nat) (f : Fld) : (s.setTaken v).flag f = s.flag f := State.flag_congr rfl rfl _
@[simp] theorem State.rd_setLatches (s : State) (v : AonLatch) (k : Nat) : (s.setLatches v).rd k = s.rd k := State.rd_congr rfl rfl _
@[simp] theorem State.fget_setLatches (s : State) (v : AonLatch) (f : Fld) : (s.setLatches v).fget f = s.fget f := State.fget_congr rfl rfl _
@[simp] theorem State.flag_setLatches (s : State) (v : AonLatch) (f : Fld) : (s.setLatches v).flag f = s.flag f := State.flag_congr rfl rfl _
@[simp] theorem State.rd_setDoms (s : State) (v : KMap DomSt) (k : Nat) : (s.setDoms v).rd k = s.rd k := State.rd_congr rfl rfl _
@[simp] theorem State.fget_setDoms (s : State) (v : KMap DomSt) (f : Fld) : (s.setDoms v).fget f = s.fget f := State.fget_congr rfl rfl _
@[simp] theorem State.flag_setDoms (s : State) (v : KMap DomSt) (f : Fld) : (s.setDoms v).flag f = s.flag f := State.flag_congr rfl rfl _
@[simp] theorem State.rd_setGasp (s : State) (v : Option Gasp) (k : Nat) : (s.setGasp v).rd k = s.rd k := State.rd_congr rfl rfl _
@[simp] theorem State.fget_setGasp (s : State) (v : Option Gasp) (f : Fld) : (s.setGasp v).fget f = s.fget f := State.fget_congr rfl rfl _
@[simp] theorem State.flag_setGasp (s : State) (v : Option Gasp) (f : Fld) : (s.setGasp v).flag f = s.flag f := State.flag_congr rfl rfl _
@[simp] theorem State.rd_setDic (s : State) (v : Dic) (k : Nat) : (s.setDic v).rd k = s.rd k := State.rd_congr rfl rfl _
@[simp] theorem State.fget_setDic (s : State) (v : Dic) (f : Fld) : (s.setDic v).fget f = s.fget f := State.fget_congr rfl rfl _
@[simp] theorem State.flag_setDic (s : State) (v : Dic) (f : Fld) : (s.setDic v).flag f = s.flag f := State.flag_congr rfl rfl _
@[simp] theorem State.rd_setFlt (s : State) (v : Flt) (k : Nat) : (s.setFlt v).rd k = s.rd k := State.rd_congr rfl rfl _
@[simp] theorem State.fget_setFlt (s : State) (v : Flt) (f : Fld) : (s.setFlt v).fget f = s.fget f := State.fget_congr rfl rfl _
@[simp] theorem State.flag_setFlt (s : State) (v : Flt) (f : Fld) : (s.setFlt v).flag f = s.flag f := State.flag_congr rfl rfl _
@[simp] theorem State.rd_setTrunks (s : State) (v : KMap Trunk) (k : Nat) : (s.setTrunks v).rd k = s.rd k := State.rd_congr rfl rfl _
@[simp] theorem State.fget_setTrunks (s : State) (v : KMap Trunk) (f : Fld) : (s.setTrunks v).fget f = s.fget f := State.fget_congr rfl rfl _
@[simp] theorem State.flag_setTrunks (s : State) (v : KMap Trunk) (f : Fld) : (s.setTrunks v).flag f = s.flag f := State.flag_congr rfl rfl _
@[simp] theorem State.rd_setSlots (s : State) (v : KMap Nat) (k : Nat) : (s.setSlots v).rd k = s.rd k := State.rd_congr rfl rfl _
@[simp] theorem State.fget_setSlots (s : State) (v : KMap Nat) (f : Fld) : (s.setSlots v).fget f = s.fget f := State.fget_congr rfl rfl _
@[simp] theorem State.flag_setSlots (s : State) (v : KMap Nat) (f : Fld) : (s.setSlots v).flag f = s.flag f := State.flag_congr rfl rfl _
@[simp] theorem State.rd_setNode (s : State) (v : Node) (k : Nat) : (s.setNode v).rd k = s.rd k := State.rd_congr rfl rfl _
@[simp] theorem State.fget_setNode (s : State) (v : Node) (f : Fld) : (s.setNode v).fget f = s.fget f := State.fget_congr rfl rfl _
@[simp] theorem State.flag_setNode (s : State) (v : Node) (f : Fld) : (s.setNode v).flag f = s.flag f := State.flag_congr rfl rfl _
@[simp] theorem State.rd_setPipes (s : State) (v : KMap Pipe) (k : Nat) : (s.setPipes v).rd k = s.rd k := State.rd_congr rfl rfl _
@[simp] theorem State.fget_setPipes (s : State) (v : KMap Pipe) (f : Fld) : (s.setPipes v).fget f = s.fget f := State.fget_congr rfl rfl _
@[simp] theorem State.flag_setPipes (s : State) (v : KMap Pipe) (f : Fld) : (s.setPipes v).flag f = s.flag f := State.flag_congr rfl rfl _
@[simp] theorem State.rd_setGraph (s : State) (v : KMap Word) (k : Nat) : (s.setGraph v).rd k = s.rd k := State.rd_congr rfl rfl _
@[simp] theorem State.fget_setGraph (s : State) (v : KMap Word) (f : Fld) : (s.setGraph v).fget f = s.fget f := State.fget_congr rfl rfl _
@[simp] theorem State.flag_setGraph (s : State) (v : KMap Word) (f : Fld) : (s.setGraph v).flag f = s.flag f := State.flag_congr rfl rfl _
@[simp] theorem State.rd_setGload (s : State) (v : Option GLoad) (k : Nat) : (s.setGload v).rd k = s.rd k := State.rd_congr rfl rfl _
@[simp] theorem State.fget_setGload (s : State) (v : Option GLoad) (f : Fld) : (s.setGload v).fget f = s.fget f := State.fget_congr rfl rfl _
@[simp] theorem State.flag_setGload (s : State) (v : Option GLoad) (f : Fld) : (s.setGload v).flag f = s.flag f := State.flag_congr rfl rfl _
@[simp] theorem State.rd_setCls (s : State) (v : Cls) (k : Nat) : (s.setCls v).rd k = s.rd k := State.rd_congr rfl rfl _
@[simp] theorem State.fget_setCls (s : State) (v : Cls) (f : Fld) : (s.setCls v).fget f = s.fget f := State.fget_congr rfl rfl _
@[simp] theorem State.flag_setCls (s : State) (v : Cls) (f : Fld) : (s.setCls v).flag f = s.flag f := State.flag_congr rfl rfl _
@[simp] theorem State.rd_setEms (s : State) (v : KMap (List EmEnt)) (k : Nat) : (s.setEms v).rd k = s.rd k := State.rd_congr rfl rfl _
@[simp] theorem State.fget_setEms (s : State) (v : KMap (List EmEnt)) (f : Fld) : (s.setEms v).fget f = s.fget f := State.fget_congr rfl rfl _
@[simp] theorem State.flag_setEms (s : State) (v : KMap (List EmEnt)) (f : Fld) : (s.setEms v).flag f = s.flag f := State.flag_congr rfl rfl _
@[simp] theorem State.rd_setThreads (s : State) (v : KMap Thread) (k : Nat) : (s.setThreads v).rd k = s.rd k := State.rd_congr rfl rfl _
@[simp] theorem State.fget_setThreads (s : State) (v : KMap Thread) (f : Fld) : (s.setThreads v).fget f = s.fget f := State.fget_congr rfl rfl _
@[simp] theorem State.flag_setThreads (s : State) (v : KMap Thread) (f : Fld) : (s.setThreads v).flag f = s.flag f := State.flag_congr rfl rfl _
@[simp] theorem State.rd_setWheel (s : State) (v : KMap Nat) (k : Nat) : (s.setWheel v).rd k = s.rd k := State.rd_congr rfl rfl _
@[simp] theorem State.fget_setWheel (s : State) (v : KMap Nat) (f : Fld) : (s.setWheel v).fget f = s.fget f := State.fget_congr rfl rfl _
@[simp] theorem State.flag_setWheel (s : State) (v : KMap Nat) (f : Fld) : (s.setWheel v).flag f = s.flag f := State.flag_congr rfl rfl _
@[simp] theorem State.rd_setEmem (s : State) (v : KMap Byte) (k : Nat) : (s.setEmem v).rd k = s.rd k := State.rd_congr rfl rfl _
@[simp] theorem State.fget_setEmem (s : State) (v : KMap Byte) (f : Fld) : (s.setEmem v).fget f = s.fget f := State.fget_congr rfl rfl _
@[simp] theorem State.flag_setEmem (s : State) (v : KMap Byte) (f : Fld) : (s.setEmem v).flag f = s.flag f := State.flag_congr rfl rfl _
@[simp] theorem State.rd_setSplices (s : State) (v : List Splice) (k : Nat) : (s.setSplices v).rd k = s.rd k := State.rd_congr rfl rfl _
@[simp] theorem State.fget_setSplices (s : State) (v : List Splice) (f : Fld) : (s.setSplices v).fget f = s.fget f := State.fget_congr rfl rfl _
@[simp] theorem State.flag_setSplices (s : State) (v : List Splice) (f : Fld) : (s.setSplices v).flag f = s.flag f := State.flag_congr rfl rfl _
@[simp] theorem State.rd_setFuncs (s : State) (v : KMap Func) (k : Nat) : (s.setFuncs v).rd k = s.rd k := State.rd_congr rfl rfl _
@[simp] theorem State.fget_setFuncs (s : State) (v : KMap Func) (f : Fld) : (s.setFuncs v).fget f = s.fget f := State.fget_congr rfl rfl _
@[simp] theorem State.flag_setFuncs (s : State) (v : KMap Func) (f : Fld) : (s.setFuncs v).flag f = s.flag f := State.flag_congr rfl rfl _
@[simp] theorem State.rd_setQps (s : State) (v : KMap Qp) (k : Nat) : (s.setQps v).rd k = s.rd k := State.rd_congr rfl rfl _
@[simp] theorem State.fget_setQps (s : State) (v : KMap Qp) (f : Fld) : (s.setQps v).fget f = s.fget f := State.fget_congr rfl rfl _
@[simp] theorem State.flag_setQps (s : State) (v : KMap Qp) (f : Fld) : (s.setQps v).flag f = s.flag f := State.flag_congr rfl rfl _
@[simp] theorem State.rd_setBinds (s : State) (v : KMap Nat) (k : Nat) : (s.setBinds v).rd k = s.rd k := State.rd_congr rfl rfl _
@[simp] theorem State.fget_setBinds (s : State) (v : KMap Nat) (f : Fld) : (s.setBinds v).fget f = s.fget f := State.fget_congr rfl rfl _
@[simp] theorem State.flag_setBinds (s : State) (v : KMap Nat) (f : Fld) : (s.setBinds v).flag f = s.flag f := State.flag_congr rfl rfl _
@[simp] theorem State.rd_setAdmin (s : State) (v : Admin) (k : Nat) : (s.setAdmin v).rd k = s.rd k := State.rd_congr rfl rfl _
@[simp] theorem State.fget_setAdmin (s : State) (v : Admin) (f : Fld) : (s.setAdmin v).fget f = s.fget f := State.fget_congr rfl rfl _
@[simp] theorem State.flag_setAdmin (s : State) (v : Admin) (f : Fld) : (s.setAdmin v).flag f = s.flag f := State.flag_congr rfl rfl _
@[simp] theorem State.rd_setMem (s : State) (v : Mem) (k : Nat) : (s.setMem v).rd k = s.rd k := State.rd_congr rfl rfl _
@[simp] theorem State.fget_setMem (s : State) (v : Mem) (f : Fld) : (s.setMem v).fget f = s.fget f := State.fget_congr rfl rfl _
@[simp] theorem State.flag_setMem (s : State) (v : Mem) (f : Fld) : (s.setMem v).flag f = s.flag f := State.flag_congr rfl rfl _
@[simp] theorem State.rd_setChks (s : State) (v : KMap Chk) (k : Nat) : (s.setChks v).rd k = s.rd k := State.rd_congr rfl rfl _
@[simp] theorem State.fget_setChks (s : State) (v : KMap Chk) (f : Fld) : (s.setChks v).fget f = s.fget f := State.fget_congr rfl rfl _
@[simp] theorem State.flag_setChks (s : State) (v : KMap Chk) (f : Fld) : (s.setChks v).flag f = s.flag f := State.flag_congr rfl rfl _
@[simp] theorem State.rd_setDmas (s : State) (v : KMap Dma) (k : Nat) : (s.setDmas v).rd k = s.rd k := State.rd_congr rfl rfl _
@[simp] theorem State.fget_setDmas (s : State) (v : KMap Dma) (f : Fld) : (s.setDmas v).fget f = s.fget f := State.fget_congr rfl rfl _
@[simp] theorem State.flag_setDmas (s : State) (v : KMap Dma) (f : Fld) : (s.setDmas v).flag f = s.flag f := State.flag_congr rfl rfl _

/-! ### Other pieces through register writes -/

@[simp] theorem State.wr_cfg (s : State) (k : Nat) (v : Word) : (s.wr k v).cfg = s.cfg := s.setRegs_cfg _
@[simp] theorem State.fset_cfg (s : State) (f : Fld) (v : Nat) : (s.fset f v).cfg = s.cfg := s.wr_cfg _ _
@[simp] theorem State.wr64_cfg (s : State) (k v : Nat) : (s.wr64 k v).cfg = s.cfg :=
  (State.wr_cfg _ _ _).trans (s.wr_cfg _ _)
@[simp] theorem State.cntAdd_cfg (s : State) (k v : Nat) : (s.cntAdd k v).cfg = s.cfg := s.wr64_cfg _ _
@[simp] theorem State.raise_cfg (s : State) (k : Nat) : (s.raise k).cfg = s.cfg := by unfold State.raise; split <;> rfl
@[simp] theorem State.emit_cfg (s : State) (x : Out) : (s.emit x).cfg = s.cfg := rfl
@[simp] theorem State.answer_cfg (s : State) (e : Bool) (d : Nat) : (s.answer e d).cfg = s.cfg := rfl
@[simp] theorem State.wr_pending (s : State) (k : Nat) (v : Word) : (s.wr k v).pending = s.pending := s.setRegs_pending _
@[simp] theorem State.fset_pending (s : State) (f : Fld) (v : Nat) : (s.fset f v).pending = s.pending := s.wr_pending _ _
@[simp] theorem State.wr64_pending (s : State) (k v : Nat) : (s.wr64 k v).pending = s.pending :=
  (State.wr_pending _ _ _).trans (s.wr_pending _ _)
@[simp] theorem State.cntAdd_pending (s : State) (k v : Nat) : (s.cntAdd k v).pending = s.pending := s.wr64_pending _ _
@[simp] theorem State.raise_pending (s : State) (k : Nat) : (s.raise k).pending = s.pending := by unfold State.raise; split <;> rfl
@[simp] theorem State.emit_pending (s : State) (x : Out) : (s.emit x).pending = s.pending := rfl
@[simp] theorem State.answer_pending (s : State) (e : Bool) (d : Nat) : (s.answer e d).pending = s.pending := rfl
@[simp] theorem State.wr_stage (s : State) (k : Nat) (v : Word) : (s.wr k v).stage = s.stage := s.setRegs_stage _
@[simp] theorem State.fset_stage (s : State) (f : Fld) (v : Nat) : (s.fset f v).stage = s.stage := s.wr_stage _ _
@[simp] theorem State.wr64_stage (s : State) (k v : Nat) : (s.wr64 k v).stage = s.stage :=
  (State.wr_stage _ _ _).trans (s.wr_stage _ _)
@[simp] theorem State.cntAdd_stage (s : State) (k v : Nat) : (s.cntAdd k v).stage = s.stage := s.wr64_stage _ _
@[simp] theorem State.raise_stage (s : State) (k : Nat) : (s.raise k).stage = s.stage := by unfold State.raise; split <;> rfl
@[simp] theorem State.emit_stage (s : State) (x : Out) : (s.emit x).stage = s.stage := rfl
@[simp] theorem State.answer_stage (s : State) (e : Bool) (d : Nat) : (s.answer e d).stage = s.stage := rfl
@[simp] theorem State.wr_hold (s : State) (k : Nat) (v : Word) : (s.wr k v).hold = s.hold := s.setRegs_hold _
@[simp] theorem State.fset_hold (s : State) (f : Fld) (v : Nat) : (s.fset f v).hold = s.hold := s.wr_hold _ _
@[simp] theorem State.wr64_hold (s : State) (k v : Nat) : (s.wr64 k v).hold = s.hold :=
  (State.wr_hold _ _ _).trans (s.wr_hold _ _)
@[simp] theorem State.cntAdd_hold (s : State) (k v : Nat) : (s.cntAdd k v).hold = s.hold := s.wr64_hold _ _
@[simp] theorem State.raise_hold (s : State) (k : Nat) : (s.raise k).hold = s.hold := by unfold State.raise; split <;> rfl
@[simp] theorem State.emit_hold (s : State) (x : Out) : (s.emit x).hold = s.hold := rfl
@[simp] theorem State.answer_hold (s : State) (e : Bool) (d : Nat) : (s.answer e d).hold = s.hold := rfl
@[simp] theorem State.wr_slv (s : State) (k : Nat) (v : Word) : (s.wr k v).slv = s.slv := s.setRegs_slv _
@[simp] theorem State.fset_slv (s : State) (f : Fld) (v : Nat) : (s.fset f v).slv = s.slv := s.wr_slv _ _
@[simp] theorem State.wr64_slv (s : State) (k v : Nat) : (s.wr64 k v).slv = s.slv :=
  (State.wr_slv _ _ _).trans (s.wr_slv _ _)
@[simp] theorem State.cntAdd_slv (s : State) (k v : Nat) : (s.cntAdd k v).slv = s.slv := s.wr64_slv _ _
@[simp] theorem State.raise_slv (s : State) (k : Nat) : (s.raise k).slv = s.slv := by unfold State.raise; split <;> rfl
@[simp] theorem State.emit_slv (s : State) (x : Out) : (s.emit x).slv = s.slv := rfl
@[simp] theorem State.wr_out (s : State) (k : Nat) (v : Word) : (s.wr k v).out = s.out := s.setRegs_out _
@[simp] theorem State.fset_out (s : State) (f : Fld) (v : Nat) : (s.fset f v).out = s.out := s.wr_out _ _
@[simp] theorem State.wr64_out (s : State) (k v : Nat) : (s.wr64 k v).out = s.out :=
  (State.wr_out _ _ _).trans (s.wr_out _ _)
@[simp] theorem State.cntAdd_out (s : State) (k v : Nat) : (s.cntAdd k v).out = s.out := s.wr64_out _ _
@[simp] theorem State.raise_out (s : State) (k : Nat) : (s.raise k).out = s.out := by unfold State.raise; split <;> rfl
@[simp] theorem State.answer_out (s : State) (e : Bool) (d : Nat) : (s.answer e d).out = s.out := rfl
@[simp] theorem State.wr_ticks (s : State) (k : Nat) (v : Word) : (s.wr k v).ticks = s.ticks := s.setRegs_ticks _
@[simp] theorem State.fset_ticks (s : State) (f : Fld) (v : Nat) : (s.fset f v).ticks = s.ticks := s.wr_ticks _ _
@[simp] theorem State.wr64_ticks (s : State) (k v : Nat) : (s.wr64 k v).ticks = s.ticks :=
  (State.wr_ticks _ _ _).trans (s.wr_ticks _ _)
@[simp] theorem State.cntAdd_ticks (s : State) (k v : Nat) : (s.cntAdd k v).ticks = s.ticks := s.wr64_ticks _ _
@[simp] theorem State.raise_ticks (s : State) (k : Nat) : (s.raise k).ticks = s.ticks := by unfold State.raise; split <;> rfl
@[simp] theorem State.emit_ticks (s : State) (x : Out) : (s.emit x).ticks = s.ticks := rfl
@[simp] theorem State.answer_ticks (s : State) (e : Bool) (d : Nat) : (s.answer e d).ticks = s.ticks := rfl
@[simp] theorem State.wr_free (s : State) (k : Nat) (v : Word) : (s.wr k v).free = s.free := s.setRegs_free _
@[simp] theorem State.fset_free (s : State) (f : Fld) (v : Nat) : (s.fset f v).free = s.free := s.wr_free _ _
@[simp] theorem State.wr64_free (s : State) (k v : Nat) : (s.wr64 k v).free = s.free :=
  (State.wr_free _ _ _).trans (s.wr_free _ _)
@[simp] theorem State.cntAdd_free (s : State) (k v : Nat) : (s.cntAdd k v).free = s.free := s.wr64_free _ _
@[simp] theorem State.raise_free (s : State) (k : Nat) : (s.raise k).free = s.free := by unfold State.raise; split <;> rfl
@[simp] theorem State.emit_free (s : State) (x : Out) : (s.emit x).free = s.free := rfl
@[simp] theorem State.answer_free (s : State) (e : Bool) (d : Nat) : (s.answer e d).free = s.free := rfl
@[simp] theorem State.wr_rst (s : State) (k : Nat) (v : Word) : (s.wr k v).rst = s.rst := s.setRegs_rst _
@[simp] theorem State.fset_rst (s : State) (f : Fld) (v : Nat) : (s.fset f v).rst = s.rst := s.wr_rst _ _
@[simp] theorem State.wr64_rst (s : State) (k v : Nat) : (s.wr64 k v).rst = s.rst :=
  (State.wr_rst _ _ _).trans (s.wr_rst _ _)
@[simp] theorem State.cntAdd_rst (s : State) (k v : Nat) : (s.cntAdd k v).rst = s.rst := s.wr64_rst _ _
@[simp] theorem State.raise_rst (s : State) (k : Nat) : (s.raise k).rst = s.rst := by unfold State.raise; split <;> rfl
@[simp] theorem State.emit_rst (s : State) (x : Out) : (s.emit x).rst = s.rst := rfl
@[simp] theorem State.answer_rst (s : State) (e : Bool) (d : Nat) : (s.answer e d).rst = s.rst := rfl
@[simp] theorem State.wr_req (s : State) (k : Nat) (v : Word) : (s.wr k v).req = s.req := s.setRegs_req _
@[simp] theorem State.fset_req (s : State) (f : Fld) (v : Nat) : (s.fset f v).req = s.req := s.wr_req _ _
@[simp] theorem State.wr64_req (s : State) (k v : Nat) : (s.wr64 k v).req = s.req :=
  (State.wr_req _ _ _).trans (s.wr_req _ _)
@[simp] theorem State.cntAdd_req (s : State) (k v : Nat) : (s.cntAdd k v).req = s.req := s.wr64_req _ _
@[simp] theorem State.raise_req (s : State) (k : Nat) : (s.raise k).req = s.req := by unfold State.raise; split <;> rfl
@[simp] theorem State.emit_req (s : State) (x : Out) : (s.emit x).req = s.req := rfl
@[simp] theorem State.answer_req (s : State) (e : Bool) (d : Nat) : (s.answer e d).req = s.req := rfl
@[simp] theorem State.wr_halves (s : State) (k : Nat) (v : Word) : (s.wr k v).halves = s.halves := s.setRegs_halves _
@[simp] theorem State.fset_halves (s : State) (f : Fld) (v : Nat) : (s.fset f v).halves = s.halves := s.wr_halves _ _
@[simp] theorem State.wr64_halves (s : State) (k v : Nat) : (s.wr64 k v).halves = s.halves :=
  (State.wr_halves _ _ _).trans (s.wr_halves _ _)
@[simp] theorem State.cntAdd_halves (s : State) (k v : Nat) : (s.cntAdd k v).halves = s.halves := s.wr64_halves _ _
@[simp] theorem State.raise_halves (s : State) (k : Nat) : (s.raise k).halves = s.halves := by unfold State.raise; split <;> rfl
@[simp] theorem State.emit_halves (s : State) (x : Out) : (s.emit x).halves = s.halves := rfl
@[simp] theorem State.answer_halves (s : State) (e : Bool) (d : Nat) : (s.answer e d).halves = s.halves := rfl
@[simp] theorem State.wr_settle (s : State) (k : Nat) (v : Word) : (s.wr k v).settle = s.settle := s.setRegs_settle _
@[simp] theorem State.fset_settle (s : State) (f : Fld) (v : Nat) : (s.fset f v).settle = s.settle := s.wr_settle _ _
@[simp] theorem State.wr64_settle (s : State) (k v : Nat) : (s.wr64 k v).settle = s.settle :=
  (State.wr_settle _ _ _).trans (s.wr_settle _ _)
@[simp] theorem State.cntAdd_settle (s : State) (k v : Nat) : (s.cntAdd k v).settle = s.settle := s.wr64_settle _ _
@[simp] theorem State.raise_settle (s : State) (k : Nat) : (s.raise k).settle = s.settle := by unfold State.raise; split <;> rfl
@[simp] theorem State.emit_settle (s : State) (x : Out) : (s.emit x).settle = s.settle := rfl
@[simp] theorem State.answer_settle (s : State) (e : Bool) (d : Nat) : (s.answer e d).settle = s.settle := rfl
@[simp] theorem State.wr_tbs (s : State) (k : Nat) (v : Word) : (s.wr k v).tbs = s.tbs := s.setRegs_tbs _
@[simp] theorem State.fset_tbs (s : State) (f : Fld) (v : Nat) : (s.fset f v).tbs = s.tbs := s.wr_tbs _ _
@[simp] theorem State.wr64_tbs (s : State) (k v : Nat) : (s.wr64 k v).tbs = s.tbs :=
  (State.wr_tbs _ _ _).trans (s.wr_tbs _ _)
@[simp] theorem State.cntAdd_tbs (s : State) (k v : Nat) : (s.cntAdd k v).tbs = s.tbs := s.wr64_tbs _ _
@[simp] theorem State.raise_tbs (s : State) (k : Nat) : (s.raise k).tbs = s.tbs := by unfold State.raise; split <;> rfl
@[simp] theorem State.emit_tbs (s : State) (x : Out) : (s.emit x).tbs = s.tbs := rfl
@[simp] theorem State.answer_tbs (s : State) (e : Bool) (d : Nat) : (s.answer e d).tbs = s.tbs := rfl
@[simp] theorem State.wr_pps (s : State) (k : Nat) (v : Word) : (s.wr k v).pps = s.pps := s.setRegs_pps _
@[simp] theorem State.fset_pps (s : State) (f : Fld) (v : Nat) : (s.fset f v).pps = s.pps := s.wr_pps _ _
@[simp] theorem State.wr64_pps (s : State) (k v : Nat) : (s.wr64 k v).pps = s.pps :=
  (State.wr_pps _ _ _).trans (s.wr_pps _ _)
@[simp] theorem State.cntAdd_pps (s : State) (k v : Nat) : (s.cntAdd k v).pps = s.pps := s.wr64_pps _ _
@[simp] theorem State.raise_pps (s : State) (k : Nat) : (s.raise k).pps = s.pps := by unfold State.raise; split <;> rfl
@[simp] theorem State.emit_pps (s : State) (x : Out) : (s.emit x).pps = s.pps := rfl
@[simp] theorem State.answer_pps (s : State) (e : Bool) (d : Nat) : (s.answer e d).pps = s.pps := rfl
@[simp] theorem State.wr_gens (s : State) (k : Nat) (v : Word) : (s.wr k v).gens = s.gens := s.setRegs_gens _
@[simp] theorem State.fset_gens (s : State) (f : Fld) (v : Nat) : (s.fset f v).gens = s.gens := s.wr_gens _ _
@[simp] theorem State.wr64_gens (s : State) (k v : Nat) : (s.wr64 k v).gens = s.gens :=
  (State.wr_gens _ _ _).trans (s.wr_gens _ _)
@[simp] theorem State.cntAdd_gens (s : State) (k v : Nat) : (s.cntAdd k v).gens = s.gens := s.wr64_gens _ _
@[simp] theorem State.raise_gens (s : State) (k : Nat) : (s.raise k).gens = s.gens := by unfold State.raise; split <;> rfl
@[simp] theorem State.emit_gens (s : State) (x : Out) : (s.emit x).gens = s.gens := rfl
@[simp] theorem State.answer_gens (s : State) (e : Bool) (d : Nat) : (s.answer e d).gens = s.gens := rfl
@[simp] theorem State.wr_trigs (s : State) (k : Nat) (v : Word) : (s.wr k v).trigs = s.trigs := s.setRegs_trigs _
@[simp] theorem State.fset_trigs (s : State) (f : Fld) (v : Nat) : (s.fset f v).trigs = s.trigs := s.wr_trigs _ _
@[simp] theorem State.wr64_trigs (s : State) (k v : Nat) : (s.wr64 k v).trigs = s.trigs :=
  (State.wr_trigs _ _ _).trans (s.wr_trigs _ _)
@[simp] theorem State.cntAdd_trigs (s : State) (k v : Nat) : (s.cntAdd k v).trigs = s.trigs := s.wr64_trigs _ _
@[simp] theorem State.raise_trigs (s : State) (k : Nat) : (s.raise k).trigs = s.trigs := by unfold State.raise; split <;> rfl
@[simp] theorem State.emit_trigs (s : State) (x : Out) : (s.emit x).trigs = s.trigs := rfl
@[simp] theorem State.answer_trigs (s : State) (e : Bool) (d : Nat) : (s.answer e d).trigs = s.trigs := rfl
@[simp] theorem State.wr_frames (s : State) (k : Nat) (v : Word) : (s.wr k v).frames = s.frames := s.setRegs_frames _
@[simp] theorem State.fset_frames (s : State) (f : Fld) (v : Nat) : (s.fset f v).frames = s.frames := s.wr_frames _ _
@[simp] theorem State.wr64_frames (s : State) (k v : Nat) : (s.wr64 k v).frames = s.frames :=
  (State.wr_frames _ _ _).trans (s.wr_frames _ _)
@[simp] theorem State.cntAdd_frames (s : State) (k v : Nat) : (s.cntAdd k v).frames = s.frames := s.wr64_frames _ _
@[simp] theorem State.raise_frames (s : State) (k : Nat) : (s.raise k).frames = s.frames := by unfold State.raise; split <;> rfl
@[simp] theorem State.emit_frames (s : State) (x : Out) : (s.emit x).frames = s.frames := rfl
@[simp] theorem State.answer_frames (s : State) (e : Bool) (d : Nat) : (s.answer e d).frames = s.frames := rfl
@[simp] theorem State.wr_nextFrame (s : State) (k : Nat) (v : Word) : (s.wr k v).nextFrame = s.nextFrame := s.setRegs_nextFrame _
@[simp] theorem State.fset_nextFrame (s : State) (f : Fld) (v : Nat) : (s.fset f v).nextFrame = s.nextFrame := s.wr_nextFrame _ _
@[simp] theorem State.wr64_nextFrame (s : State) (k v : Nat) : (s.wr64 k v).nextFrame = s.nextFrame :=
  (State.wr_nextFrame _ _ _).trans (s.wr_nextFrame _ _)
@[simp] theorem State.cntAdd_nextFrame (s : State) (k v : Nat) : (s.cntAdd k v).nextFrame = s.nextFrame := s.wr64_nextFrame _ _
@[simp] theorem State.raise_nextFrame (s : State) (k : Nat) : (s.raise k).nextFrame = s.nextFrame := by unfold State.raise; split <;> rfl
@[simp] theorem State.emit_nextFrame (s : State) (x : Out) : (s.emit x).nextFrame = s.nextFrame := rfl
@[simp] theorem State.answer_nextFrame (s : State) (e : Bool) (d : Nat) : (s.answer e d).nextFrame = s.nextFrame := rfl
@[simp] theorem State.wr_ports (s : State) (k : Nat) (v : Word) : (s.wr k v).ports = s.ports := s.setRegs_ports _
@[simp] theorem State.fset_ports (s : State) (f : Fld) (v : Nat) : (s.fset f v).ports = s.ports := s.wr_ports _ _
@[simp] theorem State.wr64_ports (s : State) (k v : Nat) : (s.wr64 k v).ports = s.ports :=
  (State.wr_ports _ _ _).trans (s.wr_ports _ _)
@[simp] theorem State.cntAdd_ports (s : State) (k v : Nat) : (s.cntAdd k v).ports = s.ports := s.wr64_ports _ _
@[simp] theorem State.raise_ports (s : State) (k : Nat) : (s.raise k).ports = s.ports := by unfold State.raise; split <;> rfl
@[simp] theorem State.emit_ports (s : State) (x : Out) : (s.emit x).ports = s.ports := rfl
@[simp] theorem State.answer_ports (s : State) (e : Bool) (d : Nat) : (s.answer e d).ports = s.ports := rfl
@[simp] theorem State.wr_taken (s : State) (k : Nat) (v : Word) : (s.wr k v).taken = s.taken := s.setRegs_taken _
@[simp] theorem State.fset_taken (s : State) (f : Fld) (v : Nat) : (s.fset f v).taken = s.taken := s.wr_taken _ _
@[simp] theorem State.wr64_taken (s : State) (k v : Nat) : (s.wr64 k v).taken = s.taken :=
  (State.wr_taken _ _ _).trans (s.wr_taken _ _)
@[simp] theorem State.cntAdd_taken (s : State) (k v : Nat) : (s.cntAdd k v).taken = s.taken := s.wr64_taken _ _
@[simp] theorem State.raise_taken (s : State) (k : Nat) : (s.raise k).taken = s.taken := by unfold State.raise; split <;> rfl
@[simp] theorem State.emit_taken (s : State) (x : Out) : (s.emit x).taken = s.taken := rfl
@[simp] theorem State.answer_taken (s : State) (e : Bool) (d : Nat) : (s.answer e d).taken = s.taken := rfl
@[simp] theorem State.wr_latches (s : State) (k : Nat) (v : Word) : (s.wr k v).latches = s.latches := s.setRegs_latches _
@[simp] theorem State.fset_latches (s : State) (f : Fld) (v : Nat) : (s.fset f v).latches = s.latches := s.wr_latches _ _
@[simp] theorem State.wr64_latches (s : State) (k v : Nat) : (s.wr64 k v).latches = s.latches :=
  (State.wr_latches _ _ _).trans (s.wr_latches _ _)
@[simp] theorem State.cntAdd_latches (s : State) (k v : Nat) : (s.cntAdd k v).latches = s.latches := s.wr64_latches _ _
@[simp] theorem State.raise_latches (s : State) (k : Nat) : (s.raise k).latches = s.latches := by unfold State.raise; split <;> rfl
@[simp] theorem State.emit_latches (s : State) (x : Out) : (s.emit x).latches = s.latches := rfl
@[simp] theorem State.answer_latches (s : State) (e : Bool) (d : Nat) : (s.answer e d).latches = s.latches := rfl
@[simp] theorem State.wr_doms (s : State) (k : Nat) (v : Word) : (s.wr k v).doms = s.doms := s.setRegs_doms _
@[simp] theorem State.fset_doms (s : State) (f : Fld) (v : Nat) : (s.fset f v).doms = s.doms := s.wr_doms _ _
@[simp] theorem State.wr64_doms (s : State) (k v : Nat) : (s.wr64 k v).doms = s.doms :=
  (State.wr_doms _ _ _).trans (s.wr_doms _ _)
@[simp] theorem State.cntAdd_doms (s : State) (k v : Nat) : (s.cntAdd k v).doms = s.doms := s.wr64_doms _ _
@[simp] theorem State.raise_doms (s : State) (k : Nat) : (s.raise k).doms = s.doms := by unfold State.raise; split <;> rfl
@[simp] theorem State.emit_doms (s : State) (x : Out) : (s.emit x).doms = s.doms := rfl
@[simp] theorem State.answer_doms (s : State) (e : Bool) (d : Nat) : (s.answer e d).doms = s.doms := rfl
@[simp] theorem State.wr_gasp (s : State) (k : Nat) (v : Word) : (s.wr k v).gasp = s.gasp := s.setRegs_gasp _
@[simp] theorem State.fset_gasp (s : State) (f : Fld) (v : Nat) : (s.fset f v).gasp = s.gasp := s.wr_gasp _ _
@[simp] theorem State.wr64_gasp (s : State) (k v : Nat) : (s.wr64 k v).gasp = s.gasp :=
  (State.wr_gasp _ _ _).trans (s.wr_gasp _ _)
@[simp] theorem State.cntAdd_gasp (s : State) (k v : Nat) : (s.cntAdd k v).gasp = s.gasp := s.wr64_gasp _ _
@[simp] theorem State.raise_gasp (s : State) (k : Nat) : (s.raise k).gasp = s.gasp := by unfold State.raise; split <;> rfl
@[simp] theorem State.emit_gasp (s : State) (x : Out) : (s.emit x).gasp = s.gasp := rfl
@[simp] theorem State.answer_gasp (s : State) (e : Bool) (d : Nat) : (s.answer e d).gasp = s.gasp := rfl
@[simp] theorem State.wr_dic (s : State) (k : Nat) (v : Word) : (s.wr k v).dic = s.dic := s.setRegs_dic _
@[simp] theorem State.fset_dic (s : State) (f : Fld) (v : Nat) : (s.fset f v).dic = s.dic := s.wr_dic _ _
@[simp] theorem State.wr64_dic (s : State) (k v : Nat) : (s.wr64 k v).dic = s.dic :=
  (State.wr_dic _ _ _).trans (s.wr_dic _ _)
@[simp] theorem State.cntAdd_dic (s : State) (k v : Nat) : (s.cntAdd k v).dic = s.dic := s.wr64_dic _ _
@[simp] theorem State.raise_dic (s : State) (k : Nat) : (s.raise k).dic = s.dic := by unfold State.raise; split <;> rfl
@[simp] theorem State.emit_dic (s : State) (x : Out) : (s.emit x).dic = s.dic := rfl
@[simp] theorem State.answer_dic (s : State) (e : Bool) (d : Nat) : (s.answer e d).dic = s.dic := rfl
@[simp] theorem State.wr_flt (s : State) (k : Nat) (v : Word) : (s.wr k v).flt = s.flt := s.setRegs_flt _
@[simp] theorem State.fset_flt (s : State) (f : Fld) (v : Nat) : (s.fset f v).flt = s.flt := s.wr_flt _ _
@[simp] theorem State.wr64_flt (s : State) (k v : Nat) : (s.wr64 k v).flt = s.flt :=
  (State.wr_flt _ _ _).trans (s.wr_flt _ _)
@[simp] theorem State.cntAdd_flt (s : State) (k v : Nat) : (s.cntAdd k v).flt = s.flt := s.wr64_flt _ _
@[simp] theorem State.raise_flt (s : State) (k : Nat) : (s.raise k).flt = s.flt := by unfold State.raise; split <;> rfl
@[simp] theorem State.emit_flt (s : State) (x : Out) : (s.emit x).flt = s.flt := rfl
@[simp] theorem State.answer_flt (s : State) (e : Bool) (d : Nat) : (s.answer e d).flt = s.flt := rfl
@[simp] theorem State.wr_trunks (s : State) (k : Nat) (v : Word) : (s.wr k v).trunks = s.trunks := s.setRegs_trunks _
@[simp] theorem State.fset_trunks (s : State) (f : Fld) (v : Nat) : (s.fset f v).trunks = s.trunks := s.wr_trunks _ _
@[simp] theorem State.wr64_trunks (s : State) (k v : Nat) : (s.wr64 k v).trunks = s.trunks :=
  (State.wr_trunks _ _ _).trans (s.wr_trunks _ _)
@[simp] theorem State.cntAdd_trunks (s : State) (k v : Nat) : (s.cntAdd k v).trunks = s.trunks := s.wr64_trunks _ _
@[simp] theorem State.raise_trunks (s : State) (k : Nat) : (s.raise k).trunks = s.trunks := by unfold State.raise; split <;> rfl
@[simp] theorem State.emit_trunks (s : State) (x : Out) : (s.emit x).trunks = s.trunks := rfl
@[simp] theorem State.answer_trunks (s : State) (e : Bool) (d : Nat) : (s.answer e d).trunks = s.trunks := rfl
@[simp] theorem State.wr_slots (s : State) (k : Nat) (v : Word) : (s.wr k v).slots = s.slots := s.setRegs_slots _
@[simp] theorem State.fset_slots (s : State) (f : Fld) (v : Nat) : (s.fset f v).slots = s.slots := s.wr_slots _ _
@[simp] theorem State.wr64_slots (s : State) (k v : Nat) : (s.wr64 k v).slots = s.slots :=
  (State.wr_slots _ _ _).trans (s.wr_slots _ _)
@[simp] theorem State.cntAdd_slots (s : State) (k v : Nat) : (s.cntAdd k v).slots = s.slots := s.wr64_slots _ _
@[simp] theorem State.raise_slots (s : State) (k : Nat) : (s.raise k).slots = s.slots := by unfold State.raise; split <;> rfl
@[simp] theorem State.emit_slots (s : State) (x : Out) : (s.emit x).slots = s.slots := rfl
@[simp] theorem State.answer_slots (s : State) (e : Bool) (d : Nat) : (s.answer e d).slots = s.slots := rfl
@[simp] theorem State.wr_node (s : State) (k : Nat) (v : Word) : (s.wr k v).node = s.node := s.setRegs_node _
@[simp] theorem State.fset_node (s : State) (f : Fld) (v : Nat) : (s.fset f v).node = s.node := s.wr_node _ _
@[simp] theorem State.wr64_node (s : State) (k v : Nat) : (s.wr64 k v).node = s.node :=
  (State.wr_node _ _ _).trans (s.wr_node _ _)
@[simp] theorem State.cntAdd_node (s : State) (k v : Nat) : (s.cntAdd k v).node = s.node := s.wr64_node _ _
@[simp] theorem State.raise_node (s : State) (k : Nat) : (s.raise k).node = s.node := by unfold State.raise; split <;> rfl
@[simp] theorem State.emit_node (s : State) (x : Out) : (s.emit x).node = s.node := rfl
@[simp] theorem State.answer_node (s : State) (e : Bool) (d : Nat) : (s.answer e d).node = s.node := rfl
@[simp] theorem State.wr_pipes (s : State) (k : Nat) (v : Word) : (s.wr k v).pipes = s.pipes := s.setRegs_pipes _
@[simp] theorem State.fset_pipes (s : State) (f : Fld) (v : Nat) : (s.fset f v).pipes = s.pipes := s.wr_pipes _ _
@[simp] theorem State.wr64_pipes (s : State) (k v : Nat) : (s.wr64 k v).pipes = s.pipes :=
  (State.wr_pipes _ _ _).trans (s.wr_pipes _ _)
@[simp] theorem State.cntAdd_pipes (s : State) (k v : Nat) : (s.cntAdd k v).pipes = s.pipes := s.wr64_pipes _ _
@[simp] theorem State.raise_pipes (s : State) (k : Nat) : (s.raise k).pipes = s.pipes := by unfold State.raise; split <;> rfl
@[simp] theorem State.emit_pipes (s : State) (x : Out) : (s.emit x).pipes = s.pipes := rfl
@[simp] theorem State.answer_pipes (s : State) (e : Bool) (d : Nat) : (s.answer e d).pipes = s.pipes := rfl
@[simp] theorem State.wr_graph (s : State) (k : Nat) (v : Word) : (s.wr k v).graph = s.graph := s.setRegs_graph _
@[simp] theorem State.fset_graph (s : State) (f : Fld) (v : Nat) : (s.fset f v).graph = s.graph := s.wr_graph _ _
@[simp] theorem State.wr64_graph (s : State) (k v : Nat) : (s.wr64 k v).graph = s.graph :=
  (State.wr_graph _ _ _).trans (s.wr_graph _ _)
@[simp] theorem State.cntAdd_graph (s : State) (k v : Nat) : (s.cntAdd k v).graph = s.graph := s.wr64_graph _ _
@[simp] theorem State.raise_graph (s : State) (k : Nat) : (s.raise k).graph = s.graph := by unfold State.raise; split <;> rfl
@[simp] theorem State.emit_graph (s : State) (x : Out) : (s.emit x).graph = s.graph := rfl
@[simp] theorem State.answer_graph (s : State) (e : Bool) (d : Nat) : (s.answer e d).graph = s.graph := rfl
@[simp] theorem State.wr_gload (s : State) (k : Nat) (v : Word) : (s.wr k v).gload = s.gload := s.setRegs_gload _
@[simp] theorem State.fset_gload (s : State) (f : Fld) (v : Nat) : (s.fset f v).gload = s.gload := s.wr_gload _ _
@[simp] theorem State.wr64_gload (s : State) (k v : Nat) : (s.wr64 k v).gload = s.gload :=
  (State.wr_gload _ _ _).trans (s.wr_gload _ _)
@[simp] theorem State.cntAdd_gload (s : State) (k v : Nat) : (s.cntAdd k v).gload = s.gload := s.wr64_gload _ _
@[simp] theorem State.raise_gload (s : State) (k : Nat) : (s.raise k).gload = s.gload := by unfold State.raise; split <;> rfl
@[simp] theorem State.emit_gload (s : State) (x : Out) : (s.emit x).gload = s.gload := rfl
@[simp] theorem State.answer_gload (s : State) (e : Bool) (d : Nat) : (s.answer e d).gload = s.gload := rfl
@[simp] theorem State.wr_cls (s : State) (k : Nat) (v : Word) : (s.wr k v).cls = s.cls := s.setRegs_cls _
@[simp] theorem State.fset_cls (s : State) (f : Fld) (v : Nat) : (s.fset f v).cls = s.cls := s.wr_cls _ _
@[simp] theorem State.wr64_cls (s : State) (k v : Nat) : (s.wr64 k v).cls = s.cls :=
  (State.wr_cls _ _ _).trans (s.wr_cls _ _)
@[simp] theorem State.cntAdd_cls (s : State) (k v : Nat) : (s.cntAdd k v).cls = s.cls := s.wr64_cls _ _
@[simp] theorem State.raise_cls (s : State) (k : Nat) : (s.raise k).cls = s.cls := by unfold State.raise; split <;> rfl
@[simp] theorem State.emit_cls (s : State) (x : Out) : (s.emit x).cls = s.cls := rfl
@[simp] theorem State.answer_cls (s : State) (e : Bool) (d : Nat) : (s.answer e d).cls = s.cls := rfl
@[simp] theorem State.wr_ems (s : State) (k : Nat) (v : Word) : (s.wr k v).ems = s.ems := s.setRegs_ems _
@[simp] theorem State.fset_ems (s : State) (f : Fld) (v : Nat) : (s.fset f v).ems = s.ems := s.wr_ems _ _
@[simp] theorem State.wr64_ems (s : State) (k v : Nat) : (s.wr64 k v).ems = s.ems :=
  (State.wr_ems _ _ _).trans (s.wr_ems _ _)
@[simp] theorem State.cntAdd_ems (s : State) (k v : Nat) : (s.cntAdd k v).ems = s.ems := s.wr64_ems _ _
@[simp] theorem State.raise_ems (s : State) (k : Nat) : (s.raise k).ems = s.ems := by unfold State.raise; split <;> rfl
@[simp] theorem State.emit_ems (s : State) (x : Out) : (s.emit x).ems = s.ems := rfl
@[simp] theorem State.answer_ems (s : State) (e : Bool) (d : Nat) : (s.answer e d).ems = s.ems := rfl
@[simp] theorem State.wr_threads (s : State) (k : Nat) (v : Word) : (s.wr k v).threads = s.threads := s.setRegs_threads _
@[simp] theorem State.fset_threads (s : State) (f : Fld) (v : Nat) : (s.fset f v).threads = s.threads := s.wr_threads _ _
@[simp] theorem State.wr64_threads (s : State) (k v : Nat) : (s.wr64 k v).threads = s.threads :=
  (State.wr_threads _ _ _).trans (s.wr_threads _ _)
@[simp] theorem State.cntAdd_threads (s : State) (k v : Nat) : (s.cntAdd k v).threads = s.threads := s.wr64_threads _ _
@[simp] theorem State.raise_threads (s : State) (k : Nat) : (s.raise k).threads = s.threads := by unfold State.raise; split <;> rfl
@[simp] theorem State.emit_threads (s : State) (x : Out) : (s.emit x).threads = s.threads := rfl
@[simp] theorem State.answer_threads (s : State) (e : Bool) (d : Nat) : (s.answer e d).threads = s.threads := rfl
@[simp] theorem State.wr_wheel (s : State) (k : Nat) (v : Word) : (s.wr k v).wheel = s.wheel := s.setRegs_wheel _
@[simp] theorem State.fset_wheel (s : State) (f : Fld) (v : Nat) : (s.fset f v).wheel = s.wheel := s.wr_wheel _ _
@[simp] theorem State.wr64_wheel (s : State) (k v : Nat) : (s.wr64 k v).wheel = s.wheel :=
  (State.wr_wheel _ _ _).trans (s.wr_wheel _ _)
@[simp] theorem State.cntAdd_wheel (s : State) (k v : Nat) : (s.cntAdd k v).wheel = s.wheel := s.wr64_wheel _ _
@[simp] theorem State.raise_wheel (s : State) (k : Nat) : (s.raise k).wheel = s.wheel := by unfold State.raise; split <;> rfl
@[simp] theorem State.emit_wheel (s : State) (x : Out) : (s.emit x).wheel = s.wheel := rfl
@[simp] theorem State.answer_wheel (s : State) (e : Bool) (d : Nat) : (s.answer e d).wheel = s.wheel := rfl
@[simp] theorem State.wr_emem (s : State) (k : Nat) (v : Word) : (s.wr k v).emem = s.emem := s.setRegs_emem _
@[simp] theorem State.fset_emem (s : State) (f : Fld) (v : Nat) : (s.fset f v).emem = s.emem := s.wr_emem _ _
@[simp] theorem State.wr64_emem (s : State) (k v : Nat) : (s.wr64 k v).emem = s.emem :=
  (State.wr_emem _ _ _).trans (s.wr_emem _ _)
@[simp] theorem State.cntAdd_emem (s : State) (k v : Nat) : (s.cntAdd k v).emem = s.emem := s.wr64_emem _ _
@[simp] theorem State.raise_emem (s : State) (k : Nat) : (s.raise k).emem = s.emem := by unfold State.raise; split <;> rfl
@[simp] theorem State.emit_emem (s : State) (x : Out) : (s.emit x).emem = s.emem := rfl
@[simp] theorem State.answer_emem (s : State) (e : Bool) (d : Nat) : (s.answer e d).emem = s.emem := rfl
@[simp] theorem State.wr_splices (s : State) (k : Nat) (v : Word) : (s.wr k v).splices = s.splices := s.setRegs_splices _
@[simp] theorem State.fset_splices (s : State) (f : Fld) (v : Nat) : (s.fset f v).splices = s.splices := s.wr_splices _ _
@[simp] theorem State.wr64_splices (s : State) (k v : Nat) : (s.wr64 k v).splices = s.splices :=
  (State.wr_splices _ _ _).trans (s.wr_splices _ _)
@[simp] theorem State.cntAdd_splices (s : State) (k v : Nat) : (s.cntAdd k v).splices = s.splices := s.wr64_splices _ _
@[simp] theorem State.raise_splices (s : State) (k : Nat) : (s.raise k).splices = s.splices := by unfold State.raise; split <;> rfl
@[simp] theorem State.emit_splices (s : State) (x : Out) : (s.emit x).splices = s.splices := rfl
@[simp] theorem State.answer_splices (s : State) (e : Bool) (d : Nat) : (s.answer e d).splices = s.splices := rfl
@[simp] theorem State.wr_funcs (s : State) (k : Nat) (v : Word) : (s.wr k v).funcs = s.funcs := s.setRegs_funcs _
@[simp] theorem State.fset_funcs (s : State) (f : Fld) (v : Nat) : (s.fset f v).funcs = s.funcs := s.wr_funcs _ _
@[simp] theorem State.wr64_funcs (s : State) (k v : Nat) : (s.wr64 k v).funcs = s.funcs :=
  (State.wr_funcs _ _ _).trans (s.wr_funcs _ _)
@[simp] theorem State.cntAdd_funcs (s : State) (k v : Nat) : (s.cntAdd k v).funcs = s.funcs := s.wr64_funcs _ _
@[simp] theorem State.raise_funcs (s : State) (k : Nat) : (s.raise k).funcs = s.funcs := by unfold State.raise; split <;> rfl
@[simp] theorem State.emit_funcs (s : State) (x : Out) : (s.emit x).funcs = s.funcs := rfl
@[simp] theorem State.answer_funcs (s : State) (e : Bool) (d : Nat) : (s.answer e d).funcs = s.funcs := rfl
@[simp] theorem State.wr_qps (s : State) (k : Nat) (v : Word) : (s.wr k v).qps = s.qps := s.setRegs_qps _
@[simp] theorem State.fset_qps (s : State) (f : Fld) (v : Nat) : (s.fset f v).qps = s.qps := s.wr_qps _ _
@[simp] theorem State.wr64_qps (s : State) (k v : Nat) : (s.wr64 k v).qps = s.qps :=
  (State.wr_qps _ _ _).trans (s.wr_qps _ _)
@[simp] theorem State.cntAdd_qps (s : State) (k v : Nat) : (s.cntAdd k v).qps = s.qps := s.wr64_qps _ _
@[simp] theorem State.raise_qps (s : State) (k : Nat) : (s.raise k).qps = s.qps := by unfold State.raise; split <;> rfl
@[simp] theorem State.emit_qps (s : State) (x : Out) : (s.emit x).qps = s.qps := rfl
@[simp] theorem State.answer_qps (s : State) (e : Bool) (d : Nat) : (s.answer e d).qps = s.qps := rfl
@[simp] theorem State.wr_binds (s : State) (k : Nat) (v : Word) : (s.wr k v).binds = s.binds := s.setRegs_binds _
@[simp] theorem State.fset_binds (s : State) (f : Fld) (v : Nat) : (s.fset f v).binds = s.binds := s.wr_binds _ _
@[simp] theorem State.wr64_binds (s : State) (k v : Nat) : (s.wr64 k v).binds = s.binds :=
  (State.wr_binds _ _ _).trans (s.wr_binds _ _)
@[simp] theorem State.cntAdd_binds (s : State) (k v : Nat) : (s.cntAdd k v).binds = s.binds := s.wr64_binds _ _
@[simp] theorem State.raise_binds (s : State) (k : Nat) : (s.raise k).binds = s.binds := by unfold State.raise; split <;> rfl
@[simp] theorem State.emit_binds (s : State) (x : Out) : (s.emit x).binds = s.binds := rfl
@[simp] theorem State.answer_binds (s : State) (e : Bool) (d : Nat) : (s.answer e d).binds = s.binds := rfl
@[simp] theorem State.wr_admin (s : State) (k : Nat) (v : Word) : (s.wr k v).admin = s.admin := s.setRegs_admin _
@[simp] theorem State.fset_admin (s : State) (f : Fld) (v : Nat) : (s.fset f v).admin = s.admin := s.wr_admin _ _
@[simp] theorem State.wr64_admin (s : State) (k v : Nat) : (s.wr64 k v).admin = s.admin :=
  (State.wr_admin _ _ _).trans (s.wr_admin _ _)
@[simp] theorem State.cntAdd_admin (s : State) (k v : Nat) : (s.cntAdd k v).admin = s.admin := s.wr64_admin _ _
@[simp] theorem State.raise_admin (s : State) (k : Nat) : (s.raise k).admin = s.admin := by unfold State.raise; split <;> rfl
@[simp] theorem State.emit_admin (s : State) (x : Out) : (s.emit x).admin = s.admin := rfl
@[simp] theorem State.answer_admin (s : State) (e : Bool) (d : Nat) : (s.answer e d).admin = s.admin := rfl
@[simp] theorem State.wr_mem (s : State) (k : Nat) (v : Word) : (s.wr k v).mem = s.mem := s.setRegs_mem _
@[simp] theorem State.fset_mem (s : State) (f : Fld) (v : Nat) : (s.fset f v).mem = s.mem := s.wr_mem _ _
@[simp] theorem State.wr64_mem (s : State) (k v : Nat) : (s.wr64 k v).mem = s.mem :=
  (State.wr_mem _ _ _).trans (s.wr_mem _ _)
@[simp] theorem State.cntAdd_mem (s : State) (k v : Nat) : (s.cntAdd k v).mem = s.mem := s.wr64_mem _ _
@[simp] theorem State.raise_mem (s : State) (k : Nat) : (s.raise k).mem = s.mem := by unfold State.raise; split <;> rfl
@[simp] theorem State.emit_mem (s : State) (x : Out) : (s.emit x).mem = s.mem := rfl
@[simp] theorem State.answer_mem (s : State) (e : Bool) (d : Nat) : (s.answer e d).mem = s.mem := rfl
@[simp] theorem State.wr_chks (s : State) (k : Nat) (v : Word) : (s.wr k v).chks = s.chks := s.setRegs_chks _
@[simp] theorem State.fset_chks (s : State) (f : Fld) (v : Nat) : (s.fset f v).chks = s.chks := s.wr_chks _ _
@[simp] theorem State.wr64_chks (s : State) (k v : Nat) : (s.wr64 k v).chks = s.chks :=
  (State.wr_chks _ _ _).trans (s.wr_chks _ _)
@[simp] theorem State.cntAdd_chks (s : State) (k v : Nat) : (s.cntAdd k v).chks = s.chks := s.wr64_chks _ _
@[simp] theorem State.raise_chks (s : State) (k : Nat) : (s.raise k).chks = s.chks := by unfold State.raise; split <;> rfl
@[simp] theorem State.emit_chks (s : State) (x : Out) : (s.emit x).chks = s.chks := rfl
@[simp] theorem State.answer_chks (s : State) (e : Bool) (d : Nat) : (s.answer e d).chks = s.chks := rfl
@[simp] theorem State.wr_dmas (s : State) (k : Nat) (v : Word) : (s.wr k v).dmas = s.dmas := s.setRegs_dmas _
@[simp] theorem State.fset_dmas (s : State) (f : Fld) (v : Nat) : (s.fset f v).dmas = s.dmas := s.wr_dmas _ _
@[simp] theorem State.wr64_dmas (s : State) (k v : Nat) : (s.wr64 k v).dmas = s.dmas :=
  (State.wr_dmas _ _ _).trans (s.wr_dmas _ _)
@[simp] theorem State.cntAdd_dmas (s : State) (k v : Nat) : (s.cntAdd k v).dmas = s.dmas := s.wr64_dmas _ _
@[simp] theorem State.raise_dmas (s : State) (k : Nat) : (s.raise k).dmas = s.dmas := by unfold State.raise; split <;> rfl
@[simp] theorem State.emit_dmas (s : State) (x : Out) : (s.emit x).dmas = s.dmas := rfl
@[simp] theorem State.answer_dmas (s : State) (e : Bool) (d : Nat) : (s.answer e d).dmas = s.dmas := rfl
@[simp] theorem State.emit_out (s : State) (x : Out) : (s.emit x).out = s.out ++ [x] := rfl
@[simp] theorem State.rd_emit (s : State) (x : Out) (k : Nat) : (s.emit x).rd k = s.rd k := State.rd_congr rfl rfl _
@[simp] theorem State.fget_emit (s : State) (x : Out) (f : Fld) : (s.emit x).fget f = s.fget f := State.fget_congr rfl rfl _
@[simp] theorem State.flag_emit (s : State) (x : Out) (f : Fld) : (s.emit x).flag f = s.flag f := State.flag_congr rfl rfl _

/-! ### Units -/

@[simp] theorem State.half_setHalf_self (s : State) (n : Nat) (v : HalfSt) : (s.setHalf n v).half n = v := by simp [State.half, State.setHalf]
theorem State.half_setHalf_ne (s : State) {n k : Nat} (v : HalfSt) (h : k ≠ n) : (s.setHalf n v).half k = s.half k := by
  simp [State.half, State.setHalf, KMap.get_put_ne _ _ _ v h]
@[simp] theorem State.rd_setHalf (s : State) (n : Nat) (v : HalfSt) (k : Nat) : (s.setHalf n v).rd k = s.rd k := State.rd_congr rfl rfl _
@[simp] theorem State.fget_setHalf (s : State) (n : Nat) (v : HalfSt) (f : Fld) : (s.setHalf n v).fget f = s.fget f := State.fget_congr rfl rfl _
@[simp] theorem State.flag_setHalf (s : State) (n : Nat) (v : HalfSt) (f : Fld) : (s.setHalf n v).flag f = s.flag f := State.flag_congr rfl rfl _
@[simp] theorem State.half_wr (s : State) (k n : Nat) (w : Word) : (s.wr k w).half n = s.half n := by simp [State.half]
@[simp] theorem State.half_fset (s : State) (f : Fld) (n w : Nat) : (s.fset f w).half n = s.half n := by simp [State.half]
@[simp] theorem State.half_raise (s : State) (k n : Nat) : (s.raise k).half n = s.half n := by simp [State.half]
@[simp] theorem State.setHalf_cfg (s : State) (n : Nat) (v : HalfSt) : (s.setHalf n v).cfg = s.cfg := rfl
@[simp] theorem State.setHalf_pending (s : State) (n : Nat) (v : HalfSt) : (s.setHalf n v).pending = s.pending := rfl
@[simp] theorem State.setHalf_regs (s : State) (n : Nat) (v : HalfSt) : (s.setHalf n v).regs = s.regs := rfl
@[simp] theorem State.setHalf_stage (s : State) (n : Nat) (v : HalfSt) : (s.setHalf n v).stage = s.stage := rfl
@[simp] theorem State.setHalf_hold (s : State) (n : Nat) (v : HalfSt) : (s.setHalf n v).hold = s.hold := rfl
@[simp] theorem State.setHalf_slv (s : State) (n : Nat) (v : HalfSt) : (s.setHalf n v).slv = s.slv := rfl
@[simp] theorem State.setHalf_out (s : State) (n : Nat) (v : HalfSt) : (s.setHalf n v).out = s.out := rfl
@[simp] theorem State.setHalf_ticks (s : State) (n : Nat) (v : HalfSt) : (s.setHalf n v).ticks = s.ticks := rfl
@[simp] theorem State.setHalf_free (s : State) (n : Nat) (v : HalfSt) : (s.setHalf n v).free = s.free := rfl
@[simp] theorem State.setHalf_rst (s : State) (n : Nat) (v : HalfSt) : (s.setHalf n v).rst = s.rst := rfl
@[simp] theorem State.setHalf_req (s : State) (n : Nat) (v : HalfSt) : (s.setHalf n v).req = s.req := rfl
@[simp] theorem State.setHalf_settle (s : State) (n : Nat) (v : HalfSt) : (s.setHalf n v).settle = s.settle := rfl
@[simp] theorem State.setHalf_tbs (s : State) (n : Nat) (v : HalfSt) : (s.setHalf n v).tbs = s.tbs := rfl
@[simp] theorem State.setHalf_pps (s : State) (n : Nat) (v : HalfSt) : (s.setHalf n v).pps = s.pps := rfl
@[simp] theorem State.setHalf_gens (s : State) (n : Nat) (v : HalfSt) : (s.setHalf n v).gens = s.gens := rfl
@[simp] theorem State.setHalf_trigs (s : State) (n : Nat) (v : HalfSt) : (s.setHalf n v).trigs = s.trigs := rfl
@[simp] theorem State.setHalf_frames (s : State) (n : Nat) (v : HalfSt) : (s.setHalf n v).frames = s.frames := rfl
@[simp] theorem State.setHalf_nextFrame (s : State) (n : Nat) (v : HalfSt) : (s.setHalf n v).nextFrame = s.nextFrame := rfl
@[simp] theorem State.setHalf_ports (s : State) (n : Nat) (v : HalfSt) : (s.setHalf n v).ports = s.ports := rfl
@[simp] theorem State.setHalf_taken (s : State) (n : Nat) (v : HalfSt) : (s.setHalf n v).taken = s.taken := rfl
@[simp] theorem State.setHalf_latches (s : State) (n : Nat) (v : HalfSt) : (s.setHalf n v).latches = s.latches := rfl
@[simp] theorem State.setHalf_doms (s : State) (n : Nat) (v : HalfSt) : (s.setHalf n v).doms = s.doms := rfl
@[simp] theorem State.setHalf_gasp (s : State) (n : Nat) (v : HalfSt) : (s.setHalf n v).gasp = s.gasp := rfl
@[simp] theorem State.setHalf_dic (s : State) (n : Nat) (v : HalfSt) : (s.setHalf n v).dic = s.dic := rfl
@[simp] theorem State.setHalf_flt (s : State) (n : Nat) (v : HalfSt) : (s.setHalf n v).flt = s.flt := rfl
@[simp] theorem State.setHalf_trunks (s : State) (n : Nat) (v : HalfSt) : (s.setHalf n v).trunks = s.trunks := rfl
@[simp] theorem State.setHalf_slots (s : State) (n : Nat) (v : HalfSt) : (s.setHalf n v).slots = s.slots := rfl
@[simp] theorem State.setHalf_node (s : State) (n : Nat) (v : HalfSt) : (s.setHalf n v).node = s.node := rfl
@[simp] theorem State.setHalf_pipes (s : State) (n : Nat) (v : HalfSt) : (s.setHalf n v).pipes = s.pipes := rfl
@[simp] theorem State.setHalf_graph (s : State) (n : Nat) (v : HalfSt) : (s.setHalf n v).graph = s.graph := rfl
@[simp] theorem State.setHalf_gload (s : State) (n : Nat) (v : HalfSt) : (s.setHalf n v).gload = s.gload := rfl
@[simp] theorem State.setHalf_cls (s : State) (n : Nat) (v : HalfSt) : (s.setHalf n v).cls = s.cls := rfl
@[simp] theorem State.setHalf_ems (s : State) (n : Nat) (v : HalfSt) : (s.setHalf n v).ems = s.ems := rfl
@[simp] theorem State.setHalf_threads (s : State) (n : Nat) (v : HalfSt) : (s.setHalf n v).threads = s.threads := rfl
@[simp] theorem State.setHalf_wheel (s : State) (n : Nat) (v : HalfSt) : (s.setHalf n v).wheel = s.wheel := rfl
@[simp] theorem State.setHalf_emem (s : State) (n : Nat) (v : HalfSt) : (s.setHalf n v).emem = s.emem := rfl
@[simp] theorem State.setHalf_splices (s : State) (n : Nat) (v : HalfSt) : (s.setHalf n v).splices = s.splices := rfl
@[simp] theorem State.setHalf_funcs (s : State) (n : Nat) (v : HalfSt) : (s.setHalf n v).funcs = s.funcs := rfl
@[simp] theorem State.setHalf_qps (s : State) (n : Nat) (v : HalfSt) : (s.setHalf n v).qps = s.qps := rfl
@[simp] theorem State.setHalf_binds (s : State) (n : Nat) (v : HalfSt) : (s.setHalf n v).binds = s.binds := rfl
@[simp] theorem State.setHalf_admin (s : State) (n : Nat) (v : HalfSt) : (s.setHalf n v).admin = s.admin := rfl
@[simp] theorem State.setHalf_mem (s : State) (n : Nat) (v : HalfSt) : (s.setHalf n v).mem = s.mem := rfl
@[simp] theorem State.setHalf_chks (s : State) (n : Nat) (v : HalfSt) : (s.setHalf n v).chks = s.chks := rfl
@[simp] theorem State.setHalf_dmas (s : State) (n : Nat) (v : HalfSt) : (s.setHalf n v).dmas = s.dmas := rfl
@[simp] theorem State.tb_setTb_self (s : State) (n : Nat) (v : TimeBase) : (s.setTb n v).tb n = v := by simp [State.tb, State.setTb]
theorem State.tb_setTb_ne (s : State) {n k : Nat} (v : TimeBase) (h : k ≠ n) : (s.setTb n v).tb k = s.tb k := by
  simp [State.tb, State.setTb, KMap.get_put_ne _ _ _ v h]
@[simp] theorem State.rd_setTb (s : State) (n : Nat) (v : TimeBase) (k : Nat) : (s.setTb n v).rd k = s.rd k := State.rd_congr rfl rfl _
@[simp] theorem State.fget_setTb (s : State) (n : Nat) (v : TimeBase) (f : Fld) : (s.setTb n v).fget f = s.fget f := State.fget_congr rfl rfl _
@[simp] theorem State.flag_setTb (s : State) (n : Nat) (v : TimeBase) (f : Fld) : (s.setTb n v).flag f = s.flag f := State.flag_congr rfl rfl _
@[simp] theorem State.tb_wr (s : State) (k n : Nat) (w : Word) : (s.wr k w).tb n = s.tb n := by simp [State.tb]
@[simp] theorem State.tb_fset (s : State) (f : Fld) (n w : Nat) : (s.fset f w).tb n = s.tb n := by simp [State.tb]
@[simp] theorem State.tb_raise (s : State) (k n : Nat) : (s.raise k).tb n = s.tb n := by simp [State.tb]
@[simp] theorem State.setTb_cfg (s : State) (n : Nat) (v : TimeBase) : (s.setTb n v).cfg = s.cfg := rfl
@[simp] theorem State.setTb_pending (s : State) (n : Nat) (v : TimeBase) : (s.setTb n v).pending = s.pending := rfl
@[simp] theorem State.setTb_regs (s : State) (n : Nat) (v : TimeBase) : (s.setTb n v).regs = s.regs := rfl
@[simp] theorem State.setTb_stage (s : State) (n : Nat) (v : TimeBase) : (s.setTb n v).stage = s.stage := rfl
@[simp] theorem State.setTb_hold (s : State) (n : Nat) (v : TimeBase) : (s.setTb n v).hold = s.hold := rfl
@[simp] theorem State.setTb_slv (s : State) (n : Nat) (v : TimeBase) : (s.setTb n v).slv = s.slv := rfl
@[simp] theorem State.setTb_out (s : State) (n : Nat) (v : TimeBase) : (s.setTb n v).out = s.out := rfl
@[simp] theorem State.setTb_ticks (s : State) (n : Nat) (v : TimeBase) : (s.setTb n v).ticks = s.ticks := rfl
@[simp] theorem State.setTb_free (s : State) (n : Nat) (v : TimeBase) : (s.setTb n v).free = s.free := rfl
@[simp] theorem State.setTb_rst (s : State) (n : Nat) (v : TimeBase) : (s.setTb n v).rst = s.rst := rfl
@[simp] theorem State.setTb_req (s : State) (n : Nat) (v : TimeBase) : (s.setTb n v).req = s.req := rfl
@[simp] theorem State.setTb_halves (s : State) (n : Nat) (v : TimeBase) : (s.setTb n v).halves = s.halves := rfl
@[simp] theorem State.setTb_settle (s : State) (n : Nat) (v : TimeBase) : (s.setTb n v).settle = s.settle := rfl
@[simp] theorem State.setTb_pps (s : State) (n : Nat) (v : TimeBase) : (s.setTb n v).pps = s.pps := rfl
@[simp] theorem State.setTb_gens (s : State) (n : Nat) (v : TimeBase) : (s.setTb n v).gens = s.gens := rfl
@[simp] theorem State.setTb_trigs (s : State) (n : Nat) (v : TimeBase) : (s.setTb n v).trigs = s.trigs := rfl
@[simp] theorem State.setTb_frames (s : State) (n : Nat) (v : TimeBase) : (s.setTb n v).frames = s.frames := rfl
@[simp] theorem State.setTb_nextFrame (s : State) (n : Nat) (v : TimeBase) : (s.setTb n v).nextFrame = s.nextFrame := rfl
@[simp] theorem State.setTb_ports (s : State) (n : Nat) (v : TimeBase) : (s.setTb n v).ports = s.ports := rfl
@[simp] theorem State.setTb_taken (s : State) (n : Nat) (v : TimeBase) : (s.setTb n v).taken = s.taken := rfl
@[simp] theorem State.setTb_latches (s : State) (n : Nat) (v : TimeBase) : (s.setTb n v).latches = s.latches := rfl
@[simp] theorem State.setTb_doms (s : State) (n : Nat) (v : TimeBase) : (s.setTb n v).doms = s.doms := rfl
@[simp] theorem State.setTb_gasp (s : State) (n : Nat) (v : TimeBase) : (s.setTb n v).gasp = s.gasp := rfl
@[simp] theorem State.setTb_dic (s : State) (n : Nat) (v : TimeBase) : (s.setTb n v).dic = s.dic := rfl
@[simp] theorem State.setTb_flt (s : State) (n : Nat) (v : TimeBase) : (s.setTb n v).flt = s.flt := rfl
@[simp] theorem State.setTb_trunks (s : State) (n : Nat) (v : TimeBase) : (s.setTb n v).trunks = s.trunks := rfl
@[simp] theorem State.setTb_slots (s : State) (n : Nat) (v : TimeBase) : (s.setTb n v).slots = s.slots := rfl
@[simp] theorem State.setTb_node (s : State) (n : Nat) (v : TimeBase) : (s.setTb n v).node = s.node := rfl
@[simp] theorem State.setTb_pipes (s : State) (n : Nat) (v : TimeBase) : (s.setTb n v).pipes = s.pipes := rfl
@[simp] theorem State.setTb_graph (s : State) (n : Nat) (v : TimeBase) : (s.setTb n v).graph = s.graph := rfl
@[simp] theorem State.setTb_gload (s : State) (n : Nat) (v : TimeBase) : (s.setTb n v).gload = s.gload := rfl
@[simp] theorem State.setTb_cls (s : State) (n : Nat) (v : TimeBase) : (s.setTb n v).cls = s.cls := rfl
@[simp] theorem State.setTb_ems (s : State) (n : Nat) (v : TimeBase) : (s.setTb n v).ems = s.ems := rfl
@[simp] theorem State.setTb_threads (s : State) (n : Nat) (v : TimeBase) : (s.setTb n v).threads = s.threads := rfl
@[simp] theorem State.setTb_wheel (s : State) (n : Nat) (v : TimeBase) : (s.setTb n v).wheel = s.wheel := rfl
@[simp] theorem State.setTb_emem (s : State) (n : Nat) (v : TimeBase) : (s.setTb n v).emem = s.emem := rfl
@[simp] theorem State.setTb_splices (s : State) (n : Nat) (v : TimeBase) : (s.setTb n v).splices = s.splices := rfl
@[simp] theorem State.setTb_funcs (s : State) (n : Nat) (v : TimeBase) : (s.setTb n v).funcs = s.funcs := rfl
@[simp] theorem State.setTb_qps (s : State) (n : Nat) (v : TimeBase) : (s.setTb n v).qps = s.qps := rfl
@[simp] theorem State.setTb_binds (s : State) (n : Nat) (v : TimeBase) : (s.setTb n v).binds = s.binds := rfl
@[simp] theorem State.setTb_admin (s : State) (n : Nat) (v : TimeBase) : (s.setTb n v).admin = s.admin := rfl
@[simp] theorem State.setTb_mem (s : State) (n : Nat) (v : TimeBase) : (s.setTb n v).mem = s.mem := rfl
@[simp] theorem State.setTb_chks (s : State) (n : Nat) (v : TimeBase) : (s.setTb n v).chks = s.chks := rfl
@[simp] theorem State.setTb_dmas (s : State) (n : Nat) (v : TimeBase) : (s.setTb n v).dmas = s.dmas := rfl
@[simp] theorem State.gen_setGen_self (s : State) (n : Nat) (v : Gen) : (s.setGen n v).gen n = v := by simp [State.gen, State.setGen]
theorem State.gen_setGen_ne (s : State) {n k : Nat} (v : Gen) (h : k ≠ n) : (s.setGen n v).gen k = s.gen k := by
  simp [State.gen, State.setGen, KMap.get_put_ne _ _ _ v h]
@[simp] theorem State.rd_setGen (s : State) (n : Nat) (v : Gen) (k : Nat) : (s.setGen n v).rd k = s.rd k := State.rd_congr rfl rfl _
@[simp] theorem State.fget_setGen (s : State) (n : Nat) (v : Gen) (f : Fld) : (s.setGen n v).fget f = s.fget f := State.fget_congr rfl rfl _
@[simp] theorem State.flag_setGen (s : State) (n : Nat) (v : Gen) (f : Fld) : (s.setGen n v).flag f = s.flag f := State.flag_congr rfl rfl _
@[simp] theorem State.gen_wr (s : State) (k n : Nat) (w : Word) : (s.wr k w).gen n = s.gen n := by simp [State.gen]
@[simp] theorem State.gen_fset (s : State) (f : Fld) (n w : Nat) : (s.fset f w).gen n = s.gen n := by simp [State.gen]
@[simp] theorem State.gen_raise (s : State) (k n : Nat) : (s.raise k).gen n = s.gen n := by simp [State.gen]
@[simp] theorem State.setGen_cfg (s : State) (n : Nat) (v : Gen) : (s.setGen n v).cfg = s.cfg := rfl
@[simp] theorem State.setGen_pending (s : State) (n : Nat) (v : Gen) : (s.setGen n v).pending = s.pending := rfl
@[simp] theorem State.setGen_regs (s : State) (n : Nat) (v : Gen) : (s.setGen n v).regs = s.regs := rfl
@[simp] theorem State.setGen_stage (s : State) (n : Nat) (v : Gen) : (s.setGen n v).stage = s.stage := rfl
@[simp] theorem State.setGen_hold (s : State) (n : Nat) (v : Gen) : (s.setGen n v).hold = s.hold := rfl
@[simp] theorem State.setGen_slv (s : State) (n : Nat) (v : Gen) : (s.setGen n v).slv = s.slv := rfl
@[simp] theorem State.setGen_out (s : State) (n : Nat) (v : Gen) : (s.setGen n v).out = s.out := rfl
@[simp] theorem State.setGen_ticks (s : State) (n : Nat) (v : Gen) : (s.setGen n v).ticks = s.ticks := rfl
@[simp] theorem State.setGen_free (s : State) (n : Nat) (v : Gen) : (s.setGen n v).free = s.free := rfl
@[simp] theorem State.setGen_rst (s : State) (n : Nat) (v : Gen) : (s.setGen n v).rst = s.rst := rfl
@[simp] theorem State.setGen_req (s : State) (n : Nat) (v : Gen) : (s.setGen n v).req = s.req := rfl
@[simp] theorem State.setGen_halves (s : State) (n : Nat) (v : Gen) : (s.setGen n v).halves = s.halves := rfl
@[simp] theorem State.setGen_settle (s : State) (n : Nat) (v : Gen) : (s.setGen n v).settle = s.settle := rfl
@[simp] theorem State.setGen_tbs (s : State) (n : Nat) (v : Gen) : (s.setGen n v).tbs = s.tbs := rfl
@[simp] theorem State.setGen_pps (s : State) (n : Nat) (v : Gen) : (s.setGen n v).pps = s.pps := rfl
@[simp] theorem State.setGen_trigs (s : State) (n : Nat) (v : Gen) : (s.setGen n v).trigs = s.trigs := rfl
@[simp] theorem State.setGen_frames (s : State) (n : Nat) (v : Gen) : (s.setGen n v).frames = s.frames := rfl
@[simp] theorem State.setGen_nextFrame (s : State) (n : Nat) (v : Gen) : (s.setGen n v).nextFrame = s.nextFrame := rfl
@[simp] theorem State.setGen_ports (s : State) (n : Nat) (v : Gen) : (s.setGen n v).ports = s.ports := rfl
@[simp] theorem State.setGen_taken (s : State) (n : Nat) (v : Gen) : (s.setGen n v).taken = s.taken := rfl
@[simp] theorem State.setGen_latches (s : State) (n : Nat) (v : Gen) : (s.setGen n v).latches = s.latches := rfl
@[simp] theorem State.setGen_doms (s : State) (n : Nat) (v : Gen) : (s.setGen n v).doms = s.doms := rfl
@[simp] theorem State.setGen_gasp (s : State) (n : Nat) (v : Gen) : (s.setGen n v).gasp = s.gasp := rfl
@[simp] theorem State.setGen_dic (s : State) (n : Nat) (v : Gen) : (s.setGen n v).dic = s.dic := rfl
@[simp] theorem State.setGen_flt (s : State) (n : Nat) (v : Gen) : (s.setGen n v).flt = s.flt := rfl
@[simp] theorem State.setGen_trunks (s : State) (n : Nat) (v : Gen) : (s.setGen n v).trunks = s.trunks := rfl
@[simp] theorem State.setGen_slots (s : State) (n : Nat) (v : Gen) : (s.setGen n v).slots = s.slots := rfl
@[simp] theorem State.setGen_node (s : State) (n : Nat) (v : Gen) : (s.setGen n v).node = s.node := rfl
@[simp] theorem State.setGen_pipes (s : State) (n : Nat) (v : Gen) : (s.setGen n v).pipes = s.pipes := rfl
@[simp] theorem State.setGen_graph (s : State) (n : Nat) (v : Gen) : (s.setGen n v).graph = s.graph := rfl
@[simp] theorem State.setGen_gload (s : State) (n : Nat) (v : Gen) : (s.setGen n v).gload = s.gload := rfl
@[simp] theorem State.setGen_cls (s : State) (n : Nat) (v : Gen) : (s.setGen n v).cls = s.cls := rfl
@[simp] theorem State.setGen_ems (s : State) (n : Nat) (v : Gen) : (s.setGen n v).ems = s.ems := rfl
@[simp] theorem State.setGen_threads (s : State) (n : Nat) (v : Gen) : (s.setGen n v).threads = s.threads := rfl
@[simp] theorem State.setGen_wheel (s : State) (n : Nat) (v : Gen) : (s.setGen n v).wheel = s.wheel := rfl
@[simp] theorem State.setGen_emem (s : State) (n : Nat) (v : Gen) : (s.setGen n v).emem = s.emem := rfl
@[simp] theorem State.setGen_splices (s : State) (n : Nat) (v : Gen) : (s.setGen n v).splices = s.splices := rfl
@[simp] theorem State.setGen_funcs (s : State) (n : Nat) (v : Gen) : (s.setGen n v).funcs = s.funcs := rfl
@[simp] theorem State.setGen_qps (s : State) (n : Nat) (v : Gen) : (s.setGen n v).qps = s.qps := rfl
@[simp] theorem State.setGen_binds (s : State) (n : Nat) (v : Gen) : (s.setGen n v).binds = s.binds := rfl
@[simp] theorem State.setGen_admin (s : State) (n : Nat) (v : Gen) : (s.setGen n v).admin = s.admin := rfl
@[simp] theorem State.setGen_mem (s : State) (n : Nat) (v : Gen) : (s.setGen n v).mem = s.mem := rfl
@[simp] theorem State.setGen_chks (s : State) (n : Nat) (v : Gen) : (s.setGen n v).chks = s.chks := rfl
@[simp] theorem State.setGen_dmas (s : State) (n : Nat) (v : Gen) : (s.setGen n v).dmas = s.dmas := rfl
@[simp] theorem State.trig_setTrig_self (s : State) (n : Nat) (v : Trig) : (s.setTrig n v).trig n = v := by simp [State.trig, State.setTrig]
theorem State.trig_setTrig_ne (s : State) {n k : Nat} (v : Trig) (h : k ≠ n) : (s.setTrig n v).trig k = s.trig k := by
  simp [State.trig, State.setTrig, KMap.get_put_ne _ _ _ v h]
@[simp] theorem State.rd_setTrig (s : State) (n : Nat) (v : Trig) (k : Nat) : (s.setTrig n v).rd k = s.rd k := State.rd_congr rfl rfl _
@[simp] theorem State.fget_setTrig (s : State) (n : Nat) (v : Trig) (f : Fld) : (s.setTrig n v).fget f = s.fget f := State.fget_congr rfl rfl _
@[simp] theorem State.flag_setTrig (s : State) (n : Nat) (v : Trig) (f : Fld) : (s.setTrig n v).flag f = s.flag f := State.flag_congr rfl rfl _
@[simp] theorem State.trig_wr (s : State) (k n : Nat) (w : Word) : (s.wr k w).trig n = s.trig n := by simp [State.trig]
@[simp] theorem State.trig_fset (s : State) (f : Fld) (n w : Nat) : (s.fset f w).trig n = s.trig n := by simp [State.trig]
@[simp] theorem State.trig_raise (s : State) (k n : Nat) : (s.raise k).trig n = s.trig n := by simp [State.trig]
@[simp] theorem State.setTrig_cfg (s : State) (n : Nat) (v : Trig) : (s.setTrig n v).cfg = s.cfg := rfl
@[simp] theorem State.setTrig_pending (s : State) (n : Nat) (v : Trig) : (s.setTrig n v).pending = s.pending := rfl
@[simp] theorem State.setTrig_regs (s : State) (n : Nat) (v : Trig) : (s.setTrig n v).regs = s.regs := rfl
@[simp] theorem State.setTrig_stage (s : State) (n : Nat) (v : Trig) : (s.setTrig n v).stage = s.stage := rfl
@[simp] theorem State.setTrig_hold (s : State) (n : Nat) (v : Trig) : (s.setTrig n v).hold = s.hold := rfl
@[simp] theorem State.setTrig_slv (s : State) (n : Nat) (v : Trig) : (s.setTrig n v).slv = s.slv := rfl
@[simp] theorem State.setTrig_out (s : State) (n : Nat) (v : Trig) : (s.setTrig n v).out = s.out := rfl
@[simp] theorem State.setTrig_ticks (s : State) (n : Nat) (v : Trig) : (s.setTrig n v).ticks = s.ticks := rfl
@[simp] theorem State.setTrig_free (s : State) (n : Nat) (v : Trig) : (s.setTrig n v).free = s.free := rfl
@[simp] theorem State.setTrig_rst (s : State) (n : Nat) (v : Trig) : (s.setTrig n v).rst = s.rst := rfl
@[simp] theorem State.setTrig_req (s : State) (n : Nat) (v : Trig) : (s.setTrig n v).req = s.req := rfl
@[simp] theorem State.setTrig_halves (s : State) (n : Nat) (v : Trig) : (s.setTrig n v).halves = s.halves := rfl
@[simp] theorem State.setTrig_settle (s : State) (n : Nat) (v : Trig) : (s.setTrig n v).settle = s.settle := rfl
@[simp] theorem State.setTrig_tbs (s : State) (n : Nat) (v : Trig) : (s.setTrig n v).tbs = s.tbs := rfl
@[simp] theorem State.setTrig_pps (s : State) (n : Nat) (v : Trig) : (s.setTrig n v).pps = s.pps := rfl
@[simp] theorem State.setTrig_gens (s : State) (n : Nat) (v : Trig) : (s.setTrig n v).gens = s.gens := rfl
@[simp] theorem State.setTrig_frames (s : State) (n : Nat) (v : Trig) : (s.setTrig n v).frames = s.frames := rfl
@[simp] theorem State.setTrig_nextFrame (s : State) (n : Nat) (v : Trig) : (s.setTrig n v).nextFrame = s.nextFrame := rfl
@[simp] theorem State.setTrig_ports (s : State) (n : Nat) (v : Trig) : (s.setTrig n v).ports = s.ports := rfl
@[simp] theorem State.setTrig_taken (s : State) (n : Nat) (v : Trig) : (s.setTrig n v).taken = s.taken := rfl
@[simp] theorem State.setTrig_latches (s : State) (n : Nat) (v : Trig) : (s.setTrig n v).latches = s.latches := rfl
@[simp] theorem State.setTrig_doms (s : State) (n : Nat) (v : Trig) : (s.setTrig n v).doms = s.doms := rfl
@[simp] theorem State.setTrig_gasp (s : State) (n : Nat) (v : Trig) : (s.setTrig n v).gasp = s.gasp := rfl
@[simp] theorem State.setTrig_dic (s : State) (n : Nat) (v : Trig) : (s.setTrig n v).dic = s.dic := rfl
@[simp] theorem State.setTrig_flt (s : State) (n : Nat) (v : Trig) : (s.setTrig n v).flt = s.flt := rfl
@[simp] theorem State.setTrig_trunks (s : State) (n : Nat) (v : Trig) : (s.setTrig n v).trunks = s.trunks := rfl
@[simp] theorem State.setTrig_slots (s : State) (n : Nat) (v : Trig) : (s.setTrig n v).slots = s.slots := rfl
@[simp] theorem State.setTrig_node (s : State) (n : Nat) (v : Trig) : (s.setTrig n v).node = s.node := rfl
@[simp] theorem State.setTrig_pipes (s : State) (n : Nat) (v : Trig) : (s.setTrig n v).pipes = s.pipes := rfl
@[simp] theorem State.setTrig_graph (s : State) (n : Nat) (v : Trig) : (s.setTrig n v).graph = s.graph := rfl
@[simp] theorem State.setTrig_gload (s : State) (n : Nat) (v : Trig) : (s.setTrig n v).gload = s.gload := rfl
@[simp] theorem State.setTrig_cls (s : State) (n : Nat) (v : Trig) : (s.setTrig n v).cls = s.cls := rfl
@[simp] theorem State.setTrig_ems (s : State) (n : Nat) (v : Trig) : (s.setTrig n v).ems = s.ems := rfl
@[simp] theorem State.setTrig_threads (s : State) (n : Nat) (v : Trig) : (s.setTrig n v).threads = s.threads := rfl
@[simp] theorem State.setTrig_wheel (s : State) (n : Nat) (v : Trig) : (s.setTrig n v).wheel = s.wheel := rfl
@[simp] theorem State.setTrig_emem (s : State) (n : Nat) (v : Trig) : (s.setTrig n v).emem = s.emem := rfl
@[simp] theorem State.setTrig_splices (s : State) (n : Nat) (v : Trig) : (s.setTrig n v).splices = s.splices := rfl
@[simp] theorem State.setTrig_funcs (s : State) (n : Nat) (v : Trig) : (s.setTrig n v).funcs = s.funcs := rfl
@[simp] theorem State.setTrig_qps (s : State) (n : Nat) (v : Trig) : (s.setTrig n v).qps = s.qps := rfl
@[simp] theorem State.setTrig_binds (s : State) (n : Nat) (v : Trig) : (s.setTrig n v).binds = s.binds := rfl
@[simp] theorem State.setTrig_admin (s : State) (n : Nat) (v : Trig) : (s.setTrig n v).admin = s.admin := rfl
@[simp] theorem State.setTrig_mem (s : State) (n : Nat) (v : Trig) : (s.setTrig n v).mem = s.mem := rfl
@[simp] theorem State.setTrig_chks (s : State) (n : Nat) (v : Trig) : (s.setTrig n v).chks = s.chks := rfl
@[simp] theorem State.setTrig_dmas (s : State) (n : Nat) (v : Trig) : (s.setTrig n v).dmas = s.dmas := rfl
@[simp] theorem State.port_setPort_self (s : State) (n : Nat) (v : Port) : (s.setPort n v).port n = v := by simp [State.port, State.setPort]
theorem State.port_setPort_ne (s : State) {n k : Nat} (v : Port) (h : k ≠ n) : (s.setPort n v).port k = s.port k := by
  simp [State.port, State.setPort, KMap.get_put_ne _ _ _ v h]
@[simp] theorem State.rd_setPort (s : State) (n : Nat) (v : Port) (k : Nat) : (s.setPort n v).rd k = s.rd k := State.rd_congr rfl rfl _
@[simp] theorem State.fget_setPort (s : State) (n : Nat) (v : Port) (f : Fld) : (s.setPort n v).fget f = s.fget f := State.fget_congr rfl rfl _
@[simp] theorem State.flag_setPort (s : State) (n : Nat) (v : Port) (f : Fld) : (s.setPort n v).flag f = s.flag f := State.flag_congr rfl rfl _
@[simp] theorem State.port_wr (s : State) (k n : Nat) (w : Word) : (s.wr k w).port n = s.port n := by simp [State.port]
@[simp] theorem State.port_fset (s : State) (f : Fld) (n w : Nat) : (s.fset f w).port n = s.port n := by simp [State.port]
@[simp] theorem State.port_raise (s : State) (k n : Nat) : (s.raise k).port n = s.port n := by simp [State.port]
@[simp] theorem State.setPort_cfg (s : State) (n : Nat) (v : Port) : (s.setPort n v).cfg = s.cfg := rfl
@[simp] theorem State.setPort_pending (s : State) (n : Nat) (v : Port) : (s.setPort n v).pending = s.pending := rfl
@[simp] theorem State.setPort_regs (s : State) (n : Nat) (v : Port) : (s.setPort n v).regs = s.regs := rfl
@[simp] theorem State.setPort_stage (s : State) (n : Nat) (v : Port) : (s.setPort n v).stage = s.stage := rfl
@[simp] theorem State.setPort_hold (s : State) (n : Nat) (v : Port) : (s.setPort n v).hold = s.hold := rfl
@[simp] theorem State.setPort_slv (s : State) (n : Nat) (v : Port) : (s.setPort n v).slv = s.slv := rfl
@[simp] theorem State.setPort_out (s : State) (n : Nat) (v : Port) : (s.setPort n v).out = s.out := rfl
@[simp] theorem State.setPort_ticks (s : State) (n : Nat) (v : Port) : (s.setPort n v).ticks = s.ticks := rfl
@[simp] theorem State.setPort_free (s : State) (n : Nat) (v : Port) : (s.setPort n v).free = s.free := rfl
@[simp] theorem State.setPort_rst (s : State) (n : Nat) (v : Port) : (s.setPort n v).rst = s.rst := rfl
@[simp] theorem State.setPort_req (s : State) (n : Nat) (v : Port) : (s.setPort n v).req = s.req := rfl
@[simp] theorem State.setPort_halves (s : State) (n : Nat) (v : Port) : (s.setPort n v).halves = s.halves := rfl
@[simp] theorem State.setPort_settle (s : State) (n : Nat) (v : Port) : (s.setPort n v).settle = s.settle := rfl
@[simp] theorem State.setPort_tbs (s : State) (n : Nat) (v : Port) : (s.setPort n v).tbs = s.tbs := rfl
@[simp] theorem State.setPort_pps (s : State) (n : Nat) (v : Port) : (s.setPort n v).pps = s.pps := rfl
@[simp] theorem State.setPort_gens (s : State) (n : Nat) (v : Port) : (s.setPort n v).gens = s.gens := rfl
@[simp] theorem State.setPort_trigs (s : State) (n : Nat) (v : Port) : (s.setPort n v).trigs = s.trigs := rfl
@[simp] theorem State.setPort_frames (s : State) (n : Nat) (v : Port) : (s.setPort n v).frames = s.frames := rfl
@[simp] theorem State.setPort_nextFrame (s : State) (n : Nat) (v : Port) : (s.setPort n v).nextFrame = s.nextFrame := rfl
@[simp] theorem State.setPort_taken (s : State) (n : Nat) (v : Port) : (s.setPort n v).taken = s.taken := rfl
@[simp] theorem State.setPort_latches (s : State) (n : Nat) (v : Port) : (s.setPort n v).latches = s.latches := rfl
@[simp] theorem State.setPort_doms (s : State) (n : Nat) (v : Port) : (s.setPort n v).doms = s.doms := rfl
@[simp] theorem State.setPort_gasp (s : State) (n : Nat) (v : Port) : (s.setPort n v).gasp = s.gasp := rfl
@[simp] theorem State.setPort_dic (s : State) (n : Nat) (v : Port) : (s.setPort n v).dic = s.dic := rfl
@[simp] theorem State.setPort_flt (s : State) (n : Nat) (v : Port) : (s.setPort n v).flt = s.flt := rfl
@[simp] theorem State.setPort_trunks (s : State) (n : Nat) (v : Port) : (s.setPort n v).trunks = s.trunks := rfl
@[simp] theorem State.setPort_slots (s : State) (n : Nat) (v : Port) : (s.setPort n v).slots = s.slots := rfl
@[simp] theorem State.setPort_node (s : State) (n : Nat) (v : Port) : (s.setPort n v).node = s.node := rfl
@[simp] theorem State.setPort_pipes (s : State) (n : Nat) (v : Port) : (s.setPort n v).pipes = s.pipes := rfl
@[simp] theorem State.setPort_graph (s : State) (n : Nat) (v : Port) : (s.setPort n v).graph = s.graph := rfl
@[simp] theorem State.setPort_gload (s : State) (n : Nat) (v : Port) : (s.setPort n v).gload = s.gload := rfl
@[simp] theorem State.setPort_cls (s : State) (n : Nat) (v : Port) : (s.setPort n v).cls = s.cls := rfl
@[simp] theorem State.setPort_ems (s : State) (n : Nat) (v : Port) : (s.setPort n v).ems = s.ems := rfl
@[simp] theorem State.setPort_threads (s : State) (n : Nat) (v : Port) : (s.setPort n v).threads = s.threads := rfl
@[simp] theorem State.setPort_wheel (s : State) (n : Nat) (v : Port) : (s.setPort n v).wheel = s.wheel := rfl
@[simp] theorem State.setPort_emem (s : State) (n : Nat) (v : Port) : (s.setPort n v).emem = s.emem := rfl
@[simp] theorem State.setPort_splices (s : State) (n : Nat) (v : Port) : (s.setPort n v).splices = s.splices := rfl
@[simp] theorem State.setPort_funcs (s : State) (n : Nat) (v : Port) : (s.setPort n v).funcs = s.funcs := rfl
@[simp] theorem State.setPort_qps (s : State) (n : Nat) (v : Port) : (s.setPort n v).qps = s.qps := rfl
@[simp] theorem State.setPort_binds (s : State) (n : Nat) (v : Port) : (s.setPort n v).binds = s.binds := rfl
@[simp] theorem State.setPort_admin (s : State) (n : Nat) (v : Port) : (s.setPort n v).admin = s.admin := rfl
@[simp] theorem State.setPort_mem (s : State) (n : Nat) (v : Port) : (s.setPort n v).mem = s.mem := rfl
@[simp] theorem State.setPort_chks (s : State) (n : Nat) (v : Port) : (s.setPort n v).chks = s.chks := rfl
@[simp] theorem State.setPort_dmas (s : State) (n : Nat) (v : Port) : (s.setPort n v).dmas = s.dmas := rfl
@[simp] theorem State.frame_setFrame_self (s : State) (n : Nat) (v : Frame) : (s.setFrame n v).frame n = v := by simp [State.frame, State.setFrame]
theorem State.frame_setFrame_ne (s : State) {n k : Nat} (v : Frame) (h : k ≠ n) : (s.setFrame n v).frame k = s.frame k := by
  simp [State.frame, State.setFrame, KMap.get_put_ne _ _ _ v h]
@[simp] theorem State.rd_setFrame (s : State) (n : Nat) (v : Frame) (k : Nat) : (s.setFrame n v).rd k = s.rd k := State.rd_congr rfl rfl _
@[simp] theorem State.fget_setFrame (s : State) (n : Nat) (v : Frame) (f : Fld) : (s.setFrame n v).fget f = s.fget f := State.fget_congr rfl rfl _
@[simp] theorem State.flag_setFrame (s : State) (n : Nat) (v : Frame) (f : Fld) : (s.setFrame n v).flag f = s.flag f := State.flag_congr rfl rfl _
@[simp] theorem State.frame_wr (s : State) (k n : Nat) (w : Word) : (s.wr k w).frame n = s.frame n := by simp [State.frame]
@[simp] theorem State.frame_fset (s : State) (f : Fld) (n w : Nat) : (s.fset f w).frame n = s.frame n := by simp [State.frame]
@[simp] theorem State.frame_raise (s : State) (k n : Nat) : (s.raise k).frame n = s.frame n := by simp [State.frame]
@[simp] theorem State.setFrame_cfg (s : State) (n : Nat) (v : Frame) : (s.setFrame n v).cfg = s.cfg := rfl
@[simp] theorem State.setFrame_pending (s : State) (n : Nat) (v : Frame) : (s.setFrame n v).pending = s.pending := rfl
@[simp] theorem State.setFrame_regs (s : State) (n : Nat) (v : Frame) : (s.setFrame n v).regs = s.regs := rfl
@[simp] theorem State.setFrame_stage (s : State) (n : Nat) (v : Frame) : (s.setFrame n v).stage = s.stage := rfl
@[simp] theorem State.setFrame_hold (s : State) (n : Nat) (v : Frame) : (s.setFrame n v).hold = s.hold := rfl
@[simp] theorem State.setFrame_slv (s : State) (n : Nat) (v : Frame) : (s.setFrame n v).slv = s.slv := rfl
@[simp] theorem State.setFrame_out (s : State) (n : Nat) (v : Frame) : (s.setFrame n v).out = s.out := rfl
@[simp] theorem State.setFrame_ticks (s : State) (n : Nat) (v : Frame) : (s.setFrame n v).ticks = s.ticks := rfl
@[simp] theorem State.setFrame_free (s : State) (n : Nat) (v : Frame) : (s.setFrame n v).free = s.free := rfl
@[simp] theorem State.setFrame_rst (s : State) (n : Nat) (v : Frame) : (s.setFrame n v).rst = s.rst := rfl
@[simp] theorem State.setFrame_req (s : State) (n : Nat) (v : Frame) : (s.setFrame n v).req = s.req := rfl
@[simp] theorem State.setFrame_halves (s : State) (n : Nat) (v : Frame) : (s.setFrame n v).halves = s.halves := rfl
@[simp] theorem State.setFrame_settle (s : State) (n : Nat) (v : Frame) : (s.setFrame n v).settle = s.settle := rfl
@[simp] theorem State.setFrame_tbs (s : State) (n : Nat) (v : Frame) : (s.setFrame n v).tbs = s.tbs := rfl
@[simp] theorem State.setFrame_pps (s : State) (n : Nat) (v : Frame) : (s.setFrame n v).pps = s.pps := rfl
@[simp] theorem State.setFrame_gens (s : State) (n : Nat) (v : Frame) : (s.setFrame n v).gens = s.gens := rfl
@[simp] theorem State.setFrame_trigs (s : State) (n : Nat) (v : Frame) : (s.setFrame n v).trigs = s.trigs := rfl
@[simp] theorem State.setFrame_nextFrame (s : State) (n : Nat) (v : Frame) : (s.setFrame n v).nextFrame = s.nextFrame := rfl
@[simp] theorem State.setFrame_ports (s : State) (n : Nat) (v : Frame) : (s.setFrame n v).ports = s.ports := rfl
@[simp] theorem State.setFrame_taken (s : State) (n : Nat) (v : Frame) : (s.setFrame n v).taken = s.taken := rfl
@[simp] theorem State.setFrame_latches (s : State) (n : Nat) (v : Frame) : (s.setFrame n v).latches = s.latches := rfl
@[simp] theorem State.setFrame_doms (s : State) (n : Nat) (v : Frame) : (s.setFrame n v).doms = s.doms := rfl
@[simp] theorem State.setFrame_gasp (s : State) (n : Nat) (v : Frame) : (s.setFrame n v).gasp = s.gasp := rfl
@[simp] theorem State.setFrame_dic (s : State) (n : Nat) (v : Frame) : (s.setFrame n v).dic = s.dic := rfl
@[simp] theorem State.setFrame_flt (s : State) (n : Nat) (v : Frame) : (s.setFrame n v).flt = s.flt := rfl
@[simp] theorem State.setFrame_trunks (s : State) (n : Nat) (v : Frame) : (s.setFrame n v).trunks = s.trunks := rfl
@[simp] theorem State.setFrame_slots (s : State) (n : Nat) (v : Frame) : (s.setFrame n v).slots = s.slots := rfl
@[simp] theorem State.setFrame_node (s : State) (n : Nat) (v : Frame) : (s.setFrame n v).node = s.node := rfl
@[simp] theorem State.setFrame_pipes (s : State) (n : Nat) (v : Frame) : (s.setFrame n v).pipes = s.pipes := rfl
@[simp] theorem State.setFrame_graph (s : State) (n : Nat) (v : Frame) : (s.setFrame n v).graph = s.graph := rfl
@[simp] theorem State.setFrame_gload (s : State) (n : Nat) (v : Frame) : (s.setFrame n v).gload = s.gload := rfl
@[simp] theorem State.setFrame_cls (s : State) (n : Nat) (v : Frame) : (s.setFrame n v).cls = s.cls := rfl
@[simp] theorem State.setFrame_ems (s : State) (n : Nat) (v : Frame) : (s.setFrame n v).ems = s.ems := rfl
@[simp] theorem State.setFrame_threads (s : State) (n : Nat) (v : Frame) : (s.setFrame n v).threads = s.threads := rfl
@[simp] theorem State.setFrame_wheel (s : State) (n : Nat) (v : Frame) : (s.setFrame n v).wheel = s.wheel := rfl
@[simp] theorem State.setFrame_emem (s : State) (n : Nat) (v : Frame) : (s.setFrame n v).emem = s.emem := rfl
@[simp] theorem State.setFrame_splices (s : State) (n : Nat) (v : Frame) : (s.setFrame n v).splices = s.splices := rfl
@[simp] theorem State.setFrame_funcs (s : State) (n : Nat) (v : Frame) : (s.setFrame n v).funcs = s.funcs := rfl
@[simp] theorem State.setFrame_qps (s : State) (n : Nat) (v : Frame) : (s.setFrame n v).qps = s.qps := rfl
@[simp] theorem State.setFrame_binds (s : State) (n : Nat) (v : Frame) : (s.setFrame n v).binds = s.binds := rfl
@[simp] theorem State.setFrame_admin (s : State) (n : Nat) (v : Frame) : (s.setFrame n v).admin = s.admin := rfl
@[simp] theorem State.setFrame_mem (s : State) (n : Nat) (v : Frame) : (s.setFrame n v).mem = s.mem := rfl
@[simp] theorem State.setFrame_chks (s : State) (n : Nat) (v : Frame) : (s.setFrame n v).chks = s.chks := rfl
@[simp] theorem State.setFrame_dmas (s : State) (n : Nat) (v : Frame) : (s.setFrame n v).dmas = s.dmas := rfl
@[simp] theorem State.dom_setDom_self (s : State) (n : Nat) (v : DomSt) : (s.setDom n v).dom n = v := by simp [State.dom, State.setDom]
theorem State.dom_setDom_ne (s : State) {n k : Nat} (v : DomSt) (h : k ≠ n) : (s.setDom n v).dom k = s.dom k := by
  simp [State.dom, State.setDom, KMap.get_put_ne _ _ _ v h]
@[simp] theorem State.rd_setDom (s : State) (n : Nat) (v : DomSt) (k : Nat) : (s.setDom n v).rd k = s.rd k := State.rd_congr rfl rfl _
@[simp] theorem State.fget_setDom (s : State) (n : Nat) (v : DomSt) (f : Fld) : (s.setDom n v).fget f = s.fget f := State.fget_congr rfl rfl _
@[simp] theorem State.flag_setDom (s : State) (n : Nat) (v : DomSt) (f : Fld) : (s.setDom n v).flag f = s.flag f := State.flag_congr rfl rfl _
@[simp] theorem State.dom_wr (s : State) (k n : Nat) (w : Word) : (s.wr k w).dom n = s.dom n := by simp [State.dom]
@[simp] theorem State.dom_fset (s : State) (f : Fld) (n w : Nat) : (s.fset f w).dom n = s.dom n := by simp [State.dom]
@[simp] theorem State.dom_raise (s : State) (k n : Nat) : (s.raise k).dom n = s.dom n := by simp [State.dom]
@[simp] theorem State.setDom_cfg (s : State) (n : Nat) (v : DomSt) : (s.setDom n v).cfg = s.cfg := rfl
@[simp] theorem State.setDom_pending (s : State) (n : Nat) (v : DomSt) : (s.setDom n v).pending = s.pending := rfl
@[simp] theorem State.setDom_regs (s : State) (n : Nat) (v : DomSt) : (s.setDom n v).regs = s.regs := rfl
@[simp] theorem State.setDom_stage (s : State) (n : Nat) (v : DomSt) : (s.setDom n v).stage = s.stage := rfl
@[simp] theorem State.setDom_hold (s : State) (n : Nat) (v : DomSt) : (s.setDom n v).hold = s.hold := rfl
@[simp] theorem State.setDom_slv (s : State) (n : Nat) (v : DomSt) : (s.setDom n v).slv = s.slv := rfl
@[simp] theorem State.setDom_out (s : State) (n : Nat) (v : DomSt) : (s.setDom n v).out = s.out := rfl
@[simp] theorem State.setDom_ticks (s : State) (n : Nat) (v : DomSt) : (s.setDom n v).ticks = s.ticks := rfl
@[simp] theorem State.setDom_free (s : State) (n : Nat) (v : DomSt) : (s.setDom n v).free = s.free := rfl
@[simp] theorem State.setDom_rst (s : State) (n : Nat) (v : DomSt) : (s.setDom n v).rst = s.rst := rfl
@[simp] theorem State.setDom_req (s : State) (n : Nat) (v : DomSt) : (s.setDom n v).req = s.req := rfl
@[simp] theorem State.setDom_halves (s : State) (n : Nat) (v : DomSt) : (s.setDom n v).halves = s.halves := rfl
@[simp] theorem State.setDom_settle (s : State) (n : Nat) (v : DomSt) : (s.setDom n v).settle = s.settle := rfl
@[simp] theorem State.setDom_tbs (s : State) (n : Nat) (v : DomSt) : (s.setDom n v).tbs = s.tbs := rfl
@[simp] theorem State.setDom_pps (s : State) (n : Nat) (v : DomSt) : (s.setDom n v).pps = s.pps := rfl
@[simp] theorem State.setDom_gens (s : State) (n : Nat) (v : DomSt) : (s.setDom n v).gens = s.gens := rfl
@[simp] theorem State.setDom_trigs (s : State) (n : Nat) (v : DomSt) : (s.setDom n v).trigs = s.trigs := rfl
@[simp] theorem State.setDom_frames (s : State) (n : Nat) (v : DomSt) : (s.setDom n v).frames = s.frames := rfl
@[simp] theorem State.setDom_nextFrame (s : State) (n : Nat) (v : DomSt) : (s.setDom n v).nextFrame = s.nextFrame := rfl
@[simp] theorem State.setDom_ports (s : State) (n : Nat) (v : DomSt) : (s.setDom n v).ports = s.ports := rfl
@[simp] theorem State.setDom_taken (s : State) (n : Nat) (v : DomSt) : (s.setDom n v).taken = s.taken := rfl
@[simp] theorem State.setDom_latches (s : State) (n : Nat) (v : DomSt) : (s.setDom n v).latches = s.latches := rfl
@[simp] theorem State.setDom_gasp (s : State) (n : Nat) (v : DomSt) : (s.setDom n v).gasp = s.gasp := rfl
@[simp] theorem State.setDom_dic (s : State) (n : Nat) (v : DomSt) : (s.setDom n v).dic = s.dic := rfl
@[simp] theorem State.setDom_flt (s : State) (n : Nat) (v : DomSt) : (s.setDom n v).flt = s.flt := rfl
@[simp] theorem State.setDom_trunks (s : State) (n : Nat) (v : DomSt) : (s.setDom n v).trunks = s.trunks := rfl
@[simp] theorem State.setDom_slots (s : State) (n : Nat) (v : DomSt) : (s.setDom n v).slots = s.slots := rfl
@[simp] theorem State.setDom_node (s : State) (n : Nat) (v : DomSt) : (s.setDom n v).node = s.node := rfl
@[simp] theorem State.setDom_pipes (s : State) (n : Nat) (v : DomSt) : (s.setDom n v).pipes = s.pipes := rfl
@[simp] theorem State.setDom_graph (s : State) (n : Nat) (v : DomSt) : (s.setDom n v).graph = s.graph := rfl
@[simp] theorem State.setDom_gload (s : State) (n : Nat) (v : DomSt) : (s.setDom n v).gload = s.gload := rfl
@[simp] theorem State.setDom_cls (s : State) (n : Nat) (v : DomSt) : (s.setDom n v).cls = s.cls := rfl
@[simp] theorem State.setDom_ems (s : State) (n : Nat) (v : DomSt) : (s.setDom n v).ems = s.ems := rfl
@[simp] theorem State.setDom_threads (s : State) (n : Nat) (v : DomSt) : (s.setDom n v).threads = s.threads := rfl
@[simp] theorem State.setDom_wheel (s : State) (n : Nat) (v : DomSt) : (s.setDom n v).wheel = s.wheel := rfl
@[simp] theorem State.setDom_emem (s : State) (n : Nat) (v : DomSt) : (s.setDom n v).emem = s.emem := rfl
@[simp] theorem State.setDom_splices (s : State) (n : Nat) (v : DomSt) : (s.setDom n v).splices = s.splices := rfl
@[simp] theorem State.setDom_funcs (s : State) (n : Nat) (v : DomSt) : (s.setDom n v).funcs = s.funcs := rfl
@[simp] theorem State.setDom_qps (s : State) (n : Nat) (v : DomSt) : (s.setDom n v).qps = s.qps := rfl
@[simp] theorem State.setDom_binds (s : State) (n : Nat) (v : DomSt) : (s.setDom n v).binds = s.binds := rfl
@[simp] theorem State.setDom_admin (s : State) (n : Nat) (v : DomSt) : (s.setDom n v).admin = s.admin := rfl
@[simp] theorem State.setDom_mem (s : State) (n : Nat) (v : DomSt) : (s.setDom n v).mem = s.mem := rfl
@[simp] theorem State.setDom_chks (s : State) (n : Nat) (v : DomSt) : (s.setDom n v).chks = s.chks := rfl
@[simp] theorem State.setDom_dmas (s : State) (n : Nat) (v : DomSt) : (s.setDom n v).dmas = s.dmas := rfl
@[simp] theorem State.trunk_setTrunk_self (s : State) (n : Nat) (v : Trunk) : (s.setTrunk n v).trunk n = v := by simp [State.trunk, State.setTrunk]
theorem State.trunk_setTrunk_ne (s : State) {n k : Nat} (v : Trunk) (h : k ≠ n) : (s.setTrunk n v).trunk k = s.trunk k := by
  simp [State.trunk, State.setTrunk, KMap.get_put_ne _ _ _ v h]
@[simp] theorem State.rd_setTrunk (s : State) (n : Nat) (v : Trunk) (k : Nat) : (s.setTrunk n v).rd k = s.rd k := State.rd_congr rfl rfl _
@[simp] theorem State.fget_setTrunk (s : State) (n : Nat) (v : Trunk) (f : Fld) : (s.setTrunk n v).fget f = s.fget f := State.fget_congr rfl rfl _
@[simp] theorem State.flag_setTrunk (s : State) (n : Nat) (v : Trunk) (f : Fld) : (s.setTrunk n v).flag f = s.flag f := State.flag_congr rfl rfl _
@[simp] theorem State.trunk_wr (s : State) (k n : Nat) (w : Word) : (s.wr k w).trunk n = s.trunk n := by simp [State.trunk]
@[simp] theorem State.trunk_fset (s : State) (f : Fld) (n w : Nat) : (s.fset f w).trunk n = s.trunk n := by simp [State.trunk]
@[simp] theorem State.trunk_raise (s : State) (k n : Nat) : (s.raise k).trunk n = s.trunk n := by simp [State.trunk]
@[simp] theorem State.setTrunk_cfg (s : State) (n : Nat) (v : Trunk) : (s.setTrunk n v).cfg = s.cfg := rfl
@[simp] theorem State.setTrunk_pending (s : State) (n : Nat) (v : Trunk) : (s.setTrunk n v).pending = s.pending := rfl
@[simp] theorem State.setTrunk_regs (s : State) (n : Nat) (v : Trunk) : (s.setTrunk n v).regs = s.regs := rfl
@[simp] theorem State.setTrunk_stage (s : State) (n : Nat) (v : Trunk) : (s.setTrunk n v).stage = s.stage := rfl
@[simp] theorem State.setTrunk_hold (s : State) (n : Nat) (v : Trunk) : (s.setTrunk n v).hold = s.hold := rfl
@[simp] theorem State.setTrunk_slv (s : State) (n : Nat) (v : Trunk) : (s.setTrunk n v).slv = s.slv := rfl
@[simp] theorem State.setTrunk_out (s : State) (n : Nat) (v : Trunk) : (s.setTrunk n v).out = s.out := rfl
@[simp] theorem State.setTrunk_ticks (s : State) (n : Nat) (v : Trunk) : (s.setTrunk n v).ticks = s.ticks := rfl
@[simp] theorem State.setTrunk_free (s : State) (n : Nat) (v : Trunk) : (s.setTrunk n v).free = s.free := rfl
@[simp] theorem State.setTrunk_rst (s : State) (n : Nat) (v : Trunk) : (s.setTrunk n v).rst = s.rst := rfl
@[simp] theorem State.setTrunk_req (s : State) (n : Nat) (v : Trunk) : (s.setTrunk n v).req = s.req := rfl
@[simp] theorem State.setTrunk_halves (s : State) (n : Nat) (v : Trunk) : (s.setTrunk n v).halves = s.halves := rfl
@[simp] theorem State.setTrunk_settle (s : State) (n : Nat) (v : Trunk) : (s.setTrunk n v).settle = s.settle := rfl
@[simp] theorem State.setTrunk_tbs (s : State) (n : Nat) (v : Trunk) : (s.setTrunk n v).tbs = s.tbs := rfl
@[simp] theorem State.setTrunk_pps (s : State) (n : Nat) (v : Trunk) : (s.setTrunk n v).pps = s.pps := rfl
@[simp] theorem State.setTrunk_gens (s : State) (n : Nat) (v : Trunk) : (s.setTrunk n v).gens = s.gens := rfl
@[simp] theorem State.setTrunk_trigs (s : State) (n : Nat) (v : Trunk) : (s.setTrunk n v).trigs = s.trigs := rfl
@[simp] theorem State.setTrunk_frames (s : State) (n : Nat) (v : Trunk) : (s.setTrunk n v).frames = s.frames := rfl
@[simp] theorem State.setTrunk_nextFrame (s : State) (n : Nat) (v : Trunk) : (s.setTrunk n v).nextFrame = s.nextFrame := rfl
@[simp] theorem State.setTrunk_ports (s : State) (n : Nat) (v : Trunk) : (s.setTrunk n v).ports = s.ports := rfl
@[simp] theorem State.setTrunk_taken (s : State) (n : Nat) (v : Trunk) : (s.setTrunk n v).taken = s.taken := rfl
@[simp] theorem State.setTrunk_latches (s : State) (n : Nat) (v : Trunk) : (s.setTrunk n v).latches = s.latches := rfl
@[simp] theorem State.setTrunk_doms (s : State) (n : Nat) (v : Trunk) : (s.setTrunk n v).doms = s.doms := rfl
@[simp] theorem State.setTrunk_gasp (s : State) (n : Nat) (v : Trunk) : (s.setTrunk n v).gasp = s.gasp := rfl
@[simp] theorem State.setTrunk_dic (s : State) (n : Nat) (v : Trunk) : (s.setTrunk n v).dic = s.dic := rfl
@[simp] theorem State.setTrunk_flt (s : State) (n : Nat) (v : Trunk) : (s.setTrunk n v).flt = s.flt := rfl
@[simp] theorem State.setTrunk_slots (s : State) (n : Nat) (v : Trunk) : (s.setTrunk n v).slots = s.slots := rfl
@[simp] theorem State.setTrunk_node (s : State) (n : Nat) (v : Trunk) : (s.setTrunk n v).node = s.node := rfl
@[simp] theorem State.setTrunk_pipes (s : State) (n : Nat) (v : Trunk) : (s.setTrunk n v).pipes = s.pipes := rfl
@[simp] theorem State.setTrunk_graph (s : State) (n : Nat) (v : Trunk) : (s.setTrunk n v).graph = s.graph := rfl
@[simp] theorem State.setTrunk_gload (s : State) (n : Nat) (v : Trunk) : (s.setTrunk n v).gload = s.gload := rfl
@[simp] theorem State.setTrunk_cls (s : State) (n : Nat) (v : Trunk) : (s.setTrunk n v).cls = s.cls := rfl
@[simp] theorem State.setTrunk_ems (s : State) (n : Nat) (v : Trunk) : (s.setTrunk n v).ems = s.ems := rfl
@[simp] theorem State.setTrunk_threads (s : State) (n : Nat) (v : Trunk) : (s.setTrunk n v).threads = s.threads := rfl
@[simp] theorem State.setTrunk_wheel (s : State) (n : Nat) (v : Trunk) : (s.setTrunk n v).wheel = s.wheel := rfl
@[simp] theorem State.setTrunk_emem (s : State) (n : Nat) (v : Trunk) : (s.setTrunk n v).emem = s.emem := rfl
@[simp] theorem State.setTrunk_splices (s : State) (n : Nat) (v : Trunk) : (s.setTrunk n v).splices = s.splices := rfl
@[simp] theorem State.setTrunk_funcs (s : State) (n : Nat) (v : Trunk) : (s.setTrunk n v).funcs = s.funcs := rfl
@[simp] theorem State.setTrunk_qps (s : State) (n : Nat) (v : Trunk) : (s.setTrunk n v).qps = s.qps := rfl
@[simp] theorem State.setTrunk_binds (s : State) (n : Nat) (v : Trunk) : (s.setTrunk n v).binds = s.binds := rfl
@[simp] theorem State.setTrunk_admin (s : State) (n : Nat) (v : Trunk) : (s.setTrunk n v).admin = s.admin := rfl
@[simp] theorem State.setTrunk_mem (s : State) (n : Nat) (v : Trunk) : (s.setTrunk n v).mem = s.mem := rfl
@[simp] theorem State.setTrunk_chks (s : State) (n : Nat) (v : Trunk) : (s.setTrunk n v).chks = s.chks := rfl
@[simp] theorem State.setTrunk_dmas (s : State) (n : Nat) (v : Trunk) : (s.setTrunk n v).dmas = s.dmas := rfl
@[simp] theorem State.chk_setChk_self (s : State) (n : Nat) (v : Chk) : (s.setChk n v).chk n = v := by simp [State.chk, State.setChk]
theorem State.chk_setChk_ne (s : State) {n k : Nat} (v : Chk) (h : k ≠ n) : (s.setChk n v).chk k = s.chk k := by
  simp [State.chk, State.setChk, KMap.get_put_ne _ _ _ v h]
@[simp] theorem State.rd_setChk (s : State) (n : Nat) (v : Chk) (k : Nat) : (s.setChk n v).rd k = s.rd k := State.rd_congr rfl rfl _
@[simp] theorem State.fget_setChk (s : State) (n : Nat) (v : Chk) (f : Fld) : (s.setChk n v).fget f = s.fget f := State.fget_congr rfl rfl _
@[simp] theorem State.flag_setChk (s : State) (n : Nat) (v : Chk) (f : Fld) : (s.setChk n v).flag f = s.flag f := State.flag_congr rfl rfl _
@[simp] theorem State.chk_wr (s : State) (k n : Nat) (w : Word) : (s.wr k w).chk n = s.chk n := by simp [State.chk]
@[simp] theorem State.chk_fset (s : State) (f : Fld) (n w : Nat) : (s.fset f w).chk n = s.chk n := by simp [State.chk]
@[simp] theorem State.chk_raise (s : State) (k n : Nat) : (s.raise k).chk n = s.chk n := by simp [State.chk]
@[simp] theorem State.setChk_cfg (s : State) (n : Nat) (v : Chk) : (s.setChk n v).cfg = s.cfg := rfl
@[simp] theorem State.setChk_pending (s : State) (n : Nat) (v : Chk) : (s.setChk n v).pending = s.pending := rfl
@[simp] theorem State.setChk_regs (s : State) (n : Nat) (v : Chk) : (s.setChk n v).regs = s.regs := rfl
@[simp] theorem State.setChk_stage (s : State) (n : Nat) (v : Chk) : (s.setChk n v).stage = s.stage := rfl
@[simp] theorem State.setChk_hold (s : State) (n : Nat) (v : Chk) : (s.setChk n v).hold = s.hold := rfl
@[simp] theorem State.setChk_slv (s : State) (n : Nat) (v : Chk) : (s.setChk n v).slv = s.slv := rfl
@[simp] theorem State.setChk_out (s : State) (n : Nat) (v : Chk) : (s.setChk n v).out = s.out := rfl
@[simp] theorem State.setChk_ticks (s : State) (n : Nat) (v : Chk) : (s.setChk n v).ticks = s.ticks := rfl
@[simp] theorem State.setChk_free (s : State) (n : Nat) (v : Chk) : (s.setChk n v).free = s.free := rfl
@[simp] theorem State.setChk_rst (s : State) (n : Nat) (v : Chk) : (s.setChk n v).rst = s.rst := rfl
@[simp] theorem State.setChk_req (s : State) (n : Nat) (v : Chk) : (s.setChk n v).req = s.req := rfl
@[simp] theorem State.setChk_halves (s : State) (n : Nat) (v : Chk) : (s.setChk n v).halves = s.halves := rfl
@[simp] theorem State.setChk_settle (s : State) (n : Nat) (v : Chk) : (s.setChk n v).settle = s.settle := rfl
@[simp] theorem State.setChk_tbs (s : State) (n : Nat) (v : Chk) : (s.setChk n v).tbs = s.tbs := rfl
@[simp] theorem State.setChk_pps (s : State) (n : Nat) (v : Chk) : (s.setChk n v).pps = s.pps := rfl
@[simp] theorem State.setChk_gens (s : State) (n : Nat) (v : Chk) : (s.setChk n v).gens = s.gens := rfl
@[simp] theorem State.setChk_trigs (s : State) (n : Nat) (v : Chk) : (s.setChk n v).trigs = s.trigs := rfl
@[simp] theorem State.setChk_frames (s : State) (n : Nat) (v : Chk) : (s.setChk n v).frames = s.frames := rfl
@[simp] theorem State.setChk_nextFrame (s : State) (n : Nat) (v : Chk) : (s.setChk n v).nextFrame = s.nextFrame := rfl
@[simp] theorem State.setChk_ports (s : State) (n : Nat) (v : Chk) : (s.setChk n v).ports = s.ports := rfl
@[simp] theorem State.setChk_taken (s : State) (n : Nat) (v : Chk) : (s.setChk n v).taken = s.taken := rfl
@[simp] theorem State.setChk_latches (s : State) (n : Nat) (v : Chk) : (s.setChk n v).latches = s.latches := rfl
@[simp] theorem State.setChk_doms (s : State) (n : Nat) (v : Chk) : (s.setChk n v).doms = s.doms := rfl
@[simp] theorem State.setChk_gasp (s : State) (n : Nat) (v : Chk) : (s.setChk n v).gasp = s.gasp := rfl
@[simp] theorem State.setChk_dic (s : State) (n : Nat) (v : Chk) : (s.setChk n v).dic = s.dic := rfl
@[simp] theorem State.setChk_flt (s : State) (n : Nat) (v : Chk) : (s.setChk n v).flt = s.flt := rfl
@[simp] theorem State.setChk_trunks (s : State) (n : Nat) (v : Chk) : (s.setChk n v).trunks = s.trunks := rfl
@[simp] theorem State.setChk_slots (s : State) (n : Nat) (v : Chk) : (s.setChk n v).slots = s.slots := rfl
@[simp] theorem State.setChk_node (s : State) (n : Nat) (v : Chk) : (s.setChk n v).node = s.node := rfl
@[simp] theorem State.setChk_pipes (s : State) (n : Nat) (v : Chk) : (s.setChk n v).pipes = s.pipes := rfl
@[simp] theorem State.setChk_graph (s : State) (n : Nat) (v : Chk) : (s.setChk n v).graph = s.graph := rfl
@[simp] theorem State.setChk_gload (s : State) (n : Nat) (v : Chk) : (s.setChk n v).gload = s.gload := rfl
@[simp] theorem State.setChk_cls (s : State) (n : Nat) (v : Chk) : (s.setChk n v).cls = s.cls := rfl
@[simp] theorem State.setChk_ems (s : State) (n : Nat) (v : Chk) : (s.setChk n v).ems = s.ems := rfl
@[simp] theorem State.setChk_threads (s : State) (n : Nat) (v : Chk) : (s.setChk n v).threads = s.threads := rfl
@[simp] theorem State.setChk_wheel (s : State) (n : Nat) (v : Chk) : (s.setChk n v).wheel = s.wheel := rfl
@[simp] theorem State.setChk_emem (s : State) (n : Nat) (v : Chk) : (s.setChk n v).emem = s.emem := rfl
@[simp] theorem State.setChk_splices (s : State) (n : Nat) (v : Chk) : (s.setChk n v).splices = s.splices := rfl
@[simp] theorem State.setChk_funcs (s : State) (n : Nat) (v : Chk) : (s.setChk n v).funcs = s.funcs := rfl
@[simp] theorem State.setChk_qps (s : State) (n : Nat) (v : Chk) : (s.setChk n v).qps = s.qps := rfl
@[simp] theorem State.setChk_binds (s : State) (n : Nat) (v : Chk) : (s.setChk n v).binds = s.binds := rfl
@[simp] theorem State.setChk_admin (s : State) (n : Nat) (v : Chk) : (s.setChk n v).admin = s.admin := rfl
@[simp] theorem State.setChk_mem (s : State) (n : Nat) (v : Chk) : (s.setChk n v).mem = s.mem := rfl
@[simp] theorem State.setChk_dmas (s : State) (n : Nat) (v : Chk) : (s.setChk n v).dmas = s.dmas := rfl
@[simp] theorem State.dma_setDma_self (s : State) (n : Nat) (v : Dma) : (s.setDma n v).dma n = v := by simp [State.dma, State.setDma]
theorem State.dma_setDma_ne (s : State) {n k : Nat} (v : Dma) (h : k ≠ n) : (s.setDma n v).dma k = s.dma k := by
  simp [State.dma, State.setDma, KMap.get_put_ne _ _ _ v h]
@[simp] theorem State.rd_setDma (s : State) (n : Nat) (v : Dma) (k : Nat) : (s.setDma n v).rd k = s.rd k := State.rd_congr rfl rfl _
@[simp] theorem State.fget_setDma (s : State) (n : Nat) (v : Dma) (f : Fld) : (s.setDma n v).fget f = s.fget f := State.fget_congr rfl rfl _
@[simp] theorem State.flag_setDma (s : State) (n : Nat) (v : Dma) (f : Fld) : (s.setDma n v).flag f = s.flag f := State.flag_congr rfl rfl _
@[simp] theorem State.dma_wr (s : State) (k n : Nat) (w : Word) : (s.wr k w).dma n = s.dma n := by simp [State.dma]
@[simp] theorem State.dma_fset (s : State) (f : Fld) (n w : Nat) : (s.fset f w).dma n = s.dma n := by simp [State.dma]
@[simp] theorem State.dma_raise (s : State) (k n : Nat) : (s.raise k).dma n = s.dma n := by simp [State.dma]
@[simp] theorem State.setDma_cfg (s : State) (n : Nat) (v : Dma) : (s.setDma n v).cfg = s.cfg := rfl
@[simp] theorem State.setDma_pending (s : State) (n : Nat) (v : Dma) : (s.setDma n v).pending = s.pending := rfl
@[simp] theorem State.setDma_regs (s : State) (n : Nat) (v : Dma) : (s.setDma n v).regs = s.regs := rfl
@[simp] theorem State.setDma_stage (s : State) (n : Nat) (v : Dma) : (s.setDma n v).stage = s.stage := rfl
@[simp] theorem State.setDma_hold (s : State) (n : Nat) (v : Dma) : (s.setDma n v).hold = s.hold := rfl
@[simp] theorem State.setDma_slv (s : State) (n : Nat) (v : Dma) : (s.setDma n v).slv = s.slv := rfl
@[simp] theorem State.setDma_out (s : State) (n : Nat) (v : Dma) : (s.setDma n v).out = s.out := rfl
@[simp] theorem State.setDma_ticks (s : State) (n : Nat) (v : Dma) : (s.setDma n v).ticks = s.ticks := rfl
@[simp] theorem State.setDma_free (s : State) (n : Nat) (v : Dma) : (s.setDma n v).free = s.free := rfl
@[simp] theorem State.setDma_rst (s : State) (n : Nat) (v : Dma) : (s.setDma n v).rst = s.rst := rfl
@[simp] theorem State.setDma_req (s : State) (n : Nat) (v : Dma) : (s.setDma n v).req = s.req := rfl
@[simp] theorem State.setDma_halves (s : State) (n : Nat) (v : Dma) : (s.setDma n v).halves = s.halves := rfl
@[simp] theorem State.setDma_settle (s : State) (n : Nat) (v : Dma) : (s.setDma n v).settle = s.settle := rfl
@[simp] theorem State.setDma_tbs (s : State) (n : Nat) (v : Dma) : (s.setDma n v).tbs = s.tbs := rfl
@[simp] theorem State.setDma_pps (s : State) (n : Nat) (v : Dma) : (s.setDma n v).pps = s.pps := rfl
@[simp] theorem State.setDma_gens (s : State) (n : Nat) (v : Dma) : (s.setDma n v).gens = s.gens := rfl
@[simp] theorem State.setDma_trigs (s : State) (n : Nat) (v : Dma) : (s.setDma n v).trigs = s.trigs := rfl
@[simp] theorem State.setDma_frames (s : State) (n : Nat) (v : Dma) : (s.setDma n v).frames = s.frames := rfl
@[simp] theorem State.setDma_nextFrame (s : State) (n : Nat) (v : Dma) : (s.setDma n v).nextFrame = s.nextFrame := rfl
@[simp] theorem State.setDma_ports (s : State) (n : Nat) (v : Dma) : (s.setDma n v).ports = s.ports := rfl
@[simp] theorem State.setDma_taken (s : State) (n : Nat) (v : Dma) : (s.setDma n v).taken = s.taken := rfl
@[simp] theorem State.setDma_latches (s : State) (n : Nat) (v : Dma) : (s.setDma n v).latches = s.latches := rfl
@[simp] theorem State.setDma_doms (s : State) (n : Nat) (v : Dma) : (s.setDma n v).doms = s.doms := rfl
@[simp] theorem State.setDma_gasp (s : State) (n : Nat) (v : Dma) : (s.setDma n v).gasp = s.gasp := rfl
@[simp] theorem State.setDma_dic (s : State) (n : Nat) (v : Dma) : (s.setDma n v).dic = s.dic := rfl
@[simp] theorem State.setDma_flt (s : State) (n : Nat) (v : Dma) : (s.setDma n v).flt = s.flt := rfl
@[simp] theorem State.setDma_trunks (s : State) (n : Nat) (v : Dma) : (s.setDma n v).trunks = s.trunks := rfl
@[simp] theorem State.setDma_slots (s : State) (n : Nat) (v : Dma) : (s.setDma n v).slots = s.slots := rfl
@[simp] theorem State.setDma_node (s : State) (n : Nat) (v : Dma) : (s.setDma n v).node = s.node := rfl
@[simp] theorem State.setDma_pipes (s : State) (n : Nat) (v : Dma) : (s.setDma n v).pipes = s.pipes := rfl
@[simp] theorem State.setDma_graph (s : State) (n : Nat) (v : Dma) : (s.setDma n v).graph = s.graph := rfl
@[simp] theorem State.setDma_gload (s : State) (n : Nat) (v : Dma) : (s.setDma n v).gload = s.gload := rfl
@[simp] theorem State.setDma_cls (s : State) (n : Nat) (v : Dma) : (s.setDma n v).cls = s.cls := rfl
@[simp] theorem State.setDma_ems (s : State) (n : Nat) (v : Dma) : (s.setDma n v).ems = s.ems := rfl
@[simp] theorem State.setDma_threads (s : State) (n : Nat) (v : Dma) : (s.setDma n v).threads = s.threads := rfl
@[simp] theorem State.setDma_wheel (s : State) (n : Nat) (v : Dma) : (s.setDma n v).wheel = s.wheel := rfl
@[simp] theorem State.setDma_emem (s : State) (n : Nat) (v : Dma) : (s.setDma n v).emem = s.emem := rfl
@[simp] theorem State.setDma_splices (s : State) (n : Nat) (v : Dma) : (s.setDma n v).splices = s.splices := rfl
@[simp] theorem State.setDma_funcs (s : State) (n : Nat) (v : Dma) : (s.setDma n v).funcs = s.funcs := rfl
@[simp] theorem State.setDma_qps (s : State) (n : Nat) (v : Dma) : (s.setDma n v).qps = s.qps := rfl
@[simp] theorem State.setDma_binds (s : State) (n : Nat) (v : Dma) : (s.setDma n v).binds = s.binds := rfl
@[simp] theorem State.setDma_admin (s : State) (n : Nat) (v : Dma) : (s.setDma n v).admin = s.admin := rfl
@[simp] theorem State.setDma_mem (s : State) (n : Nat) (v : Dma) : (s.setDma n v).mem = s.mem := rfl
@[simp] theorem State.setDma_chks (s : State) (n : Nat) (v : Dma) : (s.setDma n v).chks = s.chks := rfl
@[simp] theorem State.qp_setQp_self (s : State) (n : Nat) (v : Qp) : (s.setQp n v).qp n = v := by simp [State.qp, State.setQp]
theorem State.qp_setQp_ne (s : State) {n k : Nat} (v : Qp) (h : k ≠ n) : (s.setQp n v).qp k = s.qp k := by
  simp [State.qp, State.setQp, KMap.get_put_ne _ _ _ v h]
@[simp] theorem State.rd_setQp (s : State) (n : Nat) (v : Qp) (k : Nat) : (s.setQp n v).rd k = s.rd k := State.rd_congr rfl rfl _
@[simp] theorem State.fget_setQp (s : State) (n : Nat) (v : Qp) (f : Fld) : (s.setQp n v).fget f = s.fget f := State.fget_congr rfl rfl _
@[simp] theorem State.flag_setQp (s : State) (n : Nat) (v : Qp) (f : Fld) : (s.setQp n v).flag f = s.flag f := State.flag_congr rfl rfl _
@[simp] theorem State.qp_wr (s : State) (k n : Nat) (w : Word) : (s.wr k w).qp n = s.qp n := by simp [State.qp]
@[simp] theorem State.qp_fset (s : State) (f : Fld) (n w : Nat) : (s.fset f w).qp n = s.qp n := by simp [State.qp]
@[simp] theorem State.qp_raise (s : State) (k n : Nat) : (s.raise k).qp n = s.qp n := by simp [State.qp]
@[simp] theorem State.setQp_cfg (s : State) (n : Nat) (v : Qp) : (s.setQp n v).cfg = s.cfg := rfl
@[simp] theorem State.setQp_pending (s : State) (n : Nat) (v : Qp) : (s.setQp n v).pending = s.pending := rfl
@[simp] theorem State.setQp_regs (s : State) (n : Nat) (v : Qp) : (s.setQp n v).regs = s.regs := rfl
@[simp] theorem State.setQp_stage (s : State) (n : Nat) (v : Qp) : (s.setQp n v).stage = s.stage := rfl
@[simp] theorem State.setQp_hold (s : State) (n : Nat) (v : Qp) : (s.setQp n v).hold = s.hold := rfl
@[simp] theorem State.setQp_slv (s : State) (n : Nat) (v : Qp) : (s.setQp n v).slv = s.slv := rfl
@[simp] theorem State.setQp_out (s : State) (n : Nat) (v : Qp) : (s.setQp n v).out = s.out := rfl
@[simp] theorem State.setQp_ticks (s : State) (n : Nat) (v : Qp) : (s.setQp n v).ticks = s.ticks := rfl
@[simp] theorem State.setQp_free (s : State) (n : Nat) (v : Qp) : (s.setQp n v).free = s.free := rfl
@[simp] theorem State.setQp_rst (s : State) (n : Nat) (v : Qp) : (s.setQp n v).rst = s.rst := rfl
@[simp] theorem State.setQp_req (s : State) (n : Nat) (v : Qp) : (s.setQp n v).req = s.req := rfl
@[simp] theorem State.setQp_halves (s : State) (n : Nat) (v : Qp) : (s.setQp n v).halves = s.halves := rfl
@[simp] theorem State.setQp_settle (s : State) (n : Nat) (v : Qp) : (s.setQp n v).settle = s.settle := rfl
@[simp] theorem State.setQp_tbs (s : State) (n : Nat) (v : Qp) : (s.setQp n v).tbs = s.tbs := rfl
@[simp] theorem State.setQp_pps (s : State) (n : Nat) (v : Qp) : (s.setQp n v).pps = s.pps := rfl
@[simp] theorem State.setQp_gens (s : State) (n : Nat) (v : Qp) : (s.setQp n v).gens = s.gens := rfl
@[simp] theorem State.setQp_trigs (s : State) (n : Nat) (v : Qp) : (s.setQp n v).trigs = s.trigs := rfl
@[simp] theorem State.setQp_frames (s : State) (n : Nat) (v : Qp) : (s.setQp n v).frames = s.frames := rfl
@[simp] theorem State.setQp_nextFrame (s : State) (n : Nat) (v : Qp) : (s.setQp n v).nextFrame = s.nextFrame := rfl
@[simp] theorem State.setQp_ports (s : State) (n : Nat) (v : Qp) : (s.setQp n v).ports = s.ports := rfl
@[simp] theorem State.setQp_taken (s : State) (n : Nat) (v : Qp) : (s.setQp n v).taken = s.taken := rfl
@[simp] theorem State.setQp_latches (s : State) (n : Nat) (v : Qp) : (s.setQp n v).latches = s.latches := rfl
@[simp] theorem State.setQp_doms (s : State) (n : Nat) (v : Qp) : (s.setQp n v).doms = s.doms := rfl
@[simp] theorem State.setQp_gasp (s : State) (n : Nat) (v : Qp) : (s.setQp n v).gasp = s.gasp := rfl
@[simp] theorem State.setQp_dic (s : State) (n : Nat) (v : Qp) : (s.setQp n v).dic = s.dic := rfl
@[simp] theorem State.setQp_flt (s : State) (n : Nat) (v : Qp) : (s.setQp n v).flt = s.flt := rfl
@[simp] theorem State.setQp_trunks (s : State) (n : Nat) (v : Qp) : (s.setQp n v).trunks = s.trunks := rfl
@[simp] theorem State.setQp_slots (s : State) (n : Nat) (v : Qp) : (s.setQp n v).slots = s.slots := rfl
@[simp] theorem State.setQp_node (s : State) (n : Nat) (v : Qp) : (s.setQp n v).node = s.node := rfl
@[simp] theorem State.setQp_pipes (s : State) (n : Nat) (v : Qp) : (s.setQp n v).pipes = s.pipes := rfl
@[simp] theorem State.setQp_graph (s : State) (n : Nat) (v : Qp) : (s.setQp n v).graph = s.graph := rfl
@[simp] theorem State.setQp_gload (s : State) (n : Nat) (v : Qp) : (s.setQp n v).gload = s.gload := rfl
@[simp] theorem State.setQp_cls (s : State) (n : Nat) (v : Qp) : (s.setQp n v).cls = s.cls := rfl
@[simp] theorem State.setQp_ems (s : State) (n : Nat) (v : Qp) : (s.setQp n v).ems = s.ems := rfl
@[simp] theorem State.setQp_threads (s : State) (n : Nat) (v : Qp) : (s.setQp n v).threads = s.threads := rfl
@[simp] theorem State.setQp_wheel (s : State) (n : Nat) (v : Qp) : (s.setQp n v).wheel = s.wheel := rfl
@[simp] theorem State.setQp_emem (s : State) (n : Nat) (v : Qp) : (s.setQp n v).emem = s.emem := rfl
@[simp] theorem State.setQp_splices (s : State) (n : Nat) (v : Qp) : (s.setQp n v).splices = s.splices := rfl
@[simp] theorem State.setQp_funcs (s : State) (n : Nat) (v : Qp) : (s.setQp n v).funcs = s.funcs := rfl
@[simp] theorem State.setQp_binds (s : State) (n : Nat) (v : Qp) : (s.setQp n v).binds = s.binds := rfl
@[simp] theorem State.setQp_admin (s : State) (n : Nat) (v : Qp) : (s.setQp n v).admin = s.admin := rfl
@[simp] theorem State.setQp_mem (s : State) (n : Nat) (v : Qp) : (s.setQp n v).mem = s.mem := rfl
@[simp] theorem State.setQp_chks (s : State) (n : Nat) (v : Qp) : (s.setQp n v).chks = s.chks := rfl
@[simp] theorem State.setQp_dmas (s : State) (n : Nat) (v : Qp) : (s.setQp n v).dmas = s.dmas := rfl

end Sys2Proof.Machine
end

