-- ==== Sys2Proof/WellFormed.lean ====
section
/-!
DEFINITION. The ranges of the commands' operands: a unit number is one that the larger configuration has (00_scope.md
R3), a function number is below 256, an offset lies in the 16 MiB window (02_boundary_and_access.md R43).
-/
namespace Sys2Proof

/-- Whether every operand lies in its range. DESIGN CHOICE, notes/assumptions/8.md. -/
def Instr.wf (i : Instr) : Bool :=
  match i with
  | .blkRstNAssert _ => true
  | .blkRstNRelease => true
  | .halfResetAssert h => decide (h < 2)
  | .halfResetRelease h => decide (h < 2)
  | .safeRstNAssert _ => true
  | .aonPowerOn => true
  | .modeReqConfig fn _ _ => decide (fn < 256)
  | .modeReqIntegrate fn _ _ => decide (fn < 256)
  | .modeReqSafehold fn _ _ => decide (fn < 256)
  | .modeReqDormant fn _ _ => decide (fn < 256)
  | .modeReqPendingCheck => true
  | .bistDone _ => true
  | .enterOperate => true
  | .heartbeatSend h => decide (h < 2)
  | .heartbeatReceive _ h => decide (h < 2)
  | .linkGlitch h _ => decide (h < 2)
  | .halfLinkLoss h => decide (h < 2)
  | .leaderSettlement => true
  | .stateCopyDone h => decide (h < 2)
  | .tableCopyDone h => decide (h < 2)
  | .spineLinkLoss h => decide (h < 2)
  | .registerWrite fn off _ _ => decide (fn < 256) && decide (off < 16777216)
  | .readTimeout off => decide (off < 16777216)
  | .counterLatchRead fn off _ => decide (fn < 256) && decide (off < 16777216)
  | .pwrFailWarn => true
  | .captureEdge n _ _ => decide (n < 16)
  | .syncInEdge _ => true
  | .syncMissLimit n => decide (n < 8)
  | .clockLoss _ n _ => decide (n < 8)
  | .clockReturn _ n _ => decide (n < 8)
  | .tbSetWrite fn h _ => decide (fn < 256) && decide (h < 2)
  | .tbStepWrite fn h _ _ _ _ => decide (fn < 256) && decide (h < 2)
  | .tbRateWrite fn h _ => decide (fn < 256) && decide (h < 2)
  | .followerTimeApply => true
  | .snapshotLatch fn h _ => decide (fn < 256) && decide (h < 2)
  | .tbSnapNsRead fn h => decide (fn < 256) && decide (h < 2)
  | .ppsPulseStart => true
  | .ppsPulseEnd => true
  | .generatorEnable fn n _ => decide (fn < 256) && decide (n < 8)
  | .generatorDisable fn n _ => decide (fn < 256) && decide (n < 8)
  | .cycleBoundary n => decide (n < 8)
  | .triggerConfigWrite fn n _ _ => decide (fn < 256) && decide (n < 32)
  | .triggerRise n => decide (n < 32)
  | .triggerFall n => decide (n < 32)
  | .captureTsRead fn n => decide (fn < 256) && decide (n < 16)
  | .tbClockLoss h => decide (h < 2)
  | .tbTicksResume h => decide (h < 2)
  | .frameReceive p _ _ _ _ _ => decide (p < 10)
  | .byteTrigger e n _ => decide (e < 12) && decide (n < 8)
  | .cutThroughStart p _ _ => decide (p < 10)
  | .macCtlWrite fn p _ => decide (fn < 256) && decide (p < 10)
  | .pauseFrameReceive p _ _ _ => decide (p < 10)
  | .pauseTimerExpiry p _ => decide (p < 10)
  | .pauseRepeat p _ => decide (p < 10)
  | .collision p _ => decide (p < 8)
  | .backoffExpiry p => decide (p < 8)
  | .verifyResponse p => decide (p < 8)
  | .verifyTimeout p => decide (p < 8)
  | .frameTransmitStart p _ _ _ => decide (p < 10)
  | .frameTransmitEnd p => decide (p < 10)
  | .gateEntryExpiry p => decide (p < 8)
  | .gateListWrite fn p _ _ _ _ _ => decide (fn < 256) && decide (p < 8)
  | .editQueued p _ => decide (p < 10)
  | .editLate p _ => decide (p < 10)
  | .counterClear fn off => decide (fn < 256) && decide (off < 16777216)
  | .trkCfgWrite fn t _ => decide (fn < 256) && decide (t < 2)
  | .pmaLockChange t _ => decide (t < 2)
  | .cellReceive t _ _ _ => decide (t < 2)
  | .linkFaultReceive t _ => decide (t < 2)
  | .cellSlot t _ => decide (t < 2)
  | .superframeInstant h => decide (h < 2)
  | .superframeTimeout t => decide (t < 2)
  | .overheadCellReceive t => decide (t < 2)
  | .urgentCellReceive t => decide (t < 2)
  | .listenTimerExpiry => true
  | .coldsendComplete => true
  | .sourceLossTimeout => true
  | .trkSlotDataWrite fn t _ => decide (fn < 256) && decide (t < 2)
  | .trkSlotDataRead fn t => decide (fn < 256) && decide (t < 2)
  | .gearValidWrite fn t _ => decide (fn < 256) && decide (t < 2)
  | .shiftRequest fn _ => decide (fn < 256)
  | .forcedSwitch fn t => decide (fn < 256) && decide (t < 2)
  | .manualSwitch fn t => decide (fn < 256) && decide (t < 2)
  | .lockout fn t => decide (fn < 256) && decide (t < 2)
  | .clearCommand fn t => decide (fn < 256) && decide (t < 2)
  | .signalFailLocal t => decide (t < 2)
  | .sdWindowEnd t => decide (t < 2)
  | .wtrExpiry => true
  | .parseEntry h => decide (h < 2)
  | .parseStep h _ => decide (h < 2)
  | .graphLoad fn _ => decide (fn < 256)
  | .graphLoadDone _ _ => true
  | .traceArm fn h _ => decide (fn < 256) && decide (h < 2)
  | .prsNodeDataRead fn h => decide (fn < 256) && decide (h < 2)
  | .classify h _ => decide (h < 2)
  | .stageOpen fn => decide (fn < 256)
  | .stageOpenEmpty fn => decide (fn < 256)
  | .stageAbandon fn => decide (fn < 256)
  | .stageOpenDone => true
  | .tcamWrite fn => decide (fn < 256)
  | .tcamAdd fn => decide (fn < 256)
  | .tcamDel fn => decide (fn < 256)
  | .tcamRead fn => decide (fn < 256)
  | .commitRequest fn _ => decide (fn < 256)
  | .commitComplete _ => true
  | .courseRetire n => decide (n < 16)
  | .emInsertFlow fn _ => decide (fn < 256)
  | .emInsertFwd fn _ => decide (fn < 256)
  | .emDelete fn _ => decide (fn < 256)
  | .emRead fn _ => decide (fn < 256)
  | .emCommandDone _ => true
  | .emCfgWrite fn _ => decide (fn < 256)
  | .learnUpdate _ => true
  | .agerVisit h _ => decide (h < 2)
  | .ageRemoval h _ => decide (h < 2)
  | .flushRequest fn _ => decide (fn < 256)
  | .flushSweepDone => true
  | .recoveryResetTimeout _ _ => true
  | .threadRelease fn e n _ _ => decide (fn < 256) && decide (e < 12) && decide (n < 8)
  | .threadHalt fn e n _ => decide (fn < 256) && decide (e < 12) && decide (n < 8)
  | .runSet fn e _ _ => decide (fn < 256) && decide (e < 12)
  | .runClear fn e _ => decide (fn < 256) && decide (e < 12)
  | .eventWaitComplete e n => decide (e < 12) && decide (n < 8)
  | .threadTimerExpiry e n => decide (e < 12) && decide (n < 8)
  | .hostEvent fn e n => decide (fn < 256) && decide (e < 12) && decide (n < 8)
  | .spliceFetchDone => true
  | .aluAdd e n _ _ _ => decide (e < 12) && decide (n < 8)
  | .aluSub e n _ _ _ => decide (e < 12) && decide (n < 8)
  | .aluAnd e n _ _ _ => decide (e < 12) && decide (n < 8)
  | .aluOr e n _ _ _ => decide (e < 12) && decide (n < 8)
  | .aluXor e n _ _ _ => decide (e < 12) && decide (n < 8)
  | .aluAndn e n _ _ _ => decide (e < 12) && decide (n < 8)
  | .aluShl e n _ _ _ => decide (e < 12) && decide (n < 8)
  | .aluShr e n _ _ _ => decide (e < 12) && decide (n < 8)
  | .aluSar e n _ _ _ => decide (e < 12) && decide (n < 8)
  | .aluMul e n _ _ _ => decide (e < 12) && decide (n < 8)
  | .aluMin e n _ _ _ => decide (e < 12) && decide (n < 8)
  | .aluMax e n _ _ _ => decide (e < 12) && decide (n < 8)
  | .aluMinu e n _ _ _ => decide (e < 12) && decide (n < 8)
  | .aluMaxu e n _ _ _ => decide (e < 12) && decide (n < 8)
  | .addi e n _ _ _ => decide (e < 12) && decide (n < 8)
  | .andi e n _ _ _ => decide (e < 12) && decide (n < 8)
  | .ori e n _ _ _ => decide (e < 12) && decide (n < 8)
  | .xori e n _ _ _ => decide (e < 12) && decide (n < 8)
  | .shiShl e n _ _ _ => decide (e < 12) && decide (n < 8)
  | .shiShr e n _ _ _ => decide (e < 12) && decide (n < 8)
  | .shiSar e n _ _ _ => decide (e < 12) && decide (n < 8)
  | .shiRor e n _ _ _ => decide (e < 12) && decide (n < 8)
  | .lui e n _ _ _ => decide (e < 12) && decide (n < 8)
  | .ext e n _ _ _ => decide (e < 12) && decide (n < 8)
  | .ins e n _ _ _ => decide (e < 12) && decide (n < 8)
  | .cmp e n _ _ _ => decide (e < 12) && decide (n < 8)
  | .cmpi e n _ _ _ => decide (e < 12) && decide (n < 8)
  | .b e n _ _ _ => decide (e < 12) && decide (n < 8)
  | .jal e n _ _ _ => decide (e < 12) && decide (n < 8)
  | .jalr e n _ _ _ => decide (e < 12) && decide (n < 8)
  | .ld e n _ _ _ => decide (e < 12) && decide (n < 8)
  | .st e n _ _ _ => decide (e < 12) && decide (n < 8)
  | .fld e n _ _ _ => decide (e < 12) && decide (n < 8)
  | .fst e n _ _ _ => decide (e < 12) && decide (n < 8)
  | .frmTake e n _ _ _ => decide (e < 12) && decide (n < 8)
  | .frmDisp e n _ _ _ => decide (e < 12) && decide (n < 8)
  | .frmFree e n _ _ _ => decide (e < 12) && decide (n < 8)
  | .frmTrigArm e n _ _ _ => decide (e < 12) && decide (n < 8)
  | .frmTrigDisarm e n _ _ _ => decide (e < 12) && decide (n < 8)
  | .frmFinfo e n _ _ _ => decide (e < 12) && decide (n < 8)
  | .spl e n _ _ _ => decide (e < 12) && decide (n < 8)
  | .mfs e n _ _ _ => decide (e < 12) && decide (n < 8)
  | .mts e n _ _ _ => decide (e < 12) && decide (n < 8)
  | .wait e n _ _ _ => decide (e < 12) && decide (n < 8)
  | .sig e n _ _ _ => decide (e < 12) && decide (n < 8)
  | .time e n _ _ _ => decide (e < 12) && decide (n < 8)
  | .amoSwap e n _ _ _ => decide (e < 12) && decide (n < 8)
  | .amoAdd e n _ _ _ => decide (e < 12) && decide (n < 8)
  | .amoAnd e n _ _ _ => decide (e < 12) && decide (n < 8)
  | .amoOr e n _ _ _ => decide (e < 12) && decide (n < 8)
  | .amoXor e n _ _ _ => decide (e < 12) && decide (n < 8)
  | .amoCas e n _ _ _ => decide (e < 12) && decide (n < 8)
  | .crc e n _ _ _ => decide (e < 12) && decide (n < 8)
  | .chkf e n _ _ _ => decide (e < 12) && decide (n < 8)
  | .thcTpc e n _ _ _ => decide (e < 12) && decide (n < 8)
  | .thcTslc e n _ _ _ => decide (e < 12) && decide (n < 8)
  | .thcTgw e n _ _ _ => decide (e < 12) && decide (n < 8)
  | .thcTgr e n _ _ _ => decide (e < 12) && decide (n < 8)
  | .thcTrel e n _ _ _ _ => decide (e < 12) && decide (n < 8)
  | .thcThlt e n _ _ _ => decide (e < 12) && decide (n < 8)
  | .thcTst e n _ _ _ => decide (e < 12) && decide (n < 8)
  | .doorbellTx fn q _ => decide (fn < 256) && decide (q < 4096)
  | .doorbellRx fn q _ => decide (fn < 256) && decide (q < 4096)
  | .doorbellCq fn q _ => decide (fn < 256) && decide (q < 4096)
  | .pushSlotWrite fn q _ _ _ => decide (fn < 256) && decide (q < 4096)
  | .descriptorFetch q _ _ _ _ => decide (q < 4096)
  | .rxDelivery q _ _ _ => decide (q < 4096)
  | .completionWrite q _ => decide (q < 4096)
  | .admin0Enable fn _ => decide (fn < 256)
  | .createFunction f _ _ _ => decide (f < 256)
  | .destroyFunction f _ _ => decide (f < 256)
  | .setQuota f _ _ => decide (f < 256)
  | .createQueue f _ _ => decide (f < 256)
  | .destroyQueue f _ _ => decide (f < 256)
  | .queueDestroyComplete => true
  | .bindPort f _ _ => decide (f < 256)
  | .bindClass f _ _ => decide (f < 256)
  | .query f _ _ => decide (f < 256)
  | .dmaStart fn n _ => decide (fn < 256) && decide (n < 32)
  | .dmaPause fn n _ => decide (fn < 256) && decide (n < 32)
  | .dmaResume fn n _ => decide (fn < 256) && decide (n < 32)
  | .dmaAbort fn n _ => decide (fn < 256) && decide (n < 32)
  | .dmaLastWriteIssued n _ => decide (n < 32)
  | .dmaFenceDone n => decide (n < 32)
  | .dmaDrainDone n _ _ => decide (n < 32)
  | .dmaAccessError n _ _ => decide (n < 32)
  | .dmaListFetchReturn n _ _ _ => decide (n < 32)
  | .dmaEndFetchReturn n _ _ _ => decide (n < 32)
  | .dmaLateWriteError n _ => decide (n < 32)
  | .dmaRecordWrite n _ => decide (n < 32)
  | .dmaCqHeadWrite fn _ => decide (fn < 256)
  | .bankEvacuate fn _ => decide (fn < 256)
  | .bankRelease fn _ => decide (fn < 256)
  | .evacuateDone => true
  | .memDbgWrite fn _ => decide (fn < 256)
  | .memDbgRead fn => decide (fn < 256)
  | .migrationStart _ => true
  | .migrationDone _ => true
  | .pointingPassTimer => true
  | .retestStart _ _ _ _ _ _ _ => true
  | .regionTestDone _ _ => true
  | .chkGo fn n _ => decide (fn < 256) && decide (n < 4)
  | .chkAbort fn n _ => decide (fn < 256) && decide (n < 4)
  | .chkSealWrite fn _ => decide (fn < 256)
  | .chkScanData n _ _ => decide (n < 4)
  | .chkRunEnd n => decide (n < 4)
  | .chkStaleExpiry n _ => decide (n < 4)
  | .chkResultRead fn n => decide (fn < 256) && decide (n < 4)
  | .irqOffer k => decide (k < 8)
  | .vecAck k _ => decide (k < 8)
  | .irqEoi fn k _ => decide (fn < 256) && decide (k < 8)
  | .irqSetpendWrite fn w _ => decide (fn < 256) && decide (w < 32)
  | .aonLatchTransfer => true
  | .powerTargetWrite fn d _ => decide (fn < 256) && decide (d < 43)
  | .sequencerStep => true
  | .pswAckRise d => decide (d < 43)
  | .pswAckTimeout d => decide (d < 43)
  | .listenSample p _ => decide (p < 8)
  | .listenWindowEnd p => decide (p < 8)
  | .wakeEvent src index filter _ =>
      decide (src < 6) && decide (index < 16) && decide (filter < 16)
  | .wakeRequest fn _ => decide (fn < 256)
  | .dicRead fn _ => decide (fn < 256)
  | .dicWrite fn _ => decide (fn < 256)
  | .dicInfo fn _ => decide (fn < 256)
  | .dicCommit fn _ => decide (fn < 256)
  | .dicRestoreDefaults fn _ => decide (fn < 256)
  | .dicDefine fn _ => decide (fn < 256)
  | .dicUndefine fn _ => decide (fn < 256)
  | .dicTake fn _ => decide (fn < 256)
  | .mailboxRequest => true
  | .mailboxFwdResponse => true
  | .fwdTimeout => true
  | .autoCommitTimer => true
  | .storeCommitDone _ _ => true
  | .storeRestoreDone => true
  | .watchdogExpiry => true
  | .watchdogKick fn _ => decide (fn < 256)
  | .faultClear fn _ => decide (fn < 256)
  | .fltLogRead fn n => decide (fn < 256) && decide (n < 32)
  | .illegalInstruction e n _ _ _ => decide (e < 12) && decide (n < 8)
  | .supplyCollapse _ _ _ => true
  | .modeReqOtherTarget fn _ _ _ => decide (fn < 256)
  | .adminBadOpcode f _ _ => decide (f < 256)
  | .dicUnknownOp fn op _ => decide (fn < 256) && decide (op < 16)
  | .bankCmdUnknownOp fn _ => decide (fn < 256)

end Sys2Proof
end

