-- ==== Sys2Proof/Tests/Slice0.lean ====
section
/-!
SUPPORT. The model's own tests: terms that WellFormed refuses, and for every clause of the obligations a concrete state and
operands that meet its hypotheses, with what the command does there. Expected values are worked out from spec/.
-/
namespace Sys2Proof.Tests
open Sys2Proof.Machine
-- Theorems one after another: each waits for the kernel, and many at once take a thread each.
set_option Elab.async false

/-- A powered block out of reset, in mode `m`. -/
def up (c : Cfg) (m : Nat) : State :=
  { State.resetOf c with rst := {} }.fsets [(F.BLK_MODE.MODE, m), (F.BLK_HALF.MODE_A, m), (F.BLK_HALF.MODE_B, m)]

/-- The state after a command. -/
def run (i : Instr) (s : State) : State :=
  match exec i s with
  | .next t => t
  | .fault _ => s
  | .refused _ => s

/-- Fields set in a state. -/
def wth (s : State) (l : List (Fld × Nat)) : State := s.fsets l

/-! ### Interrupts -/

/-- Target 3 takes sources 5 and 40: 40 with the lower priority value; source 5 is pending too. -/
def irqS : State :=
  { up .s 4 with regs := (up .s 4).regs ++ (List.range 16).map fun w => (O.IRQ_PEND w, (0 : Word)) }.fsets
  [(pendFld 5, 1), (pendFld 40, 1), (F.IRQ_CFG.EN 5, 1), (F.IRQ_CFG.EN 40, 1),
   (F.IRQ_CFG.TARGET 5, 3), (F.IRQ_CFG.TARGET 40, 3), (F.IRQ_CFG.PRI 5, 9), (F.IRQ_CFG.PRI 40, 7),
   (F.IRQ_THRESH.THRESH 3, 32), (F.IRQ_THRESH.TEN 3, 1), (F.IRQ_VBASE.BASE 3, 4), (F.IRQ_VBASE.VSHIFT 3, 1)]

/-- Target 3 has the offer of source 40. -/
def irqOff : State := wth irqS [(F.IRQ_OFFER.VALID 3, 1), (F.IRQ_OFFER.SRC 3, 40), (F.IRQ_OFFER.PRI 3, 7)]
/-- Target 3 has taken source 40. -/
def irqTaken : State := { wth irqS [(pendFld 40, 0), (actFld 40, 1)] with taken := [(40, 4)] }

theorem wit_PendingAndOffer_set :
    (up .x 4).Reaches (O.IRQ_SETPEND 1) (O.IRQ_SETPEND 1) ∧
    (run (.irqSetpendWrite 0 1 0x80000002) (up .x 4)).rd (O.IRQ_PEND 1) = 0x80000002 := by decide +kernel

theorem wit_PendingAndOffer_latch :
    (up .x 4).domOn 1 = true ∧ (up .x 4).rst.blk = false ∧
    (run .aonLatchTransfer { up .x 4 with latches := [20, 25] }).flag (pendFld 20) = true ∧
    (run .aonLatchTransfer { up .x 4 with latches := [20, 25] }).flag (pendFld 21) = false ∧
    (run .aonLatchTransfer { up .x 4 with latches := [20, 25] }).latches = [] := by decide +kernel

theorem wit_PendingAndOffer_offer :
    irqS.irqRuns = true ∧ irqS.flag (F.IRQ_OFFER.VALID 3) = false ∧ irqS.irqQualifies 3 40 = true ∧
    (∀ m, m < irqS.cfg.irqSources → irqS.irqQualifies 3 m = true →
      irqS.irqPri 40 < irqS.irqPri m ∨ (irqS.irqPri 40 = irqS.irqPri m ∧ 40 ≤ m)) ∧
    (run (.irqOffer 3) irqS).fget (F.IRQ_OFFER.SRC 3) = 40 ∧ (run (.irqOffer 3) irqS).out = [.vec 3 true (128 + 40 * 8) 7] := by decide +kernel

theorem wit_AckAndEnd_ack :
    irqOff.flag (F.IRQ_OFFER.VALID 3) = true ∧ (run (.vecAck 3 false) irqOff).flag (actFld 40) = true ∧
    (run (.vecAck 3 false) irqOff).taken = [(40, 4)] := by decide +kernel

/-- The offered source is no longer pending. -/
def irqGone : State := wth irqOff [(pendFld 40, 0)]

theorem wit_PendingAndOffer_withdraw :
    irqGone.irqRuns = true ∧ irqOff.irqQualifies 3 40 = true ∧ irqGone.irqQualifies 3 (irqGone.fget (F.IRQ_OFFER.SRC 3)) = false ∧
    (run (.irqOffer 3) irqGone).out = [.vec 3 false 0 0] := by decide +kernel

theorem wit_AckAndEnd_gone :
    (run (.vecAck 3 false) irqGone).taken = [] ∧ (run (.vecAck 3 true) irqGone).taken = [(40, 4)] := by decide +kernel

theorem wit_AckAndEnd_none : irqS.flag (F.IRQ_OFFER.VALID 3) = false ∧ run (.vecAck 3 false) irqS = irqS := by decide +kernel

theorem wit_AckAndEnd_eoi :
    irqTaken.Reaches (O.IRQ_EOI 3) (O.IRQ_EOI 3) ∧ KMap.get 0 irqTaken.taken (getBits 40 0 10) = 4 ∧
    (run (.irqEoi 0 3 40) irqTaken).flag (actFld 40) = false := by decide +kernel

theorem wit_AckAndEnd_wrong :
    irqTaken.Reaches (O.IRQ_EOI 2) (O.IRQ_EOI 2) ∧ KMap.get 0 irqTaken.taken (getBits 40 0 10) ≠ 3 ∧
    (run (.irqEoi 0 2 40) irqTaken).flag F.IRQ_STAT.EOI_ERR = true ∧
    (run (.irqEoi 0 2 40) irqTaken).flag (actFld 40) = true := by decide +kernel

/-! ### Time -/

/-- TB_SET with 999,999,999 ns and second 7 waiting in the stage; half A leads. -/
def setS : State := { up .x 2 with stage := [(O.TB_SET, 0x8000), (O.TB_SET + 4, 999999999), (O.TB_SET + 8, 7)] }
def setBad : State := { up .x 2 with stage := [(O.TB_SET + 4, 1000000000)] }

theorem wit_TimeBaseWrites_set :
    setS.Opens (O.TB_SET + tbOfs 0 + 12) (O.TB_SET + 12) ∧ setS.leader = 0 ∧ setS.mode = 2 ∧
    (run (.tbSetWrite 0 0 1) setS).flag (tbFld F.TB_STAT.SET_DONE 0) = true ∧
    ((run (.tbSetWrite 0 0 1) setS).tb 0).t = ((2 ^ 32 + 7) * 1000000000 + 999999999) * 2 ^ 40 + 2 ^ 39 := by decide +kernel

theorem wit_TimeBaseWrites_setErr :
    setBad.Opens (O.TB_SET + tbOfs 0 + 12) (O.TB_SET + 12) ∧
    999999999 < (setBad.stagedWord (O.TB_SET + tbOfs 0 + 4)).toNat ∧
    (run (.tbSetWrite 0 0 0) setBad).flag (tbFld F.TB_STAT.SET_ERR 0) = true ∧
    (run (.tbSetWrite 0 0 0) setBad).tbs = setBad.tbs := by decide +kernel

/-- Half B leads at 10 µs; a step of -2 ns waits for its high word. -/
def stepS : State :=
  { wth (up .x 4) [(F.BLK_HALF.LEADER, 1)] with
    tbs := [(1, { t := 10000 * 2 ^ 40 })], stage := [(O.TB_STEP + 0x8000, 0xFFFE0000)] }
def stepUsed : State := wth stepS [(tbFld F.TB_STAT.STEP_USED 1, 1)]

theorem wit_TimeBaseWrites_step :
    stepS.Opens (O.TB_STEP + tbOfs 1 + 4) (O.TB_STEP + 0x8004) ∧ stepS.leader = 1 ∧ stepS.mode = 4 ∧
    stepS.flag (tbFld F.TB_STAT.STEP_USED 1) = false ∧
    ((run (.tbStepWrite 0 1 0xFFFFFFFF false false false) stepS).tb 1).t = 10000 * 2 ^ 40 := by decide +kernel

theorem wit_TimeBaseWrites_stepRefused :
    stepUsed.Opens (O.TB_STEP + tbOfs 1 + 4) (O.TB_STEP + 0x8004) ∧ stepUsed.flag (tbFld F.TB_STAT.STEP_USED 1) = true ∧
    (run (.tbStepWrite 0 1 0 false false false) stepUsed).flag (tbFld F.TB_STAT.STEP_REFUSED 1) = true := by decide +kernel

/-- A step in the tick of a set is refused; one in the tick of a rate change to +2^30 still uses the rate 0 of before, and a
snapshot in its tick holds the time after it. -/
def stepMeets : State := wth (stepS.setTb 1 { t := 10000 * 2 ^ 40, rateWas := 0 }) [(F.TB_RATE.RATE, 0)]

theorem wit_TimeBaseWrites_stepMeets :
    stepMeets.Opens (O.TB_STEP + tbOfs 1 + 4) (O.TB_STEP + 0x8004) ∧
    (run (.tbStepWrite 0 1 0xFFFFFFFF true false false) stepMeets).flag (tbFld F.TB_STAT.STEP_REFUSED 1) = true ∧
    ((run (.tbStepWrite 0 1 0xFFFFFFFF false true true) (stepMeets.wr (O.TB_RATE + 0x8000) 0x20000000)).tb 1).t = 10000 * 2 ^ 40 ∧
    (run (.tbStepWrite 0 1 0xFFFFFFFF false true true) (stepMeets.wr (O.TB_RATE + 0x8000) 0x20000000)).fget
      (tbFld F.TB_SNAP_NS.NS 1) = 10000 := by decide +kernel

theorem wit_TimeBaseWrites_ignored :
    setS.leader ≠ 1 ∧ setS.Opens (O.TB_SET + tbOfs 1 + 12) (O.TB_SET + 0x800C) ∧
    setS.Opens (O.TB_STEP + tbOfs 1 + 4) (O.TB_STEP + 0x8004) ∧ setS.Opens (O.TB_RATE + tbOfs 1) (O.TB_RATE + 0x8000) ∧
    (run (.tbRateWrite 0 1 5) setS).flag (tbFld F.TB_STAT.WR_IGN 1) = true := by decide +kernel

theorem wit_TimeBaseWrites_rate :
    (up .x 4).Opens (O.TB_RATE + tbOfs 0) O.TB_RATE ∧ (up .x 4).leader = 0 ∧
    (up .x 4).flag (tbFld F.TB_CTL.SERVO 0) = false ∧ (up .x 4).flag F.TRK_CS_STAT.SLEWING = false ∧
    (run (.tbRateWrite 0 0 549755815) (up .x 4)).tbRate 0 = 549755814 ∧
    (run (.tbRateWrite 0 0 (-549755815)) (up .x 4)).tbRate 0 = -549755814 ∧
    (run (.tbRateWrite 0 0 549755814) (up .x 4)).flag (tbFld F.TB_STAT.RATE_CLAMP 0) = false := by decide +kernel

def followS : State := { up .x 4 with tbs := [(0, { t := 9, el := 60 }), (1, { follow := [{ time := some (1000, 50) }] })] }

theorem wit_TimeBaseWrites_follow :
    (followS.tb (1 - followS.leader)).follow = { time := some (1000, 50) } :: [] ∧ followS.tbRuns 1 = true ∧
    ((run .followerTimeApply followS).tb 1).t = 1010 := by decide +kernel

def snapS : State := { up .x 4 with tbs := [(0, { t := 3 * secUnits + 5 * 2 ^ 40 + 2 ^ 39 })] }

theorem wit_SnapshotsAndCaptures_snap :
    snapS.Opens (O.TB_SNAP_CMD + tbOfs 0) O.TB_SNAP_CMD ∧ bitOf (1 : Word) 0 = true ∧
    (run (.snapshotLatch 0 0 1) snapS).fget (tbFld F.TB_SNAP_NS.NS 0) = 5 ∧
    (run (.snapshotLatch 0 0 1) snapS).fget (tbFld F.TB_SNAP_FRAC.FRAC 0) = 32768 ∧
    (run (.snapshotLatch 0 0 1) snapS).fget (tbFld F.TB_SNAP_SEC_LO.SEC_LO 0) = 3 := by decide +kernel

theorem wit_SnapshotsAndCaptures_read :
    snapS.Opens (O.TB_SNAP_NS + tbOfs 0) O.TB_SNAP_NS ∧
    (run (.tbSnapNsRead 0 0) snapS).slv = some ⟨false, 5⟩ := by decide +kernel

/-- Capture 3 takes rising edges; its last stamp has not been read. -/
def capS : State := wth snapS [(F.CTU_CAP_CFG.EDGE 3, 1), (F.CTU_CAP_TS.VALID 3, 1)]

theorem wit_SnapshotsAndCaptures_capture :
    capS.capTakes 3 true = true ∧ capS.tbRuns (capS.cfg.halfOfCap 3) = true ∧ capS.flag (F.CTU_CAP_TS.VALID 3) = true ∧
    (run (.captureEdge 3 true true) capS).fget (F.CTU_CAP_TS.NS 3) = 5 ∧
    (run (.captureEdge 3 true true) capS).flag (F.CTU_CAP_TS.OVERRUN 3) = true ∧
    capS.capTakes 3 false = false ∧ run (.captureEdge 3 false false) capS = capS := by decide +kernel

theorem wit_SnapshotsAndCaptures_stamp :
    capS.Opens (ctuOff (capS.cfg.halfOfCap 3) (O.CTU_CAP_TS 3)) (O.CTU_CAP_TS 3) ∧
    (run (.captureTsRead 0 3) (run (.captureEdge 3 true true) capS)).held (O.CTU_CAP_TS 3 + 8) = 3 := by decide +kernel

/-- Generator 0: a period of 1000 ns and a phase of 999 ns. -/
def genS : State :=
  wth { up .x 4 with tbs := [(0, { t := 2500 * 2 ^ 40 })] }
    [(F.CTU_GEN_PERIOD.PERIOD 0, 1000), (F.CTU_GEN_PHASE.PHASE 0, 999)]
/-- It runs, bound to the time; its next boundary is at 2999 ns. -/
def genOn : State :=
  { wth genS [(F.CTU_GEN_CFG.EN 0, 1), (F.CTU_GEN_CFG.BIND 0, 1), (F.CTU_GEN_STAT.RUN 0, 1)] with gens := [(0, { next := 2999 })] }

theorem wit_Generators_enable :
    genS.Opens (ctuOff (genS.cfg.halfOfGen 0) (O.CTU_GEN_CFG 0)) (O.CTU_GEN_CFG 0) ∧ genS.flag (F.CTU_GEN_CFG.EN 0) = false ∧
    genS.genSetupOk 0 ((3 : Word) ||| 1) = true := by
  decide +kernel

theorem wit_Generators_refused :
    genS.genSetupOk 0 ((6 : Word) ||| 1) = false ∧
    (run (.generatorEnable 0 0 6) genS).flag (F.CTU_GEN_STAT.CFG_ERR 0) = true := by decide +kernel

theorem wit_Generators_disable :
    genOn.Opens (ctuOff (genOn.cfg.halfOfGen 0) (O.CTU_GEN_CFG 0)) (O.CTU_GEN_CFG 0) ∧
    (run (.generatorDisable 0 0 0) genOn).flag (F.CTU_GEN_STAT.RUN 0) = false := by decide +kernel

/-- The time has reached the boundary of generator 0. -/
def genDue : State := genOn.setTb 0 { t := 2999 * 2 ^ 40 }

theorem wit_Generators_boundary :
    genDue.genRuns 0 = true ∧ (genDue.gen 0).next * 2 ^ 40 ≤ (genDue.tb (genDue.cfg.halfOfGen 0)).t := by decide +kernel

/-- Generator 4 of half B follows SYNC_IN; three points have passed without an edge. -/
def syncS : State :=
  wth { up .x 4 with tbs := [(1, { t := 9000 * 2 ^ 40 })], gens := [(4, { next := 9500, idx := 9, matched := 6, miss := 3 })] }
    [(F.CTU_GEN_PERIOD.PERIOD 4, 1000), (F.CTU_GEN_CFG.EN 4, 1), (F.CTU_GEN_CFG.SYNC_EN 4, 1)]

theorem wit_Generators_syncMiss :
    syncS.genFollows 4 = true ∧ ((max 1 (syncS.gen 4).miss : Nat) : Int) ≤ syncS.syncMissed 4 ∧
    (run (.syncMissLimit 4) syncS).flag (F.CTU_GEN_STAT.SYNC_LOST 4) = true := by decide +kernel

/-- The edge comes 10 ns late, within the step limit of 20 ns: it moves the next boundary by 10 ns, and no generator that
does not follow. -/
def syncEdgeS : State :=
  { syncS with tbs := [(1, { t := 9010 * 2 ^ 40 })], gens := [(4, { next := 10000, idx := 9, matched := 7, maxStep := 20 })] }

theorem wit_Generators_syncEdge :
    syncEdgeS.genFollows 3 = false ∧ syncEdgeS.genFollows 4 = true ∧ (syncEdgeS.gen 4).edge = 0 ∧
    (10 : Int) = 9010 - ((syncEdgeS.gen 4).next + (syncEdgeS.gen 4).ofs + (-1) * 1000) ∧ ((run (.syncInEdge true) syncEdgeS).gen 4).next = 10010 ∧
    (run (.syncInEdge true) syncEdgeS).rdInt (O.CTU_GEN_ACC 4) = 10 ∧
    ((run (.syncInEdge true) (syncEdgeS.wr (O.CTU_GEN_ACC 4) 241)).flag (F.CTU_GEN_STAT.SYNC_LOST 4)) = true := by decide +kernel

/-- An edge 20 ns before the next boundary, which is within M + 8 ns: it moves the boundary after that one. -/
def syncNear : State :=
  { syncEdgeS with tbs := [(1, { t := 10020 * 2 ^ 40 })], gens := [(4, { next := 10040, idx := 9, matched := 9, maxStep := 20 })] }

theorem wit_Generators_syncShift :
    syncNear.genFollows 4 = true ∧ ((run (.syncInEdge true) syncNear).gen 4).shift = -20 ∧
    ((run (.syncInEdge true) syncNear).gen 4).next = 10040 := by decide +kernel

/-- Trigger 2 follows generator 0, 100 ns after each boundary, 2 ns long. -/
def trigS : State := wth genOn [(F.CTU_TRIG_CFG.GEN 2, 0), (F.CTU_TRIG_OFS.OFS 2, 100), (F.CTU_TRIG_WIDTH.WIDTH 2, 2)]
/-- Its rise is due, after the boundary at 2999 ns. -/
def trigDue : State :=
  { up .x 4 with tbs := [(0, { t := 3099 * 2 ^ 40, el := 77 })]
                 trigs := [(2, { running := true, ofs := 100, width := 2, rises := [⟨3099, 2, true⟩] })] }
/-- Its pulse has 2 ns to go. -/
def trigHigh : State :=
  { up .x 4 with tbs := [(0, { el := 77 + 2 * 2 ^ 40 })], trigs := [(2, { level := true, running := true, pulse := some (77 + 2 * 2 ^ 40) })] }

theorem wit_TriggersAndPps_config :
    trigS.Opens (ctuOff (trigS.cfg.halfOfTrig 2) (trigWord 2 0)) (O.CTU_TRIG_CFG 2) ∧
    ((run (.triggerConfigWrite 0 2 0 1) trigS).trig 2).running = true ∧
    (run (.triggerConfigWrite 0 2 2 1) trigS).trigOk 2 = false := by decide +kernel

theorem wit_TriggersAndPps_rise :
    dueRise (trigDue.tb (trigDue.cfg.halfOfTrig 2)).t (trigDue.trig 2).rises = some ⟨3099, 2, true⟩ ∧
    ((run (.triggerRise 2) trigDue).trig 2).pulse = some (77 + 2 * 2 ^ 40) ∧ (run (.triggerRise 2) trigDue).out = [.trig 2 true] := by decide +kernel

theorem wit_TriggersAndPps_fall :
    (trigHigh.trig 2).pulse = some (77 + 2 * 2 ^ 40) ∧
    (run (.triggerFall 2) trigHigh).out = [.trig 2 false] := by decide +kernel

/-- PPS_OUT is due, with a WIDTH of 0 µs that acts as 1. -/
def ppsS : State := wth { up .x 4 with pps := { due := true } } [(F.TB_PPS.WIDTH, 0)]
def ppsHigh : State := { up .x 4 with tbs := [(0, { el := 1000 * 2 ^ 40 })], pps := { high := true, stop := 1000 * 2 ^ 40 } }

theorem wit_TriggersAndPps_pps :
    ppsS.pps.due = true ∧ (run .ppsPulseStart ppsS).pps.stop = 1000 * 2 ^ 40 ∧ (run .ppsPulseStart ppsS).out = [.pps true] := by decide +kernel

theorem wit_TriggersAndPps_ppsEnd :
    ppsHigh.pps.high = true ∧ ppsHigh.pps.stop ≤ (ppsHigh.tb ppsHigh.pps.half).el ∧
    (run .ppsPulseEnd ppsHigh).pps.high = false := by decide +kernel

def lostS : State := { up .x 4 with tbs := [(0, { t := 5 * 2 ^ 40, lost := true })] }

theorem wit_TicksLostAndBack_lost :
    snapS.tbRuns 0 = true := by decide +kernel

theorem wit_TicksLostAndBack_back :
    (lostS.tb 0).lost = true ∧ (lostS.tb 0).waiting = [] ∧ 
    ((run (.tbTicksResume 0) lostS).tb 0).t = 7 * 2 ^ 40 := by decide +kernel

/-- CTU_TRIG_STAT is no part of a trigger's setting: a write of it is not a check of R91. -/
theorem test_trigger_status_write :
    (run (.registerWrite 0 0x0CA10C 4 7) (up .x 2)).flag (F.CTU_TRIG_STAT.BIND_ERR 16) = false ∧
    (run (.registerWrite 0 0x0CA108 4 7) (up .x 2)).flag (F.CTU_TRIG_STAT.BIND_ERR 16) = true := by decide +kernel

/-! ### Trunks -/

/-- A Gweip-X in CONFIG or mode `m`, with its trunks in cell mode at 25.6 Gb/s, enabled. -/
def trkS (m : Nat) : State :=
  { wth (up .x m) [(F.TRK_CFG.EN 0, 1), (F.TRK_CFG.MODE 0, 1), (F.TRK_CFG.EN 1, 1), (F.TRK_CFG.MODE 1, 1)] with
    trunks := [(0, { pmaLock := true }), (1, { pmaLock := true })] }

/-- A cell whose payload is zeros. -/
def cellOf (info : Nat) : List Byte := headerBytes info ++ List.replicate 58 0
/-- The same cell with bit 40 of its header inverted. -/
def badCell (info : Nat) : List Byte := (headerBytes info).take 0 ++ ((headerBytes info)[0]! ^^^ 1) :: (headerBytes info).drop 1 ++ List.replicate 58 0
/-- A cell whose header no single-bit correction mends. -/
def lostCell (info : Nat) : List Byte := ((headerBytes info)[0]! ^^^ 0x81) :: ((headerBytes info)[1]! ^^^ 0x10) :: (headerBytes info).drop 2 ++ List.replicate 58 0

theorem wit_TrunkSettingAndLane_s :
    (up .s 2).Reaches (O.TRK_CFG 0) (O.TRK_CFG 0) ∧ getBits (5 : Word) 2 2 = 1 ∧
    (run (.trkCfgWrite 0 0 5) (up .s 2)).flag (F.TRK_STAT.CFG_ERR 0) = true := by decide +kernel

theorem wit_TrunkSettingAndLane_mode :
    (trkS 2).Reaches (O.TRK_CFG 1) (O.TRK_CFG 1) ∧ (trkS 2).mode = 2 ∧ (trkS 2).flag (F.TRK_CFG.EN 1) = true ∧
    bitOf (1 : Word) 0 = true ∧ getBits (1 : Word) 2 2 ≠ (trkS 2).fget (F.TRK_CFG.MODE 1) ∧
    (run (.trkCfgWrite 0 1 1) (trkS 2)).fget (F.TRK_CFG.MODE 1) = 1 := by decide +kernel

theorem wit_TrunkSettingAndLane_off :
    (trkS 2).Reaches (O.TRK_CFG 1) (O.TRK_CFG 1) ∧ (trkS 2).flag (F.TRK_CFG.EN 1) = true ∧ bitOf (4 : Word) 0 = false ∧
    (run (.trkCfgWrite 0 1 4) (trkS 2)).out = [.trunkEn 1 false] := by decide +kernel

theorem wit_TrunkSettingAndLane_on :
    (up .x 2).Reaches (O.TRK_CFG 0) (O.TRK_CFG 0) ∧ (up .x 2).mode = 2 ∧ (up .x 2).flag (F.TRK_CFG.EN 0) = false ∧
    bitOf (5 : Word) 0 = true ∧ (run (.trkCfgWrite 0 0 5) (up .x 2)).out.getLast? = some (.trunkEn 0 true) := by decide +kernel

/-- Trunk 0 is in SYNC at bit offset 3, with a run of 6 bad headers. -/
def syncT : State :=
  { wth (trkS 4) [(F.TRK_STAT.DELIN 0, 2), (F.TRK_STAT.BAD_RUN 0, 6), (F.TRK_DELIN_CFG.LOSS 0, 7), (F.TRK_CHMAP.EN 0 5, 1)] with
    trunks := [(0, { pmaLock := true, align := 3, pos := some 501 }), (1, { pmaLock := true })] }

theorem wit_TrunkSettingAndLane_pma :
    1 < syncT.cfg.trunks ∧ syncT.fget (F.TRK_STAT.DELIN 0) = 2 ∧
    (run (.pmaLockChange 0 false) syncT).fget (F.TRK_STAT.DELIN 0) = 0 ∧
    (run (.pmaLockChange 0 false) syncT).flag (F.TRK_STAT.LOS 0) = true := by decide +kernel

/-- Trunk 1 in BASE-R mode at 25 Gb/s. -/
def baseT : State := wth (up .x 4) [(F.TRK_CFG.EN 1, 1), (F.TRK_CFG.MODE 1, 3)]

theorem wit_TrunkSettingAndLane_fault :
    baseT.flag (F.TRK_CFG.EN 1) = true ∧ 2 ≤ baseT.fget (F.TRK_CFG.MODE 1) ∧ (baseT.trunk 1).fault ≠ 2 ∧
    baseT.stopped 9 false = false ∧ ((run (.linkFaultReceive 1 2) (baseT.setPort 9 { tx := some { fid := 1 } })).port 9).tx = none ∧
    (run (.linkFaultReceive 1 2) baseT).out = [.mii 1 2] := by decide +kernel

/-- Gweip-S in HUNT. -/
def huntS : State := { wth (up .s 4) [(F.TRK_CFG.EN 0, 1)] with trunks := [(0, { pmaLock := true })] }

theorem wit_CellsReceived_s :
    huntS.cellTrunk 0 = true ∧ (cellOf 0x74000).length = 64 ∧ headerFits (headerOf (cellOf 0x74000)) = true ∧
    huntS.fget (F.TRK_STAT.DELIN 0) ≠ 2 ∧
    (run (.cellReceive 0 511 (cellOf 0x74000) 0) huntS).fget (F.TRK_STAT.DELIN 0) = 2 := by decide +kernel

theorem wit_CellsReceived_x :
    (trkS 4).cellTrunk 1 = true ∧ (trkS 4).fget (F.TRK_STAT.DELIN 1) ≠ 2 ∧ ((trkS 4).trunk 1).cands = [] ∧
    (run (.cellReceive 1 511 (cellOf 0x74000) 0) (trkS 4)).fget (F.TRK_STAT.DELIN 1) = 1 := by decide +kernel

theorem wit_CellsReceived_idle :
    syncT.cellTrunk 0 = true ∧ (syncT.trunk 0).rxLost = false ∧ (syncT.trunk 0).align < 512 ∧
    judgeCell (headerOf (cellOf 0x74000) / 65536 / 2 ^ 22) (headerOf (cellOf 0x74000) / 65536 / 2 ^ 19 % 8)
      (headerOf (cellOf 0x74000) / 65536 / 2 ^ 13 % 64) = none ∧
    (run (.cellReceive 0 3 (cellOf 0x74000) 0) syncT).fget (F.TRK_STAT.BAD_RUN 0) = 0 ∧
    (run (.cellReceive 0 3 (cellOf 0x74000) 0) syncT).rd64 (O.TRK_CNT 0 1) = 1 := by decide +kernel

theorem wit_CellsReceived_corrected :
    headerFits (headerOf (badCell 0x74000)) = false ∧ headerCorrect (headerOf (badCell 0x74000)) = some (headerOf (cellOf 0x74000)) ∧
    (wth syncT [(F.TRK_CFG.HCORR 0, 1)]).flag (F.TRK_CFG.HCORR 0) = true ∧
    (run (.cellReceive 0 3 (badCell 0x74000) 0) (wth syncT [(F.TRK_CFG.HCORR 0, 1)])).rd64 (O.TRK_CNT 0 5) = 1 := by decide +kernel

/-- A start cell of channel 5, SEQ 9, priority 2. -/
def startInfo : Nat := 5 * 2 ^ 22 + 2 * 2 ^ 19 + 58 * 2 ^ 13 + 9 * 2 ^ 9 + 2 * 2 ^ 6
/-- In SYNC, not numbered yet. -/
def syncN : State := syncT.setTrunk 0 { pmaLock := true, align := 3 }

theorem wit_CellsReceived_start :
    syncN.flag (F.TRK_CHMAP.EN 0 5) = true ∧ syncN.flag (F.TRK_PROT_STAT.BLOCKED 0) = false ∧ (syncN.trunk 0).pos = none ∧
    judgeCell 5 2 58 = none ∧ headerOf (cellOf startInfo) / 65536 = startInfo ∧
    (KMap.get {} ((run (.cellReceive 0 3 (cellOf startInfo) 0) syncN).trunk 0).chans 5).ref = some 9 := by decide +kernel

/-- The same in a header that is corrected, without Signal Degrade. -/
theorem wit_CellsReceived_startCorrected :
    headerCorrect (headerOf (badCell startInfo)) = some (headerOf (cellOf startInfo)) ∧
    (syncN.trunk 0).sdBad + 1 ≤ (wth syncN [(F.TRK_PROT_CFG.SD_THR 0, 1), (F.TRK_CFG.HCORR 0, 1)]).fget (F.TRK_PROT_CFG.SD_THR 0) ∧
    (KMap.get {} ((run (.cellReceive 0 3 (badCell startInfo) 0)
      (wth syncN [(F.TRK_PROT_CFG.SD_THR 0, 1), (F.TRK_CFG.HCORR 0, 1)])).trunk 0).chans 5).asm = true := by decide +kernel

theorem wit_CellsReceived_bad :
    headerFits (headerOf (lostCell 0x74000)) = false ∧ headerCorrect (headerOf (lostCell 0x74000)) = none ∧
    max 2 (syncT.fget (F.TRK_DELIN_CFG.LOSS 0)) ≤ syncT.fget (F.TRK_STAT.BAD_RUN 0) + 1 ∧
    (run (.cellReceive 0 3 (lostCell 0x74000) 0) syncT).fget (F.TRK_STAT.DELIN 0) = 0 ∧
    (run (.cellReceive 0 3 (lostCell 0x74000) 0) (wth syncT [(F.TRK_STAT.BAD_RUN 0, 5)])).fget (F.TRK_STAT.BAD_RUN 0) = 6 := by
  decide +kernel

theorem wit_CellsReceived_timeout :
    syncT.cellTrunk 0 = true ∧ (syncT.trunk 0).pos = some 501 ∧ syncT.cellsOf 0 + 1 ≤ 501 ∧
    ((run (.superframeTimeout 0) syncT).trunk 0).pos = some 1 := by decide +kernel

theorem wit_CellsSent_idle :
    (trkS 3).cellTrunk 0 = true ∧ ((trkS 3).trunk 0).txLost = false ∧ (trkS 3).domOn 16 = true ∧ (trkS 3).hmode ((trkS 3).cfg.halfOfTrunk 0) ≠ 0 ∧
    (trkS 3).hmode ((trkS 3).cfg.halfOfTrunk 0) ≠ 7 ∧ (trkS 3).sendsFrames 0 = false ∧
    (run (.cellSlot 0 0) (trkS 3)).rd64 (O.TRK_CNT 0 23) = 1 := by decide +kernel

/-- Trunk 0 sends superframes; an overhead cell is due. -/
def sendO : State := (trkS 4).setTrunk 0 { pmaLock := true, sfDue := some 77 }
/-- It stands in slack, with an urgent cell waiting. -/
def sendU : State := (trkS 4).setTrunk 0 { pmaLock := true, txPos := some 497, urgent := [⟨1, 0, 9, 0xB0, 3⟩] }

theorem wit_CellsSent_overhead :
    sendO.sendsFrames 0 = true ∧ (sendO.trunk 0).sfDue = some 77 ∧ ((run (.cellSlot 0 0) sendO).trunk 0).txPos = some 1 := by
  decide +kernel

theorem wit_CellsSent_slack :
    sendU.sendsFrames 0 = true ∧ (sendU.trunk 0).sfDue = none ∧ (sendU.trunk 0).txPos = some 497 ∧ sendU.slotsOf 0 < 497 ∧
    ((run (.cellSlot 0 0) sendU).trunk 0).urgent = [] := by decide +kernel

/-- Channel 5 has slot 0; 58 bytes of its frame of 117 have been sent. -/
def sendC : State :=
  { wth (trkS 4) [(F.TRK_CS_STAT.STATE, 4)] with
    slots := [(0, 5)]
    trunks := [(0, { pmaLock := true, txPos := some 1, txSeq := [(5, 15)], txFrames := [(5, { bytes := List.replicate 117 7, sent := 58, n := 1 })] })] }

theorem wit_CellsSent_channel :
    sendC.sendsFrames 0 = true ∧ (sendC.trunk 0).sfDue = none ∧ (sendC.trunk 0).txPos = some 1 ∧ sendC.slotsOf 0 = 496 ∧
    sendC.slot 0 (sendC.gearOfHalf (sendC.cfg.halfOfTrunk 0)) 0 = 5 ∧ sendC.csJoined = true ∧ sendC.hmode (sendC.cfg.halfOfTrunk 0) = 4 ∧
    sendC.flag (F.TRK_PROT_STAT.BLOCKED 0) = false ∧
    ((KMap.find? (sendC.trunk 0).txFrames 5).map fun f => decide (f.sent + 58 < f.bytes.length)) = some true ∧
    KMap.get 0 ((run (.cellSlot 0 0) sendC).trunk 0).txSeq 5 = 0 := by decide +kernel

/-! ### Trunk overhead -/

/-- Half A's time base stands at 70 µs; trunk 0 sends superframes. -/
def ovS : State := { trkS 4 with tbs := [(0, { t := 70000 * 2 ^ 40 })] }

theorem wit_SuperframesAndManagementCells_instant :
    ovS.tbRuns ovS.leader = true ∧ ovS.cellTrunk 0 = true ∧ ovS.sendsFrames 0 = true ∧ (ovS.trunk 0).quiet ≤ 1 ∧
    ovS.cfg.halfOfTrunk 0 = ovS.leader := by decide +kernel

/-- A payload with a good CRC that begins with `l`. -/
def goodPayload (l : List Byte) : List Byte :=
  (l ++ List.replicate (54 - l.length) 0) ++ natBe 4 (crc32c (l ++ List.replicate (54 - l.length) 0))
/-- The same payload with another first byte. -/
def badPayload : List Byte := 0x80 :: (goodPayload []).drop 1

/-- Trunk 1 with one overhead and one urgent payload to look at. -/
def inS (p : List Byte) : State := (trkS 4).setTrunk 1 { pmaLock := true, ohIn := [(p, 99)], umIn := [(p, 99)] }

theorem wit_SuperframesAndManagementCells_bad :
    ((inS badPayload).trunk 1).ohIn = (badPayload, 99) :: [] ∧ ((inS badPayload).trunk 1).umIn = (badPayload, 99) :: [] ∧
    payloadCrcGood badPayload = false ∧
    (run (.overheadCellReceive 1) (inS badPayload)).fget (F.TRK_OH_ERR.CRC_BAD 1) = 1 ∧
    (run (.urgentCellReceive 1) (inS badPayload)).fget (F.TRK_OH_ERR.CRC_BAD 1) = 1 := by decide +kernel

theorem wit_SuperframesAndManagementCells_good :
    payloadCrcGood (goodPayload [0, 0, 0, 9]) = true ∧ (readOverhead (goodPayload [0, 0, 0, 9]) 99).sfn = 9 ∧
    payloadCrcGood (goodPayload [1, 0, 7, 7, 0xB0]) = true ∧ beNat (slice (goodPayload [1, 0, 7, 7, 0xB0]) 0 1) = 1 ∧
    payloadCrcGood (goodPayload [4]) = true ∧ 3 < beNat (slice (goodPayload [4]) 0 1) ∧
    payloadCrcGood (goodPayload [0]) = true ∧ payloadCrcGood (goodPayload [2, 0, 8, 7, 5]) = true ∧
    7 ≠ (inS (goodPayload [2, 0, 8, 7, 5])).nodeId ∧
    (run (.urgentCellReceive 1) (inS (goodPayload [2, 0, 8, 7, 5]))).node.relayed = [(2, 7, 1, 0)] ∧
    (run (.urgentCellReceive 1) (inS (goodPayload [4]))).fget (F.TRK_OH_ERR.UM_BAD 1) = 1 := by decide +kernel

/-- Node 9 with cold-start capability, in state `st` of R171. -/
def csS (st : Nat) : State := wth (up .x 3) [(F.TRK_CS_STAT.STATE, st), (F.TRK_NODE.CS_CAP, 1), (F.TRK_NODE.NODE_ID, 9)]

theorem wit_ColdStart_listen :
    (csS 1).csState = 1 ∧ (csS 1).flag F.TRK_NODE.CS_CAP = true ∧
    (run .listenTimerExpiry (csS 1)).fget F.TRK_CS_STAT.MASTER_ID = 9 := by decide +kernel

theorem wit_ColdStart_complete :
    ({ csS 2 with node := { cold := 8 } } : State).csState = 2 ∧ 8 ≤ ({ csS 2 with node := { cold := 8 } } : State).node.cold := by
  decide +kernel

theorem wit_ColdStart_loss :
    ({ csS 3 with trunks := [(0, { age := 3 })] } : State).csState = 3 ∧
    3 ≤ (({ csS 3 with trunks := [(0, { age := 3 })] } : State).trunk (({ csS 3 with trunks := [(0, { age := 3 })] } : State).fget F.TRK_CS_STAT.SRC)).age ∧
    (run .sourceLossTimeout { csS 3 with trunks := [(0, { age := 3 })] }).csState = 1 := by decide +kernel

/-- Gear 0 of trunk 1 is valid, gear 7 is not; the address stands at the last slot of gear 7. -/
def slotS : State :=
  wth (trkS 2) [(F.TRK_GEAR.VALID 1, 1), (F.TRK_SLOT_ADDR.GEAR 1, 7), (F.TRK_SLOT_ADDR.SLOT 1, 495), (F.TRK_SLOT_ADDR.AUTOINC 1, 1)]

theorem wit_SlotTablesGearsAndShifts_data :
    slotS.Reaches (O.TRK_SLOT_DATA 1) (O.TRK_SLOT_DATA 1) ∧ slotS.fget (F.TRK_GEAR.VALID 1) / 2 ^ 7 % 2 = 0 ∧
    slotS.mode ≠ 0 ∧ slotS.mode ≠ 7 ∧ (run (.trkSlotDataWrite 0 1 1021) slotS).slot 1 7 495 = 1021 ∧
    (run (.trkSlotDataWrite 0 1 1021) slotS).fget (F.TRK_SLOT_ADDR.SLOT 1) = 0 ∧
    (run (.trkSlotDataRead 0 1) { slotS with slots := [(4096 + 512 * 7 + 495, 1021)] }).slv = some ⟨false, 1021⟩ := by decide +kernel

theorem wit_SlotTablesGearsAndShifts_refused :
    (wth slotS [(F.TRK_SLOT_ADDR.GEAR 1, 0)]).fget (F.TRK_GEAR.VALID 1) / 2 ^ 0 % 2 = 1 ∧
    (run (.trkSlotDataWrite 0 1 9) (wth slotS [(F.TRK_SLOT_ADDR.GEAR 1, 0)])).slv = some ⟨true, 0⟩ := by decide +kernel

/-- Slot 0 of gear 7 holds a channel number that no channel has; the other slots and gears hold 0. -/
def gearS : State := { slotS with slots := [(4096 + 512 * 7, 0x3FE)] }

theorem wit_SlotTablesGearsAndShifts_gear :
    gearS.Reaches (O.TRK_GEAR 1) (O.TRK_GEAR 1) ∧ gearS.gearFail 1 7 8 = some 0 ∧ gearS.gearFail 1 6 8 = none ∧
    getBits (0xC100 : Word) 8 8 / 2 ^ 7 % 2 = 1 ∧
    (run (.gearValidWrite 0 1 0xC100) gearS).fget (F.TRK_GEAR.VALID 1) = 0x41 ∧
    (run (.gearValidWrite 0 1 0xC100) gearS).flag (F.TRK_GEAR.GEAR_ERR 1) = true := by decide +kernel

/-- The schedule master has joined; gears 0 and 3 are valid on both trunks. -/
def shiftS : State :=
  wth (trkS 4) [(F.TRK_GEAR.VALID 0, 9), (F.TRK_GEAR.VALID 1, 9), (F.TRK_NODE.SCHED_MASTER, 1), (F.TRK_CS_STAT.STATE, 5)]

theorem wit_SlotTablesGearsAndShifts_refusals :
    shiftS.Reaches O.TRK_SHIFT O.TRK_SHIFT ∧ (trkS 4).Reaches O.TRK_SHIFT O.TRK_SHIFT ∧ (trkS 4).csJoined = false ∧
    (wth shiftS [(F.TRK_SHIFT.PHASE, 1)]).shiftPending = true ∧ (wth shiftS [(F.TRK_SHIFT.PHASE, 1)]).csJoined = true ∧
    shiftS.gearValid 2 = false ∧ (run (.shiftRequest 0 0x2000000) shiftS).fget F.TRK_SHIFT.RESULT = 5 ∧
    (run (.shiftRequest 0 0x3000000) (wth shiftS [(F.TRK_SHIFT.PHASE, 1)])).fget F.TRK_SHIFT.RESULT = 4 ∧
    (run (.shiftRequest 0 0x3000000) (trkS 4)).fget F.TRK_SHIFT.RESULT = 3 := by decide +kernel

theorem wit_SlotTablesGearsAndShifts_shift :
    getBits (0x3000000 : Word) F.TRK_SHIFT.TARGET.lo F.TRK_SHIFT.TARGET.wd = 3 ∧ shiftS.flag F.TRK_NODE.SCHED_MASTER = true ∧
    shiftS.csJoined = true ∧ shiftS.shiftPending = false ∧ shiftS.fget F.TRK_GEAR_CUR.CUR ≠ 3 ∧ shiftS.gearValid 3 = true ∧
    (run (.shiftRequest 0 0x3000000) shiftS).fget F.TRK_SHIFT_SFN.N = 9 := by decide +kernel

theorem wit_SwitchingRequests_own :
    (trkS 4).Reaches (O.TRK_PROT_CMD 1) (O.TRK_PROT_CMD 1) ∧ (trkS 4).node.lockout = false ∧
    (∀ m, m < 2 → (trkS 4).fget (F.TRK_PROT_STAT.EFF_CODE m) ≠ 15) ∧ (trkS 4).topRequest.1 ≤ 7 := by decide +kernel

theorem wit_SwitchingRequests_s :
    (up .s 4).Reaches (O.TRK_PROT_CMD 0) (O.TRK_PROT_CMD 0) ∧ (run (.forcedSwitch 0 0) (up .s 4)).node.forced = [] := by decide +kernel

theorem wit_SwitchingRequests_refused :
    7 < (wth (trkS 4) [(F.TRK_PROT_STAT.EFF_CODE 0, 0xB)]).topRequest.1 ∧
    (run (.manualSwitch 0 1) (wth (trkS 4) [(F.TRK_PROT_STAT.EFF_CODE 0, 0xB)])).flag (F.TRK_PROT_STAT.MS_REFUSED 1) = true := by
  decide +kernel

theorem wit_SwitchingRequests_sf :
    (trkS 4).cellTrunk 0 = true ∧ (trkS 4).fget (F.TRK_STAT.DELIN 0) ≠ 2 ∧
    (run (.signalFailLocal 0) (trkS 4)).flag (F.TRK_PROT_STAT.SF 0) = true := by decide +kernel

/-- Signal Degrade with a threshold of 4: 5 bad headers set it, 2 end it, 3 leave it. -/
def sdS (n sd : Nat) : State :=
  (wth (trkS 4) [(F.TRK_PROT_CFG.SD_THR 0, 4), (F.TRK_PROT_STAT.SD 0, sd)]).setTrunk 0 { pmaLock := true, sdBad := n }

theorem wit_SwitchingRequests_sd :
    (sdS 5 0).cellTrunk 0 = true ∧ (run (.sdWindowEnd 0) (sdS 5 0)).flag (F.TRK_PROT_STAT.SD 0) = true ∧
    (run (.sdWindowEnd 0) (sdS 2 1)).flag (F.TRK_PROT_STAT.SD 0) = false ∧
    (run (.sdWindowEnd 0) (sdS 3 1)).flag (F.TRK_PROT_STAT.SD 0) = true := by decide +kernel

/-- The ring's owner in PENDING. -/
def wtrS : State :=
  { wth (trkS 4) [(F.TRK_RING_CFG.ROLE, 2), (F.TRK_RING_CFG.OWNER_PORT, 1), (F.TRK_RING_STAT.STATE, 2)] with node := { wtr := true } }

theorem wit_SwitchingRequests_wtr :
    wtrS.ringRole = 2 ∧ wtrS.ringState = 2 ∧ wtrS.node.wtr = true ∧ wtrS.topRequest.1 = 5 ∧ wtrS.fget F.TRK_RING_CFG.OWNER_PORT < 2 ∧
    (∀ h, h < 2 → wtrS.hmode h ≠ 6) ∧ (run .wtrExpiry wtrS).flag (F.TRK_PROT_STAT.BLOCKED 1) = true := by decide +kernel

/-! ### Field ports -/

theorem wit_SpeedAndFlowControl_half :
    (up .x 2).Reaches (macOff 7 0) (O.MAC_CTL 7) ∧ getBits (0x20 : Word) 8 1 = 0 ∧ 2 ≤ getBits (0x20 : Word) 4 2 ∧
    ((up .x 2).flag (F.MAC_CTL.EN_RX 7) || (up .x 2).flag (F.MAC_CTL.EN_TX 7)) = false ∧
    (run (.macCtlWrite 0 7 0x20) (up .x 2)).flag (F.MAC_STAT.CFG_ERR 7) = true := by decide +kernel

theorem wit_SpeedAndFlowControl_change :
    getBits (0x100 : Word) 8 1 = 1 ∧ (up .x 2).fget (F.MAC_CTL.SPEED 7) ≠ 1 ∧
    (run (.macCtlWrite 0 7 0x110) (up .x 2)).out.head? = some (.speed 7 1) := by decide +kernel

/-- Port 7 enabled at 10 Mb/s in half duplex, trunk 1 in BASE-R mode. -/
def macS : State :=
  wth (up .x 4) [(F.MAC_CTL.EN_RX 7, 1), (F.MAC_CTL.EN_TX 7, 1), (F.MAC_CTL.SPEED 7, 0), (F.MAC_CTL.DUPLEX 7, 0),
    (F.TRK_CFG.EN 1, 1), (F.TRK_CFG.MODE 1, 3)]

theorem wit_SpeedAndFlowControl_enabled :
    macS.Reaches (macOff 7 0) (O.MAC_CTL 7) ∧ (macS.flag (F.MAC_CTL.EN_RX 7) || macS.flag (F.MAC_CTL.EN_TX 7)) = true ∧
    macS.fget (F.MAC_CTL.SPEED 7) ≠ 1 ∧ (run (.macCtlWrite 0 7 0x13) macS).fget (F.MAC_CTL.SPEED 7) = 0 ∧
    (run (.macCtlWrite 0 7 0x13) macS).flag (F.MAC_STAT.CFG_ERR 7) = true := by decide +kernel

theorem wit_SpeedAndFlowControl_trunk :
    macS.Reaches (macOff 9 0) (O.MAC_CTL 9) ∧
    (run (.macCtlWrite 0 9 2) macS).fget (F.MAC_CTL.SPEED 9) = 3 ∧
    (run (.macCtlWrite 0 9 2) macS).flag (F.MAC_CTL.EN_TX 9) = true := by decide +kernel

/-- Port 7 in full duplex, with PAUSE or PFC for priorities 0 and 7. -/
def fcS (pfc : Nat) : State :=
  wth (up .x 4) [(F.MAC_CTL.EN_RX 7, 1), (F.MAC_CTL.DUPLEX 7, 1), (F.MAC_FC.PAUSE_EN 7, 1), (F.MAC_FC.PFC_EN 7, pfc),
    (F.MAC_FC.PFC_PRI 7, 0x81), (F.MAC_FC_STAT.PFC_PAUSED 7, 1)]

theorem wit_SpeedAndFlowControl_pause :
    (fcS 0).receives 7 = true ∧ ((fcS 0).port 7).arriving = none ∧ (fcS 0).flag (F.MAC_CTL.DUPLEX 7) = true ∧
    (fcS 0).flag (F.MAC_FC.PFC_EN 7) = false ∧ (fcS 0).flag (F.MAC_FC.PAUSE_EN 7) = true ∧
    (run (.pauseFrameReceive 7 false 0 [65535]) (fcS 0)).flag (F.MAC_FC_STAT.PAUSED 7) = true := by decide +kernel

theorem wit_SpeedAndFlowControl_pfc :
    (fcS 1).receives 7 = true ∧ (fcS 1).flag (F.MAC_FC.PFC_EN 7) = true ∧
    (run (.pauseFrameReceive 7 true 0x83 [0, 5, 0, 0, 0, 0, 0, 9]) (fcS 1)).fget (F.MAC_FC_STAT.PFC_PAUSED 7) = 0x80 ∧
    macS.receives 7 = true ∧ macS.flag (F.MAC_CTL.DUPLEX 7) = false := by decide +kernel

theorem wit_SpeedAndFlowControl_timer :
    (run (.pauseTimerExpiry 7 0) (fcS 1)).fget (F.MAC_FC_STAT.PFC_PAUSED 7) = 0 := by decide +kernel

/-- Port 7 holds 600 bytes, above its XON threshold of 2 units, and has asked for a pause. -/
def repeatS : State :=
  { wth (fcS 0) [(F.MAC_FC_THR.XON 7, 2), (F.MAC_FC.TX_QUANTA 7, 9)] with
    ports := [(7, { asked := [8] })], frames := [(1, { bytes := List.replicate 600 0, src := .port 7 })] }

theorem wit_SpeedAndFlowControl_repeat :
    (repeatS.port 7).asked = [8] ∧ 256 * repeatS.fget (F.MAC_FC_THR.XON 7) < repeatS.occupancy 7 8 ∧
    repeatS.flag (F.MAC_CTL.DUPLEX 7) = true ∧ repeatS.flag (F.MAC_FC.PFC_EN 7) = false ∧
    repeatS.flag (F.MAC_FC.PAUSE_EN 7) = true ∧ ((run (.pauseRepeat 7 8) repeatS).port 7).fcDue = [(8, 9)] ∧
    ((run (.pauseRepeat 7 8) (wth repeatS [(F.MAC_FC.PAUSE_EN 7, 0)])).port 7).fcDue = [] := by decide +kernel

theorem wit_FramesReceived_first :
    (fcS 0).isMac 7 = true ∧ (fcS 0).portUp 7 = true ∧ (fcS 0).listening 7 = false ∧ (fcS 0).flag (F.MAC_CTL.EN_RX 7) = true ∧
    (fcS 0).quiesced (portDom 7) = false ∧ (fcS 0).stopped 7 false = false ∧ ((fcS 0).port 7).arriving = none ∧
    ((run (.frameReceive 7 [1, 2, 3] false false 0 0) (fcS 0)).frame 1).bytes = [1, 2, 3] := by decide +kernel

/-- Frame 1 arrives at port 7. -/
def arrS : State :=
  { fcS 0 with frames := [(1, { bytes := List.replicate 60 0, src := .port 7, half := 1 })], nextFrame := 2, ports := [(7, { arriving := some 1 })] }

theorem wit_FramesReceived_rest :
    arrS.isMac 7 = true ∧ arrS.portUp 7 = true ∧ arrS.listening 7 = false ∧ (arrS.port 7).arriving = some 1 ∧
    (arrS.frame 1).void = false ∧
    ((run (.frameReceive 7 [1, 2] false false 0 0) arrS).frame 1).bytes.drop 60 = [1, 2] := by decide +kernel

/-- Port 7 listens for wake matches. -/
def hearS : State := { fcS 0 with doms := KMap.insert (fcS 0).doms (portDom 7) { (fcS 0).dom (portDom 7) with phase := .listening 5 } }

theorem wit_FramesReceived_heard :
    hearS.listening 7 = true ∧ hearS.stopped 7 false = false ∧
    ((run (.frameReceive 7 [1, 2] false false 0 0) hearS).port 7).heard = [1, 2] := by decide +kernel

/-- Port 7 of 100 Mb/s full duplex may send; its queue holds frame 1. -/
def txS : State :=
  { wth (up .x 4) [(F.MAC_CTL.EN_TX 7, 1), (F.MAC_CTL.DUPLEX 7, 1), (F.MAC_CTL.SPEED 7, 1), (F.MAC_CTL.CUT_EN 7, 1)] with
    frames := [(1, { bytes := List.replicate 64 0, done := true, src := .port 6, parse := { stage := 3 } })]
    ports := [(7, { egress := [{ fid := 1, cls := 7 }] })] }

theorem wit_FramesSent_control :
    (txS.setPort 7 { fcDue := [(8, 5)] }).sends 7 = true ∧ ((txS.setPort 7 { fcDue := [(8, 5)] }).port 7).tx = none ∧
    txS.quiesced (portDom 7) = false ∧ ((txS.setPort 7 { fcDue := [(8, 5)] }).port 7).gasp = false ∧
    (((run (.frameTransmitStart 7 0 200 false) (txS.setPort 7 { fcDue := [(8, 5)] })).port 7).tx.map (·.kind)) = some 1 := by decide +kernel

theorem wit_FramesSent_chosen :
    txS.sends 7 = true ∧ (txS.port 7).tx = none ∧ (txS.port 7).gasp = false ∧ (txS.port 7).fcDue = [] ∧
    txS.forwards (txS.cfg.halfOfAnyPort 7) = true ∧
    txS.choose 7 true = some { fid := 1, cls := 7 } ∧ txS.flag (F.MAC_CTL.DUPLEX 7) = true ∧
    txS.poisoned (txS.frame 1).parts = false ∧
    (((run (.frameTransmitStart 7 0 200 false) txS).port 7).tx.map (·.fid)) = some 1 := by decide +kernel

/-- Frame 1 still arrives from port 6, with 40 bytes so far. -/
def cutS : State := { txS with frames := [(1, { bytes := List.replicate 40 0, src := .port 6, parse := { stage := 3 } })] }

theorem wit_FramesSent_cut :
    cutS.sends 7 = true ∧ cutS.quiesced (portDom 7) = false ∧ (cutS.port 7).tx = none ∧ cutS.flag (F.MAC_CTL.CUT_EN 7) = true ∧
    cutS.flag (F.MAC_CTL.DUPLEX 7) = true ∧ cutS.cutOk 7 { fid := 1, cls := 7 } = true ∧
    cutS.choose 7 true = some { fid := 1, cls := 7 } ∧
    (((run (.cutThroughStart 7 0 0) cutS).port 7).tx.map (·.cut)) = some true := by decide +kernel

/-- Only class 7 is express; class 6 is preemptable. -/
def prioS : State := (wth txS [(F.MAC_STAT.PREEMPT_ACTIVE 7, 1), (F.MAC_PREEMPT.EXPRESS 7, 0x80)]).setPort 7 { egress := [{ fid := 1, cls := 6 }] }
/-- EN_TX is 0, with a preempted frame. -/
def resumeS : State := (wth txS [(F.MAC_CTL.EN_TX 7, 0)]).setPort 7 { held := some { fid := 1, pre := true } }
/-- In half duplex. -/
def halfS : State := wth txS [(F.MAC_CTL.DUPLEX 7, 0)]

theorem wit_FramesSent_preemptable :
    prioS.sends 7 = true ∧ prioS.choose 7 true = none ∧ prioS.choose 7 false = some { fid := 1, cls := 6 } ∧
    (prioS.port 7).hold = false ∧ (prioS.port 7).held = none ∧ prioS.cutOk 7 { fid := 1, cls := 6 } = false ∧
    (((run (.frameTransmitStart 7 0 0 false) prioS).port 7).tx.map (·.pre)) = some true := by decide +kernel

theorem wit_FramesSent_resume :
    resumeS.launches 7 = true ∧ resumeS.sends 7 = false ∧
    ((run (.frameTransmitStart 7 0 0 false) resumeS).port 7).held = none ∧
    halfS.flag (F.MAC_CTL.DUPLEX 7) = false ∧ ((run (.frameTransmitStart 7 0 0 true) halfS).port 7).tx = none := by decide +kernel

/-- Port 7 sends copy `c`. -/
def sendingS (c : Copy) : State := txS.setPort 7 { tx := some c }
/-- Trunk 1's MAC sends a frame while a link fault holds. -/
def brokenS : State := { macS with ports := [(9, { tx := some { fid := 1 } })], trunks := [(1, { fault := 1 })] }

theorem wit_FramesSent_broken :
    brokenS.portUp 9 = true ∧ brokenS.stopped 9 true = false ∧ brokenS.txBroken 9 = true ∧
    (run (.frameTransmitEnd 9) brokenS).out = [] := by decide +kernel

theorem wit_FramesSent_end :
    (sendingS { kind := 1, bytes := List.replicate 60 1 }).portUp 7 = true ∧
    (sendingS {}).stopped 7 true = false ∧ (sendingS {}).txBroken 7 = false ∧
    (run (.frameTransmitEnd 7) (sendingS { kind := 1, bytes := List.replicate 60 1 })).rd64 (O.MAC_CNT 7 21) = 64 ∧
    ((sendingS { fid := 1, bytes := List.replicate 64 0 }).port 7).tx = some { fid := 1, bytes := List.replicate 64 0 } ∧
    (run (.frameTransmitEnd 7) (sendingS { fid := 1, bytes := List.replicate 64 0 })).rd64 (O.MAC_CNT 7 22) = 1 := by decide +kernel

/-- Port 7 sends a preemptable frame; a PAUSE frame is due. -/
def preS : State :=
  (wth { txS with frames := [(1, { bytes := List.replicate 264 0, done := true, src := .port 6, parse := { stage := 3 } })] } [(F.MAC_STAT.PREEMPT_ACTIVE 7, 1)]).setPort 7 { tx := some { fid := 1, pre := true, sent := 10 }, fcDue := [(8, 1)] }

theorem wit_FramesSent_preempt :
    preS.sends 7 = true ∧ (preS.port 7).tx = some { fid := 1, pre := true, sent := 10 } ∧
    64 * (1 + preS.fget (F.MAC_PREEMPT.ADD_FRAG 7)) ≤ 200 - 10 + 4 ∧ 64 ≤ preS.copyLen { fid := 1 } - 200 ∧ preS.flag (F.MAC_CTL.DUPLEX 7) = true ∧ preS.flag (F.MAC_STAT.PREEMPT_ACTIVE 7) = true ∧
    (preS.port 7).held = none ∧ preS.quiesced (portDom 7) = false ∧ (preS.port 7).fcDue = (8, 1) :: [] ∧
    (run (.frameTransmitStart 7 0 200 false) preS).out = [.fragment 7 1] := by decide +kernel

/-- In half duplex, at the fourth attempt. -/
def collS (k : Nat) : State := wth (sendingS { fid := 1, kind := k, coll := 3 }) [(F.MAC_CTL.DUPLEX 7, 0)]

theorem wit_CollisionsAndVerify_collision :
    (collS 0).flag (F.MAC_CTL.DUPLEX 7) = false ∧ (collS 0).stopped 7 true = false ∧
    ((run (.collision 7 false) (collS 0)).port 7).egress = [{ fid := 1, coll := 4 }] ∧
    ((run (.collision 7 false) (collS 2)).port 7).gasp = true ∧
    ((run (.collision 7 true) (collS 0)).port 7).tx = none ∧
    ((run (.backoffExpiry 7) (txS.setPort 7 { backoff := true })).port 7).backoff = false := by decide +kernel

/-- Port 7 verifies preemption, after `n` tries. -/
def verS (n : Nat) : State := (wth txS [(F.MAC_STAT.VERIFY 7, 1)]).setPort 7 { tries := n }

theorem wit_CollisionsAndVerify_verify :
    (verS 2).fget (F.MAC_STAT.VERIFY 7) = 1 ∧ (verS 2).stopped 7 true = false ∧ (verS 3).stopped 7 false = false ∧ ((verS 2).port 7).tries < 3 ∧ 3 ≤ ((verS 3).port 7).tries ∧
    (run (.verifyTimeout 7) (verS 2)).out = [.verify 7] ∧ (run (.verifyTimeout 7) (verS 3)).fget (F.MAC_STAT.VERIFY 7) = 3 ∧
    (run (.verifyResponse 7) (verS 3)).flag (F.MAC_STAT.PREEMPT_ACTIVE 7) = true := by decide +kernel

/-- Port 7 runs the list of gear 0, at entry `i`; entry 2 is the last one. -/
def gateS (i : Nat) : State :=
  wth txS [(F.MAC_GCL_CTL.EN 7, 1), (F.MAC_GCL_CTL.VALID 7, 1), (F.MAC_GCL_STAT.ENTRY 7, i), (F.MAC_GCL.LAST 7 0 2, 1)]

theorem wit_GateLists_expiry :
    (gateS 1).gated 7 = true ∧ (gateS 1).portUp 7 = true ∧ (gateS 1).flag (F.MAC_GCL.LAST 7 0 1) = false ∧
    (run (.gateEntryExpiry 7) (gateS 1)).fget (F.MAC_GCL_STAT.ENTRY 7) = 2 ∧ (gateS 2).flag (F.MAC_GCL.LAST 7 0 2) = true ∧
    (run (.gateEntryExpiry 7) (gateS 2)).fget (F.MAC_GCL_STAT.ENTRY 7) = 0 := by decide +kernel

theorem wit_GateLists_entry :
    (gateS 0).Reaches (O.MAC_GCL 7 7 31 + 4 * b2n true) (O.MAC_GCL 7 7 31 + 4) ∧
    (gateS 0).fget (F.MAC_GCL_CTL.VALID 7) / 2 ^ 0 % 2 = 1 ∧ (gateS 0).fget (F.MAC_GCL_CTL.VALID 7) / 2 ^ 7 % 2 = 0 ∧
    (run (.gateListWrite 0 7 false 0 31 true 0x8FF) (gateS 0)).slv = some ⟨true, 0⟩ ∧
    (run (.gateListWrite 0 7 false 7 31 true 0x8A5) (gateS 0)).fget (F.MAC_GCL.GATES 7 7 31) = 0xA5 := by decide +kernel

theorem wit_GateLists_ctl :
    txS.Reaches (O.MAC_GCL_CTL 7) (O.MAC_GCL_CTL 7) ∧ (gateS 0).gearOf 7 = 0 ∧ txS.flag (F.MAC_GCL_CTL.EN 7) = false ∧
    (run (.gateListWrite 0 7 true 0 0 false 0x80000000) (gateS 0)).fget (F.MAC_GCL_CTL.VALID 7) = 1 ∧
    (run (.gateListWrite 0 7 true 0 0 false 0x80000000) txS).flag (F.MAC_GCL_CTL.EN 7) = true := by decide +kernel

/-- Thread 7 of engine 11 holds frame 1, with a byte trigger at byte `o`. -/
def trigB (o : Nat) : State := { txS with threads := [(95, { bound := some 1, trigs := [(3, o)] })] }

theorem wit_EditsInFlight_trigger :
    ((trigB 63).thr 11 7).bound = some 1 ∧ KMap.find? ((trigB 63).thr 11 7).trigs 3 = some 63 ∧
    63 < ((trigB 63).frame 1).bytes.length ∧ ((trigB 64).frame 1).bytes.length ≤ 64 ∧ ((trigB 64).frame 1).done = true ∧
    (run (.byteTrigger 11 7 3) (trigB 63)).flag (evtFld 11 7 4) = true ∧
    (run (.byteTrigger 11 7 3) (trigB 63)).flag (evtFld 11 7 5) = false ∧
    (run (.byteTrigger 11 7 3) (trigB 64)).flag (evtFld 11 7 5) = true := by decide +kernel

/-- An edit of frame 1 or 2 on its way to port 7, which has a copy of frame 1. -/
def editS (f : Nat) (tx : Bool) : State :=
  txS.setPort 7 { egress := if tx then [] else [{ fid := 1 }], tx := if tx then some { fid := 1 } else none
                  coming := [⟨f, 2, false, [9], 95, 3⟩] }

theorem wit_EditsInFlight_edit :
    ((editS 1 false).port 7).coming = ⟨1, 2, false, [9], 95, 3⟩ :: [] ∧ (editS 1 false).editLive 7 ⟨1, 2, false, [9], 95, 3⟩ = true ∧
    ((editS 1 false).port 7).editFull ⟨1, 2, false, [9], 95, 3⟩ = false ∧
    (editS 1 false).editLate 7 (-15) ⟨1, 2, false, [9], 95, 3⟩ = false ∧ (editS 2 false).editLive 7 ⟨2, 2, false, [9], 95, 3⟩ = false ∧
    ((run (.editQueued 7 (-15)) (editS 1 false)).port 7).edits.length = 1 ∧
    ((run (.editQueued 7 (-15)) (editS 2 false)).port 7).edits.length = 0 := by decide +kernel

theorem wit_EditsInFlight_late :
    (((editS 1 true).port 7).coming.find? fun e => (editS 1 true).editLate 7 0 e) = some ⟨1, 2, false, [9], 95, 3⟩ ∧
    (editS 1 false).editLate 7 (-14) ⟨1, 2, false, [9], 95, 3⟩ = true ∧
    ((run (.editLate 7 0) (editS 1 true)).port 7).coming = [] := by decide +kernel

/-! ### Engines -/

/-- An instruction word: OP, D, A, B and the low 14 bits. -/
def iw (op d a b x : Nat) : Word := BitVec.ofNat 32 (op * 2 ^ 26 + d * 2 ^ 22 + a * 2 ^ 18 + b * 2 ^ 14 + x)
/-- Bytes in an engine's memories. -/
def bytesAt (e off : Nat) (bs : List Byte) : KMap Byte := bs.zipIdx.map fun b => (ememKey e (off + b.2), b.1)
/-- Thread `n` of engine `e` runs at pc 0x100, where `w` stands; g1, g2 and g3 as given. -/
def engS (e n : Nat) (w g1 g2 g3 : Word) : State :=
  let s := wth (up .x 4) [(F.CE_THR_STAT.STATE e n, 1), (F.CE_THR_PC.PC e n, 0x40)]
  { ((s.wr (O.CE_THR_G e n 1) g1).wr (O.CE_THR_G e n 2) g2).wr (O.CE_THR_G e n 3) g3 with
    emem := bytesAt e 0x100 (natLe 4 w.toNat), threads := [(8 * e + n, { cc := 1 })] }
/-- The last thread of the last engine. -/
abbrev engB (w g1 g2 g3 : Word) : State := engS 11 7 w g1 g2 g3

/-- The register-to-register operations on 0x80000001 and 0x21, with S: function, result, cc. -/
def aluRows : List ((Nat → Nat → Nat → Nat → Nat → Instr) × Opc × Nat × Word × Nat) :=
  [(.aluAdd, .add, 0, 0x80000022, 8), (.aluSub, .sub, 1, 0x7FFFFFE0, 1), (.aluAnd, .and, 2, 1, 0), (.aluOr, .or, 3, 0x80000021, 8),
   (.aluXor, .xor, 4, 0x80000020, 8), (.aluShl, .shl, 5, 2, 0), (.aluShr, .shr, 6, 0x40000000, 0), (.aluSar, .sar, 7, 0xC0000000, 8),
   (.aluMul, .mul, 8, 0x80000021, 8), (.aluAndn, .andn, 9, 0x80000000, 8), (.aluMin, .min, 10, 0x80000001, 8),
   (.aluMax, .max, 11, 0x21, 0), (.aluMinu, .minu, 12, 0x21, 0), (.aluMaxu, .maxu, 13, 0x80000001, 8)]

theorem wit_AluOnRegisters :
    ∀ x ∈ aluRows, (engB (iw 1 3 1 2 (16 + x.2.2.1)) 0x80000001 0x21 9).Issues 11 7 7 0 x.2.1 ∧
      (run (x.1 11 7 7 0 0) (engB (iw 1 3 1 2 (16 + x.2.2.1)) 0x80000001 0x21 9)).greg 11 7 3 = x.2.2.2.1 ∧
      ((run (x.1 11 7 7 0 0) (engB (iw 1 3 1 2 (16 + x.2.2.1)) 0x80000001 0x21 9)).thr 11 7).cc = x.2.2.2.2 := by decide +kernel

/-- The immediate and bit-field operations on 0x80000001: opcode, 18-bit immediate, result. -/
def immRows : List ((Nat → Nat → Nat → Nat → Nat → Instr) × Opc × Nat × Nat × Word) :=
  [(.addi, .addi, 2, 0x3FFFF, 0x80000000), (.andi, .andi, 3, 0x3FFFF, 1), (.ori, .ori, 4, 0x20000, 0x80020001),
   (.xori, .xori, 5, 1, 0x80000000), (.shiShl, .shiShl, 6, 31, 0x80000000), (.shiShr, .shiShr, 6, 0x1001F, 1),
   (.shiSar, .shiSar, 6, 0x2001F, 0xFFFFFFFF), (.shiRor, .shiRor, 6, 0x30001, 0xC0000000), (.lui, .lui, 7, 0xFFFF, 0xFFFF0000),
   (.ext, .ext, 8, 0x27C00, 0xFFFFFFFF), (.ins, .ins, 9, 0x07C00, 0x80000009), (.crc, .crc, 0x1C, 0, 0x0EDB8832)]

theorem wit_CompareBranchJump_cmp :
    (engB (iw 0x0A 0 1 2 0) 0x80000001 0x21 9).Issues 11 7 7 0 .cmp ∧
    ((run (.cmp 11 7 7 0 0) (engB (iw 0x0A 0 1 2 0) 0x80000001 0x21 9)).thr 11 7).cc = 1 ∧
    (engB (iw 0x0B 0 1 0 0x20000) 0x80000001 0x21 9).Issues 11 7 7 0 .cmpi ∧
    ((run (.cmpi 11 7 7 0 0) (engB (iw 0x0B 0 1 0 0x20000) 0x80000001 0x21 9)).thr 11 7).cc = 10 := by decide +kernel

theorem wit_CompareBranchJump_jump :
    (engB (iw 0x0C 9 0 0 0x3FFFFF) 1 1 1).Issues 11 7 7 0 .b ∧
    (run (.b 11 7 7 0 0) (engB (iw 0x0C 9 0 0 0x3FFFFF) 1 1 1)).pcOf 11 7 = 0xFC ∧
    (run (.b 11 7 7 0 0) (engB (iw 0x0C 10 0 0 0x3FFFFF) 1 1 1)).pcOf 11 7 = 0x104 ∧
    (engB (iw 0x0D 3 0 0 2) 1 1 1).Issues 11 7 7 0 .jal ∧
    (run (.jal 11 7 7 0 0) (engB (iw 0x0D 3 0 0 2) 1 1 1)).pcOf 11 7 = 0x108 ∧
    (engB (iw 0x0E 1 1 0 7) 0x80000001 1 1).Issues 11 7 7 0 .jalr ∧
    (run (.jalr 11 7 7 0 0) (engB (iw 0x0E 1 1 0 7) 0x80000001 1 1)).pcOf 11 7 = 8 ∧
    (run (.jalr 11 7 7 0 0) (engB (iw 0x0E 1 1 0 7) 0x80000001 1 1)).greg 11 7 1 = 0x104 := by decide +kernel

/-- LD of a signed halfword in network order at the last halfword of shared memory. -/
def ldS : State :=
  let s := engB (iw 0x10 3 1 0 0x1E000) 0x83FE 1 1
  { s with emem := s.emem ++ bytesAt 11 (0x20000 + 0x83FE) [0x80, 0x01] }

theorem wit_SliceAndSharedMemory_ld :
    ldS.Issues 11 7 7 0 .ld ∧ ldS.dataPlace 11 7 true 0x83FE 2 = .inl 0x283FE ∧
    (run (.ld 11 7 7 0 0) ldS).greg 11 7 3 = 0xFFFF8001 := by decide +kernel

/-- ST of a byte at the last byte of the thread's slice of 8 KiB. -/
def stS : State := engB (iw 0x11 3 1 0 0) 0x1FFF 1 0x123456A5

theorem wit_SliceAndSharedMemory_st :
    stS.Issues 11 7 7 0 .st ∧ stS.dataPlace 11 7 false 0x1FFF 1 = .inl 0x1FFFF ∧
    (run (.st 11 7 7 0 0) stS).ebytes 11 0x1FFFF 1 = [0xA5] := by decide +kernel

/-- The atomics at the last word of shared memory, which holds 5, with gb = 3 and gd = 5: function, new word. -/
def amoRows : List ((Nat → Nat → Nat → Nat → Nat → Instr) × Opc × Nat × Nat) :=
  [(.amoSwap, .amoSwap, 0, 3), (.amoAdd, .amoAdd, 1, 8), (.amoAnd, .amoAnd, 2, 1), (.amoOr, .amoOr, 3, 7), (.amoXor, .amoXor, 4, 6),
   (.amoCas, .amoCas, 5, 3)]
def amoS (k : Nat) : State :=
  let s := engB (iw 0x1B 3 1 2 k) 0x7FFC 3 5
  { s with emem := s.emem ++ bytesAt 11 0x27FFC [5] }

theorem wit_SliceAndSharedMemory_amo :
    amoPlace 0x7FFC = .inl 0x27FFC ∧
    ∀ x ∈ amoRows, (amoS x.2.2.1).Issues 11 7 7 0 x.2.1 ∧ (run (x.1 11 7 7 0 0) (amoS x.2.2.1)).greg 11 7 3 = 5 ∧
      (run (x.1 11 7 7 0 0) (amoS x.2.2.1)).ebytes 11 0x27FFC 4 = natLe 4 x.2.2.2 := by decide +kernel

theorem wit_SliceAndSharedMemory_amoFaults :
    (engB (iw 0x1B 3 1 2 5) 0x8000 3 5).Issues 11 7 7 0 .amoCas ∧
    (run (.amoCas 11 7 7 0 0) (engB (iw 0x1B 3 1 2 5) 0x8000 3 5)).fget (F.CE_THR_STAT.FCAUSE 11 7) = 3 ∧
    (run (.amoCas 11 7 7 0 0) (engB (iw 0x1B 3 1 2 5) 0x8001 3 5)).fget (F.CE_THR_STAT.FCAUSE 11 7) = 8 ∧
    getBits (iw 0x1B 3 1 2 6) 26 6 = 0x1B ∧ decodeOp (iw 0x1B 3 1 2 6) = none ∧ decodeOp (iw 0x1A 14 0 0 0) = none := by decide +kernel

/-- A frame of 64 bytes, 0 to 63, and a thread as given. -/
def frmS (w : Word) (t : Thread) : State :=
  { engB w 0 2 0xAABBCCDD with
    frames := [(1, { bytes := (List.range 64).map (BitVec.ofNat 8), done := true, src := .port 7 })], threads := [(95, t)] }

theorem wit_BoundFrames_take :
    (frmS (iw 0x14 3 0 0 0) {}).Issues 11 7 7 0 .take ∧ ((frmS (iw 0x14 3 0 0 0) {}).thr 11 7).rxq = [] ∧
    ((run (.frmTake 11 7 7 0 0) (frmS (iw 0x14 3 0 0 0) {})).thr 11 7).cc = 4 ∧
    (frmS (iw 0x14 3 0 0 0) { rxq := [1] }).Issues 11 7 7 0 .take ∧
    ((frmS (iw 0x14 3 0 0 0) { rxq := [1] }).thr 11 7).bound = none := by decide +kernel

/-- FLD and FST of 4 bytes at byte 62. -/
def fldS : State := frmS (iw 0x12 3 1 0 (0x20000 + 2)) { bound := some 1, fwp := 60 }
def fstS : State := frmS (iw 0x13 3 1 0 (0x20000 + 2)) { bound := some 1, fwp := 60 }

theorem wit_BoundFrames_fld :
    fldS.Issues 11 7 7 0 .fld ∧ (fldS.thr 11 7).bound = some 1 ∧ fldS.frameWaits (fldS.frame 1) [62, 63, 64, 65] = false ∧
    memParts (fldS.frame 1) [62, 63, 64, 65] = [] ∧ (run (.fld 11 7 7 0 0) fldS).greg 11 7 3 = 0x3E3F0000 ∧
    ((run (.fld 11 7 7 0 0) fldS).thr 11 7).cc = 1 := by decide +kernel

theorem wit_BoundFrames_fst :
    fstS.Issues 11 7 7 0 .fst ∧ fstS.poisoned (memParts (fstS.frame 1) [62, 63, 64, 65]) = false ∧
    ((run (.fst 11 7 7 0 0) fstS).frame 1).bytes.drop 61 = [61, 0xAA, 0xBB] := by decide +kernel

/-- A frame still arriving, of which byte 62 is not there: FLD and FST wait; ga wraps below the frame window's offset. -/
theorem wit_BoundFrames_waits :
    ({ fldS with frames := [(1, { bytes := [1, 2], src := .port 7 })] } : State).frameWaits { bytes := [1, 2], src := .port 7 } [62, 63, 64, 65] = true ∧
    run (.fld 11 7 7 0 0) { fldS with frames := [(1, { bytes := [1, 2], src := .port 7 })] } =
      { fldS with frames := [(1, { bytes := [1, 2], src := .port 7 })] } ∧
    (run (.fld 11 7 7 0 0) (fldS.wr (O.CE_THR_G 11 7 1) 0xFFFFFFC2)).greg 11 7 3 = 0x00010203 := by decide +kernel

theorem wit_BoundFrames_dispose :
    (frmS (iw 0x14 0 1 2 1) { bound := some 1 }).Issues 11 7 7 0 .disp ∧
    (frmS (iw 0x14 0 1 2 1) { bound := some 1 }).rtagKnown (readAct 2) ((frmS (iw 0x14 0 1 2 1) { bound := some 1 }).frame 1) = true ∧
    (wth (frmS (iw 0x14 0 1 2 1) { bound := some 1 }) [(F.CLS_SR.EN 0, 1)]).rtagKnown (readAct (2 ^ 55)) { src := .port 7 } = false ∧
    (frmS (iw 0x14 0 1 2 2) { bound := some 1, disposed := true }).Issues 11 7 7 0 .free ∧
    ((run (.frmFree 11 7 7 0 0) (frmS (iw 0x14 0 1 2 2) { bound := some 1, disposed := true })).thr 11 7).bound = none := by
  decide +kernel

theorem wit_BoundFrames_trigger :
    (frmS (iw 0x14 0 3 0 0x33) { bound := some 1, fwp := 4 }).Issues 11 7 7 0 .arm ∧
    KMap.find? ((run (.frmTrigArm 11 7 7 0 0) (frmS (iw 0x14 0 3 0 0x33) { bound := some 1, fwp := 4 })).thr 11 7).trigs 3 =
      some 0xAABBCCE1 ∧
    (frmS (iw 0x14 0 3 0 0x73) { bound := some 1, trigs := [(3, 9)] }).Issues 11 7 7 0 .disarm ∧
    ((run (.frmTrigDisarm 11 7 7 0 0) (frmS (iw 0x14 0 3 0 0x73) { bound := some 1, trigs := [(3, 9)] })).thr 11 7).trigs = [] ∧
    (frmS (iw 0x14 3 0 0 4) { bound := some 1 }).Issues 11 7 7 0 .finfo ∧
    (run (.frmFinfo 11 7 7 0 0) (frmS (iw 0x14 3 0 0 4) { bound := some 1 })).greg 11 7 3 = 0x80000040 := by decide +kernel

/-- Splice entry 63 inserts the last byte of shared memory before byte 14 at port 7. -/
def splS : State :=
  let s := frmS (iw 0x15 0 0 0 7) { bound := some 1 }
  { s with emem := s.emem ++ bytesAt 11 (0x28000 + 0x3F0) (natLe 4 0x4700000E ++ natLe 4 0x800083FF) }

theorem wit_SplicesAndSpecialRegisters_spl :
    splS.Issues 11 7 7 0 .spl ∧ (splS.thr 11 7).bound = some 1 ∧ bitOf (splS.spliceWord 11 63 3) 31 = false ∧
    getBits (splS.spliceWord 11 63 0) 30 2 = 1 ∧ splS.editPort (getBits (splS.spliceWord 11 63 0) 24 4) = true ∧
    splS.spliceSource 11 7 (splS.spliceWord 11 63 1) (getBits (splS.spliceWord 11 63 2) 0 8 + 1) = some 0x283FF ∧
    ((run (.spl 11 7 7 0 0) splS).splices.map fun q => (q.port, q.edit.w)) = [(7, 14)] ∧
    bitOf ((run (.spl 11 7 7 0 0) splS).spliceWord 11 63 3) 31 = true ∧
    run (.spl 11 7 7 0 0) { splS with emem := splS.emem ++ bytesAt 11 0x283FF [0x80] } =
      { splS with emem := splS.emem ++ bytesAt 11 0x283FF [0x80] } := by decide +kernel

theorem wit_SplicesAndSpecialRegisters_mfs :
    ∀ x ∈ ([(0, 1), (1, 0), (2, 7), (3, 11), (4, 0)] : List (Nat × Word)),
      (engB (iw 0x16 3 0 0 x.1) 1 1 1).Issues 11 7 7 0 .mfs ∧
      (run (.mfs 11 7 7 0 0) (engB (iw 0x16 3 0 0 x.1) 1 1 1)).greg 11 7 3 = x.2 := by decide +kernel

theorem wit_SplicesAndSpecialRegisters_mts :
    ∀ k ∈ [0, 1, 4], (engB (iw 0x17 0 1 0 k) 0xFFFFFFFE 1 1).Issues 11 7 7 0 .mts ∧
      (k = 4 → (run (.mts 11 7 7 0 0) (engB (iw 0x17 0 1 0 k) 0xFFFFFFFE 1 1)).rd (O.CE_THR_TIMER 11 7) = 0xFFFFFFFE) ∧
      (k = 1 → ((run (.mts 11 7 7 0 0) (engB (iw 0x17 0 1 0 k) 0xFFFFFFFE 1 1)).thr 11 7).fwp = 0x3FFE) := by decide +kernel

theorem wit_SplicesAndSpecialRegisters_time :
    ({ engB (iw 0x1A 13 0 0 0) 1 1 1 with tbs := [(1, { t := 7 * secUnits + 9 * 2 ^ 40 })] } : State).Issues 11 7 7 0 .time ∧
    (run (.time 11 7 7 0 0) { engB (iw 0x1A 13 0 0 0) 1 1 1 with tbs := [(1, { t := 7 * secUnits + 9 * 2 ^ 40 })] }).greg 11 7 13 = 9 ∧
    (run (.time 11 7 7 0 0) { engB (iw 0x1A 13 0 0 0) 1 1 1 with tbs := [(1, { t := 7 * secUnits + 9 * 2 ^ 40 })] }).greg 11 7 14 = 7 := by
  decide +kernel

/-- Check unit 3 runs on 16 bytes from threads; CHKF feeds 4. -/
def feedS : State := wth (engB (iw 0x1D 0 1 0 0xE) 0x01020304 1 1) [(F.CHK_CFG.SRC 3, 1), (F.CHK_STAT.STATE 3, 1), (F.CHK_LEN.LEN 3, 16)]

theorem wit_SplicesAndSpecialRegisters_chkf :
    feedS.Issues 11 7 7 0 .chkf ∧ feedS.chkUp 3 = true ∧ chkHalf feedS.cfg 3 = feedS.cfg.halfOfEngine 11 ∧
    feedS.flag (F.CHK_CFG.SRC 3) = true ∧ feedS.flag (F.CHK_STAT.STATE 3) = true ∧ feedS.chkNeeds 3 = 16 ∧
    (engB (iw 0x1D 0 1 0 0xE) 1 1 1).Issues 11 7 7 0 .chkf ∧ (engB (iw 0x1D 0 1 0 0xE) 1 1 1).flag (F.CHK_STAT.STATE 3) = false ∧
    ((run (.chkf 11 7 7 0 0) (engB (iw 0x1D 0 1 0 0xE) 1 1 1)).thr 11 7).cc = 1 ∧
    ((run (.chkf 11 7 7 0 0) feedS).chk 3).taken = 4 ∧
    (run (.chkf 11 7 7 0 0) (wth feedS [(F.CHK_LEN.LEN 3, 3)])).flag (F.CHK_STAT.OVERFEED 3) = true ∧
    run (.chkf 11 7 7 0 0) (wth feedS [(F.CHK_LEN.LEN 3, 0), (F.CHK_CTL.REARM 3, 1)]) =
      wth feedS [(F.CHK_LEN.LEN 3, 0), (F.CHK_CTL.REARM 3, 1)] := by decide +kernel

/-- WAIT for events 8 and 0 with event `b` pending. -/
def waitS (b : Nat) : State := wth (engB (iw 0x18 3 0 0 0x101) 1 1 1) [(evtFld 11 7 b, 1)]

theorem wit_EventsAndWaits_wait :
    (waitS 8).Issues 11 7 7 0 .wait ∧ Nat.land ((waitS 8).pendEvents 11 7) 0x101 ≠ 0 ∧
    (run (.wait 11 7 7 0 0) (waitS 8)).greg 11 7 3 = 0x100 ∧ (run (.wait 11 7 7 0 0) (waitS 8)).flag (evtFld 11 7 8) = false ∧
    (waitS 9).Issues 11 7 7 0 .wait ∧ Nat.land ((waitS 9).pendEvents 11 7) 0x101 = 0 ∧
    (run (.wait 11 7 7 0 0) (waitS 9)).thrState 11 7 = 2 := by decide +kernel

/-- SIG to thread 0 of engine 9, in the cluster of engine 11, which has state `st`; and to an engine of another cluster. -/
def sigS (u st : Nat) : State := wth (engB (iw 0x19 0 1 0 0) (BitVec.ofNat 32 (8 * u)) 1 1) [(F.CE_THR_STAT.STATE 9 0, st)]

theorem wit_EventsAndWaits_sig :
    (sigS 9 1).Issues 11 7 7 0 .sig ∧ (sigS 9 1).cfg.clusterOf 9 = (sigS 9 1).cfg.clusterOf 11 ∧ (sigS 9 1).thrState 9 0 ≠ 0 ∧
    (run (.sig 11 7 7 0 0) (sigS 9 1)).flag (evtFld 9 0 9) = true ∧ (sigS 8 1).cfg.clusterOf 8 ≠ (sigS 8 1).cfg.clusterOf 11 ∧
    (sigS 8 1).Issues 11 7 7 0 .sig ∧ ((run (.sig 11 7 7 0 0) (sigS 8 1)).thr 11 7).cc = 1 := by decide +kernel

/-- The thread waits for event 8, which is pending; gd is g15. -/
def waitingS : State :=
  { wth (engB 0 1 1 1) [(F.CE_THR_STAT.STATE 11 7, 2), (evtFld 11 7 8, 1)] with threads := [(95, { mask := 0x100, dest := 15 })] }

theorem wit_EventsAndWaits_complete :
    waitingS.engineRuns 11 = true ∧ waitingS.thrState 11 7 = 2 ∧ Nat.land (waitingS.pendEvents 11 7) (waitingS.thr 11 7).mask ≠ 0 ∧
    (waitingS.thr 11 7).dest = 15 ∧ (run (.eventWaitComplete 11 7) waitingS).greg 11 7 15 = 0x100 := by decide +kernel

theorem wit_EventsAndWaits_host :
    ((up .x 4).wr (O.CE_THR_TIMER 11 7) 1).engineOn 11 = true ∧ ((up .x 4).wr (O.CE_THR_TIMER 11 7) 1).rd (O.CE_THR_TIMER 11 7) ≠ 0 ∧
    (run (.threadTimerExpiry 11 7) ((up .x 4).wr (O.CE_THR_TIMER 11 7) 1)).flag (evtFld 11 7 8) = true ∧
    (up .x 4).Reaches (O.CE_THR_EVT 11 7) (O.CE_THR_EVT 11 7) ∧
    (run (.hostEvent 0 11 7) (up .x 4)).flag (evtFld 11 7 15) = true := by decide +kernel

/-- A splice of 256 bytes for port 7, whose edits hold `n` bytes. -/
def fetchS (n : Nat) : State :=
  { up .x 4 with
    splices := [{ port := 7, edit := ⟨1, 14, false, List.replicate 256 0, 95, 63⟩ }]
    ports := [(7, { edits := [⟨1, 0, false, List.replicate n 0, 95, 0⟩] })] }

theorem wit_EventsAndWaits_splice :
    ((fetchS 1792).port 7).edits.length + ((fetchS 1792).port 7).coming.length < 32 ∧
    (((fetchS 1792).port 7).edits ++ ((fetchS 1792).port 7).coming).foldl (fun a y => a + y.bytes.length) 0 + 256 ≤ 2048 ∧
    (((run .spliceFetchDone (fetchS 1792)).port 7).coming.map fun e => e.bytes.length) = [256] ∧
    bitOf ((run .spliceFetchDone (fetchS 1792)).spliceWord 11 63 3) 30 = true ∧
    2048 < (((fetchS 1793).port 7).edits ++ ((fetchS 1793).port 7).coming).foldl (fun a y => a + y.bytes.length) 0 + 256 ∧
    ((run .spliceFetchDone (fetchS 1793)).port 7).coming = [] ∧
    (run .spliceFetchDone (fetchS 1793)).flag (F.MAC_EDIT_STAT.FULL 7) = true := by decide +kernel

/-- The master of engine 0 with a thread-control word on thread 7, which has state `st`; g1 = 0x8181. -/
def thcS (k st : Nat) : State := wth (engS 0 0 (iw 0x1E 3 1 0 (0x7F0 + k)) 0x8181 1 1) [(F.CE_THR_STAT.STATE 0 7, st)]

theorem wit_ThreadControl_set :
    (thcS 0 0).isMaster 0 0 = true ∧ (thcS 0 0).thrStopped 0 7 = true ∧ (thcS 0 0).Issues 0 0 0 0 .tpc ∧
    (run (.thcTpc 0 0 0 0 0) (thcS 0 0)).pcOf 0 7 = 0x0180 ∧ (thcS 1 0).Issues 0 0 0 0 .tslc ∧
    (run (.thcTslc 0 0 0 0 0) (thcS 1 0)).fget (F.CE_THR_SLICE.BASE 0 7) = 0x81 ∧ (thcS 2 0).Issues 0 0 0 0 .tgw ∧
    (run (.thcTgw 0 0 0 0 0) (thcS 2 0)).greg 0 7 15 = 0x8181 := by decide +kernel

theorem wit_ThreadControl_refused :
    (thcS 0 1).thrStopped 0 7 = false ∧ (thcS 0 1).Issues 0 0 0 0 .tpc ∧ (thcS 1 1).Issues 0 0 0 0 .tslc ∧
    (thcS 2 1).Issues 0 0 0 0 .tgw ∧ ((run (.thcTgw 0 0 0 0 0) (thcS 2 1)).thr 0 0).cc = 1 := by decide +kernel

theorem wit_ThreadControl_read :
    (thcS 3 1).Issues 0 0 0 0 .tgr ∧ (thcS 6 1).Issues 0 0 0 0 .tst ∧ (run (.thcTst 0 0 0 0 0) (thcS 6 1)).greg 0 0 3 = 1 ∧
    (thcS 4 0).Issues 0 0 0 0 .trel ∧ (run (.thcTrel 0 0 0 0 0 0) (thcS 4 0)).thrState 0 7 = 1 ∧
    (run (.thcTrel 0 0 0 0 0 128) (thcS 4 0)).flag (F.CE_THR_STAT.COLLIDE 0 7) = true ∧
    bitOf (0x8181 : Word) 7 = true ∧ (thcS 5 1).Issues 0 0 0 0 .thlt ∧
    (run (.thcThlt 0 0 0 0 0) (thcS 5 1)).thrState 0 7 = 3 := by decide +kernel

theorem wit_ThreadControl_notMaster :
    ∀ x ∈ ([(0, .tpc), (1, .tslc), (2, .tgw), (3, .tgr), (4, .trel), (5, .thlt), (6, .tst)] : List (Nat × Opc)),
      (engB (iw 0x1E 3 1 0 x.1) 1 1 1).Issues 11 7 7 0 x.2 ∧ (engB (iw 0x1E 3 1 0 x.1) 1 1 1).isMaster 11 7 = false := by decide +kernel

theorem wit_ThreadFaults_illegal :
    (engB 0 1 1 1).engineRuns 11 = true ∧ ((engB 0 1 1 1).wheelPick 11 7 0).map Prod.fst = some 7 ∧
    decodeOp ((engB 0 1 1 1).fetchWord 11 7) = none ∧ bitOf ((engB 0 1 1 1).rd O.FLT_ESC) 0 = false := by decide +kernel

theorem wit_ThreadFaults_access :
    decodeOp ((engB (iw 0x10 3 1 0 0x10000) 0x1FFF 1 1).fetchWord 11 7) = some .ld ∧
    (engB (iw 0x10 3 1 0 0x10000) 0x1FFF 1 1).dataPlace 11 7 false 0x1FFF 2 = .inr 8 ∧
    (engB (iw 0x10 3 1 0 0x10000) 0x2000 1 1).dataPlace 11 7 false 0x2000 2 = .inr 2 ∧
    (engB (iw 0x10 3 1 0 0x14000) 0x8400 1 1).dataPlace 11 7 true 0x8400 2 = .inr 3 ∧
    decodeOp ((frmS (iw 0x14 3 0 0 0) { bound := some 1 }).fetchWord 11 7) = some .take ∧
    ((frmS (iw 0x14 3 0 0 0) { bound := some 1 }).thr 11 7).bound.isSome = true ∧
    foreignSplice 7 0x8000 = true ∧ (run (.st 11 7 7 0 0) (engB (iw 0x11 3 1 0 0x4000) 0x8000 1 1)).fget (F.CE_THR_STAT.FCAUSE 11 7) = 3 ∧
    (run (.fld 11 7 7 0 3) fldS).fget (F.CE_THR_STAT.FCAUSE 11 7) = 5 ∧
    (run (.spl 11 7 7 0 0) { splS with emem := bytesAt 11 0x100 (natLe 4 (iw 0x15 0 0 0 7).toNat) ++ bytesAt 11 0x283F3 [0xC7] }).fget
      (F.CE_THR_STAT.FCAUSE 11 7) = 9 ∧
    (run (.spl 11 7 7 0 3) splS).fget (F.CE_THR_STAT.FCAUSE 11 7) = 5 ∧
    (run (.amoAdd 11 7 7 0 3) (amoS 1)).fget (F.CE_THR_STAT.FCAUSE 11 7) = 5 ∧
    (run (.frmDisp 11 7 7 0 0) (frmS (iw 0x14 0 1 2 1) { bound := some 1, disposed := true })).fget (F.CE_THR_STAT.FCAUSE 11 7) = 4 ∧
    (run (.frmFinfo 11 7 7 0 0) (frmS (iw 0x14 3 0 0 4) {})).fget (F.CE_THR_STAT.FCAUSE 11 7) = 4 := by decide +kernel

/-- With thread faults escalated the block goes to SAFEHOLD. -/
theorem wit_ThreadFaults_escalated :
    bitOf (((engB 0 1 1 1).wr O.FLT_ESC 1).rd O.FLT_ESC) 0 = true ∧
    (run (.illegalInstruction 11 7 7 0 0) ((engB 0 1 1 1).wr O.FLT_ESC 1)).mode = 6 ∧
    (run (.illegalInstruction 11 7 7 0 0) ((engB 0 1 1 1).wr O.FLT_ESC 1)).thrState 11 7 = 4 ∧
    (run (.illegalInstruction 11 7 7 0 0) (engB 0 1 1 1)).fget (F.CE_THR_STAT.FCAUSE 11 7) = 1 ∧
    (run (.aluAdd 11 7 7 0 2) (engB 0 1 1 1)).fget (F.CE_THR_STAT.FCAUSE 11 7) = 5 := by decide +kernel

/-- Thread 7 of engine 11 in state `st`. -/
def hostT (st : Nat) : State := wth (up .x 4) [(F.CE_THR_STAT.STATE 11 7, st)]

theorem wit_HostControlOfThreads_release :
    (hostT 3).Reaches (O.CE_THR_CTL 11 7) (O.CE_THR_CTL 11 7) ∧ (hostT 3).thrStopped 11 7 = true ∧ (hostT 3).sliceOk 11 7 = true ∧
    (run (.threadRelease 0 11 7 1 false) (hostT 3)).thrState 11 7 = 1 ∧
    (wth (hostT 3) [(F.CE_THR_SLICE.SIZE_M1 11 7, 32)]).sliceOk 11 7 = false ∧ (hostT 2).thrStopped 11 7 = false ∧
    (run (.threadRelease 0 11 7 2 false) (hostT 2)).flag (F.CE_THR_STAT.COLLIDE 11 7) = true ∧
    (run (.threadRelease 0 11 7 0 true) (hostT 2)).thrState 11 7 = 3 ∧
    (run (.threadHalt 0 11 7 0) (hostT 2)).thrState 11 7 = 3 := by decide +kernel

theorem wit_HostControlOfThreads_run :
    (up .x 6).Reaches (O.CE_CTL 11) (O.CE_CTL 11) ∧ (up .x 6).hmode ((up .x 6).cfg.halfOfEngine 11) = 6 ∧
    (run (.runSet 0 11 1 0) (up .x 6)).slv = some ⟨true, 0⟩ ∧ (up .x 5).hmode ((up .x 5).cfg.halfOfEngine 11) = 5 ∧
    (wth (up .x 5) [(F.CE_CTL.RUN 11, 1)]).flag (F.CE_CTL.RUN 11) = true ∧ (up .x 5).sliceOk 11 0 = true ∧
    (up .x 5).thrStopped 11 0 = true ∧ (up .x 5).flag (F.CE_CTL.RUN 11) = false ∧ (up .x 5).flag (F.CE_CTL.COMPAT 11) = false := by
  decide +kernel

/-- In the compatible mode RUN releases every thread at its own start; a halt meets that of thread 7. -/
theorem wit_HostControlOfThreads_compat :
    ((List.range 8).all fun n => (up .x 5).thrState 11 n == 0) = true ∧ bitOf (5 : Word) 2 = true ∧
    (run (.runSet 0 11 5 128) (up .x 5)).thrState 11 6 = 1 ∧ (run (.runSet 0 11 5 128) (up .x 5)).pcOf 11 6 = 0x600 ∧
    (run (.runSet 0 11 5 128) (up .x 5)).thrState 11 7 = 0 ∧
    (run (.runSet 0 11 5 128) (up .x 5)).flag (F.CE_THR_STAT.COLLIDE 11 7) = true := by decide +kernel

/-! ### Parse graph and classifier -/

/-- A current course 2 at position 3, graph slot 1, with default action `act`. -/
def courseA (act : Nat) : Course := ⟨2, 3, 1, act, 0, 0, false⟩

/-- A frame of 64 bytes from port 7, with EtherType 0x0800. -/
def ipFrame (q : Parse) (done : Bool) : Frame :=
  { bytes := List.replicate 6 0xFF ++ [2, 0, 0, 0, 0, 9] ++ [8, 0] ++ List.replicate 50 0, done := done, src := .port 7, half := 1, course := 2, parse := q }

/-- Half B's pipeline: frame 1 is offered, in flight, or has its result. -/
def pipeS (p : Pipe) (q : Parse) (done : Bool) (act : Nat) : State :=
  { wth (up .x 4) [(F.PRS_SLOT_STAT.NODES 1 1, 3)] with
    pipes := [(1, p)], frames := [(1, ipFrame q done)]
    graph := [(15360, 0x1E000C01), (15361, 0xFFFF), (15362, 0x0E000000), (15368, 0x0800), (15369, 0x80000002),
              (15440, 0x80000000), (15443, 0x42000000)]
    cls := { courses := [courseA act] } }

/-- A parse in the pipeline, at `node`. -/
def inFlightP (node : Nat) : Parse := { stage := 1, slot := 1, node := node, key := List.replicate 64 0 }

theorem wit_ParsePipeline_entry :
    (pipeS { offered := [1] } {} true 0).nextEntry 1 = some 1 ∧ (pipeS { offered := [1] } {} true 0).curCourseOf 1 = some (courseA 0) ∧
    ((pipeS { offered := [1] } {} true 0).pipe 1).flight.length < 16 ∧
    ((run (.parseEntry 1) (pipeS { offered := [1] } {} true 0)).frame 1).parse.slot = 1 := by decide +kernel

theorem wit_ParsePipeline_step :
    ((pipeS { flight := [1] } (inFlightP 0) true 0).pipe 1).flight[0]? = some 1 ∧
    (readNode fun k => (pipeS { flight := [1] } (inFlightP 0) true 0).nodeWord 1 1 0 k).term = false ∧
    (readNode fun k => (pipeS { flight := [1] } (inFlightP 0) true 0).nodeWord 1 1 0 k).reads 0 = [12, 13] ∧
    (ipFrame (inFlightP 0) true).known 13 = true ∧
    ((run (.parseStep 1 0) (pipeS { flight := [1] } (inFlightP 0) true 0)).frame 1).parse.node = 2 ∧
    ((run (.parseStep 1 0) (pipeS { flight := [1] } (inFlightP 0) true 0)).frame 1).parse.pos = 14 := by decide +kernel

theorem wit_ParsePipeline_end :
    (readNode fun k => (pipeS { flight := [1] } (inFlightP 2) true 0).nodeWord 1 1 2 k).term = true ∧
    (inFlightP 2).key.length = 64 ∧ (inFlightP 2).incomplete < 64 ∧
    (readNode fun k => (pipeS { flight := [1] } (inFlightP 2) true 0).nodeWord 1 1 2 k).reads 0 = [] ∧
    (ipFrame (inFlightP 2) true).headKnown = true ∧
    byteAt ((run (.parseStep 1 0) (pipeS { flight := [1] } (inFlightP 2) true 0)).frame 1).parse.key 0 = 0x42 := by decide +kernel

/-- The first byte of the EtherType would be byte 256. -/
def farS : State := pipeS { flight := [1] } { inFlightP 0 with pos := 244 } true 0

theorem wit_ParsePipeline_far :
    (farS.pipe 1).flight[0]? = some 1 ∧ 256 ∈ (readNode fun k => farS.nodeWord 1 1 0 k).reads 244 ∧
    ((run (.parseStep 1 0) farS).frame 1).parse.cls = 0xFF ∧ (run (.parseStep 1 0) farS).rd64 (O.PRS_CNT 1 3) = 1 := by decide +kernel

/-- The first 5 bytes of a frame, at a terminal node: the station match is not known yet. -/
def headS : State := (pipeS { flight := [1] } (inFlightP 2) true 0).setFrame 1 { ipFrame (inFlightP 2) false with bytes := List.replicate 5 0 }

theorem wit_ParsePipeline_waits :
    (headS.frame 1).dstKnown = false ∧ (headS.pipe 1).flight[0]? = some 1 ∧
    (readNode fun k => headS.nodeWord 1 1 2 k).term = true ∧ run (.parseStep 1 0) headS = headS := by decide +kernel

theorem wit_GraphLoads_refused :
    (up .x 5).Reaches O.PRS_LOAD_CTL O.PRS_LOAD_CTL ∧ bitOf (0x80010000 : Word) 31 = true ∧
    (wth (up .x 5) [(F.PRS_LOAD_CTL.BUSY, 1)]).flag F.PRS_LOAD_CTL.BUSY = true ∧
    (wth (up .x 5) [(F.PRS_SLOT_STAT.IN_USE 0 1, 1)]).flag (F.PRS_SLOT_STAT.IN_USE (wth (up .x 5) [(F.PRS_SLOT_STAT.IN_USE 0 1, 1)]).leader 1) = true ∧
    (run (.graphLoad 0 0x80010000) (wth (up .x 5) [(F.PRS_SLOT_STAT.IN_USE 0 1, 1)])).fget F.PRS_LOAD_CTL.RESULT = 3 ∧
    (run (.graphLoad 0 0x80010000) (wth (up .x 5) [(F.PRS_LOAD_CTL.BUSY, 1)])).fget F.PRS_LOAD_CTL.RESULT = 2 := by decide +kernel

theorem wit_GraphLoads_modes :
    (run (.graphLoad 0 0x80000000) (up .x 6)).fget F.PRS_LOAD_CTL.RESULT = 4 ∧ (wth (up .x 5) [(F.BLK_HALF.LINK_UP, 0)]).halvesApart = true ∧
    (run (.graphLoad 0 0x80000000) (wth (up .x 5) [(F.BLK_HALF.LINK_UP, 0)])).fget F.PRS_LOAD_CTL.RESULT = 5 ∧ bitOf (0x00010000 : Word) 31 = false ∧
    (run (.graphLoad 0 0x00010000) (up .x 5)).gload = none := by decide +kernel

theorem wit_GraphLoads_taken :
    (up .s 2).flag F.PRS_LOAD_CTL.BUSY = false ∧ (up .s 2).flag (F.PRS_SLOT_STAT.IN_USE (up .s 2).leader 0) = false ∧
    (up .s 2).mode = 2 ∧ (up .s 2).halvesApart = false ∧ (run (.graphLoad 0 0x80000000) (up .s 2)).out = [.read .graph 0 32] ∧
    (run (.graphLoad 0 0x80000000) (up .s 2)).gload = some ⟨0, 0⟩ := by decide +kernel

/-- The image of a graph of one terminal node of class 0x42, for both configurations. -/
def graphImage : List Byte :=
  let node : List Byte := natLe 4 0x80000000 ++ natLe 4 0 ++ natLe 4 0 ++ natLe 4 0x42000000 ++ List.replicate 144 0
  natLe 4 0x47505247 ++ natLe 4 0x03010001 ++ natLe 4 7 ++ natLe 4 (crc32c node) ++ List.replicate 16 0 ++ node

theorem wit_GraphLoads_image :
    loadResult .s 0 graphImage false = 1 ∧ imageWord graphImage 0 3 = 0x42000000 ∧ loadResult .s 0 (graphImage.set 40 1) false = 7 ∧
    loadResult .s (2 ^ 44 - 31) graphImage false = 10 ∧
    (run (.graphLoadDone graphImage false) { up .s 2 with gload := some ⟨1, 0⟩ }).nodeWord 0 1 0 3 = 0x42000000 := by decide +kernel

theorem wit_GraphLoads_debug :
    (up .x 4).Reaches (O.PRS_TRACE_CTL 1) (O.PRS_TRACE_CTL 1) ∧
    (run (.traceArm 0 1 0x80000009) (up .x 4)).fget (F.PRS_TRACE_CTL.SRC 1) = 9 ∧
    (pipeS {} {} true 0).Reaches (O.PRS_NODE_DATA 1) (O.PRS_NODE_DATA 1) ∧ (pipeS {} {} true 0).mode = 4 ∧
    (run (.prsNodeDataRead 0 1) (wth (pipeS {} {} true 0) [(F.PRS_NODE_ADDR.SLOT 1, 1), (F.PRS_NODE_ADDR.NODE 1, 2),
      (F.PRS_NODE_ADDR.WORD 1, 3), (F.PRS_NODE_ADDR.AUTOINC 1, 1)])).slv = some ⟨false, 0x42000000⟩ := by decide +kernel

/-- Frame 1, still arriving, has its result; the default action sends it to port 5, or learns its source. -/
def classS (act : Nat) : State :=
  wth (pipeS { results := [1] } { stage := 2, slot := 1, key := List.replicate 64 0 } false act) [(F.MAC_CTL.EN_TX 5, 1),
    (F.CLS_EGR_LIM.LIM 5, 4), (F.CLS_CTL.LEARN_EN, 1), (F.CLS_EM_CFG.LOG2, 10)]

theorem wit_Classification_ports :
    ((classS 0x2000000000000020).pipe 1).results = 1 :: [] ∧ (classS 0x2000000000000020).tcamFind 3 0 = none ∧
    (readAct 0x2000000000000020).kind = 1 ∧ (readAct 0x2000000000000020).target % 1024 = 2 ^ 5 ∧
    (readAct 0x2000000000000020).mirror = false ∧ (classS 0).rtagOf (readAct 0x2000000000000020) = 0 ∧ (classS 0).isMac 5 = true ∧
    (classS 0).reaches 1 ((classS 0).cfg.halfOfAnyPort 5) = true ∧ (classS 0).flag (F.MAC_CTL.EN_TX 5) = true ∧
    ((classS 0).port 5).clkLost = false ∧ (classS 0).queued 5 0 ≤ 256 * (classS 0).fget (F.CLS_EGR_LIM.LIM 5) := by decide +kernel

/-- The same frame before its header is whole: classification waits. -/
def classHeadS : State :=
  (classS 0).setFrame 1 { ipFrame { stage := 2, slot := 1, key := List.replicate 64 0 } false with bytes := List.replicate 15 0 }

theorem wit_Classification_header :
    ((classS 0).frame 1).headKnown = true ∧ (classHeadS.frame 1).headKnown = false ∧
    (classHeadS.pipe 1).results = 1 :: [] ∧ run (.classify 1 false) classHeadS = classHeadS := by decide +kernel

theorem wit_Classification_late :
    ((classS 0).frame 1).headKnown = true ∧ 22 ≤ ((classS 0).frame 1).bytes.length ∧ (classS 0).leader = 0 ∧
    (run (.classify 1 true) (classS 0)).rd64 (O.CLS_CNT 1 0) = 1 := by decide +kernel

/-- R232: a copy whose tag is taken away is judged by its own length, at most MAX_LEN and at least 64 bytes. -/
theorem test_copy_length :
    (up .x 4).lenTaken 5 (ipFrame {} true) 0 = true ∧ (up .x 4).lenTaken 5 (ipFrame {} true) (-4) = false ∧
    (up .x 4).lenTaken 5 { ipFrame {} true with bytes := List.replicate 1522 0 } 0 = true ∧
    (up .x 4).lenTaken 5 { ipFrame {} true with bytes := List.replicate 1522 0 } 4 = false := by decide +kernel

theorem wit_Classification_learn :
    natBits 0x0800000000000000 60 1 = 0 ∧ (readAct 0x0800000000000000).learn = true ∧ (classS 0).flag F.CLS_CTL.LEARN_EN = true ∧
    (classS 0).fget F.CLS_EM_CFG.LOG2 ≠ 0 ∧ ((classS 0).frame 1).fcsErr = false ∧ ((classS 0).frame 1).ingress = some (7, 0) ∧
    unicast (slice ((classS 0).frame 1).bytes 6 6) = true := by decide +kernel

/-- An open stage; ternary entry 4095 is live in position 0 and entry 7 is not. -/
def stageS : State :=
  { wth (up .x 5) [(F.CLS_COURSE_STAT.STAGE_OPEN, 1), (F.CLS_TCAM_IDX.IDX, 7), (⟨O.CLS_TCAM_ACT, 0, 32⟩, 5)] with
    cls := { tcam := [(4095, { vis := 1, act := 9 })] } }
def stageL : State := wth stageS [(F.CLS_TCAM_IDX.IDX, 4095)]

theorem wit_StageAndTernaryEntries_stage :
    (up .x 5).Reaches O.CLS_STAGE_CTL O.CLS_STAGE_CTL ∧ (up .x 5).tablesMode = true ∧ (up .x 6).tablesMode = false ∧
    (run (.stageOpen 0) (up .x 5)).cls.opening = some 1 ∧ (run (.stageOpenEmpty 0) (up .x 5)).cls.opening = some 2 ∧
    (run (.stageAbandon 0) stageS).stageOpen = false ∧ (run (.stageOpen 0) (up .x 6)).slv = some ⟨true, 0⟩ := by decide +kernel

theorem wit_StageAndTernaryEntries_open :
    ({ stageS with cls := { stageS.cls with opening := some 1, courses := [{ courseA 6 with pos := 0 }] } } : State).curCourse =
      some { courseA 6 with pos := 0 } ∧
    ((run .stageOpenDone { stageS with cls := { stageS.cls with opening := some 1, courses := [{ courseA 6 with pos := 0 }] } }).tcamAt
      4095).stage = true := by decide +kernel

theorem wit_StageAndTernaryEntries_ternary :
    stageS.Reaches O.CLS_TCAM_CMD O.CLS_TCAM_CMD ∧ stageS.cls.opening = none ∧ stageS.tablesMode = true ∧ stageS.stageOpen = true ∧
    stageS.fget F.CLS_TCAM_IDX.IDX = 7 ∧ 7 < stageS.cfg.tcam ∧ (stageS.tcamAt 7).vis = 0 ∧ (stageL.tcamAt 4095).vis ≠ 0 ∧
    stageL.fget F.CLS_TCAM_IDX.IDX = 4095 ∧ ((run (.tcamWrite 0) stageS).tcamAt 7).act = 5 ∧
    (run (.tcamWrite 0) stageL).fget F.CLS_TCAM_CMD.RESULT = 2 ∧ ((run (.tcamAdd 0) stageL).tcamAt 4095).stage = true ∧
    ((run (.tcamDel 0) (run (.tcamAdd 0) stageL)).tcamAt 4095).stage = false := by decide +kernel

theorem wit_StageAndTernaryEntries_closed :
    (wth stageL [(F.CLS_COURSE_STAT.STAGE_OPEN, 0)]).stageOpen = false ∧
    (run (.tcamAdd 0) (wth stageL [(F.CLS_COURSE_STAT.STAGE_OPEN, 0)])).fget F.CLS_TCAM_CMD.RESULT = 3 ∧
    ({ stageS with cls := { opening := some 2 } } : State).cls.opening.isSome = true ∧
    (run (.tcamRead 0) { stageS with cls := { opening := some 2 } }).cls.waiting = [(0, 4)] := by decide +kernel

/-- A commit that may be accepted: course 15 is current, its successor is 0; slot 1 holds a graph of the stage's layout. -/
def commitS : State :=
  { wth (up .s 5) [(F.CLS_COURSE_STAT.STAGE_OPEN, 1), (F.CLS_COURSE_STAT.CUR, 15), (F.PRS_SLOT_STAT.VALID 0 1, 1), (F.PRS_CTL.NEXT_SLOT, 1)] with
    cls := { courses := [⟨15, 0, 0, 0, 0, 0, false⟩], tcam := [(3, { stage := true })] } }

theorem wit_StageAndTernaryEntries_refused :
    (up .x 6).tablesMode = false ∧ (run (.tcamDel 0) (up .x 6)).fget F.CLS_TCAM_CMD.RESULT = 5 ∧
    (wth { stageS with cfg := .s } [(F.CLS_TCAM_IDX.IDX, 4095)]).cfg.tcam ≤ 4095 ∧
    (run (.tcamWrite 0) (wth { stageS with cfg := .s } [(F.CLS_TCAM_IDX.IDX, 4095)])).fget F.CLS_TCAM_CMD.RESULT = 4 := by
  decide +kernel

theorem wit_Commits_accepted :
    commitS.Reaches O.CLS_COMMIT O.CLS_COMMIT ∧ commitS.cls.opening = none ∧ commitS.commitRefusal = none ∧ commitS.freePos = some 1 ∧
    (run (.commitRequest 0 0) commitS).cls.tcam = [(3, { vis := 2 })] := by decide +kernel

theorem wit_Commits_refused :
    (up .s 5).commitRefusal = some 3 ∧ (run (.commitRequest 0 0) (up .s 5)).fget F.CLS_COMMIT.RESULT = 3 := by decide +kernel

/-- The commit is prepared. -/
def prepS : State := { commitS with cls := { commitS.cls with prep := some ⟨⟨0, 1, 1, 0, 0, 0, false⟩, [0]⟩ } }

/-- The halves are connected; a follower that misses the switch message stays at course 15. -/
def prepX : State :=
  { prepS with cfg := .x, halves := [(0, { half := { up := true }, spine := { up := true } }), (1, { half := { up := true }, spine := { up := true } })] }

theorem wit_Commits_complete :
    prepS.cls.prep = some ⟨⟨0, 1, 1, 0, 0, 0, false⟩, [0]⟩ ∧ prepS.canPrepare = true ∧
    ({ prepX with rst := { b := true } } : State).canPrepare = false ∧
    (run (.commitComplete false) prepS).fget F.CLS_COURSE_STAT.CUR = 0 ∧
    ((run (.commitComplete false) prepS).cls.courses.map fun c => (c.num, c.draining)) = [(15, true), (0, false)] := by decide +kernel

theorem wit_Commits_retire :
    ({ commitS with cls := { courses := [⟨15, 0, 0, 0, 0, 0, true⟩] } } : State).inFlight 15 = false ∧
    (run (.courseRetire 15) { commitS with cls := { courses := [⟨15, 0, 0, 0, 0, 0, true⟩] } }).cls.courses = [] := by decide +kernel

theorem wit_Commits_missed :
    prepX.canPrepare = true ∧ ((run (.commitComplete true) prepX).half 1).cur = some 15 ∧
    ({ commitS with cls := { commitS.cls with opening := some 1 } } : State).cls.opening.isSome = true ∧
    (run (.commitRequest 0 0) { commitS with cls := { commitS.cls with opening := some 1 } }).cls.waiting.length = 1 ∧
    ({ commitS with pipes := [(0, { flight := [1] })], frames := [(1, ipFrame {} true)] } : State).inFlight 2 = true := by decide +kernel

/-- An exact-match table of 1,024 entries in Gweip-S with `l`, and command `c`. -/
def emS (l : List EmEnt) (c : Option EmCmd) : State :=
  { wth (up .s 5) [(F.CLS_EM_CFG.LOG2, 10)] with ems := [(0, l)], cls := { cmd := c } }
/-- A static forwarding entry for key 7. -/
def emE : EmEnt := { typ := 1, key := [7], act := 5 }

theorem wit_ExactMatchTable_command :
    (emS [] none).Reaches O.CLS_EM_CMD O.CLS_EM_CMD ∧ (emS [] none).flag F.CLS_EM_CMD.BUSY = false ∧ (emS [] none).tablesMode = true ∧
    (emS [] none).fget F.CLS_EM_CFG.LOG2 ≠ 0 ∧ (up .s 5).fget F.CLS_EM_CFG.LOG2 = 0 ∧ (up .s 6).tablesMode = false ∧
    (run (.emInsertFwd 0 0) (emS [] none)).cls.cmd.map (fun c => (c.op, c.typ)) = some (2, 1) ∧
    (run (.emRead 0 0x10) (emS [] none)).cls.cmd.map (fun c => (c.op, c.typ)) = some (4, 1) ∧
    (run (.emDelete 0 0) (up .s 5)).fget F.CLS_EM_CMD.RESULT = 6 ∧ (run (.emInsertFlow 0 0) (up .s 6)).fget F.CLS_EM_CMD.RESULT = 5 := by
  decide +kernel

theorem wit_ExactMatchTable_done :
    (emS [] (some ⟨2, 1, [7], 5⟩)).cls.cmd = some ⟨2, 1, [7], 5⟩ ∧ (emS [] none).leader < (emS [] none).cfg.halves ∧
    ((emS [] none).em 0).length < (emS [] none).emSize ∧
    (run (.emCommandDone false) (emS [] (some ⟨2, 1, [7], 5⟩))).em 0 = [emE] ∧
    (run (.emCommandDone true) (emS [] (some ⟨2, 1, [7], 5⟩))).fget F.CLS_EM_CMD.RESULT = 4 ∧
    (run (.emCommandDone false) (emS [] (some ⟨3, 1, [7], 5⟩))).fget F.CLS_EM_CMD.RESULT = 3 ∧
    (((emS [emE] none).em 0).find? fun e => e.answers 1 [7]) = some emE ∧ (emS [emE] none).flushed emE = false ∧
    (run (.emCommandDone false) (emS [emE] (some ⟨3, 1, [7], 0⟩))).em 0 = [] ∧
    (run (.emCommandDone false) (emS [emE] (some ⟨4, 1, [7], 0⟩))).rd64 O.CLS_EM_ACT = 5 := by decide +kernel

/-- The table of `emS` in granule 5, whose region master 13 may not read. -/
def emDenied : State :=
  let s := emS [emE] (some ⟨4, 1, [7], 0⟩)
  { s with mem := { s.mem with grans := [(5, { state := 1, em := true })] } }.wr (O.MEM_RGN_RD 13 0) 0

theorem wit_ExactMatchTable_more :
    (wth (emS [] none) [(F.CLS_EM_CMD.BUSY, 1)]).flag F.CLS_EM_CMD.BUSY = true ∧
    (run (.emRead 0 0) (wth (emS [] none) [(F.CLS_EM_CMD.BUSY, 1)])).cls.cmd = none ∧ (emS [] none).emAddr 0 [7] = none ∧
    (run (.emCommandDone true) (emS [emE] (some ⟨2, 1, [7], 6⟩))).fget F.CLS_EM_CMD.RESULT = 2 ∧
    (run (.emCommandDone true) (emS [{ emE with typ := 2 }] (some ⟨2, 1, [7], 6⟩))).em 0 = [{ emE with act := 6 }] ∧
    emDenied.mayRead 13 5 = false := by decide +kernel

theorem wit_ExactMatchTable_denied : ∃ a, emDenied.emAddr 0 [7] = some a ∧ a / 4096 = 5 := by
  refine ⟨4096 * 5 + 32 * (Config.emSlot 0 [7] % 128), ?_, by omega⟩
  have h : ((emDenied.mem.grans.filter fun e => e.2.em && emDenied.cfg.halfOfBank (e.1 / 64) == 0).map (·.1)) = [5] := by
    decide +kernel
  simp only [State.emAddr, h, List.length_singleton, Nat.mul_one, Nat.mod_mod]
  rw [Nat.div_eq_of_lt (Nat.mod_lt _ (by decide))]
  rfl

theorem wit_ExactMatchTable_size :
    (up .s 2).Reaches O.CLS_EM_CFG O.CLS_EM_CFG ∧ (up .s 2).cfg.emLog2 = 14 ∧ getBits (15 : Word) 0 5 = 15 ∧
    (run (.emCfgWrite 0 15) (up .s 2)).slv = some ⟨true, 0⟩ ∧ (run (.emCfgWrite 0 9) (up .s 2)).slv = some ⟨true, 0⟩ ∧
    (emS [emE] none).fget F.CLS_EM_CFG.LOG2 ≠ 0 ∧ (run (.emCfgWrite 0 0) (wth (emS [emE] none) [(F.BLK_MODE.MODE, 2)])).ems = [] := by
  decide +kernel

/-- A learning change for key 9 from port 3. -/
def learnS : State := { emS [] none with cls := { learns := [⟨0, [9], 3, 0⟩] } }

theorem wit_LearningAndAging_learn :
    learnS.cls.learns = ⟨0, [9], 3, 0⟩ :: [] ∧ learnS.emAddr (learnS.emKeeper 0) [9] = none ∧ learnS.leader < learnS.cfg.halves ∧
    ((learnS.em (learnS.emKeeper 0)).find? fun y => y.answers 1 [9]) = none ∧
    (learnS.em (learnS.emKeeper 0)).length < learnS.emSize ∧
    ((run (.learnUpdate false) learnS).em 0).map (·.port) = [3] ∧
    (run (.learnUpdate true) learnS).rd64 (O.CLS_CNT 0 11) = 1 := by decide +kernel

/-- A learned entry. -/
def emL (hit dying : Bool) : EmEnt := { typ := 2, key := [9], port := 3, hit := hit, dying := dying }

theorem wit_LearningAndAging_age :
    ((emS [emE, emL true false] none).em 0)[1]? = some (emL true false) ∧ (emS [emE, emL true false] none).ages 0 = true ∧
    (emS [emE, emL true false] none).emReach 0 = [0] ∧ ((emS [emE, emL true false] none).emMayWrite 0 [9]).1 = true ∧
    (wth (emS [emE, emL true false] none) [(F.CLS_AGE.EN, 1)]).flag F.CLS_AGE.EN = true ∧
    ((run (.agerVisit 0 1) (wth (emS [emE, emL true false] none) [(F.CLS_AGE.EN, 1)])).em 0)[1]? = some (emL false false) ∧
    ((run (.agerVisit 0 1) (wth (emS [emE, emL false false] none) [(F.CLS_AGE.EN, 1)])).em 0)[1]? = some (emL false true) ∧
    (run (.ageRemoval 0 1) (emS [emE, emL false true] none)).em 0 = [emE] := by decide +kernel

theorem wit_LearningAndAging_flush :
    (emS [] none).Reaches O.CLS_FLUSH O.CLS_FLUSH ∧ KMap.find? (emS [] none).cls.flushed (getBits (0x40000000 : Word) 30 1) = none ∧
    (run (.flushRequest 0 0x40000000) (emS [] none)).fget F.CLS_FLUSH.GEN_A = 1 ∧
    (run (.flushRequest 0 0) (emS [] none)).fget F.CLS_FLUSH.GEN_T = 1 ∧
    (wth (emS [emE, emL false false] none) [(F.CLS_FLUSH.SWEEP, 1), (F.CLS_FLUSH.GEN_A, 1)]).flag F.CLS_FLUSH.SWEEP = true ∧
    (run .flushSweepDone (wth (emS [emE, emL false false] none) [(F.CLS_FLUSH.SWEEP, 1), (F.CLS_FLUSH.GEN_A, 1)])).em 0 = [emE] ∧
    (run (.flushRequest 0 0) { emS [] none with cls := { flushed := [(0, 5)] }, ticks := 44 }).fget F.CLS_FLUSH.GEN_T = 0 ∧
    (wth (up .s 4) [(F.CLS_SR.RESET_MS 63, 1)]).fget (F.CLS_SR.RESET_MS 63) ≠ 0 := by decide +kernel

/-- R190: before the first commit a frame counts in NO_COURSE in every mode, here BRINGUP. -/
theorem test_no_course :
    (((up .s 1).setFrame 1 { ipFrame {} true with half := 0 }).offer 1).rd (O.PRS_CNT 0 6) = 1 ∧
    (((classS 0).setFrame 2 (ipFrame {} true)).offer 2).rd (O.PRS_CNT 1 6) = 0 := by decide +kernel

/-- R113: a trunk frame kept with FCS_ERR is not sent on a port, nor counted there. -/
theorem test_bad_frame_not_queued :
    let s := (classS 0x2000000000000020).setFrame 1 { ipFrame { stage := 2, slot := 1, key := List.replicate 64 0 } true with bad := true }
    ((run (.classify 1 false) s).port 5).egress = [] ∧ (run (.classify 1 false) s).rd (O.CLS_UC_DROP 5) = 0 := by decide +kernel

/-- Queue pair 5 of function 0, as `p` says. -/
def qpS (p : Qp) : State := { up .x 4 with qps := [(5, p)] }
/-- An enabled queue pair with rings of 16 entries. -/
def qp16 : Qp := { en := true, txL := 4, rxL := 4, cqL := 4, txBase := 0x10000, rxBase := 0x20000, cqBase := 0x30000 }

theorem wit_Doorbells_tx :
    (qpS qp16).Owns 0 5 ∧ getBits (0x08000001 : Word) 0 16 = 1 ∧ getBits (0x08000001 : Word) 27 3 = 1 ∧
    idxDiff 1 (qp16.txHead) ≤ 2 ^ qp16.txL ∧ 1 ≤ idxDiff 1 qp16.txTail ∧
    ((run (.doorbellTx 0 5 0x08000001) (qpS qp16)).qp 5).txTail = 1 ∧
    ((run (.doorbellTx 0 5 0x08000001) (qpS qp16)).qp 5).pushed ≠ [] ∧
    ((run (.doorbellRx 0 5 0x08000001) (qpS qp16)).qp 5).rxTail = 1 := by decide +kernel

/-- Its rings at the top of the index: tail 65535, one completion not yet taken. -/
def qpTop : Qp := { qp16 with txTail := 65535, txHead := 65530, cqTail := 0, cqHead := 65535 }

theorem wit_Doorbells_wrap :
    (qpS qpTop).Owns 0 5 ∧ idxDiff 10 qpTop.txHead = 16 ∧ idxDiff 11 qpTop.txHead = 17 ∧ idxDiff 0 qpTop.cqHead = 1 ∧
    ((run (.doorbellTx 0 5 10) (qpS qpTop)).qp 5).txTail = 10 ∧ ((run (.doorbellTx 0 5 11) (qpS qpTop)).qp 5).txTail = 65535 ∧
    ((run (.doorbellCq 0 5 0) (qpS qpTop)).qp 5).cqHead = 0 := by decide +kernel

theorem wit_Doorbells_ignored :
    (qpS qp16).Owns 0 5 ∧ 2 ^ qp16.txL < idxDiff 17 qp16.txHead ∧
    ((run (.doorbellTx 0 5 17) (qpS qp16)).qp 5).dbErr = true ∧ ((run (.doorbellTx 0 5 17) (qpS qp16)).qp 5).txTail = 0 ∧
    ((run (.doorbellRx 0 5 0x28000005) (qpS qp16)).qp 5).dbErr = true ∧ ((run (.doorbellCq 0 5 1) (qpS qp16)).qp 5).dbErr = true ∧
    (run (.doorbellCq 0 5 1) (qpS qp16)).fget F.Q_ERR_LOG.QP = 5 ∧
    KMap.get 0 ((run (.pushSlotWrite 0 5 3 7 9) (qpS qp16)).qp 5).slots 31 = 9 := by decide +kernel

theorem wit_Doorbells_other :
    (qpS qp16).domOn 1 = true ∧ (qpS qp16).rst.blk = false ∧ ((qpS qp16).qp 5).owner ≠ 7 ∧ 5 < (qpS qp16).cfg.queuePairs ∧
    (run (.doorbellTx 7 5 1) (qpS qp16)).slv = some ⟨true, 0⟩ ∧ (run (.doorbellTx 7 5 1) (qpS qp16)).qps = [(5, qp16)] := by
  decide +kernel

/-- A transmit descriptor: `len` bytes at `addr`, action `act`. -/
def txD (addr len act : Nat) : List Byte := natLe 8 addr ++ natLe 4 len ++ natLe 4 0 ++ natLe 8 act ++ natLe 8 0
/-- One descriptor is posted. -/
def qpTx : Qp := { qp16 with txTail := 1, ports := 3 }

theorem wit_Descriptors_check :
    (qpS qpTx).fetchReady 5 = true ∧ (qpS qpTx).outranked 5 (fun k => (qpS qpTx).fetchReady k && !((qpS qpTx).qp k).waits) = false ∧
    (run (.descriptorFetch 5 [] true [] false) (qpS qpTx)).fget F.Q_ERR_LOG.CAUSE = 2 ∧
    ((qpS qpTx).txCheck 5 (readTxDesc (txD 0x100 0 0)) false) = 1 ∧ ((qpS qpTx).txCheck 5 (readTxDesc (txD 0x100 16384 0)) false) = 2 ∧
    ((qpS qpTx).txCheck 5 (readTxDesc (txD (2 ^ 44) 64 0)) false) = 3 ∧ ((qpS qpTx).txCheck 5 (readTxDesc (txD 0x100 64 0)) true) = 4 ∧
    (readAct (readTxDesc (txD 0x100 0 0)).act).toPorts = false ∧
    ((run (.descriptorFetch 5 (txD 0x100 0 0) false [] false) (qpS qpTx)).qp 5).due.map Cqe.w0 = [0x11000000] := by decide +kernel

/-- A whole frame of 60 bytes from the host, held. -/
def frm60 : Frame := { bytes := List.replicate 60 0, done := true, src := .host 6 }
/-- A delivery of frame 1 waits, one receive descriptor of `len` bytes posted. -/
def rxS (n : Nat) : State :=
  { qpS { qp16 with rxTail := n, rxs := [{ fid := 1, src := 0x10, word3 := 0, hash := 0 }] } with frames := [(1, frm60)], nextFrame := 2 }
/-- Its descriptor: address, length. -/
def rxD (addr len : Nat) : List Byte := natLe 8 addr ++ natLe 4 len ++ List.replicate 20 0

theorem wit_Descriptors_place :
    (qpS qpTx).txCheck 5 (readTxDesc (txD 0x100 64 0)) false = 0 ∧
    ((qpS qpTx).place 0 5 ((qpS qpTx).ownerBanks 0 5 0) 64 matches .placed _ _) ∧
    ((run (.descriptorFetch 5 (txD 0x100 64 0) false [] false) (qpS qpTx)).qp 5).txHead = 1 ∧
    (run (.descriptorFetch 5 (txD 0x100 64 0) false [] false) (qpS qpTx)).nextFrame = (qpS qpTx).nextFrame + 1 := by decide +kernel

/-- In CONFIG a frame for a port is put off. -/
theorem wit_Descriptors_later :
    (readAct (readTxDesc (txD 0x100 64 (2 ^ 61 + 1))).act).toPorts = true ∧ (wth (qpS qpTx) [(F.BLK_MODE.MODE, 2)]).mode = 2 ∧
    (wth (qpS qpTx) [(F.BLK_MODE.MODE, 2)]).fetchReady 5 = true ∧
    ((run (.descriptorFetch 5 (txD 0x100 64 (2 ^ 61 + 1)) false [] false) (wth (qpS qpTx) [(F.BLK_MODE.MODE, 2)])).qp 5).waits = true := by
  decide +kernel

theorem wit_Descriptors_delivery :
    (rxS 1).rxReady 5 = true ∧ (rxS 1).outranked 5 (fun k => (rxS 1).rxReady k) = false ∧ ((rxS 1).qp 5).cur = none ∧
    ((rxS 1).qp 5).rxs.find? (fun x => ((rxS 1).frame x.fid).done) = some { fid := 1, src := 0x10, word3 := 0, hash := 0 } ∧
    (rxS 1).inMove frm60.parts = false ∧ ((rxS 1).frame 1).parts = [] ∧
    (((rxS 1).qp 5).rxDescs (rxD 0x100 60) 0).map (fun d => (d.bad true, d.room true)) = [(0, 60)] ∧
    (((rxS 1).qp 5).rxDescs (rxD 0x100 59) 0).map (fun d => (d.bad true, d.room true)) = [(0, 59)] ∧
    ((run (.rxDelivery 5 (rxD 0x100 60) 0 0) (rxS 1)).qp 5).rxHead = 1 ∧
    ((run (.rxDelivery 5 (rxD 0x100 59) 0 0) (rxS 1)).qp 5).drops = 1 ∧
    ((run (.rxDelivery 5 (rxD 0x100 60) 1 0) (rxS 1)).qp 5).due.map Cqe.w0 = [2 ^ 29 + 2 ^ 26 + 0x10 * 2 ^ 16] ∧
    ((run (.rxDelivery 5 [] 0 0) (rxS 0)).qp 5).drops = 1 := by decide +kernel

/-- The fetch of the first of two descriptors meets an error; a delivery begun before goes on. -/
theorem wit_Descriptors_deliveryGoesOn :
    rxRoom (((rxS 2).qp 5).rxDescs (rxD 0x100 60 ++ rxD 0x200 60) 1) true 60 = true ∧
    ((((rxS 2).qp 5).rxDescs (rxD 0x100 60 ++ rxD 0x200 60) 1).map RxDesc.err) = [true, false] ∧
    (run (.rxDelivery 5 (rxD 0x100 60 ++ rxD 0x200 60) 0 1) (rxS 2)).fget F.Q_ERR_LOG.CAUSE = 2 ∧
    ({ rxS 1 with qps := [(5, { qp16 with rxTail := 1, cur := some { w := { fid := 1, src := 0x10, word3 := 0, hash := 0 }, rest := [7], nth := 1 } })] } : State).rxReady 5 =
      true ∧
    ((run (.rxDelivery 5 (rxD 0x100 60) 0 0) { rxS 1 with qps := [(5, { qp16 with rxTail := 1, cur := some { w := { fid := 1, src := 0x10, word3 := 0, hash := 0 }, rest := [7], nth := 1 } })] }).qp 5).cur =
      none := by decide +kernel

/-- A completion is due at index 17 of a ring of 16. -/
def cqS : State := qpS { qp16 with due := [⟨5, 6, 7, 8⟩], cqTail := 17, cqHead := 2, irqEn := true }

theorem wit_Descriptors_completion :
    (cqS.qp 5).due = ⟨5, 6, 7, 8⟩ :: [] ∧ cqS.cqReady 5 = true ∧ cqS.outranked 5 (fun k => cqS.cqReady k) = false ∧
    (run (.completionWrite 5 false) cqS).out = [.write (.queue 5) (0x30000 + 16) (words4 5 6 7 8)] ∧
    ((run (.completionWrite 5 false) (qpS { (cqS.qp 5) with cqTail := 15, cqHead := 0 })).out) =
      [.write (.queue 5) (0x30000 + 240) (words4 (5 + 2 ^ 31) 6 7 8)] ∧
    (Cqe.mk (2 ^ 28 + 3) 6 7 8).failed = [⟨2 ^ 28 + 2 ^ 26 + 3, 6, 7, 8⟩] ∧
    (run (.completionWrite 5 false) cqS).flag (pendFld (srcQp .x 5)) = true := by decide +kernel

/-- Queue pair 0 is function 0's admin queue with a command posted; queue pairs `l` besides. -/
def admS (l : KMap Qp) (fs : KMap Func) : State :=
  { up .x 4 with qps := (0, { qp16 with admin := true, txTail := 1 }) :: l, funcs := fs }
/-- The words of a command. -/
def admC (op tag : Nat) (l : List Nat) : List Byte :=
  ((List.range 8).map fun k => natLe 4 (if k = 0 then op * 2 ^ 24 + tag else l.getD (k - 1) 0)).flatten

theorem wit_AdminRefusals_opcode :
    (admS [] []).Takes 0 (admC 9 0x77 []) false 9 ∧ (admS [] []).Takes 0 (admC 0 0x77 []) false 0 ∧
    Answered (admS [] []) (run (.adminBadOpcode 0 (admC 9 0x77 []) false) (admS [] [])) 0 (admC 9 0x77 []) 1 := by decide +kernel

theorem wit_AdminRefusals_fetch :
    (admS [] []).admin.destroy = none ∧ (admS [] []).admNext = some 0 ∧ (admS [] []).admPushed 0 = false ∧
    ((run (.query 0 [] true) (admS [] [])).qp 0).due.map Cqe.w0 = [3 * 2 ^ 28 + 10 * 2 ^ 16] := by decide +kernel

/-- Function 3 is active, with admin queue 7 and a command posted. -/
def adm3 : State :=
  { admS [(7, { qp16 with admin := true, owner := 3, txTail := 1 })] [(3, { state := 1, admin := 7 })] with admin := { turn := 2 } }

theorem wit_AdminRefusals_function0 :
    adm3.Takes 3 (admC 3 5 [1]) false 3 ∧ adm3.mode ≠ 1 ∧
    Answered adm3 (run (.setQuota 3 (admC 3 5 [1]) false) adm3) 3 (admC 3 5 [1]) 2 := by decide +kernel

/-- The same in BRINGUP. -/
def admB : State := wth (admS [] []) [(F.BLK_MODE.MODE, 1), (F.BLK_HALF.MODE_A, 1), (F.BLK_HALF.MODE_B, 1)]

theorem wit_AdminRefusals_bringup :
    admB.Takes 0 (admC 4 5 []) false 4 ∧ admB.mode = 1 ∧
    Answered admB (run (.createQueue 0 (admC 4 5 []) false) admB) 0 (admC 4 5 []) 8 := by decide +kernel

/-- CREATE_FUNCTION of function 3 with rings of 16 entries at 0x1000 and 0x2000. -/
def crC : List Byte := admC 1 5 [3, 0x1000, 0, 0x2000, 0, 0x404]

theorem wit_Functions_create :
    (admS [] []).Takes 0 crC false 1 ∧ hostWord crC 1 % 256 = 3 ∧ ((admS [] []).func 3).state = 0 ∧
    ringErr (hostWord2 crC 2) 4 32 = none ∧ ringErr (hostWord2 crC 4) 4 16 = none ∧ (admS [] []).freeQp = some 1 ∧
    ((run (.createFunction 0 crC false 0) (admS [] [])).func 3).state = 1 ∧
    ((run (.createFunction 0 crC false 0) (admS [] [])).qp 1).owner = 3 ∧
    Answered (admS [] []) (run (.createFunction 0 crC false 3) (admS [] [])) 0 crC 4 := by decide +kernel

theorem wit_Functions_quota :
    ({ adm3 with admin := {turn := 255 } } : State).Takes 0 (admC 3 5 [3, 9, 10, 0x10F, 0x2010]) false 3 ∧
    ((run (.setQuota 0 (admC 3 5 [3, 9, 10, 0x10F, 0x2010]) false) { adm3 with admin := {turn := 255 } }).func 3).maxQp = 9 ∧
    ((run (.setQuota 0 (admC 3 5 [3, 9, 10, 0x10F, 0x2010]) false) { adm3 with admin := {turn := 255 } }).func 3).classLo = 0x10 := by
  decide +kernel

theorem wit_Functions_destroy :
    ({ adm3 with admin := {turn := 255 } } : State).Takes 0 (admC 2 5 [3]) false 2 ∧
    ((run (.destroyFunction 0 (admC 2 5 [3]) false) { adm3 with admin := {turn := 255 } }).func 3).state = 2 := by decide +kernel

theorem wit_Functions_admin0 :
    (up .x 1).Reaches O.Q_ADMIN0_CFG O.Q_ADMIN0_CFG ∧ (up .x 1).flag F.Q_ADMIN0_CFG.EN = false ∧
    ((run (.admin0Enable 0 0x80000044) (up .x 1)).qp 0).txL = 4 ∧ (run (.admin0Enable 0 0x80000044) (up .x 1)).flag F.Q_ADMIN0_CFG.EN = true ∧
    (run (.admin0Enable 0 0) (up .x 1)).flag F.Q_ADMIN0_CFG.EN = true ∧ addrOk ((up .x 1).rd64 O.Q_ADMIN0_SQ) (32 * 2 ^ 4) = true ∧
    addrOk (2 ^ 44 - 256) (32 * 2 ^ 4) = false ∧
    (run (.admin0Enable 0 0x80000044) (((up .x 1).wr O.Q_ADMIN0_SQ 0xFFFFFF00).wr (O.Q_ADMIN0_SQ + 4) 0xFFF)).flag F.Q_ADMIN0_CFG.EN = false ∧
    (wth (up .x 1) [(F.Q_ADMIN0_CFG.EN, 1)]).flag F.Q_ADMIN0_CFG.EN = true := by decide +kernel

/-- CREATE_QUEUE with transmit, receive and completion rings of 16 entries, no affinity. -/
def cqC (w : Nat) : List Byte := admC 4 5 [0x1000, 0, 0x2000, 0, 0x3000, 0, w]

theorem wit_QueuePairs_create :
    (admS [] []).Takes 0 (cqC 0x444) false 4 ∧ (admS [] []).mode ≠ 1 ∧ hostWord (cqC 0x444) 7 = 0x444 ∧
    ringErr (hostWord2 (cqC 0x444) 1) 4 32 = none ∧ ringErr (hostWord2 (cqC 0x444) 3) 4 32 = none ∧
    ringErr (hostWord2 (cqC 0x444) 5) 4 16 = none ∧ (admS [] []).freeQp = some 1 ∧
    ((run (.createQueue 0 (cqC 0x444) false) (admS [] [])).qp 1).rxL = 4 ∧
    Answered (admS [] []) (run (.createQueue 0 (cqC 0x444) false) (admS [] [])) 0 (cqC 0x444) 0 := by decide +kernel

theorem wit_QueuePairs_receiveOnly :
    (admS [] []).Takes 0 (cqC 0x440) false 4 ∧ natBits (hostWord (cqC 0x440) 7) 0 4 = 0 ∧
    ((run (.createQueue 0 (cqC 0x440) false) (admS [] [])).qp 1).txL = 0 ∧
    ((run (.createQueue 0 (cqC 0x440) false) (admS [] [])).qp 1).en = true := by decide +kernel

/-- A strict affinity to engine 0 for a service queue that no thread of it serves. -/
theorem wit_QueuePairs_strict :
    ((admS [] []).wr (O.Q_SVC_MAP 2) 0x80000000).svcThreads = [95] ∧
    ((admS [] []).wr (O.Q_SVC_MAP 2) 0x80000000).Takes 0 (cqC 0x64444) false 4 ∧
    natBits (hostWord (cqC 0x64444) 7) 18 1 = 1 ∧ natBits (hostWord (cqC 0x64444) 7) 16 2 = 2 ∧
    Answered (admS [] []) (run (.createQueue 0 (cqC 0x64444) false) ((admS [] []).wr (O.Q_SVC_MAP 2) 0x80000000)) 0 (cqC 0x64444) 4 ∧
    ((run (.createQueue 0 (cqC 0x24444) false) ((admS [] []).wr (O.Q_SVC_MAP 2) 0x80000000)).qp 1).thread = 95 := by decide +kernel

/-- Queue pair 5 of function 0, handle 0x02000005, beside its admin queue. -/
def bndS : State := { admS [(5, { qp16 with gen := 2 })] [(0, { state := 1, ports := 3 })] with binds := [] }

theorem wit_QueuePairs_bind :
    bndS.byHandle 0 (hostWord (admC 6 5 [0x02000005, 3]) 1) = some 5 ∧ bndS.Takes 0 (admC 6 5 [0x02000005, 3]) false 6 ∧
    Nat.land 3 (bndS.func 0).ports = 3 ∧ ((run (.bindPort 0 (admC 6 5 [0x02000005, 3]) false) bndS).qp 5).ports = 3 ∧
    bndS.Takes 0 (admC 7 5 [0x02000005, 255]) false 7 ∧ bndS.boundTo 255 = none ∧
    (run (.bindClass 0 (admC 7 5 [0x02000005, 255]) false) bndS).boundTo 255 = some 5 ∧
    (run (.bindClass 0 (admC 7 5 [0x02000005, 511]) false) { bndS with binds := [(255, 5)] }).boundTo 255 = none ∧
    Answered bndS (run (.bindClass 0 (admC 7 5 [0x02000005, 255]) false) { bndS with binds := [(255, 9)] }) 0
      (admC 7 5 [0x02000005, 255]) 7 := by decide +kernel

theorem wit_QueuePairs_destroy :
    bndS.Takes 0 (admC 5 5 [0x02000005]) false 5 ∧ bndS.byHandle 0 (hostWord (admC 5 5 [0x02000005]) 1) = some 5 ∧ (bndS.qp 5).admin = false ∧
    ((run (.destroyQueue 0 (admC 5 5 [0x02000005]) false) bndS).qp 5).dying = true := by decide +kernel

theorem wit_QueuePairs_query :
    bndS.Takes 0 (admC 8 5 [1, 0x02000005]) false 8 ∧ bndS.byHandle 0 (hostWord (admC 8 5 [1, 0x02000005]) 2) = some 5 ∧
    Answered bndS (run (.query 0 (admC 8 5 [1, 0x02000005]) false) bndS) 0 (admC 8 5 [1, 0x02000005]) 0 ∧
    bndS.Takes 0 (admC 8 5 [0, 0]) false 8 ∧
    ((run (.query 0 (admC 8 5 [0, 0]) false) bndS).qp 0).due.getLast?.map Cqe.w3 = some (0x3FF0000 + 0xFF00) := by decide +kernel

/-- The destroy of queue pair 5 is under way. -/
def dstS : State := { bndS with admin := { destroy := some ⟨0, 5, [5], none⟩ } }

theorem wit_QueuePairs_destroyed :
    (dstS.qp 5).txs = [] ∧ (dstS.qp 5).due = [] ∧ dstS.flag F.Q_STAT.FROZEN = false ∧ dstS.qServed (dstS.func 0).admin = true ∧
    ((run .queueDestroyComplete dstS).qp 5).en = false ∧ ((run .queueDestroyComplete dstS).qp 5).gen = 3 ∧
    (run .queueDestroyComplete dstS).admin.destroy = none := by decide +kernel

/-- The destroy of function 3, with its admin queue 7 and a granule. -/
def dstF : State :=
  { adm3 with admin := { destroy := some ⟨0, 5, [7], some 3⟩ }, mem := { adm3.mem with grans := [(2, { state := 1, owner := 3, qp := 7 })] } }

theorem wit_QueuePairs_functionDestroyed :
    (dstF.qp 7).txs = [] ∧ (dstF.qp 7).due = [] ∧ dstF.qServed (dstF.func 0).admin = true ∧
    ((run .queueDestroyComplete dstF).func 3).state = 0 ∧ ((run .queueDestroyComplete dstF).qp 7).en = false ∧
    ((run .queueDestroyComplete dstF).gran 2).live = false := by decide +kernel

/-- Check unit 0 with `l` set. -/
def chkS (l : List (Fld × Nat)) : State := wth (up .x 4) l

theorem wit_CheckRuns_go :
    (chkS [(F.CHK_LEN.LEN 0, 16777216)]).Reaches (O.CHK_CTL 0) (O.CHK_CTL 0) ∧ (chkS [(F.CHK_LEN.LEN 0, 16777216)]).quiesced 42 = false ∧
    (chkS []).rd64 (O.CHK_SCAN_ADDR 0) = 0 ∧ (chkS []).flag (F.CHK_CFG.EXP_SRC 0) = false ∧ (chkS []).flag (F.CHK_CFG.ALIVE_EN 0) = false ∧
    (run (.chkGo 0 0 0) (chkS [(F.CHK_LEN.LEN 0, 16777216)])).flag (F.CHK_STAT.STATE 0) = true ∧
    (run (.chkGo 0 0 0) (chkS [(F.CHK_LEN.LEN 0, 16777217)])).fget (F.CHK_STAT.END 0) = 4 ∧
    (run (.chkGo 0 0 0) (chkS [(F.CHK_LEN.LEN 0, 0)])).fget (F.CHK_STAT.END 0) = 4 := by decide +kernel

/-- The scan would end one byte past the address space. -/
def chkFar : State := { chkS [(F.CHK_LEN.LEN 0, 8)] with regs := ((chkS [(F.CHK_LEN.LEN 0, 8)]).wr64 (O.CHK_SCAN_ADDR 0) (2 ^ 44 - 7)).regs }

theorem wit_CheckRuns_outside :
    ¬ (chkFar.flag (F.CHK_CFG.SRC 0) = true ∨ chkFar.rd64 (O.CHK_SCAN_ADDR 0) + 8 ≤ 2 ^ 44) ∧
    (run (.chkGo 0 0 0) chkFar).fget (F.CHK_STAT.END 0) = 5 := by decide +kernel

/-- A run of 4 bytes with `k` taken; CRC width 32. -/
def chkRun (k : Nat) (l : List (Fld × Nat)) : State :=
  { chkS ([(F.CHK_LEN.LEN 0, 4), (F.CHK_STAT.STATE 0, 1), (F.CHK_CFG.WIDTH_M1 0, 31)] ++ l) with chks := [(0, { taken := k })] }

theorem wit_CheckRuns_running :
    (chkRun 0 []).flag (F.CHK_STAT.STATE 0) = true ∧ (chkRun 0 []).chkNeeds 0 = 4 ∧ (chkRun 0 []).chkUp 0 = true ∧
    (chkRun 0 []).flag (F.CHK_CFG.SRC 0) = false ∧ (run (.chkGo 0 0 0) (chkRun 0 [])).flag (F.CHK_STAT.CFG_ERR 0) = true ∧
    (run (.chkAbort 0 0 0) (chkRun 0 [])).fget (F.CHK_STAT.END 0) = 7 ∧
    (run (.chkAbort 0 0 0) (chkRun 4 [])).flag (F.CHK_STAT.STATE 0) = true ∧
    (run (.chkScanData 0 [1, 2, 3, 4] false) (chkRun 0 [])).out = [.read (.scan 0) 0 4] ∧
    ((run (.chkScanData 0 [1, 2, 3, 4] false) (chkRun 0 [])).chk 0).taken = 4 ∧
    (run (.chkScanData 0 [] true) (chkRun 0 [])).fget (F.CHK_STAT.END 0) = 6 := by decide +kernel

theorem wit_CheckRuns_end :
    (chkRun 4 []).chkNeeds 0 = 0 ∧ (run (.chkRunEnd 0) (chkRun 4 [])).fget (F.CHK_STAT.END 0) = 3 ∧
    (chkRun 4 [(F.CHK_CFG.COMPARE 0, 1)]).chkValue 0 = (chkRun 4 [(F.CHK_CFG.COMPARE 0, 1)]).chkExpect 0 ∧
    (run (.chkRunEnd 0) (chkRun 4 [(F.CHK_CFG.COMPARE 0, 1)])).fget (F.CHK_STAT.END 0) = 1 ∧
    (run (.chkRunEnd 0) (chkRun 4 [(F.CHK_CTL.REARM 0, 1)])).flag (F.CHK_STAT.STATE 0) = true := by decide +kernel

/-- The stale timer of unit 0 runs. -/
def staleS : State := { chkS [(F.CHK_CFG.ALIVE_EN 0, 1), (F.CHK_ALIVE.STALE_US 0, 9)] with chks := [(0, { stale := true })] }

theorem wit_CheckRuns_stale :
    (staleS.chk 0).stale = true ∧ staleS.flag (F.CHK_CFG.ALIVE_EN 0) = true ∧ staleS.fget (F.CHK_ALIVE.STALE_US 0) ≠ 0 ∧
    (run (.chkStaleExpiry 0 false) staleS).fget (F.CHK_STAT.ALIVE 0) = 5 ∧
    (run (.chkStaleExpiry 0 false) staleS).flag (F.CHK_STAT.STALE 0) = true ∧ run (.chkStaleExpiry 0 true) staleS = staleS := by
  decide +kernel

theorem wit_CheckRuns_seal :
    (up .x 4).Reaches (O.CHK_RESULT 0) (O.CHK_RESULT 0) ∧ (up .x 4).Reaches O.CHK_SEAL O.CHK_SEAL ∧
    (up .x 4).flag F.CHK_SEAL.SEALED = false ∧ getBits (0x5EA10000 : Word) 16 16 = 0x5EA1 ∧
    (run (.chkSealWrite 0 0x5EA10000) (up .x 4)).flag F.CHK_SEAL.SEALED = true ∧ (run (.chkSealWrite 0 0x5EA00000) (up .x 4)).slv = some ⟨false, 0⟩ ∧
    (wth (up .x 4) [(F.CHK_SEAL.SEALED, 1)]).flag F.CHK_SEAL.SEALED = true := by decide +kernel

/-- DMA channel 5 in state `st`, count `k`, with `l` set. -/
def dmaS (st k : Nat) (l : List (Fld × Nat)) : State := wth (up .x 4) ([(F.DMA_CH_STAT.STATE 5, st), (F.DMA_CH_COUNT.COUNT 5, k)] ++ l)

theorem wit_DmaCommands_start :
    (dmaS 0 4 []).Reaches (O.DMA_CH_CTL 5) (O.DMA_CH_CTL 5) ∧ (dmaS 0 4 []).mode = 4 ∧
    ((dmaS 0 4 []).writeFields (O.DMA_CH_CTL 5) 0x80000000).dmaMode 5 = 0 ∧
    ((dmaS 0 4 []).writeFields (O.DMA_CH_CTL 5) 0x80030000).dmaMode 5 = 3 ∧
    (run (.dmaStart 0 5 0x30000) (dmaS 0 4 [])).fget (F.DMA_CH_STAT.ERR 5) = 1 ∧
    (run (.dmaStart 0 5 0) (dmaS 0 4 [])).dmaState 5 = 1 ∧
    (run (.dmaStart 0 5 0) (dmaS 0 0 [])).flag (F.DMA_CH_STAT.DONE 5) = true := by decide +kernel

/-- The source of channel 5 at `a`. -/
def dmaFrom (a k : Nat) : State := (dmaS 0 k []).wr64 (O.DMA_CH_SRC 5) a

theorem wit_DmaCommands_edge :
    2 ^ 44 < (dmaFrom (2 ^ 44 - 4) 5).rd64 (O.DMA_CH_SRC 5) + (dmaFrom (2 ^ 44 - 4) 5).dmaCount 5 ∧
    (dmaFrom (2 ^ 44 - 4) 4).rd64 (O.DMA_CH_SRC 5) + (dmaFrom (2 ^ 44 - 4) 4).dmaCount 5 = 2 ^ 44 ∧
    (run (.dmaStart 0 5 0) (dmaFrom (2 ^ 44 - 4) 5)).fget (F.DMA_CH_STAT.ERR 5) = 2 ∧
    (run (.dmaStart 0 5 0) (dmaFrom (2 ^ 44 - 4) 4)).dmaState 5 = 1 := by decide +kernel

theorem wit_DmaCommands_busy :
    (dmaS 1 4 []).dmaState 5 ≠ 0 ∧ (run (.dmaStart 0 5 0) (dmaS 1 4 [])).flag (F.DMA_CH_STAT.CFG_ERR 5) = true ∧
    (run (.dmaPause 0 5 0) (dmaS 1 4 [])).dmaState 5 = 2 ∧ (run (.dmaResume 0 5 0) (dmaS 3 4 [])).dmaState 5 = 1 ∧
    (run (.dmaAbort 0 5 0) (dmaS 3 4 [])).dmaState 5 = 2 ∧ (run (.dmaPause 0 5 0) (dmaS 0 4 [])).dmaState 5 = 0 ∧
    (run (.dmaAbort 0 5 0) (dmaS 0 4 [(F.DMA_CH_STAT.AT_END 5, 1)])).flag (F.DMA_CH_STAT.AT_END 5) = false := by decide +kernel

/-- A list run starts, and a two-dimensional one of one line of 4 bytes on each side; a plane run over 4 planes of one byte. -/
theorem wit_DmaCommands_modes :
    ((dmaS 0 4 []).writeFields (O.DMA_CH_CTL 5) 0x80010000).dmaMode 5 = 1 ∧ (run (.dmaStart 0 5 0x10000) (dmaS 0 4 [])).dmaState 5 = 1 ∧
    (run (.dmaStart 0 5 0x20000) (dmaS 0 4 [])).fget (F.DMA_CH_STAT.ERR 5) = 1 ∧
    (run (.dmaStart 0 5 0x20000) (dmaS 0 4 [(F.DMA_CTL.TWO_D_EN, 1), (F.DMA_CH_SGEOM.LEN 5, 4), (F.DMA_CH_SGEOM.LINES 5, 1),
      (F.DMA_CH_DGEOM.LEN 5, 4), (F.DMA_CH_DGEOM.LINES 5, 1)])).dmaState 5 = 1 ∧
    ((dmaS 0 4 []).writeFields (O.DMA_CH_CTL 5) 0x80001000).dmaOp 5 = 1 ∧ (dmaS 0 4 [(F.DMA_CH_PLANE.PLANES_M1 5, 3)]).dmaP 5 = 4 ∧
    (run (.dmaStart 0 5 0x1000) (dmaS 0 4 [(F.DMA_CH_PLANE.PLANES_M1 5, 3), (F.DMA_CH_PLANE.WIDTH 5, 3)])).dmaState 5 = 1 ∧
    (run (.dmaStart 0 5 0x1000) (dmaS 0 5 [(F.DMA_CH_PLANE.PLANES_M1 5, 3), (F.DMA_CH_PLANE.WIDTH 5, 3)])).fget (F.DMA_CH_STAT.ERR 5) = 1 := by
  decide +kernel

/-- The window lies at 0, and channel 5 is no channel for it. -/
def dmaIn (l : List (Fld × Nat)) : State := dmaS 0 4 ((F.DMA_WIN.EN, 1) :: l)

theorem wit_DmaCommands_perm :
    ((dmaIn []).permBad 5 0 4 false).isSome = true ∧ (run (.dmaStart 0 5 0) (dmaIn [])).fget (F.DMA_CH_STAT.ERR 5) = 4 ∧
    (run (.dmaStart 0 5 0x10000) (dmaIn [])).fget (F.DMA_CH_STAT.ERR 5) = 4 := by decide +kernel

theorem wit_DmaCommands_resume :
    (run (.dmaResume 0 5 0) (dmaS 0 4 [(F.DMA_CH_STAT.AT_END 5, 1)])).flag (F.DMA_CH_STAT.END_PEND 5) = true ∧
    (run (.dmaPause 0 5 0x20000000) (dmaS 1 4 [])).flag (F.DMA_CH_STAT.CFG_ERR 5) = true ∧
    (up .x 7).Reaches (O.DMA_CH_CTL 5) (O.DMA_CH_CTL 5) ∧ (run (.dmaStart 0 5 0) (up .x 7)).slv = some ⟨true, 0⟩ := by decide +kernel

theorem wit_DmaCommands_safehold :
    (up .x 6).mode = 6 ∧ (up .x 6).Reaches (O.DMA_CH_CTL 5) (O.DMA_CH_CTL 5) ∧
    (run (.dmaStart 0 5 0) (up .x 6)).slv = some ⟨true, 0⟩ ∧ (run (.dmaResume 0 5 0) (up .x 6)).slv = some ⟨true, 0⟩ := by decide +kernel

theorem wit_DmaTransfers_linear :
    (dmaS 1 2 []).dmaState 5 = 1 ∧ (dmaS 1 2 []).dmaCount 5 = 2 ∧ (dmaS 1 2 []).flag F.DMA_WIN.EN = false ∧
    (dmaS 1 2 []).dmaMode 5 = 0 ∧ (dmaS 1 2 []).dmaOp 5 = 0 ∧
    (run (.dmaLastWriteIssued 5 [7, 8]) (dmaS 1 2 [])).out = [.read (.chan 5) 0 2, .write (.chan 5) 0 [7, 8]] ∧
    (run (.dmaLastWriteIssued 5 [7, 8]) (dmaS 1 2 [(F.DMA_CH_CTL.FENCE 5, 1)])).dmaState 5 = 4 ∧
    (run (.dmaLastWriteIssued 5 [7, 8]) (dmaS 1 2 [])).dmaState 5 = 0 ∧
    (run (.dmaFenceDone 5) (dmaS 4 0 [])).flag (F.DMA_CH_STAT.DONE 5) = true := by decide +kernel

theorem wit_DmaTransfers_drain :
    (dmaS 2 2 []).dmaState 5 = 2 ∧ ((dmaS 2 2 []).dma 5).target = 0 ∧
    (run (.dmaDrainDone 5 1 [7]) (dmaS 2 2 [])).dmaState 5 = 3 ∧ (run (.dmaDrainDone 5 1 [7]) (dmaS 2 2 [])).dmaCount 5 = 1 ∧
    (run (.dmaDrainDone 5 0 []) { dmaS 2 2 [] with dmas := [(5, { target := 6 })] }).fget (F.DMA_CH_STAT.ERR 5) = 6 ∧
    ((run (.dmaAccessError 5 3 0x123) (dmaS 1 2 [])).dma 5).target = 3 ∧
    (run (.dmaLateWriteError 5 0x123) (dmaS 0 2 [])).rd64 (O.DMA_CH_ERRADDR 5) = 0x123 := by decide +kernel

/-- A list entry. -/
def lstE (addr len w : Nat) : List Byte := natLe 8 addr ++ natLe 4 len ++ natLe 4 w
/-- Channel 5 walks a list. -/
def lstS : State := dmaS 1 0 [(F.DMA_CH_CTL.ADDR_MODE 5, 1)]

theorem wit_DmaTransfers_list :
    lstS.dmaState 5 = 1 ∧ lstS.dmaMode 5 = 1 ∧ (lstS.dma 5).have_ = false ∧
    ((run (.dmaListFetchReturn 5 [] true []) lstS).dma 5).target = 3 ∧
    (run (.dmaListFetchReturn 5 (lstE 0x40 0 (2 ^ 30)) false []) lstS).rd64 (O.DMA_CH_LIST 5) = 0x40 ∧
    (run (.dmaListFetchReturn 5 (lstE 0x40 9 (2 ^ 31)) false []) lstS).dmaCount 5 = 9 ∧
    (run (.dmaListFetchReturn 5 (lstE (2 ^ 44 - 9) 9 (2 ^ 31)) false []) lstS).flag (F.DMA_CH_STAT.END_PEND 5) = true := by decide +kernel

/-- A list in the window: channel 1 fetches its entry from the first bytes of engine 0's code memory. -/
def lstIn : State :=
  let s := wth (up .x 4) [(F.DMA_CH_STAT.STATE 1, 1), (F.DMA_CH_CTL.ADDR_MODE 1, 1), (F.DMA_WIN.EN, 1)]
  { s.wr64 (O.DMA_CH_LIST 1) 0x400000 with emem := (lstE 0x40 0 (2 ^ 30)).zipIdx.map fun b => (ememKey 0 b.2, b.1) }

theorem wit_DmaTransfers_window :
    (lstIn.permBad 1 0x400000 16 false).isSome = false ∧ lstIn.inWin 0x400000 = true ∧ lstIn.winPlace 0x400000 = (0, 0) ∧
    (run (.dmaListFetchReturn 1 [] false []) lstIn).rd64 (O.DMA_CH_LIST 1) = 0x40 ∧ (run (.dmaListFetchReturn 1 [] false []) lstIn).out = [] ∧
    ((run (.dmaListFetchReturn 1 [] true []) lstIn).dma 1).target = 5 := by decide +kernel

/-- The entry held is moved and the next one is fetched; at the top of the address space there is none. -/
def heldS (a : Nat) : State :=
  { (dmaS 1 1 [(F.DMA_CH_CTL.ADDR_MODE 5, 1)]).wr64 (O.DMA_CH_LIST 5) a with dmas := [(5, { have_ := true, addr := 0x80 })] }

theorem wit_DmaTransfers_next :
    (heldS 0x10).dmaBad 5 1 = none ∧
    (run (.dmaListFetchReturn 5 [] true [7]) (heldS 0x10)).out = [.read (.chan 5) 0x80 1, .write (.chan 5) 0 [7], .read (.chan 5) 0x20 16] ∧
    ((run (.dmaListFetchReturn 5 [] true [7]) (heldS (2 ^ 44 - 16))).dma 5).target = 2 ∧
    (heldS (2 ^ 44 - 8)).dmaBad 5 1 = none ∧
    ((run (.dmaAccessError 5 2 0) ((heldS 0).wr64 (O.DMA_CH_DST 5) (2 ^ 44))).dma 5).target = 2 := by decide +kernel

theorem wit_DmaTransfers_end :
    (wth lstS [(F.DMA_CH_STAT.END_PEND 5, 1)]).dmaBad 5 ((wth lstS [(F.DMA_CH_STAT.END_PEND 5, 1)]).dmaCount 5) = none ∧
    (run (.dmaEndFetchReturn 5 0x80000000 false []) (wth lstS [(F.DMA_CH_STAT.END_PEND 5, 1)])).flag (F.DMA_CH_STAT.AT_END 5) = true ∧
    (run (.dmaEndFetchReturn 5 0 false []) (wth (dmaS 0 0 []) [(F.DMA_CH_STAT.END_PEND 5, 1), (F.DMA_CH_STAT.AT_END 5, 1)])).dmaState 5 = 1 ∧
    (run (.dmaEndFetchReturn 5 0 true []) (wth (dmaS 0 0 []) [(F.DMA_CH_STAT.END_PEND 5, 1), (F.DMA_CH_STAT.AT_END 5, 1)])).fget
      (F.DMA_CH_STAT.ERR 5) = 3 ∧
    (run (.dmaLastWriteIssued 5 []) (wth lstS [(F.DMA_CH_STAT.AT_END 5, 1)])).flag (F.DMA_CH_STAT.DONE 5) = true := by
  decide +kernel

/-- A record of channel 1 waits; the completion queue has 16 entries, TAIL `w` and HEAD `h`. -/
def recS (w h : Nat) : State :=
  { wth (up .x 4) [(F.DMA_CQ_CFG.EN, 1), (F.DMA_CQ_CFG.L, 4), (F.DMA_CQ_IDX.TAIL, w), (F.DMA_CQ_IDX.HEAD, h), (F.DMA_CH_STAT.CPL_WAIT 1, 1)] with
      dmas := [(1, { rec_ := some ⟨0, 64, 0, 9⟩ })] }

theorem wit_DmaTransfers_record :
    ((recS 65535 65520).dma 1).rec_ = some ⟨0, 64, 0, 9⟩ ∧ (recS 65535 65520).flag F.DMA_CQ_CFG.EN = true ∧
    (65535 + 65536 - (recS 65535 65520).fget F.DMA_CQ_IDX.HEAD) % 65536 < 2 ^ (recS 65535 65520).fget F.DMA_CQ_CFG.L ∧
    (run (.dmaRecordWrite 1 false) (recS 65535 65520)).fget F.DMA_CQ_IDX.TAIL = 0 ∧
    (run (.dmaRecordWrite 1 false) (recS 65535 65520)).out = [.write (.chan 1) 0xF0 (words4 1 64 0 9)] ∧
    (run (.dmaRecordWrite 1 true) (recS 65535 65520)).flag (F.DMA_CH_STAT.LATE_ERR 1) = true := by decide +kernel

theorem wit_DmaTransfers_head :
    (recS 5 3).Reaches O.DMA_CQ_IDX O.DMA_CQ_IDX ∧ (run (.dmaCqHeadWrite 0 5) (recS 5 3)).fget F.DMA_CQ_IDX.HEAD = 5 ∧
    (run (.dmaCqHeadWrite 0 6) (recS 5 3)).fget F.DMA_CQ_IDX.HEAD = 3 ∧
    (run (.dmaCqHeadWrite 0 6) (recS 5 3)).flag F.DMA_CQ_CFG.HEAD_ERR = true := by decide +kernel

/-- Bank 3 is named in a bank command. -/
def bank3 : Word := 0x03000000

theorem wit_Banks_commands :
    (up .x 4).Reaches O.MEM_BANK_CMD O.MEM_BANK_CMD ∧ getBits bank3 24 5 = 3 ∧ (up .x 4).bankOn 3 = true ∧
    (up .x 4).fget (F.MEM_BANK_STAT.LIVE 3) = 0 ∧ (run (.bankEvacuate 0 bank3) (up .x 4)).mem.evac = some 3 ∧
    (run (.bankEvacuate 0 bank3) (wth (up .x 4) [(F.MEM_BANK_CMD.BUSY, 1)])).fget F.MEM_BANK_CMD.RESULT = 2 ∧
    (run (.bankEvacuate 0 bank3) (up .x 6)).fget F.MEM_BANK_CMD.RESULT = 5 ∧
    (run (.bankEvacuate 0 0x18000000) (up .x 4)).fget F.MEM_BANK_CMD.RESULT = 3 ∧ (up .x 4).bankOn 24 = false ∧
    (run (.bankRelease 0 bank3) (wth (up .x 4) [(F.MEM_BANK_STAT.NOALLOC 3, 1)])).flag (F.MEM_BANK_STAT.NOALLOC 3) = false ∧
    (run (.bankCmdUnknownOp 0 bank3) (up .x 4)).fget F.MEM_BANK_CMD.RESULT = 3 ∧
    (run (.bankCmdUnknownOp 0 bank3) (up .x 4)).flag (pendFld 10) = true := by decide +kernel

/-- Only banks 0 and 3 of half A are open, bank 0 full; bank 3 holds `n` granules. -/
def fullS (n : Nat) : State :=
  { wth (up .x 4) [(F.MEM_BANK_STAT.LIVE 3, n), (F.MEM_BANK_CMD.BUSY, 0)] with
      doms := [1, 2, 4, 5, 6, 7, 8, 9, 10, 11].map fun b => (18 + b, { iso := true })
      mem := { grans := (List.range 64).map fun g => (g, { state := 1 }) } }

theorem wit_Banks_room :
    (((fullS 1).halfBanks ((fullS 1).cfg.halfOfBank 3)).filter fun x => x != 3 && (fullS 1).bankOn x) = [0] ∧ (fullS 1).freeIn 0 = 0 ∧
    (run (.bankEvacuate 0 bank3) (fullS 1)).fget F.MEM_BANK_CMD.RESULT = 4 ∧
    (run (.bankEvacuate 0 bank3) (fullS 0)).flag F.MEM_BANK_CMD.BUSY = true := by decide +kernel

theorem wit_Banks_evacuated :
    ({ up .x 4 with mem := { evac := some 3 } } : State).mem.evac = some 3 ∧
    (run .evacuateDone { wth (up .x 4) [(F.MEM_BANK_CMD.BUSY, 1)] with mem := { evac := some 3 } }).fget F.MEM_BANK_CMD.RESULT = 1 := by
  decide +kernel

/-- Every master may read and write granule 0; its first word holds 0x77 and is `bad`. -/
def dbgS (bad : Bool) : State :=
  { ((up .x 4).wr (O.MEM_RGN_RD 14 0) 1).wr (O.MEM_RGN_WR 14 0) 1 with
      mem := { words := [(0, 0x77)], grans := [(0, { state := 1, poison := if bad then [0] else [] })] } }

theorem wit_DebugWord_write :
    (dbgS true).Reaches (O.MEM_DBG_DATA + 4) (O.MEM_DBG_DATA + 4) ∧ (dbgS true).dbgAddr = 0 ∧ (dbgS true).bankOn 0 = true ∧
    ((dbgS true).gran 0).plain = true ∧ (dbgS true).mayWrite 14 0 = true ∧ (dbgS true).wordPoisoned 0 = true ∧
    (run (.memDbgWrite 0 5) (dbgS true)).wordPoisoned 0 = false ∧
    KMap.find? (run (.memDbgWrite 0 5) (dbgS true)).mem.words 0 = some 0x500000000 ∧
    ((dbgS true).wr (O.MEM_RGN_WR 14 0) 0).mayWrite 14 0 = false ∧
    (run (.memDbgWrite 0 5) ((dbgS true).wr (O.MEM_RGN_WR 14 0) 0)).slv = some ⟨true, 0⟩ := by
  decide +kernel

theorem wit_DebugWord_read :
    (dbgS false).Reaches O.MEM_DBG_DATA O.MEM_DBG_DATA ∧ (dbgS false).mayRead 14 0 = true ∧ (dbgS false).wordPoisoned 0 = false ∧
    (dbgS true).wordPoisoned 0 = true ∧ ((dbgS true).gran 0).state = 1 ∧
    (∀ i, i < 8 → (dbgS false).frameAt i = none) ∧ KMap.find? (dbgS false).mem.words 0 = some 0x77 ∧
    (run (.memDbgRead 0) (dbgS false)).slv = some ⟨false, 0x77⟩ ∧ (run (.memDbgRead 0) (dbgS true)).slv = some ⟨true, 0⟩ := by decide +kernel

/-- Granule 0 is FREE and its first word poisoned. -/
def dbgFree : State := { dbgS true with mem := { grans := [(0, { poison := [0] })] } }

theorem wit_DebugWord_free :
    dbgFree.mayRead 14 0 = true ∧ dbgFree.bankOn 0 = true ∧ dbgFree.wordPoisoned 0 = true ∧ (dbgFree.gran 0).state = 0 ∧
    (run (.memDbgRead 0) dbgFree).slv = some ⟨false, 0⟩ ∧ (run (.memDbgRead 0) dbgFree).wordPoisoned 0 = false := by decide +kernel

/-- Granule 5 waits to move. -/
def movS : State := { up .x 4 with mem := { moves := [5], grans := [(5, { state := 1, owner := 7 })] } }

theorem wit_Migration_start :
    movS.mem.move = none ∧ (movS.mem.moves.filter fun x => decide ((movS.gran x).state = 1) && movS.bankOn (x / 64)) = 5 :: [] ∧
    movS.pickGran ((movS.halfBanks (movS.cfg.halfOfBank 0)).filter fun b => movS.mem.evac != some b) = some 64 ∧
    (run (.migrationStart []) movS).mem.move = some (5, 64) ∧ ((run (.migrationStart []) movS).gran 64).owner = 7 ∧
    (run (.migrationStart [0x1234]) movS).flag (pendFld 6) = true ∧
    (run (.migrationStart []) { movS with mem := { moves := [4] } }).mem.moves = [] ∧
    ({ movS with mem := { move := some (5, 64) } } : State).mem.move.isSome = true := by decide +kernel

theorem wit_Migration_noSpare :
    ({ fullS 0 with mem := { grans := (fullS 0).mem.grans, moves := [5], evac := some 3 } } : State).pickGran [0] = none ∧
    (run (.migrationStart []) { fullS 0 with mem := { grans := (fullS 0).mem.grans, moves := [5], evac := some 3 } }).flag F.MEM_STAT.NO_SPARE = true := by
  decide +kernel

/-- Granule 5 moves to 64, a frame in it. -/
def mvgS : State :=
  { up .x 4 with mem := { move := some (5, 64), grans := [(5, { state := 2, owner := 7 }), (64, { state := 2, owner := 7 })] },
                 frames := [(1, { parts := [(5, 0, 0, 60)] })], nextFrame := 2, ports := [(0, { egress := [{ fid := 1, cls := 0 }] })] }

theorem wit_Migration_done :
    mvgS.mem.move = some (5, 64) ∧ (mvgS.gran 5).retire = false ∧ ((run (.migrationDone []) mvgS).gran 5).state = 0 ∧
    ((run (.migrationDone []) mvgS).frame 1).parts = [(64, 0, 0, 60)] ∧
    (run (.migrationDone [3]) mvgS).wordPoisoned (4096 * 64 + 8 * 3) = true ∧
    ((run (.migrationDone []) { mvgS with mem := { mvgS.mem with grans := [(5, { state := 2, owner := 7, retire := true }), (64, { state := 2, owner := 7 })] } }).gran 5).state = 3 := by
  decide +kernel

/-- The pointing pass stands at region `r` of Gweip-S. -/
def ppS (r : Nat) : State := wth (up .s 2) [(F.MEM_PP_CFG.EN, 1), (F.MEM_PP_STAT.REGION, r)]

theorem wit_Migration_pass :
    (ppS 0).testable 0 = true ∧ (ppS 0).mem.test = none ∧ (ppS 0).flag F.MEM_PP_CFG.EN = true ∧
    (run .pointingPassTimer (ppS 0)).mem.test = some 0 ∧ (run .pointingPassTimer (ppS 0)).fget F.MEM_PP_STAT.REGION = 1 ∧
    16 * (ppS 0).cfg.granules = 8192 ∧ (ppS 8191).testable 8191 = true ∧
    (run .pointingPassTimer (ppS 8191)).fget F.MEM_PP_STAT.REGION = 0 := by decide +kernel

theorem wit_Migration_noRegion : ∀ r, State.testable { ppS 0 with halves := [(0, { spine := { up := false } })] } r = false := by
  intro r
  have hk : ∀ b, b < 8 → State.bankOn { ppS 0 with halves := [(0, { spine := { up := false } })] } b = false := by decide +kernel
  have hb : State.bankOn { ppS 0 with halves := [(0, { spine := { up := false } })] } (r / 1024) = false := by
    by_cases h : r / 1024 < 8
    · exact hk _ h
    · have hc : (State.cfg { ppS 0 with halves := [(0, { spine := { up := false } })] }).banks = 8 := by decide +kernel
      simp [State.bankOn, hc, h]
  simp [State.testable, hb]

theorem wit_Migration_errors :
    (movS.gran 5).state = 1 ∧ movS.bankOn 0 = true ∧ movS.flag F.MEM_ERR_LOG.VALID = false ∧
    (run (.retestStart 0 3 0x5008 true [] false false) movS).mem.retests = [(0x50, true, 0x5008, true)] ∧
    (run (.retestStart 0 3 0x5008 true [] false false) movS).wordPoisoned 0x5008 = true ∧
    (run (.retestStart 0 3 0x5008 true [] false false) movS).rd64 O.MEM_ERR_LOG = 2 ^ 63 + 2 ^ 62 + 3 * 2 ^ 55 + 0x5008 ∧
    (run (.retestStart 0 3 0x5008 true [] false true) movS).wordPoisoned 0x5008 = false ∧
    (run (.retestStart 1 11 0x40004 false [] false false) movS).rd64 (O.CE_CNT 11 6) = 1 ∧
    (run (.retestStart 1 11 0x40004 true [] false false) movS).mem.others = [(1, 11, 4, true)] ∧ movS.cfg.engines = 12 ∧
    (run (.retestStart 2 3 7 false [] false false) movS).mem.others = [(2, 3, 7, false)] := by decide +kernel

/-- Sixteen other regions wait for a re-test. -/
def manyS (st : Nat) : State :=
  { up .x 4 with mem := { retests := (List.range 16).map fun i => (i, false, 256 * i, false), grans := [(5, { state := st })] } }

theorem wit_Migration_full :
    (manyS 1).mem.retests.any (fun r => r.1 == 0x50) = false ∧ (manyS 1).mem.retests.length = 16 ∧
    ((run (.retestStart 0 3 0x5008 false [] false false) (manyS 1)).gran 5).retire = true ∧
    (run (.retestStart 0 3 0x5008 false [] false false) (manyS 1)).mem.moves = [5] ∧
    ((run (.retestStart 0 3 0x5008 false [] false false) (manyS 0)).gran 5).state = 3 ∧
    (run (.retestStart 0 3 0x5008 false [] false false) (manyS 0)).fget F.MEM_ERR_LOG.VERDICT = 2 := by decide +kernel

/-- Its re-test waits. -/
def rtsS (st : Nat) : State :=
  { wth (up .x 4) [(F.MEM_ERR_LOG.VALID, 1), (F.MEM_ERR_LOG.ADDR, 0x5008)] with
      mem := { retests := [(0x50, true, 0x5008, true)], grans := [(5, { state := st })] } }

theorem wit_Migration_verdict :
    (rtsS 1).mem.retests = (0x50, true, 0x5008, true) :: [] ∧ (rtsS 1).flag F.MEM_ERR_LOG.VALID = true ∧ (rtsS 1).fget F.MEM_ERR_LOG.ADDR = 0x5008 ∧
    (run (.regionTestDone 0 false) (rtsS 1)).fget F.MEM_ERR_LOG.VERDICT = 1 ∧ (rtsS 1).flag F.FLT_ESC.MEM_LASTING = false ∧
    ((run (.regionTestDone 0 true) (rtsS 1)).gran 5).retire = true ∧ (run (.regionTestDone 0 true) (rtsS 1)).mem.moves = [5] ∧
    ((run (.regionTestDone 0 true) (rtsS 0)).gran 5).state = 3 ∧ ((run (.regionTestDone 0 true) (rtsS 2)).gran 5).retire = true := by
  decide +kernel

theorem wit_Migration_contained :
    (wth (rtsS 1) [(F.FLT_ESC.MEM_LASTING, 1)]).flag F.FLT_ESC.MEM_LASTING = true ∧
    (run (.regionTestDone 0 true) (wth (rtsS 1) [(F.FLT_ESC.MEM_LASTING, 1)])).mode = 6 ∧
    ((run (.regionTestDone 0 true) (wth (rtsS 1) [(F.FLT_ESC.MEM_LASTING, 1)])).gran 5).state = 3 := by decide +kernel

/-- The pass tests region `r`; an engine memory and a spine memory wait. -/
def tstS : State := { up .x 4 with mem := { test := some 80, others := [(1, 11, 4, true), (2, 3, 7, true)], grans := [(5, { state := 1 })] } }

theorem wit_Migration_tests :
    (run (.regionTestDone 0 false) tstS).mem.test = none ∧ ((run (.regionTestDone 0 true) tstS).gran 5).retire = true ∧
    (tstS.mem.others.find? fun o => o.1 == 1) = some (1, 11, 4, true) ∧ (tstS.mem.others.find? fun o => o.1 == 2) = some (2, 3, 7, true) ∧
    (run (.regionTestDone 1 true) (wth tstS [(F.CE_CTL.RUN 11, 1)])).flag (F.CE_CTL.RUN 11) = false ∧
    (run (.regionTestDone 1 true) tstS).flag (pendFld 6) = true ∧
    (run (.regionTestDone 2 false) tstS).mode = 6 ∧ (run (.regionTestDone 2 false) tstS).mem.others = [(1, 11, 4, true)] := by
  decide +kernel

/-- Domain `d` in phase `p`, with `l` set. -/
def domS (d : Nat) (p : Phase) (l : List (Fld × Nat)) : State := { wth (up .x 4) l with doms := [(d, { phase := p })] }

theorem wit_PowerRequests_refused :
    (up .x 4).Reaches (O.PWR_DOM 8) (O.PWR_DOM 8) ∧ (run (.powerTargetWrite 0 8 3) (up .x 4)).slv = some ⟨true, 0⟩ ∧
    (run (.powerTargetWrite 0 8 0) (wth (up .x 4) [(F.PWR_DOM.TARGET 2, 1)])).fget (F.PWR_DOM.RESULT 8) = 3 ∧
    (up .x 4).target 8 = 0 ∧ ((childDoms .x 2).any fun k => (up .x 4).target k == 0) = true ∧
    (run (.powerTargetWrite 0 2 1) (up .x 4)).fget (F.PWR_DOM.RESULT 2) = 4 ∧ (childDoms .x 4) = [] ∧
    (wth (up .x 4) [(F.CE_CTL.RUN 0, 1)]).clusterRun 0 = true ∧
    (run (.powerTargetWrite 0 4 1) (wth (up .x 4) [(F.CE_CTL.RUN 0, 1)])).fget (F.PWR_DOM.RESULT 4) = 6 := by decide +kernel

theorem wit_PowerRequests_taken :
    ((up .x 4).dom 8).phase = .idle ∧ (up .x 4).domState 8 = 0 ∧ (up .x 4).clusterRun 0 = false ∧
    (run (.powerTargetWrite 0 8 2) (up .x 4)).target 8 = 2 ∧
    (run (.powerTargetWrite 0 42 2) (wth (up .x 4) [(F.CHK_SEAL.SEALED, 1)])).target 42 = 1 ∧
    (run (.powerTargetWrite 0 21 2) (wth (up .x 4) [(F.MEM_BANK_STAT.LIVE 3, 1)])).fget (F.PWR_DOM.RESULT 21) = 5 ∧
    (wth (up .x 4) [(F.PWR_DOM.STATE 8, 2), (F.PWR_DOM.TARGET 8, 2)]).domState 8 ≠ 0 ∧
    ((run (.powerTargetWrite 0 8 0) (wth (up .x 4) [(F.PWR_DOM.STATE 8, 2), (F.PWR_DOM.TARGET 8, 2)])).dom 8).phase = .wait false := by
  decide +kernel

theorem wit_PowerRequests_wake :
    (up .x 4).Reaches O.PWR_WAKE_REQ O.PWR_WAKE_REQ ∧ (up .x 4).flag F.PWR_LASTWAKE.VALID = false ∧
    (run (.wakeRequest 0 1) (up .x 4)).fget F.PWR_LASTWAKE.SRC = 5 ∧ 16 ∈ (run (.wakeRequest 0 1) (up .x 4)).latches ∧
    (up .x 4).wakeEnabled 4 15 0 = false ∧ ((up .x 4).wr O.PWR_WAKE_EN 0x80000000).wakeEnabled 4 15 0 = true ∧
    (run (.wakeEvent 4 15 0 false) ((up .x 4).wr O.PWR_WAKE_EN 0x80000000)).fget F.PWR_LASTWAKE.INDEX = 15 ∧
    (run (.wakeEvent 4 15 0 false) (wth ((up .x 4).wr O.PWR_WAKE_EN 0x80000000) [(F.PWR_LASTWAKE.VALID, 1)])).flag F.PWR_LASTWAKE.MULTI = true := by
  decide +kernel

/-- Domain 8 in state `st` with phase `p`, `l` set. -/
def reqS (st : Nat) (p : Phase) (l : List (Fld × Nat)) : State := domS 8 p ([(F.PWR_DOM.STATE 8, st), (F.PWR_DOM.TARGET 8, st)] ++ l)

theorem wit_PowerRequests_direct :
    (run (.powerTargetWrite 0 8 0) (reqS 0 .idle [])).fget (F.PWR_DOM.RESULT 8) = 1 ∧
    (run (.powerTargetWrite 0 8 2) (reqS 2 .idle [])).fget (F.PWR_DOM.RESULT 8) = 1 ∧
    (run (.powerTargetWrite 0 8 2) (reqS 1 .idle [])).domState 8 = 2 ∧
    ((run (.powerTargetWrite 0 8 1) (reqS 2 .idle [])).dom 8).ret = true := by decide +kernel

theorem wit_PowerRequests_running :
    ((run (.powerTargetWrite 0 8 0) (reqS 3 (.enter true 5) [])).dom 8).phase = .unwind true 5 ∧
    ((run (.powerTargetWrite 0 8 0) (reqS 3 (.enter true 6) [])).dom 8).next = some 0 ∧
    ((run (.powerTargetWrite 0 8 1) (reqS 3 (.settle 2 false) [])).dom 8).next = some 1 ∧
    ((run (.powerTargetWrite 0 8 1) (reqS 2 (.wait false) [])).dom 8).phase = .idle := by decide +kernel

/-- A wake of port 3 by pattern filter 2 stands in PWR_LASTWAKE; wake pin 0 is enabled. -/
def wokS (m : Nat) : State :=
  (wth (up .x m) [(F.PWR_LASTWAKE.VALID, 1), (F.PWR_LASTWAKE.SRC, 2), (F.PWR_LASTWAKE.INDEX, 3), (F.PWR_LASTWAKE.FILTER, 2)]).wr O.PWR_WAKE_EN 0x10000

theorem wit_PowerRequests_met :
    (wokS 4).wakeEnabled 4 0 0 = true ∧ (run (.wakeEvent 4 0 0 true) (wokS 4)).fget F.PWR_LASTWAKE.SRC = 2 ∧
    (run (.wakeEvent 4 0 0 false) (wokS 4)).fget F.PWR_LASTWAKE.SRC = 4 ∧
    (run (.wakeEvent 4 0 0 true) (wokS 4)).flag F.PWR_LASTWAKE.MULTI = true := by decide +kernel

theorem wit_PowerRequests_dormant :
    8 ∈ State.wakeSet { (wokS 7).wr (O.PWR_WAKE_SET 0) 0x100 with doms := [(9, { phase := .enter true 3 })] } ∧
    ((run (.wakeEvent 4 0 0 false) (wth { (wokS 7).wr (O.PWR_WAKE_SET 0) 0x100 with doms := [(9, { phase := .enter true 3 })] }
      [(F.PWR_DOM.STATE 8, 2)])).dom 8).phase = .wait false ∧
    ((run (.wakeEvent 4 0 0 false) { (wokS 7).wr (O.PWR_WAKE_SET 0) 0x100 with doms := [(9, { phase := .enter true 3 })] }).dom 9).phase =
      .unwind true 3 := by decide +kernel

/-- Port 7 is listened to, its domain in state `st`. -/
def lisS (st : Nat) (l : List (Fld × Nat)) : State := (wth (up .x 4) ([(F.PWR_DOM.STATE 15, st), (F.PWR_DOM.TARGET 15, st)] ++ l)).wr O.PWR_LISTEN 0x800000

theorem wit_PowerRequests_listen :
    (lisS 2 [(F.PWR_WAKE_EN.LINK, 1)]).cfg.hasDomain 15 = true ∧ bitOf ((lisS 2 []).rd O.PWR_LISTEN) 23 = true ∧
    (lisS 2 [(F.PWR_WAKE_EN.LINK, 1)]).flag F.PWR_WAKE_EN.LINK = true ∧
    (run (.listenSample 7 true) (lisS 2 [(F.PWR_WAKE_EN.LINK, 1)])).fget F.PWR_LASTWAKE.INDEX = 7 ∧
    (lisS 1 [(F.MAC_WAKE_CTL.FRAME_EN 7, 1), (F.PWR_WAKE_EN.LINK, 0)]).wakeFilters 7 = true ∧
    (lisS 1 [(F.PWR_WAKE_EN.LINK, 0)]).flag F.PWR_WAKE_EN.LINK = false ∧ ((lisS 1 []).dom 15).phase = .idle ∧
    ((run (.listenSample 7 true) (lisS 1 [(F.MAC_WAKE_CTL.FRAME_EN 7, 1), (F.PWR_WAKE_EN.LINK, 0)])).dom 15).phase = .wait true ∧
    (domS 15 (.listening 0) [(F.PWR_DOM.TARGET 15, 1)]).target 15 ≠ 0 ∧
    ((run (.listenWindowEnd 7) (domS 15 (.listening 0) [(F.PWR_DOM.TARGET 15, 1)])).dom 15).phase = .enter false 1 := by decide +kernel

theorem wit_PowerSequences_entry :
    8 ∈ domList .x ∧ (∀ x ∈ domList .x, x ≠ 8 → ((domS 8 .idle [(F.PWR_DOM.TARGET 8, 2)]).dom x).phase = .idle) ∧
    (∀ x ∈ domList .x, (up .x 4).entryReady x = false) ∧ (domS 8 .idle [(F.PWR_DOM.TARGET 8, 2)]).entryReady 8 = true ∧
    ((run .sequencerStep (domS 8 .idle [(F.PWR_DOM.TARGET 8, 2)])).dom 8).phase = .enter true 1 := by decide +kernel

/-- Domain 8 on its way to RET. -/
def retS (p : Phase) : State := domS 8 p [(F.PWR_DOM.TARGET 8, 1), (F.PWR_DOM.STATE 8, 3), (F.PWR_DOM.PEND 8, 1)]

theorem wit_PowerSequences_steps :
    ((retS (.enter false 3)).dom 8).phase = .enter false 3 ∧ ((run .sequencerStep (retS (.enter false 3))).dom 8).ret = true ∧
    ((run .sequencerStep (retS (.enter false 5))).dom 8).iso = true ∧ ((run .sequencerStep (retS (.enter false 6))).dom 8).psw = false ∧
    (retS (.enter false 7)).target 8 ≠ 0 ∧ (run .sequencerStep (retS (.enter false 7))).domState 8 = 1 ∧
    (run .sequencerStep (domS 8 (.unwind false 1) [(F.PWR_DOM.STATE 8, 3)])).fget (F.PWR_DOM.RESULT 8) = 2 ∧
    ((run .sequencerStep (domS 8 (.unwind false 4) [(F.PWR_DOM.STATE 8, 3)])).dom 8).phase = .unwind false 3 := by decide +kernel

theorem wit_PowerSequences_drain :
    (retS (.enter false 2)).drained 8 = true ∧ ((run .sequencerStep (retS (.enter false 1))).dom 8).phase = .enter false 2 ∧
    ((run .sequencerStep (retS (.enter false 2))).dom 8).phase = .enter false 3 ∧
    State.drained { retS (.enter false 2) with ports := [(0, { tx := some {} })] } 8 = false ∧
    ((run .sequencerStep (domS 42 (.enter true 3) [(F.CHK_SEAL.SEALED, 1)])).dom 42).phase = .enter false 4 ∧
    ((run .sequencerStep { retS (.enter false 7) with doms := [(8, { phase := .enter false 7, next := some 0 })] }).dom 8).phase = .wait false := by
  decide +kernel

/-- Domain 8 on its way to ON, with an inrush budget of `b`. -/
def onS (p : Phase) (b : Nat) : State :=
  domS 8 p [(F.PWR_DOM.STATE 8, 2), (F.PWR_DOM.PEND 8, 1), (F.PWR_INRUSH.BUDGET, b), (F.PWR_STAT.USED, 1)]

theorem wit_PowerSequences_up :
    (onS (.wait false) 9).domState (parentDom .x 8) = 0 ∧ (onS (.wait false) 9).gasp = none ∧
    (onS (.wait false) 9).fget F.PWR_STAT.USED + (onS (.wait false) 9).domCost 8 ≤ (onS (.wait false) 9).fget F.PWR_INRUSH.BUDGET ∧
    ((run .sequencerStep (onS (.wait false) 9)).dom 8).psw = true ∧
    (onS (.wait false) 1).fget F.PWR_INRUSH.BUDGET < (onS (.wait false) 1).fget F.PWR_STAT.USED + (onS (.wait false) 1).domCost 8 ∧
    (run .sequencerStep (onS (.wait false) 1)).flag F.PWR_STAT.INRUSH_WAIT = true ∧
    ((run .sequencerStep (onS (.settle 1 false) 9)).dom 8).phase = .release false ∧
    (run .sequencerStep (onS (.release false) 9)).domState 8 = 0 ∧
    ((run .sequencerStep (onS (.settle 3 false) 9)).dom 8).phase = .settle 2 false ∧
    ((run .sequencerStep (onS (.ack 3 false) 9)).dom 8).phase = .ack 2 false ∧
    ((run .sequencerStep (onS (.release true) 9)).dom 8).phase = .listening (max 1 ((onS (.release true) 9).fget F.PWR_LISTEN.WINDOW)) ∧
    ((run .sequencerStep (domS 8 (.listening 3) [(F.PWR_DOM.TARGET 8, 1)])).dom 8).phase = .listening 2 ∧
    ((run .sequencerStep (domS 8 (.listening 3) [])).dom 8).phase = .idle ∧
    ({ onS (.wait false) 9 with gasp := some {} } : State).gasp.isSome = true := by decide +kernel

theorem wit_PowerSequences_dormant :
    (∀ x ∈ domList .x, ((up .x 7).dom x).phase = .idle ∧ (up .x 7).entryReady x = false) ∧
    (∀ d ∈ State.wakeSet { up .x 7 with doms := [(1, { woken := true })] }, (up .x 7).domState d = 0) ∧
    (run .sequencerStep { up .x 7 with doms := [(1, { woken := true })] }).mode = 1 := by decide +kernel

theorem wit_PowerSequences_ack :
    ((onS (.ack 0 false) 9).dom 8).phase = .ack 0 false ∧ (onS (.ack 0 false) 9).flag F.FLT_ESC.PSW_ACK = false ∧
    ((run (.pswAckRise 8) (onS (.ack 5 false) 9)).dom 8).phase =
      (if (onS (.ack 5 false) 9).domDelay 8 = 0 then .release false else .settle ((onS (.ack 5 false) 9).domDelay 8) false) ∧
    (run (.pswAckTimeout 8) (onS (.ack 0 false) 9)).fget (F.PWR_DOM.RESULT 8) = 8 ∧
    (run (.pswAckTimeout 8) (wth (onS (.ack 0 false) 9) [(F.FLT_ESC.PSW_ACK, 1)])).mode = 6 := by decide +kernel

/-- The host asks for object `i`, sub-index `sub`, in mode `m`; DIC_DATA holds `w` in its first word. -/
def dicS (m i sub : Nat) (w : Word) (d : Dic) : State :=
  { (wth (up .x m) [(F.DIC_STAT.READY, 1), (F.DIC_IDX.INDEX, i), (F.DIC_IDX.SUB, sub)]).wr (O.DIC_DATA 0) w with dic := d }
/-- An UNSIGNED16 object that the host and the network read and write, default 0x1234. -/
def objD : ObjDef := { typ := 2, acc := 1, reachH := true, reachN := true, persist := true, served := false, size := 2, dflt := [0x34, 0x12] }
/-- The same, served by an engine. -/
def objF : ObjDef := { objD with served := true, persist := false, dflt := [] }
/-- The dictionary with object 0x6000 sub-index 0 as `d`. -/
def dicD (d : ObjDef) : Dic := { defs := [(0x600000, d)], restore := false }

theorem wit_Dictionary_busy :
    (dicS 4 0x6000 0 0 {}).Reaches O.DIC_CMD O.DIC_CMD ∧ (up .x 4).flag F.DIC_STAT.READY = false ∧
    (run (.dicRead 0 2) (up .x 4)).fget F.DIC_STAT.RESULT = 3 ∧
    (run (.dicCommit 0 0) (dicS 4 0x6000 0 0 { fwd := some ⟨1, 5⟩ })).fget F.DIC_STAT.ABORT = 0x0302 ∧
    (run (.dicUnknownOp 0 9 0) (dicS 4 0x6000 0 0 {})).fget F.DIC_STAT.RESULT = 3 := by decide +kernel

theorem wit_Dictionary_checks :
    (dicS 4 0x6000 0 0 {}).object (dicS 4 0x6000 0 0 {}).dicKey = .inl 0x0101 ∧
    (run (.dicRead 0 2) (dicS 4 0x6000 0 0 {})).fget F.DIC_STAT.ABORT = 0x0101 ∧
    (dicS 4 0x6000 0 0 (dicD objD)).object 0x600000 = .inr { d := objD } ∧
    (dicS 4 0x6000 0 0 (dicD objD)).dicCheck false 2 0x600000 { d := objD } 0 3 = 0x0103 ∧
    (run (.dicWrite 0 3) (dicS 4 0x6000 0 0 (dicD objD))).fget F.DIC_STAT.ABORT = 0x0103 := by decide +kernel

theorem wit_Dictionary_values :
    (dicS 4 0x6000 0 0x5678 (dicD objD)).dicCheck false 1 0x600000 { d := objD } 0 2 = 0 ∧
    (dicS 4 0x6000 0 0x5678 (dicD objD)).readVal 0x600000 { d := objD } = .inr [0x34, 0x12] ∧
    (run (.dicRead 0 2) (dicS 4 0x6000 0 0x5678 (dicD objD))).dicData 2 = [0x34, 0x12] ∧
    (dicS 4 0x6000 0 0x5678 (dicD objD)).dicCheck false 2 0x600000 { d := objD } 0 2 = 0 ∧ badValue 0x600000 objD [0x78, 0x56] = false ∧
    (run (.dicWrite 0 2) (dicS 4 0x6000 0 0x5678 (dicD objD))).dicVal 0x600000 objD = [0x78, 0x56] ∧
    (dicS 4 0x6000 0 0x5678 (dicD objD)).dicCheck false 3 0x600000 { d := objD } 0 2 = 0 ∧
    (run (.dicInfo 0 2) (dicS 4 0x6000 0 0x5678 (dicD objD))).fget F.DIC_STAT.RESULT = 1 := by decide +kernel

/-- Engine 1 serves requests. -/
def mbxL : List (Fld × Nat) := [(F.DIC_MBX.EN, 1), (F.DIC_MBX.ENGINE, 1), (F.CE_CTL.RUN 1, 1)]

theorem wit_Dictionary_served :
    (dicS 4 0x6000 0 0 (dicD objF)).object 0x600000 = .inr { d := objF } ∧
    (dicS 4 0x6000 0 0 (dicD objF)).dicCheck false 1 0x600000 { d := objF } 0 2 = 0 ∧ (dicS 4 0x6000 0 0 (dicD objF)).mbxEngine = none ∧
    (wth (dicS 4 0x6000 0 0 (dicD objF)) mbxL).mbxEngine = some 1 ∧ (wth (dicS 4 0x6000 0 0 (dicD objF)) mbxL).flag (F.CE_CTL.RUN 1) = true ∧
    (run (.dicRead 0 2) (wth (dicS 4 0x6000 0 0 (dicD objF)) mbxL)).dic.fwd = some ⟨1, 0x600000⟩ ∧
    (run (.dicRead 0 2) (wth (dicS 4 0x6000 0 0 (dicD objF)) mbxL)).mbxWord 1 0x110 = 2 ^ 31 + 2 ^ 24 + 2 ∧
    (wth (dicS 4 0x6000 0 0 (dicD objF)) [(F.DIC_MBX.EN, 1), (F.DIC_MBX.ENGINE, 1)]).mbxEngine = some 1 ∧
    (run (.dicRead 0 2) (dicS 4 0x6000 0 0 (dicD objF))).fget F.DIC_STAT.ABORT = 0x0304 := by decide +kernel

theorem wit_Dictionary_refusedValues :
    -- the safety island is off: its live objects cannot be read
    State.object { wth (dicS 4 0x5800 0 0 {}) [] with doms := [(42, { iso := true })] } 0x580000 = .inr (blockObj .x 0x5800 0) ∧
    State.readVal { wth (dicS 4 0x5800 0 0 {}) [] with doms := [(42, { iso := true })] } 0x580000 (blockObj .x 0x5800 0) = .inl 0x0303 ∧
    (run (.dicRead 0 1) { wth (dicS 4 0x5800 0 0 {}) [] with doms := [(42, { iso := true })] }).fget F.DIC_STAT.ABORT = 0x0303 ∧
    badValue 0x110500 (blockObj .x 0x1105 0).d [3] = true ∧
    (dicS 4 0x1105 0 3 {}).object 0x110500 = .inr (blockObj .x 0x1105 0) ∧
    (run (.dicWrite 0 1) (dicS 4 0x1105 0 3 {})).fget F.DIC_STAT.ABORT = 0x0105 := by decide +kernel

/-- A DEFINE header: UNSIGNED16, access 1, reach of both, SIZE 2. -/
def defW : Word := 0x23800002

theorem wit_Dictionary_define :
    (dicS 2 0x6000 0 defW {}).defineCheck 0x600000 (defOf ((dicS 2 0x6000 0 defW {}).dicData 256) 6) 0 6 = 0 ∧
    (run (.dicDefine 0 6) (dicS 2 0x6000 0 defW {})).fget F.DIC_STAT.RESULT = 1 ∧
    (dicS 2 0x6000 0 defW {}).defineCheck 0x600000 (defOf ((dicS 2 0x6000 0 defW {}).dicData 256) 3) 0 3 = 0x0103 ∧
    KMap.find? (dicD objD).defs 0x600000 = some objD ∧
    (run (.dicUndefine 0 0) (dicS 2 0x6000 0 0 (dicD objD))).dic.defs = [] ∧
    (run (.dicUndefine 0 0) (dicS 2 0x6000 0 0 {})).fget F.DIC_STAT.ABORT = 0x0101 ∧
    (run (.dicDefine 0 6) (dicS 4 0x6000 0 defW {})).fget F.DIC_STAT.ABORT = 0x0301 := by decide +kernel

theorem wit_Dictionary_take :
    (dicS 6 0x1105 0 0 {}).mode = 6 ∧ (run (.dicTake 0 0) (dicS 6 0x1105 0 0 {})).dicOwner = 1 ∧
    (run (.dicTake 0 0) (dicS 4 0x1105 0 0 {})).fget F.DIC_STAT.ABORT = 0x0301 := by decide +kernel

/-- A commit of nothing to slot 0 runs. -/
def cmtS (m : Nat) : State := dicS m 0x6000 0 0 { dicD objD with commit := some ⟨0, 1, [], [0x600000]⟩ }

theorem wit_Dictionary_storeBytes : ((dicS 4 0x6000 0 0 (dicD objD)).storeBytes []).length ≤ 65472 := by decide +kernel

theorem wit_Dictionary_commit :
    (dicS 4 0x6000 0 0 (dicD objD)).dic.commit = none ∧
    (cmtS 4).dic.commit.isSome = true ∧ (run (.dicCommit 0 0) (cmtS 4)).dic.queued = true := by decide +kernel

theorem wit_Dictionary_restoreDefaults :
    (cmtS 2).mode = 2 ∧ (cmtS 2).dic.commit.isSome = true ∧ (cmtS 2).dic.fwd = none ∧ (cmtS 2).flag F.DIC_STAT.READY = true ∧
    (dicS 2 0x6000 0 0 (dicD objD)).dic.commit = none := by decide +kernel

/-- More than a slot holds: 17 domains of 4,096 bytes. -/
def bigD : Dic :=
  { restore := false, defs := (List.range 17).map fun i => (0x600000 + i, { objD with typ := 13, size := 4096, dflt := List.replicate 4096 0 }) }

/-- Engine 1 is the mailbox, its request word `w`, and DIC in READY `r`. -/
def mbxS (m r : Nat) (w : List Byte) (d : Dic) : State :=
  let s := wth (dicS m 0x6000 0 0 d) (mbxL ++ [(F.DIC_STAT.READY, r)])
  s.eput 1 (s.mbxAt 0) w

/-- A READ of 2 bytes of 0x6000 from the network. -/
def mbxR : List Byte := natLe 4 (2 ^ 31 + 2 ^ 24 + 2) ++ natLe 4 (0x6000 * 2 ^ 16)

theorem wit_Mailbox_request :
    (mbxS 4 1 mbxR (dicD objD)).mbxEngine = some 1 ∧ (mbxS 4 1 mbxR (dicD objD)).mbxWord 1 0 = 2 ^ 31 + 2 ^ 24 + 2 ∧
    (run .mailboxRequest (mbxS 4 1 mbxR (dicD objD))).mbxWord 1 0xC = 2 ^ 31 + 2 * 2 ^ 16 ∧
    (run .mailboxRequest (mbxS 4 1 mbxR (dicD objD))).ebytes 1 ((mbxS 4 1 mbxR (dicD objD)).mbxAt 0x10) 2 = [0x34, 0x12] ∧
    (run .mailboxRequest (mbxS 1 1 mbxR (dicD objD))).mbxWord 1 0xC = 2 ^ 31 + 0x0301 ∧
    (run .mailboxRequest (mbxS 4 0 mbxR (dicD objD))).mbxWord 1 0xC = 2 ^ 31 + 0x0302 ∧
    (mbxS 4 1 [0, 0, 0, 0x7F] (dicD objD)).mbxWord 1 0 < 2 ^ 31 ∧ (up .x 4).mbxEngine = none := by decide +kernel

theorem wit_Mailbox_waits :
    (run .mailboxRequest (mbxS 4 1 mbxR { dicD objD with fwd := some ⟨1, 5⟩ })).dic.mbxWait = true ∧
    (run .mailboxRequest (mbxS 4 1 mbxR { dicD objD with fwd := some ⟨1, 5⟩, mbxWait := true })).mbxWord 1 0xC = 2 ^ 31 + 0x0302 := by
  decide +kernel

/-- A forwarded READ waits; the answer word is `w`. -/
def fwdS (w : Nat) : State :=
  let s := wth (dicS 4 0x6000 0 0 { dicD objF with fwd := some ⟨1, 0x600000⟩ }) (mbxL ++ [(F.DIC_STAT.BUSY, 1)])
  s.eput 1 (s.mbxAt 0x11C) (natLe 4 w)

theorem wit_Mailbox_forward :
    (fwdS (2 ^ 31)).dic.fwd = some ⟨1, 0x600000⟩ ∧ (fwdS (2 ^ 31)).mbxEngine = some 1 ∧ (fwdS (2 ^ 31)).mbxWord 1 0x11C = 2 ^ 31 ∧
    (fwdS 5).mbxWord 1 0x11C < 2 ^ 31 ∧ (run .mailboxFwdResponse (fwdS (2 ^ 31))).fget F.DIC_STAT.RESULT = 1 ∧
    (run .mailboxFwdResponse (fwdS (2 ^ 31 + 0x0105))).fget F.DIC_STAT.ABORT = 0x0105 ∧
    (run .fwdTimeout (fwdS 0)).fget F.DIC_STAT.ABORT = 0x0304 := by decide +kernel

theorem wit_Mailbox_forwardWaits :
    (State.setDic (fwdS (2 ^ 31)) { (fwdS (2 ^ 31)).dic with mbxWait := true }).dic.mbxWait = true ∧
    (run .mailboxFwdResponse (State.setDic (fwdS (2 ^ 31)) { (fwdS (2 ^ 31)).dic with mbxWait := true })).dic.mbxWait = false := by
  decide +kernel

theorem wit_Store_commit :
    (wth (dicS 4 0x6000 0 0 (dicD objD)) [(F.DIC_CFG.AUTO, 1), (F.DIC_STAT.DIRTY, 1)]).flag F.DIC_CFG.AUTO = true ∧
    (wth (dicS 4 0x6000 0 0 (dicD objD)) [(F.DIC_CFG.AUTO, 1), (F.DIC_STAT.DIRTY, 1)]).flag F.DIC_STAT.DIRTY = true ∧
    (cmtS 4).dic.commit = some ⟨0, 1, [], [0x600000]⟩ ∧ (cmtS 4).gasp = none ∧ (cmtS 4).dic.queued = false ∧
    (run (.storeCommitDone true []) (cmtS 4)).flag F.DIC_STAT.STORE_FAIL = true ∧
    ({ cmtS 4 with dic := { (cmtS 4).dic with queued := true } } : State).dic.queued = true ∧
    (wth (cmtS 4) [(F.DIC_CFG.AUTO, 1), (F.DIC_STAT.DIRTY, 1)]).dic.commit.isSome = true ∧
    (run .autoCommitTimer (wth (cmtS 4) [(F.DIC_CFG.AUTO, 1), (F.DIC_STAT.DIRTY, 1)])).dic.queued = true ∧
    (wth (dicS 4 0x6000 0 0 (dicD objD)) [(F.DIC_CFG.AUTO, 0)]).flag F.DIC_CFG.AUTO = false := by decide +kernel

theorem wit_Store_restore :
    (dicS 1 0 0 0 {}).dic.restore = true ∧ (dicS 1 0 0 0 {}).rst.blk = false ∧ (dicS 1 0 0 0 {}).domOn 1 = true ∧
    (dicS 1 0 0 0 {}).newest = none ∧
    (dicS 1 0 0 0 { slotB := { magic := 0x44575331, commit := 0xA5C30001, seq := 7 } }).newest = some 1 := by decide +kernel

theorem wit_SlavePort_access :
    portAccess .x (.dmaCqHeadWrite 7 0) = some (7, O.DMA_CQ_IDX) ∧ portAccess .x (.dmaCqHeadWrite 0 0) = some (0, O.DMA_CQ_IDX) ∧
    (up .x 4).domOn 1 = true ∧ (run (.dmaCqHeadWrite 7 0) (up .x 4)).slv = some ⟨true, 0⟩ ∧
    portAccess .x (.fltLogRead 0 33) = some (0, O.FLT_LOG 1) ∧ (up .x 4).islandUp O.DMA_CQ_IDX = true ∧
    (run (.bankRelease 0 0) ({ up .x 4 with doms := [(1, { iso := true })] } : State)).slv = some ⟨true, 0⟩ := by decide +kernel

theorem wit_SlavePort_refusal :
    ((up .x 4).logRefusal 7 0x40).rd64 O.FLT_CNT = 1 ∧ (up .x 4).flt.refusal = none ∧ (up .x 4).logSlot = some 0 ∧
    ((up .x 4).logRefusal 7 0x40).rd (logWord 0 1) = 0x40 ∧
    (((up .x 4).logRefusal 7 0x40).logRefusal 7 0x40).rd64 O.FLT_CNT = 2 ∧
    (((up .x 4).logRefusal 7 0x40).logRefusal 7 0x40).flt.seq = ((up .x 4).logRefusal 7 0x40).flt.seq := by decide +kernel

theorem wit_SlavePort_size :
    (run (.registerWrite 0 0xFF000 3 5) (up .x 4)).slv = some ⟨true, 0⟩ ∧ (run (.counterLatchRead 0 0xFF002 4) (up .x 4)).slv = some ⟨true, 0⟩ ∧
    keyOf .x 0xFFFFC = none ∧ (run (.registerWrite 0 0xFFFFC 4 5) (up .x 4)).slv = some ⟨true, 0⟩ ∧
    (run (.counterLatchRead 9 0 4) (up .x 4)).rd64 O.FLT_CNT = 1 := by decide +kernel

theorem wit_SlavePort_fields :
    (up .x 4).Reaches O.BLK_ID O.BLK_ID ∧ (run (.registerWrite 0 O.BLK_ID 4 0) (up .x 4)).rd O.BLK_ID = 0x6A170312 ∧
    (up .x 4).Reaches O.FLT_ESC O.FLT_ESC ∧ (run (.registerWrite 0 O.FLT_ESC 4 0x1F) (up .x 4)).rd O.FLT_ESC = 0x1F ∧
    (run (.counterLatchRead 0 O.BLK_ID 4) (up .x 4)).slv = some ⟨false, 0x6A170312⟩ ∧
    (run (.registerWrite 0 O.FLT_ESC 1 0x1F) (up .x 4)).slv = some ⟨true, 0⟩ ∧
    (up .x 4).Reaches O.PWR_STAT O.PWR_STAT ∧
    (run (.registerWrite 0 O.PWR_STAT 4 0x10000000) (wth (up .x 4) [(F.PWR_STAT.ABORTED, 1)])).flag F.PWR_STAT.ABORTED = false ∧
    (up .x 2).Reaches O.TRK_GEAR_CUR O.TRK_GEAR_CUR ∧ (run (.registerWrite 0 O.TRK_GEAR_CUR 4 7) (up .x 2)).fget F.TRK_GEAR_CUR.CUR = 7 ∧
    (run (.registerWrite 0 O.TRK_GEAR_CUR 4 7) (up .x 4)).slv = some ⟨true, 0⟩ := by decide +kernel

/-- The register BLK_HALF is one word, writable and not byte-writable; PRS_LOAD_ADDR has two. -/
theorem wit_SlavePort_written :
    (up .x 4).Reaches O.BLK_HALF O.BLK_HALF ∧ ((hitOf .x O.BLK_HALF).any fun h => !isStaged h && !h.row.byteWr) = true ∧
    clearedBy O.BLK_HALF = none ∧ (up .x 4).tbStopped O.BLK_HALF = false ∧ isCounter O.BLK_HALF = false ∧ latchedWord O.BLK_HALF = none ∧
    (run (.registerWrite 0 O.BLK_HALF 4 0x20) (up .x 4)).rd O.BLK_HALF = ((up .x 4).writtenWord O.BLK_HALF 0x20).1 ∧
    (run (.registerWrite 0 O.BLK_HALF 2 0x20) (up .x 4)).slv = some ⟨true, 0⟩ ∧
    (run (.counterLatchRead 0 (O.BLK_ID + 3) 1) (up .x 4)).slv = some ⟨false, 0x6A⟩ ∧
    isCounter (O.MEM_CNT 3) = true ∧ (up .x 4).followCnt (O.MEM_CNT 3) = false ∧ O.MEM_CNT 3 % 8 = 0 ∧
    (up .x 4).Reaches (O.MEM_CNT 3) (O.MEM_CNT 3) ∧ (up .x 4).Reaches O.PRS_LOAD_ADDR O.PRS_LOAD_ADDR ∧
    (up .x 4).Reaches (O.PRS_LOAD_ADDR + 4) (O.PRS_LOAD_ADDR + 4) ∧
    (run (.registerWrite 0 O.PRS_LOAD_ADDR 8 0x123FFFFFFFF) (up .x 4)).rd64 O.PRS_LOAD_ADDR = 0x123FFFFFFE0 := by decide +kernel

/-- Engine 11 may be written through its window, or not: its thread 3 is faulted. -/
def winS (st : Nat) : State := wth (up .x 4) [(F.CE_THR_STAT.STATE 11 3, st)]

theorem wit_SlavePort_engine :
    (winS 0).ememOpen 11 = true ∧ (winS 4).ememOpen 11 = false ∧ (winS 0).islandUp (0x400000 + 0x40000 * 11 + 0x10002) = true ∧
    ememEnd 0x10002 true = some 0x28400 ∧
    (run (.registerWrite 0 (0x400000 + 0x40000 * 11 + 0x10002) 2 0xABCD) (winS 0)).ebytes 11 0x10002 2 = [0xCD, 0xAB] ∧
    (run (.registerWrite 0 (0x400000 + 0x40000 * 11 + 0x10002) 2 0xABCD) (winS 4)).slv = some ⟨true, 0⟩ ∧
    (run (.counterLatchRead 0 (0x400000 + 0x40000 * 11 + 0x10000) 4)
      (run (.registerWrite 0 (0x400000 + 0x40000 * 11 + 0x10002) 2 0xABCD) (winS 0))).slv = some ⟨false, 0xABCD0000⟩ := by decide +kernel

/-- Queue pair 5 of function 0. -/
def winQ : State := { up .x 4 with qps := [(5, { en := true, txL := 4 })] }

theorem wit_SlavePort_doorbells :
    getBits (1 : Word) 30 2 = 0 ∧ getBits (0x40000001 : Word) 30 2 = 1 ∧ getBits (0x80000001 : Word) 30 2 = 2 ∧
    ((run (.registerWrite 0 0x100500 4 1) winQ).qp 5).txTail = 1 ∧
    KMap.get 0 ((run (.registerWrite 0 0x10059C 4 9) winQ).qp 5).slots 31 = 9 := by decide +kernel

theorem wit_SlavePort_latch :
    (up .x 4).Reaches O.FLT_CNT O.FLT_CNT ∧ (up .x 4).Reaches (O.FLT_CNT + 4) (O.FLT_CNT + 4) ∧
    KMap.find? (run (.counterLatchRead 0 O.FLT_CNT 4) ((up .x 4).wr64 O.FLT_CNT 0x500000006)).hold (O.FLT_CNT + 4) = some 5 ∧
    (run (.counterLatchRead 0 (O.FLT_CNT + 4) 4) { up .x 4 with hold := [(O.FLT_CNT + 4, 9)] }).slv = some ⟨false, 9⟩ ∧
    (run (.counterLatchRead 0 O.FLT_CNT 8) ((up .x 4).wr64 O.FLT_CNT 0x500000006)).slv = some ⟨false, 0x500000006⟩ := by decide +kernel

theorem wit_SlavePort_clear :
    keyOf .x O.PWR_STAT = some O.PWR_STAT ∧ (run (.readTimeout O.PWR_STAT) (up .x 4)).slv = none ∧
    (run (.readTimeout O.MEM_CNT_CLR) (up .x 4)).slv = some ⟨true, 0⟩ ∧
    (up .x 4).Reaches O.MEM_CNT_CLR O.MEM_CNT_CLR ∧ (up .x 4).Reaches 0x011038 0x011038 ∧
    (run (.counterClear 0 O.MEM_CNT_CLR) ((up .x 4).wr64 (O.MEM_CNT 9) 5)).rd64 (O.MEM_CNT 9) = 0 ∧
    (run (.counterClear 0 0x011038) ((up .x 4).wr64 0x011300 5)).rd64 0x011300 = 0 := by decide +kernel

theorem wit_Watchdog :
    (up .x 4).Reaches O.FLT_WDOG O.FLT_WDOG ∧ (run (.watchdogKick 0 0x800FFFFF) (up .x 4)).flt.wdog = true ∧
    (run (.watchdogKick 0 0x800FFFFF) (up .x 4)).fget F.FLT_WDOG.LIMIT_US = 0xFFFFF ∧ (run (.watchdogKick 0 0x80000001) (up .x 6)).flt.wdog = false ∧
    ({ up .x 4 with flt := { wdog := true } } : State).flt.wdog = true ∧
    (run .watchdogExpiry { up .x 4 with flt := { wdog := true } }).mode = 6 ∧
    (run .watchdogExpiry { up .x 4 with flt := { wdog := true } }).flt.seq = 1 ∧
    (run .watchdogExpiry { up .x 4 with flt := { wdog := true } }).fget F.BLK_MODE.SH_CAUSE = 3 := by decide +kernel

/-- Entry 31 is active with code `c` and index 1; the clock of port 1 is lost or not. -/
def fltS (c : Nat) (lost : Bool) : State :=
  { (up .x 4).wr (logWord 31 0) (BitVec.ofNat 32 (2 ^ 31 + 2 ^ 29 + c * 2 ^ 16 + 1)) with ports := if lost then [(1, { rxLost := true })] else [] }

theorem wit_FaultLog :
    (fltS 0x10 true).Reaches O.FLT_CLEAR O.FLT_CLEAR ∧ (fltS 0x10 true).logActive 31 = true ∧ (fltS 0x10 true).logActive 30 = false ∧
    (run (.faultClear 0 30) (fltS 0x10 true)).fget F.FLT_CLEAR.RESULT = 3 ∧ (run (.faultClear 0 31) (fltS 0x10 true)).fget F.FLT_CLEAR.RESULT = 2 ∧
    (run (.faultClear 0 31) (fltS 0x10 false)).fget F.FLT_CLEAR.RESULT = 1 ∧ (run (.faultClear 0 31) (fltS 0x80 false)).logActive 31 = true ∧
    (up .x 4).Reaches (O.FLT_LOG 31) (O.FLT_LOG 31) := by decide +kernel

/-- The reset input of half A is asserted, or not. -/
def hrS (c : Cfg) (m : Nat) (a : Bool) : State := { up c m with rst := { a := a } }

theorem wit_Resets_block :
    (run (.blkRstNAssert 0) (up .x 4)).mode = 0 ∧ ({ up .x 0 with rst := { blk := true } } : State).rst.blk = true ∧
    (up .x 0).domOn 1 = true ∧ (run .blkRstNRelease { up .x 0 with rst := { blk := true } }).mode = 1 ∧
    (up .x 4).homeDom O.MEM_PP_CFG ≠ 0 ∧ (up .x 4).homeDom O.MEM_PP_CFG ≠ 42 := by decide +kernel

theorem wit_Resets_safe :
    (up .x 4).homeDom O.CHK_SEAL = 42 ∧ (run (.safeRstNAssert false) (wth (up .x 4) [(F.CHK_SEAL.SEALED, 1)])).flag F.CHK_SEAL.SEALED = false ∧
    (run (.safeRstNAssert true) { up .x 4 with rst := { safe := true } }).rst.safe = false := by decide +kernel

theorem wit_Resets_half :
    (up .s 4).halfInReset 0 = false ∧ (run (.halfResetAssert 0) (up .s 4)).fget F.BLK_MODE.SH_CAUSE = 6 ∧
    (up .x 4).halfInReset 1 = false ∧
    ((run (.halfResetAssert 1) (up .x 4)).half 1).half.up = false := by decide +kernel

theorem wit_Resets_release :
    (hrS .x 4 true).halfInReset 0 = true ∧ ((run (.halfResetRelease 0) (hrS .x 4 true)).half 0).copyTables = true ∧
    (hrS .s 4 true).mode = 4 ∧ (run (.halfResetRelease 0) (hrS .s 4 true)).hmode 0 = 4 := by decide +kernel

theorem wit_Resets_supply :
    (run .aonPowerOn (up .x 4)).mem.key = some 0 ∧
    ({ up .x 4 with dic := { commit := some ⟨1, 5, [], []⟩ } } : State).dic.commit = some ⟨1, 5, [], []⟩ ∧
    ((run (.supplyCollapse 6 0 0) { up .x 4 with dic := { commit := some ⟨1, 5, [], []⟩ } }).slotOf 1).seq = 5 ∧
    ((run (.supplyCollapse 2 0xFFFFFFFF 0) { up .x 4 with dic := { commit := some ⟨1, 5, [], []⟩, slotB := { commit := 7 } } }).slotOf 1).commit = 0 ∧
    (run (.supplyCollapse 0 0 0) (up .x 4)).frames = [] := by decide +kernel

theorem wit_Resets_gasp :
    (up .x 4).gasp = none ∧ 17 ∈ (run .pwrFailWarn (up .x 4)).latches ∧
    ({ up .x 4 with gasp := some {} } : State).gasp.isSome = true ∧
    ({ up .x 4 with rst := { blk := true } } : State).rst.blk = true := by decide +kernel

theorem wit_Modes_taken :
    (up .x 3).Reaches O.BLK_MODE O.BLK_MODE ∧ (up .x 3).req = none ∧ (run (.modeReqConfig 0 false false) (up .x 3)).mode = 2 ∧
    (wth (up .x 1) [(F.BLK_MODE.BIST_DONE, 1)]).flag F.BLK_MODE.BIST_DONE = true ∧ (up .x 6).containFree = true ∧
    (run (.modeReqSafehold 0 false false) (up .x 3)).fget F.BLK_MODE.SH_CAUSE = 1 := by decide +kernel

/-- Ready to integrate: a course, a set time and a gear that is valid. -/
def intS : State := { wth (up .x 2) [(tbFld F.TB_STAT.SET_DONE 0, 1)] with cls := { courses := [⟨0, 0, 0, 0, 0, 0, false⟩] } }

theorem wit_Modes_integrate :
    intS.anyCourse intS.leader = true ∧ intS.leader = 0 ∧ intS.flag (tbFld F.TB_STAT.SET_DONE 0) = true ∧
    (∀ n ∈ intS.cellTrunks, intS.fget (F.TRK_GEAR.VALID n) / 2 ^ intS.gearOfHalf 0 % 2 = 1) ∧ (∀ p, p < 8 → intS.gated p = false) ∧ (run (.modeReqIntegrate 0 false false) intS).mode = 3 := by decide +kernel

/-- Every domain above SPINE and the halves is asked to leave ON. -/
def dormS : State := wth (up .x 2) (((domList .x).filter fun d => decide (3 < d)).map fun d => (F.PWR_DOM.TARGET d, 1))

theorem wit_Modes_dormant : dormS.mode = 2 ∧ (∀ d ∈ domList dormS.cfg, 3 < d → dormS.target d ≠ 0) ∧
    (run (.modeReqDormant 0 false false) dormS).mode = 7 := by decide +kernel

theorem wit_Modes_refused :
    ¬ ((up .x 1).mode = 2 ∨ (up .x 1).mode = 6) ∧ (run (.modeReqDormant 0 false false) (up .x 1)).flag F.BLK_MODE.REQ_ERR = true ∧
    (run (.modeReqOtherTarget 0 5 false false) (up .x 4)).flag F.BLK_MODE.REQ_ERR = true ∧
    ({ up .x 4 with req := some ⟨2⟩ } : State).req.isSome = true ∧
    (run (.modeReqConfig 0 false true) { up .x 4 with req := some ⟨2⟩ }).flag F.BLK_MODE.REQ_ERR = true ∧
    (run (.modeReqConfig 0 false true) (up .x 4)).flag F.BLK_MODE.REQ_PEND = true := by decide +kernel

theorem wit_Modes_pending :
    ({ up .x 4 with req := some ⟨6⟩ } : State).req = some ⟨6⟩ ∧ (run .modeReqPendingCheck { up .x 4 with req := some ⟨6⟩ }).mode = 6 ∧
    (run .modeReqPendingCheck { up .x 7 with req := some ⟨6⟩ }).flag F.BLK_MODE.REQ_ERR = true := by decide +kernel

theorem wit_Modes_bist :
    (up .x 1).mode = 1 ∧ (up .x 1).flag F.BLK_MODE.BIST_DONE = false ∧ (up .x 1).bankOn 0 = true ∧
    ((run (.bistDone [5]) (up .x 1)).gran 5).state = 3 ∧ (run (.bistDone [5]) (up .x 1)).flag F.BLK_MODE.BIST_FAIL = true := by decide +kernel

theorem wit_Modes_operate :
    (up .x 3).cellTrunks = [] ∧ (up .x 3).hmode 0 ≠ 6 ∧ (up .x 3).hmode 1 ≠ 6 ∧ (run .enterOperate (up .x 3)).mode = 4 ∧
    (run .enterOperate (wth (up .x 3) [(F.BLK_MODE.HALF_LOST, 1)])).mode = 5 := by decide +kernel

/-- Half 0 has its link to the other half down, with `n` heartbeats counted. -/
def linkS (n : Nat) : State := { up .x 4 with halves := [(0, { half := { up := false, run := n }, spine := { run := 1 } })] }

theorem wit_Halves_heartbeat :
    (linkS 2).halfInReset 0 = false ∧ (linkS 2).domOn 2 = true ∧ ((run (.heartbeatSend 0) (linkS 2)).half 0).sent = 1 ∧
    ((linkS 2).half 0).half.up = false ∧ ((linkS 2).half 1).half.up = true ∧
    ((run (.heartbeatReceive false 0) (linkS 2)).half 0).half.up = true ∧ ((run (.heartbeatReceive false 0) (linkS 1)).half 0).half.up = false ∧
    (run (.heartbeatReceive false 0) (linkS 2)).settle = true ∧ ((run (.heartbeatReceive true 0) (linkS 1)).half 0).spine.run = 2 ∧
    ((run (.linkGlitch 0 true) (linkS 1)).half 0).spine.run = 0 := by decide +kernel

theorem wit_Halves_loss :
    ((up .x 4).half 1).half.up = true ∧ (run (.linkGlitch 1 false) (up .x 4)).flag F.BLK_HALF.LINK_GLITCH = true ∧
    (wth (up .x 4) [(claimFld 0, 1), (claimFld 1, 0)]).claims 0 = true ∧ (wth (up .x 4) [(claimFld 0, 1), (claimFld 1, 0)]).claims 1 = false ∧
    (run (.halfLinkLoss 0) (wth (up .x 4) [(claimFld 0, 1), (claimFld 1, 0)])).hmode 0 = 5 ∧
    (wth (up .x 4) [(F.BLK_HALF.STANDBY_LEAD, 1), (claimFld 1, 0)]).flag F.BLK_HALF.STANDBY_LEAD = true ∧
    (run (.halfLinkLoss 1) (wth (up .x 4) [(F.BLK_HALF.STANDBY_LEAD, 1), (claimFld 1, 0)])).leader = 1 ∧
    (run (.halfLinkLoss 1) (wth (up .x 4) [(F.BLK_HALF.STANDBY_LEAD, 0), (claimFld 1, 0)])).hmode 1 = 6 := by decide +kernel

/-- The link has come up; the claims are `a` and `b`, the epochs 3 and 4. -/
def setlS (a b : Nat) : State :=
  { wth (up .x 4) [(claimFld 0, a), (claimFld 1, b)] with settle := true, halves := [(0, { epoch := 3 }), (1, { epoch := 4 })] }

theorem wit_Halves_settlement :
    (setlS 1 1).settle = true ∧ (setlS 1 1).linked = true ∧ (setlS 1 1).claims 0 = true ∧ (setlS 1 1).claims 1 = true ∧
    (run .leaderSettlement (setlS 1 1)).leader = 1 ∧ (setlS 0 0).claims 0 = false ∧ (setlS 0 0).claims 1 = false ∧
    (run .leaderSettlement (setlS 0 0)).fget F.BLK_HALF.EPOCH = 5 ∧ (run .leaderSettlement (setlS 1 0)).leader = 0 := by decide +kernel

/-- Half 1 has still to copy. -/
def cpyS : State := { up .x 4 with halves := [(1, { copyState := true, copyTables := true, admStop := true })] }

theorem wit_Halves_copies :
    cpyS.linked = true ∧ cpyS.settle = false ∧ cpyS.halfInReset 1 = false ∧ (cpyS.half 1).copyState = true ∧
    ((run (.stateCopyDone 1) cpyS).half 1).copyState = false ∧ ((run (.tableCopyDone 1) cpyS).half 1).admStop = false ∧
    cpyS.flag F.BLK_MODE.HALF_LOST = false := by decide +kernel

theorem wit_Halves_clocks :
    ((up .s 4).half 0).spine.up = true ∧ (run (.spineLinkLoss 0) (up .s 4)).fget F.BLK_MODE.SH_CAUSE = 6 ∧
    (wth (up .x 4) [(F.TRK_CFG.EN 1, 1)]).flag (F.TRK_CFG.EN 1) = true ∧ (up .x 4).domOn 17 = true ∧ (up .x 4).flag F.FLT_ESC.TR_CLK = false ∧
    ((run (.clockLoss true 1 false) (wth (up .x 4) [(F.TRK_CFG.EN 1, 1)])).trunk 1).lost false = true ∧
    (wth (up .x 4) [(F.MAC_CTL.EN_RX 7, 1)]).flag (F.MAC_CTL.EN_RX 7) = true ∧ (up .x 4).flag F.FLT_ESC.FP_CLK = false ∧
    (run (.clockLoss false 7 true) (wth (up .x 4) [(F.MAC_CTL.EN_RX 7, 1)])).flag (F.MAC_STAT.CLK_LOSS 7) = true ∧
    ((up .x 4).trunk 1).lost false = false ∧ ((up .x 4).port 7).lost true = false ∧
    (run (.clockLoss true 1 false) (wth (up .x 4) [(F.TRK_CFG.EN 1, 1), (F.FLT_ESC.TR_CLK, 1)])).mode = 6 ∧
    ((run (.clockReturn true 1 false) { up .x 4 with trunks := [(1, { rxLost := true, txLost := true })] }).trunk 1).lost true = true ∧
    ((run (.clockReturn false 7 true) { up .x 4 with ports := [(7, { rxLost := true, txLost := true })] }).port 7).lost false = true := by
  decide +kernel

theorem wit_StepTakesFront :
    (State.reset.setPending [.heartbeatSend 0, .linkGlitch 1 false]).pending = .heartbeatSend 0 :: [.linkGlitch 1 false] ∧
    State.reset.pending = [] ∧
    (match step (State.reset.setPending [.heartbeatSend 0, .linkGlitch 1 false]) with
      | .next t => t.pending == [.linkGlitch 1 false]
      | _ => false) = true := by decide +kernel

theorem wit_ResetState_invariant : State.reset.Inv :=
  ⟨show KMap.wf (resetWord State.reset.cfg) State.reset.regs = true by decide +kernel, by decide +kernel⟩

theorem wit_StepKeepsInvariant :
    (up .x 4).Inv ∧ (match step (up .x 4) with | .next t => t.ticks == 1 | _ => false) = true :=
  ⟨⟨show KMap.wf (resetWord (up .x 4).cfg) (up .x 4).regs = true by decide +kernel, by decide +kernel⟩, by decide +kernel⟩

/-! ### Ill-formed commands, one for each kind of check of WellFormed -/

theorem illFormed_block :
    (Instr.halfResetAssert 2).wf = false ∧ (Instr.modeReqConfig 256 false false).wf = false ∧
    (Instr.registerWrite 0 0x1000000 4 0).wf = false ∧ (Instr.readTimeout 0x1000000).wf = false ∧ (Instr.clockLoss true 8 false).wf = false ∧
    (Instr.tbSetWrite 0 2 0).wf = false ∧ (Instr.captureEdge 16 false false).wf = false ∧ (Instr.triggerRise 32).wf = false ∧
    (Instr.cycleBoundary 8).wf = false := by decide +kernel

theorem illFormed_units :
    (Instr.pauseTimerExpiry 10 0).wf = false ∧ (Instr.backoffExpiry 8).wf = false ∧ (Instr.pmaLockChange 2 false).wf = false ∧
    (Instr.courseRetire 16).wf = false ∧ (Instr.eventWaitComplete 12 0).wf = false ∧ (Instr.eventWaitComplete 0 8).wf = false ∧
    (Instr.completionWrite 4096 false).wf = false ∧ (Instr.query 256 [] false).wf = false ∧ (Instr.dmaFenceDone 32).wf = false ∧
    (Instr.chkRunEnd 4).wf = false ∧ (Instr.vecAck 8 false).wf = false ∧ (Instr.irqSetpendWrite 0 32 0).wf = false ∧
    (Instr.pswAckRise 43).wf = false ∧ (Instr.wakeEvent 6 0 0 false).wf = false ∧ (Instr.dicUnknownOp 0 16 0).wf = false ∧
    (Instr.fltLogRead 0 32).wf = false := by decide +kernel

theorem wellFormed_edges :
    (Instr.halfResetAssert 1).wf = true ∧ (Instr.completionWrite 4095 false).wf = true ∧ (Instr.pswAckRise 42).wf = true ∧
    (Instr.registerWrite 255 0xFFFFFF 1 0).wf = true ∧ (Instr.eventWaitComplete 11 7).wf = true := by decide +kernel

end Sys2Proof.Tests
end

namespace Sys2Proof.Machine

/-! ## Resets and power: what the resets and the supply leave in a field of the block's own registers

The clauses of ResetsAndSupply ask for single fields (the mode, its copies, the claims, GASP_DONE) after operations that
empty whole units. The field lemmas say, operation by operation, that emptying a unit touches none of them; the areas a
`Keeps` lemma lists answer for the pieces of the state beside the registers. -/

/-- A field of the block's own registers (01_block_and_halves.md) beside BLK_MODE.PROT, or of PWR_STAT: what the ring
protection and Signal Fail leave alone. -/
structure Fld.Spared (g : Fld) : Prop where
  place : g.off < 0x010000 ∨ g.off = O.PWR_STAT
  beside : g.off ≠ O.BLK_MODE ∨ g.lo + g.wd ≤ 12 ∨ 13 ≤ g.lo

/-- A field of the block's own registers (01_block_and_halves.md) beside BLK_MODE.PROT: what the units leave alone. -/
structure Fld.Block (g : Fld) : Prop where
  low : g.off < 0x010000
  beside : g.off ≠ O.BLK_MODE ∨ g.lo + g.wd ≤ 12 ∨ 13 ≤ g.lo

theorem Fld.Spared.off_ne {g : Fld} (h : g.Spared) {k : Nat} (hk : 0x010000 ≤ k) (hp : k ≠ O.PWR_STAT) : g.off ≠ k := by
  obtain hl | hl := h.place <;> omega

theorem Fld.Block.spared {g : Fld} (h : g.Block) : g.Spared := ⟨.inl h.low, h.beside⟩

theorem Keeps.fget {ar : List Area} {s t : State} (h : Keeps ar s t) (hr : Area.regs ∉ ar) (hc : Area.cfg ∉ ar) (g : Fld) :
    t.fget g = s.fget g := State.fget_congr (h.1 .cfg hc) (h.1 .regs hr) g

section
variable {g : Fld}

/-! ### The ring protection and Signal Fail -/

@[simp] theorem State.fget_ite (c : Prop) [Decidable c] (s t : State) (f : Fld) :
    (if c then s else t).fget f = if c then s.fget f else t.fget f := by split <;> rfl

/-- Changes along a list that each leave a field leave it. -/
theorem State.fget_forEach_mem {α : Type} {l : List α} {f : α → State → State} (s : State)
    (hf : ∀ a ∈ l, ∀ u, (f a u).fget g = u.fget g) : (forEach l f s).fget g = s.fget g := by
  unfold forEach
  induction l generalizing s with
  | nil => rfl
  | cons a r ih =>
    exact (ih _ fun b hb => hf b (List.mem_cons_of_mem a hb)).trans (hf a List.mem_cons_self s)

@[simp] theorem State.fget_forEach {α : Type} {l : List α} {f : α → State → State} (s : State)
    (hf : ∀ a u, (f a u).fget g = u.fget g) : (forEach l f s).fget g = s.fget g :=
  State.fget_forEach_mem s fun a _ => hf a

/-- The ring protection writes PROT, two status words of the trunks and the classifier's flush. -/
@[simp] theorem State.fget_fset_prot (hg : g.Spared) (s : State) (v : Nat) : (s.fset F.BLK_MODE.PROT v).fget g = s.fget g :=
  s.fget_fset_ne _ g v (hg.beside.imp id Or.symm)

@[simp] theorem State.fget_fset_protStat (hg : g.Spared) (s : State) (t lo wd v : Nat) :
    (s.fset ⟨O.TRK_PROT_STAT t, lo, wd⟩ v).fget g = s.fget g := by
  refine s.fget_fset_ne _ g v (.inl (hg.off_ne ?_ ?_)) <;> simp only [O.TRK_PROT_STAT, O.PWR_STAT] <;> omega

@[simp] theorem State.fget_fset_ringStat (hg : g.Spared) (s : State) (lo wd v : Nat) :
    (s.fset ⟨O.TRK_RING_STAT, lo, wd⟩ v).fget g = s.fget g := by
  refine s.fget_fset_ne _ g v (.inl (hg.off_ne ?_ ?_)) <;> simp only [O.TRK_RING_STAT, O.PWR_STAT] <;> omega

@[simp] theorem State.fget_fset_flush (hg : g.Spared) (s : State) (lo wd v : Nat) :
    (s.fset ⟨O.CLS_FLUSH, lo, wd⟩ v).fget g = s.fget g := by
  refine s.fget_fset_ne _ g v (.inl (hg.off_ne ?_ ?_)) <;> simp only [O.CLS_FLUSH, O.PWR_STAT] <;> omega

@[simp] theorem State.fget_queueUrgent (s : State) (t : Nat) (u : Urgent) (g : Fld) : (s.queueUrgent t u).fget g = s.fget g :=
  (State.queueUrgent_keeps (Keeps.refl (ar := [.trunks]) s) t u (Allows.refl _)).fget (by decide) (by decide) g

@[simp] theorem State.fget_updatePair (hg : g.Spared) (s : State) (t : Nat) : (s.updatePair t).fget g = s.fget g := by
  simp [State.updatePair, hg, F.TRK_PROT_STAT.TX_CODE, F.TRK_PROT_STAT.TX_ORIG]

@[simp] theorem State.fget_updatePairs (hg : g.Spared) (s : State) : s.updatePairs.fget g = s.fget g := by
  simp [State.updatePairs, hg, F.TRK_PROT_STAT.LOCAL_CODE]

@[simp] theorem State.fget_flushGen (hg : g.Spared) (s : State) (k : Nat) : (s.flushGen k).fget g = s.fget g := by
  by_cases hk : k = 0 <;> simp [State.flushGen, hg, hk, F.CLS_FLUSH.SWEEP, F.CLS_FLUSH.GEN_T, F.CLS_FLUSH.GEN_A]

@[simp] theorem State.fget_flushRing (hg : g.Spared) (s : State) : s.flushRing.fget g = s.fget g := by
  simp [State.flushRing, State.fsat, hg, F.TRK_RING_STAT.FLUSHES]

@[simp] theorem State.fget_block (hg : g.Spared) (s : State) (t v : Nat) : (s.block t v).fget g = s.fget g := by
  simp [State.block, hg, F.TRK_PROT_STAT.BLOCKED]

@[simp] theorem State.fget_blockLocals (hg : g.Spared) (s : State) : s.blockLocals.fget g = s.fget g := by
  simp [State.blockLocals, hg]

@[simp] theorem State.fget_ownerUnblock (hg : g.Spared) (s : State) : s.ownerUnblock.fget g = s.fget g := by
  simp [State.ownerUnblock, hg]

@[simp] theorem State.fget_setWtr (hg : g.Spared) (s : State) (v : Bool) (left : Nat) :
    (s.setWtr v left).fget g = s.fget g := by
  simp [State.setWtr, hg, F.TRK_RING_STAT.WTR_LEFT]

@[simp] theorem State.fget_ringLockout (hg : g.Spared) (s : State) : s.ringLockout.fget g = s.fget g := by
  simp [State.ringLockout, hg, F.TRK_RING_STAT.WTR_LEFT, F.TRK_RING_STAT.LOCKED, F.TRK_RING_STAT.STATE]

@[simp] theorem State.fget_ringProtect (hg : g.Spared) (s : State) (idle : Bool) :
    (s.ringProtect idle).fget g = s.fget g := by
  simp [State.ringProtect, hg, F.TRK_RING_STAT.STATE]

@[simp] theorem State.fget_ringPending (hg : g.Spared) (s : State) : s.ringPending.fget g = s.fget g := by
  simp [State.ringPending, hg, F.TRK_RING_STAT.STATE]

@[simp] theorem State.fget_ringIdle (hg : g.Spared) (s : State) : s.ringIdle.fget g = s.fget g := by
  simp [State.ringIdle, hg, F.TRK_RING_STAT.STATE]

@[simp] theorem State.fget_ringTable (hg : g.Spared) (s : State) (r old : Nat × Nat) :
    (s.ringTable r old).fget g = s.fget g := by
  dsimp only [State.ringTable]
  split_ifs <;> simp [hg, F.TRK_RING_STAT.STATE, F.TRK_RING_STAT.LOCKED]

@[simp] theorem State.fget_ringRun (hg : g.Spared) (s : State) : s.ringRun.fget g = s.fget g := by
  simp [State.ringRun, hg]

@[simp] theorem State.fget_sfUpdate (hg : g.Spared) (s : State) : s.sfUpdate.fget g = s.fget g := by
  simp [State.sfUpdate, State.protUpdate, hg, F.TRK_PROT_STAT.SF]

/-! ### Register writes of the units -/

@[simp] theorem State.fget_fset_unit (hg : g.Block) (s : State) (f : Fld) (v : Nat) (hf : 0x010000 ≤ f.off) :
    (s.fset f v).fget g = s.fget g :=
  s.fget_fset_ne f g v (.inl (by have := hg.low; omega))

@[simp] theorem State.fget_wr_unit (hg : g.Block) (s : State) (k : Nat) (v : Word) (hk : 0x010000 ≤ k) :
    (s.wr k v).fget g = s.fget g := by
  have := hg.low
  unfold State.fget
  rw [s.rd_wr_ne v (by omega)]

@[simp] theorem State.fget_cnt (hg : g.Block) (s : State) (k : Nat) (hk : 0x010000 ≤ k) : (s.cnt k).fget g = s.fget g := by
  simp [State.cnt, State.cntAdd, State.wr64, hg, hk, Nat.le_add_right_of_le]

@[simp] theorem State.fget_raise_block (hg : g.Block) (s : State) (n : Nat) : (s.raise n).fget g = s.fget g := by
  simp [State.raise, hg, pendFld, O.IRQ_PEND, Nat.le_add_right_of_le]

/-- The status word of a thread lies beyond the block's own registers. -/
@[simp] theorem le_ceThrStat (e n : Nat) : 0x010000 ≤ O.CE_THR_STAT e n := by
  simp only [O.CE_THR_STAT]
  omega

/-- So does its event word. -/
@[simp] theorem le_ceThrEvt (e n : Nat) : 0x010000 ≤ O.CE_THR_EVT e n := by
  simp only [O.CE_THR_EVT]
  omega

/-- So does the status word of a graph slot. -/
@[simp] theorem le_prsSlotStat (n k : Nat) : 0x010000 ≤ O.PRS_SLOT_STAT n k := by
  simp only [O.PRS_SLOT_STAT]
  omega

/-- So does the status word of a DMA channel. -/
@[simp] theorem le_dmaChStat (n : Nat) : 0x010000 ≤ O.DMA_CH_STAT n := by
  simp only [O.DMA_CH_STAT]
  omega

/-! ### Triggers and PPS -/

@[simp] theorem State.fget_driveTrig (s : State) (n : Nat) (v : Trig) (g : Fld) : (s.driveTrig n v).fget g = s.fget g :=
  (State.driveTrig_keeps (Keeps.refl (ar := [.out, .trigs]) s) n v (Allows.refl _)).fget (by decide) (by decide) g

@[simp] theorem State.fget_clearCtu (s : State) (n : Nat) (v : Bool → Bool) (g : Fld) : (s.clearCtu n v).fget g = s.fget g :=
  (State.clearCtu_keeps (Keeps.refl (ar := [.out, .gens, .trigs]) s) n v (Allows.refl _)).fget (by decide) (by decide) g

@[simp] theorem State.fget_ppsReset (s : State) (n : Nat) (g : Fld) : (s.ppsReset n).fget g = s.fget g :=
  (State.ppsReset_keeps (Keeps.refl (ar := [.out, .pps]) s) n (Allows.refl _)).fget (by decide) (by decide) g

@[simp] theorem State.fget_syncTrig (hg : g.Block) (s : State) (n : Nat) : (s.syncTrig n).fget g = s.fget g := by
  simp [State.syncTrig, State.setFlag, hg, F.CTU_TRIG_STAT.CUT, O.CTU_TRIG_STAT, Nat.le_add_right_of_le]

/-! ### Frames, copies and queues -/

@[simp] theorem State.fget_spliceNote (s : State) (ed : Edit) (q : Bool) (l : List Nat) (g : Fld) :
    (s.spliceNote ed q l).fget g = s.fget g :=
  (State.spliceNote_keeps (Keeps.refl (ar := [.emem]) s) ed q l (Allows.refl _)).fget (by decide) (by decide) g

@[simp] theorem State.fget_dropEdits (hg : g.Block) (s : State) (p f : Nat) : (s.dropEdits p f).fget g = s.fget g := by
  simp [State.dropEdits, hg, F.MAC_EDIT_STAT.LEVEL, O.MAC_EDIT_STAT, Nat.le_add_right_of_le]

@[simp] theorem State.fget_settleTx (hg : g.Block) (s : State) (q fuel : Nat) : (s.settleTx q fuel).fget g = s.fget g := by
  induction fuel generalizing s with
  | zero => rfl
  | succ n ih =>
    unfold State.settleTx
    dsimp only
    split
    · rfl
    · split_ifs <;> simp [ih, State.qCnt, hg, O.Q_CNT]

@[simp] theorem State.fget_hostDone (hg : g.Block) (s : State) (host : Option (Nat × Nat)) (took : Bool) (stat : Nat)
    (stamp : Int) : (s.hostDone host took stat stamp).fget g = s.fget g := by
  cases host with
  | none => rfl
  | some d => simp [State.hostDone, State.settleQp, hg]

@[simp] theorem State.fget_postThr (hg : g.Block) (s : State) (k b : Nat) : (s.postThr k b).fget g = s.fget g := by
  simp [State.postThr, State.postEvt, hg, evtFld]

@[simp] theorem State.fget_txDone (hg : g.Block) (s : State) (f : Nat) (k : Option Nat) :
    (s.txDone f k).fget g = s.fget g := by
  cases k with
  | none => rfl
  | some t => simp [State.txDone, hg]

@[simp] theorem State.fget_setGran (hg : g.Block) (s : State) (n : Nat) (v : Gran) : (s.setGran n v).fget g = s.fget g := by
  simp [State.setGran, hg, F.MEM_BANK_STAT.LIVE, O.MEM_BANK_STAT, Nat.le_add_right_of_le]

@[simp] theorem State.fget_freeGran (hg : g.Block) (s : State) (n : Nat) : (s.freeGran n).fget g = s.fget g := by
  simp [State.freeGran, State.markRetired, State.memCnt, hg, F.MEM_BANK_STAT.RETIRED, F.MEM_STAT.RETIRED, O.MEM_BANK_STAT,
    O.MEM_STAT, O.MEM_RETIRED, O.MEM_CNT, Nat.le_add_right_of_le]

@[simp] theorem State.fget_fcCheck (s : State) (p : Nat) (g : Fld) : (s.fcCheck p).fget g = s.fget g :=
  (State.fcCheck_keeps (Keeps.refl (ar := [.ports]) s) p (Allows.refl _)).fget (by decide) (by decide) g

@[simp] theorem State.fget_tidy (hg : g.Block) (s : State) : s.tidy.fget g = s.fget g := by
  simp [State.tidy, State.gc, State.sweepGrans, hg]

@[simp] theorem State.fget_copyGone (hg : g.Block) (s : State) (p : Nat) (c : Copy) (took : Bool) (status : Nat) :
    (s.copyGone p c took status).fget g = s.fget g := by
  simp [State.copyGone, hg]

@[simp] theorem State.fget_setPipe (hg : g.Block) (s : State) (n : Nat) (v : Pipe) : (s.setPipe n v).fget g = s.fget g := by
  simp [State.setPipe, hg, F.PRS_STAT.IN_FLIGHT, O.PRS_STAT, Nat.le_add_right_of_le]

@[simp] theorem State.fget_rxGone (hg : g.Block) (s : State) (w : RxWait) (took : Bool) :
    (s.rxGone w took).fget g = s.fget g := by
  simp [State.rxGone, hg]

@[simp] theorem State.fget_dropFromThreads (hg : g.Block) (s : State) (f : Nat) : (s.dropFromThreads f).fget g = s.fget g := by
  simp [State.dropFromThreads, hg, F.CE_THR_STAT.RXQ]

@[simp] theorem State.fget_unparse (hg : g.Block) (s : State) (f : Nat) : (s.unparse f).fget g = s.fget g := by
  simp [State.unparse, hg]

@[simp] theorem State.fget_dropCopies (hg : g.Block) (s : State) (f : Nat) (at_ : Nat → Bool) :
    (s.dropCopies f at_).fget g = s.fget g :=
  State.fget_forEach _ fun p u => by simp [hg]

@[simp] theorem State.fget_dropFromQueues (hg : g.Block) (s : State) (f : Nat) : (s.dropFromQueues f).fget g = s.fget g :=
  State.fget_forEach _ fun q u => by simp [hg]

@[simp] theorem State.fget_discard (hg : g.Block) (s : State) (f : Nat) : (s.discard f).fget g = s.fget g := by
  simp [State.discard, hg]

@[simp] theorem State.fget_gaspCheck (hg : g.Block) (s : State) : s.gaspCheck.fget g = s.fget g := by
  unfold State.gaspCheck
  split
  · simp [hg, hg.spared, F.PWR_STAT.GASP, F.PWR_STAT.GASP_DONE, O.PWR_STAT]
  · rfl

@[simp] theorem State.fget_gaspDrop (hg : g.Block) (s : State) (p : Nat) : (s.gaspDrop p).fget g = s.fget g := by
  unfold State.gaspDrop
  split <;> simp [hg]

/-! ### Units as after their reset -/

@[simp] theorem State.fget_dropPort (hg : g.Block) (s : State) (p : Nat) : (s.dropPort p).fget g = s.fget g := by
  unfold State.dropPort
  split <;> simp [hg]

@[simp] theorem State.fget_speedReset (s : State) (p : Nat) (g : Fld) : (s.speedReset p).fget g = s.fget g :=
  (State.speedReset_keeps (Keeps.refl (ar := [.out]) s) p (Allows.refl _)).fget (by decide) (by decide) g

@[simp] theorem State.fget_laneReset (s : State) (t : Nat) (g : Fld) : (s.laneReset t).fget g = s.fget g :=
  (State.laneReset_keeps (Keeps.refl (ar := [.out]) s) t (Allows.refl _)).fget (by decide) (by decide) g

@[simp] theorem State.fget_clearTrunk (hg : g.Block) (s : State) (t : Nat) : (s.clearTrunk t).fget g = s.fget g := by
  simp [State.clearTrunk, hg, hg.spared]

@[simp] theorem State.fget_clearThreads (hg : g.Block) (s : State) (e : Nat) : (s.clearThreads e).fget g = s.fget g := by
  simp [State.clearThreads, State.emptyThreads, State.setThr, hg, F.CE_THR_STAT.RXQ, F.CE_THR_STAT.BOUND]

@[simp] theorem State.fget_emptyPipe (hg : g.Block) (s : State) (n : Nat) : (s.emptyPipe n).fget g = s.fget g := by
  simp [State.emptyPipe, hg]

/-! ### Entry to SAFEHOLD in the spine -/

@[simp] theorem State.fget_dropPipes (hg : g.Block) (s : State) : s.dropPipes.fget g = s.fget g := by
  simp [State.dropPipes, hg]

@[simp] theorem State.fget_dropEgress (hg : g.Block) (s : State) : s.dropEgress.fget g = s.fget g :=
  State.fget_forEach _ fun p u => by simp [hg]

@[simp] theorem State.fget_dropRx (hg : g.Block) (s : State) : s.dropRx.fget g = s.fget g :=
  State.fget_forEach _ fun q u => by simp [hg]

@[simp] theorem State.fget_showCourses (hg : g.Block) (s : State) : s.showCourses.fget g = s.fget g := by
  refine (State.fget_forEach _ fun n u => ?_).trans (by
    simp [hg, F.CLS_COURSE_STAT.LIVE_MAP, F.CLS_COURSE_STAT.LIVE, O.CLS_COURSE_STAT])
  dsimp only
  split <;> simp [hg, F.PRS_STAT.CUR_SLOT, F.PRS_SLOT_STAT.IN_USE, O.PRS_STAT, Nat.le_add_right_of_le]

@[simp] theorem State.fget_retire (hg : g.Block) (s : State) (n : Nat) : (s.retire n).fget g = s.fget g := by
  unfold State.retire
  split <;> simp [hg]

@[simp] theorem State.fget_endLoad (hg : g.Block) (s : State) (r : Nat) : (s.endLoad r).fget g = s.fget g := by
  unfold State.endLoad
  split <;> simp [hg, F.PRS_LOAD_CTL.RESULT, F.PRS_LOAD_CTL.BUSY, O.PRS_LOAD_CTL]

@[simp] theorem State.fget_setDmaState (hg : g.Block) (s : State) (n v : Nat) : (s.setDmaState n v).fget g = s.fget g := by
  simp [State.setDmaState, hg, F.DMA_CH_STAT.STATE, O.DMA_STAT]

@[simp] theorem State.fget_dmaPause (hg : g.Block) (s : State) (n : Nat) : (s.dmaPause n).fget g = s.fget g := by
  simp [State.dmaPause, State.dmaDrain, hg, F.DMA_CH_STAT.END_PEND]

@[simp] theorem State.fget_dmaFreeze (hg : g.Block) (s : State) : s.dmaFreeze.fget g = s.fget g := by
  simp [State.dmaFreeze, hg, F.DMA_CH_STAT.SH_PAUSED]

@[simp] theorem State.fget_freezeSpine (hg : g.Block) (s : State) : s.freezeSpine.fget g = s.fget g := by
  simp [State.freezeSpine, State.retireAll, hg, F.Q_STAT.FROZEN, O.Q_STAT]

/-! ### The mode -/

/-- The mode copy of a half is a field of the block's own registers. -/
theorem modeCopy_block (n : Nat) : (modeCopy n).Block := by
  unfold modeCopy
  split <;> exact ⟨by decide, by decide⟩

/-- A field that another one does not meet. -/
def Fld.Beside (f g : Fld) : Prop := g.off ≠ f.off ∨ f.lo + f.wd ≤ g.lo ∨ g.lo + g.wd ≤ f.lo

/-- A new mode copy changes no other field of the block's own registers. -/
theorem State.fget_setHalfMode (hg : g.Block) (s : State) (n m : Nat) :
    (s.setHalfMode n m).fget g = (s.fset (modeCopy n) m).fget g := by
  dsimp only [State.setHalfMode]
  split_ifs <;> simp [hg, hg.spared]

theorem State.hmode_setHalfMode (s : State) (n m : Nat) : (s.setHalfMode n m).hmode n = m % 8 := by
  have hw : (modeCopy n).lo + (modeCopy n).wd ≤ 32 ∧ (modeCopy n).wd = 3 := by unfold modeCopy; split <;> decide
  unfold State.hmode
  rw [State.fget_setHalfMode (modeCopy_block n), s.fget_fset_self _ m hw.1, hw.2]
  rfl

/-! ### A change of the block's mode -/

/-- The state in which a change of mode to `m` reaches the halves: what `State.setMode` does before. -/
def State.modeChanged (s : State) (m : Nat) : State :=
  let s := if m = 2 ∨ m = 6 ∨ m = 7 then s.csStop.setJoined 0 else s
  let s := if s.mode = 6 then s.fset F.Q_STAT.FROZEN 0 else s
  let s := if s.mode = 1 ∧ m ≠ 0 then s.drawKey0 else s
  let s := if m = 6 ∨ m = 7 ∨ m = 0 then s.endLoad 4 else s
  (s.fset F.BLK_MODE.MODE m).raise 0

/-- Gives the mode copy `m` to every half that follows. -/
def State.followMode (s : State) (m : Nat) : State :=
  forEach (s.halfList.filter fun n => s.followsMode n) (fun n s => s.setHalfMode n m) s

/-- A mode already held: only the halves are brought to it. -/
theorem State.setMode_same {s : State} {m : Nat} (h : s.mode = m) : s.setMode m = s.followMode m := by
  simp [State.setMode, State.followMode, h]

/-- A new mode: the registers first, then the halves, then the watchdogs. -/
theorem State.setMode_change {s : State} {m : Nat} (h : s.mode ≠ m) :
    s.setMode m = ((s.modeChanged m).followMode m).wdogMode m := by
  simp only [State.setMode, if_neg h]
  rfl

theorem mode_block : F.BLK_MODE.MODE.Block := ⟨by decide, by decide⟩

@[simp] theorem State.fget_csStop (hg : g.Block) (s : State) : s.csStop.fget g = s.fget g := by
  simp [State.csStop, State.csSet, State.stopFrames, hg, F.TRK_CS_STAT.SLEWING, F.TRK_CS_STAT.HOLDOVER, F.TRK_CS_STAT.HOPS,
    F.TRK_CS_STAT.STATE, F.TRK_SHIFT.PHASE, O.TRK_CS_STAT, O.TRK_SHIFT]

@[simp] theorem State.fget_setJoined (hg : g.Block) (s : State) (v : Nat) : (s.setJoined v).fget g = s.fget g :=
  State.fget_forEach _ fun n u => by simp [hg, tbFld, F.TB_STAT.JOINED, O.TB_STAT, Nat.le_add_right_of_le]

@[simp] theorem State.fget_drawKey0 (s : State) (g : Fld) : s.drawKey0.fget g = s.fget g :=
  (State.drawKey0_keeps (Keeps.refl (ar := [.free, .funcs]) s) (Allows.refl _)).fget (by decide) (by decide) g

@[simp] theorem State.fget_wdogMode (s : State) (m : Nat) (g : Fld) : (s.wdogMode m).fget g = s.fget g :=
  (State.wdogMode_keeps (Keeps.refl (ar := [.flt]) s) m (Allows.refl _)).fget (by decide) (by decide) g

/-- A field of the block's own registers beside MODE does not see the change. -/
theorem State.fget_modeChanged (hg : g.Block) (hm : F.BLK_MODE.MODE.Beside g) (s : State) (m : Nat) :
    (s.modeChanged m).fget g = s.fget g := by
  dsimp only [State.modeChanged]
  rw [State.fget_raise_block hg, State.fget_fset_ne _ _ _ _ hm]
  split_ifs <;> simp [hg, F.Q_STAT.FROZEN, O.Q_STAT]

theorem State.mode_modeChanged (s : State) {m : Nat} (hm : m < 8) : (s.modeChanged m).mode = m := by
  dsimp only [State.modeChanged, State.mode]
  rw [State.fget_raise_block mode_block, State.fget_fset_self _ _ _ (by decide)]
  exact Nat.mod_eq_of_lt hm

/-- A change of mode leaves the reset inputs and the configuration, which say what halves there are. -/
theorem State.modeChanged_keeps (s : State) (m : Nat) :
    Keeps [.regs, .trunks, .node, .free, .funcs, .gload] s (s.modeChanged m) := by
  have hp := Allows.refl [Area.regs, .trunks, .node, .free, .funcs, .gload]
  unfold State.modeChanged
  extract_lets s1 s2 s3 s4
  have h1 : Keeps _ s s1 := .ite (State.setJoined_keeps (State.csStop_keeps (.refl s)) 0) (.refl s)
  have h2 : Keeps _ s s2 := .ite (State.fset_keeps h1 _ _) h1
  have h3 : Keeps _ s s3 := .ite (State.drawKey0_keeps h2) h2
  have h4 : Keeps _ s s4 := .ite (State.endLoad_keeps h3 _) h3
  exact State.raise_keeps (State.fset_keeps h4 _ _) _

theorem State.halfInReset_congr {s t : State} (h : t.rst = s.rst) (n : Nat) : t.halfInReset n = s.halfInReset n := by
  simp [State.halfInReset, h]

/-- The halves that follow are present and out of reset: a field beside their mode copies does not see the change. -/
theorem State.fget_followMode (hg : g.Block) (s : State) (m : Nat)
    (hn : ∀ n < s.cfg.halves, s.halfInReset n = false → (modeCopy n).Beside g) : (s.followMode m).fget g = s.fget g := by
  refine State.fget_forEach_mem _ fun n hl u => ?_
  simp only [State.halfList, State.followsMode, List.mem_filter, List.mem_range, Bool.and_eq_true, Bool.not_eq_true'] at hl
  obtain ⟨hlt, ⟨hrst, -⟩, -⟩ := hl
  rw [State.fget_setHalfMode hg, State.fget_fset_ne _ _ _ _ (hn n hlt hrst)]

theorem modeCopy_beside_mode (n : Nat) : (modeCopy n).Beside F.BLK_MODE.MODE := by
  unfold modeCopy
  split <;> exact .inl (by decide)

/-- The halves' copies are other fields, so the mode stands as written. -/
theorem State.mode_setMode (s : State) {m : Nat} (hm : m < 8) : (s.setMode m).mode = m := by
  have hf (u : State) : (u.followMode m).mode = u.mode :=
    State.fget_followMode mode_block u m fun n _ _ => modeCopy_beside_mode n
  by_cases h : s.mode = m
  · rw [State.setMode_same h, hf, h]
  · rw [State.setMode_change h]
    exact (State.fget_wdogMode _ m _).trans ((hf _).trans (s.mode_modeChanged hm))

/-- What no following half has for its copy sees no change of mode. -/
theorem State.fget_setMode (hg : g.Block) (hm : F.BLK_MODE.MODE.Beside g) (s : State) (m : Nat)
    (hn : ∀ n < s.cfg.halves, s.halfInReset n = false → (modeCopy n).Beside g) : (s.setMode m).fget g = s.fget g := by
  by_cases h : s.mode = m
  · rw [State.setMode_same h, State.fget_followMode hg s m hn]
  · obtain ⟨hs, -⟩ := s.modeChanged_keeps m
    have hrst : (s.modeChanged m).rst = s.rst := hs .rst (by decide)
    have hcfg : (s.modeChanged m).cfg = s.cfg := hs .cfg (by decide)
    rw [State.setMode_change h, State.fget_wdogMode, State.fget_followMode hg _ m, State.fget_modeChanged hg hm]
    intro n hlt hr
    exact hn n (hcfg ▸ hlt) (State.halfInReset_congr hrst n ▸ hr)

/-- Nor the passage between OPERATE and DEGRADED. -/
theorem State.fget_fixDegraded (hg : g.Block) (hm : F.BLK_MODE.MODE.Beside g) (s : State)
    (hn : ∀ n < s.cfg.halves, s.halfInReset n = false → (modeCopy n).Beside g) : s.fixDegraded.fget g = s.fget g := by
  unfold State.fixDegraded
  split_ifs
  · exact State.fget_setMode hg hm s 5 hn
  · exact State.fget_setMode hg hm s 4 hn
  · rfl

/-! ### Registers whose content is lost -/

theorem KMap.find?_clear {α : Type} (p : Nat → Bool) (m : KMap α) (k : Nat) :
    KMap.find? (KMap.clear p m) k = if p k = true then none else KMap.find? m k := by
  induction m with
  | nil => simp [KMap.clear, KMap.find?]
  | cons e r ih =>
    unfold KMap.clear at ih ⊢
    by_cases hk : e.1 = k
    · subst hk
      by_cases hp : p e.1 = true <;> simp_all [KMap.find?]
    · by_cases hp : p e.1 = true <;> simp_all [KMap.find?]

/-- Removed words read as after reset, the others as before. -/
theorem State.rd_clearKeys (s : State) (p : Nat → Bool) (k : Nat) :
    (s.clearKeys p).rd k = if p k = true then resetWord s.cfg k else s.rd k := by
  change ((KMap.find? (KMap.clear p s.regs) k).getD (resetWord s.cfg k)) = _
  rw [KMap.find?_clear]
  split <;> rfl

theorem State.fget_clearKeys (s : State) {p : Nat → Bool} (hp : p g.off = false) : (s.clearKeys p).fget g = s.fget g := by
  unfold State.fget
  rw [s.rd_clearKeys, hp]
  rfl

/-- Only the classifier's registers, which are the lead's, move to another island. -/
theorem State.homeDom_congr {s t : State} (hc : t.cfg = s.cfg) (k : Nat) :
    t.homeDom k = s.homeDom k ∨ t.homeDom k = 2 + t.leader := by
  by_cases hk : 0x040000 ≤ k ∧ k < 0x080000
  · refine .inr ?_
    unfold State.homeDom
    rw [if_neg (by omega), if_neg (by omega), if_neg (by omega), if_neg (by omega), if_pos hk]
  · exact .inl (by simp only [State.homeDom, hc, if_neg hk])

/-- No register moves to the always-on or the safety island. -/
theorem State.homeDom_outside {s t : State} (hc : t.cfg = s.cfg) {k : Nat} (h0 : s.homeDom k ≠ 0) (h42 : s.homeDom k ≠ 42) :
    t.homeDom k ≠ 0 ∧ t.homeDom k ≠ 42 := by
  have hl : t.leader < 2 := t.fget_lt F.BLK_HALF.LEADER
  obtain h | h := State.homeDom_congr hc k <;> omega

/-- The block's own registers belong to no half. -/
theorem State.resetHalfOf_low (s : State) {k : Nat} (hk : k < 0x010000) : s.resetHalfOf k = none := by
  have h1 : s.homeDom k = 1 := if_pos hk
  have h2 : ¬ (0x040000 ≤ k ∧ k < 0x080000) := by omega
  simp [State.resetHalfOf, h1, h2, halfOfDom]

/-! ### The reset of a half -/

/-- What the reset of half `n` does before its mode copy goes to RESET. -/
def State.halfCleared (s : State) (n : Nat) : State :=
  let s := (s.clearCtu n (fun _ => false)).ppsReset n
  let s := forEach ((List.range s.cfg.fieldPorts).filter fun p => s.cfg.halfOfPort p == n)
    (fun p s => (s.dropPort p).speedReset p) s
  let s := forEach ((List.range s.cfg.trunks).filter fun t => s.cfg.halfOfTrunk t == n)
    (fun t s => (s.laneReset t).clearTrunk t) s
  let s := (forEach (s.halfEngines n) (fun e s => s.clearThreads e) s).emptyPipe n
  let s := s.clearKeys (fun k => s.resetHalfOf k == some n)
  s.setTbs (KMap.erase s.tbs n)

theorem State.halfReset_eq (s : State) (n : Nat) : s.halfReset n = (s.halfCleared n).setHalfMode n 0 := rfl

theorem State.fget_halfCleared (hg : g.Block) (s : State) (n : Nat) : (s.halfCleared n).fget g = s.fget g := by
  dsimp only [State.halfCleared]
  rw [State.fget_setTbs, State.fget_clearKeys _ (by simp [State.resetHalfOf_low _ hg.low])]
  simp [hg]

/-- The reset of a half takes its copy, not the mode, to RESET. -/
theorem State.mode_halfReset (s : State) (n : Nat) : (s.halfReset n).mode = s.mode := by
  unfold State.mode
  rw [State.halfReset_eq, State.fget_setHalfMode mode_block, State.fget_fset_ne _ _ _ _ (modeCopy_beside_mode n),
    State.fget_halfCleared mode_block]

theorem State.hmode_halfReset (s : State) (n : Nat) : (s.halfReset n).hmode n = 0 := State.hmode_setHalfMode _ n 0

/-! ### SAFEHOLD of Gweip-S whose half is in reset -/

section
variable {s : State} (hs : s.cfg = .s) (hr : s.halfInReset 0 = true)
include hs hr

/-- No half follows a change of mode. -/
theorem State.fget_setMode_inReset (hg : g.Block) (hm : F.BLK_MODE.MODE.Beside g) (m : Nat) :
    (s.setMode m).fget g = s.fget g := by
  refine State.fget_setMode hg hm s m fun n hlt hf => ?_
  obtain rfl : n = 0 := by
    rw [hs] at hlt
    exact Nat.lt_one_iff.1 hlt
  rw [hr] at hf
  cases hf

/-- The half whose copy is in RESET follows no entry to SAFEHOLD, so only the spine freezes. -/
theorem State.enterSafehold_inReset (h0 : s.hmode 0 = 0) (cause : Nat) :
    s.enterSafehold cause = ((s.fset F.BLK_MODE.SH_CAUSE cause).setMode 6).freezeSpine := by
  have hu0 : ((s.fset F.BLK_MODE.SH_CAUSE cause).setMode 6).hmode 0 = 0 := by
    have h1 := State.fget_setMode_inReset (s := s.fset F.BLK_MODE.SH_CAUSE cause) hs hr (modeCopy_block 0) (.inl (by decide)) 6
    have h2 := s.fget_fset_ne F.BLK_MODE.SH_CAUSE (modeCopy 0) cause (.inl (by decide))
    exact (h1.trans h2).trans h0
  have hcfg : ((s.fset F.BLK_MODE.SH_CAUSE cause).setMode 6).cfg = .s :=
    ((State.setMode_keeps (.refl _) 6 (Allows.refl _)).1 .cfg (by decide)).trans hs
  have hlist : (((s.fset F.BLK_MODE.SH_CAUSE cause).setMode 6).halfList.filter fun n =>
      ((s.fset F.BLK_MODE.SH_CAUSE cause).setMode 6).hmode n == 6) = [] := by
    rw [State.halfList, hcfg]
    simp [Cfg.halves, Cfg.pick, List.range_succ, hu0]
  unfold State.enterSafehold
  dsimp only
  rw [hlist]
  rfl

end

theorem State.mode_enterSafehold_inReset {s : State} (hs : s.cfg = .s) (hr : s.halfInReset 0 = true) (h0 : s.hmode 0 = 0) :
    (s.enterSafehold 6).mode = 6 := by
  rw [State.enterSafehold_inReset hs hr h0]
  exact (State.fget_freezeSpine mode_block _).trans (State.mode_setMode _ (by decide))

theorem State.cause_enterSafehold_inReset {s : State} (hs : s.cfg = .s) (hr : s.halfInReset 0 = true) (h0 : s.hmode 0 = 0) :
    (s.enterSafehold 6).fget F.BLK_MODE.SH_CAUSE = 6 := by
  have hg : F.BLK_MODE.SH_CAUSE.Block := ⟨by decide, by decide⟩
  rw [State.enterSafehold_inReset hs hr h0, State.fget_freezeSpine hg,
    State.fget_setMode_inReset (s := s.fset F.BLK_MODE.SH_CAUSE 6) hs hr hg (.inr (.inl (by decide))),
    State.fget_fset_self _ _ _ (by decide)]
  rfl

theorem State.hmode_enterSafehold_inReset {s : State} (hs : s.cfg = .s) (hr : s.halfInReset 0 = true) (h0 : s.hmode 0 = 0) :
    (s.enterSafehold 6).hmode 0 = 0 := by
  have h1 := State.fget_setMode_inReset (s := s.fset F.BLK_MODE.SH_CAUSE 6) hs hr (modeCopy_block 0) (.inl (by decide)) 6
  have h2 := s.fget_fset_ne F.BLK_MODE.SH_CAUSE (modeCopy 0) 6 (.inl (by decide))
  rw [State.enterSafehold_inReset hs hr h0]
  exact ((State.fget_freezeSpine (modeCopy_block 0) _).trans (h1.trans h2)).trans h0

/-! ### Assertion of a half's reset -/

theorem State.halfInReset_setHalfLow (s : State) (n : Nat) (low : Bool) :
    (s.setHalfLow n low).halfInReset n = (s.rst.blk || low) := by
  unfold State.setHalfLow State.halfInReset
  split <;> rfl

/-- The reset inputs of a half in its reset, after a change that keeps them. -/
theorem Keeps.halfInReset {ar : List Area} {s t : State} (h : Keeps ar s t) (hr : Area.rst ∉ ar) (n : Nat) :
    t.halfInReset n = s.halfInReset n := State.halfInReset_congr (h.1 .rst hr) n

/-- The half's own reset input is high, and so is BLK_RST_N. -/
theorem State.halfInReset_eq_false {s : State} {n : Nat} : s.halfInReset n = false ↔ s.rst.blk = false ∧ s.halfLow n = false := by
  unfold State.halfInReset State.halfLow
  simp

theorem claimFld_block (n : Nat) : (claimFld n).Block := by
  unfold claimFld
  split <;> exact ⟨by decide, by decide⟩

theorem linkUp_block : F.BLK_HALF.LINK_UP.Block := ⟨by decide, by decide⟩

/-- The mode copies of the two halves do not meet. -/
theorem modeCopy_beside {n k : Nat} (hn : n < 2) (hk : k < 2) (h : n ≠ k) : (modeCopy n).Beside (modeCopy k) := by
  obtain ⟨rfl, rfl⟩ | ⟨rfl, rfl⟩ : n = 0 ∧ k = 1 ∨ n = 1 ∧ k = 0 := by omega
  · exact .inr (.inl (by decide))
  · exact .inr (.inr (by decide))

theorem Cfg.halves_le_two (c : Cfg) : c.halves ≤ 2 := by cases c <;> decide

theorem mode_beside_modeCopy (n : Nat) : F.BLK_MODE.MODE.Beside (modeCopy n) := by
  unfold modeCopy
  split <;> exact .inl (by decide)

theorem mode_beside_claim (n : Nat) : F.BLK_MODE.MODE.Beside (claimFld n) := by
  unfold claimFld
  split <;> exact .inl (by decide)

theorem modeCopy_beside_claim (n k : Nat) : (modeCopy n).Beside (claimFld k) := by
  unfold modeCopy claimFld
  split <;> split <;> exact .inr (.inr (by decide))

theorem modeCopy_beside_linkUp (n : Nat) : (modeCopy n).Beside F.BLK_HALF.LINK_UP := by
  unfold modeCopy
  split <;> exact .inr (.inr (by decide))

/-- Gweip-S: the half is in RESET, and a working block in SAFEHOLD with cause 6 (01_block_and_halves.md R428). -/
theorem halfResetAssert_s {s : State} (hs : s.cfg = .s) (hr : s.halfInReset 0 = false) :
    ∃ t, execHalfResetAssert 0 s = .next t ∧ t.halfInReset 0 = true ∧ t.hmode 0 = 0 ∧
      (1 ≤ s.mode → s.mode ≤ 5 → t.mode = 6 ∧ t.fget F.BLK_MODE.SH_CAUSE = 6) := by
  obtain ⟨hblk, hlow⟩ := State.halfInReset_eq_false.1 hr
  have hk := State.halfReset_keeps (.refl (s.setHalfLow 0 true)) 0 (Allows.refl _)
  have hcfg : ((s.setHalfLow 0 true).halfReset 0).cfg = .s := (hk.1 .cfg (by decide)).trans hs
  have hin : ((s.setHalfLow 0 true).halfReset 0).halfInReset 0 = true := by
    rw [hk.halfInReset (by decide), State.halfInReset_setHalfLow, Bool.or_true]
  have h0 := State.hmode_halfReset (s.setHalfLow 0 true) 0
  have hm : ((s.setHalfLow 0 true).halfReset 0).mode = s.mode := State.mode_halfReset _ 0
  unfold execHalfResetAssert
  dsimp only
  rw [if_neg (by simp [hs, hlow, Cfg.halves, Cfg.pick]), if_neg (by simp [hblk]), show (s.setHalfLow 0 true).cfg = .s from hs]
  dsimp only
  rw [hm]
  by_cases hl : liveMode s.mode = true
  · rw [if_pos hl]
    refine ⟨_, rfl, ?_, State.hmode_enterSafehold_inReset hcfg hin h0, fun _ _ =>
      ⟨State.mode_enterSafehold_inReset hcfg hin h0, State.cause_enterSafehold_inReset hcfg hin h0⟩⟩
    exact ((State.enterSafehold_keeps (.refl _) 6 (Allows.refl _)).halfInReset (by decide) 0).trans hin
  · rw [if_neg hl]
    exact ⟨_, rfl, hin, h0, fun h1 h5 => absurd (decide_eq_true ⟨h1, h5⟩) hl⟩

/-- A half gone shows no claim and no link, and its own receiver of the other half is down. -/
theorem State.halfGone_spec {s : State} {n : Nat} (hn : n < 2) :
    (s.halfGone n).flag (claimFld n) = false ∧ (s.halfGone n).flag F.BLK_HALF.LINK_UP = false ∧
      ((s.halfGone n).half n).half.up = false ∧ (s.halfGone n).hmode n = s.hmode n := by
  have hc : (claimFld n).lo + (claimFld n).wd ≤ 32 ∧ F.BLK_HALF.LINK_UP.Beside (claimFld n) ∧
      F.BLK_HALF.LINK_UP.Beside (modeCopy n) ∧ (claimFld n).Beside (modeCopy n) := by
    unfold Fld.Beside
    interval_cases n <;> decide
  obtain ⟨hw, hlc, hlm, hcm⟩ := hc
  simp only [State.halfGone, State.fsets_cons, State.fsets_nil, State.hmode]
  refine ⟨?_, ?_, ?_, ?_⟩
  · rw [State.flag_fset_ne _ _ _ _ hlc, State.flag_fset_self _ _ _ hw]
    simp
  · rw [State.flag_fset_self _ _ _ (by decide)]
    rfl
  · simp
  · rw [State.fget_fset_ne _ _ _ _ hlm, State.fget_fset_ne _ _ _ _ hcm, State.fget_setHalf]

/-- Gweip-X: the half is in RESET, drops its claim and shows no link (01_block_and_halves.md R30). -/
theorem halfResetAssert_x {s : State} {n : Nat} (hs : s.cfg = .x) (hn : n < 2) (hr : s.halfInReset n = false) :
    ∃ t, execHalfResetAssert n s = .next t ∧ t.halfInReset n = true ∧ t.hmode n = 0 ∧
      t.flag (claimFld n) = false ∧ t.flag F.BLK_HALF.LINK_UP = false ∧ (t.half n).half.up = false := by
  obtain ⟨hblk, hlow⟩ := State.halfInReset_eq_false.1 hr
  unfold execHalfResetAssert
  dsimp only
  rw [if_neg (by simpa [hs, hlow, Cfg.halves, Cfg.pick] using hn), if_neg (by simp [hblk]),
    show (s.setHalfLow n true).cfg = .x from hs]
  dsimp only
  generalize hu : (if n = 0 ∧ (s.setHalfLow n true).halfInReset 1 = false then (s.setHalfLow n true).splitGear
    else s.setHalfLow n true) = u
  have hin : u.halfInReset n = true := by
    have hk : Keeps [.halves] (s.setHalfLow n true) u := hu ▸ .ite (State.splitGear_keeps (.refl _) (Allows.refl _)) (.refl _)
    rw [hk.halfInReset (by decide), State.halfInReset_setHalfLow, Bool.or_true]
  obtain ⟨hclaim, hlink, hup, hmode⟩ := State.halfGone_spec (s := u.halfReset n) hn
  have hreset := State.halfReset_keeps (.refl u) n (Allows.refl _)
  have hgone := State.halfGone_keeps (.refl (u.halfReset n)) n (Allows.refl _)
  generalize (u.halfReset n).halfGone n = v at *
  have hin' : v.halfInReset n = true :=
    (hgone.halfInReset (by decide) n).trans ((hreset.halfInReset (by decide) n).trans hin)
  have hfix := State.fixDegraded_keeps (.refl v) (Allows.refl _)
  have hhalf : v.fixDegraded.half n = v.half n := by
    unfold State.half
    rw [hfix.1 .halves (by decide)]
  refine ⟨_, rfl, (hfix.halfInReset (by decide) n).trans hin', ?_, ?_, ?_, ?_⟩
  · refine (State.fget_fixDegraded (modeCopy_block n) (mode_beside_modeCopy n) v fun k hk hf => ?_).trans
      (hmode.trans (State.hmode_halfReset u n))
    refine modeCopy_beside (hk.trans_le (Cfg.halves_le_two _)) hn ?_
    rintro rfl
    simp [hin'] at hf
  · unfold State.flag at *
    rw [State.fget_fixDegraded (claimFld_block n) (mode_beside_claim n) v fun k _ _ => modeCopy_beside_claim k n]
    exact hclaim
  · unfold State.flag at *
    rw [State.fget_fixDegraded linkUp_block (.inl (by decide)) v fun k _ _ => modeCopy_beside_linkUp k]
    exact hlink
  · rw [hhalf]
    exact hup

/-- 01_block_and_halves.md R30 and R428. -/
theorem resetsAndSupply_halfResetAssert (s : State) (h : Nat) (hh : h < s.cfg.halves) (hr : s.halfInReset h = false) :
    ∃ t, exec (.halfResetAssert h) s = .next t ∧ t.halfInReset h = true ∧ t.hmode h = 0 ∧
      (s.cfg = .s → 1 ≤ s.mode → s.mode ≤ 5 → t.mode = 6 ∧ t.fget F.BLK_MODE.SH_CAUSE = 6) ∧
      (s.cfg = .x → t.flag (claimFld h) = false ∧ t.flag F.BLK_HALF.LINK_UP = false ∧ (t.half h).half.up = false) := by
  cases hs : s.cfg with
  | s =>
    obtain rfl : h = 0 := by
      rw [hs] at hh
      exact Nat.lt_one_iff.1 hh
    obtain ⟨t, hx, hin, hmode, hsafe⟩ := halfResetAssert_s hs hr
    exact ⟨t, hx, hin, hmode, fun _ => hsafe, nofun⟩
  | x =>
    obtain ⟨t, hx, hin, hmode, hrest⟩ := halfResetAssert_x hs (hh.trans_le (Cfg.halves_le_two _)) hr
    exact ⟨t, hx, hin, hmode, nofun, fun _ => hrest⟩

/-! ### Release of a half's reset -/

theorem State.fget_mirLoad (hg : g.Block) (s : State) (m : Mir) (v : Nat) (hm : 0x010000 ≤ m.key) :
    (s.mirLoad m v).fget g = s.fget g := by
  simp [State.mirLoad, hg, Nat.le_add_right_of_le hm]

/-- The non-volatile fields of the units, loaded from the spine, lie beyond the block's own registers. -/
theorem State.fget_loadNv (hg : g.Block) (s : State) (p : Nat → Bool) (hp : ∀ k, p k = true → 0x010000 ≤ k) :
    (s.loadNv p).fget g = s.fget g := by
  refine State.fget_forEach _ fun k u => ?_
  dsimp only
  split
  · split_ifs with hk
    · exact State.fget_mirLoad hg _ _ _ (hp _ hk)
    · rfl
  · rfl

theorem State.fget_showPma (hg : g.Block) (s : State) (n : Nat) : (s.showPma n).fget g = s.fget g :=
  State.fget_forEach _ fun t u => by simp [hg, F.TRK_STAT.PMA_LOCK, O.TRK_STAT, Nat.le_add_right_of_le]

theorem State.fget_tbRestart (hg : g.Block) (s : State) (n : Nat) : (s.tbRestart n).fget g = s.fget g := by
  dsimp only [State.tbRestart]
  rw [State.fget_forEach _ fun k u => by
    simp [hg, F.CTU_GEN_CFG.EN, F.CTU_GEN_STAT.RUN, O.CTU_GEN_CFG, O.CTU_GEN_STAT, Nat.le_add_right_of_le]]
  simp [hg, tbFld, F.TB_STAT.SET_DONE, F.TB_STAT.STEP_USED, F.TB_STAT.STEP_HW, O.TB_STAT, Nat.le_add_right_of_le]

/-- A restarted time base stands as after reset. -/
theorem State.tb_tbRestart (s : State) (n : Nat) : (s.tbRestart n).tb n = {} := by
  have hk : Keeps [.regs, .gens] (s.setTb n {}) (s.tbRestart n) := by
    have hp := Allows.refl [Area.regs, .gens]
    exact .forEach (State.fsets_keeps (.refl _) _) fun k u hu => State.setGen_keeps (State.fsets_keeps hu _) _ _
  have ht : (s.tbRestart n).tbs = (s.setTb n {}).tbs := hk.1 .tbs (by decide)
  unfold State.tb
  rw [ht]
  exact s.tb_setTb_self n {}

/-- The state in which a released half's time base starts. -/
def State.halfLoaded (s : State) (n : Nat) : State :=
  let s := (s.setHalfLow n false).showPma n
  if s.dic.restore then s else s.loadNv (fun k => s.resetHalfOf k == some n && s.islandUp k)

/-- The mode belongs to no half, so neither load touches it. -/
theorem State.mode_halfLoaded (s : State) (n : Nat) : (s.halfLoaded n).mode = s.mode := by
  unfold State.halfLoaded State.mode
  dsimp only
  have hs : ((s.setHalfLow n false).showPma n).fget F.BLK_MODE.MODE = s.fget F.BLK_MODE.MODE :=
    State.fget_showPma mode_block _ n
  split
  · exact hs
  · refine (State.fget_loadNv mode_block _ _ fun k hk => ?_).trans hs
    by_contra hlow
    simp [State.resetHalfOf_low _ (Nat.lt_of_not_le hlow)] at hk

/-- The state in which a released half begins: its time base restarted, its registers loaded. -/
def State.halfStarted (s : State) (n : Nat) : State := (s.halfLoaded n).tbRestart n

theorem State.halfStarted_keeps (s : State) (n : Nat) :
    Keeps [.regs, .tbs, .gens] (s.setHalfLow n false) (s.halfStarted n) :=
  have hp := Allows.refl [Area.regs, .tbs, .gens]
  have hs : Keeps _ (s.setHalfLow n false) ((s.setHalfLow n false).showPma n) := State.showPma_keeps (.refl _) n
  State.tbRestart_keeps (.ite hs (State.loadNv_keeps hs _)) n

theorem State.mode_halfStarted (s : State) (n : Nat) : (s.halfStarted n).mode = s.mode :=
  (State.fget_tbRestart mode_block _ n).trans (s.mode_halfLoaded n)

theorem State.tb_halfStarted (s : State) (n : Nat) : (s.halfStarted n).tb n = {} := State.tb_tbRestart _ n

theorem State.halfInReset_halfStarted {s : State} (hblk : s.rst.blk = false) (n : Nat) :
    (s.halfStarted n).halfInReset n = false := by
  rw [(s.halfStarted_keeps n).halfInReset (by decide), State.halfInReset_setHalfLow, hblk]
  rfl

section
variable {s : State} {n : Nat} (hn : n < s.cfg.halves) (hblk : s.rst.blk = false) (hlow : s.halfLow n = true)
include hn hblk hlow

/-- A half released while the block is out of reset (01_block_and_halves.md R30). -/
theorem execHalfResetRelease_eq :
    execHalfResetRelease n s =
      match s.cfg with
      | .s => .next ((s.halfStarted n).setHalfMode n (s.halfStarted n).mode)
      | .x => .next ((s.halfStarted n).setHalf n { (s.halfStarted n).half n with
          copyState := true, copyTables := true, admStop := true, dropsOn := true, fromReset := true }) := by
  have hcfg : (s.halfStarted n).cfg = s.cfg := (s.halfStarted_keeps n).1 .cfg (by decide)
  unfold execHalfResetRelease
  rw [if_neg (by simp [hn, hlow]), if_neg (by simp [hblk]), ← hcfg]
  rfl

end

/-- 01_block_and_halves.md R30: Gweip-S follows the block's mode, Gweip-X copies first. -/
theorem resetsAndSupply_halfResetRelease (s : State) (h : Nat) (hh : h < s.cfg.halves) (hb : s.rst.blk = false)
    (hr : s.halfInReset h = true) :
    ∃ t, exec (.halfResetRelease h) s = .next t ∧ t.halfInReset h = false ∧ (t.tb h).t = 0 ∧
      (s.cfg = .s → t.hmode h = s.mode) ∧
      (s.cfg = .x → (t.half h).copyState = true ∧ (t.half h).copyTables = true ∧ (t.half h).admStop = true) := by
  have hlow : s.halfLow h = true := by
    unfold State.halfInReset at hr
    unfold State.halfLow
    simpa [hb] using hr
  have hx := execHalfResetRelease_eq hh hb hlow
  have hin := State.halfInReset_halfStarted hb h
  have htb := s.tb_halfStarted h
  cases hs : s.cfg with
  | s =>
    rw [hs] at hx
    have hk := State.setHalfMode_keeps (.refl (s.halfStarted h)) h (s.halfStarted h).mode (Allows.refl _)
    have hm : s.mode < 8 := s.fget_lt F.BLK_MODE.MODE
    refine ⟨_, hx, (hk.halfInReset (by decide) h).trans hin, ?_, fun _ => ?_, nofun⟩
    · unfold State.tb at *
      rw [hk.1 .tbs (by decide), htb]
    · rw [State.hmode_setHalfMode, State.mode_halfStarted, Nat.mod_eq_of_lt hm]
  | x =>
    rw [hs] at hx
    refine ⟨_, hx, hin, congrArg TimeBase.t htb, nofun, fun _ => ?_⟩
    rw [State.half_setHalf_self]
    exact ⟨rfl, rfl, rfl⟩

/-! ### Release of BLK_RST_N -/

/-- The state in which a released block begins, before BRINGUP. -/
def State.blkStarted (s : State) : State :=
  let s := s.setRst { s.rst with blk := false }
  let s := forEach s.halfList (fun h s => s.showPma h) s
  let s := if s.dic.restore then s else s.loadNv (fun k => s.islandUp k)
  let s := s.dicWake
  if s.cfg = .x then forEach (s.halfList.filter fun h => s.halfLow h) (fun h s => s.halfGone h) s else s

theorem State.blkStarted_keeps (s : State) :
    Keeps [.regs, .halves] (s.setRst { s.rst with blk := false }) s.blkStarted := by
  have hp := Allows.refl [Area.regs, .halves]
  unfold State.blkStarted
  extract_lets r s0 s1 s2 s3
  have h1 : Keeps _ s0 s1 := .forEach (.refl s0) fun h u hu => State.showPma_keeps hu h
  have h2 : Keeps _ s0 s2 := .ite h1 (State.loadNv_keeps h1 _)
  have h3 : Keeps _ s0 s3 := State.dicWake_keeps h2
  exact .ite (.forEach h3 fun h u hu => State.halfGone_keeps hu h) h3

/-- 01_block_and_halves.md R26. -/
theorem resetsAndSupply_blkRstNRelease (s : State) (hb : s.rst.blk = true) :
    ∃ t, exec .blkRstNRelease s = .next t ∧ t.rst.blk = false ∧ (s.domOn 1 = true → t.mode = 1) := by
  have hk := s.blkStarted_keeps
  have hx : exec .blkRstNRelease s = .next (if s.blkStarted.domOn 1 then s.blkStarted.setMode 1 else s.blkStarted) := by
    change execBlkRstNRelease s = _
    unfold execBlkRstNRelease
    rw [if_pos hb]
    rfl
  have hrst : s.blkStarted.rst = { s.rst with blk := false } := hk.1 .rst (by decide)
  have hdom : s.blkStarted.domOn 1 = s.domOn 1 := by
    have hd : s.blkStarted.doms = s.doms := hk.1 .doms (by decide)
    unfold State.domOn State.dom
    rw [hd]
  refine ⟨_, hx, ?_, fun h1 => ?_⟩
  · have hm : Keeps _ s.blkStarted (if s.blkStarted.domOn 1 then s.blkStarted.setMode 1 else s.blkStarted) :=
      .ite (State.setMode_keeps (.refl _) 1 (Allows.refl _)) (.refl _)
    rw [hm.1 .rst (by decide), hrst]
  · rw [if_pos (hdom.trans h1)]
    exact State.mode_setMode _ (by decide)

/-! ### Assertion of BLK_RST_N -/

/-- A check unit that scans memory has no thread to record its result for. -/
theorem State.chkRecord_of_scan {s : State} {n : Nat} (h : s.flag (F.CHK_CFG.SRC n) = false) : s.chkRecord n = s := by
  unfold State.chkRecord
  rw [h]
  split <;> rfl

/-- A write to another word leaves a field. -/
theorem State.fget_wr_ne (s : State) {k : Nat} (v : Word) (h : g.off ≠ k) : (s.wr k v).fget g = s.fget g := by
  unfold State.fget
  rw [s.rd_wr_ne v h]

/-- A change of a field of another word leaves a field. -/
theorem State.fget_fset_word (s : State) {f : Fld} (v : Nat) (h : g.off ≠ f.off) : (s.fset f v).fget g = s.fget g :=
  s.fget_fset_ne f g v (.inl h)

theorem chkCfg_ne_chkStat (n : Nat) : O.CHK_CFG n ≠ O.CHK_STAT n := by
  simp only [O.CHK_CFG, O.CHK_STAT]
  omega

theorem chkCfg_ne_chkResult (n d : Nat) : O.CHK_CFG n ≠ O.CHK_RESULT n + d := by
  simp only [O.CHK_CFG, O.CHK_RESULT]
  omega

theorem State.fget_chkSrc_raise (s : State) {n : Nat} (hn : n < 4) (k : Nat) :
    (s.raise k).fget (F.CHK_CFG.SRC n) = s.fget (F.CHK_CFG.SRC n) := by
  unfold State.raise
  split
  · refine s.fget_fset_ne _ _ _ (.inl ?_)
    simp only [F.CHK_CFG.SRC, pendFld, O.CHK_CFG, O.IRQ_PEND]
    omega
  · rfl

theorem State.fget_chkSrc_chkShow (s : State) (n : Nat) (valid : Bool) :
    (s.chkShow n valid).fget (F.CHK_CFG.SRC n) = s.fget (F.CHK_CFG.SRC n) := by
  have hr := chkCfg_ne_chkResult n
  dsimp only [State.chkShow, State.wr64, State.fsets, List.foldl]
  rw [State.fget_fset_word _ _ (hr 0), State.fget_fset_word _ _ (hr 0), State.fget_wr_ne _ _ (hr 8), State.fget_wr_ne _ _ (hr 4)]

/-- The end of a memory scan writes no engine's memory. -/
theorem State.chkEnd_keeps_of_scan {ar : List Area} {s t : State} {n : Nat} (h : Keeps ar s t) (hn : n < 4)
    (hsrc : t.flag (F.CHK_CFG.SRC n) = false) (e al av : Nat) (hp : Allows ar [.regs, .chks]) :
    Keeps ar s (t.chkEnd n e al av) := by
  unfold State.chkEnd
  extract_lets t1 t2 t3 t4
  have h3 : Keeps ar s t3 :=
    State.fsets_keeps (State.chkShow_keeps (State.raiseChk_keeps (State.fsets_keeps h _) n 0) n true) _
  have hsrc3 : t3.flag (F.CHK_CFG.SRC n) = false := by
    have hf : t3.fget (F.CHK_CFG.SRC n) = t.fget (F.CHK_CFG.SRC n) := by
      have hr := chkCfg_ne_chkResult n
      have hs := chkCfg_ne_chkStat n
      dsimp only [t3, t2, t1, State.fsets, List.foldl, State.raiseChk]
      rw [State.fget_fset_word _ _ (hr 12), State.fget_fset_word _ _ (hr 0), State.fget_fset_word _ _ (hr 0),
        State.fget_chkSrc_chkShow, State.fget_chkSrc_raise _ hn, State.fget_fset_word _ _ hs, State.fget_fset_word _ _ hs,
        State.fget_fset_word _ _ hs]
    unfold State.flag at *
    rw [hf, hsrc]
  have h4 : Keeps ar s t4 := .ite h3 (by rwa [State.chkRecord_of_scan hsrc3])
  exact .ite (State.chkLoad_keeps h4 n) (State.fset_keeps h4 _ _)

/-- Changes along a list that each keep pieces keep them. -/
theorem Keeps.forEach_mem {ar : List Area} {α : Type} {s t : State} {l : List α} {f : α → State → State} (h : Keeps ar s t)
    (hf : ∀ a ∈ l, ∀ u, Keeps ar s u → Keeps ar s (f a u)) : Keeps ar s (Machine.forEach l f t) := by
  unfold Machine.forEach
  induction l generalizing t with
  | nil => exact h
  | cons a r ih => exact ih (hf a List.mem_cons_self t h) fun b hb => hf b (List.mem_cons_of_mem a hb)

/-- The block at its reset, before its registers are lost: outputs, the store's writing, memory scans and the dying gasp end. -/
def State.blkEnded (s : State) (step : Nat) : State :=
  let s := s.outputsReset.dicReset step
  let s := forEach (List.range s.cfg.checkUnits) (fun n s =>
    if s.flag (F.CHK_STAT.STATE n) = true ∧ s.flag (F.CHK_CFG.SRC n) = false then s.chkEnd n 7 0 0 else s) s
  (s.setGasp (s.gasp.map fun _ => {})).gaspCheck

theorem Cfg.checkUnits_le_four (c : Cfg) : c.checkUnits ≤ 4 := by cases c <;> decide

/-- Only the memory scans end (`SRC` = 0), so an engine's memory is no piece of the list. -/
theorem State.blkEnded_keeps (s : State) (step : Nat) :
    Keeps [.regs, .out, .pps, .gens, .trigs, .dic, .chks, .gasp, .trunks, .node, .cls] s (s.blkEnded step) := by
  have hp := Allows.refl [Area.regs, .out, .pps, .gens, .trigs, .dic, .chks, .gasp, .trunks, .node, .cls]
  unfold State.blkEnded
  extract_lets s1 s2
  have h1 : Keeps _ s s1 := State.dicReset_keeps (State.outputsReset_keeps (.refl s)) step
  have h2 : Keeps _ s s2 := .forEach_mem h1 fun n hn u hu => by
    have hn4 : n < 4 := (List.mem_range.1 hn).trans_le (Cfg.checkUnits_le_four _)
    split
    case isTrue hc => exact State.chkEnd_keeps_of_scan hu hn4 hc.2 7 0 0 (.mono (by decide) hp)
    case isFalse => exact hu
  exact State.gaspCheck_keeps (State.setGasp_keeps h2 _)

/-- What BLK_RST_N leaves of a state, as `State.blkReset` writes it out. -/
def State.blkLeft (s : State) : State :=
  { State.resetOf s.cfg with
    pending := s.pending, out := s.out, ticks := s.ticks, free := s.free
    regs := s.regs, stage := s.stage, hold := s.hold
    latches := s.latches, doms := s.doms, dic := s.dic, chks := s.chks, emem := s.emem
    mem := { key := s.mem.key, words := s.mem.words }
    trunks := s.trunks.filterMap fun t => if t.2.pmaLock then some (t.1, { pmaLock := true }) else none
    rst := { s.rst with blk := true } }

/-- The ended block without the registers that BLK_RST_N resets. -/
def State.blkCleared (s : State) (step : Nat) : State :=
  (s.blkEnded step).clearKeys fun k => (s.blkEnded step).homeDom k != 0 && (s.blkEnded step).homeDom k != 42

theorem State.blkCleared_keeps (s : State) (step : Nat) :
    Keeps [.regs, .stage, .hold] (s.blkEnded step) (s.blkCleared step) :=
  State.clearKeys_keeps (.refl _) _ (Allows.refl _)

theorem State.blkReset_eq (s : State) (step : Nat) : s.blkReset step = (s.blkCleared step).blkLeft := by
  unfold State.blkReset
  extract_lets s1 s2 s3 s4
  have h4 : s4 = s.blkCleared step := rfl
  rw [← h4]
  clear_value s4
  rfl

theorem State.rd_blkLeft (s : State) (k : Nat) : s.blkLeft.rd k = s.rd k := rfl

/-- 00_scope.md R8: the registers whose island is neither the always-on nor the safety one. -/
theorem State.rd_blkReset (s : State) (step : Nat) {k : Nat} (h0 : s.homeDom k ≠ 0) (h42 : s.homeDom k ≠ 42) :
    (s.blkReset step).rd k = resetWord s.cfg k := by
  have hcfg : (s.blkEnded step).cfg = s.cfg := (s.blkEnded_keeps step).1 .cfg (by decide)
  obtain ⟨h0', h42'⟩ := State.homeDom_outside hcfg h0 h42
  rw [State.blkReset_eq, State.rd_blkLeft, State.blkCleared, State.rd_clearKeys, if_pos (by simp [h0', h42']), hcfg]

/-- The mode's register is the spine's, and its reset value is RESET. -/
theorem State.mode_blkReset (s : State) (step : Nat) : (s.blkReset step).mode = 0 := by
  have hdom : s.homeDom O.BLK_MODE = 1 := if_pos (by decide)
  change getBits ((s.blkReset step).rd O.BLK_MODE) _ _ = 0
  rw [State.rd_blkReset s step (by simp [hdom]) (by simp [hdom])]
  cases s.cfg <;> decide +kernel

/-- 00_scope.md R8 and 13_buffer_memory_and_placement.md R350. -/
theorem resetsAndSupply_blkRstNAssert (s : State) (step : Nat) :
    ∃ t, exec (.blkRstNAssert step) s = .next t ∧ t.rst.blk = true ∧ t.mode = 0 ∧ t.doms = s.doms ∧ t.latches = s.latches ∧
      t.emem = s.emem ∧ t.mem.words = s.mem.words ∧ t.mem.grans = [] ∧ t.frames = [] ∧ t.qps = [] ∧ t.funcs = [] ∧ t.dmas = [] ∧
      (∀ k, s.homeDom k ≠ 0 → s.homeDom k ≠ 42 → t.rd k = resetWord s.cfg k) := by
  have hrd (k : Nat) := s.rd_blkReset step (k := k)
  have hmode := s.mode_blkReset step
  obtain ⟨hended, -⟩ := s.blkEnded_keeps step
  obtain ⟨hcleared, -⟩ := s.blkCleared_keeps step
  have hdoms : (s.blkCleared step).doms = s.doms := (hcleared .doms (by decide)).trans (hended .doms (by decide))
  have hlatches : (s.blkCleared step).latches = s.latches := (hcleared .latches (by decide)).trans (hended .latches (by decide))
  have hemem : (s.blkCleared step).emem = s.emem := (hcleared .emem (by decide)).trans (hended .emem (by decide))
  have hmem : (s.blkCleared step).mem = s.mem := (hcleared .mem (by decide)).trans (hended .mem (by decide))
  refine ⟨s.blkReset step, rfl, ?_⟩
  rw [State.blkReset_eq] at hmode hrd ⊢
  generalize s.blkCleared step = u at *
  have hwords : u.mem.words = s.mem.words := congrArg Mem.words hmem
  exact ⟨rfl, hmode, hdoms, hlatches, hemem, hwords, rfl, rfl, rfl, rfl, rfl, hrd⟩

/-! ### The safety island's reset -/

/-- 14_check_units_safety_island.md R358. -/
theorem resetsAndSupply_safeRstNAssert (s : State) :
    (∃ t, exec (.safeRstNAssert false) s = .next t ∧ t.rst.safe = true ∧ t.chks = [] ∧
      (∀ k, s.homeDom k = 42 → t.rd k = resetWord s.cfg k) ∧ ∀ k, s.homeDom k ≠ 42 → t.rd k = s.rd k) ∧
    ∃ t, exec (.safeRstNAssert true) s = .next t ∧ t.rst.safe = false ∧ t.regs = s.regs ∧ t.chks = s.chks := by
  refine ⟨⟨_, rfl, rfl, rfl, fun k hk => ?_, fun k hk => ?_⟩, _, rfl, rfl, rfl, rfl⟩
  · exact (State.rd_clearKeys _ _ k).trans (if_pos (beq_iff_eq.2 hk))
  · exact (State.rd_clearKeys _ _ k).trans (if_neg (mt beq_iff_eq.1 hk))

/-! ### A new supply -/

/-- The other slot of the store stays. -/
theorem State.slotOf_setSlot_other (s : State) {n : Nat} (hn : n < 2) (v : Slot) :
    (s.setSlot n v).slotOf (1 - n) = s.slotOf (1 - n) := by
  interval_cases n <;> rfl

theorem State.slotOf_setSlot_self (s : State) (n : Nat) (v : Slot) : (s.setSlot n v).slotOf n = v := by
  unfold State.setSlot State.slotOf
  by_cases hn : n = 0
  · rw [if_pos hn, if_pos hn]
    rfl
  · rw [if_neg hn, if_neg hn]
    rfl

/-- The store outlasts the supply. -/
theorem State.slotOf_powerOn (s : State) (n : Nat) : s.powerOn.slotOf n = s.slotOf n := rfl

theorem State.collapseStore_none {s : State} (h : s.dic.commit = none) (step : Nat) (torn : Word) (written : Nat) :
    s.collapseStore step torn written = s := by
  unfold State.collapseStore
  rw [h]

/-- Up to the first step of a commit neither slot has been touched. -/
theorem State.collapseStore_early (s : State) {step : Nat} (h : step ≤ 1) (torn : Word) (written : Nat) :
    s.collapseStore step torn written = s := by
  unfold State.collapseStore
  split
  · rfl
  · exact if_pos h

section
variable {s : State} {c : Commit} (hc : s.dic.commit = some c)
include hc

/-- The supply's loss during a commit leaves the slot that is not being written. -/
theorem State.slotOf_collapseStore_other (hslot : c.slot < 2) (step : Nat) (torn : Word) (written : Nat) :
    (s.collapseStore step torn written).slotOf (1 - c.slot) = s.slotOf (1 - c.slot) := by
  unfold State.collapseStore
  rw [hc]
  dsimp only
  split_ifs
  · rfl
  all_goals exact s.slotOf_setSlot_other hslot _

/-- At step 2 the commit word of the slot being written is torn. -/
theorem State.slotOf_collapseStore_tear (torn : Word) (written : Nat) :
    (s.collapseStore 2 torn written).slotOf c.slot =
      { s.slotOf c.slot with commit := (s.slotOf c.slot).commit &&& ~~~ torn } := by
  unfold State.collapseStore
  rw [hc]
  exact s.slotOf_setSlot_self _ _

/-- At step 4 the slot is written and not yet valid. -/
theorem State.slotOf_collapseStore_written (torn : Word) (written : Nat) :
    (s.collapseStore 4 torn written).slotOf c.slot = { s.commitSlot c [] with commit := 0 } := by
  unfold State.collapseStore
  rw [hc]
  exact s.slotOf_setSlot_self _ _

/-- After its last step the commit stands. -/
theorem State.slotOf_collapseStore_done {step : Nat} (h : 6 ≤ step) (torn : Word) (written : Nat) :
    (s.collapseStore step torn written).slotOf c.slot = s.commitSlot c [] := by
  unfold State.collapseStore
  rw [hc]
  dsimp only
  rw [if_neg (by omega), if_neg (by omega), if_neg (by omega), if_neg (by omega), if_neg (by omega)]
  exact s.slotOf_setSlot_self _ _

end

/-- 17_parameter_dictionary.md R413 and R415: the store by the step its commit had reached. -/
theorem resetsAndSupply_newSupply (s : State) :
    (∃ t, exec .aonPowerOn s = .next t ∧ t.regs = (State.resetOf s.cfg).regs ∧ t.doms = (State.resetOf s.cfg).doms ∧
      t.rst = (State.resetOf s.cfg).rst ∧ t.mem.key = some s.free ∧ t.free = s.free + 1 ∧ t.dic.slotA = s.dic.slotA ∧
      t.dic.slotB = s.dic.slotB ∧ t.dic.restore = true) ∧
    ∀ step torn written,
      ∃ t, exec (.supplyCollapse step torn written) s = .next t ∧ t.regs = (State.resetOf s.cfg).regs ∧ t.frames = [] ∧
        (step ≤ 1 ∨ s.dic.commit = none → t.dic.slotA = s.dic.slotA ∧ t.dic.slotB = s.dic.slotB) ∧
        ∀ c, s.dic.commit = some c → c.slot < 2 →
          t.slotOf (1 - c.slot) = s.slotOf (1 - c.slot) ∧
          (step = 2 → t.slotOf c.slot = { s.slotOf c.slot with commit := (s.slotOf c.slot).commit &&& ~~~ torn }) ∧
          (step = 4 → (t.slotOf c.slot).commit = 0) ∧
          (6 ≤ step → t.slotOf c.slot = s.commitSlot c []) := by
  refine ⟨⟨_, rfl, rfl, rfl, rfl, rfl, rfl, rfl, rfl, rfl⟩, fun step torn written => ?_⟩
  refine ⟨(s.collapseStore step torn written).powerOn, rfl, rfl, rfl, fun h => ?_, fun c hc hslot => ⟨?_, ?_, ?_, fun h => ?_⟩⟩
  · have hu : s.collapseStore step torn written = s :=
      h.elim (fun h => s.collapseStore_early h torn written) fun h => State.collapseStore_none h step torn written
    rw [hu]
    exact ⟨rfl, rfl⟩
  · rw [State.slotOf_powerOn, State.slotOf_collapseStore_other hc hslot]
  · rintro rfl
    rw [State.slotOf_powerOn, State.slotOf_collapseStore_tear hc]
  · rintro rfl
    rw [State.slotOf_powerOn, State.slotOf_collapseStore_written hc]
  · rw [State.slotOf_powerOn, State.slotOf_collapseStore_done hc h]

/-! ### The warning of a power failure -/

/-- The dying gasp goes on, or its end shows in GASP_DONE (16_power_and_wake.md R395). -/
def State.GaspShown (s : State) : Prop := s.gasp.isSome = true ∨ s.flag F.PWR_STAT.GASP_DONE = true

/-- The check ends a gasp only with GASP_DONE, which Signal Fail leaves. -/
theorem State.gaspShown_gaspCheck {s : State} (h : s.gasp.isSome = true) : s.gaspCheck.GaspShown := by
  unfold State.gaspCheck
  split
  next x hx =>
    split
    · refine .inr ?_
      have hg : F.PWR_STAT.GASP_DONE.Spared := ⟨.inr rfl, .inl (by decide)⟩
      unfold State.flag
      rw [State.fget_sfUpdate hg]
      simp only [State.fsets_cons, State.fsets_nil]
      rw [State.fget_fset_self _ _ _ (by decide)]
      rfl
    · exact .inl h
  next hx => simp [hx] at h

/-- A running gasp whose waiting changes. -/
theorem State.gaspShown_setGasp_map {s : State} (f : Gasp → Gasp) (h : s.gasp.isSome = true) :
    (s.setGasp (s.gasp.map f)).gaspCheck.GaspShown := by
  refine State.gaspShown_gaspCheck ?_
  change (s.gasp.map f).isSome = true
  rwa [Option.isSome_map]

/-- Neither the end of the running commit nor the start of the next one ends the gasp. -/
theorem State.gaspShown_gaspCommit {s : State} (h : s.gasp.isSome = true) : s.gaspCommit.GaspShown := by
  have hk : Keeps [.regs, .dic] s (s.dropCommit 5).startCommit.2 :=
    State.startCommit_keeps (State.dropCommit_keeps (.refl s) 5 (Allows.refl _)) (Allows.refl _)
  have hgasp : (s.dropCommit 5).startCommit.2.gasp = s.gasp := hk.1 .gasp (by decide)
  exact State.gaspShown_setGasp_map _ (by rwa [hgasp])

/-- The start of the dying gasp: the warning latched, its ports chosen, Signal Fail and the mode brought up to date. -/
def State.gaspStart (s : State) : State :=
  let s := (s.fset F.PWR_STAT.GASP 1).raiseAon 17
  let l := s.gaspPorts
  let s := forEach l (fun p s => s.setPort p { s.port p with gasp := true }) s
  (s.setGasp (some { ports := l, commit := true })).sfUpdate.fixDegraded

theorem State.mem_latches_raiseAon (s : State) (n : Nat) : n ∈ (s.raiseAon n).latches := by
  unfold State.raiseAon
  split
  · assumption
  · exact List.mem_append_right _ (List.mem_singleton_self n)

/-- The latch of the warning stays through all of the start. -/
theorem State.gaspStart_keeps (s : State) :
    Keeps [.regs, .out, .free, .trigs, .ports, .gasp, .flt, .trunks, .node, .gload, .cls, .funcs]
      ((s.fset F.PWR_STAT.GASP 1).raiseAon 17) s.gaspStart := by
  have hp := Allows.refl [Area.regs, .out, .free, .trigs, .ports, .gasp, .flt, .trunks, .node, .gload, .cls, .funcs]
  unfold State.gaspStart
  extract_lets s1 l s2
  have h2 : Keeps _ s1 s2 := .forEach (.refl s1) fun p u hu => State.setPort_keeps hu p _
  exact State.fixDegraded_keeps (State.sfUpdate_keeps (State.setGasp_keeps h2 _))

theorem State.isSome_gasp_gaspStart (s : State) : s.gaspStart.gasp.isSome = true := by
  unfold State.gaspStart
  extract_lets s1 l s2
  have hp := Allows.refl [Area.regs, .out, .free, .trigs, .flt, .trunks, .node, .gload, .cls, .funcs]
  have hk : Keeps _ (s2.setGasp (some { ports := l, commit := true })) _ :=
    State.fixDegraded_keeps (State.sfUpdate_keeps (.refl _))
  rw [hk.1 .gasp (by decide)]
  rfl

/-- After the start the store is written at once where the dictionary is ready, or not at all. -/
theorem execPwrFailWarn_start {s : State} (h : ¬ (s.domOn 1 = false ∨ s.rst.blk = true)) (hg : s.gasp = none) :
    execPwrFailWarn s =
      if s.gaspStart.flag F.DIC_STAT.READY then .next s.gaspStart.gaspCommit
      else .next (s.gaspStart.setGasp (s.gaspStart.gasp.map fun g => { g with commit := false })).gaspCheck := by
  unfold execPwrFailWarn
  rw [if_neg h, if_neg (by simp [hg])]
  extract_lets s1 l s2 s3
  have h3 : s3 = s.gaspStart := rfl
  rw [h3]

/-- The warning that starts a gasp (16_power_and_wake.md R395). -/
theorem gaspShown_execPwrFailWarn {s : State} (h : ¬ (s.domOn 1 = false ∨ s.rst.blk = true)) (hg : s.gasp = none) :
    ∃ t, execPwrFailWarn s = .next t ∧ 17 ∈ t.latches ∧ t.GaspShown := by
  have hgasp := s.isSome_gasp_gaspStart
  have hlatch : 17 ∈ s.gaspStart.latches := by
    rw [s.gaspStart_keeps.1 .latches (by decide)]
    exact State.mem_latches_raiseAon _ 17
  have hp := Allows.refl [Area.regs, .gasp, .dic, .trunks, .node, .cls]
  rw [execPwrFailWarn_start h hg]
  split
  · have hk : Keeps _ s.gaspStart s.gaspStart.gaspCommit := State.gaspCommit_keeps (.refl _)
    refine ⟨_, rfl, ?_, State.gaspShown_gaspCommit hgasp⟩
    rwa [hk.1 .latches (by decide)]
  · have hk : Keeps _ s.gaspStart (s.gaspStart.setGasp (s.gaspStart.gasp.map fun g => { g with commit := false })).gaspCheck :=
      State.gaspCheck_keeps (State.setGasp_keeps (.refl _) _)
    refine ⟨_, rfl, ?_, State.gaspShown_setGasp_map _ hgasp⟩
    rwa [hk.1 .latches (by decide)]

/-- 16_power_and_wake.md R395. -/
theorem resetsAndSupply_pwrFailWarn (s : State) :
    ((s.domOn 1 = false ∨ s.rst.blk = true) →
      ∃ t, exec .pwrFailWarn s = .next t ∧ t.flag F.PWR_STAT.GASP_DONE = true ∧ t.gasp = s.gasp) ∧
    (s.domOn 1 = true → s.rst.blk = false →
      (s.gasp.isSome = true → exec .pwrFailWarn s = .next s) ∧
      (s.gasp = none →
        ∃ t, exec .pwrFailWarn s = .next t ∧ 17 ∈ t.latches ∧ (t.gasp.isSome = true ∨ t.flag F.PWR_STAT.GASP_DONE = true))) := by
  refine ⟨fun h => ?_, fun hdom hblk => ?_⟩
  · refine ⟨s.fset F.PWR_STAT.GASP_DONE 1, if_pos h, ?_, rfl⟩
    rw [State.flag_fset_self _ _ _ (by decide)]
    rfl
  · have h : ¬ (s.domOn 1 = false ∨ s.rst.blk = true) := by simp [hdom, hblk]
    exact ⟨fun hg => (if_neg h).trans (if_pos hg), gaspShown_execPwrFailWarn h⟩

end

/-- Settles O5, input by input: the state each command reaches, and the fields of it that the rules speak of. -/
theorem resetsAndSupply : Obligations.ResetsAndSupply :=
  ⟨resetsAndSupply_blkRstNAssert, resetsAndSupply_blkRstNRelease, resetsAndSupply_halfResetAssert,
    resetsAndSupply_halfResetRelease, resetsAndSupply_safeRstNAssert, resetsAndSupply_newSupply, resetsAndSupply_pwrFailWarn⟩

/-- Settles O2: the reset state lists no register word, so each reads as its reset value. -/
theorem resetState : Obligations.ResetState :=
  ⟨⟨rfl, rfl⟩, rfl, by decide +kernel, rfl, fun _ => rfl, by decide +kernel, rfl, rfl, rfl, rfl, rfl⟩

end Sys2Proof.Machine

namespace Sys2Proof.Machine

/-! ## Fields and clock marks that the units leave alone

OperatingModes and HalvesLinksAndClocks ask for single fields after operations that run through many units, and for the
marks of the clocks that have stopped (18_faults_and_selftest.md R418). `Calm g` says that one field and all those marks are
the same. The first tier of lemmas speaks of the ring protection, Signal Fail and a change of mode, the second of what
SAFEHOLD does in the units. -/

/-- A word that shows a lost clock: MAC_STAT of a port or TRK_STAT of a trunk has such an offset. -/
def ClockWord (k : Nat) : Prop := 0x010000 ≤ k ∧ k < 0x028000 ∧ k % 0x1000 = 4 ∧ k ≠ O.TRK_CS_STAT

/-- A field of the block's own registers, of a word that shows lost clocks, or of the spine's or half A's power domain: a
change of mode writes none of them in the units. -/
structure Fld.Placed (g : Fld) : Prop where
  place : g.off < 0x010000 ∨ ClockWord g.off ∨ g.off = O.PWR_DOM 1 ∨ g.off = O.PWR_DOM 2

/-- A placed field beside BLK_MODE.PROT: what the ring protection and Signal Fail leave alone as well. -/
structure Fld.Quiet (g : Fld) : Prop extends Fld.Placed g where
  beside : g.off ≠ O.BLK_MODE ∨ g.lo + g.wd ≤ 12 ∨ 13 ≤ g.lo

/-- What SAFEHOLD leaves alone in the units: the same but for the power domains. -/
structure Fld.Steady (g : Fld) : Prop extends Fld.Quiet g where
  low : g.off < 0x028000

@[simp] theorem Fld.Quiet.placed {g : Fld} (h : g.Quiet) : g.Placed := h.toPlaced

theorem Fld.Block.quiet {g : Fld} (h : g.Block) : g.Quiet := ⟨⟨.inl h.low⟩, h.beside⟩

theorem Fld.Block.steady {g : Fld} (h : g.Block) : g.Steady := ⟨h.quiet, by have := h.low; omega⟩

/-- The offset is that of no word that a placed field beyond the block's own registers may have. -/
structure Foreign (k : Nat) : Prop where
  high : 0x010000 ≤ k
  clock : ¬ ClockWord k
  spine : k ≠ O.PWR_DOM 1
  half : k ≠ O.PWR_DOM 2

theorem Fld.Placed.off_ne {g : Fld} (h : g.Placed) {k : Nat} (hk : Foreign k) : g.off ≠ k := by
  obtain ⟨hh, hc, h1, h2⟩ := hk
  rintro rfl
  obtain hl | hl | hl | hl := h.place
  · omega
  · exact hc hl
  · exact h1 hl
  · exact h2 hl

/-- From `s` to `t` the field `g` and the marks of the clocks that have stopped are the same. -/
structure Calm (g : Fld) (s t : State) : Prop where
  fld : t.fget g = s.fget g
  port : ∀ p tx, (t.port p).lost tx = (s.port p).lost tx
  trunk : ∀ n tx, (t.trunk n).lost tx = (s.trunk n).lost tx

section
variable {g : Fld} {s t u : State}

@[simp] theorem Calm.refl (g : Fld) (s : State) : Calm g s s := ⟨rfl, fun _ _ => rfl, fun _ _ => rfl⟩

theorem Calm.trans (h : Calm g s t) (k : Calm g t u) : Calm g s u :=
  ⟨k.fld.trans h.fld, fun p tx => (k.port p tx).trans (h.port p tx), fun n tx => (k.trunk n tx).trans (h.trunk n tx)⟩

theorem Calm.symm (h : Calm g s t) : Calm g t s :=
  ⟨h.fld.symm, fun p tx => (h.port p tx).symm, fun n tx => (h.trunk n tx).symm⟩

/-- What comes after a calm operation is calm where what came before it is. -/
theorem Calm.iff (h : Calm g t u) : Calm g s u ↔ Calm g s t := ⟨fun k => k.trans h.symm, fun k => k.trans h⟩

theorem Calm.flag (h : Calm g s t) : t.flag g = s.flag g := by
  unfold State.flag
  rw [h.fld]

/-- A change of other pieces of the state. -/
theorem Calm.iff_of_eq (hc : u.cfg = t.cfg) (hr : u.regs = t.regs) (hp : u.ports = t.ports) (ht : u.trunks = t.trunks) :
    Calm g s u ↔ Calm g s t := by
  refine Calm.iff ⟨State.fget_congr hc hr g, fun p tx => ?_, fun n tx => ?_⟩
  · unfold State.port
    rw [hp]
  · unfold State.trunk
    rw [ht]

/-- An operation on other pieces of the state. -/
theorem Keeps.calm {ar : List Area} (h : Keeps ar t u) (hc : Area.cfg ∉ ar) (hr : Area.regs ∉ ar) (hp : Area.ports ∉ ar)
    (ht : Area.trunks ∉ ar) : Calm g s u ↔ Calm g s t :=
  Calm.iff_of_eq (h.1 .cfg hc) (h.1 .regs hr) (h.1 .ports hp) (h.1 .trunks ht)

/-- A register write that leaves the field. -/
theorem Calm.iff_of_fget {k : Nat} {w : Word} (h : (t.wr k w).fget g = t.fget g) : Calm g s (t.wr k w) ↔ Calm g s t :=
  Calm.iff ⟨h, fun _ _ => rfl, fun _ _ => rfl⟩

@[simp] theorem calm_ite (c : Prop) [Decidable c] : Calm g s (if c then t else u) ↔ if c then Calm g s t else Calm g s u := by
  split <;> rfl

/-- Changes along a list that are each calm. -/
theorem calm_forEach_mem {α : Type} {l : List α} {f : α → State → State} (hf : ∀ a ∈ l, ∀ u, Calm g u (f a u)) :
    Calm g s (forEach l f t) ↔ Calm g s t := by
  refine Calm.iff ?_
  unfold forEach
  induction l generalizing t with
  | nil => exact .refl g t
  | cons a r ih => exact (hf a List.mem_cons_self t).trans (ih fun b hb => hf b (List.mem_cons_of_mem a hb))

@[simp] theorem calm_forEach {α : Type} {l : List α} {f : α → State → State} (hf : ∀ a u, Calm g u (f a u)) :
    Calm g s (forEach l f t) ↔ Calm g s t := calm_forEach_mem fun a _ => hf a

/-- A field beside the one that is set. -/
theorem calm_fset_beside {f : Fld} (v : Nat) (h : f.Beside g) : Calm g s (t.fset f v) ↔ Calm g s t :=
  Calm.iff_of_fget (t.fget_fset_ne f g v h)

@[simp] theorem calm_fset_foreign (hg : g.Placed) {f : Fld} (hf : Foreign f.off) (v : Nat) :
    Calm g s (t.fset f v) ↔ Calm g s t := calm_fset_beside v (.inl (hg.off_ne hf))

@[simp] theorem calm_setTrunk {n : Nat} {v : Trunk} (hr : v.rxLost = (t.trunk n).rxLost)
    (ht : v.txLost = (t.trunk n).txLost) : Calm g s (t.setTrunk n v) ↔ Calm g s t := by
  refine Calm.iff ⟨State.fget_congr rfl rfl g, fun _ _ => rfl, fun k tx => ?_⟩
  by_cases hk : k = n
  · subst hk
    rw [State.trunk_setTrunk_self, Trunk.lost, Trunk.lost, hr, ht]
  · rw [State.trunk_setTrunk_ne _ _ hk]

@[simp] theorem calm_setPort {n : Nat} {v : Port} (hr : v.rxLost = (t.port n).rxLost) (ht : v.txLost = (t.port n).txLost) :
    Calm g s (t.setPort n v) ↔ Calm g s t := by
  refine Calm.iff ⟨State.fget_congr rfl rfl g, fun k tx => ?_, fun _ _ => rfl⟩
  by_cases hk : k = n
  · subst hk
    rw [State.port_setPort_self, Port.lost, Port.lost, hr, ht]
  · rw [State.port_setPort_ne _ _ hk]

@[simp] theorem calm_setNode (v : Node) : Calm g s (t.setNode v) ↔ Calm g s t := Calm.iff_of_eq rfl rfl rfl rfl
@[simp] theorem calm_setCls (v : Cls) : Calm g s (t.setCls v) ↔ Calm g s t := Calm.iff_of_eq rfl rfl rfl rfl
@[simp] theorem calm_setFlt (v : Flt) : Calm g s (t.setFlt v) ↔ Calm g s t := Calm.iff_of_eq rfl rfl rfl rfl
@[simp] theorem calm_setGload (v : Option GLoad) : Calm g s (t.setGload v) ↔ Calm g s t := Calm.iff_of_eq rfl rfl rfl rfl

/-! ### Words of the trunks and the time bases -/

theorem foreign_of_lt {k : Nat} (h : 0x028000 ≤ k) (h' : k < O.PWR_DOM 1) : Foreign k := by
  simp only [O.PWR_DOM] at h'
  refine ⟨by omega, fun hc => ?_, ?_, ?_⟩
  · obtain ⟨-, hlt, -⟩ := hc
    omega
  all_goals
    simp only [O.PWR_DOM]
    omega

@[simp] theorem foreign_protStat (n : Nat) : Foreign (O.TRK_PROT_STAT n) := by
  refine ⟨?_, fun hc => ?_, ?_, ?_⟩
  · simp only [O.TRK_PROT_STAT]
    omega
  · obtain ⟨-, -, hmod, -⟩ := hc
    simp only [O.TRK_PROT_STAT] at hmod
    omega
  all_goals
    simp only [O.TRK_PROT_STAT, O.PWR_DOM]
    omega

@[simp] theorem foreign_ringStat : Foreign O.TRK_RING_STAT := ⟨by decide, fun hc => absurd hc.2.2.1 (by decide), by decide, by decide⟩
@[simp] theorem foreign_trkShift : Foreign O.TRK_SHIFT := ⟨by decide, fun hc => absurd hc.2.2.1 (by decide), by decide, by decide⟩
@[simp] theorem foreign_csStat : Foreign O.TRK_CS_STAT := ⟨by decide, fun hc => hc.2.2.2 rfl, by decide, by decide⟩
@[simp] theorem foreign_flush : Foreign O.CLS_FLUSH := foreign_of_lt (by decide) (by decide)
@[simp] theorem foreign_qStat : Foreign O.Q_STAT := foreign_of_lt (by decide) (by decide)
@[simp] theorem foreign_loadCtl : Foreign O.PRS_LOAD_CTL := foreign_of_lt (by decide) (by decide)

@[simp] theorem foreign_tbStat (n : Nat) : Foreign (O.TB_STAT + tbOfs n) := by
  refine ⟨?_, fun hc => ?_, ?_, ?_⟩
  · simp only [O.TB_STAT, tbOfs]
    omega
  · obtain ⟨-, hlt, -⟩ := hc
    simp only [O.TB_STAT, tbOfs] at hlt
    omega
  all_goals
    simp only [O.TB_STAT, tbOfs, O.PWR_DOM]
    omega

@[simp] theorem foreign_trigStat (n : Nat) : Foreign (O.CTU_TRIG_STAT n) := by
  refine ⟨?_, fun hc => ?_, ?_, ?_⟩
  · simp only [O.CTU_TRIG_STAT]
    omega
  · obtain ⟨-, hlt, -⟩ := hc
    simp only [O.CTU_TRIG_STAT] at hlt
    omega
  all_goals
    simp only [O.CTU_TRIG_STAT, O.PWR_DOM]
    omega

/-! ### The ring protection and Signal Fail -/

@[simp] theorem calm_fset_prot (hg : g.Quiet) (v : Nat) : Calm g s (t.fset F.BLK_MODE.PROT v) ↔ Calm g s t :=
  calm_fset_beside v (hg.beside.imp id Or.symm)

@[simp] theorem calm_queueUrgent (n : Nat) (v : Urgent) : Calm g s (t.queueUrgent n v) ↔ Calm g s t := by
  simp [State.queueUrgent]

@[simp] theorem calm_updatePair (hg : g.Quiet) (n : Nat) : Calm g s (t.updatePair n) ↔ Calm g s t := by
  simp [State.updatePair, hg, F.TRK_PROT_STAT.TX_CODE, F.TRK_PROT_STAT.TX_ORIG]

@[simp] theorem calm_updatePairs (hg : g.Quiet) : Calm g s t.updatePairs ↔ Calm g s t := by
  simp [State.updatePairs, hg, hg.placed, F.TRK_PROT_STAT.LOCAL_CODE]

@[simp] theorem calm_flushGen (hg : g.Quiet) (k : Nat) : Calm g s (t.flushGen k) ↔ Calm g s t := by
  by_cases hk : k = 0 <;> simp [State.flushGen, hg, hk, F.CLS_FLUSH.SWEEP, F.CLS_FLUSH.GEN_T, F.CLS_FLUSH.GEN_A]

@[simp] theorem calm_flushRing (hg : g.Quiet) : Calm g s t.flushRing ↔ Calm g s t := by
  simp [State.flushRing, State.fsat, hg, F.TRK_RING_STAT.FLUSHES]

@[simp] theorem calm_block (hg : g.Quiet) (n v : Nat) : Calm g s (t.block n v) ↔ Calm g s t := by
  simp [State.block, hg, F.TRK_PROT_STAT.BLOCKED]

@[simp] theorem calm_blockLocals (hg : g.Quiet) : Calm g s t.blockLocals ↔ Calm g s t := by
  simp [State.blockLocals, hg]

@[simp] theorem calm_ownerUnblock (hg : g.Quiet) : Calm g s t.ownerUnblock ↔ Calm g s t := by
  simp [State.ownerUnblock, hg]

@[simp] theorem calm_setWtr (hg : g.Quiet) (v : Bool) (left : Nat) : Calm g s (t.setWtr v left) ↔ Calm g s t := by
  simp [State.setWtr, hg, F.TRK_RING_STAT.WTR_LEFT]

@[simp] theorem calm_ringLockout (hg : g.Quiet) : Calm g s t.ringLockout ↔ Calm g s t := by
  simp [State.ringLockout, hg, F.TRK_RING_STAT.WTR_LEFT, F.TRK_RING_STAT.LOCKED, F.TRK_RING_STAT.STATE]

@[simp] theorem calm_ringProtect (hg : g.Quiet) (idle : Bool) : Calm g s (t.ringProtect idle) ↔ Calm g s t := by
  simp [State.ringProtect, hg, F.TRK_RING_STAT.STATE]

@[simp] theorem calm_ringPending (hg : g.Quiet) : Calm g s t.ringPending ↔ Calm g s t := by
  simp [State.ringPending, hg, F.TRK_RING_STAT.STATE]

@[simp] theorem calm_ringIdle (hg : g.Quiet) : Calm g s t.ringIdle ↔ Calm g s t := by
  simp [State.ringIdle, hg, F.TRK_RING_STAT.STATE]

@[simp] theorem calm_ringTable (hg : g.Quiet) (r old : Nat × Nat) : Calm g s (t.ringTable r old) ↔ Calm g s t := by
  dsimp only [State.ringTable]
  split_ifs <;> simp [hg, F.TRK_RING_STAT.STATE, F.TRK_RING_STAT.LOCKED]

@[simp] theorem calm_ringRun (hg : g.Quiet) : Calm g s t.ringRun ↔ Calm g s t := by
  simp [State.ringRun, hg]

@[simp] theorem calm_sfUpdate (hg : g.Quiet) : Calm g s t.sfUpdate ↔ Calm g s t := by
  simp [State.sfUpdate, State.protUpdate, hg, hg.placed, F.TRK_PROT_STAT.SF]

/-! ### A change of mode -/

/-- A source raised is a pending bit of the interrupt controller. -/
@[simp] theorem calm_raise (hg : g.Placed) (n : Nat) : Calm g s (t.raise n) ↔ Calm g s t := by
  unfold State.raise
  split
  · next hn =>
    have hmax : t.cfg.irqSources ≤ 1024 := by cases t.cfg <;> decide
    refine calm_fset_foreign hg (foreign_of_lt ?_ ?_) 1 <;> simp only [pendFld, O.IRQ_PEND, O.PWR_DOM] <;> omega
  · rfl

@[simp] theorem calm_driveTrig (n : Nat) (v : Trig) : Calm g s (t.driveTrig n v) ↔ Calm g s t :=
  (State.driveTrig_keeps (Keeps.refl (ar := [.out, .trigs]) t) n v (Allows.refl _)).calm (by decide) (by decide) (by decide)
    (by decide)

@[simp] theorem calm_syncTrig (hg : g.Placed) (n : Nat) : Calm g s (t.syncTrig n) ↔ Calm g s t := by
  simp [State.syncTrig, State.setFlag, hg, F.CTU_TRIG_STAT.CUT]

@[simp] theorem calm_syncTrigs (hg : g.Placed) : Calm g s t.syncTrigs ↔ Calm g s t := by
  simp [State.syncTrigs, hg]

/-- Setting the mode copy of a half, as far as the field is another one. -/
theorem calm_setHalfMode (hg : g.Quiet) {n : Nat} (hn : (modeCopy n).Beside g) (m : Nat) :
    Calm g s (t.setHalfMode n m) ↔ Calm g s t := by
  simp [State.setHalfMode, hg, hg.placed, calm_fset_beside _ hn]

@[simp] theorem calm_stopFrames : Calm g s t.stopFrames ↔ Calm g s t := by
  simp [State.stopFrames]

@[simp] theorem calm_csStop (hg : g.Placed) : Calm g s t.csStop ↔ Calm g s t := by
  simp [State.csStop, State.csSet, hg, F.TRK_CS_STAT.SLEWING, F.TRK_CS_STAT.HOLDOVER, F.TRK_CS_STAT.HOPS,
    F.TRK_CS_STAT.STATE, F.TRK_SHIFT.PHASE]

@[simp] theorem calm_setJoined (hg : g.Placed) (v : Nat) : Calm g s (t.setJoined v) ↔ Calm g s t := by
  simp [State.setJoined, hg, tbFld, F.TB_STAT.JOINED]

@[simp] theorem calm_drawKey0 : Calm g s t.drawKey0 ↔ Calm g s t := Calm.iff_of_eq rfl rfl rfl rfl

@[simp] theorem calm_wdogMode (m : Nat) : Calm g s (t.wdogMode m) ↔ Calm g s t := Calm.iff_of_eq rfl rfl rfl rfl

@[simp] theorem calm_endLoad (hg : g.Placed) (r : Nat) : Calm g s (t.endLoad r) ↔ Calm g s t := by
  unfold State.endLoad
  split <;> simp [hg, F.PRS_LOAD_CTL.RESULT, F.PRS_LOAD_CTL.BUSY]

/-- A field beside BLK_MODE.MODE and the halves' copies of it. -/
structure Fld.OffMode (g : Fld) : Prop where
  mode : F.BLK_MODE.MODE.Beside g
  copyA : F.BLK_HALF.MODE_A.Beside g
  copyB : F.BLK_HALF.MODE_B.Beside g

theorem Fld.OffMode.copy (h : g.OffMode) (n : Nat) : (modeCopy n).Beside g := by
  unfold modeCopy
  split
  · exact h.copyA
  · exact h.copyB

theorem calm_followMode (hg : g.Quiet) (hm : g.OffMode) (m : Nat) : Calm g s (t.followMode m) ↔ Calm g s t :=
  calm_forEach fun n _ => (calm_setHalfMode hg (hm.copy n) m).2 (.refl _ _)

theorem calm_modeChanged (hg : g.Placed) (hm : F.BLK_MODE.MODE.Beside g) (m : Nat) :
    Calm g s (t.modeChanged m) ↔ Calm g s t := by
  dsimp only [State.modeChanged]
  rw [calm_raise hg, calm_fset_beside _ hm]
  split_ifs <;> simp [hg, F.Q_STAT.FROZEN]

theorem calm_setMode (hg : g.Quiet) (hm : g.OffMode) (m : Nat) : Calm g s (t.setMode m) ↔ Calm g s t := by
  by_cases h : t.mode = m
  · rw [State.setMode_same h, calm_followMode hg hm]
  · rw [State.setMode_change h, calm_wdogMode, calm_followMode hg hm, calm_modeChanged hg.placed hm.mode]

theorem calm_fixDegraded (hg : g.Quiet) (hm : g.OffMode) : Calm g s t.fixDegraded ↔ Calm g s t := by
  simp [State.fixDegraded, calm_setMode hg hm]

end

end Sys2Proof.Machine

namespace Sys2Proof.Machine

/-! ## What SAFEHOLD does in the units -/

section
variable {g : Fld} {s t u : State}

theorem Fld.Steady.off_ne (h : g.Steady) {k : Nat} (hk : 0x028000 ≤ k) : g.off ≠ k := by
  have := h.low
  omega

@[simp] theorem Fld.Steady.quiet (h : g.Steady) : g.Quiet := h.toQuiet

@[simp] theorem Fld.Steady.placed (h : g.Steady) : g.Placed := h.toPlaced

@[simp] theorem calm_wr_beyond (hg : g.Steady) {k : Nat} (hk : 0x028000 ≤ k) (v : Word) :
    Calm g s (t.wr k v) ↔ Calm g s t := Calm.iff_of_fget (t.fget_wr_ne v (hg.off_ne hk))

@[simp] theorem calm_fset_beyond (hg : g.Steady) {f : Fld} (hf : 0x028000 ≤ f.off) (v : Nat) :
    Calm g s (t.fset f v) ↔ Calm g s t := calm_fset_beside v (.inl (hg.off_ne hf))

@[simp] theorem calm_cnt (hg : g.Steady) {k : Nat} (hk : 0x028000 ≤ k) : Calm g s (t.cnt k) ↔ Calm g s t := by
  simp [State.cnt, State.cntAdd, State.wr64, hg, hk, Nat.le_add_right_of_le]

/-! ### Where the units' words lie -/

@[simp] theorem beyond_ceCtl (e : Nat) : 0x028000 ≤ O.CE_CTL e := by
  simp only [O.CE_CTL]
  omega

@[simp] theorem beyond_ceThrStat (e n : Nat) : 0x028000 ≤ O.CE_THR_STAT e n := by
  simp only [O.CE_THR_STAT]
  omega

@[simp] theorem beyond_ceThrEvt (e n : Nat) : 0x028000 ≤ O.CE_THR_EVT e n := by
  simp only [O.CE_THR_EVT]
  omega

@[simp] theorem beyond_prsSlotStat (n k : Nat) : 0x028000 ≤ O.PRS_SLOT_STAT n k := by
  simp only [O.PRS_SLOT_STAT]
  omega

@[simp] theorem beyond_prsStat (n : Nat) : 0x028000 ≤ O.PRS_STAT n := by
  simp only [O.PRS_STAT]
  omega

@[simp] theorem beyond_dmaChStat (n : Nat) : 0x028000 ≤ O.DMA_CH_STAT n := by
  simp only [O.DMA_CH_STAT]
  omega

@[simp] theorem beyond_memBankStat (n : Nat) : 0x028000 ≤ O.MEM_BANK_STAT n := by
  simp only [O.MEM_BANK_STAT]
  omega

@[simp] theorem beyond_memRetired (n : Nat) : 0x028000 ≤ O.MEM_RETIRED n := by
  simp only [O.MEM_RETIRED]
  omega

@[simp] theorem beyond_memCnt (n : Nat) : 0x028000 ≤ O.MEM_CNT n := by
  simp only [O.MEM_CNT]
  omega

@[simp] theorem beyond_qCnt (n : Nat) : 0x028000 ≤ O.Q_CNT n := by
  simp only [O.Q_CNT]
  omega

@[simp] theorem beyond_logWord (n w : Nat) : 0x028000 ≤ logWord n w := by
  simp only [logWord, O.FLT_LOG]
  omega

/-- The edit status of a port is no clock word either. -/
@[simp] theorem calm_fset_editStat (hg : g.Steady) (p lo wd v : Nat) :
    Calm g s (t.fset ⟨O.MAC_EDIT_STAT p, lo, wd⟩ v) ↔ Calm g s t := by
  refine calm_fset_beside v (.inl fun he => ?_)
  have hlow := hg.low
  simp only [O.MAC_EDIT_STAT] at he
  obtain hl | ⟨-, -, hmod, -⟩ | hl | hl := hg.place
  · omega
  · omega
  all_goals
    simp only [O.PWR_DOM] at hl
    omega

/-! ### Other pieces of the state -/

@[simp] theorem calm_setQp (q : Nat) (v : Qp) : Calm g s (t.setQp q v) ↔ Calm g s t := Calm.iff_of_eq rfl rfl rfl rfl
@[simp] theorem calm_setDma (n : Nat) (v : Dma) : Calm g s (t.setDma n v) ↔ Calm g s t := Calm.iff_of_eq rfl rfl rfl rfl
@[simp] theorem calm_setMem (v : Mem) : Calm g s (t.setMem v) ↔ Calm g s t := Calm.iff_of_eq rfl rfl rfl rfl
@[simp] theorem calm_setFrames (v : KMap Frame) : Calm g s (t.setFrames v) ↔ Calm g s t := Calm.iff_of_eq rfl rfl rfl rfl
@[simp] theorem calm_setPipes (v : KMap Pipe) : Calm g s (t.setPipes v) ↔ Calm g s t := Calm.iff_of_eq rfl rfl rfl rfl

/-! ### Frames, copies and queues -/

@[simp] theorem calm_spliceNote (ed : Edit) (q : Bool) (l : List Nat) : Calm g s (t.spliceNote ed q l) ↔ Calm g s t :=
  (State.spliceNote_keeps (Keeps.refl (ar := [.emem]) t) ed q l (Allows.refl _)).calm (by decide) (by decide) (by decide)
    (by decide)

@[simp] theorem calm_dropEdits (hg : g.Steady) (p f : Nat) : Calm g s (t.dropEdits p f) ↔ Calm g s t := by
  simp [State.dropEdits, hg, F.MAC_EDIT_STAT.LEVEL]

@[simp] theorem calm_settleTx (hg : g.Steady) (q fuel : Nat) : Calm g s (t.settleTx q fuel) ↔ Calm g s t := by
  induction fuel generalizing t with
  | zero => rfl
  | succ n ih =>
    unfold State.settleTx
    dsimp only
    split
    · rfl
    · split_ifs <;> simp [ih, State.qCnt, hg]

@[simp] theorem calm_hostDone (hg : g.Steady) (host : Option (Nat × Nat)) (took : Bool) (stat : Nat) (stamp : Int) :
    Calm g s (t.hostDone host took stat stamp) ↔ Calm g s t := by
  cases host with
  | none => rfl
  | some d => simp [State.hostDone, State.settleQp, hg]

@[simp] theorem calm_txDone (hg : g.Steady) (f : Nat) (k : Option Nat) : Calm g s (t.txDone f k) ↔ Calm g s t := by
  cases k with
  | none => rfl
  | some n => simp [State.txDone, State.postThr, State.postEvt, hg, evtFld]

@[simp] theorem calm_setGran (hg : g.Steady) (n : Nat) (v : Gran) : Calm g s (t.setGran n v) ↔ Calm g s t := by
  simp [State.setGran, hg, F.MEM_BANK_STAT.LIVE]

@[simp] theorem calm_markRetired (hg : g.Steady) (n : Nat) : Calm g s (t.markRetired n) ↔ Calm g s t := by
  simp [State.markRetired, State.memCnt, hg, F.MEM_BANK_STAT.RETIRED, F.MEM_STAT.RETIRED, O.MEM_STAT]

@[simp] theorem calm_freeGran (hg : g.Steady) (n : Nat) : Calm g s (t.freeGran n) ↔ Calm g s t := by
  simp [State.freeGran, hg]

@[simp] theorem calm_fcCheck (p : Nat) : Calm g s (t.fcCheck p) ↔ Calm g s t := by
  simp [State.fcCheck]

@[simp] theorem calm_tidy (hg : g.Steady) : Calm g s t.tidy ↔ Calm g s t := by
  simp [State.tidy, State.gc, State.sweepGrans, hg]

@[simp] theorem calm_copyGone (hg : g.Steady) (p : Nat) (c : Copy) (took : Bool) (status : Nat) :
    Calm g s (t.copyGone p c took status) ↔ Calm g s t := by
  simp [State.copyGone, hg]

@[simp] theorem calm_setPipe (hg : g.Steady) (n : Nat) (v : Pipe) : Calm g s (t.setPipe n v) ↔ Calm g s t := by
  simp [State.setPipe, hg, F.PRS_STAT.IN_FLIGHT]

@[simp] theorem calm_rxGone (hg : g.Steady) (w : RxWait) (took : Bool) : Calm g s (t.rxGone w took) ↔ Calm g s t := by
  simp [State.rxGone, hg]

/-! ### A half in SAFEHOLD -/

@[simp] theorem calm_dropHalf (hg : g.Steady) (n : Nat) : Calm g s (t.dropHalf n) ↔ Calm g s t := by
  dsimp only [State.dropHalf]
  rw [calm_tidy hg, calm_forEach fun p u => by simp [hg], calm_setPipe hg]

@[simp] theorem calm_stopEngine (hg : g.Steady) (e : Nat) : Calm g s (t.stopEngine e) ↔ Calm g s t := by
  simp [State.stopEngine, State.haltEngine, State.haltThread, State.setThrState, hg, F.CE_CTL.RUN, F.CE_THR_STAT.STATE]

@[simp] theorem calm_haltHalfEngines (hg : g.Steady) (n : Nat) : Calm g s (t.haltHalfEngines n) ↔ Calm g s t := by
  simp [State.haltHalfEngines, hg]

@[simp] theorem calm_safeholdHalf (hg : g.Steady) (n : Nat) : Calm g s (t.safeholdHalf n) ↔ Calm g s t := by
  simp [State.safeholdHalf, State.announceHalfSf, hg]

/-! ### The spine in SAFEHOLD -/

@[simp] theorem calm_dropPipes (hg : g.Steady) : Calm g s t.dropPipes ↔ Calm g s t := by
  simp [State.dropPipes, hg]

@[simp] theorem calm_dropEgress (hg : g.Steady) : Calm g s t.dropEgress ↔ Calm g s t :=
  calm_forEach fun p u => by simp [hg]

@[simp] theorem calm_dropRx (hg : g.Steady) : Calm g s t.dropRx ↔ Calm g s t :=
  calm_forEach fun q u => by simp [hg]

@[simp] theorem calm_showCourses (hg : g.Steady) : Calm g s t.showCourses ↔ Calm g s t := by
  refine (calm_forEach fun n u => ?_).trans (by simp [hg, F.CLS_COURSE_STAT.LIVE_MAP, F.CLS_COURSE_STAT.LIVE, O.CLS_COURSE_STAT])
  dsimp only
  split <;> simp [hg, F.PRS_STAT.CUR_SLOT, F.PRS_SLOT_STAT.IN_USE]

@[simp] theorem calm_retire (hg : g.Steady) (n : Nat) : Calm g s (t.retire n) ↔ Calm g s t := by
  unfold State.retire
  split <;> simp [hg]

@[simp] theorem calm_dmaFreeze (hg : g.Steady) : Calm g s t.dmaFreeze ↔ Calm g s t := by
  simp [State.dmaFreeze, State.dmaPause, State.dmaDrain, State.setDmaState, hg, F.DMA_CH_STAT.SH_PAUSED, F.DMA_CH_STAT.END_PEND,
    F.DMA_CH_STAT.STATE, O.DMA_STAT]

@[simp] theorem calm_freezeSpine (hg : g.Steady) : Calm g s t.freezeSpine ↔ Calm g s t := by
  simp [State.freezeSpine, State.retireAll, hg, F.Q_STAT.FROZEN]

/-! ### The block in SAFEHOLD -/

/-- The state in which the units enter SAFEHOLD: the mode is there. -/
def State.safeholdUnits (s : State) : State :=
  (forEach (s.halfList.filter fun h => s.hmode h == 6) (fun h s => s.safeholdHalf h) s).freezeSpine

theorem State.enterSafehold_eq (s : State) (cause : Nat) :
    s.enterSafehold cause = ((s.fset F.BLK_MODE.SH_CAUSE cause).setMode 6).safeholdUnits := rfl

/-- Entry to SAFEHOLD changes neither mode nor cause once the mode is written. -/
@[simp] theorem calm_safeholdUnits (hg : g.Steady) : Calm g s t.safeholdUnits ↔ Calm g s t := by
  simp [State.safeholdUnits, hg]

theorem calm_enterSafehold (hg : g.Steady) (hm : g.OffMode) (hc : F.BLK_MODE.SH_CAUSE.Beside g) (cause : Nat) :
    Calm g s (t.enterSafehold cause) ↔ Calm g s t := by
  rw [State.enterSafehold_eq, calm_safeholdUnits hg, calm_setMode hg.quiet hm, calm_fset_beside _ hc]

theorem State.mode_enterSafehold (s : State) (cause : Nat) : (s.enterSafehold cause).mode = 6 :=
  ((calm_safeholdUnits mode_block.steady).2 (.refl _ _)).fld.trans (State.mode_setMode _ (by decide))

theorem shCause_block : F.BLK_MODE.SH_CAUSE.Block := ⟨by decide, by decide⟩

theorem shCause_offMode : F.BLK_MODE.SH_CAUSE.OffMode := ⟨.inr (.inl (by decide)), .inl (by decide), .inl (by decide)⟩

theorem State.cause_enterSafehold (s : State) {cause : Nat} (h : cause < 16) :
    (s.enterSafehold cause).fget F.BLK_MODE.SH_CAUSE = cause := by
  have hc : Calm F.BLK_MODE.SH_CAUSE (s.fset F.BLK_MODE.SH_CAUSE cause) (s.enterSafehold cause) := by
    rw [State.enterSafehold_eq, calm_safeholdUnits shCause_block.steady, calm_setMode shCause_block.quiet shCause_offMode]
    exact .refl _ _
  rw [hc.fld, State.fget_fset_self _ _ _ (by decide)]
  exact Nat.mod_eq_of_lt h

/-! ### The fault log -/

@[simp] theorem calm_writeLog (hg : g.Steady) (n code index detail verdict : Nat) (c : Bool) :
    Calm g s (t.writeLog n code index detail verdict c) ↔ Calm g s t := by
  simp [State.writeLog, hg, F.FLT_STAT.NEXT, F.FLT_STAT.ACTIVE, O.FLT_STAT]

/-- The state in which a fault stands in the log, before a containment fault brings SAFEHOLD. -/
def State.logged (s : State) (code index detail : Nat) (contain : Bool) (verdict : Nat) : State :=
  let s := (s.cnt O.FLT_CNT).raise 6
  match s.logSlot with
  | some n => s.writeLog n code index detail verdict contain
  | none =>
    let s := s.fsat F.FLT_STAT.LOST 1
    if contain then s.fset F.FLT_STAT.CONTAIN_LOST 1 else s

@[simp] theorem calm_logged (hg : g.Steady) (code index detail : Nat) (c : Bool) (verdict : Nat) :
    Calm g s (t.logged code index detail c verdict) ↔ Calm g s t := by
  dsimp only [State.logged]
  split <;> simp [hg, State.fsat, F.FLT_STAT.LOST, F.FLT_STAT.CONTAIN_LOST, O.FLT_STAT, O.FLT_CNT]

/-- A logged fault, and SAFEHOLD for a containment fault in a live mode. -/
theorem State.logFault_eq (s : State) (code index detail : Nat) (k : FltClass) (verdict : Nat) :
    s.logFault code index detail k verdict =
      if s.contains k = true ∧ liveMode s.mode = true then (s.logged code index detail (s.contains k) verdict).enterSafehold 3
      else s.logged code index detail (s.contains k) verdict := by
  have hm : ((s.cnt O.FLT_CNT).raise 6).mode = s.mode := by
    have hc : Calm F.BLK_MODE.MODE s ((s.cnt O.FLT_CNT).raise 6) := by simp [mode_block.steady, O.FLT_CNT]
    exact hc.fld
  unfold State.logFault
  dsimp only
  rw [hm]
  rfl

theorem calm_logFault (hg : g.Steady) (hm : g.OffMode) (hc : F.BLK_MODE.SH_CAUSE.Beside g) (code index detail : Nat)
    (k : FltClass) (verdict : Nat) : Calm g s (t.logFault code index detail k verdict) ↔ Calm g s t := by
  simp [State.logFault_eq, calm_enterSafehold hg hm hc, hg]

/-- A fault that is logged only. -/
@[simp] theorem calm_logFault_l (hg : g.Steady) (code index detail verdict : Nat) :
    Calm g s (t.logFault code index detail .l verdict) ↔ Calm g s t := by
  simp [State.logFault_eq, State.contains, hg]

end

end Sys2Proof.Machine

namespace Sys2Proof.Machine

/-! ## Operating modes (01_block_and_halves.md R24 to R28) -/

/-! ### A request reaches BLK_MODE -/

/-- The state in which a write of BLK_MODE judges its request: the access answered, REQ_ERR cleared where asked. -/
def State.reqCleared (s : State) (clr : Bool) : State :=
  if clr then (s.answer false 0).fset F.BLK_MODE.REQ_ERR 0 else s.answer false 0

/-- What a request that reaches BLK_MODE leaves. -/
def State.submitted (s : State) (clr meets : Bool) (target : Nat) : State := (s.answer false 0).modeWrite clr true target meets

section
variable {s : State} {key : Nat} (h : s.Reaches O.BLK_MODE key) (clr meets : Bool)
include h

theorem exec_modeReqConfig : exec (.modeReqConfig 0 clr meets) s = .next (s.submitted clr meets 2) :=
  congrArg Host.Outcome.next (h.access _)

theorem exec_modeReqIntegrate : exec (.modeReqIntegrate 0 clr meets) s = .next (s.submitted clr meets 3) :=
  congrArg Host.Outcome.next (h.access _)

theorem exec_modeReqSafehold : exec (.modeReqSafehold 0 clr meets) s = .next (s.submitted clr meets 6) :=
  congrArg Host.Outcome.next (h.access _)

theorem exec_modeReqDormant : exec (.modeReqDormant 0 clr meets) s = .next (s.submitted clr meets 7) :=
  congrArg Host.Outcome.next (h.access _)

theorem exec_modeReqOtherTarget (x : Nat) :
    exec (.modeReqOtherTarget 0 x clr meets) s = .next (s.submitted clr meets (x % 8)) :=
  congrArg Host.Outcome.next (h.access _)

end

section
variable (s : State) (clr : Bool)

theorem State.fget_reqCleared {g : Fld} (h : F.BLK_MODE.REQ_ERR.Beside g) : (s.reqCleared clr).fget g = s.fget g := by
  cases clr with
  | false => exact State.fget_answer s false 0 g
  | true => exact (State.fget_fset_ne _ _ _ _ h).trans (State.fget_answer s false 0 g)

theorem State.rd_reqCleared {k : Nat} (h : k ≠ O.BLK_MODE) : (s.reqCleared clr).rd k = s.rd k := by
  cases clr with
  | false => exact State.rd_answer s false 0 k
  | true => exact (State.rd_fset_ne _ _ _ h).trans (State.rd_answer s false 0 k)

theorem State.mode_reqCleared : (s.reqCleared clr).mode = s.mode := s.fget_reqCleared clr (.inr (.inr (by decide)))

theorem State.reqCleared_keeps : Keeps [.regs, .slv] s (s.reqCleared clr) := by
  have hp := Allows.refl [Area.regs, .slv]
  have h : Keeps [.regs, .slv] s (s.answer false 0) := State.setSlv_keeps (.refl s) _
  exact .ite (State.fset_keeps h _ _) h

theorem State.req_reqCleared : (s.reqCleared clr).req = s.req := (s.reqCleared_keeps clr).1 .req (by decide)

/-- A field of a unit. -/
theorem State.fget_reqCleared_unit {g : Fld} (h : 0x010000 ≤ g.off) : (s.reqCleared clr).fget g = s.fget g := by
  refine s.fget_reqCleared clr (.inl ?_)
  simp only [F.BLK_MODE.REQ_ERR, O.BLK_MODE]
  omega

theorem State.flag_reqCleared_unit {g : Fld} (h : 0x010000 ≤ g.off) : (s.reqCleared clr).flag g = s.flag g := by
  unfold State.flag
  rw [s.fget_reqCleared_unit clr h]

theorem State.bistDone_reqCleared : (s.reqCleared clr).flag F.BLK_MODE.BIST_DONE = s.flag F.BLK_MODE.BIST_DONE := by
  unfold State.flag
  rw [s.fget_reqCleared clr (.inr (.inr (by decide)))]

theorem State.containFree_reqCleared : (s.reqCleared clr).containFree = s.containFree := by
  have hlog (n : Nat) : (s.reqCleared clr).logActive n = s.logActive n := by
    unfold State.logActive
    have := beyond_logWord n 0
    rw [s.rd_reqCleared clr (by simp only [O.BLK_MODE]; omega)]
  simp [State.containFree, State.activeCount, hlog, s.flag_reqCleared_unit clr, F.FLT_STAT.CONTAIN_LOST, O.FLT_STAT]

theorem State.target_reqCleared (d : Nat) : (s.reqCleared clr).target d = s.target d :=
  s.fget_reqCleared_unit clr (by simp [F.PWR_DOM.TARGET, O.PWR_DOM, Nat.le_add_right_of_le])

theorem State.dormantReady_reqCleared : (s.reqCleared clr).dormantReady = s.dormantReady := by
  have hcfg : (s.reqCleared clr).cfg = s.cfg := (s.reqCleared_keeps clr).1 .cfg (by decide)
  simp [State.dormantReady, hcfg, s.target_reqCleared clr]

theorem State.cellTrunk_reqCleared (n : Nat) : (s.reqCleared clr).cellTrunk n = s.cellTrunk n := by
  have hcfg : (s.reqCleared clr).cfg = s.cfg := (s.reqCleared_keeps clr).1 .cfg (by decide)
  simp [State.cellTrunk, hcfg, s.flag_reqCleared_unit clr, s.fget_reqCleared_unit clr, F.TRK_CFG.EN, F.TRK_CFG.MODE, O.TRK_CFG,
    Nat.le_add_right_of_le]

theorem State.integrateReady_reqCleared : (s.reqCleared clr).integrateReady = s.integrateReady := by
  have hkeep := (s.reqCleared_keeps clr).1
  have hcfg : (s.reqCleared clr).cfg = s.cfg := hkeep .cfg (by decide)
  have hcls : (s.reqCleared clr).cls = s.cls := hkeep .cls (by decide)
  have hhalf (n : Nat) : (s.reqCleared clr).half n = s.half n := by
    unfold State.half
    rw [hkeep .halves (by decide)]
  have hlead : (s.reqCleared clr).leader = s.leader := s.fget_reqCleared clr (.inl (by decide))
  simp [State.integrateReady, State.gearOfHalf, State.anyCourse, State.cellTrunks, State.gated, State.gclTrunk, hcfg, hcls, hhalf,
    hlead, s.cellTrunk_reqCleared clr, s.flag_reqCleared_unit clr, s.fget_reqCleared_unit clr, tbFld, F.TB_STAT.SET_DONE, O.TB_STAT,
    F.TRK_GEAR_CUR.CUR, O.TRK_GEAR_CUR, F.TRK_GEAR.VALID, O.TRK_GEAR, F.MAC_GCL_CTL.VALID, F.MAC_GCL_CTL.EN, F.MAC_GCL_CTL.TRUNK,
    O.MAC_GCL_CTL, Nat.le_add_right_of_le]

end

/-- A request is refused while another waits, waits itself where it meets a hardware transition, and is judged otherwise
(01_block_and_halves.md R25, R27). -/
theorem State.submitted_eq (s : State) (clr meets : Bool) (target : Nat) :
    s.submitted clr meets target =
      if s.req.isSome = true then (s.reqCleared clr).refuseMode
      else if meets = true then ((s.reqCleared clr).setReq (some ⟨target⟩)).fset F.BLK_MODE.REQ_PEND 1
      else (s.reqCleared clr).modeCheck target := by
  rw [← s.req_reqCleared clr]
  rfl

/-! ### A refused request -/

theorem reqErr_beside_mode : F.BLK_MODE.REQ_ERR.Beside F.BLK_MODE.MODE := .inr (.inr (by decide))

theorem reqErr_block : F.BLK_MODE.REQ_ERR.Block := ⟨by decide, .inr (.inr (by decide))⟩

theorem reqPend_block : F.BLK_MODE.REQ_PEND.Block := ⟨by decide, .inr (.inr (by decide))⟩

theorem calm_setFlag {g : Fld} {s t : State} (hg : g.Placed) {f : Fld} (h : f.Beside g) (src : Nat) :
    Calm g s (t.setFlag f src) ↔ Calm g s t := by
  rw [State.setFlag, calm_raise hg, calm_fset_beside _ h]

theorem calm_refuseMode {g : Fld} {s t : State} (hg : g.Placed) (h : F.BLK_MODE.REQ_ERR.Beside g) :
    Calm g s t.refuseMode ↔ Calm g s t := calm_setFlag hg h 1

/-- A status bit that is raised with its source is set. -/
theorem State.flag_setFlag (s : State) {f : Fld} (hf : f.Placed) (hw : f.lo + f.wd ≤ 32) (h1 : 1 < 2 ^ f.wd) (src : Nat) :
    (s.setFlag f src).flag f = true := by
  have hc : Calm f (s.fset f 1) (s.setFlag f src) := (calm_raise hf src).2 (.refl _ _)
  rw [hc.flag, State.flag_fset_self _ _ _ hw, Nat.mod_eq_of_lt h1]
  rfl

theorem State.reqErr_refuseMode (s : State) : s.refuseMode.flag F.BLK_MODE.REQ_ERR = true :=
  s.flag_setFlag reqErr_block.quiet.placed (by decide) (by decide) 1

theorem State.mode_refuseMode (s : State) : s.refuseMode.mode = s.mode :=
  ((calm_refuseMode mode_block.quiet.placed reqErr_beside_mode).2 (.refl _ _)).fld

theorem State.req_refuseMode (s : State) : s.refuseMode.req = s.req :=
  (State.refuseMode_keeps (.refl s) (Allows.refl _)).1 .req (by decide)

/-! ### INTEGRATE -/

section
variable {g : Fld} {s t : State}

@[simp] theorem calm_csStart (hg : g.Placed) : Calm g s t.csStart ↔ Calm g s t := by
  simp [State.csStart, State.csListen, State.csSet, State.setFlag, hg, F.TRK_CS_STAT.ID_ERR, F.TRK_CS_STAT.HOPS,
    F.TRK_CS_STAT.STATE]

/-- After the mode INTEGRATE is written, cold start and the time follow. -/
def State.integrateStarted (s : State) : State :=
  let s := s.csStart
  if s.cellTrunks.isEmpty then (s.setJoined 1).syncTrigs else s

@[simp] theorem calm_integrateStarted (hg : g.Placed) : Calm g s t.integrateStarted ↔ Calm g s t := by
  simp [State.integrateStarted, hg]

/-- STEP_USED re-armed in every half (01_block_and_halves.md R26). -/
def State.stepsArmed (s : State) : State :=
  forEach s.halfList (fun h s => s.fsets [(tbFld F.TB_STAT.STEP_USED h, 0), (tbFld F.TB_STAT.STEP_HW h, 0)]) s

@[simp] theorem calm_stepsArmed (hg : g.Placed) : Calm g s t.stepsArmed ↔ Calm g s t := by
  simp [State.stepsArmed, hg, tbFld, F.TB_STAT.STEP_USED, F.TB_STAT.STEP_HW]

theorem State.goIntegrate_eq (s : State) : s.goIntegrate = (s.stepsArmed.setMode 3).integrateStarted := rfl

theorem calm_goIntegrate (hg : g.Quiet) (hm : g.OffMode) : Calm g s t.goIntegrate ↔ Calm g s t := by
  simp [State.goIntegrate_eq, calm_setMode hg hm, hg]

theorem State.mode_goIntegrate (s : State) : s.goIntegrate.mode = 3 :=
  ((calm_integrateStarted mode_block.quiet.placed).2 (.refl _ _)).fld.trans (State.mode_setMode _ (by decide))

/-! ### DORMANT -/

/-- Registers of the queues and the DMA channels that are lost. -/
theorem calm_clearKeys {p : Nat → Bool} (hp : p g.off = false) : Calm g s (t.clearKeys p) ↔ Calm g s t :=
  Calm.iff ⟨t.fget_clearKeys hp, fun _ _ => rfl, fun _ _ => rfl⟩

@[simp] theorem calm_setFuncs (v : KMap Func) : Calm g s (t.setFuncs v) ↔ Calm g s t := Calm.iff_of_eq rfl rfl rfl rfl
@[simp] theorem calm_setQps (v : KMap Qp) : Calm g s (t.setQps v) ↔ Calm g s t := Calm.iff_of_eq rfl rfl rfl rfl
@[simp] theorem calm_setBinds (v : KMap Nat) : Calm g s (t.setBinds v) ↔ Calm g s t := Calm.iff_of_eq rfl rfl rfl rfl
@[simp] theorem calm_setAdmin (v : Admin) : Calm g s (t.setAdmin v) ↔ Calm g s t := Calm.iff_of_eq rfl rfl rfl rfl
@[simp] theorem calm_setDmas (v : KMap Dma) : Calm g s (t.setDmas v) ↔ Calm g s t := Calm.iff_of_eq rfl rfl rfl rfl
@[simp] theorem calm_setDom (d : Nat) (v : DomSt) : Calm g s (t.setDom d v) ↔ Calm g s t := Calm.iff_of_eq rfl rfl rfl rfl
@[simp] theorem calm_emit (o : Out) : Calm g s (t.emit o) ↔ Calm g s t := Calm.iff_of_eq rfl rfl rfl rfl

@[simp] theorem beyond_irqOffer (k : Nat) : 0x028000 ≤ O.IRQ_OFFER k := by
  simp only [O.IRQ_OFFER]
  omega

@[simp] theorem beyond_pwrDom (d : Nat) : 0x028000 ≤ O.PWR_DOM d := by
  simp only [O.PWR_DOM]
  omega

@[simp] theorem calm_irqDrop (hg : g.Steady) (k : Nat) : Calm g s (t.irqDrop k) ↔ Calm g s t := by
  simp [State.irqDrop, hg, F.IRQ_OFFER.VALID]

@[simp] theorem calm_loseService (hg : g.Steady) : Calm g s t.loseService ↔ Calm g s t := by
  have hlow := hg.low
  have hclear : Calm g s (t.clearKeys fun k => decide (0x0D0000 ≤ k ∧ k < 0x0E8000)) ↔ Calm g s t :=
    calm_clearKeys (decide_eq_false (by omega))
  dsimp only [State.loseService]
  rw [calm_tidy hg, calm_setDmas, calm_setAdmin, calm_setBinds, calm_setQps, calm_setFuncs,
    calm_forEach fun k u => by simp [hg], hclear]

@[simp] theorem calm_driveTrunks (level : Bool) : Calm g s (t.driveTrunks level) ↔ Calm g s t := by
  simp [State.driveTrunks]

/-- A domain is asked to go OFF. -/
def State.turnOff (s : State) (d : Nat) : State := s.fsets [(F.PWR_DOM.TARGET d, 2), (F.PWR_DOM.PEND d, 1)]

@[simp] theorem calm_turnOff (hg : g.Steady) (d : Nat) : Calm g s (t.turnOff d) ↔ Calm g s t := by
  simp [State.turnOff, hg, F.PWR_DOM.TARGET, F.PWR_DOM.PEND]

theorem State.target_turnOff_self (s : State) (d : Nat) : (s.turnOff d).target d = 2 := by
  simp only [State.turnOff, State.fsets_cons, State.fsets_nil, State.target]
  rw [State.fget_fset_ne _ _ _ _ (.inr (.inr (by simp [F.PWR_DOM.TARGET, F.PWR_DOM.PEND]))),
    State.fget_fset_self _ _ _ (by simp [F.PWR_DOM.TARGET])]
  rfl

theorem State.target_turnOff_ne (s : State) {d k : Nat} (h : k ≠ d) : (s.turnOff d).target k = s.target k := by
  have hk : O.PWR_DOM k ≠ O.PWR_DOM d := by
    simp only [O.PWR_DOM]
    omega
  simp only [State.turnOff, State.fsets_cons, State.fsets_nil, State.target]
  rw [State.fget_fset_ne _ _ _ _ (.inl hk), State.fget_fset_ne _ _ _ _ (.inl hk)]

/-- What each step along a list keeps, and the step of one of its members brings about, holds at the end. -/
theorem forEach_reaches {α : Type} {P : State → Prop} {f : α → State → State} (hkeep : ∀ a u, P u → P (f a u)) {a : α}
    (hmake : ∀ u, P (f a u)) {l : List α} (ha : a ∈ l) (s : State) : P (forEach l f s) := by
  have hrest (r : List α) (u : State) (hu : P u) : P (forEach r f u) := by
    unfold forEach
    induction r generalizing u with
    | nil => exact hu
    | cons b r ih => exact ih _ (hkeep b u hu)
  obtain ⟨l1, l2, rfl⟩ := List.append_of_mem ha
  have heq : forEach (l1 ++ a :: l2) f s = forEach l2 f (f a (forEach l1 f s)) := by simp [forEach]
  rw [heq]
  exact hrest _ _ (hmake _)

/-- The spine's and the halves' domains that are still to be ON, each turned off. -/
def State.domsOff (s : State) (l : List Nat) : State := forEach l (fun d s => s.turnOff d) s

theorem State.target_turnOff_keeps {s : State} {k : Nat} (h : s.target k ≠ 0) (d : Nat) : (s.turnOff d).target k ≠ 0 := by
  by_cases hk : k = d
  · subst hk
    rw [State.target_turnOff_self]
    decide
  · rwa [State.target_turnOff_ne _ hk]

theorem State.target_domsOff_keeps {s : State} {k : Nat} (h : s.target k ≠ 0) (l : List Nat) : (s.domsOff l).target k ≠ 0 := by
  unfold State.domsOff forEach
  induction l generalizing s with
  | nil => exact h
  | cons d r ih => exact ih (State.target_turnOff_keeps h d)

theorem State.target_domsOff_mem (s : State) {k : Nat} {l : List Nat} (h : k ∈ l) : (s.domsOff l).target k ≠ 0 := by
  refine forEach_reaches (P := fun u => u.target k ≠ 0) (fun d u hu => State.target_turnOff_keeps hu d) (fun u => ?_) h s
  rw [State.target_turnOff_self]
  decide

/-- The state in which the block takes the mode DORMANT: its services stopped. -/
def State.servicesStopped (s : State) : State :=
  let s := s.loseService
  (s.setDom 1 { s.dom 1 with woken := false }).driveTrunks false

/-- The domains that DORMANT turns off. -/
def State.lastDomains (s : State) : List Nat :=
  (domList s.cfg).filter fun d => decide (1 ≤ d) && decide (d ≤ 3) && decide (s.target d = 0)

theorem State.goDormant_eq (s : State) :
    s.goDormant = (s.servicesStopped.setMode 7).domsOff s.servicesStopped.lastDomains := rfl

@[simp] theorem calm_servicesStopped (hg : g.Steady) : Calm g s t.servicesStopped ↔ Calm g s t := by
  simp [State.servicesStopped, hg]

@[simp] theorem calm_domsOff (hg : g.Steady) (l : List Nat) : Calm g s (t.domsOff l) ↔ Calm g s t := by
  simp [State.domsOff, hg]

theorem calm_goDormant (hg : g.Steady) (hm : g.OffMode) : Calm g s t.goDormant ↔ Calm g s t := by
  simp [State.goDormant_eq, calm_setMode hg.quiet hm, hg]

theorem State.mode_goDormant (s : State) : s.goDormant.mode = 7 :=
  ((calm_domsOff mode_block.steady _).2 (.refl _ _)).fld.trans (State.mode_setMode _ (by decide))

/-- The words of the spine's and half A's domains see no change of mode. -/
theorem powerTarget_quiet {d : Nat} (hd : d = 1 ∨ d = 2) : (F.PWR_DOM.TARGET d).Quiet := by
  obtain rfl | rfl := hd
  · exact ⟨⟨.inr (.inr (.inl rfl))⟩, .inl (by decide)⟩
  · exact ⟨⟨.inr (.inr (.inr rfl))⟩, .inl (by decide)⟩

theorem powerTarget_offMode {d : Nat} (hd : d = 1 ∨ d = 2) : (F.PWR_DOM.TARGET d).OffMode := by
  obtain rfl | rfl := hd <;> exact ⟨.inl (by decide), .inl (by decide), .inl (by decide)⟩

/-- The spine and half A are to go OFF, or had another target already (16_power_and_wake.md R394). -/
theorem State.target_goDormant (s : State) {d : Nat} (hd : d = 1 ∨ d = 2) : s.goDormant.target d ≠ 0 := by
  rw [State.goDormant_eq]
  by_cases h : s.servicesStopped.target d = 0
  · refine State.target_domsOff_mem _ (List.mem_filter.2 ⟨?_, by simp [h]; omega⟩)
    cases s.servicesStopped.cfg <;> obtain rfl | rfl := hd <;> decide
  · refine State.target_domsOff_keeps ?_ _
    have hc : Calm (F.PWR_DOM.TARGET d) s.servicesStopped (s.servicesStopped.setMode 7) :=
      (calm_setMode (powerTarget_quiet hd) (powerTarget_offMode hd) 7).2 (.refl _ _)
    unfold State.target
    rw [hc.fld]
    exact h

/-! ### The table of transitions -/

/-- What no check of a request writes. -/
theorem calm_modeCheck (hg : g.Steady) (hm : g.OffMode) (hc : F.BLK_MODE.SH_CAUSE.Beside g) (he : F.BLK_MODE.REQ_ERR.Beside g)
    (target : Nat) : Calm g s (t.modeCheck target) ↔ Calm g s t := by
  dsimp only [State.modeCheck]
  split <;> simp [calm_setMode hg.quiet hm, calm_goIntegrate hg.quiet hm, calm_enterSafehold hg hm hc, calm_goDormant hg hm,
    calm_refuseMode hg.quiet.placed he]

end

/-- A request for CONFIG is allowed (01_block_and_halves.md R26). -/
def State.ConfigFrom (s : State) : Prop :=
  s.mode = 3 ∨ s.mode = 4 ∨ s.mode = 5 ∨ (s.mode = 1 ∧ s.flag F.BLK_MODE.BIST_DONE = true) ∨ (s.mode = 6 ∧ s.containFree = true)

theorem State.configFrom_reqCleared (s : State) (clr : Bool) : (s.reqCleared clr).ConfigFrom ↔ s.ConfigFrom := by
  unfold State.ConfigFrom
  rw [s.mode_reqCleared clr, s.bistDone_reqCleared clr, s.containFree_reqCleared clr]

theorem liveMode_iff (m : Nat) : liveMode m = true ↔ 1 ≤ m ∧ m ≤ 5 := decide_eq_true_iff

theorem bitOf_ofNat {x : Nat} (hx : x < 2 ^ 32) (i : Nat) : bitOf (BitVec.ofNat 32 x) i = true ↔ x / 2 ^ i % 2 = 1 := by
  unfold bitOf
  rw [BitVec.getLsbD_ofNat, Nat.testBit_eq_decide_div_mod_eq, Bool.and_eq_true, decide_eq_true_iff, decide_eq_true_iff]
  refine ⟨And.right, fun h => ⟨?_, h⟩⟩
  by_contra hi
  rw [Nat.div_eq_of_lt (hx.trans_le (Nat.pow_le_pow_right (by decide) (Nat.le_of_not_lt hi)))] at h
  cases h

theorem State.fget_lt_word (s : State) (f : Fld) (hf : f.wd ≤ 32) : s.fget f < 2 ^ 32 :=
  (s.fget_lt f).trans_le (Nat.pow_le_pow_right (by decide) hf)

/-- CONFIG may become INTEGRATE (01_block_and_halves.md R26), condition by condition. -/
theorem State.integrateReady_iff (s : State) :
    s.integrateReady = true ↔
      s.anyCourse s.leader = true ∧ s.flag (tbFld F.TB_STAT.SET_DONE s.leader) = true ∧
        (∀ n ∈ s.cellTrunks, s.fget (F.TRK_GEAR.VALID n) / 2 ^ s.gearOfHalf s.leader % 2 = 1) ∧
        ∀ p, p < 8 → s.cfg.hasPort p = true → s.gated p = true → s.cellTrunk (s.gclTrunk p) = true →
          s.fget (F.MAC_GCL_CTL.VALID p) / 2 ^ s.gearOfHalf s.leader % 2 = 1 := by
  have htrunk (n : Nat) : s.fget (F.TRK_GEAR.VALID n) < 2 ^ 32 := s.fget_lt_word _ (by simp [F.TRK_GEAR.VALID])
  have hport (p : Nat) : s.fget (F.MAC_GCL_CTL.VALID p) < 2 ^ 32 := s.fget_lt_word _ (by simp [F.MAC_GCL_CTL.VALID])
  simp only [State.integrateReady, Bool.and_eq_true, List.all_eq_true, List.mem_filter, List.mem_range, Bool.or_eq_true,
    Bool.not_eq_true', bitOf_ofNat (htrunk _), bitOf_ofNat (hport _), and_assoc, and_imp, ← Bool.not_eq_true,
    ← imp_iff_not_or]

theorem State.dormantReady_iff (s : State) : s.dormantReady = true ↔ ∀ d ∈ domList s.cfg, 3 < d → s.target d ≠ 0 := by
  simp only [State.dormantReady, List.all_eq_true, Bool.or_eq_true, decide_eq_true_iff, ← Nat.not_lt, ← imp_iff_not_or]

/-- The request is refused and the mode stands (01_block_and_halves.md R25). -/
def State.Refused (s t : State) : Prop := t.flag F.BLK_MODE.REQ_ERR = true ∧ t.mode = s.mode

theorem State.refused_refuseMode (s : State) (clr : Bool) : s.Refused (s.reqCleared clr).refuseMode :=
  ⟨State.reqErr_refuseMode _, (State.mode_refuseMode _).trans (s.mode_reqCleared clr)⟩

/-! ### The obligation's clauses -/

section
variable {s : State} (clr : Bool) (hreq : s.req = none)
include hreq

/-- With no request waiting and no transition to meet, the table decides. -/
theorem State.submitted_check (target : Nat) : s.submitted clr false target = (s.reqCleared clr).modeCheck target := by
  simp [State.submitted_eq, hreq]

theorem State.submitted_config_taken (h : s.ConfigFrom) : (s.submitted clr false 2).mode = 2 := by
  rw [State.submitted_check clr hreq]
  exact (congrArg State.mode (if_pos ((s.configFrom_reqCleared clr).2 h))).trans (State.mode_setMode _ (by decide))

theorem State.submitted_config_refused (h : ¬ s.ConfigFrom) : s.Refused (s.submitted clr false 2) := by
  rw [State.submitted_check clr hreq]
  have he : (s.reqCleared clr).modeCheck 2 = (s.reqCleared clr).refuseMode := if_neg (mt (s.configFrom_reqCleared clr).1 h)
  exact he ▸ s.refused_refuseMode clr

theorem State.submitted_integrate_taken (h : s.mode = 2 ∧ s.integrateReady = true) : (s.submitted clr false 3).mode = 3 := by
  rw [State.submitted_check clr hreq]
  rw [← s.mode_reqCleared clr, ← s.integrateReady_reqCleared clr] at h
  exact (congrArg State.mode (if_pos h)).trans (State.mode_goIntegrate _)

theorem State.submitted_integrate_refused (h : ¬ (s.mode = 2 ∧ s.integrateReady = true)) : s.Refused (s.submitted clr false 3) := by
  rw [State.submitted_check clr hreq]
  rw [← s.mode_reqCleared clr, ← s.integrateReady_reqCleared clr] at h
  have he : (s.reqCleared clr).modeCheck 3 = (s.reqCleared clr).refuseMode := if_neg h
  exact he ▸ s.refused_refuseMode clr

theorem State.submitted_safehold_taken (h : 1 ≤ s.mode ∧ s.mode ≤ 5) :
    (s.submitted clr false 6).mode = 6 ∧ (s.submitted clr false 6).fget F.BLK_MODE.SH_CAUSE = 1 := by
  rw [State.submitted_check clr hreq]
  rw [← s.mode_reqCleared clr, ← liveMode_iff] at h
  have he : (s.reqCleared clr).modeCheck 6 = (s.reqCleared clr).enterSafehold 1 := if_pos h
  rw [he]
  exact ⟨State.mode_enterSafehold _ 1, State.cause_enterSafehold _ (by decide)⟩

theorem State.submitted_safehold_refused (h : ¬ (1 ≤ s.mode ∧ s.mode ≤ 5)) : s.Refused (s.submitted clr false 6) := by
  rw [State.submitted_check clr hreq]
  rw [← s.mode_reqCleared clr, ← liveMode_iff] at h
  have he : (s.reqCleared clr).modeCheck 6 = (s.reqCleared clr).refuseMode := if_neg h
  exact he ▸ s.refused_refuseMode clr

theorem State.submitted_dormant_taken (h : (s.mode = 2 ∨ s.mode = 6) ∧ s.dormantReady = true) :
    (s.submitted clr false 7).mode = 7 ∧ (s.submitted clr false 7).target 1 ≠ 0 ∧ (s.submitted clr false 7).target 2 ≠ 0 := by
  rw [State.submitted_check clr hreq]
  rw [← s.mode_reqCleared clr, ← s.dormantReady_reqCleared clr] at h
  have he : (s.reqCleared clr).modeCheck 7 = (s.reqCleared clr).goDormant := if_pos h
  rw [he]
  exact ⟨State.mode_goDormant _, State.target_goDormant _ (.inl rfl), State.target_goDormant _ (.inr rfl)⟩

theorem State.submitted_dormant_refused (h : ¬ ((s.mode = 2 ∨ s.mode = 6) ∧ s.dormantReady = true)) :
    s.Refused (s.submitted clr false 7) := by
  rw [State.submitted_check clr hreq]
  rw [← s.mode_reqCleared clr, ← s.dormantReady_reqCleared clr] at h
  have he : (s.reqCleared clr).modeCheck 7 = (s.reqCleared clr).refuseMode := if_neg h
  exact he ▸ s.refused_refuseMode clr

/-- No other target stands in the table. -/
theorem State.submitted_other {x : Nat} (h : x = 0 ∨ x = 1 ∨ x = 4 ∨ x = 5) : s.Refused (s.submitted clr false (x % 8)) := by
  rw [State.submitted_check clr hreq]
  have he : (s.reqCleared clr).modeCheck (x % 8) = (s.reqCleared clr).refuseMode := by
    obtain rfl | rfl | rfl | rfl := h <;> rfl
  exact he ▸ s.refused_refuseMode clr

/-- A request that meets a hardware transition waits. -/
theorem State.submitted_waits (target : Nat) :
    (s.submitted clr true target).req.map ModeReq.target = some target ∧
      (s.submitted clr true target).flag F.BLK_MODE.REQ_PEND = true ∧ (s.submitted clr true target).mode = s.mode := by
  have he : s.submitted clr true target = ((s.reqCleared clr).setReq (some ⟨target⟩)).fset F.BLK_MODE.REQ_PEND 1 := by
    simp [State.submitted_eq, hreq]
  rw [he]
  refine ⟨rfl, ?_, ?_⟩
  · rw [State.flag_fset_self _ _ _ (by decide)]
    rfl
  · unfold State.mode
    rw [State.fget_fset_ne _ _ _ _ (.inr (.inr (by decide))), State.fget_congr rfl rfl]
    exact s.mode_reqCleared clr

end

/-- While a request waits no other one is taken. -/
theorem State.submitted_busy {s : State} (clr meets : Bool) (target : Nat) (h : s.req.isSome = true) :
    s.Refused (s.submitted clr meets target) ∧ (s.submitted clr meets target).req = s.req := by
  have he : s.submitted clr meets target = (s.reqCleared clr).refuseMode := by simp [State.submitted_eq, h]
  rw [he]
  exact ⟨s.refused_refuseMode clr, (State.req_refuseMode _).trans (s.req_reqCleared clr)⟩

/-! ### The check of a request that waited -/

theorem reqPend_offMode : F.BLK_MODE.REQ_PEND.OffMode := ⟨.inr (.inl (by decide)), .inl (by decide), .inl (by decide)⟩

/-- 01_block_and_halves.md R27. -/
theorem operatingModes_pendingCheck (s : State) (r : ModeReq) (hr : s.req = some r) :
    ∃ t, exec .modeReqPendingCheck s = .next t ∧ t.req = none ∧ t.flag F.BLK_MODE.REQ_PEND = false ∧
      (r.target = 6 → 1 ≤ s.mode → s.mode ≤ 5 → t.mode = 6) ∧
      (r.target = 6 → (s.mode < 1 ∨ 5 < s.mode) → t.flag F.BLK_MODE.REQ_ERR = true ∧ t.mode = s.mode) := by
  have hx : exec .modeReqPendingCheck s = .next (((s.setReq none).fset F.BLK_MODE.REQ_PEND 0).modeCheck r.target) := by
    change execModeReqPendingCheck s = _
    unfold execModeReqPendingCheck
    rw [hr]
  have hmode : ((s.setReq none).fset F.BLK_MODE.REQ_PEND 0).mode = s.mode :=
    (State.fget_fset_ne _ _ _ _ (.inr (.inr (by decide)))).trans (State.fget_congr rfl rfl _)
  have hpend : ((s.setReq none).fset F.BLK_MODE.REQ_PEND 0).flag F.BLK_MODE.REQ_PEND = false := by
    rw [State.flag_fset_self _ _ _ (by decide)]
    rfl
  have hreq : ((s.setReq none).fset F.BLK_MODE.REQ_PEND 0).req = none := rfl
  generalize (s.setReq none).fset F.BLK_MODE.REQ_PEND 0 = u at *
  refine ⟨_, hx, ?_, ?_, fun h6 h1 h5 => ?_, fun h6 hout => ?_⟩
  · rw [(State.modeCheck_keeps (.refl u) r.target (Allows.refl _)).1 .req (by decide), hreq]
  · have hc : Calm F.BLK_MODE.REQ_PEND u (u.modeCheck r.target) :=
      (calm_modeCheck reqPend_block.steady reqPend_offMode (.inr (.inl (by decide))) (.inr (.inl (by decide))) _).2 (.refl _ _)
    rw [hc.flag, hpend]
  · have he : u.modeCheck 6 = u.enterSafehold 1 := if_pos ((liveMode_iff _).2 (by omega))
    rw [h6, he]
    exact State.mode_enterSafehold u 1
  · have he : u.modeCheck 6 = u.refuseMode := if_neg fun hl => by
      have := (liveMode_iff _).1 hl
      omega
    rw [h6, he]
    exact ⟨State.reqErr_refuseMode u, (State.mode_refuseMode u).trans hmode⟩

/-! ### The end of the self-test -/

theorem State.gran_fset (s : State) (f : Fld) (v n : Nat) : (s.fset f v).gran n = s.gran n := rfl

theorem State.gran_setGran_self (s : State) (n : Nat) (v : Gran) : (s.setGran n v).gran n = v := by
  dsimp only [State.setGran]
  split_ifs <;> simp [State.gran, State.fset, State.wr]

theorem State.gran_setGran_ne (s : State) {n k : Nat} (v : Gran) (h : k ≠ n) : (s.setGran n v).gran k = s.gran k := by
  dsimp only [State.setGran]
  split_ifs <;> simp [State.gran, State.fset, State.wr, KMap.get_put_ne _ _ _ v h]

theorem State.gran_congr {s t : State} (h : t.mem = s.mem) (n : Nat) : t.gran n = s.gran n := by
  unfold State.gran
  rw [h]

theorem State.gran_cnt (s : State) (k n : Nat) : (s.cnt k).gran n = s.gran n := rfl

theorem State.state_markRetired_self (s : State) (n : Nat) : ((s.markRetired n).gran n).state = 3 := by
  dsimp only [State.markRetired, State.memCnt]
  rw [State.gran_cnt, State.gran_fset, State.gran_fset, State.gran_fset, State.gran_setGran_self]

theorem State.gran_markRetired_ne (s : State) {n k : Nat} (h : k ≠ n) : (s.markRetired n).gran k = s.gran k := by
  dsimp only [State.markRetired, State.memCnt]
  rw [State.gran_cnt, State.gran_fset, State.gran_fset, State.gran_fset, State.gran_setGran_ne _ _ h]

/-- The self-test retires a granule that failed, unless it is retired already. -/
def State.bistRetire (s : State) (n : Nat) : State := if (s.gran n).state = 3 then s else s.markRetired n

theorem State.state_bistRetire_self (s : State) (n : Nat) : ((s.bistRetire n).gran n).state = 3 := by
  unfold State.bistRetire
  split
  · assumption
  · exact s.state_markRetired_self n

theorem State.state_bistRetire_keeps {s : State} {k : Nat} (h : (s.gran k).state = 3) (n : Nat) :
    ((s.bistRetire n).gran k).state = 3 := by
  by_cases hk : k = n
  · subst hk
    exact s.state_bistRetire_self k
  · unfold State.bistRetire
    split
    · exact h
    · rwa [State.gran_markRetired_ne _ hk]

/-- 01_block_and_halves.md R28. -/
theorem operatingModes_bistDone (s : State) (bad : List Nat) (hm : s.mode = 1) (hd : s.flag F.BLK_MODE.BIST_DONE = false) :
    ∃ t, exec (.bistDone bad) s = .next t ∧ t.flag F.BLK_MODE.BIST_DONE = true ∧
      t.flag F.BLK_MODE.BIST_FAIL = bad.any (fun g => s.bankOn (g / 64)) ∧
      ∀ g ∈ bad, s.bankOn (g / 64) = true → (t.gran g).state = 3 := by
  have hx : exec (.bistDone bad) s = .next (((forEach (bad.filter fun g => s.bankOn (g / 64)) (fun g s => s.bistRetire g) s).fsets
      [(F.BLK_MODE.BIST_DONE, 1), (F.BLK_MODE.BIST_FAIL, b2n (!(bad.filter fun g => s.bankOn (g / 64)).isEmpty))]).raise 2) :=
    if_pos ⟨hm, hd⟩
  have hgran (n : Nat) (hn : n ∈ bad.filter fun g => s.bankOn (g / 64)) :
      ((forEach (bad.filter fun g => s.bankOn (g / 64)) (fun g s => s.bistRetire g) s).gran n).state = 3 :=
    forEach_reaches (P := fun u => (u.gran n).state = 3) (fun a u hu => State.state_bistRetire_keeps hu a)
      (fun u => u.state_bistRetire_self n) hn s
  generalize forEach (bad.filter fun g => s.bankOn (g / 64)) (fun g s => s.bistRetire g) s = u at *
  have hdone : F.BLK_MODE.BIST_DONE.Block := ⟨by decide, .inr (.inr (by decide))⟩
  have hfail : F.BLK_MODE.BIST_FAIL.Block := ⟨by decide, .inr (.inr (by decide))⟩
  have hany : (!(bad.filter fun g => s.bankOn (g / 64)).isEmpty) = bad.any fun g => s.bankOn (g / 64) := by
    rw [Bool.eq_iff_iff]
    simp
  rw [hany, State.fsets_cons, State.fsets_cons, State.fsets_nil] at hx
  dsimp only at hx
  refine ⟨_, hx, ?_, ?_, fun n hn hb => ?_⟩
  · rw [((calm_raise hdone.quiet.placed 2).2 (.refl _ _)).flag, State.flag_fset_ne _ _ _ _ (.inr (.inr (by decide))),
      State.flag_fset_self _ _ _ (by decide)]
    rfl
  · rw [((calm_raise hfail.quiet.placed 2).2 (.refl _ _)).flag, State.flag_fset_self _ _ _ (by decide)]
    cases bad.any fun g => s.bankOn (g / 64) <;> rfl
  · have hmem := State.raise_keeps (.refl ((u.fset F.BLK_MODE.BIST_DONE 1).fset F.BLK_MODE.BIST_FAIL
      (b2n (bad.any fun g => s.bankOn (g / 64))))) 2 (Allows.refl _)
    rw [State.gran_congr (hmem.1 .mem (by decide))]
    exact hgran n (List.mem_filter.2 ⟨hn, hb⟩)

end Sys2Proof.Machine

namespace Sys2Proof.Machine

/-! ### The halves that follow a change of mode -/

/-- The halves that take a change of the block's mode (01_block_and_halves.md R19). -/
def State.followers (s : State) : List Nat := s.halfList.filter fun n => s.followsMode n

theorem State.followMode_eq (s : State) (m : Nat) : s.followMode m = forEach s.followers (fun n s => s.setHalfMode n m) s := rfl

theorem modeCopy_beside_of_ne {n k : Nat} (h : modeCopy k ≠ modeCopy n) : (modeCopy n).Beside (modeCopy k) := by
  by_cases hn : n = 0 <;> by_cases hk : k = 0
  · subst hn hk
    exact absurd rfl h
  · simp only [modeCopy, if_pos hn, if_neg hk]
    exact .inr (.inl (by decide))
  · simp only [modeCopy, if_neg hn, if_pos hk]
    exact .inr (.inr (by decide))
  · simp [modeCopy, hn, hk] at h

/-- The copy of one half after that of another, or the same, half is set. -/
theorem State.hmode_setHalfMode_eq (s : State) (n k m : Nat) :
    (s.setHalfMode n m).hmode k = if modeCopy k = modeCopy n then m % 8 else s.hmode k := by
  split
  next h =>
    unfold State.hmode
    rw [h]
    exact s.hmode_setHalfMode n m
  next h => exact ((calm_setHalfMode (modeCopy_block k).quiet (modeCopy_beside_of_ne h) m).2 (.refl _ _)).fld

theorem State.hmode_setHalfMode_keeps {s : State} {k m : Nat} {P : Nat → Prop} (hm : P (m % 8)) (h : P (s.hmode k)) (n : Nat) :
    P ((s.setHalfMode n m).hmode k) := by
  rw [State.hmode_setHalfMode_eq]
  split <;> assumption

theorem State.hmode_modeChanged (s : State) (m k : Nat) : (s.modeChanged m).hmode k = s.hmode k :=
  ((calm_modeChanged (modeCopy_block k).quiet.placed (mode_beside_modeCopy k) m).2 (.refl _ _)).fld

theorem State.hmode_wdogMode (s : State) (m k : Nat) : (s.wdogMode m).hmode k = s.hmode k := State.fget_wdogMode s m _

/-- The mode of a half after a change along a list of halves is its own or the new one. -/
theorem State.hmode_forEach_keeps {s : State} {k m : Nat} {P : Nat → Prop} (hm : P (m % 8)) (h : P (s.hmode k)) (l : List Nat) :
    P ((forEach l (fun n s => s.setHalfMode n m) s).hmode k) := by
  unfold forEach
  induction l generalizing s with
  | nil => exact h
  | cons n r ih => exact ih (State.hmode_setHalfMode_keeps hm h n)

/-- After a change of the block's mode a half's copy is the new mode or as before. -/
theorem State.hmode_setMode_keeps {s : State} {k m : Nat} {P : Nat → Prop} (hm : P (m % 8)) (h : P (s.hmode k)) :
    P ((s.setMode m).hmode k) := by
  by_cases he : s.mode = m
  · rw [State.setMode_same he]
    exact State.hmode_forEach_keeps hm h _
  · rw [State.setMode_change he, State.hmode_wdogMode]
    exact State.hmode_forEach_keeps hm (by rwa [State.hmode_modeChanged]) _

/-- A half that follows takes the new mode. -/
theorem State.hmode_followMode {s : State} {k : Nat} (h : k ∈ s.followers) (m : Nat) : (s.followMode m).hmode k = m % 8 :=
  forEach_reaches (P := fun u => u.hmode k = m % 8) (fun n _ hu => State.hmode_setHalfMode_keeps (P := (· = m % 8)) rfl hu n)
    (fun u => u.hmode_setHalfMode k m) h s

theorem State.followsMode_congr {s t : State} (hc : t.cfg = s.cfg) (hh : t.halves = s.halves) (hs : t.settle = s.settle)
    (hr : t.rst = s.rst) (hl : t.leader = s.leader) (n : Nat) : t.followsMode n = s.followsMode n := by
  simp [State.followsMode, State.halfInReset, State.half, hc, hh, hs, hr, hl]

theorem leader_block : F.BLK_HALF.LEADER.Block := ⟨by decide, .inl (by decide)⟩

theorem leader_offMode : F.BLK_HALF.LEADER.OffMode := ⟨.inl (by decide), .inr (.inr (by decide)), .inr (.inr (by decide))⟩

/-- A change that keeps the halves, the reset inputs and the leader keeps who follows. -/
theorem Keeps.followers {ar : List Area} {s t : State} (h : Keeps ar s t) (hc : Area.cfg ∉ ar) (hh : Area.halves ∉ ar)
    (hs : Area.settle ∉ ar) (hr : Area.rst ∉ ar) (hl : t.leader = s.leader) : t.followers = s.followers := by
  have hcfg : t.cfg = s.cfg := h.1 .cfg hc
  have hf (n : Nat) := State.followsMode_congr hcfg (h.1 .halves hh) (h.1 .settle hs) (h.1 .rst hr) hl n
  simp [State.followers, State.halfList, hcfg, hf]

theorem State.followers_modeChanged (s : State) (m : Nat) : (s.modeChanged m).followers = s.followers :=
  (s.modeChanged_keeps m).followers (by decide) (by decide) (by decide) (by decide)
    ((calm_modeChanged leader_block.quiet.placed leader_offMode.mode m).2 (.refl _ _)).fld

theorem State.followers_setMode (s : State) (m : Nat) : (s.setMode m).followers = s.followers :=
  (State.setMode_keeps (.refl s) m (Allows.refl _)).followers (by decide) (by decide) (by decide) (by decide)
    ((calm_setMode leader_block.quiet leader_offMode m).2 (.refl _ _)).fld

theorem State.hmode_setMode {s : State} {k : Nat} (h : k ∈ s.followers) (m : Nat) : (s.setMode m).hmode k = m % 8 := by
  by_cases he : s.mode = m
  · rw [State.setMode_same he, State.hmode_followMode h]
  · rw [State.setMode_change he, State.hmode_wdogMode, State.hmode_followMode]
    rwa [State.followers_modeChanged]

/-! ### The ring protection through INTEGRATE, OPERATE and DEGRADED -/

theorem prot_placed : F.BLK_MODE.PROT.Placed := ⟨.inl (by decide)⟩

theorem modeCopy_beside_prot (n : Nat) : (modeCopy n).Beside F.BLK_MODE.PROT := by
  unfold modeCopy
  split <;> exact .inl (by decide)

/-- A half that neither leaves nor enters SAFEHOLD changes no Signal Fail, and with it no protection. -/
theorem calm_setHalfMode_prot {s t : State} {n m : Nat} (hn : t.hmode n ≠ 6) (hm : m ≠ 6) :
    Calm F.BLK_MODE.PROT s (t.setHalfMode n m) ↔ Calm F.BLK_MODE.PROT s t := by
  dsimp only [State.setHalfMode]
  rw [if_neg (by simp [hn, hm]), calm_forEach fun k u => (calm_syncTrig prot_placed k).2 (.refl _ _),
    calm_fset_beside _ (modeCopy_beside_prot n)]

theorem calm_forEach_setHalfMode_prot {s : State} {m : Nat} (hm : m % 8 ≠ 6) (l : List Nat) (hl : ∀ n ∈ l, s.hmode n ≠ 6) :
    Calm F.BLK_MODE.PROT s (forEach l (fun n s => s.setHalfMode n m) s) := by
  unfold forEach
  induction l generalizing s with
  | nil => exact .refl _ _
  | cons n r ih =>
    have hstep : Calm F.BLK_MODE.PROT s (s.setHalfMode n m) :=
      (calm_setHalfMode_prot (hl n List.mem_cons_self) fun h => hm (by rw [h])).2 (.refl _ _)
    exact hstep.trans (ih fun k hk => State.hmode_setHalfMode_keeps (P := (· ≠ 6)) hm (hl k (List.mem_cons_of_mem n hk)) n)

/-- From INTEGRATE, or between OPERATE and DEGRADED, with no follower in SAFEHOLD. -/
theorem State.calm_setMode_prot {s : State} {m : Nat} (hm : m = 4 ∨ m = 5) (hl : ∀ n ∈ s.followers, s.hmode n ≠ 6) :
    Calm F.BLK_MODE.PROT s (s.setMode m) := by
  have hm8 : m % 8 ≠ 6 := by omega
  by_cases he : s.mode = m
  · rw [State.setMode_same he]
    exact calm_forEach_setHalfMode_prot hm8 _ hl
  · have hchange : Calm F.BLK_MODE.PROT s (s.modeChanged m) :=
      (calm_modeChanged prot_placed (.inr (.inl (by decide))) m).2 (.refl _ _)
    rw [State.setMode_change he, calm_wdogMode, State.followMode_eq, State.followers_modeChanged]
    refine hchange.trans (calm_forEach_setHalfMode_prot hm8 _ fun n hn => ?_)
    rw [State.hmode_modeChanged]
    exact hl n hn

/-! ### OPERATE and DEGRADED -/

theorem halfLost_block : F.BLK_MODE.HALF_LOST.Block := ⟨by decide, .inr (.inr (by decide))⟩

theorem halfLost_offMode : F.BLK_MODE.HALF_LOST.OffMode := ⟨.inr (.inl (by decide)), .inl (by decide), .inl (by decide)⟩

/-- From OPERATE, whose followers are in OPERATE, the mode falls to DEGRADED for the protection or a lost half alone. -/
theorem State.fixDegraded_operate {s : State} (hm : s.mode = 4) (hl : ∀ n ∈ s.followers, s.hmode n ≠ 6) :
    Calm F.BLK_MODE.PROT s s.fixDegraded ∧
      s.fixDegraded.mode = if s.flag F.BLK_MODE.PROT = true ∨ s.flag F.BLK_MODE.HALF_LOST = true then 5 else 4 := by
  unfold State.fixDegraded
  by_cases h : s.flag F.BLK_MODE.PROT = true ∨ s.flag F.BLK_MODE.HALF_LOST = true
  · rw [if_pos ⟨hm, h⟩, if_pos h]
    exact ⟨State.calm_setMode_prot (.inr rfl) hl, State.mode_setMode _ (by decide)⟩
  · rw [if_neg (fun hc => h hc.2), if_neg (fun hc => by omega), if_neg h]
    exact ⟨.refl _ _, hm⟩

/-- 01_block_and_halves.md R26. -/
theorem operatingModes_enterOperate (s : State) (hm : s.mode = 3) (hj : s.cellTrunks = [] ∨ s.csJoined = true) :
    ∃ t, exec .enterOperate s = .next t ∧
      t.mode = (if t.flag F.BLK_MODE.PROT = true ∨ t.flag F.BLK_MODE.HALF_LOST = true then 5 else 4) ∧
      t.flag F.BLK_MODE.HALF_LOST = s.flag F.BLK_MODE.HALF_LOST ∧
      (s.hmode 0 ≠ 6 → s.hmode 1 ≠ 6 → t.flag F.BLK_MODE.PROT = s.flag F.BLK_MODE.PROT) := by
  have hx : exec .enterOperate s = .next (s.setMode 4).fixDegraded := if_pos ⟨hm, hj.imp List.isEmpty_iff.2 id⟩
  have hl : ∀ n ∈ (s.setMode 4).followers, (s.setMode 4).hmode n ≠ 6 := fun n hn => by
    rw [State.followers_setMode] at hn
    rw [State.hmode_setMode hn]
    decide
  obtain ⟨hprot, hmode⟩ := State.fixDegraded_operate (State.mode_setMode s (by decide)) hl
  have hlost : Calm F.BLK_MODE.HALF_LOST (s.setMode 4) (s.setMode 4).fixDegraded :=
    (calm_fixDegraded halfLost_block.quiet halfLost_offMode).2 (.refl _ _)
  have hset : Calm F.BLK_MODE.HALF_LOST s (s.setMode 4) := (calm_setMode halfLost_block.quiet halfLost_offMode 4).2 (.refl _ _)
  refine ⟨_, hx, ?_, (hset.trans hlost).flag, fun h0 h1 => ?_⟩
  · rw [hprot.flag, hlost.flag]
    exact hmode
  · refine ((State.calm_setMode_prot (.inl rfl) fun n _ => ?_).trans hprot).flag
    by_cases hn : n = 0
    · rwa [hn]
    · have hcopy : modeCopy n = modeCopy 1 := by simp [modeCopy, hn]
      unfold State.hmode at *
      rwa [hcopy]

/-- 01_block_and_halves.md R25 and R26: what a request that reaches BLK_MODE does. -/
theorem operatingModes_request (s : State) (key : Nat) (clr : Bool) (hr : s.Reaches O.BLK_MODE key) :
    let m := s.mode
    let config := m = 3 ∨ m = 4 ∨ m = 5 ∨ (m = 1 ∧ s.flag F.BLK_MODE.BIST_DONE = true) ∨ (m = 6 ∧ s.containFree = true)
    let g := s.gearOfHalf s.leader
    let integrate := m = 2 ∧ s.anyCourse s.leader = true ∧ s.flag (tbFld F.TB_STAT.SET_DONE s.leader) = true ∧
      (∀ n ∈ s.cellTrunks, s.fget (F.TRK_GEAR.VALID n) / 2 ^ g % 2 = 1) ∧
      ∀ p, p < 8 → s.cfg.hasPort p = true → s.gated p = true → s.cellTrunk (s.gclTrunk p) = true →
        s.fget (F.MAC_GCL_CTL.VALID p) / 2 ^ g % 2 = 1
    let dormant := (m = 2 ∨ m = 6) ∧ ∀ d ∈ domList s.cfg, 3 < d → s.target d ≠ 0
    (s.req = none →
      (config → ∃ t, exec (.modeReqConfig 0 clr false) s = .next t ∧ t.mode = 2) ∧
      (integrate → ∃ t, exec (.modeReqIntegrate 0 clr false) s = .next t ∧ t.mode = 3) ∧
      (1 ≤ m → m ≤ 5 →
        ∃ t, exec (.modeReqSafehold 0 clr false) s = .next t ∧ t.mode = 6 ∧ t.fget F.BLK_MODE.SH_CAUSE = 1) ∧
      (dormant → ∃ t, exec (.modeReqDormant 0 clr false) s = .next t ∧ t.mode = 7 ∧ t.target 1 ≠ 0 ∧ t.target 2 ≠ 0) ∧
      (∀ i, (i = .modeReqConfig 0 clr false ∧ ¬ config) ∨ (i = .modeReqIntegrate 0 clr false ∧ ¬ integrate) ∨
          (i = .modeReqSafehold 0 clr false ∧ ¬ (1 ≤ m ∧ m ≤ 5)) ∨ (i = .modeReqDormant 0 clr false ∧ ¬ dormant) ∨
          (∃ x, (x = 0 ∨ x = 1 ∨ x = 4 ∨ x = 5) ∧ i = .modeReqOtherTarget 0 x clr false) →
        ∃ t, exec i s = .next t ∧ t.flag F.BLK_MODE.REQ_ERR = true ∧ t.mode = m)) ∧
    (∀ x ∈ ([(.modeReqConfig 0 clr, 2), (.modeReqIntegrate 0 clr, 3), (.modeReqSafehold 0 clr, 6), (.modeReqDormant 0 clr, 7)] :
        List ((Bool → Instr) × Nat)),
      (s.req.isSome = true → ∀ meets, ∃ t, exec (x.1 meets) s = .next t ∧ t.flag F.BLK_MODE.REQ_ERR = true ∧ t.mode = m ∧ t.req = s.req) ∧
      (s.req = none →
        ∃ t, exec (x.1 true) s = .next t ∧ t.req.map ModeReq.target = some x.2 ∧ t.flag F.BLK_MODE.REQ_PEND = true ∧ t.mode = m)) := by
  intro m config g integrate dormant
  have hint : integrate ↔ s.mode = 2 ∧ s.integrateReady = true := and_congr_right fun _ => s.integrateReady_iff.symm
  have hdorm : dormant ↔ (s.mode = 2 ∨ s.mode = 6) ∧ s.dormantReady = true := and_congr_right fun _ => s.dormantReady_iff.symm
  refine ⟨fun hreq => ⟨fun h => ?_, fun h => ?_, fun h1 h5 => ?_, fun h => ?_, fun i hi => ?_⟩, fun x hx => ?_⟩
  · exact ⟨_, exec_modeReqConfig hr clr false, State.submitted_config_taken clr hreq h⟩
  · exact ⟨_, exec_modeReqIntegrate hr clr false, State.submitted_integrate_taken clr hreq (hint.1 h)⟩
  · exact ⟨_, exec_modeReqSafehold hr clr false, State.submitted_safehold_taken clr hreq ⟨h1, h5⟩⟩
  · exact ⟨_, exec_modeReqDormant hr clr false, State.submitted_dormant_taken clr hreq (hdorm.1 h)⟩
  · obtain ⟨rfl, h⟩ | ⟨rfl, h⟩ | ⟨rfl, h⟩ | ⟨rfl, h⟩ | ⟨x, hx, rfl⟩ := hi
    · exact ⟨_, exec_modeReqConfig hr clr false, State.submitted_config_refused clr hreq h⟩
    · exact ⟨_, exec_modeReqIntegrate hr clr false, State.submitted_integrate_refused clr hreq (mt hint.2 h)⟩
    · exact ⟨_, exec_modeReqSafehold hr clr false, State.submitted_safehold_refused clr hreq h⟩
    · exact ⟨_, exec_modeReqDormant hr clr false, State.submitted_dormant_refused clr hreq (mt hdorm.2 h)⟩
    · exact ⟨_, exec_modeReqOtherTarget hr clr false x, State.submitted_other clr hreq hx⟩
  · have hsub (meets : Bool) : exec (x.1 meets) s = .next (s.submitted clr meets x.2) := by
      simp only [List.mem_cons, List.not_mem_nil, or_false] at hx
      obtain rfl | rfl | rfl | rfl := hx
      · exact exec_modeReqConfig hr clr meets
      · exact exec_modeReqIntegrate hr clr meets
      · exact exec_modeReqSafehold hr clr meets
      · exact exec_modeReqDormant hr clr meets
    refine ⟨fun hreq meets => ?_, fun hreq => ⟨_, hsub true, State.submitted_waits clr hreq x.2⟩⟩
    obtain ⟨⟨herr, hmode⟩, hsame⟩ := State.submitted_busy clr meets x.2 hreq
    exact ⟨_, hsub meets, herr, hmode, hsame⟩

/-- Settles O6, clause by clause: the table decides on the state in which the write of BLK_MODE finds the block. -/
theorem operatingModes : Obligations.OperatingModes :=
  ⟨operatingModes_request, operatingModes_pendingCheck, operatingModes_bistDone, operatingModes_enterOperate⟩

end Sys2Proof.Machine

namespace Sys2Proof.Machine

/-! ## Clock supervision (02_boundary_and_access.md R41; 18_faults_and_selftest.md R418) -/

/-- A field of one bit is that bit of its word. -/
theorem State.flag_eq_bitOf (s : State) {f : Fld} (h : f.wd = 1) : s.flag f = bitOf (s.rd f.off) f.lo := by
  have hb : (s.rd f.off).getLsbD f.lo = (s.fget f).testBit 0 := by
    unfold State.fget
    rw [testBit_getBits, h]
    simp
  have hlt := s.fget_lt f
  rw [h] at hlt
  unfold State.flag bitOf
  rw [hb]
  interval_cases s.fget f <;> rfl

theorem trkClkLoss_steady {n : Nat} (hn : n < 2) : (F.TRK_STAT.CLK_LOSS n).Steady := by
  have ho : (F.TRK_STAT.CLK_LOSS n).off = 0x020004 + 0x4000 * n := rfl
  have hc : ClockWord (F.TRK_STAT.CLK_LOSS n).off := by
    rw [ho]
    exact ⟨by omega, by omega, by omega, by simp only [O.TRK_CS_STAT]; omega⟩
  exact ⟨⟨⟨.inr (.inl hc)⟩, .inl (by simp only [ho, O.BLK_MODE]; omega)⟩, hc.2.1⟩

theorem macClkLoss_steady {p : Nat} (hp : p < 8) : (F.MAC_STAT.CLK_LOSS p).Steady := by
  have ho : (F.MAC_STAT.CLK_LOSS p).off = 0x010004 + 0x1000 * p := rfl
  have hc : ClockWord (F.MAC_STAT.CLK_LOSS p).off := by
    rw [ho]
    exact ⟨by omega, by omega, by omega, by simp only [O.TRK_CS_STAT]; omega⟩
  exact ⟨⟨⟨.inr (.inl hc)⟩, .inl (by simp only [ho, O.BLK_MODE]; omega)⟩, hc.2.1⟩

/-- A unit's field lies beside all of the block's own. -/
theorem Fld.Beside.of_unit {f g : Fld} (hf : f.off < 0x010000) (hg : 0x010000 ≤ g.off) : f.Beside g :=
  .inl (by omega)

theorem Fld.OffMode.of_unit {g : Fld} (hg : 0x010000 ≤ g.off) : g.OffMode :=
  ⟨Fld.Beside.of_unit (by decide) hg, Fld.Beside.of_unit (by decide) hg, Fld.Beside.of_unit (by decide) hg⟩

theorem Trunk.lost_setLost_self (v : Trunk) (tx b : Bool) : (v.setLost tx b).lost tx = b := by cases tx <;> rfl

theorem Trunk.lost_setLost_other (v : Trunk) (tx b : Bool) : (v.setLost tx b).lost (!tx) = v.lost (!tx) := by cases tx <;> rfl

theorem Port.lost_setLost_self (v : Port) (tx b : Bool) : (v.setLost tx b).lost tx = b := by cases tx <;> rfl

theorem Port.lost_setLost_other (v : Port) (tx b : Bool) : (v.setLost tx b).lost (!tx) = v.lost (!tx) := by cases tx <;> rfl

theorem Cfg.trunks_le_two (c : Cfg) : c.trunks ≤ 2 := by cases c <;> decide

theorem Cfg.fieldPorts_le_eight (c : Cfg) : c.fieldPorts ≤ 8 := by cases c <;> decide

/-- A change of other words leaves what a fault is escalated by. -/
theorem State.rd_fltEsc_raise (s : State) (n : Nat) : (s.raise n).rd O.FLT_ESC = s.rd O.FLT_ESC := by
  unfold State.raise
  split
  · next hn =>
    have hmax : s.cfg.irqSources ≤ 1024 := by cases s.cfg <;> decide
    refine s.rd_fset_ne _ _ ?_
    simp only [pendFld, O.IRQ_PEND, O.FLT_ESC]
    omega
  · rfl

/-- A fault escalated by FLT_ESC takes a live block to SAFEHOLD with cause 3 (18_faults_and_selftest.md R416, R423). -/
theorem State.logFault_escalated {s : State} {b : Nat} (hb : bitOf (s.rd O.FLT_ESC) b = true) (h1 : 1 ≤ s.mode) (h5 : s.mode ≤ 5)
    (code index detail : Nat) : (s.logFault code index detail (.e b)).mode = 6 ∧
      (s.logFault code index detail (.e b)).fget F.BLK_MODE.SH_CAUSE = 3 := by
  rw [State.logFault_eq, if_pos ⟨hb, (liveMode_iff _).2 ⟨h1, h5⟩⟩]
  exact ⟨State.mode_enterSafehold _ 3, State.cause_enterSafehold _ (by decide)⟩

theorem State.fixDegraded_of_mode {s : State} (h4 : s.mode ≠ 4) (h5 : s.mode ≠ 5) : s.fixDegraded = s := by
  unfold State.fixDegraded
  rw [if_neg (fun h => h4 h.1), if_neg (fun h => h5 h.1)]

/-! ### Trunks -/

/-- A trunk's lane clock has stopped, as its registers and its mark show it. -/
def State.trunkClkLost (s : State) (n : Nat) (tx : Bool) : State :=
  (s.setTrunk n ((s.trunk n).setLost tx true)).setFlag (F.TRK_STAT.CLK_LOSS n) (srcTrunk s.cfg n + 1)

/-- The marks and the status after the loss, through whatever the fault brings. -/
theorem State.trunkClkLost_spec (s : State) {n : Nat} (hn : n < 2) (tx : Bool) :
    ((s.trunkClkLost n tx).trunk n).lost tx = true ∧ (s.trunkClkLost n tx).flag (F.TRK_STAT.CLK_LOSS n) = true ∧
      (s.trunkClkLost n tx).mode = s.mode ∧ (s.trunkClkLost n tx).rd O.FLT_ESC = s.rd O.FLT_ESC := by
  have hunit : 0x010000 ≤ (F.TRK_STAT.CLK_LOSS n).off := Nat.le_add_right_of_le (by decide)
  have hflag : Calm F.BLK_MODE.MODE (s.setTrunk n ((s.trunk n).setLost tx true)) (s.trunkClkLost n tx) := by
    refine (calm_setFlag mode_block.quiet.placed (.inl ?_) _).2 (.refl _ _)
    exact (Nat.lt_of_lt_of_le (by decide) hunit).ne
  refine ⟨?_, State.flag_setFlag _ (trkClkLoss_steady hn).placed (by simp [F.TRK_STAT.CLK_LOSS]) (by simp [F.TRK_STAT.CLK_LOSS]) _,
    hflag.fld, ?_⟩
  · rw [hflag.trunk, State.trunk_setTrunk_self, Trunk.lost_setLost_self]
  · unfold State.trunkClkLost State.setFlag
    rw [State.rd_fltEsc_raise, State.rd_fset_ne]
    · rfl
    · simp only [F.TRK_STAT.CLK_LOSS, O.TRK_STAT, O.FLT_ESC]
      omega

theorem clocks_trunkLoss {s : State} {n : Nat} {tx : Bool} (hn : n < s.cfg.trunks) (hdom : s.domOn (16 + n) = true)
    (hrst : s.halfInReset (s.cfg.halfOfTrunk n) = false) (hlost : (s.trunk n).lost tx = false) (hen : s.flag (F.TRK_CFG.EN n) = true) :
    ∃ t, exec (.clockLoss true n tx) s = .next t ∧ (t.trunk n).lost tx = true ∧ t.flag (F.TRK_STAT.CLK_LOSS n) = true ∧
      (s.flag F.FLT_ESC.TR_CLK = true → 1 ≤ s.mode → s.mode ≤ 5 → t.mode = 6 ∧ t.fget F.BLK_MODE.SH_CAUSE = 3) := by
  have hx : exec (.clockLoss true n tx) s = .next (((s.trunkClkLost n tx).logFault 0x11 n 0 (.e 2)).sfUpdate).fixDegraded :=
    if_pos ⟨hn, hdom, hrst, hlost, hen⟩
  have hn2 := hn.trans_le (Cfg.trunks_le_two _)
  obtain ⟨hmark, hstat, hmode, hesc⟩ := s.trunkClkLost_spec hn2 tx
  have hg := trkClkLoss_steady hn2
  have hunit : 0x010000 ≤ (F.TRK_STAT.CLK_LOSS n).off := Nat.le_add_right_of_le (by decide)
  generalize s.trunkClkLost n tx = u at *
  have hc : Calm (F.TRK_STAT.CLK_LOSS n) u ((u.logFault 0x11 n 0 (.e 2)).sfUpdate).fixDegraded := by
    rw [calm_fixDegraded hg.quiet (.of_unit hunit), calm_sfUpdate hg.quiet,
      calm_logFault hg (.of_unit hunit) (Fld.Beside.of_unit (by decide) hunit)]
    exact .refl _ _
  refine ⟨_, hx, by rw [hc.trunk, hmark], by rw [hc.flag, hstat], fun hb h1 h5 => ?_⟩
  rw [State.flag_eq_bitOf _ rfl] at hb
  rw [← hmode] at h1 h5
  obtain ⟨h6, h3⟩ := State.logFault_escalated (b := 2) (hesc ▸ hb) h1 h5 0x11 n 0
  have hm : ((u.logFault 0x11 n 0 (.e 2)).sfUpdate).mode = 6 :=
    ((calm_sfUpdate mode_block.quiet).2 (.refl F.BLK_MODE.MODE _)).fld.trans h6
  rw [State.fixDegraded_of_mode (by omega) (by omega)]
  exact ⟨hm, ((calm_sfUpdate shCause_block.quiet).2 (.refl F.BLK_MODE.SH_CAUSE _)).fld.trans h3⟩

theorem clocks_trunkReturn {s : State} {n : Nat} {tx : Bool} (hn : n < s.cfg.trunks) (hlost : (s.trunk n).lost tx = true) :
    ∃ t, exec (.clockReturn true n tx) s = .next t ∧ (t.trunk n).lost tx = false ∧
      (t.trunk n).lost (!tx) = (s.trunk n).lost (!tx) := by
  have hx : exec (.clockReturn true n tx) s = .next ((s.setTrunk n ((s.trunk n).setLost tx false)).sfUpdate).fixDegraded :=
    if_pos ⟨hn, hlost⟩
  have hc : Calm F.BLK_MODE.SH_CAUSE (s.setTrunk n ((s.trunk n).setLost tx false))
      ((s.setTrunk n ((s.trunk n).setLost tx false)).sfUpdate).fixDegraded := by
    rw [calm_fixDegraded shCause_block.quiet shCause_offMode, calm_sfUpdate shCause_block.quiet]
    exact .refl _ _
  refine ⟨_, hx, ?_, ?_⟩
  · rw [hc.trunk, State.trunk_setTrunk_self, Trunk.lost_setLost_self]
  · rw [hc.trunk, State.trunk_setTrunk_self, Trunk.lost_setLost_other]

/-! ### Field ports -/

/-- A port's byte clock has stopped, as its registers and its mark show it. -/
def State.portClkLost (s : State) (n : Nat) (tx : Bool) : State :=
  ((s.setPort n ((s.port n).setLost tx true)).fset (F.MAC_STAT.CLK_LOSS n) 1).raisePort n 1

theorem State.portClkLost_eq (s : State) {n : Nat} (hn : n < 8) (tx : Bool) :
    s.portClkLost n tx = (s.setPort n ((s.port n).setLost tx true)).setFlag (F.MAC_STAT.CLK_LOSS n) (srcPort s.cfg n + 1) := by
  unfold State.portClkLost State.raisePort
  rw [if_pos hn]
  rfl

theorem State.portClkLost_spec (s : State) {n : Nat} (hn : n < 8) (tx : Bool) :
    ((s.portClkLost n tx).port n).lost tx = true ∧ (s.portClkLost n tx).flag (F.MAC_STAT.CLK_LOSS n) = true ∧
      (s.portClkLost n tx).mode = s.mode ∧ (s.portClkLost n tx).rd O.FLT_ESC = s.rd O.FLT_ESC := by
  have hunit : 0x010000 ≤ (F.MAC_STAT.CLK_LOSS n).off := Nat.le_add_right_of_le (by decide)
  rw [State.portClkLost_eq s hn]
  have hflag : Calm F.BLK_MODE.MODE (s.setPort n ((s.port n).setLost tx true))
      ((s.setPort n ((s.port n).setLost tx true)).setFlag (F.MAC_STAT.CLK_LOSS n) (srcPort s.cfg n + 1)) := by
    refine (calm_setFlag mode_block.quiet.placed (.inl ?_) _).2 (.refl _ _)
    exact (Nat.lt_of_lt_of_le (by decide) hunit).ne
  refine ⟨?_, State.flag_setFlag _ (macClkLoss_steady hn).placed (by simp [F.MAC_STAT.CLK_LOSS]) (by simp [F.MAC_STAT.CLK_LOSS]) _,
    hflag.fld, ?_⟩
  · rw [hflag.port, State.port_setPort_self, Port.lost_setLost_self]
  · unfold State.setFlag
    rw [State.rd_fltEsc_raise, State.rd_fset_ne]
    · rfl
    · simp only [F.MAC_STAT.CLK_LOSS, O.MAC_STAT, O.FLT_ESC]
      omega

theorem clocks_portLoss {s : State} {n : Nat} {tx : Bool} (hn : n < s.cfg.fieldPorts) (hdom : s.domOn (8 + n) = true)
    (hrst : s.halfInReset (s.cfg.halfOfPort n) = false) (hlost : (s.port n).lost tx = false)
    (hen : s.flag (F.MAC_CTL.EN_RX n) = true ∨ s.flag (F.MAC_CTL.EN_TX n) = true) :
    ∃ t, exec (.clockLoss false n tx) s = .next t ∧ (t.port n).lost tx = true ∧ t.flag (F.MAC_STAT.CLK_LOSS n) = true ∧
      (s.flag F.FLT_ESC.FP_CLK = true → 1 ≤ s.mode → s.mode ≤ 5 → t.mode = 6 ∧ t.fget F.BLK_MODE.SH_CAUSE = 3) := by
  have hx : exec (.clockLoss false n tx) s = .next ((s.portClkLost n tx).logFault 0x10 n 0 (.e 1)) :=
    if_pos ⟨hn, hdom, hrst, hlost, hen⟩
  have hn8 := hn.trans_le (Cfg.fieldPorts_le_eight _)
  obtain ⟨hmark, hstat, hmode, hesc⟩ := s.portClkLost_spec hn8 tx
  have hg := macClkLoss_steady hn8
  have hunit : 0x010000 ≤ (F.MAC_STAT.CLK_LOSS n).off := Nat.le_add_right_of_le (by decide)
  generalize s.portClkLost n tx = u at *
  have hc : Calm (F.MAC_STAT.CLK_LOSS n) u (u.logFault 0x10 n 0 (.e 1)) :=
    (calm_logFault hg (.of_unit hunit) (Fld.Beside.of_unit (by decide) hunit) _ _ _ _ _).2 (.refl _ _)
  refine ⟨_, hx, by rw [hc.port, hmark], by rw [hc.flag, hstat], fun hb h1 h5 => ?_⟩
  rw [State.flag_eq_bitOf _ rfl] at hb
  rw [← hmode] at h1 h5
  exact State.logFault_escalated (b := 1) (hesc ▸ hb) h1 h5 0x10 n 0

theorem clocks_portReturn {s : State} {n : Nat} {tx : Bool} (hn : n < s.cfg.fieldPorts) (hlost : (s.port n).lost tx = true) :
    ∃ t, exec (.clockReturn false n tx) s = .next t ∧ (t.port n).lost tx = false ∧
      (t.port n).lost (!tx) = (s.port n).lost (!tx) ∧ t.regs = s.regs := by
  refine ⟨s.setPort n ((s.port n).setLost tx false), if_pos ⟨hn, hlost⟩, ?_, ?_, rfl⟩
  · rw [State.port_setPort_self, Port.lost_setLost_self]
  · rw [State.port_setPort_self, Port.lost_setLost_other]

/-- 02_boundary_and_access.md R41 and 18_faults_and_selftest.md R418. -/
theorem halvesLinksAndClocks_clocks (s : State) (n : Nat) (tx : Bool) :
    (n < s.cfg.trunks →
      (s.domOn (16 + n) = true → s.halfInReset (s.cfg.halfOfTrunk n) = false → (s.trunk n).lost tx = false → s.flag (F.TRK_CFG.EN n) = true →
        ∃ t, exec (.clockLoss true n tx) s = .next t ∧ (t.trunk n).lost tx = true ∧ t.flag (F.TRK_STAT.CLK_LOSS n) = true ∧
          (s.flag F.FLT_ESC.TR_CLK = true → 1 ≤ s.mode → s.mode ≤ 5 → t.mode = 6 ∧ t.fget F.BLK_MODE.SH_CAUSE = 3)) ∧
      ((s.trunk n).lost tx = true →
        ∃ t, exec (.clockReturn true n tx) s = .next t ∧ (t.trunk n).lost tx = false ∧ (t.trunk n).lost (!tx) = (s.trunk n).lost (!tx))) ∧
    (n < s.cfg.fieldPorts →
      (s.domOn (8 + n) = true → s.halfInReset (s.cfg.halfOfPort n) = false → (s.port n).lost tx = false →
        (s.flag (F.MAC_CTL.EN_RX n) = true ∨ s.flag (F.MAC_CTL.EN_TX n) = true) →
        ∃ t, exec (.clockLoss false n tx) s = .next t ∧ (t.port n).lost tx = true ∧ t.flag (F.MAC_STAT.CLK_LOSS n) = true ∧
          (s.flag F.FLT_ESC.FP_CLK = true → 1 ≤ s.mode → s.mode ≤ 5 → t.mode = 6 ∧ t.fget F.BLK_MODE.SH_CAUSE = 3)) ∧
      ((s.port n).lost tx = true →
        ∃ t, exec (.clockReturn false n tx) s = .next t ∧ (t.port n).lost tx = false ∧
          (t.port n).lost (!tx) = (s.port n).lost (!tx) ∧ t.regs = s.regs)) :=
  ⟨fun hn => ⟨clocks_trunkLoss hn, clocks_trunkReturn hn⟩, fun hn => ⟨clocks_portLoss hn, clocks_portReturn hn⟩⟩

end Sys2Proof.Machine

namespace Sys2Proof.Machine

/-! ## Links and the lead (01_block_and_halves.md R21, R22, R30 to R36; 18_faults_and_selftest.md R420) -/

/-- The pieces of the state that a change of mode writes. -/
abbrev modeAreas : List Area := [.regs, .out, .free, .trigs, .flt, .trunks, .node, .gload, .cls, .funcs]

/-- Those that SAFEHOLD and a logged fault write. -/
abbrev safeholdAreas : List Area := modeAreas ++ [.frames, .ports, .pipes, .emem, .qps, .mem, .dmas]

/-! ### What the receivers of the links keep -/

/-- Every half holds the same of its links and of its own reset. -/
structure SameLinks (s t : State) : Prop where
  half : ∀ n, (t.half n).half = (s.half n).half
  spine : ∀ n, (t.half n).spine = (s.half n).spine
  fresh : ∀ n, (t.half n).fromReset = (s.half n).fromReset

theorem SameLinks.refl (s : State) : SameLinks s s := ⟨fun _ => rfl, fun _ => rfl, fun _ => rfl⟩

theorem SameLinks.trans {s t u : State} (h : SameLinks s t) (k : SameLinks t u) : SameLinks s u :=
  ⟨fun n => (k.half n).trans (h.half n), fun n => (k.spine n).trans (h.spine n), fun n => (k.fresh n).trans (h.fresh n)⟩

theorem Keeps.half {ar : List Area} {s t : State} (h : Keeps ar s t) (hh : Area.halves ∉ ar) (n : Nat) : t.half n = s.half n := by
  unfold State.half
  rw [h.1 .halves hh]

/-- An operation on other pieces of the state. -/
theorem Keeps.links {ar : List Area} {s t : State} (h : Keeps ar s t) (hh : Area.halves ∉ ar) : SameLinks s t :=
  ⟨fun n => by rw [h.half hh], fun n => by rw [h.half hh], fun n => by rw [h.half hh]⟩

/-- A half that changes in nothing of these. -/
theorem SameLinks.setHalf (s : State) {n : Nat} {v : HalfSt} (hh : v.half = (s.half n).half) (hs : v.spine = (s.half n).spine)
    (hf : v.fromReset = (s.half n).fromReset) : SameLinks s (s.setHalf n v) := by
  have hne {k : Nat} (hk : k ≠ n) := s.half_setHalf_ne v hk
  refine ⟨fun k => ?_, fun k => ?_, fun k => ?_⟩ <;> by_cases hk : k = n
  · rw [hk, State.half_setHalf_self, hh]
  · rw [hne hk]
  · rw [hk, State.half_setHalf_self, hs]
  · rw [hne hk]
  · rw [hk, State.half_setHalf_self, hf]
  · rw [hne hk]

theorem SameLinks.linked {s t : State} (h : SameLinks s t) : t.linked = s.linked := by
  unfold State.linked
  rw [h.half, h.half]

theorem SameLinks.copier {s t : State} (h : SameLinks s t) (w : Nat) : t.copier w = s.copier w := by
  unfold State.copier
  rw [h.fresh]

/-! ### Fields through the lead -/

section
variable {g : Fld} {s t : State}

@[simp] theorem calm_setHalf (n : Nat) (v : HalfSt) : Calm g s (t.setHalf n v) ↔ Calm g s t := Calm.iff_of_eq rfl rfl rfl rfl
@[simp] theorem calm_setSettle (v : Bool) : Calm g s (t.setSettle v) ↔ Calm g s t := Calm.iff_of_eq rfl rfl rfl rfl
@[simp] theorem calm_setTb (n : Nat) (v : TimeBase) : Calm g s (t.setTb n v) ↔ Calm g s t := Calm.iff_of_eq rfl rfl rfl rfl
@[simp] theorem calm_setGen (n : Nat) (v : Gen) : Calm g s (t.setGen n v) ↔ Calm g s t := Calm.iff_of_eq rfl rfl rfl rfl

@[simp] theorem calm_dropFollow : Calm g s t.dropFollow ↔ Calm g s t := by simp [State.dropFollow]

@[simp] theorem calm_splitGear : Calm g s t.splitGear ↔ Calm g s t := calm_setHalf _ _

@[simp] theorem calm_commitFail (hg : g.Steady) : Calm g s t.commitFail ↔ Calm g s t := by
  unfold State.commitFail
  split <;> simp [hg, F.CLS_COMMIT.PENDING, F.CLS_COMMIT.RESULT, F.CLS_COURSE_STAT.STAGE_OPEN, O.CLS_COMMIT, O.CLS_COURSE_STAT]

@[simp] theorem calm_leadCourses (hg : g.Steady) (w : Nat) : Calm g s (t.leadCourses w) ↔ Calm g s t := by
  unfold State.leadCourses
  split <;> simp [hg, F.CLS_COURSE_STAT.CUR, O.CLS_COURSE_STAT]

theorem calm_setLost (hg : g.Placed) (h : F.BLK_MODE.HALF_LOST.Beside g) : Calm g s t.setLost ↔ Calm g s t := by
  simp [State.setLost, calm_setFlag hg h]

theorem calm_degradeHalf (hg : g.Quiet) (hm : g.OffMode) (n : Nat) : Calm g s (t.degradeHalf n) ↔ Calm g s t := by
  simp [State.degradeHalf, calm_setHalfMode hg (hm.copy n)]

theorem calm_halfSafehold (hg : g.Steady) (hm : g.OffMode) (hc : F.BLK_MODE.SH_CAUSE.Beside g) (n cause : Nat) :
    Calm g s (t.halfSafehold n cause) ↔ Calm g s t := by
  simp [State.halfSafehold, calm_setHalfMode hg.quiet (hm.copy n), calm_fset_beside _ hc, hg, tbFld, F.TB_STAT.JOINED]

end

/-- HALF_LOST is set from then on. -/
theorem State.halfLost_setLost (s : State) : s.setLost.flag F.BLK_MODE.HALF_LOST = true := by
  unfold State.setLost
  split
  · assumption
  · exact s.flag_setFlag halfLost_block.quiet.placed (by decide) (by decide) 5

/-- One half alone enters SAFEHOLD (01_block_and_halves.md R33). -/
theorem State.halfSafehold_spec {s : State} {n cause : Nat} (h1 : 1 ≤ s.hmode n) (h5 : s.hmode n ≤ 5) (hc : cause < 16) :
    (s.halfSafehold n cause).hmode n = 6 ∧ (s.halfSafehold n cause).fget F.BLK_MODE.SH_CAUSE = cause := by
  unfold State.halfSafehold
  rw [if_pos ((liveMode_iff _).2 ⟨h1, h5⟩)]
  dsimp only
  generalize hu : (s.fset F.BLK_MODE.SH_CAUSE cause).fset (tbFld F.TB_STAT.JOINED n) 0 = u
  have hcause : u.fget F.BLK_MODE.SH_CAUSE = cause := by
    rw [← hu, State.fget_fset_ne, State.fget_fset_self _ _ _ (by decide)]
    · exact Nat.mod_eq_of_lt hc
    · exact .inl (by simp [F.BLK_MODE.SH_CAUSE, O.BLK_MODE, tbFld, F.TB_STAT.JOINED, O.TB_STAT]; omega)
  have hmode : Calm (modeCopy n) (u.setHalfMode n 6) ((u.setHalfMode n 6).safeholdHalf n) :=
    (calm_safeholdHalf (modeCopy_block n).steady n).2 (.refl _ _)
  have hkeep : Calm F.BLK_MODE.SH_CAUSE u ((u.setHalfMode n 6).safeholdHalf n) := by
    rw [calm_safeholdHalf shCause_block.steady, calm_setHalfMode shCause_block.quiet (shCause_offMode.copy n)]
    exact .refl _ _
  exact ⟨hmode.fld.trans (State.hmode_setHalfMode u n 6), hkeep.fld.trans hcause⟩

/-! ### A leader event -/

/-- What a leader event writes in the block's own registers (01_block_and_halves.md R31 to R33). -/
def State.leadWritten (s : State) (w epoch cause : Nat) : State :=
  s.fsets
    [(F.BLK_HALF.LEADER, w), (F.BLK_HALF.EPOCH, epoch), (claimFld w, 1), (F.BLK_LEAD_LOG.WIN_EPOCH, epoch),
     (F.BLK_LEAD_LOG.WIN_HALF, w), (F.BLK_LEAD_LOG.CAUSE, cause), (F.BLK_LEAD_LOG.DROPS, 0)]

/-- The halves of a leader event: the epoch where they are connected, and the winner's course. -/
def State.leadHalves (s : State) (w epoch : Nat) : State :=
  (forEach ([0, 1].filter fun h => h == w || s.linked) (fun h s => s.setHalf h { s.half h with epoch := epoch }) s).leadCourses w

theorem State.leadEvent_eq (s : State) (w epoch cause : Nat) :
    s.leadEvent w epoch cause = (((s.leadHalves w epoch).leadWritten w epoch cause).dropFollow).raise 3 := rfl

theorem claimFld_wd (n : Nat) : (claimFld n).wd = 1 ∧ (claimFld n).lo + (claimFld n).wd ≤ 32 := by
  unfold claimFld
  split <;> decide

/-- The claim lies beside the other fields that a leader event writes. -/
theorem claimFld_beside (n : Nat) : (claimFld n).Beside F.BLK_HALF.LEADER ∧ (claimFld n).Beside F.BLK_HALF.EPOCH ∧
    (claimFld n).Beside F.BLK_HALF.LINK_UP ∧ F.BLK_HALF.LEADER.Beside (claimFld n) ∧ F.BLK_HALF.EPOCH.Beside (claimFld n) := by
  unfold claimFld
  split <;> exact ⟨.inr (.inr (by decide)), .inr (.inl (by decide)), .inr (.inl (by decide)), .inr (.inl (by decide)),
    .inr (.inr (by decide))⟩

theorem claimFld_off (n : Nat) : (claimFld n).off = O.BLK_HALF := by
  unfold claimFld
  split <;> rfl

/-- A field of BLK_HALF beside the leader, the epoch and the winner's claim sees no leader event's entry. -/
theorem State.fget_leadWritten {g : Fld} (s : State) {w : Nat} (epoch cause : Nat) (ho : g.off ≠ O.BLK_LEAD_LOG)
    (hl : F.BLK_HALF.LEADER.Beside g) (he : F.BLK_HALF.EPOCH.Beside g) (hc : (claimFld w).Beside g) :
    (s.leadWritten w epoch cause).fget g = s.fget g := by
  simp only [State.leadWritten, State.fsets_cons, State.fsets_nil]
  rw [State.fget_fset_word _ _ ho, State.fget_fset_word _ _ ho, State.fget_fset_word _ _ ho, State.fget_fset_word _ _ ho,
    State.fget_fset_ne _ _ _ _ hc, State.fget_fset_ne _ _ _ _ he, State.fget_fset_ne _ _ _ _ hl]

theorem State.leader_leadWritten (s : State) {w : Nat} (hw : w < 2) (epoch cause : Nat) :
    (s.leadWritten w epoch cause).leader = w := by
  simp only [State.leadWritten, State.fsets_cons, State.fsets_nil, State.leader]
  rw [State.fget_fset_word _ _ (by decide), State.fget_fset_word _ _ (by decide), State.fget_fset_word _ _ (by decide),
    State.fget_fset_word _ _ (by decide), State.fget_fset_ne _ _ _ _ (claimFld_beside w).1,
    State.fget_fset_ne _ _ _ _ (.inr (.inr (by decide))), State.fget_fset_self _ _ _ (by decide)]
  exact Nat.mod_eq_of_lt hw

theorem State.epoch_leadWritten (s : State) (w : Nat) {epoch : Nat} (he : epoch < 65536) (cause : Nat) :
    (s.leadWritten w epoch cause).fget F.BLK_HALF.EPOCH = epoch := by
  simp only [State.leadWritten, State.fsets_cons, State.fsets_nil]
  rw [State.fget_fset_word _ _ (by decide), State.fget_fset_word _ _ (by decide), State.fget_fset_word _ _ (by decide),
    State.fget_fset_word _ _ (by decide), State.fget_fset_ne _ _ _ _ (claimFld_beside w).2.1,
    State.fget_fset_self _ _ _ (by decide)]
  exact Nat.mod_eq_of_lt he

theorem State.claims_fset_one (s : State) (w : Nat) : (s.fset (claimFld w) 1).claims w = true := by
  obtain ⟨hwd, hle⟩ := claimFld_wd w
  unfold State.claims
  rw [State.flag_fset_self _ _ _ hle, hwd]
  rfl

theorem State.claims_fset_zero (s : State) (w : Nat) : (s.fset (claimFld w) 0).claims w = false := by
  obtain ⟨hwd, hle⟩ := claimFld_wd w
  unfold State.claims
  rw [State.flag_fset_self _ _ _ hle, hwd]
  rfl

theorem State.flag_fset_word {g : Fld} (s : State) {f : Fld} (v : Nat) (h : g.off ≠ f.off) : (s.fset f v).flag g = s.flag g :=
  s.flag_fset_ne f g v (.inl h)

theorem State.claims_leadWritten (s : State) (w epoch cause : Nat) : (s.leadWritten w epoch cause).claims w = true := by
  have ho : (claimFld w).off ≠ O.BLK_LEAD_LOG := by
    rw [claimFld_off]
    decide
  have h1 := State.claims_fset_one ((s.fset F.BLK_HALF.LEADER w).fset F.BLK_HALF.EPOCH epoch) w
  simp only [State.leadWritten, State.fsets_cons, State.fsets_nil, State.claims] at *
  rw [State.flag_fset_word _ _ ho, State.flag_fset_word _ _ ho, State.flag_fset_word _ _ ho, State.flag_fset_word _ _ ho, h1]

@[simp] theorem calm_leadHalves {g : Fld} {s t : State} (hg : g.Steady) (w epoch : Nat) :
    Calm g s (t.leadHalves w epoch) ↔ Calm g s t := by
  simp [State.leadHalves, hg]

/-- After the entry only the stored offsets go and source 3 is raised. -/
theorem State.calm_leadEvent_written {g : Fld} (hg : g.Placed) (s : State) (w epoch cause : Nat) :
    Calm g ((s.leadHalves w epoch).leadWritten w epoch cause) (s.leadEvent w epoch cause) := by
  rw [State.leadEvent_eq, calm_raise hg, calm_dropFollow]
  exact .refl _ _

theorem epoch_block : F.BLK_HALF.EPOCH.Block := ⟨by decide, .inl (by decide)⟩

theorem epoch_offMode : F.BLK_HALF.EPOCH.OffMode := ⟨.inl (by decide), .inr (.inl (by decide)), .inr (.inl (by decide))⟩

theorem claimFld_offMode (n : Nat) : (claimFld n).OffMode :=
  ⟨mode_beside_claim n, modeCopy_beside_claim 0 n, modeCopy_beside_claim 1 n⟩

theorem linkUp_offMode : F.BLK_HALF.LINK_UP.OffMode := ⟨.inl (by decide), .inr (.inr (by decide)), .inr (.inr (by decide))⟩

/-- A leader event (01_block_and_halves.md R31 to R33): who leads, with what epoch, and that the winner claims it. -/
theorem State.leadEvent_spec (s : State) {w epoch : Nat} (hw : w < 2) (he : epoch < 65536) (cause : Nat) :
    (s.leadEvent w epoch cause).leader = w ∧ (s.leadEvent w epoch cause).claims w = true ∧
      (s.leadEvent w epoch cause).fget F.BLK_HALF.EPOCH = epoch :=
  ⟨(State.calm_leadEvent_written leader_block.quiet.placed s w epoch cause).fld.trans (State.leader_leadWritten _ hw _ _),
    (State.calm_leadEvent_written (claimFld_block w).quiet.placed s w epoch cause).flag.trans (State.claims_leadWritten _ _ _ _),
    (State.calm_leadEvent_written epoch_block.quiet.placed s w epoch cause).fld.trans (State.epoch_leadWritten _ _ he _)⟩

theorem State.linkUp_leadEvent (s : State) (w epoch cause : Nat) :
    (s.leadEvent w epoch cause).flag F.BLK_HALF.LINK_UP = s.flag F.BLK_HALF.LINK_UP := by
  have hw : ((s.leadHalves w epoch).leadWritten w epoch cause).fget F.BLK_HALF.LINK_UP = s.fget F.BLK_HALF.LINK_UP := by
    rw [State.fget_leadWritten _ _ _ (by decide) (.inr (.inl (by decide))) (.inr (.inr (by decide))) (claimFld_beside w).2.2.1]
    exact ((calm_leadHalves linkUp_block.steady w epoch).2 (.refl _ _)).fld
  unfold State.flag
  rw [(State.calm_leadEvent_written linkUp_block.quiet.placed s w epoch cause).fld, hw]

/-- Changes along a list that each keep the links keep them. -/
theorem SameLinks.forEach {α : Type} {l : List α} {f : α → State → State} (hf : ∀ a u, SameLinks u (f a u)) (s : State) :
    SameLinks s (forEach l f s) := by
  unfold Machine.forEach
  induction l generalizing s with
  | nil => exact .refl s
  | cons a r ih => exact (hf a s).trans (ih _)

theorem State.links_leadCourses (s : State) (w : Nat) : SameLinks s (s.leadCourses w) := by
  unfold State.leadCourses
  split
  · exact .refl s
  · next n hn =>
    extract_lets o m v v' s1 l c
    have ho : (s.setHalf w { v with cur := none }).half o = v' := s.half_setHalf_ne _ (by omega)
    have h1 : SameLinks s s1 := by
      refine (SameLinks.setHalf s (n := w) (v := { v with cur := none }) rfl rfl rfl).trans (.setHalf _ ?_ ?_ ?_) <;> rw [ho]
    have hp := Allows.refl [Area.cls, Area.regs]
    refine h1.trans (Keeps.links (ar := [.cls, .regs]) ?_ (by decide))
    exact State.showCourses_keeps (State.fset_keeps (State.setCls_keeps (.refl s1) _) _ _)

theorem State.links_leadEvent (s : State) (w epoch cause : Nat) : SameLinks s (s.leadEvent w epoch cause) := by
  have hp := Allows.refl [Area.regs, Area.tbs]
  have hhalves : SameLinks s (s.leadHalves w epoch) :=
    (SameLinks.forEach (l := [0, 1].filter fun h => h == w || s.linked)
      (f := fun h s => s.setHalf h { s.half h with epoch := epoch }) (fun h u => .setHalf u rfl rfl rfl) s).trans
      (State.links_leadCourses _ w)
  have hk : Keeps [.regs, .tbs] (s.leadHalves w epoch) (s.leadEvent w epoch cause) :=
    State.raise_keeps (State.dropFollow_keeps (State.fsets_keeps (.refl _) _)) 3
  exact hhalves.trans (hk.links (by decide))

/-! ### The lead taken on a loss -/

/-- The lead is taken while the epoch can rise: the state before the mode follows. -/
def State.leadTaken (s : State) (n : Nat) : State := (s.leadEvent n ((s.half n).epoch + 1) 3).setLost.degradeHalf n

theorem State.takeLead_eq {s : State} {n : Nat} (h : (s.half n).epoch < 0xFFFF) (full : State → State) :
    s.takeLead n full = ((s.leadTaken n).setMode ((s.leadTaken n).hmode n)).fixDegraded := if_neg (by omega)

/-- Past the event and HALF_LOST only modes change. -/
theorem State.calm_takeLead_event {g : Fld} {s : State} {n : Nat} (hg : g.Quiet) (hm : g.OffMode)
    (hb : F.BLK_MODE.HALF_LOST.Beside g) (h : (s.half n).epoch < 0xFFFF) (full : State → State) :
    Calm g (s.leadEvent n ((s.half n).epoch + 1) 3) (s.takeLead n full) := by
  rw [State.takeLead_eq h, calm_fixDegraded hg hm, calm_setMode hg hm, State.leadTaken, calm_degradeHalf hg hm,
    calm_setLost hg.placed hb]
  exact .refl _ _

/-- 01_block_and_halves.md R33: the half leads with the next epoch, and the other half counts as lost. -/
theorem State.takeLead_spec {s : State} {n : Nat} (hn : n < 2) (h : (s.half n).epoch < 0xFFFF) (full : State → State) :
    (s.takeLead n full).leader = n ∧ (s.takeLead n full).claims n = true ∧
      (s.takeLead n full).fget F.BLK_HALF.EPOCH = (s.half n).epoch + 1 ∧
      (s.takeLead n full).flag F.BLK_MODE.HALF_LOST = true := by
  obtain ⟨hl, hc, he⟩ := s.leadEvent_spec hn (epoch := (s.half n).epoch + 1) (by omega) 3
  have hword {g : Fld} (ho : g.off = O.BLK_HALF) : F.BLK_MODE.HALF_LOST.Beside g := .inl (by rw [ho]; decide)
  have hlost : Calm F.BLK_MODE.HALF_LOST (s.leadEvent n ((s.half n).epoch + 1) 3).setLost (s.takeLead n full) := by
    rw [State.takeLead_eq h, calm_fixDegraded halfLost_block.quiet halfLost_offMode,
      calm_setMode halfLost_block.quiet halfLost_offMode, State.leadTaken, calm_degradeHalf halfLost_block.quiet halfLost_offMode]
    exact .refl _ _
  refine ⟨?_, ?_, ?_, ?_⟩
  · exact (State.calm_takeLead_event leader_block.quiet leader_offMode (hword rfl) h full).fld.trans hl
  · exact (State.calm_takeLead_event (claimFld_block n).quiet (claimFld_offMode n) (hword (claimFld_off n)) h full).flag.trans hc
  · exact (State.calm_takeLead_event epoch_block.quiet epoch_offMode (hword rfl) h full).fld.trans he
  · rw [hlost.flag, State.halfLost_setLost]

theorem State.links_takeLead {s : State} {n : Nat} {full : State → State} (hf : SameLinks s (full s)) :
    SameLinks s (s.takeLead n full) := by
  unfold State.takeLead
  split
  · exact hf
  · extract_lets s1
    have hp := Allows.refl modeAreas
    have hk : Keeps modeAreas (s.leadEvent n ((s.half n).epoch + 1) 3)
        (s1.setMode (s1.hmode n)).fixDegraded :=
      State.fixDegraded_keeps (State.setMode_keeps (State.degradeHalf_keeps (State.setLost_keeps (.refl _)) n) _)
    exact (s.links_leadEvent n _ 3).trans (hk.links (by decide))

end Sys2Proof.Machine

namespace Sys2Proof.Machine

/-! ### Heartbeats and gaps (01_block_and_halves.md R21, R22) -/

/-- Both receivers are up once the second one is. -/
theorem State.linked_setHalf {s : State} {h : Nat} (hh : h < 2) {v : HalfSt} (hv : v.half.up = true)
    (ho : (s.half (1 - h)).half.up = true) : (s.setHalf h v).linked = true := by
  unfold State.linked
  obtain rfl | rfl : h = 0 ∨ h = 1 := by omega
  · rw [State.half_setHalf_self, State.half_setHalf_ne _ _ (by decide), hv]
    exact ho
  · rw [State.half_setHalf_self, State.half_setHalf_ne _ _ (by decide), hv, Bool.and_true]
    exact ho

section
variable {s : State} {h : Nat} (hh : h < s.cfg.halves) (hr : s.halfInReset h = false)
include hh hr

theorem links_heartbeatSend (hd : s.domOn (2 + h) = true) :
    ∃ t, exec (.heartbeatSend h) s = .next t ∧ (t.half h).sent = (s.half h).sent + 1 :=
  ⟨_, if_pos ⟨hh, hr, hd⟩, by rw [State.half_setHalf_self]⟩

/-- A half that is present and out of reset takes part in the links. -/
theorem half_present : ¬ (s.cfg.halves ≤ h ∨ s.halfInReset h = true) := by
  simp only [hr, Bool.false_eq_true, or_false]
  omega

theorem links_spineHeartbeat :
    ∃ t, exec (.heartbeatReceive true h) s = .next t ∧ (t.half h).spine.run = min 3 ((s.half h).spine.run + 1) ∧
      (t.half h).spine.up = ((s.half h).spine.up || decide (2 ≤ (s.half h).spine.run)) := by
  have hx : exec (.heartbeatReceive true h) s =
      if (s.half h).spine.up = false ∧ (s.half h).spine.beat.up = true then
        .next ((s.setHalf h { s.half h with spine := (s.half h).spine.beat }).spineUp h).lostCheck
      else .next (s.setHalf h { s.half h with spine := (s.half h).spine.beat }) := by
    change execHeartbeatReceive true h s = _
    unfold execHeartbeatReceive
    rw [if_neg (half_present hh hr)]
    rfl
  rw [hx]
  split
  · have hup := State.spineUp_keeps (.refl (s.setHalf h { s.half h with spine := (s.half h).spine.beat })) h (Allows.refl _)
    have hcheck := State.lostCheck_keeps (.refl ((s.setHalf h { s.half h with spine := (s.half h).spine.beat }).spineUp h))
      (Allows.refl _)
    refine ⟨_, rfl, ?_⟩
    rw [hcheck.half (by decide), hup.half (by decide), State.half_setHalf_self]
    exact ⟨rfl, rfl⟩
  · refine ⟨_, rfl, ?_⟩
    rw [State.half_setHalf_self]
    exact ⟨rfl, rfl⟩

theorem links_spineGlitch :
    ∃ t, exec (.linkGlitch h true) s = .next t ∧ (t.half h).spine.run = 0 ∧ (t.half h).spine.up = (s.half h).spine.up ∧
      t.regs = s.regs := by
  have hx : exec (.linkGlitch h true) s = .next (s.setHalf h { s.half h with spine := (s.half h).spine.gap }) := by
    change execLinkGlitch h s true = _
    unfold execLinkGlitch
    dsimp only
    rw [if_neg (half_present hh hr), if_pos rfl]
  exact ⟨_, hx, congrArg (fun v => v.spine.run) (State.half_setHalf_self s h _),
    congrArg (fun v => v.spine.up) (State.half_setHalf_self s h _), rfl⟩

theorem links_halfHeartbeat (hs : s.cfg = .x) :
    ∃ t, exec (.heartbeatReceive false h) s = .next t ∧
      (t.half h).half.up = ((s.half h).half.up || decide (2 ≤ (s.half h).half.run)) ∧
      (t.half h).half.run = min 3 ((s.half h).half.run + 1) ∧
      ((s.half h).half.up = false → 2 ≤ (s.half h).half.run → (s.half (1 - h)).half.up = true →
        t.flag F.BLK_HALF.LINK_UP = true ∧ t.settle = true) := by
  have hx : exec (.heartbeatReceive false h) s =
      if (s.half h).half.up = false ∧ (s.setHalf h { s.half h with half := (s.half h).half.beat }).linked = true then
        .next (((s.setHalf h { s.half h with half := (s.half h).half.beat }).fset F.BLK_HALF.LINK_UP 1).setSettle true)
      else .next (s.setHalf h { s.half h with half := (s.half h).half.beat }) := by
    change execHeartbeatReceive false h s = _
    unfold execHeartbeatReceive
    rw [if_neg (half_present hh hr)]
    dsimp only
    rw [if_neg (by decide), if_neg (by simp [hs])]
  rw [hx]
  split
  next hc =>
    refine ⟨_, rfl, ?_, ?_, fun _ _ _ => ⟨?_, rfl⟩⟩
    · exact congrArg (fun v => v.half.up) (State.half_setHalf_self s h _)
    · exact congrArg (fun v => v.half.run) (State.half_setHalf_self s h _)
    · rw [State.flag_setSettle, State.flag_fset_self _ _ _ (by decide)]
      rfl
  next hc =>
    refine ⟨_, rfl, ?_, ?_, fun hdown hrun ho => absurd ⟨hdown, ?_⟩ hc⟩
    · rw [State.half_setHalf_self]
      rfl
    · rw [State.half_setHalf_self]
      rfl
    · refine State.linked_setHalf (hh.trans_le (Cfg.halves_le_two _)) ?_ ho
      change ((s.half h).half.up || decide (2 ≤ (s.half h).half.run)) = true
      simp [hrun]

theorem links_halfGlitch (hs : s.cfg = .x) (hup : (s.half h).half.up = true) :
    ∃ t, exec (.linkGlitch h false) s = .next t ∧ t.flag F.BLK_HALF.LINK_GLITCH = true ∧ (t.half h).half.up = true ∧
      (t.half h).half.run = 0 := by
  have hx : exec (.linkGlitch h false) s =
      .next ((s.setHalf h { s.half h with half := (s.half h).half.gap }).setFlag F.BLK_HALF.LINK_GLITCH 4) := by
    change execLinkGlitch h s false = _
    unfold execLinkGlitch
    dsimp only
    rw [if_neg (half_present hh hr), if_neg (by decide), if_pos ⟨hs, .inl hup⟩]
  have hglitch : F.BLK_HALF.LINK_GLITCH.Placed := ⟨.inl (by decide)⟩
  have hk := State.setFlag_keeps (.refl (s.setHalf h { s.half h with half := (s.half h).half.gap })) F.BLK_HALF.LINK_GLITCH 4
    (Allows.refl _)
  refine ⟨_, hx, State.flag_setFlag _ hglitch (by decide) (by decide) 4, ?_⟩
  rw [hk.half (by decide), State.half_setHalf_self]
  exact ⟨hup, rfl⟩

end

/-! ### Loss of the other half (01_block_and_halves.md R33) -/

/-- The half that has lost the other, before the lead is judged: the link down, the fault logged, a load and a commit ended. -/
def State.linkCut (s : State) (h : Nat) : State :=
  let e := (s.half h).epoch
  let s := (s.setHalf h { s.half h with half := { up := false }, integral := s.node.integral }).fset F.BLK_HALF.LINK_UP 0
  let s := s.splitGear
  let s := ((s.setSettle false).logFault 0x40 h e .l).endLoad 5
  s.dropFollow.commitFail

theorem execHalfLinkLoss_eq {s : State} {h : Nat} (hs : s.cfg = .x) (hh : h < 2) (hup : (s.half h).half.up = true)
    (hr : s.halfInReset h = false) :
    exec (.halfLinkLoss h) s =
      if (s.linkCut h).claims h = true then .next (((s.linkCut h).setLost.fixDegraded).degradeHalf h)
      else if (s.linkCut h).flag F.BLK_HALF.STANDBY_LEAD = true then .next ((s.linkCut h).takeLead h fun s => s.halfSafehold h 4)
      else .next ((s.linkCut h).halfSafehold h 2) := if_pos ⟨hs, hh, hup, hr⟩

/-- A field beside LINK_UP sees nothing of it. -/
theorem calm_linkCut {g : Fld} (hg : g.Steady) (hb : F.BLK_HALF.LINK_UP.Beside g) (s : State) (h : Nat) :
    Calm g s (s.linkCut h) := by
  simp [State.linkCut, hg, calm_fset_beside _ hb]

theorem State.linkUp_linkCut (s : State) (h : Nat) : (s.linkCut h).flag F.BLK_HALF.LINK_UP = false := by
  have hc : Calm F.BLK_HALF.LINK_UP
      ((s.setHalf h { s.half h with half := { up := false }, integral := s.node.integral }).fset F.BLK_HALF.LINK_UP 0)
      (s.linkCut h) := by
    simp [State.linkCut, linkUp_block.steady]
  rw [hc.flag, State.flag_fset_self _ _ _ (by decide)]
  rfl

/-- Splitting the gear touches no half's epoch nor its receivers. -/
theorem State.half_splitGear (s : State) (n : Nat) :
    (s.splitGear.half n).half = (s.half n).half ∧ (s.splitGear.half n).epoch = (s.half n).epoch := by
  unfold State.splitGear
  by_cases hn : n = 1
  · rw [hn, State.half_setHalf_self]
    exact ⟨rfl, rfl⟩
  · rw [State.half_setHalf_ne _ _ hn]
    exact ⟨rfl, rfl⟩

theorem State.half_linkCut (s : State) (h : Nat) :
    ((s.linkCut h).half h).half.up = false ∧ ((s.linkCut h).half h).epoch = (s.half h).epoch := by
  unfold State.linkCut
  extract_lets e v s1 s2 s3
  have hp := Allows.refl (safeholdAreas ++ [.settle, .tbs])
  have h3 : Keeps _ s2 s3 := State.endLoad_keeps (State.logFault_keeps (State.setSettle_keeps (.refl s2) false) 0x40 h e .l 0) 5
  have hk := State.commitFail_keeps (State.dropFollow_keeps h3)
  have h1 : s1.half h = { s.half h with half := { up := false }, integral := s.node.integral } := State.half_setHalf_self _ _ _
  obtain ⟨hhalf, hepoch⟩ := s1.half_splitGear h
  rw [hk.half (by decide), hhalf, hepoch, h1]
  exact ⟨rfl, rfl⟩

theorem linkUp_beside_claim (n : Nat) : F.BLK_HALF.LINK_UP.Beside (claimFld n) := by
  unfold claimFld
  split <;> exact .inr (.inr (by decide))

theorem linkUp_beside_modeCopy (n : Nat) : F.BLK_HALF.LINK_UP.Beside (modeCopy n) := by
  unfold modeCopy
  split <;> exact .inr (.inl (by decide))

theorem standbyLead_block : F.BLK_HALF.STANDBY_LEAD.Block := ⟨by decide, .inl (by decide)⟩

/-- The leader's half runs on (01_block_and_halves.md R33). -/
theorem linkLoss_claims {u : State} {h : Nat} (hup : (u.half h).half.up = false) (hlink : u.flag F.BLK_HALF.LINK_UP = false)
    (hclaim : u.claims h = true) :
    (((u.setLost.fixDegraded).degradeHalf h).half h).half.up = false ∧
      ((u.setLost.fixDegraded).degradeHalf h).flag F.BLK_HALF.LINK_UP = false ∧
      ((u.setLost.fixDegraded).degradeHalf h).claims h = true ∧
      ((u.setLost.fixDegraded).degradeHalf h).flag F.BLK_MODE.HALF_LOST = true ∧
      (u.hmode h = 4 → ((u.setLost.fixDegraded).degradeHalf h).hmode h = 5) := by
  have hp := Allows.refl modeAreas
  have hk : Keeps modeAreas u ((u.setLost.fixDegraded).degradeHalf h) :=
    State.degradeHalf_keeps (State.fixDegraded_keeps (State.setLost_keeps (.refl u))) h
  have hcalm {g : Fld} (hg : g.Quiet) (hm : g.OffMode) : Calm g u.setLost ((u.setLost.fixDegraded).degradeHalf h) := by
    rw [calm_degradeHalf hg hm, calm_fixDegraded hg hm]
    exact .refl _ _
  have hlost {g : Fld} (ho : g.off = O.BLK_HALF) (hg : g.Quiet) : Calm g u u.setLost :=
    (calm_setLost hg.placed (.inl (by rw [ho]; decide))).2 (.refl _ _)
  refine ⟨by rw [hk.half (by decide), hup], ?_, ?_, ?_, fun h4 => ?_⟩
  · rw [((hlost rfl linkUp_block.quiet).trans (hcalm linkUp_block.quiet linkUp_offMode)).flag, hlink]
  · exact ((hlost (claimFld_off h) (claimFld_block h).quiet).trans (hcalm (claimFld_block h).quiet (claimFld_offMode h))).flag.trans hclaim
  · rw [(hcalm halfLost_block.quiet halfLost_offMode).flag, State.halfLost_setLost]
  · have h4' : u.setLost.hmode h = 4 :=
      ((calm_setLost (modeCopy_block h).quiet.placed (.inl (by unfold modeCopy; split <;> decide))).2 (.refl _ _)).fld.trans h4
    have h45 : (u.setLost.fixDegraded).hmode h = 4 ∨ (u.setLost.fixDegraded).hmode h = 5 := by
      unfold State.fixDegraded
      split_ifs
      · exact State.hmode_setMode_keeps (P := fun m => m = 4 ∨ m = 5) (.inr rfl) (.inl h4')
      · exact State.hmode_setMode_keeps (P := fun m => m = 4 ∨ m = 5) (.inl rfl) (.inl h4')
      · exact .inl h4'
    unfold State.degradeHalf
    split
    · exact State.hmode_setHalfMode _ h 5
    · exact h45.resolve_left ‹_›

/-- The link stays down whatever the half then does. -/
theorem linkLoss_halfSafehold {u : State} {h : Nat} (hup : (u.half h).half.up = false) (hlink : u.flag F.BLK_HALF.LINK_UP = false)
    (cause : Nat) : ((u.halfSafehold h cause).half h).half.up = false ∧ (u.halfSafehold h cause).flag F.BLK_HALF.LINK_UP = false := by
  have hk := State.halfSafehold_keeps (.refl u) h cause (Allows.refl _)
  have hc : Calm F.BLK_HALF.LINK_UP u (u.halfSafehold h cause) :=
    (calm_halfSafehold linkUp_block.steady linkUp_offMode (.inl (by decide)) h cause).2 (.refl _ _)
  exact ⟨by rw [hk.half (by decide), hup], by rw [hc.flag, hlink]⟩

theorem linkLoss_takeLead {u : State} {h : Nat} (hup : (u.half h).half.up = false) (hlink : u.flag F.BLK_HALF.LINK_UP = false) :
    ((u.takeLead h fun s => s.halfSafehold h 4).half h).half.up = false ∧
      (u.takeLead h fun s => s.halfSafehold h 4).flag F.BLK_HALF.LINK_UP = false := by
  have hfull := (State.halfSafehold_keeps (.refl u) h 4 (Allows.refl _)).links (by decide)
  refine ⟨by rw [(State.links_takeLead (full := fun s => s.halfSafehold h 4) hfull).half, hup], ?_⟩
  by_cases he : (u.half h).epoch < 0xFFFF
  · rw [(State.calm_takeLead_event linkUp_block.quiet linkUp_offMode (.inl (by decide)) he _).flag, State.linkUp_leadEvent, hlink]
  · have ht : u.takeLead h (fun s => s.halfSafehold h 4) = u.halfSafehold h 4 := if_pos (by omega)
    rw [ht]
    exact (linkLoss_halfSafehold hup hlink 4).2

theorem links_halfLinkLoss {s : State} {h : Nat} (hs : s.cfg = .x) (hh : h < 2) (hup : (s.half h).half.up = true)
    (hr : s.halfInReset h = false) :
    ∃ t, exec (.halfLinkLoss h) s = .next t ∧ (t.half h).half.up = false ∧ t.flag F.BLK_HALF.LINK_UP = false ∧
      (s.claims h = true → t.claims h = true ∧ t.flag F.BLK_MODE.HALF_LOST = true ∧ (s.hmode h = 4 → t.hmode h = 5)) ∧
      (s.claims h = false → s.flag F.BLK_HALF.STANDBY_LEAD = true → (s.half h).epoch < 0xFFFF →
        t.leader = h ∧ t.claims h = true ∧ t.fget F.BLK_HALF.EPOCH = (s.half h).epoch + 1 ∧ t.flag F.BLK_MODE.HALF_LOST = true) ∧
      (s.claims h = false → s.flag F.BLK_HALF.STANDBY_LEAD = false → 1 ≤ s.hmode h → s.hmode h ≤ 5 →
        t.hmode h = 6 ∧ t.fget F.BLK_MODE.SH_CAUSE = 2) := by
  rw [execHalfLinkLoss_eq hs hh hup hr]
  obtain ⟨hdown, hepoch⟩ := s.half_linkCut h
  have hlink := s.linkUp_linkCut h
  have hclaims : (s.linkCut h).claims h = s.claims h :=
    (calm_linkCut (claimFld_block h).steady (linkUp_beside_claim h) s h).flag
  have hlead : (s.linkCut h).flag F.BLK_HALF.STANDBY_LEAD = s.flag F.BLK_HALF.STANDBY_LEAD :=
    (calm_linkCut standbyLead_block.steady (.inr (.inr (by decide))) s h).flag
  have hmode : (s.linkCut h).hmode h = s.hmode h :=
    (calm_linkCut (modeCopy_block h).steady (linkUp_beside_modeCopy h) s h).fld
  generalize s.linkCut h = u at *
  rw [← hclaims, ← hlead, ← hmode, ← hepoch]
  by_cases hc : u.claims h = true
  · rw [if_pos hc]
    obtain ⟨h1, h2, h3, h4, h5⟩ := linkLoss_claims hdown hlink hc
    exact ⟨_, rfl, h1, h2, fun _ => ⟨h3, h4, h5⟩, fun hn => by simp [hc] at hn, fun hn => by simp [hc] at hn⟩
  · rw [if_neg hc]
    by_cases hl : u.flag F.BLK_HALF.STANDBY_LEAD = true
    · rw [if_pos hl]
      obtain ⟨h1, h2⟩ := linkLoss_takeLead hdown hlink
      exact ⟨_, rfl, h1, h2, fun hn => absurd hn hc, fun _ _ he => State.takeLead_spec hh he _, fun _ hn => by simp [hl] at hn⟩
    · rw [if_neg hl]
      obtain ⟨h1, h2⟩ := linkLoss_halfSafehold hdown hlink 2
      exact ⟨_, rfl, h1, h2, fun hn => absurd hn hc, fun _ hn => absurd hn hl,
        fun _ _ hm1 hm5 => State.halfSafehold_spec hm1 hm5 (by decide)⟩

/-- 01_block_and_halves.md R21, R22 and R33: the links of one half. -/
theorem halvesLinksAndClocks_links (s : State) (h : Nat) (hh : h < s.cfg.halves) (hr : s.halfInReset h = false) :
    (s.domOn (2 + h) = true → ∃ t, exec (.heartbeatSend h) s = .next t ∧ (t.half h).sent = (s.half h).sent + 1) ∧
    (∃ t, exec (.heartbeatReceive true h) s = .next t ∧ (t.half h).spine.run = min 3 ((s.half h).spine.run + 1) ∧
      (t.half h).spine.up = ((s.half h).spine.up || decide (2 ≤ (s.half h).spine.run))) ∧
    (∃ t, exec (.linkGlitch h true) s = .next t ∧ (t.half h).spine.run = 0 ∧ (t.half h).spine.up = (s.half h).spine.up ∧
      t.regs = s.regs) ∧
    (s.cfg = .x →
      (∃ t, exec (.heartbeatReceive false h) s = .next t ∧
        (t.half h).half.up = ((s.half h).half.up || decide (2 ≤ (s.half h).half.run)) ∧
        (t.half h).half.run = min 3 ((s.half h).half.run + 1) ∧
        ((s.half h).half.up = false → 2 ≤ (s.half h).half.run → (s.half (1 - h)).half.up = true →
          t.flag F.BLK_HALF.LINK_UP = true ∧ t.settle = true)) ∧
      ((s.half h).half.up = true →
        (∃ t, exec (.linkGlitch h false) s = .next t ∧ t.flag F.BLK_HALF.LINK_GLITCH = true ∧ (t.half h).half.up = true ∧
          (t.half h).half.run = 0) ∧
        ∃ t, exec (.halfLinkLoss h) s = .next t ∧ (t.half h).half.up = false ∧ t.flag F.BLK_HALF.LINK_UP = false ∧
          (s.claims h = true → t.claims h = true ∧ t.flag F.BLK_MODE.HALF_LOST = true ∧ (s.hmode h = 4 → t.hmode h = 5)) ∧
          (s.claims h = false → s.flag F.BLK_HALF.STANDBY_LEAD = true → (s.half h).epoch < 0xFFFF →
            t.leader = h ∧ t.claims h = true ∧ t.fget F.BLK_HALF.EPOCH = (s.half h).epoch + 1 ∧ t.flag F.BLK_MODE.HALF_LOST = true) ∧
          (s.claims h = false → s.flag F.BLK_HALF.STANDBY_LEAD = false → 1 ≤ s.hmode h → s.hmode h ≤ 5 →
            t.hmode h = 6 ∧ t.fget F.BLK_MODE.SH_CAUSE = 2))) :=
  ⟨links_heartbeatSend hh hr, links_spineHeartbeat hh hr, links_spineGlitch hh hr, fun hs =>
    ⟨links_halfHeartbeat hh hr hs, fun hup => ⟨links_halfGlitch hh hr hs hup,
      links_halfLinkLoss hs (hh.trans_le (Cfg.halves_le_two _)) hup hr⟩⟩⟩

end Sys2Proof.Machine

namespace Sys2Proof.Machine

/-! ## The settlement of the lead (01_block_and_halves.md R30 to R32, R34, R36) -/

/-- The half that copies after the settlement (01_block_and_halves.md R34). -/
def State.copyAfter (s : State) (w : Nat) (tables entry : Bool) : State :=
  let k := s.copier w
  let v := s.half k
  let stop := v.cur.isSome
  s.setHalf k { v with copyState := true, copyTables := v.copyTables || tables || stop, admStop := v.admStop || stop
                       dropsOn := v.dropsOn || (stop && entry) }

theorem calm_copyAfter {g : Fld} (s : State) (w : Nat) (tables entry : Bool) : Calm g s (s.copyAfter w tables entry) :=
  (calm_setHalf _ _).2 (.refl g s)

theorem State.settle_copyAfter (s : State) (w : Nat) (tables entry : Bool) : (s.copyAfter w tables entry).settle = s.settle := rfl

theorem State.copyState_copyAfter (s : State) (w : Nat) (tables entry : Bool) :
    ((s.copyAfter w tables entry).half (s.copier w)).copyState = true := by
  unfold State.copyAfter
  dsimp only
  rw [State.half_setHalf_self]

theorem State.settle_leadEvent (s : State) (w epoch cause : Nat) : (s.leadEvent w epoch cause).settle = s.settle := by
  have hp := Allows.refl [Area.regs, Area.halves, Area.tbs, Area.cls]
  exact (State.leadEvent_keeps (.refl s) w epoch cause).1 .settle (by decide)

theorem State.settle_setMode (s : State) (m : Nat) : (s.setMode m).settle = s.settle :=
  (State.setMode_keeps (.refl s) m (Allows.refl _)).1 .settle (by decide)

theorem claimFld_beside_other {w : Nat} (hw : w < 2) : (claimFld (1 - w)).Beside (claimFld w) := by
  obtain rfl | rfl : w = 0 ∨ w = 1 := by omega
  · exact .inr (.inr (by decide))
  · exact .inr (.inl (by decide))

/-- The leader that stays: its number and its epoch are written, its course runs on. -/
def State.leadKept (s : State) (w : Nat) : State :=
  ((s.fset F.BLK_HALF.LEADER w).fset F.BLK_HALF.EPOCH (s.half w).epoch).leadCourses w

section
variable {s : State} (hs : s.settle = true) (hl : s.linked = true)
include hs hl

/-- Two leaders: the higher epoch wins, half A at the same one, and the other's claim falls. -/
theorem exec_leaderSettlement_both (h0 : s.claims 0 = true) (h1 : s.claims 1 = true) :
    exec .leaderSettlement s =
      let w := if (s.half 0).epoch < (s.half 1).epoch then 1 else 0
      let t := ((s.setSettle false).leadEvent w (if w = 0 then (s.half 0).epoch else (s.half 1).epoch) 1).fset (claimFld (1 - w)) 0
      .next ((t.copyAfter w true true).setMode (t.hmode w)) := by
  change execLeaderSettlement s = _
  unfold execLeaderSettlement
  rw [if_pos ⟨hs, hl⟩]
  exact if_pos ⟨h0, h1⟩

theorem exec_leaderSettlement_none (h0 : s.claims 0 = false) (h1 : s.claims 1 = false)
    (he : max (s.half 0).epoch (s.half 1).epoch < 0xFFFF) :
    exec .leaderSettlement s =
      .next (((s.setSettle false).leadEvent 0 (max (s.half 0).epoch (s.half 1).epoch + 1) 4).copyAfter 0 false true) := by
  have hnot : ¬ (s.claims 0 = true ∧ s.claims 1 = true) := by simp [h0]
  change execLeaderSettlement s = _
  unfold execLeaderSettlement
  rw [if_pos ⟨hs, hl⟩]
  exact (if_neg hnot).trans ((if_pos ⟨h0, h1⟩).trans (if_pos he))

theorem exec_leaderSettlement_one {w : Nat} (hw : w < 2) (hc : s.claims w = true) (ho : s.claims (1 - w) = false) :
    exec .leaderSettlement s = .next (((s.setSettle false).leadKept w).copyAfter w false false) := by
  have hwin : (if s.claims 0 = true then 0 else 1) = w ∧ ¬ (s.claims 0 = true ∧ s.claims 1 = true) ∧
      ¬ (s.claims 0 = false ∧ s.claims 1 = false) := by
    obtain rfl | rfl : w = 0 ∨ w = 1 := by omega
    · simp [hc, show s.claims 1 = false from ho]
    · simp [hc, show s.claims 0 = false from ho]
  obtain ⟨hwin, hboth, hnone⟩ := hwin
  have hx : exec .leaderSettlement s = .next (((s.setSettle false).leadKept (if s.claims 0 = true then 0 else 1)).copyAfter
      (if s.claims 0 = true then 0 else 1) false false) := by
    change execLeaderSettlement s = _
    unfold execLeaderSettlement
    rw [if_pos ⟨hs, hl⟩]
    exact (if_neg hboth).trans (if_neg hnone)
  rw [hx, hwin]

end

/-- The event's words after the other claim falls, the copying half is marked and the leader's mode is the block's. -/
theorem settled_both (s : State) {w e : Nat} (hw : w < 2) (he : e < 65536) (cause m : Nat) :
    let t := (s.leadEvent w e cause).fset (claimFld (1 - w)) 0
    ((t.copyAfter w true true).setMode m).settle = s.settle ∧ ((t.copyAfter w true true).setMode m).leader = w ∧
      ((t.copyAfter w true true).setMode m).claims w = true ∧ ((t.copyAfter w true true).setMode m).claims (1 - w) = false ∧
      ((t.copyAfter w true true).setMode m).fget F.BLK_HALF.EPOCH = e := by
  intro t
  obtain ⟨hlead, hclaim, hepoch⟩ := s.leadEvent_spec hw he cause
  obtain ⟨hb1, hb2, -⟩ := claimFld_beside (1 - w)
  have hcalm {g : Fld} (hg : g.Quiet) (hm : g.OffMode) : Calm g t ((t.copyAfter w true true).setMode m) := by
    rw [calm_setMode hg hm]
    exact calm_copyAfter t w true true
  refine ⟨?_, ?_, ?_, ?_, ?_⟩
  · rw [State.settle_setMode, State.settle_copyAfter]
    exact s.settle_leadEvent w e cause
  · exact (hcalm leader_block.quiet leader_offMode).fld.trans ((State.fget_fset_ne _ _ _ _ hb1).trans hlead)
  · exact (hcalm (claimFld_block w).quiet (claimFld_offMode w)).flag.trans
      ((State.flag_fset_ne _ _ _ _ (claimFld_beside_other hw)).trans hclaim)
  · exact (hcalm (claimFld_block _).quiet (claimFld_offMode _)).flag.trans (State.claims_fset_zero _ _)
  · exact (hcalm epoch_block.quiet epoch_offMode).fld.trans ((State.fget_fset_ne _ _ _ _ hb2).trans hepoch)

theorem State.leadKept_spec (s : State) {w : Nat} (hw : w < 2) :
    (s.leadKept w).settle = s.settle ∧ (s.leadKept w).leader = w ∧ (∀ n, (s.leadKept w).claims n = s.claims n) ∧
      (s.leadKept w).fget F.BLK_HALF.EPOCH = (s.half w).epoch % 65536 ∧ SameLinks s (s.leadKept w) := by
  let t := (s.fset F.BLK_HALF.LEADER w).fset F.BLK_HALF.EPOCH (s.half w).epoch
  have hcalm {g : Fld} (hg : g.Steady) : Calm g t (s.leadKept w) := (calm_leadCourses hg w).2 (.refl _ _)
  have hp := Allows.refl [Area.halves, Area.cls, Area.regs]
  have hk : Keeps [.halves, .cls, .regs] s (s.leadKept w) := State.leadCourses_keeps (State.fset_keeps (State.fset_keeps (.refl s) _ _) _ _) w
  refine ⟨hk.1 .settle (by decide), ?_, fun n => ?_, ?_, ?_⟩
  · refine (hcalm leader_block.steady).fld.trans ((State.fget_fset_ne _ _ _ _ (.inr (.inr (by decide)))).trans ?_)
    rw [State.fget_fset_self _ _ _ (by decide)]
    exact Nat.mod_eq_of_lt hw
  · exact (hcalm (claimFld_block n).steady).flag.trans ((State.flag_fset_ne _ _ _ _ (claimFld_beside n).2.2.2.2).trans
      (State.flag_fset_ne _ _ _ _ (claimFld_beside n).2.2.2.1))
  · exact (hcalm epoch_block.steady).fld.trans (State.fget_fset_self _ _ _ (by decide))
  · exact SameLinks.trans (t := t) ⟨fun _ => rfl, fun _ => rfl, fun _ => rfl⟩ (t.links_leadCourses w)

theorem settlement_both {s : State} (hs : s.settle = true) (hl : s.linked = true) (h0 : s.claims 0 = true) (h1 : s.claims 1 = true)
    (e0 : (s.half 0).epoch < 65536) (e1 : (s.half 1).epoch < 65536) :
    let w := if (s.half 0).epoch < (s.half 1).epoch then 1 else 0
    ∃ t, exec .leaderSettlement s = .next t ∧ t.settle = false ∧ t.leader = w ∧ t.claims w = true ∧ t.claims (1 - w) = false ∧
      t.fget F.BLK_HALF.EPOCH = (s.half w).epoch := by
  intro w
  have hw : w < 2 := by
    simp only [w]
    split <;> decide
  have he : (if w = 0 then (s.half 0).epoch else (s.half 1).epoch) = (s.half w).epoch := by
    simp only [w]
    split <;> rfl
  have hlt : (s.half w).epoch < 65536 := by
    rw [← he]
    split <;> assumption
  refine ⟨_, exec_leaderSettlement_both hs hl h0 h1, ?_⟩
  rw [he]
  exact settled_both (s.setSettle false) hw hlt 1 _

theorem settlement_none {s : State} (hs : s.settle = true) (hl : s.linked = true) (h0 : s.claims 0 = false) (h1 : s.claims 1 = false)
    (he : max (s.half 0).epoch (s.half 1).epoch < 0xFFFF) :
    ∃ t, exec .leaderSettlement s = .next t ∧ t.settle = false ∧ t.leader = 0 ∧ t.claims 0 = true ∧
      t.fget F.BLK_HALF.EPOCH = max (s.half 0).epoch (s.half 1).epoch + 1 := by
  obtain ⟨hlead, hclaim, hepoch⟩ := (s.setSettle false).leadEvent_spec (w := 0)
    (epoch := max (s.half 0).epoch (s.half 1).epoch + 1) (by decide) (by omega) 4
  have hcalm {g : Fld} := calm_copyAfter (g := g) ((s.setSettle false).leadEvent 0 (max (s.half 0).epoch (s.half 1).epoch + 1) 4)
    0 false true
  refine ⟨_, exec_leaderSettlement_none hs hl h0 h1 he, ?_, hcalm.fld.trans hlead, hcalm.flag.trans hclaim, hcalm.fld.trans hepoch⟩
  rw [State.settle_copyAfter, State.settle_leadEvent]
  rfl

theorem settlement_one {s : State} (hs : s.settle = true) (hl : s.linked = true) {w : Nat} (hw : w < 2) (hc : s.claims w = true)
    (ho : s.claims (1 - w) = false) :
    ∃ t, exec .leaderSettlement s = .next t ∧ t.settle = false ∧ t.leader = w ∧ t.claims w = true ∧ t.claims (1 - w) = false ∧
      t.fget F.BLK_HALF.EPOCH = (s.half w).epoch % 65536 ∧ (t.half (s.copier w)).copyState = true := by
  obtain ⟨hsettle, hlead, hclaims, hepoch, hlinks⟩ := (s.setSettle false).leadKept_spec hw
  have hcalm {g : Fld} := calm_copyAfter (g := g) ((s.setSettle false).leadKept w) w false false
  refine ⟨_, exec_leaderSettlement_one hs hl hw hc ho, hsettle, hcalm.fld.trans hlead, hcalm.flag.trans ((hclaims w).trans hc),
    hcalm.flag.trans ((hclaims (1 - w)).trans ho), hcalm.fld.trans hepoch, ?_⟩
  rw [← show (s.setSettle false).copier w = s.copier w from rfl, ← hlinks.copier w]
  exact State.copyState_copyAfter _ w false false

/-- 01_block_and_halves.md R30 to R32, R34 and R36. -/
theorem halvesLinksAndClocks_settlement (s : State) (hs : s.settle = true) (hl : s.linked = true) :
    (s.claims 0 = true → s.claims 1 = true → (s.half 0).epoch < 65536 → (s.half 1).epoch < 65536 →
      let w := if (s.half 0).epoch < (s.half 1).epoch then 1 else 0
      ∃ t, exec .leaderSettlement s = .next t ∧ t.settle = false ∧ t.leader = w ∧ t.claims w = true ∧ t.claims (1 - w) = false ∧
        t.fget F.BLK_HALF.EPOCH = (s.half w).epoch) ∧
    (s.claims 0 = false → s.claims 1 = false → max (s.half 0).epoch (s.half 1).epoch < 0xFFFF →
      ∃ t, exec .leaderSettlement s = .next t ∧ t.settle = false ∧ t.leader = 0 ∧ t.claims 0 = true ∧
        t.fget F.BLK_HALF.EPOCH = max (s.half 0).epoch (s.half 1).epoch + 1) ∧
    (∀ w, w < 2 → s.claims w = true → s.claims (1 - w) = false →
      ∃ t, exec .leaderSettlement s = .next t ∧ t.settle = false ∧ t.leader = w ∧ t.claims w = true ∧ t.claims (1 - w) = false ∧
        t.fget F.BLK_HALF.EPOCH = (s.half w).epoch % 65536 ∧ (t.half (s.copier w)).copyState = true) :=
  ⟨settlement_both hs hl, settlement_none hs hl, fun _ => settlement_one hs hl⟩

end Sys2Proof.Machine

namespace Sys2Proof.Machine

/-! ## What a half copies from the other (01_block_and_halves.md R34 to R36) -/

section
variable {g : Fld} {s t : State}

@[simp] theorem calm_ppsMark (h v t' : Nat) : Calm g s (t.ppsMark h v t') ↔ Calm g s t :=
  (State.ppsMark_keeps (.refl t) h v t' (Allows.refl _)).calm (by decide) (by decide) (by decide) (by decide)

@[simp] theorem calm_reanchor (hg : g.Steady) (isSet : Bool) (n : Nat) : Calm g s (t.reanchor isSet n) ↔ Calm g s t := by
  have hbeyond : 0x028000 ≤ (F.CTU_GEN_STAT.STEPPED n).off := Nat.le_add_right_of_le (by decide)
  have hbeside : (F.CTU_GEN_STAT.STEPPED n).Beside g := .inl (hg.off_ne hbeyond)
  simp [State.reanchor, calm_setFlag hg.placed hbeside]

@[simp] theorem calm_reanchorHalf (hg : g.Steady) (h : Nat) (isSet : Bool) : Calm g s (t.reanchorHalf h isSet) ↔ Calm g s t := by
  simp [State.reanchorHalf, hg]

@[simp] theorem calm_newTime (hg : g.Steady) (h t' : Nat) (isSet : Bool) : Calm g s (t.newTime h t' isSet) ↔ Calm g s t := by
  simp [State.newTime, hg]

theorem foreign_gearCur : Foreign O.TRK_GEAR_CUR := ⟨by decide, fun hc => absurd hc.2.2.1 (by decide), by decide, by decide⟩

@[simp] theorem calm_copyGear (hg : g.Placed) (h : Nat) : Calm g s (t.copyGear h) ↔ Calm g s t := by
  simp [State.copyGear, hg, F.TRK_GEAR_CUR.CUR, foreign_gearCur]

end

/-- The time base that is given a new time holds it. -/
theorem State.time_newTime (s : State) (h t : Nat) (isSet : Bool) : ((s.newTime h t isSet).tb h).t = t := by
  have hp := Allows.refl [Area.regs, Area.pps, Area.gens]
  have hk : Keeps [.regs, .pps, .gens] (s.setTb h { s.tb h with t := t }) (s.newTime h t isSet) :=
    State.reanchorHalf_keeps (State.ppsMark_keeps (.refl _) h _ t) h isSet
  unfold State.tb
  rw [hk.1 .tbs (by decide)]
  exact congrArg TimeBase.t (s.tb_setTb_self h _)

/-- The half's state is the other's, but for the mode (01_block_and_halves.md R34). -/
def State.stateCopied (s : State) (h : Nat) : State :=
  let o := 1 - h
  let fresh := (s.half h).fromReset
  let s := s.copyGear h
  let s := s.wr (O.TB_RATE + tbOfs h) (s.rd (O.TB_RATE + tbOfs o))
  let s := s.newTime h (s.tb o).t fresh
  let s := s.fsets
    [(tbFld F.TB_STAT.SET_DONE h, s.fget (tbFld F.TB_STAT.SET_DONE o)),
     (tbFld F.TB_STAT.STEP_USED h, s.fget (tbFld F.TB_STAT.STEP_USED o)),
     (tbFld F.TB_STAT.STEP_HW h, s.fget (tbFld F.TB_STAT.STEP_HW o))]
  s.setHalf h { s.half h with copyState := false, fromReset := false, epoch := s.fget F.BLK_HALF.EPOCH }

theorem calm_stateCopied {g : Fld} (hg : g.Steady) (s : State) (h : Nat) : Calm g s (s.stateCopied h) := by
  have hrate : 0x028000 ≤ O.TB_RATE + tbOfs h := Nat.le_add_right_of_le (by decide)
  simp [State.stateCopied, hg, hrate, tbFld, F.TB_STAT.SET_DONE, F.TB_STAT.STEP_USED, F.TB_STAT.STEP_HW]

theorem State.copyState_stateCopied (s : State) (h : Nat) : ((s.stateCopied h).half h).copyState = false :=
  congrArg HalfSt.copyState (State.half_setHalf_self _ h _)

theorem Keeps.tb {ar : List Area} {s t : State} (h : Keeps ar s t) (ht : Area.tbs ∉ ar) (n : Nat) : t.tb n = s.tb n := by
  unfold State.tb
  rw [h.1 .tbs ht]

theorem Keeps.em {ar : List Area} {s t : State} (h : Keeps ar s t) (ht : Area.ems ∉ ar) (n : Nat) : t.em n = s.em n := by
  unfold State.em
  rw [h.1 .ems ht]

theorem State.time_stateCopied (s : State) (h : Nat) : ((s.stateCopied h).tb h).t = (s.tb (1 - h)).t := by
  unfold State.stateCopied
  extract_lets o fresh s1 s2 s3 s4
  have hp := Allows.refl [Area.regs, Area.halves]
  have hk : Keeps [.regs, .halves] s3 (s4.setHalf h { s4.half h with
      copyState := false, fromReset := false, epoch := s4.fget F.BLK_HALF.EPOCH }) :=
    State.setHalf_keeps (State.fsets_keeps (.refl s3) _) h _
  have h2 : Keeps [.regs, .halves] s s2 := State.wr_keeps (State.copyGear_keeps (.refl s) h) _ _
  rw [hk.tb (by decide), s2.time_newTime h _ fresh, h2.tb (by decide)]

/-- Nothing to clear while HALF_LOST is not set. -/
theorem State.lostCheck_of_not_lost {s : State} (h : s.flag F.BLK_MODE.HALF_LOST = false) : s.lostCheck = s := by
  unfold State.lostCheck
  rw [if_neg (by simp [h])]

section
variable {s : State} {h : Nat} (hs : s.cfg = .x) (hh : h < 2) (hl : s.linked = true) (ht : s.settle = false)
  (hr : s.halfInReset h = false)
include hs hh hl ht hr

theorem copies_state (hc : (s.half h).copyState = true) :
    ∃ t, exec (.stateCopyDone h) s = .next t ∧ (t.half h).copyState = false ∧ (t.tb h).t = (s.tb (1 - h)).t ∧
      (s.flag F.BLK_MODE.HALF_LOST = false → t.hmode h = s.hmode (1 - h)) := by
  have hx : exec (.stateCopyDone h) s = .next (((s.stateCopied h).setHalfMode h ((s.stateCopied h).hmode (1 - h))).lostCheck) :=
    if_pos ⟨hs, hh, hc, hl, ht, hr⟩
  have hmode : (s.stateCopied h).hmode (1 - h) = s.hmode (1 - h) := (calm_stateCopied (modeCopy_block (1 - h)).steady s h).fld
  have hp := Allows.refl modeAreas
  have hk : Keeps modeAreas (s.stateCopied h)
      (((s.stateCopied h).setHalfMode h ((s.stateCopied h).hmode (1 - h))).lostCheck) :=
    State.lostCheck_keeps (State.setHalfMode_keeps (.refl _) h _)
  refine ⟨_, hx, ?_, ?_, fun hlost => ?_⟩
  · rw [hk.half (by decide), State.copyState_stateCopied]
  · rw [hk.tb (by decide), State.time_stateCopied]
  · have hcalm : Calm F.BLK_MODE.HALF_LOST s ((s.stateCopied h).setHalfMode h ((s.stateCopied h).hmode (1 - h))) :=
      (calm_setHalfMode halfLost_block.quiet (halfLost_offMode.copy h) _).2 (calm_stateCopied halfLost_block.steady s h)
    have hlt : s.hmode (1 - h) < 8 := by
      have hwd : (modeCopy (1 - h)).wd = 3 := by
        unfold modeCopy
        split <;> rfl
      simpa [State.hmode, hwd] using s.fget_lt (modeCopy (1 - h))
    rw [State.lostCheck_of_not_lost (hcalm.flag.trans hlost), State.hmode_setHalfMode, hmode, Nat.mod_eq_of_lt hlt]

/-- With the tables copied the half's exact-match entries are the other's, and its admission is no longer stopped. -/
theorem copies_tables (hc : (s.half h).copyTables = true) :
    ∃ t, exec (.tableCopyDone h) s = .next t ∧ (t.half h).copyTables = false ∧ (t.half h).admStop = false ∧
      t.em h = s.em (1 - h) := by
  change ∃ t, execTableCopyDone h s = .next t ∧ _
  unfold execTableCopyDone
  rw [if_pos ⟨hs, hh, hc, hl, ht, hr⟩]
  extract_lets o s1 mine s2 s3 s4 v s5
  have hp := Allows.refl modeAreas
  have hk : Keeps _ (s4.setHalf h { v with copyTables := false, admStop := false, dropsOn := false, cur := none }) s5.lostCheck :=
    State.lostCheck_keeps (State.showCourses_keeps (.refl _))
  have hem : s4.em h = s.em (1 - h) := KMap.get_put_self _ _ _ _
  refine ⟨_, rfl, ?_, ?_, ?_⟩
  · rw [hk.half (by decide), State.half_setHalf_self]
  · rw [hk.half (by decide), State.half_setHalf_self]
  · rw [hk.em (by decide)]
    exact hem

/-- 01_block_and_halves.md R34 to R36. -/
theorem halvesLinksAndClocks_copies :
    ((s.half h).copyState = true →
      ∃ t, exec (.stateCopyDone h) s = .next t ∧ (t.half h).copyState = false ∧ (t.tb h).t = (s.tb (1 - h)).t ∧
        (s.flag F.BLK_MODE.HALF_LOST = false → t.hmode h = s.hmode (1 - h))) ∧
    ((s.half h).copyTables = true →
      ∃ t, exec (.tableCopyDone h) s = .next t ∧ (t.half h).copyTables = false ∧ (t.half h).admStop = false ∧
        t.em h = s.em (1 - h)) := ⟨copies_state hs hh hl ht hr, copies_tables hs hh hl ht hr⟩

end

end Sys2Proof.Machine

namespace Sys2Proof.Machine

/-! ## Loss of the spine link (01_block_and_halves.md R22, R33; 18_faults_and_selftest.md R420) -/

theorem State.fget_loseFrames {g : Fld} (hg : g.Block) (s : State) (bad : Nat → Bool) : (s.loseFrames bad).fget g = s.fget g := by
  have hcnt : 0x010000 ≤ O.Q_CNT 5 := by decide
  have hadd (u : State) (n : Nat) : (u.cntAdd (O.Q_CNT 5) n).fget g = u.fget g := by
    simp [State.cntAdd, State.wr64, hg, hcnt, Nat.le_add_right_of_le hcnt]
  unfold State.loseFrames
  refine State.fget_forEach s fun f u => ?_
  dsimp only
  rw [State.fget_discard hg]
  refine State.fget_forEach u fun q v => ?_
  split
  · rfl
  · rw [hadd, State.fget_setQp]

/-- The frames lost with a half's banks change no field of the block's own registers. -/
theorem State.fget_loseHalfBanks {g : Fld} (hg : g.Block) (s : State) (h : Nat) : (s.loseHalfBanks h).fget g = s.fget g := by
  unfold State.loseHalfBanks
  dsimp only
  rw [State.fget_forEach _ fun q u => State.fget_setQp u q _ g, State.fget_loseFrames hg]

/-- The half's spine link is down, and the fault logged. -/
def State.spineCut (s : State) (h : Nat) : State :=
  ((s.setHalf h { s.half h with spine := { up := false } }).sfUpdate).logFault 0x41 h 0 .l

theorem calm_spineCut {g : Fld} (hg : g.Steady) (s : State) (h : Nat) : Calm g s (s.spineCut h) := by
  simp [State.spineCut, hg]

theorem State.spineCut_keeps (s : State) (h : Nat) : Keeps safeholdAreas
    (s.setHalf h { s.half h with spine := { up := false } }) (s.spineCut h) := by
  have hp := Allows.refl safeholdAreas
  exact State.logFault_keeps (State.sfUpdate_keeps (.refl _)) 0x41 h 0 .l 0

theorem State.cfg_spineCut (s : State) (h : Nat) : (s.spineCut h).cfg = s.cfg := (s.spineCut_keeps h).1 .cfg (by decide)

theorem State.up_spineCut (s : State) (h : Nat) : ((s.spineCut h).half h).spine.up = false := by
  rw [(s.spineCut_keeps h).half (by decide), State.half_setHalf_self]

theorem State.half_spineCut_ne (s : State) {h n : Nat} (hn : n ≠ h) : (s.spineCut h).half n = s.half n := by
  rw [(s.spineCut_keeps h).half (by decide), State.half_setHalf_ne _ _ hn]

/-- What Gweip-X does for the lead, the other half counting as lost. -/
def State.spineLead (s : State) (h : Nat) : State :=
  let o := 1 - h
  if s.leader ≠ h then s
  else if s.flag F.BLK_HALF.STANDBY_LEAD then
    let s := s.takeLead o fun s => if liveMode s.mode then s.enterSafehold 4 else s
    if s.leader = o ∧ s.linked = true then s.fset (claimFld h) 0 else s
  else if liveMode s.mode then
    let s := s.enterSafehold 5
    if s.hmode o = 6 ∨ s.halfInReset o = true then s else (s.setHalfMode o 6).safeholdHalf o
  else s

section
variable {s : State} {h : Nat} (hh : h < s.cfg.halves) (hup : (s.half h).spine.up = true)
include hh hup

theorem exec_spineLinkLoss_s (hs : s.cfg = .s) :
    exec (.spineLinkLoss h) s = .next (if liveMode (s.spineCut h).mode = true then (s.spineCut h).enterSafehold 6 else s.spineCut h) := by
  have hc : (s.spineCut h).cfg = .s := (s.cfg_spineCut h).trans hs
  change execSpineLinkLoss h s = _
  unfold execSpineLinkLoss
  rw [if_pos ⟨hh, hup⟩]
  change (match (s.spineCut h).cfg with | .s => _ | .x => _) = _
  rw [hc]
  rfl

theorem exec_spineLinkLoss_x (hs : s.cfg = .x) :
    exec (.spineLinkLoss h) s = .next ((((s.spineCut h).setLost.spineLead h).loseHalfBanks h).fixDegraded) := by
  have hc : (s.spineCut h).cfg = .x := (s.cfg_spineCut h).trans hs
  change execSpineLinkLoss h s = _
  unfold execSpineLinkLoss
  rw [if_pos ⟨hh, hup⟩]
  change (match (s.spineCut h).cfg with | .s => _ | .x => _) = _
  rw [hc]
  rfl

end

/-! ### Gweip-S -/

theorem spineLoss_s {s : State} {h : Nat} (hh : h < s.cfg.halves) (hup : (s.half h).spine.up = true) (hs : s.cfg = .s) :
    ∃ t, exec (.spineLinkLoss h) s = .next t ∧ (t.half h).spine.up = false ∧
      (1 ≤ s.mode → s.mode ≤ 5 → t.mode = 6 ∧ t.fget F.BLK_MODE.SH_CAUSE = 6) := by
  refine ⟨_, exec_spineLinkLoss_s hh hup hs, ?_, fun h1 h5 => ?_⟩
  · have hup := s.up_spineCut h
    split
    · rw [(State.enterSafehold_keeps (.refl _) 6 (Allows.refl _)).half (by decide), hup]
    · exact hup
  · have hmode : (s.spineCut h).mode = s.mode := (calm_spineCut mode_block.steady s h).fld
    rw [if_pos ((liveMode_iff _).2 ⟨by omega, by omega⟩)]
    exact ⟨State.mode_enterSafehold _ 6, State.cause_enterSafehold _ (by decide)⟩

/-! ### Gweip-X -/

/-- The lead cannot rise: the block goes to SAFEHOLD where it is in a live mode (01_block_and_halves.md R33). -/
theorem calm_fullSafehold {g : Fld} (hg : g.Steady) (hm : g.OffMode) (hc : F.BLK_MODE.SH_CAUSE.Beside g) (s : State) (cause : Nat) :
    Calm g s (if liveMode s.mode = true then s.enterSafehold cause else s) := by
  split
  · exact (calm_enterSafehold hg hm hc cause).2 (.refl _ _)
  · exact .refl _ _

theorem halfLost_beside_cause : F.BLK_MODE.SH_CAUSE.Beside F.BLK_MODE.HALF_LOST := .inr (by decide)

theorem links_fullSafehold (s : State) (cause : Nat) : SameLinks s (if liveMode s.mode = true then s.enterSafehold cause else s) := by
  split
  · exact (State.enterSafehold_keeps (.refl s) cause (Allows.refl _)).links (by decide)
  · exact .refl s

/-- HALF_LOST stays set whatever becomes of the lead. -/
theorem State.halfLost_takeLead {s : State} (hs : s.flag F.BLK_MODE.HALF_LOST = true) {n : Nat} (hn : n < 2) (cause : Nat) :
    (s.takeLead n fun s => if liveMode s.mode then s.enterSafehold cause else s).flag F.BLK_MODE.HALF_LOST = true := by
  by_cases he : (s.half n).epoch < 0xFFFF
  · obtain ⟨-, -, -, hlost⟩ := State.takeLead_spec hn he fun s => if liveMode s.mode then s.enterSafehold cause else s
    exact hlost
  · have ht : s.takeLead n (fun s => if liveMode s.mode then s.enterSafehold cause else s) =
        if liveMode s.mode then s.enterSafehold cause else s := if_pos (by omega)
    rw [ht]
    exact (calm_fullSafehold halfLost_block.steady halfLost_offMode halfLost_beside_cause s cause).flag.trans hs

theorem State.halfLost_spineLead {s : State} (hs : s.flag F.BLK_MODE.HALF_LOST = true) (h : Nat) :
    (s.spineLead h).flag F.BLK_MODE.HALF_LOST = true := by
  have hhalf {u : State} (n : Nat) : Calm F.BLK_MODE.HALF_LOST u ((u.setHalfMode n 6).safeholdHalf n) := by
    rw [calm_safeholdHalf halfLost_block.steady, calm_setHalfMode halfLost_block.quiet (halfLost_offMode.copy n)]
    exact .refl _ _
  have hclaim : F.BLK_MODE.HALF_LOST.off ≠ (claimFld h).off := by
    rw [claimFld_off]
    decide
  have hn : 1 - h < 2 := by omega
  have hsafe : (s.enterSafehold 5).flag F.BLK_MODE.HALF_LOST = true :=
    ((calm_enterSafehold halfLost_block.steady halfLost_offMode halfLost_beside_cause 5).2 (.refl _ _)).flag.trans hs
  unfold State.spineLead
  dsimp only
  split_ifs
  · exact hs
  · rw [State.flag_fset_word _ _ hclaim, State.halfLost_takeLead hs hn]
  · exact State.halfLost_takeLead hs hn 4
  · exact hsafe
  · exact (hhalf _).flag.trans hsafe
  · exact hs

theorem State.links_spineLead (s : State) (h : Nat) : SameLinks s (s.spineLead h) := by
  have hlead : SameLinks s (s.takeLead (1 - h) fun s => if liveMode s.mode then s.enterSafehold 4 else s) :=
    State.links_takeLead (full := fun s => if liveMode s.mode then s.enterSafehold 4 else s) (links_fullSafehold s 4)
  have hsafe : SameLinks s (s.enterSafehold 5) := (State.enterSafehold_keeps (.refl s) 5 (Allows.refl _)).links (by decide)
  unfold State.spineLead
  dsimp only
  split_ifs
  · exact .refl s
  · exact hlead.trans ((State.fset_keeps (.refl _) _ _ (Allows.refl _)).links (by decide))
  · exact hlead
  · exact hsafe
  · have hp := Allows.refl safeholdAreas
    exact hsafe.trans (Keeps.links (State.safeholdHalf_keeps (State.setHalfMode_keeps (.refl _) (1 - h) 6) (1 - h)) (by decide))
  · exact .refl s

/-- The standby half leads with its next epoch. -/
theorem State.spineLead_taken {s : State} {h : Nat} (hl : s.leader = h) (hb : s.flag F.BLK_HALF.STANDBY_LEAD = true)
    (he : (s.half (1 - h)).epoch < 0xFFFF) :
    (s.spineLead h).leader = 1 - h ∧ (s.spineLead h).fget F.BLK_HALF.EPOCH = (s.half (1 - h)).epoch + 1 := by
  obtain ⟨hlead, -, hepoch, -⟩ := State.takeLead_spec (n := 1 - h) (by omega) he fun s => if liveMode s.mode then s.enterSafehold 4 else s
  obtain ⟨hb1, hb2, -⟩ := claimFld_beside h
  unfold State.spineLead
  dsimp only
  rw [if_neg (not_not_intro hl), if_pos hb]
  split
  · exact ⟨(State.fget_fset_ne _ _ _ _ hb1).trans hlead, (State.fget_fset_ne _ _ _ _ hb2).trans hepoch⟩
  · exact ⟨hlead, hepoch⟩

theorem spineLoss_x {s : State} {h : Nat} (hh : h < s.cfg.halves) (hup : (s.half h).spine.up = true) (hs : s.cfg = .x) :
    ∃ t, exec (.spineLinkLoss h) s = .next t ∧ (t.half h).spine.up = false ∧ t.flag F.BLK_MODE.HALF_LOST = true ∧
      (s.leader = h → s.flag F.BLK_HALF.STANDBY_LEAD = true → (s.half (1 - h)).epoch < 0xFFFF →
        t.leader = 1 - h ∧ t.fget F.BLK_HALF.EPOCH = (s.half (1 - h)).epoch + 1) := by
  let u := s.spineCut h
  let v := u.setLost.spineLead h
  have hh2 : h < 2 := hh.trans_le (Cfg.halves_le_two _)
  have hend {g : Fld} (hg : g.Block) (hm : g.OffMode) : ((v.loseHalfBanks h).fixDegraded).fget g = v.fget g :=
    ((calm_fixDegraded hg.quiet hm).2 (.refl g _)).fld.trans (State.fget_loseHalfBanks hg v h)
  have hstart {g : Fld} (hg : g.Block) (ho : g.off = O.BLK_HALF) : Calm g s u.setLost :=
    (calm_setLost hg.quiet.placed (.inl (by rw [ho]; decide))).2 (calm_spineCut hg.steady s h)
  have hlost := State.setLost_keeps (.refl u) (Allows.refl _)
  have hp := Allows.refl (safeholdAreas ++ [.threads])
  have hk : Keeps _ v ((v.loseHalfBanks h).fixDegraded) := State.fixDegraded_keeps (State.loseHalfBanks_keeps (.refl v) h)
  refine ⟨_, exec_spineLinkLoss_x hh hup hs, ?_, ?_, fun hl hb he => ?_⟩
  · rw [hk.half (by decide), (u.setLost.links_spineLead h).spine, hlost.half (by decide), State.up_spineCut]
  · unfold State.flag
    rw [hend halfLost_block halfLost_offMode]
    exact State.halfLost_spineLead u.halfLost_setLost h
  · have hepoch : (u.setLost.half (1 - h)).epoch = (s.half (1 - h)).epoch := by
      rw [hlost.half (by decide), State.half_spineCut_ne s (by omega)]
    obtain ⟨h1, h2⟩ := State.spineLead_taken (s := u.setLost) (h := h) ((hstart leader_block rfl).fld.trans hl)
      ((hstart standbyLead_block rfl).flag.trans hb) (by omega)
    exact ⟨(hend leader_block leader_offMode).trans h1, (hend epoch_block epoch_offMode).trans (h2.trans (by rw [hepoch]))⟩

/-- 01_block_and_halves.md R22 and R33, and 18_faults_and_selftest.md R420. -/
theorem halvesLinksAndClocks_spineLoss (s : State) (h : Nat) (hh : h < s.cfg.halves) (hup : (s.half h).spine.up = true) :
    ∃ t, exec (.spineLinkLoss h) s = .next t ∧ (t.half h).spine.up = false ∧
      (s.cfg = .s → 1 ≤ s.mode → s.mode ≤ 5 → t.mode = 6 ∧ t.fget F.BLK_MODE.SH_CAUSE = 6) ∧
      (s.cfg = .x → t.flag F.BLK_MODE.HALF_LOST = true ∧
        (s.leader = h → s.flag F.BLK_HALF.STANDBY_LEAD = true → (s.half (1 - h)).epoch < 0xFFFF →
          t.leader = 1 - h ∧ t.fget F.BLK_HALF.EPOCH = (s.half (1 - h)).epoch + 1)) := by
  cases hs : s.cfg with
  | s =>
    obtain ⟨t, hx, hdown, hsafe⟩ := spineLoss_s hh hup hs
    exact ⟨t, hx, hdown, fun _ => hsafe, (nomatch ·)⟩
  | x =>
    obtain ⟨t, hx, hdown, hlost, hlead⟩ := spineLoss_x hh hup hs
    exact ⟨t, hx, hdown, (nomatch ·), fun _ => ⟨hlost, hlead⟩⟩

/-- Settles O7: the links of one half, the settlement of the lead, the copies, the loss of the spine link and the clocks. -/
theorem halvesLinksAndClocks : Obligations.HalvesLinksAndClocks :=
  ⟨halvesLinksAndClocks_links, halvesLinksAndClocks_settlement, fun _ _ => halvesLinksAndClocks_copies,
    halvesLinksAndClocks_spineLoss, halvesLinksAndClocks_clocks⟩

end Sys2Proof.Machine

namespace Sys2Proof.Machine

/-! ## What a DMA run does (02_boundary_and_access.md R59; 12_dma_and_planes.md R326, R329 to R334, R336 to R339)

A run's own commands are built from few operations: moving bytes (`dmaMove`), ending (`dmaEnd`), draining (`dmaFail`), fetching a
list entry (`listFetch`) and going on to the next one (`dmaNextEntry`). What each of them leaves in the channel's registers is
stated once here; the clauses of DmaTransfers follow from that. -/

/-! ### 64-bit registers -/

theorem State.rd_wr64_ne (s : State) {k j : Nat} (v : Nat) (h : j ≠ k) (h' : j ≠ k + 4) : (s.wr64 k v).rd j = s.rd j := by
  unfold State.wr64
  rw [State.rd_wr_ne _ _ h', State.rd_wr_ne _ _ h]

theorem State.rd64_wr64_self (s : State) (k v : Nat) : (s.wr64 k v).rd64 k = v % 2 ^ 64 := by
  unfold State.rd64 State.wr64
  rw [State.rd_wr_self, State.rd_wr_ne _ _ (by omega), State.rd_wr_self, BitVec.toNat_ofNat, BitVec.toNat_ofNat]
  omega

theorem State.rd64_congr {s t : State} {k : Nat} (h : t.rd k = s.rd k) (h' : t.rd (k + 4) = s.rd (k + 4)) : t.rd64 k = s.rd64 k := by
  unfold State.rd64
  rw [h, h']

theorem State.rd64_fset_ne (s : State) (f : Fld) (v : Nat) {k : Nat} (h : k ≠ f.off) (h' : k + 4 ≠ f.off) :
    (s.fset f v).rd64 k = s.rd64 k := State.rd64_congr (s.rd_fset_ne f v h) (s.rd_fset_ne f v h')

theorem State.rd64_wr64_ne (s : State) {k j : Nat} (v : Nat) (h : j ≠ k) (h1 : j ≠ k + 4) (h2 : j + 4 ≠ k) :
    (s.wr64 k v).rd64 j = s.rd64 j := State.rd64_congr (s.rd_wr64_ne v h h1) (s.rd_wr64_ne v h2 (by omega))

theorem State.fget_wr64_ne (s : State) {k : Nat} (v : Nat) (g : Fld) (h : g.off ≠ k) (h' : g.off ≠ k + 4) :
    (s.wr64 k v).fget g = s.fget g := by
  unfold State.fget
  rw [s.rd_wr64_ne v h h']

theorem State.flag_wr64_ne (s : State) {k : Nat} (v : Nat) (g : Fld) (h : g.off ≠ k) (h' : g.off ≠ k + 4) :
    (s.wr64 k v).flag g = s.flag g := by
  unfold State.flag
  rw [s.fget_wr64_ne v g h h']

theorem OnlyWords.fget {s t : State} {ks : List Nat} (h : OnlyWords s t ks) (g : Fld) (hg : g.off ∉ ks) : t.fget g = s.fget g := by
  unfold State.fget
  rw [h _ hg]

theorem OnlyWords.flag {s t : State} {ks : List Nat} (h : OnlyWords s t ks) (g : Fld) (hg : g.off ∉ ks) : t.flag g = s.flag g := by
  unfold State.flag
  rw [h.fget g hg]

theorem OnlyWords.rd64 {s t : State} {ks : List Nat} (h : OnlyWords s t ks) {k : Nat} (hk : k ∉ ks) (hk' : k + 4 ∉ ks) :
    t.rd64 k = s.rd64 k := State.rd64_congr (h _ hk) (h _ hk')

/-- What keeps the register words keeps each of them. -/
theorem Keeps.onlyWords {ar : List Area} {s t : State} (h : Keeps ar s t) (hc : Area.cfg ∉ ar) (hr : Area.regs ∉ ar)
    (ks : List Nat) : OnlyWords s t ks := fun k _ => State.rd_congr (h.1 .cfg hc) (h.1 .regs hr) k

theorem Keeps.dma {ar : List Area} {s t : State} (h : Keeps ar s t) (hd : Area.dmas ∉ ar) (n : Nat) : t.dma n = s.dma n := by
  have hs : t.dmas = s.dmas := h.1 .dmas hd
  unfold State.dma
  rw [hs]

/-! ### Moving bytes -/

/-- The register words of channel `n` that show how far a run has come (R331, R336, R340). -/
def moveWords (n : Nat) : List Nat :=
  [O.DMA_CH_COUNT n, O.DMA_CH_SRC n, O.DMA_CH_SRC n + 4, O.DMA_CH_DST n, O.DMA_CH_DST n + 4, O.DMA_CH_POS n, O.DMA_CH_POS n + 4]

theorem State.dmaAdvance_onlyWords (s : State) (n k : Nat) : OnlyWords s (s.dmaAdvance n k) (moveWords n) := by
  intro j hj
  obtain ⟨h1, h2, h3, h4, h5, h6, h7⟩ : j ≠ O.DMA_CH_COUNT n ∧ j ≠ O.DMA_CH_SRC n ∧ j ≠ O.DMA_CH_SRC n + 4 ∧ j ≠ O.DMA_CH_DST n ∧
    j ≠ O.DMA_CH_DST n + 4 ∧ j ≠ O.DMA_CH_POS n ∧ j ≠ O.DMA_CH_POS n + 4 := by simpa [moveWords] using hj
  unfold State.dmaAdvance
  dsimp only
  split
  · simp [State.rd_fset_ne, State.rd_wr64_ne, F.DMA_CH_POS.SLINE, F.DMA_CH_POS.SOFS, F.DMA_CH_POS.DLINE, F.DMA_CH_POS.DOFS,
      F.DMA_CH_COUNT.COUNT, *]
  · simp [State.rd_fset_ne, State.rd_wr64_ne, F.DMA_CH_COUNT.COUNT, *]

theorem State.dmaAdvance_count (s : State) (n k : Nat) : (s.dmaAdvance n k).dmaCount n = s.dmaCount n - k := by
  have hc : (s.fset (F.DMA_CH_COUNT.COUNT n) (s.dmaCount n - k)).fget (F.DMA_CH_COUNT.COUNT n) = s.dmaCount n - k := by
    have := s.fget_lt (F.DMA_CH_COUNT.COUNT n)
    rw [State.fget_fset_self _ _ _ (by simp [F.DMA_CH_COUNT.COUNT]), Nat.mod_eq_of_lt]
    unfold State.dmaCount
    omega
  rw [State.dmaCount]
  refine Eq.trans ?_ hc
  unfold State.dmaAdvance
  dsimp only
  split
  · simp [State.fget_fset_ne, State.fget_wr64_ne, F.DMA_CH_POS.SLINE, F.DMA_CH_POS.SOFS, F.DMA_CH_POS.DLINE, F.DMA_CH_POS.DOFS,
      F.DMA_CH_COUNT.COUNT, O.DMA_CH_POS, O.DMA_CH_COUNT, O.DMA_CH_SRC, O.DMA_CH_DST, Nat.add_right_comm _ (128 * n) 4]
  · simp [State.fget_wr64_ne, F.DMA_CH_COUNT.COUNT, O.DMA_CH_COUNT, O.DMA_CH_SRC, O.DMA_CH_DST, Nat.add_right_comm _ (128 * n) 4]

theorem Dma.ite_addr (c : Prop) [Decidable c] (d : Dma) (m a : Nat) :
    (if c then { d with moved := m, addr := a } else { d with moved := m }) =
      { d with moved := m, pos := d.pos, addr := if c then a else d.addr } := by split <;> rfl

/-- Progress changes nothing else of a channel. -/
theorem State.dmaAdvance_dma (s : State) (n k : Nat) :
    ∃ m p a, (s.dmaAdvance n k).dma n = { s.dma n with moved := m, pos := p, addr := a } := by
  unfold State.dmaAdvance
  dsimp only
  split
  · exact ⟨(s.dma n).moved + k, (s.dma n).pos + k, (s.dma n).addr, by simp⟩
  · exact ⟨_, _, _, (State.dma_setDma_self _ _ _).trans (Dma.ite_addr _ _ _ _)⟩

/-- The bytes that a move writes, before the progress registers follow. -/
def State.dmaCopy (s : State) (n k : Nat) (data : List Byte) : State :=
  let r := s.readSegs n (s.dmaSegs n k false) data
  let r := if s.dmaOp n ≠ 0 ∧ s.planesMeet n = true then r.2.freeBytes r.1.length else r
  let bs :=
    if s.dmaOp n = 1 then splitPlanes (s.dmaP n) (s.dmaW n) (s.dmaMsb n) r.1
    else if s.dmaOp n = 2 then mergePlanes (s.dmaP n) (s.dmaW n) (s.dmaMsb n) r.1
    else r.1
  r.2.writeSegs n (s.dmaSegs n k true) bs

theorem State.dmaMove_eq (s : State) (n k : Nat) (data : List Byte) :
    s.dmaMove n k data = if k = 0 then s else (s.dmaCopy n k data).dmaAdvance n k := rfl

theorem State.dmaCopy_keeps (s : State) (n k : Nat) (data : List Byte) : Keeps [.out, .free, .emem] s (s.dmaCopy n k data) := by
  have hr := State.readSegs_keeps (Keeps.refl (ar := [.out, .free, .emem]) s) n (s.dmaSegs n k false) data
    (Allows.mono (by decide) (Allows.refl _))
  unfold State.dmaCopy
  dsimp only
  refine State.writeSegs_keeps ?_ _ _ _ (Allows.mono (by decide) (Allows.refl _))
  split
  · exact State.freeBytes_keeps hr _ (Allows.mono (by decide) (Allows.refl _))
  · exact hr

theorem State.dmaMove_onlyWords (s : State) (n k : Nat) (data : List Byte) : OnlyWords s (s.dmaMove n k data) (moveWords n) := by
  rw [State.dmaMove_eq]
  split
  · exact OnlyWords.refl s _
  · exact ((s.dmaCopy_keeps n k data).onlyWords (by decide) (by decide) _).trans (State.dmaAdvance_onlyWords _ n k)

theorem State.dmaMove_count (s : State) (n k : Nat) (data : List Byte) : (s.dmaMove n k data).dmaCount n = s.dmaCount n - k := by
  rw [State.dmaMove_eq]
  split
  · next h => rw [h, Nat.sub_zero]
  · rw [State.dmaAdvance_count]
    exact congrArg (· - k) ((s.dmaCopy_keeps n k data).fget (by decide) (by decide) _)

theorem State.dmaMove_dma (s : State) (n k : Nat) (data : List Byte) :
    ∃ m p a, (s.dmaMove n k data).dma n = { s.dma n with moved := m, pos := p, addr := a } := by
  rw [State.dmaMove_eq]
  split
  · exact ⟨_, _, _, rfl⟩
  · rw [← (s.dmaCopy_keeps n k data).dma (by decide) n]
    exact State.dmaAdvance_dma _ n k

/-! ### The state and the flags of a channel -/

theorem dmaChannels_le (c : Cfg) : c.dmaChannels ≤ 32 := by cases c <;> decide

theorem srcDma_lt {c : Cfg} {n : Nat} (hn : n < c.dmaChannels) : srcDma c n + 1 < 1024 := by
  cases c <;> simp only [srcDma, Cfg.dmaChannels, Cfg.pick] at * <;> omega

theorem State.setDmaState_onlyWords (s : State) (n v : Nat) : OnlyWords s (s.setDmaState n v) [O.DMA_CH_STAT n, O.DMA_STAT] := by
  intro j hj
  obtain ⟨h1, h2⟩ : j ≠ O.DMA_CH_STAT n ∧ j ≠ O.DMA_STAT := by simpa using hj
  exact (State.rd_fset_ne _ _ _ h2).trans (s.rd_fset_ne _ _ h1)

/-- A field of DMA_CH_STAT_n above STATE. -/
structure Fld.ChStat (n : Nat) (g : Fld) : Prop where
  off : g.off = O.DMA_CH_STAT n
  above : 3 ≤ g.lo

theorem chStat_end (n : Nat) : (F.DMA_CH_STAT.END_PEND n).ChStat n := ⟨rfl, Nat.le_of_ble_eq_true rfl⟩
theorem chStat_atEnd (n : Nat) : (F.DMA_CH_STAT.AT_END n).ChStat n := ⟨rfl, Nat.le_of_ble_eq_true rfl⟩
theorem chStat_err (n : Nat) : (F.DMA_CH_STAT.ERR n).ChStat n := ⟨rfl, Nat.le_of_ble_eq_true rfl⟩
theorem chStat_done (n : Nat) : (F.DMA_CH_STAT.DONE n).ChStat n := ⟨rfl, Nat.le_of_ble_eq_true rfl⟩

theorem dmaStat_ne_chStat (n : Nat) : O.DMA_CH_STAT n ≠ O.DMA_STAT := by
  simp only [O.DMA_CH_STAT, O.DMA_STAT]
  omega

theorem State.fget_setDmaState_chStat {n : Nat} {g : Fld} (hg : g.ChStat n) (s : State) (v : Nat) :
    (s.setDmaState n v).fget g = s.fget g := by
  unfold State.setDmaState
  rw [State.fget_fset_ne _ _ _ _ (.inl (by rw [hg.off]; exact dmaStat_ne_chStat n)),
    State.fget_fset_ne _ (F.DMA_CH_STAT.STATE n) g _ (.inr (.inl hg.above))]

theorem State.flag_setDmaState_chStat {n : Nat} {g : Fld} (hg : g.ChStat n) (s : State) (v : Nat) :
    (s.setDmaState n v).flag g = s.flag g := by
  unfold State.flag
  rw [State.fget_setDmaState_chStat hg]

theorem State.dmaState_setDmaState (s : State) (n : Nat) {v : Nat} (hv : v < 8) : (s.setDmaState n v).dmaState n = v := by
  unfold State.dmaState State.setDmaState
  rw [State.fget_fset_ne _ _ _ _ (.inl (dmaStat_ne_chStat n)), State.fget_fset_self _ _ _ (Nat.le_of_ble_eq_true rfl)]
  exact Nat.mod_eq_of_lt hv

theorem State.dmaState_fset {n : Nat} {g : Fld} (hg : g.ChStat n) (s : State) (v : Nat) :
    (s.fset g v).dmaState n = s.dmaState n := s.fget_fset_ne _ _ _ (.inr (.inr hg.above))

/-! ### The end of a run (R337) -/

/-- A run has ended with a status, in the channel's own registers. -/
def State.dmaClosed (s : State) (n status : Nat) : State :=
  (s.fsets [(F.DMA_CH_STAT.ERR n, status), (F.DMA_CH_STAT.DONE n, 1), (F.DMA_CH_STAT.END_PEND n, 0),
    (F.DMA_CH_STAT.SH_PAUSED n, 0)]).setDmaState n 0

/-- Channel `n` is IDLE, its run DONE with status `st`. -/
abbrev State.DmaDone (t : State) (n st : Nat) : Prop :=
  t.dmaState n = 0 ∧ t.fget (F.DMA_CH_STAT.ERR n) = st ∧ t.flag (F.DMA_CH_STAT.DONE n) = true

/-- Behind the channel's own registers an end sets CPL_WAIT or raises a source, no more. -/
theorem State.fget_dmaEnd {s : State} {n : Nat} (hn : n < s.cfg.dmaChannels) (e : Nat) {g : Fld}
    (hb : (F.DMA_CH_STAT.CPL_WAIT n).Beside g) (ho : g.off < O.IRQ_PEND 0) : (s.dmaEnd n e).fget g = (s.dmaClosed n e).fget g := by
  have hs := srcDma_lt hn
  unfold State.dmaEnd
  dsimp only
  split
  · exact (State.fget_fset_ne _ _ _ _ hb).trans (State.fget_setDma _ _ _ _)
  · split
    · exact State.fget_raise _ _ _ (.inl ho) (by simpa [State.setDmaState] using Nat.lt_of_succ_lt hs)
    · rfl

theorem chStat_lt_pend {s : State} {n : Nat} (hn : n < s.cfg.dmaChannels) : O.DMA_CH_STAT n < O.IRQ_PEND 0 := by
  have := dmaChannels_le s.cfg
  simp only [O.DMA_CH_STAT, O.IRQ_PEND]
  omega

theorem State.dmaClosed_fields (s : State) (n : Nat) {e : Nat} (he : e < 16) :
    (s.dmaClosed n e).DmaDone n e ∧ (s.dmaClosed n e).fget (F.DMA_CH_STAT.END_PEND n) = 0 ∧
      (s.dmaClosed n e).fget (F.DMA_CH_STAT.AT_END n) = s.fget (F.DMA_CH_STAT.AT_END n) := by
  refine ⟨⟨State.dmaState_setDmaState _ n (by decide), ?_, ?_⟩, ?_, ?_⟩
  · exact (State.fget_setDmaState_chStat (chStat_err n) _ _).trans (by
      simp [F.DMA_CH_STAT.ERR, F.DMA_CH_STAT.DONE, F.DMA_CH_STAT.END_PEND, F.DMA_CH_STAT.SH_PAUSED, State.fget_fset_ne,
        State.fget_fset_self, Nat.mod_eq_of_lt he])
  · exact (State.flag_setDmaState_chStat (chStat_done n) _ _).trans (by
      simp [F.DMA_CH_STAT.ERR, F.DMA_CH_STAT.DONE, F.DMA_CH_STAT.END_PEND, F.DMA_CH_STAT.SH_PAUSED, State.flag_fset_ne,
        State.flag_fset_self])
  · exact (State.fget_setDmaState_chStat (chStat_end n) _ _).trans (by
      simp [F.DMA_CH_STAT.ERR, F.DMA_CH_STAT.DONE, F.DMA_CH_STAT.END_PEND, F.DMA_CH_STAT.SH_PAUSED, State.fget_fset_ne,
        State.fget_fset_self])
  · exact (State.fget_setDmaState_chStat (chStat_atEnd n) _ _).trans (by
      simp [F.DMA_CH_STAT.ERR, F.DMA_CH_STAT.DONE, F.DMA_CH_STAT.END_PEND, F.DMA_CH_STAT.SH_PAUSED, F.DMA_CH_STAT.AT_END,
        State.fget_fset_ne])

theorem State.dmaEnd_fields {s : State} {n : Nat} (hn : n < s.cfg.dmaChannels) {e : Nat} (he : e < 16) :
    (s.dmaEnd n e).DmaDone n e ∧ (s.dmaEnd n e).flag (F.DMA_CH_STAT.END_PEND n) = false ∧
      (s.dmaEnd n e).flag (F.DMA_CH_STAT.AT_END n) = s.flag (F.DMA_CH_STAT.AT_END n) := by
  have hw := chStat_lt_pend hn
  obtain ⟨⟨h1, h2, h3⟩, h4, h5⟩ := s.dmaClosed_fields n he
  have hst := State.fget_dmaEnd hn e (g := F.DMA_CH_STAT.STATE n) (.inr (.inr (Nat.le_of_ble_eq_true rfl))) hw
  have herr := State.fget_dmaEnd hn e (g := F.DMA_CH_STAT.ERR n) (.inr (.inl (Nat.le_of_ble_eq_true rfl))) hw
  have hdone := State.fget_dmaEnd hn e (g := F.DMA_CH_STAT.DONE n) (.inr (.inr (Nat.le_of_ble_eq_true rfl))) hw
  have hend := State.fget_dmaEnd hn e (g := F.DMA_CH_STAT.END_PEND n) (.inr (.inr (Nat.le_of_ble_eq_true rfl))) hw
  have hat := State.fget_dmaEnd hn e (g := F.DMA_CH_STAT.AT_END n) (.inr (.inr (Nat.le_of_ble_eq_true rfl))) hw
  refine ⟨⟨hst.trans h1, herr.trans h2, ?_⟩, ?_, ?_⟩
  · unfold State.flag at h3 ⊢
    rw [hdone, h3]
  · unfold State.flag
    rw [hend, h4]
    rfl
  · unfold State.flag
    rw [hat, h5]

theorem State.dmaCount_dmaEnd {s : State} {n : Nat} (hn : n < s.cfg.dmaChannels) (e : Nat) :
    (s.dmaEnd n e).dmaCount n = s.dmaCount n := by
  have := dmaChannels_le s.cfg
  refine (State.fget_dmaEnd hn e (g := F.DMA_CH_COUNT.COUNT n) (.inl ?_) ?_).trans ?_
  · simp [F.DMA_CH_COUNT.COUNT, F.DMA_CH_STAT.CPL_WAIT, O.DMA_CH_COUNT, O.DMA_CH_STAT]
  · simp only [F.DMA_CH_COUNT.COUNT, O.DMA_CH_COUNT, O.IRQ_PEND]
    omega
  · refine ((State.setDmaState_onlyWords _ n 0).fget _ ?_).trans ?_
    · simp [F.DMA_CH_COUNT.COUNT, O.DMA_CH_COUNT, O.DMA_CH_STAT, O.DMA_STAT]
      omega
    · simp [State.dmaCount, State.fget_fset_ne, F.DMA_CH_COUNT.COUNT, F.DMA_CH_STAT.ERR, F.DMA_CH_STAT.DONE,
        F.DMA_CH_STAT.END_PEND, F.DMA_CH_STAT.SH_PAUSED, O.DMA_CH_COUNT, O.DMA_CH_STAT]

/-- An end drives nothing and leaves the engine memories. -/
theorem State.dmaEnd_keeps_ports (s : State) (n e : Nat) : (s.dmaEnd n e).out = s.out ∧ (s.dmaEnd n e).emem = s.emem := by
  have hk := State.dmaEnd_keeps (Keeps.refl (ar := [.regs, .dmas]) s) n e (Allows.refl _)
  exact ⟨hk.1 .out (by decide), hk.1 .emem (by decide)⟩

/-! ### Failing and draining (R329, R338) -/

theorem State.dmaDrain_fields (s : State) (n target : Nat) :
    (s.dmaDrain n target).dmaState n = 2 ∧ ((s.dmaDrain n target).dma n).target = target ∧
      (s.dmaDrain n target).flag (F.DMA_CH_STAT.END_PEND n) = false ∧
      (s.dmaDrain n target).flag (F.DMA_CH_STAT.AT_END n) = s.flag (F.DMA_CH_STAT.AT_END n) := by
  unfold State.dmaDrain
  refine ⟨?_, ?_, ?_, ?_⟩
  · rw [State.dmaState_fset (chStat_end n), State.dmaState_setDmaState _ n (by decide)]
  · simp [State.setDmaState]
  · rw [State.flag_fset_self _ _ _ (Nat.le_of_ble_eq_true rfl)]
    rfl
  · rw [State.flag_fset_ne _ _ _ _ (.inr (.inr (Nat.le_of_ble_eq_true rfl))), State.flag_setDmaState_chStat (chStat_atEnd n),
      State.flag_setDma]

theorem State.dmaDrain_onlyWords (s : State) (n target : Nat) :
    OnlyWords s (s.dmaDrain n target) [O.DMA_CH_STAT n, O.DMA_STAT] := by
  intro j hj
  refine (State.rd_fset_ne _ _ _ fun h => hj (by simp [h, F.DMA_CH_STAT.END_PEND])).trans ?_
  exact (State.setDmaState_onlyWords _ n 2 j hj).trans (State.rd_setDma _ _ _ _)

theorem State.dmaFail_fields (s : State) (n status addr : Nat) :
    (s.dmaFail n status addr).dmaState n = 2 ∧ ((s.dmaFail n status addr).dma n).target = status ∧
      (s.dmaFail n status addr).rd64 (O.DMA_CH_ERRADDR n) = addr % 2 ^ 44 ∧
      (s.dmaFail n status addr).flag (F.DMA_CH_STAT.END_PEND n) = false ∧
      (s.dmaFail n status addr).flag (F.DMA_CH_STAT.AT_END n) = s.flag (F.DMA_CH_STAT.AT_END n) ∧
      (s.dmaFail n status addr).out = s.out := by
  obtain ⟨h1, h2, h3, h4⟩ := (s.wr64 (O.DMA_CH_ERRADDR n) (addr % 2 ^ 44)).dmaDrain_fields n status
  have hk := State.dmaDrain_keeps (State.wr64_keeps (Keeps.refl (ar := [.regs, .dmas]) s) (O.DMA_CH_ERRADDR n) (addr % 2 ^ 44)
    (Allows.mono (by decide) (Allows.refl _))) n status (Allows.refl _)
  refine ⟨h1, h2, ?_, h3, h4.trans ?_, hk.1 .out (by decide)⟩
  · refine ((State.dmaDrain_onlyWords _ n status).rd64 ?_ ?_).trans ?_
    · simp [O.DMA_CH_ERRADDR, O.DMA_CH_STAT, O.DMA_STAT]
      omega
    · simp [O.DMA_CH_ERRADDR, O.DMA_CH_STAT, O.DMA_STAT]
      omega
    · rw [State.rd64_wr64_self]
      omega
  · refine State.flag_wr64_ne _ _ _ ?_ ?_ <;> simp only [F.DMA_CH_STAT.AT_END, O.DMA_CH_STAT, O.DMA_CH_ERRADDR] <;> omega

/-! ### What a move leaves of a channel -/

theorem ctl_notMem_moveWords (n : Nat) : O.DMA_CH_CTL n ∉ moveWords n := by
  simp [moveWords, O.DMA_CH_COUNT, O.DMA_CH_SRC, O.DMA_CH_DST, O.DMA_CH_POS, O.DMA_CH_CTL]
  omega

theorem stat_notMem_moveWords (n : Nat) : O.DMA_CH_STAT n ∉ moveWords n := by
  simp [moveWords, O.DMA_CH_COUNT, O.DMA_CH_SRC, O.DMA_CH_DST, O.DMA_CH_POS, O.DMA_CH_STAT]
  omega

theorem State.dmaList_congr {s t : State} {n : Nat} {ks : List Nat} (h : OnlyWords s t ks) (h1 : O.DMA_CH_LIST n ∉ ks)
    (h2 : O.DMA_CH_LIST n + 4 ∉ ks) : t.dmaList n = s.dmaList n := h.rd64 h1 h2

section
variable (s : State) (n k : Nat) (data : List Byte)

theorem State.dmaState_dmaMove : (s.dmaMove n k data).dmaState n = s.dmaState n :=
  (s.dmaMove_onlyWords n k data).fget _ (stat_notMem_moveWords n)

theorem State.flag_dmaMove {g : Fld} (hg : g.off = O.DMA_CH_STAT n ∨ g.off = O.DMA_CH_CTL n) :
    (s.dmaMove n k data).flag g = s.flag g := by
  refine (s.dmaMove_onlyWords n k data).flag g ?_
  obtain h | h := hg
  · exact h ▸ stat_notMem_moveWords n
  · exact h ▸ ctl_notMem_moveWords n

theorem State.dmaList_dmaMove : (s.dmaMove n k data).dmaList n = s.dmaList n := by
  refine State.dmaList_congr (s.dmaMove_onlyWords n k data) ?_ ?_ <;>
    simp [moveWords, O.DMA_CH_COUNT, O.DMA_CH_SRC, O.DMA_CH_DST, O.DMA_CH_POS, O.DMA_CH_LIST] <;> omega

theorem State.dmaMove_cfg : (s.dmaMove n k data).cfg = s.cfg :=
  (State.dmaMove_keeps (Keeps.refl (ar := [.regs, .out, .free, .emem, .dmas]) s) n k data (Allows.refl _)).1 .cfg (by decide)

theorem State.target_dmaMove : ((s.dmaMove n k data).dma n).target = (s.dma n).target := by
  obtain ⟨m, p, a, h⟩ := s.dmaMove_dma n k data
  rw [h]

end

/-! ### Completion, drains and errors (R329, R331, R338) -/

theorem State.dmaComplete_fields {s : State} {n : Nat} (hn : n < s.cfg.dmaChannels) :
    (s.flag (F.DMA_CH_CTL.FENCE n) = true → (s.dmaComplete n).dmaState n = 4) ∧
      (s.flag (F.DMA_CH_CTL.FENCE n) = false → (s.dmaComplete n).DmaDone n 0) ∧
      (s.dmaComplete n).dmaCount n = s.dmaCount n ∧ (s.dmaComplete n).out = s.out ∧ (s.dmaComplete n).emem = s.emem := by
  unfold State.dmaComplete
  split
  · next hf =>
    have hk := State.setDmaState_keeps (Keeps.refl (ar := [.regs]) s) n 4 (Allows.refl _)
    refine ⟨fun _ => State.dmaState_setDmaState s n (by decide), fun h => absurd hf (by simp [h]), ?_, hk.1 .out (by decide),
      hk.1 .emem (by decide)⟩
    refine (s.setDmaState_onlyWords n 4).fget _ ?_
    simp [F.DMA_CH_COUNT.COUNT, O.DMA_CH_COUNT, O.DMA_CH_STAT, O.DMA_STAT]
    omega
  · next hf =>
    obtain ⟨hout, hemem⟩ := s.dmaEnd_keeps_ports n 0
    exact ⟨fun h => absurd h hf, fun _ => (State.dmaEnd_fields hn (by decide)).1, State.dmaCount_dmaEnd hn 0, hout, hemem⟩

/-- R329, R337: the rest of the run is moved, and the run completes. -/
theorem dmaTransfers_lastWrite {s : State} {n : Nat} (hn : n < s.cfg.dmaChannels) (data : List Byte) (hs : s.dmaState n = 1)
    (hm : s.dmaMode n ≠ 1) (hb : s.dmaBad n (s.dmaCount n) = none) :
    let m := s.dmaMove n (s.dmaCount n) data
    ∃ t, exec (.dmaLastWriteIssued n data) s = .next t ∧ t.out = m.out ∧ t.emem = m.emem ∧ t.dmaCount n = 0 ∧
      (s.flag (F.DMA_CH_CTL.FENCE n) = true → t.dmaState n = 4) ∧ (s.flag (F.DMA_CH_CTL.FENCE n) = false → t.DmaDone n 0) := by
  intro m
  have hcfg : m.cfg = s.cfg := s.dmaMove_cfg n _ data
  have hfence : m.flag (F.DMA_CH_CTL.FENCE n) = s.flag (F.DMA_CH_CTL.FENCE n) := s.flag_dmaMove n _ data (.inr rfl)
  obtain ⟨hwait, hdone, hcount, hout, hemem⟩ := State.dmaComplete_fields (s := m) (n := n) (hcfg ▸ hn)
  have hx : execDmaLastWriteIssued n data s = .next (m.dmaComplete n) := by
    simp [execDmaLastWriteIssued, hs, hm, hb, m]
  refine ⟨_, hx, hout, hemem, hcount.trans ?_, hfence ▸ hwait, hfence ▸ hdone⟩
  rw [s.dmaMove_count, Nat.sub_self]

/-- R333: a list run whose END entry has been moved and fetched once more completes. -/
theorem dmaTransfers_listEnd {s : State} {n : Nat} (hn : n < s.cfg.dmaChannels) (data : List Byte) (hs : s.dmaState n = 1)
    (hm : s.dmaMode n = 1) (ha : s.flag (F.DMA_CH_STAT.AT_END n) = true) (hc : s.dmaCount n = 0) (hb : s.dmaBad n 0 = none) :
    ∃ t, exec (.dmaLastWriteIssued n data) s = .next t ∧ t.out = s.out ∧ t.emem = s.emem ∧
      (s.flag (F.DMA_CH_CTL.FENCE n) = true → t.dmaState n = 4) ∧ (s.flag (F.DMA_CH_CTL.FENCE n) = false → t.DmaDone n 0) := by
  obtain ⟨hwait, hdone, -, hout, hemem⟩ := State.dmaComplete_fields hn
  have hx : execDmaLastWriteIssued n data s = .next (s.dmaComplete n) := by
    simp [execDmaLastWriteIssued, hs, hm, ha, hc, hb]
  exact ⟨_, hx, hout, hemem, hwait, hdone⟩

/-- The state that a drained channel reaches (R329). -/
def State.dmaDrained (s : State) (n k : Nat) (data : List Byte) : State :=
  if (s.dma n).target = 0 then (s.dmaMove n k data).setDmaState n 3 else (s.dmaMove n k data).dmaEnd n (s.dma n).target

theorem exec_dmaDrainDone {s : State} {n k : Nat} (data : List Byte) (hs : s.dmaState n = 2) (hk : k ≤ s.dmaCount n)
    (hg : k % s.dmaGroup n = 0) (hb : s.dmaBad n k = none) (hl : s.dmaMode n = 1 → (s.dma n).have_ = false → k = 0) :
    exec (.dmaDrainDone n k data) s = .next (s.dmaDrained n k data) := by
  have hc : ¬ (s.dmaState n ≠ 2 ∨ s.dmaCount n < k ∨ k % s.dmaGroup n ≠ 0 ∨ (s.dmaBad n k).isSome = true ∨
      (s.dmaMode n = 1 ∧ (s.dma n).have_ = false ∧ k ≠ 0)) := by
    simp only [hs, hg, hb, Option.isSome_none]
    rintro (h | h | h | h | ⟨h1, h2, h3⟩)
    · exact h rfl
    · omega
    · exact h rfl
    · exact Bool.false_ne_true h
    · exact h3 (hl h1 h2)
  show execDmaDrainDone n k data s = _
  unfold execDmaDrainDone State.dmaDrained
  rw [if_neg hc]
  dsimp only
  rw [s.target_dmaMove]

theorem State.dmaDrained_ports (s : State) (n k : Nat) (data : List Byte) :
    (s.dmaDrained n k data).out = (s.dmaMove n k data).out ∧ (s.dmaDrained n k data).emem = (s.dmaMove n k data).emem := by
  unfold State.dmaDrained
  split
  · have hk := State.setDmaState_keeps (Keeps.refl (ar := [.regs]) (s.dmaMove n k data)) n 3 (Allows.refl _)
    exact ⟨hk.1 .out (by decide), hk.1 .emem (by decide)⟩
  · exact State.dmaEnd_keeps_ports _ n _

/-- R329, R331: a drained channel has moved its bytes and pauses, or ends with its status. -/
theorem dmaTransfers_drain {s : State} {n : Nat} (hn : n < s.cfg.dmaChannels) (k : Nat) (data : List Byte) (hs : s.dmaState n = 2)
    (hk : k ≤ s.dmaCount n) (hg : k % s.dmaGroup n = 0) (hb : s.dmaBad n k = none) (ht : (s.dma n).target ≤ 6)
    (hl : s.dmaMode n = 1 → (s.dma n).have_ = false → k = 0) :
    ∃ t, exec (.dmaDrainDone n k data) s = .next t ∧ t.dmaCount n = s.dmaCount n - k ∧ t.out = (s.dmaMove n k data).out ∧
      ((s.dma n).target = 0 → t.dmaState n = 3) ∧ ((s.dma n).target ≠ 0 → t.DmaDone n (s.dma n).target) := by
  have hn' : n < (s.dmaMove n k data).cfg.dmaChannels := s.dmaMove_cfg n k data ▸ hn
  refine ⟨_, exec_dmaDrainDone data hs hk hg hb hl, ?_, (s.dmaDrained_ports n k data).1, fun h => ?_, fun h => ?_⟩
  · rw [← s.dmaMove_count n k data]
    unfold State.dmaDrained
    split
    · refine (State.setDmaState_onlyWords _ n 3).fget _ ?_
      simp [F.DMA_CH_COUNT.COUNT, O.DMA_CH_COUNT, O.DMA_CH_STAT, O.DMA_STAT]
      omega
    · exact State.dmaCount_dmaEnd hn' _
  · rw [State.dmaDrained, if_pos h]
    exact State.dmaState_setDmaState _ n (by decide)
  · rw [State.dmaDrained, if_neg h]
    exact (State.dmaEnd_fields hn' (by omega)).1

theorem dmaTransfers_fence {s : State} {n : Nat} (hn : n < s.cfg.dmaChannels) (hs : s.dmaState n = 4) :
    ∃ t, exec (.dmaFenceDone n) s = .next t ∧ t.DmaDone n 0 :=
  ⟨_, if_pos hs, (State.dmaEnd_fields hn (by decide)).1⟩

/-- R329, R336, R338: an access error drains the channel towards its status and names the address. -/
theorem dmaTransfers_error (s : State) (n cause addr : Nat) :
    ((cause = 3 ∨ cause = 5) → (s.dmaState n = 1 ∨ s.dmaState n = 2 ∨ (s.dmaState n = 4 ∧ cause = 3)) →
      ∃ t, exec (.dmaAccessError n cause addr) s = .next t ∧ t.dmaState n = 2 ∧ (t.dma n).target = cause ∧
        t.rd64 (O.DMA_CH_ERRADDR n) = addr % 2 ^ 44) ∧
    (∀ a, (cause = 2 ∨ cause = 4) → s.dmaBad n (s.dmaCount n) = some (cause, a) → (s.dmaState n = 1 ∨ s.dmaState n = 2) →
      ∃ t, exec (.dmaAccessError n cause addr) s = .next t ∧ t.dmaState n = 2 ∧ (t.dma n).target = cause ∧
        t.rd64 (O.DMA_CH_ERRADDR n) = a % 2 ^ 44) := by
  have hfail (a : Nat) (hx : execDmaAccessError n cause addr s = .next (s.dmaFail n cause a)) :
      ∃ t, exec (.dmaAccessError n cause addr) s = .next t ∧ t.dmaState n = 2 ∧ (t.dma n).target = cause ∧
        t.rd64 (O.DMA_CH_ERRADDR n) = a % 2 ^ 44 := by
    obtain ⟨h1, h2, h3, -⟩ := s.dmaFail_fields n cause a
    exact ⟨_, hx, h1, h2, h3⟩
  refine ⟨fun hc hs => hfail addr ?_, fun a hc hb hs => hfail a ?_⟩
  · rw [execDmaAccessError, if_pos hs, if_pos hc]
  · rw [execDmaAccessError, if_pos (hs.imp id .inl), if_neg (by omega), hb]
    exact if_pos rfl

/-! ### A linear run without the window (R323, R331) -/

section
variable {s : State} {n : Nat} (hw : s.flag F.DMA_WIN.EN = false)
include hw

theorem State.dmaWin_none : s.dmaWin = none := if_neg (by simp [hw])

theorem State.inWin_false (a : Nat) : s.inWin a = false := by
  unfold State.inWin
  rw [State.dmaWin_none hw]

theorem State.permBad_none (a len : Nat) (dst : Bool) : s.permBad n a len dst = none := by
  unfold State.permBad
  rw [State.dmaWin_none hw]

end

theorem State.dmaSegs_linear {s : State} {n : Nat} (hm : s.dmaMode n = 0) (ho : s.dmaOp n = 0) (k : Nat) (dst : Bool) :
    s.dmaSegs n k dst = [Seg.plain (s.rd64 (if dst then O.DMA_CH_DST n else O.DMA_CH_SRC n)) k] := by
  simp [State.dmaSegs, hm, ho]

section
variable {s : State} {n k : Nat} {data : List Byte} (hm : s.dmaMode n = 0) (ho : s.dmaOp n = 0)
  (hw : s.flag F.DMA_WIN.EN = false) (hlen : data.length = k)
include hm ho hw

theorem State.dmaBad_linear (hsrc : addrOk (s.rd64 (O.DMA_CH_SRC n)) k = true) (hdst : addrOk (s.rd64 (O.DMA_CH_DST n)) k = true) :
    s.dmaBad n k = none := by
  simp [State.dmaBad, State.dmaSegs_linear hm ho, State.segBad, Seg.plain, State.permBad_none hw, hsrc, hdst]

include hlen

theorem State.dmaCopy_linear : s.dmaCopy n k data =
    (s.hostRead (.chan n) (s.rd64 (O.DMA_CH_SRC n)) k).hostWrite (.chan n) (s.rd64 (O.DMA_CH_DST n)) data := by
  have hwin (a : Nat) : s.inWin a = false := State.inWin_false hw a
  have hwin' (a : Nat) : (s.hostRead (.chan n) (s.rd64 (O.DMA_CH_SRC n)) k).inWin a = false := hwin a
  have htake : data.take k = data := List.take_of_length_le (by omega)
  have hpad (x : Byte) : (data ++ List.replicate k x).take k = data := by simp [← hlen]
  simp [State.dmaCopy, State.dmaSegs_linear hm ho, State.readSegs, State.writeSegs, ho, Seg.plain, hwin, hwin', htake, hpad]

theorem State.dmaMove_linear (hk : k ≠ 0) :
    (s.dmaMove n k data).out = ((s.hostRead (.chan n) (s.rd64 (O.DMA_CH_SRC n)) k).hostWrite (.chan n)
      (s.rd64 (O.DMA_CH_DST n)) data).out ∧ (s.dmaMove n k data).emem = s.emem := by
  rw [State.dmaMove_eq, if_neg hk, State.dmaCopy_linear hm ho hw hlen]
  have hk := State.dmaAdvance_keeps (Keeps.refl (ar := [.regs, .dmas]) ((s.hostRead (.chan n) (s.rd64 (O.DMA_CH_SRC n)) k).hostWrite
    (.chan n) (s.rd64 (O.DMA_CH_DST n)) data)) n k (Allows.refl _)
  exact ⟨hk.1 .out (by decide), hk.1 .emem (by decide)⟩

end

/-- R323, R331: a linear run reads its source and writes its destination through the master port, whole or drained. -/
theorem dmaTransfers_linear {s : State} {n : Nat} (hn : n < s.cfg.dmaChannels) (k : Nat) (data : List Byte) (hm : s.dmaMode n = 0)
    (ho : s.dmaOp n = 0) (hw : s.flag F.DMA_WIN.EN = false) (hsrc : addrOk (s.rd64 (O.DMA_CH_SRC n)) k = true)
    (hdst : addrOk (s.rd64 (O.DMA_CH_DST n)) k = true) (hlen : data.length = k) (hk : k ≠ 0) :
    let out := ((s.hostRead (.chan n) (s.rd64 (O.DMA_CH_SRC n)) k).hostWrite (.chan n) (s.rd64 (O.DMA_CH_DST n)) data).out
    (s.dmaState n = 1 → k = s.dmaCount n → ∃ t, exec (.dmaLastWriteIssued n data) s = .next t ∧ t.out = out ∧ t.emem = s.emem) ∧
    (s.dmaState n = 2 → k ≤ s.dmaCount n → ∃ t, exec (.dmaDrainDone n k data) s = .next t ∧ t.out = out ∧ t.emem = s.emem) := by
  have hb : s.dmaBad n k = none := State.dmaBad_linear hm ho hw hsrc hdst
  obtain ⟨hout, hemem⟩ := State.dmaMove_linear hm ho hw hlen hk
  refine ⟨fun hs hc => ?_, fun hs hc => ?_⟩
  · obtain ⟨t, hx, ht, he, -⟩ := dmaTransfers_lastWrite hn data hs (by omega) (hc ▸ hb)
    rw [← hc] at ht he
    exact ⟨t, hx, ht.trans hout, he.trans hemem⟩
  · obtain ⟨ht, he⟩ := s.dmaDrained_ports n k data
    refine ⟨_, exec_dmaDrainDone data hs hc ?_ hb (fun h => absurd h (by omega)), ht.trans hout, he.trans hemem⟩
    rw [State.dmaGroup, if_pos ho, Nat.mod_one]

/-! ### List entries (R326, R332, R333) -/

theorem leNat_lt (bs : List Byte) : leNat bs < 256 ^ bs.length := by
  induction bs with
  | nil => simp [leNat]
  | cons b bs ih =>
    have := b.isLt
    simp only [leNat, List.length_cons, pow_succ]
    omega

theorem hostWord_lt (bs : List Byte) (k : Nat) : hostWord bs k < 2 ^ 32 :=
  (leNat_lt _).trans_le (Nat.pow_le_pow_right (n := 256) (by decide) (by simp [slice] : (slice bs (4 * k) 4).length ≤ 4))

/-- What a fetch of a list entry answers: PERM, the bytes of the window, or those of host memory (R326). -/
theorem State.listFetch_cases (s : State) (n a len : Nat) (data : List Byte) (err : Bool) :
    let r := s.listFetch n a len data err
    ((s.permBad n a len false).isSome = true → r.1 = 4) ∧
    ((s.permBad n a len false).isSome = false → s.inWin a = false →
      r.1 = (if err then 3 else 0) ∧ r.2.1 = data ∧ r.2.2.out = (s.hostRead (.chan n) a len).out) ∧
    ((s.permBad n a len false).isSome = false → s.inWin a = true →
      r.1 = (if err then 5 else 0) ∧ r.2.1 = s.ebytes (s.winPlace a).1 (s.winPlace a).2 len ∧ r.2.2.out = s.out) := by
  refine ⟨fun h => ?_, fun h hw => ?_, fun h hw => ?_⟩ <;> simp [State.listFetch, h]
  · simp [hw]
  · simp [hw]

theorem State.listFetch_status_lt (s : State) (n a len : Nat) (data : List Byte) (err : Bool) :
    (s.listFetch n a len data err).1 < 16 := by
  unfold State.listFetch
  dsimp only
  split_ifs <;> exact Nat.le_of_ble_eq_true rfl

section
variable (s : State) (n a len : Nat) (data : List Byte) (err : Bool)

theorem State.listFetch_keeps_out : Keeps [.out] s (s.listFetch n a len data err).2.2 :=
  State.listFetch_keeps (Keeps.refl s) n a len data err (Allows.refl _)

theorem State.listFetch_onlyWords (ks : List Nat) : OnlyWords s (s.listFetch n a len data err).2.2 ks :=
  (s.listFetch_keeps_out n a len data err).onlyWords (by decide) (by decide) ks

theorem State.fget_listFetch (g : Fld) : (s.listFetch n a len data err).2.2.fget g = s.fget g :=
  (s.listFetch_keeps_out n a len data err).fget (by decide) (by decide) g

theorem State.flag_listFetch (g : Fld) : (s.listFetch n a len data err).2.2.flag g = s.flag g :=
  (s.listFetch_onlyWords n a len data err []).flag g (by simp)

theorem State.dmaState_listFetch : (s.listFetch n a len data err).2.2.dmaState n = s.dmaState n := s.fget_listFetch n a len data err _

theorem State.dmaList_listFetch : (s.listFetch n a len data err).2.2.dmaList n = s.dmaList n :=
  (s.listFetch_onlyWords n a len data err []).rd64 (by simp) (by simp)

end

/-- Channel `n` holds an entry with data to move (R332). -/
def State.dmaLoad (s : State) (n addr len : Nat) (fin : Bool) : State :=
  (s.setDma n { s.dma n with have_ := true, last := fin, addr := addr }).fsets
    [(F.DMA_CH_COUNT.COUNT n, len), (F.DMA_CH_STAT.END_PEND n, b2n fin)]

theorem State.dmaLoad_fields (s : State) (n addr : Nat) {len : Nat} (hl : len < 2 ^ 32) (fin : Bool) :
    let t := s.dmaLoad n addr len fin
    t.dmaCount n = len ∧ (t.dma n).addr = addr ∧ (t.dma n).have_ = true ∧ (t.dma n).last = fin ∧
      t.flag (F.DMA_CH_STAT.END_PEND n) = fin ∧ t.dmaState n = s.dmaState n := by
  refine ⟨?_, by simp [State.dmaLoad], by simp [State.dmaLoad], by simp [State.dmaLoad], ?_, ?_⟩
  · simp [State.dmaLoad, State.dmaCount, State.fget_fset_ne, State.fget_fset_self, F.DMA_CH_COUNT.COUNT,
      F.DMA_CH_STAT.END_PEND, O.DMA_CH_COUNT, O.DMA_CH_STAT]
    omega
  · cases fin <;> simp [State.dmaLoad, State.flag_fset_self, F.DMA_CH_STAT.END_PEND, b2n]
  · simp [State.dmaLoad, State.dmaState, State.fget_fset_ne, F.DMA_CH_COUNT.COUNT, F.DMA_CH_STAT.END_PEND, F.DMA_CH_STAT.STATE,
      O.DMA_CH_COUNT, O.DMA_CH_STAT]

/-- LIST written in place of a LINK entry (R332). -/
theorem State.dmaState_setList (s : State) (n a : Nat) : (s.wr64 (O.DMA_CH_LIST n) a).dmaState n = s.dmaState n := by
  refine State.fget_wr64_ne _ _ _ ?_ ?_ <;> simp only [F.DMA_CH_STAT.STATE, O.DMA_CH_STAT, O.DMA_CH_LIST] <;> omega

/-- R326, R332, R333: a fetched entry loads the channel, links on or ends the run. -/
theorem State.dmaEntry_cases (s : State) (n : Nat) (entry : List Byte) (err : Bool) (hs : s.dmaState n = 1) :
    let at_ := s.dmaList n
    let r := s.listFetch n at_ 16 entry err
    let addr := hostWord2 r.2.1 0
    let len := hostWord r.2.1 2
    let fin := decide (hostWord r.2.1 3 / 2 ^ 31 % 2 = 1)
    let link := decide (hostWord r.2.1 3 / 2 ^ 30 % 2 = 1)
    let other := if s.flag (F.DMA_CH_CTL.LIST_SIDE n) then s.rd64 (O.DMA_CH_SRC n) else s.rd64 (O.DMA_CH_DST n)
    let badLink := 2 ^ 44 ≤ addr ∨ addr % 16 ≠ 0
    let badData := addrOk addr len = false ∨ 2 ^ 44 < other + len
    let t := s.dmaEntry n entry err
    t.out = r.2.2.out ∧
      (r.1 ≠ 0 → t.dmaState n = 2 ∧ (t.dma n).target = r.1 ∧ t.rd64 (O.DMA_CH_ERRADDR n) = at_ % 2 ^ 44) ∧
      (r.1 = 0 → fin = false → link = true → badLink → t.dmaState n = 2 ∧ (t.dma n).target = 2) ∧
      (r.1 = 0 → fin = false → link = true → ¬ badLink → t.rd64 (O.DMA_CH_LIST n) = addr ∧ t.dmaState n = 1) ∧
      (r.1 = 0 → (fin = true ∨ link = false) → badData → t.dmaState n = 2 ∧ (t.dma n).target = 2) ∧
      (r.1 = 0 → (fin = true ∨ link = false) → ¬ badData →
        t.dmaCount n = len ∧ (t.dma n).addr = addr ∧ (t.dma n).have_ = true ∧ (t.dma n).last = fin ∧
          t.flag (F.DMA_CH_STAT.END_PEND n) = fin ∧ t.dmaState n = 1) := by
  intro at_ r addr len fin link other badLink badData t
  have hother : s.rd64 (if s.flag (F.DMA_CH_CTL.LIST_SIDE n) then O.DMA_CH_SRC n else O.DMA_CH_DST n) = other :=
    apply_ite s.rd64 _ _ _
  have ht : t = if r.1 ≠ 0 then r.2.2.dmaFail n r.1 at_
      else if fin = false ∧ link = true then
        if badLink then r.2.2.dmaFail n 2 at_ else r.2.2.wr64 (O.DMA_CH_LIST n) addr
      else if badData then r.2.2.dmaFail n 2 at_
      else r.2.2.dmaLoad n addr len fin := by
    simp only [badData, ← hother]
    rfl
  have hst : r.2.2.dmaState n = 1 := (s.dmaState_listFetch n at_ 16 entry err).trans hs
  have hkind : (fin = true ∨ link = false) ↔ ¬ (fin = false ∧ link = true) := by
    cases fin <;> cases link <;> decide
  have hfail (e : Nat) := r.2.2.dmaFail_fields n e at_
  rw [hkind, ht]
  split_ifs with hr hl hb hb
  · obtain ⟨h1, h2, h3, -, -, h6⟩ := hfail r.1
    exact ⟨h6, fun _ => ⟨h1, h2, h3⟩, fun h => absurd h hr, fun h => absurd h hr, fun h => absurd h hr, fun h => absurd h hr⟩
  · obtain ⟨h1, h2, -, -, -, h6⟩ := hfail 2
    exact ⟨h6, fun h => absurd h hr, fun _ _ _ _ => ⟨h1, h2⟩, fun _ _ _ h => absurd hb h, fun _ h => absurd hl h,
      fun _ h => absurd hl h⟩
  · have haddr : addr < 2 ^ 44 := Nat.lt_of_not_le fun h => hb (.inl h)
    refine ⟨rfl, fun h => absurd h hr, fun _ _ _ h => absurd h hb, fun _ _ _ _ => ⟨?_, ?_⟩, fun _ h => absurd hl h,
      fun _ h => absurd hl h⟩
    · rw [State.rd64_wr64_self]
      omega
    · exact (State.dmaState_setList _ n addr).trans hst
  · obtain ⟨h1, h2, -, -, -, h6⟩ := hfail 2
    exact ⟨h6, fun h => absurd h hr, fun _ h1 h2 => absurd ⟨h1, h2⟩ hl, fun _ h1 h2 => absurd ⟨h1, h2⟩ hl,
      fun _ _ _ => ⟨h1, h2⟩, fun _ _ h => absurd hb h⟩
  · have hload := r.2.2.dmaLoad_fields n addr (hostWord_lt r.2.1 2) fin
    rw [hst] at hload
    exact ⟨rfl, fun h => absurd h hr, fun _ h1 h2 => absurd ⟨h1, h2⟩ hl, fun _ h1 h2 => absurd ⟨h1, h2⟩ hl,
      fun _ _ h => absurd h hb, fun _ _ _ => hload⟩

theorem exec_dmaListFetchReturn_first {s : State} {n : Nat} (entry : List Byte) (err : Bool) (data : List Byte)
    (hs : s.dmaState n = 1) (hm : s.dmaMode n = 1) (hh : (s.dma n).have_ = false) :
    exec (.dmaListFetchReturn n entry err data) s = .next (s.dmaEntry n entry err) := by
  show execDmaListFetchReturn n entry err data s = _
  simp [execDmaListFetchReturn, hs, hm, hh]

/-! ### Going on to the next entry (R333, R334) -/

/-- The register words that a failure of channel `n` or a step along its list writes. -/
def entryWords (n : Nat) : List Nat :=
  [O.DMA_CH_LIST n, O.DMA_CH_LIST n + 4, O.DMA_CH_ERRADDR n, O.DMA_CH_ERRADDR n + 4, O.DMA_CH_STAT n, O.DMA_STAT]

/-- The next entry lies behind the current one, below 2^44. -/
theorem State.dmaNextEntry_in {s : State} {n : Nat} (h : s.dmaList n + 16 < 2 ^ 44) :
    s.dmaNextEntry n = s.wr64 (O.DMA_CH_LIST n) (s.dmaList n + 16) := if_pos h

theorem State.dmaNextEntry_beyond {s : State} {n : Nat} (h : 2 ^ 44 ≤ s.dmaList n + 16) :
    s.dmaNextEntry n = s.dmaFail n 2 (s.dmaList n + 16) := if_neg (Nat.not_lt.2 h)

theorem State.dmaList_setList (s : State) (n : Nat) {a : Nat} (h : a < 2 ^ 44) : (s.wr64 (O.DMA_CH_LIST n) a).dmaList n = a := by
  rw [State.dmaList, State.rd64_wr64_self]
  omega

theorem State.flag_setList (s : State) (n a : Nat) {g : Fld} (hg : g.off = O.DMA_CH_STAT n) :
    (s.wr64 (O.DMA_CH_LIST n) a).flag g = s.flag g := by
  refine State.flag_wr64_ne _ _ _ ?_ ?_ <;> simp only [hg, O.DMA_CH_STAT, O.DMA_CH_LIST] <;> omega

/-- The entry before has been moved (R333). -/
def State.dmaStepped (s : State) (n : Nat) (data : List Byte) : State :=
  ((s.dmaMove n (s.dmaCount n) data).setDma n { (s.dmaMove n (s.dmaCount n) data).dma n with have_ := false }).dmaNextEntry n

theorem exec_dmaListFetchReturn_next {s : State} {n : Nat} (entry : List Byte) (err : Bool) (data : List Byte)
    (hs : s.dmaState n = 1) (hm : s.dmaMode n = 1) (hh : (s.dma n).have_ = true) (hl : (s.dma n).last = false)
    (hb : s.dmaBad n (s.dmaCount n) = none) :
    exec (.dmaListFetchReturn n entry err data) s =
      .next (if (s.dmaStepped n data).dmaState n = 1 then (s.dmaStepped n data).dmaEntry n entry err else s.dmaStepped n data) := by
  show execDmaListFetchReturn n entry err data s = _
  unfold execDmaListFetchReturn State.dmaStepped
  dsimp only
  rw [if_neg (by simp [hs, hm, hl, hb]), if_pos hh]

/-- R333: the entry held is moved, and the next one is fetched from host memory, with an error here; beyond 2^44 there is none
(02_boundary_and_access.md R56). -/
theorem dmaTransfers_nextEntry {s : State} {n : Nat} (entry data : List Byte) (hs : s.dmaState n = 1) (hm : s.dmaMode n = 1)
    (hh : (s.dma n).have_ = true) (hl : (s.dma n).last = false) (hb : s.dmaBad n (s.dmaCount n) = none)
    (hw : s.flag F.DMA_WIN.EN = false) :
    let m := s.dmaMove n (s.dmaCount n) data
    (s.dmaList n + 16 < 2 ^ 44 →
      ∃ t, exec (.dmaListFetchReturn n entry true data) s = .next t ∧ t.out = (m.hostRead (.chan n) (s.dmaList n + 16) 16).out ∧
        t.dmaState n = 2 ∧ (t.dma n).target = 3 ∧ t.rd64 (O.DMA_CH_ERRADDR n) = s.dmaList n + 16) ∧
    (2 ^ 44 ≤ s.dmaList n + 16 →
      ∃ t, exec (.dmaListFetchReturn n entry false data) s = .next t ∧ t.out = m.out ∧ t.dmaState n = 2 ∧ (t.dma n).target = 2) := by
  intro m
  let u := m.setDma n { m.dma n with have_ := false }
  have hlist : u.dmaList n = s.dmaList n := (State.dmaList_congr (ks := []) (fun k _ => m.rd_setDma n _ k) (by simp) (by simp)).trans
    (s.dmaList_dmaMove n _ data)
  have hstate : u.dmaState n = 1 := (m.fget_setDma n _ _).trans ((s.dmaState_dmaMove n _ data).trans hs)
  refine ⟨fun hin => ?_, fun hbeyond => ?_⟩
  · have hstep : s.dmaStepped n data = u.wr64 (O.DMA_CH_LIST n) (s.dmaList n + 16) := by
      rw [← hlist] at hin ⊢
      exact State.dmaNextEntry_in hin
    let v := u.wr64 (O.DMA_CH_LIST n) (s.dmaList n + 16)
    have hv1 : v.dmaState n = 1 := (State.dmaState_setList u n _).trans hstate
    have hvl : v.dmaList n = s.dmaList n + 16 := State.dmaList_setList u n hin
    have hvw : v.flag F.DMA_WIN.EN = false := by
      refine (State.flag_wr64_ne _ _ _ ?_ ?_).trans ((m.flag_setDma n _ _).trans
        (((s.dmaMove_onlyWords n _ data).flag _ ?_).trans hw))
      · simp only [F.DMA_WIN.EN, O.DMA_WIN, O.DMA_CH_LIST]
        omega
      · simp only [F.DMA_WIN.EN, O.DMA_WIN, O.DMA_CH_LIST]
        omega
      · simp [moveWords, F.DMA_WIN.EN, O.DMA_WIN, O.DMA_CH_COUNT, O.DMA_CH_SRC, O.DMA_CH_DST, O.DMA_CH_POS]
        omega
    obtain ⟨hr, -, hro⟩ := (v.listFetch_cases n (s.dmaList n + 16) 16 entry true).2.1
      (by rw [State.permBad_none hvw]; rfl) (State.inWin_false hvw _)
    obtain ⟨hout, hfail, -⟩ := v.dmaEntry_cases n entry true hv1
    rw [hvl] at hout hfail
    obtain ⟨h1, h2, h3⟩ := hfail (by rw [hr]; decide)
    refine ⟨v.dmaEntry n entry true, ?_, hout.trans hro, h1, h2.trans hr, h3.trans (Nat.mod_eq_of_lt hin)⟩
    rw [exec_dmaListFetchReturn_next entry true data hs hm hh hl hb, hstep, if_pos hv1]
  · have hstep : s.dmaStepped n data = u.dmaFail n 2 (s.dmaList n + 16) := by
      rw [← hlist] at hbeyond ⊢
      exact State.dmaNextEntry_beyond hbeyond
    obtain ⟨h1, h2, -, -, -, h6⟩ := u.dmaFail_fields n 2 (s.dmaList n + 16)
    refine ⟨_, ?_, h6, h1, h2⟩
    rw [exec_dmaListFetchReturn_next entry false data hs hm hh hl hb, hstep, if_neg (by omega)]

/-- The walk goes on with the entry itself, where it has become a LINK, or with the one behind it (R333, R334). -/
theorem State.dmaWalkOn_fields (s : State) (n : Nat) (w : Word) (hs : s.dmaState n = 1)
    (he : s.flag (F.DMA_CH_STAT.END_PEND n) = false) :
    (s.dmaWalkOn n w).dmaState n = (if bitOf w 30 = true ∨ s.dmaList n + 16 < 2 ^ 44 then 1 else 2) ∧
      (s.dmaWalkOn n w).flag (F.DMA_CH_STAT.END_PEND n) = false ∧
      (s.dmaWalkOn n w).flag (F.DMA_CH_STAT.AT_END n) = s.flag (F.DMA_CH_STAT.AT_END n) ∧ (s.dmaWalkOn n w).out = s.out := by
  let u := s.setDma n { s.dma n with have_ := false, last := false }
  have hu : s.dmaWalkOn n w = if bitOf w 30 then u else u.dmaNextEntry n := rfl
  have hlist : u.dmaList n = s.dmaList n := State.dmaList_congr (ks := []) (fun k _ => s.rd_setDma n _ k) (by simp) (by simp)
  have hstate : u.dmaState n = 1 := (s.fget_setDma n _ _).trans hs
  have hflag (g : Fld) : u.flag g = s.flag g := s.flag_setDma n _ g
  rw [hu]
  cases hw : bitOf w 30 with
  | true => exact ⟨by simpa using hstate, (hflag _).trans he, hflag _, rfl⟩
  | false =>
    simp only [Bool.false_eq_true, if_false, false_or]
    by_cases hin : s.dmaList n + 16 < 2 ^ 44
    · rw [State.dmaNextEntry_in (hlist ▸ hin), if_pos hin]
      exact ⟨(State.dmaState_setList u n _).trans hstate, (State.flag_setList u n _ rfl).trans ((hflag _).trans he),
        (State.flag_setList u n _ rfl).trans (hflag _), rfl⟩
    · obtain ⟨h1, -, -, h4, h5, h6⟩ := u.dmaFail_fields n 2 (u.dmaList n + 16)
      rw [State.dmaNextEntry_beyond (hlist ▸ Nat.not_lt.1 hin), if_neg hin]
      exact ⟨h1, h4, h5.trans (hflag _), h6⟩

/-! ### The END entry fetched once more (R333, R334) -/

/-- Writing STAT's own fields and STATE leaves the list register. -/
theorem State.dmaList_fset {n : Nat} {g : Fld} (hg : g.ChStat n) (s : State) (v : Nat) : (s.fset g v).dmaList n = s.dmaList n := by
  refine State.rd64_fset_ne _ _ _ ?_ ?_ <;> rw [hg.off] <;> simp only [O.DMA_CH_LIST, O.DMA_CH_STAT] <;> omega

theorem State.dmaList_setDma (s : State) (n : Nat) (v : Dma) : (s.setDma n v).dmaList n = s.dmaList n :=
  State.rd64_congr (s.rd_setDma n v _) (s.rd_setDma n v _)

theorem State.dmaList_setDmaState (s : State) (n v : Nat) : (s.setDmaState n v).dmaList n = s.dmaList n := by
  refine (s.setDmaState_onlyWords n v).rd64 ?_ ?_ <;> simp [O.DMA_CH_LIST, O.DMA_CH_STAT, O.DMA_STAT] <;> omega

/-- END_PEND is answered. -/
def State.dmaEndRead (s : State) (n : Nat) : State := s.fset (F.DMA_CH_STAT.END_PEND n) 0

theorem State.dmaEndRead_fields (s : State) (n : Nat) :
    (s.dmaEndRead n).dmaState n = s.dmaState n ∧ (s.dmaEndRead n).flag (F.DMA_CH_STAT.END_PEND n) = false ∧
      (s.dmaEndRead n).flag (F.DMA_CH_STAT.AT_END n) = s.flag (F.DMA_CH_STAT.AT_END n) ∧ (s.dmaEndRead n).dmaList n = s.dmaList n := by
  refine ⟨State.dmaState_fset (chStat_end n) s 0, ?_, ?_, State.dmaList_fset (chStat_end n) s 0⟩
  · exact State.flag_fset_self s _ 0 (Nat.le_of_ble_eq_true rfl)
  · exact State.flag_fset_ne s (F.DMA_CH_STAT.END_PEND n) (F.DMA_CH_STAT.AT_END n) 0 (.inr (.inr (Nat.le_of_ble_eq_true rfl)))

/-- The refetch of the END entry has failed: an IDLE channel ends once more, with the error's status. -/
def State.dmaEndFailed (s : State) (n at_ status : Nat) : State :=
  (((s.setDma n { s.dma n with moved := 0 }).wr64 (O.DMA_CH_ERRADDR n) at_).fset (F.DMA_CH_STAT.AT_END n) 0).dmaEnd n status

/-- An IDLE channel whose END entry has lost its END runs again (R334). -/
def State.dmaReopen (s : State) (n : Nat) : State :=
  ((s.fset (F.DMA_CH_STAT.AT_END n) 0).setDma n { s.dma n with moved := 0 }).setDmaState n 1

theorem State.flag_atEnd_cleared (s : State) (n : Nat) :
    (s.fset (F.DMA_CH_STAT.AT_END n) 0).flag (F.DMA_CH_STAT.AT_END n) = false :=
  State.flag_fset_self s _ 0 (Nat.le_of_ble_eq_true rfl)

theorem State.dmaEndFailed_fields {s : State} {n : Nat} (hn : n < s.cfg.dmaChannels) (at_ : Nat) {e : Nat} (he : e < 16) :
    (s.dmaEndFailed n at_ e).DmaDone n e ∧ (s.dmaEndFailed n at_ e).flag (F.DMA_CH_STAT.END_PEND n) = false ∧
      (s.dmaEndFailed n at_ e).flag (F.DMA_CH_STAT.AT_END n) = false := by
  let g := ((s.setDma n { s.dma n with moved := 0 }).wr64 (O.DMA_CH_ERRADDR n) at_).fset (F.DMA_CH_STAT.AT_END n) 0
  have hg : n < g.cfg.dmaChannels := by simpa [g] using hn
  obtain ⟨h1, h2, h3⟩ := State.dmaEnd_fields hg he
  exact ⟨h1, h2, h3.trans (State.flag_atEnd_cleared _ n)⟩

theorem State.dmaReopen_fields (s : State) (n : Nat) (he : s.flag (F.DMA_CH_STAT.END_PEND n) = false) :
    (s.dmaReopen n).dmaState n = 1 ∧ (s.dmaReopen n).flag (F.DMA_CH_STAT.END_PEND n) = false ∧
      (s.dmaReopen n).flag (F.DMA_CH_STAT.AT_END n) = false ∧ (s.dmaReopen n).dmaList n = s.dmaList n := by
  unfold State.dmaReopen
  refine ⟨State.dmaState_setDmaState _ n (by decide), ?_, ?_, ?_⟩
  · rw [State.flag_setDmaState_chStat (chStat_end n), State.flag_setDma, State.flag_fset_ne, he]
    exact .inr (.inl (Nat.le_of_ble_eq_true rfl))
  · rw [State.flag_setDmaState_chStat (chStat_atEnd n), State.flag_setDma, State.flag_atEnd_cleared]
  · rw [State.dmaList_setDmaState, State.dmaList_setDma, State.dmaList_fset (chStat_atEnd n)]

/-- What the fetched word of the END entry leaves of a channel that has ended: an error, END again, or the walk goes on. -/
def State.dmaEndIdle (s : State) (n : Nat) (word : Word) (err : Bool) : State :=
  let r := s.listFetch n (s.dmaList n + 12) 4 (natLe 4 word.toNat) err
  let w : Word := BitVec.ofNat 32 (leNat r.2.1)
  if r.1 ≠ 0 then (r.2.2.dmaEndRead n).dmaEndFailed n (s.dmaList n) r.1
  else if bitOf w 31 then r.2.2.dmaEndRead n
  else ((r.2.2.dmaEndRead n).dmaReopen n).dmaWalkOn n w

theorem exec_dmaEndFetchReturn_idle {s : State} {n : Nat} (word : Word) (err : Bool) (data : List Byte)
    (hp : s.flag (F.DMA_CH_STAT.END_PEND n) = true) (hs : s.dmaState n = 0) :
    exec (.dmaEndFetchReturn n word err data) s = .next (s.dmaEndIdle n word err) := by
  show execDmaEndFetchReturn n word err data s = _
  unfold execDmaEndFetchReturn State.dmaEndIdle
  rw [if_neg (by simp [hp])]
  dsimp only
  rw [if_pos hs]
  generalize s.listFetch n (s.dmaList n + 12) 4 (natLe 4 word.toNat) err = r
  split_ifs <;> rfl

/-- R333, R334: the END entry of a run that has ended is fetched once more. -/
theorem dmaTransfers_endIdle {s : State} {n : Nat} (hn : n < s.cfg.dmaChannels) (word : Word) (err : Bool) (data : List Byte)
    (hp : s.flag (F.DMA_CH_STAT.END_PEND n) = true) (hs : s.dmaState n = 0) :
    let r := s.listFetch n (s.dmaList n + 12) 4 (natLe 4 word.toNat) err
    let w : Word := BitVec.ofNat 32 (leNat r.2.1)
    ∃ t, exec (.dmaEndFetchReturn n word err data) s = .next t ∧ t.flag (F.DMA_CH_STAT.END_PEND n) = false ∧
      (r.1 ≠ 0 → t.DmaDone n r.1 ∧ t.flag (F.DMA_CH_STAT.AT_END n) = false) ∧
      (r.1 = 0 → bitOf w 31 = true → t.dmaState n = 0 ∧
        t.flag (F.DMA_CH_STAT.AT_END n) = s.flag (F.DMA_CH_STAT.AT_END n)) ∧
      (r.1 = 0 → bitOf w 31 = false → t.dmaState n = (if bitOf w 30 = true ∨ s.dmaList n + 16 < 2 ^ 44 then 1 else 2) ∧
        t.flag (F.DMA_CH_STAT.AT_END n) = false) := by
  intro r w
  have hlt : r.1 < 16 := s.listFetch_status_lt n _ 4 _ err
  have hcfg : r.2.2.cfg = s.cfg := (s.listFetch_keeps_out n (s.dmaList n + 12) 4 (natLe 4 word.toNat) err).1 .cfg (by decide)
  have hst : r.2.2.dmaState n = 0 := (s.dmaState_listFetch n (s.dmaList n + 12) 4 (natLe 4 word.toNat) err).trans hs
  have hat : r.2.2.flag (F.DMA_CH_STAT.AT_END n) = s.flag (F.DMA_CH_STAT.AT_END n) :=
    s.flag_listFetch n (s.dmaList n + 12) 4 (natLe 4 word.toNat) err _
  have hlist : r.2.2.dmaList n = s.dmaList n := s.dmaList_listFetch n (s.dmaList n + 12) 4 (natLe 4 word.toNat) err
  have ht : s.dmaEndIdle n word err = if r.1 ≠ 0 then (r.2.2.dmaEndRead n).dmaEndFailed n (s.dmaList n) r.1
    else if bitOf w 31 then r.2.2.dmaEndRead n else ((r.2.2.dmaEndRead n).dmaReopen n).dmaWalkOn n w := rfl
  obtain ⟨f1, f2, f3, f4⟩ := r.2.2.dmaEndRead_fields n
  refine ⟨_, exec_dmaEndFetchReturn_idle word err data hp hs, ?_⟩
  rw [ht]
  clear_value r
  by_cases hr : r.1 ≠ 0
  · rw [if_pos hr]
    obtain ⟨h1, h2, h3⟩ := State.dmaEndFailed_fields (s := r.2.2.dmaEndRead n) (n := n) (by simpa [State.dmaEndRead, hcfg] using hn)
      (s.dmaList n) hlt
    exact ⟨h2, fun _ => ⟨h1, h3⟩, fun h => absurd h hr, fun h => absurd h hr⟩
  · rw [if_neg hr]
    by_cases hw : bitOf w 31 = true
    · rw [if_pos hw]
      exact ⟨f2, fun h => absurd h hr, fun _ _ => ⟨f1.trans hst, f3.trans hat⟩, fun _ h => absurd hw (by simp [h])⟩
    · rw [if_neg hw]
      obtain ⟨g1, g2, g3, g4⟩ := (r.2.2.dmaEndRead n).dmaReopen_fields n f2
      obtain ⟨h1, h2, h3, -⟩ := ((r.2.2.dmaEndRead n).dmaReopen n).dmaWalkOn_fields n w g1 g2
      rw [g4, f4, hlist] at h1
      exact ⟨h2, fun h => absurd h hr, fun _ h => absurd h hw, fun _ _ => ⟨h1, h3.trans g3⟩⟩

/-- What the fetched word leaves of a running channel, the entry's data moved: an error, the end, or the walk goes on. -/
def State.dmaEndRun (s : State) (n : Nat) (word : Word) (err : Bool) (data : List Byte) : State :=
  let r := (s.dmaMove n (s.dmaCount n) data).listFetch n (s.dmaList n + 12) 4 (natLe 4 word.toNat) err
  let w : Word := BitVec.ofNat 32 (leNat r.2.1)
  if r.1 ≠ 0 then (r.2.2.dmaEndRead n).dmaFail n r.1 (s.dmaList n)
  else if bitOf w 31 then (r.2.2.dmaEndRead n).fset (F.DMA_CH_STAT.AT_END n) 1
  else (r.2.2.dmaEndRead n).dmaWalkOn n w

theorem exec_dmaEndFetchReturn_run {s : State} {n : Nat} (word : Word) (err : Bool) (data : List Byte)
    (hp : s.flag (F.DMA_CH_STAT.END_PEND n) = true) (hs : s.dmaState n = 1) (hb : s.dmaBad n (s.dmaCount n) = none) :
    exec (.dmaEndFetchReturn n word err data) s = .next (s.dmaEndRun n word err data) := by
  show execDmaEndFetchReturn n word err data s = _
  unfold execDmaEndFetchReturn State.dmaEndRun
  rw [if_neg (by simp [hp])]
  dsimp only
  rw [if_neg (by omega), if_neg (by simp [hs, hb])]
  generalize (s.dmaMove n (s.dmaCount n) data).listFetch n (s.dmaList n + 12) 4 (natLe 4 word.toNat) err = r
  split_ifs <;> rfl

/-- R333: the END entry of a running channel is fetched once more, after its data has been moved. -/
theorem dmaTransfers_endRun {s : State} {n : Nat} (word : Word) (err : Bool) (data : List Byte)
    (hp : s.flag (F.DMA_CH_STAT.END_PEND n) = true) (hs : s.dmaState n = 1) (hb : s.dmaBad n (s.dmaCount n) = none) :
    let r := (s.dmaMove n (s.dmaCount n) data).listFetch n (s.dmaList n + 12) 4 (natLe 4 word.toNat) err
    let w : Word := BitVec.ofNat 32 (leNat r.2.1)
    ∃ t, exec (.dmaEndFetchReturn n word err data) s = .next t ∧ t.flag (F.DMA_CH_STAT.END_PEND n) = false ∧
      t.out = r.2.2.out ∧
      (r.1 ≠ 0 → t.dmaState n = 2 ∧ (t.dma n).target = r.1) ∧
      (r.1 = 0 → bitOf w 31 = true → t.dmaState n = 1 ∧ t.flag (F.DMA_CH_STAT.AT_END n) = true) ∧
      (r.1 = 0 → bitOf w 31 = false → t.dmaState n = (if bitOf w 30 = true ∨ s.dmaList n + 16 < 2 ^ 44 then 1 else 2)) := by
  intro r w
  let m := s.dmaMove n (s.dmaCount n) data
  have hst : r.2.2.dmaState n = 1 := (m.dmaState_listFetch n (s.dmaList n + 12) 4 (natLe 4 word.toNat) err).trans
    ((s.dmaState_dmaMove n (s.dmaCount n) data).trans hs)
  have hlist : r.2.2.dmaList n = s.dmaList n := (m.dmaList_listFetch n (s.dmaList n + 12) 4 (natLe 4 word.toNat) err).trans
    (s.dmaList_dmaMove n (s.dmaCount n) data)
  have ht : s.dmaEndRun n word err data = if r.1 ≠ 0 then (r.2.2.dmaEndRead n).dmaFail n r.1 (s.dmaList n)
    else if bitOf w 31 then (r.2.2.dmaEndRead n).fset (F.DMA_CH_STAT.AT_END n) 1 else (r.2.2.dmaEndRead n).dmaWalkOn n w := rfl
  obtain ⟨f1, f2, f3, f4⟩ := r.2.2.dmaEndRead_fields n
  have fout : (r.2.2.dmaEndRead n).out = r.2.2.out := rfl
  refine ⟨_, exec_dmaEndFetchReturn_run word err data hp hs hb, ?_⟩
  rw [ht]
  clear_value r
  by_cases hr : r.1 ≠ 0
  · rw [if_pos hr]
    obtain ⟨h1, h2, -, h4, -, h6⟩ := (r.2.2.dmaEndRead n).dmaFail_fields n r.1 (s.dmaList n)
    exact ⟨h4, h6.trans fout, fun _ => ⟨h1, h2⟩, fun h => absurd h hr, fun h => absurd h hr⟩
  · rw [if_neg hr]
    by_cases hw : bitOf w 31 = true
    · rw [if_pos hw]
      refine ⟨?_, fout, fun h => absurd h hr, fun _ _ => ⟨?_, ?_⟩, fun _ h => absurd hw (by simp [h])⟩
      · exact (State.flag_fset_ne _ _ _ _ (.inr (.inl (Nat.le_of_ble_eq_true rfl)))).trans f2
      · exact (State.dmaState_fset (chStat_atEnd n) _ _).trans (f1.trans hst)
      · exact State.flag_fset_self _ _ 1 (Nat.le_of_ble_eq_true rfl)
    · rw [if_neg hw]
      obtain ⟨h1, h2, -, h4⟩ := (r.2.2.dmaEndRead n).dmaWalkOn_fields n w (f1.trans hst) f2
      rw [f4, hlist] at h1
      exact ⟨h2, h4.trans fout, fun h => absurd h hr, fun _ h => absurd h hw, fun _ _ => h1⟩

/-! ## Faults that are logged only (18_faults_and_selftest.md R416, R421) -/

theorem State.logFault_l_eq (s : State) (code index detail verdict : Nat) :
    s.logFault code index detail .l verdict = s.logged code index detail false verdict := by
  rw [State.logFault_eq, State.contains, if_neg (by simp)]

theorem State.rd_cnt_ne (s : State) {k j : Nat} (h : j ≠ k) (h' : j ≠ k + 4) : (s.cnt k).rd j = s.rd j := s.rd_wr64_ne _ h h'

theorem State.rd_writeLog_below (s : State) (n code index detail verdict : Nat) (c : Bool) {k : Nat} (hk : k < O.FLT_STAT) :
    (s.writeLog n code index detail verdict c).rd k = s.rd k := by
  have hlog (w : Nat) : k ≠ logWord n w := by
    simp only [logWord, O.FLT_LOG, O.FLT_STAT] at *
    omega
  have hstat : k ≠ O.FLT_STAT := Nat.ne_of_lt hk
  simp [State.writeLog, State.rd_fset_ne, State.rd_wr_ne, F.FLT_STAT.NEXT, F.FLT_STAT.ACTIVE, hlog, hstat]

/-- A logged fault writes the fault log, its counter and pending words, no register below them. -/
theorem State.rd_logged_below (s : State) (code index detail verdict : Nat) {k : Nat} (hk : k < O.IRQ_PEND 0) :
    (s.logged code index detail false verdict).rd k = s.rd k := by
  have hstat : k < O.FLT_STAT := hk.trans (by decide)
  have hbase : ((s.cnt O.FLT_CNT).raise 6).rd k = s.rd k := by
    rw [State.rd_raise _ _ (.inl hk) (by decide), State.rd_cnt_ne _ (Nat.ne_of_lt (hstat.trans (by decide)))
      (Nat.ne_of_lt (hstat.trans (by decide)))]
  unfold State.logged
  dsimp only
  split
  · exact (State.rd_writeLog_below _ _ _ _ _ _ _ hstat).trans hbase
  · rw [if_neg (by decide)]
    exact (State.rd_fset_ne _ _ _ (Nat.ne_of_lt hstat)).trans hbase

/-! ### Late write errors and records (R59; R330, R339) -/

/-- A late write error shows in the channel's own registers before it is logged (R330). -/
def State.dmaLateShown (s : State) (n addr : Nat) : State :=
  (s.setFlag (F.DMA_CH_STAT.LATE_ERR n) (srcDma s.cfg n + 1)).wr64 (O.DMA_CH_ERRADDR n) (addr % 2 ^ 44)

theorem State.dmaLate_eq (s : State) (n addr : Nat) :
    s.dmaLate n addr = (s.dmaLateShown n addr).logged 0x03 n (addr % 2 ^ 32) false 0 := State.logFault_l_eq _ _ _ _ _

theorem State.dmaLate_l_keeps (s : State) (n addr : Nat) : Keeps [.regs, .flt] s (s.dmaLate n addr) :=
  State.logFault_l_keeps (State.wr64_keeps (State.setFlag_keeps (Keeps.refl s) _ _ (Allows.mono (by decide) (Allows.refl _))) _ _
    (Allows.mono (by decide) (Allows.refl _))) _ _ _ _ (Allows.refl _)

/-- Below the pending words a late write error changes LATE_ERR and ERRADDR alone. -/
theorem State.fget_dmaLate {s : State} {n : Nat} (hn : n < s.cfg.dmaChannels) (addr : Nat) {g : Fld} (hp : g.off < O.IRQ_PEND 0)
    (h1 : g.off ≠ O.DMA_CH_ERRADDR n) (h2 : g.off ≠ O.DMA_CH_ERRADDR n + 4) :
    (s.dmaLate n addr).fget g = (s.fset (F.DMA_CH_STAT.LATE_ERR n) 1).fget g := by
  rw [State.dmaLate_eq]
  unfold State.fget
  rw [State.rd_logged_below _ _ _ _ _ hp]
  unfold State.dmaLateShown State.setFlag
  rw [State.rd_wr64_ne _ _ h1 h2, State.rd_raise _ _ (.inl hp) (srcDma_lt hn)]

/-- R330: a late write error sets LATE_ERR and names its address. -/
theorem State.dmaLate_fields {s : State} {n : Nat} (hn : n < s.cfg.dmaChannels) (addr : Nat) :
    (s.dmaLate n addr).flag (F.DMA_CH_STAT.LATE_ERR n) = true ∧ (s.dmaLate n addr).rd64 (O.DMA_CH_ERRADDR n) = addr % 2 ^ 44 := by
  have h32 := dmaChannels_le s.cfg
  refine ⟨?_, ?_⟩
  · unfold State.flag
    rw [State.fget_dmaLate hn addr (chStat_lt_pend hn), State.fget_fset_self _ _ _ (Nat.le_of_ble_eq_true rfl)]
    · rfl
    all_goals
      simp only [F.DMA_CH_STAT.LATE_ERR, O.DMA_CH_STAT, O.DMA_CH_ERRADDR]
      omega
  · have hp : O.DMA_CH_ERRADDR n + 4 < O.IRQ_PEND 0 := by
      simp only [O.DMA_CH_ERRADDR, O.IRQ_PEND]
      omega
    rw [State.dmaLate_eq, State.rd64_congr (State.rd_logged_below _ _ _ _ _ (Nat.lt_of_le_of_lt (Nat.le_add_right _ 4) hp))
      (State.rd_logged_below _ _ _ _ _ hp), State.dmaLateShown, State.rd64_wr64_self]
    omega

theorem dmaTransfers_late {s : State} {n : Nat} (hn : n < s.cfg.dmaChannels) (addr : Nat) :
    ∃ t, exec (.dmaLateWriteError n addr) s = .next t ∧ t.flag (F.DMA_CH_STAT.LATE_ERR n) = true ∧
      t.rd64 (O.DMA_CH_ERRADDR n) = addr % 2 ^ 44 ∧ t.dmas = s.dmas := by
  obtain ⟨h1, h2⟩ := State.dmaLate_fields hn addr
  exact ⟨_, if_pos hn, h1, h2, (s.dmaLate_l_keeps n addr).1 .dmas (by decide)⟩

/-- The record of channel `n` has been written at `at_` (R339). -/
def State.dmaRecorded (s : State) (n at_ : Nat) (bytes : List Byte) : State :=
  ((((s.emit (.write (.chan n) at_ bytes)).fset F.DMA_CQ_IDX.TAIL (s.fget F.DMA_CQ_IDX.TAIL + 1)).setDma n
    { s.dma n with rec_ := none, seq := (s.dma n).seq + 1 }).fset (F.DMA_CH_STAT.CPL_WAIT n) 0).raise (srcSpine s.cfg + 1)

theorem State.dmaRecorded_fields {s : State} {n : Nat} (hn : n < s.cfg.dmaChannels) (at_ : Nat) (bytes : List Byte) :
    let t := s.dmaRecorded n at_ bytes
    t.cfg = s.cfg ∧ t.fget F.DMA_CQ_IDX.TAIL = (s.fget F.DMA_CQ_IDX.TAIL + 1) % 65536 ∧ (t.dma n).rec_ = none ∧
      t.fget (F.DMA_CH_STAT.CPL_WAIT n) = 0 ∧ t.out = s.out ++ [.write (.chan n) at_ bytes] := by
  have hs : srcSpine s.cfg + 1 < 1024 := by cases s.cfg <;> decide
  have hw : (F.DMA_CH_STAT.CPL_WAIT n).off ≠ O.DMA_CQ_IDX := by
    simp only [F.DMA_CH_STAT.CPL_WAIT, O.DMA_CH_STAT, O.DMA_CQ_IDX]
    omega
  unfold State.dmaRecorded
  refine ⟨by simp, ?_, by simp, ?_, by simp⟩
  · rw [State.fget_raise _ _ _ (.inl (by decide)) hs, State.fget_fset_ne _ _ _ _ (.inl hw.symm), State.fget_setDma,
      State.fget_fset_self _ _ _ (by decide)]
    rfl
  · rw [State.fget_raise _ _ _ (.inl (chStat_lt_pend hn)) hs, State.fget_fset_self _ _ _ (Nat.le_of_ble_eq_true rfl)]
    rfl

/-- R59, R322, R339: the record that waits is written to the completion queue while it has room; an error on the write is a late write
error. -/
theorem dmaTransfers_record {s : State} {n : Nat} (hn : n < s.cfg.dmaChannels) (r : DmaRec) (err : Bool)
    (hr : (s.dma n).rec_ = some r) (he : s.flag F.DMA_CQ_CFG.EN = true) (h1 : 1 ≤ s.mode) (h5 : s.mode ≤ 5) :
    let w := s.fget F.DMA_CQ_IDX.TAIL
    let l := s.fget F.DMA_CQ_CFG.L
    let a := s.rd64 O.DMA_CQ_BASE + 16 * (w % 2 ^ l)
    (w + 65536 - s.fget F.DMA_CQ_IDX.HEAD) % 65536 < 2 ^ l →
    ∃ t, exec (.dmaRecordWrite n err) s = .next t ∧ t.fget F.DMA_CQ_IDX.TAIL = (w + 1) % 65536 ∧ (t.dma n).rec_ = none ∧
      t.flag (F.DMA_CH_STAT.CPL_WAIT n) = false ∧
      t.out = s.out ++ [.write (.chan n) a
        (words4 ((if w / 2 ^ l % 2 = 0 then 2 ^ 31 else 0) + r.status * 2 ^ 24 + (s.dma n).seq % 256 * 2 ^ 16 + n) r.bytes r.list r.ns)] ∧
      (err = true → t.flag (F.DMA_CH_STAT.LATE_ERR n) = true ∧ t.rd64 (O.DMA_CH_ERRADDR n) = a % 2 ^ 44) := by
  intro w l a hroom
  let bytes := words4 ((if w / 2 ^ l % 2 = 0 then 2 ^ 31 else 0) + r.status * 2 ^ 24 + (s.dma n).seq % 256 * 2 ^ 16 + n) r.bytes r.list r.ns
  have hx : execDmaRecordWrite n s err = .next (if err then (s.dmaRecorded n a bytes).dmaLate n a else s.dmaRecorded n a bytes) := by
    unfold execDmaRecordWrite
    rw [hr]
    exact if_pos ⟨he, hroom, h1, h5⟩
  obtain ⟨hcfg, htail, hrec, hwait, hout⟩ := State.dmaRecorded_fields hn a bytes
  cases err with
  | false =>
    refine ⟨_, hx, htail, hrec, ?_, hout, fun h => absurd h (by decide)⟩
    unfold State.flag
    rw [if_neg (by decide), hwait]
    rfl
  | true =>
    have hn' : n < (s.dmaRecorded n a bytes).cfg.dmaChannels := hcfg ▸ hn
    have hk := (s.dmaRecorded n a bytes).dmaLate_l_keeps n a
    refine ⟨_, hx, ?_, ?_, ?_, (hk.1 .out (by decide)).trans hout, fun _ => State.dmaLate_fields hn' a⟩
    · rw [if_pos rfl, State.fget_dmaLate hn' a (by decide), State.fget_fset_ne, htail]
      · exact .inl (Ne.symm (by simp [F.DMA_CQ_IDX.TAIL, F.DMA_CH_STAT.LATE_ERR, O.DMA_CH_STAT, O.DMA_CQ_IDX]; omega))
      all_goals
        simp only [F.DMA_CQ_IDX.TAIL, O.DMA_CQ_IDX, O.DMA_CH_ERRADDR]
        omega
    · rw [if_pos rfl, hk.dma (by decide), hrec]
    · unfold State.flag
      rw [if_pos rfl, State.fget_dmaLate hn' a (chStat_lt_pend hn), State.fget_fset_ne _ _ _ _ (.inr (.inr (Nat.le_of_ble_eq_true rfl))),
        hwait]
      · rfl
      all_goals
        simp only [F.DMA_CH_STAT.CPL_WAIT, O.DMA_CH_STAT, O.DMA_CH_ERRADDR]
        omega

/-! ### The completion queue's head (R339) -/

theorem dmaTransfers_head (s : State) (key : Nat) (data : Word) (hr : s.Reaches O.DMA_CQ_IDX key) :
    let h := s.fget F.DMA_CQ_IDX.HEAD
    let x := getBits data 0 16
    let past := decide ((s.fget F.DMA_CQ_IDX.TAIL + 65536 - h) % 65536 < (x + 65536 - h) % 65536)
    ∃ t, exec (.dmaCqHeadWrite 0 data) s = .next t ∧ t.fget F.DMA_CQ_IDX.HEAD = (if past then h else x) ∧
      t.fget F.DMA_CQ_IDX.TAIL = s.fget F.DMA_CQ_IDX.TAIL ∧ (past = true → t.flag F.DMA_CQ_CFG.HEAD_ERR = true) := by
  intro h x past
  have hlt : x < 2 ^ 16 := Nat.mod_lt _ (by decide)
  refine hr.next (p := fun t => t.fget F.DMA_CQ_IDX.HEAD = (if past then h else x) ∧
      t.fget F.DMA_CQ_IDX.TAIL = s.fget F.DMA_CQ_IDX.TAIL ∧ (past = true → t.flag F.DMA_CQ_CFG.HEAD_ERR = true)) ?_
  have hpast : past = decide ((s.fget F.DMA_CQ_IDX.TAIL + 65536 - h) % 65536 < (x + 65536 - h) % 65536) := rfl
  unfold State.dmaHeadWrite
  simp only [State.fget_answer]
  cases hp : past with
  | true =>
    rw [if_pos (of_decide_eq_true (hpast.symm.trans hp))]
    have hne (g : Fld) (hg : g.off = O.DMA_CQ_IDX) : ((s.answer false 0).fset F.DMA_CQ_CFG.HEAD_ERR 1).fget g = s.fget g :=
      State.fget_fset_ne _ _ _ _ (.inl (by rw [hg]; decide))
    exact ⟨hne _ rfl, hne _ rfl, fun _ => State.flag_fset_self _ _ _ (by decide)⟩
  | false =>
    rw [if_neg (of_decide_eq_false (hpast.symm.trans hp))]
    refine ⟨?_, ?_, fun h => absurd h (by decide)⟩
    · rw [State.fget_fset_self _ _ _ (by decide)]
      exact Nat.mod_eq_of_lt hlt
    · rw [State.fget_fset_ne _ _ _ _ (.inr (.inl (by decide))), State.fget_answer]

/-- Settles O54, clause by clause: what each of a run's own commands leaves of its channel and drives at the master port. -/
theorem dmaTransfers : Obligations.DmaTransfers := by
  refine ⟨fun s n hn => ⟨fun data => dmaTransfers_lastWrite hn data, fun data => dmaTransfers_listEnd hn data,
    fun k data hm ho hw hs hd hs' hd' hlen hk => dmaTransfers_linear hn k data hm ho hw (decide_eq_true ⟨hs', hs⟩)
      (decide_eq_true ⟨hd', hd⟩) hlen hk,
    fun k data hs hk hg hb ht hl => dmaTransfers_drain hn k data hs hk hg hb ht hl, fun hs => dmaTransfers_fence hn hs,
    fun cause addr => dmaTransfers_error s n cause addr, fun entry err data hs hm hh => ?_,
    fun entry data hs hm hh hl hb hw => dmaTransfers_nextEntry entry data hs hm hh hl hb hw,
    fun word err data hp => ⟨fun hs => dmaTransfers_endIdle hn word err data hp hs,
      fun hs hb => dmaTransfers_endRun word err data hp hs hb⟩,
    fun addr => dmaTransfers_late hn addr, fun r err hr he h1 h5 => dmaTransfers_record hn r err hr he h1 h5⟩, dmaTransfers_head⟩
  obtain ⟨h1, h2, h3⟩ := s.listFetch_cases n (s.dmaList n) 16 entry err
  exact ⟨h1, h2, h3, _, exec_dmaListFetchReturn_first entry err data hs hm hh, s.dmaEntry_cases n entry err hs⟩

end Sys2Proof.Machine

namespace Sys2Proof.Machine

/-! ### What an access of the slave port answers -/

/-- A command that is one access of a register is the slave port's access. -/
theorem exec_portAccess {s : State} {i : Instr} {fn off : Nat} (h : portAccess s.cfg i = some (fn, off)) :
    ∃ f, exec i s = .next (s.access fn off f) := by
  cases i
  case gateListWrite fn p ctl g idx hi data => cases ctl <;> cases h <;> exact ⟨_, rfl⟩
  all_goals cases h
  all_goals exact ⟨_, rfl⟩

/-- An access of function 0 where no register lies gets the error response (02_boundary_and_access.md R43). -/
theorem State.access_none {s : State} {off : Nat} (h : keyOf s.cfg off = none) (f : Nat → State → State) :
    s.access 0 off f = s.deny := by
  simp [State.access, h]

/-- An access of function 0 to a register whose island does not answer gets the error response (R43). -/
theorem State.access_down {s : State} {off key : Nat} (h : keyOf s.cfg off = some key) (hu : s.islandUp key = false)
    (f : Nat → State → State) : s.access 0 off f = s.deny := by
  simp [State.access, h, hu]

/-- An access to a register, refused for another function and answered with an error where none answers
(02_boundary_and_access.md R43, R44). -/
theorem slavePort_access {s : State} {i : Instr} {fn off : Nat} (h : portAccess s.cfg i = some (fn, off)) :
    (fn ≠ 0 → exec i s = .next (if s.domOn 1 = true ∧ s.rst.blk = false then s.logRefusal fn off else s).deny) ∧
    (fn = 0 → keyOf s.cfg off = none → exec i s = .next s.deny) ∧
    (∀ key, fn = 0 → keyOf s.cfg off = some key → s.islandUp key = false → exec i s = .next s.deny) := by
  obtain ⟨f, he⟩ := exec_portAccess h
  refine ⟨fun hf => ?_, fun hf hk => ?_, fun key hf hk hu => ?_⟩
  · rw [he, State.access_denied hf, State.logDenied]
  · rw [he, hf, State.access_none hk]
  · rw [he, hf, State.access_down hk hu]

/-! ### What a refused access logs -/

/-- The entry that a refusal at `off` makes in the fault log, as a step from the state with the refusal noted. -/
theorem State.logRefusal_new {s : State} {fn off : Nat}
    (h : ∀ tk, s.flt.refusal = some (fn, off, tk) → tk + 500000 ≤ s.ticks) :
    s.logRefusal fn off = (s.setFlt { s.flt with refusal := some (fn, off, s.ticks) }).logFault 0x01 fn off .l := by
  unfold State.logRefusal
  split
  · next f o t ho =>
    split
    · next hc =>
      obtain ⟨rfl, rfl, ht⟩ := hc
      have := h t ho
      omega
    · rfl
  · rfl

/-- Outside the entry and FLT_STAT a log entry changes no word (18_faults_and_selftest.md R421). -/
theorem State.rd_writeLog_ne (s : State) (n code index detail verdict : Nat) (c : Bool) {k : Nat} (hs : k ≠ O.FLT_STAT)
    (hl : ∀ w, k ≠ logWord n w) : (s.writeLog n code index detail verdict c).rd k = s.rd k := by
  simp [State.writeLog, State.rd_fset_ne, State.rd_wr_ne, F.FLT_STAT.NEXT, F.FLT_STAT.ACTIVE, hl, hs]

/-- A logged fault leaves a register between the pending words and the log, other than FLT_STAT, as its count leaves it. -/
theorem State.rd_logged_between (s : State) (code index detail verdict : Nat) {k : Nat} (hp : O.IRQ_PEND 32 ≤ k)
    (hs : k ≠ O.FLT_STAT) (hl : k < O.FLT_LOG 0) :
    (s.logged code index detail false verdict).rd k = (s.cnt O.FLT_CNT).rd k := by
  have hbase : ((s.cnt O.FLT_CNT).raise 6).rd k = (s.cnt O.FLT_CNT).rd k := State.rd_raise _ _ (.inr hp) (by decide)
  have hlog (n w : Nat) : k ≠ logWord n w := by
    simp only [logWord, O.FLT_LOG] at *
    omega
  unfold State.logged
  dsimp only
  split
  · exact (State.rd_writeLog_ne _ _ _ _ _ _ _ hs (hlog _)).trans hbase
  · rw [if_neg (by decide)]
    exact (State.rd_fset_ne _ _ _ hs).trans hbase

theorem State.logSlot_lt {s : State} {n : Nat} (h : s.logSlot = some n) : n < 32 := by
  obtain ⟨i, -, rfl⟩ := List.mem_map.mp (List.mem_of_find?_eq_some h)
  exact Nat.mod_lt _ (by decide)

theorem State.logActive_congr {s t : State} {n : Nat} (h : t.rd (logWord n 0) = s.rd (logWord n 0)) :
    t.logActive n = s.logActive n := by
  rw [State.logActive, State.logActive, h]

/-- The entry that a fault takes depends on NEXT and the entries' first words alone. -/
theorem State.logSlot_congr {s t : State} (hn : t.rd O.FLT_STAT = s.rd O.FLT_STAT)
    (h : ∀ n, t.rd (logWord n 0) = s.rd (logWord n 0)) : t.logSlot = s.logSlot := by
  have ha : t.logActive = s.logActive := funext fun n => State.logActive_congr (h n)
  have hf : t.fget F.FLT_STAT.NEXT = s.fget F.FLT_STAT.NEXT := congrArg (getBits · 0 5) hn
  rw [State.logSlot, State.logSlot, ha, hf]

/-- Counting the fault and raising its source leave the log as it is. -/
theorem State.rd_cnt_raise (s : State) {k : Nat} (h : k = O.FLT_STAT ∨ O.FLT_LOG 0 ≤ k) :
    ((s.cnt O.FLT_CNT).raise 6).rd k = s.rd k := by
  have hk : k ≠ O.FLT_CNT ∧ k ≠ O.FLT_CNT + 4 ∧ O.IRQ_PEND 32 ≤ k := by
    simp only [O.FLT_STAT, O.FLT_LOG, O.FLT_CNT, O.IRQ_PEND] at *
    omega
  rw [State.rd_raise _ _ (.inr hk.2.2) (by decide), State.rd_cnt_ne _ hk.1 hk.2.1]

theorem State.logSlot_cnt_raise (s : State) : ((s.cnt O.FLT_CNT).raise 6).logSlot = s.logSlot :=
  State.logSlot_congr (s.rd_cnt_raise (.inl rfl)) fun n => s.rd_cnt_raise (.inr (by simp only [logWord, O.FLT_LOG]; omega))

/-- The first two words of a log entry (R421). -/
theorem State.rd_writeLog_entry (s : State) (n code index detail verdict : Nat) :
    (s.writeLog n code index detail verdict false).rd (logWord n 0) =
      BitVec.ofNat 32 (2 ^ 31 + 2 ^ 27 * verdict + 2 ^ 16 * code + index % 4096) ∧
    (s.writeLog n code index detail verdict false).rd (logWord n 1) = BitVec.ofNat 32 detail := by
  have hw {i j : Nat} (h : i ≠ j) : logWord n i ≠ logWord n j := by
    simp only [logWord]
    omega
  have hs (i : Nat) : logWord n i ≠ O.FLT_STAT := by
    simp only [logWord, O.FLT_LOG, O.FLT_STAT]
    omega
  constructor <;>
    simp [State.writeLog, State.rd_fset_ne, State.rd_wr_ne, F.FLT_STAT.NEXT, F.FLT_STAT.ACTIVE, hw, hs, b2n]

theorem State.writeLog_refusal (s : State) (n code index detail verdict : Nat) (c : Bool) :
    (s.writeLog n code index detail verdict c).flt.refusal = s.flt.refusal := by
  simp [State.writeLog, State.fset, State.wr]

/-- A logged fault with a free entry fills it (R421). -/
theorem State.logged_of_logSlot {s : State} {n : Nat} (hn : s.logSlot = some n) (code index detail verdict : Nat) :
    s.logged code index detail false verdict = ((s.cnt O.FLT_CNT).raise 6).writeLog n code index detail verdict false := by
  unfold State.logged
  dsimp only
  rw [State.logSlot_cnt_raise, hn]

/-- A logged fault leaves the noted refusal. -/
theorem State.logged_refusal (s : State) (code index detail verdict : Nat) :
    (s.logged code index detail false verdict).flt.refusal = s.flt.refusal := by
  have h : ((s.cnt O.FLT_CNT).raise 6).flt = s.flt :=
    (State.raise_keeps (State.cnt_keeps (Keeps.refl (ar := [.regs]) s) _ (Allows.refl _)) _ (Allows.refl _)).1 .flt (by decide)
  cases hn : s.logSlot with
  | some n => rw [State.logged_of_logSlot hn, State.writeLog_refusal, h]
  | none =>
    unfold State.logged
    dsimp only
    rw [State.logSlot_cnt_raise, hn, ← h]
    simp [State.fsat, State.fset, State.wr]

theorem State.rd64_cnt (s : State) (k : Nat) : (s.cnt k).rd64 k = (s.rd64 k + 1) % 2 ^ 64 := by
  rw [State.cnt, State.cntAdd, State.rd64_wr64_self, Nat.mod_mod]

/-- A refusal is counted; unless the same one came less than 1 ms before, it is logged as well
(02_boundary_and_access.md R44; 18_faults_and_selftest.md R421). -/
theorem State.logRefusal_cases (s : State) (fn off : Nat) :
    s.logRefusal fn off = s.cnt O.FLT_CNT ∨
    s.logRefusal fn off =
      (s.setFlt { s.flt with refusal := some (fn, off, s.ticks) }).logged 0x01 fn off false 0 := by
  rw [← State.logFault_l_eq]
  unfold State.logRefusal
  split
  · split
    · exact .inl rfl
    · exact .inr rfl
  · exact .inr rfl

theorem State.logged_rd64_FLT_CNT (s : State) (code index detail verdict : Nat) :
    (s.logged code index detail false verdict).rd64 O.FLT_CNT = (s.rd64 O.FLT_CNT + 1) % 2 ^ 64 := by
  rw [← State.rd64_cnt]
  exact State.rd64_congr (State.rd_logged_between _ _ _ _ _ (by decide) (by decide) (by decide))
    (State.rd_logged_between _ _ _ _ _ (by decide) (by decide) (by decide))

theorem State.logRefusal_rd64_FLT_CNT (s : State) (fn off : Nat) :
    (s.logRefusal fn off).rd64 O.FLT_CNT = (s.rd64 O.FLT_CNT + 1) % 2 ^ 64 := by
  obtain h | h := s.logRefusal_cases fn off
  · rw [h, State.rd64_cnt]
  · rw [h, State.logged_rd64_FLT_CNT]
    rfl

/-- What a refused access changes and logs (02_boundary_and_access.md R44; 18_faults_and_selftest.md R416, R421). -/
theorem slavePort_refusal (s : State) (fn off : Nat) :
    let t := (s.logRefusal fn off).deny
    t.slv = some ⟨true, 0⟩ ∧ SameBut refusedAreas s t ∧ t.rd64 O.FLT_CNT = (s.rd64 O.FLT_CNT + 1) % 2 ^ 64 ∧
    ((∀ tk, s.flt.refusal = some (fn, off, tk) → tk + 500000 ≤ s.ticks) →
      t.flt.refusal = some (fn, off, s.ticks) ∧
      ∀ n, s.logSlot = some n → getBits (t.rd (logWord n 0)) 16 8 = 1 ∧ getBits (t.rd (logWord n 0)) 0 12 = fn % 4096 ∧
        t.rd (logWord n 1) = BitVec.ofNat 32 off ∧ bitOf (t.rd (logWord n 0)) 31 = true) := by
  intro t
  refine ⟨rfl, ?_, (State.rd64_congr (State.rd_deny _ _) (State.rd_deny _ _)).trans (s.logRefusal_rd64_FLT_CNT fn off),
    fun hnew => ?_⟩
  · exact (State.deny_keeps (State.logRefusal_l_keeps (Keeps.refl (ar := refusedAreas) s) fn off
      (Allows.mono (by decide) (Allows.refl _))) (Allows.mono (by decide) (Allows.refl _))).1
  · have ht : s.logRefusal fn off =
        (s.setFlt { s.flt with refusal := some (fn, off, s.ticks) }).logged 0x01 fn off false 0 := by
      rw [State.logRefusal_new hnew, State.logFault_l_eq]
    refine ⟨?_, fun n hn => ?_⟩
    · show (s.logRefusal fn off).flt.refusal = _
      rw [ht, State.logged_refusal]
      rfl
    · have hn' : (s.setFlt { s.flt with refusal := some (fn, off, s.ticks) }).logSlot = some n := hn
      have hrd (k : Nat) : t.rd k = (s.logRefusal fn off).rd k := State.rd_deny _ _
      rw [hrd, hrd, ht, State.logged_of_logSlot hn']
      obtain ⟨h0, h1⟩ := State.rd_writeLog_entry (((s.setFlt { s.flt with refusal := some (fn, off, s.ticks) }).cnt O.FLT_CNT).raise 6)
        n 0x01 fn off 0
      rw [h0, h1]
      have hw : 2 ^ 31 + 2 ^ 27 * 0 + 2 ^ 16 * 0x01 + fn % 4096 < 2 ^ 32 := by omega
      refine ⟨?_, ?_, rfl, (bitOf_ofNat hw 31).2 (by omega)⟩ <;>
      · rw [getBits, BitVec.toNat_ofNat, Nat.mod_eq_of_lt hw, Nat.shiftRight_eq_div_pow]
        omega

/-! ### The port's access patterns (02_boundary_and_access.md R46, R47) -/

theorem exec_registerWrite (s : State) (fn off size : Nat) (data : BitVec 64) :
    exec (.registerWrite fn off size data) s = .next (s.busWrite fn off size data) := rfl

theorem exec_counterLatchRead (s : State) (fn off size : Nat) :
    exec (.counterLatchRead fn off size) s = .next (s.busRead fn off size) := rfl

theorem goodAccess_eq_true {off size : Nat} (h : size = 1 ∨ size = 2 ∨ size = 4 ∨ size = 8) (ha : off % size = 0) :
    goodAccess off size = true := by
  obtain rfl | rfl | rfl | rfl := h <;> simp [goodAccess, ha]

theorem goodAccess_eq_false {off size : Nat} (h : (size ≠ 1 ∧ size ≠ 2 ∧ size ≠ 4 ∧ size ≠ 8) ∨ off % size ≠ 0) :
    goodAccess off size = false := by
  obtain ⟨h1, h2, h4, h8⟩ | h := h
  · simp [goodAccess, h1, h2, h4, h8]
  · simp [goodAccess, h]

/-- An access pattern that the port refuses gets the error response where function 0 makes it outside the doorbells. -/
theorem State.denyFor_zero {s : State} {off : Nat} (h : off < 0x100000 ∨ 0x200000 ≤ off) : s.denyFor 0 off = s.deny := by
  rw [State.denyFor, if_neg (by omega), if_neg (by simp)]

/-- A 32-bit write is one write of a word. -/
theorem State.busWrite_four (s : State) (fn : Nat) {off : Nat} (data : BitVec 64) (h : off % 4 = 0) :
    s.busWrite fn off 4 data = s.write32 fn off (data.extractLsb' 0 32) := by
  rw [State.busWrite, goodAccess_eq_true (.inr (.inr (.inl rfl))) h]
  rfl

/-- A write of a word outside the doorbells and the engine memories is a write of the register there. -/
theorem State.write32_register (s : State) (fn : Nat) {off : Nat} (d : Word) (h : off < 0x100000 ∨ 0x700000 ≤ off) :
    s.write32 fn off d = s.writeAcc fn off d fun key s => s.routeWrite key d := by
  rw [State.write32, if_neg (by omega), if_neg (by omega)]

/-- A read of a word outside the doorbells and the engine memories is a read of the register there. -/
theorem State.read32_register (s : State) (fn : Nat) {off : Nat} (h : off < 0x100000 ∨ 0x700000 ≤ off) :
    s.read32 fn off = s.access fn off fun key s => s.readKey key := by
  rw [State.read32, if_neg (by omega), if_neg (by omega)]

theorem State.erred_deny (s : State) : s.deny.erred = true := rfl

/-- A 32-bit read that the word's read refuses answers the same. -/
theorem State.busRead_four_deny {s t : State} {fn off : Nat} (h : off % 4 = 0) (hr : s.read32 fn off = t.deny) :
    s.busRead fn off 4 = t.deny := by
  have h4 : off / 4 * 4 = off := by omega
  rw [State.busRead, goodAccess_eq_true (.inr (.inr (.inl rfl))) h, if_neg (by decide), if_neg (by decide), h4, hr]
  rfl

/-- Bad patterns, other functions and offsets without a register, by write and by read (R43, R44, R46, R47). -/
theorem slavePort_patterns (s : State) (fn off size : Nat) (data : BitVec 64) :
    ∀ i ∈ [Instr.registerWrite fn off size data, .counterLatchRead fn off size],
      (fn = 0 → (off < 0x100000 ∨ 0x200000 ≤ off) → (size ≠ 1 ∧ size ≠ 2 ∧ size ≠ 4 ∧ size ≠ 8) ∨ off % size ≠ 0 →
        exec i s = .next s.deny) ∧
      (size = 4 → off % 4 = 0 → (off < 0x100000 ∨ 0x700000 ≤ off) →
        (fn ≠ 0 → exec i s = .next (if s.domOn 1 = true ∧ s.rst.blk = false then s.logRefusal fn off else s).deny) ∧
        (fn = 0 → keyOf s.cfg off = none → exec i s = .next s.deny)) := by
  have hden : (if s.domOn 1 = true ∧ s.rst.blk = false then s.logRefusal fn off else s).deny = (s.logDenied fn off).deny := rfl
  rw [hden]
  simp only [List.mem_cons, List.not_mem_nil, or_false]
  rintro i (rfl | rfl)
  · rw [exec_registerWrite]
    refine ⟨fun hf ho hb => ?_, fun hsz h4 ho => ⟨fun hf => ?_, fun hf hk => ?_⟩⟩
    · rw [State.busWrite, goodAccess_eq_false hb, if_pos rfl, hf, State.denyFor_zero ho]
    · rw [hsz, State.busWrite_four _ _ _ h4, State.write32_register _ _ _ ho, State.writeAcc, State.access_denied hf]
    · rw [hsz, hf, State.busWrite_four _ _ _ h4, State.write32_register _ _ _ ho, State.writeAcc, State.access_none hk]
  · rw [exec_counterLatchRead]
    refine ⟨fun hf ho hb => ?_, fun hsz h4 ho => ⟨fun hf => ?_, fun hf hk => ?_⟩⟩
    · rw [State.busRead, goodAccess_eq_false hb, if_pos rfl, hf, State.denyFor_zero ho]
    · rw [hsz, State.busRead_four_deny h4 ((State.read32_register _ _ ho).trans (State.access_denied hf _))]
    · rw [hsz, hf, State.busRead_four_deny h4 ((State.read32_register _ _ ho).trans (State.access_none hk _))]

/-! ### The doorbells and the push slots (11_functions_and_queues.md R303 to R305) -/

/-- A write of a doorbell register is the doorbell's command, by the ring its data names; one of a push slot's word writes the slot. -/
theorem slavePort_doorbells (s : State) (fn q k w : Nat) (data : BitVec 64) (hq : q < 0x1000) (hk : k < 4) (hw : w < 8) :
    let d : Word := data.extractLsb' 0 32
    (getBits d 30 2 = 0 → exec (.registerWrite fn (0x100000 + 0x100 * q) 4 data) s = exec (.doorbellTx fn q d) s) ∧
    (getBits d 30 2 = 1 → exec (.registerWrite fn (0x100000 + 0x100 * q) 4 data) s = exec (.doorbellRx fn q d) s) ∧
    (getBits d 30 2 = 2 → exec (.registerWrite fn (0x100000 + 0x100 * q) 4 data) s = exec (.doorbellCq fn q d) s) ∧
    exec (.registerWrite fn (0x100000 + 0x100 * q + 0x20 + 0x20 * k + 4 * w) 4 data) s = exec (.pushSlotWrite fn q k w d) s := by
  intro d
  have hdb : s.busWrite fn (0x100000 + 0x100 * q) 4 data =
      s.qAccess fn q 0 fun s =>
        if getBits d 30 2 = 0 then s.dbRing q 0 d
        else if getBits d 30 2 = 1 then s.dbRing q 1 d
        else if getBits d 30 2 = 2 then s.dbCq q d
        else s.dbIgnored q := by
    have h1 : (0x100000 + 0x100 * q - 0x100000) / 0x100 = q := by omega
    have h2 : (0x100000 + 0x100 * q) % 0x100 = 0 := by omega
    rw [State.busWrite_four _ _ _ (by omega), State.write32, if_pos (by omega), State.winDoorbell, h1, h2, if_pos rfl]
  refine ⟨fun h => ?_, fun h => ?_, fun h => ?_, ?_⟩
  · rw [exec_registerWrite, hdb]
    simp only [h]
    rfl
  · rw [exec_registerWrite, hdb]
    simp only [h]
    rfl
  · rw [exec_registerWrite, hdb]
    simp only [h]
    rfl
  · have h1 : (0x100000 + 0x100 * q + 0x20 + 0x20 * k + 4 * w - 0x100000) / 0x100 = q := by omega
    have h2 : (0x100000 + 0x100 * q + 0x20 + 0x20 * k + 4 * w) % 0x100 = 0x20 + 0x20 * k + 4 * w := by omega
    have h3 : (0x20 + 0x20 * k + 4 * w - 0x20) / 4 = 8 * (k % 4) + w % 8 := by omega
    have hslot : exec (.pushSlotWrite fn q k w d) s = .next (s.qAccess fn q (0x20 + 0x20 * (k % 4) + 4 * (w % 8)) fun s =>
        s.setQp q { s.qp q with slots := KMap.put 0 (s.qp q).slots (8 * (k % 4) + w % 8) d }) := rfl
    rw [hslot, exec_registerWrite, State.busWrite_four _ _ _ (by omega), State.write32, if_pos (by omega), State.winDoorbell, h1, h2,
      if_neg (by omega), if_pos (by omega), h3, Nat.mod_eq_of_lt hk, Nat.mod_eq_of_lt hw]

/-! ### A read that gets no answer (01_block_and_halves.md R16) -/

theorem slavePort_timeout (s : State) (off key : Nat) (hk : keyOf s.cfg off = some key) :
    (s.homeDom key ≠ 0 → ∃ t, exec (.readTimeout off) s = .next t ∧ t.slv = some ⟨true, 0⟩ ∧ SameBut [.slv] s t) ∧
    (s.homeDom key = 0 → exec (.readTimeout off) s = .next s) := by
  have he : exec (.readTimeout off) s = if s.homeDom key = 0 then .next s else .next s.deny := by
    show execReadTimeout off s = _
    rw [execReadTimeout, hk]
  refine ⟨fun h => ⟨s.deny, by rw [he, if_neg h], rfl, ?_⟩, fun h => by rw [he, if_pos h]⟩
  exact (State.deny_keeps (Keeps.refl (ar := [.slv]) s) (Allows.refl _)).1

/-! ### Clearing counters (04_field_ports.md R128) -/

theorem State.zeroWords_succ (s : State) (key n : Nat) :
    s.zeroWords key (n + 1) = (s.zeroWords key n).wr (key + 4 * n) 0 := by
  simp [State.zeroWords, forEach, List.range_succ]

theorem State.rd_zeroWords_ne (s : State) (key : Nat) {n k : Nat} (h : ∀ i, i < n → k ≠ key + 4 * i) :
    (s.zeroWords key n).rd k = s.rd k := by
  induction n with
  | zero => rfl
  | succ n ih =>
    rw [State.zeroWords_succ, State.rd_wr_ne _ _ (h n n.lt_succ_self), ih fun i hi => h i (hi.trans n.lt_succ_self)]

theorem State.rd_zeroWords_eq_zero {s : State} {key n k : Nat} (h : s.rd k = 0 ∨ ∃ i, i < n ∧ k = key + 4 * i) :
    (s.zeroWords key n).rd k = 0 := by
  induction n with
  | zero =>
    obtain h | ⟨i, hi, -⟩ := h
    · exact h
    · omega
  | succ n ih =>
    rw [State.zeroWords_succ]
    by_cases hk : k = key + 4 * n
    · rw [hk, State.rd_wr_self]
    · rw [State.rd_wr_ne _ _ hk]
      refine ih (h.imp_right fun ⟨i, hi, he⟩ => ⟨i, ?_, he⟩)
      have : i ≠ n := fun h => hk (h ▸ he)
      omega

/-- The counters of a list of blocks of words, cleared one block after another. -/
theorem State.rd_zeroLists_ne (s : State) {l : List (Nat × Nat)} {k : Nat} (h : ∀ r ∈ l, ∀ i, i < r.2 → k ≠ r.1 + 4 * i) :
    (forEach l (fun r s => s.zeroWords r.1 r.2) s).rd k = s.rd k := by
  induction l generalizing s with
  | nil => rfl
  | cons r l ih =>
    exact (ih _ fun r hr => h r (List.mem_cons_of_mem _ hr)).trans (State.rd_zeroWords_ne _ _ (h r List.mem_cons_self))

theorem State.rd_zeroLists_eq_zero {s : State} {l : List (Nat × Nat)} {k : Nat}
    (h : s.rd k = 0 ∨ ∃ r ∈ l, ∃ i, i < r.2 ∧ k = r.1 + 4 * i) :
    (forEach l (fun r s => s.zeroWords r.1 r.2) s).rd k = 0 := by
  induction l generalizing s with
  | nil =>
    obtain h | ⟨r, hr, -⟩ := h
    · exact h
    · exact absurd hr List.not_mem_nil
  | cons r l ih =>
    refine ih ?_
    obtain h | ⟨r', hr, hi⟩ := h
    · exact .inl (State.rd_zeroWords_eq_zero (.inl h))
    · obtain rfl | hr := List.mem_cons.mp hr
      · exact .inl (State.rd_zeroWords_eq_zero (.inr hi))
      · exact .inr ⟨r', hr, hi⟩

/-- The counters that each clear register covers (04_field_ports.md R128). -/
theorem clearedBy_eq {key : Nat} {l : List (Nat × Nat)}
    (h : (∃ n, (n < 10 ∧ key = 0x010038 + 0x1000 * n ∧ l = [(0x010300 + 0x1000 * n, 64)]) ∨
      (n < 2 ∧ key = O.TRK_CNT_CLR n ∧ l = [(O.TRK_CNT n 0, 60), (O.TRK_OH_ERR n, 1), (O.TRK_BLOCK_DROP n, 1)]) ∨
      (n < 2 ∧ key = O.PRS_CNT_CLR n ∧ l = [(O.PRS_CNT n 0, 14)]) ∨
      (n < 12 ∧ key = O.CE_CNT_CLR n ∧ l = [(O.CE_CNT n 0, 16)])) ∨
    (key, l) ∈ [(O.CLS_CNT_CLR 0, [(O.CLS_CNT 0 0, 34), (O.CLS_MC_PARTIAL 0, 20), (O.CLS_UC_DROP 0, 20)]),
      (O.CLS_CNT_CLR 1, [(O.CLS_CNT 1 0, 34)]), (O.Q_CNT_CLR, [(O.Q_CNT 0, 16)]), (O.MEM_CNT_CLR, [(O.MEM_CNT 0, 20)])]) :
    clearedBy key = some l := by
  have mac : ∀ n < 10, clearedBy (0x010038 + 0x1000 * n) = some [(0x010300 + 0x1000 * n, 64)] := by decide
  have trk : ∀ n < 2, clearedBy (O.TRK_CNT_CLR n) =
    some [(O.TRK_CNT n 0, 60), (O.TRK_OH_ERR n, 1), (O.TRK_BLOCK_DROP n, 1)] := by decide
  have prs : ∀ n < 2, clearedBy (O.PRS_CNT_CLR n) = some [(O.PRS_CNT n 0, 14)] := by decide
  have ce : ∀ n < 12, clearedBy (O.CE_CNT_CLR n) = some [(O.CE_CNT n 0, 16)] := by decide
  have rest : ∀ p ∈ [(O.CLS_CNT_CLR 0, [(O.CLS_CNT 0 0, 34), (O.CLS_MC_PARTIAL 0, 20), (O.CLS_UC_DROP 0, 20)]),
      (O.CLS_CNT_CLR 1, [(O.CLS_CNT 1 0, 34)]), (O.Q_CNT_CLR, [(O.Q_CNT 0, 16)]), (O.MEM_CNT_CLR, [(O.MEM_CNT 0, 20)])],
      clearedBy p.1 = some p.2 := by decide
  obtain ⟨n, ⟨hn, rfl, rfl⟩ | ⟨hn, rfl, rfl⟩ | ⟨hn, rfl, rfl⟩ | ⟨hn, rfl, rfl⟩⟩ | h := h
  · exact mac n hn
  · exact trk n hn
  · exact prs n hn
  · exact ce n hn
  · exact rest _ h

/-- COUNTER_CLEAR sets the counters of its clear register to 0 and changes no other word. -/
theorem slavePort_clear {s : State} {off key : Nat} {l : List (Nat × Nat)} (hl : clearedBy key = some l) (h : s.Reaches off key) :
    ∃ t, exec (.counterClear 0 off) s = .next t ∧ t.slv = some ⟨false, 0⟩ ∧
      (∀ r ∈ l, ∀ i, i < r.2 → t.rd (r.1 + 4 * i) = 0) ∧
      ∀ k, (∀ r ∈ l, ∀ i, i < r.2 → k ≠ r.1 + 4 * i) → t.rd k = s.rd k := by
  refine ⟨(s.answer false 0).clearCounters key, congrArg Host.Outcome.next (h.access _), ?_, ?_, ?_⟩
  · exact (State.clearCounters_keeps (Keeps.refl (ar := [.regs]) (s.answer false 0)) key (Allows.refl _)).1 .slv (by decide)
  · intro r hr i hi
    rw [State.clearCounters, hl]
    exact State.rd_zeroLists_eq_zero (.inr ⟨r, hr, i, hi, rfl⟩)
  · intro k hk
    rw [State.clearCounters, hl]
    exact (State.rd_zeroLists_ne _ hk).trans (State.rd_answer _ _ _ _)

/-! ### The engine memories through the debug window (02_boundary_and_access.md R45; 09_engine_threads.md R240) -/

theorem natLe_length (k n : Nat) : (natLe k n).length = k := by
  induction k generalizing n with
  | zero => rfl
  | succ k ih => rw [natLe, List.length_cons, ih]

theorem natLe_mod (k n : Nat) : natLe k (n % 2 ^ (8 * k)) = natLe k n := by
  induction k generalizing n with
  | zero => rfl
  | succ k ih =>
    have hp : 2 ^ (8 * (k + 1)) = 256 * 2 ^ (8 * k) := by rw [Nat.mul_succ, Nat.pow_add, Nat.mul_comm]
    have hb : BitVec.ofNat 8 (n % 2 ^ (8 * (k + 1))) = BitVec.ofNat 8 n := by
      apply BitVec.eq_of_toNat_eq
      rw [BitVec.toNat_ofNat, BitVec.toNat_ofNat, hp, Nat.mod_mul_right_mod]
    rw [natLe, natLe, hb, hp, Nat.mod_mul_right_div_self, ih]

theorem State.ebyte_eput_self (s : State) (e o : Nat) (b : Byte) : (s.eput e o [b]).ebyte e o = b :=
  KMap.get_put_self _ _ _ _

theorem State.ebyte_eput_ne (s : State) (e : Nat) {o o' : Nat} (b : Byte) (h : o' ≠ o) :
    (s.eput e o [b]).ebyte e o' = s.ebyte e o' :=
  KMap.get_put_ne _ _ _ _ (by simp only [ememKey]; omega)

theorem State.winWrite_cons (s : State) (e o : Nat) (b : Byte) (bs : List Byte) :
    s.winWrite e o (b :: bs) =
      (if 0x28000 ≤ o ∧ o < 0x28400 ∧ o % 16 / 4 = 3 then s else s.eput e o [b]).winWrite e (o + 1) bs := rfl

/-- A write of the window changes no byte below it. -/
theorem State.ebyte_winWrite_below (s : State) (e o : Nat) (bs : List Byte) {o' : Nat} (h : o' < o) :
    (s.winWrite e o bs).ebyte e o' = s.ebyte e o' := by
  induction bs generalizing s o with
  | nil => rfl
  | cons b bs ih =>
    rw [State.winWrite_cons, ih _ _ (by omega)]
    split
    · rfl
    · exact State.ebyte_eput_ne _ _ _ (by omega)

theorem State.ebytes_succ (s : State) (e o k : Nat) : s.ebytes e o (k + 1) = s.ebyte e o :: s.ebytes e (o + 1) k := by
  simp only [State.ebytes, rangeFrom, List.range_succ_eq_map, List.map_cons, List.map_map, Nat.add_zero]
  congr 2
  funext i
  simp only [Function.comp_apply]
  congr 1
  omega

/-- Bytes written below the splice table read back. -/
theorem State.ebytes_winWrite (s : State) (e : Nat) {o : Nat} (bs : List Byte) (h : o + bs.length ≤ 0x28000) :
    (s.winWrite e o bs).ebytes e o bs.length = bs := by
  induction bs generalizing s o with
  | nil => rfl
  | cons b bs ih =>
    rw [List.length_cons] at h ⊢
    rw [State.ebytes_succ, State.winWrite_cons, if_neg (by omega), State.ebyte_winWrite_below _ _ _ _ o.lt_succ_self,
      State.ebyte_eput_self, ih _ (by omega)]

/-- The offset of byte `o` of the debug window of engine `e`. -/
def engineOff (e o : Nat) : Nat := 0x400000 + 0x40000 * e + o

theorem engineOff_split {e o : Nat} (h : o < 0x40000) :
    (engineOff e o - 0x400000) / 0x40000 = e ∧ (engineOff e o - 0x400000) % 0x40000 = o := by
  simp only [engineOff]
  omega

theorem engineOff_range {c : Cfg} {e o : Nat} (he : e < c.engines) (ho : o < 0x40000) :
    0x400000 ≤ engineOff e o ∧ engineOff e o < 0x700000 := by
  have : c.engines ≤ 12 := by cases c <;> decide
  simp only [engineOff]
  omega

/-- A write of an engine memory of 1, 2 or 4 aligned bytes is one access of the debug window (02_boundary_and_access.md R45, R46). -/
theorem State.busWrite_engine {s : State} {e o size : Nat} (data : BitVec 64) (hs : size = 1 ∨ size = 2 ∨ size = 4) (ha : o % size = 0)
    (he : e < s.cfg.engines) (ho : o < 0x40000) :
    s.busWrite 0 (engineOff e o) size data = s.winEngine 0 (engineOff e o) (some (natLe size data.toNat)) := by
  obtain ⟨hl, hh⟩ := engineOff_range he ho
  have hal : engineOff e o % size = 0 := by
    obtain rfl | rfl | rfl := hs <;> (simp only [engineOff]; omega)
  rw [State.busWrite, goodAccess_eq_true (by omega) hal, if_neg (by decide), if_neg (by omega)]
  split
  · next h4 =>
    subst h4
    have hd : natLe 4 (data.extractLsb' 0 32).toNat = natLe 4 data.toNat := by
      rw [BitVec.extractLsb'_toNat, Nat.shiftRight_zero]
      exact natLe_mod 4 _
    rw [State.write32, if_neg (by omega), if_pos ⟨hl, hh⟩, hd]
  · rw [if_pos ⟨hl, hh⟩]

/-- What the window does with a write. -/
theorem State.winEngine_write {s : State} {e o : Nat} (bs : List Byte) (he : e < s.cfg.engines) (ho : o < 0x40000)
    (hu : s.islandUp (engineOff e o) = true) :
    s.winEngine 0 (engineOff e o) (some bs) =
      if (ememEnd o true).isNone = true ∨ s.ememOpen e = false then s.deny else (s.answer false 0).winWrite e o bs := by
  obtain ⟨h1, h2⟩ := engineOff_split (e := e) ho
  have hne : ¬ s.cfg.engines ≤ e := by omega
  rw [State.winEngine, h1, h2]
  cases hx : ememEnd o true <;> cases hop : s.ememOpen e <;> simp [hx, hu, hne]

/-- What the window answers to a read. -/
theorem State.winEngine_read {s : State} {e o x : Nat} (he : e < s.cfg.engines) (ho : o < 0x40000)
    (hu : s.islandUp (engineOff e o) = true) (hx : ememEnd o false = some x) :
    s.winEngine 0 (engineOff e o) none = s.answer false (leNat (s.ebytes e o 4)) := by
  obtain ⟨h1, h2⟩ := engineOff_split (e := e) ho
  have hne : ¬ s.cfg.engines ≤ e := by omega
  rw [State.winEngine, h1, h2]
  simp [hx, hu, hne]

/-- A memory that the window writes, and that is not the splice table, ends below that table. -/
theorem below_splices {o size x : Nat} (hs : size = 1 ∨ size = 2 ∨ size = 4) (ha : o % size = 0) (hx : ememEnd o true = some x)
    (h : o < 0x28000 ∨ 0x28400 ≤ o) : o + size ≤ 0x28000 := by
  have ho : o < 0x28000 := by
    by_contra hge
    rw [ememEnd, if_neg (by omega), if_neg (by omega), if_neg (by simp)] at hx
    exact nomatch hx
  obtain rfl | rfl | rfl := hs <;> omega

/-- A read of at most 4 bytes answers the addressed bytes of its word (02_boundary_and_access.md R47). -/
theorem State.busRead_answer {s t : State} {fn off size n : Nat} (hs : size = 1 ∨ size = 2 ∨ size = 4) (ha : off % size = 0)
    (hn : n < 2 ^ 32) (hr : s.read32 fn (off / 4 * 4) = t.answer false n) :
    s.busRead fn off size = t.answer false (n / 2 ^ (8 * (off % 4)) % 2 ^ (8 * size)) := by
  have hd : (t.answer false n).ansData = n := by
    show (BitVec.ofNat 64 n).toNat = n
    rw [BitVec.toNat_ofNat]
    omega
  have he : (t.answer false n).erred = false := rfl
  rw [State.busRead, goodAccess_eq_true (by omega) ha, if_neg (by decide), if_neg (by omega), hr]
  dsimp only
  rw [he, if_neg (by decide), hd]
  rfl

/-- A read of 4 bytes answers its word. -/
theorem State.busRead_four_answer {s t : State} {fn off n : Nat} (h : off % 4 = 0) (hn : n < 2 ^ 32)
    (hr : s.read32 fn off = t.answer false n) : s.busRead fn off 4 = t.answer false n := by
  have h4 : off / 4 * 4 = off := by omega
  rw [State.busRead_answer (.inr (.inr rfl)) h hn (h4 ▸ hr), h, Nat.mul_zero, Nat.pow_zero, Nat.div_one, Nat.mod_eq_of_lt hn]

/-- Writes and reads of an engine's memories (02_boundary_and_access.md R45; 09_engine_threads.md R240). -/
theorem slavePort_engine (s : State) (e o size : Nat) (data : BitVec 64) (hs : size = 1 ∨ size = 2 ∨ size = 4) (ha : o % size = 0)
    (ho : o < 0x40000) (he : e < s.cfg.engines) (hu : s.islandUp (0x400000 + 0x40000 * e + o) = true) :
    ((∃ x, ememEnd o true = some x) → s.ememOpen e = true → (o < 0x28000 ∨ 0x28400 ≤ o) →
      ∃ t, exec (.registerWrite 0 (0x400000 + 0x40000 * e + o) size data) s = .next t ∧ t.slv = some ⟨false, 0⟩ ∧
        t.ebytes e o size = natLe size data.toNat ∧ t.regs = s.regs) ∧
    (s.ememOpen e = false →
      ∃ t, exec (.registerWrite 0 (0x400000 + 0x40000 * e + o) size data) s = .next t ∧ t.slv = some ⟨true, 0⟩ ∧ t.emem = s.emem) ∧
    ((∃ x, ememEnd o false = some x) → size = 4 →
      ∃ t, exec (.counterLatchRead 0 (0x400000 + 0x40000 * e + o) 4) s = .next t ∧
        t.slv = some ⟨false, BitVec.ofNat 64 (leNat (s.ebytes e o 4))⟩ ∧ t.emem = s.emem ∧ t.regs = s.regs) := by
  change s.islandUp (engineOff e o) = true at hu
  have hw : exec (.registerWrite 0 (engineOff e o) size data) s = .next
      (if (ememEnd o true).isNone = true ∨ s.ememOpen e = false then s.deny
       else (s.answer false 0).winWrite e o (natLe size data.toNat)) := by
    rw [exec_registerWrite, State.busWrite_engine data hs ha he ho, State.winEngine_write _ he ho hu]
  refine ⟨fun ⟨x, hx⟩ hop hsp => ?_, fun hop => ?_, fun ⟨x, hx⟩ h4 => ?_⟩
  · rw [hx, hop, if_neg (by simp)] at hw
    have hk := State.winWrite_keeps (Keeps.refl (ar := [.emem]) (s.answer false 0)) e o (natLe size data.toNat) (Allows.refl _)
    have hb := State.ebytes_winWrite (s.answer false 0) e (o := o) (natLe size data.toNat)
      (by rw [natLe_length]; exact below_splices hs ha hx hsp)
    rw [natLe_length] at hb
    exact ⟨_, hw, hk.1 .slv (by decide), hb, hk.1 .regs (by decide)⟩
  · rw [if_pos (.inr hop)] at hw
    exact ⟨_, hw, rfl, rfl⟩
  · subst h4
    obtain ⟨hl, hh⟩ := engineOff_range he ho
    have hal : engineOff e o % 4 = 0 := by
      simp only [engineOff]
      omega
    have hlt : leNat (s.ebytes e o 4) < 2 ^ 32 := (leNat_lt _).trans_eq (by simp [State.ebytes, rangeFrom])
    have hr : s.read32 0 (engineOff e o) = s.answer false (leNat (s.ebytes e o 4)) := by
      rw [State.read32, if_neg (by omega), if_pos ⟨hl, hh⟩, State.winEngine_read he ho hu hx]
    exact ⟨_, congrArg Host.Outcome.next (State.busRead_four_answer hal hlt hr), rfl, rfl, rfl⟩

/-! ### Reads of registers (02_boundary_and_access.md R47, R54) -/

/-- The register words, besides the counters, whose read has an effect of its own. -/
def readActions : List Nat :=
  [O.TB_SNAP_NS, O.TB_SNAP_NS + 0x8000, O.TRK_SLOT_DATA 0, O.TRK_SLOT_DATA 1, O.PRS_NODE_DATA 0, O.PRS_NODE_DATA 1,
    O.MEM_DBG_DATA, O.MEM_DBG_DATA + 4]

theorem readActions_not_isCounter : ∀ k ∈ readActions, isCounter k = false := by decide

/-- A read of any other register word. -/
theorem State.readKey_of_not_mem {s : State} {key : Nat} (ht : s.tbStopped key = false) (hk : key ∉ readActions) :
    s.readKey key =
      if isCounter key then
        (if s.followCnt key then s.answer false 0
         else if key % 8 = 0 then (s.latchHigh key).answer false (s.rd key).toNat
         else s.answer false (s.held key).toNat)
      else
        match latchedWord key with
        | some 0 => (s.latchNext key 3).answer false (s.rd key).toNat
        | some _ => s.answer false (s.held key).toNat
        | none => s.answer false (s.view key).toNat := by
  simp only [readActions, List.mem_cons, List.not_mem_nil, or_false, not_or] at hk
  obtain ⟨h1, h2, h3, h4, h5, h6, h7, h8⟩ := hk
  exact (if_neg (by simp [ht])).trans <| (if_neg h1).trans <| (if_neg h2).trans <| (if_neg h3).trans <| (if_neg h4).trans <|
    (if_neg h5).trans <| (if_neg h6).trans <| (if_neg h7).trans (if_neg h8)

/-- A read of a word without an effect shows its view. -/
theorem State.readKey_view {s : State} {key : Nat} (ht : s.tbStopped key = false) (hc : isCounter key = false)
    (hl : latchedWord key = none) (hk : key ∉ readActions) : s.readKey key = s.answer false (s.view key).toNat := by
  rw [State.readKey_of_not_mem ht hk, if_neg (by simp [hc]), hl]

/-- A read of a counter: its low word latches the high one, which is read from there (R54). -/
theorem State.readKey_counter {s : State} {key : Nat} (ht : s.tbStopped key = false) (hc : isCounter key = true)
    (hf : s.followCnt key = false) :
    s.readKey key = if key % 8 = 0 then (s.latchHigh key).answer false (s.rd key).toNat else s.answer false (s.held key).toNat := by
  have hk : key ∉ readActions := fun h => Bool.false_ne_true ((readActions_not_isCounter key h).symm.trans hc)
  rw [State.readKey_of_not_mem ht hk, if_pos hc, if_neg (by simp [hf])]

theorem State.Reaches.read32 {s : State} {off key : Nat} (h : s.Reaches off key) (ho : off < 0x100000) :
    s.read32 0 off = (s.answer false 0).readKey key := by
  rw [State.read32_register _ _ (.inl ho), h.access]

theorem State.view_answer (s : State) (e : Bool) (n k : Nat) : (s.answer e n).view k = s.view k := rfl

theorem State.Reaches.read_view {s : State} {off key : Nat} (h : s.Reaches off key) (ho : off < 0x100000)
    (ht : s.tbStopped key = false) (hc : isCounter key = false) (hl : latchedWord key = none) (hk : key ∉ readActions) :
    s.read32 0 off = (s.answer false 0).answer false (s.view key).toNat := by
  rw [h.read32 ho, State.readKey_view (s := s.answer false 0) ht hc hl hk, State.view_answer]

/-- A read of a register word without an effect, whole or by byte. -/
theorem slavePort_read {s : State} {off key : Nat} (h4 : off % 4 = 0) (ho : off < 0x100000) (h : s.Reaches off key)
    (ht : s.tbStopped key = false) (hc : isCounter key = false) (hl : latchedWord key = none) (hk : key ∉ readActions) :
    (∃ t, exec (.counterLatchRead 0 off 4) s = .next t ∧ t.slv = some ⟨false, BitVec.ofNat 64 (s.view key).toNat⟩ ∧ t.regs = s.regs) ∧
    ∀ b, b < 4 → ∃ t, exec (.counterLatchRead 0 (off + b) 1) s = .next t ∧
      t.slv = some ⟨false, BitVec.ofNat 64 (getBits (s.view key) (8 * b) 8)⟩ ∧ t.regs = s.regs := by
  have hr := h.read_view ho ht hc hl hk
  refine ⟨⟨_, congrArg Host.Outcome.next (State.busRead_four_answer h4 (s.view key).isLt hr), rfl, rfl⟩, fun b hb => ?_⟩
  have hw : (off + b) / 4 * 4 = off := by omega
  have hm : (off + b) % 4 = b := by omega
  have hbyte := State.busRead_answer (.inl rfl) (Nat.mod_one (off + b)) (s.view key).isLt (hw.symm ▸ hr)
  rw [hm] at hbyte
  refine ⟨_, congrArg Host.Outcome.next hbyte, ?_, rfl⟩
  rw [getBits, Nat.shiftRight_eq_div_pow]
  rfl

/-- A read of a counter's low word latches its high word (R54). -/
theorem slavePort_latch {s : State} {off key : Nat} (h4 : off % 4 = 0) (ho : off < 0x100000) (h : s.Reaches off key)
    (hc : isCounter key = true) (hf : s.followCnt key = false) (ht : s.tbStopped key = false) (hk : key % 8 = 0) :
    ∃ t, exec (.counterLatchRead 0 off 4) s = .next t ∧ t.slv = some ⟨false, BitVec.ofNat 64 (s.rd key).toNat⟩ ∧
      KMap.find? t.hold (key + 4) = some (s.rd (key + 4)) ∧ t.regs = s.regs := by
  have hr : s.read32 0 off = ((s.answer false 0).latchHigh key).answer false (s.rd key).toNat := by
    rw [h.read32 ho, State.readKey_counter (s := s.answer false 0) ht hc hf, if_pos hk, State.rd_answer]
  refine ⟨_, congrArg Host.Outcome.next (State.busRead_four_answer h4 (s.rd key).isLt hr), rfl, ?_, rfl⟩
  exact KMap.find?_insert_self _ _ _

/-- The state in which a read of the fault counter's low word leaves the port. -/
def State.fltCntLatched (s : State) : State := ((s.answer false 0).latchHigh O.FLT_CNT).answer false (s.rd O.FLT_CNT).toNat

/-- A read of 8 bytes is two reads of a word, the lower address first (02_boundary_and_access.md R46). -/
theorem State.busRead_eight_answer {s t u : State} {fn off m n : Nat} (h : off % 8 = 0) (hm : m < 2 ^ 32) (hn : n < 2 ^ 32)
    (hlo : s.read32 fn off = t.answer false m) (hhi : (t.answer false m).read32 fn (off + 4) = u.answer false n) :
    s.busRead fn off 8 = u.answer false (m + 2 ^ 32 * n) := by
  have hd (v : State) {k : Nat} (hk : k < 2 ^ 32) : (v.answer false k).ansData = k := by
    show (BitVec.ofNat 64 k).toNat = k
    rw [BitVec.toNat_ofNat]
    omega
  have he (v : State) (k : Nat) : (v.answer false k).erred = false := rfl
  rw [State.busRead, goodAccess_eq_true (by omega) h, if_neg (by decide), if_pos rfl, hlo]
  dsimp only
  rw [hhi, he, he, if_neg (by decide), hd _ hm, hd _ hn]
  rfl

/-- The fault counter: its low word latches, its high word reads what was latched, and both make one value (R54). -/
theorem slavePort_faultCounter {s : State} {key : Nat} (h0 : s.Reaches O.FLT_CNT key) (h1 : s.Reaches (O.FLT_CNT + 4) (key + 4)) :
    (∃ t, exec (.counterLatchRead 0 O.FLT_CNT 4) s = .next t ∧ t.slv = some ⟨false, BitVec.ofNat 64 (s.rd O.FLT_CNT).toNat⟩ ∧
      KMap.find? t.hold (O.FLT_CNT + 4) = some (s.rd (O.FLT_CNT + 4)) ∧ t.regs = s.regs) ∧
    (∀ w, KMap.find? s.hold (O.FLT_CNT + 4) = some w →
      ∃ t, exec (.counterLatchRead 0 (O.FLT_CNT + 4) 4) s = .next t ∧ t.slv = some ⟨false, BitVec.ofNat 64 w.toNat⟩) ∧
    (∃ t, exec (.counterLatchRead 0 O.FLT_CNT 8) s = .next t ∧ t.slv = some ⟨false, BitVec.ofNat 64 (s.rd64 O.FLT_CNT)⟩) := by
  have hkey : key = O.FLT_CNT := by
    have : keyOf s.cfg O.FLT_CNT = some O.FLT_CNT := by cases s.cfg <;> decide +kernel
    exact Option.some.inj (h0.1.symm.trans this)
  subst hkey
  have hhigh (u : State) (hu : u.Reaches (O.FLT_CNT + 4) (O.FLT_CNT + 4)) :
      u.read32 0 (O.FLT_CNT + 4) = (u.answer false 0).answer false (u.held (O.FLT_CNT + 4)).toNat := by
    rw [hu.read32 (by decide), State.readKey_counter (s := u.answer false 0) rfl (by decide) rfl, if_neg (by decide)]
    rfl
  refine ⟨slavePort_latch (by decide) (by decide) h0 (by decide) rfl rfl (by decide), fun w hw => ?_, ?_⟩
  · have hheld : s.held (O.FLT_CNT + 4) = w := by rw [State.held, hw, Option.getD_some]
    have hr := hhigh s h1
    rw [hheld] at hr
    exact ⟨_, congrArg Host.Outcome.next (State.busRead_four_answer (by decide) w.isLt hr), rfl⟩
  · have hlow : s.read32 0 O.FLT_CNT = s.fltCntLatched := by
      rw [h0.read32 (by decide), State.readKey_counter (s := s.answer false 0) rfl (by decide) rfl, if_pos (by decide),
        State.rd_answer]
      rfl
    have hhold : KMap.find? s.fltCntLatched.hold (O.FLT_CNT + 4) = some (s.rd (O.FLT_CNT + 4)) := KMap.find?_insert_self _ _ _
    have hheld : s.fltCntLatched.held (O.FLT_CNT + 4) = s.rd (O.FLT_CNT + 4) := by rw [State.held, hhold, Option.getD_some]
    have hr := hhigh s.fltCntLatched h1
    rw [hheld] at hr
    exact ⟨_, congrArg Host.Outcome.next (State.busRead_eight_answer (by decide) (s.rd O.FLT_CNT).isLt (s.rd (O.FLT_CNT + 4)).isLt
      hlow hr), rfl⟩

/-! ### Writes of registers (00_scope.md R7; 02_boundary_and_access.md R46, R48, R53) -/

/-- An object's value is the dictionary's; of the register words only DIC_STAT shows it (17_parameter_dictionary.md R412). -/
theorem State.setVal_onlyWords (s : State) (k : Nat) (d : ObjDef) (v : List Byte) : OnlyWords s (s.setVal k d v) [O.DIC_STAT] := by
  unfold State.setVal
  split
  · exact OnlyWords.refl _ _
  · intro j hj
    exact State.rd_fset_ne _ F.DIC_STAT.DIRTY _ (List.ne_of_not_mem_cons hj)

theorem State.dicSync_onlyWords (s : State) (key : Nat) : OnlyWords s (s.dicSync key) [O.DIC_STAT] := by
  unfold State.dicSync
  generalize mirrorsAt s.cfg key = l
  induction l generalizing s with
  | nil => exact OnlyWords.refl _ _
  | cons x l ih => exact (State.setVal_onlyWords _ _ _ _).trans (ih _)

theorem State.dicSync_slv (s : State) (key : Nat) : (s.dicSync key).slv = s.slv :=
  (State.dicSync_keeps (Keeps.refl (ar := [.regs, .dic]) s) key (Allows.refl _)).1 .slv (by decide)

theorem State.dicSync_eq_self {s : State} {key : Nat} (h : mirrorsAt s.cfg key = []) : s.dicSync key = s := by
  rw [State.dicSync, h]
  rfl

/-- A write of a register that takes effect at once (02_boundary_and_access.md R53). -/
theorem State.writeFields_flat {s : State} {key : Nat} {h : Hit} (hh : hitOf s.cfg key = some h) (hs : isStaged h = false) (d : Word) :
    s.writeFields key d = (if (s.writtenWord key d).2 then s.deny else s).wr key (s.writtenWord key d).1 := by
  unfold State.writeFields
  rw [hh]
  dsimp only
  rw [if_neg (by simp [hs])]

/-- The state after a write that only stores its fields: the word, the answer, and no word besides DIC_STAT changed. -/
theorem State.plainWrite_flat {s : State} {key : Nat} {h : Hit} (hh : hitOf s.cfg key = some h) (hs : isStaged h = false) (d : Word)
    (hk : key ≠ O.DIC_STAT) :
    ((s.answer false 0).plainWrite key d).rd key = (s.writtenWord key d).1 ∧
    ((s.answer false 0).plainWrite key d).slv = some ⟨(s.writtenWord key d).2, 0⟩ ∧
    OnlyWords s ((s.answer false 0).plainWrite key d) [key, O.DIC_STAT] := by
  have hw : (s.answer false 0).writtenWord key d = s.writtenWord key d := rfl
  have hf := State.writeFields_flat (s := s.answer false 0) hh hs d
  rw [hw] at hf
  rw [State.plainWrite, hf]
  refine ⟨?_, ?_, ?_⟩
  · rw [State.dicSync_onlyWords _ _ key (by simpa using hk), State.rd_wr_self]
  · rw [State.dicSync_slv]
    cases (s.writtenWord key d).2 <;> rfl
  · refine OnlyWords.trans (fun k hk => ?_) ((State.dicSync_onlyWords _ _).mono (by simp))
    rw [State.rd_wr_ne _ _ (fun h => hk (by simp [h]))]
    split <;> simp

/-- The keys whose write only stores its fields: the block's own registers, the parse graph's, and FLT_ESC. -/
def storesOnly (key : Nat) : Prop :=
  (key < 0x010000 ∧ key ≠ O.BLK_MODE) ∨ (0x030000 ≤ key ∧ key < 0x040000 ∧ key ≠ O.PRS_LOAD_CTL) ∨ key = O.FLT_ESC

theorem State.routeWrite_plain (s : State) {key : Nat} (hc : clearedBy key = none) (hk : storesOnly key) (d : Word) :
    s.routeWrite key d = s.plainWrite key d := by
  have hcl : ¬ (clearedBy key).isSome = true := by simp [hc]
  obtain ⟨hlt, hne⟩ | ⟨hge, hlt, hne⟩ | rfl := hk
  · rw [State.routeWrite, if_neg hcl, if_neg hne, if_pos hlt]
  · have hmode : key ≠ O.BLK_MODE := by
      simp only [O.BLK_MODE]
      omega
    rw [State.routeWrite, if_neg hcl, if_neg hmode, if_neg (by omega), if_neg (by omega), if_neg (by omega), if_neg hne, if_pos hlt]
  · rfl

theorem tbIsland_eq_none (c : Cfg) {key : Nat} (h : key < 0x0C0000 ∨ 0x0D0000 ≤ key) : tbIsland c key = none := by
  have hb : inTbB key = false := by simp only [inTbB, decide_eq_false_iff_not]; omega
  have ha : inTbA key = false := by simp only [inTbA, decide_eq_false_iff_not]; omega
  rw [tbIsland, hb, ha]
  rfl

/-- A 32-bit write of a register that answers, outside the time bases. -/
theorem State.Reaches.busWrite {s : State} {off key : Nat} (h : s.Reaches off key) (h4 : off % 4 = 0) (ho : off < 0x100000)
    (ht : key < 0x0C0000 ∨ 0x0D0000 ≤ key) (data : BitVec 64) :
    s.busWrite 0 off 4 data = (s.answer false 0).routeWrite key (data.extractLsb' 0 32) := by
  rw [State.busWrite_four _ _ _ h4, State.write32_register _ _ _ (.inl ho),
    State.Opens.writeAcc ⟨h, by rw [tbIsland_eq_none _ ht]; rfl⟩]

theorem eq_of_map_const {α : Type} {o : Option α} {a b : Nat} (h : o.map (fun _ => a) = some b) : a = b := by
  obtain ⟨_, -, h⟩ := Option.map_eq_some_iff.mp h
  exact h

/-- A register word outside the indexed units of half B and the trunks' MAC files has its offset as key. -/
theorem keyOf_eq_self {c : Cfg} {off key : Nat} (h : keyOf c off = some key)
    (hk : key < 0x018000 ∨ (0x01A000 ≤ key ∧ key < 0x0C0000) ∨ 0x0D0000 ≤ key) : off = key := by
  unfold keyOf at h
  split at h
  · next hb =>
    simp only [inTbB, decide_eq_true_eq] at hb
    split at h
    · exact nomatch h
    · split at h
      · exact eq_of_map_const h
      · split at h
        · have := eq_of_map_const h
          omega
        · exact nomatch h
  · split at h
    · next hm =>
      dsimp only at h
      split at h
      · have := eq_of_map_const h
        omega
      · exact nomatch h
    · split at h
      · exact nomatch h
      · exact eq_of_map_const h

/-- A narrow write of a register that is not byte-writable gets the error response (02_boundary_and_access.md R48). -/
theorem State.busWrite_narrow {s : State} {off size : Nat} {h : Hit} (h4 : off % 4 = 0) (ho : off < 0x100000)
    (hh : hitOf s.cfg off = some h) (hb : h.row.byteWr = false) (hs : size = 1 ∨ size = 2) (data : BitVec 64) :
    s.busWrite 0 off size data = s.deny := by
  have hw : off / 4 * 4 = off := by omega
  have hbw : s.byteWritable off = false := by
    rw [State.byteWritable, hh]
    exact hb
  rw [State.busWrite, goodAccess_eq_true (by omega) (by obtain rfl | rfl := hs <;> omega), if_neg (by decide), if_neg (by omega),
    if_neg (by omega), if_neg (by omega)]
  dsimp only
  rw [hw, if_neg (by simp [hbw]), State.denyFor_zero (.inl ho)]

/-- Writes of a register whose write only stores its fields. -/
theorem slavePort_write {s : State} {off key : Nat} {h : Hit} (h4 : off % 4 = 0) (ho : off < 0x100000) (hr : s.Reaches off key)
    (hh : hitOf s.cfg key = some h) (hc : clearedBy key = none) (hk : storesOnly key) (hs : isStaged h = false) (data : BitVec 64) :
    let d : Word := data.extractLsb' 0 32
    (∃ t, exec (.registerWrite 0 off 4 data) s = .next t ∧ t.rd key = (s.writtenWord key d).1 ∧
      t.slv = some ⟨(s.writtenWord key d).2, 0⟩ ∧ OnlyWords s t [key, O.DIC_STAT]) ∧
    (h.row.byteWr = false → ∀ w ∈ [1, 2],
      ∃ t, exec (.registerWrite 0 off w data) s = .next t ∧ t.slv = some ⟨true, 0⟩ ∧ t.regs = s.regs) := by
  have hrange : key ≠ O.DIC_STAT ∧ (key < 0x0C0000 ∨ 0x0D0000 ≤ key) ∧
      (key < 0x018000 ∨ (0x01A000 ≤ key ∧ key < 0x0C0000) ∨ 0x0D0000 ≤ key) := by
    simp only [storesOnly, O.FLT_ESC, O.DIC_STAT] at *
    omega
  obtain ⟨hdic, htb, hself⟩ := hrange
  refine ⟨⟨_, ?_, State.plainWrite_flat hh hs _ hdic⟩, fun hb w hw => ⟨s.deny, ?_, rfl, rfl⟩⟩
  · rw [exec_registerWrite, hr.busWrite h4 ho htb, State.routeWrite_plain _ hc hk]
  · rw [exec_registerWrite, State.busWrite_narrow h4 ho (keyOf_eq_self hr.1 hself ▸ hh) hb (by simpa using hw)]

/-! ### Registers by name (00_scope.md R7) -/

/-- What a write of `d` makes of word `w` of a register with the given fields that held `old`, and whether it is refused. -/
def writtenBits (config sealed : Bool) (fields : List FieldRow) (w : Nat) (old d : Word) : Word × Bool :=
  fields.foldl (fun (a : Word × Bool) f =>
    let n := applyField config sealed f w old d a.1
    (n.1, a.2 || n.2)) (old, false)

theorem and_not_zero (x : Word) : x &&& ~~~(0 : Word) = x := BitVec.and_allOnes

/-- A register without bits of absent resources is written field by field. -/
theorem State.writtenWord_eq {s : State} {key : Nat} {h : Hit} (hh : hitOf s.cfg key = some h) (ha : absentBits s.cfg key = 0)
    (hs : stuckOnes s.cfg key = 0) (d : Word) :
    s.writtenWord key d = writtenBits (decide (s.mode = 2)) (s.flag F.CHK_SEAL.SEALED) h.row.fields h.word (s.rd key) d := by
  have hor (x : Word) : x ||| 0 = x := BitVec.or_zero
  have hdata (x y : Word) : x &&& ~~~(0 : Word) ||| y &&& 0 = x :=
    (congrArg₂ (· ||| ·) (and_not_zero x) BitVec.and_zero).trans (hor x)
  unfold State.writtenWord
  rw [hh, ha, hs]
  dsimp only
  rw [hdata, and_not_zero, hor]
  rfl

/-- A register of one word without indices. -/
def oneWord (base : Nat) (dom : Dom) (fields : List FieldRow) : Hit := ⟨⟨base, [], dom, 1, false, fields⟩, [], 0⟩

theorem isStaged_oneWord (base : Nat) (dom : Dom) (fields : List FieldRow) : isStaged (oneWord base dom fields) = false := rfl

/-- What a slave access needs to know of a plain register of one word: its key, its row, and that no bit is absent, no counter
is cleared, and no dictionary object mirrors it. -/
structure PlainReg (c : Cfg) (k base : Nat) (dom : Dom) (fields : List FieldRow) : Prop where
  key : keyOf c k = some k
  hit : hitOf c k = some (oneWord base dom fields)
  absent : absentBits c k = 0
  stuck : stuckOnes c k = 0
  mirrors : mirrorsAt c k = []

theorem plainReg_BLK_ID (c : Cfg) : PlainReg c O.BLK_ID 0 .block
    [⟨16, 16, .ro, 0x6a17, 0x6a17⟩, ⟨8, 8, .ro, 3, 3⟩, ⟨4, 4, .ro, 1, 1⟩, ⟨0, 4, .ro, 1, 2⟩] := by
  cases c <;> exact ⟨by decide +kernel, by decide +kernel, by decide +kernel, by decide +kernel, by decide +kernel⟩

/-- The fields of FLT_ESC. -/
def fltEscFields : List FieldRow :=
  [⟨4, 1, .rw, 0, 0⟩, ⟨3, 1, .rw, 0, 0⟩, ⟨2, 1, .rw, 0, 0⟩, ⟨1, 1, .rw, 0, 0⟩, ⟨0, 1, .rw, 0, 0⟩]

theorem plainReg_FLT_ESC (c : Cfg) : PlainReg c O.FLT_ESC O.FLT_ESC .block fltEscFields := by
  cases c <;> exact ⟨by decide +kernel, by decide +kernel, by decide +kernel, by decide +kernel, by decide +kernel⟩

/-- The fields of PWR_STAT. -/
def pwrStatFields : List FieldRow :=
  [⟨31, 1, .ro, 0, 0⟩, ⟨30, 1, .ro, 0, 0⟩, ⟨29, 1, .w1c, 0, 0⟩, ⟨28, 1, .w1c, 0, 0⟩,
    ⟨27, 1, .w1c, 0, 0⟩, ⟨26, 1, .w1c, 0, 0⟩, ⟨0, 8, .ro, 0, 0⟩]

theorem plainReg_PWR_STAT (c : Cfg) : PlainReg c O.PWR_STAT O.PWR_STAT .aon pwrStatFields := by
  cases c <;> exact ⟨by decide +kernel, by decide +kernel, by decide +kernel, by decide +kernel, by decide +kernel⟩

theorem plainReg_TRK_GEAR_CUR (c : Cfg) : PlainReg c O.TRK_GEAR_CUR O.TRK_GEAR_CUR .half [⟨0, 3, .rwc, 0, 0⟩] := by
  cases c <;> exact ⟨by decide +kernel, by decide +kernel, by decide +kernel, by decide +kernel, by decide +kernel⟩

/-- A write of a plain register: the word, the answer, and no other word changed. -/
theorem PlainReg.write {s : State} {k key base : Nat} {dom : Dom} {fields : List FieldRow} (p : PlainReg s.cfg k base dom fields)
    (hr : s.Reaches k key) (h4 : k % 4 = 0) (ho : k < 0x100000) (htb : k < 0x0C0000 ∨ 0x0D0000 ≤ k)
    (hroute : ∀ (u : State) d, u.routeWrite k d = u.plainWrite k d) (data : BitVec 64) :
    let d : Word := data.extractLsb' 0 32
    let r := writtenBits (decide (s.mode = 2)) (s.flag F.CHK_SEAL.SEALED) fields 0 (s.rd k) d
    ∃ t, exec (.registerWrite 0 k 4 data) s = .next t ∧ t.rd k = r.1 ∧ t.slv = some ⟨r.2, 0⟩ ∧ OnlyWords s t [k] := by
  intro d r
  have hkey : key = k := Option.some.inj (hr.1.symm.trans p.key)
  subst hkey
  have hw : s.writtenWord key d = r := State.writtenWord_eq p.hit p.absent p.stuck d
  have hf : (s.answer false 0).plainWrite key d = (if r.2 then (s.answer false 0).deny else s.answer false 0).wr key r.1 := by
    have hw' : (s.answer false 0).writtenWord key d = r := hw
    rw [State.plainWrite, State.writeFields_flat (s := s.answer false 0) p.hit (isStaged_oneWord _ _ _), hw']
    refine State.dicSync_eq_self ?_
    have hc : ((if r.2 then (s.answer false 0).deny else s.answer false 0).wr key r.1).cfg = s.cfg := by
      cases r.2 <;> rfl
    rw [hc, p.mirrors]
  refine ⟨_, by rw [exec_registerWrite, hr.busWrite h4 ho htb, hroute, hf], State.rd_wr_self _ _ _, ?_, fun j hj => ?_⟩
  · cases r.2 <;> rfl
  · rw [State.rd_wr_ne _ _ (by simpa using hj)]
    split <;> simp

/-- Five writable bits take the data's. -/
theorem writtenBits_FLT_ESC (config sealed : Bool) (old d : Word) :
    getBits (writtenBits config sealed fltEscFields 0 old d).1 0 5 = getBits d 0 5 := by
  show getBits (setBits (setBits (setBits (setBits (setBits old 4 1 (getBits d 4 1)) 3 1 (getBits d 3 1)) 2 1 (getBits d 2 1)) 1 1
    (getBits d 1 1)) 0 1 (getBits d 0 1)) 0 5 = _
  apply Nat.eq_of_testBit_eq
  intro i
  rw [testBit_getBits, testBit_getBits]
  by_cases hi : i < 5
  · congr 1
    simp only [getLsbD_setBits, testBit_getBits]
    interval_cases i <;> simp
  · simp [hi]

/-- PWR_STAT: ABORTED is cleared by a 1, USED keeps its value. -/
theorem writtenBits_PWR_STAT (config sealed : Bool) (old d : Word) :
    let r := (writtenBits config sealed pwrStatFields 0 old d).1
    bitOf r 28 = (bitOf old 28 && !bitOf d 28) ∧ getBits r 0 8 = getBits old 0 8 := by
  intro r
  have hr : r = old &&& ~~~(d &&& maskBits 29 1) &&& ~~~(d &&& maskBits 28 1) &&& ~~~(d &&& maskBits 27 1) &&&
    ~~~(d &&& maskBits 26 1) := rfl
  rw [hr]
  refine ⟨by simp [bitOf, maskBits], Nat.eq_of_testBit_eq fun i => ?_⟩
  rw [testBit_getBits, testBit_getBits]
  by_cases hi : i < 8
  · congr 1
    interval_cases i <;> simp [maskBits]
  · simp [hi]

theorem slavePort_BLK_ID {s : State} {key : Nat} (hr : s.Reaches O.BLK_ID key) (data : BitVec 64) :
    ∃ t, exec (.registerWrite 0 O.BLK_ID 4 data) s = .next t ∧ t.rd O.BLK_ID = s.rd O.BLK_ID ∧ t.slv = some ⟨false, 0⟩ := by
  obtain ⟨t, he, hrd, hslv, -⟩ := (plainReg_BLK_ID s.cfg).write hr (by decide) (by decide) (by decide) (fun _ _ => rfl) data
  exact ⟨t, he, hrd, hslv⟩

theorem slavePort_FLT_ESC {s : State} {key : Nat} (hr : s.Reaches O.FLT_ESC key) (data : BitVec 64) :
    let d : Word := data.extractLsb' 0 32
    (∃ t, exec (.registerWrite 0 O.FLT_ESC 4 data) s = .next t ∧ getBits (t.rd O.FLT_ESC) 0 5 = getBits d 0 5 ∧
      t.slv = some ⟨false, 0⟩ ∧ OnlyWords s t [O.FLT_ESC]) ∧
    (∃ t, exec (.counterLatchRead 0 O.FLT_ESC 4) s = .next t ∧ t.slv = some ⟨false, BitVec.ofNat 64 (s.rd O.FLT_ESC).toNat⟩ ∧
      t.regs = s.regs) := by
  intro d
  have hkey : key = O.FLT_ESC := Option.some.inj (hr.1.symm.trans (plainReg_FLT_ESC s.cfg).key)
  subst hkey
  constructor
  · obtain ⟨t, he, hrd, hslv, ho⟩ := (plainReg_FLT_ESC s.cfg).write hr (by decide) (by decide) (by decide) (fun _ _ => rfl) data
    refine ⟨t, he, ?_, hslv, ho⟩
    rw [hrd, writtenBits_FLT_ESC]
  · obtain ⟨t, he, hslv, hregs⟩ := (slavePort_read (by decide) (by decide) hr rfl (by decide) (by decide) (by decide)).1
    refine ⟨t, he, ?_, hregs⟩
    have hv : s.viewRaw O.FLT_ESC = s.rd O.FLT_ESC := rfl
    rw [hslv, State.view, (plainReg_FLT_ESC s.cfg).absent, and_not_zero, hv]

theorem slavePort_PWR_STAT {s : State} {key : Nat} (hr : s.Reaches O.PWR_STAT key) (data : BitVec 64) :
    ∃ t, exec (.registerWrite 0 O.PWR_STAT 4 data) s = .next t ∧
      t.flag F.PWR_STAT.ABORTED = (s.flag F.PWR_STAT.ABORTED && !bitOf (data.extractLsb' 0 32 : Word) 28) ∧
      t.fget F.PWR_STAT.USED = s.fget F.PWR_STAT.USED := by
  obtain ⟨t, he, hrd, -⟩ := (plainReg_PWR_STAT s.cfg).write hr (by decide) (by decide) (by decide) (fun _ _ => rfl) data
  obtain ⟨habort, hused⟩ := writtenBits_PWR_STAT (decide (s.mode = 2)) (s.flag F.CHK_SEAL.SEALED) (s.rd O.PWR_STAT)
    (data.extractLsb' 0 32)
  rw [← hrd] at habort hused
  exact ⟨t, he, by rw [State.flag_eq_bitOf _ rfl, State.flag_eq_bitOf _ rfl]; exact habort, hused⟩

/-- A register that takes writes in CONFIG only (00_scope.md R7). -/
theorem slavePort_TRK_GEAR_CUR {s : State} {key : Nat} (hr : s.Reaches O.TRK_GEAR_CUR key) (data : BitVec 64) :
    let d : Word := data.extractLsb' 0 32
    (s.mode = 2 →
      ∃ t, exec (.registerWrite 0 O.TRK_GEAR_CUR 4 data) s = .next t ∧ t.fget F.TRK_GEAR_CUR.CUR = getBits d 0 3 ∧
        t.slv = some ⟨false, 0⟩) ∧
    (s.mode ≠ 2 → getBits d 0 3 ≠ s.fget F.TRK_GEAR_CUR.CUR →
      ∃ t, exec (.registerWrite 0 O.TRK_GEAR_CUR 4 data) s = .next t ∧ t.fget F.TRK_GEAR_CUR.CUR = s.fget F.TRK_GEAR_CUR.CUR ∧
        t.slv = some ⟨true, 0⟩) := by
  intro d
  have hbits (config sealed : Bool) (old : Word) : writtenBits config sealed [⟨0, 3, .rwc, 0, 0⟩] 0 old d =
      if config then (setBits old 0 3 (getBits d 0 3), false) else (old, getBits old 0 3 != getBits d 0 3) := by
    cases config <;> rfl
  obtain ⟨t, he, hrd, hslv, -⟩ := (plainReg_TRK_GEAR_CUR s.cfg).write hr (by decide) (by decide) (by decide) (fun _ _ => rfl) data
  rw [hbits] at hrd hslv
  refine ⟨fun hm => ⟨t, he, ?_, ?_⟩, fun hm hne => ⟨t, he, ?_, ?_⟩⟩
  · rw [if_pos (by simpa using hm)] at hrd
    have hget : t.fget F.TRK_GEAR_CUR.CUR = getBits (setBits (s.rd O.TRK_GEAR_CUR) 0 3 (getBits d 0 3)) 0 3 :=
      congrArg (getBits · 0 3) hrd
    rw [hget, getBits_setBits_self _ _ (by decide), getBits, Nat.mod_mod]
  · rw [hslv, if_pos (by simpa using hm)]
  · rw [if_neg (by simpa using hm)] at hrd
    exact congrArg (getBits · 0 3) hrd
  · have hbne : (getBits (s.rd O.TRK_GEAR_CUR) 0 3 != getBits d 0 3) = true := by
      rw [bne_iff_ne]
      exact hne.symm
    rw [hslv, if_neg (by simpa using hm), hbne]

/-! ### Registers of two words (02_boundary_and_access.md R55) -/

/-- A lower word waits for the register's highest word. -/
theorem State.writeFields_stage {s : State} {key : Nat} {h : Hit} {d v : Word} (hh : hitOf s.cfg key = some h)
    (hs : isStaged h = true) (hw : h.word + 1 < h.row.words) (hv : s.writtenWord key d = (v, false)) :
    s.writeFields key d = s.setStage (KMap.insert s.stage key v) := by
  unfold State.writeFields
  rw [hh]
  dsimp only
  simp only [hv, hs, hw, if_true, Bool.false_eq_true, if_false]

/-- The high word of a register of two words takes effect with the low word that waits. -/
theorem State.writeFields_last {s : State} {key : Nat} {h : Hit} {d v v0 : Word} (hh : hitOf s.cfg key = some h)
    (hs : isStaged h = true) (hword : h.word = 1) (hwords : h.row.words = 2) (hv : s.writtenWord key d = (v, false))
    (hst : KMap.find? s.stage (key - 4) = some v0) (hbad : (s.writtenWord (key - 4) v0).2 = false)
    (hact : isActLow (key - 4) = false) :
    s.writeFields key d = ((s.wr key v).wr (key - 4) v0).setStage (KMap.erase s.stage (key - 4)) := by
  have hsb : s.stagedBad key 1 = false := by
    simp [State.stagedBad, hst, hbad]
  have happ : (s.wr key v).applyStaged key 1 = ((s.wr key v).wr (key - 4) v0).setStage (KMap.erase s.stage (key - 4)) := by
    have hst' : KMap.find? (s.wr key v).stage (key - 4) = some v0 := hst
    simp only [State.applyStaged, forEach, List.range_one, List.foldl_cons, List.foldl_nil, Nat.sub_zero, Nat.mul_one, hst']
    rfl
  unfold State.writeFields
  rw [hh]
  dsimp only
  simp only [hv, hword, hwords, hs, hsb, if_true, Bool.false_eq_true, if_false, Bool.or_self, Nat.reduceAdd, Nat.lt_irrefl,
    Nat.mul_one, happ, State.cutTarget, hact]

/-- Word `w` of PRS_LOAD_ADDR: 39 writable bits from bit 5 on. -/
def loadAddrHit (w : Nat) : Hit := ⟨⟨O.PRS_LOAD_ADDR, [], .half, 2, false, [⟨5, 39, .rw, 0, 0⟩]⟩, [], w⟩

theorem hitOf_PRS_LOAD_ADDR (c : Cfg) :
    hitOf c O.PRS_LOAD_ADDR = some (loadAddrHit 0) ∧ hitOf c (O.PRS_LOAD_ADDR + 4) = some (loadAddrHit 1) := by
  cases c <;> exact ⟨by decide +kernel, by decide +kernel⟩

theorem mirrorsAt_PRS_LOAD_ADDR (c : Cfg) :
    mirrorsAt c O.PRS_LOAD_ADDR = [] ∧ mirrorsAt c (O.PRS_LOAD_ADDR + 4) = [] := by
  cases c <;> exact ⟨by decide +kernel, by decide +kernel⟩

theorem State.writtenWord_PRS_LOAD_ADDR (s : State) (d : Word) :
    s.writtenWord O.PRS_LOAD_ADDR d = (setBits (s.rd O.PRS_LOAD_ADDR) 5 27 (getBits d 5 27), false) := by
  rw [State.writtenWord_eq (hitOf_PRS_LOAD_ADDR s.cfg).1 (by cases s.cfg <;> decide) (by cases s.cfg <;> decide)]
  rfl

theorem State.writtenWord_PRS_LOAD_ADDR_high (s : State) (d : Word) :
    s.writtenWord (O.PRS_LOAD_ADDR + 4) d = (setBits (s.rd (O.PRS_LOAD_ADDR + 4)) 0 12 (getBits d 0 12), false) := by
  rw [State.writtenWord_eq (hitOf_PRS_LOAD_ADDR s.cfg).2 (by cases s.cfg <;> decide) (by cases s.cfg <;> decide)]
  rfl

/-- The state between the two writes: the low word waits. -/
def State.loadAddrStaged (s : State) (d : Word) : State :=
  (s.answer false 0).setStage
    (KMap.insert s.stage O.PRS_LOAD_ADDR (setBits (s.rd O.PRS_LOAD_ADDR) 5 27 (getBits d 5 27)))

theorem State.write32_PRS_LOAD_ADDR {s : State} (h : s.Reaches O.PRS_LOAD_ADDR O.PRS_LOAD_ADDR) (d : Word) :
    s.write32 0 O.PRS_LOAD_ADDR d = s.loadAddrStaged d := by
  rw [State.write32_register _ _ _ (.inl (by decide)), State.Opens.writeAcc ⟨h, by rw [tbIsland_eq_none _ (by decide)]; rfl⟩,
    State.routeWrite_plain _ (by decide) (.inr (.inl (by decide))), State.plainWrite,
    State.writeFields_stage (s := s.answer false 0) (hitOf_PRS_LOAD_ADDR s.cfg).1 rfl (by decide)
      (State.writtenWord_PRS_LOAD_ADDR _ d)]
  exact State.dicSync_eq_self (mirrorsAt_PRS_LOAD_ADDR s.cfg).1

theorem State.write32_PRS_LOAD_ADDR_high {s : State} (h : s.Reaches (O.PRS_LOAD_ADDR + 4) (O.PRS_LOAD_ADDR + 4)) {v0 : Word}
    (hst : KMap.find? s.stage O.PRS_LOAD_ADDR = some v0) (d : Word) :
    (s.write32 0 (O.PRS_LOAD_ADDR + 4) d).slv = some ⟨false, 0⟩ ∧
    (s.write32 0 (O.PRS_LOAD_ADDR + 4) d).rd O.PRS_LOAD_ADDR = v0 ∧
    (s.write32 0 (O.PRS_LOAD_ADDR + 4) d).rd (O.PRS_LOAD_ADDR + 4) =
      setBits (s.rd (O.PRS_LOAD_ADDR + 4)) 0 12 (getBits d 0 12) := by
  have hf := State.writeFields_last (s := s.answer false 0) (hitOf_PRS_LOAD_ADDR s.cfg).2 rfl rfl rfl
    (State.writtenWord_PRS_LOAD_ADDR_high _ d) hst (congrArg Prod.snd (State.writtenWord_PRS_LOAD_ADDR _ v0)) (by decide)
  rw [State.write32_register _ _ _ (.inl (by decide)), State.Opens.writeAcc ⟨h, by rw [tbIsland_eq_none _ (by decide)]; rfl⟩,
    State.routeWrite_plain _ (by decide) (.inr (.inl (by decide))), State.plainWrite, hf]
  rw [State.dicSync_eq_self]
  · refine ⟨rfl, State.rd_wr_self _ O.PRS_LOAD_ADDR v0, ?_⟩
    exact (State.rd_wr_ne _ _ (by decide)).trans ((State.rd_wr_self _ _ _).trans (by rw [State.rd_answer]))
  · exact (mirrorsAt_PRS_LOAD_ADDR s.cfg).2

/-- A write of 8 bytes is two writes of a word, the lower address first (R46). -/
theorem State.busWrite_eight {s : State} {fn off : Nat} {data : BitVec 64} (h : off % 8 = 0)
    (he : (s.write32 fn off (data.extractLsb' 0 32)).erred = false) :
    s.busWrite fn off 8 data = (s.write32 fn off (data.extractLsb' 0 32)).write32 fn (off + 4) (data.extractLsb' 32 32) := by
  rw [State.busWrite, goodAccess_eq_true (by omega) h, if_neg (by decide), if_pos rfl]
  dsimp only
  rw [he, if_neg (by decide)]

/-- A field of the word at bit `at` of a longer value. -/
theorem getBits_extractLsb' (data : BitVec 64) {start lo wd : Nat} (h : lo + wd ≤ 32) :
    getBits (data.extractLsb' start 32) lo wd = natBits data.toNat (start + lo) wd := by
  apply Nat.eq_of_testBit_eq
  intro i
  rw [testBit_getBits, natBits, Nat.testBit_mod_two_pow, Nat.testBit_shiftRight, BitVec.testBit_toNat, BitVec.getLsbD_extractLsb']
  by_cases hi : i < wd
  · simp [hi, show lo + i < 32 by omega, Nat.add_assoc]
  · simp [hi]

theorem slavePort_PRS_LOAD_ADDR {s : State} (h0 : s.Reaches O.PRS_LOAD_ADDR O.PRS_LOAD_ADDR)
    (h1 : s.Reaches (O.PRS_LOAD_ADDR + 4) (O.PRS_LOAD_ADDR + 4)) (data : BitVec 64) :
    ∃ t, exec (.registerWrite 0 O.PRS_LOAD_ADDR 8 data) s = .next t ∧ t.slv = some ⟨false, 0⟩ ∧
      getBits (t.rd O.PRS_LOAD_ADDR) 5 27 = natBits data.toNat 5 27 ∧
      getBits (t.rd (O.PRS_LOAD_ADDR + 4)) 0 12 = natBits data.toNat 32 12 := by
  have hlow := State.write32_PRS_LOAD_ADDR h0 (data.extractLsb' 0 32)
  obtain ⟨hslv, hrd0, hrd1⟩ := State.write32_PRS_LOAD_ADDR_high (s := s.loadAddrStaged (data.extractLsb' 0 32)) h1
    (KMap.find?_insert_self _ _ _) (data.extractLsb' 32 32)
  refine ⟨_, by rw [exec_registerWrite, State.busWrite_eight (by decide) (by rw [hlow]; rfl), hlow], hslv, ?_, ?_⟩
  · rw [hrd0, getBits_setBits_self _ _ (by decide), getBits_extractLsb' _ (by decide)]
    exact Nat.mod_mod _ _
  · rw [hrd1, getBits_setBits_self _ _ (by decide), getBits_extractLsb' _ (by decide)]
    exact Nat.mod_mod _ _

/-! ### The slave port -/

/-- Settles O8: one lemma for each rule of the port. -/
theorem slavePort : Obligations.SlavePort := by
  refine ⟨fun s i fn off h => slavePort_access h, slavePort_refusal, slavePort_patterns, ?registers, ?named, ?engines,
    fun s fn q k w data hq hk hw => slavePort_doorbells s fn q k w data hq hk hw, fun s key h0 h1 => slavePort_faultCounter h0 h1,
    slavePort_timeout, fun s off key l hl h => slavePort_clear (clearedBy_eq hl) h⟩
  case registers =>
    intro s off key data h h4 ho hr hh
    exact ⟨fun hc hk hs => slavePort_write h4 ho hr hh hc hk hs data,
      fun ht hc hl hk => slavePort_read h4 ho hr ht hc hl hk,
      fun hc hf ht hk => slavePort_latch h4 ho hr hc hf ht hk⟩
  case named =>
    intro s key data
    exact ⟨fun h => slavePort_BLK_ID h data, fun h => slavePort_FLT_ESC h data, fun h => slavePort_PWR_STAT h data,
      fun h => slavePort_TRK_GEAR_CUR h data, fun h0 h1 => slavePort_PRS_LOAD_ADDR h0 h1 data⟩
  case engines =>
    intro s e o size data hs ha ho he hu
    exact slavePort_engine s e o size data hs ha ho he hu

end Sys2Proof.Machine

namespace Sys2Proof.Machine

/-! ## The words of the time bases (03_time_and_cycles.md)

Every word of a time base, a generator, a trigger or a capture lies below the pending words of the interrupts. So what a command
leaves of such words is said for the words below these, and raising a source does not count. -/

/-- Below the pending words of the interrupts no register word but those at `ks` differs. -/
def LowWords (s t : State) (ks : List Nat) : Prop := ∀ k, k < O.IRQ_PEND 0 → k ∉ ks → t.rd k = s.rd k

section
variable {s t u : State} {ks js : List Nat}

theorem LowWords.refl (s : State) (ks : List Nat) : LowWords s s ks := fun _ _ _ => rfl

theorem LowWords.trans (h : LowWords s t ks) (k : LowWords t u ks) : LowWords s u ks :=
  fun j hl hj => (k j hl hj).trans (h j hl hj)

theorem LowWords.mono (h : LowWords s t ks) (hs : ∀ k ∈ ks, k ∈ js) : LowWords s t js :=
  fun j hl hj => h j hl fun hk => hj (hs j hk)

theorem LowWords.fget (h : LowWords s t ks) (g : Fld) (hl : g.off < O.IRQ_PEND 0) (hg : g.off ∉ ks) : t.fget g = s.fget g := by
  unfold State.fget
  rw [h _ hl hg]

theorem LowWords.flag (h : LowWords s t ks) (g : Fld) (hl : g.off < O.IRQ_PEND 0) (hg : g.off ∉ ks) : t.flag g = s.flag g := by
  unfold State.flag
  rw [h.fget g hl hg]

theorem LowWords.ite {c : Prop} [Decidable c] (ht : LowWords s t ks) (hu : LowWords s u ks) :
    LowWords s (if c then t else u) ks := by
  split <;> assumption

theorem LowWords.forEach {α : Type} {l : List α} {f : α → State → State} (hf : ∀ a ∈ l, ∀ u, LowWords u (f a u) ks)
    (s : State) : LowWords s (Machine.forEach l f s) ks := by
  unfold Machine.forEach
  induction l generalizing s with
  | nil => exact .refl s ks
  | cons a r ih => exact (hf a List.mem_cons_self s).trans (ih (fun b hb => hf b (List.mem_cons_of_mem a hb)) _)

/-- What keeps the register words keeps each of them. -/
theorem Keeps.lowWords {ar : List Area} (h : Keeps ar s t) (hc : Area.cfg ∉ ar) (hr : Area.regs ∉ ar) (ks : List Nat) :
    LowWords s t ks := fun k _ _ => State.rd_congr (h.1 .cfg hc) (h.1 .regs hr) k

theorem Keeps.gen {ar : List Area} (h : Keeps ar s t) (hg : Area.gens ∉ ar) (n : Nat) : t.gen n = s.gen n := by
  unfold State.gen
  rw [h.1 .gens hg]

theorem Keeps.trig {ar : List Area} (h : Keeps ar s t) (hg : Area.trigs ∉ ar) (n : Nat) : t.trig n = s.trig n := by
  unfold State.trig
  rw [h.1 .trigs hg]

end

/-! ### Words, fields and status bits -/

section
variable (s : State) {f g : Fld}

theorem State.wr_lowWords (k : Nat) (v : Word) : LowWords s (s.wr k v) [k] :=
  fun _ _ h => s.rd_wr_ne v (List.ne_of_not_mem_cons h)

theorem State.fset_lowWords (f : Fld) (v : Nat) : LowWords s (s.fset f v) [f.off] := s.wr_lowWords _ _

theorem State.raise_lowWords (n : Nat) (ks : List Nat) : LowWords s (s.raise n) ks :=
  fun k hk _ => s.rd_raise_ne n (by simp only [O.IRQ_PEND] at *; omega)

theorem State.setFlag_lowWords (f : Fld) (src : Nat) : LowWords s (s.setFlag f src) [f.off] :=
  (s.fset_lowWords f 1).trans (State.raise_lowWords _ src _)

/-- A status bit just set. -/
theorem State.flag_setFlag_self (src : Nat) (hl : f.off < O.IRQ_PEND 0) (hw : f.lo + f.wd ≤ 32) (h1 : 1 < 2 ^ f.wd) :
    (s.setFlag f src).flag f = true := by
  rw [State.setFlag, (State.raise_lowWords _ src []).flag f hl List.not_mem_nil, s.flag_fset_self f 1 hw, Nat.mod_eq_of_lt h1]
  rfl

/-- A field beside the status bit that is set. -/
theorem State.fget_setFlag_beside (src : Nat) (hl : g.off < O.IRQ_PEND 0) (h : f.Beside g) :
    (s.setFlag f src).fget g = s.fget g := by
  rw [State.setFlag, (State.raise_lowWords _ src []).fget g hl List.not_mem_nil, s.fget_fset_ne f g 1 h]

theorem State.flag_setFlag_beside (src : Nat) (hl : g.off < O.IRQ_PEND 0) (h : f.Beside g) :
    (s.setFlag f src).flag g = s.flag g := by
  unfold State.flag
  rw [s.fget_setFlag_beside src hl h]

theorem State.fsets_lowWords (l : List (Fld × Nat)) : LowWords s (s.fsets l) (l.map fun p => p.1.off) := by
  induction l generalizing s with
  | nil => exact .refl s _
  | cons p l ih =>
    rw [State.fsets_cons]
    exact ((s.fset_lowWords p.1 p.2).mono (by simp)).trans ((ih _).mono (by simp +contextual))

@[simp] theorem State.setFlag_cfg (f : Fld) (src : Nat) : (s.setFlag f src).cfg = s.cfg := by simp [State.setFlag]
@[simp] theorem State.setFlag_tbs (f : Fld) (src : Nat) : (s.setFlag f src).tbs = s.tbs := by simp [State.setFlag]
@[simp] theorem State.setFlag_gens (f : Fld) (src : Nat) : (s.setFlag f src).gens = s.gens := by simp [State.setFlag]
@[simp] theorem State.setFlag_trigs (f : Fld) (src : Nat) : (s.setFlag f src).trigs = s.trigs := by simp [State.setFlag]
@[simp] theorem State.gen_setFlag (f : Fld) (src n : Nat) : (s.setFlag f src).gen n = s.gen n := by simp [State.gen]
@[simp] theorem State.trig_setFlag (f : Fld) (src n : Nat) : (s.setFlag f src).trig n = s.trig n := by simp [State.trig]
@[simp] theorem State.setFlag_out (f : Fld) (src : Nat) : (s.setFlag f src).out = s.out := by simp [State.setFlag]

end

/-! ### The windows of the two halves (R69) -/

@[simp] theorem tbFld_off (f : Fld) (h : Nat) : (tbFld f h).off = f.off + tbOfs h := rfl
@[simp] theorem tbFld_lo (f : Fld) (h : Nat) : (tbFld f h).lo = f.lo := rfl
@[simp] theorem tbFld_wd (f : Fld) (h : Nat) : (tbFld f h).wd = f.wd := rfl

theorem tbOfs_low {h : Nat} (hh : h < 2) {k : Nat} (hk : k < 0x0D0000) : k + tbOfs h < O.IRQ_PEND 0 := by
  simp only [tbOfs, O.IRQ_PEND]
  omega

theorem tbFld_beside {f g : Fld} (h : f.Beside g) (n : Nat) : (tbFld f n).Beside (tbFld g n) :=
  h.imp_left fun hne he => hne (Nat.add_right_cancel he)

theorem Cfg.halfOfTrig_lt (c : Cfg) {n : Nat} (h : n < 32) : c.halfOfTrig n < 2 := by
  cases c <;> simp only [Cfg.halfOfTrig, Cfg.pick] <;> omega

/-! ### Snapshots (R78) -/

/-- The words that a snapshot writes. -/
def snapWords (h : Nat) : List Nat :=
  [O.TB_SNAP_NS + tbOfs h, O.TB_SNAP_NS_HELD + tbOfs h, O.TB_SNAP_FRAC + tbOfs h, O.TB_SNAP_SEC_LO + tbOfs h, O.TB_SNAP_SEC_HI + tbOfs h]

theorem State.snapshot_lowWords (s : State) (h : Nat) : LowWords s (s.snapshot h) (snapWords h) := s.fsets_lowWords _

theorem State.tb_snapshot (s : State) (h n : Nat) : (s.snapshot h).tb n = s.tb n :=
  (State.snapshot_keeps (Keeps.refl (ar := [.regs]) s) h (Allows.refl _)).tb (by decide) n

theorem timeNs_lt (t : Nat) : timeNs t < 2 ^ 32 := (Nat.mod_lt _ (by decide)).trans (by decide)

theorem timeFrac_lt (t : Nat) : timeFrac t < 2 ^ 16 := Nat.mod_lt _ (by decide)

/-- A snapshot shows the half's time, each part in a word of its own. -/
theorem State.snapshot_fields (s : State) (h : Nat) :
    (s.snapshot h).fget (tbFld F.TB_SNAP_NS.NS h) = timeNs (s.tb h).t ∧
    (s.snapshot h).fget (tbFld F.TB_SNAP_FRAC.FRAC h) = timeFrac (s.tb h).t ∧
    (s.snapshot h).fget (tbFld F.TB_SNAP_SEC_LO.SEC_LO h) = timeSec (s.tb h).t % 2 ^ 32 ∧
    (s.snapshot h).fget (tbFld F.TB_SNAP_SEC_HI.SEC_HI h) = timeSec (s.tb h).t / 2 ^ 32 % 2 ^ 16 := by
  have hne {f g : Fld} (hfg : g.off ≠ f.off) : (tbFld f h).Beside (tbFld g h) := tbFld_beside (.inl hfg) h
  simp only [State.snapshot, State.fsets_cons, State.fsets_nil]
  refine ⟨?_, ?_, ?_, ?_⟩
  · rw [State.fget_fset_ne _ _ _ _ (hne (by decide)), State.fget_fset_ne _ _ _ _ (hne (by decide)),
      State.fget_fset_ne _ _ _ _ (hne (by decide)), State.fget_fset_ne _ _ _ _ (hne (by decide)),
      State.fget_fset_self _ _ _ (by decide : 0 + 32 ≤ 32)]
    exact Nat.mod_eq_of_lt (timeNs_lt _)
  · rw [State.fget_fset_ne _ _ _ _ (hne (by decide)), State.fget_fset_ne _ _ _ _ (hne (by decide)),
      State.fget_fset_self _ _ _ (by decide : 0 + 16 ≤ 32)]
    exact Nat.mod_eq_of_lt (timeFrac_lt _)
  · rw [State.fget_fset_ne _ _ _ _ (hne (by decide)), State.fget_fset_self _ _ _ (by decide : 0 + 32 ≤ 32)]
    exact Nat.mod_mod _ _
  · exact State.fget_fset_self _ _ _ (by decide : 0 + 16 ≤ 32)

theorem snapshots_latch {s : State} {h key : Nat} (data : Word) (ho : s.Opens (O.TB_SNAP_CMD + tbOfs h) key)
    (hd : bitOf data 0 = true) :
    ∃ t, exec (.snapshotLatch 0 h data) s = .next t ∧ t.fget (tbFld F.TB_SNAP_NS.NS h) = timeNs (s.tb h).t ∧
      t.fget (tbFld F.TB_SNAP_FRAC.FRAC h) = timeFrac (s.tb h).t ∧
      t.fget (tbFld F.TB_SNAP_SEC_LO.SEC_LO h) = timeSec (s.tb h).t % 2 ^ 32 ∧
      t.fget (tbFld F.TB_SNAP_SEC_HI.SEC_HI h) = timeSec (s.tb h).t / 2 ^ 32 % 2 ^ 16 := by
  have hcmd : (s.answer false 0).snapCmd h data = (s.answer false 0).snapshot h := if_pos hd
  refine ⟨_, congrArg Host.Outcome.next (ho.writeAcc data _), ?_⟩
  rw [hcmd]
  exact (s.answer false 0).snapshot_fields h

/-- A register of an island that has its ticks answers a read (01_block_and_halves.md R16). -/
theorem State.Opens.tbStopped {s : State} {off key : Nat} (h : s.Opens off key) : s.tbStopped key = false := by
  obtain ⟨-, hrun⟩ := h
  unfold State.tbStopped
  split
  · next n hn => simpa [hn] using hrun
  · rfl

theorem snapshots_read {s : State} {h key : Nat} (ho : s.Opens (O.TB_SNAP_NS + tbOfs h) key) :
    ∃ t, exec (.tbSnapNsRead 0 h) s = .next t ∧ t.slv = some ⟨false, BitVec.ofNat 64 (timeNs (s.tb h).t)⟩ ∧
      t.fget (tbFld F.TB_SNAP_SEC_LO.SEC_LO h) = timeSec (s.tb h).t % 2 ^ 32 := by
  have hrun : (s.answer false 0).tbStopped key = false := ho.tbStopped
  obtain ⟨hns, -, hsec, -⟩ := (s.answer false 0).snapshot_fields h
  refine ⟨_, congrArg Host.Outcome.next (ho.1.access _), ?_⟩
  rw [hrun, if_neg Bool.false_ne_true]
  exact ⟨congrArg (fun v => some (Slv.mk false (BitVec.ofNat 64 v))) hns, (State.fget_answer _ _ _ _).trans hsec⟩

/-! ### Captures (R94, R95) -/

theorem capWord_low {n : Nat} (hn : n < 16) {k : Nat} (hk : k < 16) : O.CTU_CAP_TS n + k < O.IRQ_PEND 0 := by
  simp only [O.CTU_CAP_TS, O.IRQ_PEND]
  omega

/-- The stamp of capture `n` as the edge at time `t` leaves it, its status bits apart. -/
def State.stamped (s : State) (n t : Nat) (rising : Bool) : State :=
  (s.fsets [(F.CTU_CAP_TS.LEVEL n, b2n rising), (F.CTU_CAP_TS.FRAC n, timeFrac t), (F.CTU_CAP_TS.NS n, timeNs t)]).wr64
    (O.CTU_CAP_TS n + 8) (timeSec t)

theorem State.stamped_fields (s : State) (n t : Nat) (rising : Bool) :
    (s.stamped n t rising).fget (F.CTU_CAP_TS.NS n) = timeNs t ∧
    (s.stamped n t rising).fget (F.CTU_CAP_TS.FRAC n) = timeFrac t ∧
    (s.stamped n t rising).flag (F.CTU_CAP_TS.LEVEL n) = rising ∧
    (s.stamped n t rising).rd64 (O.CTU_CAP_TS n + 8) % 2 ^ 32 = timeSec t % 2 ^ 32 := by
  have hnsOff : O.CTU_CAP_TS n + 4 ≠ O.CTU_CAP_TS n := by omega
  have hword {g : Fld} (hg : g.off = O.CTU_CAP_TS n ∨ g.off = O.CTU_CAP_TS n + 4) :
      (s.stamped n t rising).fget g = (((s.fset (F.CTU_CAP_TS.LEVEL n) (b2n rising)).fset (F.CTU_CAP_TS.FRAC n) (timeFrac t)).fset
        (F.CTU_CAP_TS.NS n) (timeNs t)).fget g := by
    rw [State.stamped, State.fsets_cons, State.fsets_cons, State.fsets_cons, State.fsets_nil]
    exact State.fget_wr64_ne _ _ _ (by omega) (by omega)
  refine ⟨?_, ?_, ?_, ?_⟩
  · rw [hword (.inr rfl), State.fget_fset_self _ _ _ (by decide : 0 + 32 ≤ 32)]
    exact Nat.mod_eq_of_lt (timeNs_lt t)
  · rw [hword (.inl rfl), State.fget_fset_ne _ _ _ _ (.inl hnsOff.symm), State.fget_fset_self _ _ _ (by decide : 0 + 16 ≤ 32)]
    exact Nat.mod_eq_of_lt (timeFrac_lt t)
  · unfold State.flag
    rw [hword (.inl rfl), State.fget_fset_ne _ _ _ _ (.inl hnsOff.symm),
      State.fget_fset_ne _ _ _ _ (.inr (.inl (by decide : 0 + 16 ≤ 29))), State.fget_fset_self _ _ _ (by decide : 29 + 1 ≤ 32)]
    cases rising <;> rfl
  · rw [State.stamped, State.rd64_wr64_self]
    omega

/-- The status bits of a stamp after a taken edge: VALID, and OVERRUN where the stamp before was still valid. -/
def State.capMarked (s : State) (n : Nat) (was : Bool) : State :=
  let s := s.setFlag (F.CTU_CAP_TS.VALID n) (srcCap s.cfg n)
  if was then s.setFlag (F.CTU_CAP_TS.OVERRUN n) (srcCap s.cfg n + 1) else s

theorem State.capMarked_lowWords (s : State) (n : Nat) (was : Bool) : LowWords s (s.capMarked n was) [O.CTU_CAP_TS n] := by
  have hv := s.setFlag_lowWords (F.CTU_CAP_TS.VALID n) (srcCap s.cfg n)
  exact .ite (hv.trans (State.setFlag_lowWords _ _ _)) hv

/-- Below the status bits the stamp's first word stays. -/
theorem State.fget_capMarked (s : State) {n : Nat} (hn : n < 16) (was : Bool) {g : Fld} (ho : g.off = O.CTU_CAP_TS n)
    (hg : g.lo + g.wd ≤ 30) : (s.capMarked n was).fget g = s.fget g := by
  have hl : g.off < O.IRQ_PEND 0 := ho ▸ capWord_low hn (by decide : 0 < 16)
  have hbeside {lo : Nat} (hlo : 30 ≤ lo) : Fld.Beside ⟨O.CTU_CAP_TS n, lo, 1⟩ g := .inr (.inr (hg.trans hlo))
  have hvalid := s.fget_setFlag_beside (srcCap s.cfg n) hl (hbeside (by decide : 30 ≤ 31))
  cases was
  · exact hvalid
  · exact (State.fget_setFlag_beside _ _ hl (hbeside (by decide : 30 ≤ 30))).trans hvalid

theorem State.flags_capMarked (s : State) {n : Nat} (hn : n < 16) (was : Bool) :
    (s.capMarked n was).flag (F.CTU_CAP_TS.VALID n) = true ∧
    (was = true → (s.capMarked n was).flag (F.CTU_CAP_TS.OVERRUN n) = true) := by
  have hl : O.CTU_CAP_TS n < O.IRQ_PEND 0 := capWord_low hn (by decide : 0 < 16)
  have hvalid := s.flag_setFlag_self (f := F.CTU_CAP_TS.VALID n) (srcCap s.cfg n) hl (by decide : 31 + 1 ≤ 32) (by decide : 1 < 2 ^ 1)
  cases was
  · exact ⟨hvalid, fun h => absurd h Bool.false_ne_true⟩
  · refine ⟨(State.flag_setFlag_beside _ _ hl ?_).trans hvalid,
      fun _ => State.flag_setFlag_self _ _ hl (by decide : 30 + 1 ≤ 32) ?_⟩
    · exact .inr (.inl (by decide : 30 + 1 ≤ 31))
    · exact (by decide : 1 < 2 ^ 1)

theorem captures_edge {s : State} {n : Nat} {rising : Bool} (clr : Bool) (hn : n < 16) (ht : s.capTakes n rising = true)
    (hr : s.tbRuns (s.cfg.halfOfCap n) = true) :
    ∃ t, exec (.captureEdge n rising clr) s = .next t ∧ t.flag (F.CTU_CAP_TS.VALID n) = true ∧
      t.fget (F.CTU_CAP_TS.NS n) = timeNs (s.tb (s.cfg.halfOfCap n)).t ∧
      t.fget (F.CTU_CAP_TS.FRAC n) = timeFrac (s.tb (s.cfg.halfOfCap n)).t ∧
      t.flag (F.CTU_CAP_TS.LEVEL n) = rising ∧
      t.rd64 (O.CTU_CAP_TS n + 8) % 2 ^ 32 = timeSec (s.tb (s.cfg.halfOfCap n)).t % 2 ^ 32 ∧
      (s.flag (F.CTU_CAP_TS.VALID n) = true → t.flag (F.CTU_CAP_TS.OVERRUN n) = true) := by
  let c := if clr then s.fset (F.CTU_CAP_TS.VALID n) 0 else s
  let u := c.stamped n (s.tb (s.cfg.halfOfCap n)).t rising
  have hx : exec (.captureEdge n rising clr) s = .next (u.capMarked n (s.flag (F.CTU_CAP_TS.VALID n))) := if_pos ⟨ht, hr⟩
  obtain ⟨hns, hfrac, hlevel, hsec⟩ := c.stamped_fields n (s.tb (s.cfg.halfOfCap n)).t rising
  obtain ⟨hvalid, hover⟩ := u.flags_capMarked hn (s.flag (F.CTU_CAP_TS.VALID n))
  have hword {k : Nat} (h0 : O.CTU_CAP_TS n < k) (hk : k < O.CTU_CAP_TS n + 16) :
      (u.capMarked n (s.flag (F.CTU_CAP_TS.VALID n))).rd k = u.rd k := by
    refine u.capMarked_lowWords n _ k ?_ (by simp; omega)
    have := capWord_low hn (by decide : 15 < 16)
    omega
  refine ⟨_, hx, hvalid, ?_, ?_, ?_, ?_, hover⟩
  · rw [← hns]
    exact congrArg (getBits · 0 32) (hword (k := O.CTU_CAP_TS n + 4) (by omega) (by omega))
  · rw [← hfrac]
    exact u.fget_capMarked hn _ rfl (by decide : 0 + 16 ≤ 30)
  · rw [← hlevel]
    exact congrArg (fun v => decide (v ≠ 0)) (u.fget_capMarked hn _ rfl (by decide : 29 + 1 ≤ 30))
  · rw [← hsec, State.rd64_congr (hword (by omega) (by omega)) (hword (by omega) (by omega))]

theorem captures_notTaken {s : State} {n : Nat} {rising : Bool} (h : s.capTakes n rising = false) :
    exec (.captureEdge n rising false) s = .next s := by
  have hne : ¬ (s.capTakes n rising = true ∧ s.tbRuns (s.cfg.halfOfCap n) = true) := by simp [h]
  exact (if_neg hne).trans (if_neg Bool.false_ne_true)

/-- Words latched one after another are each held. -/
theorem State.held_latchNext (s : State) (key : Nat) {k i : Nat} (hi : i < k) :
    (s.latchNext key k).held (key + 4 + 4 * i) = s.rd (key + 4 + 4 * i) := by
  have hfind : KMap.find? (s.latchNext key k).hold (key + 4 + 4 * i) = some (s.rd (key + 4 + 4 * i)) := by
    simp only [State.latchNext, State.setHold_hold]
    induction k with
    | zero => omega
    | succ k ih =>
      rw [List.range_succ, List.foldl_append, List.foldl_cons, List.foldl_nil]
      by_cases h : i = k
      · rw [h, KMap.find?_insert_self]
      · rw [KMap.find?_insert_ne _ _ (by omega), ih (by omega)]
  rw [State.held, hfind, Option.getD_some]

theorem captures_read {s : State} {n key : Nat} (ho : s.Opens (ctuOff (s.cfg.halfOfCap n) (O.CTU_CAP_TS n)) key) :
    ∃ t, exec (.captureTsRead 0 n) s = .next t ∧ t.slv = some ⟨false, BitVec.ofNat 64 (s.rd (O.CTU_CAP_TS n)).toNat⟩ ∧
      ∀ i, i < 3 → t.held (O.CTU_CAP_TS n + 4 + 4 * i) = s.rd (O.CTU_CAP_TS n + 4 + 4 * i) := by
  have hrun : (s.answer false 0).tbStopped key = false := ho.tbStopped
  refine ⟨_, congrArg Host.Outcome.next (ho.1.access _), ?_⟩
  rw [hrun, if_neg Bool.false_ne_true]
  exact ⟨rfl, fun i hi => (s.answer false 0).held_latchNext (O.CTU_CAP_TS n) hi⟩

/-- Settles O13: a snapshot's words, the stamp of a taken edge, and what a read of each latches. -/
theorem snapshotsAndCaptures : Obligations.SnapshotsAndCaptures :=
  ⟨fun _ _ _ data _ ho hd => snapshots_latch data ho hd, fun _ _ _ _ ho => snapshots_read ho,
    fun _ _ _ clr hn ht hr => captures_edge clr hn ht hr, fun _ _ _ h => captures_notTaken h,
    fun _ _ _ _ ho => captures_read ho⟩

end Sys2Proof.Machine

namespace Sys2Proof.Machine

/-! ## Trigger outputs (03_time_and_cycles.md R90 to R93) -/

theorem trigStat_low {n : Nat} (hn : n < 32) : O.CTU_TRIG_STAT n < O.IRQ_PEND 0 := by
  simp only [O.CTU_TRIG_STAT, O.IRQ_PEND]
  omega

section
variable (s : State) (n : Nat)

theorem State.checkTrig_lowWords : LowWords s (s.checkTrig n) [O.CTU_TRIG_STAT n] :=
  .ite (.refl s _) (s.setFlag_lowWords _ _)

theorem State.driveTrig_lowWords (v : Trig) (ks : List Nat) : LowWords s (s.driveTrig n v) ks :=
  (State.driveTrig_keeps (Keeps.refl (ar := [.out, .trigs]) s) n v (Allows.refl _)).lowWords (by decide) (by decide) ks

/-- Of the register words only the trigger's status shows that a pulse has been cut. -/
theorem State.syncTrig_lowWords : LowWords s (s.syncTrig n) [O.CTU_TRIG_STAT n] :=
  .ite (s.driveTrig_lowWords n _ _) <| .ite (.ite (.refl s _) (s.driveTrig_lowWords n _ _)) <|
    .ite ((s.driveTrig_lowWords n _ _).trans (State.setFlag_lowWords _ _ _)) (s.driveTrig_lowWords n _ _)

@[simp] theorem State.trig_driveTrig_self (v : Trig) : (s.driveTrig n v).trig n = v := by
  unfold State.driveTrig
  dsimp only
  split <;> exact s.trig_setTrig_self n v

/-- An output that changes its level shows it. -/
theorem State.out_driveTrig {v : Trig} (h : (s.trig n).level ≠ v.level) : (s.driveTrig n v).out = s.out ++ [.trig n v.level] := by
  unfold State.driveTrig
  rw [if_neg (Ne.symm h)]
  rfl

/-- A status bit of a trigger beside CUT. -/
theorem State.flag_syncTrig {n : Nat} (hn : n < 32) {g : Fld} (ho : g.off = O.CTU_TRIG_STAT n) (hb : (F.CTU_TRIG_STAT.CUT n).Beside g) :
    (s.syncTrig n).flag g = s.flag g := by
  have hl : g.off < O.IRQ_PEND 0 := ho ▸ trigStat_low hn
  have hdrive (v : Trig) : (s.driveTrig n v).flag g = s.flag g := (s.driveTrig_lowWords n v []).flag g hl List.not_mem_nil
  unfold State.syncTrig
  dsimp only
  split_ifs
  · exact hdrive _
  · rfl
  · exact hdrive _
  · exact (State.flag_setFlag_beside _ _ hl hb).trans (hdrive _)
  · exact hdrive _

/-- An output that its mode, its enable and its setting let run does so (R90, R91, R93). -/
theorem State.running_syncTrig {s : State} {n : Nat} (h : s.trigRuns n = true) : ((s.syncTrig n).trig n).running = true := by
  have hmode : s.hmode (s.cfg.halfOfTrig n) ≠ 0 := by
    intro h0
    simp [State.trigRuns, State.trigMode, h0] at h
  unfold State.syncTrig
  rw [if_neg hmode, if_pos h]
  split
  · assumption
  · rw [State.trig_driveTrig_self]

theorem State.bindErr_checkTrig {s : State} {n : Nat} (hn : n < 32) (h : s.trigOk n = false) :
    (s.checkTrig n).flag (F.CTU_TRIG_STAT.BIND_ERR n) = true := by
  unfold State.checkTrig
  rw [h, if_neg Bool.false_ne_true]
  exact s.flag_setFlag_self _ (trigStat_low hn) (by decide : 2 + 1 ≤ 32) (by decide : 1 < 2 ^ 1)

/-- What makes a setting correct and an output run stands in other words than the trigger's status. -/
theorem LowWords.trigRuns {s t : State} {n : Nat} (h : LowWords s t [O.CTU_TRIG_STAT n]) (hc : t.cfg = s.cfg) (hn : n < 32) :
    t.trigOk n = s.trigOk n ∧ t.trigRuns n = s.trigRuns n := by
  have hget {g : Fld} (hg : g.off < 0x0FA000 ∧ g.off % 16 ≠ 12) : t.fget g = s.fget g := by
    obtain ⟨hl, hm⟩ := hg
    refine h.fget g hl ?_
    simp only [O.CTU_TRIG_STAT, List.mem_singleton]
    omega
  have hgen : t.fget (F.CTU_TRIG_CFG.GEN n) = s.fget (F.CTU_TRIG_CFG.GEN n) :=
    hget (by simp only [F.CTU_TRIG_CFG.GEN, O.CTU_TRIG_CFG]; omega)
  have hen : t.fget (F.CTU_TRIG_CFG.EN n) = s.fget (F.CTU_TRIG_CFG.EN n) :=
    hget (by simp only [F.CTU_TRIG_CFG.EN, O.CTU_TRIG_CFG]; omega)
  have hofs : t.fget (F.CTU_TRIG_OFS.OFS n) = s.fget (F.CTU_TRIG_OFS.OFS n) :=
    hget (by simp only [F.CTU_TRIG_OFS.OFS, O.CTU_TRIG_OFS]; omega)
  have hwidth : t.fget (F.CTU_TRIG_WIDTH.WIDTH n) = s.fget (F.CTU_TRIG_WIDTH.WIDTH n) :=
    hget (by simp only [F.CTU_TRIG_WIDTH.WIDTH, O.CTU_TRIG_WIDTH]; omega)
  have hperiod {g : Nat} (hg : g < 8) : t.fget (F.CTU_GEN_PERIOD.PERIOD g) = s.fget (F.CTU_GEN_PERIOD.PERIOD g) :=
    hget (by simp only [F.CTU_GEN_PERIOD.PERIOD, O.CTU_GEN_PERIOD]; omega)
  have hmode (k : Nat) : t.hmode k = s.hmode k := by
    unfold State.hmode modeCopy
    split <;> exact hget (by decide)
  have hjoined : t.fget (tbFld F.TB_STAT.JOINED (s.cfg.halfOfTrig n)) = s.fget (tbFld F.TB_STAT.JOINED (s.cfg.halfOfTrig n)) := by
    have hlt := Cfg.halfOfTrig_lt s.cfg hn
    exact hget (by simp only [tbFld_off, F.TB_STAT.JOINED, O.TB_STAT, tbOfs]; omega)
  have hok : t.trigOk n = s.trigOk n := by
    unfold State.trigOk
    dsimp only
    rw [hc, hgen, hofs, hwidth, hperiod (s.fget_lt (F.CTU_TRIG_CFG.GEN n))]
  refine ⟨hok, ?_⟩
  unfold State.trigRuns State.trigMode State.flag
  rw [hc, hok, hen, hmode, hjoined]

end

/-- A write of a trigger's setting is checked, and a setting that may run runs (R90, R91). -/
theorem State.trigWrite_spec (s : State) {n : Nat} (hn : n < 32) (key : Nat) (data : Word) :
    ((s.trigWrite n key data).trigOk n = false → (s.trigWrite n key data).flag (F.CTU_TRIG_STAT.BIND_ERR n) = true) ∧
    ((s.trigWrite n key data).trigRuns n = true → ((s.trigWrite n key data).trig n).running = true) := by
  let w := s.writeFields key data
  let c := w.checkTrig n
  let u := c.syncTrig n
  have hsync : LowWords u (u.dicSync key) [] := fun k hk _ => by
    refine State.dicSync_onlyWords u key k ?_
    simp only [O.IRQ_PEND, O.DIC_STAT, List.mem_singleton] at *
    omega
  have htrig : (u.dicSync key).trig n = u.trig n :=
    (State.dicSync_keeps (Keeps.refl (ar := [.regs, .dic]) u) key (Allows.refl _)).trig (by decide) n
  have hcfg : u.cfg = c.cfg ∧ c.cfg = w.cfg ∧ (u.dicSync key).cfg = u.cfg :=
    ⟨(State.syncTrig_keeps (Keeps.refl (ar := [.regs, .out, .trigs]) c) n (Allows.refl _)).1 .cfg (by decide),
      (State.checkTrig_keeps (Keeps.refl (ar := [.regs]) w) n (Allows.refl _)).1 .cfg (by decide),
      (State.dicSync_keeps (Keeps.refl (ar := [.regs, .dic]) u) key (Allows.refl _)).1 .cfg (by decide)⟩
  obtain ⟨hu, hc, hd⟩ := hcfg
  have hcw : c.trigOk n = w.trigOk n := (LowWords.trigRuns (w.checkTrig_lowWords n) hc hn).1
  obtain ⟨hok, hruns⟩ := LowWords.trigRuns ((c.syncTrig_lowWords n).trans (hsync.mono (by simp))) (hd.trans hu) hn
  constructor
  · intro h
    have hbind := State.bindErr_checkTrig hn (hcw.symm.trans (hok.symm.trans h))
    have hbeside : (F.CTU_TRIG_STAT.CUT n).Beside (F.CTU_TRIG_STAT.BIND_ERR n) := .inr (.inl (by decide : 1 + 1 ≤ 2))
    exact (hsync.flag (F.CTU_TRIG_STAT.BIND_ERR n) (trigStat_low hn) List.not_mem_nil).trans
      ((c.flag_syncTrig hn rfl hbeside).trans hbind)
  · intro h
    exact (congrArg Trig.running htrig).trans (State.running_syncTrig (hruns.symm.trans h))

theorem triggers_config {s : State} {n which key : Nat} (data : Word) (hn : n < 32)
    (ho : s.Opens (ctuOff (s.cfg.halfOfTrig n) (trigWord n which)) key) :
    ∃ t, exec (.triggerConfigWrite 0 n which data) s = .next t ∧
      (t.trigOk n = false → t.flag (F.CTU_TRIG_STAT.BIND_ERR n) = true) ∧
      (t.trigRuns n = true → (t.trig n).running = true) :=
  ⟨_, congrArg Host.Outcome.next (ho.writeAcc data _), State.trigWrite_spec _ hn key data⟩

/-- The output has risen to `v`; OVERLAP shows a pulse that was still in progress (R92). -/
def State.risen (s : State) (n : Nat) (v : Trig) : State :=
  if (s.trig n).pulse.isSome then (s.driveTrig n v).setFlag (F.CTU_TRIG_STAT.OVERLAP n) (srcTrig s.cfg n) else s.driveTrig n v

@[simp] theorem State.trig_risen_self (s : State) (n : Nat) (v : Trig) : (s.risen n v).trig n = v := by
  unfold State.risen
  split
  · rw [State.trig_setFlag, State.trig_driveTrig_self]
  · exact s.trig_driveTrig_self n v

theorem State.out_risen (s : State) {n : Nat} {v : Trig} (h : (s.trig n).level ≠ v.level) :
    (s.risen n v).out = s.out ++ [.trig n v.level] := by
  unfold State.risen
  split
  · rw [State.setFlag_out, s.out_driveTrig n h]
  · exact s.out_driveTrig n h

theorem State.overlap_risen {s : State} {n : Nat} (hn : n < 32) (v : Trig) (h : (s.trig n).pulse.isSome = true) :
    (s.risen n v).flag (F.CTU_TRIG_STAT.OVERLAP n) = true := by
  unfold State.risen
  rw [if_pos h]
  exact State.flag_setFlag_self _ _ (trigStat_low hn) (by decide : 0 + 1 ≤ 32) (by decide : 1 < 2 ^ 1)

theorem exec_triggerRise_due {s : State} {n : Nat} {r : Rise}
    (hr : dueRise (s.tb (s.cfg.halfOfTrig n)).t (s.trig n).rises = some r) :
    ∃ v : Trig, exec (.triggerRise n) s = .next (s.risen n v) ∧ v.level = r.act ∧ v.pulse.isSome = true ∧
      v.rises = (s.trig n).rises.erase r := by
  change ∃ v : Trig, execTriggerRise n s = _ ∧ _
  unfold execTriggerRise
  dsimp only
  rw [hr]
  exact ⟨_, rfl, rfl, rfl, rfl⟩

theorem triggers_rise {s : State} {n : Nat} {r : Rise} (hn : n < 32)
    (hr : dueRise (s.tb (s.cfg.halfOfTrig n)).t (s.trig n).rises = some r) :
    ∃ t, exec (.triggerRise n) s = .next t ∧ (t.trig n).level = r.act ∧ (t.trig n).pulse.isSome = true ∧
      (t.trig n).rises = (s.trig n).rises.erase r ∧
      ((s.trig n).level ≠ r.act → t.out = s.out ++ [.trig n r.act]) ∧
      ((s.trig n).pulse.isSome = true → t.flag (F.CTU_TRIG_STAT.OVERLAP n) = true) := by
  obtain ⟨v, hx, hlevel, hpulse, hrises⟩ := exec_triggerRise_due hr
  rw [← hlevel, ← hrises]
  exact ⟨_, hx, by rw [State.trig_risen_self], by rwa [State.trig_risen_self], by rw [State.trig_risen_self],
    s.out_risen, State.overlap_risen hn v⟩

theorem triggers_fall {s : State} {n stop : Nat} (hp : (s.trig n).pulse = some stop)
    (hs : stop ≤ (s.tb (s.cfg.halfOfTrig n)).el) :
    ∃ t, exec (.triggerFall n) s = .next t ∧ (t.trig n).level = (s.trig n).pol ∧ (t.trig n).pulse = none := by
  have hx : exec (.triggerFall n) s = .next (s.driveTrig n { s.trig n with level := (s.trig n).pol, pulse := none }) := by
    change execTriggerFall n s = _
    unfold execTriggerFall
    dsimp only
    rw [hp]
    exact if_pos hs
  exact ⟨_, hx, by rw [State.trig_driveTrig_self], by rw [State.trig_driveTrig_self]⟩

/-! ### PPS (R83, R84) -/

theorem pps_start {s : State} (h : s.pps.due = true) :
    ∃ t, exec .ppsPulseStart s = .next t ∧ t.pps.high = true ∧
      t.pps.stop = (s.tb s.pps.drv).el + min (max 1 (s.fget (tbFld F.TB_PPS.WIDTH s.pps.drv))) 999999 * 1000 * 2 ^ 40 ∧
      t.pps.due = false ∧ (s.pps.high = false → t.out = s.out ++ [.pps true]) := by
  refine ⟨_, if_pos h, ?_⟩
  cases hh : s.pps.high
  · rw [if_neg Bool.false_ne_true]
    exact ⟨rfl, rfl, rfl, fun _ => rfl⟩
  · rw [if_pos rfl]
    exact ⟨rfl, rfl, rfl, fun hf => nomatch hf⟩

theorem pps_end {s : State} (hh : s.pps.high = true) (hs : s.pps.stop ≤ (s.tb s.pps.half).el) :
    ∃ t, exec .ppsPulseEnd s = .next t ∧ t.pps.high = false ∧ t.out = s.out ++ [.pps false] :=
  ⟨_, if_pos ⟨hh, hs⟩, rfl, rfl⟩

/-- Settles O15: a trigger's setting, its rise and its fall, and the two ends of a pulse of PPS_OUT. -/
theorem triggersAndPps : Obligations.TriggersAndPps :=
  ⟨fun _ _ _ _ data hn ho => triggers_config data hn ho, fun _ _ _ hn hr => triggers_rise hn hr,
    fun _ _ _ hp hs => triggers_fall hp hs, fun _ h => pps_start h, fun _ hh hs => pps_end hh hs⟩

end Sys2Proof.Machine

namespace Sys2Proof.Machine

/-! ## Setting, stepping and the rate of the leader's time base (03_time_and_cycles.md R67 to R76) -/

/-! ### What the steps of a change leave -/

section
variable (s : State) (h : Nat)

/-- The status words of the generators: what re-anchoring writes below the pending words. -/
def genStats : List Nat := (List.range 8).map O.CTU_GEN_STAT

theorem State.ppsMark_lowWords (t t' : Nat) (ks : List Nat) : LowWords s (s.ppsMark h t t') ks :=
  (State.ppsMark_keeps (Keeps.refl (ar := [.pps]) s) h t t' (Allows.refl _)).lowWords (by decide) (by decide) ks

theorem State.reanchor_lowWords (isSet : Bool) (n : Nat) : LowWords s (s.reanchor isSet n) [O.CTU_GEN_STAT n] := by
  unfold State.reanchor
  exact .ite (LowWords.trans (fun _ _ _ => State.rd_setGen _ _ _ _) (State.setFlag_lowWords _ _ _)) (.refl s _)

theorem State.newTime_lowWords (t : Nat) (isSet : Bool) : LowWords s (s.newTime h t isSet) genStats := by
  refine LowWords.trans (LowWords.trans (fun _ _ _ => State.rd_setTb _ _ _ _) (State.ppsMark_lowWords _ h _ t _)) (.forEach ?_ _)
  intro n hn u
  exact (u.reanchor_lowWords isSet n).mono (by simpa [genStats] using ⟨n, by simpa using (List.mem_filter.mp hn).1, rfl⟩)

/-- A new time changes the time alone of the half's time base. -/
theorem State.tb_newTime (t : Nat) (isSet : Bool) (n : Nat) :
    (s.newTime h t isSet).tb n = (s.setTb h { s.tb h with t := t }).tb n := by
  have hp := Allows.refl [Area.regs, Area.pps, Area.gens]
  exact (State.reanchorHalf_keeps (State.ppsMark_keeps (.refl _) h _ t) h isSet : Keeps [.regs, .pps, .gens] _ _).tb (by decide) n

theorem State.sendFollow_lowWords (c : Follow) (ks : List Nat) : LowWords s (s.sendFollow h c) ks :=
  (State.sendFollow_keeps (Keeps.refl (ar := [.tbs]) s) h c (Allows.refl _)).lowWords (by decide) (by decide) ks

/-- What is sent to the other half leaves the half's own time base. -/
theorem State.tb_sendFollow {h : Nat} (hh : h < 2) (c : Follow) : (s.sendFollow h c).tb h = s.tb h := by
  unfold State.sendFollow
  split
  · exact s.tb_setTb_ne _ (by omega)
  · rfl

theorem State.tbRate_congr {s t : State} {h : Nat} (hr : t.rd (O.TB_RATE + tbOfs h) = s.rd (O.TB_RATE + tbOfs h)) :
    t.tbRate h = s.tbRate h := congrArg BitVec.toInt hr

end

/-! ### Words of a half -/

/-- No generator's status is a word of the halves' own time-base registers. -/
theorem tbOfs_notMem_genStats (h : Nat) {k : Nat} (h0 : 0x0C0000 ≤ k) (hk : k < 0x0C1000) : k + tbOfs h ∉ genStats := by
  intro hmem
  obtain ⟨n, hn, he⟩ := List.mem_map.mp hmem
  rw [List.mem_range] at hn
  simp only [O.CTU_GEN_STAT, tbOfs] at he
  omega

/-- A status bit of TB_STAT just set. -/
theorem State.flag_tbStat {h : Nat} (hh : h < 2) (s : State) {f : Fld} (ho : f.off = O.TB_STAT) (hlo : f.lo < 32) (hw : f.wd = 1)
    (src : Nat) :
    (s.setFlag (tbFld f h) src).flag (tbFld f h) = true := by
  refine s.flag_setFlag_self src (tbOfs_low hh ?_) ?_ ?_
  · rw [ho]
    decide
  · rw [tbFld_lo, tbFld_wd]
    omega
  · rw [tbFld_wd, hw]
    decide

/-! ### A half that does not lead (R70, R71) -/

section
variable {s : State} {h key : Nat} (data : Word) (hh : h < 2)
include hh

theorem State.tbIgnored_spec (s : State) : (s.tbIgnored h).tbs = s.tbs ∧ (s.tbIgnored h).tbRate h = s.tbRate h ∧
    (s.tbIgnored h).flag (tbFld F.TB_STAT.WR_IGN h) = true := by
  refine ⟨s.setFlag_tbs _ _, State.tbRate_congr ?_, s.flag_tbStat hh rfl (by decide) rfl _⟩
  refine s.setFlag_lowWords _ _ _ (tbOfs_low hh (by decide)) ?_
  rw [List.mem_singleton, tbFld_off, Nat.add_right_cancel_iff]
  decide

variable (hl : s.leader ≠ h)
include hl

omit hh in
theorem State.tbOwned_eq_false : s.tbOwned h = false := decide_eq_false hl

theorem timeBase_setIgnored (ho : s.Opens (O.TB_SET + tbOfs h + 12) key) :
    ∃ t, exec (.tbSetWrite 0 h data) s = .next t ∧ t.tbs = s.tbs ∧ t.flag (tbFld F.TB_STAT.WR_IGN h) = true := by
  have heq : (s.answer false 0).tbSetHigh h data = (s.answer false 0).tbIgnored h := if_pos (State.tbOwned_eq_false hl)
  obtain ⟨htbs, -, hign⟩ := State.tbIgnored_spec hh (s.answer false 0)
  exact ⟨_, congrArg Host.Outcome.next ((ho.writeAcc data _).trans heq), htbs, hign⟩

theorem timeBase_stepIgnored (ho : s.Opens (O.TB_STEP + tbOfs h + 4) key) :
    ∃ t, exec (.tbStepWrite 0 h data false false false) s = .next t ∧ t.tbs = s.tbs ∧ t.flag (tbFld F.TB_STAT.WR_IGN h) = true := by
  have heq : (s.answer false 0).tbStepMeets h data false false false = (s.answer false 0).tbIgnored h :=
    if_pos (State.tbOwned_eq_false hl)
  obtain ⟨htbs, -, hign⟩ := State.tbIgnored_spec hh (s.answer false 0)
  exact ⟨_, congrArg Host.Outcome.next ((ho.writeAcc data _).trans heq), htbs, hign⟩

theorem timeBase_rateIgnored (ho : s.Opens (O.TB_RATE + tbOfs h) key) :
    ∃ t, exec (.tbRateWrite 0 h data) s = .next t ∧ t.tbs = s.tbs ∧ t.tbRate h = s.tbRate h ∧
      t.flag (tbFld F.TB_STAT.WR_IGN h) = true := by
  have heq : (s.answer false 0).tbRateWrite h data = (s.answer false 0).tbIgnored h :=
    if_pos (.inl (State.tbOwned_eq_false hl))
  obtain ⟨htbs, hrate, hign⟩ := State.tbIgnored_spec hh (s.answer false 0)
  exact ⟨_, congrArg Host.Outcome.next ((ho.writeAcc data _).trans heq), htbs, hrate, hign⟩

end

/-! ### TB_SET (R72) -/

/-- The time that TB_SET loads with the highest word `data`. -/
def State.setTime (s : State) (h : Nat) (data : Word) : Nat :=
  ((s.tbSetWord h 2 + 2 ^ 32 * getBits data 0 16) * 1000000000 + s.tbSetWord h 1) * 2 ^ 40 + s.tbSetWord h 0 % 65536 * 2 ^ 24

section
variable {s : State} {h : Nat} (data : Word) (hh : h < 2) (hl : s.leader = h) (hm : s.mode = 2)
include hh hl hm

theorem State.tbSetHigh_taken (hns : s.tbSetWord h 1 ≤ 999999999) :
    (s.tbSetHigh h data).flag (tbFld F.TB_STAT.SET_DONE h) = true ∧ ((s.tbSetHigh h data).tb h).t = s.setTime h data := by
  have hown : s.tbOwned h = true := decide_eq_true hl
  unfold State.tbSetHigh
  extract_lets key ns s1 sec frac s2 s3 s4
  rw [if_neg (by simp [hown]), if_neg (not_not.mpr hm), if_neg (Nat.not_lt.mpr hns)]
  constructor
  · rw [(s4.sendFollow_lowWords h _ []).flag _ (tbOfs_low hh (by decide)) List.not_mem_nil]
    exact State.flag_fset_self _ _ _ (by decide : 0 + 1 ≤ 32)
  · rw [s4.tb_sendFollow hh, State.tb_fset, State.time_newTime]
    rfl

theorem State.tbSetHigh_refused (hns : 999999999 < s.tbSetWord h 1) :
    (s.tbSetHigh h data).flag (tbFld F.TB_STAT.SET_ERR h) = true ∧ (s.tbSetHigh h data).tbs = s.tbs := by
  have hown : s.tbOwned h = true := decide_eq_true hl
  unfold State.tbSetHigh
  extract_lets key ns s1 sec frac s2 s3 s4
  rw [if_neg (by simp [hown]), if_neg (not_not.mpr hm), if_pos hns]
  exact ⟨s1.flag_tbStat hh rfl (by decide) rfl _, s1.setFlag_tbs _ _⟩

end

theorem timeBase_set {s : State} {h key : Nat} (data : Word) (hh : h < 2) (ho : s.Opens (O.TB_SET + tbOfs h + 12) key)
    (hl : s.leader = h) (hm : s.mode = 2) :
    let ns := (s.stagedWord (O.TB_SET + tbOfs h + 4)).toNat
    (ns ≤ 999999999 →
      ∃ t, exec (.tbSetWrite 0 h data) s = .next t ∧ t.flag (tbFld F.TB_STAT.SET_DONE h) = true ∧
        (t.tb h).t = (((s.stagedWord (O.TB_SET + tbOfs h + 8)).toNat + 2 ^ 32 * getBits data 0 16) * 1000000000 + ns) * 2 ^ 40 +
          (s.stagedWord (O.TB_SET + tbOfs h)).toNat % 65536 * 2 ^ 24) ∧
    (999999999 < ns →
      ∃ t, exec (.tbSetWrite 0 h data) s = .next t ∧ t.flag (tbFld F.TB_STAT.SET_ERR h) = true ∧ t.tbs = s.tbs) := by
  have hx : exec (.tbSetWrite 0 h data) s = .next ((s.answer false 0).tbSetHigh h data) :=
    congrArg Host.Outcome.next (ho.writeAcc data _)
  have hl' : (s.answer false 0).leader = h := hl
  have hm' : (s.answer false 0).mode = 2 := hm
  exact ⟨fun hns => ⟨_, hx, State.tbSetHigh_taken data hh hl' hm' hns⟩,
    fun hns => ⟨_, hx, State.tbSetHigh_refused data hh hl' hm' hns⟩⟩

/-! ### TB_RATE (R68) -/

theorem clampInt_eq {lo hi : Int} (h : lo ≤ hi) (i : Int) : clampInt lo hi i = max lo (min hi i) := by
  unfold clampInt
  split_ifs <;> omega

theorem toInt_ofInt {i : Int} (hlo : -(2 ^ 31) ≤ i) (hhi : i < 2 ^ 31) : (BitVec.ofInt 32 i).toInt = i := by
  rw [BitVec.toInt_ofInt]
  exact Int.bmod_eq_of_le (by omega) (by omega)

theorem State.putRate_spec (s : State) {h : Nat} (hh : h < 2) (r : Int) :
    (s.putRate h r).tbRate h = min 549755814 (max (-549755814) r) ∧
    ((r < -549755814 ∨ 549755814 < r) → (s.putRate h r).flag (tbFld F.TB_STAT.RATE_CLAMP h) = true) := by
  unfold State.putRate
  extract_lets s1 v s2
  have hsent := s2.sendFollow_lowWords h { rate := some v } []
  constructor
  · have hrd : (s2.sendFollow h { rate := some v }).rd (O.TB_RATE + tbOfs h) = v :=
      (hsent _ (tbOfs_low hh (by decide)) List.not_mem_nil).trans (s1.rd_wr_self _ v)
    have hclamp : clampInt (-rateLimit) rateLimit r = min 549755814 (max (-549755814) r) := by
      rw [clampInt_eq (by decide), rateLimit]
      omega
    rw [State.tbRate, State.rdInt, hrd, toInt_ofInt, hclamp] <;> rw [hclamp] <;> omega
  · intro hr
    rw [hsent.flag _ (tbOfs_low hh (by decide)) List.not_mem_nil, (s1.wr_lowWords _ v).flag _ (tbOfs_low hh (by decide))]
    · exact (congrArg (State.flag · _) (if_pos hr)).trans (s.flag_tbStat hh rfl (by decide) rfl _)
    · rw [List.mem_singleton, tbFld_off, Nat.add_right_cancel_iff]
      decide

theorem timeBase_rate {s : State} {h key : Nat} (data : Word) (hh : h < 2) (ho : s.Opens (O.TB_RATE + tbOfs h) key)
    (hl : s.leader = h) (hservo : s.flag (tbFld F.TB_CTL.SERVO h) = false) (hslew : s.flag F.TRK_CS_STAT.SLEWING = false) :
    ∃ t, exec (.tbRateWrite 0 h data) s = .next t ∧ t.tbRate h = min 549755814 (max (-549755814) data.toInt) ∧
      ((data.toInt < -549755814 ∨ 549755814 < data.toInt) → t.flag (tbFld F.TB_STAT.RATE_CLAMP h) = true) := by
  have hown : (s.answer false 0).tbOwned h = true := decide_eq_true hl
  have hno : ¬ ((s.answer false 0).tbOwned h = false ∨ (s.answer false 0).flag (tbFld F.TB_CTL.SERVO h) = true ∨
      (s.answer false 0).flag F.TRK_CS_STAT.SLEWING = true) := by
    simp [hown, hservo, hslew]
  exact ⟨_, congrArg Host.Outcome.next ((ho.writeAcc data _).trans (if_neg hno)), State.putRate_spec _ hh data.toInt⟩

/-! ### The follower (R70) -/

/-- The follower takes a rate of the leader, if the change holds one. -/
def State.takeRate (s : State) (h : Nat) (r : Option Word) : State :=
  match r with
  | some v => s.wr (O.TB_RATE + tbOfs h) v
  | none => s

/-- The follower takes a time value of the leader, if the change holds one. -/
def State.takeTime (s : State) (h : Nat) (c : Follow) : State :=
  match c.time with
  | some (t, el) =>
    let u := s.newTime h (t + ((s.tb (1 - h)).el - el)) c.isSet
    u.fsets
      [(tbFld F.TB_STAT.SET_DONE h, c.setDone),
       (tbFld F.TB_STAT.STEP_USED h, max c.stepUsed (u.fget (tbFld F.TB_STAT.STEP_USED h))),
       (tbFld F.TB_STAT.STEP_HW h, max c.stepHw (u.fget (tbFld F.TB_STAT.STEP_HW h)))]
  | none => s

theorem State.applyFollow_cons {s : State} {h : Nat} {c : Follow} {rest : List Follow} (hf : (s.tb h).follow = c :: rest) :
    s.applyFollow h = ((s.setTb h { s.tb h with follow := rest }).takeRate h c.rate).takeTime h c := by
  unfold State.applyFollow
  rw [hf]
  rfl

theorem State.tb_takeRate (s : State) (h n : Nat) (r : Option Word) : (s.takeRate h r).tb n = s.tb n := by
  cases r
  · rfl
  · exact s.tb_wr _ _ _

theorem State.tb_takeTime (s : State) (h : Nat) (c : Follow) :
    ((s.takeTime h c).tb h).follow = (s.tb h).follow ∧
    ∀ τ el, c.time = some (τ, el) → ((s.takeTime h c).tb h).t = τ + ((s.tb (1 - h)).el - el) := by
  unfold State.takeTime
  split
  · next τ el hc =>
    rw [State.fsets_cons, State.fsets_cons, State.fsets_cons, State.fsets_nil, State.tb_fset, State.tb_fset, State.tb_fset,
      State.tb_newTime, State.tb_setTb_self]
    refine ⟨rfl, fun τ' el' he => ?_⟩
    rw [hc] at he
    obtain ⟨rfl, rfl⟩ := Prod.mk.inj (Option.some.inj he)
    rfl
  · next hc => exact ⟨rfl, fun τ el he => nomatch hc.symm.trans he⟩

theorem State.rd_takeTime (s : State) {h : Nat} (hh : h < 2) (c : Follow) :
    (s.takeTime h c).rd (O.TB_RATE + tbOfs h) = s.rd (O.TB_RATE + tbOfs h) := by
  unfold State.takeTime
  split
  · refine (State.fsets_lowWords _ _ _ (tbOfs_low hh (by decide)) ?_).trans
      (s.newTime_lowWords h _ _ _ (tbOfs_low hh (by decide)) (tbOfs_notMem_genStats h (by decide) (by decide)))
    simp only [List.map_cons, List.map_nil, tbFld_off, List.mem_cons, Nat.add_right_cancel_iff, List.not_mem_nil]
    decide
  · rfl

theorem timeBase_follow {s : State} {c : Follow} {rest : List Follow} (hf : (s.tb (1 - s.leader)).follow = c :: rest)
    (hr : s.tbRuns (1 - s.leader) = true) :
    ∃ t, exec .followerTimeApply s = .next t ∧ (t.tb (1 - s.leader)).follow = rest ∧
      (∀ τ el, c.time = some (τ, el) → (t.tb (1 - s.leader)).t = τ + ((s.tb s.leader).el - el)) ∧
      (∀ v, c.rate = some v → t.rd (O.TB_RATE + tbOfs (1 - s.leader)) = v) := by
  have hlead : s.leader < 2 := s.fget_lt F.BLK_HALF.LEADER
  have hother : 1 - (1 - s.leader) = s.leader := by omega
  have hx : exec .followerTimeApply s = .next (s.applyFollow (1 - s.leader)) := if_pos hr
  rw [State.applyFollow_cons hf] at hx
  obtain ⟨hrest, htime⟩ := State.tb_takeTime
    ((s.setTb (1 - s.leader) { s.tb (1 - s.leader) with follow := rest }).takeRate (1 - s.leader) c.rate) (1 - s.leader) c
  refine ⟨_, hx, ?_, fun τ el hc => ?_, fun v hv => ?_⟩
  · rw [hrest, State.tb_takeRate, State.tb_setTb_self]
  · rw [htime τ el hc, State.tb_takeRate, hother, State.tb_setTb_ne _ _ (by omega)]
  · rw [State.rd_takeTime _ (by omega), hv]
    exact State.rd_wr_self _ _ _

/-! ### TB_STEP (R73, R75, R76) -/

theorem State.tickInc_eq (s : State) (h : Nat) : (s.tickInc h : Int) = 2 * 2 ^ 40 + 2 * s.tbRate h := by
  have hlo : -(2 ^ 31 : Int) ≤ s.tbRate h := BitVec.le_toInt _
  unfold State.tickInc
  omega

theorem State.stepTarget_some {s : State} {h : Nat} {ofs x : Int}
    (hx : x = ((s.tb h).t : Int) + 2 * 2 ^ 40 + 2 * s.tbRate h + ofs * 2 ^ 24) (h0 : 0 ≤ x) (h1 : x < (timeWrap : Int)) :
    s.stepTarget h ofs = some x.toNat := by
  unfold State.stepTarget
  rw [State.tickInc_eq, ← add_assoc, ← hx]
  exact if_neg (by omega)

theorem State.stepTarget_none {s : State} {h : Nat} {ofs x : Int}
    (hx : x = ((s.tb h).t : Int) + 2 * 2 ^ 40 + 2 * s.tbRate h + ofs * 2 ^ 24) (hout : x < 0 ∨ (timeWrap : Int) ≤ x) :
    s.stepTarget h ofs = none := by
  unfold State.stepTarget
  rw [State.tickInc_eq, ← add_assoc, ← hx]
  exact if_pos hout

/-- The table of R73. -/
theorem State.stepAllowed_iff (s : State) (h : Nat) :
    s.stepAllowed h = true ↔ s.flag (tbFld F.TB_STAT.STEP_USED h) = false ∧
      ((s.mode = 2 ∧ s.flag (tbFld F.TB_STAT.SET_DONE h) = true) ∨
        (s.mode = 3 ∧ ∀ n, n < s.cfg.trunks → s.flag (F.TRK_CFG.EN n) = false) ∨ s.mode = 4 ∨ s.mode = 5) := by
  have hen : s.trunkEnabled = false ↔ ∀ n, n < s.cfg.trunks → s.flag (F.TRK_CFG.EN n) = false := by
    simp [State.trunkEnabled]
  rw [← hen]
  unfold State.stepAllowed
  dsimp only
  by_cases h2 : s.mode = 2
  · rw [if_pos h2]
    simp [h2, and_comm]
  by_cases h3 : s.mode = 3
  · rw [if_neg h2, if_pos h3]
    simp [h3]
  by_cases h45 : s.mode = 4 ∨ s.mode = 5
  · rw [if_neg h2, if_neg h3, if_pos h45]
    simp [h45]
  · rw [if_neg h2, if_neg h3, if_neg h45]
    simp [h2, h3, h45]

/-- The state in which a step is taken: one in the tick of a new rate still finds the rate of before (R76). -/
def State.oldRate (s : State) (h : Nat) (rate : Bool) : State :=
  if rate then s.wr (O.TB_RATE + tbOfs h) (BitVec.ofInt 32 (s.tb h).rateWas) else s

/-- What follows a step in its tick: the new rate, and a snapshot (R76). -/
def State.afterStep (s : State) (h : Nat) (rate snap : Bool) (new : Word) : State :=
  let s := if rate then s.wr (O.TB_RATE + tbOfs h) new else s
  if snap then s.snapshot h else s

/-- The signed offset that TB_STEP holds with the high word `data` (R73). -/
def State.stepOfs (s : State) (h : Nat) (data : Word) : Int :=
  sint 64 (((KMap.find? s.stage (O.TB_STEP + tbOfs h)).getD 0).toNat + 2 ^ 32 * data.toNat)

theorem State.tbStepMeets_eq (s : State) (h : Nat) (data : Word) (rate snap : Bool) :
    s.tbStepMeets h data false rate snap =
      ((s.oldRate h rate).tbStepHigh h data).afterStep h rate snap (s.rd (O.TB_RATE + tbOfs h)) :=
  if_neg fun hs => absurd hs.1 Bool.false_ne_true

/-! #### The step itself -/

theorem State.quietTrunks_lowWords (s : State) (ks : List Nat) : LowWords s s.quietTrunks ks :=
  (State.quietTrunks_keeps (Keeps.refl (ar := [.trunks]) s) (Allows.refl _)).lowWords (by decide) (by decide) ks

theorem State.tb_quietTrunks (s : State) (n : Nat) : s.quietTrunks.tb n = s.tb n :=
  (State.quietTrunks_keeps (Keeps.refl (ar := [.trunks]) s) (Allows.refl _)).tb (by decide) n

/-- A word of TB_STAT is none of TB_RATE. -/
theorem tbStat_ne_tbRate (h : Nat) : O.TB_STAT + tbOfs h ≠ O.TB_RATE + tbOfs h := by
  rw [Ne, Nat.add_right_cancel_iff]
  decide

theorem State.applyStep_spec (s : State) {h : Nat} (hh : h < 2) (x : Nat) :
    ((s.applyStep h x false).tb h).t = x ∧ (s.applyStep h x false).flag (tbFld F.TB_STAT.STEP_USED h) = true ∧
    (s.applyStep h x false).tbRate h = s.tbRate h := by
  unfold State.applyStep
  extract_lets v s1 s2 s3 s4
  have hs4 : s4 = s3 := if_neg Bool.false_ne_true
  rw [hs4]
  have hsent : LowWords s3 (s3.sendFollow h (s3.followTime h false)).quietTrunks [] :=
    (s3.sendFollow_lowWords h _ _).trans (State.quietTrunks_lowWords _ _)
  refine ⟨?_, ?_, State.tbRate_congr ?_⟩
  · rw [State.tb_quietTrunks, State.tb_sendFollow _ hh, State.tb_fset, State.time_newTime]
  · rw [hsent.flag _ (tbOfs_low hh (by decide)) List.not_mem_nil]
    exact State.flag_fset_self _ _ _ (by decide : 1 + 1 ≤ 32)
  · rw [hsent _ (tbOfs_low hh (by decide)) List.not_mem_nil, State.rd_fset_ne _ _ _ (tbStat_ne_tbRate h).symm,
      s1.newTime_lowWords h x false _ (tbOfs_low hh (by decide)) (tbOfs_notMem_genStats h (by decide) (by decide)), State.rd_setTb]

section
variable {s : State} {h : Nat} {data : Word} (hl : s.leader = h)
include hl

theorem State.tbStepHigh_taken {x : Nat} (ht : s.stepTarget h (s.stepOfs h data) = some x) (ha : s.stepAllowed h = true) :
    s.tbStepHigh h data = (s.setStage (KMap.erase s.stage (O.TB_STEP + tbOfs h))).applyStep h x false := by
  have hown : s.tbOwned h = true := decide_eq_true hl
  unfold State.tbStepHigh
  extract_lets key low ofs s1
  have ht' : s1.stepTarget h ofs = some x := ht
  have ha' : s1.stepAllowed h = true := ha
  rw [if_neg (by simp [hown]), ht']
  exact if_pos ha'

theorem State.tbStepHigh_refused (hno : s.stepAllowed h = false ∨ s.stepTarget h (s.stepOfs h data) = none) :
    s.tbStepHigh h data = (s.setStage (KMap.erase s.stage (O.TB_STEP + tbOfs h))).setFlag (tbFld F.TB_STAT.STEP_REFUSED h)
      (srcTb s.cfg h + 3) := by
  have hown : s.tbOwned h = true := decide_eq_true hl
  unfold State.tbStepHigh
  extract_lets key low ofs s1
  rw [if_neg (by simp [hown])]
  split
  · next x hx =>
    have ha : s1.stepAllowed h = false := hno.resolve_right fun ht => nomatch ht.symm.trans hx
    exact if_neg (by simp [ha])
  · rfl

end

theorem State.stepRefused_spec (s : State) {h : Nat} (hh : h < 2) (m : KMap Word) (src : Nat) :
    ((s.setStage m).setFlag (tbFld F.TB_STAT.STEP_REFUSED h) src).tbs = s.tbs ∧
    ((s.setStage m).setFlag (tbFld F.TB_STAT.STEP_REFUSED h) src).flag (tbFld F.TB_STAT.STEP_REFUSED h) = true :=
  ⟨State.setFlag_tbs _ _ _, State.flag_tbStat hh _ rfl (by decide) rfl _⟩

/-! #### A step that meets a new rate or a snapshot -/

section
variable (s : State) (h : Nat) (rate : Bool)

theorem State.oldRate_lowWords : LowWords s (s.oldRate h rate) [O.TB_RATE + tbOfs h] := .ite (s.wr_lowWords _ _) (.refl s _)

theorem State.oldRate_keeps : Keeps [.regs] s (s.oldRate h rate) :=
  .ite (State.wr_keeps (.refl s) _ _ (Allows.refl _)) (.refl s)

theorem State.tbRate_oldRate {s : State} {h : Nat} {rate : Bool}
    (hw : rate = true → -(2 ^ 31 : Int) ≤ (s.tb h).rateWas ∧ (s.tb h).rateWas < (2 ^ 31 : Int)) :
    (s.oldRate h rate).tbRate h = if rate then (s.tb h).rateWas else s.tbRate h := by
  cases rate
  · rfl
  · obtain ⟨hlo, hhi⟩ := hw rfl
    exact (congrArg BitVec.toInt (s.rd_wr_self _ _)).trans (toInt_ofInt hlo hhi)

/-- What R73 asks for stands in other words than TB_RATE. -/
theorem State.stepAllowed_oldRate {h : Nat} (hh : h < 2) : (s.oldRate h rate).stepAllowed h = s.stepAllowed h := by
  have hw := s.oldRate_lowWords h rate
  have hc : (s.oldRate h rate).cfg = s.cfg := (s.oldRate_keeps h rate).1 .cfg (by decide)
  have hstat {f : Fld} (hf : f.off = O.TB_STAT) : (s.oldRate h rate).flag (tbFld f h) = s.flag (tbFld f h) := by
    refine hw.flag _ (tbOfs_low hh (by rw [hf]; decide)) ?_
    rw [List.mem_singleton, tbFld_off, hf]
    exact tbStat_ne_tbRate h
  have hlow {g : Fld} (hg : g.off < 0x0C0000) : (s.oldRate h rate).fget g = s.fget g := by
    refine hw.fget _ (hg.trans (by decide)) ?_
    rw [List.mem_singleton, O.TB_RATE]
    omega
  have hmode : (s.oldRate h rate).mode = s.mode := hlow (by decide)
  have hen : (s.oldRate h rate).trunkEnabled = s.trunkEnabled := by
    unfold State.trunkEnabled
    rw [hc]
    refine Bool.eq_iff_iff.mpr ?_
    rw [List.any_eq_true, List.any_eq_true]
    refine exists_congr fun n => and_congr_right fun hn => ?_
    have hlt : n < 2 := (List.mem_range.mp hn).trans_le (Cfg.trunks_le_two _)
    unfold State.flag
    rw [hlow (by simp only [F.TRK_CFG.EN, O.TRK_CFG]; omega)]
  unfold State.stepAllowed
  rw [hmode, hen, hstat rfl, hstat rfl]

theorem State.afterStep_spec {h : Nat} (hh : h < 2) (snap : Bool) (new : Word) :
    ((s.afterStep h rate snap new).tb h) = s.tb h ∧
    (s.afterStep h rate snap new).flag (tbFld F.TB_STAT.STEP_USED h) = s.flag (tbFld F.TB_STAT.STEP_USED h) ∧
    (s.afterStep h rate snap new).tbRate h = (if rate then new.toInt else s.tbRate h) ∧
    (snap = true → (s.afterStep h rate snap new).fget (tbFld F.TB_SNAP_NS.NS h) = timeNs (s.tb h).t) := by
  unfold State.afterStep
  extract_lets u
  have hu : u.tb h = s.tb h ∧ LowWords s u [O.TB_RATE + tbOfs h] ∧ u.tbRate h = if rate then new.toInt else s.tbRate h := by
    cases rate
    · exact ⟨rfl, .refl s _, rfl⟩
    · exact ⟨s.tb_wr _ _ _, s.wr_lowWords _ _, congrArg BitVec.toInt (s.rd_wr_self _ _)⟩
  obtain ⟨htb, hlow, hrate⟩ := hu
  have hused : u.flag (tbFld F.TB_STAT.STEP_USED h) = s.flag (tbFld F.TB_STAT.STEP_USED h) :=
    hlow.flag _ (tbOfs_low hh (by decide)) (by rw [List.mem_singleton]; exact tbStat_ne_tbRate h)
  have hsnap {k : Nat} (hk : k = O.TB_STAT ∨ k = O.TB_RATE) : k + tbOfs h ∉ snapWords h := by
    simp only [snapWords, List.mem_cons, Nat.add_right_cancel_iff, List.not_mem_nil]
    obtain rfl | rfl := hk <;> decide
  cases snap
  · exact ⟨htb, hused, hrate, fun hs => nomatch hs⟩
  · refine ⟨?_, ?_, ?_, fun _ => ?_⟩
    · exact (u.tb_snapshot h h).trans htb
    · exact ((u.snapshot_lowWords h).flag _ (tbOfs_low hh (by decide)) (hsnap (.inl rfl))).trans hused
    · exact (State.tbRate_congr (u.snapshot_lowWords h _ (tbOfs_low hh (by decide)) (hsnap (.inr rfl)))).trans hrate
    · rw [← htb]
      exact (u.snapshot_fields h).1

end

/-! #### The obligation's clauses -/

section
variable {s : State} {h key : Nat} (data : Word) (hh : h < 2) (ho : s.Opens (O.TB_STEP + tbOfs h + 4) key) (hl : s.leader = h)
include hh ho hl

theorem timeBase_step {rate snap : Bool} {x : Int} (ha : s.stepAllowed h = true)
    (hw : rate = true → -(2 ^ 31 : Int) ≤ (s.tb h).rateWas ∧ (s.tb h).rateWas < (2 ^ 31 : Int))
    (hx : x = ((s.tb h).t : Int) + 2 * 2 ^ 40 + 2 * (if rate then (s.tb h).rateWas else s.tbRate h) + s.stepOfs h data * 2 ^ 24)
    (h0 : 0 ≤ x) (h1 : x < (timeWrap : Int)) :
    ∃ t, exec (.tbStepWrite 0 h data false rate snap) s = .next t ∧ ((t.tb h).t : Int) = x ∧
      t.flag (tbFld F.TB_STAT.STEP_USED h) = true ∧ t.tbRate h = s.tbRate h ∧
      (snap = true → t.fget (tbFld F.TB_SNAP_NS.NS h) = timeNs (t.tb h).t) := by
  let a := s.answer false 0
  let u := a.oldRate h rate
  have hu := a.oldRate_keeps h rate
  have htb : u.tb h = s.tb h := hu.tb (by decide) h
  have hrate : u.tbRate h = if rate then (s.tb h).rateWas else s.tbRate h := State.tbRate_oldRate (s := a) hw
  have hofs : u.stepOfs h data = s.stepOfs h data := by
    have hstage : u.stage = s.stage := hu.1 .stage (by decide)
    unfold State.stepOfs
    rw [hstage]
  have hlead : u.leader = h := by
    refine ((a.oldRate_lowWords h rate).fget F.BLK_HALF.LEADER (by decide) ?_).trans hl
    rw [List.mem_singleton, O.TB_RATE]
    exact Nat.ne_of_lt (Nat.lt_add_right _ (by decide))
  have htarget : u.stepTarget h (u.stepOfs h data) = some x.toNat :=
    State.stepTarget_some (by rw [htb, hrate, hofs, hx]) h0 h1
  have hx' : exec (.tbStepWrite 0 h data false rate snap) s =
      .next ((u.tbStepHigh h data).afterStep h rate snap (s.rd (O.TB_RATE + tbOfs h))) :=
    congrArg Host.Outcome.next ((ho.writeAcc data _).trans (State.tbStepMeets_eq a h data rate snap))
  rw [State.tbStepHigh_taken hlead htarget ((a.stepAllowed_oldRate rate hh).trans ha)] at hx'
  obtain ⟨htime, hused, hkeep⟩ := State.applyStep_spec (u.setStage (KMap.erase u.stage (O.TB_STEP + tbOfs h))) hh x.toNat
  obtain ⟨htb', hused', hrate', hsnap⟩ := State.afterStep_spec ((u.setStage (KMap.erase u.stage (O.TB_STEP + tbOfs h))).applyStep h
    x.toNat false) rate hh snap (s.rd (O.TB_RATE + tbOfs h))
  refine ⟨_, hx', ?_, hused'.trans hused, ?_, fun hs => ?_⟩
  · rw [htb', htime]
    omega
  · rw [hrate', hkeep]
    cases rate <;> rfl
  · rw [htb', hsnap hs]

theorem timeBase_stepRefused (hno : s.stepAllowed h = false ∨ s.stepTarget h (s.stepOfs h data) = none) :
    ∃ t, exec (.tbStepWrite 0 h data false false false) s = .next t ∧ t.tbs = s.tbs ∧
      t.flag (tbFld F.TB_STAT.STEP_REFUSED h) = true :=
  ⟨_, congrArg Host.Outcome.next ((ho.writeAcc data _).trans (State.tbStepHigh_refused (s := s.answer false 0) hl hno)),
    State.stepRefused_spec (s.answer false 0) hh _ _⟩

theorem timeBase_stepMeetsSet (rate snap : Bool) :
    ∃ t, exec (.tbStepWrite 0 h data true rate snap) s = .next t ∧ t.tbs = s.tbs ∧
      t.flag (tbFld F.TB_STAT.STEP_REFUSED h) = true := by
  have hown : (s.answer false 0).tbOwned h = true := decide_eq_true hl
  exact ⟨_, congrArg Host.Outcome.next ((ho.writeAcc data _).trans (if_pos ⟨rfl, hown⟩)),
    State.stepRefused_spec (s.answer false 0) hh _ _⟩

end

/-- Settles O12: a set, a step, a rate, what a half that does not lead ignores, and what the follower applies. -/
theorem timeBaseWrites : Obligations.TimeBaseWrites := by
  refine ⟨fun s h key data hh ho hl hm => timeBase_set data hh ho hl hm, ?step,
    fun s h key data hh ho hl hservo hslew => timeBase_rate data hh ho hl hservo hslew,
    fun s h key data hh hl => ⟨timeBase_setIgnored data hh hl, timeBase_stepIgnored data hh hl, timeBase_rateIgnored data hh hl⟩,
    fun s c rest hf hr => timeBase_follow hf hr⟩
  case step =>
    intro s h key data hh ho hl
    refine ⟨fun rate snap ha hw h0 h1 => timeBase_step data hh ho hl ((s.stepAllowed_iff h).mpr ha) hw rfl h0 h1, fun hno => ?_,
      timeBase_stepMeetsSet data hh ho hl⟩
    refine timeBase_stepRefused data hh ho hl (hno.imp (fun ha => ?_) fun hout => State.stepTarget_none rfl hout)
    exact Bool.eq_false_iff.mpr fun h => ha ((s.stepAllowed_iff _).mp h)

end Sys2Proof.Machine

namespace Sys2Proof.Machine

/-! ## The cycle generators (03_time_and_cycles.md R86 to R88, R96) -/

/-! ### The registers of a generator -/

/-- A register of one word, or none, takes a write at once. -/
theorem State.writeFields_onlyWord {s : State} {key : Nat} (h : (hitOf s.cfg key).all (fun x => !isStaged x) = true) (d : Word) :
    OnlyWords s (s.writeFields key d) [key] := by
  cases hh : hitOf s.cfg key with
  | none =>
    unfold State.writeFields
    rw [hh]
    exact fun k _ => s.rd_deny k
  | some x =>
    rw [hh] at h
    rw [State.writeFields_flat hh (by simpa using h)]
    intro k hk
    rw [State.rd_wr_ne _ _ (List.ne_of_not_mem_cons hk)]
    split
    · exact s.rd_deny k
    · rfl

theorem genCfg_notStaged (c : Cfg) {n : Nat} (hn : n < 8) : (hitOf c (O.CTU_GEN_CFG n)).all (fun x => !isStaged x) = true := by
  have h : ∀ c ∈ [Cfg.s, Cfg.x], ∀ n < 8, (hitOf c (O.CTU_GEN_CFG n)).all (fun x => !isStaged x) = true := by decide +kernel
  exact h c (by cases c <;> decide) n hn

section
variable {n : Nat} (hn : n < 8)
include hn

/-- A generator's words lie below the pending words of the interrupts. -/
theorem genWord_low {k : Nat} (hk : k < 0x0C1040) : k + 0x40 * n < O.IRQ_PEND 0 := by
  simp only [O.IRQ_PEND]
  omega

theorem genStat_low : O.CTU_GEN_STAT n < O.IRQ_PEND 0 := genWord_low hn (by decide)

theorem State.flag_genCfgErr (s : State) : (s.genCfgErr n).flag (F.CTU_GEN_STAT.CFG_ERR n) = true :=
  s.flag_setFlag_self _ (genStat_low hn) (by decide : 0 + 1 ≤ 32) (by decide : 1 < 2 ^ 1)

theorem State.flag_syncLost (s : State) : (s.syncLost n).flag (F.CTU_GEN_STAT.SYNC_LOST n) = true :=
  s.flag_setFlag_self _ (genStat_low hn) (by decide : 2 + 1 ≤ 32) (by decide : 1 < 2 ^ 1)

end

/-! ### The first boundary (R86) -/

/-- The smallest number from `b` on with remainder `ph`. -/
theorem next_residue {p ph : Nat} (b : Nat) (hp : ph < p) :
    (b + (p + ph - b % p) % p) % p = ph ∧ (b + (p + ph - b % p) % p) < b + p := by
  have hb : b % p < p := Nat.mod_lt _ (by omega)
  refine ⟨?_, Nat.add_lt_add_left (Nat.mod_lt _ (by omega)) b⟩
  have hsum : b % p + (p + ph - b % p) = p + ph := by omega
  rw [Nat.add_mod_mod, ← Nat.mod_add_mod, hsum, Nat.add_mod_left, Nat.mod_eq_of_lt hp]

theorem State.le_genFirst (s : State) (n b : Nat) : b ≤ s.genFirst n b := by
  unfold State.genFirst
  extract_lets p ph st
  split_ifs with hbind hst
  · exact Nat.le_add_right _ _
  · omega
  · have hp : (0 : Int) < p := by
      simp only [p]
      omega
    have hdiv := Int.lt_ediv_add_one_mul_self ((b : Int) - st + p - 1) hp
    have hmul : ((b - st + p - 1) / (p : Int) + 1) * p = p * ((b - st + p - 1) / (p : Int)) + p := by ring
    omega

/-- The boundaries of a bound generator lie at the phase. -/
theorem State.genFirst_bound {s : State} {n : Nat} (b : Nat) (hb : s.flag (F.CTU_GEN_CFG.BIND n) = true)
    (hp : s.fget (F.CTU_GEN_PHASE.PHASE n) < s.fget (F.CTU_GEN_PERIOD.PERIOD n)) :
    s.genFirst n b % s.fget (F.CTU_GEN_PERIOD.PERIOD n) = s.fget (F.CTU_GEN_PHASE.PHASE n) ∧
    s.genFirst n b < b + s.fget (F.CTU_GEN_PERIOD.PERIOD n) := by
  unfold State.genFirst
  rw [if_pos hb, max_eq_right (by omega)]
  exact next_residue b hp

/-! ### An enabling write (R87) -/

/-- The generator's registers and its start after an enabling write, before its next boundary is known. -/
def State.genWritten (s : State) (n : Nat) (data : Word) : State :=
  let start := (timeSec (s.tb (s.cfg.halfOfGen n)).t / 2 ^ 32 * 2 ^ 32 + s.fget (F.CTU_GEN_START_SEC.START_SEC n)) * 1000000000 +
    s.fget (F.CTU_GEN_PHASE.PHASE n)
  (((s.writeFields (O.CTU_GEN_CFG n) data).wr (O.CTU_GEN_ACC n) 0).fset (F.CTU_GEN_STAT.RUN n) 1).setGen n { start := start }

/-- The generator runs from its first boundary after now on. -/
def State.genStarted (s : State) (n : Nat) (data : Word) : State :=
  let u := s.genWritten n data
  u.setGen n (u.genLatch n { u.gen n with next := u.genFirst n (timeT (s.tb (s.cfg.halfOfGen n)).t + 1) })

/-- The triggers that name the generator are checked and brought to what their setting asks (R91). -/
def State.genTriggers (s : State) (n : Nat) : State :=
  forEach ((List.range 32).filter (fun k => s.fget (F.CTU_TRIG_CFG.GEN k) == n)) (fun k s => (s.checkTrig k).syncTrig k) s

theorem State.genEnable_eq {s : State} {n : Nat} {data : Word} (h : s.genSetupOk n data = true) :
    s.genEnable n data = (s.genStarted n data).genTriggers n := if_pos h

theorem State.genTriggers_keeps (s : State) (n : Nat) : Keeps [.regs, .out, .trigs] s (s.genTriggers n) :=
  Keeps.forEach (.refl s) fun k _ h => State.syncTrig_keeps (State.checkTrig_keeps h k (Allows.mono (by decide) (Allows.refl _))) k
    (Allows.refl _)

/-- The status words of the triggers. -/
def trigStats : List Nat := (List.range 32).map O.CTU_TRIG_STAT

theorem State.genTriggers_lowWords (s : State) (n : Nat) : LowWords s (s.genTriggers n) trigStats := by
  refine .forEach (fun k hk u => LowWords.mono ((u.checkTrig_lowWords k).trans (State.syncTrig_lowWords _ k)) ?_) s
  simpa [trigStats] using ⟨k, by simpa using (List.mem_filter.mp hk).1, rfl⟩

/-- A write of the generator's CFG word with EN = 1 while it is stopped enables it (R87). -/
theorem exec_generatorEnable {s : State} {n key : Nat} (data : Word)
    (ho : s.Opens (ctuOff (s.cfg.halfOfGen n) (O.CTU_GEN_CFG n)) key) (hen : s.flag (F.CTU_GEN_CFG.EN n) = false) :
    exec (.generatorEnable 0 n data) s = .next ((s.answer false 0).genEnable n (data ||| 1)) := by
  have hen' : ¬ (s.answer false 0).flag (F.CTU_GEN_CFG.EN n) = true := by
    rw [State.flag_answer, hen]
    exact Bool.false_ne_true
  have hbit : bitOf (data ||| 1) 0 = true := by simp [bitOf]
  have heq : (s.answer false 0).genCfgWrite n (data ||| 1) = (s.answer false 0).genEnable n (data ||| 1) :=
    (if_pos hbit).trans (if_neg hen')
  exact congrArg Host.Outcome.next ((ho.writeAcc _ _).trans heq)

section
variable {s : State} {n : Nat} (hn : n < 8) (data : Word)
include hn

theorem genWord_notMem_trigStats {k : Nat} (hk : k < 0x0C1040) : k + 0x40 * n ∉ trigStats := by
  intro hmem
  obtain ⟨m, -, he⟩ := List.mem_map.mp hmem
  simp only [O.CTU_TRIG_STAT] at he
  omega

theorem State.genWritten_lowWords :
    LowWords s (s.genWritten n data) [O.CTU_GEN_CFG n, O.CTU_GEN_ACC n, O.CTU_GEN_STAT n] := by
  have hcfg : LowWords s (s.writeFields (O.CTU_GEN_CFG n) data) [O.CTU_GEN_CFG n] :=
    fun k _ hk => State.writeFields_onlyWord (genCfg_notStaged s.cfg hn) data k hk
  refine LowWords.trans ?_ (fun _ _ _ => State.rd_setGen _ _ _ _)
  exact ((hcfg.mono (by simp)).trans ((State.wr_lowWords _ _ _).mono (by simp))).trans
    ((State.fset_lowWords _ (F.CTU_GEN_STAT.RUN n) 1).mono (by simp [F.CTU_GEN_STAT.RUN]))

theorem generators_enable {key : Nat} (ho : s.Opens (ctuOff (s.cfg.halfOfGen n) (O.CTU_GEN_CFG n)) key)
    (hen : s.flag (F.CTU_GEN_CFG.EN n) = false) (hok : s.genSetupOk n (data ||| 1) = true) :
    ∃ t, exec (.generatorEnable 0 n data) s = .next t ∧ t.flag (F.CTU_GEN_STAT.RUN n) = true ∧
      timeT (s.tb (s.cfg.halfOfGen n)).t < (t.gen n).next ∧
      (t.flag (F.CTU_GEN_CFG.BIND n) = true →
        (t.gen n).next % s.fget (F.CTU_GEN_PERIOD.PERIOD n) = s.fget (F.CTU_GEN_PHASE.PHASE n) ∧
        (t.gen n).next ≤ timeT (s.tb (s.cfg.halfOfGen n)).t + s.fget (F.CTU_GEN_PERIOD.PERIOD n)) := by
  let a := s.answer false 0
  let u := a.genWritten n (data ||| 1)
  let v := a.genStarted n (data ||| 1)
  have hx : exec (.generatorEnable 0 n data) s = .next (v.genTriggers n) :=
    (exec_generatorEnable data ho hen).trans (congrArg Host.Outcome.next (State.genEnable_eq (s := a) hok))
  have hnext : ((v.genTriggers n).gen n).next = u.genFirst n (timeT (s.tb (s.cfg.halfOfGen n)).t + 1) := by
    rw [(v.genTriggers_keeps n).gen (by decide)]
    exact congrArg Gen.next (State.gen_setGen_self _ _ _)
  have hword {f : Fld} {k : Nat} (hf : f.off = k + 0x40 * n) (hk : k < 0x0C1040) : (v.genTriggers n).flag f = u.flag f := by
    rw [(v.genTriggers_lowWords n).flag f (hf ▸ genWord_low hn hk) (hf ▸ genWord_notMem_trigStats hn hk)]
    exact State.flag_setGen _ _ _ _
  have hset {f : Fld} {k : Nat} (hf : f.off = k + 0x40 * n) (hk : k = 0x0C1004 ∨ k = 0x0C1008) : u.fget f = s.fget f := by
    refine (State.genWritten_lowWords (s := a) hn (data ||| 1)).fget f (hf ▸ genWord_low hn (by omega)) ?_
    simp only [hf, O.CTU_GEN_CFG, O.CTU_GEN_ACC, O.CTU_GEN_STAT, List.mem_cons, List.not_mem_nil, or_false,
      Nat.add_right_cancel_iff]
    omega
  have hperiod : u.fget (F.CTU_GEN_PERIOD.PERIOD n) = s.fget (F.CTU_GEN_PERIOD.PERIOD n) := hset rfl (.inl rfl)
  have hphase : u.fget (F.CTU_GEN_PHASE.PHASE n) = s.fget (F.CTU_GEN_PHASE.PHASE n) := hset rfl (.inr rfl)
  have hlt : s.fget (F.CTU_GEN_PHASE.PHASE n) < s.fget (F.CTU_GEN_PERIOD.PERIOD n) := by
    simp only [State.genSetupOk, Bool.and_eq_true, decide_eq_true_eq] at hok
    omega
  refine ⟨_, hx, ?_, ?_, fun hbind => ?_⟩
  · rw [hword rfl (by decide : 0x0C1014 < 0x0C1040)]
    exact (State.flag_setGen _ _ _ _).trans (State.flag_fset_self _ _ _ (by decide : 3 + 1 ≤ 32))
  · rw [hnext]
    exact u.le_genFirst n _
  · rw [hword rfl (by decide : 0x0C1000 < 0x0C1040)] at hbind
    obtain ⟨hmod, hle⟩ := State.genFirst_bound (timeT (s.tb (s.cfg.halfOfGen n)).t + 1) hbind (by rwa [hperiod, hphase])
    rw [hperiod] at hmod hle
    rw [hnext]
    exact ⟨hmod.trans hphase, by omega⟩

theorem generators_refused {key : Nat} (ho : s.Opens (ctuOff (s.cfg.halfOfGen n) (O.CTU_GEN_CFG n)) key)
    (hen : s.flag (F.CTU_GEN_CFG.EN n) = false) (hok : s.genSetupOk n (data ||| 1) = false) :
    ∃ t, exec (.generatorEnable 0 n data) s = .next t ∧ t.flag (F.CTU_GEN_STAT.CFG_ERR n) = true ∧ t.gens = s.gens ∧
      t.flag (F.CTU_GEN_CFG.EN n) = false := by
  let a := s.answer false 0
  have hok' : ¬ a.genSetupOk n (data ||| 1) = true := fun h => absurd (h.symm.trans hok) (by decide)
  have hx : exec (.generatorEnable 0 n data) s = .next (a.genCfgErr n) :=
    (exec_generatorEnable data ho hen).trans (congrArg Host.Outcome.next (if_neg hok'))
  refine ⟨_, hx, State.flag_genCfgErr hn a, State.setFlag_gens _ _ _, ?_⟩
  refine ((a.setFlag_lowWords _ _).flag (F.CTU_GEN_CFG.EN n) (genWord_low hn (by decide : 0x0C1000 < 0x0C1040)) ?_).trans hen
  simp [F.CTU_GEN_CFG.EN, F.CTU_GEN_STAT.CFG_ERR, O.CTU_GEN_CFG, O.CTU_GEN_STAT]

end

/-! ### A disabling write (R88) -/

theorem generators_disable {s : State} {n key : Nat} (data : Word) (ho : s.Opens (ctuOff (s.cfg.halfOfGen n) (O.CTU_GEN_CFG n)) key) :
    ∃ t, exec (.generatorDisable 0 n data) s = .next t ∧ t.flag (F.CTU_GEN_STAT.RUN n) = false ∧ t.gen n = {} := by
  have hbit : ¬ bitOf (data &&& ~~~ (1 : Word)) 0 = true := by simp [bitOf]
  have heq : (s.answer false 0).genCfgWrite n (data &&& ~~~ (1 : Word)) = (s.answer false 0).genDisable n (data &&& ~~~ (1 : Word)) :=
    if_neg hbit
  refine ⟨_, congrArg Host.Outcome.next ((ho.writeAcc _ _).trans heq), ?_, State.gen_setGen_self _ _ _⟩
  exact (State.flag_setGen _ _ _ _).trans (State.flag_fset_self _ _ _ (by decide : 3 + 1 ≤ 32))

/-! ### A boundary (R86, R88) -/

theorem State.genBoundary_gen (s : State) (n : Nat) :
    ((s.genBoundary n).gen n).idx = (s.gen n).idx + 1 ∧
    ((s.genBoundary n).gen n).next =
      (((s.gen n).next : Int) + (s.fget (F.CTU_GEN_PERIOD.PERIOD n) : Int) + (s.gen n).shift).toNat ∧
    ((s.genBoundary n).gen n).shift = 0 := by
  unfold State.genBoundary
  extract_lets g b nx s1 s2 s3
  have hp := Allows.refl [Area.regs, Area.out, Area.trigs]
  have hk : Keeps [.regs, .out, .trigs] s1 (forEach ((List.range 32).filter fun k => s3.cfg.halfOfTrig k == s3.cfg.halfOfGen n)
      (fun k s => s.trigBoundary n b k) s3) :=
    Keeps.forEach (State.cycleEvents_keeps (State.raise_keeps (.refl s1) _) n) fun k _ h => State.trigBoundary_keeps h n b k
  have hg : (forEach ((List.range 32).filter fun k => s3.cfg.halfOfTrig k == s3.cfg.halfOfGen n)
      (fun k s => s.trigBoundary n b k) s3).gen n = s.genLatch n { g with next := nx, floor := b + 1, idx := g.idx + 1, shift := 0 } :=
    (hk.gen (by decide) n).trans (State.gen_setGen_self _ _ _)
  rw [hg]
  exact ⟨rfl, rfl, rfl⟩

theorem generators_boundary {s : State} {n : Nat} (hr : s.genRuns n = true)
    (hdue : (s.gen n).next * 2 ^ 40 ≤ (s.tb (s.cfg.halfOfGen n)).t) :
    ∃ t, exec (.cycleBoundary n) s = .next t ∧ (t.gen n).idx = (s.gen n).idx + 1 ∧
      (t.gen n).next = (((s.gen n).next : Int) + (s.fget (F.CTU_GEN_PERIOD.PERIOD n) : Int) + (s.gen n).shift).toNat ∧
      (t.gen n).shift = 0 := ⟨_, if_pos ⟨hr, hdue⟩, s.genBoundary_gen n⟩

/-! ### SYNC_IN (R96) -/

theorem generators_missed {s : State} {n : Nat} (hn : n < 8) (hf : s.genFollows n = true)
    (hm : ((max 1 (s.gen n).miss : Nat) : Int) ≤ s.syncMissed n) :
    ∃ t, exec (.syncMissLimit n) s = .next t ∧ t.flag (F.CTU_GEN_STAT.SYNC_LOST n) = true :=
  ⟨_, if_pos ⟨hf, hm⟩, State.flag_syncLost hn s⟩

/-- What an edge of SYNC_IN does at generator `n`. -/
def State.syncStep (s : State) (rising : Bool) (n : Nat) : State :=
  if s.genFollows n = true ∧ (s.gen n).edge = b2n (!rising) then s.syncEdge n else s

/-- What an edge can do at a generator: nothing, end the following, or move a boundary and the accumulated shift. -/
theorem State.syncEdge_cases (s : State) (n : Nat) :
    s.syncEdge n = s ∨ (∃ g, s.syncEdge n = (s.setGen n g).syncLost n) ∨
      ∃ g w, s.syncEdge n = (s.setGen n g).wr (O.CTU_GEN_ACC n) w := by
  unfold State.syncEdge
  extract_lets g p stamp k point e m a acc g1 g2
  split_ifs
  · exact .inl rfl
  · exact .inr (.inl ⟨_, rfl⟩)
  · exact .inr (.inr ⟨_, _, rfl⟩)

/-- What generator `n` reads at an edge, and what it shows of it, is the same: its state, its registers, and what tells whether its
time base runs. -/
structure SameGen (n : Nat) (s t : State) : Prop where
  cfg : t.cfg = s.cfg
  tbs : t.tbs = s.tbs
  rst : t.rst = s.rst
  gen : t.gen n = s.gen n
  word : ∀ k, k < O.CTU_GEN_CFG 0 ∨ (O.CTU_GEN_CFG n ≤ k ∧ k < O.CTU_GEN_CFG (n + 1)) → t.rd k = s.rd k

section
variable {n : Nat} {s t u : State}

theorem SameGen.refl (n : Nat) (s : State) : SameGen n s s := ⟨rfl, rfl, rfl, rfl, fun _ _ => rfl⟩

theorem SameGen.trans (h : SameGen n s t) (k : SameGen n t u) : SameGen n s u :=
  ⟨k.cfg.trans h.cfg, k.tbs.trans h.tbs, k.rst.trans h.rst, k.gen.trans h.gen, fun j hj => (k.word j hj).trans (h.word j hj)⟩

theorem SameGen.fget (h : SameGen n s t) {f : Fld}
    (hf : f.off < O.CTU_GEN_CFG 0 ∨ (O.CTU_GEN_CFG n ≤ f.off ∧ f.off < O.CTU_GEN_CFG (n + 1))) : t.fget f = s.fget f :=
  congrArg (getBits · f.lo f.wd) (h.word _ hf)

/-- A word of the generator's own window. -/
theorem genWindow {k : Nat} (h0 : 0x0C1000 ≤ k) (h1 : k < 0x0C1040) :
    k + 0x40 * n < O.CTU_GEN_CFG 0 ∨ (O.CTU_GEN_CFG n ≤ k + 0x40 * n ∧ k + 0x40 * n < O.CTU_GEN_CFG (n + 1)) := by
  simp only [O.CTU_GEN_CFG]
  omega

theorem SameGen.flag (h : SameGen n s t) {k lo wd : Nat} (h0 : 0x0C1000 ≤ k) (h1 : k < 0x0C1040) :
    t.flag ⟨k + 0x40 * n, lo, wd⟩ = s.flag ⟨k + 0x40 * n, lo, wd⟩ := by
  unfold State.flag
  rw [h.fget (genWindow h0 h1)]

theorem SameGen.period (h : SameGen n s t) : t.fget (F.CTU_GEN_PERIOD.PERIOD n) = s.fget (F.CTU_GEN_PERIOD.PERIOD n) :=
  h.fget (genWindow (by decide : 0x0C1000 ≤ 0x0C1004) (by decide))

theorem SameGen.acc (h : SameGen n s t) : t.rd (O.CTU_GEN_ACC n) = s.rd (O.CTU_GEN_ACC n) :=
  h.word _ (genWindow (by decide : 0x0C1000 ≤ 0x0C1018) (by decide))

theorem SameGen.tb (h : SameGen n s t) (k : Nat) : t.tb k = s.tb k := by
  unfold State.tb
  rw [h.tbs]

theorem SameGen.genFollows (h : SameGen n s t) : t.genFollows n = s.genFollows n := by
  have hmode : t.mode = s.mode := h.fget (.inl (by decide))
  have hen : t.flag (F.CTU_GEN_CFG.EN n) = s.flag (F.CTU_GEN_CFG.EN n) := h.flag (k := 0x0C1000) (by decide) (by decide)
  have hsync : t.flag (F.CTU_GEN_CFG.SYNC_EN n) = s.flag (F.CTU_GEN_CFG.SYNC_EN n) := h.flag (k := 0x0C1000) (by decide) (by decide)
  have hlost : t.flag (F.CTU_GEN_STAT.SYNC_LOST n) = s.flag (F.CTU_GEN_STAT.SYNC_LOST n) :=
    h.flag (k := 0x0C1014) (by decide) (by decide)
  unfold State.genFollows State.genRuns State.tbRuns State.hasHalf State.halfInReset
  rw [h.cfg, h.rst, h.tb, hmode, hen, hsync, hlost]

/-- An edge at one generator leaves every other one. -/
theorem SameGen.syncStep (s : State) (rising : Bool) {m : Nat} (hm : m < 8) (hn : n < 8) (h : n ≠ m) :
    SameGen n s (s.syncStep rising m) := by
  have hword {k : Nat} (hk : k < O.CTU_GEN_CFG 0 ∨ (O.CTU_GEN_CFG n ≤ k ∧ k < O.CTU_GEN_CFG (n + 1))) :
      k < O.IRQ_PEND 0 ∧ k ≠ O.CTU_GEN_STAT m ∧ k ≠ O.CTU_GEN_ACC m := by
    simp only [O.CTU_GEN_CFG, O.IRQ_PEND, O.CTU_GEN_STAT, O.CTU_GEN_ACC] at *
    omega
  unfold State.syncStep
  split
  · obtain he | ⟨g, he⟩ | ⟨g, w, he⟩ := s.syncEdge_cases m
    · rw [he]
      exact .refl n s
    · rw [he]
      refine ⟨State.setFlag_cfg _ _ _, State.setFlag_tbs _ _ _, ?_, ?_, fun k hk => ?_⟩
      · exact (State.syncLost_keeps (Keeps.refl (ar := [.regs]) _) m (Allows.refl _)).1 .rst (by decide)
      · exact (State.gen_setFlag _ _ _ _).trans (s.gen_setGen_ne g h)
      · obtain ⟨hl, hs, -⟩ := hword hk
        exact (State.setFlag_lowWords _ _ _ k hl (by rw [List.mem_singleton]; exact hs)).trans (s.rd_setGen _ _ _)
    · rw [he]
      refine ⟨rfl, rfl, rfl, (State.gen_wr _ _ _ _).trans (s.gen_setGen_ne g h), fun k hk => ?_⟩
      obtain ⟨-, -, ha⟩ := hword hk
      exact (State.rd_wr_ne _ _ ha).trans (s.rd_setGen _ _ _)
  · exact .refl n s

theorem SameGen.forEach (rising : Bool) (hn : n < 8) {l : List Nat} (hl : ∀ m ∈ l, m < 8 ∧ n ≠ m) (s : State) :
    SameGen n s (Machine.forEach l (fun m s => s.syncStep rising m) s) := by
  unfold Machine.forEach
  induction l generalizing s with
  | nil => exact .refl n s
  | cons m l ih =>
    obtain ⟨hm, hne⟩ := hl m List.mem_cons_self
    exact (SameGen.syncStep s rising hm hn hne).trans (ih (fun k hk => hl k (List.mem_cons_of_mem m hk)) _)

end

/-- Every generator meets the edge once, as the edge finds it. -/
theorem syncIn_once (s : State) (rising : Bool) {n : Nat} (hn : n < 8) :
    ∃ u, SameGen n s u ∧ SameGen n (u.syncStep rising n) (forEach (List.range 8) (fun m s => s.syncStep rising m) s) := by
  obtain ⟨l, r, hsplit⟩ := List.append_of_mem (List.mem_range.mpr hn)
  have hnodup := hsplit ▸ List.nodup_range (n := 8)
  have hlt {m : Nat} (hm : m ∈ l ∨ m ∈ r) : m < 8 := by
    rw [← List.mem_range, hsplit, List.mem_append, List.mem_cons]
    exact hm.imp_right .inr
  rw [hsplit, forEach, List.foldl_append, List.foldl_cons]
  rw [List.nodup_append, List.nodup_cons] at hnodup
  obtain ⟨-, ⟨hr, -⟩, hl⟩ := hnodup
  refine ⟨_, SameGen.forEach rising hn (l := l) (fun m hm => ⟨hlt (.inl hm), fun h => ?_⟩) s,
    SameGen.forEach rising hn (l := r) (fun m hm => ⟨hlt (.inr hm), fun h => hr (h ▸ hm)⟩) _⟩
  exact hl m hm n List.mem_cons_self h.symm

/-! ### An edge that is matched (R96) -/

/-- The error of an edge, limited to M. -/
def State.syncMove (s : State) (n : Nat) (e : Int) : Int := clampInt (-s.syncLimit n) (s.syncLimit n) e

/-- ACC with the limited error of an edge. -/
def State.syncAcc (s : State) (n : Nat) (e : Int) : Int := s.rdInt (O.CTU_GEN_ACC n) + s.syncMove n e

/-- The generator with the point matched that lies `k` boundaries from the next. -/
def State.matchedGen (s : State) (n : Nat) (k : Int) : Gen := { s.gen n with matched := ((s.gen n).idx + k + 1).toNat }

/-- The matched generator with the next boundary, or the one after, moved by the limited error. -/
def State.movedGen (s : State) (n : Nat) (k e : Int) : Gen :=
  if s.syncNow n + s.syncLimit n + 8 < (s.gen n).next then
    { s.matchedGen n k with next := ((s.gen n).next + s.syncMove n e).toNat }
  else { s.matchedGen n k with shift := (s.gen n).shift + s.syncMove n e }

/-- An edge now has the error `e`, less than half a period, against the point that lies `k` boundaries from the next one, and no edge
has been matched to that point. -/
structure State.NearPoint (s : State) (n : Nat) (k e : Int) : Prop where
  period : 0 < (s.fget (F.CTU_GEN_PERIOD.PERIOD n) : Int)
  free : ((s.gen n).matched : Int) ≤ (s.gen n).idx + k
  error : e = s.syncNow n - ((s.gen n).next + (s.gen n).ofs + k * s.fget (F.CTU_GEN_PERIOD.PERIOD n))
  early : -(s.fget (F.CTU_GEN_PERIOD.PERIOD n) : Int) < 2 * e
  late : 2 * e < (s.fget (F.CTU_GEN_PERIOD.PERIOD n) : Int)

/-- From `s` to `t`, an edge with the error `e` has been matched to the point that lies `k` boundaries from the next one (R96). -/
def State.SyncMatched (s t : State) (n : Nat) (k e : Int) : Prop :=
  ((t.gen n).matched : Int) = (s.gen n).idx + k + 1 ∧
  ((s.fget (F.CTU_GEN_PERIOD.PERIOD n) : Int) < 4 * ((s.syncAcc n e).natAbs : Int) →
    t.flag (F.CTU_GEN_STAT.SYNC_LOST n) = true ∧ (t.gen n).next = (s.gen n).next) ∧
  (4 * ((s.syncAcc n e).natAbs : Int) ≤ s.fget (F.CTU_GEN_PERIOD.PERIOD n) →
    t.rdInt (O.CTU_GEN_ACC n) = s.syncAcc n e ∧
    (s.syncNow n + s.syncLimit n + 8 < (s.gen n).next →
      (t.gen n).next = (((s.gen n).next : Int) + s.syncMove n e).toNat ∧ (t.gen n).shift = (s.gen n).shift) ∧
    (((s.gen n).next : Int) ≤ s.syncNow n + s.syncLimit n + 8 →
      (t.gen n).next = (s.gen n).next ∧ (t.gen n).shift = (s.gen n).shift + s.syncMove n e))

theorem State.movedGen_matched (s : State) (n : Nat) (k e : Int) :
    (s.movedGen n k e).matched = ((s.gen n).idx + k + 1).toNat := by
  unfold State.movedGen
  split <;> rfl

section
variable {s : State} {n : Nat} {k e : Int} (h : s.NearPoint n k e)
include h

/-- An edge within half a period of a point is nearest to it. -/
theorem State.syncPoint_eq : s.syncPoint n = k := by
  obtain ⟨hp, -, he, hlo, hhi⟩ := h
  unfold State.syncPoint
  extract_lets g p
  have hpe : p = s.fget (F.CTU_GEN_PERIOD.PERIOD n) := max_eq_right hp
  have hsum : s.syncNow n - ((g.next : Int) + g.ofs) + p / 2 = e + p / 2 + k * p := by
    rw [he, hpe]
    ring
  rw [hsum, Int.add_mul_ediv_right _ _ (by omega), Int.ediv_eq_zero_of_lt (by omega) (by omega), zero_add]

/-- The first edge near a point is matched to it: it ends the following or moves a boundary by its limited error. -/
theorem State.syncEdge_matched :
    s.syncEdge n =
      if (s.fget (F.CTU_GEN_PERIOD.PERIOD n) : Int) < 4 * ((s.syncAcc n e).natAbs : Int) then (s.setGen n (s.matchedGen n k)).syncLost n
      else (s.setGen n (s.movedGen n k e)).wr (O.CTU_GEN_ACC n) (BitVec.ofInt 32 (s.syncAcc n e)) := by
  have hk := State.syncPoint_eq h
  obtain ⟨hp, hm, he, -, -⟩ := h
  have hpe : max 1 (s.fget (F.CTU_GEN_PERIOD.PERIOD n) : Int) = s.fget (F.CTU_GEN_PERIOD.PERIOD n) := max_eq_right hp
  unfold State.syncEdge
  simp only [hk, hpe, ← he]
  rw [if_neg (by omega)]
  rfl

/-- Of an edge that is matched to a point, what the generator shows. -/
theorem State.syncEdge_spec (hn : n < 8) : s.SyncMatched (s.syncEdge n) n k e := by
  have hpoint : (((s.gen n).idx + k + 1).toNat : Int) = (s.gen n).idx + k + 1 := by
    have hm := h.free
    exact Int.toNat_of_nonneg (by omega)
  rw [State.syncEdge_matched h]
  unfold State.SyncMatched
  split_ifs with hsum
  · have hg : (((s.setGen n (s.matchedGen n k)).syncLost n).gen n) = s.matchedGen n k :=
      (State.gen_setFlag _ _ _ _).trans (s.gen_setGen_self _ _)
    rw [hg]
    exact ⟨hpoint, fun _ => ⟨State.flag_syncLost hn _, rfl⟩, fun h => absurd hsum (by omega)⟩
  · have hg : ((s.setGen n (s.movedGen n k e)).wr (O.CTU_GEN_ACC n) (BitVec.ofInt 32 (s.syncAcc n e))).gen n = s.movedGen n k e :=
      (State.gen_wr _ _ _ _).trans (s.gen_setGen_self _ _)
    have hperiod : s.fget (F.CTU_GEN_PERIOD.PERIOD n) < 2 ^ 30 := s.fget_lt _
    rw [hg]
    refine ⟨(congrArg Nat.cast (s.movedGen_matched n k e)).trans hpoint, fun h => absurd h hsum,
      fun _ => ⟨?_, fun h => ?_, fun h => ?_⟩⟩
    · exact (congrArg BitVec.toInt (State.rd_wr_self _ _ _)).trans (toInt_ofInt (by omega) (by omega))
    · rw [State.movedGen, if_pos h]
      exact ⟨rfl, rfl⟩
    · rw [State.movedGen, if_neg (by omega)]
      exact ⟨rfl, rfl⟩

end

/-- An edge that the generator does not follow, or of the other direction, leaves it. -/
theorem State.syncStep_other {s : State} {rising : Bool} {n : Nat} (h : s.genFollows n = false ∨ (s.gen n).edge ≠ b2n (!rising)) :
    s.syncStep rising n = s := by
  refine if_neg fun hfollow => ?_
  obtain hno | hedge := h
  · exact absurd hfollow.1 (by simp [hno])
  · exact hedge hfollow.2

section
variable {n : Nat} {s u : State} (h : SameGen n s u)
include h

theorem SameGen.syncNow : u.syncNow n = s.syncNow n := by
  unfold State.syncNow
  rw [h.cfg, h.tb]

theorem SameGen.syncLimit : u.syncLimit n = s.syncLimit n := by
  unfold State.syncLimit
  rw [h.gen, h.period]

theorem SameGen.syncMove (e : Int) : u.syncMove n e = s.syncMove n e := by
  unfold State.syncMove
  rw [h.syncLimit]

theorem SameGen.syncAcc (e : Int) : u.syncAcc n e = s.syncAcc n e := by
  unfold State.syncAcc State.rdInt
  rw [h.syncMove, h.acc]

theorem SameGen.nearPoint {k e : Int} (hnear : s.NearPoint n k e) : u.NearPoint n k e := by
  refine ⟨?_, ?_, ?_, ?_, ?_⟩
  · exact h.period ▸ hnear.period
  · exact h.gen ▸ hnear.free
  · rw [h.syncNow, h.gen, h.period]
    exact hnear.error
  · exact h.period ▸ hnear.early
  · exact h.period ▸ hnear.late

end

/-- The edges of the other generators do not show in what a generator's own edge does. -/
theorem State.syncMatched_congr {n : Nat} {s u v t : State} {k : Int} (h : SameGen n s u) (h' : SameGen n v t) (e : Int) :
    u.SyncMatched v n k e ↔ s.SyncMatched t n k e := by
  have hlost : t.flag (F.CTU_GEN_STAT.SYNC_LOST n) = v.flag (F.CTU_GEN_STAT.SYNC_LOST n) :=
    h'.flag (k := 0x0C1014) (by decide) (by decide)
  have hacc : t.rdInt (O.CTU_GEN_ACC n) = v.rdInt (O.CTU_GEN_ACC n) := congrArg BitVec.toInt h'.acc
  unfold State.SyncMatched
  rw [h.period, h.gen, h.syncNow, h.syncLimit, h.syncMove, h.syncAcc, h'.gen, hlost, hacc]

theorem exec_syncInEdge (rising : Bool) (s : State) :
    exec (.syncInEdge rising) s = .next (forEach (List.range 8) (fun n s => s.syncStep rising n) s) := rfl

/-- The limited error in the words of the statement. -/
theorem State.syncMove_eq (s : State) (n : Nat) (e : Int) :
    s.syncMove n e = max (-(s.syncLimit n : Int)) (min (s.syncLimit n) e) := clampInt_eq (by omega) e

theorem State.syncLimit_cast (s : State) (n : Nat) :
    (s.syncLimit n : Int) = min (min ((s.gen n).maxStep : Int) (s.fget (F.CTU_GEN_PERIOD.PERIOD n) / 16)) 2000 := by
  unfold State.syncLimit
  push_cast
  rfl

/-- The direction of an edge, as EDGE writes it. -/
theorem b2n_not (rising : Bool) : b2n (!rising) = if rising then 0 else 1 := by
  cases rising <;> rfl

theorem generators_syncOther {s : State} {rising : Bool} {n : Nat} (hn : n < 8)
    (h : s.genFollows n = false ∨ (s.gen n).edge ≠ if rising then 0 else 1) :
    let t := forEach (List.range 8) (fun n s => s.syncStep rising n) s
    t.gen n = s.gen n ∧ t.rd (O.CTU_GEN_ACC n) = s.rd (O.CTU_GEN_ACC n) := by
  obtain ⟨u, hu, ht⟩ := syncIn_once s rising hn
  rw [State.syncStep_other (by rwa [hu.genFollows, hu.gen, b2n_not])] at ht
  have hst := hu.trans ht
  exact ⟨hst.gen, hst.acc⟩

theorem generators_syncMatched {s : State} {rising : Bool} {n : Nat} {k e : Int} (hn : n < 8) (hf : s.genFollows n = true)
    (hedge : (s.gen n).edge = if rising then 0 else 1) (h : s.NearPoint n k e) :
    s.SyncMatched (forEach (List.range 8) (fun n s => s.syncStep rising n) s) n k e := by
  obtain ⟨u, hu, ht⟩ := syncIn_once s rising hn
  have hstep : u.syncStep rising n = u.syncEdge n := if_pos (by rw [hu.genFollows, hu.gen, b2n_not]; exact ⟨hf, hedge⟩)
  rw [hstep] at ht
  exact (State.syncMatched_congr hu ht e).mp (State.syncEdge_spec (hu.nearPoint h) hn)

/-- An edge leaves the time bases. -/
theorem State.syncSteps_tbs (rising : Bool) (s : State) :
    (forEach (List.range 8) (fun n s => s.syncStep rising n) s).tbs = s.tbs := by
  obtain ⟨t, ht, hk⟩ := execSyncInEdge_completes rising s
  rw [Host.Outcome.next.inj ((exec_syncInEdge rising s).symm.trans ht)]
  exact hk.1 .tbs (by decide)

/-- Settles O14: an enabling write starts the generator from the first boundary after now; an edge of SYNC_IN reaches every generator
once, and it leaves the words and the state of every other. -/
theorem generators : Obligations.Generators := by
  refine ⟨fun _ _ _ data hn ho hen hok => generators_enable hn data ho hen hok,
    fun _ _ _ data hn ho hen hok => generators_refused hn data ho hen hok, fun _ _ _ data _ ho => generators_disable data ho,
    fun _ _ _ hr hdue => generators_boundary hr hdue,
    fun s rising => ⟨_, exec_syncInEdge rising s, State.syncSteps_tbs rising s, fun _ hn h => generators_syncOther hn h, ?_⟩,
    fun _ _ hn hf hm => generators_missed hn hf hm⟩
  intro n k e hn hf hedge p now m a acc hp hm he hlo hhi
  have hlimit : (s.syncLimit n : Int) = m := s.syncLimit_cast n
  have hmove : s.syncMove n e = a := by rw [State.syncMove_eq, hlimit]
  have hacc : s.syncAcc n e = acc := congrArg (s.rdInt (O.CTU_GEN_ACC n) + ·) hmove
  rw [← hacc, ← hmove, ← hlimit]
  exact generators_syncMatched hn hf hedge ⟨hp, hm, he, hlo, hhi⟩

end Sys2Proof.Machine

namespace Sys2Proof.Machine

/-! ## The field ports (04_field_ports.md)

What a port's operations need of the shared ones: the pieces of the state that an operation keeps give its views, the words of
a MAC lie below the pending words of the interrupts, and raising a port's source changes no piece but these. -/

section
variable {ar : List Area} {s t : State}

theorem Keeps.port (h : Keeps ar s t) (hp : Area.ports ∉ ar) (n : Nat) : t.port n = s.port n := by
  unfold State.port
  rw [h.1 .ports hp]

theorem Keeps.frame (h : Keeps ar s t) (hf : Area.frames ∉ ar) (n : Nat) : t.frame n = s.frame n := by
  unfold State.frame
  rw [h.1 .frames hf]

end

/-- A word of a MAC lies below the pending words of the interrupts. -/
theorem macWord_low {p k : Nat} (hp : p < 10) (hk : k < 0x011000) : k + 0x1000 * p < O.IRQ_PEND 0 := by
  simp only [O.IRQ_PEND]
  omega

section
variable (s : State) (p k : Nat)

theorem State.raisePort_keeps_regs : Keeps [.regs] s (s.raisePort p k) := State.raisePort_keeps (.refl s) p k (Allows.refl _)

@[simp] theorem State.raisePort_out : (s.raisePort p k).out = s.out := (s.raisePort_keeps_regs p k).1 .out (by decide)
@[simp] theorem State.port_raisePort (n : Nat) : (s.raisePort p k).port n = s.port n := (s.raisePort_keeps_regs p k).port (by decide) n

theorem State.raisePort_lowWords (ks : List Nat) : LowWords s (s.raisePort p k) ks := by
  unfold State.raisePort
  exact .ite (State.raise_lowWords _ _ _) (.refl s ks)

end

/-! ### Views of the ports through the shared operations -/

section
variable (s : State) (n : Nat)

@[simp] theorem State.port_emit (o : Out) : (s.emit o).port n = s.port n := rfl
@[simp] theorem State.port_setFrame (f : Nat) (v : Frame) : (s.setFrame f v).port n = s.port n := rfl
@[simp] theorem State.port_spliceNote (e : Edit) (q : Bool) (l : List Nat) : (s.spliceNote e q l).port n = s.port n :=
  (State.spliceNote_keeps (Keeps.refl (ar := [.emem]) s) e q l (Allows.refl _)).port (by decide) n
@[simp] theorem State.port_postThr (k b : Nat) : (s.postThr k b).port n = s.port n :=
  (State.postThr_keeps (Keeps.refl (ar := [.regs]) s) k b (Allows.refl _)).port (by decide) n
@[simp] theorem State.port_macCnt (p k : Nat) : (s.macCnt p k).port n = s.port n :=
  (State.macCnt_keeps (Keeps.refl (ar := [.regs]) s) p k (Allows.refl _)).port (by decide) n

end

/-! ## Edits in flight (04_field_ports.md R122 to R127) -/

/-! ### Byte triggers -/

section
variable (s : State) (e n b : Nat)

theorem State.postEvt_onlyWords : OnlyWords s (s.postEvt e n b) [O.CE_THR_EVT e n] := State.wr_onlyWords _ _ _

theorem State.flag_postEvt_self (hb : b < 32) : (s.postEvt e n b).flag (evtFld e n b) = true :=
  s.flag_fset_self (evtFld e n b) 1 hb

theorem State.flag_postEvt_ne {c : Nat} (h : c ≠ b) : (s.postEvt e n b).flag (evtFld e n c) = s.flag (evtFld e n c) := by
  refine s.flag_fset_ne _ _ _ (.inr ?_)
  simp only [evtFld]
  omega

@[simp] theorem State.thr_postEvt (e' n' : Nat) : (s.postEvt e n b).thr e' n' = s.thr e' n' := by
  unfold State.thr
  rw [(State.postEvt_keeps (Keeps.refl (ar := [.regs]) s) e n b (Allows.refl _)).1 .threads (by decide)]

end

@[simp] theorem State.thr_setThr_self (s : State) (e n : Nat) (v : Thread) : (s.setThr e n v).thr e n = v := by
  simp [State.thr, State.setThr]

/-- The byte of trigger `k` has been reached: the trigger is disarmed and its event latched (R122). -/
def State.trigReached (s : State) (e n k : Nat) : State :=
  (s.setThr e n { s.thr e n with trigs := KMap.erase (s.thr e n).trigs k }).postEvt e n (1 + k % 4)

section
variable {s : State} {e n k o f : Nat}

theorem State.trigReached_spec (hk : k < 4) :
    KMap.find? ((s.trigReached e n k).thr e n).trigs k = none ∧ (s.trigReached e n k).flag (evtFld e n (1 + k)) = true ∧
      OnlyWords s (s.trigReached e n k) [O.CE_THR_EVT e n] := by
  unfold State.trigReached
  rw [Nat.mod_eq_of_lt hk]
  refine ⟨by simp, State.flag_postEvt_self _ _ _ _ (by omega), ?_⟩
  exact OnlyWords.trans (fun _ _ => State.rd_congr rfl rfl _) (State.postEvt_onlyWords _ _ _ _)

theorem exec_byteTrigger (hb : (s.thr e n).bound = some f) (ht : KMap.find? (s.thr e n).trigs k = some o) :
    exec (.byteTrigger e n k) s =
      if o < (s.frame f).bytes.length then .next (s.trigReached e n k)
      else if (s.frame f).done then .next ((s.trigReached e n k).postEvt e n 5) else .next s := by
  show execByteTrigger e n k s = _
  unfold execByteTrigger
  simp only [hb, ht, State.trigReached]

theorem editsInFlight_byteReached (hk : k < 4) (hb : (s.thr e n).bound = some f) (ht : KMap.find? (s.thr e n).trigs k = some o)
    (ho : o < (s.frame f).bytes.length) :
    ∃ t, exec (.byteTrigger e n k) s = .next t ∧ KMap.find? (t.thr e n).trigs k = none ∧
      t.flag (evtFld e n (1 + k)) = true ∧ OnlyWords s t [O.CE_THR_EVT e n] :=
  ⟨_, (exec_byteTrigger hb ht).trans (if_pos ho), State.trigReached_spec hk⟩

/-- A frame that ended before the trigger's byte also latches the end event. -/
theorem editsInFlight_frameEnded (hk : k < 4) (hb : (s.thr e n).bound = some f) (ht : KMap.find? (s.thr e n).trigs k = some o)
    (ho : (s.frame f).bytes.length ≤ o) (hd : (s.frame f).done = true) :
    ∃ t, exec (.byteTrigger e n k) s = .next t ∧ KMap.find? (t.thr e n).trigs k = none ∧
      t.flag (evtFld e n (1 + k)) = true ∧ t.flag (evtFld e n 5) = true ∧ OnlyWords s t [O.CE_THR_EVT e n] := by
  obtain ⟨hfind, hflag, honly⟩ := State.trigReached_spec (s := s) (e := e) (n := n) hk
  refine ⟨_, (exec_byteTrigger hb ht).trans ((if_neg (by omega)).trans (if_pos hd)), ?_, ?_, ?_, ?_⟩
  · rwa [State.thr_postEvt]
  · rwa [State.flag_postEvt_ne _ _ _ _ (by omega)]
  · exact State.flag_postEvt_self _ _ _ _ (by decide)
  · exact honly.trans (State.postEvt_onlyWords _ _ _ _)

end

/-! ### Edits on their way to a port -/

section
variable {s : State} {p : Nat} {j : Int} {e : Edit}

theorem State.edits_copyStatus (s : State) (p f b : Nat) :
    ((s.copyStatus p f b).port p).edits = (s.port p).edits ∧ ((s.copyStatus p f b).port p).coming = (s.port p).coming := by
  unfold State.copyStatus
  simp

/-- Whether an edit has a copy to act on does not hang on the edits. -/
theorem State.editLive_setPort {v : Port} (h : v.copies = (s.port p).copies) :
    (s.setPort p v).editLive p e = s.editLive p e := by
  unfold State.editLive
  rw [State.port_setPort_self, h]
  rfl

theorem State.editArrives_queued (hl : s.editLive p e = true) (hf : (s.port p).editFull e = false) :
    ((s.editArrives p e).port p) = { s.port p with edits := (s.port p).edits ++ [e] } := by
  unfold State.editArrives
  simp [hl, hf]

theorem State.editArrives_dropped (h : s.editLive p e = false ∨ (s.port p).editFull e = true) :
    ((s.editArrives p e).port p).edits = (s.port p).edits ∧ ((s.editArrives p e).port p).coming = (s.port p).coming := by
  unfold State.editArrives
  split
  · simp
  · next hlive =>
    rw [if_pos (h.resolve_left (by simpa using hlive))]
    simp [State.edits_copyStatus]

theorem exec_editQueued {rest : List Edit} (hc : (s.port p).coming = e :: rest) (hl : s.editLate p j e = false) :
    exec (.editQueued p j) s = .next ((s.setPort p { s.port p with coming := rest }).editArrives p e) := by
  show execEditQueued p s j = _
  unfold execEditQueued
  rw [hc]
  exact if_neg (by simp [hl])

theorem editsInFlight_queued {rest : List Edit} (hc : (s.port p).coming = e :: rest) (hl : s.editLate p j e = false) :
    (s.editLive p e = true → (s.port p).editFull e = false →
      ∃ t, exec (.editQueued p j) s = .next t ∧ (t.port p).coming = rest ∧ (t.port p).edits = (s.port p).edits ++ [e]) ∧
    ((s.editLive p e = false ∨ (s.port p).editFull e = true) →
      ∃ t, exec (.editQueued p j) s = .next t ∧ (t.port p).coming = rest ∧ (t.port p).edits = (s.port p).edits) := by
  let u := s.setPort p { s.port p with coming := rest }
  have hport : u.port p = { s.port p with coming := rest } := State.port_setPort_self _ _ _
  have hlive : u.editLive p e = s.editLive p e := State.editLive_setPort rfl
  have hfull : (u.port p).editFull e = (s.port p).editFull e := by rw [hport]; rfl
  constructor
  · intro h1 h2
    have h := State.editArrives_queued (s := u) (hlive.trans h1) (hfull.trans h2)
    exact ⟨_, exec_editQueued hc hl, by rw [h, hport], by rw [h, hport]⟩
  · intro h
    obtain ⟨hedits, hcoming⟩ := State.editArrives_dropped (s := u) (p := p) (e := e) (by rwa [hlive, hfull])
    exact ⟨_, exec_editQueued hc hl, by rw [hcoming, hport], by rw [hedits, hport]⟩

theorem editsInFlight_late (h : (s.port p).coming.find? (fun e => s.editLate p j e) = some e) :
    ∃ t, exec (.editLate p j) s = .next t ∧ (t.port p).coming = (s.port p).coming.erase e ∧ (t.port p).edits = (s.port p).edits := by
  show ∃ t, execEditLate p s j = _ ∧ _
  unfold execEditLate
  dsimp only
  rw [h]
  exact ⟨_, rfl, by simp [State.edits_copyStatus]⟩

/-- While a copy of the edit's frame leaves, the clock of byte `w - 16` decides (R124). -/
theorem State.editLate_iff {c : Copy} (hc : (s.port p).tx = some c) (hk : c.kind = 0) (hf : c.fid = e.fid) :
    s.editLate p j e = true ↔ (e.w : Int) - 16 ≤ max j (-8) := by
  have hmine : (c.kind == 0 && c.fid == e.fid) = true := by simp [hk, hf]
  have hany : ((s.port p).copies.any fun c => c.kind == 0 && c.fid == e.fid) = true :=
    List.any_eq_true.mpr ⟨c, by simp [Port.copies, hc], hmine⟩
  have hfind : ((s.port p).tx.toList.find? fun c => c.kind == 0 && c.fid == e.fid) = some c := by
    rw [hc]
    exact List.find?_cons_of_pos hmine
  unfold State.editLate
  simp only [hany, hfind, Bool.true_and, decide_eq_true_eq]

end

/-- Settles O22: the byte triggers, an edit that comes in time, one that comes late, and what late means. -/
theorem editsInFlight : Obligations.EditsInFlight :=
  ⟨fun _ _ _ _ _ _ _ _ hk hb ht =>
    ⟨editsInFlight_byteReached hk hb ht, fun ho hd => editsInFlight_frameEnded hk hb ht ho hd⟩,
    fun _ _ _ _ _ _ hc hl => editsInFlight_queued hc hl, fun _ _ _ _ _ h => editsInFlight_late h,
    fun _ _ _ _ _ hc hk hf => State.editLate_iff hc hk hf⟩

end Sys2Proof.Machine

namespace Sys2Proof.Machine

/-! ## Writes of the ports' registers (00_scope.md R7; 02_boundary_and_access.md R53, R55)

The words of a MAC that software writes have read-write fields only, so a write leaves in each field what the data hold there:
bits of absent resources (R6) and the ones that a trunk's MAC sticks at (05_trunk_cells.md R133) lie in other fields. -/

/-! ### Fields of combined words -/

theorem getBits_or (x y : Word) (lo wd : Nat) : getBits (x ||| y) lo wd = getBits x lo wd ||| getBits y lo wd := by
  apply Nat.eq_of_testBit_eq
  intro i
  simp only [Nat.testBit_or, testBit_getBits, BitVec.getLsbD_or, Bool.and_or_distrib_left]

theorem getBits_and (x y : Word) (lo wd : Nat) : getBits (x &&& y) lo wd = getBits x lo wd &&& getBits y lo wd := by
  apply Nat.eq_of_testBit_eq
  intro i
  simp only [Nat.testBit_and, testBit_getBits, BitVec.getLsbD_and]
  cases decide (i < wd) <;> simp

/-- A field without a bit of the mask stays when the mask's bits are cleared. -/
theorem getBits_and_not (x : Word) {m : Word} {lo wd : Nat} (h : getBits m lo wd = 0) :
    getBits (x &&& ~~~m) lo wd = getBits x lo wd := by
  apply Nat.eq_of_testBit_eq
  intro i
  have hm : (decide (i < wd) && m.getLsbD (lo + i)) = false := by rw [← testBit_getBits, h, Nat.zero_testBit]
  simp only [testBit_getBits, BitVec.getLsbD_and, BitVec.getLsbD_not]
  by_cases hi : i < wd
  · simp only [hi, decide_true, Bool.true_and] at hm ⊢
    simp only [hm]
    by_cases hl : lo + i < 32
    · simp [hl]
    · simp [BitVec.getLsbD_of_ge x (lo + i) (by omega)]
  · simp [hi]

/-! ### A register of read-write fields -/

/-- The part of field `f` in word `w` shares no bit with bits [lo + wd - 1 : lo]. -/
def FieldRow.apart (w lo wd : Nat) (f : FieldRow) : Bool :=
  decide ((fieldSlice f w).1 + (fieldSlice f w).2.1 ≤ lo ∨ lo + wd ≤ (fieldSlice f w).1)

theorem applyField_rw {f : FieldRow} (hf : f.acc = .rw) (config sealed : Bool) (w : Nat) (old d acc : Word) :
    applyField config sealed f w old d acc =
      (setBits acc (fieldSlice f w).1 (fieldSlice f w).2.1 (getBits d (fieldSlice f w).1 (fieldSlice f w).2.1), false) := by
  unfold applyField
  extract_lets sl lo wd o x
  split
  · next h0 =>
    have hz : setBits acc lo 0 (getBits d lo 0) = acc := by
      apply BitVec.eq_of_getLsbD_eq
      intro i _
      rw [getLsbD_setBits, if_neg (by omega)]
    rw [show (fieldSlice f w).2.1 = 0 from h0]
    exact congrArg (·, false) hz.symm
  · rw [hf]

/-- The words that read-write fields make, one after the other. -/
theorem writtenBits_rw {fields : List FieldRow} (h : ∀ f ∈ fields, f.acc = .rw) (config sealed : Bool) (w : Nat) (old d : Word) :
    writtenBits config sealed fields w old d =
      (fields.foldl (fun a f => setBits a (fieldSlice f w).1 (fieldSlice f w).2.1
        (getBits d (fieldSlice f w).1 (fieldSlice f w).2.1)) old, false) := by
  unfold writtenBits
  have key (l : List FieldRow) (hl : ∀ f ∈ l, f.acc = .rw) (acc : Word) :
      l.foldl (fun (a : Word × Bool) f =>
        let n := applyField config sealed f w old d a.1
        (n.1, a.2 || n.2)) (acc, false) =
      (l.foldl (fun a f => setBits a (fieldSlice f w).1 (fieldSlice f w).2.1
        (getBits d (fieldSlice f w).1 (fieldSlice f w).2.1)) acc, false) := by
    induction l generalizing acc with
    | nil => rfl
    | cons f l ih =>
      simp only [List.foldl_cons, applyField_rw (hl f (by simp)), Bool.or_self]
      exact ih (fun g hg => hl g (by simp [hg])) _
  exact key fields h old

/-- Fields that lie apart leave a field. -/
theorem getBits_foldl_apart {w lo wd : Nat} {l : List FieldRow} (h : ∀ f ∈ l, f.apart w lo wd = true) (d acc : Word) :
    getBits (l.foldl (fun a f => setBits a (fieldSlice f w).1 (fieldSlice f w).2.1
      (getBits d (fieldSlice f w).1 (fieldSlice f w).2.1)) acc) lo wd = getBits acc lo wd := by
  induction l generalizing acc with
  | nil => rfl
  | cons f l ih =>
    have hf := h f (by simp)
    rw [List.foldl_cons, ih (fun g hg => h g (by simp [hg]))]
    exact getBits_setBits_ne _ _ (by simpa [FieldRow.apart] using hf)

/-- What word `w` of a register with read-write fields holds in its field number `k` after a write: the data's bits. -/
theorem getBits_writtenBits {fields : List FieldRow} {w lo wd k : Nat} {f : FieldRow} (hrw : ∀ f ∈ fields, f.acc = .rw)
    (hk : fields[k]? = some f) (hlo : (fieldSlice f w).1 = lo) (hwd : (fieldSlice f w).2.1 = wd) (h32 : lo + wd ≤ 32)
    (hpost : ∀ g ∈ fields.drop (k + 1), g.apart w lo wd = true) (config sealed : Bool) (old d : Word) :
    getBits (writtenBits config sealed fields w old d).1 lo wd = getBits d lo wd := by
  obtain ⟨hlt, hget⟩ := List.getElem?_eq_some_iff.mp hk
  have hsplit : fields = fields.take k ++ f :: fields.drop (k + 1) := by
    rw [← hget, List.getElem_cons_drop, List.take_append_drop]
  rw [writtenBits_rw hrw]
  dsimp only
  rw [hsplit, List.foldl_append, List.foldl_cons, getBits_foldl_apart hpost, hlo, hwd, getBits_setBits_self _ _ h32, getBits,
    Nat.mod_mod]

/-- A register word with read-write fields, and where its absent and stuck bits lie. -/
structure RwWord (c : Cfg) (key : Nat) (h : Hit) : Prop where
  hit : hitOf c key = some h
  rw : ∀ f ∈ h.row.fields, f.acc = .rw

section
variable {s : State} {key : Nat} {h : Hit}

theorem RwWord.writtenWord (r : RwWord s.cfg key h) (d : Word) :
    s.writtenWord key d = (((writtenBits (decide (s.mode = 2)) (s.flag F.CHK_SEAL.SEALED) h.row.fields h.word (s.rd key)
      ((d &&& ~~~ absentBits s.cfg key) ||| (s.rd key &&& absentBits s.cfg key))).1 &&& ~~~ absentBits s.cfg key) |||
        stuckOnes s.cfg key, false) := by
  unfold State.writtenWord
  rw [r.hit]
  exact congrArg (Prod.mk _) (by rw [← writtenBits, writtenBits_rw r.rw])

/-- A write leaves the data's bits in a field of such a word that has no absent and no stuck bit. -/
theorem RwWord.getBits_written (r : RwWord s.cfg key h) {lo wd k : Nat} {f : FieldRow} (hk : h.row.fields[k]? = some f)
    (hlo : (fieldSlice f h.word).1 = lo) (hwd : (fieldSlice f h.word).2.1 = wd) (h32 : lo + wd ≤ 32)
    (hpost : ∀ g ∈ h.row.fields.drop (k + 1), g.apart h.word lo wd = true) (ha : getBits (absentBits s.cfg key) lo wd = 0)
    (hs : getBits (stuckOnes s.cfg key) lo wd = 0) (d : Word) :
    getBits (s.writtenWord key d).1 lo wd = getBits d lo wd := by
  rw [r.writtenWord]
  dsimp only
  rw [getBits_or, hs, Nat.or_zero, getBits_and_not _ ha, getBits_writtenBits r.rw hk hlo hwd h32 hpost, getBits_or,
    getBits_and_not _ ha, getBits_and, ha, Nat.and_zero, Nat.or_zero]

/-- A register of one word takes the written word. -/
theorem RwWord.rd_writeFields (r : RwWord s.cfg key h) (hs : isStaged h = false) (d : Word) :
    (s.writeFields key d).rd key = (s.writtenWord key d).1 := by
  rw [State.writeFields_flat r.hit hs]
  exact State.rd_wr_self _ _ _

end

/-! ### MAC_CTL and MAC_GCL_CTL -/

/-- MAC_CTL (04_field_ports.md): ONESTEP_EN, TX_CSUM_EN, RX_CSUM_EN, CUT_EN, FCS_STRIP, DUPLEX, SPEED, EN_TX, EN_RX. -/
def macCtlRow : RegRow :=
  ⟨0x010000, [⟨0x1000, 0, .port⟩], .half, 1, false,
    [⟨15, 1, .rw, 0, 0⟩, ⟨14, 1, .rw, 0, 0⟩, ⟨13, 1, .rw, 0, 0⟩, ⟨12, 1, .rw, 1, 1⟩, ⟨11, 1, .rw, 0, 0⟩, ⟨8, 1, .rw, 1, 1⟩,
      ⟨4, 2, .rw, 2, 2⟩, ⟨1, 1, .rw, 0, 0⟩, ⟨0, 1, .rw, 0, 0⟩]⟩

/-- MAC_GCL_CTL (04_field_ports.md R112): EN, TRUNK, VALID, GUARD_LEN. -/
def macGclCtlRow : RegRow :=
  ⟨0x010020, [⟨0x1000, 0, .port⟩], .half, 1, false,
    [⟨31, 1, .rw, 0, 0⟩, ⟨30, 1, .rw, 0, 0⟩, ⟨16, 8, .rw, 0, 0⟩, ⟨0, 14, .rw, 0x5f2, 0x5f2⟩]⟩

theorem mem_cfgs (c : Cfg) : c ∈ [Cfg.s, Cfg.x] := by cases c <;> decide

/-- What an access to MAC_CTL finds: the word's key, a trunk's MAC file being that of port 8 or 9 (05_trunk_cells.md R133). -/
theorem keyOf_macCtl {c : Cfg} {p key : Nat} (hp : p < 10) (hk : keyOf c (macOff p 0) = some key) :
    key = O.MAC_CTL p ∧ ∃ i, RwWord c (O.MAC_CTL p) ⟨macCtlRow, [i], 0⟩ := by
  have h : ∀ c ∈ [Cfg.s, Cfg.x], ∀ p < 10, (keyOf c (macOff p 0)).all fun key =>
      key = O.MAC_CTL p ∧ hitOf c (O.MAC_CTL p) = some ⟨macCtlRow, [if p < 8 then p else p - 8], 0⟩ := by decide +kernel
  have := h c (mem_cfgs c) p hp
  rw [hk] at this
  simp only [Option.all_some, decide_eq_true_eq] at this
  exact ⟨this.1, _, this.2, (by decide : ∀ f ∈ macCtlRow.fields, f.acc = .rw)⟩

theorem macCtl_bits (c : Cfg) {p : Nat} (hp : p < 10) :
    absentBits c (O.MAC_CTL p) = 0 ∧ stuckOnes c (O.MAC_CTL p) = if p < 8 then 0 else 0x130 := by
  have h : ∀ c ∈ [Cfg.s, Cfg.x], ∀ p < 10,
      absentBits c (O.MAC_CTL p) = 0 ∧ stuckOnes c (O.MAC_CTL p) = if p < 8 then 0 else 0x130 := by decide +kernel
  exact h c (mem_cfgs c) p hp

theorem keyOf_macGclCtl {c : Cfg} {p key : Nat} (hp : p < 8) (hk : keyOf c (O.MAC_GCL_CTL p) = some key) :
    RwWord c (O.MAC_GCL_CTL p) ⟨macGclCtlRow, [p], 0⟩ := by
  have h : ∀ c ∈ [Cfg.s, Cfg.x], ∀ p < 8, (keyOf c (O.MAC_GCL_CTL p)).all fun _ =>
      hitOf c (O.MAC_GCL_CTL p) = some ⟨macGclCtlRow, [p], 0⟩ := by decide +kernel
  have := h c (mem_cfgs c) p hp
  rw [hk] at this
  exact ⟨by simpa using this, (by decide : ∀ f ∈ macGclCtlRow.fields, f.acc = .rw)⟩

/-- TRUNK of MAC_GCL_CTL alone refers to what Gweip-S lacks. -/
theorem macGclCtl_bits (c : Cfg) {p : Nat} (hp : p < 8) :
    absentBits c (O.MAC_GCL_CTL p) = c.pick 0x40000000 0 ∧ stuckOnes c (O.MAC_GCL_CTL p) = 0 := by
  have h : ∀ c ∈ [Cfg.s, Cfg.x], ∀ p < 8,
      absentBits c (O.MAC_GCL_CTL p) = c.pick 0x40000000 0 ∧ stuckOnes c (O.MAC_GCL_CTL p) = 0 := by decide +kernel
  exact h c (mem_cfgs c) p hp

/-! ### The entries of the gate lists -/

/-- A word of a gate list entry (04_field_ports.md R112): LAST, OP, GATES in the high word, INTERVAL in the low one. -/
def macGclRow : RegRow :=
  ⟨0x010800, [⟨0x1000, 0, .port⟩, ⟨0x100, 0, .lim 8 8⟩, ⟨0x8, 0, .lim 32 32⟩], .half, 2, false,
    [⟨43, 1, .rw, 0, 0⟩, ⟨40, 3, .rw, 0, 0⟩, ⟨32, 8, .rw, 0xff, 0xff⟩, ⟨0, 14, .rw, 0, 0⟩]⟩

/-- The register, with one further index at most, lies below byte `m` of every port's MAC file. -/
def RegRow.below (m : Nat) (r : RegRow) : Bool :=
  match r.dims with
  | [d] => d == ⟨0x1000, 0, .port⟩ && decide (0x010000 ≤ r.base ∧ r.base - 0x010000 + 4 * r.words ≤ m)
  | [d, ⟨st, 0, .lim a b⟩] =>
    d == ⟨0x1000, 0, .port⟩ && decide (0 < st ∧ 0x010000 ≤ r.base ∧ r.base - 0x010000 + st * max a b ≤ m)
  | _ => false

/-- A register below byte `m` holds no word from there on. -/
theorem RegRow.rowHit_of_below {m : Nat} {r : RegRow} (h : r.below m = true) (c : Cfg) {p k : Nat} (hm : m ≤ k) (hk : k < 0x1000) :
    rowHit c r (0x010000 + 0x1000 * p + k) = none := by
  obtain ⟨base, dims, dom, words, byteWr, fields⟩ := r
  unfold RegRow.below at h
  unfold rowHit
  dsimp only at *
  split
  · rfl
  · split at h
    · simp only [Bool.and_eq_true, beq_iff_eq, decide_eq_true_eq] at h
      obtain ⟨rfl, hb, hw⟩ := h
      simp only [matchDims]
      split_ifs with hc
      · dsimp only
        rw [if_neg (by omega)]
      · rfl
    · next st a b =>
      simp only [Bool.and_eq_true, beq_iff_eq, decide_eq_true_eq] at h
      obtain ⟨rfl, hst, hb, hw⟩ := h
      have hrel : (0x010000 + 0x1000 * p + k - base) % 0x1000 = k - (base - 0x010000) := by omega
      have hidx : ¬ (k - (base - 0x010000)) / st < max a b := by
        rw [Nat.not_lt, Nat.le_div_iff_mul_le hst, Nat.mul_comm]
        omega
      simp only [matchDims, hrel, idxCount, hidx, false_and, and_false, if_false]
      split_ifs <;> rfl
    · exact nomatch h

theorem findHit_gcl (c : Cfg) {p k : Nat} (hp : p < 8) (hk : 0x800 ≤ k) (hk' : k < 0x1000) :
    findHit c (0x010000 + 0x1000 * p + k) = rowHit c macGclRow (0x010000 + 0x1000 * p + k) := by
  have hrows : windowRows (0x010000 + 0x1000 * p + k) = (regRows04a ++ regRows04b).dropLast ++ [macGclRow] := by
    rw [windowRows, if_neg (by omega), if_pos (by omega)]
    rfl
  have hbelow : ∀ r ∈ (regRows04a ++ regRows04b).dropLast, r.below 0x800 = true := by decide
  rw [findHit, hrows, List.findSome?_append, List.findSome?_eq_none_iff.mpr fun r hr => RegRow.rowHit_of_below (hbelow r hr) c hk hk']
  exact (Option.none_or).trans List.findSome?_singleton

theorem matchDims_gcl {c : Cfg} {p g i b : Nat} (hg : g < 8) (hi : i < 32) (hb : b < 8) :
    matchDims c macGclRow.dims (0x1000 * p + (0x100 * g + (8 * i + b))) =
      if p < 8 ∧ p < c.fieldPorts then some (b, [p, g, i]) else none := by
  have h1 : (0x1000 * p + (0x100 * g + (8 * i + b))) / 0x1000 = p := by omega
  have h2 : (0x1000 * p + (0x100 * g + (8 * i + b))) % 0x1000 = 0x100 * g + (8 * i + b) := by omega
  have h3 : (0x100 * g + (8 * i + b)) / 0x100 = g := by omega
  have h4 : (0x100 * g + (8 * i + b)) % 0x100 = 8 * i + b := by omega
  have h5 : (8 * i + b) / 8 = i := by omega
  have h6 : (8 * i + b) % 8 = b := by omega
  have hlim (n : Nat) : c.pick n n = n := by cases c <;> rfl
  have hdims : macGclRow.dims = [⟨0x1000, 0, .port⟩, ⟨0x100, 0, .lim 8 8⟩, ⟨0x8, 0, .lim 32 32⟩] := rfl
  rw [hdims]
  simp only [matchDims, h1, h2, h3, h4, h5, h6, idxCount, idxHas, hlim, Nat.zero_le, max_self, hg, hi, decide_true, and_self,
    true_and, if_true, decide_eq_true_eq]

theorem rowHit_gcl {c : Cfg} {p g i w : Nat} (hg : g < 8) (hi : i < 32) (hw : w < 2) :
    rowHit c macGclRow (0x010000 + 0x1000 * p + (0x800 + 0x100 * g + 8 * i + 4 * w)) =
      if p < 8 ∧ p < c.fieldPorts then some ⟨macGclRow, [p, g, i], w⟩ else none := by
  have hbase : macGclRow.base = 0x010800 := rfl
  have hwords : macGclRow.words = 2 := rfl
  have hrel : 0x010000 + 0x1000 * p + (0x800 + 0x100 * g + 8 * i + 4 * w) - 0x010800 = 0x1000 * p + (0x100 * g + (8 * i + 4 * w)) := by
    omega
  unfold rowHit
  rw [if_neg (by omega), hbase, hrel, matchDims_gcl hg hi (by omega)]
  split_ifs
  · dsimp only
    rw [if_pos (by omega), Nat.mul_div_cancel_left _ (by decide)]
  · rfl

/-- The offset of word `w` of an entry. -/
def gclWord (p g i w : Nat) : Nat := O.MAC_GCL p g i + 4 * w

theorem gclWord_eq (p g i w : Nat) : gclWord p g i w = 0x010000 + 0x1000 * p + (0x800 + 0x100 * g + 8 * i + 4 * w) := by
  simp only [gclWord, O.MAC_GCL]
  omega

theorem keyOf_low (c : Cfg) {off : Nat} (h : off < 0x018000) : keyOf c off = (findHit c off).map fun _ => off := by
  have hb : inTbB off = false := by simp only [inTbB, decide_eq_false_iff_not]; omega
  have ha : inTbA off = false := by simp only [inTbA, decide_eq_false_iff_not]; omega
  unfold keyOf
  rw [hb, ha, if_neg Bool.false_ne_true, if_neg (by omega), if_neg (by simp)]

theorem hitOf_low (c : Cfg) {key : Nat} (h : key < 0x018000) : hitOf c key = findHit c key := by
  have hb : inTbB key = false := by simp only [inTbB, decide_eq_false_iff_not]; omega
  unfold hitOf
  rw [hb, if_neg (by simp; omega)]

theorem absentS_mac {key : Nat} (h : 0x010000 ≤ key) (h' : key < 0x018000) (hk : key % 0x1000 ≠ 0x20) : absentS key = 0 := by
  have hne (k : Nat) (hk : k < 0x010000 ∨ 0x018000 ≤ k) : ¬ key = k := by omega
  have hspread : ¬ O.CLS_SPREAD_TGT 0 ≤ key := by
    simp only [O.CLS_SPREAD_TGT]
    omega
  unfold absentS
  simp (disch := decide) only [hne, hspread, hk, or_self, and_false, false_and, if_false]

section
variable {c : Cfg} {p g i w : Nat} (hp : p < 8) (hg : g < 8) (hi : i < 32) (hw : w < 2)
include hp hg hi hw

theorem gclWord_range : 0x010800 ≤ gclWord p g i w ∧ gclWord p g i w < 0x018000 ∧ gclWord p g i w % 0x1000 ≠ 0x20 := by
  rw [gclWord_eq]
  omega

theorem gcl_bits : absentBits c (gclWord p g i w) = 0 ∧ stuckOnes c (gclWord p g i w) = 0 := by
  obtain ⟨h1, h2, h3⟩ := gclWord_range hp hg hi hw
  have h (k : Nat) (hk : k = O.PWR_WAKE_SET 0 ∨ k = O.PWR_WAKE_SET 1 ∨ k = O.MAC_CTL 8 ∨ k = O.MAC_CTL 9) :
      gclWord p g i w ≠ k := by
    simp only [O.PWR_WAKE_SET, O.MAC_CTL] at hk
    omega
  constructor
  · rw [absentBits, if_neg (by omega), if_neg (h _ (by simp)), absentS_mac (by omega) h2 h3]
    cases c <;> rfl
  · rw [stuckOnes, if_neg (h _ (by simp)), if_neg (not_or.mpr ⟨h _ (by simp), h _ (by simp)⟩)]

theorem hitOf_gcl : hitOf c (gclWord p g i w) = if p < 8 ∧ p < c.fieldPorts then some ⟨macGclRow, [p, g, i], w⟩ else none := by
  rw [hitOf_low c (gclWord_range hp hg hi hw).2.1, gclWord_eq, findHit_gcl c hp (by omega) (by omega), rowHit_gcl hg hi hw]

/-- An access that finds an entry's word finds both words of the entry. -/
theorem keyOf_gcl {key : Nat} (hk : keyOf c (gclWord p g i w) = some key) :
    key = gclWord p g i w ∧ ∀ w' < 2, RwWord c (gclWord p g i w') ⟨macGclRow, [p, g, i], w'⟩ := by
  have hlow := (gclWord_range hp hg hi hw).2.1
  rw [keyOf_low c hlow, ← hitOf_low c hlow, hitOf_gcl hp hg hi hw] at hk
  have hport : p < 8 ∧ p < c.fieldPorts := by
    by_contra h
    rw [if_neg h] at hk
    exact nomatch hk
  rw [if_pos hport] at hk
  refine ⟨(Option.some.inj hk).symm, fun w' hw' => ⟨?_, (by decide : ∀ f ∈ macGclRow.fields, f.acc = .rw)⟩⟩
  rw [hitOf_gcl hp hg hi hw', if_pos hport]

end

/-- The high word of a register of two words with read-write fields takes the written word, whether a low word waits or not
(02_boundary_and_access.md R55). -/
theorem State.rd_writeFields_high {s : State} {key : Nat} {h : Hit} {v d : Word} (hh : hitOf s.cfg key = some h)
    (hs : isStaged h = true) (hword : h.word = 1) (hwords : h.row.words = 2) (hv : s.writtenWord key d = (v, false))
    (hlow : ∀ v0, (s.writtenWord (key - 4) v0).2 = false) (hact : isActLow (key - 4) = false) (hkey : 4 ≤ key) :
    (s.writeFields key d).rd key = v := by
  have hne : key ≠ key - 4 := by omega
  have hsb : s.stagedBad key 1 = false := by
    simp only [State.stagedBad, List.range_one, List.any_cons, List.any_nil, Bool.or_false, Nat.sub_zero, Nat.mul_one]
    split
    · exact hlow _
    · rfl
  have happ : ((s.wr key v).applyStaged key 1).rd key = v := by
    simp only [State.applyStaged, forEach, List.range_one, List.foldl_cons, List.foldl_nil, Nat.sub_zero, Nat.mul_one]
    split
    · rw [State.rd_setStage, State.rd_wr_ne _ _ hne, State.rd_wr_self]
    · exact State.rd_wr_self _ _ _
  unfold State.writeFields
  rw [hh]
  dsimp only
  simp only [hv, hword, hwords, hs, hsb, if_true, Bool.false_eq_true, if_false, Bool.or_self, Nat.reduceAdd, Nat.lt_irrefl, Nat.mul_one,
    State.cutTarget, hact, happ]

/-- The fields of an entry's high word after a write of it. -/
theorem State.getBits_writeFields_gcl {s : State} {p g i key : Nat} (hp : p < 8) (hg : g < 8) (hi : i < 32)
    (hk : keyOf s.cfg (gclWord p g i 1) = some key) (d : Word) :
    getBits ((s.writeFields key d).rd key) 0 8 = getBits d 0 8 ∧ getBits ((s.writeFields key d).rd key) 11 1 = getBits d 11 1 := by
  obtain ⟨rfl, hrow⟩ := keyOf_gcl hp hg hi (by decide) hk
  have hhigh := hrow 1 (by decide)
  have hsub : gclWord p g i 1 - 4 = gclWord p g i 0 := by simp [gclWord]
  obtain ⟨hlo, -, -⟩ := gclWord_range hp hg hi (by decide : 0 < 2)
  have hact : isActLow (gclWord p g i 0) = false := by
    have := gclWord_range hp hg hi (by decide : 0 < 2)
    simp only [isActLow, O.CLS_STG_DEF_ACT, O.CLS_TCAM_ACT, O.CLS_EM_ACT, Bool.or_eq_false_iff, beq_eq_false_iff_ne]
    omega
  obtain ⟨ha, hs⟩ := gcl_bits (c := s.cfg) hp hg hi (by decide : 1 < 2)
  have hwritten : s.writtenWord (gclWord p g i 1) d = ((s.writtenWord (gclWord p g i 1) d).1, false) := by
    rw [hhigh.writtenWord]
  have hrd : (s.writeFields (gclWord p g i 1) d).rd (gclWord p g i 1) = (s.writtenWord (gclWord p g i 1) d).1 :=
    State.rd_writeFields_high hhigh.hit rfl rfl rfl hwritten (fun v0 => by rw [hsub, (hrow 0 (by decide)).writtenWord]) (by rwa [hsub])
      (by simp only [gclWord]; omega)
  rw [hrd]
  exact ⟨hhigh.getBits_written (lo := 0) (wd := 8) (k := 2) rfl rfl rfl (by decide)
      (by decide : ∀ f ∈ macGclRow.fields.drop 3, f.apart 1 0 8 = true) (by rw [ha]; rfl) (by rw [hs]; rfl) d,
    hhigh.getBits_written (lo := 11) (wd := 1) (k := 0) rfl rfl rfl (by decide)
      (by decide : ∀ f ∈ macGclRow.fields.drop 1, f.apart 1 11 1 = true) (by rw [ha]; rfl) (by rw [hs]; rfl) d⟩

/-- VALID and EN of MAC_GCL_CTL after a write of it. -/
theorem State.getBits_writeFields_gclCtl {s : State} {p key : Nat} (hp : p < 8) (hk : keyOf s.cfg (O.MAC_GCL_CTL p) = some key) (d : Word) :
    getBits ((s.writeFields (O.MAC_GCL_CTL p) d).rd (O.MAC_GCL_CTL p)) 16 8 = getBits d 16 8 ∧
    getBits ((s.writeFields (O.MAC_GCL_CTL p) d).rd (O.MAC_GCL_CTL p)) 31 1 = getBits d 31 1 := by
  have hrow := keyOf_macGclCtl hp hk
  obtain ⟨ha, hs⟩ := macGclCtl_bits s.cfg hp
  have h1 : getBits (absentBits s.cfg (O.MAC_GCL_CTL p)) 16 8 = 0 ∧ getBits (absentBits s.cfg (O.MAC_GCL_CTL p)) 31 1 = 0 := by
    rw [ha]
    cases s.cfg <;> decide
  rw [hrow.rd_writeFields rfl]
  exact ⟨hrow.getBits_written (lo := 16) (wd := 8) (k := 2) rfl rfl rfl (by decide)
      (by decide : ∀ f ∈ macGclCtlRow.fields.drop 3, f.apart 0 16 8 = true) h1.1 (by rw [hs]; rfl) d,
    hrow.getBits_written (lo := 31) (wd := 1) (k := 0) rfl rfl rfl (by decide)
      (by decide : ∀ f ∈ macGclCtlRow.fields.drop 1, f.apart 0 31 1 = true) h1.2 (by rw [hs]; rfl) d⟩

end Sys2Proof.Machine

namespace Sys2Proof.Machine

/-! ## Gate lists (04_field_ports.md R110, R112) -/

/-- A field of a MAC's word, below the pending words. -/
theorem State.fget_raisePort (s : State) (p k : Nat) {g : Fld} (hg : g.off < O.IRQ_PEND 0) : (s.raisePort p k).fget g = s.fget g :=
  (s.raisePort_lowWords p k []).fget g hg List.not_mem_nil

theorem State.flag_raisePort (s : State) (p k : Nat) {g : Fld} (hg : g.off < O.IRQ_PEND 0) : (s.raisePort p k).flag g = s.flag g :=
  (s.raisePort_lowWords p k []).flag g hg List.not_mem_nil

/-- Two words whose fields of one bit agree hold the same bit there. -/
theorem bitOf_of_getBits {w v : Word} {i k : Nat} (h : getBits w i 1 = getBits v k 1) : bitOf w i = bitOf v k := by
  have h0 := congrArg (Nat.testBit · 0) h
  simpa only [bitOf, testBit_getBits, Nat.add_zero, Nat.zero_lt_one, decide_true, Bool.true_and] using h0

/-! ### The entry in effect -/

section
variable {s : State} {p i : Nat}

/-- Entering an entry shows its number; of the status word only OVERRUN may change besides. -/
theorem State.fget_gateEnter (hp : p < 8) {g : Fld} (hoff : g.off = O.MAC_GCL_STAT p) (hlo : g.lo + g.wd ≤ 15) :
    (s.gateEnter p i).fget g = (s.fset (F.MAC_GCL_STAT.ENTRY p) i).fget g := by
  have hlow : g.off < O.IRQ_PEND 0 := by
    rw [hoff, O.MAC_GCL_STAT]
    exact macWord_low (by omega) (by decide)
  have hover (u : State) : ((u.fset (F.MAC_GCL_STAT.OVERRUN p) 1).raisePort p 5).fget g = u.fget g := by
    rw [State.fget_raisePort _ _ _ hlow]
    exact u.fget_fset_ne _ _ _ (.inr (.inr hlo))
  have hhold (u : State) (v : Port) : (u.setPort p v).fget g = u.fget g := State.fget_setPort _ _ _ _
  unfold State.gateEnter
  cases h : ((s.fset (F.MAC_GCL_STAT.ENTRY p) i).port p).tx with
  | none => simp only [h, hhold]
  | some c =>
    simp only [h]
    rw [State.fget_ite, hover, ite_self, hhold]

theorem State.entry_gateEnter (hp : p < 8) (hi : i < 32) : (s.gateEnter p i).fget (F.MAC_GCL_STAT.ENTRY p) = i := by
  rw [State.fget_gateEnter hp rfl (by decide : 8 + 5 ≤ 15), s.fget_fset_self _ _ (by decide : 8 + 5 ≤ 32)]
  exact Nat.mod_eq_of_lt hi

theorem State.gear_gateEnter (hp : p < 8) : (s.gateEnter p i).fget (F.MAC_GCL_STAT.GEAR p) = s.fget (F.MAC_GCL_STAT.GEAR p) := by
  rw [State.fget_gateEnter hp rfl (by decide : 0 + 3 ≤ 15)]
  exact s.fget_fset_ne _ _ _ (.inr (.inr (by decide : 0 + 3 ≤ 8)))

theorem State.gated_lt (h : s.gated p = true) : p < 8 := by
  simp only [State.gated, Bool.and_eq_true, decide_eq_true_eq] at h
  exact h.1

theorem exec_gateEntryExpiry (hg : s.gated p = true) (hu : s.portUp p = true) :
    exec (.gateEntryExpiry p) s =
      if s.flag (F.MAC_GCL.LAST p (s.fget (F.MAC_GCL_STAT.GEAR p)) (s.fget (F.MAC_GCL_STAT.ENTRY p))) = true ∨
          s.fget (F.MAC_GCL_STAT.ENTRY p) = 31 then .next (s.gateRestart p)
      else .next (s.gateEnter p (s.fget (F.MAC_GCL_STAT.ENTRY p) + 1)) := if_pos ⟨hg, hu⟩

theorem gateLists_nextEntry (hg : s.gated p = true) (hu : s.portUp p = true)
    (hl : s.flag (F.MAC_GCL.LAST p (s.fget (F.MAC_GCL_STAT.GEAR p)) (s.fget (F.MAC_GCL_STAT.ENTRY p))) = false)
    (hi : s.fget (F.MAC_GCL_STAT.ENTRY p) < 31) :
    ∃ t, exec (.gateEntryExpiry p) s = .next t ∧ t.fget (F.MAC_GCL_STAT.ENTRY p) = s.fget (F.MAC_GCL_STAT.ENTRY p) + 1 ∧
      t.fget (F.MAC_GCL_STAT.GEAR p) = s.fget (F.MAC_GCL_STAT.GEAR p) :=
  ⟨_, (exec_gateEntryExpiry hg hu).trans (if_neg (by rw [hl]; simp; omega)), State.entry_gateEnter (State.gated_lt hg) (by omega),
    State.gear_gateEnter (State.gated_lt hg)⟩

theorem gateLists_lastEntry (hg : s.gated p = true) (hu : s.portUp p = true)
    (hl : s.flag (F.MAC_GCL.LAST p (s.fget (F.MAC_GCL_STAT.GEAR p)) (s.fget (F.MAC_GCL_STAT.ENTRY p))) = true ∨
      s.fget (F.MAC_GCL_STAT.ENTRY p) = 31) :
    ∃ t, exec (.gateEntryExpiry p) s = .next t ∧ t.fget (F.MAC_GCL_STAT.ENTRY p) = 0 ∧
      t.fget (F.MAC_GCL_STAT.GEAR p) = s.gearOf p % 8 := by
  have hp := State.gated_lt hg
  have hrestart : s.gateRestart p = (s.fset (F.MAC_GCL_STAT.GEAR p) (s.gearOf p)).gateEnter p 0 := if_pos hg
  refine ⟨_, (exec_gateEntryExpiry hg hu).trans (if_pos hl), ?_, ?_⟩
  · rw [hrestart, State.entry_gateEnter hp (by decide)]
  · rw [hrestart, State.gear_gateEnter hp]
    exact s.fget_fset_self _ _ (by decide : 0 + 3 ≤ 32)

end

/-! ### Writes of the entries -/

section
variable {s : State} {p g i key : Nat} (data : Word)

theorem exec_gateListWrite_entry (hg : g < 8) (hi : i < 32) {high : Bool} (hr : s.Reaches (O.MAC_GCL p g i + 4 * b2n high) key) :
    exec (.gateListWrite 0 p false g i high data) s = .next ((s.answer false 0).gclEntryWrite p g key data) := by
  show execGateListWrite 0 p false g i high data s = _
  unfold execGateListWrite
  rw [if_neg Bool.false_ne_true, Nat.mod_eq_of_lt hg, Nat.mod_eq_of_lt hi, hr.access]

theorem gateLists_validEntry (hg : g < 8) (hi : i < 32) {high : Bool} (hr : s.Reaches (O.MAC_GCL p g i + 4 * b2n high) key)
    (hv : s.fget (F.MAC_GCL_CTL.VALID p) / 2 ^ g % 2 = 1) :
    ∃ t, exec (.gateListWrite 0 p false g i high data) s = .next t ∧ t.slv = some ⟨true, 0⟩ ∧ t.regs = s.regs ∧ t.stage = s.stage := by
  have h : (s.answer false 0).gclEntryWrite p g key data = (s.answer false 0).deny := if_pos (by rwa [State.fget_answer])
  exact ⟨_, (exec_gateListWrite_entry data hg hi hr).trans (congrArg _ h), rfl, rfl, rfl⟩

theorem gateLists_entryWritten (hp : p < 8) (hg : g < 8) (hi : i < 32) (hr : s.Reaches (O.MAC_GCL p g i + 4 * b2n true) key)
    (hv : s.fget (F.MAC_GCL_CTL.VALID p) / 2 ^ g % 2 = 0) :
    ∃ t, exec (.gateListWrite 0 p false g i true data) s = .next t ∧ t.fget (F.MAC_GCL.GATES p g i) = getBits data 0 8 ∧
      t.flag (F.MAC_GCL.LAST p g i) = bitOf data 11 := by
  have h : (s.answer false 0).gclEntryWrite p g key data = (s.answer false 0).writeFields key data :=
    if_neg (by rw [State.fget_answer]; omega)
  have hkey : key = O.MAC_GCL p g i + 4 := (keyOf_gcl hp hg hi (by decide : 1 < 2) hr.1).1
  obtain ⟨hgates, hlast⟩ := State.getBits_writeFields_gcl (s := s.answer false 0) hp hg hi hr.1 data
  refine ⟨_, (exec_gateListWrite_entry data hg hi hr).trans (congrArg _ h), ?_, ?_⟩
  · exact (congrArg (fun k => getBits (State.rd _ k) 0 8) hkey.symm).trans hgates
  · rw [State.flag_eq_bitOf _ rfl]
    exact (congrArg (fun k => bitOf (State.rd _ k) 11) hkey.symm).trans (bitOf_of_getBits hlast)

end

/-! ### Writes of MAC_GCL_CTL -/

/-- A sum of different powers of two holds the bits of its terms. -/
theorem foldl_two_pow (c : Nat → Bool) (n : Nat) :
    let x := (List.range n).foldl (fun a g => if c g = true then a + 2 ^ g else a) 0
    x < 2 ^ n ∧ ∀ g < n, x.testBit g = c g := by
  induction n with
  | zero => simp
  | succ n ih =>
    intro x
    obtain ⟨hlt, hbit⟩ := ih
    have hx : x = if c n = true then 2 ^ n + (List.range n).foldl (fun a g => if c g = true then a + 2 ^ g else a) 0
        else (List.range n).foldl (fun a g => if c g = true then a + 2 ^ g else a) 0 := by
      simp only [x, List.range_succ, List.foldl_append, List.foldl_cons, List.foldl_nil, Nat.add_comm]
    generalize (List.range n).foldl (fun a g => if c g = true then a + 2 ^ g else a) 0 = y at *
    rw [hx]
    have h2 : 2 ^ (n + 1) = 2 * 2 ^ n := by ring
    refine ⟨by split_ifs <;> omega, fun g hg => ?_⟩
    obtain rfl | hne : g = n ∨ g < n := by omega
    · split_ifs with hc
      · rw [Nat.testBit_two_pow_add_eq, Nat.testBit_lt_two_pow hlt, hc]
        rfl
      · rw [Nat.testBit_lt_two_pow hlt]
        simpa using hc
    · split_ifs
      · rw [Nat.testBit_two_pow_add_gt hne, hbit g hne]
      · exact hbit g hne

/-- The gears whose lists a write of MAC_GCL_CTL leaves VALID (R112). -/
def State.gclKeep (s : State) (p : Nat) : Nat :=
  (List.range 8).foldl (fun a g => if (decide (g = s.gearOf p) ||
      (decide (s.fget F.TRK_SHIFT.PHASE ≠ 0) && decide (g = s.node.shTarget))) = true ∧
    s.fget (F.MAC_GCL_CTL.VALID p) / 2 ^ g % 2 = 1 then a + 2 ^ g else a) 0

theorem State.testBit_gclKeep {s : State} {p : Nat} (hg : s.gearOf p < 8)
    (hv : s.fget (F.MAC_GCL_CTL.VALID p) / 2 ^ s.gearOf p % 2 = 1) : (s.gclKeep p).testBit (s.gearOf p) = true := by
  have h := (foldl_two_pow (fun g => decide ((decide (g = s.gearOf p) ||
      (decide (s.fget F.TRK_SHIFT.PHASE ≠ 0) && decide (g = s.node.shTarget))) = true ∧
    s.fget (F.MAC_GCL_CTL.VALID p) / 2 ^ g % 2 = 1)) 8).2 _ hg
  simp only [decide_eq_true_eq] at h
  rw [State.gclKeep, h]
  simp [hv]

/-- MAC_GCL_CTL with the data's fields and the VALID bits that are kept. -/
def State.gclCtlStored (s : State) (p : Nat) (data : Word) : State :=
  (s.writeFields (O.MAC_GCL_CTL p) (setBits data 16 8 (Nat.lor (getBits data 16 8) (s.gclKeep p)))).gearOkCheck

section
variable {s : State} {p key : Nat} (data : Word)

theorem State.gclCtlWrite_eq (s : State) (p : Nat) (data : Word) :
    s.gclCtlWrite p data =
      let u := s.gclCtlStored p data
      if u.gated p then (if s.gated p then u else u.fsets [(F.MAC_GCL_STAT.GEAR p, u.gearOf p), (F.MAC_GCL_STAT.ENTRY p, 0)])
      else u.setPort p { u.port p with hold := false } := rfl

theorem State.rd_gclCtlWrite (s : State) (p : Nat) : (s.gclCtlWrite p data).rd (O.MAC_GCL_CTL p) = (s.gclCtlStored p data).rd (O.MAC_GCL_CTL p) := by
  have hne (v : Nat) : O.MAC_GCL_CTL p ≠ (F.MAC_GCL_STAT.GEAR p).off ∧ O.MAC_GCL_CTL p ≠ (F.MAC_GCL_STAT.ENTRY p).off := by
    simp only [F.MAC_GCL_STAT.GEAR, F.MAC_GCL_STAT.ENTRY, O.MAC_GCL_CTL, O.MAC_GCL_STAT]
    omega
  rw [State.gclCtlWrite_eq]
  dsimp only
  split_ifs
  · rfl
  · simp only [State.fsets_cons, State.fsets_nil]
    rw [State.rd_fset_ne _ _ _ (hne 0).2, State.rd_fset_ne _ _ _ (hne 0).1]
  · rw [State.rd_setPort]

theorem State.gclCtlStored_fields (hp : p < 8) (hk : keyOf s.cfg (O.MAC_GCL_CTL p) = some key) :
    getBits ((s.gclCtlStored p data).rd (O.MAC_GCL_CTL p)) 16 8 = Nat.lor (getBits data 16 8) (s.gclKeep p) % 2 ^ 8 ∧
    getBits ((s.gclCtlStored p data).rd (O.MAC_GCL_CTL p)) 31 1 = getBits data 31 1 := by
  have hgear (u : State) (k : Nat) : u.gearOkCheck.rd k = u.rd k := by
    have h := State.gearOkCheck_keeps (Keeps.refl (ar := [.trunks, .node]) u) (Allows.refl _)
    exact State.rd_congr (h.1 .cfg (by decide)) (h.1 .regs (by decide)) k
  obtain ⟨hvalid, hen⟩ := State.getBits_writeFields_gclCtl hp hk
    (setBits data 16 8 (Nat.lor (getBits data 16 8) (s.gclKeep p)))
  unfold State.gclCtlStored
  rw [hgear, hvalid, hen]
  exact ⟨getBits_setBits_self _ _ (by decide), getBits_setBits_ne _ _ (.inl (by decide))⟩

theorem gateLists_ctl (hp : p < 8) (hr : s.Reaches (O.MAC_GCL_CTL p) key) :
    ∃ t, exec (.gateListWrite 0 p true 0 0 false data) s = .next t ∧
      (s.fget (F.MAC_GCL_CTL.VALID p) / 2 ^ s.gearOf p % 2 = 1 → s.gearOf p < 8 →
        t.fget (F.MAC_GCL_CTL.VALID p) / 2 ^ s.gearOf p % 2 = 1) ∧
      (s.flag (F.MAC_GCL_CTL.EN p) = false → bitOf data 31 = true → t.fget (F.MAC_GCL_STAT.ENTRY p) = 0 ∧
        t.flag (F.MAC_GCL_CTL.EN p) = true) := by
  let u := s.answer false 0
  have hexec : exec (.gateListWrite 0 p true 0 0 false data) s = .next (u.gclCtlWrite p data) :=
    congrArg Host.Outcome.next (hr.access _)
  obtain ⟨hvalid, hen⟩ := State.gclCtlStored_fields (s := u) data hp hr.1
  refine ⟨_, hexec, fun hv hg => ?_, fun hoff hon => ?_⟩
  · have hfget : (u.gclCtlWrite p data).fget (F.MAC_GCL_CTL.VALID p) = Nat.lor (getBits data 16 8) (u.gclKeep p) % 2 ^ 8 :=
      (congrArg (getBits · 16 8) (u.rd_gclCtlWrite data p)).trans hvalid
    have hkeep : (u.gclKeep p).testBit (s.gearOf p) = true := State.testBit_gclKeep (s := u) hg hv
    have hbit : (Nat.lor (getBits data 16 8) (u.gclKeep p) % 2 ^ 8).testBit (s.gearOf p) = true := by
      show ((getBits data 16 8 ||| u.gclKeep p) % 2 ^ 8).testBit _ = true
      rw [Nat.testBit_mod_two_pow, Nat.testBit_or, hkeep]
      simp [hg]
    rw [hfget]
    rwa [Nat.testBit_eq_decide_div_mod_eq, decide_eq_true_eq] at hbit
  · have hfget (w : State) (hw : getBits (w.rd (O.MAC_GCL_CTL p)) 31 1 = getBits data 31 1) : w.flag (F.MAC_GCL_CTL.EN p) = true := by
      rw [State.flag_eq_bitOf _ rfl, ← hon]
      exact bitOf_of_getBits hw
    have hnew : (u.gclCtlStored p data).gated p = true := by
      rw [State.gated, hfget _ hen, decide_eq_true hp]
      rfl
    have hold : u.gated p = false := by
      rw [State.gated, State.flag_answer, hoff, Bool.and_false]
    have hshown : u.gclCtlWrite p data = (u.gclCtlStored p data).fsets
        [(F.MAC_GCL_STAT.GEAR p, (u.gclCtlStored p data).gearOf p), (F.MAC_GCL_STAT.ENTRY p, 0)] := by
      rw [State.gclCtlWrite_eq]
      dsimp only
      rw [if_pos hnew, hold, if_neg Bool.false_ne_true]
    refine ⟨?_, hfget _ ((congrArg (getBits · 31 1) (u.rd_gclCtlWrite data p)).trans hen)⟩
    rw [hshown, State.fsets_cons, State.fsets_cons, State.fsets_nil]
    exact State.fget_fset_self _ _ _ (by decide : 8 + 5 ≤ 32)

end

/-- Settles O21: the end of an entry's time, a write of an entry, and a write of MAC_GCL_CTL. -/
theorem gateLists : Obligations.GateLists :=
  ⟨fun _ _ hg hu => ⟨gateLists_nextEntry hg hu, gateLists_lastEntry hg hu⟩,
    fun _ _ _ _ _ _ data hp hg hi hr =>
      ⟨gateLists_validEntry data hg hi hr, fun hv hhigh => by
        subst hhigh
        exact gateLists_entryWritten data hp hg hi hr hv⟩,
    fun _ _ _ data hp hr => gateLists_ctl data hp hr⟩

end Sys2Proof.Machine

namespace Sys2Proof.Machine

/-! ## What the ports hold

Many operations change what a port remembers of its edits and its flow control, and none of the frames that stand at it. -/

/-- The frame that arrives at a port and the copies that wait there, leave it and are held. -/
def Port.traffic (v : Port) : Option Nat × List Copy × Option Copy × Option Copy := (v.arriving, v.egress, v.tx, v.held)

/-- The frames and copies at every port are the same. -/
def SameTraffic (s t : State) : Prop := ∀ n, (t.port n).traffic = (s.port n).traffic

section
variable {s t u : State}

theorem SameTraffic.refl (s : State) : SameTraffic s s := fun _ => rfl

theorem SameTraffic.trans (h : SameTraffic s t) (k : SameTraffic t u) : SameTraffic s u := fun n => (k n).trans (h n)

theorem SameTraffic.ite {c : Prop} [Decidable c] (ht : SameTraffic s t) (hu : SameTraffic s u) :
    SameTraffic s (if c then t else u) := by
  split
  · exact ht
  · exact hu

theorem SameTraffic.forEach {α : Type} {f : α → State → State} (hf : ∀ a u, SameTraffic u (f a u)) (l : List α) (s : State) :
    SameTraffic s (forEach l f s) := by
  induction l generalizing s with
  | nil => exact .refl s
  | cons a l ih => exact (hf a s).trans (ih (f a s))

theorem Keeps.sameTraffic {ar : List Area} (h : Keeps ar s t) (hp : Area.ports ∉ ar) : SameTraffic s t :=
  fun n => congrArg Port.traffic (h.port hp n)

theorem SameTraffic.setPort {p : Nat} {v : Port} (h : v.traffic = (s.port p).traffic) : SameTraffic s (s.setPort p v) := by
  intro n
  by_cases hn : n = p
  · subst hn
    rw [State.port_setPort_self, h]
  · rw [State.port_setPort_ne _ _ hn]

variable (h : SameTraffic s t) (n : Nat)
include h

theorem SameTraffic.arriving : (t.port n).arriving = (s.port n).arriving := congrArg (·.1) (h n)
theorem SameTraffic.egress : (t.port n).egress = (s.port n).egress := congrArg (·.2.1) (h n)
theorem SameTraffic.tx : (t.port n).tx = (s.port n).tx := congrArg (·.2.2.1) (h n)

end

section
variable (s : State) (p f : Nat)

theorem State.fcCheck_traffic : SameTraffic s (s.fcCheck p) := by
  unfold State.fcCheck
  refine .forEach (fun k u => ?_) _ _
  dsimp only
  split
  · exact SameTraffic.setPort (by simp only [Port.traffic])
  · exact .ite (SameTraffic.setPort (by simp only [Port.traffic])) (.refl u)

theorem State.tidy_traffic : SameTraffic s s.tidy :=
  ((State.gc_keeps (Keeps.refl (ar := [.regs, .frames, .mem]) s) (Allows.refl _)).sameTraffic (by decide)).trans
    (.forEach (fun _ _ => State.fcCheck_traffic _ _) _ _)

theorem State.fset_traffic (g : Fld) (v : Nat) : SameTraffic s (s.fset g v) := fun _ => congrArg Port.traffic (State.port_fset ..)

theorem State.dropEdits_traffic : SameTraffic s (s.dropEdits p f) := by
  refine SameTraffic.trans ?_ (.forEach (fun _ _ n => congrArg Port.traffic (State.port_spliceNote _ n _ _ _)) _ _)
  exact SameTraffic.trans (SameTraffic.setPort (p := p) (by simp only [Port.traffic])) (State.fset_traffic _ _ _)

theorem State.copyGone_traffic (c : Copy) (took : Bool) (status : Nat) : SameTraffic s (s.copyGone p c took status) := by
  have hdone (u : State) (host : Option (Nat × Nat)) (st : Nat) (x : Int) : SameTraffic u (u.hostDone host took st x) :=
    (State.hostDone_keeps (Keeps.refl (ar := [.regs, .qps]) u) _ _ _ _ (Allows.refl _)).sameTraffic (by decide)
  have htx (u : State) (k : Option Nat) : SameTraffic u (u.txDone c.fid k) :=
    (State.txDone_keeps (Keeps.refl (ar := [.regs]) u) _ _ (Allows.refl _)).sameTraffic (by decide)
  exact (((s.dropEdits_traffic p c.fid).trans (hdone _ _ _ _)).trans (htx _ _)).trans (State.tidy_traffic _)

theorem State.copyGone_out (c : Copy) (took : Bool) (status : Nat) : (s.copyGone p c took status).out = s.out :=
  (State.copyGone_keeps (Keeps.refl (ar := [.regs, .frames, .ports, .emem, .qps, .mem]) s) p c took status (Allows.refl _)).1 .out (by decide)

theorem State.gaspGone_keeps_self : Keeps [.regs, .gasp, .trunks, .node, .cls] s (s.gaspGone p) :=
  State.gaspGone_keeps (.refl s) p (Allows.refl _)

@[simp] theorem State.macCnt_out (k : Nat) : (s.macCnt p k).out = s.out :=
  (State.macCnt_keeps (Keeps.refl (ar := [.regs]) s) p k (Allows.refl _)).1 .out (by decide)

end

/-! ## Collisions and preemption's verify (04_field_ports.md R102, R108) -/

/-- A jam has been sent and counted, and the port sends no longer (R102). -/
def State.jammed (s : State) (p : Nat) : State := ((s.macCnt p 25).emit (.jam p)).fset (F.MAC_STAT.TX_BUSY p) 0

section
variable (s : State) (p : Nat)

@[simp] theorem State.jammed_out : (s.jammed p).out = s.out ++ [.jam p] := by simp [State.jammed]
@[simp] theorem State.port_jammed (n : Nat) : (s.jammed p).port n = s.port n := by simp [State.jammed]

theorem State.rd64_jammed : (s.jammed p).rd64 (O.MAC_CNT p 25) = (s.rd64 (O.MAC_CNT p 25) + 1) % 2 ^ 64 := by
  have hne : O.MAC_CNT p 25 ≠ O.MAC_STAT p ∧ O.MAC_CNT p 25 + 4 ≠ O.MAC_STAT p := by
    simp only [O.MAC_CNT, O.MAC_STAT]
    omega
  have hemit (u : State) (o : Out) (k : Nat) : (u.emit o).rd64 k = u.rd64 k := rfl
  unfold State.jammed
  rw [State.rd64_fset_ne _ (F.MAC_STAT.TX_BUSY p) _ hne.1 hne.2, hemit]
  exact s.rd64_cnt _

end

section
variable {s : State} {p : Nat} {late : Bool} {c : Copy} (htx : (s.port p).tx = some c)
  (hdup : s.flag (F.MAC_CTL.DUPLEX p) = false) (hclk : s.stopped p true = false)
include htx hdup hclk

/-- A collision in half duplex, at a port whose transmit clock runs. -/
theorem exec_collision :
    exec (.collision p late) s =
      if late = true ∨ 16 ≤ c.coll + 1 then
        let u := ((s.jammed p).setPort p { s.port p with tx := none }).macCnt p (if late then 26 else 27)
        if c.kind = 0 then .next (u.copyGone p c false 0) else if c.kind = 2 then .next (u.gaspGone p) else .next u
      else if c.kind = 2 then
        .next ((s.jammed p).setPort p { s.port p with tx := none, backoff := true, gasp := true, coll := c.coll + 1 })
      else
        .next ((s.jammed p).setPort p { s.port p with
          tx := none, backoff := true, egress := { c with bytes := [], stamp := 0, coll := c.coll + 1 } :: (s.port p).egress }) := by
  show execCollision p late s = _
  unfold execCollision
  rw [htx]
  exact if_neg (by simp [hdup, hclk])

theorem collisionsAndVerify_backoff (hl : late = false) (hc : c.coll + 1 < 16) (hk : c.kind ≠ 2) :
    ∃ t, exec (.collision p late) s = .next t ∧ t.out = s.out ++ [.jam p] ∧ (t.port p).backoff = true ∧ (t.port p).tx = none ∧
      (t.port p).egress = { c with bytes := [], stamp := 0, coll := c.coll + 1 } :: (s.port p).egress ∧
      t.rd64 (O.MAC_CNT p 25) = (s.rd64 (O.MAC_CNT p 25) + 1) % 2 ^ 64 := by
  have hgo : ¬(late = true ∨ 16 ≤ c.coll + 1) := by simp [hl]; omega
  refine ⟨_, (exec_collision htx hdup hclk).trans ((if_neg hgo).trans (if_neg hk)), ?_, ?_, ?_, ?_, ?_⟩
  · rw [State.setPort_out, State.jammed_out]
  · rw [State.port_setPort_self]
  · rw [State.port_setPort_self]
  · rw [State.port_setPort_self]
  · rw [State.rd64_congr (State.rd_setPort _ _ _ _) (State.rd_setPort _ _ _ _), State.rd64_jammed]

theorem collisionsAndVerify_gasp (hl : late = false) (hc : c.coll + 1 < 16) (hk : c.kind = 2) :
    ∃ t, exec (.collision p late) s = .next t ∧ t.out = s.out ++ [.jam p] ∧ (t.port p).backoff = true ∧ (t.port p).tx = none ∧
      (t.port p).gasp = true ∧ (t.port p).coll = c.coll + 1 := by
  have hgo : ¬(late = true ∨ 16 ≤ c.coll + 1) := by simp [hl]; omega
  refine ⟨_, (exec_collision htx hdup hclk).trans ((if_neg hgo).trans (if_pos hk)), ?_⟩
  rw [State.setPort_out, State.jammed_out, State.port_setPort_self]
  exact ⟨rfl, rfl, rfl, rfl, rfl⟩

/-- A frame that is given up leaves the queue as it is, whatever its kind. -/
theorem collisionsAndVerify_givenUp (hgo : late = true ∨ 16 ≤ c.coll + 1) :
    ∃ t, exec (.collision p late) s = .next t ∧ t.out = s.out ++ [.jam p] ∧ (t.port p).tx = none ∧
      (t.port p).egress = (s.port p).egress := by
  obtain ⟨u, hu⟩ : ∃ u, u = ((s.jammed p).setPort p { s.port p with tx := none }).macCnt p (if late then 26 else 27) := ⟨_, rfl⟩
  have hout : u.out = s.out ++ [.jam p] := by simp [hu]
  have hport : u.port p = { s.port p with tx := none } := by simp [hu]
  have hstep := (exec_collision (late := late) htx hdup hclk).trans (if_pos hgo)
  rw [← hu] at hstep
  have hdone (t : State) (ht : SameTraffic u t) (ho : t.out = u.out) :
      t.out = s.out ++ [.jam p] ∧ (t.port p).tx = none ∧ (t.port p).egress = (s.port p).egress := by
    rw [ht.tx, ht.egress, ho, hport]
    exact ⟨hout, rfl, rfl⟩
  by_cases h0 : c.kind = 0
  · exact ⟨_, hstep.trans (if_pos h0), hdone _ (u.copyGone_traffic p c false 0) (u.copyGone_out p c false 0)⟩
  · by_cases h2 : c.kind = 2
    · have hkeep := u.gaspGone_keeps_self p
      exact ⟨_, hstep.trans ((if_neg h0).trans (if_pos h2)), hdone _ (hkeep.sameTraffic (by decide)) (hkeep.1 .out (by decide))⟩
    · exact ⟨_, hstep.trans ((if_neg h0).trans (if_neg h2)), hdone u (.refl u) rfl⟩

end

/-! ### Verify -/

section
variable {s : State} {p : Nat} (hv : s.fget (F.MAC_STAT.VERIFY p) = 1)
include hv

theorem collisionsAndVerify_answered (hclk : s.stopped p false = false) :
    ∃ t, exec (.verifyResponse p) s = .next t ∧ t.fget (F.MAC_STAT.VERIFY p) = 2 ∧
      t.flag (F.MAC_STAT.PREEMPT_ACTIVE p) = true ∧ OnlyWords s t [O.MAC_STAT p] := by
  refine ⟨_, if_pos ⟨hv, hclk⟩, ?_, ?_, ?_⟩
  · rw [State.fsets_cons, State.fsets_cons, State.fsets_nil, State.fget_fset_ne _ _ _ _ (.inr (.inl (by decide : 3 + 1 ≤ 4)))]
    exact State.fget_fset_self _ _ _ (by decide : 4 + 2 ≤ 32)
  · rw [State.fsets_cons, State.fsets_cons, State.fsets_nil]
    exact State.flag_fset_self _ _ _ (by decide : 3 + 1 ≤ 32)
  · rw [State.fsets_cons, State.fsets_cons, State.fsets_nil]
    exact (State.wr_onlyWords _ _ _).trans (State.wr_onlyWords _ _ _)

theorem collisionsAndVerify_tryAgain (hp : p < 8) (ht : (s.port p).tries < 3) :
    ∃ t, exec (.verifyTimeout p) s = .next t ∧ (t.port p).tries = (s.port p).tries + 1 ∧
      t.out = (if s.stopped p true then s.out else s.out ++ [.verify p]) ∧ t.regs = s.regs := by
  let u := s.setPort p { s.port p with tries := (s.port p).tries + 1 }
  have hstop : u.stopped p true = s.stopped p true := by
    simp only [State.stopped, if_pos hp, u, State.port_setPort_self]
    rfl
  have hport : (u.sendVerify p).port p = u.port p :=
    (State.sendVerify_keeps (Keeps.refl (ar := [.out]) u) p (Allows.refl _)).port (by decide) p
  refine ⟨u.sendVerify p, (if_pos hv).trans (if_pos ht), ?_, ?_, ?_⟩
  · rw [hport, State.port_setPort_self]
  · unfold State.sendVerify
    rw [hstop]
    split <;> rfl
  · exact (State.sendVerify_keeps (Keeps.refl (ar := [.out]) u) p (Allows.refl _)).1 .regs (by decide)

theorem collisionsAndVerify_failed (ht : 3 ≤ (s.port p).tries) :
    ∃ t, exec (.verifyTimeout p) s = .next t ∧ t.fget (F.MAC_STAT.VERIFY p) = 3 ∧ OnlyWords s t [O.MAC_STAT p] :=
  ⟨_, (if_pos hv).trans (if_neg (by omega)), State.fget_fset_self _ _ _ (by decide : 4 + 2 ≤ 32), State.wr_onlyWords _ _ _⟩

end

/-- Settles O20: a collision that is retried, the same for the gasp frame, one that is given up, the end of the back-off, and the
answer and the time-out of verify. -/
theorem collisionsAndVerify : Obligations.CollisionsAndVerify := by
  refine ⟨fun _ _ _ _ _ htx hdup hclk => ⟨?_, ?_, ?_⟩, fun s p => ⟨_, rfl, ?_, rfl⟩, fun _ _ hp hv => ⟨?_, ?_, ?_⟩⟩
  · exact collisionsAndVerify_backoff htx hdup hclk
  · exact collisionsAndVerify_gasp htx hdup hclk
  · exact collisionsAndVerify_givenUp htx hdup hclk
  · rw [State.port_setPort_self]
  · exact collisionsAndVerify_answered hv
  · exact collisionsAndVerify_tryAgain hv hp
  · exact collisionsAndVerify_failed hv

end Sys2Proof.Machine

namespace Sys2Proof.Machine

/-! ## Speed, duplex and flow control of a port (04_field_ports.md R99, R106, R107) -/

/-! ### Writes of MAC_CTL -/

/-- A field that is all ones in `m` is all ones in the union with `m`. -/
theorem getBits_or_ones (x : Word) {m : Word} {lo wd : Nat} (h : getBits m lo wd = 2 ^ wd - 1) : getBits (x ||| m) lo wd = 2 ^ wd - 1 := by
  apply Nat.eq_of_testBit_eq
  intro i
  rw [getBits_or, h, Nat.testBit_or, Nat.testBit_two_pow_sub_one, testBit_getBits]
  cases decide (i < wd) <;> simp

/-- The speed, duplex and transmit enable that a write of MAC_CTL stores: those of the data at a field port. A trunk's MAC keeps
the highest speed and full duplex (05_trunk_cells.md R133). -/
theorem State.getBits_writeFields_macCtl {s : State} {p key : Nat} (hp : p < 10) (hk : keyOf s.cfg (macOff p 0) = some key) (d : Word) :
    let w := (s.writeFields (O.MAC_CTL p) d).rd (O.MAC_CTL p)
    (p < 8 → getBits w 4 2 = getBits d 4 2 ∧ getBits w 8 1 = getBits d 8 1) ∧
    (8 ≤ p → getBits w 4 2 = 3 ∧ getBits w 8 1 = 1 ∧ getBits w 1 1 = getBits d 1 1) := by
  obtain ⟨-, i, hrow⟩ := keyOf_macCtl hp hk
  obtain ⟨habs, hstuck⟩ := macCtl_bits s.cfg hp
  have hzero (lo wd : Nat) : getBits (absentBits s.cfg (O.MAC_CTL p)) lo wd = 0 := by
    rw [habs]
    simp [getBits]
  intro w
  have hw : w = (s.writtenWord (O.MAC_CTL p) d).1 := hrow.rd_writeFields rfl d
  rw [hw]
  constructor
  · intro h8
    rw [if_pos h8] at hstuck
    have hs (lo wd : Nat) : getBits (stuckOnes s.cfg (O.MAC_CTL p)) lo wd = 0 := by
      rw [hstuck]
      simp [getBits]
    exact ⟨hrow.getBits_written (lo := 4) (wd := 2) (k := 6) rfl rfl rfl (by decide)
      (by decide : ∀ f ∈ macCtlRow.fields.drop 7, f.apart 0 4 2 = true) (hzero 4 2) (hs 4 2) d,
      hrow.getBits_written (lo := 8) (wd := 1) (k := 5) rfl rfl rfl (by decide)
      (by decide : ∀ f ∈ macCtlRow.fields.drop 6, f.apart 0 8 1 = true) (hzero 8 1) (hs 8 1) d⟩
  · intro h8
    rw [if_neg (by omega)] at hstuck
    refine ⟨?_, ?_, hrow.getBits_written (lo := 1) (wd := 1) (k := 7) rfl rfl rfl (by decide)
      (by decide : ∀ f ∈ macCtlRow.fields.drop 8, f.apart 0 1 1 = true) (hzero 1 1) (by rw [hstuck]; decide) d⟩
    · rw [hrow.writtenWord]
      exact getBits_or_ones _ (by rw [hstuck]; decide)
    · rw [hrow.writtenWord]
      exact getBits_or_ones _ (by rw [hstuck]; decide)

section
variable (s : State) (p : Nat)

theorem State.fset2_onlyWords (f g : Fld) (v w : Nat) (h : g.off = f.off) : OnlyWords s (s.fsets [(f, v), (g, w)]) [f.off] :=
  by
  have hg (u : State) : OnlyWords u (u.fset g w) [f.off] := h ▸ u.wr_onlyWords _ _
  exact (s.wr_onlyWords _ _).trans (hg _)

/-- Bringing preemption up to date touches the status word alone, and may send a verify. -/
theorem State.preemptUpdate_onlyWords : OnlyWords s (s.preemptUpdate p) [O.MAC_STAT p] := by
  unfold State.preemptUpdate
  extract_lets on u
  split
  · exact s.fset2_onlyWords (F.MAC_STAT.VERIFY p) (F.MAC_STAT.PREEMPT_ACTIVE p) _ _ rfl
  · split
    · exact s.fset2_onlyWords (F.MAC_STAT.VERIFY p) (F.MAC_STAT.PREEMPT_ACTIVE p) _ _ rfl
    · split
      · have hset : Keeps [.ports, .out] u (u.setPort p { u.port p with tries := 1 }) :=
          State.setPort_keeps (.refl u) _ _ (Allows.mono (by decide) (Allows.refl _))
        have h := State.sendVerify_keeps hset p (Allows.mono (by decide) (Allows.refl _))
        exact (s.fset2_onlyWords (F.MAC_STAT.VERIFY p) (F.MAC_STAT.PREEMPT_ACTIVE p) _ _ rfl).trans (h.onlyWords (by decide) (by decide) _)
      · exact .refl s _

theorem State.fset2_out (f g : Fld) (v w : Nat) : (s.fsets [(f, v), (g, w)]).out = s.out := by
  rw [State.fsets_cons, State.fsets_cons, State.fsets_nil, State.fset_out, State.fset_out]

theorem State.sendVerify_out : ∃ l, (s.sendVerify p).out = s.out ++ l := by
  unfold State.sendVerify
  split
  · exact ⟨[], (List.append_nil _).symm⟩
  · exact ⟨[.verify p], rfl⟩

theorem State.preemptUpdate_out : ∃ l, (s.preemptUpdate p).out = s.out ++ l := by
  unfold State.preemptUpdate
  extract_lets on u
  split
  · exact ⟨[], by rw [State.fset2_out, List.append_nil]⟩
  · split
    · exact ⟨[], by rw [State.fset2_out, List.append_nil]⟩
    · split
      · obtain ⟨l, hl⟩ := (u.setPort p { u.port p with tries := 1 }).sendVerify_out p
        exact ⟨l, by rw [hl, State.setPort_out, State.fset2_out]⟩
      · exact ⟨[], (List.append_nil _).symm⟩

end

/-- MAC_CTL with a new speed and duplex, before preemption and the gear follow (R99). -/
def State.macCtlStored (s : State) (p : Nat) (data : Word) : State :=
  let u := s.writeFields (O.MAC_CTL p) data
  let u := if getBits data 4 2 = s.fget (F.MAC_CTL.SPEED p) then u else u.emit (.speed p (getBits data 4 2))
  if getBits data 8 1 = 0 then u.setPort p { u.port p with asked := [], fcDue := [] } else u

section
variable {s : State} {p key : Nat} {data : Word}

theorem exec_macCtlWrite (hr : s.Reaches (macOff p 0) key) :
    exec (.macCtlWrite 0 p data) s = .next ((s.answer false 0).macCtlWrite p data) := congrArg Host.Outcome.next (hr.access _)

theorem State.macCtlStored_rd : (s.macCtlStored p data).rd (O.MAC_CTL p) = (s.writeFields (O.MAC_CTL p) data).rd (O.MAC_CTL p) := by
  unfold State.macCtlStored
  dsimp only
  split_ifs <;> rfl

theorem State.macCtlStored_out (h : getBits data 4 2 ≠ s.fget (F.MAC_CTL.SPEED p)) :
    (s.macCtlStored p data).out = s.out ++ [.speed p (getBits data 4 2)] := by
  have hw : (s.writeFields (O.MAC_CTL p) data).out = s.out :=
    (State.writeFields_keeps (Keeps.refl (ar := [.regs, .stage, .slv]) s) _ _ (Allows.refl _)).1 .out (by decide)
  unfold State.macCtlStored
  simp only [if_neg h]
  split
  · rw [State.setPort_out, State.emit_out, hw]
  · rw [State.emit_out, hw]

/-- The word keeps its speed and duplex in what is written (`keep`). -/
theorem getBits_keep (sp du : Nat) (hs : sp < 4) (hd : du < 2) :
    getBits (setBits (setBits data 4 2 sp) 8 1 du) 4 2 = sp ∧ getBits (setBits (setBits data 4 2 sp) 8 1 du) 8 1 = du := by
  rw [getBits_setBits_ne _ _ (.inr (by decide)), getBits_setBits_self _ _ (by decide), getBits_setBits_self _ _ (by decide)]
  exact ⟨Nat.mod_eq_of_lt hs, Nat.mod_eq_of_lt hd⟩

theorem macCtl_low (hp : p < 8) : O.MAC_CTL p < O.IRQ_PEND 0 ∧ O.MAC_STAT p < O.IRQ_PEND 0 ∧ O.MAC_CTL p ≠ O.MAC_STAT p := by
  simp only [O.MAC_CTL, O.MAC_STAT, O.IRQ_PEND]
  omega

theorem speedAndFlowControl_halfRefused (hp : p < 8) (hr : s.Reaches (macOff p 0) key)
    (hon : (s.flag (F.MAC_CTL.EN_RX p) || s.flag (F.MAC_CTL.EN_TX p)) = false) (hd : getBits data 8 1 = 0) (hs : 2 ≤ getBits data 4 2) :
    ∃ t, exec (.macCtlWrite 0 p data) s = .next t ∧ t.flag (F.MAC_STAT.CFG_ERR p) = true ∧ t.rd (O.MAC_CTL p) = s.rd (O.MAC_CTL p) := by
  obtain ⟨hctl, hstat, hne⟩ := macCtl_low hp
  have hstep : (s.answer false 0).macCtlWrite p data = ((s.answer false 0).fset (F.MAC_STAT.CFG_ERR p) 1).raisePort p 0 :=
    (if_neg (by omega)).trans (if_pos ⟨hd, hs, .inl (by rw [State.flag_answer, State.flag_answer]; exact hon)⟩)
  refine ⟨_, (exec_macCtlWrite hr).trans (congrArg _ hstep), ?_, ?_⟩
  · rw [State.flag_raisePort _ _ _ hstat]
    exact State.flag_fset_self _ _ _ (by decide : 7 + 1 ≤ 32)
  · rw [State.raisePort_lowWords _ _ _ [] _ hctl List.not_mem_nil, State.rd_fset_ne _ _ _ hne, State.rd_answer]

theorem speedAndFlowControl_changeRefused (hp : p < 8) (hr : s.Reaches (macOff p 0) key)
    (hon : (s.flag (F.MAC_CTL.EN_RX p) || s.flag (F.MAC_CTL.EN_TX p)) = true)
    (hch : getBits data 4 2 ≠ s.fget (F.MAC_CTL.SPEED p) ∨ getBits data 8 1 ≠ s.fget (F.MAC_CTL.DUPLEX p)) :
    ∃ t, exec (.macCtlWrite 0 p data) s = .next t ∧ t.flag (F.MAC_STAT.CFG_ERR p) = true ∧
      t.fget (F.MAC_CTL.SPEED p) = s.fget (F.MAC_CTL.SPEED p) ∧ t.fget (F.MAC_CTL.DUPLEX p) = s.fget (F.MAC_CTL.DUPLEX p) := by
  obtain ⟨hctl, hstat, hne⟩ := macCtl_low hp
  let keep := setBits (setBits data 4 2 (s.fget (F.MAC_CTL.SPEED p))) 8 1 (s.fget (F.MAC_CTL.DUPLEX p))
  let u := (s.answer false 0).writeFields (O.MAC_CTL p) keep
  have hsame : ¬(getBits data 8 1 = 0 ∧ 2 ≤ getBits data 4 2 ∧
      (true = false ∨ getBits data 4 2 = s.fget (F.MAC_CTL.SPEED p) ∧ getBits data 8 1 = s.fget (F.MAC_CTL.DUPLEX p))) := by
    rintro ⟨-, -, h | ⟨h1, h2⟩⟩
    · exact nomatch h
    · exact hch.elim (· h1) (· h2)
  have hstep : (s.answer false 0).macCtlWrite p data = u.setFlag (F.MAC_STAT.CFG_ERR p) (srcPort s.cfg p) := by
    unfold State.macCtlWrite
    simp only [State.fget_answer, State.flag_answer, hon]
    rw [if_neg (by omega), if_neg hsame, if_pos ⟨trivial, hch⟩]
    rfl
  obtain ⟨hsp, hdu⟩ := (State.getBits_writeFields_macCtl (s := s.answer false 0) (by omega) hr.1 keep).1 hp
  obtain ⟨hsp', hdu'⟩ := getBits_keep (data := data) _ _ (s.fget_lt (F.MAC_CTL.SPEED p)) (s.fget_lt (F.MAC_CTL.DUPLEX p))
  refine ⟨_, (exec_macCtlWrite hr).trans (congrArg _ hstep), ?_, ?_, ?_⟩
  · exact State.flag_setFlag_self _ _ hstat (by decide : 7 + 1 ≤ 32) (by decide : 1 < 2 ^ 1)
  · rw [(State.setFlag_lowWords _ _ _).fget _ hctl fun h => hne (List.mem_singleton.mp h)]
    exact hsp.trans hsp'
  · rw [(State.setFlag_lowWords _ _ _).fget _ hctl fun h => hne (List.mem_singleton.mp h)]
    exact hdu.trans hdu'

theorem speedAndFlowControl_changed (hp : p < 8) (hr : s.Reaches (macOff p 0) key)
    (hon : (s.flag (F.MAC_CTL.EN_RX p) || s.flag (F.MAC_CTL.EN_TX p)) = false) (hok : getBits data 8 1 = 1 ∨ getBits data 4 2 < 2)
    (hch : getBits data 4 2 ≠ s.fget (F.MAC_CTL.SPEED p)) :
    ∃ t, exec (.macCtlWrite 0 p data) s = .next t ∧ t.fget (F.MAC_CTL.SPEED p) = getBits data 4 2 ∧
      t.fget (F.MAC_CTL.DUPLEX p) = getBits data 8 1 ∧ ∃ l, t.out = s.out ++ .speed p (getBits data 4 2) :: l := by
  obtain ⟨-, -, hne⟩ := macCtl_low hp
  let u := (s.answer false 0).macCtlStored p data
  have hstep : (s.answer false 0).macCtlWrite p data = (u.preemptUpdate p).gearOkCheck := by
    unfold State.macCtlWrite
    simp only [State.fget_answer, State.flag_answer, hon]
    rw [if_neg (by omega), if_neg (by omega), if_neg (by simp)]
    rfl
  have hkeep := State.gearOkCheck_keeps (Keeps.refl (ar := [.trunks, .node]) (u.preemptUpdate p)) (Allows.refl _)
  have hrd : (u.preemptUpdate p).gearOkCheck.rd (O.MAC_CTL p) = ((s.answer false 0).writeFields (O.MAC_CTL p) data).rd (O.MAC_CTL p) := by
    rw [hkeep.onlyWords (by decide) (by decide) [] _ List.not_mem_nil, u.preemptUpdate_onlyWords p _ (by simpa using hne)]
    exact State.macCtlStored_rd
  obtain ⟨hsp, hdu⟩ := (State.getBits_writeFields_macCtl (s := s.answer false 0) (by omega) hr.1 data).1 hp
  obtain ⟨l, hl⟩ := u.preemptUpdate_out p
  refine ⟨_, (exec_macCtlWrite hr).trans (congrArg _ hstep), ?_, ?_, l, ?_⟩
  · exact (congrArg (getBits · 4 2) hrd).trans hsp
  · exact (congrArg (getBits · 8 1) hrd).trans hdu
  · rw [hkeep.1 .out (by decide)]
    refine hl.trans ?_
    rw [State.macCtlStored_out (by rwa [State.fget_answer]), State.answer_out, List.append_assoc]
    rfl

theorem speedAndFlowControl_trunk (h8 : 8 ≤ p) (hp : p < 10) (hr : s.Reaches (macOff p 0) key) :
    ∃ t, exec (.macCtlWrite 0 p data) s = .next t ∧ t.fget (F.MAC_CTL.SPEED p) = 3 ∧ t.fget (F.MAC_CTL.DUPLEX p) = 1 ∧
      t.flag (F.MAC_CTL.EN_TX p) = bitOf data (F.MAC_CTL.EN_TX p).lo := by
  let sp := s.fget (F.MAC_CTL.SPEED p)
  let du := s.fget (F.MAC_CTL.DUPLEX p)
  obtain ⟨hsp, hdu, htx⟩ := (State.getBits_writeFields_macCtl (s := s.answer false 0) hp hr.1 (setBits (setBits data 4 2 sp) 8 1 du)).2 h8
  have hstep : (s.answer false 0).macCtlWrite p data = (s.answer false 0).writeFields (O.MAC_CTL p) (setBits (setBits data 4 2 sp) 8 1 du) :=
    if_pos h8
  refine ⟨_, (exec_macCtlWrite hr).trans (congrArg _ hstep), hsp, hdu, ?_⟩
  rw [State.flag_eq_bitOf _ rfl]
  refine bitOf_of_getBits (htx.trans ?_)
  rw [getBits_setBits_ne _ _ (.inr (by decide)), getBits_setBits_ne _ _ (.inr (by decide))]
  rfl

end

/-! ### Counters of a MAC -/

section
variable (s : State) (p : Nat) {j k : Nat}

theorem State.rd_macCntAdd (n : Nat) (h : j < O.MAC_CNT p 0) : (s.cntAdd (O.MAC_CNT p k) n).rd j = s.rd j := by
  simp only [O.MAC_CNT] at h ⊢
  exact s.rd_wr64_ne _ (by omega) (by omega)

theorem State.rd64_macCntAdd_ne (n : Nat) (h : j ≠ k) : (s.cntAdd (O.MAC_CNT p k) n).rd64 (O.MAC_CNT p j) = s.rd64 (O.MAC_CNT p j) := by
  simp only [O.MAC_CNT]
  exact s.rd64_wr64_ne _ (by omega) (by omega) (by omega)

theorem State.rd64_macCntAdd_self (n : Nat) :
    (s.cntAdd (O.MAC_CNT p k) n).rd64 (O.MAC_CNT p k) = (s.rd64 (O.MAC_CNT p k) + n) % 2 ^ 64 :=
  (s.rd64_wr64_self _ _).trans (Nat.mod_mod _ _)

theorem State.rd_macCnt (h : j < O.MAC_CNT p 0) : (s.macCnt p k).rd j = s.rd j := s.rd_macCntAdd p 1 h

theorem State.rd64_macCnt_ne (h : j ≠ k) : (s.macCnt p k).rd64 (O.MAC_CNT p j) = s.rd64 (O.MAC_CNT p j) := s.rd64_macCntAdd_ne p 1 h

theorem State.rd64_macCnt_self : (s.macCnt p k).rd64 (O.MAC_CNT p k) = (s.rd64 (O.MAC_CNT p k) + 1) % 2 ^ 64 :=
  s.rd64_macCntAdd_self p 1

end

/-! ### Flow control received -/

/-- A PAUSE or PFC frame of 64 bytes has been counted (R101, R106). -/
def State.pauseCounted (s : State) (p : Nat) (pfc : Bool) : State :=
  ((((s.macCnt p 1).cntAdd (O.MAC_CNT p 0) 64).macCnt p 14).macCnt p 3).macCnt p (if pfc then 10 else 9)

/-- What a PAUSE or PFC frame does to the port that has counted it (R106). -/
def State.pauseAct (s : State) (p : Nat) (pfc : Bool) (enable : Nat) (quanta : List Nat) : State :=
  if s.flag (F.MAC_CTL.DUPLEX p) = false then s
  else if pfc = true ∧ s.flag (F.MAC_FC.PFC_EN p) = true then
    forEach ((List.range 8).filter fun c => Nat.land enable (s.fget (F.MAC_FC.PFC_PRI p)) / 2 ^ c % 2 == 1) (fun c s =>
      s.fset ⟨O.MAC_FC_STAT p, c, 1⟩ (b2n (decide (quanta.getD c 0 ≠ 0)))) s
  else if pfc = false ∧ s.flag (F.MAC_FC.PFC_EN p) = false ∧ s.flag (F.MAC_FC.PAUSE_EN p) = true then
    s.fset (F.MAC_FC_STAT.PAUSED p) (b2n (decide (quanta.getD 0 0 ≠ 0)))
  else s

theorem OnlyWords.forEach {α : Type} {ks : List Nat} {l : List α} {f : α → State → State} (hf : ∀ a ∈ l, ∀ u, OnlyWords u (f a u) ks)
    {s : State} : OnlyWords s (forEach l f s) ks := by
  induction l generalizing s with
  | nil => exact .refl s ks
  | cons a l ih =>
    exact (hf a List.mem_cons_self s).trans (ih fun b hb => hf b (List.mem_cons_of_mem _ hb))

/-- A field of one bit just set to a Boolean. -/
theorem State.flag_fset_b2n (s : State) {f : Fld} (h : f.lo + f.wd ≤ 32) (h1 : f.wd = 1) (b : Bool) : (s.fset f (b2n b)).flag f = b := by
  rw [s.flag_fset_self f _ h, h1]
  cases b <;> rfl

/-- Bits of a word that are set one after another, each to a value of its own. -/
theorem State.bitOf_forEach_fset (k : Nat) (v : Nat → Bool) {l : List Nat} (hl : ∀ c ∈ l, c < 32) (s : State) (c : Nat) :
    bitOf ((forEach l (fun c s => s.fset ⟨k, c, 1⟩ (b2n (v c))) s).rd k) c = if c ∈ l then v c else bitOf (s.rd k) c := by
  have hflag (u : State) : bitOf (u.rd k) c = u.flag ⟨k, c, 1⟩ := (u.flag_eq_bitOf (f := ⟨k, c, 1⟩) rfl).symm
  induction l generalizing s with
  | nil => rfl
  | cons a l ih =>
    have ha : a < 32 := hl a List.mem_cons_self
    refine (ih (fun c hc => hl c (List.mem_cons_of_mem _ hc)) (s.fset ⟨k, a, 1⟩ (b2n (v a)))).trans ?_
    by_cases hc : c = a
    · subst hc
      rw [hflag, State.flag_fset_b2n _ (by exact ha) rfl]
      simp
    · rw [hflag, State.flag_fset_ne _ _ _ _ (.inr (by simp only; omega)), ← hflag]
      simp [hc]

section
variable {s : State} {p enable : Nat} {pfc : Bool} {q : List Nat}

theorem State.pauseCounted_rd {j : Nat} (h : j < O.MAC_CNT p 0) : (s.pauseCounted p pfc).rd j = s.rd j := by
  unfold State.pauseCounted
  rw [State.rd_macCnt _ _ h, State.rd_macCnt _ _ h, State.rd_macCnt _ _ h, State.rd_macCntAdd _ _ _ h, State.rd_macCnt _ _ h]

theorem State.pauseCounted_kind :
    (s.pauseCounted p pfc).rd64 (O.MAC_CNT p (if pfc then 10 else 9)) = (s.rd64 (O.MAC_CNT p (if pfc then 10 else 9)) + 1) % 2 ^ 64 := by
  have hne (k : Nat) (hk : k < 9 ∨ 10 < k) : (if pfc then 10 else 9) ≠ k := by split <;> omega
  unfold State.pauseCounted
  rw [State.rd64_macCnt_self, State.rd64_macCnt_ne _ _ (hne 3 (by decide)), State.rd64_macCnt_ne _ _ (hne 14 (by decide)),
    State.rd64_macCntAdd_ne _ _ _ (hne 0 (by decide)), State.rd64_macCnt_ne _ _ (hne 1 (by decide))]

theorem State.pauseCounted_good : (s.pauseCounted p pfc).rd64 (O.MAC_CNT p 1) = (s.rd64 (O.MAC_CNT p 1) + 1) % 2 ^ 64 := by
  unfold State.pauseCounted
  rw [State.rd64_macCnt_ne _ _ (by split <;> decide), State.rd64_macCnt_ne _ _ (by decide), State.rd64_macCnt_ne _ _ (by decide),
    State.rd64_macCntAdd_ne _ _ _ (by decide), State.rd64_macCnt_self]

/-- Only the flow-control status changes. -/
theorem State.pauseAct_onlyWords : OnlyWords s (s.pauseAct p pfc enable q) [O.MAC_FC_STAT p] := by
  unfold State.pauseAct
  split
  · exact .refl s _
  · split
    · exact .forEach (fun c _ u => u.wr_onlyWords _ _)
    · split
      · exact State.wr_onlyWords _ _ _
      · exact .refl s _

theorem exec_pauseFrameReceive (hr : s.receives p = true) (ha : (s.port p).arriving = none) :
    exec (.pauseFrameReceive p pfc enable q) s = .next ((s.pauseCounted p pfc).pauseAct p pfc enable q) := if_pos ⟨hr, ha⟩

theorem macFc_low (p : Nat) : O.MAC_CTL p < O.MAC_CNT p 0 ∧ O.MAC_FC p < O.MAC_CNT p 0 ∧ O.MAC_FC_STAT p < O.MAC_CNT p 0 := by
  simp only [O.MAC_CTL, O.MAC_FC, O.MAC_FC_STAT, O.MAC_CNT]
  omega

theorem State.pauseCounted_flag {g : Fld} (h : g.off < O.MAC_CNT p 0) : (s.pauseCounted p pfc).flag g = s.flag g :=
  congrArg (fun w => decide (getBits w g.lo g.wd ≠ 0)) (State.pauseCounted_rd h)

/-- The counters after the frame has been acted on. -/
theorem State.pauseAct_rd64 (k : Nat) : (s.pauseAct p pfc enable q).rd64 (O.MAC_CNT p k) = s.rd64 (O.MAC_CNT p k) := by
  have hne : O.MAC_CNT p k ≠ O.MAC_FC_STAT p ∧ O.MAC_CNT p k + 4 ≠ O.MAC_FC_STAT p := by
    simp only [O.MAC_CNT, O.MAC_FC_STAT]
    omega
  exact State.pauseAct_onlyWords.rd64 (fun h => hne.1 (List.mem_singleton.mp h)) (fun h => hne.2 (List.mem_singleton.mp h))

variable (hr : s.receives p = true) (ha : (s.port p).arriving = none)
include hr ha

theorem speedAndFlowControl_pause :
    ∃ t, exec (.pauseFrameReceive p false enable q) s = .next t ∧
      t.rd64 (O.MAC_CNT p 9) = (s.rd64 (O.MAC_CNT p 9) + 1) % 2 ^ 64 ∧ t.rd64 (O.MAC_CNT p 1) = (s.rd64 (O.MAC_CNT p 1) + 1) % 2 ^ 64 ∧
      (s.flag (F.MAC_CTL.DUPLEX p) = true → s.flag (F.MAC_FC.PFC_EN p) = false → s.flag (F.MAC_FC.PAUSE_EN p) = true →
        t.flag (F.MAC_FC_STAT.PAUSED p) = decide (q.getD 0 0 ≠ 0)) ∧
      (s.flag (F.MAC_CTL.DUPLEX p) = false → t.rd (O.MAC_FC_STAT p) = s.rd (O.MAC_FC_STAT p)) := by
  obtain ⟨hctl, hfc, hstat⟩ := macFc_low p
  refine ⟨_, exec_pauseFrameReceive hr ha, ?_, ?_, fun hd hpfc hen => ?_, fun hd => ?_⟩
  · exact (State.pauseAct_rd64 9).trans State.pauseCounted_kind
  · exact (State.pauseAct_rd64 1).trans State.pauseCounted_good
  · have hact : (s.pauseCounted p false).pauseAct p false enable q =
        (s.pauseCounted p false).fset (F.MAC_FC_STAT.PAUSED p) (b2n (decide (q.getD 0 0 ≠ 0))) := by
      unfold State.pauseAct
      rw [State.pauseCounted_flag hctl, State.pauseCounted_flag hfc, State.pauseCounted_flag hfc, hd, hpfc, hen]
      rfl
    rw [hact]
    exact State.flag_fset_b2n _ (by decide : 8 + 1 ≤ 32) rfl _
  · have hact : (s.pauseCounted p false).pauseAct p false enable q = s.pauseCounted p false :=
      if_pos ((State.pauseCounted_flag hctl).trans hd)
    rw [hact]
    exact State.pauseCounted_rd hstat

theorem speedAndFlowControl_pfc :
    ∃ t, exec (.pauseFrameReceive p true enable q) s = .next t ∧
      t.rd64 (O.MAC_CNT p 10) = (s.rd64 (O.MAC_CNT p 10) + 1) % 2 ^ 64 ∧
      (s.flag (F.MAC_CTL.DUPLEX p) = true → s.flag (F.MAC_FC.PFC_EN p) = true →
        ∀ c, c < 8 → bitOf (t.rd (O.MAC_FC_STAT p)) c =
          (if enable.testBit c && (s.fget (F.MAC_FC.PFC_PRI p)).testBit c then decide (q.getD c 0 ≠ 0)
           else bitOf (s.rd (O.MAC_FC_STAT p)) c)) := by
  obtain ⟨hctl, hfc, hstat⟩ := macFc_low p
  refine ⟨_, exec_pauseFrameReceive hr ha, ?_, fun hd hpfc c hc => ?_⟩
  · exact (State.pauseAct_rd64 10).trans State.pauseCounted_kind
  · let u := s.pauseCounted p true
    have hpri : u.fget (F.MAC_FC.PFC_PRI p) = s.fget (F.MAC_FC.PFC_PRI p) := congrArg (getBits · 16 8) (State.pauseCounted_rd hfc)
    have hact : u.pauseAct p true enable q =
        forEach ((List.range 8).filter fun c => Nat.land enable (s.fget (F.MAC_FC.PFC_PRI p)) / 2 ^ c % 2 == 1) (fun c s =>
          s.fset ⟨O.MAC_FC_STAT p, c, 1⟩ (b2n (decide (q.getD c 0 ≠ 0)))) u := by
      unfold State.pauseAct
      rw [if_neg (by rw [State.pauseCounted_flag hctl, hd]; simp), if_pos ⟨rfl, (State.pauseCounted_flag hfc).trans hpfc⟩, hpri]
    have hmem : c ∈ ((List.range 8).filter fun c => Nat.land enable (s.fget (F.MAC_FC.PFC_PRI p)) / 2 ^ c % 2 == 1) ↔
        (enable.testBit c && (s.fget (F.MAC_FC.PFC_PRI p)).testBit c) = true := by
      rw [List.mem_filter, List.mem_range, beq_iff_eq, and_iff_right hc, ← Nat.testBit_and, Nat.testBit_eq_decide_div_mod_eq, decide_eq_true_eq]
      rfl
    rw [hact, State.bitOf_forEach_fset _ _ (fun c hc => by have := List.mem_range.mp (List.mem_filter.mp hc).1; omega),
      State.pauseCounted_rd hstat]
    exact if_congr hmem rfl rfl

end

/-! ### The timer's end, and flow control sent again -/

section
variable {s : State} {p c : Nat}

theorem speedAndFlowControl_resumed :
    ∃ t, exec (.pauseTimerExpiry p c) s = .next t ∧ OnlyWords s t [O.MAC_FC_STAT p] ∧
      (c < 8 → bitOf (t.rd (O.MAC_FC_STAT p)) c = false) ∧ (8 ≤ c → t.flag (F.MAC_FC_STAT.PAUSED p) = false) := by
  by_cases hc : c < 8
  · refine ⟨_, if_pos hc, State.wr_onlyWords _ _ _, fun _ => ?_, fun h => absurd h (by omega)⟩
    have h := s.flag_fset_b2n (f := ⟨O.MAC_FC_STAT p, c, 1⟩) (by simp only; omega) rfl false
    rwa [State.flag_eq_bitOf _ rfl] at h
  · refine ⟨_, if_neg hc, State.wr_onlyWords _ _ _, fun h => absurd h hc, fun _ => ?_⟩
    exact s.flag_fset_b2n (f := F.MAC_FC_STAT.PAUSED p) (by decide : 8 + 1 ≤ 32) rfl false

/-- The kinds of flow control that a port sends (R98, R107). -/
theorem State.mem_fcKinds :
    c ∈ s.fcKinds p ↔ s.flag (F.MAC_CTL.DUPLEX p) = true ∧
      ((s.flag (F.MAC_FC.PFC_EN p) = true ∧ c < 8 ∧ bitOf (s.rd (O.MAC_FC p)) (16 + c) = true) ∨
        (s.flag (F.MAC_FC.PFC_EN p) = false ∧ s.flag (F.MAC_FC.PAUSE_EN p) = true ∧ c = 8)) := by
  unfold State.fcKinds
  split
  · next hhalf => simp [hhalf]
  · next hfull =>
    split
    · next hpfc => simp [hfull, hpfc]
    · next hpfc =>
      split
      · next hpause => simp [hfull, hpfc, hpause]
      · next hpause => simp [hpfc, hpause]

theorem speedAndFlowControl_repeated (hasked : c ∈ (s.port p).asked) (hsent : c ∈ s.fcKinds p)
    (hocc : 256 * s.fget (F.MAC_FC_THR.XON p) < s.occupancy p c) :
    ∃ t, exec (.pauseRepeat p c) s = .next t ∧
      (t.port p).fcDue = (s.port p).fcDue ++ [(c, s.fget (F.MAC_FC.TX_QUANTA p))] ∧ t.regs = s.regs :=
  ⟨_, if_pos ⟨hasked, hsent, hocc⟩, by rw [State.port_setPort_self], rfl⟩

end

/-- Settles O17: writes of MAC_CTL at a field port and at a trunk, PAUSE and PFC frames received, the timers' end, and flow control
sent again. -/
theorem speedAndFlowControl : Obligations.SpeedAndFlowControl := by
  refine ⟨fun s p key data hp hr => ⟨?_, ?_, ?_⟩, fun s p key data h8 hp hr => ?_, fun s p enable q _ hr ha => ⟨?_, ?_⟩,
    fun s p c _ => ?_, fun s p c => ⟨fun hasked hsent hocc => ?_, fun hsent => ?_⟩⟩
  · exact speedAndFlowControl_halfRefused hp hr
  · exact speedAndFlowControl_changeRefused hp hr
  · exact speedAndFlowControl_changed hp hr
  · exact speedAndFlowControl_trunk h8 hp hr
  · exact speedAndFlowControl_pause hr ha
  · exact speedAndFlowControl_pfc hr ha
  · exact speedAndFlowControl_resumed
  · exact speedAndFlowControl_repeated hasked (State.mem_fcKinds.mpr hsent) hocc
  · exact if_neg fun h => hsent (State.mem_fcKinds.mp h.2.1)

end Sys2Proof.Machine

namespace Sys2Proof.Machine

/-! ## Sending at a port (04_field_ports.md R100, R102, R107 to R114) -/

/-! ### What a copy that begins to leave changes -/

section
variable (s : State) (p ph : Nat) (c : Copy) (bytes : List Byte)

theorem State.port_beginCopy :
    (s.beginCopy p ph c bytes).port p = { s.port p with tx := some { c with bytes := bytes, stamp := s.txStamp p ph } } := by
  unfold State.beginCopy
  rw [State.port_fset, State.port_setPort_self]

theorem State.busy_beginCopy : (s.beginCopy p ph c bytes).flag (F.MAC_STAT.TX_BUSY p) = true :=
  State.flag_fset_self _ _ _ (by decide : 2 + 1 ≤ 32)

@[simp] theorem State.beginCopy_out : (s.beginCopy p ph c bytes).out = s.out := by
  unfold State.beginCopy
  rw [State.fset_out, State.setPort_out]

/-- A whole frame whose memory holds no poisoned word begins to leave. -/
theorem State.startWhole_eq (h : s.poisoned (s.frame c.fid).parts = false) :
    s.startWhole p ph c =
      let u := s.setPort p { s.port p with egress := (s.port p).egress.erase c }
      (u.takeBytes (s.frame c.fid)).2.beginCopy p ph { c with pre := !s.isExpress p c.cls } (u.takeBytes (s.frame c.fid)).1 :=
  if_neg (Bool.eq_false_iff.mp h)

theorem State.startCopy_cut (h : s.wholeOk c = false) :
    s.startCopy p ph c = (s.setPort p { s.port p with egress := (s.port p).egress.erase c }).beginCopy p ph
      { c with cut := true, pre := !s.isExpress p c.cls } (s.frame c.fid).bytes :=
  if_neg (by rw [h]; simp)

/-- A chosen copy leaves the queue and is the one that is sent. -/
theorem State.startCopy_spec (h : s.poisoned (s.frame c.fid).parts = false) :
    ((s.startCopy p ph c).port p).egress = (s.port p).egress.erase c ∧
      ((s.startCopy p ph c).port p).tx.map (fun c => (c.fid, c.kind)) = some (c.fid, c.kind) ∧
      (s.startCopy p ph c).flag (F.MAC_STAT.TX_BUSY p) = true := by
  by_cases hw : s.wholeOk c = true
  · have hport (u : State) (f : Frame) : (u.takeBytes f).2.port p = u.port p :=
      (State.takeBytes_keeps (Keeps.refl (ar := [.regs]) u) f (Allows.refl _)).port (by decide) p
    rw [State.startCopy, if_pos hw, State.startWhole_eq s p ph c h]
    dsimp only
    rw [State.port_beginCopy, hport, State.port_setPort_self]
    exact ⟨rfl, rfl, State.busy_beginCopy _ _ _ _ _⟩
  · rw [State.startCopy_cut s p ph c (by simpa using hw), State.port_beginCopy, State.port_setPort_self]
    exact ⟨rfl, rfl, State.busy_beginCopy _ _ _ _ _⟩

end

/-! ### What the port's next frame is -/

section
variable {s : State} {p ph : Nat}

/-- Flow control goes first (R107). -/
theorem State.startNext_fcDue {k q : Nat} {rest : List (Nat × Nat)} (hq : s.quiesced (portDom p) = false)
    (hg : (s.port p).gasp = false) (hoff : p < 8 ∨ s.forwards (s.cfg.halfOfAnyPort p) = true) (hf : (s.port p).fcDue = (k, q) :: rest) :
    s.startNext p ph = (s.setPort p { s.port p with fcDue := rest }).beginCopy p ph { kind := 1 } (s.fcFrame p k q) := by
  have hrun : ¬((!s.forwards (s.cfg.halfOfAnyPort p)) = true ∧ 8 ≤ p) := by
    rintro ⟨h1, h2⟩
    rcases hoff with h | h
    · omega
    · simp [h] at h1
  unfold State.startNext
  simp only [hq, hg, hf, Bool.false_eq_true, if_false, if_neg hrun]

/-- With no flow control due, the copy that R109 chooses: an express one, or a preemptable one while neither a hold nor a
preempted frame stands before it. -/
theorem State.startNext_chosen {c : Copy} (hq : s.quiesced (portDom p) = false) (hg : (s.port p).gasp = false)
    (hon : s.forwards (s.cfg.halfOfAnyPort p) = true) (hf : (s.port p).fcDue = [])
    (hc : s.choose p true = some c ∨
      (s.choose p true = none ∧ (s.port p).hold = false ∧ (s.port p).held = none ∧ s.choose p false = some c)) :
    s.startNext p ph = s.startCopy p ph c := by
  unfold State.startNext
  simp only [hq, hg, hf, hon, Bool.not_true, Bool.false_eq_true, if_false, false_and]
  rcases hc with hc | ⟨hc, hhold, hheld, hc'⟩
  · simp only [hc]
  · simp only [hc, hhold, hheld, hc', Bool.false_eq_true, if_false]

end

/-- The port with the level of FPn_CRS that comes with a frame start (R102; 02_boundary_and_access.md R37). -/
def State.sensed (s : State) (p : Nat) (crs : Bool) : State := s.setPort p { s.port p with crs := crs }

section
variable {s : State} {p ph sent : Nat} {crs : Bool}

theorem State.port_sensed : (s.sensed p crs).port p = { s.port p with crs := crs } := State.port_setPort_self _ _ _

/-- A port may launch bytes whatever its carrier. -/
theorem State.launches_sensed : (s.sensed p crs).launches p = s.launches p := by
  have hstop : (s.sensed p crs).stopped p true = s.stopped p true := by
    unfold State.stopped
    rw [State.port_sensed]
    rfl
  unfold State.launches
  rw [hstop]
  rfl

theorem State.sends_sensed : (s.sensed p crs).sends p = s.sends p := by
  unfold State.sends
  rw [State.launches_sensed, State.port_sensed]
  rfl

theorem State.choose_sensed (express : Bool) : (s.sensed p crs).choose p express = s.choose p express := by
  unfold State.choose State.chooseAmong
  rw [State.port_sensed]
  rfl

theorem State.defers_sensed (h : s.flag (F.MAC_CTL.DUPLEX p) = true ∨ (crs = false ∧ (s.port p).arriving = none)) :
    (s.sensed p crs).defers p = false := by
  have hflag : (s.sensed p crs).flag (F.MAC_CTL.DUPLEX p) = s.flag (F.MAC_CTL.DUPLEX p) := State.flag_setPort _ _ _ _
  unfold State.defers
  rw [State.port_sensed, hflag]
  rcases h with h | ⟨h1, h2⟩
  · rw [h]
    rfl
  · rw [h1, h2]
    exact Bool.and_false _

/-- The frame start of a port that does not defer. -/
theorem exec_frameTransmitStart (hd : s.flag (F.MAC_CTL.DUPLEX p) = true ∨ (crs = false ∧ (s.port p).arriving = none)) :
    exec (.frameTransmitStart p ph sent crs) s =
      let u := s.sensed p crs
      if s.sends p then
        if (s.port p).tx.isNone then .next (u.startNext p ph)
        else if u.preempts p sent then .next ((u.interrupt p sent).startNext p ph)
        else .next u
      else if s.launches p = true ∧ (s.port p).tx.isNone = true ∧ (s.port p).hold = false then .next (u.resumeHeld p)
      else .next u := by
  refine Eq.trans (if_neg (Bool.eq_false_iff.mp (State.defers_sensed hd))) ?_
  show (if (s.sensed p crs).sends p = true then if ((s.sensed p crs).port p).tx.isNone = true then _ else _
    else if (s.sensed p crs).launches p = true ∧ ((s.sensed p crs).port p).tx.isNone = true ∧ ((s.sensed p crs).port p).hold = false
      then _ else _) = _
  rw [State.sends_sensed, State.launches_sensed, State.port_sensed]
  rfl

theorem framesSent_flowControl (hd : s.flag (F.MAC_CTL.DUPLEX p) = true ∨ (crs = false ∧ (s.port p).arriving = none))
    (htx : (s.port p).tx = none) (hs : s.sends p = true) (hq : s.quiesced (portDom p) = false) (hg : (s.port p).gasp = false)
    {k q : Nat} {rest : List (Nat × Nat)} (hf : (s.port p).fcDue = (k, q) :: rest)
    (hoff : p < 8 ∨ s.forwards (s.cfg.halfOfAnyPort p) = true) :
    ∃ t, exec (.frameTransmitStart p ph sent crs) s = .next t ∧ (t.port p).fcDue = rest ∧ t.flag (F.MAC_STAT.TX_BUSY p) = true ∧
      (t.port p).tx.map (fun c => (c.kind, c.bytes)) = some (1, s.fcFrame p k q) := by
  have hstart := State.startNext_fcDue (s := s.sensed p crs) (ph := ph) hq (by rwa [State.port_sensed]) hoff
    (by rw [State.port_sensed]; exact hf)
  refine ⟨_, (exec_frameTransmitStart hd).trans ((if_pos hs).trans (if_pos (by simp [htx]))), ?_⟩
  rw [hstart, State.port_beginCopy, State.port_setPort_self]
  exact ⟨rfl, State.busy_beginCopy _ _ _ _ _, rfl⟩

theorem framesSent_chosen (hd : s.flag (F.MAC_CTL.DUPLEX p) = true ∨ (crs = false ∧ (s.port p).arriving = none))
    (htx : (s.port p).tx = none) (hs : s.sends p = true) (hq : s.quiesced (portDom p) = false) (hg : (s.port p).gasp = false)
    (hf : (s.port p).fcDue = []) (hon : s.forwards (s.cfg.halfOfAnyPort p) = true) {c : Copy}
    (hc : s.choose p true = some c ∨
      (s.choose p true = none ∧ (s.port p).hold = false ∧ (s.port p).held = none ∧ s.choose p false = some c))
    (hpois : s.poisoned (s.frame c.fid).parts = false) :
    ∃ t, exec (.frameTransmitStart p ph sent crs) s = .next t ∧ (t.port p).egress = (s.port p).egress.erase c ∧
      (t.port p).tx.map (fun c => (c.fid, c.kind)) = some (c.fid, c.kind) ∧ t.flag (F.MAC_STAT.TX_BUSY p) = true := by
  have hstart : (s.sensed p crs).startNext p ph = (s.sensed p crs).startCopy p ph c := by
    refine State.startNext_chosen hq ?_ hon ?_ ?_
    · rwa [State.port_sensed]
    · rwa [State.port_sensed]
    · rwa [State.choose_sensed, State.choose_sensed, State.port_sensed]
  have hspec := (s.sensed p crs).startCopy_spec p ph c hpois
  rw [State.port_sensed] at hspec
  exact ⟨_, (exec_frameTransmitStart hd).trans ((if_pos hs).trans (if_pos (by simp [htx]))), by rw [hstart]; exact hspec⟩

/-- A frame that was preempted goes on, though EN_TX may be 0. -/
theorem framesSent_resumed (hd : s.flag (F.MAC_CTL.DUPLEX p) = true ∨ (crs = false ∧ (s.port p).arriving = none))
    (htx : (s.port p).tx = none) {c : Copy} (hl : s.launches p = true) (hs : s.sends p = false) (hhold : (s.port p).hold = false)
    (hheld : (s.port p).held = some c) :
    ∃ t, exec (.frameTransmitStart p ph sent crs) s = .next t ∧ (t.port p).tx = some c ∧ (t.port p).held = none := by
  have hresume : (s.sensed p crs).resumeHeld p =
      (((s.sensed p crs).macCnt p 28).setPort p { s.port p with crs := crs, tx := some c, held := none }).fset (F.MAC_STAT.TX_BUSY p) 1 := by
    unfold State.resumeHeld
    rw [State.port_sensed]
    simp only [hheld]
  refine ⟨_, (exec_frameTransmitStart hd).trans ((if_neg (by simp [hs])).trans (if_pos ⟨hl, by simp [htx], hhold⟩)), ?_⟩
  rw [hresume, State.port_fset, State.port_setPort_self]
  exact ⟨rfl, rfl⟩

theorem framesSent_defers (hd : s.flag (F.MAC_CTL.DUPLEX p) = false) :
    ∃ t, exec (.frameTransmitStart p ph sent true) s = .next t ∧ t.port p = { s.port p with crs := true } ∧ t.out = s.out := by
  have hdefers : (s.sensed p true).defers p = true := by
    have hflag : (s.sensed p true).flag (F.MAC_CTL.DUPLEX p) = s.flag (F.MAC_CTL.DUPLEX p) := State.flag_setPort _ _ _ _
    unfold State.defers
    rw [State.port_sensed, hflag, hd]
    rfl
  exact ⟨s.sensed p true, if_pos hdefers, State.port_sensed, State.setPort_out _ _ _⟩

/-! ### Interruption by flow control -/

/-- The frame that left has been interrupted after `sent` bytes. -/
theorem State.interrupt_eq {c : Copy} (h : (s.port p).tx = some c) :
    s.interrupt p sent = ((s.setPort p { s.port p with tx := none, held := some { c with sent := sent } }).emit (.fragment p c.fid)).fset
      (F.MAC_STAT.TX_BUSY p) 0 := by
  unfold State.interrupt
  simp only [h]

theorem framesSent_interrupts {k q : Nat} {c : Copy} {rest : List (Nat × Nat)} (hp : p < 8) (hs : s.sends p = true)
    (hd : s.flag (F.MAC_CTL.DUPLEX p) = true) (htx : (s.port p).tx = some c) (hk : c.kind = 0) (hpre : c.pre = true)
    (hact : s.flag (F.MAC_STAT.PREEMPT_ACTIVE p) = true) (hheld : (s.port p).held = none)
    (hmin : 64 * (1 + s.fget (F.MAC_PREEMPT.ADD_FRAG p)) ≤ sent - c.sent + 4) (hrest : 64 ≤ s.copyLen c - sent)
    (hq : s.quiesced (portDom p) = false) (hg : (s.port p).gasp = false) (hf : (s.port p).fcDue = (k, q) :: rest) :
    ∃ t, exec (.frameTransmitStart p ph sent crs) s = .next t ∧ t.out = s.out ++ [.fragment p c.fid] ∧
      (t.port p).held = some { c with sent := sent } := by
  let u := s.sensed p crs
  have hport : u.port p = { s.port p with crs := crs } := State.port_sensed
  have hpreempts : u.preempts p sent = true := by
    have hfrag : u.fragOk p sent c = true := by
      show (decide _ && decide _) = true
      rw [Bool.and_eq_true, decide_eq_true_eq, decide_eq_true_eq]
      exact ⟨(State.fget_setPort s p _ _).symm ▸ hmin, hrest⟩
    have hact' : u.flag (F.MAC_STAT.PREEMPT_ACTIVE p) = true := (State.flag_setPort _ _ _ _).trans hact
    have hq' : u.quiesced (portDom p) = false := hq
    unfold State.preempts State.canPreempt
    simp [hport, hact', hheld, hq', htx, hk, hpre, hfrag, hf]
  have hint := State.interrupt_eq (s := u) (p := p) (sent := sent) (c := c) (by rw [hport]; exact htx)
  let w := u.interrupt p sent
  have hw : w.port p = { s.port p with crs := crs, tx := none, held := some { c with sent := sent } } := by
    show (u.interrupt p sent).port p = _
    rw [hint, State.port_fset, State.port_emit, State.port_setPort_self, hport]
  have hwq : w.quiesced (portDom p) = false := by
    have hkeep (v : Port) (o : Out) (g : Fld) (x : Nat) : (((u.setPort p v).emit o).fset g x).quiesced (portDom p) = u.quiesced (portDom p) := by
      unfold State.quiesced State.dom
      rw [State.fset_doms]
      rfl
    show (u.interrupt p sent).quiesced (portDom p) = false
    rw [hint, hkeep]
    exact hq
  have hstart := State.startNext_fcDue (s := w) (ph := ph) hwq (by rw [hw]; exact hg) (.inl hp) (by rw [hw]; exact hf)
  refine ⟨_, (exec_frameTransmitStart (.inl hd)).trans ((if_pos hs).trans ((if_neg (by simp [htx])).trans (if_pos hpreempts))), ?_, ?_⟩
  · rw [hstart, State.beginCopy_out, State.setPort_out]
    show (u.interrupt p sent).out = _
    rw [hint, State.fset_out, State.emit_out, State.setPort_out]
    rfl
  · rw [hstart, State.port_beginCopy, State.port_setPort_self, hw]

/-! ### Cut-through -/

theorem exec_cutThroughStart (hs : s.sends p = true) (hq : s.quiesced (portDom p) = false) (htx : (s.port p).tx = none)
    (hg : (s.port p).gasp = false) (hf : (s.port p).fcDue = []) (hon : s.forwards (s.cfg.halfOfAnyPort p) = true) {c : Copy}
    (hc : s.choose p true = some c ∨
      (s.choose p true = none ∧ (s.port p).hold = false ∧ (s.port p).held = none ∧ s.choose p false = some c))
    (hcut : s.cutOk p c = true) :
    exec (.cutThroughStart p ph sent) s = .next (s.startCopy p ph c) := by
  show execCutThroughStart p ph s sent = _
  unfold execCutThroughStart
  simp only [hs, hq, hg, hf, hon, List.isEmpty_nil, and_self, if_true]
  rcases hc with hc | ⟨hc, hhold, hheld, hc'⟩
  · simp [hc, hcut, htx]
  · simp [hc, hhold, hheld, htx, hc', hcut]

theorem State.wholeOk_of_cutOk {c : Copy} (h : s.cutOk p c = true) : s.wholeOk c = false := by
  have hdone : (s.frame c.fid).done = false := by
    simp only [State.cutOk, Bool.and_eq_true, Bool.not_eq_true'] at h
    tauto
  simp [State.wholeOk, hdone]

theorem framesSent_cutThrough (hs : s.sends p = true) (hq : s.quiesced (portDom p) = false) (htx : (s.port p).tx = none)
    (hg : (s.port p).gasp = false) (hf : (s.port p).fcDue = []) (hon : s.forwards (s.cfg.halfOfAnyPort p) = true) {c : Copy}
    (hc : s.choose p true = some c ∨
      (s.choose p true = none ∧ (s.port p).hold = false ∧ (s.port p).held = none ∧ s.choose p false = some c))
    (hcut : s.cutOk p c = true) :
    ∃ t, exec (.cutThroughStart p ph sent) s = .next t ∧ (t.port p).egress = (s.port p).egress.erase c ∧
      (t.port p).tx.map (fun c => (c.fid, c.cut, c.bytes)) = some (c.fid, true, (s.frame c.fid).bytes) := by
  refine ⟨_, exec_cutThroughStart hs hq htx hg hf hon hc hcut, ?_⟩
  rw [State.startCopy_cut _ _ _ _ (State.wholeOk_of_cutOk hcut), State.port_beginCopy, State.port_setPort_self]
  exact ⟨rfl, rfl⟩

end

/-! ### The end of a transmission -/

/-- The port has sent to the end and sends no longer. -/
def State.txEnded (s : State) (p : Nat) : State := (s.setPort p { s.port p with tx := none }).fset (F.MAC_STAT.TX_BUSY p) 0

section
variable (s : State) (p : Nat)

@[simp] theorem State.txEnded_out : (s.txEnded p).out = s.out := by
  unfold State.txEnded
  rw [State.fset_out, State.setPort_out]

@[simp] theorem State.port_txEnded : (s.txEnded p).port p = { s.port p with tx := none } := by
  unfold State.txEnded
  rw [State.port_fset, State.port_setPort_self]

theorem State.rd64_txEnded (k : Nat) : (s.txEnded p).rd64 (O.MAC_CNT p k) = s.rd64 (O.MAC_CNT p k) := by
  have hne : O.MAC_CNT p k ≠ O.MAC_STAT p ∧ O.MAC_CNT p k + 4 ≠ O.MAC_STAT p := by
    simp only [O.MAC_CNT, O.MAC_STAT]
    omega
  unfold State.txEnded
  rw [State.rd64_fset_ne _ (F.MAC_STAT.TX_BUSY p) _ hne.1 hne.2]
  exact State.rd64_congr (State.rd_setPort _ _ _ _) (State.rd_setPort _ _ _ _)

theorem State.txBroken_txEnded : (s.txEnded p).txBroken p = s.txBroken p := by
  have hmode : (s.txEnded p).hmode (s.cfg.halfOfAnyPort p) = s.hmode (s.cfg.halfOfAnyPort p) := by
    have hne : (modeCopy (s.cfg.halfOfAnyPort p)).off ≠ (F.MAC_STAT.TX_BUSY p).off := by
      simp only [F.MAC_STAT.TX_BUSY, O.MAC_STAT, modeCopy]
      split <;> simp only [F.BLK_HALF.MODE_A, F.BLK_HALF.MODE_B, O.BLK_HALF] <;> omega
    unfold State.txEnded State.hmode
    rw [State.fget_fset_ne _ _ _ _ (.inl hne), State.fget_setPort]
  unfold State.txBroken
  rw [show (s.txEnded p).cfg = s.cfg from rfl, hmode]
  rfl

theorem State.noteEdits_traffic (f : Nat) (notes : List (Edit × Bool × Bool)) : SameTraffic s (s.noteEdits p f notes) := by
  unfold State.noteEdits
  extract_lets v rest u w
  have hu : SameTraffic s u := SameTraffic.trans (SameTraffic.setPort (p := p) (by simp only [Port.traffic, v])) (State.fset_traffic _ _ _)
  have hw : SameTraffic u w := .ite ((u.fset_traffic _ _).trans fun n => congrArg Port.traffic (State.port_raisePort _ _ _ n)) (.refl u)
  exact (hu.trans hw).trans (.forEach (fun _ _ n => congrArg Port.traffic (State.port_spliceNote _ n _ _ _)) _ _)

/-- A frame's copy leaves as one frame, and nothing else at the ports moves. -/
theorem State.endCopy_spec (c : Copy) : SameTraffic s (s.endCopy p c) ∧ ∃ b, (s.endCopy p c).out = s.out ++ [.frame p b] := by
  unfold State.endCopy
  extract_lets f pois stomp b u v w x
  have hv : Keeps [.regs] u v :=
    .ite (State.macCnt_keeps (.refl _) _ _ (Allows.refl _))
      (State.cntAdd_keeps (State.macCnt_keeps (.refl _) _ _ (Allows.refl _)) _ _ (Allows.refl _))
  have hw : Keeps [.regs, .ports, .emem] v w := State.noteEdits_keeps (.refl v) _ _ _ (Allows.refl _)
  have hwt : SameTraffic v w := State.noteEdits_traffic _ _ _ _
  have hx : Keeps [.qps] w x := .ite (State.hostCode_keeps (.refl _) _ _ (Allows.refl _)) (.refl w)
  have hu : SameTraffic s u := fun n => congrArg Port.traffic (s.port_emit n _)
  refine ⟨?_, b.1, ?_⟩
  · exact (((hu.trans (hv.sameTraffic (by decide))).trans hwt).trans (hx.sameTraffic (by decide))).trans (x.copyGone_traffic p c _ _)
  · rw [State.copyGone_out, hx.1 .out (by decide), hw.1 .out (by decide), hv.1 .out (by decide)]
    exact State.emit_out _ _

end

section
variable {s : State} {p : Nat} {c : Copy} (hup : s.portUp p = true) (hclk : s.stopped p true = false) (htx : (s.port p).tx = some c)
include hup hclk htx

theorem exec_frameTransmitEnd (hdone : c.kind ≠ 0 ∨ c.cut = false ∨ (s.frame c.fid).done = true) :
    exec (.frameTransmitEnd p) s =
      let u := s.txEnded p
      if s.txBroken p then (if c.kind = 0 then .next (u.copyGone p c false 0) else .next u)
      else if c.kind = 0 then .next (u.endCopy p c)
      else
        let bs := c.bytes ++ fcsOf c.bytes
        let v := ((u.emit (.frame p bs)).macCnt p 22).cntAdd (O.MAC_CNT p 21) bs.length
        if c.kind = 1 then .next (v.macCnt p 23) else .next (v.gaspGone p) := by
  have hgo : ¬(s.portUp p = false ∨ s.stopped p true = true ∨ (c.kind = 0 ∧ c.cut = true ∧ (s.frame c.fid).done = false)) := by
    rw [hup, hclk]
    rintro (h | h | ⟨h1, h2, h3⟩)
    · exact nomatch h
    · exact nomatch h
    · simp [h1, h2, h3] at hdone
  rw [← s.txBroken_txEnded p]
  show execFrameTransmitEnd p s = _
  unfold execFrameTransmitEnd
  rw [htx]
  exact if_neg hgo

theorem framesSent_control (hok : s.txBroken p = false) (hk : c.kind = 1) :
    ∃ t, exec (.frameTransmitEnd p) s = .next t ∧ (t.port p).tx = none ∧ t.out = s.out ++ [.frame p (c.bytes ++ fcsOf c.bytes)] ∧
      t.rd64 (O.MAC_CNT p 22) = (s.rd64 (O.MAC_CNT p 22) + 1) % 2 ^ 64 ∧
      t.rd64 (O.MAC_CNT p 23) = (s.rd64 (O.MAC_CNT p 23) + 1) % 2 ^ 64 ∧
      t.rd64 (O.MAC_CNT p 21) = (s.rd64 (O.MAC_CNT p 21) + c.bytes.length + (fcsOf c.bytes).length) % 2 ^ 64 := by
  have h0 : c.kind ≠ 0 := by omega
  have hemit (k : Nat) : ((s.txEnded p).emit (.frame p (c.bytes ++ fcsOf c.bytes))).rd64 (O.MAC_CNT p k) = s.rd64 (O.MAC_CNT p k) :=
    s.rd64_txEnded p k
  have hport (u : State) (k n : Nat) : (u.cntAdd (O.MAC_CNT p k) n).port p = u.port p :=
    (State.cntAdd_keeps (Keeps.refl (ar := [.regs]) u) _ _ (Allows.refl _)).port (by decide) p
  have hstep := (exec_frameTransmitEnd hup hclk htx (.inl h0)).trans ((if_neg (by simp [hok])).trans ((if_neg h0).trans (if_pos hk)))
  refine ⟨_, hstep, ?_, ?_, ?_, ?_, ?_⟩
  · rw [State.port_macCnt, hport, State.port_macCnt, State.port_emit, State.port_txEnded]
  · rw [State.macCnt_out, State.cntAdd_out, State.macCnt_out, State.emit_out, State.txEnded_out]
  · rw [State.rd64_macCnt_ne _ _ (by decide), State.rd64_macCntAdd_ne _ _ _ (by decide), State.rd64_macCnt_self, hemit]
  · rw [State.rd64_macCnt_self, State.rd64_macCntAdd_ne _ _ _ (by decide), State.rd64_macCnt_ne _ _ (by decide), hemit]
  · rw [State.rd64_macCnt_ne _ _ (by decide), State.rd64_macCntAdd_self, State.rd64_macCnt_ne _ _ (by decide), hemit, List.length_append,
      Nat.add_assoc]

theorem framesSent_copy (hok : s.txBroken p = false) (hk : c.kind = 0) (hdone : c.cut = false ∨ (s.frame c.fid).done = true) :
    ∃ t, exec (.frameTransmitEnd p) s = .next t ∧ (t.port p).tx = none ∧ ∃ b, t.out = s.out ++ [.frame p b] := by
  obtain ⟨htraffic, b, hout⟩ := (s.txEnded p).endCopy_spec p c
  refine ⟨_, (exec_frameTransmitEnd hup hclk htx (.inr hdone)).trans ((if_neg (by simp [hok])).trans (if_pos hk)), ?_, b, ?_⟩
  · rw [htraffic.tx, State.port_txEnded]
  · rw [hout, State.txEnded_out]

theorem framesSent_lost (hbroken : s.txBroken p = true) (hdone : c.kind ≠ 0 ∨ c.cut = false ∨ (s.frame c.fid).done = true) :
    ∃ t, exec (.frameTransmitEnd p) s = .next t ∧ (t.port p).tx = none ∧ t.out = s.out := by
  have hstep := (exec_frameTransmitEnd hup hclk htx hdone).trans (if_pos hbroken)
  by_cases hk : c.kind = 0
  · refine ⟨_, hstep.trans (if_pos hk), ?_, ?_⟩
    · rw [(State.copyGone_traffic _ _ _ _ _).tx, State.port_txEnded]
    · rw [State.copyGone_out, State.txEnded_out]
  · exact ⟨_, hstep.trans (if_neg hk), by rw [State.port_txEnded], State.txEnded_out _ _⟩

end

/-- Settles O19: what a frame start begins, what makes it defer, a start in cut-through, the end of a transmission, and a preemptable
frame that flow control interrupts. -/
theorem framesSent : Obligations.FramesSent := by
  refine ⟨fun s p ph sent crs _ htx hd => ⟨fun hs hq hg => ⟨?_, ?_⟩, ?_⟩, fun s p ph sent hd => ?_,
    fun s p ph sent c _ hs hq htx hg hf hon hc hcut => ?_, fun s p c _ hup hclk htx => ⟨fun hok => ⟨?_, ?_⟩, ?_⟩,
    fun s p ph sent k q crs c rest hp hs hd htx hk hpre hact hheld hmin hrest hq hg hf => ?_⟩
  · exact fun k q rest hf hoff => framesSent_flowControl hd htx hs hq hg hf hoff
  · exact fun hf hon c hc hpois => framesSent_chosen hd htx hs hq hg hf hon hc hpois
  · exact fun c hl hs hhold hheld => framesSent_resumed hd htx hl hs hhold hheld
  · exact framesSent_defers hd
  · exact framesSent_cutThrough hs hq htx hg hf hon hc hcut
  · exact framesSent_control hup hclk htx hok
  · exact framesSent_copy hup hclk htx hok
  · exact framesSent_lost hup hclk htx
  · exact framesSent_interrupts hp hs hd htx hk hpre hact hheld hmin hrest hq hg hf

end Sys2Proof.Machine

namespace Sys2Proof.Machine

/-! ## Receiving at a port (04_field_ports.md R100, R101, R114) -/

/-! ### Operations after which no new copy waits -/

/-- The same frame arrives at every port, and no copy waits that did not wait before. -/
def NoNewCopies (s t : State) : Prop :=
  ∀ n, (t.port n).arriving = (s.port n).arriving ∧ (t.port n).egress ⊆ (s.port n).egress

section
variable {s t u : State}

theorem NoNewCopies.refl (s : State) : NoNewCopies s s := fun _ => ⟨rfl, List.Subset.refl _⟩

theorem NoNewCopies.trans (h : NoNewCopies s t) (k : NoNewCopies t u) : NoNewCopies s u :=
  fun n => ⟨(k n).1.trans (h n).1, List.Subset.trans (k n).2 (h n).2⟩

theorem NoNewCopies.ite {c : Prop} [Decidable c] (ht : NoNewCopies s t) (hu : NoNewCopies s u) :
    NoNewCopies s (if c then t else u) := by
  split
  · exact ht
  · exact hu

theorem NoNewCopies.forEach {α : Type} {f : α → State → State} (hf : ∀ a u, NoNewCopies u (f a u)) (l : List α) (s : State) :
    NoNewCopies s (forEach l f s) := by
  induction l generalizing s with
  | nil => exact .refl s
  | cons a l ih => exact (hf a s).trans (ih (f a s))

theorem SameTraffic.noNewCopies (h : SameTraffic s t) : NoNewCopies s t :=
  fun n => ⟨h.arriving n, fun _ hc => h.egress n ▸ hc⟩

theorem Keeps.noNewCopies {ar : List Area} (h : Keeps ar s t) (hp : Area.ports ∉ ar) : NoNewCopies s t :=
  (h.sameTraffic hp).noNewCopies

theorem NoNewCopies.setPort {p : Nat} {v : Port} (ha : v.arriving = (s.port p).arriving) (he : v.egress ⊆ (s.port p).egress) :
    NoNewCopies s (s.setPort p v) := by
  intro n
  by_cases hn : n = p
  · subst hn
    rw [State.port_setPort_self]
    exact ⟨ha, he⟩
  · rw [State.port_setPort_ne _ _ hn]
    exact ⟨rfl, List.Subset.refl _⟩

end

/-! ### Copies that are dropped -/

/-- One copy that waits at a port is dropped. -/
def State.dropCopy (s : State) (p : Nat) (c : Copy) : State :=
  (s.setPort p { s.port p with egress := (s.port p).egress.erase c }).copyGone p c false 0

section
variable (s : State) (p f : Nat)

theorem State.egress_dropCopy (c : Copy) : ((s.dropCopy p c).port p).egress = (s.port p).egress.erase c := by
  unfold State.dropCopy
  rw [(State.copyGone_traffic _ _ _ _ _).egress, State.port_setPort_self]

theorem State.dropCopy_noNewCopies (c : Copy) : NoNewCopies s (s.dropCopy p c) := by
  unfold State.dropCopy
  refine NoNewCopies.trans ?_ (State.copyGone_traffic _ p c false 0).noNewCopies
  exact NoNewCopies.setPort (by simp only) (by simp only [List.erase_subset])

/-- A port `v` that is the port's own, written out. -/
theorem State.egressErased_noNewCopies {v : Port} (c : Copy) (hv : v = s.port p) :
    NoNewCopies s ((s.setPort p { v with egress := v.egress.erase c }).copyGone p c false 0) := by
  subst hv
  exact s.dropCopy_noNewCopies p c

theorem State.egress_dropCopy_forEach (l : List Copy) : ((forEach l (fun c s => s.dropCopy p c) s).port p).egress = (s.port p).egress.diff l := by
  induction l generalizing s with
  | nil => rfl
  | cons c l ih =>
    rw [List.diff_cons, ← State.egress_dropCopy]
    exact ih (s.dropCopy p c)

/-- Taking the members with a property out of a list leaves none of them. -/
theorem not_of_mem_diff_filter {q : Copy → Bool} {l : List Copy} {c : Copy} (h : c ∈ l.diff (l.filter q)) : q c = false := by
  by_contra hq
  have hcount := List.count_pos_iff.mpr h
  rw [List.count_diff, List.count_filter (by simpa using hq), Nat.sub_self] at hcount
  exact absurd hcount (Nat.lt_irrefl 0)

/-- The copies of a frame that wait at one port are dropped. -/
def State.dropCopiesAt (s : State) (p f : Nat) : State :=
  forEach ((s.port p).egress.filter fun c => c.kind == 0 && c.fid == f) (fun c s => s.dropCopy p c) s

theorem State.dropCopies_eq (at_ : Nat → Bool) :
    s.dropCopies f at_ = forEach ((List.range 10).filter at_) (fun p s => s.dropCopiesAt p f) s := rfl

theorem State.dropCopiesAt_noNewCopies : NoNewCopies s (s.dropCopiesAt p f) := .forEach (fun c u => u.dropCopy_noNewCopies p c) _ s

theorem State.egress_dropCopiesAt {c : Copy} (hc : c ∈ ((s.dropCopiesAt p f).port p).egress) : c.kind = 0 → c.fid ≠ f := by
  unfold State.dropCopiesAt at hc
  rw [State.egress_dropCopy_forEach] at hc
  have h := not_of_mem_diff_filter hc
  simpa using h

theorem State.dropCopies_noNewCopies (at_ : Nat → Bool) : NoNewCopies s (s.dropCopies f at_) := by
  rw [State.dropCopies_eq]
  exact .forEach (fun p u => u.dropCopiesAt_noNewCopies p f) _ s

/-- Where the copies of a frame are dropped, none waits any more. -/
theorem State.egress_dropCopies {at_ : Nat → Bool} {o : Nat} (ho : o < 10) (hat : at_ o = true) :
    ∀ c ∈ ((s.dropCopies f at_).port o).egress, c.kind = 0 → c.fid ≠ f := by
  rw [State.dropCopies_eq]
  refine forEach_reaches (P := fun u => ∀ c ∈ (u.port o).egress, c.kind = 0 → c.fid ≠ f) (fun p u hu c hc => ?_)
    (fun u c hc => u.egress_dropCopiesAt o f hc) (List.mem_filter.mpr ⟨List.mem_range.mpr ho, hat⟩) s
  exact hu c ((u.dropCopiesAt_noNewCopies p f o).2 hc)

end

/-! ### A frame that is discarded -/

section
variable (s : State) (f : Nat)

/-- What follows the dropping of the copies in a discard moves none. -/
theorem State.discard_traffic : SameTraffic ((s.unparse f).dropCopies f (fun _ => true)) (s.discard f) := by
  have ht (u : State) : SameTraffic u (u.dropFromThreads f) :=
    (State.dropFromThreads_keeps (Keeps.refl (ar := [.regs, .threads]) u) f (Allows.refl _)).sameTraffic (by decide)
  have hq (u : State) : SameTraffic u (u.dropFromQueues f) :=
    (State.dropFromQueues_keeps (Keeps.refl (ar := [.regs, .qps]) u) f (Allows.refl _)).sameTraffic (by decide)
  exact ((ht _).trans (hq _)).trans (State.tidy_traffic _)

theorem State.discard_noNewCopies : NoNewCopies s (s.discard f) := by
  have hu := (State.unparse_keeps (Keeps.refl (ar := [.regs, .pipes]) s) f (Allows.refl _)).noNewCopies (by decide)
  exact (hu.trans (State.dropCopies_noNewCopies _ f _)).trans (s.discard_traffic f).noNewCopies

/-- No copy of a discarded frame waits at any port (R114). -/
theorem State.egress_discard {o : Nat} (ho : o < 10) {c : Copy} (hc : c ∈ ((s.discard f).port o).egress) : c.kind = 0 → c.fid ≠ f := by
  rw [(s.discard_traffic f).egress] at hc
  exact State.egress_dropCopies (s.unparse f) f (at_ := fun _ => true) ho rfl c hc

theorem State.judgeLens_noNewCopies : NoNewCopies s (s.judgeLens f) := by
  have hcnt (u : State) (k : Nat) : NoNewCopies u (u.cnt k) :=
    (State.cnt_keeps (Keeps.refl (ar := [.regs]) u) k (Allows.refl _)).noNewCopies (by decide)
  refine .forEach (fun p u => .forEach (fun c w => .ite (.refl w) ?_) _ u) _ s
  have hport (k : Nat) : w.port p = (w.cnt k).port p := ((State.cnt_keeps (Keeps.refl (ar := [.regs]) w) k (Allows.refl _)).port (by decide) p).symm
  exact (hcnt w _).trans (State.egressErased_noNewCopies _ p c (hport _))

theorem State.placeFrame_noNewCopies (m : Nat) : NoNewCopies s (s.placeFrame f m) := by
  have hset (u : State) (v : Frame) : NoNewCopies u (u.setFrame f v) :=
    (State.setFrame_keeps (Keeps.refl (ar := [.frames]) u) f v (Allows.refl _)).noNewCopies (by decide)
  have hover (u : State) (v : Frame) (owner q : Nat) : NoNewCopies u (u.countOverrun v owner q) :=
    (State.countOverrun_keeps (Keeps.refl (ar := [.regs, .qps]) u) v owner q (Allows.refl _)).noNewCopies (by decide)
  have hmem (u : State) (k : Nat) : NoNewCopies u (u.memCnt k) :=
    (State.memCnt_keeps (Keeps.refl (ar := [.regs]) u) k (Allows.refl _)).noNewCopies (by decide)
  have hwrite (u : State) (parts : List Part) (bs : List Byte) : NoNewCopies u (u.writeParts m parts bs).2 :=
    (State.writeParts_keeps (Keeps.refl (ar := [.regs, .free]) u) m parts bs (Allows.refl _)).noNewCopies (by decide)
  unfold State.placeFrame
  dsimp only
  split
  · exact .refl s
  · refine .ite ?_ (hset s _)
    split
    · next hplace =>
      have hplaced := (State.place_keeps (Keeps.refl (ar := [.regs, .mem]) _) _ _ _ _ _ hplace (Allows.refl _)).noNewCopies (by decide)
      exact (((hset s _).trans hplaced).trans (hwrite _ _ _)).trans (hset _ _)
    · exact ((hset s _).trans (hover _ _ _ _)).trans (State.discard_noNewCopies _ f)
    · exact (((hset s _).trans (hmem _ 9)).trans (hover _ _ _ _)).trans (State.discard_noNewCopies _ f)

end

/-! ### The end of a received frame -/

/-- A good frame is whole: one that a filter rejects is discarded, any other is judged by its checksums and takes its place in
buffer memory once it is parsed (R101, R103, R115). -/
def State.acceptFrame (s : State) (p fid : Nat) (f : Frame) (status : Nat) : State :=
  let u := s.setFrame fid { f with done := true, status := status }
  if f.drop then
    let fwd := f.status / 4 % 2 = 1 ∨ u.flag (F.MAC_FILT.FWD_ALL p) = true
    (u.macCnt p (if fwd then 12 else 11)).discard fid
  else
    let v := u.checkSums fid
    let w := v.setFrame fid { v.frame fid with raw := none }
    if f.parse.stage = 3 then ((w.judgeLens fid).placeFrame fid 13).tidy else w.tidy

theorem State.acceptFrame_noNewCopies (s : State) (p fid : Nat) (f : Frame) (status : Nat) : NoNewCopies s (s.acceptFrame p fid f status) := by
  have hset (u : State) (v : Frame) : NoNewCopies u (u.setFrame fid v) :=
    (State.setFrame_keeps (Keeps.refl (ar := [.frames]) u) fid v (Allows.refl _)).noNewCopies (by decide)
  have hsums (u : State) : NoNewCopies u (u.checkSums fid) :=
    (State.checkSums_keeps (Keeps.refl (ar := [.frames]) u) fid (Allows.refl _)).noNewCopies (by decide)
  have hcnt (u : State) (k : Nat) : NoNewCopies u (u.macCnt p k) := SameTraffic.noNewCopies fun n => congrArg Port.traffic (u.port_macCnt n p k)
  unfold State.acceptFrame
  extract_lets u fwd v g w
  have hu : NoNewCopies s u := hset s _
  have hw : NoNewCopies u w := (hsums u).trans (hset v _)
  refine hu.trans (.ite ?_ ?_)
  · exact (hcnt u _).trans (State.discard_noNewCopies _ fid)
  · refine hw.trans (.ite ?_ (State.tidy_traffic _).noNewCopies)
    exact ((State.judgeLens_noNewCopies _ fid).trans (State.placeFrame_noNewCopies _ fid 13)).trans (State.tidy_traffic _).noNewCopies

/-- The end of a received frame makes no copy wait; one that came with an error is discarded, whatever else is wrong with it. -/
theorem State.judgeEnd_spec (s : State) (p f : Nat) (ovr fcs err : Bool) (asm : Nat) :
    NoNewCopies s (s.judgeEnd p f ovr fcs err asm) ∧ (err = true → ∃ w : State, s.judgeEnd p f ovr fcs err asm = w.discard f) := by
  have hset (u : State) (v : Frame) : NoNewCopies u (u.setFrame f v) :=
    (State.setFrame_keeps (Keeps.refl (ar := [.frames]) u) f v (Allows.refl _)).noNewCopies (by decide)
  have hsums (u : State) : NoNewCopies u (u.checkSums f) :=
    (State.checkSums_keeps (Keeps.refl (ar := [.frames]) u) f (Allows.refl _)).noNewCopies (by decide)
  have hcnt (u : State) (k : Nat) : NoNewCopies u (u.macCnt p k) := SameTraffic.noNewCopies fun n => congrArg Port.traffic (u.port_macCnt n p k)
  have hgood (u : State) (n : Nat) (dst : List Byte) : NoNewCopies u (u.countGood p n dst) :=
    (State.countGood_keeps (Keeps.refl (ar := [.regs]) u) p n dst (Allows.refl _)).noNewCopies (by decide)
  have hpause (u : State) (pfc : Bool) (en : Nat) (q : List Nat) : NoNewCopies u (u.pauseReceive p pfc en q) :=
    (State.pauseReceive_keeps (Keeps.refl (ar := [.regs]) u) p pfc en q (Allows.refl _)).noNewCopies (by decide)
  have hwake (u : State) (bs : List Byte) (pass : Bool) : NoNewCopies u (u.wakeMatch p bs pass) :=
    (State.wakeMatch_keeps (Keeps.refl (ar := [.regs, .latches, .doms]) u) p bs pass (Allows.refl _)).noNewCopies (by decide)
  unfold State.judgeEnd
  extract_lets g bs n s1 good status bad pass s2
  have hs2 : NoNewCopies s s2 :=
    NoNewCopies.trans (.ite (hcnt s 29) (.ite (hcnt s 30) (.refl s))) (.ite (hwake s1 _ _) (.refl s1))
  have hbad (u : State) (hu : NoNewCopies s u) : NoNewCopies s (bad u) ∧ (err = true → ∃ w : State, bad u = w.discard f) :=
    ⟨((hu.trans (hset u _)).trans (hsums _)).trans (State.discard_noNewCopies _ f), fun _ => ⟨_, rfl⟩⟩
  split
  · exact hbad _ (hs2.trans (hcnt _ _))
  · split
    · exact hbad _ hs2
    · split
      · exact hbad _ (hs2.trans (hcnt _ _))
      · split
        · exact hbad _ ((hs2.trans (hcnt _ _)).trans (hcnt _ _))
        · next hg =>
          refine ⟨?_, fun he => absurd ?_ hg⟩
          · split
            · exact (((hs2.trans (hgood _ _ _)).trans (hset _ _)).trans (hpause _ _ _ _)).trans (State.discard_noNewCopies _ f)
            · exact (hs2.trans (hgood _ _ _)).trans (State.acceptFrame_noNewCopies _ p f g status)
          · simp [good, he]

/-! ### Bytes that join a frame -/

/-- What the bytes of a frame, its stamp and its source are read from. -/
def Frame.content (f : Frame) : List Byte × Option (List Byte) × Int × Src := (f.bytes, f.raw, f.stamp, f.src)

/-- The frame with further bytes, of which MAX_LEN leaves it the first (R101). -/
def Frame.join (f : Frame) (room : Nat) (bytes : List Byte) (rxErr : Bool) : Frame :=
  let new := bytes.take (room - f.received.length)
  let excess := f.excess ++ bytes.drop (room - f.received.length)
  { f with bytes := if f.void then f.bytes else f.bytes ++ new
           raw := if f.void then some (f.received ++ new) else f.raw.map (· ++ new)
           excess := excess, bad := f.bad || rxErr
           status := if !excess.isEmpty then Nat.lor f.status 2 else f.status }

theorem Frame.received_join (f : Frame) (room : Nat) (bytes : List Byte) (rxErr : Bool) :
    (f.join room bytes rxErr).received = f.received ++ bytes.take (room - f.received.length) := by
  unfold Frame.join
  generalize bytes.take (room - f.received.length) = new
  unfold Frame.received
  cases hv : f.void <;> cases hr : f.raw <;> simp

/-- The frame `fid` of port `p` takes further bytes: its windows and cut-through copies follow, its head is judged, and a new one is
offered to the pipeline. -/
def State.joinFrame (s : State) (p fid : Nat) (bytes : List Byte) (fresh eof rxErr : Bool) : State :=
  let f := s.frame fid
  let had := f.received.length
  let s' := s.setFrame fid (f.join (s.maxLen p) bytes rxErr)
  let s' := if f.void then s' else s'.spreadBytes fid f.bytes.length (bytes.take (s.maxLen p - had))
  let s' := if 16 ≤ had then s' else s'.judgeHead p fid eof
  if fresh = true ∧ (s'.frame fid).drop = false then s'.offer fid else s'

/-- A frame begins at an idle receiver (R100). -/
def State.beginFrame (s : State) (p ph : Nat) : State :=
  let x := s.newFrame { src := .port p, half := s.cfg.halfOfAnyPort p, stamp := s.rxStamp p ph, course := 16 }
  (x.2.setPort p { x.2.port p with arriving := some x.1 }).fset (F.MAC_STAT.RX_BUSY p) 1

section
variable (s : State) (p fid : Nat) (bytes : List Byte) (fresh eof rxErr : Bool)

theorem State.spreadBytes_noNewCopies (had : Nat) (new : List Byte) : NoNewCopies s (s.spreadBytes fid had new) := by
  have hput (u : State) (e a : Nat) (bs : List Byte) : NoNewCopies u (u.eput e a bs) :=
    (State.eput_keeps (Keeps.refl (ar := [.emem]) u) e a bs (Allows.refl _)).noNewCopies (by decide)
  unfold State.spreadBytes
  refine NoNewCopies.trans (.forEach (fun x u => ?_) _ _) (.forEach (fun x u => hput u _ _ _) _ _)
  exact NoNewCopies.setPort (by simp only) (by simp only [List.Subset.refl])

theorem State.judgeHead_keeps_self (last : Bool) : Keeps [.regs, .frames, .pipes] s (s.judgeHead p fid last) :=
  State.judgeHead_keeps (.refl s) p fid last (Allows.refl _)

/-- Judging the head of a frame leaves its bytes, stamp and source. -/
theorem State.content_judgeHead (last : Bool) : ((s.judgeHead p fid last).frame fid).content = (s.frame fid).content := by
  have hun (u : State) : (u.unparse fid).frame fid = u.frame fid :=
    (State.unparse_keeps (Keeps.refl (ar := [.regs, .pipes]) u) fid (Allows.refl _)).frame (by decide) fid
  unfold State.judgeHead
  extract_lets f bs dst st v seenV ctl drop status u
  have hu : (u.frame fid).content = (s.frame fid).content := by
    simp only [u, State.frame_setFrame_self]
    rfl
  split
  · rw [hun, hu]
  · exact hu

theorem State.joinFrame_keeps : Keeps [.regs, .frames, .ports, .pipes, .emem] s (s.joinFrame p fid bytes fresh eof rxErr) := by
  unfold State.joinFrame
  extract_lets f had u v w
  have hu : Keeps [.regs, .frames, .ports, .pipes, .emem] s u := State.setFrame_keeps (.refl s) _ _ (Allows.mono (by decide) (Allows.refl _))
  have hv : Keeps [.regs, .frames, .ports, .pipes, .emem] s v := .ite hu (State.spreadBytes_keeps hu _ _ _ (Allows.mono (by decide) (Allows.refl _)))
  have hw : Keeps [.regs, .frames, .ports, .pipes, .emem] s w := .ite hv (State.judgeHead_keeps hv _ _ _ (Allows.mono (by decide) (Allows.refl _)))
  exact .ite (State.offer_keeps hw _ (Allows.mono (by decide) (Allows.refl _))) hw

theorem State.joinFrame_noNewCopies : NoNewCopies s (s.joinFrame p fid bytes fresh eof rxErr) := by
  unfold State.joinFrame
  extract_lets f had u v w
  have hu : NoNewCopies s u := (State.setFrame_keeps (Keeps.refl (ar := [.frames]) s) _ _ (Allows.refl _)).noNewCopies (by decide)
  have hv : NoNewCopies u v := .ite (.refl u) (u.spreadBytes_noNewCopies _ _ _)
  have hw : NoNewCopies v w := .ite (.refl v) ((v.judgeHead_keeps_self p fid eof).noNewCopies (by decide))
  have hoffer := (State.offer_keeps (Keeps.refl (ar := [.regs, .pipes]) w) fid (Allows.refl _)).noNewCopies (by decide)
  exact ((hu.trans hv).trans hw).trans (.ite hoffer (.refl w))

theorem State.content_joinFrame :
    ((s.joinFrame p fid bytes fresh eof rxErr).frame fid).content = ((s.frame fid).join (s.maxLen p) bytes rxErr).content := by
  unfold State.joinFrame
  extract_lets f had u v w
  have hu : u.frame fid = f.join (s.maxLen p) bytes rxErr := State.frame_setFrame_self _ _ _
  have hv : v.frame fid = u.frame fid :=
    (Keeps.ite (.refl u) (State.spreadBytes_keeps (Keeps.refl (ar := [.ports, .emem]) u) _ _ _ (Allows.refl _))).frame (by decide) fid
  have hw : (w.frame fid).content = (v.frame fid).content := by
    simp only [w]
    split
    · rfl
    · exact v.content_judgeHead p fid eof
  have hoffer := (Keeps.ite (c := fresh = true ∧ (w.frame fid).drop = false)
    (State.offer_keeps (Keeps.refl (ar := [.regs, .pipes]) w) fid (Allows.refl _)) (.refl w)).frame (by decide) fid
  rw [hoffer, hw, hv, hu]

theorem State.frameIn_fresh (asm ph : Nat) (h : (s.port p).arriving = none) :
    s.frameIn p bytes false rxErr asm ph = (s.beginFrame p ph).joinFrame p s.nextFrame bytes true false rxErr := by
  unfold State.frameIn
  simp only [h]
  rfl

theorem State.frameIn_more (asm ph : Nat) (h : (s.port p).arriving = some fid) :
    s.frameIn p bytes false rxErr asm ph = s.joinFrame p fid bytes false false rxErr := by
  unfold State.frameIn
  simp only [h]
  rfl

/-- The receiver is free again. -/
def State.rxFreed (s : State) (p : Nat) : State := (s.setPort p { s.port p with arriving := none }).fset (F.MAC_STAT.RX_BUSY p) 0

theorem State.frameIn_end (asm ph : Nat) (h : (s.port p).arriving = some fid) :
    ∃ ovr fcs, s.frameIn p bytes true rxErr asm ph =
      ((s.joinFrame p fid bytes false true rxErr).rxFreed p).judgeEnd p fid ovr fcs ((s.frame fid).bad || rxErr) asm := by
  unfold State.frameIn
  simp only [h]
  exact ⟨_, _, rfl⟩

end

section
variable {s : State} {p ph asm : Nat} {bs : List Byte} {eof err : Bool}

theorem State.port_beginFrame : ((s.beginFrame p ph).port p).arriving = some s.nextFrame := by
  unfold State.beginFrame
  rw [State.port_fset, State.port_setPort_self]
  rfl

theorem State.frame_beginFrame : (s.beginFrame p ph).frame s.nextFrame =
    { src := .port p, half := s.cfg.halfOfAnyPort p, stamp := s.rxStamp p ph, course := 16 } := by
  have hset (u : State) (v : Port) (g : Fld) (x : Nat) : ((u.setPort p v).fset g x).frame s.nextFrame = u.frame s.nextFrame := by
    unfold State.frame
    rw [State.fset_frames]
    rfl
  have hnext (u : State) (n : Nat) : (u.setNextFrame n).frame s.nextFrame = u.frame s.nextFrame := rfl
  unfold State.beginFrame State.newFrame
  rw [hset, hnext, State.frame_setFrame_self]

theorem State.nextFrame_beginFrame : (s.beginFrame p ph).nextFrame = s.nextFrame + 1 := by
  unfold State.beginFrame
  rw [State.fset_nextFrame]
  rfl

theorem State.maxLen_beginFrame : (s.beginFrame p ph).maxLen p = s.maxLen p := by
  have hne : O.MAC_FRAME p ≠ O.MAC_STAT p ∧ O.TRK_CFG (p - 8) ≠ O.MAC_STAT p := by
    simp only [O.MAC_FRAME, O.MAC_STAT, O.TRK_CFG]
    omega
  have hfget (g : Fld) (hg : g.off ≠ O.MAC_STAT p) : (s.beginFrame p ph).fget g = s.fget g := by
    unfold State.beginFrame
    rw [State.fget_fset_ne _ (F.MAC_STAT.RX_BUSY p) _ _ (.inl hg), State.fget_setPort]
    rfl
  have hen : (s.beginFrame p ph).flag (F.TRK_CFG.EN (p - 8)) = s.flag (F.TRK_CFG.EN (p - 8)) :=
    congrArg (fun n => decide (n ≠ 0)) (hfget _ hne.2)
  have hcfg : (s.beginFrame p ph).cfg = s.cfg := by
    unfold State.beginFrame
    rw [State.fset_cfg]
    rfl
  unfold State.maxLen State.isMac
  rw [hfget (F.MAC_FRAME.MAX_LEN p) hne.1, hfget (F.TRK_CFG.MODE (p - 8)) hne.2, hen, hcfg]

theorem exec_frameReceive (hmac : s.isMac p = true) (hup : s.portUp p = true) (hl : s.listening p = false) (hclk : s.stopped p false = false)
    (hon : (s.port p).arriving.isSome = true ∨ (s.flag (F.MAC_CTL.EN_RX p) = true ∧ s.quiesced (portDom p) = false)) :
    exec (.frameReceive p bs eof err asm ph) s = .next (s.frameIn p bs eof err (if p < 8 then asm else 0) ph) :=
  (if_neg (by rw [hl]; simp)).trans (if_pos ⟨hmac, hup, hclk, hon⟩)

theorem framesReceived_listening (hl : s.listening p = true) (hclk : s.stopped p false = false) :
    ∃ t, exec (.frameReceive p bs false err asm ph) s = .next t ∧ (t.port p).heard = (s.port p).heard ++ bs ∧ t.frames = s.frames ∧
      t.regs = s.regs := by
  have hstep : s.listenFrame p bs false err =
      s.setPort p { s.port p with heard := (s.port p).heard ++ bs, heardErr := (s.port p).heardErr || err } := rfl
  refine ⟨_, (if_pos ⟨hl, hclk⟩ : _ = Host.Outcome.next (s.listenFrame p bs false err)), ?_⟩
  rw [hstep, State.port_setPort_self]
  exact ⟨rfl, rfl, rfl⟩

section
variable (hmac : s.isMac p = true) (hup : s.portUp p = true) (hl : s.listening p = false) (hclk : s.stopped p false = false)
include hmac hup hl hclk

theorem framesReceived_first (hen : s.flag (F.MAC_CTL.EN_RX p) = true) (hq : s.quiesced (portDom p) = false)
    (ha : (s.port p).arriving = none) :
    ∃ t, exec (.frameReceive p bs false err asm ph) s = .next t ∧ (t.port p).arriving = some s.nextFrame ∧
      t.nextFrame = s.nextFrame + 1 ∧ (t.frame s.nextFrame).bytes = bs.take (s.maxLen p) ∧
      (t.frame s.nextFrame).stamp = s.rxStamp p ph ∧ (t.frame s.nextFrame).src = .port p := by
  refine ⟨_, (exec_frameReceive hmac hup hl hclk (.inr ⟨hen, hq⟩)).trans (congrArg _ (s.frameIn_fresh p bs err _ ph ha)), ?_⟩
  have hcontent := (s.beginFrame p ph).content_joinFrame p s.nextFrame bs true false err
  rw [State.frame_beginFrame, State.maxLen_beginFrame] at hcontent
  have hnext := ((s.beginFrame p ph).joinFrame_keeps p s.nextFrame bs true false err).1 .nextFrame (by decide)
  have harriving := (State.joinFrame_noNewCopies (s.beginFrame p ph) p s.nextFrame bs true false err p).1
  exact ⟨harriving.trans State.port_beginFrame, hnext.trans State.nextFrame_beginFrame, congrArg (·.1) hcontent,
    congrArg (·.2.2.1) hcontent, congrArg (·.2.2.2) hcontent⟩

theorem framesReceived_more {f : Nat} (ha : (s.port p).arriving = some f) :
    ∃ t, exec (.frameReceive p bs false err asm ph) s = .next t ∧ (t.port p).arriving = some f ∧
      (t.frame f).received = (s.frame f).received ++ bs.take (s.maxLen p - (s.frame f).received.length) ∧
      ((s.frame f).void = false →
        (t.frame f).bytes = (s.frame f).bytes ++ bs.take (s.maxLen p - (s.frame f).received.length)) := by
  refine ⟨_, (exec_frameReceive hmac hup hl hclk (.inl (by rw [ha]; rfl))).trans (congrArg _ (s.frameIn_more p f bs err _ ph ha)), ?_⟩
  have hcontent := s.content_joinFrame p f bs false false err
  refine ⟨((s.joinFrame_noNewCopies _ _ _ _ _ _ p).1).trans ha, ?_, fun hv => ?_⟩
  · rw [← Frame.received_join _ _ _ err]
    exact congrArg (fun c => c.2.1.getD c.1) hcontent
  · refine (congrArg (·.1) hcontent).trans ?_
    show (if (s.frame f).void = true then _ else _) = _
    rw [hv]
    rfl

theorem framesReceived_end {f : Nat} (ha : (s.port p).arriving = some f) :
    ∃ t, exec (.frameReceive p bs true err asm ph) s = .next t ∧ (t.port p).arriving = none ∧
      (err = true → ∀ o, o < 10 → ∀ c ∈ (t.port o).egress, c.kind = 0 → c.fid ≠ f) := by
  obtain ⟨ovr, fcs, hend⟩ := s.frameIn_end p f bs err (if p < 8 then asm else 0) ph ha
  refine ⟨_, (exec_frameReceive hmac hup hl hclk (.inl (by rw [ha]; rfl))).trans (congrArg _ hend), ?_⟩
  obtain ⟨hno, hdiscard⟩ := State.judgeEnd_spec ((s.joinFrame p f bs false true err).rxFreed p) p f ovr fcs ((s.frame f).bad || err)
    (if p < 8 then asm else 0)
  refine ⟨(hno p).1.trans ?_, fun he o ho c hc => ?_⟩
  · unfold State.rxFreed
    rw [State.port_fset, State.port_setPort_self]
  · obtain ⟨w, hw⟩ := hdiscard (by rw [he, Bool.or_true])
    rw [hw] at hc
    exact w.egress_discard f ho hc

end

end

/-- Settles O18: a port that listens, the first bytes of a frame, later ones, and its end. -/
theorem framesReceived : Obligations.FramesReceived := by
  refine ⟨fun s p asm ph bs err hl hclk => ?_, fun s p asm ph bs err _ hmac hup hl hclk => ⟨fun hen hq ha => ?_, ?_, ?_⟩⟩
  · exact framesReceived_listening hl hclk
  · exact framesReceived_first hmac hup hl hclk hen hq ha
  · exact fun f ha => framesReceived_more hmac hup hl hclk ha
  · exact fun f ha => framesReceived_end hmac hup hl hclk ha

end Sys2Proof.Machine

namespace Sys2Proof.Machine

/-! ## The cell-mode trunks (05_trunk_cells.md)

The counters of a trunk (R156) lie apart from its other words: byte 0x100 up to 0x1F0 of its file of 0x4000 bytes. -/

section
variable (s : State) (n m k : Nat) {j : Nat}

/-- A word outside the counters. -/
theorem State.rd_trkCntAdd (x : Nat) (hk : k < 30) (hj : j % 0x4000 < 0x100 ∨ 0x200 ≤ j % 0x4000) :
    (s.cntAdd (O.TRK_CNT n k) x).rd j = s.rd j := by
  simp only [O.TRK_CNT]
  exact s.rd_wr64_ne _ (by omega) (by omega)

theorem State.rd64_trkCntAdd_ne (x : Nat) (h : j ≠ k) :
    (s.cntAdd (O.TRK_CNT n k) x).rd64 (O.TRK_CNT n j) = s.rd64 (O.TRK_CNT n j) := by
  simp only [O.TRK_CNT]
  exact s.rd64_wr64_ne _ (by omega) (by omega) (by omega)

theorem State.rd64_trkCnt_ne (h : j ≠ k) : (s.trkCnt n k).rd64 (O.TRK_CNT n j) = s.rd64 (O.TRK_CNT n j) :=
  s.rd64_trkCntAdd_ne n k 1 h

theorem State.rd64_trkCnt_self : (s.trkCnt n k).rd64 (O.TRK_CNT n k) = (s.rd64 (O.TRK_CNT n k) + 1) % 2 ^ 64 := s.rd64_cnt _

/-- A field outside the counters. -/
theorem State.fget_trkCntAdd (x : Nat) (g : Fld) (hk : k < 30) (hg : g.off % 0x4000 < 0x100 ∨ 0x200 ≤ g.off % 0x4000) :
    (s.cntAdd (O.TRK_CNT n k) x).fget g = s.fget g := by
  unfold State.fget
  rw [s.rd_trkCntAdd n k x hk hg]

theorem State.fget_trkCnt (g : Fld) (hk : k < 30) (hg : g.off % 0x4000 < 0x100 ∨ 0x200 ≤ g.off % 0x4000) :
    (s.trkCnt n k).fget g = s.fget g := s.fget_trkCntAdd n k 1 g hk hg

theorem State.flag_trkCnt (g : Fld) (hk : k < 30) (hg : g.off % 0x4000 < 0x100 ∨ 0x200 ≤ g.off % 0x4000) :
    (s.trkCnt n k).flag g = s.flag g := by
  unfold State.flag
  rw [s.fget_trkCnt n k g hk hg]

@[simp] theorem State.rd64_setTrunk (v : Trunk) (i : Nat) : (s.setTrunk m v).rd64 i = s.rd64 i :=
  State.rd64_congr (State.rd_setTrunk _ _ _ _) (State.rd_setTrunk _ _ _ _)
@[simp] theorem State.trunk_trkCnt : (s.trkCnt n k).trunk m = s.trunk m := rfl
@[simp] theorem State.trunk_emit (o : Out) : (s.emit o).trunk m = s.trunk m := rfl
@[simp] theorem State.trkCnt_out : (s.trkCnt n k).out = s.out := s.cntAdd_out _ _

end

/-! ### Cells sent (R134 to R136, R140, R146 to R149, R152) -/

/-- The 58 scrambled bytes that a payload takes on the lane, filled up with zeros (R140). -/
def laneBytes (hist : Nat) (p : List Byte) : List Byte := natBe 58 (scramble hist (beNat (p ++ List.replicate (58 - p.length) 0))).1

section
variable {s : State} {n ph k c : Nat}

section
variable (s : State) (n info : Nat) (p : List Byte)

/-- A cell sent is counted, and the scrambler goes on from it (R140). -/
theorem State.sendCell_eq : s.sendCell n info p =
    ((s.setTrunk n { s.trunk n with
        txHist := (scramble (s.trunk n).txHist (beNat (p ++ List.replicate (58 - p.length) 0))).2 }).trkCnt n 22).emit
      (.cell n (headerBytes info ++ laneBytes (s.trunk n).txHist p)) := rfl

theorem State.sendCell_out :
    (s.sendCell n info p).out = s.out ++ [.cell n (headerBytes info ++ laneBytes (s.trunk n).txHist p)] := by
  rw [State.sendCell_eq, State.emit, State.setOut_out, State.trkCnt_out, State.setTrunk_out]

theorem State.trunk_sendCell : (s.sendCell n info p).trunk n =
    { s.trunk n with txHist := (scramble (s.trunk n).txHist (beNat (p ++ List.replicate (58 - p.length) 0))).2 } := by
  rw [State.sendCell_eq, State.trunk_emit, State.trunk_trkCnt, State.trunk_setTrunk_self]

theorem State.rd64_sendCell : (s.sendCell n info p).rd64 (O.TRK_CNT n k) =
    if k = 22 then (s.rd64 (O.TRK_CNT n k) + 1) % 2 ^ 64 else s.rd64 (O.TRK_CNT n k) := by
  have hemit (u : State) (o : Out) (j : Nat) : (u.emit o).rd64 j = u.rd64 j :=
    State.rd64_congr (State.rd_congr rfl rfl _) (State.rd_congr rfl rfl _)
  rw [State.sendCell_eq, hemit]
  split
  · next h =>
    rw [h, State.rd64_trkCnt_self, State.rd64_setTrunk]
  · next h => rw [State.rd64_trkCnt_ne _ _ _ h, State.rd64_setTrunk]

/-- The idle cell at a position that no urgent cell takes (R136). -/
theorem State.sendIdle_idle {urgent : Bool} (h : urgent = false ∨ (s.trunk n).urgent = []) :
    s.sendIdle n urgent = (s.trkCnt n 23).sendCell n 0x00074000 [] := by
  unfold State.sendIdle
  obtain rfl | he := h
  · split <;> rfl
  · rw [he]

theorem State.sendIdle_urgent {u : Urgent} {rest : List Urgent} (h : (s.trunk n).urgent = u :: rest) :
    s.sendIdle n true =
      ((s.setTrunk n { s.trunk n with urgent := rest }).trkCnt n 25).sendCell n (0xFFB74000 + 0x200 * u.copy) (s.urgentPayload u) := by
  unfold State.sendIdle
  rw [h]
  rfl

/-- The counters and the trunk's state are no part of an urgent cell's payload (R168). -/
theorem State.urgentPayload_setTrunk (v : Trunk) (u : Urgent) : (s.setTrunk n v).urgentPayload u = s.urgentPayload u := by
  simp only [State.urgentPayload, State.nodeId, State.fget_setTrunk]

end

/-- The trunk's place in the superframe moves on. -/
def State.nextPos (s : State) (n k : Nat) : State := s.setTrunk n { s.trunk n with txPos := some (k + 1) }

/-- A position in slack is an idle position (R148). -/
theorem State.sendSlot_slack (s : State) (n : Nat) (h : s.slotsOf n < k) : s.sendSlot n k = (s.nextPos n k).sendIdle n true := by
  refine if_neg fun hk => ?_
  obtain ⟨hle, -⟩ := hk
  exact absurd hle (Nat.not_le.mpr h)

/-- The slot of a channel with a frame under way carries that frame's next cell (R148, R149). -/
theorem State.sendSlot_channel (s : State) {f : TxFrame} (hk : k ≤ s.slotsOf n)
    (hch : c = s.slot n (s.gearOfHalf (s.cfg.halfOfTrunk n)) (k - 1)) (hne : c ≠ 0) (hj : s.csJoined = true)
    (h3 : 3 ≤ s.hmode (s.cfg.halfOfTrunk n)) (h5 : s.hmode (s.cfg.halfOfTrunk n) ≤ 5) (hb : s.flag (F.TRK_PROT_STAT.BLOCKED n) = false)
    (htx : KMap.find? (s.trunk n).txFrames c = some f) : s.sendSlot n k = (s.nextPos n k).sendFrameCell n c f := by
  subst hch
  have hframe : (s.nextPos n k).chanFrame n (s.slot n (s.gearOfHalf (s.cfg.halfOfTrunk n)) (k - 1)) = (some f, s.nextPos n k) := by
    unfold State.chanFrame
    rw [State.nextPos, State.trunk_setTrunk_self, htx]
  refine (if_pos ⟨hk, hne, hj, h3, h5, hb⟩).trans ?_
  change (match (s.nextPos n k).chanFrame n (s.slot n (s.gearOfHalf (s.cfg.halfOfTrunk n)) (k - 1)) with
    | (some f, u) => u.sendFrameCell n (s.slot n (s.gearOfHalf (s.cfg.halfOfTrunk n)) (k - 1)) f
    | (none, u) => u.sendIdle n true) = _
  rw [hframe]

/-- A cell of a frame that is not its last (R135, R152). -/
theorem State.sendFrameCell_more (s : State) (n c : Nat) {f : TxFrame} (hlen : f.sent + 58 < f.bytes.length) :
    s.sendFrameCell n c f =
      let u := s.sendCell n (c * 2 ^ 22 + (if f.sent = 0 then 2 else 3) * 2 ^ 19 + 58 * 2 ^ 13 + KMap.get 0 (s.trunk n).txSeq c * 2 ^ 9 +
        f.copy.cls % 8 * 2 ^ 6) (slice f.bytes f.sent 58)
      u.setTrunk n { u.trunk n with
        txSeq := KMap.put 0 (u.trunk n).txSeq c ((KMap.get 0 (s.trunk n).txSeq c + 1) % 16)
        txFrames := KMap.insert (u.trunk n).txFrames c { f with sent := f.sent + 58, n := f.n + 1 } } := by
  have hlast : ¬ f.bytes.length - f.sent ≤ 58 := by omega
  have hmin : min 58 (f.bytes.length - f.sent) = 58 := by omega
  unfold State.sendFrameCell
  simp only [hlast, hmin, decide_false, Bool.false_eq_true, if_false]

variable (hc : s.cellTrunk n = true) (hl : (s.trunk n).txLost = false) (hd : s.domOn (16 + n) = true)
  (h0 : s.hmode (s.cfg.halfOfTrunk n) ≠ 0) (h7 : s.hmode (s.cfg.halfOfTrunk n) ≠ 7)
include hc hl hd h0 h7

/-- A trunk that sends no superframes (R149). -/
theorem exec_cellSlot_idle (hs : s.sendsFrames n = false) : exec (.cellSlot n ph) s = .next (s.sendIdle n false) :=
  (if_pos ⟨hc, hl, h0, h7, hd⟩).trans (if_neg (by rw [hs]; simp))

theorem exec_cellSlot_overhead {sfn : Nat} (hs : s.sendsFrames n = true) (hf : (s.trunk n).sfDue = some sfn) :
    exec (.cellSlot n ph) s = .next (s.sendOverhead n sfn ph) := by
  refine (if_pos ⟨hc, hl, h0, h7, hd⟩).trans ((if_pos hs).trans ?_)
  rw [hf]

theorem exec_cellSlot_slot (hs : s.sendsFrames n = true) (hf : (s.trunk n).sfDue = none) (hp : (s.trunk n).txPos = some k) :
    exec (.cellSlot n ph) s = .next (s.sendSlot n k) := by
  refine (if_pos ⟨hc, hl, h0, h7, hd⟩).trans ((if_pos hs).trans ?_)
  rw [hf, hp]

theorem cellsSent_idle (hs : s.sendsFrames n = false) :
    ∃ t, exec (.cellSlot n ph) s = .next t ∧ t.out = s.out ++ [.cell n (headerBytes 0x00074000 ++ laneBytes (s.trunk n).txHist [])] ∧
      t.rd64 (O.TRK_CNT n 22) = (s.rd64 (O.TRK_CNT n 22) + 1) % 2 ^ 64 ∧
      t.rd64 (O.TRK_CNT n 23) = (s.rd64 (O.TRK_CNT n 23) + 1) % 2 ^ 64 := by
  refine ⟨_, exec_cellSlot_idle hc hl hd h0 h7 hs, ?_⟩
  rw [s.sendIdle_idle n (.inl rfl), State.sendCell_out, State.rd64_sendCell, State.rd64_sendCell, if_pos rfl, if_neg (by decide),
    State.rd64_trkCnt_self, State.rd64_trkCnt_ne _ _ _ (by decide), State.trkCnt_out, State.trunk_trkCnt]
  exact ⟨rfl, rfl, rfl⟩

theorem cellsSent_overhead {sfn : Nat} (hs : s.sendsFrames n = true) (hf : (s.trunk n).sfDue = some sfn) :
    ∃ t, exec (.cellSlot n ph) s = .next t ∧
      t.out = s.out ++ [.cell n (headerBytes (0xFFCF4000 + 0x200 * (sfn % 16)) ++
        laneBytes (s.trunk n).txHist (s.overheadPayload n sfn (s.txStamp (8 + n) ph)))] ∧
      (t.trunk n).txPos = some 1 ∧ (t.trunk n).sfDue = none := by
  refine ⟨_, exec_cellSlot_overhead hc hl hd h0 h7 hs hf, ?_⟩
  unfold State.sendOverhead
  extract_lets tx v body u
  have hu : u.trunk n = { v with sfDue := none, txPos := some 1, kept := ((sfn, tx) :: v.kept).take 4 } := State.trunk_setTrunk_self _ _ _
  rw [State.sendCell_out, State.trunk_sendCell, State.trkCnt_out, State.trunk_trkCnt, hu]
  exact ⟨rfl, rfl, rfl⟩

theorem cellsSent_slack (hs : s.sendsFrames n = true) (hf : (s.trunk n).sfDue = none) (hp : (s.trunk n).txPos = some k)
    (hk : s.slotsOf n < k) :
    ∃ t, exec (.cellSlot n ph) s = .next t ∧ (t.trunk n).txPos = some (k + 1) ∧
      t.out = s.out ++ [match (s.trunk n).urgent with
        | u :: _ => .cell n (headerBytes (0xFFB74000 + 0x200 * u.copy) ++ laneBytes (s.trunk n).txHist (s.urgentPayload u))
        | [] => .cell n (headerBytes 0x00074000 ++ laneBytes (s.trunk n).txHist [])] ∧
      (t.trunk n).urgent = (s.trunk n).urgent.tail := by
  refine ⟨_, exec_cellSlot_slot hc hl hd h0 h7 hs hf hp, ?_⟩
  rw [s.sendSlot_slack n hk]
  have ht : (s.nextPos n k).trunk n = { s.trunk n with txPos := some (k + 1) } := State.trunk_setTrunk_self _ _ _
  cases hu : (s.trunk n).urgent with
  | nil =>
    rw [State.sendIdle_idle _ n (.inr (by rw [ht, hu])), State.sendCell_out, State.trunk_sendCell, State.trkCnt_out, State.trunk_trkCnt, ht]
    exact ⟨rfl, rfl, hu⟩
  | cons u rest =>
    rw [State.sendIdle_urgent _ n (by rw [ht]; exact hu), State.sendCell_out, State.trunk_sendCell, State.trkCnt_out, State.trunk_trkCnt,
      State.trunk_setTrunk_self, ht, State.nextPos, State.urgentPayload_setTrunk]
    exact ⟨rfl, rfl, rfl⟩

theorem cellsSent_channel {f : TxFrame} (hs : s.sendsFrames n = true) (hf : (s.trunk n).sfDue = none) (hp : (s.trunk n).txPos = some k)
    (hk : k ≤ s.slotsOf n) (hch : c = s.slot n (s.gearOfHalf (s.cfg.halfOfTrunk n)) (k - 1)) (hne : c ≠ 0) (hj : s.csJoined = true)
    (h3 : 3 ≤ s.hmode (s.cfg.halfOfTrunk n)) (h5 : s.hmode (s.cfg.halfOfTrunk n) ≤ 5) (hb : s.flag (F.TRK_PROT_STAT.BLOCKED n) = false)
    (htx : KMap.find? (s.trunk n).txFrames c = some f) (hlen : f.sent + 58 < f.bytes.length) :
    ∃ t, exec (.cellSlot n ph) s = .next t ∧
      t.out = s.out ++ [.cell n (headerBytes (c * 2 ^ 22 + (if f.sent = 0 then 2 else 3) * 2 ^ 19 + 58 * 2 ^ 13 +
        KMap.get 0 (s.trunk n).txSeq c * 2 ^ 9 + f.copy.cls % 8 * 2 ^ 6) ++ laneBytes (s.trunk n).txHist (slice f.bytes f.sent 58))] ∧
      KMap.get 0 (t.trunk n).txSeq c = (KMap.get 0 (s.trunk n).txSeq c + 1) % 16 ∧
      (KMap.find? (t.trunk n).txFrames c).map (·.sent) = some (f.sent + 58) := by
  refine ⟨_, exec_cellSlot_slot hc hl hd h0 h7 hs hf hp, ?_⟩
  have ht : (s.nextPos n k).trunk n = { s.trunk n with txPos := some (k + 1) } := State.trunk_setTrunk_self _ _ _
  rw [s.sendSlot_channel hk hch hne hj h3 h5 hb htx, State.sendFrameCell_more _ _ _ hlen, State.setTrunk_out, State.sendCell_out,
    State.trunk_setTrunk_self, State.trunk_sendCell, ht]
  exact ⟨rfl, KMap.get_put_self _ _ _ _, congrArg _ (KMap.find?_insert_self _ _ _)⟩

end

/-- Settles O25: the trunk that sends no superframes, the overhead cell, a slack position and a channel's slot. -/
theorem cellsSent : Obligations.CellsSent := by
  intro s n ph hc hl hd h0 h7
  refine ⟨cellsSent_idle hc hl hd h0 h7, fun _ => cellsSent_overhead hc hl hd h0 h7, fun _ => cellsSent_slack hc hl hd h0 h7, ?_⟩
  exact fun k c f hs hf hp _ hk hch hne hj h3 h5 hb htx hlen => cellsSent_channel hc hl hd h0 h7 hs hf hp hk hch hne hj h3 h5 hb htx hlen

end Sys2Proof.Machine

namespace Sys2Proof.Machine

/-! ## What the network's upkeep leaves of the trunks

A change at a trunk brings the pairs sent, the ring protection, the time source, Signal Fail and the passage between OPERATE and
DEGRADED up to date (06_trunk_overhead_gears_protection.md R165, R178 to R188; 01_block_and_halves.md R26). That upkeep queues urgent
cells and blocks ports. `CellsKept s t` says what it leaves alone. -/

/-- A word of the files of 05_trunk_cells.md: TRK_CFG up to the channel map. -/
def CellWord (k : Nat) : Prop := 0x020000 ≤ k ∧ k < 0x028000 ∧ k % 0x4000 < 0x2000

/-- A trunk but for its urgent cells and the reason of its block. -/
def Trunk.lane (v : Trunk) : Trunk := { v with urgent := [], blockSig := false }

/-- From `s` to `t` no register of the cells and nothing on a lane differs, and no trunk out of use has a new urgent cell. -/
structure CellsKept (s t : State) : Prop where
  cfg : t.cfg = s.cfg
  word : ∀ k, CellWord k → t.rd k = s.rd k
  lane : ∀ n, (t.trunk n).lane = (s.trunk n).lane
  urgent : ∀ n, s.cellTrunk n = false → (t.trunk n).urgent = (s.trunk n).urgent

section
variable {s t u : State} {ar : List Area} {n v : Nat}

theorem CellsKept.refl (s : State) : CellsKept s s := ⟨rfl, fun _ _ => rfl, fun _ => rfl, fun _ _ => rfl⟩

theorem CellsKept.fget (h : CellsKept s t) {g : Fld} (hg : CellWord g.off) : t.fget g = s.fget g := by
  unfold State.fget
  rw [h.word _ hg]

theorem CellsKept.flag (h : CellsKept s t) {g : Fld} (hg : CellWord g.off) : t.flag g = s.flag g := by
  unfold State.flag
  rw [h.fget hg]

theorem cellWord_cfg (hn : n < 2) : CellWord (O.TRK_CFG n) := by simp only [CellWord, O.TRK_CFG]; omega
theorem cellWord_stat (hn : n < 2) : CellWord (O.TRK_STAT n) := by simp only [CellWord, O.TRK_STAT]; omega

/-- Which trunks are in use in cell mode stands in the kept words. -/
theorem CellsKept.cellTrunk (h : CellsKept s t) (n : Nat) : t.cellTrunk n = s.cellTrunk n := by
  unfold State.cellTrunk
  rw [h.cfg]
  by_cases hn : n < s.cfg.trunks
  · have hw := cellWord_cfg (hn.trans_le (Cfg.trunks_le_two _))
    rw [h.flag (g := F.TRK_CFG.EN n) hw, h.fget (g := F.TRK_CFG.MODE n) hw]
  · rw [decide_eq_false hn, Bool.false_and, Bool.false_and, Bool.false_and, Bool.false_and]

theorem CellsKept.trans (h : CellsKept s t) (k : CellsKept t u) : CellsKept s u where
  cfg := k.cfg.trans h.cfg
  word j hj := (k.word j hj).trans (h.word j hj)
  lane n := (k.lane n).trans (h.lane n)
  urgent n hn := (k.urgent n ((h.cellTrunk n).trans hn)).trans (h.urgent n hn)

theorem CellsKept.mem_cellTrunks (h : CellsKept s t) (hn : n ∈ t.cellTrunks) : s.cellTrunk n = true := by
  rw [← h.cellTrunk n]
  exact (List.mem_filter.mp hn).2

/-- What a lane shows of itself. -/
theorem CellsKept.view {α : Type} (h : CellsKept s t) (f : Trunk → α) (hf : ∀ w : Trunk, f w.lane = f w) (n : Nat) :
    f (t.trunk n) = f (s.trunk n) := by
  rw [← hf, h.lane, hf]

theorem CellsKept.rd64_cnt (h : CellsKept s t) {k : Nat} (hn : n < 2) (hk : k < 30) :
    t.rd64 (O.TRK_CNT n k) = s.rd64 (O.TRK_CNT n k) := by
  refine State.rd64_congr (h.word _ ?_) (h.word _ ?_) <;> simp only [CellWord, O.TRK_CNT] <;> omega

theorem CellsKept.ite {c : Prop} [Decidable c] (ht : CellsKept s t) (hu : CellsKept s u) : CellsKept s (if c then t else u) := by
  split
  · exact ht
  · exact hu

theorem CellsKept.forEach {α : Type} {f : α → State → State} {l : List α} (h : CellsKept s t)
    (hf : ∀ a ∈ l, ∀ u, CellsKept s u → CellsKept s (f a u)) : CellsKept s (forEach l f t) := by
  unfold Machine.forEach
  induction l generalizing t with
  | nil => exact h
  | cons a l ih => exact ih (hf a List.mem_cons_self t h) fun b hb => hf b (List.mem_cons_of_mem a hb)

/-- An operation on other pieces of the state. -/
theorem CellsKept.keeps (h : CellsKept s t) (k : Keeps ar t u) (hc : Area.cfg ∉ ar) (hr : Area.regs ∉ ar) (ht : Area.trunks ∉ ar) :
    CellsKept s u := by
  have htr (n : Nat) : u.trunk n = t.trunk n := by
    unfold State.trunk
    rw [k.1 .trunks ht]
  refine h.trans ⟨k.1 .cfg hc, fun j _ => State.rd_congr (k.1 .cfg hc) (k.1 .regs hr) j, fun n => ?_, fun n _ => ?_⟩ <;> rw [htr]

theorem CellsKept.fset (h : CellsKept s t) {f : Fld} (hf : ¬ CellWord f.off) (v : Nat) : CellsKept s (t.fset f v) := by
  refine h.trans ⟨State.fset_cfg _ _ _, fun k hk => State.rd_fset_ne _ _ _ ?_, fun n => ?_, fun n _ => ?_⟩
  · rintro rfl
    exact hf hk
  all_goals rw [State.trunk_fset]

theorem CellsKept.fsets (h : CellsKept s t) {l : List (Fld × Nat)} (hl : ∀ p ∈ l, ¬ CellWord p.1.off) : CellsKept s (t.fsets l) := by
  induction l generalizing t with
  | nil => exact h
  | cons p l ih =>
    rw [State.fsets_cons]
    exact ih (h.fset (hl p List.mem_cons_self) _) fun q hq => hl q (List.mem_cons_of_mem p hq)

/-- A trunk whose lane is the same, and its urgent cells too unless it is in use. -/
theorem CellsKept.setTrunk (h : CellsKept s t) {w : Trunk} (hl : w.lane = (t.trunk n).lane)
    (hu : s.cellTrunk n = true ∨ w.urgent = (t.trunk n).urgent) : CellsKept s (t.setTrunk n w) := by
  refine h.trans ⟨rfl, fun k _ => State.rd_setTrunk _ _ _ _, fun m => ?_, fun m hm => ?_⟩
  · by_cases e : m = n
    · subst e
      rw [State.trunk_setTrunk_self, hl]
    · rw [State.trunk_setTrunk_ne _ _ e]
  · by_cases e : m = n
    · subst e
      rw [State.trunk_setTrunk_self, hu.resolve_left (by rw [← h.cellTrunk m, hm]; exact Bool.false_ne_true)]
    · rw [State.trunk_setTrunk_ne _ _ e]

/-! ### Words beside those of the cells -/

theorem not_cellWord_low {k : Nat} (h : k < 0x020000) : ¬ CellWord k := fun hc => by
  obtain ⟨hlo, -⟩ := hc
  omega

theorem not_cellWord_high {k : Nat} (h : 0x028000 ≤ k) : ¬ CellWord k := fun hc => by
  obtain ⟨-, hhi, -⟩ := hc
  omega

/-- A word of the overhead, of gears or of protection (06_trunk_overhead_gears_protection.md). -/
theorem not_cellWord_network {k : Nat} (h : 0x2000 ≤ k % 0x4000) : ¬ CellWord k := fun hc => by
  obtain ⟨-, -, hmod⟩ := hc
  omega

theorem not_cellWord_protStat (n : Nat) : ¬ CellWord (O.TRK_PROT_STAT n) :=
  not_cellWord_network (by simp only [O.TRK_PROT_STAT]; omega)

theorem CellsKept.fset_protStat (h : CellsKept s t) (n lo wd v : Nat) : CellsKept s (t.fset ⟨O.TRK_PROT_STAT n, lo, wd⟩ v) :=
  h.fset (not_cellWord_protStat n) v

theorem CellsKept.fset_ringStat (h : CellsKept s t) (lo wd v : Nat) : CellsKept s (t.fset ⟨O.TRK_RING_STAT, lo, wd⟩ v) :=
  h.fset (f := ⟨_, lo, wd⟩) (not_cellWord_network (k := O.TRK_RING_STAT) (by decide)) v

theorem CellsKept.fset_csStat (h : CellsKept s t) (lo wd v : Nat) : CellsKept s (t.fset ⟨O.TRK_CS_STAT, lo, wd⟩ v) :=
  h.fset (f := ⟨_, lo, wd⟩) (not_cellWord_network (k := O.TRK_CS_STAT) (by decide)) v

theorem CellsKept.fset_flush (h : CellsKept s t) (lo wd v : Nat) : CellsKept s (t.fset ⟨O.CLS_FLUSH, lo, wd⟩ v) :=
  h.fset (f := ⟨_, lo, wd⟩) (not_cellWord_high (k := O.CLS_FLUSH) (by decide)) v

theorem CellsKept.setNode (h : CellsKept s t) (w : Node) : CellsKept s (t.setNode w) :=
  h.trans ⟨rfl, fun _ _ => State.rd_setNode _ _ _, fun _ => rfl, fun _ _ => rfl⟩

theorem CellsKept.raise (h : CellsKept s t) (k : Nat) : CellsKept s (t.raise k) := by
  unfold State.raise
  exact .ite (h.fset (not_cellWord_high (by simp only [pendFld, O.IRQ_PEND]; omega)) 1) h

/-! ### The ring protection and Signal Fail -/

theorem CellsKept.queueUrgent (h : CellsKept s t) (hn : s.cellTrunk n = true) (w : Urgent) : CellsKept s (t.queueUrgent n w) := by
  have hset (l : List Urgent) : CellsKept s (t.setTrunk n { t.trunk n with urgent := l }) := h.setTrunk rfl (.inl hn)
  unfold State.queueUrgent
  exact .ite (.ite (hset _) (.ite (hset _) h)) (.ite (hset _) h)

theorem CellsKept.updatePair (h : CellsKept s t) (hn : s.cellTrunk n = true) : CellsKept s (t.updatePair n) := by
  have hsent (p : Nat × Nat) : CellsKept s (t.fsets [(F.TRK_PROT_STAT.TX_CODE n, p.1), (F.TRK_PROT_STAT.TX_ORIG n, p.2)]) :=
    (h.fset_protStat n _ _ _).fset_protStat n _ _ _
  unfold State.updatePair
  exact .ite h (.ite (hsent _) ((hsent _).queueUrgent hn _))

theorem CellsKept.updatePairs (h : CellsKept s t) : CellsKept s t.updatePairs := by
  unfold State.updatePairs
  exact h.forEach fun m hm _ hu => (hu.fset_protStat m _ _ _).updatePair (h.mem_cellTrunks hm)

theorem CellsKept.flushGen (h : CellsKept s t) (k : Nat) : CellsKept s (t.flushGen k) := by
  have hsweep : CellsKept s (t.fset F.CLS_FLUSH.SWEEP 1) := h.fset_flush _ _ _
  have hcls (w : Cls) : CellsKept s ((t.fset F.CLS_FLUSH.SWEEP 1).setCls w) :=
    hsweep.trans ⟨rfl, fun _ _ => State.rd_setCls _ _ _, fun _ => rfl, fun _ _ => rfl⟩
  unfold State.flushGen
  split
  · exact .ite hsweep ((hcls _).fset_flush _ _ _)
  · exact .ite hsweep ((hcls _).fset_flush _ _ _)

theorem CellsKept.flushRing (h : CellsKept s t) : CellsKept s t.flushRing := by
  unfold State.flushRing
  exact (CellsKept.ite h (h.fset_ringStat _ _ _)).flushGen 0

theorem CellsKept.block (h : CellsKept s t) (n v : Nat) : CellsKept s (t.block n v) := by
  unfold State.block
  extract_lets sig
  exact (h.setTrunk (w := { t.trunk n with blockSig := sig }) rfl (.inr rfl)).fset_protStat n _ _ _

theorem CellsKept.blockLocals (h : CellsKept s t) : CellsKept s t.blockLocals := by
  unfold State.blockLocals
  exact h.forEach fun m _ _ hu => hu.block m 1

theorem CellsKept.ownerUnblock (h : CellsKept s t) : CellsKept s t.ownerUnblock := by
  unfold State.ownerUnblock
  exact .ite (h.block _ 0) h

theorem CellsKept.setWtr (h : CellsKept s t) (w : Bool) (left : Nat) : CellsKept s (t.setWtr w left) := by
  unfold State.setWtr
  exact (h.setNode _).fset_ringStat _ _ _

theorem CellsKept.ringLockout (h : CellsKept s t) : CellsKept s t.ringLockout := by
  unfold State.ringLockout
  extract_lets a _ b c
  have hb : CellsKept s b := (h.setNode _).forEach fun m _ _ hu => .ite hu (hu.block m 0)
  have hc : CellsKept s c := .ite (hb.block _ 1) hb
  exact ((hc.fset_ringStat _ _ _).fset_ringStat _ _ _).fset_ringStat _ _ _

theorem CellsKept.ringProtect (h : CellsKept s t) (idle : Bool) : CellsKept s (t.ringProtect idle) := by
  unfold State.ringProtect
  exact (CellsKept.ite h.blockLocals.ownerUnblock (h.blockLocals.setWtr _ _)).flushRing.fset_ringStat _ _ _

theorem CellsKept.ringPending (h : CellsKept s t) : CellsKept s t.ringPending := by
  unfold State.ringPending
  exact (h.setWtr _ _).fset_ringStat _ _ _

theorem CellsKept.ringIdle (h : CellsKept s t) : CellsKept s t.ringIdle := by
  unfold State.ringIdle
  exact (h.forEach fun m _ _ hu => .ite hu (hu.block m 0)).flushRing.fset_ringStat _ _ _

theorem CellsKept.ringTable (h : CellsKept s t) (r old : Nat × Nat) : CellsKept s (t.ringTable r old) := by
  have hl : CellsKept s (t.fset F.TRK_RING_STAT.LOCKED 0) := h.fset_ringStat _ _ _
  unfold State.ringTable
  refine .ite (.ite h h.ringLockout) (.ite (.ite (hl.ringProtect _) hl) (.ite ?_ ?_))
  · exact .ite (.ite hl hl.blockLocals.flushRing) (.ite (.ite hl.ringPending hl) (.ite (hl.fset_ringStat _ _ _) hl))
  · exact .ite (hl.ringProtect _) (.ite hl.ringIdle hl)

theorem CellsKept.ringRun (h : CellsKept s t) : CellsKept s t.ringRun := by
  unfold State.ringRun
  extract_lets r a _ b c
  have hb : CellsKept s b := (h.ringTable _ _).setNode _
  have hc : CellsKept s c := .ite (hb.block _ 1) hb
  exact .ite h (hc.fset (f := F.BLK_MODE.PROT) (not_cellWord_low (by decide)) _)

theorem CellsKept.protUpdate (h : CellsKept s t) : CellsKept s t.protUpdate := by
  unfold State.protUpdate
  exact h.updatePairs.ringRun.updatePairs

theorem CellsKept.sfUpdate (h : CellsKept s t) : CellsKept s t.sfUpdate := by
  unfold State.sfUpdate
  exact (h.forEach fun m _ _ hu => hu.fset_protStat m _ _ _).protUpdate

theorem CellsKept.setEff (h : CellsKept s t) (n : Nat) (p : Nat × Nat) : CellsKept s (t.setEff n p) := by
  have hset : CellsKept s (t.fsets [(F.TRK_PROT_STAT.EFF_CODE n, p.1), (F.TRK_PROT_STAT.EFF_ORIG n, p.2)]) :=
    (h.fset_protStat n _ _ _).fset_protStat n _ _ _
  unfold State.setEff
  exact .ite h (.ite hset.flushRing hset)

/-! ### The node's time source and its gear -/

theorem CellsKept.sourceUpdate (h : CellsKept s t) : CellsKept s t.sourceUpdate := by
  unfold State.sourceUpdate
  refine .ite ?_ h
  split
  · exact (((h.fset_csStat _ _ _).fset_csStat _ _ _).fset_csStat _ _ _).fset_csStat _ _ _
  · exact h.fset_csStat _ _ _

theorem CellsKept.gearOkCheck (h : CellsKept s t) : CellsKept s t.gearOkCheck := by
  have hnode := h.setNode { t.node with okSent := true }
  unfold State.gearOkCheck
  exact .ite (hnode.forEach fun m hm _ hu => hu.queueUrgent (hnode.mem_cellTrunks hm) _) h

/-! ### The passage between OPERATE and DEGRADED -/

theorem CellsKept.syncTrig (h : CellsKept s t) (k : Nat) : CellsKept s (t.syncTrig k) := by
  have hdrive (w : Trig) : CellsKept s (t.driveTrig k w) :=
    h.keeps (State.driveTrig_keeps (.refl (ar := [.out, .trigs]) t) k w (Allows.refl _)) (by decide) (by decide) (by decide)
  have hcut : ¬ CellWord (O.CTU_TRIG_STAT k) := not_cellWord_high (by simp only [O.CTU_TRIG_STAT]; omega)
  unfold State.syncTrig
  refine .ite (hdrive _) (.ite (.ite h (hdrive _)) (.ite ?_ (hdrive _)))
  unfold State.setFlag
  exact ((hdrive _).fset (f := F.CTU_TRIG_STAT.CUT k) hcut 1).raise _

theorem CellsKept.setHalfMode (h : CellsKept s t) (k m : Nat) : CellsKept s (t.setHalfMode k m) := by
  have hcopy : CellsKept s (t.fset (modeCopy k) m) := h.fset (not_cellWord_low (by unfold modeCopy; split <;> decide)) m
  have htrig := hcopy.forEach (l := (List.range 32).filter fun n => (t.fset (modeCopy k) m).cfg.halfOfTrig n == k)
    fun j _ _ hu => hu.syncTrig j
  unfold State.setHalfMode
  exact .ite htrig.sfUpdate htrig

theorem CellsKept.followMode (h : CellsKept s t) (m : Nat) : CellsKept s (t.followMode m) := by
  unfold State.followMode
  exact h.forEach fun k _ _ hu => hu.setHalfMode k m

/-- A mode in which frames are carried stops no lane and no graph load. -/
theorem CellsKept.setMode (h : CellsKept s t) {m : Nat} (hm : m = 4 ∨ m = 5) : CellsKept s (t.setMode m) := by
  by_cases he : t.mode = m
  · rw [State.setMode_same he]
    exact h.followMode m
  · rw [State.setMode_change he]
    have hchg : CellsKept s (t.modeChanged m) := by
      unfold State.modeChanged
      extract_lets a b c d
      have ha : CellsKept s a := by rwa [show a = t from if_neg (by omega)]
      have hb : CellsKept s b := .ite (ha.fset (f := F.Q_STAT.FROZEN) (not_cellWord_high (by decide)) 0) ha
      have hkey := State.drawKey0_keeps (.refl (ar := [.free, .funcs]) b) (Allows.refl _)
      have hc : CellsKept s c := .ite (hb.keeps hkey (by decide) (by decide) (by decide)) hb
      have hd : CellsKept s d := by rwa [show d = c from if_neg (by omega)]
      exact (hd.fset (f := F.BLK_MODE.MODE) (not_cellWord_low (by decide)) m).raise 0
    exact (hchg.followMode m).keeps (State.wdogMode_keeps (.refl (ar := [.flt]) _) m (Allows.refl _)) (by decide) (by decide) (by decide)

theorem CellsKept.fixDegraded (h : CellsKept s t) : CellsKept s t.fixDegraded := by
  unfold State.fixDegraded
  exact .ite (h.setMode (.inr rfl)) (.ite (h.setMode (.inl rfl)) h)

end

end Sys2Proof.Machine

namespace Sys2Proof.Machine

/-! ## Entering and leaving SYNC (05_trunk_cells.md R141, R142, R150, R151) -/

theorem cellTrunk_lt_two {s : State} {n : Nat} (h : s.cellTrunk n = true) : n < 2 := by
  simp only [State.cellTrunk, Bool.and_eq_true, decide_eq_true_eq] at h
  obtain ⟨⟨hn, -⟩, -⟩ := h
  exact hn.trans_le (Cfg.trunks_le_two _)

/-- The state of the delineation, with no bad header and no numbering. -/
def State.delinSet (s : State) (n d : Nat) : State :=
  s.fsets [(F.TRK_STAT.DELIN n, d), (F.TRK_STAT.BAD_RUN n, 0), (F.TRK_SF_STAT.NUMBERED n, 0)]

/-- What leaving SYNC changes before the network's upkeep (R141, R151). -/
def State.syncLeft (s : State) (n : Nat) : State :=
  let v := s.trunk n
  let s := s.cntAdd (O.TRK_CNT n 13) (v.chans.filter (fun c => c.2.asm)).length
  let s := s.setTrunk n { v with cands := [], chans := v.chans.map (fun c => (c.1, chanAbort c.2)), pos := none, broken := false }
  let held := if s.fget (F.TRK_STAT.DELIN n) = 2 then decide (s.fget (F.TRK_PROT_CFG.HOLDOFF n) = 0) else v.sfHeld
  (s.setTrunk n { s.trunk n with sfHeld := held, filt := (0, 0), filtCnt := 0 }).delinSet n 0

/-- What entering SYNC changes before the network's upkeep (R142, R150, R151). -/
def State.syncEntered (s : State) (n ofs hist : Nat) : State :=
  let v := s.trunk n
  let s := s.setTrunk n { v with cands := [], align := ofs, rxHist := hist
                                 chans := v.chans.map (fun c => (c.1, { c.2 with ref := none })), pos := none, broken := false
                                 last := none, prev := none, age := 0, sfHeld := false, filt := (0, 0), filtCnt := 0 }
  ((s.delinSet n 2).setFlag (F.TRK_STAT.LOCK n) (srcTrunk s.cfg n + 3)).trkCnt n 21

section
variable (s : State) {n k : Nat} {g : Fld}

/-- A status field of the trunk beside the two that follow the delineation. -/
structure Fld.StatBeside (g : Fld) (n : Nat) : Prop where
  off : g.off = O.TRK_STAT n
  delin : (F.TRK_STAT.DELIN n).Beside g
  run : (F.TRK_STAT.BAD_RUN n).Beside g

theorem sfStat_ne_stat (n : Nat) : O.TRK_STAT n ≠ O.TRK_SF_STAT n := by simp only [O.TRK_STAT, O.TRK_SF_STAT]; omega

theorem stat_low (hn : n < 2) : O.TRK_STAT n < O.IRQ_PEND 0 := by simp only [O.TRK_STAT, O.IRQ_PEND]; omega

/-- The status word is no counter. -/
theorem stat_beside_counters (n : Nat) : O.TRK_STAT n % 0x4000 < 0x100 ∨ 0x200 ≤ O.TRK_STAT n % 0x4000 :=
  .inl (by simp only [O.TRK_STAT]; omega)

theorem State.delin_delinSet (d : Nat) : (s.delinSet n d).fget (F.TRK_STAT.DELIN n) = d % 4 := by
  unfold State.delinSet
  rw [State.fsets_cons, State.fsets_cons, State.fsets_cons, State.fsets_nil,
    State.fget_fset_ne _ (F.TRK_SF_STAT.NUMBERED n) _ _ (.inl (sfStat_ne_stat n)),
    State.fget_fset_ne _ (F.TRK_STAT.BAD_RUN n) _ _ (.inr (.inr (by decide : 4 + 2 ≤ 12)))]
  exact State.fget_fset_self _ _ d (by decide : 4 + 2 ≤ 32)

theorem State.fget_delinSet (hg : g.StatBeside n) (d : Nat) : (s.delinSet n d).fget g = s.fget g := by
  unfold State.delinSet
  rw [State.fsets_cons, State.fsets_cons, State.fsets_cons, State.fsets_nil,
    State.fget_fset_ne _ (F.TRK_SF_STAT.NUMBERED n) _ _ (.inl (hg.off ▸ sfStat_ne_stat n)),
    State.fget_fset_ne _ _ _ _ hg.run, State.fget_fset_ne _ _ _ _ hg.delin]

@[simp] theorem State.trunk_delinSet (d m : Nat) : (s.delinSet n d).trunk m = s.trunk m := by
  simp only [State.delinSet, State.fsets_cons, State.fsets_nil, State.trunk_fset]

theorem State.rd64_delinSet (d : Nat) : (s.delinSet n d).rd64 (O.TRK_CNT n k) = s.rd64 (O.TRK_CNT n k) := by
  unfold State.delinSet
  rw [State.fsets_cons, State.fsets_cons, State.fsets_cons, State.fsets_nil]
  rw [State.rd64_fset_ne, State.rd64_fset_ne, State.rd64_fset_ne]
  all_goals
    simp only [O.TRK_CNT, O.TRK_SF_STAT, O.TRK_STAT, F.TRK_SF_STAT.NUMBERED, F.TRK_STAT.BAD_RUN, F.TRK_STAT.DELIN]
    omega

/-! ### Leaving -/

theorem State.leaveSync_cellsKept (n : Nat) : CellsKept (s.syncLeft n) (s.leaveSync n) :=
  ((CellsKept.refl (s.syncLeft n)).setEff n (0, 0)).sourceUpdate.sfUpdate.fixDegraded

theorem State.delin_leaveSync (hn : n < 2) : (s.leaveSync n).fget (F.TRK_STAT.DELIN n) = 0 := by
  rw [(s.leaveSync_cellsKept n).fget (cellWord_stat hn)]
  exact State.delin_delinSet _ 0

theorem State.fget_leaveSync (hn : n < 2) (hg : g.StatBeside n) : (s.leaveSync n).fget g = s.fget g := by
  rw [(s.leaveSync_cellsKept n).fget (hg.off ▸ cellWord_stat hn)]
  unfold State.syncLeft
  extract_lets v a b held
  rw [State.fget_delinSet _ hg, State.fget_setTrunk, State.fget_setTrunk]
  exact State.fget_trkCntAdd _ _ _ _ g (by decide) (hg.off ▸ stat_beside_counters n)

theorem State.rd64_leaveSync (hn : n < 2) (hk : k < 30) (h : k ≠ 13) : (s.leaveSync n).rd64 (O.TRK_CNT n k) = s.rd64 (O.TRK_CNT n k) := by
  rw [(s.leaveSync_cellsKept n).rd64_cnt hn hk]
  unfold State.syncLeft
  extract_lets v a b held
  rw [State.rd64_delinSet, State.rd64_setTrunk, State.rd64_setTrunk]
  exact s.rd64_trkCntAdd_ne n 13 _ h

theorem State.pmaLock_leaveSync : ((s.leaveSync n).trunk n).pmaLock = (s.trunk n).pmaLock := by
  have hl : ((s.leaveSync n).trunk n).pmaLock = ((s.syncLeft n).trunk n).pmaLock :=
    (s.leaveSync_cellsKept n).view Trunk.pmaLock (fun _ => rfl) n
  rw [hl]
  unfold State.syncLeft
  extract_lets v a b held
  rw [State.trunk_delinSet, State.trunk_setTrunk_self]
  have hb : b.trunk n = _ := State.trunk_setTrunk_self a n _
  exact (congrArg Trunk.pmaLock hb :)

theorem los_statBeside (n : Nat) : (F.TRK_STAT.LOS n).StatBeside n :=
  ⟨rfl, .inr (.inr (by decide : 1 + 1 ≤ 4)), .inr (.inr (by decide : 1 + 1 ≤ 12))⟩

theorem pmaLock_statBeside (n : Nat) : (F.TRK_STAT.PMA_LOCK n).StatBeside n :=
  ⟨rfl, .inr (.inl (by decide : 4 + 2 ≤ 8)), .inr (.inr (by decide : 8 + 1 ≤ 12))⟩

/-- A loss of delineation as it is counted and shown, before SYNC is left (R141, R142). -/
def State.lossShown (s : State) (n : Nat) : State :=
  ((s.trkCnt n 4).setFlag (F.TRK_STAT.LOS n) (srcTrunk (s.trkCnt n 4).cfg n + 2)).trkCnt n 20

theorem State.delinLoss_eq (n : Nat) : s.delinLoss n = (s.lossShown n).leaveSync n := rfl

theorem State.delin_delinLoss (hn : n < 2) : (s.delinLoss n).fget (F.TRK_STAT.DELIN n) = 0 := State.delin_leaveSync _ hn

theorem State.los_delinLoss (hn : n < 2) : (s.delinLoss n).flag (F.TRK_STAT.LOS n) = true := by
  have hlos : (s.lossShown n).flag (F.TRK_STAT.LOS n) = true :=
    (State.flag_trkCnt _ n 20 _ (by decide) (stat_beside_counters n)).trans
      (State.flag_setFlag_self _ _ (stat_low hn) (by decide : 1 + 1 ≤ 32) (by decide : 1 < 2 ^ 1))
  unfold State.flag at hlos ⊢
  rwa [State.delinLoss_eq, State.fget_leaveSync _ hn (los_statBeside n)]

theorem State.pmaLock_delinLoss : ((s.delinLoss n).trunk n).pmaLock = (s.trunk n).pmaLock := by
  rw [State.delinLoss_eq, State.pmaLock_leaveSync, State.lossShown, State.trunk_trkCnt, State.setFlag, State.trunk_raise, State.trunk_fset,
    State.trunk_trkCnt]

theorem State.pmaFlag_delinLoss (hn : n < 2) : (s.delinLoss n).flag (F.TRK_STAT.PMA_LOCK n) = s.flag (F.TRK_STAT.PMA_LOCK n) := by
  have hshown : (s.lossShown n).flag (F.TRK_STAT.PMA_LOCK n) = s.flag (F.TRK_STAT.PMA_LOCK n) :=
    (State.flag_trkCnt _ n 20 _ (by decide) (stat_beside_counters n)).trans
      ((State.flag_setFlag_beside _ _ (stat_low hn) (.inr (.inl (by decide : 1 + 1 ≤ 8)))).trans
        (State.flag_trkCnt _ n 4 _ (by decide) (stat_beside_counters n)))
  rw [← hshown]
  unfold State.flag
  rw [State.delinLoss_eq, State.fget_leaveSync _ hn (pmaLock_statBeside n)]

theorem State.rd64_setFlag_stat {f : Fld} (hn : n < 2) (hf : f.off = O.TRK_STAT n) (src : Nat) (hk : k < 30) :
    (s.setFlag f src).rd64 (O.TRK_CNT n k) = s.rd64 (O.TRK_CNT n k) := by
  refine State.rd64_congr ?_ ?_ <;> refine State.setFlag_lowWords _ _ _ _ ?_ ?_ <;>
    simp only [hf, List.mem_singleton, O.TRK_CNT, O.TRK_STAT, O.IRQ_PEND] <;> omega

theorem State.badHeaders_delinLoss (hn : n < 2) :
    (s.delinLoss n).rd64 (O.TRK_CNT n 4) = (s.rd64 (O.TRK_CNT n 4) + 1) % 2 ^ 64 := by
  rw [State.delinLoss_eq, State.rd64_leaveSync _ hn (by decide) (by decide), State.lossShown, State.rd64_trkCnt_ne _ _ _ (by decide),
    State.rd64_setFlag_stat _ hn rfl _ (by decide), State.rd64_trkCnt_self]

/-! ### Entering -/

theorem State.enterSync_cellsKept (n ofs hist : Nat) : CellsKept (s.syncEntered n ofs hist) (s.enterSync n ofs hist) :=
  (CellsKept.refl (s.syncEntered n ofs hist)).sfUpdate.fixDegraded

theorem State.delin_enterSync (hn : n < 2) (ofs hist : Nat) : (s.enterSync n ofs hist).fget (F.TRK_STAT.DELIN n) = 2 := by
  rw [(s.enterSync_cellsKept n ofs hist).fget (cellWord_stat hn)]
  unfold State.syncEntered
  extract_lets v a
  rw [State.fget_trkCnt _ _ _ _ (by decide) (stat_beside_counters n),
    State.fget_setFlag_beside _ _ (stat_low hn) (.inr (.inl (by decide : 0 + 1 ≤ 4))), State.delin_delinSet]

theorem State.lock_enterSync (hn : n < 2) (ofs hist : Nat) : (s.enterSync n ofs hist).flag (F.TRK_STAT.LOCK n) = true := by
  rw [(s.enterSync_cellsKept n ofs hist).flag (cellWord_stat hn)]
  unfold State.syncEntered
  extract_lets v a
  rw [State.flag_trkCnt _ _ _ _ (by decide) (stat_beside_counters n)]
  exact State.flag_setFlag_self _ _ (stat_low hn) (by decide : 0 + 1 ≤ 32) (by decide : 1 < 2 ^ 1)

theorem State.align_enterSync (ofs hist : Nat) : ((s.enterSync n ofs hist).trunk n).align = ofs := by
  have hl : ((s.enterSync n ofs hist).trunk n).align = ((s.syncEntered n ofs hist).trunk n).align :=
    (s.enterSync_cellsKept n ofs hist).view Trunk.align (fun _ => rfl) n
  rw [hl]
  unfold State.syncEntered
  extract_lets v a
  rw [State.trunk_trkCnt, State.setFlag, State.trunk_raise, State.trunk_fset, State.trunk_delinSet, State.trunk_setTrunk_self]

end

end Sys2Proof.Machine

namespace Sys2Proof.Machine

/-! ## Cells received (05_trunk_cells.md R138, R139, R141 to R144, R150, R153) -/

/-! ### Headers in SYNC -/

/-- The header that a cell in SYNC is taken to have: its own where it fits, or the corrected one (R139). -/
def State.fixedHeader (s : State) (n h : Nat) : Option Nat :=
  if headerFits h then some h else if s.flag (F.TRK_CFG.HCORR n) then headerCorrect h else none

/-- One more cell of the lane has passed the descrambler (R140, R150). -/
def State.laneRead (s : State) (n : Nat) (bs : List Byte) : State :=
  (s.setTrunk n { s.trunk n with rxHist := (descramble (s.trunk n).rxHist (beNat (bs.drop 6))).2 }).cellTime n

/-- A cell of the lane after its header is judged: one that does not fit counts towards Signal Degrade (R181). -/
def State.headerSeen (s : State) (n : Nat) (bs : List Byte) : State :=
  if headerFits (headerOf bs) then s.laneRead n bs else (s.laneRead n bs).sdCount n

/-- A corrected header is counted (R139). -/
def State.headerKept (s : State) (n : Nat) (bs : List Byte) : State :=
  if headerFits (headerOf bs) then s.headerSeen n bs else (s.headerSeen n bs).trkCnt n 5

/-- A cell whose header fits or is corrected ends the run of bad headers (R139, R142). -/
def State.headerTaken (s : State) (n : Nat) (bs : List Byte) : State := (s.headerKept n bs).fset (F.TRK_STAT.BAD_RUN n) 0

theorem State.fixedHeader_some {s : State} {n h w : Nat}
    (hw : (headerFits h = true ∧ w = h) ∨ (headerFits h = false ∧ s.flag (F.TRK_CFG.HCORR n) = true ∧ headerCorrect h = some w)) :
    s.fixedHeader n h = some w := by
  obtain ⟨hf, rfl⟩ | ⟨hf, hcorr, hfix⟩ := hw
  · exact if_pos hf
  · exact (if_neg (by rw [hf]; exact Bool.false_ne_true)).trans ((if_pos hcorr).trans hfix)

theorem State.fixedHeader_none {s : State} {n h : Nat} (hf : headerFits h = false)
    (hw : s.flag (F.TRK_CFG.HCORR n) = false ∨ headerCorrect h = none) : s.fixedHeader n h = none := by
  refine (if_neg (by rw [hf]; exact Bool.false_ne_true)).trans ?_
  obtain hcorr | hfix := hw
  · exact if_neg (by rw [hcorr]; exact Bool.false_ne_true)
  · rw [hfix, ite_self]

/-- One more header is counted towards Signal Degrade (R181). -/
def State.sdNoted (s : State) (n : Nat) : State := s.setTrunk n { s.trunk n with sdBad := (s.trunk n).sdBad + 1 }

section
variable {s : State} {n k ofs ph w : Nat} {bs : List Byte}

theorem State.sdCount_cellsKept (s : State) (n : Nat) : CellsKept (s.sdNoted n) (s.sdCount n) := by
  have h := CellsKept.refl (s.sdNoted n)
  exact .ite ((h.fset_protStat n 1 1 1).protUpdate.fixDegraded) h

/-- Signal Degrade that holds, or a window with no more bad headers than SD_THR: nothing else follows (R181). -/
theorem State.sdCount_quiet (h : s.flag (F.TRK_PROT_STAT.SD n) = true ∨ (s.trunk n).sdBad + 1 ≤ s.fget (F.TRK_PROT_CFG.SD_THR n)) :
    s.sdCount n = s.sdNoted n := by
  refine if_neg fun hc => ?_
  obtain ⟨hlt, hsd⟩ := hc
  rw [State.fget_setTrunk] at hlt
  rw [State.flag_setTrunk] at hsd
  obtain h | h := h
  · exact Bool.false_ne_true (hsd.symm.trans h)
  · omega

theorem State.trunk_laneRead : (s.laneRead n bs).trunk n =
    { s.trunk n with
      rxHist := (descramble (s.trunk n).rxHist (beNat (bs.drop 6))).2
      pos := (s.trunk n).pos.map (· + 1) } := by
  unfold State.laneRead State.cellTime
  rw [State.trunk_setTrunk_self, State.trunk_setTrunk_self]

theorem State.rd_laneRead (j : Nat) : (s.laneRead n bs).rd j = s.rd j := by
  unfold State.laneRead State.cellTime
  rw [State.rd_setTrunk, State.rd_setTrunk]

theorem State.fget_laneRead (g : Fld) : (s.laneRead n bs).fget g = s.fget g := congrArg (getBits · g.lo g.wd) (State.rd_laneRead g.off)

theorem State.flag_laneRead (g : Fld) : (s.laneRead n bs).flag g = s.flag g := by
  unfold State.flag
  rw [State.fget_laneRead]

theorem State.rd_sdNoted (s : State) (n j : Nat) : (s.sdNoted n).rd j = s.rd j := State.rd_setTrunk _ _ _ _

/-- A word of the cells through a bad header's count. -/
theorem State.rd_sdCount_laneRead {j : Nat} (hj : CellWord j) : ((s.laneRead n bs).sdCount n).rd j = s.rd j := by
  rw [((s.laneRead n bs).sdCount_cellsKept n).word j hj, State.rd_sdNoted, State.rd_laneRead]

theorem cellWord_cnt (hn : n < 2) (hk : k < 30) : CellWord (O.TRK_CNT n k) ∧ CellWord (O.TRK_CNT n k + 4) := by
  simp only [CellWord, O.TRK_CNT]
  omega

theorem cellWord_delinCfg (hn : n < 2) : CellWord (O.TRK_DELIN_CFG n) := by simp only [CellWord, O.TRK_DELIN_CFG]; omega

theorem State.rd64_sdCount_laneRead (hn : n < 2) (hk : k < 30) :
    ((s.laneRead n bs).sdCount n).rd64 (O.TRK_CNT n k) = s.rd64 (O.TRK_CNT n k) := by
  obtain ⟨hlo, hhi⟩ := cellWord_cnt hn hk
  exact State.rd64_congr (State.rd_sdCount_laneRead hlo) (State.rd_sdCount_laneRead hhi)

theorem State.headerKept_fits (h : headerFits (headerOf bs) = true) : s.headerKept n bs = s.laneRead n bs :=
  (if_pos h).trans (if_pos h)

theorem State.headerKept_corrected (h : headerFits (headerOf bs) ≠ true) :
    s.headerKept n bs = ((s.laneRead n bs).sdCount n).trkCnt n 5 :=
  (if_neg h).trans (congrArg (State.trkCnt · n 5) (if_neg h))

theorem State.badRun_headerTaken : (s.headerTaken n bs).fget (F.TRK_STAT.BAD_RUN n) = 0 :=
  State.fget_fset_self _ _ 0 (by decide : 12 + 4 ≤ 32)

/-- A word of the cells beside the status and the counters. -/
theorem State.rd_headerTaken {j : Nat} (hj : CellWord j) (hs : j ≠ O.TRK_STAT n) (hc : j % 0x4000 < 0x100 ∨ 0x200 ≤ j % 0x4000) :
    (s.headerTaken n bs).rd j = s.rd j := by
  unfold State.headerTaken
  rw [State.rd_fset_ne _ _ _ hs]
  by_cases hf : headerFits (headerOf bs) = true
  · rw [State.headerKept_fits hf, State.rd_laneRead]
  · rw [State.headerKept_corrected hf]
    exact (State.rd_trkCntAdd _ n 5 1 (by decide) hc).trans (State.rd_sdCount_laneRead hj)

theorem State.fget_headerTaken {g : Fld} (hg : CellWord g.off) (hs : g.off ≠ O.TRK_STAT n)
    (hc : g.off % 0x4000 < 0x100 ∨ 0x200 ≤ g.off % 0x4000) : (s.headerTaken n bs).fget g = s.fget g :=
  congrArg (getBits · g.lo g.wd) (State.rd_headerTaken hg hs hc)

theorem State.flag_headerTaken {g : Fld} (hg : CellWord g.off) (hs : g.off ≠ O.TRK_STAT n)
    (hc : g.off % 0x4000 < 0x100 ∨ 0x200 ≤ g.off % 0x4000) : (s.headerTaken n bs).flag g = s.flag g := by
  unfold State.flag
  rw [State.fget_headerTaken hg hs hc]

theorem State.rd64_fset_stat (s : State) {g : Fld} (hg : g.off = O.TRK_STAT n) (v : Nat) :
    (s.fset g v).rd64 (O.TRK_CNT n k) = s.rd64 (O.TRK_CNT n k) := by
  refine State.rd64_fset_ne _ _ _ ?_ ?_ <;> simp only [hg, O.TRK_CNT, O.TRK_STAT] <;> omega

theorem State.rd64_headerTaken (hn : n < 2) (hk : k < 30) : (s.headerTaken n bs).rd64 (O.TRK_CNT n k) =
    if k = 5 ∧ headerFits (headerOf bs) = false then (s.rd64 (O.TRK_CNT n 5) + 1) % 2 ^ 64 else s.rd64 (O.TRK_CNT n k) := by
  unfold State.headerTaken
  rw [State.rd64_fset_stat _ rfl]
  by_cases hf : headerFits (headerOf bs) = true
  · rw [State.headerKept_fits hf, if_neg (by rw [hf]; simp)]
    exact State.rd64_congr (State.rd_laneRead _) (State.rd_laneRead _)
  rw [State.headerKept_corrected hf]
  by_cases h5 : k = 5
  · rw [if_pos ⟨h5, eq_false_of_ne_true hf⟩, h5, State.rd64_trkCnt_self, State.rd64_sdCount_laneRead hn (by decide)]
  · rw [if_neg fun h => h5 h.1, State.rd64_trkCnt_ne _ _ _ h5, State.rd64_sdCount_laneRead hn hk]

theorem cfg_beside_counters (n : Nat) : O.TRK_CFG n % 0x4000 < 0x100 ∨ 0x200 ≤ O.TRK_CFG n % 0x4000 :=
  .inl (by simp only [O.TRK_CFG]; omega)

theorem cfg_ne_stat (n : Nat) : O.TRK_CFG n ≠ O.TRK_STAT n := by simp only [O.TRK_CFG, O.TRK_STAT]; omega

theorem blocked_beside_counters (n : Nat) :
    (F.TRK_PROT_STAT.BLOCKED n).off % 0x4000 < 0x100 ∨ 0x200 ≤ (F.TRK_PROT_STAT.BLOCKED n).off % 0x4000 := by
  simp only [F.TRK_PROT_STAT.BLOCKED, O.TRK_PROT_STAT]
  omega

/-- While Signal Degrade does not begin, the ring protection stands still. -/
theorem State.headerTaken_quiet
    (h : headerFits (headerOf bs) = true ∨ s.flag (F.TRK_PROT_STAT.SD n) = true ∨
      (s.trunk n).sdBad + 1 ≤ s.fget (F.TRK_PROT_CFG.SD_THR n)) :
    (s.headerTaken n bs).flag (F.TRK_PROT_STAT.BLOCKED n) = s.flag (F.TRK_PROT_STAT.BLOCKED n) ∧
      ((s.headerTaken n bs).trunk n).pos = (s.trunk n).pos.map (· + 1) := by
  have hoff : (F.TRK_PROT_STAT.BLOCKED n).off ≠ (F.TRK_STAT.BAD_RUN n).off := by
    simp only [F.TRK_PROT_STAT.BLOCKED, F.TRK_STAT.BAD_RUN, O.TRK_PROT_STAT, O.TRK_STAT]
    omega
  unfold State.headerTaken
  rw [State.flag_fset_ne _ _ _ _ (.inl hoff), State.trunk_fset]
  by_cases hf : headerFits (headerOf bs) = true
  · rw [State.headerKept_fits hf, State.flag_laneRead, State.trunk_laneRead]
    exact ⟨rfl, rfl⟩
  · have hq := h.resolve_left hf
    rw [State.headerKept_corrected hf, State.sdCount_quiet (by rwa [State.flag_laneRead, State.fget_laneRead, State.trunk_laneRead]),
      State.flag_trkCnt _ _ _ _ (by decide) (blocked_beside_counters n), State.trunk_trkCnt, State.sdNoted,
      State.flag_setTrunk, State.flag_laneRead,
      State.trunk_setTrunk_self, State.trunk_laneRead]
    exact ⟨rfl, rfl⟩

/-- A cell in SYNC, by what its header comes to. -/
theorem State.syncCell_eq (s : State) (n : Nat) (bs : List Byte) (ph : Nat) : s.syncCell n bs ph =
    match (s.laneRead n bs).fixedHeader n (headerOf bs) with
    | some w =>
      (s.headerTaken n bs).takeCell n (w / 65536) (natBe 58 (descramble (s.trunk n).rxHist (beNat (bs.drop 6))).1)
        ((s.headerKept n bs).rxStamp (8 + n) ph)
    | none =>
      if (s.headerSeen n bs).fget (F.TRK_STAT.BAD_RUN n) + 1 < (s.headerSeen n bs).lossOf n then
        ((s.headerSeen n bs).trkCnt n 4).fset (F.TRK_STAT.BAD_RUN n) ((s.headerSeen n bs).fget (F.TRK_STAT.BAD_RUN n) + 1)
      else (s.headerSeen n bs).delinLoss n := rfl

theorem State.fixedHeader_laneRead (h : Nat) : (s.laneRead n bs).fixedHeader n h = s.fixedHeader n h := by
  unfold State.fixedHeader
  rw [State.flag_laneRead]

theorem State.syncCell_taken (h : s.fixedHeader n (headerOf bs) = some w) : s.syncCell n bs ph =
    (s.headerTaken n bs).takeCell n (w / 65536) (natBe 58 (descramble (s.trunk n).rxHist (beNat (bs.drop 6))).1)
      ((s.headerKept n bs).rxStamp (8 + n) ph) := by
  rw [State.syncCell_eq, State.fixedHeader_laneRead, h]

/-- A bad header lengthens the run, or loses the delineation (R142). -/
theorem State.syncCell_bad (hf : headerFits (headerOf bs) = false) (h : s.fixedHeader n (headerOf bs) = none) :
    s.syncCell n bs ph =
      let u := (s.laneRead n bs).sdCount n
      if u.fget (F.TRK_STAT.BAD_RUN n) + 1 < u.lossOf n then
        (u.trkCnt n 4).fset (F.TRK_STAT.BAD_RUN n) (u.fget (F.TRK_STAT.BAD_RUN n) + 1)
      else u.delinLoss n := by
  have hseen : s.headerSeen n bs = (s.laneRead n bs).sdCount n := if_neg (by rw [hf]; exact Bool.false_ne_true)
  rw [State.syncCell_eq, State.fixedHeader_laneRead, h, hseen]

/-! ### Cells that reach R136 -/

section
variable {u : State} {info chan seq pri : Nat} {p data : List Byte} {x : Int}

theorem State.takeCell_idle (hj : judgeCell (info / 2 ^ 22) (info / 2 ^ 19 % 8) (info / 2 ^ 13 % 64) = none)
    (ht : info / 2 ^ 19 % 8 = 0) : u.takeCell n info p x = (u.trkCnt n 0).trkCnt n 1 := by
  unfold State.takeCell
  extract_lets chan ctype len seq pri v
  rw [show judgeCell chan ctype len = none from hj]
  exact if_pos ht

/-- The numbering goes on while the overhead cell is not overdue (R150). -/
theorem State.sfTimeout_early (h : ∀ k, (u.trunk n).pos = some k → k < u.cellsOf n + 1) : u.sfTimeout n = u := by
  unfold State.sfTimeout
  split
  · next k hk => exact if_neg (Nat.not_le.mpr (h k hk))
  · rfl

theorem State.slotsOf_lt_cellsOf (u : State) (n : Nat) : u.slotsOf n < u.cellsOf n := by
  unfold State.slotsOf State.cellsOf
  split <;> decide

/-- A start cell that may stand is one of a channel that can carry frames (R136). -/
theorem judgeCell_start {len : Nat} (h : judgeCell chan 2 len = none) : 1 ≤ chan ∧ chan ≤ 0x3FD := by
  unfold judgeCell at h
  split at h
  · cases h
  split at h
  · cases h
  split at h
  · cases h
  · by_contra hchan
    rw [if_neg (by simp [hchan])] at h
    cases h

/-- A start cell of an enabled channel of an unblocked trunk, outside slack, reaches the channel (R151, R153). -/
theorem State.takeCell_start (hj : judgeCell (info / 2 ^ 22) (info / 2 ^ 19 % 8) (info / 2 ^ 13 % 64) = none)
    (ht : info / 2 ^ 19 % 8 = 2) (hen : (u.trkCnt n 0).flag (F.TRK_CHMAP.EN n (info / 2 ^ 22)) = true)
    (hb : (u.trkCnt n 0).flag (F.TRK_PROT_STAT.BLOCKED n) = false)
    (hpos : ∀ k, (u.trunk n).pos = some k → k ≤ (u.trkCnt n 0).slotsOf n) :
    u.takeCell n info p x =
      (u.trkCnt n 0).frameCell n (info / 2 ^ 22) 2 (info / 2 ^ 9 % 16) (info / 2 ^ 6 % 8) (p.take (info / 2 ^ 13 % 64)) x := by
  have hearly : (u.trkCnt n 0).sfTimeout n = u.trkCnt n 0 :=
    State.sfTimeout_early fun k hk => (hpos k hk).trans_lt (((u.trkCnt n 0).slotsOf_lt_cellsOf n).trans (Nat.lt_succ_self _))
  unfold State.takeCell
  extract_lets chan ctype len seq pri v _ _ _ _ w slack e
  have hslack : slack = false := by
    change (match (w.trunk n).pos with | some k => decide (w.slotsOf n < k) | none => false) = false
    rw [show w = v from hearly]
    cases hk : (v.trunk n).pos with
    | none => rfl
    | some k => exact decide_eq_false (Nat.not_lt.mpr (hpos k hk))
  have he : e = v := (if_neg (by rw [hslack]; exact Bool.false_ne_true)).trans hearly
  rw [show judgeCell chan ctype len = none from hj, he, hslack]
  have hne {m : Nat} (hm : 2 ≠ m) : ¬ ctype = m := fun h => hm (ht.symm.trans h)
  refine (if_neg (hne (by decide))).trans ((if_neg (hne (by decide))).trans ((if_neg (hne (by decide))).trans ?_))
  refine (if_neg (by rw [hen]; exact Bool.noConfusion)).trans ((if_neg Bool.false_ne_true).trans ?_)
  rw [hb, show ctype = 2 from ht]
  exact if_neg Bool.false_ne_true

theorem State.chan_putChan (c : Nat) (v : Chan) : KMap.get {} ((u.putChan n c v).trunk n).chans c = v := by
  unfold State.putChan
  rw [State.trunk_setTrunk_self, KMap.get_put_self]

/-- A frame that begins, whether or not buffer memory has room for it (R154). -/
theorem State.chan_chanBegin (c : Nat) (v : Chan) :
    let r := KMap.get {} ((u.chanBegin n c v false data pri x).trunk n).chans c
    r.asm = true ∧ r.bytes = data ∧ r.ref = v.ref := by
  unfold State.chanBegin State.chanGrow
  rw [if_neg Bool.false_ne_true, if_neg Bool.false_ne_true]
  split <;> rw [State.chan_putChan] <;> exact ⟨rfl, rfl, rfl⟩

/-- A start cell begins a frame in every state of its channel (R153). -/
theorem State.frameCell_start (c : Nat) : ∃ (t : State) (v : Chan), v.ref = some seq ∧
    u.frameCell n c 2 seq pri data x = t.chanBegin n c v false data pri x := by
  unfold State.frameCell
  extract_lets v expected noRef begins single v' gap
  rw [show begins = true from rfl, show single = false from rfl]
  by_cases hskip : v.skip ≠ 0
  · exact ⟨_, v', rfl, (if_pos hskip).trans (if_pos rfl)⟩
  by_cases hasm : v.asm = true
  · by_cases hexp : expected = true
    · exact ⟨_, { v' with asm := false, bytes := [] }, rfl,
        (if_neg hskip).trans ((if_pos hasm).trans ((if_pos hexp).trans (if_pos rfl)))⟩
    · exact ⟨_, { v' with asm := false, bytes := [] }, rfl,
        (if_neg hskip).trans ((if_pos hasm).trans ((if_neg hexp).trans (if_pos rfl)))⟩
  · exact ⟨_, v', rfl, (if_neg hskip).trans ((if_neg hasm).trans (if_pos rfl))⟩

end

/-! ### The command -/

section
variable (hc : s.cellTrunk n = true) (hp : (s.trunk n).pmaLock = true) (hr : (s.trunk n).rxLost = false) (hlen : bs.length = 64)
include hc hp hr hlen

theorem exec_cellReceive_sync (hd : s.fget (F.TRK_STAT.DELIN n) = 2) (ha : (s.trunk n).align < 512) :
    exec (.cellReceive n (s.trunk n).align bs ph) s = .next (s.syncCell n bs ph) :=
  (if_pos ⟨hc, hp, hr, hlen, ha⟩).trans ((if_pos hd).trans (if_pos rfl))

theorem exec_cellReceive_hunt (hd : s.fget (F.TRK_STAT.DELIN n) ≠ 2) (ho : ofs < 512) :
    exec (.cellReceive n ofs bs ph) s = .next (s.huntCell n ofs bs ph) :=
  (if_pos ⟨hc, hp, hr, hlen, ho⟩).trans (if_neg hd)

theorem cellsReceived_found (ho : ofs < 512) (hf : headerFits (headerOf bs) = true) (hs : s.cfg = .s)
    (hd : s.fget (F.TRK_STAT.DELIN n) ≠ 2) :
    ∃ t, exec (.cellReceive n ofs bs ph) s = .next t ∧ t.fget (F.TRK_STAT.DELIN n) = 2 ∧ (t.trunk n).align = ofs ∧
      t.flag (F.TRK_STAT.LOCK n) = true := by
  have hstep : s.huntCell n ofs bs ph = s.enterSync n ofs (beNat (bs.drop 6) % 2 ^ 43) := (if_pos hs).trans (if_pos hf)
  have hn := cellTrunk_lt_two hc
  refine ⟨_, (exec_cellReceive_hunt hc hp hr hlen hd ho).trans (congrArg _ hstep), ?_⟩
  exact ⟨s.delin_enterSync hn _ _, s.align_enterSync _ _, s.lock_enterSync hn _ _⟩

theorem cellsReceived_candidate (ho : ofs < 512) (hf : headerFits (headerOf bs) = true) (hs : s.cfg = .x)
    (hd : s.fget (F.TRK_STAT.DELIN n) ≠ 2) (hnew : ∀ c ∈ (s.trunk n).cands, c.ofs ≠ ofs) :
    ∃ t, exec (.cellReceive n ofs bs ph) s = .next t ∧ t.fget (F.TRK_STAT.DELIN n) = 1 ∧
      (t.trunk n).cands.map (·.ofs) = (s.trunk n).cands.map (·.ofs) ++ [ofs] ∧ OnlyWords s t [O.TRK_STAT n] := by
  have hnone : (s.trunk n).cands.find? (fun c => c.ofs == ofs) = none :=
    List.find?_eq_none.mpr fun c hcand => by simpa using hnew c hcand
  let u := s.setTrunk n { s.trunk n with cands := (s.trunk n).cands ++ [⟨ofs, 0, beNat (bs.drop 6) % 2 ^ 43⟩] }
  have hstep : s.huntCell n ofs bs ph = u.fset (F.TRK_STAT.DELIN n) 1 := by
    unfold State.huntCell
    extract_lets v q fits
    rw [if_neg (by rw [hs]; decide), show v.cands.find? (fun c => c.ofs == ofs) = none from hnone]
    exact if_pos hf
  refine ⟨_, (exec_cellReceive_hunt hc hp hr hlen hd ho).trans (congrArg _ hstep), ?_, ?_, fun j hj => ?_⟩
  · exact State.fget_fset_self _ _ 1 (by decide : 4 + 2 ≤ 32)
  · rw [State.trunk_fset, State.trunk_setTrunk_self, List.map_append]
    rfl
  · rw [State.rd_fset_ne _ _ _ (List.ne_of_not_mem_cons hj), State.rd_setTrunk]

variable (hd : s.fget (F.TRK_STAT.DELIN n) = 2) (ha : (s.trunk n).align < 512)
include hd ha

theorem cellsReceived_idle (hw : s.fixedHeader n (headerOf bs) = some w)
    (hj : judgeCell (w / 65536 / 2 ^ 22) (w / 65536 / 2 ^ 19 % 8) (w / 65536 / 2 ^ 13 % 64) = none) (ht : w / 65536 / 2 ^ 19 % 8 = 0) :
    ∃ t, exec (.cellReceive n (s.trunk n).align bs ph) s = .next t ∧ t.fget (F.TRK_STAT.BAD_RUN n) = 0 ∧
      t.rd64 (O.TRK_CNT n 0) = (s.rd64 (O.TRK_CNT n 0) + 1) % 2 ^ 64 ∧
      t.rd64 (O.TRK_CNT n 1) = (s.rd64 (O.TRK_CNT n 1) + 1) % 2 ^ 64 ∧
      (headerFits (headerOf bs) = false → t.rd64 (O.TRK_CNT n 5) = (s.rd64 (O.TRK_CNT n 5) + 1) % 2 ^ 64) := by
  have hstep := (State.syncCell_taken (ph := ph) hw).trans (State.takeCell_idle hj ht)
  have hn := cellTrunk_lt_two hc
  have hstat := stat_beside_counters n
  refine ⟨_, (exec_cellReceive_sync hc hp hr hlen hd ha).trans (congrArg _ hstep), ?_, ?_, ?_, fun hf => ?_⟩
  · rw [State.fget_trkCnt _ _ _ _ (by decide) hstat, State.fget_trkCnt _ _ _ _ (by decide) hstat, State.badRun_headerTaken]
  · rw [State.rd64_trkCnt_ne _ _ _ (by decide), State.rd64_trkCnt_self, State.rd64_headerTaken hn (by decide), if_neg (by simp)]
  · rw [State.rd64_trkCnt_self, State.rd64_trkCnt_ne _ _ _ (by decide), State.rd64_headerTaken hn (by decide), if_neg (by simp)]
  · rw [State.rd64_trkCnt_ne _ _ _ (by decide), State.rd64_trkCnt_ne _ _ _ (by decide), State.rd64_headerTaken hn (by decide),
      if_pos ⟨rfl, hf⟩]

theorem cellsReceived_start (hw : s.fixedHeader n (headerOf bs) = some w)
    (hj : judgeCell (w / 65536 / 2 ^ 22) (w / 65536 / 2 ^ 19 % 8) (w / 65536 / 2 ^ 13 % 64) = none) (ht : w / 65536 / 2 ^ 19 % 8 = 2)
    (hen : s.flag (F.TRK_CHMAP.EN n (w / 65536 / 2 ^ 22)) = true)
    (hq : headerFits (headerOf bs) = true ∨ s.flag (F.TRK_PROT_STAT.SD n) = true ∨
      (s.trunk n).sdBad + 1 ≤ s.fget (F.TRK_PROT_CFG.SD_THR n))
    (hb : s.flag (F.TRK_PROT_STAT.BLOCKED n) = false) (hpos : ∀ k, (s.trunk n).pos = some k → k < s.slotsOf n) :
    ∃ t, exec (.cellReceive n (s.trunk n).align bs ph) s = .next t ∧
      (KMap.get {} (t.trunk n).chans (w / 65536 / 2 ^ 22)).asm = true ∧
      (KMap.get {} (t.trunk n).chans (w / 65536 / 2 ^ 22)).bytes =
        (natBe 58 (descramble (s.trunk n).rxHist (beNat (bs.drop 6))).1).take (w / 65536 / 2 ^ 13 % 64) ∧
      (KMap.get {} (t.trunk n).chans (w / 65536 / 2 ^ 22)).ref = some (w / 65536 / 2 ^ 9 % 16) := by
  have hn := cellTrunk_lt_two hc
  obtain ⟨hblock, hplace⟩ := State.headerTaken_quiet hq
  have hmap : 0x200 ≤ (O.TRK_CHMAP n (w / 65536 / 2 ^ 22)) % 0x4000 ∧ CellWord (O.TRK_CHMAP n (w / 65536 / 2 ^ 22)) ∧
      O.TRK_CHMAP n (w / 65536 / 2 ^ 22) ≠ O.TRK_STAT n := by
    obtain ⟨hlo, hhi⟩ := judgeCell_start (ht ▸ hj)
    simp only [CellWord, O.TRK_CHMAP, O.TRK_STAT]
    omega
  obtain ⟨hlow, hword, hstat⟩ := hmap
  have hen' : ((s.headerTaken n bs).trkCnt n 0).flag (F.TRK_CHMAP.EN n (w / 65536 / 2 ^ 22)) = true := by
    rw [State.flag_trkCnt _ _ _ _ (by decide) (.inr hlow), State.flag_headerTaken hword hstat (.inr hlow), hen]
  have hb' : ((s.headerTaken n bs).trkCnt n 0).flag (F.TRK_PROT_STAT.BLOCKED n) = false :=
    (State.flag_trkCnt _ _ _ _ (by decide) (blocked_beside_counters n)).trans (hblock.trans hb)
  have hslots : ((s.headerTaken n bs).trkCnt n 0).slotsOf n = s.slotsOf n := by
    unfold State.slotsOf
    rw [State.fget_trkCnt _ _ _ _ (by decide) (cfg_beside_counters n),
      State.fget_headerTaken (cellWord_cfg hn) (cfg_ne_stat n) (cfg_beside_counters n)]
  have hpos' (k : Nat) (hk : ((s.headerTaken n bs).trunk n).pos = some k) : k ≤ ((s.headerTaken n bs).trkCnt n 0).slotsOf n := by
    rw [hplace, Option.map_eq_some_iff] at hk
    obtain ⟨j, hj, rfl⟩ := hk
    exact hslots ▸ hpos j hj
  obtain ⟨u, v, href, hframe⟩ := State.frameCell_start (u := (s.headerTaken n bs).trkCnt n 0) (n := n) (seq := w / 65536 / 2 ^ 9 % 16)
    (pri := w / 65536 / 2 ^ 6 % 8) (x := (s.headerKept n bs).rxStamp (8 + n) ph) (w / 65536 / 2 ^ 22)
    (data := (natBe 58 (descramble (s.trunk n).rxHist (beNat (bs.drop 6))).1).take (w / 65536 / 2 ^ 13 % 64))
  have hstep := (State.syncCell_taken (ph := ph) hw).trans ((State.takeCell_start hj ht hen' hb' hpos').trans hframe)
  refine ⟨_, (exec_cellReceive_sync hc hp hr hlen hd ha).trans (congrArg _ hstep), ?_⟩
  obtain ⟨hasm, hbytes, hseq⟩ := State.chan_chanBegin (u := u) (n := n) (pri := w / 65536 / 2 ^ 6 % 8)
    (x := (s.headerKept n bs).rxStamp (8 + n) ph) (w / 65536 / 2 ^ 22) v
    (data := (natBe 58 (descramble (s.trunk n).rxHist (beNat (bs.drop 6))).1).take (w / 65536 / 2 ^ 13 % 64))
  exact ⟨hasm, hbytes, hseq.trans href⟩

theorem cellsReceived_bad (hf : headerFits (headerOf bs) = false) (hw : s.fixedHeader n (headerOf bs) = none) :
    ∃ t, exec (.cellReceive n (s.trunk n).align bs ph) s = .next t ∧
      t.rd64 (O.TRK_CNT n 4) = (s.rd64 (O.TRK_CNT n 4) + 1) % 2 ^ 64 ∧
      (s.fget (F.TRK_STAT.BAD_RUN n) + 1 < max 2 (s.fget (F.TRK_DELIN_CFG.LOSS n)) →
        t.fget (F.TRK_STAT.BAD_RUN n) = s.fget (F.TRK_STAT.BAD_RUN n) + 1 ∧ t.fget (F.TRK_STAT.DELIN n) = 2) ∧
      (max 2 (s.fget (F.TRK_DELIN_CFG.LOSS n)) ≤ s.fget (F.TRK_STAT.BAD_RUN n) + 1 →
        t.fget (F.TRK_STAT.DELIN n) = 0 ∧ t.flag (F.TRK_STAT.LOS n) = true) := by
  have hn := cellTrunk_lt_two hc
  let u := (s.laneRead n bs).sdCount n
  have hget {g : Fld} (hg : CellWord g.off) : u.fget g = s.fget g := congrArg (getBits · g.lo g.wd) (State.rd_sdCount_laneRead hg)
  have hrun : u.fget (F.TRK_STAT.BAD_RUN n) = s.fget (F.TRK_STAT.BAD_RUN n) := hget (cellWord_stat hn)
  have hloss : u.lossOf n = max 2 (s.fget (F.TRK_DELIN_CFG.LOSS n)) := congrArg (max 2) (hget (cellWord_delinCfg hn))
  have hstep := State.syncCell_bad (ph := ph) hf hw
  dsimp only at hstep
  rw [show u.fget _ = _ from hrun, hloss] at hstep
  refine ⟨_, (exec_cellReceive_sync hc hp hr hlen hd ha).trans (congrArg _ hstep), ?_⟩
  have hcnt : u.rd64 (O.TRK_CNT n 4) = s.rd64 (O.TRK_CNT n 4) := State.rd64_sdCount_laneRead hn (by decide)
  by_cases hlt : s.fget (F.TRK_STAT.BAD_RUN n) + 1 < max 2 (s.fget (F.TRK_DELIN_CFG.LOSS n))
  · have hsmall : s.fget (F.TRK_STAT.BAD_RUN n) + 1 < 2 ^ 4 :=
      hlt.trans (max_lt (by decide) (s.fget_lt (F.TRK_DELIN_CFG.LOSS n)))
    rw [if_pos hlt]
    refine ⟨?_, fun _ => ⟨?_, ?_⟩, fun h => absurd hlt (Nat.not_lt.mpr h)⟩
    · rw [State.rd64_fset_stat _ rfl, State.rd64_trkCnt_self, ← hcnt]
    · exact (State.fget_fset_self _ _ _ (by decide : 12 + 4 ≤ 32)).trans (Nat.mod_eq_of_lt hsmall)
    · rw [State.fget_fset_ne _ _ _ _ (.inr (.inr (by decide : 4 + 2 ≤ 12))),
        State.fget_trkCnt _ _ _ _ (by decide) (stat_beside_counters n),
        ← hd]
      exact hget (cellWord_stat hn)
  · rw [if_neg hlt]
    refine ⟨?_, fun h => absurd h hlt, fun _ => ⟨State.delin_delinLoss _ hn, State.los_delinLoss _ hn⟩⟩
    rw [State.badHeaders_delinLoss _ hn, ← hcnt]

end

/-- The numbering restarts where no overhead cell came in time (R150). -/
theorem cellsReceived_timeout (hc : s.cellTrunk n = true) (hp : (s.trunk n).pos = some k) (hk : s.cellsOf n + 1 ≤ k) :
    ∃ t, exec (.superframeTimeout n) s = .next t ∧ (t.trunk n).pos = some (k - s.cellsOf n) ∧ (t.trunk n).broken = true ∧
      t.rd64 (O.TRK_CNT n 19) = (s.rd64 (O.TRK_CNT n 19) + 1) % 2 ^ 64 := by
  have hstep : s.sfTimeout n =
      (s.setTrunk n { s.trunk n with pos := some (k - s.cellsOf n), broken := true }).trkCnt n 19 := by
    unfold State.sfTimeout
    rw [hp]
    exact if_pos hk
  refine ⟨_, (if_pos hc).trans (congrArg _ hstep), ?_⟩
  rw [State.trunk_trkCnt, State.trunk_setTrunk_self, State.rd64_trkCnt_self, State.rd64_setTrunk]
  exact ⟨rfl, rfl, rfl⟩

end

/-- Settles O24: the first header in HUNT, the cells in SYNC by their headers, and the superframe timeout. -/
theorem cellsReceived : Obligations.CellsReceived := by
  refine ⟨fun s n ofs ph bs hc hp hr hlen ho hf =>
      ⟨cellsReceived_found hc hp hr hlen ho hf, cellsReceived_candidate hc hp hr hlen ho hf⟩, ?_, ?_, ?_⟩
  · intro s n w ph bs hc hp hr hlen hd ha h hw hj
    have hfix := State.fixedHeader_some hw
    exact ⟨cellsReceived_idle hc hp hr hlen hd ha hfix hj, cellsReceived_start hc hp hr hlen hd ha hfix hj⟩
  · intro s n ph bs hc hp hr hlen hd ha hf hw
    exact cellsReceived_bad hc hp hr hlen hd ha hf (State.fixedHeader_none hf hw)
  · exact fun s n k => cellsReceived_timeout

end Sys2Proof.Machine

namespace Sys2Proof.Machine

/-! ## The setting of a trunk, its lane and its far end (05_trunk_cells.md R131 to R133, R141, R146) -/

/-! ### TRK_CFG -/

/-- TRK_CFG (R131): KEEP_ERR, HCORR, MODE, EN. -/
def trkCfgRow : RegRow :=
  ⟨0x020000, [⟨0x4000, 0, .trunk⟩], .half, 1, false,
    [⟨7, 1, .rw, 0, 0⟩, ⟨6, 1, .rw, 1, 1⟩, ⟨2, 2, .rwc, 0, 0⟩, ⟨0, 1, .rw, 0, 0⟩]⟩

/-- Its fields as they are in CONFIG, where MODE is written like the others. -/
def trkCfgFields : List FieldRow := [⟨7, 1, .rw, 0, 0⟩, ⟨6, 1, .rw, 1, 1⟩, ⟨2, 2, .rw, 0, 0⟩, ⟨0, 1, .rw, 0, 0⟩]

theorem trkCfg_hit {n : Nat} (hn : n < 2) : hitOf .x (O.TRK_CFG n) = some ⟨trkCfgRow, [n], 0⟩ ∧
    absentBits .x (O.TRK_CFG n) = 0 ∧ stuckOnes .x (O.TRK_CFG n) = 0 := by
  have h : ∀ n < 2, hitOf .x (O.TRK_CFG n) = some ⟨trkCfgRow, [n], 0⟩ ∧
      absentBits .x (O.TRK_CFG n) = 0 ∧ stuckOnes .x (O.TRK_CFG n) = 0 := by decide +kernel
  exact h n hn

theorem trkCfgFields_rw : ∀ f ∈ trkCfgFields, f.acc = .rw := by decide

theorem writtenBits_trkCfg (sealed : Bool) (old d : Word) :
    writtenBits true sealed trkCfgRow.fields 0 old d = writtenBits true sealed trkCfgFields 0 old d := rfl

theorem trkCfg_low {n : Nat} (hn : n < 2) : O.TRK_CFG n < O.IRQ_PEND 0 := by
  simp only [O.TRK_CFG, O.IRQ_PEND]
  omega

/-- BLK_MODE and TRK_CFG are no status words of a trunk. -/
theorem blkMode_ne_trunk (n : Nat) : O.BLK_MODE ≠ O.TRK_CFG n ∧ O.BLK_MODE ≠ O.TRK_STAT n := by
  simp only [O.BLK_MODE, O.TRK_CFG, O.TRK_STAT]
  omega

section
variable {s t : State} {n : Nat} {data : Word}

/-- In CONFIG a write of TRK_CFG stores the data's MODE and EN, and nothing else of the state differs. -/
theorem State.writeFields_trkCfg (hn : n < 2) (hx : s.cfg = .x) (hm : s.mode = 2) (d : Word) :
    ∃ w, s.writeFields (O.TRK_CFG n) d = s.wr (O.TRK_CFG n) w ∧ getBits w 2 2 = getBits d 2 2 ∧ bitOf w 0 = bitOf d 0 := by
  obtain ⟨hit, habs, hstuck⟩ := trkCfg_hit hn
  rw [← hx] at hit habs hstuck
  have hw : s.writtenWord (O.TRK_CFG n) d =
      writtenBits true (s.flag F.CHK_SEAL.SEALED) trkCfgFields 0 (s.rd (O.TRK_CFG n)) d := by
    rw [State.writtenWord_eq hit habs hstuck, decide_eq_true hm]
    exact writtenBits_trkCfg _ _ _
  have hok : (s.writtenWord (O.TRK_CFG n) d).2 = false := by rw [hw, writtenBits_rw trkCfgFields_rw]
  refine ⟨(s.writtenWord (O.TRK_CFG n) d).1, ?_, ?_, bitOf_of_getBits ?_⟩
  · rw [State.writeFields_flat hit rfl, hok, if_neg Bool.false_ne_true]
  · rw [hw]
    exact getBits_writtenBits (k := 2) trkCfgFields_rw rfl rfl rfl (by decide) (by decide) _ _ _ _
  · rw [hw]
    exact getBits_writtenBits (k := 3) trkCfgFields_rw rfl rfl rfl (by decide) (by decide) _ _ _ _

/-- TRK_CFG as a write leaves it, before the trunk follows: with EN = 1 in CONFIG a change of MODE is refused (R132). -/
def State.cfgStored (s : State) (n : Nat) (data : Word) : State :=
  if getBits data 2 2 ≠ s.fget (F.TRK_CFG.MODE n) ∧ s.flag (F.TRK_CFG.EN n) = true ∧ s.mode = 2 then
    (s.writeFields (O.TRK_CFG n) (setBits data 2 2 (s.fget (F.TRK_CFG.MODE n)))).setFlag (F.TRK_STAT.CFG_ERR n) (srcTrunk s.cfg n)
  else s.writeFields (O.TRK_CFG n) data

/-- A new MODE is a new rate of the lane. -/
def State.rateShown (s t : State) (n : Nat) : State :=
  if t.fget (F.TRK_CFG.MODE n) = s.fget (F.TRK_CFG.MODE n) then t else t.emit (.rate n (t.fget (F.TRK_CFG.MODE n)))

/-- A write of TRK_CFG, by what becomes of EN. -/
theorem State.trkCfgWrite_eq (h : ¬ (s.cfg = .s ∧ (getBits data 2 2 = 1 ∨ getBits data 2 2 = 3))) :
    s.trkCfgWrite n data =
      let t := s.rateShown (s.cfgStored n data) n
      if t.flag (F.TRK_CFG.EN n) = s.flag (F.TRK_CFG.EN n) then t
      else if t.flag (F.TRK_CFG.EN n) then t.trunkStart n else t.trunkStop n := if_neg h

/-- From `s` to `t` Gweip-X stays in CONFIG and drives no output. -/
structure Configured (s t : State) : Prop where
  mode : t.mode = 2
  out : t.out = s.out
  cfg : t.cfg = .x

/-- A plain store of TRK_CFG. -/
theorem Configured.writeFields (hn : n < 2) (hx : s.cfg = .x) (hm : s.mode = 2) (d : Word) :
    Configured s (s.writeFields (O.TRK_CFG n) d) ∧
      (s.writeFields (O.TRK_CFG n) d).flag (F.TRK_CFG.EN n) = bitOf d 0 ∧
      (s.writeFields (O.TRK_CFG n) d).fget (F.TRK_CFG.MODE n) = getBits d 2 2 := by
  obtain ⟨w, hw, hmode, hen⟩ := State.writeFields_trkCfg hn hx hm d
  obtain ⟨hne, -⟩ := blkMode_ne_trunk n
  rw [hw]
  refine ⟨⟨?_, State.wr_out _ _ _, (State.wr_cfg _ _ _).trans hx⟩, ?_, ?_⟩
  · exact (congrArg (getBits · 0 3) (State.rd_wr_ne _ _ hne)).trans hm
  · rw [State.flag_eq_bitOf _ rfl, ← hen]
    exact congrArg (bitOf · 0) (State.rd_wr_self _ _ _)
  · rw [← hmode]
    exact congrArg (getBits · 2 2) (State.rd_wr_self _ _ _)

/-- EN is written; MODE is written where EN was 0. -/
theorem State.cfgStored_config (hn : n < 2) (hx : s.cfg = .x) (hm : s.mode = 2) :
    Configured s (s.cfgStored n data) ∧ (s.cfgStored n data).flag (F.TRK_CFG.EN n) = bitOf data 0 ∧
      (s.cfgStored n data).fget (F.TRK_CFG.MODE n) =
        if s.flag (F.TRK_CFG.EN n) then s.fget (F.TRK_CFG.MODE n) else getBits data 2 2 := by
  by_cases hc : getBits data 2 2 ≠ s.fget (F.TRK_CFG.MODE n) ∧ s.flag (F.TRK_CFG.EN n) = true ∧ s.mode = 2
  · obtain ⟨-, hen, -⟩ := id hc
    obtain ⟨⟨hmode, hout, hcfg⟩, hbit, hold⟩ :=
      Configured.writeFields hn hx hm (setBits data 2 2 (s.fget (F.TRK_CFG.MODE n)))
    have hbeside (g : Fld) (hg : g.off = O.TRK_CFG n) : (F.TRK_STAT.CFG_ERR n).Beside g := .inl (hg ▸ cfg_ne_stat n)
    rw [State.cfgStored, if_pos hc, if_pos hen, State.flag_setFlag_beside _ _ (trkCfg_low hn) (hbeside _ rfl), hbit,
      State.fget_setFlag_beside _ _ (trkCfg_low hn) (hbeside _ rfl), hold, getBits_setBits_self _ _ (by decide)]
    refine ⟨⟨?_, (State.setFlag_out _ _ _).trans hout, (State.setFlag_cfg _ _ _).trans hcfg⟩, bitOf_of_getBits ?_, ?_⟩
    · obtain ⟨-, hne⟩ := blkMode_ne_trunk n
      exact (State.fget_setFlag_beside _ _ (by decide) (.inl hne)).trans hmode
    · exact getBits_setBits_ne _ _ (.inr (by decide))
    · exact Nat.mod_eq_of_lt (s.fget_lt _)
  · obtain ⟨hset, hbit, hmode⟩ := Configured.writeFields hn hx hm data
    rw [State.cfgStored, if_neg hc, hbit, hmode]
    refine ⟨hset, rfl, ?_⟩
    split
    · next hen =>
      by_contra hne
      exact hc ⟨hne, hen, hm⟩
    · rfl

/-- With EN = 1 the rate stays. -/
theorem State.rateShown_enabled (hn : n < 2) (hx : s.cfg = .x) (hm : s.mode = 2) (hen : s.flag (F.TRK_CFG.EN n) = true) :
    s.rateShown (s.cfgStored n data) n = s.cfgStored n data := by
  obtain ⟨-, -, hmode⟩ := State.cfgStored_config (data := data) hn hx hm
  exact if_pos (hmode.trans (if_pos hen))

theorem State.fget_rateShown (s t : State) (n : Nat) (g : Fld) : (s.rateShown t n).fget g = t.fget g := by
  unfold State.rateShown
  split
  · rfl
  · exact State.fget_emit _ _ _

theorem State.flag_rateShown (s t : State) (n : Nat) (g : Fld) : (s.rateShown t n).flag g = t.flag g := by
  unfold State.flag
  rw [State.fget_rateShown]

end

/-! ### EN falls and rises in CONFIG -/

section
variable {s t : State} {n : Nat} {g : Fld}

theorem State.fget_setEff (hg : g.Spared) (s : State) (n : Nat) (p : Nat × Nat) : (s.setEff n p).fget g = s.fget g := by
  have hset : (s.fsets [(F.TRK_PROT_STAT.EFF_CODE n, p.1), (F.TRK_PROT_STAT.EFF_ORIG n, p.2)]).fget g = s.fget g := by
    rw [State.fsets_cons, State.fsets_cons, State.fsets_nil]
    exact (State.fget_fset_protStat hg _ _ _ _ _).trans (State.fget_fset_protStat hg _ _ _ _ _)
  unfold State.setEff
  split
  · rfl
  dsimp only
  split
  · rw [State.fget_flushRing hg, hset]
  · exact hset

theorem State.fget_sourceUpdate (hg : g.Block) (s : State) : s.sourceUpdate.fget g = s.fget g := by
  have hcs (u : State) (lo wd v : Nat) : (u.fset ⟨O.TRK_CS_STAT, lo, wd⟩ v).fget g = u.fget g :=
    State.fget_fset_unit hg _ _ _ (by decide : 0x010000 ≤ O.TRK_CS_STAT)
  have hsource (u : State) (m : Nat) : (u.showSource m).fget g = u.fget g :=
    (hcs _ _ _ _).trans ((hcs _ _ _ _).trans ((hcs _ _ _ _).trans (hcs _ _ _ _)))
  unfold State.sourceUpdate
  split
  · split
    · exact hsource _ _
    · exact hcs _ _ _ _
  · rfl

/-- A field of another register than the two that follow the delineation, beside the counters. -/
theorem State.fget_syncLeft (s : State) (h1 : g.off ≠ O.TRK_STAT n) (h2 : g.off ≠ O.TRK_SF_STAT n)
    (hc : g.off % 0x4000 < 0x100 ∨ 0x200 ≤ g.off % 0x4000) : (s.syncLeft n).fget g = s.fget g := by
  unfold State.syncLeft
  extract_lets v a b held
  rw [State.delinSet, State.fsets_cons, State.fsets_cons, State.fsets_cons, State.fsets_nil, State.fget_fset_ne _ _ _ _ (.inl h2),
    State.fget_fset_ne _ _ _ _ (.inl h1), State.fget_fset_ne _ _ _ _ (.inl h1), State.fget_setTrunk, State.fget_setTrunk]
  exact State.fget_trkCntAdd _ _ _ _ g (by decide) hc

/-- The network's upkeep does not leave CONFIG. -/
theorem State.fixDegraded_config (h : s.mode = 2) : s.fixDegraded = s :=
  State.fixDegraded_of_mode (by rw [h]; decide) (by rw [h]; decide)

theorem State.mode_sfUpdate (s : State) : s.sfUpdate.mode = s.mode := State.fget_sfUpdate mode_block.spared s

theorem State.mode_leaveSync (h : s.mode = 2) : (s.leaveSync n).mode = 2 := by
  have hleft : (s.syncLeft n).mode = 2 := by
    refine (State.fget_syncLeft s ?_ ?_ (by decide)).trans h <;>
      simp only [F.BLK_MODE.MODE, O.BLK_MODE, O.TRK_STAT, O.TRK_SF_STAT] <;> omega
  have hnet : ((s.syncLeft n).setEff n (0, 0)).sourceUpdate.sfUpdate.mode = 2 :=
    (State.mode_sfUpdate _).trans ((State.fget_sourceUpdate mode_block _).trans ((State.fget_setEff mode_block.spared _ _ _).trans hleft))
  exact (congrArg State.mode (State.fixDegraded_config hnet)).trans hnet

theorem State.en_leaveSync (hn : n < 2) : (s.leaveSync n).flag (F.TRK_CFG.EN n) = s.flag (F.TRK_CFG.EN n) := by
  rw [(s.leaveSync_cellsKept n).flag (g := F.TRK_CFG.EN n) (cellWord_cfg hn)]
  unfold State.flag
  rw [State.fget_syncLeft s (cfg_ne_stat n) (by simp only [F.TRK_CFG.EN, O.TRK_CFG, O.TRK_SF_STAT]; omega) (cfg_beside_counters n)]

theorem State.getLast_emit (s : State) (o : Out) : (s.emit o).out.getLast? = some o := List.getLast?_concat

/-- Signal Fail and the gear's readiness drive no output. -/
theorem State.out_network (s : State) : s.sfUpdate.gearOkCheck.out = s.out := by
  have hk : Keeps [.regs, .trunks, .node, .cls] s s.sfUpdate.gearOkCheck :=
    State.gearOkCheck_keeps (State.sfUpdate_keeps (.refl s) (Allows.refl _)) (Allows.mono (by decide) (Allows.refl _))
  exact hk.1 .out (by decide)

/-- A trunk whose EN has fallen in CONFIG. -/
theorem State.trunkStop_config (hn : n < 2) (hm : s.mode = 2) (hen : s.flag (F.TRK_CFG.EN n) = false) :
    (s.trunkStop n).out.getLast? = some (.trunkEn n false) ∧ ((s.trunkStop n).trunk n).txPos = none ∧
      ((s.trunkStop n).trunk n).urgent = [] := by
  unfold State.trunkStop
  extract_lets u v w
  have humode : u.mode = 2 := by
    unfold u
    split
    · exact hm
    · exact State.mode_leaveSync hm
  have huen : u.flag (F.TRK_CFG.EN n) = false := by
    unfold u
    split
    · exact hen
    · rw [State.en_leaveSync hn, hen]
  have hmode : (w.emit (.trunkEn n false)).sfUpdate.mode = 2 := by
    rw [State.mode_sfUpdate]
    exact (State.fget_emit _ _ _).trans ((State.fget_setTrunk _ _ _ _).trans humode)
  have hoff : (w.emit (.trunkEn n false)).cellTrunk n = false := by
    have hw : (w.emit (.trunkEn n false)).flag (F.TRK_CFG.EN n) = false := by
      rw [State.flag_emit]
      exact (State.flag_setTrunk _ _ _ _).trans huen
    unfold State.cellTrunk
    rw [hw]
    simp
  have hkept := (CellsKept.refl (w.emit (.trunkEn n false))).sfUpdate.gearOkCheck
  have htrunk : (w.emit (.trunkEn n false)).trunk n = _ := State.trunk_setTrunk_self u n _
  rw [State.fixDegraded_config hmode, State.out_network, State.getLast_emit]
  refine ⟨rfl, ?_, ?_⟩
  · exact (hkept.view Trunk.txPos (fun _ => rfl) n).trans (congrArg Trunk.txPos htrunk)
  · exact (hkept.urgent n hoff).trans (congrArg Trunk.urgent htrunk)

/-- A trunk whose EN has risen in CONFIG. -/
theorem State.trunkStart_config (hn : n < 2) (hm : s.mode = 2) :
    (s.trunkStart n).out.getLast? = some (.trunkEn n true) ∧ ((s.trunkStart n).trunk n).txSeq = [] ∧
      ((s.trunkStart n).trunk n).txHist = scrambleInit ∧ ∀ g : Fld, g.off = O.TRK_CFG n → (s.trunkStart n).fget g = s.fget g := by
  unfold State.trunkStart
  extract_lets v w u
  have hwmode : w.mode = 2 := (State.fget_setTrunk _ _ _ _).trans hm
  have hu : u = w.emit (.trunkEn n true) := if_neg (by rw [hwmode]; decide)
  have hmode : u.sfUpdate.mode = 2 := by
    rw [State.mode_sfUpdate, hu]
    exact (State.fget_emit _ _ _).trans hwmode
  have hcs : u.sfUpdate.csEnable = u.sfUpdate := if_neg fun h => by
    obtain ⟨h3, -⟩ := h
    exact absurd (hmode.symm.trans h3) (by decide)
  have hkept := (CellsKept.refl u).sfUpdate.gearOkCheck
  have hfresh : (u.trunk n).txSeq = [] ∧ (u.trunk n).txHist = scrambleInit := by
    rw [hu, State.trunk_emit, State.trunk_setTrunk_self]
    exact ⟨rfl, rfl⟩
  obtain ⟨hseq, hhist⟩ := hfresh
  rw [hcs, State.out_network, hu, State.getLast_emit, ← hu]
  refine ⟨rfl, ?_, ?_, fun g hg => ?_⟩
  · exact (hkept.view Trunk.txSeq (fun _ => rfl) n).trans hseq
  · exact (hkept.view Trunk.txHist (fun _ => rfl) n).trans hhist
  · rw [hkept.fget (hg ▸ cellWord_cfg hn), hu, State.fget_emit]
    exact State.fget_setTrunk _ _ _ _

end

/-! ### The writes of TRK_CFG -/

section
variable {s : State} {n key : Nat} {data : Word} (hr : s.Reaches (O.TRK_CFG n) key)
include hr

theorem exec_trkCfgWrite : exec (.trkCfgWrite 0 n data) s = .next ((s.answer false 0).trkCfgWrite n data) :=
  congrArg Host.Outcome.next (hr.access _)

/-- Gweip-S lacks the modes 1 and 3 (R131). -/
theorem trunkSetting_absentMode (hs : s.cfg = .s) (hn : n < 2) (hm : getBits data 2 2 = 1 ∨ getBits data 2 2 = 3) :
    ∃ t, exec (.trkCfgWrite 0 n data) s = .next t ∧ t.flag (F.TRK_STAT.CFG_ERR n) = true ∧
      t.rd (O.TRK_CFG n) = s.rd (O.TRK_CFG n) := by
  obtain ⟨u, hu, hrd⟩ : ∃ u : State, (s.answer false 0).trkCfgWrite n data = u.setFlag (F.TRK_STAT.CFG_ERR n) (srcTrunk u.cfg n) ∧
      ∀ k, u.rd k = s.rd k := by
    refine ⟨_, if_pos ⟨hs, hm⟩, fun k => ?_⟩
    split
    · exact State.rd_answer _ _ _ _
    · exact (State.rd_deny _ _).trans (State.rd_answer _ _ _ _)
  refine ⟨_, (exec_trkCfgWrite hr).trans (congrArg _ hu), ?_, ?_⟩
  · exact State.flag_setFlag_self _ _ (stat_low hn) (by decide : 3 + 1 ≤ 32) (by decide : 1 < 2 ^ 1)
  rw [State.setFlag_lowWords _ _ _ _ (trkCfg_low hn) (List.mem_singleton.not.mpr (cfg_ne_stat n)), hrd]

variable (hx : s.cfg = .x)
include hx

/-- A write in Gweip-X, by what becomes of EN. -/
theorem exec_trkCfgWrite_full : exec (.trkCfgWrite 0 n data) s = .next (
    let u := s.answer false 0
    let t := u.rateShown (u.cfgStored n data) n
    if t.flag (F.TRK_CFG.EN n) = s.flag (F.TRK_CFG.EN n) then t
    else if t.flag (F.TRK_CFG.EN n) then t.trunkStart n else t.trunkStop n) := by
  refine (exec_trkCfgWrite hr).trans (congrArg _ ((State.trkCfgWrite_eq fun h => ?_).trans ?_))
  · obtain ⟨hs, -⟩ := h
    exact Cfg.noConfusion (hx.symm.trans hs)
  · rw [State.flag_answer]

variable (hn : n < 2) (hm : s.mode = 2)
include hn hm

/-- A change of MODE with EN = 1 in CONFIG (R132). -/
theorem trunkSetting_modeKept (hen : s.flag (F.TRK_CFG.EN n) = true) (hb : bitOf data 0 = true)
    (hne : getBits data 2 2 ≠ s.fget (F.TRK_CFG.MODE n)) :
    ∃ t, exec (.trkCfgWrite 0 n data) s = .next t ∧ t.flag (F.TRK_STAT.CFG_ERR n) = true ∧
      t.fget (F.TRK_CFG.MODE n) = s.fget (F.TRK_CFG.MODE n) ∧ t.out = s.out := by
  have hm' : (s.answer false 0).mode = 2 := (State.fget_answer _ _ _ _).trans hm
  have hen' : (s.answer false 0).flag (F.TRK_CFG.EN n) = true := (State.flag_answer _ _ _ _).trans hen
  obtain ⟨hset, hbit, hmode⟩ := State.cfgStored_config (s := s.answer false 0) (data := data) hn hx hm'
  rw [if_pos hen', State.fget_answer] at hmode
  have hrate := State.rateShown_enabled (s := s.answer false 0) (data := data) hn hx hm' hen'
  refine ⟨_, (exec_trkCfgWrite_full hr hx).trans (congrArg _ (if_pos ?_)), ?_⟩
  · rw [hrate, hbit, hb, hen]
  · rw [hrate]
    refine ⟨?_, hmode, hset.out⟩
    rw [State.cfgStored, if_pos ⟨(State.fget_answer _ _ _ _).symm ▸ hne, hen', hm'⟩]
    exact State.flag_setFlag_self _ _ (stat_low hn) (by decide : 3 + 1 ≤ 32) (by decide : 1 < 2 ^ 1)

/-- EN falls in CONFIG (R141, R146). -/
theorem trunkSetting_stopped (hen : s.flag (F.TRK_CFG.EN n) = true) (hb : bitOf data 0 = false) :
    ∃ t, exec (.trkCfgWrite 0 n data) s = .next t ∧ t.out.getLast? = some (.trunkEn n false) ∧ (t.trunk n).txPos = none ∧
      (t.trunk n).urgent = [] := by
  have hm' : (s.answer false 0).mode = 2 := (State.fget_answer _ _ _ _).trans hm
  have hen' : (s.answer false 0).flag (F.TRK_CFG.EN n) = true := (State.flag_answer _ _ _ _).trans hen
  obtain ⟨hset, hbit, -⟩ := State.cfgStored_config (s := s.answer false 0) (data := data) hn hx hm'
  have hrate := State.rateShown_enabled (s := s.answer false 0) (data := data) hn hx hm' hen'
  rw [hb] at hbit
  refine ⟨_, (exec_trkCfgWrite_full hr hx).trans (congrArg _ ((if_neg ?_).trans (if_neg ?_))), ?_⟩
  · rw [hrate, hbit, hen]
    exact Bool.false_ne_true
  · rw [hrate, hbit]
    exact Bool.false_ne_true
  · rw [hrate]
    exact State.trunkStop_config hn hset.mode hbit

/-- EN rises in CONFIG (R140, R146, R152). -/
theorem trunkSetting_started (hen : s.flag (F.TRK_CFG.EN n) = false) (hb : bitOf data 0 = true) :
    ∃ t, exec (.trkCfgWrite 0 n data) s = .next t ∧ t.flag (F.TRK_CFG.EN n) = true ∧
      t.fget (F.TRK_CFG.MODE n) = getBits data 2 2 ∧ t.out.getLast? = some (.trunkEn n true) ∧ (t.trunk n).txSeq = [] ∧
      (t.trunk n).txHist = scrambleInit := by
  have hm' : (s.answer false 0).mode = 2 := (State.fget_answer _ _ _ _).trans hm
  obtain ⟨hset, hbit, hmode⟩ := State.cfgStored_config (s := s.answer false 0) (data := data) hn hx hm'
  rw [hb, ← State.flag_rateShown (s.answer false 0) _ n] at hbit
  rw [State.flag_answer, hen, if_neg Bool.false_ne_true, ← State.fget_rateShown (s.answer false 0) _ n] at hmode
  obtain ⟨hout, hseq, hhist, hkept⟩ := State.trunkStart_config hn ((State.fget_rateShown (s.answer false 0) _ n _).trans hset.mode)
  refine ⟨_, (exec_trkCfgWrite_full hr hx).trans (congrArg _ ((if_neg ?_).trans (if_pos hbit))), ?_, ?_, hout, hseq, hhist⟩
  · rw [hbit, hen]
    exact Bool.noConfusion
  · exact (congrArg (fun v => decide (v ≠ 0)) (hkept _ rfl)).trans hbit
  · exact (hkept _ rfl).trans hmode

end

/-! ### The lane's lock and a link fault -/

section
variable {s : State} {n f : Nat}

/-- What follows a change of PMA_LOCK at the receiver (R141). -/
def State.lockFollowed (s : State) (n : Nat) (level : Bool) : State :=
  if level then s else if s.fget (F.TRK_STAT.DELIN n) = 2 then s.delinLoss n
  else if s.fget (F.TRK_STAT.DELIN n) = 1 then s.leaveSync n else s

theorem State.pmaLock_lockFollowed (hn : n < 2) (level : Bool) :
    ((s.lockFollowed n level).trunk n).pmaLock = (s.trunk n).pmaLock ∧
      (s.lockFollowed n level).flag (F.TRK_STAT.PMA_LOCK n) = s.flag (F.TRK_STAT.PMA_LOCK n) := by
  unfold State.lockFollowed
  split
  · exact ⟨rfl, rfl⟩
  split
  · exact ⟨State.pmaLock_delinLoss _, State.pmaFlag_delinLoss _ hn⟩
  split
  · exact ⟨State.pmaLock_leaveSync _, congrArg (fun v => decide (v ≠ 0)) (State.fget_leaveSync _ hn (pmaLock_statBeside n))⟩
  · exact ⟨rfl, rfl⟩

/-- PMA_LOCK changes; its fall in SYNC loses the delineation (R141). -/
theorem trunkSetting_pmaLock (level : Bool) (hn : n < s.cfg.trunks) :
    ∃ t, exec (.pmaLockChange n level) s = .next t ∧ (t.trunk n).pmaLock = level ∧ t.flag (F.TRK_STAT.PMA_LOCK n) = level ∧
      (level = false → s.fget (F.TRK_STAT.DELIN n) = 2 →
        t.fget (F.TRK_STAT.DELIN n) = 0 ∧ t.flag (F.TRK_STAT.LOS n) = true) := by
  have hn2 : n < 2 := hn.trans_le (Cfg.trunks_le_two _)
  let u := (s.setTrunk n { s.trunk n with pmaLock := level }).fset (F.TRK_STAT.PMA_LOCK n) (b2n level)
  obtain ⟨hlock, hflag⟩ := u.pmaLock_lockFollowed hn2 level
  have hkept := (CellsKept.refl (u.lockFollowed n level)).sfUpdate.fixDegraded
  have hstat (g : Fld) (hg : g.off = O.TRK_STAT n) : CellWord g.off := hg ▸ cellWord_stat hn2
  have hexec : exec (.pmaLockChange n level) s = .next (u.lockFollowed n level).sfUpdate.fixDegraded := if_pos hn
  refine ⟨_, hexec, ?_, ?_, ?_⟩
  · refine ((hkept.view Trunk.pmaLock (fun _ => rfl) n).trans hlock).trans ?_
    exact congrArg Trunk.pmaLock ((State.trunk_fset _ _ _ _).trans (State.trunk_setTrunk_self _ _ _))
  · refine ((hkept.flag (hstat _ rfl)).trans hflag).trans ?_
    exact State.flag_fset_b2n _ (by decide : 8 + 1 ≤ 32) rfl level
  · rintro rfl hd
    have hdu : u.fget (F.TRK_STAT.DELIN n) = 2 :=
      (State.fget_fset_ne _ _ _ _ (.inr (.inr (by decide : 4 + 2 ≤ 8)))).trans ((State.fget_setTrunk _ _ _ _).trans hd)
    have hloss : u.lockFollowed n false = u.delinLoss n := (if_neg Bool.false_ne_true).trans (if_pos hdu)
    rw [hloss] at hkept ⊢
    refine ⟨?_, ?_⟩
    · exact (hkept.fget (hstat _ rfl)).trans (State.delin_delinLoss _ hn2)
    · exact (hkept.flag (hstat _ rfl)).trans (State.los_delinLoss _ hn2)

theorem State.breakTx_none {p : Nat} (h : (s.port p).tx = none) : s.breakTx p = s := by
  unfold State.breakTx
  extract_lets v u
  rw [show v.tx = none from h]

theorem State.tx_breakTx (s : State) (p : Nat) : ((s.breakTx p).port p).tx = none := by
  unfold State.breakTx
  extract_lets v u
  split
  · next h => exact h
  · next c h =>
    have hu : (u.port p).tx = none := by
      unfold u
      rw [State.port_fset, State.port_setPort_self]
    split
    · rw [(u.copyGone_traffic p c false 0).tx, hu]
    · exact hu

theorem State.breakTx_keeps_self (s : State) (p : Nat) : Keeps [.regs, .frames, .ports, .emem, .qps, .mem] s (s.breakTx p) :=
  State.breakTx_keeps (.refl s) p (Allows.refl _)

/-- A link fault received in BASE-R mode (R133). -/
theorem trunkSetting_linkFault (hn : n < s.cfg.trunks) (hen : s.flag (F.TRK_CFG.EN n) = true)
    (hm : 2 ≤ s.fget (F.TRK_CFG.MODE n)) (hf : f < 3) (hl : s.stopped (8 + n) false = false) (hne : (s.trunk n).fault ≠ f) :
    ∃ t, exec (.linkFaultReceive n f) s = .next t ∧ (t.trunk n).fault = f ∧
      t.out = (if s.stopped (8 + n) true then s.out else s.out ++ [.mii n f]) ∧
      (f ≠ 0 → (t.port (8 + n)).tx = none) ∧ ((f = 0 ∨ (s.port (8 + n)).tx = none) → t.regs = s.regs) := by
  let v := s.setTrunk n { s.trunk n with fault := f }
  let u := if v.stopped (8 + n) true then v else v.emit (.mii n f)
  have hstop : v.stopped (8 + n) true = s.stopped (8 + n) true := by
    unfold State.stopped
    rw [if_neg (by omega), if_neg (by omega), Nat.add_sub_cancel_left, State.trunk_setTrunk_self]
    rfl
  have hu : (u.trunk n).fault = f ∧ u.out = (if s.stopped (8 + n) true then s.out else s.out ++ [.mii n f]) ∧
      (u.port (8 + n)).tx = (s.port (8 + n)).tx ∧ u.regs = s.regs := by
    have hfault : (v.trunk n).fault = f := congrArg Trunk.fault (State.trunk_setTrunk_self s n _)
    unfold u
    rw [hstop]
    split <;> exact ⟨hfault, rfl, rfl, rfl⟩
  obtain ⟨hfault, hout, htx, hregs⟩ := hu
  have hexec : exec (.linkFaultReceive n f) s = if f = 0 then .next u else .next (u.breakTx (8 + n)) := by
    refine (if_pos ⟨hn, hen, hm, hl⟩).trans ?_
    rw [if_pos hf]
    exact if_neg hne
  rw [hexec]
  by_cases h0 : f = 0
  · exact ⟨u, if_pos h0, hfault, hout, fun h => absurd h0 h, fun _ => hregs⟩
  · have hk := u.breakTx_keeps_self (8 + n)
    refine ⟨u.breakTx (8 + n), if_neg h0, ?_, (hk.1 .out (by decide)).trans hout, fun _ => u.tx_breakTx _, fun h => ?_⟩
    · rw [← hfault]
      unfold State.trunk
      rw [hk.1 .trunks (by decide)]
    · rw [State.breakTx_none (htx.trans (h.resolve_left h0)), hregs]

end

/-- Settles O23: the writes of TRK_CFG, a change of PMA_LOCK and a link fault. -/
theorem trunkSettingAndLane : Obligations.TrunkSettingAndLane :=
  ⟨fun _ _ _ _ hs hn hr hm => trunkSetting_absentMode hr hs (hn.trans (by decide)) hm,
    fun _ _ _ _ hx hn hr hm hen hb hne => trunkSetting_modeKept hr hx hn hm hen hb hne,
    fun _ _ _ _ hx hn hr hm hen hb => trunkSetting_stopped hr hx hn hm hen hb,
    fun _ _ _ _ hx hn hr hm hen hb => trunkSetting_started hr hx hn hm hen hb,
    fun _ _ level hn => trunkSetting_pmaLock level hn,
    fun _ _ _ hn hen hm hf hl hne => trunkSetting_linkFault hn hen hm hf hl hne⟩

end Sys2Proof.Machine

namespace Sys2Proof.Machine

/-! ## Cold start (06_trunk_overhead_gears_protection.md R171) -/

section
variable {s : State} {g : Fld}

/-- JOINED stands in the words of the time bases. -/
theorem State.fget_setJoined_below (s : State) (v : Nat) (hg : g.off < O.TB_STAT) : (s.setJoined v).fget g = s.fget g :=
  State.fget_forEach _ fun n u => u.fget_fset_ne _ _ _ (.inl (by simp only [tbFld, F.TB_STAT.JOINED]; omega))

/-- The trigger outputs write their own status words. -/
theorem State.fget_syncTrigs_below (s : State) (hg : g.off < O.TB_STAT) : s.syncTrigs.fget g = s.fget g := by
  simp only [O.TB_STAT] at hg
  refine State.fget_forEach _ fun n u => (u.syncTrig_lowWords n).fget g (by simp only [O.IRQ_PEND]; omega) ?_
  rw [List.mem_singleton, O.CTU_TRIG_STAT]
  omega

@[simp] theorem State.fget_stopFrames (s : State) (g : Fld) : s.stopFrames.fget g = s.fget g :=
  State.fget_forEach _ fun _ _ => State.fget_setTrunk _ _ _ _

/-- A capable node begins to send cold-start cells at the end of the listen time. -/
theorem coldStart_sends (hs : s.csState = 1) (hc : s.flag F.TRK_NODE.CS_CAP = true) :
    ∃ t, exec .listenTimerExpiry s = .next t ∧ t.csState = 2 ∧ t.node.cold = 0 ∧ t.fget F.TRK_CS_STAT.MASTER_ID = s.nodeId ∧
      t.fget F.TRK_CS_STAT.HOPS = 0 := by
  have hid : s.nodeId < 256 := s.fget_lt _
  refine ⟨_, if_pos ⟨hs, hc⟩, ?_, ?_, ?_, ?_⟩
  · exact State.fget_fset_self _ _ _ (by decide)
  · simp [State.csSet]
  · simp (disch := decide) only [State.csSet, State.fsets_cons, State.fsets_nil, State.fget_fset_ne, State.fget_fset_self]
    exact Nat.mod_eq_of_lt hid
  · simp (disch := decide) only [State.csSet, State.fsets_cons, State.fsets_nil, State.fget_fset_ne, State.fget_fset_self]
    rfl

/-- The node is MASTER after 8 cold-start superframes. -/
theorem coldStart_master (hs : s.csState = 2) (hc : 8 ≤ s.node.cold) :
    ∃ t, exec .coldsendComplete s = .next t ∧ t.csState = 5 := by
  refine ⟨_, if_pos ⟨hs, hc⟩, ?_⟩
  have hlow : F.TRK_CS_STAT.STATE.off < O.TB_STAT := by decide
  exact (State.fget_syncTrigs_below _ hlow).trans
    ((State.fget_setJoined_below _ 1 hlow).trans (State.fget_fset_self _ _ _ (by decide)))

/-- What a return to LISTEN leaves in the node. -/
theorem State.csListen_fields (s : State) :
    s.csListen.csState = 1 ∧ s.csListen.fget F.TRK_CS_STAT.HOPS = 255 ∧ s.csListen.node.integ = 0 := by
  unfold State.csListen State.csState State.csSet
  refine ⟨?_, ?_, ?_⟩
  · exact (State.fget_stopFrames _ _).trans (State.fget_fset_self _ _ _ (by decide))
  · rw [State.fget_stopFrames, State.fget_fset_ne _ _ _ _ (by decide), State.fget_fset_self _ _ _ (by decide)]
    rfl
  · have hk (u : State) : Keeps [.trunks] u u.stopFrames := State.stopFrames_keeps (.refl u) (Allows.refl _)
    rw [(hk _).1 .node (by decide)]
    simp

/-- The source of an integrating node is lost. -/
theorem coldStart_sourceLost (hs : s.csState = 3) (ha : 3 ≤ (s.trunk (s.fget F.TRK_CS_STAT.SRC)).age) :
    ∃ t, exec .sourceLossTimeout s = .next t ∧ t.csState = 1 ∧ t.fget F.TRK_CS_STAT.HOPS = 255 ∧ t.node.integ = 0 :=
  ⟨_, if_pos ⟨hs, ha⟩, s.csListen_fields⟩

end

/-- Settles O27: the end of the listen time, of the cold-start superframes, and the loss of the source. -/
theorem coldStart : Obligations.ColdStart :=
  ⟨fun _ hs hc => coldStart_sends hs hc, fun _ hs hc => coldStart_master hs hc, fun _ hs ha => coldStart_sourceLost hs ha⟩

end Sys2Proof.Machine

namespace Sys2Proof.Machine

/-! ## Slot tables and gears (06_trunk_overhead_gears_protection.md R174, R175) -/

/-! ### TRK_SLOT_DATA -/

section
variable {s : State} {n key : Nat} {data : Word}

@[simp] theorem State.slotNext_slots (s : State) (n : Nat) : (s.slotNext n).slots = s.slots := by
  unfold State.slotNext
  split
  · exact State.fset_slots _ _ _
  · rfl

@[simp] theorem State.slotNext_slv (s : State) (n : Nat) : (s.slotNext n).slv = s.slv := by
  unfold State.slotNext
  split
  · exact State.fset_slv _ _ _
  · rfl

theorem State.slotNow_lt (s : State) (n : Nat) : s.slotNow n < 496 := by
  unfold State.slotNow
  omega

/-- The address goes on under AUTOINC. -/
theorem State.slot_slotNext (s : State) (n : Nat) : (s.slotNext n).fget (F.TRK_SLOT_ADDR.SLOT n) =
    if s.flag (F.TRK_SLOT_ADDR.AUTOINC n) then (s.slotNow n + 1) % 496 else s.fget (F.TRK_SLOT_ADDR.SLOT n) := by
  unfold State.slotNext
  split
  · refine (State.fget_fset_self _ _ _ (by decide : 0 + 9 ≤ 32)).trans (Nat.mod_eq_of_lt ?_)
    exact (Nat.mod_lt _ (by decide)).trans (by decide : 496 < 2 ^ 9)
  · rfl

/-- The entries of the slot tables stand apart from each other. -/
theorem slotKey_ne {m f i g j : Nat} (h : (m, f, i) ≠ (n, g, j)) (hf : f < 8) (hi : i < 512) (hg : g < 8) (hj : j < 512) :
    4096 * m + 512 * f + i ≠ 4096 * n + 512 * g + j := by
  intro he
  have hmi : m = n ∧ f = g ∧ i = j := by omega
  obtain ⟨rfl, rfl, rfl⟩ := hmi
  exact h rfl

/-- The state in which one entry has been replaced. -/
def State.slotPut (s : State) (n g i c : Nat) : State := s.setSlots (KMap.put 0 s.slots (4096 * n + 512 * g + i) c)

theorem State.slot_slotPut_self (s : State) (n g i c : Nat) : (s.slotPut n g i c).slot n g i = c := KMap.get_put_self _ _ _ _

theorem State.slot_slotPut_ne (s : State) {m f i g j : Nat} (c : Nat) (h : (m, f, i) ≠ (n, g, j)) (hf : f < 8) (hi : i < 512)
    (hg : g < 8) (hj : j < 512) : (s.slotPut n g j c).slot m f i = s.slot m f i :=
  KMap.get_put_ne _ _ _ _ (slotKey_ne h hf hi hg hj)

theorem State.slot_slotNext_any (s : State) (n m f i : Nat) : (s.slotNext n).slot m f i = s.slot m f i := by
  unfold State.slot
  rw [State.slotNext_slots]

theorem State.slotWrite_open (hv : s.fget (F.TRK_GEAR.VALID n) / 2 ^ s.fget (F.TRK_SLOT_ADDR.GEAR n) % 2 = 0) (h0 : s.mode ≠ 0)
    (h7 : s.mode ≠ 7) :
    s.slotWrite n data = (s.slotPut n (s.fget (F.TRK_SLOT_ADDR.GEAR n)) (s.slotNow n) (getBits data 0 10)).slotNext n := by
  refine if_neg ?_
  rintro (h | h | h)
  · exact absurd (hv.symm.trans h) (by decide)
  · exact h0 h
  · exact h7 h

variable (hr : s.Reaches (O.TRK_SLOT_DATA n) key)
include hr

theorem exec_trkSlotDataWrite : exec (.trkSlotDataWrite 0 n data) s = .next ((s.answer false 0).slotWrite n data) :=
  congrArg Host.Outcome.next (hr.access _)

/-- An entry of a gear that is not valid takes the data's channel. -/
theorem slotTables_write (hv : s.fget (F.TRK_GEAR.VALID n) / 2 ^ s.fget (F.TRK_SLOT_ADDR.GEAR n) % 2 = 0) (h0 : s.mode ≠ 0)
    (h7 : s.mode ≠ 7) :
    ∃ t, exec (.trkSlotDataWrite 0 n data) s = .next t ∧
      t.slot n (s.fget (F.TRK_SLOT_ADDR.GEAR n)) (s.slotNow n) = getBits data 0 10 ∧
      (∀ m f i, (m, f, i) ≠ (n, s.fget (F.TRK_SLOT_ADDR.GEAR n), s.slotNow n) → m < 2 → f < 8 → i < 512 →
        t.slot m f i = s.slot m f i) ∧
      t.fget (F.TRK_SLOT_ADDR.SLOT n) =
        if s.flag (F.TRK_SLOT_ADDR.AUTOINC n) then (s.slotNow n + 1) % 496 else s.fget (F.TRK_SLOT_ADDR.SLOT n) := by
  have hg : s.fget (F.TRK_SLOT_ADDR.GEAR n) < 8 := s.fget_lt _
  have hj : s.slotNow n < 512 := (s.slotNow_lt n).trans (by decide)
  refine ⟨_, (exec_trkSlotDataWrite hr).trans (congrArg _ (State.slotWrite_open hv h0 h7)), ?_, fun m f i hne _ hf hi => ?_, ?_⟩
  · exact (State.slot_slotNext_any _ _ _ _ _).trans (State.slot_slotPut_self _ _ _ _ _)
  · exact (State.slot_slotNext_any _ _ _ _ _).trans (State.slot_slotPut_ne _ _ hne hf hi hg hj)
  · exact State.slot_slotNext _ _

/-- A valid gear's entries are not written. -/
theorem slotTables_refused (hv : s.fget (F.TRK_GEAR.VALID n) / 2 ^ s.fget (F.TRK_SLOT_ADDR.GEAR n) % 2 = 1) :
    ∃ t, exec (.trkSlotDataWrite 0 n data) s = .next t ∧ t.slv = some ⟨true, 0⟩ ∧ t.slots = s.slots ∧ t.regs = s.regs :=
  ⟨(s.answer false 0).deny, (exec_trkSlotDataWrite hr).trans (congrArg _ (if_pos (.inl hv))), rfl, rfl, rfl⟩

/-- A read answers the addressed entry. -/
theorem slotTables_read (h0 : s.mode ≠ 0) (h7 : s.mode ≠ 7) :
    ∃ t, exec (.trkSlotDataRead 0 n) s = .next t ∧
      t.slv = some ⟨false, BitVec.ofNat 64 (s.slot n (s.fget (F.TRK_SLOT_ADDR.GEAR n)) (s.slotNow n))⟩ ∧ t.slots = s.slots := by
  have hread : (s.answer false 0).slotDataRead n =
      ((s.answer false 0).answer false ((s.answer false 0).slotRead n)).slotNext n := if_neg fun h => h.elim h0 h7
  refine ⟨_, (congrArg Host.Outcome.next (hr.access _)).trans (congrArg _ hread), ?_, ?_⟩
  · exact State.slotNext_slv _ _
  · exact State.slotNext_slots _ _

end

/-! ### TRK_GEAR -/

/-- TRK_GEAR (R175): GEAR_ERR, ERR_SLOT, RELIEF, VALID. -/
def gearRow : RegRow :=
  ⟨0x023020, [⟨0x4000, 0, .trunk⟩], .half, 1, false,
    [⟨31, 1, .w1c, 0, 0⟩, ⟨20, 9, .ro, 0, 0⟩, ⟨16, 2, .rw, 1, 1⟩, ⟨8, 8, .rw, 0, 0⟩]⟩

theorem gear_hit {c : Cfg} {n : Nat} (hn : n < c.trunks) : hitOf c (O.TRK_GEAR n) = some ⟨gearRow, [n], 0⟩ ∧
    absentBits c (O.TRK_GEAR n) = 0 ∧ stuckOnes c (O.TRK_GEAR n) = 0 := by
  have h : ∀ n < c.trunks, hitOf c (O.TRK_GEAR n) = some ⟨gearRow, [n], 0⟩ ∧
      absentBits c (O.TRK_GEAR n) = 0 ∧ stuckOnes c (O.TRK_GEAR n) = 0 := by
    cases c <;> decide +kernel
  exact h n hn

/-- VALID takes the data's bits; no field is refused. -/
theorem writtenBits_gear (config sealed : Bool) (old d : Word) :
    getBits (writtenBits config sealed gearRow.fields 0 old d).1 8 8 = getBits d 8 8 ∧
      (writtenBits config sealed gearRow.fields 0 old d).2 = false := by
  have hw : writtenBits config sealed gearRow.fields 0 old d =
    (setBits (setBits (old &&& ~~~(d &&& maskBits 31 1)) 16 2 (getBits d 16 2)) 8 8 (getBits d 8 8), false) := rfl
  rw [hw]
  exact ⟨(getBits_setBits_self _ _ (by decide)).trans (Nat.mod_mod _ _), rfl⟩

theorem gear_low {n : Nat} (hn : n < 2) : O.TRK_GEAR n < O.IRQ_PEND 0 := by
  simp only [O.TRK_GEAR, O.IRQ_PEND]
  omega

/-- The number whose bits below `k` are those that `ok` names. -/
theorem testBit_foldl_bits (ok : Nat → Bool) (k : Nat) :
    (List.range k).foldl (fun a g => if ok g then a + 2 ^ g else a) 0 < 2 ^ k ∧
      ∀ g < k, ((List.range k).foldl (fun a g => if ok g then a + 2 ^ g else a) 0).testBit g = ok g := by
  induction k with
  | zero => exact ⟨Nat.one_pos, fun g hg => absurd hg (Nat.not_lt_zero g)⟩
  | succ k ih =>
    obtain ⟨hlt, hbit⟩ := ih
    rw [List.range_succ, List.foldl_append, List.foldl_cons, List.foldl_nil]
    by_cases hk : ok k = true
    · rw [if_pos hk, Nat.add_comm]
      refine ⟨by rw [Nat.pow_succ]; omega, fun g hg => ?_⟩
      obtain hg | rfl := Nat.lt_succ_iff_lt_or_eq.mp hg
      · rw [Nat.testBit_two_pow_add_gt hg, hbit g hg]
      · rw [Nat.testBit_two_pow_add_eq, Nat.testBit_lt_two_pow hlt, hk]
        rfl
    · rw [if_neg hk]
      refine ⟨hlt.trans (Nat.pow_lt_pow_succ (by decide)), fun g hg => ?_⟩
      obtain hg | rfl := Nat.lt_succ_iff_lt_or_eq.mp hg
      · exact hbit g hg
      · rw [Nat.testBit_lt_two_pow hlt, Bool.eq_false_of_not_eq_true hk]

section
variable {s : State} {n g key : Nat} {data : Word}

/-- Whether VALID of gear `g` is 1 after a write of TRK_GEAR. -/
def State.gearTaken (s : State) (n : Nat) (data : Word) (g : Nat) : Bool :=
  if decide (s.fget (F.TRK_GEAR.VALID n) / 2 ^ g % 2 = 1) then
    decide (getBits data 8 8 / 2 ^ g % 2 = 1) ||
      (decide (g = s.gearOfHalf (s.cfg.halfOfTrunk n)) || (s.shiftPending && decide (g = s.node.shTarget)))
  else decide (getBits data 8 8 / 2 ^ g % 2 = 1) && (s.gearFail n g (reliefOf (getBits data 16 2))).isNone

/-- Whether the write asks anew for a gear that fails the check. -/
def State.gearFails (s : State) (n : Nat) (data : Word) (g : Nat) : Bool :=
  decide (getBits data 8 8 / 2 ^ g % 2 = 1) && !decide (s.fget (F.TRK_GEAR.VALID n) / 2 ^ g % 2 = 1) &&
    (s.gearFail n g (reliefOf (getBits data 16 2))).isSome

/-- TRK_GEAR as a write leaves it before the check's result is shown. -/
def State.gearStored (s : State) (n : Nat) (data : Word) : State :=
  s.writeFields (O.TRK_GEAR n)
    (setBits data 8 8 ((List.range 8).foldl (fun a g => if s.gearTaken n data g then a + 2 ^ g else a) 0))

/-- The result of the check with relief `w`: the failing slot of gear `bad`, and GEAR_ERR. -/
def State.gearMarked (s : State) (n w : Nat) (bad : Option Nat) : State :=
  match bad with
  | some g => (s.fset (F.TRK_GEAR.ERR_SLOT n) ((s.gearFail n g w).getD 0)).setFlag (F.TRK_GEAR.GEAR_ERR n) (srcTrunk s.cfg n + 4)
  | none => s

theorem State.gearWrite_eq (s : State) (n : Nat) (data : Word) : s.gearWrite n data =
    ((s.gearStored n data).gearMarked n (reliefOf (getBits data 16 2))
      (List.find? (s.gearFails n data) (List.range 8))).gearOkCheck := rfl

theorem State.fget_gearOkCheck (s : State) (g : Fld) : s.gearOkCheck.fget g = s.fget g :=
  (State.gearOkCheck_keeps (Keeps.refl (ar := [.trunks, .node]) s) (Allows.refl _)).fget (by decide) (by decide) g

/-- Of the gears that were not valid those are that the write asks for and that pass the check. -/
theorem State.gearTaken_new (hv : s.fget (F.TRK_GEAR.VALID n) / 2 ^ g % 2 = 0) : s.gearTaken n data g =
    decide (getBits data 8 8 / 2 ^ g % 2 = 1 ∧ s.gearFail n g (reliefOf (getBits data 16 2)) = none) := by
  rw [State.gearTaken, hv, Bool.decide_and]
  cases s.gearFail n g (reliefOf (getBits data 16 2)) <;> rfl

theorem State.valid_gearStored (hn : n < s.cfg.trunks) (hg : g < 8) :
    (s.gearStored n data).fget (F.TRK_GEAR.VALID n) / 2 ^ g % 2 = if s.gearTaken n data g then 1 else 0 := by
  obtain ⟨hlt, hbit⟩ := testBit_foldl_bits (s.gearTaken n data) 8
  obtain ⟨hit, habs, hstuck⟩ := gear_hit hn
  unfold State.gearStored
  generalize (List.range 8).foldl (fun a g => if s.gearTaken n data g then a + 2 ^ g else a) 0 = v at hlt hbit
  have hw := State.writtenWord_eq hit habs hstuck (setBits data 8 8 v)
  obtain ⟨hvalid, hok⟩ := writtenBits_gear (decide (s.mode = 2)) (s.flag F.CHK_SEAL.SEALED) (s.rd (O.TRK_GEAR n)) (setBits data 8 8 v)
  have hget : (s.writeFields (O.TRK_GEAR n) (setBits data 8 8 v)).fget (F.TRK_GEAR.VALID n) = v := by
    rw [State.writeFields_flat hit rfl]
    refine (congrArg (getBits · 8 8) (State.rd_wr_self _ _ _)).trans ?_
    rw [hw]
    exact hvalid.trans ((getBits_setBits_self _ _ (by decide)).trans (Nat.mod_eq_of_lt hlt))
  have htest := Nat.testBit_eq_decide_div_mod_eq (x := v) (i := g)
  rw [hget, ← hbit g hg, htest]
  split
  · next h => exact of_decide_eq_true h
  · next h =>
    have h1 := of_decide_eq_false (Bool.eq_false_of_not_eq_true h)
    omega

theorem State.valid_gearMarked (hn : n < 2) (w : Nat) (bad : Option Nat) :
    (s.gearMarked n w bad).fget (F.TRK_GEAR.VALID n) = s.fget (F.TRK_GEAR.VALID n) := by
  cases bad with
  | none => rfl
  | some g =>
    refine (State.fget_setFlag_beside _ _ (gear_low hn) (.inr (.inr (by decide : 8 + 8 ≤ 31)))).trans ?_
    exact State.fget_fset_ne _ _ _ _ (.inr (.inr (by decide : 8 + 8 ≤ 20)))

variable (hn : n < s.cfg.trunks) (hr : s.Reaches (O.TRK_GEAR n) key)
include hn hr

/-- A write of TRK_GEAR sets the bits of the gears that pass, and shows one that does not. -/
theorem gears_validWrite : ∃ t, exec (.gearValidWrite 0 n data) s = .next t ∧
    (∀ g, g < 8 → s.fget (F.TRK_GEAR.VALID n) / 2 ^ g % 2 = 0 →
      t.fget (F.TRK_GEAR.VALID n) / 2 ^ g % 2 =
        if getBits data 8 8 / 2 ^ g % 2 = 1 ∧ s.gearFail n g (reliefOf (getBits data 16 2)) = none then 1 else 0) ∧
    (∀ g i, g < 8 → s.fget (F.TRK_GEAR.VALID n) / 2 ^ g % 2 = 0 → getBits data 8 8 / 2 ^ g % 2 = 1 →
      s.gearFail n g (reliefOf (getBits data 16 2)) = some i → t.flag (F.TRK_GEAR.GEAR_ERR n) = true) := by
  have hn2 : n < 2 := hn.trans_le (Cfg.trunks_le_two _)
  refine ⟨_, (congrArg Host.Outcome.next (hr.access _)).trans (congrArg _ (State.gearWrite_eq _ _ _)), fun g hg hv => ?_,
    fun g i hg hv hask hfail => ?_⟩
  · rw [State.fget_gearOkCheck, State.valid_gearMarked hn2, State.valid_gearStored (s := s.answer false 0) hn hg,
      State.gearTaken_new (s := s.answer false 0) hv]
    simp only [decide_eq_true_eq]
    rfl
  · have hfails : s.gearFails n data g = true := by
      rw [State.gearFails, hask, hv, hfail]
      rfl
    obtain ⟨b, hb⟩ : ∃ b, List.find? ((s.answer false 0).gearFails n data) (List.range 8) = some b :=
      Option.isSome_iff_exists.mp (List.find?_isSome.mpr ⟨g, List.mem_range.mpr hg, hfails⟩)
    unfold State.flag
    rw [State.fget_gearOkCheck, hb]
    exact State.flag_setFlag_self _ _ (gear_low hn2) (by decide : 31 + 1 ≤ 32) (by decide : 1 < 2 ^ 1)

end

end Sys2Proof.Machine

namespace Sys2Proof.Machine

/-! ### TRK_SHIFT (06_trunk_overhead_gears_protection.md R177, R178) -/

/-- The fields of TRK_SHIFT: GO, TARGET, LEAD, PHASE, RESULT, SHIFT_LATE, SHIFT_FAULT. -/
def shiftFields : List FieldRow :=
  [⟨31, 1, .wo, 0, 0⟩, ⟨24, 3, .rw, 0, 0⟩, ⟨16, 8, .rw, 8, 8⟩, ⟨12, 2, .ro, 0, 0⟩, ⟨8, 3, .ro, 0, 0⟩, ⟨7, 1, .w1c, 0, 0⟩,
    ⟨6, 1, .w1c, 0, 0⟩]

theorem plainReg_TRK_SHIFT (c : Cfg) : PlainReg c O.TRK_SHIFT O.TRK_SHIFT .half shiftFields := by
  cases c <;> exact ⟨by decide +kernel, by decide +kernel, by decide +kernel, by decide +kernel, by decide +kernel⟩

/-- A field beside a bit that is cleared. -/
theorem getBits_clear (w d : Word) {i lo wd : Nat} (h : i < lo) : getBits (w &&& ~~~(d &&& maskBits i 1)) lo wd = getBits w lo wd := by
  apply Nat.eq_of_testBit_eq
  intro j
  have hmask : (maskBits i 1).getLsbD (lo + j) = false := by
    rw [maskBits, BitVec.getLsbD_ofNat, Nat.testBit_shiftLeft, Nat.testBit_two_pow_sub_one, decide_eq_false (by omega : ¬ lo + j - i < 1),
      Bool.and_false, Bool.and_false]
  rw [testBit_getBits, testBit_getBits, BitVec.getLsbD_and, BitVec.getLsbD_not, BitVec.getLsbD_and, hmask, Bool.and_false]
  by_cases h32 : lo + j < 32
  · rw [decide_eq_true h32, Bool.not_false, Bool.and_true, Bool.and_true]
  · rw [BitVec.getLsbD_of_ge _ _ (Nat.le_of_not_lt h32), Bool.false_and]

/-- TARGET and LEAD take the data's bits, PHASE stays, no field is refused. -/
theorem writtenBits_shift (config sealed : Bool) (old d : Word) :
    let r := writtenBits config sealed shiftFields 0 old d
    getBits r.1 24 3 = getBits d 24 3 ∧ getBits r.1 16 8 = getBits d 16 8 ∧ getBits r.1 12 2 = getBits old 12 2 ∧ r.2 = false := by
  intro r
  have hr : r = (setBits (setBits old 24 3 (getBits d 24 3)) 16 8 (getBits d 16 8) &&& ~~~(d &&& maskBits 7 1) &&&
    ~~~(d &&& maskBits 6 1), false) := rfl
  rw [hr]
  simp only [getBits_clear _ _ (by decide : 6 < 24), getBits_clear _ _ (by decide : 7 < 24), getBits_clear _ _ (by decide : 6 < 16),
    getBits_clear _ _ (by decide : 7 < 16), getBits_clear _ _ (by decide : 6 < 12), getBits_clear _ _ (by decide : 7 < 12)]
  refine ⟨?_, ?_, ?_, trivial⟩
  · rw [getBits_setBits_ne _ _ (.inl (by decide)), getBits_setBits_self _ _ (by decide)]
    exact Nat.mod_mod _ _
  · rw [getBits_setBits_self _ _ (by decide)]
    exact Nat.mod_mod _ _
  · rw [getBits_setBits_ne _ _ (.inr (by decide)), getBits_setBits_ne _ _ (.inr (by decide))]

/-- A word of another place in its file of 0x1000 bytes than TRK_SHIFT. -/
theorem State.fget_wr_shift (s : State) (w : Word) {g : Fld} (h : g.off % 0x1000 ≠ 0x030) : (s.wr O.TRK_SHIFT w).fget g = s.fget g := by
  have hne : g.off ≠ O.TRK_SHIFT := by
    intro he
    exact h (he ▸ rfl)
  exact congrArg (getBits · g.lo g.wd) (State.rd_wr_ne _ _ hne)

section
variable (s : State) (w : Word)

/-! #### What a shift request reads beside TRK_SHIFT -/

theorem State.cellTrunk_wr_shift (t : Nat) : (s.wr O.TRK_SHIFT w).cellTrunk t = s.cellTrunk t := by
  have hcfg (lo wd : Nat) : (s.wr O.TRK_SHIFT w).fget ⟨O.TRK_CFG t, lo, wd⟩ = s.fget ⟨O.TRK_CFG t, lo, wd⟩ :=
    s.fget_wr_shift w (by simp only [O.TRK_CFG]; omega)
  unfold State.cellTrunk State.flag F.TRK_CFG.EN F.TRK_CFG.MODE
  rw [hcfg, hcfg, State.wr_cfg]

theorem State.cellTrunks_wr_shift : (s.wr O.TRK_SHIFT w).cellTrunks = s.cellTrunks := by
  unfold State.cellTrunks
  rw [State.wr_cfg]
  exact List.filter_congr fun t _ => s.cellTrunk_wr_shift w t

theorem State.gclTrunk_wr_shift (p : Nat) : (s.wr O.TRK_SHIFT w).gclTrunk p = s.gclTrunk p := by
  have htrunk : (s.wr O.TRK_SHIFT w).fget (F.MAC_GCL_CTL.TRUNK p) = s.fget (F.MAC_GCL_CTL.TRUNK p) :=
    s.fget_wr_shift w (by simp only [F.MAC_GCL_CTL.TRUNK, O.MAC_GCL_CTL]; omega)
  unfold State.gclTrunk
  rw [htrunk, State.wr_cfg]

theorem State.gearValid_wr_shift (g : Nat) : (s.wr O.TRK_SHIFT w).gearValid g = s.gearValid g := by
  have hgear (t lo wd : Nat) : (s.wr O.TRK_SHIFT w).fget ⟨O.TRK_GEAR t, lo, wd⟩ = s.fget ⟨O.TRK_GEAR t, lo, wd⟩ :=
    s.fget_wr_shift w (by simp only [O.TRK_GEAR]; omega)
  have hmac (p lo wd : Nat) : (s.wr O.TRK_SHIFT w).fget ⟨O.MAC_CTL p, lo, wd⟩ = s.fget ⟨O.MAC_CTL p, lo, wd⟩ :=
    s.fget_wr_shift w (by simp only [O.MAC_CTL]; omega)
  have hgcl (p lo wd : Nat) : (s.wr O.TRK_SHIFT w).fget ⟨O.MAC_GCL_CTL p, lo, wd⟩ = s.fget ⟨O.MAC_GCL_CTL p, lo, wd⟩ :=
    s.fget_wr_shift w (by simp only [O.MAC_GCL_CTL]; omega)
  unfold State.gearValid State.flag F.TRK_GEAR.VALID F.MAC_CTL.EN_RX F.MAC_CTL.EN_TX F.MAC_GCL_CTL.VALID
  simp only [hgear, hmac, hgcl, s.cellTrunks_wr_shift w, s.cellTrunk_wr_shift w, s.gclTrunk_wr_shift w, State.wr_cfg]

theorem State.csJoined_wr_shift : (s.wr O.TRK_SHIFT w).csJoined = s.csJoined := by
  unfold State.csJoined State.csState
  rw [s.fget_wr_shift w (by decide)]

theorem State.gearOfHalf_wr_shift (h : Nat) : (s.wr O.TRK_SHIFT w).gearOfHalf h = s.gearOfHalf h := by
  unfold State.gearOfHalf State.half
  rw [s.fget_wr_shift w (by decide), State.wr_halves]

theorem State.leader_wr_shift : (s.wr O.TRK_SHIFT w).leader = s.leader := s.fget_wr_shift w (by decide)

theorem State.nextSfn_wr_shift : (s.wr O.TRK_SHIFT w).nextSfn = s.nextSfn := by
  unfold State.nextSfn State.trunk
  rw [s.fget_wr_shift w (by decide), s.cellTrunks_wr_shift w, State.wr_trunks]

end

/-! #### The announcement -/

/-- The state in which a shift to `g` has been announced by this node (R178). -/
def State.shiftAnnounced (s : State) (g : Nat) : State :=
  let a := s.nextSfn
  let s := s.setNode { s.node with
    shTarget := g, shOwn := true, shAnn := true, shDecide := 0, shFault := false, okSent := false, late := none, lateGo := false }
  let s := s.fsets [(F.TRK_SHIFT.PHASE, 1), (F.TRK_SHIFT_SFN.N, (a + max (s.fget F.TRK_SHIFT.LEAD) 8) % 2 ^ 32)]
  let s := forEach (List.range 8) (fun i s => s.wr (O.TRK_CONFIRMED i) 0) s
  s.confirm s.nodeId

/-- Where the next superframe is already under way, the announcement goes out at once. -/
def State.announcementSent (s : State) : State := (s.setNode { s.node with shAnn := false }).sendPhase

section
variable {s : State} {g : Fld}

/-- CONFIRMED lies beyond the words of the shift. -/
theorem State.fget_confirm (s : State) (id : Nat) (h : g.off < O.TRK_CONFIRMED 0) : (s.confirm id).fget g = s.fget g := by
  refine congrArg (getBits · g.lo g.wd) (State.rd_wr_ne _ _ ?_)
  simp only [idWord]
  omega

theorem State.fget_confirmedCleared (s : State) (h : g.off < O.TRK_CONFIRMED 0) :
    (forEach (List.range 8) (fun i s => s.wr (O.TRK_CONFIRMED i) 0) s).fget g = s.fget g := by
  refine State.fget_forEach _ fun i u => congrArg (getBits · g.lo g.wd) (State.rd_wr_ne _ _ ?_)
  simp only [O.TRK_CONFIRMED] at h ⊢
  omega

theorem State.confirmedCleared_node (s : State) : (forEach (List.range 8) (fun i s => s.wr (O.TRK_CONFIRMED i) 0) s).node = s.node :=
  (Keeps.forEach (.refl s) fun _ _ h => State.wr_keeps h _ _ (Allows.refl [.regs])).1 .node (by decide)

theorem State.shiftAnnounced_node (s : State) (n : Nat) :
    (s.shiftAnnounced n).node.shTarget = n ∧ (s.shiftAnnounced n).node.shOwn = true := by
  have hnode : (s.shiftAnnounced n).node = { s.node with
      shTarget := n, shOwn := true, shAnn := true, shDecide := 0, shFault := false, okSent := false, late := none, lateGo := false } := by
    unfold State.shiftAnnounced State.confirm
    dsimp only
    rw [State.wr_node, State.confirmedCleared_node, State.fsets_cons, State.fsets_cons, State.fsets_nil, State.fset_node,
      State.fset_node, State.setNode_node]
  rw [hnode]
  exact ⟨rfl, rfl⟩

theorem State.shiftAnnounced_fields (s : State) (n : Nat) : (s.shiftAnnounced n).fget F.TRK_SHIFT.PHASE = 1 ∧
    (s.shiftAnnounced n).fget F.TRK_SHIFT_SFN.N = (s.nextSfn + max (s.fget F.TRK_SHIFT.LEAD) 8) % 2 ^ 32 := by
  unfold State.shiftAnnounced
  dsimp only
  rw [State.fget_confirm _ _ (by decide), State.fget_confirmedCleared _ (by decide), State.fget_confirm _ _ (by decide),
    State.fget_confirmedCleared _ (by decide), State.fsets_cons, State.fsets_cons, State.fsets_nil]
  dsimp only
  refine ⟨?_, ?_⟩
  · rw [State.fget_fset_ne _ _ _ _ (by decide), State.fget_fset_self _ _ _ (by decide)]
    rfl
  · rw [State.fget_fset_self _ _ _ (by decide), State.fget_setNode]
    exact Nat.mod_mod _ _

theorem State.sendPhase_keeps_trunks (s : State) : Keeps [.trunks] s s.sendPhase := State.sendPhase_keeps (.refl s) (Allows.refl _)

theorem State.fget_announcementSent (s : State) (g : Fld) : s.announcementSent.fget g = s.fget g :=
  ((State.sendPhase_keeps_trunks _).fget (by decide) (by decide) g).trans (State.fget_setNode _ _ _)

theorem State.announcementSent_node (s : State) : s.announcementSent.node = { s.node with shAnn := false } :=
  (State.sendPhase_keeps_trunks _).1 .node (by decide)

/-- A request that is not refused. -/
theorem State.shiftGo_accepted {s : State} (hm : s.flag F.TRK_NODE.SCHED_MASTER = true) (hj : s.csJoined = true)
    (hp : s.shiftPending = false) (hg : s.fget F.TRK_SHIFT.TARGET ≠ s.gearOfHalf s.leader)
    (hv : s.gearValid (s.fget F.TRK_SHIFT.TARGET) = true) :
    s.shiftGo.fget F.TRK_SHIFT.PHASE = 1 ∧ s.shiftGo.node.shTarget = s.fget F.TRK_SHIFT.TARGET ∧ s.shiftGo.node.shOwn = true ∧
      s.shiftGo.fget F.TRK_SHIFT_SFN.N = (s.nextSfn + max (s.fget F.TRK_SHIFT.LEAD) 8) % 2 ^ 32 := by
  have hgo : s.shiftGo =
      let u := s.shiftAnnounced (s.fget F.TRK_SHIFT.TARGET)
      if s.nextSfn = u.fget F.TRK_SFN.SFN then u.announcementSent else u := by
    refine (if_neg ?_).trans ((if_neg (by rw [hp]; exact Bool.false_ne_true)).trans (if_neg ?_))
    · rw [hm, hj]
      decide
    · rw [hv]
      exact fun h => h.elim hg Bool.noConfusion
  obtain ⟨htarget, hown⟩ := s.shiftAnnounced_node (s.fget F.TRK_SHIFT.TARGET)
  obtain ⟨hphase, hsfn⟩ := s.shiftAnnounced_fields (s.fget F.TRK_SHIFT.TARGET)
  rw [hgo]
  dsimp only
  split
  · rw [State.announcementSent_node, State.fget_announcementSent, State.fget_announcementSent]
    exact ⟨hphase, htarget, hown, hsfn⟩
  · exact ⟨hphase, htarget, hown, hsfn⟩

end

/-! #### The request -/

section
variable {s : State} {key : Nat} {data : Word}

/-- A write of TRK_SHIFT, before GO takes effect. -/
theorem State.writeFields_shift (s : State) (d : Word) : ∃ w, s.writeFields O.TRK_SHIFT d = s.wr O.TRK_SHIFT w ∧
    getBits w 24 3 = getBits d 24 3 ∧ getBits w 16 8 = getBits d 16 8 ∧ getBits w 12 2 = s.fget F.TRK_SHIFT.PHASE := by
  have p := plainReg_TRK_SHIFT s.cfg
  have hw : s.writtenWord O.TRK_SHIFT d = writtenBits (decide (s.mode = 2)) (s.flag F.CHK_SEAL.SEALED) shiftFields 0 (s.rd O.TRK_SHIFT) d :=
    State.writtenWord_eq p.hit p.absent p.stuck d
  obtain ⟨htarget, hlead, hphase, hok⟩ := writtenBits_shift (decide (s.mode = 2)) (s.flag F.CHK_SEAL.SEALED) (s.rd O.TRK_SHIFT) d
  rw [← hw] at htarget hlead hphase hok
  refine ⟨(s.writtenWord O.TRK_SHIFT d).1, ?_, htarget, hlead, hphase⟩
  rw [State.writeFields_flat p.hit (isStaged_oneWord _ _ _), hok, if_neg Bool.false_ne_true]

/-- What a request meets when GO takes effect: TARGET and LEAD are the data's, the rest is as before. -/
structure ShiftAsked (s u : State) (data : Word) : Prop where
  target : u.fget F.TRK_SHIFT.TARGET = getBits data F.TRK_SHIFT.TARGET.lo F.TRK_SHIFT.TARGET.wd
  lead : u.fget F.TRK_SHIFT.LEAD = getBits data F.TRK_SHIFT.LEAD.lo F.TRK_SHIFT.LEAD.wd
  pending : u.shiftPending = s.shiftPending
  master : u.flag F.TRK_NODE.SCHED_MASTER = s.flag F.TRK_NODE.SCHED_MASTER
  joined : u.csJoined = s.csJoined
  current : u.gearOfHalf u.leader = s.gearOfHalf s.leader
  valid : ∀ g, u.gearValid g = s.gearValid g
  sfn : u.nextSfn = s.nextSfn
  node : u.node = s.node

/-- A write of TRK_SHIFT with GO = 1 reaches the request with the data's TARGET and LEAD. -/
theorem exec_shiftRequest (hr : s.Reaches O.TRK_SHIFT key) :
    ∃ u, exec (.shiftRequest 0 data) s = .next u.shiftGo ∧ ShiftAsked s u data := by
  let v := s.answer false 0
  let d := setBits data 31 1 1
  obtain ⟨w, hw, htarget, hlead, hphase⟩ := v.writeFields_shift d
  have hgo : bitOf d 31 = true := by
    rw [bitOf, getLsbD_setBits, if_pos (by decide)]
    rfl
  have hself (lo wd : Nat) : (v.wr O.TRK_SHIFT w).fget ⟨O.TRK_SHIFT, lo, wd⟩ = getBits w lo wd :=
    congrArg (getBits · lo wd) (State.rd_wr_self _ _ _)
  have hexec : exec (.shiftRequest 0 data) s = .next (v.wr O.TRK_SHIFT w).shiftGo := by
    refine (congrArg Host.Outcome.next (hr.access _)).trans (congrArg Host.Outcome.next ((if_pos hgo).trans ?_))
    exact congrArg State.shiftGo hw
  refine ⟨v.wr O.TRK_SHIFT w, hexec, ?_, ?_, ?_, ?_, ?_, ?_, fun g => ?_, ?_, ?_⟩
  · exact (hself 24 3).trans (htarget.trans (getBits_setBits_ne _ _ (.inr (by decide))))
  · exact (hself 16 8).trans (hlead.trans (getBits_setBits_ne _ _ (.inr (by decide))))
  · exact congrArg (fun x => decide (x ≠ 0)) ((hself 12 2).trans hphase)
  · exact congrArg (fun x => decide (x ≠ 0)) (State.fget_wr_shift v w (by decide))
  · exact State.csJoined_wr_shift v w
  · rw [State.leader_wr_shift]
    exact State.gearOfHalf_wr_shift v w _
  · exact State.gearValid_wr_shift v w g
  · exact State.nextSfn_wr_shift v w
  · exact State.wr_node _ _ _

/-- A refusal sets RESULT alone. -/
theorem shift_refused {r : Nat} (hr8 : r < 8) {u : State} (hu : u.shiftGo = u.fset F.TRK_SHIFT.RESULT r) (hn : u.node = s.node) :
    u.shiftGo.fget F.TRK_SHIFT.RESULT = r ∧ u.shiftGo.node = s.node := by
  rw [hu]
  exact ⟨(State.fget_fset_self _ _ _ (by decide)).trans (Nat.mod_eq_of_lt hr8), (State.fset_node _ _ _).trans hn⟩

variable (hr : s.Reaches O.TRK_SHIFT key)
include hr

theorem shifts_notMaster (h : s.flag F.TRK_NODE.SCHED_MASTER = false ∨ s.csJoined = false) :
    ∃ t, exec (.shiftRequest 0 data) s = .next t ∧ t.fget F.TRK_SHIFT.RESULT = 3 ∧ t.node = s.node := by
  obtain ⟨u, hexec, hu⟩ := exec_shiftRequest (data := data) hr
  rw [← hu.master, ← hu.joined] at h
  exact ⟨_, hexec, shift_refused (by decide) (if_pos h) hu.node⟩

variable (hm : s.flag F.TRK_NODE.SCHED_MASTER = true) (hj : s.csJoined = true)
include hm hj

theorem shifts_pending (hp : s.shiftPending = true) :
    ∃ t, exec (.shiftRequest 0 data) s = .next t ∧ t.fget F.TRK_SHIFT.RESULT = 4 ∧ t.node = s.node := by
  obtain ⟨u, hexec, hu⟩ := exec_shiftRequest (data := data) hr
  refine ⟨_, hexec, shift_refused (by decide) ((if_neg ?_).trans (if_pos (hu.pending.trans hp))) hu.node⟩
  rw [hu.master, hu.joined, hm, hj]
  decide

variable (hp : s.shiftPending = false)
include hp

theorem shifts_noGear (h : getBits data F.TRK_SHIFT.TARGET.lo F.TRK_SHIFT.TARGET.wd = s.gearOfHalf s.leader ∨
    s.gearValid (getBits data F.TRK_SHIFT.TARGET.lo F.TRK_SHIFT.TARGET.wd) = false) :
    ∃ t, exec (.shiftRequest 0 data) s = .next t ∧ t.fget F.TRK_SHIFT.RESULT = 5 ∧ t.node = s.node := by
  obtain ⟨u, hexec, hu⟩ := exec_shiftRequest (data := data) hr
  rw [← hu.valid, ← hu.target, ← hu.current] at h
  refine ⟨_, hexec, shift_refused (by decide) ((if_neg ?_).trans ((if_neg ?_).trans (if_pos h))) hu.node⟩
  · rw [hu.master, hu.joined, hm, hj]
    decide
  · rw [hu.pending, hp]
    exact Bool.false_ne_true

theorem shifts_announced (hg : getBits data F.TRK_SHIFT.TARGET.lo F.TRK_SHIFT.TARGET.wd ≠ s.gearOfHalf s.leader)
    (hv : s.gearValid (getBits data F.TRK_SHIFT.TARGET.lo F.TRK_SHIFT.TARGET.wd) = true) :
    ∃ t, exec (.shiftRequest 0 data) s = .next t ∧ t.fget F.TRK_SHIFT.PHASE = 1 ∧
      t.node.shTarget = getBits data F.TRK_SHIFT.TARGET.lo F.TRK_SHIFT.TARGET.wd ∧ t.node.shOwn = true ∧
      t.fget F.TRK_SHIFT_SFN.N = (s.nextSfn + max (getBits data F.TRK_SHIFT.LEAD.lo F.TRK_SHIFT.LEAD.wd) 8) % 2 ^ 32 := by
  obtain ⟨u, hexec, hu⟩ := exec_shiftRequest (data := data) hr
  rw [← hu.target, ← hu.current] at hg
  rw [← hu.target, ← hu.valid] at hv
  rw [← hu.target, ← hu.lead, ← hu.sfn]
  exact ⟨_, hexec, State.shiftGo_accepted (hu.master.trans hm) (hu.joined.trans hj) (hu.pending.trans hp) hg hv⟩

end

/-- Settles O28: the accesses of TRK_SLOT_DATA, the write of TRK_GEAR, and the requests of TRK_SHIFT. -/
theorem slotTablesGearsAndShifts : Obligations.SlotTablesGearsAndShifts :=
  ⟨fun _ _ _ _ _ hr =>
      ⟨fun hv h0 h7 => slotTables_write hr hv h0 h7, fun hv => slotTables_refused hr hv, fun h0 h7 => slotTables_read hr h0 h7⟩,
    fun _ _ _ _ hn hr => gears_validWrite hn hr,
    fun _ _ _ hr =>
      ⟨fun h => shifts_notMaster hr h, fun hm hj hp => shifts_pending hr hm hj hp,
        fun hm hj hp h => shifts_noGear hr hm hj hp h, fun hm hj hp hg hv => shifts_announced hr hm hj hp hg hv⟩⟩

end Sys2Proof.Machine

namespace Sys2Proof.Machine

/-! ## Switching requests (06_trunk_overhead_gears_protection.md R180, R181, R185) -/

/-! ### The top request

The node's top request is the highest of its own and of those in effect on its ports. What matters of it below is which bounds it
stays under. -/

theorem normCode_normCode (c : Nat) : normCode (normCode c) = normCode c := by
  by_cases h : c ∈ [0xF, 0xD, 0xB, 0x9, 0x7, 0x5]
  · have hc : normCode c = c := if_pos h
    rw [hc, hc]
  · have hc : normCode c = 0 := if_neg h
    rw [hc]
    rfl

theorem normCode_max {a b : Nat} (ha : normCode a = a) (hb : normCode b = b) : normCode (max a b) = max a b := by
  obtain h | h := max_choice a b <;> rw [h] <;> assumption

/-- Above 14 only Lockout counts. -/
theorem normCode_le_14 {c : Nat} (h : c ≠ 15) : normCode c ≤ 14 := by
  unfold normCode
  split
  · next hc =>
    simp only [List.mem_cons, List.not_mem_nil, or_false] at hc
    omega
  · exact Nat.zero_le _

theorem betterPair_code (own : Nat) (a b : Nat × Nat) : (betterPair own a b).1 = max (normCode a.1) (normCode b.1) := by
  unfold betterPair
  dsimp only
  split_ifs <;> dsimp only <;> omega

theorem foldl_betterPair_le (own : Nat) (e : Nat → Nat × Nat) (l : List Nat) {a : Nat × Nat} (ha : normCode a.1 = a.1) (c : Nat) :
    (l.foldl (fun a t => betterPair own a (e t)) a).1 ≤ c ↔ a.1 ≤ c ∧ ∀ t ∈ l, normCode (e t).1 ≤ c := by
  induction l generalizing a with
  | nil => simp
  | cons t l ih =>
    have hcode := betterPair_code own a (e t)
    rw [List.foldl_cons, ih (by rw [hcode, normCode_max (normCode_normCode _) (normCode_normCode _)]), hcode, ha, max_le_iff,
      List.forall_mem_cons, and_assoc]

theorem foldl_max_le (f : Nat → Nat) (l : List Nat) (a c : Nat) :
    l.foldl (fun a t => max a (f t)) a ≤ c ↔ a ≤ c ∧ ∀ t ∈ l, f t ≤ c := by
  induction l generalizing a with
  | nil => simp
  | cons t l ih => rw [List.foldl_cons, ih, max_le_iff, List.forall_mem_cons, and_assoc]

theorem normCode_foldl_max (f : Nat → Nat) (hf : ∀ t, normCode (f t) = f t) (l : List Nat) {a : Nat} (ha : normCode a = a) :
    normCode (l.foldl (fun a t => max a (f t)) a) = l.foldl (fun a t => max a (f t)) a := by
  induction l generalizing a with
  | nil => exact ha
  | cons t l ih => exact ih (normCode_max ha (hf t))

section
variable {s t : State}

theorem State.mem_cellTrunks (s : State) (n : Nat) : n ∈ s.cellTrunks ↔ s.cellTrunk n = true := by
  unfold State.cellTrunks
  rw [List.mem_filter, List.mem_range, and_iff_right_iff_imp]
  intro h
  simp only [State.cellTrunk, Bool.and_eq_true, decide_eq_true_eq] at h
  obtain ⟨⟨hn, -⟩, -⟩ := h
  exact hn

/-- A port has no request or one of the switch codes. -/
theorem State.portRequest_cases (s : State) (n : Nat) : s.portRequest n = 0 ∨ isSwitch (s.portRequest n) = true := by
  unfold State.portRequest
  have hsf : s.fget (F.TRK_PROT_STAT.SF n) < 2 := s.fget_lt _
  split
  · obtain h | h : s.fget (F.TRK_PROT_STAT.SF n) = 0 ∨ s.fget (F.TRK_PROT_STAT.SF n) = 1 := by omega
    · exact .inl (by rw [h])
    · exact .inr (by rw [h]; rfl)
  · split_ifs <;> decide

theorem isSwitch_range {c : Nat} (h : isSwitch c = true) : 7 ≤ c ∧ c ≤ 13 := by
  simp only [isSwitch, decide_eq_true_eq] at h
  omega

theorem State.portRequest_le (s : State) (n : Nat) : s.portRequest n ≤ 13 := by
  obtain h | h := s.portRequest_cases n
  · omega
  · exact (isSwitch_range h).2

theorem State.normCode_portRequest (s : State) (n : Nat) : normCode (s.portRequest n) = s.portRequest n := by
  obtain h | h := s.portRequest_cases n
  · rw [h]
    rfl
  · simp only [isSwitch, decide_eq_true_eq] at h
    obtain h | h | h | h := h <;> rw [h] <;> rfl

theorem State.normCode_ownRequest (s : State) : normCode s.ownRequest = s.ownRequest := by
  unfold State.ownRequest
  split
  · rfl
  dsimp only
  split
  · rfl
  · exact normCode_foldl_max _ s.normCode_portRequest _ rfl

/-- The node's Lockout command is in force; Gweip-S has none (R188). -/
def State.locks (s : State) : Prop := s.node.lockout = true ∧ s.cfg ≠ .s

theorem State.ownRequest_le {c : Nat} (h5 : 5 ≤ c) (h15 : c < 15) :
    s.ownRequest ≤ c ↔ ¬ s.locks ∧ ∀ n, s.cellTrunk n = true → s.portRequest n ≤ c := by
  have hm := foldl_max_le s.portRequest s.cellTrunks 0 c
  simp only [s.mem_cellTrunks, Nat.zero_le, true_and] at hm
  rw [← hm]
  by_cases hl : s.locks
  · have hown : s.ownRequest = 0xF := if_pos hl
    rw [hown]
    exact iff_of_false (by omega) fun h => h.1 hl
  · let m := s.cellTrunks.foldl (fun a t => max a (s.portRequest t)) 0
    have hown : s.ownRequest = if m = 0 ∧ s.node.wtr = true ∧ s.ringRole = 2 then 0x5 else m := if_neg hl
    rw [hown, and_iff_right hl]
    split
    · next h =>
      obtain ⟨h0, -, -⟩ := h
      exact iff_of_true h5 (h0.le.trans (Nat.zero_le c))
    · rfl

theorem State.topRequest_le {c : Nat} (h5 : 5 ≤ c) (h15 : c < 15) : s.topRequest.1 ≤ c ↔
    ¬ s.locks ∧ ∀ n, s.cellTrunk n = true → s.portRequest n ≤ c ∧ normCode (s.fget (F.TRK_PROT_STAT.EFF_CODE n)) ≤ c := by
  have hfold := foldl_betterPair_le s.nodeId s.effPair s.cellTrunks (a := (s.ownRequest, s.nodeId)) s.normCode_ownRequest c
  simp only [s.mem_cellTrunks] at hfold
  unfold State.topRequest
  rw [hfold, State.ownRequest_le h5 h15, and_assoc]
  exact and_congr_right fun _ => (forall_and.symm.trans (forall_congr' fun _ => imp_and.symm))

/-- Lockout is in effect at the node: its own, or one received. -/
def State.LockedOut (s : State) : Prop :=
  s.locks ∨ ∃ n, s.cellTrunk n = true ∧ s.fget (F.TRK_PROT_STAT.EFF_CODE n) = 15

theorem State.lockedOut_of_topRequest (h : s.topRequest.1 = 0xF) : s.LockedOut := by
  by_contra hno
  have hle : s.topRequest.1 ≤ 14 := by
    refine (State.topRequest_le (by decide) (by decide)).mpr ⟨fun hl => hno (.inl hl), fun n hn => ⟨?_, ?_⟩⟩
    · exact (s.portRequest_le n).trans (by decide)
    · exact normCode_le_14 fun h15 => hno (.inr ⟨n, hn, h15⟩)
  omega

theorem State.not_lockedOut_of_topRequest (h : s.topRequest.1 ≤ 7) : ¬ s.LockedOut := by
  obtain ⟨hl, hports⟩ := (State.topRequest_le (by decide) (by decide)).mp h
  rintro (hlocks | ⟨n, hn, h15⟩)
  · exact hl hlocks
  · obtain ⟨-, heff⟩ := hports n hn
    rw [h15] at heff
    exact absurd heff (by decide)

end

/-! ### What the ring protection leaves of the requests -/

/-- A field of TRK_PROT_STAT that shows what the requests come from: the request in effect, MS_REFUSED, SD, SF. -/
structure Fld.Request (g : Fld) : Prop where
  word : g.off = O.TRK_PROT_STAT 0 ∨ g.off = O.TRK_PROT_STAT 1
  place : g.lo + g.wd ≤ 3 ∨ 20 ≤ g.lo

theorem request_of {n lo wd : Nat} (hn : n < 2) (h : lo + wd ≤ 3 ∨ 20 ≤ lo) : Fld.Request ⟨O.TRK_PROT_STAT n, lo, wd⟩ := by
  obtain rfl | rfl : n = 0 ∨ n = 1 := by omega
  · exact ⟨.inl rfl, h⟩
  · exact ⟨.inr rfl, h⟩

theorem request_effCode {n : Nat} (hn : n < 2) : (F.TRK_PROT_STAT.EFF_CODE n).Request := request_of hn (.inr (by decide))
theorem request_sd {n : Nat} (hn : n < 2) : (F.TRK_PROT_STAT.SD n).Request := request_of hn (.inl (by decide))
theorem request_sf {n : Nat} (hn : n < 2) : (F.TRK_PROT_STAT.SF n).Request := request_of hn (.inl (by decide))

/-- The node's own Lockout, Forced Switches and Manual Switches. -/
def Node.requests (v : Node) : Bool × List Nat × List Nat := (v.lockout, v.forced, v.manual)

section
variable {g : Fld} {s t u : State}

/-! #### Fields of the requests -/

/-- What the ring protection shows in TRK_PROT_STAT: BLOCKED, TX_ORIG, TX_CODE, LOCAL_CODE. -/
theorem State.fget_fset_protStat_of_request (hg : g.Request) (s : State) (n lo wd v : Nat) (hlo : 3 ≤ lo) (hhi : lo + wd ≤ 20) :
    (s.fset ⟨O.TRK_PROT_STAT n, lo, wd⟩ v).fget g = s.fget g := by
  obtain ⟨-, hp⟩ := hg
  exact State.fget_fset_ne _ _ _ _ (.inr (by dsimp only; omega))

theorem State.fget_fset_other_of_request (hg : g.Request) (s : State) {f : Fld} (v : Nat)
    (hf : f.off ≠ O.TRK_PROT_STAT 0 ∧ f.off ≠ O.TRK_PROT_STAT 1) : (s.fset f v).fget g = s.fget g := by
  obtain ⟨h0, h1⟩ := hf
  refine State.fget_fset_ne _ _ _ _ (.inl ?_)
  obtain h | h := hg.word <;> rw [h]
  · exact h0.symm
  · exact h1.symm

theorem State.fget_ringStat_of_request (hg : g.Request) (s : State) (lo wd v : Nat) :
    (s.fset ⟨O.TRK_RING_STAT, lo, wd⟩ v).fget g = s.fget g :=
  State.fget_fset_other_of_request hg s v
    ⟨(by decide : O.TRK_RING_STAT ≠ O.TRK_PROT_STAT 0), (by decide : O.TRK_RING_STAT ≠ O.TRK_PROT_STAT 1)⟩

theorem State.fget_flush_of_request (hg : g.Request) (s : State) (lo wd v : Nat) :
    (s.fset ⟨O.CLS_FLUSH, lo, wd⟩ v).fget g = s.fget g :=
  State.fget_fset_other_of_request hg s v
    ⟨(by decide : O.CLS_FLUSH ≠ O.TRK_PROT_STAT 0), (by decide : O.CLS_FLUSH ≠ O.TRK_PROT_STAT 1)⟩

theorem State.fget_updatePair_of_request (hg : g.Request) (s : State) (n : Nat) : (s.updatePair n).fget g = s.fget g := by
  simp [State.updatePair, State.fget_fset_protStat_of_request hg, F.TRK_PROT_STAT.TX_CODE, F.TRK_PROT_STAT.TX_ORIG]

theorem State.fget_updatePairs_of_request (hg : g.Request) (s : State) : s.updatePairs.fget g = s.fget g := by
  simp [State.updatePairs, State.fget_updatePair_of_request hg, State.fget_fset_protStat_of_request hg, F.TRK_PROT_STAT.LOCAL_CODE]

theorem State.fget_flushRing_of_request (hg : g.Request) (s : State) : s.flushRing.fget g = s.fget g := by
  simp [State.flushRing, State.flushGen, State.fsat,
    State.fget_ringStat_of_request hg, State.fget_flush_of_request hg, F.TRK_RING_STAT.FLUSHES,
    F.CLS_FLUSH.SWEEP, F.CLS_FLUSH.GEN_T]

theorem State.fget_block_of_request (hg : g.Request) (s : State) (n v : Nat) : (s.block n v).fget g = s.fget g := by
  simp [State.block, State.fget_fset_protStat_of_request hg, F.TRK_PROT_STAT.BLOCKED]

theorem State.fget_blockLocals_of_request (hg : g.Request) (s : State) : s.blockLocals.fget g = s.fget g := by
  simp [State.blockLocals, State.fget_block_of_request hg]

theorem State.fget_ownerUnblock_of_request (hg : g.Request) (s : State) : s.ownerUnblock.fget g = s.fget g := by
  simp [State.ownerUnblock, State.fget_block_of_request hg]

theorem State.fget_setWtr_of_request (hg : g.Request) (s : State) (v : Bool) (left : Nat) : (s.setWtr v left).fget g = s.fget g := by
  simp [State.setWtr, State.fget_ringStat_of_request hg, F.TRK_RING_STAT.WTR_LEFT]

theorem State.fget_ringLockout_of_request (hg : g.Request) (s : State) : s.ringLockout.fget g = s.fget g := by
  simp [State.ringLockout,
    State.fget_ringStat_of_request hg, State.fget_block_of_request hg, F.TRK_RING_STAT.WTR_LEFT, F.TRK_RING_STAT.LOCKED,
    F.TRK_RING_STAT.STATE]

theorem State.fget_ringProtect_of_request (hg : g.Request) (s : State) (idle : Bool) : (s.ringProtect idle).fget g = s.fget g := by
  simp [State.ringProtect,
    State.fget_ringStat_of_request hg, State.fget_flushRing_of_request hg, State.fget_ownerUnblock_of_request hg,
    State.fget_setWtr_of_request hg, State.fget_blockLocals_of_request hg, F.TRK_RING_STAT.STATE]

theorem State.fget_ringPending_of_request (hg : g.Request) (s : State) : s.ringPending.fget g = s.fget g := by
  simp [State.ringPending, State.fget_ringStat_of_request hg, State.fget_setWtr_of_request hg, F.TRK_RING_STAT.STATE]

theorem State.fget_ringIdle_of_request (hg : g.Request) (s : State) : s.ringIdle.fget g = s.fget g := by
  simp [State.ringIdle,
    State.fget_ringStat_of_request hg, State.fget_flushRing_of_request hg, State.fget_block_of_request hg, F.TRK_RING_STAT.STATE]

theorem State.fget_ringTable_of_request (hg : g.Request) (s : State) (r old : Nat × Nat) : (s.ringTable r old).fget g = s.fget g := by
  dsimp only [State.ringTable]
  split_ifs <;> simp [State.fget_ringStat_of_request hg, State.fget_ringLockout_of_request hg, State.fget_ringProtect_of_request hg,
    State.fget_flushRing_of_request hg, State.fget_blockLocals_of_request hg, State.fget_ringPending_of_request hg,
    State.fget_ringIdle_of_request hg, F.TRK_RING_STAT.STATE, F.TRK_RING_STAT.LOCKED]

theorem State.fget_ringRun_of_request (hg : g.Request) (s : State) : s.ringRun.fget g = s.fget g := by
  have hprot (u : State) (v : Nat) : (u.fset F.BLK_MODE.PROT v).fget g = u.fget g :=
    State.fget_fset_other_of_request hg u v ⟨by decide, by decide⟩
  simp [State.ringRun, hprot, State.fget_block_of_request hg, State.fget_ringTable_of_request hg]

theorem State.fget_protUpdate_of_request (hg : g.Request) (s : State) : s.protUpdate.fget g = s.fget g :=
  (State.fget_updatePairs_of_request hg _).trans ((State.fget_ringRun_of_request hg _).trans (State.fget_updatePairs_of_request hg _))

/-! #### The node's own requests -/

theorem Keeps.node {ar : List Area} (h : Keeps ar s t) (hn : Area.node ∉ ar) : t.node = s.node := h.1 .node hn

theorem State.updatePairs_node (s : State) : s.updatePairs.node = s.node :=
  (State.updatePairs_keeps (Keeps.refl (ar := [.regs, .trunks]) s) (Allows.refl _)).node (by decide)

theorem State.flushRing_node (s : State) : s.flushRing.node = s.node :=
  (State.flushRing_keeps (Keeps.refl (ar := [.regs, .cls]) s) (Allows.refl _)).node (by decide)

theorem State.block_node (s : State) (n v : Nat) : (s.block n v).node = s.node :=
  (State.block_keeps (Keeps.refl (ar := [.regs, .trunks]) s) n v (Allows.refl _)).node (by decide)

theorem State.blockLocals_node (s : State) : s.blockLocals.node = s.node :=
  (State.blockLocals_keeps (Keeps.refl (ar := [.regs, .trunks]) s) (Allows.refl _)).node (by decide)

theorem State.ownerUnblock_node (s : State) : s.ownerUnblock.node = s.node :=
  (State.ownerUnblock_keeps (Keeps.refl (ar := [.regs, .trunks]) s) (Allows.refl _)).node (by decide)

theorem State.ringIdle_node (s : State) : s.ringIdle.node = s.node :=
  (State.ringIdle_keeps (Keeps.refl (ar := [.regs, .trunks, .cls]) s) (Allows.refl _)).node (by decide)

theorem State.setWtr_node (s : State) (v : Bool) (left : Nat) : (s.setWtr v left).node = { s.node with wtr := v } :=
  State.fset_node _ _ _

theorem State.setWtr_requests (s : State) (v : Bool) (left : Nat) : (s.setWtr v left).node.requests = s.node.requests :=
  (congrArg Node.requests (s.setWtr_node v left)).trans rfl

/-- Lockout drops the node's switches. -/
theorem State.ringLockout_requests (s : State) : s.ringLockout.node.requests = (s.node.lockout, [], []) := by
  have hloop (u : State) : (forEach u.cellTrunks (fun t s => if (s.trunk t).blockSig then s else s.block t 0) u).node = u.node :=
    (Keeps.forEach (.refl u) fun n v h => .ite h (State.block_keeps h n 0 (Allows.refl [.regs, .trunks]))).node (by decide)
  unfold State.ringLockout
  simp only [State.fsets_cons, State.fsets_nil, State.fset_node]
  split
  · rw [State.block_node, hloop]
    rfl
  · rw [hloop]
    rfl

theorem State.ringProtect_requests (s : State) (idle : Bool) : (s.ringProtect idle).node.requests = s.node.requests := by
  unfold State.ringProtect
  rw [State.fset_node, State.flushRing_node]
  cases idle
  · exact (State.setWtr_requests _ _ _).trans (congrArg Node.requests s.blockLocals_node)
  · exact congrArg Node.requests ((State.ownerUnblock_node _).trans s.blockLocals_node)

theorem State.ringPending_requests (s : State) : s.ringPending.node.requests = s.node.requests := by
  unfold State.ringPending
  rw [State.fset_node, State.setWtr_requests]

/-- Only Lockout ends a request of the node. -/
theorem State.ringTable_requests {r : Nat × Nat} (h : r.1 ≠ 0xF) (s : State) (old : Nat × Nat) :
    (s.ringTable r old).node.requests = s.node.requests := by
  dsimp only [State.ringTable]
  rw [if_neg h]
  split_ifs <;> simp only [State.ringProtect_requests, State.flushRing_node, State.blockLocals_node, State.ringPending_requests,
    State.ringIdle_node, State.fset_node]

theorem State.ringTable_lockout {r : Nat × Nat} (h : r.1 = 0xF) (s : State) (old : Nat × Nat) :
    (s.ringTable r old).node.requests = s.node.requests ∨ (s.ringTable r old).node.requests = (s.node.lockout, [], []) := by
  dsimp only [State.ringTable]
  rw [if_pos h]
  split
  · exact .inl rfl
  · exact .inr s.ringLockout_requests

theorem State.ringRun_requests (s : State) :
    s.ringRun.node.requests = s.node.requests ∨ (s.LockedOut ∧ s.ringRun.node.requests = (s.node.lockout, [], [])) := by
  by_cases hrole : s.ringRole = 0
  · exact .inl (congrArg (fun u : State => u.node.requests) (if_pos hrole))
  have hrun : s.ringRun.node.requests = (s.ringTable s.topRequest s.node.top).node.requests := by
    unfold State.ringRun
    rw [if_neg hrole]
    dsimp only
    rw [State.fset_node]
    split
    · rw [State.block_node]
      rfl
    · rfl
  rw [hrun]
  by_cases h : s.topRequest.1 = 0xF
  · exact (State.ringTable_lockout h s _).imp id fun hr => ⟨State.lockedOut_of_topRequest h, hr⟩
  · exact .inl (State.ringTable_requests h s _)

/-! #### The upkeep as a whole -/

/-- From `s` to `t` the network's upkeep has kept the trunks, the requests in effect and the node's own requests, which only a
Lockout ends, and has ended no Signal Fail that is held. -/
structure RequestsKept (s t : State) : Prop where
  cells : CellsKept s t
  fld : ∀ g : Fld, g.Request → 1 ≤ g.lo → t.fget g = s.fget g
  own : t.node.requests = s.node.requests ∨ (s.LockedOut ∧ t.node.requests = (s.node.lockout, [], []))
  held : ∀ n, s.cellTrunk n = true → (s.trunk n).sfHeld = true → s.flag (F.TRK_PROT_STAT.SF n) = true →
    t.flag (F.TRK_PROT_STAT.SF n) = true

theorem RequestsKept.refl (s : State) : RequestsKept s s := ⟨.refl s, fun _ _ _ => rfl, .inl rfl, fun _ _ _ h => h⟩

theorem RequestsKept.lockout (h : RequestsKept s t) : t.node.lockout = s.node.lockout := by
  obtain h | ⟨-, h⟩ := h.own <;> exact congrArg Prod.fst h

theorem RequestsKept.lockedOut (h : RequestsKept s t) (hl : t.LockedOut) : s.LockedOut := by
  obtain ⟨hlock, hcfg⟩ | ⟨n, hn, hcode⟩ := hl
  · exact .inl ⟨h.lockout ▸ hlock, h.cells.cfg ▸ hcfg⟩
  · rw [h.cells.cellTrunk] at hn
    exact .inr ⟨n, hn, (h.fld _ (request_effCode (cellTrunk_lt_two hn)) (by decide : 1 ≤ 28)).symm.trans hcode⟩

theorem RequestsKept.sfHeld (h : RequestsKept s t) (n : Nat) : (t.trunk n).sfHeld = (s.trunk n).sfHeld :=
  h.cells.view Trunk.sfHeld (fun _ => rfl) n

theorem RequestsKept.trans (h : RequestsKept s t) (k : RequestsKept t u) : RequestsKept s u where
  cells := h.cells.trans k.cells
  fld g hg hlo := (k.fld g hg hlo).trans (h.fld g hg hlo)
  own := by
    obtain hk | ⟨hl, hk⟩ := k.own
    · rw [hk]
      exact h.own
    · exact .inr ⟨h.lockedOut hl, by rw [hk, h.lockout]⟩
  held n hc hh hf := k.held n ((h.cells.cellTrunk n).trans hc) ((h.sfHeld n).trans hh) (h.held n hc hh hf)

theorem RequestsKept.protUpdate (s : State) : RequestsKept s s.protUpdate where
  cells := (CellsKept.refl s).protUpdate
  fld _ hg _ := State.fget_protUpdate_of_request hg s
  own := by
    have hpairs : RequestsKept s s.updatePairs :=
      ⟨(CellsKept.refl s).updatePairs, fun _ hg _ => State.fget_updatePairs_of_request hg s, .inl (congrArg _ s.updatePairs_node),
        fun n hc _ hf => (congrArg (fun v => decide (v ≠ 0))
          (State.fget_updatePairs_of_request (request_sf (cellTrunk_lt_two hc)) s)).trans hf⟩
    have hrun := s.updatePairs.ringRun_requests
    rw [State.protUpdate, State.updatePairs_node]
    rw [State.updatePairs_node] at hrun
    exact hrun.imp id fun ⟨hl, hr⟩ => ⟨hpairs.lockedOut hl, hr⟩
  held n hc _ hf := by
    have hsf := State.fget_protUpdate_of_request (request_sf (cellTrunk_lt_two hc)) s
    exact (congrArg (fun v => decide (v ≠ 0)) hsf).trans hf

end

end Sys2Proof.Machine

namespace Sys2Proof.Machine

/-! ### Signal Fail, and the passage between OPERATE and DEGRADED -/

section
variable {g : Fld} {s t u : State} {n m : Nat}

/-- Steps along a list that each keep the requests. -/
theorem RequestsKept.forEach {f : Nat → State → State} {l : List Nat} (hf : ∀ a ∈ l, ∀ u, RequestsKept s u → RequestsKept u (f a u))
    (h : RequestsKept s t) : RequestsKept s (forEach l f t) := by
  unfold Machine.forEach
  induction l generalizing t with
  | nil => exact h
  | cons a l ih => exact ih (fun b hb => hf b (List.mem_cons_of_mem a hb)) (h.trans (hf a List.mem_cons_self t h))

/-- A port whose Signal Fail is held has it. -/
theorem State.sfNow_of_held (h : (s.trunk n).sfHeld = true) : s.sfNow n = true := by
  simp [State.sfNow, h]

/-- Signal Fail of one port is shown as it is now. -/
theorem RequestsKept.showSf (hn : n < 2) (s : State) : RequestsKept s (s.fset (F.TRK_PROT_STAT.SF n) (b2n (s.sfNow n))) where
  cells := (CellsKept.refl s).fset_protStat n _ _ _
  fld g _ hlo := State.fget_fset_ne _ _ _ _ (.inr (.inl (by simpa [F.TRK_PROT_STAT.SF] using hlo)))
  own := .inl (congrArg Node.requests (State.fset_node _ _ _))
  held k _ hh hf := by
    by_cases hk : k = n
    · subst hk
      rw [State.flag_fset_b2n _ (by decide : 0 + 1 ≤ 32) rfl]
      exact State.sfNow_of_held hh
    · refine (State.flag_fset_ne _ _ _ _ (.inl ?_)).trans hf
      simp only [F.TRK_PROT_STAT.SF, O.TRK_PROT_STAT]
      omega

/-- The state in which every port's Signal Fail is shown as it is now. -/
def State.sfShown (s : State) : State := forEach s.cellTrunks (fun t s => s.fset (F.TRK_PROT_STAT.SF t) (b2n (s.sfNow t))) s

theorem RequestsKept.sfShown (s : State) : RequestsKept s s.sfShown :=
  RequestsKept.forEach (fun _ hk u _ => RequestsKept.showSf (cellTrunk_lt_two ((s.mem_cellTrunks _).mp hk)) u) (.refl s)

/-- A held Signal Fail is shown once its port's turn has come, or if it was before. -/
theorem State.sf_forEach (hc : s.cellTrunk n = true) (hh : (s.trunk n).sfHeld = true) {l : List Nat} (hl : ∀ k ∈ l, k < 2)
    (hf : n ∈ l ∨ s.flag (F.TRK_PROT_STAT.SF n) = true) :
    (forEach l (fun t s => s.fset (F.TRK_PROT_STAT.SF t) (b2n (s.sfNow t))) s).flag (F.TRK_PROT_STAT.SF n) = true := by
  unfold Machine.forEach
  induction l generalizing s with
  | nil => exact hf.resolve_left List.not_mem_nil
  | cons k l ih =>
    have hstep := RequestsKept.showSf (hl k List.mem_cons_self) s
    refine ih ((hstep.cells.cellTrunk n).trans hc) ((hstep.sfHeld n).trans hh) (fun j hj => hl j (List.mem_cons_of_mem k hj)) ?_
    by_cases hk : n = k
    · subst hk
      refine .inr ?_
      rw [State.flag_fset_b2n _ (by decide : 0 + 1 ≤ 32) rfl]
      exact State.sfNow_of_held hh
    · exact hf.imp (fun h => List.mem_of_ne_of_mem hk h) fun h => hstep.held n hc hh h

theorem State.sf_sfShown (hc : s.cellTrunk n = true) (hh : (s.trunk n).sfHeld = true) :
    s.sfShown.flag (F.TRK_PROT_STAT.SF n) = true :=
  State.sf_forEach hc hh (fun k hk => cellTrunk_lt_two ((s.mem_cellTrunks k).mp hk)) (.inl ((s.mem_cellTrunks n).mpr hc))

theorem RequestsKept.sfUpdate (s : State) : RequestsKept s s.sfUpdate := (RequestsKept.sfShown s).trans (RequestsKept.protUpdate _)

/-- The register words that a change of mode between OPERATE and DEGRADED writes for itself. -/
def modeWords : List Nat := O.BLK_MODE :: O.BLK_HALF :: trigStats

theorem modeWords_apart {k : Nat} (h0 : 0x010000 ≤ k) (h1 : k < 0x0C0000) : k ∉ modeWords := by
  simp only [modeWords, trigStats, List.mem_cons, List.mem_map, not_or, not_exists, not_and, O.BLK_MODE, O.BLK_HALF, O.CTU_TRIG_STAT]
  refine ⟨by omega, by omega, fun n _ => by omega⟩

/-- From `s` to `t` the mode has passed without a change at the network. -/
structure ModePassed (s t : State) : Prop where
  keeps : Keeps [.regs, .out, .trigs, .flt] s t
  words : LowWords s t modeWords

theorem ModePassed.refl (s : State) : ModePassed s s := ⟨.refl s, .refl s _⟩

theorem ModePassed.trans (h : ModePassed s t) (k : ModePassed t u) : ModePassed s u :=
  ⟨h.keeps.trans k.keeps, h.words.trans k.words⟩

theorem ModePassed.node (h : ModePassed s t) : t.node = s.node := h.keeps.1 .node (by decide)

theorem ModePassed.trunk (h : ModePassed s t) (n : Nat) : t.trunk n = s.trunk n := by
  unfold State.trunk
  rw [h.keeps.1 .trunks (by decide)]

/-- A word of the ports or the trunks. -/
theorem ModePassed.fget (h : ModePassed s t) (h0 : 0x010000 ≤ g.off) (h1 : g.off < 0x0C0000) : t.fget g = s.fget g :=
  h.words.fget g (h1.trans (by decide)) (modeWords_apart h0 h1)

theorem ModePassed.cells (h : ModePassed s t) : CellsKept s t where
  cfg := h.keeps.1 .cfg (by decide)
  word k hk := by
    obtain ⟨hlo, hhi, -⟩ := hk
    exact h.words k (hhi.trans (by decide)) (modeWords_apart (by omega) (by omega))
  lane n := by rw [h.trunk]
  urgent n _ := by rw [h.trunk]

theorem Fld.Request.range (hg : g.Request) : 0x010000 ≤ g.off ∧ g.off < 0x0C0000 := by
  obtain h | h := hg.word <;> rw [h] <;> decide

theorem ModePassed.requests (h : ModePassed s t) : RequestsKept s t where
  cells := h.cells
  fld g hg _ := h.fget hg.range.1 hg.range.2
  own := .inl (congrArg Node.requests h.node)
  held n hc _ hf := by
    obtain ⟨h0, h1⟩ := (request_sf (cellTrunk_lt_two hc)).range
    exact (congrArg (fun v => decide (v ≠ 0)) (h.fget h0 h1)).trans hf

/-- The copy of half `n` and its trigger outputs. -/
def State.copyPassed (s : State) (n m : Nat) : State :=
  forEach ((List.range 32).filter (fun k => s.cfg.halfOfTrig k == n)) (fun k s => s.syncTrig k) (s.fset (modeCopy n) m)

theorem State.setHalfMode_eq (s : State) (n m : Nat) : s.setHalfMode n m =
    if (s.hmode n = 6 ∧ m ≠ 6) ∨ (s.hmode n ≠ 6 ∧ m = 6) then (s.copyPassed n m).sfUpdate else s.copyPassed n m := rfl

theorem ModePassed.copyPassed (s : State) (n m : Nat) : ModePassed s (s.copyPassed n m) where
  keeps := Keeps.forEach (State.fset_keeps (.refl s) _ _ (Allows.mono (by decide) (Allows.refl _))) fun k _ h =>
    State.syncTrig_keeps h k (Allows.mono (by decide) (Allows.refl _))
  words := by
    have hcopy : (modeCopy n).off = O.BLK_HALF := by
      unfold modeCopy
      split <;> rfl
    refine ((s.fset_lowWords (modeCopy n) m).mono (by simp [hcopy, modeWords])).trans (.forEach (fun k hk u => ?_) _)
    refine (u.syncTrig_lowWords k).mono ?_
    have hmem : O.CTU_TRIG_STAT k ∈ trigStats := List.mem_map_of_mem (List.mem_filter.mp hk).1
    simpa [modeWords] using .inr (.inr hmem)

theorem RequestsKept.setHalfMode (s : State) (n m : Nat) : RequestsKept s (s.setHalfMode n m) := by
  have hcopy := (ModePassed.copyPassed s n m).requests
  rw [State.setHalfMode_eq]
  split
  · exact hcopy.trans (.sfUpdate _)
  · exact hcopy

theorem RequestsKept.followMode (s : State) (m : Nat) : RequestsKept s (s.followMode m) :=
  RequestsKept.forEach (fun n _ u _ => RequestsKept.setHalfMode u n m) (.refl s)

/-- A half that neither leaves nor enters SAFEHOLD changes nothing at the network. -/
theorem ModePassed.setHalfMode (h : s.hmode n ≠ 6) (hm : m ≠ 6) : ModePassed s (s.setHalfMode n m) := by
  rw [State.setHalfMode_eq, if_neg (by omega : ¬ ((s.hmode n = 6 ∧ m ≠ 6) ∨ (s.hmode n ≠ 6 ∧ m = 6)))]
  exact .copyPassed s n m

theorem ModePassed.forEach_setHalfMode (hm : m = 4 ∨ m = 5) {l : List Nat} (hl : ∀ n ∈ l, n < 2)
    (h : ∀ n, n < 2 → s.hmode n ≠ 6) : ModePassed s (forEach l (fun n s => s.setHalfMode n m) s) := by
  unfold forEach
  induction l generalizing s with
  | nil => exact .refl s
  | cons n l ih =>
    refine (ModePassed.setHalfMode (m := m) (h n (hl n List.mem_cons_self)) (by omega)).trans ?_
    refine ih (fun k hk => hl k (List.mem_cons_of_mem n hk)) fun k hk => ?_
    exact State.hmode_setHalfMode_keeps (P := (· ≠ 6)) (by omega) (h k hk) n

/-- With no half in SAFEHOLD the network sees nothing of the change. -/
theorem ModePassed.followMode (h : ∀ n, n < 2 → s.hmode n ≠ 6) (hm : m = 4 ∨ m = 5) : ModePassed s (s.followMode m) :=
  ModePassed.forEach_setHalfMode hm (fun _ hn => (List.mem_range.mp (List.mem_filter.mp hn).1).trans_le (Cfg.halves_le_two _)) h

/-- Between OPERATE and DEGRADED only MODE and its source are written before the halves follow. -/
theorem State.modeChanged_live (hs : s.mode = 4 ∨ s.mode = 5) (hm : m = 4 ∨ m = 5) :
    s.modeChanged m = (s.fset F.BLK_MODE.MODE m).raise 0 := by
  unfold State.modeChanged
  rw [if_neg (by omega : ¬ (m = 2 ∨ m = 6 ∨ m = 7))]
  dsimp only
  rw [if_neg (by omega : ¬ s.mode = 6), if_neg (by omega : ¬ (s.mode = 1 ∧ m ≠ 0)),
    if_neg (by omega : ¬ (m = 6 ∨ m = 7 ∨ m = 0))]

theorem ModePassed.modeChanged (hs : s.mode = 4 ∨ s.mode = 5) (hm : m = 4 ∨ m = 5) : ModePassed s (s.modeChanged m) := by
  rw [State.modeChanged_live hs hm]
  refine ⟨State.raise_keeps (State.fset_keeps (.refl s) _ _ (Allows.mono (by decide) (Allows.refl _))) 0
    (Allows.mono (by decide) (Allows.refl _)), ?_⟩
  exact ((s.fset_lowWords F.BLK_MODE.MODE m).mono (by simp [modeWords, F.BLK_MODE.MODE])).trans (State.raise_lowWords _ 0 _)

theorem ModePassed.wdogMode (s : State) (m : Nat) : ModePassed s (s.wdogMode m) :=
  ⟨State.wdogMode_keeps (.refl s) m (Allows.mono (by decide) (Allows.refl _)), fun _ _ _ => State.rd_congr rfl rfl _⟩

/-- OPERATE and DEGRADED: the mode stays, or changes to the other one. -/
theorem State.fixDegraded_cases (s : State) : s.fixDegraded = s ∨ ∃ m, (s.mode = 4 ∨ s.mode = 5) ∧ (m = 4 ∨ m = 5) ∧
    s.fixDegraded = ((s.modeChanged m).followMode m).wdogMode m := by
  unfold State.fixDegraded
  split
  · next h =>
    obtain ⟨h4, -⟩ := h
    exact .inr ⟨5, .inl h4, .inr rfl, State.setMode_change (by rw [h4]; decide)⟩
  · split
    · next h =>
      obtain ⟨h5, -⟩ := h
      exact .inr ⟨4, .inr h5, .inl rfl, State.setMode_change (by rw [h5]; decide)⟩
    · exact .inl rfl

theorem RequestsKept.fixDegraded (s : State) : RequestsKept s s.fixDegraded := by
  obtain h | ⟨m, hs, hm, h⟩ := s.fixDegraded_cases <;> rw [h]
  · exact .refl s
  · exact (ModePassed.modeChanged hs hm).requests.trans
      ((RequestsKept.followMode _ m).trans (ModePassed.wdogMode _ m).requests)

theorem ModePassed.fixDegraded (h6 : ∀ n, n < 2 → s.hmode n ≠ 6) : ModePassed s s.fixDegraded := by
  obtain h | ⟨m, hs, hm, h⟩ := s.fixDegraded_cases <;> rw [h]
  · exact .refl s
  · refine (ModePassed.modeChanged hs hm).trans ((ModePassed.followMode (fun n hn => ?_) hm).trans (ModePassed.wdogMode _ m))
    rw [State.hmode_modeChanged]
    exact h6 n hn

/-- What follows every change of requests. -/
theorem RequestsKept.upkeep (s : State) : RequestsKept s s.protUpdate.fixDegraded :=
  (RequestsKept.protUpdate s).trans (RequestsKept.fixDegraded _)

theorem RequestsKept.unlocked (h : RequestsKept s t) (hl : ¬ s.LockedOut) : t.node.requests = s.node.requests :=
  h.own.resolve_right fun hr => hl hr.1

theorem LockedOut.congr (hc : t.cfg = s.cfg) (hr : t.regs = s.regs) (hl : t.node.lockout = s.node.lockout) :
    t.LockedOut ↔ s.LockedOut := by
  have hcell (n : Nat) : t.cellTrunk n = s.cellTrunk n := by
    unfold State.cellTrunk
    rw [State.flag_congr hc hr, State.fget_congr hc hr, hc]
  unfold State.LockedOut State.locks
  simp only [hcell, State.fget_congr hc hr, hc, hl]

end

/-! ### Forced Switch, Manual Switch, Lockout and Clear (R180) -/

section
variable {s : State} {n key : Nat}

theorem exec_protCmd (hr : s.Reaches (O.TRK_PROT_CMD n) key) (f : State → State) (data : Word) (i : Instr)
    (hi : exec i s = .next (s.access 0 (O.TRK_PROT_CMD n) fun _ s => s.protCmd n data)) (hd : ∀ u : State, u.protCmd n data = f u) :
    exec i s = .next (f (s.answer false 0)) :=
  hi.trans (congrArg Host.Outcome.next ((hr.access _).trans (hd _)))

section
variable (hr : s.Reaches (O.TRK_PROT_CMD n) key)
include hr

theorem exec_forcedSwitch : exec (.forcedSwitch 0 n) s = .next ((s.answer false 0).forcedSwitch n) :=
  exec_protCmd hr _ 1 _ rfl fun _ => rfl

theorem exec_manualSwitch : exec (.manualSwitch 0 n) s = .next ((s.answer false 0).manualSwitch n) :=
  exec_protCmd hr _ 2 _ rfl fun _ => rfl

theorem exec_lockout : exec (.lockout 0 n) s = .next (s.answer false 0).lockoutCmd := exec_protCmd hr _ 3 _ rfl fun _ => rfl

theorem exec_clearCommand : exec (.clearCommand 0 n) s = .next (s.answer false 0).clearCmd := exec_protCmd hr _ 4 _ rfl fun _ => rfl

end

/-- With no Lockout in effect, requests set at the node stay through the upkeep. -/
theorem State.requests_upkeep (s : State) (v : Node) (hv : v.lockout = s.node.lockout) (hl : ¬ s.LockedOut) :
    (s.setNode v).protUpdate.fixDegraded.node.requests = v.requests :=
  (RequestsKept.upkeep (s.setNode v)).unlocked ((LockedOut.congr (s := s) (t := s.setNode v) rfl rfl hv).not.mpr hl)

theorem State.mem_forced_forcedSwitch (hx : s.cfg = .x) (hl : ¬ s.LockedOut) : n ∈ (s.forcedSwitch n).node.forced := by
  unfold State.forcedSwitch
  split
  · next h => exact h.resolve_left fun hs => Cfg.noConfusion (hx.symm.trans hs)
  · have hreq := s.requests_upkeep { s.node with forced := n :: s.node.forced } rfl hl
    simp only [Node.requests, Prod.mk.injEq] at hreq
    obtain ⟨-, hforced, -⟩ := hreq
    rw [hforced]
    exact List.mem_cons_self

theorem State.mem_manual_manualSwitch (hx : s.cfg = .x) (ht : s.topRequest.1 ≤ 7) : n ∈ (s.manualSwitch n).node.manual := by
  unfold State.manualSwitch
  rw [if_neg (by rw [hx]; decide), if_neg (by omega)]
  split
  · assumption
  · have hreq := s.requests_upkeep { s.node with manual := n :: s.node.manual } rfl (State.not_lockedOut_of_topRequest ht)
    simp only [Node.requests, Prod.mk.injEq] at hreq
    obtain ⟨-, -, hmanual⟩ := hreq
    rw [hmanual]
    exact List.mem_cons_self

theorem State.lockout_lockoutCmd (hx : s.cfg = .x) : s.lockoutCmd.node.lockout = true := by
  unfold State.lockoutCmd
  rw [if_neg (by rw [hx]; decide)]
  exact (RequestsKept.upkeep _).lockout

theorem State.requests_clearCmd (s : State) : s.clearCmd.node.requests = (false, [], []) := by
  obtain h | ⟨-, h⟩ := (RequestsKept.upkeep (s.setNode { s.node with lockout := false, forced := [], manual := [] })).own <;> exact h

theorem switching_forced (hx : s.cfg = .x) (hr : s.Reaches (O.TRK_PROT_CMD n) key) (hl : s.node.lockout = false)
    (he : ∀ m, m < 2 → s.fget (F.TRK_PROT_STAT.EFF_CODE m) ≠ 15) :
    ∃ t, exec (.forcedSwitch 0 n) s = .next t ∧ n ∈ t.node.forced := by
  refine ⟨_, exec_forcedSwitch hr, State.mem_forced_forcedSwitch hx ?_⟩
  rintro (⟨hlock, -⟩ | ⟨m, hm, h15⟩)
  · exact Bool.false_ne_true (hl.symm.trans hlock)
  · exact he m (cellTrunk_lt_two hm) h15

theorem switching_manualRefused (hx : s.cfg = .x) (hn : n < 2) (hr : s.Reaches (O.TRK_PROT_CMD n) key) (ht : 7 < s.topRequest.1) :
    ∃ t, exec (.manualSwitch 0 n) s = .next t ∧ t.flag (F.TRK_PROT_STAT.MS_REFUSED n) = true ∧ t.node = s.node := by
  let u := s.answer false 0
  have hu : u.manualSwitch n = u.setFlag (F.TRK_PROT_STAT.MS_REFUSED n) (srcTrunk u.cfg n + 5) :=
    (if_neg fun hs => Cfg.noConfusion (hx.symm.trans hs)).trans (if_pos ht)
  refine ⟨_, (exec_manualSwitch hr).trans (congrArg _ hu), ?_, ?_⟩
  · refine State.flag_setFlag_self _ _ ?_ (by decide : 2 + 1 ≤ 32) (by decide : 1 < 2 ^ 1)
    simp only [F.TRK_PROT_STAT.MS_REFUSED, O.TRK_PROT_STAT, O.IRQ_PEND]
    omega
  · exact (State.raise_node _ _).trans (State.fset_node _ _ _)

theorem switching_manual (hx : s.cfg = .x) (hr : s.Reaches (O.TRK_PROT_CMD n) key) (ht : s.topRequest.1 ≤ 7) :
    ∃ t, exec (.manualSwitch 0 n) s = .next t ∧ n ∈ t.node.manual :=
  ⟨_, exec_manualSwitch hr, State.mem_manual_manualSwitch hx ht⟩

theorem switching_lockout (hx : s.cfg = .x) (hr : s.Reaches (O.TRK_PROT_CMD n) key) :
    ∃ t, exec (.lockout 0 n) s = .next t ∧ t.node.lockout = true :=
  ⟨_, exec_lockout hr, State.lockout_lockoutCmd hx⟩

theorem switching_clear (hr : s.Reaches (O.TRK_PROT_CMD n) key) :
    ∃ t, exec (.clearCommand 0 n) s = .next t ∧ t.node.lockout = false ∧ t.node.forced = [] ∧ t.node.manual = [] := by
  have h := (s.answer false 0).requests_clearCmd
  simp only [Node.requests, Prod.mk.injEq] at h
  exact ⟨_, exec_clearCommand hr, h⟩

/-- Gweip-S has no switching (R188). -/
theorem switching_lineNode (hs : s.cfg = .s) (hr : s.Reaches (O.TRK_PROT_CMD 0) key) :
    ∀ i ∈ [Instr.forcedSwitch 0 0, .manualSwitch 0 0, .lockout 0 0],
      ∃ t, exec i s = .next t ∧ t.node = s.node ∧ t.regs = s.regs := by
  have hforced : (s.answer false 0).forcedSwitch 0 = s.answer false 0 := if_pos (.inl hs)
  have hmanual : (s.answer false 0).manualSwitch 0 = s.answer false 0 := if_pos hs
  have hlock : (s.answer false 0).lockoutCmd = s.answer false 0 := if_pos hs
  simp only [List.forall_mem_cons, List.not_mem_nil, false_implies, implies_true, and_true]
  exact ⟨⟨_, (exec_forcedSwitch hr).trans (congrArg _ hforced), rfl, rfl⟩,
    ⟨_, (exec_manualSwitch hr).trans (congrArg _ hmanual), rfl, rfl⟩,
    ⟨_, (exec_lockout hr).trans (congrArg _ hlock), rfl, rfl⟩⟩

end

end Sys2Proof.Machine

namespace Sys2Proof.Machine

/-! ### Signal Fail and Signal Degrade (R181) -/

section
variable {s : State} {n : Nat}

/-- Signal Fail becomes the port's local request. -/
theorem switching_signalFail (hc : s.cellTrunk n = true)
    (hf : s.fget (F.TRK_STAT.DELIN n) ≠ 2 ∨ ((s.trunk n).last.isSome = true ∧ 3 ≤ (s.trunk n).age)) :
    ∃ t, exec (.signalFailLocal n) s = .next t ∧ (t.trunk n).sfHeld = true ∧ t.flag (F.TRK_PROT_STAT.SF n) = true := by
  let u := s.setTrunk n { s.trunk n with sfHeld := true }
  have hheld : (u.trunk n).sfHeld = true := congrArg Trunk.sfHeld (State.trunk_setTrunk_self s n _)
  have hcu : u.cellTrunk n = true := hc
  have hup : RequestsKept u.sfShown u.sfUpdate.fixDegraded := (RequestsKept.protUpdate _).trans (RequestsKept.fixDegraded _)
  have hshown := RequestsKept.sfShown u
  have hcs : u.sfShown.cellTrunk n = true := (hshown.cells.cellTrunk n).trans hcu
  have hhs : (u.sfShown.trunk n).sfHeld = true := (hshown.sfHeld n).trans hheld
  exact ⟨u.sfUpdate.fixDegraded, if_pos ⟨hc, hf⟩, (hup.sfHeld n).trans hhs, hup.held n hcs hhs (State.sf_sfShown hcu hheld)⟩

/-- Signal Degrade as a window's end sets it, ends it or leaves it. -/
def State.sdJudged (s : State) (n bad : Nat) : State :=
  if s.fget (F.TRK_PROT_CFG.SD_THR n) < bad then s.fset (F.TRK_PROT_STAT.SD n) 1
  else if bad ≤ s.fget (F.TRK_PROT_CFG.SD_THR n) / 2 then s.fset (F.TRK_PROT_STAT.SD n) 0 else s

theorem State.sd_sdJudged (s : State) (n bad : Nat) : (s.sdJudged n bad).flag (F.TRK_PROT_STAT.SD n) =
    if s.fget (F.TRK_PROT_CFG.SD_THR n) < bad then true
    else if bad ≤ s.fget (F.TRK_PROT_CFG.SD_THR n) / 2 then false else s.flag (F.TRK_PROT_STAT.SD n) := by
  unfold State.sdJudged
  split
  · exact State.flag_fset_self _ _ _ (by decide : 1 + 1 ≤ 32)
  split
  · exact State.flag_fset_self _ _ _ (by decide : 1 + 1 ≤ 32)
  · rfl

theorem State.trunk_sdJudged (s : State) (n bad m : Nat) : (s.sdJudged n bad).trunk m = s.trunk m := by
  unfold State.sdJudged
  split
  · exact State.trunk_fset _ _ _ _
  split
  · exact State.trunk_fset _ _ _ _
  · rfl

/-- The end of a Signal Degrade window. -/
theorem switching_signalDegrade (hc : s.cellTrunk n = true) :
    ∃ t, exec (.sdWindowEnd n) s = .next t ∧ (t.trunk n).sdBad = 0 ∧ t.flag (F.TRK_PROT_STAT.SD n) =
      if s.fget (F.TRK_PROT_CFG.SD_THR n) < (s.trunk n).sdBad then true
      else if (s.trunk n).sdBad ≤ s.fget (F.TRK_PROT_CFG.SD_THR n) / 2 then false else s.flag (F.TRK_PROT_STAT.SD n) := by
  let u := (s.setTrunk n { s.trunk n with sdBad := 0 }).sdJudged n (s.trunk n).sdBad
  have hup := RequestsKept.upkeep u
  refine ⟨u.protUpdate.fixDegraded, if_pos hc, ?_, ?_⟩
  · refine (hup.cells.view Trunk.sdBad (fun _ => rfl) n).trans ?_
    exact congrArg Trunk.sdBad ((State.trunk_sdJudged _ _ _ _).trans (State.trunk_setTrunk_self s n _))
  · have hsd := hup.fld _ (request_sd (cellTrunk_lt_two hc)) (le_refl 1)
    exact (congrArg (fun v => decide (v ≠ 0)) hsd).trans (State.sd_sdJudged _ _ _)

end

/-! ### The end of Wait-to-Restore (R185) -/

section
variable {s t : State} {g : Fld} {n : Nat}

/-- The words that the ring protection writes, beside the mode. -/
def ringWords : List Nat := [O.TRK_PROT_STAT 0, O.TRK_PROT_STAT 1, O.TRK_RING_STAT, O.CLS_FLUSH]

theorem State.updatePairs_lowWords (s : State) : LowWords s s.updatePairs [O.TRK_PROT_STAT 0, O.TRK_PROT_STAT 1] := by
  refine .forEach (fun n hn u => ?_) s
  have hmem : O.TRK_PROT_STAT n ∈ [O.TRK_PROT_STAT 0, O.TRK_PROT_STAT 1] := by
    have hn2 := cellTrunk_lt_two ((s.mem_cellTrunks n).mp hn)
    obtain rfl | rfl : n = 0 ∨ n = 1 := by omega
    · exact List.mem_cons_self
    · exact List.mem_cons_of_mem _ List.mem_cons_self
  have hfset (v : State) (f : Fld) (x : Nat) (hf : f.off = O.TRK_PROT_STAT n) :
      LowWords v (v.fset f x) [O.TRK_PROT_STAT 0, O.TRK_PROT_STAT 1] :=
    (v.fset_lowWords f x).mono (by simpa [hf] using hmem)
  have hqueue (v : State) (w : Urgent) : LowWords v (v.queueUrgent n w) [O.TRK_PROT_STAT 0, O.TRK_PROT_STAT 1] :=
    (State.queueUrgent_keeps (Keeps.refl (ar := [.trunks]) v) n w (Allows.refl _)).lowWords (by decide) (by decide) _
  refine (hfset u (F.TRK_PROT_STAT.LOCAL_CODE n) _ rfl).trans (.ite (.refl _ _) ?_)
  rw [State.fsets_cons, State.fsets_cons, State.fsets_nil]
  have hsent (v : State) (a b : Nat) := (hfset v (F.TRK_PROT_STAT.TX_CODE n) a rfl).trans (hfset _ (F.TRK_PROT_STAT.TX_ORIG n) b rfl)
  exact .ite (hsent _ _ _) ((hsent _ _ _).trans (hqueue _ _))

/-- BLOCKED is no field of the pairs. -/
theorem State.blocked_updatePairs (s : State) (n : Nat) :
    s.updatePairs.fget (F.TRK_PROT_STAT.BLOCKED n) = s.fget (F.TRK_PROT_STAT.BLOCKED n) := by
  have hfset (u : State) (m lo wd v : Nat) (h : 4 ≤ lo) :
      (u.fset ⟨O.TRK_PROT_STAT m, lo, wd⟩ v).fget (F.TRK_PROT_STAT.BLOCKED n) = u.fget (F.TRK_PROT_STAT.BLOCKED n) :=
    State.fget_fset_ne _ _ _ _ (.inr (.inr h))
  simp [State.updatePairs, State.updatePair, hfset, F.TRK_PROT_STAT.LOCAL_CODE, F.TRK_PROT_STAT.TX_CODE, F.TRK_PROT_STAT.TX_ORIG]

theorem State.flushGen_lowWords (s : State) (k : Nat) : LowWords s (s.flushGen k) [O.CLS_FLUSH] := by
  have hgen : (if k = 0 then F.CLS_FLUSH.GEN_T else F.CLS_FLUSH.GEN_A).off = O.CLS_FLUSH := by split <;> rfl
  unfold State.flushGen
  extract_lets f near u
  have hsweep : LowWords s u [O.CLS_FLUSH] := s.fset_lowWords F.CLS_FLUSH.SWEEP 1
  exact .ite hsweep (hsweep.trans (LowWords.trans (fun _ _ _ => State.rd_setCls _ _ _) (hgen ▸ State.fset_lowWords _ f _)))

theorem State.flushRing_lowWords (s : State) : LowWords s s.flushRing [O.TRK_RING_STAT, O.CLS_FLUSH] := by
  have hcount : LowWords s (s.fsat F.TRK_RING_STAT.FLUSHES 1) [O.TRK_RING_STAT, O.CLS_FLUSH] :=
    (s.fset_lowWords F.TRK_RING_STAT.FLUSHES _).mono (by decide)
  exact (LowWords.ite (.refl s _) hcount).trans ((State.flushGen_lowWords _ 0).mono (by decide))

theorem State.block_lowWords (s : State) (n v : Nat) : LowWords s (s.block n v) [O.TRK_PROT_STAT n] :=
  LowWords.trans (fun _ _ _ => State.rd_setTrunk _ _ _ _) (State.fset_lowWords _ _ _)

/-- The owner's state after Wait-to-Restore, before the requests are looked at. -/
def State.wtrEnded (s : State) : State :=
  (((s.block (s.fget F.TRK_RING_CFG.OWNER_PORT) 1).setWtr false 0).flushRing).fset F.TRK_RING_STAT.STATE 0

theorem State.wtrEnded_node (s : State) : s.wtrEnded.node = { s.node with wtr := false } := by
  unfold State.wtrEnded
  rw [State.fset_node, State.flushRing_node, State.setWtr_node, State.block_node]

theorem State.wtrEnded_lowWords (hp : s.fget F.TRK_RING_CFG.OWNER_PORT < 2) : LowWords s s.wtrEnded ringWords := by
  have hport : ∀ k ∈ [O.TRK_PROT_STAT (s.fget F.TRK_RING_CFG.OWNER_PORT)], k ∈ ringWords := by
    obtain h | h : s.fget F.TRK_RING_CFG.OWNER_PORT = 0 ∨ s.fget F.TRK_RING_CFG.OWNER_PORT = 1 := by omega
    all_goals
      rw [h]
      decide
  have hwtr (u : State) : LowWords u (u.setWtr false 0) ringWords :=
    LowWords.trans (fun _ _ _ => State.rd_setNode _ _ _) ((State.fset_lowWords _ _ _).mono (by decide))
  exact (((State.block_lowWords _ _ _).mono hport).trans (hwtr _)).trans
    (((State.flushRing_lowWords _).mono (by decide)).trans ((State.fset_lowWords _ _ _).mono (by decide)))

theorem State.wtrEnded_cells (s : State) : CellsKept s s.wtrEnded :=
  ((((CellsKept.refl s).block _ 1).setWtr false 0).flushRing).fset_ringStat _ _ _

theorem State.fget_wtrEnded_of_request (hg : g.Request) (s : State) : s.wtrEnded.fget g = s.fget g := by
  unfold State.wtrEnded
  exact (State.fget_ringStat_of_request hg _ _ _ _).trans ((State.fget_flushRing_of_request hg _).trans
    ((State.fget_setWtr_of_request hg _ _ _).trans
    (State.fget_block_of_request hg _ _ _)))

theorem State.hmode_wtrEnded (s : State) (n : Nat) : s.wtrEnded.hmode n = s.hmode n := by
  have hg := (modeCopy_block n).spared
  unfold State.wtrEnded State.hmode F.TRK_RING_STAT.STATE
  rw [State.fget_fset_ringStat hg, State.fget_flushRing hg, State.fget_setWtr hg, State.fget_block hg]

/-- A port's request depends on what it comes from. -/
theorem State.portRequest_congr (hc : t.cfg = s.cfg) (hr : t.node.requests = s.node.requests)
    (hf : ∀ g : Fld, g.Request → t.fget g = s.fget g) (hn : n < 2) : t.portRequest n = s.portRequest n := by
  simp only [Node.requests, Prod.mk.injEq] at hr
  obtain ⟨-, hforced, hmanual⟩ := hr
  unfold State.portRequest State.flag
  rw [hc, hforced, hmanual, hf _ (request_sf hn), hf _ (request_sd hn)]

/-- A bound of the top request depends on what the requests come from. -/
theorem State.topRequest_le_congr (hk : CellsKept s t) (hr : t.node.requests = s.node.requests)
    (hf : ∀ g : Fld, g.Request → t.fget g = s.fget g) {c : Nat} (h5 : 5 ≤ c) (h15 : c < 15) (h : s.topRequest.1 ≤ c) :
    t.topRequest.1 ≤ c := by
  obtain ⟨hl, hports⟩ := (State.topRequest_le h5 h15).mp h
  refine (State.topRequest_le h5 h15).mpr ⟨fun ⟨hlock, hcfg⟩ => hl ⟨?_, hk.cfg ▸ hcfg⟩, fun n hn => ?_⟩
  · exact (congrArg Prod.fst hr).symm.trans hlock
  · rw [hk.cellTrunk] at hn
    have hn2 := cellTrunk_lt_two hn
    rw [State.portRequest_congr hk.cfg hr hf hn2, hf _ (request_effCode hn2)]
    exact hports n hn

theorem State.ringRole_congr (hc : t.cfg = s.cfg) (hf : t.fget F.TRK_RING_CFG.ROLE = s.fget F.TRK_RING_CFG.ROLE) :
    t.ringRole = s.ringRole := by
  unfold State.ringRole
  rw [hc, hf]

/-- In IDLE, with no switch request and no Lockout, the ring table has nothing to do. -/
theorem State.ringTable_idle (hidle : s.ringState = 0) (htop : s.topRequest.1 ≤ 5) :
    s.ringTable s.topRequest s.node.top = s.fset F.TRK_RING_STAT.LOCKED 0 := by
  have hstate : (s.fset F.TRK_RING_STAT.LOCKED 0).ringState = 0 := (State.fget_fset_ne _ _ _ _ (by decide)).trans hidle
  have hswitch : ¬ isSwitch s.topRequest.1 = true := fun h => by
    have := isSwitch_range h
    omega
  exact (if_neg (by omega)).trans ((if_pos hstate).trans (if_neg hswitch))

/-- The node has looked at its top request in IDLE. -/
def State.idleLooked (s : State) : State := (s.fset F.TRK_RING_STAT.LOCKED 0).setNode { s.node with top := s.topRequest }

theorem State.fget_idleLooked (s : State) (h : g.off ≠ O.TRK_RING_STAT ∨ 3 ≤ g.lo ∨ g.lo + g.wd ≤ 2) :
    s.idleLooked.fget g = s.fget g :=
  (State.fget_setNode _ _ _).trans (State.fget_fset_ne _ _ _ _ h)

theorem State.idleLooked_cfg (s : State) : s.idleLooked.cfg = s.cfg :=
  (State.setNode_cfg _ _).trans (State.fset_cfg _ _ _)

/-- There an owner blocks OWNER_PORT. -/
theorem State.ringRun_owner (hrole : s.ringRole = 2) (hidle : s.ringState = 0) (htop : s.topRequest.1 ≤ 5) :
    ∃ v, s.ringRun = (s.idleLooked.block (s.fget F.TRK_RING_CFG.OWNER_PORT) 1).fset F.BLK_MODE.PROT v := by
  have hrole' : s.idleLooked.ringRole = 2 :=
    (State.ringRole_congr s.idleLooked_cfg (State.fget_idleLooked s (by decide))).trans hrole
  have hidle' : s.idleLooked.ringState = 0 := (State.fget_idleLooked s (by decide)).trans hidle
  have hport : s.idleLooked.fget F.TRK_RING_CFG.OWNER_PORT = s.fget F.TRK_RING_CFG.OWNER_PORT := State.fget_idleLooked s (by decide)
  have hlooked : (s.fset F.TRK_RING_STAT.LOCKED 0).setNode { (s.fset F.TRK_RING_STAT.LOCKED 0).node with top := s.topRequest } =
      s.idleLooked := by
    rw [State.fset_node]
    rfl
  unfold State.ringRun
  rw [if_neg (by rw [hrole]; decide)]
  dsimp only
  rw [State.ringTable_idle hidle htop, hlooked, if_pos ⟨hrole', hidle'⟩, hport]
  exact ⟨_, rfl⟩

/-- What the owner's ring then shows. -/
theorem State.ringRun_owner_fields (hrole : s.ringRole = 2) (hidle : s.ringState = 0) (htop : s.topRequest.1 ≤ 5) :
    s.ringRun.ringState = 0 ∧ s.ringRun.fget (F.TRK_PROT_STAT.BLOCKED (s.fget F.TRK_RING_CFG.OWNER_PORT)) = 1 ∧
      s.ringRun.node.wtr = s.node.wtr := by
  obtain ⟨v, hrun⟩ := State.ringRun_owner hrole hidle htop
  rw [hrun]
  refine ⟨?_, ?_, ?_⟩
  · refine (State.fget_fset_ne _ _ _ _ (by decide)).trans (((State.block_lowWords _ _ 1).fget _ (by decide) ?_).trans ?_)
    · rw [List.mem_singleton]
      simp only [F.TRK_RING_STAT.STATE, O.TRK_RING_STAT, O.TRK_PROT_STAT]
      omega
    · exact (State.fget_idleLooked s (by decide)).trans hidle
  · refine (State.fget_fset_ne _ _ _ _ (.inl ?_)).trans (State.fget_fset_self _ _ _ (by decide : 3 + 1 ≤ 32))
    simp only [F.TRK_PROT_STAT.BLOCKED, F.BLK_MODE.PROT, O.TRK_PROT_STAT, O.BLK_MODE]
    omega
  · rw [State.fset_node, State.block_node]
    rfl

/-- The upkeep's look at the ring after Wait-to-Restore. -/
theorem State.wtrEnded_ringRun (hrole : s.ringRole = 2) (htop : s.topRequest.1 = 5) (hp : s.fget F.TRK_RING_CFG.OWNER_PORT < 2) :
    s.wtrEnded.updatePairs.ringRun.ringState = 0 ∧
      s.wtrEnded.updatePairs.ringRun.fget (F.TRK_PROT_STAT.BLOCKED (s.fget F.TRK_RING_CFG.OWNER_PORT)) = 1 ∧
      s.wtrEnded.updatePairs.ringRun.node.wtr = false := by
  have hwords : LowWords s s.wtrEnded.updatePairs ringWords :=
    (State.wtrEnded_lowWords hp).trans (s.wtrEnded.updatePairs_lowWords.mono (by decide))
  have hcells : CellsKept s s.wtrEnded.updatePairs := s.wtrEnded_cells.updatePairs
  have hnode : s.wtrEnded.updatePairs.node = { s.node with wtr := false } := s.wtrEnded.updatePairs_node.trans s.wtrEnded_node
  have htop' : s.wtrEnded.updatePairs.topRequest.1 ≤ 5 :=
    State.topRequest_le_congr hcells ((congrArg Node.requests hnode).trans rfl)
      (fun g hg => (State.fget_updatePairs_of_request hg _).trans (State.fget_wtrEnded_of_request hg s)) (by decide) (by decide) htop.le
  have hrole' : s.wtrEnded.updatePairs.ringRole = 2 :=
    (State.ringRole_congr hcells.cfg (hwords.fget _ (by decide) (by decide))).trans hrole
  have hidle : s.wtrEnded.updatePairs.ringState = 0 :=
    (s.wtrEnded.updatePairs_lowWords.fget _ (by decide) (by decide)).trans (State.fget_fset_self _ _ _ (by decide))
  have hport : s.wtrEnded.updatePairs.fget F.TRK_RING_CFG.OWNER_PORT = s.fget F.TRK_RING_CFG.OWNER_PORT :=
    hwords.fget _ (by decide) (by decide)
  have hfields := State.ringRun_owner_fields hrole' hidle htop'
  rwa [hport, hnode] at hfields

theorem State.hmode_protUpdate (s : State) (n : Nat) : s.protUpdate.hmode n = s.hmode n := by
  have hg := (modeCopy_block n).spared
  unfold State.protUpdate State.hmode
  rw [State.fget_updatePairs hg, State.fget_ringRun hg, State.fget_updatePairs hg]

/-- Wait-to-Restore ends: the owner blocks OWNER_PORT and the ring is in IDLE. -/
theorem switching_restored (hrole : s.ringRole = 2) (hpend : s.ringState = 2) (hw : s.node.wtr = true) (htop : s.topRequest.1 = 5)
    (hp : s.fget F.TRK_RING_CFG.OWNER_PORT < 2) (h6 : ∀ h, h < 2 → s.hmode h ≠ 6) :
    ∃ t, exec .wtrExpiry s = .next t ∧ t.node.wtr = false ∧ t.ringState = 0 ∧
      t.flag (F.TRK_PROT_STAT.BLOCKED (s.fget F.TRK_RING_CFG.OWNER_PORT)) = true := by
  obtain ⟨hidle, hblocked, hwtr⟩ := State.wtrEnded_ringRun hrole htop hp
  have hpassed : ModePassed s.wtrEnded.protUpdate s.wtrEnded.protUpdate.fixDegraded :=
    .fixDegraded fun n hn => by
      rw [State.hmode_protUpdate, State.hmode_wtrEnded]
      exact h6 n hn
  refine ⟨s.wtrEnded.protUpdate.fixDegraded, if_pos ⟨hrole, hpend, hw⟩, ?_, ?_, ?_⟩
  · exact (congrArg Node.wtr (hpassed.node.trans (State.updatePairs_node _))).trans hwtr
  · exact (hpassed.fget (by decide) (by decide)).trans (((State.updatePairs_lowWords _).fget _ (by decide) (by decide)).trans hidle)
  · refine congrArg (fun v => decide (v ≠ 0)) (((hpassed.fget ?_ ?_).trans (State.blocked_updatePairs _ _)).trans hblocked) <;>
      simp only [F.TRK_PROT_STAT.BLOCKED, O.TRK_PROT_STAT] <;> omega

end

/-- Settles O29: the commands of TRK_PROT_CMD, Signal Fail, Signal Degrade, and the end of Wait-to-Restore. -/
theorem switchingRequests : Obligations.SwitchingRequests :=
  ⟨fun _ _ _ hx hn hr =>
      ⟨fun hl he => switching_forced hx hr hl he, fun ht => switching_manualRefused hx hn hr ht, fun ht => switching_manual hx hr ht,
        switching_lockout hx hr, switching_clear hr⟩,
    fun _ _ hs hr => switching_lineNode hs hr,
    fun _ _ hc hf => switching_signalFail hc hf,
    fun _ _ hc => switching_signalDegrade hc,
    fun _ hrole hpend hw htop hp h6 => switching_restored hrole hpend hw htop hp h6⟩

end Sys2Proof.Machine
